-- ==== Sys2Proof/Word.lean ====
section
/-! DEFINITION. The word types of the device: 32-bit registers (R14), 64-bit AP registers (R187), bytes. -/
namespace Sys2Proof

/-- A register is 32 bits wide (R14). -/
abbrev Word := BitVec 32

/-- An AP general register is 64 bits wide (R187). -/
abbrev DWord := BitVec 64

/-- A byte of a frame or of a packet buffer. -/
abbrev Byte := BitVec 8

end Sys2Proof
end

