-- ==== Sys2Proof/Syntax.lean ====
section
/-! DEFINITION. The commands of the block with their operands, one constructor per row of spec/opcode_table.json.
An operand is what reaches the block from outside with the command: the access and the value written, the frame or cell
that arrived, the clock within the tick, and the facts of the environment the spec leaves to it (what trained, what a
memory word decoded to, what a check of cryptography found). -/
namespace Sys2Proof

/-- Who can access registers, in the order of R359. -/
inductive Requester where
  | pcie0
  | pcie1
  | sc0
  | sc1
deriving DecidableEq, Repr

/-- A register access: its requester, whether it is a user access (BAR4, R358), its byte enables (R14), and the clock
of the current tick in which it takes effect (R8). -/
structure Acc where
  req : Requester
  user : Bool
  be : Nat
  clk : Nat
deriving DecidableEq, Repr

/-- What issues in an AP slot: a packet context, or, with no context named, the thread's own register set (supervisor or
service program) (R187). -/
structure ApId where
  cluster : Nat
  ap : Nat
  thread : Nat
  ctx : Option Nat
deriving DecidableEq, Repr


/-- The golden image of a kind as the flash holds it (R340, R350): its 512-byte header as a little-endian number (0: none), and what the checks of
cryptography find of it (R341, R342): the key it is wrapped to, the vendor signature, the countersignature, the GCM tag. -/
structure GoldenImage where
  hdr : Nat
  keyOk : Bool
  vendorOk : Bool
  custOk : Bool
  tagOk : Bool
deriving DecidableEq, Repr

/-- An error that a read of a data memory meets, as the environment reports it (R298): the quarter of the memory, the word address within it, kind 1
(errors within one symbol), 2 (uncorrectable) or 3 (poisoned), and the syndrome. -/
structure MemErr where
  unit : Nat
  addr : Nat
  kind : Nat
  symbol : Nat
  pattern : Nat
  syn : Nat
deriving DecidableEq, Repr

/-- What a reset sequence latches and finds on the board (R382, R383): the GPIO levels as straps, which references are good (bit 0 REF_CORE, 1 LREF,
2 FREF, 3 PCIE0_REFCLK, 4 PCIE1_REFCLK), and the timing-wire delay measured, in clocks (R23). -/
structure BootEnv where
  straps : Nat
  refs : Nat
  twDelay : Nat
deriving DecidableEq, Repr
/-- The commands the block takes: one constructor per row of spec/opcode_table.json. -/
inductive Instr where
  /-- REGISTER_WRITE (R16): A host or controller write to a register that has no row of its own, acting on each field as its kind states. -/
  | registerWrite (a : Acc) (addr : Nat) (v : Word)
  /-- LO_READ (R15): A read of a _LO register latches the matching _HI half for that requester. -/
  | loRead (a : Acc) (addr : Nat)
  /-- LO_WRITE (R15): A write of a writable _LO half is held per requester until its _HI is written. -/
  | loWrite (a : Acc) (addr : Nat) (v : Word)
  /-- HI_WRITE (R15): A write of a _HI half makes the full 64-bit value take effect with the held or unchanged low half. -/
  | hiWrite (a : Acc) (addr : Nat) (v : Word)
  /-- RC_READ (R16): A privileged read of an RC register returns its value and clears it to its reset value. -/
  | rcRead (a : Acc) (addr : Nat)
  /-- ST_WRITE (R58): A write of an ST field sets its staged shadow, or is ignored and counted late outside OPEN. -/
  | stWrite (a : Acc) (addr : Nat) (v : Word)
  /-- TICK_BOUNDARY (R38): At each tick boundary TICK_COUNT advances and the per-boundary work of every block takes place. -/
  | tickBoundary (copies cmtCopies scrub : Nat)
  /-- TICK_PLAN (R23): At clock 1,800 the F-die sends the T-die the length of the tick and whether its end is a commit boundary. -/
  | tickPlan (viaLink viaMgmt : Bool)
  /-- FLIT_RECEIVE (R32): A die-to-die flit is received and checked for CRC and sequence, requesting replay on error. -/
  | flitReceive (die bundle seq : Nat) (crcOk aligned : Bool)
  /-- LANE_PARITY_CHECK (R34): At each superframe end the receiver compares each lane's parity error count with LANE_ERR_THR. -/
  | laneParityCheck (die bundle : Nat) (counts : List Nat)
  /-- LANE_REPAIR_COMPLETE (R34): The receiver switches to the spare at the first tick boundary at which both copies agree. -/
  | laneRepairComplete (die bundle : Nat)
  /-- RETRAIN (R34): A RETRAIN write retrains the whole link, accepted only while DOWN or IMPAIRED. -/
  | retrain (a : Acc) (die : Nat) (v : Word)
  /-- AUTO_RETRAIN (R35): Every 64 ticks while DOWN the link retrains when AUTO_RETRAIN is 1 in either page. -/
  | autoRetrain
  /-- D2D_TRAINING_DONE (R34): A link retrain ends, lanes and spares are reassigned and the link state is set from bundles in service. -/
  | d2dTrainingDone (failF failT : List Nat)
  /-- FDIE_ACCESS_TIMEOUT (R36): An F-die access not completed in 4 µs returns 0xFFFF_FFFF or is discarded and is counted. -/
  | fdieAccessTimeout (a : Acc) (isRead : Bool)
  /-- SYNC_EDGE (R43): A rising transition on SYNC_IN is accepted as a tick edge or ignored and counted as early. -/
  | syncEdge (clk : Nat)
  /-- SYNC_TAG (R41): A 32-bit Manchester tag word following an accepted edge is decoded and checked for violations and CRC. -/
  | syncTag (cells : List (Bool × Bool))
  /-- TICK_JUDGMENT (R404): At B + 1,863 − SKEW_ADJ the tick is judged good or anomalous and the alignment state machine advances. -/
  | tickJudgment
  /-- SYNC_OUT_EDGE (R48): OUT_ADV clocks before the boundary SYNC_OUT sends its edge and a repeated or generated tag. -/
  | syncOutEdge (cells : List (Bool × Bool)) (timely : Bool)
  /-- TICK_GEN_CMT (R48): In MASTER mode a write puts COMMIT_NOW with the requested epoch into the next generated tag. -/
  | tickGenCmt (a : Acc) (v : Word)
  /-- CMT_STAGE_CLOSE (R60): Closing the stage freezes staging, records the owner and starts the consistency checker. -/
  | cmtStageClose (a : Acc) (v : Word)
  /-- CHECK_DONE (R56): The consistency checker completes and the state becomes CLOSED or CHECK_FAIL. -/
  | checkDone
  /-- CMT_ARM (R60): A CMT_ARM write with GO arms the commit for a later target epoch or is refused. -/
  | cmtArm (a : Acc) (v : Word)
  /-- REOPEN (R60): CMT_CMD REOPEN returns to OPEN keeping the staged state and clearing the owner. -/
  | reopen (a : Acc)
  /-- DISCARD (R60): CMT_CMD DISCARD starts resetting shadows to live and dropping staged table changes. -/
  | discard (a : Acc)
  /-- DISCARD_DONE (R60): A DISCARD ends within 4 ticks, BUSY clears, the owner is cleared and the state is OPEN. -/
  | discardDone
  /-- ABORT (R60): CMT_CMD ABORT before the decision point returns an ARMED commit to CLOSED. -/
  | abort (a : Acc)
  /-- CMT_CTRL_WRITE (R63): A CMT_CTRL write that would change COMMIT_MODE while ARMED is refused with MODE_ARMED. -/
  | cmtCtrlWrite (a : Acc) (v : Word)
  /-- COMMIT_DECISION (R62): At clock 1,024 the device decides whether an armed commit applies at the coming boundary. -/
  | commitDecision
  /-- LOG_WALK_START (R54): In the first clock after a versioned commit with PREV_COUNT 0 the change-log walks start. -/
  | logWalkStart
  /-- CLASS_LOG_WALK_DONE (R127): The classification change-log walk ends with markers cleaned and deleted entries freed. -/
  | classLogWalkDone
  /-- TERR_LOG_WALK_DONE (R142): The Terrace change-log walk ends with markers cleaned and deleted rows freed. -/
  | terrLogWalkDone
  /-- COPY_REFILL_DONE (R128): The staged copy of a three-copy table is refilled from the current copy after a versioned commit. -/
  | copyRefillDone (page : Nat)
  /-- PAGE_STAGE_DISCARD (R400): PG_STAGE_CTRL.DISCARD returns the page's ST shadows to their live values. -/
  | pageStageDiscard (a : Acc) (page : Nat)
  /-- LINK_TRAINING_DONE (R66): Every lane of a port has trained or locked CDR and the port moves to ALIGNING. -/
  | linkTrainingDone (port : Nat)
  /-- TRAIN_TIMEOUT (R66): A lane not trained within TRAIN_TIMEOUT is marked FAILED and counted. -/
  | trainTimeout (port lane : Nat)
  /-- TRAIN_RETRY (R66): After RETRY_DELAY training restarts on all lanes of the port. -/
  | trainRetry (port : Nat)
  /-- LINK_ALIGNED (R66): Alignment markers and codeword lock are gained and the LINK_UP_HOLD timer starts. -/
  | linkAligned (port : Nat)
  /-- LINK_UP_HOLD_EXPIRY (R66): After LINK_UP_HOLD ms with lock kept the port enters UP. -/
  | linkUpHoldExpiry (port : Nat)
  /-- LINK_LOCK_LOSS (R66): Loss of alignment or codeword lock or a local fault returns the port to ALIGNING. -/
  | linkLockLoss (port : Nat) (am fec : Bool)
  /-- CDR_LOCK_LOSS (R66): Loss of CDR lock on a lane for more than 1 ms returns the port to TRAINING. -/
  | cdrLockLoss (port lane : Nat)
  /-- LOOPBACK_CHANGE (R66): A write changing LPORT_CTRL.LOOPBACK takes the port to DOWN. -/
  | loopbackChange (a : Acc) (port : Nat) (v : Word)
  /-- FEC_CODEWORD (R67): An RS-FEC codeword is decoded, corrected or marked errored, and counted in the histogram. -/
  | fecCodeword (port errs : Nat)
  /-- MAC_RX_FRAME (R70): A frame arrives at the MAC, is checked and passed to steering in segments or discarded. -/
  | macRxFrame (port : Nat) (bytes : List Byte) (codeErr : Option Nat) (clk : Nat)
  /-- PFC_RX (R72): A received PFC frame releases or reloads the pause timer of each enabled priority. -/
  | pfcRx (port enable : Nat) (quanta : List Nat)
  /-- PFC_PAUSE_EXPIRY (R72): A priority's pause timer reaches 0 and the priority is released. -/
  | pfcPauseExpiry (port pri : Nat)
  /-- PFC_STORM (R74): A pause in force for STORM_TIME ms is a storm; the priority is released and PFC ignored. -/
  | pfcStorm (port pri : Nat)
  /-- PFC_STORM_RECOVER_END (R74): At the end of RECOVER_TIME the STORM bit clears and PFC is honoured again. -/
  | pfcStormRecoverEnd (port pri : Nat)
  /-- PFC_TX (R218): The MAC sends a generated PFC frame for a changed pause state ahead of the next data frame. -/
  | pfcTx (port : Nat)
  /-- PFC_REFRESH (R218): Every REFRESH ns while a priority stays paused the MAC sends the PFC frame again. -/
  | pfcRefresh (port : Nat)
  /-- FLEXE_CAL_ACK (R79): A calendar acknowledge of the request exchange is received from the FlexE partner. -/
  | flexeCalAck (engine group : Nat)
  /-- FLEXE_CAL_SWITCH (R79): The FlexE transmit calendar switches on the wire at an overhead multiframe boundary. -/
  | flexeCalSwitch (engine group : Nat)
  /-- CAL_TIMEOUT (R79): No acknowledge within 10 ms keeps the old page and sets CR_PENDING. -/
  | calTimeout (engine group : Nat)
  /-- FLEXE_OVERHEAD_RX (R80): Received FlexE overhead is compared with the configuration and mismatches are flagged. -/
  | flexeOverheadRx (engine group num phys calPage : Nat) (cal : List (Option Nat))
  /-- PTP_STEP (R81): A write of PTP_STEP adds signed nanoseconds to the time of day at the next tick boundary. -/
  | ptpStep (a : Acc) (v : Word)
  /-- PTP_LOAD_GO (R81): A PTP_LOAD_GO write loads the time of day at the next tick boundary. -/
  | ptpLoadGo (a : Acc) (v : Word)
  /-- PTP_TXTS_POP (R84): A read of PTP_TXTS_W0 pops the head two-step timestamp into W0–W3. -/
  | ptpTxtsPop (a : Acc)
  /-- PPS_OUT_PULSE (R85): PPS_OUT rises when the seconds field changes. -/
  | ppsOutPulse
  /-- PPS_OUT_END (R85): After WIDTH µs PPS_OUT falls. -/
  | ppsOutEnd
  /-- PPS_IN_EDGE (R85): A debounced PPS_IN edge captures the time of day or is ignored as too early. -/
  | ppsInEdge (clk : Nat)
  /-- SYNCE_SQUELCH (R87): A SyncE output is held low after its lane loses signal or lock or its port faults. -/
  | synceSquelch (output : Nat)
  /-- SYNCE_RESUME (R87): A squelched SyncE output resumes after the condition is clear for RESUME_MS. -/
  | synceResume (output : Nat)
  /-- PM_SECOND_ROLL (R86): At the first boundary after the time-of-day second changes the PM second rolls. -/
  | pmSecondRoll (late : Bool)
  /-- STEER_ENQUEUE (R92): An eligible frame is hashed to a bucket and placed in its slice sub-queue, paused or discarded. -/
  | steerEnqueue (port : Nat) (beyond : Bool)
  /-- SLICE_ENTRY (R114): A slice takes a packet from its pool and runs parsing, classification, lookup and resolution at fixed clocks. -/
  | sliceEntry (slice clk : Nat) (upset : Option (Nat × Nat × Nat)) (aclUpset : Option Nat) (buf : Option MemErr)
  /-- SLICE_HANDOFF (R94): The slice hands the packet and its metadata to the die-to-die link in entry order. -/
  | sliceHandoff (dir slice : Nat) (tailPending : Bool)
  /-- PIPE_TIMEOUT (R102): A packet not handed off within 1,024 clocks of entry is a slice fault. -/
  | pipeTimeout (dir slice : Nat)
  /-- SLICE_FAULT (R102): A fault source is recorded and fences the slice if enabled, else is counted. -/
  | sliceFault (dir slice src : Nat)
  /-- FENCE_REHOME (R103): At c + 64 the fenced slice's buckets are re-pointed to the dormant slice or dealt out. -/
  | fenceRehome (dir slice : Nat)
  /-- FENCE (R103): A SLICE_CTRL.FENCE write fences the slice with source SOFT. -/
  | fence (a : Acc) (dir slice : Nat) (v : Word)
  /-- STEER_MOVE (R96): A STEER_MOVE write with GO requests a bucket move or is refused. -/
  | steerMove (a : Acc) (v : Word)
  /-- MOVE_START (R97): At the start tick the bucket is PAUSED and a drain marker placed behind its last entry. -/
  | moveStart (dir : Nat)
  /-- MOVE_DONE (R97): At the next boundary the entry names the target and held packets enter its pool. -/
  | moveDone (dir : Nat)
  /-- STEER_EVAC (R101): A STEER_EVAC write with GO starts moving every bucket of a slice to a destination slice. -/
  | steerEvac (a : Acc) (v : Word)
  /-- EVAC_STOP (R101): A STOP write ends the evacuation after the current move. -/
  | evacStop (a : Acc) (v : Word)
  /-- EVAC_NEXT_MOVE (R101): Each tick the evacuation engine starts the move of the next bucket naming the source. -/
  | evacNextMove (dir : Nat)
  /-- ROLE_WRITE (R100): A write of SLICE_CTRL.ROLE changes the slice role or is refused. -/
  | roleWrite (a : Acc) (dir slice : Nat) (v : Word)
  /-- SELFTEST (R407): A SELFTEST write starts the 64-tick self-test or is refused. -/
  | selftest (a : Acc) (dir slice : Nat) (v : Word)
  /-- SELFTEST_PERIODIC (R407): Every SELFTEST_PERIOD superframes a DORMANT slice starts a self-test. -/
  | selftestPeriodic (dir slice : Nat)
  /-- SELFTEST_DONE (R407): A self-test ends after 64 ticks and reports pass or a SELFTEST fault. -/
  | selftestDone (dir slice : Nat) (pass : Bool)
  /-- TBL_READ (R164): A READ table command returns the entry at an index. -/
  | tblRead (a : Acc) (page : Nat)
  /-- TBL_WRITE (R164): A WRITE table command writes or replaces an entry as the page defines. -/
  | tblWrite (a : Acc) (page : Nat)
  /-- TBL_INSERT (R162): An INSERT table command places a new entry, relocating or moving entries as needed. -/
  | tblInsert (a : Acc) (page : Nat)
  /-- TBL_DELETE (R164): A DELETE table command invalidates or marks deleted an entry. -/
  | tblDelete (a : Acc) (page : Nat)
  /-- TBL_MOVE (R124): A MOVE table command copies an ACL entry to a new index and invalidates the old one. -/
  | tblMove (a : Acc) (page : Nat)
  /-- TBL_SEARCH (R164): A SEARCH table command returns the entry a lookup of the current version would find. -/
  | tblSearch (a : Acc) (page : Nat)
  /-- TBL_FLUSH (R164): A FLUSH table command invalidates or zeroes every entry of the covered set. -/
  | tblFlush (a : Acc) (page : Nat)
  /-- UNSUPPORTED (R165): A TBL_CMD with an unlisted OP completes at once with UNSUPPORTED. -/
  | unsupported (a : Acc) (page op : Nat)
  /-- TBL_COMMAND_DONE (R165): A running table command completes, writing results and its status code. -/
  | tblCommandDone (page : Nat)
  /-- TERR_ROW_REWRITE (R144): A Terrace row that failed parity is rewritten from its shadow in the bank's next update slot. -/
  | terrRowRewrite (bank row : Nat)
  /-- TERR_SCRUB_STEP (R145): Every SCRUB_GAP clocks one row of each bank is compared with its shadow and fixed or invalidated. -/
  | terrScrubStep (bank row upset : Nat) (shadowLost : Bool)
  /-- LIVENESS_CLEAR (R150): Within 64 clocks of a bound port leaving UP the hardware clears its liveness bit. -/
  | livenessClear (port clk : Nat)
  /-- NHOP_LIVE (R150): A W1S write to NHOP_LIVE sets liveness bits, losing to a same-clock hardware clear. -/
  | nhopLive (a : Acc) (word : Nat) (v : Word)
  /-- NHOP_LIVE_CLR (R150): A write to NHOP_LIVE_CLR clears liveness bits. -/
  | nhopLiveClr (a : Acc) (word : Nat) (v : Word)
  /-- EGRESS_SLICE_ENTRY (R155): An egress slice parses, runs the egress ACL, reads encapsulation and builds headers. -/
  | egressSliceEntry (slice clk : Nat)
  /-- DEEP_LOOKUP_LATE (R161): A deep lookup unanswered after 400 clocks returns a miss with LATE set. -/
  | deepLookupLate (ap : ApId) (ticket : Nat)
  /-- LEARN_EVENT (R172): The learn engine processes one queued learn event against the current entry state. -/
  | learnEvent
  /-- LEARN_NOTE_POP (R175): A read of LEARN_NOTE_W0 pops the head notification record. -/
  | learnNotePop (a : Acc)
  /-- AGE_PASS_START (R177): Every PASS_TICKS ticks an aging pass starts and CUR advances. -/
  | agePassStart
  /-- AGE_SCAN_VISIT (R176): Each tick the aging scan visits its quota of slots and deletes aged dynamic entries. -/
  | ageScanVisit (n : Nat)
  /-- ADD (R192): ALU fn ADD writes ra + rb to rd. -/
  | add (ap : ApId)
  /-- SUB (R192): ALU fn SUB writes ra − rb to rd. -/
  | sub (ap : ApId)
  /-- AND (R192): ALU fn AND writes ra AND rb to rd. -/
  | and (ap : ApId)
  /-- OR (R192): ALU fn OR writes ra OR rb to rd. -/
  | or (ap : ApId)
  /-- XOR (R192): ALU fn XOR writes ra XOR rb to rd. -/
  | xor (ap : ApId)
  /-- SHL (R192): ALU fn SHL shifts ra left by rb[5:0]. -/
  | shl (ap : ApId)
  /-- SHR (R192): ALU fn SHR shifts ra right logically by rb[5:0]. -/
  | shr (ap : ApId)
  /-- SAR (R192): ALU fn SAR shifts ra right arithmetically by rb[5:0]. -/
  | sar (ap : ApId)
  /-- MUL (R192): ALU fn MUL writes the low 64 bits of ra × rb. -/
  | mul (ap : ApId)
  /-- CMPEQ (R192): ALU fn CMPEQ writes 1 if ra equals rb, else 0. -/
  | cmpeq (ap : ApId)
  /-- CMPLTU (R192): ALU fn CMPLTU writes 1 if ra is below rb unsigned. -/
  | cmpltu (ap : ApId)
  /-- CMPLT (R192): ALU fn CMPLT writes 1 if ra is below rb signed. -/
  | cmplt (ap : ApId)
  /-- CSUM (R192): ALU fn CSUM writes the folded ones'-complement sum of ra and rb. -/
  | csum (ap : ApId)
  /-- POPC (R192): ALU fn POPC writes the population count of ra. -/
  | popc (ap : ApId)
  /-- CLZ (R192): ALU fn CLZ writes the leading zero count of ra. -/
  | clz (ap : ApId)
  /-- ADDI (R192): ADDI adds a sign-extended immediate to ra. -/
  | addi (ap : ApId)
  /-- ANDI (R192): ANDI ANDs ra with a zero-extended immediate. -/
  | andi (ap : ApId)
  /-- ORI (R192): ORI ORs ra with a zero-extended immediate. -/
  | ori (ap : ApId)
  /-- XORI (R192): XORI XORs ra with a zero-extended immediate. -/
  | xori (ap : ApId)
  /-- SHLI (R192): SHLI shifts ra left by an immediate. -/
  | shli (ap : ApId)
  /-- SHRI (R192): SHRI shifts ra right logically by an immediate. -/
  | shri (ap : ApId)
  /-- MOVK (R192): MOVK writes an immediate into one halfword of rd, keeping the rest. -/
  | movk (ap : ApId)
  /-- EXT (R192): EXT extracts a bit field of ra into rd. -/
  | ext (ap : ApId)
  /-- INS (R192): INS inserts the low bits of ra into a field of rd. -/
  | ins (ap : ApId)
  /-- LDH (R189): LDH loads bytes of the packet buffer relative to the window start, or faults with WINDOW. -/
  | ldh (ap : ApId)
  /-- STH (R189): STH stores bytes into the packet buffer relative to the window start, or faults with WINDOW. -/
  | sth (ap : ApId)
  /-- MFS (R187): MFS reads a special register into rd, popping where the register pops. -/
  | mfs (ap : ApId) (clk : Nat)
  /-- MTS (R187): MTS writes a special register, faulting with SR_ACCESS where not writable. -/
  | mts (ap : ApId)
  /-- BEQ (R192): BEQ branches if ra equals rb. -/
  | beq (ap : ApId)
  /-- BNE (R192): BNE branches if ra differs from rb. -/
  | bne (ap : ApId)
  /-- BLTU (R192): BLTU branches if ra is below rb unsigned. -/
  | bltu (ap : ApId)
  /-- BGEU (R192): BGEU branches if ra is at or above rb unsigned. -/
  | bgeu (ap : ApId)
  /-- BLT (R192): BLT branches if ra is below rb signed. -/
  | blt (ap : ApId)
  /-- BGE (R192): BGE branches if ra is at or above rb signed. -/
  | bge (ap : ApId)
  /-- JAL (R192): JAL saves the return address and jumps, outside packet contexts. -/
  | jal (ap : ApId)
  /-- JR (R192): JR jumps to the address in ra, outside packet contexts. -/
  | jr (ap : ApId)
  /-- LKP_EXACT (R193): LKP kind 0 issues an exact-match lookup on a ticket. -/
  | lkpExact (ap : ApId)
  /-- LKP_ROUTE (R193): LKP kind 1 issues a route lookup and resolution on a ticket. -/
  | lkpRoute (ap : ApId)
  /-- LOOKUP_ERR (R193): An LKP of another kind or a disabled table completes with rd 0 and faults. -/
  | lookupErr (ap : ApId)
  /-- PKTRD (R190): PKTRD reads 64 original packet bytes into eight registers on a ticket. -/
  | pktrd (ap : ApId)
  /-- LKT (R197): LKT tries to take a cluster lock without waiting. -/
  | lkt (ap : ApId)
  /-- LOCK (R197): LOCK queues for a cluster lock in FIFO order. -/
  | lock (ap : ApId)
  /-- LOCK_GRANT (R197): A queued LOCK is granted when the lock becomes free and a LOCK event is raised. -/
  | lockGrant (cluster lock : Nat)
  /-- ULK (R197): ULK releases a lock held by the requester, or faults with LOCK_ERR. -/
  | ulk (ap : ApId)
  /-- CRES (R198): CRES reserves a message slot in a channel or returns all ones when full. -/
  | cres (ap : ApId)
  /-- CWR (R198): CWR writes one word of a reserved channel message. -/
  | cwr (ap : ApId)
  /-- CPUB (R198): CPUB publishes a reserved channel message. -/
  | cpub (ap : ApId)
  /-- CRD (R198): CRD pops the head published message of an own channel. -/
  | crd (ap : ApId)
  /-- END (R195): SYS END forwards the packet, applying written special registers, and ends the context. -/
  | apEnd (ap : ApId)
  /-- DROP (R195): SYS DROP discards the packet and ends the context. -/
  | drop (ap : ApId)
  /-- PUNT (R195): SYS PUNT sets FWD to PUNT with a code and ends the context. -/
  | punt (ap : ApId)
  /-- LRN (R194): SYS LRN queues a learn event in the slice learn queue. -/
  | lrn (ap : ApId)
  /-- LIVE (R194): SYS LIVE sets or clears a liveness bit of NHOP. -/
  | live (ap : ApId) (clk : Nat)
  /-- HPUSH (R189): SYS HPUSH moves the window start back, making zero bytes. -/
  | hpush (ap : ApId)
  /-- HPOP (R189): SYS HPOP moves the window start forward. -/
  | hpop (ap : ApId)
  /-- WLK (R193): SYS WLK makes the context wait until the named tickets are free. -/
  | wlk (ap : ApId)
  /-- WFE (R196): SYS WFE waits for an event in the mask and returns and clears pending events. -/
  | wfe (ap : ApId)
  /-- SIG (R192): SYS SIG sends the SIG event to a thread of the same AP. -/
  | sig (ap : ApId)
  /-- TSTART (R192): SYS TSTART starts a thread at an address, supervisor only. -/
  | tstart (ap : ApId)
  /-- TSTOP (R192): SYS TSTOP stops a thread, supervisor only. -/
  | tstop (ap : ApId)
  /-- CREVOKE (R202): SYS CREVOKE revokes a stale channel reservation after the stale timeout. -/
  | crevoke (ap : ApId)
  /-- LREL (R202): SYS LREL releases a stale thread's locks after the stale timeout. -/
  | lrel (ap : ApId)
  /-- BRK (R202): SYS BRK halts the thread for the debugger, a no-operation in a packet context. -/
  | brk (ap : ApId)
  /-- ILLEGAL_OP (R192): An all-zero word or unlisted opcode or fn is issued and faults. -/
  | illegalOp (ap : ApId)
  /-- TICKET_COMPLETE (R193): An asynchronous operation's result is written and its ticket becomes free. -/
  | ticketComplete (ap : ApId) (ticket : Nat)
  /-- TIME_BOUND (R186): A packet context still live D_BOUND clocks after dispatch faults. -/
  | timeBound (ap : ApId)
  /-- ALLWAIT (R201): The all-waiting detector fires when every worker thread is in WFE with nothing armed. -/
  | allwait (cluster ap : Nat)
  /-- AP_TIMER_EXPIRY (R196): A supervisor timer counts down to zero and raises its TIMER event. -/
  | apTimerExpiry (cluster ap timer : Nat)
  /-- STALE (R202): In debug-safe mode a halted thread holding a lock or reservation for REVOKE_TICKS raises STALE. -/
  | stale (cluster ap thread : Nat)
  /-- HALT (R202): Debugger HALT stops a thread after its current slot, refused for workers during dispatch. -/
  | halt (a : Acc) (cluster : Nat) (v : Word)
  /-- RESUME (R202): Debugger RESUME restarts a halted thread. -/
  | resume (a : Acc) (cluster : Nat) (v : Word)
  /-- STEP (R202): Debugger STEP issues one instruction of a halted thread. -/
  | step (a : Acc) (cluster : Nat) (v : Word)
  /-- READ_REG (R202): Debugger READ_REG reads a register of a halted thread into APC_DBG_DATA. -/
  | readReg (a : Acc) (cluster : Nat) (v : Word)
  /-- WRITE_REG (R202): Debugger WRITE_REG writes a register of a halted thread. -/
  | writeReg (a : Acc) (cluster : Nat) (v : Word)
  /-- DISPATCH_EN_WRITE (R182): A write of APC_CTRL.DISPATCH_EN switches workers between packets and service programs, or is refused. -/
  | dispatchEnWrite (a : Acc) (cluster : Nat) (v : Word)
  /-- SUP_START (R199): APC_CTRL.SUP_START restarts thread 15 of every AP at SUP_START_ADDR. -/
  | supStart (a : Acc) (cluster : Nat) (v : Word)
  /-- POKE (R196): An APC_POKE write raises the POKE event on thread 15 of the named APs. -/
  | poke (a : Acc) (cluster : Nat) (v : Word)
  /-- PACKET_HEAD_ARRIVAL (R211): A packet's first segment reaches the T-die and may be admitted and cut through at its head. -/
  | packetHeadArrival (clk : Nat)
  /-- ADMISSION_DECISION (R210): After the tail arrives the packet is policed and admitted into its VOQ or dropped. -/
  | admissionDecision (clk : Nat)
  /-- SPILL_PAGE_WRITE (R219): Staged cells of a spilling VOQ are written to a free HBM page with its side record. -/
  | spillPageWrite (voq page : Nat)
  /-- PAGE_RETURN (R219): The oldest HBM page of a VOQ is read back into its head part. -/
  | pageReturn (voq : Nat)
  /-- STALE_DRAIN (R222): The drain engine discards one packet of a VOQ whose destination is invalid. -/
  | staleDrain
  /-- CALD_PWR_WRITE (R208): A CALD_PWR write powers a Caldera quarter or is refused while cells are used. -/
  | caldPwrWrite (a : Acc) (v : Word)
  /-- EGRESS_ENQUEUE (R229): A reassembled packet enters its egress queue when its last cell or CT_CELLS are in the pool. -/
  | egressEnqueue (clk : Nat)
  /-- EGRESS_DECISION (R233): A scheduler lane picks a ready port and a queue head packet through the hierarchy and hands it off. -/
  | egressDecision (lane clk : Nat) (pool : Option MemErr)
  /-- SHAPER_RELEASE (R237): At a tick boundary the shaper wheel releases due shapers and refills them. -/
  | shaperRelease
  /-- MAC_TX_FRAME (R241): The MAC starts transmitting a frame in PORT_SEQ order, at or after its LAUNCH. -/
  | macTxFrame (port clk : Nat) (starve : Bool) (pool : Option MemErr)
  /-- GATE_OVERSIZE (R244): A held packet longer than its gate's span is discarded after two full cycles. -/
  | gateOversize (eq clk : Nat)
  /-- GATE_LIST_SWITCH (R245): A committed gate list takes over at the first cycle start of the new list. -/
  | gateListSwitch (port clk : Nat)
  /-- LAT_SAMPLE_SET (R246): Each tick the LAT block samples SET_SIZE watched queues. -/
  | latSampleSet (clk : Nat) (complete : Bool)
  /-- CALENDAR_FILL (R261): During a tick the cell engine fills the next frame of each link from the active calendar page. -/
  | calendarFill (poison : List (Nat × MemErr))
  /-- FRAME_RECEIVE (R255): A complete frame enters the lane's slip buffer, discarding pads or the oldest frame on overflow. -/
  | frameReceive (lane hdr : Nat) (msgs : List Nat) (cells : List (Nat × List Byte))
  /-- FRAME_DELIVER (R255): At each local tick boundary the receiver delivers the oldest complete frame. -/
  | frameDeliver
  /-- FRAME_POSITION (R257): A candidate frame position is checked for FAS and HCRC and advances alignment. -/
  | framePosition (lane fas hdr : Nat)
  /-- FRAME_HEADER_RECEIVE (R258): A valid frame header updates FN, identity, RDI and XOFF defect tracking. -/
  | frameHeaderReceive (lane hdr : Nat)
  /-- FABRIC_SIGNAL_LOSS (R258): A fabric lane loses signal, CDR or FEC lock and declares LOS or LOL. -/
  | fabricSignalLoss (lane : Nat) (signal cdr fec : Bool)
  /-- LINK_IN_SERVICE (R259): After CLEAR_TICKS without defects a fabric link enters service. -/
  | linkInService (lane : Nat)
  /-- FABRIC_XOFF_APPLY (R262): A received LANE_XOFF or GROUP_XOFF value applies from the second tick boundary after. -/
  | fabricXoffApply (lane : Nat)
  /-- CELL_RECEIVE (R266): A delivered cell is checked and sent to reorder or reassembly or discarded. -/
  | cellReceive
  /-- REORDER_GAP_TIMEOUT (R267): A held cell waiting REORDER_TICKS makes E skip the missing cells. -/
  | reorderGapTimeout (src : Nat)
  /-- REASSEMBLY (R268): Released cells are reassembled into packets, which are mapped to queues and settled. -/
  | reassembly (buf : Option MemErr)
  /-- MESSAGE_SELECT (R270): By clock 1,791 control messages are chosen for the next frame's message slots. -/
  | messageSelect
  /-- REQUEST (R271): A received REQUEST is stored for its egress queue or refused or dropped. -/
  | request
  /-- GRANT (R273): A received GRANT is held against the VOQ's oldest outstanding request. -/
  | grant
  /-- WITHDRAW (R276): A received WITHDRAW marks the sending device withdrawn. -/
  | withdraw
  /-- RESTORE (R276): A received RESTORE clears the sender's withdrawn mark. -/
  | restore
  /-- CREDIT_ROUND (R271): Each tick the credit engine processes delivered messages and grants stored requests. -/
  | creditRound
  /-- REQUEST_AGE_OUT (R271): A stored request 16 ticks old is discarded. -/
  | requestAgeOut
  /-- REQUEST_REISSUE (R274): A request unanswered 16 ticks after sending is reissued. -/
  | requestReissue (voq : Nat)
  /-- GRANT_EXPIRY (R272): A grant tag is freed GRANT_LIFE ticks after issue, releasing its units. -/
  | grantExpiry
  /-- HELD_GRANT_EXPIRY (R273): A held grant is dropped at its USE_TICKS deadline. -/
  | heldGrantExpiry
  /-- WITHDRAW_TIMEOUT (R276): A withdrawn mark clears after 4 superframes without a WITHDRAW. -/
  | withdrawTimeout
  /-- REFRESH_DUE (R287): A rank's refresh falls due and is issued, postponed or forces a Geyser burst. -/
  | refreshDue (stack rank temp : Nat)
  /-- GEYSER_DONE (R287): A forced Geyser burst ends and the rank reopens. -/
  | geyserDone (stack rank : Nat)
  /-- GEYSER_LIGHT (R288): A lightly loaded rank with owed refreshes issues them one at a time. -/
  | geyserLight (stack rank n : Nat)
  /-- HBM_REQUEST (R283): A requester's HBM request enters a bank queue or waits for an entry. -/
  | hbmRequest (who off bank : Nat) (write : Bool) (data clk : Nat)
  /-- HBM_BURST_ISSUE (R284): A channel picks and issues one burst by the priority order. -/
  | hbmBurstIssue (stack channel clk : Nat)
  /-- SELF_REFRESH_ENTRY (R289): An idle rank enters self-refresh after SR_IDLE. -/
  | selfRefreshEntry (stack rank : Nat)
  /-- SELF_REFRESH_EXIT (R289): A request wakes a rank from self-refresh and issues 800 clocks later. -/
  | selfRefreshExit (stack rank : Nat)
  /-- HBM_CONTROLLER_START (R290): A controller applies repairs, initialises and trains its stack. -/
  | hbmControllerStart (stack : Nat)
  /-- HBM_TRAINING_DONE (R290): Stack training completes, failed channels take spares or INIT_FAIL is set. -/
  | hbmTrainingDone (stack : Nat) (failed avail : List Nat)
  /-- HBM_PERIODIC_RETRAIN (R291): Every TRAIN_PERIOD ms each channel is retrained in turn. -/
  | hbmPeriodicRetrain (stack channel : Nat) (ok : Bool)
  /-- ROW_REPAIR (R292): A hard HBM word's row is repaired by soft post-package repair and listed in eMRAM. -/
  | rowRepair (stack rank row : Nat) (words : List Nat) (bankHas : Bool) (avail : Nat)
  /-- MIG_GO (R296): An HBM_MIG_CMD GO starts a rank migration or is refused. -/
  | migGo (a : Acc) (v : Word)
  /-- MIG_ABORT (R296): An HBM_MIG_CMD ABORT stops a migration and returns routing to the source. -/
  | migAbort (a : Acc) (v : Word)
  /-- AUTO_MIGRATION (R293): In autonomous mode with AUTO_RETIRE the device starts migrating a candidate itself. -/
  | autoMigration (stack : Nat)
  /-- MIGRATION_CHUNK (R294): The migration engine copies one chunk and writes a progress record every 4,096 chunks. -/
  | migrationChunk (stack : Nat)
  /-- MIG_DONE (R294): The last chunk is copied, the slot moves to the target and the source is RETIRED. -/
  | migDone (stack : Nat)
  /-- SINTER_VISIT (R307): A Sinter walker visits a word, writing back corrections or poisoning uncorrectable words. -/
  | sinterVisit (cls page mem addr kind symbol pattern syn pos : Nat) (endPass newer bothBad : Bool)
  /-- STATE_LOST_CLEANUP (R306): Within 100 ms of losing a queue's state the buffer manager frees every cell and page naming it. -/
  | stateLostCleanup (page mem addr : Nat)
  /-- PG_FLIP (R303): Arming PG_FLIP corrupts or poisons the next write of the page's memories. -/
  | pgFlip (a : Acc) (page : Nat) (v : Word)
  /-- SCRUB_RW_POP (R307): A read of SCRUB_RW_W0 pops the head rewrite record. -/
  | scrubRwPop (a : Acc)
  /-- CNT_FREEZE (R316): A CNT_FREEZE write freezes or releases counter reads on both dies at the next boundary. -/
  | cntFreeze (a : Acc) (v : Word)
  /-- FREEZE_END (R316): A freeze ends by itself after FREEZE_TICKS. -/
  | freezeEnd
  /-- FLOW_CACHE_WRITEBACK (R318): A combining cache entry held 64 ticks or evicted is written back to HBM. -/
  | flowCacheWriteback
  /-- PLUME_DUE (R320): A dump set falls due, pages are snapshotted and the dump starts or is skipped. -/
  | plumeDue (set : Nat)
  /-- PLUME_DUMP_DONE (R322): A dump finishes and its record is written to the DMA ring or HBM ring. -/
  | plumeDumpDone (set : Nat) (room : Bool)
  /-- SC_HB_KICK (R332): Controller firmware kicks its heartbeat, also completing BOOT on the first kick. -/
  | scHbKick (a : Acc) (sc : Nat) (v : Word)
  /-- HEARTBEAT_RX (R332): A heartbeat word arrives from the peer and clears MISS_RUN. -/
  | heartbeatRx (sc : Nat) (link : Bool)
  /-- HEARTBEAT_MISS_CHECK (R332): At clock 1,024 a missing peer heartbeat increments MISS_RUN. -/
  | heartbeatMissCheck (sc : Nat)
  /-- CONTROLLER_FAULT (R330): A lockstep mismatch or uncorrectable controller read holds the controller in reset. -/
  | controllerFault (sc clk : Nat)
  /-- TAKEOVER (R334): At the boundary after the decisive miss or fault the standby becomes ACTIVE. -/
  | takeover
  /-- SWITCHOVER (R333): A SWITCHOVER write swaps controller roles at the next boundary or is refused. -/
  | switchover (a : Acc) (sc : Nat) (v : Word)
  /-- RESTART (R333): An SC_CTRL.RESTART write restarts a FAILED, ISOLATED or HELD controller or is refused. -/
  | restart (a : Acc) (sc : Nat) (v : Word)
  /-- HOLD (R333): An SC_CTRL.HOLD write holds a controller in reset or releases it. -/
  | hold (a : Acc) (sc : Nat) (v : Word)
  /-- AUTO_RESTART (R333): After RESTART_DELAY ticks a FAILED controller restarts automatically if under RESTART_MAX. -/
  | autoRestart (sc : Nat)
  /-- BOOT_TIMEOUT (R333): No first kick within 100 ms of load makes the controller FAILED. -/
  | bootTimeout (sc clk : Nat)
  /-- RESTARTS_CLEAR (R333): After 65,536 ticks in STANDBY or ACTIVE RESTARTS returns to 0. -/
  | restartsClear (sc : Nat)
  /-- SPLIT_END (R335): When a path returns with both controllers ACTIVE, SC0 is held in reset. -/
  | splitEnd
  /-- UPD_LOCK_REQ (R344): A port requests the staging lock. -/
  | updLockReq (a : Acc)
  /-- UPD_LOCK_RELEASE (R344): The lock holder releases the staging lock. -/
  | updLockRelease (a : Acc)
  /-- LOCK_TIMEOUT (R344): The staging lock is released after LOCK_TIMEOUT seconds of holder inactivity. -/
  | lockTimeout (clk : Nat)
  /-- VERIFY (R346): UPD_CMD VERIFY starts checking the staged image. -/
  | verify (a : Acc)
  /-- VERIFY_DONE (R346): Verification ends with the slot VERIFIED or REFUSED. -/
  | verifyDone (keyOk vendorOk custOk tagOk : Bool) (digest : Nat)
  /-- CLEAR (R345): UPD_CMD CLEAR empties the staging slot. -/
  | clear (a : Acc)
  /-- START (R349): UPD_CMD START begins loading an image into one part or is refused. -/
  | start (a : Acc) (v : Word)
  /-- START_DONE (R350): A part start ends with the image loaded and the part running, or NO_IMAGE. -/
  | startDone (part clk : Nat) (slotOk : Bool) (gold : GoldenImage)
  /-- UPD_FLOOR_WRITE (R348): A write of UPD_FLOOR raises the golden floor or is ignored if lower. -/
  | updFloorWrite (a : Acc) (kind : Nat) (v : Word)
  /-- REQUIRE_CUST (R343): A W1S write of EMRAM_SEC.REQUIRE_CUST permanently requires countersigned images. -/
  | requireCust (a : Acc) (v : Word)
  /-- LOG_POST (R354): A controller write of EMRAM_LOG_POST2 posts a controller event record. -/
  | logPost (a : Acc) (v : Word)
  /-- PCIE_LINK_DOWN (R356): A port losing its link stops its rings, discards punts, releases locks and ownership. -/
  | pcieLinkDown (port : Nat)
  /-- HOT_RESET (R356): A port receiving hot reset acts as on link loss. -/
  | hotReset (port : Nat)
  /-- FUNCTION_LEVEL_RESET (R356): An FLR acts as link loss and also resets the port's MSI-X, interrupt enables and PCIE page. -/
  | functionLevelReset (port : Nat)
  /-- PCIE_LINK_UP (R355): A port's link trains to L0. -/
  | pcieLinkUp (port speed width : Nat) (flit : Bool)
  /-- IRQ_REARM (R363): An IRQ_REARM write sends one message if any source of the vector is still asserted. -/
  | irqRearm (a : Acc) (v : Word)
  /-- DMA_RING_ENABLE (R365): A write of DMA_RING_CFG.EN enables a ring, resetting HEAD, TAIL and STOPPED, or disables it. -/
  | dmaRingEnable (a : Acc) (ring : Nat) (v : Word)
  /-- DMA_TAIL_WRITE (R366): A TAIL write makes descriptors available or is refused if it would pass HEAD. -/
  | dmaTailWrite (a : Acc) (ring : Nat) (v : Word)
  /-- RX_DESCRIPTOR_WRITE (R368): The device writes an item into RX descriptors and writes them back. -/
  | rxDescriptorWrite (ring addr bufLen clk : Nat)
  /-- COAL_TIMEOUT (R367): COAL_US after the first unsignalled write-back the ring's source asserts. -/
  | coalTimeout (ring clk : Nat)
  /-- RECORD_FLUSH_TIMEOUT (R373): A partly filled record descriptor is written back after its oldest record waits 10 µs. -/
  | recordFlushTimeout (ring clk : Nat)
  /-- INJECT_PIPE (R370): A TX descriptor injects a frame into steering as if received on a line port. -/
  | injectPipe (ring len port : Nat) (data : Option (List Byte)) (clk : Nat)
  /-- INJECT_VOQ (R370): A TX descriptor injects a frame into admission for a VOQ. -/
  | injectVoq (ring len arg0 arg1 : Nat) (data : Option (List Byte)) (clk : Nat)
  /-- HBM_READ (R370): A TX descriptor copies bytes of the HBM table region to host memory. -/
  | hbmRead (ring len off addr clk : Nat)
  /-- POWER_REQUEST (R375): A power request bit write starts powering a domain on or off or is refused. -/
  | powerRequest (a : Acc) (addr : Nat) (v : Word)
  /-- DOMAIN_POWER_ON_DONE (R375): A powered-on domain finishes initialising and its pages leave reset. -/
  | domainPowerOnDone (die dom : Nat)
  /-- DOMAIN_POWER_OFF_DONE (R375): A domain is isolated and its supply removed, losing its contents. -/
  | domainPowerOffDone (die dom : Nat)
  /-- STANDBY_ENTER (R377): A PWR_STBY.ENTER write starts standby retention or is refused. -/
  | standbyEnter (a : Acc) (v : Word)
  /-- STANDBY_ENTERED (R377): Standby entry completes and STBY_DONE is set. -/
  | standbyEntered
  /-- STANDBY_EXIT (R377): The kept controller's EXIT write starts leaving standby retention. -/
  | standbyExit (a : Acc) (v : Word)
  /-- GPIO_WAKE (R377): A rising edge on a GPIO in WAKE mode starts leaving standby retention. -/
  | gpioWake (pin clk : Nat)
  /-- I3C_WAKE (R386): The I3C wake command 0x01 starts leaving standby retention. -/
  | i3cWake
  /-- STANDBY_EXITED (R377): Standby exit completes with domains powered and the retention store restored. -/
  | standbyExited
  /-- POWER_ON (R381): PORESET_N is released and the device runs its reset sequence. -/
  | powerOn (env : BootEnv)
  /-- WARM_PIN (R381): WARM_RST_N asserted causes a device reset, rate-limited. -/
  | warmPin (clk : Nat) (env : BootEnv)
  /-- SOFT (R381): A PWR_RESET write with DEVICE and the key resets the device. -/
  | soft (a : Acc) (v : Word) (env : BootEnv)
  /-- FDIE (R381): A PWR_RESET write with FDIE and the key resets the F-die alone. -/
  | fdie (a : Acc) (v : Word) (env : BootEnv)
  /-- SUPPLY (R378): A rail leaving tolerance for over 10 µs resets the device. -/
  | supply
  /-- THERMAL_TRIP (R389): A die reaching 120 °C asserts THERM_TRIP_N and powers off every switched domain. -/
  | thermalTrip (die : Nat)
  /-- THERMAL_ALERT (R389): A die or stack temperature crossing its threshold asserts or releases THERM_ALERT_N. -/
  | thermalAlert (site temp : Nat)
  /-- REF_LOSS (R380): A reference clock is declared lost and the device holds over or falls back. -/
  | refLoss (ref : Nat)
  /-- REF_RETURN (R380): A lost reference is declared back after 1 ms and the PLLs return to it. -/
  | refReturn (ref : Nat)
  /-- PERST (R385): A PCIE_PERST_N change resets or releases its port. -/
  | perst (port : Nat) (level : Bool)
  /-- GPIO_EVENT (R385): A filtered GPIO input edge raises an event or is rate-limited. -/
  | gpioEvent (pin : Nat) (level : Bool) (clk : Nat)
  /-- SOFT_RESET (R396): A PG_CTRL.SOFT_RESET write performs a full or limited reset of the page. -/
  | softReset (a : Acc) (page : Nat) (v : Word)
  /-- ENABLE (R396): A PG_CTRL.ENABLE write stops or resumes EQS or HBMC, or is refused elsewhere. -/
  | enable (a : Acc) (page : Nat) (v : Word)
  /-- PG_INT_SET (R398): A PG_INT_SET write sets PG_INT_STAT bits as if their events occurred. -/
  | pgIntSet (a : Acc) (page : Nat) (v : Word)
  /-- RX_FAULT_ORDERED_SET (R68): The receive side starts or stops receiving Local Fault or Remote Fault ordered sets, changing LF, RF, the transmit precedence and SES. -/
  | rxFaultOrderedSet (port : Nat) (lf rf : Bool)
  /-- FABRIC_SIGNAL_RETURN (R258): A fabric lane regains signal detect, CDR lock and FEC codeword lock, clearing LOS or LOL and letting alignment leave HUNT. -/
  | fabricSignalReturn (lane : Nat)
  /-- MANAGEMENT_PATH_CHANGE (R35): The in-package management path between the dies fails or returns. -/
  | managementPathChange (up : Bool)
  /-- MSIX_MASK_CHANGE (R362): A host changes MSI-X Enable, the Function Mask or a vector mask, and an unmasked pending vector sends its message. -/
  | msixMaskChange (port : Nat) (enable fmask : Bool) (vec : Nat) (mask : Bool) (addr data : Nat)
  /-- TX_BAD_TYPE (R369): The TX engine takes a descriptor with a TYPE other than INJECT_PIPE, INJECT_VOQ or HBM_READ and completes it with BAD_TYPE. -/
  | txBadType (ring typ clk : Nat)
  /-- PORESET_ASSERT (R381): PORESET_N is driven low, which holds the device in reset and releases THERM_TRIP_N. -/
  | poresetAssert
  /-- SUPPLY_RESTORED (R378): Every rail has been back within tolerance for 1 ms, ending a SUPPLY reset and starting the reset sequence. -/
  | supplyRestored (env : BootEnv)
  /-- FLEXE_OH_LOCK (R77): A FlexE group gains or loses overhead lock or deskew, or a client's 66-bit block stream gains or loses lock. -/
  | flexeOhLock (engine group : Nat) (locked deskewFail : Bool) (clients : Nat)
deriving DecidableEq, Repr

end Sys2Proof
end

