-- ==== Sys2Proof/Decode.lean ====
section
/-! DEFINITION. The command that a table word spells. The opcode table gives no row any bits: commands reach the block over its
ports, buses and pins, never as encoded words, so no word spells a command. -/
namespace Sys2Proof

/-- The command that `nbits` bits of value `w` spell by the table's bits: the table gives none, so no word spells one. -/
def decodeTableWord (_nbits _w : Nat) : Option Instr := none

end Sys2Proof
end

