-- ==== Sys2Proof/Config.lean ====
section
/-! DEFINITION. What an implementation fixes, and the values the spec leaves open: constants with no body, so that
nothing in Lean can evaluate them or prove a value of them. -/
namespace Sys2Proof.Config

/-- FREE. The value drawn as the `n`-th free value: what the spec leaves open after an operation that goes on. -/
opaque freeValue : Nat → Nat

/-- FREE. DEV_UID of each die (R402): written at manufacture, its structure not defined. -/
opaque devUid : Nat → BitVec 64

/-- FREE. The byte string over which the CRC-16 of the flow hash is taken, from the ten fields of STEER_HASH_CFG in the order
[0] to [9], `none` where a field is not enabled (R89 states the fields and not how they are laid out). -/
opaque hashLayout : List (Option Nat) → List Byte

/-- FREE. The device's public key (R342): the 97 bytes of an uncompressed P-384 point as a little-endian number, made at manufacture. -/
opaque deviceKey : BitVec 776

/-- FREE. How many of the cells in use of Caldera (0) or of the egress pool (1) lie in a quarter: the spec does not state where a cell is placed (R206, R229). -/
opaque quarterUse (pool used quarter : Nat) : Nat

end Sys2Proof.Config
end

