-- ==== Sys2Proof/Machine/Bits.lean ====
section
/-! DEFINITION. Bit fields of words kept as numbers (R7), sign extension, and byte order. -/
namespace Sys2Proof.Machine

/-- A bit field: its lowest bit and its width (R7). -/
structure Fld where
  lo : Nat
  w : Nat
deriving DecidableEq, Repr

/-- Bits [lo + w − 1 : lo] of `v`. -/
def bits (v lo w : Nat) : Nat := v / 2 ^ lo % 2 ^ w

/-- `v` with bits [lo + w − 1 : lo] replaced by the low `w` bits of `x`. -/
def setBits (v lo w x : Nat) : Nat :=
  v / 2 ^ (lo + w) * 2 ^ (lo + w) + x % 2 ^ w * 2 ^ lo + v % 2 ^ lo

/-- Bit `i` of `v`. -/
def bit (v i : Nat) : Bool := v / 2 ^ i % 2 == 1

/-- `v` with bit `i` set. -/
def setBit (v i : Nat) : Nat := setBits v i 1 1

/-- `v` with bit `i` clear. -/
def clrBit (v i : Nat) : Nat := setBits v i 1 0

/-- 1 for true, 0 for false. -/
def b2n (b : Bool) : Nat := if b then 1 else 0

/-- The two's-complement reading of the low `w` bits of `v`. -/
def signed (w v : Nat) : Int :=
  if bit v (w - 1) then (v % 2 ^ w : Nat) - (2 ^ w : Nat) else (v % 2 ^ w : Nat)

/-- The low `w` bits of an integer, as a number. -/
def unsigned (w : Nat) (z : Int) : Nat := (z % (2 ^ w : Nat)).toNat

/-- Big-endian value of a list of bytes: wire formats are most significant first (R7). -/
def beNat (l : List Byte) : Nat := l.foldl (fun a b => a * 256 + b.toNat) 0

/-- The `n` bytes of `v`, most significant first. -/
def beBytes : Nat → Nat → List Byte
  | 0, _ => []
  | n + 1, v => BitVec.ofNat 8 (v / 2 ^ (8 * n)) :: beBytes n v

/-- The `n` bytes of `v`, least significant first: registers and in-memory structures are little-endian (R7). -/
def leBytes : Nat → Nat → List Byte
  | 0, _ => []
  | n + 1, v => BitVec.ofNat 8 v :: leBytes n (v / 256)

/-- Little-endian value of a list of bytes. -/
def leNat : List Byte → Nat
  | [] => 0
  | b :: l => b.toNat + 256 * leNat l

/-- The bits of `v` from bit `n − 1` down to bit 0. -/
def bitsOf : Nat → Nat → List Bool
  | 0, _ => []
  | n + 1, v => bit v n :: bitsOf n v

/-- The number of 1 bits among the low `n` bits of `v`. -/
def popcount : Nat → Nat → Nat
  | 0, _ => 0
  | n + 1, v => b2n (bit v n) + popcount n v

/-- The bits of index below `n` that are 1 in `v`, ascending. -/
def onesOf (n v : Nat) : List Nat := (List.range n).filter (bit v ·)

/-- ⌈a ÷ b⌉. -/
def ceilDiv (a b : Nat) : Nat := (a + b - 1) / b

/-- The number whose bit `i` is 1 exactly for the `i` of the list. -/
def maskOf : List Nat → Nat
  | [] => 0
  | i :: l => setBit (maskOf l) i

end Sys2Proof.Machine
end

