-- ==== Sys2Proof/Machine/RegMap.lean ====
section
/-! DEFINITION. The register map of spec/ (chapters 01 to 18): every page of R392 with its registers, written out of
the register tables of the chapters' own text: page bases and register addresses (BAR0 offsets, R13), field positions,
and, for each register, its fields with kind (R16), reset value (R18) and the encodings that are not reserved (R17).
The common page header (chapter 18) is laid out once, for every page. -/
namespace Sys2Proof.Machine

/-! Pages: the BAR0 offset of each (R13, R392). -/
namespace Pg
abbrev DEV : Nat := 0x0
abbrev CMT : Nat := 0x1000
abbrev TICK : Nat := 0x2000
abbrev LPORT (i : Nat) : Nat := 0x10000 + 0x1000 * i
abbrev LSER (i : Nat) : Nat := 0x18000 + 0x1000 * i
abbrev FLEXE (i : Nat) : Nat := 0x20000 + 0x1000 * i
abbrev PTP : Nat := 0x28000
abbrev STEER : Nat := 0x30000
abbrev SBUF (i : Nat) : Nat := 0x38000 + 0x1000 * i
abbrev ISLICE (i : Nat) : Nat := 0x40000 + 0x1000 * i
abbrev ESLICE (i : Nat) : Nat := 0x50000 + 0x1000 * i
abbrev APC (i : Nat) : Nat := 0x60000 + 0x1000 * i
abbrev PARSE : Nat := 0x80000
abbrev CLASS : Nat := 0x81000
abbrev TERR (i : Nat) : Nat := 0x90000 + 0x1000 * i
abbrev TERR_CTL : Nat := 0x98000
abbrev ACL : Nat := 0x99000
abbrev EXM : Nat := 0xA0000
abbrev LEARN : Nat := 0xA1000
abbrev AGE : Nat := 0xA2000
abbrev HSG (i : Nat) : Nat := 0xA8000 + 0x1000 * i
abbrev NHOP : Nat := 0xB0000
abbrev SC0 : Nat := 0xC0000
abbrev D2D_F : Nat := 0xD0000
abbrev D2DL_F (i : Nat) : Nat := 0xD8000 + 0x1000 * i
abbrev PWR_F : Nat := 0xE0000
abbrev CLK_F : Nat := 0xE1000
abbrev RAS_F : Nat := 0xE2000
abbrev LRMON (i : Nat) : Nat := 0xE8000 + 0x1000 * i
abbrev CNT_F : Nat := 0xF0000
abbrev DEV_T : Nat := 0x1000000
abbrev VOQ : Nat := 0x1010000
abbrev ADM : Nat := 0x1011000
abbrev CALD : Nat := 0x1012000
abbrev BUF : Nat := 0x1013000
abbrev CALDQ (i : Nat) : Nat := 0x1014000 + 0x1000 * i
abbrev EQS : Nat := 0x1020000
abbrev SHP : Nat := 0x1021000
abbrev POL : Nat := 0x1022000
abbrev GATE : Nat := 0x1023000
abbrev LAT : Nat := 0x1024000
abbrev EPOOLQ (i : Nat) : Nat := 0x1028000 + 0x1000 * i
abbrev MIR : Nat := 0x1030000
abbrev EQL (i : Nat) : Nat := 0x1038000 + 0x1000 * i
abbrev FSER (i : Nat) : Nat := 0x1040000 + 0x1000 * i
abbrev FCELL : Nat := 0x1050000
abbrev FFRM : Nat := 0x1051000
abbrev FCRD : Nat := 0x1052000
abbrev FPM : Nat := 0x1053000
abbrev FCE (i : Nat) : Nat := 0x1058000 + 0x1000 * i
abbrev HBMC (i : Nat) : Nat := 0x1060000 + 0x1000 * i
abbrev HBM_RAS : Nat := 0x1064000
abbrev HBMTR (i : Nat) : Nat := 0x1068000 + 0x1000 * i
abbrev SCRUB : Nat := 0x1070000
abbrev SC1 : Nat := 0x1080000
abbrev UPD : Nat := 0x1081000
abbrev EMRAM : Nat := 0x1082000
abbrev PCIE (i : Nat) : Nat := 0x1090000 + 0x1000 * i
abbrev DMA : Nat := 0x1092000
abbrev IRQ : Nat := 0x1093000
abbrev D2D_T : Nat := 0x10A0000
abbrev D2DL_T (i : Nat) : Nat := 0x10A8000 + 0x1000 * i
abbrev PWR_T : Nat := 0x10B0000
abbrev CLK_T : Nat := 0x10B1000
abbrev RAS_T : Nat := 0x10B2000
abbrev CNT_T : Nat := 0x10C0000
/-- D2D_F and D2D_T. -/
abbrev D2D (d : Nat) : Nat := if d = 0 then 0xD0000 else 0x10A0000
/-- ISLICE and ESLICE, instance `i`. -/
abbrev SLICE (d i : Nat) : Nat := (if d = 0 then 0x40000 else 0x50000) + 0x1000 * i
/-- RAS_F and RAS_T. -/
abbrev RAS (d : Nat) : Nat := if d = 0 then 0xE2000 else 0x10B2000
/-- SC0 and SC1. -/
abbrev SC (d : Nat) : Nat := if d = 0 then 0xC0000 else 0x1080000
/-- PWR_F and PWR_T. -/
abbrev PWR (d : Nat) : Nat := if d = 0 then 0xE0000 else 0x10B0000
/-- CLK_F and CLK_T. -/
abbrev CLK (d : Nat) : Nat := if d = 0 then 0xE1000 else 0x10B1000
/-- DEV (die 0) and DEV_T (die 1). -/
abbrev DEVd (d : Nat) : Nat := if d = 0 then 0x0 else 0x1000000
/-- D2DL_F and D2DL_T, instance `i`. -/
abbrev D2DL (d i : Nat) : Nat := (if d = 0 then 0xD8000 else 0x10A8000) + 0x1000 * i
/-- CNT_F and CNT_T. -/
abbrev CNT (d : Nat) : Nat := if d = 0 then 0xF0000 else 0x10C0000
end Pg

/-! Registers: the BAR0 offset of each. A register of a page with instances takes the instance first, then its own indices. -/
namespace Rg
abbrev D2D_CTRL (d : Nat) : Nat := Pg.D2D d + 0x100
abbrev D2D_LANE_THR (d : Nat) : Nat := Pg.D2D d + 0x104
abbrev D2D_STAT (d : Nat) : Nat := Pg.D2D d + 0x108
abbrev D2D_BUNDLE_STAT (d n : Nat) : Nat := Pg.D2D d + 0x140 + 0x4 * n
abbrev D2D_CRC_ERR_CNT (d : Nat) : Nat := Pg.D2D d + 0x180
abbrev D2D_REPLAY_CNT (d : Nat) : Nat := Pg.D2D d + 0x184
abbrev D2D_REPAIR_CNT (d : Nat) : Nat := Pg.D2D d + 0x188
abbrev D2D_DISCARD_CNT (d : Nat) : Nat := Pg.D2D d + 0x18C
abbrev TICK_CTRL : Nat := Pg.TICK + 0x100
abbrev TICK_SKEW : Nat := Pg.TICK + 0x104
abbrev TICK_STAT : Nat := Pg.TICK + 0x108
abbrev TICK_PHASE : Nat := Pg.TICK + 0x10C
abbrev TICK_COUNT_LO : Nat := Pg.TICK + 0x110
abbrev TICK_COUNT_HI : Nat := Pg.TICK + 0x114
abbrev TICK_LAST_TAG : Nat := Pg.TICK + 0x118
abbrev TICK_GEN_CMT : Nat := Pg.TICK + 0x11C
abbrev TICK_EARLY_EDGE_CNT : Nat := Pg.TICK + 0x140
abbrev TICK_PHASE_ANOM_CNT : Nat := Pg.TICK + 0x144
abbrev TICK_TAG_ERR_CNT : Nat := Pg.TICK + 0x148
abbrev TICK_TIS_ERR_CNT : Nat := Pg.TICK + 0x14C
abbrev TICK_MISSING_EDGE_CNT : Nat := Pg.TICK + 0x150
abbrev TICK_HOLDOVER_CNT : Nat := Pg.TICK + 0x154
abbrev TICK_OVR_CNT (n : Nat) : Nat := Pg.TICK + 0x180 + 0x4 * n
abbrev CMT_CTRL : Nat := Pg.CMT + 0x100
abbrev CMT_STAGE_CLOSE : Nat := Pg.CMT + 0x104
abbrev CMT_CHECK_STAT : Nat := Pg.CMT + 0x108
abbrev CMT_CHECK_FIRST : Nat := Pg.CMT + 0x10C
abbrev CMT_ARM : Nat := Pg.CMT + 0x110
abbrev CMT_CMD : Nat := Pg.CMT + 0x114
abbrev CMT_STAT : Nat := Pg.CMT + 0x118
abbrev CMT_EPOCH : Nat := Pg.CMT + 0x11C
abbrev CMT_VER : Nat := Pg.CMT + 0x120
abbrev CMT_INFLIGHT : Nat := Pg.CMT + 0x124
abbrev CMT_LAST_APPLY_LO : Nat := Pg.CMT + 0x128
abbrev CMT_LAST_APPLY_HI : Nat := Pg.CMT + 0x12C
abbrev CMT_APPLY_CNT : Nat := Pg.CMT + 0x140
abbrev CMT_MISSED_CNT : Nat := Pg.CMT + 0x144
abbrev CMT_LATE_WRITE_CNT : Nat := Pg.CMT + 0x148
abbrev CMT_EPOCH_JUMP_CNT : Nat := Pg.CMT + 0x14C
abbrev CMT_REFUSE_CNT : Nat := Pg.CMT + 0x150
abbrev LPORT_CFG (i n : Nat) : Nat := Pg.LPORT i + 0x100 + 0x20 * n
abbrev LPORT_CTRL (i n : Nat) : Nat := Pg.LPORT i + 0x104 + 0x20 * n
abbrev LPORT_STAT (i n : Nat) : Nat := Pg.LPORT i + 0x108 + 0x20 * n
abbrev LPORT_PFC_CFG (i n : Nat) : Nat := Pg.LPORT i + 0x10C + 0x20 * n
abbrev LPORT_STORM_CFG (i n : Nat) : Nat := Pg.LPORT i + 0x110 + 0x20 * n
abbrev LPORT_PFC_STAT (i n : Nat) : Nat := Pg.LPORT i + 0x114 + 0x20 * n
abbrev LPORT_PM_CFG (i n : Nat) : Nat := Pg.LPORT i + 0x118 + 0x20 * n
abbrev LPORT_RX_FRAMES_LO (i n : Nat) : Nat := Pg.LPORT i + 0x400 + 0x80 * n
abbrev LPORT_RX_FRAMES_HI (i n : Nat) : Nat := Pg.LPORT i + 0x404 + 0x80 * n
abbrev LPORT_RX_BYTES_LO (i n : Nat) : Nat := Pg.LPORT i + 0x408 + 0x80 * n
abbrev LPORT_RX_BYTES_HI (i n : Nat) : Nat := Pg.LPORT i + 0x40C + 0x80 * n
abbrev LPORT_RX_FCS_ERR_LO (i n : Nat) : Nat := Pg.LPORT i + 0x410 + 0x80 * n
abbrev LPORT_RX_FCS_ERR_HI (i n : Nat) : Nat := Pg.LPORT i + 0x414 + 0x80 * n
abbrev LPORT_RX_RUNT_LO (i n : Nat) : Nat := Pg.LPORT i + 0x418 + 0x80 * n
abbrev LPORT_RX_RUNT_HI (i n : Nat) : Nat := Pg.LPORT i + 0x41C + 0x80 * n
abbrev LPORT_RX_OVERSIZE_LO (i n : Nat) : Nat := Pg.LPORT i + 0x420 + 0x80 * n
abbrev LPORT_RX_OVERSIZE_HI (i n : Nat) : Nat := Pg.LPORT i + 0x424 + 0x80 * n
abbrev LPORT_RX_CODE_ERR_LO (i n : Nat) : Nat := Pg.LPORT i + 0x428 + 0x80 * n
abbrev LPORT_RX_CODE_ERR_HI (i n : Nat) : Nat := Pg.LPORT i + 0x42C + 0x80 * n
abbrev LPORT_RX_PFC_FRAMES_LO (i n : Nat) : Nat := Pg.LPORT i + 0x430 + 0x80 * n
abbrev LPORT_RX_PFC_FRAMES_HI (i n : Nat) : Nat := Pg.LPORT i + 0x434 + 0x80 * n
abbrev LPORT_RX_PAUSE_FRAMES_LO (i n : Nat) : Nat := Pg.LPORT i + 0x438 + 0x80 * n
abbrev LPORT_RX_PAUSE_FRAMES_HI (i n : Nat) : Nat := Pg.LPORT i + 0x43C + 0x80 * n
abbrev LPORT_TX_FRAMES_LO (i n : Nat) : Nat := Pg.LPORT i + 0x440 + 0x80 * n
abbrev LPORT_TX_FRAMES_HI (i n : Nat) : Nat := Pg.LPORT i + 0x444 + 0x80 * n
abbrev LPORT_TX_BYTES_LO (i n : Nat) : Nat := Pg.LPORT i + 0x448 + 0x80 * n
abbrev LPORT_TX_BYTES_HI (i n : Nat) : Nat := Pg.LPORT i + 0x44C + 0x80 * n
abbrev LPORT_TX_PFC_FRAMES_LO (i n : Nat) : Nat := Pg.LPORT i + 0x450 + 0x80 * n
abbrev LPORT_TX_PFC_FRAMES_HI (i n : Nat) : Nat := Pg.LPORT i + 0x454 + 0x80 * n
abbrev LPORT_TX_STOMP_LO (i n : Nat) : Nat := Pg.LPORT i + 0x458 + 0x80 * n
abbrev LPORT_TX_STOMP_HI (i n : Nat) : Nat := Pg.LPORT i + 0x45C + 0x80 * n
abbrev LPORT_FEC_CORR_CW_LO (i n : Nat) : Nat := Pg.LPORT i + 0x460 + 0x80 * n
abbrev LPORT_FEC_CORR_CW_HI (i n : Nat) : Nat := Pg.LPORT i + 0x464 + 0x80 * n
abbrev LPORT_FEC_UNCORR_CW_LO (i n : Nat) : Nat := Pg.LPORT i + 0x468 + 0x80 * n
abbrev LPORT_FEC_UNCORR_CW_HI (i n : Nat) : Nat := Pg.LPORT i + 0x46C + 0x80 * n
abbrev LPORT_FEC_SYM_ERR_LO (i n : Nat) : Nat := Pg.LPORT i + 0x470 + 0x80 * n
abbrev LPORT_FEC_SYM_ERR_HI (i n : Nat) : Nat := Pg.LPORT i + 0x474 + 0x80 * n
abbrev LPORT_PFC_STORM_CNT_LO (i n : Nat) : Nat := Pg.LPORT i + 0x478 + 0x80 * n
abbrev LPORT_PFC_STORM_CNT_HI (i n : Nat) : Nat := Pg.LPORT i + 0x47C + 0x80 * n
abbrev LSER_LANE_CFG (i n : Nat) : Nat := Pg.LSER i + 0x100 + 0x20 * n
abbrev LSER_LANE_STAT (i n : Nat) : Nat := Pg.LSER i + 0x104 + 0x20 * n
abbrev LSER_TRAIN_FAIL_CNT (i n : Nat) : Nat := Pg.LSER i + 0x108 + 0x20 * n
abbrev LSER_FEC_HIST (i n k : Nat) : Nat := Pg.LSER i + 0x200 + 0x40 * n + 0x4 * k
abbrev LSER_GRP_CFG (i : Nat) : Nat := Pg.LSER i + 0x400
abbrev LSER_FW_VER (i : Nat) : Nat := Pg.LSER i + 0x404
abbrev FLEXE_GRP_CFG (i n : Nat) : Nat := Pg.FLEXE i + 0x100 + 0x4 * n
abbrev FLEXE_GRP_PHYS (i n : Nat) : Nat := Pg.FLEXE i + 0x120 + 0x4 * n
abbrev FLEXE_PHY_NUM (i n : Nat) : Nat := Pg.FLEXE i + 0x140 + 0x4 * n
abbrev FLEXE_GRP_STAT (i n : Nat) : Nat := Pg.FLEXE i + 0x1C0 + 0x4 * n
abbrev STEER_CFG : Nat := Pg.STEER + 0x100
abbrev STEER_MOVE : Nat := Pg.STEER + 0x104
abbrev STEER_MOVE_STAT (n : Nat) : Nat := Pg.STEER + 0x108 + 0x4 * n
abbrev STEER_EVAC : Nat := Pg.STEER + 0x110
abbrev STEER_EVAC_STAT (n : Nat) : Nat := Pg.STEER + 0x114 + 0x4 * n
abbrev STEER_STAT : Nat := Pg.STEER + 0x120
abbrev STEER_DROP_CNT : Nat := Pg.STEER + 0x180
abbrev STEER_LL_DROP_CNT : Nat := Pg.STEER + 0x184
abbrev STEER_XOFF_CNT : Nat := Pg.STEER + 0x188
abbrev STEER_MOVE_CNT : Nat := Pg.STEER + 0x18C
abbrev STEER_FENCE_CNT : Nat := Pg.STEER + 0x190
abbrev STEER_HASH_CFG (n : Nat) : Nat := Pg.STEER + 0x200 + 0x4 * n
abbrev STEER_TC_CFG (n : Nat) : Nat := Pg.STEER + 0x300 + 0x4 * n
abbrev SLICE_CTRL (d i : Nat) : Nat := Pg.SLICE d i + 0x100
abbrev SLICE_STAT (d i : Nat) : Nat := Pg.SLICE d i + 0x104
abbrev SLICE_FAULT (d i : Nat) : Nat := Pg.SLICE d i + 0x108
abbrev SLICE_FAULT_EN (d i : Nat) : Nat := Pg.SLICE d i + 0x10C
abbrev SLICE_PKT_CNT_LO (d i : Nat) : Nat := Pg.SLICE d i + 0x180
abbrev SLICE_PKT_CNT_HI (d i : Nat) : Nat := Pg.SLICE d i + 0x184
abbrev SLICE_FENCE_DROP_CNT (d i : Nat) : Nat := Pg.SLICE d i + 0x188
abbrev SLICE_FAULT_CNT (d i : Nat) : Nat := Pg.SLICE d i + 0x18C
abbrev PARSE_CFG : Nat := Pg.PARSE + 0x100
abbrev PARSE_EXC_CFG (n : Nat) : Nat := Pg.PARSE + 0x140 + 0x4 * n
abbrev PARSE_START (n : Nat) : Nat := Pg.PARSE + 0x200 + 0x4 * n
abbrev PARSE_EXC_CNT (n : Nat) : Nat := Pg.PARSE + 0x400 + 0x4 * n
abbrev PARSE_FRAG_CNT : Nat := Pg.PARSE + 0x420
abbrev CLASS_LOG_STAT : Nat := Pg.CLASS + 0x100
abbrev CLASS_UDF (n : Nat) : Nat := Pg.CLASS + 0x180 + 0x4 * n
abbrev CLASS_PORT_CFG (n : Nat) : Nat := Pg.CLASS + 0x200 + 0x4 * n
abbrev CLASS_PORT_DEF (n : Nat) : Nat := Pg.CLASS + 0x300 + 0x4 * n
abbrev CLASS_PROF_CTL (n : Nat) : Nat := Pg.CLASS + 0x400 + 0x20 * n
abbrev CLASS_PROF_SLOTS (n k : Nat) : Nat := Pg.CLASS + 0x404 + 0x20 * n + 0x4 * k
abbrev CLASS_HIT_A_CNT : Nat := Pg.CLASS + 0x600
abbrev CLASS_MISS_A_CNT : Nat := Pg.CLASS + 0x604
abbrev CLASS_HIT_B_CNT : Nat := Pg.CLASS + 0x608
abbrev CLASS_MISS_B_CNT : Nat := Pg.CLASS + 0x60C
abbrev CLASS_DROP_CNT : Nat := Pg.CLASS + 0x610
abbrev CLASS_PUNT_CNT : Nat := Pg.CLASS + 0x614
abbrev CLASS_LOG_FULL_CNT : Nat := Pg.CLASS + 0x618
abbrev ACL_MASK (n : Nat) : Nat := Pg.ACL + 0x100 + 0x4 * n
abbrev ACL_USED0 : Nat := Pg.ACL + 0x140
abbrev ACL_USED1 : Nat := Pg.ACL + 0x144
abbrev ACL_PROF_BANKS (n : Nat) : Nat := Pg.ACL + 0x200 + 0x20 * n
abbrev ACL_PROF_SLOTS (n k : Nat) : Nat := Pg.ACL + 0x204 + 0x20 * n + 0x4 * k
abbrev ACL_PORT_CFG (n : Nat) : Nat := Pg.ACL + 0x400 + 0x4 * n
abbrev ACL_DENY_CNT0 : Nat := Pg.ACL + 0x600
abbrev ACL_DENY_CNT1 : Nat := Pg.ACL + 0x604
abbrev ACL_DENY_EG_CNT : Nat := Pg.ACL + 0x608
abbrev ACL_PUNT_CNT : Nat := Pg.ACL + 0x60C
abbrev TERR_BANK_CFG (i n : Nat) : Nat := Pg.TERR i + 0x100 + 0x4 * n
abbrev TERR_BANK_STAT (i n : Nat) : Nat := Pg.TERR i + 0x140 + 0x4 * n
abbrev TERR_MOVE_CNT (i : Nat) : Nat := Pg.TERR i + 0x180
abbrev TERR_PARITY_CNT (i : Nat) : Nat := Pg.TERR i + 0x184
abbrev TERR_SCRUB_FIX_CNT (i : Nat) : Nat := Pg.TERR i + 0x188
abbrev TERR_SHADOW_ERR_CNT (i : Nat) : Nat := Pg.TERR i + 0x18C
abbrev TERR_CTL_CFG : Nat := Pg.TERR_CTL + 0x100
abbrev TERR_SCRUB_CFG : Nat := Pg.TERR_CTL + 0x104
abbrev TERR_LOG_STAT : Nat := Pg.TERR_CTL + 0x108
abbrev TERR_LOOKUP_CNT_LO : Nat := Pg.TERR_CTL + 0x180
abbrev TERR_LOOKUP_CNT_HI : Nat := Pg.TERR_CTL + 0x184
abbrev TERR_PASS2_CNT_LO : Nat := Pg.TERR_CTL + 0x188
abbrev TERR_PASS2_CNT_HI : Nat := Pg.TERR_CTL + 0x18C
abbrev TERR_MISS_CNT : Nat := Pg.TERR_CTL + 0x190
abbrev TERR_PARITY_DROP_CNT : Nat := Pg.TERR_CTL + 0x194
abbrev TERR_SKIP_CNT : Nat := Pg.TERR_CTL + 0x198
abbrev TERR_LOG_FULL_CNT : Nat := Pg.TERR_CTL + 0x19C
abbrev TERR_CTL_PORT (n : Nat) : Nat := Pg.TERR_CTL + 0x200 + 0x4 * n
abbrev NHOP_CFG : Nat := Pg.NHOP + 0x100
abbrev NHOP_TPID01 : Nat := Pg.NHOP + 0x104
abbrev NHOP_TPID23 : Nat := Pg.NHOP + 0x108
abbrev NHOP_DROP_CNT : Nat := Pg.NHOP + 0x180
abbrev NHOP_PUNT_CNT : Nat := Pg.NHOP + 0x184
abbrev NHOP_TTL_CNT : Nat := Pg.NHOP + 0x188
abbrev NHOP_RESOLVE_ERR_CNT : Nat := Pg.NHOP + 0x18C
abbrev NHOP_PROT_SWITCH_CNT : Nat := Pg.NHOP + 0x190
abbrev NHOP_LIVE_CONFLICT_CNT : Nat := Pg.NHOP + 0x194
abbrev NHOP_ENCAP_ERR_CNT : Nat := Pg.NHOP + 0x198
abbrev NHOP_LIVE (n : Nat) : Nat := Pg.NHOP + 0x400 + 0x4 * n
abbrev NHOP_LIVE_CLR (n : Nat) : Nat := Pg.NHOP + 0x600 + 0x4 * n
abbrev EXM_TBL_CFG (n : Nat) : Nat := Pg.EXM + 0x100 + 0x10 * n
abbrev EXM_TBL_PLACE (n : Nat) : Nat := Pg.EXM + 0x104 + 0x10 * n
abbrev EXM_TBL_SEED (n : Nat) : Nat := Pg.EXM + 0x108 + 0x10 * n
abbrev EXM_TBL_DEEP_BASE (n : Nat) : Nat := Pg.EXM + 0x10C + 0x10 * n
abbrev EXM_TBL_STAT (n : Nat) : Nat := Pg.EXM + 0x300 + 0x4 * n
abbrev EXM_CFG : Nat := Pg.EXM + 0x400
abbrev EXM_MOVE_CNT : Nat := Pg.EXM + 0x480
abbrev EXM_FULL_CNT : Nat := Pg.EXM + 0x484
abbrev EXM_UNCORR_CNT : Nat := Pg.EXM + 0x488
abbrev EXM_DEEP_LATE_CNT : Nat := Pg.EXM + 0x48C
abbrev LEARN_CFG : Nat := Pg.LEARN + 0x100
abbrev LEARN_STAT : Nat := Pg.LEARN + 0x104
abbrev LEARN_NOTE_W0 : Nat := Pg.LEARN + 0x140
abbrev LEARN_NOTE_W1 : Nat := Pg.LEARN + 0x144
abbrev LEARN_NOTE_W2 : Nat := Pg.LEARN + 0x148
abbrev LEARN_NOTE_W3 : Nat := Pg.LEARN + 0x14C
abbrev LEARN_NEW_CNT : Nat := Pg.LEARN + 0x180
abbrev LEARN_REFRESH_CNT : Nat := Pg.LEARN + 0x184
abbrev LEARN_MOVE_CNT : Nat := Pg.LEARN + 0x188
abbrev LEARN_FLAP_CNT : Nat := Pg.LEARN + 0x18C
abbrev LEARN_FREEZE_CNT : Nat := Pg.LEARN + 0x190
abbrev LEARN_FROZEN_HIT_CNT : Nat := Pg.LEARN + 0x194
abbrev LEARN_STATIC_CONFLICT_CNT : Nat := Pg.LEARN + 0x198
abbrev LEARN_FULL_CNT : Nat := Pg.LEARN + 0x19C
abbrev LEARN_QUEUE_DROP_CNT : Nat := Pg.LEARN + 0x1A0
abbrev LEARN_FILTERED_CNT : Nat := Pg.LEARN + 0x1A4
abbrev LEARN_NOTE_DROP_CNT : Nat := Pg.LEARN + 0x1A8
abbrev LEARN_BAD_TABLE_CNT : Nat := Pg.LEARN + 0x1AC
abbrev LEARN_PORT_CFG (n : Nat) : Nat := Pg.LEARN + 0x200 + 0x4 * n
abbrev AGE_CFG : Nat := Pg.AGE + 0x100
abbrev AGE_PASS : Nat := Pg.AGE + 0x104
abbrev AGE_STAT : Nat := Pg.AGE + 0x108
abbrev AGE_PASS_CNT : Nat := Pg.AGE + 0x10C
abbrev AGE_OUT_CNT : Nat := Pg.AGE + 0x180
abbrev AGE_PASS_LONG_CNT : Nat := Pg.AGE + 0x184
abbrev APC_CTRL (i : Nat) : Nat := Pg.APC i + 0x100
abbrev APC_SUP_CFG (i : Nat) : Nat := Pg.APC i + 0x104
abbrev APC_CFG (i : Nat) : Nat := Pg.APC i + 0x108
abbrev APC_POKE (i : Nat) : Nat := Pg.APC i + 0x10C
abbrev APC_DISPATCH (i n : Nat) : Nat := Pg.APC i + 0x140 + 0x4 * n
abbrev APC_EG_CFG (i : Nat) : Nat := Pg.APC i + 0x180
abbrev APC_DBG_CTRL (i : Nat) : Nat := Pg.APC i + 0x1C0
abbrev APC_DBG_CFG (i : Nat) : Nat := Pg.APC i + 0x1C4
abbrev APC_DBG_STAT (i : Nat) : Nat := Pg.APC i + 0x1C8
abbrev APC_DBG_DATA_LO (i : Nat) : Nat := Pg.APC i + 0x1CC
abbrev APC_DBG_DATA_HI (i : Nat) : Nat := Pg.APC i + 0x1D0
abbrev APC_FAULT_CAP_LO (i : Nat) : Nat := Pg.APC i + 0x200
abbrev APC_FAULT_CAP_HI (i : Nat) : Nat := Pg.APC i + 0x204
abbrev APC_VER_STAT (i : Nat) : Nat := Pg.APC i + 0x208
abbrev APC_DISPATCH_CNT_LO (i : Nat) : Nat := Pg.APC i + 0x210
abbrev APC_DISPATCH_CNT_HI (i : Nat) : Nat := Pg.APC i + 0x214
abbrev APC_NOPROG_CNT (i : Nat) : Nat := Pg.APC i + 0x218
abbrev APC_AP_DROP_CNT (i : Nat) : Nat := Pg.APC i + 0x220
abbrev APC_PUNT_CNT (i : Nat) : Nat := Pg.APC i + 0x224
abbrev APC_FAULT_CNT (i : Nat) : Nat := Pg.APC i + 0x228
abbrev APC_FAULT_DROP_CNT (i : Nat) : Nat := Pg.APC i + 0x22C
abbrev APC_SUP_OVF_CNT (i : Nat) : Nat := Pg.APC i + 0x230
abbrev APC_ALLWAIT_CNT (i : Nat) : Nat := Pg.APC i + 0x234
abbrev APC_CHAN_REVOKE_CNT (i : Nat) : Nat := Pg.APC i + 0x238
abbrev APC_LOCK_BUSY_CNT (i : Nat) : Nat := Pg.APC i + 0x23C
abbrev APC_CHAN_FULL_CNT (i : Nat) : Nat := Pg.APC i + 0x240
abbrev APC_CHAN_CFG (i n : Nat) : Nat := Pg.APC i + 0x300 + 0x4 * n
abbrev APC_THREAD_STAT (i n k : Nat) : Nat := Pg.APC i + 0x400 + 0x40 * n + 0x4 * k
abbrev ADM_CFG : Nat := Pg.ADM + 0x100
abbrev ADM_LOSSY_MAX : Nat := Pg.ADM + 0x104
abbrev ADM_RETURN_RSV : Nat := Pg.ADM + 0x108
abbrev ADM_PFC_PRI : Nat := Pg.ADM + 0x10C
abbrev ADM_PFC_TIME : Nat := Pg.ADM + 0x110
abbrev ADM_PFC_SA_LO : Nat := Pg.ADM + 0x114
abbrev ADM_PFC_SA_HI : Nat := Pg.ADM + 0x118
abbrev ADM_ADMIT_CNT_LO : Nat := Pg.ADM + 0x180
abbrev ADM_ADMIT_CNT_HI : Nat := Pg.ADM + 0x184
abbrev ADM_DROP_GLOBAL_CNT : Nat := Pg.ADM + 0x188
abbrev ADM_DROP_SRC_CNT : Nat := Pg.ADM + 0x18C
abbrev ADM_DROP_VOQ_CNT : Nat := Pg.ADM + 0x190
abbrev ADM_DROP_WRED_CNT : Nat := Pg.ADM + 0x194
abbrev ADM_DROP_ONDIE_CNT : Nat := Pg.ADM + 0x198
abbrev ADM_LL_DROP_CNT : Nat := Pg.ADM + 0x19C
abbrev ADM_BAD_TAIL_CNT : Nat := Pg.ADM + 0x1A0
abbrev ADM_CT_CNT : Nat := Pg.ADM + 0x1A4
abbrev ADM_PFC_XOFF_CNT : Nat := Pg.ADM + 0x1A8
abbrev BUF_CFG : Nat := Pg.BUF + 0x100
abbrev BUF_PAGES_TOTAL : Nat := Pg.BUF + 0x104
abbrev BUF_PAGES_FREE : Nat := Pg.BUF + 0x108
abbrev BUF_PAGES_LOW : Nat := Pg.BUF + 0x10C
abbrev BUF_SPILL_PAGE_CNT : Nat := Pg.BUF + 0x180
abbrev BUF_PARTIAL_PAGE_CNT : Nat := Pg.BUF + 0x184
abbrev BUF_RETURN_PAGE_CNT : Nat := Pg.BUF + 0x188
abbrev BUF_NOPAGE_CNT : Nat := Pg.BUF + 0x18C
abbrev BUF_RS_CORR_CNT : Nat := Pg.BUF + 0x190
abbrev BUF_POISON_PAGE_CNT : Nat := Pg.BUF + 0x194
abbrev BUF_PAGE_LOST_CNT : Nat := Pg.BUF + 0x198
abbrev BUF_STOMP_TX_CNT : Nat := Pg.BUF + 0x19C
abbrev BUF_STOMP_RX_DISCARD_CNT : Nat := Pg.BUF + 0x1A0
abbrev BUF_STOMP_RX_ABORT_CNT : Nat := Pg.BUF + 0x1A4
abbrev POL_GREEN_CNT_LO : Nat := Pg.POL + 0x180
abbrev POL_GREEN_CNT_HI : Nat := Pg.POL + 0x184
abbrev POL_YELLOW_CNT_LO : Nat := Pg.POL + 0x188
abbrev POL_YELLOW_CNT_HI : Nat := Pg.POL + 0x18C
abbrev POL_RED_CNT_LO : Nat := Pg.POL + 0x190
abbrev POL_RED_CNT_HI : Nat := Pg.POL + 0x194
abbrev POL_RED_DROP_CNT : Nat := Pg.POL + 0x198
abbrev MIR_SESS_CFG (n : Nat) : Nat := Pg.MIR + 0x100 + 0x10 * n
abbrev MIR_SESS_TRUNC (n : Nat) : Nat := Pg.MIR + 0x104 + 0x10 * n
abbrev MIR_SESS_HINT (n : Nat) : Nat := Pg.MIR + 0x108 + 0x10 * n
abbrev MIR_SESS_POL (n : Nat) : Nat := Pg.MIR + 0x10C + 0x10 * n
abbrev MIR_SAMPLE_CFG (n : Nat) : Nat := Pg.MIR + 0x300 + 0x4 * n
abbrev MIR_COPY_CNT (n : Nat) : Nat := Pg.MIR + 0x400 + 0x4 * n
abbrev MIR_ENGINE_DROP_CNT : Nat := Pg.MIR + 0x480
abbrev EQS_POOL_STAT : Nat := Pg.EQS + 0x100
abbrev EQS_POOL_GRANTED : Nat := Pg.EQS + 0x104
abbrev EQS_POOL_PEAK : Nat := Pg.EQS + 0x108
abbrev EQS_SUB_SEL : Nat := Pg.EQS + 0x10C
abbrev EQS_SUB_STAT : Nat := Pg.EQS + 0x110
abbrev EQS_DEQ_CNT_LO : Nat := Pg.EQS + 0x180
abbrev EQS_DEQ_CNT_HI : Nat := Pg.EQS + 0x184
abbrev EQS_UNDERRUN_CNT : Nat := Pg.EQS + 0x188
abbrev EQS_CT_CNT : Nat := Pg.EQS + 0x18C
abbrev EQS_PORT_CFG (n : Nat) : Nat := Pg.EQS + 0x200 + 0x4 * n
abbrev EQS_PORT_STAT (n : Nat) : Nat := Pg.EQS + 0x300 + 0x4 * n
abbrev SHP_ADJ (n : Nat) : Nat := Pg.SHP + 0x100 + 0x4 * n
abbrev SHP_WHEEL_STAT : Nat := Pg.SHP + 0x110
abbrev SHP_WHEEL_LATE_CNT : Nat := Pg.SHP + 0x180
abbrev GATE_CFG : Nat := Pg.GATE + 0x100
abbrev GATE_PORT_CFG (n : Nat) : Nat := Pg.GATE + 0x200 + 0x10 * n
abbrev GATE_CYCLE (n : Nat) : Nat := Pg.GATE + 0x204 + 0x10 * n
abbrev GATE_BASE_NS (n : Nat) : Nat := Pg.GATE + 0x208 + 0x10 * n
abbrev GATE_BASE_SEC (n : Nat) : Nat := Pg.GATE + 0x20C + 0x10 * n
abbrev GATE_PORT_STAT (n : Nat) : Nat := Pg.GATE + 0x600 + 0x4 * n
abbrev GATE_HOLD_CNT : Nat := Pg.GATE + 0x700
abbrev GATE_OVERSIZE_CNT : Nat := Pg.GATE + 0x704
abbrev GATE_LATE_CNT : Nat := Pg.GATE + 0x708
abbrev LAT_CFG : Nat := Pg.LAT + 0x100
abbrev FSER_LANE_CFG (i n : Nat) : Nat := Pg.FSER i + 0x100 + 0x20 * n
abbrev FSER_LANE_STAT (i n : Nat) : Nat := Pg.FSER i + 0x104 + 0x20 * n
abbrev FSER_FEC_CORR_CNT (i n : Nat) : Nat := Pg.FSER i + 0x108 + 0x20 * n
abbrev FSER_FEC_UNCORR_CNT (i n : Nat) : Nat := Pg.FSER i + 0x10C + 0x20 * n
abbrev FSER_FEC_SYM_ERR_CNT (i n : Nat) : Nat := Pg.FSER i + 0x110 + 0x20 * n
abbrev FSER_PAD_SLIP_CNT (i n : Nat) : Nat := Pg.FSER i + 0x114 + 0x20 * n
abbrev FSER_DATA_SLIP_CNT (i n : Nat) : Nat := Pg.FSER i + 0x118 + 0x20 * n
abbrev FSER_GRP_CFG (i : Nat) : Nat := Pg.FSER i + 0x400
abbrev FSER_FW_VER (i : Nat) : Nat := Pg.FSER i + 0x404
abbrev FFRM_CFG : Nat := Pg.FFRM + 0x100
abbrev FFRM_DEG_CFG : Nat := Pg.FFRM + 0x104
abbrev FFRM_FN_JUMP_CNT : Nat := Pg.FFRM + 0x108
abbrev FFRM_CHG (n : Nat) : Nat := Pg.FFRM + 0x110 + 0x4 * n
abbrev FFRM_EXPECT (n : Nat) : Nat := Pg.FFRM + 0x200 + 0x4 * n
abbrev FFRM_LANE_STAT (n : Nat) : Nat := Pg.FFRM + 0x380 + 0x4 * n
abbrev FFRM_CELL_ERR_CNT (n : Nat) : Nat := Pg.FFRM + 0x500 + 0x4 * n
abbrev FFRM_HDR_ERR_CNT (n : Nat) : Nat := Pg.FFRM + 0x680 + 0x4 * n
abbrev FCELL_CFG : Nat := Pg.FCELL + 0x100
abbrev FCELL_CAL : Nat := Pg.FCELL + 0x104
abbrev FCELL_STAT : Nat := Pg.FCELL + 0x108
abbrev FCELL_TX_CELL_CNT_LO : Nat := Pg.FCELL + 0x180
abbrev FCELL_TX_CELL_CNT_HI : Nat := Pg.FCELL + 0x184
abbrev FCELL_RX_CELL_CNT_LO : Nat := Pg.FCELL + 0x188
abbrev FCELL_RX_CELL_CNT_HI : Nat := Pg.FCELL + 0x18C
abbrev FCELL_CELL_ERR_CNT : Nat := Pg.FCELL + 0x190
abbrev FCELL_MISROUTE_CNT : Nat := Pg.FCELL + 0x194
abbrev FCELL_PORT_ERR_CNT : Nat := Pg.FCELL + 0x198
abbrev FCELL_CIRC_ERR_CNT : Nat := Pg.FCELL + 0x19C
abbrev FCELL_REORDER_LATE_CNT : Nat := Pg.FCELL + 0x1A0
abbrev FCELL_REORDER_SKIP_CNT : Nat := Pg.FCELL + 0x1A4
abbrev FCELL_LOSS_DROP_CNT : Nat := Pg.FCELL + 0x1A8
abbrev FCELL_UNREACH (n : Nat) : Nat := Pg.FCELL + 0x200 + 0x4 * n
abbrev FCRD_CFG : Nat := Pg.FCRD + 0x100
abbrev FCRD_CTRL : Nat := Pg.FCRD + 0x104
abbrev FCRD_STAT : Nat := Pg.FCRD + 0x108
abbrev FCRD_REQ_STORED : Nat := Pg.FCRD + 0x10C
abbrev FCRD_GRANTS_HELD : Nat := Pg.FCRD + 0x110
abbrev FCRD_REQ_TX_CNT : Nat := Pg.FCRD + 0x180
abbrev FCRD_GRANT_TX_CNT : Nat := Pg.FCRD + 0x184
abbrev FCRD_REISSUE_CNT : Nat := Pg.FCRD + 0x188
abbrev FCRD_REQ_REFUSED_CNT : Nat := Pg.FCRD + 0x18C
abbrev FCRD_REQ_DROP_CNT : Nat := Pg.FCRD + 0x190
abbrev FCRD_REQ_AGED_CNT : Nat := Pg.FCRD + 0x194
abbrev FCRD_GRANT_EXPIRED_CNT : Nat := Pg.FCRD + 0x198
abbrev FCRD_UNITS_EXPIRED_CNT : Nat := Pg.FCRD + 0x19C
abbrev FCRD_UNSOLICITED_CNT : Nat := Pg.FCRD + 0x1A0
abbrev FCRD_HOLD_FULL_CNT : Nat := Pg.FCRD + 0x1A4
abbrev FCRD_LATE_PKT_CNT : Nat := Pg.FCRD + 0x1A8
abbrev FCRD_LATE_DROP_CNT : Nat := Pg.FCRD + 0x1AC
abbrev FCRD_MSG_ERR_CNT : Nat := Pg.FCRD + 0x1B0
abbrev FCRD_WD (n : Nat) : Nat := Pg.FCRD + 0x200 + 0x4 * n
abbrev FPM_CFG : Nat := Pg.FPM + 0x100
abbrev FPM_LANE_EN (n : Nat) : Nat := Pg.FPM + 0x104 + 0x4 * n
abbrev HBMC_CFG (i : Nat) : Nat := Pg.HBMC i + 0x100
abbrev HBMC_REF_CFG (i : Nat) : Nat := Pg.HBMC i + 0x104
abbrev HBMC_TEMP (i : Nat) : Nat := Pg.HBMC i + 0x108
abbrev HBMC_STAT (i : Nat) : Nat := Pg.HBMC i + 0x10C
abbrev HBMC_SPARE (i : Nat) : Nat := Pg.HBMC i + 0x110
abbrev HBMC_CFG2 (i : Nat) : Nat := Pg.HBMC i + 0x114
abbrev HBMC_REF_POSTPONE_CNT (i : Nat) : Nat := Pg.HBMC i + 0x180
abbrev HBMC_GEYSER_CNT (i : Nat) : Nat := Pg.HBMC i + 0x184
abbrev HBMC_GEYSER_FORCED_CNT (i : Nat) : Nat := Pg.HBMC i + 0x188
abbrev HBMC_WR_HOLD_CNT (i : Nat) : Nat := Pg.HBMC i + 0x18C
abbrev HBMC_TRAIN_FAIL_CNT (i : Nat) : Nat := Pg.HBMC i + 0x190
abbrev HBMC_PPR_CNT (i : Nat) : Nat := Pg.HBMC i + 0x194
abbrev HBMC_SR_ENTRY_CNT (i : Nat) : Nat := Pg.HBMC i + 0x198
abbrev HBMC_SR_LATE_CNT (i : Nat) : Nat := Pg.HBMC i + 0x19C
abbrev HBMC_FLOW_LOST_CNT (i : Nat) : Nat := Pg.HBMC i + 0x1A0
abbrev HBM_REGION : Nat := Pg.HBM_RAS + 0x100
abbrev HBM_RAS_POLICY : Nat := Pg.HBM_RAS + 0x104
abbrev HBM_MIG_CMD : Nat := Pg.HBM_RAS + 0x108
abbrev HBM_MIG_STAT (n : Nat) : Nat := Pg.HBM_RAS + 0x110 + 0x4 * n
abbrev HBM_MIG_RANKS (n : Nat) : Nat := Pg.HBM_RAS + 0x120 + 0x4 * n
abbrev HBM_RETIRE_REQ : Nat := Pg.HBM_RAS + 0x130
abbrev HBM_RETIRE_CNT : Nat := Pg.HBM_RAS + 0x180
abbrev HBM_MIG_POISON_CNT : Nat := Pg.HBM_RAS + 0x184
abbrev HBM_PPR_FAIL_CNT : Nat := Pg.HBM_RAS + 0x188
abbrev SCRUB_CTRL : Nat := Pg.SCRUB + 0x100
abbrev SCRUB_CLASS_CFG (n : Nat) : Nat := Pg.SCRUB + 0x140 + 0x4 * n
abbrev SCRUB_CLASS_STAT (n : Nat) : Nat := Pg.SCRUB + 0x1C0 + 0x4 * n
abbrev SCRUB_RW_W0 : Nat := Pg.SCRUB + 0x300
abbrev SCRUB_RW_W1 : Nat := Pg.SCRUB + 0x304
abbrev SCRUB_CE_CNT (n : Nat) : Nat := Pg.SCRUB + 0x400 + 0x10 * n
abbrev SCRUB_UE_CNT (n : Nat) : Nat := Pg.SCRUB + 0x404 + 0x10 * n
abbrev SCRUB_HARD_CNT (n : Nat) : Nat := Pg.SCRUB + 0x408 + 0x10 * n
abbrev SCRUB_WB_SKIP_CNT (n : Nat) : Nat := Pg.SCRUB + 0x40C + 0x10 * n
abbrev SCRUB_SKIP_CNT : Nat := Pg.SCRUB + 0x500
abbrev SCRUB_RW_DROP_CNT : Nat := Pg.SCRUB + 0x504
abbrev SCRUB_HIST_EVICT_CNT : Nat := Pg.SCRUB + 0x508
abbrev RAS_CE_PEND (d n : Nat) : Nat := Pg.RAS d + 0x100 + 0x4 * n
abbrev RAS_UE_PEND (d n : Nat) : Nat := Pg.RAS d + 0x120 + 0x4 * n
abbrev RAS_CE_THR (d : Nat) : Nat := Pg.RAS d + 0x140
abbrev RAS_STORM (d : Nat) : Nat := Pg.RAS d + 0x144
abbrev RAS_CE_CNT (d n : Nat) : Nat := Pg.RAS d + 0x180 + 0x10 * n
abbrev RAS_UE_CNT (d n : Nat) : Nat := Pg.RAS d + 0x184 + 0x10 * n
abbrev RAS_POISON_READ_CNT (d n : Nat) : Nat := Pg.RAS d + 0x188 + 0x10 * n
abbrev RAS_RMW_POISON_CNT (d n : Nat) : Nat := Pg.RAS d + 0x18C + 0x10 * n
abbrev RAS_TW_DISAGREE_CNT (d : Nat) : Nat := Pg.RAS d + 0x300
abbrev RAS_REPAIR_FULL_CNT (d : Nat) : Nat := Pg.RAS d + 0x304
abbrev RAS_REPAIR_USED (d : Nat) : Nat := Pg.RAS d + 0x308
abbrev RAS_EPOOL_DROP_CNT (d : Nat) : Nat := Pg.RAS d + 0x310
abbrev RAS_EPOOL_ABORT_CNT (d : Nat) : Nat := Pg.RAS d + 0x314
abbrev RAS_STATE_LOST_CNT (d : Nat) : Nat := Pg.RAS d + 0x318
abbrev RAS_FLOW_RESET_CNT (d : Nat) : Nat := Pg.RAS d + 0x31C
abbrev CNT_FREEZE : Nat := Pg.CNT_F + 0x100
abbrev CNT_STAT : Nat := Pg.CNT_F + 0x104
abbrev CNT_PM_CFG (d : Nat) : Nat := Pg.CNT d + 0x140
abbrev CNT_PM_TCA (d : Nat) : Nat := Pg.CNT d + 0x144
abbrev CNT_TCA_STAT (d n : Nat) : Nat := Pg.CNT d + 0x150 + 0x4 * n
abbrev PLUME_HBM_BASE : Nat := Pg.CNT_T + 0x100
abbrev PLUME_HBM_SIZE : Nat := Pg.CNT_T + 0x104
abbrev PLUME_HBM_WP : Nat := Pg.CNT_T + 0x108
abbrev PLUME_LIST_GEN : Nat := Pg.CNT_T + 0x10C
abbrev PLUME_CFG : Nat := Pg.CNT_T + 0x110
abbrev PLUME_SET_CFG (n : Nat) : Nat := Pg.CNT_T + 0x200 + 0x10 * n
abbrev PLUME_SET_LIST (n : Nat) : Nat := Pg.CNT_T + 0x204 + 0x10 * n
abbrev PLUME_SET_PHASE (n : Nat) : Nat := Pg.CNT_T + 0x208 + 0x10 * n
abbrev PLUME_SET_STAT (n : Nat) : Nat := Pg.CNT_T + 0x20C + 0x10 * n
abbrev PLUME_SKIP_CNT (n : Nat) : Nat := Pg.CNT_T + 0x400 + 0x4 * n
abbrev PLUME_DROP_CNT (n : Nat) : Nat := Pg.CNT_T + 0x440 + 0x4 * n
abbrev CNT_FLOW_DROP_CNT : Nat := Pg.CNT_T + 0x480
abbrev SC_CTRL (d : Nat) : Nat := Pg.SC d + 0x100
abbrev SC_CFG (d : Nat) : Nat := Pg.SC d + 0x104
abbrev SC_STAT (d : Nat) : Nat := Pg.SC d + 0x108
abbrev SC_HB_KICK (d : Nat) : Nat := Pg.SC d + 0x10C
abbrev SC_HB_RX (d : Nat) : Nat := Pg.SC d + 0x110
abbrev SC_AUTO_POLICY (d : Nat) : Nat := Pg.SC d + 0x114
abbrev SC_TAKEOVER_CNT (d : Nat) : Nat := Pg.SC d + 0x180
abbrev SC_MISS_CNT (d : Nat) : Nat := Pg.SC d + 0x184
abbrev SC_FAULT_CNT (d : Nat) : Nat := Pg.SC d + 0x188
abbrev SC_RESTART_CNT (d : Nat) : Nat := Pg.SC d + 0x18C
abbrev SC_STANDBY_WR_CNT (d : Nat) : Nat := Pg.SC d + 0x190
abbrev UPD_LOCK : Nat := Pg.UPD + 0x100
abbrev UPD_LOCK_STAT : Nat := Pg.UPD + 0x104
abbrev UPD_CMD : Nat := Pg.UPD + 0x108
abbrev UPD_STAT : Nat := Pg.UPD + 0x10C
abbrev UPD_SEQ_LO : Nat := Pg.UPD + 0x110
abbrev UPD_SEQ_HI : Nat := Pg.UPD + 0x114
abbrev UPD_CFG : Nat := Pg.UPD + 0x118
abbrev UPD_ARB_LO (n : Nat) : Nat := Pg.UPD + 0x140 + 0x8 * n
abbrev UPD_ARB_HI (n : Nat) : Nat := Pg.UPD + 0x144 + 0x8 * n
abbrev UPD_FLOOR_LO (n : Nat) : Nat := Pg.UPD + 0x180 + 0x8 * n
abbrev UPD_FLOOR_HI (n : Nat) : Nat := Pg.UPD + 0x184 + 0x8 * n
abbrev UPD_REFUSE_CNT : Nat := Pg.UPD + 0x200
abbrev UPD_ACTIVATE_CNT : Nat := Pg.UPD + 0x204
abbrev UPD_GOLDEN_CNT : Nat := Pg.UPD + 0x208
abbrev UPD_COLLISION_CNT : Nat := Pg.UPD + 0x20C
abbrev EMRAM_SEC : Nat := Pg.EMRAM + 0x100
abbrev EMRAM_LOG_WP : Nat := Pg.EMRAM + 0x104
abbrev EMRAM_LOG_SEQ : Nat := Pg.EMRAM + 0x108
abbrev EMRAM_LOG_CFG : Nat := Pg.EMRAM + 0x10C
abbrev EMRAM_LOG_POST0 : Nat := Pg.EMRAM + 0x110
abbrev EMRAM_LOG_POST1 : Nat := Pg.EMRAM + 0x114
abbrev EMRAM_LOG_POST2 : Nat := Pg.EMRAM + 0x118
abbrev EMRAM_LOG_DROP_CNT : Nat := Pg.EMRAM + 0x180
abbrev EMRAM_WRITE_CNT_LO : Nat := Pg.EMRAM + 0x188
abbrev EMRAM_WRITE_CNT_HI : Nat := Pg.EMRAM + 0x18C
abbrev PCIE_STAT (i : Nat) : Nat := Pg.PCIE i + 0x100
abbrev PCIE_PARTIAL_WR_CNT (i : Nat) : Nat := Pg.PCIE i + 0x180
abbrev PCIE_USER_DENY_CNT (i : Nat) : Nat := Pg.PCIE i + 0x184
abbrev PCIE_USER_WR_CNT (i : Nat) : Nat := Pg.PCIE i + 0x188
abbrev PCIE_FDIE_FAIL_CNT (i : Nat) : Nat := Pg.PCIE i + 0x18C
abbrev PCIE_LINK_DOWN_CNT (i : Nat) : Nat := Pg.PCIE i + 0x190
abbrev DMA_RING_CFG (n : Nat) : Nat := Pg.DMA + 0x100 + 0x10 * n
abbrev DMA_RING_BASE_LO (n : Nat) : Nat := Pg.DMA + 0x104 + 0x10 * n
abbrev DMA_RING_BASE_HI (n : Nat) : Nat := Pg.DMA + 0x108 + 0x10 * n
abbrev DMA_RING_PTR (n : Nat) : Nat := Pg.DMA + 0x10C + 0x10 * n
abbrev DMA_NOTE_CFG : Nat := Pg.DMA + 0x500
abbrev DMA_RW_CFG : Nat := Pg.DMA + 0x504
abbrev DMA_PUNT_NOMAP_CNT : Nat := Pg.DMA + 0x580
abbrev DMA_PUNT_DOWN_CNT : Nat := Pg.DMA + 0x584
abbrev DMA_INJ_CNT : Nat := Pg.DMA + 0x588
abbrev DMA_INJ_DROP_CNT : Nat := Pg.DMA + 0x58C
abbrev DMA_TX_ERR_CNT : Nat := Pg.DMA + 0x590
abbrev PWR_DOM_REQ (d n : Nat) : Nat := Pg.PWR d + 0x100 + 0x4 * n
abbrev PWR_DOM_STAT (d n : Nat) : Nat := Pg.PWR d + 0x108 + 0x4 * n
abbrev PWR_DOM_PRESENT (d n : Nat) : Nat := Pg.PWR d + 0x110 + 0x4 * n
abbrev PWR_STBY (d : Nat) : Nat := Pg.PWR d + 0x120
abbrev PWR_RESET (d : Nat) : Nat := Pg.PWR d + 0x130
abbrev PWR_RESET_CAUSE (d : Nat) : Nat := Pg.PWR d + 0x134
abbrev PWR_TEMP (d : Nat) : Nat := Pg.PWR d + 0x140
abbrev PWR_STRAP (d : Nat) : Nat := Pg.PWR d + 0x150
abbrev PWR_GPIO_CFG (d n : Nat) : Nat := Pg.PWR d + 0x160 + 0x4 * n
abbrev PWR_REFUSE_CNT (d : Nat) : Nat := Pg.PWR d + 0x180
abbrev PWR_GPIO_RATE_CNT (d : Nat) : Nat := Pg.PWR d + 0x184
abbrev PWR_WARM_IGNORED_CNT (d : Nat) : Nat := Pg.PWR d + 0x188
abbrev CLK_STAT (d : Nat) : Nat := Pg.CLK d + 0x100
abbrev CLK_CFG (d : Nat) : Nat := Pg.CLK d + 0x104
abbrev CLK_REF_A_LOSS_CNT (d : Nat) : Nat := Pg.CLK d + 0x180
abbrev CLK_REF_B_LOSS_CNT (d : Nat) : Nat := Pg.CLK d + 0x184
abbrev CLK_REF_C_LOSS_CNT (d : Nat) : Nat := Pg.CLK d + 0x188
abbrev CLK_UNLOCK_CNT (d : Nat) : Nat := Pg.CLK d + 0x18C
abbrev PTP_TOD_NS : Nat := Pg.PTP + 0x100
abbrev PTP_TOD_SEC_LO : Nat := Pg.PTP + 0x104
abbrev PTP_TOD_SEC_HI : Nat := Pg.PTP + 0x108
abbrev PTP_INCR : Nat := Pg.PTP + 0x10C
abbrev PTP_STEP : Nat := Pg.PTP + 0x110
abbrev PTP_LOAD_NS : Nat := Pg.PTP + 0x114
abbrev PTP_LOAD_SEC_LO : Nat := Pg.PTP + 0x118
abbrev PTP_LOAD_SEC_HI : Nat := Pg.PTP + 0x11C
abbrev PTP_LOAD_GO : Nat := Pg.PTP + 0x120
abbrev PTP_PPS_CFG : Nat := Pg.PTP + 0x124
abbrev PTP_PPS_IN_TS (n : Nat) : Nat := Pg.PTP + 0x128 + 0x4 * n
abbrev PTP_TXTS_W0 : Nat := Pg.PTP + 0x140
abbrev PTP_TXTS_W1 : Nat := Pg.PTP + 0x144
abbrev PTP_TXTS_W2 : Nat := Pg.PTP + 0x148
abbrev PTP_TXTS_W3 : Nat := Pg.PTP + 0x14C
abbrev PTP_SYNCE_CFG (n : Nat) : Nat := Pg.PTP + 0x160 + 0x4 * n
abbrev PTP_RX_CORR (n : Nat) : Nat := Pg.PTP + 0x200 + 0x8 * n
abbrev PTP_TX_CORR (n : Nat) : Nat := Pg.PTP + 0x204 + 0x8 * n
abbrev PTP_TXTS_DROP_CNT : Nat := Pg.PTP + 0x400
abbrev PTP_CMD_ERR_CNT : Nat := Pg.PTP + 0x404
abbrev PTP_PPS_IGNORED_CNT : Nat := Pg.PTP + 0x408
abbrev VOQ_STAT : Nat := Pg.VOQ + 0x100
abbrev VOQ_SPILLED : Nat := Pg.VOQ + 0x104
abbrev VOQ_STALE_DROP_CNT : Nat := Pg.VOQ + 0x180
abbrev VOQ_POISON_DROP_CNT : Nat := Pg.VOQ + 0x184
abbrev CALD_STAT : Nat := Pg.CALD + 0x100
abbrev CALD_LOSSY : Nat := Pg.CALD + 0x104
abbrev CALD_LOSSLESS : Nat := Pg.CALD + 0x108
abbrev CALD_ARRIVAL : Nat := Pg.CALD + 0x10C
abbrev CALD_PEAK : Nat := Pg.CALD + 0x110
abbrev CALD_PWR : Nat := Pg.CALD + 0x114
abbrev CALD_UNCORR_CNT : Nat := Pg.CALD + 0x180
abbrev IRQ_SRC_PEND (n : Nat) : Nat := Pg.IRQ + 0x100 + 0x4 * n
abbrev IRQ_REARM : Nat := Pg.IRQ + 0x180
abbrev IRQ_MSG_CNT (n : Nat) : Nat := Pg.IRQ + 0x1C0 + 0x4 * n
abbrev DEV_PART (d : Nat) : Nat := Pg.DEVd d + 0x100
abbrev DEV_PAGE_COUNT (d : Nat) : Nat := Pg.DEVd d + 0x104
abbrev DEV_UID_LO (d : Nat) : Nat := Pg.DEVd d + 0x108
abbrev DEV_UID_HI (d : Nat) : Nat := Pg.DEVd d + 0x10C
abbrev DEV_PAGE_PRESENT (d n : Nat) : Nat := Pg.DEVd d + 0x140 + 0x4 * n
abbrev SBUF_USED (i : Nat) : Nat := Pg.SBUF i + 0x100
abbrev SBUF_PEAK (i : Nat) : Nat := Pg.SBUF i + 0x104
abbrev SBUF_UNCORR_CNT (i : Nat) : Nat := Pg.SBUF i + 0x180
abbrev HSG_CAM_USED (i n : Nat) : Nat := Pg.HSG i + 0x100 + 0x4 * n
abbrev HSG_TABLE (i n : Nat) : Nat := Pg.HSG i + 0x120 + 0x4 * n
abbrev HSG_CE_CNT (i : Nat) : Nat := Pg.HSG i + 0x180
abbrev HSG_UE_CNT (i : Nat) : Nat := Pg.HSG i + 0x184
abbrev D2DL_LANE_ERR (d i n : Nat) : Nat := Pg.D2DL d i + 0x100 + 0x4 * n
abbrev D2DL_LANE_TOT (d i n : Nat) : Nat := Pg.D2DL d i + 0x300 + 0x4 * n
abbrev D2DL_CRC_CNT (d i n : Nat) : Nat := Pg.D2DL d i + 0x500 + 0x4 * n
abbrev D2DL_REPLAY_CNT (d i n : Nat) : Nat := Pg.D2DL d i + 0x508 + 0x4 * n
abbrev LRMON_RX_64 (i n : Nat) : Nat := Pg.LRMON i + 0x100 + 0x40 * n
abbrev LRMON_RX_65_127 (i n : Nat) : Nat := Pg.LRMON i + 0x104 + 0x40 * n
abbrev LRMON_RX_128_255 (i n : Nat) : Nat := Pg.LRMON i + 0x108 + 0x40 * n
abbrev LRMON_RX_256_511 (i n : Nat) : Nat := Pg.LRMON i + 0x10C + 0x40 * n
abbrev LRMON_RX_512_1023 (i n : Nat) : Nat := Pg.LRMON i + 0x110 + 0x40 * n
abbrev LRMON_RX_1024_1518 (i n : Nat) : Nat := Pg.LRMON i + 0x114 + 0x40 * n
abbrev LRMON_RX_1519_MAX (i n : Nat) : Nat := Pg.LRMON i + 0x118 + 0x40 * n
abbrev LRMON_TX_64 (i n : Nat) : Nat := Pg.LRMON i + 0x11C + 0x40 * n
abbrev LRMON_TX_65_127 (i n : Nat) : Nat := Pg.LRMON i + 0x120 + 0x40 * n
abbrev LRMON_TX_128_255 (i n : Nat) : Nat := Pg.LRMON i + 0x124 + 0x40 * n
abbrev LRMON_TX_256_511 (i n : Nat) : Nat := Pg.LRMON i + 0x128 + 0x40 * n
abbrev LRMON_TX_512_1023 (i n : Nat) : Nat := Pg.LRMON i + 0x12C + 0x40 * n
abbrev LRMON_TX_1024_1518 (i n : Nat) : Nat := Pg.LRMON i + 0x130 + 0x40 * n
abbrev LRMON_TX_1519_MAX (i n : Nat) : Nat := Pg.LRMON i + 0x134 + 0x40 * n
abbrev CALDQ_USED (i : Nat) : Nat := Pg.CALDQ i + 0x100
abbrev CALDQ_UNCORR_CNT (i : Nat) : Nat := Pg.CALDQ i + 0x180
abbrev EPQ_USED (i : Nat) : Nat := Pg.EPOOLQ i + 0x100
abbrev EPQ_UNCORR_CNT (i : Nat) : Nat := Pg.EPOOLQ i + 0x180
abbrev EQL_STAT (i : Nat) : Nat := Pg.EQL i + 0x100
abbrev EQL_DEC_CNT_LO (i : Nat) : Nat := Pg.EQL i + 0x180
abbrev EQL_DEC_CNT_HI (i : Nat) : Nat := Pg.EQL i + 0x184
abbrev EQL_IDLE_CNT (i : Nat) : Nat := Pg.EQL i + 0x188
abbrev FCE_STAT (i : Nat) : Nat := Pg.FCE i + 0x100
abbrev FCE_REORDER_PEAK (i : Nat) : Nat := Pg.FCE i + 0x104
abbrev FCE_UNCORR_CNT (i : Nat) : Nat := Pg.FCE i + 0x180
abbrev HBMTR_CH (i n : Nat) : Nat := Pg.HBMTR i + 0x100 + 0x4 * n
abbrev HBMTR_RETRAIN_CNT (i : Nat) : Nat := Pg.HBMTR i + 0x180
abbrev HBMTR_LAST (i : Nat) : Nat := Pg.HBMTR i + 0x300
end Rg

/-! Fields: lowest bit and width. -/
namespace Fd
abbrev D2D_CTRL_MIN_BUNDLES : Fld := ⟨16, 5⟩
abbrev D2D_CTRL_LINE_DOWN_ACTION : Fld := ⟨8, 1⟩
abbrev D2D_CTRL_AUTO_REPAIR : Fld := ⟨4, 1⟩
abbrev D2D_CTRL_AUTO_RETRAIN : Fld := ⟨3, 1⟩
abbrev D2D_CTRL_RETRAIN : Fld := ⟨0, 1⟩
abbrev D2D_LANE_THR_LANE_ERR_THR : Fld := ⟨0, 16⟩
abbrev D2D_STAT_STATE : Fld := ⟨30, 2⟩
abbrev D2D_STAT_RX_BUNDLES : Fld := ⟨16, 5⟩
abbrev D2D_STAT_TX_BUNDLES : Fld := ⟨8, 5⟩
abbrev D2D_STAT_RX_SPARES_USED : Fld := ⟨0, 5⟩
abbrev D2D_BUNDLE_STAT_UP : Fld := ⟨31, 1⟩
abbrev D2D_BUNDLE_STAT_SPARE_USED : Fld := ⟨30, 1⟩
abbrev D2D_BUNDLE_STAT_REPAIRED_LANE : Fld := ⟨16, 5⟩
abbrev D2D_BUNDLE_STAT_LANE_ERR_MAX : Fld := ⟨0, 16⟩
abbrev TICK_CTRL_SLEW : Fld := ⟨16, 4⟩
abbrev TICK_CTRL_WINDOW : Fld := ⟨8, 8⟩
abbrev TICK_CTRL_OUT_MODE : Fld := ⟨4, 2⟩
abbrev TICK_CTRL_MODE : Fld := ⟨0, 2⟩
abbrev TICK_SKEW_OUT_ADV : Fld := ⟨16, 8⟩
abbrev TICK_SKEW_SKEW_ADJ : Fld := ⟨0, 10⟩
abbrev TICK_STAT_ANOM_RUN : Fld := ⟨24, 5⟩
abbrev TICK_STAT_GOOD_RUN : Fld := ⟨16, 7⟩
abbrev TICK_STAT_TIS : Fld := ⟨8, 6⟩
abbrev TICK_STAT_STATE : Fld := ⟨0, 3⟩
abbrev TICK_PHASE_PHASE : Fld := ⟨0, 16⟩
abbrev TICK_GEN_CMT_GO : Fld := ⟨31, 1⟩
abbrev TICK_GEN_CMT_EPOCH : Fld := ⟨0, 12⟩
abbrev CMT_CTRL_TABLE_MODE : Fld := ⟨4, 1⟩
abbrev CMT_CTRL_COMMIT_MODE : Fld := ⟨0, 1⟩
abbrev CMT_STAGE_CLOSE_CLOSE : Fld := ⟨0, 1⟩
abbrev CMT_CHECK_STAT_DONE : Fld := ⟨31, 1⟩
abbrev CMT_CHECK_STAT_PASS : Fld := ⟨30, 1⟩
abbrev CMT_CHECK_STAT_FAIL_COUNT : Fld := ⟨0, 16⟩
abbrev CMT_CHECK_FIRST_RULE : Fld := ⟨24, 8⟩
abbrev CMT_CHECK_FIRST_DIE : Fld := ⟨23, 1⟩
abbrev CMT_CHECK_FIRST_PAGE : Fld := ⟨11, 12⟩
abbrev CMT_CHECK_FIRST_WORD : Fld := ⟨1, 10⟩
abbrev CMT_ARM_GO : Fld := ⟨31, 1⟩
abbrev CMT_ARM_TARGET : Fld := ⟨0, 12⟩
abbrev CMT_CMD_CMD : Fld := ⟨0, 3⟩
abbrev CMT_STAT_BUSY : Fld := ⟨31, 1⟩
abbrev CMT_STAT_TARGET : Fld := ⟨16, 12⟩
abbrev CMT_STAT_REFUSE : Fld := ⟨8, 4⟩
abbrev CMT_STAT_OWNER : Fld := ⟨4, 2⟩
abbrev CMT_STAT_NO_OWNER : Fld := ⟨3, 1⟩
abbrev CMT_STAT_STATE : Fld := ⟨0, 3⟩
abbrev CMT_EPOCH_SYS : Fld := ⟨16, 12⟩
abbrev CMT_EPOCH_LIVE : Fld := ⟨0, 12⟩
abbrev CMT_VER_STAGED : Fld := ⟨12, 2⟩
abbrev CMT_VER_PREV_LIVE : Fld := ⟨8, 1⟩
abbrev CMT_VER_PREV : Fld := ⟨4, 2⟩
abbrev CMT_VER_CUR : Fld := ⟨0, 2⟩
abbrev CMT_INFLIGHT_PREV_COUNT : Fld := ⟨0, 16⟩
abbrev LPORT_CFG_MAX_FRAME : Fld := ⟨16, 14⟩
abbrev LPORT_CFG_FLEXE : Fld := ⟨11, 2⟩
abbrev LPORT_CFG_LANE_RATE : Fld := ⟨8, 3⟩
abbrev LPORT_CFG_SPEED : Fld := ⟨4, 4⟩
abbrev LPORT_CTRL_LINK_UP_HOLD : Fld := ⟨16, 8⟩
abbrev LPORT_CTRL_LOOPBACK : Fld := ⟨6, 2⟩
abbrev LPORT_CTRL_FORCE_TX : Fld := ⟨2, 2⟩
abbrev LPORT_CTRL_RF_ON_LF : Fld := ⟨1, 1⟩
abbrev LPORT_CTRL_FEC_CORRECT : Fld := ⟨0, 1⟩
abbrev LPORT_STAT_LINK_UP : Fld := ⟨31, 1⟩
abbrev LPORT_STAT_LF : Fld := ⟨30, 1⟩
abbrev LPORT_STAT_RF : Fld := ⟨29, 1⟩
abbrev LPORT_STAT_AM_LOCK : Fld := ⟨28, 1⟩
abbrev LPORT_STAT_FEC_LOCK : Fld := ⟨27, 1⟩
abbrev LPORT_STAT_LINK_STATE : Fld := ⟨0, 3⟩
abbrev LPORT_PFC_CFG_RX_PRI_EN : Fld := ⟨24, 8⟩
abbrev LPORT_PFC_CFG_TC_MAP : Fld := ⟨0, 24⟩
abbrev LPORT_STORM_CFG_STORM_TIME : Fld := ⟨22, 10⟩
abbrev LPORT_STORM_CFG_RECOVER_TIME : Fld := ⟨12, 10⟩
abbrev LPORT_PFC_STAT_STORM : Fld := ⟨8, 8⟩
abbrev LPORT_PFC_STAT_PAUSED : Fld := ⟨0, 8⟩
abbrev LPORT_PM_CFG_SES_UNCORR_THR : Fld := ⟨16, 16⟩
abbrev LPORT_PM_CFG_DEGRADE_EXP : Fld := ⟨0, 5⟩
abbrev LSER_LANE_CFG_TX_PRESET : Fld := ⟨16, 4⟩
abbrev LSER_LANE_CFG_TRAIN_EN : Fld := ⟨3, 1⟩
abbrev LSER_LANE_CFG_RX_INVERT : Fld := ⟨2, 1⟩
abbrev LSER_LANE_CFG_TX_INVERT : Fld := ⟨1, 1⟩
abbrev LSER_LANE_STAT_SIGNAL_DETECT : Fld := ⟨31, 1⟩
abbrev LSER_LANE_STAT_CDR_LOCK : Fld := ⟨30, 1⟩
abbrev LSER_LANE_STAT_TRAIN : Fld := ⟨24, 2⟩
abbrev LSER_GRP_CFG_TRAIN_TIMEOUT : Fld := ⟨16, 16⟩
abbrev LSER_GRP_CFG_RETRY_DELAY : Fld := ⟨0, 16⟩
abbrev FLEXE_GRP_CFG_EN : Fld := ⟨31, 1⟩
abbrev FLEXE_GRP_CFG_PHY_TYPE : Fld := ⟨29, 2⟩
abbrev FLEXE_GRP_CFG_HANDSHAKE : Fld := ⟨28, 1⟩
abbrev FLEXE_GRP_CFG_TX_CAL : Fld := ⟨27, 1⟩
abbrev FLEXE_GRP_CFG_GROUP_NUM : Fld := ⟨0, 20⟩
abbrev FLEXE_PHY_NUM_PHY_NUM : Fld := ⟨0, 8⟩
abbrev FLEXE_GRP_STAT_OH_LOCK : Fld := ⟨31, 1⟩
abbrev FLEXE_GRP_STAT_GID_MISMATCH : Fld := ⟨30, 1⟩
abbrev FLEXE_GRP_STAT_PHYMAP_MISMATCH : Fld := ⟨29, 1⟩
abbrev FLEXE_GRP_STAT_CAL_MISMATCH : Fld := ⟨28, 1⟩
abbrev FLEXE_GRP_STAT_DESKEW_FAIL : Fld := ⟨27, 1⟩
abbrev FLEXE_GRP_STAT_TX_CAL_INUSE : Fld := ⟨26, 1⟩
abbrev FLEXE_GRP_STAT_RX_CAL_INUSE : Fld := ⟨25, 1⟩
abbrev FLEXE_GRP_STAT_CR_PENDING : Fld := ⟨24, 1⟩
abbrev STEER_CFG_XOFF : Fld := ⟨20, 10⟩
abbrev STEER_CFG_XON : Fld := ⟨10, 10⟩
abbrev STEER_CFG_LOSSLESS_TC : Fld := ⟨0, 8⟩
abbrev STEER_MOVE_GO : Fld := ⟨31, 1⟩
abbrev STEER_MOVE_DIR : Fld := ⟨30, 1⟩
abbrev STEER_MOVE_INDEX : Fld := ⟨16, 14⟩
abbrev STEER_MOVE_TARGET : Fld := ⟨0, 4⟩
abbrev STEER_MOVE_STAT_BUSY : Fld := ⟨31, 1⟩
abbrev STEER_MOVE_STAT_RESULT : Fld := ⟨28, 3⟩
abbrev STEER_MOVE_STAT_REFUSE : Fld := ⟨24, 4⟩
abbrev STEER_MOVE_STAT_INDEX : Fld := ⟨4, 14⟩
abbrev STEER_MOVE_STAT_TARGET : Fld := ⟨0, 4⟩
abbrev STEER_EVAC_GO : Fld := ⟨31, 1⟩
abbrev STEER_EVAC_DIR : Fld := ⟨30, 1⟩
abbrev STEER_EVAC_STOP : Fld := ⟨29, 1⟩
abbrev STEER_EVAC_DST : Fld := ⟨4, 4⟩
abbrev STEER_EVAC_SRC : Fld := ⟨0, 4⟩
abbrev STEER_EVAC_STAT_BUSY : Fld := ⟨31, 1⟩
abbrev STEER_EVAC_STAT_DONE : Fld := ⟨30, 1⟩
abbrev STEER_EVAC_STAT_STOPPED : Fld := ⟨29, 1⟩
abbrev STEER_EVAC_STAT_NEXT_INDEX : Fld := ⟨15, 14⟩
abbrev STEER_EVAC_STAT_MOVED : Fld := ⟨0, 15⟩
abbrev STEER_STAT_NO_SPARE_IN : Fld := ⟨31, 1⟩
abbrev STEER_STAT_NO_SPARE_EG : Fld := ⟨30, 1⟩
abbrev STEER_STAT_DORMANT_IN : Fld := ⟨20, 4⟩
abbrev STEER_STAT_DORMANT_EG : Fld := ⟨16, 4⟩
abbrev STEER_HASH_CFG_SEED : Fld := ⟨16, 16⟩
abbrev STEER_HASH_CFG_FIELDS : Fld := ⟨0, 10⟩
abbrev STEER_TC_CFG_DEFAULT_TC : Fld := ⟨26, 3⟩
abbrev STEER_TC_CFG_SRC : Fld := ⟨24, 2⟩
abbrev STEER_TC_CFG_MAP : Fld := ⟨0, 24⟩
abbrev SLICE_CTRL_SELFTEST : Fld := ⟨31, 1⟩
abbrev SLICE_CTRL_FENCE : Fld := ⟨30, 1⟩
abbrev SLICE_CTRL_SELFTEST_PERIOD : Fld := ⟨16, 8⟩
abbrev SLICE_CTRL_ROLE : Fld := ⟨0, 2⟩
abbrev SLICE_STAT_SELFTEST_BUSY : Fld := ⟨31, 1⟩
abbrev SLICE_STAT_SELFTEST_PASS : Fld := ⟨30, 1⟩
abbrev SLICE_STAT_BUCKETS : Fld := ⟨15, 15⟩
abbrev SLICE_STAT_POOL : Fld := ⟨0, 10⟩
abbrev SLICE_FAULT_SRC : Fld := ⟨0, 6⟩
abbrev SLICE_FAULT_EN_EN : Fld := ⟨0, 5⟩
abbrev PARSE_CFG_IP4_CSUM_CHECK : Fld := ⟨0, 1⟩
abbrev PARSE_EXC_CFG_ACTION : Fld := ⟨8, 2⟩
abbrev PARSE_EXC_CFG_PUNT_CODE : Fld := ⟨0, 8⟩
abbrev PARSE_START_EG_START : Fld := ⟨8, 7⟩
abbrev PARSE_START_IN_START : Fld := ⟨0, 7⟩
abbrev CLASS_LOG_STAT_CLEANUP : Fld := ⟨31, 1⟩
abbrev CLASS_LOG_STAT_FULL : Fld := ⟨30, 1⟩
abbrev CLASS_LOG_STAT_USED : Fld := ⟨0, 15⟩
abbrev CLASS_UDF_NODE : Fld := ⟨16, 7⟩
abbrev CLASS_UDF_BYTE_OFF : Fld := ⟨0, 8⟩
abbrev CLASS_PORT_CFG_PROF_IP4 : Fld := ⟨28, 4⟩
abbrev CLASS_PORT_CFG_PROF_IP6 : Fld := ⟨24, 4⟩
abbrev CLASS_PORT_CFG_PROF_MPLS : Fld := ⟨20, 4⟩
abbrev CLASS_PORT_CFG_PROF_L2 : Fld := ⟨16, 4⟩
abbrev CLASS_PORT_DEF_DEF_VRF : Fld := ⟨16, 16⟩
abbrev CLASS_PORT_DEF_DEF_CLASS_ID : Fld := ⟨0, 12⟩
abbrev CLASS_PROF_CTL_EN_A : Fld := ⟨31, 1⟩
abbrev CLASS_PROF_CTL_EN_B : Fld := ⟨30, 1⟩
abbrev CLASS_PROF_CTL_TABLE_A : Fld := ⟨24, 5⟩
abbrev CLASS_PROF_CTL_TABLE_B : Fld := ⟨16, 5⟩
abbrev CLASS_PROF_CTL_MISS_A : Fld := ⟨14, 2⟩
abbrev CLASS_PROF_CTL_MISS_B : Fld := ⟨12, 2⟩
abbrev CLASS_PROF_CTL_MISS_PUNT_CODE : Fld := ⟨0, 8⟩
abbrev ACL_USED0_USED : Fld := ⟨0, 17⟩
abbrev ACL_USED1_USED : Fld := ⟨0, 17⟩
abbrev ACL_PORT_CFG_ING0_PROF : Fld := ⟨28, 4⟩
abbrev ACL_PORT_CFG_ING1_PROF : Fld := ⟨24, 4⟩
abbrev ACL_PORT_CFG_EG_PROF : Fld := ⟨20, 4⟩
abbrev ACL_PORT_CFG_EG_EN : Fld := ⟨2, 1⟩
abbrev ACL_PORT_CFG_ING1_EN : Fld := ⟨1, 1⟩
abbrev ACL_PORT_CFG_ING0_EN : Fld := ⟨0, 1⟩
abbrev TERR_BANK_CFG_EN : Fld := ⟨31, 1⟩
abbrev TERR_BANK_CFG_FAMILY : Fld := ⟨29, 2⟩
abbrev TERR_BANK_CFG_LEN_HI : Fld := ⟨16, 8⟩
abbrev TERR_BANK_CFG_LEN_LO : Fld := ⟨8, 8⟩
abbrev TERR_BANK_STAT_GROUPS : Fld := ⟨16, 7⟩
abbrev TERR_BANK_STAT_USED : Fld := ⟨0, 15⟩
abbrev TERR_CTL_CFG_MISS_ACTION : Fld := ⟨30, 2⟩
abbrev TERR_CTL_CFG_PARITY_ACTION : Fld := ⟨28, 2⟩
abbrev TERR_CTL_CFG_VHASH_EN : Fld := ⟨27, 1⟩
abbrev TERR_CTL_CFG_V6_PIVOT_OFF : Fld := ⟨21, 6⟩
abbrev TERR_CTL_CFG_V4_PIVOT_OFF : Fld := ⟨16, 5⟩
abbrev TERR_CTL_CFG_PARITY_PUNT_CODE : Fld := ⟨8, 8⟩
abbrev TERR_CTL_CFG_MISS_PUNT_CODE : Fld := ⟨0, 8⟩
abbrev TERR_SCRUB_CFG_SCRUB_GAP : Fld := ⟨0, 16⟩
abbrev TERR_LOG_STAT_CLEANUP : Fld := ⟨31, 1⟩
abbrev TERR_LOG_STAT_FULL : Fld := ⟨30, 1⟩
abbrev TERR_LOG_STAT_USED : Fld := ⟨0, 17⟩
abbrev TERR_CTL_PORT_LAYER : Fld := ⟨1, 1⟩
abbrev TERR_CTL_PORT_EN : Fld := ⟨0, 1⟩
abbrev NHOP_CFG_TTL_PUNT_CODE : Fld := ⟨8, 8⟩
abbrev NHOP_TPID01_TPID1 : Fld := ⟨16, 16⟩
abbrev NHOP_TPID01_TPID0 : Fld := ⟨0, 16⟩
abbrev NHOP_TPID23_TPID3 : Fld := ⟨16, 16⟩
abbrev NHOP_TPID23_TPID2 : Fld := ⟨0, 16⟩
abbrev EXM_TBL_CFG_EN : Fld := ⟨31, 1⟩
abbrev EXM_TBL_CFG_TYPE : Fld := ⟨28, 3⟩
abbrev EXM_TBL_CFG_LOC : Fld := ⟨27, 1⟩
abbrev EXM_TBL_CFG_WAYS : Fld := ⟨25, 2⟩
abbrev EXM_TBL_CFG_WIDTH : Fld := ⟨23, 2⟩
abbrev EXM_TBL_CFG_KEY_BITS : Fld := ⟨16, 7⟩
abbrev EXM_TBL_CFG_AGE_EN : Fld := ⟨15, 1⟩
abbrev EXM_TBL_PLACE_BANK_BASE : Fld := ⟨24, 6⟩
abbrev EXM_TBL_PLACE_BUCKETS : Fld := ⟨0, 24⟩
abbrev EXM_TBL_STAT_USED : Fld := ⟨0, 31⟩
abbrev EXM_CFG_MAX_READS : Fld := ⟨16, 9⟩
abbrev EXM_CFG_CUCKOO_DEPTH : Fld := ⟨0, 4⟩
abbrev LEARN_CFG_SA_PUNT_CODE : Fld := ⟨24, 8⟩
abbrev LEARN_CFG_NOTE_EN : Fld := ⟨17, 6⟩
abbrev LEARN_CFG_EN : Fld := ⟨16, 1⟩
abbrev LEARN_CFG_FLAP_THR : Fld := ⟨12, 3⟩
abbrev LEARN_CFG_HOLDOFF : Fld := ⟨0, 12⟩
abbrev LEARN_STAT_CARRY : Fld := ⟨31, 1⟩
abbrev LEARN_STAT_USED : Fld := ⟨0, 22⟩
abbrev LEARN_PORT_CFG_SA_CHECK : Fld := ⟨31, 1⟩
abbrev LEARN_PORT_CFG_LEARN_EN : Fld := ⟨30, 1⟩
abbrev LEARN_PORT_CFG_CONFLICT_ACTION : Fld := ⟨28, 2⟩
abbrev LEARN_PORT_CFG_TABLE : Fld := ⟨23, 5⟩
abbrev LEARN_PORT_CFG_SPORT : Fld := ⟨0, 17⟩
abbrev AGE_CFG_EN : Fld := ⟨31, 1⟩
abbrev AGE_CFG_AGE_LIMIT : Fld := ⟨0, 8⟩
abbrev AGE_PASS_PASS_TICKS : Fld := ⟨0, 32⟩
abbrev AGE_STAT_CUR : Fld := ⟨24, 8⟩
abbrev AGE_STAT_TABLE : Fld := ⟨18, 5⟩
abbrev AGE_STAT_POS : Fld := ⟨0, 18⟩
abbrev APC_CTRL_DISPATCH_EN : Fld := ⟨31, 1⟩
abbrev APC_CTRL_SUP_START : Fld := ⟨30, 1⟩
abbrev APC_SUP_CFG_SUP_START_ADDR : Fld := ⟨0, 13⟩
abbrev APC_CFG_D_MAX : Fld := ⟨22, 10⟩
abbrev APC_CFG_AP_FAULT_SRC : Fld := ⟨0, 3⟩
abbrev APC_POKE_AP : Fld := ⟨0, 16⟩
abbrev APC_DISPATCH_PROG : Fld := ⟨0, 8⟩
abbrev APC_EG_CFG_HINT_PROG : Fld := ⟨0, 8⟩
abbrev APC_DBG_CTRL_GO : Fld := ⟨31, 1⟩
abbrev APC_DBG_CTRL_CMD : Fld := ⟨28, 3⟩
abbrev APC_DBG_CTRL_AP : Fld := ⟨24, 4⟩
abbrev APC_DBG_CTRL_THREAD : Fld := ⟨20, 4⟩
abbrev APC_DBG_CTRL_CONTEXT : Fld := ⟨18, 2⟩
abbrev APC_DBG_CTRL_SPECIAL : Fld := ⟨9, 1⟩
abbrev APC_DBG_CTRL_REG : Fld := ⟨0, 9⟩
abbrev APC_DBG_CFG_SAFE : Fld := ⟨31, 1⟩
abbrev APC_DBG_CFG_REVOKE_TICKS : Fld := ⟨0, 16⟩
abbrev APC_DBG_STAT_BUSY : Fld := ⟨31, 1⟩
abbrev APC_DBG_STAT_RESULT : Fld := ⟨28, 3⟩
abbrev APC_DBG_STAT_PC : Fld := ⟨0, 13⟩
abbrev APC_VER_STAT_PREV_BUSY : Fld := ⟨31, 1⟩
abbrev APC_VER_STAT_REFILL : Fld := ⟨30, 1⟩
abbrev APC_CHAN_CFG_USED : Fld := ⟨24, 8⟩
abbrev APC_CHAN_CFG_EXTERNAL : Fld := ⟨0, 1⟩
abbrev APC_THREAD_STAT_STATE : Fld := ⟨29, 3⟩
abbrev APC_THREAD_STAT_PC : Fld := ⟨16, 13⟩
abbrev APC_THREAD_STAT_CTXS : Fld := ⟨12, 4⟩
abbrev ADM_CFG_WRED_SEED : Fld := ⟨16, 16⟩
abbrev ADM_CFG_CT_EN : Fld := ⟨9, 1⟩
abbrev ADM_CFG_LOSSLESS_TC : Fld := ⟨0, 8⟩
abbrev ADM_LOSSY_MAX_CELLS : Fld := ⟨0, 19⟩
abbrev ADM_RETURN_RSV_CELLS : Fld := ⟨0, 19⟩
abbrev ADM_PFC_PRI_MAP : Fld := ⟨0, 24⟩
abbrev ADM_PFC_TIME_QUANTA : Fld := ⟨16, 16⟩
abbrev ADM_PFC_TIME_REFRESH : Fld := ⟨0, 16⟩
abbrev ADM_PFC_SA_HI_SA_HI : Fld := ⟨0, 16⟩
abbrev BUF_CFG_STAGE_TICKS : Fld := ⟨8, 4⟩
abbrev BUF_CFG_RS_PARITY : Fld := ⟨0, 2⟩
abbrev BUF_PAGES_TOTAL_PAGES : Fld := ⟨0, 26⟩
abbrev BUF_PAGES_FREE_PAGES : Fld := ⟨0, 26⟩
abbrev BUF_PAGES_LOW_PAGES : Fld := ⟨0, 26⟩
abbrev MIR_SESS_CFG_EN : Fld := ⟨31, 1⟩
abbrev MIR_SESS_CFG_HOST : Fld := ⟨30, 1⟩
abbrev MIR_SESS_CFG_TC : Fld := ⟨27, 3⟩
abbrev MIR_SESS_CFG_DEST_SPORT : Fld := ⟨0, 17⟩
abbrev MIR_SESS_TRUNC_PUNT_CODE : Fld := ⟨24, 8⟩
abbrev MIR_SESS_TRUNC_TRUNC : Fld := ⟨0, 14⟩
abbrev MIR_SESS_HINT_HINT : Fld := ⟨0, 23⟩
abbrev MIR_SESS_POL_POLICE_EN : Fld := ⟨31, 1⟩
abbrev MIR_SESS_POL_POLICER : Fld := ⟨0, 19⟩
abbrev MIR_SAMPLE_CFG_SESSION : Fld := ⟨24, 5⟩
abbrev MIR_SAMPLE_CFG_N : Fld := ⟨0, 24⟩
abbrev EQS_POOL_STAT_USED : Fld := ⟨0, 18⟩
abbrev EQS_POOL_GRANTED_CELLS : Fld := ⟨0, 18⟩
abbrev EQS_POOL_PEAK_PEAK : Fld := ⟨0, 18⟩
abbrev EQS_SUB_SEL_NODE : Fld := ⟨0, 15⟩
abbrev EQS_SUB_STAT_EMPTY : Fld := ⟨31, 1⟩
abbrev EQS_SUB_STAT_NO_GRANT : Fld := ⟨30, 1⟩
abbrev EQS_PORT_CFG_CT_EN : Fld := ⟨31, 1⟩
abbrev EQS_PORT_CFG_CT_CELLS : Fld := ⟨24, 7⟩
abbrev EQS_PORT_CFG_TXB : Fld := ⟨0, 12⟩
abbrev EQS_PORT_STAT_PAUSED : Fld := ⟨24, 8⟩
abbrev EQS_PORT_STAT_TXB_USED : Fld := ⟨0, 12⟩
abbrev SHP_ADJ_ADJ3 : Fld := ⟨24, 8⟩
abbrev SHP_ADJ_ADJ2 : Fld := ⟨16, 8⟩
abbrev SHP_ADJ_ADJ1 : Fld := ⟨8, 8⟩
abbrev SHP_ADJ_ADJ0 : Fld := ⟨0, 8⟩
abbrev SHP_WHEEL_STAT_COUNT : Fld := ⟨0, 19⟩
abbrev GATE_CFG_LEAD : Fld := ⟨0, 12⟩
abbrev GATE_PORT_CFG_EN : Fld := ⟨31, 1⟩
abbrev GATE_PORT_CFG_LIST : Fld := ⟨30, 1⟩
abbrev GATE_PORT_CFG_OVERHEAD : Fld := ⟨16, 8⟩
abbrev GATE_PORT_CFG_LEN : Fld := ⟨0, 9⟩
abbrev GATE_BASE_NS_BASE_NS : Fld := ⟨0, 30⟩
abbrev GATE_PORT_STAT_LIST_INUSE : Fld := ⟨31, 1⟩
abbrev GATE_PORT_STAT_PENDING : Fld := ⟨30, 1⟩
abbrev GATE_PORT_STAT_ENTRY : Fld := ⟨0, 8⟩
abbrev LAT_CFG_EN : Fld := ⟨31, 1⟩
abbrev LAT_CFG_SET_SIZE : Fld := ⟨16, 9⟩
abbrev LAT_CFG_WATCH_LEN : Fld := ⟨0, 11⟩
abbrev FSER_LANE_CFG_EN : Fld := ⟨31, 1⟩
abbrev FSER_LANE_CFG_TX_PRESET : Fld := ⟨16, 4⟩
abbrev FSER_LANE_CFG_TRAIN_EN : Fld := ⟨3, 1⟩
abbrev FSER_LANE_CFG_RX_INVERT : Fld := ⟨2, 1⟩
abbrev FSER_LANE_CFG_TX_INVERT : Fld := ⟨1, 1⟩
abbrev FSER_LANE_STAT_SIGNAL_DETECT : Fld := ⟨31, 1⟩
abbrev FSER_LANE_STAT_CDR_LOCK : Fld := ⟨30, 1⟩
abbrev FSER_LANE_STAT_FEC_LOCK : Fld := ⟨29, 1⟩
abbrev FSER_LANE_STAT_TRAIN : Fld := ⟨24, 2⟩
abbrev FSER_GRP_CFG_TRAIN_TIMEOUT : Fld := ⟨16, 16⟩
abbrev FSER_GRP_CFG_RETRY_DELAY : Fld := ⟨0, 16⟩
abbrev FFRM_CFG_TIMING : Fld := ⟨31, 1⟩
abbrev FFRM_CFG_RDI_EN : Fld := ⟨30, 1⟩
abbrev FFRM_CFG_CLEAR_TICKS : Fld := ⟨16, 8⟩
abbrev FFRM_DEG_CFG_DEG_THR : Fld := ⟨16, 16⟩
abbrev FFRM_DEG_CFG_DEG_ACTION : Fld := ⟨4, 1⟩
abbrev FFRM_DEG_CFG_DEG_SF : Fld := ⟨0, 4⟩
abbrev FFRM_EXPECT_EXP_EN : Fld := ⟨31, 1⟩
abbrev FFRM_EXPECT_ROLE : Fld := ⟨30, 1⟩
abbrev FFRM_EXPECT_ID : Fld := ⟨16, 11⟩
abbrev FFRM_EXPECT_LANE : Fld := ⟨0, 7⟩
abbrev FFRM_LANE_STAT_IN_SERVICE : Fld := ⟨31, 1⟩
abbrev FFRM_LANE_STAT_ALIGN : Fld := ⟨28, 3⟩
abbrev FFRM_LANE_STAT_LOS : Fld := ⟨27, 1⟩
abbrev FFRM_LANE_STAT_LOL : Fld := ⟨26, 1⟩
abbrev FFRM_LANE_STAT_LOF : Fld := ⟨25, 1⟩
abbrev FFRM_LANE_STAT_LOM : Fld := ⟨24, 1⟩
abbrev FFRM_LANE_STAT_TIM : Fld := ⟨23, 1⟩
abbrev FFRM_LANE_STAT_RDI : Fld := ⟨22, 1⟩
abbrev FFRM_LANE_STAT_DEG : Fld := ⟨21, 1⟩
abbrev FFRM_LANE_STAT_XOFF : Fld := ⟨20, 1⟩
abbrev FFRM_LANE_STAT_RX_ROLE : Fld := ⟨19, 1⟩
abbrev FFRM_LANE_STAT_RX_ID : Fld := ⟨8, 11⟩
abbrev FFRM_LANE_STAT_RX_LANE : Fld := ⟨0, 7⟩
abbrev FCELL_CFG_EN : Fld := ⟨31, 1⟩
abbrev FCELL_CFG_DEV_ID : Fld := ⟨16, 11⟩
abbrev FCELL_CFG_REORDER_TICKS : Fld := ⟨4, 4⟩
abbrev FCELL_CAL_PAGE : Fld := ⟨0, 1⟩
abbrev FCELL_STAT_PAGE_INUSE : Fld := ⟨31, 1⟩
abbrev FCELL_STAT_REORDER_USED : Fld := ⟨0, 16⟩
abbrev FCRD_CFG_QUANT : Fld := ⟨24, 8⟩
abbrev FCRD_CFG_USE_TICKS : Fld := ⟨20, 4⟩
abbrev FCRD_CFG_MAX_REQ : Fld := ⟨16, 2⟩
abbrev FCRD_CFG_GRANT_LIFE : Fld := ⟨0, 8⟩
abbrev FCRD_CTRL_WITHDRAW : Fld := ⟨0, 1⟩
abbrev FCRD_STAT_WITHDRAWN : Fld := ⟨31, 1⟩
abbrev FCRD_STAT_GRANTS_LIVE : Fld := ⟨0, 17⟩
abbrev FCRD_REQ_STORED_COUNT : Fld := ⟨0, 19⟩
abbrev FCRD_GRANTS_HELD_COUNT : Fld := ⟨0, 17⟩
abbrev FPM_CFG_SES_CELL_THR : Fld := ⟨16, 16⟩
abbrev HBMC_CFG_SR_EN : Fld := ⟨31, 1⟩
abbrev HBMC_CFG_ACTIVE_SR : Fld := ⟨30, 1⟩
abbrev HBMC_CFG_TRAIN_PERIOD : Fld := ⟨16, 8⟩
abbrev HBMC_CFG_SR_IDLE : Fld := ⟨0, 16⟩
abbrev HBMC_REF_CFG_TRFC : Fld := ⟨21, 11⟩
abbrev HBMC_REF_CFG_TREFI : Fld := ⟨8, 13⟩
abbrev HBMC_REF_CFG_GEYSER_LOW : Fld := ⟨4, 4⟩
abbrev HBMC_REF_CFG_HOT_HALVE : Fld := ⟨3, 1⟩
abbrev HBMC_TEMP_ALARM : Fld := ⟨24, 8⟩
abbrev HBMC_TEMP_HOT : Fld := ⟨16, 8⟩
abbrev HBMC_TEMP_TEMP : Fld := ⟨0, 8⟩
abbrev HBMC_STAT_UP : Fld := ⟨31, 1⟩
abbrev HBMC_STAT_INIT_FAIL : Fld := ⟨30, 1⟩
abbrev HBMC_STAT_TRAINING : Fld := ⟨29, 1⟩
abbrev HBMC_STAT_HOT : Fld := ⟨28, 1⟩
abbrev HBMC_STAT_SPARES : Fld := ⟨16, 3⟩
abbrev HBMC_STAT_SR_RANKS : Fld := ⟨0, 7⟩
abbrev HBMC_SPARE_SPARE3 : Fld := ⟨24, 6⟩
abbrev HBMC_SPARE_SPARE2 : Fld := ⟨16, 6⟩
abbrev HBMC_SPARE_SPARE1 : Fld := ⟨8, 6⟩
abbrev HBMC_SPARE_SPARE0 : Fld := ⟨0, 6⟩
abbrev HBMC_CFG2_WR_AGE : Fld := ⟨0, 10⟩
abbrev HBM_REGION_BUF_SIZE : Fld := ⟨0, 11⟩
abbrev HBM_RAS_POLICY_AUTO_RETIRE : Fld := ⟨31, 1⟩
abbrev HBM_RAS_POLICY_RETIRE_ON_PPR_OUT : Fld := ⟨30, 1⟩
abbrev HBM_RAS_POLICY_RETIRE_THR : Fld := ⟨8, 8⟩
abbrev HBM_RAS_POLICY_MIG_RATE : Fld := ⟨0, 8⟩
abbrev HBM_MIG_CMD_GO : Fld := ⟨31, 1⟩
abbrev HBM_MIG_CMD_ABORT : Fld := ⟨30, 1⟩
abbrev HBM_MIG_CMD_STACK : Fld := ⟨28, 2⟩
abbrev HBM_MIG_CMD_SOURCE : Fld := ⟨8, 6⟩
abbrev HBM_MIG_CMD_AUTO_TARGET : Fld := ⟨6, 1⟩
abbrev HBM_MIG_CMD_TARGET : Fld := ⟨0, 6⟩
abbrev HBM_MIG_STAT_BUSY : Fld := ⟨31, 1⟩
abbrev HBM_MIG_STAT_RESULT : Fld := ⟨28, 3⟩
abbrev HBM_MIG_STAT_REFUSE : Fld := ⟨24, 4⟩
abbrev HBM_MIG_STAT_NEXT_CHUNK : Fld := ⟨0, 20⟩
abbrev HBM_MIG_RANKS_SOURCE : Fld := ⟨8, 6⟩
abbrev HBM_MIG_RANKS_TARGET : Fld := ⟨0, 6⟩
abbrev HBM_RETIRE_REQ_CAND : Fld := ⟨0, 4⟩
abbrev SCRUB_CTRL_EN : Fld := ⟨31, 1⟩
abbrev SCRUB_CLASS_CFG_EN : Fld := ⟨31, 1⟩
abbrev SCRUB_CLASS_CFG_PASS_MS : Fld := ⟨0, 24⟩
abbrev SCRUB_CLASS_STAT_SLIPPING : Fld := ⟨31, 1⟩
abbrev SCRUB_CLASS_STAT_PASSES : Fld := ⟨16, 15⟩
abbrev SCRUB_CLASS_STAT_POS : Fld := ⟨0, 16⟩
abbrev SCRUB_RW_W0_VALID : Fld := ⟨31, 1⟩
abbrev SCRUB_RW_W0_CLASS : Fld := ⟨26, 4⟩
abbrev SCRUB_RW_W0_MEM : Fld := ⟨18, 8⟩
abbrev RAS_CE_THR_CE_THR : Fld := ⟨0, 16⟩
abbrev RAS_STORM_CLASSES : Fld := ⟨0, 16⟩
abbrev RAS_REPAIR_USED_USED : Fld := ⟨0, 11⟩
abbrev CNT_FREEZE_FREEZE : Fld := ⟨31, 1⟩
abbrev CNT_FREEZE_FREEZE_TICKS : Fld := ⟨0, 24⟩
abbrev CNT_STAT_FROZEN : Fld := ⟨31, 1⟩
abbrev CNT_PM_CFG_EN : Fld := ⟨31, 1⟩
abbrev CNT_PM_CFG_DAY_OFFSET : Fld := ⟨0, 17⟩
abbrev CNT_PM_TCA_ES_THR : Fld := ⟨20, 10⟩
abbrev CNT_PM_TCA_SES_THR : Fld := ⟨10, 10⟩
abbrev CNT_PM_TCA_UAS_THR : Fld := ⟨0, 10⟩
abbrev PLUME_HBM_BASE_BASE : Fld := ⟨0, 22⟩
abbrev PLUME_HBM_SIZE_SIZE : Fld := ⟨0, 17⟩
abbrev PLUME_CFG_EN : Fld := ⟨31, 1⟩
abbrev PLUME_SET_CFG_EN : Fld := ⟨31, 1⟩
abbrev PLUME_SET_CFG_DEST : Fld := ⟨30, 1⟩
abbrev PLUME_SET_CFG_RING : Fld := ⟨24, 6⟩
abbrev PLUME_SET_CFG_PERIOD : Fld := ⟨0, 24⟩
abbrev PLUME_SET_LIST_LAST : Fld := ⟨16, 11⟩
abbrev PLUME_SET_LIST_FIRST : Fld := ⟨0, 11⟩
abbrev PLUME_SET_PHASE_PHASE : Fld := ⟨0, 24⟩
abbrev PLUME_SET_STAT_BUSY : Fld := ⟨31, 1⟩
abbrev PLUME_SET_STAT_SEQ : Fld := ⟨0, 16⟩
abbrev SC_CTRL_RESTART : Fld := ⟨31, 1⟩
abbrev SC_CTRL_SWITCHOVER : Fld := ⟨30, 1⟩
abbrev SC_CTRL_HOLD : Fld := ⟨29, 1⟩
abbrev SC_CTRL_AUTO_RESTART : Fld := ⟨0, 1⟩
abbrev SC_CFG_RESTART_DELAY : Fld := ⟨16, 16⟩
abbrev SC_CFG_RESTART_MAX : Fld := ⟨0, 8⟩
abbrev SC_STAT_ROLE : Fld := ⟨29, 3⟩
abbrev SC_STAT_PEER_ROLE : Fld := ⟨26, 3⟩
abbrev SC_STAT_MODE : Fld := ⟨24, 2⟩
abbrev SC_STAT_MISS_RUN : Fld := ⟨20, 4⟩
abbrev SC_STAT_IMAGE : Fld := ⟨18, 2⟩
abbrev SC_STAT_LAST_CAUSE : Fld := ⟨16, 2⟩
abbrev SC_STAT_RESTARTS : Fld := ⟨8, 8⟩
abbrev SC_STAT_PATH_LINK : Fld := ⟨1, 1⟩
abbrev SC_STAT_PATH_MGMT : Fld := ⟨0, 1⟩
abbrev SC_HB_KICK_KICK : Fld := ⟨0, 1⟩
abbrev SC_HB_RX_SEQ : Fld := ⟨16, 16⟩
abbrev SC_HB_RX_ROLE : Fld := ⟨13, 3⟩
abbrev SC_AUTO_POLICY_WITHDRAW : Fld := ⟨0, 1⟩
abbrev UPD_LOCK_RELEASE : Fld := ⟨1, 1⟩
abbrev UPD_LOCK_REQ : Fld := ⟨0, 1⟩
abbrev UPD_LOCK_STAT_HELD : Fld := ⟨31, 1⟩
abbrev UPD_LOCK_STAT_OWNER : Fld := ⟨30, 1⟩
abbrev UPD_LOCK_STAT_RES1 : Fld := ⟨8, 8⟩
abbrev UPD_LOCK_STAT_RES0 : Fld := ⟨0, 8⟩
abbrev UPD_CMD_OP : Fld := ⟨28, 4⟩
abbrev UPD_CMD_SOURCE : Fld := ⟨24, 1⟩
abbrev UPD_CMD_PART : Fld := ⟨0, 6⟩
abbrev UPD_STAT_BUSY : Fld := ⟨31, 1⟩
abbrev UPD_STAT_SLOT : Fld := ⟨28, 3⟩
abbrev UPD_STAT_KIND : Fld := ⟨24, 4⟩
abbrev UPD_STAT_REQUESTER : Fld := ⟨22, 2⟩
abbrev UPD_STAT_PART : Fld := ⟨16, 6⟩
abbrev UPD_STAT_RESULT : Fld := ⟨0, 8⟩
abbrev UPD_CFG_LOCK_TIMEOUT : Fld := ⟨0, 16⟩
abbrev EMRAM_SEC_REQUIRE_CUST : Fld := ⟨31, 1⟩
abbrev EMRAM_SEC_CUST_KEY_SET : Fld := ⟨30, 1⟩
abbrev EMRAM_SEC_ARB_LOST : Fld := ⟨29, 1⟩
abbrev EMRAM_LOG_WP_WP : Fld := ⟨0, 15⟩
abbrev EMRAM_LOG_CFG_RATE : Fld := ⟨0, 10⟩
abbrev EMRAM_LOG_POST0_CODE : Fld := ⟨0, 16⟩
abbrev EMRAM_LOG_POST2_DATA : Fld := ⟨0, 16⟩
abbrev PCIE_STAT_LINK_UP : Fld := ⟨31, 1⟩
abbrev PCIE_STAT_FLIT : Fld := ⟨30, 1⟩
abbrev PCIE_STAT_SAFE : Fld := ⟨29, 1⟩
abbrev PCIE_STAT_SPEED : Fld := ⟨4, 4⟩
abbrev PCIE_STAT_WIDTH : Fld := ⟨0, 4⟩
abbrev DMA_RING_CFG_EN : Fld := ⟨31, 1⟩
abbrev DMA_RING_CFG_DIR : Fld := ⟨30, 1⟩
abbrev DMA_RING_CFG_PORT : Fld := ⟨29, 1⟩
abbrev DMA_RING_CFG_STOPPED : Fld := ⟨28, 1⟩
abbrev DMA_RING_CFG_SIZE_EXP : Fld := ⟨24, 4⟩
abbrev DMA_RING_CFG_VECTOR : Fld := ⟨16, 8⟩
abbrev DMA_RING_CFG_COAL_US : Fld := ⟨8, 8⟩
abbrev DMA_RING_CFG_COAL_CNT : Fld := ⟨0, 8⟩
abbrev DMA_RING_BASE_LO_BASE : Fld := ⟨6, 26⟩
abbrev DMA_RING_PTR_HEAD : Fld := ⟨16, 16⟩
abbrev DMA_RING_PTR_TAIL : Fld := ⟨0, 16⟩
abbrev DMA_NOTE_CFG_EN : Fld := ⟨31, 1⟩
abbrev DMA_NOTE_CFG_RING : Fld := ⟨0, 6⟩
abbrev DMA_RW_CFG_EN : Fld := ⟨31, 1⟩
abbrev DMA_RW_CFG_RING : Fld := ⟨0, 6⟩
abbrev PWR_STBY_ENTER : Fld := ⟨31, 1⟩
abbrev PWR_STBY_EXIT : Fld := ⟨30, 1⟩
abbrev PWR_STBY_STATE : Fld := ⟨28, 2⟩
abbrev PWR_STBY_REFUSE : Fld := ⟨24, 4⟩
abbrev PWR_STBY_KEEP : Fld := ⟨0, 2⟩
abbrev PWR_RESET_KEY : Fld := ⟨24, 8⟩
abbrev PWR_RESET_FDIE : Fld := ⟨1, 1⟩
abbrev PWR_RESET_DEVICE : Fld := ⟨0, 1⟩
abbrev PWR_RESET_CAUSE_CAUSE : Fld := ⟨0, 8⟩
abbrev PWR_TEMP_ALERT : Fld := ⟨24, 8⟩
abbrev PWR_TEMP_TRIP : Fld := ⟨16, 8⟩
abbrev PWR_TEMP_PEAK : Fld := ⟨8, 8⟩
abbrev PWR_TEMP_TEMP : Fld := ⟨0, 8⟩
abbrev PWR_STRAP_STRAP : Fld := ⟨0, 8⟩
abbrev PWR_GPIO_CFG_MODE : Fld := ⟨30, 2⟩
abbrev PWR_GPIO_CFG_OUT : Fld := ⟨29, 1⟩
abbrev PWR_GPIO_CFG_IN : Fld := ⟨28, 1⟩
abbrev PWR_GPIO_CFG_LED : Fld := ⟨26, 2⟩
abbrev PWR_GPIO_CFG_RATE_MS : Fld := ⟨8, 8⟩
abbrev PWR_GPIO_CFG_DEBOUNCE_US : Fld := ⟨0, 8⟩
abbrev CLK_STAT_CORE_LOCK : Fld := ⟨31, 1⟩
abbrev CLK_STAT_HOLDOVER : Fld := ⟨30, 1⟩
abbrev CLK_STAT_REF_A_OK : Fld := ⟨29, 1⟩
abbrev CLK_STAT_REF_B_OK : Fld := ⟨28, 1⟩
abbrev CLK_STAT_REF_C_OK : Fld := ⟨27, 1⟩
abbrev CLK_STAT_FALLBACK : Fld := ⟨26, 1⟩
abbrev CLK_STAT_TW_DELAY : Fld := ⟨0, 8⟩
abbrev CLK_CFG_REF_FALLBACK : Fld := ⟨0, 1⟩
abbrev PTP_TOD_SEC_HI_SEC_HI : Fld := ⟨0, 16⟩
abbrev PTP_LOAD_GO_GO : Fld := ⟨0, 1⟩
abbrev PTP_PPS_CFG_WIDTH : Fld := ⟨0, 16⟩
abbrev PTP_TXTS_W0_VALID : Fld := ⟨31, 1⟩
abbrev PTP_TXTS_W0_PORT : Fld := ⟨16, 6⟩
abbrev PTP_TXTS_W0_TAG : Fld := ⟨0, 16⟩
abbrev PTP_TXTS_W3_SEC_HI : Fld := ⟨0, 16⟩
abbrev PTP_SYNCE_CFG_EN : Fld := ⟨31, 1⟩
abbrev PTP_SYNCE_CFG_SQUELCH_EN : Fld := ⟨30, 1⟩
abbrev PTP_SYNCE_CFG_LANE : Fld := ⟨16, 6⟩
abbrev PTP_SYNCE_CFG_RESUME_MS : Fld := ⟨8, 8⟩
abbrev PTP_SYNCE_CFG_FREQ : Fld := ⟨0, 2⟩
abbrev PTP_RX_CORR_CORR : Fld := ⟨0, 16⟩
abbrev PTP_TX_CORR_CORR : Fld := ⟨0, 16⟩
abbrev VOQ_STAT_NONEMPTY : Fld := ⟨0, 21⟩
abbrev VOQ_SPILLED_SPILLED : Fld := ⟨0, 21⟩
abbrev CALD_STAT_USED : Fld := ⟨0, 19⟩
abbrev CALD_LOSSY_CELLS : Fld := ⟨0, 19⟩
abbrev CALD_LOSSLESS_CELLS : Fld := ⟨0, 19⟩
abbrev CALD_ARRIVAL_CELLS : Fld := ⟨0, 14⟩
abbrev CALD_PEAK_PEAK : Fld := ⟨0, 19⟩
abbrev CALD_PWR_PWR : Fld := ⟨0, 4⟩
abbrev IRQ_REARM_PORT : Fld := ⟨8, 1⟩
abbrev IRQ_REARM_VECTOR : Fld := ⟨0, 8⟩
abbrev SBUF_USED_BYTES : Fld := ⟨0, 20⟩
abbrev SBUF_PEAK_PEAK : Fld := ⟨0, 20⟩
abbrev HSG_CAM_USED_USED : Fld := ⟨0, 7⟩
abbrev HSG_TABLE_USED : Fld := ⟨31, 1⟩
abbrev HSG_TABLE_TABLE : Fld := ⟨0, 5⟩
abbrev D2DL_LANE_ERR_ERR : Fld := ⟨0, 16⟩
abbrev CALDQ_USED_USED : Fld := ⟨0, 17⟩
abbrev EPQ_USED_USED : Fld := ⟨0, 17⟩
abbrev EQL_STAT_READY : Fld := ⟨0, 8⟩
abbrev FCE_STAT_ACTIVE : Fld := ⟨31, 1⟩
abbrev FCE_STAT_HELD : Fld := ⟨0, 16⟩
abbrev FCE_REORDER_PEAK_PEAK : Fld := ⟨0, 16⟩
abbrev HBMTR_CH_TRAINED : Fld := ⟨31, 1⟩
abbrev HBMTR_CH_RD_MARGIN : Fld := ⟨16, 8⟩
abbrev HBMTR_CH_WR_MARGIN : Fld := ⟨8, 8⟩
abbrev HBMTR_CH_FAIL_RUN : Fld := ⟨0, 3⟩
end Fd

/-! Block bits of PG_INT_STAT, as the owning chapters define them (R398); a bit range takes its index. -/
namespace Ib
abbrev D2D_LANE_REPAIRED : Nat := 0
abbrev D2D_BUNDLE_LOST : Nat := 1
abbrev D2D_STATE_CHANGE : Nat := 2
abbrev D2D_LINK_DOWN : Nat := 3
abbrev D2D_DISCARD : Nat := 4
abbrev D2D_REFUSED : Nat := 5
abbrev TICK_LOCKED : Nat := 0
abbrev TICK_HOLDOVER : Nat := 1
abbrev TICK_OVERRUN : Nat := 2
abbrev TICK_REFUSED : Nat := 3
abbrev CMT_APPLIED : Nat := 0
abbrev CMT_CHECK_DONE : Nat := 1
abbrev CMT_MISSED : Nat := 2
abbrev CMT_REFUSED : Nat := 3
abbrev CMT_LATE_WRITE : Nat := 4
abbrev CMT_EPOCH_JUMP : Nat := 5
abbrev LPORT_LINK_CHANGE (n : Nat) : Nat := 0 + n
abbrev LPORT_STORM (n : Nat) : Nat := 8 + n
abbrev LPORT_FEC_DEGRADE (n : Nat) : Nat := 16 + n
abbrev FLEXE_GRP_ALARM (n : Nat) : Nat := 0 + n
abbrev FLEXE_CAL_TIMEOUT : Nat := 8
abbrev FLEXE_TBL_REFUSED : Nat := 9
abbrev PTP_TXTS_READY : Nat := 0
abbrev PTP_TXTS_DROP : Nat := 1
abbrev PTP_PPS_IN : Nat := 2
abbrev PTP_SYNCE_SQUELCH : Nat := 3
abbrev STEER_MOVE_DONE : Nat := 0
abbrev STEER_EVAC_DONE : Nat := 1
abbrev STEER_FENCE : Nat := 2
abbrev STEER_NO_SPARE : Nat := 3
abbrev STEER_LL_DROP : Nat := 4
abbrev STEER_REFUSED : Nat := 5
abbrev STEER_TBL_REFUSED : Nat := 6
abbrev SLICE_FAULT : Nat := 0
abbrev SLICE_SELFTEST_DONE : Nat := 1
abbrev SLICE_REFUSED : Nat := 2
abbrev PARSE_EXC_DROP : Nat := 0
abbrev PARSE_TBL_REFUSED : Nat := 1
abbrev CLASS_LOG_FULL : Nat := 0
abbrev CLASS_CLEANUP_DONE : Nat := 1
abbrev ACL_TBL_REFUSED : Nat := 0
abbrev ACL_GROUP_LOST : Nat := 1
abbrev TERR_PARITY : Nat := 0
abbrev TERR_SCRUB_FIX : Nat := 1
abbrev TERR_SHADOW_ERR : Nat := 2
abbrev TERR_TBL_REFUSED : Nat := 3
abbrev TERR_CTL_LOG_FULL : Nat := 0
abbrev TERR_CTL_CLEANUP_DONE : Nat := 1
abbrev TERR_CTL_TBL_REFUSED : Nat := 2
abbrev NHOP_WATCH_DOWN : Nat := 0
abbrev NHOP_RESOLVE_ERR : Nat := 1
abbrev NHOP_ENCAP_ERR : Nat := 2
abbrev NHOP_TBL_REFUSED : Nat := 3
abbrev EXM_TBL_REFUSED : Nat := 0
abbrev EXM_UNCORR : Nat := 1
abbrev EXM_DEEP_LATE : Nat := 2
abbrev LEARN_FREEZE : Nat := 0
abbrev LEARN_FULL : Nat := 1
abbrev LEARN_QUEUE_DROP : Nat := 2
abbrev LEARN_NOTE_READY : Nat := 3
abbrev LEARN_NOTE_DROP : Nat := 4
abbrev LEARN_STATIC_CONFLICT : Nat := 5
abbrev AGE_PASS_DONE : Nat := 0
abbrev AGE_PASS_LONG : Nat := 1
abbrev APC_SUP_FAULT : Nat := 0
abbrev APC_SUP_OVERFLOW : Nat := 1
abbrev APC_ALLWAIT : Nat := 2
abbrev APC_DBG_HALT : Nat := 3
abbrev APC_TBL_REFUSED : Nat := 4
abbrev APC_REFUSED : Nat := 5
abbrev APC_FAULT : Nat := 6
abbrev ADM_LL_DROP : Nat := 0
abbrev ADM_XOFF : Nat := 1
abbrev ADM_BAD_TAIL : Nat := 2
abbrev ADM_TBL_REFUSED : Nat := 3
abbrev CALD_UNCORR : Nat := 0
abbrev CALD_LOSSY_FULL : Nat := 1
abbrev CALD_REFUSED : Nat := 2
abbrev BUF_NOPAGE : Nat := 0
abbrev BUF_POISON : Nat := 1
abbrev BUF_PAGE_LOST : Nat := 2
abbrev BUF_STOMP_TX : Nat := 3
abbrev BUF_STOMP_RX : Nat := 4
abbrev POL_RED_DROP : Nat := 0
abbrev POL_TBL_REFUSED : Nat := 1
abbrev MIR_ENGINE_DROP : Nat := 0
abbrev EQS_UNDERRUN : Nat := 0
abbrev EQS_TBL_REFUSED : Nat := 1
abbrev SHP_WHEEL_LATE : Nat := 0
abbrev SHP_TBL_REFUSED : Nat := 1
abbrev GATE_OVERSIZE : Nat := 0
abbrev GATE_LATE : Nat := 1
abbrev GATE_SWITCH : Nat := 2
abbrev GATE_TBL_REFUSED : Nat := 3
abbrev LAT_TBL_REFUSED : Nat := 0
abbrev FCELL_UNREACH : Nat := 0
abbrev FCELL_LOSS_DROP : Nat := 1
abbrev FCELL_MISROUTE : Nat := 2
abbrev FCELL_TBL_REFUSED : Nat := 3
abbrev FCELL_REFUSED : Nat := 4
abbrev FCRD_LATE_DROP : Nat := 0
abbrev FCRD_REQ_DROP : Nat := 1
abbrev FCRD_WITHDRAW_CHG : Nat := 2
abbrev FCRD_HOLD_FULL : Nat := 3
abbrev HBMC_INIT_FAIL : Nat := 0
abbrev HBMC_TRAIN_FAIL : Nat := 1
abbrev HBMC_HOT : Nat := 2
abbrev HBMC_GEYSER_FORCED : Nat := 3
abbrev HBMC_PPR : Nat := 4
abbrev HBMC_REFUSED : Nat := 5
abbrev HBM_RAS_RETIRE_REQ : Nat := 0
abbrev HBM_RAS_MIG_DONE : Nat := 1
abbrev HBM_RAS_MIG_ABORT : Nat := 2
abbrev HBM_RAS_NO_SPARE : Nat := 3
abbrev HBM_RAS_REFUSED : Nat := 4
abbrev SCRUB_RW_READY : Nat := 0
abbrev SCRUB_RW_DROP : Nat := 1
abbrev SCRUB_SLIP : Nat := 2
abbrev RAS_CE_STORM : Nat := 0
abbrev RAS_REPAIR_FULL : Nat := 1
abbrev RAS_TW_DISAGREE : Nat := 2
abbrev RAS_STATE_LOST : Nat := 3
abbrev RAS_EPOOL_POISON : Nat := 4
abbrev CNT_F_TCA : Nat := 0
abbrev CNT_F_REFUSED : Nat := 1
abbrev CNT_F_FREEZE_END : Nat := 2
abbrev CNT_T_TCA : Nat := 0
abbrev CNT_T_PLUME_SKIP : Nat := 1
abbrev CNT_T_PLUME_DROP : Nat := 2
abbrev CNT_T_FLOW_DROP : Nat := 3
abbrev CNT_T_TBL_REFUSED : Nat := 4
abbrev SC_TAKEOVER : Nat := 0
abbrev SC_PEER_FAIL : Nat := 1
abbrev SC_FAULT : Nat := 2
abbrev SC_AUTONOMOUS : Nat := 3
abbrev SC_RESTART_GIVEUP : Nat := 4
abbrev SC_ISOLATED : Nat := 5
abbrev SC_REFUSED : Nat := 6
abbrev UPD_VERIFY_DONE : Nat := 0
abbrev UPD_START_DONE : Nat := 1
abbrev UPD_COLLISION : Nat := 2
abbrev UPD_GOLDEN : Nat := 3
abbrev UPD_LOCK_CHANGE : Nat := 4
abbrev UPD_ARB_LOST : Nat := 5
abbrev UPD_REFUSED : Nat := 6
abbrev EMRAM_LOG_DROP : Nat := 0
abbrev EMRAM_UNCORR : Nat := 1
abbrev PCIE_LINK_CHANGE : Nat := 0
abbrev PCIE_SAFE_CHANGE : Nat := 1
abbrev PCIE_PARTIAL_WR : Nat := 2
abbrev PCIE_FDIE_FAIL : Nat := 3
abbrev DMA_REFUSED : Nat := 0
abbrev DMA_PUNT_DROP : Nat := 1
abbrev DMA_TX_ERR : Nat := 2
abbrev PWR_REFUSED : Nat := 0
abbrev PWR_DOM_CHANGE : Nat := 1
abbrev PWR_TEMP_ALERT : Nat := 2
abbrev PWR_STBY_DONE : Nat := 3
abbrev PWR_GPIO : Nat := 4
abbrev CLK_REF_LOSS : Nat := 0
abbrev CLK_FALLBACK : Nat := 1
abbrev CLK_UNLOCK : Nat := 2
abbrev LSER_TRAIN_FAIL (n : Nat) : Nat := 0 + n
abbrev VOQ_STALE_DROP : Nat := 0
abbrev VOQ_POISON_DROP : Nat := 1
abbrev VOQ_TBL_REFUSED : Nat := 2
abbrev FSER_TRAIN_FAIL (n : Nat) : Nat := 0 + n
abbrev FSER_DATA_SLIP (n : Nat) : Nat := 8 + n
abbrev FFRM_DEFECT : Nat := 0
abbrev FFRM_SERVICE : Nat := 1
abbrev FFRM_FN_JUMP : Nat := 2
abbrev FFRM_REFUSED : Nat := 3
abbrev HSG_CAM_FULL : Nat := 0
end Ib

/-- The kinds of register field of R16. -/
inductive Kind where
  | rw | ro | w1c | w1s | rc | wo | sc | st
deriving DecidableEq, Repr

/-- One field of a register: its place, its kind, its reset value and the range of encodings that are not reserved (R17). -/
structure FieldDef where
  lo : Nat
  w : Nat
  kind : Kind
  reset : Nat
  amin : Nat
  amax : Nat
deriving DecidableEq, Repr

/-- One register of a page: its offset (of index 0), its two index ranges (count and stride), whether it counts events (R313), its fields. -/
structure RegDef where
  off : Nat
  n1 : Nat
  s1 : Nat
  n2 : Nat
  s2 : Nat
  cnt : Bool
  fields : List FieldDef
deriving DecidableEq, Repr

/-- One kind of page: die, first page number, instances, what PG_CAP reports (R395), and its own registers. -/
structure PageDef where
  die : Nat
  base : Nat
  n : Nat
  tables : Bool
  memory : Bool
  user : Bool
  regs : List RegDef
deriving DecidableEq, Repr

/-- A field without reserved encodings. -/
abbrev fd (lo w : Nat) (k : Kind) (reset : Nat) : FieldDef := ⟨lo, w, k, reset, 0, 2 ^ w - 1⟩
/-- A field whose encodings outside `amin`–`amax` are reserved. -/
abbrev fa (lo w : Nat) (k : Kind) (reset amin amax : Nat) : FieldDef := ⟨lo, w, k, reset, amin, amax⟩

namespace Map
def rD2D : List RegDef := [
  ⟨0x100, 1, 0x0, 1, 0x0, false, [fa 16 5 .rw 4 1 16, fd 8 1 .rw 1, fd 4 1 .rw 1, fd 3 1 .rw 1, fd 0 1 .sc 0]⟩ /- D2D_CTRL -/,
  ⟨0x104, 1, 0x0, 1, 0x0, false, [fa 0 16 .rw 16 1 65535]⟩ /- D2D_LANE_THR -/,
  ⟨0x108, 1, 0x0, 1, 0x0, false, [fd 30 2 .ro 0, fd 16 5 .ro 0, fd 8 5 .ro 0, fd 0 5 .ro 0]⟩ /- D2D_STAT -/,
  ⟨0x140, 16, 0x4, 1, 0x0, false, [fd 31 1 .ro 0, fd 30 1 .ro 0, fd 16 5 .ro 0, fd 0 16 .ro 0]⟩ /- D2D_BUNDLE_STAT -/,
  ⟨0x180, 1, 0x0, 1, 0x0, true, [fd 0 32 .ro 0]⟩ /- D2D_CRC_ERR_CNT -/,
  ⟨0x184, 1, 0x0, 1, 0x0, true, [fd 0 32 .ro 0]⟩ /- D2D_REPLAY_CNT -/,
  ⟨0x188, 1, 0x0, 1, 0x0, true, [fd 0 32 .ro 0]⟩ /- D2D_REPAIR_CNT -/,
  ⟨0x18C, 1, 0x0, 1, 0x0, true, [fd 0 32 .ro 0]⟩ /- D2D_DISCARD_CNT -/]
def rTICK_0 : List RegDef := [
  ⟨0x100, 1, 0x0, 1, 0x0, false, [fa 16 4 .rw 8 1 15, fa 8 8 .rw 4 1 255, fa 4 2 .rw 0 0 2, fa 0 2 .rw 0 0 2]⟩ /- TICK_CTRL -/,
  ⟨0x104, 1, 0x0, 1, 0x0, false, [fd 16 8 .rw 0, fd 0 10 .rw 0]⟩ /- TICK_SKEW -/,
  ⟨0x108, 1, 0x0, 1, 0x0, false, [fd 24 5 .ro 0, fd 16 7 .ro 0, fd 8 6 .ro 0, fd 0 3 .ro 0]⟩ /- TICK_STAT -/,
  ⟨0x10C, 1, 0x0, 1, 0x0, false, [fd 0 16 .ro 0]⟩ /- TICK_PHASE -/,
  ⟨0x110, 1, 0x0, 1, 0x0, false, [fd 0 32 .ro 0]⟩ /- TICK_COUNT_LO -/,
  ⟨0x114, 1, 0x0, 1, 0x0, false, [fd 0 32 .ro 0]⟩ /- TICK_COUNT_HI -/,
  ⟨0x118, 1, 0x0, 1, 0x0, false, [fd 0 32 .ro 0]⟩ /- TICK_LAST_TAG -/,
  ⟨0x11C, 1, 0x0, 1, 0x0, false, [fd 31 1 .wo 0, fd 0 12 .wo 0]⟩ /- TICK_GEN_CMT -/,
  ⟨0x140, 1, 0x0, 1, 0x0, true, [fd 0 32 .ro 0]⟩ /- TICK_EARLY_EDGE_CNT -/,
  ⟨0x144, 1, 0x0, 1, 0x0, true, [fd 0 32 .ro 0]⟩ /- TICK_PHASE_ANOM_CNT -/,
  ⟨0x148, 1, 0x0, 1, 0x0, true, [fd 0 32 .ro 0]⟩ /- TICK_TAG_ERR_CNT -/,
  ⟨0x14C, 1, 0x0, 1, 0x0, true, [fd 0 32 .ro 0]⟩ /- TICK_TIS_ERR_CNT -/]
def rTICK_1 : List RegDef := [
  ⟨0x150, 1, 0x0, 1, 0x0, true, [fd 0 32 .ro 0]⟩ /- TICK_MISSING_EDGE_CNT -/,
  ⟨0x154, 1, 0x0, 1, 0x0, true, [fd 0 32 .ro 0]⟩ /- TICK_HOLDOVER_CNT -/,
  ⟨0x180, 16, 0x4, 1, 0x0, true, [fd 0 32 .ro 0]⟩ /- TICK_OVR_CNT -/]
def rTICK : List RegDef := rTICK_0 ++ rTICK_1
def rCMT_0 : List RegDef := [
  ⟨0x100, 1, 0x0, 1, 0x0, false, [fd 4 1 .st 0, fd 0 1 .rw 0]⟩ /- CMT_CTRL -/,
  ⟨0x104, 1, 0x0, 1, 0x0, false, [fd 0 1 .wo 0]⟩ /- CMT_STAGE_CLOSE -/,
  ⟨0x108, 1, 0x0, 1, 0x0, false, [fd 31 1 .ro 0, fd 30 1 .ro 0, fd 0 16 .ro 0]⟩ /- CMT_CHECK_STAT -/,
  ⟨0x10C, 1, 0x0, 1, 0x0, false, [fd 24 8 .ro 0, fd 23 1 .ro 0, fd 11 12 .ro 0, fd 1 10 .ro 0]⟩ /- CMT_CHECK_FIRST -/,
  ⟨0x110, 1, 0x0, 1, 0x0, false, [fd 31 1 .wo 0, fd 0 12 .wo 0]⟩ /- CMT_ARM -/,
  ⟨0x114, 1, 0x0, 1, 0x0, false, [fd 0 3 .wo 0]⟩ /- CMT_CMD -/,
  ⟨0x118, 1, 0x0, 1, 0x0, false, [fd 31 1 .ro 0, fd 16 12 .ro 0, fd 8 4 .ro 0, fd 4 2 .ro 0, fd 3 1 .ro 0, fd 0 3 .ro 0]⟩ /- CMT_STAT -/,
  ⟨0x11C, 1, 0x0, 1, 0x0, false, [fd 16 12 .ro 0, fd 0 12 .ro 0]⟩ /- CMT_EPOCH -/,
  ⟨0x120, 1, 0x0, 1, 0x0, false, [fd 12 2 .ro 0, fd 8 1 .ro 0, fd 4 2 .ro 0, fd 0 2 .ro 0]⟩ /- CMT_VER -/,
  ⟨0x124, 1, 0x0, 1, 0x0, false, [fd 0 16 .ro 0]⟩ /- CMT_INFLIGHT -/,
  ⟨0x128, 1, 0x0, 1, 0x0, false, [fd 0 32 .ro 0]⟩ /- CMT_LAST_APPLY_LO -/,
  ⟨0x12C, 1, 0x0, 1, 0x0, false, [fd 0 32 .ro 0]⟩ /- CMT_LAST_APPLY_HI -/]
def rCMT_1 : List RegDef := [
  ⟨0x140, 1, 0x0, 1, 0x0, true, [fd 0 32 .ro 0]⟩ /- CMT_APPLY_CNT -/,
  ⟨0x144, 1, 0x0, 1, 0x0, true, [fd 0 32 .ro 0]⟩ /- CMT_MISSED_CNT -/,
  ⟨0x148, 1, 0x0, 1, 0x0, true, [fd 0 32 .ro 0]⟩ /- CMT_LATE_WRITE_CNT -/,
  ⟨0x14C, 1, 0x0, 1, 0x0, true, [fd 0 32 .ro 0]⟩ /- CMT_EPOCH_JUMP_CNT -/,
  ⟨0x150, 1, 0x0, 1, 0x0, true, [fd 0 32 .ro 0]⟩ /- CMT_REFUSE_CNT -/]
def rCMT : List RegDef := rCMT_0 ++ rCMT_1
def rLPORT_0 : List RegDef := [
  ⟨0x100, 8, 0x20, 1, 0x0, false, [fa 16 14 .st 9216 64 16383, fd 11 2 .st 0, fa 8 3 .st 0 0 2, fa 4 4 .st 0 0 5]⟩ /- LPORT_CFG -/,
  ⟨0x104, 8, 0x20, 1, 0x0, false, [fd 16 8 .rw 10, fa 6 2 .rw 0 0 2, fd 2 2 .rw 0, fd 1 1 .rw 1, fd 0 1 .rw 1]⟩ /- LPORT_CTRL -/,
  ⟨0x108, 8, 0x20, 1, 0x0, false, [fd 31 1 .ro 0, fd 30 1 .ro 0, fd 29 1 .ro 0, fd 28 1 .ro 0, fd 27 1 .ro 0, fd 0 3 .ro 0]⟩ /- LPORT_STAT -/,
  ⟨0x10C, 8, 0x20, 1, 0x0, false, [fd 24 8 .rw 0, fd 0 24 .rw 0xfac688]⟩ /- LPORT_PFC_CFG -/,
  ⟨0x110, 8, 0x20, 1, 0x0, false, [fd 22 10 .rw 100, fa 12 10 .rw 200 1 1023]⟩ /- LPORT_STORM_CFG -/,
  ⟨0x114, 8, 0x20, 1, 0x0, false, [fd 8 8 .ro 0, fd 0 8 .ro 0]⟩ /- LPORT_PFC_STAT -/,
  ⟨0x118, 8, 0x20, 1, 0x0, false, [fa 16 16 .rw 100 1 65535, fd 0 5 .rw 24]⟩ /- LPORT_PM_CFG -/,
  ⟨0x400, 8, 0x80, 1, 0x0, true, [fd 0 32 .ro 0]⟩ /- LPORT_RX_FRAMES_LO -/,
  ⟨0x404, 8, 0x80, 1, 0x0, true, [fd 0 32 .ro 0]⟩ /- LPORT_RX_FRAMES_HI -/,
  ⟨0x408, 8, 0x80, 1, 0x0, true, [fd 0 32 .ro 0]⟩ /- LPORT_RX_BYTES_LO -/,
  ⟨0x40C, 8, 0x80, 1, 0x0, true, [fd 0 32 .ro 0]⟩ /- LPORT_RX_BYTES_HI -/,
  ⟨0x410, 8, 0x80, 1, 0x0, true, [fd 0 32 .ro 0]⟩ /- LPORT_RX_FCS_ERR_LO -/]
def rLPORT_1 : List RegDef := [
  ⟨0x414, 8, 0x80, 1, 0x0, true, [fd 0 32 .ro 0]⟩ /- LPORT_RX_FCS_ERR_HI -/,
  ⟨0x418, 8, 0x80, 1, 0x0, true, [fd 0 32 .ro 0]⟩ /- LPORT_RX_RUNT_LO -/,
  ⟨0x41C, 8, 0x80, 1, 0x0, true, [fd 0 32 .ro 0]⟩ /- LPORT_RX_RUNT_HI -/,
  ⟨0x420, 8, 0x80, 1, 0x0, true, [fd 0 32 .ro 0]⟩ /- LPORT_RX_OVERSIZE_LO -/,
  ⟨0x424, 8, 0x80, 1, 0x0, true, [fd 0 32 .ro 0]⟩ /- LPORT_RX_OVERSIZE_HI -/,
  ⟨0x428, 8, 0x80, 1, 0x0, true, [fd 0 32 .ro 0]⟩ /- LPORT_RX_CODE_ERR_LO -/,
  ⟨0x42C, 8, 0x80, 1, 0x0, true, [fd 0 32 .ro 0]⟩ /- LPORT_RX_CODE_ERR_HI -/,
  ⟨0x430, 8, 0x80, 1, 0x0, true, [fd 0 32 .ro 0]⟩ /- LPORT_RX_PFC_FRAMES_LO -/,
  ⟨0x434, 8, 0x80, 1, 0x0, true, [fd 0 32 .ro 0]⟩ /- LPORT_RX_PFC_FRAMES_HI -/,
  ⟨0x438, 8, 0x80, 1, 0x0, true, [fd 0 32 .ro 0]⟩ /- LPORT_RX_PAUSE_FRAMES_LO -/,
  ⟨0x43C, 8, 0x80, 1, 0x0, true, [fd 0 32 .ro 0]⟩ /- LPORT_RX_PAUSE_FRAMES_HI -/,
  ⟨0x440, 8, 0x80, 1, 0x0, true, [fd 0 32 .ro 0]⟩ /- LPORT_TX_FRAMES_LO -/]
def rLPORT_2 : List RegDef := [
  ⟨0x444, 8, 0x80, 1, 0x0, true, [fd 0 32 .ro 0]⟩ /- LPORT_TX_FRAMES_HI -/,
  ⟨0x448, 8, 0x80, 1, 0x0, true, [fd 0 32 .ro 0]⟩ /- LPORT_TX_BYTES_LO -/,
  ⟨0x44C, 8, 0x80, 1, 0x0, true, [fd 0 32 .ro 0]⟩ /- LPORT_TX_BYTES_HI -/,
  ⟨0x450, 8, 0x80, 1, 0x0, true, [fd 0 32 .ro 0]⟩ /- LPORT_TX_PFC_FRAMES_LO -/,
  ⟨0x454, 8, 0x80, 1, 0x0, true, [fd 0 32 .ro 0]⟩ /- LPORT_TX_PFC_FRAMES_HI -/,
  ⟨0x458, 8, 0x80, 1, 0x0, true, [fd 0 32 .ro 0]⟩ /- LPORT_TX_STOMP_LO -/,
  ⟨0x45C, 8, 0x80, 1, 0x0, true, [fd 0 32 .ro 0]⟩ /- LPORT_TX_STOMP_HI -/,
  ⟨0x460, 8, 0x80, 1, 0x0, true, [fd 0 32 .ro 0]⟩ /- LPORT_FEC_CORR_CW_LO -/,
  ⟨0x464, 8, 0x80, 1, 0x0, true, [fd 0 32 .ro 0]⟩ /- LPORT_FEC_CORR_CW_HI -/,
  ⟨0x468, 8, 0x80, 1, 0x0, true, [fd 0 32 .ro 0]⟩ /- LPORT_FEC_UNCORR_CW_LO -/,
  ⟨0x46C, 8, 0x80, 1, 0x0, true, [fd 0 32 .ro 0]⟩ /- LPORT_FEC_UNCORR_CW_HI -/,
  ⟨0x470, 8, 0x80, 1, 0x0, true, [fd 0 32 .ro 0]⟩ /- LPORT_FEC_SYM_ERR_LO -/]
def rLPORT_3 : List RegDef := [
  ⟨0x474, 8, 0x80, 1, 0x0, true, [fd 0 32 .ro 0]⟩ /- LPORT_FEC_SYM_ERR_HI -/,
  ⟨0x478, 8, 0x80, 1, 0x0, true, [fd 0 32 .ro 0]⟩ /- LPORT_PFC_STORM_CNT_LO -/,
  ⟨0x47C, 8, 0x80, 1, 0x0, true, [fd 0 32 .ro 0]⟩ /- LPORT_PFC_STORM_CNT_HI -/]
def rLPORT : List RegDef := rLPORT_0 ++ rLPORT_1 ++ rLPORT_2 ++ rLPORT_3
def rLSER : List RegDef := [
  ⟨0x100, 8, 0x20, 1, 0x0, false, [fa 16 4 .rw 1 1 5, fd 3 1 .rw 1, fd 2 1 .rw 0, fd 1 1 .rw 0]⟩ /- LSER_LANE_CFG -/,
  ⟨0x104, 8, 0x20, 1, 0x0, false, [fd 31 1 .ro 0, fd 30 1 .ro 0, fd 24 2 .ro 0]⟩ /- LSER_LANE_STAT -/,
  ⟨0x108, 8, 0x20, 1, 0x0, true, [fd 0 32 .ro 0]⟩ /- LSER_TRAIN_FAIL_CNT -/,
  ⟨0x200, 8, 0x40, 16, 0x4, true, [fd 0 32 .ro 0]⟩ /- LSER_FEC_HIST -/,
  ⟨0x400, 1, 0x0, 1, 0x0, false, [fa 16 16 .rw 500 1 65535, fa 0 16 .rw 100 1 65535]⟩ /- LSER_GRP_CFG -/,
  ⟨0x404, 1, 0x0, 1, 0x0, false, [fd 0 32 .ro 0]⟩ /- LSER_FW_VER -/]
def rFLEXE : List RegDef := [
  ⟨0x100, 8, 0x4, 1, 0x0, false, [fd 31 1 .st 0, fa 29 2 .st 0 0 2, fd 28 1 .st 1, fd 27 1 .st 0, fd 0 20 .st 0]⟩ /- FLEXE_GRP_CFG -/,
  ⟨0x120, 8, 0x4, 1, 0x0, false, [fd 0 32 .st 0]⟩ /- FLEXE_GRP_PHYS -/,
  ⟨0x140, 32, 0x4, 1, 0x0, false, [fa 0 8 .st 0 1 254]⟩ /- FLEXE_PHY_NUM -/,
  ⟨0x1C0, 8, 0x4, 1, 0x0, false, [fd 31 1 .ro 0, fd 30 1 .ro 0, fd 29 1 .ro 0, fd 28 1 .ro 0, fd 27 1 .ro 0, fd 26 1 .ro 0, fd 25 1 .ro 0, fd 24 1 .ro 0]⟩ /- FLEXE_GRP_STAT -/]
def rSTEER_0 : List RegDef := [
  ⟨0x100, 1, 0x0, 1, 0x0, false, [fa 20 10 .rw 256 1 511, fd 10 10 .rw 128, fd 0 8 .st 0]⟩ /- STEER_CFG -/,
  ⟨0x104, 1, 0x0, 1, 0x0, false, [fd 31 1 .wo 0, fd 30 1 .wo 0, fd 16 14 .wo 0, fd 0 4 .wo 0]⟩ /- STEER_MOVE -/,
  ⟨0x108, 2, 0x4, 1, 0x0, false, [fd 31 1 .ro 0, fd 28 3 .ro 0, fd 24 4 .ro 0, fd 4 14 .ro 0, fd 0 4 .ro 0]⟩ /- STEER_MOVE_STAT -/,
  ⟨0x110, 1, 0x0, 1, 0x0, false, [fd 31 1 .wo 0, fd 30 1 .wo 0, fd 29 1 .wo 0, fd 4 4 .wo 0, fd 0 4 .wo 0]⟩ /- STEER_EVAC -/,
  ⟨0x114, 2, 0x4, 1, 0x0, false, [fd 31 1 .ro 0, fd 30 1 .ro 0, fd 29 1 .ro 0, fd 15 14 .ro 0, fd 0 15 .ro 0]⟩ /- STEER_EVAC_STAT -/,
  ⟨0x120, 1, 0x0, 1, 0x0, false, [fd 31 1 .ro 0, fd 30 1 .ro 0, fd 20 4 .ro 8, fd 16 4 .ro 8]⟩ /- STEER_STAT -/,
  ⟨0x180, 1, 0x0, 1, 0x0, true, [fd 0 32 .ro 0]⟩ /- STEER_DROP_CNT -/,
  ⟨0x184, 1, 0x0, 1, 0x0, true, [fd 0 32 .ro 0]⟩ /- STEER_LL_DROP_CNT -/,
  ⟨0x188, 1, 0x0, 1, 0x0, true, [fd 0 32 .ro 0]⟩ /- STEER_XOFF_CNT -/,
  ⟨0x18C, 1, 0x0, 1, 0x0, true, [fd 0 32 .ro 0]⟩ /- STEER_MOVE_CNT -/,
  ⟨0x190, 1, 0x0, 1, 0x0, true, [fd 0 32 .ro 0]⟩ /- STEER_FENCE_CNT -/,
  ⟨0x200, 64, 0x4, 1, 0x0, false, [fd 16 16 .st 0, fd 0 10 .st 752]⟩ /- STEER_HASH_CFG -/]
def rSTEER_1 : List RegDef := [
  ⟨0x300, 64, 0x4, 1, 0x0, false, [fd 26 3 .st 0, fd 24 2 .st 0, fd 0 24 .st 0xfac688]⟩ /- STEER_TC_CFG -/]
def rSTEER : List RegDef := rSTEER_0 ++ rSTEER_1
def rSLICE : List RegDef := [
  ⟨0x100, 1, 0x0, 1, 0x0, false, [fd 31 1 .sc 0, fd 30 1 .sc 0, fd 16 8 .rw 16, fd 0 2 .rw 0]⟩ /- SLICE_CTRL -/,
  ⟨0x104, 1, 0x0, 1, 0x0, false, [fd 31 1 .ro 0, fd 30 1 .ro 0, fd 15 15 .ro 0, fd 0 10 .ro 0]⟩ /- SLICE_STAT -/,
  ⟨0x108, 1, 0x0, 1, 0x0, false, [fd 0 6 .w1c 0]⟩ /- SLICE_FAULT -/,
  ⟨0x10C, 1, 0x0, 1, 0x0, false, [fd 0 5 .rw 31]⟩ /- SLICE_FAULT_EN -/,
  ⟨0x180, 1, 0x0, 1, 0x0, true, [fd 0 32 .ro 0]⟩ /- SLICE_PKT_CNT_LO -/,
  ⟨0x184, 1, 0x0, 1, 0x0, true, [fd 0 32 .ro 0]⟩ /- SLICE_PKT_CNT_HI -/,
  ⟨0x188, 1, 0x0, 1, 0x0, true, [fd 0 32 .ro 0]⟩ /- SLICE_FENCE_DROP_CNT -/,
  ⟨0x18C, 1, 0x0, 1, 0x0, true, [fd 0 32 .ro 0]⟩ /- SLICE_FAULT_CNT -/]
def rPARSE : List RegDef := [
  ⟨0x100, 1, 0x0, 1, 0x0, false, [fd 0 1 .st 1]⟩ /- PARSE_CFG -/,
  ⟨0x144, 7, 0x4, 1, 0x0, false, [fa 8 2 .st 0 0 2, fd 0 8 .st 0]⟩ /- PARSE_EXC_CFG -/,
  ⟨0x200, 64, 0x4, 1, 0x0, false, [fd 8 7 .st 0, fd 0 7 .st 0]⟩ /- PARSE_START -/,
  ⟨0x404, 7, 0x4, 1, 0x0, true, [fd 0 32 .ro 0]⟩ /- PARSE_EXC_CNT -/,
  ⟨0x420, 1, 0x0, 1, 0x0, true, [fd 0 32 .ro 0]⟩ /- PARSE_FRAG_CNT -/]
def rCLASS_0 : List RegDef := [
  ⟨0x100, 1, 0x0, 1, 0x0, false, [fd 31 1 .ro 0, fd 30 1 .ro 0, fd 0 15 .ro 0]⟩ /- CLASS_LOG_STAT -/,
  ⟨0x180, 2, 0x4, 1, 0x0, false, [fd 16 7 .st 0, fd 0 8 .st 0]⟩ /- CLASS_UDF -/,
  ⟨0x200, 64, 0x4, 1, 0x0, false, [fd 28 4 .st 0, fd 24 4 .st 0, fd 20 4 .st 0, fd 16 4 .st 0]⟩ /- CLASS_PORT_CFG -/,
  ⟨0x300, 64, 0x4, 1, 0x0, false, [fd 16 16 .st 0, fd 0 12 .st 0]⟩ /- CLASS_PORT_DEF -/,
  ⟨0x400, 16, 0x20, 1, 0x0, false, [fd 31 1 .st 0, fd 30 1 .st 0, fd 24 5 .st 0, fd 16 5 .st 0, fa 14 2 .st 0 0 2, fa 12 2 .st 0 0 2, fd 0 8 .st 0]⟩ /- CLASS_PROF_CTL -/,
  ⟨0x404, 16, 0x20, 4, 0x4, false, [fd 31 1 .st 0, fa 24 6 .st 0 0 32, fd 23 1 .st 0, fa 16 6 .st 0 0 32, fd 15 1 .st 0, fa 8 6 .st 0 0 32, fd 7 1 .st 0, fa 0 6 .st 0 0 32]⟩ /- CLASS_PROF_SLOTS -/,
  ⟨0x600, 1, 0x0, 1, 0x0, true, [fd 0 32 .ro 0]⟩ /- CLASS_HIT_A_CNT -/,
  ⟨0x604, 1, 0x0, 1, 0x0, true, [fd 0 32 .ro 0]⟩ /- CLASS_MISS_A_CNT -/,
  ⟨0x608, 1, 0x0, 1, 0x0, true, [fd 0 32 .ro 0]⟩ /- CLASS_HIT_B_CNT -/,
  ⟨0x60C, 1, 0x0, 1, 0x0, true, [fd 0 32 .ro 0]⟩ /- CLASS_MISS_B_CNT -/,
  ⟨0x610, 1, 0x0, 1, 0x0, true, [fd 0 32 .ro 0]⟩ /- CLASS_DROP_CNT -/,
  ⟨0x614, 1, 0x0, 1, 0x0, true, [fd 0 32 .ro 0]⟩ /- CLASS_PUNT_CNT -/]
def rCLASS_1 : List RegDef := [
  ⟨0x618, 1, 0x0, 1, 0x0, true, [fd 0 32 .ro 0]⟩ /- CLASS_LOG_FULL_CNT -/]
def rCLASS : List RegDef := rCLASS_0 ++ rCLASS_1
def rACL : List RegDef := [
  ⟨0x100, 10, 0x4, 1, 0x0, false, [fd 0 32 .rw 0xffffffff]⟩ /- ACL_MASK -/,
  ⟨0x140, 1, 0x0, 1, 0x0, false, [fd 0 17 .ro 0]⟩ /- ACL_USED0 -/,
  ⟨0x144, 1, 0x0, 1, 0x0, false, [fd 0 17 .ro 0]⟩ /- ACL_USED1 -/,
  ⟨0x200, 16, 0x20, 1, 0x0, false, [fd 0 32 .st 0]⟩ /- ACL_PROF_BANKS -/,
  ⟨0x204, 16, 0x20, 4, 0x4, false, [fd 31 1 .st 0, fa 24 6 .st 0 0 32, fd 23 1 .st 0, fa 16 6 .st 0 0 32, fd 15 1 .st 0, fa 8 6 .st 0 0 32, fd 7 1 .st 0, fa 0 6 .st 0 0 32]⟩ /- ACL_PROF_SLOTS -/,
  ⟨0x400, 64, 0x4, 1, 0x0, false, [fd 28 4 .st 0, fd 24 4 .st 0, fd 20 4 .st 0, fd 2 1 .st 0, fd 1 1 .st 0, fd 0 1 .st 0]⟩ /- ACL_PORT_CFG -/,
  ⟨0x600, 1, 0x0, 1, 0x0, true, [fd 0 32 .ro 0]⟩ /- ACL_DENY_CNT0 -/,
  ⟨0x604, 1, 0x0, 1, 0x0, true, [fd 0 32 .ro 0]⟩ /- ACL_DENY_CNT1 -/,
  ⟨0x608, 1, 0x0, 1, 0x0, true, [fd 0 32 .ro 0]⟩ /- ACL_DENY_EG_CNT -/,
  ⟨0x60C, 1, 0x0, 1, 0x0, true, [fd 0 32 .ro 0]⟩ /- ACL_PUNT_CNT -/]
def rTERR : List RegDef := [
  ⟨0x100, 16, 0x4, 1, 0x0, false, [fd 31 1 .st 0, fa 29 2 .st 0 0 2, fd 16 8 .st 0, fd 8 8 .st 0]⟩ /- TERR_BANK_CFG -/,
  ⟨0x140, 16, 0x4, 1, 0x0, false, [fd 16 7 .ro 0, fd 0 15 .ro 0]⟩ /- TERR_BANK_STAT -/,
  ⟨0x180, 1, 0x0, 1, 0x0, true, [fd 0 32 .ro 0]⟩ /- TERR_MOVE_CNT -/,
  ⟨0x184, 1, 0x0, 1, 0x0, true, [fd 0 32 .ro 0]⟩ /- TERR_PARITY_CNT -/,
  ⟨0x188, 1, 0x0, 1, 0x0, true, [fd 0 32 .ro 0]⟩ /- TERR_SCRUB_FIX_CNT -/,
  ⟨0x18C, 1, 0x0, 1, 0x0, true, [fd 0 32 .ro 0]⟩ /- TERR_SHADOW_ERR_CNT -/]
def rTERR_CTL : List RegDef := [
  ⟨0x100, 1, 0x0, 1, 0x0, false, [fa 30 2 .st 0 0 1, fa 28 2 .st 0 0 1, fd 27 1 .st 1, fa 21 6 .st 0 0 48, fa 16 5 .st 0 0 16, fd 8 8 .st 0, fd 0 8 .st 0]⟩ /- TERR_CTL_CFG -/,
  ⟨0x104, 1, 0x0, 1, 0x0, false, [fa 0 16 .rw 256 16 65535]⟩ /- TERR_SCRUB_CFG -/,
  ⟨0x108, 1, 0x0, 1, 0x0, false, [fd 31 1 .ro 0, fd 30 1 .ro 0, fd 0 17 .ro 0]⟩ /- TERR_LOG_STAT -/,
  ⟨0x180, 1, 0x0, 1, 0x0, true, [fd 0 32 .ro 0]⟩ /- TERR_LOOKUP_CNT_LO -/,
  ⟨0x184, 1, 0x0, 1, 0x0, true, [fd 0 32 .ro 0]⟩ /- TERR_LOOKUP_CNT_HI -/,
  ⟨0x188, 1, 0x0, 1, 0x0, true, [fd 0 32 .ro 0]⟩ /- TERR_PASS2_CNT_LO -/,
  ⟨0x18C, 1, 0x0, 1, 0x0, true, [fd 0 32 .ro 0]⟩ /- TERR_PASS2_CNT_HI -/,
  ⟨0x190, 1, 0x0, 1, 0x0, true, [fd 0 32 .ro 0]⟩ /- TERR_MISS_CNT -/,
  ⟨0x194, 1, 0x0, 1, 0x0, true, [fd 0 32 .ro 0]⟩ /- TERR_PARITY_DROP_CNT -/,
  ⟨0x198, 1, 0x0, 1, 0x0, true, [fd 0 32 .ro 0]⟩ /- TERR_SKIP_CNT -/,
  ⟨0x19C, 1, 0x0, 1, 0x0, true, [fd 0 32 .ro 0]⟩ /- TERR_LOG_FULL_CNT -/,
  ⟨0x200, 64, 0x4, 1, 0x0, false, [fd 1 1 .st 0, fd 0 1 .st 0]⟩ /- TERR_CTL_PORT -/]
def rNHOP : List RegDef := [
  ⟨0x100, 1, 0x0, 1, 0x0, false, [fd 8 8 .st 0]⟩ /- NHOP_CFG -/,
  ⟨0x104, 1, 0x0, 1, 0x0, false, [fd 16 16 .rw 34984, fd 0 16 .rw 33024]⟩ /- NHOP_TPID01 -/,
  ⟨0x108, 1, 0x0, 1, 0x0, false, [fd 16 16 .rw 33024, fd 0 16 .rw 37120]⟩ /- NHOP_TPID23 -/,
  ⟨0x180, 1, 0x0, 1, 0x0, true, [fd 0 32 .ro 0]⟩ /- NHOP_DROP_CNT -/,
  ⟨0x184, 1, 0x0, 1, 0x0, true, [fd 0 32 .ro 0]⟩ /- NHOP_PUNT_CNT -/,
  ⟨0x188, 1, 0x0, 1, 0x0, true, [fd 0 32 .ro 0]⟩ /- NHOP_TTL_CNT -/,
  ⟨0x18C, 1, 0x0, 1, 0x0, true, [fd 0 32 .ro 0]⟩ /- NHOP_RESOLVE_ERR_CNT -/,
  ⟨0x190, 1, 0x0, 1, 0x0, true, [fd 0 32 .ro 0]⟩ /- NHOP_PROT_SWITCH_CNT -/,
  ⟨0x194, 1, 0x0, 1, 0x0, true, [fd 0 32 .ro 0]⟩ /- NHOP_LIVE_CONFLICT_CNT -/,
  ⟨0x198, 1, 0x0, 1, 0x0, true, [fd 0 32 .ro 0]⟩ /- NHOP_ENCAP_ERR_CNT -/,
  ⟨0x400, 128, 0x4, 1, 0x0, false, [fd 0 32 .w1s 0xffffffff]⟩ /- NHOP_LIVE -/,
  ⟨0x600, 128, 0x4, 1, 0x0, false, [fd 0 32 .wo 0]⟩ /- NHOP_LIVE_CLR -/]
def rEXM : List RegDef := [
  ⟨0x100, 32, 0x10, 1, 0x0, false, [fd 31 1 .st 0, fa 28 3 .st 0 0 2, fd 27 1 .st 0, fa 25 2 .st 2 0 2, fa 23 2 .st 1 0 2, fd 16 7 .st 127, fd 15 1 .st 0]⟩ /- EXM_TBL_CFG -/,
  ⟨0x104, 32, 0x10, 1, 0x0, false, [fd 24 6 .st 0, fd 0 24 .st 0]⟩ /- EXM_TBL_PLACE -/,
  ⟨0x108, 32, 0x10, 1, 0x0, false, [fd 0 32 .st 0]⟩ /- EXM_TBL_SEED -/,
  ⟨0x10C, 32, 0x10, 1, 0x0, false, [fd 0 32 .st 0]⟩ /- EXM_TBL_DEEP_BASE -/,
  ⟨0x300, 32, 0x4, 1, 0x0, false, [fd 0 31 .ro 0]⟩ /- EXM_TBL_STAT -/,
  ⟨0x400, 1, 0x0, 1, 0x0, false, [fa 16 9 .rw 256 16 511, fa 0 4 .rw 4 1 8]⟩ /- EXM_CFG -/,
  ⟨0x480, 1, 0x0, 1, 0x0, true, [fd 0 32 .ro 0]⟩ /- EXM_MOVE_CNT -/,
  ⟨0x484, 1, 0x0, 1, 0x0, true, [fd 0 32 .ro 0]⟩ /- EXM_FULL_CNT -/,
  ⟨0x488, 1, 0x0, 1, 0x0, true, [fd 0 32 .ro 0]⟩ /- EXM_UNCORR_CNT -/,
  ⟨0x48C, 1, 0x0, 1, 0x0, true, [fd 0 32 .ro 0]⟩ /- EXM_DEEP_LATE_CNT -/]
def rLEARN_0 : List RegDef := [
  ⟨0x100, 1, 0x0, 1, 0x0, false, [fd 24 8 .rw 0, fd 17 6 .rw 63, fd 16 1 .rw 0, fd 12 3 .rw 3, fd 0 12 .rw 153]⟩ /- LEARN_CFG -/,
  ⟨0x104, 1, 0x0, 1, 0x0, false, [fd 31 1 .ro 0, fd 0 22 .ro 0]⟩ /- LEARN_STAT -/,
  ⟨0x140, 1, 0x0, 1, 0x0, false, [fd 0 32 .ro 0]⟩ /- LEARN_NOTE_W0 -/,
  ⟨0x144, 1, 0x0, 1, 0x0, false, [fd 0 32 .ro 0]⟩ /- LEARN_NOTE_W1 -/,
  ⟨0x148, 1, 0x0, 1, 0x0, false, [fd 0 32 .ro 0]⟩ /- LEARN_NOTE_W2 -/,
  ⟨0x14C, 1, 0x0, 1, 0x0, false, [fd 0 32 .ro 0]⟩ /- LEARN_NOTE_W3 -/,
  ⟨0x180, 1, 0x0, 1, 0x0, true, [fd 0 32 .ro 0]⟩ /- LEARN_NEW_CNT -/,
  ⟨0x184, 1, 0x0, 1, 0x0, true, [fd 0 32 .ro 0]⟩ /- LEARN_REFRESH_CNT -/,
  ⟨0x188, 1, 0x0, 1, 0x0, true, [fd 0 32 .ro 0]⟩ /- LEARN_MOVE_CNT -/,
  ⟨0x18C, 1, 0x0, 1, 0x0, true, [fd 0 32 .ro 0]⟩ /- LEARN_FLAP_CNT -/,
  ⟨0x190, 1, 0x0, 1, 0x0, true, [fd 0 32 .ro 0]⟩ /- LEARN_FREEZE_CNT -/,
  ⟨0x194, 1, 0x0, 1, 0x0, true, [fd 0 32 .ro 0]⟩ /- LEARN_FROZEN_HIT_CNT -/]
def rLEARN_1 : List RegDef := [
  ⟨0x198, 1, 0x0, 1, 0x0, true, [fd 0 32 .ro 0]⟩ /- LEARN_STATIC_CONFLICT_CNT -/,
  ⟨0x19C, 1, 0x0, 1, 0x0, true, [fd 0 32 .ro 0]⟩ /- LEARN_FULL_CNT -/,
  ⟨0x1A0, 1, 0x0, 1, 0x0, true, [fd 0 32 .ro 0]⟩ /- LEARN_QUEUE_DROP_CNT -/,
  ⟨0x1A4, 1, 0x0, 1, 0x0, true, [fd 0 32 .ro 0]⟩ /- LEARN_FILTERED_CNT -/,
  ⟨0x1A8, 1, 0x0, 1, 0x0, true, [fd 0 32 .ro 0]⟩ /- LEARN_NOTE_DROP_CNT -/,
  ⟨0x1AC, 1, 0x0, 1, 0x0, true, [fd 0 32 .ro 0]⟩ /- LEARN_BAD_TABLE_CNT -/,
  ⟨0x200, 64, 0x4, 1, 0x0, false, [fd 31 1 .st 0, fd 30 1 .st 0, fa 28 2 .st 0 0 2, fd 23 5 .st 0, fd 0 17 .st 0]⟩ /- LEARN_PORT_CFG -/]
def rLEARN : List RegDef := rLEARN_0 ++ rLEARN_1
def rAGE : List RegDef := [
  ⟨0x100, 1, 0x0, 1, 0x0, false, [fd 31 1 .rw 0, fa 0 8 .rw 250 1 255]⟩ /- AGE_CFG -/,
  ⟨0x104, 1, 0x0, 1, 0x0, false, [fa 0 32 .rw 0x11e1a3 1 4294967295]⟩ /- AGE_PASS -/,
  ⟨0x108, 1, 0x0, 1, 0x0, false, [fd 24 8 .ro 0, fd 18 5 .ro 0, fd 0 18 .ro 0]⟩ /- AGE_STAT -/,
  ⟨0x10C, 1, 0x0, 1, 0x0, true, [fd 0 32 .ro 0]⟩ /- AGE_PASS_CNT -/,
  ⟨0x180, 1, 0x0, 1, 0x0, true, [fd 0 32 .ro 0]⟩ /- AGE_OUT_CNT -/,
  ⟨0x184, 1, 0x0, 1, 0x0, true, [fd 0 32 .ro 0]⟩ /- AGE_PASS_LONG_CNT -/]
def rAPC_0 : List RegDef := [
  ⟨0x100, 1, 0x0, 1, 0x0, false, [fd 31 1 .rw 1, fd 30 1 .sc 0]⟩ /- APC_CTRL -/,
  ⟨0x104, 1, 0x0, 1, 0x0, false, [fd 0 13 .rw 0]⟩ /- APC_SUP_CFG -/,
  ⟨0x108, 1, 0x0, 1, 0x0, false, [fa 22 10 .rw 624 12 624, fd 0 3 .rw 3]⟩ /- APC_CFG -/,
  ⟨0x10C, 1, 0x0, 1, 0x0, false, [fd 0 16 .wo 0]⟩ /- APC_POKE -/,
  ⟨0x140, 16, 0x4, 1, 0x0, false, [fd 0 8 .st 0]⟩ /- APC_DISPATCH -/,
  ⟨0x180, 1, 0x0, 1, 0x0, false, [fd 0 8 .st 0]⟩ /- APC_EG_CFG -/,
  ⟨0x1C0, 1, 0x0, 1, 0x0, false, [fd 31 1 .sc 0, fa 28 3 .rw 0 1 5, fd 24 4 .rw 0, fd 20 4 .rw 0, fd 18 2 .rw 0, fd 9 1 .rw 0, fd 0 9 .rw 0]⟩ /- APC_DBG_CTRL -/,
  ⟨0x1C4, 1, 0x0, 1, 0x0, false, [fd 31 1 .rw 0, fa 0 16 .rw 1000 1 65535]⟩ /- APC_DBG_CFG -/,
  ⟨0x1C8, 1, 0x0, 1, 0x0, false, [fd 31 1 .ro 0, fd 28 3 .ro 0, fd 0 13 .ro 0]⟩ /- APC_DBG_STAT -/,
  ⟨0x1CC, 1, 0x0, 1, 0x0, false, [fd 0 32 .rw 0]⟩ /- APC_DBG_DATA_LO -/,
  ⟨0x1D0, 1, 0x0, 1, 0x0, false, [fd 0 32 .rw 0]⟩ /- APC_DBG_DATA_HI -/,
  ⟨0x200, 1, 0x0, 1, 0x0, false, [fd 0 32 .ro 0]⟩ /- APC_FAULT_CAP_LO -/]
def rAPC_1 : List RegDef := [
  ⟨0x204, 1, 0x0, 1, 0x0, false, [fd 0 32 .ro 0]⟩ /- APC_FAULT_CAP_HI -/,
  ⟨0x208, 1, 0x0, 1, 0x0, false, [fd 31 1 .ro 0, fd 30 1 .ro 0]⟩ /- APC_VER_STAT -/,
  ⟨0x210, 1, 0x0, 1, 0x0, true, [fd 0 32 .ro 0]⟩ /- APC_DISPATCH_CNT_LO -/,
  ⟨0x214, 1, 0x0, 1, 0x0, true, [fd 0 32 .ro 0]⟩ /- APC_DISPATCH_CNT_HI -/,
  ⟨0x218, 1, 0x0, 1, 0x0, true, [fd 0 32 .ro 0]⟩ /- APC_NOPROG_CNT -/,
  ⟨0x220, 1, 0x0, 1, 0x0, true, [fd 0 32 .ro 0]⟩ /- APC_AP_DROP_CNT -/,
  ⟨0x224, 1, 0x0, 1, 0x0, true, [fd 0 32 .ro 0]⟩ /- APC_PUNT_CNT -/,
  ⟨0x228, 1, 0x0, 1, 0x0, true, [fd 0 32 .ro 0]⟩ /- APC_FAULT_CNT -/,
  ⟨0x22C, 1, 0x0, 1, 0x0, true, [fd 0 32 .ro 0]⟩ /- APC_FAULT_DROP_CNT -/,
  ⟨0x230, 1, 0x0, 1, 0x0, true, [fd 0 32 .ro 0]⟩ /- APC_SUP_OVF_CNT -/,
  ⟨0x234, 1, 0x0, 1, 0x0, true, [fd 0 32 .ro 0]⟩ /- APC_ALLWAIT_CNT -/,
  ⟨0x238, 1, 0x0, 1, 0x0, true, [fd 0 32 .ro 0]⟩ /- APC_CHAN_REVOKE_CNT -/]
def rAPC_2 : List RegDef := [
  ⟨0x23C, 1, 0x0, 1, 0x0, true, [fd 0 32 .ro 0]⟩ /- APC_LOCK_BUSY_CNT -/,
  ⟨0x240, 1, 0x0, 1, 0x0, true, [fd 0 32 .ro 0]⟩ /- APC_CHAN_FULL_CNT -/,
  ⟨0x300, 64, 0x4, 1, 0x0, false, [fd 24 8 .ro 0, fd 0 1 .rw 0]⟩ /- APC_CHAN_CFG -/,
  ⟨0x400, 16, 0x40, 16, 0x4, false, [fd 29 3 .ro 0, fd 16 13 .ro 0, fd 12 4 .ro 0]⟩ /- APC_THREAD_STAT -/]
def rAPC : List RegDef := rAPC_0 ++ rAPC_1 ++ rAPC_2
def rADM_0 : List RegDef := [
  ⟨0x100, 1, 0x0, 1, 0x0, false, [fa 16 16 .rw 1 1 65535, fd 9 1 .st 1, fd 0 8 .st 0]⟩ /- ADM_CFG -/,
  ⟨0x104, 1, 0x0, 1, 0x0, false, [fd 0 19 .st 0x54000]⟩ /- ADM_LOSSY_MAX -/,
  ⟨0x108, 1, 0x0, 1, 0x0, false, [fd 0 19 .st 8192]⟩ /- ADM_RETURN_RSV -/,
  ⟨0x10C, 1, 0x0, 1, 0x0, false, [fd 0 24 .st 0xfac688]⟩ /- ADM_PFC_PRI -/,
  ⟨0x110, 1, 0x0, 1, 0x0, false, [fa 16 16 .rw 65535 1 65535, fa 0 16 .rw 10000 1000 65535]⟩ /- ADM_PFC_TIME -/,
  ⟨0x114, 1, 0x0, 1, 0x0, false, [fd 0 32 .rw 0]⟩ /- ADM_PFC_SA_LO -/,
  ⟨0x118, 1, 0x0, 1, 0x0, false, [fd 0 16 .rw 0]⟩ /- ADM_PFC_SA_HI -/,
  ⟨0x180, 1, 0x0, 1, 0x0, true, [fd 0 32 .ro 0]⟩ /- ADM_ADMIT_CNT_LO -/,
  ⟨0x184, 1, 0x0, 1, 0x0, true, [fd 0 32 .ro 0]⟩ /- ADM_ADMIT_CNT_HI -/,
  ⟨0x188, 1, 0x0, 1, 0x0, true, [fd 0 32 .ro 0]⟩ /- ADM_DROP_GLOBAL_CNT -/,
  ⟨0x18C, 1, 0x0, 1, 0x0, true, [fd 0 32 .ro 0]⟩ /- ADM_DROP_SRC_CNT -/,
  ⟨0x190, 1, 0x0, 1, 0x0, true, [fd 0 32 .ro 0]⟩ /- ADM_DROP_VOQ_CNT -/]
def rADM_1 : List RegDef := [
  ⟨0x194, 1, 0x0, 1, 0x0, true, [fd 0 32 .ro 0]⟩ /- ADM_DROP_WRED_CNT -/,
  ⟨0x198, 1, 0x0, 1, 0x0, true, [fd 0 32 .ro 0]⟩ /- ADM_DROP_ONDIE_CNT -/,
  ⟨0x19C, 1, 0x0, 1, 0x0, true, [fd 0 32 .ro 0]⟩ /- ADM_LL_DROP_CNT -/,
  ⟨0x1A0, 1, 0x0, 1, 0x0, true, [fd 0 32 .ro 0]⟩ /- ADM_BAD_TAIL_CNT -/,
  ⟨0x1A4, 1, 0x0, 1, 0x0, true, [fd 0 32 .ro 0]⟩ /- ADM_CT_CNT -/,
  ⟨0x1A8, 1, 0x0, 1, 0x0, true, [fd 0 32 .ro 0]⟩ /- ADM_PFC_XOFF_CNT -/]
def rADM : List RegDef := rADM_0 ++ rADM_1
def rBUF_0 : List RegDef := [
  ⟨0x100, 1, 0x0, 1, 0x0, false, [fa 8 4 .rw 4 1 15, fd 0 2 .st 1]⟩ /- BUF_CFG -/,
  ⟨0x104, 1, 0x0, 1, 0x0, false, [fd 0 26 .ro 0]⟩ /- BUF_PAGES_TOTAL -/,
  ⟨0x108, 1, 0x0, 1, 0x0, false, [fd 0 26 .ro 0]⟩ /- BUF_PAGES_FREE -/,
  ⟨0x10C, 1, 0x0, 1, 0x0, false, [fd 0 26 .rc 0]⟩ /- BUF_PAGES_LOW -/,
  ⟨0x180, 1, 0x0, 1, 0x0, true, [fd 0 32 .ro 0]⟩ /- BUF_SPILL_PAGE_CNT -/,
  ⟨0x184, 1, 0x0, 1, 0x0, true, [fd 0 32 .ro 0]⟩ /- BUF_PARTIAL_PAGE_CNT -/,
  ⟨0x188, 1, 0x0, 1, 0x0, true, [fd 0 32 .ro 0]⟩ /- BUF_RETURN_PAGE_CNT -/,
  ⟨0x18C, 1, 0x0, 1, 0x0, true, [fd 0 32 .ro 0]⟩ /- BUF_NOPAGE_CNT -/,
  ⟨0x190, 1, 0x0, 1, 0x0, true, [fd 0 32 .ro 0]⟩ /- BUF_RS_CORR_CNT -/,
  ⟨0x194, 1, 0x0, 1, 0x0, true, [fd 0 32 .ro 0]⟩ /- BUF_POISON_PAGE_CNT -/,
  ⟨0x198, 1, 0x0, 1, 0x0, true, [fd 0 32 .ro 0]⟩ /- BUF_PAGE_LOST_CNT -/,
  ⟨0x19C, 1, 0x0, 1, 0x0, true, [fd 0 32 .ro 0]⟩ /- BUF_STOMP_TX_CNT -/]
def rBUF_1 : List RegDef := [
  ⟨0x1A0, 1, 0x0, 1, 0x0, true, [fd 0 32 .ro 0]⟩ /- BUF_STOMP_RX_DISCARD_CNT -/,
  ⟨0x1A4, 1, 0x0, 1, 0x0, true, [fd 0 32 .ro 0]⟩ /- BUF_STOMP_RX_ABORT_CNT -/]
def rBUF : List RegDef := rBUF_0 ++ rBUF_1
def rPOL : List RegDef := [
  ⟨0x180, 1, 0x0, 1, 0x0, true, [fd 0 32 .ro 0]⟩ /- POL_GREEN_CNT_LO -/,
  ⟨0x184, 1, 0x0, 1, 0x0, true, [fd 0 32 .ro 0]⟩ /- POL_GREEN_CNT_HI -/,
  ⟨0x188, 1, 0x0, 1, 0x0, true, [fd 0 32 .ro 0]⟩ /- POL_YELLOW_CNT_LO -/,
  ⟨0x18C, 1, 0x0, 1, 0x0, true, [fd 0 32 .ro 0]⟩ /- POL_YELLOW_CNT_HI -/,
  ⟨0x190, 1, 0x0, 1, 0x0, true, [fd 0 32 .ro 0]⟩ /- POL_RED_CNT_LO -/,
  ⟨0x194, 1, 0x0, 1, 0x0, true, [fd 0 32 .ro 0]⟩ /- POL_RED_CNT_HI -/,
  ⟨0x198, 1, 0x0, 1, 0x0, true, [fd 0 32 .ro 0]⟩ /- POL_RED_DROP_CNT -/]
def rMIR : List RegDef := [
  ⟨0x100, 32, 0x10, 1, 0x0, false, [fd 31 1 .st 0, fd 30 1 .st 0, fd 27 3 .st 0, fd 0 17 .st 0]⟩ /- MIR_SESS_CFG -/,
  ⟨0x104, 32, 0x10, 1, 0x0, false, [fd 24 8 .st 0, fd 0 14 .st 0]⟩ /- MIR_SESS_TRUNC -/,
  ⟨0x108, 32, 0x10, 1, 0x0, false, [fd 0 23 .st 0]⟩ /- MIR_SESS_HINT -/,
  ⟨0x10C, 32, 0x10, 1, 0x0, false, [fd 31 1 .st 0, fd 0 19 .st 0]⟩ /- MIR_SESS_POL -/,
  ⟨0x300, 64, 0x4, 1, 0x0, false, [fd 24 5 .st 0, fd 0 24 .st 0]⟩ /- MIR_SAMPLE_CFG -/,
  ⟨0x400, 32, 0x4, 1, 0x0, true, [fd 0 32 .ro 0]⟩ /- MIR_COPY_CNT -/,
  ⟨0x480, 1, 0x0, 1, 0x0, true, [fd 0 32 .ro 0]⟩ /- MIR_ENGINE_DROP_CNT -/]
def rEQS : List RegDef := [
  ⟨0x100, 1, 0x0, 1, 0x0, false, [fd 0 18 .ro 0]⟩ /- EQS_POOL_STAT -/,
  ⟨0x104, 1, 0x0, 1, 0x0, false, [fd 0 18 .ro 0]⟩ /- EQS_POOL_GRANTED -/,
  ⟨0x108, 1, 0x0, 1, 0x0, false, [fd 0 18 .rc 0]⟩ /- EQS_POOL_PEAK -/,
  ⟨0x10C, 1, 0x0, 1, 0x0, false, [fd 0 15 .rw 0]⟩ /- EQS_SUB_SEL -/,
  ⟨0x110, 1, 0x0, 1, 0x0, false, [fd 31 1 .ro 0, fd 30 1 .ro 0]⟩ /- EQS_SUB_STAT -/,
  ⟨0x180, 1, 0x0, 1, 0x0, true, [fd 0 32 .ro 0]⟩ /- EQS_DEQ_CNT_LO -/,
  ⟨0x184, 1, 0x0, 1, 0x0, true, [fd 0 32 .ro 0]⟩ /- EQS_DEQ_CNT_HI -/,
  ⟨0x188, 1, 0x0, 1, 0x0, true, [fd 0 32 .ro 0]⟩ /- EQS_UNDERRUN_CNT -/,
  ⟨0x18C, 1, 0x0, 1, 0x0, true, [fd 0 32 .ro 0]⟩ /- EQS_CT_CNT -/,
  ⟨0x200, 64, 0x4, 1, 0x0, false, [fd 31 1 .rw 0, fa 24 7 .rw 4 1 64, fa 0 12 .rw 1024 1 4095]⟩ /- EQS_PORT_CFG -/,
  ⟨0x300, 64, 0x4, 1, 0x0, false, [fd 24 8 .ro 0, fd 0 12 .ro 0]⟩ /- EQS_PORT_STAT -/]
def rSHP : List RegDef := [
  ⟨0x100, 4, 0x4, 1, 0x0, false, [fd 24 8 .rw 0, fd 16 8 .rw 0, fd 8 8 .rw 0, fd 0 8 .rw 0]⟩ /- SHP_ADJ -/,
  ⟨0x110, 1, 0x0, 1, 0x0, false, [fd 0 19 .ro 0]⟩ /- SHP_WHEEL_STAT -/,
  ⟨0x180, 1, 0x0, 1, 0x0, true, [fd 0 32 .ro 0]⟩ /- SHP_WHEEL_LATE_CNT -/]
def rGATE : List RegDef := [
  ⟨0x100, 1, 0x0, 1, 0x0, false, [fa 0 12 .rw 800 600 4095]⟩ /- GATE_CFG -/,
  ⟨0x200, 64, 0x10, 1, 0x0, false, [fd 31 1 .st 0, fd 30 1 .st 0, fd 16 8 .st 20, fd 0 9 .st 0]⟩ /- GATE_PORT_CFG -/,
  ⟨0x204, 64, 0x10, 1, 0x0, false, [fd 0 32 .st 0]⟩ /- GATE_CYCLE -/,
  ⟨0x208, 64, 0x10, 1, 0x0, false, [fa 0 30 .st 0 0 999999999]⟩ /- GATE_BASE_NS -/,
  ⟨0x20C, 64, 0x10, 1, 0x0, false, [fd 0 32 .st 0]⟩ /- GATE_BASE_SEC -/,
  ⟨0x600, 64, 0x4, 1, 0x0, false, [fd 31 1 .ro 0, fd 30 1 .ro 0, fd 0 8 .ro 0]⟩ /- GATE_PORT_STAT -/,
  ⟨0x700, 1, 0x0, 1, 0x0, true, [fd 0 32 .ro 0]⟩ /- GATE_HOLD_CNT -/,
  ⟨0x704, 1, 0x0, 1, 0x0, true, [fd 0 32 .ro 0]⟩ /- GATE_OVERSIZE_CNT -/,
  ⟨0x708, 1, 0x0, 1, 0x0, true, [fd 0 32 .ro 0]⟩ /- GATE_LATE_CNT -/]
def rLAT : List RegDef := [
  ⟨0x100, 1, 0x0, 1, 0x0, false, [fd 31 1 .rw 0, fa 16 9 .rw 256 1 256, fa 0 11 .rw 0 0 1024]⟩ /- LAT_CFG -/]
def rFSER : List RegDef := [
  ⟨0x100, 8, 0x20, 1, 0x0, false, [fd 31 1 .rw 0, fa 16 4 .rw 1 1 5, fd 3 1 .rw 1, fd 2 1 .rw 0, fd 1 1 .rw 0]⟩ /- FSER_LANE_CFG -/,
  ⟨0x104, 8, 0x20, 1, 0x0, false, [fd 31 1 .ro 0, fd 30 1 .ro 0, fd 29 1 .ro 0, fd 24 2 .ro 0]⟩ /- FSER_LANE_STAT -/,
  ⟨0x108, 8, 0x20, 1, 0x0, true, [fd 0 32 .ro 0]⟩ /- FSER_FEC_CORR_CNT -/,
  ⟨0x10C, 8, 0x20, 1, 0x0, true, [fd 0 32 .ro 0]⟩ /- FSER_FEC_UNCORR_CNT -/,
  ⟨0x110, 8, 0x20, 1, 0x0, true, [fd 0 32 .ro 0]⟩ /- FSER_FEC_SYM_ERR_CNT -/,
  ⟨0x114, 8, 0x20, 1, 0x0, true, [fd 0 32 .ro 0]⟩ /- FSER_PAD_SLIP_CNT -/,
  ⟨0x118, 8, 0x20, 1, 0x0, true, [fd 0 32 .ro 0]⟩ /- FSER_DATA_SLIP_CNT -/,
  ⟨0x400, 1, 0x0, 1, 0x0, false, [fa 16 16 .rw 500 1 65535, fa 0 16 .rw 100 1 65535]⟩ /- FSER_GRP_CFG -/,
  ⟨0x404, 1, 0x0, 1, 0x0, false, [fd 0 32 .ro 0]⟩ /- FSER_FW_VER -/]
def rFFRM : List RegDef := [
  ⟨0x100, 1, 0x0, 1, 0x0, false, [fd 31 1 .rw 0, fd 30 1 .rw 1, fa 16 8 .rw 64 1 255]⟩ /- FFRM_CFG -/,
  ⟨0x104, 1, 0x0, 1, 0x0, false, [fa 16 16 .rw 64 1 65535, fd 4 1 .rw 0, fa 0 4 .rw 4 1 15]⟩ /- FFRM_DEG_CFG -/,
  ⟨0x108, 1, 0x0, 1, 0x0, true, [fd 0 32 .ro 0]⟩ /- FFRM_FN_JUMP_CNT -/,
  ⟨0x110, 3, 0x4, 1, 0x0, false, [fd 0 32 .w1c 0]⟩ /- FFRM_CHG -/,
  ⟨0x200, 96, 0x4, 1, 0x0, false, [fd 31 1 .rw 0, fd 30 1 .rw 1, fd 16 11 .rw 0, fd 0 7 .rw 0]⟩ /- FFRM_EXPECT -/,
  ⟨0x380, 96, 0x4, 1, 0x0, false, [fd 31 1 .ro 0, fd 28 3 .ro 0, fd 27 1 .ro 1, fd 26 1 .ro 1, fd 25 1 .ro 1, fd 24 1 .ro 1, fd 23 1 .ro 0, fd 22 1 .ro 0, fd 21 1 .ro 0, fd 20 1 .ro 0, fd 19 1 .ro 0, fd 8 11 .ro 0, fd 0 7 .ro 0]⟩ /- FFRM_LANE_STAT -/,
  ⟨0x500, 96, 0x4, 1, 0x0, true, [fd 0 32 .ro 0]⟩ /- FFRM_CELL_ERR_CNT -/,
  ⟨0x680, 96, 0x4, 1, 0x0, true, [fd 0 32 .ro 0]⟩ /- FFRM_HDR_ERR_CNT -/]
def rFCELL_0 : List RegDef := [
  ⟨0x100, 1, 0x0, 1, 0x0, false, [fd 31 1 .rw 0, fd 16 11 .rw 0, fa 4 4 .rw 4 1 15]⟩ /- FCELL_CFG -/,
  ⟨0x104, 1, 0x0, 1, 0x0, false, [fd 0 1 .st 0]⟩ /- FCELL_CAL -/,
  ⟨0x108, 1, 0x0, 1, 0x0, false, [fd 31 1 .ro 0, fd 0 16 .ro 0]⟩ /- FCELL_STAT -/,
  ⟨0x180, 1, 0x0, 1, 0x0, true, [fd 0 32 .ro 0]⟩ /- FCELL_TX_CELL_CNT_LO -/,
  ⟨0x184, 1, 0x0, 1, 0x0, true, [fd 0 32 .ro 0]⟩ /- FCELL_TX_CELL_CNT_HI -/,
  ⟨0x188, 1, 0x0, 1, 0x0, true, [fd 0 32 .ro 0]⟩ /- FCELL_RX_CELL_CNT_LO -/,
  ⟨0x18C, 1, 0x0, 1, 0x0, true, [fd 0 32 .ro 0]⟩ /- FCELL_RX_CELL_CNT_HI -/,
  ⟨0x190, 1, 0x0, 1, 0x0, true, [fd 0 32 .ro 0]⟩ /- FCELL_CELL_ERR_CNT -/,
  ⟨0x194, 1, 0x0, 1, 0x0, true, [fd 0 32 .ro 0]⟩ /- FCELL_MISROUTE_CNT -/,
  ⟨0x198, 1, 0x0, 1, 0x0, true, [fd 0 32 .ro 0]⟩ /- FCELL_PORT_ERR_CNT -/,
  ⟨0x19C, 1, 0x0, 1, 0x0, true, [fd 0 32 .ro 0]⟩ /- FCELL_CIRC_ERR_CNT -/,
  ⟨0x1A0, 1, 0x0, 1, 0x0, true, [fd 0 32 .ro 0]⟩ /- FCELL_REORDER_LATE_CNT -/]
def rFCELL_1 : List RegDef := [
  ⟨0x1A4, 1, 0x0, 1, 0x0, true, [fd 0 32 .ro 0]⟩ /- FCELL_REORDER_SKIP_CNT -/,
  ⟨0x1A8, 1, 0x0, 1, 0x0, true, [fd 0 32 .ro 0]⟩ /- FCELL_LOSS_DROP_CNT -/,
  ⟨0x200, 64, 0x4, 1, 0x0, false, [fd 0 32 .ro 0]⟩ /- FCELL_UNREACH -/]
def rFCELL : List RegDef := rFCELL_0 ++ rFCELL_1
def rFCRD_0 : List RegDef := [
  ⟨0x100, 1, 0x0, 1, 0x0, false, [fa 24 8 .st 72 69 255, fa 20 4 .st 12 1 15, fa 16 2 .st 2 1 3, fa 0 8 .st 24 1 255]⟩ /- FCRD_CFG -/,
  ⟨0x104, 1, 0x0, 1, 0x0, false, [fd 0 1 .rw 0]⟩ /- FCRD_CTRL -/,
  ⟨0x108, 1, 0x0, 1, 0x0, false, [fd 31 1 .ro 0, fd 0 17 .ro 0]⟩ /- FCRD_STAT -/,
  ⟨0x10C, 1, 0x0, 1, 0x0, false, [fd 0 19 .ro 0]⟩ /- FCRD_REQ_STORED -/,
  ⟨0x110, 1, 0x0, 1, 0x0, false, [fd 0 17 .ro 0]⟩ /- FCRD_GRANTS_HELD -/,
  ⟨0x180, 1, 0x0, 1, 0x0, true, [fd 0 32 .ro 0]⟩ /- FCRD_REQ_TX_CNT -/,
  ⟨0x184, 1, 0x0, 1, 0x0, true, [fd 0 32 .ro 0]⟩ /- FCRD_GRANT_TX_CNT -/,
  ⟨0x188, 1, 0x0, 1, 0x0, true, [fd 0 32 .ro 0]⟩ /- FCRD_REISSUE_CNT -/,
  ⟨0x18C, 1, 0x0, 1, 0x0, true, [fd 0 32 .ro 0]⟩ /- FCRD_REQ_REFUSED_CNT -/,
  ⟨0x190, 1, 0x0, 1, 0x0, true, [fd 0 32 .ro 0]⟩ /- FCRD_REQ_DROP_CNT -/,
  ⟨0x194, 1, 0x0, 1, 0x0, true, [fd 0 32 .ro 0]⟩ /- FCRD_REQ_AGED_CNT -/,
  ⟨0x198, 1, 0x0, 1, 0x0, true, [fd 0 32 .ro 0]⟩ /- FCRD_GRANT_EXPIRED_CNT -/]
def rFCRD_1 : List RegDef := [
  ⟨0x19C, 1, 0x0, 1, 0x0, true, [fd 0 32 .ro 0]⟩ /- FCRD_UNITS_EXPIRED_CNT -/,
  ⟨0x1A0, 1, 0x0, 1, 0x0, true, [fd 0 32 .ro 0]⟩ /- FCRD_UNSOLICITED_CNT -/,
  ⟨0x1A4, 1, 0x0, 1, 0x0, true, [fd 0 32 .ro 0]⟩ /- FCRD_HOLD_FULL_CNT -/,
  ⟨0x1A8, 1, 0x0, 1, 0x0, true, [fd 0 32 .ro 0]⟩ /- FCRD_LATE_PKT_CNT -/,
  ⟨0x1AC, 1, 0x0, 1, 0x0, true, [fd 0 32 .ro 0]⟩ /- FCRD_LATE_DROP_CNT -/,
  ⟨0x1B0, 1, 0x0, 1, 0x0, true, [fd 0 32 .ro 0]⟩ /- FCRD_MSG_ERR_CNT -/,
  ⟨0x200, 64, 0x4, 1, 0x0, false, [fd 0 32 .ro 0]⟩ /- FCRD_WD -/]
def rFCRD : List RegDef := rFCRD_0 ++ rFCRD_1
def rFPM : List RegDef := [
  ⟨0x100, 1, 0x0, 1, 0x0, false, [fa 16 16 .rw 1000 1 65535]⟩ /- FPM_CFG -/,
  ⟨0x104, 3, 0x4, 1, 0x0, false, [fd 0 32 .rw 0xffffffff]⟩ /- FPM_LANE_EN -/]
def rHBMC_0 : List RegDef := [
  ⟨0x100, 1, 0x0, 1, 0x0, false, [fd 31 1 .rw 1, fd 30 1 .rw 0, fd 16 8 .rw 100, fa 0 16 .rw 100 1 65535]⟩ /- HBMC_CFG -/,
  ⟨0x104, 1, 0x0, 1, 0x0, false, [fa 21 11 .rw 600 100 2047, fa 8 13 .rw 7800 1000 8191, fd 4 4 .rw 2, fd 3 1 .rw 1]⟩ /- HBMC_REF_CFG -/,
  ⟨0x108, 1, 0x0, 1, 0x0, false, [fd 24 8 .rw 95, fd 16 8 .rw 85, fd 0 8 .ro 0]⟩ /- HBMC_TEMP -/,
  ⟨0x10C, 1, 0x0, 1, 0x0, false, [fd 31 1 .ro 0, fd 30 1 .ro 0, fd 29 1 .ro 0, fd 28 1 .ro 0, fd 16 3 .ro 0, fd 0 7 .ro 0]⟩ /- HBMC_STAT -/,
  ⟨0x110, 1, 0x0, 1, 0x0, false, [fd 24 6 .rw 55, fd 16 6 .rw 39, fd 8 6 .rw 23, fd 0 6 .rw 7]⟩ /- HBMC_SPARE -/,
  ⟨0x114, 1, 0x0, 1, 0x0, false, [fa 0 10 .rw 256 16 1023]⟩ /- HBMC_CFG2 -/,
  ⟨0x180, 1, 0x0, 1, 0x0, true, [fd 0 32 .ro 0]⟩ /- HBMC_REF_POSTPONE_CNT -/,
  ⟨0x184, 1, 0x0, 1, 0x0, true, [fd 0 32 .ro 0]⟩ /- HBMC_GEYSER_CNT -/,
  ⟨0x188, 1, 0x0, 1, 0x0, true, [fd 0 32 .ro 0]⟩ /- HBMC_GEYSER_FORCED_CNT -/,
  ⟨0x18C, 1, 0x0, 1, 0x0, true, [fd 0 32 .ro 0]⟩ /- HBMC_WR_HOLD_CNT -/,
  ⟨0x190, 1, 0x0, 1, 0x0, true, [fd 0 32 .ro 0]⟩ /- HBMC_TRAIN_FAIL_CNT -/,
  ⟨0x194, 1, 0x0, 1, 0x0, true, [fd 0 32 .ro 0]⟩ /- HBMC_PPR_CNT -/]
def rHBMC_1 : List RegDef := [
  ⟨0x198, 1, 0x0, 1, 0x0, true, [fd 0 32 .ro 0]⟩ /- HBMC_SR_ENTRY_CNT -/,
  ⟨0x19C, 1, 0x0, 1, 0x0, true, [fd 0 32 .ro 0]⟩ /- HBMC_SR_LATE_CNT -/,
  ⟨0x1A0, 1, 0x0, 1, 0x0, true, [fd 0 32 .ro 0]⟩ /- HBMC_FLOW_LOST_CNT -/]
def rHBMC : List RegDef := rHBMC_0 ++ rHBMC_1
def rHBM_RAS : List RegDef := [
  ⟨0x100, 1, 0x0, 1, 0x0, false, [fa 0 11 .st 1024 0 1024]⟩ /- HBM_REGION -/,
  ⟨0x104, 1, 0x0, 1, 0x0, false, [fd 31 1 .rw 1, fd 30 1 .rw 1, fa 8 8 .rw 16 1 255, fa 0 8 .rw 64 8 255]⟩ /- HBM_RAS_POLICY -/,
  ⟨0x108, 1, 0x0, 1, 0x0, false, [fd 31 1 .wo 0, fd 30 1 .wo 0, fd 28 2 .wo 0, fd 8 6 .wo 0, fd 6 1 .wo 0, fd 0 6 .wo 0]⟩ /- HBM_MIG_CMD -/,
  ⟨0x110, 4, 0x4, 1, 0x0, false, [fd 31 1 .ro 0, fd 28 3 .ro 0, fd 24 4 .ro 0, fd 0 20 .ro 0]⟩ /- HBM_MIG_STAT -/,
  ⟨0x120, 4, 0x4, 1, 0x0, false, [fd 8 6 .ro 0, fd 0 6 .ro 0]⟩ /- HBM_MIG_RANKS -/,
  ⟨0x130, 1, 0x0, 1, 0x0, false, [fd 0 4 .ro 0]⟩ /- HBM_RETIRE_REQ -/,
  ⟨0x180, 1, 0x0, 1, 0x0, true, [fd 0 32 .ro 0]⟩ /- HBM_RETIRE_CNT -/,
  ⟨0x184, 1, 0x0, 1, 0x0, true, [fd 0 32 .ro 0]⟩ /- HBM_MIG_POISON_CNT -/,
  ⟨0x188, 1, 0x0, 1, 0x0, true, [fd 0 32 .ro 0]⟩ /- HBM_PPR_FAIL_CNT -/]
def rSCRUB : List RegDef := [
  ⟨0x100, 1, 0x0, 1, 0x0, false, [fd 31 1 .rw 1]⟩ /- SCRUB_CTRL -/,
  ⟨0x140, 16, 0x4, 1, 0x0, false, [fd 31 1 .rw 1, fa 0 24 .rw 100 1 16777215]⟩ /- SCRUB_CLASS_CFG -/,
  ⟨0x1C0, 16, 0x4, 1, 0x0, false, [fd 31 1 .ro 0, fd 16 15 .ro 0, fd 0 16 .ro 0]⟩ /- SCRUB_CLASS_STAT -/,
  ⟨0x300, 1, 0x0, 1, 0x0, false, [fd 31 1 .ro 0, fd 26 4 .ro 0, fd 18 8 .ro 0]⟩ /- SCRUB_RW_W0 -/,
  ⟨0x304, 1, 0x0, 1, 0x0, false, [fd 0 32 .ro 0]⟩ /- SCRUB_RW_W1 -/,
  ⟨0x400, 16, 0x10, 1, 0x0, true, [fd 0 32 .ro 0]⟩ /- SCRUB_CE_CNT -/,
  ⟨0x404, 16, 0x10, 1, 0x0, true, [fd 0 32 .ro 0]⟩ /- SCRUB_UE_CNT -/,
  ⟨0x408, 16, 0x10, 1, 0x0, true, [fd 0 32 .ro 0]⟩ /- SCRUB_HARD_CNT -/,
  ⟨0x40C, 16, 0x10, 1, 0x0, true, [fd 0 32 .ro 0]⟩ /- SCRUB_WB_SKIP_CNT -/,
  ⟨0x500, 1, 0x0, 1, 0x0, true, [fd 0 32 .ro 0]⟩ /- SCRUB_SKIP_CNT -/,
  ⟨0x504, 1, 0x0, 1, 0x0, true, [fd 0 32 .ro 0]⟩ /- SCRUB_RW_DROP_CNT -/,
  ⟨0x508, 1, 0x0, 1, 0x0, true, [fd 0 32 .ro 0]⟩ /- SCRUB_HIST_EVICT_CNT -/]
def rRAS_F : List RegDef := [
  ⟨0x100, 8, 0x4, 1, 0x0, false, [fd 0 32 .ro 0]⟩ /- RAS_CE_PEND -/,
  ⟨0x120, 8, 0x4, 1, 0x0, false, [fd 0 32 .ro 0]⟩ /- RAS_UE_PEND -/,
  ⟨0x140, 1, 0x0, 1, 0x0, false, [fa 0 16 .rw 1000 1 65535]⟩ /- RAS_CE_THR -/,
  ⟨0x144, 1, 0x0, 1, 0x0, false, [fd 0 16 .ro 0]⟩ /- RAS_STORM -/,
  ⟨0x180, 16, 0x10, 1, 0x0, true, [fd 0 32 .ro 0]⟩ /- RAS_CE_CNT -/,
  ⟨0x184, 16, 0x10, 1, 0x0, true, [fd 0 32 .ro 0]⟩ /- RAS_UE_CNT -/,
  ⟨0x188, 16, 0x10, 1, 0x0, true, [fd 0 32 .ro 0]⟩ /- RAS_POISON_READ_CNT -/,
  ⟨0x18C, 16, 0x10, 1, 0x0, true, [fd 0 32 .ro 0]⟩ /- RAS_RMW_POISON_CNT -/,
  ⟨0x300, 1, 0x0, 1, 0x0, true, [fd 0 32 .ro 0]⟩ /- RAS_TW_DISAGREE_CNT -/,
  ⟨0x304, 1, 0x0, 1, 0x0, true, [fd 0 32 .ro 0]⟩ /- RAS_REPAIR_FULL_CNT -/,
  ⟨0x308, 1, 0x0, 1, 0x0, false, [fd 0 11 .ro 0]⟩ /- RAS_REPAIR_USED -/]
def rRAS_T_0 : List RegDef := [
  ⟨0x100, 8, 0x4, 1, 0x0, false, [fd 0 32 .ro 0]⟩ /- RAS_CE_PEND -/,
  ⟨0x120, 8, 0x4, 1, 0x0, false, [fd 0 32 .ro 0]⟩ /- RAS_UE_PEND -/,
  ⟨0x140, 1, 0x0, 1, 0x0, false, [fa 0 16 .rw 1000 1 65535]⟩ /- RAS_CE_THR -/,
  ⟨0x144, 1, 0x0, 1, 0x0, false, [fd 0 16 .ro 0]⟩ /- RAS_STORM -/,
  ⟨0x180, 16, 0x10, 1, 0x0, true, [fd 0 32 .ro 0]⟩ /- RAS_CE_CNT -/,
  ⟨0x184, 16, 0x10, 1, 0x0, true, [fd 0 32 .ro 0]⟩ /- RAS_UE_CNT -/,
  ⟨0x188, 16, 0x10, 1, 0x0, true, [fd 0 32 .ro 0]⟩ /- RAS_POISON_READ_CNT -/,
  ⟨0x18C, 16, 0x10, 1, 0x0, true, [fd 0 32 .ro 0]⟩ /- RAS_RMW_POISON_CNT -/,
  ⟨0x300, 1, 0x0, 1, 0x0, true, [fd 0 32 .ro 0]⟩ /- RAS_TW_DISAGREE_CNT -/,
  ⟨0x304, 1, 0x0, 1, 0x0, true, [fd 0 32 .ro 0]⟩ /- RAS_REPAIR_FULL_CNT -/,
  ⟨0x308, 1, 0x0, 1, 0x0, false, [fd 0 11 .ro 0]⟩ /- RAS_REPAIR_USED -/,
  ⟨0x310, 1, 0x0, 1, 0x0, true, [fd 0 32 .ro 0]⟩ /- RAS_EPOOL_DROP_CNT -/]
def rRAS_T_1 : List RegDef := [
  ⟨0x314, 1, 0x0, 1, 0x0, true, [fd 0 32 .ro 0]⟩ /- RAS_EPOOL_ABORT_CNT -/,
  ⟨0x318, 1, 0x0, 1, 0x0, true, [fd 0 32 .ro 0]⟩ /- RAS_STATE_LOST_CNT -/,
  ⟨0x31C, 1, 0x0, 1, 0x0, true, [fd 0 32 .ro 0]⟩ /- RAS_FLOW_RESET_CNT -/]
def rRAS_T : List RegDef := rRAS_T_0 ++ rRAS_T_1
def rCNT_F : List RegDef := [
  ⟨0x100, 1, 0x0, 1, 0x0, false, [fd 31 1 .rw 0, fd 0 24 .rw 0]⟩ /- CNT_FREEZE -/,
  ⟨0x104, 1, 0x0, 1, 0x0, false, [fd 31 1 .ro 0]⟩ /- CNT_STAT -/,
  ⟨0x140, 1, 0x0, 1, 0x0, false, [fd 31 1 .rw 1, fa 0 17 .rw 0 0 86399]⟩ /- CNT_PM_CFG -/,
  ⟨0x144, 1, 0x0, 1, 0x0, false, [fd 20 10 .rw 0, fd 10 10 .rw 0, fd 0 10 .rw 0]⟩ /- CNT_PM_TCA -/,
  ⟨0x150, 3, 0x4, 1, 0x0, false, [fd 0 32 .w1c 0]⟩ /- CNT_TCA_STAT -/]
def rCNT_T_0 : List RegDef := [
  ⟨0x100, 1, 0x0, 1, 0x0, false, [fd 0 22 .st 0]⟩ /- PLUME_HBM_BASE -/,
  ⟨0x104, 1, 0x0, 1, 0x0, false, [fd 0 17 .st 0]⟩ /- PLUME_HBM_SIZE -/,
  ⟨0x108, 1, 0x0, 1, 0x0, false, [fd 0 32 .ro 0]⟩ /- PLUME_HBM_WP -/,
  ⟨0x10C, 1, 0x0, 1, 0x0, false, [fd 0 32 .ro 0]⟩ /- PLUME_LIST_GEN -/,
  ⟨0x110, 1, 0x0, 1, 0x0, false, [fd 31 1 .rw 1]⟩ /- PLUME_CFG -/,
  ⟨0x140, 1, 0x0, 1, 0x0, false, [fd 31 1 .rw 1, fa 0 17 .rw 0 0 86399]⟩ /- CNT_PM_CFG -/,
  ⟨0x144, 1, 0x0, 1, 0x0, false, [fd 20 10 .rw 0, fd 10 10 .rw 0, fd 0 10 .rw 0]⟩ /- CNT_PM_TCA -/,
  ⟨0x150, 3, 0x4, 1, 0x0, false, [fd 0 32 .w1c 0]⟩ /- CNT_TCA_STAT -/,
  ⟨0x200, 16, 0x10, 1, 0x0, false, [fd 31 1 .st 0, fd 30 1 .st 0, fd 24 6 .st 0, fa 0 24 .st 976563 1 16777215]⟩ /- PLUME_SET_CFG -/,
  ⟨0x204, 16, 0x10, 1, 0x0, false, [fd 16 11 .st 0, fd 0 11 .st 0]⟩ /- PLUME_SET_LIST -/,
  ⟨0x208, 16, 0x10, 1, 0x0, false, [fd 0 24 .st 0]⟩ /- PLUME_SET_PHASE -/,
  ⟨0x20C, 16, 0x10, 1, 0x0, false, [fd 31 1 .ro 0, fd 0 16 .ro 0]⟩ /- PLUME_SET_STAT -/]
def rCNT_T_1 : List RegDef := [
  ⟨0x400, 16, 0x4, 1, 0x0, true, [fd 0 32 .ro 0]⟩ /- PLUME_SKIP_CNT -/,
  ⟨0x440, 16, 0x4, 1, 0x0, true, [fd 0 32 .ro 0]⟩ /- PLUME_DROP_CNT -/,
  ⟨0x480, 1, 0x0, 1, 0x0, true, [fd 0 32 .ro 0]⟩ /- CNT_FLOW_DROP_CNT -/]
def rCNT_T : List RegDef := rCNT_T_0 ++ rCNT_T_1
def rSC0 : List RegDef := [
  ⟨0x100, 1, 0x0, 1, 0x0, false, [fd 31 1 .sc 0, fd 30 1 .sc 0, fd 29 1 .rw 0, fd 0 1 .rw 1]⟩ /- SC_CTRL -/,
  ⟨0x104, 1, 0x0, 1, 0x0, false, [fa 16 16 .rw 1024 1 65535, fa 0 8 .rw 3 1 255]⟩ /- SC_CFG -/,
  ⟨0x108, 1, 0x0, 1, 0x0, false, [fd 29 3 .ro 0, fd 26 3 .ro 0, fd 24 2 .ro 2, fd 20 4 .ro 0, fd 18 2 .ro 0, fd 16 2 .ro 0, fd 8 8 .ro 0, fd 1 1 .ro 0, fd 0 1 .ro 0]⟩ /- SC_STAT -/,
  ⟨0x10C, 1, 0x0, 1, 0x0, false, [fd 0 1 .wo 0]⟩ /- SC_HB_KICK -/,
  ⟨0x110, 1, 0x0, 1, 0x0, false, [fd 16 16 .ro 0, fd 13 3 .ro 0]⟩ /- SC_HB_RX -/,
  ⟨0x180, 1, 0x0, 1, 0x0, true, [fd 0 32 .ro 0]⟩ /- SC_TAKEOVER_CNT -/,
  ⟨0x184, 1, 0x0, 1, 0x0, true, [fd 0 32 .ro 0]⟩ /- SC_MISS_CNT -/,
  ⟨0x188, 1, 0x0, 1, 0x0, true, [fd 0 32 .ro 0]⟩ /- SC_FAULT_CNT -/,
  ⟨0x18C, 1, 0x0, 1, 0x0, true, [fd 0 32 .ro 0]⟩ /- SC_RESTART_CNT -/,
  ⟨0x190, 1, 0x0, 1, 0x0, true, [fd 0 32 .ro 0]⟩ /- SC_STANDBY_WR_CNT -/]
def rSC1 : List RegDef := [
  ⟨0x100, 1, 0x0, 1, 0x0, false, [fd 31 1 .sc 0, fd 30 1 .sc 0, fd 29 1 .rw 0, fd 0 1 .rw 1]⟩ /- SC_CTRL -/,
  ⟨0x104, 1, 0x0, 1, 0x0, false, [fa 16 16 .rw 1024 1 65535, fa 0 8 .rw 3 1 255]⟩ /- SC_CFG -/,
  ⟨0x108, 1, 0x0, 1, 0x0, false, [fd 29 3 .ro 0, fd 26 3 .ro 0, fd 24 2 .ro 2, fd 20 4 .ro 0, fd 18 2 .ro 0, fd 16 2 .ro 0, fd 8 8 .ro 0, fd 1 1 .ro 0, fd 0 1 .ro 0]⟩ /- SC_STAT -/,
  ⟨0x10C, 1, 0x0, 1, 0x0, false, [fd 0 1 .wo 0]⟩ /- SC_HB_KICK -/,
  ⟨0x110, 1, 0x0, 1, 0x0, false, [fd 16 16 .ro 0, fd 13 3 .ro 0]⟩ /- SC_HB_RX -/,
  ⟨0x114, 1, 0x0, 1, 0x0, false, [fd 0 1 .rw 0]⟩ /- SC_AUTO_POLICY -/,
  ⟨0x180, 1, 0x0, 1, 0x0, true, [fd 0 32 .ro 0]⟩ /- SC_TAKEOVER_CNT -/,
  ⟨0x184, 1, 0x0, 1, 0x0, true, [fd 0 32 .ro 0]⟩ /- SC_MISS_CNT -/,
  ⟨0x188, 1, 0x0, 1, 0x0, true, [fd 0 32 .ro 0]⟩ /- SC_FAULT_CNT -/,
  ⟨0x18C, 1, 0x0, 1, 0x0, true, [fd 0 32 .ro 0]⟩ /- SC_RESTART_CNT -/,
  ⟨0x190, 1, 0x0, 1, 0x0, true, [fd 0 32 .ro 0]⟩ /- SC_STANDBY_WR_CNT -/]
def rUPD_0 : List RegDef := [
  ⟨0x100, 1, 0x0, 1, 0x0, false, [fd 1 1 .wo 0, fd 0 1 .wo 0]⟩ /- UPD_LOCK -/,
  ⟨0x104, 1, 0x0, 1, 0x0, false, [fd 31 1 .ro 0, fd 30 1 .ro 0, fd 8 8 .ro 0, fd 0 8 .ro 0]⟩ /- UPD_LOCK_STAT -/,
  ⟨0x108, 1, 0x0, 1, 0x0, false, [fd 28 4 .wo 0, fd 24 1 .wo 0, fd 0 6 .wo 0]⟩ /- UPD_CMD -/,
  ⟨0x10C, 1, 0x0, 1, 0x0, false, [fd 31 1 .ro 0, fd 28 3 .ro 0, fd 24 4 .ro 0, fd 22 2 .ro 0, fd 16 6 .ro 0, fd 0 8 .ro 0]⟩ /- UPD_STAT -/,
  ⟨0x110, 1, 0x0, 1, 0x0, false, [fd 0 32 .ro 0]⟩ /- UPD_SEQ_LO -/,
  ⟨0x114, 1, 0x0, 1, 0x0, false, [fd 0 32 .ro 0]⟩ /- UPD_SEQ_HI -/,
  ⟨0x118, 1, 0x0, 1, 0x0, false, [fa 0 16 .rw 60 1 65535]⟩ /- UPD_CFG -/,
  ⟨0x148, 5, 0x8, 1, 0x0, false, [fd 0 32 .ro 0]⟩ /- UPD_ARB_LO -/,
  ⟨0x14C, 5, 0x8, 1, 0x0, false, [fd 0 32 .ro 0]⟩ /- UPD_ARB_HI -/,
  ⟨0x188, 5, 0x8, 1, 0x0, false, [fd 0 32 .rw 0]⟩ /- UPD_FLOOR_LO -/,
  ⟨0x18C, 5, 0x8, 1, 0x0, false, [fd 0 32 .rw 0]⟩ /- UPD_FLOOR_HI -/,
  ⟨0x200, 1, 0x0, 1, 0x0, true, [fd 0 32 .ro 0]⟩ /- UPD_REFUSE_CNT -/]
def rUPD_1 : List RegDef := [
  ⟨0x204, 1, 0x0, 1, 0x0, true, [fd 0 32 .ro 0]⟩ /- UPD_ACTIVATE_CNT -/,
  ⟨0x208, 1, 0x0, 1, 0x0, true, [fd 0 32 .ro 0]⟩ /- UPD_GOLDEN_CNT -/,
  ⟨0x20C, 1, 0x0, 1, 0x0, true, [fd 0 32 .ro 0]⟩ /- UPD_COLLISION_CNT -/]
def rUPD : List RegDef := rUPD_0 ++ rUPD_1
def rEMRAM : List RegDef := [
  ⟨0x100, 1, 0x0, 1, 0x0, false, [fd 31 1 .w1s 0, fd 30 1 .ro 0, fd 29 1 .ro 0]⟩ /- EMRAM_SEC -/,
  ⟨0x104, 1, 0x0, 1, 0x0, false, [fd 0 15 .ro 0]⟩ /- EMRAM_LOG_WP -/,
  ⟨0x108, 1, 0x0, 1, 0x0, false, [fd 0 32 .ro 0]⟩ /- EMRAM_LOG_SEQ -/,
  ⟨0x10C, 1, 0x0, 1, 0x0, false, [fa 0 10 .rw 1000 1 1000]⟩ /- EMRAM_LOG_CFG -/,
  ⟨0x110, 1, 0x0, 1, 0x0, false, [fd 0 16 .rw 0]⟩ /- EMRAM_LOG_POST0 -/,
  ⟨0x114, 1, 0x0, 1, 0x0, false, [fd 0 32 .rw 0]⟩ /- EMRAM_LOG_POST1 -/,
  ⟨0x118, 1, 0x0, 1, 0x0, false, [fd 0 16 .wo 0]⟩ /- EMRAM_LOG_POST2 -/,
  ⟨0x180, 1, 0x0, 1, 0x0, true, [fd 0 32 .ro 0]⟩ /- EMRAM_LOG_DROP_CNT -/,
  ⟨0x188, 1, 0x0, 1, 0x0, true, [fd 0 32 .ro 0]⟩ /- EMRAM_WRITE_CNT_LO -/,
  ⟨0x18C, 1, 0x0, 1, 0x0, true, [fd 0 32 .ro 0]⟩ /- EMRAM_WRITE_CNT_HI -/]
def rPCIE : List RegDef := [
  ⟨0x100, 1, 0x0, 1, 0x0, false, [fd 31 1 .ro 0, fd 30 1 .ro 0, fd 29 1 .ro 1, fd 4 4 .ro 0, fd 0 4 .ro 0]⟩ /- PCIE_STAT -/,
  ⟨0x180, 1, 0x0, 1, 0x0, true, [fd 0 32 .ro 0]⟩ /- PCIE_PARTIAL_WR_CNT -/,
  ⟨0x184, 1, 0x0, 1, 0x0, true, [fd 0 32 .ro 0]⟩ /- PCIE_USER_DENY_CNT -/,
  ⟨0x188, 1, 0x0, 1, 0x0, true, [fd 0 32 .ro 0]⟩ /- PCIE_USER_WR_CNT -/,
  ⟨0x18C, 1, 0x0, 1, 0x0, true, [fd 0 32 .ro 0]⟩ /- PCIE_FDIE_FAIL_CNT -/,
  ⟨0x190, 1, 0x0, 1, 0x0, true, [fd 0 32 .ro 0]⟩ /- PCIE_LINK_DOWN_CNT -/]
def rDMA : List RegDef := [
  ⟨0x100, 64, 0x10, 1, 0x0, false, [fd 31 1 .rw 0, fd 30 1 .rw 0, fd 29 1 .rw 0, fd 28 1 .ro 0, fa 24 4 .rw 6 6 15, fd 16 8 .ro 0, fd 8 8 .rw 0, fa 0 8 .rw 1 1 255]⟩ /- DMA_RING_CFG -/,
  ⟨0x104, 64, 0x10, 1, 0x0, false, [fd 6 26 .rw 0]⟩ /- DMA_RING_BASE_LO -/,
  ⟨0x108, 64, 0x10, 1, 0x0, false, [fd 0 32 .rw 0]⟩ /- DMA_RING_BASE_HI -/,
  ⟨0x10C, 64, 0x10, 1, 0x0, false, [fd 16 16 .ro 0, fd 0 16 .rw 0]⟩ /- DMA_RING_PTR -/,
  ⟨0x500, 1, 0x0, 1, 0x0, false, [fd 31 1 .rw 0, fd 0 6 .rw 0]⟩ /- DMA_NOTE_CFG -/,
  ⟨0x504, 1, 0x0, 1, 0x0, false, [fd 31 1 .rw 0, fd 0 6 .rw 0]⟩ /- DMA_RW_CFG -/,
  ⟨0x580, 1, 0x0, 1, 0x0, true, [fd 0 32 .ro 0]⟩ /- DMA_PUNT_NOMAP_CNT -/,
  ⟨0x584, 1, 0x0, 1, 0x0, true, [fd 0 32 .ro 0]⟩ /- DMA_PUNT_DOWN_CNT -/,
  ⟨0x588, 1, 0x0, 1, 0x0, true, [fd 0 32 .ro 0]⟩ /- DMA_INJ_CNT -/,
  ⟨0x58C, 1, 0x0, 1, 0x0, true, [fd 0 32 .ro 0]⟩ /- DMA_INJ_DROP_CNT -/,
  ⟨0x590, 1, 0x0, 1, 0x0, true, [fd 0 32 .ro 0]⟩ /- DMA_TX_ERR_CNT -/]
def rPWR_F : List RegDef := [
  ⟨0x100, 2, 0x4, 1, 0x0, false, [fd 0 32 .rw 0]⟩ /- PWR_DOM_REQ -/,
  ⟨0x108, 2, 0x4, 1, 0x0, false, [fd 0 32 .ro 0]⟩ /- PWR_DOM_STAT -/,
  ⟨0x110, 2, 0x4, 1, 0x0, false, [fd 0 32 .ro 0]⟩ /- PWR_DOM_PRESENT -/,
  ⟨0x134, 1, 0x0, 1, 0x0, false, [fd 0 8 .ro 0]⟩ /- PWR_RESET_CAUSE -/,
  ⟨0x140, 1, 0x0, 1, 0x0, false, [fa 24 8 .rw 100 60 115, fd 16 8 .ro 120, fd 8 8 .rc 0, fd 0 8 .ro 0]⟩ /- PWR_TEMP -/,
  ⟨0x180, 1, 0x0, 1, 0x0, true, [fd 0 32 .ro 0]⟩ /- PWR_REFUSE_CNT -/]
def rPWR_T : List RegDef := [
  ⟨0x100, 2, 0x4, 1, 0x0, false, [fd 0 32 .rw 0]⟩ /- PWR_DOM_REQ -/,
  ⟨0x108, 2, 0x4, 1, 0x0, false, [fd 0 32 .ro 0]⟩ /- PWR_DOM_STAT -/,
  ⟨0x110, 2, 0x4, 1, 0x0, false, [fd 0 32 .ro 0]⟩ /- PWR_DOM_PRESENT -/,
  ⟨0x120, 1, 0x0, 1, 0x0, false, [fd 31 1 .wo 0, fd 30 1 .wo 0, fd 28 2 .ro 0, fd 24 4 .ro 0, fa 0 2 .rw 1 0 2]⟩ /- PWR_STBY -/,
  ⟨0x130, 1, 0x0, 1, 0x0, false, [fd 24 8 .wo 0, fd 1 1 .wo 0, fd 0 1 .wo 0]⟩ /- PWR_RESET -/,
  ⟨0x134, 1, 0x0, 1, 0x0, false, [fd 0 8 .ro 0]⟩ /- PWR_RESET_CAUSE -/,
  ⟨0x140, 1, 0x0, 1, 0x0, false, [fa 24 8 .rw 100 60 115, fd 16 8 .ro 120, fd 8 8 .rc 0, fd 0 8 .ro 0]⟩ /- PWR_TEMP -/,
  ⟨0x150, 1, 0x0, 1, 0x0, false, [fd 0 8 .ro 0]⟩ /- PWR_STRAP -/,
  ⟨0x160, 8, 0x4, 1, 0x0, false, [fd 30 2 .rw 0, fd 29 1 .rw 0, fd 28 1 .ro 0, fd 26 2 .rw 0, fa 8 8 .rw 100 1 255, fd 0 8 .rw 10]⟩ /- PWR_GPIO_CFG -/,
  ⟨0x180, 1, 0x0, 1, 0x0, true, [fd 0 32 .ro 0]⟩ /- PWR_REFUSE_CNT -/,
  ⟨0x184, 1, 0x0, 1, 0x0, true, [fd 0 32 .ro 0]⟩ /- PWR_GPIO_RATE_CNT -/,
  ⟨0x188, 1, 0x0, 1, 0x0, true, [fd 0 32 .ro 0]⟩ /- PWR_WARM_IGNORED_CNT -/]
def rCLK : List RegDef := [
  ⟨0x100, 1, 0x0, 1, 0x0, false, [fd 31 1 .ro 0, fd 30 1 .ro 0, fd 29 1 .ro 0, fd 28 1 .ro 0, fd 27 1 .ro 0, fd 26 1 .ro 0, fd 0 8 .ro 0]⟩ /- CLK_STAT -/,
  ⟨0x104, 1, 0x0, 1, 0x0, false, [fd 0 1 .rw 1]⟩ /- CLK_CFG -/,
  ⟨0x180, 1, 0x0, 1, 0x0, true, [fd 0 32 .ro 0]⟩ /- CLK_REF_A_LOSS_CNT -/,
  ⟨0x184, 1, 0x0, 1, 0x0, true, [fd 0 32 .ro 0]⟩ /- CLK_REF_B_LOSS_CNT -/,
  ⟨0x188, 1, 0x0, 1, 0x0, true, [fd 0 32 .ro 0]⟩ /- CLK_REF_C_LOSS_CNT -/,
  ⟨0x18C, 1, 0x0, 1, 0x0, true, [fd 0 32 .ro 0]⟩ /- CLK_UNLOCK_CNT -/]
def rPTP_0 : List RegDef := [
  ⟨0x100, 1, 0x0, 1, 0x0, false, [fd 0 32 .ro 0]⟩ /- PTP_TOD_NS -/,
  ⟨0x104, 1, 0x0, 1, 0x0, false, [fd 0 32 .ro 0]⟩ /- PTP_TOD_SEC_LO -/,
  ⟨0x108, 1, 0x0, 1, 0x0, false, [fd 0 16 .ro 0]⟩ /- PTP_TOD_SEC_HI -/,
  ⟨0x10C, 1, 0x0, 1, 0x0, false, [fd 0 32 .rw 0x80000000]⟩ /- PTP_INCR -/,
  ⟨0x110, 1, 0x0, 1, 0x0, false, [fd 0 32 .wo 0]⟩ /- PTP_STEP -/,
  ⟨0x114, 1, 0x0, 1, 0x0, false, [fd 0 32 .rw 0]⟩ /- PTP_LOAD_NS -/,
  ⟨0x118, 1, 0x0, 1, 0x0, false, [fd 0 32 .rw 0]⟩ /- PTP_LOAD_SEC_LO -/,
  ⟨0x11C, 1, 0x0, 1, 0x0, false, [fd 0 32 .rw 0]⟩ /- PTP_LOAD_SEC_HI -/,
  ⟨0x120, 1, 0x0, 1, 0x0, false, [fd 0 1 .sc 0]⟩ /- PTP_LOAD_GO -/,
  ⟨0x124, 1, 0x0, 1, 0x0, false, [fa 0 16 .rw 100 1 65535]⟩ /- PTP_PPS_CFG -/,
  ⟨0x128, 3, 0x4, 1, 0x0, false, [fd 0 32 .ro 0]⟩ /- PTP_PPS_IN_TS -/,
  ⟨0x140, 1, 0x0, 1, 0x0, false, [fd 31 1 .ro 0, fd 16 6 .ro 0, fd 0 16 .ro 0]⟩ /- PTP_TXTS_W0 -/]
def rPTP_1 : List RegDef := [
  ⟨0x144, 1, 0x0, 1, 0x0, false, [fd 0 32 .ro 0]⟩ /- PTP_TXTS_W1 -/,
  ⟨0x148, 1, 0x0, 1, 0x0, false, [fd 0 32 .ro 0]⟩ /- PTP_TXTS_W2 -/,
  ⟨0x14C, 1, 0x0, 1, 0x0, false, [fd 0 16 .ro 0]⟩ /- PTP_TXTS_W3 -/,
  ⟨0x160, 2, 0x4, 1, 0x0, false, [fd 31 1 .rw 0, fd 30 1 .rw 0, fd 16 6 .rw 0, fa 8 8 .rw 10 1 255, fa 0 2 .rw 0 0 2]⟩ /- PTP_SYNCE_CFG -/,
  ⟨0x200, 64, 0x8, 1, 0x0, false, [fd 0 16 .rw 0]⟩ /- PTP_RX_CORR -/,
  ⟨0x204, 64, 0x8, 1, 0x0, false, [fd 0 16 .rw 0]⟩ /- PTP_TX_CORR -/,
  ⟨0x400, 1, 0x0, 1, 0x0, true, [fd 0 32 .ro 0]⟩ /- PTP_TXTS_DROP_CNT -/,
  ⟨0x404, 1, 0x0, 1, 0x0, true, [fd 0 32 .ro 0]⟩ /- PTP_CMD_ERR_CNT -/,
  ⟨0x408, 1, 0x0, 1, 0x0, true, [fd 0 32 .ro 0]⟩ /- PTP_PPS_IGNORED_CNT -/]
def rPTP : List RegDef := rPTP_0 ++ rPTP_1
def rVOQ : List RegDef := [
  ⟨0x100, 1, 0x0, 1, 0x0, false, [fd 0 21 .ro 0]⟩ /- VOQ_STAT -/,
  ⟨0x104, 1, 0x0, 1, 0x0, false, [fd 0 21 .ro 0]⟩ /- VOQ_SPILLED -/,
  ⟨0x180, 1, 0x0, 1, 0x0, true, [fd 0 32 .ro 0]⟩ /- VOQ_STALE_DROP_CNT -/,
  ⟨0x184, 1, 0x0, 1, 0x0, true, [fd 0 32 .ro 0]⟩ /- VOQ_POISON_DROP_CNT -/]
def rCALD : List RegDef := [
  ⟨0x100, 1, 0x0, 1, 0x0, false, [fd 0 19 .ro 0]⟩ /- CALD_STAT -/,
  ⟨0x104, 1, 0x0, 1, 0x0, false, [fd 0 19 .ro 0]⟩ /- CALD_LOSSY -/,
  ⟨0x108, 1, 0x0, 1, 0x0, false, [fd 0 19 .ro 0]⟩ /- CALD_LOSSLESS -/,
  ⟨0x10C, 1, 0x0, 1, 0x0, false, [fd 0 14 .ro 0]⟩ /- CALD_ARRIVAL -/,
  ⟨0x110, 1, 0x0, 1, 0x0, false, [fd 0 19 .rc 0]⟩ /- CALD_PEAK -/,
  ⟨0x114, 1, 0x0, 1, 0x0, false, [fd 0 4 .rw 15]⟩ /- CALD_PWR -/,
  ⟨0x180, 1, 0x0, 1, 0x0, true, [fd 0 32 .ro 0]⟩ /- CALD_UNCORR_CNT -/]
def rIRQ : List RegDef := [
  ⟨0x100, 20, 0x4, 1, 0x0, false, [fd 0 32 .ro 0]⟩ /- IRQ_SRC_PEND -/,
  ⟨0x180, 1, 0x0, 1, 0x0, false, [fd 8 1 .wo 0, fd 0 8 .wo 0]⟩ /- IRQ_REARM -/,
  ⟨0x1C0, 2, 0x4, 1, 0x0, true, [fd 0 32 .ro 0]⟩ /- IRQ_MSG_CNT -/]
def rDEV : List RegDef := [
  ⟨0x100, 1, 0x0, 1, 0x0, false, [fd 0 32 .ro 0]⟩ /- DEV_PART -/,
  ⟨0x104, 1, 0x0, 1, 0x0, false, [fd 0 32 .ro 0]⟩ /- DEV_PAGE_COUNT -/,
  ⟨0x108, 1, 0x0, 1, 0x0, false, [fd 0 32 .ro 0]⟩ /- DEV_UID_LO -/,
  ⟨0x10C, 1, 0x0, 1, 0x0, false, [fd 0 32 .ro 0]⟩ /- DEV_UID_HI -/,
  ⟨0x140, 8, 0x4, 1, 0x0, false, [fd 0 32 .ro 0]⟩ /- DEV_PAGE_PRESENT -/]
def rSBUF : List RegDef := [
  ⟨0x100, 1, 0x0, 1, 0x0, false, [fd 0 20 .ro 0]⟩ /- SBUF_USED -/,
  ⟨0x104, 1, 0x0, 1, 0x0, false, [fd 0 20 .rc 0]⟩ /- SBUF_PEAK -/,
  ⟨0x180, 1, 0x0, 1, 0x0, true, [fd 0 32 .ro 0]⟩ /- SBUF_UNCORR_CNT -/]
def rHSG : List RegDef := [
  ⟨0x100, 8, 0x4, 1, 0x0, false, [fd 0 7 .ro 0]⟩ /- HSG_CAM_USED -/,
  ⟨0x120, 8, 0x4, 1, 0x0, false, [fd 31 1 .ro 0, fd 0 5 .ro 0]⟩ /- HSG_TABLE -/,
  ⟨0x180, 1, 0x0, 1, 0x0, true, [fd 0 32 .ro 0]⟩ /- HSG_CE_CNT -/,
  ⟨0x184, 1, 0x0, 1, 0x0, true, [fd 0 32 .ro 0]⟩ /- HSG_UE_CNT -/]
def rD2DL : List RegDef := [
  ⟨0x100, 66, 0x4, 1, 0x0, false, [fd 0 16 .ro 0]⟩ /- D2DL_LANE_ERR -/,
  ⟨0x300, 66, 0x4, 1, 0x0, true, [fd 0 32 .ro 0]⟩ /- D2DL_LANE_TOT -/,
  ⟨0x500, 2, 0x4, 1, 0x0, true, [fd 0 32 .ro 0]⟩ /- D2DL_CRC_CNT -/,
  ⟨0x508, 2, 0x4, 1, 0x0, true, [fd 0 32 .ro 0]⟩ /- D2DL_REPLAY_CNT -/]
def rLRMON_0 : List RegDef := [
  ⟨0x100, 8, 0x40, 1, 0x0, true, [fd 0 32 .ro 0]⟩ /- LRMON_RX_64 -/,
  ⟨0x104, 8, 0x40, 1, 0x0, true, [fd 0 32 .ro 0]⟩ /- LRMON_RX_65_127 -/,
  ⟨0x108, 8, 0x40, 1, 0x0, true, [fd 0 32 .ro 0]⟩ /- LRMON_RX_128_255 -/,
  ⟨0x10C, 8, 0x40, 1, 0x0, true, [fd 0 32 .ro 0]⟩ /- LRMON_RX_256_511 -/,
  ⟨0x110, 8, 0x40, 1, 0x0, true, [fd 0 32 .ro 0]⟩ /- LRMON_RX_512_1023 -/,
  ⟨0x114, 8, 0x40, 1, 0x0, true, [fd 0 32 .ro 0]⟩ /- LRMON_RX_1024_1518 -/,
  ⟨0x118, 8, 0x40, 1, 0x0, true, [fd 0 32 .ro 0]⟩ /- LRMON_RX_1519_MAX -/,
  ⟨0x11C, 8, 0x40, 1, 0x0, true, [fd 0 32 .ro 0]⟩ /- LRMON_TX_64 -/,
  ⟨0x120, 8, 0x40, 1, 0x0, true, [fd 0 32 .ro 0]⟩ /- LRMON_TX_65_127 -/,
  ⟨0x124, 8, 0x40, 1, 0x0, true, [fd 0 32 .ro 0]⟩ /- LRMON_TX_128_255 -/,
  ⟨0x128, 8, 0x40, 1, 0x0, true, [fd 0 32 .ro 0]⟩ /- LRMON_TX_256_511 -/,
  ⟨0x12C, 8, 0x40, 1, 0x0, true, [fd 0 32 .ro 0]⟩ /- LRMON_TX_512_1023 -/]
def rLRMON_1 : List RegDef := [
  ⟨0x130, 8, 0x40, 1, 0x0, true, [fd 0 32 .ro 0]⟩ /- LRMON_TX_1024_1518 -/,
  ⟨0x134, 8, 0x40, 1, 0x0, true, [fd 0 32 .ro 0]⟩ /- LRMON_TX_1519_MAX -/]
def rLRMON : List RegDef := rLRMON_0 ++ rLRMON_1
def rCALDQ : List RegDef := [
  ⟨0x100, 1, 0x0, 1, 0x0, false, [fd 0 17 .ro 0]⟩ /- CALDQ_USED -/,
  ⟨0x180, 1, 0x0, 1, 0x0, true, [fd 0 32 .ro 0]⟩ /- CALDQ_UNCORR_CNT -/]
def rEPOOLQ : List RegDef := [
  ⟨0x100, 1, 0x0, 1, 0x0, false, [fd 0 17 .ro 0]⟩ /- EPQ_USED -/,
  ⟨0x180, 1, 0x0, 1, 0x0, true, [fd 0 32 .ro 0]⟩ /- EPQ_UNCORR_CNT -/]
def rEQL : List RegDef := [
  ⟨0x100, 1, 0x0, 1, 0x0, false, [fd 0 8 .ro 0]⟩ /- EQL_STAT -/,
  ⟨0x180, 1, 0x0, 1, 0x0, true, [fd 0 32 .ro 0]⟩ /- EQL_DEC_CNT_LO -/,
  ⟨0x184, 1, 0x0, 1, 0x0, true, [fd 0 32 .ro 0]⟩ /- EQL_DEC_CNT_HI -/,
  ⟨0x188, 1, 0x0, 1, 0x0, true, [fd 0 32 .ro 0]⟩ /- EQL_IDLE_CNT -/]
def rFCE : List RegDef := [
  ⟨0x100, 1, 0x0, 1, 0x0, false, [fd 31 1 .ro 0, fd 0 16 .ro 0]⟩ /- FCE_STAT -/,
  ⟨0x104, 1, 0x0, 1, 0x0, false, [fd 0 16 .rc 0]⟩ /- FCE_REORDER_PEAK -/,
  ⟨0x180, 1, 0x0, 1, 0x0, true, [fd 0 32 .ro 0]⟩ /- FCE_UNCORR_CNT -/]
def rHBMTR : List RegDef := [
  ⟨0x100, 32, 0x4, 1, 0x0, false, [fd 31 1 .ro 0, fd 16 8 .ro 0, fd 8 8 .ro 0, fd 0 3 .ro 0]⟩ /- HBMTR_CH -/,
  ⟨0x180, 1, 0x0, 1, 0x0, true, [fd 0 32 .ro 0]⟩ /- HBMTR_RETRAIN_CNT -/,
  ⟨0x300, 1, 0x0, 1, 0x0, false, [fd 0 32 .ro 0]⟩ /- HBMTR_LAST -/]
end Map

/-- Every page of R392. -/
def pageTableF : List PageDef := [
  ⟨0, 0x000, 1, false, false, true, Map.rDEV⟩ /- DEV -/,
  ⟨0, 0x001, 1, false, false, true, Map.rCMT⟩ /- CMT -/,
  ⟨0, 0x002, 1, false, false, true, Map.rTICK⟩ /- TICK -/,
  ⟨0, 0x010, 8, false, false, true, Map.rLPORT⟩ /- LPORT -/,
  ⟨0, 0x018, 8, false, false, true, Map.rLSER⟩ /- LSER -/,
  ⟨0, 0x020, 2, true, false, true, Map.rFLEXE⟩ /- FLEXE -/,
  ⟨0, 0x028, 1, false, false, true, Map.rPTP⟩ /- PTP -/,
  ⟨0, 0x030, 1, true, true, true, Map.rSTEER⟩ /- STEER -/,
  ⟨0, 0x038, 8, false, true, true, Map.rSBUF⟩ /- SBUF -/,
  ⟨0, 0x040, 9, false, true, true, Map.rSLICE⟩ /- ISLICE -/,
  ⟨0, 0x050, 9, false, true, true, Map.rSLICE⟩ /- ESLICE -/,
  ⟨0, 0x060, 18, true, true, true, Map.rAPC⟩ /- APC -/,
  ⟨0, 0x080, 1, true, true, true, Map.rPARSE⟩ /- PARSE -/,
  ⟨0, 0x081, 1, false, false, true, Map.rCLASS⟩ /- CLASS -/,
  ⟨0, 0x090, 8, true, true, true, Map.rTERR⟩ /- TERR -/,
  ⟨0, 0x098, 1, true, true, true, Map.rTERR_CTL⟩ /- TERR_CTL -/,
  ⟨0, 0x099, 1, true, true, true, Map.rACL⟩ /- ACL -/,
  ⟨0, 0x0A0, 1, true, true, true, Map.rEXM⟩ /- EXM -/,
  ⟨0, 0x0A1, 1, false, false, true, Map.rLEARN⟩ /- LEARN -/,
  ⟨0, 0x0A2, 1, false, false, true, Map.rAGE⟩ /- AGE -/,
  ⟨0, 0x0A8, 8, false, false, true, Map.rHSG⟩ /- HSG -/,
  ⟨0, 0x0B0, 1, true, true, true, Map.rNHOP⟩ /- NHOP -/,
  ⟨0, 0x0C0, 1, false, false, false, Map.rSC0⟩ /- SC0 -/,
  ⟨0, 0x0D0, 1, false, false, true, Map.rD2D⟩ /- D2D_F -/,
  ⟨0, 0x0D8, 8, false, false, true, Map.rD2DL⟩ /- D2DL_F -/,
  ⟨0, 0x0E0, 1, false, false, true, Map.rPWR_F⟩ /- PWR_F -/,
  ⟨0, 0x0E1, 1, false, false, true, Map.rCLK⟩ /- CLK_F -/,
  ⟨0, 0x0E2, 1, false, false, true, Map.rRAS_F⟩ /- RAS_F -/,
  ⟨0, 0x0E8, 8, false, false, true, Map.rLRMON⟩ /- LRMON -/,
  ⟨0, 0x0F0, 1, true, false, true, Map.rCNT_F⟩ /- CNT_F -/]
/-- The pages of the T-die. -/
def pageTableT : List PageDef := [
  ⟨1, 0x000, 1, false, false, true, Map.rDEV⟩ /- DEV_T -/,
  ⟨1, 0x010, 1, true, true, true, Map.rVOQ⟩ /- VOQ -/,
  ⟨1, 0x011, 1, true, true, true, Map.rADM⟩ /- ADM -/,
  ⟨1, 0x012, 1, false, false, true, Map.rCALD⟩ /- CALD -/,
  ⟨1, 0x013, 1, false, false, true, Map.rBUF⟩ /- BUF -/,
  ⟨1, 0x014, 4, false, true, true, Map.rCALDQ⟩ /- CALDQ -/,
  ⟨1, 0x020, 1, true, true, true, Map.rEQS⟩ /- EQS -/,
  ⟨1, 0x021, 1, true, true, true, Map.rSHP⟩ /- SHP -/,
  ⟨1, 0x022, 1, true, true, true, Map.rPOL⟩ /- POL -/,
  ⟨1, 0x023, 1, true, false, true, Map.rGATE⟩ /- GATE -/,
  ⟨1, 0x024, 1, true, false, true, Map.rLAT⟩ /- LAT -/,
  ⟨1, 0x028, 4, false, true, true, Map.rEPOOLQ⟩ /- EPOOLQ -/,
  ⟨1, 0x030, 1, false, false, true, Map.rMIR⟩ /- MIR -/,
  ⟨1, 0x038, 8, false, false, true, Map.rEQL⟩ /- EQL -/,
  ⟨1, 0x040, 12, false, false, true, Map.rFSER⟩ /- FSER -/,
  ⟨1, 0x050, 1, true, false, true, Map.rFCELL⟩ /- FCELL -/,
  ⟨1, 0x051, 1, false, false, true, Map.rFFRM⟩ /- FFRM -/,
  ⟨1, 0x052, 1, false, true, true, Map.rFCRD⟩ /- FCRD -/,
  ⟨1, 0x053, 1, false, false, true, Map.rFPM⟩ /- FPM -/,
  ⟨1, 0x058, 2, false, true, true, Map.rFCE⟩ /- FCE -/,
  ⟨1, 0x060, 4, true, true, true, Map.rHBMC⟩ /- HBMC -/,
  ⟨1, 0x064, 1, false, false, true, Map.rHBM_RAS⟩ /- HBM_RAS -/,
  ⟨1, 0x068, 4, false, false, true, Map.rHBMTR⟩ /- HBMTR -/,
  ⟨1, 0x070, 1, false, false, true, Map.rSCRUB⟩ /- SCRUB -/,
  ⟨1, 0x080, 1, false, false, false, Map.rSC1⟩ /- SC1 -/,
  ⟨1, 0x081, 1, true, false, false, Map.rUPD⟩ /- UPD -/,
  ⟨1, 0x082, 1, true, true, false, Map.rEMRAM⟩ /- EMRAM -/,
  ⟨1, 0x090, 2, false, false, false, Map.rPCIE⟩ /- PCIE -/,
  ⟨1, 0x092, 1, true, false, false, Map.rDMA⟩ /- DMA -/,
  ⟨1, 0x093, 1, true, false, false, Map.rIRQ⟩ /- IRQ -/,
  ⟨1, 0x0A0, 1, false, false, true, Map.rD2D⟩ /- D2D_T -/,
  ⟨1, 0x0A8, 8, false, false, true, Map.rD2DL⟩ /- D2DL_T -/,
  ⟨1, 0x0B0, 1, false, false, true, Map.rPWR_T⟩ /- PWR_T -/,
  ⟨1, 0x0B1, 1, false, false, true, Map.rCLK⟩ /- CLK_T -/,
  ⟨1, 0x0B2, 1, false, false, true, Map.rRAS_T⟩ /- RAS_T -/,
  ⟨1, 0x0C0, 1, true, false, true, Map.rCNT_T⟩ /- CNT_T -/]

end Sys2Proof.Machine
end

