-- ==== Sys2Proof/Machine/Sparse.lean ====
section
/-! DEFINITION. Sparse maps: lists of (key, value) pairs with rising keys that list no entry equal to the default, so
that equal maps are equal data. The register file, the tables and the sparse per-queue state are held so. -/
namespace Sys2Proof.Machine

/-- A sparse map from numbers to `α`. -/
abbrev Sparse (α : Type) := List (Nat × α)

/-- The value at key `k`, `d` where none is listed. -/
def sget {α : Type} (d : α) : Sparse α → Nat → α
  | [], _ => d
  | (k', v) :: m, k => if k' = k then v else sget d m k

/-- `m` without key `k`. -/
def sdel {α : Type} : Sparse α → Nat → Sparse α
  | [], _ => []
  | (k', v) :: m, k => if k' = k then sdel m k else (k', v) :: sdel m k

/-- `m` with the pair put at its place in the rising order of keys. -/
def sins {α : Type} : Sparse α → Nat → α → Sparse α
  | [], k, v => [(k, v)]
  | (k', v') :: m, k, v => if k < k' then (k, v) :: (k', v') :: m else (k', v') :: sins m k v

/-- `m` with key `k` reading `v`: writing the default removes the entry. -/
def sset {α : Type} [DecidableEq α] (d : α) (m : Sparse α) (k : Nat) (v : α) : Sparse α :=
  if v = d then sdel m k else sins (sdel m k) k v

/-- Whether key `k` is listed. -/
def shas {α : Type} (m : Sparse α) (k : Nat) : Bool := m.any (·.1 == k)

/-- The keys listed in a map. -/
def skeys {α : Type} (m : Sparse α) : List Nat := m.map (·.1)

/-- Keys strictly rising. -/
def sRising {α : Type} : Sparse α → Prop
  | [] => True
  | (k, _) :: m => (∀ p ∈ m, k < p.1) ∧ sRising m

/-- The canonical form: keys strictly rising and no entry equal to the default. -/
def sWf {α : Type} (d : α) (m : Sparse α) : Prop := sRising m ∧ ∀ p ∈ m, p.2 ≠ d

/-- `x` put into a list sorted under `le`, after the elements that come no later. -/
def sortIns {α : Type} (le : α → α → Bool) (x : α) : List α → List α
  | [] => [x]
  | y :: l => if le y x then y :: sortIns le x l else x :: y :: l

/-- A list sorted under `le`, stably. -/
def sortBy {α : Type} (le : α → α → Bool) (l : List α) : List α := l.foldl (fun acc x => sortIns le x acc) []

/-- Element `i` of a list, `d` beyond its end. -/
def lget {α : Type} (d : α) (l : List α) (i : Nat) : α := l.getD i d

/-- A list with element `i` replaced (unchanged where there is none). -/
def lset {α : Type} (l : List α) (i : Nat) (v : α) : List α := l.set i v

end Sys2Proof.Machine
end

