-- ==== Sys2Proof/Machine/State.lean ====
section
/-! DEFINITION. The state of the block as plain data: every register, FIFO, buffer, counter, mode and pin the spec
gives it, the queue of waiting commands, the state after reset, and the reasons a command stops.
Register-visible state (status and counters included) has one home, the sparse register file `regs`; the structures
below hold what no register shows. -/
namespace Sys2Proof.Machine

/-- The two parts the manual covers (R1, R2). The part is fixed by fuses; no command changes it. -/
inductive Part where
  | lmb4812
  | lmb4806
deriving DecidableEq, Repr

/-- Why the block stops with a fault. No command of the table ends in one: every access the commands make is to a
register, table or buffer that the spec lays out, and the spec says what an access elsewhere does (R392, R393). The
one constructor stands for that absence and nothing raises it: safe. -/
inductive Fault where
  /-- Raised by nothing. -/
  | none
deriving DecidableEq, Repr

/-- Why a command is refused. -/
inductive Refusal where
  /-- Raised by an arm of Dispatch.lean whose meaning is not written yet: safe, the block stops. -/
  | notModelled (mnemonic : String)
deriving DecidableEq, Repr

/-- What a command makes leave the device: a model's record of its pins, ports and host buses. -/
inductive Emit where
  /-- An MSI-X message of a PCIe port for a vector, with the address and data of its table entry (R362). -/
  | msix (port vec addr data : Nat)
  /-- Bytes written to host memory by a port's DMA engine (R368). -/
  | hostWrite (port addr : Nat) (bytes : List Byte)
  /-- A frame, or its stomped beginning, leaves a line port (R241). -/
  | frame (port : Nat) (bytes : List Byte) (stomp : Bool)
  /-- A PFC frame leaves a line port: enabled priorities and their quanta (R218). -/
  | pfc (port : Nat) (enable : Nat) (quanta : Nat)
  /-- A SYNC_OUT edge with its tag word; the flag says that the tag's CRC is sent inverted (R48). -/
  | sync (time word : Nat) (badCrc : Bool)
  /-- The header of the frame that a fabric lane starts (R249, R250). -/
  | frameHeader (lane header : Nat)
  /-- A cell in a slot of a fabric lane's next frame: its 128-bit header, and payload bytes (R252). -/
  | cell (lane slot header : Nat) (payload : List Byte)
  /-- A control message placed for a lane's next frame (R270). -/
  | message (lane slot word : Nat)
  /-- A level change of an output pin. -/
  | pin (name : String) (level : Bool)
  /-- A heartbeat word of a controller to its peer (R332). -/
  | heartbeat (sc word : Nat)
deriving DecidableEq, Repr

/-- What is wrong with a stored word (R298, R300): kind 0 nothing, 1 errors within one symbol (its number and pattern),
2 uncorrectable, 3 poisoned; the raw syndrome, and the codeword of an HBM burst. -/
structure WordErr where
  kind : Nat := 0
  symbol : Nat := 0
  pattern : Nat := 0
  syn : Nat := 0
  half : Nat := 0
deriving DecidableEq, Repr

/-- Error bookkeeping outside the registers: corrections of each class (by 16 × die + class) in the second under way
(R311), pages whose uncorrectable error was logged in this second (R354), Sinter's history of each class, oldest first
(word, pass number, whether uncorrectable, R309), its rewrite FIFO (R307), repairs in use of each bank (by page and memory), SRAM words
redirected to a spare (R310), and per walker the accumulated quota in 1/65,536 words. -/
structure RasSt where
  ceSec : Sparse Nat := []
  ueLogged : List Nat := []
  hist : Sparse (List (Nat × Nat × Bool)) := []
  rw : List (Nat × Nat × Nat) := []
  cam : Sparse Nat := []
  repaired : List Nat := []
deriving DecidableEq, Repr
/-- One record of the event log in eMRAM (R354). -/
structure LogRec where
  lseq : Nat
  tick : Nat
  ns : Nat
  sec : Nat
  code : Nat
  source : Nat
  data : Nat
deriving DecidableEq, Repr

/-- The event log engine (R354): the ring of the last 32,768 records (newest first), the records written and dropped
in the present second, and the records the F-die holds while neither path works. -/
structure LogSt where
  recs : List LogRec := []
  written : Nat := 0
  dropped : Nat := 0
  held : List LogRec := []
  heldDropped : Nat := 0
deriving DecidableEq, Repr

/-- An accepted SYNC_IN edge that no judgment has used yet (R404): its arrival time in core clocks and the tag that
followed it (`none`: no whole tag yet; `some (word, valid)`). -/
structure SyncEdge where
  time : Nat
  tag : Option (Nat × Bool)
deriving DecidableEq, Repr

/-- A tick boundary that has not been judged (R404): when it fell, the TIS of the tick it began, and the corrections
already fixed for ticks beginning at or after it. -/
structure Bound where
  time : Nat
  tis : Nat
  fixed : Int
deriving DecidableEq, Repr

/-- Timing: the tick count, the current tick and the alignment machine (R37 to R50, R404, R405). Times are absolute
core clocks since power-on; `count` counts the boundaries since then, and `base` is its value at the reset that started TICK_COUNT. -/
structure TickSt where
  count : Nat := 0
  start : Nat := 0
  corr : Int := 0
  nextCorr : Int := 0
  fixed : Bool := false
  mode : Nat := 0
  lastEdge : Option Nat := none
  edges : List SyncEdge := []
  bounds : List Bound := []
  lastTis : Option Nat := none
  tisAge : Nat := 0
  curTag : Option Nat := none
  noEdge : Nat := 0
  prevEdge : Option Nat := none
  genCmt : Option Nat := none
  sentTag : Option Nat := none
  adopt : Option Nat := none
  base : Nat := 0
deriving DecidableEq, Repr

/-- Commit control outside its registers: the decision of clock 1,024, an arm that came after clock 1,791, the plan
sent to the T-die, the change-log walks due after the last versioned commit, the commits applied so far, and the versioned commits so far (a packet of an earlier generation carries the previous version). -/
structure CmtSt where
  decided : Bool := false
  apply : Bool := false
  armLate : Bool := false
  planSent : Bool := false
  planCommit : Bool := false
  planArrived : Bool := false
  walkDue : Bool := false
  gen : Nat := 0
  applied : Nat := 0
deriving DecidableEq, Repr

/-- One receive bundle of the die-to-die link (R32, R34): the sequence number expected next, the replays of its present
flit, and a repair under way (the failing lane, and whether both copies agree). -/
structure Bundle where
  seq : Nat := 0
  replays : Nat := 0
  repair : Option Nat := none
  repairOk : Bool := false
deriving DecidableEq, Repr

/-- The die-to-die link: whether it is trained, a training under way, the management path, the ticks spent DOWN, the
MIN_BUNDLES in force on each die, and the receive bundles of the F-die and of the T-die (16 each). -/
structure D2dSt where
  trained : Bool := false
  training : Bool := true
  mgmtUp : Bool := true
  downTicks : Nat := 0
  minF : Nat := 4
  minT : Nat := 4
  rxF : List Bundle := List.replicate 16 {}
  rxT : List Bundle := List.replicate 16 {}
deriving DecidableEq, Repr

/-- One MSI-X vector of a port (R357, R362). -/
structure MsixVec where
  mask : Bool := true
  pending : Bool := false
  addr : Nat := 0
  data : Nat := 0
deriving DecidableEq, Repr

/-- A PCIe port: MSI-X Enable, Function Mask and its vectors; the PERST_N level. -/
structure PcieSt where
  msixEn : Bool := false
  fmask : Bool := false
  perst : Bool := false
  vecs : Sparse MsixVec := []
deriving DecidableEq, Repr

/-- The PTP time of day as it stood at core clock `since`, and what is due at the next tick boundary (R81). -/
structure PtpSt where
  since : Nat := 0
  sec : Nat := 0
  ns : Nat := 0
  frac : Nat := 0
  step : Int := 0
  loadDue : Bool := false
  txts : List (Nat × Nat × Nat × Nat) := []
  ppsHigh : Bool := false
  ppsLastIn : Option Nat := none
  pmSec : Nat := 0
  squelched : List Nat := []
  clearAt : Sparse Nat := []
deriving DecidableEq, Repr

/-- The ingress metadata of a packet (R33), a field each. -/
structure Meta where
  dest : Nat := 0
  tc : Nat := 0
  color : Nat := 0
  version : Nat := 0
  policer : Nat := 0
  policeEn : Bool := false
  len : Nat := 0
  lport : Nat := 0
  punt : Nat := 0
  flowCtr : Nat := 0
  flowCtrEn : Bool := false
  mirror : Nat := 0
  mirrorEn : Bool := false
  sample : Bool := false
  cutOk : Bool := false
  hint : Nat := 0
  ts : Nat := 0
  hash : Nat := 0
  scratch : Nat := 0
deriving DecidableEq, Repr

/-- The egress metadata of a packet (R240), a field each; with it the packet's number in the egress pool and its length at
handoff, which the transmit allowance counts (R233). -/
structure EgMeta where
  lport : Nat := 0
  eq : Nat := 0
  tc : Nat := 0
  len : Nat := 0
  hint : Nat := 0
  scratch : Nat := 0
  launch : Nat := 0
  launchV : Bool := false
  latest : Nat := 0
  ptpCmd : Nat := 0
  ptpOff : Nat := 0
  csumOff : Nat := 0
  ct : Bool := false
  srcDev : Nat := 0
  seq : Nat := 0
  pid : Nat := 0
  txLen : Nat := 0
deriving DecidableEq, Repr

/-- An accepted header of the header vector (R106). -/
structure Hdr where
  node : Nat
  off : Nat
  layer : Nat
  cls : Nat
  len : Nat
deriving DecidableEq, Repr

/-- What the slice's pipeline found and decided for a packet (R106, R118, R123, R132, R151): the header vector and
PARSE_STATUS, the merged decision (`fwd`: 0 CONTINUE, 1 DROP, 2 PUNT), VRF, class and feature bits, the route result
and next hop, and whether the packet has a destination. -/
structure Verd where
  hv : List Hdr := []
  exc : Nat := 0
  frag : Nat := 0
  fwd : Nat := 0
  punt : Nat := 0
  vrf : Nat := 0
  cls : Nat := 0
  feats : Nat := 0
  apFlags : Nat := 0
  routeFlags : Nat := 0
  nhFlags : Nat := 0
  route : Nat := 0
  nh : Nat := 0
  hasDest : Bool := false
  wantRoute : Bool := false
  routed : Bool := false
  egArg : Nat := 0
deriving DecidableEq, Repr

/-- A packet in the F-die's slices: its bytes without FCS, whether its last segment is bad, its metadata, its bucket, its
steering class, its table version's generation (R54), the slice clock count at which it entered the slice (R94), what the
pipeline found, whether it is ready for handoff, the frame it arrived as when an AP program may still read it (R190),
and, at egress, whether the frame has been cut short. -/
structure Pkt where
  bytes : List Byte := []
  bad : Bool := false
  md : Meta := {}
  em : EgMeta := {}
  bucket : Nat := 0
  stc : Nat := 0
  gen : Nat := 0
  entry : Nat := 0
  v : Verd := {}
  ready : Bool := false
  orig : List Byte := []
deriving DecidableEq, Repr

/-- A packet on the T-die whose admission is not decided (R210): the packet, its WRED lane (its source slice, 9 for a copy, R216),
whether it is a Fumarole copy (R226) and for the host, whether its first segment has arrived and whether it was admitted at
its head (R211). -/
structure AdmItem where
  pkt : Pkt
  lane : Nat := 0
  copy : Bool := false
  host : Bool := false
  head : Bool := false
  cut : Bool := false
deriving DecidableEq, Repr

/-- A line port outside its registers: the fault ordered sets it receives (R68), the lock of its client's 66-bit block
stream (R77), the pause quanta loaded per priority (R72), the pause state sent in its last PFC frame (R218), and for the
performance monitoring second under way what it met (R88) and the counters at its start. -/
structure LinePort where
  rxLf : Bool := false
  rxRf : Bool := false
  clientLock : Bool := false
  quanta : List Nat := [0, 0, 0, 0, 0, 0, 0, 0]
  pfcSent : Nat := 0
  sawLf : Bool := false
  sawRf : Bool := false
  sawDown : Bool := false
  sawStorm : Bool := false
  pmBase : List Nat := [0, 0, 0, 0]
deriving DecidableEq, Repr

/-- A frame that a MAC has passed on and the steering stage has not yet placed (R71): its port, its bytes with the FCS,
whether its last segment is marked bad, and its receive timestamp (R82). -/
structure RxFrame where
  port : Nat
  bytes : List Byte
  bad : Bool
  ts : Nat
deriving DecidableEq, Repr

/-- A FlexE group's transmit calendar: the page requested and not yet on the wire, and whether the partner has
acknowledged (R79). -/
structure FlexeGrp where
  req : Option Nat := none
  acked : Bool := false
deriving DecidableEq, Repr

/-- A slice outside its registers: its pool with a drain marker as `none` (oldest first), the packets inside in entry
order, the (port, class) pairs for which its pool requests pause, whether the pool stands between XOFF and XON, held
packets of an interrupted move that go first at the re-homing, and the re-homing due after a fence: `stranded` while no
slice can take its buckets. -/
structure SliceSt where
  pool : List (Option Pkt) := []
  inside : List Pkt := []
  xoff : Bool := false
  pauses : List (Nat × Nat) := []
  first : List Pkt := []
  rehome : Bool := false
  stranded : Bool := false
deriving DecidableEq, Repr

/-- The move of one direction (R97): accepted and not yet started until tick `start`, or started, with the packets held. -/
structure Move where
  index : Nat
  src : Nat
  target : Nat
  start : Nat
  started : Bool
  evac : Bool
  held : List Pkt
deriving DecidableEq, Repr

/-- An evacuation under way (R101): source, destination, next index to examine (16,384: all examined), a stop requested. -/
structure Evac where
  src : Nat
  dst : Nat
  next : Nat
  stop : Bool
deriving DecidableEq, Repr


/-- A learn event with the tick in which it was queued (R168 to R170). -/
structure LearnEv where
  tick : Nat
  table : Nat
  fid : Nat
  mac : Nat
  sport : Nat
deriving DecidableEq, Repr

/-- The learn engine and the aging scan outside their registers: the queues of the 18 slices, the notification FIFO,
the tick of the batch under way and the events processed in this tick, and the scan's position: slots visited in the
present pass, the tick of the next start, the remainder carried. -/
structure LearnSt where
  queues : Sparse (List LearnEv) := []
  notes : List (Nat × Nat × Nat × Nat) := []
  batchTick : Nat := 0
  done : Nat := 0
  agePos : Nat := 0
  ageTotal : Nat := 0
  ageRun : Bool := false
  ageNext : Nat := 0
  ageCarry : Nat := 0
  ageTick : Nat := 0
  ageLong : Bool := false
deriving DecidableEq, Repr

/-- A lock's state (R197): its holder and the queue of waiting requesters, oldest first. -/
structure LockSt where
  holder : Option ApId := none
  queue : List ApId := []
deriving DecidableEq, Repr

/-- A message slot of a channel (R198): the handle given to its reserver (`none`: published in one step), its eight
words, and its state (0 reserved, 1 published, 2 revoked). -/
structure ChanSlot where
  handle : Option Nat
  owner : Option ApId
  words : List DWord
  st : Nat
deriving DecidableEq, Repr

/-- A busy ticket (R193): the register writes made when it completes, whether it is a lookup of a deep table with its
destination register (R161), and the lock that a LOCK still waits for. -/
structure Ticket where
  writes : List (Nat × DWord)
  deep : Option Nat := none
  lock : Option Nat := none
deriving DecidableEq, Repr

/-- One register set with its program: a packet context, or a supervisor or service thread (R187): for a context whether it is
live, its next instruction, program and bounds, the slice clock count of its dispatch and the instructions issued; the registers;
the window start, the packet buffer by position + 128, the frame's bytes and its length with FCS (R189); the special registers
written, each value + 1 (R188); the busy tickets and those waited for (R193); and the handles reserved (R198). -/
structure ApCtx where
  live : Bool := false
  pc : Nat := 0
  prog : Nat := 0
  prev : Bool := false
  since : Nat := 0
  issued : Nat := 0
  iBound : Nat := 0
  dBound : Nat := 0
  regs : Sparse DWord := []
  start : Int := 0
  buf : Sparse Byte := []
  flen : Nat := 0
  len : Nat := 0
  written : Sparse Nat := []
  tickets : Sparse Ticket := []
  wait : Nat := 0
  resv : List Nat := []
deriving DecidableEq, Repr

/-- A hardware thread (R179, R196, R202): its state as APC_THREAD_STAT shows it, the register set it uses outside packet
contexts, the WFE it waits in (mask and destination), the events pending, the CHAN_WATCH register, the last context that
issued, while halted, since which tick and whether its stale notice was given, and the commits already seen (R196). -/
structure ApThread where
  st : Nat := 0
  x : ApCtx := {}
  wfe : Option (Nat × Nat) := none
  events : Nat := 0
  watch : Nat := 0
  last : Nat := 3
  haltAt : Nat := 0
  stale : Bool := false
  seen : Nat := 0
deriving DecidableEq, Repr

/-- An AP's supervisor side (R187, R196, R199): fault record queue, four timers in ticks, the STALE register, and whether
the all-waiting detector has fired. -/
structure ApSup where
  faults : List Nat := []
  timers : Sparse Nat := []
  staleReg : Nat := 0
  fired : Bool := false
deriving DecidableEq, Repr

/-- A packet in a VOQ: the frame with its FCS, its metadata, whether it counts as lossless, its source entry (R215), the cells
it has given back and those lost with a side record (R221), the stream bytes sent of descriptor, extension and frame (R252),
its grant tag, whether its last segment has arrived (R211), and whether it met bad data before (`poison`) or after
(`stomp`) its transmission began (R223, R224). -/
structure VPkt where
  bytes : List Byte
  md : Meta
  lossless : Bool := false
  source : Option Nat := none
  gone : Nat := 0
  lost : Nat := 0
  begun : Bool := false
  sent : Nat := 0
  tag : Nat := 0
  tail : Bool := true
  poison : Bool := false
  stomp : Bool := false
deriving DecidableEq, Repr

/-- A grant held by a VOQ (R273): its tag, its remaining units and its deadline in ticks. -/
structure HeldGrant where
  tag : Nat
  units : Nat
  deadline : Nat
deriving DecidableEq, Repr

/-- A VOQ (R219, R269, R273): its packets, oldest first; the cells of its head part; its HBM pages with the cells each holds, oldest
first; its staged cells in groups with the tick in which they joined; its mode; its outstanding requests (units, tick sent),
oldest first, those due to be reissued, and its held grants in order of arrival. -/
structure VoqSt where
  pkts : List VPkt := []
  head : Nat := 0
  pages : List (Nat × Nat) := []
  staged : List (Nat × Nat) := []
  spill : Bool := false
  reqs : List (Nat × Nat) := []
  grants : List HeldGrant := []
deriving DecidableEq, Repr

/-- A policer's buckets in 1/65,536 byte with the remainders below that, and the core clock of its last update (R213). -/
structure PolLv where
  tc : Nat := 0
  rc : Nat := 0
  tp : Nat := 0
  rp : Nat := 0
  last : Nat := 0
deriving DecidableEq, Repr

/-- An entry of the flow-counter combining cache or its write-back queue (R318): pair, packet and byte increments, tick of entry. -/
structure FlowInc where
  pair : Nat
  pkts : Nat
  bytes : Nat
  tick : Nat := 0
deriving DecidableEq, Repr

/-- The buffer manager and admission outside their registers: HBM pages lost with a side record (R221); VOQs whose
state was lost and whose cells and pages are not yet freed (R306); WRED lanes (R216);
the 1-in-N samplers' counts (R228); the copy engine's last clock, its copies and the bytes it has yet to copy as of that clock (R227); whether
CALD_LOSSY stands at LOSSY_MAX; the combining cache, most recently used first, and its write-back queue, oldest first (R318). -/
structure BufSt where
  lostPages : List Nat := []
  lost : List (Nat × VoqSt) := []
  wred : List Nat := [0x0001, 0x0002, 0x0004, 0x0008, 0x0010, 0x0020, 0x0040, 0x0080, 0x0100, 0x0200]
  samples : Sparse Nat := []
  mirClk : Nat := 0
  mirCopies : Nat := 0
  mirBytes : Nat := 0
  lossyFull : Bool := false
  flow : List FlowInc := []
  flowWb : List FlowInc := []
deriving DecidableEq, Repr

/-- A packet of the egress pool (R229): its queue, PKT_LEN, the bytes that have arrived, EGRESS_HINT, AP_SCRATCH, source device and
traffic class; the core clock of its queue entry (`none`: not yet queued) and whether it entered by cut-through (R232); a stomp
flag in its last cell (R225); the time in 2⁻³² ns since which a gate has held it (R244); and the bytes handed off. -/
structure EPkt where
  eq : Nat
  len : Nat
  bytes : List Byte := []
  hint : Nat := 0
  scratch : Nat := 0
  src : Nat := 0
  enq : Option Nat := none
  ct : Bool := false
  stomp : Bool := false
  heldAt : Option Nat := none
  handed : Option Nat := none
deriving DecidableEq, Repr

/-- A shaper's level in 1/65,536 byte, and the tick whose boundary's refill it last counted (R236). -/
structure ShpLv where
  level : Int := 0
  tick : Nat := 0
deriving DecidableEq, Repr

/-- A gate list as the scheduler runs it (R242): page, entries, cycle and base time in ns, and OVERHEAD. -/
structure GateList where
  page : Nat
  len : Nat
  cycle : Nat
  base : Nat
  overhead : Nat
deriving DecidableEq, Repr

/-- A port's gating (R242, R245): the list it runs (`none`: all gates open), the list that takes over at a time in ns, and the end
of its last planned frame in 2⁻³² ns. -/
structure GateSt where
  cur : Option GateList := none
  next : Option (GateList × Nat) := none
  f : Nat := 0
deriving DecidableEq, Repr

/-- The egress scheduler outside its tables: pool packets by number, and the number of the next; those that no queue holds yet, in
order of arrival; queues that hold packets (numbers, head first); round-robin pointers by node, class and PRIO, and
deficits of children (R235); the port served last by each lane (R233); PORT_SEQ of each port; shaper levels, due ticks of the shapers on
the wheel, and shaper writes that apply at the next boundary (R236 to R238); gating of each port; frames under way on a port whose last cell has
not arrived (pool packet, the frame's bytes before it); and LAT's watch position (R246). -/
structure EgSt where
  pk : Sparse EPkt := []
  next : Nat := 1
  fresh : List Nat := []
  queues : Sparse (List Nat) := []
  ptr : Sparse Nat := []
  deficit : Sparse Nat := []
  lastPort : Sparse Nat := []
  seq : Sparse Nat := []
  lv : Sparse ShpLv := []
  wheel : Sparse Nat := []
  shpPend : Sparse Nat := []
  gates : Sparse GateSt := []
  txing : Sparse (Nat × List Byte) := []
  watch : Nat := 0
deriving DecidableEq, Repr

/-- A cell (R252), its header fields without the CRC; `lane` is the receive lane, 96 for the local loop. -/
structure Cell where
  typ : Nat := 0
  dst : Nat := 0
  src : Nat := 0
  voq : Nat := 0
  seq : Nat := 0
  sop : Bool := false
  off : Nat := 0
  fill : Nat := 0
  stomp : Bool := false
  circuit : Nat := 0
  sseq : Nat := 0
  payload : List Byte := []
  lane : Nat := 96
deriving DecidableEq, Repr

/-- A received frame (R249): whether its header is a valid pad header, its messages, and its cells: header as a number, payload. -/
structure Frame where
  pad : Bool
  msgs : List Nat
  cells : List (Nat × List Byte)
deriving DecidableEq, Repr

/-- A fabric lane outside its registers (R255 to R259, R262): its slip buffer, whether the frame delivered last was a pad frame,
consecutive bad positions, the last FN and runs of unexpected and expected ones, runs of mismatching and matching
identities and of RDI, ticks without a defect that bars service, cell errors in the superframe and runs for DEG, the back-pressure in force and
on its way (due tick, LANE_XOFF, GROUP_XOFF), and what the performance monitoring second under way met (R278). -/
structure FabLane where
  slip : List Frame := []
  lastPad : Bool := false
  badRun : Nat := 0
  fn : Option Nat := none
  fnBad : Nat := 0
  fnGood : Nat := 0
  fnJump : Option Nat := none
  timBad : Nat := 0
  timGood : Nat := 0
  rdiOn : Nat := 0
  rdiOff : Nat := 0
  clean : Nat := 0
  degErr : Nat := 0
  degOn : Nat := 0
  degOff : Nat := 0
  xoffLane : Bool := false
  xoffGroups : Nat := 0
  xoffDue : List (Nat × Bool × Nat) := []
  sawErr : Bool := false
  sawSes : Bool := false
  sawOut : Bool := false
  pmBase : List Nat := [0, 0, 0, 0]
deriving DecidableEq, Repr

/-- The reorder stage of a source device (R267): E, the held cells with the tick in which each arrived, and the tick of its last cell. -/
structure ReorderSt where
  e : Nat := 0
  held : List (Cell × Nat) := []
  last : Option Nat := none
deriving DecidableEq, Repr

/-- A reassembly context (R268): the next SSEQ, descriptor bytes gathered, the packet in progress (its pool number, `none` where it is
discarded) with the bytes it still lacks, and whether bytes are discarded up to the next descriptor. -/
structure RsmSt where
  sseq : Option Nat := none
  desc : List Byte := []
  cur : Option (Option Nat × Nat) := none
  skip : Bool := true
deriving DecidableEq, Repr

/-- A live grant of the egress side (R271, R272): source device, queue, remaining units, tick of issue. -/
structure LiveTag where
  src : Nat
  eq : Nat
  units : Nat
  tick : Nat
deriving DecidableEq, Repr

/-- A stored request (R271). -/
structure StoredReq where
  src : Nat
  voq : Nat
  units : Nat
  tick : Nat
deriving DecidableEq, Repr

/-- A stream of the source (R252): its next SSEQ, the VOQ of its packet in progress, and the VOQ that last started a packet. -/
structure StreamSt where
  sseq : Nat := 0
  cur : Option Nat := none
  last : Option Nat := none
deriving DecidableEq, Repr

/-- The fabric interface outside its registers: lanes; cells and messages delivered and not yet handled; cells released to
reassembly and those of the local loop; reorder stages by source; reassembly contexts by 8 × source + TC, circuits by 2²⁰ + entry; transmit streams by
8 × destination + TC, circuits by 2²⁰ + number; next SEQ by destination (circuits by 2²⁰ + number); the destination served last by each traffic class; VOQs that may request, in
the order in which they became eligible; requests to reissue (VOQ, units); local messages; messages placed in the next frame (lane, word) and the lane used last for them; the
queue served last by the credit round; live tags; stored requests by queue; devices marked withdrawn with the tick of their last
WITHDRAW; and whether a RESTORE is due. -/
structure FabSt where
  lanes : Sparse FabLane := []
  rxCells : List (Nat × Nat × List Byte) := []
  rxMsgs : List Nat := []
  asm : List Cell := []
  reorder : Sparse ReorderSt := []
  rsm : Sparse RsmSt := []
  streams : Sparse StreamSt := []
  seq : Sparse Nat := []
  lastDest : Sparse Nat := []
  reqOrder : List Nat := []
  reissue : List (Nat × Nat) := []
  localMsgs : List Nat := []
  placed : List (Nat × Nat) := []
  msgLane : Nat := 0
  lastEq : Nat := 0
  tags : Sparse LiveTag := []
  store : Sparse (List StoredReq) := []
  wd : Sparse Nat := []
  restoreDue : Bool := false
deriving DecidableEq, Repr

/-- A request waiting in a bank queue (R283): its requester in the order of R283, whether it writes, its HBM offset (a
burst of 32 bytes), the data written, and the core clock of its arrival. -/
structure HbmReq where
  who : Nat
  write : Bool
  off : Nat
  data : Nat
  since : Nat
deriving DecidableEq, Repr

/-- The HBM controllers outside their registers and rank tables: the bank queues, by (stack × 64 + rank) × 16 + bank (R283);
the bank queue served last, by stack × 32 + channel (R284); picks passed over, by bank queue; ranks in a forced Geyser burst
(stack × 64 + rank, R287); failed retrains in a row, by stack × 32 + channel (R291); stacks whose start keeps their
contents (R297); words declared hard and not yet repaired (stack × 64 + rank, byte ÷ 16, R292); the repair lists in eMRAM
(stack × 64 + rank, row); and the migration progress records in eMRAM, by stack (source, target, next chunk, R295). -/
structure HbmSt where
  q : Sparse (List HbmReq) := []
  last : Sparse Nat := []
  passed : Sparse Nat := []
  closed : List Nat := []
  fails : Sparse Nat := []
  keep : List Nat := []
  hard : List (Nat × Nat) := []
  ppr : List (Nat × Nat) := []
  mig : Sparse (Nat × Nat × Nat) := []
deriving DecidableEq, Repr


/-- A counter freeze in force (R316): the register file as it stood, the tick in which it took effect, and whether the T-die still holds it. -/
structure Frozen where
  regs : Sparse Nat
  tick : Nat
  onT : Bool
deriving DecidableEq, Repr

/-- What a running dump has still to write (R320): captured register words, or flow-counter pairs. -/
inductive DumpItem where
  | words (l : List Nat)
  | pairs (first count : Nat)
deriving DecidableEq, Repr

/-- A Plume dump under way (R320 to R322): the capture tick and its time of day, the list's generation and entries, the pages whose
snapshots it holds, its data, and the PARTIAL flag. -/
structure Dump where
  tick : Nat
  ns : Nat
  sec : Nat
  gen : Nat
  first : Nat
  last : Nat
  pages : List Nat
  items : List DumpItem
  part : Bool
deriving DecidableEq, Repr

/-- A dump set outside its registers: the number of its next dump, the dump under way, dumps skipped since the last record. -/
structure PlumeSt where
  seq : Nat := 0
  run : Option Dump := none
  skipped : Nat := 0
deriving DecidableEq, Repr

/-- A second that has ended and not yet entered the bins (R325): its conditions, whether the entity was enabled, its accumulations. -/
structure PmSec where
  sec : Nat
  es : Bool
  ses : Bool
  xs : Bool
  ys : Bool
  en : Bool
  acc : List Nat
deriving DecidableEq, Repr

/-- A performance-monitoring bin (R326 to R329), with the seconds it holds and the TCAs given (bit 0 ES, 1 SES, 2 UAS). -/
structure PmBin where
  start : Nat := 0
  valid : Bool := false
  suspect : Bool := false
  es : Nat := 0
  ses : Nat := 0
  uas : Nat := 0
  xs : Nat := 0
  ys : Nat := 0
  acc : List Nat := [0, 0, 0, 0]
  secs : Nat := 0
  tca : Nat := 0
deriving DecidableEq, Repr

/-- An entity (R325): seconds that wait for the nine that follow them, oldest first; whether unavailable time covers the second entered
last, and whether it is unavailable now; and its bins. -/
structure PmEnt where
  wait : List PmSec := []
  unavail : Bool := false
  now : Bool := false
  bins : Sparse PmBin := []
deriving DecidableEq, Repr

/-- Telemetry: a freeze in force, the dump sets, the entities (0–63 line ports, 64–159 fabric links), and the T-die's seconds and the tick of
its last roll, whether its first seconds lie behind it. -/
structure TelSt where
  frz : Option Frozen := none
  plume : Sparse PlumeSt := []
  pm : Sparse PmEnt := []
  secT : Nat := 0
  rollT : Nat := 0
deriving DecidableEq, Repr


/-- A service controller outside its page (R332, R333): a kick in this tick, the next heartbeat sequence number, the heartbeat word on its
way to the peer, heartbeats received in this tick over the data link and the management path, whether the first kick of BOOT
has been made, the core clock of the end of its load, the tick in which it entered FAILED, and that in which it entered STANDBY or ACTIVE. -/
structure ScCtl where
  kicked : Bool := false
  seq : Nat := 0
  sent : Option Nat := none
  gotLink : Bool := false
  gotMgmt : Bool := false
  first : Bool := false
  loaded : Nat := 0
  failed : Nat := 0
  since : Nat := 0
deriving DecidableEq, Repr

/-- A takeover that is due (R334, R406): the standby, the cause, the core clock of the fault or of the decisive miss, and whether the
standby has been told. -/
structure Due where
  standby : Nat
  cause : Nat
  since : Nat
  told : Bool
deriving DecidableEq, Repr

/-- The two controllers together: a takeover due, an accepted SWITCHOVER of a controller, a hold of SC0 recorded and not yet
applied with its cause (R334), and the causes of the takeovers that SC0's page has missed. -/
structure SvcSt where
  c0 : ScCtl := {}
  c1 : ScCtl := {}
  due : Option Due := none
  swap : Option Nat := none
  hold : Option Nat := none
  missed : List Nat := []
deriving DecidableEq, Repr

/-- A record of the digest table (R347). -/
structure Digest where
  kind : Nat
  seq : Nat
  digest : Nat
  coll : Bool
deriving DecidableEq, Repr

/-- Image update outside its tables and registers: the core clock of the lock holder's last activity (R344); the START under way
(part, whether from the staging slot); resident slots with a valid marker (2 × (kind − 1) + slot); the digest table; and whether block 0 of the customer key
has been written (R343). -/
structure UpdSt where
  lockAt : Nat := 0
  start : Option (Nat × Bool) := none
  valid : List Nat := []
  digests : List Digest := []
  key0 : Bool := false
deriving DecidableEq, Repr


/-- An item waiting for an RX ring (R368): its SRC and CODE, the bytes not yet written, whether any of it has been, and the
Caldera cells it holds. -/
structure DmaItem where
  src : Nat
  code : Nat
  bytes : List Byte
  begun : Bool := false
  cells : Nat := 0
deriving DecidableEq, Repr

/-- A descriptor that a ring is filling with records (R373): its SRC, buffer address, the bytes of whole records that fit, the records' bytes, and the
core clock of the oldest record. -/
structure DmaOpen where
  src : Nat
  addr : Nat
  room : Nat
  bytes : List Byte
  since : Nat
deriving DecidableEq, Repr

/-- A DMA ring outside its registers: items waiting, the record descriptor being filled, completions not yet signalled, and the core clock of the first of them. -/
structure RingSt where
  items : List DmaItem := []
  opn : Option DmaOpen := none
  done : Nat := 0
  since : Nat := 0
deriving DecidableEq, Repr


/-- Power, clocks and pins outside their pages (chapter 17): the device held in reset by PORESET_N, and by its supply monitors; the thermal trip recorded in
eMRAM, and THERM_TRIP_N and THERM_ALERT_N asserted; domains (64 × die + number) ramping up, waiting to, and being removed, with the
requester of each domain's last request (R375); the reset cause not yet logged, its die and the core clock at which it is (R382); the core
clock of the last WARM_RST_N reset, before tick 0 where negative; and of each GPIO pin's last event (R385). -/
structure PwrSt where
  por : Bool := false
  sup : Bool := false
  trip : Bool := false
  tripPin : Bool := false
  alertPin : Bool := false
  rise : List Nat := []
  wait : List Nat := []
  fall : List Nat := []
  by' : Sparse Nat := []
  bootLog : Option (Nat × Nat × Nat) := some (1, 1, 49600000)
  lastWarm : Option Int := none
  gpioAt : Sparse Nat := []
deriving DecidableEq, Repr


/-- The state of the block. -/
structure State where
  ra : RasSt
  /-- Which part this is (R2). -/
  part : Part
  /-- Every register whose value differs from its reset value, by BAR0 offset (R13). -/
  regs : Sparse Nat
  /-- Staged ST values that differ from the live value, by live BAR0 offset (R16). -/
  shadows : Sparse Nat
  /-- ST values of the previous table version, by BAR0 offset (R128). -/
  prevSt : Sparse Nat
  /-- Pages whose tables hold staged changes (R400). -/
  tblPending : List Nat
  /-- The _HI latch of each requester for each 64-bit value (R15). -/
  hiLatch : Sparse Nat
  /-- The held _LO half of each requester for each 64-bit value (R15). -/
  loHeld : Sparse Nat
  /-- Table entries that differ from their reset value (R164). -/
  tbls : Sparse Nat
  /-- Stored words that hold errors or are poisoned (R298, R300), by `wkey`. -/
  marks : Sparse WordErr
  /-- The data returned by the last read access (the model's own record). -/
  rsp : Option Nat
  /-- What has left the device, newest first (the model's own record). -/
  out : List Emit
  /-- How many free values have been drawn (the model's own counter). -/
  free : Nat
  tk : TickSt
  cm : CmtSt
  d2 : D2dSt
  pcie0 : PcieSt
  pcie1 : PcieSt
  lg : LogSt
  ptp : PtpSt
  /-- F-die interrupt sources held by the aggregator while neither path works (R361). -/
  irqHeld : List Nat
  /-- DMA rings whose coalescing condition is met (R367). -/
  ringDue : List Nat
  /-- Line ports, by port number. -/
  ports : Sparse LinePort
  /-- Frames between the MACs and the steering stage, oldest first. -/
  macQ : List RxFrame
  /-- FlexE groups, by 8 × engine + group. -/
  flexe : Sparse FlexeGrp
  /-- Slices, by 16 × direction + number (0 ingress, 1 egress). -/
  slices : Sparse SliceSt
  /-- The ingress move under way. -/
  moveIn : Option Move
  /-- The egress move under way. -/
  moveEg : Option Move
  /-- The ingress evacuation under way. -/
  evacIn : Option Evac
  /-- The egress evacuation under way. -/
  evacEg : Option Evac
  /-- Packets handed off by ingress slices, and copies, that admission has not decided, oldest first (R94, R210). -/
  admQ : List AdmItem
  /-- Packets handed off by egress slices to the MACs, oldest first (R241). -/
  macTx : List Pkt
  /-- The classification change log of the present stage, newest first: kind (0 ACL, 1 + t EXM table t) and index (R126). -/
  classLog : List (Nat × Nat)
  /-- The classification log of the last versioned commit, not yet walked (R127). -/
  classWalk : List (Nat × Nat)
  /-- The Terrace change log of the present stage, newest first, by physical index (R142). -/
  terrLog : List Nat
  /-- The Terrace log of the last versioned commit, not yet walked (R142). -/
  terrWalk : List Nat
  /-- Core clock + 1 at which hardware last cleared a liveness bit, by watch (R150). -/
  liveClr : Sparse Nat
  ln : LearnSt
  /-- Packet contexts, by ((cluster × 16 + AP) × 16 + thread) × 4 + context. -/
  apCtx : Sparse ApCtx
  /-- Threads, by (cluster × 16 + AP) × 16 + thread. -/
  apThr : Sparse ApThread
  /-- Supervisor sides, by cluster × 16 + AP. -/
  apSup : Sparse ApSup
  /-- Locks, by cluster × 256 + lock. -/
  locks : Sparse LockSt
  /-- Channels, by cluster × 64 + channel, head first. -/
  chans : Sparse (List ChanSlot)
  /-- Instruction ranges that direct-mode program entries held before their last write: cluster, first, last, and the tick to which they stay protected (R205). -/
  apProt : List (Nat × Nat × Nat × Nat)
  /-- VOQs that differ from an empty one, by number. -/
  voqs : Sparse VoqSt
  /-- Policer buckets, by policer. -/
  pols : Sparse PolLv
  bf : BufSt
  eg : EgSt
  fab : FabSt
  hb : HbmSt
  /-- HBM contents, by HBM offset ÷ 16: one inner codeword's 128 data bits each (R299). -/
  hbm : Sparse Nat
  te : TelSt
  sv : SvcSt
  up : UpdSt
  /-- DMA rings, by number. -/
  rings : Sparse RingSt
  /-- Power, clocks and pins outside their pages. -/
  pw : PwrSt
  /-- Running table commands, by page number: OP, the status, moves and TBL_DATA with which each will complete (R165). -/
  tblRun : Sparse (Option (Nat × Nat × Nat × Option Nat))
  /-- Pages whose staged table copy is being refilled (R128). -/
  refill : List Nat
  /-- Pages whose SOFT_RESET waits for a running table command (R396). -/
  softWait : List Nat
  /-- The commands that are waiting, first in, first out. -/
  pending : List Instr
deriving DecidableEq, Repr

/-- The block right after power-on reset: every register at its reset value, nothing queued, every memory at its reset contents. -/
def State.reset : State where
  ra := {}
  part := .lmb4812
  regs := []
  shadows := []
  prevSt := []
  tblPending := []
  hiLatch := []
  loHeld := []
  tbls := []
  marks := []
  rsp := none
  out := []
  free := 0
  tk := {}
  cm := {}
  d2 := {}
  pcie0 := {}
  pcie1 := {}
  lg := {}
  ptp := {}
  irqHeld := []
  ringDue := []
  ports := []
  macQ := []
  flexe := []
  slices := []
  moveIn := none
  moveEg := none
  evacIn := none
  evacEg := none
  admQ := []
  macTx := []
  classLog := []
  classWalk := []
  terrLog := []
  terrWalk := []
  liveClr := []
  ln := {}
  apCtx := []
  apThr := []
  apSup := []
  locks := []
  chans := []
  apProt := []
  voqs := []
  pols := []
  bf := {}
  eg := {}
  fab := {}
  hb := {}
  hbm := []
  te := {}
  sv := {}
  up := {}
  rings := []
  pw := {}
  tblRun := []
  refill := []
  softWait := []
  pending := []

/-- What a meaning answers. -/
abbrev Out := Host.Outcome State Fault Refusal

end Sys2Proof.Machine
end

