-- ==== Sys2Proof/Machine/Ops.lean ====
section
/-! DEFINITION. The register file and its map, page presence and power, tables, error marks, time, free values: the
named operations every meaning is written over. -/
namespace Sys2Proof.Machine

/-! ## Parts, pages and domains -/

/-- Whether a page (BAR0 offset ÷ 0x1000) is fused off on the part (R2, R3, R392). -/
def fusedOff (p : Part) (page : Nat) : Bool :=
  match p with
  | .lmb4812 => false
  | .lmb4806 =>
    [(0x014, 4), (0x01C, 4), (0x021, 1), (0x03C, 4), (0x045, 4), (0x055, 4), (0x065, 4), (0x06E, 4), (0x0EC, 4),
     (0x103C, 4), (0x1046, 6), (0x1062, 2), (0x106A, 2)].any fun r => r.1 ≤ page && page < r.1 + r.2

/-- The pages of one kind that hold `page`, with its instance number. -/
def pageIn (page : Nat) (d : PageDef) : Bool :=
  d.die * 0x1000 + d.base ≤ page && page < d.die * 0x1000 + d.base + d.n

/-- The definition of a page by its number, `none` where no page exists (R392). -/
def findPage (page : Nat) : Option PageDef :=
  (if page < 0x1000 then pageTableF else pageTableT).find? (pageIn page)

/-- Whether the page is present on the part (R402). -/
def pagePresent (p : Part) (page : Nat) : Bool :=
  (findPage page).isSome && !fusedOff p page

/-- Slices of one direction: the number present (R2). -/
def Part.slices : Part → Nat
  | .lmb4812 => 9
  | .lmb4806 => 5

/-- Line groups present (R2). -/
def Part.lineGroups : Part → Nat
  | .lmb4812 => 8
  | .lmb4806 => 4

/-- Line lanes present (R2). -/
def Part.lanes (p : Part) : Nat := 8 * p.lineGroups

/-- Fabric lanes present (R2). -/
def Part.fabLanes : Part → Nat
  | .lmb4812 => 96
  | .lmb4806 => 48

/-- HBM stacks present (R2). -/
def Part.stacks : Part → Nat
  | .lmb4812 => 4
  | .lmb4806 => 2

/-- Switched domains present in the F-die, as a mask of 47 bits (R374). -/
def Part.domsF : Part → Nat
  | .lmb4812 => 2 ^ 47 - 1
  | .lmb4806 => 2 ^ 47 - 1 - (0xF * 2 ^ 5) - (0xF * 2 ^ 14) - (0xF * 2 ^ 40)

/-- Switched domains present in the T-die, as a mask of 30 bits (R374). -/
def Part.domsT : Part → Nat
  | .lmb4812 => 2 ^ 30 - 1
  | .lmb4806 => 2 ^ 30 - 1 - (0x3F * 2 ^ 12) - (0x3 * 2 ^ 22)

/-- One row of the domain table: first page, pages, die, domain of the first page, and the step from one page's domain to the next. -/
abbrev DomRow := Nat × Nat × Nat × Nat × Nat

/-- The switched domains and the pages they carry (R374, and R392 for the pages of chapter 18). Pages not listed lie in
an AO domain. Page ACL (0x099) lies in domains 26 and 27 and is treated apart. R374 names page CALD for no domain; it is listed with the traffic
common domain (log entry 107). -/
def domRows : List DomRow :=
  [(0x040, 9, 0, 0, 1), (0x060, 9, 0, 0, 1), (0x050, 9, 0, 9, 1), (0x069, 9, 0, 9, 1), (0x090, 8, 0, 18, 1), (0x0A8, 8, 0, 28, 1),
   (0x010, 8, 0, 36, 1), (0x018, 8, 0, 36, 1), (0x038, 8, 0, 36, 1), (0x0E8, 8, 0, 36, 1), (0x0C0, 1, 0, 44, 0),
   (0x0D0, 1, 0, 45, 0), (0x0D8, 8, 0, 45, 0), (0x020, 2, 0, 46, 0), (0x028, 1, 0, 46, 0), (0x030, 1, 0, 46, 0), (0x080, 2, 0, 46, 0),
   (0x098, 1, 0, 46, 0), (0x0A0, 3, 0, 46, 0), (0x0B0, 1, 0, 46, 0), (0x0F0, 1, 0, 46, 0),
   (0x1014, 4, 1, 0, 1), (0x1040, 12, 1, 6, 1), (0x1060, 4, 1, 20, 1), (0x1068, 4, 1, 20, 1), (0x1080, 1, 1, 24, 0),
   (0x1081, 2, 1, 26, 0), (0x1090, 2, 1, 27, 1), (0x1010, 2, 1, 4, 0), (0x1022, 1, 1, 4, 0),
   (0x1020, 2, 1, 5, 0), (0x1023, 2, 1, 5, 0), (0x1028, 4, 1, 5, 0), (0x1038, 8, 1, 5, 0),
   (0x1058, 2, 1, 18, 1), (0x1050, 4, 1, 18, 0), (0x10A0, 1, 1, 25, 0), (0x10A8, 8, 1, 25, 0),
   (0x1012, 2, 1, 29, 0), (0x1030, 1, 1, 29, 0), (0x1064, 1, 1, 29, 0), (0x1070, 1, 1, 29, 0), (0x1092, 1, 1, 29, 0), (0x10C0, 1, 1, 29, 0)]

/-- The switched domain of a page: die and number; `none` for a page of an AO domain. -/
def domOf (page : Nat) : Option (Nat × Nat) :=
  (domRows.find? fun r => r.1 ≤ page && page < r.1 + r.2.1).map fun r => (r.2.2.1, r.2.2.2.1 + r.2.2.2.2 * (page - r.1))

/-! ## The register file -/

/-- Whether offset `off` is one of the addresses of `r`. -/
def RegDef.covers (r : RegDef) (off : Nat) : Bool :=
  if off < r.off then false else
  let x := off - r.off
  let i := if r.n1 = 1 then 0 else x / r.s1
  let y := x - i * r.s1
  decide (i < r.n1) && (if r.n2 = 1 then y == 0 else y % r.s2 == 0 && decide (y / r.s2 < r.n2))

/-- The block bits of PG_INT_STAT by page kind, keyed by 0x1000 × die + first page: bits [n − 1:0] are defined by the owning chapter (R398). -/
def intBitTable : Sparse Nat :=
  [(0x001, 6), (0x002, 4), (0x010, 24), (0x018, 8), (0x020, 10), (0x028, 4), (0x030, 7), (0x040, 3), (0x050, 3), (0x060, 7), (0x080, 2), (0x081, 2),
   (0x090, 4), (0x098, 3), (0x099, 2), (0x0A0, 3), (0x0A1, 6), (0x0A2, 2), (0x0A8, 1), (0x0B0, 4), (0x0C0, 7), (0x0D0, 6), (0x0E0, 3), (0x0E1, 3),
   (0x0E2, 5), (0x0F0, 3)] ++
  [(0x1010, 3), (0x1011, 4), (0x1012, 3), (0x1013, 5), (0x1020, 2), (0x1021, 2), (0x1022, 2), (0x1023, 4), (0x1024, 1), (0x1030, 1), (0x1040, 16),
   (0x1050, 5), (0x1051, 4), (0x1052, 4), (0x1060, 6), (0x1064, 5), (0x1070, 3), (0x1080, 7), (0x1081, 7), (0x1082, 2), (0x1090, 4), (0x1092, 3),
   (0x10A0, 6), (0x10B0, 5), (0x10B1, 3), (0x10B2, 5), (0x10C0, 5)]

/-- The number of block bits in PG_INT_STAT of a page kind (R398). -/
def PageDef.intBits (d : PageDef) : Nat := sget 0 intBitTable (0x1000 * d.die + d.base)

/-- The bits that PG_INT_STAT, PG_INT_EN and PG_INT_SET of a page hold: its block bits and the common bits [31:27]; every other bit is reserved
(R14, R398). -/
def intMask (page : Nat) : Nat :=
  0xF8000000 + (match findPage page with
    | some d => 2 ^ d.intBits - 1
    | none => 0)

/-- The common header of every page and the table command registers (chapter 18, R165). -/
def headerRegs (d : PageDef) : List RegDef :=
  let n := d.intBits
  let cnt := d.regs.any (·.cnt) || (d.die = 1 && d.base = 0x024)
  [⟨0x008, 1, 0, 1, 0, false, [fd 31 1 .rw 1, fd 29 1 .rw 1]⟩,
   ⟨0x010, 1, 0, 1, 0, false, [fd 27 5 .w1c 0, fd 0 n .w1c 0]⟩,
   ⟨0x014, 1, 0, 1, 0, false, [fd 27 5 .rw 0, fd 0 n .rw 0]⟩,
   ⟨0x018, 1, 0, 1, 0, false, [fd 27 5 .wo 0, fd 0 n .wo 0]⟩,
   ⟨0x01C, 1, 0, 1, 0, false, [fd 31 1 .ro 0, fd 26 5 .ro 0, fd 0 26 .ro 0]⟩,
   ⟨0x020, 3, 4, 1, 0, false, [fd 0 32 .ro 0]⟩,
   ⟨0x030, 1, 0, 1, 0, false, [fd 0 1 .sc 0]⟩] ++
  (if d.user then [⟨0x038, 1, 0, 1, 0, false, [fd 31 1 .w1s 0, fd 0 2 .rw 0]⟩] else []) ++
  (if d.memory then [⟨0x03C, 1, 0, 1, 0, false,
    [fd 31 1 .sc 0, fd 30 1 .rw 0, fd 29 1 .rw 0, fa 23 6 .rw 0 0 35, fd 19 4 .rw 0, fa 13 6 .rw 0 0 35, fd 9 4 .rw 0]⟩] else []) ++
  (if cnt then [⟨0x040, 14, 4, 1, 0, false, [fd 0 32 .w1c 0]⟩, ⟨0x078, 1, 0, 1, 0, false, [fd 0 1 .w1c 0]⟩] else []) ++
  (if d.tables then [⟨0xF00, 1, 0, 1, 0, false, [fd 0 4 .wo 0]⟩, ⟨0xF04, 1, 0, 1, 0, false, [fd 0 32 .rw 0]⟩,
    ⟨0xF08, 1, 0, 1, 0, false, [fd 31 1 .ro 0, fd 30 1 .w1c 0, fd 8 8 .ro 0, fd 0 8 .ro 0]⟩,
    ⟨0xF10, 16, 4, 1, 0, false, [fd 0 32 .rw 0]⟩] else [])

/-- The register at a BAR0 offset, `none` at an unimplemented offset (R393). -/
def findReg (addr : Nat) : Option RegDef :=
  match findPage (addr / 0x1000) with
  | none => none
  | some d =>
    let off := addr % 0x1000
    (if off < 0x100 || 0xF00 ≤ off then headerRegs d else d.regs).find? (·.covers off)

/-- The value of all fields of a register at their reset values. -/
def RegDef.resetWord (r : RegDef) : Nat := r.fields.foldl (fun a f => setBits a f.lo f.w f.reset) 0

/-- Reset values that depend on the page, the index or the part, as their field descriptions state. -/
def regResetSpec (p : Part) (addr : Nat) : Option Nat :=
  let page := addr / 0x1000
  let off := addr % 0x1000
  let dorm := p.slices - 1
  if addr = Rg.D2D_CTRL 1 then some 0x40018
  else if addr = Rg.PWR_RESET_CAUSE 0 ∨ addr = Rg.PWR_RESET_CAUSE 1 then some 1
  else if (0x40 ≤ page ∧ page < 0x49 ∨ 0x50 ≤ page ∧ page < 0x59) ∧ off = 0x100 then
    some (if page % 16 = dorm then 0x100001 else 0x100000)
  else if (0x40 ≤ page ∧ page < 0x49 ∨ 0x50 ≤ page ∧ page < 0x59) ∧ off = 0x104 then
    some (if dorm ≤ page % 16 then 0 else
      (if p = .lmb4806 ∧ 0x50 ≤ page then 4096 else 2048) * 2 ^ 15)
  else if page = 0x80 ∧ 0x144 ≤ off ∧ off ≤ 0x154 then some 0x100
  else if page = 0x1070 ∧ (off = 0x15C ∨ off = 0x17C) then some 100
  else if page = 0x1070 ∧ 0x170 ≤ off ∧ off ≤ 0x178 then some (2 ^ 31 + 3600000)
  else if addr = Rg.HBM_REGION ∧ p = .lmb4806 then some 512
  else if page = 0xE0 ∧ off ∈ [0x100, 0x108, 0x110] then some (p.domsF % 2 ^ 32)
  else if page = 0xE0 ∧ off ∈ [0x104, 0x10C, 0x114] then some (p.domsF / 2 ^ 32)
  else if page = 0x10B0 ∧ off ∈ [0x100, 0x108, 0x110] then some p.domsT
  else if page = 0x10B0 ∧ off ∈ [0x104, 0x10C, 0x114] then some 0
  else if addr = Rg.FPM_LANE_EN 1 ∧ p = .lmb4806 then some 0xFFFF
  else if addr = Rg.FPM_LANE_EN 2 ∧ p = .lmb4806 then some 0
  else if addr = Rg.STEER_STAT then some (dorm * 2 ^ 20 + dorm * 2 ^ 16)
  else none

/-- The reset value of the register at a BAR0 offset (R18), 0 where none is defined. -/
def regReset (p : Part) (addr : Nat) : Nat :=
  match regResetSpec p addr with
  | some v => v
  | none =>
    match findReg addr with
    | some r => r.resetWord
    | none => 0

/-- The value a register holds. -/
def State.rd (s : State) (addr : Nat) : Nat := sget (regReset s.part addr) s.regs addr

/-- A register given a value (its low 32 bits, R14). -/
def State.wr (s : State) (addr v : Nat) : State :=
  { s with regs := sset (regReset s.part addr) s.regs addr (v % 2 ^ 32) }

/-- A field of a register. -/
def State.f (s : State) (addr : Nat) (fl : Fld) : Nat := bits (s.rd addr) fl.lo fl.w

/-- A field of a register given a value. -/
def State.setF (s : State) (addr : Nat) (fl : Fld) (x : Nat) : State :=
  s.wr addr (setBits (s.rd addr) fl.lo fl.w x)

/-- A one-bit field as a Boolean. -/
def State.fb (s : State) (addr : Nat) (fl : Fld) : Bool := s.f addr fl == 1

/-- A 64-bit value held as a _LO register and the _HI register that follows it. -/
def State.rd64 (s : State) (lo : Nat) : Nat := s.rd lo + 2 ^ 32 * s.rd (lo + 4)

/-- A 64-bit value written to a _LO register and the _HI register that follows it. -/
def State.wr64 (s : State) (lo v : Nat) : State := (s.wr lo (v % 2 ^ 32)).wr (lo + 4) (v / 2 ^ 32 % 2 ^ 32)

/-- Whether the domain of a page is powered: its bit in PWR_DOM_STAT (R375). -/
def State.domOn (s : State) (die d : Nat) : Bool := bit (s.rd (Rg.PWR_DOM_STAT die (d / 32))) (d % 32)

/-- Whether a page answers: the device is not held in reset (R378, R382), the page exists, is not fused off (R3) and its domain is on (R375, R392). -/
def State.pageOn (s : State) (page : Nat) : Bool :=
  !s.pw.por && !s.pw.sup && pagePresent s.part page &&
  (if page = 0x099 then s.domOn 0 26 || s.domOn 0 27 else
   match domOf page with
   | some (die, d) => s.domOn die d
   | none => true)

/-! ## Tables -/

/-- The key of entry `i` of table `t` of a page (BAR0 offset of the page). -/
def tkey (pg t i : Nat) : Nat := (pg / 0x1000 * 64 + t) * 2 ^ 32 + i

/-- The slice that a bucket entry names at reset (R90): entries of absent line groups name none (0xF). -/
def bucketReset (slices dir i : Nat) : Nat :=
  if slices = 5 ∧ dir = 0 ∧ 8192 ≤ i then 0xF else i % (slices - 1)

/-- The reset value of a table entry, as one number with TBL_DATA0 its low 32 bits; tables not named reset to 0. -/
def tblReset (p : Part) (key : Nat) : Nat :=
  let t := key / 2 ^ 32
  let i := key % 2 ^ 32
  if t = Pg.DMA / 0x1000 * 64 + 1 then 1024
  else if t = Pg.ADM / 0x1000 * 64 + 0 then 65536 + 1024 * 2 ^ 32 + 4096 * 2 ^ 64
  else if t = Pg.ADM / 0x1000 * 64 + 1 then 0xFFFFFF + 0xFFFFFE * 2 ^ 32
  else if t = Pg.EQS / 0x1000 * 64 + 1 ∨ t = Pg.EQS / 0x1000 * 64 + 2 then 0x00100000
  else if t = Pg.EQS / 0x1000 * 64 + 3 then i % 8 * 2 ^ 28 + 2 ^ 20 + 4096 * 2 ^ 32
  else if t = Pg.FCELL / 0x1000 * 64 + 0 then
    (if i / 256 % 128 < p.fabLanes ∧ 1 ≤ i % 128 ∧ i % 128 ≤ 99 then 0x40000000 else 0)
  else if t = Pg.FCELL / 0x1000 * 64 + 1 then 1
  else if t = Pg.STEER / 0x1000 * 64 + 0 ∨ t = Pg.STEER / 0x1000 * 64 + 1 then
    bucketReset p.slices (t % 64) i
  else 0

/-- The entry of a table. -/
def State.tbl (s : State) (pg t i : Nat) : Nat := sget (tblReset s.part (tkey pg t i)) s.tbls (tkey pg t i)

/-- The entry of a table replaced. -/
def State.setTbl (s : State) (pg t i v : Nat) : State :=
  { s with tbls := sset (tblReset s.part (tkey pg t i)) s.tbls (tkey pg t i) v }

/-- A bit field of a table entry. -/
def State.tf (s : State) (pg t i lo w : Nat) : Nat := bits (s.tbl pg t i) lo w

/-- A bit field of a table entry replaced. -/
def State.setTf (s : State) (pg t i lo w x : Nat) : State :=
  s.setTbl pg t i (setBits (s.tbl pg t i) lo w x)

/-- Entries `first` to `first + n − 1` of a table returned to their reset value. -/
def State.clrTbl (s : State) (pg t first n : Nat) : State :=
  { s with tbls := s.tbls.filter fun e => !(tkey pg t first ≤ e.1 && e.1 < tkey pg t first + n) }

/-! ## Errors of stored words, free values, time -/

/-- The key of a stored word: page, memory within the page, word address (R304). -/
def wkey (pg mem addr : Nat) : Nat := (pg / 0x1000 * 256 + mem) * 2 ^ 56 + addr

/-- What is wrong with a stored word. -/
def State.mark (s : State) (pg mem addr : Nat) : WordErr := sget {} s.marks (wkey pg mem addr)

/-- A stored word's errors set. -/
def State.setMark (s : State) (pg mem addr : Nat) (e : WordErr) : State := { s with marks := sset {} s.marks (wkey pg mem addr) e }

/-- Whether a stored word reads as uncorrectable or poisoned. -/
def State.badWord (s : State) (pg mem addr : Nat) : Bool := decide (2 ≤ (s.mark pg mem addr).kind)

/-- A free value of `w` bits: nothing constrains it (see the assumption log). -/
def State.freeVal (s : State) (w : Nat) : Nat := Config.freeValue s.free % 2 ^ w

/-- The state after a free value is drawn. -/
def State.draw (s : State) : State := { s with free := s.free + 1 }

/-- The absolute core clock of clock `c` of the current tick (R8). -/
def State.at (s : State) (c : Nat) : Nat := s.tk.start + c

/-- TICK_COUNT (R38). -/
def State.tickCount (s : State) : Nat := (s.tk.count - s.tk.base) % 2 ^ 64

/-- What leaves the device is recorded, newest first. -/
def State.emit (s : State) (e : Emit) : State := { s with out := e :: s.out }

/-- Whether a die-to-die link state of DOWN is reported (R35). -/
def State.d2dDown (s : State) : Bool := s.f (Rg.D2D_STAT 0) Fd.D2D_STAT_STATE == 0

/-- A list kept to its first `n` elements. -/
def keep {α : Type} (n : Nat) (l : List α) : List α := l.take n

end Sys2Proof.Machine
end

