-- ==== Sys2Proof/Machine/Flags.lean ====
section
/-! DEFINITION. Event flags and counters: interrupt sources and MSI-X messages (R361 to R363), PG_INT_STAT with its
first-bit capture (R398, R399), counters with sticky overflow (R313, R314), error capture (R304), the event log (R354). -/
namespace Sys2Proof.Machine

/-! ## Interrupt sources -/

/-- Whether a path to the F-die works: the data link or the management path (R35, R36). -/
def State.pathUp (s : State) : Bool := !s.d2dDown || s.d2.mgmtUp

/-- Whether any present page of a die has bit `b` of PG_INT_STAT set (R312). -/
def State.anyInt (s : State) (die b : Nat) : Bool :=
  s.regs.any fun e => e.1 / 0x1000000 == die && e.1 % 0x1000 == 0x010 && bit e.2 b && pagePresent s.part (e.1 / 0x1000)

/-- The condition of source `n` on its own die (R361). -/
def State.srcLevel (s : State) (n : Nat) : Bool :=
  if n < 512 then
    let pg := n / 256 * 0x1000000 + n % 256 * 0x1000
    pagePresent s.part (pg / 0x1000) && (s.rd (pg + 0x010) &&& s.rd (pg + 0x014)) != 0
  else if n < 576 then s.ringDue.contains (n - 512)
  else if n = 576 then s.fb (Rg.PCIE_STAT 0) Fd.PCIE_STAT_SAFE
  else if n = 577 then s.anyInt 0 30
  else if n = 578 then s.anyInt 0 31
  else if n = 579 then s.anyInt 1 30
  else if n = 580 then s.anyInt 1 31
  else false

/-- Whether a source belongs to the F-die. -/
def srcOnF (n : Nat) : Bool := n < 256 || n == 577 || n == 578

/-- Whether the aggregator finds source `n` asserted: F-die sources hold their last state while neither path works (R361). -/
def State.irqSrc (s : State) (n : Nat) : Bool :=
  if srcOnF n && !s.pathUp then s.irqHeld.contains n else s.srcLevel n

/-- A PCIe port's MSI-X state. -/
def State.pcie (s : State) (p : Nat) : PcieSt := if p = 0 then s.pcie0 else s.pcie1

/-- A PCIe port's MSI-X state replaced. -/
def State.setPcie (s : State) (p : Nat) (x : PcieSt) : State :=
  if p = 0 then { s with pcie0 := x } else { s with pcie1 := x }

/-- The place of a counter's word among the overflow registers: PG_CNT_OVFw bit b (R314). -/
def ovfPlace (addr : Nat) : Nat × Nat := ((addr % 0x1000 - 0x100) / 4 / 32, (addr % 0x1000 - 0x100) / 4 % 32)

/-- PG_INT_STAT bits set, with the capture of R399 and without the interrupt edge. -/
def State.setIntRaw (s : State) (pg mask : Nat) : State :=
  let old := s.rd (pg + 0x010)
  let s' := s.wr (pg + 0x010) (old ||| mask)
  if old = 0 ∧ mask ≠ 0 then
    s'.wr (pg + 0x01C) (2 ^ 31 + mask.log2 * 2 ^ 26 + s.tickCount % 2 ^ 26)
  else s'

/-- One MSI-X message of a port for a vector: sent, or its pending bit set where it is masked (R362). -/
def State.sendMsg (s : State) (p vec : Nat) : State :=
  let x := s.pcie p
  let v := sget {} x.vecs vec
  if x.fmask || v.mask then
    s.setPcie p { x with vecs := sset {} x.vecs vec { v with pending := true } }
  else
    let a := Rg.IRQ_MSG_CNT p
    let n := s.rd a + 1
    let s' := (s.wr a n).emit (.msix p vec v.addr v.data)
    if n < 2 ^ 32 then s' else
      let (w, b) := ovfPlace a
      (s'.wr (Pg.IRQ + 0x040 + 4 * w) (setBit (s'.rd (Pg.IRQ + 0x040 + 4 * w)) b)).setIntRaw Pg.IRQ (2 ^ 28)

/-- A source rises: each port to which the source map sends it gets one message for the vector, unless MSI-X is
disabled on the port or its link is not up (R362). -/
def State.raiseOn (s : State) (n p : Nat) : State :=
  let e := s.tbl Pg.IRQ 0 n
  if bit e (30 + p) && (s.pcie p).msixEn && s.fb (Rg.PCIE_STAT p) Fd.PCIE_STAT_LINK_UP then
    s.sendMsg p (bits e (8 * p) 8)
  else s

/-- A source rises, on both ports in turn. -/
def State.raiseSrc (s : State) (n : Nat) : State := (s.raiseOn n 0).raiseOn n 1

/-- `f` applied, with a message for each of the sources `ns` that it makes rise (R362). -/
def State.withEdges (s : State) (ns : List Nat) (f : State → State) : State :=
  let s' := f s
  ns.foldl (fun t n => if !s.irqSrc n && s'.irqSrc n then t.raiseSrc n else t) s'

/-- The interrupt source of a page's PG_INT_STAT (R361), with the summary sources of its die. -/
def pageSrcs (pg mask : Nat) : List Nat :=
  let die := pg / 0x1000000
  [256 * die + pg / 0x1000 % 256] ++ (if bit mask 30 then [577 + 2 * die] else []) ++
    (if bit mask 31 then [578 + 2 * die] else [])

/-- PG_INT_STAT bits of a page set as one event (R398), unless the page's domain is off. -/
def State.setInts (s : State) (pg mask : Nat) : State :=
  if s.pageOn (pg / 0x1000) then s.withEdges (pageSrcs pg mask) (fun t => t.setIntRaw pg mask) else s

/-- One PG_INT_STAT bit set. -/
def State.setInt (s : State) (pg b : Nat) : State := s.setInts pg (2 ^ b)

/-- `setInt` under a condition. -/
def State.setIntIf (s : State) (c : Bool) (pg b : Nat) : State := if c then s.setInt pg b else s

/-! ## Counters -/

/-- A sticky overflow bit set, raising CNT_OVF when it was 0 (R314, R398). -/
def State.setOvf (s : State) (pg off b : Nat) : State :=
  let a := pg + off
  if bit (s.rd a) b then s else (s.wr a (setBit (s.rd a) b)).setInt pg 28

/-- A 32-bit counter advanced by `n`, wrapping with sticky overflow (R313, R314). Counters of a page whose domain is off do not count. -/
def State.bump (s : State) (addr : Nat) (n : Nat := 1) : State :=
  if !s.pageOn (addr / 0x1000) then s else
  let v := s.rd addr + n
  let s' := s.wr addr v
  if v < 2 ^ 32 then s' else
    let (w, b) := ovfPlace addr
    s'.setOvf (addr / 0x1000 * 0x1000) (0x040 + 4 * w) b

/-- A 64-bit counter advanced by `n`; it reports on the bit of its _HI word (R314). -/
def State.bump64 (s : State) (lo : Nat) (n : Nat := 1) : State :=
  if !s.pageOn (lo / 0x1000) then s else
  let v := s.rd64 lo + n
  let s' := s.wr64 lo v
  if v < 2 ^ 64 then s' else
    let (w, b) := ovfPlace (lo + 4)
    s'.setOvf (lo / 0x1000 * 0x1000) (0x040 + 4 * w) b

/-- `bump` under a condition. -/
def State.bumpIf (s : State) (c : Bool) (addr : Nat) : State := if c then s.bump addr else s

/-- A counter held in a table of the page wrapped: PG_CNT_OVF_TBL (R314). -/
def State.setOvfTbl (s : State) (pg : Nat) : State := s.setOvf pg 0x078 0

/-- A per-tick overrun of block `n` counted (R50). -/
def State.overrun (s : State) (n : Nat) : State := (s.bump (Rg.TICK_OVR_CNT n)).setInt Pg.TICK Ib.TICK_OVERRUN

/-- A saturating or level register of kind RC that keeps the highest value seen since its last read. -/
def State.peak (s : State) (addr v : Nat) : State := if s.rd addr < v then s.wr addr v else s

/-- BUF_PAGES_FREE set. The register file holds in BUF_PAGES_LOW one more than the fewest since the last read, 0 where the level has not
changed since. -/
def State.setFree (s : State) (n : Nat) : State :=
  let m := min (s.rd Rg.BUF_PAGES_FREE) n + 1
  let low := s.rd Rg.BUF_PAGES_LOW
  (s.wr Rg.BUF_PAGES_FREE n).wr Rg.BUF_PAGES_LOW (if low = 0 then m else min low m)

/-! ## Error capture -/

/-- An error of a page's memory captured: KIND 1 corrected, 2 uncorrectable, 3 poison read (R304). `setCe` is false
while the class is in storm: then capture continues and only the CE bit stays clear (R311). -/
def State.captureErr (s : State) (pg kind : Nat) (mem addr : Nat) (sinter : Bool) (symbol pattern syn : Nat)
    (half : Nat := 0) (setCe : Bool := true) : State :=
  let ce := bit (s.rd (pg + 0x010)) 30
  let ue := bit (s.rd (pg + 0x010)) 31
  let fill := !ue && (!ce || 2 ≤ kind)
  let s1 := if !fill then s else
    ((s.wr (pg + 0x020) addr).wr (pg + 0x024) (mem * 2 ^ 24 + addr / 2 ^ 32 % 2 ^ 24)).wr (pg + 0x028)
      (kind * 2 ^ 30 + half * 2 ^ 29 + b2n sinter * 2 ^ 28 + (if kind = 1 then symbol * 2 ^ 22 + pattern * 2 ^ 18 else 0) + syn % 2 ^ 16)
  if 2 ≤ kind then s1.setInt pg 31 else if setCe then s1.setInt pg 30 else s1

/-! ## The event log -/

/-- One record written to the ring of 32,768 with the next LSEQ; two eMRAM words of 16 bytes (R298, R354). -/
def State.putRec (s : State) (r : LogRec) : State :=
  let seq := (s.rd Rg.EMRAM_LOG_SEQ + 1) % 2 ^ 32
  let wp := 2 * s.rd Rg.EMRAM_LOG_WP + 0x2C000
  let s1 := (({ s with lg := { s.lg with recs := keep 32768 ({ r with lseq := seq } :: s.lg.recs) } }.setMark Pg.EMRAM 0 wp {})
    |>.setMark Pg.EMRAM 0 (wp + 1) {})
  ((s1.wr Rg.EMRAM_LOG_SEQ seq).wr Rg.EMRAM_LOG_WP ((s.rd Rg.EMRAM_LOG_WP + 1) % 32768)).bump64 Rg.EMRAM_WRITE_CNT_LO 2

/-- A record presented to the log engine: written, or dropped over EMRAM_LOG_CFG.RATE of the second (R354). -/
def State.logPut (s : State) (r : LogRec) : State :=
  if s.lg.written < s.f Rg.EMRAM_LOG_CFG Fd.EMRAM_LOG_CFG_RATE then
    { s.putRec r with lg := { (s.putRec r).lg with written := s.lg.written + 1 } }
  else
    ({ s with lg := { s.lg with dropped := s.lg.dropped + 1 } }.bump Rg.EMRAM_LOG_DROP_CNT).setInt Pg.EMRAM Ib.EMRAM_LOG_DROP

/-- An event of a page logged. F-die events cross on either path; while neither works the F-die holds up to 64 (R354). -/
def State.log (s : State) (pg code data : Nat) : State :=
  let die := pg / 0x1000000
  let r : LogRec := ⟨0, s.tickCount, s.ptp.ns, s.ptp.sec, code, die * 2 ^ 15 + pg / 0x1000 % 2 ^ 12, data % 2 ^ 48⟩
  if die = 0 && !s.pathUp then
    if s.lg.held.length < 64 then { s with lg := { s.lg with held := s.lg.held ++ [r] } }
    else { s with lg := { s.lg with heldDropped := s.lg.heldDropped + 1 } }
  else s.logPut r

/-- A path to the F-die returned: the held F-die records are written in order (R354), and F-die sources that rose
meanwhile reach the aggregator (R361). -/
def State.pathBack (s : State) : State :=
  let n := s.lg.heldDropped
  let s0 : State := { s with lg := { s.lg with held := [], heldDropped := 0, dropped := s.lg.dropped + n } }
  let s0 := if n = 0 then s0 else (s0.bump Rg.EMRAM_LOG_DROP_CNT n).setInt Pg.EMRAM Ib.EMRAM_LOG_DROP
  let s1 := s.lg.held.foldl (fun t r => t.logPut r) s0
  let was := s.irqHeld
  ((List.range 256 ++ [577, 578]).foldl (fun t n => if !was.contains n && s1.srcLevel n then t.raiseSrc n else t)
    { s1 with irqHeld := [] })

/-- The last path to the F-die fails: the aggregator keeps the F-die sources as they stand (R361). -/
def State.pathLost (s : State) : State :=
  { s with irqHeld := (List.range 256 ++ [577, 578]).filter s.srcLevel }

/-- `f` applied, with what a loss or a return of the paths to the F-die entails. -/
def State.withPaths (s : State) (f : State → State) : State :=
  let s' := f s
  if s.pathUp && !s'.pathUp then { s' with irqHeld := s.pathLost.irqHeld }
  else if !s.pathUp && s'.pathUp then s'.pathBack
  else s'

end Sys2Proof.Machine
end

