-- ==== Sys2Proof/Machine/Operands.lean ====
section
/-! DEFINITION. Operand forms of the register commands: who accesses, what discards an access (R14, R36, R315, R331,
R392), how each field kind takes a write (R16, R17), and staging (R58, R393). -/
namespace Sys2Proof.Machine

/-- The number of a requester, as CMT_STAT.OWNER and R359 order them. -/
def reqNo : Requester → Nat
  | .pcie0 => 0
  | .pcie1 => 1
  | .sc0 => 2
  | .sc1 => 3

/-- Whether the requester is a PCIe port, and which. -/
def portOf : Requester → Option Nat
  | .pcie0 => some 0
  | .pcie1 => some 1
  | _ => none

/-- Whether the requester's access to a die arrives: an access to the own die of a controller always does; every other
access to the F-die, and SC0's access to the T-die, needs a path (R36). Ports and SC1 lie on the T-die. -/
def State.reaches (s : State) (r : Requester) (addr : Nat) : Bool :=
  let onF := decide (addr < 0x1000000)
  match r with
  | .sc0 => onF || s.pathUp
  | _ => !onF || s.pathUp

/-- SC_STAT.ROLE of controller `k`. -/
def State.scRole (s : State) (k : Nat) : Nat := s.f (Rg.SC_STAT k) Fd.SC_STAT_ROLE

/-- Whether both controllers are ACTIVE: the split of R335. -/
def State.split (s : State) : Bool := s.scRole 0 == 3 && s.scRole 1 == 3

/-- Whether a controller may write at an address: anywhere while it is ACTIVE, in the split only on its own die, and
always in its own SC page and in EMRAM_LOG_POST0–2 (R331, R335). -/
def State.scMayWrite (s : State) (k addr : Nat) : Bool :=
  addr / 0x1000 * 0x1000 == Pg.SC k ||
  decide (Rg.EMRAM_LOG_POST0 ≤ addr ∧ addr ≤ Rg.EMRAM_LOG_POST2) ||
  (s.scRole k == 3 && (!s.split || addr / 0x1000000 == k))

/-- A write access judged before any field sees it: the counts of a discarded write, and whether it goes on. -/
def State.judgeWrite (s : State) (a : Acc) (addr : Nat) : State × Bool :=
  match portOf a.req with
  | some p =>
    let s1 := if a.be ≠ 15 then (s.bump (Rg.PCIE_PARTIAL_WR_CNT p)).setInt (Pg.PCIE p) Ib.PCIE_PARTIAL_WR else s
    let s2 := if a.user then s1.bump (Rg.PCIE_USER_WR_CNT p) else s1
    if a.be ≠ 15 ∨ a.user then (s2, false)
    else if !s.reaches a.req addr then
      ((s2.bump (Rg.PCIE_FDIE_FAIL_CNT p)).setInt (Pg.PCIE p) Ib.PCIE_FDIE_FAIL, false)
    else (s2, s.pageOn (addr / 0x1000))
  | none =>
    let k := reqNo a.req - 2
    if a.be ≠ 15 then (s, false)
    else if !s.scMayWrite k addr then (s.bump (Rg.SC_STANDBY_WR_CNT k), false)
    else (s, s.reaches a.req addr && s.pageOn (addr / 0x1000))

/-- The effect of an accepted register write, or the counts of a discarded one. -/
def State.onWrite (s : State) (a : Acc) (addr : Nat) (eff : State → State) : State :=
  let j := s.judgeWrite a addr
  if j.2 then eff j.1 else j.1

/-! ## Reads with an effect -/

/-- What a user read may return: the counters and overflow registers under USER_CNT, the RO and RC status and level
registers of 0x100–0x7FF under USER_STAT (R315, R358). -/
def State.userMayRead (s : State) (addr : Nat) : Bool :=
  let off := addr % 0x1000
  let acc := s.rd (addr / 0x1000 * 0x1000 + 0x038)
  match findPage (addr / 0x1000) with
  | none => false
  | some d =>
    d.user && (if 0x040 ≤ off && off < 0x07C then bit acc 0 else
      match findReg addr with
      | none => false
      | some r => decide (0x100 ≤ off ∧ off < 0x800) &&
          (if r.cnt then bit acc 0 else bit acc 1 && r.fields.all fun f => f.kind = .ro || f.kind = .rc))

/-- A read judged before the register sees it: the counts of a denied or unreachable read with the data it returns, or
`none` where the read reaches the register (R14, R36, R315, R375). -/
def State.judgeRead (s : State) (a : Acc) (addr : Nat) : State × Option Nat :=
  if a.user && !s.userMayRead addr then
    (match portOf a.req with
     | some p => s.bump (Rg.PCIE_USER_DENY_CNT p)
     | none => s, some 0)
  else if !s.reaches a.req addr then
    (match portOf a.req with
     | some p => (s.bump (Rg.PCIE_FDIE_FAIL_CNT p)).setInt (Pg.PCIE p) Ib.PCIE_FDIE_FAIL
     | none => s, some 0xFFFFFFFF)
  else if s.pageOn (addr / 0x1000) then (s, none)
  else (s, some 0)

/-- A register read with an effect: `eff` answers the state after it and the data. -/
def State.onRead (s : State) (a : Acc) (addr : Nat) (eff : State → State × Nat) : State :=
  let j := s.judgeRead a addr
  match j.2 with
  | some v => { j.1 with rsp := some v }
  | none => let r := eff j.1; { r.1 with rsp := some r.2 }

/-! ## Field kinds -/

/-- Whether a value is one of the field's encodings that are not reserved (R17). -/
def FieldDef.ok (f : FieldDef) (x : Nat) : Bool := decide (f.amin ≤ x ∧ x ≤ f.amax)

/-- A live field after a write of `v` to its register (R16). Reserved encodings leave it (R17); a set LOCK of
PG_ACCESS (bit 31) keeps the register. -/
def FieldDef.write (f : FieldDef) (cur v : Nat) : Nat :=
  let x := bits v f.lo f.w
  match f.kind with
  | .rw => if f.ok x then setBits cur f.lo f.w x else cur
  | .w1c => setBits cur f.lo f.w (bits cur f.lo f.w &&& (2 ^ f.w - 1 - x))
  | .w1s => setBits cur f.lo f.w (bits cur f.lo f.w ||| x)
  | _ => cur

/-- The register value after a write acts on every field that is not staged. -/
def RegDef.writeLive (r : RegDef) (cur v : Nat) : Nat := r.fields.foldl (fun c f => f.write c v) cur

/-- The staged value after a write acts on the ST fields. -/
def RegDef.writeStaged (r : RegDef) (cur v : Nat) : Nat :=
  r.fields.foldl (fun c f => if f.kind = .st ∧ f.ok (bits v f.lo f.w) then setBits c f.lo f.w (bits v f.lo f.w) else c) cur

/-- Whether a write carries a reserved encoding in a field that takes writes (R17). -/
def RegDef.reserved (r : RegDef) (v : Nat) : Bool :=
  r.fields.any fun f => (f.kind = .rw || f.kind = .st || f.kind = .wo || f.kind = .sc) && !f.ok (bits v f.lo f.w)

/-- Whether the register has ST fields. -/
def RegDef.staged (r : RegDef) : Bool := r.fields.any (·.kind = .st)

/-- The mask of the ST fields of a register. -/
def RegDef.stMask (r : RegDef) : Nat := r.fields.foldl (fun a f => if f.kind = .st then setBits a f.lo f.w (2 ^ f.w - 1) else a) 0

/-- The mask of the ST fields of the register at an address. -/
def stMaskAt (addr : Nat) : Nat := (findReg addr).elim 0 RegDef.stMask

/-- A register with its ST fields replaced by those of `x`. -/
def State.withSt (s : State) (addr x : Nat) : Nat := (s.rd addr &&& (2 ^ 32 - 1 - stMaskAt addr)) ||| (x &&& stMaskAt addr)

/-- A register with its staged values in place of its ST fields (their live values where nothing is staged). -/
def State.staged (s : State) (addr : Nat) : Nat := s.withSt addr (sget (s.rd addr &&& stMaskAt addr) s.shadows addr)

/-- A staged field. -/
def State.sf (s : State) (addr : Nat) (fl : Fld) : Nat := bits (s.staged addr) fl.lo fl.w

/-- The staged ST fields of a register set; a shadow equal to the live value is not pending (R400). -/
def State.setStaged (s : State) (addr v : Nat) : State :=
  { s with shadows := sset (s.rd addr &&& stMaskAt addr) s.shadows addr (v &&& stMaskAt addr) }

/-- Whether the commit state is OPEN and no DISCARD runs (R58, R60). -/
def State.stageOpen (s : State) : Bool :=
  s.f Rg.CMT_STAT Fd.CMT_STAT_STATE == 0 && !s.fb Rg.CMT_STAT Fd.CMT_STAT_BUSY

/-- A staging write ignored outside OPEN is counted (R58). -/
def State.lateWrite (s : State) : State := (s.bump Rg.CMT_LATE_WRITE_CNT).setInt Pg.CMT Ib.CMT_LATE_WRITE

/-- A write acts on the ST fields of a register: staged, or ignored and counted late outside OPEN. A live-address write
to a register that mixes kinds counts as a staging write only when it would change a staged value (R58). -/
def State.stageWrite (s : State) (r : RegDef) (addr v : Nat) (shadowAddr : Bool) : State :=
  let cur := s.staged addr
  let new := r.writeStaged cur v
  let mixed := r.fields.any (fun f => f.kind = .rw || f.kind = .w1c || f.kind = .w1s || f.kind = .wo || f.kind = .sc)
  if s.stageOpen then s.setStaged addr new
  else if new = cur ∧ mixed ∧ !shadowAddr then s else s.lateWrite

/-- The live fields of a write take effect, a reserved encoding flags RSVD_WR (R17, R398), and the ST fields are staged. -/
def State.fieldWrite (s : State) (addr v : Nat) : State :=
  let off := addr % 0x1000
  let pg := addr / 0x1000 * 0x1000
  if 0x800 ≤ off && off < 0xF00 then
    match findReg (addr - 0x700) with
    | some r =>
      if r.staged then
        (s.stageWrite r (addr - 0x700) v true).setIntIf
          (r.fields.any fun f => f.kind = .st && !f.ok (bits v f.lo f.w)) pg 29
      else s
    | none => s
  else
    match findReg addr with
    | none => s
    | some r =>
      let s1 := s.wr addr (r.writeLive (s.rd addr) v)
      let s2 := if r.staged then s1.stageWrite r addr v false else s1
      s2.setIntIf (r.reserved v) pg 29

/-! ## 64-bit values -/

/-- The key of a requester's latch or held half of the 64-bit value whose _LO register is at `lo` (R15). -/
def loKey (r : Requester) (lo : Nat) : Nat := lo * 4 + reqNo r

/-- A _LO half written: held for the requester, replacing what it held (R15). -/
def State.holdLo (s : State) (r : Requester) (lo v : Nat) : State :=
  { s with loHeld := sset 0 s.loHeld (loKey r lo) (v % 2 ^ 32 + 1) }

/-- The 64-bit value that a write of `v` to the _HI half makes: with the half that the requester holds, which is then
cleared, or with the low half unchanged (R15). -/
def State.takeLo (s : State) (r : Requester) (lo v : Nat) : State × Nat :=
  let h := sget 0 s.loHeld (loKey r lo)
  ({ s with loHeld := sset 0 s.loHeld (loKey r lo) 0 }, v % 2 ^ 32 * 2 ^ 32 + (if h = 0 then s.rd lo else h - 1))

end Sys2Proof.Machine
end

