-- ==== Sys2Proof/Machine/LinePorts.lean ====
section
/-! DEFINITION. Line ports (chapter 3, R64 to R88): link bring-up, FEC, MAC receive, PFC reception, FlexE, the PTP time
of day, pulse and SyncE pins. Port `p` is channel `p % 8` of line group `p / 8`. -/
namespace Sys2Proof.Machine

/-- LPORT_STAT.LINK_STATE encodings (R66). -/
abbrev lkDown : Nat := 0
abbrev lkTraining : Nat := 1
abbrev lkAligning : Nat := 2
abbrev lkHold : Nat := 3
abbrev lkUp : Nat := 4

/-- Whether a port number is one of the part's and its line group is powered. -/
def State.lportOn (s : State) (p : Nat) : Bool := decide (p < s.part.lanes) && s.pageOn (0x010 + p / 8)

/-- A line port outside its registers. -/
def State.lport (s : State) (p : Nat) : LinePort := sget {} s.ports p

/-- A line port outside its registers, replaced. -/
def State.setLport (s : State) (p : Nat) (x : LinePort) : State := { s with ports := sset {} s.ports p x }

/-- Registers of a port. -/
abbrev lpCfg (p : Nat) : Nat := Rg.LPORT_CFG (p / 8) (p % 8)
abbrev lpCtrl (p : Nat) : Nat := Rg.LPORT_CTRL (p / 8) (p % 8)
abbrev lpStat (p : Nat) : Nat := Rg.LPORT_STAT (p / 8) (p % 8)
abbrev lpPfcCfg (p : Nat) : Nat := Rg.LPORT_PFC_CFG (p / 8) (p % 8)
abbrev lpPfcStat (p : Nat) : Nat := Rg.LPORT_PFC_STAT (p / 8) (p % 8)
abbrev laneCfg (l : Nat) : Nat := Rg.LSER_LANE_CFG (l / 8) (l % 8)
abbrev laneStat (l : Nat) : Nat := Rg.LSER_LANE_STAT (l / 8) (l % 8)

/-- Channel counter `i` of a port: the _LO half of its pair. -/
abbrev lpCnt (p i : Nat) : Nat := Rg.LPORT_RX_FRAMES_LO (p / 8) (p % 8) + 8 * i

/-- A channel counter advanced. -/
def State.lpBump (s : State) (p i : Nat) (n : Nat := 1) : State := s.bump64 (lpCnt p i) n

/-- LPORT_STAT.LINK_STATE. -/
def State.lkState (s : State) (p : Nat) : Nat := s.f (lpStat p) Fd.LPORT_STAT_LINK_STATE

/-- Whether a port is UP. -/
def State.lkIsUp (s : State) (p : Nat) : Bool := s.lkState p == lkUp

/-- LPORT_CFG fields. -/
def State.lpSpeed (s : State) (p : Nat) : Nat := s.f (lpCfg p) Fd.LPORT_CFG_SPEED
def State.lpFlexe (s : State) (p : Nat) : Nat := s.f (lpCfg p) Fd.LPORT_CFG_FLEXE

/-- Whether a channel is a FlexE client port (R77). -/
def State.isClient (s : State) (p : Nat) : Bool := decide (2 ≤ s.lpFlexe p)

/-- Whether a line port is configured (R77). -/
def State.lpConfigured (s : State) (p : Nat) : Bool := s.lpSpeed p != 0 || s.isClient p

/-- The data rate of SPEED, in Gb/s (R64). -/
def speedRate (speed : Nat) : Nat := if speed = 0 then 0 else 100 * 2 ^ (speed - 1)

/-- The data rate of a lane, in Gb/s (R64). -/
def laneRate (r : Nat) : Nat := if r = 0 then 200 else if r = 1 then 100 else 50

/-- The lanes that a port owns, from its LPORT_CFG word (R64). -/
def cfgLanes (cfg : Nat) : Nat :=
  speedRate (bits cfg 4 4) / laneRate (bits cfg 8 3)

/-- The lanes of a port, as lane numbers. -/
def State.lpLanes (s : State) (p : Nat) : List Nat := (List.range (cfgLanes (s.rd (lpCfg p)))).map (p + ·)

/-! ## FlexE connection memory -/

/-- The FlexE engine of a port and its channel within the engine (R75, R76). -/
def flexEngine (p : Nat) : Nat := p / 32
def flexChan (p : Nat) : Nat := p % 32

/-- The connection memory entry of a page (0 transmit A, 1 transmit B, 2 receive A, 3 receive B), group and slot. -/
def State.flexSlot (s : State) (e page k slot : Nat) : Nat := s.tbl (Pg.FLEXE e) 0 (page * 2 ^ 14 + k * 2 ^ 11 + slot)

/-- Slots of a group's calendar: 20 for each 100 Gb/s of its PHYs (R76), from FLEXE_GRP_PHYS and the PHYs' SPEED. -/
def State.flexSlots (s : State) (e k : Nat) : Nat :=
  ((onesOf 32 (s.rd (Rg.FLEXE_GRP_PHYS e k))).map fun c => speedRate (s.lpSpeed (32 * e + c)) / 5).sum

/-- Whether a slot names a channel. -/
def slotNames (x c : Nat) : Bool := bit x 7 && x % 32 == c

/-- The slots of a page of a group that name a channel. -/
def State.slotsOf (s : State) (e page k c : Nat) : List Nat :=
  (List.range (s.flexSlots e k)).filter fun i => slotNames (s.flexSlot e page k i) c

/-- The receive page of a group in use (R78). -/
def State.rxPage (s : State) (e k : Nat) : Nat := 2 + s.f (Rg.FLEXE_GRP_STAT e k) Fd.FLEXE_GRP_STAT_RX_CAL_INUSE

/-- The group that carries a client port: enabled, with a valid slot of its receive page in use that names it (R77). -/
def State.clientGroup (s : State) (p : Nat) : Option Nat :=
  let e := flexEngine p
  (List.range 8).find? fun k => s.fb (Rg.FLEXE_GRP_CFG e k) Fd.FLEXE_GRP_CFG_EN &&
    !(s.slotsOf e (s.rxPage e k) k (flexChan p)).isEmpty

/-- A port's data rate in Gb/s: its SPEED, or for a client 5 Gb/s for each of its slots (R76, R77). -/
def State.portRate (s : State) (p : Nat) : Nat :=
  if s.isClient p then
    match s.clientGroup p with
    | some k => 5 * (s.slotsOf (flexEngine p) (s.rxPage (flexEngine p) k) k (flexChan p)).length
    | none => 0
  else speedRate (s.lpSpeed p)

/-! ## Link states -/

/-- LF and RF of LPORT_STAT: a local fault is detected without alignment lock, or received (R68). -/
def State.lpRefresh (s : State) (p : Nat) : State :=
  let x := s.lport p
  let lf := x.rxLf || (s.lkState p != lkDown && !s.fb (lpStat p) Fd.LPORT_STAT_AM_LOCK)
  let s1 := (s.setF (lpStat p) Fd.LPORT_STAT_LF (b2n lf)).setF (lpStat p) Fd.LPORT_STAT_RF (b2n x.rxRf)
  s1.setLport p { x with sawLf := x.sawLf || lf, sawRf := x.sawRf || x.rxRf, sawDown := x.sawDown || !s.lkIsUp p }

/-- A link state entered, with LF and RF brought up to it. -/
def State.lkEnter (s : State) (p st : Nat) : State := (s.setF (lpStat p) Fd.LPORT_STAT_LINK_STATE st).lpRefresh p

/-- A port leaves UP, or stays not UP: LINK_UP clears at once, received pauses and recovery periods end (R66, R69, R74). -/
def State.lkLost (s : State) (p : Nat) : State :=
  let was := s.lkIsUp p
  let s1 := (s.setF (lpStat p) Fd.LPORT_STAT_LINK_UP 0).wr (lpPfcStat p) 0
  let s2 := s1.setLport p { s1.lport p with quanta := List.replicate 8 0, sawDown := true }
  s2.setIntIf was (Pg.LPORT (p / 8)) (Ib.LPORT_LINK_CHANGE (p % 8))

/-- AM_LOCK and FEC_LOCK. -/
def State.setLocks (s : State) (p : Nat) (am fec : Bool) : State :=
  (s.setF (lpStat p) Fd.LPORT_STAT_AM_LOCK (b2n am)).setF (lpStat p) Fd.LPORT_STAT_FEC_LOCK (b2n fec)

/-- The lanes of a list powered down: no training, no signal, no clock recovery (R65, R66). -/
def State.lanesOff (s : State) (ls : List Nat) : State := ls.foldl (fun t l => t.wr (laneStat l) 0) s

/-- A port goes to DOWN. -/
def State.lkToDown (s : State) (p : Nat) : State := (((s.lkLost p).setLocks p false false).lkEnter p lkDown)

/-- Training starts on every lane with TRAIN_EN = 1; the others load TX_PRESET (R66). -/
def State.startTrain (s : State) (p : Nat) : State :=
  (s.lpLanes p).foldl (fun t l => t.setF (laneStat l) Fd.LSER_LANE_STAT_TRAIN (s.f (laneCfg l) Fd.LSER_LANE_CFG_TRAIN_EN)) s

/-- Whether a client's conditions for HOLD and UP hold: overhead lock without deskew failure, and its stream locked (R77). -/
def State.clientLocked (s : State) (p : Nat) : Bool :=
  match s.clientGroup p with
  | none => false
  | some k =>
    s.fb (Rg.FLEXE_GRP_STAT (flexEngine p) k) Fd.FLEXE_GRP_STAT_OH_LOCK &&
    !s.fb (Rg.FLEXE_GRP_STAT (flexEngine p) k) Fd.FLEXE_GRP_STAT_DESKEW_FAIL && (s.lport p).clientLock

/-- A client port brought to the state its group calls for (R77). -/
def State.clientEval (s : State) (p : Nat) : State :=
  if !s.isClient p then s
  else if (s.clientGroup p).isNone then (if s.lkState p = lkDown then s else s.lkToDown p)
  else
    let ok := s.clientLocked p
    let s1 := s.setLocks p ok ok
    if ok then (if s1.lkState p < lkHold then s1.lkEnter p lkHold else s1)
    else if s1.lkState p = lkDown then s1.lkEnter p lkAligning
    else if lkHold ≤ s1.lkState p then (s1.lkLost p).lkEnter p lkAligning
    else s1

/-- A port at a tick boundary: it leaves DOWN where its configuration lets it (R66, R77). -/
def State.lpTick (s : State) (p : Nat) : State :=
  if !s.lportOn p then s
  else if s.isClient p then s.clientEval p
  else if s.lkState p = lkDown ∧ s.lpSpeed p ≠ 0 then (s.startTrain p).lkEnter p lkTraining
  else s

/-- Every lane of a port has trained, or has TRAIN_EN = 0 and CDR lock (R66). The lanes of a PHY whose MAC carries a
client (R75) train like any lanes, while its LINK_STATE is its client's (R77). -/
def State.trainDone (s : State) (p : Nat) : State :=
  if !s.lportOn p || !(s.lkState p == lkTraining || s.isClient p) then s else
  let s1 := (s.lpLanes p).foldl (fun t l =>
    let en := s.fb (laneCfg l) Fd.LSER_LANE_CFG_TRAIN_EN
    t.wr (laneStat l) (2 ^ 31 + 2 ^ 30 + (if en then 2 * 2 ^ 24 else 0))) s
  if s1.isClient p then s1 else s1.lkEnter p lkAligning

/-- LINK_TRAINING_DONE (R66). -/
def execLinkTrainingDone (port : Nat) (s : State) : Out := .next (s.trainDone port)

/-- Whether fabric lane `l` exists, answers and is enabled (R248). -/
def State.fabOn (s : State) (l : Nat) : Bool :=
  decide (l < s.part.fabLanes) && s.pageOn (Pg.FSER (l / 8) / 0x1000) && s.fb (Rg.FSER_LANE_CFG (l / 8) (l % 8)) Fd.FSER_LANE_CFG_EN

/-- Training of a fabric lane moves from one TRAIN state to another (R248, FSER registers). -/
def State.fabTrain (s : State) (l old new : Nat) : State :=
  let a := Rg.FSER_LANE_STAT (l / 8) (l % 8)
  if s.fabOn l && s.f a Fd.FSER_LANE_STAT_TRAIN == old then s.setF a Fd.FSER_LANE_STAT_TRAIN new else s

/-- A lane not trained within TRAIN_TIMEOUT (R66). Ports 64 to 159 name fabric lanes 0 to 95 (R248). -/
def State.trainTimeout (s : State) (p l : Nat) : State :=
  if 64 ≤ p then
    (if s.fabOn (p - 64) && s.f (Rg.FSER_LANE_STAT ((p - 64) / 8) (p % 8)) Fd.FSER_LANE_STAT_TRAIN == 1 then
      (s.fabTrain (p - 64) 1 3).setInt (Pg.FSER ((p - 64) / 8)) (Ib.FSER_TRAIN_FAIL (p % 8)) else s)
  else if !s.lportOn p || !(s.lpLanes p).contains l || s.f (laneStat l) Fd.LSER_LANE_STAT_TRAIN != 1 then s else
  ((s.setF (laneStat l) Fd.LSER_LANE_STAT_TRAIN 3).bump (Rg.LSER_TRAIN_FAIL_CNT (l / 8) (l % 8))).setInt
    (Pg.LSER (l / 8)) (Ib.LSER_TRAIN_FAIL (l % 8))

/-- TRAIN_TIMEOUT (R66). -/
def execTrainTimeout (port lane : Nat) (s : State) : Out := .next (s.trainTimeout port lane)

/-- After RETRY_DELAY, training restarts on all lanes of a port still in TRAINING (R66). -/
def State.trainRetry (s : State) (p : Nat) : State :=
  if 64 ≤ p then s.fabTrain (p - 64) 3 1 else
  if s.lportOn p && (s.lkState p == lkTraining || s.isClient p) then s.startTrain p else s

/-- TRAIN_RETRY (R66). -/
def execTrainRetry (port : Nat) (s : State) : Out := .next (s.trainRetry port)

/-- Alignment markers and codeword lock gained: HOLD begins (R66). -/
def State.aligned (s : State) (p : Nat) : State :=
  if s.lportOn p && s.lkState p == lkAligning && !s.isClient p then (s.setLocks p true true).lkEnter p lkHold else s

/-- LINK_ALIGNED (R66). -/
def execLinkAligned (port : Nat) (s : State) : Out := .next (s.aligned port)

/-- HOLD ends after LINK_UP_HOLD ms: the port is UP (R66). -/
def State.lkRise (s : State) (p : Nat) : State :=
  if s.lportOn p && s.lkState p == lkHold then
    (((s.setF (lpStat p) Fd.LPORT_STAT_LINK_UP 1).setLport p { s.lport p with sawDown := true }).lkEnter p lkUp).setInt
      (Pg.LPORT (p / 8)) (Ib.LPORT_LINK_CHANGE (p % 8))
  else s

/-- Alignment or codeword lock lost (`am`, `fec`), or a local fault of another kind: back to ALIGNING (R66, R77). -/
def State.lockLoss (s : State) (p : Nat) (am fec : Bool) : State :=
  if !s.lportOn p || s.lkState p < lkHold then s else
  let s1 := s.lkLost p
  let s2 := s1.setLocks p (s1.fb (lpStat p) Fd.LPORT_STAT_AM_LOCK && !am) (s1.fb (lpStat p) Fd.LPORT_STAT_FEC_LOCK && !fec)
  let s3 := if s2.isClient p then s2.setLport p { s2.lport p with clientLock := false } else s2
  s3.lkEnter p lkAligning

/-- LINK_LOCK_LOSS (R66). -/
def execLinkLockLoss (port : Nat) (am fec : Bool) (s : State) : Out := .next (s.lockLoss port am fec)

/-- CDR lock lost on a lane for more than 1 ms: the port trains again (R66). -/
def State.cdrLoss (s : State) (p l : Nat) : State :=
  if !s.lportOn p || !(s.lpLanes p).contains l then s else
  let s1 := s.setF (laneStat l) Fd.LSER_LANE_STAT_CDR_LOCK 0
  if s1.lkState p = lkDown ∨ s1.isClient p then s1 else
  ((((s1.lkLost p).setLocks p false false).startTrain p).lkEnter p lkTraining)

/-- CDR_LOCK_LOSS (R66). -/
def execCdrLockLoss (port lane : Nat) (s : State) : Out := .next (s.cdrLoss port lane)

/-- A write of LPORT_CTRL; a change of LOOPBACK takes the port to DOWN (R66). -/
def State.lpCtrlWrite (s : State) (p v : Nat) : State :=
  let s1 := s.fieldWrite (lpCtrl p) v
  if s1.f (lpCtrl p) Fd.LPORT_CTRL_LOOPBACK = s.f (lpCtrl p) Fd.LPORT_CTRL_LOOPBACK then s1 else s1.lkToDown p

/-- LOOPBACK_CHANGE (R66). -/
def execLoopbackChange (a : Acc) (port : Nat) (v : Word) (s : State) : Out :=
  .next (if port < s.part.lanes then s.onWrite a (lpCtrl port) fun t => t.lpCtrlWrite port v.toNat else s)

/-- The lanes a port's new LPORT_CFG leaves without a port are powered down (R65). -/
def State.freeLanes (s : State) (g : Nat) : State :=
  let used := (List.range 8).flatMap fun n => s.lpLanes (8 * g + n)
  s.lanesOff ((List.range 8).map (8 * g + ·) |>.filter fun l => !used.contains l)

/-- What a client port takes from its engine's calendars: each group with a slot of it in the transmit page in use or the
receive page in use, the group's EN, and those slots (R77, R78). -/
def State.clientCal (s : State) (p : Nat) : List (Nat × Bool × List Nat × List Nat) :=
  let e := flexEngine p
  ((List.range 8).map fun k => (k, s.fb (Rg.FLEXE_GRP_CFG e k) Fd.FLEXE_GRP_CFG_EN,
      s.slotsOf e (s.f (Rg.FLEXE_GRP_CFG e k) Fd.FLEXE_GRP_CFG_TX_CAL) k (flexChan p),
      s.slotsOf e (s.rxPage e k) k (flexChan p))).filter fun x => !x.2.2.1.isEmpty || !x.2.2.2.isEmpty

/-- The ports at a commit, from the state before it (`old`): a port whose LPORT_CFG changed goes to DOWN and unused
lanes are powered down (R65); a client whose group's EN or whose calendar slots changed goes to DOWN (R77). -/
def State.lpCommit (s old : State) : State :=
  let s1 := (List.range s.part.lanes).foldl (fun t p =>
    let cfg := s.rd (lpCfg p) != old.rd (lpCfg p)
    let cl := s.isClient p && s.clientCal p != old.clientCal p
    let t1 := if t.lportOn p && (cfg || cl) then t.lkToDown p else t
    if t.lportOn p && cfg && s.isClient p then t1.startTrain p else t1) s
  (List.range s.part.lineGroups).foldl (fun t g => if t.pageOn (0x010 + g) then t.freeLanes g else t) s1

/-- Received fault ordered sets start or stop (R68). -/
def State.faultSets (s : State) (p : Nat) (lf rf : Bool) : State :=
  if s.lportOn p then (s.setLport p { s.lport p with rxLf := lf, rxRf := rf }).lpRefresh p else s

/-- RX_FAULT_ORDERED_SET (R68). -/
def execRxFaultOrderedSet (port : Nat) (lf rf : Bool) (s : State) : Out := .next (s.faultSets port lf rf)

/-- What a port transmits (R68). -/
inductive TxMode where
  | idle
  | localFault
  | remoteFault
  | data
deriving DecidableEq, Repr

/-- The first entry of the transmit precedence that applies (R68). -/
def State.txMode (s : State) (p : Nat) : TxMode :=
  let force := s.f (lpCtrl p) Fd.LPORT_CTRL_FORCE_TX
  if force = 1 then .idle
  else if force = 2 then .localFault
  else if force = 3 then .remoteFault
  else if s.d2dDown && s.fb (Rg.D2D_CTRL 0) Fd.D2D_CTRL_LINE_DOWN_ACTION then .remoteFault
  else if s.fb (lpStat p) Fd.LPORT_STAT_LF && s.fb (lpCtrl p) Fd.LPORT_CTRL_RF_ON_LF then .remoteFault
  else if s.fb (lpStat p) Fd.LPORT_STAT_RF then .idle
  else .data

/-! ## FEC and MAC receive -/

/-- A codeword with `errs` symbol errors is decoded on fabric lane `l` (R248, FSER registers). -/
def State.fabFec (s : State) (l errs : Nat) : State :=
  if s.part.fabLanes ≤ l ∨ !s.pageOn (Pg.FSER (l / 8) / 0x1000) then s
  else if errs = 0 then s
  else if errs ≤ 15 then (s.bump (Rg.FSER_FEC_CORR_CNT (l / 8) (l % 8))).bump (Rg.FSER_FEC_SYM_ERR_CNT (l / 8) (l % 8)) errs
  else s.bump (Rg.FSER_FEC_UNCORR_CNT (l / 8) (l % 8))

/-- A codeword with `errs` symbol errors is decoded (R67). Ports 64 to 159 name fabric lanes 0 to 95. -/
def State.fecCodeword (s : State) (p errs : Nat) : State :=
  if 64 ≤ p then s.fabFec (p - 64) errs
  else if !s.lportOn p then s
  else if errs = 0 ∨ (errs ≤ 15 ∧ s.fb (lpCtrl p) Fd.LPORT_CTRL_FEC_CORRECT) then
    let s1 := s.bump (Rg.LSER_FEC_HIST (p / 8) (p % 8) errs)
    if errs = 0 then s1 else (s1.lpBump p 12).lpBump p 14 errs
  else s.lpBump p 13

/-- FEC_CODEWORD (R67). -/
def execFecCodeword (port errs : Nat) (s : State) : Out := .next (s.fecCodeword port errs)

/-- One bit of the IEEE 802.3 CRC-32, least significant bit first. -/
def crc32Step (c : Nat) : Nat := if c % 2 = 1 then (c / 2) ^^^ 0xEDB88320 else c / 2

/-- One byte of the IEEE 802.3 CRC-32. -/
def crc32Byte (c : Nat) (b : Byte) : Nat := (List.range 8).foldl (fun x _ => crc32Step x) (c ^^^ b.toNat)

/-- The FCS over a list of bytes, as it stands in the frame (first byte least significant). -/
def fcs (l : List Byte) : Nat := l.foldl crc32Byte 0xFFFFFFFF ^^^ 0xFFFFFFFF

/-- Whether a frame's last four bytes are its FCS. -/
def fcsOk (l : List Byte) : Bool := fcs (l.take (l.length - 4)) == leNat (l.drop (l.length - 4))

/-- A 16-bit big-endian field of a frame. -/
def be16 (l : List Byte) (i : Nat) : Nat := beNat ((l.drop i).take 2)

/-- The time of day at an absolute core clock: seconds, and nanoseconds with 32 fraction bits (R81). -/
def State.tod (s : State) (t : Nat) : Nat × Nat :=
  let x := s.ptp.ns * 2 ^ 32 + s.ptp.frac + (t - s.ptp.since) * s.rd Rg.PTP_INCR
  let sec := x / (1000000000 * 2 ^ 32)
  ((s.ptp.sec + sec) % 2 ^ 48, x % (1000000000 * 2 ^ 32))

/-- The time of day brought forward to an absolute core clock, as before PTP_INCR changes. -/
def State.todAdvance (s : State) (t : Nat) : State :=
  let x := s.tod t
  { s with ptp := { s.ptp with since := t, sec := x.1, ns := x.2 / 2 ^ 32, frac := x.2 % 2 ^ 32 } }

/-- A time of day shifted by a signed correction in units of 1/16 ns: seconds and nanoseconds (R82). -/
def todShift (t : Nat × Nat) (corr : Int) : Nat × Nat :=
  let z : Int := (t.1 : Int) * 1000000000 * 16 + ((t.2 / 2 ^ 28 : Nat) : Int) + corr
  let n := (z / 16).toNat
  (n / 1000000000 % 2 ^ 48, n % 1000000000)

/-- The receive timestamp of a frame whose start-frame delimiter ended at core clock `clk` of the tick (R82). -/
def State.rxStamp (s : State) (p clk : Nat) : Nat :=
  (todShift (s.tod (s.at clk)) (signed 16 (s.f (Rg.PTP_RX_CORR p) Fd.PTP_RX_CORR_CORR))).2

/-- The traffic class that priority `i` pauses (R72). -/
def State.pfcTc (s : State) (p i : Nat) : Nat := bits (s.rd (lpPfcCfg p)) (3 * i) 3

/-- Whether a traffic class of a port is paused by a priority mapped to it (R72). -/
def State.tcPaused (s : State) (p tc : Nat) : Bool :=
  (List.range 8).any fun i => bit (s.rd (lpPfcStat p)) i && s.pfcTc p i == tc

/-- A priority's pause set to a time in quanta, 0 releasing it (R72). -/
def State.setPause (s : State) (p i q : Nat) : State :=
  let x := s.lport p
  (s.setLport p { x with quanta := lset x.quanta i q }).wr (lpPfcStat p) (setBits (s.rd (lpPfcStat p)) i 1 (b2n (q != 0)))

/-- A received PFC frame with its enable vector and eight times (R72, R74). -/
def State.pfcRx (s : State) (p enable : Nat) (quanta : List Nat) : State :=
  if !s.lportOn p || !s.lkIsUp p then s else
  (List.range 8).foldl (fun t i =>
    if bit enable i && bit (s.f (lpPfcCfg p) Fd.LPORT_PFC_CFG_RX_PRI_EN) i && !bit (s.rd (lpPfcStat p)) (8 + i) then
      t.setPause p i (lget 0 quanta i % 2 ^ 16)
    else t) (s.lpBump p 6)

/-- PFC_RX (R72). -/
def execPfcRx (port enable : Nat) (quanta : List Nat) (s : State) : Out := .next (s.pfcRx port enable quanta)

/-- A priority's pause timer reaches 0 (R72). -/
def State.pauseExpiry (s : State) (p i : Nat) : State := if s.lportOn p then s.setPause p (i % 8) 0 else s

/-- PFC_PAUSE_EXPIRY (R72). -/
def execPfcPauseExpiry (port pri : Nat) (s : State) : Out := .next (s.pauseExpiry port pri)

/-- A pause in force for STORM_TIME ms is a storm (R74). -/
def State.pfcStorm (s : State) (p pri : Nat) : State :=
  let i := pri % 8
  if !s.lportOn p || !bit (s.rd (lpPfcStat p)) i ||
      s.f (Rg.LPORT_STORM_CFG (p / 8) (p % 8)) Fd.LPORT_STORM_CFG_STORM_TIME == 0 then s else
  let s1 := s.setPause p i 0
  let s2 := s1.wr (lpPfcStat p) (setBit (s1.rd (lpPfcStat p)) (8 + i))
  ((s2.setLport p { s2.lport p with sawStorm := true }).lpBump p 15).setInt (Pg.LPORT (p / 8)) (Ib.LPORT_STORM (p % 8))

/-- PFC_STORM (R74). -/
def execPfcStorm (port pri : Nat) (s : State) : Out := .next (s.pfcStorm port pri)

/-- RECOVER_TIME ends (R74). -/
def State.stormEnd (s : State) (p pri : Nat) : State :=
  if s.lportOn p then s.wr (lpPfcStat p) (clrBit (s.rd (lpPfcStat p)) (8 + pri % 8)) else s

/-- PFC_STORM_RECOVER_END (R74). -/
def execPfcStormRecoverEnd (port pri : Nat) (s : State) : Out := .next (s.stormEnd port pri)

/-- A frame of `len` bytes counted by size on its channel (LRMON registers): `base` 0 received, 7 transmitted. -/
def State.lrMon (s : State) (p base len : Nat) : State :=
  let i := if len ≤ 64 then 0 else if len ≤ 127 then 1 else if len ≤ 255 then 2 else if len ≤ 511 then 3
    else if len ≤ 1023 then 4 else if len ≤ 1518 then 5 else 6
  s.bump (Rg.LRMON_RX_64 (p / 8) (p % 8) + 4 * (base + i))

/-- A frame arrives at a MAC (R69 to R71): its bytes from the destination address to the FCS, the index of the first byte
met by a code error or an errored block, and the clock at which its start-frame delimiter ended. Frames of more than 256
bytes have left the MAC when a later error is found: their last segment is marked bad. -/
def State.macRx (s : State) (p : Nat) (b : List Byte) (codeErr : Option Nat) (clk : Nat) : State :=
  if !s.lportOn p || !s.lkIsUp p || s.lpFlexe p == 1 then s
  else if b.length < 64 then s.lpBump p 3
  else if s.f (lpCfg p) Fd.LPORT_CFG_MAX_FRAME < b.length then s.lpBump p 4
  else
    let code := match codeErr with
      | some i => decide (i < b.length)
      | none => false
    let early := match codeErr with
      | some i => decide (i < 256) || decide (b.length ≤ 256)
      | none => false
    let fcsBad := !code && !fcsOk b
    let s1 := if code then s.lpBump p 5 else if fcsBad then s.lpBump p 2 else (s.lpBump p 0).lpBump p 1 b.length
    let s1 := s1.lrMon p 0 b.length
    let bad := code || fcsBad
    if bad && (early || (fcsBad && decide (b.length ≤ 256))) then s1
    else if !bad && be16 b 12 == 0x8808 then
      if be16 b 14 = 0x0101 then s1.pfcRx p (be16 b 16 % 256) ((List.range 8).map fun i => be16 b (18 + 2 * i))
      else if be16 b 14 = 0x0001 then s1.lpBump p 7
      else s1
    else { s1 with macQ := s1.macQ ++ [⟨p, b, bad, s.rxStamp p clk⟩] }

/-- MAC_RX_FRAME (R70). -/
def execMacRxFrame (port : Nat) (bytes : List Byte) (codeErr : Option Nat) (clk : Nat) (s : State) : Out :=
  .next (s.macRx port bytes codeErr clk)

/-! ## FlexE -/

/-- Whether an engine and group exist and the engine is present. -/
def State.flexOn (s : State) (e k : Nat) : Bool := decide (e < 2 ∧ k < 8) && s.pageOn (0x020 + e)

/-- A FlexE group's calendar exchange. -/
def State.flexGrp (s : State) (e k : Nat) : FlexeGrp := sget {} s.flexe (8 * e + k)

/-- A FlexE group's calendar exchange, replaced. -/
def State.setFlexGrp (s : State) (e k : Nat) (x : FlexeGrp) : State := { s with flexe := sset {} s.flexe (8 * e + k) x }

/-- A group's status word written; a change of an alarm bit (31 to 27) flags the group. -/
def State.setGrpStat (s : State) (e k v : Nat) : State :=
  let a := Rg.FLEXE_GRP_STAT e k
  (s.wr a v).setIntIf (s.rd a / 2 ^ 27 != v / 2 ^ 27) (Pg.FLEXE e) (Ib.FLEXE_GRP_ALARM k)

/-- The groups at a commit: a changed TX_CAL is selected, and the switch on the wire is due (R79). -/
def State.flexCommit (s old : State) : State :=
  (List.range 16).foldl (fun t i =>
    let a := Rg.FLEXE_GRP_CFG (i / 8) (i % 8)
    if s.f a Fd.FLEXE_GRP_CFG_TX_CAL ≠ old.f a Fd.FLEXE_GRP_CFG_TX_CAL then
      t.setFlexGrp (i / 8) (i % 8) ⟨some (s.f a Fd.FLEXE_GRP_CFG_TX_CAL), false⟩ else t) s

/-- The partner acknowledges a calendar request (R79). -/
def State.calAck (s : State) (e k : Nat) : State :=
  if s.flexOn e k && (s.flexGrp e k).req.isSome then
    (s.setFlexGrp e k { s.flexGrp e k with acked := true }).setF (Rg.FLEXE_GRP_STAT e k) Fd.FLEXE_GRP_STAT_CR_PENDING 0
  else s

/-- FLEXE_CAL_ACK (R79). -/
def execFlexeCalAck (engine group : Nat) (s : State) : Out := .next (s.calAck engine group)

/-- The overhead multiframe boundary of a switch: the page requested goes on the wire, with HANDSHAKE = 1 only once acknowledged (R79). -/
def State.calSwitch (s : State) (e k : Nat) : State :=
  match (s.flexGrp e k).req with
  | none => s
  | some pg =>
    if s.flexOn e k && ((s.flexGrp e k).acked || !s.fb (Rg.FLEXE_GRP_CFG e k) Fd.FLEXE_GRP_CFG_HANDSHAKE) then
      ((s.setFlexGrp e k {}).setF (Rg.FLEXE_GRP_STAT e k) Fd.FLEXE_GRP_STAT_TX_CAL_INUSE pg).setF
        (Rg.FLEXE_GRP_STAT e k) Fd.FLEXE_GRP_STAT_CR_PENDING 0
    else s

/-- FLEXE_CAL_SWITCH (R79). -/
def execFlexeCalSwitch (engine group : Nat) (s : State) : Out := .next (s.calSwitch engine group)

/-- No acknowledge within 10 ms (R79). -/
def State.calTimeout (s : State) (e k : Nat) : State :=
  if s.flexOn e k && (s.flexGrp e k).req.isSome && !(s.flexGrp e k).acked &&
      s.fb (Rg.FLEXE_GRP_CFG e k) Fd.FLEXE_GRP_CFG_HANDSHAKE then
    (s.setF (Rg.FLEXE_GRP_STAT e k) Fd.FLEXE_GRP_STAT_CR_PENDING 1).setInt (Pg.FLEXE e) Ib.FLEXE_CAL_TIMEOUT
  else s

/-- CAL_TIMEOUT (R79). -/
def execCalTimeout (engine group : Nat) (s : State) : Out := .next (s.calTimeout engine group)

/-- The PHY numbers of a group, as a mask over the numbers 0–255 (R80). -/
def State.phyMap (s : State) (e k : Nat) : Nat :=
  maskOf ((onesOf 32 (s.rd (Rg.FLEXE_GRP_PHYS e k))).map fun c => s.f (Rg.FLEXE_PHY_NUM e c) Fd.FLEXE_PHY_NUM_PHY_NUM)

/-- Received overhead: group number, PHY map (a mask of PHY numbers), the calendar bit and the client of each slot, compared
with the configuration; the calendar bit names the receive page in use (R78, R80). -/
def State.overheadRx (s : State) (e k num phys calPage : Nat) (cal : List (Option Nat)) : State :=
  if !s.flexOn e k then s else
  let page := 2 + calPage % 2
  let calBad := (List.range (s.flexSlots e k)).any fun i =>
    let x := s.flexSlot e page k i
    (if bit x 7 then some (x % 32) else none) != lget none cal i
  let v0 := s.rd (Rg.FLEXE_GRP_STAT e k)
  let v1 := setBits v0 30 1 (b2n (num != s.f (Rg.FLEXE_GRP_CFG e k) Fd.FLEXE_GRP_CFG_GROUP_NUM))
  let v2 := setBits v1 29 1 (b2n (phys != s.phyMap e k))
  let v3 := setBits v2 28 1 (b2n calBad)
  let s1 := s.setGrpStat e k (setBits v3 25 1 calPage)
  (List.range 32).foldl (fun t c => if t.lportOn (32 * e + c) then t.clientEval (32 * e + c) else t) s1

/-- FLEXE_OVERHEAD_RX (R80). -/
def execFlexeOverheadRx (engine group num phys calPage : Nat) (cal : List (Option Nat)) (s : State) : Out :=
  .next (s.overheadRx engine group num phys calPage cal)

/-- A group's overhead lock and deskew, and the stream locks of its clients (a mask of the engine's 32 channels), change (R76, R77). -/
def State.ohLock (s : State) (e k : Nat) (locked deskewFail : Bool) (clients : Nat) : State :=
  if !s.flexOn e k then s else
  let v := setBits (setBits (s.rd (Rg.FLEXE_GRP_STAT e k)) 31 1 (b2n locked)) 27 1 (b2n deskewFail)
  (List.range 32).foldl (fun t c =>
    let p := 32 * e + c
    if t.lportOn p && t.clientGroup p == some k then
      (t.setLport p { t.lport p with clientLock := bit clients c }).clientEval p
    else t) (s.setGrpStat e k v)

/-- FLEXE_OH_LOCK (R77). -/
def execFlexeOhLock (engine group : Nat) (locked deskewFail : Bool) (clients : Nat) (s : State) : Out :=
  .next (s.ohLock engine group locked deskewFail clients)

/-! ## Time of day, pulses, SyncE -/

/-- PTP_STEP (R81): signed nanoseconds added at the next tick boundary. -/
def execPtpStep (a : Acc) (v : Word) (s : State) : Out :=
  .next (s.onWrite a Rg.PTP_STEP fun t => { t with ptp := { t.ptp with step := t.ptp.step + signed 32 v.toNat } })

/-- PTP_LOAD_GO (R81): the load value taken at the next tick boundary. -/
def execPtpLoadGo (a : Acc) (v : Word) (s : State) : Out :=
  .next (s.onWrite a Rg.PTP_LOAD_GO fun t =>
    if bit v.toNat 0 then { t.setF Rg.PTP_LOAD_GO Fd.PTP_LOAD_GO_GO 1 with ptp := { t.ptp with loadDue := true } } else t)

/-- A write of PTP_INCR in clock `clk`: it counts from that clock (R81). -/
def State.ptpIncrWrite (s : State) (clk v : Nat) : State := (s.todAdvance (s.at clk)).fieldWrite Rg.PTP_INCR v

/-- The time of day at the tick boundary at core clock `t`: advanced, then loaded or stepped (R81). -/
def State.ptpTick (s : State) (t : Nat) : State :=
  let s1 := s.todAdvance t
  let x := s1.ptp
  let s2 : State :=
    if x.loadDue then
      { s1.setF Rg.PTP_LOAD_GO Fd.PTP_LOAD_GO_GO 0 with ptp := { x with
          loadDue := false, frac := 0, ns := s1.rd Rg.PTP_LOAD_NS,
          sec := s1.rd Rg.PTP_LOAD_SEC_LO + 2 ^ 32 * (s1.rd Rg.PTP_LOAD_SEC_HI % 2 ^ 16) } }
    else s1
  let y := s2.ptp
  let z : Int := (y.sec : Int) * 1000000000 + y.ns + y.step
  let n := (z % ((2 ^ 48 : Nat) * 1000000000)).toNat
  if y.step = 0 then s2 else { s2 with ptp := { y with step := 0, sec := n / 1000000000, ns := n % 1000000000 } }

/-- A transmit timestamp put into the FIFO of 1,024 (R84): port, tag, seconds, nanoseconds. -/
def State.txtsPut (s : State) (p tag sec ns : Nat) : State :=
  if s.ptp.txts.length < 1024 then
    { s with ptp := { s.ptp with txts := s.ptp.txts ++ [(p, tag, sec, ns)] } }.setIntIf s.ptp.txts.isEmpty Pg.PTP Ib.PTP_TXTS_READY
  else (s.bump Rg.PTP_TXTS_DROP_CNT).setInt Pg.PTP Ib.PTP_TXTS_DROP

/-- A read of PTP_TXTS_W0 pops the head of the FIFO into W0–W3 (R84). -/
def State.txtsPop (s : State) : State × Nat :=
  match s.ptp.txts with
  | [] => let t := s.wr Rg.PTP_TXTS_W0 0; (t, 0)
  | (p, tag, sec, ns) :: rest =>
    let w0 := 2 ^ 31 + p % 64 * 2 ^ 16 + tag % 2 ^ 16
    let t := (((s.wr Rg.PTP_TXTS_W0 w0).wr Rg.PTP_TXTS_W1 ns).wr Rg.PTP_TXTS_W2 sec).wr Rg.PTP_TXTS_W3 (sec / 2 ^ 32 % 2 ^ 16)
    ({ t with ptp := { t.ptp with txts := rest } }, w0)

/-- PTP_TXTS_POP (R84). A user read returns W0 and pops nothing. -/
def execPtpTxtsPop (a : Acc) (s : State) : Out :=
  .next (s.onRead a Rg.PTP_TXTS_W0 fun t => if a.user then (t, t.rd Rg.PTP_TXTS_W0) else t.txtsPop)

/-- PPS_OUT_PULSE (R85): the seconds field changed. -/
def execPpsOutPulse (s : State) : Out := .next ({ s with ptp := { s.ptp with ppsHigh := true } }.emit (.pin "PPS_OUT" true))

/-- PPS_OUT_END (R85): WIDTH µs have passed. -/
def execPpsOutEnd (s : State) : Out := .next ({ s with ptp := { s.ptp with ppsHigh := false } }.emit (.pin "PPS_OUT" false))

/-- A debounced rising edge of PPS_IN: ignored within 500 ms (10⁹ core clocks) of the last accepted one, else captured (R85). -/
def State.ppsIn (s : State) (clk : Nat) : State :=
  let t := s.at clk
  let early := match s.ptp.ppsLastIn with
    | some l => decide (t < l + 1000000000)
    | none => false
  if early then s.bump Rg.PTP_PPS_IGNORED_CNT else
  let x := s.tod t
  (((({ s with ptp := { s.ptp with ppsLastIn := some t } }.wr (Rg.PTP_PPS_IN_TS 0) (x.2 / 2 ^ 32)).wr
    (Rg.PTP_PPS_IN_TS 1) x.1).wr (Rg.PTP_PPS_IN_TS 2) (x.1 / 2 ^ 32)).setInt Pg.PTP Ib.PTP_PPS_IN)

/-- PPS_IN_EDGE (R85). -/
def execPpsInEdge (clk : Nat) (s : State) : Out := .next (s.ppsIn clk)

/-- A SyncE output whose lane lost signal or lock, or whose port detects a local fault, is held low (R87). -/
def State.squelch (s : State) (n : Nat) : State :=
  let a := Rg.PTP_SYNCE_CFG n
  if 2 ≤ n ∨ !s.fb a Fd.PTP_SYNCE_CFG_EN ∨ !s.fb a Fd.PTP_SYNCE_CFG_SQUELCH_EN ∨ s.ptp.squelched.contains n then s
  else ({ s with ptp := { s.ptp with squelched := n :: s.ptp.squelched } }.emit
    (.pin (if n = 0 then "SYNCE_CLK0" else "SYNCE_CLK1") false)).setInt Pg.PTP Ib.PTP_SYNCE_SQUELCH

/-- SYNCE_SQUELCH (R87). -/
def execSynceSquelch (output : Nat) (s : State) : Out := .next (s.squelch output)

/-- SYNCE_RESUME (R87): the condition has been clear for RESUME_MS ms. -/
def execSynceResume (output : Nat) (s : State) : Out :=
  .next { s with ptp := { s.ptp with squelched := s.ptp.squelched.filter (· != output) } }

end Sys2Proof.Machine
end

