-- ==== Sys2Proof/Machine/ApCore.lean ====
section
/-! DEFINITION. Action processors: contexts, threads, locks and channels as data, and what a context gives back when it
ends (R187, R195, R197, R198). Cluster `c` serves ingress slice `c` for c below 9 and egress slice `c − 9` above (R11). -/
namespace Sys2Proof.Machine

/-- Keys of the AP maps. -/
abbrev apSupKey (c a : Nat) : Nat := c * 16 + a
abbrev apThrKey (c a t : Nat) : Nat := (c * 16 + a) * 16 + t
abbrev apCtxKey (c a t k : Nat) : Nat := ((c * 16 + a) * 16 + t) * 4 + k

/-- A thread. -/
def State.thr (s : State) (i : ApId) : ApThread := sget {} s.apThr (apThrKey i.cluster i.ap i.thread)

/-- A thread replaced. -/
def State.setThr (s : State) (i : ApId) (x : ApThread) : State :=
  { s with apThr := sset {} s.apThr (apThrKey i.cluster i.ap i.thread) x }

/-- An AP's supervisor side. -/
def State.sup (s : State) (c a : Nat) : ApSup := sget {} s.apSup (apSupKey c a)

/-- An AP's supervisor side replaced. -/
def State.setSup (s : State) (c a : Nat) (x : ApSup) : State := { s with apSup := sset {} s.apSup (apSupKey c a) x }

/-- The register set that issues: the packet context, or the thread's own. -/
def State.ctx (s : State) (i : ApId) : ApCtx :=
  match i.ctx with
  | some k => sget {} s.apCtx (apCtxKey i.cluster i.ap i.thread k)
  | none => (s.thr i).x

/-- The register set that issues, replaced. -/
def State.setCtx (s : State) (i : ApId) (x : ApCtx) : State :=
  match i.ctx with
  | some k => { s with apCtx := sset {} s.apCtx (apCtxKey i.cluster i.ap i.thread k) x }
  | none => s.setThr i { s.thr i with x := x }

/-- Whether the head message of a channel may be read: published, behind no unpublished slot (R198). -/
def chanReady : List ChanSlot → Bool
  | [] => false
  | x :: l => if x.st = 2 then chanReady l else x.st == 1

/-- A lock of a cluster. -/
def State.lockOf (s : State) (c l : Nat) : LockSt := sget {} s.locks (c * 256 + l % 256)

/-- A lock replaced. -/
def State.setLock (s : State) (c l : Nat) (x : LockSt) : State := { s with locks := sset {} s.locks (c * 256 + l % 256) x }

/-- A channel of a cluster, head first. -/
def State.chan (s : State) (c ch : Nat) : List ChanSlot := sget [] s.chans (c * 64 + ch % 64)

/-- The revoked slots at the head of a channel, which readers skip (R198). -/
def revokedHead : List ChanSlot → Nat
  | [] => 0
  | x :: l => if x.st = 2 then revokedHead l + 1 else 0

/-- A channel replaced: revoked slots at its head are skipped and counted, and USED follows (R198). -/
def State.setChan (s : State) (c ch : Nat) (l : List ChanSlot) : State :=
  let n := revokedHead l
  let l' := l.drop n
  let s1 : State := { s with chans := sset [] s.chans (c * 64 + ch % 64) l' }
  let s2 := if n = 0 then s1 else s1.bump (Rg.APC_CHAN_REVOKE_CNT c) n
  s2.setF (Rg.APC_CHAN_CFG c (ch % 64)) Fd.APC_CHAN_CFG_USED l'.length

/-- The unpublished reservations of a holder revoked in one cluster's channel. -/
def revokeOwned (i : ApId) (l : List ChanSlot) : List ChanSlot :=
  l.map fun x => if x.owner = some i ∧ x.st = 0 then { x with st := 2 } else x

/-- Every unpublished reservation of a holder revoked (R195, R202). -/
def State.revokeAll (s : State) (i : ApId) : State :=
  (s.chans.filter fun e => e.2.any fun x => x.owner == some i && x.st == 0).foldl
    (fun t e => t.setChan (e.1 / 64) (e.1 % 64) (revokeOwned i e.2)) s

/-- A lock without a holder's claims. -/
def LockSt.without (x : LockSt) (i : ApId) : LockSt :=
  { holder := if x.holder = some i then none else x.holder, queue := x.queue.filter (· ≠ i) }

/-- Every lock of a holder released and its queued requests withdrawn (R195, R202). -/
def State.releaseAll (s : State) (i : ApId) : State :=
  { s with locks := (s.locks.map fun e => (e.1, e.2.without i)).filter (·.2 ≠ {}) }

/-! ## Events (R196) -/

/-- The events pending in a thread: those that arrived, CHAN while a watched channel has a message to read, and COMMIT when a
commit was applied since it was last returned. Bits 14 to 16 exist for thread 15 alone. -/
def State.pendEvents (s : State) (i : ApId) : Nat :=
  let t := s.thr i
  let ch := (onesOf 64 t.watch).any fun c => chanReady (s.chan i.cluster c)
  let all := t.events % 2 ^ 17 ||| (b2n ch * 2 ^ 5) ||| (b2n (decide (t.seen < s.cm.applied)) * 2 ^ 12)
  if i.thread = 15 then all else all % 2 ^ 14

/-- A thread that waits in WFE goes on when an event in its mask is pending: they are returned and cleared. -/
def State.wfeCheck (s : State) (i : ApId) : State :=
  let t := s.thr i
  match t.wfe with
  | none => s
  | some (mask, rd) =>
    let p := s.pendEvents i &&& mask
    if t.st ≠ 2 ∨ p = 0 then s else
    let x := { t.x with regs := if rd = 0 then t.x.regs else sset 0 t.x.regs rd (BitVec.ofNat 64 p) }
    let s1 := s.setThr i { t with st := 1, wfe := none, x := x, events := t.events &&& (2 ^ 17 - 1 - p),
                                  seen := if bit p 12 then s.cm.applied else t.seen }
    if i.thread = 15 then s1 else s1.setSup i.cluster i.ap { s1.sup i.cluster i.ap with fired := false }

/-- An event becomes pending in a thread. -/
def State.postEvent (s : State) (i : ApId) (b : Nat) : State :=
  let j : ApId := { i with ctx := none }
  let t := s.thr j
  (s.setThr j { t with events := setBit t.events b }).wfeCheck j

/-- The threads of a cluster that wait in WFE. -/
def State.waiters (s : State) (c : Nat) : List ApId :=
  (s.apThr.filter fun e => e.1 / 256 == c && e.2.wfe.isSome).map fun e => ⟨c, e.1 / 16 % 16, e.1 % 16, none⟩

/-- The waiting threads of a cluster see a channel that may now be read. -/
def State.chanEvent (s : State) (c : Nat) : State := (s.waiters c).foldl (fun t i => t.wfeCheck i) s

/-- Every waiting thread sees a commit that was applied (R60, R196). -/
def State.commitEvent (s : State) : State :=
  let is := (s.apThr.filter fun e => e.2.wfe.isSome).map fun e => (⟨e.1 / 256, e.1 / 16 % 16, e.1 % 16, none⟩ : ApId)
  is.foldl (fun t i => t.wfeCheck i) { s with cm := { s.cm with applied := s.cm.applied + 1 } }

/-- What an ending packet context gives back, and its removal (R195). -/
def State.endCtx (s : State) (i : ApId) : State := ((s.releaseAll i).revokeAll i).setCtx i {}

/-- The packet contexts of a cluster. -/
def State.clusterCtxs (s : State) (c : Nat) : List ApId :=
  (s.apCtx.filter fun e => e.1 / 1024 == c).map fun e => ⟨c, e.1 / 64 % 16, e.1 / 4 % 16, some (e.1 % 4)⟩

/-- Every packet context of a cluster ends with its packet (R103). -/
def State.killCtxs (s : State) (c : Nat) : State := (s.clusterCtxs c).foldl (fun t i => t.endCtx i) s

end Sys2Proof.Machine
end

