-- ==== Sys2Proof/Machine/Steering.lean ====
section
/-! DEFINITION. Steering and slices (chapter 4, R89 to R104, R407): flow hash and steering class, pools and pause
requests, bucket moves, evacuations, slice roles, self-tests, faults and fences. Direction 0 is ingress, 1 egress. -/
namespace Sys2Proof.Machine

/-- SLICE_CTRL.ROLE encodings (R100). -/
abbrev rlActive : Nat := 0
abbrev rlDormant : Nat := 1
abbrev rlService : Nat := 2
abbrev rlFenced : Nat := 3

/-! ## Slices as data -/

/-- A slice outside its registers. -/
def State.slice (s : State) (d i : Nat) : SliceSt := sget {} s.slices (16 * d + i)

/-- A slice outside its registers, replaced. -/
def State.setSlice (s : State) (d i : Nat) (x : SliceSt) : State := { s with slices := sset {} s.slices (16 * d + i) x }

/-- The move under way in a direction. -/
def State.move (s : State) (d : Nat) : Option Move := if d = 0 then s.moveIn else s.moveEg

/-- The move under way in a direction, replaced. -/
def State.setMove (s : State) (d : Nat) (m : Option Move) : State :=
  if d = 0 then { s with moveIn := m } else { s with moveEg := m }

/-- The evacuation under way in a direction. -/
def State.evac (s : State) (d : Nat) : Option Evac := if d = 0 then s.evacIn else s.evacEg

/-- The evacuation under way in a direction, replaced. -/
def State.setEvac (s : State) (d : Nat) (e : Option Evac) : State :=
  if d = 0 then { s with evacIn := e } else { s with evacEg := e }

/-- Whether a direction and number name a slice of the part. -/
def State.isSlice (s : State) (d i : Nat) : Bool := decide (d < 2 ∧ i < s.part.slices)

/-- SLICE_CTRL.ROLE of a slice. -/
def State.role (s : State) (d i : Nat) : Nat := s.f (Rg.SLICE_CTRL d i) Fd.SLICE_CTRL_ROLE

/-- SLICE_STAT.BUCKETS of a slice. -/
def State.buckets (s : State) (d i : Nat) : Nat := s.f (Rg.SLICE_STAT d i) Fd.SLICE_STAT_BUCKETS

/-- Slices of a direction in a role, ascending. -/
def State.inRole (s : State) (d r : Nat) : List Nat := (List.range s.part.slices).filter fun i => s.role d i == r

/-- STEER_STAT brought up to the roles; a direction that loses its last DORMANT slice flags NO_SPARE (R104). -/
def State.steerStat (s : State) : State :=
  let di := (s.inRole 0 rlDormant).head?
  let de := (s.inRole 1 rlDormant).head?
  let lost := (di.isNone && !s.fb Rg.STEER_STAT Fd.STEER_STAT_NO_SPARE_IN) ||
    (de.isNone && !s.fb Rg.STEER_STAT Fd.STEER_STAT_NO_SPARE_EG)
  (s.wr Rg.STEER_STAT (b2n di.isNone * 2 ^ 31 + b2n de.isNone * 2 ^ 30 + di.getD 15 * 2 ^ 20 + de.getD 15 * 2 ^ 16)).setIntIf
    lost Pg.STEER Ib.STEER_NO_SPARE

/-- A slice's role set. -/
def State.setRole (s : State) (d i r : Nat) : State := (s.setF (Rg.SLICE_CTRL d i) Fd.SLICE_CTRL_ROLE r).steerStat

/-- The bucket entry of a direction: SLICE in [3:0], PAUSED in [8]. -/
def State.bucketEnt (s : State) (d idx : Nat) : Nat := s.tbl Pg.STEER d idx

/-- A bucket entry made to name a slice, not paused; BUCKETS of both slices follow. -/
def State.pointBucket (s : State) (d idx i : Nat) : State :=
  let old := s.bucketEnt d idx % 16
  let s1 := s.setTbl Pg.STEER d idx i
  if old = i then s1 else
  let s2 := if s1.isSlice d old then s1.setF (Rg.SLICE_STAT d old) Fd.SLICE_STAT_BUCKETS (s1.buckets d old - 1) else s1
  s2.setF (Rg.SLICE_STAT d i) Fd.SLICE_STAT_BUCKETS (s2.buckets d i + 1)

/-- The bucket indices of a direction that name a slice, ascending. -/
def State.bucketsOf (s : State) (d i : Nat) : List Nat := (List.range 16384).filter fun x => s.bucketEnt d x % 16 == i

/-! ## Flow hash and steering class -/

/-- What the light pre-parser finds (R89). -/
structure Pre where
  pcp : Option Nat := none
  vid : Option Nat := none
  ety : Option Nat := none
  labels : Option Nat := none
  mplsTc : Option Nat := none
  sa : Option Nat := none
  da : Option Nat := none
  proto : Option Nat := none
  dscp : Option Nat := none
  flow : Option Nat := none
  ports : Option Nat := none
deriving DecidableEq, Repr

/-- Bytes `i` to `i + n − 1` of a frame as one number, `none` where the frame ends before them. -/
def field (b : List Byte) (i n : Nat) : Option Nat := if i + n ≤ b.length then some (beNat ((b.drop i).take n)) else none

/-- The L4 ports of TCP, UDP and SCTP: the first four bytes of the header. -/
def prePorts (b : List Byte) (i proto : Nat) : Option Nat :=
  if proto = 6 ∨ proto = 17 ∨ proto = 132 then field b i 4 else none

/-- An IPv4 header at `i` (R89). A fragment's ports stay unfound. -/
def preIp4 (b : List Byte) (i : Nat) (x : Pre) : Pre :=
  let ihl := (field b i 1).getD 0 % 16
  let proto := field b (i + 9) 1
  let frag := (field b (i + 6) 2).getD 0 % 2 ^ 14
  { x with
    dscp := (field b (i + 1) 1).map (· / 4)
    proto := proto
    sa := field b (i + 12) 4
    da := field b (i + 16) 4
    ports := if frag = 0 then prePorts b (i + 4 * ihl) (proto.getD 0) else none }

/-- An IPv6 header at `i` (R89). -/
def preIp6 (b : List Byte) (i : Nat) (x : Pre) : Pre :=
  let proto := field b (i + 6) 1
  { x with
    dscp := (field b i 2).map fun w => w / 64 % 64
    flow := (field b i 4).map (· % 2 ^ 20)
    proto := proto
    sa := field b (i + 8) 16
    da := field b (i + 24) 16
    ports := prePorts b (i + 40) (proto.getD 0) }

/-- Up to three MPLS labels from `i`, then IP by the first nibble after the bottom of stack (R89). -/
def preMpls (b : List Byte) : Nat → Nat → Pre → Pre
  | 0, _, x => x
  | n + 1, i, x =>
    match field b i 4 with
    | none => x
    | some w =>
      let x1 := { x with labels := some (x.labels.getD 0 * 2 ^ 20 + w / 2 ^ 12), mplsTc := x.mplsTc.or (some (w / 2 ^ 9 % 8)) }
      if bit w 8 then
        let v := (field b (i + 4) 1).getD 0 / 16
        if v = 4 then preIp4 b (i + 4) x1 else if v = 6 then preIp6 b (i + 4) x1 else x1
      else preMpls b n (i + 4) x1

/-- Up to two VLAN tags, then what the EtherType at `i` names (R89). -/
def preL2 (b : List Byte) : Nat → Nat → Pre → Pre
  | n, i, x =>
    match field b i 2 with
    | none => x
    | some e =>
      if e = 0x8100 ∨ e = 0x88A8 then
        match n with
        | 0 => { x with ety := some e }
        | m + 1 =>
          let t := (field b (i + 2) 2).getD 0
          preL2 b m (i + 4) { x with pcp := x.pcp.or (some (t / 2 ^ 13)), vid := x.vid.or (some (t % 2 ^ 12)) }
      else
        let x1 := { x with ety := some e }
        if e = 0x0800 then preIp4 b (i + 2) x1
        else if e = 0x86DD then preIp6 b (i + 2) x1
        else if e = 0x8847 ∨ e = 0x8848 then preMpls b 3 (i + 2) x1
        else x1

/-- The pre-parser on a frame (R89). -/
def preParse (b : List Byte) : Pre := preL2 b 2 12 {}

/-- One bit of a CRC-16 with polynomial 0x1021. -/
def crc16Step (c : Nat) (x : Bool) : Nat :=
  let y := (c * 2) % 2 ^ 16
  if bit c 15 != x then y ^^^ 0x1021 else y

/-- A CRC-16 with polynomial 0x1021 over a list of bits. -/
def crc16 (init : Nat) (l : List Bool) : Nat := l.foldl crc16Step init

/-- The bits of a byte string, most significant first. -/
def byteBits (l : List Byte) : List Bool := l.flatMap fun b => bitsOf 8 b.toNat

/-- FLOW_HASH of a frame of a port (R89). Fields not found enter as zeros. -/
def State.flowHash (s : State) (p : Nat) (b : List Byte) : Nat :=
  let x := preParse b
  let en := s.f (Rg.STEER_HASH_CFG p) Fd.STEER_HASH_CFG_FIELDS
  let vals : List (Option Nat) := [field b 0 6, field b 6 6, x.vid, x.ety, x.sa, x.da, x.proto, x.ports, x.flow, x.labels]
  let l := vals.zipIdx.map fun e => if bit en e.2 then some (e.1.getD 0) else none
  crc16 (s.f (Rg.STEER_HASH_CFG p) Fd.STEER_HASH_CFG_SEED) (byteBits (Config.hashLayout l)) % 2 ^ 16

/-- The steering class of a frame of a port (R91). -/
def State.steerClass (s : State) (p : Nat) (b : List Byte) : Nat :=
  let x := preParse b
  let a := Rg.STEER_TC_CFG p
  let src := s.f a Fd.STEER_TC_CFG_SRC
  let v := if src = 1 then x.pcp else if src = 2 then x.dscp.map (· / 8) else if src = 3 then x.mplsTc else none
  match v with
  | some c => bits (s.rd a) (3 * c) 3
  | none => s.f a Fd.STEER_TC_CFG_DEFAULT_TC

/-- Whether a class is lossless in steering. -/
def State.steerLossless (s : State) (c : Nat) : Bool := bit (s.f Rg.STEER_CFG Fd.STEER_CFG_LOSSLESS_TC) c

/-! ## Pools -/

/-- Packets waiting in a pool. -/
def poolCount (l : List (Option Pkt)) : Nat := l.countP (·.isSome)

/-- POOL and the pause requests of a slice brought up to its pool (R93). -/
def State.poolTouch (s : State) (d i : Nat) : State :=
  let x := s.slice d i
  let n := poolCount x.pool
  let s1 := s.setF (Rg.SLICE_STAT d i) Fd.SLICE_STAT_POOL n
  if d ≠ 0 then s1
  else if s.f Rg.STEER_CFG Fd.STEER_CFG_XOFF ≤ n then
    let want := ((x.pool.filterMap id).filter fun k => s.steerLossless k.stc).map fun k => (k.md.lport, k.stc)
    let new := (want.filter fun w => !x.pauses.contains w).eraseDups
    (s1.setSlice d i { x with xoff := true, pauses := x.pauses ++ new }).bump Rg.STEER_XOFF_CNT new.length
  else if n ≤ s.f Rg.STEER_CFG Fd.STEER_CFG_XON then s1.setSlice d i { x with xoff := false, pauses := [] }
  else s1

/-- The steering buffer of a packet's line group gives its frame back (R92). -/
def State.freeBuf (s : State) (k : Pkt) : State :=
  let a := Rg.SBUF_USED (k.md.lport / 8)
  (s.setF a Fd.SBUF_USED_BYTES (s.f a Fd.SBUF_USED_BYTES - (k.orig.length + 4))).peak (Rg.SBUF_PEAK (k.md.lport / 8)) (s.f a Fd.SBUF_USED_BYTES)

/-- A packet discarded at the steering FIFO tail under STEER_DROP_CNT (R30, R92, R104); an ingress frame leaves its buffer. -/
def State.steerDrop (s : State) (d : Nat) (k : Pkt) : State := (if d = 0 then s.freeBuf k else s).bump Rg.STEER_DROP_CNT

/-- A packet placed in a slice's pool, or discarded: a full pool by class, a slice that no other slice can relieve
whatever the class and direction (R92, R104). An egress pool discards nothing for lack of space (R95). -/
def State.place (s : State) (d i : Nat) (k : Pkt) : State :=
  let x := s.slice d i
  if x.stranded then s.steerDrop d k
  else if d = 0 ∧ 512 ≤ poolCount x.pool then
    if s.steerLossless k.stc then ((s.freeBuf k).bump Rg.STEER_LL_DROP_CNT).setInt Pg.STEER Ib.STEER_LL_DROP
    else s.steerDrop d k
  else (s.setSlice d i { x with pool := x.pool ++ [some k] }).poolTouch d i

/-- The started move that holds the packets of a bucket (R97). -/
def State.holder (s : State) (d bk : Nat) : Option Move :=
  (s.move d).filter fun m => bit (s.bucketEnt d bk) 8 && m.started && m.index == bk

/-- A packet reaches its bucket: its slice's pool, or the hold buffer of a move while the bucket is paused (R92, R97). -/
def State.toBucket (s : State) (d : Nat) (k : Pkt) : State :=
  match s.holder d k.bucket with
  | some m => s.setMove d (some { m with held := m.held ++ [k] })
  | none => s.place d (s.bucketEnt d k.bucket % 16) k

/-- An eligible frame of a port is hashed and placed (R89 to R92), or discarded at the steering stage while the
die-to-die link is DOWN, or while it is IMPAIRED and the frame is beyond its capacity (R30, R34, R35). -/
def State.steerEnqueue (s : State) (p : Nat) (beyond : Bool) : State :=
  match s.macQ.find? (·.port == p) with
  | none => s
  | some fr =>
    let s1 : State := { s with macQ := s.macQ.erase fr }
    if s.d2dDown || (beyond && s.f (Rg.D2D_STAT 0) Fd.D2D_STAT_STATE == 1) then
      (s1.bump (Rg.D2D_DISCARD_CNT 0)).setInt (Pg.D2D 0) Ib.D2D_DISCARD else
    let len := fr.bytes.length
    let b := fr.bytes.take (len - 4)
    let h := s.flowHash p b
    let c := s.steerClass p b
    let k : Pkt := { bytes := b, bad := fr.bad, bucket := 256 * p + h % 256, stc := c, gen := s.cm.gen,
                     orig := b, md := { tc := c, version := s.f Rg.CMT_VER Fd.CMT_VER_CUR, len := len, lport := p, ts := fr.ts, hash := h } }
    let u := s.f (Rg.SBUF_USED (p / 8)) Fd.SBUF_USED_BYTES + len
    if 524288 < u then s1.bump Rg.STEER_DROP_CNT
    else ((s1.setF (Rg.SBUF_USED (p / 8)) Fd.SBUF_USED_BYTES u).peak (Rg.SBUF_PEAK (p / 8)) u).toBucket 0 k

/-- STEER_ENQUEUE (R92). -/
def execSteerEnqueue (port : Nat) (beyond : Bool) (s : State) : Out := .next (s.steerEnqueue port beyond)

/-- Packets in ingress slices, pools and the hold buffer that carry the previous table version (R54, R98). -/
def State.prevCount (s : State) : Nat :=
  let old (k : Pkt) : Bool := decide (k.gen < s.cm.gen)
  let held := match s.moveIn with
    | some m => m.held.countP old
    | none => 0
  held + ((s.slices.filter (·.1 < 16)).map fun e =>
    (e.2.pool.filterMap id).countP old + e.2.inside.countP old + e.2.first.countP old).sum

/-! ## Self-tests (R407) -/

/-- A running self-test is aborted. -/
def State.abortTest (s : State) (d i : Nat) : State :=
  let a := Rg.SLICE_STAT d i
  if s.fb a Fd.SLICE_STAT_SELFTEST_BUSY then
    ((s.setF a Fd.SLICE_STAT_SELFTEST_BUSY 0).setF a Fd.SLICE_STAT_SELFTEST_PASS 0).setInt (Pg.SLICE d i) Ib.SLICE_SELFTEST_DONE
  else s

/-- A self-test starts, where the role allows one and none runs. -/
def State.startTest (s : State) (d i : Nat) : State :=
  let r := s.role d i
  if (r = rlDormant ∨ r = rlService) ∧ !s.fb (Rg.SLICE_STAT d i) Fd.SLICE_STAT_SELFTEST_BUSY then
    s.setF (Rg.SLICE_STAT d i) Fd.SLICE_STAT_SELFTEST_BUSY 1
  else s.setInt (Pg.SLICE d i) Ib.SLICE_REFUSED

/-- A slice takes over a bucket: a running self-test ends, and DORMANT becomes ACTIVE (R100, R407). -/
def State.receiveBucket (s : State) (d i : Nat) : State :=
  let s1 := s.abortTest d i
  if s1.role d i = rlDormant then s1.setRole d i rlActive else s1

/-! ## Moves and evacuations -/

/-- An evacuation ends: `done` or stopped (R101). -/
def State.evacEnd (s : State) (d : Nat) (done : Bool) : State :=
  let a := Rg.STEER_EVAC_STAT d
  (((s.setEvac d none).setF a Fd.STEER_EVAC_STAT_BUSY 0).setF a
    (if done then Fd.STEER_EVAC_STAT_DONE else Fd.STEER_EVAC_STAT_STOPPED) 1).setInt Pg.STEER Ib.STEER_EVAC_DONE

/-- Why a move to `target` is refused: the first condition of R96 in the order BUSY, BAD_INDEX, BAD_TARGET, SAME_SLICE. -/
def State.moveRefusal (s : State) (d idx target holder : Nat) : Nat :=
  if (s.move d).isSome ∨ (s.evac d).isSome then 1
  else if d = 0 ∧ 256 * s.part.lanes ≤ idx then 4
  else if !s.isSlice d target ∨ !(s.role d target = rlActive ∨ s.role d target = rlDormant) then 3
  else if holder = target then 2
  else 0

/-- A refusal recorded (R96). -/
def State.moveRefuse (s : State) (d code : Nat) : State :=
  ((s.setF (Rg.STEER_MOVE_STAT d) Fd.STEER_MOVE_STAT_REFUSE code).setF (Rg.STEER_MOVE_STAT d) Fd.STEER_MOVE_STAT_RESULT 3).setInt
    Pg.STEER Ib.STEER_REFUSED

/-- A move accepted, to start at tick `start` (R96, R97). -/
def State.moveAccept (s : State) (d idx target start : Nat) (byEvac : Bool) : State :=
  (s.setMove d (some ⟨idx, s.bucketEnt d idx % 16, target, start, false, byEvac, []⟩)).wr (Rg.STEER_MOVE_STAT d)
    (2 ^ 31 + s.f (Rg.STEER_MOVE_STAT d) Fd.STEER_MOVE_STAT_REFUSE * 2 ^ 24 + idx % 2 ^ 14 * 2 ^ 4 + target % 16)

/-- A write of STEER_MOVE in clock `clk` (R96). -/
def State.steerMove (s : State) (clk v : Nat) : State :=
  if !bit v 31 then s else
  let d := bits v 30 1
  let idx := bits v 16 14
  let target := v % 16
  let code := s.moveRefusal d idx target (s.bucketEnt d idx % 16)
  if code ≠ 0 then s.moveRefuse d code
  else s.moveAccept d idx target (s.tk.count + (if clk ≤ 1791 then 1 else 2)) false

/-- STEER_MOVE (R96). -/
def execSteerMove (a : Acc) (v : Word) (s : State) : Out :=
  .next (s.onWrite a Rg.STEER_MOVE fun t => t.steerMove a.clk v.toNat)

/-- The move under way ends with a result code, its BUSY clear. -/
def State.moveEnd (s : State) (d result : Nat) : State :=
  ((s.setMove d none).setF (Rg.STEER_MOVE_STAT d) Fd.STEER_MOVE_STAT_BUSY 0).setF (Rg.STEER_MOVE_STAT d) Fd.STEER_MOVE_STAT_RESULT result

/-- An accepted move of a bucket of slice `i` that has not started ends FENCED: the bucket is re-homed with the slice's (R99). -/
def State.moveVoid (s : State) (d i : Nat) : State :=
  match s.move d with
  | none => s
  | some m => if m.src = i ∧ m.started = false then s.moveEnd d 2 else s

/-- The start tick of an accepted move: the bucket is paused and a drain marker follows its last entry (R97). A move whose source has been
fenced and not yet re-homed does not start (R99). -/
def State.moveStart (s : State) (d : Nat) : State :=
  match s.move d with
  | none => s
  | some m =>
    if m.started ∨ s.tk.count < m.start then s
    else if (s.slice d m.src).rehome then s.moveVoid d m.src else
    let x := s.slice d m.src
    (((s.setTbl Pg.STEER d m.index (setBit (s.bucketEnt d m.index) 8)).setSlice d m.src { x with pool := x.pool ++ [none] }).setMove d
      (some { m with started := true })).abortTest d m.target

/-- MOVE_START (R97). -/
def execMoveStart (dir : Nat) (s : State) : Out := .next (if dir < 2 then s.moveStart dir else s)

/-- What a move that has ended means for the evacuation that made it (R101). -/
def State.evacMoved (s : State) (d : Nat) (moved : Bool) : State :=
  match s.evac d with
  | none => s
  | some e =>
    let a := Rg.STEER_EVAC_STAT d
    let s1 := if moved then s.setF a Fd.STEER_EVAC_STAT_MOVED (s.f a Fd.STEER_EVAC_STAT_MOVED + 1) else s
    if e.stop then s1.evacEnd d false else if 16384 ≤ e.next then s1.evacEnd d true else s1

/-- Drain markers taken out of a slice's pool. -/
def State.unmark (s : State) (d i : Nat) : State :=
  let x := s.slice d i
  s.setSlice d i { x with pool := x.pool.filter (·.isSome) }

/-- The boundary after a move's tick: the entry names the target and the held packets enter its pool (R97). -/
def State.moveDone (s : State) (d : Nat) : State :=
  match s.move d with
  | none => s
  | some m =>
    if !m.started ∨ s.tk.count ≤ m.start then s else
    let s1 := (((s.unmark d m.src).moveEnd d 1).pointBucket d m.index m.target).receiveBucket d m.target
    let s2 := m.held.foldl (fun t k => t.place d m.target k) s1
    let s3 := (s2.bump Rg.STEER_MOVE_CNT).setInt Pg.STEER Ib.STEER_MOVE_DONE
    if m.evac then s3.evacMoved d true else s3

/-- MOVE_DONE (R97). -/
def execMoveDone (dir : Nat) (s : State) : Out := .next (if dir < 2 then s.moveDone dir else s)

/-- A write of STEER_EVAC: STOP ends the running evacuation after the current move; GO starts one or is refused (R101). -/
def State.steerEvac (s : State) (v : Nat) : State :=
  let d := bits v 30 1
  let s1 := if !bit v 29 then s else
    match s.evac d with
    | none => s
    | some e =>
      match s.move d with
      | some _ => s.setEvac d (some { e with stop := true })
      | none => s.evacEnd d false
  if !bit v 31 then s1 else
  let src := v % 16
  let dst := bits v 4 4
  let code := s1.moveRefusal d 0 dst src
  if code ≠ 0 then s1.moveRefuse d code
  else (s1.setEvac d (some ⟨src, dst, 0, false⟩)).wr (Rg.STEER_EVAC_STAT d) (2 ^ 31)

/-- STEER_EVAC (R101). -/
def execSteerEvac (a : Acc) (v : Word) (s : State) : Out :=
  .next (s.onWrite a Rg.STEER_EVAC fun t => t.steerEvac v.toNat)

/-- EVAC_STOP (R101): a write of STEER_EVAC with STOP. -/
def execEvacStop (a : Acc) (v : Word) (s : State) : Out :=
  .next (s.onWrite a Rg.STEER_EVAC fun t => t.steerEvac v.toNat)

/-- The evacuation's next bucket: its move starts this tick, or the evacuation is done. A source that has been fenced is re-homed first
(R101). -/
def State.evacNext (s : State) (d : Nat) : State :=
  match s.evac d, s.move d with
  | some e, none =>
    if e.stop then s.evacEnd d false
    else if (s.slice d e.src).rehome then s else
    match (List.range 16384).find? fun x => decide (e.next ≤ x) && s.bucketEnt d x % 16 == e.src && s.isSlice d e.src with
    | none => (s.setF (Rg.STEER_EVAC_STAT d) Fd.STEER_EVAC_STAT_NEXT_INDEX 0).evacEnd d true
    | some x =>
      (((s.setEvac d (some { e with next := x + 1 })).setF (Rg.STEER_EVAC_STAT d) Fd.STEER_EVAC_STAT_NEXT_INDEX
        ((x + 1) % 16384)).moveAccept d x e.dst s.tk.count true).moveStart d
  | _, _ => s

/-- EVAC_NEXT_MOVE (R101). -/
def execEvacNextMove (dir : Nat) (s : State) : Out := .next (if dir < 2 then s.evacNext dir else s)

/-! ## Faults and fences -/

/-- The move of a direction settled by the fence of slice `i` (R99): a started move's held packets go first with the
fenced slice's buckets, its entry PAUSED until they are re-homed; a move not started does not start. -/
def State.fenceMove (s : State) (d i : Nat) : State :=
  match s.move d with
  | none => s
  | some m =>
    if m.src ≠ i ∧ m.target ≠ i then s else
    let s1 := (s.unmark d m.src).moveEnd d 2
    let s2 := if !m.started then s1 else
      let t := s1.pointBucket d m.index i
      let x := t.slice d i
      (t.setTbl Pg.STEER d m.index (setBit (t.bucketEnt d m.index) 8)).setSlice d i { x with first := x.first ++ m.held }
    if m.evac then s2.evacMoved d false else s2

/-- The evacuation of a direction when its destination is fenced (R101). -/
def State.fenceEvac (s : State) (d i : Nat) : State :=
  match s.evac d with
  | some e => if e.dst = i then s.evacEnd d false else s
  | none => s

/-- Packets inside a slice discarded, with the contexts of its cluster that work on them (R103). -/
def State.dropInside (s : State) (d i : Nat) : State :=
  let x := s.slice d i
  let s1 := (s.setSlice d i { x with inside := [] }).bump (Rg.SLICE_FENCE_DROP_CNT d i) x.inside.length
  let s2 := if d = 0 then x.inside.foldl (fun t k => t.freeBuf k) s1 else s1
  s2.killCtxs (9 * d + i)

/-- A slice fenced (R99, R103, R354); FENCE_REHOME follows 64 clocks later. -/
def State.fence (s : State) (d i : Nat) : State :=
  let s1 := ((s.abortTest d i).setRole d i rlFenced).dropInside d i
  let s2 := (s1.fenceMove d i).fenceEvac d i
  let s3 := s2.setSlice d i { s2.slice d i with rehome := true }
  ((s3.bump Rg.STEER_FENCE_CNT).setInt Pg.STEER Ib.STEER_FENCE).log (Pg.SLICE d i) 0x0030
    (9 * d + i + s3.rd (Rg.SLICE_FAULT d i) * 2 ^ 8)

/-- A fault source of a slice recorded: it fences where enabled, else it is counted (R102). -/
def State.sliceFault (s : State) (d i src : Nat) : State :=
  if !s.isSlice d i || !s.pageOn (Pg.SLICE d i / 0x1000) then s else
  let a := Rg.SLICE_FAULT d i
  let s1 := (s.wr a (setBit (s.rd a) src)).setInt (Pg.SLICE d i) Ib.SLICE_FAULT
  if src = 5 ∨ bit (s1.f (Rg.SLICE_FAULT_EN d i) Fd.SLICE_FAULT_EN_EN) src then
    if s1.role d i = rlFenced then s1 else s1.fence d i
  else s1.bump (Rg.SLICE_FAULT_CNT d i)

/-- SLICE_FAULT (R102): sources 0 to 4. -/
def execSliceFault (dir slice src : Nat) (s : State) : Out :=
  .next (if src < 5 then s.sliceFault dir slice src else s)

/-- PIPE_TIMEOUT (R102): a packet not handed off within 1,024 clocks of entry. -/
def execPipeTimeout (dir slice : Nat) (s : State) : Out := .next (s.sliceFault dir slice 0)

/-- The waiting packets of a fenced slice taken out of it, the held ones of an interrupted move first (R103). -/
def State.takeWaiting (s : State) (d i : Nat) : State × List Pkt :=
  let x := s.slice d i
  let s1 := s.setSlice d i { x with pool := [], first := [], rehome := false, stranded := false }
  (s1.poolTouch d i, x.first ++ x.pool.filterMap id)

/-- The buckets of slice `i` given to the slices of a list in turn, and its waiting packets with them (R103, R104). -/
def State.dealBuckets (s : State) (d i : Nat) (tgts : List Nat) : State :=
  let idx := s.bucketsOf d i
  let s1 := idx.zipIdx.foldl (fun t e => t.pointBucket d e.1 (lget i tgts (e.2 % tgts.length))) s
  let s2 := if idx = [] then s1 else tgts.foldl (fun t j => t.receiveBucket d j) s1
  let (s3, ws) := s2.takeWaiting d i
  ws.foldl (fun t k =>
    let j := t.bucketEnt d k.bucket % 16
    if 512 ≤ poolCount (t.slice d j).pool then t.steerDrop d k else t.place d j k) s3

/-- PAUSED cleared in the entries that keep naming slice `i` (R104). -/
def State.unpause (s : State) (d i : Nat) : State :=
  ((s.bucketsOf d i).filter fun x => bit (s.bucketEnt d x) 8).foldl (fun t x => t.setTbl Pg.STEER d x i) s

/-- The re-homing of a fenced slice at clock c + 64 (R99, R103, R104). -/
def State.fenceRehome (s0 : State) (d i : Nat) : State :=
  if !(s0.slice d i).rehome then s0 else
  let s := s0.moveVoid d i
  match (s.inRole d rlDormant).head? with
  | some j => s.dealBuckets d i [j]
  | none =>
    let s1 := s.setInt Pg.STEER Ib.STEER_NO_SPARE
    let act := s1.inRole d rlActive
    if act ≠ [] then s1.dealBuckets d i act
    else if s1.buckets d i = 0 then (s1.takeWaiting d i).1
    else
      let (s2, ws) := (s1.unpause d i).takeWaiting d i
      ws.foldl (fun t k => t.steerDrop d k) (s2.setSlice d i { s2.slice d i with stranded := true })

/-- FENCE_REHOME (R103). -/
def execFenceRehome (dir slice : Nat) (s : State) : Out :=
  .next (if s.isSlice dir slice then s.fenceRehome dir slice else s)

/-! ## Roles -/

/-- Whether an accepted move that has not ended or a running evacuation has the slice as its target (R100). -/
def State.targeted (s : State) (d i : Nat) : Bool :=
  (match s.move d with
   | some m => m.target == i
   | none => false) ||
  (match s.evac d with
   | some e => e.dst == i
   | none => false)

/-- Whether the table of R100 lists a role write. -/
def State.roleAllowed (s : State) (d i new : Nat) : Bool :=
  let cur := s.role d i
  (cur == rlActive && (new == rlDormant || new == rlService) && s.buckets d i == 0 && !s.targeted d i) ||
  (cur == rlDormant && new == rlService && !s.targeted d i) ||
  (cur == rlService && new == rlDormant && s.fb (Rg.SLICE_STAT d i) Fd.SLICE_STAT_SELFTEST_PASS) ||
  (cur == rlFenced && new == rlService && s.buckets d i == 0)

/-- A slice has become DORMANT: stranded buckets of the direction go to it (R104). -/
def State.relieve (s : State) (d j : Nat) : State :=
  (List.range s.part.slices).foldl (fun t i =>
    if (t.slice d i).stranded && i != j && t.role d j == rlDormant then t.dealBuckets d i [j] else t) s

/-- A write of ROLE (R100). -/
def State.roleWrite (s : State) (d i new : Nat) : State :=
  if new = s.role d i then s
  else if !s.roleAllowed d i new then s.setInt (Pg.SLICE d i) Ib.SLICE_REFUSED
  else if new = rlService then
    ((s.abortTest d i).setRole d i rlService).setF (Rg.SLICE_STAT d i) Fd.SLICE_STAT_SELFTEST_PASS 0
  else (s.setRole d i rlDormant).relieve d i

/-- A write of SLICE_CTRL: SELFTEST_PERIOD, then ROLE, SELFTEST and FENCE (R100, R102, R407). -/
def State.sliceCtrl (s : State) (d i v : Nat) : State :=
  let s1 := s.setF (Rg.SLICE_CTRL d i) Fd.SLICE_CTRL_SELFTEST_PERIOD (bits v 16 8)
  let s2 := s1.roleWrite d i (v % 4)
  let s3 := if bit v 31 then s2.startTest d i else s2
  if bit v 30 then s3.sliceFault d i 5 else s3

/-- A register write of SLICE_CTRL by a requester. -/
def State.onSliceCtrl (s : State) (a : Acc) (d i v : Nat) : State :=
  if s.isSlice d i then s.onWrite a (Rg.SLICE_CTRL d i) fun t => t.sliceCtrl d i v else s

/-- ROLE_WRITE (R100). -/
def execRoleWrite (a : Acc) (dir slice : Nat) (v : Word) (s : State) : Out := .next (s.onSliceCtrl a dir slice v.toNat)

/-- FENCE (R103): a write of SLICE_CTRL with FENCE. -/
def execFence (a : Acc) (dir slice : Nat) (v : Word) (s : State) : Out := .next (s.onSliceCtrl a dir slice v.toNat)

/-- SELFTEST (R407): a write of SLICE_CTRL with SELFTEST. -/
def execSelftest (a : Acc) (dir slice : Nat) (v : Word) (s : State) : Out := .next (s.onSliceCtrl a dir slice v.toNat)

/-- A DORMANT slice starts its periodic self-test (R407). -/
def State.testPeriodic (s : State) (d i : Nat) : State :=
  if s.isSlice d i && s.role d i == rlDormant && s.f (Rg.SLICE_CTRL d i) Fd.SLICE_CTRL_SELFTEST_PERIOD != 0 &&
      !s.fb (Rg.SLICE_STAT d i) Fd.SLICE_STAT_SELFTEST_BUSY then s.startTest d i else s

/-- SELFTEST_PERIODIC (R407). -/
def execSelftestPeriodic (dir slice : Nat) (s : State) : Out := .next (s.testPeriodic dir slice)

/-- A self-test ends after 64 ticks with its result; a mismatch is fault source SELFTEST (R102, R407). -/
def State.testDone (s : State) (d i : Nat) (pass : Bool) : State :=
  let a := Rg.SLICE_STAT d i
  if !s.isSlice d i || !s.fb a Fd.SLICE_STAT_SELFTEST_BUSY then s else
  let s1 := ((s.setF a Fd.SLICE_STAT_SELFTEST_BUSY 0).setF a Fd.SLICE_STAT_SELFTEST_PASS (b2n pass)).setInt (Pg.SLICE d i) Ib.SLICE_SELFTEST_DONE
  if pass then s1 else s1.sliceFault d i 4

/-- SELFTEST_DONE (R407). -/
def execSelftestDone (dir slice : Nat) (pass : Bool) (s : State) : Out := .next (s.testDone dir slice pass)

/-- A write to the bucket tables through the table command interface: the status of R166 and the state (chapter 4, STEER). -/
def State.steerTblWrite (s : State) (d idx slice : Nat) : State × Nat :=
  if d = 0 ∧ 256 * s.part.lanes ≤ idx then (s, 0x08)
  else
    let portBusy := d == 0 && s.lkState (idx / 256) != lkDown
    let egBusy := d == 1 && s.fb (Pg.EQS + 0x008) ⟨31, 1⟩
    let bad := !s.isSlice d slice || !(s.role d slice == rlActive || s.role d slice == rlDormant)
    let moving := match s.move d with
      | some m => m.index == idx
      | none => false
    if portBusy || egBusy || bad || bit (s.bucketEnt d idx) 8 || moving then (s, 0x0A)
    else ((s.pointBucket d idx slice).receiveBucket d slice, 0)

end Sys2Proof.Machine
end

