-- ==== Sys2Proof/Machine/Ecc.lean ====
section
/-! DEFINITION. Reads and writes of protected words (chapter 13, R298 to R305, R311): the errors a stored word holds, what
a read of it counts and captures, PG_FLIP on the next write, and storms of corrected errors. -/
namespace Sys2Proof.Machine

/-- A class's corrections in the second reach RAS_CE_THR: it enters storm (R311). -/
def State.ceCount (s : State) (die cls : Nat) : State :=
  let n := sget 0 s.ra.ceSec (16 * die + cls) + 1
  let s1 := { s with ra := { s.ra with ceSec := sset 0 s.ra.ceSec (16 * die + cls) n } }.bump (Rg.RAS_CE_CNT die cls)
  if s1.f (Rg.RAS_CE_THR die) Fd.RAS_CE_THR_CE_THR ≤ n ∧ !bit (s1.rd (Rg.RAS_STORM die)) cls then
    (s1.wr (Rg.RAS_STORM die) (setBit (s1.rd (Rg.RAS_STORM die)) cls)).setInt (Pg.RAS die) Ib.RAS_CE_STORM
  else s1

/-- An uncorrectable error logged, at most once per page and second (R354). -/
def State.logUncorr (s : State) (pg cls : Nat) : State :=
  if s.ra.ueLogged.contains pg then s
  else { s with ra := { s.ra with ueLogged := pg :: s.ra.ueLogged } }.log pg 0x0036 cls

/-- Whether a page is an HBM controller's: its stored words are inner codewords, numbered by byte ÷ 16 within a rank. -/
def isHbmc (pg : Nat) : Bool := decide (Pg.HBMC 0 ≤ pg ∧ pg ≤ Pg.HBMC 3)

/-- A read that met a word with errors: counted by class, captured in the page (R304). `sinter`: found by Sinter. In HBMC
pages the address captured is the byte address of the burst, and HALF its codeword. Reads of Hash SRAM banks count in
their group's page (HSG registers). -/
def State.meetErr (s : State) (pg cls mem word : Nat) (e0 : WordErr) (sinter : Bool) : State :=
  let die := pg / 0x1000000
  let addr := if isHbmc pg then word / 2 * 32 else word
  let e := if isHbmc pg then { e0 with half := word % 2 } else { e0 with half := 0 }
  if e.kind = 0 then s
  else
  let s := if pg = Pg.EXM ∧ mem < 64 then s.bump (if e.kind = 1 then Rg.HSG_CE_CNT (mem / 8) else Rg.HSG_UE_CNT (mem / 8)) else s
  if e.kind = 1 then
    let s1 := s.ceCount die cls
    s1.captureErr pg 1 mem addr sinter e.symbol e.pattern e.syn e.half (!bit (s1.rd (Rg.RAS_STORM die)) cls)
  else if e.kind = 2 then
    (((s.bump (Rg.RAS_UE_CNT die cls)).captureErr pg 2 mem addr sinter 0 0 e.syn e.half).logUncorr pg cls)
  else (s.bump (Rg.RAS_POISON_READ_CNT die cls)).captureErr pg 3 mem addr sinter 0 0 e.syn e.half

/-- An error that a read of a data memory of a page meets (R305): counted and captured as any. Answers whether the data may be used. -/
def State.dataErr (s : State) (pg cls : Nat) (e : Option MemErr) : State × Bool :=
  match e with
  | none => (s, true)
  | some x => (s.meetErr pg cls 0 x.addr { kind := min 3 x.kind, symbol := x.symbol, pattern := x.pattern, syn := x.syn } false, decide (x.kind < 2))

/-- A read of one stored word: whether its data may be used (R305). -/
def State.readWord (s : State) (pg cls mem addr : Nat) : State × Bool :=
  let e := s.mark pg mem addr
  (s.meetErr pg cls mem addr e false, decide (e.kind < 2))

/-- A read of `n` consecutive stored words. -/
def State.readWords (s : State) (pg cls mem addr : Nat) : Nat → State × Bool
  | 0 => (s, true)
  | n + 1 =>
    let a := s.readWord pg cls mem addr
    let b := State.readWords a.1 pg cls mem (addr + 1) n
    (b.1, a.2 && b.2)

/-- The errors that an armed PG_FLIP writes into a word (R303). The raw syndrome of flipped symbols is a free value: the
spec gives no check matrix. -/
def flipErr (v syn : Nat) : WordErr :=
  let sa := bits v 23 6
  let pa := bits v 19 4
  let sb := bits v 13 6
  let pb := bits v 9 4
  if bit v 30 then { kind := 3, syn := 0xFFFF, half := bits v 29 1 }
  else if sa = sb ∨ pb = 0 ∨ pa = 0 then
    let p := if sa = sb then pa ^^^ pb else if pb = 0 then pa else pb
    if p = 0 then {} else { kind := 1, symbol := if pa = 0 then sb else sa, pattern := p, syn := syn, half := bits v 29 1 }
  else { kind := 2, syn := syn, half := bits v 29 1 }

/-- A word written whole: clean, or with the flip that PG_FLIP of its page has armed (R300, R303). -/
def State.wroteWord (s : State) (pg mem addr : Nat) : State :=
  let a := pg + 0x03C
  let v := s.rd a
  if bit v 31 then
    ((s.setMark pg mem addr (flipErr v (s.freeVal 16))).draw).wr a (clrBit v 31)
  else s.setMark pg mem addr {}

/-- `n` consecutive words written whole, the flip landing on the lowest. -/
def State.wroteWords (s : State) (pg mem addr : Nat) : Nat → State
  | 0 => s
  | n + 1 => State.wroteWords (s.wroteWord pg mem addr) pg mem (addr + 1) n

/-- Words of 128 bits that hold one entry of `w` bits. -/
def wordsOf (w : Nat) : Nat := max 1 (ceilDiv w 128)

/-- A table entry of `n` words of a protected memory read: its value, or 0 (VALID = 0) where a word is lost (R305). -/
def State.getEntry (s : State) (pg cls t i n : Nat) : State × Nat :=
  let r := s.readWords pg cls t (i * n) n
  (r.1, if r.2 then s.tbl pg t i else 0)

/-- A table entry of `n` words written whole. -/
def State.putEntry (s : State) (pg t i n v : Nat) : State := (s.setTbl pg t i v).wroteWords pg t (i * n) n

/-- A rewrite record posted to Sinter's FIFO of 256 (R305, R307): class, MEM, and the word index or HBM byte address ÷ 32. -/
def State.rwRequest (s : State) (cls mem addr : Nat) : State :=
  if 256 ≤ s.ra.rw.length then (s.bump Rg.SCRUB_RW_DROP_CNT).setInt Pg.SCRUB Ib.SCRUB_RW_DROP
  else { s with ra := { s.ra with rw := s.ra.rw ++ [(cls, mem, addr)] } }.setIntIf (s.ra.rw.isEmpty) Pg.SCRUB Ib.SCRUB_RW_READY

end Sys2Proof.Machine
end

