-- ==== Sys2Proof/Machine/Hbm.lean ====
section
/-! DEFINITION. HBM subsystem (chapter 12, R279 to R297): the map from HBM offsets to ranks, contents, bank queues, refresh,
self-refresh, training, row repair, rank retirement and migration. Rank `r` of stack `k` is entry `r` of table 0 of HBMC`k`. -/
namespace Sys2Proof.Machine

/-! ## The map -/

/-- Rank states (R296). -/
abbrev rkActive : Nat := 0
abbrev rkSpare : Nat := 1
abbrev rkTarget : Nat := 2
abbrev rkMigrating : Nat := 3
abbrev rkRetired : Nat := 4
abbrev rkFailed : Nat := 5

/-- A field of a rank's entry. -/
def State.rank (s : State) (k r lo w : Nat) : Nat := s.tf (Pg.HBMC k) 0 r lo w

/-- A field of a rank's entry replaced. -/
def State.setRank (s : State) (k r lo w x : Nat) : State := s.setTf (Pg.HBMC k) 0 r lo w x

/-- STATE of a rank. -/
def State.rankState (s : State) (k r : Nat) : Nat := s.rank k r 29 3

/-- Whether a rank is in self-refresh. -/
def State.rankSr (s : State) (k r : Nat) : Bool := s.rank k r 28 1 == 1

/-- Postponed refreshes of a rank. -/
def State.owed (s : State) (k r : Nat) : Nat := s.rank k r 24 4

/-- Bytes of the usable HBM (R280). -/
def Part.hbmBytes (p : Part) : Nat := p.stacks * 60 * 402653184

/-- The stack, logical slot and byte within the rank of an HBM offset (R280). -/
def Part.hbmPlace (p : Part) (o : Nat) : Nat × Nat × Nat :=
  let n := 60 * p.stacks
  let c := o / 512
  let l := c % n
  (l % p.stacks, l / p.stacks, c / n * 512 + o % 512)

/-- The rank that holds a logical slot of a stack (R280). -/
def State.rankOfSlot (s : State) (k slot : Nat) : Option Nat :=
  (List.range 64).find? fun r => (s.rankState k r == rkActive || s.rankState k r == rkMigrating) && s.rank k r 16 6 == slot

/-- The copy pointer of a stack's migration. -/
def State.migPtr (s : State) (k : Nat) : Nat := s.f (Rg.HBM_MIG_STAT k) Fd.HBM_MIG_STAT_NEXT_CHUNK

/-- The target rank of a stack's migration. -/
def State.migTarget (s : State) (k : Nat) : Nat := s.f (Rg.HBM_MIG_RANKS k) Fd.HBM_MIG_RANKS_TARGET

/-- The source rank of a stack's migration. -/
def State.migSource (s : State) (k : Nat) : Nat := s.f (Rg.HBM_MIG_RANKS k) Fd.HBM_MIG_RANKS_SOURCE

/-- Whether byte `b` of rank `r` lies in a chunk that a running migration has copied (R294). -/
def State.migCopied (s : State) (k r b : Nat) : Bool := s.rankState k r == rkMigrating && decide (b / 512 < s.migPtr k)

/-- Stack, rank and byte that a read of an HBM offset reaches (R280, R294). -/
def State.hbmFrom (s : State) (o : Nat) : Nat × Nat × Nat :=
  let (k, slot, b) := s.part.hbmPlace o
  let r := (s.rankOfSlot k slot).getD 0
  (k, if s.migCopied k r b then s.migTarget k else r, b)

/-- The ranks that a write to an HBM offset reaches (R294). -/
def State.hbmTo (s : State) (o : Nat) : List Nat :=
  let (k, slot, b) := s.part.hbmPlace o
  match s.rankOfSlot k slot with
  | none => []
  | some r => if s.migCopied k r b then [r, s.migTarget k] else [r]

/-- HBMC_STAT.UP of a stack. -/
def State.stackTrained (s : State) (k : Nat) : Bool := s.fb (Rg.HBMC_STAT k) Fd.HBMC_STAT_UP

/-- Whether a stack takes requests: it is up and its page is enabled (R297, R396). -/
def State.stackUp (s : State) (k : Nat) : Bool := s.stackTrained k && bit (s.rd (Pg.HBMC k + 0x008)) 31

/-- Whether the stack of an HBM offset is up. -/
def State.hbmUp (s : State) (o : Nat) : Bool := s.stackUp (s.part.hbmPlace o).1

/-- First HBM offset of the table region (R281). -/
def State.tableBase (s : State) : Nat := s.f Rg.HBM_REGION Fd.HBM_REGION_BUF_SIZE * 67108864

/-- First HBM offset of the flow-counter pairs (R281). -/
def State.flowBase (s : State) : Nat := s.part.hbmBytes - 268435456

/-- Bytes of a side record for an RS_PARITY setting (R282). -/
def sideBytes (par : Nat) : Nat := 32 + 16 * (if par = 0 then 0 else 2 * 2 ^ par)

/-- Buffer pages of a region of `size` × 64 MiB (R282). -/
def bufPages (size par : Nat) : Nat := size * 67108864 / (2048 + sideBytes par)

/-- BUF_PAGES_TOTAL and BUF_PAGES_FREE set from the region layout, 0 while a stack is not up (R282, R290). -/
def State.setBufPages (s : State) : State :=
  let n := if (List.range s.part.stacks).all s.stackTrained then
    bufPages (s.f Rg.HBM_REGION Fd.HBM_REGION_BUF_SIZE) (s.f Rg.BUF_CFG Fd.BUF_CFG_RS_PARITY) else 0
  (s.wr Rg.BUF_PAGES_TOTAL n).setFree n

/-- The HBM offset of a byte of a rank that holds a slot: the inverse of the map (R280). -/
def State.hbmOffset (s : State) (k r b : Nat) : Nat :=
  (b / 512 * (60 * s.part.stacks) + s.rank k r 16 6 * s.part.stacks + k) * 512 + b % 512

/-- The memory class of an HBM offset: buffer region or table region (R305). -/
def State.hbmClass (s : State) (o : Nat) : Nat := if s.tableBase ≤ o then 13 else 12

/-! ## Contents -/

/-- The 128 data bits of the inner codeword at an HBM offset (aligned down to 16). -/
def State.hbmWord (s : State) (o : Nat) : Nat := sget 0 s.hbm (o / 16)

/-- One inner codeword read by a consumer of a class: the bits, and whether they may be used (R299, R305). -/
def State.hbmRead (s : State) (cls o : Nat) : State × Nat × Bool :=
  let (k, r, b) := s.hbmFrom o
  let (s1, ok) := s.readWord (Pg.HBMC k) cls r (b / 16)
  (s1, s.hbmWord o, ok)

/-- One inner codeword written whole; an armed PG_FLIP of the stack's page lands on codeword HALF of its burst (R299, R303). -/
def State.hbmWrite (s : State) (o v : Nat) : State :=
  let (k, _, b) := s.part.hbmPlace o
  let s1 : State := { s with hbm := sset 0 s.hbm (o / 16) v }
  let c := s1.rd (Pg.HBMC k + 0x03C)
  (s1.hbmTo o).foldl (fun t r =>
    if bit c 31 && bits c 29 1 != b / 16 % 2 then t.setMark (Pg.HBMC k) r (b / 16) {}
    else t.wroteWord (Pg.HBMC k) r (b / 16)) s1

/-- A write of one codeword of a burst as a narrow write: a partner codeword that reads bad is written back poisoned (R302). -/
def State.hbmNarrow (s : State) (cls o v : Nat) : State :=
  let (k, _, b) := s.part.hbmPlace o
  let w := b / 16 / 2 * 2 + (1 - b / 16 % 2)
  (s.hbmTo o).foldl (fun t r =>
    if 2 ≤ (t.mark (Pg.HBMC k) r w).kind then
      (t.setMark (Pg.HBMC k) r w { kind := 3, syn := 0xFFFF }).bump (Rg.RAS_RMW_POISON_CNT 1 cls)
    else t) (s.hbmWrite o v)

/-- `n` inner codewords read from an HBM offset, the first the lowest bits: usable only if each is. -/
def State.hbmReads (s : State) (cls o : Nat) : Nat → State × Nat × Bool
  | 0 => (s, 0, true)
  | n + 1 =>
    let (s1, v, ok) := s.hbmRead cls o
    let (s2, w, ok2) := State.hbmReads s1 cls (o + 16) n
    (s2, v + 2 ^ 128 * w, ok && ok2)

/-- `n` inner codewords written from an HBM offset. -/
def State.hbmWrites (s : State) (o v : Nat) : Nat → State
  | 0 => s
  | n + 1 => State.hbmWrites (s.hbmWrite o (v % 2 ^ 128)) (o + 16) (v / 2 ^ 128) n

/-- eMRAM words written count (R298, R354). -/
def State.emWrote (s : State) (n : Nat) : State := s.bump64 Rg.EMRAM_WRITE_CNT_LO n

/-! ## Rank bookkeeping -/

/-- SPARES and SR_RANKS of HBMC_STAT, and the stack's bit in HBM_RETIRE_REQ, brought up to the rank table. -/
def State.hbmCount (s : State) (k : Nat) : State :=
  let rs := List.range 64
  ((s.setF (Rg.HBMC_STAT k) Fd.HBMC_STAT_SPARES (rs.countP fun r => s.rankState k r == rkSpare)).setF (Rg.HBMC_STAT k)
    Fd.HBMC_STAT_SR_RANKS (rs.countP fun r => s.rankSr k r)).setF Rg.HBM_RETIRE_REQ ⟨k, 1⟩
    (b2n (rs.any fun r => s.rank k r 23 1 == 1))

/-- A rank put into or taken out of self-refresh; entries count (R289). -/
def State.setSr (s : State) (k r : Nat) (on : Bool) : State :=
  let s1 := if on && !s.rankSr k r then s.bump (Rg.HBMC_SR_ENTRY_CNT k) else s
  s1.setRank k r 28 1 (b2n on)

/-- The lowest-numbered SPARE rank of a stack. -/
def State.spareOf (s : State) (k : Nat) : Option Nat := (List.range 64).find? fun r => s.rankState k r == rkSpare

/-- The progress record of a stack's migration written to eMRAM (R295). -/
def State.migRecord (s : State) (k : Nat) : State :=
  { s with hb := { s.hb with mig := sset (64, 64, 0) s.hb.mig k (s.migSource k, s.migTarget k, s.migPtr k) } }.emWrote 1

/-- Whether a stack's migration runs or is paused. -/
def State.migBusy (s : State) (k : Nat) : Bool := s.fb (Rg.HBM_MIG_STAT k) Fd.HBM_MIG_STAT_BUSY

/-- A stack's migration stops: routing returns to the source (R296). -/
def State.migAbort (s : State) (k : Nat) : State :=
  if !s.migBusy k then s else
  let a := Rg.HBM_MIG_STAT k
  let s1 := (s.setRank k (s.migSource k) 29 3 rkActive).setRank k (s.migTarget k) 29 3 rkSpare
  let s2 := ((s1.setSr k (s.migTarget k) true).setF a Fd.HBM_MIG_STAT_BUSY 0).setF a Fd.HBM_MIG_STAT_RESULT 2
  ({ s2 with hb := { s2.hb with mig := sdel s2.hb.mig k } }.hbmCount k).setInt Pg.HBM_RAS Ib.HBM_RAS_MIG_ABORT

/-- A rank becomes a retirement candidate (R293); a target that becomes one aborts its migration (R296). -/
def State.candidate (s : State) (k r : Nat) : State :=
  if s.rankState k r = rkRetired ∨ s.rankState k r = rkFailed then s else
  let s1 := ((s.setRank k r 23 1 1).hbmCount k).setInt Pg.HBM_RAS Ib.HBM_RAS_RETIRE_REQ
  if s1.rankState k r = rkTarget then s1.migAbort k else s1

/-! ## Refresh -/

/-- Bank queue key. -/
abbrev bankKey (k r b : Nat) : Nat := (k * 64 + r) * 16 + b % 16

/-- A bank queue. -/
def State.bankQ (s : State) (key : Nat) : List HbmReq := sget [] s.hb.q key

/-- All requests queued for a rank. -/
def State.rankQ (s : State) (k r : Nat) : List HbmReq := (List.range 16).flatMap fun b => s.bankQ (bankKey k r b)

/-- The stack temperature read: TEMP, HOT and the alarm (R286). -/
def State.hbmTemp (s : State) (k temp : Nat) : State :=
  let s1 := s.setF (Rg.HBMC_TEMP k) Fd.HBMC_TEMP_TEMP temp
  let t := s1.f (Rg.HBMC_TEMP k) Fd.HBMC_TEMP_TEMP
  (s1.setF (Rg.HBMC_STAT k) Fd.HBMC_STAT_HOT (b2n (decide (s1.f (Rg.HBMC_TEMP k) Fd.HBMC_TEMP_HOT ≤ t)))).setIntIf
    (decide (s1.f (Rg.HBMC_TEMP k) Fd.HBMC_TEMP_ALARM ≤ t)) (Pg.HBMC k) Ib.HBMC_HOT

/-- Whether a stack and rank are of the part, their page powered. -/
def State.isRank (s : State) (k r : Nat) : Bool := decide (k < s.part.stacks ∧ r < 64) && s.pageOn (Pg.HBMC k / 0x1000)

/-- A refresh falls due (R286, R287). -/
def State.refreshDue (s : State) (k r temp : Nat) : State :=
  if !s.isRank k r then s else
  let s0 := s.hbmTemp k temp
  if !s0.stackUp k || s0.rankSr k r || s0.hb.closed.contains (k * 64 + r) || s0.rankState k r == rkFailed then s0 else
  if s0.owed k r = 8 then
    ({ s0 with hb := { s0.hb with closed := (k * 64 + r) :: s0.hb.closed } }.bump (Rg.HBMC_GEYSER_FORCED_CNT k)).setInt
      (Pg.HBMC k) Ib.HBMC_GEYSER_FORCED
  else if (s0.rankQ k r).any (·.who == 0) then
    (s0.setRank k r 24 4 (s0.owed k r + 1)).bump (Rg.HBMC_REF_POSTPONE_CNT k)
  else s0

/-- REFRESH_DUE (R287). -/
def execRefreshDue (stack rank temp : Nat) (s : State) : Out := .next (s.refreshDue stack rank temp)

/-- A forced Geyser burst ends: the rank owes nothing and reopens (R287). -/
def State.geyserDone (s : State) (k r : Nat) : State :=
  if !s.hb.closed.contains (k * 64 + r) then s else
  { s with hb := { s.hb with closed := s.hb.closed.filter (· != k * 64 + r) } }.setRank k r 24 4 0

/-- GEYSER_DONE (R287). -/
def execGeyserDone (stack rank : Nat) (s : State) : Out := .next (s.geyserDone stack rank)

/-- A light Geyser burst that issues `n` owed refreshes before requests stop it (R288). -/
def State.geyserLight (s : State) (k r n : Nat) : State :=
  if !s.isRank k r || s.owed k r == 0 || s.hb.closed.contains (k * 64 + r) ||
      decide (s.f (Rg.HBMC_REF_CFG k) Fd.HBMC_REF_CFG_GEYSER_LOW < (s.rankQ k r).length) then s
  else (s.setRank k r 24 4 (s.owed k r - max 1 n)).bump (Rg.HBMC_GEYSER_CNT k)

/-- GEYSER_LIGHT (R288). -/
def execGeyserLight (stack rank n : Nat) (s : State) : Out := .next (s.geyserLight stack rank n)

/-! ## Requests -/

/-- Whether a requester finds an entry free in a bank queue: 4 of the 16 are the buffer writer's alone (R283). -/
def entryFree (q : List HbmReq) (who : Nat) : Bool :=
  decide (q.length < 16) && (who == 0 || decide (q.countP (·.who != 0) < 12))

/-- A request reaches the stacks (R280, R283, R294, R297). -/
def State.hbmRequest (s : State) (who off bank : Nat) (write : Bool) (data clk : Nat) : State :=
  if s.part.hbmBytes ≤ off ∨ 5 < who then s else
  let k := (s.part.hbmPlace off).1
  if !s.stackUp k then
    if who = 1 ∧ write ∧ s.flowBase ≤ off then s.bump (Rg.HBMC_FLOW_LOST_CNT k) else s
  else
    let r := if write then (s.hbmTo off).headD 0 else (s.hbmFrom off).2.1
    let key := bankKey k r bank
    let q := s.bankQ key
    if entryFree q who then
      let s1 : State := { s with hb := { s.hb with q := sset [] s.hb.q key (q ++ [⟨who, write, off / 32 * 32, data % 2 ^ 256, s.at clk⟩]) } }
      if s.rankSr k r then s1.bump (Rg.HBMC_SR_LATE_CNT k) else s1
    else if who = 0 then s.bump (Rg.HBMC_WR_HOLD_CNT k)
    else s

/-- HBM_REQUEST (R283). -/
def execHbmRequest (who off bank : Nat) (write : Bool) (data clk : Nat) (s : State) : Out :=
  .next (s.hbmRequest who off bank write data clk)

/-- Whether the `n`-th request of a bank queue may issue now: no earlier request of the queue names its burst (R285). -/
def mayIssue (q : List HbmReq) (n : Nat) : Bool :=
  match q[n]? with
  | none => false
  | some x => (q.take n).all fun y => y.off != x.off

/-- A channel's 32 bank queues, by stack ID and bank, whose ranks take commands (R284). -/
def State.openQueues (s : State) (k ch : Nat) : List Nat :=
  (List.range 32).filter fun i =>
    let r := 2 * ch + i / 16
    !s.hb.closed.contains (k * 64 + r) && !s.rankSr k r && (s.bankQ (bankKey k r i) != [])

/-- The oldest request, of those that `p` selects, that may issue on a channel: its queue and place in it. -/
def State.oldest (s : State) (k ch : Nat) (p : HbmReq → Bool) : Option (Nat × Nat) :=
  let cands := (s.openQueues k ch).flatMap fun i =>
    let q := s.bankQ (bankKey k (2 * ch + i / 16) i)
    ((q.zipIdx.filter fun e => p e.1 && mayIssue q e.2).map fun e => (e.1.since, i, e.2))
  (cands.foldl (fun (b : Option (Nat × Nat × Nat)) c => match b with
    | none => some c
    | some x => if c.1 < x.1 then some c else some x) none).map fun x => (x.2.1, x.2.2)

/-- The pick of a channel (R284): a queue passed over for 32 picks, an aged buffer-writer request, the oldest table-port
request, or the head of the next queue after the one served last. -/
def State.pick (s : State) (k ch clk : Nat) : Option (Nat × Nat) :=
  let qs := s.openQueues k ch
  let age := s.f (Rg.HBMC_CFG2 k) Fd.HBMC_CFG2_WR_AGE
  let last := sget 31 s.hb.last (k * 32 + ch)
  match qs.find? fun i => decide (32 ≤ sget 0 s.hb.passed (bankKey k (2 * ch + i / 16) i)) with
  | some i => some (i, 0)
  | none =>
    match s.oldest k ch fun x => x.who == 0 && decide (x.since + age ≤ s.at clk) with
    | some x => some x
    | none =>
      match s.oldest k ch fun x => x.who == 1 with
      | some x => some x
      | none => (((List.range 32).map fun d => (last + 1 + d) % 32).find? qs.contains).map fun i => (i, 0)

/-- A burst moves: a write stores both codewords, a read returns them to its requester (R299). -/
def State.moveBurst (s : State) (x : HbmReq) : State :=
  let cls := s.hbmClass x.off
  if x.write then s.hbmWrites x.off x.data 2
  else
    let (s1, v, _) := s.hbmReads cls x.off 2
    { s1 with rsp := some v }

/-- A channel picks and issues one burst (R284). -/
def State.burstIssue (s : State) (k ch clk : Nat) : State :=
  if !(decide (k < s.part.stacks ∧ ch < 32) && s.stackUp k) then s else
  match s.pick k ch clk with
  | none => s
  | some (i, n) =>
    let key := bankKey k (2 * ch + i / 16) i
    let q := s.bankQ key
    match q[n]? with
    | none => s
    | some x =>
      let pass := ((s.openQueues k ch).filter (· != i)).foldl (fun m j =>
        let kj := bankKey k (2 * ch + j / 16) j
        sset 0 m kj (sget 0 m kj + 1)) (sset 0 s.hb.passed key 0)
      { s with hb := { s.hb with q := sset [] s.hb.q key (q.eraseIdx n), passed := pass,
                                 last := sset 31 s.hb.last (k * 32 + ch) i } }.moveBurst x

/-- HBM_BURST_ISSUE (R284). -/
def execHbmBurstIssue (stack channel clk : Nat) (s : State) : Out := .next (s.burstIssue stack channel clk)

/-! ## Self-refresh -/

/-- An ACTIVE rank without a request for SR_IDLE enters self-refresh where that is enabled (R289). -/
def State.srEntry (s : State) (k r : Nat) : State :=
  if s.isRank k r && s.stackUp k && s.rankState k r == rkActive && !s.rankSr k r && s.rankQ k r == [] &&
      s.fb (Rg.HBMC_CFG k) Fd.HBMC_CFG_SR_EN && s.fb (Rg.HBMC_CFG k) Fd.HBMC_CFG_ACTIVE_SR then
    (s.setSr k r true).hbmCount k
  else s

/-- SELF_REFRESH_ENTRY (R289). -/
def execSelfRefreshEntry (stack rank : Nat) (s : State) : Out := .next (s.srEntry stack rank)

/-- A waiting request has woken its rank: 800 clocks later the rank takes commands (R289). -/
def State.srExit (s : State) (k r : Nat) : State :=
  if s.isRank k r && s.rankSr k r && s.rankQ k r != [] then (s.setSr k r false).hbmCount k else s

/-- SELF_REFRESH_EXIT (R289). -/
def execSelfRefreshExit (stack rank : Nat) (s : State) : Out := .next (s.srExit stack rank)

/-! ## Start and training -/

/-- The spares HBMC_SPARE names. -/
def State.spareRanks (s : State) (k : Nat) : List Nat :=
  let a := Rg.HBMC_SPARE k
  [s.f a Fd.HBMC_SPARE_SPARE0, s.f a Fd.HBMC_SPARE_SPARE1, s.f a Fd.HBMC_SPARE_SPARE2, s.f a Fd.HBMC_SPARE_SPARE3]

/-- Roles at a start without contents: the spares, and slots 0 to 59 to the other ranks in ascending order (R279, R296). -/
def State.assignRanks (s : State) (k : Nat) : State :=
  let sp := s.spareRanks k
  let act := (List.range 64).filter fun r => !sp.contains r
  let s1 := sp.foldl (fun t r => t.setTf (Pg.HBMC k) 0 r 16 16 (rkSpare * 2 ^ 13 + 2 ^ 12)) s
  act.zipIdx.foldl (fun t e => t.setTf (Pg.HBMC k) 0 e.1 16 16 (rkActive * 2 ^ 13 + e.2)) s1

/-- A controller start (R290), or a restart in service of a stack that is up, which keeps its contents in self-refresh
and pauses its migration (R295, R297). -/
def State.hbmStart (s : State) (k : Nat) : State :=
  let a := Rg.HBMC_STAT k
  if !s.isRank k 0 || s.fb a Fd.HBMC_STAT_TRAINING then s else
  let s0 := (s.setF a Fd.HBMC_STAT_TRAINING 1).setF a Fd.HBMC_STAT_INIT_FAIL 0
  if s.stackTrained k then
    let s1 := (List.range 64).foldl (fun t r => if t.rankState k r = rkFailed then t else t.setSr k r true) s0
    let s2 : State := { s1 with hb := { s1.hb with keep := k :: s1.hb.keep.filter (· != k) } }
    let s3 := (s2.setF a Fd.HBMC_STAT_UP 0).hbmCount k
    if s3.migBusy k then s3.migRecord k else s3
  else
    { s0 with
      hb := { s0.hb with keep := s0.hb.keep.filter (· != k), q := s0.hb.q.filter (·.1 / 1024 != k), hard := s0.hb.hard.filter (·.1 / 64 != k) }
      hbm := s0.hbm.filter fun e => (s0.part.hbmPlace (e.1 * 16)).1 != k
      marks := s0.marks.filter fun e => e.1 / 2 ^ 56 / 256 != Pg.HBMC k / 0x1000 }

/-- ENABLE of an HBMC page written (R396): 0 puts every rank in self-refresh, 1 lets the ranks in use leave it. -/
def State.hbmEnable (s : State) (k : Nat) (on : Bool) : State :=
  let a := Pg.HBMC k + 0x008
  if bit (s.rd a) 31 = on then s else
  let s1 := s.wr a (setBits (s.rd a) 31 1 (b2n on))
  if !s1.stackTrained k then s1 else
  ((List.range 64).foldl (fun (t : State) (r : Nat) =>
    let st := t.rankState k r
    if (if on then st = rkActive ∨ st = rkTarget ∨ st = rkMigrating else st ≠ rkFailed) then t.setSr k r (!on) else t) s1).hbmCount k

/-- HBM_CONTROLLER_START (R290): the page's block is enabled. -/
def execHbmControllerStart (stack : Nat) (s : State) : Out :=
  .next (if bit (s.rd (Pg.HBMC stack + 0x008)) 31 then s.hbmStart stack else s)

/-- A failed rank's logical slot given to a spare of its stack (R290); what it held is gone. -/
def State.failRank (s : State) (k r : Nat) : State :=
  if s.rankState k r = rkFailed then s else
  let was := s.rankState k r
  let slot := s.rank k r 16 6
  let s1 := s.setTf (Pg.HBMC k) 0 r 16 16 (rkFailed * 2 ^ 13)
  if was ≠ rkActive ∧ was ≠ rkMigrating then s1 else
  let s2 : State := { s1 with hbm := s1.hbm.filter fun e =>
    let p := s1.part.hbmPlace (e.1 * 16)
    p.1 != k || p.2.1 != slot }
  match s2.spareOf k with
  | none => s2
  | some t => s2.setTf (Pg.HBMC k) 0 t 16 16 (rkActive * 2 ^ 13 + slot)

/-- Training ends (R290, R297): `failed` are the channels that failed, `avail` the repair resources each rank reports. -/
def State.hbmTrained (s : State) (k : Nat) (failed avail : List Nat) : State :=
  let a := Rg.HBMC_STAT k
  if !s.isRank k 0 || !s.fb a Fd.HBMC_STAT_TRAINING then s else
  let keep := s.hb.keep.contains k
  let s0 := if keep then s else s.assignRanks k
  let fr := (List.range 64).filter fun r => failed.contains (r / 2)
  let lost := fr.countP fun r => s0.rankState k r == rkActive || s0.rankState k r == rkMigrating
  let spares := (List.range 64).countP fun r => s0.rankState k r == rkSpare && !fr.contains r
  -- failed spares go first, so that no slot is given to one
  let s1 := ((fr.filter fun r => s0.rankState k r == rkSpare) ++ (fr.filter fun r => s0.rankState k r != rkSpare)).foldl
    (fun t r => t.failRank k r) s0
  let s2 := (List.range 64).foldl (fun t r => t.setRank k r 32 8 (lget 0 avail r)) (s1.setF a Fd.HBMC_STAT_TRAINING 0)
  let s2 := (List.range 32).foldl (fun (t : State) (c : Nat) =>
    if failed.contains c then t.wr (Rg.HBMTR_CH k c) 0 else (t.wr (Rg.HBMTR_CH k c) (2 ^ 31 + t.freeVal 16 * 2 ^ 8)).draw) s2
  let s3 : State := { s2 with hb := { s2.hb with keep := s2.hb.keep.filter (· != k), fails := s2.hb.fails.filter (·.1 / 32 != k) } }
  if spares < lost then
    (((s3.setF a Fd.HBMC_STAT_INIT_FAIL 1).wr Rg.BUF_PAGES_TOTAL 0).setFree 0 |>.hbmCount k).setInt
      (Pg.HBMC k) Ib.HBMC_INIT_FAIL
  else
    let s4 := s3.setF a Fd.HBMC_STAT_UP 1
    if keep then
      ((List.range 64).foldl (fun t r =>
        let st := t.rankState k r
        if (st = rkActive ∨ st = rkTarget ∨ st = rkMigrating) ∧ bit (t.rd (Pg.HBMC k + 0x008)) 31 then t.setSr k r false else t) s4).hbmCount k
    else (s4.setBufPages).hbmCount k

/-- HBM_TRAINING_DONE (R290). -/
def execHbmTrainingDone (stack : Nat) (failed avail : List Nat) (s : State) : Out := .next (s.hbmTrained stack failed avail)

/-- One channel retrained in its turn (R291). -/
def State.retrainChannel (s : State) (k ch : Nat) (ok : Bool) : State :=
  if !s.isRank k 0 || decide (32 ≤ ch) || !s.stackUp k || s.f (Rg.HBMC_CFG k) Fd.HBMC_CFG_TRAIN_PERIOD == 0 then s else
  let key := k * 32 + ch
  let s0 := (s.bump (Rg.HBMTR_RETRAIN_CNT k)).setF (Rg.HBMTR_CH k ch) Fd.HBMTR_CH_FAIL_RUN (if ok then 0 else min 3 (sget 0 s.hb.fails key + 1))
  let s0 := if ok then (s0.setF (Rg.HBMTR_CH k ch) ⟨8, 16⟩ (s0.freeVal 16)).draw else s0
  let s := if ch = 31 then s0.wr (Rg.HBMTR_LAST k) s0.tickCount else s0
  if ok then { s with hb := { s.hb with fails := sset 0 s.hb.fails key 0 } } else
  let n := sget 0 s.hb.fails key + 1
  let s1 := ({ s with hb := { s.hb with fails := sset 0 s.hb.fails key n } }.bump (Rg.HBMC_TRAIN_FAIL_CNT k)).setInt
    (Pg.HBMC k) Ib.HBMC_TRAIN_FAIL
  if n = 3 then (s1.candidate k (2 * ch)).candidate k (2 * ch + 1) else s1

/-- HBM_PERIODIC_RETRAIN (R291). -/
def execHbmPeriodicRetrain (stack channel : Nat) (ok : Bool) (s : State) : Out := .next (s.retrainChannel stack channel ok)

/-! ## Row repair -/

/-- A hard word's row repaired (R292). `words` are the row's inner codewords, `bankHas` that its bank has a repair
resource left, `avail` what the rank then reports. -/
def State.rowRepair (s : State) (k r row : Nat) (words : List Nat) (bankHas : Bool) (avail : Nat) : State :=
  let mine (h : Nat × Nat) : Bool := h.1 == k * 64 + r && words.contains h.2
  if !s.isRank k r || !s.hb.hard.any mine then s else
  let s0 : State := { s with hb := { s.hb with hard := s.hb.hard.filter fun h => !mine h } }
  if s0.rankState k r = rkMigrating then s0
  else if !bankHas || decide (256 ≤ s0.hb.ppr.countP fun e => e.1 / 64 == k) then
    let s1 := s0.bump Rg.HBM_PPR_FAIL_CNT
    if s1.fb Rg.HBM_RAS_POLICY Fd.HBM_RAS_POLICY_RETIRE_ON_PPR_OUT then s1.candidate k r else s1
  else
    let s1 := words.foldl (fun t w =>
      let e := t.mark (Pg.HBMC k) r w
      t.setMark (Pg.HBMC k) r w (if 2 ≤ e.kind then { e with kind := 3, syn := 0xFFFF } else {})) s0
    let s2 := (({ s1 with hb := { s1.hb with ppr := s1.hb.ppr ++ [(k * 64 + r, row)] } }.emWrote 1).bump (Rg.HBMC_PPR_CNT k)).setInt
      (Pg.HBMC k) Ib.HBMC_PPR
    let n : Nat := min 255 (s2.rank k r 0 8 + 1)
    let s3 := ((s2.setRank k r 0 8 n).setRank k r 8 8 (min 255 (s2.rank k r 8 8 + 1))).setRank k r 32 8 avail
    let s4 := s3.log (Pg.HBMC k) 0x0033 (s3.hbmClass (s3.hbmOffset k r (words.headD 0 * 16)) + words.headD 0 * 16 * 2 ^ 8)
    let thr : Nat := s4.f Rg.HBM_RAS_POLICY Fd.HBM_RAS_POLICY_RETIRE_THR
    if thr ≤ n then s4.candidate k r else s4

/-- ROW_REPAIR (R292). -/
def execRowRepair (stack rank row : Nat) (words : List Nat) (bankHas : Bool) (avail : Nat) (s : State) : Out :=
  .next (s.rowRepair stack rank row words bankHas avail)

/-! ## Retirement and migration -/

/-- A migration accepted (R294, R296). -/
def State.migStart (s : State) (k src tgt : Nat) : State :=
  let s1 := (s.setRank k src 29 3 rkMigrating).setRank k src 23 1 0
  let s2 := (s1.setRank k tgt 29 3 rkTarget).setSr k tgt false
  ((s2.wr (Rg.HBM_MIG_RANKS k) (src % 64 * 2 ^ 8 + tgt % 64)).wr (Rg.HBM_MIG_STAT k)
    (2 ^ 31 + s.f (Rg.HBM_MIG_STAT k) Fd.HBM_MIG_STAT_REFUSE * 2 ^ 24)).hbmCount k

/-- The refusal code of a GO (R296). -/
def State.migRefusal (s : State) (k src : Nat) (auto : Bool) (tgt : Nat) : Nat :=
  if s.migBusy k then 1
  else if auto && (s.spareOf k).isNone then 2
  else if s.rankState k src ≠ rkActive then 3
  else if !auto && s.rankState k tgt != rkSpare then 4
  else if !s.stackUp k then 5
  else 0

/-- A write of HBM_MIG_CMD: ABORT, then GO (R294, R296). -/
def State.migCmd (s : State) (v : Nat) : State :=
  let k := bits v 28 2
  let s0 := if bit v 30 then s.migAbort k else s
  if !bit v 31 then s0 else
  let src := bits v 8 6
  let auto := bit v 6
  let code := s0.migRefusal k src auto (v % 64)
  if code = 0 then s0.migStart k src (if auto then (s0.spareOf k).getD 0 else v % 64)
  else
    let a := Rg.HBM_MIG_STAT k
    (((s0.setF a Fd.HBM_MIG_STAT_RESULT 3).setF a Fd.HBM_MIG_STAT_REFUSE code).setInt Pg.HBM_RAS Ib.HBM_RAS_REFUSED).setIntIf
      (code == 2) Pg.HBM_RAS Ib.HBM_RAS_NO_SPARE

/-- MIG_GO (R296). -/
def execMigGo (a : Acc) (v : Word) (s : State) : Out := .next (s.onWrite a Rg.HBM_MIG_CMD fun t => t.migCmd v.toNat)

/-- MIG_ABORT (R296): a write of HBM_MIG_CMD with ABORT. -/
def execMigAbort (a : Acc) (v : Word) (s : State) : Out := .next (s.onWrite a Rg.HBM_MIG_CMD fun t => t.migCmd v.toNat)

/-- Whether the T-die stands in autonomous mode (R336). -/
def State.autonomous (s : State) : Bool := s.f (Rg.SC_STAT 1) Fd.SC_STAT_MODE == 2

/-- In autonomous mode the device retires the lowest candidate of a stack itself (R293). -/
def State.autoMig (s : State) (k : Nat) : State :=
  if !(s.isRank k 0 && s.autonomous && s.fb Rg.HBM_RAS_POLICY Fd.HBM_RAS_POLICY_AUTO_RETIRE && s.stackUp k && !s.migBusy k) then s else
  match (List.range 64).find? fun r => s.rank k r 23 1 == 1 && s.rankState k r == rkActive with
  | none => s
  | some r =>
    match s.spareOf k with
    | none => s.setInt Pg.HBM_RAS Ib.HBM_RAS_NO_SPARE
    | some t => s.migStart k r t

/-- AUTO_MIGRATION (R293). -/
def execAutoMigration (stack : Nat) (s : State) : Out := .next (s.autoMig stack)

/-- One chunk copied (R294): a chunk that cannot be corrected is written poisoned. -/
def State.migChunk (s : State) (k : Nat) : State :=
  let src := s.migSource k
  let tgt := s.migTarget k
  let n := s.migPtr k
  if !s.isRank k 0 || !s.migBusy k || !s.stackUp k || decide (786432 ≤ n) || s.hb.closed.contains (k * 64 + src) ||
      s.hb.closed.contains (k * 64 + tgt) then s else
  let pg := Pg.HBMC k
  let ws := (List.range 32).map (n * 32 + ·)
  let bad := ws.any fun w => s.badWord pg src w
  let s1 := ws.foldl (fun t w => t.meetErr pg (s.hbmClass (s.hbmOffset k src (n * 512))) src w (t.mark pg src w) false) s
  let s2 := ws.foldl (fun t w => t.setMark pg tgt w (if bad then { kind := 3, syn := 0xFFFF } else {})) s1
  let s3 := s2.bumpIf bad Rg.HBM_MIG_POISON_CNT
  let s4 := s3.setF (Rg.HBM_MIG_STAT k) Fd.HBM_MIG_STAT_NEXT_CHUNK (n + 1)
  if (n + 1) % 4096 = 0 then s4.migRecord k else s4

/-- MIGRATION_CHUNK (R294). -/
def execMigrationChunk (stack : Nat) (s : State) : Out := .next (s.migChunk stack)

/-- The last chunk is copied: the slot moves, the source is RETIRED (R294, R296, R354). -/
def State.migDone (s : State) (k : Nat) : State :=
  if !s.isRank k 0 || !s.migBusy k || decide (s.migPtr k < 786432) then s else
  let src := s.migSource k
  let tgt := s.migTarget k
  let slot := s.rank k src 16 6
  let a := Rg.HBM_MIG_STAT k
  let s1 := ((s.setRank k tgt 16 6 slot).setRank k tgt 29 3 rkActive).setTf (Pg.HBMC k) 0 src 16 16 (rkRetired * 2 ^ 13)
  let s2 := (((s1.setSr k src true).setF a Fd.HBM_MIG_STAT_BUSY 0).setF a Fd.HBM_MIG_STAT_RESULT 1).bump Rg.HBM_RETIRE_CNT
  let s3 : State := { s2 with hb := { s2.hb with mig := sdel s2.hb.mig k } }
  ((s3.hbmCount k).setInt Pg.HBM_RAS Ib.HBM_RAS_MIG_DONE).log Pg.HBM_RAS 0x0031 (k % 4 + src * 2 ^ 8 + tgt * 2 ^ 16)

/-- MIG_DONE (R294). -/
def execMigDone (stack : Nat) (s : State) : Out := .next (s.migDone stack)

end Sys2Proof.Machine
end

