-- ==== Sys2Proof/Machine/Parse.lean ====
section
/-! DEFINITION. The parser and the key builder (chapter 5, R105 to R116): parse window, parse graph, header vector, exceptions,
fragments, header fields and keys. Header offsets count bytes from byte 0 of the destination MAC address. -/
namespace Sys2Proof.Machine

/-! ## Table versions -/

/-- Whether the classification tables run in versioned mode: TABLE_MODE 0 (R53, R55). -/
def State.versioned (s : State) : Bool := !s.fb Rg.CMT_CTRL Fd.CMT_CTRL_TABLE_MODE

/-- Whether a packet of generation `g` uses the previous table version (R54, R128). -/
def State.usesPrev (s : State) (g : Nat) : Bool := s.versioned && decide (g < s.cm.gen)

/-- A register of PARSE, CLASS, ACL or APC as a packet sees it: the value of the previous version for a packet of it (R128). -/
def State.vrd (s : State) (old : Bool) (addr : Nat) : Nat := if old then sget (s.rd addr) s.prevSt addr else s.rd addr

/-- A field of such a register. -/
def State.vf (s : State) (old : Bool) (addr : Nat) (fl : Fld) : Nat := bits (s.vrd old addr) fl.lo fl.w

/-- The copy of the parse and program tables that a packet uses: 1 current, 2 previous (R128). -/
def copyOf (old : Bool) : Nat := if old then 2 else 1

/-- Words of a memory among `addrs` that a read met: their errors are captured (R304). -/
def State.touch (s : State) (pg cls mem : Nat) (addrs : List Nat) : State :=
  addrs.foldl (fun t a => t.meetErr pg cls mem a (t.mark pg mem a) false) s

/-- The words of a memory that hold errors. -/
def State.markedIn (s : State) (pg mem : Nat) : List Nat :=
  (s.marks.filter fun e => e.1 / 2 ^ 56 == pg / 0x1000 * 256 + mem).map fun e => e.1 % 2 ^ 56

/-! ## Reading the window -/

/-- The parse window (R105). -/
def window (b : List Byte) : List Byte := b.take 256

/-- Byte `i` of the window, 0 beyond it. -/
def wbyte (w : List Byte) (i : Nat) : Nat := (lget 0 w i).toNat

/-- Bytes `i` to `i + n − 1` of the window as one number. -/
def wnum (w : List Byte) (i n : Nat) : Nat := (List.range n).foldl (fun a j => a * 256 + wbyte w (i + j)) 0

/-- `n` bits of the window from bit `i`, bit 0 the most significant bit of byte 0 (R107). -/
def wbits (w : List Byte) (i n : Nat) : Nat :=
  (List.range n).foldl (fun a j => a * 2 + b2n (bit (wbyte w ((i + j) / 8)) (7 - (i + j) % 8))) 0

/-! ## The parse graph -/

/-- Node `n` of a copy, 0 (not VALID) where its word is lost (R107, R305). -/
def State.parseNode (s : State) (copy n : Nat) : Nat :=
  if s.badWord Pg.PARSE (2 * copy) n then 0 else s.tbl Pg.PARSE (2 * copy) n

/-- Transition `n` of a copy (R109). -/
def State.parseTrans (s : State) (copy n : Nat) : Nat :=
  if s.badWord Pg.PARSE (2 * copy + 1) n then 0 else s.tbl Pg.PARSE (2 * copy + 1) n

/-- The length of a header of node entry `e` at byte `off` (R108). -/
def hdrLen (e : Nat) (w : List Byte) (off : Nat) : Nat :=
  let f := wbits w (8 * off + bits e 67 9) (bits e 64 3 + 1) &&& bits e 56 8
  let mode := bits e 87 2
  if mode = 0 then bits e 76 8
  else if mode = 1 then f * 2 ^ bits e 84 3 + bits e 76 8
  else popcount 8 f * 2 ^ bits e 84 3 + bits e 76 8

/-- The selector of node entry `e` for a header at byte `off` (R109). -/
def selector (e : Nat) (w : List Byte) (off : Nat) : Nat :=
  (wbits w (8 * off + bits e 39 9) (bits e 35 4) * 2 ^ bits e 22 4 + wbits w (8 * off + bits e 26 9) (bits e 22 4)) % 2 ^ 16

/-- What follows a header: a next node, the end, or exception NO_MATCH (R109). -/
inductive NextHdr where
  | node (n : Nat)
  | done
  | noMatch
deriving DecidableEq, Repr

/-- The next node after node `n` with selector `sel` (R109). -/
def State.nextHdr (s : State) (copy n e sel : Nat) : NextHdr :=
  let hit := (List.range 1024).find? fun i =>
    let t := s.parseTrans copy i
    bit t 47 && bits t 40 7 == n && (sel &&& bits t 8 16) == (bits t 24 16 &&& bits t 8 16)
  match hit with
  | some i =>
    let t := s.parseTrans copy i
    if bit t 7 then .done else .node (t % 128)
  | none =>
    let act := bits e 13 2
    if act = 0 then .node (bits e 15 7) else if act = 2 then .noMatch else .done

/-- The IPv4 header checksum: the ones' complement sum of the header's 16-bit words is all ones. -/
def ip4SumOk (w : List Byte) (off ihl : Nat) : Bool :=
  let t := (List.range (2 * ihl)).foldl (fun a j => a + wnum w (off + 2 * j) 2) 0
  let f := t % 65536 + t / 65536
  f % 65536 + f / 65536 == 65535

/-- The checks of a header's class (R110). -/
def State.ipOk (s : State) (old : Bool) (cls : Nat) (w : List Byte) (off : Nat) : Bool :=
  let b0 := wbyte w off
  if cls = 4 then
    b0 / 16 == 4 && decide (5 ≤ b0 % 16) &&
      (s.vf old Rg.PARSE_CFG Fd.PARSE_CFG_IP4_CSUM_CHECK == 0 || ip4SumOk w off (b0 % 16))
  else if cls = 5 then b0 / 16 == 6
  else true

/-- Whether a header shows a fragment, and its FRAG (R113). -/
def fragOf (cls : Nat) (w : List Byte) (off : Nat) : Nat :=
  let m (offset : Nat) (more : Bool) : Nat := if offset ≠ 0 then 2 else if more then 1 else 0
  if cls = 4 then m (wnum w (off + 6) 2 % 2 ^ 13) (bit (wnum w (off + 6) 2) 13)
  else if cls = 7 then m (wnum w (off + 2) 2 / 8) (bit (wnum w (off + 2) 2) 0)
  else 0

/-- What the parser found, and the nodes it read. -/
structure Parsed where
  hv : List Hdr
  exc : Nat
  frag : Nat
  seen : List Nat
  searched : Bool
deriving DecidableEq, Repr

/-- The parser from node `n` at byte `off` (R106, R109, R111, R112). `len` is the frame's length without FCS. The first
argument is the number of headers that may still be examined. -/
def State.parseFrom (s : State) (old : Bool) (w : List Byte) (len : Nat) : Nat → Nat → Nat → Nat → Parsed → Parsed
  | 0, _, _, _, p => { p with exc := 6 }
  | k + 1, n, off, layer, p =>
    let copy := copyOf old
    let e := s.parseNode copy n
    let p := { p with seen := n :: p.seen }
    if !bit e 95 then { p with exc := 1 } else
    let hl := hdrLen e w off
    let cls := bits e 91 4
    if hl < bits e 48 8 then { p with exc := 3 }
    else if len < off + hl then { p with exc := 4 }
    else if 256 < off + hl then { p with exc := 7 }
    else if !s.ipOk old cls w off then { p with exc := 5 }
    else
      let frag := fragOf cls w off
      let p1 := { p with hv := p.hv ++ [⟨n, off, layer, cls, hl⟩], frag := if frag = 0 then p.frag else frag }
      let layer1 := if bit e 90 then min 3 (layer + 1) else layer
      if frag ≠ 0 || bit e 89 then p1 else
      match s.nextHdr copy n e (selector e w off) with
      | .done => { p1 with searched := true }
      | .noMatch => { p1 with exc := 2, searched := true }
      | .node n' => State.parseFrom s old w len k n' (off + hl) layer1 { p1 with searched := true }

/-- The parse of a packet from a start node, with what it counts and captures (R106, R111, R304). -/
def State.parse (s : State) (old : Bool) (b : List Byte) (start : Nat) : State × Parsed :=
  let p := s.parseFrom old (window b) b.length 24 start 0 0 ⟨[], 0, 0, [], false⟩
  let copy := copyOf old
  let s1 := s.touch Pg.PARSE 4 (2 * copy) p.seen.reverse
  let s2 := if p.searched then s1.touch Pg.PARSE 4 (2 * copy + 1) (s1.markedIn Pg.PARSE (2 * copy + 1)) else s1
  let s3 := if p.exc = 0 then s2 else s2.bump (Rg.PARSE_EXC_CNT p.exc)
  (s3.bumpIf (p.frag != 0) Rg.PARSE_FRAG_CNT, p)

/-- The action of a parse exception: 0 CONTINUE, 1 DROP, 2 PUNT, and its punt code (R111). -/
def State.excAct (s : State) (old : Bool) (exc : Nat) : Nat × Nat :=
  if exc = 0 then (0, 0) else
  (s.vf old (Rg.PARSE_EXC_CFG exc) Fd.PARSE_EXC_CFG_ACTION, s.vf old (Rg.PARSE_EXC_CFG exc) Fd.PARSE_EXC_CFG_PUNT_CODE)

/-! ## Header fields -/

/-- What a key is built from: the window, the header vector, FRAG, EXC, port, VRF and CLASS_ID (R115), and the ACL row that
fails parity at this packet's searches, if any (R305). -/
structure KeySrc where
  w : List Byte
  hv : List Hdr
  frag : Nat
  exc : Nat
  port : Nat
  vrf : Nat
  cls : Nat
  upset : Option Nat := none
deriving DecidableEq, Repr

/-- The layer a slot takes its header from: 0, or the highest found (R115). -/
def keyLayer (hv : List Hdr) (top : Bool) : Nat := if top then hv.foldl (fun a h => max a h.layer) 0 else 0

/-- The headers of a layer whose class is in a list, in wire order. -/
def hdrsIn (hv : List Hdr) (layer : Nat) (cl : List Nat) : List Hdr := hv.filter fun h => h.layer == layer && cl.contains h.cls

/-- `n` bytes at byte `i` of the `j`-th header of the classes, 0 where it is absent. -/
def KeySrc.at (k : KeySrc) (layer : Nat) (cl : List Nat) (j i n : Nat) : Nat :=
  match (hdrsIn k.hv layer cl)[j]? with
  | some h => wnum k.w (h.off + i) n
  | none => 0

/-- The protocol or next-header value of a header (R110). -/
def nextProto (w : List Byte) (h : Hdr) : Nat :=
  wbyte w (h.off + (if h.cls = 4 then 9 else if h.cls = 5 then 6 else 0))

/-- A field code's width in bits (R115), 0 for none and reserved codes. -/
def fieldWidth (c : Nat) : Nat :=
  lget 0 [0, 6, 12, 12, 3, 16, 48, 48, 20, 20, 3, 32, 32, 128, 128, 64, 8, 6, 2, 8, 16, 16, 8, 24, 20, 8, 2, 3, 5, 16, 12, 16, 16] c

/-- Source or destination port of a layer (R110, R113, R115). -/
def KeySrc.l4 (k : KeySrc) (ly side : Nat) : Nat :=
  if k.frag ≠ 0 then 0 else
  match (hdrsIn k.hv ly [9, 10, 13, 14]).head? with
  | some h => if h.cls = 13 then wbyte k.w (h.off + side) else wnum k.w (h.off + 2 * side) 2
  | none => 0

/-- A field of the first IPv4 or IPv6 header of a layer: IPv4 byte and IPv6 two bytes with their shift and width. -/
def KeySrc.ip (k : KeySrc) (ly b4 sh4 b6 sh6 wd : Nat) : Nat :=
  match (hdrsIn k.hv ly [4, 5]).head? with
  | some h => if h.cls = 4 then bits (wbyte k.w (h.off + b4)) sh4 wd else bits (wnum k.w (h.off + b6) 2) sh6 wd
  | none => 0

/-- A field by its code, in a layer (R110, R115). `udf` gives node and byte offset of the two user fields. -/
def KeySrc.field (k : KeySrc) (udf : Nat → Nat × Nat) (top : Bool) (c : Nat) : Nat :=
  let ly := keyLayer k.hv top
  match c with
  | 0x01 => k.port
  | 0x02 => k.at ly [2] 0 0 2 % 2 ^ 12
  | 0x03 => k.at ly [2] 1 0 2 % 2 ^ 12
  | 0x04 => k.at ly [2] 0 0 2 / 2 ^ 13
  | 0x05 =>
    match (hdrsIn k.hv ly [1, 2]).head? with
    | some h => wnum k.w (h.off + (if h.cls = 1 then 12 else 2)) 2
    | none => 0
  | 0x06 => k.at ly [1] 0 0 6
  | 0x07 => k.at ly [1] 0 6 6
  | 0x08 => k.at ly [3] 0 0 4 / 2 ^ 12
  | 0x09 => k.at ly [3] 1 0 4 / 2 ^ 12
  | 0x0A => bits (k.at ly [3] 0 0 4) 9 3
  | 0x0B => k.at ly [4] 0 12 4
  | 0x0C => k.at ly [4] 0 16 4
  | 0x0D => k.at ly [5] 0 8 16
  | 0x0E => k.at ly [5] 0 24 16
  | 0x0F => k.at ly [5] 0 24 8
  | 0x10 =>
    match (hdrsIn k.hv ly [4, 5, 6, 7, 8]).getLast? with
    | some h => nextProto k.w h
    | none => 0
  | 0x11 => k.ip ly 1 2 0 6 6
  | 0x12 => k.ip ly 1 0 0 4 2
  | 0x13 =>
    match (hdrsIn k.hv ly [3, 4, 5]).head? with
    | some h => wbyte k.w (h.off + (if h.cls = 3 then 3 else if h.cls = 4 then 8 else 7))
    | none => 0
  | 0x14 => k.l4 ly 0
  | 0x15 => k.l4 ly 1
  | 0x16 => if k.frag ≠ 0 then 0 else k.at ly [9] 0 13 1
  | 0x17 => k.at ly [12] 0 4 3
  | 0x18 => k.at ly [5] 0 0 4 % 2 ^ 20
  | 0x19 => k.at ly [8] 0 3 1
  | 0x1A => k.frag
  | 0x1B => k.exc
  | 0x1C => k.hv.length
  | 0x1D => k.vrf
  | 0x1E => k.cls
  | 0x1F | 0x20 =>
    let u := udf (c - 0x1F)
    match k.hv.find? fun h => h.layer == ly && h.node == u.1 with
    | some h => wnum k.w (h.off + u.2) 2
    | none => 0
  | _ => 0

/-- A key of `n` bits from its slots: fields one after another from the most significant end (R115). -/
def buildKey (val : Bool → Nat → Nat) (n : Nat) (slots : List Nat) : Nat :=
  let (tot, v) := slots.foldl (fun (a : Nat × Nat) b =>
    let wd := fieldWidth (b % 64)
    (a.1 + wd, a.2 * 2 ^ wd + val (bit b 7) (b % 64) % 2 ^ wd)) (0, 0)
  if tot ≤ n then v * 2 ^ (n - tot) else v / 2 ^ (tot - n)

/-- The bits that the slots of a key take (R116). -/
def keyBits (slots : List Nat) : Nat := (slots.map fun b => fieldWidth (b % 64)).sum

/-- The user fields as a packet sees them (R115). -/
def State.udf (s : State) (old : Bool) (u : Nat) : Nat × Nat :=
  (s.vf old (Rg.CLASS_UDF u) Fd.CLASS_UDF_NODE, s.vf old (Rg.CLASS_UDF u) Fd.CLASS_UDF_BYTE_OFF)

/-- The slots held in consecutive slot registers from `addr`, as a packet sees them. -/
def State.slots (s : State) (old : Bool) (addr n : Nat) : List Nat :=
  (List.range n).flatMap fun j => (List.range 4).map fun i => bits (s.vrd old (addr + 4 * j)) (8 * i) 8

end Sys2Proof.Machine
end

