-- ==== Sys2Proof/Machine/Versions.lean ====
section
/-! DEFINITION. Table versions (R53 to R55, R125 to R130): ranks, markers, visibility, the classification change log and its
walk. Markers are six bits: [5] ADD_V, [4:3] ADD, [2] DEL_V, [1:0] DEL. -/
namespace Sys2Proof.Machine

/-- The rank of a version number: 0 previous, 1 current, 2 staged (R125). -/
def State.vrank (s : State) (x : Nat) : Nat := (x % 4 + 5 - s.f Rg.CMT_VER Fd.CMT_VER_CUR) % 4

/-- The staged version number. -/
def State.stagedVer (s : State) : Nat := (s.f Rg.CMT_VER Fd.CMT_VER_CUR + 1) % 4

/-- Ranks of viewers. -/
abbrev rkPrev : Nat := 0
abbrev rkCur : Nat := 1
abbrev rkStaged : Nat := 2

/-- The rank from which a packet of generation `g` looks (R54). -/
def State.pktRank (s : State) (g : Nat) : Nat := if s.usesPrev g then rkPrev else rkCur

/-- Whether an entry with markers `m` is visible from rank `r` (R125); in direct mode markers are not used (R129). -/
def State.visible (s : State) (r m : Nat) : Bool :=
  !s.versioned || ((!bit m 5 || decide (s.vrank (bits m 3 2) ≤ r)) && (!bit m 2 || decide (r < s.vrank (m % 4))))

/-- Whether markers show an entry added in the present stage. -/
def State.addedNow (s : State) (m : Nat) : Bool := bit m 5 && bits m 3 2 == s.stagedVer

/-- Markers of an entry created in the present stage. -/
def State.addMark (s : State) : Nat := 32 + 8 * s.stagedVer

/-- Markers with DEL = staged. -/
def State.delMark (s : State) (m : Nat) : Nat := m / 8 * 8 + 4 + s.stagedVer

/-- A page's tables hold staged changes (R400). -/
def State.addPending (s : State) (pg : Nat) : State :=
  if s.tblPending.contains pg then s else { s with tblPending := s.tblPending ++ [pg] }

/-! ## The classification change log -/

/-- CLASS_LOG_STAT brought up to the log (R126, R127). -/
def State.classLogStat (s : State) : State :=
  let n := s.classLog.length
  (s.setF Rg.CLASS_LOG_STAT Fd.CLASS_LOG_STAT_USED (min 16384 (n + s.classWalk.length))).setF Rg.CLASS_LOG_STAT
    Fd.CLASS_LOG_STAT_FULL (b2n (decide (16384 ≤ n)))

/-- Whether the stage's log has room for `n` more entries. -/
def State.classLogRoom (s : State) (n : Nat) : Bool := decide (s.classLog.length + n ≤ 16384)

/-- A command refused for a full log (R126). -/
def State.classLogRefuse (s : State) : State := (s.bump Rg.CLASS_LOG_FULL_CNT).setInt Pg.CLASS Ib.CLASS_LOG_FULL

/-- An entry logged: kind 0 the ACL TCAM, 1 + t exact-match table t. -/
def State.classLogAdd (s : State) (kind idx : Nat) : State :=
  ({ s with classLog := (kind, idx) :: s.classLog }.classLogStat).addPending (if kind = 0 then Pg.ACL else Pg.EXM)

/-- A relocated entry's log records follow it (R163). -/
def State.classLogMove (s : State) (kind from' to' : Nat) : State :=
  let mv (e : Nat × Nat) : Nat × Nat := if e = (kind, from') then (kind, to') else e
  { s with classLog := s.classLog.map mv, classWalk := s.classWalk.map mv }

/-- Markers after a walk of the last committed stage: `none` where the entry is freed, else its ADD cleared (R127). A
marker of the stage now open is not the walk's and stays. -/
def State.walkMark (s : State) (m : Nat) : Option Nat :=
  if bit m 2 && m % 4 != s.stagedVer then none
  else some ((if s.addedNow m then m / 8 * 8 else 0) + m % 8)

end Sys2Proof.Machine
end

