-- ==== Sys2Proof/Machine/Exm.lean ====
section
/-! DEFINITION. Exact-match tables (chapter 7, R156 to R167): organisation, placement, lookup, insertion with relocation, and the
commands on a table. SRAM word `w` of bank `b` is entry 196,608 × b + w of table 0 of EXM; deep tables lie in HBM. -/
namespace Sys2Proof.Machine

/-- A logical table's configuration (R157). -/
structure ExmCfg where
  t : Nat
  en : Bool
  typ : Nat
  deep : Bool
  ways : Nat
  width : Nat
  keyBits : Nat
  bankBase : Nat
  bankCount : Nat
  nb : Nat
  seed : Nat
  base : Nat
  age : Bool
deriving DecidableEq, Repr

/-- A table's configuration from the values of its four registers. -/
def mkExmCfg (t cfg place seed base tableBase : Nat) : ExmCfg :=
  let ways := 2 ^ bits cfg 25 2
  let deep := bit cfg 27
  let cnt := bits place 16 7
  { t := t, en := bit cfg 31, typ := bits cfg 28 3, deep := deep, ways := ways, width := 2 ^ bits cfg 23 2,
    keyBits := bits cfg 16 7 + 1, bankBase := bits place 24 6, bankCount := cnt,
    nb := if deep then bits place 0 24 else cnt / ways * 49152,
    seed := seed, base := tableBase + base * 64, age := bit cfg 15 }

/-- A live table's configuration. -/
def State.exm (s : State) (t : Nat) : ExmCfg :=
  mkExmCfg t (s.rd (Rg.EXM_TBL_CFG t)) (s.rd (Rg.EXM_TBL_PLACE t)) (s.rd (Rg.EXM_TBL_SEED t)) (s.rd (Rg.EXM_TBL_DEEP_BASE t)) s.tableBase

/-! ## Placement -/

/-- One bit of a CRC-32 with polynomial 0x04C1_1DB7, most significant bit first. -/
def crc32mStep (c : Nat) (b : Bool) : Nat :=
  let x := c * 2 % 2 ^ 32
  if bit c 31 != b then x ^^^ 0x04C11DB7 else x

/-- `v` of 32 bits rotated left by `n`. -/
def rotl32 (v n : Nat) : Nat := (v * 2 ^ (n % 32) + v / 2 ^ (32 - n % 32)) % 2 ^ 32

/-- The candidate bucket of a key in way `w` (R158). -/
def ExmCfg.bucket (c : ExmCfg) (key w : Nat) : Nat :=
  (bitsOf c.keyBits key).foldl crc32mStep (rotl32 c.seed (8 * w)) * c.nb / 2 ^ 32

/-- Slots of a bucket (R158). -/
def ExmCfg.perBucket (c : ExmCfg) : Nat := 4 / c.width

/-- The index of slot `i` of bucket `b` of way `w` (R158). -/
def ExmCfg.index (c : ExmCfg) (w b i : Nat) : Nat := 4 * (w * c.nb + b) + i * c.width

/-- Slot count of a table. -/
def ExmCfg.slots (c : ExmCfg) : Nat := c.ways * c.nb * c.perBucket

/-- Whether an index names an entry of the table. -/
def ExmCfg.hasIndex (c : ExmCfg) (i : Nat) : Bool := decide (i < 4 * c.ways * c.nb) && i % c.width == 0

/-- Bank and word of an SRAM index (R158). -/
def ExmCfg.sramAt (c : ExmCfg) (i : Nat) : Nat × Nat :=
  let p := c.bankCount / c.ways
  let w := i / 4 / c.nb
  let b := i / 4 % c.nb
  (c.bankBase + w * p + b % p, 4 * (b / p) + i % 4)

/-- The index of an SRAM bank and word of the table: the inverse of `sramAt`. -/
def ExmCfg.sramIndex (c : ExmCfg) (bank word : Nat) : Nat :=
  let p := c.bankCount / c.ways
  let w := (bank - c.bankBase) / p
  4 * (w * c.nb + word / 4 * p + (bank - c.bankBase) % p) + word % 4

/-- HBM offset of a deep index (R161). -/
def ExmCfg.deepAt (c : ExmCfg) (i : Nat) : Nat := c.base + i * 16

/-- The raw entry at an index: its words, the first the lowest bits (R159). -/
def State.exmRaw (s : State) (c : ExmCfg) (i : Nat) : Nat :=
  (List.range c.width).foldl (fun a j => a + 2 ^ (128 * j) *
    (if c.deep then s.hbmWord (c.deepAt (i + j)) else
      let (b, w) := c.sramAt (i + j)
      s.tbl Pg.EXM 0 (196608 * b + w))) 0

/-- The stored words of an entry: page, class, memory and address of each. -/
def State.exmWords (s : State) (c : ExmCfg) (i : Nat) : List (Nat × Nat × Nat × Nat) :=
  (List.range c.width).map fun j =>
    if c.deep then
      let (k, r, b) := s.hbmFrom (c.deepAt (i + j))
      (Pg.HBMC k, 13, r, b / 16)
    else
      let (b, w) := c.sramAt (i + j)
      (Pg.EXM, 0, b, w)

/-- Whether a word of an entry is uncorrectable or poisoned. -/
def State.exmBad (s : State) (c : ExmCfg) (i : Nat) : Bool := (s.exmWords c i).any fun x => s.badWord x.1 x.2.2.1 x.2.2.2

/-- An entry as a lookup sees it: empty where a word of it is lost (R160). -/
def State.exmEnt (s : State) (c : ExmCfg) (i : Nat) : Nat := if s.exmBad c i then 0 else s.exmRaw c i

/-- An entry written whole in one bucket write. -/
def State.exmPut (s : State) (c : ExmCfg) (i v : Nat) : State :=
  if c.deep then s.hbmWrites (c.deepAt i) v c.width
  else
    (List.range c.width).foldl (fun t j =>
      let (b, w) := c.sramAt (i + j)
      (t.setTbl Pg.EXM 0 (196608 * b + w) (bits v (128 * j) 128)).wroteWord Pg.EXM b w) s

/-- An entry invalidated. -/
def State.exmClear (s : State) (c : ExmCfg) (i : Nat) : State := s.exmPut c i 0

/-- Entry fields by layout (R159). -/
def ExmCfg.valid (c : ExmCfg) (e : Nat) : Bool := bit e (128 * c.width - 1)
def ExmCfg.marks (c : ExmCfg) (e : Nat) : Nat := bits e (128 * c.width - 7) 6
def ExmCfg.resLo (c : ExmCfg) : Nat := if c.width = 1 then 64 else 128
def ExmCfg.resW (c : ExmCfg) : Nat := if c.width = 1 then 57 else if c.width = 2 then 96 else 256
def ExmCfg.result (c : ExmCfg) (e : Nat) : Nat := bits e c.resLo c.resW
def ExmCfg.key (c : ExmCfg) (e : Nat) : Nat := if c.width = 1 then e % 2 ^ 64 else e % 2 ^ 128

/-- An entry made from its parts. -/
def ExmCfg.mk' (c : ExmCfg) (key res marks : Nat) : Nat :=
  2 ^ (128 * c.width - 1) + marks % 64 * 2 ^ (128 * c.width - 7) + res % 2 ^ c.resW * 2 ^ c.resLo +
    (if c.width = 1 then key % 2 ^ 64 else key % 2 ^ 128)

/-- Whether the table's entries carry markers that count: a CLASS table in versioned mode (R159). -/
def State.exmVersioned (s : State) (c : ExmCfg) : Bool := c.typ == 1 && s.versioned

/-- Whether an entry of a table is visible from a rank. -/
def State.exmSees (s : State) (c : ExmCfg) (r e : Nat) : Bool :=
  c.valid e && (c.typ != 1 || s.visible r (c.marks e))

/-- The candidate slots of a key, ascending (R158). -/
def ExmCfg.candidates (c : ExmCfg) (key : Nat) : List Nat :=
  (List.range c.ways).flatMap fun w => (List.range c.perBucket).map fun i => c.index w (c.bucket key w) i

/-! ## Lookup -/

/-- The index that a lookup hits (R160): the lowest of the valid visible entries with the key. -/
def State.exmFind (s : State) (c : ExmCfg) (r key : Nat) : Option Nat :=
  if c.nb = 0 then none else
  (c.candidates key).find? fun i =>
    let e := s.exmEnt c i
    s.exmSees c r e && c.key e == key

/-- The words a lookup reads: their errors captured, a lost word counted once (R160, R304). -/
def State.exmTouch (s : State) (c : ExmCfg) (key : Nat) : State :=
  if c.nb = 0 then s else
  let is := c.candidates key
  let s1 := is.foldl (fun t i => (t.exmWords c i).foldl (fun u x =>
    u.meetErr x.1 x.2.1 x.2.2.1 x.2.2.2 (u.mark x.1 x.2.2.1 x.2.2.2) false) t) s
  if is.any (s.exmBad c) then (s1.bump Rg.EXM_UNCORR_CNT).setInt Pg.EXM Ib.EXM_UNCORR else s1

/-- A lookup of a stored-form key from a rank: the result bits of the hit. -/
def State.exmLookup (s : State) (t r key : Nat) : State × Option Nat :=
  let c := s.exm t
  if !c.en then (s, none) else
  (s.exmTouch c key, (s.exmFind c r key).map fun i => c.result (s.exmEnt c i))

/-! ## Counting -/

/-- A table's USED changed by one, and LEARN_STAT.USED with it for an L2 table. -/
def State.exmUsed (s : State) (c : ExmCfg) (up : Bool) : State :=
  let ch (t : State) (a : Nat) (fl : Fld) : State := t.setF a fl (if up then t.f a fl + 1 else t.f a fl - 1)
  let s1 := ch s (Rg.EXM_TBL_STAT c.t) Fd.EXM_TBL_STAT_USED
  if c.typ = 2 then ch s1 Rg.LEARN_STAT Fd.LEARN_STAT_USED else s1

/-- The valid entries of a table, by ascending index. -/
def State.exmListed (s : State) (c : ExmCfg) : List Nat :=
  if c.nb = 0 then [] else
  let lo := tkey Pg.EXM 0 (196608 * c.bankBase)
  let is := if c.deep then
      ((s.hbm.filter fun e => c.base ≤ e.1 * 16 && e.1 * 16 < c.base + c.ways * c.nb * 64).map fun e => (e.1 * 16 - c.base) / 16)
    else ((s.tbls.filter fun e => lo ≤ e.1 && e.1 < lo + 196608 * c.bankCount).map fun e =>
      let x := e.1 % 2 ^ 32
      c.sramIndex (x / 196608) (x % 196608))
  let heads := ((is.map fun i => i / c.width * c.width).eraseDups).filter fun i => c.valid (s.exmRaw c i)
  sortBy (fun a b => decide (a ≤ b)) heads

/-! ## Insertion -/

/-- The free slot of a bucket that an insert takes: one with a lost word first, else the first that is not VALID (R162, R306). -/
def State.freeSlot (s : State) (c : ExmCfg) (w b : Nat) : Option Nat :=
  let is := (List.range c.perBucket).map (c.index w b)
  (is.find? (s.exmBad c)).or (is.find? fun i => !c.valid (s.exmRaw c i))

/-- The state of the breadth-first search: the buckets read, the next level with the chain of slots that leads to each
bucket (root first), and the answer: a chain and the free slot, or failure. -/
structure Bfs where
  seen : List (Nat × Nat)
  next : List (Nat × Nat × List Nat)
  found : Option (List Nat × Nat)
  failed : Bool
deriving DecidableEq, Repr

/-- One occupied slot examined: its entry's candidate buckets in its other ways, ascending (R162). -/
def State.bfsSlot (s : State) (c : ExmCfg) (maxReads : Nat) (w i : Nat) (chain : List Nat) (x : Bfs) : Bfs :=
  if chain.contains i then x else
  (List.range c.ways).foldl (fun (y : Bfs) w' =>
    if w' = w ∨ y.found.isSome ∨ y.failed then y else
    let b' := c.bucket (c.key (s.exmRaw c i)) w'
    if y.seen.contains (w', b') then y
    else if maxReads ≤ y.seen.length then { y with failed := true }
    else
      match s.freeSlot c w' b' with
      | some j => { y with seen := (w', b') :: y.seen, found := some (chain ++ [i], j) }
      | none => { y with seen := (w', b') :: y.seen, next := y.next ++ [(w', b', chain ++ [i])] }) x

/-- Order by way, then bucket. -/
def bucketLe (a b : Nat × Nat × List Nat) : Bool := decide (a.1 < b.1) || (a.1 == b.1 && decide (a.2.1 ≤ b.2.1))

/-- Levels of the search, at most the depth given (R162). -/
def State.bfs (s : State) (c : ExmCfg) (maxReads : Nat) : Nat → Bfs → Bfs
  | 0, x => { x with failed := true }
  | d + 1, x =>
    let y := (sortBy bucketLe x.next).foldl (fun (z : Bfs) n =>
      (List.range c.perBucket).foldl (fun (u : Bfs) k =>
        if u.found.isSome ∨ u.failed then u else s.bfsSlot c maxReads n.1 (c.index n.1 n.2.1 k) n.2.2 u) z)
      { x with next := [] }
    if y.found.isSome ∨ y.failed ∨ y.next = [] then y else State.bfs s c maxReads d y

/-- Where an insert goes: the chain of slots to relocate and the slot it frees into, or `none` (R162). -/
def State.exmPlace (s : State) (c : ExmCfg) (key : Nat) : Option (List Nat × Nat) :=
  if c.nb = 0 then none else
  let roots := (List.range c.ways).map fun w => (w, c.bucket key w)
  match roots.findSome? fun r => s.freeSlot c r.1 r.2 with
  | some i => some ([], i)
  | none =>
    if c.ways = 1 then none else
    (s.bfs c (s.f Rg.EXM_CFG Fd.EXM_CFG_MAX_READS) (s.f Rg.EXM_CFG Fd.EXM_CFG_CUCKOO_DEPTH)
      ⟨roots, roots.map fun r => (r.1, r.2, []), none, false⟩).found

/-- A relocation chain run from its free end; answers the slot left for the new entry (R163). -/
def State.exmRelocate (s : State) (c : ExmCfg) (chain : List Nat) (free : Nat) : State × Nat :=
  chain.reverse.foldl (fun (a : State × Nat) i =>
    let e := a.1.exmRaw c i
    let s1 := ((a.1.exmPut c a.2 e).exmClear c i).bump Rg.EXM_MOVE_CNT
    (if s1.exmVersioned c then s1.classLogMove (1 + c.t) i a.2 else s1, i)) (s, free)

/-- An entry placed: its index and the relocations made, or `none` for no room. One that takes the slot of a lost entry takes its
place in USED too (R306). -/
def State.exmInsert (s : State) (c : ExmCfg) (key e : Nat) : Option (State × Nat × Nat) :=
  match s.exmPlace c key with
  | none => none
  | some (chain, free) =>
    let (s1, i) := s.exmRelocate c chain free
    let s2 := s1.exmPut c i e
    some (if c.valid (s.exmRaw c free) then s2 else s2.exmUsed c true, i, chain.length)

/-- An entry freed. -/
def State.exmFree (s : State) (c : ExmCfg) (i : Nat) : State := (s.exmClear c i).exmUsed c false

/-! ## L2 entries -/

/-- The superframe count, TICK_COUNT[17:6] (R167). -/
def State.superframe (s : State) : Nat := s.tickCount / 64 % 4096

/-- AGE_STAT.CUR. -/
def State.ageCur (s : State) : Nat := s.f Rg.AGE_STAT Fd.AGE_STAT_CUR

/-- An L2 entry from its parts (R167). -/
def mkL2 (static frozen : Bool) (flap move age sport flags fid mac : Nat) : Nat :=
  2 ^ 127 + b2n static * 2 ^ 126 + b2n frozen * 2 ^ 125 + flap % 8 * 2 ^ 122 + move % 4096 * 2 ^ 110 +
    age % 256 * 2 ^ 102 + sport % 2 ^ 17 * 2 ^ 85 + flags % 256 * 2 ^ 77 + fid % 2 ^ 16 * 2 ^ 48 + mac % 2 ^ 48

/-- Fields of an L2 entry. -/
def l2Static (e : Nat) : Bool := bit e 126
def l2Frozen (e : Nat) : Bool := bit e 125
def l2Flap (e : Nat) : Nat := bits e 122 3
def l2Move (e : Nat) : Nat := bits e 110 12
def l2Age (e : Nat) : Nat := bits e 102 8
def l2Sport (e : Nat) : Nat := bits e 85 17
def l2Fid (e : Nat) : Nat := bits e 48 16
def l2Mac (e : Nat) : Nat := e % 2 ^ 48

/-- The limit of valid L2 entries over all tables (R172). -/
def State.l2Full (s : State) : Bool := decide (2097152 ≤ s.f Rg.LEARN_STAT Fd.LEARN_STAT_USED)

/-! ## Table commands -/

/-- Completion codes (R166). -/
abbrev opRead : Nat := 1
abbrev opWrite : Nat := 2
abbrev opInsert : Nat := 3
abbrev opDelete : Nat := 4
abbrev opMove : Nat := 5
abbrev opSearch : Nat := 6
abbrev opFlush : Nat := 7
abbrev stOk : Nat := 0x00
abbrev stBusy : Nat := 0x01
abbrev stBadData : Nat := 0x02
abbrev stOccupied : Nat := 0x03
abbrev stNotFound : Nat := 0x04
abbrev stFull : Nat := 0x05
abbrev stLogFull : Nat := 0x06
abbrev stUnsupported : Nat := 0x07
abbrev stBadAddr : Nat := 0x08
abbrev stReadOnly : Nat := 0x09
abbrev stNotAllowed : Nat := 0x0A
abbrev stUncorr : Nat := 0x0B

/-- What a table command answers: its status, the relocations made, and what completion writes into TBL_DATA (`none`:
TBL_DATA keeps what it holds). -/
structure TblAns where
  st : Nat
  moves : Nat := 0
  data : Option Nat := none
deriving DecidableEq, Repr

/-- An answer with a status alone. -/
def ans (st : Nat) : TblAns := { st := st }

/-- The entry that an INSERT or WRITE of TBL_DATA stores (R164, R167, EXM registers). -/
def State.exmNew (s : State) (c : ExmCfg) (data marks : Nat) : Nat :=
  let key := data % 2 ^ 128
  if c.typ = 2 then
    mkL2 (bit data (384 + 24)) (bit data (384 + 23)) 0 s.superframe s.ageCur (bits data 128 17) (bits data 145 8)
      (bits key 48 16) (key % 2 ^ 48)
  else c.mk' key (bits data 128 256) marks

/-- TBL_DATA as a READ or SEARCH returns an entry (EXM registers). -/
def ExmCfg.show (c : ExmCfg) (e i : Nat) : Nat :=
  let w12 := b2n (c.valid e) * 2 ^ 31 + (if c.typ = 2 then
      b2n (l2Static e) * 2 ^ 24 + b2n (l2Frozen e) * 2 ^ 23 + l2Flap e * 2 ^ 20 + l2Move e * 2 ^ 8 + l2Age e
    else c.marks e * 2 ^ 25)
  let res := if c.typ = 2 then l2Sport e + bits e 77 8 * 2 ^ 17 else c.result e
  c.key e + res * 2 ^ 128 + w12 * 2 ^ 384 + i % 2 ^ 27 * 2 ^ 480

/-- INSERT (R162 to R164, R172). -/
def State.exmCmdInsert (s : State) (c : ExmCfg) (data : Nat) : State × TblAns :=
  let key := data % 2 ^ 128
  if 2 ^ c.keyBits ≤ key then (s, ans stBadData) else
  let ver := s.exmVersioned c
  let r := if ver then rkStaged else rkCur
  match s.exmFind c r key with
  | some i =>
    if ver && s.addedNow (c.marks (s.exmEnt c i)) then
      if !s.classLogRoom 1 then (s.classLogRefuse, ans stLogFull)
      else ((s.exmPut c i (s.exmNew c data (c.marks (s.exmEnt c i)))).classLogAdd (1 + c.t) i, { st := stOk, data := some (data % 2 ^ 480 + i * 2 ^ 480) })
    else (s, ans stOccupied)
  | none =>
    if ver && !s.classLogRoom 1 then (s.classLogRefuse, ans stLogFull)
    else if c.typ = 2 ∧ s.l2Full then (s.bump Rg.EXM_FULL_CNT, ans stFull)
    else
      match s.exmInsert c key (s.exmNew c data (if ver then s.addMark else 0)) with
      | none => (s.bump Rg.EXM_FULL_CNT, ans stFull)
      | some (s1, i, m) =>
        (if ver then s1.classLogAdd (1 + c.t) i else s1, ⟨stOk, min 255 m, some (data % 2 ^ 480 + i % 2 ^ 27 * 2 ^ 480)⟩)

/-- WRITE (R164, R173). -/
def State.exmCmdWrite (s : State) (c : ExmCfg) (data : Nat) : State × TblAns :=
  let key := data % 2 ^ 128
  if 2 ^ c.keyBits ≤ key then (s, ans stBadData) else
  let ver := s.exmVersioned c
  match s.exmFind c (if ver then rkStaged else rkCur) key with
  | none => (s, ans stNotFound)
  | some i =>
    let m := c.marks (s.exmEnt c i)
    let s1 := s.exmPut c i (s.exmNew c data m)
    let a : TblAns := { st := stOk, data := some (data % 2 ^ 480 + i % 2 ^ 27 * 2 ^ 480) }
    if !ver then (s1, a)
    else if !s.addedNow m then (s, ans stOccupied)
    else if !s.classLogRoom 1 then (s.classLogRefuse, ans stLogFull)
    else (s1.classLogAdd (1 + c.t) i, a)

/-- One entry deleted: freed, or in versioned mode marked unless it was added in this stage (R126). -/
def State.exmDelete (s : State) (c : ExmCfg) (i : Nat) : State :=
  if !s.exmVersioned c then s.exmFree c i else
  let e := s.exmRaw c i
  let s1 := s.classLogAdd (1 + c.t) i
  if s.addedNow (c.marks e) then s1.exmFree c i
  else s1.exmPut c i (setBits e (128 * c.width - 7) 6 (s.delMark (c.marks e)))

/-- DELETE (R126, R164). -/
def State.exmCmdDelete (s : State) (c : ExmCfg) (data : Nat) : State × TblAns :=
  let ver := s.exmVersioned c
  match s.exmFind c (if ver then rkStaged else rkCur) (data % 2 ^ 128) with
  | none => (s, ans stNotFound)
  | some i =>
    if ver && !s.classLogRoom 1 then (s.classLogRefuse, ans stLogFull)
    else (s.exmDelete c i, { st := stOk, data := some (data % 2 ^ 480 + i % 2 ^ 27 * 2 ^ 480) })

/-- Whether a narrowed FLUSH of an L2 table takes an entry (R164). -/
def flushTakes (c : ExmCfg) (data e : Nat) : Bool :=
  c.typ != 2 || ((!bit data 0 || !l2Static e) && (!bit data 1 || l2Sport e == bits data 32 17) &&
    (!bit data 2 || l2Fid e == bits data 64 16))

/-- FLUSH (R126, R164). -/
def State.exmCmdFlush (s : State) (c : ExmCfg) (data : Nat) : State × TblAns :=
  let ver := s.exmVersioned c
  let is := (s.exmListed c).filter fun i =>
    flushTakes c data (s.exmRaw c i) && (!ver || s.visible rkStaged (c.marks (s.exmRaw c i)))
  if ver && !s.classLogRoom is.length then (s.classLogRefuse, ans stLogFull)
  else (is.foldl (fun t i => t.exmDelete c i) s, ans stOk)

/-- READ (R164, R166): the raw entry at the index; data of a lost word is a free value. -/
def State.exmCmdRead (s : State) (c : ExmCfg) (i : Nat) : State × TblAns :=
  if !c.hasIndex i then (s, ans stBadAddr) else
  let s1 := (s.exmWords c i).foldl (fun u x => u.meetErr x.1 x.2.1 x.2.2.1 x.2.2.2 (u.mark x.1 x.2.2.1 x.2.2.2) false) s
  if s.exmBad c i then (s1.draw, { st := stUncorr, data := some (s1.freeVal 512) })
  else (s1, { st := stOk, data := some (c.show (s.exmRaw c i) i) })

/-- SEARCH (R164). -/
def State.exmCmdSearch (s : State) (c : ExmCfg) (data : Nat) : State × TblAns :=
  let key := data % 2 ^ 128
  let s1 := s.exmTouch c key
  match s.exmFind c rkCur key with
  | none => (s1, ans stNotFound)
  | some i => (s1, { st := stOk, data := some (c.show (s.exmEnt c i) i) })

/-- A staging command outside OPEN is ignored and counted (R58); it completes as not allowed. -/
def State.lateTbl (s : State) : State × TblAns := (s.lateWrite, ans stNotAllowed)

/-- A command of the EXM page (R164, R165). -/
def State.exmCmd (s : State) (op addr data : Nat) : State × TblAns :=
  let c := s.exm (addr / 2 ^ 27 % 32)
  if op = 5 then (s, ans stUnsupported)
  else if !c.en then (s, ans stBadAddr)
  else if s.exmVersioned c && !s.stageOpen && [2, 3, 4, 7].contains op then s.lateTbl
  else match op with
    | 1 => s.exmCmdRead c (addr % 2 ^ 27)
    | 2 => s.exmCmdWrite c data
    | 3 => s.exmCmdInsert c data
    | 4 => s.exmCmdDelete c data
    | 6 => s.exmCmdSearch c data
    | 7 => s.exmCmdFlush c data
    | _ => (s, ans stUnsupported)

/-- One logged entry of a CLASS table walked (R127). -/
def State.exmWalk (s : State) (t i : Nat) : State :=
  let c := s.exm t
  let e := s.exmRaw c i
  if !c.valid e then s else
  match s.walkMark (c.marks e) with
  | none => s.exmFree c i
  | some m => s.exmPut c i (setBits e (128 * c.width - 7) 6 m)

end Sys2Proof.Machine
end

