-- ==== Sys2Proof/Machine/Flow.lean ====
section
/-! DEFINITION. Flow counters (R317 to R319): the combining cache, its write-back queue, the pairs in HBM, and table 0b01 of CNT_T. -/
namespace Sys2Proof.Machine

/-- The HBM offset of a flow-counter pair (R317). -/
def State.pairOff (s : State) (n : Nat) : Nat := s.flowBase + 16 * n

/-- One pair read, as PACKETS + 2⁶⁴ × BYTES, without the cached increments; `none` where it reads bad (R305). -/
def State.pairRead (s : State) (n : Nat) : State × Option Nat :=
  let (s1, v, ok) := s.hbmRead 13 (s.pairOff n)
  (s1, if ok then some v else none)

/-- Increments added to a pair, each half modulo 2⁶⁴ (R317). -/
def pairAdd (v p b : Nat) : Nat := (v % 2 ^ 64 + p) % 2 ^ 64 + (v / 2 ^ 64 + b) % 2 ^ 64 * 2 ^ 64

/-- The read-modify-write of one pair (R302): a stack that is not up loses the update (R297), a pair that reads bad starts
again from this update alone (R306). -/
def State.pairUpdate (s : State) (x : FlowInc) : State :=
  let o := s.pairOff x.pair
  let (k, _, _) := s.part.hbmPlace o
  if !s.hbmUp o then s.bump (Rg.HBMC_FLOW_LOST_CNT k)
  else
    let (s1, v) := s.pairRead x.pair
    match v with
    | some w => s1.hbmNarrow 13 o (pairAdd w x.pkts x.bytes)
    | none => (s1.bump (Rg.RAS_FLOW_RESET_CNT 1)).hbmNarrow 13 o (pairAdd 0 x.pkts x.bytes)

/-- The cached increments of a pair, in the cache and in the write-back queue. -/
def State.flowCached (s : State) (n : Nat) : Nat × Nat :=
  (s.bf.flow ++ s.bf.flowWb).foldl (fun a x => if x.pair = n then (a.1 + x.pkts, a.2 + x.bytes) else a) (0, 0)

/-- A packet of `len` bytes counted in a pair (R317, R318). -/
def State.flowCount (s : State) (n len : Nat) : State :=
  let b := s.bf
  match b.flow.find? (·.pair == n) with
  | some e => { s with bf := { b with flow := { e with pkts := e.pkts + 1, bytes := e.bytes + len } :: b.flow.filter (·.pair != n) } }
  | none =>
    let new : FlowInc := ⟨n, 1, len, s.tk.count⟩
    if b.flow.length < 8192 then { s with bf := { b with flow := new :: b.flow } }
    else match b.flow.getLast? with
    | none => s
    | some old =>
      if b.flowWb.length < 4096 then
        { s with bf := { b with flow := new :: b.flow.dropLast, flowWb := b.flowWb ++ [old] } }
      else (s.bump Rg.CNT_FLOW_DROP_CNT).setInt Pg.CNT_T Ib.CNT_T_FLOW_DROP

/-- One write-back (R318): the oldest eviction, or else an entry that has been held for 64 ticks. -/
def State.flowWriteback (s : State) : State :=
  match s.bf.flowWb with
  | x :: rest => { s with bf := { s.bf with flowWb := rest } }.pairUpdate x
  | [] =>
    match s.bf.flow.find? fun e => decide (e.tick + 64 ≤ s.tk.count) with
    | some e => { s with bf := { s.bf with flow := s.bf.flow.filter (·.pair != e.pair) } }.pairUpdate e
    | none => s

/-- FLOW_CACHE_WRITEBACK (R318). -/
def execFlowCacheWriteback (s : State) : Out := .next s.flowWriteback

/-- Cached increments of the pairs from `first` to `first + n − 1` discarded. -/
def State.flowForget (s : State) (first n : Nat) : State :=
  let out (x : FlowInc) : Bool := !(decide (first ≤ x.pair) && decide (x.pair < first + n))
  { s with bf := { s.bf with flow := s.bf.flow.filter out, flowWb := s.bf.flowWb.filter out } }

/-- `n` pairs zeroed from `first`: every listed word of the range is removed and its errors with it (whole-codeword writes, R302). -/
def State.flowZero (s : State) (first n : Nat) : State :=
  let lo := s.pairOff first / 16
  let ps := (s.hbm.filter fun e => decide (lo ≤ e.1 ∧ e.1 < lo + n)).map (·.1)
  let bad := s.marks.filter fun e => isHbmc (e.1 / 2 ^ 64 * 0x1000)
  let badPairs := (bad.map fun e =>
      let k := e.1 / 2 ^ 64 - Pg.HBMC 0 / 0x1000
      s.hbmOffset k (e.1 / 2 ^ 56 % 256) (e.1 % 2 ^ 56 * 16) / 16).filter fun w => decide (lo ≤ w ∧ w < lo + n)
  ((ps ++ badPairs).eraseDups.foldl (fun t w => t.hbmWrite (16 * w) 0) s).flowForget first n

/-- A command on table 0b01 of CNT_T (R319). -/
def State.flowCmd (s : State) (op addr data : Nat) : State × TblAns :=
  let i := addr % 2 ^ 30
  if op = opFlush then
    let first := bits data 0 24
    let n := bits data 32 25
    if n = 0 ∨ 16777216 < n ∨ 16777216 < first + n then (s, ans stBadAddr) else (s.flowZero first n, ans stOk)
  else if op ≠ opRead ∧ op ≠ opWrite then (s, ans stUnsupported)
  else if 16777215 < i then (s, ans stBadAddr)
  else if op = opWrite then
    ((s.hbmWrite (s.pairOff i) (data % 2 ^ 128)).flowForget i 1, ans stOk)
  else
    let (s1, v) := s.pairRead i
    let c := s.flowCached i
    match v with
    | some w => (s1, { st := stOk, data := some (pairAdd w c.1 c.2) })
    | none => (s1, ans stUncorr)

end Sys2Proof.Machine
end

