-- ==== Sys2Proof/Machine/Voq.lean ====
section
/-! DEFINITION. VOQs and Caldera (chapter 9, R206 to R208, R215, R217, R219 to R224): cell counts, spill and return, the
outer page code, loss of pages, stale destinations. -/
namespace Sys2Proof.Machine

/-! ## Counts -/

/-- Cells of a packet of `n` bytes (R206). -/
abbrev cellsOf (n : Nat) : Nat := ceilDiv n 256

/-- Cells of a packet that its VOQ still holds. -/
def VPkt.rem (p : VPkt) : Nat := cellsOf p.bytes.length - p.gone - p.lost

/-- Cells staged. -/
def VoqSt.nstaged (x : VoqSt) : Nat := (x.staged.map (·.2)).sum

/-- Cells held on die. -/
def VoqSt.onDie (x : VoqSt) : Nat := x.head + x.nstaged

/-- Cells in HBM pages. -/
def VoqSt.inHbm (x : VoqSt) : Nat := (x.pages.map (·.2)).sum

/-- All cells of a VOQ (R215). -/
def VoqSt.cells (x : VoqSt) : Nat := x.onDie + x.inHbm

/-- Bytes of a VOQ. -/
def VoqSt.bytes (x : VoqSt) : Nat := (x.pkts.map fun p => p.bytes.length - min p.bytes.length (256 * (p.gone + p.lost))).sum

/-- The credit balance (R268): remaining units of held grants, saturating. -/
def VoqSt.balance (x : VoqSt) : Nat := min 0xFFFF ((x.grants.map (·.units)).sum)

/-- For each cell of a VOQ, oldest first, whether it counts as lossless. -/
def VoqSt.classes (x : VoqSt) : List Bool := x.pkts.flatMap fun p => List.replicate p.rem p.lossless

/-- A VOQ. -/
def State.voq (s : State) (v : Nat) : VoqSt := sget {} s.voqs v

/-- A VOQ replaced, with VOQ_STAT, VOQ_SPILLED and FCRD_GRANTS_HELD following. -/
def State.setVoq (s : State) (v : Nat) (x : VoqSt) : State :=
  let s1 : State := { s with voqs := sset {} s.voqs v x }
  ((s1.wr Rg.VOQ_STAT (s1.voqs.countP fun e => decide (0 < e.2.cells))).wr Rg.VOQ_SPILLED (s1.voqs.countP (·.2.spill))).wr
    Rg.FCRD_GRANTS_HELD ((s1.voqs.map (·.2.grants.length)).sum)

/-- The destination entry of a system port (R222), 0 (invalid) at reset. -/
def State.dest (s : State) (sport : Nat) : Nat := s.tbl Pg.VOQ 1 sport

/-- VALID and DEV of a VOQ's destination. -/
def State.destValid (s : State) (v : Nat) : Bool := bit (s.dest (v / 8)) 31
def State.destDev (s : State) (v : Nat) : Nat := bits (s.dest (v / 8)) 20 11

/-- A word of the admission profile of a VOQ (R215). -/
def State.prof (s : State) (v word : Nat) : Nat :=
  s.tf Pg.ADM 0 (8 * (s.dest (v / 8) % 64) + v % 8) (32 * word) 24

/-- The words of a source entry (R215). -/
def State.srcLimit (s : State) (k : Nat) : Nat := s.tf Pg.ADM 1 k 0 24
def State.srcXon (s : State) (k : Nat) : Nat := s.tf Pg.ADM 1 k 32 24
def State.srcHdrm (s : State) (k : Nat) : Nat := s.tf Pg.ADM 1 k 64 24
def State.srcUsed (s : State) (k : Nat) : Nat := s.tf Pg.ADM 2 k 0 24
def State.srcXoff (s : State) (k : Nat) : Bool := s.tf Pg.ADM 2 k 31 1 == 1

/-- Caldera cells of the powered quarters (R206, R208). -/
def State.caldCells (s : State) : Nat := 98304 * popcount 4 (s.rd (Rg.PWR_DOM_STAT 1 0))

/-- Caldera's counts changed by signed numbers of arrival, lossy and lossless cells; USED, CALD_PEAK and LOSSY_FULL follow. -/
def State.cald (s : State) (arr lossy lossless : Int) : State :=
  let up (a : Nat) (d : Int) (t : State) : State := t.wr a (((t.rd a : Int) + d).toNat)
  let s1 := up Rg.CALD_LOSSLESS lossless (up Rg.CALD_LOSSY lossy (up Rg.CALD_ARRIVAL arr s))
  let used := s1.rd Rg.CALD_ARRIVAL + s1.rd Rg.CALD_LOSSY + s1.rd Rg.CALD_LOSSLESS
  let s2 := (s1.wr Rg.CALD_STAT used).peak Rg.CALD_PEAK (max used (s.rd Rg.CALD_STAT))
  let full := decide (s2.rd Rg.ADM_LOSSY_MAX ≤ s2.rd Rg.CALD_LOSSY)
  { s2.setIntIf (full && !s2.bf.lossyFull) Pg.CALD Ib.CALD_LOSSY_FULL with bf := { s2.bf with lossyFull := full } }

/-- On-die cells of a list of classes freed (`sign` −1) or taken (`sign` 1). -/
def State.caldClasses (s : State) (l : List Bool) (sign : Int) : State :=
  if l.isEmpty then s else s.cald 0 (sign * (l.countP (!·) : Nat)) (sign * (l.countP id : Nat))

/-- Cells of admitted packets charged to a source entry (R215, R217). -/
def State.srcUp (s : State) (k n : Nat) : State :=
  let s1 := s.setTf Pg.ADM 2 k 0 24 (s.srcUsed k + n)
  if bit (s.f Rg.ADM_CFG Fd.ADM_CFG_LOSSLESS_TC) (k % 8) && !s1.srcXoff k && decide (s1.srcLimit k ≤ s1.srcUsed k) then
    ((s1.setTf Pg.ADM 2 k 31 1 1).bump Rg.ADM_PFC_XOFF_CNT).setInt Pg.ADM Ib.ADM_XOFF
  else s1

/-- Cells given back to a source entry; release is requested when USED falls to XON (R217). -/
def State.srcDown (s : State) (src : Option Nat) (n : Nat) : State :=
  match src with
  | none => s
  | some k =>
    let s1 := s.setTf Pg.ADM 2 k 0 24 (s.srcUsed k - n)
    if n ≠ 0 ∧ s1.srcXoff k ∧ s1.srcUsed k ≤ s1.srcXon k then s1.setTf Pg.ADM 2 k 31 1 0 else s1

/-! ## Pages -/

/-- Buffer pages that no VOQ holds and that are not lost (R219, R221). -/
def State.pageFree (s : State) (n : Nat) : Bool :=
  decide (n < s.rd Rg.BUF_PAGES_TOTAL + s.bf.lostPages.length) && !s.bf.lostPages.contains n &&
    !((s.voqs ++ s.bf.lost).any fun e => e.2.pages.any (·.1 == n))

/-- Pages given back or taken: BUF_PAGES_FREE, and the lowest level in BUF_PAGES_LOW. -/
def State.pagesFree (s : State) (d : Int) : State :=
  s.setFree ((s.rd Rg.BUF_PAGES_FREE : Int) + d).toNat

/-- Cells taken from the front of a VOQ's parts: the head part, then pages, then staging. Answers the VOQ, the on-die cells freed
and the pages freed; the packets are not touched. -/
def VoqSt.takeCells (x : VoqSt) : Nat → VoqSt × Nat × Nat
  | 0 => (x, 0, 0)
  | n + 1 =>
    if 0 < x.head then
      let r := VoqSt.takeCells { x with head := x.head - 1 } n
      (r.1, r.2.1 + 1, r.2.2)
    else match x.pages with
    | (p, c) :: rest =>
      if 1 < c then VoqSt.takeCells { x with pages := (p, c - 1) :: rest } n
      else
        let r := VoqSt.takeCells { x with pages := rest } n
        (r.1, r.2.1, r.2.2 + 1)
    | [] =>
      match x.staged with
      | (t, c) :: rest =>
        let r := VoqSt.takeCells { x with staged := if 1 < c then (t, c - 1) :: rest else rest } n
        (r.1, r.2.1 + 1, r.2.2)
      | [] => (x, 0, 0)

/-- SPILL_THR of a VOQ's profile (R219). -/
def State.spillThr (s : State) (v : Nat) : Nat := s.prof v 1

/-- The last row of the mode table: with the HBM part empty and the head part below SPILL_THR ÷ 2, staged cells join the head
part and the VOQ is ONDIE again (R219). -/
def State.voqMode (s : State) (x : VoqSt) (v : Nat) : VoqSt :=
  if x.spill && x.pages.isEmpty && decide (2 * x.head < s.spillThr v) then { x with head := x.onDie, staged := [], spill := false } else x

/-- A VOQ replaced, its mode brought up to its parts. -/
def State.putVoq (s : State) (v : Nat) (x : VoqSt) : State := s.setVoq v (s.voqMode x v)

/-- The oldest packet of a VOQ gives back `n` cells: cell counts, pages and its source entry follow (R215). `done`: it leaves
the VOQ. -/
def State.voqFree (s : State) (v n : Nat) (done : Bool) : State :=
  let x := s.voq v
  match x.pkts with
  | [] => s
  | p :: rest =>
    let (y, onDie, pages) := x.takeCells n
    let s1 := ((s.caldClasses (List.replicate onDie p.lossless) (-1)).pagesFree pages).srcDown p.source n
    s1.putVoq v { y with pkts := if done then rest else { p with gone := p.gone + n } :: rest }

/-- The oldest packet of a VOQ discarded whole at dequeue. -/
def State.voqDrop (s : State) (v : Nat) : State :=
  match (s.voq v).pkts with
  | [] => s
  | p :: _ => s.voqFree v p.rem true

/-- A discard of a packet with poisoned or lost data (R221, R223). -/
def State.poisonDrop (s : State) : State := (s.bump Rg.VOQ_POISON_DROP_CNT).setInt Pg.VOQ Ib.VOQ_POISON_DROP

/-! ## The outer page code (R301) -/

/-- Multiplication in GF(2⁸) with field polynomial 0x11D. -/
def gfMul (a b : Nat) : Nat :=
  (List.range 8).foldl (fun (r : Nat × Nat) i =>
    ((if bit b i then r.1 ^^^ r.2 else r.1), if bit r.2 7 then (r.2 * 2 % 256) ^^^ 0x1D else r.2 * 2)) (0, a) |>.1

/-- α to a power. -/
def gfPow : Nat → Nat
  | 0 => 1
  | n + 1 => gfMul 2 (gfPow n)

/-- A polynomial (highest degree first) times (x − r). -/
def gfTimes (g : List Nat) (r : Nat) : List Nat :=
  (g ++ [0]).zipWith (· ^^^ ·) (0 :: g.map (gfMul r))

/-- The generator with the roots α⁰ to α^(p−1), highest degree first. -/
def rsGen (p : Nat) : List Nat := (List.range p).foldl (fun g i => gfTimes g (gfPow i)) [1]

/-- The `p` parity bytes of a list of data bytes: the remainder of data × x^p by the generator, highest degree first. -/
def rsParity (p : Nat) (data : List Nat) : List Nat :=
  let g := (rsGen p).drop 1
  data.foldl (fun r d =>
    let f := d ^^^ r.headD 0
    ((r.drop 1) ++ [0]).zipWith (fun a b => a ^^^ gfMul f b) g) (List.replicate p 0)

/-- Parity bytes per interleave of an RS_PARITY setting (R221). -/
def parityBytes (rs : Nat) : Nat := if rs = 0 then 0 else 2 * 2 ^ rs

/-- The parity bytes of a page, interleave 0 first. -/
def pageParity (p : Nat) (page : List Byte) : List Nat :=
  let codes := page.zipIdx
  (List.range 16).flatMap fun i => rsParity p ((codes.filter fun e => e.2 % 16 == i).map fun e => e.1.toNat)

/-! ## Pages and side records in HBM (R282) -/

/-- The side record of a page. -/
def State.sideOff (s : State) (n : Nat) : Nat :=
  let rs := s.f Rg.BUF_CFG Fd.BUF_CFG_RS_PARITY
  2048 * bufPages (s.f Rg.HBM_REGION Fd.HBM_REGION_BUF_SIZE) rs + sideBytes rs * n

/-- Bytes as one number, first byte lowest, for a write of HBM words. -/
def bytesNat (l : List Byte) : Nat := leNat l

/-- The link burst's 128 bits, held twice (R282). -/
def linkBits (next cells start stop voq : Nat) : Nat :=
  next % 2 ^ 26 * 2 ^ 102 + cells % 16 * 2 ^ 98 + start % 256 * 2 ^ 90 + stop % 256 * 2 ^ 82 + voq % 2 ^ 20 * 2 ^ 62

/-- The link burst of a page written: both copies. -/
def State.linkWrite (s : State) (n link : Nat) : State := (s.hbmWrite (s.sideOff n) link).hbmWrite (s.sideOff n + 16) link

/-- The cells of a VOQ's packets, oldest first: bytes of each, and whether a packet starts and ends in it. -/
def VoqSt.cellData (x : VoqSt) : List (List Byte × Bool × Bool) :=
  x.pkts.flatMap fun p =>
    let n := cellsOf p.bytes.length
    (List.range p.rem).map fun i =>
      let c := p.gone + p.lost + i
      ((p.bytes.drop (256 * c)).take 256, c == 0, decide (c + 1 = n))

/-- Zero bytes to a length. -/
def padTo (n : Nat) (l : List Byte) : List Byte := l ++ List.replicate (n - l.length) 0

/-- A page and its side record written (R219, R282, R301). -/
def State.pageWrite (s : State) (v n : Nat) (cells : List (List Byte × Bool × Bool)) : State :=
  let page := padTo 2048 (cells.flatMap fun c => padTo 256 c.1)
  let p := parityBytes (s.f Rg.BUF_CFG Fd.BUF_CFG_RS_PARITY)
  let s1 := s.hbmWrites (2048 * n) (bytesNat page) 128
  let st := maskOf ((cells.zipIdx.filter fun e => e.1.2.1).map (·.2))
  let en := maskOf ((cells.zipIdx.filter fun e => e.1.2.2).map (·.2))
  let s2 := s1.linkWrite n (linkBits 0x3FFFFFF cells.length st en v)
  if p = 0 then s2 else
    s2.hbmWrites (s2.sideOff n + 32) (leNat ((pageParity p page).map (BitVec.ofNat 8))) p

/-- The NEXT field of a page's link burst set, as the next page of its VOQ is written. -/
def State.linkNext (s : State) (n next : Nat) : State := s.linkWrite n (setBits (s.hbmWord (s.sideOff n)) 102 26 next)

/-- The side record's link burst read from either copy: whether one of them can be used (R221). -/
def State.linkRead (s : State) (n : Nat) : State × Bool :=
  let (s1, _, a) := s.hbmRead 12 (s.sideOff n)
  if a then (s1, true) else
  let (s2, _, b) := s1.hbmRead 12 (s.sideOff n + 16)
  (s2, b)

/-- `n` words read, each judged: the state and the positions of those that may not be used. -/
def State.badWords (s : State) (o : Nat) : Nat → State × List Nat
  | 0 => (s, [])
  | n + 1 =>
    let (s1, l) := State.badWords s o n
    let (s2, _, ok) := s1.hbmRead 12 (o + 16 * n)
    (s2, if ok then l else l ++ [n])

/-- A page read back through the outer code (R223, R301): 0 clean, 1 corrected, 2 uncorrectable. A lost word of the page is one
erasure in each interleave; a lost word of the parity area is an erasure of each of its 16 bytes. -/
def State.pageRead (s : State) (n : Nat) : State × Nat :=
  let p := parityBytes (s.f Rg.BUF_CFG Fd.BUF_CFG_RS_PARITY)
  let (s1, bad) := s.badWords (2048 * n) 128
  let (s2, badP) := if p = 0 then (s1, []) else s1.badWords (s1.sideOff n + 32) p
  let erased (i : Nat) : Nat := bad.length + (List.range p).countP fun j => badP.contains ((p * i + j) / 16)
  (s2, if bad.isEmpty then 0 else if (List.range 16).all fun i => decide (erased i ≤ p) then 1 else 2)

/-- A page is needed: a spilling VOQ has 8 staged cells, or its oldest has waited STAGE_TICKS (R219). -/
def State.wantsPage (s : State) (x : VoqSt) : Bool :=
  x.spill && (decide (8 ≤ x.nstaged) ||
    match x.staged with
    | (t, _) :: _ => decide (t + s.f Rg.BUF_CFG Fd.BUF_CFG_STAGE_TICKS ≤ s.tk.count)
    | [] => false)

/-- Staging groups without their first `n` cells. -/
def dropStaged : Nat → List (Nat × Nat) → List (Nat × Nat)
  | _, [] => []
  | n, (t, c) :: rest => if c ≤ n then dropStaged (n - c) rest else (t, c - n) :: rest

/-- All stacks are up. -/
def State.allUp (s : State) : Bool := (List.range s.part.stacks).all s.stackUp

/-- The oldest 8 or fewer staged cells of a VOQ written to page `n`, which the environment names among the free pages (R219). -/
def State.spillWrite (s : State) (v n : Nat) : State :=
  let x := s.voq v
  if !s.wantsPage x || !s.pageFree n || s.rd Rg.BUF_PAGES_FREE == 0 || !s.allUp then s else
  let k := min 8 x.nstaged
  let before := x.head + x.inHbm
  let s1 := s.pageWrite v n ((x.cellData.drop before).take k)
  let s2 := match x.pages.getLast? with
    | some (l, _) => s1.linkNext l n
    | none => s1
  let s3 := (s2.caldClasses ((x.classes.drop before).take k) (-1)).pagesFree (-1)
  let s4 := (s3.bump Rg.BUF_SPILL_PAGE_CNT).bumpIf (decide (k < 8)) Rg.BUF_PARTIAL_PAGE_CNT
  s4.putVoq v { x with pages := x.pages ++ [(n, k)], staged := dropStaged k x.staged }

/-- SPILL_PAGE_WRITE (R219). -/
def execSpillPageWrite (voq page : Nat) (s : State) : Out := .next (s.spillWrite voq page)

/-- The packets of a VOQ with a cell among cells `a` to `b − 1` marked poisoned (R223). -/
def poisonRange (a b : Nat) : Nat → List VPkt → List VPkt
  | _, [] => []
  | i, p :: rest =>
    let e := i + p.rem
    (if i < b ∧ a < e then { p with poison := true, stomp := p.stomp || p.begun } else p) :: poisonRange a b e rest

/-- The packets of a VOQ after cells `a` to `b − 1` are lost: those that lie wholly among them go, others lose the cells (R221). -/
def loseRange (a b : Nat) : Nat → List VPkt → List VPkt × List VPkt
  | _, [] => ([], [])
  | i, p :: rest =>
    let e := i + p.rem
    let r := loseRange a b e rest
    if a ≤ i ∧ e ≤ b ∧ !p.begun then (r.1, p :: r.2)
    else
      let n := min b e - max a i
      (if n = 0 then (p :: r.1, r.2)
       else ({ p with lost := p.lost + n, poison := true, stomp := p.stomp || p.begun } :: r.1, r.2))

/-- Both copies of a side record are lost: the rest of the VOQ's HBM part is discarded, and the pages behind the page are
unreachable (R221). -/
def State.pageLost (s : State) (v : Nat) : State :=
  let x := s.voq v
  let a := x.head
  let b := x.head + x.inHbm
  let gone := (x.pages.drop 1).map (·.1)
  let n := gone.length
  let (pkts, dead) := loseRange a b 0 x.pkts
  let s1 := x.pkts.foldl (fun (t : State × Nat) p =>
      let e := t.2 + p.rem
      (t.1.srcDown p.source (min b e - max a t.2), e)) (s, 0) |>.1
  let s2 := dead.foldl (fun t _ => t.poisonDrop) s1
  let s3 := { s2 with bf := { s2.bf with lostPages := s2.bf.lostPages ++ gone } }
  let s4 := ((s3.wr Rg.BUF_PAGES_TOTAL (s3.rd Rg.BUF_PAGES_TOTAL - n)).bump Rg.BUF_PAGE_LOST_CNT n).pagesFree 1
  (s4.setInt Pg.BUF Ib.BUF_PAGE_LOST).putVoq v { x with pkts := pkts, pages := [] }

/-- The oldest page of a VOQ read back into its head part (R219, R223). -/
def State.pageReturn (s : State) (v : Nat) : State :=
  let x := s.voq v
  match x.pages with
  | [] => s
  | (n, c) :: rest =>
    if !x.spill || decide (s.spillThr v ≤ 2 * x.head) || !s.allUp ||
        decide (s.caldCells < 8192 + s.rd Rg.CALD_LOSSY + s.rd Rg.CALD_LOSSLESS + c) then s else
    let (s1, link) := s.linkRead n
    if !link then s1.pageLost v else
    let (s2, r) := s1.pageRead n
    let s3 := s2.bumpIf (r == 1) Rg.BUF_RS_CORR_CNT
    let s4 := if r = 2 then (s3.bump Rg.BUF_POISON_PAGE_CNT).setInt Pg.BUF Ib.BUF_POISON else s3
    let pkts := if r = 2 then poisonRange x.head (x.head + c) 0 x.pkts else x.pkts
    (((s4.caldClasses ((x.classes.drop x.head).take c) 1).pagesFree 1).bump Rg.BUF_RETURN_PAGE_CNT).putVoq v
      { x with pkts := pkts, head := x.head + c, pages := rest }

/-- PAGE_RETURN (R219). -/
def execPageReturn (voq : Nat) (s : State) : Out := .next (s.pageReturn voq)

/-- Page writes that wait for a free page, counted once per tick (R220). -/
def State.nopageTick (s : State) : State :=
  if s.rd Rg.BUF_PAGES_FREE = 0 ∧ s.voqs.any (fun e => s.wantsPage e.2) then
    (s.bump Rg.BUF_NOPAGE_CNT).setInt Pg.BUF Ib.BUF_NOPAGE else s

/-! ## Stale destinations -/

/-- The side records of the first `n` pages of a VOQ read, as a drain frees them: whether each could be followed. -/
def State.drainLinks (s : State) : List Nat → State × Bool
  | [] => (s, true)
  | p :: rest =>
    let (s1, ok) := s.linkRead p
    if ok then State.drainLinks s1 rest else (s1, false)

/-- The drain engine discards the oldest packet of the lowest VOQ whose destination is invalid (R222). A packet of which
cells have left is not discarded. -/
def State.staleDrain (s : State) : State :=
  match s.voqs.find? fun e => !s.destValid e.1 && (match e.2.pkts with
      | p :: _ => !p.begun
      | [] => false) with
  | none => s
  | some (v, x) =>
    match x.pkts with
    | [] => s
    | p :: _ =>
      let (y, _, k) := x.takeCells p.rem
      let used := (x.pages.take (k + (if y.pages.length + k < x.pages.length ∨ y.inHbm < x.inHbm then 1 else 0))).map (·.1)
      let (s1, ok) := s.drainLinks (if x.inHbm = y.inHbm then [] else used)
      if ok then ((s1.voqDrop v).bump Rg.VOQ_STALE_DROP_CNT).setInt Pg.VOQ Ib.VOQ_STALE_DROP else s1.pageLost v

/-- STALE_DRAIN (R222). -/
def execStaleDrain (s : State) : Out := .next s.staleDrain

/-- A VOQ's state lost in both copies: the VOQ reads as at reset, and its cells and pages wait to be freed (R306). -/
def State.voqLose (s : State) (v : Nat) : State :=
  let x := s.voq v
  { s.setVoq v {} with bf := { s.bf with lost := if x.pkts.isEmpty then s.bf.lost else s.bf.lost ++ [(v, x)] } }

/-- Every cell and page that names a lost VOQ freed (R306). -/
def State.voqWipe (s : State) (v : Nat) : State :=
  (s.bf.lost.filter (·.1 == v)).foldl (fun t e =>
    let x := e.2
    let s1 := x.pkts.foldl (fun t p => t.srcDown p.source p.rem) { t with bf := { t.bf with lost := t.bf.lost.erase e } }
    (s1.caldClasses (((x.classes.take x.head) ++ (x.classes.drop (x.head + x.inHbm)))) (-1)).pagesFree x.pages.length) s

/-! ## The VOQ tables -/

/-- The VOQ state entry that READ shows. -/
def State.voqShow (s : State) (v : Nat) : Nat :=
  let x := s.voq v
  let pending := s.admQ.any fun i => i.head && 8 * i.pkt.md.dest + i.pkt.md.tc == v
  b2n x.spill * 2 ^ 31 + b2n (decide (0 < x.cells) && !s.destValid v) * 2 ^ 30 + b2n pending * 2 ^ 29 + x.cells % 2 ^ 28
    + 2 ^ 32 * (x.onDie % 2 ^ 19) + 2 ^ 64 * x.pages.length + 2 ^ 96 * (x.bytes % 2 ^ 36)
    + 2 ^ 160 * (x.reqs.length % 4 * 2 ^ 30 + min 63 x.grants.length * 2 ^ 24 + x.balance)

/-- A VOQ of a destination that turned invalid drops its held grants (R273). -/
def State.staleGrants (s : State) (sport : Nat) : State :=
  (List.range 8).foldl (fun t c =>
    let v := 8 * sport + c
    if (t.voq v).grants.isEmpty then t else t.setVoq v { t.voq v with grants := [] }) s

/-- A destination entry written (R222). -/
def State.destWrite (s : State) (i new : Nat) : State × TblAns :=
  let holds := (List.range 8).any fun c => decide (0 < (s.voq (8 * i + c)).cells)
  if bits new 20 11 ≠ bits (s.dest i) 20 11 ∧ holds then (s, ans stNotAllowed)
  else
    let s1 := s.setTbl Pg.VOQ 1 i new
    (if bit new 31 then s1 else s1.staleGrants i, ans stOk)

/-- A table command of page VOQ. -/
def State.voqCmd (s : State) (op addr data : Nat) : State × TblAns :=
  let t := addr / 2 ^ 30
  let i := addr % 2 ^ 20
  if t = 0 then
    if op = opRead then (s, { st := stOk, data := some (s.voqShow i) })
    else if op = opWrite ∨ op = opDelete then (s, ans stReadOnly)
    else (s, ans stUnsupported)
  else if t ≠ 1 ∨ 131072 ≤ i then (s, ans stBadAddr)
  else if op = opRead then (s, { st := stOk, data := some (s.dest i) })
  else if op = opWrite then s.destWrite i (data % 2 ^ 32 &&& 0xFFF0003F)
  else if op = opDelete then s.destWrite i (clrBit (s.dest i) 31)
  else (s, ans stUnsupported)

end Sys2Proof.Machine
end

