-- ==== Sys2Proof/Machine/Admission.lean ====
section
/-! DEFINITION. Admission (chapter 9, R209 to R218, R226 to R228, R371, R372): policers, the admission checks, WRED, Fumarole
copies, the punt path, and generated PFC frames. -/
namespace Sys2Proof.Machine

/-! ## Policers (R213, R214) -/

/-- The floating encoding of rates and depths (R214). -/
def fl17 (w : Nat) : Nat := bits w 5 12 * 2 ^ (w % 32)

/-- A bucket filled at `rate` kb/s for `dt` core clocks, up to `depth` bytes: level in 1/65,536 byte and remainder. -/
def polFill (level rem rate depth dt : Nat) : Nat × Nat :=
  let cap := depth * 65536
  let x := rate * 65536 * dt + rem
  if cap ≤ level + x / 16000000 then (cap, 0) else (level + x / 16000000, x % 16000000)

/-- A word of a policer's entry. -/
def State.polWord (s : State) (i w : Nat) : Nat := s.tf Pg.POL 0 i (32 * w) 32

/-- A policer's buckets brought up to a core clock. -/
def State.polAt (s : State) (i now : Nat) : PolLv :=
  let x := sget {} s.pols i
  let c := polFill x.tc x.rc (fl17 (s.polWord i 0)) (fl17 (s.polWord i 2)) (now - x.last)
  let p := polFill x.tp x.rp (fl17 (s.polWord i 1)) (fl17 (s.polWord i 3)) (now - x.last)
  ⟨c.1, c.2, p.1, p.2, now⟩

/-- A policer's buckets replaced. -/
def State.setPol (s : State) (i : Nat) (x : PolLv) : State := { s with pols := sset {} s.pols i x }

/-- A packet of `len` bytes with its pre-colour charged to a policer at a core clock: its colour (0 green, 1 yellow, 2 red), and
whether it is dropped (R213). -/
def State.police (s : State) (i len pre now : Nat) : State × Nat × Bool :=
  let x := s.polAt i now
  let w := s.polWord i 4
  let b := (max 1 ((len : Int) + signed 8 (bits w 8 8))).toNat * 65536
  let pre := min 2 pre
  let (c, y) : Nat × PolLv :=
    if (bit w 0 && pre == 2) || decide (x.tp < b) then (2, x)
    else if (bit w 0 && pre == 1) || decide (x.tc < b) then (1, { x with tp := x.tp - b })
    else (0, { x with tp := x.tp - b, tc := x.tc - b })
  let s1 := (s.setPol i y).bump64 (if c = 0 then Rg.POL_GREEN_CNT_LO else if c = 1 then Rg.POL_YELLOW_CNT_LO else Rg.POL_RED_CNT_LO)
  if c = 2 ∧ bit w 1 then ((s1.bump Rg.POL_RED_DROP_CNT).setInt Pg.POL Ib.POL_RED_DROP, 2, true) else (s1, c, false)

/-- A table command of page POL (R214), at a core clock. -/
def State.polCmd (s : State) (op addr data now : Nat) : State × TblAns :=
  let i := addr % 2 ^ 19
  if op = opDelete then ((s.setTbl Pg.POL 0 i 0).setPol i {}, ans stOk)
  else if op = opRead then
    let x := s.polAt i now
    (s, { st := stOk, data := some (s.tbl Pg.POL 0 i % 2 ^ 160 + 2 ^ 160 * (x.tc / 65536 % 2 ^ 32) + 2 ^ 192 * (x.tp / 65536 % 2 ^ 32)) })
  else if op ≠ opWrite then (s, ans stUnsupported)
  else
    let w (k : Nat) : Nat := bits data (32 * k) 17
    if 20 < w 2 % 32 ∨ 20 < w 3 % 32 ∨ fl17 (w 1) < fl17 (w 0) ∨ fl17 (w 3) < fl17 (w 2) then (s, ans stBadData) else
    let x := s.polAt i now
    let cap (lv rem k : Nat) : Nat × Nat := if fl17 (w k) * 65536 ≤ lv then (fl17 (w k) * 65536, 0) else (lv, rem)
    let c := cap x.tc x.rc 2
    let p := cap x.tp x.rp 3
    let e := w 0 + 2 ^ 32 * w 1 + 2 ^ 64 * w 2 + 2 ^ 96 * w 3 + 2 ^ 128 * (bits data 128 32 &&& 0xFF03)
    ((s.setTbl Pg.POL 0 i e).setPol i ⟨c.1, c.2, p.1, p.2, now⟩, ans stOk)

/-! ## Checks (R215, R216) -/

/-- A value rotated left by `n` within 16 bits. -/
def rotl16 (v n : Nat) : Nat := v * 2 ^ n % 2 ^ 16 + v / 2 ^ (16 - n) % 2 ^ n

/-- The WRED lanes seeded (R216). -/
def State.wredSeed (s : State) (seed : Nat) : State :=
  { s with bf := { s.bf with wred := (List.range 10).map (rotl16 seed) } }

/-- A step of a lane's LFSR, x¹⁶ + x¹⁴ + x¹³ + x¹¹ + 1 (R216). -/
def lfsrStep (v : Nat) : Nat :=
  let b := (v ^^^ v / 4 ^^^ v / 8 ^^^ v / 32) % 2
  v / 2 + b * 2 ^ 15

/-- The WRED decision for a colour at VOQ depth `q` on a lane: whether the packet is dropped (R216). -/
def State.wred (s : State) (v color q lane : Nat) : State × Bool :=
  let mn := s.prof v (3 + 3 * color)
  let mx := s.prof v (4 + 3 * color)
  if !bit (s.prof v 12) color || decide (q < mn) then (s, false)
  else if mx ≤ q then (s, true)
  else
    let x := lfsrStep (lget 0 s.bf.wred lane)
    ({ s with bf := { s.bf with wred := lset s.bf.wred lane x } },
      decide (x < s.prof v (5 + 3 * color) % 256 * 256 * (q - mn) / (mx - mn)))

/-- Whether a packet of `c` cells that joins a VOQ would be held on die: it joins the head part, or no page could take it, or
its profile keeps the VOQ on die (R215, R219). -/
def State.heldOnDie (s : State) (v c : Nat) : Bool :=
  let x := s.voq v
  (!x.spill && decide (x.onDie + c ≤ s.spillThr v)) || decide (s.prof v 2 ≤ s.spillThr v) || s.rd Rg.BUF_PAGES_FREE == 0

/-- A packet as admission judges it: cells, VOQ, colour, WRED lane, whether lossless, and its source entry (`none` for copies
and injected frames). -/
structure AdmReq where
  c : Nat
  v : Nat
  color : Nat
  lane : Nat
  lossless : Bool
  source : Option Nat
deriving DecidableEq, Repr

/-- Check 1 for a lossy packet. -/
def State.globalFull (s : State) (c : Nat) : Bool := decide (s.rd Rg.ADM_LOSSY_MAX < s.rd Rg.CALD_LOSSY + c)

/-- The first check of R215 that fails, 0 for none. -/
def State.admChecks (s : State) (r : AdmReq) : State × Nat :=
  let x := s.voq r.v
  let src (hdrm : Nat → Nat) : Bool := match r.source with
    | some k => decide (s.srcLimit k + hdrm k < s.srcUsed k + r.c)
    | none => false
  let onDie := s.heldOnDie r.v r.c && decide (s.prof r.v 2 < x.onDie + r.c)
  if r.lossless then
    (s, if s.caldCells - 8192 - s.rd Rg.ADM_RETURN_RSV < s.rd Rg.CALD_LOSSY + s.rd Rg.CALD_LOSSLESS + r.c then 1
        else if src s.srcHdrm then 2 else if onDie then 5 else 0)
  else if s.globalFull r.c then (s, 1)
  else if src (fun _ => 0) then (s, 2)
  else if s.prof r.v 0 < x.cells + r.c then (s, 3)
  else
    let (s1, drop) := s.wred r.v r.color x.cells r.lane
    (s1, if drop then 4 else if onDie then 5 else 0)

/-- A drop at a check counted. -/
def State.admDrop (s : State) (lossless : Bool) (check : Nat) : State :=
  if lossless then (s.bump Rg.ADM_LL_DROP_CNT).setInt Pg.ADM Ib.ADM_LL_DROP
  else s.bump (if check = 1 then Rg.ADM_DROP_GLOBAL_CNT else if check = 2 then Rg.ADM_DROP_SRC_CNT
    else if check = 3 then Rg.ADM_DROP_VOQ_CNT else if check = 4 then Rg.ADM_DROP_WRED_CNT else Rg.ADM_DROP_ONDIE_CNT)

/-- A packet joins its VOQ: the head part, or staging (R219); arrival cells have been given back. -/
def State.join (s : State) (r : AdmReq) (p : VPkt) : State :=
  let x := s.voq r.v
  let y := if !x.spill ∧ x.onDie + r.c ≤ s.spillThr r.v then { x with pkts := x.pkts ++ [p], head := x.head + r.c }
    else { x with pkts := x.pkts ++ [p], spill := true, staged := x.staged ++ [(s.tk.count, r.c)] }
  let s1 := (s.caldClasses (List.replicate r.c p.lossless) 1).bump64 Rg.ADM_ADMIT_CNT_LO
  let s2 := match p.source with
    | some k => s1.srcUp k r.c
    | none => s1
  let s3 := if s2.fab.reqOrder.contains r.v then s2 else { s2 with fab := { s2.fab with reqOrder := s2.fab.reqOrder ++ [r.v] } }
  s3.putVoq r.v y

/-! ## The punt path (R371, R372) -/

/-- The 256 bits of ingress metadata (R33). -/
def metaBits (m : Meta) : Nat :=
  m.dest % 2 ^ 17 * 2 ^ 239 + m.tc % 8 * 2 ^ 236 + m.color % 4 * 2 ^ 234 + m.version % 4 * 2 ^ 232 + m.policer % 2 ^ 19 * 2 ^ 213
    + b2n m.policeEn * 2 ^ 212 + m.len % 2 ^ 14 * 2 ^ 198 + m.lport % 64 * 2 ^ 192 + m.punt % 256 * 2 ^ 184 + m.flowCtr % 2 ^ 24 * 2 ^ 160
    + b2n m.flowCtrEn * 2 ^ 159 + m.mirror % 32 * 2 ^ 154 + b2n m.mirrorEn * 2 ^ 153 + b2n m.sample * 2 ^ 152 + b2n m.cutOk * 2 ^ 151
    + m.hint % 2 ^ 23 * 2 ^ 128 + m.ts % 2 ^ 32 * 2 ^ 96 + m.hash % 2 ^ 16 * 2 ^ 80 + m.scratch % 2 ^ 80

/-- A ring. -/
def State.ring (s : State) (r : Nat) : RingSt := sget {} s.rings r

/-- A ring replaced, with the QUEUED cells of its state entry (DMA registers). -/
def State.setRing (s : State) (r : Nat) (x : RingSt) : State :=
  { s with rings := sset {} s.rings r x }.setTf Pg.DMA 1 r 32 19 ((x.items.map DmaItem.cells).sum)

/-- Whether a ring is usable for punts: enabled, RX, and not STOPPED (R371). -/
def State.ringUsable (s : State) (r : Nat) : Bool :=
  let a := Rg.DMA_RING_CFG r
  s.fb a Fd.DMA_RING_CFG_EN && !s.fb a Fd.DMA_RING_CFG_DIR && !s.fb a Fd.DMA_RING_CFG_STOPPED

/-- A ring's PUNT_DROP advanced (R314, R372). -/
def State.ringPuntDrop (s : State) (r : Nat) : State :=
  let n := s.tf Pg.DMA 1 r 64 32 + 1
  let s1 := (s.setTf Pg.DMA 1 r 64 32 n).setInt Pg.DMA Ib.DMA_PUNT_DROP
  if n < 2 ^ 32 then s1 else s1.setOvfTbl Pg.DMA

/-- A punted packet or host copy of `c` cells offered to the punt path: whether it is accepted (R371, R372). -/
def State.puntPath (s : State) (code c : Nat) (copy : Bool) (bytes : List Byte) : State × Bool :=
  let e := s.tbl Pg.DMA 0 (code % 256)
  let pick := if s.ringUsable (e % 64) then some (e % 64)
    else if bit e 30 ∧ s.ringUsable (bits e 8 6) then some (bits e 8 6) else none
  if !bit e 31 then (s.bump Rg.DMA_PUNT_NOMAP_CNT, false)
  else match pick with
  | none => (s.bump Rg.DMA_PUNT_DOWN_CNT, false)
  | some r =>
    let x := s.ring r
    if (!copy && s.globalFull c) || decide (s.tf Pg.DMA 1 r 0 19 < s.tf Pg.DMA 1 r 32 19 + c) then (s.ringPuntDrop r, false)
    else ((s.setRing r { x with items := x.items ++ [⟨if copy then 1 else 0, code, bytes, false, c⟩] }).cald 0 c 0, true)

/-! ## Fumarole copies (R226 to R228) -/

/-- A copy for a session, unless the session is disabled or the engine is at a limit of this clock (R227). -/
def State.mirCopy (s : State) (k : Pkt) (sess now : Nat) : State × Option AdmItem :=
  if !s.fb (Rg.MIR_SESS_CFG sess) Fd.MIR_SESS_CFG_EN then (s, none) else
  let tr := s.f (Rg.MIR_SESS_TRUNC sess) Fd.MIR_SESS_TRUNC_TRUNC
  let full := k.bytes.length + 4
  let len := if tr = 0 then full else min tr full
  let b := s.bf
  let same := b.mirClk == now
  let n := if same then b.mirCopies else 0
  let backlog := b.mirBytes - min b.mirBytes (512 * (now - b.mirClk))
  if 2 ≤ n ∨ 512 < backlog + min 512 len then
    ((s.bump Rg.MIR_ENGINE_DROP_CNT).setInt Pg.MIR Ib.MIR_ENGINE_DROP, none)
  else
    let host := s.fb (Rg.MIR_SESS_CFG sess) Fd.MIR_SESS_CFG_HOST
    let md := { k.md with
      dest := s.f (Rg.MIR_SESS_CFG sess) Fd.MIR_SESS_CFG_DEST_SPORT, tc := s.f (Rg.MIR_SESS_CFG sess) Fd.MIR_SESS_CFG_TC,
      hint := s.f (Rg.MIR_SESS_HINT sess) Fd.MIR_SESS_HINT_HINT, policeEn := s.fb (Rg.MIR_SESS_POL sess) Fd.MIR_SESS_POL_POLICE_EN,
      policer := s.f (Rg.MIR_SESS_POL sess) Fd.MIR_SESS_POL_POLICER, mirrorEn := false, sample := false, flowCtrEn := false, cutOk := false,
      len := len, punt := if host then s.f (Rg.MIR_SESS_TRUNC sess) Fd.MIR_SESS_TRUNC_PUNT_CODE else k.md.punt }
    let s1 : State := { s with bf := { b with mirClk := now, mirCopies := n + 1, mirBytes := backlog + len } }
    ((s1.bump (Rg.MIR_COPY_CNT sess)).cald (cellsOf len) 0 0,
      some { pkt := { k with bytes := k.bytes.take (len - 4), md := md, bad := false }, lane := 9, copy := true, host := host, head := true })

/-- The 1-in-N sampler of a packet's port: the session to which it is copied (R228). -/
def State.sampler (s : State) (k : Pkt) : State × Option Nat :=
  let p := k.md.lport
  let n := s.f (Rg.MIR_SAMPLE_CFG p) Fd.MIR_SAMPLE_CFG_N
  if !k.md.sample || n == 0 then (s, none) else
  let c := sget 0 s.bf.samples p + 1
  if n ≤ c then ({ s with bf := { s.bf with samples := sset 0 s.bf.samples p 0 } }, some (s.f (Rg.MIR_SAMPLE_CFG p) Fd.MIR_SAMPLE_CFG_SESSION))
  else ({ s with bf := { s.bf with samples := sset 0 s.bf.samples p c } }, none)

/-- The copies of a packet, decided in the next clock: they go to the front of admission's queue (R226). -/
def State.copies (s : State) (k : Pkt) (now : Nat) : State :=
  if k.bad then s else
  let (s1, a) := if k.md.mirrorEn then s.mirCopy k k.md.mirror now else (s, none)
  let (s2, sess) := s1.sampler k
  let (s3, b) := match sess with
    | some x => s2.mirCopy k x now
    | none => (s2, none)
  { s3 with admQ := a.toList ++ b.toList ++ s3.admQ }

/-! ## Decisions (R210 to R212) -/

/-- A frame with its FCS computed. -/
def sealFrame (b : List Byte) : List Byte := b ++ leBytes 4 (fcs b)

/-- A packet policed and admitted, or dropped: whether it is kept. Its arrival cells have been given back. `cut`: at its head (R211);
`injected`: a frame of INJECT_VOQ (R370). -/
def State.admitPkt (s : State) (it : AdmItem) (injected cut : Bool) (now : Nat) : State × Bool :=
  let k := it.pkt
  let len := k.bytes.length + 4
  let c := cellsOf len
  let (s1, color, red) := if k.md.policeEn then s.police k.md.policer len k.md.color now else (s, min 2 k.md.color, false)
  if red then (s1, false) else
  let frame := sealFrame k.bytes
  let md := { k.md with len := len }
  let punt := fun (t : State) => t.puntPath md.punt c it.copy (leBytes 32 (metaBits md) ++ frame)
  if !it.copy && md.punt != 0 then punt s1 else
  let plain := it.copy || injected
  let lossless := !plain && bit (s1.f Rg.ADM_CFG Fd.ADM_CFG_LOSSLESS_TC) md.tc
  let src := if plain then none else some (8 * md.lport + md.tc)
  let r : AdmReq := ⟨c, 8 * md.dest + md.tc, color, it.lane, lossless, src⟩
  let (s2, chk) := s1.admChecks r
  if chk ≠ 0 then (s2.admDrop lossless chk, false)
  else if it.host then
    let (s3, ok) := punt s2
    (if ok then s3.bump64 Rg.ADM_ADMIT_CNT_LO else s3, ok)
  else
    let s3 := s2.join r { bytes := frame, md := md, lossless := lossless, source := src, tail := !cut }
    (if md.flowCtrEn then s3.flowCount md.flowCtr len else s3, true)

/-- Whether a VOQ has credit present for a charge (R211, R268). -/
def VoqSt.credit (x : VoqSt) (u : Nat) : Bool := x.grants.any fun g => decide (u ≤ g.units)

/-- The credit charge of a packet (R253). -/
def chargeOf (len scratch : Nat) : Nat := ceilDiv (len + 8 + (if scratch = 0 then 0 else 16)) 240

/-- Whether a packet cuts through as its first segment arrives (R211). -/
def State.cutsThrough (s : State) (k : Pkt) : Bool :=
  let v := 8 * k.md.dest + k.md.tc
  s.fb Rg.ADM_CFG Fd.ADM_CFG_CT_EN && k.md.cutOk && k.md.len != 0 && k.md.punt == 0 && (s.voq v).pkts.isEmpty &&
    !(s.admQ.any fun i => i.head && 8 * i.pkt.md.dest + i.pkt.md.tc == v) &&
    (s.voq v).credit (chargeOf (k.bytes.length + 4) k.md.scratch)

/-- The first segment of the oldest packet that has none here arrives: it takes arrival cells, and is decided at once where it cuts
through (R210, R211). -/
def State.headArrival (s : State) (clk : Nat) : State :=
  match s.admQ.find? (!·.head) with
  | none => s
  | some it =>
    let c : Int := cellsOf (it.pkt.bytes.length + 4)
    if !s.cutsThrough it.pkt then
      { s.cald c 0 0 with admQ := s.admQ.map fun i => if i = it then { i with head := true } else i }
    else
      let s1 := (s.cald c 0 0).cald (-c) 0 0
      let (s2, kept) := s1.admitPkt it false true (s.at clk)
      let s3 := if kept then
          { s2.bump Rg.ADM_CT_CNT with admQ := s2.admQ.map fun i => if i = it then { i with head := true, cut := true } else i }
        else { s2 with admQ := s2.admQ.erase it }
      s3.copies it.pkt (s.at clk)

/-- PACKET_HEAD_ARRIVAL (R211). -/
def execPacketHeadArrival (clk : Nat) (s : State) : Out := .next (s.headArrival clk)

/-- A bad tail discarded before transmission counted (R212). -/
def State.badTail (s : State) : State := (s.bump Rg.ADM_BAD_TAIL_CNT).setInt Pg.ADM Ib.ADM_BAD_TAIL

/-- The tail of a packet that was admitted at its head (R211, R212). -/
def State.cutTail (s : State) (k : Pkt) : State :=
  let v := 8 * k.md.dest + k.md.tc
  let x := s.voq v
  match x.pkts with
  | p :: _ =>
    if p.tail then s
    else if k.bad ∧ !p.begun then (s.voqDrop v).badTail
    else s.setVoq v { x with pkts := x.pkts.map fun q => if q.tail then q else { q with tail := true, stomp := q.stomp || k.bad } }
  | [] => s

/-- The oldest packet that awaits its decision is decided, at its tail (R210 to R212). -/
def State.admission (s : State) (clk : Nat) : State :=
  match s.admQ with
  | [] => s
  | it :: rest =>
    if !it.head then s else
    let s0 : State := { s with admQ := rest }
    if it.cut then s0.cutTail it.pkt else
    let s1 := s0.cald (-(cellsOf (it.pkt.bytes.length + 4) : Nat)) 0 0
    if it.pkt.bad then s1.badTail else
    let (s2, _) := s1.admitPkt it false false (s.at clk)
    if it.copy then s2 else s2.copies it.pkt (s.at clk)

/-- ADMISSION_DECISION (R210). -/
def execAdmissionDecision (clk : Nat) (s : State) : Out := .next (s.admission clk)

/-! ## Tables of ADM -/

/-- A profile as WRITE stores it. -/
def profBits (data : Nat) : Nat :=
  (List.range 13).foldl (fun a k =>
    a + 2 ^ (32 * k) * (bits data (32 * k) 32 &&& (if k = 12 then 7 else if k = 5 ∨ k = 8 ∨ k = 11 then 0xFF else 0xFFFFFF))) 0

/-- A table command of page ADM (R214 to R217). -/
def State.admCmd (s : State) (op addr data : Nat) : State × TblAns :=
  let t := bits addr 24 2
  let i := addr % 512
  if t = 3 then (s, ans stBadAddr)
  else if op = opRead then (s, { st := stOk, data := some (s.tbl Pg.ADM t i) })
  else if op ≠ opWrite ∧ op ≠ opDelete then (s, ans stUnsupported)
  else if t = 2 then (s, ans stReadOnly)
  else if op = opDelete then (s.clrTbl Pg.ADM t i 1, ans stOk)
  else if t = 0 then
    let e := profBits data
    let w (k : Nat) : Nat := bits e (32 * k) 24
    if (List.range 3).any fun k => bit (w 12) k && decide (w (4 + 3 * k) ≤ w (3 + 3 * k)) then (s, ans stBadData)
    else (s.setTbl Pg.ADM 0 i e, ans stOk)
  else
    let limit := bits data 0 24
    let xon := bits data 32 24
    (s.setTbl Pg.ADM 1 i (limit + 2 ^ 32 * (if limit ≤ xon then limit - 1 else xon) + 2 ^ 64 * bits data 64 24), ans stOk)

/-- A write of ADM_CFG: WRED_SEED seeds the lanes (R216). -/
def State.admCfgWrite (s : State) (v : Nat) : State :=
  let s1 := s.fieldWrite Rg.ADM_CFG v
  if bits v 16 16 = 0 then s1 else s1.wredSeed (bits v 16 16)

/-! ## Generated PFC frames (R93, R217, R218) -/

/-- The priorities for which pause of a port is requested: by source entries at XOFF and by slice pools. -/
def State.pauseWant (s : State) (p : Nat) : Nat :=
  let adm := (List.range 8).filter fun c => s.srcXoff (8 * p + c)
  let steer := (s.slices.filter fun e => decide (e.1 < 16)).flatMap fun e => (e.2.pauses.filter fun w => w.1 == p).map (·.2)
  maskOf ((adm ++ steer).map fun c => bits (s.rd Rg.ADM_PFC_PRI) (3 * c) 3)

/-- A PFC frame sent: every paused priority with QUANTA, and time 0 for those released since the last frame (R218). -/
def State.pfcSend (s : State) (p : Nat) : State :=
  let want := s.pauseWant p
  let x := s.lport p
  ((s.setLport p { x with pfcSent := want }).lpBump p 10).emit
    (.pfc p (want ||| x.pfcSent) ((onesOf 8 want).foldl (fun a i => setBits a (16 * i) 16 (s.f Rg.ADM_PFC_TIME Fd.ADM_PFC_TIME_QUANTA)) 0))

/-- A changed pause state reaches a port's MAC, which sends it while the port is UP (R218). -/
def State.pfcTx (s : State) (p : Nat) : State :=
  if s.lportOn p && s.lkIsUp p && s.pauseWant p != (s.lport p).pfcSent then s.pfcSend p else s

/-- PFC_TX (R218). -/
def execPfcTx (port : Nat) (s : State) : Out := .next (s.pfcTx port)

/-- REFRESH ns have passed while a priority stays paused (R218). -/
def State.pfcRefresh (s : State) (p : Nat) : State :=
  if s.lportOn p && s.lkIsUp p && s.pauseWant p != 0 then s.pfcSend p else s

/-- PFC_REFRESH (R218). -/
def execPfcRefresh (port : Nat) (s : State) : Out := .next (s.pfcRefresh port)

/-- A port enters UP: the pause state kept while it was not UP is sent (R66, R218). -/
def State.holdExpiry (s : State) (p : Nat) : State :=
  let t := s.lkRise p
  if !s.lkIsUp p && t.lportOn p && t.lkIsUp p && (t.pauseWant p ||| (t.lport p).pfcSent) != 0 then t.pfcSend p else t

/-- LINK_UP_HOLD_EXPIRY (R66). -/
def execLinkUpHoldExpiry (port : Nat) (s : State) : Out := .next (s.holdExpiry port)

end Sys2Proof.Machine
end

