-- ==== Sys2Proof/Machine/Shaper.lean ====
section
/-! DEFINITION. Shapers and timed gates (R236 to R238, R242 to R245): levels, the wheel, writes that wait for the boundary, gate
lists and the fit test. A shaper's key is its TBL_ADDR [21:0]: level, kind, node index. -/
namespace Sys2Proof.Machine

/-- The key of a shaper: level 0 queue, 1 subscriber, 2 service, 3 port; CIR or PIR. -/
def shpKey (level : Nat) (cir : Bool) (i : Nat) : Nat := level * 2 ^ 20 + b2n cir * 2 ^ 19 + i

/-- RATE, BURST, EN and ADJ of a shaper (R236). -/
def State.shpRate (s : State) (k : Nat) : Nat := fl17 (s.tf Pg.SHP 0 k 0 17)
def State.shpBurst (s : State) (k : Nat) : Nat := fl17 (s.tf Pg.SHP 0 k 32 17)
def State.shpEn (s : State) (k : Nat) : Bool := s.tf Pg.SHP 0 k 95 1 == 1
def State.shpAdjIx (s : State) (k : Nat) : Nat := s.tf Pg.SHP 0 k 64 4

/-- SHP_ADJ[i], signed bytes. -/
def State.shpAdj (s : State) (i : Nat) : Int := signed 8 (bits (s.rd (Rg.SHP_ADJ (i / 4))) (8 * (i % 4)) 8)

/-- The charged length of a packet with an adjustment index: at least 1 byte (R235). -/
def State.charged (s : State) (len adj : Nat) : Nat := (max 1 ((len : Int) + s.shpAdj adj)).toNat

/-- The refill of one tick in 1/65,536 byte: RATE × 0.000128 bytes (R236). -/
def perTick (rate : Nat) : Nat := rate * 8388608 / 1000000

/-- A shaper's level after the refills of every boundary up to the present tick (R236). -/
def State.shpLevel (s : State) (k : Nat) : Int :=
  let x := sget {} s.eg.lv k
  min (s.shpBurst k * 65536 : Nat) (x.level + ((s.tk.count - x.tick) * perTick (s.shpRate k) : Nat))

/-- The wheel replaced, with SHP_WHEEL_STAT. -/
def State.setWheel (s : State) (w : Sparse Nat) : State := { s with eg := { s.eg with wheel := w } }.wr Rg.SHP_WHEEL_STAT w.length

/-- A level set as of the present tick; a level below 0 puts the shaper on the wheel for the tick that brings it back, at
most 65,536 ticks ahead (R237). Wheel entries hold the due tick + 1. -/
def State.setLevel (s : State) (k : Nat) (l : Int) : State :=
  let s1 : State := { s with eg := { s.eg with lv := sset {} s.eg.lv k ⟨l, s.tk.count⟩ } }
  if l < 0 then
    let n := perTick (s.shpRate k)
    let due := if n = 0 then 65536 else min 65536 (ceilDiv l.natAbs n)
    s1.setWheel (sset 0 s1.eg.wheel k (s.tk.count + due + 1))
  else s1.setWheel (sdel s1.eg.wheel k)

/-- Whether an enabled shaper holds its node back: it stands on the wheel (R234, R237). -/
def State.shpBlocks (s : State) (k : Nat) : Bool := s.shpEn k && shas s.eg.wheel k

/-- Whether a node's CIR shaper makes it committed (R234). -/
def State.shpCommits (s : State) (k : Nat) : Bool := s.shpEn k && !shas s.eg.wheel k

/-- A decision for a packet of `len` bytes passes through an enabled shaper's node (R236). -/
def State.shpCharge (s : State) (len k : Nat) : State :=
  if s.shpEn k then s.setLevel k (s.shpLevel k - (s.charged len (s.shpAdjIx k) * 65536 : Nat)) else s

/-- The wheel's work of a tick: up to 131,072 due shapers are released, late ones first; the others are late (R237). -/
def State.shaperRelease (s : State) : State :=
  let due := sortBy (fun a b => decide (a.2 ≤ b.2)) (s.eg.wheel.filter fun e => decide (e.2 ≤ s.tk.count + 1))
  let late := (due.drop 131072).length
  let s1 := (due.take 131072).foldl (fun t e => t.setLevel e.1 (t.shpLevel e.1)) s
  if late = 0 then s1 else (s1.bump Rg.SHP_WHEEL_LATE_CNT late).setInt Pg.SHP Ib.SHP_WHEEL_LATE

/-- SHAPER_RELEASE (R237). -/
def execShaperRelease (s : State) : Out := .next s.shaperRelease

/-- Written shapers take their new settings at a tick boundary: the level accrues at the old RATE up to it, is clamped to the new
BURST, and a shaper on the wheel is placed again (R238). Bit 96 of a waiting write marks a DELETE. -/
def State.shpApply (s : State) : State :=
  s.eg.shpPend.foldl (fun t (e : Nat × Nat) =>
    let l := t.shpLevel e.1
    let t1 := t.setTbl Pg.SHP 0 e.1 ((e.2 - 1) % 2 ^ 96)
    t1.setLevel e.1 (if bit (e.2 - 1) 96 then 0 else min l (t1.shpBurst e.1 * 65536 : Nat)))
    { s with eg := { s.eg with shpPend := [] } }

/-- A table command of page SHP. -/
def State.shpCmd (s : State) (op addr data : Nat) : State × TblAns :=
  let k := addr % 2 ^ 22
  let level := k / 2 ^ 20
  let i := k % 2 ^ 18
  let n := lget 0 [262144, 32768, 4096, 64] level
  if op ≠ opRead ∧ op ≠ opWrite ∧ op ≠ opDelete then (s, ans stUnsupported)
  else if (bit k 19 ∧ (level = 0 ∨ level = 3)) ∨ n ≤ i ∨ bit k 18 then (s, ans stBadAddr)
  else if op = opRead then
    (s, { st := stOk, data := some (s.tbl Pg.SHP 0 k + 2 ^ 96 * unsigned 32 (s.shpLevel k / 65536)) })
  else if op = opDelete then ({ s with eg := { s.eg with shpPend := sset 0 s.eg.shpPend k (2 ^ 96 + 1) } }, ans stOk)
  else if 20 < bits data 32 5 then (s, ans stBadData)
  else
    let v := bits data 0 17 + 2 ^ 32 * bits data 32 17 + 2 ^ 64 * (bits data 64 32 &&& 0x8000000F)
    ({ s with eg := { s.eg with shpPend := sset 0 s.eg.shpPend k (v + 1) } }, ans stOk)

/-! ## Gates: times are in 2⁻³² ns since the epoch of the time of day -/

/-- The time of day at a core clock as one number of 2⁻³² ns. -/
def State.todFrac (s : State) (t : Nat) : Nat := (s.tod t).1 * (1000000000 * 2 ^ 32) + (s.tod t).2

/-- A port's gating. -/
def State.gate (s : State) (p : Nat) : GateSt := sget {} s.eg.gates p

/-- A port's gating replaced. -/
def State.setGate (s : State) (p : Nat) (x : GateSt) : State := { s with eg := { s.eg with gates := sset {} s.eg.gates p x } }

/-- Entries of one cycle: the last entry is held to the cycle's end, and the list is cut there (R242). -/
def cutCycle : Nat → List (Nat × Nat) → List (Nat × Nat)
  | _, [] => []
  | r, (iv, g) :: rest => if rest.isEmpty ∨ r ≤ iv then [(r, g)] else (iv, g) :: cutCycle (r - iv) rest

/-- The entries of a gate list's cycle: interval in ns and gates. -/
def State.gateCycle (s : State) (p : Nat) (l : GateList) : List (Nat × Nat) :=
  cutCycle l.cycle ((List.range l.len).map fun i =>
    let e := s.tbl Pg.GATE 0 (l.page * 2 ^ 14 + p * 2 ^ 8 + i)
    (e % 2 ^ 32, bits e 32 8))

/-- Time for which gate `c` stays open from position `pos` of a list of entries, in 2⁻³² ns; 0 where it is closed there. -/
def openFor (c : Nat) : List (Nat × Nat) → Nat → Nat
  | [], _ => 0
  | (iv, g) :: rest, pos =>
    let n := iv * 2 ^ 32
    if n ≤ pos then openFor c rest (pos - n)
    else if bit g c then n - pos + openFor c rest 0 else 0

/-- The entry of a list at position `pos` of its cycle. -/
def entryAt : List (Nat × Nat) → Nat → Nat
  | [], _ => 0
  | (iv, _) :: rest, pos => if pos < iv * 2 ^ 32 ∨ rest.isEmpty then 0 else 1 + entryAt rest (pos - iv * 2 ^ 32)

/-- The longest span that gate `c` stays open, across entries and cycles, in ns; `none`: always open (R244). -/
def longestSpan (c : Nat) (es : List (Nat × Nat)) : Option Nat :=
  if es.all fun e => bit e.2 c then none else
  some ((es ++ es).foldl (fun (a : Nat × Nat) e => if bit e.2 c then (a.1 + e.1, max a.2 (a.1 + e.1)) else (0, a.2)) (0, 0)).2

/-- The wire time of a frame of `len` bytes under a list, in 2⁻³² ns; `none` where the port has no rate (R242). -/
def State.wireTime (s : State) (p len : Nat) (l : GateList) : Option Nat :=
  let r := s.portRate p
  if r = 0 then none else some (ceilDiv ((len + l.overhead) * 8 * 2 ^ 32) r)

/-- The fit test of a packet of class `c` on a gated port at a time: its planned start, its end and the open time left (R242). -/
def State.fitTest (s : State) (p c len now : Nat) (l : GateList) : Option (Nat × Nat × Nat) :=
  match s.wireTime p len l with
  | none => none
  | some w =>
    let st := max (now + s.f Rg.GATE_CFG Fd.GATE_CFG_LEAD * 2 ^ 32) (s.gate p).f
    let cyc : Nat := l.cycle * 4294967296
    let pos := (Int.toNat (((st : Int) - ((l.base * 4294967296 : Nat) : Int)) % (cyc : Int)))
    let es := s.gateCycle p l
    if es.all fun e => bit e.2 c then some (st, st + w, 65535 * 2 ^ 32)
    else
      let sp := openFor c (es ++ es) pos
      if w ≤ sp ∧ 0 < sp then some (st, st + w, sp - w) else none

/-- The entry in force of a port's list at a time, 0 where none runs (GATE_PORT_STAT). -/
def State.gateEntry (s : State) (p now : Nat) : Nat :=
  match (s.gate p).cur with
  | none => 0
  | some l => entryAt (s.gateCycle p l) (Int.toNat (((now : Int) - ((l.base * 4294967296 : Nat) : Int)) % ((l.cycle * 4294967296 : Nat) : Int)))

/-- The list that a port's registers describe, with the seconds' upper bits of the time of day (GATE_BASE_SEC). -/
def State.gateRegs (s : State) (p now : Nat) : GateList :=
  let secHi := now / (1000000000 * 2 ^ 32) / 2 ^ 32
  { page := s.f (Rg.GATE_PORT_CFG p) Fd.GATE_PORT_CFG_LIST, len := s.f (Rg.GATE_PORT_CFG p) Fd.GATE_PORT_CFG_LEN
    cycle := s.rd (Rg.GATE_CYCLE p), overhead := s.f (Rg.GATE_PORT_CFG p) Fd.GATE_PORT_CFG_OVERHEAD
    base := (secHi * 2 ^ 32 + s.rd (Rg.GATE_BASE_SEC p)) * 1000000000 + s.f (Rg.GATE_BASE_NS p) Fd.GATE_BASE_NS_BASE_NS }

/-- The first cycle start of a list at or after a time, in ns (R245). -/
def cycleStart (l : GateList) (now : Nat) : Nat :=
  let n := ceilDiv now (2 ^ 32)
  ((l.base : Int) + ceilDivInt ((n : Int) - (l.base : Int)) l.cycle * (l.cycle : Int)).toNat
where
  /-- ⌈a ÷ b⌉ for an integer a. -/
  ceilDivInt (a : Int) (b : Nat) : Int := -((-a) / (b : Int))

/-- The gates of every port at a commit at core clock `t`, from the state before it: a port whose gate registers changed
awaits its new list's first cycle start (R245). -/
def State.gateCommit (s old : State) (t : Nat) : State :=
  let now := s.todFrac t
  (List.range 64).foldl (fun u p =>
    let rs := [Rg.GATE_PORT_CFG p, Rg.GATE_CYCLE p, Rg.GATE_BASE_NS p, Rg.GATE_BASE_SEC p]
    if rs.all fun a => u.rd a == old.rd a then u
    else
      let x := u.gate p
      if !u.fb (Rg.GATE_PORT_CFG p) Fd.GATE_PORT_CFG_EN then (u.setGate p { x with cur := none, next := none }).wr (Rg.GATE_PORT_STAT p) 0
      else
        let l := u.gateRegs p now
        (u.setGate p { x with next := some (l, cycleStart l now) }).setF (Rg.GATE_PORT_STAT p) Fd.GATE_PORT_STAT_PENDING 1) s

/-- A committed list takes over at its cycle start (R245). -/
def State.gateSwitch (s : State) (p clk : Nat) : State :=
  let x := s.gate p
  match x.next with
  | none => s
  | some (l, st) =>
    if s.todFrac (s.at clk) < st * 2 ^ 32 then s else
    (((s.setGate p { x with cur := some l, next := none }).setF (Rg.GATE_PORT_STAT p) Fd.GATE_PORT_STAT_PENDING 0).setF
      (Rg.GATE_PORT_STAT p) Fd.GATE_PORT_STAT_LIST_INUSE l.page).setInt Pg.GATE Ib.GATE_SWITCH

/-- GATE_LIST_SWITCH (R245). -/
def execGateListSwitch (port clk : Nat) (s : State) : Out := .next (s.gateSwitch port clk)

/-- A table command of page GATE. -/
def State.gateCmd (s : State) (op addr data : Nat) : State × TblAns :=
  let i := addr % 2 ^ 15
  let p := bits i 8 6
  let page := i / 2 ^ 14
  let x := s.gate p
  let used (l : GateList) : Bool := l.page == page
  if op = opRead then (s, { st := stOk, data := some (s.tbl Pg.GATE 0 i) })
  else if op ≠ opWrite then (s, ans stUnsupported)
  else if x.cur.any used || x.next.any (fun n => used n.1) then (s, ans stNotAllowed)
  else if data % 2 ^ 32 = 0 ∧ i % 256 < s.f (Rg.GATE_PORT_CFG p) Fd.GATE_PORT_CFG_LEN then
    (s, ans stBadData)
  else (s.setTbl Pg.GATE 0 i (data % 2 ^ 32 + 2 ^ 32 * bits data 32 8), ans stOk)

end Sys2Proof.Machine
end

