-- ==== Sys2Proof/Machine/Egress.lean ====
section
/-! DEFINITION. The egress pool and scheduler (chapter 10, R229 to R235, R239 to R241, R243, R244, R246, R247) and the transmit side
of the MACs (R69, R73, R82, R83, R225). -/
namespace Sys2Proof.Machine

/-! ## The hierarchy (R233 to R235) -/

/-- Fields of subscriber, service and queue entries (EQS tables 1 to 3), by the entry's first word. -/
def ndValid (e : Nat) : Bool := bit e 31
def ndPrio (e : Nat) : Nat := bits e 28 3
def ndWeight (e : Nat) : Nat := bits e 20 8
def ndAdj (e : Nat) : Nat := bits e 16 4

/-- Subscriber and service entries, and the profile entry of a queue. -/
def State.subEnt (s : State) (i : Nat) : Nat := s.tbl Pg.EQS 1 i
def State.svcEnt (s : State) (i : Nat) : Nat := s.tbl Pg.EQS 2 i
def State.eqEnt (s : State) (eq : Nat) : Nat := s.tbl Pg.EQS 3 (8 * bits (s.subEnt (eq / 8)) 32 8 + eq % 8)

/-- Parents: the service node of a subscriber and the port of a service node; the line port of a queue. -/
def State.svcOf (s : State) (sub : Nat) : Nat := s.subEnt sub % 4096
def State.portOfSvc (s : State) (svc : Nat) : Nat := s.svcEnt svc % 64
def State.portOf (s : State) (eq : Nat) : Nat := s.portOfSvc (s.svcOf (eq / 8))

/-- The packet that stands for none. -/
def noPkt : EPkt := { eq := 0, len := 0 }

/-- A packet of the pool. -/
def State.epkt (s : State) (id : Nat) : Option EPkt := (s.eg.pk.find? (·.1 == id)).map (·.2)

/-- Pool cells of a packet that have not crossed to the F-die (R229, R240). -/
def EPkt.cells (p : EPkt) : Nat :=
  cellsOf p.len - (match p.handed with
    | none => 0
    | some n => if p.len ≤ n then cellsOf p.len else n / 256)

/-- Pool packets replaced, with EQS_POOL_STAT and EQS_POOL_PEAK. -/
def State.setPool (s : State) (m : Sparse EPkt) : State :=
  let n := (m.map (·.2.cells)).sum
  ({ s with eg := { s.eg with pk := m } }.wr Rg.EQS_POOL_STAT n).peak Rg.EQS_POOL_PEAK (max n (s.rd Rg.EQS_POOL_STAT))

/-- A pool packet replaced. -/
def State.putEpkt (s : State) (id : Nat) (p : EPkt) : State := s.setPool (sset noPkt s.eg.pk id p)

/-- A queue's packets, head first. -/
def State.queue (s : State) (eq : Nat) : List Nat := sget [] s.eg.queues eq

/-- A queue replaced; the deficit of a queue left empty is 0 (R235). -/
def State.setQueue (s : State) (eq : Nat) (l : List Nat) : State :=
  { s with eg := { s.eg with queues := sset [] s.eg.queues eq l, deficit := if l.isEmpty then sdel s.eg.deficit eq else s.eg.deficit } }

/-- A packet removed from the pool and from wherever it waits. -/
def State.dropEpkt (s : State) (id : Nat) : State :=
  match s.epkt id with
  | none => s
  | some p =>
    let s1 := s.setPool (sdel s.eg.pk id)
    let s2 := { s1 with eg := { s1.eg with fresh := s1.eg.fresh.filter (· != id) } }
    s2.setQueue p.eq ((s2.queue p.eq).filter (· != id))

/-- Cells that a queue holds in the pool (R231). -/
def State.eqCells (s : State) (eq : Nat) : Nat := ((s.eg.pk.filter fun e => e.2.eq == eq).map (·.2.cells)).sum

/-- Every packet between the T-die's handoff and its MAC, with whether it has left its egress slice (R241). -/
def State.egPkts (s : State) : List (Pkt × Bool) :=
  let sl := (s.slices.filter fun e => decide (16 ≤ e.1)).flatMap fun e => e.2.pool.filterMap id ++ e.2.inside ++ e.2.first
  let held := match s.moveEg with
    | some m => m.held
    | none => []
  (sl ++ held).map (·, false) ++ s.macTx.map (·, true)

/-- Bytes handed off to a port and not yet transmitted (R233). -/
def State.txbUsed (s : State) (p : Nat) : Nat := ((s.egPkts.filter fun k => k.1.em.lport == p).map (·.1.em.txLen)).sum

/-- The head packet of a queue. -/
def State.headOf (s : State) (eq : Nat) : Option (Nat × EPkt) :=
  match s.queue eq with
  | [] => none
  | id :: _ => (s.epkt id).map (id, ·)

/-- Whether a queue could be chosen but for its port's gate (R234). -/
def State.eqOpen (s : State) (eq : Nat) : Bool :=
  let p := s.portOf eq
  let sl := s.bucketEnt 1 (eq / 16) % 16
  (s.headOf eq).isSome && !s.shpBlocks (shpKey 0 false eq) && !s.tcPaused p (eq % 8) && decide (poolCount (s.slice 1 sl).pool < 512) &&
    ndValid (s.subEnt (eq / 8)) && !s.shpBlocks (shpKey 1 false (eq / 8)) &&
    ndValid (s.svcEnt (s.svcOf (eq / 8))) && !s.shpBlocks (shpKey 2 false (s.svcOf (eq / 8)))

/-- Whether a queue's head packet passes its port's gate at a time; without a list every gate is open (R242). -/
def State.eqFits (s : State) (eq now : Nat) : Bool :=
  match s.headOf eq, (s.gate (s.portOf eq)).cur with
  | some (_, p), some l => (s.fitTest (s.portOf eq) (eq % 8) p.len now l).isSome
  | _, _ => true

/-- The eligible queues at a time (R234). -/
def State.eligible (s : State) (now : Nat) : List Nat := (skeys s.eg.queues).filter fun eq => s.eqOpen eq && s.eqFits eq now

/-- A child that a node may choose: its number, deficit key, PRIO, WEIGHT, whether committed, and the charged length of the packet
that a decision through it would reach. -/
structure Cand where
  id : Nat
  key : Nat
  prio : Nat
  weight : Nat
  com : Bool
  len : Nat
deriving DecidableEq, Repr

/-- The candidate after child `c` in round-robin order. -/
def nextCand (cs : List Cand) (c : Nat) : Option Cand := (cs.find? fun x => decide (c < x.id)).or cs.head?

/-- The pointer moves on until a child's deficit covers its packet: the child and the deficits (R235). -/
def drrLoop (cs : List Cand) : Nat → Cand → Sparse Nat → Option (Cand × Sparse Nat)
  | 0, _, _ => none
  | n + 1, c, d =>
    if c.len ≤ sget 0 d c.key then some (c, sset 0 d c.key (sget 0 d c.key - c.len))
    else match nextCand cs c.id with
    | none => none
    | some x => drrLoop cs n x (sset 0 d x.key (sget 0 d x.key + 256 * x.weight))

/-- A node's choice among its eligible children, in ascending number (R234, R235). -/
def State.drr (s : State) (node : Nat) (all : List Cand) : Option (Cand × State) :=
  let com := all.any (·.com)
  let c1 := if com then all.filter (·.com) else all
  let pr := c1.foldl (fun m c => max m c.prio) 0
  let cs := c1.filter (·.prio == pr)
  let k := (node * 2 + b2n com) * 8 + pr
  let fuel := 70 * cs.length + 2
  let start := match cs.find? fun c => c.id + 1 == sget 0 s.eg.ptr k with
    | some c => drrLoop cs fuel c s.eg.deficit
    | none =>
      let n := sget 0 s.eg.ptr k
      match (if n = 0 then cs.head? else nextCand cs (n - 1)) with
      | some c => drrLoop cs fuel c (sset 0 s.eg.deficit c.key (sget 0 s.eg.deficit c.key + 256 * c.weight))
      | none => none
  start.map fun r => (r.1, { s with eg := { s.eg with deficit := r.2, ptr := sset 0 s.eg.ptr k (r.1.id + 1) } })

/-- A subscriber's choice among the eligible queues `es`: a queue. -/
def State.pickQueue (s : State) (es : List Nat) (sub : Nat) : Option (Nat × State) :=
  let cs := (es.filter (· / 8 == sub)).filterMap fun eq => (s.headOf eq).map fun h =>
    let e := s.eqEnt eq
    (⟨eq, eq, ndPrio e, ndWeight e, false, s.charged h.2.len (ndAdj e)⟩ : Cand)
  (s.drr (3 * 2 ^ 20 + sub) cs).map fun r => (r.1.id, r.2)

/-- The length of the head packet of a queue. -/
def State.headLen (s : State) (eq : Nat) : Nat := ((s.headOf eq).map (·.2.len)).getD 0

/-- A service node's choice: a queue. -/
def State.pickSub (s : State) (es : List Nat) (svc : Nat) : Option (Nat × State) :=
  let subs := ((es.map (· / 8)).eraseDups).filter fun i => s.svcOf i == svc
  let cs := subs.filterMap fun i => (s.pickQueue es i).map fun q =>
    let e := s.subEnt i
    (⟨i, 2 ^ 20 + i, ndPrio e, ndWeight e, s.shpCommits (shpKey 1 true i), s.charged (s.headLen q.1) (ndAdj e)⟩ : Cand)
  match s.drr (2 * 2 ^ 20 + svc) cs with
  | none => none
  | some (c, s1) => s1.pickQueue es c.id

/-- A port's choice: a queue. -/
def State.pickSvc (s : State) (es : List Nat) (p : Nat) : Option (Nat × State) :=
  let svcs := (sortBy (fun a b => decide (a ≤ b)) (es.map fun eq => s.svcOf (eq / 8)).eraseDups).filter fun i => s.portOfSvc i == p
  let cs := svcs.filterMap fun i => (s.pickSub es i).map fun q =>
    let e := s.svcEnt i
    (⟨i, 2 * 2 ^ 20 + i, ndPrio e, ndWeight e, s.shpCommits (shpKey 2 true i), s.charged (s.headLen q.1) (ndAdj e)⟩ : Cand)
  match s.drr (2 ^ 20 + p) cs with
  | none => none
  | some (c, s1) => s1.pickSub es c.id

/-- Children that are not eligible have deficit 0 (R235): `es` the eligible queues. -/
def State.dropDeficits (s : State) (es : List Nat) : State :=
  let ok (k : Nat) : Bool :=
    if k < 2 ^ 20 then es.contains k
    else if k < 2 ^ 21 then es.any fun e => e / 8 + 2 ^ 20 == k
    else es.any fun e => s.svcOf (e / 8) + 2 ^ 21 == k
  { s with eg := { s.eg with deficit := s.eg.deficit.filter fun e => ok e.1 } }

/-- Whether a port is ready (R233). -/
def State.portReady (s : State) (es : List Nat) (p : Nat) : Bool :=
  es.any (fun e => s.portOf e == p) && !s.shpBlocks (shpKey 3 false p) &&
    decide (s.txbUsed p < s.f (Rg.EQS_PORT_CFG p) Fd.EQS_PORT_CFG_TXB * 256)

/-- Head packets of a lane's ports that fail their gate are held: each is counted once (R242, R244). -/
def State.gateHold (s : State) (g now : Nat) : State :=
  ((skeys s.eg.queues).filter fun eq => s.portOf eq / 8 == g && s.eqOpen eq && !s.eqFits eq now).foldl (fun t eq =>
    match t.headOf eq with
    | some (id, p) => if p.heldAt.isSome then t else (t.putEpkt id { p with heldAt := some now }).bump Rg.GATE_HOLD_CNT
    | none => t) s

/-- The bin of a delay in ns (R247). -/
def latBin (d : Nat) : Nat := if d < 128 then 0 else min 15 (d.log2 - 6)

/-- A handoff counted in its port's histogram (R247). -/
def State.latHist (s : State) (p delay : Nat) : State :=
  if !s.fb Rg.LAT_CFG Fd.LAT_CFG_EN then s else
  let i := 16 * p + latBin delay
  let n := s.tbl Pg.LAT 2 i + 1
  let s1 := s.setTbl Pg.LAT 2 i (n % 2 ^ 32)
  if n < 2 ^ 32 then s1 else s1.setOvfTbl Pg.LAT

/-- The head packet of a queue is handed off to its egress slice (R240): `plan` its launch. -/
def State.handOff (s : State) (eq id : Nat) (p : EPkt) (t : Nat) (plan : Option (Nat × Nat × Nat)) : State :=
  let port := s.portOf eq
  let n := p.bytes.length
  let complete := decide (p.len ≤ n)
  let sq := sget 0 s.eg.seq port
  let em : EgMeta := {
    lport := port, eq := eq, tc := eq % 8, len := p.len, hint := p.hint, scratch := p.scratch,
    launchV := plan.isSome, launch := (plan.map fun x => x.1 / 2 ^ 32 % 1000000000).getD 0,
    latest := (plan.map fun x => min 65535 (x.2.2 / 2 ^ 32)).getD 0,
    ct := !complete, srcDev := p.src, seq := sq, pid := if complete then 0 else id, txLen := p.len }
  let k : Pkt := { bytes := p.bytes.take (p.len - 4), em := em, bucket := eq / 16, gen := s.cm.gen, md := { lport := port, tc := eq % 8, len := p.len } }
  let s1 := s.setQueue eq ((s.queue eq).filter (· != id))
  let s2 := if complete then s1.setPool (sdel s1.eg.pk id) else s1.putEpkt id { p with handed := some n }
  let s3 := { s2 with eg := { s2.eg with seq := sset 0 s2.eg.seq port (sq + 1) } }
  let s4 := match plan with
    | some x => s3.setGate port { s3.gate port with f := x.2.1 }
    | none => s3
  let s5 := [shpKey 0 false eq, shpKey 1 false (eq / 8), shpKey 1 true (eq / 8), shpKey 2 false (s.svcOf (eq / 8)),
    shpKey 2 true (s.svcOf (eq / 8)), shpKey 3 false port].foldl (fun u key => u.shpCharge p.len key) s4
  ((s5.bump64 Rg.EQS_DEQ_CNT_LO).latHist port ((t - p.enq.getD t) / 2)).toBucket 1 k

/-- A read of pool data (R305, class 9): whether it may be used. -/
def State.poolRead (s : State) (e : Option MemErr) : State × Bool :=
  let q := match e with | some x => x.unit % 4 | none => 0
  let r := s.dataErr (Pg.EPOOLQ q) 9 e
  (if r.2 then r.1 else r.1.bump (Rg.EPQ_UNCORR_CNT q), r.2)

/-- A decision of lane `g` at clock `clk` (R233). `pool`: an error that reading the packet's pool data meets; one that is uncorrectable discards it (R305). With EQS
disabled no decision is made (R396). -/
def State.egressDecision (s : State) (g clk : Nat) (pool : Option MemErr) : State :=
  if !bit (s.rd (Pg.EQS + 0x008)) 31 || s.d2dDown || decide (s.part.lineGroups ≤ g) then s else
  let now := s.todFrac (s.at clk)
  let s1 := s.gateHold g now
  let es := s1.eligible now
  let s2 := s1.dropDeficits es
  let ready := ((List.range 8).map (8 * g + ·)).filter (s2.portReady es)
  let last := sget 0 s2.eg.lastPort g
  match (ready.find? fun p => decide (last < p + 1)).or ready.head? with
  | none => s2.bump (Rg.EQL_IDLE_CNT g)
  | some p =>
    match s2.pickSvc es p with
    | none => s2
    | some (eq, s3) =>
      let s4 := { s3 with eg := { s3.eg with lastPort := sset 0 s3.eg.lastPort g (p + 1) } }.bump64 (Rg.EQL_DEC_CNT_LO g)
      match s4.headOf eq with
      | none => s4
      | some (id, k) =>
        let r := s4.poolRead pool
        let s4 := r.1
        if !r.2 then ((s4.dropEpkt id).bump (Rg.RAS_EPOOL_DROP_CNT 1)).setInt (Pg.RAS 1) Ib.RAS_EPOOL_POISON else
        let plan := (s4.gate p).cur.bind fun l => s4.fitTest p (eq % 8) k.len now l
        (s4.handOff eq id k (s4.at clk) plan).dropDeficits es

/-- EGRESS_DECISION (R233). -/
def execEgressDecision (lane clk : Nat) (pool : Option MemErr) (s : State) : Out := .next (s.egressDecision lane clk pool)

/-- A head packet that no opening of its gate can pass, held through two full cycles, is discarded (R244). -/
def State.gateOversize (s : State) (eq clk : Nat) : State :=
  match s.headOf eq, (s.gate (s.portOf eq)).cur with
  | some (id, p), some l =>
    match p.heldAt, longestSpan (eq % 8) (s.gateCycle (s.portOf eq) l), s.wireTime (s.portOf eq) p.len l with
    | some h, some sp, some w =>
      if sp * 2 ^ 32 < w ∧ h + 2 * l.cycle * 2 ^ 32 ≤ s.todFrac (s.at clk) then
        ((s.dropEpkt id).bump Rg.GATE_OVERSIZE_CNT).setInt Pg.GATE Ib.GATE_OVERSIZE
      else s
    | _, _, _ => s
  | _, _ => s

/-- GATE_OVERSIZE (R244). -/
def execGateOversize (eq clk : Nat) (s : State) : Out := .next (s.gateOversize eq clk)

/-! ## Queue entry (R229, R232) -/

/-- Whether a pool packet may enter its queue: its last cell is in the pool, or by cut-through its first CT_CELLS are. -/
def State.mayEnter (s : State) (p : EPkt) : Bool :=
  let a := Rg.EQS_PORT_CFG (s.portOf p.eq)
  decide (p.len ≤ p.bytes.length) ||
    (s.fb a Fd.EQS_PORT_CFG_CT_EN && decide (256 * s.f a Fd.EQS_PORT_CFG_CT_CELLS ≤ p.bytes.length))

/-- The oldest pool packet that may enter its queue enters it at clock `clk`. -/
def State.egressEnqueue (s : State) (clk : Nat) : State :=
  match s.eg.fresh.find? fun id => (s.epkt id).any s.mayEnter with
  | none => s
  | some id =>
    match s.epkt id with
    | none => s
    | some p =>
      let ct := decide (p.bytes.length < p.len)
      let s1 := s.putEpkt id { p with enq := some (s.at clk), ct := ct }
      let s2 := { s1 with eg := { s1.eg with fresh := s1.eg.fresh.filter (· != id) } }
      (s2.setQueue p.eq (s2.queue p.eq ++ [id])).bumpIf ct Rg.EQS_CT_CNT

/-- EGRESS_ENQUEUE (R229). -/
def execEgressEnqueue (clk : Nat) (s : State) : Out := .next (s.egressEnqueue clk)

/-! ## Transmission (R69, R82, R83, R225, R241, R243) -/

/-- Bytes written into a frame at an offset. -/
def patch (b : List Byte) (off : Nat) (x : List Byte) : List Byte := b.take off ++ x ++ b.drop (off + x.length)

/-- The sum of the 16-bit words of bytes `off` to `off + n − 1`, aligned to an even distance from `base`. -/
def wordSum (b : List Byte) (base off n : Nat) : Nat :=
  (((b.drop off).take n).zipIdx off).foldl (fun a e => a + e.1.toNat * (if (e.2 + base) % 2 = 0 then 256 else 1)) 0

/-- A number folded to 16 bits with end-around carry. -/
def fold16 (n : Nat) : Nat := if n = 0 then 0 else (n - 1) % 65535 + 1

/-- The PTP command of a frame (bytes without FCS) carried out at transmit time `t` (seconds, nanoseconds) (R83): the frame, whether the time
goes to the FIFO, and whether the command is an error. -/
def ptpTransmit (b : List Byte) (em : EgMeta) (t : Nat × Nat) : List Byte × Bool × Bool :=
  let c := em.ptpCmd
  let stamp := beBytes 6 t.1 ++ beBytes 4 t.2
  let n := if c = 3 then 8 else 10
  let isW := c = 2 ∨ c = 3 ∨ c = 4
  let csum (new : List Byte) : List Byte :=
    if em.csumOff = 0 then new else
    let old := wordSum b em.csumOff em.ptpOff n
    let nw := wordSum new em.csumOff em.ptpOff n
    let x := beNat ((new.drop em.csumOff).take 2)
    patch new em.csumOff (beBytes 2 (fold16 (x + old + 65535 * 8 - fold16 nw)))
  if c = 0 then (b, false, false)
  else if c = 1 then (b, true, false)
  else if !isW then (b, false, true)
  else if b.length < em.ptpOff + n ∨ (em.csumOff ≠ 0 ∧ b.length < em.csumOff + 2) then (b, false, true)
  else if c = 3 then
    let ref := bits em.scratch 48 32
    let cf := beNat ((b.drop em.ptpOff).take 8) + (t.2 + 2 ^ 32 - ref) % 2 ^ 32 * 2 ^ 16
    (csum (patch b em.ptpOff (beBytes 8 (cf % 2 ^ 64))), false, false)
  else (csum (patch b em.ptpOff stamp), c = 4, false)

/-- The frame that a port may start at a time: PORT_SEQ order, but a frame of a paused class, one that waits for its LAUNCH and one
still in its slice let frames of other classes pass (R241, R243). -/
def State.pickTx (s : State) (p now : Nat) : List (Pkt × Bool) → List Nat → Option Pkt
  | [], _ => none
  | (k, out) :: rest, held =>
    let wait := k.em.launchV && decide ((k.em.launch + 1000000000 - now % 1000000000) % 1000000000 - 1 < 500000000 - 1) &&
      k.em.launch != now % 1000000000
    if held.contains k.em.tc then State.pickTx s p now rest held
    else if !out || s.tcPaused p k.em.tc || wait then State.pickTx s p now rest (k.em.tc :: held)
    else some k

/-- A frame ends with an inverted FCS and an error control character (R225, R232). -/
def State.txAbort (s : State) (p : Nat) (b : List Byte) : State :=
  ((s.lpBump p 11).lrMon p 7 (b.length + 4)).emit (.frame p (b ++ leBytes 4 (fcs b ^^^ 0xFFFFFFFF)) true)

/-- A frame ends whole (R241). -/
def State.txDone (s : State) (p : Nat) (b : List Byte) : State :=
  (((s.lpBump p 8).lpBump p 9 (b.length + 4)).lrMon p 7 (b.length + 4)).emit (.frame p (sealFrame b) false)

/-- A frame starts on a port at clock `clk` (R241): its late start, its PTP command, and its end where its last cell has crossed. -/
def State.txStart (s : State) (p clk : Nat) (k : Pkt) : State :=
  let t := s.at clk
  let now := (s.tod t).2 / 2 ^ 32
  let past := (now + 1000000000 - k.em.launch) % 1000000000
  let late := k.em.launchV && decide (k.em.latest < past ∧ past < 500000000)
  let s0 : State := { s with macTx := s.macTx.erase k }
  let s1 := if late then (s0.bump Rg.GATE_LATE_CNT).setInt Pg.GATE Ib.GATE_LATE else s0
  let stamp := todShift (s.tod t) (signed 16 (s.f (Rg.PTP_TX_CORR p) Fd.PTP_TX_CORR_CORR))
  let (b, fifo, err) := ptpTransmit k.bytes k.em stamp
  let s2 := s1.bumpIf err Rg.PTP_CMD_ERR_CNT
  let s3 := if fifo then s2.txtsPut p (bits k.em.scratch 32 16) stamp.1 stamp.2 else s2
  if !k.em.ct then s3.txDone p b
  else match s3.epkt k.em.pid with
  | none => s3.txAbort p b
  | some e =>
    let rest := ((e.bytes.take (e.len - 4)).drop (min (e.handed.getD 0) (e.len - 4)))
    if e.stomp then ((s3.dropEpkt k.em.pid).bump Rg.BUF_STOMP_RX_DISCARD_CNT).setInt Pg.BUF Ib.BUF_STOMP_RX
    else if e.len ≤ e.bytes.length then (s3.dropEpkt k.em.pid).txDone p (b ++ rest)
    else { s3 with eg := { s3.eg with txing := sset (0, []) s3.eg.txing p (k.em.pid, b) } }

/-- MAC_TX_FRAME: while a frame is under way, `starve` ends it for want of a byte that has not crossed (R232) and `pool` is an error that
reading pool data meets, which ends it where it is uncorrectable (R305); else the next frame starts while the port is UP and sends data (R68, R69). -/
def State.macTxFrame (s : State) (p clk : Nat) (starve : Bool) (pool : Option MemErr) : State :=
  let r := s.poolRead pool
  let poolBad := !r.2
  let s := r.1
  if !s.lportOn p then s else
  match s.eg.txing.find? (·.1 == p) with
  | some (_, id, b) =>
    let bytes := match s.epkt id with
      | some e => b ++ e.bytes.drop (e.handed.getD 0)
      | none => b
    let fin : State := { (s.dropEpkt id) with eg := { (s.dropEpkt id).eg with txing := sdel s.eg.txing p } }
    if poolBad then ((fin.txAbort p bytes).bump (Rg.RAS_EPOOL_ABORT_CNT 1)).setInt (Pg.RAS 1) Ib.RAS_EPOOL_POISON
    else if starve then ((fin.txAbort p bytes).bump Rg.EQS_UNDERRUN_CNT).setInt Pg.EQS Ib.EQS_UNDERRUN
    else s
  | none =>
    if !s.lkIsUp p || s.txMode p != .data then s else
    let ks := sortBy (fun a b => decide (a.1.em.seq ≤ b.1.em.seq)) (s.egPkts.filter fun k => k.1.em.lport == p)
    match s.pickTx p ((s.tod (s.at clk)).2 / 2 ^ 32) ks [] with
    | some k => s.txStart p clk k
    | none => s

/-- MAC_TX_FRAME (R241). -/
def execMacTxFrame (port clk : Nat) (starve : Bool) (pool : Option MemErr) (s : State) : Out := .next (s.macTxFrame port clk starve pool)

/-! ## Arrival in the pool -/

/-- Bytes of a packet arrive in the pool; `stomp` marks its last cell (R225). Bytes of a packet that is gone are freed as they
arrive (R232). -/
def State.poolFeed (s : State) (id : Nat) (b : List Byte) (stomp : Bool) : State :=
  match s.epkt id with
  | none => s
  | some p0 =>
    let p := { p0 with bytes := p0.bytes ++ b }
    let done := decide (p.len ≤ p.bytes.length)
    let port := s.portOf p.eq
    let under := s.eg.txing.find? fun e => e.2.1 == id
    let gone := p.handed.isSome && under.isNone && !(s.egPkts.any fun k => k.1.em.pid == id)
    if !done then s.putEpkt id (if p.handed.isSome then { p with handed := p.handed } else p)
    else if gone then s.dropEpkt id
    else match under with
    | some (q, _, body) =>
      let rest := (p.bytes.take (p.len - 4)).drop (min (p.handed.getD 0) (p.len - 4))
      let s1 := s.dropEpkt id
      let s2 := { s1 with eg := { s1.eg with txing := sdel s1.eg.txing q } }
      if stomp then ((s2.txAbort q (body ++ rest)).bump Rg.BUF_STOMP_RX_ABORT_CNT).setInt Pg.BUF Ib.BUF_STOMP_RX
      else s2.txDone q (body ++ rest)
    | none =>
      if p.handed.isSome then s.putEpkt id { p with stomp := stomp }
      else if stomp then (((s.dropEpkt id).bump Rg.BUF_STOMP_RX_DISCARD_CNT).setInt Pg.BUF Ib.BUF_STOMP_RX)
      else s.putEpkt id p

/-- The egress pool is flushed as the link enters DOWN, each packet counted in D2D_DISCARD_CNT of D2D_T (R35). -/
def State.egressFlush (s : State) : State :=
  let n := s.eg.pk.length
  let s1 := { s with eg := { s.eg with fresh := [], queues := [], deficit := [], txing := [] } }.setPool []
  if n = 0 then s1 else (s1.bump (Rg.D2D_DISCARD_CNT 1) n).setInt (Pg.D2D 1) Ib.D2D_DISCARD

/-! ## LAT (R246) -/

/-- A queue sampled into a watch entry's statistics: words of 18, 18, 32, 32 and 64 bits that saturate. -/
def State.latSample (s : State) (i t : Nat) : State :=
  let eq := s.tf Pg.LAT 0 i 0 18
  let depth := (((s.queue eq).filterMap s.epkt).map EPkt.cells).sum
  let delay := match s.headOf eq with
    | some (_, p) => (t - p.enq.getD t) / 2
    | none => 0
  let e := s.tbl Pg.LAT 1 i
  let sat (w v : Nat) : Nat := min (2 ^ w - 1) v
  s.setTbl Pg.LAT 1 i (sat 18 depth + 2 ^ 32 * sat 18 (max (bits e 32 18) depth) + 2 ^ 64 * sat 32 (max (bits e 64 32) delay)
    + 2 ^ 96 * sat 32 (bits e 96 32 + 1) + 2 ^ 128 * sat 64 (bits e 128 64 + delay))

/-- The next SET_SIZE valid entries of the watch list from an index, wrapping at WATCH_LEN, each at most once; and the index after them. -/
def State.latSet (s : State) (len : Nat) : Nat → Nat → Nat → List Nat × Nat
  | 0, _, i => ([], i)
  | n + 1, want, i =>
    let j := i % len
    if want = 0 then ([], j)
    else if bit (s.tbl Pg.LAT 0 j) 31 then
      let r := State.latSet s len n (want - 1) (j + 1)
      (j :: r.1, r.2)
    else State.latSet s len n want (j + 1)

/-- The sample set of a tick at clock `clk`; a set that is not complete at the boundary is discarded (R246, R50). -/
def State.latTick (s : State) (clk : Nat) (complete : Bool) : State :=
  let len := s.f Rg.LAT_CFG Fd.LAT_CFG_WATCH_LEN
  if !s.fb Rg.LAT_CFG Fd.LAT_CFG_EN || len == 0 then s
  else if !complete then s.overrun 4
  else
    let (l, i) := s.latSet len len (s.f Rg.LAT_CFG Fd.LAT_CFG_SET_SIZE) s.eg.watch
    l.foldl (fun t j => t.latSample j (s.at clk)) { s with eg := { s.eg with watch := i % len } }

/-- LAT_SAMPLE_SET (R246). -/
def execLatSampleSet (clk : Nat) (complete : Bool) (s : State) : Out := .next (s.latTick clk complete)

/-- A table command of page LAT. -/
def State.latCmd (s : State) (op addr data : Nat) : State × TblAns :=
  let t := bits addr 16 2
  let i := addr % 1024
  if t = 3 then (s, ans stBadAddr)
  else if op = opRead then (s, { st := stOk, data := some (s.tbl Pg.LAT t i) })
  else if t = 0 ∧ op = opWrite then
    ((s.setTbl Pg.LAT 0 i (bits data 0 32 &&& 0x8003FFFF)).setTbl Pg.LAT 1 i 0, ans stOk)
  else if (t = 1 ∨ t = 2) ∧ op = opFlush then (s.clrTbl Pg.LAT t 0 1024, ans stOk)
  else (s, ans stUnsupported)

/-! ## EQS tables -/

/-- The queues of a subscriber node hold packets; grants for it are outstanding. -/
def State.subBusy (s : State) (i : Nat) : Bool := s.eg.pk.any fun e => e.2.eq / 8 == i && e.2.handed.isNone
def State.subGrants (s : State) (i : Nat) : Bool := s.fab.tags.any fun e => e.2.eq / 8 == i

/-- The queue state entry that READ shows at a core clock. -/
def State.eqShow (s : State) (eq t : Nat) : Nat :=
  let delay := match s.headOf eq with
    | some (_, p) => min 0xFFFFFFFF ((t - p.enq.getD t) / 2)
    | none => 0
  s.eqCells eq % 2 ^ 18 + 2 ^ 32 * ((s.queue eq).length % 2 ^ 24) + 2 ^ 64 * delay

/-- Whether a WRITE of an EQS entry is allowed (R230, R239). -/
def State.eqsAllowed (s : State) (t i new : Nat) : Bool :=
  let old := s.tbl Pg.EQS t i
  if t = 0 then
    let sub := old % 2 ^ 15
    !(bit old 31 && (!bit new 31 || new % 2 ^ 15 != sub) && (s.subBusy sub || s.subGrants sub))
  else if t = 1 then
    !(s.portOfSvc (new % 4096) != s.portOfSvc (old % 4096) && s.subBusy i)
  else if t = 2 then
    !(new % 64 != old % 64 && s.eg.pk.any fun e => e.2.handed.isNone && s.svcOf (e.2.eq / 8) == i)
  else true

/-- A table command of page EQS at a core clock. -/
def State.eqsCmd (s : State) (op addr data now : Nat) : State × TblAns :=
  let t := bits addr 29 3
  let i := addr % 2 ^ 18
  if op ≠ opRead ∧ op ≠ opWrite ∧ op ≠ opDelete then (s, ans stUnsupported)
  else if 4 < t ∨ lget 0 [131072, 32768, 4096, 2048, 262144] t ≤ i then (s, ans stBadAddr)
  else if t = 4 then (if op = opRead then (s, { st := stOk, data := some (s.eqShow i now) }) else (s, ans stReadOnly))
  else if op = opRead then (s, { st := stOk, data := some (s.tbl Pg.EQS t i) })
  else
    let raw := if op = opDelete then tblReset s.part (tkey Pg.EQS t i) else data % 2 ^ 64
    let new := raw &&& (if t = 0 then 0xC0007FFF else if t = 1 then 0xFF_FFFF0FFF else if t = 2 then 0xFFFF003F else 0x3FFFF_7FFF0000)
    if (t ≠ 0 ∧ ndWeight new = 0) ∨ (t = 3 ∧ 131072 < bits new 32 18) then (s, ans stBadData)
    else if t = 1 ∧ (4096 ≤ bits raw 0 16 ∨ 256 ≤ bits raw 32 32) then (s, ans stBadData)
    else if t = 2 ∧ 64 ≤ bits raw 0 16 then (s, ans stBadData)
    else if !s.eqsAllowed t i new then (s, ans stNotAllowed)
    else (s.setTbl Pg.EQS t i new, ans stOk)

/-- A port's MAC status as EQS reports it: paused classes and the allowance in use (EQS_PORT_STAT). -/
def State.eqsPortStat (s : State) (p : Nat) : Nat :=
  maskOf ((List.range 8).filter fun c => s.tcPaused p c) * 2 ^ 24 + min 4095 (ceilDiv (s.txbUsed p) 256)

/-- EQS_SUB_STAT for the node that EQS_SUB_SEL names. -/
def State.eqsSubStat (s : State) : Nat :=
  let i := s.f Rg.EQS_SUB_SEL Fd.EQS_SUB_SEL_NODE
  b2n (!s.subBusy i) * 2 ^ 31 + b2n (!s.subGrants i) * 2 ^ 30

end Sys2Proof.Machine
end

