-- ==== Sys2Proof/Machine/Tick.lean ====
section
/-! DEFINITION. Tick and SYNC (chapter 2, R37 to R50, R404, R405): edges, tags, judgment, corrections, SYNC_OUT and the
tick plan. What a tick boundary does in every block is in Boundary.lean. -/
namespace Sys2Proof.Machine

/-- TICK_STAT.STATE encodings. -/
abbrev tkFree : Nat := 0
abbrev tkAcquire : Nat := 1
abbrev tkSlew : Nat := 2
abbrev tkLocked : Nat := 3
abbrev tkHoldover : Nat := 4

/-- TICK_STAT.STATE. -/
def State.tkState (s : State) : Nat := s.f Rg.TICK_STAT Fd.TICK_STAT_STATE

/-- SKEW_ADJ, signed (R44). -/
def State.skew (s : State) : Int := signed 10 (s.f Rg.TICK_SKEW Fd.TICK_SKEW_SKEW_ADJ)

/-- One step of the CRC-8 of R41 (polynomial 0x07) on a bit. -/
def crc8Step (c : Nat) (b : Bool) : Nat :=
  let x := (c * 2) % 256
  if bit c 7 != b then x ^^^ 0x07 else x

/-- The CRC-8 over bits [31:8] of a tag, most significant bit first, from 0x00 (R41). -/
def tagCrc (w : Nat) : Nat := (bitsOf 24 (w / 256)).foldl crc8Step 0

/-- A tag word with its fields and CRC (R41). -/
def mkTag (tis epoch commit : Nat) : Nat :=
  let h := tis % 64 * 2 ^ 26 + epoch % 4096 * 2 ^ 14 + commit % 2 * 2 ^ 13
  h + tagCrc h

/-- TIS, EPOCH and COMMIT_NOW of a tag. -/
def tagTis (w : Nat) : Nat := bits w 26 6
def tagEpoch (w : Nat) : Nat := bits w 14 12
def tagCommit (w : Nat) : Bool := bit w 13

/-- Manchester decoding of 32 cells, most significant first: low then high is 1, high then low is 0, equal samples a
violation (R40). Answers the word, and whether it is whole and without violation. -/
def manchester (cells : List (Bool × Bool)) : Nat × Bool :=
  (cells.foldl (fun a c => 2 * a + b2n (!c.1 && c.2)) 0, cells.length == 32 && cells.all fun c => c.1 != c.2)

/-- Whether epoch `a` is later than `b` (R51). -/
def epochLater (a b : Nat) : Bool := let d := (a + 4096 - b % 4096) % 4096; decide (1 ≤ d ∧ d ≤ 2047)

/-- A rising transition on SYNC_IN: accepted as a tick edge, taken as part of the tag, or ignored and counted (R43, R404). -/
def State.syncEdge (s : State) (clk : Nat) : State :=
  if s.tk.mode ≠ 1 then s else
  let t := s.at clk
  let accept : State := { s with tk := { s.tk with lastEdge := some t, edges := s.tk.edges ++ [⟨t, none⟩] } }
  match s.tk.lastEdge with
  | none => accept
  | some l =>
    if l + 1536 ≤ t then accept
    else if l + 200 ≤ t ∧ t ≤ l + 839 then s
    else s.bump Rg.TICK_EARLY_EDGE_CNT

/-- SYNC_EDGE (R43). -/
def execSyncEdge (clk : Nat) (s : State) : Out := .next (s.syncEdge clk)

/-- A tag word after the last accepted edge: kept with that edge, and taken as the tag of the tick when valid (R40, R41, R62). -/
def State.syncTag (s : State) (cells : List (Bool × Bool)) : State :=
  if s.tk.mode ≠ 1 then s else
  let (w, whole) := manchester cells
  let ok := whole && tagCrc w == w % 256
  let es := match s.tk.edges.reverse with
    | [] => []
    | e :: r => ({ e with tag := some (w, ok) } :: r).reverse
  let s1 := { s with tk := { s.tk with edges := es, curTag := if ok then some w else s.tk.curTag } }
  if ok then s1.wr Rg.TICK_LAST_TAG w else s1

/-- SYNC_TAG (R41). -/
def execSyncTag (cells : List (Bool × Bool)) (s : State) : Out := .next (s.syncTag cells)

/-- TICK_STAT.STATE entered, with what the entry flags, counts and logs (R45). -/
def State.tkEnter (s : State) (st : Nat) : State :=
  let s1 := s.setF Rg.TICK_STAT Fd.TICK_STAT_STATE st
  if st = tkLocked then s1.setInt Pg.TICK Ib.TICK_LOCKED
  else if st = tkHoldover then ((s1.bump Rg.TICK_HOLDOVER_CNT).setInt Pg.TICK Ib.TICK_HOLDOVER).log Pg.TICK 0x0035 0
  else s1

/-- An integer limited to ±`m`. -/
def clampInt (m : Nat) (z : Int) : Int := max (-(m : Int)) (min m z)

/-- A correction given to the first tick whose length is not yet fixed (R405). -/
def State.correct (s : State) (amt : Int) : State :=
  if s.tk.fixed then { s with tk := { s.tk with nextCorr := amt } } else { s with tk := { s.tk with corr := amt } }

/-- What the judgment of one tick found (R44). -/
structure Verdict where
  edge : Bool
  one : Bool
  phase : Int
  phaseOk : Bool
  tagOk : Bool
  tisOk : Bool
deriving DecidableEq, Repr

/-- The checks of R44 on the tick that boundary `b` begins, with the edges that belong to it; of two edges the last is taken, against the one
before it. -/
def State.verdict (s : State) (b : Bound) (es : List SyncEdge) : Verdict :=
  let win : Int := s.f Rg.TICK_CTRL Fd.TICK_CTRL_WINDOW
  match es.getLast? with
  | none => ⟨false, false, 0, false, false, false⟩
  | some e =>
    let pe : Int := b.time - (e.time + s.skew)
    let locked := s.tkState == tkLocked
    let perOk := match (es.dropLast.getLast?.map SyncEdge.time).or s.tk.prevEdge with
      | none => false
      | some p => decide (((e.time : Int) - p - 2048).natAbs ≤ win.natAbs)
    let tag := match e.tag with
      | some (w, true) => some w
      | _ => none
    let tisOk := match tag with
      | none => false
      | some w => if locked then tagTis w == (b.tis + 1) % 64 else
          match s.tk.lastTis with
          | none => true
          | some t => tagTis w == (t + 1) % 64
    ⟨true, es.length == 1, pe, if locked then decide (pe.natAbs ≤ win.natAbs) else perOk, tag.isSome, tisOk⟩

/-- The counters and runs updated at a judgment (R44, R404). -/
def State.judgeCounts (s : State) (v : Verdict) : State :=
  let good := v.edge && v.one && v.phaseOk && v.tagOk && v.tisOk
  let s1 := if v.edge then s.setF Rg.TICK_PHASE Fd.TICK_PHASE_PHASE (unsigned 16 v.phase) else s.bump Rg.TICK_MISSING_EDGE_CNT
  let s2 := s1.bumpIf (v.edge && !v.phaseOk) Rg.TICK_PHASE_ANOM_CNT
  let s3 := s2.bumpIf (v.edge && !v.tagOk) Rg.TICK_TAG_ERR_CNT
  let s4 := s3.bumpIf (v.edge && v.tagOk && !v.tisOk) Rg.TICK_TIS_ERR_CNT
  let g := s.f Rg.TICK_STAT Fd.TICK_STAT_GOOD_RUN
  let n := s.f Rg.TICK_STAT Fd.TICK_STAT_ANOM_RUN
  (s4.setF Rg.TICK_STAT Fd.TICK_STAT_GOOD_RUN (if good then min 64 (g + 1) else 0)).setF
    Rg.TICK_STAT Fd.TICK_STAT_ANOM_RUN (if good then 0 else min 31 (n + 1))

/-- The state machine of R45 after a judgment, with the correction of R405 and the adoption of R46. `later` are the
boundaries after the judged one; the last valid tag stands `tisAge` ticks before the judged one. -/
def State.judgeMove (s : State) (v : Verdict) (b : Bound) (later : List Bound) : State :=
  let good := v.edge && v.one && v.phaseOk && v.tagOk && v.tisOk
  let st := s.tkState
  let lost := decide (16 ≤ s.f Rg.TICK_STAT Fd.TICK_STAT_ANOM_RUN) || decide (4 ≤ s.tk.noEdge)
  let win := s.f Rg.TICK_CTRL Fd.TICK_CTRL_WINDOW
  if st = tkAcquire ∨ st = tkHoldover then
    if s.f Rg.TICK_STAT Fd.TICK_STAT_GOOD_RUN = 64 then s.tkEnter tkSlew else s
  else if st = tkSlew then
    if lost then s.tkEnter tkHoldover
    else if !v.edge then s
    else if v.phase.natAbs ≤ win then
      let s1 := s.tkEnter tkLocked
      match s.tk.lastTis with
      | none => s1
      | some t0 =>
        let t := t0 + s.tk.tisAge
        { s1 with tk := { s1.tk with
          adopt := some ((t + later.length) % 64),
          bounds := later.zipIdx.map fun (x, j) => { x with tis := (t + j) % 64 } } }
    else s.correct (clampInt (s.f Rg.TICK_CTRL Fd.TICK_CTRL_SLEW) (v.phase - b.fixed))
  else if st = tkLocked then
    if lost then s.tkEnter tkHoldover
    else if good then s.correct (clampInt win (v.phase - b.fixed))
    else s
  else s

/-- The judgment of the oldest unjudged tick (R404). -/
def State.judge (s : State) : State :=
  match s.tk.bounds with
  | [] => s
  | b :: later =>
    let own (e : SyncEdge) : Bool :=
      let x : Int := e.time + s.skew
      decide ((b.time : Int) - 1024 ≤ x ∧ x ≤ b.time + 1023)
    let es := s.tk.edges.filter own
    let v := s.verdict b es
    let tag := (es.getLast?.bind (·.tag)).bind fun t => if t.2 then some t.1 else none
    let s1 := s.judgeCounts v
    let s2 := { s1 with tk := { s1.tk with
      bounds := later
      edges := s.tk.edges.filter fun (e : SyncEdge) => decide (((e.time : Int) + s.skew) > b.time + 1023)
      noEdge := if v.edge then 0 else s.tk.noEdge + 1
      prevEdge := (es.getLast?.map SyncEdge.time).or s.tk.prevEdge
      lastTis := (tag.map tagTis).or s.tk.lastTis
      tisAge := if tag.isSome then 0 else s.tk.tisAge + 1 } }
    s2.judgeMove v b later

/-- TICK_JUDGMENT (R404). -/
def execTickJudgment (s : State) : Out := .next s.judge

/-- SYS as it stands after the coming boundary: in system mode the EPOCH of the last valid tag of this tick (R62). -/
def State.sysNext (s : State) : Nat :=
  let sys := s.f Rg.CMT_EPOCH Fd.CMT_EPOCH_SYS
  if s.fb Rg.CMT_CTRL Fd.CMT_CTRL_COMMIT_MODE then (s.tk.curTag.map tagEpoch).getD sys else sys

/-- The length of the current tick (R38, R405). -/
def State.tickLen (s : State) : Nat := ((2048 : Int) - s.tk.corr).toNat

/-- The tag a device builds itself for the edge after next: its own TIS, the epoch in force and COMMIT_NOW = 0, or in
MASTER mode the commit that TICK_GEN_CMT requested (R48). -/
def State.ownTag (s : State) : Nat :=
  let tis := s.f Rg.TICK_STAT Fd.TICK_STAT_TIS + 2
  match s.tk.genCmt with
  | some e => if s.tk.mode = 2 then mkTag tis e 1 else mkTag tis s.sysNext 0
  | none => mkTag tis s.sysNext 0

/-- Whether the incoming edge of the coming boundary was accepted at least 16 clocks before the outgoing edge (R48, R49). -/
def State.canRepeat (s : State) (out : Nat) : Bool :=
  let b : Int := s.tk.start + s.tickLen
  s.tk.edges.any fun e =>
    let x : Int := e.time + s.skew
    decide (b - 1024 ≤ x ∧ x ≤ b + 1023) && decide (e.time + 16 ≤ out)

/-- The SYNC_OUT edge and tag sent OUT_ADV clocks before the coming boundary, as OUT_MODE selects (R48). `cells` are the
cells of the tag that follows the incoming edge of that boundary, `timely` that each was decoded when its outgoing cell
was due. In MASTER the tag also counts as received in the tick in which it is sent (R47). -/
def State.syncOut (s : State) (cells : List (Bool × Bool)) (timely : Bool) : State :=
  let out := s.tk.start + s.tickLen - s.f Rg.TICK_SKEW Fd.TICK_SKEW_OUT_ADV
  let mode := s.f Rg.TICK_CTRL Fd.TICK_CTRL_OUT_MODE
  let own := s.ownTag
  let s1 : State := { s with tk := { s.tk with
    genCmt := if s.tk.mode = 2 then none else s.tk.genCmt
    sentTag := if s.tk.mode = 2 then some own else none } }
  if mode = 0 then s1.emit (.pin "SYNC_OUT" false)
  else if mode = 1 ∧ s.tk.mode = 1 then
    if s.tkState = tkLocked ∧ s.canRepeat out then
      let (w, whole) := manchester cells
      let h := w / 2 ^ 13 * 2 ^ 13
      let bad := !whole || tagCrc w != w % 256 || !timely
      s1.emit (.sync out (h + (if bad then tagCrc h ^^^ 0xFF else tagCrc h)) bad)
    else
      let w := mkTag (s.f Rg.TICK_STAT Fd.TICK_STAT_TIS + 2) s.sysNext 0
      s1.emit (.sync out w false)
  else s1.emit (.sync out own false)

/-- SYNC_OUT_EDGE (R48, R49). -/
def execSyncOutEdge (cells : List (Bool × Bool)) (timely : Bool) (s : State) : Out := .next (s.syncOut cells timely)

/-- The tag that the record of an edge at time `t` shows, replaced. -/
def retag (t w : Nat) : Emit → Emit
  | .sync x w' bad => if x = t then .sync x w bad else .sync x w' bad
  | e => e

/-- The next tag of a MASTER (R48) for a write in clock `clk`: the tag of an edge that has left is still next until its first cell, 200 clocks
after the edge (R39); that edge may be the one before the coming boundary, or the one before the boundary that began this tick. Otherwise the
next edge's tag carries the commit. -/
def State.genNext (s : State) (clk e : Nat) : State :=
  let adv := s.f Rg.TICK_SKEW Fd.TICK_SKEW_OUT_ADV
  let tis := s.f Rg.TICK_STAT Fd.TICK_STAT_TIS
  if s.tk.sentTag.isSome ∧ clk + adv < s.tickLen + 200 then
    let w := mkTag (tis + 2) e 1
    { s with tk := { s.tk with sentTag := some w }, out := s.out.map (retag (s.tk.start + s.tickLen - adv) w) }
  else if s.tk.sentTag = none ∧ s.tk.curTag.isSome ∧ clk + adv < 200 then
    let w := mkTag (tis + 1) e 1
    { s with tk := { s.tk with curTag := some w }, out := s.out.map (retag (s.tk.start - adv) w) }.wr Rg.TICK_LAST_TAG w
  else { s with tk := { s.tk with genCmt := some e } }

/-- A write of TICK_GEN_CMT (R48): ignored and flagged in any mode other than MASTER, or for an EPOCH not later than SYS. -/
def State.tickGenCmt (s : State) (clk v : Nat) : State :=
  if !bit v 31 then s
  else if s.tk.mode = 2 ∧ epochLater (v % 4096) (s.f Rg.CMT_EPOCH Fd.CMT_EPOCH_SYS) then s.genNext clk (v % 4096)
  else s.setInt Pg.TICK Ib.TICK_REFUSED

/-- TICK_GEN_CMT (R48). -/
def execTickGenCmt (a : Acc) (v : Word) (s : State) : Out :=
  .next (s.onWrite a Rg.TICK_GEN_CMT fun t => t.tickGenCmt a.clk v.toNat)

/-- Whether a commit applies at the coming boundary as things stand (R61, R62). -/
def State.commitComing (s : State) : Bool :=
  s.f Rg.CMT_STAT Fd.CMT_STAT_STATE == 4 &&
    (if s.f Rg.CMT_CTRL Fd.CMT_CTRL_COMMIT_MODE = 0 then !s.cm.armLate else s.cm.apply)

/-- Clock 1,800: the length of the tick is fixed, and the plan goes to the T-die over both paths (R23, R405). -/
def State.tickPlan (s : State) (viaLink viaMgmt : Bool) : State :=
  { s with
    tk := { s.tk with fixed := true, bounds := s.tk.bounds.map fun b => { b with fixed := b.fixed + s.tk.corr } }
    cm := { s.cm with planSent := true, planCommit := s.commitComing,
                      planArrived := (viaLink && !s.d2dDown) || (viaMgmt && s.d2.mgmtUp) } }

/-- TICK_PLAN (R23). -/
def execTickPlan (viaLink viaMgmt : Bool) (s : State) : Out := .next (s.tickPlan viaLink viaMgmt)

/-- The T-die's decision on one strobe from four copies (R23): three or four that agree decide; two against two are
settled by the plan (`tie`). Answers the value, and whether the copies disagreed. -/
def voteStrobe (copies : Nat) (tie : Bool) : Bool × Bool :=
  let n := popcount 4 copies
  (if 3 ≤ n then true else if n ≤ 1 then false else tie, n != 0 && n != 4)

end Sys2Proof.Machine
end

