-- ==== Sys2Proof/Machine/FabricRx.lean ====
section
/-! DEFINITION. The receive side of the fabric interface (chapter 11, R248 to R259, R262, R264 to R268, R272): lanes, alignment,
defects, the slip buffer, cells, reorder and reassembly into the egress pool. -/
namespace Sys2Proof.Machine

/-! ## Lanes, defects and service -/

/-- A fabric lane. -/
def State.lane (s : State) (l : Nat) : FabLane := sget {} s.fab.lanes l

/-- A fabric lane replaced. -/
def State.setLane (s : State) (l : Nat) (x : FabLane) : State := { s with fab := { s.fab with lanes := sset {} s.fab.lanes l x } }

/-- ALIGN of a lane: 0 HUNT, 1 CAND, 2 CONFIRM, 3 LOCKED (R257). -/
def State.align (s : State) (l : Nat) : Nat := s.f (Rg.FFRM_LANE_STAT l) Fd.FFRM_LANE_STAT_ALIGN

/-- Whether a link is in service (R259). -/
def State.inService (s : State) (l : Nat) : Bool := s.fb (Rg.FFRM_LANE_STAT l) Fd.FFRM_LANE_STAT_IN_SERVICE

/-- The links in service, ascending. -/
def State.links (s : State) : List Nat := (List.range s.part.fabLanes).filter s.inService

/-- The declared defects of a lane, LOS in bit 6 down to DEG in bit 0 (R258). -/
def State.defects (s : State) (l : Nat) : Nat := bits (s.rd (Rg.FFRM_LANE_STAT l)) 21 7

/-- A lane's reported defects or its service changed (FFRM_CHG). -/
def State.laneChg (s : State) (l : Nat) : State := s.wr (Rg.FFRM_CHG (l / 32)) (setBit (s.rd (Rg.FFRM_CHG (l / 32))) (l % 32))

/-- The declared defects set; the one reported is that of the lowest order number, which is the highest bit (R258). What is reported
while a second passes enters its performance monitoring (R278). -/
def State.setDefects (s : State) (l d : Nat) : State :=
  let old := s.defects l
  let s1 := s.wr (Rg.FFRM_LANE_STAT l) (setBits (s.rd (Rg.FFRM_LANE_STAT l)) 21 7 d)
  let top (x : Nat) : Nat := if x = 0 then 0 else x.log2 + 1
  let s2 := if 4 ≤ d then s1.setLane l { s1.lane l with sawSes := true } else s1
  if top old = top d then s2 else (s2.laneChg l).setInt Pg.FFRM Ib.FFRM_DEFECT

/-- One defect (0 DEG, 1 RDI, 2 TIM, 3 LOM, 4 LOF, 5 LOL, 6 LOS) declared or cleared. -/
def State.defect (s : State) (l i : Nat) (on : Bool) : State :=
  if bit (s.defects l) i = on then s else s.setDefects l (setBits (s.defects l) i 1 (b2n on))

/-- The planes that a link in service reaches by a SPRAY entry of the active page. -/
def State.planesOf (s : State) (l : Nat) : Nat :=
  let pg := s.f Rg.FCELL_CAL Fd.FCELL_CAL_PAGE
  (List.range 99).foldl (fun m k =>
    let e := s.tbl Pg.FCELL 0 (pg * 2 ^ 16 + l * 2 ^ 8 + k + 1)
    if e / 2 ^ 30 = 1 then setBit m (bits e 16 4) else m) 0

/-- REACH of a destination device (R260). -/
def State.reach (s : State) (d : Nat) : Nat := s.tbl Pg.FCELL 1 d

/-- This device's ID (R265). -/
def State.devId (s : State) : Nat := s.f Rg.FCELL_CFG Fd.FCELL_CFG_DEV_ID

/-- The planes that any link in service reaches. -/
def State.planesUp (s : State) : Nat := s.links.foldl (fun m l => m ||| s.planesOf l) 0

/-- Whether a destination device can be reached: by the fabric (R264), or by the local loop (R27). -/
def State.reachable (s : State) (d : Nat) : Bool := d == s.devId || (s.reach d &&& s.planesUp) != 0

/-- FCELL_UNREACH brought up to date (R264). -/
def State.unreachRefresh (s : State) : State :=
  let up := s.planesUp
  let word (i : Nat) : Nat := maskOf ((List.range 32).filter fun b => (s.reach (32 * i + b) &&& up) == 0)
  let ch := (List.range 64).filter fun i => word i != s.rd (Rg.FCELL_UNREACH i)
  let s1 := ch.foldl (fun t i => t.wr (Rg.FCELL_UNREACH i) (word i)) s
  s1.setIntIf (!ch.isEmpty) Pg.FCELL Ib.FCELL_UNREACH

/-- A link enters or leaves service (R259). -/
def State.setService (s : State) (l : Nat) (on : Bool) : State :=
  if s.inService l = on then s else
  let s1 := s.setF (Rg.FFRM_LANE_STAT l) Fd.FFRM_LANE_STAT_IN_SERVICE (b2n on)
  ((s1.laneChg l).setInt Pg.FFRM Ib.FFRM_SERVICE).unreachRefresh

/-- Whether nothing bars a link from service at this moment (R259). -/
def State.laneClean (s : State) (l : Nat) : Bool :=
  s.fabOn l && s.defects l / 2 == 0 && (s.defects l % 2 == 0 || !s.fb Rg.FFRM_DEG_CFG Fd.FFRM_DEG_CFG_DEG_ACTION)

/-- LINK_IN_SERVICE (R259). -/
def State.linkIn (s : State) (l : Nat) : State :=
  if s.laneClean l && decide (s.f Rg.FFRM_CFG Fd.FFRM_CFG_CLEAR_TICKS ≤ (s.lane l).clean) then s.setService l true else s

/-- LINK_IN_SERVICE (R259). -/
def execLinkInService (lane : Nat) (s : State) : Out := .next (s.linkIn lane)

/-- Alignment lost: delivery stops, and the header runs start afresh (R257). -/
def State.laneHunt (s : State) (l : Nat) : State :=
  let x := s.lane l
  let s1 := (s.setF (Rg.FFRM_LANE_STAT l) Fd.FFRM_LANE_STAT_ALIGN 0).setLane l
    { x with badRun := 0, fn := none, fnBad := 0, fnGood := 0, fnJump := none, timBad := 0, timGood := 0, rdiOn := 0, rdiOff := 0 }
  s1.defect l 4 true

/-- FABRIC_SIGNAL_LOSS: the lane loses signal detect, CDR lock or FEC codeword lock (R258). -/
def State.sigLoss (s : State) (l : Nat) (signal cdr fec : Bool) : State :=
  if !s.fabOn l then s else
  let a := Rg.FSER_LANE_STAT (l / 8) (l % 8)
  let s1 := if signal then (s.setF a Fd.FSER_LANE_STAT_SIGNAL_DETECT 0).defect l 6 true else s
  let s2 := if cdr then (s1.setF a Fd.FSER_LANE_STAT_CDR_LOCK 0).defect l 5 true else s1
  if fec then ((s2.setF a Fd.FSER_LANE_STAT_FEC_LOCK 0).defect l 5 true).laneHunt l else s2

/-- FABRIC_SIGNAL_LOSS (R258). -/
def execFabricSignalLoss (lane : Nat) (signal cdr fec : Bool) (s : State) : Out := .next (s.sigLoss lane signal cdr fec)

/-- FABRIC_SIGNAL_RETURN: signal detect, CDR lock and FEC codeword lock are back (R258). -/
def State.sigReturn (s : State) (l : Nat) : State :=
  if !s.fabOn l then s else
  let a := Rg.FSER_LANE_STAT (l / 8) (l % 8)
  let tr := if s.fb (Rg.FSER_LANE_CFG (l / 8) (l % 8)) Fd.FSER_LANE_CFG_TRAIN_EN then 2 else s.f a Fd.FSER_LANE_STAT_TRAIN
  ((s.wr a (7 * 2 ^ 29 + tr * 2 ^ 24)).defect l 6 false).defect l 5 false

/-- FABRIC_SIGNAL_RETURN (R258). -/
def execFabricSignalReturn (lane : Nat) (s : State) : Out := .next (s.sigReturn lane)

/-- FSER_LANE_CFG written: a lane whose EN falls loses signal, lock and alignment, one whose EN rises starts training (R248). -/
def State.fserCfgWrite (s : State) (g n v : Nat) : State :=
  let a := Rg.FSER_LANE_CFG g n
  let l := 8 * g + n
  let was := s.fb a Fd.FSER_LANE_CFG_EN
  let s1 := s.fieldWrite a v
  let now := s1.fb a Fd.FSER_LANE_CFG_EN
  if was = now then s1
  else if now then (if s1.fb a Fd.FSER_LANE_CFG_TRAIN_EN then s1.setF (Rg.FSER_LANE_STAT g n) Fd.FSER_LANE_STAT_TRAIN 1 else s1)
  else (((s1.wr (Rg.FSER_LANE_STAT g n) 0).defect l 6 true).defect l 5 true).laneHunt l

/-! ## Alignment (R257) -/

/-- The frame alignment signal (R249). -/
def fasWord : Nat := 0x3A7CD1E496B05F28C5A30E9D7B46E21F

/-- HCRC: CRC-16 over header bits [127:16] from 0xFFFF (R250). -/
def hcrc (h : Nat) : Nat := crc16 0xFFFF (bitsOf 112 (h / 2 ^ 16))

/-- Whether a header's HCRC checks. -/
def hdrOk (h : Nat) : Bool := hcrc h == h % 2 ^ 16

/-- A frame position with the 16 bytes found at it and the header that follows (R257). -/
def State.framePos (s : State) (l fas hdr : Nat) : State :=
  if !s.fabOn l || !s.fb (Rg.FSER_LANE_STAT (l / 8) (l % 8)) Fd.FSER_LANE_STAT_FEC_LOCK then s else
  let good := fas == fasWord && hdrOk hdr
  let set (t : State) (st : Nat) : State := t.setF (Rg.FFRM_LANE_STAT l) Fd.FFRM_LANE_STAT_ALIGN st
  let x := s.lane l
  let st := s.align l
  if st = 3 then
    if good then s.setLane l { x with badRun := 0 } else
    let s1 := (s.bump (Rg.FFRM_HDR_ERR_CNT l)).setLane l
      { x with badRun := x.badRun + 1, fn := x.fn.map fun n => (n + 1) % 64, fnJump := none, sawErr := true }
    if 4 ≤ x.badRun + 1 then s1.laneHunt l else s1
  else if !good then set s 0
  else if st = 2 then (set s 3).defect l 4 false
  else set s (st + 1)

/-- FRAME_POSITION (R257). -/
def execFramePosition (lane fas hdr : Nat) (s : State) : Out := .next (s.framePos lane fas hdr)

/-! ## Headers (R250, R256, R258, R262) -/

/-- The frame number of a header judged (R256). -/
def State.fnJudge (s : State) (l n : Nat) : State :=
  let x := s.lane l
  let good (t : State) (g : Nat) : State :=
    let t1 := t.setLane l { x with fn := some ((n + 1) % 64), fnJump := none, fnBad := 0, fnGood := g }
    if 2 ≤ g then t1.defect l 3 false else t1
  match x.fn with
  | none => good s 1
  | some e =>
    if n = e then good s (x.fnGood + 1)
    else if x.fnJump = some n then good ((s.bump Rg.FFRM_FN_JUMP_CNT).setInt Pg.FFRM Ib.FFRM_FN_JUMP) 1
    else
      let s1 := s.setLane l { x with fn := some ((e + 1) % 64), fnJump := some ((n + 1) % 64), fnBad := x.fnBad + 1, fnGood := 0 }
      if 4 ≤ x.fnBad + 1 then s1.defect l 3 true else s1

/-- The identity of a header judged against FFRM_EXPECT (R258, TIM). -/
def State.timJudge (s : State) (l h : Nat) : State :=
  let a := Rg.FFRM_EXPECT l
  let miss := s.fb a Fd.FFRM_EXPECT_EXP_EN && (s.f a Fd.FFRM_EXPECT_ROLE != bits h 119 1 || s.f a Fd.FFRM_EXPECT_ID != bits h 108 11 ||
    s.f a Fd.FFRM_EXPECT_LANE != bits h 101 7)
  let x := s.lane l
  if miss then
    let s1 := s.setLane l { x with timBad := x.timBad + 1, timGood := 0 }
    if 3 ≤ x.timBad + 1 then s1.defect l 2 true else s1
  else
    let s1 := s.setLane l { x with timBad := 0, timGood := x.timGood + 1 }
    if 3 ≤ x.timGood + 1 then s1.defect l 2 false else s1

/-- RDI of a header judged (R258). -/
def State.rdiJudge (s : State) (l h : Nat) : State :=
  let x := s.lane l
  if bit h 120 then
    let s1 := s.setLane l { x with rdiOn := x.rdiOn + 1, rdiOff := 0 }
    if 2 ≤ x.rdiOn + 1 then s1.defect l 1 true else s1
  else
    let s1 := s.setLane l { x with rdiOn := 0, rdiOff := x.rdiOff + 1 }
    if 2 ≤ x.rdiOff + 1 then s1.defect l 1 false else s1

/-- A header of a LOCKED lane whose HCRC checks (R250, R256, R258, R262). -/
def State.header (s : State) (l h : Nat) : State :=
  if !s.fabOn l || s.align l != 3 || !hdrOk h then s else
  let a := Rg.FFRM_LANE_STAT l
  let s1 := ((s.setF a Fd.FFRM_LANE_STAT_RX_ROLE (bits h 119 1)).setF a Fd.FFRM_LANE_STAT_RX_ID (bits h 108 11)).setF
    a Fd.FFRM_LANE_STAT_RX_LANE (bits h 101 7)
  let s2 := ((s1.fnJudge l (bits h 122 6)).timJudge l h).rdiJudge l h
  if !bit h 119 then s2 else
    let x := s2.lane l
    s2.setLane l { x with xoffDue := x.xoffDue ++ [(s2.tk.count + 2, bit h 93, bits h 29 64)] }

/-- FRAME_HEADER_RECEIVE (R258). -/
def execFrameHeaderReceive (lane hdr : Nat) (s : State) : Out := .next (s.header lane hdr)

/-- FABRIC_XOFF_APPLY: the values that are due come into force (R262). -/
def State.xoffApply (s : State) (l : Nat) : State :=
  let x := s.lane l
  match (x.xoffDue.filter fun e => decide (e.1 ≤ s.tk.count)).getLast? with
  | none => s
  | some (_, on, groups) =>
    (s.setF (Rg.FFRM_LANE_STAT l) Fd.FFRM_LANE_STAT_XOFF (b2n on)).setLane l
      { x with xoffLane := on, xoffGroups := groups, xoffDue := x.xoffDue.filter fun e => !decide (e.1 ≤ s.tk.count) }

/-- FABRIC_XOFF_APPLY (R262). -/
def execFabricXoffApply (lane : Nat) (s : State) : Out := .next (s.xoffApply lane)

/-- The back-pressure on a transmit lane for the frame that begins at the next boundary (R262). -/
def State.xoffAt (s : State) (l : Nat) : Bool × Nat :=
  let x := s.lane l
  match (x.xoffDue.filter fun e => decide (e.1 ≤ s.tk.count + 1)).getLast? with
  | none => (x.xoffLane, x.xoffGroups)
  | some (_, on, groups) => (on, groups)

/-! ## The slip buffer (R255) -/

/-- A complete frame of a LOCKED lane enters its slip buffer. -/
def State.frameIn (s : State) (l hdr : Nat) (msgs : List Nat) (cells : List (Nat × List Byte)) : State :=
  if !s.fabOn l || s.align l != 3 then s else
  let pad := hdrOk hdr && bit hdr 121
  let x := s.lane l
  if s.fb Rg.FFRM_CFG Fd.FFRM_CFG_TIMING && pad && !x.slip.isEmpty then s.bump (Rg.FSER_PAD_SLIP_CNT (l / 8) (l % 8))
  else
    let q := x.slip ++ [⟨pad, msgs.take 18, cells.take 99⟩]
    if q.length ≤ 4 then s.setLane l { x with slip := q }
    else ((s.setLane l { x with slip := q.drop 1 }).bump (Rg.FSER_DATA_SLIP_CNT (l / 8) (l % 8))).setInt
      (Pg.FSER (l / 8)) (Ib.FSER_DATA_SLIP (l % 8))

/-- FRAME_RECEIVE (R255). -/
def execFrameReceive (lane hdr : Nat) (msgs : List Nat) (cells : List (Nat × List Byte)) (s : State) : Out :=
  .next (s.frameIn lane hdr msgs cells)

/-- CRC-8 with polynomial 0x07 over message bits [95:8] (R251). -/
def mcrc (m : Nat) : Nat := (bitsOf 88 (m / 256)).foldl crc8Step 0

/-- A delivered message judged: EMPTY and bad ones go no further (R251). -/
def State.takeMsg (s : State) (m : Nat) : State :=
  if mcrc m ≠ m % 256 ∨ 5 ≤ bits m 93 3 then s.bump Rg.FCRD_MSG_ERR_CNT
  else if bits m 93 3 = 0 then s
  else { s with fab := { s.fab with rxMsgs := s.fab.rxMsgs ++ [m] } }

/-- One lane delivers its oldest complete frame (R255). A pad frame's cells and messages are not used (R254). -/
def State.deliver (s : State) (l : Nat) : State :=
  if !s.fabOn l then s else
  let x := s.lane l
  match x.slip with
  | [] => if x.lastPad then s.bump (Rg.FSER_PAD_SLIP_CNT (l / 8) (l % 8)) else s
  | f :: rest =>
    let s1 := s.setLane l { x with slip := rest, lastPad := f.pad }
    if f.pad || !s.fb Rg.FCELL_CFG Fd.FCELL_CFG_EN then s1 else
    let s2 := f.msgs.foldl State.takeMsg s1
    { s2 with fab := { s2.fab with rxCells := s2.fab.rxCells ++ f.cells.map fun c => (l, c.1, c.2) } }

/-- FRAME_DELIVER (R255): every lane, ascending. -/
def execFrameDeliver (s : State) : Out := .next ((List.range s.part.fabLanes).foldl State.deliver s)

/-! ## Cells (R252, R266) -/

/-- The cell CRC over header bits [127:32] and the payload (R252). -/
def cellCrc (h : Nat) (payload : List Byte) : Nat :=
  (bitsOf 96 (h / 2 ^ 32) ++ byteBits payload).foldl crc32mStep 0xFFFFFFFF ^^^ 0xFFFFFFFF

/-- A cell read from its header and payload. -/
def cellOf (lane h : Nat) (payload : List Byte) : Cell :=
  { typ := bits h 124 4, dst := bits h 113 11, src := bits h 102 11, voq := bits h 82 20, seq := bits h 66 16, sop := bit h 65
    off := bits h 57 8, fill := bits h 49 8, stomp := bit h 48, circuit := bits h 36 12, sseq := bits h 32 4, payload := payload, lane := lane }

/-- Reorder of a source. -/
def State.reord (s : State) (src : Nat) : ReorderSt := sget {} s.fab.reorder src

/-- Cells held by all sources (R267). -/
def State.heldCells (s : State) : Nat := (s.fab.reorder.map (·.2.held.length)).sum

/-- Cells held in the share of the reorder buffer of cell engine `e`: those of links of its groups (R267, R403). -/
def State.heldOf (s : State) (e : Nat) : Nat :=
  (s.fab.reorder.map fun x => x.2.held.countP fun c => c.1.lane / 48 == e).sum

/-- A source's reorder stage replaced, with REORDER_USED and the peaks of the cell engines. -/
def State.setReord (s : State) (src : Nat) (x : ReorderSt) : State :=
  let s1 : State := { s with fab := { s.fab with reorder := sset {} s.fab.reorder src x } }
  [0, 1].foldl (fun (t : State) (e : Nat) => t.peak (Rg.FCE_REORDER_PEAK e) (max (s.heldOf e) (s1.heldOf e)))
    (s1.setF Rg.FCELL_STAT Fd.FCELL_STAT_REORDER_USED s1.heldCells)

/-- A cell released to reassembly. -/
def State.release (s : State) (c : Cell) : State := { s with fab := { s.fab with asm := s.fab.asm ++ [c] } }

/-- Cells held in order from E on are released (R267). -/
def State.releaseRun (s : State) (src : Nat) : Nat → State
  | 0 => s
  | n + 1 =>
    let x := s.reord src
    match x.held.find? fun e => e.1.seq == x.e with
    | none => s
    | some c => State.releaseRun ((s.setReord src { x with e := (x.e + 1) % 65536, held := x.held.erase c }).release c.1) src n

/-- The distance from E to the oldest held cell in sequence. -/
def ReorderSt.gap (x : ReorderSt) : Nat :=
  x.held.foldl (fun m e => min m ((e.1.seq + 65536 - x.e) % 65536)) 65536

/-- E advances past the missing cells to the oldest held cell (R267). -/
def State.skipGap (s : State) (src : Nat) : State :=
  let x := s.reord src
  if x.held.isEmpty then s else
  ((s.setReord src { x with e := (x.e + x.gap) % 65536 }).bump Rg.FCELL_REORDER_SKIP_CNT x.gap).releaseRun src (x.held.length + 1)

/-- All held cells of a source released, with their gaps skipped. -/
def State.skipAll (s : State) (src : Nat) : Nat → State
  | 0 => s
  | n + 1 => if (s.reord src).held.isEmpty then s else State.skipAll (s.skipGap src) src n

/-- The source with the oldest held cell. -/
def State.oldestHeld (s : State) : Option Nat :=
  (s.fab.reorder.foldl (fun (m : Option (Nat × Nat)) e =>
    e.2.held.foldl (fun m c => match m with
      | some (_, t) => if c.2 < t then some (e.1, c.2) else m
      | none => some (e.1, c.2)) m) none).map (·.1)

/-- A DATA cell goes to the reorder stage of its source (R267). -/
def State.reorderCell (s : State) (c : Cell) : State :=
  let now := s.tk.count
  let x0 := s.reord c.src
  let restart := match x0.last with
    | none => true
    | some t => decide (t + 64 ≤ now)
  let s0 : State := if restart then s.skipAll c.src (x0.held.length + 1) else s
  let x : ReorderSt := { s0.reord c.src with e := if restart then c.seq else (s0.reord c.src).e, last := some now }
  let d := (c.seq + 65536 - x.e) % 65536
  if d = 0 then ((s0.setReord c.src { x with e := (x.e + 1) % 65536 }).release c).releaseRun c.src (x.held.length + 1)
  else if 32767 < d ∨ x.held.any (fun e => e.1.seq == c.seq) then (s0.setReord c.src x).bump Rg.FCELL_REORDER_LATE_CNT
  else
    let s1 := s0.setReord c.src x
    let s2 : State := if 32768 ≤ s1.heldCells then (match s1.oldestHeld with
      | some src => s1.skipGap src
      | none => s1) else s1
    let y := s2.reord c.src
    let d2 := (c.seq + 65536 - y.e) % 65536
    if d2 = 0 then ((s2.setReord c.src { y with e := (y.e + 1) % 65536 }).release c).releaseRun c.src (y.held.length + 1)
    else if 32767 < d2 then s2.bump Rg.FCELL_REORDER_LATE_CNT
    else s2.setReord c.src { y with held := y.held ++ [(c, now)] }

/-- The enabled receive circuit that a CIRCUIT cell matches (R263). -/
def State.rxCircuit (s : State) (src circuit : Nat) : Option Nat :=
  (((s.tbls.filter fun e => decide (tkey Pg.FCELL 3 0 ≤ e.1 ∧ e.1 < tkey Pg.FCELL 3 4096)).find? fun e =>
    bit e.2 31 && bits e.2 12 11 == src && bits e.2 0 12 == circuit).map fun e => e.1 % 2 ^ 32)

/-- The oldest delivered cell is checked and passed on (R266). -/
def State.cellIn (s : State) : State :=
  match s.fab.rxCells with
  | [] => s
  | (l, h, p) :: rest =>
    let s0 : State := { s with fab := { s.fab with rxCells := rest } }
    if s0.d2dDown then s0 else
    let c := cellOf l h p
    if cellCrc h p ≠ h % 2 ^ 32 then
      (s0.bump (Rg.FFRM_CELL_ERR_CNT l)).setLane l { s0.lane l with degErr := (s0.lane l).degErr + 1, sawErr := true }
    else if c.typ = 0 then s0
    else if 3 ≤ c.typ then s0.bump Rg.FCELL_CELL_ERR_CNT
    else if c.dst ≠ s0.devId then (s0.bump Rg.FCELL_MISROUTE_CNT).setInt Pg.FCELL Ib.FCELL_MISROUTE
    else if c.typ = 1 then (s0.bump64 Rg.FCELL_RX_CELL_CNT_LO).reorderCell c
    else match s0.rxCircuit c.src c.circuit with
    | none => s0.bump Rg.FCELL_CIRC_ERR_CNT
    | some _ => (s0.bump64 Rg.FCELL_RX_CELL_CNT_LO).release c

/-- CELL_RECEIVE (R266). -/
def execCellReceive (s : State) : Out := .next s.cellIn

/-- A held cell of a source has waited REORDER_TICKS ticks (R267). -/
def State.gapTimeout (s : State) (src : Nat) : State :=
  if (s.reord src).held.any fun e => decide (e.2 + s.f Rg.FCELL_CFG Fd.FCELL_CFG_REORDER_TICKS ≤ s.tk.count) then s.skipGap src else s

/-- REORDER_GAP_TIMEOUT (R267). -/
def execReorderGapTimeout (src : Nat) (s : State) : Out := .next (s.gapTimeout src)

/-! ## Reassembly (R268, R272) -/

/-- Units that live tags hold, and those for a queue (R231). -/
def State.granted (s : State) : Nat := (s.fab.tags.map (·.2.units)).sum
def State.grantedTo (s : State) (eq : Nat) : Nat := ((s.fab.tags.filter fun e => e.2.eq == eq).map (·.2.units)).sum

/-- Room of a queue and of the pool outside all reservations (R231). -/
def State.eqRoom (s : State) (eq : Nat) : Int := (bits (s.eqEnt eq) 32 18 : Int) - s.eqCells eq - s.grantedTo eq
def State.poolRoom (s : State) : Int := (131072 : Int) - s.f Rg.EQS_POOL_STAT Fd.EQS_POOL_STAT_USED - s.granted

/-- A tag that stands for none. -/
def noTag : LiveTag := { src := 0, eq := 0, units := 0, tick := 0 }

/-- Live tags replaced, with GRANTS_LIVE and EQS_POOL_GRANTED. -/
def State.setTags (s : State) (m : Sparse LiveTag) : State :=
  let s1 : State := { s with fab := { s.fab with tags := m } }
  (s1.setF Rg.FCRD_STAT Fd.FCRD_STAT_GRANTS_LIVE m.length).wr Rg.EQS_POOL_GRANTED s1.granted

/-- A packet's head settled against its tag: whether it is accepted (R272). -/
def State.settle (s : State) (src eq len u tag : Nat) : State × Bool :=
  match s.fab.tags.find? (·.1 == tag) with
  | some (_, g) =>
    if g.src = src ∧ g.eq = eq ∧ u ≤ g.units then
      (s.setTags (if g.units = u then sdel s.fab.tags tag else sset noTag s.fab.tags tag { g with units := g.units - u }), true)
    else late s
  | none => late s
where
  late (s : State) : State × Bool :=
    let s1 := s.bump Rg.FCRD_LATE_PKT_CNT
    if (cellsOf len : Int) ≤ s1.eqRoom eq ∧ (cellsOf len : Int) ≤ s1.poolRoom then (s1, true)
    else ((s1.bump Rg.FCRD_LATE_DROP_CNT).setInt Pg.FCRD Ib.FCRD_LATE_DROP, false)

/-- A packet's whole descriptor has arrived: its queue is found and its credit settled; answers the packet's pool number, `none`
where it is discarded (R268, R272, R230). -/
def State.newPacket (s : State) (src voq : Nat) (d : List Byte) : State × Option Nat :=
  let w := beNat (d.take 8)
  let len := bits w 50 14
  let ext := bit w 26
  let map := s.tbl Pg.EQS 0 (voq / 8)
  if 131072 ≤ voq / 8 || !bit map 31 then (s.bump Rg.FCELL_PORT_ERR_CNT, none) else
  let eq := 8 * (map % 2 ^ 15) + voq % 8
  let (s1, ok) := s.settle src eq len (ceilDiv (len + 8 + (if ext then 16 else 0)) 240) (bits w 10 16)
  if !ok then (s1, none) else
  let id := s1.eg.next
  let s2 := s1.putEpkt id { eq := eq, len := len, hint := bits w 27 23, scratch := if ext then beNat ((d.drop 8).take 10) else 0, src := src }
  ({ s2 with eg := { s2.eg with next := id + 1, fresh := s2.eg.fresh ++ [id] } }, some id)

/-- A packet lost in reassembly (R268). -/
def State.lossDrop (s : State) : State := (s.bump Rg.FCELL_LOSS_DROP_CNT).setInt Pg.FCELL Ib.FCELL_LOSS_DROP

/-- The packet in progress of a context discarded: it leaves the pool, or its descriptor is dropped (R268). -/
def State.rsmDiscard (s : State) (x : RsmSt) : State × RsmSt :=
  let y := { x with cur := none, desc := [], skip := true }
  match x.cur with
  | some (some id, _) => ((s.dropEpkt id).lossDrop, y)
  | some (none, _) => (s, y)
  | none => (if x.desc.isEmpty then s else s.lossDrop, y)

/-- The bytes that a context still lacks before it can know its packet, from what it has gathered. -/
def descNeed (d : List Byte) : Nat := if d.length < 8 then 8 - d.length else if bit (beNat (d.take 8)) 26 then 24 - d.length else 0

/-- A cell's bytes from position `pos` on fed to its context; `first` until the cell's first own descriptor has started (R252, R268). -/
def State.feed (s : State) (c : Cell) (x : RsmSt) (pos : Nat) (first : Bool) : Nat → State × RsmSt
  | 0 => (s, x)
  | fuel + 1 =>
    let left := c.fill - pos
    if left = 0 then (if first && c.sop then s.rsmDiscard x else (s, x)) else
    if x.skip then
      (if c.sop && first then State.feed s c { x with skip := false, cur := none, desc := [] } c.off first fuel else (s, x))
    else match x.cur with
    | some (id, r) =>
      let fits := !first || (if r < left then c.sop && c.off == pos + r else !c.sop)
      if !fits then
        let (s1, y) := s.rsmDiscard x
        State.feed s1 c y pos first fuel
      else
        let n := min r left
        let data := (c.payload.drop pos).take n
        let ends := decide (n = r)
        let s1 := match id with
          | some k => s.poolFeed k data (ends && pos + n == c.fill && c.stomp)
          | none => s
        State.feed s1 c { x with cur := if ends then none else some (id, r - n) } (pos + n) first fuel
    | none =>
      if x.desc.isEmpty && first && !(c.sop && c.off == pos) then
        State.feed s c { x with skip := true } pos first fuel
      else
        let first' := first && !x.desc.isEmpty
        let n := min (descNeed x.desc) left
        let d := x.desc ++ (c.payload.drop pos).take n
        if n < descNeed x.desc || 0 < descNeed d then State.feed s c { x with desc := d } (pos + n) first' fuel
        else
          let (s1, id) := s.newPacket c.src c.voq d
          State.feed s1 c { x with desc := [], cur := some (id, bits (beNat (d.take 8)) 50 14) } (pos + n) first' fuel

/-- The oldest cell released to reassembly; `buf`: an error that reading its stored words meets; uncorrectable, the cell counts as one with a CRC error
(R305, class 11). While the die-to-die link is DOWN, cells are discarded (R266). -/
def State.reassemble (s : State) (buf : Option MemErr) : State :=
  match s.fab.asm with
  | [] => s
  | c :: rest =>
    let e := if c.lane < 96 then c.lane / 48 else 0
    let r := s.dataErr (Pg.FCE e) 11 buf
    let bad := !r.2
    let s := r.1.bumpIf bad (Rg.FCE_UNCORR_CNT e)
    let s0 : State := { s with fab := { s.fab with asm := rest } }
    if s0.d2dDown then s0
    else if bad then (if c.lane < 96 then s0.bump (Rg.FFRM_CELL_ERR_CNT c.lane) else s0)
    else
      let key := if c.typ = 2 then (match s0.rxCircuit c.src c.circuit with
        | some i => 2 ^ 20 + i
        | none => 2 ^ 20 + 4096) else 8 * c.src + c.voq % 8
      let x := sget {} s0.fab.rsm key
      let (seq, m) := if c.typ = 2 then (c.seq, 65536) else (c.sseq, 16)
      let gap := x.sseq.isSome && x.sseq != some seq
      let (s1, y) := if gap then s0.rsmDiscard x else (s0, x)
      let (s2, z) := s1.feed c y 0 true 1024
      { s2 with fab := { s2.fab with rsm := sset {} s2.fab.rsm key { z with sseq := some ((seq + 1) % m) } } }

/-- REASSEMBLY (R268). -/
def execReassembly (buf : Option MemErr) (s : State) : Out := .next (s.reassemble buf)

end Sys2Proof.Machine
end

