-- ==== Sys2Proof/Machine/FabricTx.lean ====
section
/-! DEFINITION. The transmit side of the fabric interface (chapter 11, R26, R27, R252, R253, R260 to R264, R273, R224): streams,
cells, the calendar fill and the local loop; the FCELL tables; what a tick boundary does to the lanes. -/
namespace Sys2Proof.Machine

/-! ## Packets and streams -/

/-- Length of a packet's descriptor with its extension (R253). -/
def VPkt.hdrLen (p : VPkt) : Nat := if p.md.scratch = 0 then 8 else 24

/-- The descriptor of a packet, and its extension where AP_SCRATCH is not 0 (R253). -/
def VPkt.desc (p : VPkt) : List Byte :=
  let ext := p.md.scratch != 0
  beBytes 8 (p.bytes.length % 2 ^ 14 * 2 ^ 50 + p.md.hint % 2 ^ 23 * 2 ^ 27 + b2n ext * 2 ^ 26 + p.tag % 2 ^ 16 * 2 ^ 10) ++
    (if ext then beBytes 10 (p.md.scratch % 2 ^ 80) ++ List.replicate 6 0 else [])

/-- The credit charge of a packet of a VOQ (R253). -/
def VPkt.charge (p : VPkt) : Nat := chargeOf p.bytes.length p.md.scratch

/-- Stream bytes of a VOQ's oldest packet that may be sent: those in the head part, and for a packet whose last segment has not
arrived all but its last byte (R211, R261). -/
def VoqSt.avail (x : VoqSt) (p : VPkt) : Nat :=
  let inHead := p.hdrLen + min p.bytes.length (256 * (p.gone + p.lost + x.head))
  (if p.tail then inHead else min inHead (p.hdrLen + p.bytes.length - 1)) - p.sent

/-- Whether a destination device is marked withdrawn (R276). -/
def State.withdrawn (s : State) (d : Nat) : Bool := shas s.fab.wd d

/-- Whether the oldest packet of a VOQ can start (R264, R273, R276). -/
def State.mayStart (s : State) (v : Nat) (p : VPkt) : Bool :=
  let d := s.destDev v
  !p.begun && !p.poison && s.destValid v && !s.withdrawn d && s.reachable d && (s.voq v).credit p.charge

/-- Whether a VOQ has a cell ready (R261). -/
def State.voqReady (s : State) (v : Nat) : Bool :=
  let x := s.voq v
  match x.pkts with
  | [] => false
  | p :: _ => decide ((if p.tail then 1 else 240) ≤ x.avail p) && (p.begun || s.mayStart v p)

/-- The grant under which a packet starts: the earliest-arrived that covers its charge; it is spent (R273). -/
def spend (u : Nat) : List HeldGrant → Option (Nat × List HeldGrant)
  | [] => none
  | g :: rest =>
    if u ≤ g.units then some (g.tag, if g.units = u then rest else { g with units := g.units - u } :: rest)
    else (spend u rest).map fun r => (r.1, g :: r.2)

/-- The oldest packet of a VOQ starts (R273). -/
def State.startPkt (s : State) (v : Nat) : State :=
  let x := s.voq v
  match x.pkts with
  | [] => s
  | p :: rest =>
    match spend p.charge x.grants with
    | none => s
    | some (tag, gs) => s.setVoq v { x with pkts := { p with begun := true, tag := tag } :: rest, grants := gs }

/-- `n` bytes that the spec leaves open: what a packet carries once its data was uncorrectable (R224). -/
def State.freeBytes (s : State) (n : Nat) : State × List Byte :=
  ({ s with free := s.free + n }, (List.range n).map fun i => BitVec.ofNat 8 (Config.freeValue (s.free + i)))

/-- `n` stream bytes of the begun oldest packet of a VOQ leave: the bytes, and the state with the cells they free (R261). -/
def State.sendBytes (s : State) (v n : Nat) : State × List Byte :=
  let x := s.voq v
  match x.pkts with
  | [] => (s, [])
  | p :: rest =>
    let h := p.hdrLen
    let plain := ((p.desc ++ p.bytes).drop p.sent).take n
    let inHdr := min n (h - p.sent)
    let (s1, data) := if p.poison then (let r := s.freeBytes (n - inHdr); (r.1, plain.take inHdr ++ r.2)) else (s, plain)
    let sent := p.sent + n
    let done := decide (h + p.bytes.length ≤ sent)
    let s2 := s1.setVoq v { x with pkts := { p with sent := sent } :: rest }
    let n' := if done then p.rem else (sent - h) / 256 - p.lost - p.gone
    (s2.voqFree v n' done, data)

/-- What a cell has gathered: payload, offset of its first descriptor, and whether it ends with a stomped packet (R252). -/
structure CellAcc where
  data : List Byte := []
  off : Option Nat := none
  stomp : Bool := false
deriving DecidableEq, Repr

/-- A cell filled from a VOQ: the rest of the current packet, then further packets that can start, up to 240 bytes (R26, R261). -/
def State.packCell (s : State) (v : Nat) (a : CellAcc) : Nat → State × CellAcc
  | 0 => (s, a)
  | fuel + 1 =>
    let x := s.voq v
    match x.pkts with
    | [] => (s, a)
    | p :: _ =>
      if 240 ≤ a.data.length || x.avail p == 0 || !(p.begun || s.mayStart v p) then (s, a) else
      let s1 := if p.begun then s else s.startPkt v
      let off := if p.begun || a.off.isSome then a.off else some a.data.length
      let n := min (240 - a.data.length) (x.avail p)
      let (s2, data) := s1.sendBytes v n
      let b : CellAcc := { data := a.data ++ data, off := off, stomp := false }
      if p.sent + n < p.hdrLen + p.bytes.length then (s2, b)
      else if p.stomp then ((s2.bump Rg.BUF_STOMP_TX_CNT).setInt Pg.BUF Ib.BUF_STOMP_TX, { b with stomp := true })
      else State.packCell s2 v b fuel

/-- A stream. -/
def State.stream (s : State) (k : Nat) : StreamSt := sget {} s.fab.streams k

/-- A cell of a VOQ made for stream `k`: its SSEQ, and the packet left in progress (R252). CIRCUIT cells number by their circuit. -/
def State.makeCell (s : State) (k v typ circuit seq : Nat) : State × Cell :=
  let st := s.stream k
  let (s1, a) := s.packCell v {} 64
  let going := match (s1.voq v).pkts with
    | p :: _ => p.begun
    | [] => false
  let s2 : State := { s1 with fab := { s1.fab with
    streams := sset {} s1.fab.streams k { sseq := (st.sseq + 1) % 16, cur := if going then some v else none, last := some v } } }
  (s2, { typ := typ, dst := s.destDev v, src := s.devId, voq := v, seq := seq, sop := a.off.isSome, off := a.off.getD 0, fill := a.data.length
         stomp := a.stomp, circuit := circuit, sseq := st.sseq, payload := padTo 240 a.data })

/-- A cell's header with its CRC (R252). -/
def Cell.header (c : Cell) : Nat :=
  let h := c.typ * 2 ^ 124 + c.dst % 2 ^ 11 * 2 ^ 113 + c.src % 2 ^ 11 * 2 ^ 102 + c.voq % 2 ^ 20 * 2 ^ 82 + c.seq % 2 ^ 16 * 2 ^ 66
    + b2n c.sop * 2 ^ 65 + c.off % 2 ^ 8 * 2 ^ 57 + c.fill % 2 ^ 8 * 2 ^ 49 + b2n c.stomp * 2 ^ 48 + c.circuit % 2 ^ 12 * 2 ^ 36 + c.sseq % 16 * 2 ^ 32
  h + cellCrc h c.payload

/-- A cell leaves in a slot of a lane's next frame (R261). -/
def State.sendCell (s : State) (l slot : Nat) (c : Cell) : State :=
  (s.emit (.cell l slot c.header c.payload)).bump64 Rg.FCELL_TX_CELL_CNT_LO

/-! ## The calendar (R260, R261, R263) -/

/-- The VOQs that enabled source circuits bind. -/
def State.circuitVoqs (s : State) : List Nat :=
  (s.tbls.filter fun e => decide (tkey Pg.FCELL 2 0 ≤ e.1 ∧ e.1 < tkey Pg.FCELL 2 4096) && bit e.2 31).map fun e => e.2 % 2 ^ 20

/-- The first element above `c` of a rising list, else its first. -/
def nextAfter (l : List Nat) (c : Nat) : Option Nat := (l.find? fun x => decide (c < x)).or l.head?

/-- The VOQ that sends in a stream: that of its packet in progress, else the next that can start one (R261). -/
def State.streamVoq (s : State) (k : Nat) (vs : List Nat) : Option Nat :=
  let st := s.stream k
  match st.cur with
  | some v => if s.voqReady v then some v else none
  | none =>
    let c := vs.filter s.voqReady
    match st.last with
    | some v => nextAfter c v
    | none => c.head?

/-- The VOQs of a traffic class that may send on the lanes, by destination device. -/
def State.classVoqs (s : State) (circ : List Nat) (tc d : Nat) : List Nat :=
  (skeys s.voqs).filter fun v => v % 8 == tc && s.destDev v == d && !circ.contains v

/-- The destinations of a traffic class that hold packets, ascending. -/
def State.classDests (s : State) (circ : List Nat) (tc : Nat) : List Nat :=
  (((skeys s.voqs).filter fun v => v % 8 == tc && !circ.contains v).map s.destDev).foldl
    (fun l d => if l.contains d then l else sortIns (fun a b => decide (a ≤ b)) d l) []

/-- A SPRAY cell of a traffic class for a plane and lane (R261). -/
def State.sprayTc (s : State) (circ : List Nat) (l slot plane tc : Nat) : Option State :=
  let (lx, gx) := s.xoffAt l
  let ok := (s.classDests circ tc).filter fun d => d != s.devId && !lx && bit (s.reach d) plane && !bit gx (d / 32) && !s.withdrawn d &&
    (s.streamVoq (8 * d + tc) (s.classVoqs circ tc d)).isSome
  match (match sget 0 s.fab.lastDest tc with
    | 0 => ok.head?
    | c + 1 => nextAfter ok c) with
  | none => none
  | some d =>
    match s.streamVoq (8 * d + tc) (s.classVoqs circ tc d) with
    | none => none
    | some v =>
      let q := sget 0 s.fab.seq d
      let (s1, c) := s.makeCell (8 * d + tc) v 1 0 q
      let s2 : State := { s1 with fab := { s1.fab with seq := sset 0 s1.fab.seq d ((q + 1) % 65536), lastDest := sset 0 s1.fab.lastDest tc (d + 1) } }
      some (s2.sendCell l slot c)

/-- A SPRAY entry: TC7 first (R261). A slot with no ready cell carries an IDLE cell. -/
def State.spray (s : State) (circ : List Nat) (l slot plane : Nat) : State :=
  match [7, 6, 5, 4, 3, 2, 1, 0].findSome? fun tc => s.sprayTc circ l slot plane tc with
  | some t => t
  | none => s

/-- One calendar entry of a link in service (R260, R263). -/
def State.calEntry (s : State) (circ : List Nat) (l slot : Nat) : State :=
  let e := s.tbl Pg.FCELL 0 (s.f Rg.FCELL_CAL Fd.FCELL_CAL_PAGE * 2 ^ 16 + l * 2 ^ 8 + slot)
  let plane := bits e 16 4
  if e / 2 ^ 30 = 1 then s.spray circ l slot plane
  else if e / 2 ^ 30 = 2 then
    let n := bits e 0 12
    let ce := s.tbl Pg.FCELL 2 n
    let v := ce % 2 ^ 20
    if bit ce 31 && s.destDev v != s.devId && s.voqReady v then
      let q := sget 0 s.fab.seq (2 ^ 20 + n)
      let (s1, c) := s.makeCell (2 ^ 20 + n) v 2 n q
      { s1 with fab := { s1.fab with seq := sset 0 s1.fab.seq (2 ^ 20 + n) ((q + 1) % 65536) } }.sendCell l slot c
    else if bit e 29 then s.spray circ l slot plane
    else s
  else s

/-- The local loop carries cells of this device's own VOQs, TC7 first, up to `n` of them (R27). -/
def State.loopFill (s : State) : Nat → State
  | 0 => s
  | n + 1 =>
    match [7, 6, 5, 4, 3, 2, 1, 0].findSome? fun tc => (s.streamVoq (8 * s.devId + tc) (s.classVoqs [] tc s.devId)).map fun v => (tc, v) with
    | none => s
    | some (tc, v) =>
      let (s1, c) := s.makeCell (8 * s.devId + tc) v 1 0 0
      State.loopFill (s1.release c) n

/-- The oldest packets of a VOQ that met bad data before they began, discarded at dequeue (R223). -/
def State.purge (s : State) (v : Nat) : Nat → State
  | 0 => s
  | n + 1 =>
    match (s.voq v).pkts with
    | p :: _ => if p.poison && !p.begun && p.tail then State.purge ((s.voqDrop v).poisonDrop) v n else s
    | [] => s

/-- A read of a Caldera cell of a VOQ's oldest packet meets an error (R223, R224, class 8). -/
def State.poisonCell (s : State) (v : Nat) (e : MemErr) : State :=
  let r := s.dataErr (Pg.CALDQ (e.unit % 4)) 8 (some e)
  if r.2 then r.1 else
  let s := r.1.bump (Rg.CALDQ_UNCORR_CNT (e.unit % 4))
  let x := s.voq v
  match x.pkts with
  | [] => s
  | p :: rest => ((s.bump Rg.CALD_UNCORR_CNT).setInt Pg.CALD Ib.CALD_UNCORR).setVoq v { x with pkts := { p with poison := true, stomp := p.stomp || p.begun } :: rest }

/-- Whether the frame of the next tick is a pad frame (R254). -/
def State.padNext (s : State) : Bool :=
  s.fb Rg.FFRM_CFG Fd.FFRM_CFG_TIMING && (s.f Rg.TICK_STAT Fd.TICK_STAT_TIS + 1) % 64 == 63

/-- CALENDAR_FILL: the cell engine fills the frame of the next tick and the local loop (R27, R261). `poison` names the VOQs whose
oldest packet meets an error in its Caldera cells. -/
def State.calendarFill (s : State) (poison : List (Nat × MemErr)) : State :=
  let s1 := poison.foldl (fun (t : State) (e : Nat × MemErr) => t.poisonCell e.1 e.2) s
  let s2 := (skeys s1.voqs).foldl (fun t v => t.purge v (t.voq v).pkts.length) s1
  let circ := s2.circuitVoqs
  let s3 := if !s2.fb Rg.FCELL_CFG Fd.FCELL_CFG_EN || s2.padNext then s2 else
    (List.range 99).foldl (fun t k => t.links.foldl (fun t l => t.calEntry circ l (k + 1)) t) s2
  s3.loopFill 9504

/-- CALENDAR_FILL (R261). -/
def execCalendarFill (poison : List (Nat × MemErr)) (s : State) : Out := .next (s.calendarFill poison)

/-! ## Tables of FCELL -/

/-- Whether the active calendar page names a source circuit (R263). -/
def State.circuitNamed (s : State) (n : Nat) : Bool :=
  let pg := s.f Rg.FCELL_CAL Fd.FCELL_CAL_PAGE
  s.tbls.any fun e => decide (tkey Pg.FCELL 0 (pg * 2 ^ 16) ≤ e.1 ∧ e.1 < tkey Pg.FCELL 0 ((pg + 1) * 2 ^ 16)) &&
    decide (e.2 / 2 ^ 30 = 2 ∧ e.2 % 2 ^ 12 = n)

/-- A table command of page FCELL (R260, R263). -/
def State.fcellCmd (s : State) (op addr data : Nat) : State × TblAns :=
  let t := bits addr 29 3
  let i := if t = 0 then bits addr 16 1 * 2 ^ 16 + bits addr 8 7 * 2 ^ 8 + bits addr 0 7 else addr % 4096
  let slot := addr % 128
  if op ≠ opRead ∧ op ≠ opWrite ∧ op ≠ opDelete then (s, ans stUnsupported)
  else if 4 ≤ t ∨ (t = 0 ∧ (slot = 0 ∨ 99 < slot ∨ s.part.fabLanes ≤ bits addr 8 7)) ∨ (t = 1 ∧ 2048 ≤ i) then (s, ans stBadAddr)
  else if op = opRead then (s, { st := stOk, data := some (s.tbl Pg.FCELL t i) })
  else
    let raw := if op = opDelete then tblReset s.part (tkey Pg.FCELL t i) else data % 2 ^ 32
    let new := raw &&& (if t = 0 then 0xE00F0FFF else if t = 1 then 0xFFFF else if t = 2 then 0x800FFFFF else 0x807FFFFF)
    if t = 0 ∧ new / 2 ^ 30 = 3 then (s, ans stBadData)
    else if t = 0 ∧ bits addr 16 1 = s.f Rg.FCELL_CAL Fd.FCELL_CAL_PAGE then (s, ans stNotAllowed)
    else if t = 2 ∧ s.circuitNamed i then (s, ans stNotAllowed)
    else if t == 3 && bit new 31 && ((s.rxCircuit (bits new 12 11) (bits new 0 12)).any fun j => j != i) then (s, ans stOccupied)
    else
      let s1 := s.setTbl Pg.FCELL t i new
      (if t = 1 then s1.unreachRefresh else s1, ans stOk)

/-! ## Tick boundaries and registers -/

/-- The header that a lane's frame of this tick carries (R249, R250, R254, R258). -/
def State.txHeader (s : State) (l : Nat) : Nat :=
  let fn := s.f Rg.TICK_STAT Fd.TICK_STAT_TIS
  let pad := s.fb Rg.FFRM_CFG Fd.FFRM_CFG_TIMING && fn == 63
  let rdi := s.fb Rg.FFRM_CFG Fd.FFRM_CFG_RDI_EN && decide (4 ≤ s.defects l)
  let h := fn * 2 ^ 122 + b2n pad * 2 ^ 121 + b2n rdi * 2 ^ 120 + s.devId * 2 ^ 108 + l * 2 ^ 101 + s.part.fabLanes * 2 ^ 94
  h + hcrc h

/-- The degraded defect judged at a superframe end (R258). -/
def State.degJudge (s : State) (l : Nat) : State :=
  let x := s.lane l
  let sf := s.f Rg.FFRM_DEG_CFG Fd.FFRM_DEG_CFG_DEG_SF
  let many := decide (s.f Rg.FFRM_DEG_CFG Fd.FFRM_DEG_CFG_DEG_THR ≤ x.degErr)
  let y := { x with degErr := 0, degOn := if many then x.degOn + 1 else 0, degOff := if many then 0 else x.degOff + 1 }
  let s1 := s.setLane l y
  if sf ≤ y.degOn then s1.defect l 0 true else if sf ≤ y.degOff then s1.defect l 0 false else s1

/-- One lane at a tick boundary: DEG at a superframe end, the count of clean ticks, leaving service, and the frame that starts (R249,
R258, R259). -/
def State.laneTick (s : State) (l : Nat) : State :=
  let s1 := if s.f Rg.TICK_STAT Fd.TICK_STAT_TIS = 0 then s.degJudge l else s
  let ok := s1.laneClean l
  let x := s1.lane l
  let s2 := s1.setLane l { x with clean := if ok then min 255 (x.clean + 1) else 0, sawOut := x.sawOut || !s1.inService l }
  let s3 := if ok then s2 else s2.setService l false
  if s3.fabOn l then s3.emit (.frameHeader l (s3.txHeader l)) else s3

/-- The reissue timers of VOQs whose destination is withdrawn stand still (R276). -/
def State.reqTimers (s : State) : State :=
  if s.fab.wd.isEmpty then s else
  (skeys s.voqs).foldl (fun t v =>
    let x := t.voq v
    if x.reqs.isEmpty || !t.withdrawn (t.destDev v) then t
    else t.setVoq v { x with reqs := x.reqs.map fun r => (r.1, r.2 + 1) }) s

/-- The fabric interface at a tick boundary. -/
def State.fabTick (s : State) : State :=
  let s1 := s.setF Rg.FCELL_STAT Fd.FCELL_STAT_PAGE_INUSE (s.f Rg.FCELL_CAL Fd.FCELL_CAL_PAGE)
  ((List.range s1.part.fabLanes).foldl State.laneTick s1).reqTimers

/-- A write of FFRM_CFG: a change of TIMING while FCELL_CFG.EN is 1 is refused (R254). -/
def State.ffrmCfgWrite (s : State) (v : Nat) : State :=
  if s.fb Rg.FCELL_CFG Fd.FCELL_CFG_EN then
    (s.fieldWrite Rg.FFRM_CFG (setBits v 31 1 (bits (s.rd Rg.FFRM_CFG) 31 1))).setIntIf (bits v 31 1 != bits (s.rd Rg.FFRM_CFG) 31 1) Pg.FFRM Ib.FFRM_REFUSED
  else s.fieldWrite Rg.FFRM_CFG v

/-- A write of FCELL_CFG: a change of DEV_ID while EN is 1 is refused (R265). -/
def State.fcellCfgWrite (s : State) (v : Nat) : State :=
  let old := s.rd Rg.FCELL_CFG
  if s.fb Rg.FCELL_CFG Fd.FCELL_CFG_EN then
    (s.fieldWrite Rg.FCELL_CFG (setBits v 16 11 (bits old 16 11))).setIntIf (bits v 16 11 != bits old 16 11) Pg.FCELL Ib.FCELL_REFUSED
  else s.fieldWrite Rg.FCELL_CFG v

end Sys2Proof.Machine
end

