-- ==== Sys2Proof/Machine/Credit.lean ====
section
/-! DEFINITION. The credit protocol (chapter 11, R251, R265, R269 to R274, R276): messages, the credit round, requests and grants at
the source, timers, and withdrawal. -/
namespace Sys2Proof.Machine

/-! ## Messages -/

/-- A control message with its CRC (R251). -/
def mkMsg (typ dst src voq units tag : Nat) : Nat :=
  let m := typ * 2 ^ 93 + dst % 2 ^ 11 * 2 ^ 82 + src % 2 ^ 11 * 2 ^ 71 + voq % 2 ^ 20 * 2 ^ 51 + units % 2 ^ 8 * 2 ^ 43 + tag % 2 ^ 16 * 2 ^ 27
  m + mcrc m

/-- Fields of a message. -/
def msgType (m : Nat) : Nat := bits m 93 3
def msgDst (m : Nat) : Nat := bits m 82 11
def msgSrc (m : Nat) : Nat := bits m 71 11
def msgVoq (m : Nat) : Nat := bits m 51 20
def msgUnits (m : Nat) : Nat := bits m 43 8
def msgTag (m : Nat) : Nat := bits m 27 16

/-- Message slots of a lane's next frame already taken. -/
def State.slotsUsed (s : State) (l : Nat) : Nat := s.fab.placed.countP (·.1 == l)

/-- Whether this device sends WITHDRAW or RESTORE in the next frame: frame 0 of a superframe (R276). -/
def State.wdDue (s : State) : Bool :=
  (s.f Rg.TICK_STAT Fd.TICK_STAT_TIS + 1) % 64 == 0 && (s.fb Rg.FCRD_STAT Fd.FCRD_STAT_WITHDRAWN || s.fab.restoreDue)

/-- A message placed on the next link in round robin that reaches its device and has a slot (R270); `room`: slots it may fill. -/
def State.placeMsg (s : State) (d m room : Nat) : Option State :=
  if s.padNext || !s.fb Rg.FCELL_CFG Fd.FCELL_CFG_EN then none else
  let c := s.links.filter fun l => (s.planesOf l &&& s.reach d) != 0 && decide (s.slotsUsed l < room)
  match nextAfter c s.fab.msgLane with
  | none => none
  | some l => some { s with fab := { s.fab with placed := s.fab.placed ++ [(l, m)], msgLane := l } }

/-- A message for a device: on the lanes, or to the device itself in the next credit round (R270). -/
def State.sendTo (s : State) (d m room : Nat) : Option State :=
  if d = s.devId then some { s with fab := { s.fab with localMsgs := s.fab.localMsgs ++ [m] } } else s.placeMsg d m room

/-! ## The egress side (R271, R272) -/

/-- Stored requests replaced, with FCRD_REQ_STORED. -/
def State.setStore (s : State) (m : Sparse (List StoredReq)) : State :=
  ({ s with fab := { s.fab with store := m } }.wr Rg.FCRD_REQ_STORED ((m.map fun (e : Nat × List StoredReq) => e.2.length).sum))

/-- A REQUEST is handled (R265, R271). -/
def State.onRequest (s : State) (m : Nat) : State :=
  if msgDst m ≠ s.devId then s.bump Rg.FCRD_MSG_ERR_CNT else
  let v := msgVoq m
  let map := s.tbl Pg.EQS 0 (v / 8)
  if s.fb Rg.FCRD_STAT Fd.FCRD_STAT_WITHDRAWN then s
  else if !bit map 31 || !bit map 30 then s.bump Rg.FCRD_REQ_REFUSED_CNT
  else if 262144 ≤ s.rd Rg.FCRD_REQ_STORED then (s.bump Rg.FCRD_REQ_DROP_CNT).setInt Pg.FCRD Ib.FCRD_REQ_DROP
  else
    let eq := 8 * (map % 2 ^ 15) + v % 8
    s.setStore (sset [] s.fab.store eq (sget [] s.fab.store eq ++ [⟨msgSrc m, v, msgUnits m, s.tk.count⟩]))

/-- The lowest number missing from a rising list, counting from `n`. -/
def lowestFree (n : Nat) : List Nat → Nat
  | [] => n
  | k :: rest => if k = n then lowestFree (n + 1) rest else n

/-- The head request of a queue granted whole, if every condition of R271 holds. -/
def State.tryGrant (s : State) (eq : Nat) : Option State :=
  match sget [] s.fab.store eq with
  | [] => none
  | r :: rest =>
    let t := lowestFree 0 (skeys s.fab.tags)
    if s.eqRoom eq < r.units ∨ s.poolRoom < r.units ∨ 65536 ≤ t then none else
    (s.sendTo r.src (mkMsg 2 r.src s.devId r.voq r.units t) (if s.wdDue then 17 else 18)).map fun s1 =>
      ((s1.setTags (sset noTag s1.fab.tags t ⟨r.src, eq, r.units, s1.tk.count⟩)).setStore (sset [] s1.fab.store eq rest)).bump Rg.FCRD_GRANT_TX_CNT

/-- Queues served in round robin by ascending number until each is passed over (R271). -/
def State.serveQueues (s : State) (open' : List Nat) : Nat → State
  | 0 => s
  | n + 1 =>
    match nextAfter open' s.fab.lastEq with
    | none => s
    | some eq =>
      match s.tryGrant eq with
      | none => State.serveQueues { s with fab := { s.fab with lastEq := eq } } (open'.erase eq) n
      | some t => State.serveQueues { t with fab := { t.fab with lastEq := eq } } open' n

/-! ## The source side (R269, R273, R274) -/

/-- A GRANT is handled (R265, R273). -/
def State.onGrant (s : State) (m : Nat) : State :=
  if msgDst m ≠ s.devId then s.bump Rg.FCRD_MSG_ERR_CNT
  else if 65536 ≤ s.rd Rg.FCRD_GRANTS_HELD then (s.bump Rg.FCRD_HOLD_FULL_CNT).setInt Pg.FCRD Ib.FCRD_HOLD_FULL
  else
    let v := msgVoq m
    let x := s.voq v
    let g : HeldGrant := ⟨msgTag m, msgUnits m, s.tk.count + s.f Rg.FCRD_CFG Fd.FCRD_CFG_USE_TICKS⟩
    (s.bumpIf x.reqs.isEmpty Rg.FCRD_UNSOLICITED_CNT).setVoq v { x with reqs := x.reqs.drop 1, grants := x.grants ++ [g] }

/-- Charge of a VOQ's packets not yet started. -/
def VoqSt.unstarted (x : VoqSt) : Nat := ((x.pkts.filter fun p => !p.begun).map VPkt.charge).sum

/-- The UNITS of the request that a VOQ sends, `none` where it sends none (R269). -/
def State.wantRequest (s : State) (v : Nat) : Option Nat :=
  let x := s.voq v
  let out := (x.reqs.map (·.1)).sum
  let need := x.unstarted - x.balance - out
  let d := s.destDev v
  match x.pkts.find? fun p => !p.begun with
  | none => none
  | some p =>
    if need = 0 || !s.destValid v || !s.reachable d || s.withdrawn d || decide (s.f Rg.FCRD_CFG Fd.FCRD_CFG_MAX_REQ ≤ x.reqs.length) then none
    else some (max p.charge (min need (s.f Rg.FCRD_CFG Fd.FCRD_CFG_QUANT)))

/-- A VOQ's request sent. -/
def State.sendRequest (s : State) (v u : Nat) : Option State :=
  (s.sendTo (s.destDev v) (mkMsg 1 (s.destDev v) s.devId v u 0) 18).map fun t =>
    (t.bump Rg.FCRD_REQ_TX_CNT).setVoq v { t.voq v with reqs := (t.voq v).reqs ++ [(u, t.tk.count)] }

/-! ## Withdrawal (R276) -/

/-- A device's withdrawn mark set or cleared in FCRD_WD. -/
def State.markWd (s : State) (d : Nat) (on : Bool) : State :=
  let a := Rg.FCRD_WD (d / 32)
  if s.withdrawn d = on then (if on then { s with fab := { s.fab with wd := sins (sdel s.fab.wd d) d s.tk.count } } else s) else
  let s1 : State := { s with fab := { s.fab with wd := if on then sins s.fab.wd d s.tk.count else sdel s.fab.wd d } }
  (s1.wr a (setBits (s1.rd a) (d % 32) 1 (b2n on))).setInt Pg.FCRD Ib.FCRD_WITHDRAW_CHG

/-- This device starts or stops withdrawing (R276). -/
def State.withdrawSelf (s : State) (on : Bool) : State :=
  let was := s.fb Rg.FCRD_STAT Fd.FCRD_STAT_WITHDRAWN
  if was = on then s else
  let s1 := s.setF Rg.FCRD_STAT Fd.FCRD_STAT_WITHDRAWN (b2n on)
  if on then { s1 with fab := { s1.fab with restoreDue := false } }.setStore []
  else { s1 with fab := { s1.fab with restoreDue := true } }

/-- A write of FCRD_CTRL (R276). -/
def State.fcrdCtrlWrite (s : State) (v : Nat) : State :=
  let s1 := s.fieldWrite Rg.FCRD_CTRL v
  s1.withdrawSelf (s1.d2dDown || s1.fb Rg.FCRD_CTRL Fd.FCRD_CTRL_WITHDRAW)

/-! ## Commands -/

/-- One message handled by its type. -/
def State.onMsg (s : State) (m : Nat) : State :=
  if msgType m = 1 then s.onRequest m
  else if msgType m = 2 then s.onGrant m
  else if msgType m = 3 then s.markWd (msgSrc m) true
  else s.markWd (msgSrc m) false

/-- The oldest delivered message of a type taken out and handled. -/
def State.oneMsg (s : State) (typ : Nat) : State :=
  match s.fab.rxMsgs.find? fun m => msgType m == typ with
  | none => s
  | some m => { s with fab := { s.fab with rxMsgs := s.fab.rxMsgs.erase m } }.onMsg m

/-- REQUEST (R271). -/
def execRequest (s : State) : Out := .next (s.oneMsg 1)

/-- GRANT (R273). -/
def execGrant (s : State) : Out := .next (s.oneMsg 2)

/-- WITHDRAW (R276). -/
def execWithdraw (s : State) : Out := .next (s.oneMsg 3)

/-- RESTORE (R276). -/
def execRestore (s : State) : Out := .next (s.oneMsg 4)

/-- CREDIT_ROUND: delivered messages, then local ones, then grants (R271). -/
def State.creditRound (s : State) : State :=
  let ms := s.fab.rxMsgs ++ s.fab.localMsgs
  let s1 := ms.foldl State.onMsg { s with fab := { s.fab with rxMsgs := [], localMsgs := [] } }
  if s1.fb Rg.FCRD_STAT Fd.FCRD_STAT_WITHDRAWN || !bit (s1.rd (Pg.EQS + 0x008)) 31 then s1
  else s1.serveQueues (skeys s1.fab.store) (s1.rd Rg.FCRD_REQ_STORED + s1.fab.store.length)

/-- CREDIT_ROUND (R271). -/
def execCreditRound (s : State) : Out := .next s.creditRound

/-- WITHDRAW or RESTORE placed on every link in service (R276). -/
def State.placeWd (s : State) : State :=
  if !s.wdDue || s.padNext || !s.fb Rg.FCELL_CFG Fd.FCELL_CFG_EN then s else
  let t := if s.fb Rg.FCRD_STAT Fd.FCRD_STAT_WITHDRAWN then 3 else 4
  { s with fab := { s.fab with placed := s.links.map (fun l => (l, mkMsg t 0 s.devId 0 0 0)) ++ s.fab.placed, restoreDue := false } }

/-- Reissued requests placed in order; those that find no slot wait (R270, R274). -/
def State.placeReissues (s : State) : State :=
  s.fab.reissue.foldl (fun t r =>
    match t.sendTo (t.destDev r.1) (mkMsg 1 (t.destDev r.1) t.devId r.1 r.2 0) 18 with
    | some u => u.bump Rg.FCRD_REQ_TX_CNT
    | none => { t with fab := { t.fab with reissue := t.fab.reissue ++ [r] } }) { s with fab := { s.fab with reissue := [] } }

/-- The VOQs with packets not yet started, in the order in which they became eligible as far as it is known, else by number. -/
def State.requestOrder (s : State) : List Nat :=
  let vs := (s.voqs.filter fun e => decide (0 < e.2.unstarted)).map (·.1)
  (s.fab.reqOrder.filter vs.contains) ++ vs.filter fun v => !s.fab.reqOrder.contains v

/-- New requests placed, one for each VOQ; those that find no slot keep their place (R269, R270). -/
def State.placeRequests (s : State) : State :=
  s.requestOrder.foldl (fun t v =>
    match t.wantRequest v with
    | none => t
    | some u =>
      match t.sendRequest v u with
      | some t' => t'
      | none => { t with fab := { t.fab with reqOrder := t.fab.reqOrder ++ [v] } }) { s with fab := { s.fab with reqOrder := [] } }

/-- The placed messages leave in the next frame, each lane's in its slots in order. -/
def State.flushMsgs (s : State) : State :=
  let out := s.fab.placed.zipIdx.map fun e => Emit.message e.1.1 ((s.fab.placed.take e.2).countP (·.1 == e.1.1)) e.1.2
  { out.foldl State.emit s with fab := { s.fab with placed := [] } }

/-- MESSAGE_SELECT (R270): a tick in which messages find no slot counts as an overrun. -/
def State.messageSelect (s : State) : State :=
  let s1 := (s.placeWd.placeReissues).placeRequests
  let late := !s1.fab.reissue.isEmpty || !s1.fab.reqOrder.isEmpty
  let s2 := s1.flushMsgs
  if late then s2.overrun 0 else s2

/-- MESSAGE_SELECT (R270). -/
def execMessageSelect (s : State) : Out := .next s.messageSelect

/-- Stored requests 16 ticks old discarded (R271). -/
def State.requestAge (s : State) : State :=
  let old (r : StoredReq) : Bool := decide (r.tick + 16 ≤ s.tk.count)
  let n := (s.fab.store.map fun e => e.2.countP old).sum
  if n = 0 then s else
  (s.setStore ((s.fab.store.map fun e => (e.1, e.2.filter fun r => !old r)).filter fun e => !e.2.isEmpty)).bump Rg.FCRD_REQ_AGED_CNT n

/-- REQUEST_AGE_OUT (R271). -/
def execRequestAgeOut (s : State) : Out := .next s.requestAge

/-- The oldest request of a VOQ that no grant has answered for 16 ticks is reissued with the same UNITS (R274). -/
def State.reissue (s : State) (v : Nat) : State :=
  let x := s.voq v
  match x.reqs.find? fun r => decide (r.2 + 16 ≤ s.tk.count) with
  | none => s
  | some r =>
    if s.withdrawn (s.destDev v) then s else
    let s1 := s.setVoq v { x with reqs := x.reqs.map fun q => if q = r then (r.1, s.tk.count) else q }
    { s1 with fab := { s1.fab with reissue := s1.fab.reissue ++ [(v, r.1)] } }.bump Rg.FCRD_REISSUE_CNT

/-- REQUEST_REISSUE (R274). -/
def execRequestReissue (voq : Nat) (s : State) : Out := .next (s.reissue voq)

/-- Tags issued GRANT_LIFE ticks ago are freed and their remaining units counted (R272). -/
def State.grantExpiry (s : State) : State :=
  let old (g : LiveTag) : Bool := decide (g.tick + s.f Rg.FCRD_CFG Fd.FCRD_CFG_GRANT_LIFE ≤ s.tk.count)
  let n := ((s.fab.tags.filter fun e => old e.2).map (·.2.units)).sum
  if s.fab.tags.any (fun e => old e.2) then (s.setTags (s.fab.tags.filter fun e => !old e.2)).bump Rg.FCRD_GRANT_EXPIRED_CNT n else s

/-- GRANT_EXPIRY (R272). -/
def execGrantExpiry (s : State) : Out := .next s.grantExpiry

/-- Held grants of a VOQ at their deadline are dropped and their units counted (R273). -/
def State.heldExpiry (s : State) (v : Nat) : State :=
  let x := s.voq v
  let old (g : HeldGrant) : Bool := decide (g.deadline ≤ s.tk.count)
  if !x.grants.any old then s else
  (s.bump Rg.FCRD_UNITS_EXPIRED_CNT ((x.grants.filter old).map (·.units)).sum).setVoq v { x with grants := x.grants.filter fun g => !old g }

/-- HELD_GRANT_EXPIRY (R273). -/
def execHeldGrantExpiry (s : State) : Out := .next ((skeys s.voqs).foldl State.heldExpiry s)

/-- Withdrawn marks clear after 4 superframes without a WITHDRAW (R276). -/
def State.wdTimeout (s : State) : State :=
  (s.fab.wd.filter fun e => decide (e.2 + 256 ≤ s.tk.count)).foldl (fun t e => t.markWd e.1 false) s

/-- WITHDRAW_TIMEOUT (R276). -/
def execWithdrawTimeout (s : State) : Out := .next s.wdTimeout

end Sys2Proof.Machine
end

