-- ==== Sys2Proof/Machine/Service.lean ====
section
/-! DEFINITION. The two service controllers (chapter 15, R330 to R339, R406): roles and modes, kicks and heartbeats, faults,
takeover, switchover, hold and restart, the split, autonomous mode, and stage ownership. -/
namespace Sys2Proof.Machine

/-- SC_STAT.ROLE encodings. -/
abbrev scOff : Nat := 0
abbrev scBoot : Nat := 1
abbrev scStandby : Nat := 2
abbrev scActive : Nat := 3
abbrev scFailed : Nat := 4
abbrev scHeld : Nat := 5
abbrev scIsolated : Nat := 6

/-- A controller's state outside its page. -/
def State.sc (s : State) (k : Nat) : ScCtl := if k = 0 then s.sv.c0 else s.sv.c1

/-- A controller's state outside its page replaced. -/
def State.setSc (s : State) (k : Nat) (x : ScCtl) : State :=
  if k = 0 then { s with sv := { s.sv with c0 := x } } else { s with sv := { s.sv with c1 := x } }

/-- Whether a controller runs firmware. -/
def State.scRuns (s : State) (k : Nat) : Bool := [scBoot, scStandby, scActive, scIsolated].contains (s.scRole k)

/-- PEER_ROLE brought up to date where a path joins the controllers; otherwise it stays as last known (R335). -/
def State.scShow (s : State) : State :=
  if !s.pathUp then s else
  (s.setF (Rg.SC_STAT 0) Fd.SC_STAT_PEER_ROLE (s.scRole 1)).setF (Rg.SC_STAT 1) Fd.SC_STAT_PEER_ROLE (s.scRole 0)

/-! ## Stage ownership -/

/-- Whether a controller owns the stage (R58). -/
def State.scOwns (s : State) (k : Nat) : Bool :=
  s.f Rg.CMT_STAT Fd.CMT_STAT_STATE != 0 && !s.fb Rg.CMT_STAT Fd.CMT_STAT_NO_OWNER && s.f Rg.CMT_STAT Fd.CMT_STAT_OWNER == 2 + k

/-- Ownership of the stage passes from a controller that holds it to the other (R334, R336). -/
def State.passOwner (s : State) (old new : Nat) : State :=
  if s.scOwns old then s.setF Rg.CMT_STAT Fd.CMT_STAT_OWNER (2 + new) else s

/-- The stage of a controller that is FAILED or HELD: it passes to the other if that is ACTIVE, waits for a takeover
that is due, or loses its owner (R336). -/
def State.scOwners (s : State) : State :=
  [0, 1].foldl (fun (t : State) (k : Nat) =>
    if !t.scOwns k || !(t.scRole k == scFailed || t.scRole k == scHeld) then t
    else if t.scRole (1 - k) == scActive then t.passOwner k (1 - k)
    else if (t.sv.due.any fun d => d.standby == 1 - k) then t
    else t.setF Rg.CMT_STAT Fd.CMT_STAT_NO_OWNER 1) s

/-! ## Modes -/

/-- The MODE that the roles call for; a takeover that is due keeps it (R333, R406). -/
def State.scMode (s : State) : Nat :=
  if s.sv.due.isSome then s.f (Rg.SC_STAT 1) Fd.SC_STAT_MODE
  else if s.scRole 0 == scActive || s.scRole 1 == scActive then
    (if s.scRole 0 == scStandby || s.scRole 1 == scStandby then 0 else 1)
  else 2

/-- SAFE status of both ports (R364), and source 576 (R361). -/
def State.setSafe (s : State) (on : Bool) : State :=
  s.withEdges [576] fun t => [0, 1].foldl (fun (u : State) (p : Nat) =>
    if u.f (Rg.PCIE_STAT p) Fd.PCIE_STAT_SAFE = b2n on then u
    else (u.setF (Rg.PCIE_STAT p) Fd.PCIE_STAT_SAFE (b2n on)).setInt (Pg.PCIE p) Ib.PCIE_SAFE_CHANGE) t

/-- MODE of both pages brought to what the roles call for, with the entry to and the exit from AUTONOMOUS (R338, R339). -/
def State.scUpdate (s : State) : State :=
  let old := s.f (Rg.SC_STAT 1) Fd.SC_STAT_MODE
  let new := s.scMode
  let s1 := ((s.setF (Rg.SC_STAT 0) Fd.SC_STAT_MODE new).setF (Rg.SC_STAT 1) Fd.SC_STAT_MODE new).scOwners.scShow
  if new = old then s1
  else if new = 2 then
    let s2 := (((s1.setInt (Pg.SC 0) Ib.SC_AUTONOMOUS).setInt (Pg.SC 1) Ib.SC_AUTONOMOUS).log (Pg.SC 1) 0x0012 0).setSafe true
    if s2.fb (Rg.SC_AUTO_POLICY 1) Fd.SC_AUTO_POLICY_WITHDRAW then
      (s2.setF Rg.FCRD_CTRL Fd.FCRD_CTRL_WITHDRAW 1).withdrawSelf true
    else s2
  else if old = 2 then (s1.log (Pg.SC 1) 0x0013 0).setSafe false
  else s1

/-! ## Roles -/

/-- A controller enters a role. Leaving STANDBY ends a takeover that is due to it; entering STANDBY or ACTIVE from
elsewhere starts the count of R333 anew; a controller held in reset loses its kick and its heartbeat. -/
def State.scEnter (s : State) (k role : Nat) : State :=
  let old := s.scRole k
  if old = role then s else
  let up (r : Nat) : Bool := r == scStandby || r == scActive
  let held : Bool := role == scOff || role == scFailed || role == scHeld
  let x := s.sc k
  let s1 := s.setF (Rg.SC_STAT k) Fd.SC_STAT_ROLE role
  let s2 := s1.setSc k { x with
    kicked := x.kicked && !held
    first := x.first && role == scBoot
    failed := if role = scFailed then s.tk.count else x.failed
    since := if up role && !up old then s.tk.count else x.since }
  { s2 with sv := { s2.sv with
      due := if old = scStandby && s2.sv.due.any (fun d => d.standby == k) then none else s2.sv.due
      swap := if s2.sv.swap = some k || s2.sv.swap = some (1 - k) then none else s2.sv.swap } }

/-- A controller enters FAILED with a cause of R354: 0 SPLIT, 1 MISS, 2 FAULT, 3 BOOT. The peer is told where a path joins them (R330);
a controller whose restarts are used up gives up (R333). -/
def State.scFail (s : State) (k cause : Nat) : State :=
  let s1 := (s.scEnter k scFailed).log (Pg.SC k) 0x0011 (k + cause * 256)
  let s2 := s1.setIntIf s1.pathUp (Pg.SC (1 - k)) Ib.SC_PEER_FAIL
  s2.setIntIf (decide (s2.f (Rg.SC_CFG k) Fd.SC_CFG_RESTART_MAX ≤ s2.f (Rg.SC_STAT k) Fd.SC_STAT_RESTARTS)) (Pg.SC k) Ib.SC_RESTART_GIVEUP

/-- The count, the flag and LAST_CAUSE of a takeover in one SC page (R334). -/
def State.takeoverMark (s : State) (k cause : Nat) : State :=
  ((s.bump (Rg.SC_TAKEOVER_CNT k)).setF (Rg.SC_STAT k) Fd.SC_STAT_LAST_CAUSE cause).setInt (Pg.SC k) Ib.SC_TAKEOVER

/-- The marks of a takeover in both SC pages, SC0's when a path returns, and its record (R334). -/
def State.takeoverMarks (s : State) (new cause : Nat) : State :=
  let s1 := s.takeoverMark 1 cause
  let s2 := if s1.pathUp || new == 0 then s1.takeoverMark 0 cause
    else { s1 with sv := { s1.sv with missed := s1.sv.missed ++ [cause] } }
  s2.log (Pg.SC new) 0x0010 (new + cause * 256)

/-- What a return of a path brings SC0: the marks that its page missed, and a hold that could not reach it (R334). A split ends
in its own step (R335). -/
def State.scPathCheck (s : State) : State :=
  if !s.pathUp then s else
  let s1 := s.sv.missed.foldl (fun t c => t.takeoverMark 0 c) { s with sv := { s.sv with missed := [] } }
  match s1.sv.hold with
  | none => s1.scUpdate
  | some c =>
    if s1.split then s1.scShow
    else
      let s2 : State := { s1 with sv := { s1.sv with hold := none } }
      (if s2.scRuns 0 then s2.scFail 0 c else s2).scUpdate

/-! ## Commands -/

/-- A kick (R332): from this controller alone, while it runs. The first kick of BOOT makes it STANDBY under an ACTIVE peer; otherwise the next
boundary decides (R333). -/
def State.scKick (s : State) (who : Requester) (k v : Nat) : State :=
  if !bit v 0 || reqNo who != 2 + k || !s.scRuns k then s else
  let s1 := s.setSc k { s.sc k with kicked := true }
  if s1.scRole k = scBoot ∧ !(s1.sc k).first then
    let s2 := s1.setSc k { s1.sc k with first := true }
    if s2.f (Rg.SC_STAT k) Fd.SC_STAT_PEER_ROLE = scActive then (s2.scEnter k scStandby).scUpdate else s2
  else s1

/-- SC_HB_KICK (R332, R333). -/
def execScHbKick (a : Acc) (sc : Nat) (v : Word) (s : State) : Out :=
  .next (s.onWrite a (Rg.SC_HB_KICK (sc % 2)) fun t => t.scKick a.req (sc % 2) v.toNat)

/-- The heartbeat on its way to controller `k` arrives over one path that works (R332). -/
def State.heartbeatRx (s : State) (k : Nat) (link : Bool) : State :=
  match (s.sc (1 - k)).sent with
  | none => s
  | some w =>
    if !(if link then !s.d2dDown else s.d2.mgmtUp) then s else
    let x := s.sc k
    let s1 := s.setSc k (if link then { x with gotLink := true } else { x with gotMgmt := true })
    ((s1.wr (Rg.SC_HB_RX k) w).setF (Rg.SC_STAT k) Fd.SC_STAT_MISS_RUN 0).setF (Rg.SC_STAT k) Fd.SC_STAT_PEER_ROLE
      (if s.pathUp then s.scRole (1 - k) else bits w 13 3)

/-- HEARTBEAT_RX (R332). -/
def execHeartbeatRx (sc : Nat) (link : Bool) (s : State) : Out := .next (s.heartbeatRx (sc % 2) link)

/-- SC0 in STANDBY that can reach the T-die on neither path does not take over: it enters ISOLATED (R335). -/
def State.isolate (s : State) : State :=
  (((s.scEnter 0 scIsolated).setInt (Pg.SC 0) Ib.SC_ISOLATED).log (Pg.SC 0) 0x0015 0).scUpdate

/-- Clock 1,024 at a controller whose peer is ACTIVE or STANDBY (R332); the eighth miss of an ACTIVE peer by a STANDBY
controller is decisive (R333). -/
def State.missCheck (s : State) (k : Nat) : State :=
  let peer := s.f (Rg.SC_STAT k) Fd.SC_STAT_PEER_ROLE
  let x := s.sc k
  if !s.scRuns k || !(peer == scActive || peer == scStandby) || x.gotLink || x.gotMgmt then s else
  let run := s.f (Rg.SC_STAT k) Fd.SC_STAT_MISS_RUN
  let s1 := (s.setF (Rg.SC_STAT k) Fd.SC_STAT_MISS_RUN (min 8 (run + 1))).bump (Rg.SC_MISS_CNT k)
  if run = 7 ∧ s1.scRole k = scStandby ∧ (peer = scActive ∨ s1.sv.due.any fun d => d.standby == k) then
    if k = 0 ∧ !s1.pathUp then s1.isolate
    else { s1 with sv := { s1.sv with due := some ⟨k, 1, s1.at 1024, true⟩ } }
  else s1

/-- HEARTBEAT_MISS_CHECK (R332). -/
def execHeartbeatMissCheck (sc : Nat) (s : State) : Out := .next (s.missCheck (sc % 2))

/-- A controller fault (R330): held in reset in the same clock. A takeover is due where it was ACTIVE and its peer STANDBY (R406). -/
def State.scFault (s : State) (k clk : Nat) : State :=
  let old := s.scRole k
  if !(old == scActive || old == scStandby || old == scBoot) then s else
  let s1 := (s.bump (Rg.SC_FAULT_CNT k)).setInt (Pg.SC k) Ib.SC_FAULT
  let s2 := s1.scFail k 2
  (if old = scActive ∧ s2.scRole (1 - k) = scStandby then
    { s2 with sv := { s2.sv with due := some ⟨1 - k, 2, s2.at clk, s2.pathUp⟩ } }
   else s2).scUpdate

/-- CONTROLLER_FAULT (R330). -/
def execControllerFault (sc clk : Nat) (s : State) : Out := .next (s.scFault (sc % 2) clk)

/-- The takeover that is due, at a tick boundary: the first after a decisive miss, the first at least 64 clocks after a
fault of which the standby was told (R334). -/
def State.takeover (s : State) : State :=
  match s.sv.due with
  | none => s
  | some d =>
    let k := d.standby
    if !d.told || decide (s.tk.start < d.since + (if d.cause = 2 then 64 else 0)) || s.scRole k != scStandby then s
    else if k = 0 ∧ !s.pathUp then s.isolate
    else
      let s1 : State := { s with sv := { s.sv with due := none } }
      let s2 := if s1.pathUp then
          (if s1.scRuns (1 - k) then s1.scFail (1 - k) d.cause else s1)
        else
          { (s1.setF (Rg.SC_STAT k) Fd.SC_STAT_PEER_ROLE scFailed) with sv := { s1.sv with hold := some d.cause } }
      ((((s2.scEnter k scActive).passOwner (1 - k) k).takeoverMarks k d.cause)).scUpdate

/-- TAKEOVER (R334). -/
def execTakeover (s : State) : Out := .next s.takeover

/-- A write of SC_CTRL: HOLD, RESTART and SWITCHOVER as R333 judges them, and AUTO_RESTART. -/
def State.scCtrlWrite (s : State) (who : Requester) (k v : Nat) : State :=
  let role := s.scRole k
  let s1 := s.fieldWrite (Rg.SC_CTRL k) v
  let hold := bit v 29
  let s2 := if hold then s1.scEnter k scHeld else if role = scHeld then s1.scEnter k scOff else s1
  let s3 := if !bit v 31 then s2
    else if reqNo who != 2 + k && !hold && [scFailed, scIsolated, scHeld].contains role then s2.scEnter k scOff
    else s2.setInt (Pg.SC k) Ib.SC_REFUSED
  let s4 := if !bit v 30 then s3
    else if reqNo who != 3 - k && s3.scRole k == scActive && s3.scRole (1 - k) == scStandby && s3.f (Rg.SC_STAT k) Fd.SC_STAT_MISS_RUN == 0
    then { s3 with sv := { s3.sv with swap := some k } }
    else s3.setInt (Pg.SC k) Ib.SC_REFUSED
  s4.scUpdate

/-- A write of SC_CTRL by a requester. -/
def State.onScCtrl (s : State) (a : Acc) (k v : Nat) : State :=
  s.onWrite a (Rg.SC_CTRL k) fun t => t.scCtrlWrite a.req k v

/-- SWITCHOVER (R333). -/
def execSwitchover (a : Acc) (sc : Nat) (v : Word) (s : State) : Out := .next (s.onScCtrl a (sc % 2) v.toNat)

/-- RESTART (R333). -/
def execRestart (a : Acc) (sc : Nat) (v : Word) (s : State) : Out := .next (s.onScCtrl a (sc % 2) v.toNat)

/-- HOLD (R333). -/
def execHold (a : Acc) (sc : Nat) (v : Word) (s : State) : Out := .next (s.onScCtrl a (sc % 2) v.toNat)

/-- The automatic restart of a FAILED controller (R333). -/
def State.autoRestart (s : State) (k : Nat) : State :=
  let n := s.f (Rg.SC_STAT k) Fd.SC_STAT_RESTARTS
  if s.scRole k == scFailed && s.fb (Rg.SC_CTRL k) Fd.SC_CTRL_AUTO_RESTART &&
      decide ((s.sc k).failed + s.f (Rg.SC_CFG k) Fd.SC_CFG_RESTART_DELAY ≤ s.tk.count ∧ n < s.f (Rg.SC_CFG k) Fd.SC_CFG_RESTART_MAX) then
    (((s.setF (Rg.SC_STAT k) Fd.SC_STAT_RESTARTS (n + 1)).bump (Rg.SC_RESTART_CNT k)).scEnter k scOff).scUpdate
  else s

/-- AUTO_RESTART (R333). -/
def execAutoRestart (sc : Nat) (s : State) : Out := .next (s.autoRestart (sc % 2))

/-- A controller that no image loads, or that has not kicked within 100 ms of its load, fails (R333). -/
def State.bootFail (s : State) (k : Nat) : State :=
  ((s.bump (Rg.SC_FAULT_CNT k)).scFail k 3).scUpdate

/-- BOOT_TIMEOUT (R333): 100 ms are 200,000,000 core clocks. -/
def execBootTimeout (sc clk : Nat) (s : State) : Out :=
  let k := sc % 2
  .next (if s.scRole k == scBoot && !(s.sc k).first && decide ((s.sc k).loaded + 200000000 ≤ s.at clk) then s.bootFail k else s)

/-- RESTARTS_CLEAR (R333). -/
def execRestartsClear (sc : Nat) (s : State) : Out :=
  let k := sc % 2
  .next (if (s.scRole k == scStandby || s.scRole k == scActive) && decide ((s.sc k).since + 65536 ≤ s.tk.count) then
    s.setF (Rg.SC_STAT k) Fd.SC_STAT_RESTARTS 0 else s)

/-- The split ends when a path returns: SC0 is held in reset as FAILED (R335). -/
def State.splitEnd (s : State) : State :=
  if !s.pathUp || !s.split then s else
  ({ s with sv := { s.sv with hold := none } }.scFail 0 0).scUpdate

/-- SPLIT_END (R335). -/
def execSplitEnd (s : State) : Out := .next s.splitEnd

/-- One controller at a tick boundary (R332): a heartbeat is sent for a kick, a missing kick is an overrun, and the paths of
the tick that ends are shown. -/
def State.scTickOne (s : State) (k : Nat) : State :=
  let x := s.sc k
  let role := s.scRole k
  let s1 := if !x.kicked && (role == scStandby || role == scActive) then s.overrun (6 + k) else s
  let s2 := (s1.setF (Rg.SC_STAT k) Fd.SC_STAT_PATH_LINK (b2n x.gotLink)).setF (Rg.SC_STAT k) Fd.SC_STAT_PATH_MGMT (b2n x.gotMgmt)
  let y := { x with gotLink := false, gotMgmt := false, kicked := false, sent := none }
  if x.kicked && s.scRuns k then
    let w := x.seq % 65536 * 65536 + role * 8192
    (s2.setSc k { y with sent := some w, seq := (x.seq + 1) % 65536 }).emit (.heartbeat k w)
  else s2.setSc k y

/-- The controllers at a tick boundary: heartbeats; an accepted SWITCHOVER; and the controllers whose first kick found no ACTIVE peer,
of which SC1 wins a tie (R332, R333, R334). -/
def State.scTick (s : State) : State :=
  let s1 := (s.scTickOne 0).scTickOne 1
  let s2 : State := match s1.sv.swap with
    | none => s1
    | some k =>
      if s1.scRole k == scActive && s1.scRole (1 - k) == scStandby then
        (((s1.scEnter k scStandby).scEnter (1 - k) scActive).passOwner k (1 - k)).takeoverMarks (1 - k) 3
      else s1
  let s3 : State := { s2 with sv := { s2.sv with swap := none } }
  ([1, 0].foldl (fun (t : State) (k : Nat) =>
    if t.scRole k == scBoot && (t.sc k).first then
      (if t.scRole (1 - k) == scActive || t.sv.due.isSome then (if t.scRole (1 - k) == scActive then t.scEnter k scStandby else t)
       else t.scEnter k scActive)
    else t) s3).scUpdate

end Sys2Proof.Machine
end

