-- ==== Sys2Proof/Machine/Learn.lean ====
section
/-! DEFINITION. The learn engine and the aging scan (chapter 7, R168 to R177). Queue `n` is ingress slice n below 9, egress slice
n − 9 above (R171). -/
namespace Sys2Proof.Machine

/-- A learn queue. -/
def State.learnQ (s : State) (q : Nat) : List LearnEv := sget [] s.ln.queues q

/-- A learn queue replaced. -/
def State.setLearnQ (s : State) (q : Nat) (l : List LearnEv) : State := { s with ln := { s.ln with queues := sset [] s.ln.queues q l } }

/-- A learn event queued by a slice: filtered, dropped at a full queue, or kept (R170). -/
def State.learnPut (s : State) (q table fid mac sport : Nat) : State :=
  let l := s.learnQ q
  let e : LearnEv := ⟨s.tk.count, table % 32, fid % 2 ^ 16, mac % 2 ^ 48, sport % 2 ^ 17⟩
  if ((l.filter fun x => x.tick == s.tk.count).reverse.take 64).contains e then s.bump Rg.LEARN_FILTERED_CNT
  else if 512 ≤ l.length then (s.bump Rg.LEARN_QUEUE_DROP_CNT).setInt Pg.LEARN Ib.LEARN_QUEUE_DROP
  else s.setLearnQ q (l ++ [e])

/-- A notification posted where its kind is enabled (R175). -/
def State.learnNote (s : State) (kind table old fid mac new : Nat) : State :=
  if !bit (s.f Rg.LEARN_CFG Fd.LEARN_CFG_NOTE_EN) (kind - 1) then s
  else if 4096 ≤ s.ln.notes.length then (s.bump Rg.LEARN_NOTE_DROP_CNT).setInt Pg.LEARN Ib.LEARN_NOTE_DROP
  else
    let r := (2 ^ 31 + kind * 2 ^ 28 + table % 32 * 2 ^ 23 + old % 2 ^ 17, fid % 2 ^ 16 * 2 ^ 16 + mac / 2 ^ 32 % 2 ^ 16, mac % 2 ^ 32,
      s.tickCount % 2 ^ 15 * 2 ^ 17 + new % 2 ^ 17)
    { s with ln := { s.ln with notes := s.ln.notes ++ [r] } }.setIntIf s.ln.notes.isEmpty Pg.LEARN Ib.LEARN_NOTE_READY

/-- Kinds of notification (R175). -/
abbrev nkNew : Nat := 1
abbrev nkMove : Nat := 2
abbrev nkAged : Nat := 3
abbrev nkFrozen : Nat := 4
abbrev nkStatic : Nat := 5
abbrev nkFull : Nat := 6

/-- A move of a dynamic entry, a flap within HOLDOFF, a freeze at FLAP_THR (R173). -/
def State.learnMove (s : State) (c : ExmCfg) (i e sport : Nat) : State :=
  let flap := decide ((s.superframe + 4096 - l2Move e) % 4096 < s.f Rg.LEARN_CFG Fd.LEARN_CFG_HOLDOFF)
  let n := if flap then min 7 (l2Flap e + 1) else 0
  let thr := s.f Rg.LEARN_CFG Fd.LEARN_CFG_FLAP_THR
  let s1 := (s.bump Rg.LEARN_MOVE_CNT).bumpIf flap Rg.LEARN_FLAP_CNT
  if thr ≠ 0 ∧ thr ≤ n then
    let s2 := s1.exmPut c i (setBits (setBit e 125) 122 3 n)
    ((s2.bump Rg.LEARN_FREEZE_CNT).setInt Pg.LEARN Ib.LEARN_FREEZE).learnNote nkFrozen c.t (l2Sport e) (l2Fid e) (l2Mac e) sport
  else
    let s2 := s1.exmPut c i (mkL2 false false n s.superframe s.ageCur sport (bits e 77 8) (l2Fid e) (l2Mac e))
    s2.learnNote nkMove c.t (l2Sport e) (l2Fid e) (l2Mac e) sport

/-- One event processed against the entry as it stands (R172). -/
def State.learnOne (s : State) (ev : LearnEv) : State :=
  let c := s.exm ev.table
  if !c.en || c.typ != 2 then s.bump Rg.LEARN_BAD_TABLE_CNT else
  let key := ev.fid * 2 ^ 48 + ev.mac
  match s.exmFind c rkCur key with
  | none =>
    let full := ((s.bump Rg.LEARN_FULL_CNT).setInt Pg.LEARN Ib.LEARN_FULL).learnNote nkFull ev.table 0 ev.fid ev.mac ev.sport
    if s.l2Full then full else
    match s.exmInsert c key (mkL2 false false 0 s.superframe s.ageCur ev.sport 0 ev.fid ev.mac) with
    | none => full
    | some (s1, _, _) => (s1.bump Rg.LEARN_NEW_CNT).learnNote nkNew ev.table 0 ev.fid ev.mac ev.sport
  | some i =>
    let e := s.exmEnt c i
    let same := l2Sport e == ev.sport
    if l2Static e then
      if same then s
      else ((s.bump Rg.LEARN_STATIC_CONFLICT_CNT).setInt Pg.LEARN Ib.LEARN_STATIC_CONFLICT).learnNote nkStatic ev.table
        (l2Sport e) ev.fid ev.mac ev.sport
    else if same then
      (if l2Frozen e then s else s.bump Rg.LEARN_REFRESH_CNT).exmPut c i (setBits e 102 8 s.ageCur)
    else if l2Frozen e then s.bump Rg.LEARN_FROZEN_HIT_CNT
    else s.learnMove c i e ev.sport

/-- The next event of the batches of earlier ticks: the oldest tick, then the lowest queue (R171). -/
def State.learnNext (s : State) : Option (Nat × LearnEv) :=
  (List.range 18).foldl (fun (b : Option (Nat × LearnEv)) q =>
    match (s.learnQ q).head? with
    | none => b
    | some e =>
      if s.tk.count ≤ e.tick then b else
      match b with
      | none => some (q, e)
      | some x => if e.tick < x.2.tick then some (q, e) else b) none

/-- Whether the remainder of a batch is pending: an event older than the batch of this tick (R171). -/
def State.learnCarry (s : State) : Bool := (List.range 18).any fun q => (s.learnQ q).any fun e => decide (e.tick + 1 < s.tk.count)

/-- The learn engine takes its next event, at most 512 in a tick; LEARN_STAT.CARRY ends with the remainder (R171). -/
def State.learnEvent (s : State) : State :=
  if !s.fb Rg.LEARN_CFG Fd.LEARN_CFG_EN then s else
  let done := if s.ln.batchTick = s.tk.count then s.ln.done else 0
  if 512 ≤ done then s else
  match s.learnNext with
  | none => s
  | some (q, e) =>
    let s1 := s.setLearnQ q (s.learnQ q).tail
    let s2 := if s1.learnCarry then s1 else s1.setF Rg.LEARN_STAT Fd.LEARN_STAT_CARRY 0
    { s2 with ln := { s2.ln with batchTick := s.tk.count, done := done + 1 } }.learnOne e

/-- LEARN_EVENT (R172). -/
def execLearnEvent (s : State) : Out := .next s.learnEvent

/-- What a tick boundary does to the learn queues, the count already advanced: with EN = 0 every event is discarded; with EN = 1
a batch remainder carries and is counted (R171). -/
def State.learnBoundary (s : State) : State :=
  if !s.fb Rg.LEARN_CFG Fd.LEARN_CFG_EN then
    { s with ln := { s.ln with queues := [] } }.setF Rg.LEARN_STAT Fd.LEARN_STAT_CARRY 0
  else
    let carry := s.learnCarry
    let s1 := s.setF Rg.LEARN_STAT Fd.LEARN_STAT_CARRY (b2n carry)
    if carry then s1.overrun 1 else s1

/-- A read of LEARN_NOTE_W0 pops the head record into W0 to W3 (R175). -/
def State.learnPop (s : State) : State × Nat :=
  match s.ln.notes with
  | [] => (s.wr Rg.LEARN_NOTE_W0 0, 0)
  | (w0, w1, w2, w3) :: r =>
    (((({ s with ln := { s.ln with notes := r } }.wr Rg.LEARN_NOTE_W0 w0).wr Rg.LEARN_NOTE_W1 w1).wr Rg.LEARN_NOTE_W2 w2).wr
      Rg.LEARN_NOTE_W3 w3, w0)

/-- LEARN_NOTE_POP (R175). A user read pops nothing, and a host read finds no record while the DMA engine drains the FIFO (R373). -/
def execLearnNotePop (a : Acc) (s : State) : Out :=
  .next (s.onRead a Rg.LEARN_NOTE_W0 fun t => if a.user then (t, t.rd Rg.LEARN_NOTE_W0)
    else if t.fb Rg.DMA_NOTE_CFG Fd.DMA_NOTE_CFG_EN then (t.wr Rg.LEARN_NOTE_W0 0, 0) else t.learnPop)

/-! ## Aging -/

/-- The tables that the scan visits, ascending (R176). -/
def State.agedTables (s : State) : List ExmCfg :=
  ((List.range 32).map s.exm).filter fun c => c.en && c.typ == 2 && c.age

/-- Slots of the aged tables. -/
def State.agedSlots (s : State) : Nat := (s.agedTables.map ExmCfg.slots).sum

/-- The table and index of slot `n` of the aged tables. -/
def agedAt : List ExmCfg → Nat → Option (ExmCfg × Nat)
  | [], _ => none
  | c :: l, n => if n < c.slots then some (c, n * c.width) else agedAt l (n - c.slots)

/-- A pass starts, or its start is delayed by the pass that still runs (R176, R177). -/
def State.ageStart (s : State) : State :=
  if !s.fb Rg.AGE_CFG Fd.AGE_CFG_EN || decide (s.tk.count < s.ln.ageNext) then s
  else if s.ln.ageRun then
    if s.ln.ageLong then s
    else ({ s with ln := { s.ln with ageLong := true } }.bump Rg.AGE_PASS_LONG_CNT).setInt Pg.AGE Ib.AGE_PASS_LONG
  else
    let n := s.agedSlots
    let s1 := (s.setF Rg.AGE_STAT Fd.AGE_STAT_CUR ((s.ageCur + 1) % 256)).wr Rg.AGE_PASS_CNT ((s.rd Rg.AGE_PASS_CNT + 1) % 2 ^ 32)
    let s2 : State := { s1 with ln := { s1.ln with
      agePos := 0, ageTotal := n, ageRun := decide (n ≠ 0), ageLong := false, ageCarry := 0, ageNext := s.tk.count + s.rd Rg.AGE_PASS } }
    s2.setIntIf (n == 0) Pg.AGE Ib.AGE_PASS_DONE

/-- AGE_PASS_START (R177). -/
def execAgePassStart (s : State) : Out := .next s.ageStart

/-- One slot visited (R176). -/
def State.ageVisit (s : State) (pos : Nat) : State :=
  match agedAt s.agedTables pos with
  | none => s
  | some (c, i) =>
    let s1 := (s.setF Rg.AGE_STAT Fd.AGE_STAT_TABLE c.t).setF Rg.AGE_STAT Fd.AGE_STAT_POS (i / 4 % c.nb / 64)
    let e := s.exmEnt c i
    if c.valid e && !l2Static e && decide (s.f Rg.AGE_CFG Fd.AGE_CFG_AGE_LIMIT ≤ (s.ageCur + 256 - l2Age e) % 256) then
      ((s1.exmFree c i).bump Rg.AGE_OUT_CNT).learnNote nkAged c.t (l2Sport e) (l2Fid e) (l2Mac e) 0
    else s1

/-- The scan's visits of this tick: its quota with what it carries, at most 1,024; `n` of them were made (R177). -/
def State.ageScan (s : State) (n : Nat) : State :=
  if !s.fb Rg.AGE_CFG Fd.AGE_CFG_EN || !s.ln.ageRun || s.ln.ageTick == s.tk.count + 1 then s else
  let quota := min 1024 (ceilDiv s.ln.ageTotal (s.rd Rg.AGE_PASS)) + s.ln.ageCarry
  let left := s.ln.ageTotal - s.ln.agePos
  let m := min (min n (min 1024 quota)) left
  let s1 := (List.range m).foldl (fun t j => t.ageVisit (s.ln.agePos + j)) s
  let carry := min quota left - m
  let s2 : State := { s1 with ln := { s1.ln with agePos := s.ln.agePos + m, ageCarry := carry, ageTick := s.tk.count + 1 } }
  let s3 := if carry = 0 then s2 else s2.overrun 2
  if s3.ln.agePos < s3.ln.ageTotal then s3
  else { s3 with ln := { s3.ln with ageRun := false } }.setInt Pg.AGE Ib.AGE_PASS_DONE

/-- AGE_SCAN_VISIT (R176). -/
def execAgeScanVisit (n : Nat) (s : State) : Out := .next (s.ageScan n)

end Sys2Proof.Machine
end

