-- ==== Sys2Proof/Machine/Scrub.lean ====
section
/-! DEFINITION. Sinter and the repair of hard words (chapter 13, R303, R306 to R310, R312). -/
namespace Sys2Proof.Machine

/-! ## PG_FLIP and the rewrite FIFO -/

/-- A write of PG_FLIP of page `p`: the fields are kept, and ARM stands until the next write of the page's memories (R303). -/
def State.flipWrite (s : State) (p v : Nat) : State :=
  let a := 0x1000 * p + 0x03C
  match findReg a with
  | none => s
  | some _ =>
    let s1 := s.fieldWrite a v
    if bit v 31 then s1.wr a (setBit (s1.rd a) 31) else s1

/-- PG_FLIP (R303). -/
def execPgFlip (a : Acc) (page : Nat) (v : Word) (s : State) : Out :=
  .next (s.onWrite a (0x1000 * page + 0x03C) fun t => t.flipWrite page v.toNat)

/-- A read of SCRUB_RW_W0 pops the head rewrite record into W0 and W1 (SCRUB registers); a user read pops nothing. -/
def State.rwPop (s : State) : State × Nat :=
  match s.ra.rw with
  | [] => let t := (s.wr Rg.SCRUB_RW_W0 0).wr Rg.SCRUB_RW_W1 0; (t, 0)
  | (c, m, a) :: rest =>
    let w := 2 ^ 31 + c % 16 * 2 ^ 26 + m % 256 * 2 ^ 18
    ((({ s with ra := { s.ra with rw := rest } }).wr Rg.SCRUB_RW_W0 w).wr Rg.SCRUB_RW_W1 a, w)

/-- SCRUB_RW_POP (R307). A host read finds no record while the DMA engine drains the FIFO (R373). -/
def execScrubRwPop (a : Acc) (s : State) : Out :=
  .next (s.onRead a Rg.SCRUB_RW_W0 fun t => if a.user then (t, t.rd Rg.SCRUB_RW_W0)
    else if t.fb Rg.DMA_RW_CFG Fd.DMA_RW_CFG_EN then (t.wr Rg.SCRUB_RW_W0 0, 0) else t.rwPop)

/-! ## History and repair (R309, R310) -/

/-- The die of a class (R305). -/
def classDie (cls : Nat) : Nat := if cls < 7 then 0 else 1

/-- Passes completed by a walker. -/
def State.passes (s : State) (cls : Nat) : Nat := s.f (Rg.SCRUB_CLASS_STAT cls) Fd.SCRUB_CLASS_STAT_PASSES

/-- A walker's history without entries more than 4 passes old. -/
def State.history (s : State) (cls : Nat) : List (Nat × Nat × Bool) :=
  (sget [] s.ra.hist cls).filter fun e => decide ((s.passes cls + 32768 - e.2.1) % 32768 ≤ 4)

/-- A find entered into a walker's history of 64; the oldest entry gives way where it is full (R309). -/
def State.histAdd (s : State) (cls key : Nat) (ue : Bool) : State :=
  let h := s.history cls ++ [(key, s.passes cls, ue)]
  let s1 : State := { s with ra := { s.ra with hist := sset [] s.ra.hist cls (if 64 < h.length then h.drop 1 else h) } }
  s1.bumpIf (decide (64 < h.length)) Rg.SCRUB_HIST_EVICT_CNT

/-- A repair that finds its CAM or its list full counted (R310). -/
def State.repairFull (s : State) (die : Nat) : State :=
  (s.bump (Rg.RAS_REPAIR_FULL_CNT die)).setInt (Pg.RAS die) Ib.RAS_REPAIR_FULL

/-- A hard SRAM word redirected to a spare of its bank's repair CAM of 64 entries, and entered in the die's list of 1,024 (R310). -/
def State.sramRepair (s : State) (cls pg mem addr : Nat) : State :=
  let die := classDie cls
  let bank := wkey pg mem 0
  let key := wkey pg mem addr
  if s.ra.repaired.contains key then s
  else if 64 ≤ sget 0 s.ra.cam bank then s.repairFull die
  else
    let s1 : State := { s with ra := { s.ra with cam := sset 0 s.ra.cam bank (sget 0 s.ra.cam bank + 1), repaired := s.ra.repaired ++ [key] } }
    let s1 := if pg = Pg.EXM ∧ mem < 64 ∧ 64 ≤ sget 0 s1.ra.cam bank then s1.setInt (Pg.HSG (mem / 8)) Ib.HSG_CAM_FULL else s1
    let s1 := s1.log pg 0x0032 (cls + addr % 2 ^ 32 * 2 ^ 8 + mem % 256 * 2 ^ 40)
    let used := s1.rd (Rg.RAS_REPAIR_USED die)
    if 1024 ≤ used then s1.repairFull die else (s1.wr (Rg.RAS_REPAIR_USED die) (used + 1)).emWrote 1

/-- A word declared hard (R309, R310). -/
def State.hardWord (s : State) (cls pg mem addr : Nat) : State :=
  let s1 := s.bump (Rg.SCRUB_HARD_CNT cls)
  if isHbmc pg then
    (if s1.hb.hard.contains ((pg - Pg.HBMC 0) / 0x1000 * 64 + mem, addr) then s1
     else { s1 with hb := { s1.hb with hard := s1.hb.hard ++ [((pg - Pg.HBMC 0) / 0x1000 * 64 + mem, addr)] } })
  else if cls ≤ 11 then s1.sramRepair cls pg mem addr
  else s1

/-! ## Queue and credit state lost (R306) -/

/-- An entry of queue or credit state takes its reset value, with what that entails (R306). -/
def State.loseState (s : State) (pg mem addr : Nat) : State :=
  let s1 := (s.bump (Rg.RAS_STATE_LOST_CNT 1)).setInt (Pg.RAS 1) Ib.RAS_STATE_LOST
  if pg = Pg.VOQ then
    (if mem = 0 then s1.voqLose addr else (s1.setTbl Pg.VOQ 1 addr 0).staleGrants addr)
  else if pg = Pg.EQS then
    (if mem = 4 then s1.setQueue addr [] else s1.clrTbl Pg.EQS mem addr 1)
  else if pg = Pg.FCRD then
    (if mem = 0 then
      (let l := s1.fab.store.flatMap fun e => e.2.map fun r => (e.1, r)
       match l[addr]? with
       | some (eq, r) => s1.setStore (sset [] s1.fab.store eq ((sget [] s1.fab.store eq).erase r))
       | none => s1)
     else if mem = 1 then s1.setTags (sdel s1.fab.tags addr)
     else
      (let l := s1.voqs.flatMap fun e => e.2.grants.map fun g => (e.1, g)
       match l[addr]? with
       | some (v, g) => s1.setVoq v { s1.voq v with grants := (s1.voq v).grants.erase g }
       | none => s1))
  else if pg = Pg.SHP then (s1.clrTbl Pg.SHP 0 addr 1).setLevel addr 0
  else s1.clrTbl pg mem addr 1

/-- STATE_LOST_CLEANUP: every cell and page that names a lost queue is freed (R306). -/
def State.stateCleanup (s : State) (page mem addr : Nat) : State :=
  let pg := 0x1000 * page
  if pg = Pg.VOQ ∧ mem = 0 then s.voqWipe addr
  else if pg = Pg.EQS ∧ mem = 4 then
    (s.eg.pk.filter fun e => e.2.eq == addr && e.2.enq.isSome && e.2.handed.isNone && !(s.queue addr).contains e.1).foldl
      (fun t e => t.dropEpkt e.1) s
  else s

/-- STATE_LOST_CLEANUP (R306). -/
def execStateLostCleanup (page mem addr : Nat) (s : State) : Out := .next (s.stateCleanup page mem addr)

/-! ## Visits (R307 to R309) -/

/-- Whether Sinter skips a rank: in self-refresh, or SPARE, RETIRED, FAILED, MIGRATING or TARGET (R307). -/
def State.rankSkipped (s : State) (k r : Nat) : Bool := s.rankSr k r || s.rankState k r != rkActive

/-- A correction that Sinter found: written back unless newer data is there, and checked against the history (R308, R309). -/
def State.sinterCorrected (s : State) (cls pg mem addr : Nat) (e : WordErr) (newer : Bool) : State :=
  let key := wkey pg mem addr
  let hard := (s.history cls).any fun h => h.1 == key
  let s1 := (s.meetErr pg cls mem addr e true).bump (Rg.SCRUB_CE_CNT cls)
  let s2 := if newer then (s1.setMark pg mem addr {}).bump (Rg.SCRUB_WB_SKIP_CNT cls) else s1.wroteWord pg mem addr
  let s3 := if cls = 14 ∧ !newer then s2.emWrote 1 else s2
  let s4 := s3.histAdd cls key false
  if hard then s4.hardWord cls pg mem addr else s4

/-- An uncorrectable word that Sinter found: poisoned in place, with a rewrite record for classes 0, 2, 12 and 13 (R307, R309). Queue
and credit state is held twice: the bad copy is rewritten, or the entry is lost where both are bad (R306). -/
def State.sinterUncorr (s : State) (cls pg mem addr : Nat) (e : WordErr) (bothBad : Bool) : State :=
  let key := wkey pg mem addr
  let hard := (s.history cls).any fun h => h.1 == key && h.2.2
  let s1 := (s.meetErr pg cls mem addr e true).bump (Rg.SCRUB_UE_CNT cls)
  let s2 := if cls = 10 then (if bothBad then s1.loseState pg mem addr else s1)
    else s1.setMark pg mem addr { kind := 3, syn := 0xFFFF }
  let s3 := if cls ∈ [0, 2, 12, 13] then s2.rwRequest cls mem (if isHbmc pg then addr / 2 else addr) else s2
  let s4 := s3.histAdd cls key true
  if hard then s4.hardWord cls pg mem addr else s4

/-- SINTER_VISIT: the walker of a class visits one word, whose stored errors are those of the model or the upset that `kind`, `symbol`,
`pattern` and `syn` describe; `newer`: a write overtook the write-back; `pos` and `endPass` place the walker in its pass. -/
def State.sinterVisit (s : State) (cls page mem addr kind symbol pattern syn pos : Nat) (endPass newer bothBad : Bool) : State :=
  let pg := 0x1000 * page
  if 15 ≤ cls ∨ cls = 7 ∨ !s.fb Rg.SCRUB_CTRL Fd.SCRUB_CTRL_EN ∨ !s.fb (Rg.SCRUB_CLASS_CFG cls) Fd.SCRUB_CLASS_CFG_EN then s else
  let skip := isHbmc pg && s.rankSkipped ((pg - Pg.HBMC 0) / 0x1000) mem
  let old := s.mark pg mem addr
  let e : WordErr := if old.kind = 3 ∨ kind = 0 then old
    else { kind := min 2 kind, symbol := symbol % 36, pattern := pattern % 16, syn := syn % 2 ^ 16, half := old.half }
  let s1 := if skip then s.bumpIf (decide (addr % 32 = 0)) Rg.SCRUB_SKIP_CNT
    else if e.kind = 1 then s.sinterCorrected cls pg mem addr e newer
    else if e.kind = 2 then s.sinterUncorr cls pg mem addr e bothBad
    else s
  let a := Rg.SCRUB_CLASS_STAT cls
  let s2 := s1.setF a Fd.SCRUB_CLASS_STAT_POS (if endPass then 0 else pos)
  if endPass then s2.setF a Fd.SCRUB_CLASS_STAT_PASSES (s2.passes cls + 1) else s2

/-- SINTER_VISIT (R307). -/
def execSinterVisit (cls page mem addr kind symbol pattern syn pos : Nat) (endPass newer bothBad : Bool) (s : State) : Out :=
  .next (s.sinterVisit cls page mem addr kind symbol pattern syn pos endPass newer bothBad)

/-- The walkers at a tick boundary: `scrub` names the classes that carry a remainder of their quota (R307, R50). -/
def State.scrubTick (s : State) (scrub : Nat) : State :=
  let s1 := (List.range 15).foldl (fun t c =>
    let on := bit scrub c && t.fb (Rg.SCRUB_CLASS_CFG c) Fd.SCRUB_CLASS_CFG_EN
    let a := Rg.SCRUB_CLASS_STAT c
    let was := t.fb a Fd.SCRUB_CLASS_STAT_SLIPPING
    (t.setF a Fd.SCRUB_CLASS_STAT_SLIPPING (b2n on)).setIntIf (on && !was) Pg.SCRUB Ib.SCRUB_SLIP) s
  if scrub % 2 ^ 15 = 0 then s1 else s1.overrun 5

/-! ## Summaries (R312) -/

/-- RAS_CE_PEND (`b` = 30) or RAS_UE_PEND (`b` = 31), word `w`, of a die: the pages whose bit is set. -/
def State.rasPend (s : State) (die b w : Nat) : Nat :=
  maskOf ((List.range 32).filter fun i =>
    let page := 0x1000 * die + 32 * w + i
    pagePresent s.part page && bit (s.rd (0x1000 * page + 0x010)) b)

end Sys2Proof.Machine
end

