-- ==== Sys2Proof/Machine/Update.lean ====
section
/-! DEFINITION. Images and eMRAM (chapter 15, R340 to R354): the staging slot and its lock, verification, the digest table,
anti-rollback, part starts with activation, resident and golden loads, compatibility, and the tables of pages UPD and EMRAM. What the
checks of cryptography find of an image is an operand of the command that ends them. -/
namespace Sys2Proof.Machine

/-! ## eMRAM words -/

/-- eMRAM word addresses (16 bytes each) of R352; within the security store the places are the model's. -/
abbrev emStage (b : Nat) : Nat := 4 * b
abbrev emSlot (j b : Nat) : Nat := 0x4000 + 0x4000 * j + 4 * b
abbrev emLogAt (r : Nat) : Nat := 0x2C000 + 2 * r
abbrev emDigest (d : Nat) : Nat := 0x3C000 + 4 * d
abbrev emArb (k c : Nat) : Nat := 0x40000 + 3 * k + c
abbrev emFloor (k c : Nat) : Nat := 0x40020 + 3 * k + c
abbrev emKey (c b : Nat) : Nat := 0x40100 + 8 * c + 4 * b
abbrev emSec : Nat := 0x40200
abbrev emStore (b : Nat) : Nat := 0x42000 + 4 * b

/-- `n` eMRAM words written (R298, EMRAM_WRITE_CNT). -/
def State.emPut (s : State) (addr n : Nat) : State := (s.wroteWords Pg.EMRAM 0 addr n).emWrote n

/-- A read of `n` eMRAM words: each lost one is counted and flagged (R353). Answers whether all decoded. -/
def State.emGet (s : State) (addr n : Nat) : State × Bool :=
  ((s.markedIn Pg.EMRAM 0).filter fun w => decide (addr ≤ w ∧ w < addr + n)).foldl (fun (a : State × Bool) (w : Nat) =>
    let r := a.1.readWord Pg.EMRAM 14 0 w
    if r.2 then (r.1, a.2) else (r.1.setInt Pg.EMRAM Ib.EMRAM_UNCORR, false)) (s, true)

/-! ## Images -/

/-- Bytes [o, o + n) of an image header, little-endian (R341). -/
def hbyte (h o n : Nat) : Nat := bits h (8 * o) (8 * n)
/-- KIND of a header. -/
abbrev hKind (h : Nat) : Nat := hbyte h 5 1
/-- SEQ of a header. -/
abbrev hSeq (h : Nat) : Nat := hbyte h 8 8
/-- The 64-byte blocks that an image occupies (R345), at most the slot's. -/
def hBlocks (h : Nat) : Nat := min 4096 (ceilDiv (512 + hbyte h 16 4) 64)

/-- USES of a kind (R340). -/
def usesOf (k : Nat) : Nat := if k = 1 then 0b1101 else if k = 2 then 0b0110 else 0b1000

/-- A header held in the first eight blocks of a table. -/
def State.hdrAt (s : State) (t : Nat) : Nat := (List.range 8).foldl (fun a b => a + s.tbl Pg.UPD t b * 2 ^ (512 * b)) 0

/-- Step 1 of R346: MAGIC, HDR_VER, KIND, FLAGS, USES and reserved bytes. GOLDEN is valid in flash only. -/
def hdrGood (h : Nat) (golden : Bool) : Bool :=
  hbyte h 0 4 == 0x4E494D47 && hbyte h 4 1 == 1 && decide (1 ≤ hKind h ∧ hKind h ≤ 5) &&
  hbyte h 6 2 / 4 == 0 && bit (hbyte h 6 2) 1 == golden && hbyte h 24 1 == usesOf (hKind h) &&
  hbyte h 22 2 == 0 && hbyte h 25 1 == 0 && hbyte h 34 14 == 0 && hbyte h 173 3 == 0 && hbyte h 416 96 == 0

/-- Step 3 of R346 but for KEY_ID: TARGET names this part and stepping A2. -/
def hdrHere (p : Part) (h : Nat) : Bool :=
  bit (hbyte h 20 2) (match p with | .lmb4812 => 0 | .lmb4806 => 1) && hbyte h 21 1 == 0xA2

/-- UPD result codes. -/
abbrev upOk : Nat := 0x00
abbrev upNoLock : Nat := 0x02
abbrev upBadHeader : Nat := 0x03
abbrev upTooLarge : Nat := 0x04
abbrev upWrongPart : Nat := 0x05
abbrev upBadSig : Nat := 0x06
abbrev upCustRequired : Nat := 0x07
abbrev upBadCustSig : Nat := 0x08
abbrev upSeqCollision : Nat := 0x09
abbrev upDigestFull : Nat := 0x0A
abbrev upNotNewer : Nat := 0x0B
abbrev upBadTag : Nat := 0x0C
abbrev upNotVerified : Nat := 0x0D
abbrev upKindMismatch : Nat := 0x0E
abbrev upPartAbsent : Nat := 0x0F
abbrev upPartState : Nat := 0x10
abbrev upBusy : Nat := 0x11
abbrev upCompat : Nat := 0x12
abbrev upCompatAbi : Nat := 0x13
abbrev upArbLost : Nat := 0x14
abbrev upBelowFloor : Nat := 0x15
abbrev upNoImage : Nat := 0x16

/-- UPD_STAT.SLOT encodings. -/
abbrev slEmpty : Nat := 0
abbrev slLoaded : Nat := 1
abbrev slVerifying : Nat := 2
abbrev slVerified : Nat := 3
abbrev slRefused : Nat := 4

/-- UPD_STAT.SLOT. -/
def State.updSlot (s : State) : Nat := s.f Rg.UPD_STAT Fd.UPD_STAT_SLOT
/-- UPD_STAT.SLOT set. -/
def State.setSlot (s : State) (x : Nat) : State := s.setF Rg.UPD_STAT Fd.UPD_STAT_SLOT x

/-- KIND and SEQ of UPD_STAT and UPD_SEQ brought up to the staged header. -/
def State.updShow (s : State) : State :=
  let h := s.hdrAt 0
  (s.setF Rg.UPD_STAT Fd.UPD_STAT_KIND (hKind h % 16)).wr64 Rg.UPD_SEQ_LO (hSeq h)

/-! ## The lock -/

/-- Whether a requester holds the staging lock (R344). -/
def State.holdsLock (s : State) (r : Requester) : Bool :=
  match Machine.portOf r with
  | some p => s.fb Rg.UPD_LOCK_STAT Fd.UPD_LOCK_STAT_HELD && s.f Rg.UPD_LOCK_STAT Fd.UPD_LOCK_STAT_OWNER == p
  | none => false

/-- Activity of the lock holder at a clock (R344). -/
def State.lockTouch (s : State) (r : Requester) (clk : Nat) : State :=
  if s.holdsLock r then { s with up := { s.up with lockAt := s.at clk } } else s

/-- A request for the lock (R344). -/
def State.lockReq (s : State) (r : Requester) (clk : Nat) : State :=
  match Machine.portOf r with
  | none => s
  | some p =>
    let res := if p = 0 then Fd.UPD_LOCK_STAT_RES0 else Fd.UPD_LOCK_STAT_RES1
    if s.holdsLock r then s.setF Rg.UPD_LOCK_STAT res 0
    else if s.fb Rg.UPD_LOCK_STAT Fd.UPD_LOCK_STAT_HELD then s.setF Rg.UPD_LOCK_STAT res 1
    else
      let s1 := ((s.setF Rg.UPD_LOCK_STAT Fd.UPD_LOCK_STAT_HELD 1).setF Rg.UPD_LOCK_STAT Fd.UPD_LOCK_STAT_OWNER p).setF Rg.UPD_LOCK_STAT res 0
      { s1 with up := { s1.up with lockAt := s1.at clk } }.setInt Pg.UPD Ib.UPD_LOCK_CHANGE

/-- The lock is released; the staged image stays (R344). -/
def State.lockFree (s : State) : State :=
  if s.fb Rg.UPD_LOCK_STAT Fd.UPD_LOCK_STAT_HELD then
    (s.setF Rg.UPD_LOCK_STAT Fd.UPD_LOCK_STAT_HELD 0).setInt Pg.UPD Ib.UPD_LOCK_CHANGE
  else s

/-- UPD_LOCK_REQ (R344): a write of UPD_LOCK with REQ. -/
def execUpdLockReq (a : Acc) (s : State) : Out :=
  .next (s.onWrite a Rg.UPD_LOCK fun t => t.lockReq a.req a.clk)

/-- UPD_LOCK_RELEASE (R344): a write of UPD_LOCK with RELEASE. -/
def execUpdLockRelease (a : Acc) (s : State) : Out :=
  .next (s.onWrite a Rg.UPD_LOCK fun t => if t.holdsLock a.req then t.lockFree else t)

/-- LOCK_TIMEOUT (R344): LOCK_TIMEOUT seconds, of 2 × 10⁹ core clocks each, without activity of the holder. -/
def execLockTimeout (clk : Nat) (s : State) : Out :=
  .next (if s.up.lockAt + s.f Rg.UPD_CFG Fd.UPD_CFG_LOCK_TIMEOUT * 2000000000 ≤ s.at clk then s.lockFree else s)

/-! ## Commands of UPD_CMD -/

/-- The issuer of a command recorded, and a holder's activity (R344, UPD_STAT). -/
def State.updIssued (s : State) (a : Acc) : State :=
  (s.lockTouch a.req a.clk).setF Rg.UPD_STAT Fd.UPD_STAT_REQUESTER (reqNo a.req)

/-- RESULT recorded; anything but OK is counted. -/
def State.updResult (s : State) (code : Nat) : State :=
  (s.setF Rg.UPD_STAT Fd.UPD_STAT_RESULT code).bumpIf (code != upOk) Rg.UPD_REFUSE_CNT

/-- A command refused at once. -/
def State.updRefuse (s : State) (code : Nat) : State := (s.updResult code).setInt Pg.UPD Ib.UPD_REFUSED

/-- A log record of the staging slot or of a load (R354). -/
def State.updLog (s : State) (code low h : Nat) : State :=
  s.log Pg.UPD code (low % 256 + hKind h % 16 * 2 ^ 8 + hSeq h % 2 ^ 32 * 2 ^ 16)

/-- VERIFY (R345, R346). -/
def State.verify (s : State) (a : Acc) : State :=
  let s1 := s.updIssued a
  if !s1.holdsLock a.req then s1.updRefuse upNoLock
  else if s1.updSlot = slVerifying ∨ s1.fb Rg.UPD_STAT Fd.UPD_STAT_BUSY then s1.updRefuse upBusy
  else if s1.updSlot = slEmpty then (s1.updRefuse upBadHeader).setInt Pg.UPD Ib.UPD_VERIFY_DONE
  else s1.setSlot slVerifying

/-- VERIFY (R346). -/
def execVerify (a : Acc) (s : State) : Out := .next (s.onWrite a Rg.UPD_CMD fun t => t.verify a)

/-- UPD_ARB of a kind. -/
def State.arb (s : State) (k : Nat) : Nat := s.rd64 (Rg.UPD_ARB_LO k)

/-- UPD_ARB of a kind read: where no copy decodes, or none did before, activations and golden loads are refused (R353). -/
def State.arbRead (s : State) (k : Nat) : State × Bool :=
  let r := [0, 1, 2].foldl (fun (a : State × Bool) (c : Nat) =>
    let x := a.1.emGet (emArb k c) 1
    (x.1, a.2 || x.2)) (s, false)
  if r.2 then (r.1, !r.1.fb Rg.EMRAM_SEC Fd.EMRAM_SEC_ARB_LOST)
  else ((r.1.setF Rg.EMRAM_SEC Fd.EMRAM_SEC_ARB_LOST 1).setInt Pg.UPD Ib.UPD_ARB_LOST, false)

/-- UPD_ARB of a kind raised in all three copies; it never decreases (R348). -/
def State.arbRaise (s : State) (k seq : Nat) : State :=
  if seq ≤ s.arb k then s else (s.wr64 (Rg.UPD_ARB_LO k) seq).emPut (emArb k 0) 3

/-- Whether a copy of the customer key decodes (R353). -/
def State.keyRead (s : State) : State × Bool :=
  [0, 1, 2].foldl (fun (a : State × Bool) (c : Nat) =>
    let x := a.1.emGet (emKey c 0) 8
    (x.1, a.2 || x.2)) (s, false)

/-- Step 5 of R346: 0 passes, else the refusal. -/
def State.custCheck (s : State) (h : Nat) (custOk : Bool) : State × Nat :=
  if !bit (hbyte h 6 2) 0 then (s, if s.fb Rg.EMRAM_SEC Fd.EMRAM_SEC_REQUIRE_CUST then upCustRequired else 0)
  else
    let r := s.keyRead
    (r.1, if r.1.fb Rg.EMRAM_SEC Fd.EMRAM_SEC_CUST_KEY_SET && r.2 && custOk then 0 else upBadCustSig)

/-- A record of the digest table written. -/
def State.digestPut (s : State) (i : Nat) (d : Digest) : State :=
  let l := s.up.digests
  { s with up := { s.up with digests := if i < l.length then lset l i d else l ++ [d] } }.emPut (emDigest i) 4

/-- A digest record whose words do not decode: it counts as occupied and protects nothing (R353). -/
def State.digestLost (s : State) (i : Nat) : Bool := [0, 1, 2, 3].any fun j => s.badWord Pg.EMRAM 0 (emDigest i + j)

/-- The digest record of a kind and sequence number (R347). -/
def State.digestOf (s : State) (kind seq : Nat) : Option (Nat × Digest) :=
  (s.up.digests.zipIdx.find? fun (e : Digest × Nat) => e.1.kind == kind && e.1.seq == seq && !s.digestLost e.2).map fun e => (e.2, e.1)

/-- A sequence collision counted, flagged and logged (R347). -/
def State.collision (s : State) (h : Nat) : State :=
  ((s.bump Rg.UPD_COLLISION_CNT).setInt Pg.UPD Ib.UPD_COLLISION).updLog 0x0022 0 h

/-- The record that a new one may overwrite in a full table: the lowest SEQ among those at or below UPD_ARB of their kind. -/
def State.digestVictim (s : State) : Option Nat :=
  ((s.up.digests.zipIdx.filter fun (e : Digest × Nat) => decide (e.1.seq ≤ s.arb e.1.kind) && !s.digestLost e.2).foldl
    (fun (m : Option (Nat × Nat)) (e : Digest × Nat) => match m with
      | none => some (e.1.seq, e.2)
      | some x => if e.1.seq < x.1 then some (e.1.seq, e.2) else some x) none).map (·.2)

/-- Step 6 of R346, by R347: 0 passes, else the refusal. -/
def State.digestCheck (s : State) (h digest : Nat) : State × Nat :=
  let s := (s.emGet (emDigest 0) (4 * s.up.digests.length)).1
  match s.digestOf (hKind h) (hSeq h) with
  | some (i, d) =>
    if d.coll then (s.collision h, upSeqCollision)
    else if d.digest = digest then (s, 0)
    else ((s.digestPut i { d with coll := true }).collision h, upSeqCollision)
  | none =>
    let d : Digest := ⟨hKind h, hSeq h, digest, false⟩
    if s.up.digests.length < 4096 then (s.digestPut s.up.digests.length d, 0)
    else match s.digestVictim with
      | some i => (s.digestPut i d, 0)
      | none => (s, upDigestFull)

/-- The checks of R346 in their order: 0, or the first refusal. -/
def State.verifyChecks (s : State) (h : Nat) (keyOk vendorOk custOk tagOk : Bool) (digest : Nat) : State × Nat :=
  if !hdrGood h false then (s, upBadHeader)
  else if 262144 < 512 + hbyte h 16 4 then (s, upTooLarge)
  else if !hdrHere s.part h || !keyOk then (s, upWrongPart)
  else
    let r := s.emGet 0 (4 * hBlocks h)
    if !vendorOk || !r.2 then (r.1, upBadSig) else
    let c := r.1.custCheck h custOk
    if c.2 ≠ 0 then c else
    let d := c.1.digestCheck h digest
    if d.2 ≠ 0 then d
    else if hSeq h ≤ d.1.arb (hKind h) then (d.1, upNotNewer)
    else (d.1, if tagOk then 0 else upBadTag)

/-- Verification ends (R346). -/
def State.verifyDone (s : State) (keyOk vendorOk custOk tagOk : Bool) (digest : Nat) : State :=
  if s.updSlot ≠ slVerifying then s else
  let h := s.hdrAt 0
  let r := s.verifyChecks h keyOk vendorOk custOk tagOk digest
  (((r.1.updResult r.2).setSlot (if r.2 = 0 then slVerified else slRefused)).updLog (if r.2 = 0 then 0x0020 else 0x0021) r.2 h).setInt
    Pg.UPD Ib.UPD_VERIFY_DONE

/-- VERIFY_DONE (R346). -/
def execVerifyDone (keyOk vendorOk custOk tagOk : Bool) (digest : Nat) (s : State) : Out :=
  .next (s.verifyDone keyOk vendorOk custOk tagOk digest)

/-- CLEAR (R345). -/
def State.clearStage (s : State) (a : Acc) : State :=
  let s1 := s.updIssued a
  if !s1.holdsLock a.req then s1.updRefuse upNoLock else (s1.updResult upOk).setSlot slEmpty

/-- CLEAR (R345). -/
def execClear (a : Acc) (s : State) : Out := .next (s.onWrite a Rg.UPD_CMD fun t => t.clearStage a)

/-! ## Starting a part -/

/-- The image kind of a part (R340, R349). -/
def partKind (p : Nat) : Nat := if p < 2 then 1 else if p < 20 then 2 else if p < 28 then 3 else if p < 40 then 4 else 5

/-- Whether a PART names a part that is present (R349). -/
def Part.hasPart (q : Part) (p : Nat) : Bool :=
  if p < 2 then true
  else if p < 11 then decide (p - 2 < q.slices)
  else if p < 20 then decide (p - 11 < q.slices)
  else if p < 28 then decide (p - 20 < q.lineGroups)
  else if p < 40 then decide (8 * (p - 28) < q.fabLanes)
  else decide (p < 44) && decide (p - 40 < q.stacks)

/-- The entry of a part in UPD table 1. -/
def State.partEnt (s : State) (p : Nat) : Nat := s.tbl Pg.UPD 1 p

/-- The entry that an image from a source makes (UPD table 1). -/
def mkPart (source h : Nat) : Nat :=
  2 ^ 31 + source * 2 ^ 28 + hKind h % 16 * 2 ^ 24 + hbyte h 24 1 % 16 * 2 ^ 16 + hSeq h * 2 ^ 32 +
  (hbyte h 27 1 * 2 ^ 24 + hbyte h 26 1 * 2 ^ 16 + hbyte h 29 1 * 2 ^ 8 + hbyte h 28 1) * 2 ^ 96 +
  (hbyte h 33 1 * 2 ^ 24 + hbyte h 32 1 * 2 ^ 16 + hbyte h 31 1 * 2 ^ 8 + hbyte h 30 1) * 2 ^ 128

/-- MIN and MAX of a dimension (0 CCP, 1 ABI, 2 TBL, 3 SIF) in an entry of UPD table 1. -/
def entRange (e d : Nat) : Nat × Nat :=
  let lo := if d = 0 then 112 else if d = 1 then 96 else if d = 2 then 128 else 144
  (bits e lo 8, bits e (lo + 8) 8)

/-- Whether two entries' ranges overlap in every dimension that both use (R351). -/
def entsOverlap (x y : Nat) : Bool :=
  [0, 1, 2, 3].all fun d =>
    !(bit x (16 + d) && bit y (16 + d)) ||
      decide ((entRange x d).1 ≤ (entRange y d).2 ∧ (entRange y d).1 ≤ (entRange x d).2)

/-- R351 for an image that is to run in a part: 0, COMPAT or COMPAT_ABI. -/
def State.compat (s : State) (p h : Nat) : Nat :=
  let x := mkPart 0 h
  if !((List.range 44).all fun q => q == p || !bit (s.partEnt q) 31 || entsOverlap x (s.partEnt q)) then upCompat
  else if 2 ≤ p ∧ p < 20 ∧ !((if s.versioned then [0, 1] else [1]).all fun k => (List.range 256).all fun n =>
      let e := s.tbl (Pg.APC (p - 2)) (4 + k) n
      !bit e 63 || decide ((entRange x 1).1 ≤ bits e 52 8 ∧ bits e 52 8 ≤ (entRange x 1).2)) then upCompatAbi
  else 0

/-- Whether the state of a part lets it start (R349). -/
def State.partReady (s : State) (p : Nat) : Bool :=
  if p < 2 then !(s.scRole p == scActive || s.scRole p == scBoot)
  else if p < 11 then s.role 0 (p - 2) == rlService || s.role 0 (p - 2) == rlFenced
  else if p < 20 then s.role 1 (p - 11) == rlService || s.role 1 (p - 11) == rlFenced
  else if p < 40 then true
  else s.stackUp (p - 40) && s.hb.keep.isEmpty

/-- SEQ of a resident slot's image. -/
def State.slotSeq (s : State) (j : Nat) : Nat := hSeq (s.hdrAt (16 + j))

/-- Whether a resident slot is valid and decodes (R350, R353). -/
def State.slotGood (s : State) (j : Nat) : Bool :=
  s.up.valid.contains j && !((s.markedIn Pg.EMRAM 0).any fun w =>
    decide (emSlot j 0 ≤ w ∧ w < emSlot j 0 + 4 * hBlocks (s.hdrAt (16 + j))) && s.badWord Pg.EMRAM 0 w)

/-- The valid resident slot of a kind with the highest SEQ, where that SEQ is at least UPD_ARB (R350). -/
def State.residentSlot (s : State) (kind : Nat) : Option Nat :=
  let c := [2 * (kind - 1), 2 * (kind - 1) + 1].filter s.slotGood
  let b := match c with
    | [] => none
    | [j] => some j
    | j :: i :: _ => if s.slotSeq j < s.slotSeq i then some i else some j
  match b with
  | some j => if s.arb kind ≤ s.slotSeq j then some j else none
  | none => none

/-- The slot that an activation overwrites: an invalid one, else the one with the lower SEQ (R350). -/
def State.olderSlot (s : State) (kind : Nat) : Nat :=
  let j := 2 * (kind - 1)
  if !s.up.valid.contains j then j
  else if !s.up.valid.contains (j + 1) then j + 1
  else if s.slotSeq (j + 1) < s.slotSeq j then j + 1 else j

/-- The staged image activated (R350): copied, its valid marker last, UPD_ARB raised, counted and logged, the staging slot EMPTY. -/
def State.activate (s : State) (p : Nat) : State :=
  let h := s.hdrAt 0
  let j := s.olderSlot (hKind h)
  let n := hBlocks h
  let s1 : State := { s with up := { s.up with valid := s.up.valid.filter (· != j) } }
  let s2 := (List.range n).foldl (fun (t : State) (b : Nat) => t.setTbl Pg.UPD (16 + j) b (s.tbl Pg.UPD 0 b)) s1
  let s3 := s2.emPut (emSlot j 0) (4 * n)
  let s4 : State := { s3 with up := { s3.up with valid := j :: s3.up.valid } }
  ((((s4.emWrote 1).arbRaise (hKind h) (hSeq h)).bump Rg.UPD_ACTIVATE_CNT).updLog 0x0023 p h).setSlot slEmpty

/-- What a start does to its part as it begins (R349). -/
def State.partDown (s : State) (p : Nat) : State :=
  let s1 := s.setTbl Pg.UPD 1 p 0
  if p < 2 then (if s1.fb (Rg.SC_CTRL p) Fd.SC_CTRL_HOLD then s1 else (s1.scEnter p scOff).scUpdate)
  else if p < 20 then s1
  else if p < 28 then (List.range 8).foldl (fun (t : State) (i : Nat) =>
    let q := 8 * (p - 20) + i
    if t.lportOn q && t.lkState q != lkDown then t.lkToDown q else t) s1
  else if p < 40 then (List.range 8).foldl (fun (t : State) (i : Nat) =>
    if t.fabOn (8 * (p - 28) + i) then (t.laneHunt (8 * (p - 28) + i)).setService (8 * (p - 28) + i) false else t) s1
  else s1.hbmStart (p - 40)

/-- Why a START is refused, with the state after the reads of eMRAM that this took: 0 accepted (R349 to R351). -/
def State.startCheck (s : State) (a : Acc) (p : Nat) (resident : Bool) : State × Nat :=
  let h := s.hdrAt 0
  let kind := partKind p
  if !s.part.hasPart p then (s, upPartAbsent)
  else if s.fb Rg.UPD_STAT Fd.UPD_STAT_BUSY then (s, upBusy)
  else if !resident && !s.holdsLock a.req then (s, upNoLock)
  else if !s.partReady p then (s, upPartState)
  else if resident then
    (match s.residentSlot kind with
     | some j => (s, s.compat p (s.hdrAt (16 + j)))
     | none => (s, 0))
  else if s.updSlot ≠ slVerified then (s, upNotVerified)
  else if hKind h ≠ kind then (s, upKindMismatch)
  else
    let r := s.arbRead kind
    if !r.2 then (r.1, upArbLost)
    else if hSeq h ≤ r.1.arb kind then (r.1, upNotNewer)
    else if (match r.1.digestOf kind (hSeq h) with | some (_, d) => d.coll | none => false) then (r.1, upSeqCollision)
    else
      let c := r.1.compat p h
      if c ≠ 0 then (r.1, c) else
      let e := r.1.emGet 0 (4 * hBlocks h)
      (e.1, if e.2 then 0 else upBadTag)

/-- START (R349, R350). -/
def State.start (s : State) (a : Acc) (v : Nat) : State :=
  let p := v % 64
  let resident := bit v 24
  let s1 := (s.updIssued a).setF Rg.UPD_STAT Fd.UPD_STAT_PART p
  let r := s1.startCheck a p resident
  if r.2 ≠ 0 then
    (if r.2 = upBusy then (s.updIssued a).updRefuse upBusy else r.1.updRefuse r.2)
  else
    let s2 := if resident then r.1 else r.1.activate p
    let s3 := (s2.setF Rg.UPD_STAT Fd.UPD_STAT_BUSY 1).partDown p
    { s3 with up := { s3.up with start := some (p, !resident) } }

/-- START (R349). -/
def execStart (a : Acc) (v : Word) (s : State) : Out := .next (s.onWrite a Rg.UPD_CMD fun t => t.start a v.toNat)

/-- A load of the golden image (R350): its refusal, `none` where it may be loaded. -/
def State.goldenCheck (s : State) (kind : Nat) (g : GoldenImage) : State × Option Nat :=
  if bit (s.rd (Rg.PWR_STRAP 1)) 3 || g.hdr == 0 then (s, some upNoImage) else
  let r := s.arbRead kind
  if !r.2 then (r.1, some upArbLost)
  else if !hdrGood g.hdr true || hKind g.hdr != kind || decide (262144 < 512 + hbyte g.hdr 16 4) || !hdrHere s.part g.hdr || !g.keyOk ||
      !g.vendorOk || !g.tagOk then (r.1, some upNoImage)
  else
    let c := r.1.custCheck g.hdr g.custOk
    if c.2 ≠ 0 then (c.1, some upNoImage)
    else if hSeq g.hdr < c.1.rd64 (Rg.UPD_FLOOR_LO kind) then (c.1, some upBelowFloor)
    else (c.1, none)

/-- What a part is once an image runs in it (R203, R333, R349). -/
def State.partUp (s : State) (p source h clk : Nat) : State :=
  let s1 := s.setTbl Pg.UPD 1 p (mkPart source h)
  if p < 2 then
    let s2 := (s1.setF (Rg.SC_STAT p) Fd.SC_STAT_IMAGE source).log (Pg.SC p) 0x0014 (p + source * 256)
    let s3 := if s2.scRole p = scOff then s2.scEnter p scBoot else s2
    (s3.setSc p { s3.sc p with loaded := s3.at clk, first := false }).scUpdate
  else if p < 20 then
    s1.wr (Pg.APC (p - 2) + 0x004) (hbyte h 29 1 * 256 + hbyte h 28 1)
  else if p < 28 then s1.wr (Rg.LSER_FW_VER (p - 20)) (hSeq h)
  else if p < 40 then s1.wr (Rg.FSER_FW_VER (p - 28)) (hSeq h)
  else s1

/-- The image that a start finds: its source and header with the state after the reads, or why there is none (R350). -/
def State.loadImage (s : State) (p : Nat) (slotOk : Bool) (g : GoldenImage) : State × (Nat × Nat ⊕ Nat) :=
  let kind := partKind p
  let c := if slotOk then s.residentSlot kind else none
  match c with
  | some j =>
    let h := s.hdrAt (16 + j)
    let r := if s.arb kind < hSeq h then
        (let x := s.arbRead kind; if x.2 then x.1.arbRaise kind (hSeq h) else x.1)
      else s
    let x := r.compat p h
    (r, if x = 0 then .inl (1, h) else .inr x)
  | none =>
    let r := s.goldenCheck kind g
    match r.2 with
    | some x => (r.1, .inr x)
    | none =>
      let x := r.1.compat p g.hdr
      if x ≠ 0 then (r.1, .inr x)
      else (((r.1.bump Rg.UPD_GOLDEN_CNT).setInt Pg.UPD Ib.UPD_GOLDEN).updLog 0x0024 p g.hdr, .inl (2, g.hdr))

/-- The page of the block that takes a part's image: controllers, AP clusters, line and fabric SerDes groups, HBM PHYs. -/
def partPage (p : Nat) : Nat :=
  (if p < 2 then Pg.SC p else if p < 20 then Pg.APC (p - 2) else if p < 28 then Pg.LSER (p - 20)
   else if p < 40 then Pg.FSER (p - 28) else Pg.HBMC (p - 40)) / 0x1000

/-- A part's start ends (R350): a START under way, the load of a controller in OFF, or a load of a part that does not run
yet (power-on). `slotOk`: the chosen resident image passes its signature and tag checks. -/
def State.startDone (s : State) (p clk : Nat) (slotOk : Bool) (g : GoldenImage) : State :=
  let mine := s.up.start.any fun x => x.1 == p
  let auto := if p < 2 then s.scRole p == scOff else !bit (s.partEnt p) 31
  if !s.part.hasPart p || !s.pageOn (partPage p) || !(mine || auto) then s else
  let r := s.loadImage p slotOk g
  let code := match r.2 with | .inl _ => 0 | .inr x => x
  let s1 := match r.2 with
    | .inl (src, h) => r.1.partUp p src h clk
    | .inr _ => if p < 2 && r.1.scRole p == scOff then r.1.bootFail p else r.1
  let s2 : State := if mine then
      { (s1.updResult code).setF Rg.UPD_STAT Fd.UPD_STAT_BUSY 0 with up := { s1.up with start := none } }
    else s1
  s2.setInt Pg.UPD Ib.UPD_START_DONE

/-- START_DONE (R350). -/
def execStartDone (part clk : Nat) (slotOk : Bool) (gold : GoldenImage) (s : State) : Out :=
  .next (s.startDone part clk slotOk gold)

/-! ## Floors, keys, posting -/

/-- A write of UPD_FLOOR_HI: the golden floor of a kind never decreases (R348). -/
def State.floorWrite (s : State) (r : Requester) (k v : Nat) : State :=
  let x := s.takeLo r (Rg.UPD_FLOOR_LO k) v
  if x.2 < s.rd64 (Rg.UPD_FLOOR_LO k) then x.1.setInt Pg.UPD Ib.UPD_REFUSED
  else (x.1.wr64 (Rg.UPD_FLOOR_LO k) x.2).emPut (emFloor k 0) 3

/-- UPD_FLOOR_WRITE (R348). -/
def execUpdFloorWrite (a : Acc) (kind : Nat) (v : Word) (s : State) : Out :=
  .next (if 1 ≤ kind ∧ kind ≤ 5 then s.onWrite a (Rg.UPD_FLOOR_HI kind) fun t => t.floorWrite a.req kind v.toNat else s)

/-- REQUIRE_CUST (R343): a write of EMRAM_SEC. -/
def execRequireCust (a : Acc) (v : Word) (s : State) : Out :=
  .next (s.onWrite a Rg.EMRAM_SEC fun t => (t.fieldWrite Rg.EMRAM_SEC v.toNat).emPut emSec 1)

/-- A write of EMRAM_LOG_POST2 by a controller posts a record (R354). -/
def State.logPost (s : State) (r : Requester) (v : Nat) : State :=
  match Machine.portOf r with
  | some _ => s
  | none =>
    let code := s.rd Rg.EMRAM_LOG_POST0 % 65536
    if code < 0x8000 then s else s.log (Pg.SC (reqNo r - 2)) code (s.rd Rg.EMRAM_LOG_POST1 + v % 65536 * 2 ^ 32)

/-- LOG_POST (R354). -/
def execLogPost (a : Acc) (v : Word) (s : State) : Out :=
  .next (s.onWrite a Rg.EMRAM_LOG_POST2 fun t => t.logPost a.req v.toNat)

/-! ## Tables -/

/-- A block of an eMRAM region read (R353). -/
def State.blockRead (s : State) (addr v : Nat) : State × TblAns :=
  let r := s.emGet addr 4
  if r.2 then (r.1, { st := stOk, data := some v }) else (r.1.draw, { st := stUncorr, data := some (r.1.freeVal 512) })

/-- Block `b` of the device's public key (R342). -/
def deviceKeyBlock (b : Nat) : Nat := bits Config.deviceKey.toNat (512 * b) 512

/-- Commands of page UPD. -/
def State.updCmd (s : State) (a : Acc) (op addr data : Nat) : State × TblAns :=
  let i := addr % 4096
  match bits addr 30 2 with
  | 0 =>
    if op = opRead then s.blockRead (emStage i) (s.tbl Pg.UPD 0 i)
    else if op = opWrite then
      if !s.holdsLock a.req then (s, ans stNotAllowed)
      else ((((s.lockTouch a.req a.clk).setTbl Pg.UPD 0 i (data % 2 ^ 512)).emPut (emStage i) 4).setSlot slLoaded |>.updShow, ans stOk)
    else (s, ans stUnsupported)
  | 1 =>
    if op ≠ opRead then (s, ans stUnsupported)
    else if 44 ≤ addr % 64 then (s, ans stBadAddr)
    else (s, { st := stOk, data := some (s.partEnt (addr % 64)) })
  | 2 =>
    if op ≠ opRead then (s, ans stUnsupported)
    else if 2 ≤ i then (s, ans stBadAddr)
    else (s, { st := stOk, data := some (deviceKeyBlock i) })
  | _ => (s, ans stBadAddr)

/-- A log record as its 32 bytes (R354). -/
def LogRec.word (r : LogRec) : Nat :=
  r.lseq % 2 ^ 32 + r.tick % 2 ^ 64 * 2 ^ 32 + r.ns % 2 ^ 32 * 2 ^ 96 + r.sec % 2 ^ 48 * 2 ^ 128 + r.code % 2 ^ 16 * 2 ^ 176 +
  r.source % 2 ^ 16 * 2 ^ 192 + r.data % 2 ^ 48 * 2 ^ 208

/-- The record at an index of the ring, 0 where none has been written. -/
def State.logAt (s : State) (i : Nat) : Nat :=
  match s.lg.recs[(s.rd Rg.EMRAM_LOG_WP % 32768 + 32767 - i % 32768) % 32768]? with
  | some r => r.word
  | none => 0

/-- The field prime of P-384. -/
def p384 : Nat := 2 ^ 384 - 2 ^ 128 - 2 ^ 96 + 2 ^ 32 - 1

/-- The constant b of P-384. -/
def p384b : Nat := 0xB3312FA7E23EE7E4988E056BE3F82D19181D9C6EFE8141120314088F5013875AC656398D8A2ED19D2A85C8EDD3EC2AEF

/-- Whether 97 bytes, given as the two blocks of a key, are an uncompressed point of P-384 (R343). -/
def p384Point (b0 b1 : Nat) : Bool :=
  let w := (leBytes 97 (b0 + b1 * 2 ^ 512))
  let x := beNat ((w.drop 1).take 48)
  let y := beNat (w.drop 49)
  beNat (w.take 1) == 4 && decide (x < p384 ∧ y < p384) &&
    (y * y) % p384 == (x * x % p384 * x + (p384 - 3) * x + p384b) % p384

/-- The customer key written through EMRAM table 2, once (R343). -/
def State.keyWrite (s : State) (b v : Nat) : State × TblAns :=
  if s.fb Rg.EMRAM_SEC Fd.EMRAM_SEC_CUST_KEY_SET then (s, ans stNotAllowed)
  else
    let put (t : State) : State := [0, 1, 2].foldl (fun (u : State) (c : Nat) => u.emPut (emKey c b) 4) (t.setTbl Pg.EMRAM 2 b (v % 2 ^ 512))
    if b = 0 then ({ put s with up := { s.up with key0 := true } }, ans stOk)
    else if !s.up.key0 then (put s, ans stOk)
    else if !p384Point (s.tbl Pg.EMRAM 2 0) (v % 2 ^ 512) then (s, ans stBadData)
    else (((put s).setF Rg.EMRAM_SEC Fd.EMRAM_SEC_CUST_KEY_SET 1).emPut emSec 1, ans stOk)

/-- Commands of page EMRAM. -/
def State.emramCmd (s : State) (r : Requester) (op addr data : Nat) : State × TblAns :=
  match bits addr 30 2 with
  | 0 =>
    let i := addr % 32768
    if op ≠ opRead then (s, ans stUnsupported)
    else
      let x := s.emGet (emLogAt i) 2
      if x.2 then (x.1, { st := stOk, data := some (s.logAt i) }) else (x.1.draw, { st := stUncorr, data := some (x.1.freeVal 256) })
  | 1 =>
    let i := addr % 65536
    if op ≠ opRead ∧ op ≠ opWrite then (s, ans stUnsupported)
    else if 63487 < i then (s, ans stBadAddr)
    else if op = opRead then s.blockRead (emStore i) (s.tbl Pg.EMRAM 1 i)
    else if (Machine.portOf r).isSome then (s, ans stNotAllowed)
    else ((s.setTbl Pg.EMRAM 1 i (data % 2 ^ 512)).emPut (emStore i) 4, ans stOk)
  | 2 =>
    let b := addr % 65536
    if op ≠ opRead ∧ op ≠ opWrite then (s, ans stUnsupported)
    else if 2 ≤ b then (s, ans stBadAddr)
    else if op = opRead then s.blockRead (emKey 0 b) (s.tbl Pg.EMRAM 2 b)
    else s.keyWrite b data
  | _ => (s, ans stBadAddr)

end Sys2Proof.Machine
end

