-- ==== Sys2Proof/Machine/HostIf.lean ====
section
/-! DEFINITION. The host interface (chapter 16, R355 to R373): PCIe ports, MSI-X vectors and REARM, DMA rings with their
descriptors, injection, HBM reads, record FIFOs, and the tables of pages DMA and IRQ. -/
namespace Sys2Proof.Machine

/-! ## Interrupt messages -/

/-- The sources mapped to a vector of a port (R362). -/
def State.vecSources (s : State) (p vec : Nat) : List Nat :=
  (List.range 640).filter fun n =>
    let e := s.tbl Pg.IRQ 0 n
    bit e (30 + p) && bits e (8 * p) 8 == vec

/-- Whether a port can send messages: MSI-X enabled and the link up (R362). -/
def State.msixLive (s : State) (p : Nat) : Bool := (s.pcie p).msixEn && s.fb (Rg.PCIE_STAT p) Fd.PCIE_STAT_LINK_UP

/-- Ring `r` signals: its count clears, and its source falls (R367). -/
def State.ringSignalled (s : State) (r : Nat) : State :=
  { s.setRing r { s.ring r with done := 0 } with ringDue := s.ringDue.filter (· != r) }

/-- The coalescing condition of ring `r` is met: its source rises. Where a message goes out or becomes pending, the ring has
signalled; otherwise the source stays asserted (R362, R367). -/
def State.ringRaise (s : State) (r : Nat) : State :=
  if s.ringDue.contains r then s else
  let e := s.tbl Pg.IRQ 0 (512 + r)
  let heard := [0, 1].any fun p => bit e (30 + p) && s.msixLive p
  let s1 := ({ s with ringDue := r :: s.ringDue }.raiseSrc (512 + r))
  if heard then s1.ringSignalled r else s1

/-- Descriptors of ring `r` written back at core clock `now` (R367). -/
def State.ringDone (s : State) (r now : Nat) : State :=
  let x := s.ring r
  let y := { x with done := x.done + 1, since := if x.done = 0 then now else x.since }
  let s1 := s.setRing r y
  if s1.f (Rg.DMA_RING_CFG r) Fd.DMA_RING_CFG_COAL_CNT ≤ y.done then s1.ringRaise r else s1

/-- COAL_TIMEOUT (R367): 1 µs is 2,000 core clocks. -/
def execCoalTimeout (ring clk : Nat) (s : State) : Out :=
  let us := s.f (Rg.DMA_RING_CFG ring) Fd.DMA_RING_CFG_COAL_US
  .next (if decide (ring < 64 ∧ us ≠ 0 ∧ 0 < (s.ring ring).done ∧ (s.ring ring).since + us * 2000 ≤ s.at clk) then s.ringRaise ring else s)

/-- A write of IRQ_REARM (R363): one message if any source mapped to the vector on the port is still asserted. -/
def State.rearm (s : State) (v : Nat) : State :=
  let p := v / 256 % 2
  let src := (s.vecSources p (v % 256)).filter s.irqSrc
  if src.isEmpty || !s.msixLive p then s
  else (src.filter fun n => decide (512 ≤ n ∧ n < 576)).foldl (fun t n => t.ringSignalled (n - 512)) (s.sendMsg p (v % 256))

/-- IRQ_REARM (R363). -/
def execIrqRearm (a : Acc) (v : Word) (s : State) : Out := .next (s.onWrite a Rg.IRQ_REARM fun t => t.rearm v.toNat)

/-- The pending vectors of a port that are masked no more send their messages (R362). -/
def State.msixFlush (s : State) (p : Nat) : State :=
  if !s.msixLive p || (s.pcie p).fmask then s else
  ((s.pcie p).vecs.filter fun e => e.2.pending && !e.2.mask).foldl (fun (t : State) (e : Nat × MsixVec) =>
    (t.setPcie p { t.pcie p with vecs := sset {} (t.pcie p).vecs e.1 { e.2 with pending := false } }).sendMsg p e.1) s

/-- MSI-X Enable, the Function Mask and one vector's entry as the host leaves them (R357, R362). -/
def State.msixMask (s : State) (p : Nat) (enable fmask : Bool) (vec : Nat) (mask : Bool) (addr data : Nat) : State :=
  let x := s.pcie p
  let v := sget {} x.vecs (vec % 256)
  (s.setPcie p { x with msixEn := enable, fmask := fmask,
                        vecs := sset {} x.vecs (vec % 256) { v with mask := mask, addr := addr % 2 ^ 64, data := data % 2 ^ 32 } }).msixFlush p

/-- MSIX_MASK_CHANGE (R362). -/
def execMsixMaskChange (port : Nat) (enable fmask : Bool) (vec : Nat) (mask : Bool) (addr data : Nat) (s : State) : Out :=
  .next (s.msixMask (port % 2) enable fmask vec mask addr data)

/-! ## Ports -/

/-- Whether a port is enabled by its strap; port 0 where neither strap is set (R383). -/
def State.portEnabled (s : State) (p : Nat) : Bool :=
  let x := s.rd (Rg.PWR_STRAP 1)
  bit x p || (p == 0 && x % 4 == 0)

/-- A ring stops: what waits in it is discarded, punts under its PUNT_DROP, and their cells are freed (R356). -/
def State.ringStop (s : State) (r : Nat) : State :=
  let x := s.ring r
  let s1 := x.items.foldl (fun (t : State) (i : DmaItem) =>
    if i.src ≤ 1 then (t.ringPuntDrop r).cald 0 (-(i.cells : Int)) 0 else t) s
  (s1.setRing r { s1.ring r with items := [], opn := none }).setF (Rg.DMA_RING_CFG r) Fd.DMA_RING_CFG_STOPPED 1

/-- What a port loses with its link (R356, steps 1 to 4). -/
def State.portLoss (s : State) (p : Nat) : State :=
  let s1 := ((List.range 64).filter fun r => s.f (Rg.DMA_RING_CFG r) Fd.DMA_RING_CFG_PORT == p).foldl State.ringStop s
  let s2 := if s1.fb Rg.UPD_LOCK_STAT Fd.UPD_LOCK_STAT_HELD && s1.f Rg.UPD_LOCK_STAT Fd.UPD_LOCK_STAT_OWNER == p then s1.lockFree else s1
  if !s2.fb Rg.CMT_STAT Fd.CMT_STAT_NO_OWNER && s2.f Rg.CMT_STAT Fd.CMT_STAT_STATE != 0 && s2.f Rg.CMT_STAT Fd.CMT_STAT_OWNER == p then
    s2.setF Rg.CMT_STAT Fd.CMT_STAT_NO_OWNER 1
  else s2

/-- The link status of a port; SAFE stays. -/
def State.setLink (s : State) (p up flit speed width : Nat) : State :=
  s.wr (Rg.PCIE_STAT p) (up * 2 ^ 31 + flit * 2 ^ 30 + s.f (Rg.PCIE_STAT p) Fd.PCIE_STAT_SAFE * 2 ^ 29 + speed * 16 + width)

/-- A port's link goes down (R356). -/
def State.linkDown (s : State) (p : Nat) : State :=
  if !s.fb (Rg.PCIE_STAT p) Fd.PCIE_STAT_LINK_UP then s else
  (((s.portLoss p).setLink p 0 0 0 0).bump (Rg.PCIE_LINK_DOWN_CNT p)).setInt (Pg.PCIE p) Ib.PCIE_LINK_CHANGE

/-- PCIE_LINK_DOWN (R356). -/
def execPcieLinkDown (port : Nat) (s : State) : Out := .next (s.linkDown (port % 2))

/-- HOT_RESET (R356). -/
def execHotReset (port : Nat) (s : State) : Out := .next (s.linkDown (port % 2))

/-- Function Level Reset (R356): link loss's steps, the MSI-X capability and table, the port's enables in the interrupt map and its
PCIE page; then the reset itself is counted. The link stays. -/
def State.flr (s : State) (p : Nat) : State :=
  let s1 := s.portLoss p
  let s2 := s1.setPcie p { s1.pcie p with msixEn := false, fmask := false, vecs := [] }
  let s3 := (List.range 640).foldl (fun (t : State) (n : Nat) =>
    if bit (t.tbl Pg.IRQ 0 n) (30 + p) then t.setTf Pg.IRQ 0 n (30 + p) 1 0 else t) s2
  let st := s3.rd (Rg.PCIE_STAT p)
  let s4 : State := { s3 with regs := s3.regs.filter fun e => e.1 / 0x1000 != Pg.PCIE p / 0x1000 }
  (s4.wr (Rg.PCIE_STAT p) st).bump (Rg.PCIE_LINK_DOWN_CNT p)

/-- FUNCTION_LEVEL_RESET (R356). -/
def execFunctionLevelReset (port : Nat) (s : State) : Out := .next (s.flr (port % 2))

/-- A port's link trains to L0 (R355): at a speed and width it supports, unless its strap disables it, its domain is off or PERST_N
is low. -/
def State.linkUp (s : State) (p speed width : Nat) (flit : Bool) : State :=
  if !s.portEnabled p || !s.pageOn (Pg.PCIE p / 0x1000) || (s.pcie p).perst || s.fb (Rg.PCIE_STAT p) Fd.PCIE_STAT_LINK_UP ||
      !(decide (1 ≤ speed ∧ speed ≤ 6)) || !([1, 2, 4].contains width) then s
  else (s.setLink p 1 (b2n flit) speed width).setInt (Pg.PCIE p) Ib.PCIE_LINK_CHANGE

/-- PCIE_LINK_UP (R355). -/
def execPcieLinkUp (port speed width : Nat) (flit : Bool) (s : State) : Out := .next (s.linkUp (port % 2) speed width flit)

/-! ## Rings -/

/-- Entries of a ring. -/
def State.ringSize (s : State) (r : Nat) : Nat := 2 ^ s.f (Rg.DMA_RING_CFG r) Fd.DMA_RING_CFG_SIZE_EXP
/-- HEAD of a ring. -/
def State.ringHead (s : State) (r : Nat) : Nat := s.f (Rg.DMA_RING_PTR r) Fd.DMA_RING_PTR_HEAD
/-- Descriptors that the host has made available and the device has not taken (R366). -/
def State.ringAvail (s : State) (r : Nat) : Nat :=
  let n := s.ringSize r
  (s.f (Rg.DMA_RING_PTR r) Fd.DMA_RING_PTR_TAIL % n + n - s.ringHead r % n) % n

/-- Whether a ring's owner is not the requester's port. -/
def State.notOwner (s : State) (q : Requester) (r : Nat) : Bool :=
  Machine.portOf q != some (s.f (Rg.DMA_RING_CFG r) Fd.DMA_RING_CFG_PORT)

/-- A change of an enabled ring that R365 does not allow: ignored, and flagged where the other port made it. -/
def State.ringDeny (s : State) (q : Requester) (r : Nat) : State :=
  s.setIntIf ((Machine.portOf q).isSome && s.notOwner q r) Pg.DMA Ib.DMA_REFUSED

/-- A write of DMA_RING_CFG (R365). -/
def State.ringCfgWrite (s : State) (q : Requester) (r v : Nat) : State :=
  let a := Rg.DMA_RING_CFG r
  if s.fb a Fd.DMA_RING_CFG_EN then
    if s.notOwner q r || bit v 31 then s.ringDeny q r else s.fieldWrite a v
  else
    let s1 := s.fieldWrite a v
    if bit v 31 then
      { ((s1.wr (Rg.DMA_RING_PTR r) 0).setF a Fd.DMA_RING_CFG_STOPPED 0).setRing r { s1.ring r with done := 0, opn := none } with
        ringDue := s1.ringDue.filter (· != r) }
    else s1

/-- DMA_RING_ENABLE (R365): a write of DMA_RING_CFG. -/
def execDmaRingEnable (a : Acc) (ring : Nat) (v : Word) (s : State) : Out :=
  .next (if ring < 64 then s.onWrite a (Rg.DMA_RING_CFG ring) fun t => t.ringCfgWrite a.req ring v.toNat else s)

/-- A write of BASE, whole, through its _HI half (R15, R365). -/
def State.ringBaseWrite (s : State) (q : Requester) (r v : Nat) : State :=
  let x := s.takeLo q (Rg.DMA_RING_BASE_LO r) v
  if s.fb (Rg.DMA_RING_CFG r) Fd.DMA_RING_CFG_EN then x.1.ringDeny q r
  else x.1.wr64 (Rg.DMA_RING_BASE_LO r) (x.2 / 64 * 64)

/-- A write of TAIL (R366): refused where it would pass HEAD. -/
def State.tailWrite (s : State) (q : Requester) (r v : Nat) : State :=
  let n := s.ringSize r
  let tail := s.f (Rg.DMA_RING_PTR r) Fd.DMA_RING_PTR_TAIL
  let adv := (v % 2 ^ 16 % n + n - tail % n) % n
  if s.fb (Rg.DMA_RING_CFG r) Fd.DMA_RING_CFG_EN && s.notOwner q r then s.ringDeny q r
  else if n ≤ s.ringAvail r + adv then s.setInt Pg.DMA Ib.DMA_REFUSED
  else s.setF (Rg.DMA_RING_PTR r) Fd.DMA_RING_PTR_TAIL (v % 2 ^ 16)

/-- DMA_TAIL_WRITE (R366): a write of DMA_RING_PTR. -/
def execDmaTailWrite (a : Acc) (ring : Nat) (v : Word) (s : State) : Out :=
  .next (if ring < 64 then s.onWrite a (Rg.DMA_RING_PTR ring) fun t => t.tailWrite a.req ring v.toNat else s)

/-- Bytes written to host memory by the port that owns a ring. -/
def State.ringWrite (s : State) (r addr : Nat) (b : List Byte) : State :=
  s.emit (.hostWrite (s.f (Rg.DMA_RING_CFG r) Fd.DMA_RING_CFG_PORT) addr b)

/-- The descriptor at HEAD written back with a status word at a byte of it; HEAD advances, and the completion counts (R366, R367). -/
def State.ringBack (s : State) (r size off w now : Nat) : State :=
  let h := s.ringHead r % s.ringSize r
  let s1 := s.ringWrite r (s.rd64 (Rg.DMA_RING_BASE_LO r) + size * h + off) (leBytes 4 w)
  (s1.setF (Rg.DMA_RING_PTR r) Fd.DMA_RING_PTR_HEAD ((h + 1) % s.ringSize r)).ringDone r now

/-- The status word of an RX descriptor (R368). -/
def rxWord (sop eop err : Bool) (src code len : Nat) : Nat :=
  2 ^ 31 + b2n sop * 2 ^ 30 + b2n eop * 2 ^ 29 + b2n err * 2 ^ 28 + src % 8 * 2 ^ 25 + code % 256 * 2 ^ 17 + len % 2 ^ 17

/-! ## RX rings -/

/-- The record FIFO that an RX ring drains: SRC 3 learn notifications, 4 rewrite records (R373). -/
def State.ringFifo (s : State) (r : Nat) : Option Nat :=
  if s.fb Rg.DMA_NOTE_CFG Fd.DMA_NOTE_CFG_EN && s.f Rg.DMA_NOTE_CFG Fd.DMA_NOTE_CFG_RING == r && !s.ln.notes.isEmpty then some 3
  else if s.fb Rg.DMA_RW_CFG Fd.DMA_RW_CFG_EN && s.f Rg.DMA_RW_CFG Fd.DMA_RW_CFG_RING == r && !s.ra.rw.isEmpty then some 4
  else none

/-- The oldest record of a FIFO popped, as bytes (R373). -/
def State.fifoPop (s : State) (src : Nat) : State × List Byte :=
  if src = 3 then
    let t := s.learnPop.1
    (t, leBytes 4 (t.rd Rg.LEARN_NOTE_W0) ++ leBytes 4 (t.rd Rg.LEARN_NOTE_W1) ++ leBytes 4 (t.rd Rg.LEARN_NOTE_W2) ++ leBytes 4 (t.rd Rg.LEARN_NOTE_W3))
  else
    let t := s.rwPop.1
    (t, leBytes 4 (t.rd Rg.SCRUB_RW_W0) ++ leBytes 4 (t.rd Rg.SCRUB_RW_W1))

/-- Records moved from a FIFO into the open descriptor, at most `n`. -/
def State.fifoFill (s : State) (src room : Nat) : Nat → List Byte → State × List Byte
  | 0, b => (s, b)
  | n + 1, b =>
    if room ≤ b.length || (if src = 3 then s.ln.notes.isEmpty else s.ra.rw.isEmpty) then (s, b)
    else
      let x := s.fifoPop src
      State.fifoFill x.1 src room n (b ++ x.2)

/-- The open record descriptor written back (R373). -/
def State.recordBack (s : State) (r : Nat) (o : DmaOpen) (now : Nat) : State :=
  let s1 := s.setRing r { s.ring r with opn := none }
  (s1.ringWrite r o.addr o.bytes).ringBack r 16 12 (rxWord true true false o.src 0 o.bytes.length) now

/-- Records moved into a descriptor, which goes back when it is full. -/
def State.recordFill (s : State) (r : Nat) (o : DmaOpen) (now : Nat) : State :=
  let x := s.fifoFill o.src o.room 8192 o.bytes
  let o1 := { o with bytes := x.2 }
  let s1 := x.1.setRing r { x.1.ring r with opn := some o1 }
  if o.room ≤ x.2.length then s1.recordBack r o1 now else s1

/-- One step of an RX ring with its descriptor at HEAD, of buffer `addr` and `bufLen` (R368, R373). -/
def State.rxDesc (s : State) (r addr bufLen now : Nat) : State :=
  let x := s.ring r
  match x.opn with
  | some o => s.recordFill r o now
  | none =>
    let bad := decide (bufLen < 256)
    match x.items with
    | i :: rest =>
      if bad then s.ringBack r 16 12 (rxWord false false true i.src i.code 0) now else
      let n := min bufLen i.bytes.length
      let eop := n == i.bytes.length
      let s1 := s.ringWrite r addr (i.bytes.take n)
      let s2 := if eop then (s1.setRing r { x with items := rest }).cald 0 (-(i.cells : Int)) 0
        else s1.setRing r { x with items := { i with bytes := i.bytes.drop n, begun := true } :: rest }
      s2.ringBack r 16 12 (rxWord (!i.begun) eop false i.src i.code n) now
    | [] =>
      match s.ringFifo r with
      | none => s
      | some src =>
        if bad then s.ringBack r 16 12 (rxWord false false true src 0 0) now else
        let sz := if src = 3 then 16 else 8
        s.recordFill r ⟨src, addr, bufLen / sz * sz, [], now⟩ now

/-- Whether the device may take a descriptor of a ring in a direction: enabled, not STOPPED, one available, the owner's link up. -/
def State.ringTakes (s : State) (r dir : Nat) : Bool :=
  decide (r < 64) && s.fb (Rg.DMA_RING_CFG r) Fd.DMA_RING_CFG_EN && !s.fb (Rg.DMA_RING_CFG r) Fd.DMA_RING_CFG_STOPPED &&
  s.f (Rg.DMA_RING_CFG r) Fd.DMA_RING_CFG_DIR == dir && decide (0 < s.ringAvail r) &&
  s.fb (Rg.PCIE_STAT (s.f (Rg.DMA_RING_CFG r) Fd.DMA_RING_CFG_PORT)) Fd.PCIE_STAT_LINK_UP

/-- RX_DESCRIPTOR_WRITE (R368, R373). -/
def execRxDescriptorWrite (ring addr bufLen clk : Nat) (s : State) : Out :=
  .next (if s.ringTakes ring 0 then s.rxDesc ring addr (min 65535 bufLen) (s.at clk) else s)

/-- RECORD_FLUSH_TIMEOUT (R373): the FIFO is empty and the oldest record of the descriptor has waited 10 µs (20,000 core clocks). -/
def execRecordFlushTimeout (ring clk : Nat) (s : State) : Out :=
  .next (match (s.ring ring).opn with
    | none => s
    | some o =>
      if (if o.src = 3 then s.ln.notes.isEmpty else s.ra.rw.isEmpty) && decide (o.since + 20000 ≤ s.at clk) && s.ringTakes ring 0 then
        s.recordBack ring o (s.at clk)
      else s)

/-! ## TX rings -/

/-- TX descriptor status codes (R369). -/
abbrev txOk : Nat := 0
abbrev txBadType : Nat := 1
abbrev txBadLen : Nat := 2
abbrev txBadPort : Nat := 3
abbrev txReadErr : Nat := 4
abbrev txDropped : Nat := 5
abbrev txUncorr : Nat := 6
abbrev txBadAddr : Nat := 7

/-- A TX descriptor completes with a status (R366, R369). -/
def State.txBack (s : State) (r st now : Nat) : State :=
  let s1 := if st = txOk ∨ st = txDropped then s else (s.bump Rg.DMA_TX_ERR_CNT).setInt Pg.DMA Ib.DMA_TX_ERR
  s1.ringBack r 32 24 (2 ^ 31 + st * 2 ^ 24) now

/-- Whether an injected frame has room in the steering buffer and the pool it would join (R92, R370). -/
def State.injectRoom (s : State) (p len : Nat) (b : List Byte) : Bool :=
  let bk := 256 * p + s.flowHash p b % 256
  let x := s.slice 0 (s.bucketEnt 0 bk % 16)
  !s.d2dDown && decide (s.f (Rg.SBUF_USED (p / 8)) Fd.SBUF_USED_BYTES + len ≤ 524288) &&
    ((s.holder 0 bk).isSome || (!x.stranded && decide (poolCount x.pool < 512)))

/-- A frame injected into steering (R370); it waits while there is no room. -/
def State.injectPipe (s : State) (r len p : Nat) (data : Option (List Byte)) (clk : Nat) : State :=
  let now := s.at clk
  if len < 64 ∨ 16383 < len then s.txBack r txBadLen now
  else if !s.lportOn p || (s.lpSpeed p == 0 && !s.isClient p) then s.txBack r txBadPort now
  else match data with
  | none => s.txBack r txReadErr now
  | some d =>
    let b := (d ++ List.replicate len 0).take (len - 4)
    if !s.injectRoom p len b then s else
    let s1 : State := { s with macQ := ⟨p, sealFrame b, false, s.rxStamp p clk⟩ :: s.macQ }
    ((s1.steerEnqueue p false).bump Rg.DMA_INJ_CNT).txBack r txOk now

/-- INJECT_PIPE (R370). -/
def execInjectPipe (ring len port : Nat) (data : Option (List Byte)) (clk : Nat) (s : State) : Out :=
  .next (if s.ringTakes ring 1 then s.injectPipe ring len (port % 64) data clk else s)

/-- A frame injected into admission for a VOQ (R370). -/
def State.injectVoq (s : State) (r len arg0 arg1 : Nat) (data : Option (List Byte)) (clk : Nat) : State :=
  let now := s.at clk
  if len < 64 ∨ 16383 < len then s.txBack r txBadLen now
  else match data with
  | none => s.txBack r txReadErr now
  | some d =>
    let b := (d ++ List.replicate len 0).take (len - 4)
    let k : Pkt := { bytes := b, md := { dest := arg0 % 2 ^ 17, tc := bits arg0 17 3, hint := arg1 % 2 ^ 23, len := len } }
    let x := s.admitPkt { pkt := k, lane := 9 } true false now
    if x.2 then (x.1.bump Rg.DMA_INJ_CNT).txBack r txOk now
    else (x.1.bump Rg.DMA_INJ_DROP_CNT).txBack r txDropped now

/-- INJECT_VOQ (R370). -/
def execInjectVoq (ring len arg0 arg1 : Nat) (data : Option (List Byte)) (clk : Nat) (s : State) : Out :=
  .next (if s.ringTakes ring 1 then s.injectVoq ring len arg0 arg1 data clk else s)

/-- `n` bursts of 32 bytes copied from an HBM offset; a burst that does not decode reads as 0xFF (R370). Answers the bytes and whether all decoded. -/
def State.burstCopy (s : State) (o : Nat) : Nat → State × List Byte × Bool
  | 0 => (s, [], true)
  | n + 1 =>
    let x := s.hbmReads (s.hbmClass o) o 2
    let y := State.burstCopy x.1 (o + 32) n
    (y.1, (if x.2.2 then leBytes 32 x.2.1 else List.replicate 32 0xFF) ++ y.2.1, x.2.2 && y.2.2)

/-- Bytes of the HBM table region copied to host memory (R370); the copy waits while a stack it reads is not up. -/
def State.hbmCopy (s : State) (r len off addr clk : Nat) : State :=
  let now := s.at clk
  if len < 32 ∨ 16777184 < len ∨ len % 32 ≠ 0 then s.txBack r txBadLen now
  else if off % 32 ≠ 0 ∨ s.part.hbmBytes < s.tableBase + off + len then s.txBack r txBadAddr now
  else if !s.allUp then s
  else
    let x := s.burstCopy (s.tableBase + off) (len / 32)
    (x.1.ringWrite r addr x.2.1).txBack r (if x.2.2 then txOk else txUncorr) now

/-- HBM_READ (R370). -/
def execHbmRead (ring len off addr clk : Nat) (s : State) : Out :=
  .next (if s.ringTakes ring 1 then s.hbmCopy ring len off addr clk else s)

/-- TX_BAD_TYPE (R369). -/
def execTxBadType (ring typ clk : Nat) (s : State) : Out :=
  .next (if s.ringTakes ring 1 && !([1, 2, 3].contains (typ % 16)) then s.txBack ring txBadType (s.at clk) else s)

/-! ## Tables -/

/-- Commands of page DMA. -/
def State.dmaCmd (s : State) (op addr data : Nat) : State × TblAns :=
  let i := addr % 256
  if 2 ≤ bits addr 30 2 then (s, ans stBadAddr)
  else if op ≠ opRead ∧ op ≠ opWrite then (s, ans stUnsupported)
  else if bits addr 30 2 = 0 then
    if op = opRead then (s, { st := stOk, data := some (s.tbl Pg.DMA 0 i) })
    else if i = 0 then (s, ans stBadAddr)
    else (s.setTbl Pg.DMA 0 i (data % 2 ^ 32 &&& 0xC0003F3F), ans stOk)
  else if 64 ≤ i then (s, ans stBadAddr)
  else if op = opRead then (s, { st := stOk, data := some (s.tbl Pg.DMA 1 i) })
  else (s.setTf Pg.DMA 1 i 0 19 data, ans stOk)

/-- Commands of page IRQ: the source map (R362). -/
def State.irqCmd (s : State) (op addr data : Nat) : State × TblAns :=
  let i := addr % 1024
  if op ≠ opRead ∧ op ≠ opWrite then (s, ans stUnsupported)
  else if 640 ≤ i then (s, ans stBadAddr)
  else if op = opRead then (s, { st := stOk, data := some (s.tbl Pg.IRQ 0 i) })
  else (s.setTbl Pg.IRQ 0 i (data % 2 ^ 32 &&& 0xC000FFFF), ans stOk)

end Sys2Proof.Machine
end

