-- ==== Sys2Proof/Machine/View.lean ====
section
/-! DEFINITION. What a read of a register in a page's live region returns: the register file, and the registers that mirror
state held elsewhere (counts of ticks, presence, summaries, levels). -/
namespace Sys2Proof.Machine

/-! ## The page header (R394, R395, R400) -/

/-- PG_ID of a page (R394). -/
def pageId (d : PageDef) (page : Nat) : Nat :=
  d.die * 2 ^ 31 + d.base * 2 ^ 16 + (page % 0x1000 - d.base) * 2 ^ 8 + 1

/-- Whether a page holds counters, in registers or, as LAT, in a table (R314, R395). -/
def PageDef.counters (d : PageDef) : Bool := d.regs.any (·.cnt) || (d.die == 1 && d.base == 0x024)

/-- PG_CAP of a page; BLOCK is the ABI range that an APC page's image reports (R203, R395). -/
def State.pageCap (s : State) (d : PageDef) (page : Nat) : Nat :=
  b2n d.tables * 2 ^ 31 + b2n d.counters * 2 ^ 30 + b2n (d.regs.any RegDef.staged) * 2 ^ 29 + b2n d.memory * 2 ^ 28 +
    b2n d.user * 2 ^ 27 + (if d.die = 0 ∧ d.base = 0x060 then s.rd (page * 0x1000 + 0x004) % 2 ^ 16 else 0)

/-- Registers of a page whose staged ST fields differ from live (R400). -/
def State.stDiff (s : State) (page : Nat) : Nat := min 0xFFFF (s.shadows.countP fun e => e.1 / 0x1000 == page)

/-- PG_STAGE_STAT of a page (R400). -/
def State.stageStat (s : State) (page : Nat) : Nat :=
  let t := s.tblPending.contains (page * 0x1000)
  let n := s.stDiff page
  b2n (t || n != 0) * 2 ^ 31 + b2n t * 2 ^ 30 + n

/-! ## Registers that mirror other state -/

/-- DEV_PAGE_PRESENT word `w` of a die (R402). -/
def State.presentWord (s : State) (die w : Nat) : Nat :=
  maskOf ((List.range 32).filter fun b => pagePresent s.part (0x1000 * die + 32 * w + b))

/-- The number of present pages of a die (R402). -/
def Part.pageCount (p : Part) (die : Nat) : Nat :=
  match p with
  | .lmb4812 => if die = 0 then 113 else 75
  | .lmb4806 => if die = 0 then 80 else 61

/-- APC_THREAD_STAT of a thread (R179, R202): state, pc, live contexts. -/
def State.threadStat (s : State) (c a t : Nat) : Nat :=
  let i : ApId := ⟨c, a, t, none⟩
  let x := s.thr i
  let live (k : Nat) : Bool := (s.ctx { i with ctx := some k }).live
  let pc := if (List.range 4).any live && x.last < 4 && live x.last then (s.ctx { i with ctx := some x.last }).pc else x.x.pc
  x.st % 8 * 2 ^ 29 + pc % 8192 * 2 ^ 16 + maskOf ((List.range 4).filter live) * 2 ^ 12

/-- HSG_TABLE of a bank: the logical table that holds it (R403). -/
def State.hsgTable (s : State) (bank : Nat) : Nat :=
  match (List.range 32).find? fun t =>
      let c := s.exm t
      c.en && !c.deep && decide (c.bankBase ≤ bank ∧ bank < c.bankBase + c.bankCount) with
  | some t => 2 ^ 31 + t
  | none => 0

/-- A level's extreme since the last read as it stands, the present level included: the register file holds what the changes since then
met. Any other register as the register file holds it. -/
def State.peakView (s : State) (addr : Nat) : Nat :=
  let v := s.rd addr
  let n := addr / 0x1000 % 8
  if addr = Rg.CALD_PEAK then max v (s.rd Rg.CALD_STAT)
  else if addr = Rg.EQS_POOL_PEAK then max v (s.rd Rg.EQS_POOL_STAT)
  else if addr = Rg.BUF_PAGES_LOW then (if v = 0 then s.rd Rg.BUF_PAGES_FREE else min (s.rd Rg.BUF_PAGES_FREE) (v - 1))
  else if addr = Rg.SBUF_PEAK n then max v (s.f (Rg.SBUF_USED n) Fd.SBUF_USED_BYTES)
  else if addr = Rg.FCE_REORDER_PEAK (n % 2) then max v (s.heldOf (n % 2))
  else if addr = Rg.PWR_TEMP 0 ∨ addr = Rg.PWR_TEMP 1 then
    setBits v Fd.PWR_TEMP_PEAK.lo 8 (max (s.f addr Fd.PWR_TEMP_PEAK) (s.f addr Fd.PWR_TEMP_TEMP))
  else v

/-- The value that a read of a register at 0x100–0x7FF of a page returns at clock `clk`, where neither a freeze nor a latch
applies. The registers named here mirror state held elsewhere; all others are the register file's. -/
def State.liveView (s : State) (addr clk : Nat) : Nat :=
  let page := addr / 0x1000
  let off := addr % 0x1000
  let die := page / 0x1000
  let n := page % 0x1000
  if !s.pageOn page then 0
  else if (findReg addr).isNone then 0
  else if n = 0 then
    if off = 0x100 then (if s.part = .lmb4812 then 0x4812A200 else 0x4806A200) + die
    else if off = 0x104 then s.part.pageCount die
    else if off = 0x108 then (Config.devUid die).toNat % 2 ^ 32
    else if off = 0x10C then (Config.devUid die).toNat / 2 ^ 32
    else s.presentWord die ((off - 0x140) / 4)
  else if addr = Rg.TICK_COUNT_LO then s.tickCount % 2 ^ 32
  else if addr = Rg.TICK_COUNT_HI then s.tickCount / 2 ^ 32
  else if addr = Rg.CMT_VER then setBits (s.rd addr) 8 1 (b2n (s.prevCount != 0))
  else if addr = Rg.CMT_INFLIGHT then min 0xFFFF s.prevCount
  else if addr = Rg.PTP_TOD_NS then (s.tod (s.at clk)).2 / 2 ^ 32
  else if addr = Rg.PTP_TOD_SEC_LO then (s.tod (s.at clk)).1 % 2 ^ 32
  else if addr = Rg.PTP_TOD_SEC_HI then (s.tod (s.at clk)).1 / 2 ^ 32
  else if die = 0 ∧ 0x060 ≤ n ∧ n < 0x072 ∧ 0x400 ≤ off then s.threadStat (n - 0x060) ((off - 0x400) / 0x40) (off % 0x40 / 4)
  else if die = 0 ∧ 0x0A8 ≤ n ∧ n < 0x0B0 ∧ off < 0x140 then
    let b := 8 * (n - 0x0A8) + off % 0x20 / 4
    if off < 0x120 then sget 0 s.ra.cam (wkey Pg.EXM b 0) else s.hsgTable b
  else if addr / 0x1000 * 0x1000 = Pg.RAS die ∧ off < 0x120 then s.rasPend die 30 ((off - 0x100) / 4)
  else if addr / 0x1000 * 0x1000 = Pg.RAS die ∧ off < 0x140 then s.rasPend die 31 ((off - 0x120) / 4)
  else if addr / 0x1000 * 0x1000 = Pg.PWR die ∧ 0x110 ≤ off ∧ off < 0x118 then
    (if die = 0 then s.part.domsF else s.part.domsT) / 2 ^ (8 * (off - 0x110)) % 2 ^ 32
  else if addr / 0x1000 * 0x1000 = Pg.IRQ ∧ off < 0x150 then
    maskOf ((List.range 32).filter fun b => s.irqSrc ((off - 0x100) / 4 * 32 + b))
  else if addr / 0x1000 * 0x1000 = Pg.DMA ∧ off < 0x500 ∧ off % 0x10 = 0 then
    let r := (off - 0x100) / 0x10
    let e := s.tbl Pg.IRQ 0 (512 + r)
    setBits (s.rd addr) 16 8 (if s.fb addr Fd.DMA_RING_CFG_PORT then bits e 8 8 else bits e 0 8)
  else if addr = Rg.EQS_SUB_STAT then s.eqsSubStat
  else if addr / 0x1000 * 0x1000 = Pg.EQS ∧ 0x300 ≤ off then s.eqsPortStat ((off - 0x300) / 4)
  else if die = 1 ∧ 0x038 ≤ n ∧ n < 0x040 ∧ off = 0x100 then
    let es := s.eligible (s.at clk)
    maskOf ((List.range 8).filter fun p => s.portReady es (8 * (n - 0x038) + p))
  else if die = 1 ∧ 0x058 ≤ n ∧ n < 0x05A ∧ off = 0x100 then
    b2n (s.links.any fun l => l / 48 == n - 0x058) * 2 ^ 31 + s.heldOf (n - 0x058)
  else if die = 1 ∧ 0x014 ≤ n ∧ n < 0x018 ∧ off = 0x100 then Config.quarterUse 0 (s.rd Rg.CALD_STAT) (n - 0x014) % 2 ^ 17
  else if die = 1 ∧ 0x028 ≤ n ∧ n < 0x02C ∧ off = 0x100 then
    Config.quarterUse 1 (s.f Rg.EQS_POOL_STAT Fd.EQS_POOL_STAT_USED) (n - 0x028) % 2 ^ 17
  else if addr / 0x1000 * 0x1000 = Pg.GATE ∧ 0x600 ≤ off ∧ off < 0x700 then
    setBits (s.rd addr) 0 8 (s.gateEntry ((off - 0x600) / 4) (s.todFrac (s.at clk)))
  else s.peakView addr

end Sys2Proof.Machine
end

