-- ==== Sys2Proof/Machine/Telemetry.lean ====
section
/-! DEFINITION. Counters and telemetry (chapter 14): the global freeze, Plume dumps, performance-monitoring bins, and the second that
rolls for them, for corrected-error storms and for the event log. -/
namespace Sys2Proof.Machine

/-! ## The global freeze (R316) -/

/-- Whether counter reads of a die return frozen values. -/
def State.frozenDie (s : State) (die : Nat) : Option Frozen :=
  match s.te.frz with
  | some f => if die = 0 || f.onT then some f else none
  | none => none

/-- Whether a freeze covers a register: counters, and registers of kind RC. -/
def freezes (addr : Nat) : Bool :=
  match findReg addr with
  | some r => r.cnt || r.fields.any (·.kind = .rc)
  | none => false

/-- The value that a read returns under the freeze in force, if any. -/
def State.view (s : State) (addr clk : Nat) : Nat :=
  match s.frozenDie (addr / 0x1000000) with
  | some f => if freezes addr && s.pageOn (addr / 0x1000) then sget (regReset s.part addr) f.regs addr else s.liveView addr clk
  | none => s.liveView addr clk

/-- A write of CNT_FREEZE (R316): refused while the link is DOWN. -/
def State.freezeWrite (s : State) (v : Nat) : State :=
  if s.d2dDown then s.setInt Pg.CNT_F Ib.CNT_F_REFUSED else s.fieldWrite Rg.CNT_FREEZE v

/-- CNT_FREEZE (R316). -/
def execCntFreeze (a : Acc) (v : Word) (s : State) : Out := .next (s.onWrite a Rg.CNT_FREEZE fun t => t.freezeWrite v.toNat)

/-- The freeze at a tick boundary: FREEZE as written takes effect on both dies, on the T-die unless the link is DOWN. -/
def State.freezeTick (s : State) : State :=
  let want := s.fb Rg.CNT_FREEZE Fd.CNT_FREEZE_FREEZE
  if want && s.te.frz.isNone then
    ({ s with te := { s.te with frz := some ⟨s.regs, s.tk.count, !s.d2dDown⟩ } }).setF Rg.CNT_STAT Fd.CNT_STAT_FROZEN 1
  else if !want && s.te.frz.isSome then
    ({ s with te := { s.te with frz := none } }).setF Rg.CNT_STAT Fd.CNT_STAT_FROZEN 0
  else s

/-- The end of a freeze after FREEZE_TICKS (R316). -/
def State.freezeEnd (s : State) : State :=
  let n := s.f Rg.CNT_FREEZE Fd.CNT_FREEZE_FREEZE_TICKS
  match s.te.frz with
  | none => s
  | some f =>
    if n = 0 ∨ s.tk.count < f.tick + n then s else
    ((({ s with te := { s.te with frz := none } }).setF Rg.CNT_STAT Fd.CNT_STAT_FROZEN 0).setF Rg.CNT_FREEZE
      Fd.CNT_FREEZE_FREEZE 0).setInt Pg.CNT_F Ib.CNT_F_FREEZE_END

/-- FREEZE_END (R316). -/
def execFreezeEnd (s : State) : Out := .next s.freezeEnd

/-- The T-die's part of a freeze ends at once when the link goes DOWN (R316). -/
def State.freezeEndT (s : State) : State :=
  { s with te := { s.te with frz := s.te.frz.map fun f => { f with onT := false } } }

/-! ## Plume (R320 to R323) -/

/-- A dump set outside its registers. -/
def State.plume (s : State) (n : Nat) : PlumeSt := sget {} s.te.plume n

/-- A dump set outside its registers replaced; BUSY follows. -/
def State.setPlume (s : State) (n : Nat) (x : PlumeSt) : State :=
  { s with te := { s.te with plume := sset {} s.te.plume n x } }.setF (Rg.PLUME_SET_STAT n) Fd.PLUME_SET_STAT_BUSY (b2n x.run.isSome)

/-- The valid entries of the list from `first` to `last`. -/
def State.plumeList (s : State) (first last : Nat) : List Nat :=
  (((List.range 1024).filter fun i => decide (first ≤ i ∧ i ≤ last)).map fun i => s.tbl Pg.CNT_T 2 i).filter fun e => bit e 31

/-- The page number that a register entry of the list names. -/
def plumePage (e : Nat) : Nat := bits e 24 1 * 0x1000 + bits e 12 12

/-- What one list entry captures in clock 0 of the due tick: F-die words read all ones while the link is DOWN (R321). -/
def State.plumeItem (s : State) (e : Nat) : DumpItem :=
  let n := bits e 32 20
  if bits e 29 2 = 1 then .pairs (e % 2 ^ 24) n
  else .words ((List.range n).map fun j =>
    if bits e 24 1 = 0 && s.d2dDown then 0xFFFFFFFF else s.liveView (plumePage e * 0x1000 + 4 * (bits e 2 10 + j)) 0)

/-- A due tick skipped (R321). -/
def State.plumeSkip (s : State) (n : Nat) : State :=
  let x := s.plume n
  (((s.setPlume n { x with seq := (x.seq + 1) % 2 ^ 32, skipped := min 255 (x.skipped + 1) }).bump (Rg.PLUME_SKIP_CNT n)).overrun 3).setInt
    Pg.CNT_T Ib.CNT_T_PLUME_SKIP

/-- A set falls due (R320, R321): it captures its pages and starts, or is skipped while its own dump or an earlier tick's snapshot of one of its
pages is still held. -/
def State.plumeDue (s : State) (n : Nat) : State :=
  let cfg := Rg.PLUME_SET_CFG n
  if !(decide (n < 16) && s.fb cfg Fd.PLUME_SET_CFG_EN && s.fb Rg.PLUME_CFG Fd.PLUME_CFG_EN &&
      s.tickCount % s.f cfg Fd.PLUME_SET_CFG_PERIOD == s.f (Rg.PLUME_SET_PHASE n) Fd.PLUME_SET_PHASE_PHASE) then s else
  let first := s.f (Rg.PLUME_SET_LIST n) Fd.PLUME_SET_LIST_FIRST
  let last := s.f (Rg.PLUME_SET_LIST n) Fd.PLUME_SET_LIST_LAST
  let es := s.plumeList first last
  let pages := ((es.filter fun e => bits e 29 2 == 0).map plumePage).eraseDups
  let held := s.te.plume.any fun p => match p.2.run with
    | some d => p.1 == n || (decide (d.tick ≠ s.tickCount) && d.pages.any fun g => pages.contains g)
    | none => false
  if held then s.plumeSkip n else
  let x := s.plume n
  let t := s.tod s.tk.start
  let d : Dump := ⟨s.tickCount, t.2 / 2 ^ 32, t.1, s.rd Rg.PLUME_LIST_GEN, first, last, pages, es.map s.plumeItem,
    s.d2dDown && pages.any fun g => decide (g < 0x1000)⟩
  s.setPlume n { x with run := some d }

/-- PLUME_DUE (R320). -/
def execPlumeDue (set : Nat) (s : State) : Out := .next (s.plumeDue set)

/-- One pair as Plume reads it, with every update admitted before; a pair that reads bad gives a free value. -/
def State.plumePair (s : State) (i : Nat) : State × List Byte :=
  let r := s.pairRead i
  let c := s.flowCached i
  match r.2 with
  | some w => (r.1, leBytes 16 (pairAdd w c.1 c.2))
  | none => (r.1.draw, leBytes 16 (r.1.freeVal 128))

/-- The data of a dump, in list order. -/
def State.plumeData (s : State) : List DumpItem → State × List Byte
  | [] => (s, [])
  | .words l :: is =>
    let r := State.plumeData s is
    (r.1, l.flatMap (leBytes 4) ++ r.2)
  | .pairs first n :: is =>
    let p := (List.range n).foldl (fun (x : State × List Byte) (j : Nat) =>
      let q := x.1.plumePair (first + j)
      (q.1, x.2 ++ q.2)) (s, [])
    let r := State.plumeData p.1 is
    (r.1, p.2 ++ r.2)

/-- A record: its header of 32 bytes and the data, padded to a multiple of 32 bytes (R322). -/
def plumeRecord (n seq skipped : Nat) (d : Dump) (data : List Byte) : List Byte :=
  let units := ceilDiv (32 + data.length) 32
  leBytes 4 (0xA5 * 2 ^ 24 + n * 2 ^ 20 + units) ++ leBytes 4 seq ++ leBytes 8 d.tick ++ leBytes 4 d.ns ++ leBytes 6 d.sec ++
    leBytes 1 (b2n d.part) ++ leBytes 1 (min 255 skipped) ++ leBytes 4 d.gen ++ data ++
    List.replicate (32 * units - 32 - data.length) 0

/-- A record dropped (R323). -/
def State.plumeDrop (s : State) (n : Nat) : State := (s.bump (Rg.PLUME_DROP_CNT n)).setInt Pg.CNT_T Ib.CNT_T_PLUME_DROP

/-- A record written to the HBM ring, at its base where it would cross the end (R323). -/
def State.plumeHbm (s : State) (rec' : List Byte) : State :=
  let size := s.f Rg.PLUME_HBM_SIZE Fd.PLUME_HBM_SIZE_SIZE * 65536
  let wp := s.rd Rg.PLUME_HBM_WP
  let at' := if wp + rec'.length ≤ size then wp else 0
  (s.hbmWrites (s.tableBase + s.f Rg.PLUME_HBM_BASE Fd.PLUME_HBM_BASE_BASE * 65536 + at') (leNat rec') (rec'.length / 16)).wr
    Rg.PLUME_HBM_WP ((at' + rec'.length) % size)

/-- A dump finishes (R322, R323): `room` says whether its ring has descriptors enough. Work on HBM waits for a stack that is down. -/
def State.plumeDone (s : State) (n : Nat) (room : Bool) : State :=
  let x := s.plume n
  match x.run with
  | none => s
  | some d =>
    let dest := s.fb (Rg.PLUME_SET_CFG n) Fd.PLUME_SET_CFG_DEST
    let ring := s.f (Rg.PLUME_SET_CFG n) Fd.PLUME_SET_CFG_RING
    let pairs := d.items.any fun i => match i with
      | .pairs _ _ => true
      | .words _ => false
    if (dest || pairs) && !s.allUp then s else
    let r := s.plumeData d.items
    let rec' := plumeRecord n x.seq x.skipped d r.2
    let fits := if dest then decide (rec'.length ≤ r.1.f Rg.PLUME_HBM_SIZE Fd.PLUME_HBM_SIZE_SIZE * 65536)
      else room && r.1.ringTakes ring 0
    if !fits then (r.1.setPlume n { x with seq := (x.seq + 1) % 2 ^ 32, run := none }).plumeDrop n
    else
      let s1 := (r.1.setPlume n { seq := (x.seq + 1) % 2 ^ 32 }).setF (Rg.PLUME_SET_STAT n) Fd.PLUME_SET_STAT_SEQ (x.seq % 65536)
      if dest then s1.plumeHbm rec'
      else s1.setRing ring { s1.ring ring with items := (s1.ring ring).items ++ [{ src := 2, code := 0, bytes := rec' }] }

/-- PLUME_DUMP_DONE (R322). -/
def execPlumeDumpDone (set : Nat) (room : Bool) (s : State) : Out := .next (s.plumeDone set room)

/-- A command on the Plume list (CNT_T registers). -/
def State.plumeCmd (s : State) (op addr data : Nat) : State × TblAns :=
  let i := addr % 2 ^ 30
  let e := data % 2 ^ 64
  let n := bits e 32 20
  let regsOk := decide (0x40 ≤ bits e 2 10 ∧ 1 ≤ n ∧ n ≤ 448 ∧ bits e 2 10 + n ≤ 0x200)
  let ok := !bit e 31 || (bits e 29 2 == 0 && regsOk) || (bits e 29 2 == 1 && decide (1 ≤ n ∧ n ≤ 65536 ∧ e % 2 ^ 24 + n ≤ 16777216))
  let put (v : Nat) : State × TblAns :=
    ((s.setTbl Pg.CNT_T 2 i v).wr Rg.PLUME_LIST_GEN (s.rd Rg.PLUME_LIST_GEN + 1), ans stOk)
  if op ≠ opRead ∧ op ≠ opWrite ∧ op ≠ opDelete then (s, ans stUnsupported)
  else if 1024 ≤ i then (s, ans stBadAddr)
  else if op = opRead then (s, { st := stOk, data := some (s.tbl Pg.CNT_T 2 i) })
  else if op = opDelete then put 0
  else if !ok then (s, ans stBadData)
  else if s.te.plume.any fun p => match p.2.run with
      | some d => decide (d.first ≤ i ∧ i ≤ d.last)
      | none => false
  then (s, ans stNotAllowed)
  else put e

/-! ## Performance-monitoring bins (R325 to R329) -/

/-- An entity: 0–63 line ports, 64–159 fabric links. -/
def State.pmEnt (s : State) (e : Nat) : PmEnt := sget {} s.te.pm e

/-- An entity replaced. -/
def State.setPmEnt (s : State) (e : Nat) (x : PmEnt) : State := { s with te := { s.te with pm := sset {} s.te.pm e x } }

/-- A bin of an entity. -/
def PmEnt.bin (x : PmEnt) (b : Nat) : PmBin := sget {} x.bins b

/-- A bin of an entity replaced. -/
def PmEnt.setBin (x : PmEnt) (b : Nat) (v : PmBin) : PmEnt := { x with bins := sset {} x.bins b v }

/-- The start of the interval that a second lies in (R326): a quarter of an hour, or a day with its offset. -/
def pmStart (day : Bool) (off sec : Nat) : Nat :=
  if day then sec - (sec + 86400 - off % 86400) % 86400 else sec - sec % 900

/-- Seconds of an interval. -/
def pmLen (day : Bool) : Nat := if day then 86400 else 900

/-- The current bin of a kind, opened for second `sec` where the entity has none yet; the first after reset is SUSPECT. -/
def PmEnt.cur (x : PmEnt) (day : Bool) (off sec : Nat) : PmBin :=
  let b := x.bin (if day then 33 else 0)
  if b.valid then b else { start := pmStart day off sec, valid := true, suspect := true }

/-- A bin with one more second: an unavailable one counts in UAS and in nothing else but the accumulations (R325). -/
def PmBin.add (b : PmBin) (q : PmSec) (un : Bool) : PmBin :=
  { b with
    uas := b.uas + b2n un
    es := b.es + b2n (!un && q.es)
    ses := b.ses + b2n (!un && q.ses)
    xs := b.xs + b2n (!un && q.xs)
    ys := b.ys + b2n (!un && q.ys)
    acc := (b.acc.zip q.acc).map fun p => (p.1 + p.2) % 2 ^ 64
    secs := b.secs + 1
    suspect := b.suspect || !q.en }

/-- The current bin of a kind closed, and the next opened (R326). A bin with another number of seconds than its interval is SUSPECT (R327). -/
def PmEnt.close (x : PmEnt) (day : Bool) (start : Nat) (suspect : Bool) : PmEnt :=
  let b := x.bin (if day then 33 else 0)
  let old := { b with suspect := b.suspect || b.secs != pmLen day }
  let new : PmBin := { start := start, valid := true, suspect := suspect }
  if day then (x.setBin 34 old).setBin 33 new
  else
    let moved := (List.range 31).foldl (fun (y : PmEnt) (j : Nat) => y.setBin (32 - j) (y.bin (31 - j))) x
    (moved.setBin 1 old).setBin 0 new

/-- A second enters the current bin of a kind, which closes with its interval's last. -/
def PmEnt.enter (x : PmEnt) (day : Bool) (off : Nat) (q : PmSec) (un : Bool) : PmEnt :=
  let b := (x.cur day off q.sec).add q un
  let y := x.setBin (if day then 33 else 0) b
  if pmStart day off (q.sec + 1) = q.sec + 1 ∧ b.start ≤ q.sec then y.close day (q.sec + 1) false else y

/-- Whether the thresholds of CNT_PM_TCA are reached anew in a bin: the mask of kinds (R328). -/
def tcaDue (thr : Nat) (b : PmBin) : Nat :=
  let hit (i v lo : Nat) : Nat := b2n (bits thr lo 10 != 0 && decide (bits thr lo 10 ≤ v) && !bit b.tca i) * 2 ^ i
  hit 0 b.es 20 + hit 1 b.ses 10 + hit 2 b.uas 0

/-- The die of an entity, and its number on the CNT page. -/
def pmDie (e : Nat) : Nat := if e < 64 then 0 else 1
def pmNo (e : Nat) : Nat := if e < 64 then e else e - 64

/-- The oldest waiting second enters the bins: unavailable time begins with the first of ten SES in a row and ends with the first of ten that are
not SES (R325); a threshold reached in bin 0 raises a TCA (R328). -/
def State.pmEnter (s : State) (e : Nat) : State :=
  let x := s.pmEnt e
  match x.wait with
  | [] => s
  | q :: rest =>
    if x.wait.length < 11 then s else
    let die := pmDie e
    let off := s.f (Rg.CNT_PM_CFG die) Fd.CNT_PM_CFG_DAY_OFFSET
    let ten := x.wait.take 10
    let un := if x.unavail then !ten.all (fun y => !y.ses) else ten.all (·.ses)
    let b := (x.cur false off q.sec).add q un
    let due := tcaDue (s.rd (Rg.CNT_PM_TCA die)) b
    let x1 := (({ x with wait := rest, unavail := un }.setBin 0 (x.cur false off q.sec)).enter true off q un)
    let cur := x1.cur false off q.sec
    let x2 := (x1.setBin 0 { cur with tca := cur.tca ||| due }).enter false off q un
    let s1 := s.setPmEnt e x2
    let a := Rg.CNT_TCA_STAT die (pmNo e / 32)
    if due = 0 then s1 else
    (s1.wr a (setBit (s1.rd a) (pmNo e % 32))).setInt (Pg.CNT die) (if die = 0 then Ib.CNT_F_TCA else Ib.CNT_T_TCA)

/-- The counters that an entity accumulates (R88, R278). -/
def State.pmCounts (s : State) (e : Nat) : List Nat :=
  if e < 64 then [12, 13, 14, 2].map fun i => s.rd64 (lpCnt e i)
  else
    let l := e - 64
    [s.rd (Rg.FFRM_CELL_ERR_CNT l), s.rd (Rg.FSER_FEC_CORR_CNT (l / 8) (l % 8)), s.rd (Rg.FSER_FEC_UNCORR_CNT (l / 8) (l % 8)),
     s.rd (Rg.FSER_FEC_SYM_ERR_CNT (l / 8) (l % 8))]

/-- What an entity reports of the second that ends (R88, R278), and the entity's record of the second that begins. -/
def State.pmSample (s : State) (e sec : Nat) : PmSec × State :=
  let now := s.pmCounts e
  if e < 64 then
    let x := s.lport e
    let acc := (now.zip x.pmBase).map fun p => (p.1 + 2 ^ 64 - p.2) % 2 ^ 64
    let up := s.lportOn e && s.lkIsUp e
    let cfg := Rg.LPORT_PM_CFG (e / 8) (e % 8)
    let ses := decide (s.f cfg Fd.LPORT_PM_CFG_SES_UNCORR_THR ≤ lget 0 acc 1) || x.sawLf || x.sawRf || x.sawDown || !up
    let deg := decide (2 ^ s.f cfg Fd.LPORT_PM_CFG_DEGRADE_EXP ≤ lget 0 acc 2)
    let storm := bits (s.rd (lpPfcStat e)) Fd.LPORT_PFC_STAT_STORM.lo Fd.LPORT_PFC_STAT_STORM.w != 0
    let lf := s.fb (lpStat e) Fd.LPORT_STAT_LF
    let s1 := s.setLport e { x with pmBase := now, sawLf := lf, sawRf := x.rxRf, sawDown := !up, sawStorm := storm }
    (⟨sec, lget 0 acc 1 != 0 || lget 0 acc 3 != 0 || ses, ses, deg, x.sawStorm || storm, s.lportOn e && s.lpConfigured e, acc⟩,
      s1.setIntIf deg (Pg.LPORT (e / 8)) (Ib.LPORT_FEC_DEGRADE (e % 8)))
  else
    let l := e - 64
    let x := s.lane l
    let acc := (now.zip x.pmBase).map fun p => (p.1 + 2 ^ 32 - p.2) % 2 ^ 32
    let bad := decide (4 ≤ s.defects l)
    let ses := x.sawSes || bad || decide (s.f Rg.FPM_CFG Fd.FPM_CFG_SES_CELL_THR ≤ lget 0 acc 0)
    let outs := x.sawOut || !s.inService l
    (⟨sec, x.sawErr || lget 0 acc 0 != 0 || ses, ses, outs, false, bit (s.rd (Rg.FPM_LANE_EN (l / 32))) (l % 32), acc⟩,
      s.setLane l { x with pmBase := now, sawErr := false, sawSes := bad, sawOut := !s.inService l })

/-- The entities of a die that the part has. -/
def Part.pmEntities (p : Part) (die : Nat) : List Nat :=
  if die = 0 then List.range p.lanes else (List.range p.fabLanes).map (64 + ·)

/-- One entity's second: its report joins those that wait, and the eleventh lets the oldest enter the bins. A second that does not follow on the
last (`jump`) marks the current bins SUSPECT, and closes those whose interval it does not lie in (R327). -/
def State.pmEntity (s : State) (e sec new : Nat) (jump suspect : Bool) : State :=
  let die := pmDie e
  let off := s.f (Rg.CNT_PM_CFG die) Fd.CNT_PM_CFG_DAY_OFFSET
  let r := s.pmSample e sec
  let on := s.fb (Rg.CNT_PM_CFG die) Fd.CNT_PM_CFG_EN
  let s1 := if on then
      let x := r.2.pmEnt e
      let last := (x.wait ++ [r.1]).reverse.take 10
      let now := if last.length < 10 then x.now else if last.all (·.ses) then true else if last.all (fun y => !y.ses) then false else x.now
      (r.2.setPmEnt e { x with wait := x.wait ++ [r.1], now := now }).pmEnter e
    else r.2
  if !(jump || suspect || !on) then s1 else
  let mark (x : PmEnt) (day : Bool) : PmEnt :=
    let k := if day then 33 else 0
    let b := x.bin k
    if !b.valid then x
    else if jump && on && pmStart day off new != b.start then (x.setBin k { b with suspect := true }).close day (pmStart day off new) true
    else x.setBin k { b with suspect := true }
  s1.setPmEnt e (mark (mark (s1.pmEnt e) false) true)

/-- The second of a die's RAS page (R311): storms end in classes that counted fewer than half of RAS_CE_THR. -/
def State.rasSecond (s : State) (die : Nat) : State :=
  let a := Rg.RAS_STORM die
  let thr := s.f (Rg.RAS_CE_THR die) Fd.RAS_CE_THR_CE_THR
  let s1 := (List.range 16).foldl (fun (t : State) (c : Nat) =>
    if bit (t.rd a) c && decide (2 * sget 0 t.ra.ceSec (16 * die + c) < thr) then t.wr a (clrBit (t.rd a) c) else t) s
  { s1 with ra := { s1.ra with
      ceSec := s1.ra.ceSec.filter fun e => e.1 / 16 != die
      ueLogged := s1.ra.ueLogged.filter fun pg => pg / 0x1000000 != die } }

/-- The second of the log engine (R354): a LOG_SUPPRESSED record tells what the second that ends dropped, outside RATE. -/
def State.logSecond (s : State) : State :=
  let n := s.lg.dropped
  let s1 : State := { s with lg := { s.lg with written := 0, dropped := 0 } }
  if n = 0 then s1
  else s1.putRec ⟨0, s.tickCount, s.ptp.ns, s.ptp.sec, 0x003F, 2 ^ 15 + Pg.EMRAM / 0x1000 % 2 ^ 12, n % 2 ^ 48⟩

/-- The second rolls on a die, from `old` to `new` (R86, R325). -/
def State.rollDie (s : State) (die old new : Nat) (suspect : Bool) : State :=
  let jump := new != (old + 1) % 2 ^ 48
  let s1 := (s.part.pmEntities die).foldl (fun (t : State) (e : Nat) => t.pmEntity e old new jump suspect) s
  let s2 := s1.rasSecond die
  if die = 0 then { s2 with ptp := { s2.ptp with pmSec := new } }
  else { s2.logSecond with te := { s2.logSecond.te with secT := new, rollT := s.tk.count } }

/-- The roll at the first boundary at which the seconds differ (R86): on the T-die with it, or every 976,563 ticks on its own count while the
link is DOWN, its current bins then SUSPECT. `late`: the roll-over slipped into the next tick (R50). -/
def State.pmRoll (s : State) (late : Bool) : State :=
  let sec := (s.tod s.tk.start).1
  let s0 := if late then s.overrun 8 else s
  let s1 := if sec = s.ptp.pmSec then s else s0.rollDie 0 s.ptp.pmSec sec false
  if s.d2dDown then
    (if s.te.rollT + 976563 ≤ s.tk.count then s1.rollDie 1 s.te.secT ((s.te.secT + 1) % 2 ^ 48) true else s1)
  else if sec = s.ptp.pmSec then s1
  else s1.rollDie 1 s.te.secT sec false

/-- PM_SECOND_ROLL (R86). -/
def execPmSecondRoll (late : Bool) (s : State) : Out := .next (s.pmRoll late)

/-- A bin as table 0b00 shows it (R329). -/
def PmEnt.show (x : PmEnt) (b : Nat) : Nat :=
  let v := x.bin b
  let accs := (List.range 4).foldl (fun (a : Nat) (j : Nat) => a + lget 0 v.acc j % 2 ^ 64 * 2 ^ (192 + 64 * j)) 0
  v.start % 2 ^ 32 + (b2n v.valid * 2 ^ 31 + b2n v.suspect * 2 ^ 30 + b2n (b == 0 && x.now) * 2 ^ 29 + v.es % 2 ^ 17) * 2 ^ 32 +
    v.ses % 2 ^ 17 * 2 ^ 64 + v.uas % 2 ^ 17 * 2 ^ 96 + v.xs % 2 ^ 17 * 2 ^ 128 + v.ys % 2 ^ 17 * 2 ^ 160 + accs

/-- A command on the bins of a die (R329). -/
def State.pmCmd (s : State) (die op addr : Nat) : State × TblAns :=
  let e := bits addr 8 7 + 64 * die
  let b := bits addr 0 6
  if op ≠ opRead then (s, ans stUnsupported)
  else if !(s.part.pmEntities die).contains e || decide (34 < b) then (s, ans stBadAddr)
  else (s, { st := stOk, data := some ((s.pmEnt e).show b) })

/-- A table command of CNT_F, which holds table 0b00 alone. -/
def State.cntFCmd (s : State) (op addr : Nat) : State × TblAns :=
  if bits addr 30 2 = 0 then s.pmCmd 0 op addr else (s, ans stBadAddr)

/-- A table command of CNT_T. -/
def State.cntTCmd (s : State) (op addr data : Nat) : State × TblAns :=
  match bits addr 30 2 with
  | 0 => s.pmCmd 1 op addr
  | 1 => s.flowCmd op addr data
  | 2 => s.plumeCmd op addr data
  | _ => (s, ans stBadAddr)

end Sys2Proof.Machine
end

