-- ==== Sys2Proof/Machine/D2d.lean ====
section
/-! DEFINITION. The die-to-die link (chapter 1, R31 to R36): flits and replay, lane repair, bundle loss, retraining, the
link states and the actions of a link that is DOWN. Direction `d` is the receive direction of die `d`. -/
namespace Sys2Proof.Machine

/-- The receive bundles of a die. -/
def State.rx (s : State) (d : Nat) : List Bundle := if d = 0 then s.d2.rxF else s.d2.rxT

/-- A receive bundle. -/
def State.bundle (s : State) (d n : Nat) : Bundle := lget {} (s.rx d) n

/-- A receive bundle replaced. -/
def State.setBundle (s : State) (d n : Nat) (b : Bundle) : State :=
  if d = 0 then { s with d2 := { s.d2 with rxF := lset s.d2.rxF n b } }
  else { s with d2 := { s.d2 with rxT := lset s.d2.rxT n b } }

/-- Whether a receive bundle is in service. -/
def State.bundleUp (s : State) (d n : Nat) : Bool := s.fb (Rg.D2D_BUNDLE_STAT d n) Fd.D2D_BUNDLE_STAT_UP

/-- Receive bundles in service on a die. -/
def State.rxCount (s : State) (d : Nat) : Nat := (List.range 16).countP fun n => s.bundleUp d n

/-- The counts that D2D_STAT of both pages reports. -/
def State.d2dRefresh (s : State) : State :=
  [0, 1].foldl (fun t d =>
    let sp := (List.range 16).countP fun n => t.fb (Rg.D2D_BUNDLE_STAT d n) Fd.D2D_BUNDLE_STAT_SPARE_USED
    ((t.setF (Rg.D2D_STAT d) Fd.D2D_STAT_RX_BUNDLES (t.rxCount d)).setF
      (Rg.D2D_STAT d) Fd.D2D_STAT_TX_BUNDLES (t.rxCount (1 - d))).setF (Rg.D2D_STAT d) Fd.D2D_STAT_RX_SPARES_USED sp) s

/-- The link state that the bundles in service call for (state table of R34): 0 DOWN, 1 IMPAIRED, 2 DEGRADED, 3 UP. -/
def State.d2dWant (s : State) : Nat :=
  let f := s.rxCount 0
  let t := s.rxCount 1
  let n := min f t
  if !s.d2.trained || f < s.d2.minF || t < s.d2.minT then 0
  else if n = 16 then 3
  else if 12 ≤ n then 2
  else 1

/-- What the device does as the link enters DOWN (R35): the egress pool is flushed, the T-die withdraws its system
ports, and a counter freeze ends on the T-die (R316). The other actions of R35 are the steering stage's, the line
ports' and CMT's, each in its own command while the state is DOWN. -/
def State.d2dDownActions (s : State) : State :=
  (((s.setInts (Pg.D2D 0) (2 ^ Ib.D2D_LINK_DOWN)).setInts (Pg.D2D 1) (2 ^ Ib.D2D_LINK_DOWN)).log (Pg.D2D 1) 0x0034 0
    |>.egressFlush |>.withdrawSelf true |>.freezeEndT)

/-- The link state brought to what the bundles call for; a link that is DOWN leaves DOWN only where `mayReturn` (R35). -/
def State.d2dEval (s : State) (mayReturn : Bool) : State :=
  let s := s.d2dRefresh
  let old := s.f (Rg.D2D_STAT 0) Fd.D2D_STAT_STATE
  let new := s.d2dWant
  if new = old ∨ (old = 0 ∧ !mayReturn) then s else
  let s1 := (s.withPaths fun t => (t.setF (Rg.D2D_STAT 0) Fd.D2D_STAT_STATE new).setF (Rg.D2D_STAT 1) Fd.D2D_STAT_STATE new)
  let s2 := (s1.setInt (Pg.D2D 0) Ib.D2D_STATE_CHANGE).setInt (Pg.D2D 1) Ib.D2D_STATE_CHANGE
  if new = 0 then { s2 with d2 := { s2.d2 with downTicks := 0 } }.d2dDownActions
  else if old = 0 then s2.withdrawSelf (s2.fb Rg.FCRD_CTRL Fd.FCRD_CTRL_WITHDRAW)
  else s2

/-- A bundle leaves service (R34). -/
def State.bundleLoss (s : State) (d n : Nat) : State :=
  if !s.bundleUp d n then s else
  let s1 := (s.setF (Rg.D2D_BUNDLE_STAT d n) Fd.D2D_BUNDLE_STAT_UP 0).setBundle d n { (s.bundle d n) with repair := none, repairOk := false }
  (s1.setInt (Pg.D2D d) Ib.D2D_BUNDLE_LOST).d2dEval false

/-- A flit received on bundle `n` of die `d` (R32). -/
def State.flit (s : State) (d n seq : Nat) (crcOk aligned : Bool) : State :=
  if !s.bundleUp d n || s.d2.training then s
  else if !aligned then s.bundleLoss d n
  else
    let b := s.bundle d n
    let s1 := if crcOk then s else
      (s.bump (Rg.D2D_CRC_ERR_CNT d)).bump (Rg.D2DL_CRC_CNT d (n / 2) (n % 2))
    if crcOk && seq == b.seq then s1.setBundle d n { b with seq := b.seq + 1, replays := 0 }
    else if 8 ≤ b.replays then s1.bundleLoss d n
    else ((s1.bump (Rg.D2D_REPLAY_CNT d)).bump (Rg.D2DL_REPLAY_CNT d (n / 2) (n % 2))).setBundle d n { b with replays := b.replays + 1 }

/-- FLIT_RECEIVE (R32). -/
def execFlitReceive (die bundle seq : Nat) (crcOk aligned : Bool) (s : State) : Out :=
  .next (s.flit (die % 2) (bundle % 16) seq crcOk aligned)

/-- One failing lane of a bundle taken in turn: a repair starts, or the bundle is lost because its spare is in use (R34). -/
def State.failLane (s : State) (d n lane : Nat) : State :=
  if !s.bundleUp d n then s else
  let b := s.bundle d n
  if s.fb (Rg.D2D_BUNDLE_STAT d n) Fd.D2D_BUNDLE_STAT_SPARE_USED || (b.repair.isSome && b.repair != some lane) then s.bundleLoss d n
  else s.setBundle d n { b with repair := some lane }

/-- The end of a superframe on bundle `n` of die `d`, with the parity errors of its 33 lanes (32: the spare) (R34). -/
def State.laneParity (s : State) (d n : Nat) (counts : List Nat) : State :=
  let c (l : Nat) := lget 0 counts l
  let s1 := (List.range 33).foldl (fun t l =>
    (t.setF (Rg.D2DL_LANE_ERR d (n / 2) (33 * (n % 2) + l)) Fd.D2DL_LANE_ERR_ERR (min 0xFFFF (c l))).bump
      (Rg.D2DL_LANE_TOT d (n / 2) (33 * (n % 2) + l)) (c l)) s
  let s2 := s1.setF (Rg.D2D_BUNDLE_STAT d n) Fd.D2D_BUNDLE_STAT_LANE_ERR_MAX
    (min 0xFFFF ((List.range 33).foldl (fun m l => max m (c l)) 0))
  if !s2.fb (Rg.D2D_CTRL d) Fd.D2D_CTRL_AUTO_REPAIR then s2 else
  let thr := s2.f (Rg.D2D_LANE_THR d) Fd.D2D_LANE_THR_LANE_ERR_THR
  let used := s2.fb (Rg.D2D_BUNDLE_STAT d n) Fd.D2D_BUNDLE_STAT_SPARE_USED
  let rep := s2.f (Rg.D2D_BUNDLE_STAT d n) Fd.D2D_BUNDLE_STAT_REPAIRED_LANE
  ((List.range 33).filter fun l => decide (thr ≤ c l) && (if l = 32 then used else !(used && l == rep))).foldl
    (fun t l => t.failLane d n l) s2

/-- LANE_PARITY_CHECK (R34). -/
def execLaneParityCheck (die bundle : Nat) (counts : List Nat) (s : State) : Out :=
  .next (s.laneParity (die % 2) (bundle % 16) counts)

/-- The switch to the spare at the boundary at which both copies agree (R34). -/
def State.repairDone (s : State) (d n : Nat) : State :=
  match (s.bundle d n).repair with
  | none => s
  | some lane =>
    let s1 := ((s.setF (Rg.D2D_BUNDLE_STAT d n) Fd.D2D_BUNDLE_STAT_SPARE_USED 1).setF
      (Rg.D2D_BUNDLE_STAT d n) Fd.D2D_BUNDLE_STAT_REPAIRED_LANE lane).setBundle d n { (s.bundle d n) with repair := none }
    (((s1.d2dRefresh).bump (Rg.D2D_REPAIR_CNT d)).setInt (Pg.D2D d) Ib.D2D_LANE_REPAIRED)

/-- LANE_REPAIR_COMPLETE (R34). -/
def execLaneRepairComplete (die bundle : Nat) (s : State) : Out := .next (s.repairDone (die % 2) (bundle % 16))

/-- The whole link is retrained: until training ends it is not trained, which is DOWN (R34). -/
def State.startTraining (s : State) : State :=
  { s with d2 := { s.d2 with trained := false, training := true } }.d2dEval false

/-- A write of D2D_CTRL with RETRAIN (R34): accepted only while DOWN or IMPAIRED. LINE_DOWN_ACTION is RO, and 0, in D2D_T. -/
def State.retrain (s : State) (d v : Nat) : State :=
  let s1 := s.fieldWrite (Rg.D2D_CTRL d) (if d = 0 then v else clrBit v 8)
  if !bit v 0 then s1
  else if s1.f (Rg.D2D_STAT 0) Fd.D2D_STAT_STATE ≤ 1 then s1.startTraining
  else s1.setInt (Pg.D2D d) Ib.D2D_REFUSED

/-- RETRAIN (R34). -/
def execRetrain (a : Acc) (die : Nat) (v : Word) (s : State) : Out :=
  .next (s.onWrite a (Rg.D2D_CTRL (die % 2)) fun t => t.retrain (die % 2) v.toNat)

/-- AUTO_RETRAIN (R35): every 64 ticks while DOWN, when either page has AUTO_RETRAIN = 1. -/
def State.autoRetrain (s : State) : State :=
  if s.d2dDown && !s.d2.training && decide (0 < s.d2.downTicks ∧ s.d2.downTicks % 64 = 0) &&
      (s.fb (Rg.D2D_CTRL 0) Fd.D2D_CTRL_AUTO_RETRAIN || s.fb (Rg.D2D_CTRL 1) Fd.D2D_CTRL_AUTO_RETRAIN)
  then s.startTraining else s

/-- AUTO_RETRAIN (R35). -/
def execAutoRetrain (s : State) : Out := .next s.autoRetrain

/-- One bundle after training, from the mask of its lanes that failed (bit 32: the spare) (R34). -/
def State.trainBundle (s : State) (d n mask : Nat) : State :=
  let bad := (List.range 32).filter (bit mask ·)
  let a := Rg.D2D_BUNDLE_STAT d n
  let max := s.f a Fd.D2D_BUNDLE_STAT_LANE_ERR_MAX
  let s1 := s.setBundle d n {}
  match bad with
  | [] => s1.wr a (2 ^ 31 + max)
  | [l] => if bit mask 32 then s1.wr a max else s1.wr a (2 ^ 31 + 2 ^ 30 + l * 2 ^ 16 + max)
  | _ => s1.wr a max

/-- A link retrain ends with the lanes that failed in each bundle of each direction (R34). -/
def State.trainingDone (s : State) (failF failT : List Nat) : State :=
  if !s.d2.training then s else
  let s1 := (List.range 16).foldl (fun t n => (t.trainBundle 0 n (lget 0 failF n)).trainBundle 1 n (lget 0 failT n)) s
  { s1 with d2 := { s1.d2 with trained := true, training := false } }.d2dEval true

/-- D2D_TRAINING_DONE (R34). -/
def execD2dTrainingDone (failF failT : List Nat) (s : State) : Out := .next (s.trainingDone failF failT)

/-- MANAGEMENT_PATH_CHANGE (R35): the in-package management path fails or returns. -/
def execManagementPathChange (up : Bool) (s : State) : Out :=
  .next ((s.withPaths fun t => { t with d2 := { t.d2 with mgmtUp := up } }).scPathCheck)

/-- An F-die access not completed in 4 µs: a read returns all ones, a write is discarded; a port's is counted in its
page, a controller's nowhere (R36). -/
def State.fdieTimeout (s : State) (a : Acc) (isRead : Bool) : State :=
  let s1 := if isRead then { s with rsp := some 0xFFFFFFFF } else s
  match Machine.portOf a.req with
  | some p => (s1.bump (Rg.PCIE_FDIE_FAIL_CNT p)).setInt (Pg.PCIE p) Ib.PCIE_FDIE_FAIL
  | none => s1

/-- FDIE_ACCESS_TIMEOUT (R36). -/
def execFdieAccessTimeout (a : Acc) (isRead : Bool) (s : State) : Out := .next (s.fdieTimeout a isRead)

/-- The link at a tick boundary: MIN_BUNDLES written before it applies, a trained link that meets it again leaves DOWN,
and the ticks spent DOWN are counted (R34, R35). -/
def State.d2dTick (s : State) : State :=
  let s1 : State := { s with d2 := { s.d2 with
    minF := s.f (Rg.D2D_CTRL 0) Fd.D2D_CTRL_MIN_BUNDLES
    minT := s.f (Rg.D2D_CTRL 1) Fd.D2D_CTRL_MIN_BUNDLES } }
  let s2 := s1.d2dEval true
  if s2.d2dDown then { s2 with d2 := { s2.d2 with downTicks := s2.d2.downTicks + 1 } } else s2

end Sys2Proof.Machine
end

