-- ==== Sys2Proof/Machine/Power.lean ====
section
/-! DEFINITION. Power domains (chapter 17, R374, R375): requests and the rule that accepts a power-off, ramps, and what a domain loses. -/
namespace Sys2Proof.Machine

/-- The number by which the lists of `PwrSt` name a domain. -/
abbrev domKey (die d : Nat) : Nat := 64 * die + d

/-- Whether a switched domain is present (R374). -/
def Part.hasDom (p : Part) (die d : Nat) : Bool := bit (if die = 0 then p.domsF else p.domsT) d

/-- The pages that a domain carries; page ACL goes with both its groups. -/
def domPages (die d : Nat) : List Nat :=
  (domRows.filter fun r => r.2.2.1 == die).flatMap fun r =>
    ((List.range r.2.1).filter fun i => r.2.2.2.1 + r.2.2.2.2 * i == d).map fun i => r.1 + i

/-- TBL_STAT.BUSY of a page: a command runs, or its staged copy is being refilled (R128, R165). -/
def State.tblBusy (s : State) (page : Nat) : Bool := shas s.tblRun page || s.refill.contains page

/-- Whether a deep table is enabled. -/
def State.deepOn (s : State) : Bool := (List.range 32).any fun t => (s.exm t).en && (s.exm t).deep

/-- The rule of R374 under which a domain accepts a power-off requested by requester `by'`. -/
def State.offRule (s : State) (die d by' : Nat) : Bool :=
  if die = 0 then
    if d < 18 then s.role (d / 9) (d % 9) == rlService || s.role (d / 9) (d % 9) == rlFenced
    else if d < 26 then (List.range 16).all fun b => s.f (Rg.TERR_BANK_STAT (d - 18) b) Fd.TERR_BANK_STAT_USED == 0
    else if d < 28 then (List.range 16).all fun k => bits (s.rd (Rg.ACL_PROF_BANKS k)) (16 * (d - 26)) 16 == 0
    else if d < 36 then (List.range 32).all fun t =>
      let c := s.exm t
      !(c.en && !c.deep && decide (c.bankBase < 8 * (d - 28) + 8 ∧ 8 * (d - 28) < c.bankBase + c.bankCount))
    else if d < 44 then (List.range 8).all fun n => s.lpSpeed (8 * (d - 36) + n) == 0 && s.lpFlexe (8 * (d - 36) + n) == 0
    else d == 44 && (s.scRole 0 == scHeld || s.scRole 0 == scFailed)
  else
    if d < 4 then s.f Rg.CALD_STAT Fd.CALD_STAT_USED == 0
    else if d < 6 then false
    else if d < 18 then (List.range 8).all fun n => !s.fb (Rg.FSER_LANE_CFG (d - 6) n) Fd.FSER_LANE_CFG_EN
    else if d < 20 then false
    else if d < 24 then !bit (s.rd (Pg.HBMC (d - 20) + 0x008)) 31 && s.f Rg.HBM_REGION Fd.HBM_REGION_BUF_SIZE == 0 && !s.deepOn
    else if d = 24 then s.scRole 1 == scHeld || s.scRole 1 == scFailed
    else decide (d = 27 ∨ d = 28) && by' != d - 27

/-- Whether a power-off of a domain would be accepted: R374, and no page of it runs a table command (R396). -/
def State.offOk (s : State) (die d by' : Nat) : Bool := s.offRule die d by' && !(domPages die d).any s.tblBusy

/-- The request bit of a domain set; CALD_PWR shows those of the Caldera quarters (R375). -/
def State.setReq (s : State) (die d : Nat) (on : Bool) : State :=
  let a := Rg.PWR_DOM_REQ die (d / 32)
  let s1 := s.wr a (setBits (s.rd a) (d % 32) 1 (b2n on))
  if die = 1 ∧ d < 4 then s1.wr Rg.CALD_PWR (setBits (s1.rd Rg.CALD_PWR) d 1 (b2n on)) else s1

/-- A domain's bit in PWR_DOM_STAT changes (R375). -/
def State.setDom (s : State) (die d : Nat) (on : Bool) : State :=
  let a := Rg.PWR_DOM_STAT die (d / 32)
  (s.wr a (setBits (s.rd a) (d % 32) 1 (b2n on))).setInt (Pg.PWR die) Ib.PWR_DOM_CHANGE

/-- A power request refused (R375). -/
def State.powerRefuse (s : State) (die : Nat) : State := (s.bump (Rg.PWR_REFUSE_CNT die)).setInt (Pg.PWR die) Ib.PWR_REFUSED

/-- Waiting domains of a die start to ramp up, in ascending number, at most four at once (R375). -/
def State.domStart (s : State) (die : Nat) : State :=
  let w := sortBy (fun a b => decide (a ≤ b)) (s.pw.wait.filter (· / 64 == die))
  let go := w.take (4 - s.pw.rise.countP (· / 64 == die))
  { s with pw := { s.pw with rise := s.pw.rise ++ go, wait := s.pw.wait.filter fun k => !go.contains k } }

/-- One request for a domain (R375). A request that finds the domain changing is judged when the change ends. -/
def State.domAsk (s : State) (die d : Nat) (on : Bool) (by' : Nat) : State :=
  if !s.part.hasDom die d then s else
  let k := domKey die d
  let s0 : State := { s with pw := { s.pw with by' := sset 0 s.pw.by' k by' } }
  if s.pw.rise.contains k || s.pw.fall.contains k then s0.setReq die d on
  else if on then
    if s.domOn die d || s.pw.wait.contains k then s0.setReq die d true
    else ({ s0 with pw := { s0.pw with wait := k :: s0.pw.wait } }.setReq die d true).domStart die
  else if !s.domOn die d then { s0 with pw := { s0.pw with wait := s0.pw.wait.filter (· != k) } }.setReq die d false
  else if s.offOk die d by' then { s0 with pw := { s0.pw with fall := s0.pw.fall ++ [k] } }.setReq die d false
  else s0.powerRefuse die

/-- A write of PWR_DOM_REQ: the bits that it changes are requests (R375). -/
def State.reqWrite (s : State) (die w v by' : Nat) : State :=
  (List.range 32).foldl (fun (t : State) (b : Nat) =>
    if bit v b == bit (s.rd (Rg.PWR_DOM_REQ die w)) b then t else t.domAsk die (32 * w + b) (bit v b) by') s

/-- The domains on which the power request of a page acts (R375). -/
def pageDoms (page : Nat) : List (Nat × Nat) := if page = 0x099 then [(0, 26), (0, 27)] else (domOf page).toList

/-- Whether a power-off of a page's domains would be accepted now; never in an AO domain (R396). -/
def State.pageOffOk (s : State) (page by' : Nat) : Bool :=
  !(pageDoms page).isEmpty && (pageDoms page).all fun x => s.offOk x.1 x.2 by'

/-- What a refused power request sets in the page that carried it: CTRL_REFUSED (R398), and REFUSED of a slice (R100) or TBL_REFUSED of a Terrace
bank group (R146). -/
def State.ctrlRefuse (s : State) (page : Nat) : State :=
  let b := if 0x040 ≤ page ∧ page < 0x059 then 2 ^ Ib.SLICE_REFUSED
    else if 0x090 ≤ page ∧ page < 0x098 then 2 ^ Ib.TERR_TBL_REFUSED else 0
  s.setInts (page * 0x1000) (2 ^ 27 + b)

/-- The power request of PG_CTRL of a page: on all its domains together, or refused (R375, R396). -/
def State.pagePower (s : State) (page : Nat) (on : Bool) (by' : Nat) : State :=
  let ds := pageDoms page
  let still := ds.filter fun x => s.domOn x.1 x.2 && !s.pw.fall.contains (domKey x.1 x.2)
  if on then ds.foldl (fun t x => t.domAsk x.1 x.2 true by') s
  else if ds.isEmpty then s.ctrlRefuse page
  else if still.all fun x => s.offOk x.1 x.2 by' then ds.foldl (fun t x => t.domAsk x.1 x.2 false by') s
  else (s.powerRefuse (page / 0x1000)).ctrlRefuse page

/-- A write of CALD_PWR: its bits are the request bits of the quarters (R208, R375). -/
def State.caldPwr (s : State) (v by' : Nat) : State :=
  let ch := (List.range 4).filter fun q => bit v q != bit (s.rd Rg.CALD_PWR) q
  let no := ch.any fun q => !bit v q && s.domOn 1 q && !s.pw.fall.contains (domKey 1 q) && !s.offOk 1 q by'
  (ch.foldl (fun (t : State) (q : Nat) => t.domAsk 1 q (bit v q) by') s).setIntIf no Pg.CALD Ib.CALD_REFUSED

/-- CALD_PWR_WRITE (R208). -/
def execCaldPwrWrite (a : Acc) (v : Word) (s : State) : Out :=
  .next (s.onWrite a Rg.CALD_PWR fun t => t.caldPwr v.toNat (reqNo a.req))

/-! ## What a domain loses -/

/-- Every register, staged value, latch, table and error mark of a list of pages returned to its reset value; ROLE of a slice lies in the AO
domain and stays, and it holds no buckets (R100). -/
def State.losePages (s : State) (ps : List Nat) : State :=
  let out (page : Nat) : Bool := !ps.contains page
  let s1 : State := { s with
    regs := s.regs.filter fun e => out (e.1 / 0x1000)
    shadows := s.shadows.filter fun e => out (e.1 / 0x1000)
    prevSt := s.prevSt.filter fun e => out (e.1 / 0x1000)
    tblPending := s.tblPending.filter fun pg => out (pg / 0x1000)
    hiLatch := s.hiLatch.filter fun e => out (e.1 / 0x4000)
    loHeld := s.loHeld.filter fun e => out (e.1 / 0x4000)
    tbls := s.tbls.filter fun e => out (e.1 / 2 ^ 38)
    marks := s.marks.filter fun e => out (e.1 / 2 ^ 64)
    tblRun := s.tblRun.filter fun e => out e.1
    refill := s.refill.filter out
    softWait := s.softWait.filter out }
  (ps.filter fun g => decide (0x040 ≤ g ∧ g < 0x059)).foldl (fun (t : State) (g : Nat) =>
    (t.setF (g * 0x1000 + 0x100) Fd.SLICE_CTRL_ROLE (s.f (g * 0x1000 + 0x100) Fd.SLICE_CTRL_ROLE)).setF
      (g * 0x1000 + 0x104) Fd.SLICE_STAT_BUCKETS 0) s1

/-- Table entries and error marks of a range of memories of a page lost. -/
def State.loseMems (s : State) (pg lo hi memLo memHi : Nat) : State :=
  { s with
    tbls := s.tbls.filter fun e => !(lo ≤ e.1 && e.1 < hi)
    marks := s.marks.filter fun e => !(e.1 / 2 ^ 64 == pg / 0x1000 && memLo ≤ e.1 / 2 ^ 56 % 256 && e.1 / 2 ^ 56 % 256 < memHi) }

/-- The entry of a part in UPD table 1: its image is gone. -/
def State.dropPart (s : State) (p : Nat) : State := s.setTbl Pg.UPD 1 p 0

/-- What an AP cluster holds outside its page lost. -/
def State.wipeAp (t : State) (c : Nat) : State :=
  { t with
    apCtx := t.apCtx.filter fun e => e.1 / 1024 != c
    apThr := t.apThr.filter fun e => e.1 / 256 != c
    apSup := t.apSup.filter fun e => e.1 / 16 != c
    locks := t.locks.filter fun e => e.1 / 256 != c
    chans := t.chans.filter fun e => e.1 / 64 != c
    apProt := t.apProt.filter fun e => e.1 != c }

/-- What a slice holds outside its page lost; a re-homing that waits for a slice still waits (R100, R103). -/
def State.wipeSlice (s : State) (d i : Nat) : State :=
  let x := s.slice d i
  let t := (s.abortTest d i).setSlice d i { rehome := x.rehome, stranded := x.stranded }
  { t with ln := { t.ln with queues := t.ln.queues.filter fun e => e.1 != 9 * d + i } }

/-- A slice and its AP cluster lost. -/
def State.loseSlice (s : State) (d i : Nat) : State := ((s.wipeSlice d i).dropPart (2 + (9 * d + i))).wipeAp (9 * d + i)

/-- An ACL group's entries lost (R122). -/
def State.loseAcl (s : State) (h : Nat) : State :=
  ((s.loseMems Pg.ACL (tkey Pg.ACL 0 (65536 * h)) (tkey Pg.ACL 0 (65536 * (h + 1))) (16 * h) (16 * h + 16)).setF
    (if h = 0 then Rg.ACL_USED0 else Rg.ACL_USED1) Fd.ACL_USED0_USED 0).setInt Pg.ACL Ib.ACL_GROUP_LOST

/-- A Hash SRAM group's words lost; USED of the tables that keep entries there, all disabled, follows. -/
def State.loseHash (s : State) (g : Nat) : State :=
  let s1 := s.loseMems Pg.EXM (tkey Pg.EXM 0 (196608 * (8 * g))) (tkey Pg.EXM 0 (196608 * (8 * g + 8))) (8 * g) (8 * g + 8)
  (List.range 32).foldl (fun (t : State) (n : Nat) =>
    let c := t.exm n
    if c.deep || t.f (Rg.EXM_TBL_STAT n) Fd.EXM_TBL_STAT_USED == 0 then t else
    let was := t.f (Rg.EXM_TBL_STAT n) Fd.EXM_TBL_STAT_USED
    let now := (t.exmListed c).length
    let t1 := t.setF (Rg.EXM_TBL_STAT n) Fd.EXM_TBL_STAT_USED now
    if c.typ = 2 then t1.setF Rg.LEARN_STAT Fd.LEARN_STAT_USED (t1.f Rg.LEARN_STAT Fd.LEARN_STAT_USED - (was - now)) else t1) s1

/-- What a line group's ports hold outside their page lost. -/
def State.wipeLine (s : State) (g : Nat) : State :=
  { s with
    ports := s.ports.filter fun e => e.1 / 8 != g
    macQ := s.macQ.filter fun f => f.port / 8 != g
    macTx := s.macTx.filter fun k => k.em.lport / 8 != g
    eg := { s.eg with txing := s.eg.txing.filter fun e => e.1 / 8 != g } }

/-- An HBM unit's controller and stack contents lost. -/
def State.wipeHbm (t : State) (k : Nat) : State :=
  { t with
    hb := { t.hb with
      q := t.hb.q.filter fun e => e.1 / 1024 != k
      last := t.hb.last.filter fun e => e.1 / 32 != k
      passed := t.hb.passed.filter fun e => e.1 / 1024 != k
      closed := t.hb.closed.filter (· / 64 != k)
      fails := t.hb.fails.filter fun e => e.1 / 32 != k
      keep := t.hb.keep.filter (· != k)
      hard := t.hb.hard.filter (·.1 / 64 != k) }
    hbm := t.hbm.filter fun e => (t.part.hbmPlace (e.1 * 16)).1 != k }

/-- A fabric lane group's lanes lost. -/
def State.wipeLanes (s : State) (q : Nat) : State := { s with fab := { s.fab with lanes := s.fab.lanes.filter fun e => e.1 / 8 != q } }

/-- A controller powered off: its page, where its role is held, goes with it. -/
def State.loseSc (s : State) (k : Nat) : State := (s.setSc k {}).dropPart k

/-- A PCIe port powered off: its link drops and its MSI-X state is lost. -/
def State.losePcie (s : State) (p : Nat) : State :=
  let t := s.linkDown p
  t.setPcie p { t.pcie p with msixEn := false, fmask := false, vecs := [] }

/-- Every register and memory of a domain lost (R375). -/
def State.loseDomain (s : State) (die d : Nat) : State :=
  let s1 :=
    if die = 0 then
      if d < 18 then s.loseSlice (d / 9) (d % 9)
      else if d < 26 then s
      else if d < 28 then s.loseAcl (d - 26)
      else if d < 36 then s.loseHash (d - 28)
      else if d < 44 then (s.wipeLine (d - 36)).dropPart (20 + (d - 36))
      else s.loseSc 0
    else
      if 6 ≤ d ∧ d < 18 then (s.wipeLanes (d - 6)).dropPart (28 + (d - 6))
      else if 20 ≤ d ∧ d < 24 then (s.wipeHbm (d - 20)).dropPart (40 + (d - 20))
      else if d = 24 then s.loseSc 1
      else if d = 27 ∨ d = 28 then s.losePcie (d - 27)
      else s
  let acl := decide (die = 0 ∧ (d = 26 ∨ d = 27)) && !s.domOn 0 (53 - d)
  s1.losePages (domPages die d ++ (if acl then [0x099] else []))

/-! ## Ramps -/

/-- A domain's supply is removed (R375). A request for power that came meanwhile starts then. -/
def State.domOffDone (s : State) (die d : Nat) : State :=
  let k := domKey die d
  if !s.pw.fall.contains k then s else
  let on := bit (s.rd (Rg.PWR_DOM_REQ die (d / 32))) (d % 32)
  let s1 := (s.loseDomain die d).setDom die d false
  let s2 : State := { s1 with pw := { s1.pw with fall := s1.pw.fall.filter (· != k),
                                                 wait := if on then k :: s1.pw.wait else s1.pw.wait } }
  (s2.domStart die).scUpdate

/-- DOMAIN_POWER_OFF_DONE (R375). -/
def execDomainPowerOffDone (die dom : Nat) (s : State) : Out := .next (s.domOffDone (die % 2) dom)

/-- A domain is powered and initialised: its pages leave reset (R375). A power-off requested meanwhile is judged then. -/
def State.domOnDone (s : State) (die d : Nat) : State :=
  let k := domKey die d
  if !s.pw.rise.contains k then s else
  let s1 := ({ s with pw := { s.pw with rise := s.pw.rise.filter (· != k) } }.setDom die d true).domStart die
  if bit (s1.rd (Rg.PWR_DOM_REQ die (d / 32))) (d % 32) then s1
  else (s1.setReq die d true).domAsk die d false (sget 0 s1.pw.by' k)

/-- DOMAIN_POWER_ON_DONE (R375). -/
def execDomainPowerOnDone (die dom : Nat) (s : State) : Out := .next (s.domOnDone (die % 2) dom)

end Sys2Proof.Machine
end

