-- ==== Sys2Proof/Machine/Classify.lean ====
section
/-! DEFINITION. Classification (chapter 5, R114 to R131): exact-match stages, the ACL TCAM, the merge of decisions, and the ACL
table's commands. An ACL entry is one number: value [319:0], mask [639:320], result [735:640], PRIORITY [755:736], markers
[761:756], VALID [762]; entry `i` of table 0 of ACL is physical index `i`. -/
namespace Sys2Proof.Machine

/-! ## The ACL TCAM -/

/-- Fields of an ACL entry (R120). -/
def aclValue (e : Nat) : Nat := bits e 0 320
def aclMask (e : Nat) : Nat := bits e 320 320
def aclResult (e : Nat) : Nat := bits e 640 96
def aclPrio (e : Nat) : Nat := bits e 736 20
def aclMarks (e : Nat) : Nat := bits e 756 6
def aclValid (e : Nat) : Bool := bit e 762

/-- An ACL entry from its parts. -/
def mkAcl (value mask res prio marks : Nat) : Nat :=
  value % 2 ^ 320 + mask % 2 ^ 320 * 2 ^ 320 + res % 2 ^ 96 * 2 ^ 640 + prio % 2 ^ 20 * 2 ^ 736 + marks % 64 * 2 ^ 756 + 2 ^ 762

/-- The ACL entry at a physical index. -/
def State.acl (s : State) (i : Nat) : Nat := s.tbl Pg.ACL 0 i

/-- The listed ACL entries, by ascending physical index. -/
def State.aclAll (s : State) : List (Nat × Nat) :=
  let lo := tkey Pg.ACL 0 0
  ((s.tbls.filter fun e => lo ≤ e.1 && e.1 < lo + 131072).map fun e => (e.1 - lo, e.2)).filter fun e => aclValid e.2

/-- The entry that wins a search: among the matching visible entries of the banks in the mask the highest PRIORITY, then
the lowest index (R121). -/
def State.aclSearch (s : State) (mask rank key : Nat) (excl : Option Nat := none) : Option (Nat × Nat) :=
  let hits := s.aclAll.filter fun e =>
    some e.1 != excl && bit mask (e.1 / 4096) && s.visible rank (aclMarks e.2) && (key &&& aclMask e.2) == (aclValue e.2 &&& aclMask e.2)
  hits.foldl (fun (b : Option (Nat × Nat)) e =>
    match b with
    | none => some e
    | some x => if aclPrio x.2 < aclPrio e.2 then some e else b) none

/-- The key of an ACL profile: the profile number, then its slots (R120). -/
def State.aclKey (s : State) (old : Bool) (prof : Nat) (k : KeySrc) : Nat :=
  prof % 16 * 2 ^ 316 + buildKey (k.field (s.udf old)) 316 (s.slots old (Rg.ACL_PROF_SLOTS prof 0) 4)

/-- Whether an ACL entry's shadow is lost. -/
def State.aclShadowBad (s : State) (i : Nat) : Bool :=
  (List.range 6).any fun j => s.badWord Pg.ACL (i / 4096) (i % 4096 * 8 + j)

/-- The result of one ACL search of a profile for a packet; no match gives a permit with no valid field (R121). A winning
row that fails parity is checked against its shadow: with the shadow lost the row does not match, and a rewrite is
requested (R305). -/
def State.aclRun (s : State) (old : Bool) (rank prof : Nat) (k : KeySrc) : State × Nat :=
  let mask := s.vrd old (Rg.ACL_PROF_BANKS prof)
  let key := s.aclKey old prof k
  match s.aclSearch mask rank key with
  | none => (s, 0)
  | some e =>
    if k.upset = some e.1 ∧ s.aclShadowBad e.1 then
      let s1 := (s.touch Pg.ACL 2 (e.1 / 4096) ((List.range 6).map (e.1 % 4096 * 8 + ·))).rwRequest 2 (e.1 / 4096) (e.1 % 4096 * 8)
      (s1, ((s1.aclSearch mask rank key (some e.1)).map fun x => aclResult x.2).getD 0)
    else (s, aclResult e.2)

/-! ## The merge -/

/-- A forwarding decision and its code: 0 CONTINUE, 1 DROP, 2 PUNT. -/
abbrev Fwd := Nat × Nat

/-- The most severe decision wins; among PUNTs the later stage's code (R123). -/
def mergeFwd (a b : Fwd) : Fwd := if a.1 = 1 then a else if b.1 = 1 then b else if b.1 = 2 then b else a

/-- FWD of a result: 0b11 is treated as DROP (R118, R123). -/
def fwdOf (x code : Nat) : Fwd := (if x = 3 then 1 else x, code)

/-- A colour of a result: 0b11 is treated as red. -/
def colorOf (x : Nat) : Nat := if x = 3 then 2 else x

/-- What classification has found for a packet so far (R123). -/
structure Cls where
  fwd : Fwd
  vrf : Nat
  cls : Nat
  prof : Nat
  tc : Nat
  color : Nat := 0
  pol : Nat := 0
  polEn : Bool := false
  feats : Nat := 0
  apf : Nat := 0
  mir : Nat := 0
  mirEn : Bool := false
  fc : Nat := 0
  fcEn : Bool := false
  sample : Bool := false
deriving DecidableEq, Repr

/-- A classification result applied (R118). -/
def Cls.em (c : Cls) (r : Nat) : Cls :=
  { c with
    fwd := mergeFwd c.fwd (fwdOf (bits r 34 2) (bits r 36 8))
    vrf := if bit r 13 then bits r 80 16 else c.vrf
    cls := if bit r 12 then bits r 68 12 else c.cls
    pol := if bit r 11 then bits r 49 19 else c.pol
    polEn := c.polEn || bit r 11
    tc := if bit r 10 then bits r 46 3 else c.tc
    color := if bit r 9 then colorOf (bits r 44 2) else c.color
    prof := if bit r 8 then bits r 14 4 else c.prof
    feats := c.feats ||| bits r 18 16 }

/-- An ACL result applied (R123). -/
def Cls.acl (c : Cls) (r : Nat) : Cls :=
  { c with
    fwd := mergeFwd c.fwd (fwdOf (bits r 94 2) (bits r 86 8))
    tc := if bit r 82 then bits r 83 3 else c.tc
    color := if bit r 79 then colorOf (bits r 80 2) else c.color
    pol := if bit r 59 then bits r 60 19 else c.pol
    polEn := c.polEn || bit r 59
    mir := if bit r 53 then bits r 54 5 else c.mir
    mirEn := c.mirEn || bit r 53
    sample := c.sample || bit r 52
    fc := if bit r 27 then bits r 28 24 else c.fc
    fcEn := c.fcEn || bit r 27
    apf := c.apf ||| bits r 19 8 }

/-- The profile of a packet (R117). -/
def State.profOf (s : State) (old : Bool) (port : Nat) (hv : List Hdr) : Nat :=
  let a := Rg.CLASS_PORT_CFG port
  match (hv.dropWhile fun h => h.layer == 0 && (h.cls == 1 || h.cls == 2)).head? with
  | some h =>
    if h.cls = 4 then s.vf old a Fd.CLASS_PORT_CFG_PROF_IP4
    else if h.cls = 5 then s.vf old a Fd.CLASS_PORT_CFG_PROF_IP6
    else if h.cls = 3 then s.vf old a Fd.CLASS_PORT_CFG_PROF_MPLS
    else s.vf old a Fd.CLASS_PORT_CFG_PROF_L2
  | none => s.vf old a Fd.CLASS_PORT_CFG_PROF_L2

/-- One exact-match stage: stage 0 is lookup A, 1 is lookup B (R117 to R119). -/
def State.emStage (s : State) (old : Bool) (rank prof stage : Nat) (k : KeySrc) (c : Cls) : State × Cls :=
  let a := Rg.CLASS_PROF_CTL prof
  let en := s.vf old a (if stage = 0 then Fd.CLASS_PROF_CTL_EN_A else Fd.CLASS_PROF_CTL_EN_B) == 1
  let t := s.vf old a (if stage = 0 then Fd.CLASS_PROF_CTL_TABLE_A else Fd.CLASS_PROF_CTL_TABLE_B)
  let miss := s.vf old a (if stage = 0 then Fd.CLASS_PROF_CTL_MISS_A else Fd.CLASS_PROF_CTL_MISS_B)
  let missCnt := if stage = 0 then Rg.CLASS_MISS_A_CNT else Rg.CLASS_MISS_B_CNT
  let hitCnt := if stage = 0 then Rg.CLASS_HIT_A_CNT else Rg.CLASS_HIT_B_CNT
  if !en then (s.bump missCnt, c) else
  let key := buildKey ({ k with vrf := c.vrf, cls := c.cls }.field (s.udf old)) 128
    (s.slots old (Rg.CLASS_PROF_SLOTS prof (2 * stage)) 2)
  let (s1, r) := s.exmLookup t rank (key / 2 ^ (128 - (s.exm t).keyBits))
  match r with
  | some x => (s1.bump hitCnt, c.em x)
  | none => (s1.bump missCnt, { c with fwd := mergeFwd c.fwd (fwdOf miss (s.vf old a Fd.CLASS_PROF_CTL_MISS_PUNT_CODE)) })

/-- One ingress ACL search, `n` = 0 or 1, with what it counts (R122, R123). -/
def State.aclStage (s : State) (old : Bool) (rank prof n : Nat) (k : KeySrc) (c : Cls) : State × Cls :=
  let (s1, r) := s.aclRun old rank prof { k with vrf := c.vrf, cls := c.cls }
  let f := bits r 94 2
  ((s1.bumpIf (f == 1 || f == 3) (if n = 0 then Rg.ACL_DENY_CNT0 else Rg.ACL_DENY_CNT1)).bumpIf (f == 2) Rg.ACL_PUNT_CNT, c.acl r)

/-- The merged result after the ACL stage counted (CLASS counters). -/
def State.classCount (s : State) (c : Cls) : State :=
  (s.bumpIf (c.fwd.1 == 1) Rg.CLASS_DROP_CNT).bumpIf (c.fwd.1 == 2) Rg.CLASS_PUNT_CNT

/-- Classification of an ingress packet from its parse (R114, R117 to R123). -/
def State.classify (s : State) (old : Bool) (rank : Nat) (k : Pkt) (p : Parsed) (upset : Option Nat) : State × Cls :=
  let port := k.md.lport
  let src : KeySrc := ⟨window k.bytes, p.hv, p.frag, p.exc, port, 0, 0, upset⟩
  let pc := Rg.ACL_PORT_CFG port
  let c0 : Cls := {
    fwd := s.excAct old p.exc
    vrf := s.vf old (Rg.CLASS_PORT_DEF port) Fd.CLASS_PORT_DEF_DEF_VRF
    cls := s.vf old (Rg.CLASS_PORT_DEF port) Fd.CLASS_PORT_DEF_DEF_CLASS_ID
    prof := s.vf old pc Fd.ACL_PORT_CFG_ING0_PROF
    tc := k.md.tc }
  let prof := s.profOf old port p.hv
  let (s1, c1) := s.emStage old rank prof 0 src c0
  let (s2, c2) := s1.emStage old rank prof 1 src c1
  let (s3, c3) := if s2.vf old pc Fd.ACL_PORT_CFG_ING0_EN = 1 then s2.aclStage old rank c2.prof 0 src c2 else (s2, c2)
  -- both searches use the keys of clock 164, so ACL1 sees VRF and CLASS_ID as lookup B left them; no ACL result changes them
  let (s4, c4) := if s3.vf old pc Fd.ACL_PORT_CFG_ING1_EN = 1 then
    s3.aclStage old rank (s3.vf old pc Fd.ACL_PORT_CFG_ING1_PROF) 1 src c3 else (s3, c3)
  (s4, c4)

/-! ## ACL table commands (R124, R126) -/

/-- ACL_USED of a physical index's group changed by one. -/
def State.aclUsed (s : State) (i : Nat) (up : Bool) : State :=
  let a := if i < 65536 then Rg.ACL_USED0 else Rg.ACL_USED1
  s.setF a Fd.ACL_USED0_USED (if up then s.f a Fd.ACL_USED0_USED + 1 else s.f a Fd.ACL_USED0_USED - 1)

/-- An ACL entry written, its shadow's words with it. -/
def State.aclPut (s : State) (i v : Nat) : State := (s.setTbl Pg.ACL 0 i v).wroteWords Pg.ACL (i / 4096) (i % 4096 * 8) 6

/-- An ACL entry freed. -/
def State.aclFree (s : State) (i : Nat) : State := (s.aclPut i 0).aclUsed i false

/-- The value of the mask registers. -/
def State.aclMaskRegs (s : State) : Nat := (List.range 10).foldl (fun a j => a + s.rd (Rg.ACL_MASK j) * 2 ^ (32 * j)) 0

/-- WRITE (R126, R129). A write of VALID = 0 frees an entry that may be replaced. -/
def State.aclWrite (s : State) (i data : Nat) : State × TblAns :=
  let ver := s.versioned
  let e := s.acl i
  let valid := bit data (416 + 31)
  let new (m : Nat) := mkAcl (data % 2 ^ 320) s.aclMaskRegs (bits data 320 96) (bits data 416 20) m
  if ver && aclValid e && !s.addedNow (aclMarks e) then (s, ans stOccupied)
  else if ver && !s.classLogRoom 1 && (valid || aclValid e) then (s.classLogRefuse, ans stLogFull)
  else
    let s1 := if valid then (if aclValid e then s else s.aclUsed i true).aclPut i (new (if ver then s.addMark else 0))
      else if aclValid e then s.aclFree i else s
    (if ver && (valid || aclValid e) then s1.classLogAdd 0 i else s1, ans stOk)

/-- One entry deleted (R126). -/
def State.aclDelete (s : State) (i : Nat) : State :=
  if !s.versioned then s.aclFree i else
  let e := s.acl i
  let s1 := s.classLogAdd 0 i
  if s.addedNow (aclMarks e) then s1.aclFree i else s1.aclPut i (setBits e 756 6 (s.delMark (aclMarks e)))

/-- MOVE (R124): the copy keeps its markers, and its log records follow it. -/
def State.aclMove (s : State) (i j : Nat) : State × TblAns :=
  if !aclValid (s.acl i) then (s, ans stNotFound)
  else if 131072 ≤ j then (s, ans stBadAddr)
  else if aclValid (s.acl j) then (s, ans stOccupied)
  else ((((s.aclUsed j true).aclPut j (s.acl i)).aclFree i).classLogMove 0 i j, { st := stOk, moves := 1 })

/-- TBL_DATA as a READ returns an entry. -/
def aclShow (e : Nat) : Nat :=
  aclValue e + aclResult e * 2 ^ 320 + (b2n (aclValid e) * 2 ^ 31 + aclMarks e * 2 ^ 25 + aclPrio e) * 2 ^ 416

/-- READ: the mask is returned in ACL_MASK0–9. -/
def State.aclRead (s : State) (i : Nat) : State × TblAns :=
  let (s1, ok) := s.readWords Pg.ACL 2 (i / 4096) (i % 4096 * 8) 6
  if !ok then (s1.draw, { st := stUncorr, data := some (s1.freeVal 512) }) else
  let e := s1.acl i
  ((List.range 10).foldl (fun t j => t.wr (Rg.ACL_MASK j) (bits (aclMask e) (32 * j) 32)) s1, { st := stOk, data := some (aclShow e) })

/-- The index that a search of the current version hits, in TBL_DATA0 (R124). -/
def State.aclCmdSearch (s : State) (prof data : Nat) : State × TblAns :=
  match s.aclSearch (s.rd (Rg.ACL_PROF_BANKS prof)) rkCur (prof * 2 ^ 316 + data % 2 ^ 316) with
  | none => (s, ans stNotFound)
  | some e => (s, { st := stOk, data := some (setBits data 0 32 e.1) })

/-- FLUSH of the banks named in TBL_DATA0 (R126). -/
def State.aclFlush (s : State) (data : Nat) : State × TblAns :=
  let is := (s.aclAll.filter fun e => bit data (e.1 / 4096) && s.visible rkStaged (aclMarks e.2)).map (·.1)
  if s.versioned && !s.classLogRoom is.length then (s.classLogRefuse, ans stLogFull)
  else (is.foldl (fun t i => t.aclDelete i) s, ans stOk)

/-- A command of the ACL page. -/
def State.aclCmd (s : State) (op addr data : Nat) : State × TblAns :=
  let i := addr % 2 ^ 17
  let off := !s.domOn 0 (26 + i / 65536)
  if op = 3 then (s, ans stUnsupported)
  else if s.versioned && !s.stageOpen && [2, 4, 5, 7].contains op then s.lateTbl
  else if off && [1, 2, 4, 5].contains op then (s, ans stNotAllowed)
  else match op with
    | 1 => s.aclRead i
    | 2 => s.aclWrite i data
    | 4 =>
      let e := s.acl i
      if !aclValid e ∨ (s.versioned ∧ !s.visible rkStaged (aclMarks e)) then (s, ans stNotFound)
      else if s.versioned && !s.classLogRoom 1 then (s.classLogRefuse, ans stLogFull)
      else (s.aclDelete i, ans stOk)
    | 5 => if s.domOn 0 (26 + data % 2 ^ 17 / 65536) then s.aclMove i (data % 2 ^ 17) else (s, ans stNotAllowed)
    | 6 => s.aclCmdSearch (bits addr 17 4) data
    | 7 => s.aclFlush data
    | _ => (s, ans stUnsupported)

/-- One logged ACL entry walked (R127). -/
def State.aclWalk (s : State) (i : Nat) : State :=
  let e := s.acl i
  if !aclValid e then s else
  match s.walkMark (aclMarks e) with
  | none => s.aclFree i
  | some m => s.aclPut i (setBits e 756 6 m)

/-! ## Change-log walk -/

/-- The classification walk ends: every logged entry has its ADD cleared or is freed (R127). -/
def State.classWalkDone (s : State) : State :=
  if !s.fb Rg.CLASS_LOG_STAT Fd.CLASS_LOG_STAT_CLEANUP then s else
  let s1 := s.classWalk.reverse.foldl (fun t e => if e.1 = 0 then t.aclWalk e.2 else t.exmWalk (e.1 - 1) e.2) s
  ((({ s1 with classWalk := [] }.setF Rg.CLASS_LOG_STAT Fd.CLASS_LOG_STAT_CLEANUP 0).classLogStat)).setInt Pg.CLASS Ib.CLASS_CLEANUP_DONE

/-- CLASS_LOG_WALK_DONE (R127). -/
def execClassLogWalkDone (s : State) : Out := .next s.classWalkDone

end Sys2Proof.Machine
end

