-- ==== Sys2Proof/Machine/Terrace.lean ====
section
/-! DEFINITION. Terrace (chapter 6, R132 to R146): rows, banks, the pivot table, search, insertion and deletion, versions, parity and
scrubbing. A row (table `i` of TERR`g` for bank 16 g + i) holds address [127:0], VRF [143:128], markers [149:144], VALID [150],
parity [151], and its associated data LEN [159:152] and result [191:160]; table 16 + i holds its shadow. IPv4 addresses are
right-aligned. A wide entry is held at its even bank. -/
namespace Sys2Proof.Machine

/-! ## Rows -/

/-- Fields of a row. -/
def trAddr (e : Nat) : Nat := bits e 0 128
def trVrf (e : Nat) : Nat := bits e 128 16
def trMarks (e : Nat) : Nat := bits e 144 6
def trValid (e : Nat) : Bool := bit e 150
def trLen (e : Nat) : Nat := bits e 152 8
def trRes (e : Nat) : Nat := bits e 160 32

/-- Whether the row part of an entry fails parity. -/
def trParityBad (e : Nat) : Bool := popcount 152 e % 2 == 1

/-- An entry with its parity bit set right. -/
def trSeal (e : Nat) : Nat := setBits e 151 1 (popcount 151 e)

/-- An entry from its parts. -/
def mkRow (addr vrf marks len res : Nat) : Nat :=
  trSeal (addr % 2 ^ 128 + vrf % 2 ^ 16 * 2 ^ 128 + marks % 64 * 2 ^ 144 + 2 ^ 150 + len % 256 * 2 ^ 152 + res % 2 ^ 32 * 2 ^ 160)

/-- The row of a bank. -/
def State.terr (s : State) (b r : Nat) : Nat := s.tbl (Pg.TERR (b / 16)) (b % 16) r

/-- The shadow of a row. -/
def State.terrShadow (s : State) (b r : Nat) : Nat := s.tbl (Pg.TERR (b / 16)) (16 + b % 16) r

/-- Whether a row's shadow is lost. -/
def State.shadowBad (s : State) (b r : Nat) : Bool :=
  s.badWord (Pg.TERR (b / 16)) (16 + b % 16) (2 * r) || s.badWord (Pg.TERR (b / 16)) (16 + b % 16) (2 * r + 1)

/-- Whether a row's associated data is lost. -/
def State.assocBad (s : State) (b r : Nat) : Bool := s.badWord (Pg.TERR (b / 16)) (b % 16) r

/-- A row written whole, with its associated data and shadow. -/
def State.terrPut (s : State) (b r e : Nat) : State :=
  let pg := Pg.TERR (b / 16)
  (((s.setTbl pg (b % 16) r e).setTbl pg (16 + b % 16) r e).wroteWord pg (b % 16) r).wroteWords pg (16 + b % 16) (2 * r) 2

/-- The listed valid rows of a bank, by ascending row: the row number and its shadow, which hardware's own maps follow. -/
def State.terrRows (s : State) (b : Nat) : List (Nat × Nat) :=
  let lo := tkey (Pg.TERR (b / 16)) (16 + b % 16) 0
  ((s.tbls.filter fun e => lo ≤ e.1 && e.1 < lo + 16384).map fun e => (e.1 - lo, e.2)).filter fun e => trValid e.2

/-- A bank's configuration register. -/
def State.bankCfg (s : State) (b : Nat) : Nat := s.rd (Rg.TERR_BANK_CFG (b / 16) (b % 16))

/-- Fields of a bank configuration. -/
def bcEn (c : Nat) : Bool := bit c 31
def bcFam (c : Nat) : Nat := bits c 29 2
def bcHi (c : Nat) : Nat := bits c 16 8
def bcLo (c : Nat) : Nat := bits c 8 8

/-- Whether a bank holds wide entries. -/
def State.bankWide (s : State) (b : Nat) : Bool := b % 2 == 0 && bcFam (s.bankCfg b) == 2

/-- Whether a bank is the odd bank of a wide pair. -/
def State.bankOdd (s : State) (b : Nat) : Bool := b % 2 == 1 && bcFam (s.bankCfg (b - 1)) == 2

/-- USED and GROUPS of a bank, and of its pair for wide entries, brought up to its rows. -/
def State.terrStat (s : State) (b : Nat) : State :=
  let rs := s.terrRows b
  let v := rs.length + 2 ^ 16 * ((rs.map fun e => trLen e.2).eraseDups).length
  let s1 := s.wr (Rg.TERR_BANK_STAT (b / 16) (b % 16)) v
  if s.bankWide b then s1.wr (Rg.TERR_BANK_STAT (b / 16) (b % 16 + 1)) v else s1

/-! ## The change log (R142) -/

/-- TERR_LOG_STAT brought up to the log. -/
def State.terrLogStat (s : State) : State :=
  let n := s.terrLog.length
  (s.setF Rg.TERR_LOG_STAT Fd.TERR_LOG_STAT_USED (min 65536 (n + s.terrWalk.length))).setF Rg.TERR_LOG_STAT
    Fd.TERR_LOG_STAT_FULL (b2n (decide (65536 ≤ n)))

/-- Whether the stage's log has room for `n` more. -/
def State.terrLogRoom (s : State) (n : Nat) : Bool := decide (s.terrLog.length + n ≤ 65536)

/-- A command refused for a full log. -/
def State.terrLogRefuse (s : State) : State := (s.bump Rg.TERR_LOG_FULL_CNT).setInt Pg.TERR_CTL Ib.TERR_CTL_LOG_FULL

/-- A row logged by its physical index. -/
def State.terrLogAdd (s : State) (b r : Nat) : State :=
  ({ s with terrLog := (16384 * b + r) :: s.terrLog }.terrLogStat).addPending (Pg.TERR (b / 16))

/-- A moved row's log records follow it. -/
def State.terrLogMove (s : State) (b r r' : Nat) : State :=
  let mv (i : Nat) : Nat := if i = 16384 * b + r then 16384 * b + r' else i
  { s with terrLog := s.terrLog.map mv, terrWalk := s.terrWalk.map mv }

/-! ## Search -/

/-- Whether a key matches an address under a length, over `w` address bits (R133). -/
def prefixMatch (w addr key len : Nat) : Bool := addr / 2 ^ (w - len) == key / 2 ^ (w - len)

/-- Whether an entry matches a key of a family (0 IPv4, 1 IPv6), a VRF and an address from a rank (R133, R137). -/
def State.rowMatches (s : State) (fam rank vrf addr e len : Nat) : Bool :=
  trValid e && s.visible rank (trMarks e) && trVrf e == vrf && prefixMatch (if fam = 0 then 32 else 128) (trAddr e) addr len

/-- LEN and result of a row, from its shadow where its associated data is lost (R144). -/
def State.rowAssoc (s : State) (b r : Nat) : Nat × Nat :=
  let e := if s.assocBad b r then s.terrShadow b r else s.terr b r
  (trLen e, trRes e)

/-- The lowest-row match of a bank: its row (R137). -/
def State.bankMatch (s : State) (b fam rank vrf addr : Nat) : Option Nat :=
  let lo := tkey (Pg.TERR (b / 16)) (b % 16) 0
  ((s.tbls.filter fun e => lo ≤ e.1 && e.1 < lo + 16384).find? fun e =>
    s.rowMatches fam rank vrf addr e.2 (s.rowAssoc b (e.1 - lo)).1).map fun e => e.1 - lo

/-- The CRC-16 of family and VRF (R135). -/
def vhash (fam vrf : Nat) : Nat := crc16 0 (bitsOf 17 (fam * 2 ^ 16 + vrf))

/-- The pivot index of a key (R135). -/
def State.pivotIndex (s : State) (fam vrf addr : Nat) : Nat :=
  let a := if fam = 0 then addr / 2 ^ (16 - s.f Rg.TERR_CTL_CFG Fd.TERR_CTL_CFG_V4_PIVOT_OFF)
    else addr / 2 ^ (112 - s.f Rg.TERR_CTL_CFG Fd.TERR_CTL_CFG_V6_PIVOT_OFF)
  (a % 2 ^ 16) ^^^ (if s.fb Rg.TERR_CTL_CFG Fd.TERR_CTL_CFG_VHASH_EN then vhash fam vrf else 0)

/-- The pivot entry of a copy, not VALID where its word is lost (R136, R305). -/
def State.pivot (s : State) (copy i : Nat) : Nat :=
  if s.badWord Pg.TERR_CTL copy i then 0 else s.tbl Pg.TERR_CTL copy i

/-- The slots of a pivot entry (R136). -/
def pivotSlots (e : Nat) : List Nat := if bit e 63 then (List.range (min 8 (bits e 56 4))).map fun j => bits e (7 * j) 7 else []

/-- Banks that a slot takes. -/
def State.slotBanks (s : State) (b : Nat) : Nat := if s.bankWide b then 2 else 1

/-- Slots that fit in pass 1, in order (R136). -/
def State.pass1 (s : State) : Nat → List Nat → Nat
  | _, [] => 0
  | n, b :: l => if n + s.slotBanks b ≤ 4 then State.pass1 s (n + s.slotBanks b) l + 1 else 0

/-- Whether a slot is searched for a family; others are skipped and counted (R136). -/
def State.slotOk (s : State) (fam b : Nat) : Bool :=
  bcEn (s.bankCfg b) && !s.bankOdd b && (if fam = 0 then bcFam (s.bankCfg b) == 0 else bcFam (s.bankCfg b) == 1 || s.bankWide b)

/-- What a route lookup answers: the route result (`none` for a miss), the winner's physical index and LEN, the passes made,
and whether the parity action applies instead. -/
structure TerrAns where
  res : Option Nat := none
  idx : Nat := 0
  len : Nat := 0
  passes : Nat := 0
  parity : Bool := false
deriving DecidableEq, Repr

/-- The winner over the searched banks: the greatest LEN, then the lowest physical index: (index, LEN) (R137). -/
def State.terrBest (s : State) (fam rank vrf addr : Nat) (banks : List Nat) : Option (Nat × Nat) :=
  (banks.filterMap fun b => (s.bankMatch b fam rank vrf addr).map fun r => (16384 * b + r, (s.rowAssoc b r).1)).foldl
    (fun (x : Option (Nat × Nat)) y => match x with
      | none => some y
      | some z => if z.2 < y.2 || (z.2 == y.2 && decide (y.1 < z.1)) then some y else x) none

/-- The parity check of the winning row (R144). -/
def State.terrParity (s : State) (fam rank vrf addr b r : Nat) (a : TerrAns) : State × TerrAns :=
  if !trParityBad (s.terr b r) && !s.assocBad b r then (s, a) else
  let g := b / 16
  let s1 := (s.touch (Pg.TERR g) 1 (b % 16) [r]).setInt (Pg.TERR g) Ib.TERR_PARITY
  let sh := s1.terrShadow b r
  if !s1.shadowBad b r && s1.rowMatches fam rank vrf addr sh (trLen sh) then
    (s1.bump (Rg.TERR_PARITY_CNT g), { a with res := some (trRes sh), len := trLen sh })
  else (s1.bump Rg.TERR_PARITY_DROP_CNT, { a with res := none, parity := true })

/-- A route lookup (R135 to R137, R144). -/
def State.terrLookup (s : State) (old : Bool) (rank fam vrf addr : Nat) : State × TerrAns :=
  let copy := copyOf old
  let i := s.pivotIndex fam vrf addr
  let slots := pivotSlots (s.pivot copy i)
  let ok := slots.filter (s.slotOk fam)
  let p1 := s.pass1 0 slots
  let passes := if slots = [] then 0 else if p1 < slots.length then 2 else 1
  let s1 := (s.touch Pg.TERR_CTL 4 copy [i]).bump64 Rg.TERR_LOOKUP_CNT_LO
  let s2 := if passes = 2 then s1.bump64 Rg.TERR_PASS2_CNT_LO else s1
  let s3 := if slots.length = ok.length then s2 else s2.bump Rg.TERR_SKIP_CNT (slots.length - ok.length)
  match s3.terrBest fam rank vrf addr ok with
  | none => (s3, { passes := passes })
  | some (ix, len) =>
    let b := ix / 16384
    let r := ix % 16384
    s3.terrParity fam rank vrf addr b r { res := some (s3.rowAssoc b r).2, idx := ix, len := len, passes := passes }

/-! ## Insertion (R139) -/

/-- Whether a route result may be written (R139, R147). -/
def resultOk (res : Nat) : Bool :=
  let t := bits res 29 3
  let i := res % 2 ^ 18
  decide (t ≤ 4) && (t != 1 || decide (i < 16384)) && (t != 2 || decide (i < 65536))

/-- Whether a bank takes a LEN and an address (R139). -/
def State.bankTakes (s : State) (b addr len : Nat) : Bool :=
  let c := s.bankCfg b
  let w := if bcFam c = 0 then 32 else 128
  decide (bcLo c ≤ len ∧ len ≤ bcHi c ∧ len ≤ w) && addr % 2 ^ (w - len) == 0 && decide (addr < 2 ^ w)

/-- The row of the visible entry with a VRF, address and LEN. -/
def State.terrFind (s : State) (b vrf addr len : Nat) : Option Nat :=
  let r := if s.versioned then rkStaged else rkCur
  ((s.terrRows b).find? fun e => s.visible r (trMarks e.2) && trVrf e.2 == vrf && trAddr e.2 == addr && trLen e.2 == len).map (·.1)

/-- A row moved into a hole, its log records with it (R141). -/
def State.terrMove (s : State) (b r hole : Nat) : State :=
  (((s.terrPut b hole (s.terrShadow b r)).terrPut b r 0).terrLogMove b r hole).bump (Rg.TERR_MOVE_CNT (b / 16))

/-- Rows of groups moved into the hole in turn; answers the last hole. -/
def State.terrShift (s : State) (b hole : Nat) (rows : List Nat) : State × Nat :=
  rows.foldl (fun (a : State × Nat) r => (a.1.terrMove b r a.2, r)) (s, hole)

/-- Where an insert of a LEN goes: the free row and the rows to move into it in turn, or `none` where the bank is full
(R139). Longer prefixes lie at lower rows. -/
def State.terrPlace (s : State) (b len : Nat) : Option (Nat × List Nat) :=
  let rs := s.terrRows b
  let used := rs.map (·.1)
  let mine := (rs.filter fun e => trLen e.2 == len).map (·.1)
  let free (r : Nat) : Bool := !used.contains r
  let lo := mine.headD 0
  let hi := mine.getLastD 0
  match (if mine = [] then none else (List.range (hi - lo)).find? fun d => free (lo + d)) with
  | some d => some (lo + d, [])
  | none =>
    -- the first row number after the group, or after every longer group where the group is empty
    let after := if mine = [] then (((rs.filter fun e => len < trLen e.2).map (·.1 + 1)).getLastD 0) else hi + 1
    let before := if mine = [] then after else lo
    match (List.range (16384 - after)).find? fun d => free (after + d) with
    | some d =>
      let hole := after + d
      let mid := (rs.filter fun e => after ≤ e.1 && e.1 < hole)
      let firsts := ((mid.map fun e => trLen e.2).eraseDups).filterMap fun l => (mid.find? fun e => trLen e.2 == l).map (·.1)
      some (hole, firsts.reverse)
    | none =>
      match (List.range before).find? fun d => free (before - 1 - d) with
      | none => none
      | some d =>
        let hole := before - 1 - d
        let mid := (rs.filter fun e => hole < e.1 && e.1 < before)
        let lasts := ((mid.map fun e => trLen e.2).eraseDups).filterMap fun l => ((mid.filter fun e => trLen e.2 == l).getLast?).map (·.1)
        some (hole, lasts)

/-- INSERT (R139, R142). -/
def State.terrInsert (s : State) (b vrf addr len res : Nat) : State × TblAns :=
  if !s.bankTakes b addr len || !resultOk res then (s, ans stBadData)
  else if (s.terrFind b vrf addr len).isSome then (s, ans stOccupied)
  else if s.versioned && !s.terrLogRoom 1 then (s.terrLogRefuse, ans stLogFull)
  else
    match s.terrPlace b len with
    | none => (s, ans stFull)
    | some (hole, rows) =>
      let (s1, r) := s.terrShift b hole rows
      let s2 := s1.terrPut b r (mkRow addr vrf (if s.versioned then s.addMark else 0) len res)
      ((if s.versioned then s2.terrLogAdd b r else s2).terrStat b, ⟨stOk, rows.length, some (r * 2 ^ 480)⟩)

/-- WRITE: replaces the result of an entry (R140, R142). -/
def State.terrWrite (s : State) (b vrf addr len res : Nat) : State × TblAns :=
  if !resultOk res then (s, ans stBadData) else
  match s.terrFind b vrf addr len with
  | none => (s, ans stNotFound)
  | some r =>
    let e := s.terrShadow b r
    let s1 := s.terrPut b r (setBits e 160 32 res)
    let a : TblAns := { st := stOk, data := some (r * 2 ^ 480) }
    if !s.versioned then (s1, a)
    else if !s.addedNow (trMarks e) then (s, ans stOccupied)
    else if !s.terrLogRoom 1 then (s.terrLogRefuse, ans stLogFull)
    else (s1.terrLogAdd b r, a)

/-- A row freed. -/
def State.terrFree (s : State) (b r : Nat) : State := (s.terrPut b r 0).terrStat b

/-- A row's markers replaced. -/
def State.terrMark (s : State) (b r m : Nat) : State := s.terrPut b r (trSeal (setBits (s.terrShadow b r) 144 6 m))

/-- One entry deleted (R140, R142). -/
def State.terrDelete (s : State) (b r : Nat) : State :=
  if !s.versioned then s.terrFree b r else
  let e := s.terrShadow b r
  let s1 := s.terrLogAdd b r
  if s.addedNow (trMarks e) then s1.terrFree b r else s1.terrMark b r (s.delMark (trMarks e))

/-- DELETE. -/
def State.terrCmdDelete (s : State) (b vrf addr len : Nat) : State × TblAns :=
  match s.terrFind b vrf addr len with
  | none => (s, ans stNotFound)
  | some r =>
    if s.versioned && !s.terrLogRoom 1 then (s.terrLogRefuse, ans stLogFull)
    else (s.terrDelete b r, { st := stOk, data := some (r * 2 ^ 480) })

/-- FLUSH of a bank. -/
def State.terrFlush (s : State) (b : Nat) : State × TblAns :=
  let rs := ((s.terrRows b).filter fun e => !s.versioned || s.visible rkStaged (trMarks e.2)).map (·.1)
  if s.versioned && !s.terrLogRoom rs.length then (s.terrLogRefuse, ans stLogFull)
  else (rs.foldl (fun t r => t.terrDelete b r) s, ans stOk)

/-- TBL_DATA as a READ returns a row (TERR registers). -/
def terrShow (e r : Nat) : Nat :=
  trVrf e + trAddr e * 2 ^ 32 + trLen e * 2 ^ 160 + trRes e * 2 ^ 192 + (b2n (trValid e) * 2 ^ 31 + trMarks e * 2 ^ 25) * 2 ^ 224 +
    r * 2 ^ 480

/-- READ of a row. -/
def State.terrRead (s : State) (b r : Nat) : State × TblAns :=
  let (s1, ok) := s.readWord (Pg.TERR (b / 16)) 1 (b % 16) r
  if ok then (s1, { st := stOk, data := some (terrShow (s1.terr b r) r) })
  else (s1.draw, { st := stUncorr, data := some (s1.freeVal 512) })

/-- A command of page TERR`g`. -/
def State.terrCmd (s : State) (g op addr data : Nat) : State × TblAns :=
  let b := 16 * g + bits addr 14 4
  let w := if bcFam (s.bankCfg b) = 0 then 32 else 128
  let vrf := data % 2 ^ 16
  let ad := bits data 32 w
  let len := bits data 160 8
  let res := bits data 192 32 &&& 0xFF03FFFF
  if op = 5 ∨ op = 6 then (s, ans stUnsupported)
  else if s.versioned && !s.stageOpen && [2, 3, 4, 7].contains op then s.lateTbl
  else if s.bankOdd b then (s, ans stBadAddr)
  else match op with
    | 1 => s.terrRead b (addr % 2 ^ 14)
    | 2 => s.terrWrite b vrf ad len res
    | 3 => s.terrInsert b vrf ad len res
    | 4 => s.terrCmdDelete b vrf ad len
    | 7 => s.terrFlush b
    | _ => (s, ans stUnsupported)

/-! ## The pivot table's commands -/

/-- A pivot entry that may be written (R136). -/
def State.pivotOk (s : State) (e : Nat) : Bool :=
  decide (bits e 56 4 ≤ 8) && decide (((List.range (bits e 56 4)).map fun j => s.slotBanks (bits e (7 * j) 7)).sum ≤ 8)

/-- A command of the TERR_CTL page. Writes go to the staged copy, or to the live one in direct mode (R128, R142). -/
def State.pivotCmd (s : State) (op addr data : Nat) : State × TblAns :=
  let copy := bits addr 16 2
  let i := addr % 2 ^ 16
  let t := if copy = 0 ∧ !s.versioned then 1 else copy
  if op = 6 then
    let (s1, a) := s.terrLookup false rkCur (bits data 16 1) (data % 2 ^ 16) (bits data 32 (if bit data 16 then 128 else 32))
    let w8 := b2n (a.res.isSome) * 2 ^ 31 + a.passes * 2 ^ 29 + a.idx
    (s1, { st := if a.res.isSome then stOk else stNotFound,
           data := some (setBits (setBits (setBits data 256 32 w8) 288 32 (a.res.getD 0)) 320 32 a.len) })
  else if op ≠ 1 ∧ op ≠ 2 then (s, ans stUnsupported)
  else if copy = 3 then (s, ans stBadAddr)
  else if op = 1 then
    let (s1, ok) := s.readWord Pg.TERR_CTL 4 t i
    if ok then (s1, { st := stOk, data := some (s1.tbl Pg.TERR_CTL t i) }) else (s1.draw, { st := stUncorr, data := some (s1.freeVal 512) })
  else if copy ≠ 0 then (s, ans stReadOnly)
  else if s.versioned && !s.stageOpen then s.lateTbl
  else
    let e := data % 2 ^ 64 &&& 0x8FFFFFFFFFFFFFFF
    if !s.pivotOk e then (s, ans stBadData)
    else
      let s1 := (s.setTbl Pg.TERR_CTL t i e).wroteWord Pg.TERR_CTL t i
      (if s.versioned then s1.addPending Pg.TERR_CTL else s1, ans stOk)

/-! ## Walk, rewriting and scrubbing -/

/-- One logged row walked (R127, R142). -/
def State.terrWalkOne (s : State) (i : Nat) : State :=
  let b := i / 16384
  let r := i % 16384
  let e := s.terrShadow b r
  if !trValid e then s else
  match s.walkMark (trMarks e) with
  | none => s.terrFree b r
  | some m => s.terrMark b r m

/-- The Terrace walk ends (R142). -/
def State.terrWalkDone (s : State) : State :=
  if !s.fb Rg.TERR_LOG_STAT Fd.TERR_LOG_STAT_CLEANUP then s else
  let s1 := s.terrWalk.reverse.foldl (fun t i => t.terrWalkOne i) s
  ((({ s1 with terrWalk := [] }.setF Rg.TERR_LOG_STAT Fd.TERR_LOG_STAT_CLEANUP 0).terrLogStat)).setInt Pg.TERR_CTL Ib.TERR_CTL_CLEANUP_DONE

/-- TERR_LOG_WALK_DONE (R142). -/
def execTerrLogWalkDone (s : State) : Out := .next s.terrWalkDone

/-- A soft error upsets stored bits of a row (R144): the environment's, given with the lookup or the scrub that meets it. -/
def State.terrUpset (s : State) (b r pattern : Nat) : State :=
  if 128 ≤ b ∨ 16384 ≤ r ∨ !s.pageOn (0x090 + b / 16) then s else
  s.setTbl (Pg.TERR (b / 16)) (b % 16) r (s.terr b r ^^^ (pattern % 2 ^ 152))

/-- A row rewritten from its shadow (R144). -/
def State.terrRewrite (s : State) (b r : Nat) : State :=
  if 128 ≤ b ∨ 16384 ≤ r ∨ !s.pageOn (0x090 + b / 16) ∨ s.shadowBad b r then s else s.terrPut b r (s.terrShadow b r)

/-- TERR_ROW_REWRITE (R144). -/
def execTerrRowRewrite (bank row : Nat) (s : State) : Out := .next (s.terrRewrite bank row)

/-- Sinter compares one row with its shadow (R145). `upset` are row bits that a soft error has flipped since, `shadowLost`
that the shadow reads as uncorrectable. -/
def State.terrScrub (s : State) (b r upset : Nat) (shadowLost : Bool) : State :=
  if 128 ≤ b ∨ 16384 ≤ r ∨ !s.pageOn (0x090 + b / 16) then s else
  let g := b / 16
  let s0 := s.terrUpset b r upset
  let differs := s0.terr b r != s0.terrShadow b r || trParityBad (s0.terr b r)
  if !differs then s0
  else if shadowLost || s0.shadowBad b r then
    let s1 := s0.terrFree b r
    ((s1.wr (Pg.TERR g + 0x020) (16384 * b + r)).bump (Rg.TERR_SHADOW_ERR_CNT g)).setInt (Pg.TERR g) Ib.TERR_SHADOW_ERR
  else ((s0.terrPut b r (s0.terrShadow b r)).bump (Rg.TERR_SCRUB_FIX_CNT g)).setInt (Pg.TERR g) Ib.TERR_SCRUB_FIX

/-- TERR_SCRUB_STEP (R145). -/
def execTerrScrubStep (bank row upset : Nat) (shadowLost : Bool) (s : State) : Out := .next (s.terrScrub bank row upset shadowLost)

end Sys2Proof.Machine
end

