-- ==== Sys2Proof/Machine/Check.lean ====
section
/-! DEFINITION. The consistency checker (chapter 2, R55, R56): the rules of every page over the state as it would be after the commit (`a`), and the
rules on live state. A failure is a rule code and the BAR0 offset of the register where it is recorded. -/
namespace Sys2Proof.Machine

/-- A failure: rule code, BAR0 offset. -/
abbrev Fail := Nat × Nat

abbrev rlPage : Nat := 1
abbrev rlInstance : Nat := 2
abbrev rlTableBusy : Nat := 3
abbrev rlVersionBusy : Nat := 4
abbrev rlMode : Nat := 5
abbrev rlCalendar : Nat := 6
abbrev rlLinkDown : Nat := 7

/-- A failure under a condition. -/
def failIf (c : Bool) (rule addr : Nat) : List Fail := if c then [(rule, addr)] else []

/-- Every staged register made live (R52). -/
def State.applyShadows (s : State) : State :=
  { s.shadows.foldl (fun (t : State) (e : Nat × Nat) => t.wr e.1 (t.withSt e.1 e.2)) s with shadows := [] }

/-- Pages whose ST fields the table version covers: PARSE, CLASS, ACL (R128) and APC (R204). -/
def verPage (page : Nat) : Bool := page == 0x080 || page == 0x081 || page == 0x099 || decide (0x060 ≤ page ∧ page < 0x072)

/-- Whether the stage includes versioned changes (R53, R128, R204). -/
def State.verStage (s : State) : Bool :=
  s.versioned && (!s.tblPending.isEmpty || s.shadows.any fun e => verPage (e.1 / 0x1000))

/-- Whether a page holds staged changes (R400). -/
def State.pageStaged (s : State) (page : Nat) : Bool :=
  s.shadows.any (fun e => e.1 / 0x1000 == page) || s.tblPending.contains (page * 0x1000)

/-- Whether any of the pages does. -/
def State.anyStaged (s : State) (ps : List Nat) : Bool := ps.any s.pageStaged

/-! ## Line ports and FlexE (R64, R65, R75, R76, R78) -/

/-- The modes of R64: SPEED, LANE_RATE, and the step between permitted first channels. -/
def portModes : List (Nat × Nat × Nat) :=
  [(5, 0, 8), (4, 0, 4), (4, 1, 8), (3, 0, 2), (3, 1, 4), (2, 0, 1), (2, 1, 2), (2, 2, 4), (1, 1, 1), (1, 2, 2)]

/-- Whether a channel's lanes are covered by a port of its group that starts at a lower channel. -/
def State.covered (a : State) (p : Nat) : Bool :=
  (List.range (p % 8)).any fun n => decide (p % 8 < n + cfgLanes (a.rd (lpCfg (p / 8 * 8 + n))))

/-- The enabled groups, and all groups, of its engine that name a channel as a PHY. -/
def State.phyGroups (a : State) (p : Nat) : List Nat :=
  (List.range 8).filter fun k => bit (a.rd (Rg.FLEXE_GRP_PHYS (flexEngine p) k)) (flexChan p)

/-- The rules of a line port. -/
def State.chkPort (a : State) (p : Nat) : List Fail :=
  let speed := a.lpSpeed p
  let rate := a.f (lpCfg p) Fd.LPORT_CFG_LANE_RATE
  let mode := portModes.find? fun m => m.1 == speed && m.2.1 == rate
  let fx := a.lpFlexe p
  let phy := decide (fx % 2 = 1)
  let gs := a.phyGroups p
  failIf (speed != 0 && mode.isNone) rlPage (lpCfg p) ++
    failIf (speed != 0 && mode.any fun m => p % 8 % m.2.2 != 0) rlPage (lpCfg p) ++
    failIf (speed != 0 && a.covered p) rlPage (lpCfg p) ++
    failIf (phy && !decide (1 ≤ speed ∧ speed ≤ 3)) rlPage (lpCfg p) ++
    failIf (fx == 2 && speed != 0) rlPage (lpCfg p) ++
    failIf (phy && (decide (1 < gs.length) ||
      !gs.any fun k => a.fb (Rg.FLEXE_GRP_CFG (flexEngine p) k) Fd.FLEXE_GRP_CFG_EN)) rlPage (lpCfg p)

/-- The PHYs of a group. -/
def State.grpPhys (a : State) (e k : Nat) : List Nat :=
  ((onesOf 32 (a.rd (Rg.FLEXE_GRP_PHYS e k))).map fun c => 32 * e + c).filter fun p => a.lpFlexe p % 2 == 1

/-- A client's slot counts (R76). -/
def clientSlots (n : Nat) : Bool := n == 2 || n == 8 || (n % 5 == 0 && decide (5 ≤ n ∧ n ≤ 160))

/-- The rules of a FlexE group; the calendar is checked where TX_CAL changes. -/
def State.chkGroup (s a : State) (e k : Nat) : List Fail :=
  let cfg := Rg.FLEXE_GRP_CFG e k
  let ps := a.grpPhys e k
  let page := a.f cfg Fd.FLEXE_GRP_CFG_TX_CAL
  let xs := ((List.range (a.flexSlots e k)).map fun i => a.flexSlot e page k i).filter fun x => bit x 7
  failIf (ps.any fun p => ps.any fun q => a.lpSpeed p != a.lpSpeed q) rlPage (Rg.FLEXE_GRP_PHYS e k) ++
    failIf ((onesOf 32 (a.rd (Rg.FLEXE_GRP_PHYS e k))).any fun c => !s.lportOn (32 * e + c)) rlInstance (Rg.FLEXE_GRP_PHYS e k) ++
    (if page = s.f cfg Fd.FLEXE_GRP_CFG_TX_CAL then [] else
      failIf (xs.any fun x => !a.isClient (32 * e + x % 32)) rlCalendar cfg ++
        failIf ((List.range 32).any fun c =>
          let n := xs.countP fun x => x % 32 == c
          n != 0 && !clientSlots n) rlCalendar cfg)

/-- Line ports and FlexE: each engine's pages are judged together. -/
def State.chkLine (s a : State) : List Fail :=
  (List.range 2).flatMap fun e =>
    if s.anyStaged ((0x020 + e) :: (List.range 4).map (0x010 + 4 * e + ·)) then
      ((List.range 32).flatMap fun c => if s.lportOn (32 * e + c) then a.chkPort (32 * e + c) else []) ++
        (if s.pageOn (0x020 + e) then (List.range 8).flatMap fun k => s.chkGroup a e k else [])
    else []

/-! ## Steering, parsing, classification, ACL -/

/-- STEER (R93) and ADM (R207, R217). -/
def State.chkLossless (s a : State) : List Fail :=
  let st := a.f Rg.STEER_CFG Fd.STEER_CFG_LOSSLESS_TC
  let ad := a.f Rg.ADM_CFG Fd.ADM_CFG_LOSSLESS_TC
  (if s.anyStaged [Pg.STEER / 0x1000, Pg.ADM / 0x1000] then
    failIf (decide (2 < popcount 8 st)) rlPage Rg.STEER_CFG ++ failIf (st != ad) rlPage Rg.STEER_CFG else []) ++
  (if s.pageStaged (Pg.ADM / 0x1000) then
    failIf (decide (2 < popcount 8 ad)) rlPage Rg.ADM_CFG ++
      failIf (decide (s.caldCells < a.f Rg.ADM_LOSSY_MAX Fd.ADM_LOSSY_MAX_CELLS + a.f Rg.ADM_RETURN_RSV Fd.ADM_RETURN_RSV_CELLS + 8192))
        rlPage Rg.ADM_LOSSY_MAX else [])

/-- PARSE: a PUNT needs a code. -/
def State.chkParse (s a : State) : List Fail :=
  if !s.pageStaged (Pg.PARSE / 0x1000) then [] else
  (List.range 8).flatMap fun e => if e = 0 then [] else
    failIf (a.f (Rg.PARSE_EXC_CFG e) Fd.PARSE_EXC_CFG_ACTION == 2 && a.f (Rg.PARSE_EXC_CFG e) Fd.PARSE_EXC_CFG_PUNT_CODE == 0)
      rlPage (Rg.PARSE_EXC_CFG e)

/-- A lookup of a profile: its table is a classification table (R116), enabled after the commit (R56). -/
def State.chkLookup (a : State) (k : Nat) (en table : Fld) : List Fail :=
  let r := Rg.CLASS_PROF_CTL k
  let c := a.exm (a.f r table)
  if !a.fb r en then [] else failIf (c.typ != 1) rlPage r ++ failIf (!c.en) rlInstance r

/-- CLASS (R116): keys, tables, punt codes; the change of TABLE_MODE (R130). -/
def State.chkClass (s a : State) : List Fail :=
  let mode := s.fb Rg.CMT_CTRL Fd.CMT_CTRL_TABLE_MODE != a.fb Rg.CMT_CTRL Fd.CMT_CTRL_TABLE_MODE
  (if s.anyStaged [Pg.CLASS / 0x1000, Pg.EXM / 0x1000] then
    (List.range 16).flatMap fun k =>
      let r := Rg.CLASS_PROF_CTL k
      let ka := a.slots false (Rg.CLASS_PROF_SLOTS k 0) 2
      let kb := a.slots false (Rg.CLASS_PROF_SLOTS k 2) 2
      failIf (decide (128 < keyBits ka)) rlPage (Rg.CLASS_PROF_SLOTS k 0) ++
        failIf (decide (128 < keyBits kb)) rlPage (Rg.CLASS_PROF_SLOTS k 2) ++
        failIf (ka.any fun x => x % 64 == 0x1D || x % 64 == 0x1E) rlPage (Rg.CLASS_PROF_SLOTS k 0) ++
        a.chkLookup k Fd.CLASS_PROF_CTL_EN_A Fd.CLASS_PROF_CTL_TABLE_A ++ a.chkLookup k Fd.CLASS_PROF_CTL_EN_B Fd.CLASS_PROF_CTL_TABLE_B ++
        failIf ((a.f r Fd.CLASS_PROF_CTL_MISS_A == 2 || a.f r Fd.CLASS_PROF_CTL_MISS_B == 2) && a.f r Fd.CLASS_PROF_CTL_MISS_PUNT_CODE == 0)
          rlPage r else []) ++
  failIf (mode && (!s.classLog.isEmpty || !s.classWalk.isEmpty || s.fb Rg.CLASS_LOG_STAT Fd.CLASS_LOG_STAT_CLEANUP || s.fb Rg.TERR_LOG_STAT Fd.TERR_LOG_STAT_CLEANUP))
    rlPage Rg.CLASS_LOG_STAT

/-- ACL: key width (R116), and banks of a group that is off (R122). -/
def State.chkAcl (s a : State) : List Fail :=
  if !s.pageStaged (Pg.ACL / 0x1000) then [] else
  (List.range 16).flatMap fun k =>
    failIf (decide (316 < keyBits (a.slots false (Rg.ACL_PROF_SLOTS k 0) 4))) rlPage (Rg.ACL_PROF_SLOTS k 0) ++
      failIf ((List.range 2).any fun h => !s.domOn 0 (26 + h) && bits (a.rd (Rg.ACL_PROF_BANKS k)) (16 * h) 16 != 0) rlInstance (Rg.ACL_PROF_BANKS k)

/-! ## Terrace -/

/-- The lengths that a family takes (R133). -/
def famRange (fam : Nat) : Nat × Nat := if fam = 0 then (0, 32) else if fam = 1 then (0, 64) else (65, 128)

/-- One bank (R134, R146). A bank whose pair is wide, before or after, goes with its pair. -/
def State.chkBank (s a : State) (b : Nat) : List Fail :=
  let r := Rg.TERR_BANK_CFG (b / 16) (b % 16)
  let c := a.bankCfg b
  let used (x : Nat) : Bool := s.f (Rg.TERR_BANK_STAT (x / 16) (x % 16)) Fd.TERR_BANK_STAT_USED != 0
  let pair := s.bankWide (b / 2 * 2) || a.bankWide (b / 2 * 2)
  let x := famRange (bcFam c)
  if a.bankOdd b then []
  else
    failIf (decide (bcHi c < bcLo c)) rlPage r ++
      failIf (decide (bcLo c < x.1 ∨ x.2 < bcLo c ∨ bcHi c < x.1 ∨ x.2 < bcHi c)) rlPage r ++
      failIf (bcFam c == 2 && b % 2 == 1) rlPage r ++
      failIf (c != s.bankCfg b && (used b || (pair && used (b / 2 * 2 + 1 - b % 2)))) rlPage r ++
      failIf (bcEn c && !s.pageOn (0x090 + b / 16)) rlInstance r

/-- TERR and TERR_CTL. -/
def State.chkTerr (s a : State) : List Fail :=
  let used (fam4 : Bool) : Bool := (List.range 128).any fun b => bcEn (s.bankCfg b) && !s.bankOdd b && (bcFam (s.bankCfg b) == 0) == fam4 &&
    s.f (Rg.TERR_BANK_STAT (b / 16) (b % 16)) Fd.TERR_BANK_STAT_USED != 0
  let r := Rg.TERR_CTL_CFG
  let ch (fl : Fld) : Bool := s.f r fl != a.f r fl
  ((List.range 8).flatMap fun g => if s.pageStaged (0x090 + g) then (List.range 16).flatMap fun i => s.chkBank a (16 * g + i) else []) ++
  (if !s.pageStaged (Pg.TERR_CTL / 0x1000) then [] else
    failIf (a.f r Fd.TERR_CTL_CFG_MISS_ACTION == 1 && a.f r Fd.TERR_CTL_CFG_MISS_PUNT_CODE == 0) rlPage r ++
      failIf (a.f r Fd.TERR_CTL_CFG_PARITY_ACTION == 1 && a.f r Fd.TERR_CTL_CFG_PARITY_PUNT_CODE == 0) rlPage r ++
      failIf (ch Fd.TERR_CTL_CFG_VHASH_EN && (used true || used false)) rlPage r ++
      failIf (ch Fd.TERR_CTL_CFG_V4_PIVOT_OFF && used true) rlPage r ++ failIf (ch Fd.TERR_CTL_CFG_V6_PIVOT_OFF && used false) rlPage r)

/-! ## Exact-match tables, learning, HBM regions -/

/-- Whether two numbers' ranges overlap. -/
def overlap (a la b lb : Nat) : Bool := decide (a < b + lb ∧ b < a + la)

/-- Bytes of a deep table. -/
def ExmCfg.bytes (c : ExmCfg) : Nat := 64 * c.ways * c.nb

/-- The layout fields of EXM_TBL_PLACE: BANK_BASE and BUCKETS for a deep table, BANK_BASE and BANK_COUNT for one in SRAM, where [23] and
[15:0] are reserved (R157). -/
def placeFields (deep : Bool) (w : Nat) : Nat := if deep then w % 2 ^ 30 else bits w 16 7 + bits w 24 6 * 2 ^ 7

/-- A logical table's rules (R157). The rules of the bank range are recorded at EXM_TBL_PLACE, an overlap once for the pair, at the lower
table. -/
def State.chkExm (s a : State) (t : Nat) : List Fail :=
  let r := Rg.EXM_TBL_CFG t
  let lay (x : State) : Nat × Nat × Nat × Nat :=
    (bits (x.rd r) 16 15, placeFields (s.exm t).deep (x.rd (Rg.EXM_TBL_PLACE t)), x.rd (Rg.EXM_TBL_SEED t), x.rd (Rg.EXM_TBL_DEEP_BASE t))
  let c := a.exm t
  let sram := !c.deep
  failIf (lay s != lay a && s.f (Rg.EXM_TBL_STAT t) Fd.EXM_TBL_STAT_USED != 0) rlPage r ++
  (if !c.en then [] else
    ((List.range 32).flatMap fun u =>
      let d := a.exm u
      failIf (sram && decide (t < u) && d.en && !d.deep && overlap c.bankBase c.bankCount d.bankBase d.bankCount) rlPage (Rg.EXM_TBL_PLACE t)) ++
    failIf (sram && (c.bankCount % c.ways != 0 || decide (64 < c.bankBase + c.bankCount))) rlPage (Rg.EXM_TBL_PLACE t) ++
    failIf (c.width == 1 && decide (64 < c.keyBits)) rlPage r ++
    failIf (c.typ == 1 && (c.width != 2 || c.deep)) rlPage r ++
    failIf (c.typ == 2 && (c.width != 1 || c.keyBits != 64 || c.deep)) rlPage r ++
    failIf (c.deep && decide (a.part.hbmBytes < c.base + c.bytes)) rlPage r ++
    failIf (sram && (List.range 8).any fun g => !s.domOn 0 (28 + g) && overlap c.bankBase c.bankCount (8 * g) 8) rlInstance (Rg.EXM_TBL_PLACE t))

/-- The enabled deep tables after the commit. -/
def State.deepTables (a : State) : List ExmCfg := ((List.range 32).map a.exm).filter fun c => c.en && c.deep

/-- EXM, LEARN (R168) and HBM_RAS (R281). -/
def State.chkTables (s a : State) : List Fail :=
  let exm := s.pageStaged (Pg.EXM / 0x1000)
  let hbm := s.pageStaged (Pg.HBM_RAS / 0x1000)
  let size := s.f Rg.HBM_REGION Fd.HBM_REGION_BUF_SIZE != a.f Rg.HBM_REGION Fd.HBM_REGION_BUF_SIZE
  (if exm || hbm then (List.range 32).flatMap fun t => s.chkExm a t else []) ++
  (if exm || s.pageStaged (Pg.LEARN / 0x1000) then
    (List.range 64).flatMap fun p =>
      let c := a.exm (a.f (Rg.LEARN_PORT_CFG p) Fd.LEARN_PORT_CFG_TABLE)
      failIf (a.fb (Rg.LEARN_PORT_CFG p) Fd.LEARN_PORT_CFG_SA_CHECK && !(c.en && c.typ == 2)) rlPage (Rg.LEARN_PORT_CFG p) else []) ++
  (if exm || hbm then
    failIf (size && (s.rd Rg.BUF_PAGES_FREE != s.rd Rg.BUF_PAGES_TOTAL || !a.deepTables.isEmpty)) rlPage Rg.HBM_REGION ++
      failIf (a.deepTables.any fun c => overlap c.base c.bytes a.flowBase 268435456) rlPage Rg.HBM_REGION else [])

/-! ## Buffers, mirroring, gates, fabric, telemetry -/

/-- BUF (R221) and MIR. -/
def State.chkBuf (s a : State) : List Fail :=
  (if s.pageStaged (Pg.BUF / 0x1000) then
    failIf (s.f Rg.BUF_CFG Fd.BUF_CFG_RS_PARITY != a.f Rg.BUF_CFG Fd.BUF_CFG_RS_PARITY && s.rd Rg.BUF_PAGES_FREE != s.rd Rg.BUF_PAGES_TOTAL)
      rlPage Rg.BUF_CFG else []) ++
  (if s.pageStaged (Pg.MIR / 0x1000) then
    ((List.range 32).flatMap fun n => failIf (a.fb (Rg.MIR_SESS_CFG n) Fd.MIR_SESS_CFG_HOST &&
      a.f (Rg.MIR_SESS_TRUNC n) Fd.MIR_SESS_TRUNC_PUNT_CODE == 0) rlPage (Rg.MIR_SESS_TRUNC n)) ++
    (List.range 64).flatMap fun p =>
      let r := Rg.MIR_SAMPLE_CFG p
      failIf (a.f r Fd.MIR_SAMPLE_CFG_N != 0 && !a.fb (Rg.MIR_SESS_CFG (a.f r Fd.MIR_SAMPLE_CFG_SESSION)) Fd.MIR_SESS_CFG_EN) rlInstance r else [])

/-- GATE (R245). -/
def State.chkGate (s a : State) : List Fail :=
  if !s.pageStaged (Pg.GATE / 0x1000) then [] else
  (List.range 64).flatMap fun p =>
    let r := Rg.GATE_PORT_CFG p
    let len := a.f r Fd.GATE_PORT_CFG_LEN
    let page := a.f r Fd.GATE_PORT_CFG_LIST
    if !a.fb r Fd.GATE_PORT_CFG_EN then [] else
    failIf (decide (len < 1 ∨ 256 < len)) rlPage r ++
      failIf (decide (a.rd (Rg.GATE_CYCLE p) < 1000 ∨ 999999999 < a.rd (Rg.GATE_CYCLE p))) rlPage (Rg.GATE_CYCLE p) ++
      failIf ((List.range (min len 256)).any fun i => a.tf Pg.GATE 0 (page * 2 ^ 14 + p * 2 ^ 8 + i) 0 32 == 0) rlPage r

/-- FCELL (R260) and FCRD (R275). -/
def State.chkFabric (s a : State) : List Fail :=
  let page := a.f Rg.FCELL_CAL Fd.FCELL_CAL_PAGE
  (if page = s.f Rg.FCELL_CAL Fd.FCELL_CAL_PAGE then [] else
    (List.range 96).flatMap fun l => (List.range 99).flatMap fun j =>
      let e := a.tbl Pg.FCELL 0 (page * 2 ^ 16 + l * 2 ^ 8 + (j + 1))
      failIf ((e / 2 ^ 30 == 2 && !bit (a.tbl Pg.FCELL 2 (e % 2 ^ 12)) 31) || (decide (a.part.fabLanes ≤ l) && e / 2 ^ 30 != 0)) rlCalendar Rg.FCELL_CAL) ++
  (if s.pageStaged (Pg.FCRD / 0x1000) then
    failIf (decide (a.f Rg.FCRD_CFG Fd.FCRD_CFG_GRANT_LIFE < a.f Rg.FCRD_CFG Fd.FCRD_CFG_USE_TICKS +
      a.f Rg.FCELL_CFG Fd.FCELL_CFG_REORDER_TICKS + 4)) rlPage Rg.FCRD_CFG else [])

/-- Words that a Plume list entry names (R320). -/
def plumeWords (e : Nat) : Nat := if !bit e 31 then 0 else if bits e 29 2 = 0 then bits e 32 20 else 4 * bits e 32 20

/-- CNT_T (R324). -/
def State.chkPlume (s a : State) : List Fail :=
  if !s.anyStaged [Pg.CNT_T / 0x1000, Pg.EXM / 0x1000, Pg.HBM_RAS / 0x1000] then [] else
  let size := a.f Rg.PLUME_HBM_SIZE Fd.PLUME_HBM_SIZE_SIZE * 65536
  let base := a.tableBase + a.f Rg.PLUME_HBM_BASE Fd.PLUME_HBM_BASE_BASE * 65536
  ((List.range 16).flatMap fun n =>
    let first := a.f (Rg.PLUME_SET_LIST n) Fd.PLUME_SET_LIST_FIRST
    let last := a.f (Rg.PLUME_SET_LIST n) Fd.PLUME_SET_LIST_LAST
    let words := ((List.range (last + 1 - first)).map fun i => plumeWords (a.tbl Pg.CNT_T 2 (first + i))).sum
    failIf (decide (a.f (Rg.PLUME_SET_CFG n) Fd.PLUME_SET_CFG_PERIOD ≤ a.f (Rg.PLUME_SET_PHASE n) Fd.PLUME_SET_PHASE_PHASE)) rlPage (Rg.PLUME_SET_PHASE n) ++
      failIf (decide (last < first)) rlPage (Rg.PLUME_SET_LIST n) ++
      failIf (decide (262144 < words)) rlPage (Rg.PLUME_SET_LIST n) ++
      failIf (a.fb (Rg.PLUME_SET_CFG n) Fd.PLUME_SET_CFG_DEST && size == 0) rlPage (Rg.PLUME_SET_CFG n)) ++
  failIf (a.deepTables.any (fun c => overlap base size c.base c.bytes) || overlap base size a.flowBase 268435456) rlPage Rg.PLUME_HBM_BASE

/-! ## Live-state rules -/

/-- The pages whose tables are versioned (R400). -/
def versionedPages : List Nat := [0x080, 0x098, 0x099, 0x0A0] ++ (List.range 8).map (0x090 + ·) ++ (List.range 18).map (0x060 + ·)

/-- The rules on live state (R55, R56). -/
def State.chkLive (s a : State) : List Fail :=
  let ver := s.verStage
  ((versionedPages.filter fun g => s.versioned && s.tblBusy g).map fun g => (rlTableBusy, g * 0x1000 + 0xF08)) ++
    failIf (ver && s.prevCount != 0) rlVersionBusy Rg.CMT_INFLIGHT ++
    failIf (ver && s.fb Rg.CLASS_LOG_STAT Fd.CLASS_LOG_STAT_CLEANUP) rlVersionBusy Rg.CLASS_LOG_STAT ++
    failIf (ver && s.fb Rg.TERR_LOG_STAT Fd.TERR_LOG_STAT_CLEANUP) rlVersionBusy Rg.TERR_LOG_STAT ++
    failIf (a.fb Rg.CMT_CTRL Fd.CMT_CTRL_TABLE_MODE && decide (4 < (s.inRole 0 rlActive).length)) rlMode Rg.CMT_CTRL ++
    failIf s.d2dDown rlLinkDown (Rg.D2D_STAT 0)

/-- Every failure of the staged state. -/
def State.check (s : State) : List Fail :=
  let a := s.applyShadows
  s.chkLine a ++ s.chkLossless a ++ s.chkParse a ++ s.chkClass a ++ s.chkAcl a ++ s.chkTerr a ++ s.chkTables a ++ s.chkBuf a ++
    s.chkGate a ++ s.chkFabric a ++ s.chkPlume a ++ s.chkLive a

/-- The failure at the lowest die, page and word. -/
def firstFail (l : List Fail) : Option Fail :=
  l.foldl (fun b f => match b with
    | none => some f
    | some g => if f.2 < g.2 then some f else b) none

/-- CMT_CHECK_FIRST for a failure. -/
def failWord (f : Fail) : Nat := f.1 * 2 ^ 24 + f.2 / 0x1000000 * 2 ^ 23 + f.2 / 0x1000 % 0x1000 * 2 ^ 11 + f.2 % 0x1000 / 4 * 2

/-- The checker completes (R56, R60). -/
def State.checkDone (s : State) : State :=
  if s.f Rg.CMT_STAT Fd.CMT_STAT_STATE ≠ 1 then s else
  let l := s.check
  let s1 := (s.wr Rg.CMT_CHECK_STAT (2 ^ 31 + b2n l.isEmpty * 2 ^ 30 + min 0xFFFF l.length)).wr Rg.CMT_CHECK_FIRST ((firstFail l).map failWord |>.getD 0)
  (s1.setF Rg.CMT_STAT Fd.CMT_STAT_STATE (if l.isEmpty then 3 else 2)).setInt Pg.CMT Ib.CMT_CHECK_DONE

/-- CHECK_DONE (R60). -/
def execCheckDone (s : State) : Out := .next s.checkDone

end Sys2Proof.Machine
end

