-- ==== Sys2Proof/Machine/Nhop.lean ====
section
/-! DEFINITION. Route resolution and encapsulation (chapter 6, R147 to R155): ECMP, protection, next hops, liveness, the egress
encapsulation of a packet, and the NHOP page's commands. Tables of NHOP: 0 next hop, 1 ECMP group, 2 ECMP member, 3 protection,
4 encapsulation, 5 SA_MAC, 6 WATCH. -/
namespace Sys2Proof.Machine

/-- Entries of an NHOP table. -/
def nhSize (t : Nat) : Nat := lget 0 [262144, 16384, 262144, 65536, 131072, 256, 4096] t

/-- Bits of an entry. -/
def nhBits (t : Nat) : Nat := lget 0 [64, 64, 32, 64, 256, 48, 8] t

/-- An entry of an NHOP table read for a packet: 0 where a word of it is lost (R305). -/
def State.nhEnt (s : State) (t i : Nat) : State × Nat := s.getEntry Pg.NHOP 3 t i (wordsOf (nhBits t))

/-! ## Liveness (R150) -/

/-- A liveness bit. -/
def State.live (s : State) (w : Nat) : Bool := bit (s.rd (Rg.NHOP_LIVE (w / 32))) (w % 32)

/-- A liveness bit given a value. -/
def State.setLive (s : State) (w : Nat) (on : Bool) : State :=
  let a := Rg.NHOP_LIVE (w / 32)
  s.wr a (setBits (s.rd a) (w % 32) 1 (b2n on))

/-- Hardware clears a liveness bit at core clock `t`. -/
def State.hwClear (s : State) (w t : Nat) : State :=
  let s0 : State := { s with liveClr := sset 0 s.liveClr w (t + 1) }
  if !s.live w then s0 else
  ((s0.setLive w false).bump Rg.NHOP_PROT_SWITCH_CNT).setInt Pg.NHOP Ib.NHOP_WATCH_DOWN

/-- The watches bound to a port. -/
def State.watchesOf (s : State) (port : Nat) : List Nat :=
  let lo := tkey Pg.NHOP 6 0
  (s.tbls.filter fun e => lo ≤ e.1 && e.1 < lo + 4096 && bit e.2 7 && e.2 % 64 == port &&
    !s.badWord Pg.NHOP 6 (e.1 - lo)).map fun e => e.1 - lo

/-- The watches of a port that has left UP are cleared (R150). -/
def State.livenessClear (s : State) (port clk : Nat) : State :=
  if s.lkState port = lkUp then s else (s.watchesOf port).foldl (fun t w => t.hwClear w (s.at clk)) s

/-- LIVENESS_CLEAR (R150). -/
def execLivenessClear (port clk : Nat) (s : State) : Out := .next (s.livenessClear port clk)

/-- A set of a liveness bit at core clock `t`: lost where hardware clears the bit in the same clock (R150). -/
def State.liveSet (s : State) (w t : Nat) : State :=
  if sget 0 s.liveClr w = t + 1 then s.bump Rg.NHOP_LIVE_CONFLICT_CNT else s.setLive w true

/-- A write of NHOP_LIVE. -/
def State.nhopLive (s : State) (i v clk : Nat) : State := (onesOf 32 v).foldl (fun t b => t.liveSet (32 * i + b) (s.at clk)) s

/-- NHOP_LIVE (R150). -/
def execNhopLive (a : Acc) (i : Nat) (v : Word) (s : State) : Out :=
  .next (if i < 128 then s.onWrite a (Rg.NHOP_LIVE i) fun t => t.nhopLive i v.toNat a.clk else s)

/-- A write of NHOP_LIVE_CLR. -/
def State.nhopLiveClr (s : State) (i v : Nat) : State := (onesOf 32 v).foldl (fun t b => t.setLive (32 * i + b) false) s

/-- NHOP_LIVE_CLR (R150). -/
def execNhopLiveClr (a : Acc) (i : Nat) (v : Word) (s : State) : Out :=
  .next (if i < 128 then s.onWrite a (Rg.NHOP_LIVE_CLR i) fun t => t.nhopLiveClr i v.toNat else s)

/-! ## Resolution -/

/-- What resolution decides: a forwarding decision, and for a FORWARD next hop its entry and number. -/
structure Resolved where
  fwd : Nat × Nat := (0, 0)
  nh : Option (Nat × Nat) := none
deriving DecidableEq, Repr

/-- A resolution error: the packet is dropped and counted (R147, R148). -/
def State.resolveErr (s : State) : State × Resolved :=
  ((s.bump Rg.NHOP_RESOLVE_ERR_CNT).setInt Pg.NHOP Ib.NHOP_RESOLVE_ERR, { fwd := (1, 0) })

/-- A DROP or PUNT result counted (R148). -/
def State.resolveStop (s : State) (f : Nat × Nat) : State × Resolved :=
  (s.bump (if f.1 = 2 then Rg.NHOP_PUNT_CNT else Rg.NHOP_DROP_CNT), { fwd := f })

/-- Stage 4: the next hop, with its TTL check (R151). `ttl` is the looked-up header's TTL or hop limit. -/
def State.resolveNh (s : State) (i ttl : Nat) : State × Resolved :=
  let (s1, e) := s.nhEnt 0 i
  if !bit e 0 then s1.resolveErr else
  let ty := bits e 62 2
  let code := s1.f Rg.NHOP_CFG Fd.NHOP_CFG_TTL_PUNT_CODE
  if ty = 1 ∨ ty = 3 then s1.resolveStop (1, 0)
  else
    let (s2, x) := if ty = 2 then s1.resolveStop (2, bits e 14 8) else (s1, { nh := some (i, e) })
    if bit e 9 && decide (ttl ≤ 1) then
      (s2.bump Rg.NHOP_TTL_CNT, { x with fwd := if code = 0 then (1, 0) else (2, code) })
    else (s2, x)

/-- Stage 3: the protection group (R150). -/
def State.resolveProt (s : State) (i ttl : Nat) : State × Resolved :=
  let (s1, e) := s.nhEnt 3 i
  if !bit e 0 then s1.resolveErr
  else s1.resolveNh (if bit e 15 || !s1.live (bits e 16 12) then bits e 28 18 else bits e 46 18) ttl

/-- Stages 1 and 2: the ECMP group and its member (R149). -/
def State.resolveEcmp (s : State) (i hash ttl : Nat) : State × Resolved :=
  let (s1, e) := s.nhEnt 1 i
  if !bit e 0 then s1.resolveErr else
  let off := (hash ^^^ bits e 17 16) * bits e 33 13 / 2 ^ 16
  let (s2, m) := s1.nhEnt 2 (bits e 46 18 + off)
  if !bit m 30 then s2.resolveErr
  else if bit m 31 then s2.resolveProt (m % 2 ^ 18) ttl
  else s2.resolveNh (m % 2 ^ 18) ttl

/-- A route result resolved (R147, R148). -/
def State.resolve (s : State) (res hash ttl : Nat) : State × Resolved :=
  let i := res % 2 ^ 18
  match bits res 29 3 with
  | 0 => s.resolveNh i ttl
  | 1 => s.resolveEcmp i hash ttl
  | 2 => s.resolveProt i ttl
  | 3 => s.resolveStop (1, 0)
  | 4 => s.resolveStop (2, i % 256)
  | _ => s.resolveErr

/-- The header whose destination address is looked up: its family, address and TTL (R132). -/
def routeKey (w : List Byte) (hv : List Hdr) (top : Bool) : Option (Nat × Nat × Nat) :=
  ((hdrsIn hv (keyLayer hv top) [4, 5]).head?).map fun h =>
    if h.cls = 4 then (0, wnum w (h.off + 16) 4, wbyte w (h.off + 8)) else (1, wnum w (h.off + 24) 16, wbyte w (h.off + 7))

/-! ## Commands of the NHOP page -/

/-- Whether an entry may be written (R148). -/
def nhDataOk (t e : Nat) : Bool :=
  if t = 1 then decide (1 ≤ bits e 33 13 ∧ bits e 33 13 ≤ 4096 ∧ bits e 46 18 + bits e 33 13 ≤ 262144)
  else if t = 2 then !bit e 31 || decide (e % 2 ^ 18 < 65536)
  else true

/-- What DELETE leaves of an entry: VALID = 0, EN = 0 for WATCH. -/
def nhDeleted (t e : Nat) : Nat :=
  if t = 5 then 0 else clrBit e (if t = 2 then 30 else if t = 4 then 255 else if t = 6 then 7 else 0)

/-- A binding written while its port is not UP clears the watch at once (R150). -/
def State.watchWritten (s : State) (i e clk : Nat) : State :=
  if bit e 7 && s.lkState (e % 64) != lkUp then s.hwClear i (s.at clk) else s

/-- A command of the NHOP page. -/
def State.nhopCmd (s : State) (op addr data clk : Nat) : State × TblAns :=
  let t := bits addr 20 3
  let i := addr % 2 ^ 18
  let n := wordsOf (nhBits t)
  if op ≠ 1 ∧ op ≠ 2 ∧ op ≠ 4 then (s, ans stUnsupported)
  else if nhSize t ≤ i then (s, ans stBadAddr)
  else if op = 1 then
    let (s1, ok) := s.readWords Pg.NHOP 3 t (i * n) n
    if ok then (s1, { st := stOk, data := some (s1.tbl Pg.NHOP t i) }) else (s1.draw, { st := stUncorr, data := some (s1.freeVal 512) })
  else
    let e := if op = 4 then nhDeleted t (s.tbl Pg.NHOP t i) else data % 2 ^ nhBits t
    if op = 2 ∧ !nhDataOk t e then (s, ans stBadData)
    else
      let s1 := s.putEntry Pg.NHOP t i n e
      (if t = 6 then s1.watchWritten i e clk else s1, ans stOk)

/-! ## Egress encapsulation (R153 to R155) -/

/-- An encapsulation miss. -/
def State.encapMiss (s : State) : State := (s.bump Rg.NHOP_ENCAP_ERR_CNT).setInt Pg.NHOP Ib.NHOP_ENCAP_ERR

/-- The entries of a chain from entry `i`, at most four; `none` for a miss (R155). -/
def State.encapChain (s : State) : Nat → Nat → State × Option (List Nat)
  | 0, _ => (s, none)
  | k + 1, i =>
    let (s1, e) := s.nhEnt 4 i
    if !bit e 255 ∨ 2 < bits e 252 3 then (s1, none)
    else if !bit e 109 then (s1, some [e])
    else
      let (s2, l) := State.encapChain s1 k (bits e 92 17)
      (s2, l.map (e :: ·))

/-- The labels of an entry, outermost first: label, TC and TTL field of each, the TTL `none` where it is copied. -/
def encapLabels (tc e : Nat) : List (Nat × Nat × Option Nat) :=
  let one (l : Nat) := (l, if bit e 123 then tc else bits e 120 3, if bit e 119 then some (bits e 111 8) else none)
  ([one (bits e 144 20), one (bits e 124 20)]).take (min 2 (bits e 164 2))

/-- The wire form of the labels: the bottom one carries `bos`. -/
def labelBytes (ttl : Nat) (bos : Bool) : List (Nat × Nat × Option Nat) → List Byte
  | [] => []
  | (l, c, t) :: r =>
    beBytes 4 (l * 2 ^ 12 + c % 8 * 2 ^ 9 + b2n (bos && r.isEmpty) * 2 ^ 8 + (t.getD ttl) % 256) ++ labelBytes ttl bos r

/-- A VLAN tag of an encapsulation entry: its valid bit, TPID_SEL and VID. -/
def State.encapTag (s : State) (v : Bool) (sel vid : Nat) : List Byte :=
  if !v then [] else
  let r := s.rd (if sel < 2 then Rg.NHOP_TPID01 else Rg.NHOP_TPID23)
  beBytes 2 (bits r (16 * (sel % 2)) 16) ++ beBytes 2 vid

/-- A byte string with `n` bytes at `i` replaced. -/
def splice (b : List Byte) (i : Nat) (x : List Byte) : List Byte := b.take i ++ x ++ b.drop (i + x.length)

/-- The TTL or hop limit of the IP header at `off` decremented, an IPv4 checksum updated with it (R154). -/
def decTtl (b : List Byte) (off cls : Nat) : List Byte :=
  if cls = 4 then
    let c := wnum b (off + 10) 2 + 0x100
    splice (splice b (off + 8) (beBytes 1 (wbyte b (off + 8) - 1))) (off + 10) (beBytes 2 (c % 65536 + c / 65536))
  else splice b (off + 7) (beBytes 1 (wbyte b (off + 7) - 1))

/-- What encapsulation makes of a packet: its new bytes, discarded, and the AP program and argument handed on. -/
structure Encap where
  bytes : List Byte
  drop : Bool := false
  prog : Nat := 0
  arg : Nat := 0
deriving DecidableEq, Repr

/-- Headers built from a first entry and its chain (R154). -/
def State.encapBuild (s : State) (b : List Byte) (hv : List Hdr) (tc e : Nat) (chain : List Nat) : State × Encap :=
  let prog := bits e 84 8
  let arg := bits e 60 24
  let l2 := hv.takeWhile fun h => h.layer == 0 && (h.cls == 1 || h.cls == 2)
  let rest := hv.drop l2.length
  let cut := match l2.getLast? with
    | some h => h.off + h.len
    | none => 0
  let ip := rest.find? fun h => h.cls == 4 || h.cls == 5
  let ttlOf (h : Hdr) (x : List Byte) : Nat := wbyte x (h.off + (if h.cls = 4 then 8 else 7))
  let dec := bit e 110
  let dead := match ip with
    | some h => dec && decide (ttlOf h b ≤ 1)
    | none => false
  if dead then (s.bump Rg.NHOP_TTL_CNT, { bytes := b, drop := true }) else
  let b1 := match ip with
    | some h => if dec then decTtl b h.off h.cls else b
    | none => b
  let mpls := match rest.head? with
    | some h => h.cls == 3
    | none => false
  -- a TTL that nothing gives, and an EtherType where no header was removed, are free values
  let ttl := match rest.head?, ip with
    | some h, some p => if h.cls = 3 then wbyte b1 (h.off + 3) else ttlOf p b1
    | some h, none => if h.cls = 3 then wbyte b1 (h.off + 3) else s.freeVal 8
    | none, _ => s.freeVal 8
  let ety := match l2.getLast? with
    | some h => wnum b1 (h.off + (if h.cls = 1 then 12 else 2)) 2
    | none => s.draw.freeVal 16
  let labels := if bits e 252 3 = 1 then (e :: chain).flatMap (encapLabels tc) else []
  let (s1, sa) := s.nhEnt 5 (bits e 196 8)
  let saBad := s.badWord Pg.NHOP 5 (bits e 196 8)
  if saBad then (s1.encapMiss, { bytes := b, drop := true }) else
  let head := beBytes 6 (bits e 204 48) ++ beBytes 6 sa ++ s.encapTag (bit e 195) (bits e 193 2) (bits e 181 12) ++
    s.encapTag (bit e 180) (bits e 178 2) (bits e 166 12) ++ beBytes 2 (if labels = [] then ety else 0x8847) ++
    labelBytes ttl (!mpls) labels
  (s1.draw.draw, { bytes := head ++ b1.drop cut, prog := prog, arg := arg })

/-- Egress encapsulation of a packet by its EGRESS_HINT (R153). -/
def State.encap (s : State) (b : List Byte) (hv : List Hdr) (tc hint : Nat) : State × Encap :=
  let kind := bits hint 20 3
  if kind = 0 then (s, { bytes := b })
  else if kind = 2 then (s, { bytes := b, arg := hint % 2 ^ 20 })
  else if kind ≠ 1 then (s.encapMiss, { bytes := b, drop := true })
  else
    match s.encapChain 4 (hint % 2 ^ 17) with
    | (s1, some (e :: chain)) =>
      if bits e 252 3 = 2 then (s1, { bytes := b, prog := bits e 84 8, arg := bits e 60 24 })
      else s1.encapBuild b hv tc e chain
    | (s1, _) => (s1.encapMiss, { bytes := b, drop := true })

end Sys2Proof.Machine
end

