-- ==== Sys2Proof/Machine/SliceEntry.lean ====
section
/-! DEFINITION. What a slice does with a packet (R94, R114, R131, R132, R138, R155, R168, R182, R183): entry, the fixed pipeline,
dispatch to the AP cluster, and handoff. -/
namespace Sys2Proof.Machine

/-! ## Dispatch -/

/-- The cluster of a slice (R11). -/
abbrev clusterOf (d i : Nat) : Nat := 9 * d + i

/-- A packet of a slice replaced: the one with the same entry count. -/
def State.putPkt (s : State) (d i : Nat) (k : Pkt) : State :=
  let x := s.slice d i
  s.setSlice d i { x with inside := x.inside.map fun y => if y.entry = k.entry then k else y }

/-- The program-table entry of a copy of a cluster, not VALID where its word is lost (R203, R305). -/
def State.progEntry (s : State) (c copy n : Nat) : State × Nat :=
  let r := s.readWord (Pg.APC c) 4 (32 + copy) n
  (r.1, if r.2 then s.tbl (Pg.APC c) (4 + copy) n else 0)

/-- PREV_BUSY brought up to the contexts that run (R204). -/
def State.prevBusy (s : State) (c : Nat) : State :=
  s.setF (Rg.APC_VER_STAT c) Fd.APC_VER_STAT_PREV_BUSY
    (b2n (s.apCtx.any fun e => e.1 / 1024 == c && e.2.live && e.2.prev))

/-- The context of a packet offered at slice clock count `n` (R183). -/
def dispatchTo (c n : Nat) : ApId := ⟨c, n % 16, n / 16 % 15, some (n / 240 % 4)⟩

/-- A packet offered to program `prog` at slice clock count `at'`: bypass, a missing program, or a context (R182, R183, R187). -/
def State.offer (s : State) (d i : Nat) (k : Pkt) (prog copy at' : Nat) : State :=
  let c := clusterOf d i
  if prog = 0 then s.putPkt d i { k with ready := true } else
  let (s1, e) := s.progEntry c copy prog
  if !bit e 63 then (s1.bump (Rg.APC_NOPROG_CNT c)).putPkt d i { k with ready := true, v := { k.v with fwd := 1 } }
  else
    let id := dispatchTo c at'
    let w := window k.bytes
    let x : ApCtx := {
      live := true, pc := bits e 39 13, prog := prog, prev := copy == 2, since := at',
      iBound := bits e 8 8, dBound := bits e 16 10, flen := k.bytes.length,
      len := if d = 0 then k.md.len else k.em.len,
      buf := w.zipIdx.foldl (fun m b => sset 0 m (b.2 + 128) b.1) [] }
    let s2 := ((s1.putPkt d i k).endCtx id).setCtx id x
    ((s2.postEvent id 13).bump64 (Rg.APC_DISPATCH_CNT_LO c)).prevBusy c

/-! ## Ingress -/

/-- The source-address check of a packet (R168): the decision that joins the merge at clock 336. -/
def State.saCheck (s : State) (i : Nat) (k : Pkt) (p : Parsed) (c : Cls) : State × Fwd :=
  let a := Rg.LEARN_PORT_CFG k.md.lport
  let eth := p.hv.find? fun h => h.layer == 0 && h.cls == 1
  let w := window k.bytes
  let sa := wnum w ((eth.map (·.off)).getD 0 + 6) 6
  if !s.fb a Fd.LEARN_PORT_CFG_SA_CHECK || eth.isNone || bit sa 40 || c.fwd.1 == 1 then (s, (0, 0)) else
  let t := s.f a Fd.LEARN_PORT_CFG_TABLE
  let sport := s.f a Fd.LEARN_PORT_CFG_SPORT
  let cfg := s.exm t
  let key := c.vrf * 2 ^ 48 + sa
  let s1 := if cfg.en then s.exmTouch cfg key else s
  let hit := (if cfg.en then s.exmFind cfg rkCur key else none).map (s.exmEnt cfg)
  let news := match hit with
    | none => true
    | some e => l2Sport e != sport || l2Age e != s.ageCur
  let s2 := if s1.fb a Fd.LEARN_PORT_CFG_LEARN_EN && news then s1.learnPut i t c.vrf sa sport else s1
  let conflict := match hit with
    | some e => (l2Static e || l2Frozen e) && l2Sport e != sport
    | none => false
  let act := s.f a Fd.LEARN_PORT_CFG_CONFLICT_ACTION
  let code := s.f Rg.LEARN_CFG Fd.LEARN_CFG_SA_PUNT_CODE
  (s2, if !conflict || act = 0 then (0, 0) else if act = 2 && code ≠ 0 then (2, code) else (1, 0))

/-- What route lookup and resolution give a packet (R132, R137, R144, R147). -/
structure Routed where
  fwd : Fwd := (0, 0)
  wanted : Bool := false
  ans : TerrAns := {}
  nh : Option (Nat × Nat) := none
deriving DecidableEq, Repr

/-- A decision of TERR_CTL: 0 DROP, 1 PUNT with its code. -/
def terrAct (act code : Nat) : Fwd := if act = 1 then (2, code) else (1, 0)

/-- Route lookup and resolution of an ingress packet. -/
def State.routePkt (s : State) (old : Bool) (rank : Nat) (k : Pkt) (p : Parsed) (c : Cls) : State × Routed :=
  let a := Rg.TERR_CTL_PORT k.md.lport
  if c.fwd.1 = 1 ∨ !s.fb a Fd.TERR_CTL_PORT_EN then (s, {}) else
  match routeKey (window k.bytes) p.hv (s.fb a Fd.TERR_CTL_PORT_LAYER) with
  | none => (s, {})
  | some (fam, addr, ttl) =>
    let (s1, t) := s.terrLookup old rank fam c.vrf addr
    if t.parity then
      (s1, { fwd := terrAct (s.f Rg.TERR_CTL_CFG Fd.TERR_CTL_CFG_PARITY_ACTION) (s.f Rg.TERR_CTL_CFG Fd.TERR_CTL_CFG_PARITY_PUNT_CODE),
             wanted := true, ans := t })
    else match t.res with
    | none =>
      (s1.bump Rg.TERR_MISS_CNT,
        { fwd := terrAct (s.f Rg.TERR_CTL_CFG Fd.TERR_CTL_CFG_MISS_ACTION) (s.f Rg.TERR_CTL_CFG Fd.TERR_CTL_CFG_MISS_PUNT_CODE),
          wanted := true, ans := t })
    | some res =>
      let (s2, r) := s1.resolve res k.md.hash ttl
      (s2, { fwd := r.fwd, wanted := true, ans := t, nh := r.nh })

/-- The metadata and pipeline results of a packet after clock 336. -/
def pipeline (k : Pkt) (p : Parsed) (c : Cls) (r : Routed) (f : Fwd) : Pkt :=
  let nh := (r.nh.map (·.2)).getD 0
  let tc := if r.nh.isSome ∧ bit nh 10 then bits nh 11 3 else c.tc
  let res := r.ans.res.getD 0
  { k with
    md := { k.md with
      dest := bits nh 45 17, tc := tc, color := c.color, policer := c.pol, policeEn := c.polEn,
      punt := if f.1 = 2 then f.2 else 0, flowCtr := c.fc, flowCtrEn := c.fcEn, mirror := c.mir, mirrorEn := c.mirEn,
      sample := c.sample, cutOk := k.md.cutOk, hint := bits nh 22 23 }
    v := { hv := p.hv, exc := p.exc, frag := p.frag, fwd := f.1, punt := f.2, vrf := c.vrf, cls := c.cls, feats := c.feats,
           apFlags := c.apf, routeFlags := bits res 24 5, nhFlags := bits nh 1 8,
           route := if r.ans.res.isSome then 2 ^ 63 + r.ans.len % 256 * 2 ^ 40 + res else 0,
           nh := nh, hasDest := r.nh.isSome, wantRoute := r.wanted, routed := r.ans.res.isSome } }

/-- The lowest set bit of FEATURES (R182). -/
def lowFeature (f : Nat) : Option Nat := (List.range 16).find? (bit f)

/-- A slice takes the oldest packet of its pool and runs its pipeline on it (R114, R138, R168, R182). `clk` is the clock of
entry; `upset` a soft error that the route lookup meets (bank, row, pattern), `aclUpset` an ACL row that fails parity, `buf` an error that reading
the frame from the steering buffer meets: uncorrectable, it makes the frame's tail bad (R305, class 5). -/
def State.sliceEntry (s : State) (i clk : Nat) (upset : Option (Nat × Nat × Nat)) (aclUpset : Option Nat)
    (buf : Option MemErr) : State :=
  if !s.isSlice 0 i || !s.pageOn (Pg.SLICE 0 i / 0x1000) || s.role 0 i == rlFenced then s else
  let x := s.slice 0 i
  match x.pool.dropWhile (·.isNone) with
  | some k0 :: rest =>
    let entry := 2048 * s.tk.count + clk
    if x.inside.any (fun y => decide (entry ≤ y.entry)) then s else
    let s0 := match upset with
      | some (b, r, m) => s.terrUpset b r m
      | none => s
    let s1 := (s0.setSlice 0 i { x with pool := rest }).poolTouch 0 i
    let g := k0.md.lport / 8
    let rb := s1.dataErr (Pg.SBUF g) 5 buf
    let s1 := rb.1.bumpIf (!rb.2) (Rg.SBUF_UNCORR_CNT g)
    let k := { k0 with entry := entry, bad := k0.bad || !rb.2 }
    let s2 := s1.setSlice 0 i { s1.slice 0 i with inside := (s1.slice 0 i).inside ++ [k] }
    let old := s2.usesPrev k.gen
    let rank := s2.pktRank k.gen
    let (s3, p) := s2.parse old k.bytes (s2.vf old (Rg.PARSE_START k.md.lport) Fd.PARSE_START_IN_START)
    let s4 := s3.setIntIf (decide (1 ≤ (s3.excAct old p.exc).1)) Pg.PARSE Ib.PARSE_EXC_DROP
    let (s5, c) := s4.classify old rank k p aclUpset
    let s6 := s5.classCount c
    let (s7, r) := s6.routePkt old rank k p c
    let (s8, sa) := s7.saCheck i k p c
    let k1 := pipeline k p c r (mergeFwd (mergeFwd c.fwd r.fwd) sa)
    match lowFeature c.feats with
    | none => s8.putPkt 0 i { k1 with ready := true }
    | some f =>
      s8.offer 0 i k1 (s8.vf old (Rg.APC_DISPATCH (clusterOf 0 i) f) Fd.APC_DISPATCH_PROG) (copyOf old) (entry + 336)
  | _ => s

/-- SLICE_ENTRY (R114). -/
def execSliceEntry (slice clk : Nat) (upset : Option (Nat × Nat × Nat)) (aclUpset : Option Nat) (buf : Option MemErr) (s : State) : Out :=
  .next (s.sliceEntry slice clk upset aclUpset buf)

/-! ## Egress -/

/-- The egress ACL search of a packet: whether it is discarded, and its AP_FLAGS (R131). -/
def State.egressAcl (s : State) (k : Pkt) (p : Parsed) : State × Bool × Nat :=
  let pc := Rg.ACL_PORT_CFG k.em.lport
  if !s.fb pc Fd.ACL_PORT_CFG_EG_EN then (s, false, 0) else
  let src : KeySrc := ⟨window k.bytes, p.hv, p.frag, p.exc, k.em.lport, 0, 0, none⟩
  let (s1, r) := s.aclRun false rkCur (s.f pc Fd.ACL_PORT_CFG_EG_PROF) src
  let deny := bits r 94 2 != 0
  (s1.bumpIf deny Rg.ACL_DENY_EG_CNT, deny, bits r 19 8)

/-- An egress slice takes the oldest packet of its pool: parse, egress ACL, encapsulation, dispatch (R131, R155, R182). -/
def State.egressEntry (s : State) (i clk : Nat) : State :=
  if !s.isSlice 1 i || !s.pageOn (Pg.SLICE 1 i / 0x1000) || s.role 1 i == rlFenced then s else
  let x := s.slice 1 i
  match x.pool.dropWhile (·.isNone) with
  | some k0 :: rest =>
    let entry := 2048 * s.tk.count + clk
    if x.inside.any (fun y => decide (entry ≤ y.entry)) then s else
    let s1 := (s.setSlice 1 i { x with pool := rest, inside := x.inside ++ [{ k0 with entry := entry }] }).poolTouch 1 i
    let k := { k0 with entry := entry }
    let (s2, p) := s1.parse false k.bytes (s1.f (Rg.PARSE_START k.em.lport) Fd.PARSE_START_EG_START)
    let excDrop := decide (1 ≤ (s2.excAct false p.exc).1)
    let s3 := s2.setIntIf excDrop Pg.PARSE Ib.PARSE_EXC_DROP
    let (s4, deny, flags) := s3.egressAcl k p
    let v : Verd := { hv := p.hv, exc := p.exc, frag := p.frag, apFlags := flags }
    if excDrop || deny then s4.putPkt 1 i { k with ready := true, v := { v with fwd := 1 } } else
    let (s5, e) := s4.encap k.bytes p.hv k.em.tc k.em.hint
    if e.drop then s5.putPkt 1 i { k with ready := true, v := { v with fwd := 1 } } else
    let prog := if bits k.em.hint 20 3 = 2 then s5.f (Rg.APC_EG_CFG (clusterOf 1 i)) Fd.APC_EG_CFG_HINT_PROG else e.prog
    let len := k.em.len + e.bytes.length - k.bytes.length
    s5.offer 1 i { k with bytes := e.bytes, em := { k.em with len := len }, v := { v with egArg := e.arg } } prog 1 (entry + 96)
  | _ => s

/-- EGRESS_SLICE_ENTRY (R155). -/
def execEgressSliceEntry (slice clk : Nat) (s : State) : Out := .next (s.egressEntry slice clk)

/-! ## Handoff -/

/-- The oldest packet inside a slice leaves it when its work has ended: a dropped one is discarded at the slice, an ingress
packet with neither route result nor AP decision as a route miss (R30, R94, R123, R132). `tailPending`: an ingress frame whose last
segment has not left the MAC, which carries PKT_LEN = 0 (R209). -/
def State.handoff (s : State) (d i : Nat) (tailPending : Bool) : State :=
  if !s.isSlice d i then s else
  let x := s.slice d i
  match x.inside with
  | [] => s
  | k :: rest =>
    if !k.ready then s else
    let s1 := s.setSlice d i { x with inside := rest }
    let s2 := if d = 0 then s1.freeBuf k else s1
    if k.v.fwd = 1 then s2
    else if d = 0 ∧ k.v.fwd = 0 ∧ !k.v.hasDest then s2.bump Rg.TERR_MISS_CNT
    else
      let s3 := s2.bump64 (Rg.SLICE_PKT_CNT_LO d i)
      if d = 0 then
        { s3 with admQ := s3.admQ ++ [{ pkt := if tailPending then { k with md := { k.md with len := 0 } } else k, lane := i }] }
      else { s3 with macTx := s3.macTx ++ [k] }

/-- SLICE_HANDOFF (R94). -/
def execSliceHandoff (dir slice : Nat) (tailPending : Bool) (s : State) : Out := .next (s.handoff dir slice tailPending)

end Sys2Proof.Machine
end

