-- ==== Sys2Proof/Machine/Ap.lean ====
section
/-! DEFINITION. Action processors (chapter 8, R179 to R205): issue, the instruction set, special registers, tickets, locks,
channels, events, faults and supervisors, debugging, and the tables of page APC. Table 0 of a cluster holds its instructions,
tables 4 to 6 the staged, current and previous program table. -/
namespace Sys2Proof

/-- Whether the issuer is a packet context. -/
def ApId.packet (i : ApId) : Bool := i.ctx.isSome

/-- Direction and number of the cluster's slice. -/
def ApId.dir (i : ApId) : Nat := if i.cluster < 9 then 0 else 1
def ApId.sl (i : ApId) : Nat := if i.cluster < 9 then i.cluster else i.cluster - 9

end Sys2Proof

namespace Sys2Proof.Machine

/-! ## Decoding (R191, R192) -/

/-- The operations that a word of instruction memory can name. -/
inductive ApOp where
  | add | sub | and | or | xor | shl | shr | sar | mul | cmpeq | cmpltu | cmplt | csum | popc | clz
  | addi | andi | ori | xori | shli | shri | movk | ext | ins | ldh | sth | mfs | mts
  | beq | bne | bltu | bgeu | blt | bge | jal | jr
  | lkpExact | lkpRoute | lookupErr | pktrd | lkt | lock | ulk | cres | cwr | cpub | crd
  | endPkt | drop | punt | lrn | live | hpush | hpop | wlk | wfe | sig | tstart | tstop | crevoke | lrel | brk
  | illegal
deriving DecidableEq, Repr

/-- The ALU functions in the order of fn. -/
def aluOps : List ApOp := [.add, .sub, .and, .or, .xor, .shl, .shr, .sar, .mul, .cmpeq, .cmpltu, .cmplt, .csum, .popc, .clz]

/-- The SYS functions in the order of fn. -/
def sysOps : List ApOp := [.endPkt, .drop, .punt, .lrn, .live, .hpush, .hpop, .wlk, .wfe, .sig, .tstart, .tstop, .crevoke, .lrel, .brk]

/-- The operation of a word. -/
def apOp (w : Nat) : ApOp :=
  match bits w 26 6 with
  | 0x01 => lget .illegal aluOps (bits w 0 11)
  | 0x08 => .addi
  | 0x09 => .andi
  | 0x0A => .ori
  | 0x0B => .xori
  | 0x0C => .shli
  | 0x0D => .shri
  | 0x0E => .movk
  | 0x10 => .ext
  | 0x11 => .ins
  | 0x18 => .ldh
  | 0x19 => .sth
  | 0x1C => .mfs
  | 0x1D => .mts
  | 0x20 => .beq
  | 0x21 => .bne
  | 0x22 => .bltu
  | 0x23 => .bgeu
  | 0x24 => .blt
  | 0x25 => .bge
  | 0x26 => .jal
  | 0x27 => .jr
  | 0x30 => if bits w 5 4 = 0 then .lkpExact else if bits w 5 4 = 1 then .lkpRoute else .lookupErr
  | 0x31 => .pktrd
  | 0x32 => .lkt
  | 0x33 => .lock
  | 0x34 => .ulk
  | 0x35 => .cres
  | 0x36 => .cwr
  | 0x37 => .cpub
  | 0x38 => .crd
  | 0x3F => lget .illegal sysOps (bits w 6 5)
  | _ => .illegal

/-- Register fields of a word. -/
def fRd (w : Nat) : Nat := bits w 21 5
def fRa (w : Nat) : Nat := bits w 16 5
def fRb (w : Nat) : Nat := bits w 11 5
def fImm (w : Nat) : Nat := bits w 0 16
def fTkt (w : Nat) : Nat := bits w 9 2

/-- Fault codes (R200). -/
abbrev ftIllegal : Nat := 0x01
abbrev ftSr : Nat := 0x02
abbrev ftBack : Nat := 0x03
abbrev ftInstr : Nat := 0x04
abbrev ftTime : Nat := 0x05
abbrev ftWindow : Nat := 0x06
abbrev ftTicket : Nat := 0x07
abbrev ftLock : Nat := 0x08
abbrev ftChan : Nat := 0x09
abbrev ftRevoked : Nat := 0x0A
abbrev ftUncorr : Nat := 0x0B
abbrev ftMode : Nat := 0x0C
abbrev ftLookup : Nat := 0x0D

/-- How an instruction ends: the next one follows, a branch, the context or thread has been settled by the meaning, or a fault. -/
inductive ApRes where
  | go (s : State)
  | jump (s : State) (pc : Nat)
  | stay (s : State)
  | fault (s : State) (code : Nat)

/-! ## Registers -/

/-- A general register: g0 reads 0 (R187). -/
def State.gr (s : State) (i : ApId) (n : Nat) : DWord := if n = 0 then 0 else sget 0 (s.ctx i).regs n

/-- A register set with a general register written: writes of g0 are discarded (R187). -/
def ApCtx.setReg (x : ApCtx) (n : Nat) (v : DWord) : ApCtx := if n = 0 then x else { x with regs := sset 0 x.regs n v }

/-- The word of the register file that holds a register: memory 48 + AP, two registers a word. -/
def grWord (i : ApId) (n : Nat) : Nat := (5 * i.thread + i.ctx.getD 4) * 16 + n / 2

/-- A general register written; a write leaves its word clean. -/
def State.setGr (s : State) (i : ApId) (n : Nat) (v : DWord) : State :=
  let s1 := s.setCtx i ((s.ctx i).setReg n v)
  if s.badWord (Pg.APC i.cluster) (48 + i.ap) (grWord i n) then s1.setMark (Pg.APC i.cluster) (48 + i.ap) (grWord i n) {} else s1

/-- The next instruction of a context set. -/
def State.setPc (s : State) (i : ApId) (pc : Nat) : State := s.setCtx i { s.ctx i with pc := pc % 8192 }

/-- The packet a context works on. -/
def State.apPkt (s : State) (i : ApId) : Option Pkt :=
  if !i.packet then none else
  let e := (s.ctx i).since - (if i.dir = 0 then 336 else 96)
  (s.slice i.dir i.sl).inside.find? (·.entry == e)

/-! ## Faults (R199, R200) -/

/-- A fault record. -/
def faultRec (i : ApId) (code pc prog : Nat) : Nat :=
  code * 2 ^ 58 + i.ap * 2 ^ 54 + i.thread * 2 ^ 50 + i.ctx.getD 0 * 2 ^ 48 + pc * 2 ^ 35 + prog * 2 ^ 27

/-- A cause reaches the cluster interrupt, with a record where it has one: the first is captured, and a cause named in
AP_FAULT_SRC is a fault of the slice (R102, R199). -/
def State.clusterIrq (s : State) (c bitNo : Nat) (r : Option Nat) : State :=
  let s1 := match r with
    | some v => if s.rd (Pg.APC c + 0x010) % 8 = 0 then s.wr64 (Rg.APC_FAULT_CAP_LO c) v else s
    | none => s
  let s2 := s1.setInt (Pg.APC c) bitNo
  if bit (s2.f (Rg.APC_CFG c) Fd.APC_CFG_AP_FAULT_SRC) bitNo then
    s2.sliceFault (if c < 9 then 0 else 1) (if c < 9 then c else c - 9) 2
  else s2

/-- A record posted to an AP's supervisor queue of 16, with the FAULT event; a full queue goes to the cluster interrupt. -/
def State.postFault (s : State) (i : ApId) (r : Nat) : State :=
  let q := s.sup i.cluster i.ap
  if 16 ≤ q.faults.length then (s.bump (Rg.APC_SUP_OVF_CNT i.cluster)).clusterIrq i.cluster Ib.APC_SUP_OVERFLOW (some r)
  else (s.setSup i.cluster i.ap { q with faults := q.faults ++ [r] }).postEvent { i with thread := 15 } 14

/-- A context or thread faults. -/
def State.apFault (s : State) (i : ApId) (code : Nat) : State :=
  let x := s.ctx i
  let r := faultRec i code x.pc x.prog
  let c := i.cluster
  if i.packet then
    let s1 := match s.apPkt i with
      | some k => s.putPkt i.dir i.sl { k with ready := true, v := { k.v with fwd := 1 } }
      | none => s
    ((((s1.endCtx i).prevBusy c).bump (Rg.APC_FAULT_DROP_CNT c)).bump (Rg.APC_FAULT_CNT c)).setInt (Pg.APC c) Ib.APC_FAULT
      |>.postFault i r
  else
    let s1 := s.setThr i { s.thr i with st := 4, wfe := none }
    if i.thread = 15 then s1.clusterIrq c Ib.APC_SUP_FAULT (some r)
    else ((s1.bump (Rg.APC_FAULT_CNT c)).setInt (Pg.APC c) Ib.APC_FAULT).postFault i r

/-! ## Special registers (R187) -/

/-- Whether a special register of a context has been written, and its value. -/
def ApCtx.sr (x : ApCtx) (n : Nat) : Option Nat := if sget 0 x.written n = 0 then none else some (sget 0 x.written n - 1)

/-- The width of a special register that a program may write in a direction, 0 where it may not. -/
def srWidth (d n : Nat) : Nat :=
  match n with
  | 0x040 => 17
  | 0x041 => 3
  | 0x042 => 2
  | 0x043 => 20
  | 0x044 => 25
  | 0x045 => 7
  | 0x046 => 1
  | 0x047 => 23
  | 0x048 => 64
  | 0x049 => 16
  | 0x04A => if d = 1 then 24 else 0
  | _ => 0

/-- The value that a packet's writable special register holds before it is written. -/
def srPipe (d n : Nat) (k : Pkt) : Nat :=
  let m := k.md
  match n with
  | 0x040 => m.dest
  | 0x041 => if d = 0 then m.tc else k.em.tc
  | 0x042 => m.color
  | 0x043 => b2n m.policeEn * 2 ^ 19 + m.policer
  | 0x044 => b2n m.flowCtrEn * 2 ^ 24 + m.flowCtr
  | 0x045 => b2n m.sample * 2 ^ 6 + b2n m.mirrorEn * 2 ^ 5 + m.mirror
  | 0x046 => b2n m.cutOk
  | 0x047 => if d = 0 then m.hint else k.em.hint
  | 0x048 => (if d = 0 then m.scratch else k.em.scratch) % 2 ^ 64
  | 0x049 => (if d = 0 then m.scratch else k.em.scratch) / 2 ^ 64
  | _ => k.em.csumOff * 2 ^ 16 + k.em.ptpOff * 2 ^ 8 + k.em.ptpCmd

/-- The special registers that show a packet (0x001 to 0x052 apart from those written). -/
def State.srPkt (s : State) (i : ApId) (n : Nat) (k : Pkt) : Option Nat :=
  let x := s.ctx i
  let d := i.dir
  if 0x020 ≤ n ∧ n ≤ 0x037 then
    match k.v.hv[n - 0x020]? with
    | some h => some (h.off * 2 ^ 10 + h.layer * 2 ^ 8 + h.node)
    | none => some 0
  else if srWidth d n ≠ 0 then some ((x.sr n).getD (srPipe d n k))
  else match n with
    | 0x002 => if d = 0 then some k.v.feats else none
    | 0x003 => some (k.v.routeFlags * 2 ^ 24 + k.v.nhFlags * 2 ^ 16 + k.v.apFlags)
    | 0x004 => some k.md.version
    | 0x005 => some (if d = 0 then k.md.lport else k.em.lport)
    | 0x006 => some (unsigned 64 ((x.len : Int) - x.start))
    | 0x007 => some k.md.hash
    | 0x008 => some (k.v.exc * 2 ^ 7 + k.v.frag * 2 ^ 5 + k.v.hv.length)
    | 0x009 => some (k.v.vrf * 2 ^ 12 + k.v.cls)
    | 0x050 => some k.v.route
    | 0x051 => some k.v.nh
    | 0x052 => if d = 1 then some k.v.egArg else none
    | _ => none

/-- A special register read, its effect included: what a number gives that the spec lists nothing for in this context is a
free value. -/
def State.srRead (s : State) (i : ApId) (n clk : Nat) : State × DWord :=
  let w (v : Nat) : State × DWord := (s, BitVec.ofNat 64 v)
  let q := s.sup i.cluster i.ap
  let free : State × DWord := (s.draw, BitVec.ofNat 64 (s.freeVal 64))
  if n = 0x000 then w (i.ap * 64 + i.thread * 4 + i.ctx.getD 0)
  else if n = 0x001 then w (s.ctx i).prog
  else if n = 0x060 then w s.tickCount
  else if n = 0x061 then w clk
  else if n = 0x062 then w ((s.tod (s.at clk)).2 / 2 ^ 32)
  else if n = 0x063 then w (s.thr { i with ctx := none }).watch
  else if 0x080 ≤ n ∧ n ≤ 0x085 then
    if i.thread ≠ 15 then free
    else if n = 0x080 then
      (match q.faults with
       | [] => w 0
       | r :: l => (s.setSup i.cluster i.ap { q with faults := l }, BitVec.ofNat 64 r))
    else if n = 0x085 then w q.staleReg
    else w (sget 0 q.timers (n - 0x081) - 1 - s.tk.count)
  else match (s.apPkt i).bind (s.srPkt i n) with
    | some v => w v
    | none => free

/-- A special register written, `none` where it is not writable (SR_ACCESS). A timer is kept as the tick after the one at which
it expires. -/
def State.srWrite (s : State) (i : ApId) (n : Nat) (v : DWord) : Option State :=
  let x := s.ctx i
  let q := s.sup i.cluster i.ap
  if n = 0x063 then
    let j : ApId := { i with ctx := none }
    some (s.setThr j { s.thr j with watch := v.toNat })
  else if 0x081 ≤ n ∧ n ≤ 0x084 then
    if i.thread ≠ 15 then none else
    let t := v.toNat % 2 ^ 32
    some (s.setSup i.cluster i.ap { q with timers := sset 0 q.timers (n - 0x081) (if t = 0 then 0 else s.tk.count + t + 1) })
  else if srWidth i.dir n = 0 then none
  else some (s.setCtx i { x with written := sset 0 x.written n (v.toNat % 2 ^ srWidth i.dir n + 1) })

/-! ## Ending a context (R188, R189, R195) -/

/-- The bytes handed off: from the window start to the end of the window, then the rest of the frame (R189). -/
def ApCtx.frame (x : ApCtx) (bytes : List Byte) : List Byte :=
  let top : Int := min 256 x.flen
  (List.range (top - x.start).toNat).map (fun j => sget 0 x.buf (x.start + j + 128).toNat) ++ bytes.drop 256

/-- The metadata of an ingress packet with what its program wrote. -/
def ApCtx.ingress (x : ApCtx) (m : Meta) : Meta :=
  let g (n d : Nat) : Nat := (x.sr n).getD d
  let pol := g 0x043 (b2n m.policeEn * 2 ^ 19 + m.policer)
  let fc := g 0x044 (b2n m.flowCtrEn * 2 ^ 24 + m.flowCtr)
  let mi := g 0x045 (b2n m.sample * 2 ^ 6 + b2n m.mirrorEn * 2 ^ 5 + m.mirror)
  { m with
    dest := g 0x040 m.dest, tc := g 0x041 m.tc, color := g 0x042 m.color
    policer := pol % 2 ^ 19, policeEn := bit pol 19
    flowCtr := fc % 2 ^ 24, flowCtrEn := bit fc 24
    mirror := mi % 32, mirrorEn := bit mi 5, sample := bit mi 6
    cutOk := g 0x046 (b2n m.cutOk) == 1, hint := g 0x047 m.hint
    scratch := g 0x048 (m.scratch % 2 ^ 64) + 2 ^ 64 * g 0x049 (m.scratch / 2 ^ 64)
    len := ((m.len : Int) - x.start).toNat }

/-- The metadata of an egress packet with what its program wrote. -/
def ApCtx.egress (x : ApCtx) (m : EgMeta) : EgMeta :=
  let g (n d : Nat) : Nat := (x.sr n).getD d
  let p := g 0x04A (m.csumOff * 2 ^ 16 + m.ptpOff * 2 ^ 8 + m.ptpCmd)
  { m with
    tc := g 0x041 m.tc, hint := g 0x047 m.hint
    scratch := g 0x048 (m.scratch % 2 ^ 64) + 2 ^ 64 * g 0x049 (m.scratch / 2 ^ 64)
    csumOff := bits p 16 8, ptpOff := bits p 8 8, ptpCmd := bits p 0 3
    len := ((m.len : Int) - x.start).toNat }

/-- A packet as its program leaves it at END or PUNT. -/
def ApCtx.finish (x : ApCtx) (d : Nat) (k : Pkt) : Pkt :=
  { k with
    bytes := x.frame k.bytes, ready := true
    md := if d = 0 then x.ingress k.md else k.md
    em := if d = 1 then x.egress k.em else k.em
    v := { k.v with hasDest := k.v.hasDest || (x.sr 0x040).isSome } }

/-- The issuer's program ends: a packet context with its packet changed by `f`, a service or supervisor thread in IDLE. -/
def State.apEnd (s : State) (i : ApId) (f : Pkt → Pkt) : State :=
  if i.packet then
    let s1 := match s.apPkt i with
      | some k => s.putPkt i.dir i.sl (f k)
      | none => s
    (s1.endCtx i).prevBusy i.cluster
  else s.setThr i { s.thr i with st := 0, wfe := none }

/-- A packet discarded by its program. -/
def dropPkt (k : Pkt) : Pkt := { k with ready := true, v := { k.v with fwd := 1 } }

/-- A packet punted by its program: a DROP decision is final, and at egress a punt is a drop (R123, R131). -/
def puntPkt (x : ApCtx) (d code : Nat) (k : Pkt) : Pkt :=
  if k.v.fwd = 1 ∨ d = 1 then dropPkt k else
  let k' := x.finish d k
  { k' with md := { k'.md with punt := code }, v := { k'.v with fwd := 2, punt := code } }

/-! ## The packet buffer (R189) -/

/-- The position of byte `j` of an access at window offset `off`. -/
def ApCtx.pos (x : ApCtx) (off : Int) (j : Nat) : Int := x.start + off + j

/-- Whether `n` bytes at a window offset lie in the buffer, and for a store before the frame's end. -/
def ApCtx.inWindow (x : ApCtx) (off : Int) (n : Nat) (store : Bool) : Bool :=
  decide (-128 ≤ x.pos off 0 ∧ x.pos off n ≤ 256) && (!store || decide (x.pos off n ≤ x.flen))

/-- A load: bytes beyond the frame's end read 0. -/
def ApCtx.load (x : ApCtx) (off : Int) (n : Nat) : Nat :=
  (List.range n).foldl (fun a j =>
    let p := x.pos off j
    a * 256 + (if p < x.flen then (sget 0 x.buf (p + 128).toNat).toNat else 0)) 0

/-- A store. -/
def ApCtx.store (x : ApCtx) (off : Int) (n v : Nat) : ApCtx :=
  { x with buf := ((beBytes n v).zipIdx).foldl (fun m b => sset 0 m (x.pos off b.2 + 128).toNat b.1) x.buf }

/-- The window start moved; the bytes that HPUSH makes are zero. -/
def ApCtx.shift (x : ApCtx) (n : Nat) (push : Bool) : Option ApCtx :=
  let st : Int := if push then x.start - n else x.start + n
  if st < -128 ∨ 255 < st then none
  else some { x with
    start := st
    buf := if push then (List.range n).foldl (fun m j => sset 0 m (st + j + 128).toNat 0) x.buf else x.buf }

/-! ## Tickets (R193) -/

/-- Whether a ticket is busy. -/
def ApCtx.busy (x : ApCtx) (t : Nat) : Bool := shas x.tickets t

/-- An asynchronous operation issued on the ticket of its word, or TICKET_BUSY. -/
def State.issueTkt (s : State) (i : ApId) (t : Nat) (k : Ticket) : ApRes :=
  let x := s.ctx i
  if x.busy t then .fault s ftTicket else .go (s.setCtx i { x with tickets := sins x.tickets t k })

/-- A ticket's result written and the ticket freed; a queued LOCK completes only when granted. TICKET events go to supervisor
and service threads. -/
def State.ticketComplete (s : State) (i : ApId) (t : Nat) : State :=
  let x := s.ctx i
  match x.tickets.find? (·.1 == t) with
  | none => s
  | some (_, k) =>
    if k.lock.isSome then s else
    let s1 := s.setCtx i { k.writes.foldl (fun y w => y.setReg w.1 w.2) x with tickets := sdel x.tickets t }
    if i.packet then s1 else s1.postEvent i t

/-- TICKET_COMPLETE (R193). -/
def execTicketComplete (i : ApId) (ticket : Nat) (s : State) : Out := .next (s.ticketComplete i (ticket % 4))

/-- A deep lookup unanswered after 400 clocks: a miss with LATE set (R161); the result registers of a miss are free values. -/
def State.deepLate (s : State) (i : ApId) (t : Nat) : State :=
  let x := s.ctx i
  match x.tickets.find? (·.1 == t) with
  | some (_, k) =>
    (match k.deep with
     | none => s
     | some rd =>
       let w := (rd, (2 : DWord)) :: (k.writes.filter (·.1 ≠ rd)).map fun e => (e.1, BitVec.ofNat 64 (Config.freeValue (s.free + e.1)))
       let s1 := s.setCtx i { x with tickets := sins (sdel x.tickets t) t { k with writes := w, deep := none } }
       ({ s1 with free := s.free + 32 }.bump Rg.EXM_DEEP_LATE_CNT).setInt Pg.EXM Ib.EXM_DEEP_LATE)
  | none => s

/-- DEEP_LOOKUP_LATE (R161). -/
def execDeepLookupLate (i : ApId) (ticket : Nat) (s : State) : Out := .next (s.deepLate i (ticket % 4))

/-- `n` free values for registers from `r`. -/
def State.freeRegs (s : State) (r n : Nat) : State × List (Nat × DWord) :=
  ({ s with free := s.free + n }, (List.range n).map fun j => (r + j, BitVec.ofNat 64 (Config.freeValue (s.free + j))))

/-- A value dealt to `n` registers from `r`, its low 64 bits first. -/
def dealRegs (r n v : Nat) : List (Nat × DWord) := (List.range n).map fun j => (r + j, BitVec.ofNat 64 (v / 2 ^ (64 * j)))

/-- The packet's table version for lookups: packet contexts of ingress slices use the packet's, all others the current one. -/
def State.apOld (s : State) (i : ApId) : Bool :=
  i.dir == 0 && (match s.apPkt i with
    | some k => s.usesPrev k.gen
    | none => false)

/-- LKP of kind 0 (R193). -/
def State.lkpExact (s : State) (i : ApId) (w : Nat) : ApRes :=
  let rd := fRd w
  let ra := fRa w
  if 27 < rd ∨ ra = 31 then .fault s ftChan else
  if (s.ctx i).busy (fTkt w) then .fault s ftTicket else
  let c := s.exm (w % 32)
  let k128 := (s.gr i ra).toNat * 2 ^ 64 + (s.gr i (ra + 1)).toNat
  let key := k128 / 2 ^ (128 - c.keyBits)
  let rank := if s.apOld i then rkPrev else rkCur
  let bad := (c.candidates key).any (s.exmBad c)
  let s1 := s.exmTouch c key
  let deep := if c.deep then some rd else none
  match s.exmFind c rank key with
  | none =>
    let (s2, ws) := s1.freeRegs (rd + 1) 4
    s2.issueTkt i (fTkt w) { writes := (rd, BitVec.ofNat 64 (b2n bad * 4)) :: ws, deep := deep }
  | some x =>
    let e := s.exmEnt c x
    let res := if c.typ = 2 then bits e 64 64 else c.result e
    s1.issueTkt i (fTkt w) { writes := (rd, BitVec.ofNat 64 (b2n bad * 4 + 1)) :: dealRegs (rd + 1) 4 res, deep := deep }

/-- LKP of kind 1 (R193). -/
def State.lkpRoute (s : State) (i : ApId) (w : Nat) : ApRes :=
  let rd := fRd w
  let a := (s.gr i (fRa w)).toNat
  let fam := bits a 16 1
  let rb := fRb w
  if 30 < rd ∨ (fam = 1 ∧ rb = 31) then .fault s ftChan else
  if (s.ctx i).busy (fTkt w) then .fault s ftTicket else
  let addr := if fam = 0 then (s.gr i rb).toNat % 2 ^ 32 else (s.gr i rb).toNat * 2 ^ 64 + (s.gr i (rb + 1)).toNat
  let old := s.apOld i
  let (s1, t) := s.terrLookup old (if old then rkPrev else rkCur) fam (a % 2 ^ 16) addr
  match t.res with
  | none =>
    let (s2, ws) := s1.freeRegs (rd + 1) 1
    let v := (s2.freeVal 64) &&& (0xFF * 2 ^ 40 + 0xFFFFFFFF)
    s2.draw.issueTkt i (fTkt w) { writes := (rd, BitVec.ofNat 64 v) :: ws }
  | some res =>
    let hash := match s1.apPkt i with
      | some k => k.md.hash
      | none => s1.freeVal 16
    let (s2, r) := s1.draw.resolve res hash 255
    let nh := (r.nh.map (·.2)).getD 0
    s2.issueTkt i (fTkt w) { writes := [(rd, BitVec.ofNat 64 (2 ^ 63 + t.len % 256 * 2 ^ 40 + res)), (rd + 1, BitVec.ofNat 64 nh)] }

/-- PKTRD (R190). -/
def State.pktrd (s : State) (i : ApId) (w : Nat) : ApRes :=
  let rd := fRd w
  if 24 < rd then .fault s ftChan else
  match s.apPkt i with
  | none =>
    let (s1, ws) := s.freeRegs rd 8
    s1.issueTkt i (fTkt w) { writes := ws }
  | some k =>
    let off := (s.gr i (fRa w)).toNat % 1024
    let reg (j : Nat) : DWord :=
      BitVec.ofNat 64 ((List.range 8).foldl (fun a n => a * 256 + (lget 0 k.orig (off + 8 * j + n)).toNat) 0)
    s.issueTkt i (fTkt w) { writes := (List.range 8).map fun j => (rd + j, reg j) }

/-! ## Locks (R197) -/

/-- Locks that a holder holds. -/
def State.locksOf (s : State) (i : ApId) : List Nat :=
  ((s.locks.filter fun e => e.1 / 256 == i.cluster && e.2.holder == some i).map fun e => e.1 % 256)

/-- Whether a request for a lock faults: held by the requester or waited for already, or a fifth. -/
def State.lockErr (s : State) (i : ApId) (l : Nat) : Bool :=
  let k := s.lockOf i.cluster l
  k.holder == some i || k.queue.contains i || decide (4 ≤ (s.locksOf i).length)

/-- LKT. -/
def State.apLkt (s : State) (i : ApId) (w : Nat) : ApRes :=
  let l := (s.gr i (fRa w)).toNat % 256
  if (s.ctx i).busy (fTkt w) then .fault s ftTicket
  else if s.lockErr i l then .fault s ftLock
  else
    let k := s.lockOf i.cluster l
    if k.holder.isNone then
      (s.setLock i.cluster l { k with holder := some i }).issueTkt i (fTkt w) { writes := [(fRd w, 1)] }
    else (s.bump (Rg.APC_LOCK_BUSY_CNT i.cluster)).issueTkt i (fTkt w) { writes := [(fRd w, 0)] }

/-- LOCK: granted where the lock is free and nothing waits for it, else queued. -/
def State.apLock (s : State) (i : ApId) (w : Nat) : ApRes :=
  let l := (s.gr i (fRa w)).toNat % 256
  if i.packet then .fault s ftMode
  else if (s.ctx i).busy (fTkt w) then .fault s ftTicket
  else if s.lockErr i l then .fault s ftLock
  else
    let k := s.lockOf i.cluster l
    if k.holder.isNone && k.queue.isEmpty then
      ((s.setLock i.cluster l { k with holder := some i }).postEvent i 4).issueTkt i (fTkt w) { writes := [] }
    else (s.setLock i.cluster l { k with queue := k.queue ++ [i] }).issueTkt i (fTkt w) { writes := [], lock := some l }

/-- A free lock is granted to the request that has waited longest, with the LOCK event. -/
def State.lockGrant (s : State) (c l : Nat) : State :=
  let k := s.lockOf c l
  match k.holder, k.queue with
  | none, i :: r =>
    let s1 := s.setLock c l { holder := some i, queue := r }
    let x := s1.ctx i
    (s1.setCtx i { x with tickets := x.tickets.map fun e => if e.2.lock = some l then (e.1, { e.2 with lock := none }) else e }).postEvent i 4
  | _, _ => s

/-- LOCK_GRANT (R197). -/
def execLockGrant (cluster lock : Nat) (s : State) : Out := .next (s.lockGrant cluster (lock % 256))

/-- ULK. -/
def State.apUlk (s : State) (i : ApId) (w : Nat) : ApRes :=
  let l := (s.gr i (fRa w)).toNat % 256
  let k := s.lockOf i.cluster l
  if (s.ctx i).busy (fTkt w) then .fault s ftTicket
  else if k.holder ≠ some i then .fault s ftLock
  else (s.setLock i.cluster l { k with holder := none }).issueTkt i (fTkt w) { writes := [] }

/-! ## Channels (R198) -/

/-- Whether a cluster is present and powered. -/
def State.clusterOn (s : State) (c : Nat) : Bool := decide (c < 18) && s.pageOn (Pg.APC c / 0x1000)

/-- CRES. The handle's value is not stated: a free value. -/
def State.apCres (s : State) (i : ApId) (w : Nat) : ApRes :=
  let a := (s.gr i (fRa w)).toNat
  let c := if bits a 6 5 = 31 then i.cluster else bits a 6 5
  let ch := a % 64
  let ones : Ticket := { writes := [(fRd w, BitVec.allOnes 64)] }
  if (s.ctx i).busy (fTkt w) then .fault s ftTicket
  else if !s.clusterOn c then s.issueTkt i (fTkt w) ones
  else if 16 ≤ (s.chan c ch).length then (s.bump (Rg.APC_CHAN_FULL_CNT c)).issueTkt i (fTkt w) ones
  else
    let h := s.freeVal 64
    let s1 := s.draw.setChan c ch (s.chan c ch ++ [⟨some h, some i, List.replicate 8 0, 0⟩])
    (s1.setCtx i { s1.ctx i with resv := h :: (s1.ctx i).resv }).issueTkt i (fTkt w) { writes := [(fRd w, BitVec.ofNat 64 h)] }

/-- The slot of a handle that a holder reserved: its channel key and place. -/
def State.slotOf (s : State) (i : ApId) (h : Nat) : Option (Nat × Nat) :=
  s.chans.findSome? fun e => (e.2.findIdx? fun x => x.handle == some h && x.owner == some i).map fun n => (e.1, n)

/-- A slot of a holder's handle changed by `f`, or the fault of R198. -/
def State.onSlot (s : State) (i : ApId) (h : Nat) (f : State → Nat → Nat → ChanSlot → State) : ApRes :=
  if !(s.ctx i).resv.contains h then .fault s ftChan else
  match s.slotOf i h with
  | none => .fault s ftRevoked
  | some (key, n) =>
    match (sget [] s.chans key)[n]? with
    | some x => if x.st = 0 then .go (f s key n x) else .fault s ftRevoked
    | none => .fault s ftRevoked

/-- CWR. -/
def State.apCwr (s : State) (i : ApId) (w : Nat) : ApRes :=
  s.onSlot i (s.gr i (fRa w)).toNat fun t key n x =>
    t.setChan (key / 64) (key % 64) ((sget [] t.chans key).set n { x with words := x.words.set (w % 8) (t.gr i (fRb w)) })

/-- CPUB: the reservation is the holder's no more, and waiting readers see the message. -/
def State.apCpub (s : State) (i : ApId) (w : Nat) : ApRes :=
  let h := (s.gr i (fRa w)).toNat
  s.onSlot i h fun t key n x =>
    let t1 := t.setChan (key / 64) (key % 64) ((sget [] t.chans key).set n { x with st := 1, handle := none, owner := none })
    (t1.setCtx i { t1.ctx i with resv := (t1.ctx i).resv.erase h }).chanEvent (key / 64)

/-- CRD. -/
def State.apCrd (s : State) (i : ApId) (w : Nat) : ApRes :=
  let rd := fRd w
  let c := i.cluster
  let ch := (s.gr i (fRa w)).toNat % 64
  if 23 < rd then .fault s ftChan
  else if (s.ctx i).busy (fTkt w) then .fault s ftTicket
  else match s.chan c ch with
  | x :: l =>
    if x.st = 1 then
      (s.setChan c ch l).issueTkt i (fTkt w)
        { writes := (rd, 1) :: (List.range 8).map fun j => (rd + 1 + j, lget 0 x.words j) }
    else s.issueTkt i (fTkt w) { writes := [(rd, 0)] }
  | [] => s.issueTkt i (fTkt w) { writes := [(rd, 0)] }

/-- A message that the CHANNEL table reserves, fills and publishes in one step. -/
def State.chanWrite (s : State) (c ch data : Nat) : State × TblAns :=
  if 16 ≤ (s.chan c ch).length then (s, ans stFull)
  else
    ((s.setChan c ch (s.chan c ch ++ [⟨none, none, (List.range 8).map fun j => BitVec.ofNat 64 (data / 2 ^ (64 * j)), 1⟩])).chanEvent c,
      ans stOk)

/-! ## The instructions (R192) -/

/-- An ALU function of the values of ra and rb. -/
def aluFn (op : ApOp) (a b : DWord) : DWord :=
  let sh := b.toNat % 64
  match op with
  | .add => a + b
  | .sub => a - b
  | .and => a &&& b
  | .or => a ||| b
  | .xor => a ^^^ b
  | .shl => a <<< sh
  | .shr => a >>> sh
  | .sar => a.sshiftRight sh
  | .mul => a * b
  | .cmpeq => if a = b then 1 else 0
  | .cmpltu => if a.toNat < b.toNat then 1 else 0
  | .cmplt => if a.toInt < b.toInt then 1 else 0
  | .csum =>
    let t := (List.range 4).foldl (fun x j => x + bits a.toNat (16 * j) 16 + bits b.toNat (16 * j) 16) 0
    let f := t % 65536 + t / 65536
    BitVec.ofNat 64 (f % 65536 + f / 65536)
  | .popc => BitVec.ofNat 64 (popcount 64 a.toNat)
  | .clz => BitVec.ofNat 64 (if a = 0 then 64 else 63 - a.toNat.log2)
  | _ => 0

/-- An immediate function of the value of ra. -/
def immFn (op : ApOp) (a : DWord) (imm : Nat) : DWord :=
  match op with
  | .addi => a + BitVec.ofInt 64 (signed 16 imm)
  | .andi => a &&& BitVec.ofNat 64 imm
  | .ori => a ||| BitVec.ofNat 64 imm
  | .xori => a ^^^ BitVec.ofNat 64 imm
  | .shli => a <<< (imm % 64)
  | .shri => a >>> (imm % 64)
  | _ => 0

/-- Whether a branch is taken. -/
def brTaken (op : ApOp) (a b : DWord) : Bool :=
  match op with
  | .beq => a == b
  | .bne => a != b
  | .bltu => decide (a.toNat < b.toNat)
  | .bgeu => decide (b.toNat ≤ a.toNat)
  | .blt => decide (a.toInt < b.toInt)
  | .bge => decide (b.toInt ≤ a.toInt)
  | _ => false

/-- An ALU instruction. -/
def State.apAlu (s : State) (i : ApId) (op : ApOp) (w : Nat) : ApRes :=
  .go (s.setGr i (fRd w) (aluFn op (s.gr i (fRa w)) (s.gr i (fRb w))))

/-- An immediate instruction. -/
def State.apImm (s : State) (i : ApId) (op : ApOp) (w : Nat) : ApRes :=
  .go (s.setGr i (fRd w) (immFn op (s.gr i (fRa w)) (fImm w)))

/-- MOVK: the halfword that the ra field names. -/
def State.apMovk (s : State) (i : ApId) (w : Nat) : ApRes :=
  .go (s.setGr i (fRd w) (BitVec.ofNat 64 (setBits (s.gr i (fRd w)).toNat (16 * (fRa w % 4)) 16 (fImm w))))

/-- EXT. -/
def State.apExt (s : State) (i : ApId) (w : Nat) : ApRes :=
  .go (s.setGr i (fRd w) (BitVec.ofNat 64 (bits (s.gr i (fRa w)).toNat (bits w 10 6) (bits w 4 6 + 1))))

/-- INS: a field passing bit 63 is cut there. -/
def State.apIns (s : State) (i : ApId) (w : Nat) : ApRes :=
  .go (s.setGr i (fRd w) (BitVec.ofNat 64 (setBits (s.gr i (fRd w)).toNat (bits w 10 6) (bits w 4 6 + 1) (s.gr i (fRa w)).toNat)))

/-- The window offset of LDH and STH. -/
def State.hOff (s : State) (i : ApId) (w : Nat) : Int := (s.gr i (fRa w)).toInt + signed 14 (bits w 0 14)

/-- LDH; a supervisor or service thread has no packet buffer, and what it loads is a free value. -/
def State.apLdh (s : State) (i : ApId) (w : Nat) : ApRes :=
  let n := 2 ^ bits w 14 2
  let x := s.ctx i
  if !i.packet then .go (s.draw.setGr i (fRd w) (BitVec.ofNat 64 (s.freeVal (8 * n))))
  else if x.inWindow (s.hOff i w) n false then .go (s.setGr i (fRd w) (BitVec.ofNat 64 (x.load (s.hOff i w) n)))
  else .fault s ftWindow

/-- STH; without a packet buffer nothing is stored. -/
def State.apSth (s : State) (i : ApId) (w : Nat) : ApRes :=
  let n := 2 ^ bits w 14 2
  let x := s.ctx i
  if !i.packet then .go s
  else if x.inWindow (s.hOff i w) n true then .go (s.setCtx i (x.store (s.hOff i w) n (s.gr i (fRd w)).toNat))
  else .fault s ftWindow

/-- MFS. -/
def State.apMfs (s : State) (i : ApId) (w clk : Nat) : ApRes :=
  let r := s.srRead i (w % 1024) clk
  .go (r.1.setGr i (fRd w) r.2)

/-- MTS. -/
def State.apMts (s : State) (i : ApId) (w : Nat) : ApRes :=
  match s.srWrite i (w % 1024) (s.gr i (fRa w)) with
  | some t => .go t
  | none => .fault s ftSr

/-- A conditional branch: in a packet context a taken branch goes forward (R186). -/
def State.apBranch (s : State) (i : ApId) (op : ApOp) (w : Nat) : ApRes :=
  let off := signed 16 (fImm w)
  if !brTaken op (s.gr i (fRd w)) (s.gr i (fRa w)) then .go s
  else if i.packet && decide (off ≤ 0) then .fault s ftBack
  else .jump s (unsigned 13 (((s.ctx i).pc : Int) + off))

/-- JAL. -/
def State.apJal (s : State) (i : ApId) (w : Nat) : ApRes :=
  if i.packet then .fault s ftMode
  else .jump (s.setGr i (fRd w) (BitVec.ofNat 64 ((s.ctx i).pc + 1))) (w % 8192)

/-- JR. -/
def State.apJr (s : State) (i : ApId) (w : Nat) : ApRes :=
  if i.packet then .fault s ftMode else .jump s ((s.gr i (fRa w)).toNat % 8192)

/-- HPUSH and HPOP. -/
def State.apShift (s : State) (i : ApId) (w : Nat) (push : Bool) : ApRes :=
  match (s.ctx i).shift ((s.gr i (fRa w)).toNat % 256) push with
  | some x => .go (s.setCtx i x)
  | none => .fault s ftWindow

/-- WLK: the context is not ready until the tickets of the mask are free. -/
def State.apWlk (s : State) (i : ApId) (w : Nat) : ApRes := .go (s.setCtx i { s.ctx i with wait := w % 16 })

/-- WFE (R196). -/
def State.apWfe (s : State) (i : ApId) (w : Nat) : ApRes :=
  if i.packet then .fault s ftMode else
  let m := (s.gr i (fRa w)).toNat % 2 ^ (if i.thread = 15 then 17 else 14)
  let t := s.thr i
  .stay ((s.setThr i { t with st := 2, wfe := some (m, fRd w), x := { t.x with pc := (t.x.pc + 1) % 8192 } }).wfeCheck i)

/-- SIG. -/
def State.apSig (s : State) (i : ApId) (w : Nat) : ApRes :=
  if i.packet then .fault s ftMode else .go (s.postEvent { i with thread := (s.gr i (fRa w)).toNat % 16 } 6)

/-- A thread that starts at an address; a worker that starts is no longer waiting (R201). -/
def State.startThread (s : State) (i : ApId) (pc : Nat) : State :=
  let t := s.thr i
  let s1 := s.setThr i { t with st := 1, wfe := none, x := { t.x with pc := pc % 8192, wait := 0 } }
  if i.thread = 15 then s1 else s1.setSup i.cluster i.ap { s1.sup i.cluster i.ap with fired := false }

/-- TSTART. -/
def State.apTstart (s : State) (i : ApId) (w : Nat) : ApRes :=
  if i.packet || i.thread != 15 then .fault s ftMode
  else if s.fb (Rg.APC_CTRL i.cluster) Fd.APC_CTRL_DISPATCH_EN then .fault s ftMode
  else
    let n := (s.gr i (fRa w)).toNat % 16
    let pc := (s.gr i (fRb w)).toNat
    if n = 15 then .jump s (pc % 8192) else .go (s.startThread { i with thread := n } pc)

/-- TSTOP. -/
def State.apTstop (s : State) (i : ApId) (w : Nat) : ApRes :=
  if i.packet || i.thread != 15 then .fault s ftMode else
  let j : ApId := { i with thread := (s.gr i (fRa w)).toNat % 16 }
  let s1 := s.setThr j { s.thr j with st := 0, wfe := none }
  if j.thread = 15 then .stay s1 else .go s1

/-- The halted thread of an AP whose stale notice has been given (R202). -/
def State.staleThread (s : State) (i : ApId) (n : Nat) : Bool :=
  let t := s.thr { i with thread := n % 16, ctx := none }
  t.st == 3 && t.stale

/-- CREVOKE: acts on a reservation of a thread of this AP after its stale notice; before that rd = 0. -/
def State.apCrevoke (s : State) (i : ApId) (w : Nat) : ApRes :=
  if i.packet || i.thread != 15 then .fault s ftMode else
  let h := (s.gr i (fRa w)).toNat
  let own := (List.range 15).find? fun n => s.staleThread i n && (s.slotOf { i with thread := n } h).isSome
  match own.bind fun n => s.slotOf { i with thread := n } h with
  | none => .go (s.setGr i (fRd w) 0)
  | some (key, n) =>
    let l := (sget [] s.chans key).zipIdx.map fun e => if e.2 = n ∧ e.1.st = 0 then { e.1 with st := 2 } else e.1
    .go ((s.setChan (key / 64) (key % 64) l).draw.setGr i (fRd w) (BitVec.ofNat 64 (s.freeVal 64)))

/-- LREL: releases the locks of a thread of this AP after its stale notice; before that rd = 0. -/
def State.apLrel (s : State) (i : ApId) (w : Nat) : ApRes :=
  if i.packet || i.thread != 15 then .fault s ftMode else
  let n := (s.gr i (fRa w)).toNat % 16
  if s.staleThread i n then
    .go ((s.releaseAll { i with thread := n }).draw.setGr i (fRd w) (BitVec.ofNat 64 (s.freeVal 64)))
  else .go (s.setGr i (fRd w) 0)

/-- A thread halts. -/
def State.haltThread (s : State) (i : ApId) : State :=
  s.setThr i { s.thr i with st := 3, haltAt := s.tk.count, stale := false }

/-- BRK: a no-operation in a packet context (R202). -/
def State.apBrk (s : State) (i : ApId) : ApRes :=
  if i.packet then .go s else
  .stay (((s.setPc i ((s.ctx i).pc + 1)).haltThread i).setInt (Pg.APC i.cluster) Ib.APC_DBG_HALT)

/-- PUNT: code 0 acts as DROP (R195). -/
def State.apPunt (s : State) (i : ApId) (w : Nat) : ApRes :=
  let code := (s.gr i (fRa w)).toNat % 256
  let s1 := s.bump (Rg.APC_PUNT_CNT i.cluster)
  if code = 0 then .stay ((s1.bump (Rg.APC_AP_DROP_CNT i.cluster)).apEnd i dropPkt)
  else .stay (s1.apEnd i (puntPkt (s.ctx i) i.dir code))

/-- LIVE (R150, R194). -/
def State.apLive (s : State) (i : ApId) (w clk : Nat) : ApRes :=
  let n := (s.gr i (fRa w)).toNat % 4096
  .go (if bit w 0 then s.liveSet n (s.at clk) else s.setLive n false)

/-- LRN (R194). -/
def State.apLrn (s : State) (i : ApId) (w : Nat) : ApRes :=
  let a := (s.gr i (fRa w)).toNat
  let b := (s.gr i (fRb w)).toNat
  .go (s.learnPut i.cluster (bits a 17 5) (bits b 48 16) (b % 2 ^ 48) (a % 2 ^ 17))

/-- One instruction by its operation. -/
def State.apExec (s : State) (i : ApId) (op : ApOp) (w clk : Nat) : ApRes :=
  match op with
  | .add | .sub | .and | .or | .xor | .shl | .shr | .sar | .mul | .cmpeq | .cmpltu | .cmplt | .csum | .popc | .clz => s.apAlu i op w
  | .addi | .andi | .ori | .xori | .shli | .shri => s.apImm i op w
  | .movk => s.apMovk i w
  | .ext => s.apExt i w
  | .ins => s.apIns i w
  | .ldh => s.apLdh i w
  | .sth => s.apSth i w
  | .mfs => s.apMfs i w clk
  | .mts => s.apMts i w
  | .beq | .bne | .bltu | .bgeu | .blt | .bge => s.apBranch i op w
  | .jal => s.apJal i w
  | .jr => s.apJr i w
  | .lkpExact => s.lkpExact i w
  | .lkpRoute => s.lkpRoute i w
  | .lookupErr => if (s.ctx i).busy (fTkt w) then .fault s ftTicket else .fault (s.setGr i (fRd w) 0) ftLookup
  | .pktrd => s.pktrd i w
  | .lkt => s.apLkt i w
  | .lock => s.apLock i w
  | .ulk => s.apUlk i w
  | .cres => s.apCres i w
  | .cwr => s.apCwr i w
  | .cpub => s.apCpub i w
  | .crd => s.apCrd i w
  | .endPkt => .stay (s.apEnd i ((s.ctx i).finish i.dir))
  | .drop => .stay ((s.bump (Rg.APC_AP_DROP_CNT i.cluster)).apEnd i dropPkt)
  | .punt => s.apPunt i w
  | .lrn => s.apLrn i w
  | .live => s.apLive i w clk
  | .hpush => s.apShift i w true
  | .hpop => s.apShift i w false
  | .wlk => s.apWlk i w
  | .wfe => s.apWfe i w
  | .sig => s.apSig i w
  | .tstart => s.apTstart i w
  | .tstop => s.apTstop i w
  | .crevoke => s.apCrevoke i w
  | .lrel => s.apLrel i w
  | .brk => s.apBrk i
  | .illegal => .fault s ftIllegal

/-! ## Issue (R179, R184, R186) -/

/-- The instruction at an address of a cluster. -/
def State.apWord (s : State) (c pc : Nat) : Nat := s.tbl (Pg.APC c) 0 (pc % 8192) % 2 ^ 32

/-- Whether a register set may issue: live, and every ticket it waits for free. -/
def State.apMay (s : State) (i : ApId) : Bool :=
  let x := s.ctx i
  s.clusterOn i.cluster && decide (i.ap < 16 ∧ i.thread < 16) && (onesOf 4 x.wait).all (fun t => !x.busy t) &&
  (match i.ctx with
   | some k => decide (k < 4) && i.thread != 15 && x.live
   | none => (s.thr i).st == 1)

/-- The operation that a register set would issue: LKP of a disabled table is LOOKUP_ERR (R193). -/
def State.apNext (s : State) (i : ApId) : ApOp :=
  let w := s.apWord i.cluster (s.ctx i).pc
  match apOp w with
  | .lkpExact => if (s.exm (w % 32)).en then .lkpExact else .lookupErr
  | op => op

/-- The general registers that an instruction reads: `wide` where a route lookup's address takes two. -/
def apReads (op : ApOp) (wide : Bool) (w : Nat) : List Nat :=
  let d := fRd w
  let a := fRa w
  let b := fRb w
  match op with
  | .mfs | .jal | .lookupErr | .endPkt | .drop | .wlk | .brk | .illegal => []
  | .movk => [d]
  | .ins | .sth | .beq | .bne | .bltu | .bgeu | .blt | .bge => [d, a]
  | .lkpExact => [a, a + 1]
  | .lkpRoute => if wide then [a, b, b + 1] else [a, b]
  | .add | .sub | .and | .or | .xor | .shl | .shr | .sar | .mul | .cmpeq | .cmpltu | .cmplt | .csum | .cwr | .lrn | .tstart => [a, b]
  | .popc | .clz | .addi | .andi | .ori | .xori | .shli | .shri | .ext | .ldh | .mts | .jr | .pktrd | .lkt | .lock | .ulk | .cres | .cpub
  | .crd | .punt | .live | .hpush | .hpop | .wfe | .sig | .tstop | .crevoke | .lrel => [a]

/-- Whether the instruction or a register that it reads is uncorrectable (R200); g0 is no stored word. -/
def State.apBad (s : State) (i : ApId) (w : Nat) : Bool :=
  s.badWord (Pg.APC i.cluster) i.ap ((s.ctx i).pc / 4) ||
    (apReads (s.apNext i) (bit (s.gr i (fRa w)).toNat 16) w).any fun n =>
      n != 0 && s.badWord (Pg.APC i.cluster) (48 + i.ap) (grWord i n)

/-- How a result is settled. -/
def State.apSettle (i : ApId) (r : ApRes) : State :=
  match r with
  | .go s => s.setPc i ((s.ctx i).pc + 1)
  | .jump s pc => s.setPc i pc
  | .stay s => s
  | .fault s code => s.apFault i code

/-- One instruction issued: uncorrectable memory and I_BOUND first (R186, R200). -/
def State.apRun (s : State) (i : ApId) (clk : Nat) : State :=
  let x := s.ctx i
  let w := s.apWord i.cluster x.pc
  if s.apBad i w then
    ((s.touch (Pg.APC i.cluster) 6 i.ap [x.pc / 4]).apFault i ftUncorr).sliceFault i.dir i.sl 1
  else if i.packet && decide (x.iBound ≤ x.issued) then s.apFault i ftInstr
  else
    let s0 := s.setCtx i { x with issued := x.issued + 1, wait := 0 }
    let s1 := if i.packet then
        let j : ApId := { i with ctx := none }
        s0.setThr j { s0.thr j with last := i.ctx.getD 0 }
      else s0
    State.apSettle i (s1.apExec i (s.apNext i) w clk)

/-- A command of an instruction: it runs where the register set may issue and its next instruction is that one. -/
def State.apIssue (s : State) (i : ApId) (op : ApOp) (clk : Nat) : State :=
  if s.apMay i && s.apNext i == op then s.apRun i clk else s

/-- ADD (R192). -/
def execAdd (i : ApId) (s : State) : Out := .next (s.apIssue i .add 0)
/-- SUB (R192). -/
def execSub (i : ApId) (s : State) : Out := .next (s.apIssue i .sub 0)
/-- AND (R192). -/
def execAnd (i : ApId) (s : State) : Out := .next (s.apIssue i .and 0)
/-- OR (R192). -/
def execOr (i : ApId) (s : State) : Out := .next (s.apIssue i .or 0)
/-- XOR (R192). -/
def execXor (i : ApId) (s : State) : Out := .next (s.apIssue i .xor 0)
/-- SHL (R192). -/
def execShl (i : ApId) (s : State) : Out := .next (s.apIssue i .shl 0)
/-- SHR (R192). -/
def execShr (i : ApId) (s : State) : Out := .next (s.apIssue i .shr 0)
/-- SAR (R192). -/
def execSar (i : ApId) (s : State) : Out := .next (s.apIssue i .sar 0)
/-- MUL (R192). -/
def execMul (i : ApId) (s : State) : Out := .next (s.apIssue i .mul 0)
/-- CMPEQ (R192). -/
def execCmpeq (i : ApId) (s : State) : Out := .next (s.apIssue i .cmpeq 0)
/-- CMPLTU (R192). -/
def execCmpltu (i : ApId) (s : State) : Out := .next (s.apIssue i .cmpltu 0)
/-- CMPLT (R192). -/
def execCmplt (i : ApId) (s : State) : Out := .next (s.apIssue i .cmplt 0)
/-- CSUM (R192). -/
def execCsum (i : ApId) (s : State) : Out := .next (s.apIssue i .csum 0)
/-- POPC (R192). -/
def execPopc (i : ApId) (s : State) : Out := .next (s.apIssue i .popc 0)
/-- CLZ (R192). -/
def execClz (i : ApId) (s : State) : Out := .next (s.apIssue i .clz 0)
/-- ADDI (R192). -/
def execAddi (i : ApId) (s : State) : Out := .next (s.apIssue i .addi 0)
/-- ANDI (R192). -/
def execAndi (i : ApId) (s : State) : Out := .next (s.apIssue i .andi 0)
/-- ORI (R192). -/
def execOri (i : ApId) (s : State) : Out := .next (s.apIssue i .ori 0)
/-- XORI (R192). -/
def execXori (i : ApId) (s : State) : Out := .next (s.apIssue i .xori 0)
/-- SHLI (R192). -/
def execShli (i : ApId) (s : State) : Out := .next (s.apIssue i .shli 0)
/-- SHRI (R192). -/
def execShri (i : ApId) (s : State) : Out := .next (s.apIssue i .shri 0)
/-- MOVK (R192). -/
def execMovk (i : ApId) (s : State) : Out := .next (s.apIssue i .movk 0)
/-- EXT (R192). -/
def execExt (i : ApId) (s : State) : Out := .next (s.apIssue i .ext 0)
/-- INS (R192). -/
def execIns (i : ApId) (s : State) : Out := .next (s.apIssue i .ins 0)
/-- LDH (R189). -/
def execLdh (i : ApId) (s : State) : Out := .next (s.apIssue i .ldh 0)
/-- STH (R189). -/
def execSth (i : ApId) (s : State) : Out := .next (s.apIssue i .sth 0)
/-- MFS (R187). -/
def execMfs (i : ApId) (clk : Nat) (s : State) : Out := .next (s.apIssue i .mfs clk)
/-- MTS (R187). -/
def execMts (i : ApId) (s : State) : Out := .next (s.apIssue i .mts 0)
/-- BEQ (R192). -/
def execBeq (i : ApId) (s : State) : Out := .next (s.apIssue i .beq 0)
/-- BNE (R192). -/
def execBne (i : ApId) (s : State) : Out := .next (s.apIssue i .bne 0)
/-- BLTU (R192). -/
def execBltu (i : ApId) (s : State) : Out := .next (s.apIssue i .bltu 0)
/-- BGEU (R192). -/
def execBgeu (i : ApId) (s : State) : Out := .next (s.apIssue i .bgeu 0)
/-- BLT (R192). -/
def execBlt (i : ApId) (s : State) : Out := .next (s.apIssue i .blt 0)
/-- BGE (R192). -/
def execBge (i : ApId) (s : State) : Out := .next (s.apIssue i .bge 0)
/-- JAL (R192). -/
def execJal (i : ApId) (s : State) : Out := .next (s.apIssue i .jal 0)
/-- JR (R192). -/
def execJr (i : ApId) (s : State) : Out := .next (s.apIssue i .jr 0)
/-- LKP_EXACT (R193). -/
def execLkpExact (i : ApId) (s : State) : Out := .next (s.apIssue i .lkpExact 0)
/-- LKP_ROUTE (R193). -/
def execLkpRoute (i : ApId) (s : State) : Out := .next (s.apIssue i .lkpRoute 0)
/-- LOOKUP_ERR (R193). -/
def execLookupErr (i : ApId) (s : State) : Out := .next (s.apIssue i .lookupErr 0)
/-- PKTRD (R190). -/
def execPktrd (i : ApId) (s : State) : Out := .next (s.apIssue i .pktrd 0)
/-- LKT (R197). -/
def execLkt (i : ApId) (s : State) : Out := .next (s.apIssue i .lkt 0)
/-- LOCK (R197). -/
def execLock (i : ApId) (s : State) : Out := .next (s.apIssue i .lock 0)
/-- ULK (R197). -/
def execUlk (i : ApId) (s : State) : Out := .next (s.apIssue i .ulk 0)
/-- CRES (R198). -/
def execCres (i : ApId) (s : State) : Out := .next (s.apIssue i .cres 0)
/-- CWR (R198). -/
def execCwr (i : ApId) (s : State) : Out := .next (s.apIssue i .cwr 0)
/-- CPUB (R198). -/
def execCpub (i : ApId) (s : State) : Out := .next (s.apIssue i .cpub 0)
/-- CRD (R198). -/
def execCrd (i : ApId) (s : State) : Out := .next (s.apIssue i .crd 0)
/-- END (R195). -/
def execEnd (i : ApId) (s : State) : Out := .next (s.apIssue i .endPkt 0)
/-- DROP (R195). -/
def execDrop (i : ApId) (s : State) : Out := .next (s.apIssue i .drop 0)
/-- PUNT (R195). -/
def execPunt (i : ApId) (s : State) : Out := .next (s.apIssue i .punt 0)
/-- LRN (R194). -/
def execLrn (i : ApId) (s : State) : Out := .next (s.apIssue i .lrn 0)
/-- LIVE (R194). -/
def execLive (i : ApId) (clk : Nat) (s : State) : Out := .next (s.apIssue i .live clk)
/-- HPUSH (R189). -/
def execHpush (i : ApId) (s : State) : Out := .next (s.apIssue i .hpush 0)
/-- HPOP (R189). -/
def execHpop (i : ApId) (s : State) : Out := .next (s.apIssue i .hpop 0)
/-- WLK (R193). -/
def execWlk (i : ApId) (s : State) : Out := .next (s.apIssue i .wlk 0)
/-- WFE (R196). -/
def execWfe (i : ApId) (s : State) : Out := .next (s.apIssue i .wfe 0)
/-- SIG (R192). -/
def execSig (i : ApId) (s : State) : Out := .next (s.apIssue i .sig 0)
/-- TSTART (R192). -/
def execTstart (i : ApId) (s : State) : Out := .next (s.apIssue i .tstart 0)
/-- TSTOP (R192). -/
def execTstop (i : ApId) (s : State) : Out := .next (s.apIssue i .tstop 0)
/-- CREVOKE (R202). -/
def execCrevoke (i : ApId) (s : State) : Out := .next (s.apIssue i .crevoke 0)
/-- LREL (R202). -/
def execLrel (i : ApId) (s : State) : Out := .next (s.apIssue i .lrel 0)
/-- BRK (R202). -/
def execBrk (i : ApId) (s : State) : Out := .next (s.apIssue i .brk 0)
/-- ILLEGAL_OP (R192). -/
def execIllegalOp (i : ApId) (s : State) : Out := .next (s.apIssue i .illegal 0)

/-! ## Bounds, timers, detectors -/

/-- A packet context still live D_BOUND clocks after its dispatch faults (R186). -/
def State.timeBound (s : State) (i : ApId) : State :=
  if i.packet && (s.ctx i).live then s.apFault i ftTime else s

/-- TIME_BOUND (R186). -/
def execTimeBound (i : ApId) (s : State) : Out := .next (s.timeBound i)

/-- The threads of an AP. -/
def apThreads (c a n : Nat) : List ApId := (List.range n).map fun t => ⟨c, a, t, none⟩

/-- A timer that has counted down raises its event in the threads of its AP (R196). -/
def State.timerExpiry (s : State) (c a n : Nat) : State :=
  let q := s.sup c a
  let d := sget 0 q.timers n
  if !s.clusterOn c || decide (16 ≤ a ∨ 4 ≤ n) || d == 0 || decide (s.tk.count + 1 < d) then s else
  (apThreads c a 16).foldl (fun t i => t.postEvent i (8 + n)) (s.setSup c a { q with timers := sdel q.timers n })

/-- AP_TIMER_EXPIRY (R196). -/
def execApTimerExpiry (cluster ap timer : Nat) (s : State) : Out := .next (s.timerExpiry cluster ap timer)

/-- Whether an event is armed for a waiting thread (R196). -/
def State.armed (s : State) (i : ApId) (mask : Nat) : Bool :=
  let t := s.thr i
  (onesOf 4 mask).any t.x.busy ||
    (bit mask 5 && (onesOf 64 t.watch).any fun c => s.fb (Rg.APC_CHAN_CFG i.cluster c) Fd.APC_CHAN_CFG_EXTERNAL) ||
    (List.range 4).any (fun n => bit mask (8 + n) && sget 0 (s.sup i.cluster i.ap).timers n != 0) ||
    bit mask 12 || (bit mask 13 && s.fb (Rg.APC_CTRL i.cluster) Fd.APC_CTRL_DISPATCH_EN)

/-- Whether a worker thread counts as in WFE with nothing armed (R201). -/
def State.deadWait (s : State) (i : ApId) : Bool :=
  let t := s.thr i
  (t.st == 4) || (t.st == 0 && !s.fb (Rg.APC_CTRL i.cluster) Fd.APC_CTRL_DISPATCH_EN) ||
    (t.st == 2 && (match t.wfe with
      | some (m, _) => !s.armed i m
      | none => false))

/-- The all-waiting detector (R201). -/
def State.allwait (s : State) (c a : Nat) : State :=
  let q := s.sup c a
  if !s.clusterOn c || decide (16 ≤ a) || q.fired || !(apThreads c a 15).all s.deadWait then s else
  let s1 := (s.setSup c a { q with fired := true }).bump (Rg.APC_ALLWAIT_CNT c)
  let i : ApId := ⟨c, a, 15, none⟩
  let t := s1.thr i
  let wants := match t.wfe with
    | some (m, _) => bit m 15
    | none => false
  if t.st == 1 || (t.st == 2 && wants) then s1.postEvent i 15
  else if t.st != 0 then s1.clusterIrq c Ib.APC_ALLWAIT none
  else s1

/-- ALLWAIT (R201). -/
def execAllwait (cluster ap : Nat) (s : State) : Out := .next (s.allwait cluster ap)

/-- Whether a thread holds an unpublished reservation. -/
def State.hasResv (s : State) (i : ApId) : Bool := s.chans.any fun e => e.2.any fun x => x.owner == some i && x.st == 0

/-- The stale notice of a halted thread in debug-safe mode (R202). -/
def State.staleNotice (s : State) (c a n : Nat) : State :=
  let i : ApId := ⟨c, a, n, none⟩
  let t := s.thr i
  let resv := s.hasResv i
  if !s.clusterOn c || decide (16 ≤ a ∨ 16 ≤ n) || !s.fb (Rg.APC_DBG_CFG c) Fd.APC_DBG_CFG_SAFE || t.st != 3 || t.stale ||
      decide (s.tk.count < t.haltAt + s.f (Rg.APC_DBG_CFG c) Fd.APC_DBG_CFG_REVOKE_TICKS) || !(resv || !(s.locksOf i).isEmpty) then s
  else
    let s1 := s.setThr i { t with stale := true }
    if n = 15 then (s1.releaseAll i).revokeAll i
    else (s1.setSup c a { s1.sup c a with staleReg := 2 ^ 31 + n * 4 + (if resv then 1 else 2) }).postEvent { i with thread := 15 } 16

/-- STALE (R202). -/
def execStale (cluster ap thread : Nat) (s : State) : Out := .next (s.staleNotice cluster ap thread)

/-! ## Debugging (R202) and control -/

/-- A debug command refused. -/
def State.dbgRefuse (s : State) (c : Nat) : State :=
  (s.setF (Rg.APC_DBG_STAT c) Fd.APC_DBG_STAT_RESULT 2).setInt (Pg.APC c) Ib.APC_REFUSED

/-- A halted thread goes on. -/
def State.resumeThread (s : State) (i : ApId) : State :=
  let t := s.thr i
  (s.setThr i { t with st := if t.wfe.isSome then 2 else 1, stale := false }).wfeCheck i

/-- One instruction of a halted thread, which is halted again after it. -/
def State.stepThread (s : State) (i : ApId) (clk : Nat) : State :=
  let t0 := s.thr i
  let s1 := s.setThr i { t0 with st := if t0.wfe.isSome then 2 else 1 }
  let s2 := if s1.apMay i then s1.apRun i clk else s1
  let t := s2.thr i
  (if t.st = 1 ∨ t.st = 2 then s2.setThr i { t with st := 3 } else s2).setInt (Pg.APC i.cluster) Ib.APC_DBG_HALT

/-- A command of APC_DBG_CTRL, `none` where it is refused. -/
def State.dbgCmd (s : State) (i : ApId) (cmd : Nat) (special : Bool) (reg clk : Nat) : Option State :=
  let c := i.cluster
  let j : ApId := { i with ctx := none }
  let t := s.thr j
  let halted := t.st == 3
  let r : ApId := if (s.ctx i).live then i else j
  match cmd with
  | 1 =>
    if i.thread ≠ 15 ∧ s.fb (Rg.APC_CTRL c) Fd.APC_CTRL_DISPATCH_EN then none
    else if t.st = 1 ∨ t.st = 2 then some (s.haltThread j) else some s
  | 2 => if halted then some (s.resumeThread j) else none
  | 3 => if halted then some (s.stepThread j clk) else none
  | 4 =>
    if !halted then none else
    let (s1, v) := if special then s.srRead r reg clk else (s, s.gr r (reg % 32))
    some (s1.wr64 (Rg.APC_DBG_DATA_LO c) v.toNat)
  | 5 =>
    if !halted then none else
    let v := BitVec.ofNat 64 (s.rd64 (Rg.APC_DBG_DATA_LO c))
    if special then s.srWrite r reg v else some (s.setGr r (reg % 32) v)
  | _ => none

/-- A write of APC_DBG_CTRL. -/
def State.dbgCtrl (s : State) (c v clk : Nat) : State :=
  let s1 := s.fieldWrite (Rg.APC_DBG_CTRL c) v
  if !bit v 31 then s1 else
  let r := s1.rd (Rg.APC_DBG_CTRL c)
  let i : ApId := ⟨c, bits r 24 4, bits r 20 4, some (bits r 18 2)⟩
  let s2 := match s1.dbgCmd i (bits r 28 3) (bit r 9) (r % 512) clk with
    | some t => t.setF (Rg.APC_DBG_STAT c) Fd.APC_DBG_STAT_RESULT 1
    | none => s1.dbgRefuse c
  let j : ApId := if (s2.ctx i).live then i else { i with ctx := none }
  s2.setF (Rg.APC_DBG_STAT c) Fd.APC_DBG_STAT_PC (s2.ctx j).pc

/-- A write of APC_DBG_CTRL by a requester. -/
def State.onDbg (s : State) (a : Acc) (c v : Nat) : State :=
  if c < 18 then s.onWrite a (Rg.APC_DBG_CTRL c) fun t => t.dbgCtrl c v a.clk else s

/-- HALT (R202): a write of APC_DBG_CTRL with GO. -/
def execHalt (a : Acc) (cluster : Nat) (v : Word) (s : State) : Out := .next (s.onDbg a cluster v.toNat)
/-- RESUME (R202): a write of APC_DBG_CTRL with GO. -/
def execResume (a : Acc) (cluster : Nat) (v : Word) (s : State) : Out := .next (s.onDbg a cluster v.toNat)
/-- STEP (R202): a write of APC_DBG_CTRL with GO. -/
def execStep (a : Acc) (cluster : Nat) (v : Word) (s : State) : Out := .next (s.onDbg a cluster v.toNat)
/-- READ_REG (R202): a write of APC_DBG_CTRL with GO. -/
def execReadReg (a : Acc) (cluster : Nat) (v : Word) (s : State) : Out := .next (s.onDbg a cluster v.toNat)
/-- WRITE_REG (R202): a write of APC_DBG_CTRL with GO. -/
def execWriteReg (a : Acc) (cluster : Nat) (v : Word) (s : State) : Out := .next (s.onDbg a cluster v.toNat)

/-- Thread 15 of an AP restarts: a running supervisor ends and its queue is cleared (APC_CTRL). -/
def State.supStart (s : State) (c a : Nat) : State :=
  let i : ApId := ⟨c, a, 15, none⟩
  (s.setSup c a { s.sup c a with faults := [] }).startThread i (s.f (Rg.APC_SUP_CFG c) Fd.APC_SUP_CFG_SUP_START_ADDR)

/-- DISPATCH_EN set: the service programs of the workers end. -/
def State.stopService (s : State) (c : Nat) : State :=
  (List.range 16).foldl (fun t a => (apThreads c a 15).foldl (fun u i =>
    if (u.thr i).st = 0 then u else u.setThr i { u.thr i with st := 0, wfe := none }) t) s

/-- A write of APC_CTRL: DISPATCH_EN (R182) and SUP_START (R199). -/
def State.apcCtrl (s : State) (c v : Nat) : State :=
  let r := s.role (if c < 9 then 0 else 1) (if c < 9 then c else c - 9)
  let on := s.fb (Rg.APC_CTRL c) Fd.APC_CTRL_DISPATCH_EN
  let s1 := if bit v 31 then (if on then s else (s.setF (Rg.APC_CTRL c) Fd.APC_CTRL_DISPATCH_EN 1).stopService c)
    else if r = rlActive ∨ r = rlDormant then s.setInt (Pg.APC c) Ib.APC_REFUSED
    else s.setF (Rg.APC_CTRL c) Fd.APC_CTRL_DISPATCH_EN 0
  if bit v 30 then (List.range 16).foldl (fun t a => t.supStart c a) s1 else s1

/-- DISPATCH_EN_WRITE (R182). -/
def execDispatchEnWrite (a : Acc) (cluster : Nat) (v : Word) (s : State) : Out :=
  .next (if cluster < 18 then s.onWrite a (Rg.APC_CTRL cluster) fun t => t.apcCtrl cluster v.toNat else s)

/-- SUP_START (R199): a write of APC_CTRL with SUP_START. -/
def execSupStart (a : Acc) (cluster : Nat) (v : Word) (s : State) : Out :=
  .next (if cluster < 18 then s.onWrite a (Rg.APC_CTRL cluster) fun t => t.apcCtrl cluster v.toNat else s)

/-- A write of APC_POKE. -/
def State.poke (s : State) (c v : Nat) : State := (onesOf 16 v).foldl (fun t a => t.postEvent ⟨c, a, 15, none⟩ 7) s

/-- POKE (R196). -/
def execPoke (a : Acc) (cluster : Nat) (v : Word) (s : State) : Out :=
  .next (if cluster < 18 then s.onWrite a (Rg.APC_POKE cluster) fun t => t.poke cluster v.toNat else s)

/-! ## Tables of page APC -/

/-- The instruction ranges that no write may touch (R205). -/
def State.apRanges (s : State) (c : Nat) : List (Nat × Nat) :=
  let r := s.role (if c < 9 then 0 else 1) (if c < 9 then c else c - 9)
  if r = rlService ∨ r = rlFenced then [] else
  let copies := if s.versioned then (if s.fb (Rg.APC_VER_STAT c) Fd.APC_VER_STAT_PREV_BUSY then [0, 1, 2] else [0, 1]) else [1]
  let live := copies.flatMap fun k => ((List.range 256).map fun n => s.tbl (Pg.APC c) (4 + k) n).filterMap fun e =>
    if bit e 63 then some (bits e 39 13, bits e 26 13) else none
  live ++ ((s.apProt.filter fun e => e.1 == c && decide (s.tk.count < e.2.2.2)).map fun e => (e.2.1, e.2.2.1))

/-- A program entry that may be written (R185, R203). -/
def State.progOk (s : State) (c e : Nat) : Bool :=
  let abi := bits e 52 8
  let cap := s.rd (Pg.APC c + 0x004)
  !bit e 63 || (decide (cap % 256 ≤ abi ∧ abi ≤ bits cap 8 8) && decide (bits e 39 13 ≤ bits e 26 13) &&
    decide (1 ≤ bits e 8 8 ∧ bits e 8 8 ≤ 52 ∧ 12 * bits e 8 8 ≤ bits e 16 10 ∧ bits e 16 10 ≤ s.f (Rg.APC_CFG c) Fd.APC_CFG_D_MAX))

/-- A program entry written: in direct mode the range it held stays protected for 2 ticks (R205). -/
def State.progPut (s : State) (c n e : Nat) : State :=
  let t := if s.versioned then 4 else 5
  let old := s.tbl (Pg.APC c) t n
  let s1 := (s.setTbl (Pg.APC c) t n e).wroteWord (Pg.APC c) (28 + t) n
  if s.versioned then s1.addPending (Pg.APC c)
  else if bit old 63 then { s1 with apProt := (c, bits old 39 13, bits old 26 13, s.tk.count + 2) :: s1.apProt.filter fun x => decide (s.tk.count < x.2.2.2) }
  else s1

/-- Instruction-memory commands: a block of 8 instructions in all 16 copies. -/
def State.instrCmd (s : State) (c op addr data : Nat) : State × TblAns :=
  let b := bits addr 3 10
  if op = 1 then
    let (s1, ok) := s.readWords (Pg.APC c) 6 0 (2 * b) 2
    if !ok then (s1.draw, { st := stUncorr, data := some (s1.freeVal 512) })
    else (s1, { st := stOk, data := some ((List.range 8).foldl (fun a j => a + s1.apWord c (8 * b + j) * 2 ^ (32 * j)) 0) })
  else if op ≠ 2 then (s, ans stUnsupported)
  else if (s.apRanges c).any fun r => decide (r.1 ≤ 8 * b + 7 ∧ 8 * b ≤ r.2) then (s, ans stNotAllowed)
  else
    let s1 := (List.range 8).foldl (fun t j => t.setTbl (Pg.APC c) 0 (8 * b + j) (bits data (32 * j) 32)) s
    ((List.range 16).foldl (fun t a => t.wroteWords (Pg.APC c) a (2 * b) 2) s1, ans stOk)

/-- Program-table commands. -/
def State.progCmd (s : State) (c op addr data : Nat) : State × TblAns :=
  let copy := bits addr 16 2
  let n := addr % 256
  let t := if copy = 0 ∧ !s.versioned then 1 else copy
  if op ≠ 1 ∧ op ≠ 2 ∧ op ≠ 4 then (s, ans stUnsupported)
  else if copy = 3 then (s, ans stBadAddr)
  else if op = 1 then
    let (s1, ok) := s.readWord (Pg.APC c) 4 (32 + t) n
    if ok then (s1, { st := stOk, data := some (s1.tbl (Pg.APC c) (4 + t) n) }) else (s1.draw, { st := stUncorr, data := some (s1.freeVal 512) })
  else if copy ≠ 0 then (s, ans stReadOnly)
  else if s.versioned && !s.stageOpen then s.lateTbl
  else if op = 4 then (s.progPut c n (clrBit (s.tbl (Pg.APC c) (4 + t) n) 63), ans stOk)
  else
    let e := data % 2 ^ 64 &&& 0x8FFFFFFFFFFFFF00
    if s.progOk c e then (s.progPut c n e, ans stOk) else (s, ans stBadData)

/-- A command of page APC. -/
def State.apcCmd (s : State) (c op addr data : Nat) : State × TblAns :=
  match bits addr 20 2 with
  | 0 => s.instrCmd c op addr data
  | 1 => s.progCmd c op addr data
  | 2 => if op = 2 then s.chanWrite c (addr % 64) data else (s, ans stUnsupported)
  | _ => (s, ans stBadAddr)

end Sys2Proof.Machine
end

