-- ==== Sys2Proof/Machine/Standby.lean ====
section
/-! DEFINITION. Standby retention (chapter 17, R376, R377): entry, what stays and what is lost, the events that end it, and exit. -/
namespace Sys2Proof.Machine

/-- PWR_STBY.STATE: 0 ACTIVE, 1 ENTERING, 2 STANDBY, 3 EXITING. -/
def State.stby (s : State) : Nat := s.f (Rg.PWR_STBY 1) Fd.PWR_STBY_STATE

/-- The controller that PWR_STBY.KEEP names. -/
def State.stbyKeep (s : State) : Option Nat :=
  let k := s.f (Rg.PWR_STBY 1) Fd.PWR_STBY_KEEP
  if k < 2 then some k else none

/-- The code with which an entry is refused, 0 where it is not (R377). -/
def State.stbyRefusal (s : State) : Nat :=
  if s.f Rg.CALD_STAT Fd.CALD_STAT_USED ≠ 0 ∨ s.f Rg.VOQ_STAT Fd.VOQ_STAT_NONEMPTY ≠ 0 ∨ s.f Rg.EQS_POOL_STAT Fd.EQS_POOL_STAT_USED ≠ 0 then 1
  else if s.stbyKeep.any fun k => s.scRole k != scActive then 2
  else if s.stby ≠ 0 ∨ s.f Rg.CMT_STAT Fd.CMT_STAT_STATE ≠ 0 then 3
  else 0

/-- Exit starts (R377): the link between the dies and every stack that was in use train again. -/
def State.stbyExit (s : State) : State :=
  if s.stby ≠ 2 then s else
  let s1 := s.setF (Rg.PWR_STBY 1) Fd.PWR_STBY_STATE 3
  (List.range s.part.stacks).foldl (fun (t : State) (k : Nat) => if t.stackTrained k then t.hbmStart k else t)
    { s1 with d2 := { s1.d2 with training := true } }

/-- A write of PWR_STBY: KEEP, then ENTER or EXIT (R377). -/
def State.stbyWrite (s : State) (who : Requester) (v : Nat) : State :=
  let s1 := s.fieldWrite (Rg.PWR_STBY 1) v
  let s2 := if !bit v 31 then s1
    else if s1.stbyRefusal = 0 then s1.setF (Rg.PWR_STBY 1) Fd.PWR_STBY_STATE 1
    else (s1.setF (Rg.PWR_STBY 1) Fd.PWR_STBY_REFUSE s1.stbyRefusal).powerRefuse 1
  if !bit v 30 then s2
  else if s2.stby = 2 ∧ s2.stbyKeep.any (fun k => reqNo who == 2 + k) then s2.stbyExit
  else s2.powerRefuse 1

/-- STANDBY_ENTER (R377). -/
def execStandbyEnter (a : Acc) (v : Word) (s : State) : Out := .next (s.onWrite a (Rg.PWR_STBY 1) fun t => t.stbyWrite a.req v.toNat)

/-- STANDBY_EXIT (R377). -/
def execStandbyExit (a : Acc) (v : Word) (s : State) : Out := .next (s.onWrite a (Rg.PWR_STBY 1) fun t => t.stbyWrite a.req v.toNat)

/-- I3C_WAKE (R377, R386). -/
def execI3cWake (s : State) : Out := .next s.stbyExit

/-- Whether a domain stays powered in standby (R376): the Hash SRAM groups, eMRAM, the kept controller, and the HBM units, whose ranks are in
self-refresh. -/
def State.stbyStays (s : State) (die d : Nat) : Bool :=
  if die = 0 then decide (28 ≤ d ∧ d < 36) || (d == 44 && s.stbyKeep == some 0)
  else decide (20 ≤ d ∧ d < 24) || d == 26 || (d == 24 && s.stbyKeep == some 1)

/-- Whether a page loses its power in standby. -/
def State.stbyOff (s : State) (page : Nat) : Bool :=
  if page = 0x099 then true else
  match domOf page with
  | some (die, d) => !s.stbyStays die d
  | none => false

/-- Registers that count what the retained memories hold, and the role of a controller held in reset: they stay with it. -/
def stbyHeld (addr : Nat) : Bool :=
  (List.range 32).any (fun t => addr == Rg.EXM_TBL_STAT t) || addr == Rg.LEARN_STAT ||
    (List.range 8).any (fun g => (List.range 16).any fun b => addr == Rg.TERR_BANK_STAT g b) || addr == Rg.SC_STAT 0 || addr == Rg.SC_STAT 1

/-- What the retention store keeps of a register: its RW and ST fields (R376). -/
def retained (p : Part) (addr v : Nat) : Nat :=
  match findReg addr with
  | none => regReset p addr
  | some r => r.fields.foldl (fun a f => if f.kind = .rw || f.kind = .st then setBits a f.lo f.w (bits v f.lo f.w) else a) (regReset p addr)

/-- Whether a table of a page that is off keeps its entries: Hash SRAM and the Terrace shadows (R376). -/
def stbyTable (key : Nat) : Bool :=
  let page := key / 2 ^ 38
  let t := key / 2 ^ 32 % 64
  page == Pg.EXM / 0x1000 || (decide (0x090 ≤ page ∧ page < 0x098) && decide (16 ≤ t))

/-- The same of a stored word's errors. -/
def stbyMark (key : Nat) : Bool :=
  let page := key / 2 ^ 64
  page == Pg.EXM / 0x1000 || (decide (0x090 ≤ page ∧ page < 0x098) && decide (16 ≤ key / 2 ^ 56 % 256))

/-- Every page that is off loses what standby does not keep. -/
def State.stbyLose (s : State) : State :=
  let off := s.stbyOff
  { s with
    regs := s.regs.filterMap fun e =>
      if !off (e.1 / 0x1000) || stbyHeld e.1 then some e
      else if retained s.part e.1 e.2 = regReset s.part e.1 then none else some (e.1, retained s.part e.1 e.2)
    prevSt := []
    tblPending := s.tblPending.filter fun pg => pg == Pg.EXM || decide (Pg.TERR 0 ≤ pg ∧ pg ≤ Pg.TERR 7)
    hiLatch := s.hiLatch.filter fun e => !off (e.1 / 0x4000)
    loHeld := s.loHeld.filter fun e => !off (e.1 / 0x4000)
    tbls := s.tbls.filter fun e => !off (e.1 / 2 ^ 38) || stbyTable e.1
    marks := s.marks.filter fun e => !off (e.1 / 2 ^ 64) || stbyMark e.1
    tblRun := s.tblRun.filter fun e => !off e.1
    refill := []
    softWait := s.softWait.filter fun g => !off g }

/-- The state of the blocks outside their registers and tables goes with their power. -/
def State.stbyBlocks (s : State) : State :=
  { s with
    ports := [], macQ := [], flexe := [], slices := [], moveIn := none, moveEg := none, evacIn := none, evacEg := none, admQ := []
    macTx := [], classLog := s.classLog.filter fun e => e.1 != 0, classWalk := s.classWalk.filter fun e => e.1 != 0, liveClr := []
    ln := {}, apCtx := [], apThr := [], apSup := [], locks := [], chans := [], apProt := []
    voqs := [], pols := [], bf := {}, eg := {}, fab := {}, te := {}, rings := [], ringDue := []
    ra := { s.ra with ceSec := [], hist := [], rw := [] }
    hb := { s.hb with q := [], last := [], passed := [], closed := [], fails := [] }
    d2 := { s.d2 with trained := false, training := false, downTicks := 0, rxF := List.replicate 16 {}, rxT := List.replicate 16 {} }
    ptp := { since := s.tk.start } }

/-- The switched domains of a die, by ascending number. -/
def Part.doms (p : Part) (die : Nat) : List Nat := onesOf 47 (if die = 0 then p.domsF else p.domsT)

/-- Entry completes (R376, R377). -/
def State.stbyEntered (s : State) : State :=
  if s.stby ≠ 1 then s else
  let s1 := (([0, 1].filter fun k => s.stbyKeep != some k).foldl (fun t k => t.scEnter k scHeld) s).scUpdate
  let s2 := (s1.losePcie 0).losePcie 1
  let s3 := (List.range s2.part.stacks).foldl (fun (t : State) (k : Nat) =>
    if !t.stackTrained k then t else
    ((List.range 64).foldl (fun (u : State) (r : Nat) => if u.rankState k r = rkFailed then u else u.setSr k r true) t).hbmCount k) s2
  let parts := (List.range 44).filter fun p => s3.stbyOff (partPage p)
  let s4 := parts.foldl State.dropPart s3
  let s5 := s4.withPaths fun t => t.stbyLose.stbyBlocks
  let s6 := [0, 1].foldl (fun (t : State) (die : Nat) =>
    ((t.part.doms die).filter fun d => !t.stbyStays die d).foldl (fun (u : State) (d : Nat) => u.setDom die d false) t) s5
  (({ s6 with pw := { s6.pw with rise := [], wait := [], fall := [] } }).setF (Rg.PWR_STBY 1) Fd.PWR_STBY_STATE 2).setInt (Pg.PWR 1) Ib.PWR_STBY_DONE

/-- STANDBY_ENTERED (R377). -/
def execStandbyEntered (s : State) : Out := .next s.stbyEntered

/-- Every Terrace row rewritten from its shadow (R377). -/
def State.terrRestore (s : State) : State :=
  (s.tbls.filter fun e => stbyTable e.1 && decide (e.1 / 2 ^ 38 ≠ Pg.EXM / 0x1000)).foldl (fun (t : State) (e : Nat × Nat) =>
    t.setTbl (e.1 / 2 ^ 38 * 0x1000) (e.1 / 2 ^ 32 % 64 - 16) (e.1 % 2 ^ 32) e.2) s

/-- BUF_PAGES_TOTAL as the region gives it where every stack is in use or keeps its contents; every page is free (R376). -/
def State.stbyPages (s : State) : State :=
  let n := if (List.range s.part.stacks).all fun k => s.stackTrained k || s.hb.keep.contains k then
    bufPages (s.f Rg.HBM_REGION Fd.HBM_REGION_BUF_SIZE) (s.f Rg.BUF_CFG Fd.BUF_CFG_RS_PARITY) else 0
  (s.wr Rg.BUF_PAGES_TOTAL n).setFree n

/-- Exit completes (R376, R377): every domain is powered and the retention store restored. -/
def State.stbyExited (s : State) : State :=
  if s.stby ≠ 3 then s else
  let s1 := [0, 1].foldl (fun (t : State) (die : Nat) =>
    (t.part.doms die).foldl (fun (u : State) (d : Nat) =>
      (if u.domOn die d then u else u.setDom die d true).setReq die d true) t) s
  let s2 : State := { s1 with pw := { s1.pw with rise := [], wait := [], fall := [] } }
  ((s2.terrRestore.stbyPages.steerStat).setF (Rg.PWR_STBY 1) Fd.PWR_STBY_STATE 0).setInt (Pg.PWR 1) Ib.PWR_STBY_DONE |>.scUpdate

/-- STANDBY_EXITED (R377). -/
def execStandbyExited (s : State) : Out := .next s.stbyExited

end Sys2Proof.Machine
end

