-- ==== Sys2Proof/Machine/Reset.lean ====
section
/-! DEFINITION. Resets, clocks, temperatures and pins (chapter 17, R378 to R389). -/
namespace Sys2Proof.Machine

/-! ## Device resets (R381, R382) -/

/-- The registers that persist in eMRAM: EMRAM_SEC (R343), UPD_ARB and UPD_FLOOR (R348), the log's position (R354), and how much of the list of SRAM
repairs is used (R310). -/
def eMramReg (addr : Nat) : Bool :=
  addr == Rg.EMRAM_SEC || addr == Rg.EMRAM_LOG_WP || addr == Rg.EMRAM_LOG_SEQ || addr == Rg.RAS_REPAIR_USED 0 || addr == Rg.RAS_REPAIR_USED 1 ||
    (List.range 6).any fun k => addr == Rg.UPD_ARB_LO k || addr == Rg.UPD_ARB_HI k || addr == Rg.UPD_FLOOR_LO k || addr == Rg.UPD_FLOOR_HI k

/-- The tables that persist in eMRAM: the staging and resident slots, the controllers' store and the customer key (R352). -/
def eMramTbl (key : Nat) : Bool :=
  let page := key / 2 ^ 38
  let t := key / 2 ^ 32 % 64
  (page == Pg.UPD / 0x1000 && (t == 0 || decide (16 ≤ t))) || (page == Pg.EMRAM / 0x1000 && (t == 1 || t == 2))

/-- The die of a repaired word. -/
def repairDie (key : Nat) : Nat := key / 2 ^ 64 / 0x1000

/-- The repairs that the lists of eMRAM apply at a reset of dies `ds`, and the CAM entries they take: the first 1,024 of each die (R310). -/
def RasSt.reapply (r : RasSt) (ds : List Nat) : RasSt :=
  let listed (d : Nat) : List Nat :=
    let l := r.repaired.filter fun k => repairDie k == d
    if ds.contains d then l.take 1024 else l
  let all := listed 0 ++ listed 1
  { r with
    repaired := all
    cam := all.foldl (fun m k => sset 0 m (k / 2 ^ 56 * 2 ^ 56) (sget 0 m (k / 2 ^ 56 * 2 ^ 56) + 1)) [] }

/-- What the reset sequence latches and reports (R382, R383). -/
def State.boot (s : State) (env : BootEnv) : State :=
  let r (i : Nat) : Nat := b2n (bit env.refs i)
  let s1 := (List.range 8).foldl (fun (t : State) (i : Nat) => t.setF (Rg.PWR_GPIO_CFG 1 i) Fd.PWR_GPIO_CFG_IN (b2n (bit env.straps i)))
    (s.wr (Rg.PWR_STRAP 1) (env.straps % 256))
  (s1.wr (Rg.CLK_STAT 0) (2 ^ 31 + r 0 * 2 ^ 29 + r 1 * 2 ^ 28 + (1 - r 1) * 2 ^ 26)).wr (Rg.CLK_STAT 1)
    (2 ^ 31 + r 2 * 2 ^ 29 + r 3 * 2 ^ 28 + r 4 * 2 ^ 27 + (1 - r 2) * 2 ^ 26 + env.twDelay % 256)

/-- A device reset with its cause: everything returns to its reset value but what eMRAM keeps, the fuses, and the levels on the pins. -/
def State.deviceReset (s : State) (cause : Nat) (warm : Option Int) : State :=
  let z : State := { State.reset with
    part := s.part, out := s.out, free := s.free, rsp := s.rsp, pending := s.pending
    regs := s.regs.filter fun e => eMramReg e.1
    tbls := s.tbls.filter fun e => eMramTbl e.1
    marks := s.marks.filter fun e => e.1 / 2 ^ 64 == Pg.EMRAM / 0x1000
    ra := ({ cam := [], repaired := s.ra.repaired } : RasSt).reapply [0, 1]
    lg := { recs := s.lg.recs }
    up := { valid := s.up.valid, digests := s.up.digests, key0 := s.up.key0 }
    hb := { ppr := s.hb.ppr }
    pcie0 := { perst := s.pcie0.perst }
    pcie1 := { perst := s.pcie1.perst }
    pw := { por := s.pw.por, sup := s.pw.sup, trip := s.pw.trip, tripPin := s.pw.tripPin, lastWarm := warm, bootLog := some (cause, 1, 49600000) } }
  let z1 := (z.wr (Rg.PWR_RESET_CAUSE 0) cause).wr (Rg.PWR_RESET_CAUSE 1) cause
  if s.pw.alertPin then z1.emit (.pin "THERM_ALERT_N" true) else z1

/-- The time since the last WARM_RST_N reset carried over a reset, whose tick 0 lies 200 µs after its start (R382, R385). -/
def State.warmCarry (s : State) (clk : Nat) : Option Int := s.pw.lastWarm.map fun t => t - (s.at clk : Int) - 400000

/-- PORESET_N is released (R381, R382): with cause THERMTRIP, and the record cleared, after a trip. -/
def State.powerOn (s : State) (env : BootEnv) : State :=
  let s1 : State := { s with pw := { s.pw with por := false, sup := false, trip := false, tripPin := false } }
  (s1.deviceReset (if s.pw.trip then 5 else 1) none).boot env

/-- POWER_ON (R381). -/
def execPowerOn (env : BootEnv) (s : State) : Out := .next (s.powerOn env)

/-- PORESET_N is driven low: the device is held in reset, and THERM_TRIP_N released (R381, R389). -/
def State.poreset (s : State) : State :=
  let s1 := if s.pw.tripPin then s.emit (.pin "THERM_TRIP_N" true) else s
  { s1 with pw := { s1.pw with por := true, tripPin := false } }

/-- PORESET_ASSERT (R381). -/
def execPoresetAssert (s : State) : Out := .next s.poreset

/-- WARM_RST_N asserted: a device reset at most once per 100 ms, 200,000,000 core clocks (R381, R385). -/
def State.warmPin (s : State) (clk : Nat) (env : BootEnv) : State :=
  if s.pw.por || s.pw.sup then s
  else if s.pw.lastWarm.any fun t => decide ((s.at clk : Int) - t < 200000000) then s.bump (Rg.PWR_WARM_IGNORED_CNT 1)
  else (s.deviceReset 2 (some (-400000))).boot env

/-- WARM_PIN (R381). -/
def execWarmPin (clk : Nat) (env : BootEnv) (s : State) : Out := .next (s.warmPin clk env)

/-- A rail leaves its tolerance: the device is held in reset (R378). -/
def State.supplyLost (s : State) : State :=
  if s.pw.por || s.pw.sup then s else (({ s with pw := { s.pw with sup := true } } : State).deviceReset 4 none)

/-- SUPPLY (R378). -/
def execSupply (s : State) : Out := .next s.supplyLost

/-- Every rail is back for 1 ms: the SUPPLY reset ends (R378, R382). -/
def State.supplyBack (s : State) (env : BootEnv) : State :=
  if !s.pw.sup || s.pw.por then s else ((({ s with pw := { s.pw with sup := false } } : State).deviceReset 4 none).boot env)

/-- SUPPLY_RESTORED (R378). -/
def execSupplyRestored (env : BootEnv) (s : State) : Out := .next (s.supplyBack env)

/-! ## The F-die reset (R381) -/

/-- What lies on the F-die returned to its reset state. -/
def State.loseF (s : State) : State :=
  let t (page : Nat) : Bool := decide (0x1000 ≤ page)
  { s with
    regs := s.regs.filter fun e => t (e.1 / 0x1000) || e.1 == Rg.RAS_REPAIR_USED 0
    shadows := s.shadows.filter fun e => t (e.1 / 0x1000)
    prevSt := s.prevSt.filter fun e => t (e.1 / 0x1000)
    tblPending := s.tblPending.filter fun pg => t (pg / 0x1000)
    hiLatch := s.hiLatch.filter fun e => t (e.1 / 0x4000)
    loHeld := s.loHeld.filter fun e => t (e.1 / 0x4000)
    tbls := s.tbls.filter fun e => t (e.1 / 2 ^ 38)
    marks := s.marks.filter fun e => t (e.1 / 2 ^ 64)
    tblRun := s.tblRun.filter fun e => t e.1
    refill := s.refill.filter t
    softWait := s.softWait.filter t
    tk := { count := s.tk.count, base := s.tk.count, start := s.tk.start }
    cm := { gen := s.cm.gen, applied := s.cm.applied }
    ra := { (s.ra.reapply [0]) with
      ceSec := s.ra.ceSec.filter fun e => e.1 / 16 != 0
      ueLogged := s.ra.ueLogged.filter fun pg => t (pg / 0x1000)
      rw := s.ra.rw.filter fun e => 7 ≤ e.1
      hist := s.ra.hist.filter fun e => 7 ≤ e.1 }
    lg := { s.lg with held := [], heldDropped := 0 }
    ptp := { since := s.tk.start }
    ports := [], macQ := [], flexe := [], slices := [], moveIn := none, moveEg := none, evacIn := none, evacEg := none
    macTx := [], classLog := [], classWalk := [], terrLog := [], terrWalk := [], liveClr := []
    ln := {}, apCtx := [], apThr := [], apSup := [], locks := [], chans := [], apProt := []
    eg := { s.eg with txing := [] }
    te := { s.te with frz := none, pm := s.te.pm.filter fun e => 64 ≤ e.1 }
    sv := { s.sv with c0 := {}, hold := none, missed := [] }
    pw := { s.pw with
      rise := s.pw.rise.filter (64 ≤ ·), wait := s.pw.wait.filter (64 ≤ ·), fall := s.pw.fall.filter (64 ≤ ·)
      by' := s.pw.by'.filter fun e => 64 ≤ e.1
      bootLog := some (6, 0, s.tk.start + 49800000) } }

/-- An F-die reset (R381): the T-die finds the link DOWN and both paths gone, and keeps running. -/
def State.fdieReset (s : State) (env : BootEnv) : State :=
  let s1 := ({ s with d2 := { s.d2 with trained := false, training := true } } : State).d2dEval false
  let s2 := s1.withPaths fun t => { t with d2 := { t.d2 with mgmtUp := false } }
  let fparts := 0 :: (List.range 26).map (2 + ·)
  let s3 := fparts.foldl State.dropPart s2.loseF
  let s4 : State := { s3 with d2 := { s3.d2 with minF := 4, rxF := List.replicate 16 {} } }
  let r (i : Nat) : Nat := b2n (bit env.refs i)
  (s4.wr (Rg.PWR_RESET_CAUSE 0) 6).wr (Rg.CLK_STAT 0) (2 ^ 31 + r 0 * 2 ^ 29 + r 1 * 2 ^ 28 + (1 - r 1) * 2 ^ 26)

/-- A write of PWR_RESET (R381): refused without its key; DEVICE takes precedence over FDIE. -/
def State.pwrResetWrite (s : State) (clk v : Nat) (env : BootEnv) : State :=
  if bits v 24 8 ≠ 0xA5 then s.powerRefuse 1
  else if bit v 0 then (s.deviceReset 3 (s.warmCarry clk)).boot env
  else if bit v 1 then s.fdieReset env
  else s

/-- SOFT (R381). -/
def execSoft (a : Acc) (v : Word) (env : BootEnv) (s : State) : Out :=
  .next (s.onWrite a (Rg.PWR_RESET 1) fun t => t.pwrResetWrite a.clk v.toNat env)

/-- FDIE (R381). -/
def execFdie (a : Acc) (v : Word) (env : BootEnv) (s : State) : Out :=
  .next (s.onWrite a (Rg.PWR_RESET 1) fun t => t.pwrResetWrite a.clk v.toNat env)

/-! ## Temperatures (R389) -/

/-- Whether any die or stack stands at its alert threshold. -/
def State.hot (s : State) : Bool :=
  ([0, 1].any fun d => decide (s.f (Rg.PWR_TEMP d) Fd.PWR_TEMP_ALERT ≤ s.f (Rg.PWR_TEMP d) Fd.PWR_TEMP_TEMP)) ||
    (List.range s.part.stacks).any fun k => s.pageOn (Pg.HBMC k / 0x1000) &&
      decide (s.f (Rg.HBMC_TEMP k) Fd.HBMC_TEMP_ALARM ≤ s.f (Rg.HBMC_TEMP k) Fd.HBMC_TEMP_TEMP)

/-- THERM_ALERT_N brought to the temperatures; as it asserts, the I3C target raises an in-band interrupt (R386, R389). -/
def State.alertEval (s : State) : State :=
  if s.hot = s.pw.alertPin then s
  else
    let t := ({ s with pw := { s.pw with alertPin := s.hot } } : State).emit (.pin "THERM_ALERT_N" !s.hot)
    if s.hot then t.emit (.pin "I3C_IBI" true) else t

/-- The hottest sensor of a die read: TEMP and PEAK, and TEMP_ALERT as it reaches ALERT. -/
def State.dieTemp (s : State) (d temp : Nat) : State :=
  let a := Rg.PWR_TEMP d
  let x := min 255 temp
  let was := decide (s.f a Fd.PWR_TEMP_ALERT ≤ s.f a Fd.PWR_TEMP_TEMP)
  let s1 := (s.setF a Fd.PWR_TEMP_TEMP x).setF a Fd.PWR_TEMP_PEAK (max (max x (s.f a Fd.PWR_TEMP_TEMP)) (s.f a Fd.PWR_TEMP_PEAK))
  s1.setIntIf (!was && decide (s.f a Fd.PWR_TEMP_ALERT ≤ x)) (Pg.PWR d) Ib.PWR_TEMP_ALERT

/-- A temperature of a die (sites 0 and 1) or of a stack (2 to 5) changes (R389). -/
def State.thermal (s : State) (site temp : Nat) : State :=
  if s.pw.por || s.pw.sup then s
  else if site < 2 then (s.dieTemp site temp).alertEval
  else if site < 2 + s.part.stacks ∧ s.pageOn (Pg.HBMC (site - 2) / 0x1000) then (s.hbmTemp (site - 2) (min 255 temp)).alertEval
  else s

/-- THERMAL_ALERT (R389). -/
def execThermalAlert (site temp : Nat) (s : State) : Out := .next (s.thermal site temp)

/-- A die reaches 120 °C (R389): THERM_TRIP_N, the record in eMRAM, and every switched domain off. -/
def State.thermalTrip (s : State) (d : Nat) : State :=
  if s.pw.por || s.pw.sup || s.pw.tripPin then s else
  let s0 := (s.dieTemp d (max 120 (s.f (Rg.PWR_TEMP d) Fd.PWR_TEMP_TEMP))).alertEval
  let s1 := ({ s0 with pw := { s0.pw with trip := true, tripPin := true, rise := [], wait := [], fall := [] } } : State).emit (.pin "THERM_TRIP_N" false)
  [0, 1].foldl (fun (t : State) (die : Nat) =>
    (t.part.doms die).foldl (fun (u : State) (k : Nat) => if u.domOn die k then (u.loseDomain die k).setDom die k false else u) t) s1

/-- THERMAL_TRIP (R389). -/
def execThermalTrip (die : Nat) (s : State) : Out := .next (s.thermalTrip (die % 2))

/-! ## Reference clocks (R379, R380) -/

/-- A reference: the die whose CLK page reports it, its place there, and the PCIe port it feeds. References are numbered as in `BootEnv`. -/
def refPlace (r : Nat) : Nat × Nat × Option Nat :=
  if r = 0 then (0, 0, none) else if r = 1 then (0, 1, none) else if r = 2 then (1, 0, none)
  else if r = 3 then (1, 1, some 0) else (1, 2, some 1)

/-- Bit of CLK_STAT that shows the reference at place `i`. -/
def refOk (i : Nat) : Fld := if i = 0 then Fd.CLK_STAT_REF_A_OK else if i = 1 then Fd.CLK_STAT_REF_B_OK else Fd.CLK_STAT_REF_C_OK

/-- A reference is declared lost (R380). The lanes of a side that does not fall back lose CDR lock as their own events. -/
def State.refLoss (s : State) (r : Nat) : State :=
  let x := refPlace r
  let st := Rg.CLK_STAT x.1
  if 4 < r ∨ s.pw.por ∨ s.pw.sup ∨ !s.fb st (refOk x.2.1) then s else
  let s1 := ((s.setF st (refOk x.2.1) 0).bump (Rg.CLK_REF_A_LOSS_CNT x.1 + 4 * x.2.1)).setInt (Pg.CLK x.1) Ib.CLK_REF_LOSS
  match x.2.2 with
  | some p => s1.linkDown p
  | none =>
    if r = 0 then s1.setF st Fd.CLK_STAT_HOLDOVER 1
    else if s1.fb (Rg.CLK_CFG x.1) Fd.CLK_CFG_REF_FALLBACK then (s1.setF st Fd.CLK_STAT_FALLBACK 1).setInt (Pg.CLK x.1) Ib.CLK_FALLBACK
    else s1

/-- REF_LOSS (R380). -/
def execRefLoss (ref : Nat) (s : State) : Out := .next (s.refLoss ref)

/-- A lost reference is declared back (R380). -/
def State.refReturn (s : State) (r : Nat) : State :=
  let x := refPlace r
  let st := Rg.CLK_STAT x.1
  if 4 < r ∨ s.pw.por ∨ s.pw.sup ∨ s.fb st (refOk x.2.1) then s else
  let s1 := s.setF st (refOk x.2.1) 1
  if r = 0 then s1.setF st Fd.CLK_STAT_HOLDOVER 0
  else if r < 3 ∧ s1.fb st Fd.CLK_STAT_FALLBACK then (s1.setF st Fd.CLK_STAT_FALLBACK 0).setInt (Pg.CLK x.1) Ib.CLK_FALLBACK
  else s1

/-- REF_RETURN (R380). -/
def execRefReturn (ref : Nat) (s : State) : Out := .next (s.refReturn ref)

/-! ## PERST_N and GPIO (R382 to R385) -/

/-- PCIEn_PERST_N changes (R382, R385): low drops the port's link, high lets it train. -/
def State.perst (s : State) (p : Nat) (level : Bool) : State :=
  let s1 := if level then s else s.linkDown p
  s1.setPcie p { s1.pcie p with perst := !level }

/-- PERST (R385). -/
def execPerst (port : Nat) (level : Bool) (s : State) : Out := .next (s.perst (port % 2) level)

/-- A filtered edge of a GPIO pin (R384, R385): IN follows; an input or WAKE pin raises an event at most once per RATE_MS, and a rising edge of a WAKE
pin ends standby (R377). -/
def State.gpioEdge (s : State) (i : Nat) (level : Bool) (clk : Nat) : State :=
  let a := Rg.PWR_GPIO_CFG 1 i
  if 8 ≤ i ∨ s.pw.por ∨ s.pw.sup ∨ s.fb a Fd.PWR_GPIO_CFG_IN = level then s else
  let s1 := s.setF a Fd.PWR_GPIO_CFG_IN (b2n level)
  let mode := s.f a Fd.PWR_GPIO_CFG_MODE
  if mode = 1 ∨ mode = 2 then s1 else
  let last := sget 0 s.pw.gpioAt i
  if last ≠ 0 ∧ s.at clk < last - 1 + 2000000 * s.f a Fd.PWR_GPIO_CFG_RATE_MS then s1.bump (Rg.PWR_GPIO_RATE_CNT 1)
  else
    let s2 := ({ s1 with pw := { s1.pw with gpioAt := sset 0 s1.pw.gpioAt i (s.at clk + 1) } } : State).setInt (Pg.PWR 1) Ib.PWR_GPIO
    if mode = 3 ∧ level then s2.stbyExit else s2

/-- GPIO_EVENT (R385). -/
def execGpioEvent (pin : Nat) (level : Bool) (clk : Nat) (s : State) : Out := .next (s.gpioEdge pin level clk)

/-- GPIO_WAKE (R377): a rising edge of a pin in mode WAKE. -/
def execGpioWake (pin clk : Nat) (s : State) : Out :=
  .next (if s.f (Rg.PWR_GPIO_CFG 1 pin) Fd.PWR_GPIO_CFG_MODE = 3 then s.gpioEdge pin true clk else s)

/-- POWER_ON logged with its cause 25 ms after the reset sequence began (R382, R354), looked for at each boundary. -/
def State.bootTick (s : State) : State :=
  match s.pw.bootLog with
  | none => s
  | some (cause, die, due) =>
    if s.tk.start < due then s else
    (({ s with pw := { s.pw with bootLog := none } } : State).log (Pg.PWR die) 0x0001 cause)

end Sys2Proof.Machine
end

