-- ==== Sys2Proof/Machine/Pages.lean ====
section
/-! DEFINITION. The common page header's commands (chapter 18, R396, R398, R400): ENABLE, SOFT_RESET, POWER_REQ, PG_INT_SET, PG_STAGE_CTRL. -/
namespace Sys2Proof.Machine

/-! ## Soft reset (R396) -/

/-- A limited reset: counters, overflow bits, error capture, PG_INT_STAT and PG_INT_FIRST, and the latches and held halves of 64-bit values (R15). -/
def State.limitedReset (s : State) (page : Nat) : State :=
  let cleared (addr : Nat) : Bool :=
    let off := addr % 0x1000
    addr / 0x1000 == page && (off == 0x010 || off == 0x01C || off == 0x020 || off == 0x024 || off == 0x028 || decide (0x040 ≤ off ∧ off < 0x07C) ||
      (decide (0x100 ≤ off) && (findReg addr).any (·.cnt)))
  { s with
    regs := s.regs.filter fun e => !cleared e.1
    hiLatch := s.hiLatch.filter fun e => e.1 / 0x4000 != page
    loHeld := s.loHeld.filter fun e => e.1 / 0x4000 != page }

/-- A full reset: every field, shadow and table of the page, and what its block holds outside them. -/
def State.fullReset (s : State) (page : Nat) : State :=
  let n := page % 0x1000
  let s1 :=
    if page < 0x1000 then
      if 0x010 ≤ n ∧ n < 0x018 then s.wipeLine (n - 0x010)
      else if 0x040 ≤ n ∧ n < 0x049 then s.wipeSlice 0 (n - 0x040)
      else if 0x050 ≤ n ∧ n < 0x059 then s.wipeSlice 1 (n - 0x050)
      else if 0x060 ≤ n ∧ n < 0x072 then s.wipeAp (n - 0x060)
      else if n = 0x0C0 then s.setSc 0 {}
      else s
    else
      if 0x040 ≤ n ∧ n < 0x04C then s.wipeLanes (n - 0x040)
      else if 0x060 ≤ n ∧ n < 0x064 then s.wipeHbm (n - 0x060)
      else if n = 0x080 then s.setSc 1 {}
      else if n = 0x090 ∨ n = 0x091 then s.losePcie (n - 0x090)
      else s
  (s1.losePages [page]).scUpdate

/-- A soft reset that has found no table command running, or the end of one: full where the page's domains would take a power-off now. -/
def State.softNow (s : State) (page by' : Nat) : State := if s.pageOffOk page by' then s.fullReset page else s.limitedReset page

/-- A write of 1 to SOFT_RESET: the reset waits for a running table command. -/
def State.softReset (s : State) (page by' : Nat) : State :=
  if !shas s.tblRun page then s.softNow page by'
  else if s.softWait.contains page then s
  else { s with softWait := page :: s.softWait }

/-! ## PG_CTRL (R396) -/

/-- A write of ENABLE: EQS stops or resumes, an HBM controller places its ranks in self-refresh or resumes, every other page refuses a 0. -/
def State.pgEnable (s : State) (page : Nat) (on : Bool) : State :=
  if page = Pg.EQS / 0x1000 then s.wr (Pg.EQS + 0x008) (setBits (s.rd (Pg.EQS + 0x008)) 31 1 (b2n on))
  else if 0x1060 ≤ page ∧ page < 0x1064 then s.hbmEnable (page - 0x1060) on
  else if on then s else s.setInt (page * 0x1000) 27

/-- POWER_REQ as a read shows it: the request of the page's domains, 1 in an AO domain (R375, R396). -/
def State.pagePowerReq (s : State) (page : Nat) : Bool :=
  (pageDoms page).all fun x => bit (s.rd (Rg.PWR_DOM_REQ x.1 (x.2 / 32))) (x.2 % 32)

/-- A write of PG_CTRL: ENABLE, then SOFT_RESET, then POWER_REQ. -/
def State.pgCtrlWrite (s : State) (page v by' : Nat) : State :=
  let s1 := s.pgEnable page (bit v 31)
  let s2 := if bit v 30 then s1.softReset page by' else s1
  if bit v 29 = s2.pagePowerReq page then s2 else s2.pagePower page (bit v 29) by'

/-- SOFT_RESET (R396). -/
def execSoftReset (a : Acc) (page : Nat) (v : Word) (s : State) : Out :=
  .next (s.onWrite a (page * 0x1000 + 0x008) fun t => t.pgCtrlWrite page v.toNat (reqNo a.req))

/-- ENABLE (R396). -/
def execEnable (a : Acc) (page : Nat) (v : Word) (s : State) : Out :=
  .next (s.onWrite a (page * 0x1000 + 0x008) fun t => t.pgCtrlWrite page v.toNat (reqNo a.req))

/-- Whether an address is a word of PWR_DOM_REQ: its die and word. -/
def domReqAt (addr : Nat) : Option (Nat × Nat) :=
  [(0, 0), (0, 1), (1, 0), (1, 1)].find? fun x => addr == Rg.PWR_DOM_REQ x.1 x.2

/-- A write that carries power requests: PWR_DOM_REQ or PG_CTRL (R375). -/
def State.powerWrite (s : State) (addr v by' : Nat) : State :=
  match domReqAt addr with
  | some (die, w) => s.reqWrite die w v by'
  | none => if addr % 0x1000 = 0x008 then s.pgCtrlWrite (addr / 0x1000) v by' else s

/-- POWER_REQUEST (R375). -/
def execPowerRequest (a : Acc) (addr : Nat) (v : Word) (s : State) : Out :=
  .next (s.onWrite a addr fun t => t.powerWrite addr v.toNat (reqNo a.req))

/-! ## PG_INT_SET and PG_STAGE_CTRL -/

/-- PG_INT_SET (R398). -/
def execPgIntSet (a : Acc) (page : Nat) (v : Word) (s : State) : Out :=
  .next (s.onWrite a (page * 0x1000 + 0x018) fun t => t.setInts (page * 0x1000) (v.toNat &&& intMask page))

/-- PG_STAGE_CTRL.DISCARD (R400): the page's shadows return to their live values, or the write is late. -/
def State.stageDiscard (s : State) (page : Nat) : State :=
  if s.stageOpen then { s with shadows := s.shadows.filter fun e => e.1 / 0x1000 != page } else s.lateWrite

/-- PAGE_STAGE_DISCARD (R400). -/
def execPageStageDiscard (a : Acc) (page : Nat) (s : State) : Out :=
  .next (s.onWrite a (page * 0x1000 + 0x030) fun t => t.stageDiscard page)

end Sys2Proof.Machine
end

