-- ==== Sys2Proof/Machine/Tbl.lean ====
section
/-! DEFINITION. The table command interface (chapter 7, R164 to R166; chapter 18, R401): one command per page at a time, dispatched to the
page's tables; and the tables that have no other home: PARSE (R107, R109, R128), FLEXE (R78), STEER and HBMC. -/
namespace Sys2Proof.Machine

/-! ## Tables of PARSE, FLEXE, STEER and HBMC -/

/-- Whether a parse node entry may be written (R107). -/
def nodeOk (e : Nat) : Bool :=
  bits e 87 2 != 3 && bits e 48 8 != 0 && decide (bits e 35 4 ≤ 8) && decide (bits e 22 4 ≤ 8) && bits e 13 2 != 3

/-- A command of page PARSE (R107, R109, R128, R129). -/
def State.parseCmd (s : State) (op addr data : Nat) : State × TblAns :=
  let copy := bits addr 12 2
  let tr := bits addr 10 1
  let i := addr % 1024
  let mem := 2 * (if copy = 0 ∧ !s.versioned then 1 else copy) + tr
  if op ≠ opRead ∧ op ≠ opWrite then (s, ans stUnsupported)
  else if copy = 3 ∨ (tr = 0 ∧ 128 ≤ i) then (s, ans stBadAddr)
  else if op = opRead then
    let r := s.readWord Pg.PARSE 4 mem i
    if r.2 then (r.1, { st := stOk, data := some (r.1.tbl Pg.PARSE mem i) })
    else (r.1.draw, { st := stUncorr, data := some (r.1.freeVal 96) })
  else if copy ≠ 0 then (s, ans stReadOnly)
  else if s.versioned && !s.stageOpen then s.lateTbl
  else
    let e := if tr = 0 then data % 2 ^ 96 / 2 ^ 13 * 2 ^ 13 else data % 2 ^ 48
    if tr = 0 ∧ !nodeOk e then (s, ans stBadData)
    else
      let s1 := s.putEntry Pg.PARSE mem i 1 e
      (if s.versioned then s1.addPending Pg.PARSE else s1, ans stOk)

/-- A command of page FLEXE`e`: connection memory (R78). -/
def State.flexeCmd (s : State) (e op addr data : Nat) : State × TblAns :=
  let page := bits addr 14 2
  let k := bits addr 11 3
  let slot := addr % 2 ^ 11
  let i := addr % 2 ^ 16
  let used := if page < 2 then page == s.f (Rg.FLEXE_GRP_CFG e k) Fd.FLEXE_GRP_CFG_TX_CAL else page == s.rxPage e k
  if op ≠ opRead ∧ op ≠ opWrite then (s, ans stUnsupported)
  else if s.flexSlots e k ≤ slot then (s, ans stBadAddr)
  else if op = opRead then (s, { st := stOk, data := some (s.tbl (Pg.FLEXE e) 0 i) })
  else if used then (s, ans stNotAllowed)
  else (s.setTbl (Pg.FLEXE e) 0 i (data % 256 &&& 0x9F), ans stOk)

/-- A command of page STEER: the bucket tables (chapter 4). -/
def State.steerCmd (s : State) (op addr data : Nat) : State × TblAns :=
  let d := bits addr 14 1
  let i := addr % 2 ^ 14
  if op = opRead then
    -- a bucket entry is held twice and served from the good copy (R305)
    ((s.readWord Pg.STEER 4 d i).1, { st := stOk, data := some (s.tbl Pg.STEER d i) })
  else if op ≠ opWrite then (s, ans stUnsupported)
  else
    let r := s.steerTblWrite d i (data % 16)
    (if r.2 = stOk then r.1.wroteWord Pg.STEER d i else r.1, ans r.2)

/-- A command of page HBMC`k`: the rank table, which may only be read. -/
def State.hbmcCmd (s : State) (k op addr : Nat) : State × TblAns :=
  if op = opRead then (s, { st := stOk, data := some (s.tbl (Pg.HBMC k) 0 (addr % 64)) }) else (s, ans stUnsupported)

/-! ## Dispatch -/

/-- A command of a page with TBL_ADDR and TBL_DATA as they stand: its effect and its answer. -/
def State.tblExec (s : State) (a : Acc) (page op : Nat) : State × TblAns :=
  let pg := page * 0x1000
  let addr := s.rd (pg + 0xF04)
  let data := (List.range 16).foldl (fun x j => x + s.rd (pg + 0xF10 + 4 * j) * 2 ^ (32 * j)) 0
  let now := s.at a.clk
  if page < 0x1000 then
    if page = 0x020 ∨ page = 0x021 then s.flexeCmd (page - 0x020) op addr data
    else if page = 0x030 then s.steerCmd op addr data
    else if 0x060 ≤ page ∧ page < 0x072 then s.apcCmd (page - 0x060) op addr data
    else if page = 0x080 then s.parseCmd op addr data
    else if 0x090 ≤ page ∧ page < 0x098 then s.terrCmd (page - 0x090) op addr data
    else if page = 0x098 then s.pivotCmd op addr data
    else if page = 0x099 then s.aclCmd op addr data
    else if page = 0x0A0 then s.exmCmd op addr data
    else if page = 0x0B0 then s.nhopCmd op addr data now
    else if page = 0x0F0 then s.cntFCmd op addr
    else (s, ans stUnsupported)
  else if page = 0x1010 then s.voqCmd op addr data
  else if page = 0x1011 then s.admCmd op addr data
  else if page = 0x1020 then s.eqsCmd op addr data now
  else if page = 0x1021 then s.shpCmd op addr data
  else if page = 0x1022 then s.polCmd op addr data now
  else if page = 0x1023 then s.gateCmd op addr data
  else if page = 0x1024 then s.latCmd op addr data
  else if page = 0x1050 then s.fcellCmd op addr data
  else if 0x1060 ≤ page ∧ page < 0x1064 then s.hbmcCmd (page - 0x1060) op addr
  else if page = 0x1081 then s.updCmd a op addr data
  else if page = 0x1082 then s.emramCmd a.req op addr data
  else if page = 0x1092 then s.dmaCmd op addr data
  else if page = 0x1093 then s.irqCmd op addr data
  else if page = 0x10C0 then s.cntTCmd op addr data
  else (s, ans stUnsupported)

/-- The PG_INT_STAT bit that a status other than OK sets in a page: TBL_REFUSED, or REFUSED where the page has no such bit; none in EMRAM and
IRQ (R165). -/
def tblRefusedBit (page : Nat) : Option Nat :=
  if page = 0x020 ∨ page = 0x021 then some Ib.FLEXE_TBL_REFUSED
  else if page = 0x030 then some Ib.STEER_TBL_REFUSED
  else if 0x060 ≤ page ∧ page < 0x072 then some Ib.APC_TBL_REFUSED
  else if page = 0x080 then some Ib.PARSE_TBL_REFUSED
  else if 0x090 ≤ page ∧ page < 0x098 then some Ib.TERR_TBL_REFUSED
  else if page = 0x098 then some Ib.TERR_CTL_TBL_REFUSED
  else if page = 0x099 then some Ib.ACL_TBL_REFUSED
  else if page = 0x0A0 then some Ib.EXM_TBL_REFUSED
  else if page = 0x0B0 then some Ib.NHOP_TBL_REFUSED
  else if page = 0x0F0 then some Ib.CNT_F_REFUSED
  else if page = 0x1010 then some Ib.VOQ_TBL_REFUSED
  else if page = 0x1011 then some Ib.ADM_TBL_REFUSED
  else if page = 0x1020 then some Ib.EQS_TBL_REFUSED
  else if page = 0x1021 then some Ib.SHP_TBL_REFUSED
  else if page = 0x1022 then some Ib.POL_TBL_REFUSED
  else if page = 0x1023 then some Ib.GATE_TBL_REFUSED
  else if page = 0x1024 then some Ib.LAT_TBL_REFUSED
  else if page = 0x1050 then some Ib.FCELL_TBL_REFUSED
  else if 0x1060 ≤ page ∧ page < 0x1064 then some Ib.HBMC_REFUSED
  else if page = 0x1081 then some Ib.UPD_REFUSED
  else if page = 0x1092 then some Ib.DMA_REFUSED
  else if page = 0x10C0 then some Ib.CNT_T_TBL_REFUSED
  else none

/-- The registers and the flag that a completed command leaves (R165). BUSY stays 1 while the page's staged copy is refilled (R128). -/
def State.tblFinish (s : State) (page op st moves : Nat) (data : Option Nat) : State :=
  let pg := page * 0x1000
  let s1 := match data with
    | none => s
    | some v => (List.range 16).foldl (fun t j => t.wr (pg + 0xF10 + 4 * j) (bits v (32 * j) 32)) s
  let s2 := s1.wr (pg + 0xF08) (b2n (s.refill.contains page) * 2 ^ 31 + bits (s1.rd (pg + 0xF08)) 30 1 * 2 ^ 30 + min 255 moves * 2 ^ 8 + st % 256)
  if st = stOk ∨ (op = opSearch ∧ st = stNotFound) then s2
  else match tblRefusedBit page with
    | some b => s2.setInt pg b
    | none => s2

/-- A write ignored while BUSY is 1 (R165). -/
def State.tblOverrun (s : State) (page : Nat) : State := s.setF (page * 0x1000 + 0xF08) ⟨30, 1⟩ 1

/-- Whether a page has the table command interface. -/
def hasTables (page : Nat) : Bool := (findPage page).any (·.tables)

/-- A write of TBL_CMD (R165): ignored while a command runs, refused as busy during a refill (R128), completed at once for an unlisted OP;
else the command acts on its table and runs until TBL_COMMAND_DONE. -/
def State.tblStart (s : State) (a : Acc) (page op : Nat) : State :=
  if !hasTables page then s
  else if shas s.tblRun page then s.tblOverrun page
  else if s.refill.contains page then s.tblFinish page op stBusy 0 none
  else if op = 0 ∨ 7 < op then s.tblFinish page op stUnsupported 0 none
  else
    let r := s.tblExec a page op
    ({ r.1 with tblRun := sset none r.1.tblRun page (some (op, r.2.st, r.2.moves, r.2.data)) } : State).setF (page * 0x1000 + 0xF08) ⟨31, 1⟩ 1

/-- A write of TBL_CMD reaches its page. -/
def State.tblCmd (s : State) (a : Acc) (page op : Nat) : State :=
  s.onWrite a (page * 0x1000 + 0xF00) fun t => t.tblStart a page op

/-- TBL_READ (R164). -/
def execTblRead (a : Acc) (page : Nat) (s : State) : Out := .next (s.tblCmd a page opRead)

/-- TBL_WRITE (R164). -/
def execTblWrite (a : Acc) (page : Nat) (s : State) : Out := .next (s.tblCmd a page opWrite)

/-- TBL_INSERT (R162). -/
def execTblInsert (a : Acc) (page : Nat) (s : State) : Out := .next (s.tblCmd a page opInsert)

/-- TBL_DELETE (R164). -/
def execTblDelete (a : Acc) (page : Nat) (s : State) : Out := .next (s.tblCmd a page opDelete)

/-- TBL_MOVE (R124). -/
def execTblMove (a : Acc) (page : Nat) (s : State) : Out := .next (s.tblCmd a page opMove)

/-- TBL_SEARCH (R164). -/
def execTblSearch (a : Acc) (page : Nat) (s : State) : Out := .next (s.tblCmd a page opSearch)

/-- TBL_FLUSH (R164). -/
def execTblFlush (a : Acc) (page : Nat) (s : State) : Out := .next (s.tblCmd a page opFlush)

/-- UNSUPPORTED (R165): a write of TBL_CMD with an OP of its own. -/
def execUnsupported (a : Acc) (page op : Nat) (s : State) : Out := .next (s.tblCmd a page (op % 16))

/-- The running command of a page completes (R165); a soft reset that waited for it starts (R396). -/
def State.tblDone (s : State) (page : Nat) : State :=
  match sget none s.tblRun page with
  | none => s
  | some (op, st, moves, data) =>
    let s1 := ({ s with tblRun := sset none s.tblRun page none } : State).tblFinish page op st moves data
    if s1.softWait.contains page then
      ({ s1 with softWait := s1.softWait.filter (· != page) } : State).softNow page 4
    else s1

/-- TBL_COMMAND_DONE (R165). -/
def execTblCommandDone (page : Nat) (s : State) : Out := .next (s.tblDone page)

end Sys2Proof.Machine
end

