-- ==== Sys2Proof/Machine/Commit.lean ====
section
/-! DEFINITION. Staging and commit (chapter 2, R51 to R63): the commands of CMT, the discard of staged changes, the application of a commit
and the table copies that turn with the version (R53, R128, R142, R204). -/
namespace Sys2Proof.Machine

/-! ## The commit state machine (R58 to R60) -/

/-- CMT_STAT.STATE encodings. -/
abbrev cmOpen : Nat := 0
abbrev cmChecking : Nat := 1
abbrev cmCheckFail : Nat := 2
abbrev cmClosed : Nat := 3
abbrev cmArmed : Nat := 4
abbrev cmMissed : Nat := 5

/-- CMT_STAT.REFUSE codes. -/
abbrev rfWrongState : Nat := 1
abbrev rfNotOwner : Nat := 2
abbrev rfPastEpoch : Nat := 3
abbrev rfVersionBusy : Nat := 4
abbrev rfLinkDown : Nat := 5
abbrev rfModeArmed : Nat := 6

/-- CMT_STAT.STATE. -/
def State.cmtState (s : State) : Nat := s.f Rg.CMT_STAT Fd.CMT_STAT_STATE

/-- Whether a DISCARD runs. -/
def State.cmtBusy (s : State) : Bool := s.fb Rg.CMT_STAT Fd.CMT_STAT_BUSY

/-- CMT_STAT.STATE set. -/
def State.cmtGo (s : State) (st : Nat) : State := s.setF Rg.CMT_STAT Fd.CMT_STAT_STATE st

/-- CMT_STAT.OWNER and NO_OWNER set. -/
def State.cmtOwn (s : State) (owner none' : Nat) : State :=
  (s.setF Rg.CMT_STAT Fd.CMT_STAT_OWNER owner).setF Rg.CMT_STAT Fd.CMT_STAT_NO_OWNER none'

/-- The state returns to OPEN and the owner is cleared. -/
def State.cmtOpen (s : State) : State := (s.cmtGo cmOpen).cmtOwn 0 0

/-- A command ignored for a reason (R59). -/
def State.cmtRefuse (s : State) (code : Nat) : State :=
  ((s.setF Rg.CMT_STAT Fd.CMT_STAT_REFUSE code).bump Rg.CMT_REFUSE_CNT).setInt Pg.CMT Ib.CMT_REFUSED

/-- A write of CMT_STAGE_CLOSE (R58, R60). -/
def State.stageClose (s : State) (who v : Nat) : State :=
  if !bit v 0 then s
  else if !s.stageOpen then s.cmtRefuse rfWrongState
  else ((s.cmtOwn who 0).cmtGo cmChecking).setF Rg.CMT_CHECK_STAT Fd.CMT_CHECK_STAT_DONE 0

/-- CMT_STAGE_CLOSE (R60). -/
def execCmtStageClose (a : Acc) (v : Word) (s : State) : Out :=
  .next (s.onWrite a Rg.CMT_STAGE_CLOSE fun t => t.stageClose (reqNo a.req) v.toNat)

/-- A command of the owner (R58): refused while a DISCARD runs and in OPEN; a stage without an owner is claimed; refused from anyone but
the owner; else `ok` judges it and `eff` is its effect. -/
def State.ownerCmd (s : State) (who : Nat) (ok : State → Option Nat) (eff : State → State) : State :=
  if s.cmtBusy || s.cmtState == cmOpen then s.cmtRefuse rfWrongState
  else
    let s1 := if s.fb Rg.CMT_STAT Fd.CMT_STAT_NO_OWNER then s.cmtOwn who 0 else s
    if s1.f Rg.CMT_STAT Fd.CMT_STAT_OWNER ≠ who then s1.cmtRefuse rfNotOwner
    else match ok s1 with
      | some code => s1.cmtRefuse code
      | none => eff s1

/-- Whether CMT runs in system mode. -/
def State.sysMode (s : State) : Bool := s.fb Rg.CMT_CTRL Fd.CMT_CTRL_COMMIT_MODE

/-- The epoch that targets are compared with (R51). -/
def State.refEpoch (s : State) : Nat := if s.sysMode then s.f Rg.CMT_EPOCH Fd.CMT_EPOCH_SYS else s.f Rg.CMT_EPOCH Fd.CMT_EPOCH_LIVE

/-- Whether a versioned commit must wait for the last one (R54). -/
def State.versionBusy (s : State) : Bool :=
  s.verStage && (s.prevCount != 0 || s.fb Rg.CLASS_LOG_STAT Fd.CLASS_LOG_STAT_CLEANUP || s.fb Rg.TERR_LOG_STAT Fd.TERR_LOG_STAT_CLEANUP)

/-- What refuses an arm for `target` (R60). -/
def State.armRefusal (target : Nat) (s : State) : Option Nat :=
  if s.cmtState ≠ cmClosed ∧ s.cmtState ≠ cmMissed then some rfWrongState
  else if !epochLater target s.refEpoch then some rfPastEpoch
  else if s.versionBusy then some rfVersionBusy
  else if s.d2dDown then some rfLinkDown
  else none

/-- The state ARMED for `target`; in local mode an arm after clock 1,791 waits for the boundary after the next (R61). -/
def State.armTo (target clk : Nat) (s : State) : State :=
  ({ s with cm := { s.cm with apply := false, armLate := !s.sysMode && decide (1791 < clk) } } : State).setF Rg.CMT_STAT Fd.CMT_STAT_TARGET target
    |>.cmtGo cmArmed

/-- A write of CMT_ARM. -/
def State.cmtArm (s : State) (who clk v : Nat) : State :=
  if !bit v 31 then s else s.ownerCmd who (State.armRefusal (v % 4096)) (State.armTo (v % 4096) clk)

/-- CMT_ARM (R60). -/
def execCmtArm (a : Acc) (v : Word) (s : State) : Out := .next (s.onWrite a Rg.CMT_ARM fun t => t.cmtArm (reqNo a.req) a.clk v.toNat)

/-- Whether REOPEN and DISCARD are accepted: in CHECK_FAIL, CLOSED and MISSED. -/
def State.reopenable (s : State) : Bool := s.cmtState == cmCheckFail || s.cmtState == cmClosed || s.cmtState == cmMissed

/-- WRONG_STATE where a condition on the state does not hold. -/
def wrongUnless (c : State → Bool) (s : State) : Option Nat := if c s then none else some rfWrongState

/-- Whether ABORT is accepted at clock `clk`: in ARMED, before the decision point of a tick that leads into the commit (R60). -/
def State.abortable (clk : Nat) (s : State) : Bool := s.cmtState == cmArmed && !(decide (1024 ≤ clk) && s.commitComing)

/-- A write of CMT_CMD: 1 REOPEN, 2 DISCARD, 3 ABORT, 0 nothing; other values are reserved (R17, R60). -/
def State.cmtCmd (s : State) (who clk v : Nat) : State :=
  let c := v % 8
  if c = 1 then s.ownerCmd who (wrongUnless State.reopenable) State.cmtOpen
  else if c = 2 then s.ownerCmd who (wrongUnless State.reopenable) fun t => t.setF Rg.CMT_STAT Fd.CMT_STAT_BUSY 1
  else if c = 3 then s.ownerCmd who (wrongUnless (State.abortable clk)) fun t =>
    ({ t with cm := { t.cm with apply := false, armLate := false } } : State).cmtGo cmClosed
  else s.setIntIf (c != 0) Pg.CMT 29

/-- REOPEN (R60). -/
def execReopen (a : Acc) (s : State) : Out := .next (s.onWrite a Rg.CMT_CMD fun t => t.cmtCmd (reqNo a.req) a.clk 1)

/-- DISCARD (R60). -/
def execDiscard (a : Acc) (s : State) : Out := .next (s.onWrite a Rg.CMT_CMD fun t => t.cmtCmd (reqNo a.req) a.clk 2)

/-- ABORT (R60). -/
def execAbort (a : Acc) (s : State) : Out := .next (s.onWrite a Rg.CMT_CMD fun t => t.cmtCmd (reqNo a.req) a.clk 3)

/-- A write of CMT_CTRL: in ARMED a change of COMMIT_MODE is refused (R63); a change of it sets SYS to LIVE, which it equals in local mode. -/
def State.cmtCtrlWrite (s : State) (v : Nat) : State :=
  if bit v 0 = s.sysMode then s.fieldWrite Rg.CMT_CTRL v
  else if s.cmtState = cmArmed then (s.fieldWrite Rg.CMT_CTRL (setBits v 0 1 (b2n s.sysMode))).cmtRefuse rfModeArmed
  else (s.fieldWrite Rg.CMT_CTRL v).setF Rg.CMT_EPOCH Fd.CMT_EPOCH_SYS (s.f Rg.CMT_EPOCH Fd.CMT_EPOCH_LIVE)

/-- CMT_CTRL_WRITE (R63). -/
def execCmtCtrlWrite (a : Acc) (v : Word) (s : State) : Out := .next (s.onWrite a Rg.CMT_CTRL fun t => t.cmtCtrlWrite v.toNat)

/-- Clock 1,024 of a tick: whether an armed system commit applies at the coming boundary (R62, R47). -/
def State.commitDecision (s : State) : State :=
  let may := s.tkState == tkLocked || (s.tkState == tkFree && s.tk.mode == 2)
  let tag := s.tk.curTag.any fun w => tagCommit w && tagEpoch w == s.f Rg.CMT_STAT Fd.CMT_STAT_TARGET
  { s with cm := { s.cm with
      decided := true
      apply := s.sysMode && s.cmtState == cmArmed && may && tag && !s.d2dDown } }

/-- COMMIT_DECISION (R62). -/
def execCommitDecision (s : State) : Out := .next s.commitDecision

/-! ## Table copies (R128, R142, R204) -/

/-- Tables of a page given the contents of others, all at once, with the errors of their words (whose memory is the table's number plus
`off`): (from, to). -/
def State.copyTables (s : State) (pg off : Nat) (mv : List (Nat × Nat)) : State :=
  let page := pg / 0x1000
  let into (t : Nat) : Bool := mv.any (·.2 == t)
  let tKeep := s.tbls.filter fun e => !(e.1 / 2 ^ 38 == page && into (e.1 / 2 ^ 32 % 64))
  let tNew := s.tbls.flatMap fun e =>
    if e.1 / 2 ^ 38 = page then
      (mv.filter (·.1 == e.1 / 2 ^ 32 % 64)).map fun x => ((page * 64 + x.2) * 2 ^ 32 + e.1 % 2 ^ 32, e.2)
    else []
  let mKeep := s.marks.filter fun e => !(e.1 / 2 ^ 64 == page && decide (off ≤ e.1 / 2 ^ 56 % 256) && into (e.1 / 2 ^ 56 % 256 - off))
  let mNew := s.marks.flatMap fun e =>
    if e.1 / 2 ^ 64 = page ∧ off ≤ e.1 / 2 ^ 56 % 256 then
      (mv.filter (·.1 + off == e.1 / 2 ^ 56 % 256)).map fun x => ((page * 256 + (x.2 + off)) * 2 ^ 56 + e.1 % 2 ^ 56, e.2)
    else []
  { s with
    tbls := tNew.foldl (fun m e => sset (tblReset s.part e.1) m e.1 e.2) tKeep
    marks := mNew.foldl (fun m e => sset {} m e.1 e.2) mKeep }

/-- What becomes of the three copies: staged, current and previous copy of each, as offsets into the page's tables. -/
inductive Turn where
  /-- A versioned commit: current becomes previous, staged current (R53). -/
  | advance
  /-- The staged copy is refilled from the current one (R128). -/
  | refill
  /-- All copies equal the current one, where versioned mode begins (R129). -/
  | one
deriving DecidableEq, Repr

/-- The moves of a turn over copies `first` (staged), `first + step` (current), `first + 2 × step` (previous). -/
def Turn.moves (first step : Nat) : Turn → List (Nat × Nat)
  | .advance => [(first, first + step), (first + step, first + 2 * step), (first + 2 * step, first)]
  | .refill => [(first + step, first)]
  | .one => [(first + step, first), (first + step, first + 2 * step)]

/-- The copies of a page turned. -/
def State.turnPage (s : State) (k : Turn) (page : Nat) : State :=
  if page = 0x080 then s.copyTables Pg.PARSE 0 (k.moves 0 2 ++ k.moves 1 2)
  else if page = 0x098 then s.copyTables Pg.TERR_CTL 0 (k.moves 0 1)
  else if 0x060 ≤ page ∧ page < 0x072 then s.copyTables (page * 0x1000) 28 (k.moves 4 1)
  else s

/-- The pages whose tables are held in three copies. -/
def copyPages : List Nat := [0x080, 0x098] ++ (List.range 18).map (0x060 + ·)

/-- A refill of a page's staged copy starts or ends. -/
def State.setRefill (s : State) (page : Nat) (on : Bool) : State :=
  let s1 : State := { s with refill := if on then page :: s.refill.filter (· != page) else s.refill.filter (· != page) }
  let s2 := s1.setF (page * 0x1000 + 0xF08) ⟨31, 1⟩ (b2n (s1.tblBusy page))
  if 0x060 ≤ page ∧ page < 0x072 then s2.setF (Rg.APC_VER_STAT (page - 0x060)) Fd.APC_VER_STAT_REFILL (b2n on) else s2

/-- The refill of a page ends (R128). -/
def State.refillDone (s : State) (page : Nat) : State :=
  if s.refill.contains page then (s.turnPage .refill page).setRefill page false else s

/-- COPY_REFILL_DONE (R128). -/
def execCopyRefillDone (page : Nat) (s : State) : Out := .next (s.refillDone page)

/-! ## Discard (R60, R400) -/

/-- Markers without the present stage's changes: `none` where the entry was added in it. -/
def State.undoMark (s : State) (m : Nat) : Option Nat :=
  if s.addedNow m then none else some (if bit m 2 && m % 4 == s.stagedVer then m / 8 * 8 else m)

/-- The present stage's changes of one logged classification entry dropped. -/
def State.undoClass (s : State) (kind i : Nat) : State :=
  if kind = 0 then
    let e := s.acl i
    if !aclValid e then s else
    match s.undoMark (aclMarks e) with
    | none => s.aclFree i
    | some m => if m = aclMarks e then s else s.aclPut i (setBits e 756 6 m)
  else
    let c := s.exm (kind - 1)
    let e := s.exmRaw c i
    if !c.valid e then s else
    match s.undoMark (c.marks e) with
    | none => s.exmFree c i
    | some m => if m = c.marks e then s else s.exmPut c i (setBits e (128 * c.width - 7) 6 m)

/-- The present stage's changes of one logged Terrace row dropped. -/
def State.undoTerr (s : State) (x : Nat) : State :=
  let b := x / 16384
  let r := x % 16384
  let e := s.terrShadow b r
  if !trValid e then s else
  match s.undoMark (trMarks e) with
  | none => s.terrFree b r
  | some m => if m = trMarks e then s else s.terrMark b r m

/-- Every staged table change dropped: log entries undone, staged copies as the current ones. -/
def State.dropTables (s : State) : State :=
  let s1 := s.classLog.foldl (fun t e => t.undoClass e.1 e.2) s
  let s2 := s1.terrLog.foldl State.undoTerr s1
  let s3 := ((({ s2 with classLog := [], terrLog := [] } : State).classLogStat).terrLogStat)
  let s4 := if s.versioned then copyPages.foldl (fun t g => t.turnPage .refill g) s3 else s3
  { s4 with tblPending := [] }

/-- A DISCARD ends: shadows equal live, staged table changes are gone, and the state is OPEN (R60). -/
def State.discardDone (s : State) : State :=
  if s.cmtBusy then ((({ s.dropTables with shadows := [] } : State).setF Rg.CMT_STAT Fd.CMT_STAT_BUSY 0).cmtOpen) else s

/-- DISCARD_DONE (R60). -/
def execDiscardDone (s : State) : Out := .next s.discardDone

/-! ## Change-log walks (R54, R127, R142) -/

/-- The walks of the last versioned commit start once no packet carries the previous version. -/
def State.logWalkStart (s : State) : State :=
  if !s.cm.walkDue || s.prevCount != 0 then s
  else (({ s with cm := { s.cm with walkDue := false } } : State).setF Rg.CLASS_LOG_STAT Fd.CLASS_LOG_STAT_CLEANUP 1).setF
    Rg.TERR_LOG_STAT Fd.TERR_LOG_STAT_CLEANUP 1

/-- LOG_WALK_START (R54). -/
def execLogWalkStart (s : State) : Out := .next s.logWalkStart

/-! ## Application (R52, R53) -/

/-- Staged registers of the dies that take the commit made live; the others stay staged. -/
def State.applyOn (s : State) (onF onT : Bool) : State :=
  let takes (e : Nat × Nat) : Bool := if e.1 < 0x1000000 then onF else onT
  let s1 := ({ s with shadows := s.shadows.filter takes } : State).applyShadows
  { s1 with shadows := s.shadows.filter fun e => !takes e }

/-- The table version advances (R53): CMT_VER, the ST values that packets of the previous version use, the copies, and the logs whose
walk is due. `old` is the state before the commit. -/
def State.advanceVersion (s old : State) : State :=
  let cur := old.f Rg.CMT_VER Fd.CMT_VER_CUR
  let s1 := ((s.setF Rg.CMT_VER Fd.CMT_VER_CUR (cur + 1)).setF Rg.CMT_VER Fd.CMT_VER_PREV cur).setF Rg.CMT_VER Fd.CMT_VER_STAGED (cur + 2)
  let s2 := copyPages.foldl (fun t g => if t.pageOn g then (t.turnPage .advance g).setRefill g true else t) s1
  (({ s2 with
    cm := { s2.cm with gen := s2.cm.gen + 1, walkDue := true }
    prevSt := (old.shadows.filter fun e => verPage (e.1 / 0x1000)).map fun e => (e.1, old.rd e.1)
    classWalk := s2.classLog ++ s2.classWalk, classLog := []
    terrWalk := s2.terrLog ++ s2.terrWalk, terrLog := []
    tblPending := [] } : State).classLogStat).terrLogStat

/-- The copies where the commit changes TABLE_MODE to versioned: packets see one copy until the next versioned commit (R129). -/
def State.oneCopy (s : State) : State :=
  { copyPages.foldl (fun t g => t.turnPage .one g) s with prevSt := [] }

/-- What the blocks do at a commit beyond taking their values: gates and ports start over (R65, R77, R245), calendars switch (R79), samplers
restart (R228), the HBM regions are laid out again (R281, R282), and unreachable devices are found (R264). -/
def State.commitHooks (s old : State) (t : Nat) : State :=
  let s1 := ((s.lpCommit old).flexCommit old).gateCommit old t
  let n (x : State) (p : Nat) : Nat := x.f (Rg.MIR_SAMPLE_CFG p) Fd.MIR_SAMPLE_CFG_N
  let s2 : State := { s1 with bf := { s1.bf with samples := s1.bf.samples.filter fun e => n old e.1 == n s e.1 } }
  let size := s.f Rg.HBM_REGION Fd.HBM_REGION_BUF_SIZE != old.f Rg.HBM_REGION Fd.HBM_REGION_BUF_SIZE
  let par := s.f Rg.BUF_CFG Fd.BUF_CFG_RS_PARITY != old.f Rg.BUF_CFG Fd.BUF_CFG_RS_PARITY
  let s3 := if size then s2.flowZero 0 16777216 else s2
  let s4 := if size || par then s3.setBufPages else s3
  if s.rd Rg.FCELL_CAL = old.rd Rg.FCELL_CAL then s4 else s4.unreachRefresh

/-- A commit on the dies that take it, in clock 0 of the tick that begins at core clock `t` (R52). -/
def State.commitDies (s : State) (onF onT : Bool) (t : Nat) : State :=
  let s1 := s.applyOn onF onT
  let s2 := if onF && s.verStage then s1.advanceVersion s else s1
  let s3 := if !s.versioned && s2.versioned then s2.oneCopy else s2
  s3.commitHooks s t

/-- An armed commit applies: what CMT records of it (R60). -/
def State.commitDone (s : State) : State :=
  let target := s.f Rg.CMT_STAT Fd.CMT_STAT_TARGET
  let s1 := s.setF Rg.CMT_EPOCH Fd.CMT_EPOCH_LIVE target
  let s2 := if s.sysMode then s1 else s1.setF Rg.CMT_EPOCH Fd.CMT_EPOCH_SYS target
  ((((s2.wr64 Rg.CMT_LAST_APPLY_LO s.tickCount).bump Rg.CMT_APPLY_CNT).setInt Pg.CMT Ib.CMT_APPLIED).cmtOpen).commitEvent

/-- An armed commit is missed (R62). -/
def State.commitMissed (s : State) : State := ((s.cmtGo cmMissed).bump Rg.CMT_MISSED_CNT).setInt Pg.CMT Ib.CMT_MISSED

/-- SYS after a boundary in system mode, from the last valid tag of the tick that ends (R62). -/
def State.sysUpdate (s : State) (tag : Option Nat) : State :=
  match tag with
  | none => s
  | some w =>
    if !s.sysMode then s else
    let jump := !tagCommit w && tagEpoch w != s.f Rg.CMT_EPOCH Fd.CMT_EPOCH_SYS
    let s1 := s.setF Rg.CMT_EPOCH Fd.CMT_EPOCH_SYS (tagEpoch w)
    if jump then (s1.bump Rg.CMT_EPOCH_JUMP_CNT).setInt Pg.CMT Ib.CMT_EPOCH_JUMP else s1

/-- CMT at the boundary at core clock `t`: the armed commit applies, or finds the link DOWN and is missed (R57); SYS follows the tag; a
commit that is still armed for an epoch that SYS has reached is missed. `onT` is the T-die's decision on the commit strobe (R23). -/
def State.cmtBoundary (s : State) (t : Nat) (tag : Option Nat) (onT : Bool) : State :=
  let due := s.commitComing
  let s0 : State := { s with cm := { s.cm with decided := false, apply := false, armLate := false, planSent := false, planCommit := false, planArrived := false } }
  let s1 :=
    if due && s.d2dDown then s0.commitMissed
    else if due then (s0.commitDies true onT t).commitDone
    else if onT then s0.commitDies false true t
    else s0
  let s2 := s1.sysUpdate tag
  if s2.sysMode && s2.cmtState == cmArmed && !epochLater (s2.f Rg.CMT_STAT Fd.CMT_STAT_TARGET) (s2.f Rg.CMT_EPOCH Fd.CMT_EPOCH_SYS) then s2.commitMissed
  else s2

end Sys2Proof.Machine
end

