-- ==== Sys2Proof/Machine/Boundary.lean ====
section
/-! DEFINITION. The tick boundary (R38): the time base moves on (R37, R45, R46), the T-die settles its strobes (R23), CMT acts (R60 to R62), and
each block does what it does at a boundary. -/
namespace Sys2Proof.Machine

/-- The time base over a boundary: TICK_COUNT and the corrections (R38, R405), TIS (R46), TICK_CTRL.MODE as written (R37, R45), the boundary
to be judged (R404), and the tag that counts as received in the tick that begins (R47). -/
def State.timeTick (s : State) : State :=
  let t := s.tk.start + s.tickLen
  let tis := s.tk.adopt.getD ((s.f Rg.TICK_STAT Fd.TICK_STAT_TIS + 1) % 64)
  let mode := s.f Rg.TICK_CTRL Fd.TICK_CTRL_MODE
  let chg := mode != s.tk.mode
  let k := s.tk
  let b : Bound := ⟨t, tis, 0⟩
  let s1 : State := { s with tk := { k with
    count := k.count + 1
    start := t
    corr := k.nextCorr
    nextCorr := 0
    fixed := false
    mode := mode
    adopt := none
    curTag := if mode = 2 then k.sentTag else none
    sentTag := none
    genCmt := if mode = 2 then k.genCmt else none
    bounds := if mode ≠ 1 then [] else if chg then [b] else k.bounds ++ [b]
    edges := if chg then [] else k.edges
    lastEdge := if chg then none else k.lastEdge
    prevEdge := if chg then none else k.prevEdge
    lastTis := if chg then none else k.lastTis
    tisAge := if chg then 0 else k.tisAge
    noEdge := if chg then 0 else k.noEdge } }
  let s2 := (match k.sentTag with
    | some w => if mode = 2 then s1.wr Rg.TICK_LAST_TAG w else s1
    | none => s1).setF Rg.TICK_STAT Fd.TICK_STAT_TIS tis
  if chg then
    ((s2.setF Rg.TICK_STAT Fd.TICK_STAT_GOOD_RUN 0).setF Rg.TICK_STAT Fd.TICK_STAT_ANOM_RUN 0).tkEnter (if mode = 1 then tkAcquire else tkFree)
  else s2

/-- The loss of SYNC_IN at a boundary: SLEW and LOCKED end in HOLDOVER when no edge was accepted for 8,192 clocks (R45). -/
def State.edgeLost (s : State) : State :=
  if (s.tkState = tkSlew ∨ s.tkState = tkLocked) ∧ (s.tk.lastEdge.any fun l => l + 8192 ≤ s.tk.start) then s.tkEnter tkHoldover else s

/-- Line ports at a boundary; a line group whose image is being loaded stays as it is. -/
def State.portsTick (s : State) : State :=
  (List.range s.part.lanes).foldl (fun t p =>
    if t.up.start.any (fun x => x.1 == 20 + p / 8) then t else t.lpTick p) s

/-- The boundary, with the copies of the tick strobe and of the commit strobe as the T-die samples them, and the scrub classes that carry a
remainder. -/
def State.tickBoundary (s : State) (copies cmtCopies scrub : Nat) : State :=
  if s.pw.por || s.pw.sup then s else
  let tick := voteStrobe copies true
  let cmt := voteStrobe cmtCopies (s.cm.planArrived && s.cm.planCommit)
  let tag := s.tk.curTag
  let s1 := s.timeTick.edgeLost
  let t := s1.tk.start
  let s2 := (s1.freezeTick).ptpTick t
  let s3 := if tick.2 || cmt.2 then (s2.bump (Rg.RAS_TW_DISAGREE_CNT 1)).setInt (Pg.RAS 1) Ib.RAS_TW_DISAGREE else s2
  let s4 := s3.cmtBoundary t tag cmt.1
  let s5 := (((s4.d2dTick).fabTick).nopageTick).shpApply
  ((((s5.portsTick).learnBoundary).scTick).scrubTick scrub).bootTick

/-- TICK_BOUNDARY (R38). -/
def execTickBoundary (copies cmtCopies scrub : Nat) (s : State) : Out := .next (s.tickBoundary copies cmtCopies scrub)

end Sys2Proof.Machine
end

