-- ==== Sys2Proof/Machine/Access.lean ====
section
/-! DEFINITION. Register accesses (R13 to R17, R392 to R400): what a read of any offset of a page returns and does, what a write does, and the
commands that are such accesses. A write to a register whose write is an action acts as that register's own commands do. -/
namespace Sys2Proof.Machine

/-! ## 64-bit values (R15) -/

/-- The _LO registers: first page, pages, first offset, count, stride. The value at offset 0x020 of every page is PG_ERR_ADDR. -/
def loRows : List (Nat × Nat × Nat × Nat × Nat) :=
  [(0x000, 1, 0x108, 1, 8), (0x1000, 1, 0x108, 1, 8), (0x001, 1, 0x128, 1, 8), (0x002, 1, 0x110, 1, 8), (0x010, 8, 0x400, 128, 8),
   (0x028, 1, 0x118, 1, 8), (0x028, 1, 0x12C, 1, 8), (0x040, 9, 0x180, 1, 8), (0x050, 9, 0x180, 1, 8), (0x060, 18, 0x1CC, 1, 8),
   (0x060, 18, 0x200, 1, 8), (0x060, 18, 0x210, 1, 8), (0x098, 1, 0x180, 2, 8), (0x1011, 1, 0x114, 1, 8), (0x1011, 1, 0x180, 1, 8),
   (0x1020, 1, 0x180, 1, 8), (0x1022, 1, 0x180, 3, 8), (0x1038, 8, 0x180, 1, 8), (0x1050, 1, 0x180, 2, 8), (0x1081, 1, 0x110, 1, 8),
   (0x1081, 1, 0x148, 5, 8), (0x1081, 1, 0x188, 5, 8), (0x1082, 1, 0x188, 1, 8), (0x1092, 1, 0x104, 64, 16)]

/-- Whether the register at an address is the _LO half of a 64-bit value. PTP_TOD is latched by its own read (PTP registers). -/
def isLo (addr : Nat) : Bool :=
  let page := addr / 0x1000
  let off := addr % 0x1000
  off == 0x020 || loRows.any fun r => decide (r.1 ≤ page ∧ page < r.1 + r.2.1) && decide (r.2.2.1 ≤ off) &&
    (off - r.2.2.1) % r.2.2.2.2 == 0 && decide ((off - r.2.2.1) / r.2.2.2.2 < r.2.2.2.1)

/-- Whether it is the _HI half of one. -/
def isHi (addr : Nat) : Bool := decide (4 ≤ addr) && isLo (addr - 4)

/-- The _HI latch of a requester for the value whose _LO register is at `lo`. -/
def State.latched (s : State) (r : Requester) (lo : Nat) : Nat := sget 0 s.hiLatch (loKey r lo)

/-- A latch set. -/
def State.setLatch (s : State) (r : Requester) (lo v : Nat) : State := { s with hiLatch := sset 0 s.hiLatch (loKey r lo) v }

/-! ## Reads -/

/-- A page's SOFT_RESET reads 1 while it waits for a table command (R396). -/
def State.resetBusy (s : State) (page : Nat) : Bool := s.softWait.contains page

/-- PG_STAT (R397) for a requester, whose reset it would be. -/
def State.pageStat (s : State) (page by' : Nat) : Nat :=
  b2n (s.resetBusy page) * 2 ^ 31 + bits (s.rd (page * 0x1000 + 0x008)) 31 1 * 2 ^ 30 + bits (s.rd (page * 0x1000 + 0xF08)) 31 1 * 2 ^ 29 +
    bits (s.stageStat page) 31 1 * 2 ^ 28 + b2n (s.pageOffOk page by') * 2 ^ 27

/-- The header's registers as a read returns them (R394 to R400). -/
def State.headerView (s : State) (r : Requester) (d : PageDef) (page off : Nat) : Nat :=
  if off = 0x000 then pageId d page
  else if off = 0x004 then s.pageCap d page
  else if off = 0x008 then
    bits (s.rd (page * 0x1000 + 0x008)) 31 1 * 2 ^ 31 + b2n (s.resetBusy page) * 2 ^ 30 + b2n (s.pagePowerReq page) * 2 ^ 29
  else if off = 0x00C then s.pageStat page (reqNo r)
  else if off = 0x018 ∨ off = 0x030 then 0
  else if off = 0x034 then s.stageStat page
  else if (findReg (page * 0x1000 + off)).isSome then s.rd (page * 0x1000 + off)
  else 0

/-- The value that a requester's read of an address returns, before any effect of the read. -/
def State.readReg (s : State) (a : Acc) (addr : Nat) : Nat :=
  let page := addr / 0x1000
  let off := addr % 0x1000
  match findPage page with
  | none => 0
  | some d =>
    if isHi addr then s.latched a.req (addr - 4)
    else if addr = Rg.PTP_TOD_SEC_LO then s.latched a.req Rg.PTP_TOD_NS
    else if addr = Rg.PTP_TOD_SEC_HI then s.latched a.req Rg.PTP_TOD_SEC_LO
    else if off < 0x100 then s.headerView a.req d page off
    else if off < 0x800 then s.view addr a.clk
    else if off < 0xF00 then s.staged (addr - 0x700) &&& stMaskAt (addr - 0x700)
    else if (findReg addr).isSome ∧ off ≠ 0xF00 then s.rd addr
    else 0

/-- The fields of kind RC returned to their reset values (R16). -/
def RegDef.clearRc (r : RegDef) (cur : Nat) : Nat := r.fields.foldl (fun c f => if f.kind = .rc then setBits c f.lo f.w f.reset else c) cur

/-- A read that reaches its register: the data, the latches it sets (R15, PTP registers), and RC fields cleared, unless the read is a user's
(R315) or a freeze covers the register (R316). The FIFO heads pop as their own commands do. -/
def State.accessRead (s : State) (a : Acc) (addr : Nat) : State × Nat :=
  if addr = Rg.LEARN_NOTE_W0 ∧ !a.user then
    (if s.fb Rg.DMA_NOTE_CFG Fd.DMA_NOTE_CFG_EN then (s.wr Rg.LEARN_NOTE_W0 0, 0) else s.learnPop)
  else if addr = Rg.PTP_TXTS_W0 ∧ !a.user then s.txtsPop
  else if addr = Rg.SCRUB_RW_W0 ∧ !a.user then
    (if s.fb Rg.DMA_RW_CFG Fd.DMA_RW_CFG_EN then (s.wr Rg.SCRUB_RW_W0 0, 0) else s.rwPop)
  else
    let v := s.readReg a addr
    let s1 :=
      if isLo addr then
        s.setLatch a.req addr (if addr % 0x1000 < 0x100 then s.rd (addr + 4) else s.view (addr + 4) a.clk)
      else if addr = Rg.PTP_TOD_NS then
        (s.setLatch a.req Rg.PTP_TOD_NS (s.view Rg.PTP_TOD_SEC_LO a.clk)).setLatch a.req Rg.PTP_TOD_SEC_LO (s.view Rg.PTP_TOD_SEC_HI a.clk)
      else s
    match findReg addr with
    | some r =>
      if (r.fields.any fun f => f.kind = .rc) && !a.user && (s.frozenDie (addr / 0x1000000)).isNone then (s1.wr addr (r.clearRc (s1.rd addr)), v)
      else (s1, v)
    | none => (s1, v)

/-- LO_READ (R15). -/
def execLoRead (a : Acc) (addr : Nat) (s : State) : Out := .next (s.onRead a addr fun t => t.accessRead a addr)

/-- RC_READ (R16). -/
def execRcRead (a : Acc) (addr : Nat) (s : State) : Out := .next (s.onRead a addr fun t => t.accessRead a addr)

/-! ## Writes of the header and of the table command interface -/

/-- A write of PG_INT_EN: enabling a bit that is set raises the page's source (R361, R398). -/
def State.intEnWrite (s : State) (page v : Nat) : State :=
  s.withEdges [256 * (page / 0x1000) + page % 256] fun t => t.wr (page * 0x1000 + 0x014) (v &&& intMask page)

/-- A write of a header register. A set LOCK keeps PG_ACCESS (R315). -/
def State.headerWrite (s : State) (a : Acc) (page off v : Nat) : State :=
  let addr := page * 0x1000 + off
  if off = 0x008 then s.pgCtrlWrite page v (reqNo a.req)
  else if off = 0x014 then s.intEnWrite page v
  else if off = 0x018 then s.setInts (page * 0x1000) (v &&& intMask page)
  else if off = 0x030 then (if bit v 0 then s.stageDiscard page else s)
  else if off = 0x038 then (if bit (s.rd addr) 31 then s else s.fieldWrite addr v)
  else if off = 0x03C then s.flipWrite page v
  else s.fieldWrite addr v

/-- A write of the table command interface (R165): TBL_CMD starts a command; TBL_ADDR and TBL_DATA are ignored while BUSY is 1. -/
def State.tblRegWrite (s : State) (a : Acc) (page off v : Nat) : State :=
  let addr := page * 0x1000 + off
  if !hasTables page then s
  else if off = 0xF00 then s.tblStart a page (v % 16)
  else if off = 0xF08 then s.fieldWrite addr v
  else if s.tblBusy page then s.tblOverrun page
  else s.fieldWrite addr v

/-! ## Writes of block registers -/

/-- The index of an address in `n` registers from `base`, `stride` apart. -/
def ixOf (addr base n stride : Nat) : Option Nat :=
  if base ≤ addr ∧ (addr - base) % stride = 0 ∧ (addr - base) / stride < n then some ((addr - base) / stride) else none

/-- A write of STEER_CFG: XON is kept below XOFF (R93). -/
def State.steerCfgWrite (s : State) (v : Nat) : State :=
  let s1 := s.fieldWrite Rg.STEER_CFG v
  let xoff := s1.f Rg.STEER_CFG Fd.STEER_CFG_XOFF
  if xoff ≤ s1.f Rg.STEER_CFG Fd.STEER_CFG_XON then s1.setF Rg.STEER_CFG Fd.STEER_CFG_XON (xoff - 1) else s1

/-- A write of HBMC_SPARE: refused while the controller is enabled; a rank named twice is a reserved encoding. -/
def State.spareWrite (s : State) (k v : Nat) : State :=
  let n (i : Nat) : Nat := bits v (8 * i) 6
  let twice := (List.range 4).any fun i => (List.range i).any fun j => n i == n j
  if bit (s.rd (Pg.HBMC k + 0x008)) 31 then s.setInt (Pg.HBMC k) Ib.HBMC_REFUSED
  else if twice then s.setInt (Pg.HBMC k) 29
  else s.fieldWrite (Rg.HBMC_SPARE k) v

/-- A write of HBM_REGION at its live or shadow address: the LMB-4806 reserves sizes above 512. -/
def State.regionWrite (s : State) (addr v : Nat) : State :=
  if s.part = .lmb4806 ∧ 512 < v % 2048 then s.setInt Pg.HBM_RAS 29 else s.fieldWrite addr v

/-- The level that a GPIO pin's PWR_GPIO_CFG drives, `none` for an input or a dark LED (R384); blinking is not followed. -/
def gpioDrive (cfg : Nat) : Option Bool :=
  if bits cfg 30 2 = 1 then some (bit cfg 29) else if bits cfg 30 2 = 2 ∧ bits cfg 26 2 = 1 then some false else none

/-- The GPIO pins' names. -/
def gpioNames : List String := ["GPIO0", "GPIO1", "GPIO2", "GPIO3", "GPIO4", "GPIO5", "GPIO6", "GPIO7"]

/-- A write of PWR_GPIO_CFG. -/
def State.gpioWrite (s : State) (n v : Nat) : State :=
  let a := Rg.PWR_GPIO_CFG 1 n
  let s1 := s.fieldWrite a v
  let d := gpioDrive (s1.rd a)
  if d = gpioDrive (s.rd a) then s1 else match d with
    | some l => s1.emit (.pin (lget "" gpioNames n) l)
    | none => s1

/-- What a reset by a register write finds: the straps latched, the references and the timing-wire delay as they stand. -/
def State.envNow (s : State) : BootEnv :=
  { straps := s.rd (Rg.PWR_STRAP 1)
    refs := bits (s.rd (Rg.CLK_STAT 0)) 29 1 + bits (s.rd (Rg.CLK_STAT 0)) 28 1 * 2 + bits (s.rd (Rg.CLK_STAT 1)) 29 1 * 4 +
      bits (s.rd (Rg.CLK_STAT 1)) 28 1 * 8 + bits (s.rd (Rg.CLK_STAT 1)) 27 1 * 16
    twDelay := s.f (Rg.CLK_STAT 1) Fd.CLK_STAT_TW_DELAY }

/-- A write of UPD_LOCK (R344). -/
def State.updLockWrite (s : State) (a : Acc) (v : Nat) : State :=
  let s1 := if bit v 0 then s.lockReq a.req a.clk else s
  if bit v 1 && s1.holdsLock a.req then s1.lockFree else s1

/-- A write of UPD_CMD: an OP other than VERIFY, CLEAR and START is reserved (R17). -/
def State.updCmdWrite (s : State) (a : Acc) (v : Nat) : State :=
  let op := bits v 28 4
  if op = 1 then s.verify a else if op = 2 then s.clearStage a else if op = 3 then s.start a v else s.setInt Pg.UPD 29

/-- The write of a 64-bit value through its _HI half (R15), with the rules of the two that have some of their own (R348, R365). -/
def State.hiWrite (s : State) (a : Acc) (addr v : Nat) : State :=
  match ixOf addr (Rg.DMA_RING_BASE_HI 0) 64 16, ixOf addr (Rg.UPD_FLOOR_HI 0) 6 8 with
  | some r, _ => s.ringBaseWrite a.req r v
  | none, some k => s.floorWrite a.req k v
  | none, none =>
    let x := s.takeLo a.req (addr - 4) v
    (x.1.wr (addr - 4) (x.2 % 2 ^ 32)).fieldWrite addr v

/-- Whether a register has an RW field: a half that may be written. -/
def hasRw (addr : Nat) : Bool := (findReg addr).any fun r => r.fields.any fun f => f.kind = .rw

/-- Registers of the F-die whose write is more than its fields. -/
def State.fWrite (s : State) (a : Acc) (addr v : Nat) : State :=
  let page := addr / 0x1000
  let off := addr % 0x1000
  let n := page % 16
  if page = 0x001 then
    if addr = Rg.CMT_CTRL then s.cmtCtrlWrite v
    else if addr = Rg.CMT_STAGE_CLOSE then s.stageClose (reqNo a.req) v
    else if addr = Rg.CMT_ARM then s.cmtArm (reqNo a.req) a.clk v
    else if addr = Rg.CMT_CMD then s.cmtCmd (reqNo a.req) a.clk v
    else s.fieldWrite addr v
  else if addr = Rg.TICK_GEN_CMT then s.tickGenCmt a.clk v
  else if 0x010 ≤ page ∧ page < 0x018 ∧ (ixOf off 0x104 8 0x20).isSome then s.lpCtrlWrite (8 * n + (off - 0x104) / 0x20) v
  else if addr = Rg.PTP_STEP then { s with ptp := { s.ptp with step := s.ptp.step + signed 32 v } }
  else if addr = Rg.PTP_LOAD_GO then
    (if bit v 0 then { s.setF Rg.PTP_LOAD_GO Fd.PTP_LOAD_GO_GO 1 with ptp := { s.ptp with loadDue := true } } else s)
  else if addr = Rg.PTP_INCR then s.ptpIncrWrite a.clk v
  else if addr = Rg.STEER_CFG then s.steerCfgWrite v
  else if addr = Rg.STEER_MOVE then s.steerMove a.clk v
  else if addr = Rg.STEER_EVAC then s.steerEvac v
  else if 0x040 ≤ page ∧ page < 0x049 ∧ off = 0x100 then s.sliceCtrl 0 n v
  else if 0x050 ≤ page ∧ page < 0x059 ∧ off = 0x100 then s.sliceCtrl 1 n v
  else if 0x060 ≤ page ∧ page < 0x072 ∧ off = 0x100 then s.apcCtrl (page - 0x060) v
  else if 0x060 ≤ page ∧ page < 0x072 ∧ off = 0x10C then s.poke (page - 0x060) v
  else if 0x060 ≤ page ∧ page < 0x072 ∧ off = 0x1C0 then s.dbgCtrl (page - 0x060) v a.clk
  else if page = 0x0B0 ∧ 0x400 ≤ off ∧ off < 0x600 then s.nhopLive ((off - 0x400) / 4) v a.clk
  else if page = 0x0B0 ∧ 0x600 ≤ off ∧ off < 0x800 then s.nhopLiveClr ((off - 0x600) / 4) v
  else if addr = Rg.SC_CTRL 0 then s.scCtrlWrite a.req 0 v
  else if addr = Rg.SC_HB_KICK 0 then s.scKick a.req 0 v
  else if addr = Rg.D2D_CTRL 0 then s.retrain 0 v
  else if addr = Rg.PWR_TEMP 0 then (s.fieldWrite addr v).alertEval
  else if addr = Rg.CNT_FREEZE then s.freezeWrite v
  else s.fieldWrite addr v

/-- Registers of the T-die whose write is more than its fields. -/
def State.tWrite (s : State) (a : Acc) (addr v : Nat) : State :=
  let page := addr / 0x1000
  let off := addr % 0x1000
  let n := page % 16
  if addr = Rg.ADM_CFG then s.admCfgWrite v
  else if addr = Rg.CALD_PWR then s.caldPwr v (reqNo a.req)
  else if 0x1040 ≤ page ∧ page < 0x104C ∧ (ixOf off 0x100 8 0x20).isSome then s.fserCfgWrite n ((off - 0x100) / 0x20) v
  else if addr = Rg.FFRM_CFG then s.ffrmCfgWrite v
  else if addr = Rg.FCELL_CFG then s.fcellCfgWrite v
  else if addr = Rg.FCRD_CTRL then s.fcrdCtrlWrite v
  else if 0x1060 ≤ page ∧ page < 0x1064 ∧ off = 0x110 then s.spareWrite n v
  else if 0x1060 ≤ page ∧ page < 0x1064 ∧ addr = Rg.HBMC_TEMP n then (s.fieldWrite addr v).alertEval
  else if addr = Rg.HBM_MIG_CMD then s.migCmd v
  else if addr = Rg.HBM_REGION then s.regionWrite addr v
  else if addr = Rg.SCRUB_CLASS_CFG 7 ∨ addr = Rg.SCRUB_CLASS_CFG 15 then s
  else if addr = Rg.SC_CTRL 1 then s.scCtrlWrite a.req 1 v
  else if addr = Rg.SC_HB_KICK 1 then s.scKick a.req 1 v
  else if addr = Rg.UPD_LOCK then s.updLockWrite a v
  else if addr = Rg.UPD_CMD then s.updCmdWrite a v
  else if addr = Rg.EMRAM_SEC then (s.fieldWrite addr v).emPut emSec 1
  else if addr = Rg.EMRAM_LOG_POST0 ∨ addr = Rg.EMRAM_LOG_POST1 then
    (if (Machine.portOf a.req).isSome then s else s.fieldWrite addr v)
  else if addr = Rg.EMRAM_LOG_POST2 then s.logPost a.req v
  else if addr = Rg.IRQ_REARM then s.rearm v
  else if page = 0x1092 ∧ (ixOf off 0x100 64 16).isSome then s.ringCfgWrite a.req ((off - 0x100) / 16) v
  else if page = 0x1092 ∧ (ixOf off 0x10C 64 16).isSome then s.tailWrite a.req ((off - 0x10C) / 16) v
  else if addr = Rg.D2D_CTRL 1 then s.retrain 1 v
  else if addr = Rg.PWR_STBY 1 then s.stbyWrite a.req v
  else if addr = Rg.PWR_RESET 1 then s.pwrResetWrite a.clk v s.envNow
  else if addr = Rg.PWR_TEMP 1 then (s.fieldWrite addr v).alertEval
  else if page = 0x10B0 ∧ (ixOf off 0x160 8 4).isSome then s.gpioWrite ((off - 0x160) / 4) v
  else s.fieldWrite addr v

/-- A write that reaches its page, by any requester. -/
def State.writeReg (s : State) (a : Acc) (addr v : Nat) : State :=
  let page := addr / 0x1000
  let off := addr % 0x1000
  if off < 0x100 then s.headerWrite a page off v
  else if 0xF00 ≤ off then s.tblRegWrite a page off v
  else if 0x800 ≤ off then (if addr = Rg.HBM_REGION + 0x700 then s.regionWrite addr v else s.fieldWrite addr v)
  else if isLo addr then (if hasRw addr then s.holdLo a.req addr v else s)
  else if isHi addr then (if hasRw addr then s.hiWrite a addr v else s)
  else match domReqAt addr with
    | some (die, w) => s.reqWrite die w v (reqNo a.req)
    | none => if addr < 0x1000000 then s.fWrite a addr v else s.tWrite a addr v

/-- REGISTER_WRITE (R14, R16, R17). -/
def execRegisterWrite (a : Acc) (addr : Nat) (v : Word) (s : State) : Out := .next (s.onWrite a addr fun t => t.writeReg a addr v.toNat)

/-- LO_WRITE (R15). -/
def execLoWrite (a : Acc) (addr : Nat) (v : Word) (s : State) : Out := .next (s.onWrite a addr fun t => t.writeReg a addr v.toNat)

/-- HI_WRITE (R15). -/
def execHiWrite (a : Acc) (addr : Nat) (v : Word) (s : State) : Out := .next (s.onWrite a addr fun t => t.writeReg a addr v.toNat)

/-- ST_WRITE (R58, R393). -/
def execStWrite (a : Acc) (addr : Nat) (v : Word) (s : State) : Out := .next (s.onWrite a addr fun t => t.writeReg a addr v.toNat)

end Sys2Proof.Machine
end

