-- ==== Sys2Proof/Machine/Dispatch.lean ====
section
/-! DEFINITION. One arm per command: its meaning, called directly, or its rejection by name. -/
namespace Sys2Proof.Machine

def exec (i : Instr) (s : State) : Host.Outcome State Fault Refusal :=
  match i with
  | .registerWrite a addr v => Sys2Proof.Machine.execRegisterWrite a addr v s
  | .loRead a addr => Sys2Proof.Machine.execLoRead a addr s
  | .loWrite a addr v => Sys2Proof.Machine.execLoWrite a addr v s
  | .hiWrite a addr v => Sys2Proof.Machine.execHiWrite a addr v s
  | .rcRead a addr => Sys2Proof.Machine.execRcRead a addr s
  | .stWrite a addr v => Sys2Proof.Machine.execStWrite a addr v s
  | .tickBoundary copies cmtCopies scrub => Sys2Proof.Machine.execTickBoundary copies cmtCopies scrub s
  | .tickPlan viaLink viaMgmt => Sys2Proof.Machine.execTickPlan viaLink viaMgmt s
  | .flitReceive die bundle seq crcOk aligned => Sys2Proof.Machine.execFlitReceive die bundle seq crcOk aligned s
  | .laneParityCheck die bundle counts => Sys2Proof.Machine.execLaneParityCheck die bundle counts s
  | .laneRepairComplete die bundle => Sys2Proof.Machine.execLaneRepairComplete die bundle s
  | .retrain a die v => Sys2Proof.Machine.execRetrain a die v s
  | .autoRetrain => Sys2Proof.Machine.execAutoRetrain s
  | .d2dTrainingDone failF failT => Sys2Proof.Machine.execD2dTrainingDone failF failT s
  | .fdieAccessTimeout a isRead => Sys2Proof.Machine.execFdieAccessTimeout a isRead s
  | .syncEdge clk => Sys2Proof.Machine.execSyncEdge clk s
  | .syncTag cells => Sys2Proof.Machine.execSyncTag cells s
  | .tickJudgment => Sys2Proof.Machine.execTickJudgment s
  | .syncOutEdge cells timely => Sys2Proof.Machine.execSyncOutEdge cells timely s
  | .tickGenCmt a v => Sys2Proof.Machine.execTickGenCmt a v s
  | .cmtStageClose a v => Sys2Proof.Machine.execCmtStageClose a v s
  | .checkDone => Sys2Proof.Machine.execCheckDone s
  | .cmtArm a v => Sys2Proof.Machine.execCmtArm a v s
  | .reopen a => Sys2Proof.Machine.execReopen a s
  | .discard a => Sys2Proof.Machine.execDiscard a s
  | .discardDone => Sys2Proof.Machine.execDiscardDone s
  | .abort a => Sys2Proof.Machine.execAbort a s
  | .cmtCtrlWrite a v => Sys2Proof.Machine.execCmtCtrlWrite a v s
  | .commitDecision => Sys2Proof.Machine.execCommitDecision s
  | .logWalkStart => Sys2Proof.Machine.execLogWalkStart s
  | .classLogWalkDone => Sys2Proof.Machine.execClassLogWalkDone s
  | .terrLogWalkDone => Sys2Proof.Machine.execTerrLogWalkDone s
  | .copyRefillDone page => Sys2Proof.Machine.execCopyRefillDone page s
  | .pageStageDiscard a page => Sys2Proof.Machine.execPageStageDiscard a page s
  | .linkTrainingDone port => Sys2Proof.Machine.execLinkTrainingDone port s
  | .trainTimeout port lane => Sys2Proof.Machine.execTrainTimeout port lane s
  | .trainRetry port => Sys2Proof.Machine.execTrainRetry port s
  | .linkAligned port => Sys2Proof.Machine.execLinkAligned port s
  | .linkUpHoldExpiry port => Sys2Proof.Machine.execLinkUpHoldExpiry port s
  | .linkLockLoss port am fec => Sys2Proof.Machine.execLinkLockLoss port am fec s
  | .cdrLockLoss port lane => Sys2Proof.Machine.execCdrLockLoss port lane s
  | .loopbackChange a port v => Sys2Proof.Machine.execLoopbackChange a port v s
  | .fecCodeword port errs => Sys2Proof.Machine.execFecCodeword port errs s
  | .macRxFrame port bytes codeErr clk => Sys2Proof.Machine.execMacRxFrame port bytes codeErr clk s
  | .pfcRx port enable quanta => Sys2Proof.Machine.execPfcRx port enable quanta s
  | .pfcPauseExpiry port pri => Sys2Proof.Machine.execPfcPauseExpiry port pri s
  | .pfcStorm port pri => Sys2Proof.Machine.execPfcStorm port pri s
  | .pfcStormRecoverEnd port pri => Sys2Proof.Machine.execPfcStormRecoverEnd port pri s
  | .pfcTx port => Sys2Proof.Machine.execPfcTx port s
  | .pfcRefresh port => Sys2Proof.Machine.execPfcRefresh port s
  | .flexeCalAck engine group => Sys2Proof.Machine.execFlexeCalAck engine group s
  | .flexeCalSwitch engine group => Sys2Proof.Machine.execFlexeCalSwitch engine group s
  | .calTimeout engine group => Sys2Proof.Machine.execCalTimeout engine group s
  | .flexeOverheadRx engine group num phys calPage cal => Sys2Proof.Machine.execFlexeOverheadRx engine group num phys calPage cal s
  | .ptpStep a v => Sys2Proof.Machine.execPtpStep a v s
  | .ptpLoadGo a v => Sys2Proof.Machine.execPtpLoadGo a v s
  | .ptpTxtsPop a => Sys2Proof.Machine.execPtpTxtsPop a s
  | .ppsOutPulse => Sys2Proof.Machine.execPpsOutPulse s
  | .ppsOutEnd => Sys2Proof.Machine.execPpsOutEnd s
  | .ppsInEdge clk => Sys2Proof.Machine.execPpsInEdge clk s
  | .synceSquelch output => Sys2Proof.Machine.execSynceSquelch output s
  | .synceResume output => Sys2Proof.Machine.execSynceResume output s
  | .pmSecondRoll late => Sys2Proof.Machine.execPmSecondRoll late s
  | .steerEnqueue port beyond => Sys2Proof.Machine.execSteerEnqueue port beyond s
  | .sliceEntry slice clk upset aclUpset buf => Sys2Proof.Machine.execSliceEntry slice clk upset aclUpset buf s
  | .sliceHandoff dir slice tailPending => Sys2Proof.Machine.execSliceHandoff dir slice tailPending s
  | .pipeTimeout dir slice => Sys2Proof.Machine.execPipeTimeout dir slice s
  | .sliceFault dir slice src => Sys2Proof.Machine.execSliceFault dir slice src s
  | .fenceRehome dir slice => Sys2Proof.Machine.execFenceRehome dir slice s
  | .fence a dir slice v => Sys2Proof.Machine.execFence a dir slice v s
  | .steerMove a v => Sys2Proof.Machine.execSteerMove a v s
  | .moveStart dir => Sys2Proof.Machine.execMoveStart dir s
  | .moveDone dir => Sys2Proof.Machine.execMoveDone dir s
  | .steerEvac a v => Sys2Proof.Machine.execSteerEvac a v s
  | .evacStop a v => Sys2Proof.Machine.execEvacStop a v s
  | .evacNextMove dir => Sys2Proof.Machine.execEvacNextMove dir s
  | .roleWrite a dir slice v => Sys2Proof.Machine.execRoleWrite a dir slice v s
  | .selftest a dir slice v => Sys2Proof.Machine.execSelftest a dir slice v s
  | .selftestPeriodic dir slice => Sys2Proof.Machine.execSelftestPeriodic dir slice s
  | .selftestDone dir slice pass => Sys2Proof.Machine.execSelftestDone dir slice pass s
  | .tblRead a page => Sys2Proof.Machine.execTblRead a page s
  | .tblWrite a page => Sys2Proof.Machine.execTblWrite a page s
  | .tblInsert a page => Sys2Proof.Machine.execTblInsert a page s
  | .tblDelete a page => Sys2Proof.Machine.execTblDelete a page s
  | .tblMove a page => Sys2Proof.Machine.execTblMove a page s
  | .tblSearch a page => Sys2Proof.Machine.execTblSearch a page s
  | .tblFlush a page => Sys2Proof.Machine.execTblFlush a page s
  | .unsupported a page op => Sys2Proof.Machine.execUnsupported a page op s
  | .tblCommandDone page => Sys2Proof.Machine.execTblCommandDone page s
  | .terrRowRewrite bank row => Sys2Proof.Machine.execTerrRowRewrite bank row s
  | .terrScrubStep bank row upset shadowLost => Sys2Proof.Machine.execTerrScrubStep bank row upset shadowLost s
  | .livenessClear port clk => Sys2Proof.Machine.execLivenessClear port clk s
  | .nhopLive a word v => Sys2Proof.Machine.execNhopLive a word v s
  | .nhopLiveClr a word v => Sys2Proof.Machine.execNhopLiveClr a word v s
  | .egressSliceEntry slice clk => Sys2Proof.Machine.execEgressSliceEntry slice clk s
  | .deepLookupLate ap ticket => Sys2Proof.Machine.execDeepLookupLate ap ticket s
  | .learnEvent => Sys2Proof.Machine.execLearnEvent s
  | .learnNotePop a => Sys2Proof.Machine.execLearnNotePop a s
  | .agePassStart => Sys2Proof.Machine.execAgePassStart s
  | .ageScanVisit n => Sys2Proof.Machine.execAgeScanVisit n s
  | .add ap => Sys2Proof.Machine.execAdd ap s
  | .sub ap => Sys2Proof.Machine.execSub ap s
  | .and ap => Sys2Proof.Machine.execAnd ap s
  | .or ap => Sys2Proof.Machine.execOr ap s
  | .xor ap => Sys2Proof.Machine.execXor ap s
  | .shl ap => Sys2Proof.Machine.execShl ap s
  | .shr ap => Sys2Proof.Machine.execShr ap s
  | .sar ap => Sys2Proof.Machine.execSar ap s
  | .mul ap => Sys2Proof.Machine.execMul ap s
  | .cmpeq ap => Sys2Proof.Machine.execCmpeq ap s
  | .cmpltu ap => Sys2Proof.Machine.execCmpltu ap s
  | .cmplt ap => Sys2Proof.Machine.execCmplt ap s
  | .csum ap => Sys2Proof.Machine.execCsum ap s
  | .popc ap => Sys2Proof.Machine.execPopc ap s
  | .clz ap => Sys2Proof.Machine.execClz ap s
  | .addi ap => Sys2Proof.Machine.execAddi ap s
  | .andi ap => Sys2Proof.Machine.execAndi ap s
  | .ori ap => Sys2Proof.Machine.execOri ap s
  | .xori ap => Sys2Proof.Machine.execXori ap s
  | .shli ap => Sys2Proof.Machine.execShli ap s
  | .shri ap => Sys2Proof.Machine.execShri ap s
  | .movk ap => Sys2Proof.Machine.execMovk ap s
  | .ext ap => Sys2Proof.Machine.execExt ap s
  | .ins ap => Sys2Proof.Machine.execIns ap s
  | .ldh ap => Sys2Proof.Machine.execLdh ap s
  | .sth ap => Sys2Proof.Machine.execSth ap s
  | .mfs ap clk => Sys2Proof.Machine.execMfs ap clk s
  | .mts ap => Sys2Proof.Machine.execMts ap s
  | .beq ap => Sys2Proof.Machine.execBeq ap s
  | .bne ap => Sys2Proof.Machine.execBne ap s
  | .bltu ap => Sys2Proof.Machine.execBltu ap s
  | .bgeu ap => Sys2Proof.Machine.execBgeu ap s
  | .blt ap => Sys2Proof.Machine.execBlt ap s
  | .bge ap => Sys2Proof.Machine.execBge ap s
  | .jal ap => Sys2Proof.Machine.execJal ap s
  | .jr ap => Sys2Proof.Machine.execJr ap s
  | .lkpExact ap => Sys2Proof.Machine.execLkpExact ap s
  | .lkpRoute ap => Sys2Proof.Machine.execLkpRoute ap s
  | .lookupErr ap => Sys2Proof.Machine.execLookupErr ap s
  | .pktrd ap => Sys2Proof.Machine.execPktrd ap s
  | .lkt ap => Sys2Proof.Machine.execLkt ap s
  | .lock ap => Sys2Proof.Machine.execLock ap s
  | .lockGrant cluster lock => Sys2Proof.Machine.execLockGrant cluster lock s
  | .ulk ap => Sys2Proof.Machine.execUlk ap s
  | .cres ap => Sys2Proof.Machine.execCres ap s
  | .cwr ap => Sys2Proof.Machine.execCwr ap s
  | .cpub ap => Sys2Proof.Machine.execCpub ap s
  | .crd ap => Sys2Proof.Machine.execCrd ap s
  | .apEnd ap => Sys2Proof.Machine.execEnd ap s
  | .drop ap => Sys2Proof.Machine.execDrop ap s
  | .punt ap => Sys2Proof.Machine.execPunt ap s
  | .lrn ap => Sys2Proof.Machine.execLrn ap s
  | .live ap clk => Sys2Proof.Machine.execLive ap clk s
  | .hpush ap => Sys2Proof.Machine.execHpush ap s
  | .hpop ap => Sys2Proof.Machine.execHpop ap s
  | .wlk ap => Sys2Proof.Machine.execWlk ap s
  | .wfe ap => Sys2Proof.Machine.execWfe ap s
  | .sig ap => Sys2Proof.Machine.execSig ap s
  | .tstart ap => Sys2Proof.Machine.execTstart ap s
  | .tstop ap => Sys2Proof.Machine.execTstop ap s
  | .crevoke ap => Sys2Proof.Machine.execCrevoke ap s
  | .lrel ap => Sys2Proof.Machine.execLrel ap s
  | .brk ap => Sys2Proof.Machine.execBrk ap s
  | .illegalOp ap => Sys2Proof.Machine.execIllegalOp ap s
  | .ticketComplete ap ticket => Sys2Proof.Machine.execTicketComplete ap ticket s
  | .timeBound ap => Sys2Proof.Machine.execTimeBound ap s
  | .allwait cluster ap => Sys2Proof.Machine.execAllwait cluster ap s
  | .apTimerExpiry cluster ap timer => Sys2Proof.Machine.execApTimerExpiry cluster ap timer s
  | .stale cluster ap thread => Sys2Proof.Machine.execStale cluster ap thread s
  | .halt a cluster v => Sys2Proof.Machine.execHalt a cluster v s
  | .resume a cluster v => Sys2Proof.Machine.execResume a cluster v s
  | .step a cluster v => Sys2Proof.Machine.execStep a cluster v s
  | .readReg a cluster v => Sys2Proof.Machine.execReadReg a cluster v s
  | .writeReg a cluster v => Sys2Proof.Machine.execWriteReg a cluster v s
  | .dispatchEnWrite a cluster v => Sys2Proof.Machine.execDispatchEnWrite a cluster v s
  | .supStart a cluster v => Sys2Proof.Machine.execSupStart a cluster v s
  | .poke a cluster v => Sys2Proof.Machine.execPoke a cluster v s
  | .packetHeadArrival clk => Sys2Proof.Machine.execPacketHeadArrival clk s
  | .admissionDecision clk => Sys2Proof.Machine.execAdmissionDecision clk s
  | .spillPageWrite voq page => Sys2Proof.Machine.execSpillPageWrite voq page s
  | .pageReturn voq => Sys2Proof.Machine.execPageReturn voq s
  | .staleDrain => Sys2Proof.Machine.execStaleDrain s
  | .caldPwrWrite a v => Sys2Proof.Machine.execCaldPwrWrite a v s
  | .egressEnqueue clk => Sys2Proof.Machine.execEgressEnqueue clk s
  | .egressDecision lane clk pool => Sys2Proof.Machine.execEgressDecision lane clk pool s
  | .shaperRelease => Sys2Proof.Machine.execShaperRelease s
  | .macTxFrame port clk starve pool => Sys2Proof.Machine.execMacTxFrame port clk starve pool s
  | .gateOversize eq clk => Sys2Proof.Machine.execGateOversize eq clk s
  | .gateListSwitch port clk => Sys2Proof.Machine.execGateListSwitch port clk s
  | .latSampleSet clk complete => Sys2Proof.Machine.execLatSampleSet clk complete s
  | .calendarFill poison => Sys2Proof.Machine.execCalendarFill poison s
  | .frameReceive lane hdr msgs cells => Sys2Proof.Machine.execFrameReceive lane hdr msgs cells s
  | .frameDeliver => Sys2Proof.Machine.execFrameDeliver s
  | .framePosition lane fas hdr => Sys2Proof.Machine.execFramePosition lane fas hdr s
  | .frameHeaderReceive lane hdr => Sys2Proof.Machine.execFrameHeaderReceive lane hdr s
  | .fabricSignalLoss lane signal cdr fec => Sys2Proof.Machine.execFabricSignalLoss lane signal cdr fec s
  | .linkInService lane => Sys2Proof.Machine.execLinkInService lane s
  | .fabricXoffApply lane => Sys2Proof.Machine.execFabricXoffApply lane s
  | .cellReceive => Sys2Proof.Machine.execCellReceive s
  | .reorderGapTimeout src => Sys2Proof.Machine.execReorderGapTimeout src s
  | .reassembly buf => Sys2Proof.Machine.execReassembly buf s
  | .messageSelect => Sys2Proof.Machine.execMessageSelect s
  | .request => Sys2Proof.Machine.execRequest s
  | .grant => Sys2Proof.Machine.execGrant s
  | .withdraw => Sys2Proof.Machine.execWithdraw s
  | .restore => Sys2Proof.Machine.execRestore s
  | .creditRound => Sys2Proof.Machine.execCreditRound s
  | .requestAgeOut => Sys2Proof.Machine.execRequestAgeOut s
  | .requestReissue voq => Sys2Proof.Machine.execRequestReissue voq s
  | .grantExpiry => Sys2Proof.Machine.execGrantExpiry s
  | .heldGrantExpiry => Sys2Proof.Machine.execHeldGrantExpiry s
  | .withdrawTimeout => Sys2Proof.Machine.execWithdrawTimeout s
  | .refreshDue stack rank temp => Sys2Proof.Machine.execRefreshDue stack rank temp s
  | .geyserDone stack rank => Sys2Proof.Machine.execGeyserDone stack rank s
  | .geyserLight stack rank n => Sys2Proof.Machine.execGeyserLight stack rank n s
  | .hbmRequest who off bank write data clk => Sys2Proof.Machine.execHbmRequest who off bank write data clk s
  | .hbmBurstIssue stack channel clk => Sys2Proof.Machine.execHbmBurstIssue stack channel clk s
  | .selfRefreshEntry stack rank => Sys2Proof.Machine.execSelfRefreshEntry stack rank s
  | .selfRefreshExit stack rank => Sys2Proof.Machine.execSelfRefreshExit stack rank s
  | .hbmControllerStart stack => Sys2Proof.Machine.execHbmControllerStart stack s
  | .hbmTrainingDone stack failed avail => Sys2Proof.Machine.execHbmTrainingDone stack failed avail s
  | .hbmPeriodicRetrain stack channel ok => Sys2Proof.Machine.execHbmPeriodicRetrain stack channel ok s
  | .rowRepair stack rank row words bankHas avail => Sys2Proof.Machine.execRowRepair stack rank row words bankHas avail s
  | .migGo a v => Sys2Proof.Machine.execMigGo a v s
  | .migAbort a v => Sys2Proof.Machine.execMigAbort a v s
  | .autoMigration stack => Sys2Proof.Machine.execAutoMigration stack s
  | .migrationChunk stack => Sys2Proof.Machine.execMigrationChunk stack s
  | .migDone stack => Sys2Proof.Machine.execMigDone stack s
  | .sinterVisit cls page mem addr kind symbol pattern syn pos endPass newer bothBad => Sys2Proof.Machine.execSinterVisit cls page mem addr kind symbol pattern syn pos endPass newer bothBad s
  | .stateLostCleanup page mem addr => Sys2Proof.Machine.execStateLostCleanup page mem addr s
  | .pgFlip a page v => Sys2Proof.Machine.execPgFlip a page v s
  | .scrubRwPop a => Sys2Proof.Machine.execScrubRwPop a s
  | .cntFreeze a v => Sys2Proof.Machine.execCntFreeze a v s
  | .freezeEnd => Sys2Proof.Machine.execFreezeEnd s
  | .flowCacheWriteback => Sys2Proof.Machine.execFlowCacheWriteback s
  | .plumeDue set => Sys2Proof.Machine.execPlumeDue set s
  | .plumeDumpDone set room => Sys2Proof.Machine.execPlumeDumpDone set room s
  | .scHbKick a sc v => Sys2Proof.Machine.execScHbKick a sc v s
  | .heartbeatRx sc link => Sys2Proof.Machine.execHeartbeatRx sc link s
  | .heartbeatMissCheck sc => Sys2Proof.Machine.execHeartbeatMissCheck sc s
  | .controllerFault sc clk => Sys2Proof.Machine.execControllerFault sc clk s
  | .takeover => Sys2Proof.Machine.execTakeover s
  | .switchover a sc v => Sys2Proof.Machine.execSwitchover a sc v s
  | .restart a sc v => Sys2Proof.Machine.execRestart a sc v s
  | .hold a sc v => Sys2Proof.Machine.execHold a sc v s
  | .autoRestart sc => Sys2Proof.Machine.execAutoRestart sc s
  | .bootTimeout sc clk => Sys2Proof.Machine.execBootTimeout sc clk s
  | .restartsClear sc => Sys2Proof.Machine.execRestartsClear sc s
  | .splitEnd => Sys2Proof.Machine.execSplitEnd s
  | .updLockReq a => Sys2Proof.Machine.execUpdLockReq a s
  | .updLockRelease a => Sys2Proof.Machine.execUpdLockRelease a s
  | .lockTimeout clk => Sys2Proof.Machine.execLockTimeout clk s
  | .verify a => Sys2Proof.Machine.execVerify a s
  | .verifyDone keyOk vendorOk custOk tagOk digest => Sys2Proof.Machine.execVerifyDone keyOk vendorOk custOk tagOk digest s
  | .clear a => Sys2Proof.Machine.execClear a s
  | .start a v => Sys2Proof.Machine.execStart a v s
  | .startDone part clk slotOk gold => Sys2Proof.Machine.execStartDone part clk slotOk gold s
  | .updFloorWrite a kind v => Sys2Proof.Machine.execUpdFloorWrite a kind v s
  | .requireCust a v => Sys2Proof.Machine.execRequireCust a v s
  | .logPost a v => Sys2Proof.Machine.execLogPost a v s
  | .pcieLinkDown port => Sys2Proof.Machine.execPcieLinkDown port s
  | .hotReset port => Sys2Proof.Machine.execHotReset port s
  | .functionLevelReset port => Sys2Proof.Machine.execFunctionLevelReset port s
  | .pcieLinkUp port speed width flit => Sys2Proof.Machine.execPcieLinkUp port speed width flit s
  | .irqRearm a v => Sys2Proof.Machine.execIrqRearm a v s
  | .dmaRingEnable a ring v => Sys2Proof.Machine.execDmaRingEnable a ring v s
  | .dmaTailWrite a ring v => Sys2Proof.Machine.execDmaTailWrite a ring v s
  | .rxDescriptorWrite ring addr bufLen clk => Sys2Proof.Machine.execRxDescriptorWrite ring addr bufLen clk s
  | .coalTimeout ring clk => Sys2Proof.Machine.execCoalTimeout ring clk s
  | .recordFlushTimeout ring clk => Sys2Proof.Machine.execRecordFlushTimeout ring clk s
  | .injectPipe ring len port data clk => Sys2Proof.Machine.execInjectPipe ring len port data clk s
  | .injectVoq ring len arg0 arg1 data clk => Sys2Proof.Machine.execInjectVoq ring len arg0 arg1 data clk s
  | .hbmRead ring len off addr clk => Sys2Proof.Machine.execHbmRead ring len off addr clk s
  | .powerRequest a addr v => Sys2Proof.Machine.execPowerRequest a addr v s
  | .domainPowerOnDone die dom => Sys2Proof.Machine.execDomainPowerOnDone die dom s
  | .domainPowerOffDone die dom => Sys2Proof.Machine.execDomainPowerOffDone die dom s
  | .standbyEnter a v => Sys2Proof.Machine.execStandbyEnter a v s
  | .standbyEntered => Sys2Proof.Machine.execStandbyEntered s
  | .standbyExit a v => Sys2Proof.Machine.execStandbyExit a v s
  | .gpioWake pin clk => Sys2Proof.Machine.execGpioWake pin clk s
  | .i3cWake => Sys2Proof.Machine.execI3cWake s
  | .standbyExited => Sys2Proof.Machine.execStandbyExited s
  | .powerOn env => Sys2Proof.Machine.execPowerOn env s
  | .warmPin clk env => Sys2Proof.Machine.execWarmPin clk env s
  | .soft a v env => Sys2Proof.Machine.execSoft a v env s
  | .fdie a v env => Sys2Proof.Machine.execFdie a v env s
  | .supply => Sys2Proof.Machine.execSupply s
  | .thermalTrip die => Sys2Proof.Machine.execThermalTrip die s
  | .thermalAlert site temp => Sys2Proof.Machine.execThermalAlert site temp s
  | .refLoss ref => Sys2Proof.Machine.execRefLoss ref s
  | .refReturn ref => Sys2Proof.Machine.execRefReturn ref s
  | .perst port level => Sys2Proof.Machine.execPerst port level s
  | .gpioEvent pin level clk => Sys2Proof.Machine.execGpioEvent pin level clk s
  | .softReset a page v => Sys2Proof.Machine.execSoftReset a page v s
  | .enable a page v => Sys2Proof.Machine.execEnable a page v s
  | .pgIntSet a page v => Sys2Proof.Machine.execPgIntSet a page v s
  | .rxFaultOrderedSet port lf rf => Sys2Proof.Machine.execRxFaultOrderedSet port lf rf s
  | .fabricSignalReturn lane => Sys2Proof.Machine.execFabricSignalReturn lane s
  | .managementPathChange up => Sys2Proof.Machine.execManagementPathChange up s
  | .msixMaskChange port enable fmask vec mask addr data => Sys2Proof.Machine.execMsixMaskChange port enable fmask vec mask addr data s
  | .txBadType ring typ clk => Sys2Proof.Machine.execTxBadType ring typ clk s
  | .poresetAssert => Sys2Proof.Machine.execPoresetAssert s
  | .supplyRestored env => Sys2Proof.Machine.execSupplyRestored env s
  | .flexeOhLock engine group locked deskewFail clients => Sys2Proof.Machine.execFlexeOhLock engine group locked deskewFail clients s

end Sys2Proof.Machine
end

