-- ==== Sys2Proof/Safety.lean ====
section
/-! DEFINITION. The terms the statements use: which accesses go through, which registers an event touches, what a command leaves alone,
and the sound register file. -/
namespace Sys2Proof.Machine

/-- Whether a write access reaches its register: four byte enables (R14), no user write (R358), allowed to its requester (R331, R335), a
path to the die (R36), a page that answers (R3, R375, R392). -/
def State.mayWrite (s : State) (a : Acc) (addr : Nat) : Bool :=
  a.be == 15 && !a.user && s.reaches a.req addr && s.pageOn (addr / 0x1000) &&
    ((Machine.portOf a.req).isSome || s.scMayWrite (reqNo a.req - 2) addr)

/-- Whether a read access reaches its register and may clear it: not a user's (R315), a path to the die (R36), a page that answers. -/
def State.mayRead (s : State) (a : Acc) (addr : Nat) : Bool :=
  !a.user && s.reaches a.req addr && s.pageOn (addr / 0x1000)

/-- The registers of the IRQ page that a message sent changes: its counters, and the overflow of one (R314, R362). -/
def irqReg (x : Nat) : Bool :=
  x == Rg.IRQ_MSG_CNT 0 || x == Rg.IRQ_MSG_CNT 1 || x == Pg.IRQ + 0x010 || x == Pg.IRQ + 0x01C || decide (Pg.IRQ + 0x040 ≤ x ∧ x < Pg.IRQ + 0x078)

/-- The registers that an event flagged in a page changes: PG_INT_STAT and PG_INT_FIRST, and what a message changes (R362, R398, R399). -/
def intReg (pg x : Nat) : Bool := x == pg + 0x010 || x == pg + 0x01C || irqReg x

/-- The registers that an event counted in a page may change beside its counter: overflow bits and what they flag (R314). -/
def cntReg (pg x : Nat) : Bool := decide (pg + 0x040 ≤ x ∧ x < pg + 0x07C) || intReg pg x

/-- The frame of a command that acts on registers: nothing but registers, MSI-X pending bits and what leaves the device differs, and of
the registers only those in `P`. -/
def State.onlyRegs (P : Nat → Bool) (s t : State) : Prop :=
  t = { s with regs := t.regs, pcie0 := t.pcie0, pcie1 := t.pcie1, out := t.out } ∧ ∀ x, P x = false → t.rd x = s.rd x

/-- Every register holds 32 bits, is listed once, in rising order of addresses, and only where it differs from its reset value (R14, R18). -/
def State.regsOk (s : State) : Prop :=
  sRising s.regs ∧ ∀ e ∈ s.regs, e.2 < 2 ^ 32 ∧ e.2 ≠ regReset s.part e.1

/-- Whether a bundle returns to service after a training that found the lanes of `mask` failing (bit 32: the spare) (R34). -/
def bundleTrains (mask : Nat) : Bool :=
  let n := (List.range 32).countP (bit mask ·)
  n == 0 || (n == 1 && !bit mask 32)

/-- The state of a trained link with `f` and `t` receive bundles in service on the F-die and the T-die (state table of R34). -/
def linkState (minF minT f t : Nat) : Nat :=
  if f < minF ∨ t < minT then 0 else if min f t = 16 then 3 else if 12 ≤ min f t then 2 else 1

/-- The 32 Manchester cells of a tag word, as the receiver samples them (R40). -/
def tagCells (w : Nat) : List (Bool × Bool) := (bitsOf 32 w).map fun b => (!b, b)

/-- TBL_DATA0 to TBL_DATA15 of a page as one number, TBL_DATA0 its low 32 bits (R165). -/
def State.tblData (s : State) (page : Nat) : Nat :=
  (List.range 16).foldl (fun x j => x + s.rd (page * 0x1000 + 0xF10 + 4 * j) * 2 ^ (32 * j)) 0

/-- The table entries of a state, by key: what each reads as. -/
def State.tblAt (s : State) (k : Nat) : Nat := sget (tblReset s.part k) s.tbls k

/-- The status of the command that runs in a page, and what it will leave in TBL_DATA. -/
def State.tblAnswer (s : State) (page : Nat) : Option (Nat × Option Nat) := (sget none s.tblRun page).map fun r => (r.2.1, r.2.2.2)

/-- No word of a row of a memory holds an error. -/
def State.cleanRow (s : State) (pg mem addr n : Nat) : Prop := ∀ j, j < n → (s.mark pg mem (addr + j)).kind = 0

/-! ## Action processors -/

/-- The instruction word at which a register set stands. -/
def State.apAt (s : State) (i : ApId) : Nat := s.apWord i.cluster (s.ctx i).pc

/-- A register set issues an operation: it may issue, its next instruction is that one, neither it nor a register it reads is uncorrectable
(R200), and a packet context has not used up I_BOUND (R186). -/
def State.apReady (s : State) (i : ApId) (op : ApOp) : Prop :=
  s.apMay i = true ∧ s.apNext i = op ∧ s.apBad i (s.apAt i) = false ∧ (i.packet = true → (s.ctx i).issued < (s.ctx i).iBound)

/-- What an instruction of one register set leaves: every other register set, and everything outside register sets, threads and the error
state of their words. -/
def State.apFrame (s t : State) (i : ApId) : Prop :=
  t = { s with apCtx := t.apCtx, apThr := t.apThr, marks := t.marks } ∧
    ∀ j : ApId, j.ap < 16 → j.thread < 16 → j.ctx.getD 0 < 4 → j ≠ i → t.ctx j = s.ctx j

/-- The command writes `v` into general register `n` of a register set (nothing into g0), goes on at `pc`, and keeps all else. -/
def State.apWrites (s : State) (c : Instr) (i : ApId) (n : Nat) (v : DWord) (pc : Nat) : Prop :=
  ∃ t, exec c s = .next t ∧ (∀ m, t.gr i m = if m = n ∧ m ≠ 0 then v else s.gr i m) ∧ (t.ctx i).pc = pc % 8192 ∧ s.apFrame t i

/-- A register set has faulted with a code (R199): a packet context ends, its packet's discard counted; a thread is FAULTED; a worker's
fault is counted and its record joins its AP's queue where that has room. -/
def State.apFaulted (s t : State) (i : ApId) (code : Nat) : Prop :=
  (i.packet = true → t.ctx i = {} ∧ t.rd (Rg.APC_FAULT_DROP_CNT i.cluster) = (s.rd (Rg.APC_FAULT_DROP_CNT i.cluster) + 1) % 2 ^ 32) ∧
  (i.packet = false → (t.thr i).st = 4) ∧
  (i.packet = true ∨ i.thread ≠ 15 → t.rd (Rg.APC_FAULT_CNT i.cluster) = (s.rd (Rg.APC_FAULT_CNT i.cluster) + 1) % 2 ^ 32 ∧
    ((s.sup i.cluster i.ap).faults.length < 16 →
      (t.sup i.cluster i.ap).faults = (s.sup i.cluster i.ap).faults ++ [faultRec i code (s.ctx i).pc (s.ctx i).prog]))

/-- The command ends in the fault of a code. -/
def State.apFaults (s : State) (c : Instr) (i : ApId) (code : Nat) : Prop := ∃ t, exec c s = .next t ∧ s.apFaulted t i code

/-- The command leaves ticket `n` busy, to write what `P` says, with no general register written yet, and goes on (R193). -/
def State.apIssues (s : State) (c : Instr) (i : ApId) (n : Nat) (P : State → List (Nat × DWord) → Prop) : Prop :=
  ∃ t k, exec c s = .next t ∧ (n, k) ∈ (t.ctx i).tickets ∧ P t k.writes ∧ (∀ m, t.gr i m = s.gr i m) ∧
    (t.ctx i).pc = ((s.ctx i).pc + 1) % 8192

/-! ## Records, rings and power requests -/

/-- The device may log one more record of a page this second, and a path carries it (R354). -/
def State.mayLog (s : State) (pg : Nat) : Prop :=
  s.lg.written < s.f Rg.EMRAM_LOG_CFG Fd.EMRAM_LOG_CFG_RATE ∧ (pg < 0x1000000 → s.pathUp = true)

/-- The event log's newest record is the one with a code and data, under the next LSEQ (R354). -/
def State.logsNext (s t : State) (code data : Nat) : Prop :=
  ∃ r, t.lg.recs.head? = some r ∧ r.code = code ∧ r.data = data ∧ r.tick = s.tickCount ∧
    r.lseq = (s.rd Rg.EMRAM_LOG_SEQ + 1) % 2 ^ 32 ∧ t.rd Rg.EMRAM_LOG_SEQ = r.lseq

/-- The descriptor of a ring at HEAD, `size` bytes long, is written back with a status word at byte `off`, and HEAD advances (R366). -/
def State.writesBack (s t : State) (r size off w : Nat) : Prop :=
  t.ringHead r = (s.ringHead r % s.ringSize r + 1) % s.ringSize r ∧
    Emit.hostWrite (s.f (Rg.DMA_RING_CFG r) Fd.DMA_RING_CFG_PORT)
      (s.rd64 (Rg.DMA_RING_BASE_LO r) + size * (s.ringHead r % s.ringSize r) + off) (leBytes 4 w) ∈ t.out

/-- A word written to PWR_DOM_REQ differs from the request register in bit `b` alone. -/
def onlyBit (v w b : Nat) : Prop := ∀ i, i < 32 → (bit v i = bit w i ↔ i ≠ b)

/-- A domain is neither ramping up, nor waiting to, nor going down. -/
def State.domCalm (s : State) (die d : Nat) : Prop :=
  domKey die d ∉ s.pw.rise ∧ domKey die d ∉ s.pw.wait ∧ domKey die d ∉ s.pw.fall

/-- Registers that the reset sequence itself sets (R381 to R383). -/
def bootReg (x : Nat) : Bool :=
  x == Rg.PWR_RESET_CAUSE 0 || x == Rg.PWR_RESET_CAUSE 1 || x == Rg.PWR_STRAP 1 || x == Rg.CLK_STAT 0 || x == Rg.CLK_STAT 1 ||
    (List.range 8).any fun i => x == Rg.PWR_GPIO_CFG 1 i

/-- The device after a reset with a cause: the registers that eMRAM keeps stand, every other one has its reset value but for those that
the reset sequence sets; time starts again; the queue and the part stand (R381 to R383). -/
def State.resetWith (s t : State) (env : BootEnv) (cause : Nat) : Prop :=
  t.part = s.part ∧ t.pending = s.pending ∧ t.tickCount = 0 ∧ t.pw.por = false ∧ t.pw.sup = false ∧
    t.rd (Rg.PWR_RESET_CAUSE 0) = cause ∧ t.rd (Rg.PWR_RESET_CAUSE 1) = cause ∧ t.rd (Rg.PWR_STRAP 1) = env.straps % 256 ∧
    (∀ x, eMramReg x = true → t.rd x = s.rd x) ∧ ∀ x, eMramReg x = false → bootReg x = false → t.rd x = regReset s.part x

end Sys2Proof.Machine
end

