-- ==== Sys2Proof/Certificates/Slice0/Obligations.lean ====
section
/-! DEFINITION. The statements for the provers: what the commands of the block do, family by family, from the numbered rules of the spec. -/
open Sys2Proof Sys2Proof.Machine

/-- A step runs the front command on the queue's rest; an empty queue idles (log entry 1, the model's choice). -/
def Obligations.StepRunsTheFrontCommand : Prop :=
  (∀ (c : Instr) (rest : List Instr) (s : State), step { s with pending := c :: rest } = exec c { s with pending := rest }) ∧
    ∀ s : State, s.pending = [] → step s = .next s

/-- After reset: a sound register file at its reset values (R18), TICK_COUNT 0 (R38), commit state OPEN with nothing staged (R60), no command. -/
def Obligations.ResetState : Prop :=
  State.reset.regsOk ∧ (∀ a, State.reset.rd a = regReset .lmb4812 a) ∧ State.reset.tickCount = 0 ∧
    State.reset.cmtState = cmOpen ∧ State.reset.shadows = [] ∧ State.reset.tkState = tkFree ∧
    State.reset.pending = [] ∧ State.reset.out = []

/-- Registers are 32 bits wide (R14) and have one reset value each (R18): every step keeps the register file sound, and no step changes the part (R1, R2). -/
def Obligations.EveryStepKeepsTheRegisterFileSound : Prop :=
  ∀ s t : State, s.regsOk → step s = .next t → t.regsOk ∧ t.part = s.part

/-- R16 and R17 for every register whose write is no more than its fields. -/
def Obligations.RegisterWriteByKind : Prop :=
  ∀ (s : State) (a : Acc) (addr : Nat) (v : Word) (r : RegDef), findReg addr = some r → r.staged = false →
    (∀ (u : State) (b : Acc), u.writeReg b addr v.toNat = u.fieldWrite addr v.toNat) →
    (r.reserved v.toNat = true → intReg (addr / 0x1000 * 0x1000) addr = false) → s.mayWrite a addr = true →
    ∃ t, exec (.registerWrite a addr v) s = .next t ∧
      (∀ f ∈ r.fields, t.f addr ⟨f.lo, f.w⟩ =
        match f.kind with
        | .rw => if f.ok (bits v.toNat f.lo f.w) then bits v.toNat f.lo f.w else s.f addr ⟨f.lo, f.w⟩
        | .w1c => s.f addr ⟨f.lo, f.w⟩ &&& (2 ^ f.w - 1 - bits v.toNat f.lo f.w)
        | .w1s => s.f addr ⟨f.lo, f.w⟩ ||| bits v.toNat f.lo f.w
        | _ => s.f addr ⟨f.lo, f.w⟩) ∧
      (r.reserved v.toNat = true → bit (t.rd (addr / 0x1000 * 0x1000 + 0x010)) 29 = true) ∧
      State.onlyRegs (fun x => x == addr || (r.reserved v.toNat && intReg (addr / 0x1000 * 0x1000) x)) s t

/-- R392, R3 and R375: a page that does not answer ignores writes. R14: a write with fewer than four byte enables is discarded and recorded. -/
def Obligations.DiscardedRegisterWrites : Prop :=
  (∀ (s : State) (a : Acc) (addr : Nat) (v : Word), (portOf a.req).isSome = true → a.be = 15 → a.user = false →
    s.reaches a.req addr = true → s.pageOn (addr / 0x1000) = false → exec (.registerWrite a addr v) s = .next s) ∧
  ∀ (s : State) (a : Acc) (addr : Nat) (v : Word) (p : Nat), portOf a.req = some p → a.be ≠ 15 → a.user = false →
    s.pageOn (Pg.PCIE p / 0x1000) = true →
    ∃ t, exec (.registerWrite a addr v) s = .next t ∧
      t.rd (Rg.PCIE_PARTIAL_WR_CNT p) = (s.rd (Rg.PCIE_PARTIAL_WR_CNT p) + 1) % 2 ^ 32 ∧
      bit (t.rd (Pg.PCIE p + 0x010)) Ib.PCIE_PARTIAL_WR = true ∧
      State.onlyRegs (fun x => x == Rg.PCIE_PARTIAL_WR_CNT p || cntReg (Pg.PCIE p) x) s t

/-- R58 with R16 and R393: a staging write, where the register file is sound. -/
def Obligations.StagedWrites : Prop :=
  ∀ (s : State) (a : Acc) (addr x : Nat) (v : Word) (r : RegDef), s.regsOk → findReg addr = some r → r.staged = true →
    r.fields.all (fun f => f.kind = .st || f.kind = .ro) = true → r.reserved v.toNat = false →
    0x100 ≤ addr % 0x1000 → addr % 0x1000 < 0x800 → x = addr ∨ x = addr + 0x700 →
    (∀ (u : State) (b : Acc), u.writeReg b x v.toNat = u.fieldWrite x v.toNat) → s.mayWrite a x = true →
    ∃ t, exec (.stWrite a x v) s = .next t ∧
      (s.stageOpen = true → State.onlyRegs (fun _ => false) { s with shadows := t.shadows } t ∧
        (∀ f ∈ r.fields, f.kind = .st → t.sf addr ⟨f.lo, f.w⟩ = bits v.toNat f.lo f.w) ∧
        ∀ y, y ≠ addr → t.staged y = s.staged y) ∧
      (s.stageOpen = false → t.rd Rg.CMT_LATE_WRITE_CNT = (s.rd Rg.CMT_LATE_WRITE_CNT + 1) % 2 ^ 32 ∧
        bit (t.rd (Pg.CMT + 0x010)) Ib.CMT_LATE_WRITE = true ∧
        State.onlyRegs (fun y => y == Rg.CMT_LATE_WRITE_CNT || cntReg Pg.CMT y) s t)

/-- R15: the latch of a read, the held half of a write, each requester's own. -/
def Obligations.SixtyFourBitValues : Prop :=
  (∀ (s : State) (a : Acc) (lo : Nat) (r : RegDef), isLo lo = true → isHi lo = false → 0x100 ≤ lo % 0x1000 → lo % 0x1000 < 0x800 →
    findReg lo = some r → r.fields.any (fun f => f.kind = .rc) = false → s.mayRead a lo = true →
    ∃ t, exec (.loRead a lo) s = .next t ∧ t.rsp = some (s.view lo a.clk) ∧
      t = { s with rsp := t.rsp, hiLatch := t.hiLatch } ∧ t.latched a.req lo = s.view (lo + 4) a.clk ∧
      t.readReg a (lo + 4) = s.view (lo + 4) a.clk ∧
      ∀ q m, ¬(q = a.req ∧ m = lo) → t.latched q m = s.latched q m) ∧
  ∀ (s : State) (a : Acc) (c : Nat) (v : Word), c < 18 →
    (s.mayWrite a (Rg.APC_DBG_DATA_LO c) = true → ∃ t, exec (.loWrite a (Rg.APC_DBG_DATA_LO c) v) s = .next t ∧
      t = { s with loHeld := t.loHeld } ∧ sget 0 t.loHeld (loKey a.req (Rg.APC_DBG_DATA_LO c)) = v.toNat + 1 ∧
      ∀ q, q ≠ a.req → sget 0 t.loHeld (loKey q (Rg.APC_DBG_DATA_LO c)) = sget 0 s.loHeld (loKey q (Rg.APC_DBG_DATA_LO c))) ∧
    (s.mayWrite a (Rg.APC_DBG_DATA_HI c) = true → s.rd (Rg.APC_DBG_DATA_LO c) < 2 ^ 32 → ∃ t, exec (.hiWrite a (Rg.APC_DBG_DATA_HI c) v) s = .next t ∧
      t.rd64 (Rg.APC_DBG_DATA_LO c) = v.toNat * 2 ^ 32 +
        (if sget 0 s.loHeld (loKey a.req (Rg.APC_DBG_DATA_LO c)) = 0 then s.rd (Rg.APC_DBG_DATA_LO c)
          else (sget 0 s.loHeld (loKey a.req (Rg.APC_DBG_DATA_LO c)) - 1) % 2 ^ 32) ∧
      sget 0 t.loHeld (loKey a.req (Rg.APC_DBG_DATA_LO c)) = 0 ∧
      State.onlyRegs (fun x => x == Rg.APC_DBG_DATA_LO c || x == Rg.APC_DBG_DATA_HI c) { s with loHeld := t.loHeld } t)

/-- R16, kind RC: current value, then cleared to its reset value. -/
def Obligations.ClearOnRead : Prop :=
  ∀ (s : State) (a : Acc) (addr : Nat) (r : RegDef), findReg addr = some r → r.fields.any (fun f => f.kind = .rc) = true →
    0x100 ≤ addr % 0x1000 → addr % 0x1000 < 0x800 → isLo addr = false → isHi addr = false →
    addr ≠ Rg.LEARN_NOTE_W0 → addr ≠ Rg.PTP_TXTS_W0 → addr ≠ Rg.SCRUB_RW_W0 → addr ≠ Rg.PTP_TOD_NS →
    s.te.frz = none → s.mayRead a addr = true →
    ∃ t, exec (.rcRead a addr) s = .next t ∧ t.rsp = some (s.readReg a addr) ∧
      (∀ f ∈ r.fields, t.f addr ⟨f.lo, f.w⟩ = if f.kind = .rc then f.reset else s.f addr ⟨f.lo, f.w⟩) ∧
      State.onlyRegs (fun x => x == addr) { s with rsp := t.rsp } t

/-- R396, R398, R400: PG_INT_SET, ENABLE, SOFT_RESET and PG_STAGE_CTRL. -/
def Obligations.PageHeader : Prop :=
  (∀ (s : State) (a : Acc) (page : Nat) (v : Word), s.mayWrite a (page * 0x1000 + 0x018) = true → irqReg (page * 0x1000 + 0x010) = false →
    ∃ t, exec (.pgIntSet a page v) s = .next t ∧ State.onlyRegs (intReg (page * 0x1000)) s t ∧
      t.rd (page * 0x1000 + 0x010) = (s.rd (page * 0x1000 + 0x010) ||| (v.toNat &&& intMask page)) % 2 ^ 32) ∧
  (∀ (s : State) (a : Acc) (page : Nat) (v : Word), s.mayWrite a (page * 0x1000 + 0x008) = true → page ≠ Pg.EQS / 0x1000 →
    ¬(0x1060 ≤ page ∧ page < 0x1064) → bit v.toNat 31 = false → bit v.toNat 30 = false →
    bit v.toNat 29 = s.pagePowerReq page →
    ∃ t, exec (.enable a page v) s = .next t ∧ State.onlyRegs (intReg (page * 0x1000)) s t ∧ bit (t.rd (page * 0x1000 + 0x010)) 27 = true) ∧
  (∀ (s : State) (a : Acc) (page : Nat) (v : Word), s.mayWrite a (page * 0x1000 + 0x008) = true → pageDoms page = [] →
    shas s.tblRun page = false → bit v.toNat 31 = true → bit v.toNat 30 = true → bit v.toNat 29 = true →
    ∃ t, exec (.softReset a page v) s = .next t ∧ t = { s with regs := t.regs, hiLatch := t.hiLatch, loHeld := t.loHeld } ∧
      (∀ off, off ∈ [0x010, 0x01C, 0x020, 0x024, 0x028] → t.rd (page * 0x1000 + off) = regReset s.part (page * 0x1000 + off)) ∧
      ∀ x, x / 0x1000 ≠ page → t.rd x = s.rd x) ∧
  ∀ (s : State) (a : Acc) (page : Nat), s.mayWrite a (page * 0x1000 + 0x030) = true →
    ∃ t, exec (.pageStageDiscard a page) s = .next t ∧
      (s.stageOpen = true → t = { s with shadows := t.shadows } ∧ ∀ x, sget 0 t.shadows x = if x / 0x1000 = page then 0 else sget 0 s.shadows x) ∧
      (s.stageOpen = false → t.rd Rg.CMT_LATE_WRITE_CNT = (s.rd Rg.CMT_LATE_WRITE_CNT + 1) % 2 ^ 32 ∧ t.shadows = s.shadows)

/-- R32 and R34 for FLIT_RECEIVE, LANE_PARITY_CHECK and LANE_REPAIR_COMPLETE. -/
def Obligations.DieToDieFlitsAndLanes : Prop :=
  ∀ (s : State) (d n : Nat), d < 2 → n < 16 → s.bundleUp d n = true → s.d2.training = false →
    (s.rx d).length = 16 → s.pageOn (Pg.D2D d / 0x1000) = true → s.pageOn (Pg.D2DL d (n / 2) / 0x1000) = true →
    (exec (.flitReceive d n (s.bundle d n).seq true true) s =
      .next (s.setBundle d n { s.bundle d n with seq := (s.bundle d n).seq + 1, replays := 0 })) ∧
    (∀ q, ∃ t, exec (.flitReceive d n q false true) s = .next t ∧
      t.rd (Rg.D2D_CRC_ERR_CNT d) = (s.rd (Rg.D2D_CRC_ERR_CNT d) + 1) % 2 ^ 32 ∧
      ((s.bundle d n).replays < 8 → t.rd (Rg.D2D_REPLAY_CNT d) = (s.rd (Rg.D2D_REPLAY_CNT d) + 1) % 2 ^ 32 ∧
        t.bundle d n = { s.bundle d n with replays := (s.bundle d n).replays + 1 } ∧ t.bundleUp d n = true) ∧
      (8 ≤ (s.bundle d n).replays → t.bundleUp d n = false)) ∧
    (∀ counts : List Nat, ∃ t, exec (.laneParityCheck d n counts) s = .next t ∧
      (∀ l, l < 33 → t.f (Rg.D2DL_LANE_ERR d (n / 2) (33 * (n % 2) + l)) Fd.D2DL_LANE_ERR_ERR = min 0xFFFF (lget 0 counts l)) ∧
      (s.fb (Rg.D2D_CTRL d) Fd.D2D_CTRL_AUTO_REPAIR = false → t.bundleUp d n = true ∧ t.bundle d n = s.bundle d n) ∧
      ∀ k, k < 33 → s.fb (Rg.D2D_CTRL d) Fd.D2D_CTRL_AUTO_REPAIR = true →
        s.fb (Rg.D2D_BUNDLE_STAT d n) Fd.D2D_BUNDLE_STAT_SPARE_USED = false → (s.bundle d n).repair = none →
        (∀ l, l < 32 → (s.f (Rg.D2D_LANE_THR d) Fd.D2D_LANE_THR_LANE_ERR_THR ≤ lget 0 counts l ↔ l = k)) → k < 32 →
        t.bundleUp d n = true ∧ (t.bundle d n).repair = some k) ∧
    ∀ l, l < 32 → (s.bundle d n).repair = some l → ∃ t, exec (.laneRepairComplete d n) s = .next t ∧
      t.fb (Rg.D2D_BUNDLE_STAT d n) Fd.D2D_BUNDLE_STAT_SPARE_USED = true ∧
      t.f (Rg.D2D_BUNDLE_STAT d n) Fd.D2D_BUNDLE_STAT_REPAIRED_LANE = l ∧ (t.bundle d n).repair = none ∧
      t.rd (Rg.D2D_REPAIR_CNT d) = (s.rd (Rg.D2D_REPAIR_CNT d) + 1) % 2 ^ 32 ∧ bit (t.rd (Pg.D2D d + 0x010)) Ib.D2D_LANE_REPAIRED = true

/-- R34, R35 and R36 for D2D_TRAINING_DONE, RETRAIN, AUTO_RETRAIN, FDIE_ACCESS_TIMEOUT and MANAGEMENT_PATH_CHANGE. -/
def Obligations.DieToDieTraining : Prop :=
  (∀ (s : State) (failF failT : List Nat), s.d2.training = true → s.d2dDown = true →
    (s.rx 0).length = 16 → (s.rx 1).length = 16 →
    ∃ t, exec (.d2dTrainingDone failF failT) s = .next t ∧
      (∀ n, n < 16 → t.bundleUp 0 n = bundleTrains (lget 0 failF n) ∧ t.bundleUp 1 n = bundleTrains (lget 0 failT n)) ∧
      t.f (Rg.D2D_STAT 0) Fd.D2D_STAT_STATE = linkState s.d2.minF s.d2.minT
        ((List.range 16).countP fun n => bundleTrains (lget 0 failF n)) ((List.range 16).countP fun n => bundleTrains (lget 0 failT n)) ∧
      t.d2.trained = true ∧ t.d2.training = false) ∧
  (∀ (s : State) (a : Acc) (d : Nat) (v : Word), d < 2 → s.mayWrite a (Rg.D2D_CTRL d) = true → bit v.toNat 0 = true →
    ∃ t, exec (.retrain a d v) s = .next t ∧
      (s.f (Rg.D2D_STAT 0) Fd.D2D_STAT_STATE ≤ 1 → t.d2.trained = false ∧ t.d2.training = true ∧ t.d2dDown = true) ∧
      (2 ≤ s.f (Rg.D2D_STAT 0) Fd.D2D_STAT_STATE → bit (t.rd (Pg.D2D d + 0x010)) Ib.D2D_REFUSED = true ∧
        State.onlyRegs (fun x => x == Rg.D2D_CTRL d || intReg (Pg.D2D d) x) s t)) ∧
  (∀ s : State, s.d2dDown = true → s.d2.training = false → 0 < s.d2.downTicks → s.d2.downTicks % 64 = 0 →
    s.fb (Rg.D2D_CTRL 0) Fd.D2D_CTRL_AUTO_RETRAIN = true ∨ s.fb (Rg.D2D_CTRL 1) Fd.D2D_CTRL_AUTO_RETRAIN = true →
    ∃ t, exec .autoRetrain s = .next t ∧ t.d2.trained = false ∧ t.d2.training = true ∧ t.d2dDown = true) ∧
  (∀ (s : State) (a : Acc) (p : Nat) (isRead : Bool), portOf a.req = some p → s.pageOn (Pg.PCIE p / 0x1000) = true →
    ∃ t, exec (.fdieAccessTimeout a isRead) s = .next t ∧ t.rsp = (if isRead then some 0xFFFFFFFF else s.rsp) ∧
      t.rd (Rg.PCIE_FDIE_FAIL_CNT p) = (s.rd (Rg.PCIE_FDIE_FAIL_CNT p) + 1) % 2 ^ 32 ∧
      State.onlyRegs (fun x => x == Rg.PCIE_FDIE_FAIL_CNT p || cntReg (Pg.PCIE p) x) { s with rsp := t.rsp } t) ∧
  ∀ (s : State) (up : Bool), ∃ t, exec (.managementPathChange up) s = .next t ∧ t.d2.mgmtUp = up

/-- R38 for TICK_BOUNDARY, with the advance of TIS of R46; that TICK_COUNT starts at 0 is a clause on State.reset. -/
def Obligations.TickBoundaryMovesTime : Prop :=
  State.reset.tickCount = 0 ∧
  ∀ (s : State) (copies cmtCopies scrub : Nat),
    (s.pw.por = true ∨ s.pw.sup = true → exec (.tickBoundary copies cmtCopies scrub) s = .next s) ∧
    (s.pw.por = false → s.pw.sup = false → s.tk.base ≤ s.tk.count → ∃ t, exec (.tickBoundary copies cmtCopies scrub) s = .next t ∧
      t.tk.count = s.tk.count + 1 ∧ t.tickCount = (s.tickCount + 1) % 2 ^ 64 ∧ t.tk.start = s.tk.start + s.tickLen ∧ t.tk.fixed = false ∧
      (s.tk.corr ≤ 2048 → (s.tickLen : Int) = 2048 - s.tk.corr) ∧
      (s.f Rg.TICK_CTRL Fd.TICK_CTRL_MODE = s.tk.mode → s.tk.adopt = none →
        t.f Rg.TICK_STAT Fd.TICK_STAT_TIS = (s.f Rg.TICK_STAT Fd.TICK_STAT_TIS + 1) % 64))

/-- R43 for SYNC_EDGE, and R40 and R41 for SYNC_TAG. -/
def Obligations.SyncInput : Prop :=
  (∀ (s : State) (clk : Nat), s.tk.mode ≠ 1 → exec (.syncEdge clk) s = .next s) ∧
  (∀ (s : State) (clk l : Nat), s.tk.mode = 1 → s.tk.lastEdge = some l →
    (l + 1536 ≤ s.at clk → ∃ t, exec (.syncEdge clk) s = .next t ∧ t.tk.lastEdge = some (s.at clk) ∧
      t.tk.edges = s.tk.edges ++ [⟨s.at clk, none⟩] ∧ t = { s with tk := t.tk }) ∧
    (l + 200 ≤ s.at clk → s.at clk ≤ l + 839 → exec (.syncEdge clk) s = .next s) ∧
    (s.at clk < l + 1536 → ¬(l + 200 ≤ s.at clk ∧ s.at clk ≤ l + 839) → s.pageOn (Pg.TICK / 0x1000) = true →
      ∃ t, exec (.syncEdge clk) s = .next t ∧ t.rd Rg.TICK_EARLY_EDGE_CNT = (s.rd Rg.TICK_EARLY_EDGE_CNT + 1) % 2 ^ 32 ∧
        State.onlyRegs (fun x => x == Rg.TICK_EARLY_EDGE_CNT || cntReg Pg.TICK x) s t)) ∧
  (∀ (s : State) (w : Nat), s.tk.mode = 1 → w < 2 ^ 32 → ∃ t, exec (.syncTag (tagCells w)) s = .next t ∧
    (tagCrc w = w % 256 → t.rd Rg.TICK_LAST_TAG = w ∧ t.tk.curTag = some w) ∧
    (tagCrc w ≠ w % 256 → t.regs = s.regs ∧ t.tk.curTag = s.tk.curTag)) ∧
  tagCrc 0x00006027 = 0x27

/-- R44, R404 and R405 for TICK_JUDGMENT. -/
def Obligations.TickJudgment : Prop :=
  (∀ s : State, s.tk.bounds = [] → exec .tickJudgment s = .next s) ∧
  ∀ (s : State) (b : Bound) (later : List Bound), s.tk.bounds = b :: later → s.pageOn (Pg.TICK / 0x1000) = true →
    ((s.tk.edges.filter fun e => decide ((b.time : Int) - 1024 ≤ e.time + s.skew ∧ e.time + s.skew ≤ b.time + 1023)) = [] →
      ∃ t, exec .tickJudgment s = .next t ∧ t.tk.bounds = later ∧ t.tk.noEdge = s.tk.noEdge + 1 ∧
        t.rd Rg.TICK_MISSING_EDGE_CNT = (s.rd Rg.TICK_MISSING_EDGE_CNT + 1) % 2 ^ 32 ∧
        t.f Rg.TICK_STAT Fd.TICK_STAT_GOOD_RUN = 0 ∧
        t.f Rg.TICK_STAT Fd.TICK_STAT_ANOM_RUN = min 31 (s.f Rg.TICK_STAT Fd.TICK_STAT_ANOM_RUN + 1)) ∧
    ∀ (e : SyncEdge) (w : Nat), (s.tk.edges.filter fun e => decide ((b.time : Int) - 1024 ≤ e.time + s.skew ∧ e.time + s.skew ≤ b.time + 1023)) = [e] →
      e.tag = some (w, true) → s.tkState = tkLocked → tagTis w = (b.tis + 1) % 64 →
      ((b.time : Int) - (e.time + s.skew)).natAbs ≤ s.f Rg.TICK_CTRL Fd.TICK_CTRL_WINDOW →
      ∃ t, exec .tickJudgment s = .next t ∧ t.tk.bounds = later ∧ t.tkState = tkLocked ∧ t.tk.noEdge = 0 ∧
        t.f Rg.TICK_STAT Fd.TICK_STAT_GOOD_RUN = min 64 (s.f Rg.TICK_STAT Fd.TICK_STAT_GOOD_RUN + 1) ∧
        t.f Rg.TICK_STAT Fd.TICK_STAT_ANOM_RUN = 0 ∧
        (if s.tk.fixed then t.tk.nextCorr else t.tk.corr) =
          clampInt (s.f Rg.TICK_CTRL Fd.TICK_CTRL_WINDOW) ((b.time : Int) - (e.time + s.skew) - b.fixed)

/-- R48 and R49 for SYNC_OUT_EDGE and TICK_GEN_CMT, R23 and R405 for TICK_PLAN. -/
def Obligations.SyncOutputAndPlan : Prop :=
  (∀ (s : State) (cells : List (Bool × Bool)) (timely : Bool), ∃ t, exec (.syncOutEdge cells timely) s = .next t ∧ t.regs = s.regs ∧
    (s.f Rg.TICK_CTRL Fd.TICK_CTRL_OUT_MODE = 0 → t.out = .pin "SYNC_OUT" false :: s.out) ∧
    (2 ≤ s.f Rg.TICK_CTRL Fd.TICK_CTRL_OUT_MODE →
      t.out = .sync (s.tk.start + s.tickLen - s.f Rg.TICK_SKEW Fd.TICK_SKEW_OUT_ADV) s.ownTag false :: s.out)) ∧
  (∀ s : State, tagCrc s.ownTag = s.ownTag % 256) ∧
  (∀ (s : State) (a : Acc) (v : Word), s.mayWrite a Rg.TICK_GEN_CMT = true → bit v.toNat 31 = true → ∃ t, exec (.tickGenCmt a v) s = .next t ∧
    (s.tk.mode = 2 ∧ epochLater (v.toNat % 4096) (s.f Rg.CMT_EPOCH Fd.CMT_EPOCH_SYS) = true →
      (s.tk.sentTag.isSome = true → a.clk + s.f Rg.TICK_SKEW Fd.TICK_SKEW_OUT_ADV < s.tickLen + 200 → t = { s with tk := t.tk, out := t.out } ∧
        t.tk.genCmt = s.tk.genCmt ∧ t.tk.sentTag = some (mkTag (s.f Rg.TICK_STAT Fd.TICK_STAT_TIS + 2) (v.toNat % 4096) 1)) ∧
      (s.tk.sentTag = none → s.tk.curTag.isSome = true → a.clk + s.f Rg.TICK_SKEW Fd.TICK_SKEW_OUT_ADV < 200 →
        t.tk.curTag = some (mkTag (s.f Rg.TICK_STAT Fd.TICK_STAT_TIS + 1) (v.toNat % 4096) 1) ∧ t.tk.genCmt = s.tk.genCmt ∧
        State.onlyRegs (fun x => x == Rg.TICK_LAST_TAG) { s with tk := t.tk, out := t.out } t) ∧
      (¬(s.tk.sentTag.isSome = true ∧ a.clk + s.f Rg.TICK_SKEW Fd.TICK_SKEW_OUT_ADV < s.tickLen + 200) →
        ¬(s.tk.sentTag = none ∧ s.tk.curTag.isSome = true ∧ a.clk + s.f Rg.TICK_SKEW Fd.TICK_SKEW_OUT_ADV < 200) → t = { s with tk := t.tk } ∧
        t.tk.genCmt = some (v.toNat % 4096))) ∧
    (¬(s.tk.mode = 2 ∧ epochLater (v.toNat % 4096) (s.f Rg.CMT_EPOCH Fd.CMT_EPOCH_SYS) = true) →
      bit (t.rd (Pg.TICK + 0x010)) Ib.TICK_REFUSED = true ∧ State.onlyRegs (intReg Pg.TICK) s t)) ∧
  ∀ (s : State) (viaLink viaMgmt : Bool), ∃ t, exec (.tickPlan viaLink viaMgmt) s = .next t ∧ t = { s with tk := t.tk, cm := t.cm } ∧
    t.tk.fixed = true ∧ t.tickLen = s.tickLen ∧ t.cm.planCommit = s.commitComing ∧
    t.cm.planArrived = ((viaLink && !s.d2dDown) || (viaMgmt && s.d2.mgmtUp))

/-- R51 whole, and of R58 to R60 what concerns CMT_STAGE_CLOSE, CMT_ARM, REOPEN, DISCARD and ABORT. -/
def Obligations.CommitCommands : Prop :=
  (∀ (s : State) (a : Acc) (v : Word), s.mayWrite a Rg.CMT_STAGE_CLOSE = true → bit v.toNat 0 = true → ∃ t, exec (.cmtStageClose a v) s = .next t ∧
    (s.stageOpen = true → t.cmtState = cmChecking ∧ t.f Rg.CMT_STAT Fd.CMT_STAT_OWNER = reqNo a.req ∧ t.fb Rg.CMT_STAT Fd.CMT_STAT_NO_OWNER = false ∧
      t.fb Rg.CMT_CHECK_STAT Fd.CMT_CHECK_STAT_DONE = false ∧ State.onlyRegs (fun x => x == Rg.CMT_STAT || x == Rg.CMT_CHECK_STAT) s t) ∧
    (s.stageOpen = false → t.cmtState = s.cmtState ∧ t.f Rg.CMT_STAT Fd.CMT_STAT_REFUSE = rfWrongState ∧
      t.rd Rg.CMT_REFUSE_CNT = (s.rd Rg.CMT_REFUSE_CNT + 1) % 2 ^ 32 ∧ bit (t.rd (Pg.CMT + 0x010)) Ib.CMT_REFUSED = true ∧
      State.onlyRegs (fun x => x == Rg.CMT_STAT || x == Rg.CMT_REFUSE_CNT || cntReg Pg.CMT x) s t)) ∧
  (∀ (s : State) (a : Acc) (v : Word), s.mayWrite a Rg.CMT_ARM = true → s.cmtBusy = false → s.cmtState = cmClosed ∨ s.cmtState = cmMissed →
    s.fb Rg.CMT_STAT Fd.CMT_STAT_NO_OWNER = false → bit v.toNat 31 = true → ∃ t, exec (.cmtArm a v) s = .next t ∧
    (s.f Rg.CMT_STAT Fd.CMT_STAT_OWNER ≠ reqNo a.req → t.cmtState = s.cmtState ∧ t.f Rg.CMT_STAT Fd.CMT_STAT_REFUSE = rfNotOwner ∧
      t.rd Rg.CMT_REFUSE_CNT = (s.rd Rg.CMT_REFUSE_CNT + 1) % 2 ^ 32 ∧ bit (t.rd (Pg.CMT + 0x010)) Ib.CMT_REFUSED = true ∧
      State.onlyRegs (fun x => x == Rg.CMT_STAT || x == Rg.CMT_REFUSE_CNT || cntReg Pg.CMT x) s t) ∧
    (s.f Rg.CMT_STAT Fd.CMT_STAT_OWNER = reqNo a.req → epochLater (v.toNat % 4096) s.refEpoch = true → s.versionBusy = false → s.d2dDown = false →
      t.cmtState = cmArmed ∧ t.f Rg.CMT_STAT Fd.CMT_STAT_TARGET = v.toNat % 4096 ∧
      State.onlyRegs (fun x => x == Rg.CMT_STAT) { s with cm := t.cm } t) ∧
    (s.f Rg.CMT_STAT Fd.CMT_STAT_OWNER = reqNo a.req → epochLater (v.toNat % 4096) s.refEpoch = false → t.cmtState = s.cmtState ∧
      t.f Rg.CMT_STAT Fd.CMT_STAT_REFUSE = rfPastEpoch ∧
      t.rd Rg.CMT_REFUSE_CNT = (s.rd Rg.CMT_REFUSE_CNT + 1) % 2 ^ 32 ∧ bit (t.rd (Pg.CMT + 0x010)) Ib.CMT_REFUSED = true ∧
      State.onlyRegs (fun x => x == Rg.CMT_STAT || x == Rg.CMT_REFUSE_CNT || cntReg Pg.CMT x) s t)) ∧
  (∀ a b, a < 4096 → b < 4096 → (epochLater a b = true ↔ 1 ≤ ((a : Int) - b) % 4096 ∧ ((a : Int) - b) % 4096 ≤ 2047)) ∧
  (∀ s : State, s.refEpoch =
    if s.fb Rg.CMT_CTRL Fd.CMT_CTRL_COMMIT_MODE then s.f Rg.CMT_EPOCH Fd.CMT_EPOCH_SYS else s.f Rg.CMT_EPOCH Fd.CMT_EPOCH_LIVE) ∧
  (∀ (s : State) (a : Acc), s.mayWrite a Rg.CMT_CMD = true → s.cmtBusy = false → s.fb Rg.CMT_STAT Fd.CMT_STAT_NO_OWNER = false →
    s.f Rg.CMT_STAT Fd.CMT_STAT_OWNER = reqNo a.req →
    (s.reopenable = true →
      (∃ t, exec (.reopen a) s = .next t ∧ t.cmtState = cmOpen ∧ t.shadows = s.shadows ∧ State.onlyRegs (fun x => x == Rg.CMT_STAT) s t) ∧
      ∃ t, exec (.discard a) s = .next t ∧ t.cmtBusy = true ∧ t.cmtState = s.cmtState ∧ State.onlyRegs (fun x => x == Rg.CMT_STAT) s t) ∧
    (s.cmtState = cmArmed → a.clk < 1024 → ∃ t, exec (.abort a) s = .next t ∧ t.cmtState = cmClosed ∧ t.shadows = s.shadows ∧
      State.onlyRegs (fun x => x == Rg.CMT_STAT) { s with cm := t.cm } t))

/-- R56, R60, R62 and R63 for CHECK_DONE, CMT_CTRL_WRITE, COMMIT_DECISION and DISCARD_DONE. -/
def Obligations.CommitCheckAndDecision : Prop :=
  (∀ s : State, s.cmtState = cmChecking → s.pageOn (Pg.CMT / 0x1000) = true → ∃ t, exec .checkDone s = .next t ∧
    t.fb Rg.CMT_CHECK_STAT Fd.CMT_CHECK_STAT_DONE = true ∧ bit (t.rd (Pg.CMT + 0x010)) Ib.CMT_CHECK_DONE = true ∧
    (s.check = [] → t.cmtState = cmClosed ∧ t.fb Rg.CMT_CHECK_STAT Fd.CMT_CHECK_STAT_PASS = true ∧ t.rd Rg.CMT_CHECK_FIRST = 0) ∧
    (s.check ≠ [] → t.cmtState = cmCheckFail ∧ t.fb Rg.CMT_CHECK_STAT Fd.CMT_CHECK_STAT_PASS = false ∧
      ∃ f ∈ s.check, (∀ g ∈ s.check, f.2 ≤ g.2) ∧ t.rd Rg.CMT_CHECK_FIRST = failWord f % 2 ^ 32) ∧
    State.onlyRegs (fun x => x == Rg.CMT_STAT || x == Rg.CMT_CHECK_STAT || x == Rg.CMT_CHECK_FIRST || intReg Pg.CMT x) s t) ∧
  (∀ (s : State) (a : Acc) (v : Word), s.mayWrite a Rg.CMT_CTRL = true → bit v.toNat 0 ≠ s.sysMode → ∃ t, exec (.cmtCtrlWrite a v) s = .next t ∧
    (s.cmtState = cmArmed → t.sysMode = s.sysMode ∧ t.f Rg.CMT_STAT Fd.CMT_STAT_REFUSE = rfModeArmed ∧ t.cmtState = cmArmed) ∧
    (s.cmtState = cmOpen → s.cmtBusy = false → t.sysMode = bit v.toNat 0 ∧
      t.f Rg.CMT_EPOCH Fd.CMT_EPOCH_SYS = s.f Rg.CMT_EPOCH Fd.CMT_EPOCH_LIVE ∧ t.f Rg.CMT_EPOCH Fd.CMT_EPOCH_LIVE = s.f Rg.CMT_EPOCH Fd.CMT_EPOCH_LIVE)) ∧
  (∀ s : State, ∃ t, exec .commitDecision s = .next t ∧ t = { s with cm := t.cm } ∧
    (t.cm.apply = true ↔ s.sysMode = true ∧ s.cmtState = cmArmed ∧ (s.tkState = tkLocked ∨ (s.tkState = tkFree ∧ s.tk.mode = 2)) ∧
      (∃ w, s.tk.curTag = some w ∧ tagCommit w = true ∧ tagEpoch w = s.f Rg.CMT_STAT Fd.CMT_STAT_TARGET) ∧ s.d2dDown = false)) ∧
  ∀ s : State, s.cmtBusy = true → ∃ t, exec .discardDone s = .next t ∧ t.shadows = [] ∧ t.classLog = [] ∧ t.terrLog = [] ∧ t.tblPending = [] ∧
    t.cmtState = cmOpen ∧ t.cmtBusy = false

/-- R52, R57 and R60 for TICK_BOUNDARY with a commit due, and R54 for LOG_WALK_START. -/
def Obligations.CommitBoundary : Prop :=
  (∀ (s : State) (copies cmtCopies scrub : Nat), s.pw.por = false → s.pw.sup = false → s.commitComing = true →
    ∃ t, exec (.tickBoundary copies cmtCopies scrub) s = .next t ∧
      (s.d2dDown = false → 3 ≤ popcount 4 cmtCopies → t.cmtState = cmOpen ∧ t.shadows = [] ∧
        t.f Rg.CMT_EPOCH Fd.CMT_EPOCH_LIVE = s.f Rg.CMT_STAT Fd.CMT_STAT_TARGET ∧
        t.rd Rg.CMT_APPLY_CNT = (s.rd Rg.CMT_APPLY_CNT + 1) % 2 ^ 32 ∧ bit (t.rd (Pg.CMT + 0x010)) Ib.CMT_APPLIED = true) ∧
      (s.d2dDown = true → t.cmtState = cmMissed ∧ t.shadows = s.shadows ∧
        t.f Rg.CMT_EPOCH Fd.CMT_EPOCH_LIVE = s.f Rg.CMT_EPOCH Fd.CMT_EPOCH_LIVE ∧
        t.rd Rg.CMT_MISSED_CNT = (s.rd Rg.CMT_MISSED_CNT + 1) % 2 ^ 32 ∧ bit (t.rd (Pg.CMT + 0x010)) Ib.CMT_MISSED = true)) ∧
  ∀ s : State, s.cm.walkDue = true → s.prevCount = 0 → ∃ t, exec .logWalkStart s = .next t ∧ t.cm.walkDue = false ∧
    t.fb Rg.CLASS_LOG_STAT Fd.CLASS_LOG_STAT_CLEANUP = true ∧ t.fb Rg.TERR_LOG_STAT Fd.TERR_LOG_STAT_CLEANUP = true ∧
    State.onlyRegs (fun x => x == Rg.CLASS_LOG_STAT || x == Rg.TERR_LOG_STAT) { s with cm := t.cm } t

/-- R66, R69 and R218 for LINK_TRAINING_DONE, TRAIN_TIMEOUT, TRAIN_RETRY, LINK_ALIGNED, LINK_UP_HOLD_EXPIRY, LINK_LOCK_LOSS, CDR_LOCK_LOSS and LOOPBACK_CHANGE. -/
def Obligations.LineLinkStates : Prop :=
  ∀ (s : State) (p : Nat), s.lportOn p = true → s.isClient p = false → p % 8 + cfgLanes (s.rd (lpCfg p)) ≤ 8 →
    (s.lkState p = lkTraining →
      (∃ t, exec (.linkTrainingDone p) s = .next t ∧ t.lkState p = lkAligning ∧
        (∀ l ∈ s.lpLanes p, t.fb (laneStat l) Fd.LSER_LANE_STAT_CDR_LOCK = true ∧
          t.f (laneStat l) Fd.LSER_LANE_STAT_TRAIN = if s.fb (laneCfg l) Fd.LSER_LANE_CFG_TRAIN_EN then 2 else 0) ∧
        State.onlyRegs (fun x => x == lpStat p || (s.lpLanes p).any fun l => x == laneStat l) { s with ports := t.ports } t) ∧
      (∀ l ∈ s.lpLanes p, s.f (laneStat l) Fd.LSER_LANE_STAT_TRAIN = 1 → ∃ t, exec (.trainTimeout p l) s = .next t ∧
        t.f (laneStat l) Fd.LSER_LANE_STAT_TRAIN = 3 ∧ t.lkState p = lkTraining ∧
        t.rd (Rg.LSER_TRAIN_FAIL_CNT (l / 8) (l % 8)) = (s.rd (Rg.LSER_TRAIN_FAIL_CNT (l / 8) (l % 8)) + 1) % 2 ^ 32 ∧
        bit (t.rd (Pg.LSER (l / 8) + 0x010)) (l % 8) = true ∧
        State.onlyRegs (fun x => x == laneStat l || x == Rg.LSER_TRAIN_FAIL_CNT (l / 8) (l % 8) || cntReg (Pg.LSER (l / 8)) x) s t) ∧
      ∃ t, exec (.trainRetry p) s = .next t ∧
        (∀ l ∈ s.lpLanes p, t.f (laneStat l) Fd.LSER_LANE_STAT_TRAIN = s.f (laneCfg l) Fd.LSER_LANE_CFG_TRAIN_EN) ∧
        State.onlyRegs (fun x => (s.lpLanes p).any fun l => x == laneStat l) s t) ∧
    (s.lkState p = lkAligning → ∃ t, exec (.linkAligned p) s = .next t ∧ t.lkState p = lkHold ∧
      t.fb (lpStat p) Fd.LPORT_STAT_AM_LOCK = true ∧ t.fb (lpStat p) Fd.LPORT_STAT_FEC_LOCK = true ∧
      State.onlyRegs (fun x => x == lpStat p) { s with ports := t.ports } t) ∧
    (s.lkState p = lkHold → ∃ t, exec (.linkUpHoldExpiry p) s = .next t ∧ t.lkState p = lkUp ∧
      t.fb (lpStat p) Fd.LPORT_STAT_LINK_UP = true ∧ bit (t.rd (Pg.LPORT (p / 8) + 0x010)) (p % 8) = true ∧
      ((s.pauseWant p ||| (s.lport p).pfcSent) = 0 →
        State.onlyRegs (fun x => x == lpStat p || intReg (Pg.LPORT (p / 8)) x) { s with ports := t.ports } t) ∧
      ((s.pauseWant p ||| (s.lport p).pfcSent) ≠ 0 →
        (∃ q, Emit.pfc p (s.pauseWant p ||| (s.lport p).pfcSent) q ∈ t.out) ∧
        State.onlyRegs (fun x => x == lpStat p || intReg (Pg.LPORT (p / 8)) x || x == lpCnt p 10 || x == lpCnt p 10 + 4 ||
          cntReg (Pg.LPORT (p / 8)) x) { s with ports := t.ports } t)) ∧
    (∀ am fec : Bool, s.lkState p = lkHold ∨ s.lkState p = lkUp → ∃ t, exec (.linkLockLoss p am fec) s = .next t ∧ t.lkState p = lkAligning ∧
      t.fb (lpStat p) Fd.LPORT_STAT_LINK_UP = false ∧ t.rd (lpPfcStat p) = 0 ∧
      t.fb (lpStat p) Fd.LPORT_STAT_AM_LOCK = (s.fb (lpStat p) Fd.LPORT_STAT_AM_LOCK && !am) ∧
      t.fb (lpStat p) Fd.LPORT_STAT_FEC_LOCK = (s.fb (lpStat p) Fd.LPORT_STAT_FEC_LOCK && !fec) ∧
      (s.lkState p = lkUp → bit (t.rd (Pg.LPORT (p / 8) + 0x010)) (p % 8) = true) ∧
      State.onlyRegs (fun x => x == lpStat p || x == lpPfcStat p || intReg (Pg.LPORT (p / 8)) x) { s with ports := t.ports } t) ∧
    (∀ l ∈ s.lpLanes p, s.lkState p ≠ lkDown → ∃ t, exec (.cdrLockLoss p l) s = .next t ∧ t.lkState p = lkTraining ∧
      t.fb (lpStat p) Fd.LPORT_STAT_LINK_UP = false ∧ t.fb (laneStat l) Fd.LSER_LANE_STAT_CDR_LOCK = false ∧ t.rd (lpPfcStat p) = 0 ∧
      State.onlyRegs (fun x => x == lpStat p || x == lpPfcStat p || intReg (Pg.LPORT (p / 8)) x || (s.lpLanes p).any fun l => x == laneStat l)
        { s with ports := t.ports } t) ∧
    ∀ (a : Acc) (v : Word), s.mayWrite a (lpCtrl p) = true → bits v.toNat 6 2 ≠ s.f (lpCtrl p) Fd.LPORT_CTRL_LOOPBACK → bits v.toNat 6 2 ≠ 3 →
      ∃ t, exec (.loopbackChange a p v) s = .next t ∧ t.lkState p = lkDown ∧ t.fb (lpStat p) Fd.LPORT_STAT_LINK_UP = false ∧
        t.f (lpCtrl p) Fd.LPORT_CTRL_LOOPBACK = bits v.toNat 6 2 ∧ t.rd (lpPfcStat p) = 0 ∧
        State.onlyRegs (fun x => x == lpCtrl p || x == lpStat p || x == lpPfcStat p || intReg (Pg.LPORT (p / 8)) x) { s with ports := t.ports } t

/-- R67 and R68 for RX_FAULT_ORDERED_SET and FEC_CODEWORD. -/
def Obligations.LineFaultsAndCodewords : Prop :=
  ∀ (s : State) (p : Nat), s.lportOn p = true →
    (∀ lf rf : Bool, ∃ t, exec (.rxFaultOrderedSet p lf rf) s = .next t ∧ t.fb (lpStat p) Fd.LPORT_STAT_RF = rf ∧
      t.fb (lpStat p) Fd.LPORT_STAT_LF = (lf || (s.lkState p != lkDown && !s.fb (lpStat p) Fd.LPORT_STAT_AM_LOCK)) ∧
      t.lkState p = s.lkState p ∧ State.onlyRegs (fun x => x == lpStat p) { s with ports := t.ports } t) ∧
    ∀ errs : Nat, ∃ t, exec (.fecCodeword p errs) s = .next t ∧
      State.onlyRegs (fun x => x == Rg.LSER_FEC_HIST (p / 8) (p % 8) errs || decide (lpCnt p 12 ≤ x ∧ x < lpCnt p 15) ||
        cntReg (Pg.LPORT (p / 8)) x || cntReg (Pg.LSER (p / 8)) x) s t ∧
      (errs = 0 ∨ (errs ≤ 15 ∧ s.fb (lpCtrl p) Fd.LPORT_CTRL_FEC_CORRECT = true) →
        t.rd (Rg.LSER_FEC_HIST (p / 8) (p % 8) errs) = (s.rd (Rg.LSER_FEC_HIST (p / 8) (p % 8) errs) + 1) % 2 ^ 32 ∧
        (0 < errs → t.rd64 (lpCnt p 12) = (s.rd64 (lpCnt p 12) + 1) % 2 ^ 64 ∧ t.rd64 (lpCnt p 14) = (s.rd64 (lpCnt p 14) + errs) % 2 ^ 64)) ∧
      (¬(errs = 0 ∨ (errs ≤ 15 ∧ s.fb (lpCtrl p) Fd.LPORT_CTRL_FEC_CORRECT = true)) →
        t.rd64 (lpCnt p 13) = (s.rd64 (lpCnt p 13) + 1) % 2 ^ 64 ∧
        State.onlyRegs (fun x => x == lpCnt p 13 || x == lpCnt p 13 + 4 || cntReg (Pg.LPORT (p / 8)) x) s t)

/-- R69, R70 and R71 for MAC_RX_FRAME. -/
def Obligations.MacReceive : Prop :=
  ∀ (s : State) (p clk : Nat) (b : List Byte), s.lportOn p = true → s.lpFlexe p ≠ 1 →
    (s.lkIsUp p = false → ∀ ce, exec (.macRxFrame p b ce clk) s = .next s) ∧
    (s.lkIsUp p = true → b.length < 64 → ∀ ce, ∃ t, exec (.macRxFrame p b ce clk) s = .next t ∧
      t.rd64 (lpCnt p 3) = (s.rd64 (lpCnt p 3) + 1) % 2 ^ 64 ∧
      State.onlyRegs (fun x => x == lpCnt p 3 || x == lpCnt p 3 + 4 || cntReg (Pg.LPORT (p / 8)) x) s t) ∧
    (s.lkIsUp p = true → 64 ≤ b.length → s.f (lpCfg p) Fd.LPORT_CFG_MAX_FRAME < b.length → ∀ ce, ∃ t, exec (.macRxFrame p b ce clk) s = .next t ∧
      t.rd64 (lpCnt p 4) = (s.rd64 (lpCnt p 4) + 1) % 2 ^ 64 ∧
      State.onlyRegs (fun x => x == lpCnt p 4 || x == lpCnt p 4 + 4 || cntReg (Pg.LPORT (p / 8)) x) s t) ∧
    (s.lkIsUp p = true → 64 ≤ b.length → b.length ≤ s.f (lpCfg p) Fd.LPORT_CFG_MAX_FRAME →
      ∃ t, exec (.macRxFrame p b none clk) s = .next t ∧
        State.onlyRegs (fun x => x == lpPfcStat p || decide (lpCnt p 0 ≤ x ∧ x < lpCnt p 16) || x / 0x1000 == 0x0E8 + p / 8 || cntReg (Pg.LPORT (p / 8)) x)
          { s with ports := t.ports, macQ := t.macQ } t ∧
        (fcsOk b = true → t.rd64 (lpCnt p 0) = (s.rd64 (lpCnt p 0) + 1) % 2 ^ 64 ∧ t.rd64 (lpCnt p 1) = (s.rd64 (lpCnt p 1) + b.length) % 2 ^ 64) ∧
        (fcsOk b = true → be16 b 12 ≠ 0x8808 → t.macQ = s.macQ ++ [⟨p, b, false, s.rxStamp p clk⟩]) ∧
        (fcsOk b = true → be16 b 12 = 0x8808 → be16 b 14 = 0x0001 → t.macQ = s.macQ ∧ t.rd (lpPfcStat p) = s.rd (lpPfcStat p) ∧
          t.rd64 (lpCnt p 7) = (s.rd64 (lpCnt p 7) + 1) % 2 ^ 64) ∧
        (fcsOk b = false → t.rd64 (lpCnt p 2) = (s.rd64 (lpCnt p 2) + 1) % 2 ^ 64 ∧
          t.macQ = if b.length ≤ 256 then s.macQ else s.macQ ++ [⟨p, b, true, s.rxStamp p clk⟩]))

/-- R72 and R74 for PFC_RX, PFC_PAUSE_EXPIRY, PFC_STORM and PFC_STORM_RECOVER_END. -/
def Obligations.PfcReception : Prop :=
  ∀ (s : State) (p : Nat), s.lportOn p = true →
    (∀ (enable : Nat) (quanta : List Nat), s.lkIsUp p = true → ∃ t, exec (.pfcRx p enable quanta) s = .next t ∧
      t.rd64 (lpCnt p 6) = (s.rd64 (lpCnt p 6) + 1) % 2 ^ 64 ∧
      (∀ i, i < 8 → bit (t.rd (lpPfcStat p)) i =
        if bit enable i && bit (s.f (lpPfcCfg p) Fd.LPORT_PFC_CFG_RX_PRI_EN) i && !bit (s.rd (lpPfcStat p)) (8 + i) then lget 0 quanta i % 2 ^ 16 != 0
        else bit (s.rd (lpPfcStat p)) i) ∧
      t.f (lpPfcStat p) Fd.LPORT_PFC_STAT_STORM = s.f (lpPfcStat p) Fd.LPORT_PFC_STAT_STORM ∧
      State.onlyRegs (fun x => x == lpPfcStat p || x == lpCnt p 6 || x == lpCnt p 6 + 4 || cntReg (Pg.LPORT (p / 8)) x) { s with ports := t.ports } t) ∧
    (∀ i, i < 8 → ∃ t, exec (.pfcPauseExpiry p i) s = .next t ∧ bit (t.rd (lpPfcStat p)) i = false ∧
      (∀ j, j < 16 → j ≠ i → bit (t.rd (lpPfcStat p)) j = bit (s.rd (lpPfcStat p)) j) ∧
      State.onlyRegs (fun x => x == lpPfcStat p) { s with ports := t.ports } t) ∧
    (∀ i, i < 8 → bit (s.rd (lpPfcStat p)) i = true → s.f (Rg.LPORT_STORM_CFG (p / 8) (p % 8)) Fd.LPORT_STORM_CFG_STORM_TIME ≠ 0 →
      ∃ t, exec (.pfcStorm p i) s = .next t ∧ bit (t.rd (lpPfcStat p)) i = false ∧ bit (t.rd (lpPfcStat p)) (8 + i) = true ∧
        t.rd64 (lpCnt p 15) = (s.rd64 (lpCnt p 15) + 1) % 2 ^ 64 ∧ bit (t.rd (Pg.LPORT (p / 8) + 0x010)) (8 + p % 8) = true ∧
        State.onlyRegs (fun x => x == lpPfcStat p || x == lpCnt p 15 || x == lpCnt p 15 + 4 || cntReg (Pg.LPORT (p / 8)) x)
          { s with ports := t.ports } t) ∧
    ∀ i, i < 8 → ∃ t, exec (.pfcStormRecoverEnd p i) s = .next t ∧ bit (t.rd (lpPfcStat p)) (8 + i) = false ∧
      State.onlyRegs (fun x => x == lpPfcStat p) s t

/-- R77 to R80 for FLEXE_CAL_ACK, FLEXE_CAL_SWITCH, CAL_TIMEOUT, FLEXE_OVERHEAD_RX and FLEXE_OH_LOCK. -/
def Obligations.FlexEGroups : Prop :=
  ∀ (s : State) (e k : Nat), s.flexOn e k = true →
    (∀ pg, (s.flexGrp e k).req = some pg →
      (∃ t, exec (.flexeCalAck e k) s = .next t ∧ (t.flexGrp e k).acked = true ∧
        t.fb (Rg.FLEXE_GRP_STAT e k) Fd.FLEXE_GRP_STAT_CR_PENDING = false ∧
        State.onlyRegs (fun x => x == Rg.FLEXE_GRP_STAT e k) { s with flexe := t.flexe } t) ∧
      ((s.flexGrp e k).acked = true ∨ s.fb (Rg.FLEXE_GRP_CFG e k) Fd.FLEXE_GRP_CFG_HANDSHAKE = false →
        ∃ t, exec (.flexeCalSwitch e k) s = .next t ∧ (t.flexGrp e k).req = none ∧
          t.f (Rg.FLEXE_GRP_STAT e k) Fd.FLEXE_GRP_STAT_TX_CAL_INUSE = pg % 2 ∧ t.fb (Rg.FLEXE_GRP_STAT e k) Fd.FLEXE_GRP_STAT_CR_PENDING = false ∧
          State.onlyRegs (fun x => x == Rg.FLEXE_GRP_STAT e k) { s with flexe := t.flexe } t) ∧
      ((s.flexGrp e k).acked = false → s.fb (Rg.FLEXE_GRP_CFG e k) Fd.FLEXE_GRP_CFG_HANDSHAKE = true →
        exec (.flexeCalSwitch e k) s = .next s ∧
        ∃ t, exec (.calTimeout e k) s = .next t ∧ t.fb (Rg.FLEXE_GRP_STAT e k) Fd.FLEXE_GRP_STAT_CR_PENDING = true ∧
          bit (t.rd (Pg.FLEXE e + 0x010)) 8 = true ∧ State.onlyRegs (fun x => x == Rg.FLEXE_GRP_STAT e k || intReg (Pg.FLEXE e) x) s t)) ∧
    (∀ (num phys calPage : Nat) (cal : List (Option Nat)), ∃ t, exec (.flexeOverheadRx e k num phys calPage cal) s = .next t ∧
      t.fb (Rg.FLEXE_GRP_STAT e k) Fd.FLEXE_GRP_STAT_GID_MISMATCH = (num != s.f (Rg.FLEXE_GRP_CFG e k) Fd.FLEXE_GRP_CFG_GROUP_NUM) ∧
      t.fb (Rg.FLEXE_GRP_STAT e k) Fd.FLEXE_GRP_STAT_PHYMAP_MISMATCH = (phys != s.phyMap e k) ∧
      t.f (Rg.FLEXE_GRP_STAT e k) Fd.FLEXE_GRP_STAT_RX_CAL_INUSE = calPage % 2 ∧ t.tbls = s.tbls ∧
      State.onlyRegs (fun x => x == Rg.FLEXE_GRP_STAT e k || intReg (Pg.FLEXE e) x || decide (0x010 ≤ x / 0x1000 ∧ x / 0x1000 < 0x018))
        { s with ports := t.ports } t) ∧
    ∀ (lock desk : Bool) (clients : Nat), ∃ t, exec (.flexeOhLock e k lock desk clients) s = .next t ∧
      t.fb (Rg.FLEXE_GRP_STAT e k) Fd.FLEXE_GRP_STAT_OH_LOCK = lock ∧ t.fb (Rg.FLEXE_GRP_STAT e k) Fd.FLEXE_GRP_STAT_DESKEW_FAIL = desk ∧
      (∀ c, c < 32 → s.lportOn (32 * e + c) = true → s.isClient (32 * e + c) = true → s.clientGroup (32 * e + c) = some k →
        ((lock && !desk && bit clients c) = true → s.lkState (32 * e + c) ≤ lkAligning → t.lkState (32 * e + c) = lkHold) ∧
        ((lock && !desk && bit clients c) = false → lkHold ≤ s.lkState (32 * e + c) →
          t.lkState (32 * e + c) = lkAligning ∧ t.fb (lpStat (32 * e + c)) Fd.LPORT_STAT_LINK_UP = false)) ∧
      State.onlyRegs (fun x => x == Rg.FLEXE_GRP_STAT e k || intReg (Pg.FLEXE e) x || decide (0x010 ≤ x / 0x1000 ∧ x / 0x1000 < 0x018))
        { s with ports := t.ports } t

/-- R81, R84, R85 and R87 for PTP_STEP, PTP_LOAD_GO, PTP_TXTS_POP, PPS_OUT_PULSE, PPS_OUT_END, PPS_IN_EDGE, SYNCE_SQUELCH and SYNCE_RESUME. -/
def Obligations.TimeOfDayAndPulses : Prop :=
  (∀ (s : State) (a : Acc) (v : Word), s.mayWrite a Rg.PTP_STEP = true →
    exec (.ptpStep a v) s = .next { s with ptp := { s.ptp with step := s.ptp.step + signed 32 v.toNat } }) ∧
  (∀ (s : State) (a : Acc) (v : Word), s.mayWrite a Rg.PTP_LOAD_GO = true → bit v.toNat 0 = true → ∃ t, exec (.ptpLoadGo a v) s = .next t ∧
    t.ptp = { s.ptp with loadDue := true } ∧ t.fb Rg.PTP_LOAD_GO Fd.PTP_LOAD_GO_GO = true ∧
    State.onlyRegs (fun x => x == Rg.PTP_LOAD_GO) { s with ptp := t.ptp } t) ∧
  (∀ (s : State) (a : Acc), s.mayRead a Rg.PTP_TXTS_W0 = true → ∃ t, exec (.ptpTxtsPop a) s = .next t ∧
    (s.ptp.txts = [] → t.rsp = some 0 ∧ t.ptp = s.ptp) ∧
    (∀ p tag sec ns rest, s.ptp.txts = (p, tag, sec, ns) :: rest → t.rsp = some (2 ^ 31 + p % 64 * 2 ^ 16 + tag % 2 ^ 16) ∧
      t.ptp = { s.ptp with txts := rest } ∧ t.rd Rg.PTP_TXTS_W1 = ns % 2 ^ 32 ∧ t.rd Rg.PTP_TXTS_W2 = sec % 2 ^ 32 ∧
      t.rd Rg.PTP_TXTS_W3 = sec / 2 ^ 32 % 2 ^ 16) ∧
    State.onlyRegs (fun x => x == Rg.PTP_TXTS_W0 || x == Rg.PTP_TXTS_W1 || x == Rg.PTP_TXTS_W2 || x == Rg.PTP_TXTS_W3)
      { s with ptp := t.ptp, rsp := t.rsp } t) ∧
  (∀ s : State, exec .ppsOutPulse s = .next { s with ptp := { s.ptp with ppsHigh := true }, out := .pin "PPS_OUT" true :: s.out } ∧
    exec .ppsOutEnd s = .next { s with ptp := { s.ptp with ppsHigh := false }, out := .pin "PPS_OUT" false :: s.out }) ∧
  (∀ (s : State) (clk : Nat), s.pageOn (Pg.PTP / 0x1000) = true → ∃ t, exec (.ppsInEdge clk) s = .next t ∧
    ((∀ l, s.ptp.ppsLastIn = some l → l + 1000000000 ≤ s.at clk) → t.ptp = { s.ptp with ppsLastIn := some (s.at clk) } ∧
      t.rd (Rg.PTP_PPS_IN_TS 0) = (s.tod (s.at clk)).2 / 2 ^ 32 % 2 ^ 32 ∧ t.rd (Rg.PTP_PPS_IN_TS 1) = (s.tod (s.at clk)).1 % 2 ^ 32 ∧
      t.rd (Rg.PTP_PPS_IN_TS 2) = (s.tod (s.at clk)).1 / 2 ^ 32 % 2 ^ 32 ∧ bit (t.rd (Pg.PTP + 0x010)) 2 = true) ∧
    (∀ l, s.ptp.ppsLastIn = some l → s.at clk < l + 1000000000 → t.ptp = s.ptp ∧
      t.rd Rg.PTP_PPS_IGNORED_CNT = (s.rd Rg.PTP_PPS_IGNORED_CNT + 1) % 2 ^ 32 ∧
      State.onlyRegs (fun x => x == Rg.PTP_PPS_IGNORED_CNT || cntReg Pg.PTP x) s t)) ∧
  ∀ (s : State) (n : Nat), n < 2 → s.pageOn (Pg.PTP / 0x1000) = true →
    (s.fb (Rg.PTP_SYNCE_CFG n) Fd.PTP_SYNCE_CFG_EN = true → s.fb (Rg.PTP_SYNCE_CFG n) Fd.PTP_SYNCE_CFG_SQUELCH_EN = true →
      ¬n ∈ s.ptp.squelched → ∃ t, exec (.synceSquelch n) s = .next t ∧ n ∈ t.ptp.squelched ∧ bit (t.rd (Pg.PTP + 0x010)) 3 = true ∧
        State.onlyRegs (intReg Pg.PTP) { s with ptp := t.ptp } t) ∧
    ∃ t, exec (.synceResume n) s = .next t ∧ ¬n ∈ t.ptp.squelched ∧ t = { s with ptp := { s.ptp with squelched := t.ptp.squelched } }

/-- R90, R92, R94 and R98 for STEER_ENQUEUE, SLICE_ENTRY, EGRESS_SLICE_ENTRY and SLICE_HANDOFF. -/
def Obligations.SteeringAndHandoff : Prop :=
  (∀ (s : State) (p : Nat) (beyond : Bool), (∀ fr ∈ s.macQ, fr.port ≠ p) → exec (.steerEnqueue p beyond) s = .next s) ∧
  (∀ (s : State) (p : Nat) (fr : RxFrame), s.macQ.find? (fun x => x.port == p) = some fr → p < 64 →
    (∀ beyond : Bool, s.d2dDown = true → s.pageOn (Pg.D2D 0 / 0x1000) = true → ∃ t, exec (.steerEnqueue p beyond) s = .next t ∧
      t.macQ = s.macQ.erase fr ∧ t.rd (Rg.D2D_DISCARD_CNT 0) = (s.rd (Rg.D2D_DISCARD_CNT 0) + 1) % 2 ^ 32 ∧
      bit (t.rd (Pg.D2D 0 + 0x010)) 4 = true ∧
      State.onlyRegs (fun x => x == Rg.D2D_DISCARD_CNT 0 || cntReg (Pg.D2D 0) x) { s with macQ := t.macQ } t) ∧
    (∀ i : Nat, s.d2dDown = false → s.moveIn = none → i = s.bucketEnt 0 (256 * p + s.flowHash p (fr.bytes.take (fr.bytes.length - 4)) % 256) % 16 →
      s.isSlice 0 i = true → (s.slice 0 i).stranded = false → s.f (Rg.SBUF_USED (p / 8)) Fd.SBUF_USED_BYTES + fr.bytes.length ≤ 524288 →
      ∃ t, exec (.steerEnqueue p false) s = .next t ∧ t.macQ = s.macQ.erase fr ∧
        (poolCount (s.slice 0 i).pool < 512 → ∃ k : Pkt, (t.slice 0 i).pool = (s.slice 0 i).pool ++ [some k] ∧
          k.bytes = fr.bytes.take (fr.bytes.length - 4) ∧ k.bad = fr.bad ∧ k.md.lport = p ∧ k.gen = s.cm.gen ∧
          k.md.version = s.f Rg.CMT_VER Fd.CMT_VER_CUR ∧ k.bucket = 256 * p + s.flowHash p k.bytes % 256 ∧ k.stc = s.steerClass p k.bytes ∧
          t.f (Rg.SBUF_USED (p / 8)) Fd.SBUF_USED_BYTES = s.f (Rg.SBUF_USED (p / 8)) Fd.SBUF_USED_BYTES + fr.bytes.length) ∧
        (512 ≤ poolCount (s.slice 0 i).pool → t.slices = s.slices ∧ (s.pageOn (Pg.STEER / 0x1000) = true →
          (s.steerLossless (s.steerClass p (fr.bytes.take (fr.bytes.length - 4))) = true →
            t.rd Rg.STEER_LL_DROP_CNT = (s.rd Rg.STEER_LL_DROP_CNT + 1) % 2 ^ 32) ∧
          (s.steerLossless (s.steerClass p (fr.bytes.take (fr.bytes.length - 4))) = false →
            t.rd Rg.STEER_DROP_CNT = (s.rd Rg.STEER_DROP_CNT + 1) % 2 ^ 32))))) ∧
  (∀ (s : State) (d i clk : Nat) (k : Pkt) (rest : List (Option Pkt)), d < 2 → s.isSlice d i = true → s.pageOn (Pg.SLICE d i / 0x1000) = true →
    (s.slice d i).pool.dropWhile (fun x => x.isNone) = some k :: rest → (∀ y ∈ (s.slice d i).inside, y.entry < 2048 * s.tk.count + clk) →
    ∀ c : Instr, c = (if d = 0 then .sliceEntry i clk none none none else .egressSliceEntry i clk) →
      (s.role d i = rlFenced → exec c s = .next s) ∧
      (s.role d i ≠ rlFenced → ∃ t, exec c s = .next t ∧ (t.slice d i).pool = rest ∧
        (t.slice d i).inside.map (fun y => y.entry) = (s.slice d i).inside.map (fun y => y.entry) ++ [2048 * s.tk.count + clk])) ∧
  ∀ (s : State) (d i : Nat) (tail : Bool) (k : Pkt) (rest : List Pkt), s.isSlice d i = true → s.pageOn (Pg.SLICE d i / 0x1000) = true →
    (s.slice d i).inside = k :: rest →
    (k.ready = false → exec (.sliceHandoff d i tail) s = .next s) ∧
    (k.ready = true → ∃ t, exec (.sliceHandoff d i tail) s = .next t ∧ (t.slice d i).inside = rest ∧ (t.slice d i).pool = (s.slice d i).pool ∧
      (k.v.fwd = 1 → t.admQ = s.admQ ∧ t.macTx = s.macTx ∧ t.rd64 (Rg.SLICE_PKT_CNT_LO d i) = s.rd64 (Rg.SLICE_PKT_CNT_LO d i)) ∧
      (k.v.fwd ≠ 1 → d = 1 → t.macTx = s.macTx ++ [k] ∧ t.rd64 (Rg.SLICE_PKT_CNT_LO d i) = (s.rd64 (Rg.SLICE_PKT_CNT_LO d i) + 1) % 2 ^ 64) ∧
      (k.v.fwd ≠ 1 → d = 0 → k.v.hasDest = true → (t.admQ.map fun x => (x.lane, x.pkt.bytes)) = (s.admQ.map fun x => (x.lane, x.pkt.bytes)) ++ [(i, k.bytes)] ∧
        t.rd64 (Rg.SLICE_PKT_CNT_LO d i) = (s.rd64 (Rg.SLICE_PKT_CNT_LO d i) + 1) % 2 ^ 64))

/-- R96, R97 and R101 for STEER_MOVE, MOVE_START, MOVE_DONE, STEER_EVAC, EVAC_STOP and EVAC_NEXT_MOVE. -/
def Obligations.BucketMoves : Prop :=
  (∀ (s : State) (a : Acc) (v : Word) (d idx tgt : Nat), s.mayWrite a Rg.STEER_MOVE = true → bit v.toNat 31 = true →
    d = bits v.toNat 30 1 → idx = bits v.toNat 16 14 → tgt = v.toNat % 16 → ∃ t, exec (.steerMove a v) s = .next t ∧
    ((s.move d).isSome = true ∨ (s.evac d).isSome = true → t.f (Rg.STEER_MOVE_STAT d) Fd.STEER_MOVE_STAT_REFUSE = 1) ∧
    (s.move d = none → s.evac d = none →
      (d = 0 ∧ 256 * s.part.lanes ≤ idx → t.f (Rg.STEER_MOVE_STAT d) Fd.STEER_MOVE_STAT_REFUSE = 4) ∧
      (¬(d = 0 ∧ 256 * s.part.lanes ≤ idx) →
        (s.part.slices ≤ tgt ∨ ¬(s.role d tgt = rlActive ∨ s.role d tgt = rlDormant) → t.f (Rg.STEER_MOVE_STAT d) Fd.STEER_MOVE_STAT_REFUSE = 3) ∧
        (tgt < s.part.slices → s.role d tgt = rlActive ∨ s.role d tgt = rlDormant →
          (s.bucketEnt d idx % 16 = tgt → t.f (Rg.STEER_MOVE_STAT d) Fd.STEER_MOVE_STAT_REFUSE = 2) ∧
          (s.bucketEnt d idx % 16 ≠ tgt → t.fb (Rg.STEER_MOVE_STAT d) Fd.STEER_MOVE_STAT_BUSY = true ∧
            t.move d = some ⟨idx, s.bucketEnt d idx % 16, tgt, s.tk.count + (if a.clk ≤ 1791 then 1 else 2), false, false, []⟩ ∧
            State.onlyRegs (fun x => x == Rg.STEER_MOVE_STAT d) { s with moveIn := t.moveIn, moveEg := t.moveEg } t)))) ∧
    (t.move d = s.move d → t.f (Rg.STEER_MOVE_STAT d) Fd.STEER_MOVE_STAT_RESULT = 3 ∧ bit (t.rd (Pg.STEER + 0x010)) 5 = true ∧
      State.onlyRegs (fun x => x == Rg.STEER_MOVE_STAT d || intReg Pg.STEER x) s t)) ∧
  (∀ (s : State) (d : Nat) (m : Move), d < 2 → s.move d = some m → m.started = false →
    (s.tk.count < m.start → exec (.moveStart d) s = .next s) ∧
    (m.start ≤ s.tk.count → (s.slice d m.src).rehome = true → ∃ t, exec (.moveStart d) s = .next t ∧ t.move d = none ∧
      t.f (Rg.STEER_MOVE_STAT d) Fd.STEER_MOVE_STAT_RESULT = 2 ∧
      State.onlyRegs (fun x => x == Rg.STEER_MOVE_STAT d) { s with moveIn := t.moveIn, moveEg := t.moveEg } t) ∧
    (m.start ≤ s.tk.count → (s.slice d m.src).rehome = false → ∃ t, exec (.moveStart d) s = .next t ∧ t.move d = some { m with started := true } ∧
      bit (t.bucketEnt d m.index) 8 = true ∧ t.bucketEnt d m.index % 16 = s.bucketEnt d m.index % 16 ∧
      (t.slice d m.src).pool = (s.slice d m.src).pool ++ [none])) ∧
  (∀ (s : State) (d : Nat) (m : Move), d < 2 → s.move d = some m → m.started = true → s.isSlice d m.src = true → s.isSlice d m.target = true →
    s.pageOn (Pg.STEER / 0x1000) = true →
    (s.tk.count ≤ m.start → exec (.moveDone d) s = .next s) ∧
    (m.start < s.tk.count → ∃ t, exec (.moveDone d) s = .next t ∧ t.move d = none ∧ t.bucketEnt d m.index = m.target ∧
      t.fb (Rg.STEER_MOVE_STAT d) Fd.STEER_MOVE_STAT_BUSY = false ∧ t.f (Rg.STEER_MOVE_STAT d) Fd.STEER_MOVE_STAT_RESULT = 1 ∧
      t.rd Rg.STEER_MOVE_CNT = (s.rd Rg.STEER_MOVE_CNT + 1) % 2 ^ 32 ∧ bit (t.rd (Pg.STEER + 0x010)) 0 = true ∧ t.role d m.target ≠ rlDormant)) ∧
  (∀ (s : State) (a : Acc) (v : Word) (d : Nat), s.mayWrite a Rg.STEER_EVAC = true → d = bits v.toNat 30 1 →
    (bit v.toNat 31 = true → bit v.toNat 29 = false → s.move d = none → s.evac d = none → bits v.toNat 4 4 < s.part.slices →
      s.role d (bits v.toNat 4 4) = rlActive ∨ s.role d (bits v.toNat 4 4) = rlDormant → bits v.toNat 4 4 ≠ v.toNat % 16 →
      ∃ t, exec (.steerEvac a v) s = .next t ∧ t.evac d = some ⟨v.toNat % 16, bits v.toNat 4 4, 0, false⟩ ∧
        t.rd (Rg.STEER_EVAC_STAT d) = 2 ^ 31 ∧
        State.onlyRegs (fun x => x == Rg.STEER_EVAC_STAT d) { s with evacIn := t.evacIn, evacEg := t.evacEg } t) ∧
    (∀ e, bit v.toNat 31 = false → bit v.toNat 29 = true → s.evac d = some e →
      ((s.move d).isSome = true → ∃ t, exec (.evacStop a v) s = .next t ∧ t.evac d = some { e with stop := true } ∧
        t = { s with evacIn := t.evacIn, evacEg := t.evacEg }) ∧
      (s.move d = none → ∃ t, exec (.evacStop a v) s = .next t ∧ t.evac d = none ∧
        t.fb (Rg.STEER_EVAC_STAT d) Fd.STEER_EVAC_STAT_BUSY = false ∧ t.fb (Rg.STEER_EVAC_STAT d) Fd.STEER_EVAC_STAT_STOPPED = true))) ∧
  ∀ (s : State) (d : Nat) (e : Evac), d < 2 → s.evac d = some e → s.move d = none → e.stop = false → s.isSlice d e.src = true →
    ((s.slice d e.src).rehome = true → exec (.evacNextMove d) s = .next s) ∧
    ((s.slice d e.src).rehome = false → (∀ x, e.next ≤ x → x < 16384 → s.bucketEnt d x % 16 ≠ e.src) → ∃ t, exec (.evacNextMove d) s = .next t ∧ t.evac d = none ∧
      t.fb (Rg.STEER_EVAC_STAT d) Fd.STEER_EVAC_STAT_DONE = true ∧ t.f (Rg.STEER_EVAC_STAT d) Fd.STEER_EVAC_STAT_NEXT_INDEX = 0) ∧
    ∀ x, (s.slice d e.src).rehome = false → e.next ≤ x → x < 16384 → s.bucketEnt d x % 16 = e.src → (∀ y, e.next ≤ y → y < x → s.bucketEnt d y % 16 ≠ e.src) →
      ∃ t, exec (.evacNextMove d) s = .next t ∧ t.evac d = some { e with next := x + 1 } ∧
        t.move d = some ⟨x, e.src, e.dst, s.tk.count, true, true, []⟩ ∧ bit (t.bucketEnt d x) 8 = true ∧
        t.f (Rg.STEER_EVAC_STAT d) Fd.STEER_EVAC_STAT_NEXT_INDEX = (x + 1) % 16384

/-- R100 and R407 for ROLE_WRITE, SELFTEST, SELFTEST_PERIODIC and SELFTEST_DONE. -/
def Obligations.SliceRolesAndTests : Prop :=
  ∀ (s : State) (d i : Nat), s.isSlice d i = true → s.pageOn (Pg.SLICE d i / 0x1000) = true →
    (∀ (a : Acc) (v : Word), s.mayWrite a (Rg.SLICE_CTRL d i) = true → bit v.toNat 31 = false → bit v.toNat 30 = false →
      (∀ j, (s.slice d j).stranded = false) → ∃ t, exec (.roleWrite a d i v) s = .next t ∧
      (v.toNat % 4 = s.role d i → t.role d i = s.role d i ∧ State.onlyRegs (fun x => x == Rg.SLICE_CTRL d i) s t) ∧
      (v.toNat % 4 ≠ s.role d i →
        (s.role d i = rlActive ∧ (v.toNat % 4 = rlDormant ∨ v.toNat % 4 = rlService) ∧ s.buckets d i = 0 ∧ s.targeted d i = false ∨
          s.role d i = rlDormant ∧ v.toNat % 4 = rlService ∧ s.targeted d i = false ∨
          s.role d i = rlService ∧ v.toNat % 4 = rlDormant ∧ s.fb (Rg.SLICE_STAT d i) Fd.SLICE_STAT_SELFTEST_PASS = true ∨
          s.role d i = rlFenced ∧ v.toNat % 4 = rlService ∧ s.buckets d i = 0 → t.role d i = v.toNat % 4) ∧
        (¬(s.role d i = rlActive ∧ (v.toNat % 4 = rlDormant ∨ v.toNat % 4 = rlService) ∧ s.buckets d i = 0 ∧ s.targeted d i = false ∨
          s.role d i = rlDormant ∧ v.toNat % 4 = rlService ∧ s.targeted d i = false ∨
          s.role d i = rlService ∧ v.toNat % 4 = rlDormant ∧ s.fb (Rg.SLICE_STAT d i) Fd.SLICE_STAT_SELFTEST_PASS = true ∨
          s.role d i = rlFenced ∧ v.toNat % 4 = rlService ∧ s.buckets d i = 0) → t.role d i = s.role d i ∧
            bit (t.rd (Pg.SLICE d i + 0x010)) 2 = true ∧
            State.onlyRegs (fun x => x == Rg.SLICE_CTRL d i || intReg (Pg.SLICE d i) x) s t))) ∧
    (∀ (a : Acc) (v : Word), s.mayWrite a (Rg.SLICE_CTRL d i) = true → bit v.toNat 31 = true → bit v.toNat 30 = false → v.toNat % 4 = s.role d i →
      ∃ t, exec (.selftest a d i v) s = .next t ∧ t.role d i = s.role d i ∧
        ((s.role d i = rlDormant ∨ s.role d i = rlService) ∧ s.fb (Rg.SLICE_STAT d i) Fd.SLICE_STAT_SELFTEST_BUSY = false →
          t.fb (Rg.SLICE_STAT d i) Fd.SLICE_STAT_SELFTEST_BUSY = true ∧
          State.onlyRegs (fun x => x == Rg.SLICE_CTRL d i || x == Rg.SLICE_STAT d i) s t) ∧
        (¬((s.role d i = rlDormant ∨ s.role d i = rlService) ∧ s.fb (Rg.SLICE_STAT d i) Fd.SLICE_STAT_SELFTEST_BUSY = false) →
          bit (t.rd (Pg.SLICE d i + 0x010)) 2 = true ∧
          State.onlyRegs (fun x => x == Rg.SLICE_CTRL d i || intReg (Pg.SLICE d i) x) s t)) ∧
    (s.role d i = rlDormant → s.f (Rg.SLICE_CTRL d i) Fd.SLICE_CTRL_SELFTEST_PERIOD ≠ 0 →
      s.fb (Rg.SLICE_STAT d i) Fd.SLICE_STAT_SELFTEST_BUSY = false → ∃ t, exec (.selftestPeriodic d i) s = .next t ∧
        t.fb (Rg.SLICE_STAT d i) Fd.SLICE_STAT_SELFTEST_BUSY = true ∧ State.onlyRegs (fun x => x == Rg.SLICE_STAT d i) s t) ∧
    (s.fb (Rg.SLICE_STAT d i) Fd.SLICE_STAT_SELFTEST_BUSY = true →
      (∃ t, exec (.selftestDone d i true) s = .next t ∧ t.fb (Rg.SLICE_STAT d i) Fd.SLICE_STAT_SELFTEST_BUSY = false ∧
        t.fb (Rg.SLICE_STAT d i) Fd.SLICE_STAT_SELFTEST_PASS = true ∧ bit (t.rd (Pg.SLICE d i + 0x010)) 1 = true ∧
        State.onlyRegs (fun x => x == Rg.SLICE_STAT d i || intReg (Pg.SLICE d i) x) s t) ∧
      ∃ t, exec (.selftestDone d i false) s = .next t ∧ t.fb (Rg.SLICE_STAT d i) Fd.SLICE_STAT_SELFTEST_BUSY = false ∧
        t.fb (Rg.SLICE_STAT d i) Fd.SLICE_STAT_SELFTEST_PASS = false ∧ bit (t.rd (Pg.SLICE d i + 0x010)) 1 = true ∧
        bit (t.rd (Rg.SLICE_FAULT d i)) 4 = true)

/-- R102 and R103 for SLICE_FAULT, PIPE_TIMEOUT, FENCE and FENCE_REHOME. -/
def Obligations.FaultsAndFences : Prop :=
  ∀ (s : State) (d i : Nat), s.isSlice d i = true → s.pageOn (Pg.SLICE d i / 0x1000) = true → s.pageOn (Pg.STEER / 0x1000) = true →
    (∀ src, src < 5 → ∀ c : Instr, c = .sliceFault d i src ∨ (src = 0 ∧ c = .pipeTimeout d i) → ∃ t, exec c s = .next t ∧
      bit (t.rd (Rg.SLICE_FAULT d i)) src = true ∧ bit (t.rd (Pg.SLICE d i + 0x010)) 0 = true ∧
      (bit (s.rd (Rg.SLICE_FAULT_EN d i)) src = false → t.role d i = s.role d i ∧
        t.rd (Rg.SLICE_FAULT_CNT d i) = (s.rd (Rg.SLICE_FAULT_CNT d i) + 1) % 2 ^ 32 ∧
        State.onlyRegs (fun x => x == Rg.SLICE_FAULT d i || x == Rg.SLICE_FAULT_CNT d i || cntReg (Pg.SLICE d i) x) s t) ∧
      (bit (s.rd (Rg.SLICE_FAULT_EN d i)) src = true → s.role d i ≠ rlFenced → t.role d i = rlFenced ∧ (t.slice d i).inside = [] ∧
        (t.slice d i).rehome = true ∧
        t.rd (Rg.SLICE_FENCE_DROP_CNT d i) = (s.rd (Rg.SLICE_FENCE_DROP_CNT d i) + (s.slice d i).inside.length) % 2 ^ 32 ∧
        t.rd Rg.STEER_FENCE_CNT = (s.rd Rg.STEER_FENCE_CNT + 1) % 2 ^ 32 ∧ bit (t.rd (Pg.STEER + 0x010)) 2 = true)) ∧
    (∀ (a : Acc) (v : Word), s.mayWrite a (Rg.SLICE_CTRL d i) = true → bit v.toNat 30 = true → bit v.toNat 31 = false → v.toNat % 4 = s.role d i →
      s.role d i ≠ rlFenced → ∃ t, exec (.fence a d i v) s = .next t ∧ t.role d i = rlFenced ∧ bit (t.rd (Rg.SLICE_FAULT d i)) 5 = true ∧
        (t.slice d i).inside = [] ∧ (t.slice d i).rehome = true ∧ bit (t.rd (Pg.STEER + 0x010)) 2 = true) ∧
    ((s.slice d i).rehome = false → exec (.fenceRehome d i) s = .next s) ∧
    ∀ j, (s.slice d i).rehome = true → s.role d i = rlFenced → j < s.part.slices → s.role d j = rlDormant → (∀ m, m < j → s.role d m ≠ rlDormant) →
      ∃ t, exec (.fenceRehome d i) s = .next t ∧ (t.slice d i).rehome = false ∧
        (∀ x, x < 16384 → t.bucketEnt d x % 16 = if s.bucketEnt d x % 16 = i then j else s.bucketEnt d x % 16) ∧
        ((∃ x, x < 16384 ∧ s.bucketEnt d x % 16 = i) → t.role d j ≠ rlDormant)

/-- R165 and R166 for TBL_READ to TBL_FLUSH, UNSUPPORTED and TBL_COMMAND_DONE. -/
def Obligations.TableCommandInterface : Prop :=
  (∀ (s : State) (a : Acc) (page op : Nat) (c : Instr), hasTables page = true → s.mayWrite a (page * 0x1000 + 0xF00) = true → op < 16 →
    (op = 1 ∧ c = .tblRead a page ∨ op = 2 ∧ c = .tblWrite a page ∨ op = 3 ∧ c = .tblInsert a page ∨ op = 4 ∧ c = .tblDelete a page ∨
      op = 5 ∧ c = .tblMove a page ∨ op = 6 ∧ c = .tblSearch a page ∨ op = 7 ∧ c = .tblFlush a page ∨ c = .unsupported a page op) →
    ∃ t, exec c s = .next t ∧
      (shas s.tblRun page = true → bit (t.rd (page * 0x1000 + 0xF08)) 30 = true ∧
        State.onlyRegs (fun x => x == page * 0x1000 + 0xF08) s t) ∧
      (shas s.tblRun page = false → s.refill.contains page = false →
        (op = 0 ∨ 7 < op → t.tblRun = s.tblRun ∧ t.tbls = s.tbls ∧ t.rd (page * 0x1000 + 0xF08) % 256 = 0x07 ∧
          bit (t.rd (page * 0x1000 + 0xF08)) 31 = false ∧ (∀ b, tblRefusedBit page = some b → bit (t.rd (page * 0x1000 + 0x010)) b = true) ∧
          State.onlyRegs (fun x => x == page * 0x1000 + 0xF08 || intReg (page * 0x1000) x) s t) ∧
        (1 ≤ op → op ≤ 7 → bit (t.rd (page * 0x1000 + 0xF08)) 31 = true ∧
          ∃ st moves data, sget none t.tblRun page = some (op, st, moves, data)))) ∧
  ∀ (s : State) (page op st moves : Nat) (data : Option Nat), page < 0x2000 → s.pageOn page = true →
    sget none s.tblRun page = some (op, st, moves, data) → st < 256 → s.refill.contains page = false → s.softWait.contains page = false →
    ∃ t, exec (.tblCommandDone page) s = .next t ∧ t.tblRun = sset none s.tblRun page none ∧
      bit (t.rd (page * 0x1000 + 0xF08)) 31 = false ∧ t.rd (page * 0x1000 + 0xF08) % 256 = st ∧
      bits (t.rd (page * 0x1000 + 0xF08)) 8 8 = min 255 moves ∧
      (∀ v j, data = some v → j < 16 → t.rd (page * 0x1000 + 0xF10 + 4 * j) = bits v (32 * j) 32) ∧
      (∀ j, data = none → j < 16 → t.rd (page * 0x1000 + 0xF10 + 4 * j) = s.rd (page * 0x1000 + 0xF10 + 4 * j)) ∧
      (∀ b, st ≠ 0 → ¬(op = 6 ∧ st = 0x04) → tblRefusedBit page = some b → bit (t.rd (page * 0x1000 + 0x010)) b = true) ∧
      State.onlyRegs (fun x => decide (page * 0x1000 + 0xF08 ≤ x ∧ x < page * 0x1000 + 0xF50) || intReg (page * 0x1000) x)
        { s with tblRun := t.tblRun } t

/-- R148, R164 and R166 for TBL_READ, TBL_WRITE and TBL_DELETE on page NHOP (tables other than WATCH). -/
def Obligations.NextHopTables : Prop :=
  ∀ (s : State) (a : Acc) (tb i : Nat), s.mayWrite a (Pg.NHOP + 0xF00) = true → shas s.tblRun 0x0B0 = false → s.refill.contains 0x0B0 = false →
    tb = bits (s.rd (Pg.NHOP + 0xF04)) 20 3 → i = s.rd (Pg.NHOP + 0xF04) % 2 ^ 18 → tb < 6 →
    (nhSize tb ≤ i → ∀ c : Instr, c = .tblRead a 0x0B0 ∨ c = .tblWrite a 0x0B0 ∨ c = .tblDelete a 0x0B0 →
      ∃ t, exec c s = .next t ∧ t.tblAnswer 0x0B0 = some (0x08, none) ∧ t.tbls = s.tbls) ∧
    (i < nhSize tb → s.cleanRow Pg.NHOP tb (i * wordsOf (nhBits tb)) (wordsOf (nhBits tb)) → ∃ t, exec (.tblRead a 0x0B0) s = .next t ∧
      t.tblAnswer 0x0B0 = some (0x00, some (s.tbl Pg.NHOP tb i)) ∧
      State.onlyRegs (fun x => x == Pg.NHOP + 0xF08) { s with tblRun := t.tblRun } t) ∧
    (i < nhSize tb → nhDataOk tb (s.tblData 0x0B0 % 2 ^ nhBits tb) = true → ∃ t, exec (.tblWrite a 0x0B0) s = .next t ∧
      t.tblAnswer 0x0B0 = some (0x00, none) ∧ t.tbl Pg.NHOP tb i = s.tblData 0x0B0 % 2 ^ nhBits tb ∧
      ∀ k, k ≠ tkey Pg.NHOP tb i → t.tblAt k = s.tblAt k) ∧
    (i < nhSize tb → nhDataOk tb (s.tblData 0x0B0 % 2 ^ nhBits tb) = false → ∃ t, exec (.tblWrite a 0x0B0) s = .next t ∧
      t.tblAnswer 0x0B0 = some (0x02, none) ∧ t.tbls = s.tbls) ∧
    (i < nhSize tb → tb = 0 ∨ tb = 1 ∨ tb = 3 → ∃ t, exec (.tblDelete a 0x0B0) s = .next t ∧
      t.tblAnswer 0x0B0 = some (0x00, none) ∧ bit (t.tbl Pg.NHOP tb i) 0 = false ∧
      (∀ b, b ≠ 0 → bit (t.tbl Pg.NHOP tb i) b = bit (s.tbl Pg.NHOP tb i) b) ∧ ∀ k, k ≠ tkey Pg.NHOP tb i → t.tblAt k = s.tblAt k)

/-- R124, R126, R129, R162, R164 and R166 for TBL_MOVE, TBL_SEARCH and TBL_FLUSH on page ACL and TBL_INSERT and TBL_DELETE on page EXM. -/
def Obligations.AclAndExactMatchCommands : Prop :=
  (∀ (s : State) (a : Acc) (i j : Nat), s.mayWrite a (Pg.ACL + 0xF00) = true → shas s.tblRun 0x099 = false → s.refill.contains 0x099 = false →
    s.versioned = false → i = s.rd (Pg.ACL + 0xF04) % 2 ^ 17 → j = s.tblData 0x099 % 2 ^ 17 →
    (s.domOn 0 (26 + i / 65536) = true → s.domOn 0 (26 + j / 65536) = true →
      (aclValid (s.acl i) = false → ∃ t, exec (.tblMove a 0x099) s = .next t ∧ t.tblAnswer 0x099 = some (0x04, none) ∧ t.tbls = s.tbls) ∧
      (aclValid (s.acl i) = true → aclValid (s.acl j) = false → ∃ t, exec (.tblMove a 0x099) s = .next t ∧
        t.tblAnswer 0x099 = some (0x00, none) ∧ t.acl j = s.acl i ∧ t.acl i = 0 ∧
        ∀ k, k ≠ tkey Pg.ACL 0 i → k ≠ tkey Pg.ACL 0 j → t.tblAt k = s.tblAt k) ∧
      (aclValid (s.acl i) = true → aclValid (s.acl j) = true → ∃ t, exec (.tblMove a 0x099) s = .next t ∧
        t.tblAnswer 0x099 = some (0x03, none) ∧ t.tbls = s.tbls)) ∧
    (∃ t, exec (.tblSearch a 0x099) s = .next t ∧ t.tbls = s.tbls ∧
      ∀ prof, prof = bits (s.rd (Pg.ACL + 0xF04)) 17 4 →
        (s.aclSearch (s.rd (Rg.ACL_PROF_BANKS prof)) rkCur (prof * 2 ^ 316 + s.tblData 0x099 % 2 ^ 316) = none →
          t.tblAnswer 0x099 = some (0x04, none)) ∧
        ∀ e, s.aclSearch (s.rd (Rg.ACL_PROF_BANKS prof)) rkCur (prof * 2 ^ 316 + s.tblData 0x099 % 2 ^ 316) = some e →
          ∃ v, t.tblAnswer 0x099 = some (0x00, some v) ∧ v % 2 ^ 32 = e.1) ∧
    ∃ t, exec (.tblFlush a 0x099) s = .next t ∧ t.tblAnswer 0x099 = some (0x00, none) ∧
      (∀ x, x < 131072 → aclValid (t.acl x) = (aclValid (s.acl x) && !bit (s.tblData 0x099) (x / 4096))) ∧
      ∀ k, (k < tkey Pg.ACL 0 0 ∨ tkey Pg.ACL 0 131072 ≤ k) → t.tblAt k = s.tblAt k) ∧
  ∀ (s : State) (a : Acc) (c : ExmCfg), s.mayWrite a (Pg.EXM + 0xF00) = true → shas s.tblRun 0x0A0 = false → s.refill.contains 0x0A0 = false →
    c = s.exm (s.rd (Pg.EXM + 0xF04) / 2 ^ 27 % 32) → c.en = true → c.typ = 0 → c.deep = false →
    s.tblData 0x0A0 % 2 ^ 128 < 2 ^ c.keyBits →
    (s.exmFind c rkCur (s.tblData 0x0A0 % 2 ^ 128) = none →
      (∃ t, exec (.tblDelete a 0x0A0) s = .next t ∧ t.tblAnswer 0x0A0 = some (0x04, none) ∧ t.tbls = s.tbls) ∧
      (s.exmPlace c (s.tblData 0x0A0 % 2 ^ 128) = none → ∃ t, exec (.tblInsert a 0x0A0) s = .next t ∧
        t.tblAnswer 0x0A0 = some (0x05, none) ∧ t.tbls = s.tbls ∧ t.rd Rg.EXM_FULL_CNT = (s.rd Rg.EXM_FULL_CNT + 1) % 2 ^ 32) ∧
      ∀ i, s.exmPlace c (s.tblData 0x0A0 % 2 ^ 128) = some ([], i) → ∃ t, exec (.tblInsert a 0x0A0) s = .next t ∧
        (∃ d, t.tblAnswer 0x0A0 = some (0x00, some d)) ∧ t.exmRaw c i = s.exmNew c (s.tblData 0x0A0) 0 ∧
        t.f (Rg.EXM_TBL_STAT c.t) Fd.EXM_TBL_STAT_USED =
          if c.valid (s.exmRaw c i) then s.f (Rg.EXM_TBL_STAT c.t) Fd.EXM_TBL_STAT_USED else (s.f (Rg.EXM_TBL_STAT c.t) Fd.EXM_TBL_STAT_USED + 1) % 2 ^ 31) ∧
    ∀ i, s.exmFind c rkCur (s.tblData 0x0A0 % 2 ^ 128) = some i →
      (∃ t, exec (.tblInsert a 0x0A0) s = .next t ∧ t.tblAnswer 0x0A0 = some (0x03, none) ∧ t.tbls = s.tbls) ∧
      ∃ t, exec (.tblDelete a 0x0A0) s = .next t ∧ (∃ d, t.tblAnswer 0x0A0 = some (0x00, some d)) ∧ t.exmRaw c i = 0 ∧
        t.f (Rg.EXM_TBL_STAT c.t) Fd.EXM_TBL_STAT_USED = (s.f (Rg.EXM_TBL_STAT c.t) Fd.EXM_TBL_STAT_USED - 1)

/-- R127, R128 and R142 for CLASS_LOG_WALK_DONE, TERR_LOG_WALK_DONE and COPY_REFILL_DONE. -/
def Obligations.VersionWalks : Prop :=
  (∀ s : State, s.pageOn (Pg.CLASS / 0x1000) = true →
    (s.fb Rg.CLASS_LOG_STAT Fd.CLASS_LOG_STAT_CLEANUP = false → exec .classLogWalkDone s = .next s) ∧
    (s.fb Rg.CLASS_LOG_STAT Fd.CLASS_LOG_STAT_CLEANUP = true → ∃ t, exec .classLogWalkDone s = .next t ∧ t.classWalk = [] ∧
      t.fb Rg.CLASS_LOG_STAT Fd.CLASS_LOG_STAT_CLEANUP = false ∧ bit (t.rd (Pg.CLASS + 0x010)) Ib.CLASS_CLEANUP_DONE = true ∧
      (s.classWalk = [] → t.tbls = s.tbls) ∧
      ∀ i, i < 131072 → s.classWalk = [(0, i)] → aclValid (s.acl i) = true →
        (bit (aclMarks (s.acl i)) 2 = true → aclMarks (s.acl i) % 4 ≠ s.stagedVer → t.acl i = 0) ∧
        (bit (aclMarks (s.acl i)) 2 = false → s.addedNow (aclMarks (s.acl i)) = false → aclValid (t.acl i) = true ∧
          bit (aclMarks (t.acl i)) 5 = false ∧ aclResult (t.acl i) = aclResult (s.acl i) ∧ aclPrio (t.acl i) = aclPrio (s.acl i)) ∧
        ∀ k, k ≠ tkey Pg.ACL 0 i → t.tblAt k = s.tblAt k)) ∧
  (∀ s : State, s.pageOn (Pg.TERR_CTL / 0x1000) = true →
    (s.fb Rg.TERR_LOG_STAT Fd.TERR_LOG_STAT_CLEANUP = false → exec .terrLogWalkDone s = .next s) ∧
    (s.fb Rg.TERR_LOG_STAT Fd.TERR_LOG_STAT_CLEANUP = true → ∃ t, exec .terrLogWalkDone s = .next t ∧ t.terrWalk = [] ∧
      t.fb Rg.TERR_LOG_STAT Fd.TERR_LOG_STAT_CLEANUP = false ∧ bit (t.rd (Pg.TERR_CTL + 0x010)) Ib.TERR_CTL_CLEANUP_DONE = true ∧
      (s.terrWalk = [] → t.tbls = s.tbls) ∧
      ∀ b r, b < 128 → r < 16384 → s.terrWalk = [16384 * b + r] → trValid (s.terrShadow b r) = true →
        bit (trMarks (s.terrShadow b r)) 2 = true → trMarks (s.terrShadow b r) % 4 ≠ s.stagedVer → t.terrShadow b r = 0 ∧ t.terr b r = 0)) ∧
  ∀ (s : State) (page : Nat),
    (s.refill.contains page = false → exec (.copyRefillDone page) s = .next s) ∧
    (s.refill.contains page = true → ∃ t, exec (.copyRefillDone page) s = .next t ∧ t.refill.contains page = false ∧
      (page = 0x098 → sRising s.tbls → ∀ i, i < 65536 → t.tbl Pg.TERR_CTL 0 i = s.tbl Pg.TERR_CTL 1 i ∧
        t.tbl Pg.TERR_CTL 1 i = s.tbl Pg.TERR_CTL 1 i ∧ t.tbl Pg.TERR_CTL 2 i = s.tbl Pg.TERR_CTL 2 i))

/-- R144, R145 and R150 for TERR_ROW_REWRITE, TERR_SCRUB_STEP, NHOP_LIVE, NHOP_LIVE_CLR and LIVENESS_CLEAR. -/
def Obligations.TerraceRepairAndLiveness : Prop :=
  (∀ (s : State) (b r : Nat), b < 128 → r < 16384 → s.pageOn (0x090 + b / 16) = true →
    (s.shadowBad b r = false → (∃ t, exec (.terrRowRewrite b r) s = .next t ∧ t.terr b r = s.terrShadow b r ∧ t.terrShadow b r = s.terrShadow b r) ∧
      (s.terr b r ≠ s.terrShadow b r → ∃ t, exec (.terrScrubStep b r 0 false) s = .next t ∧ t.terr b r = s.terrShadow b r ∧
        t.rd (Rg.TERR_SCRUB_FIX_CNT (b / 16)) = (s.rd (Rg.TERR_SCRUB_FIX_CNT (b / 16)) + 1) % 2 ^ 32 ∧
        bit (t.rd (Pg.TERR (b / 16) + 0x010)) Ib.TERR_SCRUB_FIX = true)) ∧
    (s.terr b r = s.terrShadow b r → trParityBad (s.terr b r) = false → ∀ lost, ∃ t, exec (.terrScrubStep b r 0 lost) s = .next t ∧
      ∀ k, t.tblAt k = s.tblAt k) ∧
    (s.terr b r ≠ s.terrShadow b r → ∃ t, exec (.terrScrubStep b r 0 true) s = .next t ∧ t.terr b r = 0 ∧ t.terrShadow b r = 0 ∧
      t.rd (Pg.TERR (b / 16) + 0x020) = 16384 * b + r ∧
      t.rd (Rg.TERR_SHADOW_ERR_CNT (b / 16)) = (s.rd (Rg.TERR_SHADOW_ERR_CNT (b / 16)) + 1) % 2 ^ 32 ∧
      bit (t.rd (Pg.TERR (b / 16) + 0x010)) Ib.TERR_SHADOW_ERR = true)) ∧
  (∀ (s : State) (a : Acc) (i : Nat) (v : Word), i < 128 →
    (s.mayWrite a (Rg.NHOP_LIVE i) = true → ∃ t, exec (.nhopLive a i v) s = .next t ∧
      (∀ b, b < 32 → bit v.toNat b = false → bit (t.rd (Rg.NHOP_LIVE i)) b = bit (s.rd (Rg.NHOP_LIVE i)) b) ∧
      (∀ b, b < 32 → bit v.toNat b = true → sget 0 s.liveClr (32 * i + b) ≠ s.at a.clk + 1 → bit (t.rd (Rg.NHOP_LIVE i)) b = true) ∧
      ∀ b, b < 32 → bit v.toNat b = true → sget 0 s.liveClr (32 * i + b) = s.at a.clk + 1 → bit (t.rd (Rg.NHOP_LIVE i)) b = bit (s.rd (Rg.NHOP_LIVE i)) b) ∧
    (s.mayWrite a (Rg.NHOP_LIVE_CLR i) = true → ∃ t, exec (.nhopLiveClr a i v) s = .next t ∧
      (∀ b, b < 32 → bit (t.rd (Rg.NHOP_LIVE i)) b = (bit (s.rd (Rg.NHOP_LIVE i)) b && !bit v.toNat b)) ∧
      State.onlyRegs (fun x => x == Rg.NHOP_LIVE i) s t)) ∧
  ∀ (s : State) (p clk : Nat), s.pageOn (Pg.NHOP / 0x1000) = true →
    (s.lkState p = lkUp → exec (.livenessClear p clk) s = .next s) ∧
    ∀ w, s.lkState p ≠ lkUp → s.watchesOf p = [w] → s.live w = true → ∃ t, exec (.livenessClear p clk) s = .next t ∧ t.live w = false ∧
      t.rd Rg.NHOP_PROT_SWITCH_CNT = (s.rd Rg.NHOP_PROT_SWITCH_CNT + 1) % 2 ^ 32 ∧ bit (t.rd (Pg.NHOP + 0x010)) Ib.NHOP_WATCH_DOWN = true ∧
      State.onlyRegs (fun x => x == Rg.NHOP_LIVE (w / 32) || x == Rg.NHOP_PROT_SWITCH_CNT || cntReg Pg.NHOP x) { s with liveClr := t.liveClr } t

/-- R171 to R177 for LEARN_EVENT, LEARN_NOTE_POP, AGE_PASS_START and AGE_SCAN_VISIT. -/
def Obligations.LearningAndAging : Prop :=
  (∀ s : State, s.fb Rg.LEARN_CFG Fd.LEARN_CFG_EN = false ∨ s.learnNext = none ∨ (s.ln.batchTick = s.tk.count ∧ 512 ≤ s.ln.done) →
    exec .learnEvent s = .next s) ∧
  (∀ (s : State) (q : Nat) (ev : LearnEv) (c : ExmCfg), s.fb Rg.LEARN_CFG Fd.LEARN_CFG_EN = true → s.learnNext = some (q, ev) →
    ¬(s.ln.batchTick = s.tk.count ∧ 512 ≤ s.ln.done) → s.pageOn (Pg.LEARN / 0x1000) = true → c = s.exm ev.table →
    ∃ t, exec .learnEvent s = .next t ∧ t.learnQ q = (s.learnQ q).tail ∧
      (c.en = false ∨ c.typ ≠ 2 → t.rd Rg.LEARN_BAD_TABLE_CNT = (s.rd Rg.LEARN_BAD_TABLE_CNT + 1) % 2 ^ 32 ∧ t.tbls = s.tbls) ∧
      (c.en = true → c.typ = 2 → c.deep = false →
        (s.exmFind c rkCur (ev.fid * 2 ^ 48 + ev.mac) = none →
          (s.exmPlace c (ev.fid * 2 ^ 48 + ev.mac) = none → t.rd Rg.LEARN_FULL_CNT = (s.rd Rg.LEARN_FULL_CNT + 1) % 2 ^ 32 ∧
            bit (t.rd (Pg.LEARN + 0x010)) Ib.LEARN_FULL = true ∧ t.tbls = s.tbls) ∧
          (s.l2Full = false → (s.exmPlace c (ev.fid * 2 ^ 48 + ev.mac)).isSome = true →
            t.rd Rg.LEARN_NEW_CNT = (s.rd Rg.LEARN_NEW_CNT + 1) % 2 ^ 32)) ∧
        ∀ i, s.exmFind c rkCur (ev.fid * 2 ^ 48 + ev.mac) = some i →
          (l2Static (s.exmEnt c i) = true → l2Sport (s.exmEnt c i) ≠ ev.sport → t.tbls = s.tbls ∧
            t.rd Rg.LEARN_STATIC_CONFLICT_CNT = (s.rd Rg.LEARN_STATIC_CONFLICT_CNT + 1) % 2 ^ 32 ∧
            bit (t.rd (Pg.LEARN + 0x010)) Ib.LEARN_STATIC_CONFLICT = true) ∧
          (l2Static (s.exmEnt c i) = false → l2Frozen (s.exmEnt c i) = true → l2Sport (s.exmEnt c i) ≠ ev.sport → t.tbls = s.tbls ∧
            t.rd Rg.LEARN_FROZEN_HIT_CNT = (s.rd Rg.LEARN_FROZEN_HIT_CNT + 1) % 2 ^ 32) ∧
          (l2Static (s.exmEnt c i) = false → l2Frozen (s.exmEnt c i) = false → l2Sport (s.exmEnt c i) = ev.sport →
            t.rd Rg.LEARN_REFRESH_CNT = (s.rd Rg.LEARN_REFRESH_CNT + 1) % 2 ^ 32) ∧
          (l2Static (s.exmEnt c i) = false → l2Frozen (s.exmEnt c i) = false → l2Sport (s.exmEnt c i) ≠ ev.sport →
            t.rd Rg.LEARN_MOVE_CNT = (s.rd Rg.LEARN_MOVE_CNT + 1) % 2 ^ 32))) ∧
  (∀ (s : State) (a : Acc), s.mayRead a Rg.LEARN_NOTE_W0 = true → s.fb Rg.DMA_NOTE_CFG Fd.DMA_NOTE_CFG_EN = false →
    (s.ln.notes = [] → ∃ t, exec (.learnNotePop a) s = .next t ∧ t.rsp = some 0 ∧
      State.onlyRegs (fun x => x == Rg.LEARN_NOTE_W0) { s with rsp := t.rsp } t) ∧
    ∀ w0 w1 w2 w3 rest, s.ln.notes = (w0, w1, w2, w3) :: rest → ∃ t, exec (.learnNotePop a) s = .next t ∧ t.rsp = some w0 ∧ t.ln.notes = rest ∧
      t.rd Rg.LEARN_NOTE_W0 = w0 ∧ t.rd Rg.LEARN_NOTE_W1 = w1 ∧ t.rd Rg.LEARN_NOTE_W2 = w2 ∧ t.rd Rg.LEARN_NOTE_W3 = w3) ∧
  (∀ s : State, s.pageOn (Pg.AGE / 0x1000) = true →
    (s.fb Rg.AGE_CFG Fd.AGE_CFG_EN = false ∨ s.tk.count < s.ln.ageNext → exec .agePassStart s = .next s) ∧
    (s.fb Rg.AGE_CFG Fd.AGE_CFG_EN = true → s.ln.ageNext ≤ s.tk.count →
      (s.ln.ageRun = false → ∃ t, exec .agePassStart s = .next t ∧ t.ageCur = (s.ageCur + 1) % 256 ∧
        t.rd Rg.AGE_PASS_CNT = (s.rd Rg.AGE_PASS_CNT + 1) % 2 ^ 32 ∧ t.ln.ageNext = s.tk.count + s.rd Rg.AGE_PASS ∧ t.ln.agePos = 0 ∧
        (s.agedTables = [] → t.ln.ageRun = false ∧ bit (t.rd (Pg.AGE + 0x010)) Ib.AGE_PASS_DONE = true)) ∧
      (s.ln.ageRun = true → s.ln.ageLong = false → ∃ t, exec .agePassStart s = .next t ∧ t.ln.ageLong = true ∧
        t.rd Rg.AGE_PASS_LONG_CNT = (s.rd Rg.AGE_PASS_LONG_CNT + 1) % 2 ^ 32 ∧ bit (t.rd (Pg.AGE + 0x010)) Ib.AGE_PASS_LONG = true))) ∧
  ∀ (s : State) (c : ExmCfg) (i : Nat), s.pageOn (Pg.AGE / 0x1000) = true → s.fb Rg.AGE_CFG Fd.AGE_CFG_EN = true → s.ln.ageRun = true →
    s.ln.ageTick ≠ s.tk.count + 1 → s.ln.agePos < s.ln.ageTotal → 1 ≤ s.rd Rg.AGE_PASS → agedAt s.agedTables s.ln.agePos = some (c, i) → c.deep = false →
    ∃ t, exec (.ageScanVisit 1) s = .next t ∧ t.ln.agePos = s.ln.agePos + 1 ∧ t.ln.ageTick = s.tk.count + 1 ∧
      (c.valid (s.exmEnt c i) = true → l2Static (s.exmEnt c i) = false →
        s.f Rg.AGE_CFG Fd.AGE_CFG_AGE_LIMIT ≤ (s.ageCur + 256 - l2Age (s.exmEnt c i)) % 256 →
        t.exmRaw c i = 0 ∧ t.rd Rg.AGE_OUT_CNT = (s.rd Rg.AGE_OUT_CNT + 1) % 2 ^ 32) ∧
      (c.valid (s.exmEnt c i) = false → t.tbls = s.tbls)

/-- R192 (rows ALU to INS), with R187 on g0. -/
def Obligations.ApArithmetic : Prop :=
  ∀ (s : State) (i : ApId) (w rd p : Nat) (a b d : DWord), w = s.apAt i → rd = fRd w → a = s.gr i (fRa w) → b = s.gr i (fRb w) →
    d = s.gr i rd → p = (s.ctx i).pc + 1 →
    (s.apReady i .add → s.apWrites (.add i) i rd (a + b) p) ∧
    (s.apReady i .sub → s.apWrites (.sub i) i rd (a - b) p) ∧
    (s.apReady i .and → s.apWrites (.and i) i rd (a &&& b) p) ∧
    (s.apReady i .or → s.apWrites (.or i) i rd (a ||| b) p) ∧
    (s.apReady i .xor → s.apWrites (.xor i) i rd (a ^^^ b) p) ∧
    (s.apReady i .shl → s.apWrites (.shl i) i rd (a <<< (b.toNat % 64)) p) ∧
    (s.apReady i .shr → s.apWrites (.shr i) i rd (a >>> (b.toNat % 64)) p) ∧
    (s.apReady i .sar → s.apWrites (.sar i) i rd (BitVec.ofInt 64 (a.toInt / 2 ^ (b.toNat % 64))) p) ∧
    (s.apReady i .mul → s.apWrites (.mul i) i rd (BitVec.ofNat 64 (a.toNat * b.toNat)) p) ∧
    (s.apReady i .cmpeq → s.apWrites (.cmpeq i) i rd (if a = b then 1 else 0) p) ∧
    (s.apReady i .cmpltu → s.apWrites (.cmpltu i) i rd (if a.toNat < b.toNat then 1 else 0) p) ∧
    (s.apReady i .cmplt → s.apWrites (.cmplt i) i rd (if a.toInt < b.toInt then 1 else 0) p) ∧
    (s.apReady i .csum → ∃ v : DWord, s.apWrites (.csum i) i rd v p ∧ v.toNat < 65536 ∧ v.toNat % 65535 = (a.toNat + b.toNat) % 65535 ∧
      (v = 0 → a = 0 ∧ b = 0)) ∧
    (s.apReady i .popc → s.apWrites (.popc i) i rd (BitVec.ofNat 64 ((List.range 64).countP fun j => a.getLsbD j)) p) ∧
    (s.apReady i .clz → ∃ n, s.apWrites (.clz i) i rd (BitVec.ofNat 64 n) p ∧ n ≤ 64 ∧ (∀ j, 64 - n ≤ j → j < 64 → a.getLsbD j = false) ∧
      (n < 64 → a.getLsbD (63 - n) = true)) ∧
    (s.apReady i .addi → s.apWrites (.addi i) i rd (a + BitVec.ofInt 64 (signed 16 (fImm w))) p) ∧
    (s.apReady i .andi → s.apWrites (.andi i) i rd (a &&& BitVec.ofNat 64 (fImm w)) p) ∧
    (s.apReady i .ori → s.apWrites (.ori i) i rd (a ||| BitVec.ofNat 64 (fImm w)) p) ∧
    (s.apReady i .xori → s.apWrites (.xori i) i rd (a ^^^ BitVec.ofNat 64 (fImm w)) p) ∧
    (s.apReady i .shli → s.apWrites (.shli i) i rd (a <<< (w % 64)) p) ∧
    (s.apReady i .shri → s.apWrites (.shri i) i rd (a >>> (w % 64)) p) ∧
    (s.apReady i .movk → ∃ v : DWord, s.apWrites (.movk i) i rd v p ∧ ∀ j, j < 64 →
      v.getLsbD j = if j / 16 = fRa w % 4 then (fImm w).testBit (j % 16) else d.getLsbD j) ∧
    (s.apReady i .ext → ∃ v : DWord, s.apWrites (.ext i) i rd v p ∧ ∀ j, j < 64 →
      v.getLsbD j = (decide (j ≤ bits w 4 6) && a.getLsbD (bits w 10 6 + j))) ∧
    (s.apReady i .ins → ∃ v : DWord, s.apWrites (.ins i) i rd v p ∧ ∀ j, j < 64 →
      v.getLsbD j = if bits w 10 6 ≤ j ∧ j ≤ bits w 10 6 + bits w 4 6 then a.getLsbD (j - bits w 10 6) else d.getLsbD j)

/-- R186, R187, R189 and R192 for LDH, STH, HPUSH, HPOP, MFS, MTS, BEQ to BGE, JAL and JR. -/
def Obligations.ApMemoryAndBranches : Prop :=
  ∀ (s : State) (i : ApId) (w rd p : Nat) (a b : DWord), w = s.apAt i → rd = fRd w → a = s.gr i (fRa w) → b = s.gr i (fRb w) → p = (s.ctx i).pc + 1 →
    (∀ (n : Nat) (q : Int), n = 2 ^ bits w 14 2 → q = (s.ctx i).start + (a.toInt + signed 14 (bits w 0 14)) → i.packet = true →
      (s.apReady i .ldh → (-128 ≤ q → q + n ≤ 256 → ∃ v : DWord, s.apWrites (.ldh i) i rd v p ∧ v.toNat < 2 ^ (8 * n) ∧ ∀ j, j < n →
          bits v.toNat (8 * (n - 1 - j)) 8 = if q + j < (s.ctx i).flen then (sget 0 (s.ctx i).buf (q + j + 128).toNat).toNat else 0) ∧
        (q < -128 ∨ 256 < q + n → s.apFaults (.ldh i) i 0x06)) ∧
      (s.apReady i .sth → (-128 ≤ q → q + n ≤ 256 → q + n ≤ (s.ctx i).flen → ∃ t, exec (.sth i) s = .next t ∧ s.apFrame t i ∧
          (∀ m, t.gr i m = s.gr i m) ∧ (t.ctx i).pc = p % 8192 ∧
          (∀ j, j < n → (sget 0 (t.ctx i).buf (q + j + 128).toNat).toNat = bits (s.gr i rd).toNat (8 * (n - 1 - j)) 8) ∧
          ∀ x : Nat, (x : Int) < q + 128 ∨ q + n + 128 ≤ x → sget 0 (t.ctx i).buf x = sget 0 (s.ctx i).buf x) ∧
        (q < -128 ∨ 256 < q + n ∨ (s.ctx i).flen < q + n → s.apFaults (.sth i) i 0x06))) ∧
    (∀ n : Nat, n = a.toNat % 256 →
      (s.apReady i .hpush → (-128 ≤ (s.ctx i).start - n → (s.ctx i).start - n ≤ 255 → ∃ t, exec (.hpush i) s = .next t ∧ s.apFrame t i ∧
          (t.ctx i).start = (s.ctx i).start - n ∧ (∀ j : Nat, j < n → sget 0 (t.ctx i).buf ((s.ctx i).start - n + j + 128).toNat = 0)) ∧
        ((s.ctx i).start - n < -128 → s.apFaults (.hpush i) i 0x06)) ∧
      (s.apReady i .hpop → (-128 ≤ (s.ctx i).start + n → (s.ctx i).start + n ≤ 255 → ∃ t, exec (.hpop i) s = .next t ∧ s.apFrame t i ∧
          (t.ctx i).start = (s.ctx i).start + n ∧ (t.ctx i).buf = (s.ctx i).buf) ∧
        (255 < (s.ctx i).start + n → s.apFaults (.hpop i) i 0x06))) ∧
    (∀ clk, s.apReady i .mfs →
      (w % 1024 = 0x000 → s.apWrites (.mfs i clk) i rd (BitVec.ofNat 64 (i.ap * 64 + i.thread * 4 + i.ctx.getD 0)) p) ∧
      (w % 1024 = 0x001 → s.apWrites (.mfs i clk) i rd (BitVec.ofNat 64 (s.ctx i).prog) p) ∧
      (w % 1024 = 0x060 → s.apWrites (.mfs i clk) i rd (BitVec.ofNat 64 s.tickCount) p) ∧
      (w % 1024 = 0x061 → s.apWrites (.mfs i clk) i rd (BitVec.ofNat 64 clk) p)) ∧
    (s.apReady i .mts →
      (srWidth i.dir (w % 1024) ≠ 0 → ∃ t, exec (.mts i) s = .next t ∧ s.apFrame t i ∧ (∀ m, t.gr i m = s.gr i m) ∧
        (t.ctx i).sr (w % 1024) = some (a.toNat % 2 ^ srWidth i.dir (w % 1024)) ∧ (t.ctx i).pc = p % 8192) ∧
      (w % 1024 < 0x040 ∨ 0x050 ≤ w % 1024 ∧ w % 1024 < 0x063 ∨ w % 1024 = 0x080 ∨ (i.thread ≠ 15 ∧ 0x081 ≤ w % 1024 ∧ w % 1024 ≤ 0x085) →
        s.apFaults (.mts i) i 0x02)) ∧
    (∀ (x y : DWord) (c : Instr) (op : ApOp) (taken : Bool) (off : Int), x = s.gr i (fRd w) → y = s.gr i (fRa w) → off = signed 16 (fImm w) →
      (c, op, taken) ∈ [(Instr.beq i, ApOp.beq, x == y), (Instr.bne i, ApOp.bne, x != y), (Instr.bltu i, ApOp.bltu, decide (x.toNat < y.toNat)),
        (Instr.bgeu i, ApOp.bgeu, decide (y.toNat ≤ x.toNat)), (Instr.blt i, ApOp.blt, decide (x.toInt < y.toInt)),
        (Instr.bge i, ApOp.bge, decide (y.toInt ≤ x.toInt))] → s.apReady i op →
      (taken = false → ∃ t, exec c s = .next t ∧ s.apFrame t i ∧ (∀ m, t.gr i m = s.gr i m) ∧ (t.ctx i).pc = p % 8192) ∧
      (taken = true → i.packet = false ∨ 0 < off → ∃ t, exec c s = .next t ∧ s.apFrame t i ∧ (∀ m, t.gr i m = s.gr i m) ∧
        ((t.ctx i).pc : Int) = ((s.ctx i).pc + off) % 8192) ∧
      (taken = true → i.packet = true → off ≤ 0 → s.apFaults c i 0x03)) ∧
    (s.apReady i .jal → (i.packet = false → s.apWrites (.jal i) i rd (BitVec.ofNat 64 p) (w % 8192)) ∧ (i.packet = true → s.apFaults (.jal i) i 0x0C)) ∧
    (s.apReady i .jr → (i.packet = false → ∃ t, exec (.jr i) s = .next t ∧ s.apFrame t i ∧ (∀ m, t.gr i m = s.gr i m) ∧
      (t.ctx i).pc = a.toNat % 8192) ∧ (i.packet = true → s.apFaults (.jr i) i 0x0C))

/-- R161, R190 and R193 for LKP_EXACT, LKP_ROUTE, LOOKUP_ERR, PKTRD, WLK, TICKET_COMPLETE and DEEP_LOOKUP_LATE. -/
def Obligations.ApLookupsAndTickets : Prop :=
  (∀ (s : State) (i : ApId) (w rd n : Nat) (a : DWord), w = s.apAt i → rd = fRd w → n = fTkt w → a = s.gr i (fRa w) →
    (s.apReady i .lkpExact → (27 < rd ∨ fRa w = 31 → s.apFaults (.lkpExact i) i 0x09) ∧ (rd ≤ 27 → fRa w ≠ 31 →
      ((s.ctx i).busy n = true → s.apFaults (.lkpExact i) i 0x07) ∧
      ((s.ctx i).busy n = false → ∀ (c : ExmCfg) (key : Nat), c = s.exm (w % 32) →
        key = (a.toNat * 2 ^ 64 + (s.gr i (fRa w + 1)).toNat) / 2 ^ (128 - c.keyBits) →
        (s.exmFind c (if s.apOld i then rkPrev else rkCur) key = none → s.apIssues (.lkpExact i) i n fun _ ws =>
          ∃ v, (rd, v) ∈ ws ∧ v.toNat % 4 = 0) ∧
        ∀ x, s.exmFind c (if s.apOld i then rkPrev else rkCur) key = some x → s.apIssues (.lkpExact i) i n fun _ ws =>
          (∃ v, (rd, v) ∈ ws ∧ v.toNat % 4 = 1) ∧ ∀ j, j < 4 →
            (rd + 1 + j, BitVec.ofNat 64 ((if c.typ = 2 then bits (s.exmEnt c x) 64 64 else c.result (s.exmEnt c x)) / 2 ^ (64 * j))) ∈ ws))) ∧
    (s.apReady i .lkpRoute → (30 < rd ∨ (bits a.toNat 16 1 = 1 ∧ fRb w = 31) → s.apFaults (.lkpRoute i) i 0x09) ∧
      (rd ≤ 30 → ¬(bits a.toNat 16 1 = 1 ∧ fRb w = 31) →
        ((s.ctx i).busy n = true → s.apFaults (.lkpRoute i) i 0x07) ∧
        ((s.ctx i).busy n = false → s.apIssues (.lkpRoute i) i n fun _ ws => (∃ v, (rd, v) ∈ ws) ∧ ∃ v, (rd + 1, v) ∈ ws))) ∧
    (s.apReady i .lookupErr → (s.ctx i).busy n = false → s.apFaults (.lookupErr i) i 0x0D) ∧
    (s.apReady i .pktrd → (24 < rd → s.apFaults (.pktrd i) i 0x09) ∧ (rd ≤ 24 → ((s.ctx i).busy n = true → s.apFaults (.pktrd i) i 0x07) ∧
      ∀ k, (s.ctx i).busy n = false → s.apPkt i = some k → s.apIssues (.pktrd i) i n fun _ ws => ∀ j, j < 8 → ∃ v : DWord, (rd + j, v) ∈ ws ∧
        ∀ b, b < 8 → bits v.toNat (8 * (7 - b)) 8 = (lget 0 k.orig (a.toNat % 1024 + 8 * j + b)).toNat)) ∧
    (s.apReady i .wlk → ∃ t, exec (.wlk i) s = .next t ∧ s.apFrame t i ∧ (∀ m, t.gr i m = s.gr i m) ∧ (t.ctx i).pc = ((s.ctx i).pc + 1) % 8192 ∧
      ((∃ b, b < 4 ∧ bit w b = true ∧ (s.ctx i).busy b = true) → t.apMay i = false))) ∧
  (∀ (s : State) (i : ApId) (n : Nat), n < 4 → i.packet = true → i.ap < 16 → i.thread < 16 → i.ctx.getD 0 < 4 →
    ((s.ctx i).busy n = false → exec (.ticketComplete i n) s = .next s) ∧
    ∀ k, (s.ctx i).tickets.find? (fun e => e.1 == n) = some (n, k) → k.lock = none → ∃ t, exec (.ticketComplete i n) s = .next t ∧
      s.apFrame t i ∧ (t.ctx i).busy n = false ∧ (∀ m, (∀ e ∈ k.writes, e.1 ≠ m) → t.gr i m = s.gr i m) ∧
      ∀ m v, m ≠ 0 → (m, v) ∈ k.writes → (∀ e ∈ k.writes, e.1 = m → e.2 = v) → t.gr i m = v) ∧
  ∀ (s : State) (i : ApId) (n : Nat), n < 4 → s.pageOn (Pg.EXM / 0x1000) = true →
    (∀ k rd, (s.ctx i).tickets.find? (fun e => e.1 == n) = some (n, k) → k.deep = some rd → ∃ t k', exec (.deepLookupLate i n) s = .next t ∧
      (n, k') ∈ (t.ctx i).tickets ∧ (rd, 2) ∈ k'.writes ∧ (∀ m, t.gr i m = s.gr i m) ∧
      t.rd Rg.EXM_DEEP_LATE_CNT = (s.rd Rg.EXM_DEEP_LATE_CNT + 1) % 2 ^ 32 ∧ bit (t.rd (Pg.EXM + 0x010)) Ib.EXM_DEEP_LATE = true) ∧
    ((∀ e ∈ (s.ctx i).tickets, e.2.deep = none) → exec (.deepLookupLate i n) s = .next s)

/-- R197 and R198 for LKT, LOCK, LOCK_GRANT, ULK, CRES, CWR, CPUB and CRD. -/
def Obligations.ApLocksAndChannels : Prop :=
  (∀ (s : State) (i : ApId) (w rd n l : Nat) (a : DWord), w = s.apAt i → rd = fRd w → n = fTkt w → a = s.gr i (fRa w) → l = a.toNat % 256 →
    (s.ctx i).busy n = false →
    (s.apReady i .lkt →
      (s.lockErr i l = true → s.apFaults (.lkt i) i 0x08) ∧
      (s.lockErr i l = false → (s.lockOf i.cluster l).holder = none → s.apIssues (.lkt i) i n fun t ws =>
        (rd, 1) ∈ ws ∧ (t.lockOf i.cluster l).holder = some i) ∧
      (s.lockErr i l = false → (s.lockOf i.cluster l).holder ≠ none → s.apIssues (.lkt i) i n fun t ws =>
        (rd, 0) ∈ ws ∧ t.locks = s.locks ∧ t.rd (Rg.APC_LOCK_BUSY_CNT i.cluster) = (s.rd (Rg.APC_LOCK_BUSY_CNT i.cluster) + 1) % 2 ^ 32)) ∧
    (s.apReady i .lock →
      (i.packet = true → s.apFaults (.lock i) i 0x0C) ∧
      (i.packet = false → s.lockErr i l = true → s.apFaults (.lock i) i 0x08) ∧
      (i.packet = false → s.lockErr i l = false → (s.thr i).wfe = none → (s.lockOf i.cluster l).holder = none →
        (s.lockOf i.cluster l).queue = [] → s.apIssues (.lock i) i n fun t ws =>
          ws = [] ∧ (t.lockOf i.cluster l).holder = some i ∧ bit (t.thr i).events 4 = true) ∧
      (i.packet = false → s.lockErr i l = false → (s.lockOf i.cluster l).holder ≠ none → s.apIssues (.lock i) i n fun t ws =>
        ws = [] ∧ (t.lockOf i.cluster l).holder = (s.lockOf i.cluster l).holder ∧
        (t.lockOf i.cluster l).queue = (s.lockOf i.cluster l).queue ++ [i])) ∧
    (s.apReady i .ulk →
      ((s.lockOf i.cluster l).holder ≠ some i → s.apFaults (.ulk i) i 0x08) ∧
      ((s.lockOf i.cluster l).holder = some i → s.apIssues (.ulk i) i n fun t _ =>
        (t.lockOf i.cluster l).holder = none ∧ (t.lockOf i.cluster l).queue = (s.lockOf i.cluster l).queue)) ∧
    (s.apReady i .cres → ∀ c ch, c = (if bits a.toNat 6 5 = 31 then i.cluster else bits a.toNat 6 5) → ch = a.toNat % 64 →
      (s.clusterOn c = false → s.apIssues (.cres i) i n fun t ws => (rd, BitVec.allOnes 64) ∈ ws ∧ t.chans = s.chans) ∧
      (s.clusterOn c = true → 16 ≤ (s.chan c ch).length → s.apIssues (.cres i) i n fun t ws => (rd, BitVec.allOnes 64) ∈ ws ∧ t.chans = s.chans ∧
        t.rd (Rg.APC_CHAN_FULL_CNT c) = (s.rd (Rg.APC_CHAN_FULL_CNT c) + 1) % 2 ^ 32) ∧
      (s.clusterOn c = true → (s.chan c ch).length < 16 → revokedHead (s.chan c ch) = 0 → s.apIssues (.cres i) i n fun t ws =>
        ∃ h : Nat, (rd, BitVec.ofNat 64 h) ∈ ws ∧ t.chan c ch = s.chan c ch ++ [⟨some h, some i, List.replicate 8 0, 0⟩])) ∧
    (s.apReady i .crd → (23 < rd → s.apFaults (.crd i) i 0x09) ∧ (rd ≤ 23 → ∀ ch, ch = a.toNat % 64 →
      (∀ x r, s.chan i.cluster ch = x :: r → x.st = 1 → s.apIssues (.crd i) i n fun t ws => (rd, 1) ∈ ws ∧
        (∀ j, j < 8 → (rd + 1 + j, lget 0 x.words j) ∈ ws) ∧ t.chan i.cluster ch = r.drop (revokedHead r)) ∧
      ((∀ x r, s.chan i.cluster ch = x :: r → x.st ≠ 1) → s.apIssues (.crd i) i n fun t ws => (rd, 0) ∈ ws ∧ t.chans = s.chans)))) ∧
  (∀ (s : State) (i : ApId) (w h : Nat), w = s.apAt i → h = (s.gr i (fRa w)).toNat →
    (s.apReady i .cwr → (h ∉ (s.ctx i).resv → s.apFaults (.cwr i) i 0x09) ∧
      (h ∈ (s.ctx i).resv → s.slotOf i h = none → s.apFaults (.cwr i) i 0x0A) ∧
      ∀ key m x, h ∈ (s.ctx i).resv → s.slotOf i h = some (key, m) → (sget [] s.chans key)[m]? = some x → x.st = 0 →
        revokedHead (sget [] s.chans key) = 0 → ∃ t, exec (.cwr i) s = .next t ∧ (t.ctx i).pc = ((s.ctx i).pc + 1) % 8192 ∧
          (sget [] t.chans key)[m]? = some { x with words := x.words.set (w % 8) (s.gr i (fRb w)) } ∧
          ∀ q, q ≠ m → (sget [] t.chans key)[q]? = (sget [] s.chans key)[q]?) ∧
    (s.apReady i .cpub → (h ∉ (s.ctx i).resv → s.apFaults (.cpub i) i 0x09) ∧
      ∀ key m x, h ∈ (s.ctx i).resv → s.slotOf i h = some (key, m) → (sget [] s.chans key)[m]? = some x → x.st = 0 →
        revokedHead (sget [] s.chans key) = 0 → ∃ t, exec (.cpub i) s = .next t ∧
          (sget [] t.chans key)[m]? = some { x with st := 1, handle := none, owner := none } ∧
          ∀ q, q ≠ m → (sget [] t.chans key)[q]? = (sget [] s.chans key)[q]?)) ∧
  ∀ (s : State) (c l : Nat), l < 256 →
    (∀ i r, (s.lockOf c l).holder = none → (s.lockOf c l).queue = i :: r → ∃ t, exec (.lockGrant c l) s = .next t ∧
      t.lockOf c l = { holder := some i, queue := r } ∧ ∀ c' l', l' < 256 → (c', l') ≠ (c, l) → t.lockOf c' l' = s.lockOf c' l') ∧
    ((s.lockOf c l).holder ≠ none ∨ (s.lockOf c l).queue = [] → exec (.lockGrant c l) s = .next s)

/-- R186, R189, R192, R194 and R195 for END, DROP, PUNT, TIME_BOUND, ILLEGAL_OP, LRN and LIVE. -/
def Obligations.ApEndings : Prop :=
  ∀ (s : State) (i : ApId) (w : Nat) (a b : DWord), w = s.apAt i → a = s.gr i (fRa w) → b = s.gr i (fRb w) →
    (∀ k : Pkt, i.packet = true → s.apPkt i = some k →
      (s.apReady i .endPkt → ∃ t p, exec (.apEnd i) s = .next t ∧ t.ctx i = {} ∧ p ∈ (t.slice i.dir i.sl).inside ∧ p.entry = k.entry ∧
        p.ready = true ∧ p.bytes = (s.ctx i).frame k.bytes ∧ p.v.fwd = k.v.fwd ∧ (i.dir = 0 → (s.ctx i).sr 0x040 = none → p.md.dest = k.md.dest) ∧
        (∀ d, i.dir = 0 → (s.ctx i).sr 0x040 = some d → p.md.dest = d)) ∧
      (s.apReady i .drop → ∃ t p, exec (.drop i) s = .next t ∧ t.ctx i = {} ∧ p ∈ (t.slice i.dir i.sl).inside ∧ p.entry = k.entry ∧
        p.ready = true ∧ p.v.fwd = 1 ∧ t.rd (Rg.APC_AP_DROP_CNT i.cluster) = (s.rd (Rg.APC_AP_DROP_CNT i.cluster) + 1) % 2 ^ 32) ∧
      (s.apReady i .punt → ∃ t p, exec (.punt i) s = .next t ∧ t.ctx i = {} ∧ p ∈ (t.slice i.dir i.sl).inside ∧ p.entry = k.entry ∧ p.ready = true ∧
        t.rd (Rg.APC_PUNT_CNT i.cluster) = (s.rd (Rg.APC_PUNT_CNT i.cluster) + 1) % 2 ^ 32 ∧
        (a.toNat % 256 = 0 → p.v.fwd = 1 ∧ t.rd (Rg.APC_AP_DROP_CNT i.cluster) = (s.rd (Rg.APC_AP_DROP_CNT i.cluster) + 1) % 2 ^ 32) ∧
        (a.toNat % 256 ≠ 0 → i.dir = 0 → k.v.fwd ≠ 1 → p.v.fwd = 2 ∧ p.v.punt = a.toNat % 256))) ∧
    (s.apReady i .illegal → s.apFaults (.illegalOp i) i 0x01) ∧
    (i.packet = true → s.clusterOn i.cluster = true → i.ap < 16 → i.thread < 15 → (s.ctx i).live = true → s.apFaults (.timeBound i) i 0x05) ∧
    (i.packet = true → (s.ctx i).live = false → exec (.timeBound i) s = .next s) ∧
    (s.apReady i .lrn → (s.learnQ i.cluster).length < 512 → (∀ e ∈ s.learnQ i.cluster, e.tick ≠ s.tk.count) → ∃ t, exec (.lrn i) s = .next t ∧
      t.learnQ i.cluster = s.learnQ i.cluster ++ [⟨s.tk.count, bits a.toNat 17 5, bits b.toNat 48 16, b.toNat % 2 ^ 48, a.toNat % 2 ^ 17⟩] ∧
      ∀ m, t.gr i m = s.gr i m) ∧
    ∀ clk, s.apReady i .live → ∃ t, exec (.live i clk) s = .next t ∧ (∀ m, t.gr i m = s.gr i m) ∧
      (bit w 0 = false → t.live (a.toNat % 4096) = false) ∧
      (bit w 0 = true → sget 0 s.liveClr (a.toNat % 4096) ≠ s.at clk + 1 → t.live (a.toNat % 4096) = true)

/-- R196, R201 and R202 for WFE, SIG, TSTART, TSTOP, CREVOKE, LREL, BRK, AP_TIMER_EXPIRY, ALLWAIT and STALE. -/
def Obligations.ApEventsAndSupervision : Prop :=
  (∀ (s : State) (i : ApId) (w rd p : Nat) (a b : DWord), w = s.apAt i → rd = fRd w → a = s.gr i (fRa w) → b = s.gr i (fRb w) →
    p = (s.ctx i).pc + 1 →
    (s.apReady i .wfe → (i.packet = true → s.apFaults (.wfe i) i 0x0C) ∧
      ∀ m, i.packet = false → m = a.toNat % 2 ^ (if i.thread = 15 then 17 else 14) → ∃ t, exec (.wfe i) s = .next t ∧ (t.ctx i).pc = p % 8192 ∧
        (s.pendEvents i &&& m = 0 → (t.thr i).st = 2 ∧ (t.thr i).wfe = some (m, rd) ∧ ∀ x, t.gr i x = s.gr i x) ∧
        (s.pendEvents i &&& m ≠ 0 → (t.thr i).st = 1 ∧ (t.thr i).wfe = none ∧
          (rd ≠ 0 → t.gr i rd = BitVec.ofNat 64 (s.pendEvents i &&& m)) ∧ ∀ x, x ≠ rd → t.gr i x = s.gr i x)) ∧
    (s.apReady i .sig → (i.packet = true → s.apFaults (.sig i) i 0x0C) ∧
      ∀ j : ApId, i.packet = false → j = { i with thread := a.toNat % 16 } → (s.thr j).wfe = none → ∃ t, exec (.sig i) s = .next t ∧
        bit (t.thr j).events 6 = true) ∧
    (s.apReady i .tstart → (i.packet = true ∨ i.thread ≠ 15 ∨ s.fb (Rg.APC_CTRL i.cluster) Fd.APC_CTRL_DISPATCH_EN = true → s.apFaults (.tstart i) i 0x0C) ∧
      ∀ j : ApId, i.packet = false → i.thread = 15 → s.fb (Rg.APC_CTRL i.cluster) Fd.APC_CTRL_DISPATCH_EN = false → a.toNat % 16 ≠ 15 →
        j = { i with thread := a.toNat % 16 } → ∃ t, exec (.tstart i) s = .next t ∧ (t.thr j).st = 1 ∧ (t.thr j).x.pc = b.toNat % 8192 ∧
          (t.ctx i).pc = p % 8192) ∧
    (s.apReady i .tstop → (i.packet = true ∨ i.thread ≠ 15 → s.apFaults (.tstop i) i 0x0C) ∧
      ∀ j : ApId, i.packet = false → i.thread = 15 → j = { i with thread := a.toNat % 16 } → ∃ t, exec (.tstop i) s = .next t ∧ (t.thr j).st = 0) ∧
    (s.apReady i .lrel → i.packet = false → i.thread = 15 →
      (s.staleThread i (a.toNat % 16) = false → s.apWrites (.lrel i) i rd 0 p) ∧
      (s.staleThread i (a.toNat % 16) = true → ∃ t, exec (.lrel i) s = .next t ∧ (t.ctx i).pc = p % 8192 ∧
        ∀ l, (t.lockOf i.cluster l).holder ≠ some { i with thread := a.toNat % 16 })) ∧
    (s.apReady i .crevoke → i.packet = false → i.thread = 15 →
      ((∀ n, n < 15 → s.staleThread i n = false) → s.apWrites (.crevoke i) i rd 0 p) ∧
      ∀ n key m x, n < 15 → s.staleThread i n = true → (∀ n', n' < 15 → n' ≠ n → s.staleThread i n' = false) →
        s.slotOf { i with thread := n } a.toNat = some (key, m + 1) → (sget [] s.chans key)[m + 1]? = some x →
        revokedHead (sget [] s.chans key) = 0 → ∃ t, exec (.crevoke i) s = .next t ∧ (t.ctx i).pc = p % 8192 ∧
          (x.st = 0 → (sget [] t.chans key)[m + 1]? = some { x with st := 2 })) ∧
    (s.apReady i .brk → (i.packet = true → ∃ t, exec (.brk i) s = .next t ∧ s.apFrame t i ∧ (∀ m, t.gr i m = s.gr i m) ∧ (t.ctx i).pc = p % 8192) ∧
      (i.packet = false → ∃ t, exec (.brk i) s = .next t ∧ (t.thr i).st = 3 ∧ (t.ctx i).pc = p % 8192 ∧
        bit (t.rd (Pg.APC i.cluster + 0x010)) Ib.APC_DBG_HALT = true))) ∧
  ∀ (s : State) (c p : Nat), s.clusterOn c = true → p < 16 →
    (∀ n, n < 4 → (sget 0 (s.sup c p).timers n = 0 ∨ s.tk.count + 1 < sget 0 (s.sup c p).timers n → exec (.apTimerExpiry c p n) s = .next s) ∧
      (sget 0 (s.sup c p).timers n ≠ 0 → sget 0 (s.sup c p).timers n ≤ s.tk.count + 1 → ∃ t, exec (.apTimerExpiry c p n) s = .next t ∧
        sget 0 (t.sup c p).timers n = 0 ∧ ∀ j, j < 16 → (s.thr ⟨c, p, j, none⟩).wfe = none → bit (t.thr ⟨c, p, j, none⟩).events (8 + n) = true)) ∧
    ((s.sup c p).fired = true ∨ (∃ j, j < 15 ∧ s.deadWait ⟨c, p, j, none⟩ = false) → exec (.allwait c p) s = .next s) ∧
    ((s.sup c p).fired = false → (∀ j, j < 15 → s.deadWait ⟨c, p, j, none⟩ = true) → ∃ t, exec (.allwait c p) s = .next t ∧
      (t.sup c p).fired = true ∧ t.rd (Rg.APC_ALLWAIT_CNT c) = (s.rd (Rg.APC_ALLWAIT_CNT c) + 1) % 2 ^ 32 ∧
      ((s.thr ⟨c, p, 15, none⟩).st = 3 ∨ (s.thr ⟨c, p, 15, none⟩).st = 4 → bit (t.rd (Pg.APC c + 0x010)) Ib.APC_ALLWAIT = true) ∧
      ((s.thr ⟨c, p, 15, none⟩).st = 1 → (s.thr ⟨c, p, 15, none⟩).wfe = none → bit (t.thr ⟨c, p, 15, none⟩).events 15 = true)) ∧
    ∀ n, n < 16 →
      ((s.thr ⟨c, p, n, none⟩).st ≠ 3 ∨ s.fb (Rg.APC_DBG_CFG c) Fd.APC_DBG_CFG_SAFE = false → exec (.stale c p n) s = .next s) ∧
      ((s.thr ⟨c, p, n, none⟩).st = 3 → (s.thr ⟨c, p, n, none⟩).stale = false → s.fb (Rg.APC_DBG_CFG c) Fd.APC_DBG_CFG_SAFE = true →
        (s.thr ⟨c, p, n, none⟩).haltAt + s.f (Rg.APC_DBG_CFG c) Fd.APC_DBG_CFG_REVOKE_TICKS ≤ s.tk.count →
        s.locksOf ⟨c, p, n, none⟩ ≠ [] → ∃ t, exec (.stale c p n) s = .next t ∧ (t.thr ⟨c, p, n, none⟩).stale = true ∧
          (n = 15 → ∀ l, (t.lockOf c l).holder ≠ some ⟨c, p, 15, none⟩) ∧
          (n ≠ 15 → bits (t.sup c p).staleReg 2 4 = n ∧ bit (t.sup c p).staleReg 31 = true ∧
            ((s.thr ⟨c, p, 15, none⟩).wfe = none → bit (t.thr ⟨c, p, 15, none⟩).events 16 = true)))

/-- R182, R196, R199 and R202 for DISPATCH_EN_WRITE, SUP_START, POKE, HALT, RESUME, STEP, READ_REG and WRITE_REG. -/
def Obligations.ApControl : Prop :=
  (∀ (s : State) (a : Acc) (v : Word) (c d x : Nat), c < 18 → d = (if c < 9 then 0 else 1) → x = (if c < 9 then c else c - 9) →
    (s.mayWrite a (Rg.APC_CTRL c) = true →
      (bit v.toNat 30 = false → ∃ t, exec (.dispatchEnWrite a c v) s = .next t ∧
        (bit v.toNat 31 = true → t.fb (Rg.APC_CTRL c) Fd.APC_CTRL_DISPATCH_EN = true) ∧
        (bit v.toNat 31 = false → s.role d x = rlActive ∨ s.role d x = rlDormant →
          t.fb (Rg.APC_CTRL c) Fd.APC_CTRL_DISPATCH_EN = s.fb (Rg.APC_CTRL c) Fd.APC_CTRL_DISPATCH_EN ∧
          bit (t.rd (Pg.APC c + 0x010)) Ib.APC_REFUSED = true ∧ State.onlyRegs (intReg (Pg.APC c)) s t) ∧
        (bit v.toNat 31 = false → s.role d x = rlService ∨ s.role d x = rlFenced → t.fb (Rg.APC_CTRL c) Fd.APC_CTRL_DISPATCH_EN = false ∧
          State.onlyRegs (fun y => y == Rg.APC_CTRL c) s t)) ∧
      (bit v.toNat 30 = true → ∃ t, exec (.supStart a c v) s = .next t ∧ ∀ p, p < 16 → (t.sup c p).faults = [] ∧
        (t.thr ⟨c, p, 15, none⟩).st = 1 ∧ (t.thr ⟨c, p, 15, none⟩).x.pc = s.f (Rg.APC_SUP_CFG c) Fd.APC_SUP_CFG_SUP_START_ADDR % 8192)) ∧
    (s.mayWrite a (Rg.APC_POKE c) = true → ∃ t, exec (.poke a c v) s = .next t ∧ ∀ p, p < 16 → (s.thr ⟨c, p, 15, none⟩).wfe = none →
      (bit v.toNat p = true → bit (t.thr ⟨c, p, 15, none⟩).events 7 = true) ∧
      (bit v.toNat p = false → t.thr ⟨c, p, 15, none⟩ = s.thr ⟨c, p, 15, none⟩))) ∧
  ∀ (s : State) (a : Acc) (v : Word) (c : Nat) (j : ApId), c < 18 → s.mayWrite a (Rg.APC_DBG_CTRL c) = true → bit v.toNat 31 = true →
    j = ⟨c, bits v.toNat 24 4, bits v.toNat 20 4, none⟩ →
    (bits v.toNat 28 3 = 1 → ∃ t, exec (.halt a c v) s = .next t ∧
      (j.thread ≠ 15 → s.fb (Rg.APC_CTRL c) Fd.APC_CTRL_DISPATCH_EN = true → t.f (Rg.APC_DBG_STAT c) Fd.APC_DBG_STAT_RESULT = 2 ∧
        bit (t.rd (Pg.APC c + 0x010)) Ib.APC_REFUSED = true ∧ t.apThr = s.apThr) ∧
      (j.thread = 15 ∨ s.fb (Rg.APC_CTRL c) Fd.APC_CTRL_DISPATCH_EN = false → (s.thr j).st = 1 ∨ (s.thr j).st = 2 →
        t.f (Rg.APC_DBG_STAT c) Fd.APC_DBG_STAT_RESULT = 1 ∧ (t.thr j).st = 3 ∧ t.locks = s.locks ∧ t.chans = s.chans)) ∧
    (∀ m (cmd : Instr), (m, cmd) ∈ [(2, Instr.resume a c v), (3, Instr.step a c v), (4, Instr.readReg a c v), (5, Instr.writeReg a c v)] →
      bits v.toNat 28 3 = m → (s.thr j).st ≠ 3 → ∃ t, exec cmd s = .next t ∧ t.f (Rg.APC_DBG_STAT c) Fd.APC_DBG_STAT_RESULT = 2 ∧
        bit (t.rd (Pg.APC c + 0x010)) Ib.APC_REFUSED = true ∧ t.apThr = s.apThr) ∧
    ((s.thr j).st = 3 → (s.ctx { j with ctx := some (bits v.toNat 18 2) }).live = false →
      (bits v.toNat 28 3 = 2 → (s.thr j).wfe = none → ∃ t, exec (.resume a c v) s = .next t ∧ (t.thr j).st = 1 ∧
        t.f (Rg.APC_DBG_STAT c) Fd.APC_DBG_STAT_RESULT = 1) ∧
      (bits v.toNat 28 3 = 3 → (s.thr j).wfe = none → (s.ctx j).wait = 0 → apOp (s.apAt j) = .add → s.apBad j (s.apAt j) = false →
        ∃ t, exec (.step a c v) s = .next t ∧ (t.thr j).st = 3 ∧ (t.ctx j).pc = ((s.ctx j).pc + 1) % 8192 ∧
          t.f (Rg.APC_DBG_STAT c) Fd.APC_DBG_STAT_RESULT = 1 ∧ bit (t.rd (Pg.APC c + 0x010)) Ib.APC_DBG_HALT = true ∧
          (fRd (s.apAt j) ≠ 0 → t.gr j (fRd (s.apAt j)) = s.gr j (fRa (s.apAt j)) + s.gr j (fRb (s.apAt j)))) ∧
      (bits v.toNat 28 3 = 4 → bit v.toNat 9 = false → ∃ t, exec (.readReg a c v) s = .next t ∧
        t.rd64 (Rg.APC_DBG_DATA_LO c) = (s.gr j (v.toNat % 32)).toNat ∧ t.apThr = s.apThr ∧ t.f (Rg.APC_DBG_STAT c) Fd.APC_DBG_STAT_RESULT = 1) ∧
      (bits v.toNat 28 3 = 5 → bit v.toNat 9 = false → v.toNat % 32 ≠ 0 → ∃ t, exec (.writeReg a c v) s = .next t ∧
        t.gr j (v.toNat % 32) = BitVec.ofNat 64 (s.rd64 (Rg.APC_DBG_DATA_LO c)) ∧ t.f (Rg.APC_DBG_STAT c) Fd.APC_DBG_STAT_RESULT = 1 ∧
        ∀ m, m ≠ v.toNat % 32 → t.gr j m = s.gr j m))

/-- R210 to R212 and R215 for PACKET_HEAD_ARRIVAL and ADMISSION_DECISION. -/
def Obligations.AdmissionOfPackets : Prop :=
  (∀ (s : State) (clk : Nat), (∀ it ∈ s.admQ, it.head = true) → exec (.packetHeadArrival clk) s = .next s) ∧
  (∀ (s : State) (clk : Nat) (it : AdmItem), s.admQ.find? (fun x => !x.head) = some it → s.cutsThrough it.pkt = false →
    ∃ t, exec (.packetHeadArrival clk) s = .next t ∧ t.admQ = s.admQ.map (fun x => if x = it then { x with head := true } else x) ∧
      t.rd Rg.CALD_ARRIVAL = (s.rd Rg.CALD_ARRIVAL + cellsOf (it.pkt.bytes.length + 4)) % 2 ^ 32 ∧ t.voqs = s.voqs) ∧
  (∀ (s : State) (clk : Nat), (s.admQ = [] ∨ ∃ it rest, s.admQ = it :: rest ∧ it.head = false) → exec (.admissionDecision clk) s = .next s) ∧
  ∀ (s : State) (clk c v src : Nat) (it : AdmItem) (rest : List AdmItem), s.admQ = it :: rest → it.head = true → it.cut = false →
    s.rd Rg.CALD_LOSSY < 2 ^ 32 →
    s.pageOn (Pg.ADM / 0x1000) = true → c = cellsOf (it.pkt.bytes.length + 4) → v = 8 * it.pkt.md.dest + it.pkt.md.tc →
    src = 8 * it.pkt.md.lport + it.pkt.md.tc →
    (it.pkt.bad = true → ∃ t, exec (.admissionDecision clk) s = .next t ∧ t.admQ = rest ∧ t.voqs = s.voqs ∧
      t.rd Rg.ADM_BAD_TAIL_CNT = (s.rd Rg.ADM_BAD_TAIL_CNT + 1) % 2 ^ 32 ∧ bit (t.rd (Pg.ADM + 0x010)) Ib.ADM_BAD_TAIL = true) ∧
    (it.pkt.bad = false → it.copy = false → it.host = false → it.pkt.md.policeEn = false → it.pkt.md.punt = 0 → it.pkt.md.mirrorEn = false →
      it.pkt.md.sample = false → it.pkt.md.flowCtrEn = false → bit (s.f Rg.ADM_CFG Fd.ADM_CFG_LOSSLESS_TC) it.pkt.md.tc = false →
      bit (s.prof v 12) (min 2 it.pkt.md.color) = false → ∃ t, exec (.admissionDecision clk) s = .next t ∧ t.admQ = rest ∧
      (s.rd Rg.ADM_LOSSY_MAX < s.rd Rg.CALD_LOSSY + c → t.voqs = s.voqs ∧ t.rd Rg.CALD_LOSSY = s.rd Rg.CALD_LOSSY ∧
        t.rd Rg.ADM_DROP_GLOBAL_CNT = (s.rd Rg.ADM_DROP_GLOBAL_CNT + 1) % 2 ^ 32) ∧
      (s.rd Rg.CALD_LOSSY + c ≤ s.rd Rg.ADM_LOSSY_MAX →
        (s.srcLimit src < s.srcUsed src + c → t.voqs = s.voqs ∧ t.rd Rg.CALD_LOSSY = s.rd Rg.CALD_LOSSY ∧
          t.rd Rg.ADM_DROP_SRC_CNT = (s.rd Rg.ADM_DROP_SRC_CNT + 1) % 2 ^ 32) ∧
        (s.srcUsed src + c ≤ s.srcLimit src →
          (s.prof v 0 < (s.voq v).cells + c → t.voqs = s.voqs ∧ t.rd Rg.ADM_DROP_VOQ_CNT = (s.rd Rg.ADM_DROP_VOQ_CNT + 1) % 2 ^ 32) ∧
          ((s.voq v).cells + c ≤ s.prof v 0 → (s.voq v).onDie + c ≤ s.prof v 2 →
            (∃ p, (t.voq v).pkts = (s.voq v).pkts ++ [p] ∧ p.bytes = sealFrame it.pkt.bytes ∧ p.tail = true) ∧
            (∀ w, w ≠ v → t.voq w = s.voq w) ∧ t.rd Rg.CALD_LOSSY = (s.rd Rg.CALD_LOSSY + c) % 2 ^ 32 ∧
            t.srcUsed src = (s.srcUsed src + c) % 2 ^ 24 ∧ t.rd64 Rg.ADM_ADMIT_CNT_LO = (s.rd64 Rg.ADM_ADMIT_CNT_LO + 1) % 2 ^ 64))))

/-- R218 to R222 for SPILL_PAGE_WRITE, PAGE_RETURN, STALE_DRAIN, PFC_TX and PFC_REFRESH. -/
def Obligations.BufferPagesAndPause : Prop :=
  (∀ (s : State) (v n : Nat), s.pageOn (Pg.BUF / 0x1000) = true →
    (s.wantsPage (s.voq v) = false ∨ s.pageFree n = false → exec (.spillPageWrite v n) s = .next s) ∧
    (s.wantsPage (s.voq v) = true → s.pageFree n = true → s.rd Rg.BUF_PAGES_FREE ≠ 0 → s.allUp = true →
      ∃ t, exec (.spillPageWrite v n) s = .next t ∧ (t.voq v).pages = (s.voq v).pages ++ [(n, min 8 (s.voq v).nstaged)] ∧
        (t.voq v).staged = dropStaged (min 8 (s.voq v).nstaged) (s.voq v).staged ∧ (t.voq v).pkts = (s.voq v).pkts ∧
        t.rd Rg.BUF_PAGES_FREE = (s.rd Rg.BUF_PAGES_FREE - 1) % 2 ^ 32 ∧ t.rd Rg.BUF_SPILL_PAGE_CNT = (s.rd Rg.BUF_SPILL_PAGE_CNT + 1) % 2 ^ 32 ∧
        t.rd Rg.BUF_PARTIAL_PAGE_CNT =
          if (s.voq v).nstaged < 8 then (s.rd Rg.BUF_PARTIAL_PAGE_CNT + 1) % 2 ^ 32 else s.rd Rg.BUF_PARTIAL_PAGE_CNT)) ∧
  (∀ (s : State) (v n c : Nat) (rest : List (Nat × Nat)), s.pageOn (Pg.BUF / 0x1000) = true → (s.voq v).pages = (n, c) :: rest →
    ((s.voq v).spill = false ∨ s.spillThr v ≤ 2 * (s.voq v).head → exec (.pageReturn v) s = .next s) ∧
    ((s.voq v).spill = true → 2 * (s.voq v).head < s.spillThr v → s.allUp = true →
      8192 + s.rd Rg.CALD_LOSSY + s.rd Rg.CALD_LOSSLESS + c ≤ s.caldCells → ∃ t, exec (.pageReturn v) s = .next t ∧
      ((s.linkRead n).2 = true → (t.voq v).pages = rest ∧ (s.voq v).head + c ≤ (t.voq v).head ∧
        t.rd Rg.BUF_RETURN_PAGE_CNT = (s.rd Rg.BUF_RETURN_PAGE_CNT + 1) % 2 ^ 32 ∧ t.rd Rg.BUF_PAGES_FREE = (s.rd Rg.BUF_PAGES_FREE + 1) % 2 ^ 32) ∧
      ((s.linkRead n).2 = false → (t.voq v).pages = [] ∧ bit (t.rd (Pg.BUF + 0x010)) Ib.BUF_PAGE_LOST = true ∧
        t.rd Rg.BUF_PAGE_LOST_CNT = (s.rd Rg.BUF_PAGE_LOST_CNT + rest.length) % 2 ^ 32 ∧
        t.rd Rg.BUF_PAGES_TOTAL = (s.rd Rg.BUF_PAGES_TOTAL - rest.length) % 2 ^ 32))) ∧
  (∀ s : State, (∀ e ∈ s.voqs, s.destValid e.1 = true ∨ e.2.pkts = []) → exec .staleDrain s = .next s) ∧
  (∀ (s : State) (v : Nat) (x : VoqSt) (p : VPkt) (rest : List VPkt), s.pageOn (Pg.VOQ / 0x1000) = true → s.voqs = [(v, x)] →
    s.destValid v = false → x.pkts = p :: rest → p.begun = false → x.pages = [] → ∃ t, exec .staleDrain s = .next t ∧ (t.voq v).pkts = rest ∧
      t.rd Rg.VOQ_STALE_DROP_CNT = (s.rd Rg.VOQ_STALE_DROP_CNT + 1) % 2 ^ 32 ∧ bit (t.rd (Pg.VOQ + 0x010)) Ib.VOQ_STALE_DROP = true) ∧
  ∀ (s : State) (p : Nat), s.lportOn p = true →
    (s.lkIsUp p = false → exec (.pfcTx p) s = .next s ∧ exec (.pfcRefresh p) s = .next s) ∧
    (s.pauseWant p = (s.lport p).pfcSent → exec (.pfcTx p) s = .next s) ∧
    (s.lkIsUp p = true → s.pauseWant p ≠ (s.lport p).pfcSent → ∃ t q, exec (.pfcTx p) s = .next t ∧ (t.lport p).pfcSent = s.pauseWant p ∧
      Emit.pfc p (s.pauseWant p ||| (s.lport p).pfcSent) q ∈ t.out ∧
      ∀ i, i < 8 → bits q (16 * i) 16 = if bit (s.pauseWant p) i then s.f Rg.ADM_PFC_TIME Fd.ADM_PFC_TIME_QUANTA else 0) ∧
    (s.pauseWant p = 0 → exec (.pfcRefresh p) s = .next s) ∧
    (s.lkIsUp p = true → s.pauseWant p ≠ 0 → ∃ t q, exec (.pfcRefresh p) s = .next t ∧ (t.lport p).pfcSent = s.pauseWant p ∧
      Emit.pfc p (s.pauseWant p ||| (s.lport p).pfcSent) q ∈ t.out)

/-- R229, R232, R233, R240 and R241 for EGRESS_ENQUEUE, EGRESS_DECISION and MAC_TX_FRAME. -/
def Obligations.EgressScheduling : Prop :=
  (∀ (s : State) (clk : Nat), (∀ id ∈ s.eg.fresh, ∀ p, s.epkt id = some p → s.mayEnter p = false) → exec (.egressEnqueue clk) s = .next s) ∧
  (∀ (s : State) (clk id : Nat) (p : EPkt), s.eg.fresh.find? (fun x => (s.epkt x).any s.mayEnter) = some id → s.epkt id = some p →
    ∃ t, exec (.egressEnqueue clk) s = .next t ∧ t.queue p.eq = s.queue p.eq ++ [id] ∧ id ∉ t.eg.fresh ∧
      t.epkt id = some { p with enq := some (s.at clk), ct := decide (p.bytes.length < p.len) } ∧ ∀ e, e ≠ p.eq → t.queue e = s.queue e) ∧
  (∀ (s : State) (g clk : Nat) (pool : Option MemErr), bit (s.rd (Pg.EQS + 0x008)) 31 = false ∨ s.d2dDown = true ∨ s.part.lineGroups ≤ g →
    exec (.egressDecision g clk pool) s = .next s) ∧
  (∀ (s s2 : State) (g clk : Nat) (es : List Nat), bit (s.rd (Pg.EQS + 0x008)) 31 = true → s.d2dDown = false → g < s.part.lineGroups →
    s.pageOn (Pg.EQL g / 0x1000) = true → s.pageOn (Pg.EQS / 0x1000) = true →
    es = (s.gateHold g (s.todFrac (s.at clk))).eligible (s.todFrac (s.at clk)) → s2 = (s.gateHold g (s.todFrac (s.at clk))).dropDeficits es →
    ((∀ p, p < 64 → p / 8 = g → s2.portReady es p = false) → ∃ t, exec (.egressDecision g clk none) s = .next t ∧
      t.rd (Rg.EQL_IDLE_CNT g) = (s2.rd (Rg.EQL_IDLE_CNT g) + 1) % 2 ^ 32 ∧ t.slices = s2.slices ∧ t.eg.queues = s2.eg.queues) ∧
    ∀ (p eq id : Nat) (k : EPkt) (s3 : State), p / 8 = g → s2.portReady es p = true → (∀ q, q / 8 = g → q ≠ p → s2.portReady es q = false) →
      s2.pickSvc es p = some (eq, s3) → s3.headOf eq = some (id, k) → ∃ t, exec (.egressDecision g clk none) s = .next t ∧
        t.rd64 (Rg.EQL_DEC_CNT_LO g) = (s3.rd64 (Rg.EQL_DEC_CNT_LO g) + 1) % 2 ^ 64 ∧
        t.rd64 Rg.EQS_DEQ_CNT_LO = (s3.rd64 Rg.EQS_DEQ_CNT_LO + 1) % 2 ^ 64 ∧
        t.queue eq = (s3.queue eq).filter (· != id) ∧ sget 0 t.eg.lastPort g = p + 1) ∧
  ∀ (s : State) (p clk : Nat),
    (s.lportOn p = false → ∀ starve, exec (.macTxFrame p clk starve none) s = .next s) ∧
    (s.lportOn p = true → s.eg.txing.find? (fun e => e.1 == p) = none →
      (s.lkIsUp p = false → ∀ starve, exec (.macTxFrame p clk starve none) s = .next s) ∧
      (s.lkIsUp p = true → s.txMode p = .data → ∀ k ks, ks = sortBy (fun a b => decide (a.1.em.seq ≤ b.1.em.seq)) (s.egPkts.filter fun x => x.1.em.lport == p) →
        (s.pickTx p ((s.tod (s.at clk)).2 / 2 ^ 32) ks [] = none → ∀ starve, exec (.macTxFrame p clk starve none) s = .next s) ∧
        (s.pickTx p ((s.tod (s.at clk)).2 / 2 ^ 32) ks [] = some k → k.em.ct = false → k.em.ptpCmd = 0 → k.em.launchV = false →
          ∀ starve, ∃ t, exec (.macTxFrame p clk starve none) s = .next t ∧ t.macTx = s.macTx.erase k ∧
            Emit.frame p (sealFrame k.bytes) false ∈ t.out ∧ t.rd64 (lpCnt p 8) = (s.rd64 (lpCnt p 8) + 1) % 2 ^ 64 ∧
            t.rd64 (lpCnt p 9) = (s.rd64 (lpCnt p 9) + k.bytes.length + 4) % 2 ^ 64))) ∧
    ∀ id b e, s.lportOn p = true → s.eg.txing.find? (fun e => e.1 == p) = some (p, id, b) → s.epkt id = some e →
      exec (.macTxFrame p clk false none) s = .next s ∧
      (s.pageOn (Pg.EQS / 0x1000) = true → ∃ t, exec (.macTxFrame p clk true none) s = .next t ∧ t.epkt id = none ∧
        (∃ body, Emit.frame p body true ∈ t.out) ∧ t.rd Rg.EQS_UNDERRUN_CNT = (s.rd Rg.EQS_UNDERRUN_CNT + 1) % 2 ^ 32 ∧
        bit (t.rd (Pg.EQS + 0x010)) Ib.EQS_UNDERRUN = true)

/-- R237, R244, R245 and R246 for SHAPER_RELEASE, GATE_LIST_SWITCH, GATE_OVERSIZE and LAT_SAMPLE_SET. -/
def Obligations.ShapersGatesAndSampling : Prop :=
  (∀ s : State, (∀ e ∈ s.eg.wheel, s.tk.count + 1 < e.2) → exec .shaperRelease s = .next s) ∧
  (∀ (s : State) (k d : Nat), s.eg.wheel = [(k, d)] → d ≤ s.tk.count + 1 → ∃ t, exec .shaperRelease s = .next t ∧
    (sget {} t.eg.lv k).level = s.shpLevel k ∧ (0 ≤ s.shpLevel k → t.eg.wheel = [] ∧ t.rd Rg.SHP_WHEEL_STAT = 0) ∧
    (s.shpLevel k < 0 → shas t.eg.wheel k = true ∧ s.tk.count + 1 < sget 0 t.eg.wheel k ∧ sget 0 t.eg.wheel k ≤ s.tk.count + 65537)) ∧
  (∀ (s : State) (p clk : Nat), s.pageOn (Pg.GATE / 0x1000) = true →
    ((s.gate p).next = none → exec (.gateListSwitch p clk) s = .next s) ∧
    ∀ l st, (s.gate p).next = some (l, st) →
      (s.todFrac (s.at clk) < st * 2 ^ 32 → exec (.gateListSwitch p clk) s = .next s) ∧
      (st * 2 ^ 32 ≤ s.todFrac (s.at clk) → ∃ t, exec (.gateListSwitch p clk) s = .next t ∧ (t.gate p).cur = some l ∧ (t.gate p).next = none ∧
        t.f (Rg.GATE_PORT_STAT p) Fd.GATE_PORT_STAT_PENDING = 0 ∧ t.f (Rg.GATE_PORT_STAT p) Fd.GATE_PORT_STAT_LIST_INUSE = l.page % 2 ∧
        bit (t.rd (Pg.GATE + 0x010)) Ib.GATE_SWITCH = true)) ∧
  (∀ (s : State) (eq clk id h sp w : Nat) (k : EPkt) (l : GateList), s.pageOn (Pg.GATE / 0x1000) = true → s.headOf eq = some (id, k) →
    (s.gate (s.portOf eq)).cur = some l → longestSpan (eq % 8) (s.gateCycle (s.portOf eq) l) = some sp → s.wireTime (s.portOf eq) k.len l = some w →
    (k.heldAt = none → exec (.gateOversize eq clk) s = .next s) ∧
    (k.heldAt = some h →
      (w ≤ sp * 2 ^ 32 ∨ s.todFrac (s.at clk) < h + 2 * l.cycle * 2 ^ 32 → exec (.gateOversize eq clk) s = .next s) ∧
      (sp * 2 ^ 32 < w → h + 2 * l.cycle * 2 ^ 32 ≤ s.todFrac (s.at clk) → ∃ t, exec (.gateOversize eq clk) s = .next t ∧ t.epkt id = none ∧
        id ∉ t.queue k.eq ∧ t.rd Rg.GATE_OVERSIZE_CNT = (s.rd Rg.GATE_OVERSIZE_CNT + 1) % 2 ^ 32 ∧
        bit (t.rd (Pg.GATE + 0x010)) Ib.GATE_OVERSIZE = true))) ∧
  ∀ (s : State) (clk : Nat) (complete : Bool),
    (s.fb Rg.LAT_CFG Fd.LAT_CFG_EN = false ∨ s.f Rg.LAT_CFG Fd.LAT_CFG_WATCH_LEN = 0 → exec (.latSampleSet clk complete) s = .next s) ∧
    (s.fb Rg.LAT_CFG Fd.LAT_CFG_EN = true → s.f Rg.LAT_CFG Fd.LAT_CFG_WATCH_LEN ≠ 0 → s.pageOn (Pg.TICK / 0x1000) = true →
      ∃ t, exec (.latSampleSet clk false) s = .next t ∧ t.rd (Rg.TICK_OVR_CNT 4) = (s.rd (Rg.TICK_OVR_CNT 4) + 1) % 2 ^ 32 ∧ t.eg = s.eg ∧ t.tbls = s.tbls) ∧
    (s.fb Rg.LAT_CFG Fd.LAT_CFG_EN = true → s.f Rg.LAT_CFG Fd.LAT_CFG_WATCH_LEN = 1 → 1 ≤ s.f Rg.LAT_CFG Fd.LAT_CFG_SET_SIZE →
      bit (s.tbl Pg.LAT 0 0) 31 = true → ∃ t, exec (.latSampleSet clk true) s = .next t ∧
        bits (t.tbl Pg.LAT 1 0) 0 18 = min (2 ^ 18 - 1) (((s.queue (s.tf Pg.LAT 0 0 0 18)).filterMap s.epkt).map EPkt.cells).sum ∧
        bits (t.tbl Pg.LAT 1 0) 96 32 = min (2 ^ 32 - 1) (bits (s.tbl Pg.LAT 1 0) 96 32 + 1) ∧ t.regs = s.regs)

/-- R254 to R259 and R262 for FRAME_POSITION, FRAME_HEADER_RECEIVE, FABRIC_SIGNAL_LOSS, FABRIC_SIGNAL_RETURN, LINK_IN_SERVICE, FABRIC_XOFF_APPLY,
FRAME_RECEIVE and FRAME_DELIVER. -/
def Obligations.FabricLanes : Prop :=
  (∀ (s : State) (l : Nat), s.fabOn l = false → (∀ fas h, exec (.framePosition l fas h) s = .next s) ∧ (∀ h, exec (.frameHeaderReceive l h) s = .next s) ∧
    (∀ a b c, exec (.fabricSignalLoss l a b c) s = .next s) ∧ exec (.fabricSignalReturn l) s = .next s ∧
    ∀ h ms cs, exec (.frameReceive l h ms cs) s = .next s) ∧
  (∀ (s : State) (l fas h : Nat), s.fabOn l = true → s.fb (Rg.FSER_LANE_STAT (l / 8) (l % 8)) Fd.FSER_LANE_STAT_FEC_LOCK = true →
    s.pageOn (Pg.FFRM / 0x1000) = true →
    (s.align l < 2 → fas = fasWord → hdrOk h = true →
      exec (.framePosition l fas h) s = .next (s.setF (Rg.FFRM_LANE_STAT l) Fd.FFRM_LANE_STAT_ALIGN (s.align l + 1))) ∧
    (s.align l = 2 → fas = fasWord → hdrOk h = true → ∃ t, exec (.framePosition l fas h) s = .next t ∧ t.align l = 3 ∧ bit (t.defects l) 4 = false) ∧
    (s.align l ≠ 3 → fas ≠ fasWord ∨ hdrOk h = false →
      exec (.framePosition l fas h) s = .next (s.setF (Rg.FFRM_LANE_STAT l) Fd.FFRM_LANE_STAT_ALIGN 0)) ∧
    (s.align l = 3 → fas = fasWord → hdrOk h = true → exec (.framePosition l fas h) s = .next (s.setLane l { s.lane l with badRun := 0 })) ∧
    (s.align l = 3 → fas ≠ fasWord ∨ hdrOk h = false → ∃ t, exec (.framePosition l fas h) s = .next t ∧
      t.rd (Rg.FFRM_HDR_ERR_CNT l) = (s.rd (Rg.FFRM_HDR_ERR_CNT l) + 1) % 2 ^ 32 ∧
      ((s.lane l).badRun < 3 → t.align l = 3 ∧ (t.lane l).badRun = (s.lane l).badRun + 1) ∧
      (3 ≤ (s.lane l).badRun → t.align l = 0 ∧ bit (t.defects l) 4 = true))) ∧
  (∀ (s : State) (l h : Nat), s.fabOn l = true → s.pageOn (Pg.FFRM / 0x1000) = true →
    (s.align l ≠ 3 ∨ hdrOk h = false → exec (.frameHeaderReceive l h) s = .next s) ∧
    (s.align l = 3 → hdrOk h = true → ∃ t, exec (.frameHeaderReceive l h) s = .next t ∧
      t.f (Rg.FFRM_LANE_STAT l) Fd.FFRM_LANE_STAT_RX_ROLE = bits h 119 1 ∧ t.f (Rg.FFRM_LANE_STAT l) Fd.FFRM_LANE_STAT_RX_ID = bits h 108 11 ∧
      t.f (Rg.FFRM_LANE_STAT l) Fd.FFRM_LANE_STAT_RX_LANE = bits h 101 7 ∧
      ((t.lane l).xoffDue = if bit h 119 then (s.lane l).xoffDue ++ [(s.tk.count + 2, bit h 93, bits h 29 64)] else (s.lane l).xoffDue) ∧
      ((s.lane l).fn = some (bits h 122 6) → (t.lane l).fn = some ((bits h 122 6 + 1) % 64) ∧ (t.lane l).fnBad = 0 ∧
        (1 ≤ (s.lane l).fnGood → bit (t.defects l) 3 = false)) ∧
      (∀ e, (s.lane l).fn = some e → e ≠ bits h 122 6 →
        ((s.lane l).fnJump = some (bits h 122 6) → (t.lane l).fn = some ((bits h 122 6 + 1) % 64) ∧
          t.rd Rg.FFRM_FN_JUMP_CNT = (s.rd Rg.FFRM_FN_JUMP_CNT + 1) % 2 ^ 32 ∧ bit (t.rd (Pg.FFRM + 0x010)) Ib.FFRM_FN_JUMP = true) ∧
        ((s.lane l).fnJump ≠ some (bits h 122 6) → (t.lane l).fnBad = (s.lane l).fnBad + 1 ∧ (3 ≤ (s.lane l).fnBad → bit (t.defects l) 3 = true))) ∧
      (s.fb (Rg.FFRM_EXPECT l) Fd.FFRM_EXPECT_EXP_EN = true → s.f (Rg.FFRM_EXPECT l) Fd.FFRM_EXPECT_ID ≠ bits h 108 11 → 2 ≤ (s.lane l).timBad →
        bit (t.defects l) 2 = true) ∧
      (s.fb (Rg.FFRM_EXPECT l) Fd.FFRM_EXPECT_EXP_EN = false → 2 ≤ (s.lane l).timGood → bit (t.defects l) 2 = false) ∧
      (bit h 120 = true → 1 ≤ (s.lane l).rdiOn → bit (t.defects l) 1 = true) ∧
      (bit h 120 = false → 1 ≤ (s.lane l).rdiOff → bit (t.defects l) 1 = false) ∧
      State.onlyRegs (fun x => x / 0x1000 == Pg.FFRM / 0x1000 || irqReg x) { s with fab := t.fab } t)) ∧
  (∀ (s : State) (l : Nat), s.fabOn l = true →
    (∀ signal cdr fec : Bool, ∃ t, exec (.fabricSignalLoss l signal cdr fec) s = .next t ∧
      (signal = true → bit (t.defects l) 6 = true ∧ t.fb (Rg.FSER_LANE_STAT (l / 8) (l % 8)) Fd.FSER_LANE_STAT_SIGNAL_DETECT = false) ∧
      (cdr = true → bit (t.defects l) 5 = true ∧ t.fb (Rg.FSER_LANE_STAT (l / 8) (l % 8)) Fd.FSER_LANE_STAT_CDR_LOCK = false) ∧
      (fec = true → bit (t.defects l) 5 = true ∧ bit (t.defects l) 4 = true ∧ t.align l = 0 ∧
        t.fb (Rg.FSER_LANE_STAT (l / 8) (l % 8)) Fd.FSER_LANE_STAT_FEC_LOCK = false)) ∧
    ∃ t, exec (.fabricSignalReturn l) s = .next t ∧ bit (t.defects l) 6 = false ∧ bit (t.defects l) 5 = false ∧ t.align l = s.align l ∧
      bits (t.rd (Rg.FSER_LANE_STAT (l / 8) (l % 8))) 29 3 = 7) ∧
  (∀ (s : State) (l : Nat),
    (s.laneClean l = false ∨ (s.lane l).clean < s.f Rg.FFRM_CFG Fd.FFRM_CFG_CLEAR_TICKS → exec (.linkInService l) s = .next s) ∧
    (s.laneClean l = true → s.f Rg.FFRM_CFG Fd.FFRM_CFG_CLEAR_TICKS ≤ (s.lane l).clean → s.inService l = false → s.pageOn (Pg.FFRM / 0x1000) = true →
      ∃ t, exec (.linkInService l) s = .next t ∧ t.inService l = true ∧ bit (t.rd (Rg.FFRM_CHG (l / 32))) (l % 32) = true ∧
        bit (t.rd (Pg.FFRM + 0x010)) Ib.FFRM_SERVICE = true) ∧
    ((∀ e ∈ (s.lane l).xoffDue, s.tk.count < e.1) → exec (.fabricXoffApply l) s = .next s) ∧
    (∀ d on g, ((s.lane l).xoffDue.filter fun e => decide (e.1 ≤ s.tk.count)).getLast? = some (d, on, g) → ∃ t, exec (.fabricXoffApply l) s = .next t ∧
      (t.lane l).xoffLane = on ∧ (t.lane l).xoffGroups = g ∧ t.fb (Rg.FFRM_LANE_STAT l) Fd.FFRM_LANE_STAT_XOFF = on ∧
      ∀ e ∈ (t.lane l).xoffDue, s.tk.count < e.1)) ∧
  (∀ (s : State) (l h : Nat) (ms : List Nat) (cs : List (Nat × List Byte)) (pad : Bool), s.fabOn l = true → pad = (hdrOk h && bit h 121) →
    (s.align l ≠ 3 → exec (.frameReceive l h ms cs) s = .next s) ∧
    (s.align l = 3 →
      (s.fb Rg.FFRM_CFG Fd.FFRM_CFG_TIMING = true → pad = true → (s.lane l).slip ≠ [] → ∃ t, exec (.frameReceive l h ms cs) s = .next t ∧
        t.rd (Rg.FSER_PAD_SLIP_CNT (l / 8) (l % 8)) = (s.rd (Rg.FSER_PAD_SLIP_CNT (l / 8) (l % 8)) + 1) % 2 ^ 32 ∧ t.fab = s.fab) ∧
      (s.fb Rg.FFRM_CFG Fd.FFRM_CFG_TIMING = false ∨ pad = false ∨ (s.lane l).slip = [] →
        ((s.lane l).slip.length < 4 → exec (.frameReceive l h ms cs) s =
          .next (s.setLane l { s.lane l with slip := (s.lane l).slip ++ [⟨pad, ms.take 18, cs.take 99⟩] })) ∧
        (4 ≤ (s.lane l).slip.length → ∃ t, exec (.frameReceive l h ms cs) s = .next t ∧
          (t.lane l).slip = (s.lane l).slip.drop 1 ++ [⟨pad, ms.take 18, cs.take 99⟩] ∧
          t.rd (Rg.FSER_DATA_SLIP_CNT (l / 8) (l % 8)) = (s.rd (Rg.FSER_DATA_SLIP_CNT (l / 8) (l % 8)) + 1) % 2 ^ 32 ∧
          bit (t.rd (Pg.FSER (l / 8) + 0x010)) (8 + l % 8) = true)))) ∧
  (∀ s : State, (∀ l, (s.lane l).slip = [] ∧ (s.lane l).lastPad = false) → exec .frameDeliver s = .next s) ∧
  ∀ (s : State) (l : Nat) (f : Frame) (rest : List Frame), s.fabOn l = true → (∀ k, k ≠ l → (s.lane k).slip = [] ∧ (s.lane k).lastPad = false) →
    (s.lane l).slip = f :: rest → ∃ t, exec .frameDeliver s = .next t ∧ (t.lane l).slip = rest ∧ (t.lane l).lastPad = f.pad ∧
      (f.pad = false → s.fb Rg.FCELL_CFG Fd.FCELL_CFG_EN = true →
        t.fab.rxMsgs = s.fab.rxMsgs ++ f.msgs.filter (fun m => mcrc m == m % 256 && decide (1 ≤ bits m 93 3 ∧ bits m 93 3 ≤ 4)) ∧
        t.fab.rxCells = s.fab.rxCells ++ f.cells.map fun c => (l, c.1, c.2)) ∧
      (f.pad = true → t.fab.rxMsgs = s.fab.rxMsgs ∧ t.fab.rxCells = s.fab.rxCells)

/-- R27, R252, R261, R263 and R265 to R268, R272 for CELL_RECEIVE, REORDER_GAP_TIMEOUT, REASSEMBLY and CALENDAR_FILL. -/
def Obligations.FabricCells : Prop :=
  (∀ s : State, s.fab.rxCells = [] → exec .cellReceive s = .next s) ∧
  (∀ (s : State) (l h : Nat) (p : List Byte) (rest : List (Nat × Nat × List Byte)) (c : Cell) (x : ReorderSt), s.fab.rxCells = (l, h, p) :: rest →
    c = cellOf l h p → x = s.reord c.src → s.pageOn (Pg.FCELL / 0x1000) = true → s.pageOn (Pg.FFRM / 0x1000) = true → l < 96 →
    (s.d2dDown = true → exec .cellReceive s = .next { s with fab := { s.fab with rxCells := rest } }) ∧
    (s.d2dDown = false → ∃ t, exec .cellReceive s = .next t ∧ t.fab.rxCells = rest ∧
      State.onlyRegs (fun y => y / 0x1000 == Pg.FCELL / 0x1000 || y / 0x1000 == Pg.FFRM / 0x1000 || y == Rg.FCE_REORDER_PEAK 0 || y == Rg.FCE_REORDER_PEAK 1 ||
        irqReg y) { s with fab := t.fab } t ∧
      (cellCrc h p ≠ h % 2 ^ 32 → t.fab.asm = s.fab.asm ∧ t.rd (Rg.FFRM_CELL_ERR_CNT l) = (s.rd (Rg.FFRM_CELL_ERR_CNT l) + 1) % 2 ^ 32) ∧
      (cellCrc h p = h % 2 ^ 32 →
        (c.typ = 0 → t = { s with fab := { s.fab with rxCells := rest } }) ∧
        (3 ≤ c.typ → t.fab.asm = s.fab.asm ∧ t.rd Rg.FCELL_CELL_ERR_CNT = (s.rd Rg.FCELL_CELL_ERR_CNT + 1) % 2 ^ 32) ∧
        (c.typ = 1 ∨ c.typ = 2 → c.dst ≠ s.devId → t.fab.asm = s.fab.asm ∧ bit (t.rd (Pg.FCELL + 0x010)) Ib.FCELL_MISROUTE = true ∧
          t.rd Rg.FCELL_MISROUTE_CNT = (s.rd Rg.FCELL_MISROUTE_CNT + 1) % 2 ^ 32) ∧
        (c.typ = 2 → c.dst = s.devId →
          (s.rxCircuit c.src c.circuit = none → t.fab.asm = s.fab.asm ∧ t.rd Rg.FCELL_CIRC_ERR_CNT = (s.rd Rg.FCELL_CIRC_ERR_CNT + 1) % 2 ^ 32) ∧
          (s.rxCircuit c.src c.circuit ≠ none → t.fab.asm = s.fab.asm ++ [c])) ∧
        (c.typ = 1 → c.dst = s.devId → t.rd64 Rg.FCELL_RX_CELL_CNT_LO = (s.rd64 Rg.FCELL_RX_CELL_CNT_LO + 1) % 2 ^ 64 ∧
          ((x.last = none ∨ ∃ k, x.last = some k ∧ k + 64 ≤ s.tk.count) → x.held = [] →
            t.fab.asm = s.fab.asm ++ [c] ∧ (t.reord c.src).e = (c.seq + 1) % 65536) ∧
          (∀ k, x.last = some k → s.tk.count < k + 64 → x.e < 65536 →
            (c.seq = x.e → x.held = [] → t.fab.asm = s.fab.asm ++ [c] ∧ (t.reord c.src).e = (x.e + 1) % 65536) ∧
            (32767 < (c.seq + 65536 - x.e) % 65536 → t.fab.asm = s.fab.asm ∧
              t.rd Rg.FCELL_REORDER_LATE_CNT = (s.rd Rg.FCELL_REORDER_LATE_CNT + 1) % 2 ^ 32) ∧
            (1 ≤ (c.seq + 65536 - x.e) % 65536 → (c.seq + 65536 - x.e) % 65536 ≤ 32767 → (∀ y ∈ x.held, y.1.seq ≠ c.seq) → s.heldCells < 32768 →
              t.fab.asm = s.fab.asm ∧ (t.reord c.src).held = x.held ++ [(c, s.tk.count)] ∧ (t.reord c.src).e = x.e)))))) ∧
  (∀ (s : State) (src : Nat), s.pageOn (Pg.FCELL / 0x1000) = true →
    ((∀ y ∈ (s.reord src).held, s.tk.count < y.2 + s.f Rg.FCELL_CFG Fd.FCELL_CFG_REORDER_TICKS) → exec (.reorderGapTimeout src) s = .next s) ∧
    ∀ (c : Cell) (k : Nat), (s.reord src).held = [(c, k)] → k + s.f Rg.FCELL_CFG Fd.FCELL_CFG_REORDER_TICKS ≤ s.tk.count → (s.reord src).e < 65536 →
      c.seq < 65536 → ∃ t, exec (.reorderGapTimeout src) s = .next t ∧ t.fab.asm = s.fab.asm ++ [c] ∧ (t.reord src).held = [] ∧
        (t.reord src).e = (c.seq + 1) % 65536 ∧
        t.rd Rg.FCELL_REORDER_SKIP_CNT = (s.rd Rg.FCELL_REORDER_SKIP_CNT + (c.seq + 65536 - (s.reord src).e) % 65536) % 2 ^ 32) ∧
  (∀ s : State, s.fab.asm = [] → exec (.reassembly none) s = .next s) ∧
  (∀ (s : State) (c : Cell) (rest : List Cell) (key : Nat) (x : RsmSt), s.fab.asm = c :: rest → c.typ = 1 → key = 8 * c.src + c.voq % 8 →
    x = sget {} s.fab.rsm key → s.pageOn (Pg.FCELL / 0x1000) = true →
    (s.d2dDown = true → exec (.reassembly none) s = .next { s with fab := { s.fab with asm := rest } }) ∧
    (s.d2dDown = false →
      (∀ (id r : Nat) (k : EPkt), x.sseq = some c.sseq → x.skip = false → x.cur = some (some id, r) → c.sop = false → 1 ≤ c.fill → c.fill < r →
        s.epkt id = some k → k.bytes.length + c.fill < k.len → ∃ t, exec (.reassembly none) s = .next t ∧ t.fab.asm = rest ∧
          t.epkt id = some { k with bytes := k.bytes ++ c.payload.take c.fill } ∧
          sget {} t.fab.rsm key = { x with cur := some (some id, r - c.fill), sseq := some ((c.sseq + 1) % 16) }) ∧
      (∀ (id r n : Nat), x.sseq = some n → n ≠ c.sseq → x.cur = some (some id, r) → c.sop = false → ∃ t, exec (.reassembly none) s = .next t ∧
        t.fab.asm = rest ∧ t.epkt id = none ∧ t.rd Rg.FCELL_LOSS_DROP_CNT = (s.rd Rg.FCELL_LOSS_DROP_CNT + 1) % 2 ^ 32 ∧
        bit (t.rd (Pg.FCELL + 0x010)) Ib.FCELL_LOSS_DROP = true ∧ (sget {} t.fab.rsm key).cur = none ∧ (sget {} t.fab.rsm key).skip = true) ∧
      ∀ w len : Nat, x = {} → c.sop = true → c.off = 0 → 8 ≤ c.fill → c.fill ≤ c.payload.length → w = beNat (c.payload.take 8) → bit w 26 = false →
        len = bits w 50 14 → c.fill - 8 < len → c.voq < 2 ^ 20 →
        (bit (s.tbl Pg.EQS 0 (c.voq / 8)) 31 = false → ∃ t, exec (.reassembly none) s = .next t ∧ t.eg = s.eg ∧ t.fab.tags = s.fab.tags ∧
          t.rd Rg.FCELL_PORT_ERR_CNT = (s.rd Rg.FCELL_PORT_ERR_CNT + 1) % 2 ^ 32) ∧
        ∀ (g : LiveTag) (tag eq u : Nat), bit (s.tbl Pg.EQS 0 (c.voq / 8)) 31 = true → eq = 8 * (s.tbl Pg.EQS 0 (c.voq / 8) % 2 ^ 15) + c.voq % 8 →
          tag = bits w 10 16 → u = ceilDiv (len + 8) 240 → s.fab.tags = [(tag, g)] → g.src = c.src → g.eq = eq → u ≤ g.units →
          ∃ t, exec (.reassembly none) s = .next t ∧ t.eg.fresh = s.eg.fresh ++ [s.eg.next] ∧
            t.epkt s.eg.next = some { eq := eq, len := len, hint := bits w 27 23, src := c.src, bytes := (c.payload.drop 8).take (c.fill - 8) } ∧
            (g.units = u → t.fab.tags = []) ∧ (u < g.units → t.fab.tags = [(tag, { g with units := g.units - u })]))) ∧
  (∀ s : State, s.voqs = [] → exec (.calendarFill []) s = .next s) ∧
  ∀ (s : State) (v n d : Nat) (x : VoqSt) (p : VPkt) (data : List Byte) (c : Cell), s.voqs = [(v, x)] → x.pkts = [p] → p.begun = true → p.tail = true →
    p.poison = false → p.stomp = false → n = p.hdrLen + p.bytes.length - p.sent → 1 ≤ n → n ≤ 240 → x.avail p = n → s.fab.streams = [] →
    d = s.destDev v → data = (p.desc ++ p.bytes).drop p.sent → s.circuitVoqs = [] → s.pageOn (Pg.FCELL / 0x1000) = true →
    c = { typ := 1, dst := d, src := s.devId, voq := v, seq := if d = s.devId then 0 else sget 0 s.fab.seq d, fill := n, payload := padTo 240 data } →
    (d = s.devId → s.fb Rg.FCELL_CFG Fd.FCELL_CFG_EN = false → ∃ t, exec (.calendarFill []) s = .next t ∧ t.fab.asm = s.fab.asm ++ [c] ∧
      (t.voq v).pkts = []) ∧
    ∀ l k : Nat, d ≠ s.devId → s.fb Rg.FCELL_CFG Fd.FCELL_CFG_EN = true → s.padNext = false → s.links = [l] → 1 ≤ k → k ≤ 99 →
      (∀ j, 1 ≤ j → j ≤ 99 → s.tbl Pg.FCELL 0 (s.f Rg.FCELL_CAL Fd.FCELL_CAL_PAGE * 2 ^ 16 + l * 2 ^ 8 + j) / 2 ^ 30 = if j = k then 1 else 0) →
      bit (s.reach d) (bits (s.tbl Pg.FCELL 0 (s.f Rg.FCELL_CAL Fd.FCELL_CAL_PAGE * 2 ^ 16 + l * 2 ^ 8 + k)) 16 4) = true →
      (s.xoffAt l).1 = false → bit (s.xoffAt l).2 (d / 32) = false → s.withdrawn d = false → ∃ t, exec (.calendarFill []) s = .next t ∧
        Emit.cell l k c.header c.payload ∈ t.out ∧ (t.voq v).pkts = [] ∧ sget 0 t.fab.seq d = (sget 0 s.fab.seq d + 1) % 65536 ∧
        t.rd64 Rg.FCELL_TX_CELL_CNT_LO = (s.rd64 Rg.FCELL_TX_CELL_CNT_LO + 1) % 2 ^ 64

/-- R265, R269 to R274 and R276 for MESSAGE_SELECT, REQUEST, GRANT, WITHDRAW, RESTORE, CREDIT_ROUND, REQUEST_AGE_OUT, REQUEST_REISSUE, GRANT_EXPIRY,
HELD_GRANT_EXPIRY and WITHDRAW_TIMEOUT. -/
def Obligations.CreditProtocol : Prop :=
  (∀ s : State, s.wdDue = false → s.fab.reissue = [] → s.fab.placed = [] → (∀ e ∈ s.voqs, e.2.unstarted = 0) →
    exec .messageSelect s = .next { s with fab := { s.fab with reqOrder := [] } }) ∧
  (∀ (s : State) (v d need : Nat) (x : VoqSt) (p : VPkt), s.wdDue = false → s.fab.reissue = [] → s.fab.placed = [] → s.fab.reqOrder = [] →
    s.voqs = [(v, x)] → x.pkts = [p] → p.begun = false → d = s.destDev v → need = p.charge - x.balance - (x.reqs.map fun r => r.1).sum → 1 ≤ need →
    s.destValid v = true → s.reachable d = true → s.withdrawn d = false → x.reqs.length < s.f Rg.FCRD_CFG Fd.FCRD_CFG_MAX_REQ →
    s.pageOn (Pg.FCRD / 0x1000) = true →
    ∀ (u m : Nat), u = max p.charge (min need (s.f Rg.FCRD_CFG Fd.FCRD_CFG_QUANT)) → m = mkMsg 1 d s.devId v u 0 →
    (d = s.devId → ∃ t, exec .messageSelect s = .next t ∧ t.fab.localMsgs = s.fab.localMsgs ++ [m] ∧ (t.voq v).reqs = x.reqs ++ [(u, s.tk.count)]) ∧
    (d ≠ s.devId → s.fb Rg.FCELL_CFG Fd.FCELL_CFG_EN = true → s.padNext = false →
      ∀ l, s.links = [l] → (s.planesOf l &&& s.reach d) ≠ 0 → ∃ t, exec .messageSelect s = .next t ∧ Emit.message l 0 m ∈ t.out ∧
        (t.voq v).reqs = x.reqs ++ [(u, s.tk.count)] ∧ t.rd Rg.FCRD_REQ_TX_CNT = (s.rd Rg.FCRD_REQ_TX_CNT + 1) % 2 ^ 32 ∧ t.fab.placed = []) ∧
    (d ≠ s.devId → s.padNext = true → s.pageOn (Pg.TICK / 0x1000) = true → ∃ t, exec .messageSelect s = .next t ∧ t.voqs = s.voqs ∧ t.fab.reqOrder = [v] ∧
      t.rd (Rg.TICK_OVR_CNT 0) = (s.rd (Rg.TICK_OVR_CNT 0) + 1) % 2 ^ 32)) ∧
  (∀ s : State, ((∀ m ∈ s.fab.rxMsgs, msgType m ≠ 1) → exec .request s = .next s) ∧ ((∀ m ∈ s.fab.rxMsgs, msgType m ≠ 2) → exec .grant s = .next s) ∧
    ((∀ m ∈ s.fab.rxMsgs, msgType m ≠ 3) → exec .withdraw s = .next s) ∧ ((∀ m ∈ s.fab.rxMsgs, msgType m ≠ 4) → exec .restore s = .next s)) ∧
  (∀ (s : State) (m k : Nat), s.fab.rxMsgs.find? (fun x => msgType x == k) = some m → s.pageOn (Pg.FCRD / 0x1000) = true →
    (k = 1 → ∃ t, exec .request s = .next t ∧ t.fab.rxMsgs = s.fab.rxMsgs.erase m ∧ t.voqs = s.voqs ∧
      (msgDst m ≠ s.devId → t.fab.store = s.fab.store ∧ t.rd Rg.FCRD_MSG_ERR_CNT = (s.rd Rg.FCRD_MSG_ERR_CNT + 1) % 2 ^ 32) ∧
      (msgDst m = s.devId → s.fb Rg.FCRD_STAT Fd.FCRD_STAT_WITHDRAWN = false → ∀ map, map = s.tbl Pg.EQS 0 (msgVoq m / 8) →
        (bit map 31 = false ∨ bit map 30 = false → t.fab.store = s.fab.store ∧ t.rd Rg.FCRD_REQ_REFUSED_CNT = (s.rd Rg.FCRD_REQ_REFUSED_CNT + 1) % 2 ^ 32) ∧
        (bit map 31 = true → bit map 30 = true →
          (262144 ≤ s.rd Rg.FCRD_REQ_STORED → t.fab.store = s.fab.store ∧ t.rd Rg.FCRD_REQ_DROP_CNT = (s.rd Rg.FCRD_REQ_DROP_CNT + 1) % 2 ^ 32 ∧
            bit (t.rd (Pg.FCRD + 0x010)) Ib.FCRD_REQ_DROP = true) ∧
          (s.rd Rg.FCRD_REQ_STORED < 262144 → ∀ eq, eq = 8 * (map % 2 ^ 15) + msgVoq m % 8 →
            sget [] t.fab.store eq = sget [] s.fab.store eq ++ [⟨msgSrc m, msgVoq m, msgUnits m, s.tk.count⟩] ∧
            ∀ e, e ≠ eq → sget [] t.fab.store e = sget [] s.fab.store e)))) ∧
    (k = 2 → ∃ t, exec .grant s = .next t ∧ t.fab.rxMsgs = s.fab.rxMsgs.erase m ∧
      (msgDst m ≠ s.devId → t.voqs = s.voqs ∧ t.rd Rg.FCRD_MSG_ERR_CNT = (s.rd Rg.FCRD_MSG_ERR_CNT + 1) % 2 ^ 32) ∧
      (msgDst m = s.devId → 65536 ≤ s.rd Rg.FCRD_GRANTS_HELD → t.voqs = s.voqs ∧
        t.rd Rg.FCRD_HOLD_FULL_CNT = (s.rd Rg.FCRD_HOLD_FULL_CNT + 1) % 2 ^ 32 ∧ bit (t.rd (Pg.FCRD + 0x010)) Ib.FCRD_HOLD_FULL = true) ∧
      (msgDst m = s.devId → s.rd Rg.FCRD_GRANTS_HELD < 65536 → (t.voq (msgVoq m)).reqs = (s.voq (msgVoq m)).reqs.drop 1 ∧
        (t.voq (msgVoq m)).grants = (s.voq (msgVoq m)).grants ++ [⟨msgTag m, msgUnits m, s.tk.count + s.f Rg.FCRD_CFG Fd.FCRD_CFG_USE_TICKS⟩] ∧
        (t.voq (msgVoq m)).pkts = (s.voq (msgVoq m)).pkts ∧ (∀ w, w ≠ msgVoq m → t.voq w = s.voq w) ∧
        ((s.voq (msgVoq m)).reqs = [] → t.rd Rg.FCRD_UNSOLICITED_CNT = (s.rd Rg.FCRD_UNSOLICITED_CNT + 1) % 2 ^ 32))) ∧
    (k = 3 → ∃ t, exec .withdraw s = .next t ∧ t.withdrawn (msgSrc m) = true ∧ (s.withdrawn (msgSrc m) = false →
      bit (t.rd (Rg.FCRD_WD (msgSrc m / 32))) (msgSrc m % 32) = true ∧ bit (t.rd (Pg.FCRD + 0x010)) Ib.FCRD_WITHDRAW_CHG = true)) ∧
    (k = 4 → ∃ t, exec .restore s = .next t ∧ t.withdrawn (msgSrc m) = false ∧ (s.withdrawn (msgSrc m) = true →
      bit (t.rd (Rg.FCRD_WD (msgSrc m / 32))) (msgSrc m % 32) = false ∧ bit (t.rd (Pg.FCRD + 0x010)) Ib.FCRD_WITHDRAW_CHG = true))) ∧
  (∀ s : State, s.fab.rxMsgs = [] → s.fab.localMsgs = [] → s.fab.store = [] → exec .creditRound s = .next s) ∧
  (∀ (s : State) (eq l : Nat) (r : StoredReq), s.fab.rxMsgs = [] → s.fab.localMsgs = [] → s.fab.store = [(eq, [r])] → s.fab.tags = [] →
    s.fb Rg.FCRD_STAT Fd.FCRD_STAT_WITHDRAWN = false → bit (s.rd (Pg.EQS + 0x008)) 31 = true → s.pageOn (Pg.FCRD / 0x1000) = true → 1 ≤ r.units →
    ((r.units : Int) ≤ s.eqRoom eq → (r.units : Int) ≤ s.poolRoom → r.src ≠ s.devId → s.padNext = false → s.fb Rg.FCELL_CFG Fd.FCELL_CFG_EN = true →
      s.links = [l] → (s.planesOf l &&& s.reach r.src) ≠ 0 → s.slotsUsed l < 17 → ∃ t, exec .creditRound s = .next t ∧
        t.fab.tags = [(0, ⟨r.src, eq, r.units, s.tk.count⟩)] ∧ t.fab.store = [] ∧ t.fab.placed = s.fab.placed ++ [(l, mkMsg 2 r.src s.devId r.voq r.units 0)] ∧
        t.rd Rg.FCRD_GRANT_TX_CNT = (s.rd Rg.FCRD_GRANT_TX_CNT + 1) % 2 ^ 32 ∧ t.f Rg.FCRD_STAT Fd.FCRD_STAT_GRANTS_LIVE = 1) ∧
    (s.eqRoom eq < (r.units : Int) ∨ s.poolRoom < (r.units : Int) → ∃ t, exec .creditRound s = .next t ∧ t.fab.tags = [] ∧ t.fab.store = s.fab.store ∧
      t.fab.placed = s.fab.placed ∧ t.regs = s.regs)) ∧
  (∀ s : State, s.pageOn (Pg.FCRD / 0x1000) = true → sRising s.fab.store →
    ((∀ e ∈ s.fab.store, ∀ r ∈ e.2, s.tk.count < r.tick + 16) → exec .requestAgeOut s = .next s) ∧
    ∃ t, exec .requestAgeOut s = .next t ∧ (∀ eq, sget [] t.fab.store eq = (sget [] s.fab.store eq).filter fun r => decide (s.tk.count < r.tick + 16)) ∧
      (∀ eq rs, s.fab.store = [(eq, rs)] → (∀ r ∈ rs, r.tick + 16 ≤ s.tk.count) →
        t.rd Rg.FCRD_REQ_AGED_CNT % 2 ^ 32 = (s.rd Rg.FCRD_REQ_AGED_CNT + rs.length) % 2 ^ 32)) ∧
  (∀ (s : State) (v : Nat), s.pageOn (Pg.FCRD / 0x1000) = true →
    ((∀ r ∈ (s.voq v).reqs, s.tk.count < r.2 + 16) ∨ s.withdrawn (s.destDev v) = true → exec (.requestReissue v) s = .next s) ∧
    ∀ r, (s.voq v).reqs.find? (fun q => decide (q.2 + 16 ≤ s.tk.count)) = some r → s.withdrawn (s.destDev v) = false →
      ∃ t, exec (.requestReissue v) s = .next t ∧ (t.voq v).reqs = (s.voq v).reqs.map (fun q => if q = r then (r.1, s.tk.count) else q) ∧
        t.fab.reissue = s.fab.reissue ++ [(v, r.1)] ∧ t.rd Rg.FCRD_REISSUE_CNT = (s.rd Rg.FCRD_REISSUE_CNT + 1) % 2 ^ 32) ∧
  (∀ s : State, s.pageOn (Pg.FCRD / 0x1000) = true → ∀ old : LiveTag → Bool,
    old = (fun g => decide (g.tick + s.f Rg.FCRD_CFG Fd.FCRD_CFG_GRANT_LIFE ≤ s.tk.count)) →
    ((∀ e ∈ s.fab.tags, old e.2 = false) → exec .grantExpiry s = .next s) ∧
    ((∃ e ∈ s.fab.tags, old e.2 = true) → ∃ t, exec .grantExpiry s = .next t ∧ t.fab.tags = s.fab.tags.filter (fun e => !old e.2) ∧
      t.rd Rg.FCRD_GRANT_EXPIRED_CNT = (s.rd Rg.FCRD_GRANT_EXPIRED_CNT + ((s.fab.tags.filter fun e => old e.2).map fun e => e.2.units).sum) % 2 ^ 32)) ∧
  (∀ s : State, (∀ e ∈ s.voqs, ∀ g ∈ (s.voq e.1).grants, s.tk.count < g.deadline) → exec .heldGrantExpiry s = .next s) ∧
  (∀ (s : State) (v : Nat) (x : VoqSt), s.voqs = [(v, x)] → s.pageOn (Pg.FCRD / 0x1000) = true → (∃ g ∈ x.grants, g.deadline ≤ s.tk.count) →
    ∃ t, exec .heldGrantExpiry s = .next t ∧ (t.voq v).grants = x.grants.filter (fun g => decide (s.tk.count < g.deadline)) ∧
      t.rd Rg.FCRD_UNITS_EXPIRED_CNT = (s.rd Rg.FCRD_UNITS_EXPIRED_CNT + ((x.grants.filter fun g => decide (g.deadline ≤ s.tk.count)).map fun g => g.units).sum) % 2 ^ 32) ∧
  (∀ s : State, (∀ e ∈ s.fab.wd, s.tk.count < e.2 + 256) → exec .withdrawTimeout s = .next s) ∧
  ∀ (s : State) (d k : Nat), s.fab.wd = [(d, k)] → k + 256 ≤ s.tk.count → d < 2048 → s.pageOn (Pg.FCRD / 0x1000) = true →
    ∃ t, exec .withdrawTimeout s = .next t ∧ t.withdrawn d = false ∧ bit (t.rd (Rg.FCRD_WD (d / 32))) (d % 32) = false ∧
      bit (t.rd (Pg.FCRD + 0x010)) Ib.FCRD_WITHDRAW_CHG = true

/-- R283 to R289 and R297 for REFRESH_DUE, GEYSER_DONE, GEYSER_LIGHT, HBM_REQUEST, HBM_BURST_ISSUE, SELF_REFRESH_ENTRY and SELF_REFRESH_EXIT. -/
def Obligations.HbmRequestsAndRefresh : Prop :=
  (∀ (s : State) (k r temp : Nat), s.isRank k r = false → exec (.refreshDue k r temp) s = .next s) ∧
  (∀ (s : State) (k r temp : Nat), s.isRank k r = true → s.stackUp k = true → s.rankSr k r = false → s.rankState k r ≠ rkFailed →
    s.hb.closed.contains (k * 64 + r) = false → ∃ t, exec (.refreshDue k r temp) s = .next t ∧
      t.f (Rg.HBMC_TEMP k) Fd.HBMC_TEMP_TEMP = temp % 256 ∧
      (t.fb (Rg.HBMC_STAT k) Fd.HBMC_STAT_HOT = decide (s.f (Rg.HBMC_TEMP k) Fd.HBMC_TEMP_HOT ≤ temp % 256)) ∧
      (s.f (Rg.HBMC_TEMP k) Fd.HBMC_TEMP_ALARM ≤ temp % 256 → bit (t.rd (Pg.HBMC k + 0x010)) Ib.HBMC_HOT = true) ∧
      (s.owed k r = 8 → t.hb.closed = (k * 64 + r) :: s.hb.closed ∧ t.tbls = s.tbls ∧
        t.rd (Rg.HBMC_GEYSER_FORCED_CNT k) = (s.rd (Rg.HBMC_GEYSER_FORCED_CNT k) + 1) % 2 ^ 32 ∧ bit (t.rd (Pg.HBMC k + 0x010)) Ib.HBMC_GEYSER_FORCED = true) ∧
      (s.owed k r ≠ 8 → (∃ x ∈ s.rankQ k r, x.who = 0) → t.hb = s.hb ∧ t.owed k r = (s.owed k r + 1) % 16 ∧
        t.rd (Rg.HBMC_REF_POSTPONE_CNT k) = (s.rd (Rg.HBMC_REF_POSTPONE_CNT k) + 1) % 2 ^ 32) ∧
      (s.owed k r ≠ 8 → (∀ x ∈ s.rankQ k r, x.who ≠ 0) → t.hb = s.hb ∧ t.tbls = s.tbls) ∧
      State.onlyRegs (fun x => x == Rg.HBMC_TEMP k || x == Rg.HBMC_STAT k || x == Rg.HBMC_GEYSER_FORCED_CNT k || x == Rg.HBMC_REF_POSTPONE_CNT k ||
        cntReg (Pg.HBMC k) x) { s with tbls := t.tbls, hb := t.hb } t) ∧
  (∀ (s : State) (k r : Nat), (s.hb.closed.contains (k * 64 + r) = false → exec (.geyserDone k r) s = .next s) ∧
    (s.hb.closed.contains (k * 64 + r) = true → ∃ t, exec (.geyserDone k r) s = .next t ∧ t.owed k r = 0 ∧ k * 64 + r ∉ t.hb.closed ∧
      t.regs = s.regs ∧ t.hb.q = s.hb.q)) ∧
  (∀ (s : State) (k r n : Nat),
    (s.isRank k r = false ∨ s.owed k r = 0 ∨ s.hb.closed.contains (k * 64 + r) = true ∨
      s.f (Rg.HBMC_REF_CFG k) Fd.HBMC_REF_CFG_GEYSER_LOW < (s.rankQ k r).length → exec (.geyserLight k r n) s = .next s) ∧
    (s.isRank k r = true → s.owed k r ≠ 0 → s.hb.closed.contains (k * 64 + r) = false →
      (s.rankQ k r).length ≤ s.f (Rg.HBMC_REF_CFG k) Fd.HBMC_REF_CFG_GEYSER_LOW → ∃ t, exec (.geyserLight k r n) s = .next t ∧
        t.owed k r = s.owed k r - max 1 n ∧ t.hb = s.hb ∧ t.rd (Rg.HBMC_GEYSER_CNT k) = (s.rd (Rg.HBMC_GEYSER_CNT k) + 1) % 2 ^ 32)) ∧
  (∀ (s : State) (who off bank data clk k : Nat) (write : Bool), k = (s.part.hbmPlace off).1 → s.pageOn (Pg.HBMC k / 0x1000) = true →
    (s.part.hbmBytes ≤ off ∨ 5 < who → exec (.hbmRequest who off bank write data clk) s = .next s) ∧
    (off < s.part.hbmBytes → who ≤ 5 →
      (s.stackUp k = false →
        (who = 1 → write = true → s.flowBase ≤ off → ∃ t, exec (.hbmRequest who off bank write data clk) s = .next t ∧ t.hb = s.hb ∧
          t.rd (Rg.HBMC_FLOW_LOST_CNT k) = (s.rd (Rg.HBMC_FLOW_LOST_CNT k) + 1) % 2 ^ 32) ∧
        (who ≠ 1 ∨ write = false ∨ off < s.flowBase → exec (.hbmRequest who off bank write data clk) s = .next s)) ∧
      ∀ r : Nat, s.stackUp k = true → r = (if write then (s.hbmTo off).headD 0 else (s.hbmFrom off).2.1) →
        (entryFree (s.bankQ (bankKey k r bank)) who = true → ∃ t, exec (.hbmRequest who off bank write data clk) s = .next t ∧
          t.bankQ (bankKey k r bank) = s.bankQ (bankKey k r bank) ++ [⟨who, write, off / 32 * 32, data % 2 ^ 256, s.at clk⟩] ∧
          (∀ j, j ≠ bankKey k r bank → t.bankQ j = s.bankQ j) ∧
          (s.rankSr k r = true → t.rd (Rg.HBMC_SR_LATE_CNT k) = (s.rd (Rg.HBMC_SR_LATE_CNT k) + 1) % 2 ^ 32) ∧ (s.rankSr k r = false → t.regs = s.regs)) ∧
        (entryFree (s.bankQ (bankKey k r bank)) who = false →
          (who = 0 → ∃ t, exec (.hbmRequest who off bank write data clk) s = .next t ∧ t.hb = s.hb ∧
            t.rd (Rg.HBMC_WR_HOLD_CNT k) = (s.rd (Rg.HBMC_WR_HOLD_CNT k) + 1) % 2 ^ 32) ∧
          (who ≠ 0 → exec (.hbmRequest who off bank write data clk) s = .next s)))) ∧
  (∀ (q : List HbmReq) (who : Nat), entryFree q who = true ↔ q.length < 16 ∧ (who = 0 ∨ (q.countP fun x => x.who != 0) < 12)) ∧
  (∀ (s : State) (k ch clk : Nat),
    (s.stackUp k = false ∨ (∀ i, i < 32 → s.bankQ (bankKey k (2 * ch + i / 16) i) = []) → exec (.hbmBurstIssue k ch clk) s = .next s) ∧
    ∀ (i : Nat) (x : HbmReq), k < s.part.stacks → ch < 32 → s.stackUp k = true → i < 32 → s.bankQ (bankKey k (2 * ch + i / 16) i) = [x] →
      (∀ j, j < 32 → j ≠ i → s.bankQ (bankKey k (2 * ch + j / 16) j) = []) → s.hb.closed.contains (k * 64 + (2 * ch + i / 16)) = false →
      s.rankSr k (2 * ch + i / 16) = false → x.off % 32 = 0 → ∃ t, exec (.hbmBurstIssue k ch clk) s = .next t ∧
        t.bankQ (bankKey k (2 * ch + i / 16) i) = [] ∧ sget 31 t.hb.last (k * 32 + ch) = i ∧
        (x.write = true → t.hbmWord x.off = x.data % 2 ^ 128 ∧ t.hbmWord (x.off + 16) = x.data / 2 ^ 128 % 2 ^ 128 ∧
          ∀ o, o / 32 ≠ x.off / 32 → t.hbmWord o = s.hbmWord o) ∧
        (x.write = false → t.rsp = some (s.hbmWord x.off + 2 ^ 128 * s.hbmWord (x.off + 16)) ∧ t.hbm = s.hbm)) ∧
  ∀ (s : State) (k r : Nat), s.isRank k r = true →
    (s.stackUp k = true → s.rankState k r = rkActive → s.rankSr k r = false → s.rankQ k r = [] → s.fb (Rg.HBMC_CFG k) Fd.HBMC_CFG_SR_EN = true →
      s.fb (Rg.HBMC_CFG k) Fd.HBMC_CFG_ACTIVE_SR = true → ∃ t, exec (.selfRefreshEntry k r) s = .next t ∧ t.rankSr k r = true ∧ t.rankState k r = rkActive ∧
        t.rd (Rg.HBMC_SR_ENTRY_CNT k) = (s.rd (Rg.HBMC_SR_ENTRY_CNT k) + 1) % 2 ^ 32) ∧
    (s.rankState k r ≠ rkActive ∨ s.rankSr k r = true ∨ s.rankQ k r ≠ [] ∨ s.fb (Rg.HBMC_CFG k) Fd.HBMC_CFG_SR_EN = false ∨
      s.fb (Rg.HBMC_CFG k) Fd.HBMC_CFG_ACTIVE_SR = false → exec (.selfRefreshEntry k r) s = .next s) ∧
    (s.rankSr k r = true → s.rankQ k r ≠ [] → ∃ t, exec (.selfRefreshExit k r) s = .next t ∧ t.rankSr k r = false ∧ t.hb = s.hb) ∧
    (s.rankSr k r = false ∨ s.rankQ k r = [] → exec (.selfRefreshExit k r) s = .next s)

/-- R279, R290 to R297 for HBM_CONTROLLER_START, HBM_TRAINING_DONE, HBM_PERIODIC_RETRAIN, ROW_REPAIR, MIG_GO, MIG_ABORT, AUTO_MIGRATION,
MIGRATION_CHUNK and MIG_DONE. -/
def Obligations.HbmStartAndMigration : Prop :=
  (∀ (s : State) (k : Nat),
    (bit (s.rd (Pg.HBMC k + 0x008)) 31 = false ∨ s.isRank k 0 = false ∨ s.fb (Rg.HBMC_STAT k) Fd.HBMC_STAT_TRAINING = true →
      exec (.hbmControllerStart k) s = .next s) ∧
    (bit (s.rd (Pg.HBMC k + 0x008)) 31 = true → s.isRank k 0 = true → s.fb (Rg.HBMC_STAT k) Fd.HBMC_STAT_TRAINING = false →
      ∃ t, exec (.hbmControllerStart k) s = .next t ∧ t.fb (Rg.HBMC_STAT k) Fd.HBMC_STAT_TRAINING = true ∧
        t.fb (Rg.HBMC_STAT k) Fd.HBMC_STAT_INIT_FAIL = false ∧ t.stackTrained k = false ∧
        (s.stackTrained k = true → k ∈ t.hb.keep ∧ t.hbm = s.hbm ∧ ∀ r, r < 64 → t.rankState k r ≠ rkFailed → t.rankSr k r = true) ∧
        (s.stackTrained k = false → k ∉ t.hb.keep ∧ (∀ e ∈ t.hbm, (t.part.hbmPlace (e.1 * 16)).1 ≠ k) ∧
          ∀ o, (s.part.hbmPlace (o / 16 * 16)).1 ≠ k → t.hbmWord o = s.hbmWord o))) ∧
  (∀ (s : State) (k : Nat) (failed avail : List Nat), s.isRank k 0 = true →
    (s.fb (Rg.HBMC_STAT k) Fd.HBMC_STAT_TRAINING = false → exec (.hbmTrainingDone k failed avail) s = .next s) ∧
    (s.fb (Rg.HBMC_STAT k) Fd.HBMC_STAT_TRAINING = true → s.hb.keep.contains k = false →
      (failed = [] → ∃ t, exec (.hbmTrainingDone k failed avail) s = .next t ∧ t.stackTrained k = true ∧
        t.fb (Rg.HBMC_STAT k) Fd.HBMC_STAT_TRAINING = false ∧ ∀ r, r < 64 →
          (r ∈ s.spareRanks k → t.rankState k r = rkSpare ∧ t.rankSr k r = true) ∧
          (r ∉ s.spareRanks k → t.rankState k r = rkActive ∧ t.rankSr k r = false ∧
            t.rank k r 16 6 = (List.range r).countP fun q => !(s.spareRanks k).contains q) ∧ t.rank k r 32 8 = lget 0 avail r % 256) ∧
      (((List.range 64).countP fun r => (s.spareRanks k).contains r && !failed.contains (r / 2)) <
          ((List.range 64).countP fun r => !(s.spareRanks k).contains r && failed.contains (r / 2)) →
        ∃ t, exec (.hbmTrainingDone k failed avail) s = .next t ∧ t.fb (Rg.HBMC_STAT k) Fd.HBMC_STAT_INIT_FAIL = true ∧
          t.fb (Rg.HBMC_STAT k) Fd.HBMC_STAT_TRAINING = false ∧ t.rd Rg.BUF_PAGES_TOTAL = 0 ∧ t.rd Rg.BUF_PAGES_FREE = 0 ∧
          bit (t.rd (Pg.HBMC k + 0x010)) Ib.HBMC_INIT_FAIL = true))) ∧
  (∀ (s : State) (k ch n : Nat) (ok : Bool), s.isRank k 0 = true → ch < 32 → n = sget 0 s.hb.fails (k * 32 + ch) → s.pageOn (Pg.HBM_RAS / 0x1000) = true →
    (s.stackUp k = false ∨ s.f (Rg.HBMC_CFG k) Fd.HBMC_CFG_TRAIN_PERIOD = 0 → exec (.hbmPeriodicRetrain k ch ok) s = .next s) ∧
    (s.stackUp k = true → s.f (Rg.HBMC_CFG k) Fd.HBMC_CFG_TRAIN_PERIOD ≠ 0 →
      (∃ t, exec (.hbmPeriodicRetrain k ch true) s = .next t ∧ sget 0 t.hb.fails (k * 32 + ch) = 0 ∧ t.tbls = s.tbls) ∧
      ∃ t, exec (.hbmPeriodicRetrain k ch false) s = .next t ∧ sget 0 t.hb.fails (k * 32 + ch) = n + 1 ∧
        t.rd (Rg.HBMC_TRAIN_FAIL_CNT k) = (s.rd (Rg.HBMC_TRAIN_FAIL_CNT k) + 1) % 2 ^ 32 ∧ bit (t.rd (Pg.HBMC k + 0x010)) Ib.HBMC_TRAIN_FAIL = true ∧
        (n ≠ 2 → t.tbls = s.tbls) ∧
        (n = 2 → s.rankState k (2 * ch) = rkActive → s.rankState k (2 * ch + 1) = rkActive → t.rank k (2 * ch) 23 1 = 1 ∧ t.rank k (2 * ch + 1) 23 1 = 1 ∧
          bit (t.rd Rg.HBM_RETIRE_REQ) k = true ∧ bit (t.rd (Pg.HBM_RAS + 0x010)) Ib.HBM_RAS_RETIRE_REQ = true))) ∧
  (∀ (s : State) (k r row avail : Nat) (words : List Nat) (bankHas : Bool), s.isRank k r = true → s.pageOn (Pg.HBM_RAS / 0x1000) = true →
    ((∀ h ∈ s.hb.hard, h.1 = k * 64 + r → h.2 ∉ words) → exec (.rowRepair k r row words bankHas avail) s = .next s) ∧
    ((∃ h ∈ s.hb.hard, h.1 = k * 64 + r ∧ h.2 ∈ words) → ∃ t, exec (.rowRepair k r row words bankHas avail) s = .next t ∧
      (∀ h ∈ t.hb.hard, h.1 = k * 64 + r → h.2 ∉ words) ∧
      (s.rankState k r = rkMigrating → t.tbls = s.tbls ∧ t.regs = s.regs ∧ t.marks = s.marks) ∧
      (s.rankState k r = rkActive → bankHas = false ∨ 256 ≤ s.hb.ppr.countP (fun e => e.1 / 64 == k) →
        t.rd Rg.HBM_PPR_FAIL_CNT = (s.rd Rg.HBM_PPR_FAIL_CNT + 1) % 2 ^ 32 ∧ t.marks = s.marks ∧
        t.rank k r 23 1 = if s.fb Rg.HBM_RAS_POLICY Fd.HBM_RAS_POLICY_RETIRE_ON_PPR_OUT then 1 else s.rank k r 23 1) ∧
      (s.rankState k r = rkActive → bankHas = true → s.hb.ppr.countP (fun e => e.1 / 64 == k) < 256 →
        t.rd (Rg.HBMC_PPR_CNT k) = (s.rd (Rg.HBMC_PPR_CNT k) + 1) % 2 ^ 32 ∧ t.hb.ppr = s.hb.ppr ++ [(k * 64 + r, row)] ∧
        t.rank k r 0 8 = min 255 (s.rank k r 0 8 + 1) ∧ t.rank k r 8 8 = min 255 (s.rank k r 8 8 + 1) ∧ t.rank k r 32 8 = avail % 256 ∧
        bit (t.rd (Pg.HBMC k + 0x010)) Ib.HBMC_PPR = true ∧
        (∀ w ∈ words, (s.mark (Pg.HBMC k) r w).kind < 2 → t.mark (Pg.HBMC k) r w = {}) ∧
        (s.f Rg.HBM_RAS_POLICY Fd.HBM_RAS_POLICY_RETIRE_THR ≤ min 255 (s.rank k r 0 8 + 1) → t.rank k r 23 1 = 1)))) ∧
  (∀ (s : State) (a : Acc) (v : Word) (k src : Nat) (auto : Bool), s.mayWrite a Rg.HBM_MIG_CMD = true → k = bits v.toNat 28 2 → src = bits v.toNat 8 6 →
    auto = bit v.toNat 6 → bit v.toNat 31 = true → bit v.toNat 30 = false → ∃ t, exec (.migGo a v) s = .next t ∧
      (∀ code, (code = 1 ∧ s.migBusy k = true) ∨ (s.migBusy k = false ∧
          ((code = 2 ∧ auto = true ∧ s.spareOf k = none) ∨ ((auto = true → s.spareOf k ≠ none) ∧
            ((code = 3 ∧ s.rankState k src ≠ rkActive) ∨ (s.rankState k src = rkActive ∧
              ((code = 4 ∧ auto = false ∧ s.rankState k (v.toNat % 64) ≠ rkSpare) ∨
               (code = 5 ∧ (auto = false → s.rankState k (v.toNat % 64) = rkSpare) ∧ s.stackUp k = false))))))) →
        t.f (Rg.HBM_MIG_STAT k) Fd.HBM_MIG_STAT_RESULT = 3 ∧ t.f (Rg.HBM_MIG_STAT k) Fd.HBM_MIG_STAT_REFUSE = code ∧ t.tbls = s.tbls ∧
        bit (t.rd (Pg.HBM_RAS + 0x010)) Ib.HBM_RAS_REFUSED = true ∧ (code = 2 → bit (t.rd (Pg.HBM_RAS + 0x010)) Ib.HBM_RAS_NO_SPARE = true)) ∧
      ∀ tgt, (auto = false ∧ tgt = v.toNat % 64 ∧ s.rankState k tgt = rkSpare) ∨ (auto = true ∧ s.spareOf k = some tgt) → s.migBusy k = false →
        s.rankState k src = rkActive → s.stackUp k = true → t.rankState k src = rkMigrating ∧ t.rank k src 23 1 = 0 ∧ t.rankState k tgt = rkTarget ∧
          t.rankSr k tgt = false ∧ t.migBusy k = true ∧ t.migPtr k = 0 ∧ t.migSource k = src ∧ t.migTarget k = tgt) ∧
  (∀ (s : State) (a : Acc) (v : Word) (k : Nat), s.mayWrite a Rg.HBM_MIG_CMD = true → k = bits v.toNat 28 2 → bit v.toNat 31 = false → bit v.toNat 30 = true →
    (s.migBusy k = false → exec (.migAbort a v) s = .next s) ∧
    (s.migBusy k = true → s.migSource k ≠ s.migTarget k → ∃ t, exec (.migAbort a v) s = .next t ∧ t.migBusy k = false ∧
      t.f (Rg.HBM_MIG_STAT k) Fd.HBM_MIG_STAT_RESULT = 2 ∧ t.rankState k (s.migSource k) = rkActive ∧ t.rankState k (s.migTarget k) = rkSpare ∧
      bit (t.rd (Pg.HBM_RAS + 0x010)) Ib.HBM_RAS_MIG_ABORT = true)) ∧
  (∀ (s : State) (k : Nat), s.pageOn (Pg.HBM_RAS / 0x1000) = true →
    (s.autonomous = false ∨ s.fb Rg.HBM_RAS_POLICY Fd.HBM_RAS_POLICY_AUTO_RETIRE = false ∨ s.migBusy k = true ∨
      (∀ r, r < 64 → s.rank k r 23 1 = 1 → s.rankState k r ≠ rkActive) → exec (.autoMigration k) s = .next s) ∧
    ∀ r, s.isRank k 0 = true → s.autonomous = true → s.fb Rg.HBM_RAS_POLICY Fd.HBM_RAS_POLICY_AUTO_RETIRE = true → s.stackUp k = true →
      s.migBusy k = false → (List.range 64).find? (fun r => s.rank k r 23 1 == 1 && s.rankState k r == rkActive) = some r →
      (s.spareOf k = none → ∃ t, exec (.autoMigration k) s = .next t ∧ t.tbls = s.tbls ∧ bit (t.rd (Pg.HBM_RAS + 0x010)) Ib.HBM_RAS_NO_SPARE = true) ∧
      ∀ tgt, s.spareOf k = some tgt → ∃ t, exec (.autoMigration k) s = .next t ∧ t.rankState k r = rkMigrating ∧ t.rankState k tgt = rkTarget ∧
        t.migBusy k = true ∧ t.migSource k = r ∧ t.migTarget k = tgt) ∧
  (∀ (s : State) (k src tgt n : Nat), src = s.migSource k → tgt = s.migTarget k → n = s.migPtr k → s.pageOn (Pg.HBM_RAS / 0x1000) = true →
    (s.migBusy k = false ∨ s.stackUp k = false ∨ 786432 ≤ n → exec (.migrationChunk k) s = .next s) ∧
    (s.isRank k 0 = true → s.migBusy k = true → s.stackUp k = true → n < 786432 → s.hb.closed.contains (k * 64 + src) = false →
      s.hb.closed.contains (k * 64 + tgt) = false → ∃ t, exec (.migrationChunk k) s = .next t ∧ t.migPtr k = n + 1 ∧ t.tbls = s.tbls ∧ t.hbm = s.hbm ∧
        ((∀ j, j < 32 → s.badWord (Pg.HBMC k) src (n * 32 + j) = false) → ∀ j, j < 32 → t.mark (Pg.HBMC k) tgt (n * 32 + j) = {}) ∧
        ((∃ j, j < 32 ∧ s.badWord (Pg.HBMC k) src (n * 32 + j) = true) → (∀ j, j < 32 → (t.mark (Pg.HBMC k) tgt (n * 32 + j)).kind = 3) ∧
          t.rd Rg.HBM_MIG_POISON_CNT = (s.rd Rg.HBM_MIG_POISON_CNT + 1) % 2 ^ 32))) ∧
  ∀ (s : State) (k src tgt : Nat), src = s.migSource k → tgt = s.migTarget k → s.pageOn (Pg.HBM_RAS / 0x1000) = true →
    (s.migBusy k = false ∨ s.migPtr k < 786432 → exec (.migDone k) s = .next s) ∧
    (s.isRank k 0 = true → s.migBusy k = true → 786432 ≤ s.migPtr k → src ≠ tgt → ∃ t, exec (.migDone k) s = .next t ∧
      t.rankState k tgt = rkActive ∧ t.rank k tgt 16 6 = s.rank k src 16 6 ∧ t.rankState k src = rkRetired ∧ t.rankSr k src = true ∧ t.rank k src 16 6 = 0 ∧
      t.migBusy k = false ∧ t.f (Rg.HBM_MIG_STAT k) Fd.HBM_MIG_STAT_RESULT = 1 ∧ t.rd Rg.HBM_RETIRE_CNT = (s.rd Rg.HBM_RETIRE_CNT + 1) % 2 ^ 32 ∧
      bit (t.rd (Pg.HBM_RAS + 0x010)) Ib.HBM_RAS_MIG_DONE = true)

/-- R303 and R305 to R309 for SINTER_VISIT, STATE_LOST_CLEANUP, PG_FLIP and SCRUB_RW_POP. -/
def Obligations.ScrubbingAndRepair : Prop :=
  (∀ (s : State) (cls page mem addr kind sym pat syn pos : Nat) (ep nw bb : Bool),
    15 ≤ cls ∨ cls = 7 ∨ s.fb Rg.SCRUB_CTRL Fd.SCRUB_CTRL_EN = false ∨ s.fb (Rg.SCRUB_CLASS_CFG cls) Fd.SCRUB_CLASS_CFG_EN = false →
    exec (.sinterVisit cls page mem addr kind sym pat syn pos ep nw bb) s = .next s) ∧
  (∀ (s : State) (cls page mem addr kind sym pat syn pos die : Nat) (ep nw bb : Bool), cls < 15 → cls ≠ 7 →
    s.fb Rg.SCRUB_CTRL Fd.SCRUB_CTRL_EN = true → s.fb (Rg.SCRUB_CLASS_CFG cls) Fd.SCRUB_CLASS_CFG_EN = true → page < 0x2000 → die = page / 0x1000 →
    s.pageOn (Pg.SCRUB / 0x1000) = true → s.pageOn (Pg.RAS die / 0x1000) = true → s.pageOn page = true → ∃ t,
      exec (.sinterVisit cls page mem addr kind sym pat syn pos ep nw bb) s = .next t ∧
      t.f (Rg.SCRUB_CLASS_STAT cls) Fd.SCRUB_CLASS_STAT_POS = (if ep then 0 else pos % 2 ^ 16) ∧
      t.f (Rg.SCRUB_CLASS_STAT cls) Fd.SCRUB_CLASS_STAT_PASSES = (if ep then (s.passes cls + 1) % 2 ^ 15 else s.passes cls) ∧
      (isHbmc (0x1000 * page) = true → s.rankSkipped ((0x1000 * page - Pg.HBMC 0) / 0x1000) mem = true → t.marks = s.marks ∧
        (addr % 32 = 0 → t.rd Rg.SCRUB_SKIP_CNT = (s.rd Rg.SCRUB_SKIP_CNT + 1) % 2 ^ 32)) ∧
      (isHbmc (0x1000 * page) = false →
        ((s.mark (0x1000 * page) mem addr).kind = 3 ∨ (kind = 0 ∧ (s.mark (0x1000 * page) mem addr).kind = 0) →
          State.onlyRegs (fun x => x == Rg.SCRUB_CLASS_STAT cls) s t) ∧
        (kind = 1 → s.mark (0x1000 * page) mem addr = {} → bit (s.rd (0x1000 * page + 0x03C)) 31 = false →
          t.rd (Rg.SCRUB_CE_CNT cls) = (s.rd (Rg.SCRUB_CE_CNT cls) + 1) % 2 ^ 32 ∧ t.rd (Rg.RAS_CE_CNT die cls) = (s.rd (Rg.RAS_CE_CNT die cls) + 1) % 2 ^ 32 ∧
          t.mark (0x1000 * page) mem addr = {} ∧ (nw = true → t.rd (Rg.SCRUB_WB_SKIP_CNT cls) = (s.rd (Rg.SCRUB_WB_SKIP_CNT cls) + 1) % 2 ^ 32) ∧
          ((∃ h ∈ s.history cls, h.1 = wkey (0x1000 * page) mem addr) → t.rd (Rg.SCRUB_HARD_CNT cls) = (s.rd (Rg.SCRUB_HARD_CNT cls) + 1) % 2 ^ 32) ∧
          ((∀ h ∈ s.history cls, h.1 ≠ wkey (0x1000 * page) mem addr) → t.rd (Rg.SCRUB_HARD_CNT cls) = s.rd (Rg.SCRUB_HARD_CNT cls)) ∧
          (bit (s.rd (Rg.RAS_STORM die)) cls = false → sget 0 s.ra.ceSec (16 * die + cls) + 1 < s.f (Rg.RAS_CE_THR die) Fd.RAS_CE_THR_CE_THR →
            bit (t.rd (0x1000 * page + 0x010)) 30 = true)) ∧
        (kind = 2 → cls ≠ 10 → s.mark (0x1000 * page) mem addr = {} →
          t.rd (Rg.SCRUB_UE_CNT cls) = (s.rd (Rg.SCRUB_UE_CNT cls) + 1) % 2 ^ 32 ∧ t.rd (Rg.RAS_UE_CNT die cls) = (s.rd (Rg.RAS_UE_CNT die cls) + 1) % 2 ^ 32 ∧
          t.mark (0x1000 * page) mem addr = { kind := 3, syn := 0xFFFF } ∧ bit (t.rd (0x1000 * page + 0x010)) 31 = true ∧
          (cls = 0 → s.ra.rw.length < 256 → t.ra.rw = s.ra.rw ++ [(0, mem, addr)])) ∧
        (kind = 2 → cls = 10 → bb = true → 0x1000 * page = Pg.VOQ → mem = 1 → s.mark (0x1000 * page) mem addr = {} → t.tbl Pg.VOQ 1 addr = 0 ∧
          t.rd (Rg.RAS_STATE_LOST_CNT 1) = (s.rd (Rg.RAS_STATE_LOST_CNT 1) + 1) % 2 ^ 32 ∧ bit (t.rd (Pg.RAS 1 + 0x010)) Ib.RAS_STATE_LOST = true))) ∧
  (∀ (s : State) (page mem addr : Nat),
    (0x1000 * page ≠ Pg.VOQ → 0x1000 * page ≠ Pg.EQS → exec (.stateLostCleanup page mem addr) s = .next s) ∧
    (0x1000 * page = Pg.VOQ → mem = 0 → (∀ e ∈ s.bf.lost, e.1 ≠ addr) → exec (.stateLostCleanup page mem addr) s = .next s) ∧
    (∀ x : VoqSt, 0x1000 * page = Pg.VOQ → mem = 0 → s.bf.lost = [(addr, x)] → ∃ t, exec (.stateLostCleanup page mem addr) s = .next t ∧
      t.bf.lost = [] ∧ t.voqs = s.voqs ∧ t.rd Rg.BUF_PAGES_FREE = (s.rd Rg.BUF_PAGES_FREE + x.pages.length) % 2 ^ 32)) ∧
  (∀ (s : State) (a : Acc) (page : Nat) (v : Word), s.mayWrite a (0x1000 * page + 0x03C) = true →
    (findReg (0x1000 * page + 0x03C) = none → exec (.pgFlip a page v) s = .next s) ∧
    (∀ d, findPage page = some d → d.memory = true → bit v.toNat 31 = true → bits v.toNat 23 6 ≤ 35 → bits v.toNat 13 6 ≤ 35 →
      ∃ t, exec (.pgFlip a page v) s = .next t ∧ bits (t.rd (0x1000 * page + 0x03C)) 9 23 = bits v.toNat 9 23 ∧
        State.onlyRegs (fun x => x == 0x1000 * page + 0x03C) s t)) ∧
  ∀ (s : State) (a : Acc), s.mayRead a Rg.SCRUB_RW_W0 = true →
    (s.fb Rg.DMA_RW_CFG Fd.DMA_RW_CFG_EN = true ∨ s.ra.rw = [] → ∃ t, exec (.scrubRwPop a) s = .next t ∧ t.rsp = some 0 ∧ t.ra = s.ra) ∧
    ∀ c m w rest, s.fb Rg.DMA_RW_CFG Fd.DMA_RW_CFG_EN = false → s.ra.rw = (c, m, w) :: rest → ∃ t x, exec (.scrubRwPop a) s = .next t ∧
      t.rsp = some x ∧ bit x 31 = true ∧ bits x 26 4 = c % 16 ∧ bits x 18 8 = m % 256 ∧ t.rd Rg.SCRUB_RW_W0 = x ∧ t.rd Rg.SCRUB_RW_W1 = w % 2 ^ 32 ∧
      t.ra.rw = rest

/-- R86, R302, R316, R318, R320 to R323 and R325 for CNT_FREEZE, FREEZE_END, FLOW_CACHE_WRITEBACK, PLUME_DUE, PLUME_DUMP_DONE and PM_SECOND_ROLL. -/
def Obligations.CountersAndTelemetry : Prop :=
  (∀ (s : State) (a : Acc) (v : Word), s.mayWrite a Rg.CNT_FREEZE = true →
    (s.d2dDown = true → ∃ t, exec (.cntFreeze a v) s = .next t ∧ bit (t.rd (Pg.CNT_F + 0x010)) Ib.CNT_F_REFUSED = true ∧
      State.onlyRegs (intReg Pg.CNT_F) s t) ∧
    (s.d2dDown = false → ∃ t, exec (.cntFreeze a v) s = .next t ∧ t.f Rg.CNT_FREEZE Fd.CNT_FREEZE_FREEZE = bits v.toNat 31 1 ∧
      t.f Rg.CNT_FREEZE Fd.CNT_FREEZE_FREEZE_TICKS = v.toNat % 2 ^ 24 ∧ State.onlyRegs (fun x => x == Rg.CNT_FREEZE) s t)) ∧
  (∀ s : State, s.te.frz = none ∨ s.f Rg.CNT_FREEZE Fd.CNT_FREEZE_FREEZE_TICKS = 0 → exec .freezeEnd s = .next s) ∧
  (∀ (s : State) (f : Frozen) (n : Nat), s.te.frz = some f → n = s.f Rg.CNT_FREEZE Fd.CNT_FREEZE_FREEZE_TICKS → n ≠ 0 →
    (s.tk.count < f.tick + n → exec .freezeEnd s = .next s) ∧
    (f.tick + n ≤ s.tk.count → s.pageOn (Pg.CNT_F / 0x1000) = true → ∃ t, exec .freezeEnd s = .next t ∧ t.te.frz = none ∧
      t.fb Rg.CNT_FREEZE Fd.CNT_FREEZE_FREEZE = false ∧ t.fb Rg.CNT_STAT Fd.CNT_STAT_FROZEN = false ∧
      bit (t.rd (Pg.CNT_F + 0x010)) Ib.CNT_F_FREEZE_END = true)) ∧
  (∀ s : State, s.bf.flowWb = [] → (∀ e ∈ s.bf.flow, s.tk.count < e.tick + 64) → exec .flowCacheWriteback s = .next s) ∧
  (∀ (s : State) (x : FlowInc) (rest : List FlowInc), (s.bf.flowWb = x :: rest ∨ (s.bf.flowWb = [] ∧ rest = [] ∧
      s.bf.flow.find? (fun e => decide (e.tick + 64 ≤ s.tk.count)) = some x)) → s.pageOn (Pg.HBMC (s.part.hbmPlace (s.pairOff x.pair)).1 / 0x1000) = true →
    ∃ t, exec .flowCacheWriteback s = .next t ∧ t.bf.flowWb = rest ∧
      (s.bf.flowWb = [] → ∀ e ∈ t.bf.flow, e.pair ≠ x.pair) ∧
      (s.hbmUp (s.pairOff x.pair) = false → t.hbm = s.hbm ∧ t.rd (Rg.HBMC_FLOW_LOST_CNT (s.part.hbmPlace (s.pairOff x.pair)).1) =
        (s.rd (Rg.HBMC_FLOW_LOST_CNT (s.part.hbmPlace (s.pairOff x.pair)).1) + 1) % 2 ^ 32) ∧
      (s.hbmUp (s.pairOff x.pair) = true → (s.hbmRead 13 (s.pairOff x.pair)).2.2 = true →
        t.hbmWord (s.pairOff x.pair) % 2 ^ 64 = (s.hbmWord (s.pairOff x.pair) % 2 ^ 64 + x.pkts) % 2 ^ 64 ∧
        t.hbmWord (s.pairOff x.pair) / 2 ^ 64 = (s.hbmWord (s.pairOff x.pair) / 2 ^ 64 + x.bytes) % 2 ^ 64 ∧
        ∀ o, o / 16 ≠ s.pairOff x.pair / 16 → t.hbmWord o = s.hbmWord o) ∧
      (s.hbmUp (s.pairOff x.pair) = true → (s.hbmRead 13 (s.pairOff x.pair)).2.2 = false → s.pageOn (Pg.RAS 1 / 0x1000) = true →
        t.hbmWord (s.pairOff x.pair) = x.pkts % 2 ^ 64 + x.bytes % 2 ^ 64 * 2 ^ 64 ∧
        t.rd (Rg.RAS_FLOW_RESET_CNT 1) = (s.rd (Rg.RAS_FLOW_RESET_CNT 1) + 1) % 2 ^ 32)) ∧
  (∀ (s : State) (n : Nat), n < 16 → s.pageOn (Pg.CNT_T / 0x1000) = true →
    (s.fb (Rg.PLUME_SET_CFG n) Fd.PLUME_SET_CFG_EN = false ∨ s.fb Rg.PLUME_CFG Fd.PLUME_CFG_EN = false ∨
      s.tickCount % s.f (Rg.PLUME_SET_CFG n) Fd.PLUME_SET_CFG_PERIOD ≠ s.f (Rg.PLUME_SET_PHASE n) Fd.PLUME_SET_PHASE_PHASE →
      exec (.plumeDue n) s = .next s) ∧
    (s.fb (Rg.PLUME_SET_CFG n) Fd.PLUME_SET_CFG_EN = true → s.fb Rg.PLUME_CFG Fd.PLUME_CFG_EN = true →
      s.tickCount % s.f (Rg.PLUME_SET_CFG n) Fd.PLUME_SET_CFG_PERIOD = s.f (Rg.PLUME_SET_PHASE n) Fd.PLUME_SET_PHASE_PHASE →
      ((∀ p ∈ s.te.plume, p.2.run = none) → ∃ t d, exec (.plumeDue n) s = .next t ∧ (t.plume n).run = some d ∧ (t.plume n).seq = (s.plume n).seq ∧
        d.tick = s.tickCount ∧ d.gen = s.rd Rg.PLUME_LIST_GEN ∧
        d.items = (s.plumeList (s.f (Rg.PLUME_SET_LIST n) Fd.PLUME_SET_LIST_FIRST) (s.f (Rg.PLUME_SET_LIST n) Fd.PLUME_SET_LIST_LAST)).map s.plumeItem ∧
        t.fb (Rg.PLUME_SET_STAT n) Fd.PLUME_SET_STAT_BUSY = true) ∧
      (∀ d, (s.plume n).run = some d → ∃ t, exec (.plumeDue n) s = .next t ∧ (t.plume n).run = some d ∧ (t.plume n).seq = ((s.plume n).seq + 1) % 2 ^ 32 ∧
        t.rd (Rg.PLUME_SKIP_CNT n) = (s.rd (Rg.PLUME_SKIP_CNT n) + 1) % 2 ^ 32 ∧ bit (t.rd (Pg.CNT_T + 0x010)) Ib.CNT_T_PLUME_SKIP = true)) ∧
    (∀ room : Bool, (s.plume n).run = none → exec (.plumeDumpDone n room) s = .next s) ∧
    ∀ (d : Dump) (l : List Nat) (r : Nat), (s.plume n).run = some d → d.items = [.words l] → s.fb (Rg.PLUME_SET_CFG n) Fd.PLUME_SET_CFG_DEST = false →
      r = s.f (Rg.PLUME_SET_CFG n) Fd.PLUME_SET_CFG_RING →
      (∃ t, exec (.plumeDumpDone n false) s = .next t ∧ (t.plume n).run = none ∧ t.rings = s.rings ∧
        t.rd (Rg.PLUME_DROP_CNT n) = (s.rd (Rg.PLUME_DROP_CNT n) + 1) % 2 ^ 32 ∧ bit (t.rd (Pg.CNT_T + 0x010)) Ib.CNT_T_PLUME_DROP = true) ∧
      (s.ringTakes r 0 = true → ∃ t, exec (.plumeDumpDone n true) s = .next t ∧ (t.plume n).run = none ∧ (t.plume n).skipped = 0 ∧
        (t.plume n).seq = ((s.plume n).seq + 1) % 2 ^ 32 ∧ t.f (Rg.PLUME_SET_STAT n) Fd.PLUME_SET_STAT_SEQ = (s.plume n).seq % 65536 ∧
        (t.ring r).items = (s.ring r).items ++ [{ src := 2, code := 0, bytes := plumeRecord n (s.plume n).seq (s.plume n).skipped d (l.flatMap (leBytes 4)) }])) ∧
  (∀ (s : State) (late : Bool) (sec : Nat), sec = (s.tod s.tk.start).1 →
    (s.d2dDown = false → sec = s.ptp.pmSec → exec (.pmSecondRoll late) s = .next s) ∧
    (s.d2dDown = false → sec ≠ s.ptp.pmSec → ∃ t, exec (.pmSecondRoll late) s = .next t ∧ t.ptp.pmSec = sec ∧ t.te.secT = sec ∧ t.te.rollT = s.tk.count ∧
      (late = true → s.pageOn (Pg.TICK / 0x1000) = true → t.rd (Rg.TICK_OVR_CNT 8) = (s.rd (Rg.TICK_OVR_CNT 8) + 1) % 2 ^ 32)) ∧
    (s.d2dDown = true → sec = s.ptp.pmSec →
      (s.tk.count < s.te.rollT + 976563 → exec (.pmSecondRoll late) s = .next s) ∧
      (s.te.rollT + 976563 ≤ s.tk.count → ∃ t, exec (.pmSecondRoll late) s = .next t ∧ t.ptp.pmSec = s.ptp.pmSec ∧
        t.te.secT = (s.te.secT + 1) % 2 ^ 48 ∧ t.te.rollT = s.tk.count))) ∧
  ∀ (b : PmBin) (q : PmSec), (b.add q true).uas = b.uas + 1 ∧ (b.add q true).es = b.es ∧ (b.add q true).ses = b.ses ∧ (b.add q true).xs = b.xs ∧
    (b.add q true).ys = b.ys ∧ (b.add q true).acc = (b.add q false).acc ∧ (b.add q false).uas = b.uas ∧ (b.add q false).es = b.es + b2n q.es ∧
    (b.add q false).ses = b.ses + b2n q.ses ∧ (b.add q false).xs = b.xs + b2n q.xs ∧ (b.add q false).ys = b.ys + b2n q.ys

/-- R332, R333 and R335 for SC_HB_KICK, HEARTBEAT_RX, HEARTBEAT_MISS_CHECK, RESTARTS_CLEAR, BOOT_TIMEOUT and AUTO_RESTART. -/
def Obligations.ControllerHeartbeats : Prop :=
  ∀ (s : State) (k : Nat), k < 2 → s.pageOn (Pg.SC k / 0x1000) = true →
    (∀ (a : Acc) (v : Word), s.mayWrite a (Rg.SC_HB_KICK k) = true →
      (bit v.toNat 0 = false ∨ reqNo a.req ≠ 2 + k ∨ s.scRuns k = false → exec (.scHbKick a k v) s = .next s) ∧
      (bit v.toNat 0 = true → reqNo a.req = 2 + k → s.scRuns k = true →
        (s.scRole k ≠ scBoot ∨ (s.sc k).first = true → exec (.scHbKick a k v) s = .next (s.setSc k { s.sc k with kicked := true })) ∧
        (s.scRole k = scBoot → (s.sc k).first = false → s.f (Rg.SC_STAT k) Fd.SC_STAT_PEER_ROLE ≠ scActive →
          exec (.scHbKick a k v) s = .next (s.setSc k { s.sc k with kicked := true, first := true })) ∧
        (s.scRole k = scBoot → (s.sc k).first = false → s.f (Rg.SC_STAT k) Fd.SC_STAT_PEER_ROLE = scActive →
          ∃ t, exec (.scHbKick a k v) s = .next t ∧ t.scRole k = scStandby ∧ t.scRole (1 - k) = s.scRole (1 - k)))) ∧
    (∀ link : Bool,
      ((s.sc (1 - k)).sent = none ∨ (if link then !s.d2dDown else s.d2.mgmtUp) = false → exec (.heartbeatRx k link) s = .next s) ∧
      ∀ w, (s.sc (1 - k)).sent = some w → (if link then !s.d2dDown else s.d2.mgmtUp) = true → ∃ t, exec (.heartbeatRx k link) s = .next t ∧
        t.rd (Rg.SC_HB_RX k) = w % 2 ^ 32 ∧ t.f (Rg.SC_STAT k) Fd.SC_STAT_MISS_RUN = 0 ∧ (if link then (t.sc k).gotLink else (t.sc k).gotMgmt) = true ∧
        t.f (Rg.SC_STAT k) Fd.SC_STAT_PEER_ROLE = s.scRole (1 - k) ∧ t.scRole k = s.scRole k ∧
        State.onlyRegs (fun x => x == Rg.SC_HB_RX k || x == Rg.SC_STAT k) { s with sv := t.sv } t) ∧
    (s.scRuns k = false ∨ (s.sc k).gotLink = true ∨ (s.sc k).gotMgmt = true ∨
      (s.f (Rg.SC_STAT k) Fd.SC_STAT_PEER_ROLE ≠ scActive ∧ s.f (Rg.SC_STAT k) Fd.SC_STAT_PEER_ROLE ≠ scStandby) →
      exec (.heartbeatMissCheck k) s = .next s) ∧
    (∀ peer run, s.scRuns k = true → (s.sc k).gotLink = false → (s.sc k).gotMgmt = false → peer = s.f (Rg.SC_STAT k) Fd.SC_STAT_PEER_ROLE →
      peer = scActive ∨ peer = scStandby → run = s.f (Rg.SC_STAT k) Fd.SC_STAT_MISS_RUN →
      ∃ t, exec (.heartbeatMissCheck k) s = .next t ∧ t.f (Rg.SC_STAT k) Fd.SC_STAT_MISS_RUN = min 8 (run + 1) ∧
        t.rd (Rg.SC_MISS_CNT k) = (s.rd (Rg.SC_MISS_CNT k) + 1) % 2 ^ 32 ∧
        (run = 7 → s.scRole k = scStandby → peer = scActive →
          (k = 1 ∨ s.pathUp = true → t.sv.due = some ⟨k, 1, s.at 1024, true⟩ ∧ t.scRole k = scStandby) ∧
          (k = 0 → s.pathUp = false → t.scRole 0 = scIsolated)) ∧
        (run ≠ 7 → State.onlyRegs (fun x => x == Rg.SC_STAT k || x == Rg.SC_MISS_CNT k || cntReg (Pg.SC k) x) s t)) ∧
    (∀ up, (up = true ↔ (s.scRole k = scStandby ∨ s.scRole k = scActive) ∧ (s.sc k).since + 65536 ≤ s.tk.count) →
      ∃ t, exec (.restartsClear k) s = .next t ∧ (up = false → t = s) ∧
        (up = true → t.f (Rg.SC_STAT k) Fd.SC_STAT_RESTARTS = 0 ∧ State.onlyRegs (fun x => x == Rg.SC_STAT k) s t)) ∧
    (∀ clk, (s.scRole k ≠ scBoot ∨ (s.sc k).first = true ∨ s.at clk < (s.sc k).loaded + 200000000 → exec (.bootTimeout k clk) s = .next s) ∧
      (s.scRole k = scBoot → (s.sc k).first = false → (s.sc k).loaded + 200000000 ≤ s.at clk → ∃ t, exec (.bootTimeout k clk) s = .next t ∧
        t.scRole k = scFailed ∧ t.rd (Rg.SC_FAULT_CNT k) = (s.rd (Rg.SC_FAULT_CNT k) + 1) % 2 ^ 32)) ∧
    ∀ n, n = s.f (Rg.SC_STAT k) Fd.SC_STAT_RESTARTS →
      (s.scRole k ≠ scFailed ∨ s.fb (Rg.SC_CTRL k) Fd.SC_CTRL_AUTO_RESTART = false ∨ s.f (Rg.SC_CFG k) Fd.SC_CFG_RESTART_MAX ≤ n ∨
        s.tk.count < (s.sc k).failed + s.f (Rg.SC_CFG k) Fd.SC_CFG_RESTART_DELAY → exec (.autoRestart k) s = .next s) ∧
      (s.scRole k = scFailed → s.fb (Rg.SC_CTRL k) Fd.SC_CTRL_AUTO_RESTART = true → n < s.f (Rg.SC_CFG k) Fd.SC_CFG_RESTART_MAX →
        (s.sc k).failed + s.f (Rg.SC_CFG k) Fd.SC_CFG_RESTART_DELAY ≤ s.tk.count → ∃ t, exec (.autoRestart k) s = .next t ∧
          t.scRole k = scOff ∧ t.f (Rg.SC_STAT k) Fd.SC_STAT_RESTARTS = n + 1 ∧ t.rd (Rg.SC_RESTART_CNT k) = (s.rd (Rg.SC_RESTART_CNT k) + 1) % 2 ^ 32)

/-- R330, R333 to R336 and R406 for CONTROLLER_FAULT, TAKEOVER, HOLD, RESTART, SWITCHOVER and SPLIT_END. -/
def Obligations.ControllerRolesAndTakeover : Prop :=
  (∀ (s : State) (k clk : Nat), k < 2 → s.pageOn (Pg.SC k / 0x1000) = true →
    (s.scRole k ∉ [scBoot, scStandby, scActive] → exec (.controllerFault k clk) s = .next s) ∧
    (s.scRole k ∈ [scBoot, scStandby, scActive] → ∃ t, exec (.controllerFault k clk) s = .next t ∧ t.scRole k = scFailed ∧
      t.scRole (1 - k) = s.scRole (1 - k) ∧ t.rd (Rg.SC_FAULT_CNT k) = (s.rd (Rg.SC_FAULT_CNT k) + 1) % 2 ^ 32 ∧
      bit (t.rd (Pg.SC k + 0x010)) Ib.SC_FAULT = true ∧
      (s.scRole k = scActive → s.scRole (1 - k) = scStandby → t.sv.due = some ⟨1 - k, 2, s.at clk, s.pathUp⟩ ∧
        t.f (Rg.SC_STAT 1) Fd.SC_STAT_MODE = s.f (Rg.SC_STAT 1) Fd.SC_STAT_MODE))) ∧
  (∀ s : State, s.sv.due = none → exec .takeover s = .next s) ∧
  (∀ (s : State) (d : Due) (k : Nat), s.sv.due = some d → d.standby = k → k < 2 → d.cause < 4 →
    s.pageOn (Pg.SC 0 / 0x1000) = true → s.pageOn (Pg.SC 1 / 0x1000) = true →
    (d.told = false ∨ s.tk.start < d.since + (if d.cause = 2 then 64 else 0) ∨ s.scRole k ≠ scStandby → exec .takeover s = .next s) ∧
    (d.told = true → d.since + (if d.cause = 2 then 64 else 0) ≤ s.tk.start → s.scRole k = scStandby → ∃ t, exec .takeover s = .next t ∧
      (s.pathUp = true → t.scRole k = scActive ∧ t.sv.due = none ∧ t.f (Rg.SC_STAT 1) Fd.SC_STAT_MODE = 1 ∧
        t.scRole (1 - k) = (if s.scRuns (1 - k) then scFailed else s.scRole (1 - k)) ∧
        (s.scOwns (1 - k) = true → t.f Rg.CMT_STAT Fd.CMT_STAT_OWNER = 2 + k) ∧
        ∀ j, j < 2 → t.rd (Rg.SC_TAKEOVER_CNT j) = (s.rd (Rg.SC_TAKEOVER_CNT j) + 1) % 2 ^ 32 ∧
          t.f (Rg.SC_STAT j) Fd.SC_STAT_LAST_CAUSE = d.cause ∧ bit (t.rd (Pg.SC j + 0x010)) Ib.SC_TAKEOVER = true) ∧
      (s.pathUp = false → k = 0 → t.scRole 0 = scIsolated) ∧
      (s.pathUp = false → k = 1 → t.scRole 1 = scActive ∧ t.scRole 0 = s.scRole 0 ∧ t.f (Rg.SC_STAT 1) Fd.SC_STAT_PEER_ROLE = scFailed ∧
        t.sv.hold = some d.cause ∧ t.sv.missed = s.sv.missed ++ [d.cause] ∧ t.rd (Rg.SC_TAKEOVER_CNT 0) = s.rd (Rg.SC_TAKEOVER_CNT 0)))) ∧
  (∀ (s : State) (a : Acc) (k : Nat) (v : Word), k < 2 → s.mayWrite a (Rg.SC_CTRL k) = true →
    (bits v.toNat 29 3 = 1 → ∃ t, exec (.hold a k v) s = .next t ∧ t.scRole k = scHeld ∧ t.fb (Rg.SC_CTRL k) Fd.SC_CTRL_HOLD = true ∧
      t.fb (Rg.SC_CTRL k) Fd.SC_CTRL_AUTO_RESTART = bit v.toNat 0) ∧
    (bits v.toNat 29 3 = 0 → ∃ t, exec (.hold a k v) s = .next t ∧ t.fb (Rg.SC_CTRL k) Fd.SC_CTRL_HOLD = false ∧
      t.fb (Rg.SC_CTRL k) Fd.SC_CTRL_AUTO_RESTART = bit v.toNat 0 ∧ t.scRole k = (if s.scRole k = scHeld then scOff else s.scRole k)) ∧
    (bits v.toNat 29 3 = 4 → reqNo a.req ≠ 2 + k →
      (s.scRole k ∈ [scFailed, scIsolated, scHeld] → ∃ t, exec (.restart a k v) s = .next t ∧ t.scRole k = scOff) ∧
      (s.scRole k ∈ [scOff, scBoot, scStandby, scActive] → ∃ t, exec (.restart a k v) s = .next t ∧ t.scRole k = s.scRole k ∧
        bit (t.rd (Pg.SC k + 0x010)) Ib.SC_REFUSED = true)) ∧
    (bits v.toNat 29 3 = 5 → ∃ t, exec (.restart a k v) s = .next t ∧ t.scRole k = scHeld ∧ bit (t.rd (Pg.SC k + 0x010)) Ib.SC_REFUSED = true) ∧
    (bits v.toNat 29 3 = 2 → s.scRole k ≠ scHeld →
      (s.scRole k = scActive → s.scRole (1 - k) = scStandby → s.f (Rg.SC_STAT k) Fd.SC_STAT_MISS_RUN = 0 → reqNo a.req ≠ 3 - k →
        ∃ t, exec (.switchover a k v) s = .next t ∧ t.sv.swap = some k ∧ t.scRole k = scActive ∧ t.scRole (1 - k) = scStandby) ∧
      (s.scRole k ≠ scActive ∨ s.scRole (1 - k) ≠ scStandby ∨ s.f (Rg.SC_STAT k) Fd.SC_STAT_MISS_RUN ≠ 0 →
        ∃ t, exec (.switchover a k v) s = .next t ∧ t.sv.swap = s.sv.swap ∧ t.scRole k = s.scRole k ∧
          bit (t.rd (Pg.SC k + 0x010)) Ib.SC_REFUSED = true))) ∧
  ∀ s : State, (s.pathUp = false ∨ s.split = false → exec .splitEnd s = .next s) ∧
    (s.pathUp = true → s.split = true → ∃ t, exec .splitEnd s = .next t ∧ t.scRole 0 = scFailed ∧ t.scRole 1 = scActive ∧ t.sv.hold = none)

/-- R343 to R348 and R354 for UPD_LOCK_REQ, UPD_LOCK_RELEASE, LOCK_TIMEOUT, VERIFY, VERIFY_DONE, CLEAR, UPD_FLOOR_WRITE, REQUIRE_CUST and LOG_POST. -/
def Obligations.StagingSlotAndVerification : Prop :=
  (∀ (s : State) (a : Acc), s.mayWrite a Rg.UPD_LOCK = true →
    (portOf a.req = none → exec (.updLockReq a) s = .next s) ∧
    (∀ p res, portOf a.req = some p → res = (if p = 0 then Fd.UPD_LOCK_STAT_RES0 else Fd.UPD_LOCK_STAT_RES1) → ∃ t, exec (.updLockReq a) s = .next t ∧
      (s.fb Rg.UPD_LOCK_STAT Fd.UPD_LOCK_STAT_HELD = false → t.holdsLock a.req = true ∧ t.f Rg.UPD_LOCK_STAT res = 0 ∧ t.up.lockAt = s.at a.clk ∧
        bit (t.rd (Pg.UPD + 0x010)) Ib.UPD_LOCK_CHANGE = true ∧
        State.onlyRegs (fun x => x == Rg.UPD_LOCK_STAT || intReg Pg.UPD x) { s with up := t.up } t) ∧
      (s.fb Rg.UPD_LOCK_STAT Fd.UPD_LOCK_STAT_HELD = true →
        t.f Rg.UPD_LOCK_STAT res = (if s.f Rg.UPD_LOCK_STAT Fd.UPD_LOCK_STAT_OWNER = p then 0 else 1) ∧ t.holdsLock a.req = s.holdsLock a.req ∧
        State.onlyRegs (fun x => x == Rg.UPD_LOCK_STAT) s t)) ∧
    (s.holdsLock a.req = false → exec (.updLockRelease a) s = .next s) ∧
    (s.holdsLock a.req = true → ∃ t, exec (.updLockRelease a) s = .next t ∧ t.fb Rg.UPD_LOCK_STAT Fd.UPD_LOCK_STAT_HELD = false ∧
      bit (t.rd (Pg.UPD + 0x010)) Ib.UPD_LOCK_CHANGE = true ∧ State.onlyRegs (fun x => x == Rg.UPD_LOCK_STAT || intReg Pg.UPD x) s t)) ∧
  (∀ (s : State) (clk : Nat), s.pageOn (Pg.UPD / 0x1000) = true → ∀ late,
    (late = true ↔ s.up.lockAt + s.f Rg.UPD_CFG Fd.UPD_CFG_LOCK_TIMEOUT * 2000000000 ≤ s.at clk) →
    (late = false ∨ s.fb Rg.UPD_LOCK_STAT Fd.UPD_LOCK_STAT_HELD = false → exec (.lockTimeout clk) s = .next s) ∧
    (late = true → s.fb Rg.UPD_LOCK_STAT Fd.UPD_LOCK_STAT_HELD = true → ∃ t, exec (.lockTimeout clk) s = .next t ∧
      t.fb Rg.UPD_LOCK_STAT Fd.UPD_LOCK_STAT_HELD = false ∧ bit (t.rd (Pg.UPD + 0x010)) Ib.UPD_LOCK_CHANGE = true)) ∧
  (∀ (s : State) (a : Acc), s.mayWrite a Rg.UPD_CMD = true →
    (s.holdsLock a.req = false → ∃ t u, exec (.verify a) s = .next t ∧ exec (.clear a) s = .next u ∧
      t.f Rg.UPD_STAT Fd.UPD_STAT_RESULT = upNoLock ∧ u.f Rg.UPD_STAT Fd.UPD_STAT_RESULT = upNoLock ∧ t.updSlot = s.updSlot ∧ u.updSlot = s.updSlot ∧
      t.rd Rg.UPD_REFUSE_CNT = (s.rd Rg.UPD_REFUSE_CNT + 1) % 2 ^ 32 ∧ bit (t.rd (Pg.UPD + 0x010)) Ib.UPD_REFUSED = true) ∧
    (s.holdsLock a.req = true → ∃ u, exec (.clear a) s = .next u ∧ u.updSlot = slEmpty ∧ u.f Rg.UPD_STAT Fd.UPD_STAT_RESULT = upOk ∧
      State.onlyRegs (fun x => x == Rg.UPD_STAT) { s with up := u.up } u) ∧
    (s.holdsLock a.req = true → s.fb Rg.UPD_STAT Fd.UPD_STAT_BUSY = false → s.updSlot ≠ slVerifying → ∃ t, exec (.verify a) s = .next t ∧
      t.f Rg.UPD_STAT Fd.UPD_STAT_REQUESTER = reqNo a.req ∧
      (s.updSlot ≠ slEmpty → t.updSlot = slVerifying ∧ State.onlyRegs (fun x => x == Rg.UPD_STAT) { s with up := t.up } t) ∧
      (s.updSlot = slEmpty → t.updSlot = slEmpty ∧ t.f Rg.UPD_STAT Fd.UPD_STAT_RESULT = upBadHeader ∧
        bit (t.rd (Pg.UPD + 0x010)) Ib.UPD_VERIFY_DONE = true))) ∧
  (∀ (s : State) (keyOk vendorOk custOk tagOk : Bool) (digest : Nat),
    (s.updSlot ≠ slVerifying → exec (.verifyDone keyOk vendorOk custOk tagOk digest) s = .next s) ∧
    ∀ h, s.updSlot = slVerifying → h = s.hdrAt 0 → s.pageOn (Pg.UPD / 0x1000) = true →
      ∃ t, exec (.verifyDone keyOk vendorOk custOk tagOk digest) s = .next t ∧ bit (t.rd (Pg.UPD + 0x010)) Ib.UPD_VERIFY_DONE = true ∧
        t.updSlot = (if t.f Rg.UPD_STAT Fd.UPD_STAT_RESULT = upOk then slVerified else slRefused) ∧
        (∀ code, (hdrGood h false = false ∧ code = upBadHeader) ∨ (hdrGood h false = true ∧ 262144 < 512 + hbyte h 16 4 ∧ code = upTooLarge) ∨
          (hdrGood h false = true ∧ 512 + hbyte h 16 4 ≤ 262144 ∧ (hdrHere s.part h = false ∨ keyOk = false) ∧ code = upWrongPart) ∨
          (hdrGood h false = true ∧ 512 + hbyte h 16 4 ≤ 262144 ∧ hdrHere s.part h = true ∧ keyOk = true ∧ vendorOk = false ∧
            s.markedIn Pg.EMRAM 0 = [] ∧ code = upBadSig) →
          t.f Rg.UPD_STAT Fd.UPD_STAT_RESULT = code ∧ t.rd Rg.UPD_REFUSE_CNT = (s.rd Rg.UPD_REFUSE_CNT + 1) % 2 ^ 32 ∧ t.up = s.up) ∧
        (hdrGood h false = true → 512 + hbyte h 16 4 ≤ 262144 → hdrHere s.part h = true → keyOk = true → vendorOk = true → s.markedIn Pg.EMRAM 0 = [] →
          bit (hbyte h 6 2) 0 = false →
          (s.fb Rg.EMRAM_SEC Fd.EMRAM_SEC_REQUIRE_CUST = true → t.f Rg.UPD_STAT Fd.UPD_STAT_RESULT = upCustRequired) ∧
          (s.fb Rg.EMRAM_SEC Fd.EMRAM_SEC_REQUIRE_CUST = false → s.digestOf (hKind h) (hSeq h) = none → s.up.digests.length < 4096 →
            t.up.digests = s.up.digests ++ [⟨hKind h, hSeq h, digest, false⟩] ∧
            t.f Rg.UPD_STAT Fd.UPD_STAT_RESULT =
              (if hSeq h ≤ s.arb (hKind h) then upNotNewer else if tagOk then upOk else upBadTag)))) ∧
  (∀ (s : State) (a : Acc) (k : Nat) (v : Word), 1 ≤ k → k ≤ 5 → s.mayWrite a (Rg.UPD_FLOOR_HI k) = true → ∀ x,
    x = (s.takeLo a.req (Rg.UPD_FLOOR_LO k) v.toNat).2 → ∃ t, exec (.updFloorWrite a k v) s = .next t ∧
      sget 0 t.loHeld (loKey a.req (Rg.UPD_FLOOR_LO k)) = 0 ∧
      (x < s.rd64 (Rg.UPD_FLOOR_LO k) → t.rd64 (Rg.UPD_FLOOR_LO k) = s.rd64 (Rg.UPD_FLOOR_LO k) ∧ bit (t.rd (Pg.UPD + 0x010)) Ib.UPD_REFUSED = true) ∧
      (s.rd64 (Rg.UPD_FLOOR_LO k) ≤ x → t.rd64 (Rg.UPD_FLOOR_LO k) = x % 2 ^ 64)) ∧
  (∀ (s : State) (a : Acc) (v : Word), s.mayWrite a Rg.EMRAM_SEC = true → ∃ t, exec (.requireCust a v) s = .next t ∧
    t.fb Rg.EMRAM_SEC Fd.EMRAM_SEC_REQUIRE_CUST = (s.fb Rg.EMRAM_SEC Fd.EMRAM_SEC_REQUIRE_CUST || bit v.toNat 31) ∧
    t.fb Rg.EMRAM_SEC Fd.EMRAM_SEC_CUST_KEY_SET = s.fb Rg.EMRAM_SEC Fd.EMRAM_SEC_CUST_KEY_SET) ∧
  ∀ (s : State) (a : Acc) (v : Word) (code : Nat), s.mayWrite a Rg.EMRAM_LOG_POST2 = true → code = s.rd Rg.EMRAM_LOG_POST0 % 65536 →
    ((portOf a.req).isSome = true ∨ code < 0x8000 → exec (.logPost a v) s = .next s) ∧
    (portOf a.req = none → 0x8000 ≤ code → s.mayLog (Pg.SC (reqNo a.req - 2)) → ∃ t, exec (.logPost a v) s = .next t ∧
      s.logsNext t code ((s.rd Rg.EMRAM_LOG_POST1 + v.toNat % 65536 * 2 ^ 32) % 2 ^ 48))

/-- R349 to R351 for START and START_DONE. -/
def Obligations.PartStarts : Prop :=
  (∀ (s : State) (a : Acc) (v : Word) (p : Nat), s.mayWrite a Rg.UPD_CMD = true → p = v.toNat % 64 →
    (∀ code, (s.part.hasPart p = false ∧ code = upPartAbsent) ∨
      (s.part.hasPart p = true ∧ s.fb Rg.UPD_STAT Fd.UPD_STAT_BUSY = true ∧ code = upBusy) ∨
      (s.part.hasPart p = true ∧ s.fb Rg.UPD_STAT Fd.UPD_STAT_BUSY = false ∧ bit v.toNat 24 = false ∧ s.holdsLock a.req = false ∧ code = upNoLock) ∨
      (s.part.hasPart p = true ∧ s.fb Rg.UPD_STAT Fd.UPD_STAT_BUSY = false ∧ (bit v.toNat 24 = true ∨ s.holdsLock a.req = true) ∧
        s.partReady p = false ∧ code = upPartState) ∨
      (s.part.hasPart p = true ∧ s.fb Rg.UPD_STAT Fd.UPD_STAT_BUSY = false ∧ bit v.toNat 24 = false ∧ s.holdsLock a.req = true ∧
        s.partReady p = true ∧ s.updSlot ≠ slVerified ∧ code = upNotVerified) ∨
      (s.part.hasPart p = true ∧ s.fb Rg.UPD_STAT Fd.UPD_STAT_BUSY = false ∧ bit v.toNat 24 = false ∧ s.holdsLock a.req = true ∧
        s.partReady p = true ∧ s.updSlot = slVerified ∧ hKind (s.hdrAt 0) ≠ partKind p ∧ code = upKindMismatch) →
      ∃ t, exec (.start a v) s = .next t ∧ t.f Rg.UPD_STAT Fd.UPD_STAT_RESULT = code ∧
        t.fb Rg.UPD_STAT Fd.UPD_STAT_BUSY = s.fb Rg.UPD_STAT Fd.UPD_STAT_BUSY ∧ t.updSlot = s.updSlot ∧ t.up.start = s.up.start ∧
        t.rd Rg.UPD_REFUSE_CNT = (s.rd Rg.UPD_REFUSE_CNT + 1) % 2 ^ 32 ∧ bit (t.rd (Pg.UPD + 0x010)) Ib.UPD_REFUSED = true) ∧
    (s.part.hasPart p = true → s.fb Rg.UPD_STAT Fd.UPD_STAT_BUSY = false → s.partReady p = true →
      (bit v.toNat 24 = true → (s.residentSlot (partKind p) = none ∨ ∃ j, s.residentSlot (partKind p) = some j ∧ s.compat p (s.hdrAt (16 + j)) = 0) →
        ∃ t, exec (.start a v) s = .next t ∧ t.fb Rg.UPD_STAT Fd.UPD_STAT_BUSY = true ∧ t.f Rg.UPD_STAT Fd.UPD_STAT_PART = p ∧
          t.up.start = some (p, false) ∧ t.updSlot = s.updSlot) ∧
      (bit v.toNat 24 = false → s.holdsLock a.req = true → s.updSlot = slVerified → ∀ h, h = s.hdrAt 0 → hKind h = partKind p →
        s.markedIn Pg.EMRAM 0 = [] → s.fb Rg.EMRAM_SEC Fd.EMRAM_SEC_ARB_LOST = false → s.arb (partKind p) < hSeq h →
        (∀ d, s.digestOf (partKind p) (hSeq h) = some d → d.2.coll = false) → s.compat p h = 0 →
        ∃ t, exec (.start a v) s = .next t ∧ t.fb Rg.UPD_STAT Fd.UPD_STAT_BUSY = true ∧ t.updSlot = slEmpty ∧ t.up.start = some (p, true) ∧
          t.arb (partKind p) = hSeq h ∧ s.olderSlot (partKind p) ∈ t.up.valid ∧
          t.rd Rg.UPD_ACTIVATE_CNT = (s.rd Rg.UPD_ACTIVATE_CNT + 1) % 2 ^ 32))) ∧
  ∀ (s : State) (p clk : Nat) (slotOk : Bool) (g : GoldenImage),
    (s.part.hasPart p = false ∨ s.pageOn (partPage p) = false → exec (.startDone p clk slotOk g) s = .next s) ∧
    ∀ b, s.part.hasPart p = true → s.pageOn (partPage p) = true → s.pageOn (Pg.UPD / 0x1000) = true → s.up.start = some (p, b) →
      ∃ t, exec (.startDone p clk slotOk g) s = .next t ∧ t.fb Rg.UPD_STAT Fd.UPD_STAT_BUSY = false ∧ t.up.start = none ∧
        bit (t.rd (Pg.UPD + 0x010)) Ib.UPD_START_DONE = true ∧
        (∀ j h, slotOk = true → s.residentSlot (partKind p) = some j → h = s.hdrAt (16 + j) → s.arb (partKind p) = hSeq h → s.compat p h = 0 →
          t.f Rg.UPD_STAT Fd.UPD_STAT_RESULT = upOk ∧ t.partEnt p = mkPart 1 h ∧ (p < 2 → s.scRole p = scOff → t.scRole p = scBoot) ∧
          (2 ≤ p → p < 20 → t.rd (Pg.APC (p - 2) + 0x004) = hbyte h 29 1 * 256 + hbyte h 28 1)) ∧
        (slotOk = false ∨ s.residentSlot (partKind p) = none →
          (bit (s.rd (Rg.PWR_STRAP 1)) 3 = true ∨ g.hdr = 0 → t.f Rg.UPD_STAT Fd.UPD_STAT_RESULT = upNoImage ∧
            t.rd Rg.UPD_REFUSE_CNT = (s.rd Rg.UPD_REFUSE_CNT + 1) % 2 ^ 32 ∧ (p < 2 → s.scRole p = scOff → t.scRole p = scFailed)) ∧
          (bit (s.rd (Rg.PWR_STRAP 1)) 3 = false → hdrGood g.hdr true = true → hKind g.hdr = partKind p → 512 + hbyte g.hdr 16 4 ≤ 262144 →
            hdrHere s.part g.hdr = true → g.keyOk = true → g.vendorOk = true → g.tagOk = true → bit (hbyte g.hdr 6 2) 0 = false →
            s.fb Rg.EMRAM_SEC Fd.EMRAM_SEC_REQUIRE_CUST = false → s.markedIn Pg.EMRAM 0 = [] → s.fb Rg.EMRAM_SEC Fd.EMRAM_SEC_ARB_LOST = false →
            (hSeq g.hdr < s.rd64 (Rg.UPD_FLOOR_LO (partKind p)) → t.f Rg.UPD_STAT Fd.UPD_STAT_RESULT = upBelowFloor) ∧
            (s.rd64 (Rg.UPD_FLOOR_LO (partKind p)) ≤ hSeq g.hdr → s.compat p g.hdr = 0 → t.f Rg.UPD_STAT Fd.UPD_STAT_RESULT = upOk ∧
              t.partEnt p = mkPart 2 g.hdr ∧ t.arb (partKind p) = s.arb (partKind p) ∧
              t.rd Rg.UPD_GOLDEN_CNT = (s.rd Rg.UPD_GOLDEN_CNT + 1) % 2 ^ 32)))

/-- R355 to R357, R362, R363, R382 and R385 for PCIE_LINK_DOWN, HOT_RESET, FUNCTION_LEVEL_RESET, PCIE_LINK_UP, PERST, IRQ_REARM and MSIX_MASK_CHANGE. -/
def Obligations.HostPortsAndInterrupts : Prop :=
  (∀ (s : State) (p : Nat), p < 2 → s.pageOn (Pg.PCIE p / 0x1000) = true →
    (∀ c, c = .pcieLinkDown p ∨ c = .hotReset p ∨ c = .perst p false →
      ∃ t, exec c s = .next t ∧ (c = .perst p false → (t.pcie p).perst = true) ∧
        (s.fb (Rg.PCIE_STAT p) Fd.PCIE_STAT_LINK_UP = false → t = (if c = .perst p false then s.setPcie p { s.pcie p with perst := true } else s)) ∧
        (s.fb (Rg.PCIE_STAT p) Fd.PCIE_STAT_LINK_UP = true →
          t.fb (Rg.PCIE_STAT p) Fd.PCIE_STAT_LINK_UP = false ∧ t.f (Rg.PCIE_STAT p) Fd.PCIE_STAT_SPEED = 0 ∧ t.f (Rg.PCIE_STAT p) Fd.PCIE_STAT_WIDTH = 0 ∧
          t.f (Rg.PCIE_STAT p) Fd.PCIE_STAT_SAFE = s.f (Rg.PCIE_STAT p) Fd.PCIE_STAT_SAFE ∧
          t.rd (Rg.PCIE_LINK_DOWN_CNT p) = (s.rd (Rg.PCIE_LINK_DOWN_CNT p) + 1) % 2 ^ 32 ∧ bit (t.rd (Pg.PCIE p + 0x010)) Ib.PCIE_LINK_CHANGE = true ∧
          (∀ r, r < 64 → (s.f (Rg.DMA_RING_CFG r) Fd.DMA_RING_CFG_PORT = p → t.fb (Rg.DMA_RING_CFG r) Fd.DMA_RING_CFG_STOPPED = true) ∧
            (s.f (Rg.DMA_RING_CFG r) Fd.DMA_RING_CFG_PORT ≠ p → t.rd (Rg.DMA_RING_CFG r) = s.rd (Rg.DMA_RING_CFG r))) ∧
          (s.f Rg.UPD_LOCK_STAT Fd.UPD_LOCK_STAT_OWNER = p → t.fb Rg.UPD_LOCK_STAT Fd.UPD_LOCK_STAT_HELD = false) ∧
          (s.f Rg.UPD_LOCK_STAT Fd.UPD_LOCK_STAT_OWNER ≠ p → t.rd Rg.UPD_LOCK_STAT = s.rd Rg.UPD_LOCK_STAT) ∧
          (s.f Rg.CMT_STAT Fd.CMT_STAT_STATE ≠ 0 → s.f Rg.CMT_STAT Fd.CMT_STAT_OWNER = p → t.fb Rg.CMT_STAT Fd.CMT_STAT_NO_OWNER = true) ∧
          t.cmtState = s.cmtState)) ∧
    (∃ t, exec (.perst p true) s = .next t ∧ t = s.setPcie p { s.pcie p with perst := false }) ∧
    (∃ t, exec (.functionLevelReset p) s = .next t ∧ t.pcie p = { s.pcie p with msixEn := false, fmask := false, vecs := [] } ∧
      t.rd (Rg.PCIE_LINK_DOWN_CNT p) = 1 ∧ t.f (Rg.PCIE_STAT p) Fd.PCIE_STAT_SAFE = s.f (Rg.PCIE_STAT p) Fd.PCIE_STAT_SAFE ∧
      t.rd (Rg.PCIE_USER_WR_CNT p) = 0 ∧ t.rd (Pg.PCIE p + 0x010) = 0 ∧
      (∀ n, n < 640 → bit (t.tbl Pg.IRQ 0 n) (30 + p) = false ∧ bits (t.tbl Pg.IRQ 0 n) 0 30 = bits (s.tbl Pg.IRQ 0 n) 0 30) ∧
      (∀ r, r < 64 → s.f (Rg.DMA_RING_CFG r) Fd.DMA_RING_CFG_PORT = p → t.fb (Rg.DMA_RING_CFG r) Fd.DMA_RING_CFG_STOPPED = true) ∧
      (s.f Rg.UPD_LOCK_STAT Fd.UPD_LOCK_STAT_OWNER = p → t.fb Rg.UPD_LOCK_STAT Fd.UPD_LOCK_STAT_HELD = false)) ∧
    ∀ (speed width : Nat) (flit : Bool),
      (s.portEnabled p = false ∨ (s.pcie p).perst = true ∨ s.fb (Rg.PCIE_STAT p) Fd.PCIE_STAT_LINK_UP = true ∨ speed ∉ [1, 2, 3, 4, 5, 6] ∨ width ∉ [1, 2, 4] →
        exec (.pcieLinkUp p speed width flit) s = .next s) ∧
      (s.portEnabled p = true → (s.pcie p).perst = false → s.fb (Rg.PCIE_STAT p) Fd.PCIE_STAT_LINK_UP = false → speed ∈ [1, 2, 3, 4, 5, 6] → width ∈ [1, 2, 4] →
        ∃ t, exec (.pcieLinkUp p speed width flit) s = .next t ∧ t.fb (Rg.PCIE_STAT p) Fd.PCIE_STAT_LINK_UP = true ∧
          t.fb (Rg.PCIE_STAT p) Fd.PCIE_STAT_FLIT = flit ∧ t.f (Rg.PCIE_STAT p) Fd.PCIE_STAT_SPEED = speed ∧
          t.f (Rg.PCIE_STAT p) Fd.PCIE_STAT_WIDTH = width ∧ t.f (Rg.PCIE_STAT p) Fd.PCIE_STAT_SAFE = s.f (Rg.PCIE_STAT p) Fd.PCIE_STAT_SAFE ∧
          bit (t.rd (Pg.PCIE p + 0x010)) Ib.PCIE_LINK_CHANGE = true ∧ State.onlyRegs (fun x => x == Rg.PCIE_STAT p || intReg (Pg.PCIE p) x) s t)) ∧
  (∀ (s : State) (a : Acc) (v : Word) (p vec : Nat), s.mayWrite a Rg.IRQ_REARM = true → p = v.toNat / 256 % 2 → vec = v.toNat % 256 →
    (s.msixLive p = false ∨ (∀ n ∈ s.vecSources p vec, s.irqSrc n = false) → exec (.irqRearm a v) s = .next s) ∧
    (s.msixLive p = true → (∃ n ∈ s.vecSources p vec, s.irqSrc n = true) → ∃ t, exec (.irqRearm a v) s = .next t ∧
      ((s.pcie p).fmask = false → (sget {} (s.pcie p).vecs vec).mask = false →
        t.out = .msix p vec (sget {} (s.pcie p).vecs vec).addr (sget {} (s.pcie p).vecs vec).data :: s.out ∧
        t.rd (Rg.IRQ_MSG_CNT p) = (s.rd (Rg.IRQ_MSG_CNT p) + 1) % 2 ^ 32) ∧
      ((s.pcie p).fmask = true ∨ (sget {} (s.pcie p).vecs vec).mask = true →
        t.out = s.out ∧ t.regs = s.regs ∧ (sget {} (t.pcie p).vecs vec).pending = true))) ∧
  ∀ (s : State) (p vec addr data : Nat) (en fm mask : Bool), p < 2 → ∃ t, exec (.msixMaskChange p en fm vec mask addr data) s = .next t ∧
    (t.pcie p).msixEn = en ∧ (t.pcie p).fmask = fm ∧ (t.pcie p).perst = (s.pcie p).perst ∧
    (sget {} (t.pcie p).vecs (vec % 256)).mask = mask ∧ (sget {} (t.pcie p).vecs (vec % 256)).addr = addr % 2 ^ 64 ∧
    (sget {} (t.pcie p).vecs (vec % 256)).data = data % 2 ^ 32 ∧
    (en = false ∨ fm = true ∨ s.fb (Rg.PCIE_STAT p) Fd.PCIE_STAT_LINK_UP = false → t = s.setPcie p (t.pcie p) ∧
      (sget {} (t.pcie p).vecs (vec % 256)).pending = (sget {} (s.pcie p).vecs (vec % 256)).pending) ∧
    (en = true → fm = false → s.fb (Rg.PCIE_STAT p) Fd.PCIE_STAT_LINK_UP = true → mask = false →
      (sget {} (s.pcie p).vecs (vec % 256)).pending = true →
      Emit.msix p (vec % 256) (addr % 2 ^ 64) (data % 2 ^ 32) ∈ t.out ∧ (sget {} (t.pcie p).vecs (vec % 256)).pending = false)

/-- R365 to R370 and R373 for DMA_RING_ENABLE, DMA_TAIL_WRITE, RX_DESCRIPTOR_WRITE, RECORD_FLUSH_TIMEOUT, INJECT_PIPE, INJECT_VOQ, HBM_READ, TX_BAD_TYPE and COAL_TIMEOUT. -/
def Obligations.DmaRings : Prop :=
  (∀ (s : State) (a : Acc) (r : Nat) (v : Word), r < 64 → s.mayWrite a (Rg.DMA_RING_CFG r) = true →
    (s.fb (Rg.DMA_RING_CFG r) Fd.DMA_RING_CFG_EN = false → ∃ t, exec (.dmaRingEnable a r v) s = .next t ∧
      t.fb (Rg.DMA_RING_CFG r) Fd.DMA_RING_CFG_EN = bit v.toNat 31 ∧ t.f (Rg.DMA_RING_CFG r) Fd.DMA_RING_CFG_DIR = bits v.toNat 30 1 ∧
      t.f (Rg.DMA_RING_CFG r) Fd.DMA_RING_CFG_PORT = bits v.toNat 29 1 ∧
      (bit v.toNat 31 = true → t.rd (Rg.DMA_RING_PTR r) = 0 ∧ t.fb (Rg.DMA_RING_CFG r) Fd.DMA_RING_CFG_STOPPED = false ∧ (t.ring r).done = 0) ∧
      (bit v.toNat 31 = false → t.rd (Rg.DMA_RING_PTR r) = s.rd (Rg.DMA_RING_PTR r))) ∧
    (s.fb (Rg.DMA_RING_CFG r) Fd.DMA_RING_CFG_EN = true →
      (portOf a.req = some (s.f (Rg.DMA_RING_CFG r) Fd.DMA_RING_CFG_PORT) →
        (bit v.toNat 31 = false → ∃ t, exec (.dmaRingEnable a r v) s = .next t ∧ t.fb (Rg.DMA_RING_CFG r) Fd.DMA_RING_CFG_EN = false) ∧
        (bit v.toNat 31 = true → exec (.dmaRingEnable a r v) s = .next s)) ∧
      (∀ q, portOf a.req = some q → q ≠ s.f (Rg.DMA_RING_CFG r) Fd.DMA_RING_CFG_PORT → ∃ t, exec (.dmaRingEnable a r v) s = .next t ∧
        bit (t.rd (Pg.DMA + 0x010)) Ib.DMA_REFUSED = true ∧ State.onlyRegs (intReg Pg.DMA) s t))) ∧
  (∀ (s : State) (a : Acc) (r : Nat) (v : Word), r < 64 → s.mayWrite a (Rg.DMA_RING_PTR r) = true →
    (s.fb (Rg.DMA_RING_CFG r) Fd.DMA_RING_CFG_EN = false ∨ portOf a.req = some (s.f (Rg.DMA_RING_CFG r) Fd.DMA_RING_CFG_PORT)) →
    ∀ n adv, n = s.ringSize r → adv = (v.toNat % 2 ^ 16 % n + n - s.f (Rg.DMA_RING_PTR r) Fd.DMA_RING_PTR_TAIL % n) % n →
      ∃ t, exec (.dmaTailWrite a r v) s = .next t ∧
        (s.ringAvail r + adv < n → t.f (Rg.DMA_RING_PTR r) Fd.DMA_RING_PTR_TAIL = v.toNat % 2 ^ 16 ∧ t.ringHead r = s.ringHead r ∧
          State.onlyRegs (fun x => x == Rg.DMA_RING_PTR r) s t) ∧
        (n ≤ s.ringAvail r + adv → bit (t.rd (Pg.DMA + 0x010)) Ib.DMA_REFUSED = true ∧ State.onlyRegs (intReg Pg.DMA) s t)) ∧
  (∀ (s : State) (r addr len clk arg0 arg1 typ : Nat) (data : Option (List Byte)),
    (s.ringTakes r 0 = false → exec (.rxDescriptorWrite r addr len clk) s = .next s) ∧
    (s.ringTakes r 1 = false → exec (.injectPipe r len arg0 data clk) s = .next s ∧ exec (.injectVoq r len arg0 arg1 data clk) s = .next s ∧
      exec (.hbmRead r len arg0 addr clk) s = .next s ∧ exec (.txBadType r typ clk) s = .next s) ∧
    (typ % 16 ∈ [1, 2, 3] → exec (.txBadType r typ clk) s = .next s)) ∧
  (∀ (s : State) (r addr bufLen clk : Nat), s.ringTakes r 0 = true → (s.ring r).opn = none →
    ((s.ring r).items = [] → s.ringFifo r = none → exec (.rxDescriptorWrite r addr bufLen clk) s = .next s) ∧
    ∀ (i : DmaItem) rest, (s.ring r).items = i :: rest → ∃ t, exec (.rxDescriptorWrite r addr bufLen clk) s = .next t ∧
      (bufLen < 256 → s.writesBack t r 16 12 (rxWord false false true i.src i.code 0) ∧ (t.ring r).items = i :: rest) ∧
      (256 ≤ bufLen → ∀ n eop, n = min (min 65535 bufLen) i.bytes.length → (eop = true ↔ n = i.bytes.length) →
        s.writesBack t r 16 12 (rxWord (!i.begun) eop false i.src i.code n) ∧
        Emit.hostWrite (s.f (Rg.DMA_RING_CFG r) Fd.DMA_RING_CFG_PORT) addr (i.bytes.take n) ∈ t.out ∧
        (t.ring r).items = if eop then rest else { i with bytes := i.bytes.drop n, begun := true } :: rest)) ∧
  (∀ (s : State) (r clk : Nat), ((s.ring r).opn = none → exec (.recordFlushTimeout r clk) s = .next s) ∧
    ∀ o, (s.ring r).opn = some o →
      ((if o.src = 3 then s.ln.notes.isEmpty else s.ra.rw.isEmpty) = false ∨ s.at clk < o.since + 20000 ∨ s.ringTakes r 0 = false →
        exec (.recordFlushTimeout r clk) s = .next s) ∧
      ((if o.src = 3 then s.ln.notes.isEmpty else s.ra.rw.isEmpty) = true → o.since + 20000 ≤ s.at clk → s.ringTakes r 0 = true →
        ∃ t, exec (.recordFlushTimeout r clk) s = .next t ∧ (t.ring r).opn = none ∧
          s.writesBack t r 16 12 (rxWord true true false o.src 0 o.bytes.length) ∧
          Emit.hostWrite (s.f (Rg.DMA_RING_CFG r) Fd.DMA_RING_CFG_PORT) o.addr o.bytes ∈ t.out)) ∧
  (∀ (s : State) (r clk : Nat), s.ringTakes r 1 = true → s.pageOn (Pg.DMA / 0x1000) = true →
    (∀ (c : Instr) (st : Nat),
      ((∃ len p data, (len < 64 ∨ 16383 < len) ∧ c = .injectPipe r len p data clk ∧ st = txBadLen) ∨
       (∃ len p data, 64 ≤ len ∧ len ≤ 16383 ∧ (s.lportOn (p % 64) = false ∨ (s.lpSpeed (p % 64) = 0 ∧ s.isClient (p % 64) = false)) ∧
         c = .injectPipe r len p data clk ∧ st = txBadPort) ∨
       (∃ len p, 64 ≤ len ∧ len ≤ 16383 ∧ s.lportOn (p % 64) = true ∧ (s.lpSpeed (p % 64) ≠ 0 ∨ s.isClient (p % 64) = true) ∧
         c = .injectPipe r len p none clk ∧ st = txReadErr) ∨
       (∃ len a0 a1 data, (len < 64 ∨ 16383 < len) ∧ c = .injectVoq r len a0 a1 data clk ∧ st = txBadLen) ∨
       (∃ len a0 a1, 64 ≤ len ∧ len ≤ 16383 ∧ c = .injectVoq r len a0 a1 none clk ∧ st = txReadErr) ∨
       (∃ len off addr, (len < 32 ∨ 16777184 < len ∨ len % 32 ≠ 0) ∧ c = .hbmRead r len off addr clk ∧ st = txBadLen) ∨
       (∃ len off addr, 32 ≤ len ∧ len ≤ 16777184 ∧ len % 32 = 0 ∧ (off % 32 ≠ 0 ∨ s.part.hbmBytes < s.tableBase + off + len) ∧
         c = .hbmRead r len off addr clk ∧ st = txBadAddr) ∨
       (∃ typ, typ % 16 ∉ [1, 2, 3] ∧ c = .txBadType r typ clk ∧ st = txBadType)) →
      ∃ t, exec c s = .next t ∧ s.writesBack t r 32 24 (2 ^ 31 + st * 2 ^ 24) ∧
        t.rd Rg.DMA_TX_ERR_CNT = (s.rd Rg.DMA_TX_ERR_CNT + 1) % 2 ^ 32 ∧ bit (t.rd (Pg.DMA + 0x010)) Ib.DMA_TX_ERR = true) ∧
    (∀ (len p : Nat) (d b : List Byte), p < 64 → 64 ≤ len → len ≤ 16383 → s.lportOn p = true → (s.lpSpeed p ≠ 0 ∨ s.isClient p = true) →
      b = (d ++ List.replicate len 0).take (len - 4) →
      (s.injectRoom p len b = false → exec (.injectPipe r len p (some d) clk) s = .next s) ∧
      (s.injectRoom p len b = true → ∃ t u, exec (.injectPipe r len p (some d) clk) s = .next t ∧
        exec (.steerEnqueue p false) { s with macQ := ⟨p, sealFrame b, false, s.rxStamp p clk⟩ :: s.macQ } = .next u ∧
        t.slices = u.slices ∧ t.macQ = u.macQ ∧ t.moveIn = u.moveIn ∧ s.writesBack t r 32 24 (2 ^ 31) ∧
        t.rd Rg.DMA_INJ_CNT = (s.rd Rg.DMA_INJ_CNT + 1) % 2 ^ 32)) ∧
    (∀ (len arg0 arg1 : Nat) (d b : List Byte) (x : State × Bool), 64 ≤ len → len ≤ 16383 → b = (d ++ List.replicate len 0).take (len - 4) →
      x = s.admitPkt { pkt := { bytes := b, md := { dest := arg0 % 2 ^ 17, tc := bits arg0 17 3, hint := arg1 % 2 ^ 23, len := len } }, lane := 9 } true false (s.at clk) →
      ∃ t, exec (.injectVoq r len arg0 arg1 (some d) clk) s = .next t ∧ t.voqs = x.1.voqs ∧
        s.writesBack t r 32 24 (2 ^ 31 + (if x.2 then txOk else txDropped) * 2 ^ 24) ∧
        t.rd Rg.DMA_INJ_CNT % 2 ^ 32 = (s.rd Rg.DMA_INJ_CNT + (if x.2 then 1 else 0)) % 2 ^ 32 ∧
        t.rd Rg.DMA_INJ_DROP_CNT % 2 ^ 32 = (s.rd Rg.DMA_INJ_DROP_CNT + (if x.2 then 0 else 1)) % 2 ^ 32) ∧
    ∀ (len off addr : Nat), 32 ≤ len → len ≤ 16777184 → len % 32 = 0 → off % 32 = 0 → s.tableBase + off + len ≤ s.part.hbmBytes →
      (s.allUp = false → exec (.hbmRead r len off addr clk) s = .next s) ∧
      (s.allUp = true → ∃ t b, exec (.hbmRead r len off addr clk) s = .next t ∧ b = s.burstCopy (s.tableBase + off) (len / 32) ∧
        b.2.1.length = len ∧ Emit.hostWrite (s.f (Rg.DMA_RING_CFG r) Fd.DMA_RING_CFG_PORT) addr b.2.1 ∈ t.out ∧
        s.writesBack t r 32 24 (2 ^ 31 + (if b.2.2 then txOk else txUncorr) * 2 ^ 24))) ∧
  ∀ (s : State) (r clk : Nat), r < 64 →
    (s.f (Rg.DMA_RING_CFG r) Fd.DMA_RING_CFG_COAL_US = 0 ∨ (s.ring r).done = 0 ∨ r ∈ s.ringDue ∨
      s.at clk < (s.ring r).since + s.f (Rg.DMA_RING_CFG r) Fd.DMA_RING_CFG_COAL_US * 2000 → exec (.coalTimeout r clk) s = .next s) ∧
    (s.f (Rg.DMA_RING_CFG r) Fd.DMA_RING_CFG_COAL_US ≠ 0 → 0 < (s.ring r).done → r ∉ s.ringDue →
      (s.ring r).since + s.f (Rg.DMA_RING_CFG r) Fd.DMA_RING_CFG_COAL_US * 2000 ≤ s.at clk →
      ((∀ p, p < 2 → bit (s.tbl Pg.IRQ 0 (512 + r)) (30 + p) = false ∨ s.msixLive p = false) →
        exec (.coalTimeout r clk) s = .next { s with ringDue := r :: s.ringDue }) ∧
      ((∃ p, p < 2 ∧ bit (s.tbl Pg.IRQ 0 (512 + r)) (30 + p) = true ∧ s.msixLive p = true) →
        ∃ t, exec (.coalTimeout r clk) s = .next t ∧ (t.ring r).done = 0 ∧ r ∉ t.ringDue))

/-- R208, R374 to R377, R384, R386 and R396 for POWER_REQUEST, CALD_PWR_WRITE, ENABLE, DOMAIN_POWER_OFF_DONE, DOMAIN_POWER_ON_DONE, STANDBY_ENTER, STANDBY_ENTERED,
STANDBY_EXIT, I3C_WAKE, GPIO_WAKE and STANDBY_EXITED. -/
def Obligations.PowerDomainsAndStandby : Prop :=
  (∀ (s : State) (a : Acc) (v : Word) (die w b d req : Nat), die < 2 → w < 2 → b < 32 → d = 32 * w + b → req = Rg.PWR_DOM_REQ die w →
    s.mayWrite a req = true → onlyBit v.toNat (s.rd req) b →
    (s.part.hasDom die d = false → exec (.powerRequest a req v) s = .next s) ∧
    (s.part.hasDom die d = true → s.domCalm die d → ∃ t, exec (.powerRequest a req v) s = .next t ∧
      (bit v.toNat b = false → s.domOn die d = true → s.offOk die d (reqNo a.req) = true →
        t.pw.fall = s.pw.fall ++ [domKey die d] ∧ bit (t.rd req) b = false) ∧
      (bit v.toNat b = false → s.domOn die d = true → s.offOk die d (reqNo a.req) = false →
        t.pw.fall = s.pw.fall ∧ bit (t.rd req) b = true ∧ bit (t.rd (Pg.PWR die + 0x010)) Ib.PWR_REFUSED = true ∧
        t.rd (Rg.PWR_REFUSE_CNT die) = (s.rd (Rg.PWR_REFUSE_CNT die) + 1) % 2 ^ 32) ∧
      (bit v.toNat b = true → s.domOn die d = false → bit (t.rd req) b = true ∧
        (s.pw.rise.countP (· / 64 == die) < 4 → (∀ k ∈ s.pw.wait, k / 64 ≠ die) → t.pw.rise = s.pw.rise ++ [domKey die d]) ∧
        (4 ≤ s.pw.rise.countP (· / 64 == die) → domKey die d ∈ t.pw.wait ∧ t.pw.rise = s.pw.rise)))) ∧
  (∀ (s : State) (a : Acc) (v : Word) (page die d : Nat), s.mayWrite a (page * 0x1000 + 0x008) = true → pageDoms page = [(die, d)] →
    page ≠ Pg.EQS / 0x1000 → ¬(0x1060 ≤ page ∧ page < 0x1064) → bits v.toNat 29 3 = 4 → s.pagePowerReq page = true → s.domCalm die d →
    s.domOn die d = true → s.part.hasDom die d = true → ∃ t, exec (.powerRequest a (page * 0x1000 + 0x008) v) s = .next t ∧
      (s.offOk die d (reqNo a.req) = true → t.pw.fall = s.pw.fall ++ [domKey die d]) ∧
      (s.offOk die d (reqNo a.req) = false → t.pw.fall = s.pw.fall ∧ bit (t.rd (page * 0x1000 + 0x010)) 27 = true)) ∧
  (∀ (s : State) (a : Acc) (v : Word) (q : Nat), q < 4 → s.mayWrite a Rg.CALD_PWR = true →
    (∀ i, i < 4 → (bit v.toNat i = bit (s.rd Rg.CALD_PWR) i ↔ i ≠ q)) → s.domCalm 1 q → ∃ t, exec (.caldPwrWrite a v) s = .next t ∧
      (bit v.toNat q = false → s.domOn 1 q = true → s.offOk 1 q (reqNo a.req) = true →
        t.pw.fall = s.pw.fall ++ [domKey 1 q] ∧ bit (t.rd Rg.CALD_PWR) q = false ∧ bit (t.rd (Rg.PWR_DOM_REQ 1 0)) q = false) ∧
      (bit v.toNat q = false → s.domOn 1 q = true → s.offOk 1 q (reqNo a.req) = false →
        t.pw.fall = s.pw.fall ∧ t.rd Rg.CALD_PWR = s.rd Rg.CALD_PWR ∧ bit (t.rd (Pg.CALD + 0x010)) Ib.CALD_REFUSED = true) ∧
      (bit v.toNat q = true → s.domOn 1 q = false → bit (t.rd Rg.CALD_PWR) q = true ∧ bit (t.rd (Rg.PWR_DOM_REQ 1 0)) q = true ∧
        (domKey 1 q ∈ t.pw.rise ∨ domKey 1 q ∈ t.pw.wait))) ∧
  (∀ (s : State) (a : Acc) (v : Word) (page : Nat), s.mayWrite a (page * 0x1000 + 0x008) = true → bit v.toNat 30 = false →
    bit v.toNat 29 = s.pagePowerReq page →
    (page = Pg.EQS / 0x1000 → ∃ t, exec (.enable a page v) s = .next t ∧ bit (t.rd (Pg.EQS + 0x008)) 31 = bit v.toNat 31 ∧
      State.onlyRegs (fun x => x == Pg.EQS + 0x008) s t) ∧
    (0x1060 ≤ page → page < 0x1064 → ∃ t, exec (.enable a page v) s = .next t ∧ bit (t.rd (page * 0x1000 + 0x008)) 31 = bit v.toNat 31) ∧
    (page ≠ Pg.EQS / 0x1000 → ¬(0x1060 ≤ page ∧ page < 0x1064) → bit v.toNat 31 = true → exec (.enable a page v) s = .next s)) ∧
  (∀ (s : State) (die d k : Nat), die < 2 → d < 64 → k = domKey die d →
    (k ∉ s.pw.fall → exec (.domainPowerOffDone die d) s = .next s) ∧ (k ∉ s.pw.rise → exec (.domainPowerOnDone die d) s = .next s) ∧
    (k ∈ s.pw.fall → s.pageOn (Pg.PWR die / 0x1000) = true → ∃ t, exec (.domainPowerOffDone die d) s = .next t ∧ t.domOn die d = false ∧
      k ∉ t.pw.fall ∧ bit (t.rd (Pg.PWR die + 0x010)) Ib.PWR_DOM_CHANGE = true ∧
      (bit (s.rd (Rg.PWR_DOM_REQ die (d / 32))) (d % 32) = true → k ∈ t.pw.rise ∨ k ∈ t.pw.wait) ∧
      ((die = 0 ∧ 18 ≤ d ∧ d < 44) ∨ (die = 1 ∧ ((6 ≤ d ∧ d < 18) ∨ (20 ≤ d ∧ d < 24))) →
        ∀ x, x / 0x1000 ∈ domPages die d → t.rd x = regReset s.part x)) ∧
    (k ∈ s.pw.rise → s.pageOn (Pg.PWR die / 0x1000) = true → bit (s.rd (Rg.PWR_DOM_REQ die (d / 32))) (d % 32) = true →
      ∃ t, exec (.domainPowerOnDone die d) s = .next t ∧ t.domOn die d = true ∧ bit (t.rd (Pg.PWR die + 0x010)) Ib.PWR_DOM_CHANGE = true)) ∧
  (∀ (s : State) (a : Acc) (v : Word) (k : Nat) (used : Prop), s.mayWrite a (Rg.PWR_STBY 1) = true →
    k = (if v.toNat % 4 = 3 then s.f (Rg.PWR_STBY 1) Fd.PWR_STBY_KEEP else v.toNat % 4) →
    (used ↔ s.f Rg.CALD_STAT Fd.CALD_STAT_USED ≠ 0 ∨ s.f Rg.VOQ_STAT Fd.VOQ_STAT_NONEMPTY ≠ 0 ∨ s.f Rg.EQS_POOL_STAT Fd.EQS_POOL_STAT_USED ≠ 0) →
    (∀ code, bits v.toNat 30 2 = 2 → ((used ∧ code = 1) ∨ (¬used ∧ k < 2 ∧ s.scRole k ≠ scActive ∧ code = 2) ∨
        (¬used ∧ (2 ≤ k ∨ s.scRole k = scActive) ∧ (s.stby ≠ 0 ∨ s.f Rg.CMT_STAT Fd.CMT_STAT_STATE ≠ 0) ∧ code = 3)) →
      ∃ t, exec (.standbyEnter a v) s = .next t ∧ t.f (Rg.PWR_STBY 1) Fd.PWR_STBY_REFUSE = code ∧ t.stby = s.stby ∧
        bit (t.rd (Pg.PWR 1 + 0x010)) Ib.PWR_REFUSED = true) ∧
    (bits v.toNat 30 2 = 2 → ¬used → (2 ≤ k ∨ s.scRole k = scActive) → s.stby = 0 → s.f Rg.CMT_STAT Fd.CMT_STAT_STATE = 0 →
      ∃ t, exec (.standbyEnter a v) s = .next t ∧ t.stby = 1 ∧ t.f (Rg.PWR_STBY 1) Fd.PWR_STBY_KEEP = k) ∧
    (bits v.toNat 30 2 = 1 → ∃ t, exec (.standbyExit a v) s = .next t ∧
      (s.stby = 2 → k < 2 → reqNo a.req = 2 + k → t.stby = 3 ∧ t.d2.training = true) ∧
      (s.stby ≠ 2 ∨ 2 ≤ k ∨ reqNo a.req ≠ 2 + k → t.stby = s.stby ∧ bit (t.rd (Pg.PWR 1 + 0x010)) Ib.PWR_REFUSED = true))) ∧
  ∀ (s : State) (pin clk : Nat), (s.stby ≠ 2 → exec .i3cWake s = .next s) ∧
    (s.stby = 2 → ∃ t, exec .i3cWake s = .next t ∧ t.stby = 3 ∧ t.d2.training = true) ∧
    (s.f (Rg.PWR_GPIO_CFG 1 pin) Fd.PWR_GPIO_CFG_MODE ≠ 3 → exec (.gpioWake pin clk) s = .next s) ∧
    (pin < 8 → s.pw.por = false → s.pw.sup = false → s.f (Rg.PWR_GPIO_CFG 1 pin) Fd.PWR_GPIO_CFG_MODE = 3 →
      s.fb (Rg.PWR_GPIO_CFG 1 pin) Fd.PWR_GPIO_CFG_IN = false → sget 0 s.pw.gpioAt pin = 0 → s.stby = 2 →
      ∃ t, exec (.gpioWake pin clk) s = .next t ∧ t.stby = 3 ∧ t.fb (Rg.PWR_GPIO_CFG 1 pin) Fd.PWR_GPIO_CFG_IN = true) ∧
    (s.stby ≠ 1 → exec .standbyEntered s = .next s) ∧
    (s.stby = 1 → s.pageOn (Pg.PWR 1 / 0x1000) = true → ∃ t, exec .standbyEntered s = .next t ∧ t.stby = 2 ∧
      bit (t.rd (Pg.PWR 1 + 0x010)) Ib.PWR_STBY_DONE = true ∧ (∀ k, k < 2 → s.stbyKeep ≠ some k → t.scRole k = scHeld) ∧
      ∀ die d, die < 2 → d < 47 → s.part.hasDom die d = true → t.domOn die d = (s.stbyStays die d && s.domOn die d)) ∧
    (s.stby ≠ 3 → exec .standbyExited s = .next s) ∧
    (s.stby = 3 → s.pageOn (Pg.PWR 1 / 0x1000) = true → ∃ t, exec .standbyExited s = .next t ∧ t.stby = 0 ∧
      bit (t.rd (Pg.PWR 1 + 0x010)) Ib.PWR_STBY_DONE = true ∧ t.rd Rg.BUF_PAGES_FREE = t.rd Rg.BUF_PAGES_TOTAL ∧
      ∀ die d, die < 2 → d < 47 → s.part.hasDom die d = true → t.domOn die d = true)

/-- R378, R380 to R383, R385, R386 and R389 for POWER_ON, PORESET_ASSERT, WARM_PIN, SOFT, FDIE, SUPPLY, SUPPLY_RESTORED, THERMAL_ALERT, THERMAL_TRIP, REF_LOSS,
REF_RETURN and GPIO_EVENT. -/
def Obligations.ResetsClocksAndPins : Prop :=
  (∀ (s : State) (env : BootEnv), ∃ t, exec (.powerOn env) s = .next t ∧ s.resetWith t env (if s.pw.trip then 5 else 1) ∧ t.pw.trip = false) ∧
  (∀ s : State, ∃ t, exec .poresetAssert s = .next t ∧ t = { s with pw := { s.pw with por := true, tripPin := false }, out := t.out } ∧
    ∀ page, t.pageOn page = false) ∧
  (∀ (s : State) (clk : Nat) (env : BootEnv), (s.pw.por = true ∨ s.pw.sup = true → exec (.warmPin clk env) s = .next s) ∧
    (s.pw.por = false → s.pw.sup = false →
      ((∀ x, s.pw.lastWarm = some x → x + 200000000 ≤ s.at clk) → ∃ t, exec (.warmPin clk env) s = .next t ∧ s.resetWith t env 2) ∧
      ∀ x, s.pw.lastWarm = some x → (s.at clk : Int) < x + 200000000 → s.pageOn (Pg.PWR 1 / 0x1000) = true →
        ∃ t, exec (.warmPin clk env) s = .next t ∧ t.rd (Rg.PWR_WARM_IGNORED_CNT 1) = (s.rd (Rg.PWR_WARM_IGNORED_CNT 1) + 1) % 2 ^ 32 ∧
          State.onlyRegs (fun y => y == Rg.PWR_WARM_IGNORED_CNT 1 || cntReg (Pg.PWR 1) y) s t)) ∧
  (∀ (s : State) (a : Acc) (v : Word) (env : BootEnv), s.mayWrite a (Rg.PWR_RESET 1) = true → ∀ c, c = .soft a v env ∨ c = .fdie a v env →
    (bits v.toNat 24 8 ≠ 0xA5 → ∃ t, exec c s = .next t ∧ t.rd (Rg.PWR_REFUSE_CNT 1) = (s.rd (Rg.PWR_REFUSE_CNT 1) + 1) % 2 ^ 32 ∧
      bit (t.rd (Pg.PWR 1 + 0x010)) Ib.PWR_REFUSED = true ∧ State.onlyRegs (fun y => y == Rg.PWR_REFUSE_CNT 1 || cntReg (Pg.PWR 1) y) s t) ∧
    (bits v.toNat 24 8 = 0xA5 → v.toNat % 4 = 0 → exec c s = .next s) ∧
    (bits v.toNat 24 8 = 0xA5 → bit v.toNat 0 = true → ∃ t, exec c s = .next t ∧ s.resetWith t env 3) ∧
    (bits v.toNat 24 8 = 0xA5 → v.toNat % 4 = 2 → ∃ t, exec c s = .next t ∧ t.rd (Rg.PWR_RESET_CAUSE 0) = 6 ∧
      t.rd (Rg.PWR_RESET_CAUSE 1) = s.rd (Rg.PWR_RESET_CAUSE 1) ∧ t.pathUp = false ∧
      ∀ x, x < 0x1000000 → x ≠ Rg.RAS_REPAIR_USED 0 → bootReg x = false → t.rd x = regReset s.part x)) ∧
  (∀ (s : State) (env : BootEnv), (s.pw.por = true ∨ s.pw.sup = true → exec .supply s = .next s) ∧
    (s.pw.por = false → s.pw.sup = false → ∃ t, exec .supply s = .next t ∧ t.pw.sup = true ∧ t.rd (Rg.PWR_RESET_CAUSE 1) = 4 ∧
      ∀ page, t.pageOn page = false) ∧
    (s.pw.sup = false ∨ s.pw.por = true → exec (.supplyRestored env) s = .next s) ∧
    (s.pw.sup = true → s.pw.por = false → ∃ t, exec (.supplyRestored env) s = .next t ∧ s.resetWith t env 4)) ∧
  (∀ (s : State) (site temp : Nat), (s.pw.por = true ∨ s.pw.sup = true ∨ 2 + s.part.stacks ≤ site → exec (.thermalAlert site temp) s = .next s) ∧
    (s.pw.por = false → s.pw.sup = false → site < 2 → ∃ t, exec (.thermalAlert site temp) s = .next t ∧
      t.f (Rg.PWR_TEMP site) Fd.PWR_TEMP_TEMP = min 255 temp ∧
      t.f (Rg.PWR_TEMP site) Fd.PWR_TEMP_PEAK = max (max (min 255 temp) (s.f (Rg.PWR_TEMP site) Fd.PWR_TEMP_TEMP)) (s.f (Rg.PWR_TEMP site) Fd.PWR_TEMP_PEAK) ∧ t.pw.alertPin = t.hot ∧
      (s.f (Rg.PWR_TEMP site) Fd.PWR_TEMP_TEMP < s.f (Rg.PWR_TEMP site) Fd.PWR_TEMP_ALERT → s.f (Rg.PWR_TEMP site) Fd.PWR_TEMP_ALERT ≤ min 255 temp →
        s.pageOn (Pg.PWR site / 0x1000) = true → bit (t.rd (Pg.PWR site + 0x010)) Ib.PWR_TEMP_ALERT = true)) ∧
    (s.pw.por = false → s.pw.sup = false → ∀ k, site = 2 + k → k < s.part.stacks → s.pageOn (Pg.HBMC k / 0x1000) = true →
      ∃ t, exec (.thermalAlert site temp) s = .next t ∧ t.f (Rg.HBMC_TEMP k) Fd.HBMC_TEMP_TEMP = min 255 temp ∧ t.pw.alertPin = t.hot)) ∧
  (∀ (s : State) (d : Nat), d < 2 → (s.pw.por = true ∨ s.pw.sup = true ∨ s.pw.tripPin = true → exec (.thermalTrip d) s = .next s) ∧
    (s.pw.por = false → s.pw.sup = false → s.pw.tripPin = false → ∃ t, exec (.thermalTrip d) s = .next t ∧ t.pw.trip = true ∧ t.pw.tripPin = true ∧
      Emit.pin "THERM_TRIP_N" false ∈ t.out ∧ ∀ die k, die < 2 → k < 47 → s.part.hasDom die k = true → t.domOn die k = false)) ∧
  (∀ (s : State) (r die i : Nat) (port : Option Nat), r < 5 → refPlace r = (die, i, port) → s.pw.por = false → s.pw.sup = false →
    s.pageOn (Pg.CLK die / 0x1000) = true →
    (s.fb (Rg.CLK_STAT die) (refOk i) = false → exec (.refLoss r) s = .next s) ∧ (s.fb (Rg.CLK_STAT die) (refOk i) = true → exec (.refReturn r) s = .next s) ∧
    (s.fb (Rg.CLK_STAT die) (refOk i) = true → ∃ t, exec (.refLoss r) s = .next t ∧ t.fb (Rg.CLK_STAT die) (refOk i) = false ∧
      t.rd (Rg.CLK_REF_A_LOSS_CNT die + 4 * i) = (s.rd (Rg.CLK_REF_A_LOSS_CNT die + 4 * i) + 1) % 2 ^ 32 ∧
      bit (t.rd (Pg.CLK die + 0x010)) Ib.CLK_REF_LOSS = true ∧ (r = 0 → t.fb (Rg.CLK_STAT 0) Fd.CLK_STAT_HOLDOVER = true) ∧
      (r = 1 ∨ r = 2 → s.fb (Rg.CLK_CFG die) Fd.CLK_CFG_REF_FALLBACK = true → t.fb (Rg.CLK_STAT die) Fd.CLK_STAT_FALLBACK = true ∧
        bit (t.rd (Pg.CLK die + 0x010)) Ib.CLK_FALLBACK = true) ∧
      ∀ p, port = some p → t.fb (Rg.PCIE_STAT p) Fd.PCIE_STAT_LINK_UP = false) ∧
    (s.fb (Rg.CLK_STAT die) (refOk i) = false → ∃ t, exec (.refReturn r) s = .next t ∧ t.fb (Rg.CLK_STAT die) (refOk i) = true ∧
      (r = 0 → t.fb (Rg.CLK_STAT 0) Fd.CLK_STAT_HOLDOVER = false) ∧ (r = 1 ∨ r = 2 → t.fb (Rg.CLK_STAT die) Fd.CLK_STAT_FALLBACK = false) ∧
      State.onlyRegs (fun x => x == Rg.CLK_STAT die || intReg (Pg.CLK die) x) s t)) ∧
  ∀ (s : State) (i clk : Nat) (level : Bool), i < 8 → s.pw.por = false → s.pw.sup = false → s.pageOn (Pg.PWR 1 / 0x1000) = true →
    (s.fb (Rg.PWR_GPIO_CFG 1 i) Fd.PWR_GPIO_CFG_IN = level → exec (.gpioEvent i level clk) s = .next s) ∧
    ∀ mode, s.fb (Rg.PWR_GPIO_CFG 1 i) Fd.PWR_GPIO_CFG_IN ≠ level → mode = s.f (Rg.PWR_GPIO_CFG 1 i) Fd.PWR_GPIO_CFG_MODE →
      ∃ t, exec (.gpioEvent i level clk) s = .next t ∧ t.fb (Rg.PWR_GPIO_CFG 1 i) Fd.PWR_GPIO_CFG_IN = level ∧
        (mode = 1 ∨ mode = 2 → State.onlyRegs (fun x => x == Rg.PWR_GPIO_CFG 1 i) s t) ∧
        (mode = 0 ∨ mode = 3 →
          (sget 0 s.pw.gpioAt i = 0 ∨ sget 0 s.pw.gpioAt i - 1 + 2000000 * s.f (Rg.PWR_GPIO_CFG 1 i) Fd.PWR_GPIO_CFG_RATE_MS ≤ s.at clk →
            bit (t.rd (Pg.PWR 1 + 0x010)) Ib.PWR_GPIO = true ∧ (mode = 3 → level = true → s.stby = 2 → t.stby = 3)) ∧
          (sget 0 s.pw.gpioAt i ≠ 0 → s.at clk < sget 0 s.pw.gpioAt i - 1 + 2000000 * s.f (Rg.PWR_GPIO_CFG 1 i) Fd.PWR_GPIO_CFG_RATE_MS →
            t.rd (Rg.PWR_GPIO_RATE_CNT 1) = (s.rd (Rg.PWR_GPIO_RATE_CNT 1) + 1) % 2 ^ 32 ∧ t.stby = s.stby))
end

