-- ==== Sys2Proof/Laws/Sparse.lean ====
section
/-! SUPPORT. Sparse maps: a read after a write, and that writes keep the canonical form. -/
namespace Sys2Proof.Machine

variable {α : Type}

theorem sget_sdel_same (d : α) (m : Sparse α) (k : Nat) : sget d (sdel m k) k = d := by
  induction m with
  | nil => rfl
  | cons p m ih =>
    obtain ⟨k', v⟩ := p
    by_cases h : k' = k <;> simp [sdel, sget, h, ih]

theorem sget_sdel_other (d : α) (m : Sparse α) (k j : Nat) (h : j ≠ k) : sget d (sdel m k) j = sget d m j := by
  induction m with
  | nil => rfl
  | cons p m ih =>
    obtain ⟨k', v⟩ := p
    by_cases a : k' = k
    · subst a; simp [sdel, sget, ih, Ne.symm h]
    · by_cases b : k' = j
      · subst b; simp [sdel, sget, a]
      · simp [sdel, sget, a, b, ih]

theorem sget_sins_same (d : α) (m : Sparse α) (k : Nat) (v : α) (hk : ∀ p ∈ m, p.1 ≠ k) : sget d (sins m k v) k = v := by
  induction m with
  | nil => simp [sins, sget]
  | cons p m ih =>
    obtain ⟨k', v'⟩ := p
    have h1 : k' ≠ k := hk (k', v') (by simp)
    by_cases a : k < k'
    · simp [sins, sget, a]
    · simp [sins, sget, a, h1, ih fun q hq => hk q (by simp [hq])]

theorem sget_sins_other (d : α) (m : Sparse α) (k j : Nat) (v : α) (h : j ≠ k) : sget d (sins m k v) j = sget d m j := by
  induction m with
  | nil => simp [sins, sget, Ne.symm h]
  | cons p m ih =>
    obtain ⟨k', v'⟩ := p
    by_cases a : k < k'
    · simp [sins, sget, a, Ne.symm h]
    · by_cases b : k' = j
      · subst b; simp [sins, sget, a]
      · simp [sins, sget, a, b, ih]

theorem mem_sdel (m : Sparse α) (k : Nat) (p : Nat × α) : p ∈ sdel m k ↔ p ∈ m ∧ p.1 ≠ k := by
  induction m with
  | nil => simp [sdel]
  | cons q m ih =>
    obtain ⟨k', v⟩ := q
    by_cases a : k' = k
    · subst a; simp only [sdel, if_true, ih, List.mem_cons]
      constructor
      · rintro ⟨h, h2⟩; exact ⟨.inr h, h2⟩
      · rintro ⟨h | h, h2⟩
        · subst h; exact absurd rfl h2
        · exact ⟨h, h2⟩
    · simp only [sdel, a, if_false, List.mem_cons, ih]
      constructor
      · rintro (h | ⟨h, h2⟩)
        · subst h; exact ⟨.inl rfl, a⟩
        · exact ⟨.inr h, h2⟩
      · rintro ⟨h | h, h2⟩
        · exact .inl h
        · exact .inr ⟨h, h2⟩

theorem mem_sins (m : Sparse α) (k : Nat) (v : α) (p : Nat × α) : p ∈ sins m k v ↔ p = (k, v) ∨ p ∈ m := by
  induction m with
  | nil => simp [sins]
  | cons q m ih =>
    obtain ⟨k', v'⟩ := q
    by_cases a : k < k'
    · simp [sins, a]
    · simp only [sins, a, if_false, List.mem_cons, ih]
      constructor
      · rintro (h | h | h)
        · exact .inr (.inl h)
        · exact .inl h
        · exact .inr (.inr h)
      · rintro (h | h | h)
        · exact .inr (.inl h)
        · exact .inl h
        · exact .inr (.inr h)

/-- A key reads what was written to it. -/
theorem sget_sset_same [DecidableEq α] (d : α) (m : Sparse α) (k : Nat) (v : α) : sget d (sset d m k v) k = v := by
  by_cases h : v = d
  · simp [sset, h, sget_sdel_same]
  · simp only [sset, h, if_false]
    exact sget_sins_same d _ k v fun p hp => ((mem_sdel m k p).1 hp).2

/-- A write leaves every other key alone. -/
theorem sget_sset_other [DecidableEq α] (d d' : α) (m : Sparse α) (k j : Nat) (v : α) (h : j ≠ k) :
    sget d (sset d' m k v) j = sget d m j := by
  by_cases hv : v = d'
  · simp [sset, hv, sget_sdel_other d m k j h]
  · simp [sset, hv, sget_sins_other d _ k j v h, sget_sdel_other d m k j h]

theorem sRising_sdel (m : Sparse α) (k : Nat) (h : sRising m) : sRising (sdel m k) := by
  induction m with
  | nil => trivial
  | cons q m ih =>
    obtain ⟨k', v⟩ := q
    by_cases a : k' = k
    · simp only [sdel, a, if_true]; exact ih h.2
    · simp only [sdel, a, if_false]
      exact ⟨fun p hp => h.1 p ((mem_sdel m k p).1 hp).1, ih h.2⟩

theorem sRising_sins (m : Sparse α) (k : Nat) (v : α) (h : sRising m) (hk : ∀ p ∈ m, p.1 ≠ k) : sRising (sins m k v) := by
  induction m with
  | nil => exact ⟨fun p hp => absurd hp (by simp), trivial⟩
  | cons q m ih =>
    obtain ⟨k', v'⟩ := q
    have h1 : k' ≠ k := hk (k', v') (by simp)
    by_cases a : k < k'
    · simp only [sins, a, if_true]
      refine ⟨fun p hp => ?_, h⟩
      rcases List.mem_cons.1 hp with e | e
      · subst e; exact a
      · exact Nat.lt_trans a (h.1 p e)
    · simp only [sins, a, if_false]
      refine ⟨fun p hp => ?_, ih h.2 fun p hp => hk p (by simp [hp])⟩
      rcases (mem_sins m k v p).1 hp with e | e
      · subst e; show k' < k; omega
      · exact h.1 p e

theorem sRising_sset [DecidableEq α] (d : α) (m : Sparse α) (k : Nat) (v : α) (h : sRising m) : sRising (sset d m k v) := by
  by_cases hv : v = d
  · simp only [sset, hv, if_true]; exact sRising_sdel m k h
  · simp only [sset, hv, if_false]
    exact sRising_sins _ k v (sRising_sdel m k h) fun p hp => ((mem_sdel m k p).1 hp).2

/-- A write keeps the canonical form. -/
theorem sWf_sset [DecidableEq α] (d : α) (m : Sparse α) (k : Nat) (v : α) (h : sWf d m) : sWf d (sset d m k v) := by
  refine ⟨sRising_sset d m k v h.1, fun p hp => ?_⟩
  by_cases hv : v = d
  · simp only [sset, hv, if_true] at hp; exact h.2 p ((mem_sdel m k p).1 hp).1
  · simp only [sset, hv, if_false] at hp
    rcases (mem_sins _ k v p).1 hp with e | e
    · subst e; exact hv
    · exact h.2 p ((mem_sdel m k p).1 e).1

theorem sRising_filter (m : Sparse α) (f : Nat × α → Bool) (h : sRising m) : sRising (m.filter f) := by
  induction m with
  | nil => trivial
  | cons q m ih =>
    by_cases a : f q
    · simp only [List.filter_cons_of_pos a]
      exact ⟨fun p hp => h.1 p (List.mem_of_mem_filter hp), ih h.2⟩
    · simp only [List.filter_cons_of_neg a]; exact ih h.2

/-- Dropping entries keeps the canonical form. -/
theorem sWf_filter (d : α) (m : Sparse α) (f : Nat × α → Bool) (h : sWf d m) : sWf d (m.filter f) :=
  ⟨sRising_filter m f h.1, fun p hp => h.2 p (List.mem_of_mem_filter hp)⟩

theorem sWf_nil (d : α) : sWf d ([] : Sparse α) := ⟨trivial, fun _ h => absurd h (by simp)⟩

end Sys2Proof.Machine
end

