-- ==== Sys2Proof/Laws/State.lean ====
section
/-! SUPPORT. What the elementary updates of the state leave alone: one lemma for each update and field. -/
namespace Sys2Proof.Machine

@[simp] theorem State.wr_ra (s : State) (a v : Nat) : (s.wr a v).ra = s.ra := rfl
@[simp] theorem State.wr_part (s : State) (a v : Nat) : (s.wr a v).part = s.part := rfl
@[simp] theorem State.wr_shadows (s : State) (a v : Nat) : (s.wr a v).shadows = s.shadows := rfl
@[simp] theorem State.wr_prevSt (s : State) (a v : Nat) : (s.wr a v).prevSt = s.prevSt := rfl
@[simp] theorem State.wr_tblPending (s : State) (a v : Nat) : (s.wr a v).tblPending = s.tblPending := rfl
@[simp] theorem State.wr_hiLatch (s : State) (a v : Nat) : (s.wr a v).hiLatch = s.hiLatch := rfl
@[simp] theorem State.wr_loHeld (s : State) (a v : Nat) : (s.wr a v).loHeld = s.loHeld := rfl
@[simp] theorem State.wr_tbls (s : State) (a v : Nat) : (s.wr a v).tbls = s.tbls := rfl
@[simp] theorem State.wr_marks (s : State) (a v : Nat) : (s.wr a v).marks = s.marks := rfl
@[simp] theorem State.wr_rsp (s : State) (a v : Nat) : (s.wr a v).rsp = s.rsp := rfl
@[simp] theorem State.wr_out (s : State) (a v : Nat) : (s.wr a v).out = s.out := rfl
@[simp] theorem State.wr_free (s : State) (a v : Nat) : (s.wr a v).free = s.free := rfl
@[simp] theorem State.wr_tk (s : State) (a v : Nat) : (s.wr a v).tk = s.tk := rfl
@[simp] theorem State.wr_cm (s : State) (a v : Nat) : (s.wr a v).cm = s.cm := rfl
@[simp] theorem State.wr_d2 (s : State) (a v : Nat) : (s.wr a v).d2 = s.d2 := rfl
@[simp] theorem State.wr_pcie0 (s : State) (a v : Nat) : (s.wr a v).pcie0 = s.pcie0 := rfl
@[simp] theorem State.wr_pcie1 (s : State) (a v : Nat) : (s.wr a v).pcie1 = s.pcie1 := rfl
@[simp] theorem State.wr_lg (s : State) (a v : Nat) : (s.wr a v).lg = s.lg := rfl
@[simp] theorem State.wr_ptp (s : State) (a v : Nat) : (s.wr a v).ptp = s.ptp := rfl
@[simp] theorem State.wr_irqHeld (s : State) (a v : Nat) : (s.wr a v).irqHeld = s.irqHeld := rfl
@[simp] theorem State.wr_ringDue (s : State) (a v : Nat) : (s.wr a v).ringDue = s.ringDue := rfl
@[simp] theorem State.wr_ports (s : State) (a v : Nat) : (s.wr a v).ports = s.ports := rfl
@[simp] theorem State.wr_macQ (s : State) (a v : Nat) : (s.wr a v).macQ = s.macQ := rfl
@[simp] theorem State.wr_flexe (s : State) (a v : Nat) : (s.wr a v).flexe = s.flexe := rfl
@[simp] theorem State.wr_slices (s : State) (a v : Nat) : (s.wr a v).slices = s.slices := rfl
@[simp] theorem State.wr_moveIn (s : State) (a v : Nat) : (s.wr a v).moveIn = s.moveIn := rfl
@[simp] theorem State.wr_moveEg (s : State) (a v : Nat) : (s.wr a v).moveEg = s.moveEg := rfl
@[simp] theorem State.wr_evacIn (s : State) (a v : Nat) : (s.wr a v).evacIn = s.evacIn := rfl
@[simp] theorem State.wr_evacEg (s : State) (a v : Nat) : (s.wr a v).evacEg = s.evacEg := rfl
@[simp] theorem State.wr_admQ (s : State) (a v : Nat) : (s.wr a v).admQ = s.admQ := rfl
@[simp] theorem State.wr_macTx (s : State) (a v : Nat) : (s.wr a v).macTx = s.macTx := rfl
@[simp] theorem State.wr_classLog (s : State) (a v : Nat) : (s.wr a v).classLog = s.classLog := rfl
@[simp] theorem State.wr_classWalk (s : State) (a v : Nat) : (s.wr a v).classWalk = s.classWalk := rfl
@[simp] theorem State.wr_terrLog (s : State) (a v : Nat) : (s.wr a v).terrLog = s.terrLog := rfl
@[simp] theorem State.wr_terrWalk (s : State) (a v : Nat) : (s.wr a v).terrWalk = s.terrWalk := rfl
@[simp] theorem State.wr_liveClr (s : State) (a v : Nat) : (s.wr a v).liveClr = s.liveClr := rfl
@[simp] theorem State.wr_ln (s : State) (a v : Nat) : (s.wr a v).ln = s.ln := rfl
@[simp] theorem State.wr_apCtx (s : State) (a v : Nat) : (s.wr a v).apCtx = s.apCtx := rfl
@[simp] theorem State.wr_apThr (s : State) (a v : Nat) : (s.wr a v).apThr = s.apThr := rfl
@[simp] theorem State.wr_apSup (s : State) (a v : Nat) : (s.wr a v).apSup = s.apSup := rfl
@[simp] theorem State.wr_locks (s : State) (a v : Nat) : (s.wr a v).locks = s.locks := rfl
@[simp] theorem State.wr_chans (s : State) (a v : Nat) : (s.wr a v).chans = s.chans := rfl
@[simp] theorem State.wr_apProt (s : State) (a v : Nat) : (s.wr a v).apProt = s.apProt := rfl
@[simp] theorem State.wr_voqs (s : State) (a v : Nat) : (s.wr a v).voqs = s.voqs := rfl
@[simp] theorem State.wr_pols (s : State) (a v : Nat) : (s.wr a v).pols = s.pols := rfl
@[simp] theorem State.wr_bf (s : State) (a v : Nat) : (s.wr a v).bf = s.bf := rfl
@[simp] theorem State.wr_eg (s : State) (a v : Nat) : (s.wr a v).eg = s.eg := rfl
@[simp] theorem State.wr_fab (s : State) (a v : Nat) : (s.wr a v).fab = s.fab := rfl
@[simp] theorem State.wr_hb (s : State) (a v : Nat) : (s.wr a v).hb = s.hb := rfl
@[simp] theorem State.wr_hbm (s : State) (a v : Nat) : (s.wr a v).hbm = s.hbm := rfl
@[simp] theorem State.wr_te (s : State) (a v : Nat) : (s.wr a v).te = s.te := rfl
@[simp] theorem State.wr_sv (s : State) (a v : Nat) : (s.wr a v).sv = s.sv := rfl
@[simp] theorem State.wr_up (s : State) (a v : Nat) : (s.wr a v).up = s.up := rfl
@[simp] theorem State.wr_rings (s : State) (a v : Nat) : (s.wr a v).rings = s.rings := rfl
@[simp] theorem State.wr_pw (s : State) (a v : Nat) : (s.wr a v).pw = s.pw := rfl
@[simp] theorem State.wr_tblRun (s : State) (a v : Nat) : (s.wr a v).tblRun = s.tblRun := rfl
@[simp] theorem State.wr_refill (s : State) (a v : Nat) : (s.wr a v).refill = s.refill := rfl
@[simp] theorem State.wr_softWait (s : State) (a v : Nat) : (s.wr a v).softWait = s.softWait := rfl
@[simp] theorem State.wr_pending (s : State) (a v : Nat) : (s.wr a v).pending = s.pending := rfl

@[simp] theorem State.setF_ra (s : State) (a : Nat) (fl : Fld) (x : Nat) : (s.setF a fl x).ra = s.ra := rfl
@[simp] theorem State.setF_part (s : State) (a : Nat) (fl : Fld) (x : Nat) : (s.setF a fl x).part = s.part := rfl
@[simp] theorem State.setF_shadows (s : State) (a : Nat) (fl : Fld) (x : Nat) : (s.setF a fl x).shadows = s.shadows := rfl
@[simp] theorem State.setF_prevSt (s : State) (a : Nat) (fl : Fld) (x : Nat) : (s.setF a fl x).prevSt = s.prevSt := rfl
@[simp] theorem State.setF_tblPending (s : State) (a : Nat) (fl : Fld) (x : Nat) : (s.setF a fl x).tblPending = s.tblPending := rfl
@[simp] theorem State.setF_hiLatch (s : State) (a : Nat) (fl : Fld) (x : Nat) : (s.setF a fl x).hiLatch = s.hiLatch := rfl
@[simp] theorem State.setF_loHeld (s : State) (a : Nat) (fl : Fld) (x : Nat) : (s.setF a fl x).loHeld = s.loHeld := rfl
@[simp] theorem State.setF_tbls (s : State) (a : Nat) (fl : Fld) (x : Nat) : (s.setF a fl x).tbls = s.tbls := rfl
@[simp] theorem State.setF_marks (s : State) (a : Nat) (fl : Fld) (x : Nat) : (s.setF a fl x).marks = s.marks := rfl
@[simp] theorem State.setF_rsp (s : State) (a : Nat) (fl : Fld) (x : Nat) : (s.setF a fl x).rsp = s.rsp := rfl
@[simp] theorem State.setF_out (s : State) (a : Nat) (fl : Fld) (x : Nat) : (s.setF a fl x).out = s.out := rfl
@[simp] theorem State.setF_free (s : State) (a : Nat) (fl : Fld) (x : Nat) : (s.setF a fl x).free = s.free := rfl
@[simp] theorem State.setF_tk (s : State) (a : Nat) (fl : Fld) (x : Nat) : (s.setF a fl x).tk = s.tk := rfl
@[simp] theorem State.setF_cm (s : State) (a : Nat) (fl : Fld) (x : Nat) : (s.setF a fl x).cm = s.cm := rfl
@[simp] theorem State.setF_d2 (s : State) (a : Nat) (fl : Fld) (x : Nat) : (s.setF a fl x).d2 = s.d2 := rfl
@[simp] theorem State.setF_pcie0 (s : State) (a : Nat) (fl : Fld) (x : Nat) : (s.setF a fl x).pcie0 = s.pcie0 := rfl
@[simp] theorem State.setF_pcie1 (s : State) (a : Nat) (fl : Fld) (x : Nat) : (s.setF a fl x).pcie1 = s.pcie1 := rfl
@[simp] theorem State.setF_lg (s : State) (a : Nat) (fl : Fld) (x : Nat) : (s.setF a fl x).lg = s.lg := rfl
@[simp] theorem State.setF_ptp (s : State) (a : Nat) (fl : Fld) (x : Nat) : (s.setF a fl x).ptp = s.ptp := rfl
@[simp] theorem State.setF_irqHeld (s : State) (a : Nat) (fl : Fld) (x : Nat) : (s.setF a fl x).irqHeld = s.irqHeld := rfl
@[simp] theorem State.setF_ringDue (s : State) (a : Nat) (fl : Fld) (x : Nat) : (s.setF a fl x).ringDue = s.ringDue := rfl
@[simp] theorem State.setF_ports (s : State) (a : Nat) (fl : Fld) (x : Nat) : (s.setF a fl x).ports = s.ports := rfl
@[simp] theorem State.setF_macQ (s : State) (a : Nat) (fl : Fld) (x : Nat) : (s.setF a fl x).macQ = s.macQ := rfl
@[simp] theorem State.setF_flexe (s : State) (a : Nat) (fl : Fld) (x : Nat) : (s.setF a fl x).flexe = s.flexe := rfl
@[simp] theorem State.setF_slices (s : State) (a : Nat) (fl : Fld) (x : Nat) : (s.setF a fl x).slices = s.slices := rfl
@[simp] theorem State.setF_moveIn (s : State) (a : Nat) (fl : Fld) (x : Nat) : (s.setF a fl x).moveIn = s.moveIn := rfl
@[simp] theorem State.setF_moveEg (s : State) (a : Nat) (fl : Fld) (x : Nat) : (s.setF a fl x).moveEg = s.moveEg := rfl
@[simp] theorem State.setF_evacIn (s : State) (a : Nat) (fl : Fld) (x : Nat) : (s.setF a fl x).evacIn = s.evacIn := rfl
@[simp] theorem State.setF_evacEg (s : State) (a : Nat) (fl : Fld) (x : Nat) : (s.setF a fl x).evacEg = s.evacEg := rfl
@[simp] theorem State.setF_admQ (s : State) (a : Nat) (fl : Fld) (x : Nat) : (s.setF a fl x).admQ = s.admQ := rfl
@[simp] theorem State.setF_macTx (s : State) (a : Nat) (fl : Fld) (x : Nat) : (s.setF a fl x).macTx = s.macTx := rfl
@[simp] theorem State.setF_classLog (s : State) (a : Nat) (fl : Fld) (x : Nat) : (s.setF a fl x).classLog = s.classLog := rfl
@[simp] theorem State.setF_classWalk (s : State) (a : Nat) (fl : Fld) (x : Nat) : (s.setF a fl x).classWalk = s.classWalk := rfl
@[simp] theorem State.setF_terrLog (s : State) (a : Nat) (fl : Fld) (x : Nat) : (s.setF a fl x).terrLog = s.terrLog := rfl
@[simp] theorem State.setF_terrWalk (s : State) (a : Nat) (fl : Fld) (x : Nat) : (s.setF a fl x).terrWalk = s.terrWalk := rfl
@[simp] theorem State.setF_liveClr (s : State) (a : Nat) (fl : Fld) (x : Nat) : (s.setF a fl x).liveClr = s.liveClr := rfl
@[simp] theorem State.setF_ln (s : State) (a : Nat) (fl : Fld) (x : Nat) : (s.setF a fl x).ln = s.ln := rfl
@[simp] theorem State.setF_apCtx (s : State) (a : Nat) (fl : Fld) (x : Nat) : (s.setF a fl x).apCtx = s.apCtx := rfl
@[simp] theorem State.setF_apThr (s : State) (a : Nat) (fl : Fld) (x : Nat) : (s.setF a fl x).apThr = s.apThr := rfl
@[simp] theorem State.setF_apSup (s : State) (a : Nat) (fl : Fld) (x : Nat) : (s.setF a fl x).apSup = s.apSup := rfl
@[simp] theorem State.setF_locks (s : State) (a : Nat) (fl : Fld) (x : Nat) : (s.setF a fl x).locks = s.locks := rfl
@[simp] theorem State.setF_chans (s : State) (a : Nat) (fl : Fld) (x : Nat) : (s.setF a fl x).chans = s.chans := rfl
@[simp] theorem State.setF_apProt (s : State) (a : Nat) (fl : Fld) (x : Nat) : (s.setF a fl x).apProt = s.apProt := rfl
@[simp] theorem State.setF_voqs (s : State) (a : Nat) (fl : Fld) (x : Nat) : (s.setF a fl x).voqs = s.voqs := rfl
@[simp] theorem State.setF_pols (s : State) (a : Nat) (fl : Fld) (x : Nat) : (s.setF a fl x).pols = s.pols := rfl
@[simp] theorem State.setF_bf (s : State) (a : Nat) (fl : Fld) (x : Nat) : (s.setF a fl x).bf = s.bf := rfl
@[simp] theorem State.setF_eg (s : State) (a : Nat) (fl : Fld) (x : Nat) : (s.setF a fl x).eg = s.eg := rfl
@[simp] theorem State.setF_fab (s : State) (a : Nat) (fl : Fld) (x : Nat) : (s.setF a fl x).fab = s.fab := rfl
@[simp] theorem State.setF_hb (s : State) (a : Nat) (fl : Fld) (x : Nat) : (s.setF a fl x).hb = s.hb := rfl
@[simp] theorem State.setF_hbm (s : State) (a : Nat) (fl : Fld) (x : Nat) : (s.setF a fl x).hbm = s.hbm := rfl
@[simp] theorem State.setF_te (s : State) (a : Nat) (fl : Fld) (x : Nat) : (s.setF a fl x).te = s.te := rfl
@[simp] theorem State.setF_sv (s : State) (a : Nat) (fl : Fld) (x : Nat) : (s.setF a fl x).sv = s.sv := rfl
@[simp] theorem State.setF_up (s : State) (a : Nat) (fl : Fld) (x : Nat) : (s.setF a fl x).up = s.up := rfl
@[simp] theorem State.setF_rings (s : State) (a : Nat) (fl : Fld) (x : Nat) : (s.setF a fl x).rings = s.rings := rfl
@[simp] theorem State.setF_pw (s : State) (a : Nat) (fl : Fld) (x : Nat) : (s.setF a fl x).pw = s.pw := rfl
@[simp] theorem State.setF_tblRun (s : State) (a : Nat) (fl : Fld) (x : Nat) : (s.setF a fl x).tblRun = s.tblRun := rfl
@[simp] theorem State.setF_refill (s : State) (a : Nat) (fl : Fld) (x : Nat) : (s.setF a fl x).refill = s.refill := rfl
@[simp] theorem State.setF_softWait (s : State) (a : Nat) (fl : Fld) (x : Nat) : (s.setF a fl x).softWait = s.softWait := rfl
@[simp] theorem State.setF_pending (s : State) (a : Nat) (fl : Fld) (x : Nat) : (s.setF a fl x).pending = s.pending := rfl

@[simp] theorem State.wr64_ra (s : State) (a v : Nat) : (s.wr64 a v).ra = s.ra := rfl
@[simp] theorem State.wr64_part (s : State) (a v : Nat) : (s.wr64 a v).part = s.part := rfl
@[simp] theorem State.wr64_shadows (s : State) (a v : Nat) : (s.wr64 a v).shadows = s.shadows := rfl
@[simp] theorem State.wr64_prevSt (s : State) (a v : Nat) : (s.wr64 a v).prevSt = s.prevSt := rfl
@[simp] theorem State.wr64_tblPending (s : State) (a v : Nat) : (s.wr64 a v).tblPending = s.tblPending := rfl
@[simp] theorem State.wr64_hiLatch (s : State) (a v : Nat) : (s.wr64 a v).hiLatch = s.hiLatch := rfl
@[simp] theorem State.wr64_loHeld (s : State) (a v : Nat) : (s.wr64 a v).loHeld = s.loHeld := rfl
@[simp] theorem State.wr64_tbls (s : State) (a v : Nat) : (s.wr64 a v).tbls = s.tbls := rfl
@[simp] theorem State.wr64_marks (s : State) (a v : Nat) : (s.wr64 a v).marks = s.marks := rfl
@[simp] theorem State.wr64_rsp (s : State) (a v : Nat) : (s.wr64 a v).rsp = s.rsp := rfl
@[simp] theorem State.wr64_out (s : State) (a v : Nat) : (s.wr64 a v).out = s.out := rfl
@[simp] theorem State.wr64_free (s : State) (a v : Nat) : (s.wr64 a v).free = s.free := rfl
@[simp] theorem State.wr64_tk (s : State) (a v : Nat) : (s.wr64 a v).tk = s.tk := rfl
@[simp] theorem State.wr64_cm (s : State) (a v : Nat) : (s.wr64 a v).cm = s.cm := rfl
@[simp] theorem State.wr64_d2 (s : State) (a v : Nat) : (s.wr64 a v).d2 = s.d2 := rfl
@[simp] theorem State.wr64_pcie0 (s : State) (a v : Nat) : (s.wr64 a v).pcie0 = s.pcie0 := rfl
@[simp] theorem State.wr64_pcie1 (s : State) (a v : Nat) : (s.wr64 a v).pcie1 = s.pcie1 := rfl
@[simp] theorem State.wr64_lg (s : State) (a v : Nat) : (s.wr64 a v).lg = s.lg := rfl
@[simp] theorem State.wr64_ptp (s : State) (a v : Nat) : (s.wr64 a v).ptp = s.ptp := rfl
@[simp] theorem State.wr64_irqHeld (s : State) (a v : Nat) : (s.wr64 a v).irqHeld = s.irqHeld := rfl
@[simp] theorem State.wr64_ringDue (s : State) (a v : Nat) : (s.wr64 a v).ringDue = s.ringDue := rfl
@[simp] theorem State.wr64_ports (s : State) (a v : Nat) : (s.wr64 a v).ports = s.ports := rfl
@[simp] theorem State.wr64_macQ (s : State) (a v : Nat) : (s.wr64 a v).macQ = s.macQ := rfl
@[simp] theorem State.wr64_flexe (s : State) (a v : Nat) : (s.wr64 a v).flexe = s.flexe := rfl
@[simp] theorem State.wr64_slices (s : State) (a v : Nat) : (s.wr64 a v).slices = s.slices := rfl
@[simp] theorem State.wr64_moveIn (s : State) (a v : Nat) : (s.wr64 a v).moveIn = s.moveIn := rfl
@[simp] theorem State.wr64_moveEg (s : State) (a v : Nat) : (s.wr64 a v).moveEg = s.moveEg := rfl
@[simp] theorem State.wr64_evacIn (s : State) (a v : Nat) : (s.wr64 a v).evacIn = s.evacIn := rfl
@[simp] theorem State.wr64_evacEg (s : State) (a v : Nat) : (s.wr64 a v).evacEg = s.evacEg := rfl
@[simp] theorem State.wr64_admQ (s : State) (a v : Nat) : (s.wr64 a v).admQ = s.admQ := rfl
@[simp] theorem State.wr64_macTx (s : State) (a v : Nat) : (s.wr64 a v).macTx = s.macTx := rfl
@[simp] theorem State.wr64_classLog (s : State) (a v : Nat) : (s.wr64 a v).classLog = s.classLog := rfl
@[simp] theorem State.wr64_classWalk (s : State) (a v : Nat) : (s.wr64 a v).classWalk = s.classWalk := rfl
@[simp] theorem State.wr64_terrLog (s : State) (a v : Nat) : (s.wr64 a v).terrLog = s.terrLog := rfl
@[simp] theorem State.wr64_terrWalk (s : State) (a v : Nat) : (s.wr64 a v).terrWalk = s.terrWalk := rfl
@[simp] theorem State.wr64_liveClr (s : State) (a v : Nat) : (s.wr64 a v).liveClr = s.liveClr := rfl
@[simp] theorem State.wr64_ln (s : State) (a v : Nat) : (s.wr64 a v).ln = s.ln := rfl
@[simp] theorem State.wr64_apCtx (s : State) (a v : Nat) : (s.wr64 a v).apCtx = s.apCtx := rfl
@[simp] theorem State.wr64_apThr (s : State) (a v : Nat) : (s.wr64 a v).apThr = s.apThr := rfl
@[simp] theorem State.wr64_apSup (s : State) (a v : Nat) : (s.wr64 a v).apSup = s.apSup := rfl
@[simp] theorem State.wr64_locks (s : State) (a v : Nat) : (s.wr64 a v).locks = s.locks := rfl
@[simp] theorem State.wr64_chans (s : State) (a v : Nat) : (s.wr64 a v).chans = s.chans := rfl
@[simp] theorem State.wr64_apProt (s : State) (a v : Nat) : (s.wr64 a v).apProt = s.apProt := rfl
@[simp] theorem State.wr64_voqs (s : State) (a v : Nat) : (s.wr64 a v).voqs = s.voqs := rfl
@[simp] theorem State.wr64_pols (s : State) (a v : Nat) : (s.wr64 a v).pols = s.pols := rfl
@[simp] theorem State.wr64_bf (s : State) (a v : Nat) : (s.wr64 a v).bf = s.bf := rfl
@[simp] theorem State.wr64_eg (s : State) (a v : Nat) : (s.wr64 a v).eg = s.eg := rfl
@[simp] theorem State.wr64_fab (s : State) (a v : Nat) : (s.wr64 a v).fab = s.fab := rfl
@[simp] theorem State.wr64_hb (s : State) (a v : Nat) : (s.wr64 a v).hb = s.hb := rfl
@[simp] theorem State.wr64_hbm (s : State) (a v : Nat) : (s.wr64 a v).hbm = s.hbm := rfl
@[simp] theorem State.wr64_te (s : State) (a v : Nat) : (s.wr64 a v).te = s.te := rfl
@[simp] theorem State.wr64_sv (s : State) (a v : Nat) : (s.wr64 a v).sv = s.sv := rfl
@[simp] theorem State.wr64_up (s : State) (a v : Nat) : (s.wr64 a v).up = s.up := rfl
@[simp] theorem State.wr64_rings (s : State) (a v : Nat) : (s.wr64 a v).rings = s.rings := rfl
@[simp] theorem State.wr64_pw (s : State) (a v : Nat) : (s.wr64 a v).pw = s.pw := rfl
@[simp] theorem State.wr64_tblRun (s : State) (a v : Nat) : (s.wr64 a v).tblRun = s.tblRun := rfl
@[simp] theorem State.wr64_refill (s : State) (a v : Nat) : (s.wr64 a v).refill = s.refill := rfl
@[simp] theorem State.wr64_softWait (s : State) (a v : Nat) : (s.wr64 a v).softWait = s.softWait := rfl
@[simp] theorem State.wr64_pending (s : State) (a v : Nat) : (s.wr64 a v).pending = s.pending := rfl

@[simp] theorem State.setTbl_ra (s : State) (pg t i v : Nat) : (s.setTbl pg t i v).ra = s.ra := rfl
@[simp] theorem State.setTbl_part (s : State) (pg t i v : Nat) : (s.setTbl pg t i v).part = s.part := rfl
@[simp] theorem State.setTbl_regs (s : State) (pg t i v : Nat) : (s.setTbl pg t i v).regs = s.regs := rfl
@[simp] theorem State.setTbl_shadows (s : State) (pg t i v : Nat) : (s.setTbl pg t i v).shadows = s.shadows := rfl
@[simp] theorem State.setTbl_prevSt (s : State) (pg t i v : Nat) : (s.setTbl pg t i v).prevSt = s.prevSt := rfl
@[simp] theorem State.setTbl_tblPending (s : State) (pg t i v : Nat) : (s.setTbl pg t i v).tblPending = s.tblPending := rfl
@[simp] theorem State.setTbl_hiLatch (s : State) (pg t i v : Nat) : (s.setTbl pg t i v).hiLatch = s.hiLatch := rfl
@[simp] theorem State.setTbl_loHeld (s : State) (pg t i v : Nat) : (s.setTbl pg t i v).loHeld = s.loHeld := rfl
@[simp] theorem State.setTbl_marks (s : State) (pg t i v : Nat) : (s.setTbl pg t i v).marks = s.marks := rfl
@[simp] theorem State.setTbl_rsp (s : State) (pg t i v : Nat) : (s.setTbl pg t i v).rsp = s.rsp := rfl
@[simp] theorem State.setTbl_out (s : State) (pg t i v : Nat) : (s.setTbl pg t i v).out = s.out := rfl
@[simp] theorem State.setTbl_free (s : State) (pg t i v : Nat) : (s.setTbl pg t i v).free = s.free := rfl
@[simp] theorem State.setTbl_tk (s : State) (pg t i v : Nat) : (s.setTbl pg t i v).tk = s.tk := rfl
@[simp] theorem State.setTbl_cm (s : State) (pg t i v : Nat) : (s.setTbl pg t i v).cm = s.cm := rfl
@[simp] theorem State.setTbl_d2 (s : State) (pg t i v : Nat) : (s.setTbl pg t i v).d2 = s.d2 := rfl
@[simp] theorem State.setTbl_pcie0 (s : State) (pg t i v : Nat) : (s.setTbl pg t i v).pcie0 = s.pcie0 := rfl
@[simp] theorem State.setTbl_pcie1 (s : State) (pg t i v : Nat) : (s.setTbl pg t i v).pcie1 = s.pcie1 := rfl
@[simp] theorem State.setTbl_lg (s : State) (pg t i v : Nat) : (s.setTbl pg t i v).lg = s.lg := rfl
@[simp] theorem State.setTbl_ptp (s : State) (pg t i v : Nat) : (s.setTbl pg t i v).ptp = s.ptp := rfl
@[simp] theorem State.setTbl_irqHeld (s : State) (pg t i v : Nat) : (s.setTbl pg t i v).irqHeld = s.irqHeld := rfl
@[simp] theorem State.setTbl_ringDue (s : State) (pg t i v : Nat) : (s.setTbl pg t i v).ringDue = s.ringDue := rfl
@[simp] theorem State.setTbl_ports (s : State) (pg t i v : Nat) : (s.setTbl pg t i v).ports = s.ports := rfl
@[simp] theorem State.setTbl_macQ (s : State) (pg t i v : Nat) : (s.setTbl pg t i v).macQ = s.macQ := rfl
@[simp] theorem State.setTbl_flexe (s : State) (pg t i v : Nat) : (s.setTbl pg t i v).flexe = s.flexe := rfl
@[simp] theorem State.setTbl_slices (s : State) (pg t i v : Nat) : (s.setTbl pg t i v).slices = s.slices := rfl
@[simp] theorem State.setTbl_moveIn (s : State) (pg t i v : Nat) : (s.setTbl pg t i v).moveIn = s.moveIn := rfl
@[simp] theorem State.setTbl_moveEg (s : State) (pg t i v : Nat) : (s.setTbl pg t i v).moveEg = s.moveEg := rfl
@[simp] theorem State.setTbl_evacIn (s : State) (pg t i v : Nat) : (s.setTbl pg t i v).evacIn = s.evacIn := rfl
@[simp] theorem State.setTbl_evacEg (s : State) (pg t i v : Nat) : (s.setTbl pg t i v).evacEg = s.evacEg := rfl
@[simp] theorem State.setTbl_admQ (s : State) (pg t i v : Nat) : (s.setTbl pg t i v).admQ = s.admQ := rfl
@[simp] theorem State.setTbl_macTx (s : State) (pg t i v : Nat) : (s.setTbl pg t i v).macTx = s.macTx := rfl
@[simp] theorem State.setTbl_classLog (s : State) (pg t i v : Nat) : (s.setTbl pg t i v).classLog = s.classLog := rfl
@[simp] theorem State.setTbl_classWalk (s : State) (pg t i v : Nat) : (s.setTbl pg t i v).classWalk = s.classWalk := rfl
@[simp] theorem State.setTbl_terrLog (s : State) (pg t i v : Nat) : (s.setTbl pg t i v).terrLog = s.terrLog := rfl
@[simp] theorem State.setTbl_terrWalk (s : State) (pg t i v : Nat) : (s.setTbl pg t i v).terrWalk = s.terrWalk := rfl
@[simp] theorem State.setTbl_liveClr (s : State) (pg t i v : Nat) : (s.setTbl pg t i v).liveClr = s.liveClr := rfl
@[simp] theorem State.setTbl_ln (s : State) (pg t i v : Nat) : (s.setTbl pg t i v).ln = s.ln := rfl
@[simp] theorem State.setTbl_apCtx (s : State) (pg t i v : Nat) : (s.setTbl pg t i v).apCtx = s.apCtx := rfl
@[simp] theorem State.setTbl_apThr (s : State) (pg t i v : Nat) : (s.setTbl pg t i v).apThr = s.apThr := rfl
@[simp] theorem State.setTbl_apSup (s : State) (pg t i v : Nat) : (s.setTbl pg t i v).apSup = s.apSup := rfl
@[simp] theorem State.setTbl_locks (s : State) (pg t i v : Nat) : (s.setTbl pg t i v).locks = s.locks := rfl
@[simp] theorem State.setTbl_chans (s : State) (pg t i v : Nat) : (s.setTbl pg t i v).chans = s.chans := rfl
@[simp] theorem State.setTbl_apProt (s : State) (pg t i v : Nat) : (s.setTbl pg t i v).apProt = s.apProt := rfl
@[simp] theorem State.setTbl_voqs (s : State) (pg t i v : Nat) : (s.setTbl pg t i v).voqs = s.voqs := rfl
@[simp] theorem State.setTbl_pols (s : State) (pg t i v : Nat) : (s.setTbl pg t i v).pols = s.pols := rfl
@[simp] theorem State.setTbl_bf (s : State) (pg t i v : Nat) : (s.setTbl pg t i v).bf = s.bf := rfl
@[simp] theorem State.setTbl_eg (s : State) (pg t i v : Nat) : (s.setTbl pg t i v).eg = s.eg := rfl
@[simp] theorem State.setTbl_fab (s : State) (pg t i v : Nat) : (s.setTbl pg t i v).fab = s.fab := rfl
@[simp] theorem State.setTbl_hb (s : State) (pg t i v : Nat) : (s.setTbl pg t i v).hb = s.hb := rfl
@[simp] theorem State.setTbl_hbm (s : State) (pg t i v : Nat) : (s.setTbl pg t i v).hbm = s.hbm := rfl
@[simp] theorem State.setTbl_te (s : State) (pg t i v : Nat) : (s.setTbl pg t i v).te = s.te := rfl
@[simp] theorem State.setTbl_sv (s : State) (pg t i v : Nat) : (s.setTbl pg t i v).sv = s.sv := rfl
@[simp] theorem State.setTbl_up (s : State) (pg t i v : Nat) : (s.setTbl pg t i v).up = s.up := rfl
@[simp] theorem State.setTbl_rings (s : State) (pg t i v : Nat) : (s.setTbl pg t i v).rings = s.rings := rfl
@[simp] theorem State.setTbl_pw (s : State) (pg t i v : Nat) : (s.setTbl pg t i v).pw = s.pw := rfl
@[simp] theorem State.setTbl_tblRun (s : State) (pg t i v : Nat) : (s.setTbl pg t i v).tblRun = s.tblRun := rfl
@[simp] theorem State.setTbl_refill (s : State) (pg t i v : Nat) : (s.setTbl pg t i v).refill = s.refill := rfl
@[simp] theorem State.setTbl_softWait (s : State) (pg t i v : Nat) : (s.setTbl pg t i v).softWait = s.softWait := rfl
@[simp] theorem State.setTbl_pending (s : State) (pg t i v : Nat) : (s.setTbl pg t i v).pending = s.pending := rfl

@[simp] theorem State.setTf_ra (s : State) (pg t i lo w x : Nat) : (s.setTf pg t i lo w x).ra = s.ra := rfl
@[simp] theorem State.setTf_part (s : State) (pg t i lo w x : Nat) : (s.setTf pg t i lo w x).part = s.part := rfl
@[simp] theorem State.setTf_regs (s : State) (pg t i lo w x : Nat) : (s.setTf pg t i lo w x).regs = s.regs := rfl
@[simp] theorem State.setTf_shadows (s : State) (pg t i lo w x : Nat) : (s.setTf pg t i lo w x).shadows = s.shadows := rfl
@[simp] theorem State.setTf_prevSt (s : State) (pg t i lo w x : Nat) : (s.setTf pg t i lo w x).prevSt = s.prevSt := rfl
@[simp] theorem State.setTf_tblPending (s : State) (pg t i lo w x : Nat) : (s.setTf pg t i lo w x).tblPending = s.tblPending := rfl
@[simp] theorem State.setTf_hiLatch (s : State) (pg t i lo w x : Nat) : (s.setTf pg t i lo w x).hiLatch = s.hiLatch := rfl
@[simp] theorem State.setTf_loHeld (s : State) (pg t i lo w x : Nat) : (s.setTf pg t i lo w x).loHeld = s.loHeld := rfl
@[simp] theorem State.setTf_marks (s : State) (pg t i lo w x : Nat) : (s.setTf pg t i lo w x).marks = s.marks := rfl
@[simp] theorem State.setTf_rsp (s : State) (pg t i lo w x : Nat) : (s.setTf pg t i lo w x).rsp = s.rsp := rfl
@[simp] theorem State.setTf_out (s : State) (pg t i lo w x : Nat) : (s.setTf pg t i lo w x).out = s.out := rfl
@[simp] theorem State.setTf_free (s : State) (pg t i lo w x : Nat) : (s.setTf pg t i lo w x).free = s.free := rfl
@[simp] theorem State.setTf_tk (s : State) (pg t i lo w x : Nat) : (s.setTf pg t i lo w x).tk = s.tk := rfl
@[simp] theorem State.setTf_cm (s : State) (pg t i lo w x : Nat) : (s.setTf pg t i lo w x).cm = s.cm := rfl
@[simp] theorem State.setTf_d2 (s : State) (pg t i lo w x : Nat) : (s.setTf pg t i lo w x).d2 = s.d2 := rfl
@[simp] theorem State.setTf_pcie0 (s : State) (pg t i lo w x : Nat) : (s.setTf pg t i lo w x).pcie0 = s.pcie0 := rfl
@[simp] theorem State.setTf_pcie1 (s : State) (pg t i lo w x : Nat) : (s.setTf pg t i lo w x).pcie1 = s.pcie1 := rfl
@[simp] theorem State.setTf_lg (s : State) (pg t i lo w x : Nat) : (s.setTf pg t i lo w x).lg = s.lg := rfl
@[simp] theorem State.setTf_ptp (s : State) (pg t i lo w x : Nat) : (s.setTf pg t i lo w x).ptp = s.ptp := rfl
@[simp] theorem State.setTf_irqHeld (s : State) (pg t i lo w x : Nat) : (s.setTf pg t i lo w x).irqHeld = s.irqHeld := rfl
@[simp] theorem State.setTf_ringDue (s : State) (pg t i lo w x : Nat) : (s.setTf pg t i lo w x).ringDue = s.ringDue := rfl
@[simp] theorem State.setTf_ports (s : State) (pg t i lo w x : Nat) : (s.setTf pg t i lo w x).ports = s.ports := rfl
@[simp] theorem State.setTf_macQ (s : State) (pg t i lo w x : Nat) : (s.setTf pg t i lo w x).macQ = s.macQ := rfl
@[simp] theorem State.setTf_flexe (s : State) (pg t i lo w x : Nat) : (s.setTf pg t i lo w x).flexe = s.flexe := rfl
@[simp] theorem State.setTf_slices (s : State) (pg t i lo w x : Nat) : (s.setTf pg t i lo w x).slices = s.slices := rfl
@[simp] theorem State.setTf_moveIn (s : State) (pg t i lo w x : Nat) : (s.setTf pg t i lo w x).moveIn = s.moveIn := rfl
@[simp] theorem State.setTf_moveEg (s : State) (pg t i lo w x : Nat) : (s.setTf pg t i lo w x).moveEg = s.moveEg := rfl
@[simp] theorem State.setTf_evacIn (s : State) (pg t i lo w x : Nat) : (s.setTf pg t i lo w x).evacIn = s.evacIn := rfl
@[simp] theorem State.setTf_evacEg (s : State) (pg t i lo w x : Nat) : (s.setTf pg t i lo w x).evacEg = s.evacEg := rfl
@[simp] theorem State.setTf_admQ (s : State) (pg t i lo w x : Nat) : (s.setTf pg t i lo w x).admQ = s.admQ := rfl
@[simp] theorem State.setTf_macTx (s : State) (pg t i lo w x : Nat) : (s.setTf pg t i lo w x).macTx = s.macTx := rfl
@[simp] theorem State.setTf_classLog (s : State) (pg t i lo w x : Nat) : (s.setTf pg t i lo w x).classLog = s.classLog := rfl
@[simp] theorem State.setTf_classWalk (s : State) (pg t i lo w x : Nat) : (s.setTf pg t i lo w x).classWalk = s.classWalk := rfl
@[simp] theorem State.setTf_terrLog (s : State) (pg t i lo w x : Nat) : (s.setTf pg t i lo w x).terrLog = s.terrLog := rfl
@[simp] theorem State.setTf_terrWalk (s : State) (pg t i lo w x : Nat) : (s.setTf pg t i lo w x).terrWalk = s.terrWalk := rfl
@[simp] theorem State.setTf_liveClr (s : State) (pg t i lo w x : Nat) : (s.setTf pg t i lo w x).liveClr = s.liveClr := rfl
@[simp] theorem State.setTf_ln (s : State) (pg t i lo w x : Nat) : (s.setTf pg t i lo w x).ln = s.ln := rfl
@[simp] theorem State.setTf_apCtx (s : State) (pg t i lo w x : Nat) : (s.setTf pg t i lo w x).apCtx = s.apCtx := rfl
@[simp] theorem State.setTf_apThr (s : State) (pg t i lo w x : Nat) : (s.setTf pg t i lo w x).apThr = s.apThr := rfl
@[simp] theorem State.setTf_apSup (s : State) (pg t i lo w x : Nat) : (s.setTf pg t i lo w x).apSup = s.apSup := rfl
@[simp] theorem State.setTf_locks (s : State) (pg t i lo w x : Nat) : (s.setTf pg t i lo w x).locks = s.locks := rfl
@[simp] theorem State.setTf_chans (s : State) (pg t i lo w x : Nat) : (s.setTf pg t i lo w x).chans = s.chans := rfl
@[simp] theorem State.setTf_apProt (s : State) (pg t i lo w x : Nat) : (s.setTf pg t i lo w x).apProt = s.apProt := rfl
@[simp] theorem State.setTf_voqs (s : State) (pg t i lo w x : Nat) : (s.setTf pg t i lo w x).voqs = s.voqs := rfl
@[simp] theorem State.setTf_pols (s : State) (pg t i lo w x : Nat) : (s.setTf pg t i lo w x).pols = s.pols := rfl
@[simp] theorem State.setTf_bf (s : State) (pg t i lo w x : Nat) : (s.setTf pg t i lo w x).bf = s.bf := rfl
@[simp] theorem State.setTf_eg (s : State) (pg t i lo w x : Nat) : (s.setTf pg t i lo w x).eg = s.eg := rfl
@[simp] theorem State.setTf_fab (s : State) (pg t i lo w x : Nat) : (s.setTf pg t i lo w x).fab = s.fab := rfl
@[simp] theorem State.setTf_hb (s : State) (pg t i lo w x : Nat) : (s.setTf pg t i lo w x).hb = s.hb := rfl
@[simp] theorem State.setTf_hbm (s : State) (pg t i lo w x : Nat) : (s.setTf pg t i lo w x).hbm = s.hbm := rfl
@[simp] theorem State.setTf_te (s : State) (pg t i lo w x : Nat) : (s.setTf pg t i lo w x).te = s.te := rfl
@[simp] theorem State.setTf_sv (s : State) (pg t i lo w x : Nat) : (s.setTf pg t i lo w x).sv = s.sv := rfl
@[simp] theorem State.setTf_up (s : State) (pg t i lo w x : Nat) : (s.setTf pg t i lo w x).up = s.up := rfl
@[simp] theorem State.setTf_rings (s : State) (pg t i lo w x : Nat) : (s.setTf pg t i lo w x).rings = s.rings := rfl
@[simp] theorem State.setTf_pw (s : State) (pg t i lo w x : Nat) : (s.setTf pg t i lo w x).pw = s.pw := rfl
@[simp] theorem State.setTf_tblRun (s : State) (pg t i lo w x : Nat) : (s.setTf pg t i lo w x).tblRun = s.tblRun := rfl
@[simp] theorem State.setTf_refill (s : State) (pg t i lo w x : Nat) : (s.setTf pg t i lo w x).refill = s.refill := rfl
@[simp] theorem State.setTf_softWait (s : State) (pg t i lo w x : Nat) : (s.setTf pg t i lo w x).softWait = s.softWait := rfl
@[simp] theorem State.setTf_pending (s : State) (pg t i lo w x : Nat) : (s.setTf pg t i lo w x).pending = s.pending := rfl

@[simp] theorem State.clrTbl_ra (s : State) (pg t i n : Nat) : (s.clrTbl pg t i n).ra = s.ra := rfl
@[simp] theorem State.clrTbl_part (s : State) (pg t i n : Nat) : (s.clrTbl pg t i n).part = s.part := rfl
@[simp] theorem State.clrTbl_regs (s : State) (pg t i n : Nat) : (s.clrTbl pg t i n).regs = s.regs := rfl
@[simp] theorem State.clrTbl_shadows (s : State) (pg t i n : Nat) : (s.clrTbl pg t i n).shadows = s.shadows := rfl
@[simp] theorem State.clrTbl_prevSt (s : State) (pg t i n : Nat) : (s.clrTbl pg t i n).prevSt = s.prevSt := rfl
@[simp] theorem State.clrTbl_tblPending (s : State) (pg t i n : Nat) : (s.clrTbl pg t i n).tblPending = s.tblPending := rfl
@[simp] theorem State.clrTbl_hiLatch (s : State) (pg t i n : Nat) : (s.clrTbl pg t i n).hiLatch = s.hiLatch := rfl
@[simp] theorem State.clrTbl_loHeld (s : State) (pg t i n : Nat) : (s.clrTbl pg t i n).loHeld = s.loHeld := rfl
@[simp] theorem State.clrTbl_marks (s : State) (pg t i n : Nat) : (s.clrTbl pg t i n).marks = s.marks := rfl
@[simp] theorem State.clrTbl_rsp (s : State) (pg t i n : Nat) : (s.clrTbl pg t i n).rsp = s.rsp := rfl
@[simp] theorem State.clrTbl_out (s : State) (pg t i n : Nat) : (s.clrTbl pg t i n).out = s.out := rfl
@[simp] theorem State.clrTbl_free (s : State) (pg t i n : Nat) : (s.clrTbl pg t i n).free = s.free := rfl
@[simp] theorem State.clrTbl_tk (s : State) (pg t i n : Nat) : (s.clrTbl pg t i n).tk = s.tk := rfl
@[simp] theorem State.clrTbl_cm (s : State) (pg t i n : Nat) : (s.clrTbl pg t i n).cm = s.cm := rfl
@[simp] theorem State.clrTbl_d2 (s : State) (pg t i n : Nat) : (s.clrTbl pg t i n).d2 = s.d2 := rfl
@[simp] theorem State.clrTbl_pcie0 (s : State) (pg t i n : Nat) : (s.clrTbl pg t i n).pcie0 = s.pcie0 := rfl
@[simp] theorem State.clrTbl_pcie1 (s : State) (pg t i n : Nat) : (s.clrTbl pg t i n).pcie1 = s.pcie1 := rfl
@[simp] theorem State.clrTbl_lg (s : State) (pg t i n : Nat) : (s.clrTbl pg t i n).lg = s.lg := rfl
@[simp] theorem State.clrTbl_ptp (s : State) (pg t i n : Nat) : (s.clrTbl pg t i n).ptp = s.ptp := rfl
@[simp] theorem State.clrTbl_irqHeld (s : State) (pg t i n : Nat) : (s.clrTbl pg t i n).irqHeld = s.irqHeld := rfl
@[simp] theorem State.clrTbl_ringDue (s : State) (pg t i n : Nat) : (s.clrTbl pg t i n).ringDue = s.ringDue := rfl
@[simp] theorem State.clrTbl_ports (s : State) (pg t i n : Nat) : (s.clrTbl pg t i n).ports = s.ports := rfl
@[simp] theorem State.clrTbl_macQ (s : State) (pg t i n : Nat) : (s.clrTbl pg t i n).macQ = s.macQ := rfl
@[simp] theorem State.clrTbl_flexe (s : State) (pg t i n : Nat) : (s.clrTbl pg t i n).flexe = s.flexe := rfl
@[simp] theorem State.clrTbl_slices (s : State) (pg t i n : Nat) : (s.clrTbl pg t i n).slices = s.slices := rfl
@[simp] theorem State.clrTbl_moveIn (s : State) (pg t i n : Nat) : (s.clrTbl pg t i n).moveIn = s.moveIn := rfl
@[simp] theorem State.clrTbl_moveEg (s : State) (pg t i n : Nat) : (s.clrTbl pg t i n).moveEg = s.moveEg := rfl
@[simp] theorem State.clrTbl_evacIn (s : State) (pg t i n : Nat) : (s.clrTbl pg t i n).evacIn = s.evacIn := rfl
@[simp] theorem State.clrTbl_evacEg (s : State) (pg t i n : Nat) : (s.clrTbl pg t i n).evacEg = s.evacEg := rfl
@[simp] theorem State.clrTbl_admQ (s : State) (pg t i n : Nat) : (s.clrTbl pg t i n).admQ = s.admQ := rfl
@[simp] theorem State.clrTbl_macTx (s : State) (pg t i n : Nat) : (s.clrTbl pg t i n).macTx = s.macTx := rfl
@[simp] theorem State.clrTbl_classLog (s : State) (pg t i n : Nat) : (s.clrTbl pg t i n).classLog = s.classLog := rfl
@[simp] theorem State.clrTbl_classWalk (s : State) (pg t i n : Nat) : (s.clrTbl pg t i n).classWalk = s.classWalk := rfl
@[simp] theorem State.clrTbl_terrLog (s : State) (pg t i n : Nat) : (s.clrTbl pg t i n).terrLog = s.terrLog := rfl
@[simp] theorem State.clrTbl_terrWalk (s : State) (pg t i n : Nat) : (s.clrTbl pg t i n).terrWalk = s.terrWalk := rfl
@[simp] theorem State.clrTbl_liveClr (s : State) (pg t i n : Nat) : (s.clrTbl pg t i n).liveClr = s.liveClr := rfl
@[simp] theorem State.clrTbl_ln (s : State) (pg t i n : Nat) : (s.clrTbl pg t i n).ln = s.ln := rfl
@[simp] theorem State.clrTbl_apCtx (s : State) (pg t i n : Nat) : (s.clrTbl pg t i n).apCtx = s.apCtx := rfl
@[simp] theorem State.clrTbl_apThr (s : State) (pg t i n : Nat) : (s.clrTbl pg t i n).apThr = s.apThr := rfl
@[simp] theorem State.clrTbl_apSup (s : State) (pg t i n : Nat) : (s.clrTbl pg t i n).apSup = s.apSup := rfl
@[simp] theorem State.clrTbl_locks (s : State) (pg t i n : Nat) : (s.clrTbl pg t i n).locks = s.locks := rfl
@[simp] theorem State.clrTbl_chans (s : State) (pg t i n : Nat) : (s.clrTbl pg t i n).chans = s.chans := rfl
@[simp] theorem State.clrTbl_apProt (s : State) (pg t i n : Nat) : (s.clrTbl pg t i n).apProt = s.apProt := rfl
@[simp] theorem State.clrTbl_voqs (s : State) (pg t i n : Nat) : (s.clrTbl pg t i n).voqs = s.voqs := rfl
@[simp] theorem State.clrTbl_pols (s : State) (pg t i n : Nat) : (s.clrTbl pg t i n).pols = s.pols := rfl
@[simp] theorem State.clrTbl_bf (s : State) (pg t i n : Nat) : (s.clrTbl pg t i n).bf = s.bf := rfl
@[simp] theorem State.clrTbl_eg (s : State) (pg t i n : Nat) : (s.clrTbl pg t i n).eg = s.eg := rfl
@[simp] theorem State.clrTbl_fab (s : State) (pg t i n : Nat) : (s.clrTbl pg t i n).fab = s.fab := rfl
@[simp] theorem State.clrTbl_hb (s : State) (pg t i n : Nat) : (s.clrTbl pg t i n).hb = s.hb := rfl
@[simp] theorem State.clrTbl_hbm (s : State) (pg t i n : Nat) : (s.clrTbl pg t i n).hbm = s.hbm := rfl
@[simp] theorem State.clrTbl_te (s : State) (pg t i n : Nat) : (s.clrTbl pg t i n).te = s.te := rfl
@[simp] theorem State.clrTbl_sv (s : State) (pg t i n : Nat) : (s.clrTbl pg t i n).sv = s.sv := rfl
@[simp] theorem State.clrTbl_up (s : State) (pg t i n : Nat) : (s.clrTbl pg t i n).up = s.up := rfl
@[simp] theorem State.clrTbl_rings (s : State) (pg t i n : Nat) : (s.clrTbl pg t i n).rings = s.rings := rfl
@[simp] theorem State.clrTbl_pw (s : State) (pg t i n : Nat) : (s.clrTbl pg t i n).pw = s.pw := rfl
@[simp] theorem State.clrTbl_tblRun (s : State) (pg t i n : Nat) : (s.clrTbl pg t i n).tblRun = s.tblRun := rfl
@[simp] theorem State.clrTbl_refill (s : State) (pg t i n : Nat) : (s.clrTbl pg t i n).refill = s.refill := rfl
@[simp] theorem State.clrTbl_softWait (s : State) (pg t i n : Nat) : (s.clrTbl pg t i n).softWait = s.softWait := rfl
@[simp] theorem State.clrTbl_pending (s : State) (pg t i n : Nat) : (s.clrTbl pg t i n).pending = s.pending := rfl

@[simp] theorem State.setMark_ra (s : State) (pg m a : Nat) (e : WordErr) : (s.setMark pg m a e).ra = s.ra := rfl
@[simp] theorem State.setMark_part (s : State) (pg m a : Nat) (e : WordErr) : (s.setMark pg m a e).part = s.part := rfl
@[simp] theorem State.setMark_regs (s : State) (pg m a : Nat) (e : WordErr) : (s.setMark pg m a e).regs = s.regs := rfl
@[simp] theorem State.setMark_shadows (s : State) (pg m a : Nat) (e : WordErr) : (s.setMark pg m a e).shadows = s.shadows := rfl
@[simp] theorem State.setMark_prevSt (s : State) (pg m a : Nat) (e : WordErr) : (s.setMark pg m a e).prevSt = s.prevSt := rfl
@[simp] theorem State.setMark_tblPending (s : State) (pg m a : Nat) (e : WordErr) : (s.setMark pg m a e).tblPending = s.tblPending := rfl
@[simp] theorem State.setMark_hiLatch (s : State) (pg m a : Nat) (e : WordErr) : (s.setMark pg m a e).hiLatch = s.hiLatch := rfl
@[simp] theorem State.setMark_loHeld (s : State) (pg m a : Nat) (e : WordErr) : (s.setMark pg m a e).loHeld = s.loHeld := rfl
@[simp] theorem State.setMark_tbls (s : State) (pg m a : Nat) (e : WordErr) : (s.setMark pg m a e).tbls = s.tbls := rfl
@[simp] theorem State.setMark_rsp (s : State) (pg m a : Nat) (e : WordErr) : (s.setMark pg m a e).rsp = s.rsp := rfl
@[simp] theorem State.setMark_out (s : State) (pg m a : Nat) (e : WordErr) : (s.setMark pg m a e).out = s.out := rfl
@[simp] theorem State.setMark_free (s : State) (pg m a : Nat) (e : WordErr) : (s.setMark pg m a e).free = s.free := rfl
@[simp] theorem State.setMark_tk (s : State) (pg m a : Nat) (e : WordErr) : (s.setMark pg m a e).tk = s.tk := rfl
@[simp] theorem State.setMark_cm (s : State) (pg m a : Nat) (e : WordErr) : (s.setMark pg m a e).cm = s.cm := rfl
@[simp] theorem State.setMark_d2 (s : State) (pg m a : Nat) (e : WordErr) : (s.setMark pg m a e).d2 = s.d2 := rfl
@[simp] theorem State.setMark_pcie0 (s : State) (pg m a : Nat) (e : WordErr) : (s.setMark pg m a e).pcie0 = s.pcie0 := rfl
@[simp] theorem State.setMark_pcie1 (s : State) (pg m a : Nat) (e : WordErr) : (s.setMark pg m a e).pcie1 = s.pcie1 := rfl
@[simp] theorem State.setMark_lg (s : State) (pg m a : Nat) (e : WordErr) : (s.setMark pg m a e).lg = s.lg := rfl
@[simp] theorem State.setMark_ptp (s : State) (pg m a : Nat) (e : WordErr) : (s.setMark pg m a e).ptp = s.ptp := rfl
@[simp] theorem State.setMark_irqHeld (s : State) (pg m a : Nat) (e : WordErr) : (s.setMark pg m a e).irqHeld = s.irqHeld := rfl
@[simp] theorem State.setMark_ringDue (s : State) (pg m a : Nat) (e : WordErr) : (s.setMark pg m a e).ringDue = s.ringDue := rfl
@[simp] theorem State.setMark_ports (s : State) (pg m a : Nat) (e : WordErr) : (s.setMark pg m a e).ports = s.ports := rfl
@[simp] theorem State.setMark_macQ (s : State) (pg m a : Nat) (e : WordErr) : (s.setMark pg m a e).macQ = s.macQ := rfl
@[simp] theorem State.setMark_flexe (s : State) (pg m a : Nat) (e : WordErr) : (s.setMark pg m a e).flexe = s.flexe := rfl
@[simp] theorem State.setMark_slices (s : State) (pg m a : Nat) (e : WordErr) : (s.setMark pg m a e).slices = s.slices := rfl
@[simp] theorem State.setMark_moveIn (s : State) (pg m a : Nat) (e : WordErr) : (s.setMark pg m a e).moveIn = s.moveIn := rfl
@[simp] theorem State.setMark_moveEg (s : State) (pg m a : Nat) (e : WordErr) : (s.setMark pg m a e).moveEg = s.moveEg := rfl
@[simp] theorem State.setMark_evacIn (s : State) (pg m a : Nat) (e : WordErr) : (s.setMark pg m a e).evacIn = s.evacIn := rfl
@[simp] theorem State.setMark_evacEg (s : State) (pg m a : Nat) (e : WordErr) : (s.setMark pg m a e).evacEg = s.evacEg := rfl
@[simp] theorem State.setMark_admQ (s : State) (pg m a : Nat) (e : WordErr) : (s.setMark pg m a e).admQ = s.admQ := rfl
@[simp] theorem State.setMark_macTx (s : State) (pg m a : Nat) (e : WordErr) : (s.setMark pg m a e).macTx = s.macTx := rfl
@[simp] theorem State.setMark_classLog (s : State) (pg m a : Nat) (e : WordErr) : (s.setMark pg m a e).classLog = s.classLog := rfl
@[simp] theorem State.setMark_classWalk (s : State) (pg m a : Nat) (e : WordErr) : (s.setMark pg m a e).classWalk = s.classWalk := rfl
@[simp] theorem State.setMark_terrLog (s : State) (pg m a : Nat) (e : WordErr) : (s.setMark pg m a e).terrLog = s.terrLog := rfl
@[simp] theorem State.setMark_terrWalk (s : State) (pg m a : Nat) (e : WordErr) : (s.setMark pg m a e).terrWalk = s.terrWalk := rfl
@[simp] theorem State.setMark_liveClr (s : State) (pg m a : Nat) (e : WordErr) : (s.setMark pg m a e).liveClr = s.liveClr := rfl
@[simp] theorem State.setMark_ln (s : State) (pg m a : Nat) (e : WordErr) : (s.setMark pg m a e).ln = s.ln := rfl
@[simp] theorem State.setMark_apCtx (s : State) (pg m a : Nat) (e : WordErr) : (s.setMark pg m a e).apCtx = s.apCtx := rfl
@[simp] theorem State.setMark_apThr (s : State) (pg m a : Nat) (e : WordErr) : (s.setMark pg m a e).apThr = s.apThr := rfl
@[simp] theorem State.setMark_apSup (s : State) (pg m a : Nat) (e : WordErr) : (s.setMark pg m a e).apSup = s.apSup := rfl
@[simp] theorem State.setMark_locks (s : State) (pg m a : Nat) (e : WordErr) : (s.setMark pg m a e).locks = s.locks := rfl
@[simp] theorem State.setMark_chans (s : State) (pg m a : Nat) (e : WordErr) : (s.setMark pg m a e).chans = s.chans := rfl
@[simp] theorem State.setMark_apProt (s : State) (pg m a : Nat) (e : WordErr) : (s.setMark pg m a e).apProt = s.apProt := rfl
@[simp] theorem State.setMark_voqs (s : State) (pg m a : Nat) (e : WordErr) : (s.setMark pg m a e).voqs = s.voqs := rfl
@[simp] theorem State.setMark_pols (s : State) (pg m a : Nat) (e : WordErr) : (s.setMark pg m a e).pols = s.pols := rfl
@[simp] theorem State.setMark_bf (s : State) (pg m a : Nat) (e : WordErr) : (s.setMark pg m a e).bf = s.bf := rfl
@[simp] theorem State.setMark_eg (s : State) (pg m a : Nat) (e : WordErr) : (s.setMark pg m a e).eg = s.eg := rfl
@[simp] theorem State.setMark_fab (s : State) (pg m a : Nat) (e : WordErr) : (s.setMark pg m a e).fab = s.fab := rfl
@[simp] theorem State.setMark_hb (s : State) (pg m a : Nat) (e : WordErr) : (s.setMark pg m a e).hb = s.hb := rfl
@[simp] theorem State.setMark_hbm (s : State) (pg m a : Nat) (e : WordErr) : (s.setMark pg m a e).hbm = s.hbm := rfl
@[simp] theorem State.setMark_te (s : State) (pg m a : Nat) (e : WordErr) : (s.setMark pg m a e).te = s.te := rfl
@[simp] theorem State.setMark_sv (s : State) (pg m a : Nat) (e : WordErr) : (s.setMark pg m a e).sv = s.sv := rfl
@[simp] theorem State.setMark_up (s : State) (pg m a : Nat) (e : WordErr) : (s.setMark pg m a e).up = s.up := rfl
@[simp] theorem State.setMark_rings (s : State) (pg m a : Nat) (e : WordErr) : (s.setMark pg m a e).rings = s.rings := rfl
@[simp] theorem State.setMark_pw (s : State) (pg m a : Nat) (e : WordErr) : (s.setMark pg m a e).pw = s.pw := rfl
@[simp] theorem State.setMark_tblRun (s : State) (pg m a : Nat) (e : WordErr) : (s.setMark pg m a e).tblRun = s.tblRun := rfl
@[simp] theorem State.setMark_refill (s : State) (pg m a : Nat) (e : WordErr) : (s.setMark pg m a e).refill = s.refill := rfl
@[simp] theorem State.setMark_softWait (s : State) (pg m a : Nat) (e : WordErr) : (s.setMark pg m a e).softWait = s.softWait := rfl
@[simp] theorem State.setMark_pending (s : State) (pg m a : Nat) (e : WordErr) : (s.setMark pg m a e).pending = s.pending := rfl

@[simp] theorem State.draw_ra (s : State)  : (s.draw ).ra = s.ra := rfl
@[simp] theorem State.draw_part (s : State)  : (s.draw ).part = s.part := rfl
@[simp] theorem State.draw_regs (s : State)  : (s.draw ).regs = s.regs := rfl
@[simp] theorem State.draw_shadows (s : State)  : (s.draw ).shadows = s.shadows := rfl
@[simp] theorem State.draw_prevSt (s : State)  : (s.draw ).prevSt = s.prevSt := rfl
@[simp] theorem State.draw_tblPending (s : State)  : (s.draw ).tblPending = s.tblPending := rfl
@[simp] theorem State.draw_hiLatch (s : State)  : (s.draw ).hiLatch = s.hiLatch := rfl
@[simp] theorem State.draw_loHeld (s : State)  : (s.draw ).loHeld = s.loHeld := rfl
@[simp] theorem State.draw_tbls (s : State)  : (s.draw ).tbls = s.tbls := rfl
@[simp] theorem State.draw_marks (s : State)  : (s.draw ).marks = s.marks := rfl
@[simp] theorem State.draw_rsp (s : State)  : (s.draw ).rsp = s.rsp := rfl
@[simp] theorem State.draw_out (s : State)  : (s.draw ).out = s.out := rfl
@[simp] theorem State.draw_tk (s : State)  : (s.draw ).tk = s.tk := rfl
@[simp] theorem State.draw_cm (s : State)  : (s.draw ).cm = s.cm := rfl
@[simp] theorem State.draw_d2 (s : State)  : (s.draw ).d2 = s.d2 := rfl
@[simp] theorem State.draw_pcie0 (s : State)  : (s.draw ).pcie0 = s.pcie0 := rfl
@[simp] theorem State.draw_pcie1 (s : State)  : (s.draw ).pcie1 = s.pcie1 := rfl
@[simp] theorem State.draw_lg (s : State)  : (s.draw ).lg = s.lg := rfl
@[simp] theorem State.draw_ptp (s : State)  : (s.draw ).ptp = s.ptp := rfl
@[simp] theorem State.draw_irqHeld (s : State)  : (s.draw ).irqHeld = s.irqHeld := rfl
@[simp] theorem State.draw_ringDue (s : State)  : (s.draw ).ringDue = s.ringDue := rfl
@[simp] theorem State.draw_ports (s : State)  : (s.draw ).ports = s.ports := rfl
@[simp] theorem State.draw_macQ (s : State)  : (s.draw ).macQ = s.macQ := rfl
@[simp] theorem State.draw_flexe (s : State)  : (s.draw ).flexe = s.flexe := rfl
@[simp] theorem State.draw_slices (s : State)  : (s.draw ).slices = s.slices := rfl
@[simp] theorem State.draw_moveIn (s : State)  : (s.draw ).moveIn = s.moveIn := rfl
@[simp] theorem State.draw_moveEg (s : State)  : (s.draw ).moveEg = s.moveEg := rfl
@[simp] theorem State.draw_evacIn (s : State)  : (s.draw ).evacIn = s.evacIn := rfl
@[simp] theorem State.draw_evacEg (s : State)  : (s.draw ).evacEg = s.evacEg := rfl
@[simp] theorem State.draw_admQ (s : State)  : (s.draw ).admQ = s.admQ := rfl
@[simp] theorem State.draw_macTx (s : State)  : (s.draw ).macTx = s.macTx := rfl
@[simp] theorem State.draw_classLog (s : State)  : (s.draw ).classLog = s.classLog := rfl
@[simp] theorem State.draw_classWalk (s : State)  : (s.draw ).classWalk = s.classWalk := rfl
@[simp] theorem State.draw_terrLog (s : State)  : (s.draw ).terrLog = s.terrLog := rfl
@[simp] theorem State.draw_terrWalk (s : State)  : (s.draw ).terrWalk = s.terrWalk := rfl
@[simp] theorem State.draw_liveClr (s : State)  : (s.draw ).liveClr = s.liveClr := rfl
@[simp] theorem State.draw_ln (s : State)  : (s.draw ).ln = s.ln := rfl
@[simp] theorem State.draw_apCtx (s : State)  : (s.draw ).apCtx = s.apCtx := rfl
@[simp] theorem State.draw_apThr (s : State)  : (s.draw ).apThr = s.apThr := rfl
@[simp] theorem State.draw_apSup (s : State)  : (s.draw ).apSup = s.apSup := rfl
@[simp] theorem State.draw_locks (s : State)  : (s.draw ).locks = s.locks := rfl
@[simp] theorem State.draw_chans (s : State)  : (s.draw ).chans = s.chans := rfl
@[simp] theorem State.draw_apProt (s : State)  : (s.draw ).apProt = s.apProt := rfl
@[simp] theorem State.draw_voqs (s : State)  : (s.draw ).voqs = s.voqs := rfl
@[simp] theorem State.draw_pols (s : State)  : (s.draw ).pols = s.pols := rfl
@[simp] theorem State.draw_bf (s : State)  : (s.draw ).bf = s.bf := rfl
@[simp] theorem State.draw_eg (s : State)  : (s.draw ).eg = s.eg := rfl
@[simp] theorem State.draw_fab (s : State)  : (s.draw ).fab = s.fab := rfl
@[simp] theorem State.draw_hb (s : State)  : (s.draw ).hb = s.hb := rfl
@[simp] theorem State.draw_hbm (s : State)  : (s.draw ).hbm = s.hbm := rfl
@[simp] theorem State.draw_te (s : State)  : (s.draw ).te = s.te := rfl
@[simp] theorem State.draw_sv (s : State)  : (s.draw ).sv = s.sv := rfl
@[simp] theorem State.draw_up (s : State)  : (s.draw ).up = s.up := rfl
@[simp] theorem State.draw_rings (s : State)  : (s.draw ).rings = s.rings := rfl
@[simp] theorem State.draw_pw (s : State)  : (s.draw ).pw = s.pw := rfl
@[simp] theorem State.draw_tblRun (s : State)  : (s.draw ).tblRun = s.tblRun := rfl
@[simp] theorem State.draw_refill (s : State)  : (s.draw ).refill = s.refill := rfl
@[simp] theorem State.draw_softWait (s : State)  : (s.draw ).softWait = s.softWait := rfl
@[simp] theorem State.draw_pending (s : State)  : (s.draw ).pending = s.pending := rfl

@[simp] theorem State.emit_ra (s : State) (e : Emit) : (s.emit e).ra = s.ra := rfl
@[simp] theorem State.emit_part (s : State) (e : Emit) : (s.emit e).part = s.part := rfl
@[simp] theorem State.emit_regs (s : State) (e : Emit) : (s.emit e).regs = s.regs := rfl
@[simp] theorem State.emit_shadows (s : State) (e : Emit) : (s.emit e).shadows = s.shadows := rfl
@[simp] theorem State.emit_prevSt (s : State) (e : Emit) : (s.emit e).prevSt = s.prevSt := rfl
@[simp] theorem State.emit_tblPending (s : State) (e : Emit) : (s.emit e).tblPending = s.tblPending := rfl
@[simp] theorem State.emit_hiLatch (s : State) (e : Emit) : (s.emit e).hiLatch = s.hiLatch := rfl
@[simp] theorem State.emit_loHeld (s : State) (e : Emit) : (s.emit e).loHeld = s.loHeld := rfl
@[simp] theorem State.emit_tbls (s : State) (e : Emit) : (s.emit e).tbls = s.tbls := rfl
@[simp] theorem State.emit_marks (s : State) (e : Emit) : (s.emit e).marks = s.marks := rfl
@[simp] theorem State.emit_rsp (s : State) (e : Emit) : (s.emit e).rsp = s.rsp := rfl
@[simp] theorem State.emit_free (s : State) (e : Emit) : (s.emit e).free = s.free := rfl
@[simp] theorem State.emit_tk (s : State) (e : Emit) : (s.emit e).tk = s.tk := rfl
@[simp] theorem State.emit_cm (s : State) (e : Emit) : (s.emit e).cm = s.cm := rfl
@[simp] theorem State.emit_d2 (s : State) (e : Emit) : (s.emit e).d2 = s.d2 := rfl
@[simp] theorem State.emit_pcie0 (s : State) (e : Emit) : (s.emit e).pcie0 = s.pcie0 := rfl
@[simp] theorem State.emit_pcie1 (s : State) (e : Emit) : (s.emit e).pcie1 = s.pcie1 := rfl
@[simp] theorem State.emit_lg (s : State) (e : Emit) : (s.emit e).lg = s.lg := rfl
@[simp] theorem State.emit_ptp (s : State) (e : Emit) : (s.emit e).ptp = s.ptp := rfl
@[simp] theorem State.emit_irqHeld (s : State) (e : Emit) : (s.emit e).irqHeld = s.irqHeld := rfl
@[simp] theorem State.emit_ringDue (s : State) (e : Emit) : (s.emit e).ringDue = s.ringDue := rfl
@[simp] theorem State.emit_ports (s : State) (e : Emit) : (s.emit e).ports = s.ports := rfl
@[simp] theorem State.emit_macQ (s : State) (e : Emit) : (s.emit e).macQ = s.macQ := rfl
@[simp] theorem State.emit_flexe (s : State) (e : Emit) : (s.emit e).flexe = s.flexe := rfl
@[simp] theorem State.emit_slices (s : State) (e : Emit) : (s.emit e).slices = s.slices := rfl
@[simp] theorem State.emit_moveIn (s : State) (e : Emit) : (s.emit e).moveIn = s.moveIn := rfl
@[simp] theorem State.emit_moveEg (s : State) (e : Emit) : (s.emit e).moveEg = s.moveEg := rfl
@[simp] theorem State.emit_evacIn (s : State) (e : Emit) : (s.emit e).evacIn = s.evacIn := rfl
@[simp] theorem State.emit_evacEg (s : State) (e : Emit) : (s.emit e).evacEg = s.evacEg := rfl
@[simp] theorem State.emit_admQ (s : State) (e : Emit) : (s.emit e).admQ = s.admQ := rfl
@[simp] theorem State.emit_macTx (s : State) (e : Emit) : (s.emit e).macTx = s.macTx := rfl
@[simp] theorem State.emit_classLog (s : State) (e : Emit) : (s.emit e).classLog = s.classLog := rfl
@[simp] theorem State.emit_classWalk (s : State) (e : Emit) : (s.emit e).classWalk = s.classWalk := rfl
@[simp] theorem State.emit_terrLog (s : State) (e : Emit) : (s.emit e).terrLog = s.terrLog := rfl
@[simp] theorem State.emit_terrWalk (s : State) (e : Emit) : (s.emit e).terrWalk = s.terrWalk := rfl
@[simp] theorem State.emit_liveClr (s : State) (e : Emit) : (s.emit e).liveClr = s.liveClr := rfl
@[simp] theorem State.emit_ln (s : State) (e : Emit) : (s.emit e).ln = s.ln := rfl
@[simp] theorem State.emit_apCtx (s : State) (e : Emit) : (s.emit e).apCtx = s.apCtx := rfl
@[simp] theorem State.emit_apThr (s : State) (e : Emit) : (s.emit e).apThr = s.apThr := rfl
@[simp] theorem State.emit_apSup (s : State) (e : Emit) : (s.emit e).apSup = s.apSup := rfl
@[simp] theorem State.emit_locks (s : State) (e : Emit) : (s.emit e).locks = s.locks := rfl
@[simp] theorem State.emit_chans (s : State) (e : Emit) : (s.emit e).chans = s.chans := rfl
@[simp] theorem State.emit_apProt (s : State) (e : Emit) : (s.emit e).apProt = s.apProt := rfl
@[simp] theorem State.emit_voqs (s : State) (e : Emit) : (s.emit e).voqs = s.voqs := rfl
@[simp] theorem State.emit_pols (s : State) (e : Emit) : (s.emit e).pols = s.pols := rfl
@[simp] theorem State.emit_bf (s : State) (e : Emit) : (s.emit e).bf = s.bf := rfl
@[simp] theorem State.emit_eg (s : State) (e : Emit) : (s.emit e).eg = s.eg := rfl
@[simp] theorem State.emit_fab (s : State) (e : Emit) : (s.emit e).fab = s.fab := rfl
@[simp] theorem State.emit_hb (s : State) (e : Emit) : (s.emit e).hb = s.hb := rfl
@[simp] theorem State.emit_hbm (s : State) (e : Emit) : (s.emit e).hbm = s.hbm := rfl
@[simp] theorem State.emit_te (s : State) (e : Emit) : (s.emit e).te = s.te := rfl
@[simp] theorem State.emit_sv (s : State) (e : Emit) : (s.emit e).sv = s.sv := rfl
@[simp] theorem State.emit_up (s : State) (e : Emit) : (s.emit e).up = s.up := rfl
@[simp] theorem State.emit_rings (s : State) (e : Emit) : (s.emit e).rings = s.rings := rfl
@[simp] theorem State.emit_pw (s : State) (e : Emit) : (s.emit e).pw = s.pw := rfl
@[simp] theorem State.emit_tblRun (s : State) (e : Emit) : (s.emit e).tblRun = s.tblRun := rfl
@[simp] theorem State.emit_refill (s : State) (e : Emit) : (s.emit e).refill = s.refill := rfl
@[simp] theorem State.emit_softWait (s : State) (e : Emit) : (s.emit e).softWait = s.softWait := rfl
@[simp] theorem State.emit_pending (s : State) (e : Emit) : (s.emit e).pending = s.pending := rfl

@[simp] theorem State.setBundle_ra (s : State) (d n : Nat) (b : Bundle) : (s.setBundle d n b).ra = s.ra := by unfold State.setBundle; split <;> rfl
@[simp] theorem State.setBundle_part (s : State) (d n : Nat) (b : Bundle) : (s.setBundle d n b).part = s.part := by unfold State.setBundle; split <;> rfl
@[simp] theorem State.setBundle_regs (s : State) (d n : Nat) (b : Bundle) : (s.setBundle d n b).regs = s.regs := by unfold State.setBundle; split <;> rfl
@[simp] theorem State.setBundle_shadows (s : State) (d n : Nat) (b : Bundle) : (s.setBundle d n b).shadows = s.shadows := by unfold State.setBundle; split <;> rfl
@[simp] theorem State.setBundle_prevSt (s : State) (d n : Nat) (b : Bundle) : (s.setBundle d n b).prevSt = s.prevSt := by unfold State.setBundle; split <;> rfl
@[simp] theorem State.setBundle_tblPending (s : State) (d n : Nat) (b : Bundle) : (s.setBundle d n b).tblPending = s.tblPending := by unfold State.setBundle; split <;> rfl
@[simp] theorem State.setBundle_hiLatch (s : State) (d n : Nat) (b : Bundle) : (s.setBundle d n b).hiLatch = s.hiLatch := by unfold State.setBundle; split <;> rfl
@[simp] theorem State.setBundle_loHeld (s : State) (d n : Nat) (b : Bundle) : (s.setBundle d n b).loHeld = s.loHeld := by unfold State.setBundle; split <;> rfl
@[simp] theorem State.setBundle_tbls (s : State) (d n : Nat) (b : Bundle) : (s.setBundle d n b).tbls = s.tbls := by unfold State.setBundle; split <;> rfl
@[simp] theorem State.setBundle_marks (s : State) (d n : Nat) (b : Bundle) : (s.setBundle d n b).marks = s.marks := by unfold State.setBundle; split <;> rfl
@[simp] theorem State.setBundle_rsp (s : State) (d n : Nat) (b : Bundle) : (s.setBundle d n b).rsp = s.rsp := by unfold State.setBundle; split <;> rfl
@[simp] theorem State.setBundle_out (s : State) (d n : Nat) (b : Bundle) : (s.setBundle d n b).out = s.out := by unfold State.setBundle; split <;> rfl
@[simp] theorem State.setBundle_free (s : State) (d n : Nat) (b : Bundle) : (s.setBundle d n b).free = s.free := by unfold State.setBundle; split <;> rfl
@[simp] theorem State.setBundle_tk (s : State) (d n : Nat) (b : Bundle) : (s.setBundle d n b).tk = s.tk := by unfold State.setBundle; split <;> rfl
@[simp] theorem State.setBundle_cm (s : State) (d n : Nat) (b : Bundle) : (s.setBundle d n b).cm = s.cm := by unfold State.setBundle; split <;> rfl
@[simp] theorem State.setBundle_pcie0 (s : State) (d n : Nat) (b : Bundle) : (s.setBundle d n b).pcie0 = s.pcie0 := by unfold State.setBundle; split <;> rfl
@[simp] theorem State.setBundle_pcie1 (s : State) (d n : Nat) (b : Bundle) : (s.setBundle d n b).pcie1 = s.pcie1 := by unfold State.setBundle; split <;> rfl
@[simp] theorem State.setBundle_lg (s : State) (d n : Nat) (b : Bundle) : (s.setBundle d n b).lg = s.lg := by unfold State.setBundle; split <;> rfl
@[simp] theorem State.setBundle_ptp (s : State) (d n : Nat) (b : Bundle) : (s.setBundle d n b).ptp = s.ptp := by unfold State.setBundle; split <;> rfl
@[simp] theorem State.setBundle_irqHeld (s : State) (d n : Nat) (b : Bundle) : (s.setBundle d n b).irqHeld = s.irqHeld := by unfold State.setBundle; split <;> rfl
@[simp] theorem State.setBundle_ringDue (s : State) (d n : Nat) (b : Bundle) : (s.setBundle d n b).ringDue = s.ringDue := by unfold State.setBundle; split <;> rfl
@[simp] theorem State.setBundle_ports (s : State) (d n : Nat) (b : Bundle) : (s.setBundle d n b).ports = s.ports := by unfold State.setBundle; split <;> rfl
@[simp] theorem State.setBundle_macQ (s : State) (d n : Nat) (b : Bundle) : (s.setBundle d n b).macQ = s.macQ := by unfold State.setBundle; split <;> rfl
@[simp] theorem State.setBundle_flexe (s : State) (d n : Nat) (b : Bundle) : (s.setBundle d n b).flexe = s.flexe := by unfold State.setBundle; split <;> rfl
@[simp] theorem State.setBundle_slices (s : State) (d n : Nat) (b : Bundle) : (s.setBundle d n b).slices = s.slices := by unfold State.setBundle; split <;> rfl
@[simp] theorem State.setBundle_moveIn (s : State) (d n : Nat) (b : Bundle) : (s.setBundle d n b).moveIn = s.moveIn := by unfold State.setBundle; split <;> rfl
@[simp] theorem State.setBundle_moveEg (s : State) (d n : Nat) (b : Bundle) : (s.setBundle d n b).moveEg = s.moveEg := by unfold State.setBundle; split <;> rfl
@[simp] theorem State.setBundle_evacIn (s : State) (d n : Nat) (b : Bundle) : (s.setBundle d n b).evacIn = s.evacIn := by unfold State.setBundle; split <;> rfl
@[simp] theorem State.setBundle_evacEg (s : State) (d n : Nat) (b : Bundle) : (s.setBundle d n b).evacEg = s.evacEg := by unfold State.setBundle; split <;> rfl
@[simp] theorem State.setBundle_admQ (s : State) (d n : Nat) (b : Bundle) : (s.setBundle d n b).admQ = s.admQ := by unfold State.setBundle; split <;> rfl
@[simp] theorem State.setBundle_macTx (s : State) (d n : Nat) (b : Bundle) : (s.setBundle d n b).macTx = s.macTx := by unfold State.setBundle; split <;> rfl
@[simp] theorem State.setBundle_classLog (s : State) (d n : Nat) (b : Bundle) : (s.setBundle d n b).classLog = s.classLog := by unfold State.setBundle; split <;> rfl
@[simp] theorem State.setBundle_classWalk (s : State) (d n : Nat) (b : Bundle) : (s.setBundle d n b).classWalk = s.classWalk := by unfold State.setBundle; split <;> rfl
@[simp] theorem State.setBundle_terrLog (s : State) (d n : Nat) (b : Bundle) : (s.setBundle d n b).terrLog = s.terrLog := by unfold State.setBundle; split <;> rfl
@[simp] theorem State.setBundle_terrWalk (s : State) (d n : Nat) (b : Bundle) : (s.setBundle d n b).terrWalk = s.terrWalk := by unfold State.setBundle; split <;> rfl
@[simp] theorem State.setBundle_liveClr (s : State) (d n : Nat) (b : Bundle) : (s.setBundle d n b).liveClr = s.liveClr := by unfold State.setBundle; split <;> rfl
@[simp] theorem State.setBundle_ln (s : State) (d n : Nat) (b : Bundle) : (s.setBundle d n b).ln = s.ln := by unfold State.setBundle; split <;> rfl
@[simp] theorem State.setBundle_apCtx (s : State) (d n : Nat) (b : Bundle) : (s.setBundle d n b).apCtx = s.apCtx := by unfold State.setBundle; split <;> rfl
@[simp] theorem State.setBundle_apThr (s : State) (d n : Nat) (b : Bundle) : (s.setBundle d n b).apThr = s.apThr := by unfold State.setBundle; split <;> rfl
@[simp] theorem State.setBundle_apSup (s : State) (d n : Nat) (b : Bundle) : (s.setBundle d n b).apSup = s.apSup := by unfold State.setBundle; split <;> rfl
@[simp] theorem State.setBundle_locks (s : State) (d n : Nat) (b : Bundle) : (s.setBundle d n b).locks = s.locks := by unfold State.setBundle; split <;> rfl
@[simp] theorem State.setBundle_chans (s : State) (d n : Nat) (b : Bundle) : (s.setBundle d n b).chans = s.chans := by unfold State.setBundle; split <;> rfl
@[simp] theorem State.setBundle_apProt (s : State) (d n : Nat) (b : Bundle) : (s.setBundle d n b).apProt = s.apProt := by unfold State.setBundle; split <;> rfl
@[simp] theorem State.setBundle_voqs (s : State) (d n : Nat) (b : Bundle) : (s.setBundle d n b).voqs = s.voqs := by unfold State.setBundle; split <;> rfl
@[simp] theorem State.setBundle_pols (s : State) (d n : Nat) (b : Bundle) : (s.setBundle d n b).pols = s.pols := by unfold State.setBundle; split <;> rfl
@[simp] theorem State.setBundle_bf (s : State) (d n : Nat) (b : Bundle) : (s.setBundle d n b).bf = s.bf := by unfold State.setBundle; split <;> rfl
@[simp] theorem State.setBundle_eg (s : State) (d n : Nat) (b : Bundle) : (s.setBundle d n b).eg = s.eg := by unfold State.setBundle; split <;> rfl
@[simp] theorem State.setBundle_fab (s : State) (d n : Nat) (b : Bundle) : (s.setBundle d n b).fab = s.fab := by unfold State.setBundle; split <;> rfl
@[simp] theorem State.setBundle_hb (s : State) (d n : Nat) (b : Bundle) : (s.setBundle d n b).hb = s.hb := by unfold State.setBundle; split <;> rfl
@[simp] theorem State.setBundle_hbm (s : State) (d n : Nat) (b : Bundle) : (s.setBundle d n b).hbm = s.hbm := by unfold State.setBundle; split <;> rfl
@[simp] theorem State.setBundle_te (s : State) (d n : Nat) (b : Bundle) : (s.setBundle d n b).te = s.te := by unfold State.setBundle; split <;> rfl
@[simp] theorem State.setBundle_sv (s : State) (d n : Nat) (b : Bundle) : (s.setBundle d n b).sv = s.sv := by unfold State.setBundle; split <;> rfl
@[simp] theorem State.setBundle_up (s : State) (d n : Nat) (b : Bundle) : (s.setBundle d n b).up = s.up := by unfold State.setBundle; split <;> rfl
@[simp] theorem State.setBundle_rings (s : State) (d n : Nat) (b : Bundle) : (s.setBundle d n b).rings = s.rings := by unfold State.setBundle; split <;> rfl
@[simp] theorem State.setBundle_pw (s : State) (d n : Nat) (b : Bundle) : (s.setBundle d n b).pw = s.pw := by unfold State.setBundle; split <;> rfl
@[simp] theorem State.setBundle_tblRun (s : State) (d n : Nat) (b : Bundle) : (s.setBundle d n b).tblRun = s.tblRun := by unfold State.setBundle; split <;> rfl
@[simp] theorem State.setBundle_refill (s : State) (d n : Nat) (b : Bundle) : (s.setBundle d n b).refill = s.refill := by unfold State.setBundle; split <;> rfl
@[simp] theorem State.setBundle_softWait (s : State) (d n : Nat) (b : Bundle) : (s.setBundle d n b).softWait = s.softWait := by unfold State.setBundle; split <;> rfl
@[simp] theorem State.setBundle_pending (s : State) (d n : Nat) (b : Bundle) : (s.setBundle d n b).pending = s.pending := by unfold State.setBundle; split <;> rfl

@[simp] theorem State.setSlice_ra (s : State) (d n : Nat) (x : SliceSt) : (s.setSlice d n x).ra = s.ra := rfl
@[simp] theorem State.setSlice_part (s : State) (d n : Nat) (x : SliceSt) : (s.setSlice d n x).part = s.part := rfl
@[simp] theorem State.setSlice_regs (s : State) (d n : Nat) (x : SliceSt) : (s.setSlice d n x).regs = s.regs := rfl
@[simp] theorem State.setSlice_shadows (s : State) (d n : Nat) (x : SliceSt) : (s.setSlice d n x).shadows = s.shadows := rfl
@[simp] theorem State.setSlice_prevSt (s : State) (d n : Nat) (x : SliceSt) : (s.setSlice d n x).prevSt = s.prevSt := rfl
@[simp] theorem State.setSlice_tblPending (s : State) (d n : Nat) (x : SliceSt) : (s.setSlice d n x).tblPending = s.tblPending := rfl
@[simp] theorem State.setSlice_hiLatch (s : State) (d n : Nat) (x : SliceSt) : (s.setSlice d n x).hiLatch = s.hiLatch := rfl
@[simp] theorem State.setSlice_loHeld (s : State) (d n : Nat) (x : SliceSt) : (s.setSlice d n x).loHeld = s.loHeld := rfl
@[simp] theorem State.setSlice_tbls (s : State) (d n : Nat) (x : SliceSt) : (s.setSlice d n x).tbls = s.tbls := rfl
@[simp] theorem State.setSlice_marks (s : State) (d n : Nat) (x : SliceSt) : (s.setSlice d n x).marks = s.marks := rfl
@[simp] theorem State.setSlice_rsp (s : State) (d n : Nat) (x : SliceSt) : (s.setSlice d n x).rsp = s.rsp := rfl
@[simp] theorem State.setSlice_out (s : State) (d n : Nat) (x : SliceSt) : (s.setSlice d n x).out = s.out := rfl
@[simp] theorem State.setSlice_free (s : State) (d n : Nat) (x : SliceSt) : (s.setSlice d n x).free = s.free := rfl
@[simp] theorem State.setSlice_tk (s : State) (d n : Nat) (x : SliceSt) : (s.setSlice d n x).tk = s.tk := rfl
@[simp] theorem State.setSlice_cm (s : State) (d n : Nat) (x : SliceSt) : (s.setSlice d n x).cm = s.cm := rfl
@[simp] theorem State.setSlice_d2 (s : State) (d n : Nat) (x : SliceSt) : (s.setSlice d n x).d2 = s.d2 := rfl
@[simp] theorem State.setSlice_pcie0 (s : State) (d n : Nat) (x : SliceSt) : (s.setSlice d n x).pcie0 = s.pcie0 := rfl
@[simp] theorem State.setSlice_pcie1 (s : State) (d n : Nat) (x : SliceSt) : (s.setSlice d n x).pcie1 = s.pcie1 := rfl
@[simp] theorem State.setSlice_lg (s : State) (d n : Nat) (x : SliceSt) : (s.setSlice d n x).lg = s.lg := rfl
@[simp] theorem State.setSlice_ptp (s : State) (d n : Nat) (x : SliceSt) : (s.setSlice d n x).ptp = s.ptp := rfl
@[simp] theorem State.setSlice_irqHeld (s : State) (d n : Nat) (x : SliceSt) : (s.setSlice d n x).irqHeld = s.irqHeld := rfl
@[simp] theorem State.setSlice_ringDue (s : State) (d n : Nat) (x : SliceSt) : (s.setSlice d n x).ringDue = s.ringDue := rfl
@[simp] theorem State.setSlice_ports (s : State) (d n : Nat) (x : SliceSt) : (s.setSlice d n x).ports = s.ports := rfl
@[simp] theorem State.setSlice_macQ (s : State) (d n : Nat) (x : SliceSt) : (s.setSlice d n x).macQ = s.macQ := rfl
@[simp] theorem State.setSlice_flexe (s : State) (d n : Nat) (x : SliceSt) : (s.setSlice d n x).flexe = s.flexe := rfl
@[simp] theorem State.setSlice_moveIn (s : State) (d n : Nat) (x : SliceSt) : (s.setSlice d n x).moveIn = s.moveIn := rfl
@[simp] theorem State.setSlice_moveEg (s : State) (d n : Nat) (x : SliceSt) : (s.setSlice d n x).moveEg = s.moveEg := rfl
@[simp] theorem State.setSlice_evacIn (s : State) (d n : Nat) (x : SliceSt) : (s.setSlice d n x).evacIn = s.evacIn := rfl
@[simp] theorem State.setSlice_evacEg (s : State) (d n : Nat) (x : SliceSt) : (s.setSlice d n x).evacEg = s.evacEg := rfl
@[simp] theorem State.setSlice_admQ (s : State) (d n : Nat) (x : SliceSt) : (s.setSlice d n x).admQ = s.admQ := rfl
@[simp] theorem State.setSlice_macTx (s : State) (d n : Nat) (x : SliceSt) : (s.setSlice d n x).macTx = s.macTx := rfl
@[simp] theorem State.setSlice_classLog (s : State) (d n : Nat) (x : SliceSt) : (s.setSlice d n x).classLog = s.classLog := rfl
@[simp] theorem State.setSlice_classWalk (s : State) (d n : Nat) (x : SliceSt) : (s.setSlice d n x).classWalk = s.classWalk := rfl
@[simp] theorem State.setSlice_terrLog (s : State) (d n : Nat) (x : SliceSt) : (s.setSlice d n x).terrLog = s.terrLog := rfl
@[simp] theorem State.setSlice_terrWalk (s : State) (d n : Nat) (x : SliceSt) : (s.setSlice d n x).terrWalk = s.terrWalk := rfl
@[simp] theorem State.setSlice_liveClr (s : State) (d n : Nat) (x : SliceSt) : (s.setSlice d n x).liveClr = s.liveClr := rfl
@[simp] theorem State.setSlice_ln (s : State) (d n : Nat) (x : SliceSt) : (s.setSlice d n x).ln = s.ln := rfl
@[simp] theorem State.setSlice_apCtx (s : State) (d n : Nat) (x : SliceSt) : (s.setSlice d n x).apCtx = s.apCtx := rfl
@[simp] theorem State.setSlice_apThr (s : State) (d n : Nat) (x : SliceSt) : (s.setSlice d n x).apThr = s.apThr := rfl
@[simp] theorem State.setSlice_apSup (s : State) (d n : Nat) (x : SliceSt) : (s.setSlice d n x).apSup = s.apSup := rfl
@[simp] theorem State.setSlice_locks (s : State) (d n : Nat) (x : SliceSt) : (s.setSlice d n x).locks = s.locks := rfl
@[simp] theorem State.setSlice_chans (s : State) (d n : Nat) (x : SliceSt) : (s.setSlice d n x).chans = s.chans := rfl
@[simp] theorem State.setSlice_apProt (s : State) (d n : Nat) (x : SliceSt) : (s.setSlice d n x).apProt = s.apProt := rfl
@[simp] theorem State.setSlice_voqs (s : State) (d n : Nat) (x : SliceSt) : (s.setSlice d n x).voqs = s.voqs := rfl
@[simp] theorem State.setSlice_pols (s : State) (d n : Nat) (x : SliceSt) : (s.setSlice d n x).pols = s.pols := rfl
@[simp] theorem State.setSlice_bf (s : State) (d n : Nat) (x : SliceSt) : (s.setSlice d n x).bf = s.bf := rfl
@[simp] theorem State.setSlice_eg (s : State) (d n : Nat) (x : SliceSt) : (s.setSlice d n x).eg = s.eg := rfl
@[simp] theorem State.setSlice_fab (s : State) (d n : Nat) (x : SliceSt) : (s.setSlice d n x).fab = s.fab := rfl
@[simp] theorem State.setSlice_hb (s : State) (d n : Nat) (x : SliceSt) : (s.setSlice d n x).hb = s.hb := rfl
@[simp] theorem State.setSlice_hbm (s : State) (d n : Nat) (x : SliceSt) : (s.setSlice d n x).hbm = s.hbm := rfl
@[simp] theorem State.setSlice_te (s : State) (d n : Nat) (x : SliceSt) : (s.setSlice d n x).te = s.te := rfl
@[simp] theorem State.setSlice_sv (s : State) (d n : Nat) (x : SliceSt) : (s.setSlice d n x).sv = s.sv := rfl
@[simp] theorem State.setSlice_up (s : State) (d n : Nat) (x : SliceSt) : (s.setSlice d n x).up = s.up := rfl
@[simp] theorem State.setSlice_rings (s : State) (d n : Nat) (x : SliceSt) : (s.setSlice d n x).rings = s.rings := rfl
@[simp] theorem State.setSlice_pw (s : State) (d n : Nat) (x : SliceSt) : (s.setSlice d n x).pw = s.pw := rfl
@[simp] theorem State.setSlice_tblRun (s : State) (d n : Nat) (x : SliceSt) : (s.setSlice d n x).tblRun = s.tblRun := rfl
@[simp] theorem State.setSlice_refill (s : State) (d n : Nat) (x : SliceSt) : (s.setSlice d n x).refill = s.refill := rfl
@[simp] theorem State.setSlice_softWait (s : State) (d n : Nat) (x : SliceSt) : (s.setSlice d n x).softWait = s.softWait := rfl
@[simp] theorem State.setSlice_pending (s : State) (d n : Nat) (x : SliceSt) : (s.setSlice d n x).pending = s.pending := rfl

end Sys2Proof.Machine
end

