-- ==== Sys2Proof/Laws/Regs.lean ====
section
/-! SUPPORT. The register file, tables and error marks: a read after a write; register accesses that go through. -/
namespace Sys2Proof.Machine

/-! ## Registers -/

/-- A register reads what was written to it, cut to 32 bits; every other register keeps its value. -/
theorem rd_wr (s : State) (a v b : Nat) : (s.wr a v).rd b = if b = a then v % 2 ^ 32 else s.rd b := by
  unfold State.rd State.wr
  by_cases h : b = a
  · subst h; simp only [if_true]; exact sget_sset_same _ _ _ _
  · simp only [h, if_false]; exact sget_sset_other _ _ _ _ _ _ h

@[simp] theorem rd_wr_same (s : State) (a v : Nat) : (s.wr a v).rd a = v % 2 ^ 32 := by simp [rd_wr]

theorem rd_wr_other (s : State) (a v b : Nat) (h : b ≠ a) : (s.wr a v).rd b = s.rd b := by simp [rd_wr, h]

theorem rd_setF_other (s : State) (a : Nat) (fl : Fld) (x b : Nat) (h : b ≠ a) : (s.setF a fl x).rd b = s.rd b :=
  rd_wr_other s a _ b h

theorem rd_setF_same (s : State) (a : Nat) (fl : Fld) (x : Nat) :
    (s.setF a fl x).rd a = setBits (s.rd a) fl.lo fl.w x % 2 ^ 32 := rd_wr_same s a _

/-- A field reads what was put in it. -/
theorem f_setF_same (s : State) (a : Nat) (fl : Fld) (x : Nat) (h : fl.lo + fl.w ≤ 32) :
    (s.setF a fl x).f a fl = x % 2 ^ fl.w := by
  rw [State.f, rd_setF_same, bits_mod _ _ _ _ h, bits_setBits_same]

/-- Another field of the register keeps its value. -/
theorem f_setF_disjoint (s : State) (a : Nat) (fl fl' : Fld) (x : Nat) (h : fl'.lo + fl'.w ≤ 32)
    (hd : fl.lo + fl.w ≤ fl'.lo ∨ fl'.lo + fl'.w ≤ fl.lo) : (s.setF a fl x).f a fl' = s.f a fl' := by
  rw [State.f, rd_setF_same, bits_mod _ _ _ _ h, bits_setBits_disjoint _ _ _ _ _ _ hd, State.f]

theorem f_setF_other (s : State) (a : Nat) (fl : Fld) (x b : Nat) (fl' : Fld) (h : b ≠ a) :
    (s.setF a fl x).f b fl' = s.f b fl' := by rw [State.f, rd_setF_other _ _ _ _ _ h, State.f]

theorem f_wr_other (s : State) (a v b : Nat) (fl : Fld) (h : b ≠ a) : (s.wr a v).f b fl = s.f b fl := by
  rw [State.f, rd_wr_other _ _ _ _ h, State.f]

/-- What is held depends on the part and the register file alone. -/
theorem rd_congr {s t : State} (hp : t.part = s.part) (hr : t.regs = s.regs) (a : Nat) : t.rd a = s.rd a := by
  rw [State.rd, State.rd, hp, hr]

/-! ## Tables and marks -/

theorem tbl_setTbl_same (s : State) (pg t i v : Nat) : (s.setTbl pg t i v).tbl pg t i = v := sget_sset_same _ _ _ _

theorem tbl_setTbl_other (s : State) (pg t i v pg' t' i' : Nat) (h : tkey pg' t' i' ≠ tkey pg t i) :
    (s.setTbl pg t i v).tbl pg' t' i' = s.tbl pg' t' i' := sget_sset_other _ _ _ _ _ _ h

theorem mark_setMark_same (s : State) (pg m a : Nat) (e : WordErr) : (s.setMark pg m a e).mark pg m a = e :=
  sget_sset_same _ _ _ _

theorem mark_setMark_other (s : State) (pg m a pg' m' a' : Nat) (e : WordErr) (h : wkey pg' m' a' ≠ wkey pg m a) :
    (s.setMark pg m a e).mark pg' m' a' = s.mark pg' m' a' := sget_sset_other _ _ _ _ _ _ h

/-! ## Accesses that go through -/

/-- Whether a write access reaches its register (R14, R36, R315, R331, R335, R375, R392). -/
theorem judgeWrite_of (s : State) (a : Acc) (addr : Nat) (hb : a.be = 15) (hu : a.user = false)
    (hr : s.reaches a.req addr = true) (hp : s.pageOn (addr / 0x1000) = true)
    (hc : portOf a.req = none → s.scMayWrite (reqNo a.req - 2) addr = true) : s.judgeWrite a addr = (s, true) := by
  unfold State.judgeWrite
  cases h : portOf a.req with
  | some p => simp [hb, hu, hr, hp]
  | none => simp [hb, hr, hp, hc h]

end Sys2Proof.Machine
end

