-- ==== Sys2Proof/Laws/Events.lean ====
section
/-! SUPPORT. Everything that flagging and counting an event can do. -/
namespace Sys2Proof.Machine

/-! ## The frame relation -/

theorem onlyRegs_refl (P : Nat → Bool) (s : State) : State.onlyRegs P s s := ⟨rfl, fun _ _ => rfl⟩

theorem onlyRegs_trans {P : Nat → Bool} {s t u : State} (h1 : State.onlyRegs P s t) (h2 : State.onlyRegs P t u) :
    State.onlyRegs P s u := by
  refine ⟨?_, fun x hx => (h2.2 x hx).trans (h1.2 x hx)⟩
  have e2 := h2.1
  rw [h1.1] at e2
  exact e2

theorem onlyRegs_mono {P Q : Nat → Bool} {s t : State} (h : State.onlyRegs P s t) (hq : ∀ x, Q x = false → P x = false) :
    State.onlyRegs Q s t := ⟨h.1, fun x hx => h.2 x (hq x hx)⟩

theorem onlyRegs_wr {P : Nat → Bool} (s : State) (a v : Nat) (h : P a = true) : State.onlyRegs P s (s.wr a v) :=
  ⟨rfl, fun x hx => rd_wr_other s a v x (by rintro rfl; rw [h] at hx; exact absurd hx (by decide))⟩

theorem onlyRegs_setF {P : Nat → Bool} (s : State) (a : Nat) (fl : Fld) (x : Nat) (h : P a = true) :
    State.onlyRegs P s (s.setF a fl x) := onlyRegs_wr s a _ h

theorem onlyRegs_emit (P : Nat → Bool) (s : State) (e : Emit) : State.onlyRegs P s (s.emit e) := ⟨rfl, fun _ _ => rfl⟩

theorem onlyRegs_setPcie (P : Nat → Bool) (s : State) (p : Nat) (x : PcieSt) : State.onlyRegs P s (s.setPcie p x) := by
  unfold State.setPcie; split <;> exact ⟨rfl, fun _ _ => rfl⟩

theorem onlyRegs_if {P : Nat → Bool} {s t u : State} (c : Prop) [Decidable c] (h1 : State.onlyRegs P s t) (h2 : State.onlyRegs P s u) :
    State.onlyRegs P s (if c then t else u) := by split <;> assumption

theorem onlyRegs_foldl {P : Nat → Bool} {β : Type} (f : State → β → State) (l : List β) (s t : State)
    (h : State.onlyRegs P s t) (hf : ∀ u x, State.onlyRegs P u (f u x)) : State.onlyRegs P s (l.foldl f t) := by
  induction l generalizing t with
  | nil => exact h
  | cons x l ih => exact ih _ (onlyRegs_trans h (hf t x))

theorem onlyRegs_part {P : Nat → Bool} {s t : State} (h : State.onlyRegs P s t) : t.part = s.part := by rw [h.1]
theorem onlyRegs_pending {P : Nat → Bool} {s t : State} (h : State.onlyRegs P s t) : t.pending = s.pending := by rw [h.1]

/-- A domain is named by a die and a number below 64. -/
theorem domOf_lt (page d n : Nat) (h : domOf page = some (d, n)) : d ≤ 1 ∧ n < 64 := by
  unfold domOf at h
  obtain ⟨r, hr, he⟩ := Option.map_eq_some_iff.1 h
  have hm := List.mem_of_find?_eq_some hr
  have hc := List.find?_some hr
  simp only [Bool.and_eq_true, decide_eq_true_eq] at hc
  obtain ⟨rfl, rfl⟩ := Prod.mk.inj he
  have key : ∀ r ∈ domRows, r.2.2.1 ≤ 1 ∧ r.2.2.2.1 + r.2.2.2.2 * (r.2.1 - 1) < 64 := by decide
  obtain ⟨k1, k2⟩ := key r hm
  refine ⟨k1, Nat.lt_of_le_of_lt ?_ k2⟩
  exact Nat.add_le_add_left (Nat.mul_le_mul_left _ (by omega)) _

/-- A page answers as before where its domain's bit is not among the registers that may differ. -/
theorem onlyRegs_pageOn {P : Nat → Bool} {s t : State} (h : State.onlyRegs P s t)
    (hd : ∀ d w, d ≤ 1 → w ≤ 1 → P (Rg.PWR_DOM_STAT d w) = false) (page : Nat) : t.pageOn page = s.pageOn page := by
  have h1 : t.pw = s.pw := by rw [h.1]
  have h2 : ∀ d n, d ≤ 1 → n < 64 → t.domOn d n = s.domOn d n := fun d n hd' hn => by
    rw [State.domOn, State.domOn, h.2 _ (hd d (n / 32) hd' (by omega))]
  simp only [State.pageOn, h1, onlyRegs_part h, h2 0 26 (by omega) (by omega), h2 0 27 (by omega) (by omega)]
  cases e : domOf page with
  | none => rfl
  | some x => obtain ⟨k1, k2⟩ := domOf_lt page x.1 x.2 e; simp only [h2 x.1 x.2 k1 k2]

/-- The registers of an event are not those of the power domains. -/
theorem cntReg_dom (pg d w : Nat) (hg : pg % 0x1000 = 0) (hd : d ≤ 1) (hw : w ≤ 1) : cntReg pg (Rg.PWR_DOM_STAT d w) = false := by
  have h : Rg.PWR_DOM_STAT d w % 0x1000 = 0x108 + 4 * w ∧ irqReg (Rg.PWR_DOM_STAT d w) = false := by
    obtain rfl | rfl : d = 0 ∨ d = 1 := by omega
    all_goals obtain rfl | rfl : w = 0 ∨ w = 1 := by omega
    all_goals exact ⟨rfl, by decide⟩
  simp only [cntReg, intReg, h.2, Bool.or_false, Bool.or_eq_false_iff, decide_eq_false_iff_not, beq_eq_false_iff_ne]
  omega

/-! ## Flags -/

theorem onlyRegs_setIntRaw {P : Nat → Bool} (s : State) (pg m : Nat) (h1 : P (pg + 0x010) = true) (h2 : P (pg + 0x01C) = true) :
    State.onlyRegs P s (s.setIntRaw pg m) := by
  unfold State.setIntRaw
  simp only []
  split
  · exact onlyRegs_trans (onlyRegs_wr s _ _ h1) (onlyRegs_wr _ _ _ h2)
  · exact onlyRegs_wr s _ _ h1

theorem irqReg_cnt (p : Nat) (h : p = 0 ∨ p = 1) : irqReg (Rg.IRQ_MSG_CNT p) = true := by
  rcases h with rfl | rfl <;> decide

theorem ovfPlace_irq (p : Nat) (h : p = 0 ∨ p = 1) : (ovfPlace (Rg.IRQ_MSG_CNT p)).1 < 14 := by
  rcases h with rfl | rfl <;> decide

theorem irqReg_ovf (w : Nat) (h : w < 14) : irqReg (Pg.IRQ + 0x040 + 4 * w) = true := by
  simp only [irqReg, Bool.or_eq_true, decide_eq_true_eq]; right; omega

/-- A message sent: nothing but the port's MSI-X state, its count and the record of it changes. -/
theorem onlyRegs_sendMsg (s : State) (p vec : Nat) (h : p = 0 ∨ p = 1) : State.onlyRegs irqReg s (s.sendMsg p vec) := by
  unfold State.sendMsg
  simp only []
  split
  · exact onlyRegs_setPcie _ _ _ _
  · have h1 : State.onlyRegs irqReg s ((s.wr (Rg.IRQ_MSG_CNT p) (s.rd (Rg.IRQ_MSG_CNT p) + 1)).emit
        (.msix p vec (sget {} (s.pcie p).vecs vec).addr (sget {} (s.pcie p).vecs vec).data)) :=
      onlyRegs_trans (onlyRegs_wr s _ _ (irqReg_cnt p h)) (onlyRegs_emit _ _ _)
    split
    · exact h1
    · exact onlyRegs_trans h1 (onlyRegs_trans (onlyRegs_wr _ _ _ (irqReg_ovf _ (ovfPlace_irq p h)))
        (onlyRegs_setIntRaw _ _ _ (by decide) (by decide)))

theorem onlyRegs_raiseOn (s : State) (n p : Nat) (h : p = 0 ∨ p = 1) : State.onlyRegs irqReg s (s.raiseOn n p) := by
  unfold State.raiseOn
  simp only []
  split
  · exact onlyRegs_sendMsg _ _ _ h
  · exact onlyRegs_refl _ _

theorem onlyRegs_raiseSrc (s : State) (n : Nat) : State.onlyRegs irqReg s (s.raiseSrc n) :=
  onlyRegs_trans (onlyRegs_raiseOn s n 0 (.inl rfl)) (onlyRegs_raiseOn _ n 1 (.inr rfl))

/-- An event with its interrupt edges. -/
theorem onlyRegs_withEdges {P : Nat → Bool} (s : State) (ns : List Nat) (f : State → State) (h : State.onlyRegs P s (f s))
    (hp : ∀ x, P x = false → irqReg x = false) : State.onlyRegs P s (s.withEdges ns f) := by
  unfold State.withEdges
  refine onlyRegs_foldl _ ns s _ h fun u x => ?_
  split
  · exact onlyRegs_mono (onlyRegs_raiseSrc u x) hp
  · exact onlyRegs_refl _ _

theorem intReg_irq (pg x : Nat) (h : intReg pg x = false) : irqReg x = false := by
  simp only [intReg, Bool.or_eq_false_iff] at h; exact h.2

theorem cntReg_int (pg x : Nat) (h : cntReg pg x = false) : intReg pg x = false := by
  simp only [cntReg, Bool.or_eq_false_iff] at h; exact h.2

/-- Everything that flagging events in a page can do. -/
theorem onlyRegs_setInts (s : State) (pg m : Nat) : State.onlyRegs (intReg pg) s (s.setInts pg m) := by
  unfold State.setInts
  split
  · exact onlyRegs_withEdges s _ _ (onlyRegs_setIntRaw s pg m (by simp [intReg]) (by simp [intReg])) (intReg_irq pg)
  · exact onlyRegs_refl _ _

theorem onlyRegs_setInt (s : State) (pg b : Nat) : State.onlyRegs (intReg pg) s (s.setInt pg b) := onlyRegs_setInts s pg _

theorem onlyRegs_setIntIf (s : State) (c : Bool) (pg b : Nat) : State.onlyRegs (intReg pg) s (s.setIntIf c pg b) := by
  unfold State.setIntIf; split
  · exact onlyRegs_setInt s pg b
  · exact onlyRegs_refl _ _

/-! ## Counters -/

theorem onlyRegs_setOvf (s : State) (pg off b : Nat) (h1 : 0x040 ≤ off) (h2 : off < 0x07C) :
    State.onlyRegs (cntReg pg) s (s.setOvf pg off b) := by
  unfold State.setOvf
  simp only []
  split
  · exact onlyRegs_refl _ _
  · refine onlyRegs_trans (onlyRegs_wr s _ _ ?_) (onlyRegs_mono (onlyRegs_setInt _ pg 28) (cntReg_int pg))
    simp only [cntReg, Bool.or_eq_true, decide_eq_true_eq]; left; omega

/-- The page a register lies in (its BAR0 offset). -/
theorem ovfPlace_lt (addr : Nat) (h : addr % 0x1000 < 0x800) : (ovfPlace addr).1 < 15 := by
  simp only [ovfPlace]; omega

/-- Everything that counting an event can do: the counter, and the overflow of it. -/
theorem onlyRegs_bump (s : State) (addr n : Nat) (h : addr % 0x1000 < 0x800) :
    State.onlyRegs (fun x => x == addr || cntReg (addr / 0x1000 * 0x1000) x) s (s.bump addr n) := by
  unfold State.bump
  split
  · exact onlyRegs_refl _ _
  · simp only []
    have h1 : State.onlyRegs (fun x => x == addr || cntReg (addr / 0x1000 * 0x1000) x) s (s.wr addr (s.rd addr + n)) :=
      onlyRegs_wr s _ _ (by simp)
    split
    · exact h1
    · have := ovfPlace_lt addr h
      exact onlyRegs_trans h1 (onlyRegs_mono (onlyRegs_setOvf _ _ _ _ (by omega) (by omega)) (by
        intro x hx; simp only [Bool.or_eq_false_iff] at hx; exact hx.2))

theorem onlyRegs_bumpIf (s : State) (c : Bool) (addr : Nat) (h : addr % 0x1000 < 0x800) :
    State.onlyRegs (fun x => x == addr || cntReg (addr / 0x1000 * 0x1000) x) s (s.bumpIf c addr) := by
  unfold State.bumpIf; split
  · exact onlyRegs_bump s addr 1 h
  · exact onlyRegs_refl _ _

/-! ## What an event shows -/

theorem bit_or (v m i : Nat) : bit (v ||| m) i = (bit v i || bit m i) := by simp [bit_eq_testBit]

theorem bit_mod32 (v i : Nat) (h : i < 32) : bit (v % 2 ^ 32) i = bit v i := by
  rw [bit_eq_testBit, bit_eq_testBit, Nat.testBit_mod_two_pow]; simp [h]

/-- A PG_INT_STAT bit that is set stays set while events are flagged. -/
def keepsInt (s t : State) : Prop := ∀ pg i, pg % 0x1000 = 0 → i < 32 → bit (s.rd (pg + 0x010)) i = true → bit (t.rd (pg + 0x010)) i = true

theorem keepsInt_refl (s : State) : keepsInt s s := fun _ _ _ _ h => h
theorem keepsInt_trans {s t u : State} (h1 : keepsInt s t) (h2 : keepsInt t u) : keepsInt s u :=
  fun pg i hp hi h => h2 pg i hp hi (h1 pg i hp hi h)

theorem keepsInt_wr (s : State) (a v : Nat) (h : a % 0x1000 ≠ 0x010) : keepsInt s (s.wr a v) := fun pg i hp hi hb => by
  rw [rd_wr_other _ _ _ _ (by omega)]; exact hb

theorem keepsInt_setIntRaw (s : State) (pg m : Nat) (hg : pg % 0x1000 = 0) : keepsInt s (s.setIntRaw pg m) := by
  have h1 : keepsInt s (s.wr (pg + 0x010) (s.rd (pg + 0x010) ||| m)) := fun q i hq hi hb => by
    rw [rd_wr]; split
    · rename_i e; rw [bit_mod32 _ _ hi, bit_or, ← e, hb]; rfl
    · exact hb
  unfold State.setIntRaw
  simp only []
  split
  · exact keepsInt_trans h1 (keepsInt_wr _ _ _ (by omega))
  · exact h1

theorem setIntRaw_bit (s : State) (pg m i : Nat) (hi : i < 32) (hm : bit m i = true) :
    bit ((s.setIntRaw pg m).rd (pg + 0x010)) i = true := by
  have h1 : bit ((s.wr (pg + 0x010) (s.rd (pg + 0x010) ||| m)).rd (pg + 0x010)) i = true := by
    rw [rd_wr_same, bit_mod32 _ _ hi, bit_or, hm, Bool.or_true]
  unfold State.setIntRaw
  simp only []
  split
  · rw [rd_wr_other _ _ _ _ (by omega)]; exact h1
  · exact h1

theorem keepsInt_setPcie (s : State) (p : Nat) (x : PcieSt) : keepsInt s (s.setPcie p x) := by
  unfold State.setPcie; split <;> exact fun _ _ _ _ h => h

theorem keepsInt_sendMsg (s : State) (p vec : Nat) (h : p = 0 ∨ p = 1) : keepsInt s (s.sendMsg p vec) := by
  unfold State.sendMsg
  simp only []
  split
  · exact keepsInt_setPcie _ _ _
  · have h1 : keepsInt s ((s.wr (Rg.IRQ_MSG_CNT p) (s.rd (Rg.IRQ_MSG_CNT p) + 1)).emit
        (.msix p vec (sget {} (s.pcie p).vecs vec).addr (sget {} (s.pcie p).vecs vec).data)) :=
      keepsInt_wr s _ _ (by rcases h with rfl | rfl <;> decide)
    split
    · exact h1
    · have := ovfPlace_irq p h
      exact keepsInt_trans h1 (keepsInt_trans (keepsInt_wr _ _ _ (by
        have e : (Pg.IRQ + 0x040 + 4 * (ovfPlace (Rg.IRQ_MSG_CNT p)).1) % 0x1000 = 0x040 + 4 * (ovfPlace (Rg.IRQ_MSG_CNT p)).1 := by
          show (0x1093000 + 0x040 + _) % 0x1000 = _; omega
        omega)) (keepsInt_setIntRaw _ _ _ (by decide)))

theorem keepsInt_raiseSrc (s : State) (n : Nat) : keepsInt s (s.raiseSrc n) := by
  have h : ∀ (s : State) (p : Nat), p = 0 ∨ p = 1 → keepsInt s (s.raiseOn n p) := fun s p hp => by
    unfold State.raiseOn; simp only []; split
    · exact keepsInt_sendMsg _ _ _ hp
    · exact keepsInt_refl _
  exact keepsInt_trans (h s 0 (.inl rfl)) (h _ 1 (.inr rfl))

theorem keepsInt_withEdges (s : State) (ns : List Nat) (f : State → State) : keepsInt (f s) (s.withEdges ns f) := by
  unfold State.withEdges
  simp only []
  generalize f s = t0
  suffices ∀ t, keepsInt t0 t → keepsInt t0 (ns.foldl (fun t n => if !s.irqSrc n && t0.irqSrc n then t.raiseSrc n else t) t) from
    this t0 (keepsInt_refl _)
  induction ns with
  | nil => exact fun t h => h
  | cons n ns ih =>
    intro t h
    refine ih _ ?_
    beta_reduce
    split
    · exact keepsInt_trans h (keepsInt_raiseSrc _ _)
    · exact h

/-- A flagged event shows in PG_INT_STAT of its page. -/
theorem setInts_bit (s : State) (pg m i : Nat) (hg : pg % 0x1000 = 0) (hi : i < 32) (hm : bit m i = true)
    (hp : s.pageOn (pg / 0x1000) = true) : bit ((s.setInts pg m).rd (pg + 0x010)) i = true := by
  rw [State.setInts, if_pos hp]
  exact keepsInt_withEdges s _ (fun t => t.setIntRaw pg m) pg i hg hi (setIntRaw_bit s pg m i hi hm)

theorem setInt_bit (s : State) (pg b : Nat) (hg : pg % 0x1000 = 0) (hb : b < 32) (hp : s.pageOn (pg / 0x1000) = true) :
    bit ((s.setInt pg b).rd (pg + 0x010)) b = true :=
  setInts_bit s pg (2 ^ b) b hg hb (by simp [bit_eq_testBit]) hp

theorem keepsInt_setInt (s : State) (pg b : Nat) (hg : pg % 0x1000 = 0) : keepsInt s (s.setInt pg b) := by
  unfold State.setInt State.setInts
  split
  · exact keepsInt_trans (keepsInt_setIntRaw s pg (2 ^ b) hg) (keepsInt_withEdges s _ fun t => t.setIntRaw pg (2 ^ b))
  · exact keepsInt_refl _

/-- A counter after an event: one more, modulo 2³². -/
theorem bump_rd (s : State) (addr n : Nat) (h1 : 0x100 ≤ addr % 0x1000) (h2 : addr % 0x1000 < 0x800)
    (h3 : irqReg addr = false) (hp : s.pageOn (addr / 0x1000) = true) : (s.bump addr n).rd addr = (s.rd addr + n) % 2 ^ 32 := by
  unfold State.bump
  simp only [hp, Bool.not_true, Bool.false_eq_true, if_false]
  split
  · exact rd_wr_same _ _ _
  · have h4 := ovfPlace_lt addr h2
    rw [(onlyRegs_setOvf _ (addr / 0x1000 * 0x1000) (0x040 + 4 * (ovfPlace addr).1) (ovfPlace addr).2 (by omega) (by omega)).2 addr ?_]
    · exact rd_wr_same _ _ _
    · simp only [cntReg, intReg, h3, Bool.or_false, Bool.or_eq_false_iff, decide_eq_false_iff_not, beq_eq_false_iff_ne]
      omega

theorem setInt_pageOn (s : State) (pg b page : Nat) (hg : pg % 0x1000 = 0) : (s.setInt pg b).pageOn page = s.pageOn page :=
  onlyRegs_pageOn (onlyRegs_setInt s pg b) (fun d w hd hw => cntReg_int _ _ (cntReg_dom pg d w hg hd hw)) page

theorem bump_pageOn (s : State) (addr n page : Nat) (h : addr % 0x1000 < 0x800)
    (hd : ∀ d w, d ≤ 1 → w ≤ 1 → addr ≠ Rg.PWR_DOM_STAT d w) : (s.bump addr n).pageOn page = s.pageOn page :=
  onlyRegs_pageOn (onlyRegs_bump s addr n h) (fun d w h1 h2 => by
    rw [cntReg_dom _ d w (by omega) h1 h2, Bool.or_false, beq_eq_false_iff_ne]; exact (hd d w h1 h2).symm) page

/-! ## Accesses -/

/-- A write that goes through has its effect on the state as it stands. -/
theorem onWrite_of (s : State) (a : Acc) (addr : Nat) (f : State → State) (h : s.mayWrite a addr = true) :
    s.onWrite a addr f = f s := by
  simp only [State.mayWrite, Bool.and_eq_true, Bool.or_eq_true, beq_iff_eq, Bool.not_eq_true'] at h
  obtain ⟨⟨⟨⟨hb, hu⟩, hr⟩, hp⟩, hc⟩ := h
  have := judgeWrite_of s a addr hb hu hr hp (fun hn => by simpa [hn] using hc)
  simp [State.onWrite, this]

theorem mayWrite_pageOn {s : State} {a : Acc} {addr : Nat} (h : s.mayWrite a addr = true) : s.pageOn (addr / 0x1000) = true := by
  simp only [State.mayWrite, Bool.and_eq_true] at h; exact h.1.2

/-- A read that goes through has its effect on the state as it stands, and returns its data. -/
theorem onRead_of (s : State) (a : Acc) (addr : Nat) (f : State → State × Nat) (h : s.mayRead a addr = true) :
    s.onRead a addr f = { (f s).1 with rsp := some (f s).2 } := by
  simp only [State.mayRead, Bool.and_eq_true, Bool.not_eq_true'] at h
  obtain ⟨⟨hu, hr⟩, hp⟩ := h
  simp [State.onRead, State.judgeRead, hu, hr, hp]

end Sys2Proof.Machine
end

