-- ==== Sys2Proof/WellFormed.lean ====
section
/-! DEFINITION. Well-formed commands: operands that name something lie in the range of what they name (R6 to R13). The meanings are
total: an operand outside its range names nothing, and its command then changes nothing that the spec lays out. -/
namespace Sys2Proof

/-- An access: four byte enables, a clock of a tick of at most 2,303 clocks (R38, R405), and no user access by a controller (R315). -/
def Acc.ok (a : Acc) : Bool :=
  decide (a.be < 16) && decide (a.clk < 2304) && (!a.user || a.req == .pcie0 || a.req == .pcie1)

/-- A thread or context of an AP (R187). -/
def ApId.ok (i : ApId) : Bool := decide (i.cluster < 18) && decide (i.ap < 16) && decide (i.thread < 16) && i.ctx.all fun c => decide (c < 4)

/-- A register's BAR0 offset: within 32 MiB, of a whole word (R13, R14). -/
def regAddr (addr : Nat) : Bool := decide (addr < 2 ^ 25) && addr % 4 == 0

/-- Whether a command is well formed. -/
def Instr.wf : Instr → Bool
  | .registerWrite a addr _ => a.ok && regAddr addr
  | .loRead a addr => a.ok && regAddr addr
  | .loWrite a addr _ => a.ok && regAddr addr
  | .hiWrite a addr _ => a.ok && regAddr addr
  | .rcRead a addr => a.ok && regAddr addr
  | .stWrite a addr _ => a.ok && regAddr addr
  | .tickBoundary copies cmtCopies scrub => decide (copies < 16) && decide (cmtCopies < 16) && decide (scrub < 32768)
  | .tickPlan _ _ => true
  | .flitReceive die bundle _ _ _ => decide (die < 2) && decide (bundle < 16)
  | .laneParityCheck die bundle _ => decide (die < 2) && decide (bundle < 16)
  | .laneRepairComplete die bundle => decide (die < 2) && decide (bundle < 16)
  | .retrain a die _ => a.ok && decide (die < 2)
  | .autoRetrain => true
  | .d2dTrainingDone _ _ => true
  | .fdieAccessTimeout a _ => a.ok
  | .syncEdge clk => decide (clk < 2304)
  | .syncTag _ => true
  | .tickJudgment => true
  | .syncOutEdge _ _ => true
  | .tickGenCmt a _ => a.ok
  | .cmtStageClose a _ => a.ok
  | .checkDone => true
  | .cmtArm a _ => a.ok
  | .reopen a => a.ok
  | .discard a => a.ok
  | .discardDone => true
  | .abort a => a.ok
  | .cmtCtrlWrite a _ => a.ok
  | .commitDecision => true
  | .logWalkStart => true
  | .classLogWalkDone => true
  | .terrLogWalkDone => true
  | .copyRefillDone page => decide (page < 8192)
  | .pageStageDiscard a page => a.ok && decide (page < 8192)
  | .linkTrainingDone port => decide (port < 160)
  | .trainTimeout port lane => decide (port < 160) && decide (lane < 64)
  | .trainRetry port => decide (port < 160)
  | .linkAligned port => decide (port < 160)
  | .linkUpHoldExpiry port => decide (port < 64)
  | .linkLockLoss port _ _ => decide (port < 64)
  | .cdrLockLoss port lane => decide (port < 64) && decide (lane < 64)
  | .loopbackChange a port _ => a.ok && decide (port < 64)
  | .fecCodeword port _ => decide (port < 160)
  | .macRxFrame port _ _ clk => decide (port < 64) && decide (clk < 2304)
  | .pfcRx port _ _ => decide (port < 64)
  | .pfcPauseExpiry port pri => decide (port < 64) && decide (pri < 8)
  | .pfcStorm port pri => decide (port < 64) && decide (pri < 8)
  | .pfcStormRecoverEnd port pri => decide (port < 64) && decide (pri < 8)
  | .pfcTx port => decide (port < 64)
  | .pfcRefresh port => decide (port < 64)
  | .flexeCalAck engine group => decide (engine < 2) && decide (group < 8)
  | .flexeCalSwitch engine group => decide (engine < 2) && decide (group < 8)
  | .calTimeout engine group => decide (engine < 2) && decide (group < 8)
  | .flexeOverheadRx engine group _ _ _ _ => decide (engine < 2) && decide (group < 8)
  | .ptpStep a _ => a.ok
  | .ptpLoadGo a _ => a.ok
  | .ptpTxtsPop a => a.ok
  | .ppsOutPulse => true
  | .ppsOutEnd => true
  | .ppsInEdge clk => decide (clk < 2304)
  | .synceSquelch output => decide (output < 2)
  | .synceResume output => decide (output < 2)
  | .pmSecondRoll _ => true
  | .steerEnqueue port _ => decide (port < 64)
  | .sliceEntry slice clk _ _ _ => decide (slice < 9) && decide (clk < 2304)
  | .sliceHandoff dir slice _ => decide (dir < 2) && decide (slice < 9)
  | .pipeTimeout dir slice => decide (dir < 2) && decide (slice < 9)
  | .sliceFault dir slice _ => decide (dir < 2) && decide (slice < 9)
  | .fenceRehome dir slice => decide (dir < 2) && decide (slice < 9)
  | .fence a dir slice _ => a.ok && decide (dir < 2) && decide (slice < 9)
  | .steerMove a _ => a.ok
  | .moveStart dir => decide (dir < 2)
  | .moveDone dir => decide (dir < 2)
  | .steerEvac a _ => a.ok
  | .evacStop a _ => a.ok
  | .evacNextMove dir => decide (dir < 2)
  | .roleWrite a dir slice _ => a.ok && decide (dir < 2) && decide (slice < 9)
  | .selftest a dir slice _ => a.ok && decide (dir < 2) && decide (slice < 9)
  | .selftestPeriodic dir slice => decide (dir < 2) && decide (slice < 9)
  | .selftestDone dir slice _ => decide (dir < 2) && decide (slice < 9)
  | .tblRead a page => a.ok && decide (page < 8192)
  | .tblWrite a page => a.ok && decide (page < 8192)
  | .tblInsert a page => a.ok && decide (page < 8192)
  | .tblDelete a page => a.ok && decide (page < 8192)
  | .tblMove a page => a.ok && decide (page < 8192)
  | .tblSearch a page => a.ok && decide (page < 8192)
  | .tblFlush a page => a.ok && decide (page < 8192)
  | .unsupported a page _ => a.ok && decide (page < 8192)
  | .tblCommandDone page => decide (page < 8192)
  | .terrRowRewrite bank _ => decide (bank < 128)
  | .terrScrubStep bank _ _ _ => decide (bank < 128)
  | .livenessClear port clk => decide (port < 64) && decide (clk < 2304)
  | .nhopLive a word _ => a.ok && decide (word < 128)
  | .nhopLiveClr a word _ => a.ok && decide (word < 128)
  | .egressSliceEntry slice clk => decide (slice < 9) && decide (clk < 2304)
  | .deepLookupLate ap _ => ap.ok
  | .learnEvent => true
  | .learnNotePop a => a.ok
  | .agePassStart => true
  | .ageScanVisit _ => true
  | .add ap => ap.ok
  | .sub ap => ap.ok
  | .and ap => ap.ok
  | .or ap => ap.ok
  | .xor ap => ap.ok
  | .shl ap => ap.ok
  | .shr ap => ap.ok
  | .sar ap => ap.ok
  | .mul ap => ap.ok
  | .cmpeq ap => ap.ok
  | .cmpltu ap => ap.ok
  | .cmplt ap => ap.ok
  | .csum ap => ap.ok
  | .popc ap => ap.ok
  | .clz ap => ap.ok
  | .addi ap => ap.ok
  | .andi ap => ap.ok
  | .ori ap => ap.ok
  | .xori ap => ap.ok
  | .shli ap => ap.ok
  | .shri ap => ap.ok
  | .movk ap => ap.ok
  | .ext ap => ap.ok
  | .ins ap => ap.ok
  | .ldh ap => ap.ok
  | .sth ap => ap.ok
  | .mfs ap clk => ap.ok && decide (clk < 2304)
  | .mts ap => ap.ok
  | .beq ap => ap.ok
  | .bne ap => ap.ok
  | .bltu ap => ap.ok
  | .bgeu ap => ap.ok
  | .blt ap => ap.ok
  | .bge ap => ap.ok
  | .jal ap => ap.ok
  | .jr ap => ap.ok
  | .lkpExact ap => ap.ok
  | .lkpRoute ap => ap.ok
  | .lookupErr ap => ap.ok
  | .pktrd ap => ap.ok
  | .lkt ap => ap.ok
  | .lock ap => ap.ok
  | .lockGrant cluster lk => decide (cluster < 18) && decide (lk < 256)
  | .ulk ap => ap.ok
  | .cres ap => ap.ok
  | .cwr ap => ap.ok
  | .cpub ap => ap.ok
  | .crd ap => ap.ok
  | .apEnd ap => ap.ok
  | .drop ap => ap.ok
  | .punt ap => ap.ok
  | .lrn ap => ap.ok
  | .live ap clk => ap.ok && decide (clk < 2304)
  | .hpush ap => ap.ok
  | .hpop ap => ap.ok
  | .wlk ap => ap.ok
  | .wfe ap => ap.ok
  | .sig ap => ap.ok
  | .tstart ap => ap.ok
  | .tstop ap => ap.ok
  | .crevoke ap => ap.ok
  | .lrel ap => ap.ok
  | .brk ap => ap.ok
  | .illegalOp ap => ap.ok
  | .ticketComplete ap _ => ap.ok
  | .timeBound ap => ap.ok
  | .allwait cluster ap => decide (cluster < 18) && decide (ap < 16)
  | .apTimerExpiry cluster ap timer => decide (cluster < 18) && decide (ap < 16) && decide (timer < 16)
  | .stale cluster ap thread => decide (cluster < 18) && decide (ap < 16) && decide (thread < 16)
  | .halt a cluster _ => a.ok && decide (cluster < 18)
  | .resume a cluster _ => a.ok && decide (cluster < 18)
  | .step a cluster _ => a.ok && decide (cluster < 18)
  | .readReg a cluster _ => a.ok && decide (cluster < 18)
  | .writeReg a cluster _ => a.ok && decide (cluster < 18)
  | .dispatchEnWrite a cluster _ => a.ok && decide (cluster < 18)
  | .supStart a cluster _ => a.ok && decide (cluster < 18)
  | .poke a cluster _ => a.ok && decide (cluster < 18)
  | .packetHeadArrival clk => decide (clk < 2304)
  | .admissionDecision clk => decide (clk < 2304)
  | .spillPageWrite voq _ => decide (voq < 1048576)
  | .pageReturn voq => decide (voq < 1048576)
  | .staleDrain => true
  | .caldPwrWrite a _ => a.ok
  | .egressEnqueue clk => decide (clk < 2304)
  | .egressDecision lane clk _ => decide (lane < 8) && decide (clk < 2304)
  | .shaperRelease => true
  | .macTxFrame port clk _ _ => decide (port < 64) && decide (clk < 2304)
  | .gateOversize _ clk => decide (clk < 2304)
  | .gateListSwitch port clk => decide (port < 64) && decide (clk < 2304)
  | .latSampleSet clk _ => decide (clk < 2304)
  | .calendarFill _ => true
  | .frameReceive lane _ _ _ => decide (lane < 96)
  | .frameDeliver => true
  | .framePosition lane _ _ => decide (lane < 96)
  | .frameHeaderReceive lane _ => decide (lane < 96)
  | .fabricSignalLoss lane _ _ _ => decide (lane < 96)
  | .linkInService lane => decide (lane < 96)
  | .fabricXoffApply lane => decide (lane < 96)
  | .cellReceive => true
  | .reorderGapTimeout _ => true
  | .reassembly _ => true
  | .messageSelect => true
  | .request => true
  | .grant => true
  | .withdraw => true
  | .restore => true
  | .creditRound => true
  | .requestAgeOut => true
  | .requestReissue voq => decide (voq < 1048576)
  | .grantExpiry => true
  | .heldGrantExpiry => true
  | .withdrawTimeout => true
  | .refreshDue stack rank _ => decide (stack < 4) && decide (rank < 64)
  | .geyserDone stack rank => decide (stack < 4) && decide (rank < 64)
  | .geyserLight stack rank _ => decide (stack < 4) && decide (rank < 64)
  | .hbmRequest _ _ bank _ _ clk => decide (bank < 16) && decide (clk < 2304)
  | .hbmBurstIssue stack channel clk => decide (stack < 4) && decide (channel < 32) && decide (clk < 2304)
  | .selfRefreshEntry stack rank => decide (stack < 4) && decide (rank < 64)
  | .selfRefreshExit stack rank => decide (stack < 4) && decide (rank < 64)
  | .hbmControllerStart stack => decide (stack < 4)
  | .hbmTrainingDone stack _ _ => decide (stack < 4)
  | .hbmPeriodicRetrain stack channel _ => decide (stack < 4) && decide (channel < 32)
  | .rowRepair stack rank _ _ _ _ => decide (stack < 4) && decide (rank < 64)
  | .migGo a _ => a.ok
  | .migAbort a _ => a.ok
  | .autoMigration stack => decide (stack < 4)
  | .migrationChunk stack => decide (stack < 4)
  | .migDone stack => decide (stack < 4)
  | .sinterVisit cls page _ _ kind symbol _ _ _ _ _ _ => decide (cls < 16) && decide (page < 8192) && decide (kind < 4) && decide (symbol < 64)
  | .stateLostCleanup page _ _ => decide (page < 8192)
  | .pgFlip a page _ => a.ok && decide (page < 8192)
  | .scrubRwPop a => a.ok
  | .cntFreeze a _ => a.ok
  | .freezeEnd => true
  | .flowCacheWriteback => true
  | .plumeDue set => decide (set < 16)
  | .plumeDumpDone set _ => decide (set < 16)
  | .scHbKick a sc _ => a.ok && decide (sc < 2)
  | .heartbeatRx sc _ => decide (sc < 2)
  | .heartbeatMissCheck sc => decide (sc < 2)
  | .controllerFault sc clk => decide (sc < 2) && decide (clk < 2304)
  | .takeover => true
  | .switchover a sc _ => a.ok && decide (sc < 2)
  | .restart a sc _ => a.ok && decide (sc < 2)
  | .hold a sc _ => a.ok && decide (sc < 2)
  | .autoRestart sc => decide (sc < 2)
  | .bootTimeout sc clk => decide (sc < 2) && decide (clk < 2304)
  | .restartsClear sc => decide (sc < 2)
  | .splitEnd => true
  | .updLockReq a => a.ok
  | .updLockRelease a => a.ok
  | .lockTimeout clk => decide (clk < 2304)
  | .verify a => a.ok
  | .verifyDone _ _ _ _ _ => true
  | .clear a => a.ok
  | .start a _ => a.ok
  | .startDone part clk _ _ => decide (part < 44) && decide (clk < 2304)
  | .updFloorWrite a kind _ => a.ok && decide (1 ≤ kind ∧ kind ≤ 5)
  | .requireCust a _ => a.ok
  | .logPost a _ => a.ok
  | .pcieLinkDown port => decide (port < 2)
  | .hotReset port => decide (port < 2)
  | .functionLevelReset port => decide (port < 2)
  | .pcieLinkUp port _ _ _ => decide (port < 2)
  | .irqRearm a _ => a.ok
  | .dmaRingEnable a ring _ => a.ok && decide (ring < 64)
  | .dmaTailWrite a ring _ => a.ok && decide (ring < 64)
  | .rxDescriptorWrite ring _ _ clk => decide (ring < 64) && decide (clk < 2304)
  | .coalTimeout ring clk => decide (ring < 64) && decide (clk < 2304)
  | .recordFlushTimeout ring clk => decide (ring < 64) && decide (clk < 2304)
  | .injectPipe ring _ port _ clk => decide (ring < 64) && decide (port < 64) && decide (clk < 2304)
  | .injectVoq ring _ _ _ _ clk => decide (ring < 64) && decide (clk < 2304)
  | .hbmRead ring _ _ _ clk => decide (ring < 64) && decide (clk < 2304)
  | .powerRequest a addr _ => a.ok && regAddr addr
  | .domainPowerOnDone die dom => decide (die < 2) && decide (dom < 47)
  | .domainPowerOffDone die dom => decide (die < 2) && decide (dom < 47)
  | .standbyEnter a _ => a.ok
  | .standbyEntered => true
  | .standbyExit a _ => a.ok
  | .gpioWake pin clk => decide (pin < 8) && decide (clk < 2304)
  | .i3cWake => true
  | .standbyExited => true
  | .powerOn _ => true
  | .warmPin clk _ => decide (clk < 2304)
  | .soft a _ _ => a.ok
  | .fdie a _ _ => a.ok
  | .supply => true
  | .thermalTrip die => decide (die < 2)
  | .thermalAlert site _ => decide (site < 6)
  | .refLoss ref => decide (ref < 5)
  | .refReturn ref => decide (ref < 5)
  | .perst port _ => decide (port < 2)
  | .gpioEvent pin _ clk => decide (pin < 8) && decide (clk < 2304)
  | .softReset a page _ => a.ok && decide (page < 8192)
  | .enable a page _ => a.ok && decide (page < 8192)
  | .pgIntSet a page _ => a.ok && decide (page < 8192)
  | .rxFaultOrderedSet port _ _ => decide (port < 64)
  | .fabricSignalReturn lane => decide (lane < 96)
  | .managementPathChange _ => true
  | .msixMaskChange port _ _ vec _ _ _ => decide (port < 2) && decide (vec < 256)
  | .txBadType ring _ clk => decide (ring < 64) && decide (clk < 2304)
  | .poresetAssert => true
  | .supplyRestored _ => true
  | .flexeOhLock engine group _ _ _ => decide (engine < 2) && decide (group < 8)

end Sys2Proof
end

