-- ==== Sys2Proof/Tests/Slice0.lean ====
section
/-! SUPPORT. The model's own tests: ill-formed terms that WellFormed refuses, worked examples and words that the spec prints, and for
every statement with hypotheses states and operands that meet them. -/
namespace Sys2Proof.Tests
set_option Elab.async false
open Sys2Proof.Machine

/-- An access of PCIe port 0 that may do all a privileged access may. -/
def host : Acc := ⟨.pcie0, false, 15, 100⟩

/-- The state after reset. -/
def r0 : State := State.reset

/-! ## Ill-formed terms are refused -/

/-- A well-formed access, and a well-formed thread. -/
def ga : Acc := ⟨.sc1, false, 15, 2303⟩
def gp : ApId := ⟨17, 15, 15, some 3⟩

/-! One ill-formed term for each check of each command. -/

theorem test_ill_formed_0 : ([
    (Instr.registerWrite ⟨.pcie0, false, 16, 0⟩ 0 0).wf,
    (Instr.registerWrite ga 33554432 0).wf,
    (Instr.registerWrite ga 2 0).wf,
    (Instr.loRead ⟨.pcie0, false, 15, 2304⟩ 0).wf,
    (Instr.loRead ga 33554432).wf,
    (Instr.loRead ga 2).wf,
    (Instr.loWrite ⟨.sc0, true, 15, 0⟩ 0 0).wf,
    (Instr.loWrite ga 33554432 0).wf,
    (Instr.loWrite ga 2 0).wf,
    (Instr.hiWrite ⟨.pcie0, false, 16, 0⟩ 0 0).wf,
    (Instr.hiWrite ga 33554432 0).wf,
    (Instr.hiWrite ga 2 0).wf,
    (Instr.rcRead ⟨.pcie0, false, 15, 2304⟩ 0).wf,
    (Instr.rcRead ga 33554432).wf,
    (Instr.rcRead ga 2).wf,
    (Instr.stWrite ⟨.sc0, true, 15, 0⟩ 0 0).wf,
    (Instr.stWrite ga 33554432 0).wf,
    (Instr.stWrite ga 2 0).wf,
    (Instr.tickBoundary 16 0 0).wf,
    (Instr.tickBoundary 0 16 0).wf,
    (Instr.tickBoundary 0 0 32768).wf,
    (Instr.flitReceive 2 0 0 false false).wf,
    (Instr.flitReceive 0 16 0 false false).wf,
    (Instr.laneParityCheck 2 0 []).wf] : List Bool).any id = false := by decide

theorem test_ill_formed_1 : ([
    (Instr.laneParityCheck 0 16 []).wf,
    (Instr.laneRepairComplete 2 0).wf,
    (Instr.laneRepairComplete 0 16).wf,
    (Instr.retrain ⟨.pcie0, false, 16, 0⟩ 0 0).wf,
    (Instr.retrain ga 2 0).wf,
    (Instr.fdieAccessTimeout ⟨.pcie0, false, 15, 2304⟩ false).wf,
    (Instr.syncEdge 2304).wf,
    (Instr.tickGenCmt ⟨.sc0, true, 15, 0⟩ 0).wf,
    (Instr.cmtStageClose ⟨.pcie0, false, 16, 0⟩ 0).wf,
    (Instr.cmtArm ⟨.pcie0, false, 15, 2304⟩ 0).wf,
    (Instr.reopen ⟨.sc0, true, 15, 0⟩).wf,
    (Instr.discard ⟨.pcie0, false, 16, 0⟩).wf,
    (Instr.abort ⟨.pcie0, false, 15, 2304⟩).wf,
    (Instr.cmtCtrlWrite ⟨.sc0, true, 15, 0⟩ 0).wf,
    (Instr.copyRefillDone 8192).wf,
    (Instr.pageStageDiscard ⟨.pcie0, false, 16, 0⟩ 0).wf,
    (Instr.pageStageDiscard ga 8192).wf,
    (Instr.linkTrainingDone 160).wf,
    (Instr.trainTimeout 160 0).wf,
    (Instr.trainTimeout 0 64).wf,
    (Instr.trainRetry 160).wf,
    (Instr.linkAligned 160).wf,
    (Instr.linkUpHoldExpiry 64).wf,
    (Instr.linkLockLoss 64 false false).wf] : List Bool).any id = false := by decide

theorem test_ill_formed_2 : ([
    (Instr.cdrLockLoss 64 0).wf,
    (Instr.cdrLockLoss 0 64).wf,
    (Instr.loopbackChange ⟨.pcie0, false, 15, 2304⟩ 0 0).wf,
    (Instr.loopbackChange ga 64 0).wf,
    (Instr.fecCodeword 160 0).wf,
    (Instr.macRxFrame 64 [] none 0).wf,
    (Instr.macRxFrame 0 [] none 2304).wf,
    (Instr.pfcRx 64 0 []).wf,
    (Instr.pfcPauseExpiry 64 0).wf,
    (Instr.pfcPauseExpiry 0 8).wf,
    (Instr.pfcStorm 64 0).wf,
    (Instr.pfcStorm 0 8).wf,
    (Instr.pfcStormRecoverEnd 64 0).wf,
    (Instr.pfcStormRecoverEnd 0 8).wf,
    (Instr.pfcTx 64).wf,
    (Instr.pfcRefresh 64).wf,
    (Instr.flexeCalAck 2 0).wf,
    (Instr.flexeCalAck 0 8).wf,
    (Instr.flexeCalSwitch 2 0).wf,
    (Instr.flexeCalSwitch 0 8).wf,
    (Instr.calTimeout 2 0).wf,
    (Instr.calTimeout 0 8).wf,
    (Instr.flexeOverheadRx 2 0 0 0 0 []).wf,
    (Instr.flexeOverheadRx 0 8 0 0 0 []).wf] : List Bool).any id = false := by decide

theorem test_ill_formed_3 : ([
    (Instr.ptpStep ⟨.sc0, true, 15, 0⟩ 0).wf,
    (Instr.ptpLoadGo ⟨.pcie0, false, 16, 0⟩ 0).wf,
    (Instr.ptpTxtsPop ⟨.pcie0, false, 15, 2304⟩).wf,
    (Instr.ppsInEdge 2304).wf,
    (Instr.synceSquelch 2).wf,
    (Instr.synceResume 2).wf,
    (Instr.steerEnqueue 64 false).wf,
    (Instr.sliceEntry 9 0 none none none).wf,
    (Instr.sliceEntry 0 2304 none none none).wf,
    (Instr.sliceHandoff 2 0 false).wf,
    (Instr.sliceHandoff 0 9 false).wf,
    (Instr.pipeTimeout 2 0).wf,
    (Instr.pipeTimeout 0 9).wf,
    (Instr.sliceFault 2 0 0).wf,
    (Instr.sliceFault 0 9 0).wf,
    (Instr.fenceRehome 2 0).wf,
    (Instr.fenceRehome 0 9).wf,
    (Instr.fence ⟨.sc0, true, 15, 0⟩ 0 0 0).wf,
    (Instr.fence ga 2 0 0).wf,
    (Instr.fence ga 0 9 0).wf,
    (Instr.steerMove ⟨.pcie0, false, 16, 0⟩ 0).wf,
    (Instr.moveStart 2).wf,
    (Instr.moveDone 2).wf,
    (Instr.steerEvac ⟨.pcie0, false, 15, 2304⟩ 0).wf] : List Bool).any id = false := by decide

theorem test_ill_formed_4 : ([
    (Instr.evacStop ⟨.sc0, true, 15, 0⟩ 0).wf,
    (Instr.evacNextMove 2).wf,
    (Instr.roleWrite ⟨.pcie0, false, 16, 0⟩ 0 0 0).wf,
    (Instr.roleWrite ga 2 0 0).wf,
    (Instr.roleWrite ga 0 9 0).wf,
    (Instr.selftest ⟨.pcie0, false, 15, 2304⟩ 0 0 0).wf,
    (Instr.selftest ga 2 0 0).wf,
    (Instr.selftest ga 0 9 0).wf,
    (Instr.selftestPeriodic 2 0).wf,
    (Instr.selftestPeriodic 0 9).wf,
    (Instr.selftestDone 2 0 false).wf,
    (Instr.selftestDone 0 9 false).wf,
    (Instr.tblRead ⟨.sc0, true, 15, 0⟩ 0).wf,
    (Instr.tblRead ga 8192).wf,
    (Instr.tblWrite ⟨.pcie0, false, 16, 0⟩ 0).wf,
    (Instr.tblWrite ga 8192).wf,
    (Instr.tblInsert ⟨.pcie0, false, 15, 2304⟩ 0).wf,
    (Instr.tblInsert ga 8192).wf,
    (Instr.tblDelete ⟨.sc0, true, 15, 0⟩ 0).wf,
    (Instr.tblDelete ga 8192).wf,
    (Instr.tblMove ⟨.pcie0, false, 16, 0⟩ 0).wf,
    (Instr.tblMove ga 8192).wf,
    (Instr.tblSearch ⟨.pcie0, false, 15, 2304⟩ 0).wf,
    (Instr.tblSearch ga 8192).wf] : List Bool).any id = false := by decide

theorem test_ill_formed_5 : ([
    (Instr.tblFlush ⟨.sc0, true, 15, 0⟩ 0).wf,
    (Instr.tblFlush ga 8192).wf,
    (Instr.unsupported ⟨.pcie0, false, 16, 0⟩ 0 0).wf,
    (Instr.unsupported ga 8192 0).wf,
    (Instr.tblCommandDone 8192).wf,
    (Instr.terrRowRewrite 128 0).wf,
    (Instr.terrScrubStep 128 0 0 false).wf,
    (Instr.livenessClear 64 0).wf,
    (Instr.livenessClear 0 2304).wf,
    (Instr.nhopLive ⟨.pcie0, false, 15, 2304⟩ 0 0).wf,
    (Instr.nhopLive ga 128 0).wf,
    (Instr.nhopLiveClr ⟨.sc0, true, 15, 0⟩ 0 0).wf,
    (Instr.nhopLiveClr ga 128 0).wf,
    (Instr.egressSliceEntry 9 0).wf,
    (Instr.egressSliceEntry 0 2304).wf,
    (Instr.deepLookupLate ⟨18, 0, 0, none⟩ 0).wf,
    (Instr.learnNotePop ⟨.pcie0, false, 16, 0⟩).wf,
    (Instr.add ⟨0, 16, 0, none⟩).wf,
    (Instr.sub ⟨0, 0, 16, none⟩).wf,
    (Instr.and ⟨0, 0, 0, some 4⟩).wf,
    (Instr.or ⟨18, 0, 0, none⟩).wf,
    (Instr.xor ⟨0, 16, 0, none⟩).wf,
    (Instr.shl ⟨0, 0, 16, none⟩).wf,
    (Instr.shr ⟨0, 0, 0, some 4⟩).wf] : List Bool).any id = false := by decide

theorem test_ill_formed_6 : ([
    (Instr.sar ⟨18, 0, 0, none⟩).wf,
    (Instr.mul ⟨0, 16, 0, none⟩).wf,
    (Instr.cmpeq ⟨0, 0, 16, none⟩).wf,
    (Instr.cmpltu ⟨0, 0, 0, some 4⟩).wf,
    (Instr.cmplt ⟨18, 0, 0, none⟩).wf,
    (Instr.csum ⟨0, 16, 0, none⟩).wf,
    (Instr.popc ⟨0, 0, 16, none⟩).wf,
    (Instr.clz ⟨0, 0, 0, some 4⟩).wf,
    (Instr.addi ⟨18, 0, 0, none⟩).wf,
    (Instr.andi ⟨0, 16, 0, none⟩).wf,
    (Instr.ori ⟨0, 0, 16, none⟩).wf,
    (Instr.xori ⟨0, 0, 0, some 4⟩).wf,
    (Instr.shli ⟨18, 0, 0, none⟩).wf,
    (Instr.shri ⟨0, 16, 0, none⟩).wf,
    (Instr.movk ⟨0, 0, 16, none⟩).wf,
    (Instr.ext ⟨0, 0, 0, some 4⟩).wf,
    (Instr.ins ⟨18, 0, 0, none⟩).wf,
    (Instr.ldh ⟨0, 16, 0, none⟩).wf,
    (Instr.sth ⟨0, 0, 16, none⟩).wf,
    (Instr.mfs ⟨0, 0, 0, some 4⟩ 0).wf,
    (Instr.mfs gp 2304).wf,
    (Instr.mts ⟨18, 0, 0, none⟩).wf,
    (Instr.beq ⟨0, 16, 0, none⟩).wf,
    (Instr.bne ⟨0, 0, 16, none⟩).wf] : List Bool).any id = false := by decide

theorem test_ill_formed_7 : ([
    (Instr.bltu ⟨0, 0, 0, some 4⟩).wf,
    (Instr.bgeu ⟨18, 0, 0, none⟩).wf,
    (Instr.blt ⟨0, 16, 0, none⟩).wf,
    (Instr.bge ⟨0, 0, 16, none⟩).wf,
    (Instr.jal ⟨0, 0, 0, some 4⟩).wf,
    (Instr.jr ⟨18, 0, 0, none⟩).wf,
    (Instr.lkpExact ⟨0, 16, 0, none⟩).wf,
    (Instr.lkpRoute ⟨0, 0, 16, none⟩).wf,
    (Instr.lookupErr ⟨0, 0, 0, some 4⟩).wf,
    (Instr.pktrd ⟨18, 0, 0, none⟩).wf,
    (Instr.lkt ⟨0, 16, 0, none⟩).wf,
    (Instr.lock ⟨0, 0, 16, none⟩).wf,
    (Instr.lockGrant 18 0).wf,
    (Instr.lockGrant 0 256).wf,
    (Instr.ulk ⟨0, 0, 0, some 4⟩).wf,
    (Instr.cres ⟨18, 0, 0, none⟩).wf,
    (Instr.cwr ⟨0, 16, 0, none⟩).wf,
    (Instr.cpub ⟨0, 0, 16, none⟩).wf,
    (Instr.crd ⟨0, 0, 0, some 4⟩).wf,
    (Instr.apEnd ⟨18, 0, 0, none⟩).wf,
    (Instr.drop ⟨0, 16, 0, none⟩).wf,
    (Instr.punt ⟨0, 0, 16, none⟩).wf,
    (Instr.lrn ⟨0, 0, 0, some 4⟩).wf,
    (Instr.live ⟨18, 0, 0, none⟩ 0).wf] : List Bool).any id = false := by decide

theorem test_ill_formed_8 : ([
    (Instr.live gp 2304).wf,
    (Instr.hpush ⟨0, 16, 0, none⟩).wf,
    (Instr.hpop ⟨0, 0, 16, none⟩).wf,
    (Instr.wlk ⟨0, 0, 0, some 4⟩).wf,
    (Instr.wfe ⟨18, 0, 0, none⟩).wf,
    (Instr.sig ⟨0, 16, 0, none⟩).wf,
    (Instr.tstart ⟨0, 0, 16, none⟩).wf,
    (Instr.tstop ⟨0, 0, 0, some 4⟩).wf,
    (Instr.crevoke ⟨18, 0, 0, none⟩).wf,
    (Instr.lrel ⟨0, 16, 0, none⟩).wf,
    (Instr.brk ⟨0, 0, 16, none⟩).wf,
    (Instr.illegalOp ⟨0, 0, 0, some 4⟩).wf,
    (Instr.ticketComplete ⟨18, 0, 0, none⟩ 0).wf,
    (Instr.timeBound ⟨0, 16, 0, none⟩).wf,
    (Instr.allwait 18 0).wf,
    (Instr.allwait 0 16).wf,
    (Instr.apTimerExpiry 18 0 0).wf,
    (Instr.apTimerExpiry 0 16 0).wf,
    (Instr.apTimerExpiry 0 0 16).wf,
    (Instr.stale 18 0 0).wf,
    (Instr.stale 0 16 0).wf,
    (Instr.stale 0 0 16).wf,
    (Instr.halt ⟨.pcie0, false, 15, 2304⟩ 0 0).wf,
    (Instr.halt ga 18 0).wf] : List Bool).any id = false := by decide

theorem test_ill_formed_9 : ([
    (Instr.resume ⟨.sc0, true, 15, 0⟩ 0 0).wf,
    (Instr.resume ga 18 0).wf,
    (Instr.step ⟨.pcie0, false, 16, 0⟩ 0 0).wf,
    (Instr.step ga 18 0).wf,
    (Instr.readReg ⟨.pcie0, false, 15, 2304⟩ 0 0).wf,
    (Instr.readReg ga 18 0).wf,
    (Instr.writeReg ⟨.sc0, true, 15, 0⟩ 0 0).wf,
    (Instr.writeReg ga 18 0).wf,
    (Instr.dispatchEnWrite ⟨.pcie0, false, 16, 0⟩ 0 0).wf,
    (Instr.dispatchEnWrite ga 18 0).wf,
    (Instr.supStart ⟨.pcie0, false, 15, 2304⟩ 0 0).wf,
    (Instr.supStart ga 18 0).wf,
    (Instr.poke ⟨.sc0, true, 15, 0⟩ 0 0).wf,
    (Instr.poke ga 18 0).wf,
    (Instr.packetHeadArrival 2304).wf,
    (Instr.admissionDecision 2304).wf,
    (Instr.spillPageWrite 1048576 0).wf,
    (Instr.pageReturn 1048576).wf,
    (Instr.caldPwrWrite ⟨.pcie0, false, 16, 0⟩ 0).wf,
    (Instr.egressEnqueue 2304).wf,
    (Instr.egressDecision 8 0 none).wf,
    (Instr.egressDecision 0 2304 none).wf,
    (Instr.macTxFrame 64 0 false none).wf,
    (Instr.macTxFrame 0 2304 false none).wf] : List Bool).any id = false := by decide

theorem test_ill_formed_10 : ([
    (Instr.gateOversize 0 2304).wf,
    (Instr.gateListSwitch 64 0).wf,
    (Instr.gateListSwitch 0 2304).wf,
    (Instr.latSampleSet 2304 false).wf,
    (Instr.frameReceive 96 0 [] []).wf,
    (Instr.framePosition 96 0 0).wf,
    (Instr.frameHeaderReceive 96 0).wf,
    (Instr.fabricSignalLoss 96 false false false).wf,
    (Instr.linkInService 96).wf,
    (Instr.fabricXoffApply 96).wf,
    (Instr.requestReissue 1048576).wf,
    (Instr.refreshDue 4 0 0).wf,
    (Instr.refreshDue 0 64 0).wf,
    (Instr.geyserDone 4 0).wf,
    (Instr.geyserDone 0 64).wf,
    (Instr.geyserLight 4 0 0).wf,
    (Instr.geyserLight 0 64 0).wf,
    (Instr.hbmRequest 0 0 16 false 0 0).wf,
    (Instr.hbmRequest 0 0 0 false 0 2304).wf,
    (Instr.hbmBurstIssue 4 0 0).wf,
    (Instr.hbmBurstIssue 0 32 0).wf,
    (Instr.hbmBurstIssue 0 0 2304).wf,
    (Instr.selfRefreshEntry 4 0).wf,
    (Instr.selfRefreshEntry 0 64).wf] : List Bool).any id = false := by decide

theorem test_ill_formed_11 : ([
    (Instr.selfRefreshExit 4 0).wf,
    (Instr.selfRefreshExit 0 64).wf,
    (Instr.hbmControllerStart 4).wf,
    (Instr.hbmTrainingDone 4 [] []).wf,
    (Instr.hbmPeriodicRetrain 4 0 false).wf,
    (Instr.hbmPeriodicRetrain 0 32 false).wf,
    (Instr.rowRepair 4 0 0 [] false 0).wf,
    (Instr.rowRepair 0 64 0 [] false 0).wf,
    (Instr.migGo ⟨.pcie0, false, 15, 2304⟩ 0).wf,
    (Instr.migAbort ⟨.sc0, true, 15, 0⟩ 0).wf,
    (Instr.autoMigration 4).wf,
    (Instr.migrationChunk 4).wf,
    (Instr.migDone 4).wf,
    (Instr.sinterVisit 16 0 0 0 0 0 0 0 0 false false false).wf,
    (Instr.sinterVisit 0 8192 0 0 0 0 0 0 0 false false false).wf,
    (Instr.sinterVisit 0 0 0 0 4 0 0 0 0 false false false).wf,
    (Instr.sinterVisit 0 0 0 0 0 64 0 0 0 false false false).wf,
    (Instr.stateLostCleanup 8192 0 0).wf,
    (Instr.pgFlip ⟨.pcie0, false, 16, 0⟩ 0 0).wf,
    (Instr.pgFlip ga 8192 0).wf,
    (Instr.scrubRwPop ⟨.pcie0, false, 15, 2304⟩).wf,
    (Instr.cntFreeze ⟨.sc0, true, 15, 0⟩ 0).wf,
    (Instr.plumeDue 16).wf,
    (Instr.plumeDumpDone 16 false).wf] : List Bool).any id = false := by decide

theorem test_ill_formed_12 : ([
    (Instr.scHbKick ⟨.pcie0, false, 16, 0⟩ 0 0).wf,
    (Instr.scHbKick ga 2 0).wf,
    (Instr.heartbeatRx 2 false).wf,
    (Instr.heartbeatMissCheck 2).wf,
    (Instr.controllerFault 2 0).wf,
    (Instr.controllerFault 0 2304).wf,
    (Instr.switchover ⟨.pcie0, false, 15, 2304⟩ 0 0).wf,
    (Instr.switchover ga 2 0).wf,
    (Instr.restart ⟨.sc0, true, 15, 0⟩ 0 0).wf,
    (Instr.restart ga 2 0).wf,
    (Instr.hold ⟨.pcie0, false, 16, 0⟩ 0 0).wf,
    (Instr.hold ga 2 0).wf,
    (Instr.autoRestart 2).wf,
    (Instr.bootTimeout 2 0).wf,
    (Instr.bootTimeout 0 2304).wf,
    (Instr.restartsClear 2).wf,
    (Instr.updLockReq ⟨.pcie0, false, 15, 2304⟩).wf,
    (Instr.updLockRelease ⟨.sc0, true, 15, 0⟩).wf,
    (Instr.lockTimeout 2304).wf,
    (Instr.verify ⟨.pcie0, false, 16, 0⟩).wf,
    (Instr.clear ⟨.pcie0, false, 15, 2304⟩).wf,
    (Instr.start ⟨.sc0, true, 15, 0⟩ 0).wf,
    (Instr.startDone 44 0 false ⟨0, false, false, false, false⟩).wf,
    (Instr.startDone 0 2304 false ⟨0, false, false, false, false⟩).wf] : List Bool).any id = false := by decide

theorem test_ill_formed_13 : ([
    (Instr.updFloorWrite ⟨.pcie0, false, 16, 0⟩ 5 0).wf,
    (Instr.updFloorWrite ga 0 0).wf,
    (Instr.updFloorWrite ga 6 0).wf,
    (Instr.requireCust ⟨.pcie0, false, 15, 2304⟩ 0).wf,
    (Instr.logPost ⟨.sc0, true, 15, 0⟩ 0).wf,
    (Instr.pcieLinkDown 2).wf,
    (Instr.hotReset 2).wf,
    (Instr.functionLevelReset 2).wf,
    (Instr.pcieLinkUp 2 0 0 false).wf,
    (Instr.irqRearm ⟨.pcie0, false, 16, 0⟩ 0).wf,
    (Instr.dmaRingEnable ⟨.pcie0, false, 15, 2304⟩ 0 0).wf,
    (Instr.dmaRingEnable ga 64 0).wf,
    (Instr.dmaTailWrite ⟨.sc0, true, 15, 0⟩ 0 0).wf,
    (Instr.dmaTailWrite ga 64 0).wf,
    (Instr.rxDescriptorWrite 64 0 0 0).wf,
    (Instr.rxDescriptorWrite 0 0 0 2304).wf,
    (Instr.coalTimeout 64 0).wf,
    (Instr.coalTimeout 0 2304).wf,
    (Instr.recordFlushTimeout 64 0).wf,
    (Instr.recordFlushTimeout 0 2304).wf,
    (Instr.injectPipe 64 0 0 none 0).wf,
    (Instr.injectPipe 0 0 64 none 0).wf,
    (Instr.injectPipe 0 0 0 none 2304).wf,
    (Instr.injectVoq 64 0 0 0 none 0).wf] : List Bool).any id = false := by decide

theorem test_ill_formed_14 : ([
    (Instr.injectVoq 0 0 0 0 none 2304).wf,
    (Instr.hbmRead 64 0 0 0 0).wf,
    (Instr.hbmRead 0 0 0 0 2304).wf,
    (Instr.powerRequest ⟨.pcie0, false, 16, 0⟩ 0 0).wf,
    (Instr.powerRequest ga 33554432 0).wf,
    (Instr.powerRequest ga 2 0).wf,
    (Instr.domainPowerOnDone 2 0).wf,
    (Instr.domainPowerOnDone 0 47).wf,
    (Instr.domainPowerOffDone 2 0).wf,
    (Instr.domainPowerOffDone 0 47).wf,
    (Instr.standbyEnter ⟨.pcie0, false, 15, 2304⟩ 0).wf,
    (Instr.standbyExit ⟨.sc0, true, 15, 0⟩ 0).wf,
    (Instr.gpioWake 8 0).wf,
    (Instr.gpioWake 0 2304).wf,
    (Instr.warmPin 2304 ⟨0, 0, 0⟩).wf,
    (Instr.soft ⟨.pcie0, false, 16, 0⟩ 0 ⟨0, 0, 0⟩).wf,
    (Instr.fdie ⟨.pcie0, false, 15, 2304⟩ 0 ⟨0, 0, 0⟩).wf,
    (Instr.thermalTrip 2).wf,
    (Instr.thermalAlert 6 0).wf,
    (Instr.refLoss 5).wf,
    (Instr.refReturn 5).wf,
    (Instr.perst 2 false).wf,
    (Instr.gpioEvent 8 false 0).wf,
    (Instr.gpioEvent 0 false 2304).wf] : List Bool).any id = false := by decide

theorem test_ill_formed_15 : ([
    (Instr.softReset ⟨.sc0, true, 15, 0⟩ 0 0).wf,
    (Instr.softReset ga 8192 0).wf,
    (Instr.enable ⟨.pcie0, false, 16, 0⟩ 0 0).wf,
    (Instr.enable ga 8192 0).wf,
    (Instr.pgIntSet ⟨.pcie0, false, 15, 2304⟩ 0 0).wf,
    (Instr.pgIntSet ga 8192 0).wf,
    (Instr.rxFaultOrderedSet 64 false false).wf,
    (Instr.fabricSignalReturn 96).wf,
    (Instr.msixMaskChange 2 false false 0 false 0 0).wf,
    (Instr.msixMaskChange 0 false false 256 false 0 0).wf,
    (Instr.txBadType 64 0 0).wf,
    (Instr.txBadType 0 0 2304).wf,
    (Instr.flexeOhLock 2 0 false false 0).wf,
    (Instr.flexeOhLock 0 8 false false 0).wf] : List Bool).any id = false := by decide

/-! Well-formed terms. -/

theorem test_well_formed_0 : ([
    (Instr.registerWrite ga 0 0).wf,
    (Instr.d2dTrainingDone [] []).wf,
    (Instr.abort ga).wf,
    (Instr.linkLockLoss 0 false false).wf,
    (Instr.calTimeout 0 0).wf,
    (Instr.sliceHandoff 0 0 false).wf,
    (Instr.selftestPeriodic 0 0).wf,
    (Instr.livenessClear 0 0).wf,
    (Instr.xor gp).wf,
    (Instr.ori gp).wf,
    (Instr.bltu gp).wf,
    (Instr.ulk gp).wf,
    (Instr.wfe gp).wf,
    (Instr.halt ga 0 0).wf,
    (Instr.caldPwrWrite ga 0).wf,
    (Instr.fabricSignalLoss 0 false false false).wf,
    (Instr.requestReissue 0).wf,
    (Instr.hbmPeriodicRetrain 0 0 false).wf,
    (Instr.flowCacheWriteback).wf,
    (Instr.restartsClear 0).wf,
    (Instr.pcieLinkDown 0).wf,
    (Instr.powerRequest ga 0 0).wf,
    (Instr.supply).wf,
    (Instr.msixMaskChange 0 false false 0 false 0 0).wf] : List Bool).all id = true := by decide

/-! ## States and operands that meet the hypotheses of the statements: registers, ticks and commit -/

/-- A write of an ordinary register of the F-die goes to its own dispatch. -/
theorem plain_write (addr : Nat) (h : 0x100 ≤ addr % 0x1000 ∧ addr % 0x1000 < 0x800) (hl : isLo addr = false) (hh : isHi addr = false)
    (hd : domReqAt addr = none) (hf : addr < 0x1000000) (u : State) (b : Acc) (v : Nat) : u.writeReg b addr v = u.fWrite b addr v := by
  unfold State.writeReg
  rw [if_neg (by omega), if_neg (by omega), if_neg (by omega), hl, hh, hd]
  simp [hf]

/-- A state with one register set. -/
def reg1 (addr v : Nat) : State := r0.wr addr v

theorem test_step_runs_first : step { r0 with pending := [.ppsOutPulse, .ppsOutEnd] } =
    exec .ppsOutPulse { r0 with pending := [.ppsOutEnd] } ∧ r0.pending = [] := ⟨rfl, rfl⟩

/-- R17, R18: the reset state has a sound register file and steps. -/
theorem test_wit_step_keeps : r0.regsOk ∧ step r0 = .next r0 := ⟨⟨by simp [r0, State.reset, sRising], by simp [r0, State.reset]⟩, rfl⟩

theorem test_wit_register_write : (findReg Rg.NHOP_TPID01).isSome = true ∧
    (∀ (u : State) (b : Acc), u.writeReg b Rg.NHOP_TPID01 5 = u.fieldWrite Rg.NHOP_TPID01 5) ∧
    ((findReg Rg.NHOP_TPID01).any fun r => !r.staged && !r.reserved 5) = true ∧ r0.mayWrite host Rg.NHOP_TPID01 = true := by
  refine ⟨by decide +kernel, fun u b => ?_, by decide +kernel, by decide +kernel⟩
  rw [plain_write _ (by decide) (by decide +kernel) (by decide +kernel) (by decide +kernel) (by decide)]
  unfold State.fWrite
  repeat rw [if_neg (by decide)]

/-- A reserved value is written: D2D_LANE_THR takes no 0. -/
theorem test_wit_register_write_reserved : ((findReg (Rg.D2D_LANE_THR 0)).any fun r => !r.staged && r.reserved 0) = true ∧
    (∀ (u : State) (b : Acc), u.writeReg b (Rg.D2D_LANE_THR 0) 0 = u.fieldWrite (Rg.D2D_LANE_THR 0) 0) ∧
    intReg (Rg.D2D_LANE_THR 0 / 0x1000 * 0x1000) (Rg.D2D_LANE_THR 0) = false ∧ r0.mayWrite host (Rg.D2D_LANE_THR 0) = true := by
  refine ⟨by decide +kernel, fun u b => ?_, by decide +kernel, by decide +kernel⟩
  rw [plain_write _ (by decide) (by decide +kernel) (by decide +kernel) (by decide +kernel) (by decide)]
  unfold State.fWrite
  repeat rw [if_neg (by decide)]

theorem test_wit_discarded : (portOf host.req).isSome = true ∧ host.be = 15 ∧ host.user = false ∧ r0.reaches host.req 0x00FFF000 = true ∧
    r0.pageOn 0xFFF = false ∧ portOf ({ host with be := 7 } : Acc).req = some 0 ∧ r0.pageOn (Pg.PCIE 0 / 0x1000) = true := by decide +kernel

theorem test_wit_staged : ((findReg Rg.NHOP_CFG).any fun r => r.staged && r.fields.all (fun f => f.kind = .st || f.kind = .ro) && !r.reserved 0x1200) = true ∧
    (∀ (u : State) (b : Acc), u.writeReg b Rg.NHOP_CFG 0x1200 = u.fieldWrite Rg.NHOP_CFG 0x1200) ∧
    r0.mayWrite host Rg.NHOP_CFG = true ∧ r0.stageOpen = true ∧ (r0.setF Rg.CMT_STAT Fd.CMT_STAT_STATE 2).stageOpen = false := by
  refine ⟨by decide +kernel, fun u b => ?_, by decide +kernel, by decide +kernel, by decide +kernel⟩
  rw [plain_write _ (by decide) (by decide +kernel) (by decide +kernel) (by decide +kernel) (by decide)]
  unfold State.fWrite
  repeat rw [if_neg (by decide)]

/-- The same register through its shadow address (R393). -/
theorem test_wit_staged_shadow : (∀ (u : State) (b : Acc), u.writeReg b (Rg.NHOP_CFG + 0x700) 0x1200 = u.fieldWrite (Rg.NHOP_CFG + 0x700) 0x1200) ∧
    r0.mayWrite host (Rg.NHOP_CFG + 0x700) = true := by
  refine ⟨fun u b => ?_, by decide +kernel⟩
  unfold State.writeReg
  rw [if_neg (by decide), if_neg (by decide), if_pos (by decide), if_neg (by decide)]

theorem test_wit_lo_read : isLo Rg.TICK_COUNT_LO = true ∧ isHi Rg.TICK_COUNT_LO = false ∧
    ((findReg Rg.TICK_COUNT_LO).any fun r => !r.fields.any (fun f => f.kind = .rc)) = true ∧ r0.mayRead host Rg.TICK_COUNT_LO = true := by decide +kernel

theorem test_wit_lo_hi_write : r0.mayWrite host (Rg.APC_DBG_DATA_LO 17) = true ∧ r0.mayWrite host (Rg.APC_DBG_DATA_HI 17) = true ∧
    r0.rd (Rg.APC_DBG_DATA_LO 17) < 2 ^ 32 := by decide +kernel

/-! ## The die-to-die link, ticks and commit -/

/-- The die-to-die link up, with 16 bundles each way. -/
def linked : State := (List.range 16).foldl (fun s n => (s.setF (Rg.D2D_BUNDLE_STAT 0 n) Fd.D2D_BUNDLE_STAT_UP 1).setF (Rg.D2D_BUNDLE_STAT 1 n) Fd.D2D_BUNDLE_STAT_UP 1)
  ((({ r0 with d2 := { r0.d2 with training := false, trained := true } } : State).setF (Rg.D2D_STAT 0) Fd.D2D_STAT_STATE 3).setF (Rg.D2D_STAT 1) Fd.D2D_STAT_STATE 3)

theorem test_wit_flits : linked.bundleUp 1 15 = true ∧ linked.d2.training = false ∧ (linked.rx 1).length = 16 ∧
    linked.pageOn (Pg.D2D 1 / 0x1000) = true ∧ linked.pageOn (Pg.D2DL 1 (15 / 2) / 0x1000) = true ∧
    (linked.bundle 1 15).replays < 8 ∧ 8 ≤ ((linked.setBundle 1 15 { linked.bundle 1 15 with replays := 8 }).bundle 1 15).replays ∧
    linked.fb (Rg.D2D_CTRL 1) Fd.D2D_CTRL_AUTO_REPAIR = true ∧ linked.fb (Rg.D2D_BUNDLE_STAT 1 15) Fd.D2D_BUNDLE_STAT_SPARE_USED = false ∧
    (linked.bundle 1 15).repair = none := by decide +kernel

/-- One lane at the threshold of 16, the last one. -/
theorem test_wit_lane_repair : ∀ l, l < 32 → (linked.f (Rg.D2D_LANE_THR 1) Fd.D2D_LANE_THR_LANE_ERR_THR ≤ lget 0 (List.replicate 31 0 ++ [16]) l ↔ l = 31) := by
  decide +kernel

theorem test_wit_repair_off : (linked.setF (Rg.D2D_CTRL 1) Fd.D2D_CTRL_AUTO_REPAIR 0).fb (Rg.D2D_CTRL 1) Fd.D2D_CTRL_AUTO_REPAIR = false ∧
    ((linked.setBundle 1 15 { linked.bundle 1 15 with repair := some 31 }).bundle 1 15).repair = some 31 := by decide +kernel

theorem test_wit_training : r0.d2.training = true ∧ r0.d2dDown = true ∧ (r0.rx 0).length = 16 ∧ (r0.rx 1).length = 16 ∧
    r0.mayWrite host (Rg.D2D_CTRL 0) = true ∧ r0.f (Rg.D2D_STAT 0) Fd.D2D_STAT_STATE ≤ 1 ∧
    2 ≤ linked.f (Rg.D2D_STAT 0) Fd.D2D_STAT_STATE ∧ linked.mayWrite host (Rg.D2D_CTRL 1) = true ∧ bit (1 : Word).toNat 0 = true := by decide +kernel

/-- A link that has been down for 64 ticks. -/
def down64 : State := { r0 with d2 := { r0.d2 with training := false, downTicks := 64 } }

theorem test_wit_auto_retrain : down64.d2dDown = true ∧ down64.d2.training = false ∧ 0 < down64.d2.downTicks ∧ down64.d2.downTicks % 64 = 0 ∧
    (down64.setF (Rg.D2D_CTRL 0) Fd.D2D_CTRL_AUTO_RETRAIN 1).fb (Rg.D2D_CTRL 0) Fd.D2D_CTRL_AUTO_RETRAIN = true ∧
    portOf host.req = some 0 ∧ r0.pageOn (Pg.PCIE 0 / 0x1000) = true := by decide +kernel

theorem test_wit_tick_boundary : ({ r0 with pw := { r0.pw with por := true } } : State).pw.por = true ∧ r0.pw.por = false ∧ r0.pw.sup = false ∧
    r0.tk.base ≤ r0.tk.count ∧ r0.tk.corr ≤ 2048 ∧ r0.f Rg.TICK_CTRL Fd.TICK_CTRL_MODE = r0.tk.mode ∧ r0.tk.adopt = none := by decide +kernel

/-- SLAVE mode with an edge taken 1,536 clocks before clock 1,600. -/
def slave : State := ({ r0 with tk := { r0.tk with mode := 1, lastEdge := some 64 } } : State).setF Rg.TICK_CTRL Fd.TICK_CTRL_MODE 1

/-- R43 at its boundaries: 1,536 clocks after the last edge, 200 and 839 clocks, and between. -/
theorem test_wit_sync_edge : r0.tk.mode ≠ 1 ∧ slave.tk.mode = 1 ∧ slave.tk.lastEdge = some 64 ∧ 64 + 1536 ≤ slave.at 1600 ∧
    (64 + 200 ≤ slave.at 264 ∧ slave.at 903 ≤ 64 + 839) ∧ (slave.at 1599 < 64 + 1536 ∧ ¬(64 + 200 ≤ slave.at 1599 ∧ slave.at 1599 ≤ 64 + 839)) ∧
    slave.pageOn (Pg.TICK / 0x1000) = true := by decide +kernel

/-- The tag words of R41's example, good and bad. -/
theorem test_wit_sync_tag : tagCrc 0x00006027 = 0x00006027 % 256 ∧ tagCrc 0x00006028 ≠ 0x00006028 % 256 := by decide +kernel

/-- LOCKED in SLAVE mode, a boundary at 2,048 to judge with the edge and tag of R41's example. -/
def judged : State := ({ slave with tk := { slave.tk with bounds := [⟨2048, 63, 0⟩], edges := [⟨2048, some (0x00006027, true)⟩] } } : State).setF
  Rg.TICK_STAT Fd.TICK_STAT_STATE 3

/-- The edges of the boundary at 2,048. -/
def judgedEdges (s : State) : List SyncEdge := s.tk.edges.filter fun e => decide ((2048 : Int) - 1024 ≤ e.time + s.skew ∧ e.time + s.skew ≤ 2048 + 1023)

theorem test_wit_judgment : r0.tk.bounds = [] ∧ judged.tk.bounds = [⟨2048, 63, 0⟩] ∧ judgedEdges judged = [⟨2048, some (0x00006027, true)⟩] ∧
    judgedEdges { judged with tk := { judged.tk with edges := [] } } = [] ∧ judged.tkState = tkLocked ∧ tagTis 0x00006027 = (63 + 1) % 64 ∧
    ((2048 : Int) - (2048 + judged.skew)).natAbs ≤ judged.f Rg.TICK_CTRL Fd.TICK_CTRL_WINDOW ∧ judged.pageOn (Pg.TICK / 0x1000) = true := by decide +kernel

/-- MASTER mode. -/
def master : State := ({ r0 with tk := { r0.tk with mode := 2 } } : State).setF Rg.TICK_CTRL Fd.TICK_CTRL_MODE 2

theorem test_wit_sync_output : r0.f Rg.TICK_CTRL Fd.TICK_CTRL_OUT_MODE = 0 ∧ 2 ≤ (master.setF Rg.TICK_CTRL Fd.TICK_CTRL_OUT_MODE 2).f Rg.TICK_CTRL Fd.TICK_CTRL_OUT_MODE ∧
    r0.mayWrite host Rg.TICK_GEN_CMT = true ∧ bit (0x80000001 : Word).toNat 31 = true ∧ master.tk.mode = 2 ∧
    epochLater ((0x80000001 : Word).toNat % 4096) (master.f Rg.CMT_EPOCH Fd.CMT_EPOCH_SYS) = true ∧ r0.tk.mode ≠ 2 := by decide +kernel

/-- The commit goes into the tag of the edge that has left, of the edge before this tick, or of the next edge (R48). -/
theorem test_wit_next_tag : ({ master.tk with sentTag := some 0 } : TickSt).sentTag.isSome = true ∧
    2047 + master.f Rg.TICK_SKEW Fd.TICK_SKEW_OUT_ADV < master.tickLen + 200 ∧ master.tk.sentTag = none ∧ master.tk.curTag = none ∧
    ({ master.tk with curTag := some 0 } : TickSt).curTag.isSome = true ∧ host.clk + master.f Rg.TICK_SKEW Fd.TICK_SKEW_OUT_ADV < 200 ∧
    (master.genNext 0 5).tk.genCmt = some 5 ∧
    ({ master with tk := { master.tk with sentTag := some 0 } } : State).genNext 0 1 =
      { master with tk := { master.tk with sentTag := some (mkTag 2 1 1) } } := by decide +kernel

/-- A commit state set by hand, OWNER being the requester of PCIe port 0. -/
def inState (st : Nat) : State := (linked.setF Rg.CMT_STAT Fd.CMT_STAT_STATE st).setF Rg.CMT_STAT Fd.CMT_STAT_OWNER (reqNo .pcie0)

theorem test_wit_stage_close : linked.mayWrite host Rg.CMT_STAGE_CLOSE = true ∧ linked.stageOpen = true ∧ (inState cmClosed).stageOpen = false ∧
    (inState cmClosed).mayWrite host Rg.CMT_STAGE_CLOSE = true := by decide +kernel

/-- R51 at its boundary: 2,047 ahead is later, 2,048 is not. -/
theorem test_wit_arm : (inState cmClosed).mayWrite host Rg.CMT_ARM = true ∧ (inState cmClosed).cmtBusy = false ∧ (inState cmClosed).cmtState = cmClosed ∧
    (inState cmMissed).cmtState = cmMissed ∧ (inState cmClosed).fb Rg.CMT_STAT Fd.CMT_STAT_NO_OWNER = false ∧ bit (0x800007FF : Word).toNat 31 = true ∧
    (inState cmClosed).f Rg.CMT_STAT Fd.CMT_STAT_OWNER = reqNo host.req ∧ (inState cmClosed).f Rg.CMT_STAT Fd.CMT_STAT_OWNER ≠ reqNo .pcie1 ∧
    epochLater ((0x800007FF : Word).toNat % 4096) (inState cmClosed).refEpoch = true ∧ epochLater ((0x80000800 : Word).toNat % 4096) (inState cmClosed).refEpoch = false ∧
    (inState cmClosed).versionBusy = false ∧ (inState cmClosed).d2dDown = false := by decide +kernel

theorem test_wit_commit_commands : (inState cmClosed).mayWrite host Rg.CMT_CMD = true ∧ (inState cmClosed).reopenable = true ∧ (inState cmCheckFail).reopenable = true ∧
    (inState cmArmed).cmtState = cmArmed ∧ (inState cmArmed).mayWrite host Rg.CMT_CMD = true ∧ (inState cmArmed).cmtBusy = false ∧
    (inState cmArmed).fb Rg.CMT_STAT Fd.CMT_STAT_NO_OWNER = false ∧ (inState cmArmed).f Rg.CMT_STAT Fd.CMT_STAT_OWNER = reqNo host.req ∧
    ({ host with clk := 1023 } : Acc).clk < 1024 := by decide +kernel

theorem test_wit_check : (inState cmChecking).cmtState = cmChecking ∧ (inState cmChecking).pageOn (Pg.CMT / 0x1000) = true ∧
    linked.mayWrite host Rg.CMT_CTRL = true ∧ bit (1 : Word).toNat 0 ≠ linked.sysMode ∧ linked.cmtState = cmOpen ∧ linked.cmtBusy = false ∧
    bit (1 : Word).toNat 0 ≠ (inState cmArmed).sysMode ∧ ((inState cmOpen).setF Rg.CMT_STAT Fd.CMT_STAT_BUSY 1).cmtBusy = true := by decide +kernel

/-- A commit to epoch 1 in system mode, announced by the tag of R41's example. -/
def announced : State := ({ (((inState cmArmed).setF Rg.CMT_CTRL Fd.CMT_CTRL_COMMIT_MODE 1).setF Rg.CMT_STAT Fd.CMT_STAT_TARGET 1).setF Rg.TICK_STAT Fd.TICK_STAT_STATE 3 with
  tk := { linked.tk with curTag := some 0x00006027 } } : State)

theorem test_wit_decision : announced.sysMode = true ∧ announced.cmtState = cmArmed ∧ announced.tkState = tkLocked ∧ announced.tk.curTag = some 0x00006027 ∧
    tagCommit 0x00006027 = true ∧ tagEpoch 0x00006027 = announced.f Rg.CMT_STAT Fd.CMT_STAT_TARGET ∧ announced.d2dDown = false := by decide +kernel

theorem test_wit_commit_boundary : (inState cmArmed).commitComing = true ∧ (inState cmArmed).d2dDown = false ∧ 3 ≤ popcount 4 7 ∧ (inState cmArmed).pw.por = false ∧
    (r0.setF Rg.CMT_STAT Fd.CMT_STAT_STATE 4).commitComing = true ∧ (r0.setF Rg.CMT_STAT Fd.CMT_STAT_STATE 4).d2dDown = true ∧
    ({ r0 with cm := { r0.cm with walkDue := true } } : State).cm.walkDue = true ∧ r0.prevCount = 0 := by decide +kernel

/-! ## Line ports -/

/-- Line port 0 in a link state, on lanes 0 to 7. -/
def portIn (st : Nat) : State := (linked.setF (lpCfg 0) Fd.LPORT_CFG_SPEED 5).setF (lpStat 0) Fd.LPORT_STAT_LINK_STATE st

theorem test_wit_line_link : (portIn lkTraining).lportOn 0 = true ∧ (portIn lkTraining).isClient 0 = false ∧
    0 % 8 + cfgLanes ((portIn lkTraining).rd (lpCfg 0)) ≤ 8 ∧ (portIn lkTraining).lpLanes 0 = [0, 1, 2, 3, 4, 5, 6, 7] ∧
    (portIn lkTraining).lkState 0 = lkTraining ∧ ((portIn lkTraining).setF (laneStat 7) Fd.LSER_LANE_STAT_TRAIN 1).f (laneStat 7) Fd.LSER_LANE_STAT_TRAIN = 1 ∧
    (portIn lkAligning).lkState 0 = lkAligning ∧ (portIn lkHold).lkState 0 = lkHold ∧ (portIn lkUp).lkState 0 = lkUp ∧ (portIn lkUp).lkState 0 ≠ lkDown := by
  decide +kernel

theorem test_wit_loopback : (portIn lkUp).mayWrite host (lpCtrl 0) = true ∧ bits (0x80 : Word).toNat 6 2 ≠ (portIn lkUp).f (lpCtrl 0) Fd.LPORT_CTRL_LOOPBACK ∧
    bits (0x80 : Word).toNat 6 2 ≠ 3 := by decide +kernel

/-- R67 at its boundary: 15 symbol errors with correction on. -/
theorem test_wit_codeword : (portIn lkUp).lportOn 63 = true ∧ (portIn lkUp).fb (lpCtrl 63) Fd.LPORT_CTRL_FEC_CORRECT = true ∧
    ((portIn lkUp).setF (lpCtrl 63) Fd.LPORT_CTRL_FEC_CORRECT 0).fb (lpCtrl 63) Fd.LPORT_CTRL_FEC_CORRECT = false := by decide +kernel

/-- A frame with its FCS. -/
def framed (l : List Byte) : List Byte := l ++ leBytes 4 (fcs l)

/-- 64 bytes with EtherType 0x0800, and with 0x8808 and opcode 1. -/
def frame64 : List Byte := framed (List.replicate 12 0 ++ [0x08, 0x00] ++ List.replicate 46 0)
def pauseFrame : List Byte := framed (List.replicate 12 0 ++ [0x88, 0x08, 0x00, 0x01] ++ List.replicate 44 0)

theorem test_wit_mac : (portIn lkUp).lpFlexe 0 ≠ 1 ∧ (portIn lkDown).lkIsUp 0 = false ∧ (portIn lkUp).lkIsUp 0 = true ∧ (frame64.take 63).length < 64 ∧
    64 ≤ frame64.length ∧ frame64.length ≤ (portIn lkUp).f (lpCfg 0) Fd.LPORT_CFG_MAX_FRAME ∧
    (portIn lkUp).f (lpCfg 0) Fd.LPORT_CFG_MAX_FRAME < (List.replicate 9217 (0 : Byte)).length ∧ fcsOk frame64 = true ∧ be16 frame64 12 ≠ 0x8808 ∧
    fcsOk pauseFrame = true ∧ be16 pauseFrame 12 = 0x8808 ∧ be16 pauseFrame 14 = 0x0001 ∧ fcsOk (List.replicate 64 0) = false ∧
    (List.replicate 64 (0 : Byte)).length ≤ 256 ∧ fcsOk (List.replicate 257 0) = false := by
  refine ⟨by decide +kernel, by decide +kernel, by decide +kernel, by decide +kernel, by decide +kernel, by decide +kernel, ?_, by decide +kernel,
    by decide +kernel, by decide +kernel, by decide +kernel, by decide +kernel, by decide +kernel, by decide +kernel, by decide +kernel⟩
  rw [List.length_replicate]
  decide +kernel

/-- Priority 7 paused, and stormed. -/
theorem test_wit_pfc : bit (((portIn lkUp).wr (lpPfcStat 0) 0x80).rd (lpPfcStat 0)) 7 = true ∧
    ((portIn lkUp).setF (Rg.LPORT_STORM_CFG 0 0) Fd.LPORT_STORM_CFG_STORM_TIME 1).f (Rg.LPORT_STORM_CFG 0 0) Fd.LPORT_STORM_CFG_STORM_TIME ≠ 0 := by
  decide +kernel

/-- FlexE group 7 of engine 1 with a calendar request, acknowledged or not. -/
def flexReq (ack : Bool) : State := linked.setFlexGrp 1 7 ⟨some 1, ack⟩

theorem test_wit_flexe : (flexReq false).flexOn 1 7 = true ∧ ((flexReq false).flexGrp 1 7).req = some 1 ∧ ((flexReq false).flexGrp 1 7).acked = false ∧
    ((flexReq true).flexGrp 1 7).acked = true ∧ (flexReq false).fb (Rg.FLEXE_GRP_CFG 1 7) Fd.FLEXE_GRP_CFG_HANDSHAKE = true ∧
    ((flexReq false).setF (Rg.FLEXE_GRP_CFG 1 7) Fd.FLEXE_GRP_CFG_HANDSHAKE 0).fb (Rg.FLEXE_GRP_CFG 1 7) Fd.FLEXE_GRP_CFG_HANDSHAKE = false := by decide +kernel

/-- Channel 31 of engine 1 is a client of group 7, by slot 0 of its receive calendar. -/
def client : State := (((((flexReq false).setF (lpCfg 63) Fd.LPORT_CFG_FLEXE 2).setF (Rg.FLEXE_GRP_CFG 1 7) Fd.FLEXE_GRP_CFG_EN 1).wr (Rg.FLEXE_GRP_PHYS 1 7) 1).setF
  (lpCfg 32) Fd.LPORT_CFG_SPEED 1).setTbl (Pg.FLEXE 1) 0 (2 * 2 ^ 14 + 7 * 2 ^ 11) 0x9F

theorem test_wit_client : client.lportOn (32 * 1 + 31) = true ∧ client.isClient (32 * 1 + 31) = true ∧ client.clientGroup (32 * 1 + 31) = some 7 ∧
    client.lkState 63 ≤ lkAligning ∧ lkHold ≤ (client.setF (lpStat 63) Fd.LPORT_STAT_LINK_STATE 3).lkState 63 := by decide +kernel

theorem test_wit_times : r0.mayWrite host Rg.PTP_STEP = true ∧ r0.mayWrite host Rg.PTP_LOAD_GO = true ∧ r0.mayRead host Rg.PTP_TXTS_W0 = true ∧
    r0.ptp.txts = [] ∧ ({ r0 with ptp := { r0.ptp with txts := [(63, 1, 2, 3)] } } : State).ptp.txts = (63, 1, 2, 3) :: [] ∧
    r0.pageOn (Pg.PTP / 0x1000) = true ∧ r0.ptp.ppsLastIn = none ∧
    ({ r0 with ptp := { r0.ptp with ppsLastIn := some 50 } } : State).at 1000000050 ≥ 50 + 1000000000 ∧
    ({ r0 with ptp := { r0.ptp with ppsLastIn := some 50 } } : State).at 1000000049 < 50 + 1000000000 := by decide +kernel

theorem test_wit_synce : ((r0.setF (Rg.PTP_SYNCE_CFG 1) Fd.PTP_SYNCE_CFG_EN 1).setF (Rg.PTP_SYNCE_CFG 1) Fd.PTP_SYNCE_CFG_SQUELCH_EN 1).fb (Rg.PTP_SYNCE_CFG 1) Fd.PTP_SYNCE_CFG_EN = true ∧
    ((r0.setF (Rg.PTP_SYNCE_CFG 1) Fd.PTP_SYNCE_CFG_EN 1).setF (Rg.PTP_SYNCE_CFG 1) Fd.PTP_SYNCE_CFG_SQUELCH_EN 1).fb (Rg.PTP_SYNCE_CFG 1) Fd.PTP_SYNCE_CFG_SQUELCH_EN = true ∧
    ¬1 ∈ r0.ptp.squelched := by decide +kernel

/-! ## Steering and slices -/

/-- A frame of port 0 waits at the MAC. -/
def arrived : State := { linked with macQ := [⟨0, frame64, false, 0⟩] }

theorem test_wit_enqueue : (∀ fr ∈ linked.macQ, fr.port ≠ 0) ∧ arrived.macQ.find? (fun x => x.port == 0) = some ⟨0, frame64, false, 0⟩ ∧
    ({ r0 with macQ := arrived.macQ } : State).d2dDown = true ∧ r0.pageOn (Pg.D2D 0 / 0x1000) = true ∧ arrived.d2dDown = false ∧ arrived.moveIn = none ∧
    arrived.f (Rg.SBUF_USED 0) Fd.SBUF_USED_BYTES + frame64.length ≤ 524288 := by
  refine ⟨by decide +kernel, by decide +kernel, by decide +kernel, by decide +kernel, by decide +kernel, by decide +kernel, by decide +kernel⟩

/-- After reset the buckets of port 0 name active slices whose pools have room, whatever the flow hash (R90). -/
theorem test_wit_enqueue_bucket : ∀ j, j < 256 → arrived.bucketEnt 0 (256 * 0 + j % 256) % 16 < 8 := by decide +kernel

theorem test_wit_enqueue_room : ∀ i, i < 8 → arrived.isSlice 0 i = true ∧ (arrived.slice 0 i).stranded = false ∧ poolCount (arrived.slice 0 i).pool < 512 := by
  decide +kernel

/-- The same with every pool full. -/
def fullPools : State := (List.range 8).foldl (fun s i => s.setSlice 0 i { pool := List.replicate 512 (some {}) }) arrived

theorem test_wit_enqueue_full : (∀ i, i < 8 → 512 ≤ poolCount (fullPools.slice 0 i).pool ∧ (fullPools.slice 0 i).stranded = false) ∧
    fullPools.pageOn (Pg.STEER / 0x1000) = true ∧ fullPools.steerLossless (fullPools.steerClass 0 (frame64.take 60)) = false ∧
    (fullPools.wr Rg.STEER_CFG 0xFFFFFFFF).steerLossless (fullPools.steerClass 0 (frame64.take 60)) = true := by decide +kernel

/-- Slices 8 of both directions hold a packet in the pool and one inside, of either readiness and verdict. -/
def loaded (k : Pkt) : State := (linked.setSlice 0 8 { pool := [none, some k], inside := [k] }).setSlice 1 8 { pool := [none, some k], inside := [k] }

theorem test_wit_entry : (loaded {}).isSlice 1 8 = true ∧ (loaded {}).pageOn (Pg.SLICE 1 8 / 0x1000) = true ∧
    ((loaded {}).slice 1 8).pool.dropWhile (fun x => x.isNone) = some {} :: [] ∧ (∀ y ∈ ((loaded {}).slice 1 8).inside, y.entry < 2048 * (loaded {}).tk.count + 1) ∧
    (loaded {}).role 1 8 ≠ rlFenced ∧ ((loaded {}).setF (Rg.SLICE_CTRL 1 8) Fd.SLICE_CTRL_ROLE 3).role 1 8 = rlFenced := by decide +kernel

theorem test_wit_handoff : ((loaded {}).slice 0 8).inside = {} :: [] ∧ ({} : Pkt).ready = false ∧ ({ ready := true } : Pkt).ready = true ∧
    ({ ready := true, v := { fwd := 1 } } : Pkt).v.fwd = 1 ∧ ({ ready := true, v := { fwd := 0, hasDest := true } } : Pkt).v.fwd ≠ 1 ∧
    ({ ready := true, v := { fwd := 0, hasDest := true } } : Pkt).v.hasDest = true := by decide +kernel

/-- A write of STEER_MOVE: GO, direction 1, index 16,383, target slice 8. -/
def moveWord : Word := BitVec.ofNat 32 (2 ^ 31 + 2 ^ 30 + 16383 * 2 ^ 16 + 8)

theorem test_wit_move : linked.mayWrite host Rg.STEER_MOVE = true ∧ bit moveWord.toNat 31 = true ∧ bits moveWord.toNat 30 1 = 1 ∧ bits moveWord.toNat 16 14 = 16383 ∧
    moveWord.toNat % 16 = 8 ∧ linked.move 1 = none ∧ linked.evac 1 = none ∧ linked.role 1 8 = rlDormant ∧ linked.bucketEnt 1 16383 % 16 ≠ 8 ∧
    linked.bucketEnt 1 16383 % 16 = 7 ∧ 8 < linked.part.slices ∧ linked.part.slices ≤ 9 ∧ host.clk ≤ 1791 := by decide +kernel

/-- The LMB-4806, where buckets from 8,192 on belong to no line group. -/
theorem test_wit_move_absent : 256 * ({ r0 with part := .lmb4806 } : State).part.lanes ≤ 8192 := by decide +kernel

/-- The move of bucket 16,383 under way, due at tick 1. -/
def moving (started : Bool) (now : Nat) : State := { linked with moveEg := some ⟨16383, 7, 8, 1, started, false, []⟩, tk := { linked.tk with count := now } }

theorem test_wit_move_steps : (moving false 0).move 1 = some ⟨16383, 7, 8, 1, false, false, []⟩ ∧ (moving false 0).tk.count < 1 ∧ 1 ≤ (moving false 1).tk.count ∧
    (moving true 1).isSlice 1 7 = true ∧ (moving true 1).isSlice 1 8 = true ∧ (moving true 1).pageOn (Pg.STEER / 0x1000) = true ∧ (moving true 1).tk.count ≤ 1 ∧
    1 < (moving true 2).tk.count ∧ ((moving false 1).slice 1 7).rehome = false ∧
    (((moving false 1).setSlice 1 7 { rehome := true }).slice 1 7).rehome = true ∧ ((moving false 1).setSlice 1 7 { rehome := true }).move 1 = (moving false 1).move 1 :=
  by decide +kernel

/-- A write of STEER_EVAC: GO, direction 1, target 8, source 7. -/
def evacWord : Word := BitVec.ofNat 32 (2 ^ 31 + 2 ^ 30 + 8 * 16 + 7)

/-- An evacuation of slice 7 to slice 8 under way. -/
def evacuating : State := { linked with evacEg := some ⟨7, 8, 16383, false⟩ }

theorem test_wit_evac : linked.mayWrite host Rg.STEER_EVAC = true ∧ bits evacWord.toNat 30 1 = 1 ∧ bit evacWord.toNat 31 = true ∧ bit evacWord.toNat 29 = false ∧
    bits evacWord.toNat 4 4 < linked.part.slices ∧ linked.role 1 (bits evacWord.toNat 4 4) = rlDormant ∧ bits evacWord.toNat 4 4 ≠ evacWord.toNat % 16 ∧
    evacuating.evac 1 = some ⟨7, 8, 16383, false⟩ ∧ evacuating.move 1 = none ∧ evacuating.isSlice 1 7 = true ∧ evacuating.bucketEnt 1 16383 % 16 = 7 ∧
    ({ evacuating with moveEg := some ⟨15, 7, 8, 1, true, true, []⟩ } : State).evac 1 = some ⟨7, 8, 16383, false⟩ ∧
    bit (BitVec.ofNat 32 (2 ^ 29 + 2 ^ 30) : Word).toNat 29 = true ∧ (evacuating.slice 1 7).rehome = false ∧
    (evacuating.setSlice 1 7 { rehome := true }).evac 1 = some ⟨7, 8, 16383, false⟩ ∧ ((evacuating.setSlice 1 7 { rehome := true }).slice 1 7).rehome = true :=
  by decide +kernel

/-- Nothing is left to move from bucket 16,384 on, and bucket 16,383 is the first left of those from 16,383. -/
theorem test_wit_evac_next : (∀ x, 16384 ≤ x → x < 16384 → ({ evacuating with evacEg := some ⟨7, 8, 16384, false⟩ } : State).bucketEnt 1 x % 16 ≠ 7) ∧
    ∀ y, 16383 ≤ y → y < 16383 → evacuating.bucketEnt 1 y % 16 ≠ 7 := ⟨fun _ h g => absurd g (by omega), fun _ h g => absurd g (by omega)⟩

theorem test_wit_roles : linked.isSlice 1 8 = true ∧ linked.pageOn (Pg.SLICE 1 8 / 0x1000) = true ∧ linked.mayWrite host (Rg.SLICE_CTRL 1 8) = true ∧
    linked.role 1 8 = rlDormant ∧ linked.targeted 1 8 = false ∧ linked.fb (Rg.SLICE_STAT 1 8) Fd.SLICE_STAT_SELFTEST_BUSY = false ∧
    (linked.setF (Rg.SLICE_CTRL 1 8) Fd.SLICE_CTRL_SELFTEST_PERIOD 1).f (Rg.SLICE_CTRL 1 8) Fd.SLICE_CTRL_SELFTEST_PERIOD ≠ 0 ∧
    (linked.setF (Rg.SLICE_STAT 1 8) Fd.SLICE_STAT_SELFTEST_BUSY 1).fb (Rg.SLICE_STAT 1 8) Fd.SLICE_STAT_SELFTEST_BUSY = true ∧
    linked.role 1 7 = rlActive ∧ (linked.setF (Rg.SLICE_STAT 1 7) Fd.SLICE_STAT_BUCKETS 0).buckets 1 7 = 0 ∧ linked.buckets 1 7 ≠ 0 ∧
    ((linked.setF (Rg.SLICE_CTRL 1 8) Fd.SLICE_CTRL_ROLE 2).setF (Rg.SLICE_STAT 1 8) Fd.SLICE_STAT_SELFTEST_PASS 1).role 1 8 = rlService := by decide +kernel

theorem test_wit_no_stranded (j : Nat) : (linked.slice 1 j).stranded = false := rfl

/-- Slice 7 of the egress fenced, its buckets waiting for slice 8. -/
def fenced : State := (linked.setSlice 1 7 { rehome := true }).setF (Rg.SLICE_CTRL 1 7) Fd.SLICE_CTRL_ROLE 3

theorem test_wit_faults : bit ((linked.wr (Rg.SLICE_FAULT_EN 1 7) 0).rd (Rg.SLICE_FAULT_EN 1 7)) 4 = false ∧
    bit ((linked.wr (Rg.SLICE_FAULT_EN 1 7) 0x1F).rd (Rg.SLICE_FAULT_EN 1 7)) 4 = true ∧ linked.role 1 7 ≠ rlFenced ∧
    linked.mayWrite host (Rg.SLICE_CTRL 1 7) = true ∧ bit (0x40000000 : Word).toNat 30 = true ∧ bit (0x40000000 : Word).toNat 31 = false ∧
    (0x40000000 : Word).toNat % 4 = linked.role 1 7 ∧ (linked.slice 1 7).rehome = false ∧ (fenced.slice 1 7).rehome = true ∧ fenced.role 1 7 = rlFenced ∧
    fenced.role 1 8 = rlDormant ∧ (∀ m, m < 8 → fenced.role 1 m ≠ rlDormant) ∧ fenced.bucketEnt 1 7 % 16 = 7 := by decide +kernel

/-! ## Tables -/

/-- A running SEARCH of page EXM that will complete with NOT_FOUND. -/
def running : State := { linked with tblRun := [(0x0A0, some (6, 0x04, 0, none))] }

theorem test_wit_table_command : hasTables 0x0A0 = true ∧ linked.mayWrite host (0x0A0 * 0x1000 + 0xF00) = true ∧ shas linked.tblRun 0x0A0 = false ∧
    linked.refill.contains 0x0A0 = false ∧ shas running.tblRun 0x0A0 = true ∧ running.pageOn 0x0A0 = true ∧
    sget none running.tblRun 0x0A0 = some (6, 0x04, 0, none) ∧ running.softWait.contains 0x0A0 = false := by decide +kernel

/-- TBL_ADDR of page NHOP: an SA_MAC entry at the table's last index, and one beyond; a next hop, an ECMP group of no member. -/
def nhAt (tb i : Nat) : State := linked.wr (Pg.NHOP + 0xF04) (tb * 2 ^ 20 + i)

theorem test_wit_nhop : linked.mayWrite host (Pg.NHOP + 0xF00) = true ∧ shas linked.tblRun 0x0B0 = false ∧ linked.refill.contains 0x0B0 = false ∧
    bits ((nhAt 5 255).rd (Pg.NHOP + 0xF04)) 20 3 = 5 ∧ (nhAt 5 255).rd (Pg.NHOP + 0xF04) % 2 ^ 18 = 255 ∧ 255 < nhSize 5 ∧ nhSize 5 ≤ 256 ∧
    nhDataOk 5 ((nhAt 5 255).tblData 0x0B0 % 2 ^ nhBits 5) = true ∧ nhDataOk 1 ((nhAt 1 0).tblData 0x0B0 % 2 ^ nhBits 1) = false ∧ 0 < nhSize 1 := by decide +kernel

theorem test_wit_nhop_clean : (nhAt 5 255).cleanRow Pg.NHOP 5 (255 * wordsOf (nhBits 5)) (wordsOf (nhBits 5)) := by
  unfold State.cleanRow
  decide +kernel

/-- ACL in direct mode: TBL_ADDR names entry 131,071, TBL_DATA0 entry 0; `v` and `w` say which of them hold an entry. -/
def aclAt (v w : Bool) : State :=
  let s := (linked.setF Rg.CMT_CTRL Fd.CMT_CTRL_TABLE_MODE 1).wr (Pg.ACL + 0xF04) 131071
  let s1 := if v then s.setTbl Pg.ACL 0 131071 (mkAcl 0 0 1 0 0) else s
  if w then s1.setTbl Pg.ACL 0 0 (mkAcl 0 0 2 0 0) else s1

theorem test_wit_acl : linked.mayWrite host (Pg.ACL + 0xF00) = true ∧ shas linked.tblRun 0x099 = false ∧ linked.refill.contains 0x099 = false ∧
    (aclAt true true).versioned = false ∧ (aclAt true true).rd (Pg.ACL + 0xF04) % 2 ^ 17 = 131071 ∧ (aclAt true true).tblData 0x099 % 2 ^ 17 = 0 ∧
    linked.domOn 0 (26 + 131071 / 65536) = true ∧ linked.domOn 0 (26 + 0 / 65536) = true ∧ aclValid ((aclAt false false).acl 131071) = false ∧
    aclValid ((aclAt true false).acl 131071) = true ∧ aclValid ((aclAt true false).acl 0) = false ∧ aclValid ((aclAt true true).acl 0) = true := by decide +kernel

theorem test_wit_acl_search : linked.aclSearch (linked.rd (Rg.ACL_PROF_BANKS 0)) rkCur 0 = none ∧
    ((aclAt true true).wr (Rg.ACL_PROF_BANKS 0) 1).aclSearch 1 rkCur 0 = some (0, mkAcl 0 0 2 0 0) := by decide +kernel

/-- Exact-match table 31 of a type: one way of bank 63, 64-bit keys, one word an entry; TBL_ADDR names it. -/
def exmOn (typ : Nat) : State := ((linked.wr (Rg.EXM_TBL_CFG 31) (2 ^ 31 + typ * 2 ^ 28 + 63 * 2 ^ 16)).wr (Rg.EXM_TBL_PLACE 31) (63 * 2 ^ 24 + 2 ^ 16)).wr
  (Pg.EXM + 0xF04) (31 * 2 ^ 27)

/-- The table with the bucket of key 0 full of entries of other keys, and with an entry of key 0. -/
def exmFull (typ : Nat) : State := (((exmOn typ).exm 31).candidates 0).foldl (fun s i => s.exmPut ((exmOn typ).exm 31) i (2 ^ 127 + 1)) (exmOn typ)
def exmHit (typ e : Nat) : State := (exmOn typ).exmPut ((exmOn typ).exm 31) (lget 0 (((exmOn typ).exm 31).candidates 0) 3) (2 ^ 127 + e)

theorem test_wit_exm : linked.mayWrite host (Pg.EXM + 0xF00) = true ∧ (exmOn 0).rd (Pg.EXM + 0xF04) / 2 ^ 27 % 32 = 31 ∧ ((exmOn 0).exm 31).en = true ∧
    ((exmOn 0).exm 31).typ = 0 ∧ ((exmOn 0).exm 31).deep = false ∧ (exmOn 0).tblData 0x0A0 % 2 ^ 128 < 2 ^ ((exmOn 0).exm 31).keyBits ∧
    (exmOn 0).exmFind ((exmOn 0).exm 31) rkCur 0 = none ∧ ((exmOn 0).exmPlace ((exmOn 0).exm 31) 0).isSome = true ∧
    (((exmOn 0).exmPlace ((exmOn 0).exm 31) 0).any fun x => x.1.isEmpty) = true ∧ (exmFull 0).exmFind ((exmFull 0).exm 31) rkCur 0 = none ∧
    (exmFull 0).exmPlace ((exmFull 0).exm 31) 0 = none ∧ ((exmHit 0 0).exmFind ((exmHit 0 0).exm 31) rkCur 0).isSome = true := by decide +kernel

/-- A log walk is due, with ACL entry 131,071 (or Terrace row 16,383 of bank 127) on it. -/
def walking (marks : Nat) : State :=
  { (((linked.setF Rg.CLASS_LOG_STAT Fd.CLASS_LOG_STAT_CLEANUP 1).setF Rg.TERR_LOG_STAT Fd.TERR_LOG_STAT_CLEANUP 1).setTbl Pg.ACL 0 131071 (mkAcl 0 0 1 0 marks)).setTbl
      (Pg.TERR 7) (16 + 15) 16383 (mkRow 0 0 marks 0 0) with classWalk := [(0, 131071)], terrWalk := [16384 * 127 + 16383] }

/-- Markers: deleted at version 0 (the staged version being 1), and added at version 2. -/
theorem test_wit_walks : linked.pageOn (Pg.CLASS / 0x1000) = true ∧ linked.fb Rg.CLASS_LOG_STAT Fd.CLASS_LOG_STAT_CLEANUP = false ∧
    (walking 4).fb Rg.CLASS_LOG_STAT Fd.CLASS_LOG_STAT_CLEANUP = true ∧ aclValid ((walking 4).acl 131071) = true ∧
    bit (aclMarks ((walking 4).acl 131071)) 2 = true ∧ aclMarks ((walking 4).acl 131071) % 4 ≠ (walking 4).stagedVer ∧
    bit (aclMarks ((walking 48).acl 131071)) 2 = false ∧ (walking 48).addedNow (aclMarks ((walking 48).acl 131071)) = false ∧
    (walking 4).fb Rg.TERR_LOG_STAT Fd.TERR_LOG_STAT_CLEANUP = true ∧ trValid ((walking 4).terrShadow 127 16383) = true ∧
    bit (trMarks ((walking 4).terrShadow 127 16383)) 2 = true ∧ trMarks ((walking 4).terrShadow 127 16383) % 4 ≠ (walking 4).stagedVer ∧
    linked.pageOn (Pg.TERR_CTL / 0x1000) = true ∧ ({ linked with refill := [0x098] } : State).refill.contains 0x098 = true := by decide +kernel

/-- A row of Terrace that differs from its shadow, a row with bad parity, and a clean one. -/
def rowOff : State := (linked.setTbl (Pg.TERR 7) 15 16383 1).setTbl (Pg.TERR 7) 31 16383 (mkRow 0 0 0 0 0)

theorem test_wit_terrace : linked.pageOn (0x090 + 127 / 16) = true ∧ rowOff.shadowBad 127 16383 = false ∧ rowOff.terr 127 16383 ≠ rowOff.terrShadow 127 16383 ∧
    linked.terr 127 16383 = linked.terrShadow 127 16383 ∧ trParityBad (linked.terr 127 16383) = false := by decide +kernel

/-- Watch 4,095 is bound to port 63, which is not UP. -/
def watched : State := linked.setTbl Pg.NHOP 6 4095 (2 ^ 7 + 63)

theorem test_wit_liveness : linked.mayWrite host (Rg.NHOP_LIVE 127) = true ∧ linked.mayWrite host (Rg.NHOP_LIVE_CLR 127) = true ∧
    sget 0 linked.liveClr (32 * 127 + 31) ≠ linked.at host.clk + 1 ∧
    sget 0 ({ linked with liveClr := [(32 * 127 + 31, linked.at host.clk + 1)] } : State).liveClr (32 * 127 + 31) = linked.at host.clk + 1 ∧
    linked.pageOn (Pg.NHOP / 0x1000) = true ∧ watched.lkState 63 ≠ lkUp ∧ watched.watchesOf 63 = [4095] ∧ watched.live 4095 = true ∧
    (watched.setF (lpStat 63) Fd.LPORT_STAT_LINK_STATE 4).lkState 63 = lkUp := by decide +kernel

/-- Learning on, and an event of the tick before in the queue of slice 0, for key 0 of table 31. -/
def learning (s : State) (sport : Nat) : State :=
  { s.setF Rg.LEARN_CFG Fd.LEARN_CFG_EN 1 with tk := { s.tk with count := 1 }, ln := { s.ln with queues := [(0, [⟨0, 31, 0, 0, sport⟩])] } }

theorem test_wit_learn : r0.fb Rg.LEARN_CFG Fd.LEARN_CFG_EN = false ∧ (learning (exmOn 2) 5).fb Rg.LEARN_CFG Fd.LEARN_CFG_EN = true ∧
    (learning (exmOn 2) 5).learnNext = some (0, ⟨0, 31, 0, 0, 5⟩) ∧
    ¬((learning (exmOn 2) 5).ln.batchTick = (learning (exmOn 2) 5).tk.count ∧ 512 ≤ (learning (exmOn 2) 5).ln.done) ∧
    (learning (exmOn 2) 5).pageOn (Pg.LEARN / 0x1000) = true ∧ ((learning linked 5).exm 31).en = false ∧ ((exmOn 2).exm 31).en = true ∧
    ((exmOn 2).exm 31).typ = 2 ∧ ((exmOn 2).exm 31).deep = false ∧ (exmOn 2).exmFind ((exmOn 2).exm 31) rkCur 0 = none ∧
    (exmFull 2).exmPlace ((exmFull 2).exm 31) 0 = none ∧ (exmOn 2).l2Full = false ∧ ((exmOn 2).exmPlace ((exmOn 2).exm 31) 0).isSome = true := by decide +kernel

/-- The four cases of an entry that is there: static, frozen, the same SPORT and another. -/
theorem test_wit_learn_hit : ∀ st fz : Bool, ∃ i, (exmHit 2 (mkL2 st fz 0 0 0 5 0 0 0 - 2 ^ 127)).exmFind ((exmOn 2).exm 31) rkCur 0 = some i ∧
    l2Static ((exmHit 2 (mkL2 st fz 0 0 0 5 0 0 0 - 2 ^ 127)).exmEnt ((exmOn 2).exm 31) i) = st ∧
    l2Frozen ((exmHit 2 (mkL2 st fz 0 0 0 5 0 0 0 - 2 ^ 127)).exmEnt ((exmOn 2).exm 31) i) = fz ∧
    l2Sport ((exmHit 2 (mkL2 st fz 0 0 0 5 0 0 0 - 2 ^ 127)).exmEnt ((exmOn 2).exm 31) i) = 5 := by
  intro st fz
  refine ⟨lget 0 (((exmOn 2).exm 31).candidates 0) 3, ?_⟩
  cases st <;> cases fz <;> decide +kernel

theorem test_wit_learn_note : linked.mayRead host Rg.LEARN_NOTE_W0 = true ∧ linked.fb Rg.DMA_NOTE_CFG Fd.DMA_NOTE_CFG_EN = false ∧ linked.ln.notes = [] ∧
    ({ linked with ln := { linked.ln with notes := [(1, 2, 3, 4)] } } : State).ln.notes = (1, 2, 3, 4) :: [] := by decide +kernel

/-- Aging on, table 31 aged; a pass runs or not. -/
def aging (s : State) (run : Bool) : State :=
  { (s.setF Rg.AGE_CFG Fd.AGE_CFG_EN 1).setF (Rg.EXM_TBL_CFG 31) Fd.EXM_TBL_CFG_AGE_EN 1 with ln := { s.ln with ageRun := run, ageTotal := 196608 } }

theorem test_wit_age : r0.fb Rg.AGE_CFG Fd.AGE_CFG_EN = false ∧ linked.pageOn (Pg.AGE / 0x1000) = true ∧ (aging linked false).fb Rg.AGE_CFG Fd.AGE_CFG_EN = true ∧
    (aging linked false).ln.ageNext ≤ (aging linked false).tk.count ∧ (aging linked false).ln.ageRun = false ∧ (aging linked false).agedTables = [] ∧
    (aging linked true).ln.ageRun = true ∧ (aging linked true).ln.ageLong = false ∧ (aging (exmOn 2) true).ln.ageTick ≠ (aging (exmOn 2) true).tk.count + 1 ∧
    (aging (exmOn 2) true).ln.agePos < (aging (exmOn 2) true).ln.ageTotal ∧ 1 ≤ (aging (exmOn 2) true).rd Rg.AGE_PASS ∧
    agedAt (aging (exmOn 2) true).agedTables (aging (exmOn 2) true).ln.agePos = some ((aging (exmOn 2) true).exm 31, 0) ∧
    ((aging (exmOn 2) true).exm 31).valid ((aging (exmOn 2) true).exmEnt ((aging (exmOn 2) true).exm 31) 0) = false := by decide +kernel

/-- An entry in slot 0 that no packet has refreshed for the limit. -/
def stale : State := ((aging (exmOn 2) true).exmPut ((aging (exmOn 2) true).exm 31) 0 (mkL2 false false 0 0 0 5 0 0 0)).setF Rg.AGE_STAT Fd.AGE_STAT_CUR 255

theorem test_wit_age_out : (stale.exm 31).valid (stale.exmEnt (stale.exm 31) 0) = true ∧ l2Static (stale.exmEnt (stale.exm 31) 0) = false ∧
    stale.f Rg.AGE_CFG Fd.AGE_CFG_AGE_LIMIT ≤ (stale.ageCur + 256 - l2Age (stale.exmEnt (stale.exm 31) 0)) % 256 := by decide +kernel

/-! ## Action processors -/

/-- Context 3 of thread 14, and the supervisor, of AP 15 of cluster 17. -/
def pkt : ApId := ⟨17, 15, 14, some 3⟩
def sup : ApId := ⟨17, 15, 15, none⟩

/-- A worker thread's own register set. -/
def wrk : ApId := ⟨17, 15, 14, none⟩

/-- A register set that may issue the instruction word at address 0; g1 holds `a`. -/
def apS (i : ApId) (w a : Nat) : State :=
  let x : ApCtx := { live := true, iBound := 1, flen := 64, regs := [(1, BitVec.ofNat 64 a)] }
  let s := linked.setTbl (Pg.APC i.cluster) 0 0 w
  if i.packet then s.setCtx i x else s.setThr i { st := 1, x := x }

/-- `apReady` as a Boolean. -/
def ready (s : State) (i : ApId) (op : ApOp) : Bool :=
  s.apMay i && s.apNext i == op && !s.apBad i (s.apAt i) && (!i.packet || decide ((s.ctx i).issued < (s.ctx i).iBound))

theorem ready_apReady (s : State) (i : ApId) (op : ApOp) : ready s i op = true ↔ s.apReady i op := by
  unfold ready State.apReady
  cases i.packet <;> simp [and_assoc]

/-- The words of the opcode list of R192, by the formats of R191: op [31:26], rd 2, ra 1, rb 3, and the rest. -/
def aluWord (fn : Nat) : Nat := 0x01 * 2 ^ 26 + 2 * 2 ^ 21 + 1 * 2 ^ 16 + 3 * 2 ^ 11 + fn
def immWord (op imm : Nat) : Nat := op * 2 ^ 26 + 2 * 2 ^ 21 + 1 * 2 ^ 16 + imm
def sysWord (fn imm : Nat) : Nat := 0x3F * 2 ^ 26 + 2 * 2 ^ 21 + 1 * 2 ^ 16 + 3 * 2 ^ 11 + fn * 2 ^ 6 + imm

def words1 : List (Nat × ApOp) :=
  [(aluWord 0, .add), (aluWord 1, .sub), (aluWord 2, .and), (aluWord 3, .or),
    (aluWord 4, .xor), (aluWord 5, .shl), (aluWord 6, .shr), (aluWord 7, .sar),
    (aluWord 8, .mul), (aluWord 9, .cmpeq), (aluWord 10, .cmpltu), (aluWord 11, .cmplt),
    (aluWord 12, .csum), (aluWord 13, .popc), (aluWord 14, .clz), (immWord 0x08 0xFFFF, .addi)]
def words2 : List (Nat × ApOp) :=
  [(immWord 0x09 0xFFFF, .andi), (immWord 0x0A 1, .ori), (immWord 0x0B 1, .xori), (immWord 0x0C 63, .shli),
    (immWord 0x0D 63, .shri), (immWord 0x0E 7, .movk), (immWord 0x10 (63 * 2 ^ 10 + 63 * 2 ^ 4), .ext), (immWord 0x11 (8 * 2 ^ 10 + 7 * 2 ^ 4), .ins),
    (immWord 0x18 (3 * 2 ^ 14), .ldh), (immWord 0x19 (3 * 2 ^ 14), .sth), (immWord 0x1C 0x060, .mfs), (immWord 0x1D 0x041, .mts),
    (immWord 0x20 1, .beq), (immWord 0x21 1, .bne), (immWord 0x22 1, .bltu), (immWord 0x23 1, .bgeu)]
def words3 : List (Nat × ApOp) :=
  [(immWord 0x24 1, .blt), (immWord 0x25 0xFFFF, .bge), (immWord 0x26 8191, .jal), (immWord 0x27 0, .jr),
    (immWord 0x30 0x020, .lkpRoute), (immWord 0x31 0, .pktrd), (immWord 0x32 0, .lkt), (immWord 0x33 0, .lock),
    (immWord 0x34 0, .ulk), (immWord 0x35 0, .cres), (immWord 0x36 7, .cwr), (immWord 0x37 0, .cpub),
    (immWord 0x38 0, .crd), (sysWord 0x00 0, .endPkt), (sysWord 0x01 0, .drop), (sysWord 0x02 0, .punt)]
def words4 : List (Nat × ApOp) :=
  [(sysWord 0x03 0, .lrn), (sysWord 0x04 1, .live), (sysWord 0x05 0, .hpush), (sysWord 0x06 0, .hpop),
    (sysWord 0x07 15, .wlk), (sysWord 0x08 0, .wfe), (sysWord 0x09 0, .sig), (sysWord 0x0A 0, .tstart),
    (sysWord 0x0B 0, .tstop), (sysWord 0x0C 0, .crevoke), (sysWord 0x0D 0, .lrel), (sysWord 0x0E 0, .brk),
    (0, .illegal), (sysWord 0x0F 0, .illegal)]
def words : List (Nat × ApOp) := words1 ++ words2 ++ words3 ++ words4

/-- A packet context may issue every operation, and the words of the list decode to them. -/
theorem test_wit_ap_packet : words.all (fun e => ready (apS pkt e.1 0) pkt e.2) = true := by decide +kernel

/-- So may the supervisor. -/
theorem test_wit_ap_thread : words.all (fun e => ready (apS sup e.1 0) sup e.2) = true := by decide +kernel

/-- The examples after R193: ADDI g5, g3, 0x20 and the IPv4 route lookup into g10. -/
theorem test_ap_words : apOp 0x20A30020 = .addi ∧ fRd 0x20A30020 = 5 ∧ fRa 0x20A30020 = 3 ∧ fImm 0x20A30020 = 0x20 ∧
    apOp 0xC1411220 = .lkpRoute ∧ fRd 0xC1411220 = 10 ∧ fRa 0xC1411220 = 1 ∧ fRb 0xC1411220 = 2 ∧ fTkt 0xC1411220 = 1 := by decide +kernel

/-- ADD wraps, SAR keeps the sign, and a write of g0 is discarded (R187, R192). -/
theorem test_add : (match exec (.add pkt) (apS pkt (0x01 * 2 ^ 26 + 2 * 2 ^ 21 + 1 * 2 ^ 16 + 1 * 2 ^ 11) (2 ^ 63 + 1)) with
    | .next t => t.gr pkt 2 == 2 && (t.ctx pkt).pc == 1 | _ => false) = true := by decide +kernel
theorem test_sar : (match exec (.sar pkt) (apS pkt (0x01 * 2 ^ 26 + 1 * 2 ^ 16 + 2 * 2 ^ 21 + 1 * 2 ^ 11 + 7) (2 ^ 63 + 1)) with
    | .next t => t.gr pkt 2 == 0xC000000000000000 | _ => false) = true := by decide +kernel
theorem test_g0 : (match exec (.addi pkt) (apS pkt (0x08 * 2 ^ 26 + 1 * 2 ^ 16 + 5) 1) with
    | .next t => t.gr pkt 0 == 0 && t.gr pkt 1 == 1 | _ => false) = true := by decide +kernel

/-- Window accesses at the ends of the window of R189 (8 bytes at −128 and at 248), beyond them, and beyond the frame. -/
theorem test_wit_window : (0 : Int) + ((BitVec.ofInt 64 (-128)).toInt + signed 14 0) = -128 ∧ (248 : Int) + 8 ≤ 256 ∧ ¬((248 : Int) + 8 ≤ ((apS pkt 0 0).ctx pkt).flen) ∧
    ((56 : Int) + 8 ≤ ((apS pkt 0 0).ctx pkt).flen) ∧ ((apS pkt 0 0).ctx pkt).start = 0 ∧ pkt.packet = true ∧ sup.packet = false := by decide +kernel

/-- HPUSH at its bounds: 128 bytes from the start of the frame are room, 129 are not; HPOP of 255, and of 1 more. -/
theorem test_wit_push : (-128 : Int) ≤ ((apS pkt 0 128).ctx pkt).start - 128 ∧ ((apS pkt 0 129).ctx pkt).start - 129 < -128 ∧
    ((apS pkt 0 255).ctx pkt).start + 255 ≤ 255 ∧
    255 < (((apS pkt 0 255).setCtx pkt { (apS pkt 0 255).ctx pkt with start := 1 }).ctx pkt).start + 255 := by decide +kernel

/-- Special registers: a writable one, and the read-only and supervisor ones that fault. -/
theorem test_wit_special : srWidth pkt.dir (immWord 0x1D 0x041 % 1024) ≠ 0 ∧ immWord 0x1D 0x000 % 1024 < 0x040 ∧ immWord 0x1D 0x062 % 1024 < 0x063 ∧
    immWord 0x1C 0x001 % 1024 = 0x001 ∧ immWord 0x1C 0x061 % 1024 = 0x061 ∧ immWord 0x1D 0x080 % 1024 = 0x080 ∧ pkt.thread ≠ 15 := by decide +kernel

/-- Branches on g2 = 0 and g1 = 0: taken forwards by 1, backwards by −1, and not taken. -/
theorem test_wit_branch : signed 16 (fImm (immWord 0x20 1)) = 1 ∧ signed 16 (fImm (immWord 0x25 0xFFFF)) = -1 ∧
    ((apS pkt (immWord 0x20 1) 0).gr pkt 2 == (apS pkt (immWord 0x20 1) 0).gr pkt 1) = true ∧
    ((apS pkt (immWord 0x20 1) 1).gr pkt 2 == (apS pkt (immWord 0x20 1) 1).gr pkt 1) = false := by decide +kernel

/-- LKP of exact-match table 31 at ticket 0: rd at 27 and beyond, ticket free and busy, hit and miss. -/
def lkpS (s : State) (rd : Nat) (tk : Sparse Ticket) : State :=
  (s.setTbl (Pg.APC 17) 0 0 (0x30 * 2 ^ 26 + rd * 2 ^ 21 + 2 * 2 ^ 16 + 31)).setCtx pkt { live := true, iBound := 1, flen := 64, tickets := tk }

theorem test_wit_lkp : ready (lkpS (exmOn 0) 27 []) pkt .lkpExact = true ∧ ready (lkpS (exmOn 0) 28 []) pkt .lkpExact = true ∧
    fRd ((lkpS (exmOn 0) 27 []).apAt pkt) = 27 ∧ fRd ((lkpS (exmOn 0) 28 []).apAt pkt) = 28 ∧ fRa ((lkpS (exmOn 0) 27 []).apAt pkt) ≠ 31 ∧
    ((lkpS (exmOn 0) 27 []).ctx pkt).busy 0 = false ∧ ((lkpS (exmOn 0) 27 [(0, { writes := [] })]).ctx pkt).busy 0 = true ∧
    (lkpS (exmOn 0) 27 []).exmFind ((lkpS (exmOn 0) 27 []).exm 31) rkCur 0 = none ∧
    ((lkpS (exmHit 0 0) 27 []).exmFind ((lkpS (exmHit 0 0) 27 []).exm 31) rkCur 0).isSome = true ∧ (lkpS (exmHit 0 0) 27 []).apOld pkt = false ∧
    ready (lkpS linked 27 []) pkt .lookupErr = true := by decide +kernel

/-- A packet in its slice for the context, for PKTRD and the endings. -/
def withPkt (w a : Nat) : State :=
  ((apS pkt w a).setSlice 1 8 { inside := [{ bytes := List.replicate 64 0, orig := List.replicate 64 0 }] }).setCtx pkt
    { (apS pkt w a).ctx pkt with since := 96 }

theorem test_wit_packet : ((withPkt 0 0).apPkt pkt).isSome = true ∧ ready (withPkt (sysWord 0 0) 0) pkt .endPkt = true ∧
    ready (withPkt (sysWord 1 0) 0) pkt .drop = true ∧ ready (withPkt (sysWord 2 0) 255) pkt .punt = true ∧
    ((withPkt (sysWord 2 0) 255).gr pkt 1).toNat % 256 ≠ 0 ∧ ((withPkt (sysWord 2 0) 0).gr pkt 1).toNat % 256 = 0 ∧
    ready (withPkt (immWord 0x31 0) 0) pkt .pktrd = true ∧ ((withPkt 0 0).apPkt pkt).any (fun k => k.v.fwd != 1) = true := by decide +kernel

/-- The same in an ingress cluster, with a decision of its own. -/
theorem test_wit_end_ingress : (⟨8, 15, 14, some 3⟩ : ApId).dir = 0 ∧ ({ written := [(0x040, 5 + 1)] } : ApCtx).sr 0x040 ≠ none ∧ ({} : ApCtx).sr 0x040 = none := by decide +kernel

theorem test_wit_wlk : bit (sysWord 7 15) 3 = true ∧ ((lkpS (exmOn 0) 27 [(3, { writes := [] })]).ctx pkt).busy 3 = true := by decide +kernel

/-- A ticket that will write g2, one without a lock, and a deep lookup under way. -/
def ticketed : State := lkpS linked 27 [(3, { writes := [(2, 7)], deep := some 2 })]

theorem test_wit_ticket : (ticketed.ctx pkt).tickets.find? (fun e => e.1 == 3) = some (3, { writes := [(2, 7)], deep := some 2 }) ∧ (ticketed.ctx pkt).busy 2 = false ∧
    (∀ e ∈ ([(2, 7)] : List (Nat × DWord)), e.1 = 2 → e.2 = 7) ∧ ticketed.pageOn (Pg.EXM / 0x1000) = true ∧
    (∀ e ∈ ((lkpS linked 27 []).ctx pkt).tickets, e.2.deep = none) := by decide +kernel

/-- Lock 255 of cluster 17 free, held by another, held by the requester, and waited for. -/
def lockS (i : ApId) (w : Nat) (k : LockSt) : State := (apS i w 255).setLock 17 255 k

theorem test_wit_locks : (lockS pkt 0 {}).lockErr pkt 255 = false ∧ ((lockS pkt 0 {}).lockOf 17 255).holder = none ∧
    (lockS pkt 0 { holder := some pkt }).lockErr pkt 255 = true ∧ (lockS pkt 0 { holder := some sup }).lockErr pkt 255 = false ∧
    ((lockS pkt 0 { holder := some sup }).lockOf 17 255).holder ≠ none ∧ (lockS sup 0 { holder := some sup }).lockErr sup 255 = true ∧
    ((lockS sup 0 {}).thr sup).wfe = none ∧ ((lockS sup 0 {}).lockOf 17 255).queue = [] ∧
    ((lockS pkt 0 { holder := some pkt }).lockOf 17 255).holder = some pkt ∧ ((lockS pkt 0 {}).lockOf 17 255).holder ≠ some pkt ∧
    ((lockS pkt 0 { queue := [sup] }).lockOf 17 255).queue = sup :: [] ∧ ((lockS pkt 0 {}).ctx pkt).busy 0 = false := by decide +kernel

/-- Channel operands: an own channel, one of a cluster that does not exist, a full channel, and one with a published message. -/
def full : List ChanSlot := List.replicate 16 ⟨none, none, List.replicate 8 0, 1⟩

theorem test_wit_channels : linked.clusterOn 17 = true ∧ linked.clusterOn 30 = false ∧ 16 ≤ ((linked.setChan 17 63 full).chan 17 63).length ∧
    (linked.chan 17 63).length < 16 ∧ revokedHead (linked.chan 17 63) = 0 ∧ (lget ⟨none, none, [], 0⟩ full 0).st = 1 ∧
    (∀ x ∈ ([⟨some 9, some pkt, List.replicate 8 0, 0⟩] : List ChanSlot), x.st ≠ 1) ∧ bits (31 * 64 + 63) 6 5 = 31 ∧ bits (30 * 64 + 63) 6 5 = 30 := by decide +kernel

/-- A reservation of handle 9, and a handle revoked. -/
def reserved (w : Nat) (l : List ChanSlot) : State :=
  let s := (apS pkt w 9).setChan 17 63 l
  s.setCtx pkt { s.ctx pkt with resv := [9] }

theorem test_wit_handle : 9 ∉ ((apS pkt (immWord 0x36 7) 9).ctx pkt).resv ∧ 9 ∈ ((reserved (immWord 0x36 7) []).ctx pkt).resv ∧
    (reserved (immWord 0x36 7) []).slotOf pkt 9 = none ∧
    (reserved (immWord 0x36 7) [⟨some 9, some pkt, List.replicate 8 0, 0⟩]).slotOf pkt 9 = some (17 * 64 + 63, 0) ∧
    (sget [] (reserved (immWord 0x36 7) [⟨some 9, some pkt, List.replicate 8 0, 0⟩]).chans (17 * 64 + 63))[0]? = some ⟨some 9, some pkt, List.replicate 8 0, 0⟩ ∧
    revokedHead (sget [] (reserved (immWord 0x36 7) [⟨some 9, some pkt, List.replicate 8 0, 0⟩]).chans (17 * 64 + 63)) = 0 ∧
    ready (reserved (immWord 0x36 7) [⟨some 9, some pkt, List.replicate 8 0, 0⟩]) pkt .cwr = true ∧
    ready (reserved (immWord 0x37 0) [⟨some 9, some pkt, List.replicate 8 0, 0⟩]) pkt .cpub = true := by decide +kernel

theorem test_wit_time_bound : linked.clusterOn pkt.cluster = true ∧ pkt.ap < 16 ∧ pkt.thread < 15 ∧ ((apS pkt 0 0).ctx pkt).live = true ∧ (linked.ctx pkt).live = false ∧
    (linked.learnQ pkt.cluster).length < 512 ∧ (∀ e ∈ linked.learnQ pkt.cluster, e.tick ≠ linked.tk.count) := by decide +kernel

/-- Supervision: thread 14 halted and stale, with lock 5 and a reservation. -/
def haltedS (w a : Nat) (stl : Bool) : State :=
  (((apS sup w a).setThr wrk { st := 3, stale := stl }).setLock 17 5 { holder := some wrk }).setChan 17 0
    [⟨none, none, [], 0⟩, ⟨some 14, some wrk, List.replicate 8 0, 0⟩]

theorem test_wit_supervise : (haltedS 0 14 false).staleThread sup (14 % 16) = false ∧ (haltedS 0 14 true).staleThread sup (14 % 16) = true ∧
    (∀ n, n < 15 → (haltedS 0 14 false).staleThread sup n = false) ∧ (∀ n, n < 15 → n ≠ 14 → (haltedS 0 14 true).staleThread sup n = false) ∧
    (haltedS 0 14 true).slotOf { sup with thread := 14 } 14 = some (17 * 64 + 0, 0 + 1) ∧
    ((sget [] (haltedS 0 14 true).chans (17 * 64 + 0))[0 + 1]?).any (fun x => x.st == 0) = true ∧ revokedHead (sget [] (haltedS 0 14 true).chans (17 * 64 + 0)) = 0 ∧
    ready (haltedS (sysWord 0x0C 0) 14 true) sup .crevoke = true ∧ ready (haltedS (sysWord 0x0D 0) 14 true) sup .lrel = true := by decide +kernel

/-- WFE of the supervisor with no event and with event 16; the dispatcher on and off; SIG to a thread that does not wait. -/
theorem test_wit_events : (apS sup 0 0).pendEvents sup &&& (2 ^ 17 - 1) = 0 ∧
    ((apS sup 0 0).setThr sup { (apS sup 0 0).thr sup with events := 2 ^ 16 }).pendEvents sup &&& 2 ^ 16 ≠ 0 ∧
    ((apS sup 0 0).thr { sup with thread := 0 }).wfe = none ∧ (apS sup 0 0).fb (Rg.APC_CTRL 17) Fd.APC_CTRL_DISPATCH_EN = true ∧
    ((apS sup 0 0).setF (Rg.APC_CTRL 17) Fd.APC_CTRL_DISPATCH_EN 0).fb (Rg.APC_CTRL 17) Fd.APC_CTRL_DISPATCH_EN = false ∧ 14 % 16 ≠ 15 := by decide +kernel

/-- Timers, the all-waiting detector and the stale check: idle, due, and at the limit. -/
theorem test_wit_timers : sget 0 (linked.sup 17 15).timers 3 = 0 ∧
    sget 0 ((linked.setSup 17 15 { timers := [(3, 1)] }).sup 17 15).timers 3 ≤ linked.tk.count + 1 ∧
    linked.tk.count + 1 < sget 0 ((linked.setSup 17 15 { timers := [(3, 2)] }).sup 17 15).timers 3 ∧ ((linked.setSup 17 15 { fired := true }).sup 17 15).fired = true ∧
    (linked.setF (Rg.APC_CTRL 17) Fd.APC_CTRL_DISPATCH_EN 1).deadWait ⟨17, 15, 0, none⟩ = false ∧
    (∀ j, j < 15 → (linked.setF (Rg.APC_CTRL 17) Fd.APC_CTRL_DISPATCH_EN 0).deadWait ⟨17, 15, j, none⟩ = true) ∧ (linked.sup 17 15).fired = false := by decide +kernel

/-- The revocation delay over, with safe revocation on and a lock held. -/
def staleS (n : Nat) : State :=
  (((linked.setF (Rg.APC_DBG_CFG 17) Fd.APC_DBG_CFG_SAFE 1).setF (Rg.APC_DBG_CFG 17) Fd.APC_DBG_CFG_REVOKE_TICKS 0).setThr ⟨17, 15, n, none⟩ { st := 3 }).setLock 17 5
    { holder := some ⟨17, 15, n, none⟩ }

theorem test_wit_stale : ∀ n, n = 15 ∨ n = 14 → ((staleS n).thr ⟨17, 15, n, none⟩).st = 3 ∧ ((staleS n).thr ⟨17, 15, n, none⟩).stale = false ∧
    (staleS n).fb (Rg.APC_DBG_CFG 17) Fd.APC_DBG_CFG_SAFE = true ∧
    ((staleS n).thr ⟨17, 15, n, none⟩).haltAt + (staleS n).f (Rg.APC_DBG_CFG 17) Fd.APC_DBG_CFG_REVOKE_TICKS ≤ (staleS n).tk.count ∧
    (staleS n).locksOf ⟨17, 15, n, none⟩ ≠ [] := by
  rintro n (rfl | rfl) <;> decide +kernel

/-- Control and debug: writes of APC_CTRL in each role, and a debug command for thread 14 of AP 15, running and halted. -/
def dbgWord (cmd idx : Nat) : Word := BitVec.ofNat 32 (2 ^ 31 + cmd * 2 ^ 28 + 15 * 2 ^ 24 + 14 * 2 ^ 20 + 3 * 2 ^ 18 + idx)

theorem test_wit_control : linked.mayWrite host (Rg.APC_CTRL 17) = true ∧ linked.role 1 7 = rlActive ∧ linked.role 1 8 = rlDormant ∧
    (linked.setF (Rg.SLICE_CTRL 1 8) Fd.SLICE_CTRL_ROLE 2).role 1 8 = rlService ∧ linked.mayWrite host (Rg.APC_POKE 17) = true ∧
    (linked.thr ⟨17, 15, 15, none⟩).wfe = none ∧ linked.mayWrite host (Rg.APC_DBG_CTRL 17) = true ∧ bit (dbgWord 1 0).toNat 31 = true ∧
    bits (dbgWord 1 0).toNat 24 4 = 15 ∧ bits (dbgWord 1 0).toNat 20 4 = 14 ∧ bits (dbgWord 5 31).toNat 28 3 = 5 ∧ bit (dbgWord 5 31).toNat 9 = false ∧
    (dbgWord 5 31).toNat % 32 = 31 ∧ (linked.thr wrk).st ≠ 3 ∧ ((linked.setThr wrk { st := 1 }).thr wrk).st = 1 ∧
    ((haltedS 0 0 false).thr wrk).st = 3 ∧ ((haltedS 0 0 false).ctx { wrk with ctx := some 3 }).live = false ∧ ((haltedS 0 0 false).thr wrk).wfe = none ∧
    ((haltedS 0 0 false).ctx wrk).wait = 0 ∧ apOp ((haltedS (aluWord 0) 0 false).apAt wrk) = .add ∧
    (haltedS (aluWord 0) 0 false).apBad wrk ((haltedS (aluWord 0) 0 false).apAt wrk) = false := by decide +kernel

/-! ## Admission, buffer and egress -/

/-- A packet of 64 bytes at admission, its head here or not. -/
def admS (k : Pkt) (head : Bool) : State := { linked with admQ := [{ pkt := k, head := head }] }

/-- The packet: 60 bytes and its FCS, for VOQ 8, from source 0. -/
def p64 : Pkt := { bytes := List.replicate 60 0, md := { dest := 1 } }

theorem test_wit_head : (∀ it ∈ (admS p64 true).admQ, it.head = true) ∧ (admS p64 false).admQ.find? (fun x => !x.head) = some { pkt := p64, head := false } ∧
    (admS p64 false).cutsThrough p64 = false ∧ linked.admQ = [] := by decide +kernel

theorem test_wit_admission : (admS p64 true).admQ = { pkt := p64, head := true } :: [] ∧ ({ pkt := p64, head := true } : AdmItem).cut = false ∧
    linked.rd Rg.CALD_LOSSY < 2 ^ 32 ∧ linked.pageOn (Pg.ADM / 0x1000) = true ∧ p64.bad = false ∧ ({ p64 with bad := true } : Pkt).bad = true ∧
    p64.md.policeEn = false ∧ p64.md.punt = 0 ∧ p64.md.mirrorEn = false ∧ p64.md.sample = false ∧ p64.md.flowCtrEn = false ∧
    bit (linked.f Rg.ADM_CFG Fd.ADM_CFG_LOSSLESS_TC) 0 = false ∧ bit (linked.prof 8 12) (min 2 0) = false ∧
    cellsOf (p64.bytes.length + 4) = 1 := by decide +kernel

/-- The limits of R215 met and passed by one cell: LOSSY_MAX, the source's limit, the VOQ's. -/
def tight (lossy src voq : Nat) : State :=
  (((admS p64 true).wr Rg.ADM_LOSSY_MAX lossy).setTbl Pg.ADM 1 0 (src + 2 ^ 32 * (src - 1))).setTbl Pg.ADM 0 0 (voq + 1024 * 2 ^ 32 + 4096 * 2 ^ 64)

theorem test_wit_limits : (tight 0 1 1).rd Rg.ADM_LOSSY_MAX < (tight 0 1 1).rd Rg.CALD_LOSSY + 1 ∧ (tight 1 0 1).rd Rg.CALD_LOSSY + 1 ≤ (tight 1 0 1).rd Rg.ADM_LOSSY_MAX ∧
    (tight 1 0 1).srcLimit 0 < (tight 1 0 1).srcUsed 0 + 1 ∧ (tight 1 1 0).srcUsed 0 + 1 ≤ (tight 1 1 0).srcLimit 0 ∧
    (tight 1 1 0).prof 8 0 < ((tight 1 1 0).voq 8).cells + 1 ∧ ((tight 1 1 1).voq 8).cells + 1 ≤ (tight 1 1 1).prof 8 0 ∧
    ((tight 1 1 1).voq 8).onDie + 1 ≤ (tight 1 1 1).prof 8 2 := by decide +kernel

/-- Every HBM stack trained and enabled, 16 pages in all and free. -/
def hbmUp : State := ((List.range 4).foldl (fun s k => s.setF (Rg.HBMC_STAT k) Fd.HBMC_STAT_UP 1) linked).wr Rg.BUF_PAGES_TOTAL 16 |>.wr Rg.BUF_PAGES_FREE 16

/-- A VOQ of 8 staged cells in one packet, and one with a page of 8 cells behind a head part of `h`. -/
def vpk (n : Nat) : VPkt := { bytes := List.replicate (256 * n) 0, md := {} }
def spilling : State := hbmUp.setVoq 8 { pkts := [vpk 8], staged := [(0, 8)], spill := true }
def paged (h : Nat) : State := hbmUp.setVoq 8 { pkts := [vpk (h + 8)], head := h, pages := [(15, 8)], spill := true }

theorem test_wit_spill : hbmUp.pageOn (Pg.BUF / 0x1000) = true ∧ hbmUp.wantsPage (hbmUp.voq 8) = false ∧ spilling.wantsPage (spilling.voq 8) = true ∧
    spilling.pageFree 15 = true ∧ spilling.pageFree 16 = false ∧ spilling.rd Rg.BUF_PAGES_FREE ≠ 0 ∧ spilling.allUp = true := by decide +kernel

theorem test_wit_return : ((paged 511).voq 8).pages = (15, 8) :: [] ∧ ((paged 511).voq 8).spill = true ∧ 2 * ((paged 511).voq 8).head < (paged 511).spillThr 8 ∧
    (paged 512).spillThr 8 ≤ 2 * ((paged 512).voq 8).head ∧ (paged 511).allUp = true ∧
    8192 + (paged 511).rd Rg.CALD_LOSSY + (paged 511).rd Rg.CALD_LOSSLESS + 8 ≤ (paged 511).caldCells ∧ ((paged 511).linkRead 15).2 = true := by decide +kernel

/-- The side record of the page is uncorrectable. -/
def sideLost : State :=
  let x := (paged 511).hbmFrom ((paged 511).sideOff 15)
  ((paged 511).setMark (Pg.HBMC x.1) x.2.1 (x.2.2 / 16) { kind := 2 }).setMark (Pg.HBMC x.1) x.2.1 (x.2.2 / 16 + 1) { kind := 2 }

theorem test_wit_return_lost : (sideLost.linkRead 15).2 = false ∧ (sideLost.voq 8).pages = (15, 8) :: [] := by decide +kernel

/-- A stale packet: its destination is not valid. -/
def staleV : State := linked.setVoq 8 { pkts := [vpk 1], head := 1 }

theorem test_wit_stale_drain : (∀ e ∈ linked.voqs, linked.destValid e.1 = true ∨ e.2.pkts = []) ∧ staleV.voqs = [(8, { pkts := [vpk 1], head := 1 })] ∧
    staleV.destValid 8 = false ∧ (vpk 1).begun = false ∧ staleV.pageOn (Pg.VOQ / 0x1000) = true := by decide +kernel

/-- Source 8 × 0 + 7 has asked for a pause. -/
def pausing : State := (portIn lkUp).setTbl Pg.ADM 2 7 (2 ^ 31)

theorem test_wit_pfc_tx : (portIn lkDown).lkIsUp 0 = false ∧ (portIn lkUp).pauseWant 0 = ((portIn lkUp).lport 0).pfcSent ∧ (portIn lkUp).pauseWant 0 = 0 ∧
    pausing.lportOn 0 = true ∧ pausing.lkIsUp 0 = true ∧ pausing.pauseWant 0 ≠ (pausing.lport 0).pfcSent ∧ pausing.pauseWant 0 ≠ 0 := by decide +kernel

/-- Two packets of the pool, whole and not; queue 0 leads to port 0. -/
def pooled (len have' : Nat) : State := { portIn lkUp with eg := { linked.eg with pk := [(1, { eq := 0, len := len, bytes := List.replicate have' 0 })], fresh := [1] } }

theorem test_wit_egress_enqueue : (∀ id ∈ (pooled 65 64).eg.fresh, ∀ p, (pooled 65 64).epkt id = some p → (pooled 65 64).mayEnter p = false) ∧
    (pooled 64 64).eg.fresh.find? (fun x => ((pooled 64 64).epkt x).any (pooled 64 64).mayEnter) = some 1 ∧ ((pooled 64 64).epkt 1).isSome = true := by
  refine ⟨?_, by decide +kernel, by decide +kernel⟩
  intro id hid p hp
  obtain rfl : id = 1 := by simpa [pooled] using hid
  obtain rfl : p = { eq := 0, len := 65, bytes := List.replicate 64 0 } := (Option.some.inj hp).symm
  decide +kernel

/-- The packet in its queue, the nodes above it valid, and port 0 ready. -/
def queued : State := (({ pooled 64 64 with eg := { (pooled 64 64).eg with fresh := [], queues := [(0, [1])] } } : State).setTbl Pg.EQS 1 0 (2 ^ 31 + 0x00100000)).setTbl
  Pg.EQS 2 0 (2 ^ 31 + 0x00100000)

theorem test_wit_egress_off : bit ((linked.wr (Pg.EQS + 0x008) 0).rd (Pg.EQS + 0x008)) 31 = false ∧ r0.d2dDown = true ∧ linked.part.lineGroups ≤ 8 := by decide +kernel

theorem test_wit_egress_decision : bit (queued.rd (Pg.EQS + 0x008)) 31 = true ∧ queued.d2dDown = false ∧ 0 < queued.part.lineGroups ∧
    queued.pageOn (Pg.EQL 0 / 0x1000) = true ∧ queued.pageOn (Pg.EQS / 0x1000) = true ∧
    (queued.gateHold 0 (queued.todFrac (queued.at 7))).eligible (queued.todFrac (queued.at 7)) = [0] ∧
    ((queued.gateHold 0 (queued.todFrac (queued.at 7))).dropDeficits [0]).portReady [0] 0 = true ∧
    (∀ q, q < 64 → q / 8 = 0 → q ≠ 0 → ((queued.gateHold 0 (queued.todFrac (queued.at 7))).dropDeficits [0]).portReady [0] q = false) ∧
    ((((queued.gateHold 0 (queued.todFrac (queued.at 7))).dropDeficits [0]).pickSvc [0] 0).any fun x => x.1 == 0 && (x.2.headOf 0).isSome) = true := by decide +kernel

theorem test_wit_egress_idle : (linked.gateHold 0 (linked.todFrac (linked.at 7))).eligible (linked.todFrac (linked.at 7)) = [] ∧
    ∀ p, p < 64 → p / 8 = 0 → ((linked.gateHold 0 (linked.todFrac (linked.at 7))).dropDeficits []).portReady [] p = false := by decide +kernel

/-- A frame at the MAC of port 0, and one under way that starves. -/
def atMac : State := { portIn lkUp with macTx := [p64] }
def onWire : State := { pooled 65 64 with eg := { (pooled 65 64).eg with txing := [(0, 1, [])] } }

theorem test_wit_mac_tx : r0.lportOn 64 = false ∧ atMac.lportOn 0 = true ∧ atMac.eg.txing.find? (fun e => e.1 == 0) = none ∧ (portIn lkDown).lkIsUp 0 = false ∧
    atMac.lkIsUp 0 = true ∧ atMac.txMode 0 = .data ∧
    atMac.pickTx 0 ((atMac.tod (atMac.at 7)).2 / 2 ^ 32) (sortBy (fun a b => decide (a.1.em.seq ≤ b.1.em.seq)) (atMac.egPkts.filter fun x => x.1.em.lport == 0)) [] = some p64 ∧
    p64.em.ct = false ∧ p64.em.ptpCmd = 0 ∧ p64.em.launchV = false ∧ (portIn lkUp).pickTx 0 0 [] [] = none ∧
    onWire.eg.txing.find? (fun e => e.1 == 0) = some (0, 1, []) ∧ (onWire.epkt 1).isSome = true ∧ onWire.pageOn (Pg.EQS / 0x1000) = true := by decide +kernel

/-- A shaper on the wheel, due at the next tick and at the one after, with a level that is back above 0 or not. -/
def wheeled (d : Nat) (lv : Int) : State := { linked with eg := { linked.eg with wheel := [(0, d)], lv := [(0, { level := lv })] } }

theorem test_wit_shaper : (∀ e ∈ (wheeled 2 0).eg.wheel, (wheeled 2 0).tk.count + 1 < e.2) ∧ (wheeled 1 0).eg.wheel = [(0, 1)] ∧ 1 ≤ (wheeled 1 0).tk.count + 1 ∧
    0 ≤ (wheeled 1 0).shpLevel 0 ∧ (wheeled 1 (-1)).shpLevel 0 < 0 := by decide +kernel

/-- A gate list of one entry that keeps class 0 closed, waiting for time 0 or 1 second. -/
def gl : GateList := { page := 0, len := 1, cycle := 1000, base := 0, overhead := 20 }
def gated (st : Nat) : State := linked.setGate 63 { next := some (gl, st) }

theorem test_wit_gate : linked.pageOn (Pg.GATE / 0x1000) = true ∧ (linked.gate 63).next = none ∧ ((gated 0).gate 63).next = some (gl, 0) ∧
    0 * 2 ^ 32 ≤ (gated 0).todFrac ((gated 0).at 0) ∧ (gated 1).todFrac ((gated 1).at 0) < 1 * 2 ^ 32 := by decide +kernel

/-- A packet of queue 0 held for two cycles behind a gate that never opens. -/
def heldS (at' : Option Nat) : State :=
  ({ queued with eg := { queued.eg with pk := [(1, { eq := 0, len := 64, bytes := List.replicate 64 0, heldAt := at' })] } } : State).setGate 0 { cur := some gl }

theorem test_wit_oversize : ((heldS none).headOf 0).any (fun x => x.1 == 1 && x.2.heldAt == none && x.2.len == 64) = true ∧ ((heldS (some 0)).gate ((heldS (some 0)).portOf 0)).cur = some gl ∧
    longestSpan 0 ((heldS (some 0)).gateCycle 0 gl) = some 0 ∧ ((heldS (some 0)).wireTime 0 64 gl).isSome = true ∧
    ((heldS (some 0)).wireTime 0 64 gl).any (fun w => decide (0 * 2 ^ 32 < w)) = true ∧ (heldS (some 0)).todFrac ((heldS (some 0)).at 0) < 0 + 2 * gl.cycle * 2 ^ 32 ∧
    0 + 2 * gl.cycle * 2 ^ 32 ≤ (heldS (some 0)).todFrac ((heldS (some 0)).at 4000) := by decide +kernel

/-- Latency sampling of one watched queue. -/
def latS : State := ((linked.setF Rg.LAT_CFG Fd.LAT_CFG_EN 1).setF Rg.LAT_CFG Fd.LAT_CFG_WATCH_LEN 1).setTbl Pg.LAT 0 0 (2 ^ 31)

theorem test_wit_lat : linked.fb Rg.LAT_CFG Fd.LAT_CFG_EN = false ∧ latS.fb Rg.LAT_CFG Fd.LAT_CFG_EN = true ∧ latS.f Rg.LAT_CFG Fd.LAT_CFG_WATCH_LEN = 1 ∧
    1 ≤ latS.f Rg.LAT_CFG Fd.LAT_CFG_SET_SIZE ∧ bit (latS.tbl Pg.LAT 0 0) 31 = true ∧ latS.pageOn (Pg.TICK / 0x1000) = true := by decide +kernel

/-! ## The fabric -/

/-- Fabric lane 95 enabled, with FEC lock and in alignment state `st`. -/
def lane95 (st : Nat) : State :=
  ((linked.setF (Rg.FSER_LANE_CFG 11 7) Fd.FSER_LANE_CFG_EN 1).setF (Rg.FSER_LANE_STAT 11 7) Fd.FSER_LANE_STAT_FEC_LOCK 1).setF (Rg.FFRM_LANE_STAT 95)
    Fd.FFRM_LANE_STAT_ALIGN st
def withLane (st : Nat) (x : FabLane) : State := (lane95 st).setLane 95 x

/-- A header over the bits from 16 up. -/
def hdrOf (x : Nat) : Nat := x * 2 ^ 16 + hcrc (x * 2 ^ 16)

/-- FN 5 of a core lane, with RDI set. -/
def h5 : Nat := hdrOf ((5 * 2 ^ 122 + 2 ^ 120 + 2 ^ 119 + 77 * 2 ^ 108 + 2 ^ 93) / 2 ^ 16)

theorem test_wit_lane_position : linked.fabOn 95 = false ∧ (lane95 0).fabOn 95 = true ∧ (lane95 0).fb (Rg.FSER_LANE_STAT (95 / 8) (95 % 8)) Fd.FSER_LANE_STAT_FEC_LOCK = true ∧
    (lane95 0).pageOn (Pg.FFRM / 0x1000) = true ∧ (lane95 0).align 95 < 2 ∧ (lane95 2).align 95 = 2 ∧ (lane95 3).align 95 = 3 ∧ hdrOk h5 = true ∧ hdrOk (h5 + 1) = false ∧
    ((lane95 3).lane 95).badRun < 3 ∧ 3 ≤ ((withLane 3 { badRun := 3 }).lane 95).badRun := by decide +kernel

theorem test_wit_lane_header : (lane95 3).pageOn (Pg.FFRM / 0x1000) = true ∧ bits h5 122 6 = 5 ∧ bit h5 120 = true ∧ bit h5 119 = true ∧ bits h5 108 11 = 77 ∧
    ((withLane 3 { fn := some 5, fnGood := 1 }).lane 95).fn = some (bits h5 122 6) ∧ 1 ≤ ((withLane 3 { fn := some 5, fnGood := 1 }).lane 95).fnGood ∧
    ((withLane 3 { fn := some 9, fnJump := some 5 }).lane 95).fn = some 9 ∧ 9 ≠ bits h5 122 6 ∧
    ((withLane 3 { fn := some 9, fnJump := some 5 }).lane 95).fnJump = some (bits h5 122 6) ∧
    ((withLane 3 { fn := some 9, fnBad := 3 }).lane 95).fnJump ≠ some (bits h5 122 6) ∧ 3 ≤ ((withLane 3 { fn := some 9, fnBad := 3 }).lane 95).fnBad ∧
    2 ≤ ((withLane 3 { timBad := 2 }).lane 95).timBad ∧ ((lane95 3).setF (Rg.FFRM_EXPECT 95) Fd.FFRM_EXPECT_EXP_EN 1).fb (Rg.FFRM_EXPECT 95) Fd.FFRM_EXPECT_EXP_EN = true ∧
    (lane95 3).f (Rg.FFRM_EXPECT 95) Fd.FFRM_EXPECT_ID ≠ bits h5 108 11 ∧ (lane95 3).fb (Rg.FFRM_EXPECT 95) Fd.FFRM_EXPECT_EXP_EN = false ∧
    1 ≤ ((withLane 3 { rdiOn := 1 }).lane 95).rdiOn ∧ bit (hdrOf 1) 120 = false ∧ hdrOk (hdrOf 1) = true ∧ bit (hdrOf 1) 119 = false := by decide +kernel

/-- Nothing bars lane 95 from service. -/
def cleanLane : State := (withLane 3 { clean := 2 ^ 32 }).setDefects 95 0

theorem test_wit_lane_service : (lane95 3).inService 95 = false ∧ (linked).laneClean 95 = false ∧ cleanLane.laneClean 95 = true ∧ cleanLane.inService 95 = false ∧
    cleanLane.f Rg.FFRM_CFG Fd.FFRM_CFG_CLEAR_TICKS ≤ (cleanLane.lane 95).clean ∧ cleanLane.pageOn (Pg.FFRM / 0x1000) = true ∧
    (∀ e ∈ (lane95 3).lane 95 |>.xoffDue, (lane95 3).tk.count < e.1) ∧
    (((withLane 3 { xoffDue := [(0, true, 5), (9, false, 0)] }).lane 95).xoffDue.filter fun e => decide (e.1 ≤ (lane95 3).tk.count)).getLast? = some (0, true, 5) := by
  decide +kernel

/-- A pad frame's header, and a slip buffer of `n` frames. -/
def hPad : Nat := hdrOf (2 ^ 105)
def fr0 : Frame := ⟨false, [], []⟩
def slipping (n : Nat) : State := withLane 3 { slip := List.replicate n fr0 }

theorem test_wit_slip : (hdrOk hPad && bit hPad 121) = true ∧ (hdrOk h5 && bit h5 121) = false ∧
    ((slipping 1).setF Rg.FFRM_CFG Fd.FFRM_CFG_TIMING 1).fb Rg.FFRM_CFG Fd.FFRM_CFG_TIMING = true ∧ ((slipping 1).lane 95).slip ≠ [] ∧
    ((slipping 3).lane 95).slip.length < 4 ∧ 4 ≤ ((slipping 4).lane 95).slip.length ∧ (lane95 2).align 95 ≠ 3 := by decide +kernel

theorem test_wit_deliver : (∀ l, (r0.lane l).slip = [] ∧ (r0.lane l).lastPad = false) ∧
    (∀ k, k ≠ 95 → ((slipping 1).lane k).slip = [] ∧ ((slipping 1).lane k).lastPad = false) ∧ ((slipping 1).lane 95).slip = fr0 :: [] ∧ (slipping 1).fabOn 95 = true ∧
    fr0.pad = false ∧ ((slipping 1).setF Rg.FCELL_CFG Fd.FCELL_CFG_EN 1).fb Rg.FCELL_CFG Fd.FCELL_CFG_EN = true := by
  refine ⟨fun l => ⟨rfl, rfl⟩, fun k hk => ?_, by decide +kernel, by decide +kernel, rfl, by decide +kernel⟩
  have h : (slipping 1).lane k = {} := by
    have : (slipping 1).fab.lanes = [(95, { slip := [fr0] })] := by decide +kernel
    simp [State.lane, this, sget, Ne.symm hk]
  rw [h]; exact ⟨rfl, rfl⟩

/-- A DATA cell's header for this device from source 9 with SEQ `q`, and that cell waiting. -/
def dataH (typ dst q : Nat) : Nat :=
  let h := typ * 2 ^ 124 + dst * 2 ^ 113 + 9 * 2 ^ 102 + q * 2 ^ 66 + 240 * 2 ^ 49
  h + cellCrc h []
def cellsIn (h : Nat) : State := { lane95 3 with fab := { (lane95 3).fab with rxCells := [(95, h, [])] } }
def atSrc (h : Nat) (x : ReorderSt) : State := { cellsIn h with fab := { (cellsIn h).fab with reorder := [(9, x)] } }

theorem test_wit_cell : linked.fab.rxCells = [] ∧ (cellsIn (dataH 1 0 5)).fab.rxCells = (95, dataH 1 0 5, []) :: [] ∧
    linked.pageOn (Pg.FCELL / 0x1000) = true ∧ linked.devId = 0 ∧ r0.d2dDown = true ∧ linked.d2dDown = false ∧
    cellCrc (dataH 1 0 5) [] = dataH 1 0 5 % 2 ^ 32 ∧ cellCrc (dataH 1 0 5 + 1) [] ≠ (dataH 1 0 5 + 1) % 2 ^ 32 := by decide +kernel

theorem test_wit_cell_types : (cellOf 95 (dataH 0 0 0) []).typ = 0 ∧ 3 ≤ (cellOf 95 (dataH 3 0 0) []).typ ∧ (cellOf 95 (dataH 1 4 0) []).dst ≠ linked.devId ∧
    (cellOf 95 (dataH 2 0 0) []).typ = 2 ∧ linked.rxCircuit 9 0 = none ∧ (linked.setTbl Pg.FCELL 3 7 (2 ^ 31 + 9 * 2 ^ 12)).rxCircuit 9 0 = some 7 := by decide +kernel

theorem test_wit_reorder : (cellOf 95 (dataH 1 0 5) []).seq = 5 ∧ (cellOf 95 (dataH 1 0 5) []).src = 9 ∧ ((cellsIn (dataH 1 0 5)).reord 9).last = none ∧
    ((atSrc (dataH 1 0 5) { e := 5, last := some 0 }).reord 9).last = some 0 ∧ linked.tk.count < 0 + 64 ∧
    ((atSrc (dataH 1 0 5) { e := 5, last := some 0 }).reord 9).held = [] ∧ 32767 < (5 + 65536 - 6) % 65536 ∧ 1 ≤ (5 + 65536 - 4) % 65536 ∧ (5 + 65536 - 4) % 65536 ≤ 32767 ∧
    (atSrc (dataH 1 0 5) { e := 4, last := some 0 }).heldCells < 32768 := by decide +kernel

/-- Cell 5 held since tick 0 with E at 3, at tick `now`. -/
def gapS (now : Nat) : State := { atSrc 0 { e := 3, held := [(cellOf 95 (dataH 1 0 5) [], 0)], last := some 0 } with tk := { linked.tk with count := now } }

theorem test_wit_gap : (∀ y ∈ ((gapS 0).reord 9).held, (gapS 0).tk.count < y.2 + (gapS 0).f Rg.FCELL_CFG Fd.FCELL_CFG_REORDER_TICKS) ∧
    ((gapS 99).reord 9).held = [(cellOf 95 (dataH 1 0 5) [], 0)] ∧ 0 + (gapS 99).f Rg.FCELL_CFG Fd.FCELL_CFG_REORDER_TICKS ≤ (gapS 99).tk.count ∧ ((gapS 99).reord 9).e < 65536 := by
  decide +kernel

/-- A cell of stream source 9, TC 0 at reassembly with context `x`. -/
def rc (sop : Bool) (fill voq : Nat) (p : List Byte) : Cell := { typ := 1, src := 9, voq := voq, sop := sop, fill := fill, sseq := 4, payload := p }
def asmS (c : Cell) (x : RsmSt) : State :=
  { pooled 500 10 with fab := { linked.fab with asm := [c], rsm := if x = {} then [] else [(72, x)] } }

theorem test_wit_reassembly : linked.fab.asm = [] ∧ (asmS (rc false 10 0 []) { sseq := some 4, skip := false, cur := some (some 1, 400) }).fab.asm = rc false 10 0 [] :: [] ∧
    sget {} (asmS (rc false 10 0 []) { sseq := some 4, skip := false, cur := some (some 1, 400) }).fab.rsm 72 = { sseq := some 4, skip := false, cur := some (some 1, 400) } ∧
    (asmS (rc false 10 0 []) {}).d2dDown = false ∧ (asmS (rc false 10 0 []) {}).epkt 1 = some { eq := 0, len := 500, bytes := List.replicate 10 0 } ∧ 10 + 10 < 500 ∧
    some 3 ≠ some (rc false 10 0 []).sseq := by decide +kernel

/-- The first cell of a packet of 300 bytes under tag 6, its queue mapped. -/
def desc300 : List Byte := beBytes 8 (300 * 2 ^ 50 + 6 * 2 ^ 10)
def headS (u : Nat) : State :=
  let s := asmS (rc true 240 0 (desc300 ++ List.replicate 232 0)) {}
  ({ s with fab := { s.fab with tags := [(6, ⟨9, 0, u, 0⟩)] } } : State).setTbl Pg.EQS 0 0 (2 ^ 31)

theorem test_wit_reassembly_head : (headS 2).fab.asm = rc true 240 0 (desc300 ++ List.replicate 232 0) :: [] ∧ sget {} (headS 2).fab.rsm 72 = {} ∧
    beNat ((rc true 240 0 (desc300 ++ List.replicate 232 0)).payload.take 8) = 300 * 2 ^ 50 + 6 * 2 ^ 10 ∧ bits (300 * 2 ^ 50 + 6 * 2 ^ 10) 50 14 = 300 ∧
    bits (300 * 2 ^ 50 + 6 * 2 ^ 10) 10 16 = 6 ∧ bit ((headS 2).tbl Pg.EQS 0 (0 / 8)) 31 = true ∧ ceilDiv (300 + 8) 240 = 2 ∧ 240 - 8 < 300 ∧
    (headS 3).fab.tags = [(6, ⟨9, 0, 3, 0⟩)] ∧ bit (linked.tbl Pg.EQS 0 (0 / 8)) 31 = false := by decide +kernel

/-- VOQ 8 with its begun packet of 100 bytes, for destination 1 as device `d`. -/
def beg : VPkt := { bytes := List.replicate 10 0, md := {}, begun := true }
def fillS (d : Nat) : State :=
  (linked.setVoq 8 { pkts := [beg], head := 1 }).setTbl Pg.VOQ 1 1 (2 ^ 31 + d * 2 ^ 20)

theorem test_wit_fill : r0.voqs = [] ∧ (fillS 0).voqs = [(8, { pkts := [beg], head := 1 })] ∧ ({ pkts := [beg], head := 1 } : VoqSt).avail beg = beg.hdrLen + beg.bytes.length - beg.sent ∧
    1 ≤ beg.hdrLen + beg.bytes.length - beg.sent ∧ beg.hdrLen + beg.bytes.length - beg.sent ≤ 240 ∧ (fillS 0).fab.streams = [] ∧ (fillS 0).circuitVoqs = [] ∧
    (fillS 0).destDev 8 = (fillS 0).devId ∧ (fillS 0).fb Rg.FCELL_CFG Fd.FCELL_CFG_EN = false ∧ (fillS 4).destDev 8 ≠ (fillS 4).devId := by decide +kernel

/-- Lane 95 in service with a SPRAY entry for plane 2 in slot 7, which reaches device 4 by plane 2. -/
def linkUp (s0 : State) : State :=
  let s := (List.range 99).foldl (fun t j => t.setTbl Pg.FCELL 0 (95 * 2 ^ 8 + j + 1) 0) s0
  (((((s.setF (Rg.FSER_LANE_CFG 11 7) Fd.FSER_LANE_CFG_EN 1).setF Rg.FCELL_CFG Fd.FCELL_CFG_EN 1).setF (Rg.FFRM_LANE_STAT 95) Fd.FFRM_LANE_STAT_IN_SERVICE 1).setF
    (Rg.FFRM_LANE_STAT 95) Fd.FFRM_LANE_STAT_ALIGN 3).setTbl Pg.FCELL 0 (95 * 2 ^ 8 + 7) (2 ^ 30 + 2 * 2 ^ 16)).setTbl Pg.FCELL 1 4 4

theorem test_wit_calendar : (linkUp (fillS 4)).links = [95] ∧ (linkUp (fillS 4)).fb Rg.FCELL_CFG Fd.FCELL_CFG_EN = true ∧ (linkUp (fillS 4)).padNext = false ∧
    (∀ j, j ≤ 99 → 1 ≤ j → (linkUp (fillS 4)).tbl Pg.FCELL 0 ((linkUp (fillS 4)).f Rg.FCELL_CAL Fd.FCELL_CAL_PAGE * 2 ^ 16 + 95 * 2 ^ 8 + j) / 2 ^ 30 = if j = 7 then 1 else 0) ∧
    bit ((linkUp (fillS 4)).reach 4) (bits ((linkUp (fillS 4)).tbl Pg.FCELL 0 ((linkUp (fillS 4)).f Rg.FCELL_CAL Fd.FCELL_CAL_PAGE * 2 ^ 16 + 95 * 2 ^ 8 + 7)) 16 4) = true ∧
    ((linkUp (fillS 4)).xoffAt 95).1 = false ∧ bit ((linkUp (fillS 4)).xoffAt 95).2 (4 / 32) = false ∧ (linkUp (fillS 4)).withdrawn 4 = false ∧
    (linkUp (fillS 4)).destDev 8 = 4 := by decide +kernel

/-- VOQ 8 with a packet that has no credit, for device `d`. -/
def fresh : VPkt := { bytes := List.replicate 10 0, md := {} }
def asks (d : Nat) : State := (fillS d).setVoq 8 { pkts := [fresh], head := 1 }

theorem test_wit_select : linked.wdDue = false ∧ linked.fab.reissue = [] ∧ linked.fab.placed = [] ∧ (∀ e ∈ r0.voqs, e.2.unstarted = 0) ∧
    (asks 0).voqs = [(8, { pkts := [fresh], head := 1 })] ∧ (asks 0).fab.reqOrder = [] ∧ fresh.begun = false ∧
    1 ≤ fresh.charge - ({ pkts := [fresh], head := 1 } : VoqSt).balance - 0 ∧ (asks 0).destValid 8 = true ∧ (asks 0).reachable ((asks 0).destDev 8) = true ∧
    (asks 0).withdrawn ((asks 0).destDev 8) = false ∧ 0 < (asks 0).f Rg.FCRD_CFG Fd.FCRD_CFG_MAX_REQ ∧ linked.pageOn (Pg.FCRD / 0x1000) = true := by decide +kernel

/-- The next frame is the pad frame of its superframe. -/
def padS : State := ((linkUp (asks 4)).setF Rg.FFRM_CFG Fd.FFRM_CFG_TIMING 1).setF Rg.TICK_STAT Fd.TICK_STAT_TIS 62

theorem test_wit_select_lanes : (linkUp (asks 4)).links = [95] ∧ ((linkUp (asks 4)).planesOf 95 &&& (linkUp (asks 4)).reach 4) ≠ 0 ∧ (linkUp (asks 4)).padNext = false ∧
    (linkUp (asks 4)).destDev 8 = 4 ∧ (linkUp (asks 4)).reachable 4 = true ∧ (linkUp (asks 4)).wdDue = false ∧ padS.padNext = true ∧ padS.wdDue = false ∧ padS.reachable (padS.destDev 8) = true ∧ linked.pageOn (Pg.TICK / 0x1000) = true := by decide +kernel

/-! ## HBM -/

/-- A request of requester `who` for offset 0, queued `n` times in bank queue `i` of channel 0 of stack 0. -/
def rq (who : Nat) (write : Bool) : HbmReq := ⟨who, write, 0, 5, 0⟩
def hq (i n who : Nat) (write : Bool) : State := { hbmUp with hb := { hbmUp.hb with q := [(bankKey 0 (i / 16) i, List.replicate n (rq who write))] } }
def rankIs (r st : Nat) (s : State) : State := s.setRank 0 r 29 3 st
def closed0 (s : State) : State := { s with hb := { s.hb with closed := [0] } }

theorem test_wit_refresh : linked.isRank 4 0 = false ∧ (hq 3 1 0 true).isRank 0 0 = true ∧ (hq 3 1 0 true).stackUp 0 = true ∧ (hq 3 1 0 true).rankSr 0 0 = false ∧
    (hq 3 1 0 true).rankState 0 0 ≠ rkFailed ∧ (hq 3 1 0 true).hb.closed.contains (0 * 64 + 0) = false ∧ (hbmUp.setRank 0 0 24 4 8).owed 0 0 = 8 ∧ (hq 3 1 0 true).owed 0 0 ≠ 8 ∧
    (∃ x ∈ (hq 3 1 0 true).rankQ 0 0, x.who = 0) ∧ (∀ x ∈ (hq 3 1 1 true).rankQ 0 0, x.who ≠ 0) ∧ hbmUp.f (Rg.HBMC_TEMP 0) Fd.HBMC_TEMP_ALARM ≤ 110 % 256 ∧
    (closed0 hbmUp).hb.closed.contains (0 * 64 + 0) = true := by decide +kernel

theorem test_wit_geyser : hbmUp.owed 0 0 = 0 ∧ (hbmUp.setRank 0 0 24 4 3).owed 0 0 ≠ 0 ∧ hbmUp.f (Rg.HBMC_REF_CFG 0) Fd.HBMC_REF_CFG_GEYSER_LOW < ((hq 3 3 0 true).rankQ 0 0).length ∧
    (hbmUp.rankQ 0 0).length ≤ hbmUp.f (Rg.HBMC_REF_CFG 0) Fd.HBMC_REF_CFG_GEYSER_LOW := by decide +kernel

theorem test_wit_request : (linked.part.hbmPlace 0).1 = 0 ∧ linked.pageOn (Pg.HBMC 0 / 0x1000) = true ∧ linked.part.hbmBytes ≤ 2 ^ 40 ∧ 0 < linked.part.hbmBytes ∧
    linked.stackUp 0 = false ∧ (linked.part.hbmPlace linked.flowBase).1 = 0 ∧ linked.flowBase ≤ linked.flowBase ∧ 0 < linked.flowBase ∧ (hbmUp.hbmTo 0).headD 0 = 0 ∧
    (hbmUp.hbmFrom 0).2.1 = 0 ∧ entryFree (hbmUp.bankQ (bankKey 0 0 3)) 1 = true ∧ entryFree ((hq 3 12 1 true).bankQ (bankKey 0 0 3)) 1 = false ∧
    entryFree ((hq 3 16 1 true).bankQ (bankKey 0 0 3)) 0 = false ∧ (hbmUp.setRank 0 0 28 1 1).rankSr 0 0 = true := by decide +kernel

theorem test_wit_burst : linked.stackUp 0 = false ∧ (∀ i, i < 32 → hbmUp.bankQ (bankKey 0 (2 * 0 + i / 16) i) = []) ∧ 0 < hbmUp.part.stacks ∧
    (hq 31 1 0 true).bankQ (bankKey 0 (2 * 0 + 31 / 16) 31) = [rq 0 true] ∧ (∀ j, j < 32 → j ≠ 31 → (hq 31 1 0 true).bankQ (bankKey 0 (2 * 0 + j / 16) j) = []) ∧
    (hq 31 1 0 true).hb.closed.contains (0 * 64 + (2 * 0 + 31 / 16)) = false ∧ (hq 31 1 0 true).rankSr 0 (2 * 0 + 31 / 16) = false ∧ (rq 0 true).off % 32 = 0 ∧
    (hq 31 1 2 false).bankQ (bankKey 0 (2 * 0 + 31 / 16) 31) = [rq 2 false] := by decide +kernel

/-- Self-refresh of idle ranks allowed. -/
def srOn : State := hbmUp.setF (Rg.HBMC_CFG 0) Fd.HBMC_CFG_ACTIVE_SR 1

theorem test_wit_self_refresh : srOn.isRank 0 0 = true ∧ srOn.stackUp 0 = true ∧ srOn.rankState 0 0 = rkActive ∧ srOn.rankSr 0 0 = false ∧ srOn.rankQ 0 0 = [] ∧
    srOn.fb (Rg.HBMC_CFG 0) Fd.HBMC_CFG_SR_EN = true ∧ srOn.fb (Rg.HBMC_CFG 0) Fd.HBMC_CFG_ACTIVE_SR = true ∧ hbmUp.fb (Rg.HBMC_CFG 0) Fd.HBMC_CFG_ACTIVE_SR = false ∧
    ((hq 3 1 0 true).setRank 0 0 28 1 1).rankSr 0 0 = true ∧ ((hq 3 1 0 true).setRank 0 0 28 1 1).rankQ 0 0 ≠ [] := by decide +kernel

/-- Stack 0 in training. -/
def training : State := linked.setF (Rg.HBMC_STAT 0) Fd.HBMC_STAT_TRAINING 1

theorem test_wit_hbm_training : bit ((linked.wr (Pg.HBMC 0 + 0x008) 0).rd (Pg.HBMC 0 + 0x008)) 31 = false ∧ bit (linked.rd (Pg.HBMC 0 + 0x008)) 31 = true ∧ linked.isRank 0 0 = true ∧
    linked.fb (Rg.HBMC_STAT 0) Fd.HBMC_STAT_TRAINING = false ∧ linked.stackTrained 0 = false ∧ hbmUp.stackTrained 0 = true ∧ hbmUp.rankState 0 63 ≠ rkFailed ∧
    training.fb (Rg.HBMC_STAT 0) Fd.HBMC_STAT_TRAINING = true ∧ training.hb.keep.contains 0 = false ∧ 7 ∈ training.spareRanks 0 ∧ 8 ∉ training.spareRanks 0 ∧
    ((List.range 64).countP fun r => (training.spareRanks 0).contains r && !([0, 1, 2] : List Nat).contains (r / 2)) <
      ((List.range 64).countP fun r => !(training.spareRanks 0).contains r && ([0, 1, 2] : List Nat).contains (r / 2)) := by decide +kernel

theorem test_wit_retrain : linked.pageOn (Pg.HBM_RAS / 0x1000) = true ∧ hbmUp.f (Rg.HBMC_CFG 0) Fd.HBMC_CFG_TRAIN_PERIOD ≠ 0 ∧
    sget 0 ({ hbmUp with hb := { hbmUp.hb with fails := [(5, 2)] } } : State).hb.fails (0 * 32 + 5) = 2 ∧ hbmUp.rankState 0 (2 * 5) = rkActive ∧ hbmUp.rankState 0 (2 * 5 + 1) = rkActive ∧
    sget 0 hbmUp.hb.fails (0 * 32 + 5) ≠ 2 := by decide +kernel

/-- Word 9 of rank 1 of stack 0 is hard; `n` rows of the stack are repaired already. -/
def hardS (st n : Nat) : State := rankIs 1 st { hbmUp with hb := { hbmUp.hb with hard := [(1, 9)], ppr := List.replicate n (1, 4) } }

theorem test_wit_row_repair : (∀ h ∈ (hardS 0 0).hb.hard, h.1 = 0 * 64 + 1 → h.2 ∉ ([8] : List Nat)) ∧ (∃ h ∈ (hardS 0 0).hb.hard, h.1 = 0 * 64 + 1 ∧ h.2 ∈ ([8, 9] : List Nat)) ∧
    (hardS 3 0).rankState 0 1 = rkMigrating ∧ (hardS 0 0).rankState 0 1 = rkActive ∧ (hardS 0 0).hb.ppr.countP (fun e => e.1 / 64 == 0) < 256 ∧
    256 ≤ (hardS 0 256).hb.ppr.countP (fun e => e.1 / 64 == 0) ∧ ((hardS 0 0).mark (Pg.HBMC 0) 1 9).kind < 2 ∧
    ((hardS 0 0).setRank 0 1 0 8 15).f Rg.HBM_RAS_POLICY Fd.HBM_RAS_POLICY_RETIRE_THR ≤ min 255 (((hardS 0 0).setRank 0 1 0 8 15).rank 0 1 0 8 + 1) := by decide +kernel

/-- Stack 0 with spare 63; rank 2 migrating to it at chunk `n`. -/
def spareS : State := rankIs 63 1 hbmUp
def migS (n : Nat) : State := (spareS.migStart 0 2 63).setF (Rg.HBM_MIG_STAT 0) Fd.HBM_MIG_STAT_NEXT_CHUNK n

theorem test_wit_mig_go : linked.mayWrite host Rg.HBM_MIG_CMD = true ∧ bits (0x80000240#32).toNat 28 2 = 0 ∧ bits (0x80000240#32).toNat 8 6 = 2 ∧ bit (0x80000240#32).toNat 6 = true ∧
    bit (0x80000240#32).toNat 31 = true ∧ bit (0x80000240#32).toNat 30 = false ∧ bit (0x8000023F#32).toNat 6 = false ∧ (0x8000023F#32).toNat % 64 = 63 ∧
    (migS 0).migBusy 0 = true ∧ hbmUp.migBusy 0 = false ∧ hbmUp.spareOf 0 = none ∧ spareS.spareOf 0 = some 63 ∧ (rankIs 2 4 spareS).rankState 0 2 ≠ rkActive ∧
    spareS.rankState 0 2 = rkActive ∧ hbmUp.rankState 0 63 ≠ rkSpare ∧ spareS.rankState 0 63 = rkSpare ∧ (rankIs 63 1 linked).stackUp 0 = false ∧ (rankIs 63 1 linked).migBusy 0 = false ∧
    spareS.stackUp 0 = true ∧ spareS.mayWrite host Rg.HBM_MIG_CMD = true ∧ spareS.migBusy 0 = false := by decide +kernel

theorem test_wit_mig_abort : bit (0x40000000#32).toNat 31 = false ∧ bit (0x40000000#32).toNat 30 = true ∧ bits (0x40000000#32).toNat 28 2 = 0 ∧
    (migS 0).migSource 0 ≠ (migS 0).migTarget 0 ∧ (migS 0).mayWrite host Rg.HBM_MIG_CMD = true := by decide +kernel

/-- Rank 3 is a candidate in autonomous mode. -/
def autoS (s : State) : State := (((s.setF (Rg.SC_STAT 1) Fd.SC_STAT_MODE 2).setF Rg.HBM_RAS_POLICY Fd.HBM_RAS_POLICY_AUTO_RETIRE 1).setRank 0 3 23 1 1)

theorem test_wit_auto_migration : (∀ r, r < 64 → hbmUp.rank 0 r 23 1 = 1 → hbmUp.rankState 0 r ≠ rkActive) ∧ (autoS spareS).autonomous = true ∧
    (autoS spareS).fb Rg.HBM_RAS_POLICY Fd.HBM_RAS_POLICY_AUTO_RETIRE = true ∧ (autoS spareS).stackUp 0 = true ∧ (autoS spareS).migBusy 0 = false ∧
    (List.range 64).find? (fun r => (autoS spareS).rank 0 r 23 1 == 1 && (autoS spareS).rankState 0 r == rkActive) = some 3 ∧ (autoS spareS).spareOf 0 = some 63 ∧
    (autoS hbmUp).spareOf 0 = none ∧ (autoS spareS).pageOn (Pg.HBM_RAS / 0x1000) = true ∧ (autoS spareS).isRank 0 0 = true := by decide +kernel

theorem test_wit_mig_chunk : (migS 5).migBusy 0 = true ∧ (migS 5).migPtr 0 = 5 ∧ (migS 5).stackUp 0 = true ∧ (migS 5).hb.closed.contains (0 * 64 + (migS 5).migSource 0) = false ∧
    (migS 5).hb.closed.contains (0 * 64 + (migS 5).migTarget 0) = false ∧ (∀ j, j < 32 → (migS 5).badWord (Pg.HBMC 0) 2 (5 * 32 + j) = false) ∧
    ((migS 5).setMark (Pg.HBMC 0) 2 (5 * 32 + 31) { kind := 2 }).badWord (Pg.HBMC 0) 2 (5 * 32 + 31) = true ∧ 786432 ≤ (migS 786432).migPtr 0 ∧ (migS 786432).migBusy 0 = true ∧
    (migS 786432).migSource 0 ≠ (migS 786432).migTarget 0 ∧ (migS 5).isRank 0 0 = true := by decide +kernel

/-! ## Scrubbing, counters and telemetry -/

/-- The class-0 scrubber on, over page 0x1040 of the T-die. -/
def scrubS (cls : Nat) : State := (linked.setF Rg.SCRUB_CTRL Fd.SCRUB_CTRL_EN 1).setF (Rg.SCRUB_CLASS_CFG cls) Fd.SCRUB_CLASS_CFG_EN 1
def vp : Nat := Pg.VOQ / 0x1000
def hp : Nat := Pg.HBMC 0 / 0x1000

theorem test_wit_scrub : (scrubS 0).fb Rg.SCRUB_CTRL Fd.SCRUB_CTRL_EN = true ∧ (scrubS 0).fb (Rg.SCRUB_CLASS_CFG 0) Fd.SCRUB_CLASS_CFG_EN = true ∧
    (scrubS 14).fb (Rg.SCRUB_CLASS_CFG 14) Fd.SCRUB_CLASS_CFG_EN = true ∧ ((scrubS 0).setF Rg.SCRUB_CTRL Fd.SCRUB_CTRL_EN 0).fb Rg.SCRUB_CTRL Fd.SCRUB_CTRL_EN = false ∧ vp < 0x2000 ∧
    hp < 0x2000 ∧ (scrubS 0).pageOn (Pg.SCRUB / 0x1000) = true ∧ (scrubS 0).pageOn (Pg.RAS (vp / 0x1000) / 0x1000) = true ∧ (scrubS 0).pageOn vp = true ∧ (scrubS 0).pageOn hp = true ∧
    isHbmc (0x1000 * hp) = true ∧ isHbmc (0x1000 * vp) = false ∧ (scrubS 12).rankSkipped ((0x1000 * hp - Pg.HBMC 0) / 0x1000) 64 = false ∧
    ((rankIs 5 5 (scrubS 12)).rankSkipped ((0x1000 * hp - Pg.HBMC 0) / 0x1000) 5) = true := by decide +kernel

theorem test_wit_scrub_errors : ((scrubS 0).setMark (0x1000 * vp) 1 7 { kind := 3 }).mark (0x1000 * vp) 1 7 = { kind := 3 } ∧ (scrubS 0).mark (0x1000 * vp) 1 7 = {} ∧
    bit ((scrubS 0).rd (0x1000 * vp + 0x03C)) 31 = false ∧ (∀ h ∈ (scrubS 0).history 0, h.1 ≠ wkey (0x1000 * vp) 1 7) ∧ bit ((scrubS 0).rd (Rg.RAS_STORM (vp / 0x1000))) 0 = false ∧
    sget 0 (scrubS 0).ra.ceSec (16 * (vp / 0x1000) + 0) + 1 < (scrubS 0).f (Rg.RAS_CE_THR (vp / 0x1000)) Fd.RAS_CE_THR_CE_THR ∧ (scrubS 0).ra.rw.length < 256 ∧
    0x1000 * vp = Pg.VOQ ∧ (scrubS 10).fb (Rg.SCRUB_CLASS_CFG 10) Fd.SCRUB_CLASS_CFG_EN = true := by decide +kernel

/-- The scrub visit of a correctable error puts the word in the class's history. -/
theorem test_wit_scrub_history : ∃ t, exec (.sinterVisit 0 vp 1 7 1 0 0 0 0 false false false) (scrubS 0) = .next t ∧ t.history 0 ≠ [] := by
  refine ⟨_, rfl, ?_⟩; decide +kernel

theorem test_wit_cleanup : 0x1000 * hp ≠ Pg.VOQ ∧ 0x1000 * hp ≠ Pg.EQS ∧ 0x1000 * vp = Pg.VOQ ∧ (∀ e ∈ linked.bf.lost, e.1 ≠ 8) ∧
    ({ linked with bf := { linked.bf with lost := [(8, { pages := [(3, 8)] })] } } : State).bf.lost = [(8, { pages := [(3, 8)] })] := by decide +kernel

theorem test_wit_flip : linked.mayWrite host (0x1000 * vp + 0x03C) = true ∧ (findPage vp).any (fun d => d.memory) = true ∧ bit (0x80000000#32).toNat 31 = true ∧
    bits (0x80000000#32).toNat 23 6 ≤ 35 ∧ bits (0x80000000#32).toNat 13 6 ≤ 35 := by decide +kernel

/-- Page TICK holds no tables: its PG_FLIP does not exist. -/
theorem test_wit_flip_none : findReg (0x1000 * (Pg.TICK / 0x1000) + 0x03C) = none ∧ linked.mayWrite host (0x1000 * (Pg.TICK / 0x1000) + 0x03C) = true := by decide +kernel

theorem test_wit_scrub_pop : linked.mayRead host Rg.SCRUB_RW_W0 = true ∧ linked.ra.rw = [] ∧ linked.fb Rg.DMA_RW_CFG Fd.DMA_RW_CFG_EN = false ∧
    ({ linked with ra := { linked.ra with rw := [(0, 1, 7)] } } : State).ra.rw = (0, 1, 7) :: [] := by decide +kernel

/-- Counters frozen in tick 0 for `n` ticks, at tick `now`. -/
def frozenS (n now : Nat) : State :=
  { linked.setF Rg.CNT_FREEZE Fd.CNT_FREEZE_FREEZE_TICKS n with te := { linked.te with frz := some ⟨[], 0, true⟩ }, tk := { linked.tk with count := now } }

theorem test_wit_freeze : linked.mayWrite host Rg.CNT_FREEZE = true ∧ r0.mayWrite host Rg.CNT_FREEZE = true ∧ r0.d2dDown = true ∧ linked.d2dDown = false ∧ linked.te.frz = none ∧
    (frozenS 5 4).te.frz = some ⟨[], 0, true⟩ ∧ 5 = (frozenS 5 4).f Rg.CNT_FREEZE Fd.CNT_FREEZE_FREEZE_TICKS ∧ (frozenS 5 4).tk.count < 0 + 5 ∧ 0 + 5 ≤ (frozenS 5 5).tk.count ∧
    (frozenS 5 5).pageOn (Pg.CNT_F / 0x1000) = true := by decide +kernel

/-- A flow-counter increment in the write-back queue, and one in the cache since tick 0 with the tick at `now`. -/
def inc7 : FlowInc := { pair := 7, pkts := 2, bytes := 200, tick := 0 }
def cacheS (s : State) (now : Nat) : State := { s with bf := { s.bf with flow := [inc7] }, tk := { s.tk with count := now } }

theorem test_wit_flow : linked.bf.flowWb = [] ∧ (∀ e ∈ (cacheS linked 63).bf.flow, (cacheS linked 63).tk.count < e.tick + 64) ∧
    (cacheS linked 64).bf.flow.find? (fun e => decide (e.tick + 64 ≤ (cacheS linked 64).tk.count)) = some inc7 ∧
    ({ hbmUp with bf := { hbmUp.bf with flowWb := [inc7] } } : State).bf.flowWb = inc7 :: [] ∧
    linked.pageOn (Pg.HBMC (linked.part.hbmPlace (linked.pairOff 7)).1 / 0x1000) = true ∧ linked.hbmUp (linked.pairOff 7) = false ∧ hbmUp.hbmUp (hbmUp.pairOff 7) = true ∧
    (hbmUp.hbmRead 13 (hbmUp.pairOff 7)).2.2 = true := by decide +kernel

/-- The pair's codeword is uncorrectable. -/
def pairLost : State :=
  let x := hbmUp.hbmFrom (hbmUp.pairOff 7)
  hbmUp.setMark (Pg.HBMC x.1) x.2.1 (x.2.2 / 16) { kind := 2 }

theorem test_wit_flow_lost : (pairLost.hbmRead 13 (pairLost.pairOff 7)).2.2 = false ∧ pairLost.pageOn (Pg.RAS 1 / 0x1000) = true := by decide +kernel

/-- Dump set 15 on, with a dump under way of one entry of no words, to ring 0. -/
def dmp : Dump := { tick := 0, ns := 0, sec := 0, gen := 0, first := 0, last := 0, pages := [], items := [.words []], part := false }
def plumeS : State :=
  ((linked.setF (Rg.PLUME_SET_CFG 15) Fd.PLUME_SET_CFG_EN 1).setF (Rg.PLUME_SET_CFG 15) Fd.PLUME_SET_CFG_PERIOD 10).setF Rg.PLUME_CFG Fd.PLUME_CFG_EN 1
def dumping (s : State) : State := { s with te := { s.te with plume := [(15, { run := some dmp })] } }

theorem test_wit_plume : linked.pageOn (Pg.CNT_T / 0x1000) = true ∧ linked.fb (Rg.PLUME_SET_CFG 15) Fd.PLUME_SET_CFG_EN = false ∧ plumeS.fb (Rg.PLUME_SET_CFG 15) Fd.PLUME_SET_CFG_EN = true ∧
    plumeS.fb Rg.PLUME_CFG Fd.PLUME_CFG_EN = true ∧ plumeS.tickCount % plumeS.f (Rg.PLUME_SET_CFG 15) Fd.PLUME_SET_CFG_PERIOD = plumeS.f (Rg.PLUME_SET_PHASE 15) Fd.PLUME_SET_PHASE_PHASE ∧
    (∀ p ∈ plumeS.te.plume, p.2.run = none) ∧ ((dumping plumeS).plume 15).run = some dmp ∧ (plumeS.plume 15).run = none ∧ dmp.items = [.words []] := by decide +kernel

/-- RX ring 9 of port 0 enabled with `n` descriptors. -/
def ringOn (n : Nat) (s : State) : State :=
  ((((s.setF (Rg.DMA_RING_CFG 9) Fd.DMA_RING_CFG_EN 1).setF (Rg.DMA_RING_CFG 9) Fd.DMA_RING_CFG_PORT 0).setF (Rg.DMA_RING_PTR 9) Fd.DMA_RING_PTR_TAIL n))
def hostUp (s : State) : State := (s.setF (Rg.PCIE_STAT 0) Fd.PCIE_STAT_LINK_UP 1).setF (Rg.PCIE_STAT 1) Fd.PCIE_STAT_LINK_UP 1

theorem test_wit_plume_ring : (hostUp (ringOn 3 linked)).ringTakes 9 0 = true ∧ ((dumping plumeS).setF (Rg.PLUME_SET_CFG 15) Fd.PLUME_SET_CFG_RING 9).f (Rg.PLUME_SET_CFG 15) Fd.PLUME_SET_CFG_RING = 9 ∧
    plumeS.fb (Rg.PLUME_SET_CFG 15) Fd.PLUME_SET_CFG_DEST = false := by decide +kernel

theorem test_wit_roll : (linked.tod linked.tk.start).1 = linked.ptp.pmSec ∧ ({ linked with ptp := { linked.ptp with pmSec := 5 } } : State).d2dDown = false ∧
    (linked.tod linked.tk.start).1 ≠ 5 ∧ linked.pageOn (Pg.TICK / 0x1000) = true ∧ (r0.tod r0.tk.start).1 = r0.ptp.pmSec ∧ r0.tk.count < r0.te.rollT + 976563 ∧
    r0.te.rollT + 976563 ≤ ({ r0 with tk := { r0.tk with count := 976563 } } : State).tk.count := by decide +kernel

/-! ## Service controllers and images -/

/-- The roles of the two controllers. -/
def roles (r0' r1' : Nat) : State := (linked.setF (Rg.SC_STAT 0) Fd.SC_STAT_ROLE r0').setF (Rg.SC_STAT 1) Fd.SC_STAT_ROLE r1'
def sc1 : Acc := ⟨.sc1, false, 15, 0⟩
def sc0 : Acc := ⟨.sc0, false, 15, 0⟩

theorem test_wit_kick : linked.pageOn (Pg.SC 0 / 0x1000) = true ∧ linked.pageOn (Pg.SC 1 / 0x1000) = true ∧ linked.mayWrite sc1 (Rg.SC_HB_KICK 1) = true ∧ reqNo sc1.req = 2 + 1 ∧
    reqNo sc0.req ≠ 2 + 1 ∧ (roles 3 1).scRuns 1 = true ∧ (roles 3 4).scRuns 1 = false ∧ (roles 3 1).scRole 1 = scBoot ∧ ((roles 3 1).sc 1).first = false ∧
    (roles 3 1).f (Rg.SC_STAT 1) Fd.SC_STAT_PEER_ROLE ≠ scActive ∧ ((roles 3 1).setF (Rg.SC_STAT 1) Fd.SC_STAT_PEER_ROLE 3).f (Rg.SC_STAT 1) Fd.SC_STAT_PEER_ROLE = scActive ∧
    ((roles 3 1).setSc 1 { first := true }).sc 1 = { first := true } := by decide +kernel

theorem test_wit_heartbeat : ((roles 3 2).setSc 0 { sent := some 5 }).sc (1 - 1) = { sent := some 5 } ∧ (linked.sc 0).sent = none ∧
    (if true then !linked.d2dDown else linked.d2.mgmtUp) = true ∧ (if true then !r0.d2dDown else r0.d2.mgmtUp) = false ∧ (if false then !r0.d2dDown else r0.d2.mgmtUp) = true := by decide +kernel

/-- SC`k` in STANDBY under an ACTIVE peer that has missed `n` heartbeats. -/
def missing (k n : Nat) (s : State) : State :=
  (((s.setF (Rg.SC_STAT k) Fd.SC_STAT_ROLE 2).setF (Rg.SC_STAT (1 - k)) Fd.SC_STAT_ROLE 3).setF (Rg.SC_STAT k) Fd.SC_STAT_PEER_ROLE 3).setF (Rg.SC_STAT k) Fd.SC_STAT_MISS_RUN n

theorem test_wit_miss : (missing 1 7 linked).scRuns 1 = true ∧ ((missing 1 7 linked).sc 1).gotLink = false ∧ ((missing 1 7 linked).sc 1).gotMgmt = false ∧
    (missing 1 7 linked).f (Rg.SC_STAT 1) Fd.SC_STAT_PEER_ROLE = scActive ∧ (missing 1 7 linked).f (Rg.SC_STAT 1) Fd.SC_STAT_MISS_RUN = 7 ∧ (missing 1 7 linked).scRole 1 = scStandby ∧
    (missing 0 7 linked).pathUp = true ∧ (missing 0 7 { r0 with d2 := { r0.d2 with mgmtUp := false } }).pathUp = false ∧ (missing 0 7 linked).scRole 0 = scStandby ∧
    (roles 3 2).f (Rg.SC_STAT 1) Fd.SC_STAT_PEER_ROLE ≠ scActive ∧ ((roles 3 2).setSc 1 { gotLink := true }).sc 1 = { gotLink := true } := by decide +kernel

/-- Tick 65,536 has come; the core clock of 200 million has passed. -/
def later (n : Nat) (s : State) : State := { s with tk := { s.tk with count := n, start := n * 2048 } }

theorem test_wit_boot : ((later 65536 (roles 3 2)).scRole 1 = scStandby ∨ (later 65536 (roles 3 2)).scRole 1 = scActive) ∧
    ((later 65536 (roles 3 2)).sc 1).since + 65536 ≤ (later 65536 (roles 3 2)).tk.count ∧ (later 97657 (roles 3 1)).scRole 1 = scBoot ∧
    ((later 97657 (roles 3 1)).sc 1).loaded + 200000000 ≤ (later 97657 (roles 3 1)).at 0 ∧ (roles 3 1).at 0 < ((roles 3 1).sc 1).loaded + 200000000 ∧
    (roles 3 4).scRole 1 = scFailed ∧ ((roles 3 4).setF (Rg.SC_CTRL 1) Fd.SC_CTRL_AUTO_RESTART 1).fb (Rg.SC_CTRL 1) Fd.SC_CTRL_AUTO_RESTART = true ∧
    (roles 3 4).f (Rg.SC_STAT 1) Fd.SC_STAT_RESTARTS < (roles 3 4).f (Rg.SC_CFG 1) Fd.SC_CFG_RESTART_MAX ∧
    ((roles 3 4).sc 1).failed + (roles 3 4).f (Rg.SC_CFG 1) Fd.SC_CFG_RESTART_DELAY ≤ (later 97657 (roles 3 4)).tk.count := by decide +kernel

theorem test_wit_fault : (roles 3 4).scRole 1 ∉ [scBoot, scStandby, scActive] ∧ (roles 3 2).scRole 0 ∈ [scBoot, scStandby, scActive] ∧ (roles 3 2).scRole 0 = scActive ∧
    (roles 3 2).scRole (1 - 0) = scStandby := by decide +kernel

/-- A takeover due to SC`k`, told or not; with no path, or with one. -/
def dueS (k : Nat) (told : Bool) (s : State) : State := { missing k 0 s with sv := { s.sv with due := some ⟨k, 1, 0, told⟩ } }
def noPath : State := { r0 with d2 := { r0.d2 with mgmtUp := false } }

theorem test_wit_takeover : linked.sv.due = none ∧ (dueS 1 true linked).sv.due = some ⟨1, 1, 0, true⟩ ∧ (dueS 1 true linked).scRole 1 = scStandby ∧
    0 + (if (1 : Nat) = 2 then 64 else 0) ≤ (dueS 1 true linked).tk.start ∧ (dueS 1 true linked).pathUp = true ∧ (dueS 0 true noPath).pathUp = false ∧ (dueS 1 true noPath).pathUp = false ∧
    noPath.pageOn (Pg.SC 0 / 0x1000) = true ∧ noPath.pageOn (Pg.SC 1 / 0x1000) = true ∧ ({ dueS 1 true linked with cm := linked.cm } : State).scRuns 0 = true ∧
    (((roles 3 2).setF Rg.CMT_STAT Fd.CMT_STAT_STATE 1).setF Rg.CMT_STAT Fd.CMT_STAT_OWNER 2).scOwns 0 = true := by decide +kernel

theorem test_wit_sc_ctrl : (roles 3 2).mayWrite sc0 (Rg.SC_CTRL 1) = true ∧ bits (0x20000001#32).toNat 29 3 = 1 ∧ bits (1#32).toNat 29 3 = 0 ∧ bits (0x80000000#32).toNat 29 3 = 4 ∧
    bits (0xA0000000#32).toNat 29 3 = 5 ∧ bits (0x40000000#32).toNat 29 3 = 2 ∧ reqNo sc0.req ≠ 2 + 1 ∧ (roles 3 5).scRole 1 = scHeld ∧ (roles 3 4).scRole 1 ∈ [scFailed, scIsolated, scHeld] ∧
    (roles 3 2).scRole 1 ∈ [scOff, scBoot, scStandby, scActive] := by decide +kernel

/-- SC1 asks for a switchover to SC0. -/
theorem test_wit_switchover : (roles 2 3).mayWrite sc1 (Rg.SC_CTRL 1) = true ∧ (roles 2 3).scRole 1 ≠ scHeld ∧ (roles 2 3).scRole 1 = scActive ∧ (roles 2 3).scRole (1 - 1) = scStandby ∧
    (roles 2 3).f (Rg.SC_STAT 1) Fd.SC_STAT_MISS_RUN = 0 ∧ reqNo sc1.req ≠ 3 - 1 ∧ (roles 4 3).scRole (1 - 1) ≠ scStandby ∧ (roles 3 3).split = true ∧ (roles 3 3).pathUp = true ∧
    (roles 3 2).split = false := by decide +kernel

/-- The lock held by port `p`. -/
def locked (p : Nat) : State := (linked.setF Rg.UPD_LOCK_STAT Fd.UPD_LOCK_STAT_HELD 1).setF Rg.UPD_LOCK_STAT Fd.UPD_LOCK_STAT_OWNER p

theorem test_wit_lock : linked.mayWrite host Rg.UPD_LOCK = true ∧ (roles 3 2).mayWrite sc0 Rg.UPD_LOCK = true ∧ portOf sc0.req = none ∧ portOf host.req = some 0 ∧
    linked.fb Rg.UPD_LOCK_STAT Fd.UPD_LOCK_STAT_HELD = false ∧ (locked 1).fb Rg.UPD_LOCK_STAT Fd.UPD_LOCK_STAT_HELD = true ∧ (locked 0).holdsLock host.req = true ∧
    (locked 1).holdsLock host.req = false ∧ linked.pageOn (Pg.UPD / 0x1000) = true ∧ (locked 0).mayWrite host Rg.UPD_LOCK = true ∧
    (locked 0).up.lockAt + (locked 0).f Rg.UPD_CFG Fd.UPD_CFG_LOCK_TIMEOUT * 2000000000 ≤ (later 976563000 (locked 0)).at 0 ∧
    (locked 0).at 0 < (locked 0).up.lockAt + (locked 0).f Rg.UPD_CFG Fd.UPD_CFG_LOCK_TIMEOUT * 2000000000 := by decide +kernel

/-- The first bytes of an image header (R341): MAGIC, HDR_VER 1, KIND, FLAGS, SEQ, length, TARGET, USES. -/
def image (kind flags seq len target uses : Nat) : Nat :=
  0x4E494D47 + 2 ^ 32 + kind * 2 ^ 40 + flags * 2 ^ 48 + seq * 2 ^ 64 + len * 2 ^ 128 + target * 2 ^ 160 + uses * 2 ^ 192

/-- Port 0 holds the lock, an image is staged, and the slot is in state `st`. -/
def staged (h st : Nat) : State := ((locked 0).setTbl Pg.UPD 0 0 h).setF Rg.UPD_STAT Fd.UPD_STAT_SLOT st
def goodImg : Nat := image 3 0 7 64 0xA201 8

theorem test_wit_verify : linked.mayWrite host Rg.UPD_CMD = true ∧ linked.holdsLock host.req = false ∧ (staged goodImg slLoaded).mayWrite host Rg.UPD_CMD = true ∧
    (staged goodImg slLoaded).holdsLock host.req = true ∧ (staged goodImg slLoaded).fb Rg.UPD_STAT Fd.UPD_STAT_BUSY = false ∧ (staged goodImg slLoaded).updSlot ≠ slVerifying ∧
    (staged goodImg slLoaded).updSlot ≠ slEmpty ∧ (staged goodImg slEmpty).updSlot = slEmpty ∧ (staged goodImg slVerifying).updSlot = slVerifying ∧
    (staged goodImg slVerifying).hdrAt 0 = goodImg := by decide +kernel

theorem test_wit_verify_done : hdrGood goodImg false = true ∧ hdrGood (image 3 0 7 64 0xA201 4) false = false ∧ 512 + hbyte goodImg 16 4 ≤ 262144 ∧
    262144 < 512 + hbyte (image 3 0 7 262144 0xA201 8) 16 4 ∧ hdrGood (image 3 0 7 262144 0xA201 8) false = true ∧ hdrHere linked.part goodImg = true ∧
    hdrHere linked.part (image 3 0 7 64 0xA101 8) = false ∧ (staged goodImg slVerifying).markedIn Pg.EMRAM 0 = [] ∧ bit (hbyte goodImg 6 2) 0 = false ∧
    (linked.setF Rg.EMRAM_SEC Fd.EMRAM_SEC_REQUIRE_CUST 1).fb Rg.EMRAM_SEC Fd.EMRAM_SEC_REQUIRE_CUST = true ∧ linked.fb Rg.EMRAM_SEC Fd.EMRAM_SEC_REQUIRE_CUST = false ∧
    (staged goodImg slVerifying).digestOf (hKind goodImg) (hSeq goodImg) = none ∧ linked.up.digests.length < 4096 ∧ (staged goodImg slVerifying).arb (hKind goodImg) < hSeq goodImg := by decide +kernel

/-- A floor written by SC0: the low half is held, then the high half. -/
theorem test_wit_floor : (roles 3 2).mayWrite sc0 (Rg.UPD_FLOOR_HI 1) = true ∧ (roles 3 2).mayWrite sc0 (Rg.UPD_FLOOR_HI 5) = true ∧ ((roles 3 2).takeLo sc0.req (Rg.UPD_FLOOR_LO 5) 0).2 = 0 ∧
    (roles 3 2).rd64 (Rg.UPD_FLOOR_LO 5) ≤ 0 ∧ 0 < ((roles 3 2).wr64 (Rg.UPD_FLOOR_LO 5) 9).rd64 (Rg.UPD_FLOOR_LO 5) ∧ (roles 3 2).mayWrite sc0 Rg.EMRAM_SEC = true := by decide +kernel

/-- A record of code 0x8001 posted by SC0, one of code 1, and one by a host. -/
def posting (c : Nat) : State := linked.wr Rg.EMRAM_LOG_POST0 c

theorem test_wit_log_post : (posting 0x8001).mayWrite sc0 Rg.EMRAM_LOG_POST2 = true ∧ 0x8000 ≤ (posting 0x8001).rd Rg.EMRAM_LOG_POST0 % 65536 ∧
    (posting 1).rd Rg.EMRAM_LOG_POST0 % 65536 < 0x8000 ∧ (posting 1).mayWrite host Rg.EMRAM_LOG_POST2 = true ∧ portOf sc0.req = none ∧ (portOf host.req).isSome = true ∧
    (posting 0x8001).lg.written < (posting 0x8001).f Rg.EMRAM_LOG_CFG Fd.EMRAM_LOG_CFG_RATE ∧ (posting 0x8001).pathUp = true := by decide +kernel

/-- START of line group 0 (part 20) from the staging slot, of a part that is absent, and a restart from the resident slot (bit 24). -/
theorem test_wit_start : linked.part.hasPart 20 = true ∧ linked.part.hasPart 44 = false ∧ (20#32).toNat % 64 = 20 ∧ bit (20#32).toNat 24 = false ∧ bit (0x01000014#32).toNat 24 = true ∧
    (0x01000014#32).toNat % 64 = 20 ∧ (linked.setF Rg.UPD_STAT Fd.UPD_STAT_BUSY 1).fb Rg.UPD_STAT Fd.UPD_STAT_BUSY = true ∧ (staged goodImg slVerified).partReady 20 = true ∧
    (roles 3 2).partReady 0 = false ∧ (staged goodImg slLoaded).updSlot ≠ slVerified ∧ (staged goodImg slVerified).updSlot = slVerified ∧ partKind 20 = 3 ∧
    (staged (image 4 0 7 64 0xA201 8) slVerified).hdrAt 0 = image 4 0 7 64 0xA201 8 ∧ hKind (image 4 0 7 64 0xA201 8) ≠ partKind 20 ∧ hKind goodImg = partKind 20 ∧
    linked.residentSlot 3 = none := by decide +kernel

theorem test_wit_start_good : (staged goodImg slVerified).hdrAt 0 = goodImg ∧ (staged goodImg slVerified).markedIn Pg.EMRAM 0 = [] ∧
    (staged goodImg slVerified).fb Rg.EMRAM_SEC Fd.EMRAM_SEC_ARB_LOST = false ∧ (staged goodImg slVerified).arb (partKind 20) < hSeq goodImg ∧
    (staged goodImg slVerified).digestOf (partKind 20) (hSeq goodImg) = none ∧ (staged goodImg slVerified).compat 20 goodImg = 0 := by decide +kernel

/-- An image of SEQ 7 for kind `k` in its first resident slot, current, and part `p` starting. -/
def residentIn (k p img : Nat) : State :=
  let s := (((roles 0 0).setTbl Pg.UPD (16 + 2 * (k - 1)) 0 img).setF Rg.UPD_STAT Fd.UPD_STAT_BUSY 1).wr64 (Rg.UPD_ARB_LO k) 7
  { s with up := { s.up with start := some (p, false), valid := [2 * (k - 1)] } }

theorem test_wit_start_done : linked.part.hasPart 44 = false ∧ (residentIn 1 1 (image 1 0 7 64 0xA201 13)).pageOn (partPage 1) = true ∧
    (residentIn 1 1 (image 1 0 7 64 0xA201 13)).up.start = some (1, false) ∧ (residentIn 1 1 (image 1 0 7 64 0xA201 13)).residentSlot (partKind 1) = some 0 ∧
    (residentIn 1 1 (image 1 0 7 64 0xA201 13)).hdrAt (16 + 0) = image 1 0 7 64 0xA201 13 ∧
    (residentIn 1 1 (image 1 0 7 64 0xA201 13)).arb (partKind 1) = hSeq (image 1 0 7 64 0xA201 13) ∧ (residentIn 1 1 (image 1 0 7 64 0xA201 13)).compat 1 (image 1 0 7 64 0xA201 13) = 0 ∧
    (residentIn 1 1 0).scRole 1 = scOff := by decide +kernel

theorem test_wit_start_done_ap : (residentIn 2 19 (image 2 0 7 64 0xA201 6)).residentSlot (partKind 19) = some 2 ∧ (residentIn 2 19 (image 2 0 7 64 0xA201 6)).pageOn (partPage 19) = true ∧
    (residentIn 2 19 (image 2 0 7 64 0xA201 6)).compat 19 (image 2 0 7 64 0xA201 6) = 0 := by decide +kernel

/-- No resident slot; a golden image of kind 3 for part 20. -/
def golden (seq : Nat) : GoldenImage := ⟨image 3 2 seq 64 0xA201 8, true, true, false, true⟩
def starting : State := { linked with up := { linked.up with start := some (20, false) } }

theorem test_wit_golden : starting.residentSlot (partKind 20) = none ∧ bit (starting.rd (Rg.PWR_STRAP 1)) 3 = false ∧ hdrGood (golden 7).hdr true = true ∧ hKind (golden 7).hdr = partKind 20 ∧
    512 + hbyte (golden 7).hdr 16 4 ≤ 262144 ∧ hdrHere starting.part (golden 7).hdr = true ∧ bit (hbyte (golden 7).hdr 6 2) 0 = false ∧
    starting.fb Rg.EMRAM_SEC Fd.EMRAM_SEC_REQUIRE_CUST = false ∧ starting.markedIn Pg.EMRAM 0 = [] ∧ starting.rd64 (Rg.UPD_FLOOR_LO (partKind 20)) ≤ hSeq (golden 7).hdr ∧
    hSeq (golden 7).hdr < (starting.wr64 (Rg.UPD_FLOOR_LO 3) 8).rd64 (Rg.UPD_FLOOR_LO (partKind 20)) ∧ starting.compat 20 (golden 7).hdr = 0 ∧
    bit ((starting.wr (Rg.PWR_STRAP 1) 8).rd (Rg.PWR_STRAP 1)) 3 = true ∧ starting.pageOn (partPage 20) = true := by decide +kernel

/-! ## The host interface -/

theorem test_wit_port : linked.pageOn (Pg.PCIE 0 / 0x1000) = true ∧ linked.pageOn (Pg.PCIE 1 / 0x1000) = true ∧ linked.fb (Rg.PCIE_STAT 1) Fd.PCIE_STAT_LINK_UP = false ∧
    (hostUp linked).fb (Rg.PCIE_STAT 1) Fd.PCIE_STAT_LINK_UP = true ∧ linked.f (Rg.DMA_RING_CFG 0) Fd.DMA_RING_CFG_PORT = 0 ∧ (locked 1).f Rg.UPD_LOCK_STAT Fd.UPD_LOCK_STAT_OWNER = 1 ∧
    ((linked.setF Rg.CMT_STAT Fd.CMT_STAT_STATE 1).setF Rg.CMT_STAT Fd.CMT_STAT_OWNER 1).f Rg.CMT_STAT Fd.CMT_STAT_STATE ≠ 0 := by decide +kernel

theorem test_wit_link_up : (linked.wr (Rg.PWR_STRAP 1) 2).portEnabled 1 = true ∧ linked.portEnabled 1 = false ∧ linked.portEnabled 0 = true ∧ (linked.setPcie 1 { perst := true }).pcie 1 = { perst := true } ∧ (linked.pcie 1).perst = false ∧ (6 : Nat) ∈ [1, 2, 3, 4, 5, 6] ∧
    (4 : Nat) ∈ [1, 2, 4] ∧ (7 : Nat) ∉ [1, 2, 3, 4, 5, 6] ∧ (3 : Nat) ∉ [1, 2, 4] := by decide +kernel

/-- Port 1 sends MSI-X; source 521 (ring 9) is asserted and mapped to vector 255 of port 1; the vector is as `m`. -/
def irqS (m : MsixVec) : State :=
  { ((hostUp linked).setPcie 1 { msixEn := true, vecs := [(255, m)] }).setTbl Pg.IRQ 0 521 (2 ^ 31 + 255 * 2 ^ 8) with ringDue := [9] }

theorem test_wit_rearm : linked.mayWrite host Rg.IRQ_REARM = true ∧ (0x1FF#32).toNat / 256 % 2 = 1 ∧ (0x1FF#32).toNat % 256 = 255 ∧ linked.msixLive 1 = false ∧
    (irqS { mask := false }).msixLive 1 = true ∧ (irqS { mask := false }).irqSrc 521 = true ∧ 521 ∈ (irqS { mask := false }).vecSources 1 255 ∧
    (sget {} ((irqS { mask := false }).pcie 1).vecs 255).mask = false ∧ ((irqS { mask := false }).pcie 1).fmask = false ∧ (irqS { mask := false }).mayWrite host Rg.IRQ_REARM = true := by
  decide +kernel

theorem test_wit_mask_change : (hostUp linked).fb (Rg.PCIE_STAT 1) Fd.PCIE_STAT_LINK_UP = true ∧ (sget {} ((irqS { pending := true }).pcie 1).vecs (255 % 256)).pending = true := by
  decide +kernel

theorem test_wit_ring : linked.mayWrite host (Rg.DMA_RING_CFG 63) = true ∧ linked.fb (Rg.DMA_RING_CFG 63) Fd.DMA_RING_CFG_EN = false ∧ (ringOn 1 linked).fb (Rg.DMA_RING_CFG 9) Fd.DMA_RING_CFG_EN = true ∧
    portOf host.req = some ((ringOn 1 linked).f (Rg.DMA_RING_CFG 9) Fd.DMA_RING_CFG_PORT) ∧ portOf Requester.pcie1 = some 1 ∧ linked.mayWrite ⟨.pcie1, false, 15, 0⟩ (Rg.DMA_RING_CFG 9) = true ∧
    linked.mayWrite host (Rg.DMA_RING_PTR 63) = true ∧ (ringOn 1 linked).ringAvail 9 + ((2 % (ringOn 1 linked).ringSize 9 + (ringOn 1 linked).ringSize 9 - 1) % (ringOn 1 linked).ringSize 9)
      < (ringOn 1 linked).ringSize 9 ∧
    (ringOn 1 linked).ringSize 9 ≤ (ringOn 1 linked).ringAvail 9 + ((0 + (ringOn 1 linked).ringSize 9 - 1) % (ringOn 1 linked).ringSize 9) := by decide +kernel

/-- Ring 9 receives, with an item of 100 bytes, or with an open record descriptor. -/
def rxS (r : RingSt) : State := (hostUp (ringOn 3 linked)).setRing 9 r
def itm : DmaItem := { src := 2, code := 0, bytes := List.replicate 100 0 }

theorem test_wit_rx : (rxS { items := [itm] }).ringTakes 9 0 = true ∧ ((rxS { items := [itm] }).ring 9).opn = none ∧ ((rxS { items := [itm] }).ring 9).items = itm :: [] ∧
    (rxS {}).ringFifo 9 = none ∧ linked.ringTakes 9 0 = false ∧ linked.ringTakes 9 1 = false ∧ (rxS { opn := some ⟨3, 64, 32, [], 0⟩ }).ringTakes 9 0 = true ∧
    ((rxS { opn := some ⟨3, 64, 32, [], 0⟩ }).ring 9).opn = some ⟨3, 64, 32, [], 0⟩ ∧ (rxS {}).ln.notes.isEmpty = true ∧ 0 + 20000 ≤ (rxS {}).at 20000 ∧ (rxS {}).at 19999 < 0 + 20000 := by
  decide +kernel

/-- Ring 9 transmits. -/
def txS (s : State) : State := (hostUp (ringOn 3 s)).setF (Rg.DMA_RING_CFG 9) Fd.DMA_RING_CFG_DIR 1

theorem test_wit_tx : (txS linked).ringTakes 9 1 = true ∧ (txS linked).pageOn (Pg.DMA / 0x1000) = true ∧ (txS linked).lportOn 63 = true ∧ (txS linked).lpSpeed 63 = 0 ∧
    (txS linked).isClient 63 = false ∧ (txS (portIn lkUp)).lportOn 0 = true ∧ (txS (portIn lkUp)).lpSpeed 0 ≠ 0 ∧ (txS (portIn lkUp)).ringTakes 9 1 = true ∧
    (txS hbmUp).allUp = true ∧ (txS hbmUp).ringTakes 9 1 = true ∧ (txS linked).allUp = false ∧
    (txS hbmUp).tableBase + 0 + 32 ≤ (txS hbmUp).part.hbmBytes ∧ (txS hbmUp).part.hbmBytes < (txS hbmUp).tableBase + 2 ^ 40 + 32 ∧ 4 ∉ [1, 2, 3] := by decide +kernel

/-- The bucket of the frame depends on the hash, which is open: every bucket has room. -/
theorem test_wit_tx_room : (txS (portIn lkUp)).injectRoom 0 64 (List.replicate 60 0) = true := by
  have h : ∀ k, k < 256 →
      (!(txS (portIn lkUp)).d2dDown && decide ((txS (portIn lkUp)).f (Rg.SBUF_USED (0 / 8)) Fd.SBUF_USED_BYTES + 64 ≤ 524288) &&
        (((txS (portIn lkUp)).holder 0 (256 * 0 + k)).isSome || (!((txS (portIn lkUp)).slice 0 ((txS (portIn lkUp)).bucketEnt 0 (256 * 0 + k) % 16)).stranded &&
          decide (poolCount ((txS (portIn lkUp)).slice 0 ((txS (portIn lkUp)).bucketEnt 0 (256 * 0 + k) % 16)).pool < 512)))) = true := by
    set_option maxRecDepth 100000 in decide +kernel
  generalize hs : txS (portIn lkUp) = s at h ⊢
  unfold State.injectRoom
  exact h _ (Nat.mod_lt _ (by decide))

/-- The steering buffer of port 0 is full. -/
theorem test_wit_tx_full : ((txS (portIn lkUp)).wr (Rg.SBUF_USED (0 / 8)) 524288).injectRoom 0 64 (List.replicate 60 0) = false := by decide +kernel

/-- Ring 9 has completed one descriptor at clock 0 and waits 5 µs; its source is mapped to vector 3 of port 1, or not. -/
def coalS : State := (linked.setRing 9 { done := 1 }).setF (Rg.DMA_RING_CFG 9) Fd.DMA_RING_CFG_COAL_US 5
def coalM : State := ((hostUp coalS).setPcie 1 { msixEn := true }).setTbl Pg.IRQ 0 (512 + 9) (2 ^ 31 + 3 * 2 ^ 8)

theorem test_wit_coal : coalS.f (Rg.DMA_RING_CFG 9) Fd.DMA_RING_CFG_COAL_US = 5 ∧ 0 < (coalS.ring 9).done ∧ 9 ∉ coalS.ringDue ∧ (coalS.ring 9).since + 5 * 2000 ≤ coalS.at 10000 ∧
    coalS.at 9999 < (coalS.ring 9).since + 5 * 2000 ∧ (∀ p, p < 2 → bit (coalS.tbl Pg.IRQ 0 (512 + 9)) (30 + p) = false ∨ coalS.msixLive p = false) ∧
    bit (coalM.tbl Pg.IRQ 0 (512 + 9)) (30 + 1) = true ∧ coalM.msixLive 1 = true ∧ 0 < (coalM.ring 9).done := by decide +kernel

/-! ## Power, resets, clocks and pins -/

/-- An accepted request of PWR_DOM_REQ that turns off domain `b` of die 1: the word differs from the register in that bit alone. -/
def reqWord (die w b : Nat) (s : State) : Word := BitVec.ofNat 32 (s.rd (Rg.PWR_DOM_REQ die w) ^^^ 2 ^ b)

/-- Caldera quarter 3 is off. -/
def q3off : State := ((linked.setDom 1 3 false).setReq 1 3 false)

theorem test_wit_power : linked.mayWrite host (Rg.PWR_DOM_REQ 1 0) = true ∧ (∀ i, i < 32 → (bit (reqWord 1 0 3 linked).toNat i = bit (linked.rd (Rg.PWR_DOM_REQ 1 0)) i ↔ i ≠ 3)) ∧
    linked.part.hasDom 1 3 = true ∧ linked.part.hasDom 1 63 = false ∧ domKey 1 3 ∉ linked.pw.rise ∧ domKey 1 3 ∉ linked.pw.wait ∧ domKey 1 3 ∉ linked.pw.fall ∧
    bit (reqWord 1 0 3 linked).toNat 3 = false ∧ linked.domOn 1 3 = true ∧ linked.offOk 1 3 (reqNo host.req) = true ∧
    (linked.setF Rg.CALD_STAT Fd.CALD_STAT_USED 1).offOk 1 3 (reqNo host.req) = false ∧ bit (reqWord 1 0 3 q3off).toNat 3 = true ∧ q3off.domOn 1 3 = false ∧
    q3off.pw.rise.countP (· / 64 == 1) < 4 ∧ (∀ k ∈ q3off.pw.wait, k / 64 ≠ 1) ∧
    4 ≤ ({ q3off with pw := { q3off.pw with rise := [64, 65, 66, 68] } } : State).pw.rise.countP (· / 64 == 1) := by decide +kernel

/-- POWER_REQUEST through PG_CTRL of the page of an F-die ingress slice; a slice in service may go only as SERVICE or FENCED. -/
theorem test_wit_page_power : ∃ page d, linked.mayWrite host (page * 0x1000 + 0x008) = true ∧ pageDoms page = [(0, d)] ∧ page ≠ Pg.EQS / 0x1000 ∧ ¬(0x1060 ≤ page ∧ page < 0x1064) ∧
    linked.pagePowerReq page = true ∧ linked.domOn 0 d = true ∧ linked.part.hasDom 0 d = true ∧ domKey 0 d ∉ linked.pw.fall ∧ bits (0x80000000#32).toNat 29 3 = 4 ∧
    linked.offOk 0 d (reqNo host.req) = true := ⟨0x010, 36, by decide +kernel⟩

theorem test_wit_cald_power : linked.mayWrite host Rg.CALD_PWR = true ∧ (∀ i, i < 4 → (bit (7#32).toNat i = bit (linked.rd Rg.CALD_PWR) i ↔ i ≠ 3)) ∧ bit (7#32).toNat 3 = false ∧
    (∀ i, i < 4 → (bit (15#32).toNat i = bit (q3off.rd Rg.CALD_PWR) i ↔ i ≠ 3)) ∧ bit (15#32).toNat 3 = true ∧ q3off.mayWrite host Rg.CALD_PWR = true := by decide +kernel

theorem test_wit_enable : linked.mayWrite host (Pg.EQS / 0x1000 * 0x1000 + 0x008) = true ∧ bit (0xA0000000#32).toNat 30 = false ∧ bit (0xA0000000#32).toNat 29 = linked.pagePowerReq (Pg.EQS / 0x1000) ∧
    bit (0xA0000000#32).toNat 29 = linked.pagePowerReq 0x1060 ∧ linked.mayWrite host (0x1060 * 0x1000 + 0x008) = true ∧ bit (0xA0000000#32).toNat 31 = true ∧
    linked.mayWrite host (0x010 * 0x1000 + 0x008) = true ∧ bit (0xA0000000#32).toNat 29 = linked.pagePowerReq 0x010 := by decide +kernel

theorem test_wit_domain_done : domKey 1 3 ∉ linked.pw.fall ∧ domKey 1 3 ∈ ({ linked with pw := { linked.pw with fall := [domKey 1 3] } } : State).pw.fall ∧
    linked.pageOn (Pg.PWR 1 / 0x1000) = true ∧ bit (linked.rd (Rg.PWR_DOM_REQ 1 (3 / 32))) (3 % 32) = true ∧
    domKey 1 3 ∈ ({ linked with pw := { linked.pw with rise := [domKey 1 3] } } : State).pw.rise ∧ linked.pageOn (Pg.PWR 0 / 0x1000) = true := by decide +kernel

/-- The T-die in standby state `st`, keeping controller `k` (2: none). -/
def stbyS (st k : Nat) : State := ((roles 3 2).setF (Rg.PWR_STBY 1) Fd.PWR_STBY_STATE st).setF (Rg.PWR_STBY 1) Fd.PWR_STBY_KEEP k

theorem test_wit_standby : (stbyS 0 2).mayWrite sc0 (Rg.PWR_STBY 1) = true ∧ bits (0x80000000#32).toNat 30 2 = 2 ∧ bits (0x40000000#32).toNat 30 2 = 1 ∧ (0x80000001#32).toNat % 4 = 1 ∧
    (stbyS 0 2).scRole 0 = scActive ∧ (stbyS 0 2).scRole 1 ≠ scActive ∧ (stbyS 0 2).f Rg.CALD_STAT Fd.CALD_STAT_USED = 0 ∧ (stbyS 0 2).f Rg.VOQ_STAT Fd.VOQ_STAT_NONEMPTY = 0 ∧
    (stbyS 0 2).f Rg.EQS_POOL_STAT Fd.EQS_POOL_STAT_USED = 0 ∧ (stbyS 0 2).stby = 0 ∧ (stbyS 0 2).f Rg.CMT_STAT Fd.CMT_STAT_STATE = 0 ∧ (stbyS 1 2).stby ≠ 0 ∧
    ((stbyS 0 2).setF Rg.CALD_STAT Fd.CALD_STAT_USED 5).f Rg.CALD_STAT Fd.CALD_STAT_USED ≠ 0 ∧ (0x40000003#32).toNat % 4 = 3 ∧ (stbyS 2 0).stby = 2 ∧
    (stbyS 2 0).f (Rg.PWR_STBY 1) Fd.PWR_STBY_KEEP = 0 ∧ (stbyS 2 0).mayWrite sc0 (Rg.PWR_STBY 1) = true ∧ reqNo sc0.req = 2 + 0 ∧ (stbyS 3 0).stby = 3 ∧ (stbyS 1 0).stby = 1 ∧
    (stbyS 1 0).stbyKeep ≠ some 1 ∧ (stbyS 1 0).pageOn (Pg.PWR 1 / 0x1000) = true := by decide +kernel

theorem test_wit_wake : (stbyS 2 0).f (Rg.PWR_GPIO_CFG 1 7) Fd.PWR_GPIO_CFG_MODE ≠ 3 ∧ ((stbyS 2 0).setF (Rg.PWR_GPIO_CFG 1 7) Fd.PWR_GPIO_CFG_MODE 3).f (Rg.PWR_GPIO_CFG 1 7) Fd.PWR_GPIO_CFG_MODE = 3 ∧
    (stbyS 2 0).fb (Rg.PWR_GPIO_CFG 1 7) Fd.PWR_GPIO_CFG_IN = false ∧ sget 0 (stbyS 2 0).pw.gpioAt 7 = 0 ∧ (stbyS 2 0).pw.por = false ∧ (stbyS 2 0).pw.sup = false := by decide +kernel

/-- WARM_RST_N was low at clock 0. -/
def warmed : State := { linked with pw := { linked.pw with lastWarm := some 0 } }

theorem test_wit_resets : linked.pw.por = false ∧ linked.pw.sup = false ∧ linked.pw.lastWarm = none ∧ warmed.pw.lastWarm = some 0 ∧ ((warmed.at 2047 : Nat) : Int) < 0 + 200000000 ∧
    (0 : Int) + 200000000 ≤ (later 97657 warmed).at 0 ∧ linked.mayWrite host (Rg.PWR_RESET 1) = true ∧ bits (0xA5000001#32).toNat 24 8 = 0xA5 ∧ bit (0xA5000001#32).toNat 0 = true ∧
    bits (0xA5000002#32).toNat 24 8 = 0xA5 ∧ (0xA5000002#32).toNat % 4 = 2 ∧ (0xA5000000#32).toNat % 4 = 0 ∧ bits (1#32).toNat 24 8 ≠ 0xA5 := by decide +kernel

theorem test_wit_thermal : linked.f (Rg.PWR_TEMP 1) Fd.PWR_TEMP_TEMP < linked.f (Rg.PWR_TEMP 1) Fd.PWR_TEMP_ALERT ∧ linked.f (Rg.PWR_TEMP 1) Fd.PWR_TEMP_ALERT ≤ min 255 300 ∧
    linked.pageOn (Pg.HBMC 3 / 0x1000) = true ∧ 3 < linked.part.stacks ∧ linked.pw.tripPin = false ∧ linked.part.hasDom 0 46 = true ∧ linked.part.hasDom 0 47 = false ∧ linked.part.hasDom 1 28 = true := by decide +kernel

theorem test_wit_refs : refPlace 4 = (1, 2, some 1) ∧ linked.pageOn (Pg.CLK 1 / 0x1000) = true ∧ (linked.setF (Rg.CLK_STAT 1) (refOk 2) 1).fb (Rg.CLK_STAT 1) (refOk 2) = true ∧
    linked.fb (Rg.CLK_STAT 1) (refOk 2) = false ∧ (linked.setF (Rg.CLK_CFG 1) Fd.CLK_CFG_REF_FALLBACK 1).fb (Rg.CLK_CFG 1) Fd.CLK_CFG_REF_FALLBACK = true := by
  decide +kernel

/-- GPIO pin 7 with its last event at clock 5 and a rate of one event in 1 ms. -/
def gpioS : State :=
  ({ linked with pw := { linked.pw with gpioAt := [(7, 6)] } } : State).setF (Rg.PWR_GPIO_CFG 1 7) Fd.PWR_GPIO_CFG_RATE_MS 1

theorem test_wit_gpio : linked.fb (Rg.PWR_GPIO_CFG 1 7) Fd.PWR_GPIO_CFG_IN ≠ true ∧ linked.fb (Rg.PWR_GPIO_CFG 1 7) Fd.PWR_GPIO_CFG_IN = false ∧
    gpioS.at 2047 < sget 0 gpioS.pw.gpioAt 7 - 1 + 2000000 * gpioS.f (Rg.PWR_GPIO_CFG 1 7) Fd.PWR_GPIO_CFG_RATE_MS ∧ sget 0 gpioS.pw.gpioAt 7 ≠ 0 ∧
    sget 0 gpioS.pw.gpioAt 7 - 1 + 2000000 * gpioS.f (Rg.PWR_GPIO_CFG 1 7) Fd.PWR_GPIO_CFG_RATE_MS ≤ (later 977 gpioS).at 0 ∧ sget 0 linked.pw.gpioAt 7 = 0 ∧
    linked.f (Rg.PWR_GPIO_CFG 1 7) Fd.PWR_GPIO_CFG_MODE = 0 := by decide +kernel

/-! ## The spec's worked examples, with the results that the spec prints -/

/-- PG_ID and PG_CAP of HBMC2 (chapter 18, after R395), and the page's absence on the LMB-4806. -/
theorem test_example_page_header : linked.readReg host 0x01062000 = 0x80600201 ∧ linked.readReg host 0x01062004 = 0xD8000000 ∧
    ({ r0 with part := .lmb4806 } : State).presentWord 1 3 / 4 % 2 = 0 ∧ linked.presentWord 1 3 / 4 % 2 = 1 := by decide +kernel

/-- Rates as MANT and EXP (R213, R236): 10 Gb/s and 1 Gb/s. -/
theorem test_example_rates : fl17 0x1312C = 9998336 ∧ fl17 0x1E848 = 999936 := by decide

/-- Credit charge of a 1,500-byte packet, the cells it occupies (R253, R271), and the VOQ of system port 90,000, TC2. -/
theorem test_example_credit : chargeOf 1500 0 = 7 ∧ cellsOf 1500 = 6 ∧ 8 * 90000 + 2 = 0xAFC82 := by decide +kernel

/-- Buffer pages at the reset layout (R282). -/
theorem test_example_pages : bufPages 1024 1 = 32051994 ∧ bufPages 1024 1 = 0x1E9131A ∧ 2048 + sideBytes 1 = 2144 := by decide

/-- The status word of a punted 1,500-byte packet of code 0x21 (R368). -/
theorem test_example_rx_word : rxWord true true false 0 0x21 1532 = 0xE04205FC := by decide

/-- The GRE node (R107 to R109): flags C, R, K, S of 0xB0 give 16 bytes, 0x00 gives 4, 0x40 (R alone) gives 4; the selector is the protocol type. -/
def greNode : Nat := 0xDD204003 * 2 ^ 64 + 0x0B040840 * 2 ^ 32 + 0x62004000

theorem test_example_gre : hdrLen greNode [0xB0, 0, 8, 0] 0 = 16 ∧ hdrLen greNode [0, 0, 8, 0] 0 = 4 ∧ hdrLen greNode [0x40, 0, 8, 0] 0 = 4 ∧
    hdrLen greNode [0x20, 0, 8, 0] 0 = 8 ∧ selector greNode [0xB0, 0, 0x08, 0x00] 0 = 0x0800 := by decide +kernel

/-- ECMP group 77 (R149, R150): member 0x1001 names protection group 300, which uses next hop 5,000 while watch 16 lives and 5,001 after. -/
def ecmpS : State :=
  ((((linked.setTbl Pg.NHOP 1 77 (1 + 0x1234 * 2 ^ 17 + 6 * 2 ^ 33 + 0x1000 * 2 ^ 46)).setTbl Pg.NHOP 2 0x1001 (300 + 2 ^ 31 + 2 ^ 30)).setTbl Pg.NHOP 3 300
    (1 + 16 * 2 ^ 16 + 5001 * 2 ^ 28 + 5000 * 2 ^ 46)).setTbl Pg.NHOP 0 5000 1).setTbl Pg.NHOP 0 5001 1

theorem test_example_ecmp : ((ecmpS.setLive 16 true).resolve (2 ^ 29 + 77) 0x5A3C 64).2.nh = some (5000, 1) ∧
    ((ecmpS.setLive 16 false).resolve (2 ^ 29 + 77) 0x5A3C 64).2.nh = some (5001, 1) := by decide +kernel

/-- Three rules match; of the two of priority 800 the lower index wins, and 801 makes the other win (R121). -/
def aclS (p : Nat) : State :=
  let s := linked.setF Rg.CMT_CTRL Fd.CMT_CTRL_TABLE_MODE 1
  ((s.setTbl Pg.ACL 0 12298 (mkAcl 0 0 1 p 0)).setTbl Pg.ACL 0 8096 (mkAcl 0 0 2 800 0)).setTbl Pg.ACL 0 5 (mkAcl 0 0 3 100 0)

theorem test_example_acl : ((aclS 800).aclSearch 0xF rkCur 0).map (·.1) = some 8096 ∧ ((aclS 801).aclSearch 0xF rkCur 0).map (·.1) = some 12298 := by decide +kernel

/-- WRED (R216): MIN 2,048, MAX 4,096, MAX_P 64 at 3,000 cells drop where the draw is below 7,616; below MIN never, from MAX on always. -/
theorem test_example_wred : 64 * 256 * (3000 - 2048) / (4096 - 2048) = 7616 := by decide

/-- Line group 2 (chapter 3): the words of channels 0 and 7, which wait in the shadow. -/
def group2 : State := (linked.fieldWrite 0x00012100 0x24000040).fieldWrite 0x000121E0 0x24000110

theorem test_example_lports : lpCfg 16 = 0x00012100 ∧ lpCfg 23 = 0x000121E0 ∧ group2.staged (lpCfg 16) = 0x24000040 ∧ group2.staged (lpCfg 23) = 0x24000110 ∧
    bits (group2.staged (lpCfg 16)) Fd.LPORT_CFG_MAX_FRAME.lo Fd.LPORT_CFG_MAX_FRAME.w = 9216 ∧ bits (group2.staged (lpCfg 23)) Fd.LPORT_CFG_LANE_RATE.lo Fd.LPORT_CFG_LANE_RATE.w = 1 ∧
    speedRate (bits (group2.staged (lpCfg 16)) Fd.LPORT_CFG_SPEED.lo Fd.LPORT_CFG_SPEED.w) = 800 ∧
    speedRate (bits (group2.staged (lpCfg 23)) Fd.LPORT_CFG_SPEED.lo Fd.LPORT_CFG_SPEED.w) = 100 ∧ group2.lpSpeed 16 = 0 := by decide +kernel

/-- The bucket move of chapter 4: bucket 0x145A of ingress leaves IS2 for IS8. -/
theorem test_example_move : (match exec (.steerMove { host with clk := 900 } 0x945A0008) linked with
    | .next t => t.moveIn.map fun m => (m.index, m.src, m.target)
    | _ => none) = some (0x145A, 2, 8) := by decide +kernel

/-- The shaper of node 9,001 (R236, R237): a 1,500-byte packet charged 1,524 bytes puts it on the wheel 12 ticks ahead. -/
def shpS : State := (linked.setTbl Pg.SHP 0 9001 (0x1E848 + 0x1E848 * 2 ^ 32 + 2 ^ 64 + 2 ^ 95)).setF (Rg.SHP_ADJ 0) ⟨8, 8⟩ 24

theorem test_example_shaper : perTick 999936 = 8388071 ∧ (({ shpS with eg := { shpS.eg with lv := [(9001, { level := 0 })] } } : State).shpCharge 1500 9001).eg.wheel = [(9001, 13)] ∧
    (({ shpS with eg := { shpS.eg with lv := [(9001, { level := 0 })] } } : State).shpCharge 1500 9001).shpLevel 9001 = -1524 * 65536 := by decide +kernel

/-- The gate list of port 20 (R242): a 9,216-byte TC5 frame takes 185.12 ns; it fits 9,814 ns into the cycle and not 9,900 ns into it. -/
def tsn : GateList := { page := 0, len := 2, cycle := 100000, base := 0, overhead := 40 }
def gateS : State :=
  ((linked.setF (lpCfg 20) Fd.LPORT_CFG_SPEED 3).setTbl Pg.GATE 0 (20 * 2 ^ 8) (10000 + 0x20 * 2 ^ 32)).setTbl Pg.GATE 0 (20 * 2 ^ 8 + 1) (90000 + 0xDF * 2 ^ 32)

theorem test_example_gate : gateS.portRate 20 = 400 ∧ (gateS.wireTime 20 9216 tsn).any (fun w => w * 100 / 2 ^ 32 == 18511 || w * 100 / 2 ^ 32 == 18512) = true ∧
    gateS.f Rg.GATE_CFG Fd.GATE_CFG_LEAD ≤ 5000 ∧
    (gateS.fitTest 20 5 9216 ((9814 - gateS.f Rg.GATE_CFG Fd.GATE_CFG_LEAD) * 2 ^ 32) tsn).isSome = true ∧
    gateS.fitTest 20 5 9216 ((9900 - gateS.f Rg.GATE_CFG Fd.GATE_CFG_LEAD) * 2 ^ 32) tsn = none := by decide +kernel

/-- PG_FLIP 0x839A9000 in EXM (R303): the next word stored has two data symbols in error, which is uncorrectable. -/
theorem test_example_flip : bits 0x839A9000 23 6 = 7 ∧ (((linked.wr (Pg.EXM + 0x03C) 0x839A9000).wroteWord Pg.EXM 3 2).mark Pg.EXM 3 2).kind = 2 ∧
    bit (((linked.wr (Pg.EXM + 0x03C) 0x839A9000).wroteWord Pg.EXM 3 2).rd (Pg.EXM + 0x03C)) 31 = false := by decide +kernel

end Sys2Proof.Tests
end

section
/-! SUPPORT. SYNC_IN: the rising transitions of R43, and the Manchester cells and CRC of a tag word (R40, R41). -/
namespace Sys2Proof.Machine

/-! ## Manchester cells -/

/-- Bits read most significant first give the number cut to that many bits. -/
theorem foldl_bitsOf (n v a : Nat) :
    (bitsOf n v).foldl (fun a b => 2 * a + b2n b) a = a * 2 ^ n + v % 2 ^ n := by
  induction n generalizing a with
  | zero => simp [bitsOf, Nat.mod_one]
  | succ n ih =>
    have hb : b2n (bit v n) = v / 2 ^ n % 2 := by
      unfold bit b2n
      rcases Nat.mod_two_eq_zero_or_one (v / 2 ^ n) with h | h <;> simp [h]
    rw [bitsOf, List.foldl_cons, ih, hb, Nat.pow_succ, Nat.mod_mul]
    ring

theorem length_bitsOf (n v : Nat) : (bitsOf n v).length = n := by
  induction n with
  | zero => rfl
  | succ n ih => simp [bitsOf, ih]

/-- A receiver decodes the cells of a tag word to that word, without violation (R40). -/
theorem manchester_tagCells (w : Nat) (h : w < 2 ^ 32) : manchester (tagCells w) = (w, true) := by
  have hw : (bitsOf 32 w).foldl (fun a b => 2 * a + b2n b) 0 = w := by
    rw [foldl_bitsOf, Nat.mod_eq_of_lt h, Nat.zero_mul, Nat.zero_add]
  simp [manchester, tagCells, List.foldl_map, hw, length_bitsOf]

/-! ## Rising transitions -/

theorem syncEdge_of_not_slave (s : State) (clk : Nat) (h : s.tk.mode ≠ 1) : s.syncEdge clk = s := if_pos h

/-- In SLAVE mode, with a last edge at clock `l`: accepted, part of the tag, or counted as early (R43). -/
theorem syncEdge_of_slave (s : State) (clk l : Nat) (hm : s.tk.mode = 1) (hl : s.tk.lastEdge = some l) :
    s.syncEdge clk =
      if l + 1536 ≤ s.at clk then
        { s with tk := { s.tk with lastEdge := some (s.at clk), edges := s.tk.edges ++ [⟨s.at clk, none⟩] } }
      else if l + 200 ≤ s.at clk ∧ s.at clk ≤ l + 839 then s
      else s.bump Rg.TICK_EARLY_EDGE_CNT := by
  simp [State.syncEdge, hm, hl]

/-! ## Tags -/

/-- A whole tag is the tag of the tick, and the last tag, exactly where its CRC matches (R41). -/
theorem syncTag_tagCells (s : State) (w : Nat) (hm : s.tk.mode = 1) (hw : w < 2 ^ 32) : ∃ es,
    s.syncTag (tagCells w) =
      if tagCrc w = w % 256 then
        ({ s with tk := { s.tk with edges := es, curTag := some w } } : State).wr Rg.TICK_LAST_TAG w
      else { s with tk := { s.tk with edges := es } } := by
  unfold State.syncTag
  rw [if_neg (by simp [hm]), manchester_tagCells w hw]
  by_cases hc : tagCrc w = w % 256
  · simp only [hc, beq_self_eq_true, Bool.true_and, if_true]
    exact ⟨_, rfl⟩
  · simp only [hc, beq_false_of_ne, ne_eq, not_false_eq_true, Bool.true_and, Bool.false_eq_true, if_false]
    exact ⟨_, rfl⟩

/-- Settles O13: each arm of the transition and of the tag, by the equations above. -/
theorem syncInput : Obligations.SyncInput := by
  refine ⟨fun s clk hm => ?_, fun s clk l hm hl => ⟨fun hacc => ?_, fun h1 h2 => ?_, fun hearly htag hp => ?_⟩,
    fun s w hm hw => ?_, by decide +kernel⟩
  · exact congrArg Host.Outcome.next (syncEdge_of_not_slave s clk hm)
  · refine ⟨_, congrArg Host.Outcome.next ((syncEdge_of_slave s clk l hm hl).trans (if_pos hacc)), rfl, rfl, rfl⟩
  · have hlate : ¬ l + 1536 ≤ s.at clk := by omega
    exact congrArg Host.Outcome.next
      ((syncEdge_of_slave s clk l hm hl).trans ((if_neg hlate).trans (if_pos ⟨h1, h2⟩)))
  · refine ⟨_, congrArg Host.Outcome.next ((syncEdge_of_slave s clk l hm hl).trans
      ((if_neg (Nat.not_le.2 hearly)).trans (if_neg htag))), ?_, onlyRegs_bump s _ 1 (by decide)⟩
    exact bump_rd s _ 1 (by decide) (by decide) (by decide) hp
  · obtain ⟨es, he⟩ := syncTag_tagCells s w hm hw
    refine ⟨_, congrArg Host.Outcome.next he, fun hc => ?_, fun hc => ?_⟩
    · rw [if_pos hc]
      exact ⟨(rd_wr_same _ _ _).trans (Nat.mod_eq_of_lt hw), rfl⟩
    · rw [if_neg hc]
      exact ⟨rfl, rfl⟩

end Sys2Proof.Machine
end

section
/-! SUPPORT. The commit state machine (R51, R58 to R60): refusals, commands of the owner, the fields of CMT_STAT. -/
namespace Sys2Proof.Machine

/-! ## Refusals -/

theorem ne_domStat {a : Nat} (h : a < 0xE0000) (d w : Nat) : a ≠ Rg.PWR_DOM_STAT d w := by
  have hd : 0xE0000 ≤ Pg.PWR d := by simp only [Pg.PWR]; split <;> decide
  have hw : Rg.PWR_DOM_STAT d w = Pg.PWR d + 0x108 + 4 * w := rfl
  omega

/-- A register below those of the power domains says nothing about which pages answer (R375). -/
theorem pageOn_setF (s : State) (a : Nat) (fl : Fld) (x page : Nat) (h : a < 0xE0000) :
    (s.setF a fl x).pageOn page = s.pageOn page :=
  onlyRegs_pageOn (onlyRegs_setF (P := fun x => x == a) s a fl x (beq_self_eq_true a))
    (fun d w _ _ => beq_false_of_ne (ne_domStat h d w).symm) page

/-- Everything that a CMT counter and a CMT flag of one event can do. -/
theorem onlyRegs_cmtEvent (s : State) (addr b : Nat) (ha : addr / 0x1000 * 0x1000 = Pg.CMT) (hlt : addr % 0x1000 < 0x800) :
    State.onlyRegs (fun x => x == addr || cntReg Pg.CMT x) s ((s.bump addr).setInt Pg.CMT b) := by
  have count := onlyRegs_bump s addr 1 hlt
  rw [ha] at count
  refine onlyRegs_trans count (onlyRegs_mono (onlyRegs_setInt _ _ _) fun x hx => ?_)
  simp only [Bool.or_eq_false_iff] at hx
  exact cntReg_int _ _ hx.2

/-- What a refused command shows (R59): the state stands, the reason is recorded, counted and flagged, and nothing else changes. -/
theorem cmtRefuse_shows (s : State) (code : Nat) (hc : code < 16) (hp : s.pageOn (Pg.CMT / 0x1000) = true) :
    (s.cmtRefuse code).cmtState = s.cmtState ∧ (s.cmtRefuse code).f Rg.CMT_STAT Fd.CMT_STAT_REFUSE = code ∧
      (s.cmtRefuse code).rd Rg.CMT_REFUSE_CNT = (s.rd Rg.CMT_REFUSE_CNT + 1) % 2 ^ 32 ∧
      bit ((s.cmtRefuse code).rd (Pg.CMT + 0x010)) Ib.CMT_REFUSED = true ∧
      State.onlyRegs (fun x => x == Rg.CMT_STAT || x == Rg.CMT_REFUSE_CNT || cntReg Pg.CMT x) s (s.cmtRefuse code) := by
  have he : s.cmtRefuse code = ((s.setF Rg.CMT_STAT Fd.CMT_STAT_REFUSE code).bump Rg.CMT_REFUSE_CNT).setInt Pg.CMT Ib.CMT_REFUSED := rfl
  have hp1 := (pageOn_setF s Rg.CMT_STAT Fd.CMT_STAT_REFUSE code (Pg.CMT / 0x1000) (by decide)).trans hp
  have hcnt : (s.setF Rg.CMT_STAT Fd.CMT_STAT_REFUSE code).rd Rg.CMT_REFUSE_CNT = s.rd Rg.CMT_REFUSE_CNT :=
    rd_setF_other _ _ _ _ _ (by decide)
  have hst := f_setF_disjoint s Rg.CMT_STAT Fd.CMT_STAT_REFUSE Fd.CMT_STAT_STATE code (by decide) (by decide)
  have hrf := f_setF_same s Rg.CMT_STAT Fd.CMT_STAT_REFUSE code (by decide)
  have hset := onlyRegs_setF (P := fun x => x == Rg.CMT_STAT || x == Rg.CMT_REFUSE_CNT || cntReg Pg.CMT x)
    s Rg.CMT_STAT Fd.CMT_STAT_REFUSE code (by decide)
  rw [he]
  generalize s.setF Rg.CMT_STAT Fd.CMT_STAT_REFUSE code = t at *
  have hev := onlyRegs_cmtEvent t Rg.CMT_REFUSE_CNT Ib.CMT_REFUSED (by decide) (by decide)
  have hp2 := (bump_pageOn t Rg.CMT_REFUSE_CNT 1 (Pg.CMT / 0x1000) (by decide) fun d w _ _ => ne_domStat (by decide) d w).trans hp1
  have hstat : ∀ fl, State.f _ Rg.CMT_STAT fl = t.f Rg.CMT_STAT fl := fun fl =>
    congrArg (bits · fl.lo fl.w) (hev.2 Rg.CMT_STAT (by decide))
  refine ⟨(hstat _).trans hst, (hstat _).trans (hrf.trans (Nat.mod_eq_of_lt hc)), ?_, setInt_bit _ _ _ (by decide) (by decide) hp2,
    onlyRegs_trans hset (onlyRegs_mono hev fun x hx => ?_)⟩
  · rw [(onlyRegs_setInt _ _ _).2 Rg.CMT_REFUSE_CNT (by decide),
      bump_rd t Rg.CMT_REFUSE_CNT _ (by decide) (by decide) (by decide) hp1, hcnt]
  · rw [Bool.or_assoc, Bool.or_eq_false_iff] at hx
    exact hx.2

/-! ## The fields of CMT_STAT -/

theorem cmtState_cmtGo (s : State) (st : Nat) (h : st < 8) : (s.cmtGo st).cmtState = st :=
  (f_setF_same s _ _ _ (by decide)).trans (Nat.mod_eq_of_lt h)

theorem f_cmtGo (s : State) (st : Nat) (fl : Fld) (h : fl.lo + fl.w ≤ 32) (h3 : 3 ≤ fl.lo) :
    (s.cmtGo st).f Rg.CMT_STAT fl = s.f Rg.CMT_STAT fl := f_setF_disjoint s _ _ fl _ h (.inl h3)

theorem onlyRegs_cmtGo {P : Nat → Bool} (s : State) (st : Nat) (h : P Rg.CMT_STAT = true) : State.onlyRegs P s (s.cmtGo st) :=
  onlyRegs_setF s _ _ _ h

theorem owner_cmtOwn (s : State) (o n : Nat) (h : o < 4) : (s.cmtOwn o n).f Rg.CMT_STAT Fd.CMT_STAT_OWNER = o :=
  (f_setF_disjoint _ _ _ _ _ (by decide) (by decide)).trans ((f_setF_same _ _ _ _ (by decide)).trans (Nat.mod_eq_of_lt h))

theorem noOwner_cmtOwn_zero (s : State) (o : Nat) : (s.cmtOwn o 0).fb Rg.CMT_STAT Fd.CMT_STAT_NO_OWNER = false :=
  congrArg (· == 1) (f_setF_same _ Rg.CMT_STAT Fd.CMT_STAT_NO_OWNER 0 (by decide))

theorem cmtState_cmtOwn (s : State) (o n : Nat) : (s.cmtOwn o n).cmtState = s.cmtState :=
  (f_setF_disjoint _ _ _ _ _ (by decide) (by decide)).trans (f_setF_disjoint _ _ _ _ _ (by decide) (by decide))

theorem onlyRegs_cmtOwn {P : Nat → Bool} (s : State) (o n : Nat) (h : P Rg.CMT_STAT = true) : State.onlyRegs P s (s.cmtOwn o n) :=
  onlyRegs_trans (onlyRegs_setF s _ _ _ h) (onlyRegs_setF _ _ _ _ h)

theorem reqNo_lt (r : Requester) : reqNo r < 4 := by cases r <;> decide

/-! ## The order of epochs (R51) -/

theorem epochLater_iff (a b : Nat) (ha : a < 4096) (hb : b < 4096) :
    epochLater a b = true ↔ 1 ≤ ((a : Int) - b) % 4096 ∧ ((a : Int) - b) % 4096 ≤ 2047 := by
  simp only [epochLater, decide_eq_true_eq]
  omega

/-! ## CMT_STAGE_CLOSE -/

/-- A close of the open stage: CHECKING, owned by the writer, DONE cleared, and nothing else touched (R60). -/
theorem stageClose_of_open (s : State) (who v : Nat) (hw : who < 4) (hv : bit v 0 = true) (ho : s.stageOpen = true) :
    (s.stageClose who v).cmtState = cmChecking ∧ (s.stageClose who v).f Rg.CMT_STAT Fd.CMT_STAT_OWNER = who ∧
      (s.stageClose who v).fb Rg.CMT_STAT Fd.CMT_STAT_NO_OWNER = false ∧
      (s.stageClose who v).fb Rg.CMT_CHECK_STAT Fd.CMT_CHECK_STAT_DONE = false ∧
      State.onlyRegs (fun x => x == Rg.CMT_STAT || x == Rg.CMT_CHECK_STAT) s (s.stageClose who v) := by
  have he : s.stageClose who v =
      ((s.cmtOwn who 0).cmtGo cmChecking).setF Rg.CMT_CHECK_STAT Fd.CMT_CHECK_STAT_DONE 0 := by
    simp [State.stageClose, hv, ho]
  have hstat : ∀ fl, (s.stageClose who v).f Rg.CMT_STAT fl = ((s.cmtOwn who 0).cmtGo cmChecking).f Rg.CMT_STAT fl := fun fl => by
    rw [he, f_setF_other _ _ _ _ _ _ (by decide)]
  refine ⟨(hstat _).trans (cmtState_cmtGo _ _ (by decide)), ?_, ?_, ?_, ?_⟩
  · rw [hstat, f_cmtGo _ _ _ (by decide) (by decide), owner_cmtOwn _ _ _ hw]
  · rw [State.fb, hstat, f_cmtGo _ _ _ (by decide) (by decide)]
    exact noOwner_cmtOwn_zero s who
  · rw [he, State.fb, f_setF_same _ _ _ _ (by decide)]
    rfl
  · rw [he]
    exact onlyRegs_trans (onlyRegs_cmtOwn _ _ _ (by decide))
      (onlyRegs_trans (onlyRegs_cmtGo _ _ (by decide)) (onlyRegs_setF _ _ _ _ (by decide)))

theorem stageClose_of_not_open (s : State) (who v : Nat) (hv : bit v 0 = true) (ho : s.stageOpen = false) :
    s.stageClose who v = s.cmtRefuse rfWrongState := by
  simp [State.stageClose, hv, ho]

/-! ## Commands of the owner (R58) -/

section Owner
variable {s : State} {who : Nat} {ok : State → Option Nat} {eff : State → State}
  (hb : s.cmtBusy = false) (ho : s.cmtState ≠ cmOpen) (hn : s.fb Rg.CMT_STAT Fd.CMT_STAT_NO_OWNER = false)
include hb ho hn

theorem ownerCmd_of_not_owner (hw : s.f Rg.CMT_STAT Fd.CMT_STAT_OWNER ≠ who) : s.ownerCmd who ok eff = s.cmtRefuse rfNotOwner := by
  simp [State.ownerCmd, hb, ho, hn, hw]

theorem ownerCmd_of_refused {code : Nat} (hw : s.f Rg.CMT_STAT Fd.CMT_STAT_OWNER = who) (hok : ok s = some code) :
    s.ownerCmd who ok eff = s.cmtRefuse code := by
  simp [State.ownerCmd, hb, ho, hn, hw, hok]

theorem ownerCmd_of_accepted (hw : s.f Rg.CMT_STAT Fd.CMT_STAT_OWNER = who) (hok : ok s = none) : s.ownerCmd who ok eff = eff s := by
  simp [State.ownerCmd, hb, ho, hn, hw, hok]

end Owner

/-! ## CMT_ARM -/

theorem cmtArm_of_go (s : State) (who clk v : Nat) (h : bit v 31 = true) :
    s.cmtArm who clk v = s.ownerCmd who (State.armRefusal (v % 4096)) (State.armTo (v % 4096) clk) := by
  simp [State.cmtArm, h]

theorem armRefusal_of_past (s : State) (target : Nat) (hs : s.cmtState = cmClosed ∨ s.cmtState = cmMissed)
    (he : epochLater target s.refEpoch = false) : s.armRefusal target = some rfPastEpoch := by
  rcases hs with hs | hs <;> simp [State.armRefusal, hs, he]

theorem armRefusal_of_later (s : State) (target : Nat) (hs : s.cmtState = cmClosed ∨ s.cmtState = cmMissed)
    (he : epochLater target s.refEpoch = true) (hv : s.versionBusy = false) (hd : s.d2dDown = false) : s.armRefusal target = none := by
  rcases hs with hs | hs <;> simp [State.armRefusal, hs, he, hv, hd]

/-- An accepted arm: ARMED for the target, and nothing else touched but CMT's own flags of the arm (R60, R61). -/
theorem armTo_shows (s : State) (target clk : Nat) (ht : target < 4096) :
    (s.armTo target clk).cmtState = cmArmed ∧ (s.armTo target clk).f Rg.CMT_STAT Fd.CMT_STAT_TARGET = target ∧
      State.onlyRegs (fun x => x == Rg.CMT_STAT) { s with cm := (s.armTo target clk).cm } (s.armTo target clk) :=
  ⟨cmtState_cmtGo _ _ (by decide),
    (f_cmtGo _ _ _ (by decide) (by decide)).trans ((f_setF_same _ _ _ _ (by decide)).trans (Nat.mod_eq_of_lt ht)),
    onlyRegs_trans (onlyRegs_setF _ _ _ _ (by decide)) (onlyRegs_cmtGo _ _ (by decide))⟩

/-! ## CMT_CMD -/

theorem cmtCmd_reopen (s : State) (who clk : Nat) :
    s.cmtCmd who clk 1 = s.ownerCmd who (wrongUnless State.reopenable) State.cmtOpen := rfl

theorem cmtCmd_discard (s : State) (who clk : Nat) :
    s.cmtCmd who clk 2 = s.ownerCmd who (wrongUnless State.reopenable) fun t => t.setF Rg.CMT_STAT Fd.CMT_STAT_BUSY 1 := rfl

theorem cmtCmd_abort (s : State) (who clk : Nat) :
    s.cmtCmd who clk 3 = s.ownerCmd who (wrongUnless (State.abortable clk)) fun t =>
      ({ t with cm := { t.cm with apply := false, armLate := false } } : State).cmtGo cmClosed := rfl

theorem wrongUnless_of {c : State → Bool} {s : State} (h : c s = true) : wrongUnless c s = none := if_pos h

theorem ne_open_of_reopenable {s : State} (h : s.reopenable = true) : s.cmtState ≠ cmOpen := by
  intro ho
  simp [State.reopenable, ho] at h

theorem cmtOpen_shows (s : State) :
    s.cmtOpen.cmtState = cmOpen ∧ s.cmtOpen.shadows = s.shadows ∧ State.onlyRegs (fun x => x == Rg.CMT_STAT) s s.cmtOpen :=
  ⟨(cmtState_cmtOwn _ _ _).trans (cmtState_cmtGo _ _ (by decide)), rfl,
    onlyRegs_trans (onlyRegs_cmtGo _ _ (by decide)) (onlyRegs_cmtOwn _ _ _ (by decide))⟩

theorem busy_set_shows (s : State) : (s.setF Rg.CMT_STAT Fd.CMT_STAT_BUSY 1).cmtBusy = true ∧
    (s.setF Rg.CMT_STAT Fd.CMT_STAT_BUSY 1).cmtState = s.cmtState ∧
    State.onlyRegs (fun x => x == Rg.CMT_STAT) s (s.setF Rg.CMT_STAT Fd.CMT_STAT_BUSY 1) :=
  ⟨congrArg (· == 1) (f_setF_same _ Rg.CMT_STAT Fd.CMT_STAT_BUSY 1 (by decide)),
    f_setF_disjoint _ _ _ _ _ (by decide) (by decide), onlyRegs_setF _ _ _ _ (by decide)⟩

theorem abortable_of_early {s : State} {clk : Nat} (h : s.cmtState = cmArmed) (hc : clk < 1024) : s.abortable clk = true := by
  simp [State.abortable, h, Nat.not_le.2 hc]

/-! ## The statement -/

/-- Settles O16: each command by its own equations, its refusals by `cmtRefuse_shows`. -/
theorem commitCommands : Obligations.CommitCommands := by
  refine ⟨fun s a v hm hv => ?close, fun s a v hm hb hs hn hv => ?arm, epochLater_iff, fun _ => rfl, fun s a hm hb hn ho => ?cmd⟩
  case close =>
    refine ⟨_, congrArg Host.Outcome.next (onWrite_of s a _ _ hm), fun hopen => ?_, fun hopen => ?_⟩
    · exact stageClose_of_open s _ _ (reqNo_lt _) hv hopen
    · rw [stageClose_of_not_open s _ _ hv hopen]
      exact cmtRefuse_shows s _ (by decide) (mayWrite_pageOn hm)
  case arm =>
    have hne : s.cmtState ≠ cmOpen := by rcases hs with hs | hs <;> simp [hs]
    refine ⟨_, congrArg Host.Outcome.next ((onWrite_of s a _ _ hm).trans (cmtArm_of_go s _ _ _ hv)),
      fun hw => ?_, fun hw he hvb hd => ?_, fun hw he => ?_⟩
    · rw [ownerCmd_of_not_owner hb hne hn hw]
      exact cmtRefuse_shows s _ (by decide) (mayWrite_pageOn hm)
    · rw [ownerCmd_of_accepted hb hne hn hw (armRefusal_of_later s _ hs he hvb hd)]
      exact armTo_shows s _ _ (Nat.mod_lt _ (by decide))
    · rw [ownerCmd_of_refused hb hne hn hw (armRefusal_of_past s _ hs he)]
      exact cmtRefuse_shows s _ (by decide) (mayWrite_pageOn hm)
  case cmd =>
    refine ⟨fun hr => ?_, fun hs hc => ?_⟩
    · have hne := ne_open_of_reopenable hr
      exact ⟨⟨_, congrArg Host.Outcome.next ((onWrite_of s a _ _ hm).trans ((cmtCmd_reopen s _ _).trans
          (ownerCmd_of_accepted hb hne hn ho (wrongUnless_of hr)))), cmtOpen_shows s⟩,
        _, congrArg Host.Outcome.next ((onWrite_of s a _ _ hm).trans ((cmtCmd_discard s _ _).trans
          (ownerCmd_of_accepted hb hne hn ho (wrongUnless_of hr)))), busy_set_shows s⟩
    · have hne : s.cmtState ≠ cmOpen := by simp [hs]
      exact ⟨_, congrArg Host.Outcome.next ((onWrite_of s a _ _ hm).trans ((cmtCmd_abort s _ _).trans
          (ownerCmd_of_accepted hb hne hn ho (wrongUnless_of (abortable_of_early hs hc))))),
        cmtState_cmtGo _ _ (by decide), rfl, onlyRegs_cmtGo _ _ (by decide)⟩

end Sys2Proof.Machine
end

section
/-! SUPPORT. The frame of the time base: what nothing but the advance of time itself changes at a tick boundary. -/
namespace Sys2Proof.Machine

/-- What a boundary advances (R38, R46): the time base of the device, and TICK_STAT.TIS. -/
def State.timeBase (s : State) : TickSt × Nat := (s.tk, s.f Rg.TICK_STAT Fd.TICK_STAT_TIS)

/-! ## Registers -/

theorem timeBase_wr (s : State) (a v : Nat) (h : a ≠ Rg.TICK_STAT) : (s.wr a v).timeBase = s.timeBase :=
  congrArg (Prod.mk s.tk) (f_wr_other s a v _ _ h.symm)

theorem timeBase_setF (s : State) (a : Nat) (fl : Fld) (x : Nat) (h : a ≠ Rg.TICK_STAT) : (s.setF a fl x).timeBase = s.timeBase :=
  timeBase_wr s a _ h

theorem timeBase_setF_tickStat (s : State) (fl : Fld) (x : Nat) (h : fl.lo + fl.w ≤ 8 ∨ 14 ≤ fl.lo) :
    (s.setF Rg.TICK_STAT fl x).timeBase = s.timeBase :=
  congrArg (Prod.mk s.tk) (f_setF_disjoint s _ fl Fd.TICK_STAT_TIS x (by decide) h)

theorem timeBase_wr64 (s : State) (a v : Nat) (h : a ≠ Rg.TICK_STAT) (h4 : a + 4 ≠ Rg.TICK_STAT) :
    (s.wr64 a v).timeBase = s.timeBase := (timeBase_wr _ _ _ h4).trans (timeBase_wr _ _ _ h)

theorem timeBase_peak (s : State) (a v : Nat) (h : a ≠ Rg.TICK_STAT) : (s.peak a v).timeBase = s.timeBase := by
  unfold State.peak; split
  · exact timeBase_wr _ _ _ h
  · rfl

theorem timeBase_foldl {β : Type} (f : State → β → State) (hf : ∀ t x, (f t x).timeBase = t.timeBase) (l : List β) (s : State) :
    (l.foldl f s).timeBase = s.timeBase := by
  induction l generalizing s with
  | nil => rfl
  | cons x l ih => exact (ih _).trans (hf s x)

theorem timeBase_ite {s t u : State} (c : Prop) [Decidable c] (h1 : t.timeBase = s.timeBase) (h2 : u.timeBase = s.timeBase) :
    (if c then t else u).timeBase = s.timeBase := by split <;> assumption

/-! ## The other fields of the state -/

theorem timeBase_with_d2 (s : State) (x : D2dSt) : State.timeBase { s with d2 := x } = s.timeBase := rfl
theorem timeBase_with_fab (s : State) (x : FabSt) : State.timeBase { s with fab := x } = s.timeBase := rfl
theorem timeBase_with_eg (s : State) (x : EgSt) : State.timeBase { s with eg := x } = s.timeBase := rfl
theorem timeBase_with_cm (s : State) (x : CmtSt) : State.timeBase { s with cm := x } = s.timeBase := rfl
theorem timeBase_with_ptp (s : State) (x : PtpSt) : State.timeBase { s with ptp := x } = s.timeBase := rfl
theorem timeBase_with_te (s : State) (x : TelSt) : State.timeBase { s with te := x } = s.timeBase := rfl
theorem timeBase_with_ports (s : State) (x : Sparse LinePort) : State.timeBase { s with ports := x } = s.timeBase := rfl
theorem timeBase_with_voqs (s : State) (x : Sparse VoqSt) : State.timeBase { s with voqs := x } = s.timeBase := rfl
theorem timeBase_with_shadows (s : State) (x : Sparse Nat) : State.timeBase { s with shadows := x } = s.timeBase := rfl
theorem timeBase_with_refill (s : State) (x : List Nat) : State.timeBase { s with refill := x } = s.timeBase := rfl
theorem timeBase_with_pw (s : State) (x : PwrSt) : State.timeBase { s with pw := x } = s.timeBase := rfl
theorem timeBase_with_tbls (s : State) (x : Sparse Nat) : State.timeBase { s with tbls := x } = s.timeBase := rfl
theorem timeBase_with_apThr (s : State) (x : Sparse ApThread) : State.timeBase { s with apThr := x } = s.timeBase := rfl
theorem timeBase_with_flexe (s : State) (x : Sparse FlexeGrp) : State.timeBase { s with flexe := x } = s.timeBase := rfl
theorem timeBase_with_hbm (s : State) (x : Sparse Nat) : State.timeBase { s with hbm := x } = s.timeBase := rfl
theorem timeBase_with_marks (s : State) (x : Sparse WordErr) : State.timeBase { s with marks := x } = s.timeBase := rfl
theorem timeBase_with_bf (s : State) (x : BufSt) : State.timeBase { s with bf := x } = s.timeBase := rfl
theorem timeBase_with_prevSt (s : State) (x : Sparse Nat) : State.timeBase { s with prevSt := x } = s.timeBase := rfl
theorem timeBase_with_free (s : State) (x : Nat) : State.timeBase { s with free := x } = s.timeBase := rfl
theorem timeBase_with_apSup (s : State) (x : Sparse ApSup) : State.timeBase { s with apSup := x } = s.timeBase := rfl
theorem timeBase_with_out (s : State) (x : List Emit) : State.timeBase { s with out := x } = s.timeBase := rfl

/-! ## Events -/

theorem timeBase_of_onlyRegs {P : Nat → Bool} {s t : State} (h : State.onlyRegs P s t) (hP : P Rg.TICK_STAT = false) :
    t.timeBase = s.timeBase := by
  have htk : t.tk = s.tk := by rw [h.1]
  rw [State.timeBase, State.timeBase, htk, State.f, State.f, h.2 _ hP]

/-- TICK_STAT lies among none of the registers that a page keeps for events. -/
theorem cntReg_tickStat (pg : Nat) (h : pg % 0x1000 = 0) : cntReg pg Rg.TICK_STAT = false := by
  have hi : irqReg Rg.TICK_STAT = false := by decide
  have ha : Rg.TICK_STAT = 0x2108 := rfl
  simp only [cntReg, intReg, hi, Bool.or_false, Bool.or_eq_false_iff, decide_eq_false_iff_not, beq_eq_false_iff_ne, ha]
  omega

theorem timeBase_raiseSrc (s : State) (n : Nat) : (s.raiseSrc n).timeBase = s.timeBase :=
  timeBase_of_onlyRegs (onlyRegs_raiseSrc s n) (by decide)

theorem timeBase_withEdges (s : State) (ns : List Nat) (f : State → State) (h : (f s).timeBase = s.timeBase) :
    (s.withEdges ns f).timeBase = s.timeBase :=
  (timeBase_foldl _ (fun t n => timeBase_ite _ (timeBase_raiseSrc t n) rfl) ns _).trans h

theorem timeBase_setInts (s : State) (pg m : Nat) (h : pg % 0x1000 = 0) : (s.setInts pg m).timeBase = s.timeBase :=
  timeBase_of_onlyRegs (onlyRegs_setInts s pg m) (cntReg_int _ _ (cntReg_tickStat pg h))

theorem timeBase_setInt (s : State) (pg b : Nat) (h : pg % 0x1000 = 0) : (s.setInt pg b).timeBase = s.timeBase :=
  timeBase_setInts s pg _ h

theorem timeBase_setIntIf (s : State) (c : Bool) (pg b : Nat) (h : pg % 0x1000 = 0) : (s.setIntIf c pg b).timeBase = s.timeBase :=
  timeBase_ite _ (timeBase_setInt s pg b h) rfl

theorem timeBase_bump (s : State) (a n : Nat) (h : a % 0x1000 < 0x800) (ha : a ≠ Rg.TICK_STAT) : (s.bump a n).timeBase = s.timeBase :=
  timeBase_of_onlyRegs (onlyRegs_bump s a n h)
    (by rw [beq_false_of_ne ha.symm, cntReg_tickStat _ (Nat.mul_mod_left _ _)]; rfl)

/-- An event counted and flagged. -/
theorem timeBase_bump_setInt (s : State) (a n pg b : Nat) (h : a % 0x1000 < 0x800) (ha : a ≠ Rg.TICK_STAT) (hg : pg % 0x1000 = 0) :
    ((s.bump a n).setInt pg b).timeBase = s.timeBase := (timeBase_setInt _ _ _ hg).trans (timeBase_bump _ _ _ h ha)

theorem timeBase_bump64 (s : State) (a n : Nat) (h : (a + 4) % 0x1000 < 0x800) (ha : a ≠ Rg.TICK_STAT) (h4 : a + 4 ≠ Rg.TICK_STAT) :
    (s.bump64 a n).timeBase = s.timeBase := by
  unfold State.bump64
  have hw := timeBase_wr64 s a (s.rd64 a + n) ha h4
  have := ovfPlace_lt (a + 4) h
  exact timeBase_ite _ rfl (timeBase_ite _ hw ((timeBase_of_onlyRegs (onlyRegs_setOvf _ _ _ _ (by omega) (by omega))
    (cntReg_tickStat _ (Nat.mul_mod_left _ _))).trans hw))

theorem timeBase_overrun (s : State) (n : Nat) (h : n < 16) : (s.overrun n).timeBase = s.timeBase := by
  have ha : Rg.TICK_OVR_CNT n = 0x2180 + 4 * n := rfl
  have hs : Rg.TICK_STAT = 0x2108 := rfl
  exact timeBase_bump_setInt _ _ _ _ _ (by omega) (by omega) (by decide)

/-! ## The event log and the paths to the F-die -/

theorem timeBase_putRec (s : State) (r : LogRec) : (s.putRec r).timeBase = s.timeBase :=
  (timeBase_bump64 _ _ _ (by decide) (by decide) (by decide)).trans
    ((timeBase_wr _ _ _ (by decide)).trans ((timeBase_wr _ _ _ (by decide)).trans rfl))

theorem timeBase_logPut (s : State) (r : LogRec) : (s.logPut r).timeBase = s.timeBase :=
  timeBase_ite _ (timeBase_putRec s r) (timeBase_bump_setInt _ _ _ _ _ (by decide) (by decide) (by decide))

theorem timeBase_log (s : State) (pg code data : Nat) : (s.log pg code data).timeBase = s.timeBase :=
  timeBase_ite _ (timeBase_ite _ rfl rfl) (timeBase_logPut _ _)

theorem timeBase_pathBack (s : State) : s.pathBack.timeBase = s.timeBase :=
  (timeBase_foldl _ (fun t n => timeBase_ite _ (timeBase_raiseSrc t n) rfl) _ _).trans
    ((timeBase_foldl _ timeBase_logPut _ _).trans
      (timeBase_ite _ rfl (timeBase_bump_setInt _ _ _ _ _ (by decide) (by decide) (by decide))))

theorem timeBase_withPaths (s : State) (f : State → State) (h : (f s).timeBase = s.timeBase) : (s.withPaths f).timeBase = s.timeBase :=
  timeBase_ite _ h (timeBase_ite _ ((timeBase_pathBack _).trans h) h)

end Sys2Proof.Machine
end

section
/-! SUPPORT. The die-to-die link, the fabric, shapers, line ports and service controllers at a boundary leave the time base. -/
namespace Sys2Proof.Machine

/-- Every page but DEV, CMT and TICK lies above TICK_STAT. -/
theorem ne_tickStat {a : Nat} (h : 0x10000 ≤ a) : a ≠ Rg.TICK_STAT := by
  have hs : Rg.TICK_STAT = 0x2108 := rfl
  omega

/-! ## The die-to-die link -/

theorem timeBase_d2dRefresh (s : State) : s.d2dRefresh.timeBase = s.timeBase := by
  refine timeBase_foldl _ (fun t d => ?_) _ _
  have h : Rg.D2D_STAT d ≠ Rg.TICK_STAT := ne_tickStat (by simp only [Rg.D2D_STAT, Pg.D2D]; split <;> decide)
  exact (timeBase_setF _ _ _ _ h).trans ((timeBase_setF _ _ _ _ h).trans (timeBase_setF _ _ _ _ h))

theorem timeBase_setStore (s : State) (m : Sparse (List StoredReq)) : (s.setStore m).timeBase = s.timeBase :=
  (timeBase_wr _ _ _ (by decide)).trans (timeBase_with_fab s _)

theorem timeBase_withdrawSelf (s : State) (on : Bool) : (s.withdrawSelf on).timeBase = s.timeBase := by
  have h := timeBase_setF s Rg.FCRD_STAT Fd.FCRD_STAT_WITHDRAWN (b2n on) (by decide)
  exact timeBase_ite _ rfl (timeBase_ite _ ((timeBase_setStore _ _).trans ((timeBase_with_fab _ _).trans h))
    ((timeBase_with_fab _ _).trans h))

theorem timeBase_setPool (s : State) (m : Sparse EPkt) : (s.setPool m).timeBase = s.timeBase :=
  (timeBase_peak _ _ _ (by decide)).trans ((timeBase_wr _ _ _ (by decide)).trans (timeBase_with_eg s _))

theorem timeBase_egressFlush (s : State) : s.egressFlush.timeBase = s.timeBase := by
  have h := (timeBase_setPool _ []).trans
    (timeBase_with_eg s { s.eg with fresh := [], queues := [], deficit := [], txing := [] })
  exact timeBase_ite _ h ((timeBase_bump_setInt _ _ _ _ _ (by decide) (by decide) (by decide)).trans h)

theorem timeBase_freezeEndT (s : State) : s.freezeEndT.timeBase = s.timeBase := timeBase_with_te s _

theorem timeBase_d2dDownActions (s : State) : s.d2dDownActions.timeBase = s.timeBase :=
  (timeBase_freezeEndT _).trans ((timeBase_withdrawSelf _ true).trans ((timeBase_egressFlush _).trans ((timeBase_log _ _ _ _).trans
    ((timeBase_setInts _ _ _ (by decide)).trans (timeBase_setInts _ _ _ (by decide))))))

/-- The state of the link entered, with the paths that it opens or closes. -/
theorem timeBase_d2dEnter (s : State) (x : Nat) : (s.withPaths fun u => (u.setF (Rg.D2D_STAT 0) Fd.D2D_STAT_STATE x).setF
    (Rg.D2D_STAT 1) Fd.D2D_STAT_STATE x).timeBase = s.timeBase :=
  timeBase_withPaths _ _ ((timeBase_setF _ _ _ _ (by decide)).trans (timeBase_setF _ _ _ _ (by decide)))

theorem timeBase_d2dEval (s : State) (mayReturn : Bool) : (s.d2dEval mayReturn).timeBase = s.timeBase := by
  have h := (timeBase_setInt _ (Pg.D2D 1) Ib.D2D_STATE_CHANGE (by decide)).trans
    ((timeBase_setInt _ (Pg.D2D 0) Ib.D2D_STATE_CHANGE (by decide)).trans
      ((timeBase_d2dEnter s.d2dRefresh s.d2dRefresh.d2dWant).trans (timeBase_d2dRefresh s)))
  exact timeBase_ite _ (timeBase_d2dRefresh s) (timeBase_ite _ ((timeBase_d2dDownActions _).trans ((timeBase_with_d2 _ _).trans h))
    (timeBase_ite _ ((timeBase_withdrawSelf _ _).trans h) h))

theorem timeBase_d2dTick (s : State) : s.d2dTick.timeBase = s.timeBase := by
  have h := (timeBase_d2dEval _ true).trans (timeBase_with_d2 s { s.d2 with
    minF := s.f (Rg.D2D_CTRL 0) Fd.D2D_CTRL_MIN_BUNDLES, minT := s.f (Rg.D2D_CTRL 1) Fd.D2D_CTRL_MIN_BUNDLES })
  exact timeBase_ite _ ((timeBase_with_d2 _ _).trans h) h

/-! ## The fabric -/

theorem timeBase_laneChg (s : State) (l : Nat) : (s.laneChg l).timeBase = s.timeBase :=
  timeBase_wr _ _ _ (ne_tickStat (by simp only [Rg.FFRM_CHG, Pg.FFRM]; omega))

theorem ffrmLaneStat_ne (l : Nat) : Rg.FFRM_LANE_STAT l ≠ Rg.TICK_STAT := ne_tickStat (by simp only [Rg.FFRM_LANE_STAT, Pg.FFRM]; omega)

theorem timeBase_setLane (s : State) (l : Nat) (x : FabLane) : (s.setLane l x).timeBase = s.timeBase := timeBase_with_fab s _

theorem timeBase_setDefects (s : State) (l d : Nat) : (s.setDefects l d).timeBase = s.timeBase := by
  unfold State.setDefects
  simp only []
  have h := timeBase_wr s (Rg.FFRM_LANE_STAT l) (setBits (s.rd (Rg.FFRM_LANE_STAT l)) 21 7 d) (ffrmLaneStat_ne l)
  generalize s.wr (Rg.FFRM_LANE_STAT l) (setBits (s.rd (Rg.FFRM_LANE_STAT l)) 21 7 d) = s1 at h ⊢
  have hs := timeBase_ite (4 ≤ d) ((timeBase_setLane s1 l { s1.lane l with sawSes := true }).trans h) h
  exact timeBase_ite _ hs ((timeBase_setInt _ _ _ (by decide)).trans ((timeBase_laneChg _ l).trans hs))

theorem timeBase_defect (s : State) (l i : Nat) (on : Bool) : (s.defect l i on).timeBase = s.timeBase :=
  timeBase_ite _ rfl (timeBase_setDefects _ _ _)

theorem timeBase_degJudge (s : State) (l : Nat) : (s.degJudge l).timeBase = s.timeBase :=
  timeBase_ite _ ((timeBase_defect _ _ _ _).trans (timeBase_setLane _ _ _))
    (timeBase_ite _ ((timeBase_defect _ _ _ _).trans (timeBase_setLane _ _ _)) (timeBase_setLane _ _ _))

theorem timeBase_unreachRefresh (s : State) : s.unreachRefresh.timeBase = s.timeBase :=
  (timeBase_setIntIf _ _ _ _ (by decide)).trans
    (timeBase_foldl _ (fun _ _ => timeBase_wr _ _ _ (ne_tickStat (by simp only [Rg.FCELL_UNREACH, Pg.FCELL]; omega))) _ _)

theorem timeBase_setService (s : State) (l : Nat) (on : Bool) : (s.setService l on).timeBase = s.timeBase :=
  timeBase_ite _ rfl ((timeBase_unreachRefresh _).trans ((timeBase_setInt _ _ _ (by decide)).trans
    ((timeBase_laneChg _ l).trans (timeBase_setF _ _ _ _ (ffrmLaneStat_ne l)))))

theorem timeBase_emit (s : State) (e : Emit) : (s.emit e).timeBase = s.timeBase := timeBase_with_out s _

theorem timeBase_laneTick (s : State) (l : Nat) : (s.laneTick l).timeBase = s.timeBase := by
  unfold State.laneTick
  simp only []
  have h1 := timeBase_ite (s.f Rg.TICK_STAT Fd.TICK_STAT_TIS = 0) (timeBase_degJudge s l) rfl
  generalize (if s.f Rg.TICK_STAT Fd.TICK_STAT_TIS = 0 then s.degJudge l else s) = s1 at h1 ⊢
  have h2 := timeBase_setLane s1 l { s1.lane l with
    clean := if s1.laneClean l then min 255 ((s1.lane l).clean + 1) else 0, sawOut := (s1.lane l).sawOut || !s1.inService l }
  have h3 := (timeBase_ite (s1.laneClean l = true) h2 ((timeBase_setService _ l false).trans h2)).trans h1
  exact timeBase_ite _ ((timeBase_emit _ _).trans h3) h3

theorem timeBase_setVoq (s : State) (v : Nat) (x : VoqSt) : (s.setVoq v x).timeBase = s.timeBase :=
  (timeBase_wr _ _ _ (by decide)).trans ((timeBase_wr _ _ _ (by decide)).trans
    ((timeBase_wr _ _ _ (by decide)).trans (timeBase_with_voqs s _)))

theorem timeBase_reqTimers (s : State) : s.reqTimers.timeBase = s.timeBase :=
  timeBase_ite _ rfl (timeBase_foldl _ (fun _ _ => timeBase_ite _ rfl (timeBase_setVoq _ _ _)) _ _)

theorem timeBase_fabTick (s : State) : s.fabTick.timeBase = s.timeBase :=
  (timeBase_reqTimers _).trans ((timeBase_foldl _ timeBase_laneTick _ _).trans (timeBase_setF _ _ _ _ (by decide)))

/-! ## Buffer, shapers, learning, scrubbing -/

theorem timeBase_nopageTick (s : State) : s.nopageTick.timeBase = s.timeBase :=
  timeBase_ite _ (timeBase_bump_setInt _ _ _ _ _ (by decide) (by decide) (by decide)) rfl

theorem timeBase_setWheel (s : State) (w : Sparse Nat) : (s.setWheel w).timeBase = s.timeBase :=
  (timeBase_wr _ _ _ (by decide)).trans (timeBase_with_eg s _)

theorem timeBase_setLevel (s : State) (k : Nat) (l : Int) : (s.setLevel k l).timeBase = s.timeBase :=
  timeBase_ite _ ((timeBase_setWheel _ _).trans (timeBase_with_eg s _)) ((timeBase_setWheel _ _).trans (timeBase_with_eg s _))

theorem timeBase_setTbl (s : State) (pg t i v : Nat) : (s.setTbl pg t i v).timeBase = s.timeBase := timeBase_with_tbls s _

theorem timeBase_shpApply (s : State) : s.shpApply.timeBase = s.timeBase :=
  (timeBase_foldl _ (fun _ _ => (timeBase_setLevel _ _ _).trans (timeBase_setTbl _ _ _ _ _)) _ _).trans (timeBase_with_eg s _)

theorem timeBase_learnBoundary (s : State) : s.learnBoundary.timeBase = s.timeBase := by
  have h := timeBase_setF s Rg.LEARN_STAT Fd.LEARN_STAT_CARRY (b2n s.learnCarry) (by decide)
  exact timeBase_ite _ (timeBase_setF _ _ _ _ (by decide)) (timeBase_ite _ ((timeBase_overrun _ 1 (by decide)).trans h) h)

theorem timeBase_scrubTick (s : State) (scrub : Nat) : (s.scrubTick scrub).timeBase = s.timeBase := by
  unfold State.scrubTick
  extract_lets s1
  have h : s1.timeBase = s.timeBase := timeBase_foldl _ (fun _ _ => (timeBase_setIntIf _ _ _ _ (by decide)).trans
    (timeBase_setF _ _ _ _ (ne_tickStat (by simp only [Rg.SCRUB_CLASS_STAT, Pg.SCRUB]; omega)))) _ _
  exact timeBase_ite _ h ((timeBase_overrun _ 5 (by decide)).trans h)

/-! ## Line ports -/

theorem lpStat_ne (p : Nat) : lpStat p ≠ Rg.TICK_STAT := ne_tickStat (by simp only [lpStat, Rg.LPORT_STAT, Pg.LPORT]; omega)

theorem lpPfcStat_ne (p : Nat) : lpPfcStat p ≠ Rg.TICK_STAT :=
  ne_tickStat (by simp only [lpPfcStat, Rg.LPORT_PFC_STAT, Pg.LPORT]; omega)

theorem laneStat_ne (l : Nat) : laneStat l ≠ Rg.TICK_STAT := ne_tickStat (by simp only [laneStat, Rg.LSER_LANE_STAT, Pg.LSER]; omega)

theorem timeBase_setLport (s : State) (p : Nat) (x : LinePort) : (s.setLport p x).timeBase = s.timeBase := timeBase_with_ports s _

theorem timeBase_lpRefresh (s : State) (p : Nat) : (s.lpRefresh p).timeBase = s.timeBase :=
  (timeBase_setLport _ p _).trans ((timeBase_setF _ _ _ _ (lpStat_ne p)).trans (timeBase_setF _ _ _ _ (lpStat_ne p)))

theorem timeBase_lkEnter (s : State) (p st : Nat) : (s.lkEnter p st).timeBase = s.timeBase :=
  (timeBase_lpRefresh _ p).trans (timeBase_setF _ _ _ _ (lpStat_ne p))

theorem timeBase_lkLost (s : State) (p : Nat) : (s.lkLost p).timeBase = s.timeBase :=
  (timeBase_setIntIf _ _ _ _ (by simp only [Pg.LPORT]; omega)).trans
    ((timeBase_setLport _ p _).trans ((timeBase_wr _ _ _ (lpPfcStat_ne p)).trans (timeBase_setF _ _ _ _ (lpStat_ne p))))

theorem timeBase_setLocks (s : State) (p : Nat) (am fec : Bool) : (s.setLocks p am fec).timeBase = s.timeBase :=
  (timeBase_setF _ _ _ _ (lpStat_ne p)).trans (timeBase_setF _ _ _ _ (lpStat_ne p))

theorem timeBase_lkToDown (s : State) (p : Nat) : (s.lkToDown p).timeBase = s.timeBase :=
  (timeBase_lkEnter _ _ _).trans ((timeBase_setLocks _ _ _ _).trans (timeBase_lkLost s p))

theorem timeBase_startTrain (s : State) (p : Nat) : (s.startTrain p).timeBase = s.timeBase :=
  timeBase_foldl _ (fun _ l => timeBase_setF _ _ _ _ (laneStat_ne l)) _ _

theorem timeBase_clientEval (s : State) (p : Nat) : (s.clientEval p).timeBase = s.timeBase := by
  have h := timeBase_setLocks s p (s.clientLocked p) (s.clientLocked p)
  exact timeBase_ite _ rfl (timeBase_ite _ (timeBase_ite _ rfl (timeBase_lkToDown s p))
    (timeBase_ite _ (timeBase_ite _ ((timeBase_lkEnter _ _ _).trans h) h)
      (timeBase_ite _ ((timeBase_lkEnter _ _ _).trans h)
        (timeBase_ite _ ((timeBase_lkEnter _ _ _).trans ((timeBase_lkLost _ p).trans h)) h))))

theorem timeBase_lpTick (s : State) (p : Nat) : (s.lpTick p).timeBase = s.timeBase :=
  timeBase_ite _ rfl (timeBase_ite _ (timeBase_clientEval s p)
    (timeBase_ite _ ((timeBase_lkEnter _ _ _).trans (timeBase_startTrain s p)) rfl))

theorem timeBase_portsTick (s : State) : s.portsTick.timeBase = s.timeBase :=
  timeBase_foldl _ (fun t p => timeBase_ite _ rfl (timeBase_lpTick t p)) _ _

/-! ## Service controllers -/

theorem scStat_ne (k : Nat) : Rg.SC_STAT k ≠ Rg.TICK_STAT := ne_tickStat (by simp only [Rg.SC_STAT, Pg.SC]; split <;> decide)

theorem timeBase_setSc (s : State) (k : Nat) (x : ScCtl) : (s.setSc k x).timeBase = s.timeBase := timeBase_ite _ rfl rfl

theorem timeBase_scTickOne (s : State) (k : Nat) (hk : k < 10) : (s.scTickOne k).timeBase = s.timeBase := by
  have h := (timeBase_setF _ (Rg.SC_STAT k) Fd.SC_STAT_PATH_MGMT (b2n (s.sc k).gotMgmt) (scStat_ne k)).trans
    ((timeBase_setF _ (Rg.SC_STAT k) Fd.SC_STAT_PATH_LINK (b2n (s.sc k).gotLink) (scStat_ne k)).trans
      (timeBase_ite (!(s.sc k).kicked && (s.scRole k == scStandby || s.scRole k == scActive)) (timeBase_overrun s (6 + k) (by omega)) rfl))
  exact timeBase_ite _ ((timeBase_setSc _ _ _).trans h) ((timeBase_setSc _ _ _).trans h)

theorem timeBase_takeoverMark (s : State) (k cause : Nat) : (s.takeoverMark k cause).timeBase = s.timeBase := by
  have hg : Pg.SC k % 0x1000 = 0 := by simp only [Pg.SC]; split <;> decide
  have hc : Rg.SC_TAKEOVER_CNT k % 0x1000 < 0x800 := by simp only [Rg.SC_TAKEOVER_CNT]; omega
  have hn : Rg.SC_TAKEOVER_CNT k ≠ Rg.TICK_STAT := ne_tickStat (by simp only [Rg.SC_TAKEOVER_CNT, Pg.SC]; split <;> decide)
  exact (timeBase_setInt _ _ _ hg).trans ((timeBase_setF _ _ _ _ (scStat_ne k)).trans (timeBase_bump _ _ _ hc hn))

theorem timeBase_takeoverMarks (s : State) (new cause : Nat) : (s.takeoverMarks new cause).timeBase = s.timeBase := by
  have h := timeBase_takeoverMark s 1 cause
  exact (timeBase_log _ _ _ _).trans (timeBase_ite _ ((timeBase_takeoverMark _ 0 cause).trans h) h)

theorem timeBase_passOwner (s : State) (old new : Nat) : (s.passOwner old new).timeBase = s.timeBase :=
  timeBase_ite _ (timeBase_setF _ _ _ _ (by decide)) rfl

theorem timeBase_scEnter (s : State) (k role : Nat) : (s.scEnter k role).timeBase = s.timeBase :=
  timeBase_ite _ rfl ((timeBase_setSc _ _ _).trans (timeBase_setF _ _ _ _ (scStat_ne k)))

theorem timeBase_scShow (s : State) : s.scShow.timeBase = s.timeBase :=
  timeBase_ite _ rfl ((timeBase_setF _ _ _ _ (by decide)).trans (timeBase_setF _ _ _ _ (by decide)))

theorem timeBase_scOwners (s : State) : s.scOwners.timeBase = s.timeBase :=
  timeBase_foldl _ (fun _ _ => timeBase_ite _ rfl (timeBase_ite _ (timeBase_passOwner _ _ _)
    (timeBase_ite _ rfl (timeBase_setF _ _ _ _ (by decide))))) _ _

theorem timeBase_setSafe (s : State) (on : Bool) : (s.setSafe on).timeBase = s.timeBase := by
  refine timeBase_withEdges _ _ _ (timeBase_foldl _ (fun u p => timeBase_ite _ rfl ?_) _ _)
  have hn : Rg.PCIE_STAT p ≠ Rg.TICK_STAT := ne_tickStat (by simp only [Rg.PCIE_STAT, Pg.PCIE]; omega)
  exact (timeBase_setInt _ _ _ (by simp only [Pg.PCIE]; omega)).trans (timeBase_setF _ _ _ _ hn)

theorem timeBase_scUpdate (s : State) : s.scUpdate.timeBase = s.timeBase := by
  have h1 : ((s.setF (Rg.SC_STAT 0) Fd.SC_STAT_MODE s.scMode).setF (Rg.SC_STAT 1) Fd.SC_STAT_MODE s.scMode).scOwners.scShow.timeBase
      = s.timeBase := (timeBase_scShow _).trans ((timeBase_scOwners _).trans
    ((timeBase_setF _ _ _ _ (by decide)).trans (timeBase_setF _ _ _ _ (by decide))))
  have h2 := (timeBase_setSafe _ true).trans ((timeBase_log _ (Pg.SC 1) 0x0012 0).trans
    ((timeBase_setInt _ (Pg.SC 1) Ib.SC_AUTONOMOUS (by decide)).trans ((timeBase_setInt _ (Pg.SC 0) Ib.SC_AUTONOMOUS (by decide)).trans h1)))
  exact timeBase_ite _ h1 (timeBase_ite _
    (timeBase_ite _ ((timeBase_withdrawSelf _ true).trans ((timeBase_setF _ _ _ _ (by decide)).trans h2)) h2)
    (timeBase_ite _ ((timeBase_setSafe _ false).trans ((timeBase_log _ _ _ _).trans h1)) h1))

theorem timeBase_scTick (s : State) : s.scTick.timeBase = s.timeBase := by
  have h1 := (timeBase_scTickOne _ 1 (by decide)).trans (timeBase_scTickOne s 0 (by decide))
  refine (timeBase_scUpdate _).trans ((timeBase_foldl _ (fun t k => timeBase_ite _ (timeBase_ite _
    (timeBase_ite _ (timeBase_scEnter _ _ _) rfl) (timeBase_scEnter _ _ _)) rfl) _ _).trans ?_)
  show State.timeBase (match ((s.scTickOne 0).scTickOne 1).sv.swap with | none => _ | some k => _) = s.timeBase
  split
  · exact h1
  · exact timeBase_ite _ ((timeBase_takeoverMarks _ _ _).trans ((timeBase_passOwner _ _ _).trans
      ((timeBase_scEnter _ _ _).trans ((timeBase_scEnter _ _ _).trans h1)))) h1

end Sys2Proof.Machine
end

section
/-! SUPPORT. A commit at a boundary leaves the time base: application, its hooks, and what CMT records (R52, R60 to R62). -/
namespace Sys2Proof.Machine

/-! ## Application (R52, R53) -/

/-- TICK_STAT has no staged field, so no staged value replaces any of it. -/
theorem withSt_tickStat (s : State) (x : Nat) : s.withSt Rg.TICK_STAT x = s.rd Rg.TICK_STAT % 2 ^ 32 := by
  have hm : stMaskAt Rg.TICK_STAT = 0 := by decide +kernel
  rw [State.withSt, hm, Nat.and_zero, Nat.or_zero, Nat.sub_zero, Nat.and_two_pow_sub_one_eq_mod]

theorem timeBase_applyShadow (s : State) (a x : Nat) : (s.wr a (s.withSt a x)).timeBase = s.timeBase := by
  by_cases ha : a = Rg.TICK_STAT
  · subst ha
    refine congrArg (Prod.mk s.tk) ?_
    rw [State.f, rd_wr_same, withSt_tickStat, Nat.mod_mod, bits_mod _ _ _ _ (by decide), State.f]
  · exact timeBase_wr _ _ _ ha

theorem timeBase_applyShadows (s : State) : s.applyShadows.timeBase = s.timeBase := by
  have h := timeBase_foldl _ (fun (t : State) (e : Nat × Nat) => timeBase_applyShadow t e.1 e.2) s.shadows s
  exact (timeBase_with_shadows _ []).trans h

theorem timeBase_applyOn (s : State) (onF onT : Bool) : (s.applyOn onF onT).timeBase = s.timeBase :=
  (timeBase_with_shadows _ _).trans ((timeBase_applyShadows _).trans (timeBase_with_shadows s _))

theorem timeBase_copyTables (s : State) (pg off : Nat) (mv : List (Nat × Nat)) : (s.copyTables pg off mv).timeBase = s.timeBase := rfl

theorem timeBase_turnPage (s : State) (k : Turn) (page : Nat) : (s.turnPage k page).timeBase = s.timeBase :=
  timeBase_ite _ (timeBase_copyTables _ _ _ _) (timeBase_ite _ (timeBase_copyTables _ _ _ _)
    (timeBase_ite _ (timeBase_copyTables _ _ _ _) rfl))

theorem timeBase_setRefill (s : State) (page : Nat) (on : Bool) : (s.setRefill page on).timeBase = s.timeBase := by
  have hs : Rg.TICK_STAT = 0x2108 := rfl
  have hv : Rg.APC_VER_STAT (page - 0x060) ≠ Rg.TICK_STAT := ne_tickStat (by simp only [Rg.APC_VER_STAT, Pg.APC]; omega)
  have h (x : Nat) := (timeBase_setF _ (page * 0x1000 + 0xF08) ⟨31, 1⟩ x (by omega)).trans
    (timeBase_with_refill s (if on then page :: s.refill.filter (· != page) else s.refill.filter (· != page)))
  exact timeBase_ite _ ((timeBase_setF _ _ _ _ hv).trans (h _)) (h _)

theorem timeBase_classLogStat (s : State) : s.classLogStat.timeBase = s.timeBase :=
  (timeBase_setF _ _ _ _ (by decide)).trans (timeBase_setF _ _ _ _ (by decide))

theorem timeBase_terrLogStat (s : State) : s.terrLogStat.timeBase = s.timeBase :=
  (timeBase_setF _ _ _ _ (by decide)).trans (timeBase_setF _ _ _ _ (by decide))

/-- What a versioned commit keeps beside registers and tables (R53). -/
theorem timeBase_with_version (s : State) (cm : CmtSt) (p : Sparse Nat) (cw cl : List (Nat × Nat)) (tw tl : List Nat) (tp : List Nat) :
    State.timeBase { s with cm := cm, prevSt := p, classWalk := cw, classLog := cl, terrWalk := tw, terrLog := tl, tblPending := tp } =
      s.timeBase := rfl

theorem timeBase_advanceVersion (s old : State) : (s.advanceVersion old).timeBase = s.timeBase :=
  (timeBase_terrLogStat _).trans ((timeBase_classLogStat _).trans ((timeBase_with_version _ _ _ _ _ _ _ _).trans
    ((timeBase_foldl _ (fun _ _ => timeBase_ite _ ((timeBase_setRefill _ _ _).trans (timeBase_turnPage _ _ _)) rfl) _ _).trans
      ((timeBase_setF _ _ _ _ (by decide)).trans ((timeBase_setF _ _ _ _ (by decide)).trans (timeBase_setF _ _ _ _ (by decide)))))))

theorem timeBase_oneCopy (s : State) : s.oneCopy.timeBase = s.timeBase :=
  (timeBase_with_prevSt _ _).trans (timeBase_foldl _ (fun _ _ => timeBase_turnPage _ _ _) _ _)

/-! ## What the blocks do at a commit -/

theorem timeBase_freeLanes (s : State) (g : Nat) : (s.freeLanes g).timeBase = s.timeBase :=
  timeBase_foldl _ (fun _ l => timeBase_wr _ _ _ (laneStat_ne l)) _ _

theorem timeBase_lpCommit (s old : State) : (s.lpCommit old).timeBase = s.timeBase := by
  refine (timeBase_foldl _ (fun _ _ => timeBase_ite _ (timeBase_freeLanes _ _) rfl) _ _).trans (timeBase_foldl _ (fun t p => ?_) _ _)
  have h (c : Bool) : (if c = true then t.lkToDown p else t).timeBase = t.timeBase := timeBase_ite _ (timeBase_lkToDown t p) rfl
  exact timeBase_ite _ ((timeBase_startTrain _ p).trans (h _)) (h _)

theorem timeBase_setFlexGrp (s : State) (e k : Nat) (x : FlexeGrp) : (s.setFlexGrp e k x).timeBase = s.timeBase :=
  timeBase_with_flexe s _

theorem timeBase_flexCommit (s old : State) : (s.flexCommit old).timeBase = s.timeBase :=
  timeBase_foldl _ (fun _ _ => timeBase_ite _ (timeBase_setFlexGrp _ _ _ _) rfl) _ _

theorem timeBase_setGate (s : State) (p : Nat) (x : GateSt) : (s.setGate p x).timeBase = s.timeBase := timeBase_with_eg s _

theorem timeBase_gateCommit (s old : State) (t : Nat) : (s.gateCommit old t).timeBase = s.timeBase := by
  refine timeBase_foldl _ (fun u p => timeBase_ite _ rfl ?_) _ _
  have hp : Rg.GATE_PORT_STAT p ≠ Rg.TICK_STAT := ne_tickStat (by simp only [Rg.GATE_PORT_STAT, Pg.GATE]; omega)
  exact timeBase_ite _ ((timeBase_wr _ _ _ hp).trans (timeBase_setGate _ _ _)) ((timeBase_setF _ _ _ _ hp).trans (timeBase_setGate _ _ _))

theorem timeBase_setMark (s : State) (pg mem addr : Nat) (e : WordErr) : (s.setMark pg mem addr e).timeBase = s.timeBase :=
  timeBase_with_marks s _

theorem timeBase_wroteWord (s : State) (pg mem addr : Nat) (h : 0x10000 ≤ pg) : (s.wroteWord pg mem addr).timeBase = s.timeBase :=
  timeBase_ite _ ((timeBase_wr _ _ _ (ne_tickStat (by omega))).trans ((timeBase_with_free _ _).trans (timeBase_setMark _ _ _ _ _)))
    (timeBase_setMark _ _ _ _ _)

theorem timeBase_hbmWrite (s : State) (o v : Nat) : (s.hbmWrite o v).timeBase = s.timeBase :=
  (timeBase_foldl _ (fun _ _ => timeBase_ite _ (timeBase_setMark _ _ _ _ _)
    (timeBase_wroteWord _ _ _ _ (by simp only [Pg.HBMC]; omega))) _ _).trans (timeBase_with_hbm s _)

theorem timeBase_flowZero (s : State) (first n : Nat) : (s.flowZero first n).timeBase = s.timeBase :=
  (timeBase_with_bf _ _).trans (timeBase_foldl _ (fun _ _ => timeBase_hbmWrite _ _ _) _ _)

theorem timeBase_setFree (s : State) (n : Nat) : (s.setFree n).timeBase = s.timeBase :=
  (timeBase_wr _ _ _ (by decide)).trans (timeBase_wr _ _ _ (by decide))

theorem timeBase_setBufPages (s : State) : s.setBufPages.timeBase = s.timeBase :=
  (timeBase_setFree _ _).trans (timeBase_wr _ _ _ (by decide))

theorem timeBase_commitHooks (s old : State) (t : Nat) : (s.commitHooks old t).timeBase = s.timeBase := by
  have h1 := (timeBase_gateCommit _ old t).trans ((timeBase_flexCommit _ old).trans (timeBase_lpCommit s old))
  have h2 {u : State} {c : Bool} (h : u.timeBase = s.timeBase) : (if c = true then u.flowZero 0 16777216 else u).timeBase = s.timeBase :=
    timeBase_ite _ ((timeBase_flowZero _ _ _).trans h) h
  have h3 {u : State} {c : Bool} (h : u.timeBase = s.timeBase) : (if c = true then u.setBufPages else u).timeBase = s.timeBase :=
    timeBase_ite _ ((timeBase_setBufPages _).trans h) h
  have h4 (c d : Bool) (x : BufSt) := h3 (c := d) (h2 (c := c) ((timeBase_with_bf _ x).trans h1))
  exact timeBase_ite _ (h4 _ _ _) ((timeBase_unreachRefresh _).trans (h4 _ _ _))

theorem timeBase_commitDies (s : State) (onF onT : Bool) (t : Nat) : (s.commitDies onF onT t).timeBase = s.timeBase := by
  have h1 := timeBase_applyOn s onF onT
  have h2 := timeBase_ite ((onF && s.verStage) = true) ((timeBase_advanceVersion _ s).trans h1) h1
  exact (timeBase_commitHooks _ s t).trans (timeBase_ite _ ((timeBase_oneCopy _).trans h2) h2)

/-! ## What CMT records -/

theorem timeBase_cmtGo (s : State) (st : Nat) : (s.cmtGo st).timeBase = s.timeBase := timeBase_setF _ _ _ _ (by decide)

theorem timeBase_cmtOpen (s : State) : s.cmtOpen.timeBase = s.timeBase :=
  (timeBase_setF _ _ _ _ (by decide)).trans ((timeBase_setF _ _ _ _ (by decide)).trans (timeBase_cmtGo _ _))

theorem timeBase_setThr (s : State) (i : ApId) (x : ApThread) : (s.setThr i x).timeBase = s.timeBase := timeBase_with_apThr s _

theorem timeBase_setSup (s : State) (c a : Nat) (x : ApSup) : (s.setSup c a x).timeBase = s.timeBase := timeBase_with_apSup s _

theorem timeBase_wfeCheck (s : State) (i : ApId) : (s.wfeCheck i).timeBase = s.timeBase := by
  unfold State.wfeCheck
  simp only []
  split
  · rfl
  · exact timeBase_ite _ rfl (timeBase_ite _ (timeBase_setThr _ _ _) ((timeBase_setSup _ _ _ _).trans (timeBase_setThr _ _ _)))

theorem timeBase_commitEvent (s : State) : s.commitEvent.timeBase = s.timeBase :=
  (timeBase_foldl _ timeBase_wfeCheck _ _).trans (timeBase_with_cm s _)

theorem timeBase_commitDone (s : State) : s.commitDone.timeBase = s.timeBase := by
  have h1 := timeBase_setF s Rg.CMT_EPOCH Fd.CMT_EPOCH_LIVE (s.f Rg.CMT_STAT Fd.CMT_STAT_TARGET) (by decide)
  have h2 := timeBase_ite (s.sysMode = true) h1 ((timeBase_setF _ Rg.CMT_EPOCH Fd.CMT_EPOCH_SYS (s.f Rg.CMT_STAT Fd.CMT_STAT_TARGET)
    (by decide)).trans h1)
  exact (timeBase_commitEvent _).trans ((timeBase_cmtOpen _).trans ((timeBase_bump_setInt _ _ _ _ _ (by decide) (by decide)
    (by decide)).trans ((timeBase_wr64 _ _ _ (by decide) (by decide)).trans h2)))

theorem timeBase_commitMissed (s : State) : s.commitMissed.timeBase = s.timeBase :=
  (timeBase_bump_setInt _ _ _ _ _ (by decide) (by decide) (by decide)).trans (timeBase_cmtGo _ _)

theorem timeBase_sysUpdate (s : State) (tag : Option Nat) : (s.sysUpdate tag).timeBase = s.timeBase := by
  unfold State.sysUpdate
  split
  · rfl
  · have h : ∀ w, (s.setF Rg.CMT_EPOCH Fd.CMT_EPOCH_SYS w).timeBase = s.timeBase := fun w => timeBase_setF _ _ _ _ (by decide)
    exact timeBase_ite _ rfl (timeBase_ite _ ((timeBase_bump_setInt _ _ _ _ _ (by decide) (by decide) (by decide)).trans (h _)) (h _))

theorem timeBase_cmtBoundary (s : State) (t : Nat) (tag : Option Nat) (onT : Bool) : (s.cmtBoundary t tag onT).timeBase = s.timeBase := by
  have h0 := timeBase_with_cm s { s.cm with
    decided := false, apply := false, armLate := false, planSent := false, planCommit := false, planArrived := false }
  have h1 := timeBase_ite ((s.commitComing && s.d2dDown) = true) ((timeBase_commitMissed _).trans h0)
    (timeBase_ite (s.commitComing = true) ((timeBase_commitDone _).trans ((timeBase_commitDies _ true onT t).trans h0))
      (timeBase_ite (onT = true) ((timeBase_commitDies _ false true t).trans h0) h0))
  have h2 := (timeBase_sysUpdate _ tag).trans h1
  exact timeBase_ite _ ((timeBase_commitMissed _).trans h2) h2

end Sys2Proof.Machine
end

section
/-! SUPPORT. The tick boundary (R38, R46): time itself advances, and everything else that happens there leaves the time base. -/
namespace Sys2Proof.Machine

/-! ## The blocks at a boundary -/

theorem timeBase_tkEnter (s : State) (st : Nat) : (s.tkEnter st).timeBase = s.timeBase := by
  have h := timeBase_setF_tickStat s Fd.TICK_STAT_STATE st (by decide)
  exact timeBase_ite _ ((timeBase_setInt _ _ _ (by decide)).trans h) (timeBase_ite _ ((timeBase_log _ _ _ _).trans
    ((timeBase_bump_setInt _ _ _ _ _ (by decide) (by decide) (by decide)).trans h)) h)

theorem timeBase_edgeLost (s : State) : s.edgeLost.timeBase = s.timeBase := timeBase_ite _ (timeBase_tkEnter _ _) rfl

theorem timeBase_freezeTick (s : State) : s.freezeTick.timeBase = s.timeBase :=
  timeBase_ite _ ((timeBase_setF _ _ _ _ (by decide)).trans (timeBase_with_te s _))
    (timeBase_ite _ ((timeBase_setF _ _ _ _ (by decide)).trans (timeBase_with_te s _)) rfl)

theorem timeBase_todAdvance (s : State) (t : Nat) : (s.todAdvance t).timeBase = s.timeBase := timeBase_with_ptp s _

theorem timeBase_ptpTick (s : State) (t : Nat) : (s.ptpTick t).timeBase = s.timeBase := by
  have h1 := timeBase_todAdvance s t
  have h2 (x : PtpSt) := timeBase_ite ((s.todAdvance t).ptp.loadDue = true)
    ((timeBase_with_ptp _ x).trans ((timeBase_setF _ Rg.PTP_LOAD_GO Fd.PTP_LOAD_GO_GO 0 (by decide)).trans h1)) h1
  exact timeBase_ite _ (h2 _) ((timeBase_with_ptp _ _).trans (h2 _))

theorem timeBase_bootTick (s : State) : s.bootTick.timeBase = s.timeBase := by
  unfold State.bootTick
  split
  · rfl
  · exact timeBase_ite _ rfl ((timeBase_log _ _ _ _).trans (timeBase_with_pw s _))

/-- Of a boundary only the advance of time moves the time base. -/
theorem timeBase_tickBoundary (s : State) (copies cmtCopies scrub : Nat) (hpor : s.pw.por = false) (hsup : s.pw.sup = false) :
    (s.tickBoundary copies cmtCopies scrub).timeBase = s.timeTick.timeBase := by
  have he : (s.pw.por || s.pw.sup) ≠ true := by simp [hpor, hsup]
  unfold State.tickBoundary
  rw [if_neg he]
  have h2 := (timeBase_ptpTick _ s.timeTick.edgeLost.tk.start).trans ((timeBase_freezeTick _).trans (timeBase_edgeLost s.timeTick))
  have h3 (c : Bool) := timeBase_ite (c = true)
    ((timeBase_bump_setInt _ (Rg.RAS_TW_DISAGREE_CNT 1) 1 (Pg.RAS 1) Ib.RAS_TW_DISAGREE (by decide) (by decide) (by decide)).trans h2) h2
  have h4 (c : Bool) := (timeBase_cmtBoundary _ s.timeTick.edgeLost.tk.start s.tk.curTag
    (voteStrobe cmtCopies (s.cm.planArrived && s.cm.planCommit)).1).trans (h3 c)
  have h5 (c : Bool) := (timeBase_shpApply _).trans ((timeBase_nopageTick _).trans ((timeBase_fabTick _).trans ((timeBase_d2dTick _).trans (h4 c))))
  exact (timeBase_bootTick _).trans ((timeBase_scrubTick _ scrub).trans ((timeBase_scTick _).trans ((timeBase_learnBoundary _).trans
    ((timeBase_portsTick _).trans (h5 _)))))

/-! ## The advance of time -/

theorem timeBase_setF_tis (s : State) (x : Nat) : (s.setF Rg.TICK_STAT Fd.TICK_STAT_TIS x).timeBase = (s.tk, x % 64) :=
  congrArg (Prod.mk s.tk) (f_setF_same s _ _ _ (by decide))

/-- Time over a boundary: one tick more, which begins where the last ends and whose length is not yet fixed (R38, R405); TIS as adopted, or
advanced by one (R46). -/
theorem timeBase_timeTick (s : State) : ∃ k : TickSt,
    s.timeTick.timeBase = (k, s.tk.adopt.getD ((s.f Rg.TICK_STAT Fd.TICK_STAT_TIS + 1) % 64) % 64) ∧
      k.count = s.tk.count + 1 ∧ k.base = s.tk.base ∧ k.start = s.tk.start + s.tickLen ∧ k.fixed = false := by
  unfold State.timeTick
  extract_lets t tis mode chg k b s1 s2
  have hs2 : s2.timeBase = (s1.tk, tis % 64) := by
    refine (timeBase_setF_tis _ tis).trans (congrArg (Prod.mk · (tis % 64)) ?_)
    split
    · split <;> rfl
    · rfl
  refine ⟨s1.tk, (timeBase_ite _ ?_ rfl).trans hs2, rfl, rfl, rfl, rfl⟩
  exact (timeBase_tkEnter _ _).trans ((timeBase_setF_tickStat _ _ _ (by decide)).trans (timeBase_setF_tickStat _ _ _ (by decide)))

theorem tickBoundary_of_reset (s : State) (copies cmtCopies scrub : Nat) (h : s.pw.por = true ∨ s.pw.sup = true) :
    s.tickBoundary copies cmtCopies scrub = s := if_pos (by simpa using h)

theorem tickLen_of_corr (s : State) (h : s.tk.corr ≤ 2048) : (s.tickLen : Int) = 2048 - s.tk.corr :=
  Int.toNat_of_nonneg (by omega)

/-- Settles O12: the advance of time gives the new time base, and the rest of the boundary leaves it. -/
theorem tickBoundaryMovesTime : Obligations.TickBoundaryMovesTime := by
  refine ⟨rfl, fun s copies cmtCopies scrub => ⟨fun h => ?held, fun hpor hsup hbase => ⟨_, rfl, ?runs⟩⟩⟩
  case held => exact congrArg Host.Outcome.next (tickBoundary_of_reset s copies cmtCopies scrub h)
  case runs =>
    obtain ⟨k, hk, hcount, hkbase, hstart, hfixed⟩ := timeBase_timeTick s
    obtain ⟨htk, htis⟩ := Prod.mk.inj ((timeBase_tickBoundary s copies cmtCopies scrub hpor hsup).trans hk)
    refine ⟨?_, ?_, ?_, ?_, tickLen_of_corr s, fun _ hadopt => ?_⟩
    · rw [htk, hcount]
    · rw [State.tickCount, State.tickCount, htk, hcount, hkbase]
      omega
    · rw [htk, hstart]
    · rw [htk, hfixed]
    · rw [htis, hadopt]
      exact Nat.mod_mod _ _

end Sys2Proof.Machine
end

section
/-! SUPPORT. The sound register file (R14, R18) of a part: registers of 32 bits, rising, listed only where they differ from reset. What keeps it. -/
namespace Sys2Proof.Machine

/-- The register file is sound, and the part is `p`. -/
structure State.Sound (p : Part) (s : State) : Prop where
  regsOk : s.regsOk
  part : s.part = p

namespace State.Sound
variable {pt : Part} {s t u : State} {β : Type}

/-- An update of other fields. -/
theorem other
  {ra shadows prevSt tblPending hiLatch loHeld tbls marks rsp out free tk cm d2 pcie0 pcie1 lg ptp irqHeld ringDue ports macQ
    flexe slices moveIn moveEg evacIn evacEg admQ macTx classLog classWalk terrLog terrWalk liveClr ln apCtx apThr apSup locks
    chans apProt voqs pols bf eg fab hb hbm te sv up rings pw tblRun refill softWait pending}
    (h : s.Sound pt) :
    State.Sound pt (State.mk
      ra s.part s.regs shadows prevSt tblPending hiLatch loHeld tbls marks rsp out free tk cm d2 pcie0 pcie1 lg
      ptp irqHeld ringDue ports macQ flexe slices moveIn moveEg evacIn evacEg admQ macTx classLog classWalk
      terrLog terrWalk liveClr ln apCtx apThr apSup locks chans apProt voqs pols bf eg fab hb hbm te sv up
      rings pw tblRun refill softWait pending) :=
  ⟨h.regsOk, h.part⟩

theorem ite {c : Prop} [Decidable c] (h1 : t.Sound pt) (h2 : u.Sound pt) : (if c then t else u).Sound pt := by
  split <;> assumption

theorem iteFst {c : Prop} [Decidable c] {x y : State × β} (h1 : x.1.Sound pt) (h2 : y.1.Sound pt) : (if c then x else y).1.Sound pt := by
  split <;> assumption

theorem foldl {f : State → β → State} {l : List β} (h : s.Sound pt) (hf : ∀ {t x}, t.Sound pt → (f t x).Sound pt) :
    (l.foldl f s).Sound pt := by
  induction l generalizing s with
  | nil => exact h
  | cons x l ih => exact ih (hf h)

theorem foldlFst {γ : Type} {f : State × γ → β → State × γ} {l : List β} {x : State × γ} (h : x.1.Sound pt)
    (hf : ∀ {y b}, y.1.Sound pt → (f y b).1.Sound pt) : (l.foldl f x).1.Sound pt := by
  induction l generalizing x with
  | nil => exact h
  | cons b l ih => exact ih (hf h)

/-- A write of a register keeps the file sound: the value is cut to 32 bits, and the reset value is not listed. -/
theorem wr {a v : Nat} (h : s.Sound pt) : (s.wr a v).Sound pt := by
  obtain ⟨⟨hrise, hval⟩, hpart⟩ := h
  refine ⟨⟨sRising_sset _ _ _ _ hrise, fun e he => ?_⟩, hpart⟩
  by_cases hv : v % 2 ^ 32 = regReset s.part a
  · rw [State.wr, sset, if_pos hv] at he
    exact hval e ((mem_sdel _ _ _).1 he).1
  · rw [State.wr, sset, if_neg hv] at he
    rcases (mem_sins _ _ _ _).1 he with rfl | he
    · exact ⟨Nat.mod_lt _ (by decide), hv⟩
    · exact hval e ((mem_sdel _ _ _).1 he).1

/-- Registers returned to their reset values. -/
theorem filterRegs {f : Nat × Nat → Bool} (h : s.Sound pt) (hp : t.part = s.part) (hr : t.regs = s.regs.filter f) : t.Sound pt := by
  obtain ⟨⟨hrise, hval⟩, hpart⟩ := h
  refine ⟨⟨hr ▸ sRising_filter _ _ hrise, fun e he => ?_⟩, hp.trans hpart⟩
  rw [hr] at he
  rw [hp]
  exact hval e (List.mem_of_mem_filter he)

end State.Sound

variable {pt : Part} {s t u : State}

theorem State.Sound.ofEq {β : Type} {x : State × β} {b : β} (h : x.1.Sound pt) (e : x = (t, b)) : t.Sound pt := by
  subst e
  exact h

/-- Where a function answers a state, it is sound. -/
def State.SoundOpt (p : Part) (o : Option State) : Prop := ∀ t, o = some t → t.Sound p

theorem State.SoundOpt.none : State.SoundOpt pt none := fun _ h => nomatch h

theorem State.SoundOpt.some (h : t.Sound pt) : State.SoundOpt pt (some t) := fun _ e => Option.some.inj e ▸ h

theorem State.SoundOpt.ite {c : Prop} [Decidable c] {a b : Option State} (h1 : State.SoundOpt pt a) (h2 : State.SoundOpt pt b) :
    State.SoundOpt pt (if c then a else b) := by
  split <;> assumption

theorem State.SoundOpt.map {o : Option State} {f : State → State} (h : State.SoundOpt pt o) (hf : ∀ {t : State}, t.Sound pt → (f t).Sound pt) :
    State.SoundOpt pt (o.map f) := by
  intro t e
  obtain ⟨u, hu, rfl⟩ := Option.map_eq_some_iff.1 e
  exact hf (h u hu)

/-- Dropping or changing the values of a rising map keeps it rising. -/
theorem sRising_filterMap {α : Type} (m : Sparse α) {f : Nat × α → Option (Nat × α)} (hf : ∀ e x, f e = some x → x.1 = e.1)
    (h : sRising m) : sRising (m.filterMap f) := by
  induction m with
  | nil => trivial
  | cons q m ih =>
    rw [List.filterMap_cons]
    split
    · exact ih h.2
    next x hx =>
      refine ⟨fun p hp => ?_, ih h.2⟩
      obtain ⟨e, he, hep⟩ := List.mem_filterMap.1 hp
      rw [hf q x hx, hf e p hep]
      exact h.1 e he

/-- Every field of the register map lies in 32 bits. -/
theorem registerFieldsFit : ((pageTableF ++ pageTableT).all fun d => (headerRegs d ++ d.regs).all fun r => r.fields.all fun f =>
    decide (f.lo + f.w ≤ 32)) = true := by
  decide +kernel

theorem field_fits {addr : ℕ} {r : RegDef} {f : FieldDef} (h : findReg addr = some r) (hf : f ∈ r.fields) : f.lo + f.w ≤ 32 := by
  unfold findReg at h
  split at h
  · cases h
  next d hd =>
    have hmem : d ∈ pageTableF ++ pageTableT := by
      have := List.mem_of_find?_eq_some hd
      split at this
      · exact List.mem_append_left _ this
      · exact List.mem_append_right _ this
    have hr : r ∈ headerRegs d ++ d.regs := by
      have := List.mem_of_find?_eq_some h
      split at this
      · exact List.mem_append_left _ this
      · exact List.mem_append_right _ this
    have := List.all_eq_true.1 (List.all_eq_true.1 (List.all_eq_true.1 registerFieldsFit d hmem) r hr) f hf
    exact of_decide_eq_true this

theorem foldl_setBits_lt {c : FieldDef → Bool} {x : FieldDef → ℕ} {l : List FieldDef} {v : ℕ} (hl : ∀ f ∈ l, f.lo + f.w ≤ 32) (hv : v < 2 ^ 32) :
    l.foldl (fun a f => if c f then setBits a f.lo f.w (x f) else a) v < 2 ^ 32 := by
  induction l generalizing v with
  | nil => exact hv
  | cons f l ih =>
    refine ih (fun g hg => hl g (List.mem_cons_of_mem _ hg)) ?_
    dsimp only
    split
    · exact setBits_lt _ _ _ _ hv (hl f List.mem_cons_self)
    · exact hv

theorem resetWord_lt {addr : ℕ} {r : RegDef} (h : findReg addr = some r) : r.resetWord < 2 ^ 32 := by
  simpa [RegDef.resetWord] using foldl_setBits_lt (c := fun _ => true) (x := FieldDef.reset) (fun f hf => field_fits h hf) (Nat.two_pow_pos 32)

/-- A chain of choices below a bound. -/
theorem forall_mem_ite_some {c : Prop} [Decidable c] {n v : ℕ} {o : Option ℕ} (hv : v < n) (ho : ∀ x ∈ o, x < n) :
    ∀ x ∈ (if c then some v else o), x < n := by
  split
  · rintro x ⟨⟩
    exact hv
  · exact ho

theorem regResetSpec_lt {p : Part} {addr : ℕ} : ∀ v ∈ regResetSpec p addr, v < 2 ^ 32 := by
  have hF : p.domsF / 2 ^ 32 < 2 ^ 32 := by cases p <;> decide
  have hT : p.domsT < 2 ^ 32 := by cases p <;> decide
  have hd : (p.slices - 1) * 2 ^ 20 + (p.slices - 1) * 2 ^ 16 < 2 ^ 32 := by cases p <;> decide
  have hm : p.domsF % 2 ^ 32 < 2 ^ 32 := Nat.mod_lt _ (by decide)
  unfold regResetSpec
  extract_lets page off dorm
  have hr : (if page % 16 = dorm then 0x100001 else 0x100000) < 2 ^ 32 := by split <;> decide
  have hw : (if dorm ≤ page % 16 then 0 else (if p = .lmb4806 ∧ 0x50 ≤ page then 4096 else 2048) * 2 ^ 15) < 2 ^ 32 := by
    split
    · decide
    · split <;> decide
  refine forall_mem_ite_some (by decide) (forall_mem_ite_some (by decide) (forall_mem_ite_some hr (forall_mem_ite_some hw ?_)))
  refine forall_mem_ite_some (by decide) (forall_mem_ite_some (by decide) (forall_mem_ite_some (by decide) (forall_mem_ite_some (by decide) ?_)))
  refine forall_mem_ite_some hm (forall_mem_ite_some hF (forall_mem_ite_some hT (forall_mem_ite_some (by decide) ?_)))
  exact forall_mem_ite_some (by decide) (forall_mem_ite_some (by decide) (forall_mem_ite_some hd (fun _ h => nomatch h)))

theorem regReset_lt (p : Part) (addr : ℕ) : regReset p addr < 2 ^ 32 := by
  unfold regReset
  split
  next h => exact regResetSpec_lt _ h
  · split
    next h => exact resetWord_lt h
    · decide

theorem retained_lt (p : Part) (addr v : ℕ) : retained p addr v < 2 ^ 32 := by
  unfold retained
  split
  · exact regReset_lt p addr
  next h => simpa using foldl_setBits_lt (c := fun f => decide (f.kind = .rw ∨ f.kind = .st)) (fun f hf => field_fits h hf) (regReset_lt p addr)
end Sys2Proof.Machine
end

section
/-! SUPPORT. What each function of the model does to a sound register file: it keeps it. One lemma per function, in the order of the model; its
proof names the lemmas of the functions it is made of. -/
namespace Sys2Proof.Machine
open State
variable {pt : Part} {s t u : State}

theorem State.Sound.setF {addr : ℕ} {fl : Fld} {x : ℕ} (hs : s.Sound pt) : (State.setF s addr fl x).Sound pt :=
  hs.wr

theorem State.Sound.wr64 {lo : ℕ} {v : ℕ} (hs : s.Sound pt) : (State.wr64 s lo v).Sound pt :=
  hs.wr.wr

theorem State.Sound.setTbl {pg : ℕ} {t' : ℕ} {i : ℕ} {v : ℕ} (hs : s.Sound pt) : (State.setTbl s pg t' i v).Sound pt :=
  hs.other

theorem State.Sound.setTf {pg : ℕ} {t' : ℕ} {i : ℕ} {lo : ℕ} {w : ℕ} {x : ℕ} (hs : s.Sound pt) : (State.setTf s pg t' i lo w x).Sound pt :=
  hs.setTbl

theorem State.Sound.clrTbl {pg : ℕ} {t' : ℕ} {first : ℕ} {n : ℕ} (hs : s.Sound pt) : (State.clrTbl s pg t' first n).Sound pt :=
  hs.other

theorem State.Sound.setMark {pg : ℕ} {mem : ℕ} {addr : ℕ} {e : WordErr} (hs : s.Sound pt) : (State.setMark s pg mem addr e).Sound pt :=
  hs.other

theorem State.Sound.draw (hs : s.Sound pt) : (State.draw s).Sound pt :=
  hs.other

theorem State.Sound.emit {e : Emit} (hs : s.Sound pt) : (State.emit s e).Sound pt :=
  hs.other

theorem State.Sound.setPcie {p : ℕ} {x : PcieSt} (hs : s.Sound pt) : (State.setPcie s p x).Sound pt :=
  .ite hs.other hs.other

theorem State.Sound.setIntRaw {pg : ℕ} {mask : ℕ} (hs : s.Sound pt) : (State.setIntRaw s pg mask).Sound pt :=
  .ite hs.wr.wr hs.wr

theorem State.Sound.sendMsg {p : ℕ} {vec : ℕ} (hs : s.Sound pt) : (State.sendMsg s p vec).Sound pt :=
  .ite hs.setPcie (.ite hs.wr.emit hs.wr.emit.wr.setIntRaw)

theorem State.Sound.raiseOn {n : ℕ} {p : ℕ} (hs : s.Sound pt) : (State.raiseOn s n p).Sound pt :=
  .ite hs.sendMsg hs

theorem State.Sound.raiseSrc {n : ℕ} (hs : s.Sound pt) : (State.raiseSrc s n).Sound pt :=
  hs.raiseOn.raiseOn

theorem State.Sound.withEdges {ns : List Nat} {f : State → State} (h : s.Sound pt) (hf : ∀ {t : State}, t.Sound pt → (f t).Sound pt) :
    (s.withEdges ns f).Sound pt := .foldl (hf h) fun ht => .ite ht.raiseSrc ht

theorem State.Sound.setInts {pg : ℕ} {mask : ℕ} (hs : s.Sound pt) : (State.setInts s pg mask).Sound pt :=
  .ite (hs.withEdges fun h1 => h1.setIntRaw) hs

theorem State.Sound.setInt {pg : ℕ} {b : ℕ} (hs : s.Sound pt) : (State.setInt s pg b).Sound pt :=
  hs.setInts

theorem State.Sound.setIntIf {c : Bool} {pg : ℕ} {b : ℕ} (hs : s.Sound pt) : (State.setIntIf s c pg b).Sound pt :=
  .ite hs.setInt hs

theorem State.Sound.setOvf {pg : ℕ} {off : ℕ} {b : ℕ} (hs : s.Sound pt) : (State.setOvf s pg off b).Sound pt :=
  .ite hs hs.wr.setInt

theorem State.Sound.bump {addr : ℕ} {n : ℕ} (hs : s.Sound pt) : (State.bump s addr n).Sound pt :=
  .ite hs (.ite hs.wr hs.wr.setOvf)

theorem State.Sound.bump64 {lo : ℕ} {n : ℕ} (hs : s.Sound pt) : (State.bump64 s lo n).Sound pt :=
  .ite hs (.ite hs.wr64 hs.wr64.setOvf)

theorem State.Sound.bumpIf {c : Bool} {addr : ℕ} (hs : s.Sound pt) : (State.bumpIf s c addr).Sound pt :=
  .ite hs.bump hs

theorem State.Sound.setOvfTbl {pg : ℕ} (hs : s.Sound pt) : (State.setOvfTbl s pg).Sound pt :=
  hs.setOvf

theorem State.Sound.overrun {n : ℕ} (hs : s.Sound pt) : (State.overrun s n).Sound pt :=
  hs.bump.setInt

theorem State.Sound.peak {addr : ℕ} {v : ℕ} (hs : s.Sound pt) : (State.peak s addr v).Sound pt :=
  .ite hs.wr hs

theorem State.Sound.setFree {n : ℕ} (hs : s.Sound pt) : (State.setFree s n).Sound pt :=
  hs.wr.wr

theorem State.Sound.captureErr {pg : ℕ} {kind : ℕ} {mem : ℕ} {addr : ℕ} {sinter : Bool} {symbol : ℕ} {pattern : ℕ} {syn : ℕ} {half : ℕ} {setCe : Bool} (hs : s.Sound pt) : (State.captureErr s pg kind mem addr sinter symbol pattern syn half setCe).Sound pt :=
  have h1 := Sound.ite hs hs.wr.wr.wr
  .ite h1.setInt (.ite h1.setInt h1)

theorem State.Sound.putRec {r : LogRec} (hs : s.Sound pt) : (State.putRec s r).Sound pt :=
  hs.other.setMark.setMark.wr.wr.bump64

theorem State.Sound.logPut {r : LogRec} (hs : s.Sound pt) : (State.logPut s r).Sound pt :=
  .ite hs.putRec.other hs.other.bump.setInt

theorem State.Sound.log {pg : ℕ} {code : ℕ} {data : ℕ} (hs : s.Sound pt) : (State.log s pg code data).Sound pt :=
  .ite (.ite hs.other hs.other) hs.logPut

theorem State.Sound.pathBack (hs : s.Sound pt) : (State.pathBack s).Sound pt :=
  .foldl ((Sound.foldl ((Sound.ite hs.other hs.other.bump.setInt)) fun h1 => h1.logPut).other) fun h2 => .ite h2.raiseSrc h2

theorem State.Sound.pathLost (hs : s.Sound pt) : (State.pathLost s).Sound pt :=
  hs.other

theorem State.Sound.withPaths {f : State → State} (h : s.Sound pt) (hf : ∀ {t : State}, t.Sound pt → (f t).Sound pt) :
    (s.withPaths f).Sound pt := .ite ((hf h).other) (.ite (hf h).pathBack (hf h))

theorem State.Sound.judgeWrite {a : Acc} {addr : ℕ} (hs : s.Sound pt) : ((State.judgeWrite s a addr).1).Sound pt :=
  by unfold State.judgeWrite; exact (by split; exacts [have h1 := Sound.ite hs.bump.setInt hs; have h2 := Sound.ite h1.bump h1; .iteFst h2 (.iteFst h2.bump.setInt h2), .iteFst hs (.iteFst hs.bump hs)])

theorem State.Sound.onWrite {a : Acc} {addr : Nat} {eff : State → State} (h : s.Sound pt) (hf : ∀ {t : State}, t.Sound pt → (eff t).Sound pt) :
    (s.onWrite a addr eff).Sound pt := .ite (hf h.judgeWrite) h.judgeWrite

theorem State.Sound.judgeRead {a : Acc} {addr : ℕ} (hs : s.Sound pt) : ((State.judgeRead s a addr).1).Sound pt :=
  .iteFst ((by split; exacts [hs.bump, hs])) (.iteFst ((by split; exacts [hs.bump.setInt, hs])) (.iteFst hs hs))

theorem State.Sound.onRead {a : Acc} {addr : Nat} {eff : State → State × Nat} (h : s.Sound pt) (hf : ∀ {t : State}, t.Sound pt → (eff t).1.Sound pt) :
    (s.onRead a addr eff).Sound pt := by
  unfold State.onRead
  simp only []
  split
  · exact h.judgeRead.other
  · exact (hf h.judgeRead).other

theorem State.Sound.setStaged {addr : ℕ} {v : ℕ} (hs : s.Sound pt) : (State.setStaged s addr v).Sound pt :=
  hs.other

theorem State.Sound.lateWrite (hs : s.Sound pt) : (State.lateWrite s).Sound pt :=
  hs.bump.setInt

theorem State.Sound.stageWrite {r : RegDef} {addr : ℕ} {v : ℕ} {shadowAddr : Bool} (hs : s.Sound pt) : (State.stageWrite s r addr v shadowAddr).Sound pt :=
  .ite hs.setStaged (.ite hs hs.lateWrite)

theorem State.Sound.fieldWrite {addr : ℕ} {v : ℕ} (hs : s.Sound pt) : (State.fieldWrite s addr v).Sound pt :=
  .ite ((by split; exacts [.ite hs.stageWrite.setIntIf hs, hs])) ((by split; exacts [hs, (Sound.ite hs.wr.stageWrite hs.wr).setIntIf]))

theorem State.Sound.holdLo {r : Requester} {lo : ℕ} {v : ℕ} (hs : s.Sound pt) : (State.holdLo s r lo v).Sound pt :=
  hs.other

theorem State.Sound.takeLo {r : Requester} {lo : ℕ} {v : ℕ} (hs : s.Sound pt) : ((State.takeLo s r lo v).1).Sound pt :=
  hs.other

theorem State.Sound.setLport {p : ℕ} {x : LinePort} (hs : s.Sound pt) : (State.setLport s p x).Sound pt :=
  hs.other

theorem State.Sound.lpBump {p : ℕ} {i : ℕ} {n : ℕ} (hs : s.Sound pt) : (State.lpBump s p i n).Sound pt :=
  hs.bump64

theorem State.Sound.lpRefresh {p : ℕ} (hs : s.Sound pt) : (State.lpRefresh s p).Sound pt :=
  hs.setF.setF.setLport

theorem State.Sound.lkEnter {p : ℕ} {st : ℕ} (hs : s.Sound pt) : (State.lkEnter s p st).Sound pt :=
  hs.setF.lpRefresh

theorem State.Sound.lkLost {p : ℕ} (hs : s.Sound pt) : (State.lkLost s p).Sound pt :=
  hs.setF.wr.setLport.setIntIf

theorem State.Sound.setLocks {p : ℕ} {am : Bool} {fec : Bool} (hs : s.Sound pt) : (State.setLocks s p am fec).Sound pt :=
  hs.setF.setF

theorem State.Sound.lanesOff {ls : List ℕ} (hs : s.Sound pt) : (State.lanesOff s ls).Sound pt :=
  .foldl hs fun h1 => h1.wr

theorem State.Sound.lkToDown {p : ℕ} (hs : s.Sound pt) : (State.lkToDown s p).Sound pt :=
  hs.lkLost.setLocks.lkEnter

theorem State.Sound.startTrain {p : ℕ} (hs : s.Sound pt) : (State.startTrain s p).Sound pt :=
  .foldl hs fun h1 => h1.setF

theorem State.Sound.clientEval {p : ℕ} (hs : s.Sound pt) : (State.clientEval s p).Sound pt :=
  .ite hs (.ite (.ite hs hs.lkToDown) (.ite (.ite hs.setLocks.lkEnter hs.setLocks) (.ite hs.setLocks.lkEnter
    (.ite hs.setLocks.lkLost.lkEnter hs.setLocks))))

theorem State.Sound.lpTick {p : ℕ} (hs : s.Sound pt) : (State.lpTick s p).Sound pt :=
  .ite hs (.ite hs.clientEval (.ite hs.startTrain.lkEnter hs))

theorem State.Sound.trainDone {p : ℕ} (hs : s.Sound pt) : (State.trainDone s p).Sound pt :=
  .ite hs (have h1 := Sound.foldl hs fun h2 => h2.wr; .ite h1 h1.lkEnter)

theorem State.Sound.fabTrain {l : ℕ} {old : ℕ} {new : ℕ} (hs : s.Sound pt) : (State.fabTrain s l old new).Sound pt :=
  .ite hs.setF hs

theorem State.Sound.trainTimeout {p : ℕ} {l : ℕ} (hs : s.Sound pt) : (State.trainTimeout s p l).Sound pt :=
  .ite (.ite hs.fabTrain.setInt hs) (.ite hs hs.setF.bump.setInt)

theorem State.Sound.trainRetry {p : ℕ} (hs : s.Sound pt) : (State.trainRetry s p).Sound pt :=
  .ite hs.fabTrain (.ite hs.startTrain hs)

theorem State.Sound.aligned {p : ℕ} (hs : s.Sound pt) : (State.aligned s p).Sound pt :=
  .ite hs.setLocks.lkEnter hs

theorem State.Sound.lkRise {p : ℕ} (hs : s.Sound pt) : (State.lkRise s p).Sound pt :=
  .ite hs.setF.setLport.lkEnter.setInt hs

theorem State.Sound.lockLoss {p : ℕ} {am : Bool} {fec : Bool} (hs : s.Sound pt) : (State.lockLoss s p am fec).Sound pt :=
  .ite hs ((Sound.ite hs.lkLost.setLocks.setLport hs.lkLost.setLocks).lkEnter)

theorem State.Sound.cdrLoss {p : ℕ} {l : ℕ} (hs : s.Sound pt) : (State.cdrLoss s p l).Sound pt :=
  .ite hs (.ite hs.setF hs.setF.lkLost.setLocks.startTrain.lkEnter)

theorem State.Sound.lpCtrlWrite {p : ℕ} {v : ℕ} (hs : s.Sound pt) : (State.lpCtrlWrite s p v).Sound pt :=
  .ite hs.fieldWrite hs.fieldWrite.lkToDown

theorem State.Sound.freeLanes {g : ℕ} (hs : s.Sound pt) : (State.freeLanes s g).Sound pt :=
  hs.lanesOff

theorem State.Sound.lpCommit {old : State} (hs : s.Sound pt) : (State.lpCommit s old).Sound pt :=
  .foldl ((Sound.foldl hs fun h1 => have h2 := Sound.ite h1.lkToDown h1; .ite h2.startTrain h2)) fun h3 => .ite h3.freeLanes h3

theorem State.Sound.faultSets {p : ℕ} {lf : Bool} {rf : Bool} (hs : s.Sound pt) : (State.faultSets s p lf rf).Sound pt :=
  .ite hs.setLport.lpRefresh hs

theorem State.Sound.fabFec {l : ℕ} {errs : ℕ} (hs : s.Sound pt) : (State.fabFec s l errs).Sound pt :=
  .ite hs (.ite hs (.ite hs.bump.bump hs.bump))

theorem State.Sound.fecCodeword {p : ℕ} {errs : ℕ} (hs : s.Sound pt) : (State.fecCodeword s p errs).Sound pt :=
  .ite hs.fabFec (.ite hs (.ite (.ite hs.bump hs.bump.lpBump.lpBump) hs.lpBump))

theorem State.Sound.todAdvance {t' : ℕ} (hs : s.Sound pt) : (State.todAdvance s t').Sound pt :=
  hs.other

theorem State.Sound.setPause {p : ℕ} {i : ℕ} {q : ℕ} (hs : s.Sound pt) : (State.setPause s p i q).Sound pt :=
  hs.setLport.wr

theorem State.Sound.pfcRx {p : ℕ} {enable : ℕ} {quanta : List ℕ} (hs : s.Sound pt) : (State.pfcRx s p enable quanta).Sound pt :=
  .ite hs (.foldl hs.lpBump fun h1 => .ite h1.setPause h1)

theorem State.Sound.pauseExpiry {p : ℕ} {i : ℕ} (hs : s.Sound pt) : (State.pauseExpiry s p i).Sound pt :=
  .ite hs.setPause hs

theorem State.Sound.pfcStorm {p : ℕ} {pri : ℕ} (hs : s.Sound pt) : (State.pfcStorm s p pri).Sound pt :=
  .ite hs hs.setPause.wr.setLport.lpBump.setInt

theorem State.Sound.stormEnd {p : ℕ} {pri : ℕ} (hs : s.Sound pt) : (State.stormEnd s p pri).Sound pt :=
  .ite hs.wr hs

theorem State.Sound.lrMon {p : ℕ} {base : ℕ} {len : ℕ} (hs : s.Sound pt) : (State.lrMon s p base len).Sound pt :=
  hs.bump

theorem State.Sound.macRx {p : ℕ} {b : List Byte} {codeErr : Option ℕ} {clk : ℕ} (hs : s.Sound pt) : (State.macRx s p b codeErr clk).Sound pt :=
  .ite hs (.ite hs.lpBump (.ite hs.lpBump (have h1 := Sound.ite hs.lpBump (.ite hs.lpBump hs.lpBump.lpBump); .ite h1.lrMon (.ite
    (.ite h1.lrMon.pfcRx (.ite h1.lrMon.lpBump h1.lrMon)) h1.lrMon.other))))

theorem State.Sound.setFlexGrp {e : ℕ} {k : ℕ} {x : FlexeGrp} (hs : s.Sound pt) : (State.setFlexGrp s e k x).Sound pt :=
  hs.other

theorem State.Sound.setGrpStat {e : ℕ} {k : ℕ} {v : ℕ} (hs : s.Sound pt) : (State.setGrpStat s e k v).Sound pt :=
  hs.wr.setIntIf

theorem State.Sound.flexCommit {old : State} (hs : s.Sound pt) : (State.flexCommit s old).Sound pt :=
  .foldl hs fun h1 => .ite h1.setFlexGrp h1

theorem State.Sound.calAck {e : ℕ} {k : ℕ} (hs : s.Sound pt) : (State.calAck s e k).Sound pt :=
  .ite hs.setFlexGrp.setF hs

theorem State.Sound.calSwitch {e : ℕ} {k : ℕ} (hs : s.Sound pt) : (State.calSwitch s e k).Sound pt :=
  by unfold State.calSwitch; exact (by split; exacts [hs, .ite hs.setFlexGrp.setF.setF hs])

theorem State.Sound.calTimeout {e : ℕ} {k : ℕ} (hs : s.Sound pt) : (State.calTimeout s e k).Sound pt :=
  .ite hs.setF.setInt hs

theorem State.Sound.overheadRx {e : ℕ} {k : ℕ} {num : ℕ} {phys : ℕ} {calPage : ℕ} {cal : List (Option ℕ)} (hs : s.Sound pt) : (State.overheadRx s e k num phys calPage cal).Sound pt :=
  .ite hs (.foldl hs.setGrpStat fun h1 => .ite h1.clientEval h1)

theorem State.Sound.ohLock {e : ℕ} {k : ℕ} {locked : Bool} {deskewFail : Bool} {clients : ℕ} (hs : s.Sound pt) : (State.ohLock s e k locked deskewFail clients).Sound pt :=
  .ite hs (.foldl hs.setGrpStat fun h1 => .ite h1.setLport.clientEval h1)

theorem State.Sound.ptpIncrWrite {clk : ℕ} {v : ℕ} (hs : s.Sound pt) : (State.ptpIncrWrite s clk v).Sound pt :=
  hs.todAdvance.fieldWrite

theorem State.Sound.ptpTick {t' : ℕ} (hs : s.Sound pt) : (State.ptpTick s t').Sound pt :=
  have h1 := Sound.ite hs.todAdvance.setF.other hs.todAdvance
  .ite h1 h1.other

theorem State.Sound.txtsPut {p : ℕ} {tag : ℕ} {sec : ℕ} {ns : ℕ} (hs : s.Sound pt) : (State.txtsPut s p tag sec ns).Sound pt :=
  .ite hs.other.setIntIf hs.bump.setInt

theorem State.Sound.txtsPop (hs : s.Sound pt) : ((State.txtsPop s).1).Sound pt :=
  by unfold State.txtsPop; exact (by split; exacts [hs.wr, hs.wr.wr.wr.wr.other])

theorem State.Sound.ppsIn {clk : ℕ} (hs : s.Sound pt) : (State.ppsIn s clk).Sound pt :=
  .ite hs.bump hs.other.wr.wr.wr.setInt

theorem State.Sound.squelch {n : ℕ} (hs : s.Sound pt) : (State.squelch s n).Sound pt :=
  .ite hs hs.other.emit.setInt

theorem State.Sound.setThr {i : ApId} {x : ApThread} (hs : s.Sound pt) : (State.setThr s i x).Sound pt :=
  hs.other

theorem State.Sound.setSup {c : ℕ} {a : ℕ} {x : ApSup} (hs : s.Sound pt) : (State.setSup s c a x).Sound pt :=
  hs.other

theorem State.Sound.setCtx {i : ApId} {x : ApCtx} (hs : s.Sound pt) : (State.setCtx s i x).Sound pt :=
  by unfold State.setCtx; exact (by split; exacts [hs.other, hs.setThr])

theorem State.Sound.setLock {c : ℕ} {l : ℕ} {x : LockSt} (hs : s.Sound pt) : (State.setLock s c l x).Sound pt :=
  hs.other

theorem State.Sound.setChan {c : ℕ} {ch : ℕ} {l : List ChanSlot} (hs : s.Sound pt) : (State.setChan s c ch l).Sound pt :=
  (Sound.ite hs.other hs.other.bump).setF

theorem State.Sound.revokeAll {i : ApId} (hs : s.Sound pt) : (State.revokeAll s i).Sound pt :=
  .foldl hs fun h1 => h1.setChan

theorem State.Sound.releaseAll {i : ApId} (hs : s.Sound pt) : (State.releaseAll s i).Sound pt :=
  hs.other

theorem State.Sound.wfeCheck {i : ApId} (hs : s.Sound pt) : (State.wfeCheck s i).Sound pt :=
  by unfold State.wfeCheck; exact (by dsimp only; split; exacts [hs, .ite hs (.ite hs.setThr hs.setThr.setSup)])

theorem State.Sound.postEvent {i : ApId} {b : ℕ} (hs : s.Sound pt) : (State.postEvent s i b).Sound pt :=
  hs.setThr.wfeCheck

theorem State.Sound.chanEvent {c : ℕ} (hs : s.Sound pt) : (State.chanEvent s c).Sound pt :=
  .foldl hs fun h1 => h1.wfeCheck

theorem State.Sound.commitEvent (hs : s.Sound pt) : (State.commitEvent s).Sound pt :=
  .foldl hs.other fun h1 => h1.wfeCheck

theorem State.Sound.endCtx {i : ApId} (hs : s.Sound pt) : (State.endCtx s i).Sound pt :=
  hs.releaseAll.revokeAll.setCtx

theorem State.Sound.killCtxs {c : ℕ} (hs : s.Sound pt) : (State.killCtxs s c).Sound pt :=
  .foldl hs fun h1 => h1.endCtx

theorem State.Sound.setSlice {d : ℕ} {i : ℕ} {x : SliceSt} (hs : s.Sound pt) : (State.setSlice s d i x).Sound pt :=
  hs.other

theorem State.Sound.setMove {d : ℕ} {m : Option Move} (hs : s.Sound pt) : (State.setMove s d m).Sound pt :=
  .ite hs.other hs.other

theorem State.Sound.setEvac {d : ℕ} {e : Option Evac} (hs : s.Sound pt) : (State.setEvac s d e).Sound pt :=
  .ite hs.other hs.other

theorem State.Sound.steerStat (hs : s.Sound pt) : (State.steerStat s).Sound pt :=
  hs.wr.setIntIf

theorem State.Sound.setRole {d : ℕ} {i : ℕ} {r : ℕ} (hs : s.Sound pt) : (State.setRole s d i r).Sound pt :=
  hs.setF.steerStat

theorem State.Sound.pointBucket {d : ℕ} {idx : ℕ} {i : ℕ} (hs : s.Sound pt) : (State.pointBucket s d idx i).Sound pt :=
  .ite hs.setTbl ((Sound.ite hs.setTbl.setF hs.setTbl).setF)

theorem State.Sound.poolTouch {d : ℕ} {i : ℕ} (hs : s.Sound pt) : (State.poolTouch s d i).Sound pt :=
  .ite hs.setF (.ite hs.setF.setSlice.bump (.ite hs.setF.setSlice hs.setF))

theorem State.Sound.freeBuf {k : Pkt} (hs : s.Sound pt) : (State.freeBuf s k).Sound pt :=
  hs.setF.peak

theorem State.Sound.steerDrop {d : ℕ} {k : Pkt} (hs : s.Sound pt) : (State.steerDrop s d k).Sound pt :=
  (Sound.ite hs.freeBuf hs).bump

theorem State.Sound.place {d : ℕ} {i : ℕ} {k : Pkt} (hs : s.Sound pt) : (State.place s d i k).Sound pt :=
  .ite hs.steerDrop (.ite (.ite hs.freeBuf.bump.setInt hs.steerDrop) hs.setSlice.poolTouch)

theorem State.Sound.toBucket {d : ℕ} {k : Pkt} (hs : s.Sound pt) : (State.toBucket s d k).Sound pt :=
  by unfold State.toBucket; exact (by split; exacts [hs.setMove, hs.place])

theorem State.Sound.steerEnqueue {p : ℕ} {beyond : Bool} (hs : s.Sound pt) : (State.steerEnqueue s p beyond).Sound pt :=
  by unfold State.steerEnqueue; exact (by split; exacts [hs, .ite hs.other.bump.setInt (.ite hs.other.bump hs.other.setF.peak.toBucket)])

theorem State.Sound.abortTest {d : ℕ} {i : ℕ} (hs : s.Sound pt) : (State.abortTest s d i).Sound pt :=
  .ite hs.setF.setF.setInt hs

theorem State.Sound.startTest {d : ℕ} {i : ℕ} (hs : s.Sound pt) : (State.startTest s d i).Sound pt :=
  .ite hs.setF hs.setInt

theorem State.Sound.receiveBucket {d : ℕ} {i : ℕ} (hs : s.Sound pt) : (State.receiveBucket s d i).Sound pt :=
  .ite hs.abortTest.setRole hs.abortTest

theorem State.Sound.evacEnd {d : ℕ} {done : Bool} (hs : s.Sound pt) : (State.evacEnd s d done).Sound pt :=
  hs.setEvac.setF.setF.setInt

theorem State.Sound.moveRefuse {d : ℕ} {code : ℕ} (hs : s.Sound pt) : (State.moveRefuse s d code).Sound pt :=
  hs.setF.setF.setInt

theorem State.Sound.moveAccept {d : ℕ} {idx : ℕ} {target : ℕ} {start : ℕ} {byEvac : Bool} (hs : s.Sound pt) : (State.moveAccept s d idx target start byEvac).Sound pt :=
  hs.setMove.wr

theorem State.Sound.steerMove {clk : ℕ} {v : ℕ} (hs : s.Sound pt) : (State.steerMove s clk v).Sound pt :=
  .ite hs (.ite hs.moveRefuse hs.moveAccept)

theorem State.Sound.moveEnd {d : ℕ} {result : ℕ} (hs : s.Sound pt) : (State.moveEnd s d result).Sound pt :=
  hs.setMove.setF.setF

theorem State.Sound.moveVoid {d : ℕ} {i : ℕ} (hs : s.Sound pt) : (State.moveVoid s d i).Sound pt :=
  by unfold State.moveVoid; exact (by split; exacts [hs, .ite hs.moveEnd hs])

theorem State.Sound.moveStart {d : ℕ} (hs : s.Sound pt) : (State.moveStart s d).Sound pt :=
  by unfold State.moveStart; exact (by split; exacts [hs, .ite hs (.ite hs.moveVoid hs.setTbl.setSlice.setMove.abortTest)])

theorem State.Sound.evacMoved {d : ℕ} {moved : Bool} (hs : s.Sound pt) : (State.evacMoved s d moved).Sound pt :=
  by unfold State.evacMoved; exact (by split; exacts [hs, have h1 := Sound.ite hs.setF hs; .ite h1.evacEnd (.ite h1.evacEnd h1)])

theorem State.Sound.unmark {d : ℕ} {i : ℕ} (hs : s.Sound pt) : (State.unmark s d i).Sound pt :=
  hs.setSlice

theorem State.Sound.moveDone {d : ℕ} (hs : s.Sound pt) : (State.moveDone s d).Sound pt :=
  by unfold State.moveDone; exact (by split; exacts [hs, .ite hs (have h1 := (Sound.foldl hs.unmark.moveEnd.pointBucket.receiveBucket fun h2 => h2.place).bump.setInt; .ite h1.evacMoved h1)])

theorem State.Sound.steerEvac {v : ℕ} (hs : s.Sound pt) : (State.steerEvac s v).Sound pt :=
  .ite ((Sound.ite hs ((by split; exacts [hs, (by split; exacts [hs.setEvac, hs.evacEnd])])))) (.ite ((Sound.ite hs ((by split; exacts [hs, (by split; exacts [hs.setEvac, hs.evacEnd])]))).moveRefuse) ((Sound.ite hs ((by split; exacts [hs, (by split; exacts [hs.setEvac, hs.evacEnd])]))).setEvac.wr))

theorem State.Sound.evacNext {d : ℕ} (hs : s.Sound pt) : (State.evacNext s d).Sound pt :=
  by unfold State.evacNext; exact (by split; exacts [.ite hs.evacEnd (.ite hs ((by split; exacts [hs.setF.evacEnd, hs.setEvac.setF.moveAccept.moveStart]))), hs])

theorem State.Sound.fenceMove {d : ℕ} {i : ℕ} (hs : s.Sound pt) : (State.fenceMove s d i).Sound pt :=
  by unfold State.fenceMove; exact (by split; exacts [hs, .ite hs (have h1 := hs.unmark.moveEnd; have h2 := Sound.ite h1 h1.pointBucket.setTbl.setSlice; .ite h2.evacMoved h2)])

theorem State.Sound.fenceEvac {d : ℕ} {i : ℕ} (hs : s.Sound pt) : (State.fenceEvac s d i).Sound pt :=
  by unfold State.fenceEvac; exact (by split; exacts [.ite hs.evacEnd hs, hs])

theorem State.Sound.dropInside {d : ℕ} {i : ℕ} (hs : s.Sound pt) : (State.dropInside s d i).Sound pt :=
  have h1 := hs.setSlice.bump
  (Sound.ite (.foldl h1 fun h2 => h2.freeBuf) h1).killCtxs

theorem State.Sound.fence {d : ℕ} {i : ℕ} (hs : s.Sound pt) : (State.fence s d i).Sound pt :=
  hs.abortTest.setRole.dropInside.fenceMove.fenceEvac.setSlice.bump.setInt.log

theorem State.Sound.sliceFault {d : ℕ} {i : ℕ} {src : ℕ} (hs : s.Sound pt) : (State.sliceFault s d i src).Sound pt :=
  .ite hs (.ite (.ite hs.wr.setInt hs.wr.setInt.fence) hs.wr.setInt.bump)

theorem State.Sound.takeWaiting {d : ℕ} {i : ℕ} (hs : s.Sound pt) : ((State.takeWaiting s d i).1).Sound pt :=
  hs.setSlice.poolTouch

theorem State.Sound.dealBuckets {d : ℕ} {i : ℕ} {tgts : List ℕ} (hs : s.Sound pt) : (State.dealBuckets s d i tgts).Sound pt :=
  have h1 := Sound.foldl hs fun h2 => h2.pointBucket
  .foldl ((Sound.ite h1 (.foldl h1 fun h3 => h3.receiveBucket)).takeWaiting) fun h4 => .ite h4.steerDrop h4.place

theorem State.Sound.unpause {d : ℕ} {i : ℕ} (hs : s.Sound pt) : (State.unpause s d i).Sound pt :=
  .foldl hs fun h1 => h1.setTbl

theorem State.Sound.fenceRehome {d : ℕ} {i : ℕ} (hs : s.Sound pt) : (State.fenceRehome s d i).Sound pt :=
  .ite hs ((by dsimp only; split; exacts [hs.moveVoid.dealBuckets, .ite hs.moveVoid.setInt.dealBuckets (.ite hs.moveVoid.setInt.takeWaiting (.foldl hs.moveVoid.setInt.unpause.takeWaiting.setSlice fun h1 => h1.steerDrop))]))

theorem State.Sound.relieve {d : ℕ} {j : ℕ} (hs : s.Sound pt) : (State.relieve s d j).Sound pt :=
  .foldl hs fun h1 => .ite h1.dealBuckets h1

theorem State.Sound.roleWrite {d : ℕ} {i : ℕ} {new : ℕ} (hs : s.Sound pt) : (State.roleWrite s d i new).Sound pt :=
  .ite hs (.ite hs.setInt (.ite hs.abortTest.setRole.setF hs.setRole.relieve))

theorem State.Sound.sliceCtrl {d : ℕ} {i : ℕ} {v : ℕ} (hs : s.Sound pt) : (State.sliceCtrl s d i v).Sound pt :=
  have h1 := Sound.ite hs.setF.roleWrite.startTest hs.setF.roleWrite
  .ite h1.sliceFault h1

theorem State.Sound.onSliceCtrl {a : Acc} {d : ℕ} {i : ℕ} {v : ℕ} (hs : s.Sound pt) : (State.onSliceCtrl s a d i v).Sound pt :=
  .ite (hs.onWrite fun h1 => h1.sliceCtrl) hs

theorem State.Sound.testPeriodic {d : ℕ} {i : ℕ} (hs : s.Sound pt) : (State.testPeriodic s d i).Sound pt :=
  .ite hs.startTest hs

theorem State.Sound.testDone {d : ℕ} {i : ℕ} {pass : Bool} (hs : s.Sound pt) : (State.testDone s d i pass).Sound pt :=
  .ite hs (have h1 := hs.setF.setF.setInt; .ite h1 h1.sliceFault)

theorem State.Sound.steerTblWrite {d : ℕ} {idx : ℕ} {slice : ℕ} (hs : s.Sound pt) : ((State.steerTblWrite s d idx slice).1).Sound pt :=
  .iteFst hs (.iteFst hs hs.pointBucket.receiveBucket)

theorem State.Sound.ceCount {die : ℕ} {cls : ℕ} (hs : s.Sound pt) : (State.ceCount s die cls).Sound pt :=
  .ite hs.other.bump.wr.setInt hs.other.bump

theorem State.Sound.logUncorr {pg : ℕ} {cls : ℕ} (hs : s.Sound pt) : (State.logUncorr s pg cls).Sound pt :=
  .ite hs hs.other.log

theorem State.Sound.meetErr {pg : ℕ} {cls : ℕ} {mem : ℕ} {word : ℕ} {e0 : WordErr} {sinter : Bool} (hs : s.Sound pt) : (State.meetErr s pg cls mem word e0 sinter).Sound pt :=
  .ite hs (have h1 := Sound.ite hs.bump hs; .ite h1.ceCount.captureErr (.ite h1.bump.captureErr.logUncorr h1.bump.captureErr))

theorem State.Sound.dataErr {pg : ℕ} {cls : ℕ} {e : Option MemErr} (hs : s.Sound pt) : ((State.dataErr s pg cls e).1).Sound pt :=
  by unfold State.dataErr; exact (by split; exacts [hs, hs.meetErr])

theorem State.Sound.readWord {pg : ℕ} {cls : ℕ} {mem : ℕ} {addr : ℕ} (hs : s.Sound pt) : ((State.readWord s pg cls mem addr).1).Sound pt :=
  hs.meetErr

theorem State.Sound.readWords {pg : ℕ} {cls : ℕ} {mem : ℕ} {addr : ℕ} {x : ℕ} (hs : s.Sound pt) : ((State.readWords s pg cls mem addr x).1).Sound pt := by
  induction x generalizing s pg cls mem addr with
  | zero => exact hs
  | succ x ih => exact (ih hs.readWord)

theorem State.Sound.wroteWord {pg : ℕ} {mem : ℕ} {addr : ℕ} (hs : s.Sound pt) : (State.wroteWord s pg mem addr).Sound pt :=
  .ite hs.setMark.draw.wr hs.setMark

theorem State.Sound.wroteWords {pg : ℕ} {mem : ℕ} {addr : ℕ} {x : ℕ} (hs : s.Sound pt) : (State.wroteWords s pg mem addr x).Sound pt := by
  induction x generalizing s pg mem addr with
  | zero => exact hs
  | succ x ih => exact (ih hs.wroteWord)

theorem State.Sound.getEntry {pg : ℕ} {cls : ℕ} {t' : ℕ} {i : ℕ} {n : ℕ} (hs : s.Sound pt) : ((State.getEntry s pg cls t' i n).1).Sound pt :=
  hs.readWords

theorem State.Sound.putEntry {pg : ℕ} {t' : ℕ} {i : ℕ} {n : ℕ} {v : ℕ} (hs : s.Sound pt) : (State.putEntry s pg t' i n v).Sound pt :=
  hs.setTbl.wroteWords

theorem State.Sound.rwRequest {cls : ℕ} {mem : ℕ} {addr : ℕ} (hs : s.Sound pt) : (State.rwRequest s cls mem addr).Sound pt :=
  .ite hs.bump.setInt hs.other.setIntIf

theorem State.Sound.setRank {k : ℕ} {r : ℕ} {lo : ℕ} {w : ℕ} {x : ℕ} (hs : s.Sound pt) : (State.setRank s k r lo w x).Sound pt :=
  hs.setTf

theorem State.Sound.setBufPages (hs : s.Sound pt) : (State.setBufPages s).Sound pt :=
  hs.wr.setFree

theorem State.Sound.hbmRead {cls : ℕ} {o : ℕ} (hs : s.Sound pt) : ((State.hbmRead s cls o).1).Sound pt :=
  hs.readWord

theorem State.Sound.hbmWrite {o : ℕ} {v : ℕ} (hs : s.Sound pt) : (State.hbmWrite s o v).Sound pt :=
  .foldl hs.other fun h1 => .ite h1.setMark h1.wroteWord

theorem State.Sound.hbmNarrow {cls : ℕ} {o : ℕ} {v : ℕ} (hs : s.Sound pt) : (State.hbmNarrow s cls o v).Sound pt :=
  .foldl hs.hbmWrite fun h1 => .ite h1.setMark.bump h1

theorem State.Sound.hbmReads {cls : ℕ} {o : ℕ} {x : ℕ} (hs : s.Sound pt) : ((State.hbmReads s cls o x).1).Sound pt := by
  induction x generalizing s cls o with
  | zero => exact hs
  | succ x ih => exact (ih hs.hbmRead)

theorem State.Sound.hbmWrites {o : ℕ} {v : ℕ} {x : ℕ} (hs : s.Sound pt) : (State.hbmWrites s o v x).Sound pt := by
  induction x generalizing s o v with
  | zero => exact hs
  | succ x ih => exact (ih hs.hbmWrite)

theorem State.Sound.emWrote {n : ℕ} (hs : s.Sound pt) : (State.emWrote s n).Sound pt :=
  hs.bump64

theorem State.Sound.hbmCount {k : ℕ} (hs : s.Sound pt) : (State.hbmCount s k).Sound pt :=
  hs.setF.setF.setF

theorem State.Sound.setSr {k : ℕ} {r : ℕ} {on : Bool} (hs : s.Sound pt) : (State.setSr s k r on).Sound pt :=
  (Sound.ite hs.bump hs).setRank

theorem State.Sound.migRecord {k : ℕ} (hs : s.Sound pt) : (State.migRecord s k).Sound pt :=
  hs.other.emWrote

theorem State.Sound.migAbort {k : ℕ} (hs : s.Sound pt) : (State.migAbort s k).Sound pt :=
  .ite hs hs.setRank.setRank.setSr.setF.setF.other.hbmCount.setInt

theorem State.Sound.candidate {k : ℕ} {r : ℕ} (hs : s.Sound pt) : (State.candidate s k r).Sound pt :=
  .ite hs (have h1 := hs.setRank.hbmCount.setInt; .ite h1.migAbort h1)

theorem State.Sound.hbmTemp {k : ℕ} {temp : ℕ} (hs : s.Sound pt) : (State.hbmTemp s k temp).Sound pt :=
  hs.setF.setF.setIntIf

theorem State.Sound.refreshDue {k : ℕ} {r : ℕ} {temp : ℕ} (hs : s.Sound pt) : (State.refreshDue s k r temp).Sound pt :=
  .ite hs (.ite hs.hbmTemp (.ite hs.hbmTemp.other.bump.setInt (.ite hs.hbmTemp.setRank.bump hs.hbmTemp)))

theorem State.Sound.geyserDone {k : ℕ} {r : ℕ} (hs : s.Sound pt) : (State.geyserDone s k r).Sound pt :=
  .ite hs hs.other.setRank

theorem State.Sound.geyserLight {k : ℕ} {r : ℕ} {n : ℕ} (hs : s.Sound pt) : (State.geyserLight s k r n).Sound pt :=
  .ite hs hs.setRank.bump

theorem State.Sound.hbmRequest {who : ℕ} {off : ℕ} {bank : ℕ} {write : Bool} {data : ℕ} {clk : ℕ} (hs : s.Sound pt) : (State.hbmRequest s who off bank write data clk).Sound pt :=
  .ite hs (.ite (.ite hs.bump hs) (.ite (.ite hs.other.bump hs.other) (.ite hs.bump hs)))

theorem State.Sound.moveBurst {x : HbmReq} (hs : s.Sound pt) : (State.moveBurst s x).Sound pt := by
  unfold State.moveBurst
  dsimp only
  exact .ite hs.hbmWrites (Sound.other (s := (s.hbmReads _ x.off 2).1) hs.hbmReads)

theorem State.Sound.burstIssue {k : ℕ} {ch : ℕ} {clk : ℕ} (hs : s.Sound pt) : (State.burstIssue s k ch clk).Sound pt :=
  .ite hs ((by split; exacts [hs, (by dsimp only; split; exacts [hs, hs.other.moveBurst])]))

theorem State.Sound.srEntry {k : ℕ} {r : ℕ} (hs : s.Sound pt) : (State.srEntry s k r).Sound pt :=
  .ite hs.setSr.hbmCount hs

theorem State.Sound.srExit {k : ℕ} {r : ℕ} (hs : s.Sound pt) : (State.srExit s k r).Sound pt :=
  .ite hs.setSr.hbmCount hs

theorem State.Sound.assignRanks {k : ℕ} (hs : s.Sound pt) : (State.assignRanks s k).Sound pt :=
  .foldl ((Sound.foldl hs fun h1 => h1.setTf)) fun h2 => h2.setTf

theorem State.Sound.hbmStart {k : ℕ} (hs : s.Sound pt) : (State.hbmStart s k).Sound pt :=
  .ite hs (.ite (have h1 := (Sound.foldl hs.setF.setF fun h2 => .ite h2 h2.setSr).other.setF.hbmCount; .ite h1.migRecord h1) hs.setF.setF.other)

theorem State.Sound.hbmEnable {k : ℕ} {on : Bool} (hs : s.Sound pt) : (State.hbmEnable s k on).Sound pt :=
  .ite hs (.ite hs.wr ((Sound.foldl hs.wr fun h1 => .ite h1.setSr h1).hbmCount))

theorem State.Sound.failRank {k : ℕ} {r : ℕ} (hs : s.Sound pt) : (State.failRank s k r).Sound pt := by
  unfold State.failRank
  extract_lets was slot s1 s2
  have h1 : s1.Sound pt := hs.setTf
  have h2 : s2.Sound pt := h1.other
  refine .ite hs (.ite h1 ?_)
  split
  · exact h2
  · exact h2.setTf

theorem State.Sound.hbmTrained {k : ℕ} {failed : List ℕ} {avail : List ℕ} (hs : s.Sound pt) : (State.hbmTrained s k failed avail).Sound pt :=
  .ite hs (have h1 := Sound.foldl ((Sound.foldl ((Sound.foldl
    ((Sound.ite hs hs.assignRanks)) fun h2 => h2.failRank).setF) fun h3 => h3.setRank)) fun h4 => .ite h4.wr h4.wr.draw; .ite h1.other.setF.wr.setFree.hbmCount.setInt (.ite ((Sound.foldl h1.other.setF fun h5 => .ite h5.setSr h5).hbmCount) h1.other.setF.setBufPages.hbmCount))

theorem State.Sound.retrainChannel {k : ℕ} {ch : ℕ} {ok : Bool} (hs : s.Sound pt) : (State.retrainChannel s k ch ok).Sound pt :=
  .ite hs (have h1 := Sound.ite hs.bump.setF.setF.draw hs.bump.setF; have h2 := Sound.ite h1.wr h1; .ite h2.other
    (have h3 := h2.other.bump.setInt; .ite h3.candidate.candidate h3))

theorem State.Sound.rowRepair {k : ℕ} {r : ℕ} {row : ℕ} {words : List ℕ} {bankHas : Bool} {avail : ℕ} (hs : s.Sound pt) : (State.rowRepair s k r row words bankHas avail).Sound pt :=
  .ite hs (.ite hs.other (.ite (.ite hs.other.bump.candidate hs.other.bump) (have h1 :=
    (Sound.foldl hs.other fun h2 => h2.setMark).other.emWrote.bump.setInt.setRank.setRank.setRank; .ite h1.log.candidate h1.log)))

theorem State.Sound.migStart {k : ℕ} {src : ℕ} {tgt : ℕ} (hs : s.Sound pt) : (State.migStart s k src tgt).Sound pt :=
  hs.setRank.setRank.setRank.setSr.wr.wr.hbmCount

theorem State.Sound.migCmd {v : ℕ} (hs : s.Sound pt) : (State.migCmd s v).Sound pt :=
  have h1 := Sound.ite hs.migAbort hs
  .ite h1 (.ite h1.migStart h1.setF.setF.setInt.setIntIf)

theorem State.Sound.autoMig {k : ℕ} (hs : s.Sound pt) : (State.autoMig s k).Sound pt :=
  .ite hs ((by split; exacts [hs, (by split; exacts [hs.setInt, hs.migStart])]))

theorem State.Sound.migChunk {k : ℕ} (hs : s.Sound pt) : (State.migChunk s k).Sound pt :=
  .ite hs (have h1 := Sound.foldl ((Sound.foldl hs fun h2 => h2.meetErr)) fun h3 => h3.setMark; .ite h1.bumpIf.setF.migRecord h1.bumpIf.setF)

theorem State.Sound.migDone {k : ℕ} (hs : s.Sound pt) : (State.migDone s k).Sound pt :=
  .ite hs hs.setRank.setRank.setTf.setSr.setF.setF.bump.other.hbmCount.setInt.log

theorem State.Sound.touch {pg : ℕ} {cls : ℕ} {mem : ℕ} {addrs : List ℕ} (hs : s.Sound pt) : (State.touch s pg cls mem addrs).Sound pt :=
  .foldl hs fun h1 => h1.meetErr

theorem State.Sound.parse {old : Bool} {b : List Byte} {start : ℕ} (hs : s.Sound pt) : ((State.parse s old b start).1).Sound pt :=
  have h1 := Sound.ite hs.touch.touch hs.touch
  (Sound.ite h1 h1.bump).bumpIf

theorem State.Sound.addPending {pg : ℕ} (hs : s.Sound pt) : (State.addPending s pg).Sound pt :=
  .ite hs hs.other

theorem State.Sound.classLogStat (hs : s.Sound pt) : (State.classLogStat s).Sound pt :=
  hs.setF.setF

theorem State.Sound.classLogRefuse (hs : s.Sound pt) : (State.classLogRefuse s).Sound pt :=
  hs.bump.setInt

theorem State.Sound.classLogAdd {kind : ℕ} {idx : ℕ} (hs : s.Sound pt) : (State.classLogAdd s kind idx).Sound pt :=
  hs.other.classLogStat.addPending

theorem State.Sound.classLogMove {kind : ℕ} {from' : ℕ} {to' : ℕ} (hs : s.Sound pt) : (State.classLogMove s kind from' to').Sound pt :=
  hs.other

theorem State.Sound.exmPut {c : ExmCfg} {i : ℕ} {v : ℕ} (hs : s.Sound pt) : (State.exmPut s c i v).Sound pt :=
  .ite hs.hbmWrites (.foldl hs fun h1 => h1.setTbl.wroteWord)

theorem State.Sound.exmClear {c : ExmCfg} {i : ℕ} (hs : s.Sound pt) : (State.exmClear s c i).Sound pt :=
  hs.exmPut

theorem State.Sound.exmTouch {c : ExmCfg} {key : ℕ} (hs : s.Sound pt) : (State.exmTouch s c key).Sound pt :=
  .ite hs (have h1 := Sound.foldl hs fun h2 => .foldl h2 fun h3 => h3.meetErr; .ite h1.bump.setInt h1)

theorem State.Sound.exmLookup {t' : ℕ} {r : ℕ} {key : ℕ} (hs : s.Sound pt) : ((State.exmLookup s t' r key).1).Sound pt :=
  .iteFst hs hs.exmTouch

theorem State.Sound.exmUsed {c : ExmCfg} {up : Bool} (hs : s.Sound pt) : (State.exmUsed s c up).Sound pt :=
  .ite hs.setF.setF hs.setF

theorem State.Sound.exmRelocate {c : ExmCfg} {chain : List ℕ} {free : ℕ} (hs : s.Sound pt) : ((State.exmRelocate s c chain free).1).Sound pt :=
  .foldlFst hs fun h1 => have h2 := h1.exmPut.exmClear.bump; .ite h2.classLogMove h2

theorem State.Sound.exmInsert {c : ExmCfg} {key e : ℕ} {x : State × ℕ × ℕ} (hs : s.Sound pt) (h : s.exmInsert c key e = some x) : x.1.Sound pt := by
  unfold State.exmInsert at h
  split at h
  · cases h
  next chain free _ =>
    dsimp only at h
    injection h with h
    subst h
    exact .ite hs.exmRelocate.exmPut hs.exmRelocate.exmPut.exmUsed

theorem State.Sound.exmFree {c : ExmCfg} {i : ℕ} (hs : s.Sound pt) : (State.exmFree s c i).Sound pt :=
  hs.exmClear.exmUsed

theorem State.Sound.exmCmdInsert {c : ExmCfg} {data : ℕ} (hs : s.Sound pt) : (State.exmCmdInsert s c data).1.Sound pt := by
  unfold State.exmCmdInsert
  extract_lets key ver r
  refine .iteFst hs ?_
  split
  · refine .iteFst ?_ hs
    exact .iteFst hs.classLogRefuse hs.exmPut.classLogAdd
  · refine .iteFst hs.classLogRefuse ?_
    refine .iteFst hs.bump ?_
    split
    · exact hs.bump
    next s1 i m e1 => exact .ite (hs.exmInsert e1).classLogAdd (hs.exmInsert e1)

theorem State.Sound.exmCmdWrite {c : ExmCfg} {data : ℕ} (hs : s.Sound pt) : ((State.exmCmdWrite s c data).1).Sound pt :=
  .iteFst hs ((by dsimp only; split; exacts [hs, .iteFst hs.exmPut (.iteFst hs (.iteFst hs.classLogRefuse hs.exmPut.classLogAdd))]))

theorem State.Sound.exmDelete {c : ExmCfg} {i : ℕ} (hs : s.Sound pt) : (State.exmDelete s c i).Sound pt :=
  .ite hs.exmFree (.ite hs.classLogAdd.exmFree hs.classLogAdd.exmPut)

theorem State.Sound.exmCmdDelete {c : ExmCfg} {data : ℕ} (hs : s.Sound pt) : ((State.exmCmdDelete s c data).1).Sound pt :=
  by unfold State.exmCmdDelete; exact (by dsimp only; split; exacts [hs, .iteFst hs.classLogRefuse hs.exmDelete])

theorem State.Sound.exmCmdFlush {c : ExmCfg} {data : ℕ} (hs : s.Sound pt) : ((State.exmCmdFlush s c data).1).Sound pt :=
  .iteFst hs.classLogRefuse (.foldl hs fun h1 => h1.exmDelete)

theorem State.Sound.exmCmdRead {c : ExmCfg} {i : ℕ} (hs : s.Sound pt) : ((State.exmCmdRead s c i).1).Sound pt :=
  .iteFst hs (have h1 := Sound.foldl hs fun h2 => h2.meetErr; .iteFst h1.draw h1)

theorem State.Sound.exmCmdSearch {c : ExmCfg} {data : ℕ} (hs : s.Sound pt) : ((State.exmCmdSearch s c data).1).Sound pt :=
  by unfold State.exmCmdSearch; exact (by dsimp only; split; exacts [hs.exmTouch, hs.exmTouch])

theorem State.Sound.lateTbl (hs : s.Sound pt) : ((State.lateTbl s).1).Sound pt :=
  hs.lateWrite

theorem State.Sound.exmCmd {op : ℕ} {addr : ℕ} {data : ℕ} (hs : s.Sound pt) : ((State.exmCmd s op addr data).1).Sound pt :=
  .iteFst hs (.iteFst hs (.iteFst hs.lateTbl ((by split; exacts [hs.exmCmdRead, hs.exmCmdWrite, hs.exmCmdInsert, hs.exmCmdDelete, hs.exmCmdSearch, hs.exmCmdFlush, hs]))))

theorem State.Sound.exmWalk {t' : ℕ} {i : ℕ} (hs : s.Sound pt) : (State.exmWalk s t' i).Sound pt :=
  .ite hs ((by split; exacts [hs.exmFree, hs.exmPut]))

theorem State.Sound.pairRead {n : ℕ} (hs : s.Sound pt) : ((State.pairRead s n).1).Sound pt :=
  hs.hbmRead

theorem State.Sound.pairUpdate {x : FlowInc} (hs : s.Sound pt) : (State.pairUpdate s x).Sound pt :=
  .ite hs.bump ((by split; exacts [hs.pairRead.hbmNarrow, hs.pairRead.bump.hbmNarrow]))

theorem State.Sound.flowCount {n : ℕ} {len : ℕ} (hs : s.Sound pt) : (State.flowCount s n len).Sound pt :=
  by unfold State.flowCount; exact (by dsimp only; split; exacts [hs.other, .ite hs.other ((by split; exacts [hs, .ite hs.other hs.bump.setInt]))])

theorem State.Sound.flowWriteback (hs : s.Sound pt) : (State.flowWriteback s).Sound pt :=
  by unfold State.flowWriteback; exact (by split; exacts [hs.other.pairUpdate, (by split; exacts [hs.other.pairUpdate, hs])])

theorem State.Sound.flowForget {first : ℕ} {n : ℕ} (hs : s.Sound pt) : (State.flowForget s first n).Sound pt :=
  hs.other

theorem State.Sound.flowZero {first : ℕ} {n : ℕ} (hs : s.Sound pt) : (State.flowZero s first n).Sound pt :=
  (Sound.foldl hs fun h1 => h1.hbmWrite).flowForget

theorem State.Sound.flowCmd {op : ℕ} {addr : ℕ} {data : ℕ} (hs : s.Sound pt) : ((State.flowCmd s op addr data).1).Sound pt :=
  .iteFst (.iteFst hs hs.flowZero) (.iteFst hs (.iteFst hs (.iteFst hs.hbmWrite.flowForget ((by dsimp only; split; exacts [hs.pairRead, hs.pairRead])))))

theorem State.Sound.setVoq {v : ℕ} {x : VoqSt} (hs : s.Sound pt) : (State.setVoq s v x).Sound pt :=
  hs.other.wr.wr.wr

theorem State.Sound.cald {arr : ℤ} {lossy : ℤ} {lossless : ℤ} (hs : s.Sound pt) : (State.cald s arr lossy lossless).Sound pt :=
  hs.wr.wr.wr.wr.peak.setIntIf.other

theorem State.Sound.caldClasses {l : List Bool} {sign : ℤ} (hs : s.Sound pt) : (State.caldClasses s l sign).Sound pt :=
  .ite hs hs.cald

theorem State.Sound.srcUp {k : ℕ} {n : ℕ} (hs : s.Sound pt) : (State.srcUp s k n).Sound pt :=
  .ite hs.setTf.setTf.bump.setInt hs.setTf

theorem State.Sound.srcDown {src : Option ℕ} {n : ℕ} (hs : s.Sound pt) : (State.srcDown s src n).Sound pt :=
  by unfold State.srcDown; exact (by split; exacts [hs, .ite hs.setTf.setTf hs.setTf])

theorem State.Sound.pagesFree {d : ℤ} (hs : s.Sound pt) : (State.pagesFree s d).Sound pt :=
  hs.setFree

theorem State.Sound.putVoq {v : ℕ} {x : VoqSt} (hs : s.Sound pt) : (State.putVoq s v x).Sound pt :=
  hs.setVoq

theorem State.Sound.voqFree {v : ℕ} {n : ℕ} {done : Bool} (hs : s.Sound pt) : (State.voqFree s v n done).Sound pt :=
  by unfold State.voqFree; exact (by dsimp only; split; exacts [hs, hs.caldClasses.pagesFree.srcDown.putVoq])

theorem State.Sound.voqDrop {v : ℕ} (hs : s.Sound pt) : (State.voqDrop s v).Sound pt :=
  by unfold State.voqDrop; exact (by split; exacts [hs, hs.voqFree])

theorem State.Sound.poisonDrop (hs : s.Sound pt) : (State.poisonDrop s).Sound pt :=
  hs.bump.setInt

theorem State.Sound.linkWrite {n : ℕ} {link : ℕ} (hs : s.Sound pt) : (State.linkWrite s n link).Sound pt :=
  hs.hbmWrite.hbmWrite

theorem State.Sound.pageWrite {v : ℕ} {n : ℕ} {cells : List (List Byte × Bool × Bool)} (hs : s.Sound pt) : (State.pageWrite s v n cells).Sound pt :=
  .ite hs.hbmWrites.linkWrite hs.hbmWrites.linkWrite.hbmWrites

theorem State.Sound.linkNext {n : ℕ} {next : ℕ} (hs : s.Sound pt) : (State.linkNext s n next).Sound pt :=
  hs.linkWrite

theorem State.Sound.linkRead {n : ℕ} (hs : s.Sound pt) : ((State.linkRead s n).1).Sound pt :=
  .iteFst hs.hbmRead hs.hbmRead.hbmRead

theorem State.Sound.badWords {o : ℕ} {x : ℕ} (hs : s.Sound pt) : ((State.badWords s o x).1).Sound pt := by
  induction x generalizing s o with
  | zero => exact hs
  | succ x ih => exact ((ih hs)).hbmRead

theorem State.Sound.pageRead {n : ℕ} (hs : s.Sound pt) : ((State.pageRead s n).1).Sound pt := by
  unfold State.pageRead
  exact .iteFst hs.badWords hs.badWords.badWords

theorem State.Sound.spillWrite {v n : ℕ} (hs : s.Sound pt) : (State.spillWrite s v n).Sound pt := by
  unfold State.spillWrite
  extract_lets x k b s1 s2 s3 s4
  have h2 : s2.Sound pt := by
    dsimp only [s2]
    split
    · exact hs.pageWrite.linkNext
    · exact hs.pageWrite
  exact .ite hs h2.caldClasses.pagesFree.bump.bumpIf.putVoq

theorem State.Sound.pageLost {v : ℕ} (hs : s.Sound pt) : (State.pageLost s v).Sound pt :=
  (Sound.foldl ((Sound.foldlFst hs fun h1 => h1.srcDown)) fun h2 => h2.poisonDrop).other.wr.bump.pagesFree.setInt.putVoq

theorem State.Sound.pageReturn {v : ℕ} (hs : s.Sound pt) : (State.pageReturn s v).Sound pt :=
  by unfold State.pageReturn; exact (by dsimp only; split; exacts [hs, .ite hs (.ite hs.linkRead.pageLost (have h1 := hs.linkRead.pageRead.bumpIf; (Sound.ite h1.bump.setInt h1).caldClasses.pagesFree.bump.putVoq))])

theorem State.Sound.nopageTick (hs : s.Sound pt) : (State.nopageTick s).Sound pt :=
  .ite hs.bump.setInt hs

theorem State.Sound.drainLinks {x : List ℕ} (hs : s.Sound pt) : ((State.drainLinks s x).1).Sound pt := by
  induction x generalizing s with
  | nil => exact hs
  | cons x x ih => exact .iteFst ((ih hs.linkRead)) hs.linkRead

theorem State.Sound.staleDrain (hs : s.Sound pt) : (State.staleDrain s).Sound pt :=
  by unfold State.staleDrain; exact (by split; exacts [hs, (by split; exacts [hs, .ite hs.drainLinks.voqDrop.bump.setInt hs.drainLinks.pageLost])])

theorem State.Sound.voqLose {v : ℕ} (hs : s.Sound pt) : (State.voqLose s v).Sound pt :=
  hs.setVoq.other

theorem State.Sound.voqWipe {v : ℕ} (hs : s.Sound pt) : (State.voqWipe s v).Sound pt :=
  .foldl hs fun h1 => (Sound.foldl h1.other fun h2 => h2.srcDown).caldClasses.pagesFree

theorem State.Sound.staleGrants {sport : ℕ} (hs : s.Sound pt) : (State.staleGrants s sport).Sound pt :=
  .foldl hs fun h1 => .ite h1 h1.setVoq

theorem State.Sound.destWrite {i : ℕ} {new : ℕ} (hs : s.Sound pt) : ((State.destWrite s i new).1).Sound pt :=
  .iteFst hs (.ite hs.setTbl hs.setTbl.staleGrants)

theorem State.Sound.voqCmd {op : ℕ} {addr : ℕ} {data : ℕ} (hs : s.Sound pt) : ((State.voqCmd s op addr data).1).Sound pt :=
  .iteFst (.iteFst hs (.iteFst hs hs)) (.iteFst hs (.iteFst hs (.iteFst hs.destWrite (.iteFst hs.destWrite hs))))

theorem State.Sound.setPol {i : ℕ} {x : PolLv} (hs : s.Sound pt) : (State.setPol s i x).Sound pt :=
  hs.other

theorem State.Sound.police {i : ℕ} {len : ℕ} {pre : ℕ} {now : ℕ} (hs : s.Sound pt) : ((State.police s i len pre now).1).Sound pt :=
  have h1 := hs.setPol.bump64
  .iteFst h1.bump.setInt h1

theorem State.Sound.polCmd {op : ℕ} {addr : ℕ} {data : ℕ} {now : ℕ} (hs : s.Sound pt) : ((State.polCmd s op addr data now).1).Sound pt :=
  .iteFst hs.setTbl.setPol (.iteFst hs (.iteFst hs (.iteFst hs hs.setTbl.setPol)))

theorem State.Sound.wredSeed {seed : ℕ} (hs : s.Sound pt) : (State.wredSeed s seed).Sound pt :=
  hs.other

theorem State.Sound.wred {v : ℕ} {color : ℕ} {q : ℕ} {lane : ℕ} (hs : s.Sound pt) : ((State.wred s v color q lane).1).Sound pt :=
  .iteFst hs (.iteFst hs hs.other)

theorem State.Sound.admChecks {r : AdmReq} (hs : s.Sound pt) : ((State.admChecks s r).1).Sound pt :=
  .iteFst hs (.iteFst hs (.iteFst hs (.iteFst hs hs.wred)))

theorem State.Sound.admDrop {lossless : Bool} {check : ℕ} (hs : s.Sound pt) : (State.admDrop s lossless check).Sound pt :=
  .ite hs.bump.setInt hs.bump

theorem State.Sound.join {r : AdmReq} {p : VPkt} (hs : s.Sound pt) : (State.join s r p).Sound pt := by
  unfold State.join
  extract_lets x y s1 s2 s3
  have h2 : s2.Sound pt := by
    dsimp only [s2]
    split
    · exact hs.caldClasses.bump64.srcUp
    · exact hs.caldClasses.bump64
  exact (Sound.ite h2 h2.other).putVoq

theorem State.Sound.setRing {r : ℕ} {x : RingSt} (hs : s.Sound pt) : (State.setRing s r x).Sound pt :=
  hs.other.setTf

theorem State.Sound.ringPuntDrop {r : ℕ} (hs : s.Sound pt) : (State.ringPuntDrop s r).Sound pt :=
  have h1 := hs.setTf.setInt
  .ite h1 h1.setOvfTbl

theorem State.Sound.puntPath {code : ℕ} {c : ℕ} {copy : Bool} {bytes : List Byte} (hs : s.Sound pt) : ((State.puntPath s code c copy bytes).1).Sound pt :=
  .iteFst hs.bump ((by split; exacts [hs.bump, .iteFst hs.ringPuntDrop hs.setRing.cald]))

theorem State.Sound.mirCopy {k : Pkt} {sess : ℕ} {now : ℕ} (hs : s.Sound pt) : ((State.mirCopy s k sess now).1).Sound pt :=
  .iteFst hs (.iteFst hs.bump.setInt hs.other.bump.cald)

theorem State.Sound.sampler {k : Pkt} (hs : s.Sound pt) : ((State.sampler s k).1).Sound pt :=
  .iteFst hs (.iteFst hs.other hs.other)

theorem State.Sound.copies {k : Pkt} {now : ℕ} (hs : s.Sound pt) : (State.copies s k now).Sound pt := by
  unfold State.copies
  refine .ite hs ?_
  split
  next s1 a e1 =>
  have h1 : s1.Sound pt := Sound.ofEq (.iteFst hs.mirCopy hs) e1
  split
  next s2 sess e2 =>
  have h2 : s2.Sound pt := h1.sampler.ofEq e2
  split
  next s3 b e3 =>
  have h3 : s3.Sound pt := by
    split at e3
    · exact h2.mirCopy.ofEq e3
    · exact h2.ofEq e3
  exact h3.other

theorem State.Sound.admitPkt {it : AdmItem} {injected : Bool} {cut : Bool} {now : ℕ} (hs : s.Sound pt) : ((State.admitPkt s it injected cut now).1).Sound pt :=
  .iteFst (.iteFst hs.police hs) (.iteFst ((Sound.iteFst hs.police hs).puntPath) (.iteFst
    (((Sound.iteFst hs.police hs).admChecks).admDrop) (.iteFst (.ite ((((Sound.iteFst hs.police hs).admChecks).puntPath).bump64)
    (((Sound.iteFst hs.police hs).admChecks).puntPath)) (have h1 := ((Sound.iteFst hs.police hs).admChecks).join; .ite h1.flowCount h1))))

theorem State.Sound.headArrival {clk : ℕ} (hs : s.Sound pt) : (State.headArrival s clk).Sound pt :=
  by unfold State.headArrival; exact (by split; exacts [hs, .ite hs.cald.other ((Sound.ite hs.cald.cald.admitPkt.bump.other hs.cald.cald.admitPkt.other).copies)])

theorem State.Sound.badTail (hs : s.Sound pt) : (State.badTail s).Sound pt :=
  hs.bump.setInt

theorem State.Sound.cutTail {k : Pkt} (hs : s.Sound pt) : (State.cutTail s k).Sound pt :=
  by unfold State.cutTail; exact (by dsimp only; split; exacts [.ite hs (.ite hs.voqDrop.badTail hs.setVoq), hs])

theorem State.Sound.admission {clk : ℕ} (hs : s.Sound pt) : (State.admission s clk).Sound pt :=
  by unfold State.admission; exact (by split; exacts [hs, .ite hs (.ite hs.other.cutTail (.ite hs.other.cald.badTail (.ite hs.other.cald.admitPkt hs.other.cald.admitPkt.copies)))])

theorem State.Sound.admCmd {op : ℕ} {addr : ℕ} {data : ℕ} (hs : s.Sound pt) : ((State.admCmd s op addr data).1).Sound pt :=
  .iteFst hs (.iteFst hs (.iteFst hs (.iteFst hs (.iteFst hs.clrTbl (.iteFst (.iteFst hs hs.setTbl) hs.setTbl)))))

theorem State.Sound.admCfgWrite {v : ℕ} (hs : s.Sound pt) : (State.admCfgWrite s v).Sound pt :=
  .ite hs.fieldWrite hs.fieldWrite.wredSeed

theorem State.Sound.pfcSend {p : ℕ} (hs : s.Sound pt) : (State.pfcSend s p).Sound pt :=
  hs.setLport.lpBump.emit

theorem State.Sound.pfcTx {p : ℕ} (hs : s.Sound pt) : (State.pfcTx s p).Sound pt :=
  .ite hs.pfcSend hs

theorem State.Sound.pfcRefresh {p : ℕ} (hs : s.Sound pt) : (State.pfcRefresh s p).Sound pt :=
  .ite hs.pfcSend hs

theorem State.Sound.holdExpiry {p : ℕ} (hs : s.Sound pt) : (State.holdExpiry s p).Sound pt :=
  .ite hs.lkRise.pfcSend hs.lkRise

theorem State.Sound.setWheel {w : Sparse ℕ} (hs : s.Sound pt) : (State.setWheel s w).Sound pt :=
  hs.other.wr

theorem State.Sound.setLevel {k : ℕ} {l : ℤ} (hs : s.Sound pt) : (State.setLevel s k l).Sound pt :=
  .ite hs.other.setWheel hs.other.setWheel

theorem State.Sound.shpCharge {len : ℕ} {k : ℕ} (hs : s.Sound pt) : (State.shpCharge s len k).Sound pt :=
  .ite hs.setLevel hs

theorem State.Sound.shaperRelease (hs : s.Sound pt) : (State.shaperRelease s).Sound pt :=
  have h1 := Sound.foldl hs fun h2 => h2.setLevel
  .ite h1 h1.bump.setInt

theorem State.Sound.shpApply (hs : s.Sound pt) : (State.shpApply s).Sound pt :=
  .foldl hs.other fun h1 => h1.setTbl.setLevel

theorem State.Sound.shpCmd {op : ℕ} {addr : ℕ} {data : ℕ} (hs : s.Sound pt) : ((State.shpCmd s op addr data).1).Sound pt :=
  .iteFst hs (.iteFst hs (.iteFst hs (.iteFst hs.other (.iteFst hs hs.other))))

theorem State.Sound.setGate {p : ℕ} {x : GateSt} (hs : s.Sound pt) : (State.setGate s p x).Sound pt :=
  hs.other

theorem State.Sound.gateCommit {old : State} {t' : ℕ} (hs : s.Sound pt) : (State.gateCommit s old t').Sound pt :=
  .foldl hs fun h1 => .ite h1 (.ite h1.setGate.wr h1.setGate.setF)

theorem State.Sound.gateSwitch {p : ℕ} {clk : ℕ} (hs : s.Sound pt) : (State.gateSwitch s p clk).Sound pt :=
  by unfold State.gateSwitch; exact (by dsimp only; split; exacts [hs, .ite hs hs.setGate.setF.setF.setInt])

theorem State.Sound.gateCmd {op : ℕ} {addr : ℕ} {data : ℕ} (hs : s.Sound pt) : ((State.gateCmd s op addr data).1).Sound pt :=
  .iteFst hs (.iteFst hs (.iteFst hs (.iteFst hs hs.setTbl)))

theorem State.Sound.setPool {m : Sparse EPkt} (hs : s.Sound pt) : (State.setPool s m).Sound pt :=
  hs.other.wr.peak

theorem State.Sound.putEpkt {id : ℕ} {p : EPkt} (hs : s.Sound pt) : (State.putEpkt s id p).Sound pt :=
  hs.setPool

theorem State.Sound.setQueue {eq : ℕ} {l : List ℕ} (hs : s.Sound pt) : (State.setQueue s eq l).Sound pt :=
  hs.other

theorem State.Sound.dropEpkt {id : ℕ} (hs : s.Sound pt) : (State.dropEpkt s id).Sound pt :=
  by unfold State.dropEpkt; exact (by split; exacts [hs, hs.setPool.other.setQueue])

theorem State.Sound.drr {node : ℕ} {all : List Cand} {x : Cand × State} (hs : s.Sound pt) (h : s.drr node all = some x) : x.2.Sound pt := by
  unfold State.drr at h
  obtain ⟨r, -, rfl⟩ := Option.map_eq_some_iff.1 h
  exact hs.other

theorem State.Sound.pickQueue {es : List ℕ} {sub : ℕ} {x : ℕ × State} (hs : s.Sound pt) (h : s.pickQueue es sub = some x) : x.2.Sound pt := by
  unfold State.pickQueue at h
  obtain ⟨r, hr, rfl⟩ := Option.map_eq_some_iff.1 h
  exact hs.drr hr

theorem State.Sound.pickSub {es : List ℕ} {svc : ℕ} {x : ℕ × State} (hs : s.Sound pt) (h : s.pickSub es svc = some x) : x.2.Sound pt := by
  unfold State.pickSub at h
  extract_lets at h
  split at h
  · cases h
  next c s1 e => exact (State.Sound.drr hs e).pickQueue h

theorem State.Sound.pickSvc {es : List ℕ} {p : ℕ} {x : ℕ × State} (hs : s.Sound pt) (h : s.pickSvc es p = some x) : x.2.Sound pt := by
  unfold State.pickSvc at h
  extract_lets at h
  split at h
  · cases h
  next c s1 e => exact (State.Sound.drr hs e).pickSub h

theorem State.Sound.dropDeficits {es : List ℕ} (hs : s.Sound pt) : (State.dropDeficits s es).Sound pt :=
  hs.other

theorem State.Sound.gateHold {g : ℕ} {now : ℕ} (hs : s.Sound pt) : (State.gateHold s g now).Sound pt :=
  .foldl hs fun h1 => (by split; exacts [.ite h1 h1.putEpkt.bump, h1])

theorem State.Sound.latHist {p : ℕ} {delay : ℕ} (hs : s.Sound pt) : (State.latHist s p delay).Sound pt :=
  .ite hs (.ite hs.setTbl hs.setTbl.setOvfTbl)

theorem State.Sound.handOff {eq : ℕ} {id : ℕ} {p : EPkt} {t' : ℕ} {plan : Option (ℕ × ℕ × ℕ)} (hs : s.Sound pt) : (State.handOff s eq id p t' plan).Sound pt :=
  by unfold State.handOff; exact have h1 := Sound.ite hs.setQueue.setPool hs.setQueue.putEpkt; (Sound.foldl (((by dsimp only; split; exacts [h1.other.setGate, h1.other]))) fun h2 => h2.shpCharge).bump64.latHist.toBucket

theorem State.Sound.poolRead {e : Option MemErr} (hs : s.Sound pt) : ((State.poolRead s e).1).Sound pt :=
  .ite hs.dataErr hs.dataErr.bump

theorem State.Sound.egressDecision {g clk : ℕ} {pool : Option MemErr} (hs : s.Sound pt) : (State.egressDecision s g clk pool).Sound pt := by
  unfold State.egressDecision
  refine .ite hs ?_
  extract_lets now s1 es s2 ready last
  have h2 : s2.Sound pt := hs.gateHold.dropDeficits
  split
  · exact h2.bump
  next p _ =>
    split
    · exact h2
    next eq s3 e3 =>
      have h3 : s3.Sound pt := h2.pickSvc e3
      extract_lets _ s4 r s4'
      have h4 : s4.Sound pt := Sound.bump64 h3.other
      split
      · exact h4
      next id k _ =>
        extract_lets plan
        have h5 : s4'.Sound pt := h4.poolRead
        exact .ite h5.dropEpkt.bump.setInt h5.handOff.dropDeficits

theorem State.Sound.gateOversize {eq : ℕ} {clk : ℕ} (hs : s.Sound pt) : (State.gateOversize s eq clk).Sound pt :=
  by unfold State.gateOversize; exact (by split; exacts [(by split; exacts [.ite hs.dropEpkt.bump.setInt hs, hs]), hs])

theorem State.Sound.egressEnqueue {clk : ℕ} (hs : s.Sound pt) : (State.egressEnqueue s clk).Sound pt :=
  by unfold State.egressEnqueue; exact (by split; exacts [hs, (by split; exacts [hs, hs.putEpkt.other.setQueue.bumpIf])])

theorem State.Sound.txAbort {p : ℕ} {b : List Byte} (hs : s.Sound pt) : (State.txAbort s p b).Sound pt :=
  hs.lpBump.lrMon.emit

theorem State.Sound.txDone {p : ℕ} {b : List Byte} (hs : s.Sound pt) : (State.txDone s p b).Sound pt :=
  hs.lpBump.lpBump.lrMon.emit

theorem State.Sound.txStart {p : ℕ} {clk : ℕ} {k : Pkt} (hs : s.Sound pt) : (State.txStart s p clk k).Sound pt :=
  by unfold State.txStart; exact have h1 := Sound.ite hs.other.bump.setInt hs.other; have h2 := Sound.ite h1.bumpIf.txtsPut h1.bumpIf; .ite h2.txDone ((by split; exacts [h2.txAbort, .ite h2.dropEpkt.bump.setInt (.ite h2.dropEpkt.txDone h2.other)]))

theorem State.Sound.macTxFrame {p : ℕ} {clk : ℕ} {starve : Bool} {pool : Option MemErr} (hs : s.Sound pt) : (State.macTxFrame s p clk starve pool).Sound pt :=
  .ite hs.poolRead ((by split; exacts [have h1 := hs.poolRead.dropEpkt.other; .ite h1.txAbort.bump.setInt (.ite h1.txAbort.bump.setInt hs.poolRead), .ite hs.poolRead ((by dsimp only; split; exacts [hs.poolRead.txStart, hs.poolRead]))]))

theorem State.Sound.poolFeed {id : ℕ} {b : List Byte} {stomp : Bool} (hs : s.Sound pt) : (State.poolFeed s id b stomp).Sound pt :=
  by unfold State.poolFeed; exact (by split; exacts [hs, .ite hs.putEpkt (.ite hs.dropEpkt ((by split; exacts [.ite hs.dropEpkt.other.txAbort.bump.setInt hs.dropEpkt.other.txDone, .ite hs.putEpkt (.ite hs.dropEpkt.bump.setInt hs.putEpkt)])))])

theorem State.Sound.egressFlush (hs : s.Sound pt) : (State.egressFlush s).Sound pt :=
  have h1 := hs.other.setPool
  .ite h1 h1.bump.setInt

theorem State.Sound.latSample {i : ℕ} {t' : ℕ} (hs : s.Sound pt) : (State.latSample s i t').Sound pt :=
  hs.setTbl

theorem State.Sound.latTick {clk : ℕ} {complete : Bool} (hs : s.Sound pt) : (State.latTick s clk complete).Sound pt :=
  .ite hs (.ite hs.overrun (.foldl hs.other fun h1 => h1.latSample))

theorem State.Sound.latCmd {op : ℕ} {addr : ℕ} {data : ℕ} (hs : s.Sound pt) : ((State.latCmd s op addr data).1).Sound pt :=
  .iteFst hs (.iteFst hs (.iteFst hs.setTbl.setTbl (.iteFst hs.clrTbl hs)))

theorem State.Sound.eqsCmd {op : ℕ} {addr : ℕ} {data : ℕ} {now : ℕ} (hs : s.Sound pt) : ((State.eqsCmd s op addr data now).1).Sound pt :=
  .iteFst hs (.iteFst hs (.iteFst (.iteFst hs hs) (.iteFst hs (.iteFst hs (.iteFst hs (.iteFst hs (.iteFst hs hs.setTbl)))))))

theorem State.Sound.syncEdge {clk : ℕ} (hs : s.Sound pt) : (State.syncEdge s clk).Sound pt :=
  .ite hs ((by dsimp only; split; exacts [hs.other, .ite hs.other (.ite hs hs.bump)]))

theorem State.Sound.syncTag {cells : List (Bool × Bool)} (hs : s.Sound pt) : (State.syncTag s cells).Sound pt :=
  .ite hs (.ite hs.other.wr hs.other)

theorem State.Sound.tkEnter {st : ℕ} (hs : s.Sound pt) : (State.tkEnter s st).Sound pt :=
  .ite hs.setF.setInt (.ite hs.setF.bump.setInt.log hs.setF)

theorem State.Sound.correct {amt : ℤ} (hs : s.Sound pt) : (State.correct s amt).Sound pt :=
  .ite hs.other hs.other

theorem State.Sound.judgeCounts {v : Verdict} (hs : s.Sound pt) : (State.judgeCounts s v).Sound pt :=
  (Sound.ite hs.setF hs.bump).bumpIf.bumpIf.bumpIf.setF.setF

theorem State.Sound.judgeMove {v : Verdict} {b : Bound} {later : List Bound} (hs : s.Sound pt) : (State.judgeMove s v b later).Sound pt :=
  .ite (.ite hs.tkEnter hs) (.ite (.ite hs.tkEnter (.ite hs (.ite ((by dsimp only; split; exacts [hs.tkEnter, hs.tkEnter.other])) hs.correct))) (.ite (.ite hs.tkEnter (.ite hs.correct hs)) hs))

theorem State.Sound.judge (hs : s.Sound pt) : (State.judge s).Sound pt :=
  by unfold State.judge; exact (by split; exacts [hs, hs.judgeCounts.other.judgeMove])

theorem State.Sound.syncOut {cells : List (Bool × Bool)} {timely : Bool} (hs : s.Sound pt) : (State.syncOut s cells timely).Sound pt :=
  .ite hs.other.emit (.ite (.ite hs.other.emit hs.other.emit) hs.other.emit)

theorem State.Sound.genNext {clk : ℕ} {e : ℕ} (hs : s.Sound pt) : (State.genNext s clk e).Sound pt :=
  .ite hs.other (.ite hs.other.wr hs.other)

theorem State.Sound.tickGenCmt {clk : ℕ} {v : ℕ} (hs : s.Sound pt) : (State.tickGenCmt s clk v).Sound pt :=
  .ite hs (.ite hs.genNext hs.setInt)

theorem State.Sound.tickPlan {viaLink : Bool} {viaMgmt : Bool} (hs : s.Sound pt) : (State.tickPlan s viaLink viaMgmt).Sound pt :=
  hs.other

theorem State.Sound.setLane {l : ℕ} {x : FabLane} (hs : s.Sound pt) : (State.setLane s l x).Sound pt :=
  hs.other

theorem State.Sound.laneChg {l : ℕ} (hs : s.Sound pt) : (State.laneChg s l).Sound pt :=
  hs.wr

theorem State.Sound.setDefects {l : ℕ} {d : ℕ} (hs : s.Sound pt) : (State.setDefects s l d).Sound pt :=
  have h1 := Sound.ite hs.wr.setLane hs.wr
  .ite h1 h1.laneChg.setInt

theorem State.Sound.defect {l : ℕ} {i : ℕ} {on : Bool} (hs : s.Sound pt) : (State.defect s l i on).Sound pt :=
  .ite hs hs.setDefects

theorem State.Sound.unreachRefresh (hs : s.Sound pt) : (State.unreachRefresh s).Sound pt :=
  (Sound.foldl hs fun h1 => h1.wr).setIntIf

theorem State.Sound.setService {l : ℕ} {on : Bool} (hs : s.Sound pt) : (State.setService s l on).Sound pt :=
  .ite hs hs.setF.laneChg.setInt.unreachRefresh

theorem State.Sound.linkIn {l : ℕ} (hs : s.Sound pt) : (State.linkIn s l).Sound pt :=
  .ite hs.setService hs

theorem State.Sound.laneHunt {l : ℕ} (hs : s.Sound pt) : (State.laneHunt s l).Sound pt :=
  hs.setF.setLane.defect

theorem State.Sound.sigLoss {l : ℕ} {signal : Bool} {cdr : Bool} {fec : Bool} (hs : s.Sound pt) : (State.sigLoss s l signal cdr fec).Sound pt :=
  .ite hs (have h1 := Sound.ite hs.setF.defect hs; have h2 := Sound.ite h1.setF.defect h1; .ite h2.setF.defect.laneHunt h2)

theorem State.Sound.sigReturn {l : ℕ} (hs : s.Sound pt) : (State.sigReturn s l).Sound pt :=
  .ite hs hs.wr.defect.defect

theorem State.Sound.fserCfgWrite {g : ℕ} {n : ℕ} {v : ℕ} (hs : s.Sound pt) : (State.fserCfgWrite s g n v).Sound pt :=
  .ite hs.fieldWrite (.ite (.ite hs.fieldWrite.setF hs.fieldWrite) hs.fieldWrite.wr.defect.defect.laneHunt)

theorem State.Sound.framePos {l : ℕ} {fas : ℕ} {hdr : ℕ} (hs : s.Sound pt) : (State.framePos s l fas hdr).Sound pt :=
  .ite hs (.ite (.ite hs.setLane (have h1 := hs.bump.setLane; .ite h1.laneHunt h1)) (.ite hs.setF (.ite hs.setF.defect hs.setF)))

theorem State.Sound.fnJudge {l : ℕ} {n : ℕ} (hs : s.Sound pt) : (State.fnJudge s l n).Sound pt :=
  by unfold State.fnJudge; exact (by dsimp only; split; exacts [.ite hs.setLane.defect hs.setLane, .ite (.ite hs.setLane.defect hs.setLane) (.ite (have h1 := hs.bump.setInt.setLane; .ite h1.defect h1) (.ite hs.setLane.defect hs.setLane))])

theorem State.Sound.timJudge {l : ℕ} {h : ℕ} (hs : s.Sound pt) : (State.timJudge s l h).Sound pt :=
  .ite (.ite hs.setLane.defect hs.setLane) (.ite hs.setLane.defect hs.setLane)

theorem State.Sound.rdiJudge {l : ℕ} {h : ℕ} (hs : s.Sound pt) : (State.rdiJudge s l h).Sound pt :=
  .ite (.ite hs.setLane.defect hs.setLane) (.ite hs.setLane.defect hs.setLane)

theorem State.Sound.header {l : ℕ} {h : ℕ} (hs : s.Sound pt) : (State.header s l h).Sound pt :=
  .ite hs (have h1 := hs.setF.setF.setF.fnJudge.timJudge.rdiJudge; .ite h1 h1.setLane)

theorem State.Sound.xoffApply {l : ℕ} (hs : s.Sound pt) : (State.xoffApply s l).Sound pt :=
  by unfold State.xoffApply; exact (by dsimp only; split; exacts [hs, hs.setF.setLane])

theorem State.Sound.frameIn {l : ℕ} {hdr : ℕ} {msgs : List ℕ} {cells : List (ℕ × List Byte)} (hs : s.Sound pt) : (State.frameIn s l hdr msgs cells).Sound pt :=
  .ite hs (.ite hs.bump (.ite hs.setLane hs.setLane.bump.setInt))

theorem State.Sound.takeMsg {m : ℕ} (hs : s.Sound pt) : (State.takeMsg s m).Sound pt :=
  .ite hs.bump (.ite hs hs.other)

theorem State.Sound.deliver {l : ℕ} (hs : s.Sound pt) : (State.deliver s l).Sound pt :=
  .ite hs ((by dsimp only; split; exacts [.ite hs.bump hs, .ite hs.setLane ((Sound.foldl hs.setLane fun h1 => h1.takeMsg).other)]))

theorem State.Sound.setReord {src : ℕ} {x : ReorderSt} (hs : s.Sound pt) : (State.setReord s src x).Sound pt :=
  .foldl hs.other.setF fun h1 => h1.peak

theorem State.Sound.release {c : Cell} (hs : s.Sound pt) : (State.release s c).Sound pt :=
  hs.other

theorem State.Sound.releaseRun {src n : ℕ} (hs : s.Sound pt) : (State.releaseRun s src n).Sound pt := by
  induction n generalizing s with
  | zero => exact hs
  | succ n ih =>
    unfold State.releaseRun
    dsimp only
    split
    · exact hs
    · exact ih hs.setReord.release

theorem State.Sound.skipGap {src : ℕ} (hs : s.Sound pt) : (State.skipGap s src).Sound pt :=
  .ite hs hs.setReord.bump.releaseRun

theorem State.Sound.skipAll {src : ℕ} {x : ℕ} (hs : s.Sound pt) : (State.skipAll s src x).Sound pt := by
  induction x generalizing s src with
  | zero => exact hs
  | succ x ih => exact .ite hs ((ih hs.skipGap))

theorem State.Sound.reorderCell {c : Cell} (hs : s.Sound pt) : (State.reorderCell s c).Sound pt :=
  by unfold State.reorderCell; exact have h1 := Sound.ite hs.skipAll hs; .ite h1.setReord.release.releaseRun (.ite h1.setReord.bump (.ite ((Sound.ite ((by split; exacts [h1.setReord.skipGap, h1.setReord])) h1.setReord).setReord.release.releaseRun) (.ite ((Sound.ite ((by split; exacts [h1.setReord.skipGap, h1.setReord])) h1.setReord).bump) ((Sound.ite ((by split; exacts [h1.setReord.skipGap, h1.setReord])) h1.setReord).setReord))))

theorem State.Sound.cellIn (hs : s.Sound pt) : (State.cellIn s).Sound pt :=
  by unfold State.cellIn; exact (by split; exacts [hs, .ite hs.other (.ite hs.other.bump.setLane (.ite hs.other (.ite hs.other.bump (.ite hs.other.bump.setInt (.ite hs.other.bump64.reorderCell ((by split; exacts [hs.other.bump, hs.other.bump64.release])))))))])

theorem State.Sound.gapTimeout {src : ℕ} (hs : s.Sound pt) : (State.gapTimeout s src).Sound pt :=
  .ite hs.skipGap hs

theorem State.Sound.setTags {m : Sparse LiveTag} (hs : s.Sound pt) : (State.setTags s m).Sound pt :=
  hs.other.setF.wr

theorem State.Sound.settle {src eq len u tag : ℕ} (hs : s.Sound pt) : (State.settle s src eq len u tag).1.Sound pt := by
  unfold State.settle
  have hlate : (State.settle.late eq len s).1.Sound pt := .iteFst hs.bump hs.bump.bump.setInt
  split
  · exact .iteFst hs.setTags hlate
  · exact hlate

theorem State.Sound.late {eq : ℕ} {len : ℕ} (hs : s.Sound pt) : ((State.settle.late eq len s).1).Sound pt :=
  .iteFst hs.bump hs.bump.bump.setInt

theorem State.Sound.newPacket {src : ℕ} {voq : ℕ} {d : List Byte} (hs : s.Sound pt) : ((State.newPacket s src voq d).1).Sound pt :=
  .iteFst hs.bump (.iteFst hs.settle hs.settle.putEpkt.other)

theorem State.Sound.lossDrop (hs : s.Sound pt) : (State.lossDrop s).Sound pt :=
  hs.bump.setInt

theorem State.Sound.rsmDiscard {x : RsmSt} (hs : s.Sound pt) : ((State.rsmDiscard s x).1).Sound pt :=
  by unfold State.rsmDiscard; exact (by dsimp only; split; exacts [hs.dropEpkt.lossDrop, hs, .ite hs hs.lossDrop])

theorem State.Sound.feed {c : Cell} {x : RsmSt} {pos : ℕ} {first : Bool} {x' : ℕ} (hs : s.Sound pt) : ((State.feed s c x pos first x').1).Sound pt := by
  induction x' generalizing s c x pos first with
  | zero => exact hs
  | succ x' ih => exact .iteFst (.iteFst hs.rsmDiscard hs) (.iteFst (.iteFst ((ih hs)) hs) ((by split; exacts [.iteFst ((ih hs.rsmDiscard)) ((ih (((by split; exacts [hs.poolFeed, hs]))))), .iteFst ((ih hs)) (.iteFst ((ih hs)) ((ih hs.newPacket)))])))

theorem State.Sound.reassemble {buf : Option MemErr} (hs : s.Sound pt) : (State.reassemble s buf).Sound pt := by
  refine State.reassemble.fun_cases_unfolding s buf _ (fun _ => hs) ?_ ?_ ?_ ?_
  · intro c rest _ e r bad s2 s0 _
    exact Sound.other (Sound.bumpIf hs.dataErr)
  · intro c rest _ e r bad s2 s0 _ _ _
    exact Sound.bump (Sound.other (Sound.bumpIf hs.dataErr))
  · intro c rest _ e r bad s2 s0 _ _ _
    exact Sound.other (Sound.bumpIf hs.dataErr)
  · intro c rest _ e r bad s2 s0 _ _ key x seq m _ gap s1 y e1 s3 z e3
    have h0 : s0.Sound pt := Sound.other (Sound.bumpIf hs.dataErr)
    have h1 : s1.Sound pt := Sound.ofEq (.iteFst h0.rsmDiscard h0) e1
    exact Sound.other (h1.feed.ofEq e3)

theorem State.Sound.startPkt {v : ℕ} (hs : s.Sound pt) : (State.startPkt s v).Sound pt :=
  by unfold State.startPkt; exact (by dsimp only; split; exacts [hs, (by split; exacts [hs, hs.setVoq])])

theorem State.Sound.freeBytes {n : ℕ} (hs : s.Sound pt) : ((State.freeBytes s n).1).Sound pt :=
  hs.other

theorem State.Sound.sendBytes {v n : ℕ} (hs : s.Sound pt) : (State.sendBytes s v n).1.Sound pt := by
  unfold State.sendBytes
  extract_lets x
  split
  · exact hs
  · extract_lets h plain inHdr r
    split
    next s1 data e1 =>
      have h1 : s1.Sound pt := by
        split at e1
        · exact Sound.ofEq (x := (r.1, List.take inHdr plain ++ r.2)) hs.freeBytes e1
        · exact Sound.ofEq (x := (s, _)) hs e1
      exact h1.setVoq.voqFree

theorem State.Sound.packCell {v n : ℕ} {a : CellAcc} (hs : s.Sound pt) : (State.packCell s v a n).1.Sound pt := by
  induction n generalizing s a with
  | zero => exact hs
  | succ n ih =>
    unfold State.packCell
    extract_lets x
    split
    · exact hs
    · refine .iteFst hs ?_
      extract_lets s1 off n
      split
      next s2 data e2 =>
      have h2 : s2.Sound pt := (Sound.ite hs hs.startPkt).sendBytes.ofEq e2
      exact .iteFst h2 (.iteFst h2.bump.setInt (ih h2))

theorem State.Sound.makeCell {k : ℕ} {v : ℕ} {typ : ℕ} {circuit : ℕ} {seq : ℕ} (hs : s.Sound pt) : ((State.makeCell s k v typ circuit seq).1).Sound pt := by
  unfold State.makeCell
  exact hs.packCell.other

theorem State.Sound.sendCell {l : ℕ} {slot : ℕ} {c : Cell} (hs : s.Sound pt) : (State.sendCell s l slot c).Sound pt :=
  hs.emit.bump64

theorem State.Sound.sprayTc {circ : List ℕ} {l slot plane tc : ℕ} (hs : s.Sound pt) : State.SoundOpt pt (s.sprayTc circ l slot plane tc) := by
  intro u h
  unfold State.sprayTc at h
  split at h
  next lx gx _ =>
  extract_lets ok at h
  split at h
  · cases h
  next d _ =>
    split at h
    · cases h
    next v _ =>
      extract_lets q at h
      split at h
      next s1 c e1 =>
      have h1 : s1.Sound pt := hs.makeCell.ofEq e1
      injection h with h
      subst h
      exact Sound.sendCell h1.other

theorem State.Sound.spray {circ : List ℕ} {l slot plane : ℕ} (hs : s.Sound pt) : (State.spray s circ l slot plane).Sound pt := by
  unfold State.spray
  split
  next t e =>
    obtain ⟨tc, -, h⟩ := List.exists_of_findSome?_eq_some e
    exact hs.sprayTc t h
  · exact hs

theorem State.Sound.calEntry {circ : List ℕ} {l slot : ℕ} (hs : s.Sound pt) : (State.calEntry s circ l slot).Sound pt := by
  unfold State.calEntry
  refine .ite hs.spray (.ite (.ite ?_ (.ite hs.spray hs)) hs)
  extract_lets q
  split
  next s1 c e1 =>
  have h1 : s1.Sound pt := hs.makeCell.ofEq e1
  exact Sound.sendCell h1.other

theorem State.Sound.loopFill {n : ℕ} (hs : s.Sound pt) : (State.loopFill s n).Sound pt := by
  induction n generalizing s with
  | zero => exact hs
  | succ n ih =>
    unfold State.loopFill
    split
    · exact hs
    next tc v _ =>
      split
      next s1 c e1 => exact ih (hs.makeCell.ofEq e1).release

theorem State.Sound.purge {v : ℕ} {x : ℕ} (hs : s.Sound pt) : (State.purge s v x).Sound pt := by
  induction x generalizing s v with
  | zero => unfold State.purge; exact hs
  | succ x ih => unfold State.purge; exact (by split; exacts [.ite ((ih hs.voqDrop.poisonDrop)) hs, hs])

theorem State.Sound.poisonCell {v : ℕ} {e : MemErr} (hs : s.Sound pt) : (State.poisonCell s v e).Sound pt :=
  .ite hs.dataErr (have h1 := hs.dataErr.bump; (by split; exacts [h1, h1.bump.setInt.setVoq]))

theorem State.Sound.calendarFill {poison : List (ℕ × MemErr)} (hs : s.Sound pt) : (State.calendarFill s poison).Sound pt :=
  have h1 := Sound.foldl ((Sound.foldl hs fun h2 => h2.poisonCell)) fun h3 => h3.purge
  (Sound.ite h1 (.foldl h1 fun h4 => .foldl h4 fun h5 => h5.calEntry)).loopFill

theorem State.Sound.fcellCmd {op : ℕ} {addr : ℕ} {data : ℕ} (hs : s.Sound pt) : ((State.fcellCmd s op addr data).1).Sound pt :=
  .iteFst hs (.iteFst hs (.iteFst hs (.iteFst hs (.iteFst hs (.iteFst hs (.iteFst hs (.ite hs.setTbl.unreachRefresh hs.setTbl)))))))

theorem State.Sound.degJudge {l : ℕ} (hs : s.Sound pt) : (State.degJudge s l).Sound pt :=
  .ite hs.setLane.defect (.ite hs.setLane.defect hs.setLane)

theorem State.Sound.laneTick {l : ℕ} (hs : s.Sound pt) : (State.laneTick s l).Sound pt :=
  have h1 := Sound.ite hs.degJudge hs
  have h2 := Sound.ite h1.setLane h1.setLane.setService
  .ite h2.emit h2

theorem State.Sound.reqTimers (hs : s.Sound pt) : (State.reqTimers s).Sound pt :=
  .ite hs (.foldl hs fun h1 => .ite h1 h1.setVoq)

theorem State.Sound.fabTick (hs : s.Sound pt) : (State.fabTick s).Sound pt :=
  (Sound.foldl hs.setF fun h1 => h1.laneTick).reqTimers

theorem State.Sound.ffrmCfgWrite {v : ℕ} (hs : s.Sound pt) : (State.ffrmCfgWrite s v).Sound pt :=
  .ite hs.fieldWrite.setIntIf hs.fieldWrite

theorem State.Sound.fcellCfgWrite {v : ℕ} (hs : s.Sound pt) : (State.fcellCfgWrite s v).Sound pt :=
  .ite hs.fieldWrite.setIntIf hs.fieldWrite

theorem State.Sound.placeMsg {d m room : ℕ} (hs : s.Sound pt) : State.SoundOpt pt (s.placeMsg d m room) := by
  unfold State.placeMsg
  extract_lets c
  refine .ite .none ?_
  split
  · exact .none
  · exact .some hs.other

theorem State.Sound.sendTo {d m room : ℕ} (hs : s.Sound pt) : State.SoundOpt pt (s.sendTo d m room) := by
  unfold State.sendTo
  exact .ite (.some hs.other) hs.placeMsg

theorem State.Sound.setStore {m : Sparse (List StoredReq)} (hs : s.Sound pt) : (State.setStore s m).Sound pt :=
  hs.other.wr

theorem State.Sound.onRequest {m : ℕ} (hs : s.Sound pt) : (State.onRequest s m).Sound pt :=
  .ite hs.bump (.ite hs (.ite hs.bump (.ite hs.bump.setInt hs.setStore)))

theorem State.Sound.tryGrant {eq : ℕ} (hs : s.Sound pt) : State.SoundOpt pt (s.tryGrant eq) := by
  unfold State.tryGrant
  split
  · exact .none
  · exact .ite .none (hs.sendTo.map fun h => h.setTags.setStore.bump)

theorem State.Sound.serveQueues {l : List ℕ} {n : ℕ} (hs : s.Sound pt) : (State.serveQueues s l n).Sound pt := by
  induction n generalizing s l with
  | zero => exact hs
  | succ n ih =>
    unfold State.serveQueues
    split
    · exact hs
    · split
      · exact ih hs.other
      next t e => exact ih (hs.tryGrant t e).other

theorem State.Sound.onGrant {m : ℕ} (hs : s.Sound pt) : (State.onGrant s m).Sound pt :=
  .ite hs.bump (.ite hs.bump.setInt hs.bumpIf.setVoq)

theorem State.Sound.sendRequest {v u : ℕ} (hs : s.Sound pt) : State.SoundOpt pt (s.sendRequest v u) := by
  unfold State.sendRequest
  exact hs.sendTo.map fun h => h.bump.setVoq

theorem State.Sound.markWd {d : ℕ} {on : Bool} (hs : s.Sound pt) : (State.markWd s d on).Sound pt :=
  .ite (.ite hs.other hs) hs.other.wr.setInt

theorem State.Sound.withdrawSelf {on : Bool} (hs : s.Sound pt) : (State.withdrawSelf s on).Sound pt :=
  .ite hs (.ite hs.setF.other.setStore hs.setF.other)

theorem State.Sound.fcrdCtrlWrite {v : ℕ} (hs : s.Sound pt) : (State.fcrdCtrlWrite s v).Sound pt :=
  hs.fieldWrite.withdrawSelf

theorem State.Sound.onMsg {m : ℕ} (hs : s.Sound pt) : (State.onMsg s m).Sound pt :=
  .ite hs.onRequest (.ite hs.onGrant (.ite hs.markWd hs.markWd))

theorem State.Sound.oneMsg {typ : ℕ} (hs : s.Sound pt) : (State.oneMsg s typ).Sound pt :=
  by unfold State.oneMsg; exact (by split; exacts [hs, hs.other.onMsg])

theorem State.Sound.creditRound (hs : s.Sound pt) : (State.creditRound s).Sound pt :=
  have h1 := Sound.foldl hs.other fun h2 => h2.onMsg
  .ite h1 h1.serveQueues

theorem State.Sound.placeWd (hs : s.Sound pt) : (State.placeWd s).Sound pt :=
  .ite hs hs.other

theorem State.Sound.placeReissues (hs : s.Sound pt) : (State.placeReissues s).Sound pt := by
  unfold State.placeReissues
  refine .foldl hs.other fun {t r} h => ?_
  split
  next u e => exact (h.sendTo u e).bump
  · exact h.other

theorem State.Sound.placeRequests (hs : s.Sound pt) : (State.placeRequests s).Sound pt := by
  unfold State.placeRequests
  refine .foldl hs.other fun {t r} h => ?_
  split
  · exact h
  · split
    next t' e => exact h.sendRequest t' e
    · exact h.other

theorem State.Sound.flushMsgs (hs : s.Sound pt) : (State.flushMsgs s).Sound pt :=
  (Sound.foldl hs fun h1 => h1.emit).other

theorem State.Sound.messageSelect (hs : s.Sound pt) : (State.messageSelect s).Sound pt :=
  have h1 := hs.placeWd.placeReissues.placeRequests
  .ite h1.flushMsgs.overrun h1.flushMsgs

theorem State.Sound.requestAge (hs : s.Sound pt) : (State.requestAge s).Sound pt :=
  .ite hs hs.setStore.bump

theorem State.Sound.reissue {v : ℕ} (hs : s.Sound pt) : (State.reissue s v).Sound pt :=
  by unfold State.reissue; exact (by dsimp only; split; exacts [hs, .ite hs hs.setVoq.other.bump])

theorem State.Sound.grantExpiry (hs : s.Sound pt) : (State.grantExpiry s).Sound pt :=
  .ite hs.setTags.bump hs

theorem State.Sound.heldExpiry {v : ℕ} (hs : s.Sound pt) : (State.heldExpiry s v).Sound pt :=
  .ite hs hs.bump.setVoq

theorem State.Sound.wdTimeout (hs : s.Sound pt) : (State.wdTimeout s).Sound pt :=
  .foldl hs fun h1 => h1.markWd

theorem State.Sound.setSc {k : ℕ} {x : ScCtl} (hs : s.Sound pt) : (State.setSc s k x).Sound pt :=
  .ite hs.other hs.other

theorem State.Sound.scShow (hs : s.Sound pt) : (State.scShow s).Sound pt :=
  .ite hs hs.setF.setF

theorem State.Sound.passOwner {old : ℕ} {new : ℕ} (hs : s.Sound pt) : (State.passOwner s old new).Sound pt :=
  .ite hs.setF hs

theorem State.Sound.scOwners (hs : s.Sound pt) : (State.scOwners s).Sound pt :=
  .foldl hs fun h1 => .ite h1 (.ite h1.passOwner (.ite h1 h1.setF))

theorem State.Sound.setSafe {on : Bool} (hs : s.Sound pt) : (State.setSafe s on).Sound pt :=
  hs.withEdges fun h1 => .foldl h1 fun h2 => .ite h2 h2.setF.setInt

theorem State.Sound.scUpdate (hs : s.Sound pt) : (State.scUpdate s).Sound pt :=
  have h1 := hs.setF.setF.scOwners.scShow
  .ite h1 (.ite (have h2 := h1.setInt.setInt.log.setSafe
  .ite h2.setF.withdrawSelf h2) (.ite h1.log.setSafe h1))

theorem State.Sound.scEnter {k : ℕ} {role : ℕ} (hs : s.Sound pt) : (State.scEnter s k role).Sound pt :=
  .ite hs hs.setF.setSc.other

theorem State.Sound.scFail {k : ℕ} {cause : ℕ} (hs : s.Sound pt) : (State.scFail s k cause).Sound pt :=
  hs.scEnter.log.setIntIf.setIntIf

theorem State.Sound.takeoverMark {k : ℕ} {cause : ℕ} (hs : s.Sound pt) : (State.takeoverMark s k cause).Sound pt :=
  hs.bump.setF.setInt

theorem State.Sound.takeoverMarks {new : ℕ} {cause : ℕ} (hs : s.Sound pt) : (State.takeoverMarks s new cause).Sound pt :=
  have h1 := hs.takeoverMark
  (Sound.ite h1.takeoverMark h1.other).log

theorem State.Sound.scPathCheck (hs : s.Sound pt) : (State.scPathCheck s).Sound pt :=
  .ite hs (have h1 := Sound.foldl hs.other fun h2 => h2.takeoverMark; (by dsimp only; split; exacts [h1.scUpdate, .ite h1.scShow ((Sound.ite h1.other.scFail h1.other).scUpdate)]))

theorem State.Sound.scKick {who : Requester} {k : ℕ} {v : ℕ} (hs : s.Sound pt) : (State.scKick s who k v).Sound pt :=
  .ite hs (.ite (.ite hs.setSc.setSc.scEnter.scUpdate hs.setSc.setSc) hs.setSc)

theorem State.Sound.heartbeatRx {k : ℕ} {link : Bool} (hs : s.Sound pt) : (State.heartbeatRx s k link).Sound pt :=
  by unfold State.heartbeatRx; exact (by split; exacts [hs, .ite hs hs.setSc.wr.setF.setF])

theorem State.Sound.isolate (hs : s.Sound pt) : (State.isolate s).Sound pt :=
  hs.scEnter.setInt.log.scUpdate

theorem State.Sound.missCheck {k : ℕ} (hs : s.Sound pt) : (State.missCheck s k).Sound pt :=
  .ite hs (.ite (.ite hs.setF.bump.isolate hs.setF.bump.other) hs.setF.bump)

theorem State.Sound.scFault {k : ℕ} {clk : ℕ} (hs : s.Sound pt) : (State.scFault s k clk).Sound pt :=
  .ite hs ((Sound.ite hs.bump.setInt.scFail.other hs.bump.setInt.scFail).scUpdate)

theorem State.Sound.takeover (hs : s.Sound pt) : (State.takeover s).Sound pt :=
  by unfold State.takeover; exact (by split; exacts [hs, .ite hs (.ite hs.isolate ((Sound.ite (.ite hs.other.scFail hs.other) hs.other.setF.other).scEnter.passOwner.takeoverMarks.scUpdate))])

theorem State.Sound.scCtrlWrite {who : Requester} {k : ℕ} {v : ℕ} (hs : s.Sound pt) : (State.scCtrlWrite s who k v).Sound pt :=
  have h1 := Sound.ite hs.fieldWrite.scEnter (.ite hs.fieldWrite.scEnter hs.fieldWrite)
  have h2 := Sound.ite h1 (.ite h1.scEnter h1.setInt)
  (Sound.ite h2 (.ite h2.other h2.setInt)).scUpdate

theorem State.Sound.onScCtrl {a : Acc} {k : ℕ} {v : ℕ} (hs : s.Sound pt) : (State.onScCtrl s a k v).Sound pt :=
  hs.onWrite fun h1 => h1.scCtrlWrite

theorem State.Sound.autoRestart {k : ℕ} (hs : s.Sound pt) : (State.autoRestart s k).Sound pt :=
  .ite hs.setF.bump.scEnter.scUpdate hs

theorem State.Sound.bootFail {k : ℕ} (hs : s.Sound pt) : (State.bootFail s k).Sound pt :=
  hs.bump.scFail.scUpdate

theorem State.Sound.splitEnd (hs : s.Sound pt) : (State.splitEnd s).Sound pt :=
  .ite hs hs.other.scFail.scUpdate

theorem State.Sound.scTickOne {k : ℕ} (hs : s.Sound pt) : (State.scTickOne s k).Sound pt :=
  have h1 := Sound.ite hs.overrun hs
  .ite h1.setF.setF.setSc.emit h1.setF.setF.setSc

theorem State.Sound.scTick (hs : s.Sound pt) : (State.scTick s).Sound pt := by
  unfold State.scTick
  extract_lets s1 s2 _ s3
  have h1 : s1.Sound pt := hs.scTickOne.scTickOne
  have h2 : s2.Sound pt := by
    dsimp only [s2]
    split
    · exact h1
    · exact .ite h1.scEnter.scEnter.passOwner.takeoverMarks h1
  have h3 : s3.Sound pt := h2.other
  exact (Sound.foldl h3 fun h => .ite (.ite (.ite h.scEnter h) h.scEnter) h).scUpdate

theorem State.Sound.setLearnQ {q : ℕ} {l : List LearnEv} (hs : s.Sound pt) : (State.setLearnQ s q l).Sound pt :=
  hs.other

theorem State.Sound.learnPut {q : ℕ} {table : ℕ} {fid : ℕ} {mac : ℕ} {sport : ℕ} (hs : s.Sound pt) : (State.learnPut s q table fid mac sport).Sound pt :=
  .ite hs.bump (.ite hs.bump.setInt hs.setLearnQ)

theorem State.Sound.learnNote {kind : ℕ} {table : ℕ} {old : ℕ} {fid : ℕ} {mac : ℕ} {new : ℕ} (hs : s.Sound pt) : (State.learnNote s kind table old fid mac new).Sound pt :=
  .ite hs (.ite hs.bump.setInt hs.other.setIntIf)

theorem State.Sound.learnMove {c : ExmCfg} {i : ℕ} {e : ℕ} {sport : ℕ} (hs : s.Sound pt) : (State.learnMove s c i e sport).Sound pt :=
  .ite hs.bump.bumpIf.exmPut.bump.setInt.learnNote hs.bump.bumpIf.exmPut.learnNote

theorem State.Sound.learnOne {ev : LearnEv} (hs : s.Sound pt) : (State.learnOne s ev).Sound pt := by
  unfold State.learnOne
  extract_lets c key full
  refine .ite hs.bump ?_
  have hf : full.Sound pt := hs.bump.setInt.learnNote
  split
  · refine .ite hf ?_
    split
    · exact hf
    next e => exact (hs.exmInsert e).bump.learnNote
  · exact .ite (.ite hs hs.bump.setInt.learnNote) (.ite (Sound.exmPut (.ite hs hs.bump)) (.ite hs.bump hs.learnMove))

theorem State.Sound.learnEvent (hs : s.Sound pt) : (State.learnEvent s).Sound pt :=
  .ite hs (.ite hs ((by split; exacts [hs, (Sound.ite hs.setLearnQ hs.setLearnQ.setF).other.learnOne])))

theorem State.Sound.learnBoundary (hs : s.Sound pt) : (State.learnBoundary s).Sound pt :=
  .ite hs.other.setF (.ite hs.setF.overrun hs.setF)

theorem State.Sound.learnPop (hs : s.Sound pt) : ((State.learnPop s).1).Sound pt :=
  by unfold State.learnPop; exact (by split; exacts [hs.wr, hs.other.wr.wr.wr.wr])

theorem State.Sound.ageStart (hs : s.Sound pt) : (State.ageStart s).Sound pt :=
  .ite hs (.ite (.ite hs hs.other.bump.setInt) hs.setF.wr.other.setIntIf)

theorem State.Sound.ageVisit {pos : ℕ} (hs : s.Sound pt) : (State.ageVisit s pos).Sound pt :=
  by unfold State.ageVisit; exact (by split; exacts [hs, .ite hs.setF.setF.exmFree.bump.learnNote hs.setF.setF])

theorem State.Sound.ageScan {n : ℕ} (hs : s.Sound pt) : (State.ageScan s n).Sound pt :=
  .ite hs (have h1 := Sound.foldl hs fun h2 => h2.ageVisit; have h3 := Sound.ite h1.other h1.other.overrun; .ite h3 h3.other.setInt)

theorem State.Sound.flipWrite {p : ℕ} {v : ℕ} (hs : s.Sound pt) : (State.flipWrite s p v).Sound pt :=
  by unfold State.flipWrite; exact (by dsimp only; split; exacts [hs, .ite hs.fieldWrite.wr hs.fieldWrite])

theorem State.Sound.rwPop (hs : s.Sound pt) : ((State.rwPop s).1).Sound pt :=
  by unfold State.rwPop; exact (by split; exacts [hs.wr.wr, hs.other.wr.wr])

theorem State.Sound.histAdd {cls : ℕ} {key : ℕ} {ue : Bool} (hs : s.Sound pt) : (State.histAdd s cls key ue).Sound pt :=
  hs.other.bumpIf

theorem State.Sound.repairFull {die : ℕ} (hs : s.Sound pt) : (State.repairFull s die).Sound pt :=
  hs.bump.setInt

theorem State.Sound.sramRepair {cls : ℕ} {pg : ℕ} {mem : ℕ} {addr : ℕ} (hs : s.Sound pt) : (State.sramRepair s cls pg mem addr).Sound pt :=
  .ite hs (.ite hs.repairFull (have h1 := Sound.ite hs.other.setInt hs.other; .ite h1.log.repairFull h1.log.wr.emWrote))

theorem State.Sound.hardWord {cls : ℕ} {pg : ℕ} {mem : ℕ} {addr : ℕ} (hs : s.Sound pt) : (State.hardWord s cls pg mem addr).Sound pt :=
  .ite (.ite hs.bump hs.bump.other) (.ite hs.bump.sramRepair hs.bump)

theorem State.Sound.loseState {pg : ℕ} {mem : ℕ} {addr : ℕ} (hs : s.Sound pt) : (State.loseState s pg mem addr).Sound pt :=
  .ite (.ite hs.bump.setInt.voqLose hs.bump.setInt.setTbl.staleGrants) (.ite (.ite hs.bump.setInt.setQueue hs.bump.setInt.clrTbl) (.ite (.ite ((by dsimp only; split; exacts [hs.bump.setInt.setStore, hs.bump.setInt])) (.ite hs.bump.setInt.setTags ((by dsimp only; split; exacts [hs.bump.setInt.setVoq, hs.bump.setInt])))) (.ite hs.bump.setInt.clrTbl.setLevel hs.bump.setInt.clrTbl)))

theorem State.Sound.stateCleanup {page : ℕ} {mem : ℕ} {addr : ℕ} (hs : s.Sound pt) : (State.stateCleanup s page mem addr).Sound pt :=
  .ite hs.voqWipe (.ite (.foldl hs fun h1 => h1.dropEpkt) hs)

theorem State.Sound.sinterCorrected {cls : ℕ} {pg : ℕ} {mem : ℕ} {addr : ℕ} {e : WordErr} {newer : Bool} (hs : s.Sound pt) : (State.sinterCorrected s cls pg mem addr e newer).Sound pt :=
  have h1 := hs.meetErr.bump
  have h2 := Sound.ite h1.setMark.bump h1.wroteWord
  have h3 := Sound.ite h2.emWrote h2
  .ite h3.histAdd.hardWord h3.histAdd

theorem State.Sound.sinterUncorr {cls : ℕ} {pg : ℕ} {mem : ℕ} {addr : ℕ} {e : WordErr} {bothBad : Bool} (hs : s.Sound pt) : (State.sinterUncorr s cls pg mem addr e bothBad).Sound pt :=
  have h1 := hs.meetErr.bump
  have h2 := Sound.ite (.ite h1.loseState h1) h1.setMark
  have h3 := Sound.ite h2.rwRequest h2
  .ite h3.histAdd.hardWord h3.histAdd

theorem State.Sound.sinterVisit {cls : ℕ} {page : ℕ} {mem : ℕ} {addr : ℕ} {kind : ℕ} {symbol : ℕ} {pattern : ℕ} {syn : ℕ} {pos : ℕ} {endPass : Bool} {newer : Bool} {bothBad : Bool} (hs : s.Sound pt) : (State.sinterVisit s cls page mem addr kind symbol pattern syn pos endPass newer bothBad).Sound pt :=
  .ite hs (have h1 := Sound.ite hs.bumpIf (.ite hs.sinterCorrected (.ite hs.sinterUncorr hs)); .ite h1.setF.setF h1.setF)

theorem State.Sound.scrubTick {scrub : ℕ} (hs : s.Sound pt) : (State.scrubTick s scrub).Sound pt :=
  have h1 := Sound.foldl hs fun h2 => h2.setF.setIntIf
  .ite h1 h1.overrun

theorem State.Sound.emPut {addr : ℕ} {n : ℕ} (hs : s.Sound pt) : (State.emPut s addr n).Sound pt :=
  hs.wroteWords.emWrote

theorem State.Sound.emGet {addr : ℕ} {n : ℕ} (hs : s.Sound pt) : ((State.emGet s addr n).1).Sound pt :=
  .foldlFst hs fun h1 => .iteFst h1.readWord h1.readWord.setInt

theorem State.Sound.setSlot {x : ℕ} (hs : s.Sound pt) : (State.setSlot s x).Sound pt :=
  hs.setF

theorem State.Sound.updShow (hs : s.Sound pt) : (State.updShow s).Sound pt :=
  hs.setF.wr64

theorem State.Sound.lockTouch {r : Requester} {clk : ℕ} (hs : s.Sound pt) : (State.lockTouch s r clk).Sound pt :=
  .ite hs.other hs

theorem State.Sound.lockReq {r : Requester} {clk : ℕ} (hs : s.Sound pt) : (State.lockReq s r clk).Sound pt :=
  by unfold State.lockReq; exact (by split; exacts [hs, .ite hs.setF (.ite hs.setF hs.setF.setF.setF.other.setInt)])

theorem State.Sound.lockFree (hs : s.Sound pt) : (State.lockFree s).Sound pt :=
  .ite hs.setF.setInt hs

theorem State.Sound.updIssued {a : Acc} (hs : s.Sound pt) : (State.updIssued s a).Sound pt :=
  hs.lockTouch.setF

theorem State.Sound.updResult {code : ℕ} (hs : s.Sound pt) : (State.updResult s code).Sound pt :=
  hs.setF.bumpIf

theorem State.Sound.updRefuse {code : ℕ} (hs : s.Sound pt) : (State.updRefuse s code).Sound pt :=
  hs.updResult.setInt

theorem State.Sound.updLog {code : ℕ} {low : ℕ} {h : ℕ} (hs : s.Sound pt) : (State.updLog s code low h).Sound pt :=
  hs.log

theorem State.Sound.verify {a : Acc} (hs : s.Sound pt) : (State.verify s a).Sound pt :=
  .ite hs.updIssued.updRefuse (.ite hs.updIssued.updRefuse (.ite hs.updIssued.updRefuse.setInt hs.updIssued.setSlot))

theorem State.Sound.arbRead {k : ℕ} (hs : s.Sound pt) : (State.arbRead s k).1.Sound pt := by
  unfold State.arbRead
  extract_lets r
  have h : r.1.Sound pt := .foldlFst hs fun h => h.emGet
  exact .iteFst h h.setF.setInt

theorem State.Sound.arbRaise {k : ℕ} {seq : ℕ} (hs : s.Sound pt) : (State.arbRaise s k seq).Sound pt :=
  .ite hs hs.wr64.emPut

theorem State.Sound.keyRead (hs : s.Sound pt) : ((State.keyRead s).1).Sound pt :=
  .foldlFst hs fun h1 => h1.emGet

theorem State.Sound.custCheck {h : ℕ} {custOk : Bool} (hs : s.Sound pt) : (State.custCheck s h custOk).1.Sound pt := by
  unfold State.custCheck
  split
  · exact hs
  · exact hs.keyRead

theorem State.Sound.digestPut {i : ℕ} {d : Digest} (hs : s.Sound pt) : (State.digestPut s i d).Sound pt :=
  hs.other.emPut

theorem State.Sound.collision {h : ℕ} (hs : s.Sound pt) : (State.collision s h).Sound pt :=
  hs.bump.setInt.updLog

theorem State.Sound.digestCheck {h : ℕ} {digest : ℕ} (hs : s.Sound pt) : ((State.digestCheck s h digest).1).Sound pt :=
  by unfold State.digestCheck; exact (by dsimp only; split; exacts [.iteFst hs.emGet.collision (.iteFst hs.emGet hs.emGet.digestPut.collision), .iteFst hs.emGet.digestPut ((by split; exacts [hs.emGet.digestPut, hs.emGet]))])

theorem State.Sound.verifyChecks {h : ℕ} {keyOk : Bool} {vendorOk : Bool} {custOk : Bool} {tagOk : Bool} {digest : ℕ} (hs : s.Sound pt) : ((State.verifyChecks s h keyOk vendorOk custOk tagOk digest).1).Sound pt :=
  .iteFst hs (.iteFst hs (.iteFst hs (.iteFst hs.emGet (.iteFst hs.emGet.custCheck (.iteFst hs.emGet.custCheck.digestCheck
    (.iteFst hs.emGet.custCheck.digestCheck hs.emGet.custCheck.digestCheck))))))

theorem State.Sound.verifyDone {keyOk : Bool} {vendorOk : Bool} {custOk : Bool} {tagOk : Bool} {digest : ℕ} (hs : s.Sound pt) : (State.verifyDone s keyOk vendorOk custOk tagOk digest).Sound pt :=
  .ite hs hs.verifyChecks.updResult.setSlot.updLog.setInt

theorem State.Sound.clearStage {a : Acc} (hs : s.Sound pt) : (State.clearStage s a).Sound pt :=
  .ite hs.updIssued.updRefuse hs.updIssued.updResult.setSlot

theorem State.Sound.activate {p : ℕ} (hs : s.Sound pt) : (State.activate s p).Sound pt :=
  (Sound.foldl hs.other fun h1 => h1.setTbl).emPut.other.emWrote.arbRaise.bump.updLog.setSlot

theorem State.Sound.partDown {p : ℕ} (hs : s.Sound pt) : (State.partDown s p).Sound pt :=
  .ite (.ite hs.setTbl hs.setTbl.scEnter.scUpdate) (.ite hs.setTbl (.ite (.foldl hs.setTbl fun h1 => .ite h1.lkToDown h1) (.ite
    (.foldl hs.setTbl fun h2 => .ite h2.laneHunt.setService h2) hs.setTbl.hbmStart)))

theorem State.Sound.startCheck {a : Acc} {p : ℕ} {resident : Bool} (hs : s.Sound pt) : ((State.startCheck s a p resident).1).Sound pt :=
  .iteFst hs (.iteFst hs (.iteFst hs (.iteFst hs (.iteFst ((by split; exacts [hs, hs])) (.iteFst hs (.iteFst hs (.iteFst hs.arbRead (.iteFst hs.arbRead (.iteFst hs.arbRead (.iteFst hs.arbRead hs.arbRead.emGet))))))))))

theorem State.Sound.start {a : Acc} {v : ℕ} (hs : s.Sound pt) : (State.start s a v).Sound pt :=
  have h1 := hs.updIssued.setF
  .ite (.ite hs.updIssued.updRefuse h1.startCheck.updRefuse) ((Sound.ite h1.startCheck h1.startCheck.activate).setF.partDown.other)

theorem State.Sound.goldenCheck {kind : ℕ} {g : GoldenImage} (hs : s.Sound pt) : ((State.goldenCheck s kind g).1).Sound pt :=
  .iteFst hs (.iteFst hs.arbRead (.iteFst hs.arbRead (.iteFst hs.arbRead.custCheck (.iteFst hs.arbRead.custCheck hs.arbRead.custCheck))))

theorem State.Sound.partUp {p : ℕ} {source : ℕ} {h : ℕ} {clk : ℕ} (hs : s.Sound pt) : (State.partUp s p source h clk).Sound pt :=
  .ite ((Sound.ite hs.setTbl.setF.log.scEnter hs.setTbl.setF.log).setSc.scUpdate) (.ite hs.setTbl.wr (.ite hs.setTbl.wr
    (.ite hs.setTbl.wr hs.setTbl)))

theorem State.Sound.loadImage {p : ℕ} {slotOk : Bool} {g : GoldenImage} (hs : s.Sound pt) : ((State.loadImage s p slotOk g).1).Sound pt :=
  by unfold State.loadImage; exact (by dsimp -failIfUnchanged only; split; exacts [(Sound.ite (.ite hs.arbRead.arbRaise hs.arbRead) hs), (by split; exacts [hs.goldenCheck, .iteFst hs.goldenCheck hs.goldenCheck.bump.setInt.updLog])])

theorem State.Sound.startDone {p clk : ℕ} {slotOk : Bool} {g : GoldenImage} (hs : s.Sound pt) : (State.startDone s p clk slotOk g).Sound pt := by
  unfold State.startDone
  extract_lets mine auto r code s1 _ s2
  have h1 : s1.Sound pt := by
    dsimp only [s1]
    split
    · exact hs.loadImage.partUp
    · exact .ite hs.loadImage.bootFail hs.loadImage
  exact .ite hs (Sound.ite (Sound.other h1.updResult.setF) h1).setInt

theorem State.Sound.floorWrite {r : Requester} {k : ℕ} {v : ℕ} (hs : s.Sound pt) : (State.floorWrite s r k v).Sound pt :=
  .ite hs.takeLo.setInt hs.takeLo.wr64.emPut

theorem State.Sound.logPost {r : Requester} {v : ℕ} (hs : s.Sound pt) : (State.logPost s r v).Sound pt :=
  by unfold State.logPost; exact (by split; exacts [hs, .ite hs hs.log])

theorem State.Sound.blockRead {addr : ℕ} {v : ℕ} (hs : s.Sound pt) : ((State.blockRead s addr v).1).Sound pt :=
  .iteFst hs.emGet hs.emGet.draw

theorem State.Sound.updCmd {a : Acc} {op : ℕ} {addr : ℕ} {data : ℕ} (hs : s.Sound pt) : ((State.updCmd s a op addr data).1).Sound pt :=
  by unfold State.updCmd; exact (by dsimp only; split; exacts [.iteFst hs.blockRead (.iteFst (.iteFst hs hs.lockTouch.setTbl.emPut.setSlot.updShow) hs), .iteFst hs (.iteFst hs hs), .iteFst hs (.iteFst hs hs), hs])

theorem State.Sound.keyWrite {b : ℕ} {v : ℕ} (hs : s.Sound pt) : ((State.keyWrite s b v).1).Sound pt :=
  .iteFst hs (.iteFst ((Sound.foldl hs.setTbl fun h1 => h1.emPut).other) (.iteFst (.foldl hs.setTbl fun h2 => h2.emPut) (.iteFst hs
    (((Sound.foldl hs.setTbl fun h3 => h3.emPut).setF).emPut))))

theorem State.Sound.emramCmd {r : Requester} {op : ℕ} {addr : ℕ} {data : ℕ} (hs : s.Sound pt) : ((State.emramCmd s r op addr data).1).Sound pt :=
  by unfold State.emramCmd; exact (by split; exacts [.iteFst hs (.iteFst hs.emGet hs.emGet.draw), .iteFst hs (.iteFst hs (.iteFst hs.blockRead (.iteFst hs hs.setTbl.emPut))), .iteFst hs (.iteFst hs (.iteFst hs.blockRead hs.keyWrite)), hs])

theorem State.Sound.ringSignalled {r : ℕ} (hs : s.Sound pt) : (State.ringSignalled s r).Sound pt :=
  hs.setRing.other

theorem State.Sound.ringRaise {r : ℕ} (hs : s.Sound pt) : (State.ringRaise s r).Sound pt :=
  .ite hs (have h1 := hs.other.raiseSrc; .ite h1.ringSignalled h1)

theorem State.Sound.ringDone {r : ℕ} {now : ℕ} (hs : s.Sound pt) : (State.ringDone s r now).Sound pt :=
  .ite hs.setRing.ringRaise hs.setRing

theorem State.Sound.rearm {v : ℕ} (hs : s.Sound pt) : (State.rearm s v).Sound pt := by
  unfold State.rearm
  exact .ite hs (.foldl hs.sendMsg fun h1 => h1.ringSignalled)

theorem State.Sound.msixFlush {p : ℕ} (hs : s.Sound pt) : (State.msixFlush s p).Sound pt :=
  .ite hs (.foldl hs fun h1 => h1.setPcie.sendMsg)

theorem State.Sound.msixMask {p : ℕ} {enable : Bool} {fmask : Bool} {vec : ℕ} {mask : Bool} {addr : ℕ} {data : ℕ} (hs : s.Sound pt) : (State.msixMask s p enable fmask vec mask addr data).Sound pt :=
  hs.setPcie.msixFlush

theorem State.Sound.ringStop {r : ℕ} (hs : s.Sound pt) : (State.ringStop s r).Sound pt :=
  (Sound.foldl hs fun h1 => .ite h1.ringPuntDrop.cald h1).setRing.setF

theorem State.Sound.portLoss {p : ℕ} (hs : s.Sound pt) : (State.portLoss s p).Sound pt :=
  have h1 := Sound.foldl hs fun h2 => h2.ringStop
  have h3 := Sound.ite h1.lockFree h1
  .ite h3.setF h3

theorem State.Sound.setLink {p : ℕ} {up : ℕ} {flit : ℕ} {speed : ℕ} {width : ℕ} (hs : s.Sound pt) : (State.setLink s p up flit speed width).Sound pt :=
  hs.wr

theorem State.Sound.linkDown {p : ℕ} (hs : s.Sound pt) : (State.linkDown s p).Sound pt :=
  .ite hs hs.portLoss.setLink.bump.setInt

theorem State.Sound.flr {p : ℕ} (hs : s.Sound pt) : (State.flr s p).Sound pt := by
  have cleared {u : State} (h : u.Sound pt) : ((({ u with regs := u.regs.filter fun e => e.1 / 0x1000 != Pg.PCIE p / 0x1000 } : State).wr
      (Rg.PCIE_STAT p) (u.rd (Rg.PCIE_STAT p))).bump (Rg.PCIE_LINK_DOWN_CNT p)).Sound pt :=
    Sound.bump (Sound.wr (Sound.filterRegs (s := u) (f := fun e => e.1 / 0x1000 != Pg.PCIE p / 0x1000) h rfl rfl))
  unfold State.flr
  exact cleared (Sound.foldl (f := fun (t : State) (n : Nat) => if bit (t.tbl Pg.IRQ 0 n) (30 + p) then t.setTf Pg.IRQ 0 n (30 + p) 1 0 else t)
    hs.portLoss.setPcie fun h => Sound.ite h.setTf h)

theorem State.Sound.linkUp {p : ℕ} {speed : ℕ} {width : ℕ} {flit : Bool} (hs : s.Sound pt) : (State.linkUp s p speed width flit).Sound pt :=
  .ite hs hs.setLink.setInt

theorem State.Sound.ringDeny {q : Requester} {r : ℕ} (hs : s.Sound pt) : (State.ringDeny s q r).Sound pt :=
  hs.setIntIf

theorem State.Sound.ringCfgWrite {q : Requester} {r : ℕ} {v : ℕ} (hs : s.Sound pt) : (State.ringCfgWrite s q r v).Sound pt :=
  .ite (.ite hs.ringDeny hs.fieldWrite) (.ite hs.fieldWrite.wr.setF.setRing.other hs.fieldWrite)

theorem State.Sound.ringBaseWrite {q : Requester} {r : ℕ} {v : ℕ} (hs : s.Sound pt) : (State.ringBaseWrite s q r v).Sound pt :=
  .ite hs.takeLo.ringDeny hs.takeLo.wr64

theorem State.Sound.tailWrite {q : Requester} {r : ℕ} {v : ℕ} (hs : s.Sound pt) : (State.tailWrite s q r v).Sound pt :=
  .ite hs.ringDeny (.ite hs.setInt hs.setF)

theorem State.Sound.ringWrite {r : ℕ} {addr : ℕ} {b : List Byte} (hs : s.Sound pt) : (State.ringWrite s r addr b).Sound pt :=
  hs.emit

theorem State.Sound.ringBack {r : ℕ} {size : ℕ} {off : ℕ} {w : ℕ} {now : ℕ} (hs : s.Sound pt) : (State.ringBack s r size off w now).Sound pt :=
  hs.ringWrite.setF.ringDone

theorem State.Sound.fifoPop {src : ℕ} (hs : s.Sound pt) : ((State.fifoPop s src).1).Sound pt :=
  .iteFst hs.learnPop hs.rwPop

theorem State.Sound.fifoFill {src room n : ℕ} {b : List Byte} (hs : s.Sound pt) : (State.fifoFill s src room n b).1.Sound pt := by
  induction n generalizing s b with
  | zero => exact hs
  | succ n ih =>
    unfold State.fifoFill
    exact .iteFst hs (ih hs.fifoPop)

theorem State.Sound.recordBack {r : ℕ} {o : DmaOpen} {now : ℕ} (hs : s.Sound pt) : (State.recordBack s r o now).Sound pt :=
  hs.setRing.ringWrite.ringBack

theorem State.Sound.recordFill {r : ℕ} {o : DmaOpen} {now : ℕ} (hs : s.Sound pt) : (State.recordFill s r o now).Sound pt :=
  have h1 := hs.fifoFill.setRing
  .ite h1.recordBack h1

theorem State.Sound.rxDesc {r : ℕ} {addr : ℕ} {bufLen : ℕ} {now : ℕ} (hs : s.Sound pt) : (State.rxDesc s r addr bufLen now).Sound pt :=
  by unfold State.rxDesc; exact (by dsimp -failIfUnchanged only; split; exacts [hs.recordFill, (by split; exacts [.ite hs.ringBack ((Sound.ite hs.ringWrite.setRing.cald hs.ringWrite.setRing).ringBack), (by split; exacts [hs, .ite hs.ringBack hs.recordFill])])])

theorem State.Sound.txBack {r : ℕ} {st : ℕ} {now : ℕ} (hs : s.Sound pt) : (State.txBack s r st now).Sound pt :=
  (Sound.ite hs hs.bump.setInt).ringBack

theorem State.Sound.injectPipe {r : ℕ} {len : ℕ} {p : ℕ} {data : Option (List Byte)} {clk : ℕ} (hs : s.Sound pt) : (State.injectPipe s r len p data clk).Sound pt :=
  .ite hs.txBack (.ite hs.txBack ((by split; exacts [hs.txBack, .ite hs hs.other.steerEnqueue.bump.txBack])))

theorem State.Sound.injectVoq {r : ℕ} {len : ℕ} {arg0 : ℕ} {arg1 : ℕ} {data : Option (List Byte)} {clk : ℕ} (hs : s.Sound pt) : (State.injectVoq s r len arg0 arg1 data clk).Sound pt :=
  .ite hs.txBack ((by split; exacts [hs.txBack, .ite hs.admitPkt.bump.txBack hs.admitPkt.bump.txBack]))

theorem State.Sound.burstCopy {o : ℕ} {x : ℕ} (hs : s.Sound pt) : ((State.burstCopy s o x).1).Sound pt := by
  induction x generalizing s o with
  | zero => exact hs
  | succ x ih => exact (ih hs.hbmReads)

theorem State.Sound.hbmCopy {r : ℕ} {len : ℕ} {off : ℕ} {addr : ℕ} {clk : ℕ} (hs : s.Sound pt) : (State.hbmCopy s r len off addr clk).Sound pt :=
  .ite hs.txBack (.ite hs.txBack (.ite hs hs.burstCopy.ringWrite.txBack))

theorem State.Sound.dmaCmd {op : ℕ} {addr : ℕ} {data : ℕ} (hs : s.Sound pt) : ((State.dmaCmd s op addr data).1).Sound pt :=
  .iteFst hs (.iteFst hs (.iteFst (.iteFst hs (.iteFst hs hs.setTbl)) (.iteFst hs (.iteFst hs hs.setTf))))

theorem State.Sound.irqCmd {op : ℕ} {addr : ℕ} {data : ℕ} (hs : s.Sound pt) : ((State.irqCmd s op addr data).1).Sound pt :=
  .iteFst hs (.iteFst hs (.iteFst hs hs.setTbl))

theorem State.Sound.freezeWrite {v : ℕ} (hs : s.Sound pt) : (State.freezeWrite s v).Sound pt :=
  .ite hs.setInt hs.fieldWrite

theorem State.Sound.freezeTick (hs : s.Sound pt) : (State.freezeTick s).Sound pt :=
  .ite hs.other.setF (.ite hs.other.setF hs)

theorem State.Sound.freezeEnd (hs : s.Sound pt) : (State.freezeEnd s).Sound pt :=
  by unfold State.freezeEnd; exact (by dsimp only; split; exacts [hs, .ite hs hs.other.setF.setF.setInt])

theorem State.Sound.freezeEndT (hs : s.Sound pt) : (State.freezeEndT s).Sound pt :=
  hs.other

theorem State.Sound.setPlume {n : ℕ} {x : PlumeSt} (hs : s.Sound pt) : (State.setPlume s n x).Sound pt :=
  hs.other.setF

theorem State.Sound.plumeSkip {n : ℕ} (hs : s.Sound pt) : (State.plumeSkip s n).Sound pt :=
  hs.setPlume.bump.overrun.setInt

theorem State.Sound.plumeDue {n : ℕ} (hs : s.Sound pt) : (State.plumeDue s n).Sound pt :=
  .ite hs (.ite hs.plumeSkip hs.setPlume)

theorem State.Sound.plumePair {i : ℕ} (hs : s.Sound pt) : ((State.plumePair s i).1).Sound pt :=
  by unfold State.plumePair; exact (by dsimp only; split; exacts [hs.pairRead, hs.pairRead.draw])

theorem State.Sound.plumeData {l : List DumpItem} (hs : s.Sound pt) : (State.plumeData s l).1.Sound pt := by
  induction l generalizing s with
  | nil => exact hs
  | cons i l ih =>
    cases i with
    | words w => exact ih hs
    | pairs first n => exact ih (.foldlFst hs fun h => h.plumePair)

theorem State.Sound.plumeDrop {n : ℕ} (hs : s.Sound pt) : (State.plumeDrop s n).Sound pt :=
  hs.bump.setInt

theorem State.Sound.plumeHbm {rec' : List Byte} (hs : s.Sound pt) : (State.plumeHbm s rec').Sound pt :=
  hs.hbmWrites.wr

theorem State.Sound.plumeDone {n : ℕ} {room : Bool} (hs : s.Sound pt) : (State.plumeDone s n room).Sound pt :=
  by unfold State.plumeDone; exact (by dsimp only; split; exacts [hs, .ite hs (.ite hs.plumeData.setPlume.plumeDrop (have h1 := hs.plumeData.setPlume.setF; .ite h1.plumeHbm h1.setRing))])

theorem State.Sound.plumeCmd {op : ℕ} {addr : ℕ} {data : ℕ} (hs : s.Sound pt) : ((State.plumeCmd s op addr data).1).Sound pt :=
  .iteFst hs (.iteFst hs (.iteFst hs (.iteFst hs.setTbl.wr (.iteFst hs (.iteFst hs hs.setTbl.wr)))))

theorem State.Sound.setPmEnt {e : ℕ} {x : PmEnt} (hs : s.Sound pt) : (State.setPmEnt s e x).Sound pt :=
  hs.other

theorem State.Sound.pmEnter {e : ℕ} (hs : s.Sound pt) : (State.pmEnter s e).Sound pt :=
  by unfold State.pmEnter; exact (by dsimp only; split; exacts [hs, .ite hs (.ite hs.setPmEnt hs.setPmEnt.wr.setInt)])

theorem State.Sound.pmSample {e sec : ℕ} (hs : s.Sound pt) : (State.pmSample s e sec).2.Sound pt := by
  unfold State.pmSample
  extract_lets
  split
  · exact hs.setLport.setIntIf
  · exact hs.setLane

theorem State.Sound.pmEntity {e sec new : ℕ} {jump suspect : Bool} (hs : s.Sound pt) : (State.pmEntity s e sec new jump suspect).Sound pt := by
  unfold State.pmEntity
  extract_lets die off r on _ _ _ s1 mark
  have hr : r.2.Sound pt := hs.pmSample
  have h1 : s1.Sound pt := .ite hr.setPmEnt.pmEnter hr
  exact .ite h1 h1.setPmEnt

theorem State.Sound.rasSecond {die : ℕ} (hs : s.Sound pt) : (State.rasSecond s die).Sound pt :=
  (Sound.foldl hs fun h1 => .ite h1.wr h1).other

theorem State.Sound.logSecond (hs : s.Sound pt) : (State.logSecond s).Sound pt :=
  .ite hs.other hs.other.putRec

theorem State.Sound.rollDie {die : ℕ} {old : ℕ} {new : ℕ} {suspect : Bool} (hs : s.Sound pt) : (State.rollDie s die old new suspect).Sound pt :=
  have h1 := Sound.foldl hs fun h2 => h2.pmEntity
  .ite h1.rasSecond.other h1.rasSecond.logSecond.other

theorem State.Sound.pmRoll {late : Bool} (hs : s.Sound pt) : (State.pmRoll s late).Sound pt :=
  have h1 := Sound.ite hs ((Sound.ite hs.overrun hs).rollDie)
  .ite (.ite h1.rollDie h1) (.ite h1 h1.rollDie)

theorem State.Sound.pmCmd {die : ℕ} {op : ℕ} {addr : ℕ} (hs : s.Sound pt) : ((State.pmCmd s die op addr).1).Sound pt :=
  .iteFst hs (.iteFst hs hs)

theorem State.Sound.cntFCmd {op : ℕ} {addr : ℕ} (hs : s.Sound pt) : ((State.cntFCmd s op addr).1).Sound pt :=
  .iteFst hs.pmCmd hs

theorem State.Sound.cntTCmd {op : ℕ} {addr : ℕ} {data : ℕ} (hs : s.Sound pt) : ((State.cntTCmd s op addr data).1).Sound pt :=
  by unfold State.cntTCmd; exact (by split; exacts [hs.pmCmd, hs.flowCmd, hs.plumeCmd, hs])

theorem State.Sound.setBundle {d : ℕ} {n : ℕ} {b : Bundle} (hs : s.Sound pt) : (State.setBundle s d n b).Sound pt :=
  .ite hs.other hs.other

theorem State.Sound.d2dRefresh (hs : s.Sound pt) : (State.d2dRefresh s).Sound pt :=
  .foldl hs fun h1 => h1.setF.setF.setF

theorem State.Sound.d2dDownActions (hs : s.Sound pt) : (State.d2dDownActions s).Sound pt :=
  hs.setInts.setInts.log.egressFlush.withdrawSelf.freezeEndT

theorem State.Sound.d2dEval {mayReturn : Bool} (hs : s.Sound pt) : (State.d2dEval s mayReturn).Sound pt :=
  .ite hs.d2dRefresh (have h1 := (hs.d2dRefresh.withPaths fun h2 => h2.setF.setF).setInt.setInt; .ite h1.other.d2dDownActions
    (.ite h1.withdrawSelf h1))

theorem State.Sound.bundleLoss {d : ℕ} {n : ℕ} (hs : s.Sound pt) : (State.bundleLoss s d n).Sound pt :=
  .ite hs hs.setF.setBundle.setInt.d2dEval

theorem State.Sound.flit {d : ℕ} {n : ℕ} {seq : ℕ} {crcOk : Bool} {aligned : Bool} (hs : s.Sound pt) : (State.flit s d n seq crcOk aligned).Sound pt :=
  .ite hs (.ite hs.bundleLoss (have h1 := Sound.ite hs hs.bump.bump; .ite h1.setBundle (.ite h1.bundleLoss h1.bump.bump.setBundle)))

theorem State.Sound.failLane {d : ℕ} {n : ℕ} {lane : ℕ} (hs : s.Sound pt) : (State.failLane s d n lane).Sound pt :=
  .ite hs (.ite hs.bundleLoss hs.setBundle)

theorem State.Sound.laneParity {d : ℕ} {n : ℕ} {counts : List ℕ} (hs : s.Sound pt) : (State.laneParity s d n counts).Sound pt :=
  have h1 := Sound.foldl hs fun h2 => h2.setF.bump
  .ite h1.setF (.foldl h1.setF fun h3 => h3.failLane)

theorem State.Sound.repairDone {d : ℕ} {n : ℕ} (hs : s.Sound pt) : (State.repairDone s d n).Sound pt :=
  by unfold State.repairDone; exact (by split; exacts [hs, hs.setF.setF.setBundle.d2dRefresh.bump.setInt])

theorem State.Sound.startTraining (hs : s.Sound pt) : (State.startTraining s).Sound pt :=
  hs.other.d2dEval

theorem State.Sound.retrain {d : ℕ} {v : ℕ} (hs : s.Sound pt) : (State.retrain s d v).Sound pt :=
  .ite hs.fieldWrite (.ite hs.fieldWrite.startTraining hs.fieldWrite.setInt)

theorem State.Sound.autoRetrain (hs : s.Sound pt) : (State.autoRetrain s).Sound pt :=
  .ite hs.startTraining hs

theorem State.Sound.trainBundle {d : ℕ} {n : ℕ} {mask : ℕ} (hs : s.Sound pt) : (State.trainBundle s d n mask).Sound pt :=
  by unfold State.trainBundle; exact (by dsimp only; split; exacts [hs.setBundle.wr, .ite hs.setBundle.wr hs.setBundle.wr, hs.setBundle.wr])

theorem State.Sound.trainingDone {failF : List ℕ} {failT : List ℕ} (hs : s.Sound pt) : (State.trainingDone s failF failT).Sound pt :=
  .ite hs ((Sound.foldl hs fun h1 => h1.trainBundle.trainBundle).other.d2dEval)

theorem State.Sound.fdieTimeout {a : Acc} {isRead : Bool} (hs : s.Sound pt) : (State.fdieTimeout s a isRead).Sound pt :=
  by unfold State.fdieTimeout; exact have h1 := Sound.ite hs.other hs; (by dsimp only; split; exacts [h1.bump.setInt, h1])

theorem State.Sound.d2dTick (hs : s.Sound pt) : (State.d2dTick s).Sound pt :=
  .ite hs.other.d2dEval.other hs.other.d2dEval

theorem State.Sound.setReq {die : ℕ} {d : ℕ} {on : Bool} (hs : s.Sound pt) : (State.setReq s die d on).Sound pt :=
  .ite hs.wr.wr hs.wr

theorem State.Sound.setDom {die : ℕ} {d : ℕ} {on : Bool} (hs : s.Sound pt) : (State.setDom s die d on).Sound pt :=
  hs.wr.setInt

theorem State.Sound.powerRefuse {die : ℕ} (hs : s.Sound pt) : (State.powerRefuse s die).Sound pt :=
  hs.bump.setInt

theorem State.Sound.domStart {die : ℕ} (hs : s.Sound pt) : (State.domStart s die).Sound pt :=
  hs.other

theorem State.Sound.domAsk {die : ℕ} {d : ℕ} {on : Bool} {by' : ℕ} (hs : s.Sound pt) : (State.domAsk s die d on by').Sound pt :=
  .ite hs (.ite hs.other.setReq (.ite (.ite hs.other.setReq hs.other.other.setReq.domStart) (.ite hs.other.other.setReq
    (.ite hs.other.other.setReq hs.other.powerRefuse))))

theorem State.Sound.reqWrite {die : ℕ} {w : ℕ} {v : ℕ} {by' : ℕ} (hs : s.Sound pt) : (State.reqWrite s die w v by').Sound pt :=
  .foldl hs fun h1 => .ite h1 h1.domAsk

theorem State.Sound.ctrlRefuse {page : ℕ} (hs : s.Sound pt) : (State.ctrlRefuse s page).Sound pt :=
  hs.setInts

theorem State.Sound.pagePower {page : ℕ} {on : Bool} {by' : ℕ} (hs : s.Sound pt) : (State.pagePower s page on by').Sound pt :=
  .ite (.foldl hs fun h1 => h1.domAsk) (.ite hs.ctrlRefuse (.ite (.foldl hs fun h2 => h2.domAsk) hs.powerRefuse.ctrlRefuse))

theorem State.Sound.caldPwr {v : ℕ} {by' : ℕ} (hs : s.Sound pt) : (State.caldPwr s v by').Sound pt :=
  (Sound.foldl hs fun h1 => h1.domAsk).setIntIf

theorem State.Sound.losePages {ps : List ℕ} (hs : s.Sound pt) : (State.losePages s ps).Sound pt := by
  unfold State.losePages
  extract_lets out s1
  have h1 : s1.Sound pt := hs.filterRegs rfl rfl
  exact .foldl h1 fun h => h.setF.setF

theorem State.Sound.loseMems {pg : ℕ} {lo : ℕ} {hi : ℕ} {memLo : ℕ} {memHi : ℕ} (hs : s.Sound pt) : (State.loseMems s pg lo hi memLo memHi).Sound pt :=
  hs.other

theorem State.Sound.dropPart {p : ℕ} (hs : s.Sound pt) : (State.dropPart s p).Sound pt :=
  hs.setTbl

theorem State.Sound.wipeAp {c : ℕ} (hs : s.Sound pt) : (State.wipeAp s c).Sound pt :=
  hs.other

theorem State.Sound.wipeSlice {d : ℕ} {i : ℕ} (hs : s.Sound pt) : (State.wipeSlice s d i).Sound pt :=
  hs.abortTest.setSlice.other

theorem State.Sound.loseSlice {d : ℕ} {i : ℕ} (hs : s.Sound pt) : (State.loseSlice s d i).Sound pt :=
  hs.wipeSlice.dropPart.wipeAp

theorem State.Sound.loseAcl {h : ℕ} (hs : s.Sound pt) : (State.loseAcl s h).Sound pt :=
  hs.loseMems.setF.setInt

theorem State.Sound.loseHash {g : ℕ} (hs : s.Sound pt) : (State.loseHash s g).Sound pt :=
  .foldl hs.loseMems fun h1 => .ite h1 (.ite h1.setF.setF h1.setF)

theorem State.Sound.wipeLine {g : ℕ} (hs : s.Sound pt) : (State.wipeLine s g).Sound pt :=
  hs.other

theorem State.Sound.wipeHbm {k : ℕ} (hs : s.Sound pt) : (State.wipeHbm s k).Sound pt :=
  hs.other

theorem State.Sound.wipeLanes {q : ℕ} (hs : s.Sound pt) : (State.wipeLanes s q).Sound pt :=
  hs.other

theorem State.Sound.loseSc {k : ℕ} (hs : s.Sound pt) : (State.loseSc s k).Sound pt :=
  hs.setSc.dropPart

theorem State.Sound.losePcie {p : ℕ} (hs : s.Sound pt) : (State.losePcie s p).Sound pt :=
  hs.linkDown.setPcie

theorem State.Sound.loseDomain {die : ℕ} {d : ℕ} (hs : s.Sound pt) : (State.loseDomain s die d).Sound pt :=
  (Sound.ite (.ite hs.loseSlice (.ite hs (.ite hs.loseAcl (.ite hs.loseHash (.ite hs.wipeLine.dropPart hs.loseSc)))))
    (.ite hs.wipeLanes.dropPart (.ite hs.wipeHbm.dropPart (.ite hs.loseSc (.ite hs.losePcie hs))))).losePages

theorem State.Sound.domOffDone {die : ℕ} {d : ℕ} (hs : s.Sound pt) : (State.domOffDone s die d).Sound pt :=
  .ite hs hs.loseDomain.setDom.other.domStart.scUpdate

theorem State.Sound.domOnDone {die : ℕ} {d : ℕ} (hs : s.Sound pt) : (State.domOnDone s die d).Sound pt :=
  .ite hs (have h1 := hs.other.setDom.domStart; .ite h1 h1.setReq.domAsk)

theorem State.Sound.aclRun {old : Bool} {rank prof : ℕ} {k : KeySrc} (hs : s.Sound pt) : (State.aclRun s old rank prof k).1.Sound pt := by
  unfold State.aclRun
  extract_lets mask key
  clear_value mask key
  cases s.aclSearch mask rank key with
  | none => exact hs
  | some e =>
    have h1 : State.Sound pt ((s.touch Pg.ACL 2 (e.1 / 4096) ((List.range 6).map (e.1 % 4096 * 8 + ·))).rwRequest 2 (e.1 / 4096)
    (e.1 % 4096 * 8)) := hs.touch.rwRequest
    dsimp only
    generalize (s.touch Pg.ACL 2 (e.1 / 4096) ((List.range 6).map (e.1 % 4096 * 8 + ·))).rwRequest 2 (e.1 / 4096) (e.1 % 4096 * 8) = s1 at h1 ⊢
    generalize s.aclShadowBad e.1 = q
    split
    · exact h1
    · exact hs

theorem State.Sound.emStage {old : Bool} {rank : ℕ} {prof : ℕ} {stage : ℕ} {k : KeySrc} {c : Cls} (hs : s.Sound pt) : ((State.emStage s old rank prof stage k c).1).Sound pt :=
  .iteFst hs.bump ((by dsimp only; split; exacts [hs.exmLookup.bump, hs.exmLookup.bump]))

theorem State.Sound.aclStage {old : Bool} {rank : ℕ} {prof : ℕ} {n : ℕ} {k : KeySrc} {c : Cls} (hs : s.Sound pt) : ((State.aclStage s old rank prof n k c).1).Sound pt :=
  hs.aclRun.bumpIf.bumpIf

theorem State.Sound.classCount {c : Cls} (hs : s.Sound pt) : (State.classCount s c).Sound pt :=
  hs.bumpIf.bumpIf

theorem State.Sound.classify {old : Bool} {rank : ℕ} {k : Pkt} {p : Parsed} {upset : Option ℕ} (hs : s.Sound pt) : ((State.classify s old rank k p upset).1).Sound pt :=
  .iteFst ((Sound.iteFst hs.emStage.emStage.aclStage hs.emStage.emStage).aclStage) (.iteFst hs.emStage.emStage.aclStage hs.emStage.emStage)

theorem State.Sound.aclUsed {i : ℕ} {up : Bool} (hs : s.Sound pt) : (State.aclUsed s i up).Sound pt :=
  hs.setF

theorem State.Sound.aclPut {i : ℕ} {v : ℕ} (hs : s.Sound pt) : (State.aclPut s i v).Sound pt :=
  hs.setTbl.wroteWords

theorem State.Sound.aclFree {i : ℕ} (hs : s.Sound pt) : (State.aclFree s i).Sound pt :=
  hs.aclPut.aclUsed

theorem State.Sound.aclWrite {i : ℕ} {data : ℕ} (hs : s.Sound pt) : ((State.aclWrite s i data).1).Sound pt :=
  .iteFst hs (.iteFst hs.classLogRefuse (have h1 := Sound.ite ((Sound.ite hs hs.aclUsed).aclPut) (.ite hs.aclFree hs); .ite h1.classLogAdd h1))

theorem State.Sound.aclDelete {i : ℕ} (hs : s.Sound pt) : (State.aclDelete s i).Sound pt :=
  .ite hs.aclFree (.ite hs.classLogAdd.aclFree hs.classLogAdd.aclPut)

theorem State.Sound.aclMove {i : ℕ} {j : ℕ} (hs : s.Sound pt) : ((State.aclMove s i j).1).Sound pt :=
  .iteFst hs (.iteFst hs (.iteFst hs hs.aclUsed.aclPut.aclFree.classLogMove))

theorem State.Sound.aclRead {i : ℕ} (hs : s.Sound pt) : (State.aclRead s i).1.Sound pt := by
  unfold State.aclRead
  split
  next s1 ok e1 =>
  have h1 : s1.Sound pt := hs.readWords.ofEq e1
  exact .iteFst h1.draw (.foldl h1 fun h => h.wr)

theorem State.Sound.aclCmdSearch {prof : ℕ} {data : ℕ} (hs : s.Sound pt) : ((State.aclCmdSearch s prof data).1).Sound pt :=
  by unfold State.aclCmdSearch; exact (by split; exacts [hs, hs])

theorem State.Sound.aclFlush {data : ℕ} (hs : s.Sound pt) : ((State.aclFlush s data).1).Sound pt :=
  .iteFst hs.classLogRefuse (.foldl hs fun h1 => h1.aclDelete)

theorem State.Sound.aclCmd {op : ℕ} {addr : ℕ} {data : ℕ} (hs : s.Sound pt) : ((State.aclCmd s op addr data).1).Sound pt :=
  .iteFst hs (.iteFst hs.lateTbl (.iteFst hs ((by split; exacts [hs.aclRead, hs.aclWrite, .iteFst hs (.iteFst hs.classLogRefuse hs.aclDelete), .iteFst hs.aclMove hs, hs.aclCmdSearch, hs.aclFlush, hs]))))

theorem State.Sound.aclWalk {i : ℕ} (hs : s.Sound pt) : (State.aclWalk s i).Sound pt :=
  .ite hs ((by split; exacts [hs.aclFree, hs.aclPut]))

theorem State.Sound.classWalkDone (hs : s.Sound pt) : (State.classWalkDone s).Sound pt :=
  .ite hs ((Sound.foldl hs fun h1 => .ite h1.aclWalk h1.exmWalk).other.setF.classLogStat.setInt)

theorem State.Sound.terrPut {b : ℕ} {r : ℕ} {e : ℕ} (hs : s.Sound pt) : (State.terrPut s b r e).Sound pt :=
  hs.setTbl.setTbl.wroteWord.wroteWords

theorem State.Sound.terrStat {b : ℕ} (hs : s.Sound pt) : (State.terrStat s b).Sound pt :=
  .ite hs.wr.wr hs.wr

theorem State.Sound.terrLogStat (hs : s.Sound pt) : (State.terrLogStat s).Sound pt :=
  hs.setF.setF

theorem State.Sound.terrLogRefuse (hs : s.Sound pt) : (State.terrLogRefuse s).Sound pt :=
  hs.bump.setInt

theorem State.Sound.terrLogAdd {b : ℕ} {r : ℕ} (hs : s.Sound pt) : (State.terrLogAdd s b r).Sound pt :=
  hs.other.terrLogStat.addPending

theorem State.Sound.terrLogMove {b : ℕ} {r : ℕ} {r' : ℕ} (hs : s.Sound pt) : (State.terrLogMove s b r r').Sound pt :=
  hs.other

theorem State.Sound.terrParity {fam : ℕ} {rank : ℕ} {vrf : ℕ} {addr : ℕ} {b : ℕ} {r : ℕ} {a : TerrAns} (hs : s.Sound pt) : ((State.terrParity s fam rank vrf addr b r a).1).Sound pt :=
  .iteFst hs (have h1 := hs.touch.setInt; .iteFst h1.bump h1.bump)

theorem State.Sound.terrLookup {old : Bool} {rank : ℕ} {fam : ℕ} {vrf : ℕ} {addr : ℕ} (hs : s.Sound pt) : ((State.terrLookup s old rank fam vrf addr).1).Sound pt :=
  by unfold State.terrLookup; exact have h1 := hs.touch.bump64; have h2 := Sound.ite h1.bump64 h1; have h3 := Sound.ite h2 h2.bump; (by dsimp only; split; exacts [h3, h3.terrParity])

theorem State.Sound.terrMove {b : ℕ} {r : ℕ} {hole : ℕ} (hs : s.Sound pt) : (State.terrMove s b r hole).Sound pt :=
  hs.terrPut.terrPut.terrLogMove.bump

theorem State.Sound.terrShift {b : ℕ} {hole : ℕ} {rows : List ℕ} (hs : s.Sound pt) : ((State.terrShift s b hole rows).1).Sound pt :=
  .foldlFst hs fun h1 => h1.terrMove

theorem State.Sound.terrInsert {b : ℕ} {vrf : ℕ} {addr : ℕ} {len : ℕ} {res : ℕ} (hs : s.Sound pt) : ((State.terrInsert s b vrf addr len res).1).Sound pt :=
  .iteFst hs (.iteFst hs (.iteFst hs.terrLogRefuse ((by split; exacts [hs, have h1 := hs.terrShift.terrPut; (Sound.ite h1.terrLogAdd h1).terrStat]))))

theorem State.Sound.terrWrite {b : ℕ} {vrf : ℕ} {addr : ℕ} {len : ℕ} {res : ℕ} (hs : s.Sound pt) : ((State.terrWrite s b vrf addr len res).1).Sound pt :=
  .iteFst hs ((by split; exacts [hs, .iteFst hs.terrPut (.iteFst hs (.iteFst hs.terrLogRefuse hs.terrPut.terrLogAdd))]))

theorem State.Sound.terrFree {b : ℕ} {r : ℕ} (hs : s.Sound pt) : (State.terrFree s b r).Sound pt :=
  hs.terrPut.terrStat

theorem State.Sound.terrMark {b : ℕ} {r : ℕ} {m : ℕ} (hs : s.Sound pt) : (State.terrMark s b r m).Sound pt :=
  hs.terrPut

theorem State.Sound.terrDelete {b : ℕ} {r : ℕ} (hs : s.Sound pt) : (State.terrDelete s b r).Sound pt :=
  .ite hs.terrFree (.ite hs.terrLogAdd.terrFree hs.terrLogAdd.terrMark)

theorem State.Sound.terrCmdDelete {b : ℕ} {vrf : ℕ} {addr : ℕ} {len : ℕ} (hs : s.Sound pt) : ((State.terrCmdDelete s b vrf addr len).1).Sound pt :=
  by unfold State.terrCmdDelete; exact (by split; exacts [hs, .iteFst hs.terrLogRefuse hs.terrDelete])

theorem State.Sound.terrFlush {b : ℕ} (hs : s.Sound pt) : ((State.terrFlush s b).1).Sound pt :=
  .iteFst hs.terrLogRefuse (.foldl hs fun h1 => h1.terrDelete)

theorem State.Sound.terrRead {b : ℕ} {r : ℕ} (hs : s.Sound pt) : ((State.terrRead s b r).1).Sound pt :=
  .iteFst hs.readWord hs.readWord.draw

theorem State.Sound.terrCmd {g : ℕ} {op : ℕ} {addr : ℕ} {data : ℕ} (hs : s.Sound pt) : ((State.terrCmd s g op addr data).1).Sound pt :=
  .iteFst hs (.iteFst hs.lateTbl (.iteFst hs ((by split; exacts [hs.terrRead, hs.terrWrite, hs.terrInsert, hs.terrCmdDelete, hs.terrFlush, hs]))))

theorem State.Sound.pivotCmd {op : ℕ} {addr : ℕ} {data : ℕ} (hs : s.Sound pt) : ((State.pivotCmd s op addr data).1).Sound pt :=
  .iteFst hs.terrLookup (.iteFst hs (.iteFst hs (.iteFst (.iteFst hs.readWord hs.readWord.draw) (.iteFst hs (.iteFst hs.lateTbl
    (.iteFst hs (have h1 := hs.setTbl.wroteWord; .ite h1.addPending h1)))))))

theorem State.Sound.terrWalkOne {i : ℕ} (hs : s.Sound pt) : (State.terrWalkOne s i).Sound pt :=
  .ite hs ((by split; exacts [hs.terrFree, hs.terrMark]))

theorem State.Sound.terrWalkDone (hs : s.Sound pt) : (State.terrWalkDone s).Sound pt :=
  .ite hs ((Sound.foldl hs fun h1 => h1.terrWalkOne).other.setF.terrLogStat.setInt)

theorem State.Sound.terrUpset {b : ℕ} {r : ℕ} {pattern : ℕ} (hs : s.Sound pt) : (State.terrUpset s b r pattern).Sound pt :=
  .ite hs hs.setTbl

theorem State.Sound.terrRewrite {b : ℕ} {r : ℕ} (hs : s.Sound pt) : (State.terrRewrite s b r).Sound pt :=
  .ite hs hs.terrPut

theorem State.Sound.terrScrub {b : ℕ} {r : ℕ} {upset : ℕ} {shadowLost : Bool} (hs : s.Sound pt) : (State.terrScrub s b r upset shadowLost).Sound pt :=
  .ite hs (.ite hs.terrUpset (.ite hs.terrUpset.terrFree.wr.bump.setInt hs.terrUpset.terrPut.bump.setInt))

theorem State.Sound.applyShadows (hs : s.Sound pt) : (State.applyShadows s).Sound pt :=
  (Sound.foldl hs fun h1 => h1.wr).other

theorem State.Sound.checkDone (hs : s.Sound pt) : (State.checkDone s).Sound pt :=
  .ite hs hs.wr.wr.setF.setInt

theorem State.Sound.nhEnt {t' : ℕ} {i : ℕ} (hs : s.Sound pt) : ((State.nhEnt s t' i).1).Sound pt :=
  hs.getEntry

theorem State.Sound.setLive {w : ℕ} {on : Bool} (hs : s.Sound pt) : (State.setLive s w on).Sound pt :=
  hs.wr

theorem State.Sound.hwClear {w : ℕ} {t' : ℕ} (hs : s.Sound pt) : (State.hwClear s w t').Sound pt :=
  .ite hs.other hs.other.setLive.bump.setInt

theorem State.Sound.livenessClear {port : ℕ} {clk : ℕ} (hs : s.Sound pt) : (State.livenessClear s port clk).Sound pt :=
  .ite hs (.foldl hs fun h1 => h1.hwClear)

theorem State.Sound.liveSet {w : ℕ} {t' : ℕ} (hs : s.Sound pt) : (State.liveSet s w t').Sound pt :=
  .ite hs.bump hs.setLive

theorem State.Sound.nhopLive {i : ℕ} {v : ℕ} {clk : ℕ} (hs : s.Sound pt) : (State.nhopLive s i v clk).Sound pt :=
  .foldl hs fun h1 => h1.liveSet

theorem State.Sound.nhopLiveClr {i : ℕ} {v : ℕ} (hs : s.Sound pt) : (State.nhopLiveClr s i v).Sound pt :=
  .foldl hs fun h1 => h1.setLive

theorem State.Sound.resolveErr (hs : s.Sound pt) : ((State.resolveErr s).1).Sound pt :=
  hs.bump.setInt

theorem State.Sound.resolveStop {f : ℕ × ℕ} (hs : s.Sound pt) : ((State.resolveStop s f).1).Sound pt :=
  hs.bump

theorem State.Sound.resolveNh {i ttl : ℕ} (hs : s.Sound pt) : (State.resolveNh s i ttl).1.Sound pt := by
  unfold State.resolveNh
  split
  next s1 e e1 =>
  have h1 : s1.Sound pt := hs.nhEnt.ofEq e1
  refine .iteFst h1.resolveErr (.iteFst h1.resolveStop ?_)
  split
  next s2 x e2 =>
  have h2 : s2.Sound pt := Sound.ofEq (.iteFst h1.resolveStop h1) e2
  exact .iteFst h2.bump h2

theorem State.Sound.resolveProt {i ttl : ℕ} (hs : s.Sound pt) : (State.resolveProt s i ttl).1.Sound pt := by
  unfold State.resolveProt
  split
  next s1 e e1 =>
  have h1 : s1.Sound pt := hs.nhEnt.ofEq e1
  exact .iteFst h1.resolveErr h1.resolveNh

theorem State.Sound.resolveEcmp {i hash ttl : ℕ} (hs : s.Sound pt) : (State.resolveEcmp s i hash ttl).1.Sound pt := by
  unfold State.resolveEcmp
  split
  next s1 e e1 =>
  have h1 : s1.Sound pt := hs.nhEnt.ofEq e1
  refine .iteFst h1.resolveErr ?_
  extract_lets off
  split
  next s2 m e2 =>
  have h2 : s2.Sound pt := h1.nhEnt.ofEq e2
  exact .iteFst h2.resolveErr (.iteFst h2.resolveProt h2.resolveNh)

theorem State.Sound.resolve {res : ℕ} {hash : ℕ} {ttl : ℕ} (hs : s.Sound pt) : ((State.resolve s res hash ttl).1).Sound pt :=
  by unfold State.resolve; exact (by dsimp only; split; exacts [hs.resolveNh, hs.resolveEcmp, hs.resolveProt, hs.resolveStop, hs.resolveStop, hs.resolveErr])

theorem State.Sound.watchWritten {i : ℕ} {e : ℕ} {clk : ℕ} (hs : s.Sound pt) : (State.watchWritten s i e clk).Sound pt :=
  .ite hs.hwClear hs

theorem State.Sound.nhopCmd {op : ℕ} {addr : ℕ} {data : ℕ} {clk : ℕ} (hs : s.Sound pt) : ((State.nhopCmd s op addr data clk).1).Sound pt :=
  .iteFst hs (.iteFst hs (.iteFst (.iteFst hs.readWords hs.readWords.draw) (.iteFst hs (.ite hs.putEntry.watchWritten hs.putEntry))))

theorem State.Sound.encapMiss (hs : s.Sound pt) : (State.encapMiss s).Sound pt :=
  hs.bump.setInt

theorem State.Sound.encapChain {n i : ℕ} (hs : s.Sound pt) : (State.encapChain s n i).1.Sound pt := by
  induction n generalizing s i with
  | zero => exact hs
  | succ n ih =>
    unfold State.encapChain
    split
    next s1 e e1 =>
    have h1 : s1.Sound pt := hs.nhEnt.ofEq e1
    exact .iteFst h1 (.iteFst h1 (ih h1))

theorem State.Sound.encapBuild {b : List Byte} {hv : List Hdr} {tc e : ℕ} {chain : List ℕ} (hs : s.Sound pt) :
    (State.encapBuild s b hv tc e chain).1.Sound pt := by
  unfold State.encapBuild
  extract_lets
  refine .iteFst hs.bump ?_
  extract_lets
  split
  next s1 sa e1 =>
  have h1 : s1.Sound pt := hs.nhEnt.ofEq e1
  exact .iteFst h1.encapMiss h1.draw.draw

theorem State.Sound.encap {b : List Byte} {hv : List Hdr} {tc hint : ℕ} (hs : s.Sound pt) : (State.encap s b hv tc hint).1.Sound pt := by
  unfold State.encap
  extract_lets kind
  refine .iteFst hs (.iteFst hs (.iteFst hs.encapMiss ?_))
  split
  next s1 e chain e1 =>
    have h1 : s1.Sound pt := hs.encapChain.ofEq e1
    exact .iteFst h1 h1.encapBuild
  next s1 _ _ e1 => exact (hs.encapChain.ofEq e1).encapMiss

theorem State.Sound.putPkt {d : ℕ} {i : ℕ} {k : Pkt} (hs : s.Sound pt) : (State.putPkt s d i k).Sound pt :=
  hs.setSlice

theorem State.Sound.progEntry {c : ℕ} {copy : ℕ} {n : ℕ} (hs : s.Sound pt) : ((State.progEntry s c copy n).1).Sound pt :=
  hs.readWord

theorem State.Sound.prevBusy {c : ℕ} (hs : s.Sound pt) : (State.prevBusy s c).Sound pt :=
  hs.setF

theorem State.Sound.offer {d : ℕ} {i : ℕ} {k : Pkt} {prog : ℕ} {copy : ℕ} {at' : ℕ} (hs : s.Sound pt) : (State.offer s d i k prog copy at').Sound pt :=
  .ite hs.putPkt (.ite hs.progEntry.bump.putPkt hs.progEntry.putPkt.endCtx.setCtx.postEvent.bump64.prevBusy)

theorem State.Sound.saCheck {i : ℕ} {k : Pkt} {p : Parsed} {c : Cls} (hs : s.Sound pt) : ((State.saCheck s i k p c).1).Sound pt :=
  .iteFst hs (have h1 := Sound.ite hs.exmTouch hs; (Sound.ite h1.learnPut h1))

theorem State.Sound.routePkt {old : Bool} {rank : ℕ} {k : Pkt} {p : Parsed} {c : Cls} (hs : s.Sound pt) : ((State.routePkt s old rank k p c).1).Sound pt :=
  .iteFst hs ((by split; exacts [hs, .iteFst hs.terrLookup ((by split; exacts [hs.terrLookup.bump, hs.terrLookup.resolve]))]))

theorem State.Sound.sliceEntry {i clk : ℕ} {upset : Option (ℕ × ℕ × ℕ)} {aclUpset : Option ℕ} {buf : Option MemErr} (hs : s.Sound pt) :
    (State.sliceEntry s i clk upset aclUpset buf).Sound pt := by
  unfold State.sliceEntry
  refine .ite hs ?_
  extract_lets x entry s0
  split
  next k0 rest _ =>
    extract_lets s1 g rb s1' k _ s2 old rank
    refine .ite hs ?_
    have h0 : s0.Sound pt := by
      dsimp only [s0]
      split
      · exact hs.terrUpset
      · exact hs
    have h1 : s1.Sound pt := h0.setSlice.poolTouch
    have hb : rb.1.Sound pt := h1.dataErr
    have h2 : s2.Sound pt := hb.bumpIf.setSlice
    split
    next s3 p e3 =>
    have h3 : s3.Sound pt := h2.parse.ofEq e3
    extract_lets s4
    have h4 : s4.Sound pt := h3.setIntIf
    split
    next s5 c e5 =>
    extract_lets s6
    have h6 : s6.Sound pt := (h4.classify.ofEq e5).classCount
    split
    next s7 r e7 =>
    split
    next s8 sa e8 =>
    have h8 : s8.Sound pt := (h6.routePkt.ofEq e7).saCheck.ofEq e8
    extract_lets k1
    split
    · exact h8.putPkt
    · exact h8.offer
  · exact hs

theorem State.Sound.egressAcl {k : Pkt} {p : Parsed} (hs : s.Sound pt) : ((State.egressAcl s k p).1).Sound pt :=
  .iteFst hs hs.aclRun.bumpIf

theorem State.Sound.egressEntry {i : ℕ} {clk : ℕ} (hs : s.Sound pt) : (State.egressEntry s i clk).Sound pt :=
  .ite hs ((by dsimp only; split; exacts [.ite hs (have h1 := hs.setSlice.poolTouch.parse.setIntIf; .ite h1.egressAcl.putPkt (.ite h1.egressAcl.encap.putPkt h1.egressAcl.encap.offer)), hs]))

theorem State.Sound.handoff {d : ℕ} {i : ℕ} {tailPending : Bool} (hs : s.Sound pt) : (State.handoff s d i tailPending).Sound pt :=
  .ite hs ((by dsimp only; split; exacts [hs, .ite hs (have h1 := Sound.ite hs.setSlice.freeBuf hs.setSlice; .ite h1 (.ite h1.bump (.ite h1.bump64.other h1.bump64.other)))]))

theorem State.Sound.setGr {i : ApId} {n : ℕ} {v : DWord} (hs : s.Sound pt) : (State.setGr s i n v).Sound pt :=
  .ite hs.setCtx.setMark hs.setCtx

theorem State.Sound.setPc {i : ApId} {pc : ℕ} (hs : s.Sound pt) : (State.setPc s i pc).Sound pt :=
  hs.setCtx

theorem State.Sound.clusterIrq {c bitNo : ℕ} {r : Option ℕ} (hs : s.Sound pt) : (State.clusterIrq s c bitNo r).Sound pt := by
  unfold State.clusterIrq
  extract_lets s1 s2
  have h1 : s1.Sound pt := by
    dsimp only [s1]
    split
    · exact .ite hs.wr64 hs
    · exact hs
  exact .ite h1.setInt.sliceFault h1.setInt

theorem State.Sound.postFault {i : ApId} {r : ℕ} (hs : s.Sound pt) : (State.postFault s i r).Sound pt :=
  .ite hs.bump.clusterIrq hs.setSup.postEvent

theorem State.Sound.apFault {i : ApId} {code : ℕ} (hs : s.Sound pt) : (State.apFault s i code).Sound pt := by
  unfold State.apFault
  extract_lets x r c s1 _ s1'
  have h1 : s1.Sound pt := by
    dsimp only [s1]
    split
    · exact hs.putPkt
    · exact hs
  have h1' : s1'.Sound pt := hs.setThr
  exact .ite h1.endCtx.prevBusy.bump.bump.setInt.postFault (.ite h1'.clusterIrq h1'.bump.setInt.postFault)

theorem State.Sound.srRead {i : ApId} {n : ℕ} {clk : ℕ} (hs : s.Sound pt) : ((State.srRead s i n clk).1).Sound pt :=
  .iteFst hs (.iteFst hs (.iteFst hs (.iteFst hs (.iteFst hs (.iteFst hs (.iteFst (.iteFst hs.draw (.iteFst ((by split; exacts [hs, hs.setSup])) (.iteFst hs hs))) ((by split; exacts [hs, hs.draw]))))))))

theorem State.Sound.srWrite {i : ApId} {n : ℕ} {v : DWord} (hs : s.Sound pt) : State.SoundOpt pt (s.srWrite i n v) := by
  unfold State.srWrite
  exact .ite (.some hs.setThr) (.ite (.ite .none (.some hs.setSup)) (.ite .none (.some hs.setCtx)))

theorem State.Sound.apEnd {i : ApId} {f : Pkt → Pkt} (hs : s.Sound pt) : (State.apEnd s i f).Sound pt := by
  unfold State.apEnd
  extract_lets s1
  have h1 : s1.Sound pt := by
    dsimp only [s1]
    split
    · exact hs.putPkt
    · exact hs
  exact .ite h1.endCtx.prevBusy hs.setThr

theorem State.Sound.ticketComplete {i : ApId} {t' : ℕ} (hs : s.Sound pt) : (State.ticketComplete s i t').Sound pt :=
  by unfold State.ticketComplete; exact (by dsimp only; split; exacts [hs, .ite hs (.ite hs.setCtx hs.setCtx.postEvent)])

theorem State.Sound.deepLate {i : ApId} {t' : ℕ} (hs : s.Sound pt) : (State.deepLate s i t').Sound pt :=
  by unfold State.deepLate; exact (by dsimp only; split; exacts [(by split; exacts [hs, hs.setCtx.other.bump.setInt]), hs])

theorem State.Sound.freeRegs {r : ℕ} {n : ℕ} (hs : s.Sound pt) : ((State.freeRegs s r n).1).Sound pt :=
  hs.other

theorem State.Sound.lockGrant {c : ℕ} {l : ℕ} (hs : s.Sound pt) : (State.lockGrant s c l).Sound pt :=
  by unfold State.lockGrant; exact (by dsimp only; split; exacts [hs.setLock.setCtx.postEvent, hs])

theorem State.Sound.chanWrite {c : ℕ} {ch : ℕ} {data : ℕ} (hs : s.Sound pt) : ((State.chanWrite s c ch data).1).Sound pt :=
  .iteFst hs hs.setChan.chanEvent

theorem State.Sound.startThread {i : ApId} {pc : ℕ} (hs : s.Sound pt) : (State.startThread s i pc).Sound pt :=
  .ite hs.setThr hs.setThr.setSup

theorem State.Sound.haltThread {i : ApId} (hs : s.Sound pt) : (State.haltThread s i).Sound pt :=
  hs.setThr

/-- The state at the end of an instruction. -/
def ApRes.state : ApRes → State
  | .go s | .jump s _ | .stay s | .fault s _ => s

theorem ApRes.ite_state {c : Prop} [Decidable c] {a b : ApRes} (h1 : a.state.Sound pt) (h2 : b.state.Sound pt) :
    (if c then a else b).state.Sound pt := by
  split <;> assumption

theorem State.Sound.issueTkt {i : ApId} {n : ℕ} {k : Ticket} (hs : s.Sound pt) : (s.issueTkt i n k).state.Sound pt :=
  ApRes.ite_state hs hs.setCtx

theorem State.Sound.lkpExact {i : ApId} {w : ℕ} (hs : s.Sound pt) : (s.lkpExact i w).state.Sound pt := by
  unfold State.lkpExact
  refine ApRes.ite_state hs (ApRes.ite_state hs ?_)
  extract_lets
  split
  · split
    next s2 ws e2 => exact (hs.exmTouch.freeRegs.ofEq e2).issueTkt
  · exact hs.exmTouch.issueTkt

theorem State.Sound.lkpRoute {i : ApId} {w : ℕ} (hs : s.Sound pt) : (s.lkpRoute i w).state.Sound pt := by
  unfold State.lkpRoute
  refine ApRes.ite_state hs (ApRes.ite_state hs ?_)
  extract_lets rb addr
  split
  next s1 r e1 =>
  have h1 : s1.Sound pt := hs.terrLookup.ofEq e1
  split
  · split
    next s2 ws e2 => exact (h1.freeRegs.ofEq e2).draw.issueTkt
  · extract_lets
    split
    next s2 x e2 => exact (h1.draw.resolve.ofEq e2).issueTkt

theorem State.Sound.pktrd {i : ApId} {w : ℕ} (hs : s.Sound pt) : (s.pktrd i w).state.Sound pt := by
  unfold State.pktrd
  refine ApRes.ite_state hs ?_
  split
  · split
    next s1 ws e1 => exact (hs.freeRegs.ofEq e1).issueTkt
  · exact hs.issueTkt

theorem State.Sound.apLkt {i : ApId} {w : ℕ} (hs : s.Sound pt) : (s.apLkt i w).state.Sound pt :=
  ApRes.ite_state hs (ApRes.ite_state hs (ApRes.ite_state hs.setLock.issueTkt hs.bump.issueTkt))

theorem State.Sound.apLock {i : ApId} {w : ℕ} (hs : s.Sound pt) : (s.apLock i w).state.Sound pt :=
  ApRes.ite_state hs (ApRes.ite_state hs (ApRes.ite_state hs (ApRes.ite_state hs.setLock.postEvent.issueTkt hs.setLock.issueTkt)))

theorem State.Sound.apUlk {i : ApId} {w : ℕ} (hs : s.Sound pt) : (s.apUlk i w).state.Sound pt :=
  ApRes.ite_state hs (ApRes.ite_state hs hs.setLock.issueTkt)

theorem State.Sound.apCres {i : ApId} {w : ℕ} (hs : s.Sound pt) : (s.apCres i w).state.Sound pt :=
  ApRes.ite_state hs (ApRes.ite_state hs.issueTkt (ApRes.ite_state hs.bump.issueTkt hs.draw.setChan.setCtx.issueTkt))

theorem State.Sound.onSlot {i : ApId} {h : ℕ} {f : State → ℕ → ℕ → ChanSlot → State} (hs : s.Sound pt)
    (hf : ∀ {t : State} {k n : ℕ} {x : ChanSlot}, t.Sound pt → (f t k n x).Sound pt) : (s.onSlot i h f).state.Sound pt := by
  unfold State.onSlot
  refine ApRes.ite_state hs ?_
  split
  · exact hs
  · split
    · exact ApRes.ite_state (hf hs) hs
    · exact hs

theorem State.Sound.apCwr {i : ApId} {w : ℕ} (hs : s.Sound pt) : (s.apCwr i w).state.Sound pt :=
  hs.onSlot fun h => h.setChan

theorem State.Sound.apCpub {i : ApId} {w : ℕ} (hs : s.Sound pt) : (s.apCpub i w).state.Sound pt := by
  unfold State.apCpub
  refine Sound.onSlot hs fun {t key n x} h => ?_
  exact Sound.chanEvent h.setChan.setCtx

theorem State.Sound.apCrd {i : ApId} {w : ℕ} (hs : s.Sound pt) : (s.apCrd i w).state.Sound pt := by
  unfold State.apCrd
  refine ApRes.ite_state hs (ApRes.ite_state hs ?_)
  split
  · exact ApRes.ite_state hs.setChan.issueTkt hs.issueTkt
  · exact hs.issueTkt

theorem State.Sound.apMts {i : ApId} {w : ℕ} (hs : s.Sound pt) : (s.apMts i w).state.Sound pt := by
  unfold State.apMts
  split
  next t e => exact hs.srWrite t e
  · exact hs

theorem State.Sound.apCrevoke {i : ApId} {w : ℕ} (hs : s.Sound pt) : (s.apCrevoke i w).state.Sound pt := by
  unfold State.apCrevoke
  refine ApRes.ite_state hs ?_
  extract_lets
  split
  · exact hs.setGr
  · exact hs.setChan.draw.setGr

theorem State.Sound.apShift {i : ApId} {w : ℕ} {push : Bool} (hs : s.Sound pt) : (s.apShift i w push).state.Sound pt := by
  unfold State.apShift
  split
  · exact hs.setCtx
  · exact hs

theorem State.Sound.apWfe {i : ApId} {w : ℕ} (hs : s.Sound pt) : (s.apWfe i w).state.Sound pt :=
  ApRes.ite_state hs hs.setThr.wfeCheck

theorem State.Sound.apSig {i : ApId} {w : ℕ} (hs : s.Sound pt) : (s.apSig i w).state.Sound pt :=
  ApRes.ite_state hs hs.postEvent

theorem State.Sound.apTstart {i : ApId} {w : ℕ} (hs : s.Sound pt) : (s.apTstart i w).state.Sound pt :=
  ApRes.ite_state hs (ApRes.ite_state hs (ApRes.ite_state hs hs.startThread))

theorem State.Sound.apTstop {i : ApId} {w : ℕ} (hs : s.Sound pt) : (s.apTstop i w).state.Sound pt :=
  ApRes.ite_state hs (ApRes.ite_state hs.setThr hs.setThr)

theorem State.Sound.apLrel {i : ApId} {w : ℕ} (hs : s.Sound pt) : (s.apLrel i w).state.Sound pt :=
  ApRes.ite_state hs (ApRes.ite_state hs.releaseAll.draw.setGr hs.setGr)

theorem State.Sound.apBrk {i : ApId} (hs : s.Sound pt) : (s.apBrk i).state.Sound pt :=
  ApRes.ite_state hs hs.setPc.haltThread.setInt

theorem State.Sound.apPunt {i : ApId} {w : ℕ} (hs : s.Sound pt) : (s.apPunt i w).state.Sound pt :=
  ApRes.ite_state hs.bump.bump.apEnd hs.bump.apEnd

theorem State.Sound.apLive {i : ApId} {w clk : ℕ} (hs : s.Sound pt) : (s.apLive i w clk).state.Sound pt :=
  Sound.ite hs.liveSet hs.setLive

theorem State.Sound.apLdh {i : ApId} {w : ℕ} (hs : s.Sound pt) : (s.apLdh i w).state.Sound pt :=
  ApRes.ite_state hs.draw.setGr (ApRes.ite_state hs.setGr hs)

theorem State.Sound.apSth {i : ApId} {w : ℕ} (hs : s.Sound pt) : (s.apSth i w).state.Sound pt :=
  ApRes.ite_state hs (ApRes.ite_state hs.setCtx hs)

theorem State.Sound.apBranch {i : ApId} {op : ApOp} {w : ℕ} (hs : s.Sound pt) : (s.apBranch i op w).state.Sound pt :=
  ApRes.ite_state hs (ApRes.ite_state hs hs)

theorem State.Sound.apJal {i : ApId} {w : ℕ} (hs : s.Sound pt) : (s.apJal i w).state.Sound pt := ApRes.ite_state hs hs.setGr

theorem State.Sound.apJr {i : ApId} {w : ℕ} (hs : s.Sound pt) : (s.apJr i w).state.Sound pt := ApRes.ite_state hs hs

/-- Each instruction of an action processor keeps the register file sound. -/
theorem State.Sound.apExec {i : ApId} {op : ApOp} {w clk : ℕ} (hs : s.Sound pt) : (s.apExec i op w clk).state.Sound pt := by
  cases op with
  | add | sub | and | or | xor | shl | shr | sar | mul | cmpeq | cmpltu | cmplt | csum | popc | clz
  | addi | andi | ori | xori | shli | shri | movk | ext | ins => exact hs.setGr
  | ldh => exact hs.apLdh
  | sth => exact hs.apSth
  | mfs => exact hs.srRead.setGr
  | mts => exact hs.apMts
  | beq | bne | bltu | bgeu | blt | bge => exact hs.apBranch
  | jal => exact hs.apJal
  | jr => exact hs.apJr
  | lkpExact => exact hs.lkpExact
  | lkpRoute => exact hs.lkpRoute
  | lookupErr => exact ApRes.ite_state hs hs.setGr
  | pktrd => exact hs.pktrd
  | lkt => exact hs.apLkt
  | lock => exact hs.apLock
  | ulk => exact hs.apUlk
  | cres => exact hs.apCres
  | cwr => exact hs.apCwr
  | cpub => exact hs.apCpub
  | crd => exact hs.apCrd
  | endPkt => exact hs.apEnd
  | drop => exact hs.bump.apEnd
  | punt => exact hs.apPunt
  | lrn => exact hs.learnPut
  | live => exact hs.apLive
  | hpush | hpop => exact hs.apShift
  | wlk => exact hs.setCtx
  | wfe => exact hs.apWfe
  | sig => exact hs.apSig
  | tstart => exact hs.apTstart
  | tstop => exact hs.apTstop
  | crevoke => exact hs.apCrevoke
  | lrel => exact hs.apLrel
  | brk => exact hs.apBrk
  | illegal => exact hs

theorem State.Sound.apSettle {i : ApId} {r : ApRes} (h : r.state.Sound pt) : (State.apSettle i r).Sound pt := by
  cases r with
  | go s => exact Sound.setPc h
  | jump s pc => exact Sound.setPc h
  | stay s => exact h
  | fault s code => exact Sound.apFault h

theorem State.Sound.apRun {i : ApId} {clk : ℕ} (hs : s.Sound pt) : (State.apRun s i clk).Sound pt := by
  unfold State.apRun
  extract_lets x w s0 _ _ s1
  have h1 : s1.Sound pt := .ite (Sound.setThr hs.setCtx) hs.setCtx
  exact .ite hs.touch.apFault.sliceFault (.ite hs.apFault (Sound.apSettle h1.apExec))

theorem State.Sound.apIssue {i : ApId} {op : ApOp} {clk : ℕ} (hs : s.Sound pt) : (State.apIssue s i op clk).Sound pt :=
  .ite hs.apRun hs

theorem State.Sound.timeBound {i : ApId} (hs : s.Sound pt) : (State.timeBound s i).Sound pt :=
  .ite hs.apFault hs

theorem State.Sound.timerExpiry {c : ℕ} {a : ℕ} {n : ℕ} (hs : s.Sound pt) : (State.timerExpiry s c a n).Sound pt :=
  .ite hs (.foldl hs.setSup fun h1 => h1.postEvent)

theorem State.Sound.allwait {c : ℕ} {a : ℕ} (hs : s.Sound pt) : (State.allwait s c a).Sound pt :=
  .ite hs (.ite hs.setSup.bump.postEvent (.ite hs.setSup.bump.clusterIrq hs.setSup.bump))

theorem State.Sound.staleNotice {c : ℕ} {a : ℕ} {n : ℕ} (hs : s.Sound pt) : (State.staleNotice s c a n).Sound pt :=
  .ite hs (.ite hs.setThr.releaseAll.revokeAll hs.setThr.setSup.postEvent)

theorem State.Sound.dbgRefuse {c : ℕ} (hs : s.Sound pt) : (State.dbgRefuse s c).Sound pt :=
  hs.setF.setInt

theorem State.Sound.resumeThread {i : ApId} (hs : s.Sound pt) : (State.resumeThread s i).Sound pt :=
  hs.setThr.wfeCheck

theorem State.Sound.stepThread {i : ApId} {clk : ℕ} (hs : s.Sound pt) : (State.stepThread s i clk).Sound pt :=
  have h1 := Sound.ite hs.setThr.apRun hs.setThr
  (Sound.ite h1.setThr h1).setInt

theorem State.Sound.dbgCmd {i : ApId} {cmd : ℕ} {special : Bool} {reg clk : ℕ} (hs : s.Sound pt) :
    State.SoundOpt pt (s.dbgCmd i cmd special reg clk) := by
  unfold State.dbgCmd
  extract_lets c j t halted r v
  split
  · exact .ite .none (.ite (.some hs.haltThread) (.some hs))
  · exact .ite (.some hs.resumeThread) .none
  · exact .ite (.some hs.stepThread) .none
  · refine .ite .none ?_
    split
    next s1 x e1 =>
    have h1 : s1.Sound pt := Sound.ofEq (.iteFst hs.srRead hs) e1
    exact .some h1.wr64
  · exact .ite .none (.ite hs.srWrite (.some hs.setGr))
  · exact .none

theorem State.Sound.dbgCtrl {c v clk : ℕ} (hs : s.Sound pt) : (State.dbgCtrl s c v clk).Sound pt := by
  unfold State.dbgCtrl
  extract_lets s1 r i s2 j
  have h1 : s1.Sound pt := hs.fieldWrite
  have h2 : s2.Sound pt := by
    dsimp only [s2]
    split
    next t e => exact (h1.dbgCmd t e).setF
    · exact h1.dbgRefuse
  exact .ite h1 h2.setF

theorem State.Sound.onDbg {a : Acc} {c : ℕ} {v : ℕ} (hs : s.Sound pt) : (State.onDbg s a c v).Sound pt :=
  .ite (hs.onWrite fun h1 => h1.dbgCtrl) hs

theorem State.Sound.supStart {c : ℕ} {a : ℕ} (hs : s.Sound pt) : (State.supStart s c a).Sound pt := by
  unfold State.supStart
  exact hs.setSup.startThread

theorem State.Sound.stopService {c : ℕ} (hs : s.Sound pt) : (State.stopService s c).Sound pt :=
  .foldl hs fun h1 => .foldl h1 fun h2 => .ite h2 h2.setThr

theorem State.Sound.apcCtrl {c : ℕ} {v : ℕ} (hs : s.Sound pt) : (State.apcCtrl s c v).Sound pt :=
  have h1 := Sound.ite (.ite hs hs.setF.stopService) (.ite hs.setInt hs.setF)
  .ite (.foldl h1 fun h2 => h2.supStart) h1

theorem State.Sound.poke {c : ℕ} {v : ℕ} (hs : s.Sound pt) : (State.poke s c v).Sound pt :=
  .foldl hs fun h1 => h1.postEvent

theorem State.Sound.progPut {c : ℕ} {n : ℕ} {e : ℕ} (hs : s.Sound pt) : (State.progPut s c n e).Sound pt :=
  have h1 := hs.setTbl.wroteWord
  .ite h1.addPending (.ite h1.other h1)

theorem State.Sound.instrCmd {c op addr data : ℕ} (hs : s.Sound pt) : (State.instrCmd s c op addr data).1.Sound pt := by
  unfold State.instrCmd
  extract_lets b s1
  refine .iteFst ?_ (.iteFst hs (.iteFst hs (.foldl (.foldl hs fun h => h.setTbl) fun h => h.wroteWords)))
  split
  next s1 ok e1 =>
  have h1 : s1.Sound pt := hs.readWords.ofEq e1
  exact .iteFst h1.draw h1

theorem State.Sound.progCmd {c : ℕ} {op : ℕ} {addr : ℕ} {data : ℕ} (hs : s.Sound pt) : ((State.progCmd s c op addr data).1).Sound pt :=
  .iteFst hs (.iteFst hs (.iteFst (.iteFst hs.readWord hs.readWord.draw) (.iteFst hs (.iteFst hs.lateTbl (.iteFst hs.progPut
    (.iteFst hs.progPut hs))))))

theorem State.Sound.apcCmd {c : ℕ} {op : ℕ} {addr : ℕ} {data : ℕ} (hs : s.Sound pt) : ((State.apcCmd s c op addr data).1).Sound pt :=
  by unfold State.apcCmd; exact (by split; exacts [hs.instrCmd, hs.progCmd, .iteFst hs.chanWrite hs, hs])

theorem State.Sound.stbyExit (hs : s.Sound pt) : (State.stbyExit s).Sound pt :=
  .ite hs (.foldl hs.setF.other fun h1 => .ite h1.hbmStart h1)

theorem State.Sound.stbyWrite {who : Requester} {v : ℕ} (hs : s.Sound pt) : (State.stbyWrite s who v).Sound pt :=
  have h1 := Sound.ite hs.fieldWrite (.ite hs.fieldWrite.setF hs.fieldWrite.setF.powerRefuse)
  .ite h1 (.ite h1.stbyExit h1.powerRefuse)

theorem State.Sound.stbyLose (hs : s.Sound pt) : (State.stbyLose s).Sound pt := by
  obtain ⟨⟨hrise, hval⟩, hpart⟩ := hs
  refine ⟨⟨sRising_filterMap _ (fun e x h => ?_) hrise, fun x hx => ?_⟩, hpart⟩
  · split at h
    · cases h; rfl
    · split at h <;> cases h
      rfl
  · obtain ⟨e, he, hex⟩ := List.mem_filterMap.1 hx
    split at hex
    · cases hex
      exact hval _ he
    · split at hex
      · cases hex
      next hne =>
        cases hex
        exact ⟨retained_lt _ _ _, hne⟩

theorem State.Sound.stbyBlocks (hs : s.Sound pt) : (State.stbyBlocks s).Sound pt :=
  hs.other

theorem State.Sound.stbyEntered (hs : s.Sound pt) : (State.stbyEntered s).Sound pt :=
  .ite hs ((Sound.foldl (((Sound.foldl ((Sound.foldl (((Sound.foldl hs fun h1 => h1.scEnter).scUpdate).losePcie.losePcie) fun h2 => .ite h2 ((Sound.foldl h2 fun h3 => .ite h3 h3.setSr).hbmCount))) fun h4 => h4.dropPart).withPaths fun h5 => h5.stbyLose.stbyBlocks)) fun h6 => .foldl h6 fun h7 => h7.setDom).other.setF.setInt)

theorem State.Sound.terrRestore (hs : s.Sound pt) : (State.terrRestore s).Sound pt :=
  .foldl hs fun h1 => h1.setTbl

theorem State.Sound.stbyPages (hs : s.Sound pt) : (State.stbyPages s).Sound pt :=
  hs.wr.setFree

theorem State.Sound.stbyExited (hs : s.Sound pt) : (State.stbyExited s).Sound pt :=
  .ite hs ((Sound.foldl hs fun h1 => .foldl h1 fun h2 => (Sound.ite h2 h2.setDom).setReq).other.terrRestore.stbyPages.steerStat.setF.setInt.scUpdate)

theorem State.Sound.boot {env : BootEnv} (hs : s.Sound pt) : (State.boot s env).Sound pt :=
  (Sound.foldl hs.wr fun h1 => h1.setF).wr.wr

theorem State.Sound.deviceReset {cause : ℕ} {warm : Option ℤ} (hs : s.Sound pt) : (State.deviceReset s cause warm).Sound pt := by
  unfold State.deviceReset
  extract_lets _ z z1
  have hz : z.Sound pt := by
    refine hs.filterRegs (f := fun e => eMramReg e.1) ?_ ?_
    · rfl
    · rfl
  exact .ite hz.wr.wr.emit hz.wr.wr

theorem State.Sound.powerOn {env : BootEnv} (hs : s.Sound pt) : (State.powerOn s env).Sound pt :=
  hs.other.deviceReset.boot

theorem State.Sound.poreset (hs : s.Sound pt) : (State.poreset s).Sound pt :=
  (Sound.ite hs.emit hs).other

theorem State.Sound.warmPin {clk : ℕ} {env : BootEnv} (hs : s.Sound pt) : (State.warmPin s clk env).Sound pt :=
  .ite hs (.ite hs.bump hs.deviceReset.boot)

theorem State.Sound.supplyLost (hs : s.Sound pt) : (State.supplyLost s).Sound pt :=
  .ite hs hs.other.deviceReset

theorem State.Sound.supplyBack {env : BootEnv} (hs : s.Sound pt) : (State.supplyBack s env).Sound pt :=
  .ite hs hs.other.deviceReset.boot

theorem State.Sound.loseF (hs : s.Sound pt) : (State.loseF s).Sound pt := hs.filterRegs rfl rfl

theorem State.Sound.fdieReset {env : BootEnv} (hs : s.Sound pt) : (State.fdieReset s env).Sound pt :=
  (Sound.foldl ((hs.other.d2dEval.withPaths fun h1 => h1.other).loseF) fun h2 => h2.dropPart).other.wr.wr

theorem State.Sound.pwrResetWrite {clk : ℕ} {v : ℕ} {env : BootEnv} (hs : s.Sound pt) : (State.pwrResetWrite s clk v env).Sound pt :=
  .ite hs.powerRefuse (.ite hs.deviceReset.boot (.ite hs.fdieReset hs))

theorem State.Sound.alertEval (hs : s.Sound pt) : (State.alertEval s).Sound pt :=
  .ite hs (.ite hs.other.emit.emit hs.other.emit)

theorem State.Sound.dieTemp {d : ℕ} {temp : ℕ} (hs : s.Sound pt) : (State.dieTemp s d temp).Sound pt :=
  hs.setF.setF.setIntIf

theorem State.Sound.thermal {site : ℕ} {temp : ℕ} (hs : s.Sound pt) : (State.thermal s site temp).Sound pt :=
  .ite hs (.ite hs.dieTemp.alertEval (.ite hs.hbmTemp.alertEval hs))

theorem State.Sound.thermalTrip {d : ℕ} (hs : s.Sound pt) : (State.thermalTrip s d).Sound pt :=
  .ite hs (.foldl hs.dieTemp.alertEval.other.emit fun h1 => .foldl h1 fun h2 => .ite h2.loseDomain.setDom h2)

theorem State.Sound.refLoss {r : ℕ} (hs : s.Sound pt) : (State.refLoss s r).Sound pt :=
  .ite hs (have h1 := hs.setF.bump.setInt; (by split; exacts [h1.linkDown, .ite h1.setF (.ite h1.setF.setInt h1)]))

theorem State.Sound.refReturn {r : ℕ} (hs : s.Sound pt) : (State.refReturn s r).Sound pt :=
  .ite hs (.ite hs.setF.setF (.ite hs.setF.setF.setInt hs.setF))

theorem State.Sound.perst {p : ℕ} {level : Bool} (hs : s.Sound pt) : (State.perst s p level).Sound pt :=
  (Sound.ite hs hs.linkDown).setPcie

theorem State.Sound.gpioEdge {i : ℕ} {level : Bool} {clk : ℕ} (hs : s.Sound pt) : (State.gpioEdge s i level clk).Sound pt :=
  .ite hs (.ite hs.setF (.ite hs.setF.bump (have h1 := hs.setF.other.setInt; .ite h1.stbyExit h1)))

theorem State.Sound.bootTick (hs : s.Sound pt) : (State.bootTick s).Sound pt :=
  by unfold State.bootTick; exact (by split; exacts [hs, .ite hs hs.other.log])

theorem State.Sound.limitedReset {page : ℕ} (hs : s.Sound pt) : (State.limitedReset s page).Sound pt := hs.filterRegs rfl rfl

theorem State.Sound.fullReset {page : ℕ} (hs : s.Sound pt) : (State.fullReset s page).Sound pt :=
  (Sound.ite (.ite hs.wipeLine (.ite hs.wipeSlice (.ite hs.wipeSlice (.ite hs.wipeAp (.ite hs.setSc hs))))) (.ite hs.wipeLanes
    (.ite hs.wipeHbm (.ite hs.setSc (.ite hs.losePcie hs))))).losePages.scUpdate

theorem State.Sound.softNow {page : ℕ} {by' : ℕ} (hs : s.Sound pt) : (State.softNow s page by').Sound pt :=
  .ite hs.fullReset hs.limitedReset

theorem State.Sound.softReset {page : ℕ} {by' : ℕ} (hs : s.Sound pt) : (State.softReset s page by').Sound pt :=
  .ite hs.softNow (.ite hs hs.other)

theorem State.Sound.pgEnable {page : ℕ} {on : Bool} (hs : s.Sound pt) : (State.pgEnable s page on).Sound pt :=
  .ite hs.wr (.ite hs.hbmEnable (.ite hs hs.setInt))

theorem State.Sound.pgCtrlWrite {page : ℕ} {v : ℕ} {by' : ℕ} (hs : s.Sound pt) : (State.pgCtrlWrite s page v by').Sound pt :=
  have h1 := Sound.ite hs.pgEnable.softReset hs.pgEnable
  .ite h1 h1.pagePower

theorem State.Sound.powerWrite {addr : ℕ} {v : ℕ} {by' : ℕ} (hs : s.Sound pt) : (State.powerWrite s addr v by').Sound pt :=
  by unfold State.powerWrite; exact (by split; exacts [hs.reqWrite, .ite hs.pgCtrlWrite hs])

theorem State.Sound.stageDiscard {page : ℕ} (hs : s.Sound pt) : (State.stageDiscard s page).Sound pt :=
  .ite hs.other hs.lateWrite

theorem State.Sound.parseCmd {op : ℕ} {addr : ℕ} {data : ℕ} (hs : s.Sound pt) : ((State.parseCmd s op addr data).1).Sound pt :=
  .iteFst hs (.iteFst hs (.iteFst (.iteFst hs.readWord hs.readWord.draw) (.iteFst hs (.iteFst hs.lateTbl (.iteFst hs
    (.ite hs.putEntry.addPending hs.putEntry))))))

theorem State.Sound.flexeCmd {e : ℕ} {op : ℕ} {addr : ℕ} {data : ℕ} (hs : s.Sound pt) : ((State.flexeCmd s e op addr data).1).Sound pt :=
  .iteFst hs (.iteFst hs (.iteFst hs (.iteFst hs hs.setTbl)))

theorem State.Sound.steerCmd {op : ℕ} {addr : ℕ} {data : ℕ} (hs : s.Sound pt) : ((State.steerCmd s op addr data).1).Sound pt :=
  .iteFst hs.readWord (.iteFst hs (.ite hs.steerTblWrite.wroteWord hs.steerTblWrite))

theorem State.Sound.hbmcCmd {k : ℕ} {op : ℕ} {addr : ℕ} (hs : s.Sound pt) : ((State.hbmcCmd s k op addr).1).Sound pt :=
  .iteFst hs hs

theorem State.Sound.tblExec {a : Acc} {page : ℕ} {op : ℕ} (hs : s.Sound pt) : ((State.tblExec s a page op).1).Sound pt :=
  .iteFst (.iteFst hs.flexeCmd (.iteFst hs.steerCmd (.iteFst hs.apcCmd (.iteFst hs.parseCmd (.iteFst hs.terrCmd (.iteFst hs.pivotCmd
    (.iteFst hs.aclCmd (.iteFst hs.exmCmd (.iteFst hs.nhopCmd (.iteFst hs.cntFCmd hs)))))))))) (.iteFst hs.voqCmd (.iteFst hs.admCmd
    (.iteFst hs.eqsCmd (.iteFst hs.shpCmd (.iteFst hs.polCmd (.iteFst hs.gateCmd (.iteFst hs.latCmd (.iteFst hs.fcellCmd
    (.iteFst hs.hbmcCmd (.iteFst hs.updCmd (.iteFst hs.emramCmd (.iteFst hs.dmaCmd (.iteFst hs.irqCmd (.iteFst hs.cntTCmd hs))))))))))))))

theorem State.Sound.tblFinish {page op st moves : ℕ} {data : Option ℕ} (hs : s.Sound pt) : (State.tblFinish s page op st moves data).Sound pt := by
  unfold State.tblFinish
  extract_lets pg s1 s2
  have h1 : s1.Sound pt := by
    dsimp only [s1]
    split
    · exact hs
    · exact .foldl hs fun h => h.wr
  refine .ite h1.wr ?_
  split
  · exact h1.wr.setInt
  · exact h1.wr

theorem State.Sound.tblOverrun {page : ℕ} (hs : s.Sound pt) : (State.tblOverrun s page).Sound pt :=
  hs.setF

theorem State.Sound.tblStart {a : Acc} {page : ℕ} {op : ℕ} (hs : s.Sound pt) : (State.tblStart s a page op).Sound pt :=
  .ite hs (.ite hs.tblOverrun (.ite hs.tblFinish (.ite hs.tblFinish hs.tblExec.other.setF)))

theorem State.Sound.tblCmd {a : Acc} {page : ℕ} {op : ℕ} (hs : s.Sound pt) : (State.tblCmd s a page op).Sound pt :=
  hs.onWrite fun h1 => h1.tblStart

theorem State.Sound.tblDone {page : ℕ} (hs : s.Sound pt) : (State.tblDone s page).Sound pt :=
  by unfold State.tblDone; exact (by split; exacts [hs, have h1 := hs.other.tblFinish; .ite h1.other.softNow h1])

theorem State.Sound.cmtGo {st : ℕ} (hs : s.Sound pt) : (State.cmtGo s st).Sound pt :=
  hs.setF

theorem State.Sound.cmtOwn {owner : ℕ} {none' : ℕ} (hs : s.Sound pt) : (State.cmtOwn s owner none').Sound pt :=
  hs.setF.setF

theorem State.Sound.cmtOpen (hs : s.Sound pt) : (State.cmtOpen s).Sound pt :=
  hs.cmtGo.cmtOwn

theorem State.Sound.cmtRefuse {code : ℕ} (hs : s.Sound pt) : (State.cmtRefuse s code).Sound pt :=
  hs.setF.bump.setInt

theorem State.Sound.stageClose {who : ℕ} {v : ℕ} (hs : s.Sound pt) : (State.stageClose s who v).Sound pt :=
  .ite hs (.ite hs.cmtRefuse hs.cmtOwn.cmtGo.setF)

theorem State.Sound.ownerCmd {who : ℕ} {ok : State → Option ℕ} {eff : State → State} (hs : s.Sound pt)
    (hf : ∀ {t : State}, t.Sound pt → (eff t).Sound pt) : (State.ownerCmd s who ok eff).Sound pt := by
  unfold State.ownerCmd
  extract_lets s1
  have h1 : s1.Sound pt := .ite hs.cmtOwn hs
  refine .ite hs.cmtRefuse (.ite h1.cmtRefuse ?_)
  split
  · exact h1.cmtRefuse
  · exact hf h1

theorem State.Sound.armTo {target : ℕ} {clk : ℕ} (hs : s.Sound pt) : (State.armTo target clk s).Sound pt :=
  hs.other.setF.cmtGo

theorem State.Sound.cmtArm {who : ℕ} {clk : ℕ} {v : ℕ} (hs : s.Sound pt) : (State.cmtArm s who clk v).Sound pt :=
  .ite hs (hs.ownerCmd fun h1 => h1.armTo)

theorem State.Sound.cmtCmd {who : ℕ} {clk : ℕ} {v : ℕ} (hs : s.Sound pt) : (State.cmtCmd s who clk v).Sound pt :=
  .ite (hs.ownerCmd fun h1 => h1.cmtOpen) (.ite (hs.ownerCmd fun h2 => h2.setF) (.ite (hs.ownerCmd fun h3 => h3.other.cmtGo) hs.setIntIf))

theorem State.Sound.cmtCtrlWrite {v : ℕ} (hs : s.Sound pt) : (State.cmtCtrlWrite s v).Sound pt :=
  .ite hs.fieldWrite (.ite hs.fieldWrite.cmtRefuse hs.fieldWrite.setF)

theorem State.Sound.commitDecision (hs : s.Sound pt) : (State.commitDecision s).Sound pt :=
  hs.other

theorem State.Sound.copyTables {pg : ℕ} {off : ℕ} {mv : List (ℕ × ℕ)} (hs : s.Sound pt) : (State.copyTables s pg off mv).Sound pt :=
  hs.other

theorem State.Sound.turnPage {k : Turn} {page : ℕ} (hs : s.Sound pt) : (State.turnPage s k page).Sound pt :=
  .ite hs.copyTables (.ite hs.copyTables (.ite hs.copyTables hs))

theorem State.Sound.setRefill {page : ℕ} {on : Bool} (hs : s.Sound pt) : (State.setRefill s page on).Sound pt :=
  .ite hs.other.setF.setF hs.other.setF

theorem State.Sound.refillDone {page : ℕ} (hs : s.Sound pt) : (State.refillDone s page).Sound pt :=
  .ite hs.turnPage.setRefill hs

theorem State.Sound.undoClass {kind : ℕ} {i : ℕ} (hs : s.Sound pt) : (State.undoClass s kind i).Sound pt :=
  .ite (.ite hs ((by split; exacts [hs.aclFree, .ite hs hs.aclPut]))) (.ite hs ((by split; exacts [hs.exmFree, .ite hs hs.exmPut])))

theorem State.Sound.undoTerr {x : ℕ} (hs : s.Sound pt) : (State.undoTerr s x).Sound pt :=
  .ite hs ((by split; exacts [hs.terrFree, .ite hs hs.terrMark]))

theorem State.Sound.dropTables (hs : s.Sound pt) : (State.dropTables s).Sound pt :=
  have h1 := (Sound.foldl ((Sound.foldl hs fun h2 => h2.undoClass)) fun h3 => h3.undoTerr).other.classLogStat.terrLogStat
  (Sound.ite (.foldl h1 fun h4 => h4.turnPage) h1).other

theorem State.Sound.discardDone (hs : s.Sound pt) : (State.discardDone s).Sound pt :=
  .ite hs.dropTables.other.setF.cmtOpen hs

theorem State.Sound.logWalkStart (hs : s.Sound pt) : (State.logWalkStart s).Sound pt :=
  .ite hs hs.other.setF.setF

theorem State.Sound.applyOn {onF : Bool} {onT : Bool} (hs : s.Sound pt) : (State.applyOn s onF onT).Sound pt :=
  hs.other.applyShadows.other

theorem State.Sound.advanceVersion {old : State} (hs : s.Sound pt) : (State.advanceVersion s old).Sound pt :=
  (Sound.foldl hs.setF.setF.setF fun h1 => .ite h1.turnPage.setRefill h1).other.classLogStat.terrLogStat

theorem State.Sound.oneCopy (hs : s.Sound pt) : (State.oneCopy s).Sound pt :=
  (Sound.foldl hs fun h1 => h1.turnPage).other

theorem State.Sound.commitHooks {old : State} {t' : ℕ} (hs : s.Sound pt) : (State.commitHooks s old t').Sound pt :=
  have h1 := hs.lpCommit.flexCommit.gateCommit
  have h2 := Sound.ite h1.other.flowZero h1.other
  have h3 := Sound.ite h2.setBufPages h2
  .ite h3 h3.unreachRefresh

theorem State.Sound.commitDies {onF : Bool} {onT : Bool} {t' : ℕ} (hs : s.Sound pt) : (State.commitDies s onF onT t').Sound pt :=
  have h1 := Sound.ite hs.applyOn.advanceVersion hs.applyOn
  (Sound.ite h1.oneCopy h1).commitHooks

theorem State.Sound.commitDone (hs : s.Sound pt) : (State.commitDone s).Sound pt :=
  (Sound.ite hs.setF hs.setF.setF).wr64.bump.setInt.cmtOpen.commitEvent

theorem State.Sound.commitMissed (hs : s.Sound pt) : (State.commitMissed s).Sound pt :=
  hs.cmtGo.bump.setInt

theorem State.Sound.sysUpdate {tag : Option ℕ} (hs : s.Sound pt) : (State.sysUpdate s tag).Sound pt :=
  by unfold State.sysUpdate; exact (by split; exacts [hs, .ite hs (.ite hs.setF.bump.setInt hs.setF)])

theorem State.Sound.cmtBoundary {t' : ℕ} {tag : Option ℕ} {onT : Bool} (hs : s.Sound pt) : (State.cmtBoundary s t' tag onT).Sound pt :=
  have h1 := Sound.ite hs.other.commitMissed (.ite hs.other.commitDies.commitDone (.ite hs.other.commitDies hs.other))
  .ite h1.sysUpdate.commitMissed h1.sysUpdate

theorem State.Sound.timeTick (hs : s.Sound pt) : (State.timeTick s).Sound pt :=
  .ite (((Sound.setF ((by split; exacts [.ite hs.other.wr hs.other, hs.other])))).setF.setF.tkEnter) (((Sound.setF ((by split; exacts [.ite hs.other.wr hs.other, hs.other])))))

theorem State.Sound.edgeLost (hs : s.Sound pt) : (State.edgeLost s).Sound pt :=
  .ite hs.tkEnter hs

theorem State.Sound.portsTick (hs : s.Sound pt) : (State.portsTick s).Sound pt :=
  .foldl hs fun h1 => .ite h1 h1.lpTick

theorem State.Sound.tickBoundary {copies : ℕ} {cmtCopies : ℕ} {scrub : ℕ} (hs : s.Sound pt) : (State.tickBoundary s copies cmtCopies scrub).Sound pt :=
  .ite hs (have h1 := hs.timeTick.edgeLost.freezeTick.ptpTick;
    (Sound.ite h1.bump.setInt h1).cmtBoundary.d2dTick.fabTick.nopageTick.shpApply.portsTick.learnBoundary.scTick.scrubTick.bootTick)

theorem State.Sound.setLatch {r : Requester} {lo : ℕ} {v : ℕ} (hs : s.Sound pt) : (State.setLatch s r lo v).Sound pt :=
  hs.other

theorem State.Sound.accessRead {a : Acc} {addr : ℕ} (hs : s.Sound pt) : ((State.accessRead s a addr).1).Sound pt :=
  .iteFst (.iteFst hs.wr hs.learnPop) (.iteFst hs.txtsPop (.iteFst (.iteFst hs.wr hs.rwPop) (have h1 := Sound.ite hs.setLatch (.ite hs.setLatch.setLatch hs); (by dsimp only; split; exacts [.iteFst h1.wr h1, h1]))))

theorem State.Sound.intEnWrite {page : ℕ} {v : ℕ} (hs : s.Sound pt) : (State.intEnWrite s page v).Sound pt :=
  hs.withEdges fun h1 => h1.wr

theorem State.Sound.headerWrite {a : Acc} {page : ℕ} {off : ℕ} {v : ℕ} (hs : s.Sound pt) : (State.headerWrite s a page off v).Sound pt :=
  .ite hs.pgCtrlWrite (.ite hs.intEnWrite (.ite hs.setInts (.ite (.ite hs.stageDiscard hs) (.ite (.ite hs hs.fieldWrite)
    (.ite hs.flipWrite hs.fieldWrite)))))

theorem State.Sound.tblRegWrite {a : Acc} {page : ℕ} {off : ℕ} {v : ℕ} (hs : s.Sound pt) : (State.tblRegWrite s a page off v).Sound pt :=
  .ite hs (.ite hs.tblStart (.ite hs.fieldWrite (.ite hs.tblOverrun hs.fieldWrite)))

theorem State.Sound.steerCfgWrite {v : ℕ} (hs : s.Sound pt) : (State.steerCfgWrite s v).Sound pt :=
  .ite hs.fieldWrite.setF hs.fieldWrite

theorem State.Sound.spareWrite {k : ℕ} {v : ℕ} (hs : s.Sound pt) : (State.spareWrite s k v).Sound pt :=
  .ite hs.setInt (.ite hs.setInt hs.fieldWrite)

theorem State.Sound.regionWrite {addr : ℕ} {v : ℕ} (hs : s.Sound pt) : (State.regionWrite s addr v).Sound pt :=
  .ite hs.setInt hs.fieldWrite

theorem State.Sound.gpioWrite {n : ℕ} {v : ℕ} (hs : s.Sound pt) : (State.gpioWrite s n v).Sound pt :=
  .ite hs.fieldWrite ((by split; exacts [hs.fieldWrite.emit, hs.fieldWrite]))

theorem State.Sound.updLockWrite {a : Acc} {v : ℕ} (hs : s.Sound pt) : (State.updLockWrite s a v).Sound pt :=
  have h1 := Sound.ite hs.lockReq hs
  .ite h1.lockFree h1

theorem State.Sound.updCmdWrite {a : Acc} {v : ℕ} (hs : s.Sound pt) : (State.updCmdWrite s a v).Sound pt :=
  .ite hs.verify (.ite hs.clearStage (.ite hs.start hs.setInt))

theorem State.Sound.hiWrite {a : Acc} {addr : ℕ} {v : ℕ} (hs : s.Sound pt) : (State.hiWrite s a addr v).Sound pt :=
  by unfold State.hiWrite; exact (by split; exacts [hs.ringBaseWrite, hs.floorWrite, hs.takeLo.wr.fieldWrite])

theorem State.Sound.fWrite {a : Acc} {addr : ℕ} {v : ℕ} (hs : s.Sound pt) : (State.fWrite s a addr v).Sound pt :=
  .ite (.ite hs.cmtCtrlWrite (.ite hs.stageClose (.ite hs.cmtArm (.ite hs.cmtCmd hs.fieldWrite)))) (.ite hs.tickGenCmt
    (.ite hs.lpCtrlWrite (.ite hs.other (.ite (.ite hs.setF.other hs) (.ite hs.ptpIncrWrite (.ite hs.steerCfgWrite (.ite hs.steerMove
    (.ite hs.steerEvac (.ite hs.sliceCtrl (.ite hs.sliceCtrl (.ite hs.apcCtrl (.ite hs.poke (.ite hs.dbgCtrl (.ite hs.nhopLive
    (.ite hs.nhopLiveClr (.ite hs.scCtrlWrite (.ite hs.scKick (.ite hs.retrain (.ite hs.fieldWrite.alertEval
    (.ite hs.freezeWrite hs.fieldWrite))))))))))))))))))))

theorem State.Sound.tWrite {a : Acc} {addr : ℕ} {v : ℕ} (hs : s.Sound pt) : (State.tWrite s a addr v).Sound pt :=
  .ite hs.admCfgWrite (.ite hs.caldPwr (.ite hs.fserCfgWrite (.ite hs.ffrmCfgWrite (.ite hs.fcellCfgWrite (.ite hs.fcrdCtrlWrite
    (.ite hs.spareWrite (.ite hs.fieldWrite.alertEval (.ite hs.migCmd (.ite hs.regionWrite (.ite hs (.ite hs.scCtrlWrite (.ite hs.scKick
    (.ite hs.updLockWrite (.ite hs.updCmdWrite (.ite hs.fieldWrite.emPut (.ite (.ite hs hs.fieldWrite) (.ite hs.logPost (.ite hs.rearm
    (.ite hs.ringCfgWrite (.ite hs.tailWrite (.ite hs.retrain (.ite hs.stbyWrite (.ite hs.pwrResetWrite (.ite hs.fieldWrite.alertEval
    (.ite hs.gpioWrite hs.fieldWrite)))))))))))))))))))))))))

theorem State.Sound.writeReg {a : Acc} {addr : ℕ} {v : ℕ} (hs : s.Sound pt) : (State.writeReg s a addr v).Sound pt :=
  .ite hs.headerWrite (.ite hs.tblRegWrite (.ite (.ite hs.regionWrite hs.fieldWrite) (.ite (.ite hs.holdLo hs) (.ite (.ite hs.hiWrite hs) ((by split; exacts [hs.reqWrite, .ite hs.fWrite hs.tWrite]))))))

theorem State.Sound.withFetchWord {nbits : ℕ} {w : ℕ} (hs : s.Sound pt) : (State.withFetchWord s nbits w).Sound pt :=
  by unfold State.withFetchWord; exact (by split; exacts [hs, hs.other])

end Sys2Proof.Machine
end

section
/-! SUPPORT. O3: what every command keeps. -/
namespace Sys2Proof.Machine
variable {pt : Part} {s : State}

/-- Every command keeps the register file sound and the part, and each answers a next state. -/
theorem State.Sound.exec (i : Instr) (hs : s.Sound pt) : ∃ t, Machine.exec i s = .next t ∧ t.Sound pt := by
  cases i with
  | registerWrite | loWrite | hiWrite | stWrite => exact ⟨_, rfl, hs.onWrite fun h1 => h1.writeReg⟩
  | loRead | rcRead => exact ⟨_, rfl, hs.onRead fun h1 => h1.accessRead⟩
  | tickBoundary => exact ⟨_, rfl, hs.tickBoundary⟩
  | tickPlan => exact ⟨_, rfl, hs.tickPlan⟩
  | flitReceive => exact ⟨_, rfl, hs.flit⟩
  | laneParityCheck => exact ⟨_, rfl, hs.laneParity⟩
  | laneRepairComplete => exact ⟨_, rfl, hs.repairDone⟩
  | retrain => exact ⟨_, rfl, hs.onWrite fun h1 => h1.retrain⟩
  | autoRetrain => exact ⟨_, rfl, hs.autoRetrain⟩
  | d2dTrainingDone => exact ⟨_, rfl, hs.trainingDone⟩
  | fdieAccessTimeout => exact ⟨_, rfl, hs.fdieTimeout⟩
  | syncEdge => exact ⟨_, rfl, hs.syncEdge⟩
  | syncTag => exact ⟨_, rfl, hs.syncTag⟩
  | tickJudgment => exact ⟨_, rfl, hs.judge⟩
  | syncOutEdge => exact ⟨_, rfl, hs.syncOut⟩
  | tickGenCmt => exact ⟨_, rfl, hs.onWrite fun h1 => h1.tickGenCmt⟩
  | cmtStageClose => exact ⟨_, rfl, hs.onWrite fun h1 => h1.stageClose⟩
  | checkDone => exact ⟨_, rfl, hs.checkDone⟩
  | cmtArm => exact ⟨_, rfl, hs.onWrite fun h1 => h1.cmtArm⟩
  | reopen | discard | abort => exact ⟨_, rfl, hs.onWrite fun h1 => h1.cmtCmd⟩
  | discardDone => exact ⟨_, rfl, hs.discardDone⟩
  | cmtCtrlWrite => exact ⟨_, rfl, hs.onWrite fun h1 => h1.cmtCtrlWrite⟩
  | commitDecision => exact ⟨_, rfl, hs.commitDecision⟩
  | logWalkStart => exact ⟨_, rfl, hs.logWalkStart⟩
  | classLogWalkDone => exact ⟨_, rfl, hs.classWalkDone⟩
  | terrLogWalkDone => exact ⟨_, rfl, hs.terrWalkDone⟩
  | copyRefillDone => exact ⟨_, rfl, hs.refillDone⟩
  | pageStageDiscard => exact ⟨_, rfl, hs.onWrite fun h1 => h1.stageDiscard⟩
  | linkTrainingDone => exact ⟨_, rfl, hs.trainDone⟩
  | trainTimeout => exact ⟨_, rfl, hs.trainTimeout⟩
  | trainRetry => exact ⟨_, rfl, hs.trainRetry⟩
  | linkAligned => exact ⟨_, rfl, hs.aligned⟩
  | linkUpHoldExpiry => exact ⟨_, rfl, hs.holdExpiry⟩
  | linkLockLoss => exact ⟨_, rfl, hs.lockLoss⟩
  | cdrLockLoss => exact ⟨_, rfl, hs.cdrLoss⟩
  | loopbackChange => exact ⟨_, rfl, .ite (hs.onWrite fun h1 => h1.lpCtrlWrite) hs⟩
  | fecCodeword => exact ⟨_, rfl, hs.fecCodeword⟩
  | macRxFrame => exact ⟨_, rfl, hs.macRx⟩
  | pfcRx => exact ⟨_, rfl, hs.pfcRx⟩
  | pfcPauseExpiry => exact ⟨_, rfl, hs.pauseExpiry⟩
  | pfcStorm => exact ⟨_, rfl, hs.pfcStorm⟩
  | pfcStormRecoverEnd => exact ⟨_, rfl, hs.stormEnd⟩
  | pfcTx => exact ⟨_, rfl, hs.pfcTx⟩
  | pfcRefresh => exact ⟨_, rfl, hs.pfcRefresh⟩
  | flexeCalAck => exact ⟨_, rfl, hs.calAck⟩
  | flexeCalSwitch => exact ⟨_, rfl, hs.calSwitch⟩
  | calTimeout => exact ⟨_, rfl, hs.calTimeout⟩
  | flexeOverheadRx => exact ⟨_, rfl, hs.overheadRx⟩
  | ptpStep => exact ⟨_, rfl, hs.onWrite fun h1 => h1.other⟩
  | ptpLoadGo => exact ⟨_, rfl, hs.onWrite fun h1 => .ite h1.setF.other h1⟩
  | ptpTxtsPop => exact ⟨_, rfl, hs.onRead fun h1 => .iteFst h1 h1.txtsPop⟩
  | ppsOutPulse | ppsOutEnd => exact ⟨_, rfl, hs.other.emit⟩
  | ppsInEdge => exact ⟨_, rfl, hs.ppsIn⟩
  | synceSquelch => exact ⟨_, rfl, hs.squelch⟩
  | synceResume => exact ⟨_, rfl, hs.other⟩
  | pmSecondRoll => exact ⟨_, rfl, hs.pmRoll⟩
  | steerEnqueue => exact ⟨_, rfl, hs.steerEnqueue⟩
  | sliceEntry => exact ⟨_, rfl, hs.sliceEntry⟩
  | sliceHandoff => exact ⟨_, rfl, hs.handoff⟩
  | pipeTimeout => exact ⟨_, rfl, hs.sliceFault⟩
  | sliceFault => exact ⟨_, rfl, .ite hs.sliceFault hs⟩
  | fenceRehome => exact ⟨_, rfl, .ite hs.fenceRehome hs⟩
  | fence | roleWrite | selftest => exact ⟨_, rfl, hs.onSliceCtrl⟩
  | steerMove => exact ⟨_, rfl, hs.onWrite fun h1 => h1.steerMove⟩
  | moveStart => exact ⟨_, rfl, .ite hs.moveStart hs⟩
  | moveDone => exact ⟨_, rfl, .ite hs.moveDone hs⟩
  | steerEvac | evacStop => exact ⟨_, rfl, hs.onWrite fun h1 => h1.steerEvac⟩
  | evacNextMove => exact ⟨_, rfl, .ite hs.evacNext hs⟩
  | selftestPeriodic => exact ⟨_, rfl, hs.testPeriodic⟩
  | selftestDone => exact ⟨_, rfl, hs.testDone⟩
  | tblRead | tblWrite | tblInsert | tblDelete | tblMove | tblSearch | tblFlush | unsupported => exact ⟨_, rfl, hs.tblCmd⟩
  | tblCommandDone => exact ⟨_, rfl, hs.tblDone⟩
  | terrRowRewrite => exact ⟨_, rfl, hs.terrRewrite⟩
  | terrScrubStep => exact ⟨_, rfl, hs.terrScrub⟩
  | livenessClear => exact ⟨_, rfl, hs.livenessClear⟩
  | nhopLive => exact ⟨_, rfl, .ite (hs.onWrite fun h1 => h1.nhopLive) hs⟩
  | nhopLiveClr => exact ⟨_, rfl, .ite (hs.onWrite fun h1 => h1.nhopLiveClr) hs⟩
  | egressSliceEntry => exact ⟨_, rfl, hs.egressEntry⟩
  | deepLookupLate => exact ⟨_, rfl, hs.deepLate⟩
  | learnEvent => exact ⟨_, rfl, hs.learnEvent⟩
  | learnNotePop => exact ⟨_, rfl, hs.onRead fun h1 => .iteFst h1 (.iteFst h1.wr h1.learnPop)⟩
  | agePassStart => exact ⟨_, rfl, hs.ageStart⟩
  | ageScanVisit => exact ⟨_, rfl, hs.ageScan⟩
  | add | sub | and | or | xor | shl | shr | sar | mul | cmpeq | cmpltu | cmplt | csum | popc | clz | addi | andi | ori | xori
  | shli | shri | movk | ext | ins | ldh | sth | mfs | mts | beq | bne | bltu | bgeu | blt | bge | jal | jr | lkpExact | lkpRoute
  | lookupErr | pktrd | lkt | lock | ulk | cres | cwr | cpub | crd | apEnd | drop | punt | lrn | live | hpush | hpop | wlk | wfe
  | sig | tstart | tstop | crevoke | lrel | brk | illegalOp => exact ⟨_, rfl, hs.apIssue⟩
  | lockGrant => exact ⟨_, rfl, hs.lockGrant⟩
  | ticketComplete => exact ⟨_, rfl, hs.ticketComplete⟩
  | timeBound => exact ⟨_, rfl, hs.timeBound⟩
  | allwait => exact ⟨_, rfl, hs.allwait⟩
  | apTimerExpiry => exact ⟨_, rfl, hs.timerExpiry⟩
  | stale => exact ⟨_, rfl, hs.staleNotice⟩
  | halt | resume | step | readReg | writeReg => exact ⟨_, rfl, hs.onDbg⟩
  | dispatchEnWrite | supStart => exact ⟨_, rfl, .ite (hs.onWrite fun h1 => h1.apcCtrl) hs⟩
  | poke => exact ⟨_, rfl, .ite (hs.onWrite fun h1 => h1.poke) hs⟩
  | packetHeadArrival => exact ⟨_, rfl, hs.headArrival⟩
  | admissionDecision => exact ⟨_, rfl, hs.admission⟩
  | spillPageWrite => exact ⟨_, rfl, hs.spillWrite⟩
  | pageReturn => exact ⟨_, rfl, hs.pageReturn⟩
  | staleDrain => exact ⟨_, rfl, hs.staleDrain⟩
  | caldPwrWrite => exact ⟨_, rfl, hs.onWrite fun h1 => h1.caldPwr⟩
  | egressEnqueue => exact ⟨_, rfl, hs.egressEnqueue⟩
  | egressDecision => exact ⟨_, rfl, hs.egressDecision⟩
  | shaperRelease => exact ⟨_, rfl, hs.shaperRelease⟩
  | macTxFrame => exact ⟨_, rfl, hs.macTxFrame⟩
  | gateOversize => exact ⟨_, rfl, hs.gateOversize⟩
  | gateListSwitch => exact ⟨_, rfl, hs.gateSwitch⟩
  | latSampleSet => exact ⟨_, rfl, hs.latTick⟩
  | calendarFill => exact ⟨_, rfl, hs.calendarFill⟩
  | frameReceive => exact ⟨_, rfl, hs.frameIn⟩
  | frameDeliver => exact ⟨_, rfl, .foldl hs fun h1 => h1.deliver⟩
  | framePosition => exact ⟨_, rfl, hs.framePos⟩
  | frameHeaderReceive => exact ⟨_, rfl, hs.header⟩
  | fabricSignalLoss => exact ⟨_, rfl, hs.sigLoss⟩
  | linkInService => exact ⟨_, rfl, hs.linkIn⟩
  | fabricXoffApply => exact ⟨_, rfl, hs.xoffApply⟩
  | cellReceive => exact ⟨_, rfl, hs.cellIn⟩
  | reorderGapTimeout => exact ⟨_, rfl, hs.gapTimeout⟩
  | reassembly => exact ⟨_, rfl, hs.reassemble⟩
  | messageSelect => exact ⟨_, rfl, hs.messageSelect⟩
  | request | grant | withdraw | restore => exact ⟨_, rfl, hs.oneMsg⟩
  | creditRound => exact ⟨_, rfl, hs.creditRound⟩
  | requestAgeOut => exact ⟨_, rfl, hs.requestAge⟩
  | requestReissue => exact ⟨_, rfl, hs.reissue⟩
  | grantExpiry => exact ⟨_, rfl, hs.grantExpiry⟩
  | heldGrantExpiry => exact ⟨_, rfl, .foldl hs fun h1 => h1.heldExpiry⟩
  | withdrawTimeout => exact ⟨_, rfl, hs.wdTimeout⟩
  | refreshDue => exact ⟨_, rfl, hs.refreshDue⟩
  | geyserDone => exact ⟨_, rfl, hs.geyserDone⟩
  | geyserLight => exact ⟨_, rfl, hs.geyserLight⟩
  | hbmRequest => exact ⟨_, rfl, hs.hbmRequest⟩
  | hbmBurstIssue => exact ⟨_, rfl, hs.burstIssue⟩
  | selfRefreshEntry => exact ⟨_, rfl, hs.srEntry⟩
  | selfRefreshExit => exact ⟨_, rfl, hs.srExit⟩
  | hbmControllerStart => exact ⟨_, rfl, .ite hs.hbmStart hs⟩
  | hbmTrainingDone => exact ⟨_, rfl, hs.hbmTrained⟩
  | hbmPeriodicRetrain => exact ⟨_, rfl, hs.retrainChannel⟩
  | rowRepair => exact ⟨_, rfl, hs.rowRepair⟩
  | migGo | migAbort => exact ⟨_, rfl, hs.onWrite fun h1 => h1.migCmd⟩
  | autoMigration => exact ⟨_, rfl, hs.autoMig⟩
  | migrationChunk => exact ⟨_, rfl, hs.migChunk⟩
  | migDone => exact ⟨_, rfl, hs.migDone⟩
  | sinterVisit => exact ⟨_, rfl, hs.sinterVisit⟩
  | stateLostCleanup => exact ⟨_, rfl, hs.stateCleanup⟩
  | pgFlip => exact ⟨_, rfl, hs.onWrite fun h1 => h1.flipWrite⟩
  | scrubRwPop => exact ⟨_, rfl, hs.onRead fun h1 => .iteFst h1 (.iteFst h1.wr h1.rwPop)⟩
  | cntFreeze => exact ⟨_, rfl, hs.onWrite fun h1 => h1.freezeWrite⟩
  | freezeEnd => exact ⟨_, rfl, hs.freezeEnd⟩
  | flowCacheWriteback => exact ⟨_, rfl, hs.flowWriteback⟩
  | plumeDue => exact ⟨_, rfl, hs.plumeDue⟩
  | plumeDumpDone => exact ⟨_, rfl, hs.plumeDone⟩
  | scHbKick => exact ⟨_, rfl, hs.onWrite fun h1 => h1.scKick⟩
  | heartbeatRx => exact ⟨_, rfl, hs.heartbeatRx⟩
  | heartbeatMissCheck => exact ⟨_, rfl, hs.missCheck⟩
  | controllerFault => exact ⟨_, rfl, hs.scFault⟩
  | takeover => exact ⟨_, rfl, hs.takeover⟩
  | switchover | restart | hold => exact ⟨_, rfl, hs.onScCtrl⟩
  | autoRestart => exact ⟨_, rfl, hs.autoRestart⟩
  | bootTimeout => exact ⟨_, rfl, .ite hs.bootFail hs⟩
  | restartsClear => exact ⟨_, rfl, .ite hs.setF hs⟩
  | splitEnd => exact ⟨_, rfl, hs.splitEnd⟩
  | updLockReq => exact ⟨_, rfl, hs.onWrite fun h1 => h1.lockReq⟩
  | updLockRelease => exact ⟨_, rfl, hs.onWrite fun h1 => .ite h1.lockFree h1⟩
  | lockTimeout => exact ⟨_, rfl, .ite hs.lockFree hs⟩
  | verify => exact ⟨_, rfl, hs.onWrite fun h1 => h1.verify⟩
  | verifyDone => exact ⟨_, rfl, hs.verifyDone⟩
  | clear => exact ⟨_, rfl, hs.onWrite fun h1 => h1.clearStage⟩
  | start => exact ⟨_, rfl, hs.onWrite fun h1 => h1.start⟩
  | startDone => exact ⟨_, rfl, hs.startDone⟩
  | updFloorWrite => exact ⟨_, rfl, .ite (hs.onWrite fun h1 => h1.floorWrite) hs⟩
  | requireCust => exact ⟨_, rfl, hs.onWrite fun h1 => h1.fieldWrite.emPut⟩
  | logPost => exact ⟨_, rfl, hs.onWrite fun h1 => h1.logPost⟩
  | pcieLinkDown | hotReset => exact ⟨_, rfl, hs.linkDown⟩
  | functionLevelReset => exact ⟨_, rfl, hs.flr⟩
  | pcieLinkUp => exact ⟨_, rfl, hs.linkUp⟩
  | irqRearm => exact ⟨_, rfl, hs.onWrite fun h1 => h1.rearm⟩
  | dmaRingEnable => exact ⟨_, rfl, .ite (hs.onWrite fun h1 => h1.ringCfgWrite) hs⟩
  | dmaTailWrite => exact ⟨_, rfl, .ite (hs.onWrite fun h1 => h1.tailWrite) hs⟩
  | rxDescriptorWrite => exact ⟨_, rfl, .ite hs.rxDesc hs⟩
  | coalTimeout => exact ⟨_, rfl, .ite hs.ringRaise hs⟩
  | recordFlushTimeout => exact ⟨_, rfl, (by split; exacts [hs, .ite hs.recordBack hs])⟩
  | injectPipe => exact ⟨_, rfl, .ite hs.injectPipe hs⟩
  | injectVoq => exact ⟨_, rfl, .ite hs.injectVoq hs⟩
  | hbmRead => exact ⟨_, rfl, .ite hs.hbmCopy hs⟩
  | powerRequest => exact ⟨_, rfl, hs.onWrite fun h1 => h1.powerWrite⟩
  | domainPowerOnDone => exact ⟨_, rfl, hs.domOnDone⟩
  | domainPowerOffDone => exact ⟨_, rfl, hs.domOffDone⟩
  | standbyEnter | standbyExit => exact ⟨_, rfl, hs.onWrite fun h1 => h1.stbyWrite⟩
  | standbyEntered => exact ⟨_, rfl, hs.stbyEntered⟩
  | gpioWake => exact ⟨_, rfl, .ite hs.gpioEdge hs⟩
  | i3cWake => exact ⟨_, rfl, hs.stbyExit⟩
  | standbyExited => exact ⟨_, rfl, hs.stbyExited⟩
  | powerOn => exact ⟨_, rfl, hs.powerOn⟩
  | warmPin => exact ⟨_, rfl, hs.warmPin⟩
  | soft | fdie => exact ⟨_, rfl, hs.onWrite fun h1 => h1.pwrResetWrite⟩
  | supply => exact ⟨_, rfl, hs.supplyLost⟩
  | thermalTrip => exact ⟨_, rfl, hs.thermalTrip⟩
  | thermalAlert => exact ⟨_, rfl, hs.thermal⟩
  | refLoss => exact ⟨_, rfl, hs.refLoss⟩
  | refReturn => exact ⟨_, rfl, hs.refReturn⟩
  | perst => exact ⟨_, rfl, hs.perst⟩
  | gpioEvent => exact ⟨_, rfl, hs.gpioEdge⟩
  | softReset | enable => exact ⟨_, rfl, hs.onWrite fun h1 => h1.pgCtrlWrite⟩
  | pgIntSet => exact ⟨_, rfl, hs.onWrite fun h1 => h1.setInts⟩
  | rxFaultOrderedSet => exact ⟨_, rfl, hs.faultSets⟩
  | fabricSignalReturn => exact ⟨_, rfl, hs.sigReturn⟩
  | managementPathChange => exact ⟨_, rfl, (hs.withPaths fun h1 => h1.other).scPathCheck⟩
  | msixMaskChange => exact ⟨_, rfl, hs.msixMask⟩
  | txBadType => exact ⟨_, rfl, .ite hs.txBack hs⟩
  | poresetAssert => exact ⟨_, rfl, hs.poreset⟩
  | supplyRestored => exact ⟨_, rfl, hs.supplyBack⟩
  | flexeOhLock => exact ⟨_, rfl, hs.ohLock⟩

/-- Settles O3: each command keeps the register file sound, and the queue of commands is no register. -/
theorem everyStepKeepsTheRegisterFileSound : Obligations.EveryStepKeepsTheRegisterFileSound := by
  intro s t hs h
  have hsound : s.Sound s.part := ⟨hs, rfl⟩
  unfold step at h
  split at h
  · cases h
    exact ⟨hs, rfl⟩
  next c rest _ =>
    obtain ⟨u, hu, hok⟩ := State.Sound.exec c (s := { s with pending := rest }) hsound.other
    cases hu.symm.trans h
    exact ⟨hok.regsOk, hok.part⟩

end Sys2Proof.Machine
end

section
/-! SUPPORT. The statements about the queue of commands and the state after reset. -/
namespace Sys2Proof.Machine

/-- Settles O1: the two branches of a step. -/
theorem stepRunsTheFrontCommand : Obligations.StepRunsTheFrontCommand := by
  refine ⟨fun c rest s => rfl, fun s h => ?_⟩
  unfold step
  rw [h]

/-- Settles O2: the reset state lists no register, so every register reads its reset value. -/
theorem resetState : Obligations.ResetState := by
  have hregs : State.reset.regs = [] := rfl
  have hrd (a : Nat) : State.reset.rd a = regReset .lmb4812 a := by
    unfold State.rd
    rw [hregs]
    rfl
  refine ⟨⟨trivial, fun e he => nomatch he⟩, hrd, rfl, ?_, rfl, ?_, rfl, rfl⟩
  · rw [State.cmtState, State.f, hrd]
    decide +kernel
  · rw [State.tkState, State.f, hrd]
    decide +kernel

end Sys2Proof.Machine
end

section
/-! SUPPORT. The register map: every register's fields are disjoint and its addresses lie below the shadows (R393). What a write does to one field. -/
namespace Sys2Proof.Machine

/-! ## The register map -/

/-- Two fields of a register that share no bit. -/
@[reducible] def FieldDef.apart (f g : FieldDef) : Prop := f.lo + f.w ≤ g.lo ∨ g.lo + g.w ≤ f.lo

/-- One more than the last offset that a register covers. -/
def RegDef.stop (r : RegDef) : Nat := r.off + (r.n1 - 1) * r.s1 + if r.n2 = 1 then 1 else r.n2 * r.s2

/-- No two fields of a register share a bit. -/
theorem registerFieldsApart : ((pageTableF ++ pageTableT).all fun d => (headerRegs d ++ d.regs).all fun r =>
    decide (r.fields.Pairwise FieldDef.apart)) = true := by
  decide +kernel

/-- A page's own registers end below offset 0x800; the strides of indexed registers are not 0. -/
theorem ownRegistersStop : ((pageTableF ++ pageTableT).all fun d => d.regs.all fun r =>
    decide (r.stop ≤ 0x800 ∧ 0x100 ≤ r.off ∧ (r.n2 ≠ 1 → 0 < r.s2))) = true := by
  decide +kernel

theorem findPage_mem {page : Nat} {d : PageDef} (h : findPage page = some d) : d ∈ pageTableF ++ pageTableT := by
  have := List.mem_of_find?_eq_some h
  split at this
  · exact List.mem_append_left _ this
  · exact List.mem_append_right _ this

theorem findReg_mem {addr : Nat} {r : RegDef} (h : findReg addr = some r) : ∃ d, findPage (addr / 0x1000) = some d ∧
    r ∈ (if addr % 0x1000 < 0x100 || 0xF00 ≤ addr % 0x1000 then headerRegs d else d.regs) ∧ r.covers (addr % 0x1000) = true := by
  unfold findReg at h
  split at h
  · cases h
  next d hd => exact ⟨d, hd, List.mem_of_find?_eq_some h, List.find?_some (p := fun r => RegDef.covers r (addr % 0x1000)) h⟩

theorem fields_apart {addr : Nat} {r : RegDef} (h : findReg addr = some r) : r.fields.Pairwise FieldDef.apart := by
  obtain ⟨d, hd, hr, -⟩ := findReg_mem h
  have hmem : r ∈ headerRegs d ++ d.regs := by
    split at hr
    · exact List.mem_append_left _ hr
    · exact List.mem_append_right _ hr
  have := List.all_eq_true.1 (List.all_eq_true.1 registerFieldsApart d (findPage_mem hd)) r hmem
  exact of_decide_eq_true this

theorem RegDef.covers_lt {r : RegDef} {off : Nat} (h2 : r.n2 ≠ 1 → 0 < r.s2) (h : r.covers off = true) : off < r.stop := by
  unfold RegDef.covers at h
  split at h
  · cases h
  next hoff =>
    extract_lets x i y at h
    simp only [Bool.and_eq_true, decide_eq_true_eq] at h
    obtain ⟨hi, hy⟩ := h
    have hx : i * r.s1 + y = x := by
      have hle : i * r.s1 ≤ x := by
        dsimp only [i]
        split
        · omega
        · exact Nat.div_mul_le_self _ _
      omega
    have hi' : i * r.s1 ≤ (r.n1 - 1) * r.s1 := Nat.mul_le_mul_right _ (by omega)
    have hlt : y < if r.n2 = 1 then 1 else r.n2 * r.s2 := by
      split
      next e => simpa [e] using hy
      next e =>
        simp only [e, if_false, Bool.and_eq_true, decide_eq_true_eq] at hy
        exact (Nat.div_lt_iff_lt_mul (h2 e)).1 hy.2
    unfold RegDef.stop
    omega

/-- No register lies among the shadow addresses. -/
theorem findReg_off {addr : Nat} {r : RegDef} (h : findReg addr = some r) : ¬(0x800 ≤ addr % 0x1000 ∧ addr % 0x1000 < 0xF00) := by
  obtain ⟨d, hd, hr, hc⟩ := findReg_mem h
  rintro ⟨hlo, hhi⟩
  rw [if_neg (by simp; omega)] at hr
  obtain ⟨hstop, -, h2⟩ := of_decide_eq_true (List.all_eq_true.1 (List.all_eq_true.1 ownRegistersStop d (findPage_mem hd)) r hr)
  have := RegDef.covers_lt h2 hc
  omega

/-! ## A write, field by field -/

/-- What a write leaves in a field (R16, R17). -/
def FieldDef.after (f : FieldDef) (old x : Nat) : Nat :=
  match f.kind with
  | .rw => if f.ok x then x else old
  | .w1c => old &&& (2 ^ f.w - 1 - x)
  | .w1s => old ||| x
  | _ => old

theorem bits_write_same (f : FieldDef) (cur v : Nat) : bits (f.write cur v) f.lo f.w = f.after (bits cur f.lo f.w) (bits v f.lo f.w) := by
  have hx := bits_lt v f.lo f.w
  have hc := bits_lt cur f.lo f.w
  unfold FieldDef.write FieldDef.after
  cases f.kind
  case rw =>
    dsimp only
    split
    · rw [bits_setBits_same, Nat.mod_eq_of_lt hx]
    · rfl
  case w1c => exact (bits_setBits_same _ _ _ _).trans (Nat.mod_eq_of_lt (Nat.lt_of_le_of_lt Nat.and_le_left hc))
  case w1s => exact (bits_setBits_same _ _ _ _).trans (Nat.mod_eq_of_lt (Nat.or_lt_two_pow hc hx))
  all_goals rfl

theorem bits_write_apart {f g : FieldDef} (h : f.apart g) (cur v : Nat) : bits (f.write cur v) g.lo g.w = bits cur g.lo g.w := by
  unfold FieldDef.write
  cases f.kind
  case rw =>
    dsimp only
    split
    · exact bits_setBits_disjoint _ _ _ _ _ _ h
    · rfl
  case w1c => exact bits_setBits_disjoint _ _ _ _ _ _ h
  case w1s => exact bits_setBits_disjoint _ _ _ _ _ _ h
  all_goals rfl

/-- A field that shares no bit with the fields of a list keeps its bits through their writes. -/
theorem bits_foldl_write_apart {l : List FieldDef} {g : FieldDef} (h : ∀ f ∈ l, f.apart g) (cur v : Nat) :
    bits (l.foldl (fun c f => f.write c v) cur) g.lo g.w = bits cur g.lo g.w := by
  induction l generalizing cur with
  | nil => rfl
  | cons f l ih =>
    exact (ih (fun k hk => h k (List.mem_cons_of_mem _ hk)) _).trans (bits_write_apart (h f List.mem_cons_self) cur v)

theorem bits_foldl_write {l : List FieldDef} (hl : l.Pairwise FieldDef.apart) {f : FieldDef} (hf : f ∈ l) (cur v : Nat) :
    bits (l.foldl (fun c f => f.write c v) cur) f.lo f.w = f.after (bits cur f.lo f.w) (bits v f.lo f.w) := by
  induction l generalizing cur with
  | nil => cases hf
  | cons g l ih =>
    obtain ⟨hg, hl⟩ := List.pairwise_cons.1 hl
    rcases List.mem_cons.1 hf with rfl | hf
    · exact (bits_foldl_write_apart (fun k hk => Or.symm (hg k hk)) _ v).trans (bits_write_same f cur v)
    · exact (ih hl hf _).trans (congrArg (f.after · _) (bits_write_apart (hg f hf) cur v))

/-- Fields of a register without a common bit, some of them set: each one reads what it was set to, or what it held. -/
theorem bits_foldl_setBits {p : FieldDef → Prop} [DecidablePred p] {x : FieldDef → Nat} {l : List FieldDef} (hl : l.Pairwise FieldDef.apart)
    {f : FieldDef} (hf : f ∈ l) (cur : Nat) :
    bits (l.foldl (fun c f => if p f then setBits c f.lo f.w (x f) else c) cur) f.lo f.w = if p f then x f % 2 ^ f.w else bits cur f.lo f.w := by
  have one (g : FieldDef) (c : Nat) (h : g.apart f) : bits (if p g then setBits c g.lo g.w (x g) else c) f.lo f.w = bits c f.lo f.w := by
    split
    · exact bits_setBits_disjoint _ _ _ _ _ _ h
    · rfl
  have stay (l : List FieldDef) (h : ∀ g ∈ l, g.apart f) (c : Nat) :
      bits (l.foldl (fun c f => if p f then setBits c f.lo f.w (x f) else c) c) f.lo f.w = bits c f.lo f.w := by
    induction l generalizing c with
    | nil => rfl
    | cons g l ih => exact (ih (fun k hk => h k (List.mem_cons_of_mem _ hk)) _).trans (one g c (h g List.mem_cons_self))
  induction l generalizing cur with
  | nil => cases hf
  | cons g l ih =>
    obtain ⟨hg, hl⟩ := List.pairwise_cons.1 hl
    rcases List.mem_cons.1 hf with rfl | hf
    · refine (stay l (fun k hk => Or.symm (hg k hk)) _).trans ?_
      beta_reduce
      by_cases hp : p f
      · rw [if_pos hp, if_pos hp, bits_setBits_same]
      · rw [if_neg hp, if_neg hp]
    · refine (ih hl hf _).trans ?_
      rw [one g cur (hg f hf)]

/-- The registers that show which domains are on take no write. -/
theorem domStat_not_reserved {die w : Nat} {r : RegDef} (hd : die ≤ 1) (hw : w ≤ 1) (h : findReg (Rg.PWR_DOM_STAT die w) = some r) (v : Nat) :
    r.reserved v = false := by
  have hro : ∀ f ∈ r.fields, f.kind = .ro := by
    have key : ∀ d ∈ [0, 1], ∀ k ∈ [0, 1], (findReg (Rg.PWR_DOM_STAT d k)).all (fun r => r.fields.all fun f => f.kind = .ro) = true := by
      decide +kernel
    have := key die (by simp; omega) w (by simp; omega)
    rw [h, Option.all_some, List.all_eq_true] at this
    exact fun f hf => of_decide_eq_true (this f hf)
  unfold RegDef.reserved
  rw [List.any_eq_false]
  intro f hf
  simp [hro f hf]

/-- Settles O4: a write is one write of each field, and no two fields share a bit. -/
theorem registerWriteByKind : Obligations.RegisterWriteByKind := by
  intro s a addr v r hr hst heff hres hm
  have hoff := findReg_off hr
  have hfw : s.fieldWrite addr v.toNat = (s.wr addr (r.writeLive (s.rd addr) v.toNat)).setIntIf (r.reserved v.toNat) (addr / 0x1000 * 0x1000) 29 := by
    unfold State.fieldWrite
    dsimp only
    rw [if_neg (by simpa using hoff), hr]
    simp [hst]
  have hframe := onlyRegs_setIntIf (s.wr addr (r.writeLive (s.rd addr) v.toNat)) (r.reserved v.toNat) (addr / 0x1000 * 0x1000) 29
  refine ⟨_, congrArg Host.Outcome.next ((onWrite_of s a addr _ hm).trans ((heff s a).trans hfw)), fun f hf => ?_, fun hr' => ?_, ?_⟩
  · have hfit := field_fits hr hf
    have hrd : ((s.wr addr (r.writeLive (s.rd addr) v.toNat)).setIntIf (r.reserved v.toNat) (addr / 0x1000 * 0x1000) 29).rd addr =
        (s.wr addr (r.writeLive (s.rd addr) v.toNat)).rd addr := by
      cases e : r.reserved v.toNat with
      | false => rfl
      | true =>
        rw [e] at hframe
        exact hframe.2 addr (hres e)
    have hnst : f.kind ≠ .st := fun e => by
      have := List.any_eq_false.1 hst f hf
      simp [e] at this
    rw [State.f, hrd, rd_wr_same, bits_mod _ _ _ _ hfit, RegDef.writeLive, bits_foldl_write (fields_apart hr) hf]
    unfold FieldDef.after
    cases f.kind <;> rfl
  · rw [hr']
    refine setInt_bit _ _ 29 (Nat.mul_mod_left _ _) (by decide) ?_
    rw [Nat.mul_div_cancel _ (by decide)]
    refine (onlyRegs_pageOn (P := (· == addr)) (onlyRegs_wr s addr _ (by simp)) (fun d w hd hw => ?_) _).trans (mayWrite_pageOn hm)
    simp only [beq_eq_false_iff_ne]
    rintro rfl
    rw [domStat_not_reserved hd hw hr] at hr'
    cases hr'
  · refine onlyRegs_trans (onlyRegs_wr s addr (r.writeLive (s.rd addr) v.toNat) (by simp)) ?_
    cases e : r.reserved v.toNat with
    | false => exact onlyRegs_refl _ _
    | true =>
      rw [e] at hframe
      exact onlyRegs_mono hframe (by simp)

end Sys2Proof.Machine
end

section
/-! SUPPORT. An event that is counted and flagged: what it shows, and that it is all that changes. -/
namespace Sys2Proof.Machine

/-- A register of a page's own is none of those that an event changes. -/
theorem intReg_own {pg a : Nat} (hpg : a / 0x1000 * 0x1000 = pg) (h1 : 0x100 ≤ a % 0x1000) (h2 : irqReg a = false) : intReg pg a = false := by
  simp only [intReg, h2, Bool.or_false, Bool.or_eq_false_iff, beq_eq_false_iff_ne]
  omega

theorem cntReg_own {pg a : Nat} (hpg : a / 0x1000 * 0x1000 = pg) (h1 : 0x100 ≤ a % 0x1000) (h2 : irqReg a = false) : cntReg pg a = false := by
  simp only [cntReg, intReg_own hpg h1 h2, Bool.or_false, decide_eq_false_iff_not]
  omega

/-- The counter and the flag of an event. -/
theorem bump_setInt_shows (s : State) (a pg b : Nat) (hpg : a / 0x1000 * 0x1000 = pg) (h1 : 0x100 ≤ a % 0x1000) (h2 : a % 0x1000 < 0x800)
    (hirq : irqReg a = false) (hdom : ∀ d w, d ≤ 1 → w ≤ 1 → a ≠ Rg.PWR_DOM_STAT d w) (hb : b < 32) (hp : s.pageOn (a / 0x1000) = true) :
    ((s.bump a).setInt pg b).rd a = (s.rd a + 1) % 2 ^ 32 ∧ bit (((s.bump a).setInt pg b).rd (pg + 0x010)) b = true ∧
      State.onlyRegs (fun x => x == a || cntReg pg x) s ((s.bump a).setInt pg b) := by
  have hg : pg % 0x1000 = 0 := hpg ▸ Nat.mul_mod_left _ _
  have hpg' : pg / 0x1000 = a / 0x1000 := by rw [← hpg, Nat.mul_div_cancel _ (by decide)]
  refine ⟨?_, setInt_bit _ pg b hg hb ?_, onlyRegs_trans (hpg ▸ onlyRegs_bump s a 1 h2) (onlyRegs_mono (onlyRegs_setInt _ pg b) fun x hx => ?_)⟩
  · rw [(onlyRegs_setInt _ pg b).2 a (intReg_own hpg h1 hirq)]
    exact bump_rd s a 1 h1 h2 hirq hp
  · rw [bump_pageOn s a 1 _ h2 hdom, hpg', hp]
  · simp only [Bool.or_eq_false_iff] at hx
    exact cntReg_int pg x hx.2

end Sys2Proof.Machine
end

section
/-! SUPPORT. Register accesses: writes that are discarded, 64-bit values and kind RC. -/
namespace Sys2Proof.Machine

theorem portOf_cases {r : Requester} {p : Nat} (h : portOf r = some p) : p = 0 ∨ p = 1 := by
  cases r <;> simp_all [portOf]

/-- Settles O5: what the judgment of a write discards. -/
theorem discardedRegisterWrites : Obligations.DiscardedRegisterWrites := by
  refine ⟨fun s a addr v hport hbe huser hreach hoff => ?_, fun s a addr v p hport hbe huser hon => ?_⟩
  · obtain ⟨p, hp⟩ := Option.isSome_iff_exists.1 hport
    have hj : s.judgeWrite a addr = (s, false) := by simp [State.judgeWrite, hp, hbe, huser, hreach, hoff]
    refine congrArg Host.Outcome.next ?_
    rw [State.onWrite, hj]
    rfl
  · have hj : s.judgeWrite a addr = ((s.bump (Rg.PCIE_PARTIAL_WR_CNT p)).setInt (Pg.PCIE p) Ib.PCIE_PARTIAL_WR, false) := by
      simp [State.judgeWrite, hport, hbe, huser]
    have ht : s.onWrite a addr (fun t => t.writeReg a addr v.toNat) = (s.bump (Rg.PCIE_PARTIAL_WR_CNT p)).setInt (Pg.PCIE p) Ib.PCIE_PARTIAL_WR := by
      rw [State.onWrite, hj]
      rfl
    refine ⟨_, congrArg Host.Outcome.next ht, ?_⟩
    have hdom : ∀ q ∈ [0, 1], ∀ d ∈ [0, 1], ∀ w ∈ [0, 1], Rg.PCIE_PARTIAL_WR_CNT q ≠ Rg.PWR_DOM_STAT d w := by decide
    have hall : ∀ q ∈ [0, 1], Rg.PCIE_PARTIAL_WR_CNT q / 0x1000 * 0x1000 = Pg.PCIE q ∧ 0x100 ≤ Rg.PCIE_PARTIAL_WR_CNT q % 0x1000 ∧
        Rg.PCIE_PARTIAL_WR_CNT q % 0x1000 < 0x800 ∧ irqReg (Rg.PCIE_PARTIAL_WR_CNT q) = false ∧
        Rg.PCIE_PARTIAL_WR_CNT q / 0x1000 = Pg.PCIE q / 0x1000 := by decide
    have hmem : p ∈ [0, 1] := by rcases portOf_cases hport with rfl | rfl <;> decide
    obtain ⟨hpg, h1, h2, hirq, hpage⟩ := hall p hmem
    exact bump_setInt_shows s _ _ _ hpg h1 h2 hirq (fun d w hd hw => hdom p hmem d (by simp; omega) w (by simp; omega)) (by decide)
      (by rw [hpage, hon])

end Sys2Proof.Machine
end

section
/-! SUPPORT. Staged writes (R58): a register written back is no change, and what the shadow then holds. -/
namespace Sys2Proof.Machine

theorem sdel_eq_self {α : Type} (m : Sparse α) (k : Nat) (h : ∀ p ∈ m, p.1 ≠ k) : sdel m k = m := by
  induction m with
  | nil => rfl
  | cons q m ih =>
    have hq : ¬q.1 = k := h q List.mem_cons_self
    show (if q.1 = k then sdel m k else q :: sdel m k) = q :: m
    rw [if_neg hq, ih fun p hp => h p (List.mem_cons_of_mem _ hp)]

theorem sget_absent {α : Type} (d : α) (m : Sparse α) (k : Nat) (h : ∀ p ∈ m, p.1 ≠ k) : sget d m k = d := by
  induction m with
  | nil => rfl
  | cons q m ih => exact (if_neg (h q List.mem_cons_self)).trans (ih fun p hp => h p (List.mem_cons_of_mem _ hp))

theorem sins_below {α : Type} (m : Sparse α) (k : Nat) (v : α) (h : ∀ p ∈ m, k < p.1) : sins m k v = (k, v) :: m := by
  cases m with
  | nil => rfl
  | cons q m => exact if_pos (h q List.mem_cons_self)

/-- A rising map with a key set to what it reads is the same map, where the key's default is not listed. -/
theorem sset_sget {α : Type} [DecidableEq α] (d : α) (m : Sparse α) (k : Nat) (hr : sRising m) (hne : ∀ p ∈ m, p.1 = k → p.2 ≠ d) :
    sset d m k (sget d m k) = m := by
  induction m with
  | nil => exact if_pos rfl
  | cons q m ih =>
    obtain ⟨hlt, hrise⟩ := hr
    by_cases e : q.1 = k
    · have hg : sget d (q :: m) k = q.2 := if_pos e
      have hd : sdel (q :: m) k = m := (if_pos e).trans (sdel_eq_self m k fun p hp => by have := hlt p hp; omega)
      rw [sset, hg, if_neg (hne q List.mem_cons_self e), hd, sins_below m k _ fun p hp => e ▸ hlt p hp, ← e]
    · have hg : sget d (q :: m) k = sget d m k := if_neg e
      have hd : sdel (q :: m) k = q :: sdel m k := if_neg e
      have hm := ih hrise fun p hp => hne p (List.mem_cons_of_mem _ hp)
      unfold sset at hm ⊢
      rw [hg, hd]
      split
      next h0 =>
        rw [if_pos h0] at hm
        rw [hm]
      next h0 =>
        rw [if_neg h0] at hm
        have hk : ¬k < q.1 := fun hk => h0 (sget_absent d m k fun p hp => by have := hlt p hp; omega)
        show (if k < q.1 then _ else q :: sins (sdel m k) k (sget d m k)) = q :: m
        rw [if_neg hk, hm]

theorem mem_of_sget_ne {α : Type} (d : α) (m : Sparse α) (k : Nat) (h : sget d m k ≠ d) : (k, sget d m k) ∈ m := by
  induction m with
  | nil => exact absurd rfl h
  | cons q m ih =>
    by_cases e : q.1 = k
    · have hg : sget d (q :: m) k = q.2 := if_pos e
      rw [hg, ← e]
      exact List.mem_cons_self
    · have hg : sget d (q :: m) k = sget d m k := if_neg e
      rw [hg] at h ⊢
      exact List.mem_cons_of_mem _ (ih h)

/-- In a sound register file every register reads 32 bits. -/
theorem rd_lt_of_regsOk {s : State} (h : s.regsOk) (a : Nat) : s.rd a < 2 ^ 32 := by
  by_cases e : s.rd a = regReset s.part a
  · rw [e]
    exact regReset_lt _ _
  · exact (h.2 _ (mem_of_sget_ne _ _ _ e)).1

/-- A register written with what it holds is as it was. -/
theorem wr_rd_self {s : State} (h : s.regsOk) (a : Nat) : s.wr a (s.rd a) = s := by
  have hr : sset (regReset s.part a) s.regs a (s.rd a % 2 ^ 32) = s.regs := by
    rw [Nat.mod_eq_of_lt (rd_lt_of_regsOk h a)]
    exact sset_sget _ _ _ h.1 fun p hp e => e ▸ (h.2 p hp).2
  rw [State.wr, hr]

/-! ## The staged value -/

theorem stMask_testBit {l : List FieldDef} (m : Nat) {f : FieldDef} (hf : f ∈ l) (hk : f.kind = .st) {i : Nat} (hi : i < f.w) :
    (l.foldl (fun a f => if f.kind = .st then setBits a f.lo f.w (2 ^ f.w - 1) else a) m).testBit (f.lo + i) = true := by
  have keep (g : FieldDef) (a j : Nat) (h : a.testBit j = true) : (if g.kind = .st then setBits a g.lo g.w (2 ^ g.w - 1) else a).testBit j = true := by
    split
    · rw [testBit_setBits]
      split
      next hj => simp [Nat.testBit_two_pow_sub_one]; omega
      · exact h
    · exact h
  have stay (l : List FieldDef) (a j : Nat) (h : a.testBit j = true) :
      (l.foldl (fun a f => if f.kind = .st then setBits a f.lo f.w (2 ^ f.w - 1) else a) a).testBit j = true := by
    induction l generalizing a with
    | nil => exact h
    | cons g l ih => exact ih _ (keep g a j h)
  induction l generalizing m with
  | nil => cases hf
  | cons g l ih =>
    rcases List.mem_cons.1 hf with rfl | hf
    · refine stay l _ _ ?_
      simp only [hk, if_true]
      rw [testBit_setBits, if_pos (by omega)]
      simp [Nat.testBit_two_pow_sub_one, hi]
    · exact ih _ hf

theorem stMaskAt_lt (addr : Nat) : stMaskAt addr < 2 ^ 32 := by
  unfold stMaskAt
  cases h : findReg addr with
  | none => decide
  | some r =>
    simpa [RegDef.stMask] using foldl_setBits_lt (c := fun f => decide (f.kind = .st)) (x := fun f => 2 ^ f.w - 1) (v := 0) (fun f hf => field_fits h hf)
      (by decide)

/-- What was staged in a field reads back. -/
theorem sf_setStaged {s : State} {addr : Nat} {r : RegDef} (h : findReg addr = some r) {f : FieldDef} (hf : f ∈ r.fields) (hk : f.kind = .st) (v : Nat) :
    (s.setStaged addr v).sf addr ⟨f.lo, f.w⟩ = bits v f.lo f.w := by
  have hm : stMaskAt addr = r.stMask := by rw [stMaskAt, h]; rfl
  have hs : (s.setStaged addr v).staged addr = (s.rd addr &&& (2 ^ 32 - 1 - stMaskAt addr)) ||| (v &&& stMaskAt addr &&& stMaskAt addr) := by
    unfold State.staged State.withSt
    congr 2
    exact sget_sset_same _ _ _ _
  unfold State.sf
  rw [hs]
  refine Nat.eq_of_testBit_eq fun i => ?_
  rw [testBit_bits, testBit_bits]
  by_cases hi : i < f.w
  · have hbit : (stMaskAt addr).testBit (f.lo + i) = true := by
      rw [hm]
      exact stMask_testBit 0 hf hk hi
    have hnot : (2 ^ 32 - 1 - stMaskAt addr).testBit (f.lo + i) = false := by
      have e : 2 ^ 32 - 1 - stMaskAt addr = 2 ^ 32 - (stMaskAt addr + 1) := by omega
      rw [e, Nat.testBit_two_pow_sub_succ (stMaskAt_lt addr), hbit]
      simp
    rw [Nat.testBit_or, Nat.testBit_and, Nat.testBit_and, Nat.testBit_and, hbit, hnot]
    simp
  · simp [hi]

/-- An ST field that is written holds what was written. -/
theorem bits_writeStaged {r : RegDef} (hl : r.fields.Pairwise FieldDef.apart) {f : FieldDef} (hf : f ∈ r.fields) (hk : f.kind = .st) (cur v : Nat)
    (hok : f.ok (bits v f.lo f.w) = true) : bits (r.writeStaged cur v) f.lo f.w = bits v f.lo f.w := by
  refine (bits_foldl_setBits (p := fun f => f.kind = .st ∧ f.ok (bits v f.lo f.w)) hl hf cur).trans ?_
  rw [if_pos ⟨hk, hok⟩, Nat.mod_eq_of_lt (bits_lt _ _ _)]

/-- The commit manager's page answers whenever the device is out of reset. -/
theorem pageOn_cmt {s : State} {page : Nat} (h : s.pageOn page = true) : s.pageOn (Rg.CMT_LATE_WRITE_CNT / 0x1000) = true := by
  have hp : pagePresent s.part 1 = true := by cases s.part <;> decide
  have hd : domOf 1 = none := by decide
  simp only [State.pageOn, Bool.and_eq_true] at h
  obtain ⟨⟨hr, -⟩, -⟩ := h
  show s.pageOn 1 = true
  simp [State.pageOn, hr, hp, hd]

/-- A staging write outside OPEN. -/
theorem lateWrite_shows {s : State} (h : s.pageOn (Rg.CMT_LATE_WRITE_CNT / 0x1000) = true) :
    s.lateWrite.rd Rg.CMT_LATE_WRITE_CNT = (s.rd Rg.CMT_LATE_WRITE_CNT + 1) % 2 ^ 32 ∧ bit (s.lateWrite.rd (Pg.CMT + 0x010)) Ib.CMT_LATE_WRITE = true ∧
      State.onlyRegs (fun y => y == Rg.CMT_LATE_WRITE_CNT || cntReg Pg.CMT y) s s.lateWrite :=
  bump_setInt_shows s _ _ _ (by decide) (by decide) (by decide) (by decide)
    (fun d w hd hw => (show ∀ d ≤ 1, ∀ w ≤ 1, Rg.CMT_LATE_WRITE_CNT ≠ Rg.PWR_DOM_STAT d w by decide) d hd w hw) (by decide) h

theorem staged_setStaged_other (s : State) (addr v y : Nat) (h : y ≠ addr) : (s.setStaged addr v).staged y = s.staged y := by
  unfold State.staged State.withSt
  rw [State.setStaged, sget_sset_other _ _ _ _ _ _ h]
  rfl

/-- A write that acts on staged fields alone. -/
theorem stagedWrite_eq {s : State} {addr x v : Nat} {r : RegDef} (hok : s.regsOk) (hr : findReg addr = some r) (hst : r.staged = true)
    (hkind : ∀ f ∈ r.fields, f.kind = .st ∨ f.kind = .ro) (hres : r.reserved v = false) (h1 : 0x100 ≤ addr % 0x1000)
    (h2 : addr % 0x1000 < 0x800) (hx : x = addr ∨ x = addr + 0x700) :
    s.fieldWrite x v = if s.stageOpen then s.setStaged addr (r.writeStaged (s.staged addr) v) else s.lateWrite := by
  have hmix : (r.fields.any fun f => f.kind = .rw || f.kind = .w1c || f.kind = .w1s || f.kind = .wo || f.kind = .sc) = false := by
    rw [List.any_eq_false]
    intro f hf
    rcases hkind f hf with e | e <;> simp [e]
  have hlive : r.writeLive (s.rd addr) v = s.rd addr := by
    unfold RegDef.writeLive
    suffices ∀ l : List FieldDef, (∀ f ∈ l, f.kind = .st ∨ f.kind = .ro) → ∀ c, l.foldl (fun c f => f.write c v) c = c from this _ hkind _
    intro l
    induction l with
    | nil => exact fun _ _ => rfl
    | cons f l ih =>
      intro hl c
      have : f.write c v = c := by
        rcases hl f List.mem_cons_self with e | e <;> simp [FieldDef.write, e]
      rw [List.foldl_cons, this]
      exact ih (fun g hg => hl g (List.mem_cons_of_mem _ hg)) c
  have hany : (r.fields.any fun f => f.kind = .st && !f.ok (bits v f.lo f.w)) = false := by
    rw [List.any_eq_false]
    intro f hf
    have := List.any_eq_false.1 hres f hf
    simp only [Bool.and_eq_true, Bool.or_eq_true, decide_eq_true_eq, not_and] at this ⊢
    exact fun e => this (by simp [e])
  have hstage (b : Bool) : s.stageWrite r addr v b = if s.stageOpen then s.setStaged addr (r.writeStaged (s.staged addr) v) else s.lateWrite := by
    unfold State.stageWrite
    simp only [hmix, Bool.false_eq_true, false_and, and_false, if_false]
  unfold State.fieldWrite
  dsimp only
  rcases hx with rfl | rfl
  · rw [if_neg (by simp; omega), hr]
    dsimp only
    rw [hlive, wr_rd_self hok, if_pos hst, hres, hstage]
    rfl
  · rw [if_pos (by simp; omega), Nat.add_sub_cancel, hr]
    dsimp only
    rw [if_pos hst, hany, hstage]
    rfl

/-- Settles O6: the live register is written back as it was, and the staged value is written field by field. -/
theorem stagedWrites : Obligations.StagedWrites := by
  intro s a addr x v r hok hr hst hkind hres h1 h2 hx heff hm
  have hkind' : ∀ f ∈ r.fields, f.kind = .st ∨ f.kind = .ro := fun f hf => by simpa using List.all_eq_true.1 hkind f hf
  have heq := stagedWrite_eq hok hr hst hkind' hres h1 h2 hx
  refine ⟨_, congrArg Host.Outcome.next ((onWrite_of s a x _ hm).trans ((heff s a).trans heq)), fun ho => ?_, fun ho => ?_⟩
  · rw [if_pos ho]
    refine ⟨onlyRegs_refl _ _, fun f hf hk => ?_, fun y hy => staged_setStaged_other _ _ _ _ hy⟩
    rw [sf_setStaged hr hf hk]
    refine bits_writeStaged (fields_apart hr) hf hk _ _ ?_
    have := List.any_eq_false.1 hres f hf
    simpa [hk] using this
  · rw [if_neg (by simp [ho])]
    exact lateWrite_shows (pageOn_cmt (mayWrite_pageOn hm))

end Sys2Proof.Machine
end

section
/-! SUPPORT. 64-bit values (R15): latches and held halves are each requester's own. -/
namespace Sys2Proof.Machine

theorem reqNo_inj {q r : Requester} (h : reqNo q = reqNo r) : q = r := by
  revert h
  cases q <;> cases r <;> simp [reqNo]

theorem loKey_inj {q r : Requester} {m n : Nat} (h : loKey q m = loKey r n) : q = r ∧ m = n := by
  have h1 : reqNo q < 4 := by cases q <;> decide
  have h2 : reqNo r < 4 := by cases r <;> decide
  unfold loKey at h
  exact ⟨reqNo_inj (by omega), by omega⟩

/-- The registers with a read of their own are no _LO halves. -/
theorem isLo_ne {lo a : Nat} (h : isLo lo = true) (ha : isLo a = false) : lo ≠ a := by
  rintro rfl
  rw [h] at ha
  cases ha

theorem findPage_of_findReg {addr : Nat} {r : RegDef} (h : findReg addr = some r) : ∃ d, findPage (addr / 0x1000) = some d :=
  let ⟨d, hd, _⟩ := findReg_mem h
  ⟨d, hd⟩

/-- A read of a _LO half latches the other half and returns its own value. -/
theorem accessRead_lo {s : State} {a : Acc} {lo : Nat} {r : RegDef} (hlo : isLo lo = true) (hhi : isHi lo = false) (h1 : 0x100 ≤ lo % 0x1000)
    (h2 : lo % 0x1000 < 0x800) (hr : findReg lo = some r) (hrc : (r.fields.any fun f => f.kind = .rc) = false) :
    s.accessRead a lo = (s.setLatch a.req lo (s.view (lo + 4) a.clk), s.view lo a.clk) := by
  obtain ⟨d, hd⟩ := findPage_of_findReg hr
  have hread : s.readReg a lo = s.view lo a.clk := by
    unfold State.readReg
    simp only [hd, hhi, Bool.false_eq_true, if_false, if_neg (isLo_ne hlo (a := Rg.PTP_TOD_SEC_LO) (by decide)),
      if_neg (isLo_ne hlo (a := Rg.PTP_TOD_SEC_HI) (by decide)), if_neg (show ¬lo % 0x1000 < 0x100 by omega), if_pos h2]
  unfold State.accessRead
  rw [if_neg fun h => isLo_ne hlo (a := Rg.LEARN_NOTE_W0) (by decide) h.1, if_neg fun h => isLo_ne hlo (a := Rg.PTP_TXTS_W0) (by decide) h.1,
    if_neg fun h => isLo_ne hlo (a := Rg.SCRUB_RW_W0) (by decide) h.1]
  simp only [hread, hr, hlo, if_true, hrc, Bool.false_and, Bool.false_eq_true, if_false, if_neg (show ¬lo % 0x1000 < 0x100 by omega)]

theorem latched_setLatch_same (s : State) (q : Requester) (lo v : Nat) : (s.setLatch q lo v).latched q lo = v := sget_sset_same _ _ _ _

theorem latched_setLatch_other (s : State) {q r : Requester} {lo m : Nat} (v : Nat) (h : ¬(r = q ∧ m = lo)) :
    (s.setLatch q lo v).latched r m = s.latched r m :=
  sget_sset_other _ _ _ _ _ _ fun e => h (loKey_inj e)

/-- What a debug data register of a cluster is. -/
theorem dbgData_facts {c : Nat} (hc : c < 18) : isLo (Rg.APC_DBG_DATA_LO c) = true ∧ isHi (Rg.APC_DBG_DATA_HI c) = true ∧
    isLo (Rg.APC_DBG_DATA_HI c) = false ∧ hasRw (Rg.APC_DBG_DATA_LO c) = true ∧ hasRw (Rg.APC_DBG_DATA_HI c) = true ∧
    Rg.APC_DBG_DATA_LO c % 0x1000 = 0x1CC ∧ Rg.APC_DBG_DATA_HI c % 0x1000 = 0x1D0 ∧
    ixOf (Rg.APC_DBG_DATA_HI c) (Rg.DMA_RING_BASE_HI 0) 64 16 = none ∧ ixOf (Rg.APC_DBG_DATA_HI c) (Rg.UPD_FLOOR_HI 0) 6 8 = none ∧
    findReg (Rg.APC_DBG_DATA_HI c) = some ⟨0x1D0, 1, 0x0, 1, 0x0, false, [fd 0 32 .rw 0]⟩ ∧
    Rg.APC_DBG_DATA_HI c = Rg.APC_DBG_DATA_LO c + 4 := by
  revert c
  decide +kernel

theorem holdLo_eq {s : State} {a : Acc} {c : Nat} (hc : c < 18) (v : Nat) :
    s.writeReg a (Rg.APC_DBG_DATA_LO c) v = s.holdLo a.req (Rg.APC_DBG_DATA_LO c) v := by
  obtain ⟨hlo, -, -, hrw, -, hoff, -⟩ := dbgData_facts hc
  unfold State.writeReg
  simp only [hoff, hlo, hrw, if_true]
  rfl

theorem setBits_word (cur v : Nat) : setBits cur 0 32 v % 2 ^ 32 = v % 2 ^ 32 := by
  have := bits_setBits_same cur 0 32 v
  simpa [bits] using this

/-- A write of the _HI half of the debug data: both halves are written. -/
theorem writeReg_dbgHi {s : State} {a : Acc} {c : Nat} (hc : c < 18) (v : Nat) (hv : v < 2 ^ 32) :
    s.writeReg a (Rg.APC_DBG_DATA_HI c) v =
      ((s.takeLo a.req (Rg.APC_DBG_DATA_LO c) v).1.wr (Rg.APC_DBG_DATA_LO c) ((s.takeLo a.req (Rg.APC_DBG_DATA_LO c) v).2 % 2 ^ 32)).wr
        (Rg.APC_DBG_DATA_HI c) (setBits (s.rd (Rg.APC_DBG_DATA_HI c)) 0 32 v) := by
  obtain ⟨-, hhi, hnlo, -, hrw, -, hoff, hx1, hx2, hr, he⟩ := dbgData_facts hc
  have hw : s.writeReg a (Rg.APC_DBG_DATA_HI c) v = s.hiWrite a (Rg.APC_DBG_DATA_HI c) v := by
    unfold State.writeReg
    simp only [hoff, hnlo, hhi, hrw, if_true, Nat.reduceLT, Nat.reduceLeDiff, Bool.false_eq_true, if_false]
  rw [hw]
  unfold State.hiWrite
  simp only [hx1, hx2]
  rw [show Rg.APC_DBG_DATA_HI c - 4 = Rg.APC_DBG_DATA_LO c from rfl]
  unfold State.fieldWrite
  dsimp only
  rw [hoff, hr]
  have hrd : ((s.takeLo a.req (Rg.APC_DBG_DATA_LO c) v).1.wr (Rg.APC_DBG_DATA_LO c) ((s.takeLo a.req (Rg.APC_DBG_DATA_LO c) v).2 % 2 ^ 32)).rd
      (Rg.APC_DBG_DATA_HI c) = s.rd (Rg.APC_DBG_DATA_HI c) := rd_wr_other _ _ _ _ (by omega)
  have hb : bits v 0 32 = v := by rw [bits, Nat.pow_zero, Nat.div_one, Nat.mod_eq_of_lt hv]
  have hok : (fd 0 32 .rw 0).ok v = true := by simp [FieldDef.ok]; omega
  rw [hrd]
  simp [RegDef.staged, RegDef.reserved, RegDef.writeLive, FieldDef.write, hb, hok, State.setIntIf]

/-- Settles O7: the latch and the held half are entries of the requester and the value alone. -/
theorem sixtyFourBitValues : Obligations.SixtyFourBitValues := by
  refine ⟨fun s a lo r hlo hhi h1 h2 hr hrc hm => ?_, fun s a c v hc => ⟨fun hm => ?_, fun hm hlt => ?_⟩⟩
  · refine ⟨_, congrArg Host.Outcome.next ((onRead_of s a lo _ hm).trans
      (congrArg (fun x : State × Nat => ({ x.1 with rsp := some x.2 } : State)) (accessRead_lo hlo hhi h1 h2 hr hrc))), rfl, rfl,
      latched_setLatch_same s _ _ _, ?_, fun q m hqm => latched_setLatch_other s _ hqm⟩
    obtain ⟨d, hd⟩ := findPage_of_findReg hr
    have hpage : (lo + 4) / 0x1000 = lo / 0x1000 := by omega
    have hhi' : isHi (lo + 4) = true := by simp [isHi, hlo]
    unfold State.readReg
    dsimp only
    rw [hpage, hd]
    simp only [hhi', if_true, Nat.add_sub_cancel]
    exact latched_setLatch_same s _ _ _
  · refine ⟨_, congrArg Host.Outcome.next ((onWrite_of s a _ _ hm).trans (holdLo_eq hc _)), rfl, ?_, fun q hq => ?_⟩
    · rw [State.holdLo, sget_sset_same, Nat.mod_eq_of_lt v.isLt]
    · rw [State.holdLo, sget_sset_other _ _ _ _ _ _ fun e => hq (loKey_inj e).1]
  · have he := (dbgData_facts hc).2.2.2.2.2.2.2.2.2.2
    refine ⟨_, congrArg Host.Outcome.next ((onWrite_of s a _ _ hm).trans (writeReg_dbgHi hc v.toNat v.isLt)), ?_, ?_, ?_⟩
    · rw [State.rd64, ← he, rd_wr_same, rd_wr_other _ _ _ _ (by omega), rd_wr_same, setBits_word, Nat.mod_eq_of_lt v.isLt, Nat.mod_mod, State.takeLo]
      have hv := v.isLt
      dsimp only
      split <;> omega
    · rw [State.wr_loHeld, State.wr_loHeld, State.takeLo, sget_sset_same]
    · exact onlyRegs_trans (onlyRegs_wr _ _ _ (by simp)) (onlyRegs_wr _ _ _ (by simp))

end Sys2Proof.Machine
end

section
/-! SUPPORT. Registers of kind RC (R16): a read returns the fields to their reset values. -/
namespace Sys2Proof.Machine

/-- A reset value fits its field. -/
theorem rcResetsFit : ((pageTableF ++ pageTableT).all fun d => (headerRegs d ++ d.regs).all fun r => r.fields.all fun f =>
    decide (f.kind = .rc → f.reset < 2 ^ f.w)) = true := by
  decide +kernel

theorem rcReset_lt {addr : Nat} {r : RegDef} (h : findReg addr = some r) {f : FieldDef} (hf : f ∈ r.fields) (hk : f.kind = .rc) : f.reset < 2 ^ f.w := by
  obtain ⟨d, hd, hr, -⟩ := findReg_mem h
  have hmem : r ∈ headerRegs d ++ d.regs := by
    split at hr
    · exact List.mem_append_left _ hr
    · exact List.mem_append_right _ hr
  have := List.all_eq_true.1 (List.all_eq_true.1 (List.all_eq_true.1 rcResetsFit d (findPage_mem hd)) r hmem) f hf
  exact of_decide_eq_true this hk

theorem accessRead_rc {s : State} {a : Acc} {addr : Nat} {r : RegDef} (hr : findReg addr = some r) (hrc : (r.fields.any fun f => f.kind = .rc) = true)
    (hlo : isLo addr = false) (h1 : addr ≠ Rg.LEARN_NOTE_W0) (h2 : addr ≠ Rg.PTP_TXTS_W0) (h3 : addr ≠ Rg.SCRUB_RW_W0) (h4 : addr ≠ Rg.PTP_TOD_NS)
    (hf : s.te.frz = none) (hu : a.user = false) : s.accessRead a addr = (s.wr addr (r.clearRc (s.rd addr)), s.readReg a addr) := by
  have hz : s.frozenDie (addr / 0x1000000) = none := by rw [State.frozenDie, hf]
  unfold State.accessRead
  simp only [h1, h2, h3, h4, hlo, hr, hrc, hz, hu, false_and, if_false, Bool.false_eq_true, Bool.not_false, Bool.and_self, Option.isNone_none, if_true]

/-- Settles O8: each field of the register is set to its reset value or left. -/
theorem clearOnRead : Obligations.ClearOnRead := by
  intro s a addr r hr hrc hoff1 hoff2 hlo hhi h1 h2 h3 h4 hf hm
  have hu : a.user = false := by
    simp only [State.mayRead, Bool.and_eq_true, Bool.not_eq_true'] at hm
    exact hm.1.1
  refine ⟨_, congrArg Host.Outcome.next ((onRead_of s a addr _ hm).trans (congrArg (fun x : State × Nat => ({ x.1 with rsp := some x.2 } : State))
    (accessRead_rc hr hrc hlo h1 h2 h3 h4 hf hu))), rfl, fun f hfm => ?_, onlyRegs_wr _ addr _ (by simp)⟩
  show bits ((s.wr addr (r.clearRc (s.rd addr))).rd addr) f.lo f.w = _
  rw [rd_wr_same, bits_mod _ _ _ _ (field_fits hr hfm)]
  refine (bits_foldl_setBits (p := fun f => f.kind = .rc) (x := FieldDef.reset) (fields_apart hr) hfm _).trans ?_
  split
  next hk => exact Nat.mod_eq_of_lt (rcReset_lt hr hfm hk)
  · rfl

end Sys2Proof.Machine
end

section
/-! SUPPORT. The common page header (R396, R398, R400): flags set together, power requests, filtered registers. -/
namespace Sys2Proof.Machine

theorem sget_filter_key {α : Type} (d : α) (m : Sparse α) (p : Nat → Bool) (k : Nat) :
    sget d (m.filter fun e => p e.1) k = if p k then sget d m k else d := by
  induction m with
  | nil => exact (ite_self d).symm
  | cons q m ih =>
    have hcons : ∀ r : Sparse α, sget d (q :: r) k = if q.1 = k then q.2 else sget d r k := fun _ => rfl
    rw [List.filter_cons]
    by_cases e : q.1 = k
    · cases hp : p q.1 with
      | true => simp [hcons, e, e ▸ hp]
      | false => simp [e ▸ hp, ih]
    · cases hp : p q.1 <;> simp [hcons, e, ih]

/-- The messages that an event sends leave every register outside the IRQ page. -/
theorem onlyRegs_edges (s : State) (ns : List Nat) (f : State → State) : State.onlyRegs irqReg (f s) (s.withEdges ns f) := by
  unfold State.withEdges
  refine onlyRegs_foldl _ ns (f s) _ (onlyRegs_refl _ _) fun u n => ?_
  split
  · exact onlyRegs_raiseSrc u n
  · exact onlyRegs_refl _ _

theorem setIntRaw_rd (s : State) (pg m : Nat) : (s.setIntRaw pg m).rd (pg + 0x010) = (s.rd (pg + 0x010) ||| m) % 2 ^ 32 := by
  simp only [State.setIntRaw]
  split
  · rw [rd_wr_other _ _ _ _ (by omega), rd_wr_same]
  · exact rd_wr_same _ _ _

/-- The flags set in a page are those set before and those of the event. -/
theorem setInts_rd (s : State) (pg m : Nat) (hp : s.pageOn (pg / 0x1000) = true) (hirq : irqReg (pg + 0x010) = false) :
    (s.setInts pg m).rd (pg + 0x010) = (s.rd (pg + 0x010) ||| m) % 2 ^ 32 := by
  rw [State.setInts, if_pos hp, (onlyRegs_edges s _ _).2 _ hirq]
  exact setIntRaw_rd s pg m

theorem page_of_offset (page off : Nat) (h : off < 0x1000) : (page * 0x1000 + off) / 0x1000 = page := by omega

theorem pageOn_of_headerWrite {s : State} {a : Acc} {page off : Nat} (hm : s.mayWrite a (page * 0x1000 + off) = true) (h : off < 0x1000) :
    s.pageOn (page * 0x1000 / 0x1000) = true := by
  rw [Nat.mul_div_cancel _ (by decide), ← page_of_offset page off h]
  exact mayWrite_pageOn hm

/-- The request registers of the power domains are none of those that an event in a page changes. -/
theorem intReg_domReq (page d w : Nat) (hd : d ≤ 1) (hw : w ≤ 1) : intReg (page * 0x1000) (Rg.PWR_DOM_REQ d w) = false := by
  have hall : ∀ d ∈ [0, 1], ∀ w ∈ [0, 1], irqReg (Rg.PWR_DOM_REQ d w) = false ∧ 0x100 ≤ Rg.PWR_DOM_REQ d w % 0x1000 := by decide
  obtain ⟨hirq, hoff⟩ := hall d (by simp; omega) w (by simp; omega)
  simp only [intReg, hirq, Bool.or_false, Bool.or_eq_false_iff, beq_eq_false_iff_ne]
  omega

theorem pageDoms_lt {page : Nat} {x : Nat × Nat} (h : x ∈ pageDoms page) : x.1 ≤ 1 ∧ x.2 < 64 := by
  unfold pageDoms at h
  split at h
  · simp only [List.mem_cons, List.not_mem_nil, or_false] at h
    rcases h with rfl | rfl <;> decide
  · exact domOf_lt page x.1 x.2 (by simpa using h)

/-- A state that agrees on the request registers shows the same POWER_REQ. -/
theorem pagePowerReq_congr {s t : State} (page : Nat) (h : ∀ d w, d ≤ 1 → w ≤ 1 → t.rd (Rg.PWR_DOM_REQ d w) = s.rd (Rg.PWR_DOM_REQ d w)) :
    t.pagePowerReq page = s.pagePowerReq page := by
  rw [State.pagePowerReq, State.pagePowerReq, Bool.eq_iff_iff, List.all_eq_true, List.all_eq_true]
  refine forall₂_congr fun x hx => ?_
  obtain ⟨hd, hn⟩ := pageDoms_lt hx
  rw [h x.1 (x.2 / 32) hd (by omega)]

theorem ctrlWrite_disable (s : State) (page v by' : Nat) (he : page ≠ Pg.EQS / 0x1000) (hh : ¬(0x1060 ≤ page ∧ page < 0x1064))
    (h31 : bit v 31 = false) (h30 : bit v 30 = false) (h29 : bit v 29 = s.pagePowerReq page) :
    s.pgCtrlWrite page v by' = s.setInt (page * 0x1000) 27 := by
  have hen : s.pgEnable page (bit v 31) = s.setInt (page * 0x1000) 27 := by simp [State.pgEnable, he, hh, h31]
  have hreq : (s.setInt (page * 0x1000) 27).pagePowerReq page = s.pagePowerReq page :=
    pagePowerReq_congr page fun d w hd hw => (onlyRegs_setInt s _ _).2 _ (intReg_domReq page d w hd hw)
  simp [State.pgCtrlWrite, hen, h30, hreq, h29]

/-- A soft reset in a page of an always-on domain is limited. -/
theorem ctrlWrite_reset (s : State) (page v by' : Nat) (hd : pageDoms page = []) (hr : shas s.tblRun page = false)
    (h31 : bit v 31 = true) (h30 : bit v 30 = true) (h29 : bit v 29 = true) : s.pgCtrlWrite page v by' = s.limitedReset page := by
  have hne : ∀ q ∈ [Pg.EQS / 0x1000, 0x1060, 0x1061, 0x1062, 0x1063], pageDoms q ≠ [] := by decide +kernel
  have he : page ≠ Pg.EQS / 0x1000 := fun h => hne _ (by simp) (h ▸ hd)
  have hh : ¬(0x1060 ≤ page ∧ page < 0x1064) := fun h => hne page (by simp; omega) hd
  have hen : s.pgEnable page (bit v 31) = s := by simp [State.pgEnable, he, hh, h31]
  have hsoft : s.softReset page by' = s.limitedReset page := by simp [State.softReset, State.softNow, State.pageOffOk, hr, hd]
  have hreq : ∀ t : State, t.pagePowerReq page = true := fun t => by simp [State.pagePowerReq, hd]
  simp [State.pgCtrlWrite, hen, h30, hsoft, hreq, h29]

/-- What a limited reset clears. -/
def limitedClears (page addr : Nat) : Bool :=
  addr / 0x1000 == page && (addr % 0x1000 == 0x010 || addr % 0x1000 == 0x01C || addr % 0x1000 == 0x020 || addr % 0x1000 == 0x024 ||
    addr % 0x1000 == 0x028 || decide (0x040 ≤ addr % 0x1000 ∧ addr % 0x1000 < 0x07C) || (decide (0x100 ≤ addr % 0x1000) && (findReg addr).any (·.cnt)))

theorem limitedReset_rd (s : State) (page x : Nat) :
    (s.limitedReset page).rd x = if limitedClears page x then regReset s.part x else s.rd x := by
  have h := sget_filter_key (regReset s.part x) s.regs (fun a => !limitedClears page a) x
  refine (show (s.limitedReset page).rd x = _ from h).trans ?_
  cases limitedClears page x <;> rfl

theorem stageDiscard_shows (s : State) (page : Nat) (hc : s.pageOn (Pg.CMT / 0x1000) = true) :
    (s.stageOpen = true → s.stageDiscard page = { s with shadows := (s.stageDiscard page).shadows } ∧
      ∀ x, sget 0 (s.stageDiscard page).shadows x = if x / 0x1000 = page then 0 else sget 0 s.shadows x) ∧
    (s.stageOpen = false → (s.stageDiscard page).rd Rg.CMT_LATE_WRITE_CNT = (s.rd Rg.CMT_LATE_WRITE_CNT + 1) % 2 ^ 32 ∧
      (s.stageDiscard page).shadows = s.shadows) := by
  refine ⟨fun ho => ?_, fun ho => ?_⟩
  · have he : s.stageDiscard page = { s with shadows := s.shadows.filter fun e => e.1 / 0x1000 != page } := if_pos ho
    rw [he]
    refine ⟨rfl, fun x => ?_⟩
    rw [sget_filter_key 0 s.shadows (fun k => k / 0x1000 != page)]
    by_cases h : x / 0x1000 = page <;> simp [h]
  · have he : s.stageDiscard page = s.lateWrite := if_neg (by simp [ho])
    obtain ⟨hcnt, -, hframe⟩ := lateWrite_shows hc
    rw [he]
    exact ⟨hcnt, by rw [hframe.1]⟩

/-- Settles O9: PG_INT_SET, ENABLE, SOFT_RESET and PG_STAGE_CTRL by the equations above. -/
theorem pageHeader : Obligations.PageHeader := by
  refine ⟨fun s a page v hm hirq => ?_, fun s a page v hm he hh h31 h30 h29 => ?_, fun s a page v hm hd hr h31 h30 h29 => ?_, fun s a page hm => ?_⟩
  · have hp := pageOn_of_headerWrite hm (by decide)
    exact ⟨_, congrArg Host.Outcome.next (onWrite_of s a _ _ hm), onlyRegs_setInts s _ _, setInts_rd s _ _ hp hirq⟩
  · have hp := pageOn_of_headerWrite hm (by decide)
    exact ⟨_, congrArg Host.Outcome.next ((onWrite_of s a _ _ hm).trans (ctrlWrite_disable s page _ _ he hh h31 h30 h29)),
      onlyRegs_setInt s _ _, setInt_bit s _ _ (Nat.mul_mod_left _ _) (by decide) hp⟩
  · refine ⟨_, congrArg Host.Outcome.next ((onWrite_of s a _ _ hm).trans (ctrlWrite_reset s page _ _ hd hr h31 h30 h29)), rfl,
      fun off hoff => ?_, fun x hx => ?_⟩
    · refine (limitedReset_rd s page _).trans (if_pos ?_)
      simp only [List.mem_cons, List.not_mem_nil, or_false] at hoff
      rcases hoff with rfl | rfl | rfl | rfl | rfl <;> simp [limitedClears, page_of_offset, Nat.mul_add_mod_self_right]
    · exact (limitedReset_rd s page x).trans (if_neg (by simp [limitedClears, hx]))
  · exact ⟨_, congrArg Host.Outcome.next (onWrite_of s a _ _ hm), stageDiscard_shows s page (pageOn_cmt (mayWrite_pageOn hm))⟩

end Sys2Proof.Machine
end

section
/-! SUPPORT. What events leave alone: registers of a block's own under flags, counts, 64-bit counts and records of the log. -/
namespace Sys2Proof.Machine

/-- A register of a block's own: none that an event flags or captures in, and none of the IRQ page. -/
def ownReg (x : Nat) : Bool := decide (0x7C ≤ x % 0x1000) && decide (x / 0x1000 ≠ 0x1093)

theorem ownReg_iff {x : Nat} : ownReg x = true ↔ 0x7C ≤ x % 0x1000 ∧ x / 0x1000 ≠ 0x1093 := by simp [ownReg]

theorem irqReg_of_own {x : Nat} (h : ownReg x = true) : irqReg x = false := by
  rw [ownReg_iff] at h
  have hcnt : Rg.IRQ_MSG_CNT 0 / 0x1000 = 0x1093 ∧ Rg.IRQ_MSG_CNT 1 / 0x1000 = 0x1093 ∧ Pg.IRQ = 0x1093000 := by decide
  simp only [irqReg, Bool.or_eq_false_iff, beq_eq_false_iff_ne, decide_eq_false_iff_not]
  omega

theorem cntReg_of_own {pg x : Nat} (hg : pg % 0x1000 = 0) (h : ownReg x = true) : cntReg pg x = false := by
  have hirq := irqReg_of_own h
  rw [ownReg_iff] at h
  simp only [cntReg, intReg, hirq, Bool.or_false, Bool.or_eq_false_iff, beq_eq_false_iff_ne, decide_eq_false_iff_not]
  omega

theorem intReg_of_own {pg x : Nat} (hg : pg % 0x1000 = 0) (h : ownReg x = true) : intReg pg x = false := cntReg_int _ _ (cntReg_of_own hg h)

section Own
variable {s : State} {x : Nat} (hx : ownReg x = true)
include hx

theorem rd_setInts_own {pg m : Nat} (hg : pg % 0x1000 = 0) : (s.setInts pg m).rd x = s.rd x := (onlyRegs_setInts s pg m).2 x (intReg_of_own hg hx)

theorem rd_setInt_own {pg b : Nat} (hg : pg % 0x1000 = 0) : (s.setInt pg b).rd x = s.rd x := rd_setInts_own hx hg

theorem rd_setIntIf_own {c : Bool} {pg b : Nat} (hg : pg % 0x1000 = 0) : (s.setIntIf c pg b).rd x = s.rd x :=
  (onlyRegs_setIntIf s c pg b).2 x (intReg_of_own hg hx)

theorem rd_bump_own {a n : Nat} (ha : a % 0x1000 < 0x800) (hne : x ≠ a) : (s.bump a n).rd x = s.rd x :=
  (onlyRegs_bump s a n ha).2 x (by simp [hne, cntReg_of_own (pg := a / 0x1000 * 0x1000) (Nat.mul_mod_left _ _) hx])

theorem rd_bumpIf_own {c : Bool} {a : Nat} (ha : a % 0x1000 < 0x800) (hne : x ≠ a) : (s.bumpIf c a).rd x = s.rd x :=
  (onlyRegs_bumpIf s c a ha).2 x (by simp [hne, cntReg_of_own (pg := a / 0x1000 * 0x1000) (Nat.mul_mod_left _ _) hx])

theorem rd_raiseSrc_own {n : Nat} : (s.raiseSrc n).rd x = s.rd x := (onlyRegs_raiseSrc s n).2 x (irqReg_of_own hx)

end Own

/-! ## 64-bit counters -/

theorem onlyRegs_wr64 {P : Nat → Bool} (s : State) (a v : Nat) (h : P a = true) (h4 : P (a + 4) = true) : State.onlyRegs P s (s.wr64 a v) :=
  onlyRegs_trans (onlyRegs_wr s _ _ h) (onlyRegs_wr _ _ _ h4)

theorem rd64_wr64 (s : State) (a v : Nat) : (s.wr64 a v).rd64 a = v % 2 ^ 64 := by
  simp only [State.rd64, State.wr64]
  rw [rd_wr_other _ _ _ _ (by omega), rd_wr_same, rd_wr_same]
  omega

/-- Everything that counting an event of 64 bits can do. -/
theorem onlyRegs_bump64 (s : State) (a n : Nat) (h : a % 0x1000 + 4 < 0x800) :
    State.onlyRegs (fun x => x == a || x == a + 4 || cntReg (a / 0x1000 * 0x1000) x) s (s.bump64 a n) := by
  unfold State.bump64
  split
  · exact onlyRegs_refl _ _
  · simp only []
    have h1 : State.onlyRegs (fun x => x == a || x == a + 4 || cntReg (a / 0x1000 * 0x1000) x) s (s.wr64 a (s.rd64 a + n)) :=
      onlyRegs_wr64 s _ _ (by simp) (by simp)
    split
    · exact h1
    · have := ovfPlace_lt (a + 4) (by omega)
      exact onlyRegs_trans h1 (onlyRegs_mono (onlyRegs_setOvf _ _ _ _ (by omega) (by omega)) (by
        intro x hx; simp only [Bool.or_eq_false_iff] at hx; exact hx.2))

theorem rd64_congr {s t : State} {a : Nat} (h : t.rd a = s.rd a) (h4 : t.rd (a + 4) = s.rd (a + 4)) : t.rd64 a = s.rd64 a := by
  rw [State.rd64, State.rd64, h, h4]

/-- A 64-bit counter after an event: more by the amount, modulo 2⁶⁴. -/
theorem bump64_rd64 (s : State) (a n : Nat) (h : a % 0x1000 + 4 < 0x800) (ho : ownReg a = true) (ho4 : ownReg (a + 4) = true)
    (hp : s.pageOn (a / 0x1000) = true) : (s.bump64 a n).rd64 a = (s.rd64 a + n) % 2 ^ 64 := by
  unfold State.bump64
  simp only [hp, Bool.not_true, Bool.false_eq_true, if_false]
  split
  · exact rd64_wr64 _ _ _
  · have hlt := ovfPlace_lt (a + 4) (by omega)
    have hframe := onlyRegs_setOvf (s.wr64 a (s.rd64 a + n)) (a / 0x1000 * 0x1000) (0x040 + 4 * (ovfPlace (a + 4)).1) (ovfPlace (a + 4)).2
      (by omega) (by omega)
    rw [rd64_congr (hframe.2 a (cntReg_of_own (Nat.mul_mod_left _ _) ho)) (hframe.2 _ (cntReg_of_own (Nat.mul_mod_left _ _) ho4))]
    exact rd64_wr64 _ _ _

theorem rd_bump64_own {s : State} {x a n : Nat} (hx : ownReg x = true) (ha : a % 0x1000 + 4 < 0x800) (hne : x ≠ a) (hne4 : x ≠ a + 4) :
    (s.bump64 a n).rd x = s.rd x :=
  (onlyRegs_bump64 s a n ha).2 x (by simp [hne, hne4, cntReg_of_own (pg := a / 0x1000 * 0x1000) (Nat.mul_mod_left _ _) hx])

/-! ## Fields, bits and pages -/

theorem f_of_rd {s t : State} {a : Nat} (h : t.rd a = s.rd a) (fl : Fld) : t.f a fl = s.f a fl := congrArg (bits · fl.lo fl.w) h

theorem fb_of_rd {s t : State} {a : Nat} (h : t.rd a = s.rd a) (fl : Fld) : t.fb a fl = s.fb a fl := congrArg (· == 1) (f_of_rd h fl)

theorem fb_setF_b2n (s : State) (a : Nat) (fl : Fld) (b : Bool) (h : fl.lo + fl.w ≤ 32) (hw : fl.w = 1) : (s.setF a fl (b2n b)).fb a fl = b := by
  rw [State.fb, f_setF_same _ _ _ _ h, hw]
  cases b <;> rfl

theorem fb_setF_one (s : State) (a : Nat) (fl : Fld) (h : fl.lo + fl.w ≤ 32) (hw : fl.w = 1) : (s.setF a fl 1).fb a fl = true :=
  fb_setF_b2n s a fl true h hw

theorem fb_setF_zero (s : State) (a : Nat) (fl : Fld) (h : fl.lo + fl.w ≤ 32) (hw : fl.w = 1) : (s.setF a fl 0).fb a fl = false :=
  fb_setF_b2n s a fl false h hw

theorem fb_setF_disjoint (s : State) (a : Nat) (fl fl' : Fld) (x : Nat) (h : fl'.lo + fl'.w ≤ 32) (hd : fl.lo + fl.w ≤ fl'.lo ∨ fl'.lo + fl'.w ≤ fl.lo) :
    (s.setF a fl x).fb a fl' = s.fb a fl' := congrArg (· == 1) (f_setF_disjoint s a fl fl' x h hd)

/-- A frame that names no register of the power domains leaves which pages answer. -/
theorem pageOn_of_onlyRegs {P : Nat → Bool} {s t : State} (h : State.onlyRegs P s t)
    (hd : ∀ d ∈ [0, 1], ∀ w ∈ [0, 1], P (Rg.PWR_DOM_STAT d w) = false) (page : Nat) : t.pageOn page = s.pageOn page :=
  onlyRegs_pageOn h (fun d w h1 h2 => hd d (by simp; omega) w (by simp; omega)) page

/-- What of the state is neither a register nor MSI-X nor output stays where only registers change. -/
theorem onlyRegs_proj {α : Type} {P : Nat → Bool} {s t : State} (h : State.onlyRegs P s t) (π : State → α)
    (hπ : ∀ (u : State) (r : Sparse Nat) (p q : PcieSt) (o : List Emit), π { u with regs := r, pcie0 := p, pcie1 := q, out := o } = π u := by
      exact fun _ _ _ _ _ => rfl) : π t = π s := by
  rw [h.1]
  exact hπ s t.regs t.pcie0 t.pcie1 t.out

theorem ne_domStat_page {a : Nat} (h0 : a / 0x1000 ≠ 0xE0) (h1 : a / 0x1000 ≠ 0x10B0) (d w : Nat) (hd : d ≤ 1) (hw : w ≤ 1) :
    a ≠ Rg.PWR_DOM_STAT d w := by
  have hall : ∀ d ∈ [0, 1], ∀ w ∈ [0, 1], Rg.PWR_DOM_STAT d w / 0x1000 = 0xE0 ∨ Rg.PWR_DOM_STAT d w / 0x1000 = 0x10B0 := by decide
  have := hall d (by simp; omega) w (by simp; omega)
  rintro rfl
  omega

/-- A counter outside the power pages says nothing about which pages answer. -/
theorem pageOn_bump (s : State) (a n page : Nat) (hlt : a % 0x1000 < 0x800) (h0 : a / 0x1000 ≠ 0xE0) (h1 : a / 0x1000 ≠ 0x10B0) :
    (s.bump a n).pageOn page = s.pageOn page := bump_pageOn s a n page hlt (ne_domStat_page h0 h1)

theorem bump_rd_own (s : State) (a n : Nat) (ho : ownReg a = true) (h1 : 0x100 ≤ a % 0x1000) (h2 : a % 0x1000 < 0x800)
    (hp : s.pageOn (a / 0x1000) = true) : (s.bump a n).rd a = (s.rd a + n) % 2 ^ 32 := bump_rd s a n h1 h2 (irqReg_of_own ho) hp

theorem pageOn_setF_of (s : State) (a : Nat) (fl : Fld) (v page : Nat) (h0 : a / 0x1000 ≠ 0xE0) (h1 : a / 0x1000 ≠ 0x10B0) :
    (s.setF a fl v).pageOn page = s.pageOn page :=
  onlyRegs_pageOn (onlyRegs_setF (P := fun x => x == a) s a fl v (beq_self_eq_true a))
    (fun d w hd hw => beq_false_of_ne (ne_domStat_page h0 h1 d w hd hw).symm) page

end Sys2Proof.Machine
end

section
/-! SUPPORT. The die-to-die link (R34, R35): what a judgment of its state touches, and the state that it leaves. -/
namespace Sys2Proof.Machine

/-! ## The frame of a change of the link state -/

/-- The registers that a change of the link state writes beside D2D_STAT and those of events: the count of discards, and those of EMRAM, FCRD and EQS. -/
def linkReg (x : Nat) : Bool :=
  x == Rg.D2D_DISCARD_CNT 1 || x / 0x1000 == Pg.EMRAM / 0x1000 || x / 0x1000 == Pg.FCRD / 0x1000 || x / 0x1000 == Pg.EQS / 0x1000

/-- The frame of a change of the link state: the link's own state but for the ticks spent DOWN, and every register but those of `linkReg`, of `L`
and of events. -/
def State.linkFrame (L : Nat → Bool) (s t : State) : Prop :=
  t.d2 = { s.d2 with downTicks := t.d2.downTicks } ∧ ∀ x, ownReg x = true → (linkReg x || L x) = false → t.rd x = s.rd x

namespace State.linkFrame
variable {L : Nat → Bool} {s t u : State}

theorem refl (s : State) : s.linkFrame L s := ⟨rfl, fun _ _ _ => rfl⟩

theorem trans (h1 : s.linkFrame L t) (h2 : t.linkFrame L u) : s.linkFrame L u :=
  ⟨h2.1.trans (by rw [h1.1]), fun x hx hl => (h2.2 x hx hl).trans (h1.2 x hx hl)⟩

theorem ofOnlyRegs {P : Nat → Bool} (h : State.onlyRegs P s t) (hP : ∀ x, ownReg x = true → (linkReg x || L x) = false → P x = false) :
    s.linkFrame L t := ⟨by rw [h.1], fun x hx hl => h.2 x (hP x hx hl)⟩

/-- Any change outside the registers and the link's own state is in the frame. -/
theorem ofRegs (h2 : t.d2 = s.d2) (hp : t.part = s.part) (hr : t.regs = s.regs) : s.linkFrame L t := ⟨by rw [h2], fun x _ _ => rd_congr hp hr x⟩

theorem ne_of_named {a x : Nat} (ha : (linkReg a || L a) = true) (hx : (linkReg x || L x) = false) : x ≠ a := fun e => by
  rw [e, ha] at hx
  exact absurd hx (by decide)

theorem wr (h : s.linkFrame L t) {a v : Nat} (ha : (linkReg a || L a) = true) : s.linkFrame L (t.wr a v) :=
  h.trans ⟨rfl, fun _ _ hl => rd_wr_other _ _ _ _ (ne_of_named ha hl)⟩

theorem setF (h : s.linkFrame L t) {a v : Nat} {fl : Fld} (ha : (linkReg a || L a) = true) : s.linkFrame L (t.setF a fl v) := h.wr ha

theorem setInts (h : s.linkFrame L t) {pg m : Nat} (hg : pg % 0x1000 = 0) : s.linkFrame L (t.setInts pg m) :=
  h.trans (.ofOnlyRegs (onlyRegs_setInts t pg m) fun _ hx _ => intReg_of_own hg hx)

theorem setInt (h : s.linkFrame L t) {pg b : Nat} (hg : pg % 0x1000 = 0) : s.linkFrame L (t.setInt pg b) := h.setInts hg

theorem bump (h : s.linkFrame L t) {a n : Nat} (ha : (linkReg a || L a) = true) (hlt : a % 0x1000 < 0x800) : s.linkFrame L (t.bump a n) :=
  h.trans ⟨by rw [(onlyRegs_bump t a n hlt).1], fun _ hx hl => rd_bump_own hx hlt (ne_of_named ha hl)⟩

theorem bump64 (h : s.linkFrame L t) {a n : Nat} (ha : (linkReg a || L a) = true) (ha4 : (linkReg (a + 4) || L (a + 4)) = true) (hlt : a % 0x1000 + 4 < 0x800) :
    s.linkFrame L (t.bump64 a n) :=
  h.trans ⟨by rw [(onlyRegs_bump64 t a n hlt).1], fun _ hx hl => rd_bump64_own hx hlt (ne_of_named ha hl) (ne_of_named ha4 hl)⟩

theorem raiseSrc (h : s.linkFrame L t) {n : Nat} : s.linkFrame L (t.raiseSrc n) :=
  h.trans (.ofOnlyRegs (onlyRegs_raiseSrc t n) fun _ hx _ => irqReg_of_own hx)

theorem ite {c : Prop} [Decidable c] (h1 : s.linkFrame L t) (h2 : s.linkFrame L u) : s.linkFrame L (if c then t else u) := by split <;> assumption

theorem foldl {β : Type} {f : State → β → State} (hf : ∀ (u : State) (x : β), u.linkFrame L (f u x)) (l : List β) (h : s.linkFrame L t) :
    s.linkFrame L (l.foldl f t) := by
  induction l generalizing t with
  | nil => exact h
  | cons x l ih => exact ih (h.trans (hf t x))

theorem irqHeld (h : s.linkFrame L t) (l : List Nat) : s.linkFrame L { t with irqHeld := l } := h.trans (.ofRegs rfl rfl rfl)

theorem lg (h : s.linkFrame L t) (x : LogSt) : s.linkFrame L { t with lg := x } := h.trans (.ofRegs rfl rfl rfl)

theorem eg (h : s.linkFrame L t) (x : EgSt) : s.linkFrame L { t with eg := x } := h.trans (.ofRegs rfl rfl rfl)

theorem fab (h : s.linkFrame L t) (x : FabSt) : s.linkFrame L { t with fab := x } := h.trans (.ofRegs rfl rfl rfl)

theorem te (h : s.linkFrame L t) (x : TelSt) : s.linkFrame L { t with te := x } := h.trans (.ofRegs rfl rfl rfl)

theorem setMark (h : s.linkFrame L t) (pg m a : Nat) (e : WordErr) : s.linkFrame L (t.setMark pg m a e) := h.trans (.ofRegs rfl rfl rfl)

theorem ticksDown (h : s.linkFrame L t) (n : Nat) : s.linkFrame L { t with d2 := { t.d2 with downTicks := n } } := h.trans ⟨rfl, fun _ _ _ => rfl⟩

theorem putRec (h : s.linkFrame L t) (r : LogRec) : s.linkFrame L (t.putRec r) :=
  (((((h.lg _).setMark _ _ _ _).setMark _ _ _ _).wr rfl).wr rfl).bump64 rfl rfl (by decide)

theorem logPut (h : s.linkFrame L t) (r : LogRec) : s.linkFrame L (t.logPut r) :=
  .ite ((h.putRec r).lg _) (((h.lg _).bump rfl (by decide)).setInt (by decide))

theorem log (h : s.linkFrame L t) (pg code data : Nat) : s.linkFrame L (t.log pg code data) := .ite (.ite (h.lg _) (h.lg _)) (h.logPut _)

theorem pathBack (h : s.linkFrame L t) : s.linkFrame L t.pathBack :=
  .foldl (fun u _ => .ite (refl u).raiseSrc (refl u)) _
    (.irqHeld (.foldl (fun u r => (refl u).logPut r) _ (.ite (h.lg _) (((h.lg _).bump rfl (by decide)).setInt (by decide)))) _)

theorem withPaths (h : s.linkFrame L t) {f : State → State} (hf : t.linkFrame L (f t)) : s.linkFrame L (t.withPaths f) :=
  .ite ((h.trans hf).irqHeld _) (.ite (h.trans hf).pathBack (h.trans hf))

theorem setPool (h : s.linkFrame L t) (m : Sparse EPkt) : s.linkFrame L (t.setPool m) := .ite (((h.eg _).wr rfl).wr rfl) ((h.eg _).wr rfl)

theorem egressFlush (h : s.linkFrame L t) : s.linkFrame L t.egressFlush :=
  .ite ((h.eg _).setPool []) ((((h.eg _).setPool []).bump rfl (by decide)).setInt (by decide))

theorem setStore (h : s.linkFrame L t) (m : Sparse (List StoredReq)) : s.linkFrame L (t.setStore m) := (h.fab _).wr rfl

theorem withdrawSelf (h : s.linkFrame L t) (on : Bool) : s.linkFrame L (t.withdrawSelf on) :=
  have h1 : s.linkFrame L (t.setF Rg.FCRD_STAT Fd.FCRD_STAT_WITHDRAWN (b2n on)) := h.setF rfl
  .ite h (.ite ((h1.fab _).setStore []) (h1.fab _))

theorem freezeEndT (h : s.linkFrame L t) : s.linkFrame L t.freezeEndT := h.te _

theorem downActions (h : s.linkFrame L t) : s.linkFrame L t.d2dDownActions :=
  ((((((h.setInts (by decide)).setInts (by decide)).log _ _ _).egressFlush).withdrawSelf true).freezeEndT)

end State.linkFrame

/-! ## The state that a judgment leaves -/

/-- The two D2D_STAT registers, which report the link on either die. -/
def statReg (x : Nat) : Bool := x == Rg.D2D_STAT 0 || x == Rg.D2D_STAT 1

theorem statReg_stat (d : Nat) : statReg (Rg.D2D_STAT d) = true := by
  by_cases h : d = 0
  · rw [h]; rfl
  · have e : Pg.D2D d = Pg.D2D 1 := if_neg h
    rw [Rg.D2D_STAT, e]; rfl

theorem onlyRegs_d2dRefresh (s : State) : State.onlyRegs statReg s s.d2dRefresh :=
  onlyRegs_foldl _ [0, 1] s s (onlyRegs_refl _ s) fun u d =>
    onlyRegs_trans (onlyRegs_trans (onlyRegs_setF u _ _ _ (statReg_stat d)) (onlyRegs_setF _ _ _ _ (statReg_stat d))) (onlyRegs_setF _ _ _ _ (statReg_stat d))

theorem linkFrame_d2dRefresh (s : State) : s.linkFrame statReg s.d2dRefresh :=
  .ofOnlyRegs (onlyRegs_d2dRefresh s) fun _ _ hl => (Bool.or_eq_false_iff.1 hl).2

/-- The counts that D2D_STAT reports leave its STATE. -/
theorem state_d2dRefresh (s : State) : s.d2dRefresh.f (Rg.D2D_STAT 0) Fd.D2D_STAT_STATE = s.f (Rg.D2D_STAT 0) Fd.D2D_STAT_STATE := by
  have keep : ∀ (u : State) (d v : Nat) (fl : Fld), fl.lo + fl.w ≤ 30 →
      (u.setF (Rg.D2D_STAT d) fl v).f (Rg.D2D_STAT 0) Fd.D2D_STAT_STATE = u.f (Rg.D2D_STAT 0) Fd.D2D_STAT_STATE := fun u d v fl h => by
    by_cases e : Rg.D2D_STAT 0 = Rg.D2D_STAT d
    · rw [← e, f_setF_disjoint _ _ _ _ _ (by decide) (.inl h)]
    · exact f_setF_other _ _ _ _ _ _ e
  have step : ∀ (l : List Nat) (u : State), (l.foldl (fun (t : State) (d : Nat) =>
      ((t.setF (Rg.D2D_STAT d) Fd.D2D_STAT_RX_BUNDLES (t.rxCount d)).setF
        (Rg.D2D_STAT d) Fd.D2D_STAT_TX_BUNDLES (t.rxCount (1 - d))).setF (Rg.D2D_STAT d) Fd.D2D_STAT_RX_SPARES_USED
        ((List.range 16).countP fun n => t.fb (Rg.D2D_BUNDLE_STAT d n) Fd.D2D_BUNDLE_STAT_SPARE_USED)) u).f (Rg.D2D_STAT 0) Fd.D2D_STAT_STATE =
      u.f (Rg.D2D_STAT 0) Fd.D2D_STAT_STATE := fun l => by
    induction l with
    | nil => exact fun _ => rfl
    | cons d l ih =>
      intro u
      rw [List.foldl_cons, ih, keep _ _ _ _ (by decide), keep _ _ _ _ (by decide), keep _ _ _ _ (by decide)]
  exact step [0, 1] s

theorem pg_D2D (d : Nat) : Pg.D2D d = 0xD0000 ∨ Pg.D2D d = 0x10A0000 := by unfold Pg.D2D; split <;> simp

/-- A register of a block's own that no judgment of the link's state touches. -/
def linkFree (x : Nat) : Bool := ownReg x && !(linkReg x || statReg x)

theorem linkFree_iff {x : Nat} : linkFree x = true ↔ ownReg x = true ∧ (linkReg x || statReg x) = false := by simp [linkFree]

theorem linkFree_of {x : Nat} (ho : 0x7C ≤ x % 0x1000) (h0 : x ≠ 0xD0108) (h1 : x ≠ 0x10A0108) (h2 : x ≠ 0x10A018C)
    (hp : x / 0x1000 < 0x1020 ∨ 0x1093 < x / 0x1000) : linkFree x = true := by
  have hs : Rg.D2D_STAT 0 = 0xD0108 ∧ Rg.D2D_STAT 1 = 0x10A0108 ∧ Rg.D2D_DISCARD_CNT 1 = 0x10A018C := by decide
  have hpg : Pg.EMRAM = 0x1082000 ∧ Pg.FCRD = 0x1052000 ∧ Pg.EQS = 0x1020000 := by decide
  rw [linkFree_iff, linkReg, statReg, hs.1, hs.2.1, hs.2.2, hpg.1, hpg.2.1, hpg.2.2]
  simp only [ownReg_iff, Bool.or_eq_false_iff, beq_eq_false_iff_ne]
  omega

/-- The registers of D2D_F and D2D_T but D2D_STAT and the count of discards. -/
theorem d2d_linkFree (d off : Nat) (h : 0x7C ≤ off) (hlt : off < 0x1000) (h1 : off ≠ 0x108) (h2 : off ≠ 0x18C) : linkFree (Pg.D2D d + off) = true := by
  have hd := pg_D2D d
  exact linkFree_of (by omega) (by omega) (by omega) (by omega) (by omega)

/-- The registers of the lane pages of the die-to-die link. -/
theorem d2dl_linkFree (d i off : Nat) (hi : i < 8) (h : 0x7C ≤ off) (hlt : off < 0x1000) : linkFree (Pg.D2DL d i + off) = true := by
  have hd : Pg.D2DL d i = 0xD8000 + 0x1000 * i ∨ Pg.D2DL d i = 0x10A8000 + 0x1000 * i := by unfold Pg.D2DL; split <;> simp
  exact linkFree_of (by omega) (by omega) (by omega) (by omega) (by omega)

theorem bundleStat_free (d n : Nat) (hn : n < 16) : linkFree (Rg.D2D_BUNDLE_STAT d n) = true := by
  have e : Rg.D2D_BUNDLE_STAT d n = Pg.D2D d + (0x140 + 4 * n) := Nat.add_assoc _ _ _
  exact e ▸ d2d_linkFree d _ (by omega) (by omega) (by omega) (by omega)

theorem State.linkFrame.rd_free {s t : State} {x : Nat} (h : s.linkFrame statReg t) (hx : linkFree x = true) : t.rd x = s.rd x :=
  h.2 x (linkFree_iff.1 hx).1 (linkFree_iff.1 hx).2

/-- The state that the bundles call for is theirs alone. -/
theorem d2dWant_congr {s t : State} (h : s.linkFrame statReg t) : t.d2dWant = s.d2dWant := by
  have hup : ∀ d, t.rxCount d = s.rxCount d := fun d => by
    refine List.countP_congr fun n hn => ?_
    rw [State.bundleUp, State.bundleUp, fb_of_rd (h.rd_free (bundleStat_free d n (List.mem_range.1 hn)))]
  have htr : t.d2.trained = s.d2.trained := by rw [h.1]
  have hmin : t.d2.minF = s.d2.minF ∧ t.d2.minT = s.d2.minT := by rw [h.1]; exact ⟨rfl, rfl⟩
  simp only [State.d2dWant, hup, htr, hmin]

theorem d2dWant_lt (s : State) : s.d2dWant < 4 := by
  simp only [State.d2dWant]
  split_ifs <;> decide

/-- The state of the link entered, with the paths that it opens or closes, and flagged. -/
def State.linkEnter (s : State) (n : Nat) : State :=
  ((s.withPaths fun t => (t.setF (Rg.D2D_STAT 0) Fd.D2D_STAT_STATE n).setF (Rg.D2D_STAT 1) Fd.D2D_STAT_STATE n).setInt
    (Pg.D2D 0) Ib.D2D_STATE_CHANGE).setInt (Pg.D2D 1) Ib.D2D_STATE_CHANGE

theorem linkFrame_enter (s : State) (n : Nat) : s.linkFrame statReg (s.linkEnter n) :=
  (((State.linkFrame.refl s).withPaths (((State.linkFrame.refl s).setF rfl).setF rfl)).setInt (by decide)).setInt (by decide)

/-- A change that leaves D2D_STAT leaves the state that it reports. -/
theorem state_of_frame {s t : State} (h : s.linkFrame (fun _ => false) t) :
    t.f (Rg.D2D_STAT 0) Fd.D2D_STAT_STATE = s.f (Rg.D2D_STAT 0) Fd.D2D_STAT_STATE := f_of_rd (h.2 _ (by decide) (by decide)) _

theorem state_enter (s : State) (n : Nat) (hn : n < 4) : (s.linkEnter n).f (Rg.D2D_STAT 0) Fd.D2D_STAT_STATE = n := by
  have hset : ((s.setF (Rg.D2D_STAT 0) Fd.D2D_STAT_STATE n).setF (Rg.D2D_STAT 1) Fd.D2D_STAT_STATE n).f (Rg.D2D_STAT 0) Fd.D2D_STAT_STATE = n := by
    rw [f_setF_other _ _ _ _ _ _ (by decide), f_setF_same _ _ _ _ (by decide)]
    exact Nat.mod_eq_of_lt hn
  have hpaths : ((s.setF (Rg.D2D_STAT 0) Fd.D2D_STAT_STATE n).setF (Rg.D2D_STAT 1) Fd.D2D_STAT_STATE n).linkFrame (fun _ => false) (s.linkEnter n) := by
    refine .setInt (.setInt ?_ (by decide)) (by decide)
    exact .ite (.irqHeld (.refl _) _) (.ite (.pathBack (.refl _)) (.refl _))
  exact (state_of_frame hpaths).trans hset

/-- The frame of a judgment of the link's state, and the state it leaves. -/
theorem d2dEval_shows (s : State) (back : Bool) : s.linkFrame statReg (s.d2dEval back) ∧
    (s.d2dEval back).f (Rg.D2D_STAT 0) Fd.D2D_STAT_STATE =
      if s.f (Rg.D2D_STAT 0) Fd.D2D_STAT_STATE = 0 ∧ back = false then 0 else s.d2dWant := by
  have hr := linkFrame_d2dRefresh s
  have hst := state_d2dRefresh s
  have hw := d2dWant_congr hr
  have hen := hr.trans (linkFrame_enter s.d2dRefresh s.d2dWant)
  have hgo := state_enter s.d2dRefresh s.d2dWant (d2dWant_lt s)
  have he : s.d2dEval back =
      if s.d2dWant = s.f (Rg.D2D_STAT 0) Fd.D2D_STAT_STATE ∨ (s.f (Rg.D2D_STAT 0) Fd.D2D_STAT_STATE = 0 ∧ !back) then s.d2dRefresh
      else if s.d2dWant = 0 then
        ({ s.d2dRefresh.linkEnter s.d2dWant with d2 := { (s.d2dRefresh.linkEnter s.d2dWant).d2 with downTicks := 0 } } : State).d2dDownActions
      else if s.f (Rg.D2D_STAT 0) Fd.D2D_STAT_STATE = 0 then
        (s.d2dRefresh.linkEnter s.d2dWant).withdrawSelf ((s.d2dRefresh.linkEnter s.d2dWant).fb Rg.FCRD_CTRL Fd.FCRD_CTRL_WITHDRAW)
      else s.d2dRefresh.linkEnter s.d2dWant := by
    rw [← hw, ← hst]
    rfl
  rw [he]
  generalize s.d2dRefresh.linkEnter s.d2dWant = v at hen hgo
  have hdown : v.linkFrame (fun _ => false) ({ v with d2 := { v.d2 with downTicks := 0 } } : State).d2dDownActions :=
    ((State.linkFrame.refl v).ticksDown 0).downActions
  have hback : ∀ b, v.linkFrame (fun _ => false) (v.withdrawSelf b) := fun b => (State.linkFrame.refl v).withdrawSelf b
  refine ⟨.ite hr (.ite (hen.ticksDown 0).downActions (.ite (hen.withdrawSelf _) hen)), ?_⟩
  by_cases hstay : s.d2dWant = s.f (Rg.D2D_STAT 0) Fd.D2D_STAT_STATE ∨ (s.f (Rg.D2D_STAT 0) Fd.D2D_STAT_STATE = 0 ∧ !back)
  · rw [if_pos hstay, hst]
    split
    next h => exact h.1
    next h => exact (hstay.resolve_right (by simpa using h)).symm
  · have hgoes : ¬(s.f (Rg.D2D_STAT 0) Fd.D2D_STAT_STATE = 0 ∧ back = false) := fun h => hstay (.inr (by simpa using h))
    rw [if_neg hstay, if_neg hgoes]
    split
    · exact (state_of_frame hdown).trans hgo
    · split
      · exact (state_of_frame (hback _)).trans hgo
      · exact hgo

end Sys2Proof.Machine
end

section
/-! SUPPORT. The bundles and lanes of the die-to-die link (R32, R34), and its training. -/
namespace Sys2Proof.Machine

/-! ## Bundles -/

theorem setBundle_rd (s : State) (d n : Nat) (b : Bundle) (x : Nat) : (s.setBundle d n b).rd x = s.rd x := by
  unfold State.setBundle; split <;> rfl

theorem setBundle_pageOn (s : State) (d n : Nat) (b : Bundle) (x : Nat) : (s.setBundle d n b).pageOn x = s.pageOn x := by
  unfold State.setBundle; split <;> rfl

theorem setBundle_rx (s : State) (d n e : Nat) (b : Bundle) (hd : d < 2) (he : e < 2) :
    (s.setBundle d n b).rx e = if e = d then (s.rx d).set n b else s.rx e := by
  obtain rfl | rfl : d = 0 ∨ d = 1 := by omega
  all_goals obtain rfl | rfl : e = 0 ∨ e = 1 := by omega
  all_goals rfl

theorem bundle_setBundle (s : State) (d n : Nat) (b : Bundle) (hd : d < 2) (hn : n < (s.rx d).length) : (s.setBundle d n b).bundle d n = b := by
  rw [State.bundle, setBundle_rx s d n d b hd hd, if_pos rfl, lget, List.getD_eq_getElem?_getD, List.getElem?_set_self hn]
  rfl

theorem bundle_congr {s t : State} (h : t.d2 = s.d2) (d n : Nat) : t.bundle d n = s.bundle d n := by rw [State.bundle, State.bundle, State.rx, State.rx, h]

theorem rx_congr {s t : State} (h : t.d2 = s.d2) (d : Nat) : t.rx d = s.rx d := by rw [State.rx, State.rx, h]

theorem setBundle_up (s : State) (d n e m : Nat) (b : Bundle) : (s.setBundle d n b).bundleUp e m = s.bundleUp e m := by
  rw [State.bundleUp, State.bundleUp, fb_of_rd (setBundle_rd s d n b _)]

/-- A bundle lost: out of service, with nothing touched but its own state, events and what a judgment of the link touches. -/
theorem bundleLoss_shows (s : State) (d n : Nat) (hn : n < 16) : (s.bundleLoss d n).bundleUp d n = false ∧
    ∀ x, linkFree x = true → x ≠ Rg.D2D_BUNDLE_STAT d n → (s.bundleLoss d n).rd x = s.rd x := by
  unfold State.bundleLoss
  cases hup : s.bundleUp d n with
  | false => exact ⟨by simpa using hup, fun _ _ _ => rfl⟩
  | true =>
    simp only [Bool.not_true, Bool.false_eq_true, if_false]
    have hg : Pg.D2D d % 0x1000 = 0 := by have := pg_D2D d; omega
    have hset : ∀ x, (linkFree x = true) → (((s.setF (Rg.D2D_BUNDLE_STAT d n) Fd.D2D_BUNDLE_STAT_UP 0).setBundle d n
        { s.bundle d n with repair := none, repairOk := false }).setInt (Pg.D2D d) Ib.D2D_BUNDLE_LOST).rd x =
        (s.setF (Rg.D2D_BUNDLE_STAT d n) Fd.D2D_BUNDLE_STAT_UP 0).rd x := fun x hx => by
      rw [rd_setInt_own (linkFree_iff.1 hx).1 hg, setBundle_rd]
    generalize ((s.setF (Rg.D2D_BUNDLE_STAT d n) Fd.D2D_BUNDLE_STAT_UP 0).setBundle d n
        { s.bundle d n with repair := none, repairOk := false }).setInt (Pg.D2D d) Ib.D2D_BUNDLE_LOST = u at hset
    have hfr := (d2dEval_shows u false).1
    refine ⟨?_, fun x hx hne => ?_⟩
    · have hx := bundleStat_free d n hn
      rw [State.bundleUp, fb_of_rd ((hfr.rd_free hx).trans (hset _ hx))]
      exact fb_setF_zero _ _ _ (by decide) rfl
    · exact ((hfr.rd_free hx).trans (hset x hx)).trans (rd_setF_other _ _ _ _ _ hne)

/-! ## Flits (R32) -/

theorem flit_of_good (s : State) (d n : Nat) (hup : s.bundleUp d n = true) (ht : s.d2.training = false) :
    s.flit d n (s.bundle d n).seq true true = s.setBundle d n { s.bundle d n with seq := (s.bundle d n).seq + 1, replays := 0 } := by
  simp [State.flit, hup, ht]

/-- A flit with a CRC error, counted in the page of the link and in that of the lanes. -/
def State.crcError (s : State) (d n : Nat) : State := (s.bump (Rg.D2D_CRC_ERR_CNT d)).bump (Rg.D2DL_CRC_CNT d (n / 2) (n % 2))

theorem flit_of_bad (s : State) (d n q : Nat) (hup : s.bundleUp d n = true) (ht : s.d2.training = false) :
    s.flit d n q false true = if 8 ≤ (s.bundle d n).replays then (s.crcError d n).bundleLoss d n
      else (((s.crcError d n).bump (Rg.D2D_REPLAY_CNT d)).bump (Rg.D2DL_REPLAY_CNT d (n / 2) (n % 2))).setBundle d n
        { s.bundle d n with replays := (s.bundle d n).replays + 1 } := by
  simp [State.flit, State.crcError, hup, ht]

theorem pg_D2DL (d i : Nat) : Pg.D2DL d i = 0xD8000 + 0x1000 * i ∨ Pg.D2DL d i = 0x10A8000 + 0x1000 * i := by unfold Pg.D2DL; split <;> simp

/-- Two counters of the link counted, one in each of its pages. -/
theorem bump_bump_shows (s : State) (d n o p : Nat) (hn : n < 16) (ho : 0x100 ≤ o ∧ o < 0x800 ∧ o ≠ 0x108 ∧ o ≠ 0x18C) (hp : 0x100 ≤ p ∧ p < 0x800)
    (h1 : s.pageOn (Pg.D2D d / 0x1000) = true) :
    ((s.bump (Pg.D2D d + o)).bump (Pg.D2DL d (n / 2) + p)).rd (Pg.D2D d + o) = (s.rd (Pg.D2D d + o) + 1) % 2 ^ 32 ∧
    ((s.bump (Pg.D2D d + o)).bump (Pg.D2DL d (n / 2) + p)).d2 = s.d2 ∧
    (∀ x, linkFree x = true → x ≠ Pg.D2D d + o → x ≠ Pg.D2DL d (n / 2) + p →
      ((s.bump (Pg.D2D d + o)).bump (Pg.D2DL d (n / 2) + p)).rd x = s.rd x) ∧
    ∀ q, ((s.bump (Pg.D2D d + o)).bump (Pg.D2DL d (n / 2) + p)).pageOn q = s.pageOn q := by
  have hd := pg_D2D d
  have hl := pg_D2DL d (n / 2)
  have hne : Pg.D2D d + o ≠ Pg.D2DL d (n / 2) + p := by omega
  have hfree := d2d_linkFree d o (by omega) (by omega) (by omega) (by omega)
  have hlt : (Pg.D2D d + o) % 0x1000 < 0x800 := by omega
  have hlt' : (Pg.D2DL d (n / 2) + p) % 0x1000 < 0x800 := by omega
  refine ⟨?_, ?_, fun x hx h1 h2 => ?_, fun q => ?_⟩
  · rw [rd_bump_own (linkFree_iff.1 hfree).1 hlt' hne]
    exact bump_rd_own _ _ _ (linkFree_iff.1 hfree).1 (by omega) hlt (by rwa [show (Pg.D2D d + o) / 0x1000 = Pg.D2D d / 0x1000 by omega])
  · rw [(onlyRegs_bump _ _ _ hlt').1, (onlyRegs_bump _ _ _ hlt).1]
  · rw [rd_bump_own (linkFree_iff.1 hx).1 hlt' h2, rd_bump_own (linkFree_iff.1 hx).1 hlt h1]
  · rw [pageOn_bump _ _ _ _ hlt' (by omega) (by omega), pageOn_bump _ _ _ _ hlt (by omega) (by omega)]

theorem flit_bad_shows (s : State) (d n q : Nat) (hd : d < 2) (hn : n < 16) (hup : s.bundleUp d n = true) (ht : s.d2.training = false)
    (hlen : (s.rx d).length = 16) (hp : s.pageOn (Pg.D2D d / 0x1000) = true) :
    (s.flit d n q false true).rd (Rg.D2D_CRC_ERR_CNT d) = (s.rd (Rg.D2D_CRC_ERR_CNT d) + 1) % 2 ^ 32 ∧
      ((s.bundle d n).replays < 8 → (s.flit d n q false true).rd (Rg.D2D_REPLAY_CNT d) = (s.rd (Rg.D2D_REPLAY_CNT d) + 1) % 2 ^ 32 ∧
        (s.flit d n q false true).bundle d n = { s.bundle d n with replays := (s.bundle d n).replays + 1 } ∧
        (s.flit d n q false true).bundleUp d n = true) ∧
      (8 ≤ (s.bundle d n).replays → (s.flit d n q false true).bundleUp d n = false) := by
  have e1 : Rg.D2DL_CRC_CNT d (n / 2) (n % 2) = Pg.D2DL d (n / 2) + (0x500 + 4 * (n % 2)) := Nat.add_assoc _ _ _
  have e2 : Rg.D2DL_REPLAY_CNT d (n / 2) (n % 2) = Pg.D2DL d (n / 2) + (0x508 + 4 * (n % 2)) := Nat.add_assoc _ _ _
  have e3 : Rg.D2D_BUNDLE_STAT d n = Pg.D2D d + (0x140 + 4 * n) := Nat.add_assoc _ _ _
  have hpd := pg_D2D d
  have hpl := pg_D2DL d (n / 2)
  obtain ⟨hcrc, hd2, hrd, hon⟩ := bump_bump_shows s d n 0x180 (0x500 + 4 * (n % 2)) hn (by omega) (by omega) hp
  rw [← e1] at hcrc hd2 hrd hon
  have hcrcFree := d2d_linkFree d 0x180 (by decide) (by decide) (by decide) (by decide)
  have hstat := bundleStat_free d n hn
  rw [flit_of_bad s d n q hup ht]
  change (s.crcError d n).rd _ = _ at hcrc
  change (s.crcError d n).d2 = _ at hd2
  change ∀ x, _ → _ → _ → (s.crcError d n).rd x = _ at hrd
  change ∀ x, (s.crcError d n).pageOn x = _ at hon
  generalize s.crcError d n = u at *
  by_cases h8 : 8 ≤ (s.bundle d n).replays
  · rw [if_pos h8]
    obtain ⟨hdown, hkeep⟩ := bundleLoss_shows u d n hn
    exact ⟨(hkeep _ hcrcFree (by omega)).trans hcrc, fun h => absurd h8 (by omega), fun _ => hdown⟩
  · rw [if_neg h8]
    obtain ⟨hrep, hd2', hrd', -⟩ := bump_bump_shows u d n 0x184 (0x508 + 4 * (n % 2)) hn (by omega) (by omega) (by rw [hon, hp])
    rw [← e2] at hrep hd2' hrd'
    refine ⟨?_, fun _ => ⟨?_, ?_, ?_⟩, fun h => absurd h h8⟩
    · rw [setBundle_rd]
      exact (hrd' _ hcrcFree (by omega) (by omega)).trans hcrc
    · rw [setBundle_rd]
      exact hrep.trans (by rw [hrd _ (d2d_linkFree d 0x184 (by decide) (by decide) (by decide) (by decide)) (by omega) (by omega)])
    · exact bundle_setBundle _ d n _ hd (by rw [rx_congr (hd2'.trans hd2), hlen]; exact hn)
    · rw [setBundle_up, State.bundleUp, fb_of_rd (hrd' _ hstat (by omega) (by omega)), fb_of_rd (hrd _ hstat (by omega) (by omega))]
      exact hup

/-! ## Lanes (R34) -/

/-- The errors of the first `m` lanes of a bundle reported. -/
def State.lanesReported (s : State) (d n : Nat) (counts : List Nat) (m : Nat) : State :=
  (List.range m).foldl (fun t l =>
    (t.setF (Rg.D2DL_LANE_ERR d (n / 2) (33 * (n % 2) + l)) Fd.D2DL_LANE_ERR_ERR (min 0xFFFF (lget 0 counts l))).bump
      (Rg.D2DL_LANE_TOT d (n / 2) (33 * (n % 2) + l)) (lget 0 counts l)) s

theorem laneErr_free (d n l : Nat) (hn : n < 16) (hl : l < 33) : linkFree (Rg.D2DL_LANE_ERR d (n / 2) (33 * (n % 2) + l)) = true := by
  have e : Rg.D2DL_LANE_ERR d (n / 2) (33 * (n % 2) + l) = Pg.D2DL d (n / 2) + (0x100 + 4 * (33 * (n % 2) + l)) := Nat.add_assoc _ _ _
  exact e ▸ d2dl_linkFree d _ _ (by omega) (by omega) (by omega)

theorem lanesReported_shows (s : State) (d n : Nat) (counts : List Nat) (hn : n < 16) (m : Nat) (hm : m ≤ 33) :
    (∀ l, l < m → (s.lanesReported d n counts m).f (Rg.D2DL_LANE_ERR d (n / 2) (33 * (n % 2) + l)) Fd.D2DL_LANE_ERR_ERR = min 0xFFFF (lget 0 counts l)) ∧
    (s.lanesReported d n counts m).d2 = s.d2 ∧
    ∀ x, linkFree x = true → x / 0x1000 ≠ Pg.D2DL d (n / 2) / 0x1000 → (s.lanesReported d n counts m).rd x = s.rd x := by
  induction m with
  | zero => exact ⟨fun l h => absurd h (Nat.not_lt_zero l), rfl, fun _ _ _ => rfl⟩
  | succ m ih =>
    obtain ⟨hrep, hd2, hrd⟩ := ih (by omega)
    have herr : ∀ l, Rg.D2DL_LANE_ERR d (n / 2) (33 * (n % 2) + l) = Pg.D2DL d (n / 2) + (0x100 + 4 * (33 * (n % 2) + l)) := fun l => Nat.add_assoc _ _ _
    have htot : Rg.D2DL_LANE_TOT d (n / 2) (33 * (n % 2) + m) = Pg.D2DL d (n / 2) + (0x300 + 4 * (33 * (n % 2) + m)) := Nat.add_assoc _ _ _
    have hpl := pg_D2DL d (n / 2)
    have hstep : s.lanesReported d n counts (m + 1) = ((s.lanesReported d n counts m).setF (Rg.D2DL_LANE_ERR d (n / 2) (33 * (n % 2) + m))
        Fd.D2DL_LANE_ERR_ERR (min 0xFFFF (lget 0 counts m))).bump (Rg.D2DL_LANE_TOT d (n / 2) (33 * (n % 2) + m)) (lget 0 counts m) := by
      simp only [State.lanesReported, List.range_succ, List.foldl_append, List.foldl_cons, List.foldl_nil]
    rw [hstep]
    generalize s.lanesReported d n counts m = u at *
    rw [htot]
    have hlt : (Pg.D2DL d (n / 2) + (0x300 + 4 * (33 * (n % 2) + m))) % 0x1000 < 0x800 := by omega
    refine ⟨fun l hl => ?_, ?_, fun x hx hne => ?_⟩
    · have hfree := (linkFree_iff.1 (laneErr_free d n l hn (by omega))).1
      rw [f_of_rd (rd_bump_own hfree hlt (by have := herr l; omega))]
      by_cases h : l = m
      · rw [h, f_setF_same _ _ _ _ (by decide)]
        exact Nat.mod_eq_of_lt (Nat.lt_succ_of_le (Nat.min_le_left 0xFFFF _))
      · rw [f_setF_other _ _ _ _ _ _ (by have := herr l; have := herr m; omega)]
        exact hrep l (by omega)
    · rw [(onlyRegs_bump _ _ _ hlt).1]
      exact hd2
    · rw [rd_bump_own (linkFree_iff.1 hx).1 hlt (by omega), rd_setF_other _ _ _ _ _ (by have := herr m; omega)]
      exact hrd x hx hne

theorem failLane_keeps (s : State) (d n l : Nat) (hn : n < 16) (x : Nat) (hx : linkFree x = true) (hne : x ≠ Rg.D2D_BUNDLE_STAT d n) :
    (s.failLane d n l).rd x = s.rd x := by
  unfold State.failLane
  split
  · rfl
  · simp only []
    split
    · exact (bundleLoss_shows s d n hn).2 x hx hne
    · exact setBundle_rd _ _ _ _ _

theorem failLanes_keep (d n : Nat) (hn : n < 16) (x : Nat) (hx : linkFree x = true) (hne : x ≠ Rg.D2D_BUNDLE_STAT d n) (ls : List Nat) (s : State) :
    (ls.foldl (fun t l => t.failLane d n l) s).rd x = s.rd x := by
  induction ls generalizing s with
  | nil => rfl
  | cons l ls ih => exact (ih _).trans (failLane_keeps s d n l hn x hx hne)

/-- The state after the errors of a superframe are reported, before a lane is judged. -/
def State.parityReported (s : State) (d n : Nat) (counts : List Nat) : State :=
  (s.lanesReported d n counts 33).setF (Rg.D2D_BUNDLE_STAT d n) Fd.D2D_BUNDLE_STAT_LANE_ERR_MAX
    (min 0xFFFF ((List.range 33).foldl (fun m l => max m (lget 0 counts l)) 0))

/-- The lanes of a bundle that fail at the end of a superframe. -/
def State.failing (s : State) (d n : Nat) (counts : List Nat) : List Nat :=
  (List.range 33).filter fun l => decide (s.f (Rg.D2D_LANE_THR d) Fd.D2D_LANE_THR_LANE_ERR_THR ≤ lget 0 counts l) &&
    (if l = 32 then s.fb (Rg.D2D_BUNDLE_STAT d n) Fd.D2D_BUNDLE_STAT_SPARE_USED
      else !(s.fb (Rg.D2D_BUNDLE_STAT d n) Fd.D2D_BUNDLE_STAT_SPARE_USED && l == s.f (Rg.D2D_BUNDLE_STAT d n) Fd.D2D_BUNDLE_STAT_REPAIRED_LANE))

theorem laneParity_eq (s : State) (d n : Nat) (counts : List Nat) : s.laneParity d n counts =
    if (s.parityReported d n counts).fb (Rg.D2D_CTRL d) Fd.D2D_CTRL_AUTO_REPAIR = true then
      ((s.parityReported d n counts).failing d n counts).foldl (fun t l => t.failLane d n l) (s.parityReported d n counts)
    else s.parityReported d n counts := by
  unfold State.laneParity State.parityReported State.lanesReported State.failing
  simp only []
  cases State.fb _ (Rg.D2D_CTRL d) Fd.D2D_CTRL_AUTO_REPAIR <;> rfl

theorem parityReported_shows (s : State) (d n : Nat) (counts : List Nat) (hn : n < 16) :
    (∀ l, l < 33 → (s.parityReported d n counts).f (Rg.D2DL_LANE_ERR d (n / 2) (33 * (n % 2) + l)) Fd.D2DL_LANE_ERR_ERR = min 0xFFFF (lget 0 counts l)) ∧
    (s.parityReported d n counts).d2 = s.d2 ∧
    (∀ fl : Fld, 16 ≤ fl.lo → fl.lo + fl.w ≤ 32 → (s.parityReported d n counts).f (Rg.D2D_BUNDLE_STAT d n) fl = s.f (Rg.D2D_BUNDLE_STAT d n) fl) ∧
    ∀ x, linkFree x = true → x / 0x1000 ≠ Pg.D2DL d (n / 2) / 0x1000 → x ≠ Rg.D2D_BUNDLE_STAT d n → (s.parityReported d n counts).rd x = s.rd x := by
  obtain ⟨hrep, hd2, hrd⟩ := lanesReported_shows s d n counts hn 33 (Nat.le_refl _)
  have e : Rg.D2D_BUNDLE_STAT d n = Pg.D2D d + (0x140 + 4 * n) := Nat.add_assoc _ _ _
  have hpd := pg_D2D d
  have hpl := pg_D2DL d (n / 2)
  have hstat := bundleStat_free d n hn
  unfold State.parityReported
  generalize s.lanesReported d n counts 33 = u at *
  refine ⟨fun l hl => ?_, hd2, fun fl hlo hhi => ?_, fun x hx hp hne => ?_⟩
  · have herr : Rg.D2DL_LANE_ERR d (n / 2) (33 * (n % 2) + l) = Pg.D2DL d (n / 2) + (0x100 + 4 * (33 * (n % 2) + l)) := Nat.add_assoc _ _ _
    rw [f_setF_other _ _ _ _ _ _ (by omega)]
    exact hrep l hl
  · rw [f_setF_disjoint _ _ Fd.D2D_BUNDLE_STAT_LANE_ERR_MAX _ _ hhi (.inl hlo)]
    exact f_of_rd (hrd _ hstat (by omega)) fl
  · rw [rd_setF_other _ _ _ _ _ hne]
    exact hrd x hx hp

/-- With one lane at or over the threshold and a free spare, that lane alone fails. -/
theorem failing_of_one (s : State) (d n k : Nat) (counts : List Nat) (hsp : s.fb (Rg.D2D_BUNDLE_STAT d n) Fd.D2D_BUNDLE_STAT_SPARE_USED = false)
    (hk : k < 32) (hone : ∀ l, l < 32 → (s.f (Rg.D2D_LANE_THR d) Fd.D2D_LANE_THR_LANE_ERR_THR ≤ lget 0 counts l ↔ l = k)) :
    s.failing d n counts = [k] := by
  have hfil : s.failing d n counts = (List.range 33).filter (· == k) := by
    refine List.filter_congr fun l hl => ?_
    have hl33 := List.mem_range.1 hl
    by_cases h32 : l = 32
    · have hne : (l == k) = false := beq_false_of_ne (by omega)
      rw [hne, if_pos h32, hsp, Bool.and_false]
    · rw [if_neg h32, hsp, Bool.false_and, Bool.not_false, Bool.and_true, Bool.eq_iff_iff, decide_eq_true_eq, beq_iff_eq]
      exact hone l (by omega)
  rw [hfil, List.filter_beq, List.count_eq_one_of_mem List.nodup_range (List.mem_range.2 (by omega))]
  rfl

theorem laneParity_shows (s : State) (d n : Nat) (counts : List Nat) (hd : d < 2) (hn : n < 16) (hup : s.bundleUp d n = true) (hlen : (s.rx d).length = 16) :
    (∀ l, l < 33 → (s.laneParity d n counts).f (Rg.D2DL_LANE_ERR d (n / 2) (33 * (n % 2) + l)) Fd.D2DL_LANE_ERR_ERR = min 0xFFFF (lget 0 counts l)) ∧
    (s.fb (Rg.D2D_CTRL d) Fd.D2D_CTRL_AUTO_REPAIR = false →
      (s.laneParity d n counts).bundleUp d n = true ∧ (s.laneParity d n counts).bundle d n = s.bundle d n) ∧
    ∀ k, k < 33 → s.fb (Rg.D2D_CTRL d) Fd.D2D_CTRL_AUTO_REPAIR = true →
      s.fb (Rg.D2D_BUNDLE_STAT d n) Fd.D2D_BUNDLE_STAT_SPARE_USED = false → (s.bundle d n).repair = none →
      (∀ l, l < 32 → (s.f (Rg.D2D_LANE_THR d) Fd.D2D_LANE_THR_LANE_ERR_THR ≤ lget 0 counts l ↔ l = k)) → k < 32 →
      (s.laneParity d n counts).bundleUp d n = true ∧ ((s.laneParity d n counts).bundle d n).repair = some k := by
  obtain ⟨hrep, hd2, hfl, hrd⟩ := parityReported_shows s d n counts hn
  have e : Rg.D2D_BUNDLE_STAT d n = Pg.D2D d + (0x140 + 4 * n) := Nat.add_assoc _ _ _
  have hpd := pg_D2D d
  have hpl := pg_D2DL d (n / 2)
  have hctrl : (s.parityReported d n counts).fb (Rg.D2D_CTRL d) Fd.D2D_CTRL_AUTO_REPAIR = s.fb (Rg.D2D_CTRL d) Fd.D2D_CTRL_AUTO_REPAIR :=
    fb_of_rd (hrd _ (d2d_linkFree d 0x100 (by decide) (by decide) (by decide) (by decide)) (by omega) (by omega)) _
  have hthr : (s.parityReported d n counts).f (Rg.D2D_LANE_THR d) Fd.D2D_LANE_THR_LANE_ERR_THR = s.f (Rg.D2D_LANE_THR d) Fd.D2D_LANE_THR_LANE_ERR_THR :=
    f_of_rd (hrd _ (d2d_linkFree d 0x104 (by decide) (by decide) (by decide) (by decide)) (by omega) (by omega)) _
  have hup2 : (s.parityReported d n counts).bundleUp d n = true := (congrArg (· == 1) (hfl Fd.D2D_BUNDLE_STAT_UP (by decide) (by decide))).trans hup
  have hsp2 : (s.parityReported d n counts).fb (Rg.D2D_BUNDLE_STAT d n) Fd.D2D_BUNDLE_STAT_SPARE_USED =
      s.fb (Rg.D2D_BUNDLE_STAT d n) Fd.D2D_BUNDLE_STAT_SPARE_USED := congrArg (· == 1) (hfl Fd.D2D_BUNDLE_STAT_SPARE_USED (by decide) (by decide))
  rw [laneParity_eq]
  generalize s.parityReported d n counts = u at *
  refine ⟨fun l hl => ?_, fun hoff => ?_, fun k _ hon hsp hno hone hk => ?_⟩
  · have herr : Rg.D2DL_LANE_ERR d (n / 2) (33 * (n % 2) + l) = Pg.D2DL d (n / 2) + (0x100 + 4 * (33 * (n % 2) + l)) := Nat.add_assoc _ _ _
    split
    · rw [f_of_rd (failLanes_keep d n hn _ (laneErr_free d n l hn hl) (by omega) _ u)]
      exact hrep l hl
    · exact hrep l hl
  · rw [if_neg (by rw [hctrl, hoff]; decide)]
    exact ⟨hup2, bundle_congr hd2 d n⟩
  · rw [if_pos (hctrl.trans hon), failing_of_one u d n k counts (hsp2.trans hsp) hk (by rwa [hthr]), List.foldl_cons, List.foldl_nil]
    have hno2 : (u.bundle d n).repair = none := (congrArg Bundle.repair (bundle_congr hd2 d n)).trans hno
    have hfail : u.failLane d n k = u.setBundle d n { u.bundle d n with repair := some k } := by
      simp [State.failLane, hup2, hsp2, hsp, hno2]
    rw [hfail, setBundle_up, bundle_setBundle u d n _ hd (by rw [rx_congr hd2, hlen]; exact hn)]
    exact ⟨hup2, rfl⟩

/-- The bundle's status after the switch to its spare. -/
def State.spareUsed (s : State) (d n l : Nat) : State :=
  (s.setF (Rg.D2D_BUNDLE_STAT d n) Fd.D2D_BUNDLE_STAT_SPARE_USED 1).setF (Rg.D2D_BUNDLE_STAT d n) Fd.D2D_BUNDLE_STAT_REPAIRED_LANE l

theorem repairDone_of (s : State) (d n l : Nat) (hrep : (s.bundle d n).repair = some l) : s.repairDone d n =
    (((s.spareUsed d n l).setBundle d n { s.bundle d n with repair := none }).d2dRefresh.bump (Rg.D2D_REPAIR_CNT d)).setInt (Pg.D2D d) Ib.D2D_LANE_REPAIRED := by
  simp only [State.repairDone, hrep, State.spareUsed]

theorem repairDone_shows (s : State) (d n l : Nat) (hd : d < 2) (hn : n < 16) (hl : l < 32) (hrep : (s.bundle d n).repair = some l)
    (hlen : (s.rx d).length = 16) (hp : s.pageOn (Pg.D2D d / 0x1000) = true) :
    (s.repairDone d n).fb (Rg.D2D_BUNDLE_STAT d n) Fd.D2D_BUNDLE_STAT_SPARE_USED = true ∧
      (s.repairDone d n).f (Rg.D2D_BUNDLE_STAT d n) Fd.D2D_BUNDLE_STAT_REPAIRED_LANE = l ∧ ((s.repairDone d n).bundle d n).repair = none ∧
      (s.repairDone d n).rd (Rg.D2D_REPAIR_CNT d) = (s.rd (Rg.D2D_REPAIR_CNT d) + 1) % 2 ^ 32 ∧
      bit ((s.repairDone d n).rd (Pg.D2D d + 0x010)) Ib.D2D_LANE_REPAIRED = true := by
  have e : Rg.D2D_BUNDLE_STAT d n = Pg.D2D d + (0x140 + 4 * n) := Nat.add_assoc _ _ _
  have hpd := pg_D2D d
  have hstat := bundleStat_free d n hn
  have hcnt := d2d_linkFree d 0x188 (by decide) (by decide) (by decide) (by decide)
  have ec : Rg.D2D_REPAIR_CNT d = Pg.D2D d + 0x188 := rfl
  have hlt : Rg.D2D_REPAIR_CNT d % 0x1000 < 0x800 := by omega
  have hg : Pg.D2D d % 0x1000 = 0 := by omega
  have he := repairDone_of s d n l hrep
  have hkeep : ∀ x, x ≠ Rg.D2D_BUNDLE_STAT d n → (s.spareUsed d n l).rd x = s.rd x := fun x hx => by
    rw [State.spareUsed, rd_setF_other _ _ _ _ _ hx, rd_setF_other _ _ _ _ _ hx]
  have hon : ∀ q, (s.spareUsed d n l).pageOn q = s.pageOn q := fun q => by
    rw [State.spareUsed, pageOn_setF_of _ _ _ _ _ (by omega) (by omega), pageOn_setF_of _ _ _ _ _ (by omega) (by omega)]
  have hused : (s.spareUsed d n l).fb (Rg.D2D_BUNDLE_STAT d n) Fd.D2D_BUNDLE_STAT_SPARE_USED = true := by
    rw [State.spareUsed, fb_setF_disjoint _ _ _ _ _ (by decide) (by decide)]
    exact fb_setF_one _ _ _ (by decide) rfl
  have hlane : (s.spareUsed d n l).f (Rg.D2D_BUNDLE_STAT d n) Fd.D2D_BUNDLE_STAT_REPAIRED_LANE = l :=
    (f_setF_same _ _ _ _ (by decide)).trans (Nat.mod_eq_of_lt hl)
  have hd2 : (s.spareUsed d n l).d2 = s.d2 := (State.setF_d2 _ _ _ _).trans (State.setF_d2 _ _ _ _)
  rw [he]
  generalize s.spareUsed d n l = u at *
  have hfr := onlyRegs_d2dRefresh (u.setBundle d n { s.bundle d n with repair := none })
  have hb : (u.setBundle d n { s.bundle d n with repair := none }).d2dRefresh.bundle d n = { s.bundle d n with repair := none } := by
    rw [bundle_congr (onlyRegs_proj hfr State.d2)]
    exact bundle_setBundle u d n _ hd (by rw [rx_congr hd2, hlen]; exact hn)
  have hrd : ∀ x, linkFree x = true → (u.setBundle d n { s.bundle d n with repair := none }).d2dRefresh.rd x = u.rd x := fun x hx =>
    (hfr.2 x (Bool.or_eq_false_iff.1 (linkFree_iff.1 hx).2).2).trans (setBundle_rd _ _ _ _ _)
  have hpg : ∀ q, (u.setBundle d n { s.bundle d n with repair := none }).d2dRefresh.pageOn q = s.pageOn q := fun q => by
    rw [pageOn_of_onlyRegs hfr (by decide), setBundle_pageOn, hon]
  generalize (u.setBundle d n { s.bundle d n with repair := none }).d2dRefresh = v at *
  have hev : ∀ x, ownReg x = true → x ≠ Rg.D2D_REPAIR_CNT d → ((v.bump (Rg.D2D_REPAIR_CNT d)).setInt (Pg.D2D d) Ib.D2D_LANE_REPAIRED).rd x = v.rd x :=
    fun x hx hne => by rw [rd_setInt_own hx hg, rd_bump_own hx hlt hne]
  have hst : ((v.bump (Rg.D2D_REPAIR_CNT d)).setInt (Pg.D2D d) Ib.D2D_LANE_REPAIRED).rd (Rg.D2D_BUNDLE_STAT d n) = u.rd (Rg.D2D_BUNDLE_STAT d n) :=
    (hev _ (linkFree_iff.1 hstat).1 (by omega)).trans (hrd _ hstat)
  refine ⟨(fb_of_rd hst _).trans hused, (f_of_rd hst _).trans hlane, ?_, ?_, setInt_bit _ _ _ hg (by decide) ?_⟩
  · rw [bundle_congr ((onlyRegs_proj (onlyRegs_setInt _ _ _) State.d2).trans (onlyRegs_proj (onlyRegs_bump _ _ _ hlt) State.d2)), hb]
  · rw [rd_setInt_own (linkFree_iff.1 hcnt).1 hg, ec, bump_rd_own v _ 1 (linkFree_iff.1 hcnt).1 (by omega) (by omega)
      (by rw [hpg, ← hp]; congr 1; omega), hrd _ hcnt, hkeep _ (by omega)]
  · rw [pageOn_bump _ _ _ _ hlt (by omega) (by omega), hpg, hp]

/-- Settles O10: flits by `flit_bad_shows`, the end of a superframe by `laneParity_shows`, a repair by `repairDone_shows`. -/
theorem dieToDieFlitsAndLanes : Obligations.DieToDieFlitsAndLanes := by
  intro s d n hd hn hup ht hlen hp _
  have ed : d % 2 = d := Nat.mod_eq_of_lt hd
  have en : n % 16 = n := Nat.mod_eq_of_lt hn
  have hflit : ∀ q c a, exec (.flitReceive d n q c a) s = .next (s.flit d n q c a) := fun q c a => by
    show execFlitReceive d n q c a s = _
    rw [execFlitReceive, ed, en]
  have hpar : ∀ counts, exec (.laneParityCheck d n counts) s = .next (s.laneParity d n counts) := fun counts => by
    show execLaneParityCheck d n counts s = _
    rw [execLaneParityCheck, ed, en]
  have hrep : exec (.laneRepairComplete d n) s = .next (s.repairDone d n) := by
    show execLaneRepairComplete d n s = _
    rw [execLaneRepairComplete, ed, en]
  refine ⟨(hflit _ _ _).trans (congrArg Host.Outcome.next (flit_of_good s d n hup ht)), fun q => ⟨_, hflit q _ _, ?_⟩, fun counts => ⟨_, hpar counts, ?_⟩,
    fun l hl hr => ⟨_, hrep, ?_⟩⟩
  · exact flit_bad_shows s d n q hd hn hup ht hlen hp
  · exact laneParity_shows s d n counts hd hn hup hlen
  · exact repairDone_shows s d n l hd hn hl hr hlen hp

end Sys2Proof.Machine
end

section
/-! SUPPORT. The training of the die-to-die link, and the accesses and paths that it carries (R34 to R36). -/
namespace Sys2Proof.Machine

/-! ## Writes of registers without staged fields -/

theorem fieldWrite_of_live {addr : Nat} {r : RegDef} (hr : findReg addr = some r) (hst : r.staged = false) (s : State) (v : Nat) :
    s.fieldWrite addr v = (s.wr addr (r.writeLive (s.rd addr) v)).setIntIf (r.reserved v) (addr / 0x1000 * 0x1000) 29 := by
  unfold State.fieldWrite
  dsimp only
  rw [if_neg (by simpa using findReg_off hr), hr]
  simp [hst]

theorem findReg_of_any {addr : Nat} {p : RegDef → Bool} (h : (findReg addr).any p = true) : ∃ r, findReg addr = some r ∧ p r = true := by
  cases hf : findReg addr with
  | none => rw [hf] at h; cases h
  | some r => rw [hf] at h; exact ⟨r, rfl, h⟩

theorem onlyRegs_fieldWrite {addr : Nat} (h : (findReg addr).any (fun r => !r.staged) = true) (s : State) (v : Nat) :
    State.onlyRegs (fun x => x == addr || intReg (addr / 0x1000 * 0x1000) x) s (s.fieldWrite addr v) := by
  obtain ⟨r, hr, hst⟩ := findReg_of_any h
  rw [Bool.not_eq_true'] at hst
  rw [fieldWrite_of_live hr hst]
  exact onlyRegs_trans (onlyRegs_wr s addr _ (by simp))
    (onlyRegs_mono (onlyRegs_setIntIf _ _ _ _) fun x hx => (Bool.or_eq_false_iff.1 hx).2)

/-! ## The service controllers leave the link alone -/

namespace State.linkFrame
variable {s t : State}

theorem setTop (h : s.linkFrame (fun _ => true) t) {a v : Nat} {fl : Fld} : s.linkFrame (fun _ => true) (t.setF a fl v) := h.setF (Bool.or_true _)

theorem sv (h : s.linkFrame (fun _ => true) t) (x : SvcSt) : s.linkFrame (fun _ => true) { t with sv := x } := h.trans (.ofRegs rfl rfl rfl)

theorem setSc (h : s.linkFrame (fun _ => true) t) (k : Nat) (x : ScCtl) : s.linkFrame (fun _ => true) (t.setSc k x) := .ite (h.sv _) (h.sv _)

theorem pg_SC (k : Nat) : Pg.SC k = 0xC0000 ∨ Pg.SC k = 0x1080000 := by unfold Pg.SC; split <;> simp

theorem takeoverMark (h : s.linkFrame (fun _ => true) t) (k c : Nat) : s.linkFrame (fun _ => true) (t.takeoverMark k c) := by
  have hk := pg_SC k
  have e : Rg.SC_TAKEOVER_CNT k = Pg.SC k + 0x180 := rfl
  exact ((h.bump (Bool.or_true _) (by omega)).setTop).setInt (by omega)

theorem scShow (h : s.linkFrame (fun _ => true) t) : s.linkFrame (fun _ => true) t.scShow := .ite h h.setTop.setTop

theorem scOwners (h : s.linkFrame (fun _ => true) t) : s.linkFrame (fun _ => true) t.scOwners :=
  .foldl (fun u _ => .ite (refl u) (.ite (.ite (refl u).setTop (refl u)) (.ite (refl u) (refl u).setTop))) _ h

theorem setSafe (h : s.linkFrame (fun _ => true) t) (on : Bool) : s.linkFrame (fun _ => true) (t.setSafe on) := by
  refine .foldl (fun u n => .ite (refl u).raiseSrc (refl u)) _ (foldl (fun u p => .ite (refl u) (setInt (setTop (refl u)) ?_)) _ h)
  have e : Pg.PCIE p = 0x1090000 + 0x1000 * p := rfl
  omega

theorem scUpdate (h : s.linkFrame (fun _ => true) t) : s.linkFrame (fun _ => true) t.scUpdate :=
  have h1 := (h.setTop (a := Rg.SC_STAT 0) (v := t.scMode) (fl := Fd.SC_STAT_MODE)).setTop (a := Rg.SC_STAT 1) (v := t.scMode) (fl := Fd.SC_STAT_MODE)
    |>.scOwners.scShow
  have h2 := (((h1.setInt (pg := Pg.SC 0) (b := Ib.SC_AUTONOMOUS) (by decide)).setInt (pg := Pg.SC 1) (b := Ib.SC_AUTONOMOUS) (by decide)).log (Pg.SC 1) 0x0012 0).setSafe true
  .ite h1 (.ite (.ite (h2.setTop.withdrawSelf true) h2) (.ite ((h1.log _ _ _).setSafe false) h1))

theorem scEnter (h : s.linkFrame (fun _ => true) t) (k role : Nat) : s.linkFrame (fun _ => true) (t.scEnter k role) :=
  .ite h ((h.setTop.setSc k _).sv _)

theorem scFail (h : s.linkFrame (fun _ => true) t) (k c : Nat) : s.linkFrame (fun _ => true) (t.scFail k c) :=
  have hg : ∀ j, Pg.SC j % 0x1000 = 0 := fun j => by have := pg_SC j; omega
  have h2 : s.linkFrame (fun _ => true) _ := .ite (((h.scEnter k scFailed).log (Pg.SC k) 0x0011 (k + c * 256)).setInt (b := Ib.SC_PEER_FAIL) (hg (1 - k)))
    ((h.scEnter k scFailed).log (Pg.SC k) 0x0011 (k + c * 256))
  .ite (h2.setInt (hg k)) h2

/-- A hold that could not reach SC0 takes effect. -/
theorem holdEnd (h : s.linkFrame (fun _ => true) t) (c : Nat) :
    s.linkFrame (fun _ => true) (if t.scRuns 0 then t.scFail 0 c else t).scUpdate := (ite (h.scFail 0 c) h).scUpdate

theorem scPathCheck (h : s.linkFrame (fun _ => true) t) : s.linkFrame (fun _ => true) t.scPathCheck := by
  refine .ite h ?_
  have h1 := foldl (fun u c => (refl u).takeoverMark 0 c) t.sv.missed (h.sv { t.sv with missed := [] })
  dsimp only
  split
  · exact h1.scUpdate
  · exact .ite h1.scShow ((h1.sv _).holdEnd _)

end State.linkFrame

theorem linkFrame_paths (L : Nat → Bool) (s : State) (f : State → State) : (f s).linkFrame L (s.withPaths f) :=
  .ite (.irqHeld (.refl _) _) (.ite (.pathBack (.refl _)) (.refl _))

theorem mgmtPath_shows (s : State) (up : Bool) :
    ((s.withPaths fun t => { t with d2 := { t.d2 with mgmtUp := up } }).scPathCheck).d2.mgmtUp = up := by
  have h := (linkFrame_paths (fun _ => true) s fun t => { t with d2 := { t.d2 with mgmtUp := up } }).scPathCheck
  rw [h.1]

/-! ## Accesses that time out -/

theorem fdieTimeout_shows (s : State) (a : Acc) (p : Nat) (isRead : Bool) (hport : portOf a.req = some p) (hp : s.pageOn (Pg.PCIE p / 0x1000) = true) :
    (s.fdieTimeout a isRead).rsp = (if isRead then some 0xFFFFFFFF else s.rsp) ∧
      (s.fdieTimeout a isRead).rd (Rg.PCIE_FDIE_FAIL_CNT p) = (s.rd (Rg.PCIE_FDIE_FAIL_CNT p) + 1) % 2 ^ 32 ∧
      State.onlyRegs (fun x => x == Rg.PCIE_FDIE_FAIL_CNT p || cntReg (Pg.PCIE p) x) { s with rsp := (s.fdieTimeout a isRead).rsp } (s.fdieTimeout a isRead) := by
  have e : s.fdieTimeout a isRead = ((({ s with rsp := if isRead then some 0xFFFFFFFF else s.rsp } : State).bump (Rg.PCIE_FDIE_FAIL_CNT p)).setInt
      (Pg.PCIE p) Ib.PCIE_FDIE_FAIL) := by
    unfold State.fdieTimeout
    rw [hport]
    cases isRead <;> rfl
  have hpg : Rg.PCIE_FDIE_FAIL_CNT p = 0x1090000 + 0x1000 * p + 0x18C ∧ Pg.PCIE p = 0x1090000 + 0x1000 * p := ⟨rfl, rfl⟩
  have hpc := portOf_cases hport
  rw [e]
  generalize hu : ({ s with rsp := if isRead then some 0xFFFFFFFF else s.rsp } : State) = u
  have hrd : u.rd (Rg.PCIE_FDIE_FAIL_CNT p) = s.rd (Rg.PCIE_FDIE_FAIL_CNT p) := by rw [← hu]; rfl
  have hon : u.pageOn (Rg.PCIE_FDIE_FAIL_CNT p / 0x1000) = true := by
    rw [← hu, ← hp, show Rg.PCIE_FDIE_FAIL_CNT p / 0x1000 = Pg.PCIE p / 0x1000 by omega]
    rfl
  obtain ⟨hcnt, -, hfr⟩ := bump_setInt_shows u (Rg.PCIE_FDIE_FAIL_CNT p) (Pg.PCIE p) Ib.PCIE_FDIE_FAIL (by omega) (by omega) (by omega)
    (irqReg_of_own (ownReg_iff.2 (by omega))) (ne_domStat_page (by omega) (by omega)) (by decide) hon
  have hrsp := onlyRegs_proj hfr State.rsp
  refine ⟨hrsp.trans (by rw [← hu]), by rw [hcnt, hrd], ?_⟩
  rw [hrsp]
  have : ({ s with rsp := u.rsp } : State) = u := by rw [← hu]
  rw [this]
  exact hfr

/-! ## Training -/

/-- A training that starts leaves the link untrained, in training and DOWN. -/
theorem startTraining_shows (s : State) : s.startTraining.d2.trained = false ∧ s.startTraining.d2.training = true ∧ s.startTraining.d2dDown = true := by
  obtain ⟨hfr, hst⟩ := d2dEval_shows { s with d2 := { s.d2 with trained := false, training := true } } false
  have hwant : State.d2dWant { s with d2 := { s.d2 with trained := false, training := true } } = 0 := by simp [State.d2dWant]
  rw [hwant, ite_self] at hst
  exact ⟨by rw [State.startTraining, hfr.1], by rw [State.startTraining, hfr.1], beq_iff_eq.2 hst⟩

theorem autoRetrain_of (s : State) (hd : s.d2dDown = true) (ht : s.d2.training = false) (h0 : 0 < s.d2.downTicks) (h64 : s.d2.downTicks % 64 = 0)
    (ha : s.fb (Rg.D2D_CTRL 0) Fd.D2D_CTRL_AUTO_RETRAIN = true ∨ s.fb (Rg.D2D_CTRL 1) Fd.D2D_CTRL_AUTO_RETRAIN = true) : s.autoRetrain = s.startTraining := by
  refine if_pos ?_
  simp [hd, ht, h0, h64, ha]

theorem d2dCtrl_live (d : Nat) (hd : d < 2) : (findReg (Rg.D2D_CTRL d)).any (fun r => !r.staged) = true := by
  have h : ∀ d ∈ [0, 1], (findReg (Rg.D2D_CTRL d)).any (fun r => !r.staged) = true := by decide +kernel
  exact h d (by simp; omega)

theorem retrain_shows (s : State) (d v : Nat) (hd : d < 2) (hv : bit v 0 = true) (hp : s.pageOn (Pg.D2D d / 0x1000) = true) :
    (s.f (Rg.D2D_STAT 0) Fd.D2D_STAT_STATE ≤ 1 → (s.retrain d v).d2.trained = false ∧ (s.retrain d v).d2.training = true ∧ (s.retrain d v).d2dDown = true) ∧
    (2 ≤ s.f (Rg.D2D_STAT 0) Fd.D2D_STAT_STATE → bit ((s.retrain d v).rd (Pg.D2D d + 0x010)) Ib.D2D_REFUSED = true ∧
      State.onlyRegs (fun x => x == Rg.D2D_CTRL d || intReg (Pg.D2D d) x) s (s.retrain d v)) := by
  have hpd := pg_D2D d
  have e : Rg.D2D_CTRL d = Pg.D2D d + 0x100 := rfl
  have hg : Pg.D2D d % 0x1000 = 0 := by omega
  have epg : Rg.D2D_CTRL d / 0x1000 * 0x1000 = Pg.D2D d := by omega
  have hw := onlyRegs_fieldWrite (d2dCtrl_live d hd) s (if d = 0 then v else clrBit v 8)
  rw [epg] at hw
  have he : s.retrain d v = if (s.fieldWrite (Rg.D2D_CTRL d) (if d = 0 then v else clrBit v 8)).f (Rg.D2D_STAT 0) Fd.D2D_STAT_STATE ≤ 1
      then (s.fieldWrite (Rg.D2D_CTRL d) (if d = 0 then v else clrBit v 8)).startTraining
      else (s.fieldWrite (Rg.D2D_CTRL d) (if d = 0 then v else clrBit v 8)).setInt (Pg.D2D d) Ib.D2D_REFUSED := by
    simp [State.retrain, hv]
  rw [he]
  generalize s.fieldWrite (Rg.D2D_CTRL d) (if d = 0 then v else clrBit v 8) = u at *
  have hstat : u.f (Rg.D2D_STAT 0) Fd.D2D_STAT_STATE = s.f (Rg.D2D_STAT 0) Fd.D2D_STAT_STATE := by
    have hne : Rg.D2D_STAT 0 ≠ Rg.D2D_CTRL d := by have : Rg.D2D_STAT 0 = 0xD0108 := rfl; omega
    exact f_of_rd (hw.2 _ (by simp [hne, intReg_of_own hg (x := Rg.D2D_STAT 0) (by decide)])) _
  rw [hstat]
  refine ⟨fun h => ?_, fun h => ?_⟩
  · rw [if_pos h]
    exact startTraining_shows u
  · rw [if_neg (by omega)]
    have hon : u.pageOn (Pg.D2D d / 0x1000) = true := by
      rw [onlyRegs_pageOn hw (fun q w hq hw' => ?_), hp]
      rw [cntReg_int _ _ (cntReg_dom _ q w hg hq hw'), Bool.or_false]
      exact beq_false_of_ne (ne_domStat_page (by omega) (by omega) q w hq hw').symm
    exact ⟨setInt_bit _ _ _ hg (by decide) hon,
      onlyRegs_trans hw (onlyRegs_mono (onlyRegs_setInt _ _ _) fun x hx => (Bool.or_eq_false_iff.1 hx).2)⟩

/-- The value of BUNDLE_STAT after training, from the lanes that failed and the most errors seen. -/
def trainedStat (mask most : Nat) : Nat :=
  match (List.range 32).filter (bit mask ·) with
  | [] => 2 ^ 31 + most
  | [l] => if bit mask 32 then most else 2 ^ 31 + 2 ^ 30 + l * 2 ^ 16 + most
  | _ => most

theorem trainBundle_of (s : State) (d n mask : Nat) : s.trainBundle d n mask =
    (s.setBundle d n {}).wr (Rg.D2D_BUNDLE_STAT d n) (trainedStat mask (s.f (Rg.D2D_BUNDLE_STAT d n) Fd.D2D_BUNDLE_STAT_LANE_ERR_MAX)) := by
  unfold State.trainBundle trainedStat
  dsimp only
  generalize (List.range 32).filter (bit mask ·) = bad
  match bad with
  | [] => rfl
  | [l] => cases bit mask 32 <;> rfl
  | _ :: _ :: _ => rfl

/-- A bundle is in service after training exactly where it may be (R34). -/
theorem trainedStat_up (mask most : Nat) (h : most < 2 ^ 16) : (bits (trainedStat mask most % 2 ^ 32) 31 1 == 1) = bundleTrains mask := by
  have hlow : ∀ x, x < 2 ^ 31 → (bits (x % 2 ^ 32) 31 1 == 1) = false := fun x hx => by
    rw [beq_eq_false_iff_ne, bits, Nat.mod_eq_of_lt (by omega)]
    omega
  have hhigh : ∀ x, 2 ^ 31 ≤ x → x < 2 ^ 32 → (bits (x % 2 ^ 32) 31 1 == 1) = true := fun x h1 h2 => by
    rw [beq_iff_eq, bits, Nat.mod_eq_of_lt h2]
    omega
  unfold trainedStat bundleTrains
  simp only [List.countP_eq_length_filter]
  have hmem : ∀ l ∈ (List.range 32).filter (bit mask ·), l < 32 := fun l hl => List.mem_range.1 (List.mem_filter.1 hl).1
  generalize (List.range 32).filter (bit mask ·) = bad at hmem
  match bad with
  | [] => exact hhigh (2 ^ 31 + most) (by omega) (by omega)
  | [l] =>
    have hl := hmem l List.mem_cons_self
    cases bit mask 32 with
    | false => exact hhigh _ (by simp only [Bool.false_eq_true, if_false]; omega) (by simp only [Bool.false_eq_true, if_false]; omega)
    | true => exact hlow _ (by simp only [if_true]; omega)
  | _ :: _ :: _ => exact hlow _ (by show most < 2 ^ 31; omega)

theorem trainBundle_rd (s : State) (d n mask x : Nat) (hx : x ≠ Rg.D2D_BUNDLE_STAT d n) : (s.trainBundle d n mask).rd x = s.rd x := by
  rw [trainBundle_of, rd_wr_other _ _ _ _ hx, setBundle_rd]

theorem trainBundle_up (s : State) (d n mask : Nat) : (s.trainBundle d n mask).bundleUp d n = bundleTrains mask := by
  rw [trainBundle_of, State.bundleUp, State.fb, State.f, rd_wr_same]
  exact trainedStat_up mask _ (bits_lt _ _ _)

theorem trainBundle_up_other (s : State) (d n mask e m : Nat) (hn : n < 16) (hm : m < 16) (h : ¬(d % 2 = e % 2 ∧ n = m)) (hd : d < 2) (he : e < 2) :
    (s.trainBundle d n mask).bundleUp e m = s.bundleUp e m := by
  refine fb_of_rd (trainBundle_rd s d n mask _ ?_) _
  have e1 : Rg.D2D_BUNDLE_STAT d n = Pg.D2D d + (0x140 + 4 * n) := Nat.add_assoc _ _ _
  have e2 : Rg.D2D_BUNDLE_STAT e m = Pg.D2D e + (0x140 + 4 * m) := Nat.add_assoc _ _ _
  have hp : ∀ q, q < 2 → Pg.D2D q = 0xD0000 + 0xFD0000 * q := fun q hq => by
    obtain rfl | rfl : q = 0 ∨ q = 1 := by omega
    all_goals rfl
  have := hp d hd
  have := hp e he
  omega

theorem trainBundle_d2 (s : State) (d n mask : Nat) : (s.trainBundle d n mask).d2 = { s.d2 with rxF := (s.trainBundle d n mask).d2.rxF, rxT := (s.trainBundle d n mask).d2.rxT } := by
  rw [trainBundle_of, State.wr_d2]
  unfold State.setBundle
  split <;> rfl

/-- The first `m` bundles of both directions trained. -/
def State.trainFirst (s : State) (failF failT : List Nat) (m : Nat) : State :=
  (List.range m).foldl (fun t n => (t.trainBundle 0 n (lget 0 failF n)).trainBundle 1 n (lget 0 failT n)) s

theorem trainFirst_shows (s : State) (failF failT : List Nat) (m : Nat) (hm : m ≤ 16) :
    (∀ n, n < m → (s.trainFirst failF failT m).bundleUp 0 n = bundleTrains (lget 0 failF n) ∧
      (s.trainFirst failF failT m).bundleUp 1 n = bundleTrains (lget 0 failT n)) ∧
    (s.trainFirst failF failT m).d2 = { s.d2 with rxF := (s.trainFirst failF failT m).d2.rxF, rxT := (s.trainFirst failF failT m).d2.rxT } := by
  induction m with
  | zero => exact ⟨fun n h => absurd h (Nat.not_lt_zero n), rfl⟩
  | succ m ih =>
    obtain ⟨hup, hd2⟩ := ih (by omega)
    have hstep : s.trainFirst failF failT (m + 1) =
        ((s.trainFirst failF failT m).trainBundle 0 m (lget 0 failF m)).trainBundle 1 m (lget 0 failT m) := by
      simp only [State.trainFirst, List.range_succ, List.foldl_append, List.foldl_cons, List.foldl_nil]
    rw [hstep]
    generalize s.trainFirst failF failT m = u at *
    refine ⟨fun n hn => ?_, ?_⟩
    · rw [trainBundle_up_other _ 1 m _ 0 n (by omega) (by omega) (by omega) (by decide) (by decide)]
      by_cases h : n = m
      · rw [h]
        exact ⟨trainBundle_up _ _ _ _, trainBundle_up _ _ _ _⟩
      · rw [trainBundle_up_other _ 0 m _ 0 n (by omega) (by omega) (by omega) (by decide) (by decide),
          trainBundle_up_other _ 1 m _ 1 n (by omega) (by omega) (by omega) (by decide) (by decide),
          trainBundle_up_other _ 0 m _ 1 n (by omega) (by omega) (by omega) (by decide) (by decide)]
        exact hup n (by omega)
    · rw [trainBundle_d2, trainBundle_d2, hd2]

theorem trainingDone_shows (s : State) (failF failT : List Nat) (ht : s.d2.training = true) :
    (∀ n, n < 16 → (s.trainingDone failF failT).bundleUp 0 n = bundleTrains (lget 0 failF n) ∧
      (s.trainingDone failF failT).bundleUp 1 n = bundleTrains (lget 0 failT n)) ∧
    (s.trainingDone failF failT).f (Rg.D2D_STAT 0) Fd.D2D_STAT_STATE = linkState s.d2.minF s.d2.minT
      ((List.range 16).countP fun n => bundleTrains (lget 0 failF n)) ((List.range 16).countP fun n => bundleTrains (lget 0 failT n)) ∧
    (s.trainingDone failF failT).d2.trained = true ∧ (s.trainingDone failF failT).d2.training = false := by
  obtain ⟨hup, hd2⟩ := trainFirst_shows s failF failT 16 (Nat.le_refl _)
  have he : s.trainingDone failF failT = State.d2dEval { s.trainFirst failF failT 16 with
      d2 := { (s.trainFirst failF failT 16).d2 with trained := true, training := false } } true := by
    simp only [State.trainingDone, ht, Bool.not_true, Bool.false_eq_true, if_false, State.trainFirst]
  rw [he]
  generalize s.trainFirst failF failT 16 = u at *
  have hupv : ∀ d n, State.bundleUp { u with d2 := { u.d2 with trained := true, training := false } } d n = u.bundleUp d n := fun _ _ => rfl
  have hv2 : State.d2 { u with d2 := { u.d2 with trained := true, training := false } } = { u.d2 with trained := true, training := false } := rfl
  generalize ({ u with d2 := { u.d2 with trained := true, training := false } } : State) = v at *
  obtain ⟨hfr, hst⟩ := d2dEval_shows v true
  have hupt : ∀ d n, n < 16 → (v.d2dEval true).bundleUp d n = u.bundleUp d n := fun d n hn =>
    (fb_of_rd (hfr.rd_free (bundleStat_free d n hn)) _).trans (hupv d n)
  have hcnt : v.rxCount 0 = (List.range 16).countP (fun n => bundleTrains (lget 0 failF n)) ∧
      v.rxCount 1 = (List.range 16).countP fun n => bundleTrains (lget 0 failT n) := by
    constructor
    all_goals
      refine List.countP_congr fun n hn => ?_
      simp only [hupv, (hup n (List.mem_range.1 hn)).1, (hup n (List.mem_range.1 hn)).2]
  have hmin : v.d2.minF = s.d2.minF ∧ v.d2.minT = s.d2.minT ∧ v.d2.trained = true := by
    rw [hv2, hd2]
    exact ⟨rfl, rfl, rfl⟩
  refine ⟨fun n hn => ?_, ?_, ?_, ?_⟩
  · rw [hupt 0 n hn, hupt 1 n hn]
    exact hup n hn
  · rw [hst, if_neg (by simp)]
    simp only [State.d2dWant, hcnt, hmin, linkState, Bool.not_true, Bool.false_or, Bool.or_eq_true, decide_eq_true_eq]
  · rw [hfr.1, hv2]
  · rw [hfr.1, hv2]

/-- Settles O11: the end of a training, its starts, an access that times out and the management path, each by its lemma. -/
theorem dieToDieTraining : Obligations.DieToDieTraining := by
  refine ⟨fun s failF failT ht _ _ _ => ⟨_, rfl, trainingDone_shows s failF failT ht⟩, fun s a d v hd hm hv => ?_,
    fun s hd ht h0 h64 ha => ⟨_, congrArg Host.Outcome.next (autoRetrain_of s hd ht h0 h64 ha), startTraining_shows s⟩,
    fun s a p isRead hport hp => ⟨_, rfl, fdieTimeout_shows s a p isRead hport hp⟩, fun s up => ⟨_, rfl, mgmtPath_shows s up⟩⟩
  have hp : s.pageOn (Pg.D2D d / 0x1000) = true := by
    have h := mayWrite_pageOn hm
    have hpd := pg_D2D d
    rwa [show Rg.D2D_CTRL d / 0x1000 = Pg.D2D d / 0x1000 by have : Rg.D2D_CTRL d = Pg.D2D d + 0x100 := rfl; omega] at h
  have he : exec (.retrain a d v) s = .next (s.retrain d v.toNat) := by
    show execRetrain a d v s = _
    rw [execRetrain, Nat.mod_eq_of_lt hd, onWrite_of s a _ _ hm]
  exact ⟨_, he, retrain_shows s d v.toNat hd hv hp⟩

end Sys2Proof.Machine
end

section
/-! SUPPORT. Chains of updates: the frames of register updates and of the event log, put together step by step. -/
namespace Sys2Proof.Machine

/-! ## Register updates, one after the other -/

namespace State.onlyRegs
variable {P Q : Nat → Bool} {s t u : State}

theorem ne_of (ha : P a = true) (hx : P x = false) : x ≠ a := fun e => by
  rw [e, ha] at hx
  exact absurd hx (by decide)

theorem wr (h : State.onlyRegs P s t) {a v : Nat} (ha : P a = true) : State.onlyRegs P s (t.wr a v) := onlyRegs_trans h (onlyRegs_wr t a v ha)

theorem setF (h : State.onlyRegs P s t) {a v : Nat} {fl : Fld} (ha : P a = true) : State.onlyRegs P s (t.setF a fl v) := h.wr ha

theorem wr64 (h : State.onlyRegs P s t) {a v : Nat} (ha : P a = true) (h4 : P (a + 4) = true) : State.onlyRegs P s (t.wr64 a v) :=
  (h.wr ha).wr h4

theorem emit (h : State.onlyRegs P s t) {e : Emit} : State.onlyRegs P s (t.emit e) := onlyRegs_trans h (onlyRegs_emit P t e)

theorem setInts (h : State.onlyRegs P s t) {pg m : Nat} (hP : ∀ x, P x = false → intReg pg x = false) : State.onlyRegs P s (t.setInts pg m) :=
  onlyRegs_trans h (onlyRegs_mono (onlyRegs_setInts t pg m) hP)

theorem setInt (h : State.onlyRegs P s t) {pg b : Nat} (hP : ∀ x, P x = false → intReg pg x = false) : State.onlyRegs P s (t.setInt pg b) :=
  h.setInts hP

theorem setIntIf (h : State.onlyRegs P s t) {c : Bool} {pg b : Nat} (hP : ∀ x, P x = false → intReg pg x = false) :
    State.onlyRegs P s (t.setIntIf c pg b) := onlyRegs_trans h (onlyRegs_mono (onlyRegs_setIntIf t c pg b) hP)

theorem bump (h : State.onlyRegs P s t) {a n : Nat} (hlt : a % 0x1000 < 0x800) (ha : P a = true)
    (hP : ∀ x, P x = false → cntReg (a / 0x1000 * 0x1000) x = false) : State.onlyRegs P s (t.bump a n) :=
  onlyRegs_trans h (onlyRegs_mono (onlyRegs_bump t a n hlt) fun x hx => by simp [ne_of ha hx, hP x hx])

theorem bumpIf (h : State.onlyRegs P s t) {c : Bool} {a : Nat} (hlt : a % 0x1000 < 0x800) (ha : P a = true)
    (hP : ∀ x, P x = false → cntReg (a / 0x1000 * 0x1000) x = false) : State.onlyRegs P s (t.bumpIf c a) := by
  unfold State.bumpIf
  split
  · exact h.bump hlt ha hP
  · exact h

theorem bump64 (h : State.onlyRegs P s t) {a n : Nat} (hlt : a % 0x1000 + 4 < 0x800) (ha : P a = true) (h4 : P (a + 4) = true)
    (hP : ∀ x, P x = false → cntReg (a / 0x1000 * 0x1000) x = false) : State.onlyRegs P s (t.bump64 a n) :=
  onlyRegs_trans h (onlyRegs_mono (onlyRegs_bump64 t a n hlt) fun x hx => by simp [ne_of ha hx, ne_of h4 hx, hP x hx])

theorem ite {c : Prop} [Decidable c] (h1 : State.onlyRegs P s t) (h2 : State.onlyRegs P s u) : State.onlyRegs P s (if c then t else u) :=
  onlyRegs_if c h1 h2

/-- Register updates after a change `K` of other parts of the state. -/
theorem after {K : State → State} (h : State.onlyRegs P (K t) t) (h2 : State.onlyRegs P t u)
    (hK : ∀ (v : State) (r : Sparse Nat) (p q : PcieSt) (o : List Emit), K { v with regs := r, pcie0 := p, pcie1 := q, out := o } = K v := by
      exact fun _ _ _ _ _ => rfl) : State.onlyRegs P (K u) u :=
  onlyRegs_trans (onlyRegs_proj h2 K hK ▸ h) h2

end State.onlyRegs

/-! ## Registers and chosen parts of the state -/

/-- `K s t` is `s` with chosen parts of `t`, none of which a register update touches. -/
structure State.Keeps (K : State → State → State) : Prop where
  trans : ∀ (s t u : State) (r : Sparse Nat) (p q : PcieSt) (o : List Emit),
    K { K s t with regs := r, pcie0 := p, pcie1 := q, out := o } u = { K s u with regs := r, pcie0 := p, pcie1 := q, out := o }
  rd : ∀ s t x, (K s t).rd x = s.rd x
  self : ∀ (s : State) (r : Sparse Nat) (p q : PcieSt) (o : List Emit), K s { s with regs := r, pcie0 := p, pcie1 := q, out := o } = s

/-- The frame of a command that changes registers in `P` and the parts of the state that `K` names. -/
def State.frame (K : State → State → State) (P : Nat → Bool) (s t : State) : Prop := State.onlyRegs P (K s t) t

namespace State.frame
variable {K : State → State → State} {P Q : Nat → Bool} {s t u : State}

theorem trans (hK : State.Keeps K) (h1 : s.frame K P t) (h2 : t.frame K P u) : s.frame K P u := by
  refine ⟨?_, fun x hx => ?_⟩
  · have e := h2.1
    rw [h1.1, hK.trans] at e
    exact e
  · rw [h2.2 x hx, hK.rd, h1.2 x hx, hK.rd, hK.rd]

theorem ofOnlyRegs (hK : State.Keeps K) (h : State.onlyRegs P s t) : s.frame K P t := by
  have e : K s t = s := by
    rw [h.1]
    exact hK.self _ _ _ _ _
  rw [State.frame, e]
  exact h

theorem refl (hK : State.Keeps K) : s.frame K P s := ofOnlyRegs hK (onlyRegs_refl P s)

theorem regs (hK : State.Keeps K) (h : s.frame K P t) (h2 : State.onlyRegs P t u) : s.frame K P u := h.trans hK (ofOnlyRegs hK h2)

theorem mono (h : s.frame K P t) (hq : ∀ x, Q x = false → P x = false) : s.frame K Q t := onlyRegs_mono h hq

theorem ite {c : Prop} [Decidable c] (h1 : s.frame K P t) (h2 : s.frame K P u) : s.frame K P (if c then t else u) := by split <;> assumption

theorem rd (hK : State.Keeps K) (h : s.frame K P t) {x : Nat} (hx : P x = false) : t.rd x = s.rd x := (h.2 x hx).trans (hK.rd _ _ _)

theorem foldl {β : Type} (hK : State.Keeps K) {f : State → β → State} {l : List β} (hf : ∀ (u : State), ∀ x ∈ l, u.frame K P (f u x)) (h : s.frame K P t) :
    s.frame K P (l.foldl f t) := by
  induction l generalizing t with
  | nil => exact h
  | cons x l ih =>
    exact ih (fun u y hy => hf u y (List.mem_cons_of_mem _ hy)) (h.trans hK (hf t x List.mem_cons_self))

end State.frame

/-- A change of the parts that `K` names alone. -/
theorem frame_of_eq {K : State → State → State} {P : Nat → Bool} {s t : State} (h : t = K s t) : s.frame K P t := by
  rw [State.frame, ← h]
  exact onlyRegs_refl P t

/-! ## The event log and registers together -/

/-- The registers that a record of the event log changes: those of EMRAM, and what a message changes (R354, R362). -/
def logReg (x : Nat) : Bool := x / 0x1000 == 0x1082 || irqReg x

/-- The frame of events: registers in `P`, MSI-X, output, the event log and the marks of its words. -/
def State.eventFrame (P : Nat → Bool) (s t : State) : Prop :=
  t = { s with regs := t.regs, pcie0 := t.pcie0, pcie1 := t.pcie1, out := t.out, lg := t.lg, marks := t.marks } ∧ ∀ x, P x = false → t.rd x = s.rd x

namespace State.eventFrame
variable {P Q : Nat → Bool} {s t u : State}

theorem refl (s : State) : s.eventFrame P s := ⟨rfl, fun _ _ => rfl⟩

theorem trans (h1 : s.eventFrame P t) (h2 : t.eventFrame P u) : s.eventFrame P u := by
  refine ⟨?_, fun x hx => (h2.2 x hx).trans (h1.2 x hx)⟩
  have e2 := h2.1
  rw [h1.1] at e2
  exact e2

theorem mono (h : s.eventFrame P t) (hq : ∀ x, Q x = false → P x = false) : s.eventFrame Q t := ⟨h.1, fun x hx => h.2 x (hq x hx)⟩

theorem ofOnlyRegs (h : State.onlyRegs P s t) : s.eventFrame P t := by
  refine ⟨?_, h.2⟩
  have e : t.lg = s.lg ∧ t.marks = s.marks := ⟨onlyRegs_proj h State.lg, onlyRegs_proj h State.marks⟩
  rw [e.1, e.2]
  exact h.1

/-- What is neither a register, MSI-X, output, log nor mark stays. -/
theorem proj {α : Type} (h : s.eventFrame P t) (π : State → α)
    (hπ : ∀ (u : State) (r : Sparse Nat) (p q : PcieSt) (o : List Emit) (l : LogSt) (m : Sparse WordErr),
      π { u with regs := r, pcie0 := p, pcie1 := q, out := o, lg := l, marks := m } = π u := by exact fun _ _ _ _ _ _ _ => rfl) : π t = π s := by
  rw [h.1]
  exact hπ s t.regs t.pcie0 t.pcie1 t.out t.lg t.marks

theorem ite {c : Prop} [Decidable c] (h1 : s.eventFrame P t) (h2 : s.eventFrame P u) : s.eventFrame P (if c then t else u) := by split <;> assumption

theorem pageOn (h : s.eventFrame P t) (hd : ∀ d ∈ [0, 1], ∀ w ∈ [0, 1], P (Rg.PWR_DOM_STAT d w) = false) (page : Nat) :
    t.pageOn page = s.pageOn page := by
  have h1 : State.onlyRegs P { s with lg := t.lg, marks := t.marks } t := ⟨h.1, h.2⟩
  exact pageOn_of_onlyRegs h1 hd page

end State.eventFrame

theorem logReg_of_own {x : Nat} (h : ownReg x = true) (he : x / 0x1000 ≠ 0x1082) : logReg x = false := by
  simp [logReg, he, irqReg_of_own h]

theorem logReg_emram {a : Nat} (h : a / 0x1000 = 0x1082) : logReg a = true := by simp [logReg, h]

theorem logReg_irq (x : Nat) (h : logReg x = false) : irqReg x = false := (Bool.or_eq_false_iff.1 h).2

theorem logReg_cnt (x : Nat) (h : logReg x = false) : cntReg Pg.EMRAM x = false := by
  have hp : x / 0x1000 ≠ 0x1082 := by simpa using (Bool.or_eq_false_iff.1 h).1
  have he : Pg.EMRAM = 0x1082000 := rfl
  simp only [cntReg, intReg, logReg_irq x h, he, Bool.or_false, Bool.or_eq_false_iff, decide_eq_false_iff_not, beq_eq_false_iff_ne]
  omega

theorem eventFrame_lg (P : Nat → Bool) (s : State) (x : LogSt) : s.eventFrame P { s with lg := x } := ⟨rfl, fun _ _ => rfl⟩

theorem eventFrame_setMark (P : Nat → Bool) (s : State) (pg m a : Nat) (e : WordErr) : s.eventFrame P (s.setMark pg m a e) := ⟨rfl, fun _ _ => rfl⟩

theorem eventFrame_putRec (s : State) (r : LogRec) : s.eventFrame logReg (s.putRec r) :=
  (((eventFrame_lg _ s _).trans (eventFrame_setMark _ _ _ _ _ _)).trans (eventFrame_setMark _ _ _ _ _ _)).trans
    (.ofOnlyRegs ((((onlyRegs_refl logReg _).wr rfl).wr rfl).bump64 (by decide) rfl rfl logReg_cnt))

theorem eventFrame_logDrop (s : State) : s.eventFrame logReg ((s.bump Rg.EMRAM_LOG_DROP_CNT).setInt Pg.EMRAM Ib.EMRAM_LOG_DROP) :=
  .ofOnlyRegs (((onlyRegs_refl logReg s).bump (by decide) rfl logReg_cnt).setInt fun x hx => cntReg_int _ x (logReg_cnt x hx))

theorem eventFrame_logPut (s : State) (r : LogRec) : s.eventFrame logReg (s.logPut r) :=
  .ite ((eventFrame_putRec s r).trans (eventFrame_lg _ _ _)) ((eventFrame_lg _ s _).trans (eventFrame_logDrop _))

/-- Everything that logging an event can do. -/
theorem eventFrame_log (s : State) (pg code data : Nat) : s.eventFrame logReg (s.log pg code data) :=
  .ite (.ite (eventFrame_lg _ s _) (eventFrame_lg _ s _)) (eventFrame_logPut s _)

namespace State.eventFrame
variable {P : Nat → Bool} {s t : State}

theorem regs (h : s.eventFrame P t) {u : State} (h2 : State.onlyRegs P t u) : s.eventFrame P u := h.trans (.ofOnlyRegs h2)

theorem log (h : s.eventFrame P t) {pg code data : Nat} (hP : ∀ x, P x = false → logReg x = false) : s.eventFrame P (t.log pg code data) :=
  h.trans ((eventFrame_log t pg code data).mono hP)

end State.eventFrame

/-! ## Flags that stay while events are counted -/

theorem keepsInt_setOvf (s : State) (pg off b : Nat) (hg : pg % 0x1000 = 0) (h1 : 0x040 ≤ off) (h2 : off < 0x07C) : keepsInt s (s.setOvf pg off b) := by
  unfold State.setOvf
  simp only []
  split
  · exact keepsInt_refl s
  · exact keepsInt_trans (keepsInt_wr s _ _ (by omega)) (keepsInt_setInt _ pg 28 hg)

theorem keepsInt_bump (s : State) (a n : Nat) (h1 : 0x100 ≤ a % 0x1000) (h2 : a % 0x1000 < 0x800) : keepsInt s (s.bump a n) := by
  have hlt := ovfPlace_lt a h2
  unfold State.bump
  simp only []
  split_ifs
  · exact keepsInt_refl s
  · exact keepsInt_wr s _ _ (by omega)
  · exact keepsInt_trans (keepsInt_wr s _ _ (by omega)) (keepsInt_setOvf _ _ _ _ (Nat.mul_mod_left _ _) (by omega) (by omega))

theorem keepsInt_bump64 (s : State) (a n : Nat) (h1 : 0x100 ≤ a % 0x1000) (h2 : a % 0x1000 + 4 < 0x800) : keepsInt s (s.bump64 a n) := by
  have hlt := ovfPlace_lt (a + 4) (by omega)
  have hwr : keepsInt s (s.wr64 a (s.rd64 a + n)) := keepsInt_trans (keepsInt_wr s _ _ (by omega)) (keepsInt_wr _ _ _ (by omega))
  unfold State.bump64
  simp only []
  split_ifs
  · exact keepsInt_refl s
  · exact hwr
  · exact keepsInt_trans hwr (keepsInt_setOvf _ _ _ _ (Nat.mul_mod_left _ _) (by omega) (by omega))

/-! ## Reads of a register of a block's own -/

theorem rd_log_own {s : State} {x pg code data : Nat} (hx : ownReg x = true) (he : x / 0x1000 ≠ 0x1082) : (s.log pg code data).rd x = s.rd x :=
  (eventFrame_log s pg code data).2 x (logReg_of_own hx he)

theorem rd_emit (s : State) (e : Emit) (x : Nat) : (s.emit e).rd x = s.rd x := rfl

end Sys2Proof.Machine
end

section
/-! SUPPORT. Quiet changes: what reads of protected words, counters, flags, the log and the AP side may change, and what they leave. -/
namespace Sys2Proof.Machine

/-- A change of registers, messages, output, log, error records, learn queues, free values and the AP side alone. -/
def State.quiet (s t : State) : Prop :=
  t = { s with ra := t.ra, regs := t.regs, marks := t.marks, out := t.out, free := t.free, pcie0 := t.pcie0, pcie1 := t.pcie1, lg := t.lg, ln := t.ln,
               apCtx := t.apCtx, apThr := t.apThr, apSup := t.apSup, locks := t.locks, chans := t.chans }

/-- The parts that a quiet change may change, of another state. -/
def State.takeQuiet (s t : State) : State :=
  { s with ra := t.ra, regs := t.regs, marks := t.marks, out := t.out, free := t.free, pcie0 := t.pcie0, pcie1 := t.pcie1, lg := t.lg, ln := t.ln,
           apCtx := t.apCtx, apThr := t.apThr, apSup := t.apSup, locks := t.locks, chans := t.chans }

theorem State.takeQuiet_takeQuiet (s t u : State) : (s.takeQuiet t).takeQuiet u = s.takeQuiet u := rfl

theorem State.takeQuiet_self (s : State) : s.takeQuiet s = s := rfl

namespace State.quiet
variable {s t u : State}

theorem eq (h : s.quiet t) : t = s.takeQuiet t := h

theorem refl (s : State) : s.quiet s := rfl

theorem trans (h1 : s.quiet t) (h2 : t.quiet u) : s.quiet u := by
  have e := h2.eq
  rw [h1.eq, State.takeQuiet_takeQuiet] at e
  exact e

/-- What a quiet change does not name stays. -/
theorem proj {α : Type} (h : s.quiet t) (π : State → α) (hπ : ∀ u v : State, π (u.takeQuiet v) = π u := by exact fun _ _ => rfl) : π t = π s := by
  rw [h.eq]
  exact hπ s t

theorem onlyRegs {P : Nat → Bool} (h : State.onlyRegs P s t) : s.quiet t := by
  have e1 := onlyRegs_proj h State.ra
  have e2 := onlyRegs_proj h State.marks
  have e3 := onlyRegs_proj h State.free
  have e4 := onlyRegs_proj h State.lg
  have e5 := onlyRegs_proj h State.ln
  have e6 := onlyRegs_proj h State.apCtx
  have e7 := onlyRegs_proj h State.apThr
  have e8 := onlyRegs_proj h State.apSup
  have e9 := onlyRegs_proj h State.locks
  have e0 := onlyRegs_proj h State.chans
  unfold State.quiet
  rw [e1, e2, e3, e4, e5, e6, e7, e8, e9, e0]
  exact h.1

theorem events {P : Nat → Bool} (h : s.eventFrame P t) : s.quiet t :=
  (show s.quiet { s with lg := t.lg, marks := t.marks } from rfl).trans (onlyRegs (P := P) ⟨h.1, h.2⟩)

theorem ite {c : Prop} [Decidable c] (h1 : s.quiet t) (h2 : s.quiet u) : s.quiet (if c then t else u) := by split <;> assumption

theorem wr (h : s.quiet t) {a v : Nat} : s.quiet (t.wr a v) := h.trans rfl

theorem setF (h : s.quiet t) {a v : Nat} {fl : Fld} : s.quiet (t.setF a fl v) := h.wr

theorem wr64 (h : s.quiet t) {a v : Nat} : s.quiet (t.wr64 a v) := h.wr.wr

theorem emit (h : s.quiet t) {e : Emit} : s.quiet (t.emit e) := h.trans rfl

theorem draw (h : s.quiet t) : s.quiet t.draw := h.trans rfl

theorem setInts (h : s.quiet t) {pg m : Nat} : s.quiet (t.setInts pg m) := h.trans (onlyRegs (onlyRegs_setInts t pg m))

theorem setInt (h : s.quiet t) {pg b : Nat} : s.quiet (t.setInt pg b) := h.setInts

theorem setIntIf (h : s.quiet t) {c : Bool} {pg b : Nat} : s.quiet (t.setIntIf c pg b) := .ite h.setInt h

theorem setOvf (h : s.quiet t) {pg off b : Nat} : s.quiet (t.setOvf pg off b) := .ite h h.wr.setInt

theorem bump (h : s.quiet t) {a n : Nat} : s.quiet (t.bump a n) := .ite h (.ite h.wr h.wr.setOvf)

theorem bumpIf (h : s.quiet t) {c : Bool} {a : Nat} : s.quiet (t.bumpIf c a) := .ite h.bump h

theorem bump64 (h : s.quiet t) {a n : Nat} : s.quiet (t.bump64 a n) := .ite h (.ite h.wr64 h.wr64.setOvf)

theorem log (h : s.quiet t) {pg code data : Nat} : s.quiet (t.log pg code data) := h.trans (events (eventFrame_log t pg code data))

theorem peak (h : s.quiet t) {a v : Nat} : s.quiet (t.peak a v) := .ite h.wr h

theorem foldl {β : Type} {f : State → β → State} (hf : ∀ (u : State) (x : β), u.quiet (f u x)) (h : s.quiet t) (l : List β) : s.quiet (l.foldl f t) := by
  induction l generalizing t with
  | nil => exact h
  | cons x l ih => exact ih (h.trans (hf t x))

/-! ## Reads of protected words (R304, R305) -/

theorem ceCount (h : s.quiet t) {die cls : Nat} : s.quiet (t.ceCount die cls) :=
  have h1 : s.quiet { t with ra := { t.ra with ceSec := sset 0 t.ra.ceSec (16 * die + cls) (sget 0 t.ra.ceSec (16 * die + cls) + 1) } } := h.trans rfl
  .ite h1.bump.wr.setInt h1.bump

theorem captureErr (h : s.quiet t) {pg kind mem addr symbol pattern syn half : Nat} {sinter setCe : Bool} :
    s.quiet (t.captureErr pg kind mem addr sinter symbol pattern syn half setCe) :=
  have h1 := fun (c : Prop) [Decidable c] a b d => ite (c := c) h (u := ((t.wr (pg + 0x020) a).wr (pg + 0x024) b).wr (pg + 0x028) d) h.wr.wr.wr
  .ite (h1 _ _ _ _).setInt (.ite (h1 _ _ _ _).setInt (h1 _ _ _ _))

theorem logUncorr (h : s.quiet t) {pg cls : Nat} : s.quiet (t.logUncorr pg cls) :=
  have h1 : s.quiet { t with ra := { t.ra with ueLogged := pg :: t.ra.ueLogged } } := h.trans rfl
  .ite h h1.log

theorem meetErr (h : s.quiet t) {pg cls mem word : Nat} {e : WordErr} {sinter : Bool} : s.quiet (t.meetErr pg cls mem word e sinter) :=
  have h1 := fun (c : Prop) [Decidable c] a => ite (c := c) (t := t.bump a) h.bump h
  .ite h (.ite (h1 _ _).ceCount.captureErr (.ite (h1 _ _).bump.captureErr.logUncorr (h1 _ _).bump.captureErr))

theorem readWord (h : s.quiet t) {pg cls mem addr : Nat} : s.quiet (t.readWord pg cls mem addr).1 := h.meetErr

theorem readWords (h : s.quiet t) {pg cls mem addr n : Nat} : s.quiet (t.readWords pg cls mem addr n).1 := by
  induction n generalizing t addr with
  | zero => exact h
  | succ n ih => exact ih h.readWord

theorem getEntry (h : s.quiet t) {pg cls m i n : Nat} : s.quiet (t.getEntry pg cls m i n).1 := h.readWords

theorem nhEnt (h : s.quiet t) {m i : Nat} : s.quiet (t.nhEnt m i).1 := h.getEntry

theorem dataErr (h : s.quiet t) {pg cls : Nat} {e : Option MemErr} : s.quiet (t.dataErr pg cls e).1 := by
  cases e with
  | none => exact h
  | some x => exact h.meetErr

theorem touch (h : s.quiet t) {pg cls mem : Nat} {l : List Nat} : s.quiet (t.touch pg cls mem l) := foldl (fun u _ => (refl u).meetErr) h l

theorem rwRequest (h : s.quiet t) {cls mem addr : Nat} : s.quiet (t.rwRequest cls mem addr) :=
  have h1 : s.quiet { t with ra := { t.ra with rw := t.ra.rw ++ [(cls, mem, addr)] } } := h.trans rfl
  .ite h.bump.setInt h1.setIntIf

/-! ## Parsing and exact match (R106, R160) -/

theorem parse (h : s.quiet t) {old : Bool} {b : List Byte} {start : Nat} : s.quiet (t.parse old b start).1 := by
  refine bumpIf (.ite ?_ (bump ?_)) <;> exact .ite h.touch.touch h.touch

theorem exmTouch (h : s.quiet t) {c : ExmCfg} {key : Nat} : s.quiet (t.exmTouch c key) :=
  have h1 : s.quiet ((c.candidates key).foldl (fun t i => (t.exmWords c i).foldl (fun u x =>
      u.meetErr x.1 x.2.1 x.2.2.1 x.2.2.2 (u.mark x.1 x.2.2.1 x.2.2.2) false) t) t) :=
    foldl (fun u i => foldl (fun w _ => (refl w).meetErr) (refl u) (u.exmWords c i)) h _
  .ite h (.ite h1.bump.setInt h1)

theorem exmLookup (h : s.quiet t) {m r key : Nat} : s.quiet (t.exmLookup m r key).1 := by
  unfold State.exmLookup
  simp only []
  split
  · exact h
  · exact h.exmTouch

theorem learnPut (h : s.quiet t) {q table fid mac sport : Nat} : s.quiet (t.learnPut q table fid mac sport) :=
  .ite h.bump (.ite h.bump.setInt (h.trans rfl))

/-! ## Classification (R114 to R123) -/

theorem fst_of {α : Type} {p : State × α} {a : α} (h : s.quiet p.1) (he : p = (u, a)) : s.quiet u := by
  rw [he] at h
  exact h

theorem fst_ite {α : Type} {c : Prop} [Decidable c] {x y : State × α} (h1 : s.quiet x.1) (h2 : s.quiet y.1) : s.quiet (if c then x else y).1 := by
  split <;> assumption

theorem aclRun (h : s.quiet t) {old : Bool} {rank prof : Nat} {k : KeySrc} : s.quiet (t.aclRun old rank prof k).1 := by
  unfold State.aclRun
  simp only []
  generalize t.aclSearch (t.vrd old (Rg.ACL_PROF_BANKS prof)) rank (t.aclKey old prof k) = o
  cases o with
  | none => exact h
  | some e =>
    simp only []
    split <;> dsimp only
    · exact h.touch.rwRequest
    · exact h

theorem emStage (h : s.quiet t) {old : Bool} {rank prof stage : Nat} {k : KeySrc} {c : Cls} : s.quiet (t.emStage old rank prof stage k c).1 := by
  unfold State.emStage
  simp only []
  refine fst_ite h.bump ?_
  generalize hx : t.exmLookup _ rank _ = x
  obtain ⟨s1, r⟩ := x
  have h1 := fst_of h.exmLookup hx
  cases r with
  | none => exact h1.bump
  | some x => exact h1.bump

theorem aclStage (h : s.quiet t) {old : Bool} {rank prof n : Nat} {k : KeySrc} {c : Cls} : s.quiet (t.aclStage old rank prof n k c).1 :=
  h.aclRun.bumpIf.bumpIf

theorem classCount (h : s.quiet t) {c : Cls} : s.quiet (t.classCount c) := h.bumpIf.bumpIf

theorem classify (h : s.quiet t) {old : Bool} {rank : Nat} {k : Pkt} {p : Parsed} {upset : Option Nat} : s.quiet (t.classify old rank k p upset).1 := by
  have h2 := fun prof src (c0 : Cls) c1 => (h.emStage (old := old) (rank := rank) (prof := prof) (stage := 0) (k := src) (c := c0)).emStage
    (old := old) (rank := rank) (prof := prof) (stage := 1) (k := src) (c := c1)
  exact fst_ite (fst_ite (h2 _ _ _ _).aclStage (h2 _ _ _ _)).aclStage (fst_ite (h2 _ _ _ _).aclStage (h2 _ _ _ _))

/-! ## Route lookup and resolution (R135 to R137, R144 to R151) -/

theorem terrParity (h : s.quiet t) {fam rank vrf addr b r : Nat} {a : TerrAns} : s.quiet (t.terrParity fam rank vrf addr b r a).1 :=
  fst_ite h (fst_ite h.touch.setInt.bump h.touch.setInt.bump)

theorem terrLookup (h : s.quiet t) {old : Bool} {rank fam vrf addr : Nat} : s.quiet (t.terrLookup old rank fam vrf addr).1 := by
  unfold State.terrLookup
  simp only []
  have h3 : ∀ (c d : Prop) [Decidable c] [Decidable d] (l : List Nat) (a b e n : Nat), s.quiet
      (if d then (if c then ((t.touch Pg.TERR_CTL 4 (copyOf old) l).bump64 a).bump64 b else (t.touch Pg.TERR_CTL 4 (copyOf old) l).bump64 a)
       else (if c then ((t.touch Pg.TERR_CTL 4 (copyOf old) l).bump64 a).bump64 b else (t.touch Pg.TERR_CTL 4 (copyOf old) l).bump64 a).bump e n) := by
    intro c d _ _ l a b e n
    exact .ite (.ite h.touch.bump64.bump64 h.touch.bump64) (ite h.touch.bump64.bump64 h.touch.bump64).bump
  split
  · exact h3 _ _ _ _ _ _ _
  · exact (h3 _ _ _ _ _ _ _).terrParity

theorem resolveErr (h : s.quiet t) : s.quiet t.resolveErr.1 := h.bump.setInt

theorem resolveStop (h : s.quiet t) {f : Nat × Nat} : s.quiet (t.resolveStop f).1 := h.bump

theorem resolveNh (h : s.quiet t) {i ttl : Nat} : s.quiet (t.resolveNh i ttl).1 := by
  unfold State.resolveNh
  generalize hx : t.nhEnt 0 i = x
  obtain ⟨s1, e⟩ := x
  have h1 := fst_of h.nhEnt hx
  simp only []
  refine fst_ite h1.resolveErr (fst_ite h1.resolveStop ?_)
  generalize hy : (if bits e 62 2 = 2 then s1.resolveStop (2, bits e 14 8) else (s1, { nh := some (i, e) })) = y
  obtain ⟨s2, x⟩ := y
  have h2 := fst_of (fst_ite h1.resolveStop h1) hy
  exact fst_ite h2.bump h2

theorem resolveProt (h : s.quiet t) {i ttl : Nat} : s.quiet (t.resolveProt i ttl).1 := by
  unfold State.resolveProt
  generalize hx : t.nhEnt 3 i = x
  obtain ⟨s1, e⟩ := x
  have h1 := fst_of h.nhEnt hx
  exact fst_ite h1.resolveErr h1.resolveNh

theorem resolveEcmp (h : s.quiet t) {i hash ttl : Nat} : s.quiet (t.resolveEcmp i hash ttl).1 := by
  unfold State.resolveEcmp
  generalize hx : t.nhEnt 1 i = x
  obtain ⟨s1, e⟩ := x
  have h1 := fst_of h.nhEnt hx
  refine fst_ite h1.resolveErr ?_
  simp only []
  generalize hy : s1.nhEnt 2 _ = y
  obtain ⟨s2, m⟩ := y
  have h2 := fst_of h1.nhEnt hy
  exact fst_ite h2.resolveErr (fst_ite h2.resolveProt h2.resolveNh)

theorem resolve (h : s.quiet t) {res hash ttl : Nat} : s.quiet (t.resolve res hash ttl).1 := by
  unfold State.resolve
  split
  · exact h.resolveNh
  · exact h.resolveEcmp
  · exact h.resolveProt
  · exact h.resolveStop
  · exact h.resolveStop
  · exact h.resolveErr

theorem routePkt (h : s.quiet t) {old : Bool} {rank : Nat} {k : Pkt} {p : Parsed} {c : Cls} : s.quiet (t.routePkt old rank k p c).1 := by
  unfold State.routePkt
  simp only []
  split
  · exact h
  · split
    · exact h
    · split
      · exact h.terrLookup
      · split
        · exact h.terrLookup.bump
        · exact h.terrLookup.resolve

theorem saCheck (h : s.quiet t) {i : Nat} {k : Pkt} {p : Parsed} {c : Cls} : s.quiet (t.saCheck i k p c).1 := by
  unfold State.saCheck
  simp only []
  split
  · exact h
  · exact .ite (learnPut (.ite h.exmTouch h)) (.ite h.exmTouch h)

/-! ## Egress (R131, R153 to R155) -/

theorem egressAcl (h : s.quiet t) {k : Pkt} {p : Parsed} : s.quiet (t.egressAcl k p).1 := by
  unfold State.egressAcl
  simp only []
  split
  · exact h
  · exact h.aclRun.bumpIf

theorem encapMiss (h : s.quiet t) : s.quiet t.encapMiss := h.bump.setInt

theorem encapChain (h : s.quiet t) {k i : Nat} : s.quiet (t.encapChain k i).1 := by
  induction k generalizing t i with
  | zero => exact h
  | succ k ih =>
    unfold State.encapChain
    generalize hx : t.nhEnt 4 i = x
    obtain ⟨s1, e⟩ := x
    have h1 := fst_of h.nhEnt hx
    exact fst_ite h1 (fst_ite h1 (ih h1))

theorem encapBuild (h : s.quiet t) {b : List Byte} {hv : List Hdr} {tc e : Nat} {chain : List Nat} : s.quiet (t.encapBuild b hv tc e chain).1 := by
  unfold State.encapBuild
  generalize hx : t.nhEnt 5 (bits e 196 8) = x
  obtain ⟨s1, sa⟩ := x
  have h1 := fst_of h.nhEnt hx
  simp only []
  exact fst_ite h.bump (fst_ite h1.encapMiss h1.draw.draw)

theorem encap (h : s.quiet t) {b : List Byte} {hv : List Hdr} {tc hint : Nat} : s.quiet (t.encap b hv tc hint).1 := by
  unfold State.encap
  simp only []
  have h1 : s.quiet (t.encapChain 4 (hint % 2 ^ 17)).1 := h.encapChain
  split
  · exact h
  · split
    · exact h
    · split
      · exact h.encapMiss
      · split
        next heq =>
          rw [heq] at h1
          exact fst_ite h1 h1.encapBuild
        next heq =>
          rw [heq] at h1
          exact h1.encapMiss

/-! ## Dispatch and the end of a context (R183, R195) -/

theorem progEntry (h : s.quiet t) {c copy n : Nat} : s.quiet (t.progEntry c copy n).1 := h.readWord

theorem prevBusy (h : s.quiet t) {c : Nat} : s.quiet (t.prevBusy c) := h.setF

theorem setThr (h : s.quiet t) {i : ApId} {x : ApThread} : s.quiet (t.setThr i x) := h.trans rfl

theorem setSup (h : s.quiet t) {c a : Nat} {x : ApSup} : s.quiet (t.setSup c a x) := h.trans rfl

theorem setCtx (h : s.quiet t) {i : ApId} {x : ApCtx} : s.quiet (t.setCtx i x) := by
  unfold State.setCtx
  split
  · exact h.trans rfl
  · exact h.setThr

theorem setChan (h : s.quiet t) {c ch : Nat} {l : List ChanSlot} : s.quiet (t.setChan c ch l) :=
  have h1 : ∀ x, s.quiet { t with chans := x } := fun _ => h.trans rfl
  setF (.ite (h1 _) (h1 _).bump)

theorem revokeAll (h : s.quiet t) {i : ApId} : s.quiet (t.revokeAll i) := foldl (fun u _ => (refl u).setChan) h _

theorem releaseAll (h : s.quiet t) {i : ApId} : s.quiet (t.releaseAll i) := h.trans rfl

theorem endCtx (h : s.quiet t) {i : ApId} : s.quiet (t.endCtx i) := h.releaseAll.revokeAll.setCtx

theorem killCtxs (h : s.quiet t) {c : Nat} : s.quiet (t.killCtxs c) := foldl (fun u _ => (refl u).endCtx) h _

theorem wfeCheck (h : s.quiet t) {i : ApId} : s.quiet (t.wfeCheck i) := by
  unfold State.wfeCheck
  simp only []
  split
  · exact h
  · exact .ite h (.ite h.setThr h.setThr.setSup)

theorem postEvent (h : s.quiet t) {i : ApId} {b : Nat} : s.quiet (t.postEvent i b) := h.setThr.wfeCheck

end State.quiet

end Sys2Proof.Machine
end

section
/-! SUPPORT. The judgment of a tick (R44, R404, R405). -/
namespace Sys2Proof.Machine

/-- The registers that a judgment may change. -/
def judgeReg (x : Nat) : Bool :=
  x == Rg.TICK_STAT || x == Rg.TICK_PHASE || x == Rg.TICK_PHASE_ANOM_CNT || x == Rg.TICK_TAG_ERR_CNT || x == Rg.TICK_TIS_ERR_CNT ||
    x == Rg.TICK_MISSING_EDGE_CNT || cntReg Pg.TICK x

theorem judgeReg_cnt (x : Nat) (h : judgeReg x = false) : cntReg Pg.TICK x = false := (Bool.or_eq_false_iff.1 h).2

/-- What a verdict must find to lengthen the run of good ticks (R44). -/
def Verdict.good (v : Verdict) : Bool := v.edge && v.one && v.phaseOk && v.tagOk && v.tisOk

/-- The counters of a judgment: the runs stand apart. -/
def State.judgeEvents (s : State) (v : Verdict) : State :=
  let s1 := if v.edge then s.setF Rg.TICK_PHASE Fd.TICK_PHASE_PHASE (unsigned 16 v.phase) else s.bump Rg.TICK_MISSING_EDGE_CNT
  ((s1.bumpIf (v.edge && !v.phaseOk) Rg.TICK_PHASE_ANOM_CNT).bumpIf (v.edge && !v.tagOk) Rg.TICK_TAG_ERR_CNT).bumpIf
    (v.edge && v.tagOk && !v.tisOk) Rg.TICK_TIS_ERR_CNT

theorem judgeCounts_eq (s : State) (v : Verdict) : s.judgeCounts v =
    ((s.judgeEvents v).setF Rg.TICK_STAT Fd.TICK_STAT_GOOD_RUN (if v.good then min 64 (s.f Rg.TICK_STAT Fd.TICK_STAT_GOOD_RUN + 1) else 0)).setF
      Rg.TICK_STAT Fd.TICK_STAT_ANOM_RUN (if v.good then 0 else min 31 (s.f Rg.TICK_STAT Fd.TICK_STAT_ANOM_RUN + 1)) := rfl

theorem judgeEvents_frame (s : State) (v : Verdict) :
    State.onlyRegs judgeReg s (s.judgeEvents v) ∧ (s.judgeEvents v).rd Rg.TICK_STAT = s.rd Rg.TICK_STAT := by
  have hcnt : ∀ x, judgeReg x = false → cntReg Pg.TICK x = false := judgeReg_cnt
  have hbump : ∀ {t : State} {c : Bool} {a : Nat}, ownReg Rg.TICK_STAT = true → a % 0x1000 < 0x800 → Rg.TICK_STAT ≠ a →
      t.rd Rg.TICK_STAT = s.rd Rg.TICK_STAT → (t.bumpIf c a).rd Rg.TICK_STAT = s.rd Rg.TICK_STAT :=
    fun ho hlt hne h => (rd_bumpIf_own ho hlt hne).trans h
  constructor
  · refine (((State.onlyRegs.ite ?_ ?_).bumpIf (by decide) rfl hcnt).bumpIf (by decide) rfl hcnt).bumpIf (by decide) rfl hcnt
    · exact (onlyRegs_refl _ s).setF rfl
    · exact (onlyRegs_refl _ s).bump (by decide) rfl hcnt
  · refine hbump (by decide) (by decide) (by decide) (hbump (by decide) (by decide) (by decide) (hbump (by decide) (by decide) (by decide) ?_))
    split
    · exact rd_setF_other _ _ _ _ _ (by decide)
    · exact rd_bump_own (by decide) (by decide) (by decide)

/-- What the counters and runs of a judgment leave and show. -/
theorem judgeCounts_shows (s : State) (v : Verdict) :
    State.onlyRegs judgeReg s (s.judgeCounts v) ∧ (s.judgeCounts v).tkState = s.tkState ∧
    (s.judgeCounts v).f Rg.TICK_STAT Fd.TICK_STAT_GOOD_RUN = (if v.good then min 64 (s.f Rg.TICK_STAT Fd.TICK_STAT_GOOD_RUN + 1) else 0) ∧
    (s.judgeCounts v).f Rg.TICK_STAT Fd.TICK_STAT_ANOM_RUN = (if v.good then 0 else min 31 (s.f Rg.TICK_STAT Fd.TICK_STAT_ANOM_RUN + 1)) := by
  obtain ⟨hframe, hstat⟩ := judgeEvents_frame s v
  rw [judgeCounts_eq]
  refine ⟨(hframe.setF rfl).setF rfl, ?_, ?_, ?_⟩
  · rw [State.tkState, f_setF_disjoint _ _ _ _ _ (by decide) (by decide), f_setF_disjoint _ _ _ _ _ (by decide) (by decide), f_of_rd hstat, State.tkState]
  · rw [f_setF_disjoint _ _ _ _ _ (by decide) (by decide), f_setF_same _ _ _ _ (by decide)]
    refine Nat.mod_eq_of_lt (lt_of_le_of_lt (b := 64) ?_ (by decide))
    split <;> omega
  · rw [f_setF_same _ _ _ _ (by decide)]
    refine Nat.mod_eq_of_lt (lt_of_le_of_lt (b := 31) ?_ (by decide))
    split <;> omega

theorem judgeCounts_missing (s : State) (v : Verdict) (hv : v.edge = false) (hp : s.pageOn (Pg.TICK / 0x1000) = true) :
    (s.judgeCounts v).rd Rg.TICK_MISSING_EDGE_CNT = (s.rd Rg.TICK_MISSING_EDGE_CNT + 1) % 2 ^ 32 := by
  rw [judgeCounts_eq, rd_setF_other _ _ _ _ _ (by decide), rd_setF_other _ _ _ _ _ (by decide)]
  simp only [State.judgeEvents, hv, Bool.false_and, State.bumpIf, Bool.false_eq_true, if_false]
  exact bump_rd_own s _ 1 (by decide) (by decide) (by decide) hp

/-- The registers that the entry of an alignment state may change. -/
def tkEnterReg (x : Nat) : Bool := x == Rg.TICK_STAT || x == Rg.TICK_HOLDOVER_CNT || cntReg Pg.TICK x || logReg x

/-- The entry of an alignment state keeps the time base, the runs and every count but HOLDOVER_CNT. -/
theorem tkEnter_shows (s : State) (st : Nat) : (s.tkEnter st).tk = s.tk ∧
    (∀ x, tkEnterReg x = false → (s.tkEnter st).rd x = s.rd x) ∧
    ∀ fl : Fld, 3 ≤ fl.lo → fl.lo + fl.w ≤ 32 → (s.tkEnter st).f Rg.TICK_STAT fl = s.f Rg.TICK_STAT fl := by
  have hcnt : ∀ x, tkEnterReg x = false → cntReg Pg.TICK x = false := fun x h => by
    simp only [tkEnterReg, Bool.or_eq_false_iff] at h
    exact h.1.2
  have hint : ∀ x, tkEnterReg x = false → intReg Pg.TICK x = false := fun x h => cntReg_int _ x (hcnt x h)
  have h1 : s.eventFrame tkEnterReg (s.setF Rg.TICK_STAT Fd.TICK_STAT_STATE st) := .ofOnlyRegs ((onlyRegs_refl _ s).setF rfl)
  have hframe : s.eventFrame tkEnterReg (s.tkEnter st) := by
    refine .ite (h1.regs ((onlyRegs_refl _ _).setInt hint)) (.ite ?_ h1)
    exact (h1.regs (((onlyRegs_refl _ _).bump (by decide) rfl hcnt).setInt hint)).log fun x h => (Bool.or_eq_false_iff.1 h).2
  refine ⟨hframe.proj State.tk, hframe.2, fun fl h3 h32 => ?_⟩
  have hset : (s.setF Rg.TICK_STAT Fd.TICK_STAT_STATE st).f Rg.TICK_STAT fl = s.f Rg.TICK_STAT fl := f_setF_disjoint _ _ _ _ _ h32 (.inl h3)
  have hstat : (s.tkEnter st).rd Rg.TICK_STAT = (s.setF Rg.TICK_STAT Fd.TICK_STAT_STATE st).rd Rg.TICK_STAT := by
    simp only [State.tkEnter]
    split_ifs
    · exact rd_setInt_own (by decide) (by decide)
    · rw [rd_log_own (by decide) (by decide), rd_setInt_own (by decide) (by decide), rd_bump_own (by decide) (by decide) (by decide)]
    · rfl
  exact (f_of_rd hstat fl).trans hset

/-- Without an edge the state machine of R45 stays or enters HOLDOVER. -/
theorem judgeMove_noEdge (s : State) (v : Verdict) (b : Bound) (later : List Bound) (hv : v.edge = false)
    (hg : s.f Rg.TICK_STAT Fd.TICK_STAT_GOOD_RUN = 0) : s.judgeMove v b later = s ∨ s.judgeMove v b later = s.tkEnter tkHoldover := by
  simp only [State.judgeMove, hv, hg, Bool.false_and, Bool.not_false, if_true, Bool.false_eq_true, if_false]
  split_ifs <;> simp_all

/-- In LOCKED a good tick corrects the phase and nothing else (R405). -/
theorem judgeMove_locked (s : State) (v : Verdict) (b : Bound) (later : List Bound) (hst : s.tkState = tkLocked) (hgood : v.good = true)
    (hanom : s.f Rg.TICK_STAT Fd.TICK_STAT_ANOM_RUN = 0) (hno : s.tk.noEdge = 0) :
    s.judgeMove v b later = s.correct (clampInt (s.f Rg.TICK_CTRL Fd.TICK_CTRL_WINDOW) (v.phase - b.fixed)) := by
  rw [Verdict.good] at hgood
  simp [State.judgeMove, hst, hanom, hno, hgood]

/-- The verdict on a tick that no edge belongs to. -/
theorem verdict_nil (s : State) (b : Bound) : s.verdict b [] = ⟨false, false, 0, false, false, false⟩ := rfl

/-- The verdict on a tick of a LOCKED device with one edge in the window and a valid tag of the next TIS. -/
theorem verdict_good (s : State) (b : Bound) (e : SyncEdge) (w : Nat) (ht : e.tag = some (w, true)) (hst : s.tkState = tkLocked)
    (htis : tagTis w = (b.tis + 1) % 64) (hwin : ((b.time : Int) - (e.time + s.skew)).natAbs ≤ s.f Rg.TICK_CTRL Fd.TICK_CTRL_WINDOW) :
    s.verdict b [e] = ⟨true, true, (b.time : Int) - (e.time + s.skew), true, true, true⟩ := by
  simp [State.verdict, ht, hst, htis, hwin]

/-- The time base of `u` after the judgment in `s` of the tick that `b` begins, with the edges `es`, before the state machine acts. -/
def State.settled (u s : State) (b : Bound) (later : List Bound) (es : List SyncEdge) : State :=
  let v := s.verdict b es
  let tag := (es.getLast?.bind (·.tag)).bind fun t => if t.2 then some t.1 else none
  { u with tk := { u.tk with
      bounds := later
      edges := s.tk.edges.filter fun (e : SyncEdge) => decide (((e.time : Int) + s.skew) > b.time + 1023)
      noEdge := if v.edge then 0 else s.tk.noEdge + 1
      prevEdge := (es.getLast?.map SyncEdge.time).or s.tk.prevEdge
      lastTis := (tag.map tagTis).or s.tk.lastTis
      tisAge := if tag.isSome then 0 else s.tk.tisAge + 1 } }

theorem settled_shows (u s : State) (b : Bound) (later : List Bound) (es : List SyncEdge) :
    (∀ x, (u.settled s b later es).rd x = u.rd x) ∧ (u.settled s b later es).tk.bounds = later ∧ (u.settled s b later es).tk.fixed = u.tk.fixed ∧
      (u.settled s b later es).tk.noEdge = if (s.verdict b es).edge then 0 else s.tk.noEdge + 1 := ⟨fun _ => rfl, rfl, rfl, rfl⟩

/-- The edges that belong to the tick that boundary `b` begins (R404). -/
def State.ownEdges (s : State) (b : Bound) : List SyncEdge :=
  s.tk.edges.filter fun e => decide ((b.time : Int) - 1024 ≤ e.time + s.skew ∧ e.time + s.skew ≤ b.time + 1023)

theorem judge_eq (s : State) (b : Bound) (later : List Bound) (h : s.tk.bounds = b :: later) :
    s.judge = ((s.judgeCounts (s.verdict b (s.ownEdges b))).settled s b later (s.ownEdges b)).judgeMove (s.verdict b (s.ownEdges b)) b later := by
  unfold State.judge
  rw [h]
  rfl

/-- A tick without an edge. -/
theorem judge_noEdge (s : State) (b : Bound) (later : List Bound) (hb : s.tk.bounds = b :: later) (hp : s.pageOn (Pg.TICK / 0x1000) = true)
    (he : s.ownEdges b = []) : s.judge.tk.bounds = later ∧ s.judge.tk.noEdge = s.tk.noEdge + 1 ∧
      s.judge.rd Rg.TICK_MISSING_EDGE_CNT = (s.rd Rg.TICK_MISSING_EDGE_CNT + 1) % 2 ^ 32 ∧
      s.judge.f Rg.TICK_STAT Fd.TICK_STAT_GOOD_RUN = 0 ∧
      s.judge.f Rg.TICK_STAT Fd.TICK_STAT_ANOM_RUN = min 31 (s.f Rg.TICK_STAT Fd.TICK_STAT_ANOM_RUN + 1) := by
  rw [judge_eq s b later hb, he]
  obtain ⟨hframe, -, hgood, hanom⟩ := judgeCounts_shows s (s.verdict b [])
  have hmiss := judgeCounts_missing s (s.verdict b []) rfl hp
  obtain ⟨hrd, hbounds, -, hno⟩ := settled_shows (s.judgeCounts (s.verdict b [])) s b later []
  generalize (s.judgeCounts (s.verdict b [])).settled s b later [] = u at *
  have hgood' : u.f Rg.TICK_STAT Fd.TICK_STAT_GOOD_RUN = 0 := (f_of_rd (hrd _) _).trans hgood
  rcases judgeMove_noEdge u (s.verdict b []) b later rfl hgood' with h | h
  · rw [h]
    exact ⟨hbounds, hno, (hrd _).trans hmiss, hgood', (f_of_rd (hrd _) _).trans hanom⟩
  · obtain ⟨ht, hx, hf⟩ := tkEnter_shows u tkHoldover
    rw [h, ht, hx _ (by decide), hf _ (by decide) (by decide), hf _ (by decide) (by decide)]
    exact ⟨hbounds, hno, (hrd _).trans hmiss, hgood', (f_of_rd (hrd _) _).trans hanom⟩

theorem correct_shows (s : State) (amt : Int) : (s.correct amt).regs = s.regs ∧ (s.correct amt).part = s.part ∧
    (s.correct amt).tk.bounds = s.tk.bounds ∧ (s.correct amt).tk.noEdge = s.tk.noEdge ∧
    (if s.tk.fixed then (s.correct amt).tk.nextCorr else (s.correct amt).tk.corr) = amt := by
  unfold State.correct
  split <;> exact ⟨rfl, rfl, rfl, rfl, rfl⟩

/-- A good tick in LOCKED. -/
theorem judge_locked (s : State) (b : Bound) (later : List Bound) (e : SyncEdge) (w : Nat) (hb : s.tk.bounds = b :: later)
    (he : s.ownEdges b = [e]) (ht : e.tag = some (w, true)) (hst : s.tkState = tkLocked) (htis : tagTis w = (b.tis + 1) % 64)
    (hwin : ((b.time : Int) - (e.time + s.skew)).natAbs ≤ s.f Rg.TICK_CTRL Fd.TICK_CTRL_WINDOW) :
    s.judge.tk.bounds = later ∧ s.judge.tkState = tkLocked ∧ s.judge.tk.noEdge = 0 ∧
      s.judge.f Rg.TICK_STAT Fd.TICK_STAT_GOOD_RUN = min 64 (s.f Rg.TICK_STAT Fd.TICK_STAT_GOOD_RUN + 1) ∧
      s.judge.f Rg.TICK_STAT Fd.TICK_STAT_ANOM_RUN = 0 ∧
      (if s.tk.fixed then s.judge.tk.nextCorr else s.judge.tk.corr) =
        clampInt (s.f Rg.TICK_CTRL Fd.TICK_CTRL_WINDOW) ((b.time : Int) - (e.time + s.skew) - b.fixed) := by
  have hv := verdict_good s b e w ht hst htis hwin
  obtain ⟨hframe, hstate, hgood, hanom⟩ := judgeCounts_shows s (s.verdict b [e])
  obtain ⟨hrd, hbounds, hfix, hno⟩ := settled_shows (s.judgeCounts (s.verdict b [e])) s b later [e]
  have hg : (s.verdict b [e]).good = true := by rw [hv]; rfl
  rw [if_pos hg] at hgood hanom
  rw [if_pos (congrArg Verdict.edge hv)] at hno
  have hfixed := hfix.trans (congrArg TickSt.fixed (onlyRegs_proj hframe State.tk))
  rw [judge_eq s b later hb, he]
  generalize (s.judgeCounts (s.verdict b [e])).settled s b later [e] = u at *
  have hwin' : u.f Rg.TICK_CTRL Fd.TICK_CTRL_WINDOW = s.f Rg.TICK_CTRL Fd.TICK_CTRL_WINDOW :=
    f_of_rd ((hrd _).trans (hframe.2 _ (by decide))) _
  have hst' : u.tkState = tkLocked := (f_of_rd (hrd _) _).trans (hstate.trans hst)
  rw [judgeMove_locked _ _ b later hst' hg ((f_of_rd (hrd _) _).trans hanom) hno, hwin', hv]
  obtain ⟨hregs, hpart, hbounds', hnoE, hcorr⟩ := correct_shows u
    (clampInt (s.f Rg.TICK_CTRL Fd.TICK_CTRL_WINDOW) ((b.time : Int) - (e.time + s.skew) - b.fixed))
  have hrd' := rd_congr hpart hregs
  exact ⟨hbounds'.trans hbounds, (f_of_rd (hrd' _) _).trans hst', hnoE.trans hno, (f_of_rd ((hrd' _).trans (hrd _)) _).trans hgood,
    (f_of_rd ((hrd' _).trans (hrd _)) _).trans hanom, hfixed ▸ hcorr⟩

/-- Settles O14: a tick without an edge, and a good tick in LOCKED. -/
theorem tickJudgment : Obligations.TickJudgment := by
  refine ⟨fun s h => ?_, fun s b later hb hp => ⟨fun he => ⟨_, rfl, judge_noEdge s b later hb hp he⟩, fun e w he ht hst htis hwin => ?_⟩⟩
  · exact congrArg Host.Outcome.next (by rw [State.judge, h])
  · exact ⟨_, rfl, judge_locked s b later e w hb he ht hst htis hwin⟩

end Sys2Proof.Machine
end

section
/-! SUPPORT. SYNC_OUT, TICK_GEN_CMT and the tick plan (R23, R41, R48, R49, R405). -/
namespace Sys2Proof.Machine

theorem crc8Step_lt {c : Nat} (b : Bool) : crc8Step c b < 256 := by
  have hmod : c * 2 % 256 < 2 ^ 8 := Nat.mod_lt _ (by decide)
  simp only [crc8Step]
  split
  · exact Nat.xor_lt_two_pow hmod (by decide)
  · exact hmod

theorem foldl_crc8Step_lt (l : List Bool) {c : Nat} (hc : c < 256) : l.foldl crc8Step c < 256 := by
  induction l generalizing c with
  | nil => exact hc
  | cons b l ih => exact ih (crc8Step_lt b)

theorem tagCrc_lt (w : Nat) : tagCrc w < 256 := foldl_crc8Step_lt _ (by decide)

/-- A tag that the device builds carries its own CRC (R41). -/
theorem tagCrc_mkTag (tis epoch commit : Nat) : tagCrc (mkTag tis epoch commit) = mkTag tis epoch commit % 256 := by
  have key : ∀ h, h % 256 = 0 → tagCrc (h + tagCrc h) = (h + tagCrc h) % 256 := fun h hh => by
    have hlt := tagCrc_lt h
    have hdiv : (h + tagCrc h) / 256 = h / 256 := by omega
    have hcrc : tagCrc (h + tagCrc h) = tagCrc h := congrArg (fun x => (bitsOf 24 x).foldl crc8Step 0) hdiv
    omega
  exact key _ (by omega)

theorem tagCrc_ownTag (s : State) : tagCrc s.ownTag = s.ownTag % 256 := by
  unfold State.ownTag
  simp only []
  split
  · split <;> exact tagCrc_mkTag _ _ _
  · exact tagCrc_mkTag _ _ _

/-- The state in which SYNC_OUT sends: a request of TICK_GEN_CMT is taken by the tag that leaves (R48). -/
theorem syncOut_shows (s : State) (cells : List (Bool × Bool)) (timely : Bool) : (s.syncOut cells timely).regs = s.regs ∧
    (s.f Rg.TICK_CTRL Fd.TICK_CTRL_OUT_MODE = 0 → (s.syncOut cells timely).out = .pin "SYNC_OUT" false :: s.out) ∧
    (2 ≤ s.f Rg.TICK_CTRL Fd.TICK_CTRL_OUT_MODE → (s.syncOut cells timely).out =
      .sync (s.tk.start + s.tickLen - s.f Rg.TICK_SKEW Fd.TICK_SKEW_OUT_ADV) s.ownTag false :: s.out) := by
  unfold State.syncOut
  simp only []
  refine ⟨?_, fun h0 => ?_, fun h2 => ?_⟩
  · split_ifs <;> rfl
  · rw [if_pos h0]
    rfl
  · rw [if_neg (by omega), if_neg (by omega)]
    rfl

/-- TICK_GEN_CMT with GO: the tag that takes the commit, or the refusal (R48). -/
theorem tickGenCmt_shows (s : State) (clk v : Nat) (hp : s.pageOn (Pg.TICK / 0x1000) = true) (hgo : bit v 31 = true) :
    (s.tk.mode = 2 ∧ epochLater (v % 4096) (s.f Rg.CMT_EPOCH Fd.CMT_EPOCH_SYS) = true → s.tickGenCmt clk v = s.genNext clk (v % 4096)) ∧
    (¬(s.tk.mode = 2 ∧ epochLater (v % 4096) (s.f Rg.CMT_EPOCH Fd.CMT_EPOCH_SYS) = true) →
      bit ((s.tickGenCmt clk v).rd (Pg.TICK + 0x010)) Ib.TICK_REFUSED = true ∧ State.onlyRegs (intReg Pg.TICK) s (s.tickGenCmt clk v)) := by
  rw [State.tickGenCmt, if_neg (by simp [hgo])]
  constructor
  · exact fun h => if_pos h
  · intro h
    rw [if_neg h]
    exact ⟨setInt_bit s Pg.TICK Ib.TICK_REFUSED (by decide) (by decide) hp, onlyRegs_setInt s _ _⟩

/-- The tag that carries a commit requested in clock `clk` (R39, R48). -/
theorem genNext_shows (s : State) (clk e : Nat) :
    (s.tk.sentTag.isSome = true → clk + s.f Rg.TICK_SKEW Fd.TICK_SKEW_OUT_ADV < s.tickLen + 200 →
      s.genNext clk e = { s with tk := (s.genNext clk e).tk, out := (s.genNext clk e).out } ∧ (s.genNext clk e).tk.genCmt = s.tk.genCmt ∧
        (s.genNext clk e).tk.sentTag = some (mkTag (s.f Rg.TICK_STAT Fd.TICK_STAT_TIS + 2) e 1)) ∧
    (s.tk.sentTag = none → s.tk.curTag.isSome = true → clk + s.f Rg.TICK_SKEW Fd.TICK_SKEW_OUT_ADV < 200 →
      (s.genNext clk e).tk.curTag = some (mkTag (s.f Rg.TICK_STAT Fd.TICK_STAT_TIS + 1) e 1) ∧ (s.genNext clk e).tk.genCmt = s.tk.genCmt ∧
        State.onlyRegs (fun x => x == Rg.TICK_LAST_TAG) { s with tk := (s.genNext clk e).tk, out := (s.genNext clk e).out } (s.genNext clk e)) ∧
    (¬(s.tk.sentTag.isSome = true ∧ clk + s.f Rg.TICK_SKEW Fd.TICK_SKEW_OUT_ADV < s.tickLen + 200) →
      ¬(s.tk.sentTag = none ∧ s.tk.curTag.isSome = true ∧ clk + s.f Rg.TICK_SKEW Fd.TICK_SKEW_OUT_ADV < 200) →
      s.genNext clk e = { s with tk := (s.genNext clk e).tk } ∧ (s.genNext clk e).tk.genCmt = some e) := by
  unfold State.genNext
  simp only []
  refine ⟨fun h1 h2 => ?_, fun h1 h2 h3 => ?_, fun h1 h2 => ?_⟩
  · rw [if_pos ⟨h1, h2⟩]
    exact ⟨rfl, rfl, rfl⟩
  · rw [if_neg (by simp [h1]), if_pos ⟨h1, h2, h3⟩]
    exact ⟨rfl, rfl, onlyRegs_wr _ _ _ rfl⟩
  · rw [if_neg h1, if_neg h2]
    exact ⟨rfl, rfl⟩

/-- Settles O15: each command by its lemma above. -/
theorem syncOutputAndPlan : Obligations.SyncOutputAndPlan := by
  refine ⟨fun s cells timely => ⟨_, rfl, syncOut_shows s cells timely⟩, tagCrc_ownTag, fun s a v hm hgo => ?_,
    fun s viaLink viaMgmt => ⟨_, rfl, rfl, rfl, rfl, rfl, rfl⟩⟩
  obtain ⟨hgen, href⟩ := tickGenCmt_shows s a.clk v.toNat (mayWrite_pageOn hm) hgo
  refine ⟨_, congrArg Host.Outcome.next (onWrite_of s a _ _ hm), fun h => ?_, href⟩
  rw [hgen h]
  exact genNext_shows s a.clk (v.toNat % 4096)

end Sys2Proof.Machine
end

section
/-! SUPPORT. Writes of registers that may have staged fields: what the live fields show, and what stays. -/
namespace Sys2Proof.Machine

theorem rd_lateWrite_own {s : State} {x : Nat} (hx : ownReg x = true) (hne : x ≠ Rg.CMT_LATE_WRITE_CNT) : s.lateWrite.rd x = s.rd x := by
  rw [State.lateWrite, rd_setInt_own hx (by decide), rd_bump_own hx (by decide) hne]

theorem rd_stageWrite_own {s : State} {x : Nat} (r : RegDef) (a v : Nat) (b : Bool) (hx : ownReg x = true) (hne : x ≠ Rg.CMT_LATE_WRITE_CNT) :
    (s.stageWrite r a v b).rd x = s.rd x := by
  unfold State.stageWrite
  simp only []
  split_ifs
  · rfl
  · rfl
  · exact rd_lateWrite_own hx hne

/-- A write of a register's fields, live and staged (R16, R17, R58). -/
theorem fieldWrite_of {addr : Nat} {r : RegDef} (hr : findReg addr = some r) (s : State) (v : Nat) :
    s.fieldWrite addr v = State.setIntIf (if r.staged then (s.wr addr (r.writeLive (s.rd addr) v)).stageWrite r addr v false
      else s.wr addr (r.writeLive (s.rd addr) v)) (r.reserved v) (addr / 0x1000 * 0x1000) 29 := by
  unfold State.fieldWrite
  dsimp only
  rw [if_neg (by simpa using findReg_off hr), hr]

theorem rd_fieldWrite_own {addr x : Nat} {r : RegDef} (hr : findReg addr = some r) (s : State) (v : Nat) (hx : ownReg x = true)
    (hne : x ≠ Rg.CMT_LATE_WRITE_CNT) :
    (s.fieldWrite addr v).rd x = if x = addr then r.writeLive (s.rd addr) v % 2 ^ 32 else s.rd x := by
  rw [fieldWrite_of hr, rd_setIntIf_own hx (Nat.mul_mod_left _ _)]
  split
  · rw [rd_stageWrite_own _ _ _ _ hx hne, rd_wr]
  · rw [rd_wr]

end Sys2Proof.Machine
end

section
/-! SUPPORT. The checker's result, COMMIT_MODE, the decision point and the end of a discard (R56, R60, R62, R63). -/
namespace Sys2Proof.Machine

/-! ## The checker -/

/-- The first failure of a list stands at its lowest register. -/
theorem firstFail_shows {l : List Fail} (h : l ≠ []) : ∃ f ∈ l, (∀ g ∈ l, f.2 ≤ g.2) ∧ firstFail l = some f := by
  have key : ∀ (l : List Fail) (b : Fail), ∃ f, (f = b ∨ f ∈ l) ∧ f.2 ≤ b.2 ∧ (∀ g ∈ l, f.2 ≤ g.2) ∧
      l.foldl (fun b f => match b with
        | none => some f
        | some g => if f.2 < g.2 then some f else b) (some b) = some f := fun l => by
    induction l with
    | nil => exact fun b => ⟨b, .inl rfl, Nat.le_refl _, fun g hg => (List.not_mem_nil hg).elim, rfl⟩
    | cons x l ih =>
      intro b
      by_cases hx : x.2 < b.2
      · obtain ⟨f, hmem, hle, hall, he⟩ := ih x
        refine ⟨f, .inr (by rcases hmem with rfl | h <;> simp_all), by omega, fun g hg => ?_, by simpa [hx] using he⟩
        rcases List.mem_cons.1 hg with rfl | hg
        · exact hle
        · exact hall g hg
      · obtain ⟨f, hmem, hle, hall, he⟩ := ih b
        refine ⟨f, hmem.imp_right (List.mem_cons_of_mem _), hle, fun g hg => ?_, by simpa [hx] using he⟩
        rcases List.mem_cons.1 hg with rfl | hg
        · omega
        · exact hall g hg
  cases l with
  | nil => exact absurd rfl h
  | cons x l =>
    obtain ⟨f, hmem, hle, hall, he⟩ := key l x
    refine ⟨f, List.mem_cons.2 hmem, fun g hg => ?_, he⟩
    rcases List.mem_cons.1 hg with rfl | hg
    · exact hle
    · exact hall g hg

/-- The result of the checker for the failures `l` that it found. -/
def State.checkResult (s : State) (l : List Fail) : State :=
  (((s.wr Rg.CMT_CHECK_STAT (2 ^ 31 + b2n l.isEmpty * 2 ^ 30 + min 0xFFFF l.length)).wr Rg.CMT_CHECK_FIRST ((firstFail l).map failWord |>.getD 0)).setF
    Rg.CMT_STAT Fd.CMT_STAT_STATE (if l.isEmpty then 3 else 2)).setInt Pg.CMT Ib.CMT_CHECK_DONE

theorem checkDone_eq (s : State) (h : s.cmtState = cmChecking) : s.checkDone = s.checkResult s.check := by
  have hst : ¬ s.f Rg.CMT_STAT Fd.CMT_STAT_STATE ≠ 1 := not_not.2 h
  simp only [State.checkDone, if_neg hst, State.checkResult]

theorem pageOn_wr_cmt (s : State) (a v : Nat) (fl : Fld) (x b : Nat) : (((s.wr Rg.CMT_CHECK_STAT a).wr Rg.CMT_CHECK_FIRST v).setF Rg.CMT_STAT fl x).pageOn b = s.pageOn b :=
  pageOn_of_onlyRegs (P := fun x => x == Rg.CMT_CHECK_STAT || x == Rg.CMT_CHECK_FIRST || x == Rg.CMT_STAT)
    ((((onlyRegs_refl _ s).wr rfl).wr rfl).setF rfl) (by decide) b

/-- What the result shows: DONE, PASS, the first failure and the state (R56, R60). -/
theorem checkResult_shows (s : State) (l : List Fail) (hp : s.pageOn (Pg.CMT / 0x1000) = true) :
    (s.checkResult l).fb Rg.CMT_CHECK_STAT Fd.CMT_CHECK_STAT_DONE = true ∧ bit ((s.checkResult l).rd (Pg.CMT + 0x010)) Ib.CMT_CHECK_DONE = true ∧
    (s.checkResult l).cmtState = (if l.isEmpty then cmClosed else cmCheckFail) ∧
    (s.checkResult l).fb Rg.CMT_CHECK_STAT Fd.CMT_CHECK_STAT_PASS = l.isEmpty ∧
    (s.checkResult l).rd Rg.CMT_CHECK_FIRST = ((firstFail l).map failWord |>.getD 0) % 2 ^ 32 ∧
    State.onlyRegs (fun x => x == Rg.CMT_STAT || x == Rg.CMT_CHECK_STAT || x == Rg.CMT_CHECK_FIRST || intReg Pg.CMT x) s (s.checkResult l) := by
  have hstat : (s.checkResult l).rd Rg.CMT_CHECK_STAT = (2 ^ 31 + b2n l.isEmpty * 2 ^ 30 + min 0xFFFF l.length) % 2 ^ 32 := by
    rw [State.checkResult, rd_setInt_own (by decide) (by decide), rd_setF_other _ _ _ _ _ (by decide), rd_wr_other _ _ _ _ (by decide), rd_wr_same]
  have hpass : b2n l.isEmpty < 2 := b2n_lt _
  refine ⟨?_, setInt_bit _ _ _ (by decide) (by decide) ((pageOn_wr_cmt _ _ _ _ _ _).trans hp), ?_, ?_, ?_, ?_⟩
  · rw [State.fb, State.f, hstat]
    simp only [bits, beq_iff_eq]
    omega
  · rw [State.cmtState, State.checkResult, f_of_rd (rd_setInt_own (by decide) (by decide)), f_setF_same _ _ _ _ (by decide)]
    split <;> rfl
  · rw [State.fb, State.f, hstat]
    cases l.isEmpty <;> simp only [bits, b2n_true, b2n_false, beq_iff_eq, beq_eq_false_iff_ne, ne_eq] <;> omega
  · rw [State.checkResult, rd_setInt_own (by decide) (by decide), rd_setF_other _ _ _ _ _ (by decide), rd_wr_same]
  · exact ((((onlyRegs_refl _ s).wr rfl).wr rfl).setF rfl).setInt fun x hx => (Bool.or_eq_false_iff.1 hx).2

/-! ## COMMIT_MODE -/

/-- The fields of CMT_CTRL: COMMIT_MODE is live, TABLE_MODE staged. -/
theorem findReg_cmtCtrl : ∃ r, findReg Rg.CMT_CTRL = some r ∧ r.fields = [fd 4 1 .st 0, fd 0 1 .rw 0] :=
  ⟨_, rfl, rfl⟩

theorem sysMode_fieldWrite (s : State) (v : Nat) : (s.fieldWrite Rg.CMT_CTRL v).sysMode = bit v 0 := by
  obtain ⟨r, hr, hf⟩ := findReg_cmtCtrl
  have hrd := rd_fieldWrite_own (x := Rg.CMT_CTRL) hr s v (by decide) (by decide)
  rw [if_pos rfl, RegDef.writeLive, hf] at hrd
  rw [State.sysMode, State.fb, State.f, hrd, bits_mod _ _ _ _ (by decide)]
  have hwr : (fd 0 1 .rw 0).write (s.rd Rg.CMT_CTRL) v = setBits (s.rd Rg.CMT_CTRL) 0 1 (bits v 0 1) := by
    have hok : (fd 0 1 .rw 0).ok (bits v 0 1) = true := by
      have := bits_lt v 0 1
      simp only [FieldDef.ok, decide_eq_true_eq]
      omega
    simp only [FieldDef.write]
    exact if_pos hok
  show (bits ((fd 0 1 .rw 0).write (s.rd Rg.CMT_CTRL) v) 0 1 == 1) = bit v 0
  rw [hwr, bits_setBits_same]
  simp [bits, bit]

theorem rd_fieldWrite_cmtCtrl (s : State) (v x : Nat) (hx : ownReg x = true) (hne : x ≠ Rg.CMT_CTRL) (hl : x ≠ Rg.CMT_LATE_WRITE_CNT) :
    (s.fieldWrite Rg.CMT_CTRL v).rd x = s.rd x := by
  obtain ⟨r, hr, -⟩ := findReg_cmtCtrl
  exact (rd_fieldWrite_own hr s v hx hl).trans (if_neg hne)

/-- A refused command records its reason, and leaves STATE and COMMIT_MODE (R59). -/
theorem cmtRefuse_keeps (s : State) (code : Nat) (h : code < 16) : (s.cmtRefuse code).f Rg.CMT_STAT Fd.CMT_STAT_REFUSE = code ∧
    (s.cmtRefuse code).cmtState = s.cmtState ∧ (s.cmtRefuse code).sysMode = s.sysMode := by
  have hrd : ∀ x, ownReg x = true → x ≠ Rg.CMT_REFUSE_CNT → (s.cmtRefuse code).rd x = (s.setF Rg.CMT_STAT Fd.CMT_STAT_REFUSE code).rd x := fun x hx hne => by
    rw [State.cmtRefuse, rd_setInt_own hx (by decide), rd_bump_own hx (by decide) hne]
  refine ⟨?_, ?_, ?_⟩
  · rw [f_of_rd (hrd _ (by decide) (by decide)), f_setF_same _ _ _ _ (by decide)]
    exact Nat.mod_eq_of_lt h
  · rw [State.cmtState, f_of_rd (hrd _ (by decide) (by decide)), f_setF_disjoint _ _ _ _ _ (by decide) (by decide), State.cmtState]
  · exact fb_of_rd ((hrd _ (by decide) (by decide)).trans (rd_setF_other _ _ _ _ _ (by decide))) _

/-- A write that would change COMMIT_MODE: refused in ARMED, else taken, with SYS set to LIVE (R63). -/
theorem cmtCtrlWrite_shows (s : State) (v : Nat) (h : bit v 0 ≠ s.sysMode) :
    (s.cmtState = cmArmed → (s.cmtCtrlWrite v).sysMode = s.sysMode ∧ (s.cmtCtrlWrite v).f Rg.CMT_STAT Fd.CMT_STAT_REFUSE = rfModeArmed ∧
      (s.cmtCtrlWrite v).cmtState = cmArmed) ∧
    (s.cmtState = cmOpen → (s.cmtCtrlWrite v).sysMode = bit v 0 ∧
      (s.cmtCtrlWrite v).f Rg.CMT_EPOCH Fd.CMT_EPOCH_SYS = s.f Rg.CMT_EPOCH Fd.CMT_EPOCH_LIVE ∧
      (s.cmtCtrlWrite v).f Rg.CMT_EPOCH Fd.CMT_EPOCH_LIVE = s.f Rg.CMT_EPOCH Fd.CMT_EPOCH_LIVE) := by
  rw [State.cmtCtrlWrite, if_neg h]
  refine ⟨fun harm => ?_, fun hopen => ?_⟩
  · rw [if_pos harm]
    obtain ⟨href, hst, hsys⟩ := cmtRefuse_keeps (s.fieldWrite Rg.CMT_CTRL (setBits v 0 1 (b2n s.sysMode))) rfModeArmed (by decide)
    refine ⟨?_, href, ?_⟩
    · rw [hsys, sysMode_fieldWrite, bit_eq_testBit, testBit_setBits]
      cases s.sysMode <;> rfl
    · rw [hst, ← harm]
      exact f_of_rd (rd_fieldWrite_cmtCtrl _ _ _ (by decide) (by decide) (by decide)) _
  · rw [if_neg (by rw [hopen]; decide)]
    refine ⟨?_, ?_, ?_⟩
    · rw [State.sysMode, State.fb, f_setF_other _ _ _ _ _ _ (by decide)]
      exact sysMode_fieldWrite s v
    · rw [f_setF_same _ _ _ _ (by decide)]
      exact Nat.mod_eq_of_lt (bits_lt _ _ _)
    · rw [f_setF_disjoint _ _ _ _ _ (by decide) (by decide)]
      exact f_of_rd (rd_fieldWrite_cmtCtrl _ _ _ (by decide) (by decide) (by decide)) _

/-! ## The decision point -/

theorem commitDecision_apply (s : State) : s.commitDecision.cm.apply = true ↔ s.sysMode = true ∧ s.cmtState = cmArmed ∧
    (s.tkState = tkLocked ∨ (s.tkState = tkFree ∧ s.tk.mode = 2)) ∧
    (∃ w, s.tk.curTag = some w ∧ tagCommit w = true ∧ tagEpoch w = s.f Rg.CMT_STAT Fd.CMT_STAT_TARGET) ∧ s.d2dDown = false := by
  simp only [State.commitDecision, Bool.and_eq_true, Bool.or_eq_true, beq_iff_eq, Option.any_eq_true, Bool.not_eq_true']
  tauto

/-! ## The end of a discard -/

theorem logs_turnPage (s : State) (k : Turn) (page : Nat) : (s.turnPage k page).classLog = s.classLog ∧ (s.turnPage k page).terrLog = s.terrLog := by
  unfold State.turnPage
  split_ifs <;> exact ⟨rfl, rfl⟩

theorem logs_foldl_turnPage (k : Turn) (l : List Nat) (s : State) :
    (l.foldl (fun t g => t.turnPage k g) s).classLog = s.classLog ∧ (l.foldl (fun t g => t.turnPage k g) s).terrLog = s.terrLog := by
  induction l generalizing s with
  | nil => exact ⟨rfl, rfl⟩
  | cons g l ih =>
    obtain ⟨h1, h2⟩ := logs_turnPage s k g
    obtain ⟨h3, h4⟩ := ih (s.turnPage k g)
    exact ⟨h3.trans h1, h4.trans h2⟩

/-- Staged table changes are gone, with the logs of them. -/
theorem dropTables_shows (s : State) : s.dropTables.classLog = [] ∧ s.dropTables.terrLog = [] ∧ s.dropTables.tblPending = [] := by
  have key : ∀ s2 : State, (((({ s2 with classLog := [], terrLog := [] } : State).classLogStat).terrLogStat).classLog = [] ∧
      ((({ s2 with classLog := [], terrLog := [] } : State).classLogStat).terrLogStat).terrLog = []) := fun _ => ⟨rfl, rfl⟩
  unfold State.dropTables
  extract_lets s1 s2 s3 s4
  have h3 : s3.classLog = [] ∧ s3.terrLog = [] := key s2
  have h4 : s4.classLog = [] ∧ s4.terrLog = [] := by
    unfold s4
    split
    · exact ⟨(logs_foldl_turnPage _ _ s3).1.trans h3.1, (logs_foldl_turnPage _ _ s3).2.trans h3.2⟩
    · exact h3
  exact ⟨h4.1, h4.2, rfl⟩

theorem cmtBusy_cmtOpen (s : State) : s.cmtOpen.cmtBusy = s.cmtBusy := by
  rw [State.cmtBusy, State.cmtOpen, State.cmtOwn, State.cmtGo, fb_setF_disjoint _ _ _ _ _ (by decide) (by decide),
    fb_setF_disjoint _ _ _ _ _ (by decide) (by decide), fb_setF_disjoint _ _ _ _ _ (by decide) (by decide), State.cmtBusy]

/-- The return to OPEN changes CMT_STAT alone. -/
theorem logs_cmtOpen (s : State) : s.cmtOpen.shadows = s.shadows ∧ s.cmtOpen.classLog = s.classLog ∧ s.cmtOpen.terrLog = s.terrLog ∧
    s.cmtOpen.tblPending = s.tblPending := ⟨rfl, rfl, rfl, rfl⟩

theorem discardDone_shows (s : State) (h : s.cmtBusy = true) : s.discardDone.shadows = [] ∧ s.discardDone.classLog = [] ∧
    s.discardDone.terrLog = [] ∧ s.discardDone.tblPending = [] ∧ s.discardDone.cmtState = cmOpen ∧ s.discardDone.cmtBusy = false := by
  obtain ⟨hc, ht, hp⟩ := dropTables_shows s
  rw [State.discardDone, if_pos h]
  generalize s.dropTables = u at *
  obtain ⟨h1, h2, h3, h4⟩ := logs_cmtOpen (({ u with shadows := [] } : State).setF Rg.CMT_STAT Fd.CMT_STAT_BUSY 0)
  rw [h1, h2, h3, h4, cmtBusy_cmtOpen, (cmtOpen_shows _).1]
  exact ⟨rfl, hc, ht, hp, rfl, fb_setF_zero _ _ _ (by decide) rfl⟩

/-- Settles O17: the checker's result, and each other command by its lemma. -/
theorem commitCheckAndDecision : Obligations.CommitCheckAndDecision := by
  refine ⟨fun s hst hp => ?_, fun s a v hm hne => ?_, fun s => ⟨_, rfl, rfl, commitDecision_apply s⟩, fun s h => ⟨_, rfl, discardDone_shows s h⟩⟩
  · refine ⟨_, congrArg Host.Outcome.next (checkDone_eq s hst), ?_⟩
    generalize s.check = l
    obtain ⟨hdone, hint, hstate, hpass, hfirst, hframe⟩ := checkResult_shows s l hp
    refine ⟨hdone, hint, fun hl => ?_, fun hl => ?_, hframe⟩
    · rw [hstate, hpass, hfirst, hl]
      exact ⟨rfl, rfl, rfl⟩
    · have hne : l.isEmpty = false := by simpa using hl
      obtain ⟨f, hf, hall, he⟩ := firstFail_shows hl
      rw [hstate, hpass, hfirst, hne, he]
      exact ⟨rfl, rfl, f, hf, hall, rfl⟩
  · refine ⟨_, congrArg Host.Outcome.next (onWrite_of s a _ _ hm), ?_⟩
    obtain ⟨harm, hopen⟩ := cmtCtrlWrite_shows s v.toNat hne
    exact ⟨harm, fun h _ => hopen h⟩

end Sys2Proof.Machine
end

section
/-! SUPPORT. Line ports: where their registers lie, and what each step of a link state changes and shows (R65 to R69). -/
namespace Sys2Proof.Machine

/-! ## Registers of a port -/

/-- A state with the line ports of another. -/
def State.takePorts (s t : State) : State := { s with ports := t.ports }

theorem keeps_ports : State.Keeps State.takePorts := ⟨fun _ _ _ _ _ _ _ => rfl, fun _ _ _ => rfl, fun _ _ _ _ _ => rfl⟩

theorem lportOn_iff {s : State} {p : Nat} : s.lportOn p = true ↔ p < s.part.lanes ∧ s.pageOn (0x010 + p / 8) = true := by
  simp [State.lportOn]

theorem lanes_le (pt : Part) : pt.lanes ≤ 64 := by cases pt <;> decide

theorem lportOn_lt {s : State} {p : Nat} (h : s.lportOn p = true) : p < 64 := lt_of_lt_of_le (lportOn_iff.1 h).1 (lanes_le _)

theorem pageOn_lport {s : State} {p : Nat} (h : s.lportOn p = true) : s.pageOn (Pg.LPORT (p / 8) / 0x1000) = true := by
  have e : Pg.LPORT (p / 8) / 0x1000 = 0x010 + p / 8 := by
    have : Pg.LPORT (p / 8) = 0x10000 + 0x1000 * (p / 8) := rfl
    omega
  rw [e]
  exact (lportOn_iff.1 h).2

theorem lpStat_val (p : Nat) : lpStat p = 0x10108 + 0x1000 * (p / 8) + 0x20 * (p % 8) := by simp only [lpStat, Rg.LPORT_STAT, Pg.LPORT]; omega
theorem lpPfcStat_val (p : Nat) : lpPfcStat p = 0x10114 + 0x1000 * (p / 8) + 0x20 * (p % 8) := by
  simp only [lpPfcStat, Rg.LPORT_PFC_STAT, Pg.LPORT]; omega
theorem lpCtrl_val (p : Nat) : lpCtrl p = 0x10104 + 0x1000 * (p / 8) + 0x20 * (p % 8) := by simp only [lpCtrl, Rg.LPORT_CTRL, Pg.LPORT]; omega
theorem lpCfg_val (p : Nat) : lpCfg p = 0x10100 + 0x1000 * (p / 8) + 0x20 * (p % 8) := by simp only [lpCfg, Rg.LPORT_CFG, Pg.LPORT]; omega
theorem lpCnt_val (p i : Nat) : lpCnt p i = 0x10400 + 0x1000 * (p / 8) + 0x80 * (p % 8) + 8 * i := by
  simp only [lpCnt, Rg.LPORT_RX_FRAMES_LO, Pg.LPORT]; omega
theorem laneStat_val (l : Nat) : laneStat l = 0x18104 + 0x1000 * (l / 8) + 0x20 * (l % 8) := by
  simp only [laneStat, Rg.LSER_LANE_STAT, Pg.LSER]; omega
theorem laneCfg_val (l : Nat) : laneCfg l = 0x18100 + 0x1000 * (l / 8) + 0x20 * (l % 8) := by
  simp only [laneCfg, Rg.LSER_LANE_CFG, Pg.LSER]; omega
theorem lport_val (p : Nat) : Pg.LPORT (p / 8) = 0x10000 + 0x1000 * (p / 8) := rfl

section Own
variable {p : Nat} (hp : p < 64)
include hp

theorem own_lpStat : ownReg (lpStat p) = true := by rw [ownReg_iff, lpStat_val]; omega
theorem own_lpPfcStat : ownReg (lpPfcStat p) = true := by rw [ownReg_iff, lpPfcStat_val]; omega
theorem own_lpCtrl : ownReg (lpCtrl p) = true := by rw [ownReg_iff, lpCtrl_val]; omega
theorem own_lpCfg : ownReg (lpCfg p) = true := by rw [ownReg_iff, lpCfg_val]; omega
theorem own_laneStat : ownReg (laneStat p) = true := by rw [ownReg_iff, laneStat_val]; omega
theorem own_lpCnt {i : Nat} (hi : i < 16) : ownReg (lpCnt p i) = true ∧ ownReg (lpCnt p i + 4) = true := by
  rw [ownReg_iff, ownReg_iff, lpCnt_val]; omega

end Own

theorem lport_mod (p : Nat) : Pg.LPORT (p / 8) % 0x1000 = 0 := by rw [lport_val]; omega

theorem lpStat_ne_pfc (p : Nat) : lpStat p ≠ lpPfcStat p := by rw [lpStat_val, lpPfcStat_val]; omega

theorem laneStat_ne_lpStat (p l : Nat) : laneStat l ≠ lpStat p := by rw [lpStat_val, laneStat_val]; omega

theorem laneStat_ne_lpPfcStat (p l : Nat) : laneStat l ≠ lpPfcStat p := by rw [lpPfcStat_val, laneStat_val]; omega

theorem laneStat_inj {l m : Nat} (h : laneStat l = laneStat m) : l = m := by rw [laneStat_val, laneStat_val] at h; omega

theorem laneStat_ne_laneCfg (l m : Nat) : laneCfg m ≠ laneStat l := by rw [laneStat_val, laneCfg_val]; omega

theorem ne_of_pBool {P : Nat → Bool} {a x : Nat} (ha : P a = true) (hx : P x = false) : x ≠ a := State.onlyRegs.ne_of ha hx

/-! ## The steps of a link state -/

theorem lport_setLport (s : State) (p : Nat) (x : LinePort) : (s.setLport p x).lport p = x := sget_sset_same _ _ _ _

theorem rd_setLport (s : State) (p : Nat) (y : LinePort) (x : Nat) : (s.setLport p y).rd x = s.rd x := rfl

section Steps
variable {P : Nat → Bool} (s : State) (p : Nat)

theorem setLport_frame (x : LinePort) : s.frame State.takePorts P (s.setLport p x) := frame_of_eq rfl

/-- LF and RF as received, or for want of alignment lock (R68). -/
def State.lpFaultBits (s : State) (p : Nat) : State :=
  (s.setF (lpStat p) Fd.LPORT_STAT_LF (b2n ((s.lport p).rxLf || (s.lkState p != lkDown && !s.fb (lpStat p) Fd.LPORT_STAT_AM_LOCK)))).setF
    (lpStat p) Fd.LPORT_STAT_RF (b2n (s.lport p).rxRf)

/-- What a port remembers of the second under way. -/
def LinePort.seen (x : LinePort) (lf rf down : Bool) : LinePort := { x with sawLf := x.sawLf || lf, sawRf := x.sawRf || rf, sawDown := x.sawDown || down }

theorem LinePort.seen_pfcSent (x : LinePort) (lf rf down : Bool) : (x.seen lf rf down).pfcSent = x.pfcSent := rfl

theorem lpRefresh_eq : ∃ lf rf down, s.lpRefresh p = (s.lpFaultBits p).setLport p ((s.lport p).seen lf rf down) := ⟨_, _, _, rfl⟩

theorem lpRefresh_rd (x : Nat) : (s.lpRefresh p).rd x = (s.lpFaultBits p).rd x := by
  obtain ⟨lf, rf, down, he⟩ := lpRefresh_eq s p
  rw [he, rd_setLport]

theorem lpRefresh_frame (hP : P (lpStat p) = true) : s.frame State.takePorts P (s.lpRefresh p) := by
  obtain ⟨lf, rf, down, he⟩ := lpRefresh_eq s p
  rw [he]
  exact .trans keeps_ports (.ofOnlyRegs keeps_ports (((onlyRegs_refl _ s).setF hP).setF hP)) (setLport_frame _ p _)

/-- LF and RF are the only fields that follow the received faults (R68). -/
theorem lpRefresh_stat (fl : Fld) (h : fl.lo + fl.w ≤ 29 ∨ 31 ≤ fl.lo) (h32 : fl.lo + fl.w ≤ 32) : (s.lpRefresh p).f (lpStat p) fl = s.f (lpStat p) fl := by
  have h29 : fl.lo + fl.w ≤ 29 ∨ 30 ≤ fl.lo := by omega
  have h30 : fl.lo + fl.w ≤ 30 ∨ 31 ≤ fl.lo := by omega
  exact (f_of_rd (lpRefresh_rd s p _) fl).trans <| (f_setF_disjoint _ (lpStat p) Fd.LPORT_STAT_RF fl _ h32 h29.symm).trans (f_setF_disjoint _ _ Fd.LPORT_STAT_LF fl _ h32 h30.symm)

theorem lkEnter_frame (st : Nat) (hP : P (lpStat p) = true) : s.frame State.takePorts P (s.lkEnter p st) :=
  .trans keeps_ports (.ofOnlyRegs keeps_ports ((onlyRegs_refl _ s).setF hP)) (lpRefresh_frame _ p hP)

theorem lkEnter_state (st : Nat) (hst : st < 8) : (s.lkEnter p st).lkState p = st := by
  rw [State.lkState, State.lkEnter, lpRefresh_stat _ _ _ (by decide) (by decide), f_setF_same _ _ _ _ (by decide)]
  exact Nat.mod_eq_of_lt hst

theorem lkEnter_stat (st : Nat) (fl : Fld) (h : 3 ≤ fl.lo ∧ fl.lo + fl.w ≤ 29 ∨ 31 ≤ fl.lo) (h32 : fl.lo + fl.w ≤ 32) :
    (s.lkEnter p st).f (lpStat p) fl = s.f (lpStat p) fl := by
  have h3 : 0 + 3 ≤ fl.lo := by omega
  rw [State.lkEnter, lpRefresh_stat _ _ _ (by omega) h32]
  exact f_setF_disjoint _ _ Fd.LPORT_STAT_LINK_STATE _ _ h32 (.inl h3)

theorem setLocks_onlyRegs (am fec : Bool) (hP : P (lpStat p) = true) : State.onlyRegs P s (s.setLocks p am fec) := ((onlyRegs_refl _ s).setF hP).setF hP

theorem setLocks_shows (am fec : Bool) : (s.setLocks p am fec).fb (lpStat p) Fd.LPORT_STAT_AM_LOCK = am ∧
    (s.setLocks p am fec).fb (lpStat p) Fd.LPORT_STAT_FEC_LOCK = fec :=
  ⟨(fb_setF_disjoint _ _ _ _ _ (by decide) (by decide)).trans (fb_setF_b2n _ _ _ _ (by decide) rfl), fb_setF_b2n _ _ _ _ (by decide) rfl⟩

theorem setLocks_stat (am fec : Bool) (fl : Fld) (h : fl.lo + fl.w ≤ 27 ∨ 29 ≤ fl.lo) (h32 : fl.lo + fl.w ≤ 32) :
    (s.setLocks p am fec).f (lpStat p) fl = s.f (lpStat p) fl := by
  have h27 : fl.lo + fl.w ≤ 27 ∨ 28 ≤ fl.lo := by omega
  have h28 : fl.lo + fl.w ≤ 28 ∨ 29 ≤ fl.lo := by omega
  exact (f_setF_disjoint _ (lpStat p) Fd.LPORT_STAT_FEC_LOCK fl _ h32 h27.symm).trans (f_setF_disjoint _ _ Fd.LPORT_STAT_AM_LOCK fl _ h32 h28.symm)

/-- LINK_UP and the received pauses cleared. -/
def State.lkCleared (s : State) (p : Nat) : State := (s.setF (lpStat p) Fd.LPORT_STAT_LINK_UP 0).wr (lpPfcStat p) 0

/-- A port that leaves UP, before the event is flagged. -/
def State.lkDropped (s : State) (p : Nat) : State :=
  (s.lkCleared p).setLport p { (s.lkCleared p).lport p with quanta := List.replicate 8 0, sawDown := true }

theorem lkDropped_rd (x : Nat) : (s.lkDropped p).rd x = (s.lkCleared p).rd x := by
  rw [State.lkDropped, rd_setLport]

theorem lkLost_eq : s.lkLost p = (s.lkDropped p).setIntIf (s.lkIsUp p) (Pg.LPORT (p / 8)) (Ib.LPORT_LINK_CHANGE (p % 8)) := rfl

theorem lkDropped_frame (hP : P (lpStat p) = true) (hQ : P (lpPfcStat p) = true) : s.frame State.takePorts P (s.lkDropped p) :=
  .trans keeps_ports (.ofOnlyRegs keeps_ports (((onlyRegs_refl _ s).setF hP).wr hQ)) (setLport_frame _ p _)

theorem lkLost_frame (hP : P (lpStat p) = true) (hQ : P (lpPfcStat p) = true) (hI : ∀ x, P x = false → intReg (Pg.LPORT (p / 8)) x = false) :
    s.frame State.takePorts P (s.lkLost p) :=
  lkLost_eq s p ▸ (lkDropped_frame s p hP hQ).regs keeps_ports ((onlyRegs_refl _ _).setIntIf hI)

/-- What a port that leaves UP shows (R66, R69). -/
theorem lkLost_shows (hp : p < 64) : (s.lkLost p).rd (lpPfcStat p) = 0 ∧ (s.lkLost p).fb (lpStat p) Fd.LPORT_STAT_LINK_UP = false ∧
    ∀ fl : Fld, fl.lo + fl.w ≤ 31 → (s.lkLost p).f (lpStat p) fl = s.f (lpStat p) fl := by
  have hstat : (s.lkLost p).rd (lpStat p) = (s.setF (lpStat p) Fd.LPORT_STAT_LINK_UP 0).rd (lpStat p) := by
    rw [lkLost_eq, rd_setIntIf_own (own_lpStat hp) (lport_mod p), lkDropped_rd]
    exact rd_wr_other _ _ _ _ (lpStat_ne_pfc p)
  refine ⟨?_, (fb_of_rd hstat _).trans (fb_setF_zero _ _ _ (by decide) rfl), fun fl h => ?_⟩
  · rw [lkLost_eq, rd_setIntIf_own (own_lpPfcStat hp) (lport_mod p), lkDropped_rd]
    exact rd_wr_same _ _ _
  · exact (f_of_rd hstat fl).trans (f_setF_disjoint _ _ _ _ _ (by omega) (.inr h))

theorem pageOn_portFrame {s t : State} (h : s.frame State.takePorts P t) (hd : ∀ d ∈ [0, 1], ∀ w ∈ [0, 1], P (Rg.PWR_DOM_STAT d w) = false) (g : Nat) :
    t.pageOn g = s.pageOn g := pageOn_of_onlyRegs h hd g

theorem lpReg_dom {p : Nat} (hp : p < 64) : ∀ d ∈ [0, 1], ∀ w ∈ [0, 1],
    (fun x => x == lpStat p || x == lpPfcStat p) (Rg.PWR_DOM_STAT d w) = false := by
  have hall : ∀ d ∈ [0, 1], ∀ w ∈ [0, 1], 0xE0000 ≤ Rg.PWR_DOM_STAT d w := by decide
  intro d hd w hw
  have := hall d hd w hw
  simp only [Bool.or_eq_false_iff, beq_eq_false_iff_ne]
  rw [lpStat_val, lpPfcStat_val]
  omega

/-- Where the port was UP, the loss of it is flagged. -/
theorem lkLost_flags (hon : s.lportOn p = true) (hup : s.lkState p = lkUp) :
    bit ((s.lkLost p).rd (Pg.LPORT (p / 8) + 0x010)) (p % 8) = true := by
  have hisUp : s.lkIsUp p = true := by simp [State.lkIsUp, hup]
  have hpage : (s.lkDropped p).pageOn (Pg.LPORT (p / 8) / 0x1000) = true :=
    (pageOn_portFrame (lkDropped_frame s p (P := fun x => x == lpStat p || x == lpPfcStat p) (by simp) (by simp)) (lpReg_dom (lportOn_lt hon)) _).trans (pageOn_lport hon)
  rw [lkLost_eq, State.setIntIf, if_pos hisUp]
  have := setInt_bit (s.lkDropped p) (Pg.LPORT (p / 8)) (Ib.LPORT_LINK_CHANGE (p % 8)) (lport_mod p) (by simp only [Ib.LPORT_LINK_CHANGE]; omega) hpage
  simpa only [Ib.LPORT_LINK_CHANGE, Nat.zero_add] using this

end Steps

/-! ## Lanes -/

theorem mem_lpLanes {s : State} {p l : Nat} : l ∈ s.lpLanes p ↔ p ≤ l ∧ l < p + cfgLanes (s.rd (lpCfg p)) := by
  simp only [State.lpLanes, List.mem_map, List.mem_range]
  constructor
  · rintro ⟨i, hi, rfl⟩
    omega
  · exact fun ⟨h1, h2⟩ => ⟨l - p, by omega, by omega⟩

theorem nodup_lpLanes (s : State) (p : Nat) : (s.lpLanes p).Nodup := List.Nodup.map (fun _ _ h => Nat.add_left_cancel h) List.nodup_range

/-- Lanes of a port that lie in its group. -/
theorem lane_in_group {s : State} {p l : Nat} (hfit : p % 8 + cfgLanes (s.rd (lpCfg p)) ≤ 8) (hl : l ∈ s.lpLanes p) : l / 8 = p / 8 := by
  have := mem_lpLanes.1 hl
  omega

/-- A fold that writes the status of each lane of a list once: every lane's status, and the rest. -/
theorem rd_foldl_lanes {g : State → Nat → State} {v : Nat → Nat} (ls : List Nat) (hn : ls.Nodup) (s : State)
    (hg : ∀ u l x, l ∈ ls → u.rd (laneStat l) = s.rd (laneStat l) → (g u l).rd x = if x = laneStat l then v l else u.rd x) :
    (∀ l ∈ ls, (ls.foldl g s).rd (laneStat l) = v l) ∧ ∀ x, (∀ l ∈ ls, x ≠ laneStat l) → (ls.foldl g s).rd x = s.rd x := by
  have key : ∀ (k : List Nat) (u : State), k ⊆ ls → k.Nodup → (∀ l ∈ k, u.rd (laneStat l) = s.rd (laneStat l)) →
      (∀ l ∈ k, (k.foldl g u).rd (laneStat l) = v l) ∧ ∀ x, (∀ l ∈ k, x ≠ laneStat l) → (k.foldl g u).rd x = u.rd x := fun k => by
    induction k with
    | nil => exact fun u _ _ _ => ⟨fun l hl => (List.not_mem_nil hl).elim, fun _ _ => rfl⟩
    | cons m k ih =>
      intro u hsub hnd hu
      obtain ⟨hm, hnd⟩ := List.nodup_cons.1 hnd
      have hstep : ∀ x, (g u m).rd x = if x = laneStat m then v m else u.rd x :=
        fun x => hg u m x (hsub List.mem_cons_self) (hu m List.mem_cons_self)
      have hrest : ∀ l ∈ k, laneStat l ≠ laneStat m := fun l hl e => hm (laneStat_inj e ▸ hl)
      obtain ⟨hset, hkeep⟩ := ih (g u m) (fun x hx => hsub (List.mem_cons_of_mem _ hx)) hnd fun l hl => by
        rw [hstep, if_neg (hrest l hl), hu l (List.mem_cons_of_mem _ hl)]
      refine ⟨fun l hl => ?_, fun x hx => ?_⟩
      · rcases List.mem_cons.1 hl with rfl | hl
        · rw [List.foldl_cons, hkeep _ fun l' hl' e => hrest l' hl' e.symm, hstep, if_pos rfl]
        · exact hset l hl
      · rw [List.foldl_cons, hkeep x fun l hl => hx l (List.mem_cons_of_mem _ hl), hstep, if_neg (hx m List.mem_cons_self)]
  exact key ls s (fun _ h => h) hn fun _ _ => rfl

theorem onlyRegs_foldl_lanes {g : State → Nat → State} {P : Nat → Bool} (ls : List Nat) (s : State)
    (hg : ∀ (u : State), ∀ l ∈ ls, State.onlyRegs P u (g u l)) : State.onlyRegs P s (ls.foldl g s) := by
  induction ls generalizing s with
  | nil => exact onlyRegs_refl P s
  | cons l ls ih => exact onlyRegs_trans (hg s l List.mem_cons_self) (ih _ fun u m hm => hg u m (List.mem_cons_of_mem _ hm))

/-- Training starts on each lane as its TRAIN_EN says (R66). -/
theorem startTrain_shows (s : State) (p : Nat) :
    (∀ l ∈ s.lpLanes p, (s.startTrain p).rd (laneStat l) =
      setBits (s.rd (laneStat l)) 24 2 (s.f (laneCfg l) Fd.LSER_LANE_CFG_TRAIN_EN) % 2 ^ 32) ∧
    ∀ x, (∀ l ∈ s.lpLanes p, x ≠ laneStat l) → (s.startTrain p).rd x = s.rd x :=
  rd_foldl_lanes _ (nodup_lpLanes s p) s fun u l x _ hu => by
    rw [State.setF, rd_wr, hu]

theorem startTrain_onlyRegs {P : Nat → Bool} (s : State) (p : Nat) (hP : ∀ l ∈ s.lpLanes p, P (laneStat l) = true) : State.onlyRegs P s (s.startTrain p) :=
  onlyRegs_foldl_lanes _ s fun u l hl => onlyRegs_setF u _ _ _ (hP l hl)

theorem any_lane {ls : List Nat} {l : Nat} (h : l ∈ ls) : (ls.any fun m => laneStat l == laneStat m) = true :=
  List.any_eq_true.2 ⟨l, h, beq_self_eq_true _⟩

end Sys2Proof.Machine
end

section
-- One after another: each `decide +kernel` below waits for every earlier proof, on a thread of its own.
set_option Elab.async false
/-! SUPPORT. The link states of a line port (R66, R69, R218). -/
namespace Sys2Proof.Machine

/-! ## Training -/

/-- The lanes' status after a training that is done (R66). -/
def State.trainLanes (s : State) (p : Nat) : State := (s.lpLanes p).foldl (fun t l =>
  let en := s.fb (laneCfg l) Fd.LSER_LANE_CFG_TRAIN_EN
  t.wr (laneStat l) (2 ^ 31 + 2 ^ 30 + (if en then 2 * 2 ^ 24 else 0))) s

theorem trainLanes_shows (s : State) (p : Nat) :
    (∀ l ∈ s.lpLanes p, (s.trainLanes p).rd (laneStat l) =
      (2 ^ 31 + 2 ^ 30 + (if s.fb (laneCfg l) Fd.LSER_LANE_CFG_TRAIN_EN then 2 * 2 ^ 24 else 0)) % 2 ^ 32) ∧
    ∀ x, (∀ l ∈ s.lpLanes p, x ≠ laneStat l) → (s.trainLanes p).rd x = s.rd x :=
  rd_foldl_lanes _ (nodup_lpLanes s p) s fun u _ _ _ _ => rd_wr u _ _ _

theorem isClient_of_rd {s t : State} {p : Nat} (h : t.rd (lpCfg p) = s.rd (lpCfg p)) : t.isClient p = s.isClient p := by
  rw [State.isClient, State.isClient, State.lpFlexe, State.lpFlexe, f_of_rd h]

theorem trainDone_eq (s : State) (p : Nat) (hon : s.lportOn p = true) (hcl : s.isClient p = false) (hst : s.lkState p = lkTraining) :
    s.trainDone p = (s.trainLanes p).lkEnter p lkAligning := by
  have hkeep : (s.trainLanes p).isClient p = false :=
    (isClient_of_rd ((trainLanes_shows s p).2 _ fun l _ => by rw [lpCfg_val, laneStat_val]; omega)).trans hcl
  have h1 : ¬((!s.lportOn p || !(s.lkState p == lkTraining || s.isClient p)) = true) := by simp [hon, hst]
  have h2 : ¬((s.trainLanes p).isClient p = true) := by simp [hkeep]
  exact (if_neg h1).trans (if_neg h2)

/-- A training that is done (R66). -/
theorem trainDone_shows (s : State) (p : Nat) (hon : s.lportOn p = true) (hcl : s.isClient p = false) (hst : s.lkState p = lkTraining) :
    (s.trainDone p).lkState p = lkAligning ∧
    (∀ l ∈ s.lpLanes p, (s.trainDone p).fb (laneStat l) Fd.LSER_LANE_STAT_CDR_LOCK = true ∧
      (s.trainDone p).f (laneStat l) Fd.LSER_LANE_STAT_TRAIN = if s.fb (laneCfg l) Fd.LSER_LANE_CFG_TRAIN_EN then 2 else 0) ∧
    s.frame State.takePorts (fun x => x == lpStat p || (s.lpLanes p).any fun l => x == laneStat l) (s.trainDone p) := by
  rw [trainDone_eq s p hon hcl hst]
  have hlanes := (trainLanes_shows s p).1
  have henter : ∀ l, ((s.trainLanes p).lkEnter p lkAligning).rd (laneStat l) = (s.trainLanes p).rd (laneStat l) := fun l =>
    (lkEnter_frame (P := fun x => x == lpStat p) (s.trainLanes p) p lkAligning (beq_self_eq_true _)).rd keeps_ports
      (beq_false_of_ne (laneStat_ne_lpStat p l))
  refine ⟨lkEnter_state _ _ _ (by decide), fun l hl => ?_, ?_⟩
  · rw [State.fb, State.f, State.f, henter, hlanes l hl]
    by_cases h : s.fb (laneCfg l) Fd.LSER_LANE_CFG_TRAIN_EN = true
    · rw [if_pos h, if_pos h]
      decide
    · rw [if_neg h, if_neg h]
      decide
  · refine .trans keeps_ports (.ofOnlyRegs keeps_ports (onlyRegs_foldl_lanes _ s fun u l hl => onlyRegs_wr u _ _ ?_)) (lkEnter_frame _ p _ (by simp))
    simp only [any_lane hl, Bool.or_true]

theorem fusedOff_lser {pt : Part} {g : Nat} (hg : g < 8) : fusedOff pt (0x018 + g) = fusedOff pt (0x010 + g) ∧
    pagePresent pt (0x018 + g) = pagePresent pt (0x010 + g) ∧ domOf (0x018 + g) = domOf (0x010 + g) := by
  have key : ∀ pt ∈ [Part.lmb4812, Part.lmb4806], ∀ g < 8, fusedOff pt (0x018 + g) = fusedOff pt (0x010 + g) ∧
    pagePresent pt (0x018 + g) = pagePresent pt (0x010 + g) ∧ domOf (0x018 + g) = domOf (0x010 + g) := by decide +kernel
  exact key pt (by cases pt <;> decide) g hg

/-- The lanes' page of a line group is powered with the group (R374). -/
theorem pageOn_lser {s : State} {p : Nat} (h : s.lportOn p = true) : s.pageOn (0x018 + p / 8) = true := by
  have hp := lportOn_lt h
  obtain ⟨-, hpres, hdom⟩ := fusedOff_lser (pt := s.part) (g := p / 8) (by omega)
  have hon := (lportOn_iff.1 h).2
  have h99 : ¬(0x018 + p / 8 = 0x099) ∧ ¬(0x010 + p / 8 = 0x099) := by omega
  rw [State.pageOn, if_neg h99.2] at hon
  rw [State.pageOn, if_neg h99.1, hpres, hdom]
  exact hon

/-- A lane in training that times out (R66). -/
theorem trainTimeout_shows (s : State) (p l : Nat) (hon : s.lportOn p = true) (hfit : p % 8 + cfgLanes (s.rd (lpCfg p)) ≤ 8)
    (hst : s.lkState p = lkTraining) (hl : l ∈ s.lpLanes p) (ht : s.f (laneStat l) Fd.LSER_LANE_STAT_TRAIN = 1) :
    (s.trainTimeout p l).f (laneStat l) Fd.LSER_LANE_STAT_TRAIN = 3 ∧ (s.trainTimeout p l).lkState p = lkTraining ∧
    (s.trainTimeout p l).rd (Rg.LSER_TRAIN_FAIL_CNT (l / 8) (l % 8)) = (s.rd (Rg.LSER_TRAIN_FAIL_CNT (l / 8) (l % 8)) + 1) % 2 ^ 32 ∧
    bit ((s.trainTimeout p l).rd (Pg.LSER (l / 8) + 0x010)) (l % 8) = true ∧
    State.onlyRegs (fun x => x == laneStat l || x == Rg.LSER_TRAIN_FAIL_CNT (l / 8) (l % 8) || cntReg (Pg.LSER (l / 8)) x) s (s.trainTimeout p l) := by
  have hp := lportOn_lt hon
  have hg := lane_in_group hfit hl
  have hl64 : l < 64 := by omega
  have hcnt : Rg.LSER_TRAIN_FAIL_CNT (l / 8) (l % 8) = 0x18108 + 0x1000 * (l / 8) + 0x20 * (l % 8) := by simp only [Rg.LSER_TRAIN_FAIL_CNT, Pg.LSER]; omega
  have hpg : Pg.LSER (l / 8) = 0x18000 + 0x1000 * (l / 8) := rfl
  have he : s.trainTimeout p l = ((s.setF (laneStat l) Fd.LSER_LANE_STAT_TRAIN 3).bump (Rg.LSER_TRAIN_FAIL_CNT (l / 8) (l % 8))).setInt
      (Pg.LSER (l / 8)) (Ib.LSER_TRAIN_FAIL (l % 8)) := by
    have hmem : (s.lpLanes p).contains l = true := List.contains_iff_mem.2 hl
    have hcond : ¬((!s.lportOn p || !(s.lpLanes p).contains l || s.f (laneStat l) Fd.LSER_LANE_STAT_TRAIN != 1) = true) := by simp [hon, hl, ht]
    exact (if_neg (by omega : ¬64 ≤ p)).trans (if_neg hcond)
  have hpage : (s.setF (laneStat l) Fd.LSER_LANE_STAT_TRAIN 3).pageOn (Rg.LSER_TRAIN_FAIL_CNT (l / 8) (l % 8) / 0x1000) = true := by
    rw [pageOn_setF_of _ _ _ _ _ (by rw [laneStat_val]; omega) (by rw [laneStat_val]; omega)]
    have : Rg.LSER_TRAIN_FAIL_CNT (l / 8) (l % 8) / 0x1000 = 0x018 + p / 8 := by omega
    rw [this]
    exact pageOn_lser hon
  have hown : ownReg (Rg.LSER_TRAIN_FAIL_CNT (l / 8) (l % 8)) = true := by rw [ownReg_iff]; omega
  obtain ⟨hc, hb, hf⟩ := bump_setInt_shows (s.setF (laneStat l) Fd.LSER_LANE_STAT_TRAIN 3) (Rg.LSER_TRAIN_FAIL_CNT (l / 8) (l % 8)) (Pg.LSER (l / 8))
    (Ib.LSER_TRAIN_FAIL (l % 8)) (by omega) (by omega) (by omega) (irqReg_of_own hown) (ne_domStat_page (by omega) (by omega))
    (by simp only [Ib.LSER_TRAIN_FAIL]; omega) hpage
  have hlane : (s.trainTimeout p l).rd (laneStat l) = (s.setF (laneStat l) Fd.LSER_LANE_STAT_TRAIN 3).rd (laneStat l) := by
    rw [he, rd_setInt_own (own_laneStat hl64) (by omega), rd_bump_own (own_laneStat hl64) (by omega) (by rw [laneStat_val]; omega)]
  refine ⟨?_, ?_, ?_, ?_, ?_⟩
  · exact (f_of_rd hlane _).trans (f_setF_same _ _ _ _ (by decide))
  · rw [← hst, State.lkState, State.lkState, he]
    refine f_of_rd ?_ _
    rw [rd_setInt_own (own_lpStat hp) (by omega), rd_bump_own (own_lpStat hp) (by omega) (by rw [lpStat_val]; omega),
      rd_setF_other _ _ _ _ _ (laneStat_ne_lpStat p l).symm]
  · rw [he, hc, rd_setF_other _ _ _ _ _ (by rw [laneStat_val]; omega)]
  · rw [he]
    simpa only [Ib.LSER_TRAIN_FAIL, Nat.zero_add] using hb
  · rw [he]
    refine onlyRegs_trans (onlyRegs_setF s _ _ _ (by simp)) (onlyRegs_mono hf fun x hx => ?_)
    simp only [Bool.or_eq_false_iff] at hx ⊢
    exact ⟨hx.1.2, hx.2⟩

/-- After RETRY_DELAY every lane's training starts again (R66). -/
theorem trainRetry_shows (s : State) (p : Nat) (hon : s.lportOn p = true) (hst : s.lkState p = lkTraining) :
    (∀ l ∈ s.lpLanes p, (s.trainRetry p).f (laneStat l) Fd.LSER_LANE_STAT_TRAIN = s.f (laneCfg l) Fd.LSER_LANE_CFG_TRAIN_EN) ∧
    State.onlyRegs (fun x => (s.lpLanes p).any fun l => x == laneStat l) s (s.trainRetry p) := by
  have hp := lportOn_lt hon
  have he : s.trainRetry p = s.startTrain p := (if_neg (by omega)).trans (if_pos (by simp [hon, hst]))
  rw [he]
  refine ⟨fun l hl => ?_, startTrain_onlyRegs s p fun l hl => any_lane hl⟩
  rw [State.f, (startTrain_shows s p).1 l hl, bits_mod _ _ _ _ (by decide)]
  show bits (setBits _ 24 2 _) 24 2 = _
  rw [bits_setBits_same]
  exact Nat.mod_eq_of_lt (lt_of_lt_of_le (bits_lt _ _ _) (by decide))

/-! ## Alignment and the end of the hold -/

theorem aligned_shows (s : State) (p : Nat) (hon : s.lportOn p = true) (hcl : s.isClient p = false) (hst : s.lkState p = lkAligning) :
    (s.aligned p).lkState p = lkHold ∧ (s.aligned p).fb (lpStat p) Fd.LPORT_STAT_AM_LOCK = true ∧
    (s.aligned p).fb (lpStat p) Fd.LPORT_STAT_FEC_LOCK = true ∧ s.frame State.takePorts (fun x => x == lpStat p) (s.aligned p) := by
  have he : s.aligned p = (s.setLocks p true true).lkEnter p lkHold := if_pos (by simp [hon, hst, hcl])
  obtain ⟨ham, hfec⟩ := setLocks_shows s p true true
  rw [he]
  refine ⟨lkEnter_state _ _ _ (by decide), ?_, ?_, ?_⟩
  · rw [State.fb, lkEnter_stat _ _ _ _ (by decide) (by decide)]
    exact ham
  · rw [State.fb, lkEnter_stat _ _ _ _ (by decide) (by decide)]
    exact hfec
  · exact .trans keeps_ports (.ofOnlyRegs keeps_ports (setLocks_onlyRegs s p true true (beq_self_eq_true _))) (lkEnter_frame _ p _ (beq_self_eq_true _))

theorem takePorts_lport {s t : State} : (s.takePorts t).ports = t.ports := rfl

/-- The rise of a port to UP, before the event is flagged. -/
def State.lkRisen (s : State) (p : Nat) : State :=
  ((s.setF (lpStat p) Fd.LPORT_STAT_LINK_UP 1).setLport p { s.lport p with sawDown := true }).lkEnter p lkUp

theorem lkRise_eq (s : State) (p : Nat) (hon : s.lportOn p = true) (hst : s.lkState p = lkHold) :
    s.lkRise p = (s.lkRisen p).setInt (Pg.LPORT (p / 8)) (Ib.LPORT_LINK_CHANGE (p % 8)) := if_pos (by simp [hon, hst])

theorem pfcSent_lpRefresh (s : State) (p : Nat) : ((s.lpRefresh p).lport p).pfcSent = (s.lport p).pfcSent := by
  obtain ⟨lf, rf, down, he⟩ := lpRefresh_eq s p
  rw [he, lport_setLport, LinePort.seen_pfcSent]

theorem pfcSent_of_ports {s t : State} (h : t.ports = s.ports) (p : Nat) : (t.lport p).pfcSent = (s.lport p).pfcSent := by
  rw [State.lport, State.lport, h]

theorem pfcSent_down (x : LinePort) : ({ x with sawDown := true } : LinePort).pfcSent = x.pfcSent := rfl

theorem pfcSent_lkRisen (s : State) (p : Nat) : ((s.lkRisen p).lport p).pfcSent = (s.lport p).pfcSent := by
  rw [State.lkRisen, State.lkEnter, pfcSent_lpRefresh, pfcSent_of_ports (State.setF_ports _ _ _ _), lport_setLport, pfcSent_down]

theorem lkRisen_frame {P : Nat → Bool} (s : State) (p : Nat) (hP : P (lpStat p) = true) : s.frame State.takePorts P (s.lkRisen p) :=
  .trans keeps_ports (.trans keeps_ports (.ofOnlyRegs keeps_ports ((onlyRegs_refl _ s).setF hP)) (setLport_frame _ p _)) (lkEnter_frame _ p _ hP)

/-- The pauses wanted of a port are those of its buffers and pools. -/
theorem pauseWant_congr {s t : State} (p : Nat) (h1 : t.part = s.part) (h2 : t.tbls = s.tbls) (h3 : t.slices = s.slices)
    (h4 : t.rd Rg.ADM_PFC_PRI = s.rd Rg.ADM_PFC_PRI) : t.pauseWant p = s.pauseWant p := by
  simp only [State.pauseWant, State.srcXoff, State.tf, State.tbl, h1, h2, h3, h4]

theorem lkRise_shows (s : State) (p : Nat) (hon : s.lportOn p = true) (hst : s.lkState p = lkHold) :
    (s.lkRise p).lkState p = lkUp ∧ (s.lkRise p).fb (lpStat p) Fd.LPORT_STAT_LINK_UP = true ∧
    bit ((s.lkRise p).rd (Pg.LPORT (p / 8) + 0x010)) (p % 8) = true ∧ (s.lkRise p).pauseWant p = s.pauseWant p ∧
    ((s.lkRise p).lport p).pfcSent = (s.lport p).pfcSent ∧ (s.lkRise p).lportOn p = true ∧
    s.frame State.takePorts (fun x => x == lpStat p || intReg (Pg.LPORT (p / 8)) x) (s.lkRise p) := by
  have hp := lportOn_lt hon
  have hframe : s.frame State.takePorts (fun x => x == lpStat p || intReg (Pg.LPORT (p / 8)) x) (s.lkRise p) := by
    rw [lkRise_eq s p hon hst]
    exact (lkRisen_frame s p (by simp)).regs keeps_ports ((onlyRegs_refl _ _).setInt fun x hx => (Bool.or_eq_false_iff.1 hx).2)
  have hrisen : s.frame State.takePorts (fun x => x == lpStat p || x == lpPfcStat p) (s.lkRisen p) := lkRisen_frame s p (by simp)
  have hpage : ∀ g, (s.lkRisen p).pageOn g = s.pageOn g := pageOn_portFrame hrisen (lpReg_dom hp)
  have hstat : (s.lkRise p).rd (lpStat p) = (s.lkRisen p).rd (lpStat p) := by rw [lkRise_eq s p hon hst, rd_setInt_own (own_lpStat hp) (lport_mod p)]
  have hports : (s.lkRise p).ports = (s.lkRisen p).ports := by
    rw [lkRise_eq s p hon hst]
    exact onlyRegs_proj (onlyRegs_setInt _ _ _) State.ports
  have hpart : (s.lkRise p).part = s.part := by rw [hframe.1]; rfl
  refine ⟨(f_of_rd hstat _).trans (lkEnter_state _ _ _ (by decide)), ?_, ?_, ?_, (pfcSent_of_ports hports p).trans (pfcSent_lkRisen s p), ?_, hframe⟩
  · rw [fb_of_rd hstat, State.fb, State.lkRisen, lkEnter_stat _ _ _ _ (by decide) (by decide), f_of_rd (rd_setLport _ _ _ _)]
    exact fb_setF_one _ _ _ (by decide) rfl
  · rw [lkRise_eq s p hon hst]
    have := setInt_bit (s.lkRisen p) (Pg.LPORT (p / 8)) (Ib.LPORT_LINK_CHANGE (p % 8)) (lport_mod p) (by simp only [Ib.LPORT_LINK_CHANGE]; omega)
      ((hpage _).trans (pageOn_lport hon))
    simpa only [Ib.LPORT_LINK_CHANGE, Nat.zero_add] using this
  · have hadm : (fun x => x == lpStat p || intReg (Pg.LPORT (p / 8)) x) Rg.ADM_PFC_PRI = false := by
      have hreg : Rg.ADM_PFC_PRI ≠ lpStat p := by
        have : Rg.ADM_PFC_PRI / 0x1000 = 0x1011 := by decide
        rw [lpStat_val]
        omega
      simp [hreg, intReg_of_own (lport_mod p) (show ownReg Rg.ADM_PFC_PRI = true by decide)]
    refine pauseWant_congr p hpart ?_ ?_ (hframe.rd keeps_ports hadm)
    · rw [hframe.1]; rfl
    · rw [hframe.1]; rfl
  · rw [lportOn_iff, hpart]
    refine ⟨(lportOn_iff.1 hon).1, ?_⟩
    rw [lkRise_eq s p hon hst, setInt_pageOn _ _ _ _ (lport_mod p), hpage]
    exact (lportOn_iff.1 hon).2

/-- What the PFC frame of a port is sent with. -/
theorem pfcSend_eq (s : State) (p : Nat) : ∃ y q, s.pfcSend p =
    ((s.setLport p y).lpBump p 10).emit (.pfc p (s.pauseWant p ||| (s.lport p).pfcSent) q) := ⟨_, _, rfl⟩

/-- A PFC frame sent: counted on the port, and recorded as output (R218). -/
theorem pfcSend_shows (s : State) (p : Nat) :
    (∃ q, Emit.pfc p (s.pauseWant p ||| (s.lport p).pfcSent) q ∈ (s.pfcSend p).out) ∧ (∀ x, ownReg x = true → x ≠ lpCnt p 10 → x ≠ lpCnt p 10 + 4 →
      (s.pfcSend p).rd x = s.rd x) ∧
    s.frame State.takePorts (fun x => x == lpCnt p 10 || x == lpCnt p 10 + 4 || cntReg (Pg.LPORT (p / 8)) x) (s.pfcSend p) := by
  obtain ⟨y, q, he⟩ := pfcSend_eq s p
  have hlt : lpCnt p 10 % 0x1000 + 4 < 0x800 := by rw [lpCnt_val]; omega
  have hpg : lpCnt p 10 / 0x1000 * 0x1000 = Pg.LPORT (p / 8) := by rw [lpCnt_val, lport_val]; omega
  rw [he]
  refine ⟨⟨q, List.mem_cons_self⟩, fun x hx h0 h4 => ?_, ?_⟩
  · rw [rd_emit, State.lpBump, rd_bump64_own hx hlt h0 h4, rd_setLport]
  · refine (setLport_frame s p y).regs keeps_ports (((onlyRegs_refl _ _).bump64 hlt (by simp) (by simp) fun x hx => ?_).emit)
    rw [hpg]
    exact (Bool.or_eq_false_iff.1 hx).2

/-- The end of the hold: the port is UP, and sends one PFC frame where a pause is wanted or stands announced (R66, R218). -/
theorem holdExpiry_shows (s : State) (p : Nat) (hon : s.lportOn p = true) (hst : s.lkState p = lkHold) :
    (s.holdExpiry p).lkState p = lkUp ∧ (s.holdExpiry p).fb (lpStat p) Fd.LPORT_STAT_LINK_UP = true ∧
    bit ((s.holdExpiry p).rd (Pg.LPORT (p / 8) + 0x010)) (p % 8) = true ∧
    ((s.pauseWant p ||| (s.lport p).pfcSent) = 0 →
      s.frame State.takePorts (fun x => x == lpStat p || intReg (Pg.LPORT (p / 8)) x) (s.holdExpiry p)) ∧
    ((s.pauseWant p ||| (s.lport p).pfcSent) ≠ 0 →
      (∃ q, Emit.pfc p (s.pauseWant p ||| (s.lport p).pfcSent) q ∈ (s.holdExpiry p).out) ∧
      s.frame State.takePorts (fun x => x == lpStat p || intReg (Pg.LPORT (p / 8)) x || x == lpCnt p 10 || x == lpCnt p 10 + 4 ||
        cntReg (Pg.LPORT (p / 8)) x) (s.holdExpiry p)) := by
  have hp := lportOn_lt hon
  obtain ⟨hup, hlink, hbit, hwant, hsent, hon', hframe⟩ := lkRise_shows s p hon hst
  have hdown : s.lkIsUp p = false := by simp [State.lkIsUp, hst]
  have hrisen : (s.lkRise p).lkIsUp p = true := by simp [State.lkIsUp, hup]
  have he : s.holdExpiry p = if ((s.pauseWant p ||| (s.lport p).pfcSent) != 0) = true then (s.lkRise p).pfcSend p else s.lkRise p := by
    simp only [State.holdExpiry, hdown, hon', hwant, hsent, hrisen, Bool.not_false, Bool.true_and]
  by_cases h0 : (s.pauseWant p ||| (s.lport p).pfcSent) = 0
  · rw [he, if_neg (by simp [h0])]
    exact ⟨hup, hlink, hbit, fun _ => hframe, fun h => absurd h0 h⟩
  · obtain ⟨hout, hrd, hsend⟩ := pfcSend_shows (s.lkRise p) p
    have hkeepsInt : bit (((s.lkRise p).pfcSend p).rd (Pg.LPORT (p / 8) + 0x010)) (p % 8) = true := by
      obtain ⟨y, q, hs⟩ := pfcSend_eq (s.lkRise p) p
      rw [hs, rd_emit]
      exact keepsInt_bump64 ((s.lkRise p).setLport p y) (lpCnt p 10) 1 (by rw [lpCnt_val]; omega) (by rw [lpCnt_val]; omega) _ _ (lport_mod p) (by omega) hbit
    have hstat : ((s.lkRise p).pfcSend p).rd (lpStat p) = (s.lkRise p).rd (lpStat p) :=
      hrd _ (own_lpStat hp) (by rw [lpStat_val, lpCnt_val]; omega) (by rw [lpStat_val, lpCnt_val]; omega)
    rw [hwant, hsent] at hout
    rw [he, if_pos (by simpa using h0)]
    refine ⟨(f_of_rd hstat _).trans hup, (fb_of_rd hstat _).trans hlink, hkeepsInt, fun h => absurd h h0, fun _ => ⟨hout, ?_⟩⟩
    exact .trans keeps_ports (hframe.mono fun x hx => by simp only [Bool.or_eq_false_iff] at hx ⊢; exact hx.1.1.1)
      (hsend.mono fun x hx => by simp only [Bool.or_eq_false_iff] at hx ⊢; exact ⟨⟨hx.1.1.2, hx.1.2⟩, hx.2⟩)

/-! ## Losses -/

theorem isClient_portFrame {P : Nat → Bool} {s t : State} {p : Nat} (h : s.frame State.takePorts P t) (hP : P (lpCfg p) = false) :
    t.isClient p = s.isClient p := isClient_of_rd (h.rd keeps_ports hP)

/-- A loss of alignment or codeword lock (R66, R69). -/
theorem lockLoss_shows (s : State) (p : Nat) (am fec : Bool) (hon : s.lportOn p = true) (hcl : s.isClient p = false)
    (hst : s.lkState p = lkHold ∨ s.lkState p = lkUp) :
    (s.lockLoss p am fec).lkState p = lkAligning ∧ (s.lockLoss p am fec).fb (lpStat p) Fd.LPORT_STAT_LINK_UP = false ∧
    (s.lockLoss p am fec).rd (lpPfcStat p) = 0 ∧
    (s.lockLoss p am fec).fb (lpStat p) Fd.LPORT_STAT_AM_LOCK = (s.fb (lpStat p) Fd.LPORT_STAT_AM_LOCK && !am) ∧
    (s.lockLoss p am fec).fb (lpStat p) Fd.LPORT_STAT_FEC_LOCK = (s.fb (lpStat p) Fd.LPORT_STAT_FEC_LOCK && !fec) ∧
    (s.lkState p = lkUp → bit ((s.lockLoss p am fec).rd (Pg.LPORT (p / 8) + 0x010)) (p % 8) = true) ∧
    s.frame State.takePorts (fun x => x == lpStat p || x == lpPfcStat p || intReg (Pg.LPORT (p / 8)) x) (s.lockLoss p am fec) := by
  have hp := lportOn_lt hon
  have hlost : s.frame State.takePorts (fun x => x == lpStat p || x == lpPfcStat p || intReg (Pg.LPORT (p / 8)) x) (s.lkLost p) :=
    lkLost_frame s p (by simp) (by simp) fun x hx => (Bool.or_eq_false_iff.1 hx).2
  obtain ⟨hpfc, hlink, hstat⟩ := lkLost_shows s p hp
  have ham : (s.lkLost p).fb (lpStat p) Fd.LPORT_STAT_AM_LOCK = s.fb (lpStat p) Fd.LPORT_STAT_AM_LOCK := congrArg (· == 1) (hstat _ (by decide))
  have hfec : (s.lkLost p).fb (lpStat p) Fd.LPORT_STAT_FEC_LOCK = s.fb (lpStat p) Fd.LPORT_STAT_FEC_LOCK := congrArg (· == 1) (hstat _ (by decide))
  have hflag := lkLost_flags s p hon
  have hcl' : ∀ a b, ((s.lkLost p).setLocks p a b).isClient p = false := fun a b => by
    refine (isClient_portFrame (hlost.regs keeps_ports (setLocks_onlyRegs _ p a b (by simp))) ?_).trans hcl
    simp [intReg_of_own (lport_mod p) (own_lpCfg hp)]
  have he : s.lockLoss p am fec = ((s.lkLost p).setLocks p (s.fb (lpStat p) Fd.LPORT_STAT_AM_LOCK && !am)
      (s.fb (lpStat p) Fd.LPORT_STAT_FEC_LOCK && !fec)).lkEnter p lkAligning := by
    have hge : ¬((!s.lportOn p || decide (s.lkState p < lkHold)) = true) := by
      rcases hst with h | h <;> rw [hon, h] <;> decide
    simp only [State.lockLoss, ham, hfec, hcl', Bool.false_eq_true, if_false]
    exact if_neg (by simpa using hge)
  rw [he]
  generalize s.lkLost p = u at *
  obtain ⟨h1, h2⟩ := setLocks_shows u p (s.fb (lpStat p) Fd.LPORT_STAT_AM_LOCK && !am) (s.fb (lpStat p) Fd.LPORT_STAT_FEC_LOCK && !fec)
  have hent : ∀ x, x ≠ lpStat p → ∀ a b st, ((u.setLocks p a b).lkEnter p st).rd x = u.rd x := fun x hx a b st =>
    ((lkEnter_frame (P := fun x => x == lpStat p) _ p st (beq_self_eq_true _)).rd keeps_ports (beq_false_of_ne hx)).trans
      ((setLocks_onlyRegs (P := fun x => x == lpStat p) u p a b (beq_self_eq_true _)).2 x (beq_false_of_ne hx))
  refine ⟨lkEnter_state _ _ _ (by decide), ?_, ?_, ?_, ?_, fun hup => ?_, ?_⟩
  · rw [State.fb, lkEnter_stat _ _ _ _ (by decide) (by decide), setLocks_stat _ _ _ _ _ (by decide) (by decide)]
    exact hlink
  · rw [hent _ (lpStat_ne_pfc p).symm, hpfc]
  · rw [State.fb, lkEnter_stat _ _ _ _ (by decide) (by decide)]
    exact h1
  · rw [State.fb, lkEnter_stat _ _ _ _ (by decide) (by decide)]
    exact h2
  · rw [hent _ (by rw [lpStat_val, lport_val]; omega)]
    exact hflag hup
  · exact .trans keeps_ports (hlost.regs keeps_ports (setLocks_onlyRegs u p _ _ (by simp))) (lkEnter_frame _ p _ (by simp))

/-- The registers that a loss of CDR lock of one of a port's lanes may change. -/
def State.cdrReg (s : State) (p x : Nat) : Bool :=
  x == lpStat p || x == lpPfcStat p || intReg (Pg.LPORT (p / 8)) x || (s.lpLanes p).any fun l => x == laneStat l

theorem cdrReg_other (s : State) {p x : Nat} (hx : ownReg x = true) (h1 : x ≠ lpStat p) (h2 : x ≠ lpPfcStat p) (h3 : ∀ l, x ≠ laneStat l) :
    s.cdrReg p x = false := by
  have h4 : ((s.lpLanes p).any fun l => x == laneStat l) = false := List.any_eq_false.2 fun l _ => by simp [h3 l]
  simp [State.cdrReg, h1, h2, h4, intReg_of_own (lport_mod p) hx]

/-- A loss of CDR lock takes a port that is not DOWN to TRAINING (R66). -/
theorem cdrLoss_shows (s : State) (p l : Nat) (hon : s.lportOn p = true) (hcl : s.isClient p = false)
    (hfit : p % 8 + cfgLanes (s.rd (lpCfg p)) ≤ 8) (hl : l ∈ s.lpLanes p) (hst : s.lkState p ≠ lkDown) :
    (s.cdrLoss p l).lkState p = lkTraining ∧ (s.cdrLoss p l).fb (lpStat p) Fd.LPORT_STAT_LINK_UP = false ∧
    (s.cdrLoss p l).fb (laneStat l) Fd.LSER_LANE_STAT_CDR_LOCK = false ∧ (s.cdrLoss p l).rd (lpPfcStat p) = 0 ∧
    s.frame State.takePorts (s.cdrReg p) (s.cdrLoss p l) := by
  have hp := lportOn_lt hon
  have hl64 : l < 64 := by have := lane_in_group hfit hl; omega
  have hlane : ∀ m ∈ s.lpLanes p, s.cdrReg p (laneStat m) = true := fun m hm => by simp only [State.cdrReg, any_lane hm, Bool.or_true]
  have hP : s.cdrReg p (lpStat p) = true := by simp [State.cdrReg]
  have hQ : s.cdrReg p (lpPfcStat p) = true := by simp [State.cdrReg]
  have hI : ∀ x, s.cdrReg p x = false → intReg (Pg.LPORT (p / 8)) x = false := fun x hx => by
    simp only [State.cdrReg, Bool.or_eq_false_iff] at hx
    exact hx.1.2
  have hcfg : s.cdrReg p (lpCfg p) = false := cdrReg_other s (own_lpCfg hp) (by rw [lpCfg_val, lpStat_val]; omega) (by rw [lpCfg_val, lpPfcStat_val]; omega)
    fun l => by rw [lpCfg_val, laneStat_val]; omega
  -- the lane's lock is gone, and the state still stands
  have h1 : s.frame State.takePorts (s.cdrReg p) (s.setF (laneStat l) Fd.LSER_LANE_STAT_CDR_LOCK 0) := .ofOnlyRegs keeps_ports (onlyRegs_setF s _ _ _ (hlane l hl))
  have hst1 : (s.setF (laneStat l) Fd.LSER_LANE_STAT_CDR_LOCK 0).lkState p = s.lkState p := f_setF_other _ _ _ _ _ _ (laneStat_ne_lpStat p l).symm
  have he : s.cdrLoss p l = (((((s.setF (laneStat l) Fd.LSER_LANE_STAT_CDR_LOCK 0).lkLost p).setLocks p false false).startTrain p).lkEnter p lkTraining) := by
    have hg : ¬((!s.lportOn p || !(s.lpLanes p).contains l) = true) := by simp [hon, hl]
    have hcl1 : (s.setF (laneStat l) Fd.LSER_LANE_STAT_CDR_LOCK 0).isClient p = false := (isClient_portFrame h1 hcfg).trans hcl
    refine (if_neg hg).trans (if_neg ?_)
    rw [hst1, hcl1]
    simpa using hst
  rw [he]
  have hcdr : (s.setF (laneStat l) Fd.LSER_LANE_STAT_CDR_LOCK 0).fb (laneStat l) Fd.LSER_LANE_STAT_CDR_LOCK = false := fb_setF_zero _ _ _ (by decide) rfl
  generalize s.setF (laneStat l) Fd.LSER_LANE_STAT_CDR_LOCK 0 = u at *
  have h2 := h1.trans keeps_ports (lkLost_frame u p hP hQ hI)
  obtain ⟨hpfc, hlink, -⟩ := lkLost_shows u p hp
  have hlost : (u.lkLost p).rd (laneStat l) = u.rd (laneStat l) := by
    refine (lkLost_frame (P := fun x => x == lpStat p || x == lpPfcStat p || intReg (Pg.LPORT (p / 8)) x) u p (by simp) (by simp)
      fun x hx => (Bool.or_eq_false_iff.1 hx).2).rd keeps_ports ?_
    simp [laneStat_ne_lpStat, laneStat_ne_lpPfcStat, intReg_of_own (lport_mod p) (own_laneStat hl64)]
  generalize u.lkLost p = v at *
  have h3 : s.frame State.takePorts (s.cdrReg p) (v.setLocks p false false) := h2.regs keeps_ports (setLocks_onlyRegs v p _ _ hP)
  have hlocks : ∀ x, x ≠ lpStat p → (v.setLocks p false false).rd x = v.rd x := fun x hx =>
    (setLocks_onlyRegs (P := fun x => x == lpStat p) v p false false (beq_self_eq_true _)).2 x (beq_false_of_ne hx)
  have hlink' : (v.setLocks p false false).f (lpStat p) Fd.LPORT_STAT_LINK_UP = v.f (lpStat p) Fd.LPORT_STAT_LINK_UP :=
    setLocks_stat _ _ _ _ _ (by decide) (by decide)
  generalize v.setLocks p false false = w at *
  have hlanes : w.lpLanes p = s.lpLanes p := by rw [State.lpLanes, State.lpLanes, h3.rd keeps_ports hcfg]
  obtain ⟨hset, hkeep⟩ := startTrain_shows w p
  have h4 : s.frame State.takePorts (s.cdrReg p) (w.startTrain p) := h3.regs keeps_ports (startTrain_onlyRegs w p (hlanes ▸ hlane))
  have hent : ∀ x, x ≠ lpStat p → ((w.startTrain p).lkEnter p lkTraining).rd x = (w.startTrain p).rd x := fun x hx =>
    (lkEnter_frame (P := fun x => x == lpStat p) _ p _ (beq_self_eq_true _)).rd keeps_ports (beq_false_of_ne hx)
  refine ⟨lkEnter_state _ _ _ (by decide), ?_, ?_, ?_, h4.trans keeps_ports (lkEnter_frame _ p _ hP)⟩
  · rw [State.fb, lkEnter_stat _ _ _ _ (by decide) (by decide), f_of_rd (hkeep _ fun m _ => (laneStat_ne_lpStat p m).symm), hlink']
    exact hlink
  · rw [State.fb, f_of_rd (hent _ (laneStat_ne_lpStat p l)), State.f, hset l (hlanes ▸ hl), bits_mod _ _ _ _ (by decide),
      bits_setBits_disjoint _ _ _ _ _ _ (by decide), hlocks _ (laneStat_ne_lpStat p l), hlost]
    exact hcdr
  · rw [hent _ (lpStat_ne_pfc p).symm, hkeep _ fun m _ => (laneStat_ne_lpPfcStat p m).symm, hlocks _ (lpStat_ne_pfc p).symm, hpfc]

/-! ## LOOPBACK -/

/-- LPORT_CTRL of every port has live fields alone. -/
theorem findReg_lpCtrl {p : Nat} (hp : p < 64) : ∃ r, findReg (lpCtrl p) = some r ∧ r.staged = false ∧
    r.fields = [fd 16 8 .rw 10, fa 6 2 .rw 0 0 2, fd 2 2 .rw 0, fd 1 1 .rw 1, fd 0 1 .rw 1] := by
  have key : ∀ p < 64, (findReg (lpCtrl p)).any (fun r => !r.staged &&
      decide (r.fields = [fd 16 8 .rw 10, fa 6 2 .rw 0 0 2, fd 2 2 .rw 0, fd 1 1 .rw 1, fd 0 1 .rw 1])) = true := by decide +kernel
  obtain ⟨r, hr, h⟩ := findReg_of_any (key p hp)
  rw [Bool.and_eq_true, Bool.not_eq_true', decide_eq_true_eq] at h
  exact ⟨r, hr, h⟩

/-- A write of LPORT_CTRL that changes LOOPBACK takes the port to DOWN (R66). -/
theorem lpCtrlWrite_shows (s : State) (p v : Nat) (hp : p < 64) (hne : bits v 6 2 ≠ s.f (lpCtrl p) Fd.LPORT_CTRL_LOOPBACK) (h3 : bits v 6 2 ≠ 3) :
    (s.lpCtrlWrite p v).lkState p = lkDown ∧ (s.lpCtrlWrite p v).fb (lpStat p) Fd.LPORT_STAT_LINK_UP = false ∧
    (s.lpCtrlWrite p v).f (lpCtrl p) Fd.LPORT_CTRL_LOOPBACK = bits v 6 2 ∧ (s.lpCtrlWrite p v).rd (lpPfcStat p) = 0 ∧
    s.frame State.takePorts (fun x => x == lpCtrl p || x == lpStat p || x == lpPfcStat p || intReg (Pg.LPORT (p / 8)) x) (s.lpCtrlWrite p v) := by
  obtain ⟨r, hr, hlive, hf⟩ := findReg_lpCtrl hp
  have hpg : lpCtrl p / 0x1000 * 0x1000 = Pg.LPORT (p / 8) := by rw [lpCtrl_val, lport_val]; omega
  have hwr : s.frame State.takePorts (fun x => x == lpCtrl p || x == lpStat p || x == lpPfcStat p || intReg (Pg.LPORT (p / 8)) x) (s.fieldWrite (lpCtrl p) v) := by
    rw [fieldWrite_of_live hr hlive]
    refine .ofOnlyRegs keeps_ports (((onlyRegs_refl _ s).wr (by simp)).setIntIf fun x hx => ?_)
    rw [hpg]
    exact (Bool.or_eq_false_iff.1 hx).2
  have hloop : (s.fieldWrite (lpCtrl p) v).f (lpCtrl p) Fd.LPORT_CTRL_LOOPBACK = bits v 6 2 := by
    have hmem : fa 6 2 .rw 0 0 2 ∈ r.fields := by rw [hf]; decide
    have hlt := bits_lt v 6 2
    have hok : (fa 6 2 .rw 0 0 2).ok (bits v 6 2) = true := by
      simp only [FieldDef.ok, decide_eq_true_eq]
      exact ⟨Nat.zero_le _, by change bits v 6 2 ≤ 2; omega⟩
    rw [State.f, fieldWrite_of_live hr hlive, rd_setIntIf_own (own_lpCtrl hp) (Nat.mul_mod_left _ _), rd_wr_same, bits_mod _ _ _ _ (by decide)]
    exact (bits_foldl_write (fields_apart hr) hmem (s.rd (lpCtrl p)) v).trans (if_pos hok)
  have he : s.lpCtrlWrite p v = (s.fieldWrite (lpCtrl p) v).lkToDown p := if_neg (by rw [hloop]; exact hne)
  rw [he, State.lkToDown]
  generalize s.fieldWrite (lpCtrl p) v = u at *
  have hlost := lkLost_frame (P := fun x => x == lpStat p || x == lpPfcStat p || intReg (Pg.LPORT (p / 8)) x) u p (by simp) (by simp)
    fun x hx => (Bool.or_eq_false_iff.1 hx).2
  obtain ⟨hpfc, hlink, -⟩ := lkLost_shows u p hp
  have hctrl : (u.lkLost p).rd (lpCtrl p) = u.rd (lpCtrl p) := by
    exact hlost.rd keeps_ports (by simp [intReg_of_own (lport_mod p) (own_lpCtrl hp)])
  have hgo : s.frame State.takePorts (fun x => x == lpCtrl p || x == lpStat p || x == lpPfcStat p || intReg (Pg.LPORT (p / 8)) x) (u.lkLost p) :=
    hwr.trans keeps_ports (hlost.mono fun x hx => by simp only [Bool.or_eq_false_iff] at hx ⊢; exact ⟨⟨hx.1.1.2, hx.1.2⟩, hx.2⟩)
  generalize u.lkLost p = w at *
  have hent : ∀ x, x ≠ lpStat p → ((w.setLocks p false false).lkEnter p lkDown).rd x = w.rd x := fun x hx =>
    ((lkEnter_frame (P := fun x => x == lpStat p) _ p _ (beq_self_eq_true _)).rd keeps_ports (beq_false_of_ne hx)).trans
      ((setLocks_onlyRegs (P := fun x => x == lpStat p) w p false false (beq_self_eq_true _)).2 x (beq_false_of_ne hx))
  refine ⟨lkEnter_state _ _ _ (by decide), ?_, ?_, ?_, ?_⟩
  · rw [State.fb, lkEnter_stat _ _ _ _ (by decide) (by decide), setLocks_stat _ _ _ _ _ (by decide) (by decide)]
    exact hlink
  · rw [f_of_rd (hent _ (by rw [lpCtrl_val, lpStat_val]; omega)), f_of_rd hctrl, hloop]
  · rw [hent _ (lpStat_ne_pfc p).symm, hpfc]
  · exact (hgo.regs keeps_ports (setLocks_onlyRegs w p _ _ (by simp))).trans keeps_ports (lkEnter_frame _ p _ (by simp))

/-- Settles O19: each step of a port's link state by its lemma. -/
theorem lineLinkStates : Obligations.LineLinkStates := by
  intro s p hon hcl hfit
  refine ⟨fun hst => ⟨⟨_, rfl, trainDone_shows s p hon hcl hst⟩, fun l hl ht => ⟨_, rfl, trainTimeout_shows s p l hon hfit hst hl ht⟩,
    _, rfl, trainRetry_shows s p hon hst⟩, fun hst => ⟨_, rfl, aligned_shows s p hon hcl hst⟩, fun hst => ⟨_, rfl, holdExpiry_shows s p hon hst⟩,
    fun am fec hst => ⟨_, rfl, lockLoss_shows s p am fec hon hcl hst⟩, fun l hl hst => ⟨_, rfl, cdrLoss_shows s p l hon hcl hfit hl hst⟩,
    fun a v hm hne h3 => ?_⟩
  have he : exec (.loopbackChange a p v) s = .next (s.lpCtrlWrite p v.toNat) :=
    congrArg Host.Outcome.next ((if_pos (lportOn_iff.1 hon).1).trans (onWrite_of s a _ _ hm))
  exact ⟨_, he, lpCtrlWrite_shows s p v.toNat (lportOn_lt hon) hne h3⟩

end Sys2Proof.Machine
end

section
/-! SUPPORT. Fault ordered sets, codewords, frames and PFC received on a line port (R67 to R74). -/
namespace Sys2Proof.Machine

/-! ## Channel counters -/

theorem lpCnt_off {p i : Nat} (hi : i < 16) : lpCnt p i % 0x1000 + 4 < 0x800 ∧ 0x100 ≤ lpCnt p i % 0x1000 := by rw [lpCnt_val]; omega

theorem lpCnt_page {p i : Nat} (hi : i < 16) : lpCnt p i / 0x1000 * 0x1000 = Pg.LPORT (p / 8) ∧ lpCnt p i / 0x1000 = 0x010 + p / 8 := by
  rw [lpCnt_val, lport_val]; omega

/-- A channel counter that advances leaves every other register of a block's own. -/
theorem rd_lpBump_own {s : State} {p i n x : Nat} (hi : i < 16) (hx : ownReg x = true) (h0 : x ≠ lpCnt p i) (h4 : x ≠ lpCnt p i + 4) :
    (s.lpBump p i n).rd x = s.rd x := rd_bump64_own hx (lpCnt_off hi).1 h0 h4

theorem rd64_lpBump_same {s : State} {p i n : Nat} (hi : i < 16) (hp : p < 64) (hon : s.pageOn (0x010 + p / 8) = true) :
    (s.lpBump p i n).rd64 (lpCnt p i) = (s.rd64 (lpCnt p i) + n) % 2 ^ 64 := by
  obtain ⟨h0, h4⟩ := own_lpCnt hp hi
  exact bump64_rd64 s _ n (lpCnt_off hi).1 h0 h4 (by rw [(lpCnt_page hi).2, hon])

theorem rd64_lpBump_other {s : State} {p i j n : Nat} (hi : i < 16) (hj : j < 16) (hp : p < 64) (h : j ≠ i) :
    (s.lpBump p i n).rd64 (lpCnt p j) = s.rd64 (lpCnt p j) := by
  obtain ⟨h0, h4⟩ := own_lpCnt hp hj
  refine rd64_congr (rd_lpBump_own hi h0 ?_ ?_) (rd_lpBump_own hi h4 ?_ ?_)
  all_goals rw [lpCnt_val, lpCnt_val]; omega

theorem lpBump_onlyRegs {P : Nat → Bool} (s : State) {p i n : Nat} (hi : i < 16) (h0 : P (lpCnt p i) = true) (h4 : P (lpCnt p i + 4) = true)
    (hP : ∀ x, P x = false → cntReg (Pg.LPORT (p / 8)) x = false) : State.onlyRegs P s (s.lpBump p i n) :=
  (onlyRegs_refl P s).bump64 (lpCnt_off hi).1 h0 h4 ((lpCnt_page hi).1 ▸ hP)

theorem pageOn_lpBump (s : State) (p i n g : Nat) (hi : i < 16) (hp : p < 64) : (s.lpBump p i n).pageOn g = s.pageOn g := by
  refine onlyRegs_pageOn (lpBump_onlyRegs (P := fun x => x == lpCnt p i || x == lpCnt p i + 4 || cntReg (Pg.LPORT (p / 8)) x) s hi (by simp) (by simp)
    fun x hx => (Bool.or_eq_false_iff.1 hx).2) (fun d w hd hw => ?_) g
  have h0 := ne_domStat_page (a := lpCnt p i) (by rw [lpCnt_val]; omega) (by rw [lpCnt_val]; omega) d w hd hw
  have h4 := ne_domStat_page (a := lpCnt p i + 4) (by rw [lpCnt_val]; omega) (by rw [lpCnt_val]; omega) d w hd hw
  simp [h0.symm, h4.symm, cntReg_dom _ d w (lport_mod p) hd hw]

/-- One channel counter advanced on a powered port: its value, and all that changes. -/
theorem lpBump_shows (s : State) (p i n : Nat) (hi : i < 16) (hon : s.lportOn p = true) :
    (s.lpBump p i n).rd64 (lpCnt p i) = (s.rd64 (lpCnt p i) + n) % 2 ^ 64 ∧
    State.onlyRegs (fun x => x == lpCnt p i || x == lpCnt p i + 4 || cntReg (Pg.LPORT (p / 8)) x) s (s.lpBump p i n) :=
  ⟨rd64_lpBump_same hi (lportOn_lt hon) (lportOn_iff.1 hon).2, lpBump_onlyRegs s hi (by simp) (by simp) fun x hx => (Bool.or_eq_false_iff.1 hx).2⟩

/-! ## Fault ordered sets and codewords -/

theorem lpFaultBits_shows (s : State) (p : Nat) :
    (s.lpFaultBits p).fb (lpStat p) Fd.LPORT_STAT_RF = (s.lport p).rxRf ∧
    (s.lpFaultBits p).fb (lpStat p) Fd.LPORT_STAT_LF = ((s.lport p).rxLf || (s.lkState p != lkDown && !s.fb (lpStat p) Fd.LPORT_STAT_AM_LOCK)) :=
  ⟨fb_setF_b2n _ _ _ _ (by decide) rfl, (fb_setF_disjoint _ _ _ _ _ (by decide) (by decide)).trans (fb_setF_b2n _ _ _ _ (by decide) rfl)⟩

/-- Received fault ordered sets show in LF and RF alone (R68). -/
theorem faultSets_shows (s : State) (p : Nat) (lf rf : Bool) (hon : s.lportOn p = true) :
    (s.faultSets p lf rf).fb (lpStat p) Fd.LPORT_STAT_RF = rf ∧
    (s.faultSets p lf rf).fb (lpStat p) Fd.LPORT_STAT_LF = (lf || (s.lkState p != lkDown && !s.fb (lpStat p) Fd.LPORT_STAT_AM_LOCK)) ∧
    (s.faultSets p lf rf).lkState p = s.lkState p ∧ s.frame State.takePorts (fun x => x == lpStat p) (s.faultSets p lf rf) := by
  have hrx : ∀ x : LinePort, ({ x with rxLf := lf, rxRf := rf } : LinePort).rxRf = rf ∧ ({ x with rxLf := lf, rxRf := rf } : LinePort).rxLf = lf :=
    fun _ => ⟨rfl, rfl⟩
  rw [State.faultSets, if_pos hon]
  obtain ⟨hr, hl⟩ := hrx (s.lport p)
  generalize ({ s.lport p with rxLf := lf, rxRf := rf } : LinePort) = x at *
  obtain ⟨h1, h2⟩ := lpFaultBits_shows (s.setLport p x) p
  rw [lport_setLport] at h1 h2
  have hst : (s.setLport p x).lkState p = s.lkState p := f_of_rd (rd_setLport s p x _) _
  refine ⟨?_, ?_, ?_, .trans keeps_ports (setLport_frame s p x) (lpRefresh_frame _ p (beq_self_eq_true _))⟩
  · rw [fb_of_rd (lpRefresh_rd _ _ _), h1, hr]
  · rw [fb_of_rd (lpRefresh_rd _ _ _), h2, hl, hst, fb_of_rd (rd_setLport s p x _)]
  · rw [State.lkState, lpRefresh_stat _ _ _ (by decide) (by decide)]
    exact hst

/-- A codeword that is decoded (R67). -/
theorem fecCodeword_good (s : State) (p errs : Nat) (hon : s.lportOn p = true)
    (hg : errs = 0 ∨ (errs ≤ 15 ∧ s.fb (lpCtrl p) Fd.LPORT_CTRL_FEC_CORRECT = true)) :
    (s.fecCodeword p errs).rd (Rg.LSER_FEC_HIST (p / 8) (p % 8) errs) = (s.rd (Rg.LSER_FEC_HIST (p / 8) (p % 8) errs) + 1) % 2 ^ 32 ∧
    (0 < errs → (s.fecCodeword p errs).rd64 (lpCnt p 12) = (s.rd64 (lpCnt p 12) + 1) % 2 ^ 64 ∧
      (s.fecCodeword p errs).rd64 (lpCnt p 14) = (s.rd64 (lpCnt p 14) + errs) % 2 ^ 64) ∧
    State.onlyRegs (fun x => x == Rg.LSER_FEC_HIST (p / 8) (p % 8) errs || decide (lpCnt p 12 ≤ x ∧ x < lpCnt p 15) ||
      cntReg (Pg.LPORT (p / 8)) x || cntReg (Pg.LSER (p / 8)) x) s (s.fecCodeword p errs) := by
  have hp := lportOn_lt hon
  have h15 : errs ≤ 15 := by omega
  have hval : Rg.LSER_FEC_HIST (p / 8) (p % 8) errs = 0x18200 + 0x1000 * (p / 8) + 0x40 * (p % 8) + 4 * errs := by simp only [Rg.LSER_FEC_HIST, Pg.LSER]; omega
  have hbins : Pg.LSER (p / 8) = 0x18000 + 0x1000 * (p / 8) := rfl
  have he : s.fecCodeword p errs = if errs = 0 then s.bump (Rg.LSER_FEC_HIST (p / 8) (p % 8) errs)
      else ((s.bump (Rg.LSER_FEC_HIST (p / 8) (p % 8) errs)).lpBump p 12).lpBump p 14 errs :=
    (if_neg (by omega)).trans ((if_neg (by simp [hon])).trans (if_pos hg))
  rw [he]
  generalize Rg.LSER_FEC_HIST (p / 8) (p % 8) errs = h at *
  have hpage : s.pageOn (h / 0x1000) = true := by
    rw [show h / 0x1000 = 0x018 + p / 8 by omega]
    exact pageOn_lser hon
  have hown : ownReg h = true := by rw [ownReg_iff]; omega
  have hcnt := bump_rd_own s h 1 hown (by omega) (by omega) hpage
  have hon1 : (s.bump h).pageOn (0x010 + p / 8) = true := by
    rw [pageOn_bump _ _ _ _ (by omega) (by omega) (by omega)]
    exact (lportOn_iff.1 hon).2
  have hkeep : ∀ j, j < 16 → (s.bump h).rd64 (lpCnt p j) = s.rd64 (lpCnt p j) := fun j hj => by
    obtain ⟨h0, h4⟩ := own_lpCnt hp hj
    refine rd64_congr (rd_bump_own h0 (by omega) ?_) (rd_bump_own h4 (by omega) ?_)
    all_goals rw [lpCnt_val]; omega
  have hframe : State.onlyRegs (fun x => x == h || decide (lpCnt p 12 ≤ x ∧ x < lpCnt p 15) || cntReg (Pg.LPORT (p / 8)) x || cntReg (Pg.LSER (p / 8)) x)
      s (s.bump h) := by
    refine (onlyRegs_refl _ s).bump (by omega) (by simp) fun x hx => ?_
    rw [show h / 0x1000 * 0x1000 = Pg.LSER (p / 8) by omega]
    exact (Bool.or_eq_false_iff.1 hx).2
  have hrange : ∀ i, 12 ≤ i → i < 15 → lpCnt p 12 ≤ lpCnt p i ∧ lpCnt p i < lpCnt p 15 ∧ lpCnt p 12 ≤ lpCnt p i + 4 ∧ lpCnt p i + 4 < lpCnt p 15 := fun i h1 h2 => by
    simp only [lpCnt_val]
    omega
  have hbump : ∀ (u : State) (i n : Nat), 12 ≤ i → i < 15 → State.onlyRegs (fun x => x == h || decide (lpCnt p 12 ≤ x ∧ x < lpCnt p 15) ||
      cntReg (Pg.LPORT (p / 8)) x || cntReg (Pg.LSER (p / 8)) x) u (u.lpBump p i n) := fun u i n h1 h2 => by
    obtain ⟨a, b, c, d⟩ := hrange i h1 h2
    exact lpBump_onlyRegs u (by omega) (by simp [a, b]) (by simp [c, d]) fun x hx => by simp only [Bool.or_eq_false_iff] at hx; exact hx.1.2
  by_cases h0 : errs = 0
  · rw [if_pos h0]
    exact ⟨hcnt, fun hlt => absurd h0 (by omega), hframe⟩
  · rw [if_neg h0]
    refine ⟨?_, fun _ => ⟨?_, ?_⟩, onlyRegs_trans hframe (onlyRegs_trans (hbump _ 12 1 (by decide) (by decide)) (hbump _ 14 errs (by decide) (by decide)))⟩
    · rw [rd_lpBump_own (by decide) hown (by rw [lpCnt_val]; omega) (by rw [lpCnt_val]; omega),
        rd_lpBump_own (by decide) hown (by rw [lpCnt_val]; omega) (by rw [lpCnt_val]; omega), hcnt]
    · rw [rd64_lpBump_other (by decide) (by decide) hp (by decide), rd64_lpBump_same (by decide) hp hon1, hkeep 12 (by decide)]
    · rw [rd64_lpBump_same (by decide) hp (by rw [pageOn_lpBump _ _ _ _ _ (by decide) hp]; exact hon1),
        rd64_lpBump_other (by decide) (by decide) hp (by decide), hkeep 14 (by decide)]

/-- A codeword that is not decoded is counted in FEC_UNCORR_CW alone (R67). -/
theorem fecCodeword_bad (s : State) (p errs : Nat) (hon : s.lportOn p = true)
    (hg : ¬(errs = 0 ∨ (errs ≤ 15 ∧ s.fb (lpCtrl p) Fd.LPORT_CTRL_FEC_CORRECT = true))) : s.fecCodeword p errs = s.lpBump p 13 :=
  (if_neg (by have := lportOn_lt hon; omega)).trans ((if_neg (by simp [hon])).trans (if_neg hg))

/-- Settles O20: fault ordered sets, and codewords decoded and not. -/
theorem lineFaultsAndCodewords : Obligations.LineFaultsAndCodewords := by
  intro s p hon
  refine ⟨fun lf rf => ⟨_, rfl, faultSets_shows s p lf rf hon⟩, fun errs => ⟨_, rfl, ?_⟩⟩
  by_cases hg : errs = 0 ∨ (errs ≤ 15 ∧ s.fb (lpCtrl p) Fd.LPORT_CTRL_FEC_CORRECT = true)
  · obtain ⟨hhist, hcw, hframe⟩ := fecCodeword_good s p errs hon hg
    exact ⟨hframe, fun _ => ⟨hhist, hcw⟩, fun h => absurd hg h⟩
  · rw [fecCodeword_bad s p errs hon hg]
    obtain ⟨hcnt, hframe⟩ := lpBump_shows s p 13 1 (by decide) hon
    refine ⟨onlyRegs_mono hframe fun x hx => ?_, fun h => absurd h hg, fun _ => ⟨hcnt, hframe⟩⟩
    simp only [Bool.or_eq_false_iff, decide_eq_false_iff_not, beq_eq_false_iff_ne, lpCnt_val] at hx ⊢
    exact ⟨⟨by omega, by omega⟩, hx.1.2⟩

/-! ## Received PFC -/

/-- The word of LPORT_PFC_STAT with bit `i` of the priorities set or cleared. -/
theorem bit_setBits_one (v i j : Nat) (b : Bool) : bit (setBits v i 1 (b2n b)) j = if j = i then b else bit v j := by
  rw [bit_eq_testBit, testBit_setBits, bit_eq_testBit]
  by_cases h : j = i
  · subst h
    cases b <;> simp
  · rw [if_neg (by omega), if_neg h]

theorem bit_mod_two_pow {v i n : Nat} (h : i < n) : bit (v % 2 ^ n) i = bit v i := by
  rw [bit_eq_testBit, bit_eq_testBit, Nat.testBit_mod_two_pow]
  simp [h]

theorem setPause_frame {P : Nat → Bool} (s : State) (p i q : Nat) (hP : P (lpPfcStat p) = true) : s.frame State.takePorts P (s.setPause p i q) :=
  (setLport_frame s p _).regs keeps_ports (onlyRegs_wr _ _ _ hP)

theorem setPause_rd (s : State) (p i q : Nat) : (s.setPause p i q).rd (lpPfcStat p) = setBits (s.rd (lpPfcStat p)) i 1 (b2n (q != 0)) % 2 ^ 32 := rd_wr_same _ _ _

/-- A pause set or released changes its own bit of LPORT_PFC_STAT (R72). -/
theorem setPause_bit (s : State) (p i q j : Nat) (hj : j < 32) :
    bit ((s.setPause p i q).rd (lpPfcStat p)) j = if j = i then q != 0 else bit (s.rd (lpPfcStat p)) j := by
  rw [setPause_rd, bit_mod_two_pow hj, bit_setBits_one]

/-- The pauses that a PFC frame sets, one priority after the other. -/
def State.pfcPauses (s u : State) (p enable : Nat) (quanta : List Nat) (l : List Nat) : State := l.foldl (fun t i =>
  if bit enable i && bit (s.f (lpPfcCfg p) Fd.LPORT_PFC_CFG_RX_PRI_EN) i && !bit (s.rd (lpPfcStat p)) (8 + i) then
    t.setPause p i (lget 0 quanta i % 2 ^ 16)
  else t) u

theorem pfcPauses_shows (s : State) (p enable : Nat) (quanta : List Nat) (l : List Nat) (hl : ∀ i ∈ l, i < 8) (hn : l.Nodup) (u : State) :
    (∀ j, j < 32 → bit ((s.pfcPauses u p enable quanta l).rd (lpPfcStat p)) j =
      if j ∈ l ∧ (bit enable j && bit (s.f (lpPfcCfg p) Fd.LPORT_PFC_CFG_RX_PRI_EN) j && !bit (s.rd (lpPfcStat p)) (8 + j)) = true then
        lget 0 quanta j % 2 ^ 16 != 0 else bit (u.rd (lpPfcStat p)) j) ∧
    u.frame State.takePorts (fun x => x == lpPfcStat p) (s.pfcPauses u p enable quanta l) := by
  induction l generalizing u with
  | nil => exact ⟨fun j _ => by simp [State.pfcPauses], .refl keeps_ports⟩
  | cons i l ih =>
    obtain ⟨hi, hn⟩ := List.nodup_cons.1 hn
    obtain ⟨hbits, hframe⟩ := ih (fun k hk => hl k (List.mem_cons_of_mem _ hk)) hn
      (if bit enable i && bit (s.f (lpPfcCfg p) Fd.LPORT_PFC_CFG_RX_PRI_EN) i && !bit (s.rd (lpPfcStat p)) (8 + i) then
        u.setPause p i (lget 0 quanta i % 2 ^ 16) else u)
    refine ⟨fun j hj => (hbits j hj).trans ?_, .trans keeps_ports (.ite (setPause_frame u p i _ (beq_self_eq_true _)) (.refl keeps_ports)) hframe⟩
    by_cases hji : j = i
    · subst hji
      rw [if_neg (by simp [hi])]
      split
      next h => rw [setPause_bit _ _ _ _ _ hj, if_pos rfl, if_pos ⟨List.mem_cons_self, h⟩]
      next h => rw [if_neg (by simp only [not_and]; exact fun _ => h)]
    · have hmem : j ∈ i :: l ↔ j ∈ l := by simp [hji]
      simp only [hmem]
      split
      · rfl
      · split
        · rw [setPause_bit _ _ _ _ _ hj, if_neg hji]
        · rfl

theorem pfcRx_eq (s : State) (p enable : Nat) (quanta : List Nat) (hon : s.lportOn p = true) (hup : s.lkIsUp p = true) :
    s.pfcRx p enable quanta = s.pfcPauses (s.lpBump p 6) p enable quanta (List.range 8) := if_neg (by simp [hon, hup])

/-- A PFC frame received by a port that is UP (R72, R74). -/
theorem pfcRx_shows (s : State) (p enable : Nat) (quanta : List Nat) (hon : s.lportOn p = true) (hup : s.lkIsUp p = true) :
    (s.pfcRx p enable quanta).rd64 (lpCnt p 6) = (s.rd64 (lpCnt p 6) + 1) % 2 ^ 64 ∧
    (∀ i, i < 8 → bit ((s.pfcRx p enable quanta).rd (lpPfcStat p)) i =
      if bit enable i && bit (s.f (lpPfcCfg p) Fd.LPORT_PFC_CFG_RX_PRI_EN) i && !bit (s.rd (lpPfcStat p)) (8 + i) then lget 0 quanta i % 2 ^ 16 != 0
      else bit (s.rd (lpPfcStat p)) i) ∧
    (s.pfcRx p enable quanta).f (lpPfcStat p) Fd.LPORT_PFC_STAT_STORM = s.f (lpPfcStat p) Fd.LPORT_PFC_STAT_STORM ∧
    s.frame State.takePorts (fun x => x == lpPfcStat p || x == lpCnt p 6 || x == lpCnt p 6 + 4 || cntReg (Pg.LPORT (p / 8)) x) (s.pfcRx p enable quanta) := by
  have hp := lportOn_lt hon
  obtain ⟨hcnt, hbump⟩ := lpBump_shows s p 6 1 (by decide) hon
  obtain ⟨hbits, hframe⟩ := pfcPauses_shows s p enable quanta (List.range 8) (fun i hi => List.mem_range.1 hi) List.nodup_range (s.lpBump p 6)
  rw [pfcRx_eq s p enable quanta hon hup]
  have hpfc : (s.lpBump p 6).rd (lpPfcStat p) = s.rd (lpPfcStat p) :=
    rd_lpBump_own (by decide) (own_lpPfcStat hp) (by rw [lpPfcStat_val, lpCnt_val]; omega) (by rw [lpPfcStat_val, lpCnt_val]; omega)
  rw [hpfc] at hbits
  generalize s.pfcPauses (s.lpBump p 6) p enable quanta (List.range 8) = t at *
  refine ⟨?_, fun i hi => ?_, ?_, ?_⟩
  · rw [← hcnt]
    refine rd64_congr (hframe.rd keeps_ports (beq_false_of_ne ?_)) (hframe.rd keeps_ports (beq_false_of_ne ?_))
    all_goals rw [lpPfcStat_val, lpCnt_val]; omega
  · rw [hbits i (by omega)]
    simp [hi]
  · refine Nat.eq_of_testBit_eq fun j => ?_
    rw [State.f, State.f, testBit_bits, testBit_bits]
    by_cases hj : j < 8
    · have h := hbits (8 + j) (by omega)
      rw [if_neg (by simp), bit_eq_testBit, bit_eq_testBit] at h
      exact congrArg (decide (j < 8) && ·) h
    · simp [hj]
  · exact .trans keeps_ports (.ofOnlyRegs keeps_ports (onlyRegs_mono hbump fun x hx => by
      simp only [Bool.or_eq_false_iff] at hx ⊢; exact ⟨⟨hx.1.1.2, hx.1.2⟩, hx.2⟩)) (hframe.mono fun x hx => by
      simp only [Bool.or_eq_false_iff] at hx; exact hx.1.1.1)

/-- A pause timer that reaches 0 (R72). -/
theorem pauseExpiry_shows (s : State) (p i : Nat) (hon : s.lportOn p = true) (hi : i < 8) :
    bit ((s.pauseExpiry p i).rd (lpPfcStat p)) i = false ∧
    (∀ j, j < 16 → j ≠ i → bit ((s.pauseExpiry p i).rd (lpPfcStat p)) j = bit (s.rd (lpPfcStat p)) j) ∧
    s.frame State.takePorts (fun x => x == lpPfcStat p) (s.pauseExpiry p i) := by
  rw [State.pauseExpiry, if_pos hon, Nat.mod_eq_of_lt hi]
  refine ⟨?_, fun j hj hne => ?_, setPause_frame s p i 0 (beq_self_eq_true _)⟩
  · rw [setPause_bit _ _ _ _ _ (by omega), if_pos rfl]
    rfl
  · rw [setPause_bit _ _ _ _ _ (by omega), if_neg hne]

theorem bit_setBit (v i j : Nat) : bit (setBit v i) j = (bit v j || decide (j = i)) := by
  have he : bit (setBit v i) j = if j = i then true else bit v j := bit_setBits_one v i j true
  rw [he]
  by_cases h : j = i <;> simp [h]

/-- The storm: the priority is released and in recovery (R74). -/
def State.stormStart (s : State) (p i : Nat) : State := (s.setPause p i 0).wr (lpPfcStat p) (setBit ((s.setPause p i 0).rd (lpPfcStat p)) (8 + i))

theorem pfcStorm_eq (s : State) (p i : Nat) (hon : s.lportOn p = true) (hi : i < 8) (hb : bit (s.rd (lpPfcStat p)) i = true)
    (ht : s.f (Rg.LPORT_STORM_CFG (p / 8) (p % 8)) Fd.LPORT_STORM_CFG_STORM_TIME ≠ 0) :
    ∃ y, s.pfcStorm p i = (((s.stormStart p i).setLport p y).lpBump p 15).setInt (Pg.LPORT (p / 8)) (Ib.LPORT_STORM (p % 8)) := by
  refine ⟨{ (s.stormStart p i).lport p with sawStorm := true }, ?_⟩
  simp only [State.pfcStorm, Nat.mod_eq_of_lt hi]
  exact if_neg (by simp [hon, hb, ht])

/-- A pause in force for STORM_TIME (R74). -/
theorem pfcStorm_shows (s : State) (p i : Nat) (hon : s.lportOn p = true) (hi : i < 8) (hb : bit (s.rd (lpPfcStat p)) i = true)
    (ht : s.f (Rg.LPORT_STORM_CFG (p / 8) (p % 8)) Fd.LPORT_STORM_CFG_STORM_TIME ≠ 0) :
    bit ((s.pfcStorm p i).rd (lpPfcStat p)) i = false ∧ bit ((s.pfcStorm p i).rd (lpPfcStat p)) (8 + i) = true ∧
    (s.pfcStorm p i).rd64 (lpCnt p 15) = (s.rd64 (lpCnt p 15) + 1) % 2 ^ 64 ∧
    bit ((s.pfcStorm p i).rd (Pg.LPORT (p / 8) + 0x010)) (8 + p % 8) = true ∧
    s.frame State.takePorts (fun x => x == lpPfcStat p || x == lpCnt p 15 || x == lpCnt p 15 + 4 || cntReg (Pg.LPORT (p / 8)) x) (s.pfcStorm p i) := by
  have hp := lportOn_lt hon
  obtain ⟨y, he⟩ := pfcStorm_eq s p i hon hi hb ht
  have hbits : ∀ j, j < 32 → bit ((s.stormStart p i).rd (lpPfcStat p)) j = (if j = i then false else bit (s.rd (lpPfcStat p)) j || decide (j = 8 + i)) := fun j hj => by
    rw [State.stormStart, rd_wr_same, bit_mod_two_pow hj, bit_setBit, setPause_bit _ _ _ _ _ hj]
    by_cases hji : j = i
    · simp [hji]
    · rw [if_neg hji, if_neg hji]
  have hnext : s.frame State.takePorts (fun x => x == lpPfcStat p) ((s.stormStart p i).setLport p y) :=
    .trans keeps_ports ((setPause_frame s p i 0 (by simp)).regs keeps_ports (onlyRegs_wr _ _ _ (by simp))) (setLport_frame _ p y)
  have hpfc : ((s.stormStart p i).setLport p y).rd (lpPfcStat p) = (s.stormStart p i).rd (lpPfcStat p) := rd_setLport _ _ _ _
  rw [he]
  generalize (s.stormStart p i).setLport p y = u at *
  have hpage : ∀ g, u.pageOn g = s.pageOn g := pageOn_portFrame hnext fun d hd w hw => (Bool.or_eq_false_iff.1 (lpReg_dom hp d hd w hw)).2
  have hstat : ((u.lpBump p 15).setInt (Pg.LPORT (p / 8)) (Ib.LPORT_STORM (p % 8))).rd (lpPfcStat p) = (s.stormStart p i).rd (lpPfcStat p) := by
    rw [rd_setInt_own (own_lpPfcStat hp) (lport_mod p), rd_lpBump_own (by decide) (own_lpPfcStat hp) (by rw [lpPfcStat_val, lpCnt_val]; omega)
      (by rw [lpPfcStat_val, lpCnt_val]; omega), hpfc]
  obtain ⟨h0, h4⟩ := own_lpCnt hp (i := 15) (by decide)
  refine ⟨?_, ?_, ?_, ?_, ?_⟩
  · rw [hstat, hbits i (by omega), if_pos rfl]
  · rw [hstat, hbits _ (by omega), if_neg (by omega)]
    simp
  · rw [rd64_congr (rd_setInt_own h0 (lport_mod p)) (rd_setInt_own h4 (lport_mod p)), rd64_lpBump_same (by decide) hp (by rw [hpage, (lportOn_iff.1 hon).2])]
    have : u.rd64 (lpCnt p 15) = s.rd64 (lpCnt p 15) := by
      refine rd64_congr (hnext.rd keeps_ports ?_) (hnext.rd keeps_ports ?_)
      all_goals
        simp only [beq_eq_false_iff_ne, lpPfcStat_val, lpCnt_val]
        omega
    rw [this]
  · exact setInt_bit _ (Pg.LPORT (p / 8)) (Ib.LPORT_STORM (p % 8)) (lport_mod p) (by simp only [Ib.LPORT_STORM]; omega)
      (by rw [pageOn_lpBump _ _ _ _ _ (by decide) hp, hpage]; exact pageOn_lport hon)
  · refine (hnext.mono fun x hx => ?_).regs keeps_ports (State.onlyRegs.setInt
      (lpBump_onlyRegs u (by decide) (by simp) (by simp) fun x hx => (Bool.or_eq_false_iff.1 hx).2) fun x hx => cntReg_int _ x (Bool.or_eq_false_iff.1 hx).2)
    simp only [Bool.or_eq_false_iff] at hx
    exact hx.1.1.1

/-- The end of a recovery (R74). -/
theorem stormEnd_shows (s : State) (p i : Nat) (hon : s.lportOn p = true) (hi : i < 8) :
    bit ((s.stormEnd p i).rd (lpPfcStat p)) (8 + i) = false ∧ State.onlyRegs (fun x => x == lpPfcStat p) s (s.stormEnd p i) := by
  rw [State.stormEnd, if_pos hon, Nat.mod_eq_of_lt hi]
  refine ⟨?_, onlyRegs_wr s _ _ (beq_self_eq_true _)⟩
  rw [rd_wr_same, bit_mod_two_pow (by omega), clrBit, ← b2n_false, bit_setBits_one, if_pos rfl]

/-- Settles O22: each command by its lemma. -/
theorem pfcReception : Obligations.PfcReception := by
  intro s p hon
  exact ⟨fun enable quanta hup => ⟨_, rfl, pfcRx_shows s p enable quanta hon hup⟩, fun i hi => ⟨_, rfl, pauseExpiry_shows s p i hon hi⟩,
    fun i hi hb ht => ⟨_, rfl, pfcStorm_shows s p i hon hi hb ht⟩, fun i hi => ⟨_, rfl, stormEnd_shows s p i hon hi⟩⟩

end Sys2Proof.Machine
end

section
/-! SUPPORT. What the MAC does with a frame (R69 to R71). -/
namespace Sys2Proof.Machine

/-- A state with the line ports and the MAC queue of another. -/
def State.takeMac (s t : State) : State := { s with ports := t.ports, macQ := t.macQ }

theorem keeps_mac : State.Keeps State.takeMac := ⟨fun _ _ _ _ _ _ _ => rfl, fun _ _ _ => rfl, fun _ _ _ _ _ => rfl⟩

/-- The registers that a frame within the limits may change. -/
def macReg (p x : Nat) : Bool :=
  x == lpPfcStat p || decide (lpCnt p 0 ≤ x ∧ x < lpCnt p 16) || x / 0x1000 == 0x0E8 + p / 8 || cntReg (Pg.LPORT (p / 8)) x

theorem macReg_cnt {p : Nat} (x : Nat) (h : macReg p x = false) : cntReg (Pg.LPORT (p / 8)) x = false := (Bool.or_eq_false_iff.1 h).2

theorem macReg_lpCnt {p i : Nat} (hi : i < 16) : macReg p (lpCnt p i) = true ∧ macReg p (lpCnt p i + 4) = true := by
  simp only [macReg, Bool.or_eq_true, decide_eq_true_eq]
  constructor
  all_goals
    refine .inl (.inl (.inr ?_))
    simp only [lpCnt_val]
    omega

theorem macFrame_lpBump (s : State) {p i n : Nat} (hi : i < 16) : State.onlyRegs (macReg p) s (s.lpBump p i n) :=
  lpBump_onlyRegs s hi (macReg_lpCnt hi).1 (macReg_lpCnt hi).2 macReg_cnt

/-- The size of a received frame is counted in the page LRMON of its group. -/
theorem lrMon_eq (s : State) (p len : Nat) : ∃ i, i ≤ 6 ∧ s.lrMon p 0 len = s.bump (Rg.LRMON_RX_64 (p / 8) (p % 8) + 4 * (0 + i)) := by
  refine ⟨_, ?_, rfl⟩
  split_ifs <;> decide

theorem lrMon_shows (s : State) (p len : Nat) (hp : p < 64) : State.onlyRegs (macReg p) s (s.lrMon p 0 len) ∧
    (∀ x, ownReg x = true → x / 0x1000 < 0x0E8 → (s.lrMon p 0 len).rd x = s.rd x) ∧ ∀ g, (s.lrMon p 0 len).pageOn g = s.pageOn g := by
  obtain ⟨i, hi, he⟩ := lrMon_eq s p len
  have hval : Rg.LRMON_RX_64 (p / 8) (p % 8) + 4 * (0 + i) = 0xE8000 + 0x1000 * (p / 8) + Rg.LRMON_RX_64 0 (p % 8) % 0x1000 + 4 * i := by
    simp only [Rg.LRMON_RX_64, Pg.LRMON]
    omega
  have hoff : Rg.LRMON_RX_64 0 (p % 8) % 0x1000 + 4 * i < 0x800 := by
    simp only [Rg.LRMON_RX_64, Pg.LRMON]
    omega
  rw [he]
  generalize Rg.LRMON_RX_64 (p / 8) (p % 8) + 4 * (0 + i) = a at *
  have ha : a / 0x1000 = 0x0E8 + p / 8 ∧ a % 0x1000 < 0x800 := by omega
  refine ⟨(onlyRegs_refl _ s).bump ha.2 (by simp [macReg, ha.1]) fun x hx => ?_, fun x hx hlt => rd_bump_own hx ha.2 (by rintro rfl; omega),
    fun g => pageOn_bump s a 1 g ha.2 (by omega) (by omega)⟩
  have hirq := intReg_irq _ x (cntReg_int _ x (macReg_cnt x hx))
  have hpg : x / 0x1000 ≠ 0x0E8 + p / 8 := by
    simp only [macReg, Bool.or_eq_false_iff, beq_eq_false_iff_ne] at hx
    exact hx.1.2
  simp only [cntReg, intReg, hirq, Bool.or_false, Bool.or_eq_false_iff, decide_eq_false_iff_not, beq_eq_false_iff_ne]
  omega

/-- A frame within the limits, counted as good or for its FCS, and by its size. -/
def State.macCounted (s : State) (p : Nat) (b : List Byte) : State :=
  (if fcsOk b then (s.lpBump p 0).lpBump p 1 b.length else s.lpBump p 2).lrMon p 0 b.length

/-- What the counts of a frame leave, and show. -/
theorem macCounted_shows (s : State) (p : Nat) (b : List Byte) (hon : s.lportOn p = true) :
    State.onlyRegs (macReg p) s (s.macCounted p b) ∧ (∀ g, (s.macCounted p b).pageOn g = s.pageOn g) ∧
    (s.macCounted p b).rd (lpPfcStat p) = s.rd (lpPfcStat p) ∧ (s.macCounted p b).rd (lpStat p) = s.rd (lpStat p) ∧
    (∀ j, 3 ≤ j → j < 16 → (s.macCounted p b).rd64 (lpCnt p j) = s.rd64 (lpCnt p j)) ∧
    (fcsOk b = true → (s.macCounted p b).rd64 (lpCnt p 0) = (s.rd64 (lpCnt p 0) + 1) % 2 ^ 64 ∧
      (s.macCounted p b).rd64 (lpCnt p 1) = (s.rd64 (lpCnt p 1) + b.length) % 2 ^ 64) ∧
    (fcsOk b = false → (s.macCounted p b).rd64 (lpCnt p 2) = (s.rd64 (lpCnt p 2) + 1) % 2 ^ 64) := by
  have hp := lportOn_lt hon
  have hpage := (lportOn_iff.1 hon).2
  have hsize : ∀ (u : State) (j : Nat), j < 16 → (u.lrMon p 0 b.length).rd64 (lpCnt p j) = u.rd64 (lpCnt p j) := fun u j hj => by
    obtain ⟨h0, h4⟩ := own_lpCnt hp hj
    exact rd64_congr ((lrMon_shows u p _ hp).2.1 _ h0 (by rw [lpCnt_val]; omega)) ((lrMon_shows u p _ hp).2.1 _ h4 (by rw [lpCnt_val]; omega))
  have hother : ∀ (u : State) (i n x : Nat), i < 16 → ownReg x = true → x = lpPfcStat p ∨ x = lpStat p → (u.lpBump p i n).rd x = u.rd x := fun u i n x hi hx h => by
    refine rd_lpBump_own hi hx ?_ ?_
    all_goals rcases h with rfl | rfl <;> simp only [lpPfcStat_val, lpStat_val, lpCnt_val] <;> omega
  have hreg : ∀ (u : State) (x : Nat), ownReg x = true → x = lpPfcStat p ∨ x = lpStat p → (u.lrMon p 0 b.length).rd x = u.rd x := fun u x hx h =>
    (lrMon_shows u p _ hp).2.1 x hx (by rcases h with rfl | rfl <;> simp only [lpPfcStat_val, lpStat_val] <;> omega)
  unfold State.macCounted
  by_cases hf : fcsOk b = true
  · rw [if_pos hf]
    refine ⟨onlyRegs_trans (onlyRegs_trans (macFrame_lpBump s (by decide)) (macFrame_lpBump _ (by decide))) (lrMon_shows _ p _ hp).1, fun g => ?_, ?_, ?_,
      fun j h3 hj => ?_, fun _ => ⟨?_, ?_⟩, fun h => absurd hf (by simp [h])⟩
    · rw [(lrMon_shows _ p _ hp).2.2, pageOn_lpBump _ _ _ _ _ (by decide) hp, pageOn_lpBump _ _ _ _ _ (by decide) hp]
    · rw [hreg _ _ (own_lpPfcStat hp) (.inl rfl), hother _ _ _ _ (by decide) (own_lpPfcStat hp) (.inl rfl), hother _ _ _ _ (by decide) (own_lpPfcStat hp) (.inl rfl)]
    · rw [hreg _ _ (own_lpStat hp) (.inr rfl), hother _ _ _ _ (by decide) (own_lpStat hp) (.inr rfl), hother _ _ _ _ (by decide) (own_lpStat hp) (.inr rfl)]
    · rw [hsize _ j hj, rd64_lpBump_other (by decide) hj hp (by omega), rd64_lpBump_other (by decide) hj hp (by omega)]
    · rw [hsize _ 0 (by decide), rd64_lpBump_other (by decide) (by decide) hp (by decide), rd64_lpBump_same (by decide) hp hpage]
    · rw [hsize _ 1 (by decide), rd64_lpBump_same (by decide) hp (by rw [pageOn_lpBump _ _ _ _ _ (by decide) hp, hpage]),
        rd64_lpBump_other (by decide) (by decide) hp (by decide)]
  · rw [if_neg hf]
    refine ⟨onlyRegs_trans (macFrame_lpBump s (by decide)) (lrMon_shows _ p _ hp).1, fun g => ?_, ?_, ?_, fun j h3 hj => ?_, fun h => absurd h hf, fun _ => ?_⟩
    · rw [(lrMon_shows _ p _ hp).2.2, pageOn_lpBump _ _ _ _ _ (by decide) hp]
    · rw [hreg _ _ (own_lpPfcStat hp) (.inl rfl), hother _ _ _ _ (by decide) (own_lpPfcStat hp) (.inl rfl)]
    · rw [hreg _ _ (own_lpStat hp) (.inr rfl), hother _ _ _ _ (by decide) (own_lpStat hp) (.inr rfl)]
    · rw [hsize _ j hj, rd64_lpBump_other (by decide) hj hp (by omega)]
    · rw [hsize _ 2 (by decide), rd64_lpBump_same (by decide) hp hpage]

/-- A frame within the limits and without a code error, after its counts (R70, R71). -/
theorem macRx_eq (s : State) (p clk : Nat) (b : List Byte) (hon : s.lportOn p = true) (hfx : s.lpFlexe p ≠ 1) (hup : s.lkIsUp p = true)
    (h64 : 64 ≤ b.length) (hmax : b.length ≤ s.f (lpCfg p) Fd.LPORT_CFG_MAX_FRAME) :
    s.macRx p b none clk =
      if fcsOk b = false ∧ b.length ≤ 256 then s.macCounted p b
      else if fcsOk b = true ∧ be16 b 12 = 0x8808 then
        if be16 b 14 = 0x0101 then (s.macCounted p b).pfcRx p (be16 b 16 % 256) ((List.range 8).map fun i => be16 b (18 + 2 * i))
        else if be16 b 14 = 0x0001 then (s.macCounted p b).lpBump p 7 else s.macCounted p b
      else { s.macCounted p b with macQ := (s.macCounted p b).macQ ++ [⟨p, b, !fcsOk b, s.rxStamp p clk⟩] } := by
  have hgo : ¬((!s.lportOn p || !s.lkIsUp p || s.lpFlexe p == 1) = true) := by simp [hon, hfx, hup]
  unfold State.macRx
  rw [if_neg hgo, if_neg (by omega), if_neg (by omega)]
  cases hf : fcsOk b
  · by_cases hlen : b.length ≤ 256 <;> simp [hf, hlen, State.macCounted]
  · simp [hf, State.macCounted]

/-- Settles O21: what is not taken, and the frame within the limits by its FCS and type. -/
theorem macReceive : Obligations.MacReceive := by
  intro s p clk b hon hfx
  have hgo : s.lkIsUp p = true → ¬((!s.lportOn p || !s.lkIsUp p || s.lpFlexe p == 1) = true) := fun hup => by simp [hon, hfx, hup]
  refine ⟨fun hdn ce => ?_, fun hup hshort ce => ⟨_, ?_, lpBump_shows s p 3 1 (by decide) hon⟩, fun hup h64 hlong ce => ⟨_, ?_, lpBump_shows s p 4 1 (by decide) hon⟩,
    fun hup h64 hmax => ⟨_, congrArg Host.Outcome.next (macRx_eq s p clk b hon hfx hup h64 hmax), ?_⟩⟩
  · exact congrArg Host.Outcome.next (if_pos (by simp [hdn]))
  · exact congrArg Host.Outcome.next ((if_neg (hgo hup)).trans (if_pos hshort))
  · exact congrArg Host.Outcome.next ((if_neg (hgo hup)).trans ((if_neg (by omega)).trans (if_pos hlong)))
  have hp := lportOn_lt hon
  obtain ⟨hframe, hpage, hpfc, hstat, hcnt, hgood, hbad⟩ := macCounted_shows s p b hon
  have hq : (s.macCounted p b).macQ = s.macQ := onlyRegs_proj hframe State.macQ
  have hpart : (s.macCounted p b).part = s.part := onlyRegs_part hframe
  generalize s.macCounted p b = u at *
  have hu : s.frame State.takeMac (macReg p) u := .ofOnlyRegs keeps_mac hframe
  have honu : u.lportOn p = true := lportOn_iff.2 ⟨hpart ▸ (lportOn_iff.1 hon).1, (hpage _).trans (lportOn_iff.1 hon).2⟩
  have hupu : u.lkIsUp p = true := by
    rw [State.lkIsUp, State.lkState, f_of_rd hstat]
    exact hup
  cases hf : fcsOk b
  · -- the FCS is bad
    by_cases hlen : b.length ≤ 256
    · rw [if_pos ⟨rfl, hlen⟩, if_pos hlen]
      exact ⟨hu, fun h => absurd h (by decide), fun h => absurd h (by decide), fun h => absurd h (by decide), fun _ => ⟨hbad hf, hq⟩⟩
    · rw [if_neg (by simp [hlen]), if_neg (by simp), if_neg hlen]
      refine ⟨hu.trans keeps_mac (frame_of_eq rfl), fun h => absurd h (by decide), fun h => absurd h (by decide), fun h => absurd h (by decide), fun _ => ⟨hbad hf, ?_⟩⟩
      rw [← hq]
      rfl
  · rw [if_neg (by simp)]
    by_cases htype : be16 b 12 = 0x8808
    · rw [if_pos ⟨rfl, htype⟩]
      by_cases hpfcOp : be16 b 14 = 0x0101
      · rw [if_pos hpfcOp]
        obtain ⟨-, -, -, hrx⟩ := pfcRx_shows u p (be16 b 16 % 256) ((List.range 8).map fun i => be16 b (18 + 2 * i)) honu hupu
        generalize u.pfcRx p (be16 b 16 % 256) ((List.range 8).map fun i => be16 b (18 + 2 * i)) = t at *
        have hmac : u.frame State.takeMac (fun x => x == lpPfcStat p || x == lpCnt p 6 || x == lpCnt p 6 + 4 || cntReg (Pg.LPORT (p / 8)) x) t := by
          have e : t.macQ = u.macQ := by rw [hrx.1]; rfl
          refine ⟨?_, hrx.2⟩
          rw [State.takeMac, e]
          exact hrx.1
        have hkeep : ∀ j, j < 6 → t.rd64 (lpCnt p j) = u.rd64 (lpCnt p j) := fun j hj => by
          obtain ⟨h0, h4⟩ := own_lpCnt hp (i := j) (by omega)
          have hne : ∀ x, ownReg x = true → (x = lpCnt p j ∨ x = lpCnt p j + 4) →
              (x == lpPfcStat p || x == lpCnt p 6 || x == lpCnt p 6 + 4 || cntReg (Pg.LPORT (p / 8)) x) = false := fun x hx h => by
            simp only [cntReg_of_own (lport_mod p) hx, Bool.or_false, Bool.or_eq_false_iff, beq_eq_false_iff_ne, lpPfcStat_val, lpCnt_val] at h ⊢
            omega
          exact rd64_congr (hmac.rd keeps_mac (hne _ h0 (.inl rfl))) (hmac.rd keeps_mac (hne _ h4 (.inr rfl)))
        refine ⟨hu.trans keeps_mac (hmac.mono fun x hx => ?_), fun _ => ⟨(hkeep 0 (by decide)).trans (hgood hf).1, (hkeep 1 (by decide)).trans (hgood hf).2⟩,
          fun _ h => absurd htype h, fun _ _ h => absurd (hpfcOp.symm.trans h) (by decide), fun h => absurd h (by decide)⟩
        have h6 : x ≠ lpCnt p 6 ∧ x ≠ lpCnt p 6 + 4 :=
          ⟨State.onlyRegs.ne_of (macReg_lpCnt (by decide)).1 hx, State.onlyRegs.ne_of (macReg_lpCnt (by decide)).2 hx⟩
        simp only [macReg, Bool.or_eq_false_iff] at hx
        simp [h6.1, h6.2, hx.1.1.1, hx.2]
      · rw [if_neg hpfcOp]
        by_cases hpause : be16 b 14 = 0x0001
        · rw [if_pos hpause]
          refine ⟨hu.regs keeps_mac (macFrame_lpBump u (by decide)), fun _ => ⟨?_, ?_⟩, fun _ h => absurd htype h, fun _ _ _ => ⟨?_, ?_, ?_⟩, fun h => absurd h (by decide)⟩
          · rw [rd64_lpBump_other (by decide) (by decide) hp (by decide), (hgood hf).1]
          · rw [rd64_lpBump_other (by decide) (by decide) hp (by decide), (hgood hf).2]
          · exact (onlyRegs_proj (macFrame_lpBump u (i := 7) (n := 1) (p := p) (by decide)) State.macQ).trans hq
          · rw [rd_lpBump_own (by decide) (own_lpPfcStat hp) (by rw [lpPfcStat_val, lpCnt_val]; omega) (by rw [lpPfcStat_val, lpCnt_val]; omega), hpfc]
          · rw [rd64_lpBump_same (by decide) hp (lportOn_iff.1 honu).2, hcnt 7 (by decide) (by decide)]
        · rw [if_neg hpause]
          exact ⟨hu, fun _ => hgood hf, fun _ h => absurd htype h, fun _ _ h => absurd h hpause, fun h => absurd h (by decide)⟩
    · rw [if_neg (by simp [htype])]
      refine ⟨hu.trans keeps_mac (frame_of_eq rfl), fun _ => hgood hf, fun _ _ => ?_, fun _ h => absurd h htype, fun h => absurd h (by decide)⟩
      rw [← hq]
      rfl

end Sys2Proof.Machine
end

section
/-! SUPPORT. FlexE groups: calendar switches, received overhead and locks (R77 to R80). -/
namespace Sys2Proof.Machine

/-! ## Calendar switches -/

/-- A state with the FlexE groups of another. -/
def State.takeFlexe (s t : State) : State := { s with flexe := t.flexe }

theorem keeps_flexe : State.Keeps State.takeFlexe := ⟨fun _ _ _ _ _ _ _ => rfl, fun _ _ _ => rfl, fun _ _ _ _ _ => rfl⟩

theorem flexOn_iff {s : State} {e k : Nat} : s.flexOn e k = true ↔ (e < 2 ∧ k < 8) ∧ s.pageOn (0x020 + e) = true := by simp [State.flexOn]

theorem grpStat_val (e k : Nat) : Rg.FLEXE_GRP_STAT e k = 0x201C0 + 0x1000 * e + 4 * k := by simp only [Rg.FLEXE_GRP_STAT, Pg.FLEXE]; omega
theorem grpCfg_val (e k : Nat) : Rg.FLEXE_GRP_CFG e k = 0x20100 + 0x1000 * e + 4 * k := by simp only [Rg.FLEXE_GRP_CFG, Pg.FLEXE]; omega
theorem grpPhys_val (e k : Nat) : Rg.FLEXE_GRP_PHYS e k = 0x20120 + 0x1000 * e + 4 * k := by simp only [Rg.FLEXE_GRP_PHYS, Pg.FLEXE]; omega
theorem flexe_val (e : Nat) : Pg.FLEXE e = 0x20000 + 0x1000 * e := rfl
theorem flexe_mod (e : Nat) : Pg.FLEXE e % 0x1000 = 0 := by rw [flexe_val]; omega

theorem flexGrp_setFlexGrp (s : State) (e k : Nat) (x : FlexeGrp) : (s.setFlexGrp e k x).flexGrp e k = x := sget_sset_same _ _ _ _

theorem flexGrp_of_flexe {s t : State} (h : t.flexe = s.flexe) (e k : Nat) : t.flexGrp e k = s.flexGrp e k := by rw [State.flexGrp, State.flexGrp, h]

theorem setFlexGrp_frame {P : Nat → Bool} (s : State) (e k : Nat) (x : FlexeGrp) : s.frame State.takeFlexe P (s.setFlexGrp e k x) := frame_of_eq rfl

/-- The partner's acknowledge of a requested switch (R79). -/
theorem calAck_shows (s : State) (e k pg : Nat) (hon : s.flexOn e k = true) (hreq : (s.flexGrp e k).req = some pg) :
    ((s.calAck e k).flexGrp e k).acked = true ∧ (s.calAck e k).fb (Rg.FLEXE_GRP_STAT e k) Fd.FLEXE_GRP_STAT_CR_PENDING = false ∧
    s.frame State.takeFlexe (fun x => x == Rg.FLEXE_GRP_STAT e k) (s.calAck e k) := by
  have hack : ∀ x : FlexeGrp, ({ x with acked := true } : FlexeGrp).acked = true := fun _ => rfl
  rw [State.calAck, if_pos (by simp [hon, hreq])]
  refine ⟨?_, fb_setF_zero _ _ _ (by decide) rfl, (setFlexGrp_frame s e k _).regs keeps_flexe (onlyRegs_setF _ _ _ _ (beq_self_eq_true _))⟩
  rw [flexGrp_of_flexe (State.setF_flexe _ _ _ _), flexGrp_setFlexGrp, hack]

/-- The switch of the calendar on the wire (R79). -/
theorem calSwitch_shows (s : State) (e k pg : Nat) (hon : s.flexOn e k = true) (hreq : (s.flexGrp e k).req = some pg)
    (hgo : (s.flexGrp e k).acked = true ∨ s.fb (Rg.FLEXE_GRP_CFG e k) Fd.FLEXE_GRP_CFG_HANDSHAKE = false) :
    ((s.calSwitch e k).flexGrp e k).req = none ∧ (s.calSwitch e k).f (Rg.FLEXE_GRP_STAT e k) Fd.FLEXE_GRP_STAT_TX_CAL_INUSE = pg % 2 ∧
    (s.calSwitch e k).fb (Rg.FLEXE_GRP_STAT e k) Fd.FLEXE_GRP_STAT_CR_PENDING = false ∧
    s.frame State.takeFlexe (fun x => x == Rg.FLEXE_GRP_STAT e k) (s.calSwitch e k) := by
  have hc : (s.flexOn e k && ((s.flexGrp e k).acked || !s.fb (Rg.FLEXE_GRP_CFG e k) Fd.FLEXE_GRP_CFG_HANDSHAKE)) = true := by
    rcases hgo with h | h <;> simp [hon, h]
  have he : s.calSwitch e k = ((s.setFlexGrp e k {}).setF (Rg.FLEXE_GRP_STAT e k) Fd.FLEXE_GRP_STAT_TX_CAL_INUSE pg).setF
      (Rg.FLEXE_GRP_STAT e k) Fd.FLEXE_GRP_STAT_CR_PENDING 0 := by simp only [State.calSwitch, hreq, if_pos hc]
  rw [he]
  refine ⟨?_, ?_, fb_setF_zero _ _ _ (by decide) rfl,
    (setFlexGrp_frame s e k _).regs keeps_flexe (((onlyRegs_refl (fun x => x == Rg.FLEXE_GRP_STAT e k) _).setF (by simp)).setF (by simp))⟩
  · rw [flexGrp_of_flexe (State.setF_flexe _ _ _ _), flexGrp_of_flexe (State.setF_flexe _ _ _ _), flexGrp_setFlexGrp]
  · rw [f_setF_disjoint _ _ _ _ _ (by decide) (by decide), f_setF_same _ _ _ _ (by decide)]
    rfl

/-- Without an acknowledge a switch with HANDSHAKE waits, and times out (R79). -/
theorem calTimeout_shows (s : State) (e k pg : Nat) (hon : s.flexOn e k = true) (hreq : (s.flexGrp e k).req = some pg)
    (hack : (s.flexGrp e k).acked = false) (hhs : s.fb (Rg.FLEXE_GRP_CFG e k) Fd.FLEXE_GRP_CFG_HANDSHAKE = true) :
    s.calSwitch e k = s ∧ (s.calTimeout e k).fb (Rg.FLEXE_GRP_STAT e k) Fd.FLEXE_GRP_STAT_CR_PENDING = true ∧
    bit ((s.calTimeout e k).rd (Pg.FLEXE e + 0x010)) 8 = true ∧
    State.onlyRegs (fun x => x == Rg.FLEXE_GRP_STAT e k || intReg (Pg.FLEXE e) x) s (s.calTimeout e k) := by
  obtain ⟨⟨he, hk⟩, hp⟩ := flexOn_iff.1 hon
  have hto : s.calTimeout e k = (s.setF (Rg.FLEXE_GRP_STAT e k) Fd.FLEXE_GRP_STAT_CR_PENDING 1).setInt (Pg.FLEXE e) Ib.FLEXE_CAL_TIMEOUT :=
    if_pos (by simp [hon, hreq, hack, hhs])
  rw [hto]
  refine ⟨?_, ?_, ?_, ((onlyRegs_refl _ s).setF (by simp)).setInt fun x hx => (Bool.or_eq_false_iff.1 hx).2⟩
  · simp [State.calSwitch, hreq, hack, hhs]
  · rw [fb_of_rd (rd_setInt_own (by rw [ownReg_iff, grpStat_val]; omega) (flexe_mod e))]
    exact fb_setF_one _ _ _ (by decide) rfl
  · refine setInt_bit _ _ _ (flexe_mod e) (by decide) ?_
    rw [pageOn_setF_of _ _ _ _ _ (by rw [grpStat_val]; omega) (by rw [grpStat_val]; omega), show Pg.FLEXE e / 0x1000 = 0x020 + e by rw [flexe_val]; omega, hp]

/-! ## Clients -/

/-- The registers that tell how ports stand: states, pauses and events of the line ports, and the status and events of a FlexE group. -/
def flexReg (e k x : Nat) : Bool :=
  x == Rg.FLEXE_GRP_STAT e k || intReg (Pg.FLEXE e) x ||
    (decide (0x010 ≤ x / 0x1000 ∧ x / 0x1000 < 0x018) && (decide (x % 0x1000 < 0x100) || x % 0x20 == 8 || x % 0x20 == 0x14))

theorem flexReg_port {e k p : Nat} (hp : p < 64) : flexReg e k (lpStat p) = true ∧ flexReg e k (lpPfcStat p) = true ∧
    ∀ x, flexReg e k x = false → intReg (Pg.LPORT (p / 8)) x = false := by
  refine ⟨?_, ?_, fun x hx => ?_⟩
  · simp only [flexReg, Bool.or_eq_true, Bool.and_eq_true, decide_eq_true_eq, beq_iff_eq]
    right
    rw [lpStat_val]
    omega
  · simp only [flexReg, Bool.or_eq_true, Bool.and_eq_true, decide_eq_true_eq, beq_iff_eq]
    right
    rw [lpPfcStat_val]
    omega
  · simp only [flexReg, Bool.or_eq_false_iff, Bool.and_eq_false_iff, decide_eq_false_iff_not, beq_eq_false_iff_ne] at hx
    have hirq := intReg_irq _ x hx.1.2
    simp only [intReg, hirq, Bool.or_false, Bool.or_eq_false_iff, beq_eq_false_iff_ne, lport_val]
    omega

/-- A client brought to the state its group calls for changes its status, its pauses and the events of its page (R77). -/
theorem clientEval_frame {P : Nat → Bool} (s : State) (p : Nat) (h1 : P (lpStat p) = true) (h2 : P (lpPfcStat p) = true)
    (h3 : ∀ x, P x = false → intReg (Pg.LPORT (p / 8)) x = false) : s.frame State.takePorts P (s.clientEval p) := by
  have hlocks : ∀ a b, s.frame State.takePorts P (s.setLocks p a b) := fun a b => .ofOnlyRegs keeps_ports (setLocks_onlyRegs s p a b h1)
  unfold State.clientEval
  simp only []
  split_ifs
  · exact .refl keeps_ports
  · exact .refl keeps_ports
  · exact ((lkLost_frame s p h1 h2 h3).regs keeps_ports (setLocks_onlyRegs _ p _ _ h1)).trans keeps_ports (lkEnter_frame _ p _ h1)
  · exact (hlocks _ _).trans keeps_ports (lkEnter_frame _ p _ h1)
  · exact hlocks _ _
  · exact (hlocks _ _).trans keeps_ports (lkEnter_frame _ p _ h1)
  · exact ((hlocks _ _).trans keeps_ports (lkLost_frame _ p h1 h2 h3)).trans keeps_ports (lkEnter_frame _ p _ h1)
  · exact hlocks _ _

/-- One port's part in a change of its group's overhead: none of another port's status changes. -/
theorem clientEval_other (s : State) {p q : Nat} (hq : q < 64) (h : q ≠ p) : (s.clientEval p).rd (lpStat q) = s.rd (lpStat q) := by
  refine (clientEval_frame (P := fun x => x == lpStat p || x == lpPfcStat p || intReg (Pg.LPORT (p / 8)) x) s p (by simp) (by simp)
    fun x hx => (Bool.or_eq_false_iff.1 hx).2).rd keeps_ports ?_
  have hi := intReg_of_own (lport_mod p) (own_lpStat hq)
  have h1 : lpStat q ≠ lpStat p := by rw [lpStat_val, lpStat_val]; omega
  have h2 : lpStat q ≠ lpPfcStat p := by rw [lpStat_val, lpPfcStat_val]; omega
  simp only [hi, beq_false_of_ne h1, beq_false_of_ne h2, Bool.or_false]

theorem onesOf_lt {n v c : Nat} (h : c ∈ onesOf n v) : c < n := List.mem_range.1 (List.mem_of_mem_filter h)

/-- The group that carries a client rests on the configuration and the tables alone (R77). -/
theorem clientGroup_congr {s t : State} {p : Nat} (hp : p < 64) (hpart : t.part = s.part) (ht : t.tbls = s.tbls)
    (hcfg : ∀ q, q < 64 → t.rd (lpCfg q) = s.rd (lpCfg q))
    (hgrp : ∀ e k, e < 2 → k < 8 → t.rd (Rg.FLEXE_GRP_CFG e k) = s.rd (Rg.FLEXE_GRP_CFG e k) ∧ t.rd (Rg.FLEXE_GRP_PHYS e k) = s.rd (Rg.FLEXE_GRP_PHYS e k) ∧
      t.f (Rg.FLEXE_GRP_STAT e k) Fd.FLEXE_GRP_STAT_RX_CAL_INUSE = s.f (Rg.FLEXE_GRP_STAT e k) Fd.FLEXE_GRP_STAT_RX_CAL_INUSE) :
    t.clientGroup p = s.clientGroup p := by
  have he : flexEngine p < 2 := by simp only [flexEngine]; omega
  unfold State.clientGroup
  refine List.find?_congr fun k hk => ?_
  obtain ⟨h1, h2, h3⟩ := hgrp (flexEngine p) k he (List.mem_range.1 hk)
  have hslots : t.flexSlots (flexEngine p) k = s.flexSlots (flexEngine p) k := by
    rw [State.flexSlots, State.flexSlots, h2]
    refine congrArg List.sum (List.map_congr_left fun c hc => ?_)
    have := onesOf_lt hc
    rw [State.lpSpeed, State.lpSpeed, f_of_rd (hcfg _ (by omega))]
  have hslot : ∀ page i, t.flexSlot (flexEngine p) page k i = s.flexSlot (flexEngine p) page k i := fun page i => by
    rw [State.flexSlot, State.flexSlot, State.tbl, State.tbl, hpart, ht]
  simp only [fb_of_rd h1, State.slotsOf, hslots, hslot, State.rxPage, h3]

/-- What a client whose group is found becomes (R77). -/
theorem clientEval_shows (s : State) (p k : Nat) (hp : p < 64) (hcl : s.isClient p = true) (hg : s.clientGroup p = some k) :
    (s.clientLocked p = true → s.lkState p ≤ lkAligning → (s.clientEval p).lkState p = lkHold) ∧
    (s.clientLocked p = false → lkHold ≤ s.lkState p → (s.clientEval p).lkState p = lkAligning ∧
      (s.clientEval p).fb (lpStat p) Fd.LPORT_STAT_LINK_UP = false) := by
  have hlk : ∀ a b, (s.setLocks p a b).lkState p = s.lkState p := fun a b => setLocks_stat _ _ _ _ _ (by decide) (by decide)
  have hal : lkHold = lkAligning + 1 := rfl
  have hle : lkDown < lkHold := by decide
  unfold State.clientEval
  rw [if_neg (by simp [hcl]), if_neg (by simp [hg])]
  refine ⟨fun hok hst => ?_, fun hok hst => ?_⟩
  · simp only [hok, if_true, hlk]
    rw [if_pos (by omega)]
    exact lkEnter_state _ _ _ (by decide)
  · simp only [hok, Bool.false_eq_true, if_false, hlk]
    rw [if_neg (by omega), if_pos hst]
    refine ⟨lkEnter_state _ _ _ (by decide), ?_⟩
    rw [State.fb, lkEnter_stat _ _ _ _ (by decide) (by decide)]
    exact (lkLost_shows _ p hp).2.1

/-! ## Overhead -/

/-- A group's status word written, with the alarm that a change of its top bits raises. -/
theorem setGrpStat_shows (s : State) (e k v : Nat) (he : e < 2) (hk : k < 8) :
    (s.setGrpStat e k v).rd (Rg.FLEXE_GRP_STAT e k) = v % 2 ^ 32 ∧
    State.onlyRegs (fun x => x == Rg.FLEXE_GRP_STAT e k || intReg (Pg.FLEXE e) x) s (s.setGrpStat e k v) := by
  refine ⟨?_, ((onlyRegs_refl _ s).wr (by simp)).setIntIf fun x hx => (Bool.or_eq_false_iff.1 hx).2⟩
  rw [State.setGrpStat, rd_setIntIf_own (by rw [ownReg_iff, grpStat_val]; omega) (flexe_mod e), rd_wr_same]

theorem setGrpStat_frame (s : State) (e k v : Nat) (he : e < 2) (hk : k < 8) : s.frame State.takePorts (flexReg e k) (s.setGrpStat e k v) :=
  .ofOnlyRegs keeps_ports (onlyRegs_mono (setGrpStat_shows s e k v he hk).2 fun _ hx => (Bool.or_eq_false_iff.1 hx).1)

/-- The ports of an engine looked at in turn. -/
theorem flexFold_frame {e k : Nat} (he : e < 2) {g : State → Nat → State}
    (hg : ∀ (P : Nat → Bool) (u : State) (c : Nat), P (lpStat (32 * e + c)) = true → P (lpPfcStat (32 * e + c)) = true →
      (∀ x, P x = false → intReg (Pg.LPORT ((32 * e + c) / 8)) x = false) → u.frame State.takePorts P (g u c))
    (l : List Nat) (hl : ∀ c ∈ l, c < 32) (s : State) : s.frame State.takePorts (flexReg e k) (l.foldl g s) :=
  .foldl keeps_ports (fun u c hc => by
    have := hl c hc
    obtain ⟨h1, h2, h3⟩ := flexReg_port (e := e) (k := k) (p := 32 * e + c) (by omega)
    exact hg _ u c h1 h2 h3) (.refl keeps_ports)

theorem flexReg_grpStat (e k : Nat) {x : Nat} (hx : flexReg e k x = false) :
    (x == Rg.FLEXE_GRP_STAT e k || intReg (Pg.FLEXE e) x) = false := (Bool.or_eq_false_iff.1 hx).1

theorem flexReg_le {e k x : Nat} (h : (x == Rg.FLEXE_GRP_STAT e k || intReg (Pg.FLEXE e) x || decide (0x010 ≤ x / 0x1000 ∧ x / 0x1000 < 0x018)) = false) :
    flexReg e k x = false := by
  obtain ⟨h1, h2⟩ := Bool.or_eq_false_iff.1 h
  simp only [flexReg, h1, h2, Bool.false_and, Bool.or_false]

theorem flexReg_group {e k x : Nat} (hx : ownReg x = true) (hne : x ≠ Rg.FLEXE_GRP_STAT e k) (hp : 0x018 ≤ x / 0x1000) : flexReg e k x = false := by
  simp only [flexReg, intReg_of_own (flexe_mod e) hx, beq_false_of_ne hne, Bool.false_or, Bool.and_eq_false_iff, decide_eq_false_iff_not]
  omega

theorem flexReg_lpCfg {e k q : Nat} (hq : q < 64) : flexReg e k (lpCfg q) = false := by
  have hi := intReg_of_own (flexe_mod e) (own_lpCfg hq)
  have hne : lpCfg q ≠ Rg.FLEXE_GRP_STAT e k := by rw [lpCfg_val, grpStat_val]; omega
  have hoff : ¬ (lpCfg q % 0x1000 < 0x100) ∧ lpCfg q % 0x20 ≠ 8 ∧ lpCfg q % 0x20 ≠ 0x14 := by rw [lpCfg_val]; omega
  simp only [flexReg, hi, beq_false_of_ne hne, decide_eq_false hoff.1, beq_false_of_ne hoff.2.1, beq_false_of_ne hoff.2.2, Bool.or_false, Bool.and_false]

theorem flexReg_dom {e k : Nat} (he : e < 2) (hk : k < 8) : ∀ d ∈ [0, 1], ∀ w ∈ [0, 1], flexReg e k (Rg.PWR_DOM_STAT d w) = false := by
  have hall : ∀ d ∈ [0, 1], ∀ w ∈ [0, 1], ownReg (Rg.PWR_DOM_STAT d w) = true ∧ 0x018 ≤ Rg.PWR_DOM_STAT d w / 0x1000 := by decide
  intro d hd w hw
  have hd' : d ≤ 1 := by simp at hd; omega
  have hw' : w ≤ 1 := by simp at hw; omega
  exact flexReg_group (hall d hd w hw).1 (fun h => ne_domStat_page (by rw [grpStat_val]; omega) (by rw [grpStat_val]; omega) d w hd' hw' h.symm) (hall d hd w hw).2

/-- GRP_STAT is changed by none of the port updates. -/
theorem portFold_grpStat {e k : Nat} (he : e < 2) (hk : k < 8) {g : State → Nat → State}
    (hg : ∀ (P : Nat → Bool) (u : State) (c : Nat), P (lpStat (32 * e + c)) = true → P (lpPfcStat (32 * e + c)) = true →
      (∀ x, P x = false → intReg (Pg.LPORT ((32 * e + c) / 8)) x = false) → u.frame State.takePorts P (g u c))
    (l : List Nat) (hl : ∀ c ∈ l, c < 32) (s : State) : (l.foldl g s).rd (Rg.FLEXE_GRP_STAT e k) = s.rd (Rg.FLEXE_GRP_STAT e k) := by
  have hne : ∀ x, x = Rg.FLEXE_GRP_STAT e k → (decide (x / 0x1000 < 0x018) || irqReg x) = false := fun x h => by
    rw [h, irqReg_of_own (by rw [ownReg_iff, grpStat_val]; omega), Bool.or_false, decide_eq_false_iff_not, grpStat_val]
    omega
  refine (State.frame.foldl (P := fun x => decide (x / 0x1000 < 0x018) || irqReg x) keeps_ports (fun u c hc => ?_) (.refl keeps_ports)).rd keeps_ports (hne _ rfl)
  have := hl c hc
  refine hg _ u c ?_ ?_ fun x hx => ?_
  · simp only [lpStat_val, Bool.or_eq_true, decide_eq_true_eq]; left; omega
  · simp only [lpPfcStat_val, Bool.or_eq_true, decide_eq_true_eq]; left; omega
  · simp only [Bool.or_eq_false_iff, decide_eq_false_iff_not] at hx
    simp only [intReg, hx.2, Bool.or_false, Bool.or_eq_false_iff, beq_eq_false_iff_ne, lport_val]
    omega

/-- Whether a received calendar differs from the configured one (R80). -/
def State.calBad (s : State) (e k calPage : Nat) (cal : List (Option Nat)) : Bool :=
  (List.range (s.flexSlots e k)).any fun i =>
    let x := s.flexSlot e (2 + calPage % 2) k i
    (if bit x 7 then some (x % 32) else none) != lget none cal i

/-- The status word that received overhead makes (R78, R80). -/
def State.overheadWord (s : State) (e k num phys calPage : Nat) (cal : List (Option Nat)) : Nat :=
  setBits (setBits (setBits (setBits (s.rd (Rg.FLEXE_GRP_STAT e k)) 30 1 (b2n (num != s.f (Rg.FLEXE_GRP_CFG e k) Fd.FLEXE_GRP_CFG_GROUP_NUM))) 29 1
    (b2n (phys != s.phyMap e k))) 28 1 (b2n (s.calBad e k calPage cal))) 25 1 calPage

theorem overheadRx_eq (s : State) (e k num phys calPage : Nat) (cal : List (Option Nat)) (hon : s.flexOn e k = true) :
    s.overheadRx e k num phys calPage cal =
      (List.range 32).foldl (fun t c => if t.lportOn (32 * e + c) then t.clientEval (32 * e + c) else t)
        (s.setGrpStat e k (s.overheadWord e k num phys calPage cal)) := if_neg (by simp [hon])

theorem bits_b2n (b : Bool) : (b2n b % 2 ^ 1 == 1) = b := by cases b <;> rfl

/-- Received overhead shows its mismatches and the receive page, and re-routes no slot (R78, R80). -/
theorem overheadRx_shows (s : State) (e k num phys calPage : Nat) (cal : List (Option Nat)) (hon : s.flexOn e k = true) :
    (s.overheadRx e k num phys calPage cal).fb (Rg.FLEXE_GRP_STAT e k) Fd.FLEXE_GRP_STAT_GID_MISMATCH =
      (num != s.f (Rg.FLEXE_GRP_CFG e k) Fd.FLEXE_GRP_CFG_GROUP_NUM) ∧
    (s.overheadRx e k num phys calPage cal).fb (Rg.FLEXE_GRP_STAT e k) Fd.FLEXE_GRP_STAT_PHYMAP_MISMATCH = (phys != s.phyMap e k) ∧
    (s.overheadRx e k num phys calPage cal).f (Rg.FLEXE_GRP_STAT e k) Fd.FLEXE_GRP_STAT_RX_CAL_INUSE = calPage % 2 ∧
    s.frame State.takePorts (flexReg e k) (s.overheadRx e k num phys calPage cal) := by
  obtain ⟨⟨he, hk⟩, -⟩ := flexOn_iff.1 hon
  have hstep : ∀ (P : Nat → Bool) (u : State) (c : Nat), P (lpStat (32 * e + c)) = true → P (lpPfcStat (32 * e + c)) = true →
      (∀ x, P x = false → intReg (Pg.LPORT ((32 * e + c) / 8)) x = false) →
      u.frame State.takePorts P (if u.lportOn (32 * e + c) then u.clientEval (32 * e + c) else u) := fun P u c h1 h2 h3 =>
    .ite (clientEval_frame u _ h1 h2 h3) (.refl keeps_ports)
  have hl : ∀ c ∈ List.range 32, c < 32 := fun c hc => List.mem_range.1 hc
  have hrd : (s.overheadRx e k num phys calPage cal).rd (Rg.FLEXE_GRP_STAT e k) = s.overheadWord e k num phys calPage cal % 2 ^ 32 := by
    rw [overheadRx_eq s e k num phys calPage cal hon, portFold_grpStat he hk hstep _ hl, (setGrpStat_shows s e k _ he hk).1]
  refine ⟨?_, ?_, ?_, ?_⟩
  · rw [State.fb, State.f, hrd, bits_mod _ _ _ _ (by decide), State.overheadWord, bits_setBits_disjoint _ _ _ _ _ _ (by decide),
      bits_setBits_disjoint _ _ _ _ _ _ (by decide), bits_setBits_disjoint _ _ _ _ _ _ (by decide)]
    rw [show Fd.FLEXE_GRP_STAT_GID_MISMATCH = ⟨30, 1⟩ from rfl, bits_setBits_same, bits_b2n]
  · rw [State.fb, State.f, hrd, bits_mod _ _ _ _ (by decide), State.overheadWord, bits_setBits_disjoint _ _ _ _ _ _ (by decide),
      bits_setBits_disjoint _ _ _ _ _ _ (by decide)]
    rw [show Fd.FLEXE_GRP_STAT_PHYMAP_MISMATCH = ⟨29, 1⟩ from rfl, bits_setBits_same, bits_b2n]
  · rw [State.f, hrd, bits_mod _ _ _ _ (by decide), State.overheadWord]
    exact bits_setBits_same _ _ _ _
  · rw [overheadRx_eq s e k num phys calPage cal hon]
    exact (setGrpStat_frame s e k _ he hk).trans keeps_ports (flexFold_frame he hstep _ hl _)

/-! ## Overhead lock -/

/-- One channel's part in a change of its group's lock. -/
def State.ohStep (e k clients : Nat) (t : State) (c : Nat) : State :=
  if t.lportOn (32 * e + c) && t.clientGroup (32 * e + c) == some k then
    (t.setLport (32 * e + c) { t.lport (32 * e + c) with clientLock := bit clients c }).clientEval (32 * e + c)
  else t

/-- The status word that a change of overhead lock makes. -/
def State.lockWord (s : State) (e k : Nat) (lock desk : Bool) : Nat := setBits (setBits (s.rd (Rg.FLEXE_GRP_STAT e k)) 31 1 (b2n lock)) 27 1 (b2n desk)

theorem ohLock_eq (s : State) (e k : Nat) (lock desk : Bool) (clients : Nat) (hon : s.flexOn e k = true) :
    s.ohLock e k lock desk clients = (List.range 32).foldl (State.ohStep e k clients) (s.setGrpStat e k (s.lockWord e k lock desk)) := if_neg (by simp [hon])

theorem ohStep_frame {e k clients : Nat} (P : Nat → Bool) (u : State) (c : Nat) (h1 : P (lpStat (32 * e + c)) = true) (h2 : P (lpPfcStat (32 * e + c)) = true)
    (h3 : ∀ x, P x = false → intReg (Pg.LPORT ((32 * e + c) / 8)) x = false) : u.frame State.takePorts P (State.ohStep e k clients u c) :=
  .ite (.trans keeps_ports (setLport_frame u _ _) (clientEval_frame _ _ h1 h2 h3)) (.refl keeps_ports)

theorem ohStep_other {e k clients c : Nat} (u : State) {q : Nat} (hq : q < 64) (h : q ≠ 32 * e + c) :
    (State.ohStep e k clients u c).rd (lpStat q) = u.rd (lpStat q) := by
  unfold State.ohStep
  split
  · rw [clientEval_other _ hq h, rd_setLport]
  · rfl

theorem ohFold_other {e k clients : Nat} (l : List Nat) (u : State) {c : Nat} (hq : 32 * e + c < 64) (h : c ∉ l) :
    (l.foldl (State.ohStep e k clients) u).rd (lpStat (32 * e + c)) = u.rd (lpStat (32 * e + c)) := by
  induction l generalizing u with
  | nil => rfl
  | cons d l ih =>
    simp only [List.mem_cons, not_or] at h
    rw [List.foldl_cons, ih _ h.2, ohStep_other u hq (by omega)]

theorem clientLock_set (x : LinePort) (b : Bool) : ({ x with clientLock := b } : LinePort).clientLock = b := rfl

/-- A change of overhead lock leaves which page is received. -/
theorem lockWord_rx (s : State) (e k : Nat) (lock desk : Bool) : bits (s.lockWord e k lock desk) 25 1 = bits (s.rd (Rg.FLEXE_GRP_STAT e k)) 25 1 := by
  rw [State.lockWord, bits_setBits_disjoint _ _ _ _ _ _ (by decide), bits_setBits_disjoint _ _ _ _ _ _ (by decide)]

/-- What a client's part in a change of lock rests on while the ports before it were updated. -/
theorem clientLocked_frame {s t : State} {e k c : Nat} {lock desk b : Bool} (hc : c < 32) (hg : t.clientGroup (32 * e + c) = some k)
    (hw : t.rd (Rg.FLEXE_GRP_STAT e k) = s.lockWord e k lock desk % 2 ^ 32) :
    (t.setLport (32 * e + c) { t.lport (32 * e + c) with clientLock := b }).clientLocked (32 * e + c) = (lock && !desk && b) := by
  have hl : (t.setLport (32 * e + c) { t.lport (32 * e + c) with clientLock := b }).clientGroup (32 * e + c) = some k := hg
  have hen : flexEngine (32 * e + c) = e := by rw [flexEngine]; omega
  have hoh : bits (s.lockWord e k lock desk % 2 ^ 32) 31 1 = b2n lock % 2 ^ 1 := by
    rw [bits_mod _ _ _ _ (by decide), State.lockWord, bits_setBits_disjoint _ _ _ _ _ _ (by decide), bits_setBits_same]
  have hdesk : bits (s.lockWord e k lock desk % 2 ^ 32) 27 1 = b2n desk % 2 ^ 1 := by
    rw [bits_mod _ _ _ _ (by decide), State.lockWord, bits_setBits_same]
  simp only [State.clientLocked, hl, hen, lport_setLport, State.fb, State.f, rd_setLport, hw, hoh, hdesk, bits_b2n]

section Lock
variable {s : State} {e k : Nat} (hk : k < 8)
include hk

/-- Updates of ports and of a group's lock leave what groups clients. -/
theorem clientGroup_frame {t : State} {p : Nat} (hp : p < 64) (h : s.frame State.takePorts (flexReg e k) t)
    (hrx : t.f (Rg.FLEXE_GRP_STAT e k) Fd.FLEXE_GRP_STAT_RX_CAL_INUSE = s.f (Rg.FLEXE_GRP_STAT e k) Fd.FLEXE_GRP_STAT_RX_CAL_INUSE) :
    t.clientGroup p = s.clientGroup p := by
  have hcfg : ∀ q, q < 64 → t.rd (lpCfg q) = s.rd (lpCfg q) := fun q hq => h.rd keeps_ports (flexReg_lpCfg hq)
  have hgrp : ∀ x, ownReg x = true → x ≠ Rg.FLEXE_GRP_STAT e k → 0x018 ≤ x / 0x1000 → t.rd x = s.rd x := fun x hx hne hp => h.rd keeps_ports (flexReg_group hx hne hp)
  refine clientGroup_congr hp (onlyRegs_proj h State.part) (onlyRegs_proj h State.tbls) hcfg fun e' k' he' hk' => ⟨?_, ?_, ?_⟩
  · refine hgrp _ ?_ ?_ ?_
    · rw [ownReg_iff, grpCfg_val]; omega
    · rw [grpCfg_val, grpStat_val]; omega
    · rw [grpCfg_val]; omega
  · refine hgrp _ ?_ ?_ ?_
    · rw [ownReg_iff, grpPhys_val]; omega
    · rw [grpPhys_val, grpStat_val]; omega
    · rw [grpPhys_val]; omega
  · by_cases heq : Rg.FLEXE_GRP_STAT e' k' = Rg.FLEXE_GRP_STAT e k
    · rw [heq, hrx]
    · refine f_of_rd (hgrp _ ?_ heq ?_) _
      · rw [ownReg_iff, grpStat_val]; omega
      · rw [grpStat_val]; omega

section
variable (he : e < 2)
include he

/-- Overhead lock takes the clients of its group up and down (R77). -/
theorem ohLock_shows (s : State) (lock desk : Bool) (clients : Nat) (hon : s.flexOn e k = true) :
    (s.ohLock e k lock desk clients).rd (Rg.FLEXE_GRP_STAT e k) = s.lockWord e k lock desk % 2 ^ 32 ∧
    s.frame State.takePorts (flexReg e k) (s.ohLock e k lock desk clients) ∧
    (∀ c, c < 32 → s.lportOn (32 * e + c) = true → s.isClient (32 * e + c) = true → s.clientGroup (32 * e + c) = some k →
      ((lock && !desk && bit clients c) = true → s.lkState (32 * e + c) ≤ lkAligning → (s.ohLock e k lock desk clients).lkState (32 * e + c) = lkHold) ∧
      ((lock && !desk && bit clients c) = false → lkHold ≤ s.lkState (32 * e + c) →
        (s.ohLock e k lock desk clients).lkState (32 * e + c) = lkAligning ∧
        (s.ohLock e k lock desk clients).fb (lpStat (32 * e + c)) Fd.LPORT_STAT_LINK_UP = false)) := by
  have hl : ∀ c ∈ List.range 32, c < 32 := fun c hc => List.mem_range.1 hc
  have hset := setGrpStat_frame s e k (s.lockWord e k lock desk) he hk
  have hword := (setGrpStat_shows s e k (s.lockWord e k lock desk) he hk).1
  have hstat : ∀ q, q < 64 → (s.setGrpStat e k (s.lockWord e k lock desk)).rd (lpStat q) = s.rd (lpStat q) := fun q hq =>
    (setGrpStat_shows s e k _ he hk).2.2 (lpStat q) (by
      have hne : lpStat q ≠ Rg.FLEXE_GRP_STAT e k := by rw [lpStat_val, grpStat_val]; omega
      simp only [intReg_of_own (flexe_mod e) (own_lpStat hq), beq_false_of_ne hne, Bool.or_false])
  rw [ohLock_eq s e k lock desk clients hon]
  generalize s.setGrpStat e k (s.lockWord e k lock desk) = u at hset hword hstat ⊢
  refine ⟨?_, hset.trans keeps_ports (flexFold_frame he ohStep_frame _ hl _), fun c hc hp hcl hg => ?_⟩
  · rw [portFold_grpStat he hk ohStep_frame _ hl, hword]
  · obtain ⟨l1, l2, hsplit⟩ := List.append_of_mem (List.mem_range.2 hc)
    have hnd : (l1 ++ c :: l2).Nodup := hsplit ▸ List.nodup_range
    have hn1 : c ∉ l1 := fun h => (List.nodup_append.1 hnd).2.2 c h c List.mem_cons_self rfl
    have hn2 : c ∉ l2 := (List.nodup_cons.1 (List.nodup_append.1 hnd).2.1).1
    have hl1 : ∀ d ∈ l1, d < 32 := fun d hd => hl d (hsplit ▸ List.mem_append_left _ hd)
    have hf := hset.trans keeps_ports (flexFold_frame (k := k) he (ohStep_frame (k := k) (clients := clients)) l1 hl1 u)
    have hw1 : (l1.foldl (State.ohStep e k clients) u).rd (Rg.FLEXE_GRP_STAT e k) = s.lockWord e k lock desk % 2 ^ 32 := by
      rw [portFold_grpStat he hk ohStep_frame _ hl1, hword]
    have hst : (l1.foldl (State.ohStep e k clients) u).rd (lpStat (32 * e + c)) = s.rd (lpStat (32 * e + c)) := by
      rw [ohFold_other l1 u (by omega) hn1, hstat _ (by omega)]
    have hlast := ohFold_other (e := e) (k := k) (clients := clients) l2 (State.ohStep e k clients (l1.foldl (State.ohStep e k clients) u) c) (by omega) hn2
    rw [hsplit, List.foldl_append, List.foldl_cons, State.fb, State.lkState, State.lkState, f_of_rd hlast, f_of_rd hlast]
    generalize l1.foldl (State.ohStep e k clients) u = w at hf hw1 hst ⊢
    have hrx : w.f (Rg.FLEXE_GRP_STAT e k) Fd.FLEXE_GRP_STAT_RX_CAL_INUSE = s.f (Rg.FLEXE_GRP_STAT e k) Fd.FLEXE_GRP_STAT_RX_CAL_INUSE := by
      rw [State.f, State.f, hw1, bits_mod _ _ _ _ (by decide)]
      exact lockWord_rx s e k lock desk
    have hwg : w.clientGroup (32 * e + c) = some k := (clientGroup_frame hk (by omega) hf hrx).trans hg
    have hwp : w.lportOn (32 * e + c) = true := by
      rw [lportOn_iff] at hp ⊢
      exact ⟨(congrArg Part.lanes (onlyRegs_proj hf State.part)).symm ▸ hp.1, (pageOn_portFrame hf (flexReg_dom he hk) _).trans hp.2⟩
    have hwc : w.isClient (32 * e + c) = true := (isClient_portFrame hf (flexReg_lpCfg (by omega))).trans hcl
    have hlocked := clientLocked_frame (s := s) (b := bit clients c) hc hwg hw1
    have hstate : ∀ x : LinePort, (w.setLport (32 * e + c) x).lkState (32 * e + c) = s.lkState (32 * e + c) := fun x => f_of_rd hst _
    have hstep : State.ohStep e k clients w c =
      (w.setLport (32 * e + c) { w.lport (32 * e + c) with clientLock := bit clients c }).clientEval (32 * e + c) := if_pos (by simp [hwp, hwg])
    obtain ⟨hup, hdown⟩ := clientEval_shows (w.setLport (32 * e + c) { w.lport (32 * e + c) with clientLock := bit clients c }) (32 * e + c) k
      (by omega) hwc hwg
    rw [hlocked, hstate] at hup hdown
    rw [hstep]
    exact ⟨hup, hdown⟩

end
end Lock

/-- Settles O23, by following each port of the engine through the fold over its channels. -/
theorem flexEGroups : Obligations.FlexEGroups := by
  unfold Obligations.FlexEGroups
  intro s e k hon
  obtain ⟨⟨he, hk⟩, -⟩ := flexOn_iff.1 hon
  refine ⟨fun pg hreq => ⟨⟨_, rfl, calAck_shows s e k pg hon hreq⟩, fun h => ⟨_, rfl, calSwitch_shows s e k pg hon hreq h⟩, fun h1 h2 => ?_⟩,
    fun num phys calPage cal => ?_, fun lock desk clients => ?_⟩
  · obtain ⟨h3, h4⟩ := calTimeout_shows s e k pg hon hreq h1 h2
    exact ⟨congrArg Host.Outcome.next h3, _, rfl, h4⟩
  · obtain ⟨h1, h2, h3, h4⟩ := overheadRx_shows s e k num phys calPage cal hon
    exact ⟨_, rfl, h1, h2, h3, onlyRegs_proj h4 State.tbls, h4.mono fun x => flexReg_le⟩
  · obtain ⟨h1, h2, h3⟩ := ohLock_shows hk he s lock desk clients hon
    have hoh : (s.ohLock e k lock desk clients).fb (Rg.FLEXE_GRP_STAT e k) Fd.FLEXE_GRP_STAT_OH_LOCK = lock := by
      rw [State.fb, State.f, h1, bits_mod _ _ _ _ (by decide), State.lockWord, bits_setBits_disjoint _ _ _ _ _ _ (by decide),
        show Fd.FLEXE_GRP_STAT_OH_LOCK = ⟨31, 1⟩ from rfl, bits_setBits_same, bits_b2n]
    have hdesk : (s.ohLock e k lock desk clients).fb (Rg.FLEXE_GRP_STAT e k) Fd.FLEXE_GRP_STAT_DESKEW_FAIL = desk := by
      rw [State.fb, State.f, h1, bits_mod _ _ _ _ (by decide), State.lockWord, show Fd.FLEXE_GRP_STAT_DESKEW_FAIL = ⟨27, 1⟩ from rfl,
        bits_setBits_same, bits_b2n]
    exact ⟨_, rfl, hoh, hdesk, h3, h2.mono fun x => flexReg_le⟩

end Sys2Proof.Machine
end

section
/-! SUPPORT. The time of day's commands, timestamps, pulses and SyncE (R81, R84, R85, R87). -/
namespace Sys2Proof.Machine

/-! ## Timestamps -/

/-- The registers that a pop of the timestamp FIFO writes. -/
def txtsReg (x : Nat) : Bool := x == Rg.PTP_TXTS_W0 || x == Rg.PTP_TXTS_W1 || x == Rg.PTP_TXTS_W2 || x == Rg.PTP_TXTS_W3

theorem txtsPop_nil (s : State) (h : s.ptp.txts = []) : s.txtsPop = (s.wr Rg.PTP_TXTS_W0 0, 0) := by
  simp only [State.txtsPop, h]

/-- The head timestamp in the words that a pop shows it in (R84). -/
def State.txtsShown (s : State) (p tag sec ns : Nat) : State :=
  (((s.wr Rg.PTP_TXTS_W0 (2 ^ 31 + p % 64 * 2 ^ 16 + tag % 2 ^ 16)).wr Rg.PTP_TXTS_W1 ns).wr Rg.PTP_TXTS_W2 sec).wr Rg.PTP_TXTS_W3 (sec / 2 ^ 32 % 2 ^ 16)

theorem txtsPop_cons (s : State) {p tag sec ns : Nat} {rest : List (Nat × Nat × Nat × Nat)} (h : s.ptp.txts = (p, tag, sec, ns) :: rest) :
    s.txtsPop = ({ s.txtsShown p tag sec ns with ptp := { s.ptp with txts := rest } }, 2 ^ 31 + p % 64 * 2 ^ 16 + tag % 2 ^ 16) := by
  simp only [State.txtsPop, h]
  rfl

theorem txtsShown_onlyRegs (s : State) (p tag sec ns : Nat) : State.onlyRegs txtsReg s (s.txtsShown p tag sec ns) :=
  ((((onlyRegs_refl _ s).wr (by decide)).wr (by decide)).wr (by decide)).wr (by decide)

theorem txtsShown_rd (s : State) (p tag sec ns : Nat) : (s.txtsShown p tag sec ns).rd Rg.PTP_TXTS_W1 = ns % 2 ^ 32 ∧
    (s.txtsShown p tag sec ns).rd Rg.PTP_TXTS_W2 = sec % 2 ^ 32 ∧ (s.txtsShown p tag sec ns).rd Rg.PTP_TXTS_W3 = sec / 2 ^ 32 % 2 ^ 16 := by
  refine ⟨?_, ?_, ?_⟩
  · rw [State.txtsShown, rd_wr_other _ _ _ _ (by decide), rd_wr_other _ _ _ _ (by decide), rd_wr_same]
  · rw [State.txtsShown, rd_wr_other _ _ _ _ (by decide), rd_wr_same]
  · rw [State.txtsShown, rd_wr_same, Nat.mod_eq_of_lt (b := 2 ^ 32) (by omega)]

/-! ## The load of the time of day -/

theorem rd_setPtp (s : State) (x : PtpSt) (a : Nat) : State.rd { s with ptp := x } a = s.rd a := rfl

theorem setF_setPtp (s : State) (x : PtpSt) (a : Nat) (fl : Fld) (v : Nat) : ({ s.setF a fl v with ptp := x } : State) = State.setF { s with ptp := x } a fl v := rfl

/-- A load that PTP_LOAD_GO asks for stays due until the next boundary (R81). -/
theorem loadGo_shows (s : State) (x : PtpSt) :
    ({ s.setF Rg.PTP_LOAD_GO Fd.PTP_LOAD_GO_GO 1 with ptp := x } : State).fb Rg.PTP_LOAD_GO Fd.PTP_LOAD_GO_GO = true ∧
    State.onlyRegs (fun y => y == Rg.PTP_LOAD_GO) { s with ptp := x } { s.setF Rg.PTP_LOAD_GO Fd.PTP_LOAD_GO_GO 1 with ptp := x } := by
  rw [setF_setPtp]
  exact ⟨fb_setF_one _ _ _ (by decide) rfl, onlyRegs_setF _ _ _ _ (by decide)⟩

/-! ## PPS_IN -/

/-- Where an edge of PPS_IN is captured (R85). -/
def ppsReg (x : Nat) : Bool := x == Rg.PTP_PPS_IN_TS 0 || x == Rg.PTP_PPS_IN_TS 1 || x == Rg.PTP_PPS_IN_TS 2

/-- The time of day captured at an edge of PPS_IN, before its flag. -/
def State.ppsShown (s : State) (sec ns : Nat) : State :=
  ((s.wr (Rg.PTP_PPS_IN_TS 0) (ns / 2 ^ 32)).wr (Rg.PTP_PPS_IN_TS 1) sec).wr (Rg.PTP_PPS_IN_TS 2) (sec / 2 ^ 32)

theorem ppsShown_onlyRegs (s : State) (sec ns : Nat) : State.onlyRegs ppsReg s (s.ppsShown sec ns) :=
  (((onlyRegs_refl _ s).wr (by decide)).wr (by decide)).wr (by decide)

theorem ppsShown_rd (s : State) (sec ns : Nat) : (s.ppsShown sec ns).rd (Rg.PTP_PPS_IN_TS 0) = ns / 2 ^ 32 % 2 ^ 32 ∧
    (s.ppsShown sec ns).rd (Rg.PTP_PPS_IN_TS 1) = sec % 2 ^ 32 ∧ (s.ppsShown sec ns).rd (Rg.PTP_PPS_IN_TS 2) = sec / 2 ^ 32 % 2 ^ 32 := by
  refine ⟨?_, ?_, ?_⟩
  · rw [State.ppsShown, rd_wr_other _ _ _ _ (by decide), rd_wr_other _ _ _ _ (by decide), rd_wr_same]
  · rw [State.ppsShown, rd_wr_other _ _ _ _ (by decide), rd_wr_same]
  · rw [State.ppsShown, rd_wr_same]

theorem ppsIn_captures (s : State) (clk : Nat) (h : ∀ l, s.ptp.ppsLastIn = some l → l + 1000000000 ≤ s.at clk) :
    s.ppsIn clk = (State.ppsShown { s with ptp := { s.ptp with ppsLastIn := some (s.at clk) } } (s.tod (s.at clk)).1 (s.tod (s.at clk)).2).setInt
      Pg.PTP Ib.PTP_PPS_IN := by
  cases hl : s.ptp.ppsLastIn with
  | none =>
    unfold State.ppsIn
    simp only [hl]
    rfl
  | some l =>
    have := h l hl
    unfold State.ppsIn
    simp only [hl, decide_eq_false (p := s.at clk < l + 1000000000) (by omega)]
    rfl

theorem ppsIn_early (s : State) (clk l : Nat) (hl : s.ptp.ppsLastIn = some l) (h : s.at clk < l + 1000000000) :
    s.ppsIn clk = s.bump Rg.PTP_PPS_IGNORED_CNT := by
  unfold State.ppsIn
  simp only [hl, decide_eq_true h]
  rfl

theorem ptp_of_onlyRegs {P : Nat → Bool} {s t : State} (h : State.onlyRegs P s t) : t.ptp = s.ptp := onlyRegs_proj h State.ptp

/-- A captured edge of PPS_IN shows the time of day and is flagged (R85). -/
theorem ppsCapture_shows (s : State) (sec ns : Nat) (hp : s.pageOn (Pg.PTP / 0x1000) = true) :
    ((s.ppsShown sec ns).setInt Pg.PTP Ib.PTP_PPS_IN).ptp = s.ptp ∧
    ((s.ppsShown sec ns).setInt Pg.PTP Ib.PTP_PPS_IN).rd (Rg.PTP_PPS_IN_TS 0) = ns / 2 ^ 32 % 2 ^ 32 ∧
    ((s.ppsShown sec ns).setInt Pg.PTP Ib.PTP_PPS_IN).rd (Rg.PTP_PPS_IN_TS 1) = sec % 2 ^ 32 ∧
    ((s.ppsShown sec ns).setInt Pg.PTP Ib.PTP_PPS_IN).rd (Rg.PTP_PPS_IN_TS 2) = sec / 2 ^ 32 % 2 ^ 32 ∧
    bit (((s.ppsShown sec ns).setInt Pg.PTP Ib.PTP_PPS_IN).rd (Pg.PTP + 0x010)) 2 = true := by
  have hr := ppsShown_onlyRegs s sec ns
  obtain ⟨h0, h1, h2⟩ := ppsShown_rd s sec ns
  refine ⟨(ptp_of_onlyRegs (onlyRegs_setInt _ _ _)).trans (ptp_of_onlyRegs hr), ?_, ?_, ?_, setInt_bit _ _ _ (by decide) (by decide) ?_⟩
  · rw [rd_setInt_own (by decide) (by decide), h0]
  · rw [rd_setInt_own (by decide) (by decide), h1]
  · rw [rd_setInt_own (by decide) (by decide), h2]
  · rw [pageOn_of_onlyRegs hr (by decide), hp]

/-! ## SyncE -/

theorem squelch_eq (s : State) (n : Nat) (hn : n < 2) (hen : s.fb (Rg.PTP_SYNCE_CFG n) Fd.PTP_SYNCE_CFG_EN = true)
    (hsq : s.fb (Rg.PTP_SYNCE_CFG n) Fd.PTP_SYNCE_CFG_SQUELCH_EN = true) (hnot : ¬ n ∈ s.ptp.squelched) :
    s.squelch n = (State.emit { s with ptp := { s.ptp with squelched := n :: s.ptp.squelched } }
      (.pin (if n = 0 then "SYNCE_CLK0" else "SYNCE_CLK1") false)).setInt Pg.PTP Ib.PTP_SYNCE_SQUELCH := by
  unfold State.squelch
  rw [if_neg (by simp [hen, hsq, hnot]; omega)]

/-- An output held low is flagged, whatever else it is told to send (R87). -/
theorem emit_flag_shows (s : State) (e : Emit) (hp : s.pageOn (Pg.PTP / 0x1000) = true) :
    ((s.emit e).setInt Pg.PTP Ib.PTP_SYNCE_SQUELCH).ptp = s.ptp ∧
    bit (((s.emit e).setInt Pg.PTP Ib.PTP_SYNCE_SQUELCH).rd (Pg.PTP + 0x010)) 3 = true ∧
    State.onlyRegs (intReg Pg.PTP) s ((s.emit e).setInt Pg.PTP Ib.PTP_SYNCE_SQUELCH) :=
  have h := ((onlyRegs_refl (intReg Pg.PTP) s).emit (e := e)).setInt (pg := Pg.PTP) (b := Ib.PTP_SYNCE_SQUELCH) fun _ hx => hx
  ⟨ptp_of_onlyRegs h, setInt_bit _ _ _ (by decide) (by decide) hp, h⟩

/-- Settles O24: each event of the time of day by its own effect. -/
theorem timeOfDayAndPulses : Obligations.TimeOfDayAndPulses := by
  unfold Obligations.TimeOfDayAndPulses
  refine ⟨fun s a v hm => congrArg Host.Outcome.next (onWrite_of s a _ _ hm), fun s a v hm hgo => ?_, fun s a hm => ?_, fun s => ⟨rfl, rfl⟩,
    fun s clk hp => ⟨_, rfl, fun hlate => ?_, fun l hl he => ?_⟩, fun s n hn hp => ⟨fun hen hsq hnot => ?_, _, rfl, by simp, rfl⟩⟩
  · refine ⟨_, congrArg Host.Outcome.next (onWrite_of s a _ _ hm), ?_⟩
    rw [if_pos hgo]
    exact ⟨rfl, loadGo_shows s _⟩
  · have hu : a.user = false := by
      simp only [State.mayRead, Bool.and_eq_true, Bool.not_eq_true'] at hm
      exact hm.1.1
    refine ⟨_, congrArg Host.Outcome.next (onRead_of s a _ _ hm), ?_⟩
    simp only [hu, Bool.false_eq_true, if_false]
    rcases htx : s.ptp.txts with _ | ⟨⟨p, tag, sec, ns⟩, rest⟩
    · rw [txtsPop_nil s htx]
      exact ⟨fun _ => ⟨rfl, rfl⟩, fun _ _ _ _ _ h => absurd h (List.cons_ne_nil _ _).symm, 
        onlyRegs_wr (P := txtsReg) { s with rsp := some 0 } Rg.PTP_TXTS_W0 0 (by decide)⟩
    · rw [txtsPop_cons s htx]
      refine ⟨fun h => absurd h (List.cons_ne_nil _ _), fun p' tag' sec' ns' rest' h => ?_, txtsShown_onlyRegs _ p tag sec ns⟩
      cases h
      exact ⟨rfl, rfl, txtsShown_rd s p tag sec ns⟩
  · rw [ppsIn_captures s clk hlate]
    exact ppsCapture_shows { s with ptp := { s.ptp with ppsLastIn := some (s.at clk) } } _ _ hp
  · rw [ppsIn_early s clk l hl he]
    have h := onlyRegs_bump s Rg.PTP_PPS_IGNORED_CNT 1 (by decide)
    exact ⟨ptp_of_onlyRegs h, bump_rd_own _ _ _ (by decide) (by decide) (by decide) hp, h⟩
  · refine ⟨_, rfl, ?_⟩
    rw [squelch_eq s n hn hen hsq hnot]
    obtain ⟨h1, h2, h3⟩ := emit_flag_shows { s with ptp := { s.ptp with squelched := n :: s.ptp.squelched } }
      (.pin (if n = 0 then "SYNCE_CLK0" else "SYNCE_CLK1") false) hp
    generalize State.setInt _ _ _ = t at h1 h2 h3 ⊢
    exact ⟨by rw [h1]; exact List.mem_cons_self, h2, by rw [h1]; exact h3⟩

end Sys2Proof.Machine
end

section
/-! SUPPORT. Slices: their records, pools and buffers (R92, R93). -/
namespace Sys2Proof.Machine

/-- A state with the slices of another. -/
def State.takeSlices (s t : State) : State := { s with slices := t.slices }

theorem keeps_slices : State.Keeps State.takeSlices := ⟨fun _ _ _ _ _ _ _ => rfl, fun _ _ _ => rfl, fun _ _ _ _ _ => rfl⟩

theorem slicePg_val {d : Nat} (hd : d < 2) (i : Nat) : Pg.SLICE d i = 0x40000 + 0x10000 * d + 0x1000 * i := by
  simp only [Pg.SLICE]
  split <;> omega

theorem slicePg_mod (d i : Nat) : Pg.SLICE d i % 0x1000 = 0 := by
  simp only [Pg.SLICE]
  split <;> omega

theorem sliceStat_val (d i : Nat) : Rg.SLICE_STAT d i = Pg.SLICE d i + 0x104 := rfl
theorem sbufUsed_val (g : Nat) : Rg.SBUF_USED g = 0x38100 + 0x1000 * g := by simp only [Rg.SBUF_USED, Pg.SBUF]; omega
theorem sbufPeak_val (g : Nat) : Rg.SBUF_PEAK g = 0x38104 + 0x1000 * g := by simp only [Rg.SBUF_PEAK, Pg.SBUF]; omega

theorem isSlice_iff {s : State} {d i : Nat} : s.isSlice d i = true ↔ d < 2 ∧ i < s.part.slices := decide_eq_true_iff

theorem slices_le (p : Part) : p.slices ≤ 9 := by cases p <;> decide

theorem isSlice_lt {s : State} {d i : Nat} (h : s.isSlice d i = true) : d < 2 ∧ i < 9 :=
  ⟨(isSlice_iff.1 h).1, lt_of_lt_of_le (isSlice_iff.1 h).2 (slices_le _)⟩

/-! ## Slice records -/

section Records
variable (s : State) (d i : Nat) (x : SliceSt)

theorem slice_setSlice : (s.setSlice d i x).slice d i = x := sget_sset_same _ _ _ _

theorem slice_setSlice_other {d' i' : Nat} (h : 16 * d' + i' ≠ 16 * d + i) : (s.setSlice d i x).slice d' i' = s.slice d' i' := sget_sset_other _ _ _ _ _ _ h

theorem setSlice_setSlice (y : SliceSt) : ((s.setSlice d i x).setSlice d i y).slice d i = y := sget_sset_same _ _ _ _

theorem setSlice_frame {P : Nat → Bool} : s.frame State.takeSlices P (s.setSlice d i x) := frame_of_eq rfl

end Records

theorem slice_of_slices {s t : State} (h : t.slices = s.slices) (d i : Nat) : t.slice d i = s.slice d i := by rw [State.slice, State.slice, h]

theorem State.quiet.slice {s t : State} (h : s.quiet t) (d i : Nat) : t.slice d i = s.slice d i := slice_of_slices (h.proj State.slices) d i

theorem State.onlyRegs.slice {P : Nat → Bool} {s t : State} (h : State.onlyRegs P s t) (d i : Nat) : t.slice d i = s.slice d i :=
  (State.quiet.onlyRegs h).slice d i

/-- What is neither a slice, a register, a message nor output stays. -/
theorem slices_proj {α : Type} {P : Nat → Bool} {s t : State} (h : s.frame State.takeSlices P t) (π : State → α)
    (h1 : ∀ (u : State) (r : Sparse Nat) (p q : PcieSt) (o : List Emit), π { u with regs := r, pcie0 := p, pcie1 := q, out := o } = π u := by
      exact fun _ _ _ _ _ => rfl)
    (h2 : ∀ u v : State, π (u.takeSlices v) = π u := by exact fun _ _ => rfl) : π t = π s := (onlyRegs_proj h π h1).trans (h2 s t)

/-! ## Pools (R93) -/

/-- The record of a slice with other pause requests. -/
def SliceSt.pausing (x : SliceSt) (xoff : Bool) (ps : List (Nat × Nat)) : SliceSt := { x with xoff := xoff, pauses := ps }

@[simp] theorem SliceSt.pausing_pool (x : SliceSt) (b : Bool) (ps : List (Nat × Nat)) : (x.pausing b ps).pool = x.pool := rfl
@[simp] theorem SliceSt.pausing_inside (x : SliceSt) (b : Bool) (ps : List (Nat × Nat)) : (x.pausing b ps).inside = x.inside := rfl
@[simp] theorem SliceSt.pausing_first (x : SliceSt) (b : Bool) (ps : List (Nat × Nat)) : (x.pausing b ps).first = x.first := rfl
@[simp] theorem SliceSt.pausing_rehome (x : SliceSt) (b : Bool) (ps : List (Nat × Nat)) : (x.pausing b ps).rehome = x.rehome := rfl
@[simp] theorem SliceSt.pausing_stranded (x : SliceSt) (b : Bool) (ps : List (Nat × Nat)) : (x.pausing b ps).stranded = x.stranded := rfl

/-- The registers that a change of a pool may change. -/
def poolReg (d i x : Nat) : Bool := x == Rg.SLICE_STAT d i || x == Rg.STEER_XOFF_CNT || cntReg Pg.STEER x

/-- A pool's count and pause requests brought up to it change nothing else of the slice (R93). -/
theorem poolTouch_shows (s : State) (d i : Nat) :
    (∃ b ps, (s.poolTouch d i).slice d i = (s.slice d i).pausing b ps) ∧
    (∀ d' i', 16 * d' + i' ≠ 16 * d + i → (s.poolTouch d i).slice d' i' = s.slice d' i') ∧
    s.frame State.takeSlices (poolReg d i) (s.poolTouch d i) := by
  have hstat : State.onlyRegs (poolReg d i) s (s.setF (Rg.SLICE_STAT d i) Fd.SLICE_STAT_POOL (poolCount (s.slice d i).pool)) :=
    onlyRegs_setF _ _ _ _ (by simp [poolReg])
  have hxoff : ∀ t n, State.onlyRegs (poolReg d i) t (t.bump Rg.STEER_XOFF_CNT n) := fun t n =>
    (onlyRegs_refl _ t).bump (by decide) (by simp [poolReg]) fun x hx => (Bool.or_eq_false_iff.1 hx).2
  unfold State.poolTouch
  simp only []
  split
  · exact ⟨⟨(s.slice d i).xoff, (s.slice d i).pauses, rfl⟩, fun _ _ _ => rfl, .ofOnlyRegs keeps_slices hstat⟩
  · split
    · refine ⟨⟨true, _, ((hxoff _ _).slice d i).trans (slice_setSlice _ _ _ _)⟩, fun d' i' h => ?_,
        ((State.frame.ofOnlyRegs keeps_slices hstat).trans keeps_slices (setSlice_frame _ _ _ _)).regs keeps_slices (hxoff _ _)⟩
      rw [(hxoff _ _).slice, slice_setSlice_other _ _ _ _ h]
      rfl
    · split
      · refine ⟨⟨false, [], slice_setSlice _ _ _ _⟩, fun d' i' h => (slice_setSlice_other _ _ _ _ h).trans rfl,
          (State.frame.ofOnlyRegs keeps_slices hstat).trans keeps_slices (setSlice_frame _ _ _ _)⟩
      · exact ⟨⟨(s.slice d i).xoff, (s.slice d i).pauses, rfl⟩, fun _ _ _ => rfl, .ofOnlyRegs keeps_slices hstat⟩

/-- The registers of the steering buffer that holds a packet of a port. -/
def sbufReg (p x : Nat) : Bool := x == Rg.SBUF_USED (p / 8) || x == Rg.SBUF_PEAK (p / 8)

theorem State.onlyRegs.peak {P : Nat → Bool} {s t : State} (h : State.onlyRegs P s t) {a v : Nat} (ha : P a = true) : State.onlyRegs P s (t.peak a v) :=
  .ite (h.wr ha) h

/-- A packet's frame given back touches its buffer's registers alone (R92). -/
theorem freeBuf_onlyRegs (s : State) (k : Pkt) : State.onlyRegs (sbufReg k.md.lport) s (s.freeBuf k) :=
  ((onlyRegs_refl _ s).setF (by simp [sbufReg])).peak (by simp [sbufReg])

theorem sbufReg_of_off {p x : Nat} (h : x % 0x1000 ≠ 0x100) (h2 : x % 0x1000 ≠ 0x104) : sbufReg p x = false := by
  simp only [sbufReg, Bool.or_eq_false_iff, beq_eq_false_iff_ne, sbufUsed_val, sbufPeak_val]
  omega

theorem sbufReg_dom (p : Nat) : ∀ d ∈ [0, 1], ∀ w ∈ [0, 1], sbufReg p (Rg.PWR_DOM_STAT d w) = false := by
  have hall : ∀ d ∈ [0, 1], ∀ w ∈ [0, 1], Rg.PWR_DOM_STAT d w % 0x1000 ≠ 0x100 ∧ Rg.PWR_DOM_STAT d w % 0x1000 ≠ 0x104 := by decide
  exact fun d hd w hw => sbufReg_of_off (hall d hd w hw).1 (hall d hd w hw).2

theorem freeBuf_rd (s : State) (k : Pkt) {x : Nat} (h : x % 0x1000 ≠ 0x100) (h2 : x % 0x1000 ≠ 0x104) : (s.freeBuf k).rd x = s.rd x :=
  (freeBuf_onlyRegs s k).2 x (sbufReg_of_off h h2)

theorem freeBuf_pageOn (s : State) (k : Pkt) (g : Nat) : (s.freeBuf k).pageOn g = s.pageOn g := pageOn_of_onlyRegs (freeBuf_onlyRegs s k) (sbufReg_dom _) g

theorem State.quiet.freeBuf {s t : State} (h : s.quiet t) {k : Pkt} : s.quiet (t.freeBuf k) := h.setF.peak

theorem State.quiet.steerDrop {s t : State} (h : s.quiet t) {d : Nat} {k : Pkt} : s.quiet (t.steerDrop d k) := .bump (.ite h.freeBuf h)

/-! ## Placing a packet (R92) -/

/-- A packet that its slice's pool takes. -/
theorem place_joins (s : State) (d i : Nat) (k : Pkt) (hst : (s.slice d i).stranded = false) (hfit : d = 0 → poolCount (s.slice d i).pool < 512) :
    ((s.place d i k).slice d i).pool = (s.slice d i).pool ++ [some k] ∧ s.frame State.takeSlices (poolReg d i) (s.place d i k) := by
  have he : s.place d i k = (s.setSlice d i { s.slice d i with pool := (s.slice d i).pool ++ [some k] }).poolTouch d i := by
    unfold State.place
    simp only [hst, Bool.false_eq_true, if_false]
    rw [if_neg (by omega)]
  obtain ⟨⟨b, ps, h1⟩, -, h3⟩ := poolTouch_shows (s.setSlice d i { s.slice d i with pool := (s.slice d i).pool ++ [some k] }) d i
  rw [he]
  exact ⟨by rw [h1, slice_setSlice]; rfl, (setSlice_frame _ _ _ _).trans keeps_slices h3⟩

/-- A lossy packet that finds its pool full. -/
theorem place_drops (s : State) (i : Nat) (k : Pkt) (hst : (s.slice 0 i).stranded = false) (hfull : 512 ≤ poolCount (s.slice 0 i).pool) :
    s.place 0 i k = if s.steerLossless k.stc then ((s.freeBuf k).bump Rg.STEER_LL_DROP_CNT).setInt Pg.STEER Ib.STEER_LL_DROP
      else (s.freeBuf k).bump Rg.STEER_DROP_CNT := by
  unfold State.place
  simp only [hst, Bool.false_eq_true, if_false]
  rw [if_pos ⟨trivial, hfull⟩, State.steerDrop, if_pos rfl]

end Sys2Proof.Machine
end

section
/-! SUPPORT. Packets into, through and out of a slice (R90, R92, R94, R98). -/
namespace Sys2Proof.Machine

/-! ## Into a pool (R89 to R92) -/

/-- The packet that an eligible frame of a port becomes. -/
def State.steerPkt (s : State) (p : Nat) (fr : RxFrame) : Pkt :=
  let b := fr.bytes.take (fr.bytes.length - 4)
  { bytes := b, bad := fr.bad, bucket := 256 * p + s.flowHash p b % 256, stc := s.steerClass p b, gen := s.cm.gen, orig := b,
    md := { tc := s.steerClass p b, version := s.f Rg.CMT_VER Fd.CMT_VER_CUR, len := fr.bytes.length, lport := p, ts := fr.ts, hash := s.flowHash p b } }

/-- The steering buffer of a port with a frame of a length entered. -/
def State.sbufEnter (s : State) (p len : Nat) : State :=
  (s.setF (Rg.SBUF_USED (p / 8)) Fd.SBUF_USED_BYTES (s.f (Rg.SBUF_USED (p / 8)) Fd.SBUF_USED_BYTES + len)).peak (Rg.SBUF_PEAK (p / 8))
    (s.f (Rg.SBUF_USED (p / 8)) Fd.SBUF_USED_BYTES + len)

theorem steerEnqueue_none (s : State) (p : Nat) (beyond : Bool) (h : ∀ fr ∈ s.macQ, fr.port ≠ p) : s.steerEnqueue p beyond = s := by
  have hf : s.macQ.find? (fun x => x.port == p) = none := List.find?_eq_none.2 fun x hx => by simpa using h x hx
  simp only [State.steerEnqueue, hf]

theorem steerEnqueue_down (s : State) (p : Nat) (fr : RxFrame) (beyond : Bool) (hf : s.macQ.find? (fun x => x.port == p) = some fr)
    (hd : s.d2dDown = true) : s.steerEnqueue p beyond =
      (State.bump { s with macQ := s.macQ.erase fr } (Rg.D2D_DISCARD_CNT 0)).setInt (Pg.D2D 0) Ib.D2D_DISCARD := by
  simp only [State.steerEnqueue, hf, hd, Bool.true_or, if_true]

theorem steerEnqueue_fits (s : State) (p : Nat) (fr : RxFrame) (hf : s.macQ.find? (fun x => x.port == p) = some fr) (hd : s.d2dDown = false)
    (hfit : s.f (Rg.SBUF_USED (p / 8)) Fd.SBUF_USED_BYTES + fr.bytes.length ≤ 524288) : s.steerEnqueue p false =
      (State.sbufEnter { s with macQ := s.macQ.erase fr } p fr.bytes.length).toBucket 0 (s.steerPkt p fr) := by
  unfold State.steerEnqueue
  simp only [hf, hd, Bool.false_and, Bool.or_false, Bool.false_eq_true, if_false]
  rw [if_neg (by omega)]
  rfl

theorem toBucket_still (s : State) (k : Pkt) (h : s.moveIn = none) : s.toBucket 0 k = s.place 0 (s.bucketEnt 0 k.bucket % 16) k := by
  have hm : s.move 0 = none := by
    unfold State.move
    rw [if_pos rfl]
    exact h
  have hh : s.holder 0 k.bucket = none := by rw [State.holder, hm, Option.filter_none]
  unfold State.toBucket
  simp only [hh]

theorem sbufEnter_shows (s : State) (p len : Nat) (hfit : s.f (Rg.SBUF_USED (p / 8)) Fd.SBUF_USED_BYTES + len ≤ 524288) :
    (s.sbufEnter p len).f (Rg.SBUF_USED (p / 8)) Fd.SBUF_USED_BYTES = s.f (Rg.SBUF_USED (p / 8)) Fd.SBUF_USED_BYTES + len ∧
    State.onlyRegs (sbufReg p) s (s.sbufEnter p len) := by
  refine ⟨?_, ((onlyRegs_refl _ s).setF (by simp [sbufReg])).peak (by simp [sbufReg])⟩
  have hne : Rg.SBUF_USED (p / 8) ≠ Rg.SBUF_PEAK (p / 8) := by rw [sbufUsed_val, sbufPeak_val]; omega
  have hpk : State.onlyRegs (fun x => x == Rg.SBUF_PEAK (p / 8)) (s.setF (Rg.SBUF_USED (p / 8)) Fd.SBUF_USED_BYTES
      (s.f (Rg.SBUF_USED (p / 8)) Fd.SBUF_USED_BYTES + len)) (s.sbufEnter p len) := (onlyRegs_refl _ _).peak (by simp)
  rw [f_of_rd (hpk.2 _ (beq_false_of_ne hne)), f_setF_same _ _ _ _ (by decide)]
  exact Nat.mod_eq_of_lt (lt_of_le_of_lt hfit (by decide))

/-- What the queue of frames does not bear on. -/
theorem setMacQ_same (s : State) (q : List RxFrame) : (∀ a, State.rd { s with macQ := q } a = s.rd a) ∧
    (∀ g, State.pageOn { s with macQ := q } g = s.pageOn g) ∧ (∀ d i, State.slice { s with macQ := q } d i = s.slice d i) ∧
    (∀ d b, State.bucketEnt { s with macQ := q } d b = s.bucketEnt d b) ∧ State.slices { s with macQ := q } = s.slices ∧
    State.macQ { s with macQ := q } = q ∧ State.moveIn { s with macQ := q } = s.moveIn :=
  ⟨fun _ => rfl, fun _ => rfl, fun _ _ => rfl, fun _ _ => rfl, rfl, rfl, rfl⟩

/-- A frame that enters a pool (R92). -/
theorem enqueue_joins (s : State) (p i : Nat) (fr : RxFrame) (k : Pkt) (hp : p < 64) (hmv : s.moveIn = none) (hi : i = s.bucketEnt 0 k.bucket % 16)
    (hst : (s.slice 0 i).stranded = false) (hfit : s.f (Rg.SBUF_USED (p / 8)) Fd.SBUF_USED_BYTES + fr.bytes.length ≤ 524288)
    (hpool : poolCount (s.slice 0 i).pool < 512) :
    (((s.sbufEnter p fr.bytes.length).toBucket 0 k).slice 0 i).pool = (s.slice 0 i).pool ++ [some k] ∧
    ((s.sbufEnter p fr.bytes.length).toBucket 0 k).macQ = s.macQ ∧
    ((s.sbufEnter p fr.bytes.length).toBucket 0 k).f (Rg.SBUF_USED (p / 8)) Fd.SBUF_USED_BYTES =
      s.f (Rg.SBUF_USED (p / 8)) Fd.SBUF_USED_BYTES + fr.bytes.length := by
  obtain ⟨hused, hregs⟩ := sbufEnter_shows s p fr.bytes.length hfit
  have hq := State.quiet.onlyRegs hregs
  generalize s.sbufEnter p fr.bytes.length = u at hused hregs hq ⊢
  have hent : u.bucketEnt 0 k.bucket % 16 = i := by rw [hi, hq.proj (fun v => v.bucketEnt 0 k.bucket)]
  rw [toBucket_still u k ((hq.proj State.moveIn).trans hmv), hent]
  rw [← hq.slice 0 i] at hst hpool ⊢
  obtain ⟨h1, h2⟩ := place_joins u 0 i k hst fun _ => hpool
  refine ⟨h1, (slices_proj h2 State.macQ).trans (hq.proj State.macQ), (f_of_rd (h2.rd keeps_slices ?_) _).trans hused⟩
  have h3 : Rg.SBUF_USED (p / 8) ≠ Rg.SLICE_STAT 0 i := by rw [sbufUsed_val, sliceStat_val, slicePg_val (by decide)]; omega
  have h4 : Rg.SBUF_USED (p / 8) ≠ Rg.STEER_XOFF_CNT := by rw [sbufUsed_val, show Rg.STEER_XOFF_CNT = 0x30188 from rfl]; omega
  have h5 : cntReg Pg.STEER (Rg.SBUF_USED (p / 8)) = false := cntReg_of_own (by decide) (by rw [ownReg_iff, sbufUsed_val]; omega)
  simp only [poolReg, h5, beq_false_of_ne h3, beq_false_of_ne h4, Bool.or_false]

/-- A frame that finds its pool full (R92). -/
theorem enqueue_drops (s : State) (p i : Nat) (fr : RxFrame) (k : Pkt) (hmv : s.moveIn = none) (hi : i = s.bucketEnt 0 k.bucket % 16)
    (hst : (s.slice 0 i).stranded = false) (hfit : s.f (Rg.SBUF_USED (p / 8)) Fd.SBUF_USED_BYTES + fr.bytes.length ≤ 524288)
    (hpool : 512 ≤ poolCount (s.slice 0 i).pool) :
    s.quiet ((s.sbufEnter p fr.bytes.length).toBucket 0 k) ∧ (s.pageOn (Pg.STEER / 0x1000) = true →
      (s.steerLossless k.stc = true → ((s.sbufEnter p fr.bytes.length).toBucket 0 k).rd Rg.STEER_LL_DROP_CNT = (s.rd Rg.STEER_LL_DROP_CNT + 1) % 2 ^ 32) ∧
      (s.steerLossless k.stc = false → ((s.sbufEnter p fr.bytes.length).toBucket 0 k).rd Rg.STEER_DROP_CNT = (s.rd Rg.STEER_DROP_CNT + 1) % 2 ^ 32)) := by
  obtain ⟨-, hregs⟩ := sbufEnter_shows s p fr.bytes.length hfit
  have hq := State.quiet.onlyRegs hregs
  have hrd : ∀ x, x % 0x1000 ≠ 0x100 → x % 0x1000 ≠ 0x104 → ((s.sbufEnter p fr.bytes.length).freeBuf k).rd x = s.rd x := fun x h1 h2 =>
    (freeBuf_rd _ k h1 h2).trans (hregs.2 x (sbufReg_of_off h1 h2))
  have hpg : ∀ g, ((s.sbufEnter p fr.bytes.length).freeBuf k).pageOn g = s.pageOn g := fun g =>
    (freeBuf_pageOn _ k g).trans (pageOn_of_onlyRegs hregs (sbufReg_dom p) g)
  have hll : (s.sbufEnter p fr.bytes.length).steerLossless k.stc = s.steerLossless k.stc := by
    have hcfg : sbufReg p Rg.STEER_CFG = false := by
      simp only [sbufReg, Bool.or_eq_false_iff, beq_eq_false_iff_ne, sbufUsed_val, sbufPeak_val, show Rg.STEER_CFG = 0x30100 from rfl]
      omega
    rw [State.steerLossless, State.steerLossless, f_of_rd (hregs.2 _ hcfg)]
  generalize s.sbufEnter p fr.bytes.length = u at hq hrd hpg hll ⊢
  have hent : u.bucketEnt 0 k.bucket % 16 = i := by rw [hi, hq.proj (fun v => v.bucketEnt 0 k.bucket)]
  rw [← hq.slice 0 i] at hst hpool
  rw [toBucket_still u k ((hq.proj State.moveIn).trans hmv), hent, place_drops u i k hst hpool, hll]
  refine ⟨.ite hq.freeBuf.bump.setInt hq.freeBuf.bump, fun hp => ⟨fun h => ?_, fun h => ?_⟩⟩
  · rw [if_pos h, rd_setInt_own (by decide) (by decide), bump_rd_own _ Rg.STEER_LL_DROP_CNT _ (by decide) (by decide) (by decide) ((hpg _).trans hp),
      hrd _ (by decide) (by decide)]
  · rw [if_neg (by simp [h]), bump_rd_own _ Rg.STEER_DROP_CNT _ (by decide) (by decide) (by decide) ((hpg _).trans hp), hrd _ (by decide) (by decide)]

/-! ## Through the pipeline (R94, R98) -/

/-- What a slice holds while its pipeline runs: its pool, and the entry clocks of the packets inside. -/
def State.holds (s : State) (d i : Nat) (pool : List (Option Pkt)) (es : List Nat) : Prop :=
  (s.slice d i).pool = pool ∧ (s.slice d i).inside.map (fun y => y.entry) = es

namespace State.holds
variable {s t : State} {d i : Nat} {pool : List (Option Pkt)} {es : List Nat}

theorem quiet (h : s.holds d i pool es) (hq : s.quiet t) : t.holds d i pool es := by
  rw [State.holds, hq.slice d i]
  exact h

/-- A packet inside replaced keeps its entry clock. -/
theorem putPkt (h : s.holds d i pool es) (k : Pkt) : (s.putPkt d i k).holds d i pool es := by
  have hsame : ∀ y : Pkt, (if y.entry = k.entry then k else y).entry = y.entry := fun y => by split <;> simp_all
  rw [State.putPkt, State.holds, slice_setSlice, List.map_map]
  exact ⟨h.1, (List.map_congr_left fun y _ => hsame y).trans h.2⟩

theorem offer (h : s.holds d i pool es) (k : Pkt) (prog copy c : Nat) : (s.offer d i k prog copy c).holds d i pool es := by
  unfold State.offer
  simp only []
  split
  · exact h.putPkt _
  · generalize hx : s.progEntry (clusterOf d i) copy prog = x
    obtain ⟨s1, e⟩ := x
    have h1 : s1.holds d i pool es := h.quiet (State.quiet.fst_of (State.quiet.refl s).progEntry hx)
    simp only []
    split
    · exact (h1.quiet (State.quiet.refl s1).bump).putPkt _
    · exact (h1.putPkt k).quiet (State.quiet.refl _).endCtx.setCtx.postEvent.bump64.prevBusy

/-- A packet enters: what stays in the pool, and the entry clocks with its own. -/
theorem enter (s : State) (d i : Nat) (rest : List (Option Pkt)) :
    (((s.setSlice d i { s.slice d i with pool := rest }).poolTouch d i).slice d i).pool = rest ∧
    (((s.setSlice d i { s.slice d i with pool := rest }).poolTouch d i).slice d i).inside = (s.slice d i).inside := by
  obtain ⟨⟨b, ps, h1⟩, -⟩ := poolTouch_shows (s.setSlice d i { s.slice d i with pool := rest }) d i
  rw [h1, slice_setSlice]
  exact ⟨rfl, rfl⟩

end State.holds

theorem none_entered {l : List Pkt} {c : Nat} (h : ∀ y ∈ l, y.entry < c) : l.any (fun y => decide (c ≤ y.entry)) = false := by
  rw [List.any_eq_false]
  intro y hy
  have := h y hy
  simp only [decide_eq_true_eq]
  omega

theorem dataErr_none (s : State) (pg cls : Nat) : s.dataErr pg cls none = (s, true) := rfl

theorem sliceEntry_fenced (s : State) (i clk : Nat) (h : s.role 0 i = rlFenced) : s.sliceEntry i clk none none none = s := by
  unfold State.sliceEntry
  rw [if_pos (by simp [h])]

theorem egressEntry_fenced (s : State) (i clk : Nat) (h : s.role 1 i = rlFenced) : s.egressEntry i clk = s := by
  unfold State.egressEntry
  rw [if_pos (by simp [h])]

section Entry
variable (s : State) (i clk : Nat) (k : Pkt) (rest : List (Option Pkt))

/-- An ingress slice takes the oldest packet of its pool (R94). -/
theorem sliceEntry_takes (hs : s.isSlice 0 i = true) (hp : s.pageOn (Pg.SLICE 0 i / 0x1000) = true) (hrole : s.role 0 i ≠ rlFenced)
    (hpool : (s.slice 0 i).pool.dropWhile (fun x => x.isNone) = some k :: rest)
    (hclk : ∀ y ∈ (s.slice 0 i).inside, y.entry < 2048 * s.tk.count + clk) :
    (s.sliceEntry i clk none none none).holds 0 i rest ((s.slice 0 i).inside.map (fun y => y.entry) ++ [2048 * s.tk.count + clk]) := by
  have hany := none_entered hclk
  unfold State.sliceEntry
  rw [if_neg (by simp [hs, hp, hrole])]
  simp only [hpool, hany, Bool.false_eq_true, if_false, dataErr_none, Bool.not_true, Bool.or_false, State.bumpIf]
  obtain ⟨h1, h2⟩ := State.holds.enter s 0 i rest
  generalize (s.setSlice 0 i { s.slice 0 i with pool := rest }).poolTouch 0 i = s1 at h1 h2 ⊢
  generalize hk : ({ k with entry := 2048 * s.tk.count + clk } : Pkt) = k1
  have hk1 : k1.entry = 2048 * s.tk.count + clk := by rw [← hk]
  have hs2 : (s1.setSlice 0 i { s1.slice 0 i with inside := (s1.slice 0 i).inside ++ [k1] }).holds 0 i rest
      ((s.slice 0 i).inside.map (fun y => y.entry) ++ [2048 * s.tk.count + clk]) := by
    rw [State.holds, slice_setSlice]
    exact ⟨h1, by simp [h2, hk1]⟩
  generalize s1.setSlice 0 i { s1.slice 0 i with inside := (s1.slice 0 i).inside ++ [k1] } = s2 at hs2 ⊢
  generalize hx3 : s2.parse _ _ _ = x3
  obtain ⟨s3, p⟩ := x3
  have h3 := hs2.quiet (State.quiet.fst_of (State.quiet.refl s2).parse hx3)
  simp only []
  generalize hx5 : State.classify _ _ _ _ p none = x5
  obtain ⟨s5, c⟩ := x5
  have h5 := h3.quiet (State.quiet.fst_of (State.quiet.refl s3).setIntIf.classify hx5)
  simp only []
  generalize hx7 : State.routePkt _ _ _ _ p c = x7
  obtain ⟨s7, r⟩ := x7
  have h7 := h5.quiet (State.quiet.fst_of (State.quiet.refl s5).classCount.routePkt hx7)
  simp only []
  generalize hx8 : s7.saCheck i _ p c = x8
  obtain ⟨s8, sa⟩ := x8
  have h8 := h7.quiet (State.quiet.fst_of (State.quiet.refl s7).saCheck hx8)
  simp only []
  split
  · exact h8.putPkt _
  · exact h8.offer _ _ _ _

/-- An egress slice takes the oldest packet of its pool (R94, R155). -/
theorem egressEntry_takes (hs : s.isSlice 1 i = true) (hp : s.pageOn (Pg.SLICE 1 i / 0x1000) = true) (hrole : s.role 1 i ≠ rlFenced)
    (hpool : (s.slice 1 i).pool.dropWhile (fun x => x.isNone) = some k :: rest)
    (hclk : ∀ y ∈ (s.slice 1 i).inside, y.entry < 2048 * s.tk.count + clk) :
    (s.egressEntry i clk).holds 1 i rest ((s.slice 1 i).inside.map (fun y => y.entry) ++ [2048 * s.tk.count + clk]) := by
  have hany := none_entered hclk
  unfold State.egressEntry
  rw [if_neg (by simp [hs, hp, hrole])]
  simp only [hpool, hany, Bool.false_eq_true, if_false]
  obtain ⟨⟨b, ps, he⟩, -⟩ := poolTouch_shows (s.setSlice 1 i { s.slice 1 i with pool := rest, inside := (s.slice 1 i).inside ++
    [{ k with entry := 2048 * s.tk.count + clk }] }) 1 i
  rw [slice_setSlice] at he
  have h1 : ((s.setSlice 1 i { s.slice 1 i with pool := rest, inside := (s.slice 1 i).inside ++
      [{ k with entry := 2048 * s.tk.count + clk }] }).poolTouch 1 i).holds 1 i rest
      ((s.slice 1 i).inside.map (fun y => y.entry) ++ [2048 * s.tk.count + clk]) := by
    rw [State.holds, he]
    exact ⟨rfl, by simp⟩
  generalize (s.setSlice 1 i { s.slice 1 i with pool := rest, inside := (s.slice 1 i).inside ++
      [{ k with entry := 2048 * s.tk.count + clk }] }).poolTouch 1 i = s1 at h1 ⊢
  generalize hx2 : s1.parse _ _ _ = x2
  obtain ⟨s2, p⟩ := x2
  have h2 := h1.quiet (State.quiet.fst_of (State.quiet.refl s1).parse hx2)
  simp only []
  generalize hx4 : State.egressAcl _ _ p = x4
  obtain ⟨s4, deny, flags⟩ := x4
  have h4 := h2.quiet (State.quiet.fst_of (State.quiet.refl s2).setIntIf.egressAcl hx4)
  simp only []
  split
  · exact h4.putPkt _
  · generalize hx5 : s4.encap _ p.hv _ _ = x5
    obtain ⟨s5, e⟩ := x5
    have h5 := h4.quiet (State.quiet.fst_of (State.quiet.refl s4).encap hx5)
    simp only []
    split
    · exact h5.putPkt _
    · exact h5.offer _ _ _ _

end Entry

/-! ## Out of a slice (R94) -/

theorem handoff_waits (s : State) (d i : Nat) (tail : Bool) (k : Pkt) (rest : List Pkt) (h : (s.slice d i).inside = k :: rest) (hr : k.ready = false) :
    s.handoff d i tail = s := by
  unfold State.handoff
  simp only [h, hr]
  simp

/-- What a handoff leaves of the state before the packet goes on. -/
def State.handedOff (s : State) (d i : Nat) (k : Pkt) (rest : List Pkt) : State :=
  let s1 := s.setSlice d i { s.slice d i with inside := rest }
  if d = 0 then s1.freeBuf k else s1

theorem handedOff_shows (s : State) (d i : Nat) (k : Pkt) (rest : List Pkt) :
    ((s.handedOff d i k rest).slice d i).inside = rest ∧ ((s.handedOff d i k rest).slice d i).pool = (s.slice d i).pool ∧
    s.frame State.takeSlices (sbufReg k.md.lport) (s.handedOff d i k rest) := by
  have hf : s.frame State.takeSlices (sbufReg k.md.lport) (s.setSlice d i { s.slice d i with inside := rest }) := setSlice_frame _ _ _ _
  unfold State.handedOff
  simp only []
  split
  · rw [(freeBuf_onlyRegs _ k).slice, slice_setSlice]
    exact ⟨rfl, rfl, hf.regs keeps_slices (freeBuf_onlyRegs _ k)⟩
  · rw [slice_setSlice]
    exact ⟨rfl, rfl, hf⟩

theorem handoff_drop (s : State) (d i : Nat) (tail : Bool) (k : Pkt) (rest : List Pkt) (hs : s.isSlice d i = true)
    (h : (s.slice d i).inside = k :: rest) (hr : k.ready = true) (hf : k.v.fwd = 1) : s.handoff d i tail = s.handedOff d i k rest := by
  unfold State.handoff
  simp only [hs, h, hr, hf, Bool.not_true, Bool.false_eq_true, if_false, if_true]
  rfl

theorem handoff_egress (s : State) (i : Nat) (tail : Bool) (k : Pkt) (rest : List Pkt) (hs : s.isSlice 1 i = true)
    (h : (s.slice 1 i).inside = k :: rest) (hr : k.ready = true) (hf : k.v.fwd ≠ 1) : s.handoff 1 i tail =
      { (s.handedOff 1 i k rest).bump64 (Rg.SLICE_PKT_CNT_LO 1 i) with macTx := ((s.handedOff 1 i k rest).bump64 (Rg.SLICE_PKT_CNT_LO 1 i)).macTx ++ [k] } := by
  unfold State.handoff
  simp only [hs, h, hr, hf, Bool.not_true, Bool.false_eq_true, if_false, Nat.one_ne_zero, false_and]
  rfl

/-- What admission is given of a packet that an ingress slice hands off. -/
def admItemOf (k : Pkt) (i : Nat) (tail : Bool) : AdmItem := { pkt := if tail then { k with md := { k.md with len := 0 } } else k, lane := i }

theorem admItemOf_shows (k : Pkt) (i : Nat) (tail : Bool) : ((admItemOf k i tail).lane, (admItemOf k i tail).pkt.bytes) = (i, k.bytes) := by
  cases tail <;> rfl

theorem handoff_ingress (s : State) (i : Nat) (tail : Bool) (k : Pkt) (rest : List Pkt) (hs : s.isSlice 0 i = true)
    (h : (s.slice 0 i).inside = k :: rest) (hr : k.ready = true) (hf : k.v.fwd ≠ 1) (hd : k.v.hasDest = true) : s.handoff 0 i tail =
      { (s.handedOff 0 i k rest).bump64 (Rg.SLICE_PKT_CNT_LO 0 i) with
        admQ := ((s.handedOff 0 i k rest).bump64 (Rg.SLICE_PKT_CNT_LO 0 i)).admQ ++ [admItemOf k i tail] } := by
  unfold State.handoff
  simp only [hs, h, hr, hf, hd, Bool.not_true, Bool.false_eq_true, if_false, if_true, and_false]
  have he : s.handedOff 0 i k rest = (s.setSlice 0 i { s.slice 0 i with inside := rest }).freeBuf k := by
    unfold State.handedOff
    exact if_pos rfl
  simp only [he, admItemOf, hr]

theorem slice_setAdmQ (s : State) (q : List AdmItem) (d i : Nat) : State.slice { s with admQ := q } d i = s.slice d i := rfl

theorem rd64_setAdmQ (s : State) (q : List AdmItem) (a : Nat) : State.rd64 { s with admQ := q } a = s.rd64 a := rfl

theorem slice_setMacTx (s : State) (q : List Pkt) (d i : Nat) : State.slice { s with macTx := q } d i = s.slice d i := rfl

theorem rd64_setMacTx (s : State) (q : List Pkt) (a : Nat) : State.rd64 { s with macTx := q } a = s.rd64 a := rfl

/-- Whatever becomes of a packet that leaves an ingress slice, the slice is left without it. -/
theorem handoff_miss (s : State) (i : Nat) (tail : Bool) (k : Pkt) (rest : List Pkt) (hs : s.isSlice 0 i = true)
    (h : (s.slice 0 i).inside = k :: rest) (hr : k.ready = true) (hf : k.v.fwd ≠ 1) :
    ∃ u, s.handoff 0 i tail = u ∧ u.slice 0 i = (s.handedOff 0 i k rest).slice 0 i := by
  have he : s.handedOff 0 i k rest = (s.setSlice 0 i { s.slice 0 i with inside := rest }).freeBuf k := by
    unfold State.handedOff
    exact if_pos rfl
  refine ⟨_, rfl, ?_⟩
  rw [he]
  generalize hv : (s.setSlice 0 i { s.slice 0 i with inside := rest }).freeBuf k = v
  unfold State.handoff
  simp only [hs, h, hr, hf, Bool.not_true, Bool.false_eq_true, if_false, if_true]
  rw [hv]
  split
  · exact (State.quiet.refl v).bump.slice 0 i
  · have hb := (State.quiet.refl v).bump64 (a := Rg.SLICE_PKT_CNT_LO 0 i) (n := 1)
    generalize v.bump64 (Rg.SLICE_PKT_CNT_LO 0 i) = w at hb ⊢
    exact (slice_setAdmQ w _ 0 i).trans (hb.slice 0 i)

/-- A packet counted as it leaves its slice. -/
theorem handoff_counts (s : State) (d i : Nat) (k : Pkt) (rest : List Pkt) (hd : d < 2) (hi : i < 9) (hp : s.pageOn (Pg.SLICE d i / 0x1000) = true) :
    ((s.handedOff d i k rest).bump64 (Rg.SLICE_PKT_CNT_LO d i)).rd64 (Rg.SLICE_PKT_CNT_LO d i) = (s.rd64 (Rg.SLICE_PKT_CNT_LO d i) + 1) % 2 ^ 64 ∧
    (s.handedOff d i k rest).rd64 (Rg.SLICE_PKT_CNT_LO d i) = s.rd64 (Rg.SLICE_PKT_CNT_LO d i) := by
  obtain ⟨-, -, h⟩ := handedOff_shows s d i k rest
  have hv : Rg.SLICE_PKT_CNT_LO d i = 0x40180 + 0x10000 * d + 0x1000 * i := by simp only [Rg.SLICE_PKT_CNT_LO, slicePg_val hd]; omega
  have hrd : ∀ x, x % 0x1000 ≠ 0x100 → x % 0x1000 ≠ 0x104 → (s.handedOff d i k rest).rd x = s.rd x := fun x h1 h2 => h.rd keeps_slices (sbufReg_of_off h1 h2)
  have hsame : (s.handedOff d i k rest).rd64 (Rg.SLICE_PKT_CNT_LO d i) = s.rd64 (Rg.SLICE_PKT_CNT_LO d i) := by
    refine rd64_congr (hrd _ ?_ ?_) (hrd _ ?_ ?_) <;> rw [hv] <;> omega
  refine ⟨?_, hsame⟩
  rw [bump64_rd64, hsame]
  · rw [hv]; omega
  · rw [ownReg_iff, hv]; omega
  · rw [ownReg_iff, hv]; omega
  · have hpg : Rg.SLICE_PKT_CNT_LO d i / 0x1000 = Pg.SLICE d i / 0x1000 := by rw [hv, slicePg_val hd]; omega
    rw [hpg]
    exact (pageOn_of_onlyRegs h (sbufReg_dom _) _).trans hp

/-- Settles O25, by the way a packet takes: into a pool, into the pipeline, and out. -/
theorem steeringAndHandoff : Obligations.SteeringAndHandoff := by
  unfold Obligations.SteeringAndHandoff
  refine ⟨fun s p beyond h => congrArg Host.Outcome.next (steerEnqueue_none s p beyond h), fun s p fr hf hp => ⟨fun beyond hd hpg => ?_,
    fun i hd hmv hi hs hst hfit => ?_⟩, fun s d i clk k rest hd hs hp hpool hclk c hc => ?_, fun s d i tail k rest hs hp hin => ⟨fun hr => ?_, fun hr => ?_⟩⟩
  · refine ⟨_, rfl, ?_⟩
    rw [steerEnqueue_down s p fr beyond hf hd]
    obtain ⟨h1, h2, h3⟩ := bump_setInt_shows { s with macQ := s.macQ.erase fr } (Rg.D2D_DISCARD_CNT 0) (Pg.D2D 0) Ib.D2D_DISCARD (by decide) (by decide)
      (by decide) (by decide) (ne_domStat_page (by decide) (by decide)) (by decide) hpg
    have hq : (State.setInt (State.bump { s with macQ := s.macQ.erase fr } (Rg.D2D_DISCARD_CNT 0)) (Pg.D2D 0) Ib.D2D_DISCARD).macQ = s.macQ.erase fr :=
      onlyRegs_proj h3 State.macQ
    rw [(setMacQ_same s _).1] at h1
    generalize State.setInt _ _ _ = t at h1 h2 h3 hq ⊢
    refine ⟨hq, h1, h2, ?_⟩
    rw [hq]
    exact h3
  · refine ⟨_, rfl, ?_⟩
    rw [steerEnqueue_fits s p fr hf hd hfit]
    obtain ⟨hrd, hpg, hsl, hbk, hslices, hmac, hmove⟩ := setMacQ_same s (s.macQ.erase fr)
    have hk1 : (s.steerPkt p fr).stc = s.steerClass p (fr.bytes.take (fr.bytes.length - 4)) := rfl
    have hk2 : (s.steerPkt p fr).bucket = 256 * p + s.flowHash p (fr.bytes.take (fr.bytes.length - 4)) % 256 := rfl
    have hk3 : (s.steerPkt p fr).bytes = fr.bytes.take (fr.bytes.length - 4) ∧ (s.steerPkt p fr).bad = fr.bad ∧ (s.steerPkt p fr).md.lport = p ∧
      (s.steerPkt p fr).gen = s.cm.gen ∧ (s.steerPkt p fr).md.version = s.f Rg.CMT_VER Fd.CMT_VER_CUR := ⟨rfl, rfl, rfl, rfl, rfl⟩
    generalize s.steerPkt p fr = k at hk1 hk2 hk3 ⊢
    generalize ({ s with macQ := s.macQ.erase fr } : State) = v at hrd hpg hsl hbk hslices hmac hmove ⊢
    obtain ⟨hb, hbad, hport, hgen, hver⟩ := hk3
    have hi' : i = v.bucketEnt 0 k.bucket % 16 := by rw [hbk, hk2, hi]
    rw [← f_of_rd (hrd (Rg.SBUF_USED (p / 8)))] at hfit ⊢
    rw [← hsl] at hst ⊢
    refine ⟨?_, fun hpool => ⟨k, ?_⟩, fun hpool => ?_⟩
    · rcases Nat.lt_or_ge (poolCount (v.slice 0 i).pool) 512 with hpool | hpool
      · exact (enqueue_joins v p i fr k hp (hmove.trans hmv) hi' hst hfit hpool).2.1.trans hmac
      · exact ((enqueue_drops v p i fr k (hmove.trans hmv) hi' hst hfit hpool).1.proj State.macQ).trans hmac
    · obtain ⟨h1, -, h3⟩ := enqueue_joins v p i fr k hp (hmove.trans hmv) hi' hst hfit hpool
      exact ⟨h1, hb, hbad, hport, hgen, hver, by rw [hk2, hb], by rw [hk1, hb], h3⟩
    · obtain ⟨h1, h2⟩ := enqueue_drops v p i fr k (hmove.trans hmv) hi' hst hfit hpool
      rw [← hslices, ← hpg, ← hk1, ← hrd Rg.STEER_LL_DROP_CNT, ← hrd Rg.STEER_DROP_CNT]
      have hll : v.steerLossless k.stc = s.steerLossless k.stc := by rw [State.steerLossless, State.steerLossless, f_of_rd (hrd _)]
      rw [← hll]
      exact ⟨h1.proj State.slices, h2⟩
  · have hd01 : d = 0 ∨ d = 1 := by omega
    rcases hd01 with rfl | rfl
    · rw [hc, if_pos rfl]
      exact ⟨fun hr => congrArg Host.Outcome.next (sliceEntry_fenced s i clk hr), fun hr => ⟨_, rfl, sliceEntry_takes s i clk k rest hs hp hr hpool hclk⟩⟩
    · rw [hc, if_neg (by decide)]
      exact ⟨fun hr => congrArg Host.Outcome.next (egressEntry_fenced s i clk hr), fun hr => ⟨_, rfl, egressEntry_takes s i clk k rest hs hp hr hpool hclk⟩⟩
  · exact congrArg Host.Outcome.next (handoff_waits s d i tail k rest hin hr)
  · obtain ⟨hd, hi⟩ := isSlice_lt hs
    obtain ⟨h1, h2, h3⟩ := handedOff_shows s d i k rest
    obtain ⟨h4, h5⟩ := handoff_counts s d i k rest hd hi hp
    have hq : (s.handedOff d i k rest).quiet ((s.handedOff d i k rest).bump64 (Rg.SLICE_PKT_CNT_LO d i)) := (State.quiet.refl _).bump64
    have ha : (s.handedOff d i k rest).admQ = s.admQ := slices_proj h3 State.admQ
    have hm : (s.handedOff d i k rest).macTx = s.macTx := slices_proj h3 State.macTx
    by_cases hf : k.v.fwd = 1
    · refine ⟨_, congrArg Host.Outcome.next (handoff_drop s d i tail k rest hs hin hr hf), h1, h2, fun _ => ⟨ha, hm, h5⟩,
        fun h => absurd hf h, fun h => absurd hf h⟩
    · have hd01 : d = 0 ∨ d = 1 := by omega
      rcases hd01 with rfl | rfl
      · have hm2 := (hq.proj State.macTx).trans hm
        have ha2 := (hq.proj State.admQ).trans ha
        have hs1 := hq.slice 0 i
        have hn : ¬ (0 : Nat) = 1 := by decide
        by_cases hdest : k.v.hasDest = true
        · refine ⟨_, congrArg Host.Outcome.next (handoff_ingress s i tail k rest hs hin hr hf hdest), ?_⟩
          generalize (s.handedOff 0 i k rest).bump64 (Rg.SLICE_PKT_CNT_LO 0 i) = u at h4 ha2 hs1 ⊢
          rw [← hs1] at h1 h2
          rw [slice_setAdmQ, rd64_setAdmQ]
          refine ⟨h1, h2, fun h => absurd h hf, fun _ h => absurd h hn, fun _ _ _ => ⟨?_, h4⟩⟩
          rw [ha2, List.map_append, List.map_singleton, admItemOf_shows]
        · obtain ⟨u, hu, hs2⟩ := handoff_miss s i tail k rest hs hin hr hf
          refine ⟨_, congrArg Host.Outcome.next hu, ?_⟩
          rw [← hs2] at h1 h2
          exact ⟨h1, h2, fun h => absurd h hf, fun _ h => absurd h hn, fun _ _ h => absurd h hdest⟩
      · refine ⟨_, congrArg Host.Outcome.next (handoff_egress s i tail k rest hs hin hr hf), ?_⟩
        have hm2 := (hq.proj State.macTx).trans hm
        have hs1 := hq.slice 1 i
        generalize (s.handedOff 1 i k rest).bump64 (Rg.SLICE_PKT_CNT_LO 1 i) = u at h4 hm2 hs1 ⊢
        rw [← hs1] at h1 h2
        rw [slice_setMacTx, rd64_setMacTx]
        exact ⟨h1, h2, fun h => absurd h hf, fun _ _ => ⟨by rw [hm2], h4⟩, fun _ h => absurd h (by decide)⟩

end Sys2Proof.Machine
end

section
-- One after another: each `decide +kernel` below waits for every earlier proof, on a thread of its own.
set_option Elab.async false
/-! SUPPORT. Bucket moves: the end of a move whose held packet names a port that no part has (R92, R97). -/
namespace Sys2Proof.Machine

/-- A packet of port 64, which no part has. Its buffer's byte count would stand where SLICE_CTRL of ingress slice 0 stands. -/
def strayPacket : Pkt := { orig := [0, 0, 0], md := { lport := 64 } }

/-- A started move of bucket 0 from slice 1 to slice 0 that holds the packet. -/
def strayMove : Move := ⟨0, 1, 0, 0, true, false, [strayPacket]⟩

/-- The move in the tick after its start, its target ACTIVE and stranded, with a self-test period of 1. -/
def strayState : State :=
  { (State.reset.wr (Rg.SLICE_CTRL 0 0) 0x10000).setSlice 0 0 { stranded := true } with
    moveIn := some strayMove, tk := { State.reset.tk with count := 1 } }

/-- The move's end discards the packet, and what it gives back makes the target DORMANT. -/
theorem strayState_role : (strayState.moveDone 0).role 0 0 = rlDormant := by decide +kernel

theorem strayState_move : strayState.move 0 = some strayMove ∧ strayState.isSlice 0 1 = true ∧ strayState.isSlice 0 0 = true ∧
    strayState.pageOn (Pg.STEER / 0x1000) = true ∧ strayMove.start < strayState.tk.count := by decide +kernel

/-- Refutes O26: of a packet held by a move nothing says that its port exists. One of port 64 that is discarded at the end of the move gives its
bytes back at the address of the target's SLICE_CTRL, which leaves the target DORMANT. -/
theorem not_bucketMoves : ¬ Obligations.BucketMoves := by
  unfold Obligations.BucketMoves
  rintro ⟨-, -, hdone, -⟩
  obtain ⟨hm, hsrc, htgt, hon, hlate⟩ := strayState_move
  obtain ⟨t, ht, -, -, -, -, -, -, hrole⟩ := (hdone strayState 0 strayMove (by decide) hm rfl hsrc htgt hon).2 hlate
  have hexec : exec (.moveDone 0) strayState = .next (strayState.moveDone 0) := rfl
  rw [hexec] at ht
  cases ht
  exact hrole strayState_role

end Sys2Proof.Machine
end

section
-- One after another: each `decide +kernel` below waits for every earlier proof, on a thread of its own.
set_option Elab.async false
/-! SUPPORT. Fences: a packet inside a slice that names a port that no part has (R92, R103). -/
namespace Sys2Proof.Machine

/-- Ingress slice 0 ACTIVE, its fault source 0 enabled, with a packet inside of port 64, which no part has. The byte count of that port's buffer
would stand where SLICE_CTRL of the slice stands. -/
def strayInside : State := (State.reset.wr (Rg.SLICE_FAULT_EN 0 0) 1).setSlice 0 0 { inside := [{ md := { lport := 64 } }] }

theorem strayInside_slice : strayInside.isSlice 0 0 = true ∧ strayInside.pageOn (Pg.SLICE 0 0 / 0x1000) = true ∧
    strayInside.pageOn (Pg.STEER / 0x1000) = true ∧ bit (strayInside.rd (Rg.SLICE_FAULT_EN 0 0)) 0 = true ∧ strayInside.role 0 0 ≠ rlFenced := by
  decide +kernel

/-- The fence discards the packet, and what it gives back takes ROLE from FENCED to ACTIVE. -/
theorem strayInside_role : (strayInside.sliceFault 0 0 0).role 0 0 = rlActive := by decide +kernel

/-- Refutes O28: of a packet inside a slice nothing says that its port exists. One of port 64 that a fence discards gives its bytes back at the
address of the slice's own SLICE_CTRL, which leaves ROLE ACTIVE and not FENCED. -/
theorem not_faultsAndFences : ¬ Obligations.FaultsAndFences := by
  unfold Obligations.FaultsAndFences
  intro h
  obtain ⟨hs, hon, hsteer, hen, hrole⟩ := strayInside_slice
  obtain ⟨t, ht, -, -, -, hfence⟩ := (h strayInside 0 0 hs hon hsteer).1 0 (by decide) (.sliceFault 0 0 0) (.inl rfl)
  have hexec : exec (.sliceFault 0 0 0) strayInside = .next (strayInside.sliceFault 0 0 0) := rfl
  rw [hexec] at ht
  cases ht
  have hfenced := (hfence hen hrole).1
  rw [strayInside_role] at hfenced
  exact absurd hfenced (by decide)

end Sys2Proof.Machine
end

section
/-! SUPPORT. Slice roles and self-tests (R100, R407), and what a fence leaves of a slice's page. -/
namespace Sys2Proof.Machine

/-! ## Registers outside the pages of slices -/

/-- Whether a register lies outside the pages of slices. -/
def offSlices (x : Nat) : Bool := decide (x / 0x1000 < 0x40 ∨ 0x59 ≤ x / 0x1000)

theorem offSlices_int {pg x : Nat} (hg : pg % 0x1000 = 0) (hp : pg / 0x1000 < 0x40 ∨ 0x59 ≤ pg / 0x1000) (h : offSlices x = false) : cntReg pg x = false := by
  simp only [offSlices, decide_eq_false_iff_not, not_or, Nat.not_lt, Nat.not_le] at h
  have hcnt : Rg.IRQ_MSG_CNT 0 / 0x1000 = 0x1093 ∧ Rg.IRQ_MSG_CNT 1 / 0x1000 = 0x1093 ∧ Pg.IRQ = 0x1093000 := by decide
  simp only [cntReg, intReg, irqReg, Bool.or_eq_false_iff, beq_eq_false_iff_ne, decide_eq_false_iff_not]
  omega

/-- Two states whose slices' pages read the same. -/
def State.sameSlicePages (s t : State) : Prop := ∀ x, offSlices x = false → t.rd x = s.rd x

namespace State.sameSlicePages
variable {s t u : State}

theorem refl (s : State) : s.sameSlicePages s := fun _ _ => rfl

theorem trans (h1 : s.sameSlicePages t) (h2 : t.sameSlicePages u) : s.sameSlicePages u := fun x hx => (h2 x hx).trans (h1 x hx)

theorem ite {c : Prop} [Decidable c] (h1 : s.sameSlicePages t) (h2 : s.sameSlicePages u) : s.sameSlicePages (if c then t else u) := by split <;> assumption

theorem regs (h : s.sameSlicePages t) (h2 : State.onlyRegs offSlices t u) : s.sameSlicePages u := h.trans h2.2

theorem foldl {β : Type} {f : State → β → State} (hf : ∀ (u : State) (x : β), u.sameSlicePages (f u x)) (h : s.sameSlicePages t) (l : List β) :
    s.sameSlicePages (l.foldl f t) := by
  induction l generalizing t with
  | nil => exact h
  | cons x l ih => exact ih (h.trans (hf t x))

theorem wr (h : s.sameSlicePages t) {a v : Nat} (ha : offSlices a = true) : s.sameSlicePages (t.wr a v) := h.regs (onlyRegs_wr t a v ha)

theorem setF (h : s.sameSlicePages t) {a v : Nat} {fl : Fld} (ha : offSlices a = true) : s.sameSlicePages (t.setF a fl v) := h.wr ha

theorem setInt (h : s.sameSlicePages t) {pg b : Nat} (hg : pg % 0x1000 = 0) (hp : pg / 0x1000 < 0x40 ∨ 0x59 ≤ pg / 0x1000) :
    s.sameSlicePages (t.setInt pg b) := h.regs ((onlyRegs_refl _ t).setInt fun _ hx => cntReg_int _ _ (offSlices_int hg hp hx))

theorem bump (h : s.sameSlicePages t) {a n : Nat} (hlt : a % 0x1000 < 0x800) (hp : a / 0x1000 < 0x40 ∨ 0x59 ≤ a / 0x1000) :
    s.sameSlicePages (t.bump a n) :=
  h.regs ((onlyRegs_refl _ t).bump hlt (by simp [offSlices]; omega) fun _ hx => offSlices_int (by omega) (by omega) hx)

theorem log (h : s.sameSlicePages t) {pg code data : Nat} : s.sameSlicePages (t.log pg code data) := by
  refine h.trans fun x hx => (eventFrame_log t pg code data).2 x ?_
  have hi := offSlices_int (pg := Pg.EMRAM) (by decide) (by decide) hx
  simp only [offSlices, decide_eq_false_iff_not] at hx
  rw [logReg, intReg_irq _ _ (cntReg_int _ _ hi), Bool.or_false, beq_eq_false_iff_ne]
  omega

theorem steerStat (h : s.sameSlicePages t) : s.sameSlicePages t.steerStat := by
  have hw := fun v => h.wr (a := Rg.STEER_STAT) (v := v) (by decide)
  exact .ite ((hw _).setInt (by decide) (by decide)) (hw _)

theorem evacStat_off (d : Nat) (hd : d < 2) : offSlices (Rg.STEER_EVAC_STAT d) = true := by
  have : Rg.STEER_EVAC_STAT d = 0x30114 + 4 * d := rfl
  rw [offSlices, this, decide_eq_true_iff]
  omega

theorem moveStat_off (d : Nat) (hd : d < 2) : offSlices (Rg.STEER_MOVE_STAT d) = true := by
  have : Rg.STEER_MOVE_STAT d = 0x30108 + 4 * d := rfl
  rw [offSlices, this, decide_eq_true_iff]
  omega

theorem setMove (h : s.sameSlicePages t) {d : Nat} {m : Option Move} : s.sameSlicePages (t.setMove d m) := .ite h h

theorem setEvac (h : s.sameSlicePages t) {d : Nat} {m : Option Evac} : s.sameSlicePages (t.setEvac d m) := .ite h h

theorem evacEnd (h : s.sameSlicePages t) {d : Nat} (hd : d < 2) {done : Bool} : s.sameSlicePages (t.evacEnd d done) :=
  ((h.setEvac.setF (evacStat_off d hd)).setF (evacStat_off d hd)).setInt (by decide) (by decide)

theorem moveEnd (h : s.sameSlicePages t) {d r : Nat} (hd : d < 2) : s.sameSlicePages (t.moveEnd d r) :=
  (h.setMove.setF (moveStat_off d hd)).setF (moveStat_off d hd)

theorem evacMoved (h : s.sameSlicePages t) {d : Nat} (hd : d < 2) {moved : Bool} : s.sameSlicePages (t.evacMoved d moved) := by
  unfold State.evacMoved
  simp only []
  split
  · exact h
  · have h1 : ∀ v, s.sameSlicePages (if moved = true then t.setF (Rg.STEER_EVAC_STAT d) Fd.STEER_EVAC_STAT_MOVED v else t) := fun v =>
      .ite (h.setF (evacStat_off d hd)) h
    exact .ite ((h1 _).evacEnd hd) (.ite ((h1 _).evacEnd hd) (h1 _))

theorem fenceEvac (h : s.sameSlicePages t) {d i : Nat} (hd : d < 2) : s.sameSlicePages (t.fenceEvac d i) := by
  unfold State.fenceEvac
  split
  · exact .ite (h.evacEnd hd) h
  · exact h

theorem setChan (h : s.sameSlicePages t) {c ch : Nat} {l : List ChanSlot} : s.sameSlicePages (t.setChan c ch l) := by
  have hpg : Pg.APC c = 0x60000 + 0x1000 * c := rfl
  have h1 : ∀ x, s.sameSlicePages { t with chans := x } := fun _ => h
  refine setF (.ite (h1 _) ((h1 _).bump ?_ ?_)) ?_
  · rw [show Rg.APC_CHAN_REVOKE_CNT c = Pg.APC c + 0x238 from rfl, hpg]; omega
  · rw [show Rg.APC_CHAN_REVOKE_CNT c = Pg.APC c + 0x238 from rfl, hpg]; omega
  · rw [show Rg.APC_CHAN_CFG c (ch % 64) = Pg.APC c + 0x300 + 4 * (ch % 64) from rfl, hpg, offSlices, decide_eq_true_iff]
    omega

theorem endCtx (h : s.sameSlicePages t) {i : ApId} : s.sameSlicePages (t.endCtx i) := by
  have h1 : s.sameSlicePages ((t.releaseAll i).revokeAll i) := foldl (fun u _ => (refl u).setChan) (show s.sameSlicePages (t.releaseAll i) from h) _
  unfold State.endCtx State.setCtx
  split
  · exact h1
  · exact h1

theorem killCtxs (h : s.sameSlicePages t) {c : Nat} : s.sameSlicePages (t.killCtxs c) := foldl (fun u _ => (refl u).endCtx) h _

end State.sameSlicePages

/-! ## What a fence leaves of a self-test's end -/

section Ended
variable {d i : Nat}

/-- From one state to another the slice's recorded faults stay, its SELFTEST_DONE flag stays set, and a test that has ended without a pass stays so. -/
def State.keepsTest (d i : Nat) (s t : State) : Prop :=
  t.rd (Rg.SLICE_FAULT d i) = s.rd (Rg.SLICE_FAULT d i) ∧ (bit (s.rd (Pg.SLICE d i + 0x010)) 1 = true → bit (t.rd (Pg.SLICE d i + 0x010)) 1 = true) ∧
  (s.fb (Rg.SLICE_STAT d i) Fd.SLICE_STAT_SELFTEST_BUSY = false → s.fb (Rg.SLICE_STAT d i) Fd.SLICE_STAT_SELFTEST_PASS = false →
    t.fb (Rg.SLICE_STAT d i) Fd.SLICE_STAT_SELFTEST_BUSY = false ∧ t.fb (Rg.SLICE_STAT d i) Fd.SLICE_STAT_SELFTEST_PASS = false)

namespace State.keepsTest
variable {s t u : State}

theorem refl (s : State) : s.keepsTest d i s := ⟨rfl, id, fun h1 h2 => ⟨h1, h2⟩⟩

theorem trans (h1 : State.keepsTest d i s t) (h2 : State.keepsTest d i t u) : State.keepsTest d i s u := by
  obtain ⟨f1, n1, p1⟩ := h1
  obtain ⟨f2, n2, p2⟩ := h2
  exact ⟨f2.trans f1, fun h => n2 (n1 h), fun hb hp => p2 (p1 hb hp).1 (p1 hb hp).2⟩

theorem ofRd (hf : t.rd (Rg.SLICE_FAULT d i) = s.rd (Rg.SLICE_FAULT d i)) (hn : t.rd (Pg.SLICE d i + 0x010) = s.rd (Pg.SLICE d i + 0x010))
    (hs : t.rd (Rg.SLICE_STAT d i) = s.rd (Rg.SLICE_STAT d i)) : s.keepsTest d i t := by
  refine ⟨hf, by rw [hn]; exact id, ?_⟩
  rw [fb_of_rd hs, fb_of_rd hs]
  exact fun h1 h2 => ⟨h1, h2⟩

end State.keepsTest
end Ended

section Fence
variable {d i : Nat} (hd : d < 2) (hi : i < 9)
include hd hi

theorem sliceReg_on {o : Nat} (ho : o < 0x1000) : offSlices (Pg.SLICE d i + o) = false := by
  simp only [offSlices, decide_eq_false_iff_not, slicePg_val hd]
  omega

namespace State.keepsTest
variable {s t u : State}

theorem same (h : State.keepsTest d i s t) (h2 : t.sameSlicePages u) : State.keepsTest d i s u :=
  h.trans (ofRd (h2 _ (sliceReg_on hd hi (by decide))) (h2 _ (sliceReg_on hd hi (by decide))) (h2 _ (sliceReg_on hd hi (by decide))))

omit hd hi in
theorem setRole (h : State.keepsTest d i s t) {r : Nat} : State.keepsTest d i s (t.setF (Rg.SLICE_CTRL d i) Fd.SLICE_CTRL_ROLE r) := by
  have hc : Rg.SLICE_CTRL d i = Pg.SLICE d i + 0x100 := rfl
  have hf : Rg.SLICE_FAULT d i = Pg.SLICE d i + 0x108 := rfl
  refine h.trans (ofRd ?_ ?_ ?_) <;> rw [rd_setF_other]
  · rw [hf, hc]; omega
  · rw [hc]; omega
  · rw [sliceStat_val, hc]; omega

theorem count (h : State.keepsTest d i s t) {a o n : Nat} (ha : a = Pg.SLICE d i + o) (ho : 0x180 ≤ o ∧ o < 0x800) :
    State.keepsTest d i s (t.bump a n) := by
  have hv := slicePg_val hd i
  have hf : Rg.SLICE_FAULT d i = Pg.SLICE d i + 0x108 := rfl
  have hlt : a % 0x1000 < 0x800 := by omega
  have hst : (t.bump a n).rd (Rg.SLICE_STAT d i) = t.rd (Rg.SLICE_STAT d i) :=
    rd_bump_own (by rw [ownReg_iff, sliceStat_val]; omega) hlt (by rw [sliceStat_val]; omega)
  have hfa : (t.bump a n).rd (Rg.SLICE_FAULT d i) = t.rd (Rg.SLICE_FAULT d i) := rd_bump_own (by rw [ownReg_iff, hf]; omega) hlt (by rw [hf]; omega)
  refine h.trans ⟨hfa, fun hb => keepsInt_bump t _ n (by omega) (by omega) _ 1 (slicePg_mod d i) (by decide) hb, ?_⟩
  rw [fb_of_rd hst, fb_of_rd hst]
  exact fun h1 h2 => ⟨h1, h2⟩

omit hi in
theorem freeBuf (h : State.keepsTest d i s t) {k : Pkt} : State.keepsTest d i s (t.freeBuf k) := by
  have hv := slicePg_val hd i
  have hf : Rg.SLICE_FAULT d i = Pg.SLICE d i + 0x108 := rfl
  refine h.trans ⟨freeBuf_rd t k ?_ ?_, ?_, ?_⟩
  · rw [hf]; omega
  · rw [hf]; omega
  · rw [freeBuf_rd t k (by omega) (by omega)]
    exact id
  · have hst : (t.freeBuf k).rd (Rg.SLICE_STAT d i) = t.rd (Rg.SLICE_STAT d i) ∨ (t.freeBuf k).rd (Rg.SLICE_STAT d i) < 2 ^ 20 := by
      have hne : Rg.SLICE_STAT d i ≠ Rg.SBUF_USED (k.md.lport / 8) := by rw [sliceStat_val, sbufUsed_val]; omega
      have hlt : t.f (Rg.SBUF_USED (k.md.lport / 8)) Fd.SBUF_USED_BYTES < 2 ^ 20 := Nat.mod_lt _ (by decide)
      unfold State.freeBuf State.peak
      simp only []
      split
      · rw [rd_wr]
        split
        · right; omega
        · left; exact rd_setF_other _ _ _ _ _ hne
      · left; exact rd_setF_other _ _ _ _ _ hne
    rcases hst with h1 | h1
    · rw [fb_of_rd h1, fb_of_rd h1]
      exact fun h1 h2 => ⟨h1, h2⟩
    · have hz : ∀ lo, 20 ≤ lo → bits ((t.freeBuf k).rd (Rg.SLICE_STAT d i)) lo 1 = 0 := fun lo hlo => by
        have : (2 : Nat) ^ 20 ≤ 2 ^ lo := Nat.pow_le_pow_right (by decide) hlo
        rw [bits, Nat.div_eq_of_lt (by omega), Nat.zero_mod]
      refine fun _ _ => ⟨?_, ?_⟩ <;> rw [State.fb, State.f, hz _ (by decide)] <;> rfl

omit hi in
theorem buckets (h : State.keepsTest d i s t) {j v : Nat} : State.keepsTest d i s (t.setF (Rg.SLICE_STAT d j) Fd.SLICE_STAT_BUCKETS v) := by
  have hv := slicePg_val hd
  have hf : Rg.SLICE_FAULT d i = Pg.SLICE d i + 0x108 := rfl
  refine h.trans ⟨rd_setF_other _ _ _ _ _ ?_, ?_, fun h1 h2 => ?_⟩
  · rw [hf, sliceStat_val, hv, hv]; omega
  · rw [rd_setF_other _ _ _ _ _ (by rw [sliceStat_val, hv, hv]; omega)]
    exact id
  · by_cases he : Rg.SLICE_STAT d i = Rg.SLICE_STAT d j
    · rw [← he, fb_setF_disjoint _ _ _ _ _ (by decide) (by decide), fb_setF_disjoint _ _ _ _ _ (by decide) (by decide)]
      exact ⟨h1, h2⟩
    · rw [fb_of_rd (rd_setF_other _ _ _ _ _ he), fb_of_rd (rd_setF_other _ _ _ _ _ he)]
      exact ⟨h1, h2⟩

theorem pointBucket (h : State.keepsTest d i s t) {idx j : Nat} : State.keepsTest d i s (t.pointBucket d idx j) := by
  have h1 : State.keepsTest d i s (t.setTbl Pg.STEER d idx j) := h.same hd hi fun _ _ => rfl
  unfold State.pointBucket
  simp only []
  split
  · exact h1
  · split
    · exact (h1.buckets hd).buckets hd
    · exact h1.buckets hd

theorem dropInside (h : State.keepsTest d i s t) : State.keepsTest d i s (t.dropInside d i) := by
  have h1 := (h.same hd hi (u := t.setSlice d i { t.slice d i with inside := [] }) fun _ _ => rfl).count hd hi (a := Rg.SLICE_FENCE_DROP_CNT d i)
    (n := (t.slice d i).inside.length) rfl (by decide)
  have hfold : ∀ (l : List Pkt) (u : State), State.keepsTest d i s u → State.keepsTest d i s (l.foldl (fun t k => t.freeBuf k) u) := by
    intro l
    induction l with
    | nil => exact fun u hu => hu
    | cons k l ih => exact fun u hu => ih _ (hu.freeBuf hd)
  have h2 := hfold (t.slice d i).inside _ h1
  unfold State.dropInside
  simp only []
  split
  · exact h2.same hd hi (State.sameSlicePages.refl _).killCtxs
  · exact h1.same hd hi (State.sameSlicePages.refl _).killCtxs

theorem fenceMove (h : State.keepsTest d i s t) : State.keepsTest d i s (t.fenceMove d i) := by
  unfold State.fenceMove
  split
  · exact h
  next m hm =>
    have h1 : State.keepsTest d i s ((t.unmark d m.src).moveEnd d 2) :=
      (h.same hd hi (u := t.unmark d m.src) fun _ _ => rfl).same hd hi ((State.sameSlicePages.refl _).moveEnd hd)
    have h2 : ∀ u, State.keepsTest d i s u → ∀ v x, State.keepsTest d i s ((u.setTbl Pg.STEER d m.index v).setSlice d i x) := fun u hu v x =>
      hu.same hd hi fun _ _ => rfl
    have h3 := h2 _ (h1.pointBucket hd hi (idx := m.index) (j := i))
    simp only []
    split
    · exact h
    · split
      · split
        · exact h1.same hd hi ((State.sameSlicePages.refl _).evacMoved hd)
        · exact (h3 _ _).same hd hi ((State.sameSlicePages.refl _).evacMoved hd)
      · split
        · exact h1
        · exact h3 _ _

/-- A fence keeps the record of a test that has ended (R103, R407). -/
theorem fence (h : State.keepsTest d i s t) (hb : t.fb (Rg.SLICE_STAT d i) Fd.SLICE_STAT_SELFTEST_BUSY = false) :
    State.keepsTest d i s (t.fence d i) := by
  have ha : t.abortTest d i = t := if_neg (by simp [hb])
  have h1 : State.keepsTest d i s (t.setRole d i rlFenced) := h.setRole.same hd hi (State.sameSlicePages.refl _).steerStat
  have h2 := ((h1.dropInside hd hi).fenceMove hd hi).same hd hi ((State.sameSlicePages.refl _).fenceEvac (i := i) hd)
  unfold State.fence
  simp only [ha]
  generalize (((t.setRole d i rlFenced).dropInside d i).fenceMove d i).fenceEvac d i = u at h2 ⊢
  have h3 : State.keepsTest d i s (u.setSlice d i { u.slice d i with rehome := true }) := h2.same hd hi fun _ _ => rfl
  generalize u.setSlice d i { u.slice d i with rehome := true } = w at h3 ⊢
  exact h3.same hd hi (((State.sameSlicePages.refl w).bump (by decide) (by decide)).setInt (by decide) (by decide)).log

end State.keepsTest
end Fence

/-! ## Role writes (R100) -/

theorem sliceCtrl_val (d i : Nat) : Rg.SLICE_CTRL d i = Pg.SLICE d i + 0x100 := rfl
theorem sliceFault_val (d i : Nat) : Rg.SLICE_FAULT d i = Pg.SLICE d i + 0x108 := rfl

theorem steerStat_onlyRegs (s : State) : State.onlyRegs (fun x => x == Rg.STEER_STAT || intReg Pg.STEER x) s s.steerStat :=
  ((onlyRegs_refl _ s).wr (by simp)).setIntIf fun _ hx => (Bool.or_eq_false_iff.1 hx).2

section Roles
variable {s : State} {d i : Nat} (hs : s.isSlice d i = true)
include hs

theorem rd_steerStat_slice (t : State) {o : Nat} (h1 : 0x7C ≤ o) (h2 : o < 0x1000) : t.steerStat.rd (Pg.SLICE d i + o) = t.rd (Pg.SLICE d i + o) := by
  obtain ⟨hd, hi⟩ := isSlice_lt hs
  have hv := slicePg_val hd i
  have hne : Pg.SLICE d i + o ≠ Rg.STEER_STAT := by rw [hv, show Rg.STEER_STAT = 0x30120 from rfl]; omega
  have hint := intReg_of_own (pg := Pg.STEER) (by decide) (show ownReg (Pg.SLICE d i + o) = true by rw [ownReg_iff, hv]; omega)
  exact (steerStat_onlyRegs t).2 _ (by simp only [beq_false_of_ne hne, hint, Bool.or_false])

theorem setRole_role (t : State) (r : Nat) : (t.setRole d i r).role d i = r % 4 := by
  rw [State.role, State.setRole, sliceCtrl_val, f_of_rd (rd_steerStat_slice hs _ (by decide) (by decide)), f_setF_same _ _ _ _ (by decide)]
  rfl

omit hs in
theorem relieve_none (t : State) (j : Nat) (h : ∀ k, (t.slice d k).stranded = false) : t.relieve d j = t := by
  have hfold : ∀ l : List Nat, l.foldl (fun u k => if (u.slice d k).stranded && k != j && u.role d j == rlDormant then u.dealBuckets d k [j] else u) t = t := by
    intro l
    induction l with
    | nil => rfl
    | cons k l ih => rw [List.foldl_cons, if_neg (by simp [h k]), ih]
  exact hfold _

omit hs in
/-- A change of SELFTEST_PERIOD leaves what a role write goes by. -/
theorem setPeriod_same (s : State) (d i p : Nat) :
    (s.setF (Rg.SLICE_CTRL d i) Fd.SLICE_CTRL_SELFTEST_PERIOD p).role d i = s.role d i ∧
    (∀ fl, (s.setF (Rg.SLICE_CTRL d i) Fd.SLICE_CTRL_SELFTEST_PERIOD p).f (Rg.SLICE_STAT d i) fl = s.f (Rg.SLICE_STAT d i) fl) ∧
    (s.setF (Rg.SLICE_CTRL d i) Fd.SLICE_CTRL_SELFTEST_PERIOD p).targeted d i = s.targeted d i ∧
    ∀ j, (s.setF (Rg.SLICE_CTRL d i) Fd.SLICE_CTRL_SELFTEST_PERIOD p).slice d j = s.slice d j :=
  ⟨f_setF_disjoint _ _ _ _ _ (by decide) (by decide), fun fl => f_setF_other _ _ _ _ _ _ (by rw [sliceStat_val, sliceCtrl_val]; omega),
    (State.quiet.refl s).setF.proj (fun u => u.targeted d i), fun j => (State.quiet.refl s).setF.slice d j⟩

/-- The role writes that R100 lists. -/
def State.roleListed (s : State) (d i new : Nat) : Prop :=
  s.role d i = rlActive ∧ (new = rlDormant ∨ new = rlService) ∧ s.buckets d i = 0 ∧ s.targeted d i = false ∨
  s.role d i = rlDormant ∧ new = rlService ∧ s.targeted d i = false ∨
  s.role d i = rlService ∧ new = rlDormant ∧ s.fb (Rg.SLICE_STAT d i) Fd.SLICE_STAT_SELFTEST_PASS = true ∨
  s.role d i = rlFenced ∧ new = rlService ∧ s.buckets d i = 0

omit hs in
theorem roleAllowed_iff (new : Nat) : s.roleAllowed d i new = true ↔ s.roleListed d i new := by
  simp only [State.roleAllowed, State.roleListed, Bool.or_eq_true, Bool.and_eq_true, beq_iff_eq, Bool.not_eq_true', or_assoc, and_assoc]

omit hs in
theorem roleAllowed_setPeriod (p new : Nat) : (s.setF (Rg.SLICE_CTRL d i) Fd.SLICE_CTRL_SELFTEST_PERIOD p).roleAllowed d i new = s.roleAllowed d i new := by
  obtain ⟨h1, h2, h3, -⟩ := setPeriod_same s d i p
  simp only [State.roleAllowed, h1, h3, State.buckets, State.fb, h2]

omit hs in
theorem roleWrite_same (t : State) : t.roleWrite d i (t.role d i) = t := if_pos rfl

omit hs in
theorem roleWrite_refused (t : State) (new : Nat) (hne : new ≠ t.role d i) (h : t.roleAllowed d i new = false) :
    t.roleWrite d i new = t.setInt (Pg.SLICE d i) Ib.SLICE_REFUSED := by
  unfold State.roleWrite
  rw [if_neg hne, if_pos (by simp [h])]

/-- A listed role write takes the slice there. -/
theorem roleWrite_listed (t : State) (new : Nat) (hne : new ≠ t.role d i) (h : t.roleListed d i new) (hst : ∀ k, (t.slice d k).stranded = false) :
    (t.roleWrite d i new).role d i = new := by
  obtain ⟨hd, hi⟩ := isSlice_lt hs
  unfold State.roleWrite
  rw [if_neg hne, if_neg (by simp [(roleAllowed_iff new).2 h])]
  split
  next hnew =>
    have hne2 : Rg.SLICE_CTRL d i ≠ Rg.SLICE_STAT d i := by rw [sliceStat_val, sliceCtrl_val]; omega
    rw [State.role, f_setF_other _ _ _ _ _ _ hne2]
    exact (setRole_role hs _ _).trans (by rw [hnew]; rfl)
  next hnew =>
    have hdorm : new = rlDormant := by
      rcases h with ⟨-, h, -⟩ | ⟨-, h, -⟩ | ⟨-, h, -⟩ | ⟨-, h, -⟩
      · exact h.resolve_right hnew
      · exact absurd h hnew
      · exact h
      · exact absurd h hnew
    have hq : t.quiet (t.setRole d i rlDormant) := (State.quiet.refl t).setF.trans (.onlyRegs (steerStat_onlyRegs _))
    rw [relieve_none _ _ fun k => by rw [hq.slice d k]; exact hst k, setRole_role hs, hdorm]
    rfl

theorem slice_page (p : State) (hp : p.pageOn (Pg.SLICE d i / 0x1000) = true) (fl : Fld) (a : Nat) (ha : a / 0x1000 = Pg.SLICE d i / 0x1000) (v : Nat) :
    (p.setF a fl v).pageOn (Pg.SLICE d i / 0x1000) = true := by
  obtain ⟨hd, hi⟩ := isSlice_lt hs
  have hv := slicePg_val hd i
  rw [pageOn_setF_of _ _ _ _ _ (by rw [ha, hv]; omega) (by rw [ha, hv]; omega), hp]

end Roles

/-! ## The statement's parts -/

section Parts
variable {s : State} {d i : Nat} (hs : s.isSlice d i = true) (hp : s.pageOn (Pg.SLICE d i / 0x1000) = true)
include hs hp

omit hs hp in
/-- A slice's flag raised while its registers were written. -/
theorem sliceFlag_bit (t : State) {b : Nat} (hb : b < 32) (ht : t.pageOn (Pg.SLICE d i / 0x1000) = true) :
    bit ((t.setInt (Pg.SLICE d i) b).rd (Pg.SLICE d i + 0x010)) b = true := setInt_bit _ _ _ (slicePg_mod d i) hb ht

omit hp in
theorem onSliceCtrl_of (a : Acc) (v : Word) (hm : s.mayWrite a (Rg.SLICE_CTRL d i) = true) : s.onSliceCtrl a d i v.toNat = s.sliceCtrl d i v.toNat := by
  rw [State.onSliceCtrl, if_pos hs, onWrite_of s a _ _ hm]

omit hp in
theorem startTest_shows (t : State) (ht : t.pageOn (Pg.SLICE d i / 0x1000) = true) :
    (t.startTest d i).role d i = t.role d i ∧
    ((t.role d i = rlDormant ∨ t.role d i = rlService) ∧ t.fb (Rg.SLICE_STAT d i) Fd.SLICE_STAT_SELFTEST_BUSY = false →
      (t.startTest d i).fb (Rg.SLICE_STAT d i) Fd.SLICE_STAT_SELFTEST_BUSY = true ∧
      State.onlyRegs (fun x => x == Rg.SLICE_STAT d i) t (t.startTest d i)) ∧
    (¬((t.role d i = rlDormant ∨ t.role d i = rlService) ∧ t.fb (Rg.SLICE_STAT d i) Fd.SLICE_STAT_SELFTEST_BUSY = false) →
      bit ((t.startTest d i).rd (Pg.SLICE d i + 0x010)) 2 = true ∧ State.onlyRegs (intReg (Pg.SLICE d i)) t (t.startTest d i)) := by
  obtain ⟨hd, hi⟩ := isSlice_lt hs
  have hv := slicePg_val hd i
  by_cases hc : (t.role d i = rlDormant ∨ t.role d i = rlService) ∧ t.fb (Rg.SLICE_STAT d i) Fd.SLICE_STAT_SELFTEST_BUSY = false
  · have he : t.startTest d i = t.setF (Rg.SLICE_STAT d i) Fd.SLICE_STAT_SELFTEST_BUSY 1 := if_pos (by simpa using hc)
    rw [he]
    exact ⟨f_setF_other _ _ _ _ _ _ (by rw [sliceStat_val, sliceCtrl_val]; omega),
      fun _ => ⟨fb_setF_one _ _ _ (by decide) rfl, onlyRegs_setF _ _ _ _ (beq_self_eq_true _)⟩, fun h => absurd hc h⟩
  · have he : t.startTest d i = t.setInt (Pg.SLICE d i) Ib.SLICE_REFUSED := if_neg (by simpa using hc)
    rw [he]
    refine ⟨f_of_rd (rd_setInt_own ?_ (slicePg_mod d i)) _, fun h => absurd h hc, fun _ => ⟨sliceFlag_bit t (by decide) ht, onlyRegs_setInt _ _ _⟩⟩
    rw [ownReg_iff, sliceCtrl_val]
    omega

/-- A test that ends shows its result and is flagged (R407). -/
theorem testEnd_shows (pass : Bool) (t : State)
    (ht : t = ((s.setF (Rg.SLICE_STAT d i) Fd.SLICE_STAT_SELFTEST_BUSY 0).setF (Rg.SLICE_STAT d i) Fd.SLICE_STAT_SELFTEST_PASS (b2n pass)).setInt
      (Pg.SLICE d i) Ib.SLICE_SELFTEST_DONE) :
    t.fb (Rg.SLICE_STAT d i) Fd.SLICE_STAT_SELFTEST_BUSY = false ∧ t.fb (Rg.SLICE_STAT d i) Fd.SLICE_STAT_SELFTEST_PASS = pass ∧
    bit (t.rd (Pg.SLICE d i + 0x010)) 1 = true ∧ State.onlyRegs (fun x => x == Rg.SLICE_STAT d i || intReg (Pg.SLICE d i) x) s t := by
  obtain ⟨hd, hi⟩ := isSlice_lt hs
  have hv := slicePg_val hd i
  have hown : ownReg (Rg.SLICE_STAT d i) = true := by rw [ownReg_iff, sliceStat_val]; omega
  have hpg : Rg.SLICE_STAT d i / 0x1000 = Pg.SLICE d i / 0x1000 := by rw [sliceStat_val]; omega
  have hstat := rd_setInt_own (s := (s.setF (Rg.SLICE_STAT d i) Fd.SLICE_STAT_SELFTEST_BUSY 0).setF (Rg.SLICE_STAT d i) Fd.SLICE_STAT_SELFTEST_PASS (b2n pass))
    (b := Ib.SLICE_SELFTEST_DONE) hown (slicePg_mod d i)
  rw [ht, fb_of_rd hstat, fb_of_rd hstat]
  refine ⟨?_, fb_setF_b2n _ _ _ _ (by decide) rfl, sliceFlag_bit _ (by decide) (slice_page hs _ (slice_page hs _ hp _ _ hpg _) _ _ hpg _),
    (((onlyRegs_refl _ s).setF (by simp)).setF (by simp)).setInt fun x hx => (Bool.or_eq_false_iff.1 hx).2⟩
  rw [fb_setF_disjoint _ _ _ _ _ (by decide) (by decide)]
  exact fb_setF_zero _ _ _ (by decide) rfl

end Parts

/-- A failed test recorded (R102): what it left of the test's end stays. -/
theorem testFault_shows (t : State) (d i : Nat) (hs : t.isSlice d i = true) (hp : t.pageOn (Pg.SLICE d i / 0x1000) = true)
    (hb : t.fb (Rg.SLICE_STAT d i) Fd.SLICE_STAT_SELFTEST_BUSY = false) (hps : t.fb (Rg.SLICE_STAT d i) Fd.SLICE_STAT_SELFTEST_PASS = false)
    (hn : bit (t.rd (Pg.SLICE d i + 0x010)) 1 = true) :
    (t.sliceFault d i 4).fb (Rg.SLICE_STAT d i) Fd.SLICE_STAT_SELFTEST_BUSY = false ∧
    (t.sliceFault d i 4).fb (Rg.SLICE_STAT d i) Fd.SLICE_STAT_SELFTEST_PASS = false ∧
    bit ((t.sliceFault d i 4).rd (Pg.SLICE d i + 0x010)) 1 = true ∧ bit ((t.sliceFault d i 4).rd (Rg.SLICE_FAULT d i)) 4 = true := by
  obtain ⟨hd, hi⟩ := isSlice_lt hs
  have hv := slicePg_val hd i
  have hown : ∀ o, 0x100 ≤ o → o < 0x1000 → ownReg (Pg.SLICE d i + o) = true := fun o h1 h2 => by rw [ownReg_iff, hv]; omega
  have hst : ((t.wr (Rg.SLICE_FAULT d i) (setBit (t.rd (Rg.SLICE_FAULT d i)) 4)).setInt (Pg.SLICE d i) Ib.SLICE_FAULT).rd (Rg.SLICE_STAT d i) =
      t.rd (Rg.SLICE_STAT d i) := by
    rw [sliceStat_val, rd_setInt_own (hown _ (by decide) (by decide)) (slicePg_mod d i), rd_wr_other _ _ _ _ (by rw [sliceFault_val]; omega)]
  have hfa : bit (((t.wr (Rg.SLICE_FAULT d i) (setBit (t.rd (Rg.SLICE_FAULT d i)) 4)).setInt (Pg.SLICE d i) Ib.SLICE_FAULT).rd (Rg.SLICE_FAULT d i)) 4 =
      true := by
    rw [sliceFault_val, rd_setInt_own (hown _ (by decide) (by decide)) (slicePg_mod d i), rd_wr_same, bit_mod32 _ _ (by decide), bit_setBit]
    simp
  have hnn : bit (((t.wr (Rg.SLICE_FAULT d i) (setBit (t.rd (Rg.SLICE_FAULT d i)) 4)).setInt (Pg.SLICE d i) Ib.SLICE_FAULT).rd (Pg.SLICE d i + 0x010)) 1 =
      true := keepsInt_setInt _ _ _ (slicePg_mod d i) _ 1 (slicePg_mod d i) (by decide)
        (keepsInt_wr _ _ _ (by rw [sliceFault_val, hv]; omega) _ 1 (slicePg_mod d i) (by decide) hn)
  have hrec : ∀ u v, v = (t.wr (Rg.SLICE_FAULT d i) (setBit (t.rd (Rg.SLICE_FAULT d i)) 4)).setInt (Pg.SLICE d i) Ib.SLICE_FAULT →
      State.keepsTest d i v u → u.fb (Rg.SLICE_STAT d i) Fd.SLICE_STAT_SELFTEST_BUSY = false ∧ u.fb (Rg.SLICE_STAT d i) Fd.SLICE_STAT_SELFTEST_PASS = false ∧
        bit (u.rd (Pg.SLICE d i + 0x010)) 1 = true ∧ bit (u.rd (Rg.SLICE_FAULT d i)) 4 = true := by
    rintro u v rfl ⟨hf, hi', hkeep⟩
    obtain ⟨h1, h2⟩ := hkeep ((fb_of_rd hst _).trans hb) ((fb_of_rd hst _).trans hps)
    exact ⟨h1, h2, hi' hnn, by rw [hf, hfa]⟩
  have hbusy := (fb_of_rd hst Fd.SLICE_STAT_SELFTEST_BUSY).trans hb
  unfold State.sliceFault
  rw [if_neg (by simp [hs, hp])]
  simp only []
  generalize hv1 : (t.wr (Rg.SLICE_FAULT d i) (setBit (t.rd (Rg.SLICE_FAULT d i)) 4)).setInt (Pg.SLICE d i) Ib.SLICE_FAULT = v at hrec hbusy ⊢
  refine hrec _ v rfl ?_
  split
  · split
    · exact .refl v
    · exact (State.keepsTest.refl v).fence hd hi hbusy
  · exact (State.keepsTest.refl v).count hd hi (a := Rg.SLICE_FAULT_CNT d i) rfl (by decide)

theorem selftestCtrl_eq (s : State) (d i v : Nat) (h31 : bit v 31 = true) (h30 : bit v 30 = false) (hr : v % 4 = s.role d i) :
    s.sliceCtrl d i v = (s.setF (Rg.SLICE_CTRL d i) Fd.SLICE_CTRL_SELFTEST_PERIOD (bits v 16 8)).startTest d i := by
  have hrole := (setPeriod_same s d i (bits v 16 8)).1
  unfold State.sliceCtrl
  simp only [h31, h30, if_true, Bool.false_eq_true, if_false, hr]
  generalize s.setF (Rg.SLICE_CTRL d i) Fd.SLICE_CTRL_SELFTEST_PERIOD (bits v 16 8) = u at hrole ⊢
  rw [← hrole, roleWrite_same]

theorem roleCtrl_eq (s : State) (d i v : Nat) (h31 : bit v 31 = false) (h30 : bit v 30 = false) :
    s.sliceCtrl d i v = (s.setF (Rg.SLICE_CTRL d i) Fd.SLICE_CTRL_SELFTEST_PERIOD (bits v 16 8)).roleWrite d i (v % 4) := by
  unfold State.sliceCtrl
  simp only [h31, h30, Bool.false_eq_true, if_false]

/-- Settles O27: role writes by R100's table, and a failed self-test by what a fence leaves of the slice's page. -/
theorem sliceRolesAndTests : Obligations.SliceRolesAndTests := by
  unfold Obligations.SliceRolesAndTests
  intro s d i hs hp
  have hpg : Rg.SLICE_CTRL d i / 0x1000 = Pg.SLICE d i / 0x1000 := by
    rw [sliceCtrl_val]
    have := slicePg_mod d i
    omega
  refine ⟨fun a v hm h31 h30 hst => ?_, fun a v hm h31 h30 hr => ?_, fun hr hper hb => ?_, fun hb => ⟨?_, ?_⟩⟩
  · refine ⟨_, congrArg Host.Outcome.next (onSliceCtrl_of hs a v hm), ?_⟩
    rw [roleCtrl_eq s d i _ h31 h30]
    obtain ⟨hrole, hstat, htgt, hslice⟩ := setPeriod_same s d i (bits v.toNat 16 8)
    have hall := roleAllowed_setPeriod (s := s) (d := d) (i := i) (bits v.toNat 16 8) (v.toNat % 4)
    have hregs : State.onlyRegs (fun x => x == Rg.SLICE_CTRL d i) s (s.setF (Rg.SLICE_CTRL d i) Fd.SLICE_CTRL_SELFTEST_PERIOD (bits v.toNat 16 8)) :=
      onlyRegs_setF _ _ _ _ (beq_self_eq_true _)
    have hon := slice_page hs s hp Fd.SLICE_CTRL_SELFTEST_PERIOD _ hpg (bits v.toNat 16 8)
    generalize s.setF (Rg.SLICE_CTRL d i) Fd.SLICE_CTRL_SELFTEST_PERIOD (bits v.toNat 16 8) = u at hrole hstat htgt hslice hall hregs hon ⊢
    refine ⟨fun h => ?_, fun h => ⟨fun hl => ?_, fun hl => ?_⟩⟩
    · rw [h, ← hrole, roleWrite_same]
      exact ⟨rfl, hregs⟩
    · refine roleWrite_listed (s := u) ?_ u _ (by rw [hrole]; exact h) ?_ fun k => by rw [hslice]; exact hst k
      · rw [isSlice_iff, onlyRegs_proj hregs State.part]
        exact isSlice_iff.1 hs
      · rw [← roleAllowed_iff, hall, roleAllowed_iff]
        exact hl
    · have hno : u.roleAllowed d i (v.toNat % 4) = false := by
        rw [hall, Bool.eq_false_iff]
        exact fun h => hl ((roleAllowed_iff _).1 h)
      rw [roleWrite_refused u _ (by rw [hrole]; exact h) hno]
      refine ⟨?_, sliceFlag_bit u (by decide) hon, (onlyRegs_mono hregs fun x hx => (Bool.or_eq_false_iff.1 hx).1).setInt fun x hx => (Bool.or_eq_false_iff.1 hx).2⟩
      rw [← hrole]
      refine f_of_rd (rd_setInt_own ?_ (slicePg_mod d i)) _
      rw [ownReg_iff, sliceCtrl_val, slicePg_val (isSlice_lt hs).1]
      have := isSlice_lt hs
      omega
  · refine ⟨_, congrArg Host.Outcome.next (onSliceCtrl_of hs a v hm), ?_⟩
    rw [selftestCtrl_eq s d i _ h31 h30 hr]
    obtain ⟨hrole, hstat, -, -⟩ := setPeriod_same s d i (bits v.toNat 16 8)
    have hregs : State.onlyRegs (fun x => x == Rg.SLICE_CTRL d i) s (s.setF (Rg.SLICE_CTRL d i) Fd.SLICE_CTRL_SELFTEST_PERIOD (bits v.toNat 16 8)) :=
      onlyRegs_setF _ _ _ _ (beq_self_eq_true _)
    have hon := slice_page hs s hp Fd.SLICE_CTRL_SELFTEST_PERIOD _ hpg (bits v.toNat 16 8)
    obtain ⟨h1, h2, h3⟩ := startTest_shows hs _ hon
    have hbusy : (s.setF (Rg.SLICE_CTRL d i) Fd.SLICE_CTRL_SELFTEST_PERIOD (bits v.toNat 16 8)).fb (Rg.SLICE_STAT d i) Fd.SLICE_STAT_SELFTEST_BUSY =
        s.fb (Rg.SLICE_STAT d i) Fd.SLICE_STAT_SELFTEST_BUSY := by rw [State.fb, hstat, State.fb]
    rw [hbusy] at h2 h3
    generalize s.setF (Rg.SLICE_CTRL d i) Fd.SLICE_CTRL_SELFTEST_PERIOD (bits v.toNat 16 8) = u at hrole hregs h1 h2 h3 ⊢
    rw [hrole] at h1 h2 h3
    exact ⟨h1, fun h => ⟨(h2 h).1, onlyRegs_trans (onlyRegs_mono hregs fun x hx => (Bool.or_eq_false_iff.1 hx).1)
        (onlyRegs_mono (h2 h).2 fun x hx => (Bool.or_eq_false_iff.1 hx).2)⟩,
      fun h => ⟨(h3 h).1, onlyRegs_trans (onlyRegs_mono hregs fun x hx => (Bool.or_eq_false_iff.1 hx).1)
        (onlyRegs_mono (h3 h).2 fun x hx => (Bool.or_eq_false_iff.1 hx).2)⟩⟩
  · have he : s.testPeriodic d i = s.startTest d i := by
      unfold State.testPeriodic
      rw [if_pos (by simp [hs, hr, hb, hper])]
    exact ⟨_, congrArg Host.Outcome.next he, (startTest_shows hs s hp).2.1 ⟨.inl hr, hb⟩⟩
  · have he : s.testDone d i true = ((s.setF (Rg.SLICE_STAT d i) Fd.SLICE_STAT_SELFTEST_BUSY 0).setF (Rg.SLICE_STAT d i) Fd.SLICE_STAT_SELFTEST_PASS
        (b2n true)).setInt (Pg.SLICE d i) Ib.SLICE_SELFTEST_DONE := by
      unfold State.testDone
      rw [if_neg (by simp [hs, hb]), if_pos rfl]
    exact ⟨_, congrArg Host.Outcome.next he, testEnd_shows hs hp true _ rfl⟩
  · have he : s.testDone d i false = (((s.setF (Rg.SLICE_STAT d i) Fd.SLICE_STAT_SELFTEST_BUSY 0).setF (Rg.SLICE_STAT d i) Fd.SLICE_STAT_SELFTEST_PASS
        (b2n false)).setInt (Pg.SLICE d i) Ib.SLICE_SELFTEST_DONE).sliceFault d i 4 := by
      unfold State.testDone
      rw [if_neg (by simp [hs, hb]), if_neg (by decide)]
    refine ⟨_, congrArg Host.Outcome.next he, ?_⟩
    obtain ⟨h1, h2, h3, h4⟩ := testEnd_shows hs hp false _ rfl
    generalize State.setInt _ _ Ib.SLICE_SELFTEST_DONE = t at h1 h2 h3 h4 ⊢
    refine testFault_shows t d i ?_ ?_ h1 h2 h3
    · rw [isSlice_iff, onlyRegs_proj h4 State.part]
      exact isSlice_iff.1 hs
    · rw [pageOn_of_onlyRegs h4 ?_, hp]
      intro d' hd' w hw
      have hv := slicePg_val (isSlice_lt hs).1 i
      have := isSlice_lt hs
      have hd1 : d' ≤ 1 := by simp at hd'; omega
      have hw1 : w ≤ 1 := by simp at hw; omega
      have hne := ne_domStat_page (a := Rg.SLICE_STAT d i) (by rw [sliceStat_val, hv]; omega) (by rw [sliceStat_val, hv]; omega) d' w hd1 hw1
      have hint : intReg (Pg.SLICE d i) (Rg.PWR_DOM_STAT d' w) = false := cntReg_int _ _ (cntReg_dom _ d' w (slicePg_mod d i) hd1 hw1)
      simp only [hint, beq_false_of_ne hne.symm, Bool.or_false]

end Sys2Proof.Machine
end

section
/-! SUPPORT. The table command interface of a page (R165, R166). -/
namespace Sys2Proof.Machine

section Words
variable (page : Nat)

theorem tblPage_mod : page * 0x1000 % 0x1000 = 0 := Nat.mul_mod_left _ _

theorem tblPage_div {o : Nat} (ho : o < 0x1000) : (page * 0x1000 + o) / 0x1000 = page := by omega

omit page in
theorem ite_some_lt {c : Prop} [Decidable c] {x : Nat} {o : Option Nat} (hx : x < 32) (ho : ∀ b, o = some b → b < 32) :
    ∀ b, (if c then some x else o) = some b → b < 32 := by
  intro b h
  split at h
  · cases h
    exact hx
  · exact ho b h

theorem tblRefusedBit_lt : ∀ b, tblRefusedBit page = some b → b < 32 := by
  unfold tblRefusedBit
  repeat' refine ite_some_lt (by decide) ?_
  exact fun b h => absurd h (by simp)

/-- No page whose refusals are flagged is the interrupt aggregator's. -/
theorem tblRefusedBit_page {b : Nat} (h : tblRefusedBit page = some b) : page ≠ 0x1093 := by
  rintro rfl
  have hnone : tblRefusedBit 0x1093 = none := by decide
  rw [hnone] at h
  cases h

theorem tblReg_own {o : Nat} (h1 : 0xF00 ≤ o) (h2 : o < 0x1000) (hp : page ≠ 0x1093) : ownReg (page * 0x1000 + o) = true := by
  rw [ownReg_iff]
  omega

end Words

/-- TBL_DATA with a result written into it. -/
def State.tblShow (s : State) (page : Nat) (data : Option Nat) : State :=
  match data with
  | none => s
  | some v => (List.range 16).foldl (fun t j => t.wr (page * 0x1000 + 0xF10 + 4 * j) (bits v (32 * j) 32)) s

/-- TBL_STAT of a completed command, OVERRUN as it stood in `old` (R165). -/
def tblStat (refill : Bool) (old m st : Nat) : Nat := b2n refill * 2 ^ 31 + bits old 30 1 * 2 ^ 30 + m * 2 ^ 8 + st % 256

theorem tblFinish_eq (s : State) (page op st moves : Nat) (data : Option Nat) : s.tblFinish page op st moves data =
    if st = stOk ∨ (op = opSearch ∧ st = stNotFound) then
      (s.tblShow page data).wr (page * 0x1000 + 0xF08) (tblStat (s.refill.contains page) ((s.tblShow page data).rd (page * 0x1000 + 0xF08)) (min 255 moves) st)
    else match tblRefusedBit page with
      | some b => ((s.tblShow page data).wr (page * 0x1000 + 0xF08)
          (tblStat (s.refill.contains page) ((s.tblShow page data).rd (page * 0x1000 + 0xF08)) (min 255 moves) st)).setInt (page * 0x1000) b
      | none => (s.tblShow page data).wr (page * 0x1000 + 0xF08)
          (tblStat (s.refill.contains page) ((s.tblShow page data).rd (page * 0x1000 + 0xF08)) (min 255 moves) st) := rfl

/-- A list of distinct registers written: each reads its value, and no other changes. -/
theorem rd_foldl_wr {g : Nat → Nat} {f : Nat → Nat} (hg : ∀ i j, g i = g j → i = j) (l : List Nat) (s : State) :
    (∀ j, j ∈ l → (l.foldl (fun t j => t.wr (g j) (f j)) s).rd (g j) = f j % 2 ^ 32) ∧
    (∀ x, (∀ j ∈ l, x ≠ g j) → (l.foldl (fun t j => t.wr (g j) (f j)) s).rd x = s.rd x) := by
  induction l generalizing s with
  | nil => exact ⟨fun _ h => (List.not_mem_nil h).elim, fun _ _ => rfl⟩
  | cons k l ih =>
    obtain ⟨h1, h2⟩ := ih (s.wr (g k) (f k))
    refine ⟨fun j hj => ?_, fun x hx => ?_⟩
    · rw [List.foldl_cons]
      by_cases hl : j ∈ l
      · exact h1 j hl
      · have hjk : j = k := (List.mem_cons.1 hj).resolve_right hl
        subst hjk
        rw [h2 _ fun m hm he => hl (by rw [hg _ _ he]; exact hm), rd_wr_same]
    · rw [List.foldl_cons, h2 x fun j hj => hx j (List.mem_cons_of_mem _ hj), rd_wr_other _ _ _ _ (hx k List.mem_cons_self)]

theorem onlyRegs_foldl_wr {P : Nat → Bool} {g f : Nat → Nat} (l : List Nat) (hl : ∀ j ∈ l, P (g j) = true) {s t : State} (h : State.onlyRegs P s t) :
    State.onlyRegs P s (l.foldl (fun t j => t.wr (g j) (f j)) t) := by
  induction l generalizing t with
  | nil => exact h
  | cons k l ih => exact ih (fun j hj => hl j (List.mem_cons_of_mem _ hj)) (h.wr (hl k List.mem_cons_self))

/-- The data words and status of a page's interface. -/
def tblWords (page x : Nat) : Bool := decide (page * 0x1000 + 0xF08 ≤ x ∧ x < page * 0x1000 + 0xF50)

theorem tblShow_shows (s : State) (page : Nat) (data : Option Nat) :
    (∀ v j, data = some v → j < 16 → (s.tblShow page data).rd (page * 0x1000 + 0xF10 + 4 * j) = bits v (32 * j) 32) ∧
    (data = none → s.tblShow page data = s) ∧ State.onlyRegs (tblWords page) s (s.tblShow page data) := by
  have hinj : ∀ i j, page * 0x1000 + 0xF10 + 4 * i = page * 0x1000 + 0xF10 + 4 * j → i = j := fun i j h => by omega
  cases data with
  | none => exact ⟨fun _ _ h => absurd h (by simp), fun _ => rfl, onlyRegs_refl _ s⟩
  | some v =>
    refine ⟨fun w j hw hj => ?_, fun h => absurd h (by simp), onlyRegs_foldl_wr (g := fun j => page * 0x1000 + 0xF10 + 4 * j) _ (fun j hj => ?_) (onlyRegs_refl _ s)⟩
    · cases hw
      rw [State.tblShow, (rd_foldl_wr (g := fun j => page * 0x1000 + 0xF10 + 4 * j) (f := fun j => bits v (32 * j) 32) hinj _ s).1 j (List.mem_range.2 hj)]
      exact Nat.mod_eq_of_lt (bits_lt _ _ _)
    · have := List.mem_range.1 hj
      simp only [tblWords, decide_eq_true_eq]
      omega

theorem tblStat_shows (refill : Bool) (old m st : Nat) (hm : m ≤ 255) (hst : st < 256) :
    bit (tblStat refill old m st % 2 ^ 32) 31 = refill ∧ tblStat refill old m st % 2 ^ 32 % 256 = st ∧
    bits (tblStat refill old m st % 2 ^ 32) 8 8 = m := by
  have h30 := bits_lt old 30 1
  have hlt : tblStat refill old m st < 2 ^ 32 := by
    have := b2n_lt refill
    simp only [tblStat]
    omega
  rw [Nat.mod_eq_of_lt hlt]
  simp only [tblStat, bits] at h30 ⊢
  refine ⟨?_, by omega, by omega⟩
  have h31 : (b2n refill * 2 ^ 31 + old / 2 ^ 30 % 2 ^ 1 * 2 ^ 30 + m * 2 ^ 8 + st % 256) / 2 ^ 31 % 2 = b2n refill := by
    have := b2n_lt refill
    omega
  rw [bit, h31]
  cases refill <;> rfl

theorem tblReg_dom (page d w : Nat) (hd : d ≤ 1) (hw : w ≤ 1) : (tblWords page (Rg.PWR_DOM_STAT d w) || intReg (page * 0x1000) (Rg.PWR_DOM_STAT d w)) = false := by
  have hall : ∀ d ∈ [0, 1], ∀ w ∈ [0, 1], Rg.PWR_DOM_STAT d w % 0x1000 < 0x200 := by decide
  have hoff := hall d (by simp; omega) w (by simp; omega)
  have hint := cntReg_int _ _ (cntReg_dom (page * 0x1000) d w (tblPage_mod page) hd hw)
  have hwords : tblWords page (Rg.PWR_DOM_STAT d w) = false := by
    simp only [tblWords, decide_eq_false_iff_not]
    omega
  rw [hwords, hint, Bool.false_or]

/-- What a completed command leaves in its page's registers (R165). -/
theorem tblFinish_shows (s : State) (page op st moves : Nat) (data : Option Nat) (hp : s.pageOn page = true) (hst : st < 256) :
    bit ((s.tblFinish page op st moves data).rd (page * 0x1000 + 0xF08)) 31 = s.refill.contains page ∧
    (s.tblFinish page op st moves data).rd (page * 0x1000 + 0xF08) % 256 = st ∧
    bits ((s.tblFinish page op st moves data).rd (page * 0x1000 + 0xF08)) 8 8 = min 255 moves ∧
    (∀ v j, data = some v → j < 16 → (s.tblFinish page op st moves data).rd (page * 0x1000 + 0xF10 + 4 * j) = bits v (32 * j) 32) ∧
    (∀ j, data = none → j < 16 → (s.tblFinish page op st moves data).rd (page * 0x1000 + 0xF10 + 4 * j) = s.rd (page * 0x1000 + 0xF10 + 4 * j)) ∧
    (∀ b, st ≠ 0 → ¬(op = 6 ∧ st = 0x04) → tblRefusedBit page = some b → bit ((s.tblFinish page op st moves data).rd (page * 0x1000 + 0x010)) b = true) ∧
    (data = none → State.onlyRegs (fun x => x == page * 0x1000 + 0xF08 || intReg (page * 0x1000) x) s (s.tblFinish page op st moves data)) ∧
    State.onlyRegs (fun x => tblWords page x || intReg (page * 0x1000) x) s (s.tblFinish page op st moves data) := by
  obtain ⟨hdata, hnone, hregs⟩ := tblShow_shows s page data
  obtain ⟨h1, h2, h3⟩ := tblStat_shows (s.refill.contains page) ((s.tblShow page data).rd (page * 0x1000 + 0xF08)) (min 255 moves) st (Nat.min_le_left _ _) hst
  have hw : ∀ v, tblWords page (page * 0x1000 + 0xF08) = true ∧ ((s.tblShow page data).wr (page * 0x1000 + 0xF08) v).rd (page * 0x1000 + 0xF08) = v % 2 ^ 32 ∧
      ∀ j, ((s.tblShow page data).wr (page * 0x1000 + 0xF08) v).rd (page * 0x1000 + 0xF10 + 4 * j) = (s.tblShow page data).rd (page * 0x1000 + 0xF10 + 4 * j) :=
    fun v => ⟨by simp only [tblWords, decide_eq_true_eq]; omega, rd_wr_same _ _ _, fun j => rd_wr_other _ _ _ _ (by omega)⟩
  obtain ⟨hin, hsame, hother⟩ := hw (tblStat (s.refill.contains page) ((s.tblShow page data).rd (page * 0x1000 + 0xF08)) (min 255 moves) st)
  have hA : State.onlyRegs (fun x => tblWords page x || intReg (page * 0x1000) x) s ((s.tblShow page data).wr (page * 0x1000 + 0xF08)
      (tblStat (s.refill.contains page) ((s.tblShow page data).rd (page * 0x1000 + 0xF08)) (min 255 moves) st)) :=
    (onlyRegs_mono hregs fun x hx => (Bool.or_eq_false_iff.1 hx).1).wr (by simp only [hin, Bool.true_or])
  have hB : data = none → State.onlyRegs (fun x => x == page * 0x1000 + 0xF08 || intReg (page * 0x1000) x) s ((s.tblShow page data).wr
      (page * 0x1000 + 0xF08) (tblStat (s.refill.contains page) ((s.tblShow page data).rd (page * 0x1000 + 0xF08)) (min 255 moves) st)) := fun h => by
    rw [hnone h]
    exact (onlyRegs_refl _ s).wr (by simp)
  have hdat : (∀ v j, data = some v → j < 16 → ((s.tblShow page data).wr (page * 0x1000 + 0xF08) (tblStat (s.refill.contains page)
        ((s.tblShow page data).rd (page * 0x1000 + 0xF08)) (min 255 moves) st)).rd (page * 0x1000 + 0xF10 + 4 * j) = bits v (32 * j) 32) ∧
      (∀ j, data = none → j < 16 → ((s.tblShow page data).wr (page * 0x1000 + 0xF08) (tblStat (s.refill.contains page)
        ((s.tblShow page data).rd (page * 0x1000 + 0xF08)) (min 255 moves) st)).rd (page * 0x1000 + 0xF10 + 4 * j) = s.rd (page * 0x1000 + 0xF10 + 4 * j)) :=
    ⟨fun v j hv hj => (hother j).trans (hdata v j hv hj), fun j hn _ => (hother j).trans (by rw [hnone hn])⟩
  rw [tblFinish_eq]
  have hpage : ∀ u, State.onlyRegs (fun x => tblWords page x || intReg (page * 0x1000) x) s u → u.pageOn page = true := fun u hu => by
    rw [onlyRegs_pageOn hu (tblReg_dom page), hp]
  generalize (s.tblShow page data).wr (page * 0x1000 + 0xF08) (tblStat (s.refill.contains page) ((s.tblShow page data).rd (page * 0x1000 + 0xF08))
    (min 255 moves) st) = u at hsame hA hB hdat ⊢
  rw [← hsame] at h1 h2 h3
  split
  next hok => exact ⟨h1, h2, h3, hdat.1, hdat.2, fun b hne hns => absurd hok (by rintro (h | h); exacts [hne h, hns h]), hB, hA⟩
  next hok =>
    split
    next b hb =>
      have hown : ∀ o, 0xF00 ≤ o → o < 0x1000 → (u.setInt (page * 0x1000) b).rd (page * 0x1000 + o) = u.rd (page * 0x1000 + o) := fun o ho1 ho2 =>
        rd_setInt_own (tblReg_own page ho1 ho2 (tblRefusedBit_page page hb)) (tblPage_mod page)
      have hown2 : ∀ j, j < 16 → (u.setInt (page * 0x1000) b).rd (page * 0x1000 + 0xF10 + 4 * j) = u.rd (page * 0x1000 + 0xF10 + 4 * j) := fun j hj => by
        rw [Nat.add_assoc, hown _ (by omega) (by omega)]
      rw [hown _ (by decide) (by decide)]
      refine ⟨h1, h2, h3, fun v j hv hj => (hown2 j hj).trans (hdat.1 v j hv hj), fun j hn hj => (hown2 j hj).trans (hdat.2 j hn hj),
        fun b' _ _ hb' => ?_, fun h => (hB h).setInt fun x hx => (Bool.or_eq_false_iff.1 hx).2, hA.setInt fun x hx => (Bool.or_eq_false_iff.1 hx).2⟩
      rw [hb] at hb'
      cases hb'
      exact setInt_bit _ _ _ (tblPage_mod page) (tblRefusedBit_lt page b hb) (by rw [Nat.mul_div_cancel _ (by decide)]; exact hpage u hA)
    next hb => exact ⟨h1, h2, h3, hdat.1, hdat.2, fun b' _ _ hb' => absurd (hb.symm.trans hb') (by simp), hB, hA⟩

/-! ## A write of TBL_CMD -/

theorem setTblRun_rd (s : State) (m : Sparse (Option (Nat × Nat × Nat × Option Nat))) (a : Nat) : State.rd { s with tblRun := m } a = s.rd a := rfl

theorem setTblRun_same (s : State) (m : Sparse (Option (Nat × Nat × Nat × Option Nat))) : (∀ g, State.pageOn { s with tblRun := m } g = s.pageOn g) ∧
    State.refill { s with tblRun := m } = s.refill ∧ State.softWait { s with tblRun := m } = s.softWait ∧ State.tblRun { s with tblRun := m } = m :=
  ⟨fun _ => rfl, rfl, rfl, rfl⟩

/-- A page whose command runs to an answer. -/
def State.tblRuns (s : State) (page op : Nat) (ans : TblAns) : State :=
  ({ s with tblRun := sset none s.tblRun page (some (op, ans.st, ans.moves, ans.data)) } : State).setF (page * 0x1000 + 0xF08) ⟨31, 1⟩ 1

/-- A command that starts runs with what its table answered (R165). -/
theorem tblStart_runs (s : State) (a : Acc) (page op : Nat) (ht : hasTables page = true) (hrun : shas s.tblRun page = false)
    (hrefill : s.refill.contains page = false) (hop : ¬(op = 0 ∨ 7 < op)) :
    s.tblStart a page op = (s.tblExec a page op).1.tblRuns page op (s.tblExec a page op).2 := by
  unfold State.tblStart
  rw [if_neg (by simp [ht]), if_neg (by simp [hrun]), if_neg (by simpa using hrefill), if_neg hop]
  rfl

theorem setBusy_bit (s : State) (a : Nat) : bit ((s.setF a ⟨31, 1⟩ 1).rd a) 31 = true := by
  rw [rd_setF_same, bit_mod32 _ _ (by decide)]
  exact (bit_setBits_one _ 31 31 true).trans (if_pos rfl)

theorem tblRuns_shows (s : State) (page op : Nat) (ans : TblAns) : bit ((s.tblRuns page op ans).rd (page * 0x1000 + 0xF08)) 31 = true ∧
    sget none (s.tblRuns page op ans).tblRun page = some (op, ans.st, ans.moves, ans.data) := by
  refine ⟨setBusy_bit _ _, ?_⟩
  rw [State.tblRuns, State.setF_tblRun]
  exact sget_sset_same none s.tblRun page (some (op, ans.st, ans.moves, ans.data))

/-- What a write of TBL_CMD does, by whether a command runs and by its OP (R165). -/
theorem tblStart_shows (s : State) (a : Acc) (page op : Nat) (ht : hasTables page = true) (hp : s.pageOn page = true) :
    (shas s.tblRun page = true → bit ((s.tblStart a page op).rd (page * 0x1000 + 0xF08)) 30 = true ∧
      State.onlyRegs (fun x => x == page * 0x1000 + 0xF08) s (s.tblStart a page op)) ∧
    (shas s.tblRun page = false → s.refill.contains page = false →
      (op = 0 ∨ 7 < op → (s.tblStart a page op).tblRun = s.tblRun ∧ (s.tblStart a page op).tbls = s.tbls ∧
        (s.tblStart a page op).rd (page * 0x1000 + 0xF08) % 256 = 0x07 ∧ bit ((s.tblStart a page op).rd (page * 0x1000 + 0xF08)) 31 = false ∧
        (∀ b, tblRefusedBit page = some b → bit ((s.tblStart a page op).rd (page * 0x1000 + 0x010)) b = true) ∧
        State.onlyRegs (fun x => x == page * 0x1000 + 0xF08 || intReg (page * 0x1000) x) s (s.tblStart a page op)) ∧
      (1 ≤ op → op ≤ 7 → bit ((s.tblStart a page op).rd (page * 0x1000 + 0xF08)) 31 = true ∧
        ∃ st moves data, sget none (s.tblStart a page op).tblRun page = some (op, st, moves, data))) := by
  refine ⟨fun hrun => ?_, fun hrun hrefill => ⟨fun hop => ?_, fun h1 h7 => ?_⟩⟩
  · have he : s.tblStart a page op = s.tblOverrun page := by
      unfold State.tblStart
      rw [if_neg (by simp [ht]), if_pos hrun]
    rw [he, State.tblOverrun, rd_setF_same, bit_mod32 _ _ (by decide)]
    exact ⟨(bit_setBits_one _ 30 30 true).trans (if_pos rfl), onlyRegs_setF _ _ _ _ (beq_self_eq_true _)⟩
  · have he : s.tblStart a page op = s.tblFinish page op stUnsupported 0 none := by
      unfold State.tblStart
      rw [if_neg (by simp [ht]), if_neg (by simp [hrun]), if_neg (by simpa using hrefill), if_pos hop]
    obtain ⟨hbusy, hst, -, -, -, hbit, hregs, -⟩ := tblFinish_shows s page op stUnsupported 0 none hp (by decide)
    rw [he]
    exact ⟨onlyRegs_proj (hregs rfl) State.tblRun, onlyRegs_proj (hregs rfl) State.tbls, hst, hbusy.trans hrefill,
      fun b => hbit b (by decide) fun h => absurd h.2 (by decide), hregs rfl⟩
  · rw [tblStart_runs s a page op ht hrun hrefill (by omega)]
    obtain ⟨hbusy, hrun'⟩ := tblRuns_shows (s.tblExec a page op).1 page op (s.tblExec a page op).2
    exact ⟨hbusy, _, _, _, hrun'⟩

/-- The write that each OP of TBL_CMD is. -/
theorem exec_tblCmd (s : State) (a : Acc) (page op : Nat) (c : Instr) (hop : op < 16)
    (hc : op = 1 ∧ c = .tblRead a page ∨ op = 2 ∧ c = .tblWrite a page ∨ op = 3 ∧ c = .tblInsert a page ∨ op = 4 ∧ c = .tblDelete a page ∨
      op = 5 ∧ c = .tblMove a page ∨ op = 6 ∧ c = .tblSearch a page ∨ op = 7 ∧ c = .tblFlush a page ∨ c = .unsupported a page op) :
    exec c s = .next (s.tblCmd a page op) := by
  rcases hc with ⟨rfl, rfl⟩ | ⟨rfl, rfl⟩ | ⟨rfl, rfl⟩ | ⟨rfl, rfl⟩ | ⟨rfl, rfl⟩ | ⟨rfl, rfl⟩ | ⟨rfl, rfl⟩ | rfl
  case inr.inr.inr.inr.inr.inr.inr =>
    have he : exec (.unsupported a page op) s = .next (s.tblCmd a page (op % 16)) := rfl
    rw [he, Nat.mod_eq_of_lt hop]
  all_goals rfl

theorem tblDone_eq (s : State) (page op st moves : Nat) (data : Option Nat) (h : sget none s.tblRun page = some (op, st, moves, data))
    (hsoft : s.softWait.contains page = false) :
    s.tblDone page = ({ s with tblRun := sset none s.tblRun page none } : State).tblFinish page op st moves data := by
  have hq : ∀ u : State, (u.tblFinish page op st moves data).softWait = u.softWait := fun u => by
    have h1 := (tblShow_shows u page data).2.2
    rw [tblFinish_eq]
    split
    · exact onlyRegs_proj (h1.wr (P := tblWords page) (by simp only [tblWords, decide_eq_true_eq]; omega)) State.softWait
    · split
      · exact (onlyRegs_proj (onlyRegs_setInt _ _ _) State.softWait).trans
          (onlyRegs_proj (h1.wr (P := tblWords page) (by simp only [tblWords, decide_eq_true_eq]; omega)) State.softWait)
      · exact onlyRegs_proj (h1.wr (P := tblWords page) (by simp only [tblWords, decide_eq_true_eq]; omega)) State.softWait
  unfold State.tblDone
  simp only [h]
  rw [if_neg]
  rw [hq]
  simpa using hsoft

/-- Settles O29: a write of TBL_CMD by its OP, and the registers of a completed command. -/
theorem tableCommandInterface : Obligations.TableCommandInterface := by
  unfold Obligations.TableCommandInterface
  refine ⟨fun s a page op c ht hm hop hc => ?_, fun s page op st moves data _ hp hrun hst hrefill hsoft => ?_⟩
  · have hpage : s.pageOn page = true := by
      have := mayWrite_pageOn hm
      rwa [tblPage_div page (by decide)] at this
    refine ⟨_, (exec_tblCmd s a page op c hop hc).trans (congrArg Host.Outcome.next (onWrite_of s a _ _ hm)), tblStart_shows s a page op ht hpage⟩
  · refine ⟨_, congrArg Host.Outcome.next (tblDone_eq s page op st moves data hrun hsoft), ?_⟩
    obtain ⟨h1, h2, h3, h4⟩ := setTblRun_same s (sset none s.tblRun page none)
    have hrd := setTblRun_rd s (sset none s.tblRun page none)
    generalize hv : ({ s with tblRun := sset none s.tblRun page none } : State) = v at h1 h2 h3 h4 hrd ⊢
    obtain ⟨k1, k2, k3, k4, k5, k6, -, k8⟩ := tblFinish_shows v page op st moves data ((h1 page).trans hp) hst
    have htr : (v.tblFinish page op st moves data).tblRun = sset none s.tblRun page none := (onlyRegs_proj k8 State.tblRun).trans h4
    refine ⟨htr, by rw [k1, h2]; exact hrefill, k2, k3, k4, fun j hn hj => (k5 j hn hj).trans (hrd _), k6, ?_⟩
    rw [htr, hv]
    exact k8

end Sys2Proof.Machine
end

section
/-! SUPPORT. Table entries and their words; the tables of page NHOP (R148, R164, R166). -/
namespace Sys2Proof.Machine

/-! ## Entries -/

theorem tblAt_tkey (s : State) (pg t i : Nat) : s.tblAt (tkey pg t i) = s.tbl pg t i := rfl

theorem tblAt_setTbl_other (s : State) (pg t i v k : Nat) (h : k ≠ tkey pg t i) : (s.setTbl pg t i v).tblAt k = s.tblAt k := sget_sset_other _ _ _ _ _ _ h

theorem tblAt_of_tbls {s t : State} (h : t.tbls = s.tbls) (hp : t.part = s.part) (k : Nat) : t.tblAt k = s.tblAt k := by rw [State.tblAt, State.tblAt, h, hp]

theorem tbl_of_tbls {s t : State} (h : t.tbls = s.tbls) (hp : t.part = s.part) (pg m i : Nat) : t.tbl pg m i = s.tbl pg m i := tblAt_of_tbls h hp _

theorem State.quiet.tblAt {s t : State} (h : s.quiet t) (k : Nat) : t.tblAt k = s.tblAt k := tblAt_of_tbls (h.proj State.tbls) (h.proj State.part) k

theorem State.quiet.tbl {s t : State} (h : s.quiet t) (pg m i : Nat) : t.tbl pg m i = s.tbl pg m i := h.tblAt _

namespace State.quiet
variable {s t : State}

theorem setMark (h : s.quiet t) {pg m a : Nat} {e : WordErr} : s.quiet (t.setMark pg m a e) := h.trans rfl

theorem wroteWord (h : s.quiet t) {pg mem addr : Nat} : s.quiet (t.wroteWord pg mem addr) := .ite h.setMark.draw.wr h.setMark

theorem wroteWords (h : s.quiet t) {pg mem addr n : Nat} : s.quiet (t.wroteWords pg mem addr n) := by
  induction n generalizing t addr with
  | zero => exact h
  | succ n ih => exact ih h.wroteWord

end State.quiet

/-- An entry written whole reads as written, and no other entry changes. -/
theorem putEntry_shows (s : State) (pg t i n v : Nat) : (s.putEntry pg t i n v).tbl pg t i = v ∧
    ∀ k, k ≠ tkey pg t i → (s.putEntry pg t i n v).tblAt k = s.tblAt k := by
  have h := (State.quiet.refl (s.setTbl pg t i v)).wroteWords (pg := pg) (mem := t) (addr := i * n) (n := n)
  refine ⟨?_, fun k hk => ?_⟩
  · rw [State.putEntry, h.tbl, tbl_setTbl_same]
  · rw [State.putEntry, h.tblAt, tblAt_setTbl_other _ _ _ _ _ _ hk]

/-- A row without errors is read without effect (R305). -/
theorem readWords_clean (s : State) (pg cls mem addr n : Nat) (h : s.cleanRow pg mem addr n) : s.readWords pg cls mem addr n = (s, true) := by
  induction n generalizing addr with
  | zero => rfl
  | succ n ih =>
    have h0 : (s.mark pg mem addr).kind = 0 := h 0 (Nat.succ_pos n)
    have hw : s.readWord pg cls mem addr = (s, true) := by
      unfold State.readWord State.meetErr
      have hk : ∀ x, ({ s.mark pg mem addr with half := x } : WordErr).kind = 0 := fun _ => h0
      simp only []
      rw [if_pos (by split <;> exact h0)]
      simp [h0]
    have hn := ih (addr + 1) fun j hj => by
      have := h (j + 1) (Nat.succ_lt_succ hj)
      rwa [show addr + (j + 1) = addr + 1 + j by omega] at this
    unfold State.readWords
    simp only [hw, hn, Bool.and_self]

/-! ## What a command of a page leaves -/

theorem tblAnswer_runs (s : State) (page op : Nat) (ans : TblAns) : (s.tblRuns page op ans).tblAnswer page = some (ans.st, ans.data) := by
  rw [State.tblAnswer, (tblRuns_shows s page op ans).2]
  rfl

theorem tblRuns_tbls (s : State) (page op : Nat) (ans : TblAns) : (s.tblRuns page op ans).tbls = s.tbls ∧ (s.tblRuns page op ans).part = s.part :=
  ⟨State.setF_tbls _ _ _ _, State.setF_part _ _ _ _⟩

theorem tblRuns_tblAt (s : State) (page op : Nat) (ans : TblAns) (k : Nat) : (s.tblRuns page op ans).tblAt k = s.tblAt k :=
  tblAt_of_tbls (tblRuns_tbls s page op ans).1 (tblRuns_tbls s page op ans).2 k

theorem tblRuns_tbl (s : State) (page op : Nat) (ans : TblAns) (pg m i : Nat) : (s.tblRuns page op ans).tbl pg m i = s.tbl pg m i := tblRuns_tblAt s page op ans _

theorem setRun_onlyRegs (s : State) (m : Sparse (Option (Nat × Nat × Nat × Option Nat))) (a : Nat) :
    State.onlyRegs (fun x => x == a) { s with tblRun := (({ s with tblRun := m } : State).setF a ⟨31, 1⟩ 1).tblRun }
      (({ s with tblRun := m } : State).setF a ⟨31, 1⟩ 1) := by
  rw [State.setF_tblRun]
  exact onlyRegs_setF _ _ _ _ (beq_self_eq_true a)

theorem tblRuns_onlyRegs (s : State) (page op : Nat) (ans : TblAns) :
    State.onlyRegs (fun x => x == page * 0x1000 + 0xF08) { s with tblRun := (s.tblRuns page op ans).tblRun } (s.tblRuns page op ans) := by
  rw [State.tblRuns]
  exact setRun_onlyRegs s (sset none s.tblRun page (some (op, ans.st, ans.moves, ans.data))) _

/-- A command of an idle page acts on its table and runs. -/
theorem tblCmd_runs (s : State) (a : Acc) (page op : Nat) (ht : hasTables page = true) (hm : s.mayWrite a (page * 0x1000 + 0xF00) = true)
    (hrun : shas s.tblRun page = false) (hrefill : s.refill.contains page = false) (hop : ¬(op = 0 ∨ 7 < op)) :
    s.tblCmd a page op = (s.tblExec a page op).1.tblRuns page op (s.tblExec a page op).2 := by
  rw [State.tblCmd, onWrite_of s a _ _ hm, tblStart_runs s a page op ht hrun hrefill hop]

/-! ## The tables of NHOP -/

theorem tblExec_nhop (s : State) (a : Acc) (op : Nat) :
    s.tblExec a 0x0B0 op = s.nhopCmd op (s.rd (Pg.NHOP + 0xF04)) (s.tblData 0x0B0) (s.at a.clk) := by
  unfold State.tblExec
  simp only []
  simp only [show (0x0B0 : Nat) < 0x1000 by decide, if_true]
  rfl

section Nhop
variable (s : State) (addr data clk : Nat)

theorem nhopCmd_badAddr {op : Nat} (hop : op = 1 ∨ op = 2 ∨ op = 4) (h : nhSize (bits addr 20 3) ≤ addr % 2 ^ 18) :
    s.nhopCmd op addr data clk = (s, ans stBadAddr) := by
  unfold State.nhopCmd
  rw [if_neg (by omega), if_pos h]

theorem nhopCmd_read (h : ¬ nhSize (bits addr 20 3) ≤ addr % 2 ^ 18)
    (hclean : s.cleanRow Pg.NHOP (bits addr 20 3) (addr % 2 ^ 18 * wordsOf (nhBits (bits addr 20 3))) (wordsOf (nhBits (bits addr 20 3)))) :
    s.nhopCmd 1 addr data clk = (s, { st := stOk, data := some (s.tbl Pg.NHOP (bits addr 20 3) (addr % 2 ^ 18)) }) := by
  unfold State.nhopCmd
  rw [if_neg (by omega), if_neg h, if_pos rfl]
  simp only [readWords_clean s _ 3 _ _ _ hclean, if_true]

theorem nhopCmd_badData (h : ¬ nhSize (bits addr 20 3) ≤ addr % 2 ^ 18) (hbad : nhDataOk (bits addr 20 3) (data % 2 ^ nhBits (bits addr 20 3)) = false) :
    s.nhopCmd 2 addr data clk = (s, ans stBadData) := by
  unfold State.nhopCmd
  rw [if_neg (by omega), if_neg h, if_neg (by decide)]
  simp only []
  rw [if_pos (by simp [hbad])]

theorem nhopCmd_write (h : ¬ nhSize (bits addr 20 3) ≤ addr % 2 ^ 18) (hok : nhDataOk (bits addr 20 3) (data % 2 ^ nhBits (bits addr 20 3)) = true)
    (ht : bits addr 20 3 < 6) : s.nhopCmd 2 addr data clk =
      (s.putEntry Pg.NHOP (bits addr 20 3) (addr % 2 ^ 18) (wordsOf (nhBits (bits addr 20 3))) (data % 2 ^ nhBits (bits addr 20 3)), ans stOk) := by
  unfold State.nhopCmd
  rw [if_neg (by omega), if_neg h, if_neg (by decide)]
  simp only []
  rw [if_neg (by simp [hok]), if_neg (show ¬ bits addr 20 3 = 6 by omega), if_neg (by decide)]

theorem nhopCmd_delete (h : ¬ nhSize (bits addr 20 3) ≤ addr % 2 ^ 18) (ht : bits addr 20 3 < 6) : s.nhopCmd 4 addr data clk =
    (s.putEntry Pg.NHOP (bits addr 20 3) (addr % 2 ^ 18) (wordsOf (nhBits (bits addr 20 3)))
      (nhDeleted (bits addr 20 3) (s.tbl Pg.NHOP (bits addr 20 3) (addr % 2 ^ 18))), ans stOk) := by
  unfold State.nhopCmd
  rw [if_neg (by omega), if_neg h, if_neg (by decide)]
  simp only []
  rw [if_neg (by simp), if_neg (show ¬ bits addr 20 3 = 6 by omega), if_pos trivial]

end Nhop

theorem bit_clrBit (v i j : Nat) : bit (clrBit v i) j = if j = i then false else bit v j := bit_setBits_one v i j false

theorem nhDeleted_valid {t : Nat} (ht : t = 0 ∨ t = 1 ∨ t = 3) (e : Nat) : nhDeleted t e = clrBit e 0 := by
  rcases ht with rfl | rfl | rfl <;> rfl

/-- Settles O30: each command of page NHOP by the lemma of its outcome. -/
theorem nextHopTables : Obligations.NextHopTables := by
  unfold Obligations.NextHopTables
  intro s a tb i hm hrun hrefill htb hi hlt
  have hcmd : ∀ op, ¬(op = 0 ∨ 7 < op) → s.tblCmd a 0x0B0 op =
      (s.nhopCmd op (s.rd (Pg.NHOP + 0xF04)) (s.tblData 0x0B0) (s.at a.clk)).1.tblRuns 0x0B0 op
        (s.nhopCmd op (s.rd (Pg.NHOP + 0xF04)) (s.tblData 0x0B0) (s.at a.clk)).2 := fun op hop => by
    rw [tblCmd_runs s a 0x0B0 op (by decide) hm hrun hrefill hop, tblExec_nhop]
  generalize s.rd (Pg.NHOP + 0xF04) = addr at htb hi hcmd
  subst htb hi
  refine ⟨fun hsz c hc => ?_, fun hsz hclean => ?_, fun hsz hok => ?_, fun hsz hbad => ?_, fun hsz ht => ?_⟩
  · have hbad : ∀ op, op = 1 ∨ op = 2 ∨ op = 4 → (s.tblCmd a 0x0B0 op).tblAnswer 0x0B0 = some (0x08, none) ∧ (s.tblCmd a 0x0B0 op).tbls = s.tbls := fun op hop => by
      rw [hcmd op (by omega), nhopCmd_badAddr s _ _ _ hop hsz, tblAnswer_runs]
      exact ⟨rfl, (tblRuns_tbls _ _ _ _).1⟩
    rcases hc with rfl | rfl | rfl
    · exact ⟨_, rfl, hbad 1 (by decide)⟩
    · exact ⟨_, rfl, hbad 2 (by decide)⟩
    · exact ⟨_, rfl, hbad 4 (by decide)⟩
  · refine ⟨_, congrArg Host.Outcome.next (hcmd 1 (by decide)), ?_⟩
    rw [nhopCmd_read s _ _ _ (by omega) hclean, tblAnswer_runs]
    exact ⟨rfl, tblRuns_onlyRegs _ _ _ _⟩
  · refine ⟨_, congrArg Host.Outcome.next (hcmd 2 (by decide)), ?_⟩
    rw [nhopCmd_write s _ _ _ (by omega) hok hlt, tblAnswer_runs]
    obtain ⟨h1, h2⟩ := putEntry_shows s Pg.NHOP (bits addr 20 3) (addr % 2 ^ 18) (wordsOf (nhBits (bits addr 20 3)))
      (s.tblData 0x0B0 % 2 ^ nhBits (bits addr 20 3))
    exact ⟨rfl, (tblRuns_tbl _ _ _ _ _ _ _).trans h1, fun k hk => (tblRuns_tblAt _ _ _ _ _).trans (h2 k hk)⟩
  · refine ⟨_, congrArg Host.Outcome.next (hcmd 2 (by decide)), ?_⟩
    rw [nhopCmd_badData s _ _ _ (by omega) hbad, tblAnswer_runs]
    exact ⟨rfl, (tblRuns_tbls _ _ _ _).1⟩
  · refine ⟨_, congrArg Host.Outcome.next (hcmd 4 (by decide)), ?_⟩
    rw [nhopCmd_delete s _ _ _ (by omega) hlt, tblAnswer_runs, tblRuns_tbl]
    obtain ⟨h1, h2⟩ := putEntry_shows s Pg.NHOP (bits addr 20 3) (addr % 2 ^ 18) (wordsOf (nhBits (bits addr 20 3)))
      (nhDeleted (bits addr 20 3) (s.tbl Pg.NHOP (bits addr 20 3) (addr % 2 ^ 18)))
    rw [h1]
    rw [nhDeleted_valid ht] at h2 ⊢
    exact ⟨rfl, (bit_clrBit _ _ _).trans (if_pos rfl), fun b hb => (bit_clrBit _ _ _).trans (if_neg hb),
      fun k hk => (tblRuns_tblAt _ _ _ _ _).trans (h2 k hk)⟩

end Sys2Proof.Machine
end

section
/-! SUPPORT. Entries of the ACL TCAM and of exact-match tables: what a write, a free and a move leave (R124, R158, R164). -/
namespace Sys2Proof.Machine

/-- A listed value stands in the list. -/
theorem sget_mem {α : Type} (d : α) (m : Sparse α) (k : Nat) : sget d m k = d ∨ (k, sget d m k) ∈ m := by
  induction m with
  | nil => exact .inl rfl
  | cons e m ih =>
    obtain ⟨k', v⟩ := e
    by_cases hk : k' = k
    · right
      rw [sget, if_pos hk, hk]
      exact List.mem_cons_self
    · rw [sget, if_neg hk]
      exact ih.imp_right (List.mem_cons_of_mem _)

theorem rd_wroteWord (s : State) (pg mem addr x : Nat) (h : x ≠ pg + 0x03C) : (s.wroteWord pg mem addr).rd x = s.rd x := by
  have hd : ∀ e, ((s.setMark pg mem addr e).draw).rd x = s.rd x := fun _ => rfl
  have hm : ∀ e, (s.setMark pg mem addr e).rd x = s.rd x := fun _ => rfl
  unfold State.wroteWord
  simp only []
  split
  · rw [rd_wr_other _ _ _ _ h, hd]
  · rw [hm]

theorem rd_wroteWords (s : State) (pg mem addr n x : Nat) (h : x ≠ pg + 0x03C) : (s.wroteWords pg mem addr n).rd x = s.rd x := by
  induction n generalizing s addr with
  | zero => rfl
  | succ n ih => rw [State.wroteWords, ih, rd_wroteWord _ _ _ _ _ h]

theorem rd_setTbl (s : State) (pg t i v x : Nat) : (s.setTbl pg t i v).rd x = s.rd x := rfl

/-! ## ACL entries (R124) -/

theorem acl_key (i : Nat) : tkey Pg.ACL 0 i = 9792 * 2 ^ 32 + i := rfl

/-- An ACL entry not listed is not VALID. -/
theorem tblReset_acl (p : Part) {i : Nat} (hi : i < 131072) : tblReset p (tkey Pg.ACL 0 i) = 0 := by
  have hdiv : tkey Pg.ACL 0 i / 2 ^ 32 = 9792 := by rw [acl_key]; omega
  simp only [tblReset, hdiv]
  simp [Pg.DMA, Pg.ADM, Pg.EQS, Pg.FCELL, Pg.STEER]

theorem acl_eq (s : State) (i : Nat) : s.acl i = s.tblAt (tkey Pg.ACL 0 i) := rfl

theorem aclUsed_quiet (s : State) (i : Nat) (up : Bool) : s.quiet (s.aclUsed i up) := (State.quiet.refl s).setF

theorem aclUsed_rd (s : State) (i : Nat) (up : Bool) {x : Nat} (h0 : x ≠ Rg.ACL_USED0) (h1 : x ≠ Rg.ACL_USED1) : (s.aclUsed i up).rd x = s.rd x := by
  unfold State.aclUsed
  exact rd_setF_other _ _ _ _ _ (by split <;> assumption)

theorem aclPut_shows (s : State) (i v : Nat) : (s.aclPut i v).acl i = v ∧ (∀ k, k ≠ tkey Pg.ACL 0 i → (s.aclPut i v).tblAt k = s.tblAt k) ∧
    ∀ x, x ≠ Pg.ACL + 0x03C → (s.aclPut i v).rd x = s.rd x := by
  have h := (State.quiet.refl (s.setTbl Pg.ACL 0 i v)).wroteWords (pg := Pg.ACL) (mem := i / 4096) (addr := i % 4096 * 8) (n := 6)
  refine ⟨?_, fun k hk => ?_, fun x hx => ?_⟩
  · rw [acl_eq, State.aclPut, h.tblAt, tblAt_tkey, tbl_setTbl_same]
  · rw [State.aclPut, h.tblAt, tblAt_setTbl_other _ _ _ _ _ _ hk]
  · rw [State.aclPut, rd_wroteWords _ _ _ _ _ _ hx, rd_setTbl]

theorem aclFree_shows (s : State) (i : Nat) : (s.aclFree i).acl i = 0 ∧ (∀ k, k ≠ tkey Pg.ACL 0 i → (s.aclFree i).tblAt k = s.tblAt k) ∧
    (s.aclFree i).versioned = s.versioned := by
  obtain ⟨h1, h2, h3⟩ := aclPut_shows s i 0
  have hq := aclUsed_quiet (s.aclPut i 0) i false
  refine ⟨?_, fun k hk => ?_, ?_⟩
  · rw [State.aclFree, acl_eq, hq.tblAt, ← acl_eq, h1]
  · rw [State.aclFree, hq.tblAt, h2 k hk]
  · have hrd : (s.aclFree i).rd Rg.CMT_CTRL = s.rd Rg.CMT_CTRL := by
      rw [State.aclFree, aclUsed_rd _ _ _ (by decide) (by decide), h3 _ (by decide)]
    rw [State.versioned, State.versioned, fb_of_rd hrd]

theorem aclValid_zero : aclValid 0 = false := by
  rw [aclValid, bit, Nat.zero_div]
  rfl

/-- An entry of the listing, and one that is VALID is listed. -/
theorem mem_aclAll {s : State} {i e : Nat} (h : (i, e) ∈ s.aclAll) : i < 131072 ∧ aclValid e = true := by
  simp only [State.aclAll, List.mem_filter, List.mem_map, Bool.and_eq_true, decide_eq_true_eq, Prod.mk.injEq] at h
  obtain ⟨⟨p, ⟨-, hlo, hhi⟩, hp, -⟩, hv⟩ := h
  exact ⟨by omega, hv⟩

theorem acl_listed (s : State) {i : Nat} (hi : i < 131072) (hv : aclValid (s.acl i) = true) : (i, s.acl i) ∈ s.aclAll := by
  have hmem : (tkey Pg.ACL 0 i, s.acl i) ∈ s.tbls := by
    rcases sget_mem (tblReset s.part (tkey Pg.ACL 0 i)) s.tbls (tkey Pg.ACL 0 i) with h | h
    · have h0 : s.acl i = 0 := h.trans (tblReset_acl _ hi)
      rw [h0, aclValid_zero] at hv
      exact absurd hv (by decide)
    · exact h
  simp only [State.aclAll, List.mem_filter, List.mem_map, Bool.and_eq_true, decide_eq_true_eq, Prod.mk.injEq]
  refine ⟨⟨_, ⟨hmem, ?_, ?_⟩, ?_, rfl⟩, hv⟩
  · simp only [acl_key]; omega
  · simp only [acl_key]; omega
  · simp only [acl_key]; omega

/-- Entries deleted in turn, in direct mode. -/
theorem aclDelete_fold (l : List Nat) (s : State) (hv : s.versioned = false) :
    (∀ x, (l.foldl (fun t i => t.aclDelete i) s).acl x = if x ∈ l then 0 else s.acl x) ∧
    (∀ k, (∀ i ∈ l, k ≠ tkey Pg.ACL 0 i) → (l.foldl (fun t i => t.aclDelete i) s).tblAt k = s.tblAt k) := by
  induction l generalizing s with
  | nil => exact ⟨fun x => by simp, fun _ _ => rfl⟩
  | cons i l ih =>
    have hdel : s.aclDelete i = s.aclFree i := by
      unfold State.aclDelete
      rw [if_pos (by simp [hv])]
    obtain ⟨h1, h2, h3⟩ := aclFree_shows s i
    obtain ⟨k1, k2⟩ := ih (s.aclFree i) (h3.trans hv)
    refine ⟨fun x => ?_, fun k hk => ?_⟩
    · rw [List.foldl_cons, hdel, k1 x]
      by_cases hx : x ∈ l
      · rw [if_pos hx, if_pos (List.mem_cons_of_mem _ hx)]
      · rw [if_neg hx]
        by_cases hxi : x = i
        · rw [hxi, h1, if_pos List.mem_cons_self]
        · rw [if_neg (by simp [hxi, hx]), acl_eq, acl_eq, h2 _ (by rw [acl_key, acl_key]; omega)]
    · rw [List.foldl_cons, hdel, k2 k fun j hj => hk j (List.mem_cons_of_mem _ hj), h2 k (hk i List.mem_cons_self)]

/-! ## Entries of SRAM tables (R158, R159) -/

/-- The SRAM word of an index, by its key among the tables. -/
def ExmCfg.wordKey (c : ExmCfg) (i : Nat) : Nat := tkey Pg.EXM 0 (196608 * (c.sramAt i).1 + (c.sramAt i).2)

/-- The index of a candidate slot: its word within the bucket. -/
def ExmCfg.inBucket (c : ExmCfg) (i : Nat) : Prop := i % 4 + c.width ≤ 4

theorem index_inBucket (c : ExmCfg) (w b : Nat) {k : Nat} (hk : k < c.perBucket) : c.inBucket (c.index w b k) := by
  have hmul : (k + 1) * c.width ≤ 4 := (Nat.mul_le_mul_right _ hk).trans (Nat.div_mul_le_self 4 c.width)
  have hpos : 0 < c.width := by
    rcases Nat.eq_zero_or_pos c.width with h | h
    · rw [ExmCfg.perBucket, h] at hk
      exact absurd hk (by simp)
    · exact h
  rw [Nat.succ_mul] at hmul
  unfold ExmCfg.inBucket ExmCfg.index
  omega

/-- The words of one entry lie in one bucket, one after another. -/
theorem wordKey_add (c : ExmCfg) {i j : Nat} (hi : c.inBucket i) (hj : j < c.width) : c.wordKey (i + j) = c.wordKey i + j := by
  unfold ExmCfg.inBucket at hi
  have h4 : (i + j) / 4 = i / 4 := by omega
  have hm : (i + j) % 4 = i % 4 + j := by omega
  simp only [ExmCfg.wordKey, ExmCfg.sramAt, h4, hm, tkey]
  omega

/-- The raw entry of an SRAM table as the sum of its words. -/
theorem exmRaw_sram (s : State) (c : ExmCfg) (i : Nat) (hd : c.deep = false) :
    s.exmRaw c i = (List.range c.width).foldl (fun a j => a + 2 ^ (128 * j) * s.tblAt (c.wordKey (i + j))) 0 := by
  unfold State.exmRaw
  simp only [hd, Bool.false_eq_true, if_false]
  rfl

/-- One word of an entry written. -/
def State.exmWord (c : ExmCfg) (i v : Nat) (t : State) (j : Nat) : State :=
  (t.setTbl Pg.EXM 0 (196608 * (c.sramAt (i + j)).1 + (c.sramAt (i + j)).2) (bits v (128 * j) 128)).wroteWord Pg.EXM (c.sramAt (i + j)).1 (c.sramAt (i + j)).2

theorem exmPut_sram (s : State) (c : ExmCfg) (i v : Nat) (hd : c.deep = false) : s.exmPut c i v = (List.range c.width).foldl (State.exmWord c i v) s := by
  unfold State.exmPut
  rw [if_neg (by simp [hd])]
  rfl

theorem exmWord_shows (c : ExmCfg) (i v : Nat) (t : State) (j : Nat) : (State.exmWord c i v t j).tblAt (c.wordKey (i + j)) = bits v (128 * j) 128 ∧
    (∀ k, k ≠ c.wordKey (i + j) → (State.exmWord c i v t j).tblAt k = t.tblAt k) ∧
    ∀ x, x ≠ Pg.EXM + 0x03C → (State.exmWord c i v t j).rd x = t.rd x := by
  have h := (State.quiet.refl (t.setTbl Pg.EXM 0 (196608 * (c.sramAt (i + j)).1 + (c.sramAt (i + j)).2) (bits v (128 * j) 128))).wroteWord
    (pg := Pg.EXM) (mem := (c.sramAt (i + j)).1) (addr := (c.sramAt (i + j)).2)
  refine ⟨?_, fun k hk => ?_, fun x hx => ?_⟩
  · rw [State.exmWord, h.tblAt, ExmCfg.wordKey, tblAt_tkey, tbl_setTbl_same]
  · rw [State.exmWord, h.tblAt, tblAt_setTbl_other _ _ _ _ _ _ hk]
  · rw [State.exmWord, rd_wroteWord _ _ _ _ _ hx, rd_setTbl]

/-- The words of an entry written in turn. -/
theorem exmWord_fold (c : ExmCfg) (i v : Nat) (l : List Nat) (hl : l.Nodup) (hw : ∀ j ∈ l, c.wordKey (i + j) = c.wordKey i + j) (s : State) :
    (∀ j ∈ l, (l.foldl (State.exmWord c i v) s).tblAt (c.wordKey (i + j)) = bits v (128 * j) 128) ∧
    (∀ k, (∀ j ∈ l, k ≠ c.wordKey (i + j)) → (l.foldl (State.exmWord c i v) s).tblAt k = s.tblAt k) ∧
    ∀ x, x ≠ Pg.EXM + 0x03C → (l.foldl (State.exmWord c i v) s).rd x = s.rd x := by
  induction l generalizing s with
  | nil => exact ⟨fun _ h => (List.not_mem_nil h).elim, fun _ _ => rfl, fun _ _ => rfl⟩
  | cons m l ih =>
    obtain ⟨hm, hl'⟩ := List.nodup_cons.1 hl
    obtain ⟨h1, h2, h3⟩ := ih hl' (fun j hj => hw j (List.mem_cons_of_mem _ hj)) (State.exmWord c i v s m)
    obtain ⟨w1, w2, w3⟩ := exmWord_shows c i v s m
    refine ⟨fun j hj => ?_, fun k hk => ?_, fun x hx => (h3 x hx).trans (w3 x hx)⟩
    · rw [List.foldl_cons]
      by_cases hjl : j ∈ l
      · exact h1 j hjl
      · obtain rfl : j = m := (List.mem_cons.1 hj).resolve_right hjl
        refine (h2 _ fun n hn he => ?_).trans w1
        rw [hw j hj, hw n (List.mem_cons_of_mem _ hn)] at he
        exact hjl (by rwa [show j = n by omega])
    · rw [List.foldl_cons, h2 k fun j hj => hk j (List.mem_cons_of_mem _ hj), w2 k (hk m List.mem_cons_self)]

/-- A number below 2^(128·n) is the sum of its words. -/
theorem sum_words (v n : Nat) : (List.range n).foldl (fun a j => a + 2 ^ (128 * j) * bits v (128 * j) 128) 0 = v % 2 ^ (128 * n) := by
  induction n with
  | zero => simp [Nat.mod_one]
  | succ n ih =>
    rw [List.range_succ, List.foldl_append, List.foldl_cons, List.foldl_nil, ih, bits, Nat.mul_succ, Nat.pow_add, Nat.mod_mul]

theorem foldl_sum_congr {f g : Nat → Nat} (l : List Nat) (h : ∀ j ∈ l, f j = g j) (a : Nat) :
    l.foldl (fun a j => a + 2 ^ (128 * j) * f j) a = l.foldl (fun a j => a + 2 ^ (128 * j) * g j) a := by
  induction l generalizing a with
  | nil => rfl
  | cons j l ih => rw [List.foldl_cons, List.foldl_cons, h j List.mem_cons_self, ih fun k hk => h k (List.mem_cons_of_mem _ hk)]

/-- An entry of an SRAM table written reads as written (R158, R164). -/
theorem exmPut_shows (s : State) (c : ExmCfg) (i v : Nat) (hd : c.deep = false) (hi : c.inBucket i) :
    (s.exmPut c i v).exmRaw c i = v % 2 ^ (128 * c.width) ∧ (∀ x, x ≠ Pg.EXM + 0x03C → (s.exmPut c i v).rd x = s.rd x) := by
  obtain ⟨h1, -, h3⟩ := exmWord_fold c i v (List.range c.width) List.nodup_range (fun j hj => wordKey_add c hi (List.mem_range.1 hj)) s
  rw [exmPut_sram s c i v hd]
  exact ⟨(exmRaw_sram _ c i hd).trans ((foldl_sum_congr _ h1 0).trans (sum_words v c.width)), h3⟩

theorem exmRaw_of_tbls {s t : State} (c : ExmCfg) (i : Nat) (hd : c.deep = false) (h : ∀ k, t.tblAt k = s.tblAt k) : t.exmRaw c i = s.exmRaw c i := by
  rw [exmRaw_sram _ c i hd, exmRaw_sram _ c i hd]
  exact foldl_sum_congr _ (fun j _ => h _) 0

/-- A slot that a lookup hits is a candidate of its key (R160). -/
theorem exmFind_inBucket {s : State} {c : ExmCfg} {r key i : Nat} (h : s.exmFind c r key = some i) : c.inBucket i := by
  unfold State.exmFind at h
  split at h
  · cases h
  · have hm := List.mem_of_find?_eq_some h
    simp only [ExmCfg.candidates, List.mem_flatMap, List.mem_map, List.mem_range] at hm
    obtain ⟨w, -, k, hk, rfl⟩ := hm
    exact index_inBucket c _ _ hk

theorem freeSlot_inBucket {s : State} {c : ExmCfg} {w b i : Nat} (h : s.freeSlot c w b = some i) : c.inBucket i := by
  have hm : i ∈ (List.range c.perBucket).map (c.index w b) := by
    unfold State.freeSlot at h
    rcases Option.or_eq_some_iff.1 h with h | ⟨-, h⟩ <;> exact List.mem_of_find?_eq_some h
  simp only [List.mem_map, List.mem_range] at hm
  obtain ⟨k, hk, rfl⟩ := hm
  exact index_inBucket c _ _ hk

end Sys2Proof.Machine
end

section
/-! SUPPORT. MOVE, SEARCH and FLUSH on the ACL TCAM, INSERT and DELETE on exact-match tables (R124, R126, R162, R164). -/
namespace Sys2Proof.Machine

theorem tblExec_acl (s : State) (a : Acc) (op : Nat) : s.tblExec a 0x099 op = s.aclCmd op (s.rd (Pg.ACL + 0xF04)) (s.tblData 0x099) := by
  unfold State.tblExec
  simp only []
  simp only [show (0x099 : Nat) < 0x1000 by decide, if_true]
  rfl

theorem tblExec_exm (s : State) (a : Acc) (op : Nat) : s.tblExec a 0x0A0 op = s.exmCmd op (s.rd (Pg.EXM + 0xF04)) (s.tblData 0x0A0) := by
  unfold State.tblExec
  simp only []
  simp only [show (0x0A0 : Nat) < 0x1000 by decide, if_true]
  rfl

/-! ## ACL -/

section Acl
variable (s : State) (addr data : Nat)

theorem aclCmd_move (hv : s.versioned = false) (hi : s.domOn 0 (26 + addr % 2 ^ 17 / 65536) = true) (hj : s.domOn 0 (26 + data % 2 ^ 17 / 65536) = true) :
    s.aclCmd 5 addr data = s.aclMove (addr % 2 ^ 17) (data % 2 ^ 17) := by
  unfold State.aclCmd
  rw [if_neg (by decide), if_neg (by simp [hv]), if_neg (by rw [hi]; simp)]
  simp only [hj, if_true]

theorem aclCmd_search : s.aclCmd 6 addr data = s.aclCmdSearch (bits addr 17 4) data := by
  unfold State.aclCmd
  rw [if_neg (by decide), if_neg (by simp), if_neg (by simp)]
  rfl

theorem aclCmd_flush (hv : s.versioned = false) : s.aclCmd 7 addr data =
    (((s.aclAll.filter fun e => bit data (e.1 / 4096)).map (·.1)).foldl (fun t i => t.aclDelete i) s, ans stOk) := by
  have hvis : ∀ r m, s.visible r m = true := fun r m => by simp [State.visible, hv]
  unfold State.aclCmd
  rw [if_neg (by decide), if_neg (by simp [hv]), if_neg (by simp)]
  simp only [State.aclFlush, hv, hvis, Bool.and_true, Bool.false_and, Bool.false_eq_true, if_false]

theorem aclMove_free {i j : Nat} (hi : aclValid (s.acl i) = true) (hj : aclValid (s.acl j) = false) (hlt : j < 131072) :
    s.aclMove i j = ((((s.aclUsed j true).aclPut j (s.acl i)).aclFree i).classLogMove 0 i j, { st := stOk, moves := 1 }) := by
  unfold State.aclMove
  rw [if_neg (by simp [hi]), if_neg (by omega), if_neg (by simp [hj])]

theorem aclMove_occupied {i j : Nat} (hi : aclValid (s.acl i) = true) (hj : aclValid (s.acl j) = true) (hlt : j < 131072) :
    s.aclMove i j = (s, ans stOccupied) := by
  unfold State.aclMove
  rw [if_neg (by simp [hi]), if_neg (by omega), if_pos hj]

theorem aclMove_absent {i j : Nat} (hi : aclValid (s.acl i) = false) : s.aclMove i j = (s, ans stNotFound) := by
  unfold State.aclMove
  rw [if_pos (by simp [hi])]

theorem tblAt_classLogMove (kind i j k : Nat) : (s.classLogMove kind i j).tblAt k = s.tblAt k := rfl

/-- A moved entry stands at its new index, its old one is free, and no other entry changes. -/
theorem aclMoved_shows {i j : Nat} (hne : j ≠ i) :
    ((((s.aclUsed j true).aclPut j (s.acl i)).aclFree i).classLogMove 0 i j).acl j = s.acl i ∧
    ((((s.aclUsed j true).aclPut j (s.acl i)).aclFree i).classLogMove 0 i j).acl i = 0 ∧
    ∀ k, k ≠ tkey Pg.ACL 0 i → k ≠ tkey Pg.ACL 0 j → ((((s.aclUsed j true).aclPut j (s.acl i)).aclFree i).classLogMove 0 i j).tblAt k = s.tblAt k := by
  obtain ⟨p1, p2, -⟩ := aclPut_shows (s.aclUsed j true) j (s.acl i)
  obtain ⟨f1, f2, -⟩ := aclFree_shows ((s.aclUsed j true).aclPut j (s.acl i)) i
  refine ⟨?_, ?_, fun k hi hj => ?_⟩
  · rw [acl_eq, tblAt_classLogMove, f2 _ (by rw [acl_key, acl_key]; omega), ← acl_eq, p1]
  · rw [acl_eq, tblAt_classLogMove, ← acl_eq, f1]
  · rw [tblAt_classLogMove, f2 k hi, p2 k hj, (aclUsed_quiet s j true).tblAt]

/-- A flush frees every entry of the named banks and leaves the others. -/
theorem aclFlushed_shows (hv : s.versioned = false) :
    (∀ x, x < 131072 → aclValid ((((s.aclAll.filter fun e => bit data (e.1 / 4096)).map (·.1)).foldl (fun t i => t.aclDelete i) s).acl x) =
      (aclValid (s.acl x) && !bit data (x / 4096))) ∧
    ∀ k, (k < tkey Pg.ACL 0 0 ∨ tkey Pg.ACL 0 131072 ≤ k) →
      (((s.aclAll.filter fun e => bit data (e.1 / 4096)).map (·.1)).foldl (fun t i => t.aclDelete i) s).tblAt k = s.tblAt k := by
  have hmem : ∀ x, x ∈ (s.aclAll.filter fun e => bit data (e.1 / 4096)).map (·.1) → x < 131072 ∧ bit data (x / 4096) = true := fun x hx => by
    obtain ⟨⟨i, e⟩, he, rfl⟩ := List.mem_map.1 hx
    obtain ⟨hall, hbank⟩ := List.mem_filter.1 he
    exact ⟨(mem_aclAll hall).1, hbank⟩
  have hlisted : ∀ x, x < 131072 → aclValid (s.acl x) = true → bit data (x / 4096) = true →
      x ∈ (s.aclAll.filter fun e => bit data (e.1 / 4096)).map (·.1) := fun x hx hval hb =>
    List.mem_map.2 ⟨(x, s.acl x), List.mem_filter.2 ⟨acl_listed s hx hval, hb⟩, rfl⟩
  generalize (s.aclAll.filter fun e => bit data (e.1 / 4096)).map (·.1) = l at hmem hlisted ⊢
  obtain ⟨h1, h2⟩ := aclDelete_fold l s hv
  refine ⟨fun x hx => ?_, fun k hk => h2 k fun i hi => ?_⟩
  · rw [h1 x]
    by_cases hl : x ∈ l
    · rw [if_pos hl, aclValid_zero, (hmem x hl).2, Bool.not_true, Bool.and_false]
    · rw [if_neg hl]
      cases hval : aclValid (s.acl x) with
      | false => rfl
      | true =>
        cases hb : bit data (x / 4096) with
        | false => rfl
        | true => exact absurd (hlisted x hx hval hb) hl
  · have := (hmem i hi).1
    rw [acl_key] at hk ⊢
    rw [acl_key] at hk
    omega

theorem aclSearch_lt {mask rank key : Nat} {e : Nat × Nat} (h : s.aclSearch mask rank key = some e) : e.1 < 131072 := by
  have hfold : ∀ (l : List (Nat × Nat)) (b : Option (Nat × Nat)), (∀ x ∈ l, x.1 < 131072) → (∀ x, b = some x → x.1 < 131072) →
      ∀ x, l.foldl (fun (b : Option (Nat × Nat)) e => match b with
        | none => some e
        | some x => if aclPrio x.2 < aclPrio e.2 then some e else b) b = some x → x.1 < 131072 := by
    intro l
    induction l with
    | nil => exact fun b _ hb x hx => hb x hx
    | cons y l ih =>
      intro b hl hb x hx
      refine ih _ (fun z hz => hl z (List.mem_cons_of_mem _ hz)) (fun z hz => ?_) x hx
      cases b with
      | none =>
        cases hz
        exact hl _ List.mem_cons_self
      | some w =>
        simp only [] at hz
        split at hz
        · cases hz
          exact hl _ List.mem_cons_self
        · exact hb z hz
  refine hfold _ none (fun x hx => ?_) (fun _ h => absurd h (by simp)) e h
  exact (mem_aclAll (i := x.1) (e := x.2) (List.mem_filter.1 hx).1).1

end Acl

/-! ## Exact match -/

section Exm
variable (s : State) (c : ExmCfg)

/-- An entry fits the words of its width. -/
theorem mk'_lt (hpos : c.width = 1 ∨ c.width = 2 ∨ c.width = 4) (key res : Nat) : c.mk' key res 0 < 2 ^ (128 * c.width) := by
  have hres : ∀ w, res % 2 ^ w < 2 ^ w := fun w => Nat.mod_lt _ (Nat.two_pow_pos _)
  have h57 := hres 57
  have h96 := hres 96
  have h256 := hres 256
  have hk64 : key % 2 ^ 64 < 2 ^ 64 := Nat.mod_lt _ (by decide)
  have hk128 : key % 2 ^ 128 < 2 ^ 128 := Nat.mod_lt _ (by decide)
  unfold ExmCfg.mk' ExmCfg.resW ExmCfg.resLo
  rcases hpos with h | h | h <;> simp only [h] <;> norm_num at h57 h96 h256 hk64 hk128 ⊢ <;> omega

theorem exmVersioned_plain (h : c.typ = 0) : s.exmVersioned c = false := by simp [State.exmVersioned, h]

theorem exmCmd_insert (addr data : Nat) (he : (s.exm (addr / 2 ^ 27 % 32)).en = true) (ht : (s.exm (addr / 2 ^ 27 % 32)).typ = 0) :
    s.exmCmd 3 addr data = s.exmCmdInsert (s.exm (addr / 2 ^ 27 % 32)) data := by
  unfold State.exmCmd
  simp only [he, exmVersioned_plain s _ ht]
  rfl

theorem exmCmd_delete (addr data : Nat) (he : (s.exm (addr / 2 ^ 27 % 32)).en = true) (ht : (s.exm (addr / 2 ^ 27 % 32)).typ = 0) :
    s.exmCmd 4 addr data = s.exmCmdDelete (s.exm (addr / 2 ^ 27 % 32)) data := by
  unfold State.exmCmd
  simp only [he, exmVersioned_plain s _ ht]
  rfl

/-- INSERT of a key into a table without versions, by what the lookup and the placement answer. -/
theorem exmCmdInsert_plain (data : Nat) (ht : c.typ = 0) (hk : data % 2 ^ 128 < 2 ^ c.keyBits) :
    (∀ i, s.exmFind c rkCur (data % 2 ^ 128) = some i → s.exmCmdInsert c data = (s, ans stOccupied)) ∧
    (s.exmFind c rkCur (data % 2 ^ 128) = none → s.exmPlace c (data % 2 ^ 128) = none → s.exmCmdInsert c data = (s.bump Rg.EXM_FULL_CNT, ans stFull)) ∧
    ∀ i, s.exmFind c rkCur (data % 2 ^ 128) = none → s.exmPlace c (data % 2 ^ 128) = some ([], i) → s.exmCmdInsert c data =
      (if c.valid (s.exmRaw c i) then s.exmPut c i (s.exmNew c data 0) else (s.exmPut c i (s.exmNew c data 0)).exmUsed c true,
        ⟨stOk, 0, some (data % 2 ^ 480 + i % 2 ^ 27 * 2 ^ 480)⟩) := by
  have hv := exmVersioned_plain s c ht
  refine ⟨fun i hf => ?_, fun hf hp => ?_, fun i hf hp => ?_⟩ <;> unfold State.exmCmdInsert <;> rw [if_neg (by omega)] <;>
    simp only [hv, Bool.false_eq_true, if_false, hf, Bool.false_and, ht, show ¬((0 : Nat) = 2) by decide, false_and]
  · simp only [State.exmInsert, hp]
  · simp only [State.exmInsert, hp, State.exmRelocate, List.reverse_nil, List.foldl_nil, List.length_nil, Nat.min_zero]

/-- DELETE of a key from a table without versions. -/
theorem exmCmdDelete_plain (data : Nat) (ht : c.typ = 0) :
    (s.exmFind c rkCur (data % 2 ^ 128) = none → s.exmCmdDelete c data = (s, ans stNotFound)) ∧
    ∀ i, s.exmFind c rkCur (data % 2 ^ 128) = some i → s.exmCmdDelete c data =
      (s.exmFree c i, { st := stOk, data := some (data % 2 ^ 480 + i % 2 ^ 27 * 2 ^ 480) }) := by
  have hv := exmVersioned_plain s c ht
  refine ⟨fun hf => ?_, fun i hf => ?_⟩ <;> unfold State.exmCmdDelete <;>
    simp only [hv, Bool.false_eq_true, if_false, hf, Bool.false_and]
  rw [State.exmDelete, if_pos (by simp [hv])]

/-- What the search of relocations has found lies in a bucket. -/
def Bfs.inBucket (c : ExmCfg) (x : Bfs) : Prop := ∀ ch i, x.found = some (ch, i) → c.inBucket i

theorem bfsSlot_inBucket (m w i : Nat) (chain : List Nat) (x : Bfs) (hx : x.inBucket c) : (s.bfsSlot c m w i chain x).inBucket c := by
  unfold State.bfsSlot
  split
  · exact hx
  · refine List.foldlRecOn (motive := Bfs.inBucket c) _ _ hx fun y hy w' _ => ?_
    split
    · exact hy
    · simp only []
      split
      · exact hy
      · split
        · exact hy
        · split
          next j hj =>
            intro ch k hk
            cases hk
            exact freeSlot_inBucket hj
          next => exact hy

theorem bfs_inBucket (m d : Nat) (x : Bfs) (hx : x.inBucket c) : (State.bfs s c m d x).inBucket c := by
  induction d generalizing x with
  | zero => exact hx
  | succ d ih =>
    have hy : Bfs.inBucket c ((sortBy bucketLe x.next).foldl (fun (z : Bfs) n =>
        (List.range c.perBucket).foldl (fun (u : Bfs) k =>
          if u.found.isSome ∨ u.failed then u else s.bfsSlot c m n.1 (c.index n.1 n.2.1 k) n.2.2 u) z) { x with next := [] }) :=
      List.foldlRecOn (motive := Bfs.inBucket c) _ _ hx fun z hz n _ => List.foldlRecOn (motive := Bfs.inBucket c) _ _ hz fun u hu k _ => by
        split
        · exact hu
        · exact bfsSlot_inBucket s c _ _ _ _ _ hu
    unfold State.bfs
    simp only []
    split
    · exact hy
    · exact ih _ hy

/-- Where an insert places its entry lies in a bucket (R162). -/
theorem exmPlace_inBucket {key i : Nat} {ch : List Nat} (h : s.exmPlace c key = some (ch, i)) : c.inBucket i := by
  unfold State.exmPlace at h
  split at h
  · cases h
  · simp only [] at h
    split at h
    next j hj =>
      cases h
      obtain ⟨r, -, hr⟩ := List.exists_of_findSome?_eq_some hj
      exact freeSlot_inBucket hr
    next =>
      split at h
      · cases h
      · exact bfs_inBucket s c _ _ _ (fun _ _ h => absurd h (by simp)) _ _ h

theorem width_of_inBucket {t i : Nat} (h : (s.exm t).inBucket i) : (s.exm t).width = 1 ∨ (s.exm t).width = 2 ∨ (s.exm t).width = 4 := by
  have hw : (s.exm t).width = 2 ^ bits (s.rd (Rg.EXM_TBL_CFG t)) 23 2 := rfl
  unfold ExmCfg.inBucket at h
  have h4 : bits (s.rd (Rg.EXM_TBL_CFG t)) 23 2 < 4 := bits_lt _ _ _
  rw [hw] at h ⊢
  generalize bits (s.rd (Rg.EXM_TBL_CFG t)) 23 2 = n at h h4 ⊢
  interval_cases n <;> simp at h ⊢

/-- USED of a table that is no L2 table moves by one. -/
theorem exmUsed_plain (up : Bool) (ht : c.typ = 0) : s.exmUsed c up =
    s.setF (Rg.EXM_TBL_STAT c.t) Fd.EXM_TBL_STAT_USED (if up then s.f (Rg.EXM_TBL_STAT c.t) Fd.EXM_TBL_STAT_USED + 1 else s.f (Rg.EXM_TBL_STAT c.t) Fd.EXM_TBL_STAT_USED - 1) := by
  unfold State.exmUsed
  rw [if_neg (by simp [ht])]

theorem exmRaw_exmUsed (up : Bool) (i : Nat) (hd : c.deep = false) : (s.exmUsed c up).exmRaw c i = s.exmRaw c i := by
  refine exmRaw_of_tbls c i hd fun k => ?_
  unfold State.exmUsed
  simp only []
  split
  · exact (((State.quiet.refl s).setF).setF).tblAt k
  · exact ((State.quiet.refl s).setF).tblAt k

end Exm

theorem tblRuns_rd (s : State) (page op : Nat) (ans : TblAns) {x : Nat} (hx : x ≠ page * 0x1000 + 0xF08) : (s.tblRuns page op ans).rd x = s.rd x :=
  ((tblRuns_onlyRegs s page op ans).2 x (by simpa using hx)).trans (setTblRun_rd s _ x)

section ExmShown
variable (s : State) (t op : Nat) (a : TblAns)

/-- An entry inserted in a free slot reads as made, and counts in USED unless it takes the place of a lost one (R162, R306). -/
theorem exmInserted_shows {i : Nat} (data : Nat) (h3 : t < 32) (hd : (s.exm t).deep = false) (ht : (s.exm t).typ = 0) (hi : (s.exm t).inBucket i) :
    ((if (s.exm t).valid (s.exmRaw (s.exm t) i) then s.exmPut (s.exm t) i (s.exmNew (s.exm t) data 0)
        else (s.exmPut (s.exm t) i (s.exmNew (s.exm t) data 0)).exmUsed (s.exm t) true).tblRuns 0x0A0 op a).exmRaw (s.exm t) i = s.exmNew (s.exm t) data 0 ∧
    ((if (s.exm t).valid (s.exmRaw (s.exm t) i) then s.exmPut (s.exm t) i (s.exmNew (s.exm t) data 0)
        else (s.exmPut (s.exm t) i (s.exmNew (s.exm t) data 0)).exmUsed (s.exm t) true).tblRuns 0x0A0 op a).f (Rg.EXM_TBL_STAT t) Fd.EXM_TBL_STAT_USED =
      if (s.exm t).valid (s.exmRaw (s.exm t) i) then s.f (Rg.EXM_TBL_STAT t) Fd.EXM_TBL_STAT_USED else (s.f (Rg.EXM_TBL_STAT t) Fd.EXM_TBL_STAT_USED + 1) % 2 ^ 31 := by
  have hnew : s.exmNew (s.exm t) data 0 % 2 ^ (128 * (s.exm t).width) = s.exmNew (s.exm t) data 0 := by
    rw [State.exmNew, if_neg (by simp [ht])]
    exact Nat.mod_eq_of_lt (mk'_lt _ (width_of_inBucket s hi) _ _)
  obtain ⟨hraw, hrd⟩ := exmPut_shows s (s.exm t) i (s.exmNew (s.exm t) data 0) hd hi
  have hstat := f_of_rd (hrd (Rg.EXM_TBL_STAT t) (by simp only [Rg.EXM_TBL_STAT]; omega)) Fd.EXM_TBL_STAT_USED
  rw [hnew] at hraw
  rw [exmRaw_of_tbls _ i hd fun k => tblRuns_tblAt _ _ _ _ k, f_of_rd (tblRuns_rd _ _ _ _ (by simp only [Rg.EXM_TBL_STAT, Pg.EXM]; omega))]
  split
  · exact ⟨hraw, hstat⟩
  · rw [exmRaw_exmUsed _ _ _ _ hd, exmUsed_plain _ _ _ ht]
    refine ⟨hraw, ?_⟩
    rw [show (s.exm t).t = t from rfl, if_pos rfl, f_setF_same _ _ _ _ (by decide), hstat]

/-- An entry freed reads 0 and leaves USED (R164). -/
theorem exmFreed_shows {i : Nat} (h3 : t < 32) (hd : (s.exm t).deep = false) (ht : (s.exm t).typ = 0) (hi : (s.exm t).inBucket i) :
    ((s.exmFree (s.exm t) i).tblRuns 0x0A0 op a).exmRaw (s.exm t) i = 0 ∧
    ((s.exmFree (s.exm t) i).tblRuns 0x0A0 op a).f (Rg.EXM_TBL_STAT t) Fd.EXM_TBL_STAT_USED = s.f (Rg.EXM_TBL_STAT t) Fd.EXM_TBL_STAT_USED - 1 := by
  obtain ⟨hraw, hrd⟩ := exmPut_shows s (s.exm t) i 0 hd hi
  have hstat := f_of_rd (hrd (Rg.EXM_TBL_STAT t) (by simp only [Rg.EXM_TBL_STAT]; omega)) Fd.EXM_TBL_STAT_USED
  have hlt : s.f (Rg.EXM_TBL_STAT t) Fd.EXM_TBL_STAT_USED < 2 ^ 31 := bits_lt _ _ _
  rw [exmRaw_of_tbls _ i hd fun k => tblRuns_tblAt _ _ _ _ k, f_of_rd (tblRuns_rd _ _ _ _ (by simp only [Rg.EXM_TBL_STAT, Pg.EXM]; omega)),
    State.exmFree, State.exmClear, exmRaw_exmUsed _ _ _ _ hd, exmUsed_plain _ _ _ ht, show (s.exm t).t = t from rfl, if_neg (by decide),
    f_setF_same _ _ _ _ (by decide), hstat]
  exact ⟨hraw.trans (Nat.zero_mod _), Nat.mod_eq_of_lt (lt_of_le_of_lt (Nat.sub_le _ _) hlt)⟩

end ExmShown

/-- Settles O31: each command's answer and tables come from what `aclCmd` and `exmCmd` do once the page has taken it. -/
theorem aclAndExactMatchCommands : Obligations.AclAndExactMatchCommands := by
  unfold Obligations.AclAndExactMatchCommands
  refine ⟨fun s a i j hm hrun hrefill hv hi hj => ?_, fun s a c hm hrun hrefill hc hen htyp hdeep hkey => ?_⟩
  · have hcmd : ∀ op, ¬(op = 0 ∨ 7 < op) → s.tblCmd a 0x099 op =
        (s.aclCmd op (s.rd (Pg.ACL + 0xF04)) (s.tblData 0x099)).1.tblRuns 0x099 op (s.aclCmd op (s.rd (Pg.ACL + 0xF04)) (s.tblData 0x099)).2 := fun op hop => by
      rw [tblCmd_runs s a 0x099 op (by decide) hm hrun hrefill hop, tblExec_acl]
    generalize s.rd (Pg.ACL + 0xF04) = addr at hi hcmd ⊢
    generalize s.tblData 0x099 = data at hj hcmd ⊢
    have hlt : j < 131072 := by omega
    refine ⟨fun hdi hdj => ?_, ?_, ?_⟩
    · have hmove : s.aclCmd 5 addr data = s.aclMove i j := by
        rw [hi] at hdi ⊢
        rw [hj] at hdj ⊢
        exact aclCmd_move s addr data hv hdi hdj
      have hstep := (hcmd 5 (by decide)).trans (by rw [hmove])
      refine ⟨fun ha => ⟨_, congrArg Host.Outcome.next hstep, ?_⟩, fun ha hb => ⟨_, congrArg Host.Outcome.next hstep, ?_⟩,
        fun ha hb => ⟨_, congrArg Host.Outcome.next hstep, ?_⟩⟩
      · rw [aclMove_absent s ha, tblAnswer_runs]
        exact ⟨rfl, (tblRuns_tbls _ _ _ _).1⟩
      · obtain ⟨h1, h2, h3⟩ := aclMoved_shows s (i := i) (j := j) (by rintro rfl; simp [ha] at hb)
        rw [aclMove_free s ha hb hlt, tblAnswer_runs]
        exact ⟨rfl, (tblRuns_tbl _ _ _ _ _ _ _).trans h1, (tblRuns_tbl _ _ _ _ _ _ _).trans h2, fun k hi hj => (tblRuns_tblAt _ _ _ _ _).trans (h3 k hi hj)⟩
      · rw [aclMove_occupied s ha hb hlt, tblAnswer_runs]
        exact ⟨rfl, (tblRuns_tbls _ _ _ _).1⟩
    · refine ⟨_, congrArg Host.Outcome.next (hcmd 6 (by decide)), ?_⟩
      rw [aclCmd_search, tblAnswer_runs]
      refine ⟨?_, fun prof hp => ⟨fun hnone => ?_, fun e hsome => ?_⟩⟩
      · rw [(tblRuns_tbls _ _ _ _).1]
        unfold State.aclCmdSearch
        split <;> rfl
      · subst hp
        unfold State.aclCmdSearch
        simp only [hnone]
        rfl
      · subst hp
        have he := aclSearch_lt s hsome
        unfold State.aclCmdSearch
        simp only [hsome]
        have hset := bits_setBits_same data 0 32 e.1
        rw [bits, Nat.pow_zero, Nat.div_one] at hset
        exact ⟨_, rfl, hset.trans (Nat.mod_eq_of_lt (by omega))⟩
    · refine ⟨_, congrArg Host.Outcome.next (hcmd 7 (by decide)), ?_⟩
      obtain ⟨h1, h2⟩ := aclFlushed_shows s data hv
      rw [aclCmd_flush s addr data hv, tblAnswer_runs]
      exact ⟨rfl, fun x hx => (congrArg aclValid (tblRuns_tbl _ _ _ _ _ _ _)).trans (h1 x hx), fun k hk => (tblRuns_tblAt _ _ _ _ _).trans (h2 k hk)⟩
  · have hcmd : ∀ op, ¬(op = 0 ∨ 7 < op) → s.tblCmd a 0x0A0 op =
        (s.exmCmd op (s.rd (Pg.EXM + 0xF04)) (s.tblData 0x0A0)).1.tblRuns 0x0A0 op (s.exmCmd op (s.rd (Pg.EXM + 0xF04)) (s.tblData 0x0A0)).2 := fun op hop => by
      rw [tblCmd_runs s a 0x0A0 op (by decide) hm hrun hrefill hop, tblExec_exm]
    have hins := (hcmd 3 (by decide)).trans (by rw [exmCmd_insert s _ _ (hc ▸ hen) (hc ▸ htyp), ← hc])
    have hdel := (hcmd 4 (by decide)).trans (by rw [exmCmd_delete s _ _ (hc ▸ hen) (hc ▸ htyp), ← hc])
    have hpage : s.pageOn (Rg.EXM_FULL_CNT / 0x1000) = true := mayWrite_pageOn hm
    obtain ⟨hi1, hi2, hi3⟩ := exmCmdInsert_plain s c (s.tblData 0x0A0) htyp hkey
    obtain ⟨hd1, hd2⟩ := exmCmdDelete_plain s c (s.tblData 0x0A0) htyp
    have htab : s.rd (Pg.EXM + 0xF04) / 2 ^ 27 % 32 < 32 := Nat.mod_lt _ (by decide)
    generalize s.rd (Pg.EXM + 0xF04) / 2 ^ 27 % 32 = n at hc htab
    subst hc
    refine ⟨fun hf => ⟨⟨_, congrArg Host.Outcome.next hdel, ?_⟩, fun hp => ⟨_, congrArg Host.Outcome.next hins, ?_⟩,
      fun i hp => ⟨_, congrArg Host.Outcome.next hins, ?_⟩⟩, fun i hf => ⟨⟨_, congrArg Host.Outcome.next hins, ?_⟩, _, congrArg Host.Outcome.next hdel, ?_⟩⟩
    · rw [hd1 hf, tblAnswer_runs]
      exact ⟨rfl, (tblRuns_tbls _ _ _ _).1⟩
    · rw [hi2 hf hp, tblAnswer_runs, tblRuns_rd _ _ _ _ (by decide), bump_rd_own s Rg.EXM_FULL_CNT 1 (by decide) (by decide) (by decide) hpage]
      exact ⟨rfl, (tblRuns_tbls _ _ _ _).1.trans (((State.quiet.refl s).bump).proj State.tbls), rfl⟩
    · rw [hi3 i hf hp, tblAnswer_runs]
      exact ⟨⟨_, rfl⟩, exmInserted_shows s n _ _ _ htab hdeep htyp (exmPlace_inBucket s _ hp)⟩
    · rw [hi1 i hf, tblAnswer_runs]
      exact ⟨rfl, (tblRuns_tbls _ _ _ _).1⟩
    · rw [hd2 i hf, tblAnswer_runs]
      exact ⟨⟨_, rfl⟩, exmFreed_shows s n _ _ htab hdeep htyp (exmFind_inBucket hf)⟩

end Sys2Proof.Machine
end

section
-- One after another: each `decide +kernel` below waits for every earlier proof, on a thread of its own.
set_option Elab.async false
/-! SUPPORT. The classification walk over a log record of a table that does not exist (R126, R127). -/
namespace Sys2Proof.Machine

/-- A walk in progress with one record, whose table number is 65,411: EXM_TBL_STAT of that number would stand where PWR_DOM_STAT of domains 32 to 47
of the F-die stands. Of these only domain 46, which carries page CLASS, is on. The entry that the record names is VALID with a committed DEL marker. -/
def strayWalk : State :=
  { ((State.reset.wr (Rg.PWR_DOM_STAT 0 1) (2 ^ 14)).setF Rg.CLASS_LOG_STAT Fd.CLASS_LOG_STAT_CLEANUP 1).setTbl Pg.EXM 0 0 (2 ^ 127 + 2 ^ 123) with
    classWalk := [(1 + 65411, 0)] }

theorem strayWalk_runs : strayWalk.pageOn (Pg.CLASS / 0x1000) = true ∧ strayWalk.fb Rg.CLASS_LOG_STAT Fd.CLASS_LOG_STAT_CLEANUP = true := by
  decide +kernel

/-- Freeing the entry takes one from USED, and so the domain of page CLASS off, before the walk raises its event. -/
theorem strayWalk_done : bit (strayWalk.classWalkDone.rd (Pg.CLASS + 0x010)) Ib.CLASS_CLEANUP_DONE = false := by decide +kernel

/-- Refutes O32: nothing bounds the table number of a record of the walk. One of table 65,411 whose entry is freed counts USED down in PWR_DOM_STAT,
which takes page CLASS off, and CLEANUP_DONE is not flagged. -/
theorem not_versionWalks : ¬ Obligations.VersionWalks := by
  unfold Obligations.VersionWalks
  intro h
  obtain ⟨hon, hclean⟩ := strayWalk_runs
  obtain ⟨t, ht, -, -, hflag, -⟩ := (h.1 strayWalk hon).2 hclean
  have hexec : exec .classLogWalkDone strayWalk = .next strayWalk.classWalkDone := rfl
  rw [hexec] at ht
  cases ht
  rw [strayWalk_done] at hflag
  exact absurd hflag (by decide)

end Sys2Proof.Machine
end

section
/-! SUPPORT. Row repair from the shadow (R144, R145) and liveness bits (R150). -/
namespace Sys2Proof.Machine

/-- Whether a page answers rests on the part, the power state and the domain registers. -/
theorem pageOn_of_rd {s t : State} (hp : t.part = s.part) (hw : t.pw = s.pw)
    (hd : ∀ d w, d ≤ 1 → w ≤ 1 → t.rd (Rg.PWR_DOM_STAT d w) = s.rd (Rg.PWR_DOM_STAT d w)) (page : Nat) : t.pageOn page = s.pageOn page := by
  have h : ∀ d n, d ≤ 1 → n < 64 → t.domOn d n = s.domOn d n := fun d n hd' hn => by
    rw [State.domOn, State.domOn, hd d (n / 32) hd' (by omega)]
  simp only [State.pageOn, hp, hw, h 0 26 (by omega) (by omega), h 0 27 (by omega) (by omega)]
  cases e : domOf page with
  | none => rfl
  | some x =>
    obtain ⟨h1, h2⟩ := domOf_lt page x.1 x.2 e
    simp only [h x.1 x.2 h1 h2]

/-! ## Rows -/

section Rows
variable (s : State) (b r : Nat)

theorem terr_eq : s.terr b r = s.tblAt (tkey (Pg.TERR (b / 16)) (b % 16) r) := rfl

theorem terrShadow_eq : s.terrShadow b r = s.tblAt (tkey (Pg.TERR (b / 16)) (16 + b % 16) r) := rfl

theorem terr_keys : tkey (Pg.TERR (b / 16)) (b % 16) r ≠ tkey (Pg.TERR (b / 16)) (16 + b % 16) r := by
  simp only [tkey]
  omega

/-- A row written holds the entry, its shadow with it, and changes no register but its pages' record of words rewritten. -/
theorem terrPut_shows (e : Nat) : (s.terrPut b r e).terr b r = e ∧ (s.terrPut b r e).terrShadow b r = e ∧ (s.terrPut b r e).part = s.part ∧
    (s.terrPut b r e).pw = s.pw ∧ ∀ x, x ≠ Pg.TERR (b / 16) + 0x03C → (s.terrPut b r e).rd x = s.rd x := by
  have h := (State.quiet.refl ((s.setTbl (Pg.TERR (b / 16)) (b % 16) r e).setTbl (Pg.TERR (b / 16)) (16 + b % 16) r e)).wroteWord
    (pg := Pg.TERR (b / 16)) (mem := b % 16) (addr := r) |>.wroteWords (pg := Pg.TERR (b / 16)) (mem := 16 + b % 16) (addr := 2 * r) (n := 2)
  refine ⟨?_, ?_, h.proj State.part, h.proj State.pw, fun x hx => ?_⟩
  · rw [terr_eq, State.terrPut, h.tblAt, tblAt_setTbl_other _ _ _ _ _ _ (terr_keys b r), tblAt_tkey, tbl_setTbl_same]
  · rw [terrShadow_eq, State.terrPut, h.tblAt, tblAt_tkey, tbl_setTbl_same]
  · rw [State.terrPut, rd_wroteWords _ _ _ _ _ _ hx, rd_wroteWord _ _ _ _ _ hx, rd_setTbl, rd_setTbl]

theorem terrStat_quiet : s.quiet (s.terrStat b) := by
  unfold State.terrStat
  exact .ite (State.quiet.wr (State.quiet.wr (.refl s))) (State.quiet.wr (.refl s))

theorem terrStat_rd {x : Nat} (hx : x < Pg.TERR (b / 16) + 0x140 ∨ Pg.TERR (b / 16) + 0x180 ≤ x) : (s.terrStat b).rd x = s.rd x := by
  have hlo : x ≠ Rg.TERR_BANK_STAT (b / 16) (b % 16) := by simp only [Rg.TERR_BANK_STAT]; omega
  unfold State.terrStat
  simp only []
  split
  next hw =>
    have heven : b % 2 = 0 := by
      simp only [State.bankWide, Bool.and_eq_true, beq_iff_eq] at hw
      exact hw.1
    rw [rd_wr_other _ _ _ _ (by simp only [Rg.TERR_BANK_STAT]; omega), rd_wr_other _ _ _ _ hlo]
  next => exact rd_wr_other _ _ _ _ hlo

theorem terrFree_shows : (s.terrFree b r).terr b r = 0 ∧ (s.terrFree b r).terrShadow b r = 0 ∧ (s.terrFree b r).part = s.part ∧ (s.terrFree b r).pw = s.pw ∧
    ∀ x, (x < Pg.TERR (b / 16) + 0x140 ∨ Pg.TERR (b / 16) + 0x180 ≤ x) → x ≠ Pg.TERR (b / 16) + 0x03C → (s.terrFree b r).rd x = s.rd x := by
  obtain ⟨h1, h2, h3, h4, h5⟩ := terrPut_shows s b r 0
  have hq := terrStat_quiet (s.terrPut b r 0) b
  rw [State.terrFree]
  exact ⟨(hq.tblAt _).trans h1, (hq.tblAt _).trans h2, (hq.proj State.part).trans h3, (hq.proj State.pw).trans h4,
    fun x hx hne => (terrStat_rd _ b hx).trans (h5 x hne)⟩

/-- A scrub without an upset sees the row as it stands. -/
theorem terrUpset_zero : (∀ k, (s.terrUpset b r 0).tblAt k = s.tblAt k) ∧ (s.terrUpset b r 0).part = s.part ∧ (s.terrUpset b r 0).pw = s.pw ∧
    (∀ x, (s.terrUpset b r 0).rd x = s.rd x) ∧ (s.terrUpset b r 0).shadowBad b r = s.shadowBad b r := by
  unfold State.terrUpset
  split
  · exact ⟨fun _ => rfl, rfl, rfl, fun _ => rfl, rfl⟩
  · refine ⟨fun k => ?_, rfl, rfl, fun _ => rfl, rfl⟩
    by_cases hk : k = tkey (Pg.TERR (b / 16)) (b % 16) r
    · rw [hk, tblAt_tkey, tbl_setTbl_same, Nat.zero_mod, Nat.xor_zero]
      rfl
    · exact tblAt_setTbl_other _ _ _ _ _ _ hk

variable (hb : b < 128) (hr : r < 16384) (hp : s.pageOn (0x090 + b / 16) = true)
include hb hr hp

theorem terrRow_valid : ¬(128 ≤ b ∨ 16384 ≤ r ∨ (!s.pageOn (0x090 + b / 16)) = true) := by simp [hp]; omega

theorem terrRewrite_good (h : s.shadowBad b r = false) : s.terrRewrite b r = s.terrPut b r (s.terrShadow b r) := by
  unfold State.terrRewrite
  rw [if_neg (by simp [hp, h]; omega)]

theorem terrScrub_same (h : s.terr b r = s.terrShadow b r) (hpar : trParityBad (s.terr b r) = false) (lost : Bool) :
    s.terrScrub b r 0 lost = s.terrUpset b r 0 := by
  obtain ⟨h1, -⟩ := terrUpset_zero s b r
  unfold State.terrScrub
  rw [if_neg (terrRow_valid s b r hb hr hp)]
  simp only []
  rw [if_pos (by rw [terr_eq, terrShadow_eq, h1, h1, ← terr_eq, ← terrShadow_eq, h, ← h, hpar]; simp)]

theorem terrScrub_fixes (h : s.terr b r ≠ s.terrShadow b r) (hbad : s.shadowBad b r = false) : s.terrScrub b r 0 false =
    (((s.terrUpset b r 0).terrPut b r (s.terrShadow b r)).bump (Rg.TERR_SCRUB_FIX_CNT (b / 16))).setInt (Pg.TERR (b / 16)) Ib.TERR_SCRUB_FIX := by
  obtain ⟨h1, -, -, -, h5⟩ := terrUpset_zero s b r
  have hrow : (s.terrUpset b r 0).terr b r = s.terr b r := h1 _
  have hsh : (s.terrUpset b r 0).terrShadow b r = s.terrShadow b r := h1 _
  unfold State.terrScrub
  rw [if_neg (terrRow_valid s b r hb hr hp)]
  simp only [hrow, hsh]
  rw [if_neg (by simp [h]), if_neg (by simp [h5, hbad])]

theorem terrScrub_frees (h : s.terr b r ≠ s.terrShadow b r) : s.terrScrub b r 0 true =
    (((((s.terrUpset b r 0).terrFree b r).wr (Pg.TERR (b / 16) + 0x020) (16384 * b + r)).bump (Rg.TERR_SHADOW_ERR_CNT (b / 16))).setInt
      (Pg.TERR (b / 16)) Ib.TERR_SHADOW_ERR) := by
  obtain ⟨h1, -, -, -, -⟩ := terrUpset_zero s b r
  have hrow : (s.terrUpset b r 0).terr b r = s.terr b r := h1 _
  have hsh : (s.terrUpset b r 0).terrShadow b r = s.terrShadow b r := h1 _
  unfold State.terrScrub
  rw [if_neg (terrRow_valid s b r hb hr hp)]
  simp only [hrow, hsh]
  rw [if_neg (by simp [h]), if_pos (by simp)]

omit hb hr hp in
/-- An event counted and flagged in a bank group's page. -/
theorem terrEvent_shows {a bit' : Nat} (u : State) (ha : a = Rg.TERR_SCRUB_FIX_CNT (b / 16) ∨ a = Rg.TERR_SHADOW_ERR_CNT (b / 16)) (hlt : b < 128) (hbit : bit' < 32)
    (hon : u.pageOn (0x090 + b / 16) = true) :
    ((u.bump a).setInt (Pg.TERR (b / 16)) bit').rd a = (u.rd a + 1) % 2 ^ 32 ∧ bit (((u.bump a).setInt (Pg.TERR (b / 16)) bit').rd (Pg.TERR (b / 16) + 0x010)) bit' = true ∧
    ((u.bump a).setInt (Pg.TERR (b / 16)) bit').rd (Pg.TERR (b / 16) + 0x020) = u.rd (Pg.TERR (b / 16) + 0x020) ∧
    ∀ k, ((u.bump a).setInt (Pg.TERR (b / 16)) bit').tblAt k = u.tblAt k := by
  have hdiv : a / 0x1000 = 0x090 + b / 16 ∧ 0x100 ≤ a % 0x1000 ∧ a % 0x1000 < 0x800 := by
    rcases ha with rfl | rfl <;> simp only [Rg.TERR_SCRUB_FIX_CNT, Rg.TERR_SHADOW_ERR_CNT, Pg.TERR] <;> omega
  have hirq : ∀ x, x / 0x1000 = 0x090 + b / 16 → irqReg x = false := fun x hx => by
    simp only [irqReg, Rg.IRQ_MSG_CNT, Pg.IRQ, Bool.or_eq_false_iff, beq_eq_false_iff_ne, decide_eq_false_iff_not]
    omega
  obtain ⟨h1, h2, h3⟩ := bump_setInt_shows u a (Pg.TERR (b / 16)) bit' (by rw [hdiv.1]; simp only [Pg.TERR]; omega) hdiv.2.1 hdiv.2.2 (hirq a hdiv.1)
    (ne_domStat_page (by omega) (by omega)) hbit (by rw [hdiv.1]; exact hon)
  refine ⟨h1, h2, h3.2 _ ?_, fun k => ((State.quiet.refl u).bump.setInt).tblAt k⟩
  have hirq' := hirq (Pg.TERR (b / 16) + 0x020) (by simp only [Pg.TERR]; omega)
  have hcnt : cntReg (Pg.TERR (b / 16)) (Pg.TERR (b / 16) + 0x020) = false := by
    rw [cntReg, intReg, hirq']
    simp
  exact Bool.or_eq_false_iff.2 ⟨beq_eq_false_iff_ne.2 (by simp only [Pg.TERR]; omega), hcnt⟩

end Rows

/-! ## Liveness bits -/

section Live
variable (s : State) (i : Nat)

theorem live_at (b : Nat) (hb : b < 32) : Rg.NHOP_LIVE ((32 * i + b) / 32) = Rg.NHOP_LIVE i ∧ (32 * i + b) % 32 = b := by
  have h : (32 * i + b) / 32 = i := by omega
  exact ⟨by rw [h], by omega⟩

theorem bit_setLive (b : Nat) (hb : b < 32) (on : Bool) {c : Nat} (hc : c < 32) :
    bit ((s.setLive (32 * i + b) on).rd (Rg.NHOP_LIVE i)) c = if c = b then on else bit (s.rd (Rg.NHOP_LIVE i)) c := by
  obtain ⟨h1, h2⟩ := live_at i b hb
  rw [State.setLive]
  simp only [h1, h2]
  rw [rd_wr_same, bit_mod32 _ _ hc, bit_setBits_one]

theorem setLive_onlyRegs (b : Nat) (hb : b < 32) (on : Bool) : State.onlyRegs (fun x => x == Rg.NHOP_LIVE i) s (s.setLive (32 * i + b) on) := by
  rw [State.setLive]
  simp only [(live_at i b hb).1]
  exact onlyRegs_wr s _ _ (beq_self_eq_true _)

/-- A set leaves the other bits, and its own where hardware cleared it in the same clock. -/
theorem bit_liveSet (b t : Nat) (hb : b < 32) (hi : i < 128) {c : Nat} (hc : c < 32) :
    bit ((s.liveSet (32 * i + b) t).rd (Rg.NHOP_LIVE i)) c =
      if c = b ∧ sget 0 s.liveClr (32 * i + b) ≠ t + 1 then true else bit (s.rd (Rg.NHOP_LIVE i)) c := by
  unfold State.liveSet
  split
  next h =>
    rw [if_neg (fun k => k.2 h), rd_bump_own (by rw [ownReg_iff]; simp only [Rg.NHOP_LIVE, Pg.NHOP]; omega) (by decide)
      (by simp only [Rg.NHOP_LIVE, Rg.NHOP_LIVE_CONFLICT_CNT]; omega)]
  next h =>
    rw [bit_setLive s i b hb true hc]
    simp only [h, ne_eq, not_false_eq_true, and_true]

theorem liveClr_liveSet (w t : Nat) : (s.liveSet w t).liveClr = s.liveClr := by
  unfold State.liveSet
  split
  · exact ((State.quiet.refl s).bump).proj State.liveClr
  · rfl

/-- Bits set in turn. -/
theorem bit_liveSets (l : List Nat) (t : Nat) (hl : ∀ b ∈ l, b < 32) (hi : i < 128) {c : Nat} (hc : c < 32) :
    bit ((l.foldl (fun u b => u.liveSet (32 * i + b) t) s).rd (Rg.NHOP_LIVE i)) c =
      if c ∈ l ∧ sget 0 s.liveClr (32 * i + c) ≠ t + 1 then true else bit (s.rd (Rg.NHOP_LIVE i)) c := by
  induction l generalizing s with
  | nil => simp
  | cons b l ih =>
    rw [List.foldl_cons, ih _ fun x hx => hl x (List.mem_cons_of_mem _ hx), liveClr_liveSet, bit_liveSet s i b t (hl b List.mem_cons_self) hi hc]
    by_cases hcb : c = b
    · subst hcb
      by_cases hclr : sget 0 s.liveClr (32 * i + c) = t + 1 <;> simp [hclr]
    · simp [hcb]

/-- Bits cleared in turn. -/
theorem liveClrs_shows (l : List Nat) (hl : ∀ b ∈ l, b < 32) :
    (∀ c, c < 32 → bit ((l.foldl (fun u b => u.setLive (32 * i + b) false) s).rd (Rg.NHOP_LIVE i)) c = (bit (s.rd (Rg.NHOP_LIVE i)) c && !decide (c ∈ l))) ∧
    State.onlyRegs (fun x => x == Rg.NHOP_LIVE i) s (l.foldl (fun u b => u.setLive (32 * i + b) false) s) := by
  induction l generalizing s with
  | nil => exact ⟨fun c _ => by simp, onlyRegs_refl _ _⟩
  | cons b l ih =>
    have hb := hl b List.mem_cons_self
    obtain ⟨h1, h2⟩ := ih (s.setLive (32 * i + b) false) fun x hx => hl x (List.mem_cons_of_mem _ hx)
    refine ⟨fun c hc => ?_, onlyRegs_trans (setLive_onlyRegs s i b hb false) h2⟩
    rw [List.foldl_cons, h1 c hc, bit_setLive s i b hb false hc]
    by_cases hcb : c = b <;> simp [hcb]

theorem mem_onesOf32 {v b : Nat} : b ∈ onesOf 32 v ↔ b < 32 ∧ bit v b = true := by simp [onesOf]

end Live

theorem watchesOf_lt {s : State} {p w : Nat} (h : w ∈ s.watchesOf p) : w < 4096 := by
  simp only [State.watchesOf, List.mem_map, List.mem_filter, Bool.and_eq_true, decide_eq_true_eq] at h
  obtain ⟨e, ⟨-, ⟨⟨⟨h1, h2⟩, -⟩, -⟩⟩, rfl⟩ := h
  omega

theorem rd_setLiveClr (s : State) (m : Sparse Nat) (x : Nat) : State.rd { s with liveClr := m } x = s.rd x := rfl

theorem live_setLiveClr (s : State) (m : Sparse Nat) : (∀ w, State.live { s with liveClr := m } w = s.live w) ∧
    ∀ g, State.pageOn { s with liveClr := m } g = s.pageOn g := ⟨fun _ => rfl, fun _ => rfl⟩

/-- A live bit that hardware clears goes down, counted and flagged. -/
theorem hwClear_shows (s : State) (w t : Nat) (hw : w < 4096) (hp : s.pageOn (Pg.NHOP / 0x1000) = true) (hl : s.live w = true) :
    (s.hwClear w t).live w = false ∧ (s.hwClear w t).rd Rg.NHOP_PROT_SWITCH_CNT = (s.rd Rg.NHOP_PROT_SWITCH_CNT + 1) % 2 ^ 32 ∧
    bit ((s.hwClear w t).rd (Pg.NHOP + 0x010)) Ib.NHOP_WATCH_DOWN = true ∧
    State.onlyRegs (fun x => x == Rg.NHOP_LIVE (w / 32) || x == Rg.NHOP_PROT_SWITCH_CNT || cntReg Pg.NHOP x) { s with liveClr := (s.hwClear w t).liveClr } (s.hwClear w t) := by
  unfold State.hwClear
  rw [if_neg (by simp [hl])]
  obtain ⟨-, hon⟩ := live_setLiveClr s (sset 0 s.liveClr w (t + 1))
  have hrd := rd_setLiveClr s (sset 0 s.liveClr w (t + 1))
  have hcl : (({ s with liveClr := sset 0 s.liveClr w (t + 1) } : State)).liveClr = sset 0 s.liveClr w (t + 1) := rfl
  generalize hu : (({ s with liveClr := sset 0 s.liveClr w (t + 1) } : State)) = u at hon hrd hcl ⊢
  have hb : w % 32 < 32 := Nat.mod_lt _ (by decide)
  have hset := setLive_onlyRegs u (w / 32) (w % 32) hb false
  have hbit := bit_setLive u (w / 32) (w % 32) hb false hb
  rw [Nat.div_add_mod] at hset hbit
  rw [if_pos rfl] at hbit
  have hreg : Rg.NHOP_LIVE (w / 32) / 0x1000 = 0xB0 ∧ Rg.NHOP_LIVE (w / 32) ≠ Rg.NHOP_PROT_SWITCH_CNT ∧
      ownReg (Rg.NHOP_LIVE (w / 32)) = true := by
    rw [ownReg_iff]
    simp only [Rg.NHOP_LIVE, Pg.NHOP, Rg.NHOP_PROT_SWITCH_CNT]
    omega
  obtain ⟨hpg, hne, hown⟩ := hreg
  have hpage : (u.setLive w false).pageOn (Rg.NHOP_PROT_SWITCH_CNT / 0x1000) = true := by
    rw [onlyRegs_pageOn hset (fun d v hd hv => ?_), hon]
    · exact hp
    · exact beq_eq_false_iff_ne.2 (ne_domStat_page (by omega) (by omega) d v hd hv).symm
  have hcnt : (u.setLive w false).rd Rg.NHOP_PROT_SWITCH_CNT = s.rd Rg.NHOP_PROT_SWITCH_CNT := by
    rw [hset.2 _ (by rw [beq_eq_false_iff_ne]; exact hne.symm), hrd]
  obtain ⟨h1, h2, h3⟩ := bump_setInt_shows (u.setLive w false) Rg.NHOP_PROT_SWITCH_CNT Pg.NHOP Ib.NHOP_WATCH_DOWN (by decide) (by decide) (by decide) (by decide)
    (ne_domStat_page (by decide) (by decide)) (by decide) hpage
  have hall := onlyRegs_trans (onlyRegs_mono (Q := fun x => x == Rg.NHOP_LIVE (w / 32) || x == Rg.NHOP_PROT_SWITCH_CNT || cntReg Pg.NHOP x) hset (by simp_all))
    (onlyRegs_mono h3 (by simp_all))
  refine ⟨?_, h1.trans (by rw [hcnt]), h2, ?_⟩
  · rw [State.live, h3.2 _ (by simp [hne, cntReg_of_own (pg := Pg.NHOP) (by decide) hown])]
    exact hbit
  · have hk : (((u.setLive w false).bump Rg.NHOP_PROT_SWITCH_CNT).setInt Pg.NHOP Ib.NHOP_WATCH_DOWN).liveClr = sset 0 s.liveClr w (t + 1) :=
      (onlyRegs_proj hall State.liveClr (fun _ _ _ _ _ => rfl)).trans hcl
    rw [hk, hu]
    exact hall

theorem terr_ne_dom {b o : Nat} (hb : b < 128) (ho : o < 0x1000) : ∀ d w, d ≤ 1 → w ≤ 1 → Rg.PWR_DOM_STAT d w ≠ Pg.TERR (b / 16) + o := fun d w hd hw =>
  (ne_domStat_page (a := Pg.TERR (b / 16) + o) (by simp only [Pg.TERR]; omega) (by simp only [Pg.TERR]; omega) d w hd hw).symm

theorem terr_dom_far {b : Nat} (hb : b < 128) : ∀ d w, d ≤ 1 → w ≤ 1 →
    Rg.PWR_DOM_STAT d w < Pg.TERR (b / 16) + 0x140 ∨ Pg.TERR (b / 16) + 0x180 ≤ Rg.PWR_DOM_STAT d w := fun d w hd hw => by
  obtain rfl | rfl : d = 0 ∨ d = 1 := by omega
  all_goals
    simp [Rg.PWR_DOM_STAT, Pg.PWR, Pg.TERR]
    omega

/-- Settles O33: a row is written with its shadow, and each liveness bit lies alone in its register. -/
theorem terraceRepairAndLiveness : Obligations.TerraceRepairAndLiveness := by
  unfold Obligations.TerraceRepairAndLiveness
  refine ⟨fun s b r hb hr hp => ⟨fun hbad => ⟨⟨_, rfl, ?_⟩, fun hne => ⟨_, congrArg Host.Outcome.next (terrScrub_fixes s b r hb hr hp hne hbad), ?_⟩⟩,
      fun heq hpar lost => ⟨_, congrArg Host.Outcome.next (terrScrub_same s b r hb hr hp heq hpar lost), (terrUpset_zero s b r).1⟩,
      fun hne => ⟨_, congrArg Host.Outcome.next (terrScrub_frees s b r hb hr hp hne), ?_⟩⟩,
    fun s a i v hi => ⟨fun hm => ?_, fun hm => ?_⟩, fun s p clk hp => ⟨fun hup => ?_, fun w hdown hws hlive => ?_⟩⟩
  · obtain ⟨h1, h2, -⟩ := terrPut_shows s b r (s.terrShadow b r)
    rw [terrRewrite_good s b r hb hr hp hbad]
    exact ⟨h1, h2⟩
  · obtain ⟨-, hu2, hu3, hu4, -⟩ := terrUpset_zero s b r
    obtain ⟨h1, -, h3, h4, h5⟩ := terrPut_shows (s.terrUpset b r 0) b r (s.terrShadow b r)
    have hon := (pageOn_of_rd (h3.trans hu2) (h4.trans hu3) (fun d w hd hw => (h5 _ (terr_ne_dom hb (by decide) d w hd hw)).trans (hu4 _)) (0x090 + b / 16)).trans hp
    obtain ⟨e1, e2, -, e4⟩ := terrEvent_shows b (bit' := Ib.TERR_SCRUB_FIX) _ (.inl rfl) hb (by decide) hon
    exact ⟨(e4 _).trans h1, e1.trans (by rw [h5 _ (by simp only [Rg.TERR_SCRUB_FIX_CNT]; omega), hu4]), e2⟩
  · obtain ⟨-, hu2, hu3, hu4, -⟩ := terrUpset_zero s b r
    obtain ⟨h1, h2, h3, h4, h5⟩ := terrFree_shows (s.terrUpset b r 0) b r
    have hon := (pageOn_of_rd (t := ((s.terrUpset b r 0).terrFree b r).wr (Pg.TERR (b / 16) + 0x020) (16384 * b + r)) (h3.trans hu2) (h4.trans hu3)
      (fun d w hd hw => ((rd_wr_other _ _ _ _ (terr_ne_dom hb (by decide) d w hd hw)).trans
        (h5 _ (terr_dom_far hb d w hd hw) (terr_ne_dom hb (by decide) d w hd hw))).trans (hu4 _)) (0x090 + b / 16)).trans hp
    obtain ⟨e1, e2, e3, e4⟩ := terrEvent_shows b (bit' := Ib.TERR_SHADOW_ERR) _ (.inr rfl) hb (by decide) hon
    refine ⟨(e4 _).trans h1, (e4 _).trans h2, e3.trans ?_, e1.trans ?_, e2⟩
    · rw [rd_wr_same, Nat.mod_eq_of_lt (by omega)]
    · rw [rd_wr_other _ _ _ _ (by simp only [Rg.TERR_SHADOW_ERR_CNT]; omega), h5 _ (by simp only [Rg.TERR_SHADOW_ERR_CNT]; omega) (by simp only [Rg.TERR_SHADOW_ERR_CNT]; omega), hu4]
  · have hstep : execNhopLive a i v s = .next (s.nhopLive i v.toNat a.clk) := by
      rw [execNhopLive, if_pos hi, onWrite_of s a _ _ hm]
    have hbit : ∀ c, c < 32 → _ := fun c hc => bit_liveSets s i (onesOf 32 v.toNat) (s.at a.clk) (fun b hb => (mem_onesOf32.1 hb).1) hi hc
    refine ⟨_, hstep, fun c hc hv => ?_, fun c hc hv hcl => ?_, fun c hc hv hcl => ?_⟩
    · exact (hbit c hc).trans (if_neg fun k => by rw [(mem_onesOf32.1 k.1).2] at hv; exact absurd hv (by decide))
    · exact (hbit c hc).trans (if_pos ⟨mem_onesOf32.2 ⟨hc, hv⟩, hcl⟩)
    · exact (hbit c hc).trans (if_neg fun k => k.2 hcl)
  · have hstep : execNhopLiveClr a i v s = .next (s.nhopLiveClr i v.toNat) := by
      rw [execNhopLiveClr, if_pos hi, onWrite_of s a _ _ hm]
    obtain ⟨h1, h2⟩ := liveClrs_shows s i (onesOf 32 v.toNat) fun b hb => (mem_onesOf32.1 hb).1
    refine ⟨_, hstep, fun c hc => (h1 c hc).trans ?_, h2⟩
    simp [mem_onesOf32, hc]
  · exact congrArg Host.Outcome.next (by rw [State.livenessClear, if_pos hup])
  · have hstep : s.livenessClear p clk = s.hwClear w (s.at clk) := by
      rw [State.livenessClear, if_neg hdown, hws, List.foldl_cons, List.foldl_nil]
    exact ⟨_, congrArg Host.Outcome.next hstep, hwClear_shows s w (s.at clk) (watchesOf_lt (hws ▸ List.mem_singleton_self w)) hp hlive⟩

end Sys2Proof.Machine
end

section
-- One after another: each `decide +kernel` below waits for every earlier proof, on a thread of its own.
set_option Elab.async false
/-! SUPPORT. A notification record that does not fit its registers (R175). -/
namespace Sys2Proof.Machine

/-- The notification FIFO with a first word of 33 bits. -/
def longNote : State := { State.reset with ln := { State.reset.ln with notes := [(2 ^ 32, 0, 0, 0)] } }

/-- A host read at clock 0. -/
def hostRead : Acc := { req := .pcie0, user := false, be := 15, clk := 0 }

theorem longNote_read : longNote.mayRead hostRead Rg.LEARN_NOTE_W0 = true ∧ longNote.fb Rg.DMA_NOTE_CFG Fd.DMA_NOTE_CFG_EN = false := by decide +kernel

theorem longNote_popped : (longNote.onRead hostRead Rg.LEARN_NOTE_W0 fun t => if hostRead.user then (t, t.rd Rg.LEARN_NOTE_W0)
    else if t.fb Rg.DMA_NOTE_CFG Fd.DMA_NOTE_CFG_EN then (t.wr Rg.LEARN_NOTE_W0 0, 0) else t.learnPop).rd Rg.LEARN_NOTE_W0 = 0 := by decide +kernel

/-- Refutes O34: nothing bounds the words of a queued record. Of a record whose first word is 2^32, LEARN_NOTE_W0 holds the low 32 bits, which are 0. -/
theorem not_learningAndAging : ¬ Obligations.LearningAndAging := by
  unfold Obligations.LearningAndAging
  intro h
  obtain ⟨-, -, hpop, -⟩ := h
  obtain ⟨hmay, hoff⟩ := longNote_read
  obtain ⟨t, ht, -, -, hw0, -⟩ := (hpop longNote hostRead hmay hoff).2 (2 ^ 32) 0 0 0 [] rfl
  have hexec : exec (.learnNotePop hostRead) longNote = .next (longNote.onRead hostRead Rg.LEARN_NOTE_W0 fun t => if hostRead.user then (t, t.rd Rg.LEARN_NOTE_W0)
    else if t.fb Rg.DMA_NOTE_CFG Fd.DMA_NOTE_CFG_EN then (t.wr Rg.LEARN_NOTE_W0 0, 0) else t.learnPop) := rfl
  rw [hexec] at ht
  cases ht
  rw [longNote_popped] at hw0
  exact absurd hw0 (by decide)

end Sys2Proof.Machine
end

section
/-! SUPPORT. Issue of one instruction by a register set (R179, R184, R186, R187): its registers, its frame and its fault. -/
namespace Sys2Proof.Machine

/-- A register set of an AP: what an issue names. -/
def ApId.ok (i : ApId) : Prop := i.ap < 16 ∧ i.thread < 16 ∧ i.ctx.getD 0 < 4

section Sets
variable (s : State) (i j : ApId) (x : ApCtx)

theorem apThrKey_inj {i j : ApId} (hi : ApId.ok i) (hj : ApId.ok j) (h : apThrKey i.cluster i.ap i.thread = apThrKey j.cluster j.ap j.thread) :
    i.cluster = j.cluster ∧ i.ap = j.ap ∧ i.thread = j.thread := by
  obtain ⟨h1, h2, -⟩ := hi
  obtain ⟨k1, k2, -⟩ := hj
  simp only [apThrKey] at h
  omega

theorem apCtxKey_inj {i j : ApId} {k l : Nat} (hi : ApId.ok i) (hj : ApId.ok j) (hk : i.ctx = some k) (hl : j.ctx = some l)
    (h : apCtxKey i.cluster i.ap i.thread k = apCtxKey j.cluster j.ap j.thread l) : i = j := by
  obtain ⟨h1, h2, h3⟩ := hi
  obtain ⟨k1, k2, k3⟩ := hj
  obtain ⟨ic, ia, it, ik⟩ := i
  obtain ⟨jc, ja, jt, jk⟩ := j
  simp only at hk hl
  subst hk hl
  simp only [apCtxKey, Option.getD_some] at *
  obtain ⟨rfl, rfl, rfl, rfl⟩ : ic = jc ∧ ia = ja ∧ it = jt ∧ k = l := by omega
  rfl

@[simp] theorem ctx_setCtx_same : (s.setCtx i x).ctx i = x := by
  unfold State.setCtx State.ctx
  cases i.ctx with
  | some k => exact sget_sset_same _ _ _ _
  | none =>
    simp only [State.thr, State.setThr]
    rw [sget_sset_same]

theorem ctx_setCtx_other (hi : ApId.ok i) (hj : ApId.ok j) (hne : j ≠ i) : (s.setCtx i x).ctx j = s.ctx j := by
  unfold State.setCtx
  split
  next k hk =>
    unfold State.ctx
    cases hl : j.ctx with
    | none => rfl
    | some l => exact sget_sset_other _ _ _ _ _ _ fun h => hne (apCtxKey_inj hj hi hl hk h)
  next hk =>
    unfold State.ctx
    cases hl : j.ctx with
    | some l => rfl
    | none =>
      simp only [State.thr, State.setThr]
      rw [sget_sset_other _ _ _ _ _ _ fun h => hne ?_]
      obtain ⟨h1, h2, h3⟩ := apThrKey_inj hj hi h
      obtain ⟨ic, ia, it, ik⟩ := i
      obtain ⟨jc, ja, jt, jk⟩ := j
      simp only at hk hl h1 h2 h3
      subst hk hl h1 h2 h3
      rfl

/-- A thread's other fields are no part of a register set. -/
theorem ctx_setThr (y : ApThread) (hy : y.x = (s.thr i).x) (hi : ApId.ok i) (hj : ApId.ok j) : (s.setThr i y).ctx j = s.ctx j := by
  unfold State.ctx
  cases hl : j.ctx with
  | some l => rfl
  | none =>
    by_cases h : apThrKey j.cluster j.ap j.thread = apThrKey i.cluster i.ap i.thread
    · obtain ⟨h1, h2, h3⟩ := apThrKey_inj hj hi h
      simp only [State.thr, State.setThr, h1, h2, h3] at hy ⊢
      rw [sget_sset_same, hy]
    · simp only [State.thr, State.setThr]
      rw [sget_sset_other _ _ _ _ _ _ h]

/-- The context that issued last is no part of a register set. -/
theorem ctx_setLast (n : Nat) (hi : ApId.ok i) (hj : ApId.ok j) :
    (s.setThr { i with ctx := none } { s.thr { i with ctx := none } with last := n }).ctx j = s.ctx j :=
  ctx_setThr s { i with ctx := none } j _ rfl ⟨hi.1, hi.2.1, by simp⟩ hj

end Sets

/-! ## Frames -/

section Frame
variable {s t u : State} {i : ApId}

theorem apFrame_refl : s.apFrame s i := ⟨rfl, fun _ _ _ _ _ => rfl⟩

theorem apFrame_trans (h1 : s.apFrame t i) (h2 : t.apFrame u i) : s.apFrame u i := by
  refine ⟨?_, fun j ha hb hc hd => (h2.2 j ha hb hc hd).trans (h1.2 j ha hb hc hd)⟩
  rw [h2.1, h1.1]

theorem apFrame_setCtx (h : s.apFrame t i) (hi : ApId.ok i) (x : ApCtx) : s.apFrame (t.setCtx i x) i := by
  refine apFrame_trans h ⟨?_, fun j ha hb hc hd => ctx_setCtx_other t i j x hi ⟨ha, hb, hc⟩ hd⟩
  unfold State.setCtx
  split <;> rfl

theorem apFrame_setMark (h : s.apFrame t i) (pg m a : Nat) (e : WordErr) : s.apFrame (t.setMark pg m a e) i := apFrame_trans h ⟨rfl, fun _ _ _ _ _ => rfl⟩

theorem apFrame_setGr (h : s.apFrame t i) (hi : ApId.ok i) (n : Nat) (v : DWord) : s.apFrame (t.setGr i n v) i := by
  unfold State.setGr
  simp only []
  split
  · exact apFrame_setMark (apFrame_setCtx h hi _) _ _ _ _
  · exact apFrame_setCtx h hi _

theorem apFrame_setPc (h : s.apFrame t i) (hi : ApId.ok i) (pc : Nat) : s.apFrame (t.setPc i pc) i := apFrame_setCtx h hi _

end Frame

/-! ## Registers -/

section Gr
variable (s : State) (i : ApId)

theorem ctx_setMark (pg m a : Nat) (e : WordErr) : (s.setMark pg m a e).ctx i = s.ctx i := rfl

/-- A register written is in the set, and nothing else of the set changes. -/
theorem ctx_setGr (n : Nat) (v : DWord) : (s.setGr i n v).ctx i = (s.ctx i).setReg n v := by
  unfold State.setGr
  simp only []
  split
  · rw [ctx_setMark, ctx_setCtx_same]
  · exact ctx_setCtx_same _ _ _

theorem gr_of_regs {s t : State} (h : (t.ctx i).regs = (s.ctx i).regs) (m : Nat) : t.gr i m = s.gr i m := by rw [State.gr, State.gr, h]

theorem gr_setGr (n : Nat) (v : DWord) (m : Nat) : (s.setGr i n v).gr i m = if m = n ∧ m ≠ 0 then v else s.gr i m := by
  rw [State.gr, State.gr, ctx_setGr]
  by_cases hm : m = 0
  · simp [hm]
  · rw [if_neg hm, if_neg hm]
    by_cases hn : n = 0
    · rw [ApCtx.setReg, if_pos hn, if_neg (by omega)]
    · rw [ApCtx.setReg, if_neg hn]
      by_cases hmn : m = n
      · rw [if_pos ⟨hmn, hm⟩, hmn]
        exact sget_sset_same _ _ _ _
      · rw [if_neg (by tauto)]
        exact sget_sset_other _ _ _ _ _ _ hmn

theorem pc_setReg (x : ApCtx) (n : Nat) (v : DWord) : (x.setReg n v).pc = x.pc := by
  unfold ApCtx.setReg
  split <;> rfl

theorem ctx_setPc (pc : Nat) : (s.setPc i pc).ctx i = { s.ctx i with pc := pc % 8192 } := ctx_setCtx_same _ _ _

theorem gr_setPc (pc m : Nat) : (s.setPc i pc).gr i m = s.gr i m := gr_of_regs i (by rw [ctx_setPc]) m

end Gr

/-! ## Issue -/

/-- The state from which an instruction acts: its issue counted, its wait over, its context the last to issue in its thread. -/
def State.apBegin (s : State) (i : ApId) : State :=
  let s0 := s.setCtx i { s.ctx i with issued := (s.ctx i).issued + 1, wait := 0 }
  if i.packet then s0.setThr { i with ctx := none } { s0.thr { i with ctx := none } with last := i.ctx.getD 0 } else s0

section Issue
variable {s : State} {i : ApId} {op : ApOp}

theorem apMay_ok (h : s.apMay i = true) : ApId.ok i := by
  simp only [State.apMay, Bool.and_eq_true, decide_eq_true_eq] at h
  obtain ⟨⟨⟨-, ha, ht⟩, -⟩, hc⟩ := h
  refine ⟨ha, ht, ?_⟩
  cases hctx : i.ctx with
  | none => simp
  | some k =>
    rw [hctx] at hc
    simp only [Bool.and_eq_true, decide_eq_true_eq] at hc
    exact hc.1.1

theorem apReady_ok (h : s.apReady i op) : ApId.ok i := apMay_ok h.1

theorem apBegin_ctx (hi : ApId.ok i) : (s.apBegin i).ctx i = { s.ctx i with issued := (s.ctx i).issued + 1, wait := 0 } := by
  unfold State.apBegin
  simp only []
  split
  · exact (ctx_setLast _ i i _ hi hi).trans (ctx_setCtx_same _ _ _)
  · exact ctx_setCtx_same _ _ _

theorem apBegin_frame (hi : ApId.ok i) : s.apFrame (s.apBegin i) i := by
  unfold State.apBegin
  simp only []
  split
  · exact apFrame_trans (apFrame_setCtx apFrame_refl hi _)
      ⟨rfl, fun j ha hb hc _ => ctx_setLast _ i j _ hi ⟨ha, hb, hc⟩⟩
  · exact apFrame_setCtx apFrame_refl hi _

theorem apBegin_gr (hi : ApId.ok i) (m : Nat) : (s.apBegin i).gr i m = s.gr i m := gr_of_regs i (by rw [apBegin_ctx hi]) m

/-- An instruction that a register set is ready to issue is issued. -/
theorem apIssue_ready (h : s.apReady i op) (clk : Nat) : s.apIssue i op clk = State.apSettle i ((s.apBegin i).apExec i op (s.apAt i) clk) := by
  obtain ⟨hmay, hnext, hbad, hbound⟩ := h
  have hw : s.apWord i.cluster (s.ctx i).pc = s.apAt i := rfl
  have hb : (i.packet && decide ((s.ctx i).iBound ≤ (s.ctx i).issued)) = false := by
    cases hp : i.packet with
    | false => rfl
    | true => simpa using hbound hp
  unfold State.apIssue
  rw [if_pos (by rw [hmay, hnext]; simp)]
  unfold State.apRun
  simp only [hw, hbad, hb, hnext, Bool.false_eq_true, if_false]
  rfl

/-- An instruction whose effect is one general register. -/
theorem apWrites_of {c : Instr} {clk n : Nat} {v : DWord} (h : s.apReady i op) (hc : exec c s = .next (s.apIssue i op clk))
    (he : (s.apBegin i).apExec i op (s.apAt i) clk = .go ((s.apBegin i).setGr i n v)) : s.apWrites c i n v ((s.ctx i).pc + 1) := by
  have hi := apReady_ok h
  have hpc : (((s.apBegin i).setGr i n v).ctx i).pc = (s.ctx i).pc := by rw [ctx_setGr, pc_setReg, apBegin_ctx hi]
  refine ⟨_, hc.trans (congrArg Host.Outcome.next ((apIssue_ready h clk).trans (congrArg (State.apSettle i) he))), fun m => ?_, ?_, ?_⟩
  · rw [State.apSettle, gr_setPc, gr_setGr, apBegin_gr hi]
  · rw [State.apSettle, ctx_setPc, hpc]
  · exact apFrame_setPc (apFrame_setGr (apBegin_frame hi) hi _ _) hi _

end Issue

end Sys2Proof.Machine
end

section
/-! SUPPORT. The functions of the ALU, immediate and bit-field instructions (R192). -/
namespace Sys2Proof.Machine

/-- The halfwords of a value. -/
def halfSum (v : Nat) : Nat := v % 65536 + v / 65536 % 65536 + v / 4294967296 % 65536 + v / 281474976710656 % 65536

/-- The halfwords of a 64-bit value add up to it modulo 65,535, and to 0 only for 0. -/
theorem halfSum_shows {v : Nat} (h : v < 18446744073709551616) : halfSum v ≤ 262140 ∧ halfSum v % 65535 = v % 65535 ∧ (halfSum v = 0 → v = 0) := by
  have h1 : v / 4294967296 = v / 65536 / 65536 := by omega
  have h2 : v / 281474976710656 = v / 65536 / 65536 / 65536 := by omega
  unfold halfSum
  rw [h1, h2]
  have e0 := Nat.div_add_mod v 65536
  generalize v / 65536 = v1 at *
  have e1 := Nat.div_add_mod v1 65536
  generalize v1 / 65536 = v2 at *
  have e2 := Nat.div_add_mod v2 65536
  generalize v2 / 65536 = v3 at *
  have l0 := Nat.mod_lt v (show 65536 > 0 by decide)
  have l1 := Nat.mod_lt v1 (show 65536 > 0 by decide)
  have l2 := Nat.mod_lt v2 (show 65536 > 0 by decide)
  have l3 : v3 % 65536 = v3 := Nat.mod_eq_of_lt (by omega)
  rw [l3]
  generalize v % 65536 = d0 at *
  generalize v1 % 65536 = d1 at *
  generalize v2 % 65536 = d2 at *
  subst e0 e1 e2
  refine ⟨by omega, by omega, by omega⟩

/-- Two end-around carries bring a sum of eight halfwords to 16 bits. -/
theorem carry_shows {t : Nat} (h : t ≤ 524280) : (t % 65536 + t / 65536) % 65536 + (t % 65536 + t / 65536) / 65536 < 65536 ∧
    ((t % 65536 + t / 65536) % 65536 + (t % 65536 + t / 65536) / 65536) % 65535 = t % 65535 ∧
    ((t % 65536 + t / 65536) % 65536 + (t % 65536 + t / 65536) / 65536 = 0 → t = 0) := by omega

/-- The sum of the 16-bit words of two values, with end-around carry: at most 16 bits, and 0 only for two zeros. -/
theorem csum_shows (a b : DWord) : (aluFn .csum a b).toNat < 65536 ∧ (aluFn .csum a b).toNat % 65535 = (a.toNat + b.toNat) % 65535 ∧
    (aluFn .csum a b = 0 → a = 0 ∧ b = 0) := by
  obtain ⟨a1, a2, a3⟩ := halfSum_shows a.isLt
  obtain ⟨b1, b2, b3⟩ := halfSum_shows b.isLt
  have hsum : (List.range 4).foldl (fun x j => x + bits a.toNat (16 * j) 16 + bits b.toNat (16 * j) 16) 0 = halfSum a.toNat + halfSum b.toNat := by
    simp only [show List.range 4 = [0, 1, 2, 3] from rfl, List.foldl_cons, List.foldl_nil, bits, halfSum]
    norm_num
    ring
  obtain ⟨c1, c2, c3⟩ := carry_shows (t := halfSum a.toNat + halfSum b.toNat) (by omega)
  have hval : (aluFn .csum a b).toNat = ((halfSum a.toNat + halfSum b.toNat) % 65536 + (halfSum a.toNat + halfSum b.toNat) / 65536) % 65536 +
      ((halfSum a.toNat + halfSum b.toNat) % 65536 + (halfSum a.toNat + halfSum b.toNat) / 65536) / 65536 := by
    unfold aluFn
    simp only [hsum]
    rw [BitVec.toNat_ofNat]
    exact Nat.mod_eq_of_lt (lt_trans c1 (by decide))
  refine ⟨hval ▸ c1, by rw [hval, c2, Nat.add_mod, a2, b2, ← Nat.add_mod], fun h => ?_⟩
  have h0 : (aluFn .csum a b).toNat = 0 := by rw [h]; rfl
  have h1 := c3 (hval.symm.trans h0)
  exact ⟨BitVec.eq_of_toNat_eq (a3 (by omega)), BitVec.eq_of_toNat_eq (b3 (by omega))⟩

theorem popcount_eq (n v : Nat) : popcount n v = (List.range n).countP fun j => bit v j := by
  induction n with
  | zero => rfl
  | succ n ih =>
    rw [List.range_succ, List.countP_append, popcount, ih, List.countP_singleton, Nat.add_comm]
    rfl

theorem bit_toNat (a : DWord) (j : Nat) : bit a.toNat j = a.getLsbD j := by rw [bit_eq_testBit, BitVec.getLsbD]

theorem popc_eq (a b : DWord) : aluFn .popc a b = BitVec.ofNat 64 ((List.range 64).countP fun j => a.getLsbD j) := by
  simp only [aluFn, popcount_eq, bit_toNat]

/-- The leading zeros of a value. -/
theorem clz_shows (a : DWord) (n : Nat) (hn : n = if a = 0 then 64 else 63 - a.toNat.log2) : n ≤ 64 ∧
    (∀ j, 64 - n ≤ j → j < 64 → a.getLsbD j = false) ∧ (n < 64 → a.getLsbD (63 - n) = true) := by
  by_cases h0 : a = 0
  · rw [if_pos h0] at hn
    subst hn h0
    exact ⟨le_rfl, fun j _ _ => BitVec.getLsbD_zero, fun h => absurd h (by decide)⟩
  · rw [if_neg h0] at hn
    have hne : a.toNat ≠ 0 := fun h => h0 (BitVec.eq_of_toNat_eq h)
    have hlog : a.toNat.log2 < 64 := (Nat.log2_lt hne).2 a.isLt
    refine ⟨by omega, fun j hj _ => ?_, fun _ => ?_⟩
    · rw [BitVec.getLsbD]
      exact Nat.testBit_lt_two_pow (lt_of_lt_of_le Nat.lt_log2_self (Nat.pow_le_pow_right (by decide) (by omega)))
    · rw [show 63 - n = a.toNat.log2 by omega, BitVec.getLsbD]
      exact Nat.testBit_log2 hne

theorem sar_eq (a b : DWord) : aluFn .sar a b = BitVec.ofInt 64 (a.toInt / 2 ^ (b.toNat % 64)) := by
  simp only [aluFn, BitVec.sshiftRight, Int.shiftRight_eq_div_pow]
  norm_num

theorem mul_eq (a b : DWord) : aluFn .mul a b = BitVec.ofNat 64 (a.toNat * b.toNat) := BitVec.eq_of_toNat_eq (by simp [aluFn])

/-- A value of which one field is replaced. -/
theorem ofNat_setBits (v lo w x j : Nat) (hj : j < 64) :
    (BitVec.ofNat 64 (setBits v lo w x)).getLsbD j = if lo ≤ j ∧ j < lo + w then x.testBit (j - lo) else v.testBit j := by
  rw [BitVec.getLsbD_ofNat, testBit_setBits]
  simp [hj]

section Issued
variable {s : State} {i : ApId} {op : ApOp}

/-- An ALU instruction that a register set is ready to issue. -/
theorem apWrites_alu {c : Instr} {v : DWord} (h : s.apReady i op) (hc : exec c s = .next (s.apIssue i op 0))
    (he : ∀ t : State, t.apExec i op (s.apAt i) 0 = t.apAlu i op (s.apAt i))
    (hv : aluFn op (s.gr i (fRa (s.apAt i))) (s.gr i (fRb (s.apAt i))) = v) : s.apWrites c i (fRd (s.apAt i)) v ((s.ctx i).pc + 1) :=
  apWrites_of h hc (by rw [he, State.apAlu, apBegin_gr (apReady_ok h), apBegin_gr (apReady_ok h), hv])

theorem apWrites_imm {c : Instr} {v : DWord} (h : s.apReady i op) (hc : exec c s = .next (s.apIssue i op 0))
    (he : ∀ t : State, t.apExec i op (s.apAt i) 0 = t.apImm i op (s.apAt i))
    (hv : immFn op (s.gr i (fRa (s.apAt i))) (fImm (s.apAt i)) = v) : s.apWrites c i (fRd (s.apAt i)) v ((s.ctx i).pc + 1) :=
  apWrites_of h hc (by rw [he, State.apImm, apBegin_gr (apReady_ok h), hv])

theorem fImm_mod (w : Nat) : fImm w % 64 = w % 64 := by
  rw [fImm, bits]
  omega

theorem apWrites_movk (h : s.apReady i .movk) : s.apWrites (.movk i) i (fRd (s.apAt i))
    (BitVec.ofNat 64 (setBits (s.gr i (fRd (s.apAt i))).toNat (16 * (fRa (s.apAt i) % 4)) 16 (fImm (s.apAt i)))) ((s.ctx i).pc + 1) :=
  apWrites_of (clk := 0) h rfl (by rw [show (s.apBegin i).apExec i .movk (s.apAt i) 0 = (s.apBegin i).apMovk i (s.apAt i) from rfl, State.apMovk, apBegin_gr (apReady_ok h)])

theorem apWrites_ext (h : s.apReady i .ext) : s.apWrites (.ext i) i (fRd (s.apAt i))
    (BitVec.ofNat 64 (bits (s.gr i (fRa (s.apAt i))).toNat (bits (s.apAt i) 10 6) (bits (s.apAt i) 4 6 + 1))) ((s.ctx i).pc + 1) :=
  apWrites_of (clk := 0) h rfl (by rw [show (s.apBegin i).apExec i .ext (s.apAt i) 0 = (s.apBegin i).apExt i (s.apAt i) from rfl, State.apExt, apBegin_gr (apReady_ok h)])

theorem apWrites_ins (h : s.apReady i .ins) : s.apWrites (.ins i) i (fRd (s.apAt i))
    (BitVec.ofNat 64 (setBits (s.gr i (fRd (s.apAt i))).toNat (bits (s.apAt i) 10 6) (bits (s.apAt i) 4 6 + 1) (s.gr i (fRa (s.apAt i))).toNat))
    ((s.ctx i).pc + 1) :=
  apWrites_of (clk := 0) h rfl (by rw [show (s.apBegin i).apExec i .ins (s.apAt i) 0 = (s.apBegin i).apIns i (s.apAt i) from rfl, State.apIns, apBegin_gr (apReady_ok h), apBegin_gr (apReady_ok h)])

end Issued

/-- Settles O35: every such instruction ends by writing its function of the registers it reads. -/
theorem apArithmetic : Obligations.ApArithmetic := by
  unfold Obligations.ApArithmetic
  rintro s i w rd p a b d rfl rfl rfl rfl rfl rfl
  refine ⟨fun h => apWrites_alu h rfl (fun _ => rfl) rfl, fun h => apWrites_alu h rfl (fun _ => rfl) rfl, fun h => apWrites_alu h rfl (fun _ => rfl) rfl,
    fun h => apWrites_alu h rfl (fun _ => rfl) rfl, fun h => apWrites_alu h rfl (fun _ => rfl) rfl, fun h => apWrites_alu h rfl (fun _ => rfl) rfl,
    fun h => apWrites_alu h rfl (fun _ => rfl) rfl, fun h => apWrites_alu h rfl (fun _ => rfl) (sar_eq _ _),
    fun h => apWrites_alu h rfl (fun _ => rfl) (mul_eq _ _), fun h => apWrites_alu h rfl (fun _ => rfl) rfl,
    fun h => apWrites_alu h rfl (fun _ => rfl) rfl, fun h => apWrites_alu h rfl (fun _ => rfl) rfl,
    fun h => ⟨_, apWrites_alu h rfl (fun _ => rfl) rfl, csum_shows _ _⟩, fun h => apWrites_alu h rfl (fun _ => rfl) (popc_eq _ _),
    fun h => ⟨_, apWrites_alu h rfl (fun _ => rfl) rfl, clz_shows _ _ rfl⟩,
    fun h => apWrites_imm h rfl (fun _ => rfl) rfl, fun h => apWrites_imm h rfl (fun _ => rfl) rfl, fun h => apWrites_imm h rfl (fun _ => rfl) rfl,
    fun h => apWrites_imm h rfl (fun _ => rfl) rfl, fun h => apWrites_imm h rfl (fun _ => rfl) (by simp only [immFn, fImm_mod]),
    fun h => apWrites_imm h rfl (fun _ => rfl) (by simp only [immFn, fImm_mod]),
    fun h => ⟨_, apWrites_movk h, fun j hj => ?_⟩, fun h => ⟨_, apWrites_ext h, fun j hj => ?_⟩, fun h => ⟨_, apWrites_ins h, fun j hj => ?_⟩⟩
  · rw [ofNat_setBits _ _ _ _ _ hj, BitVec.getLsbD]
    by_cases hf : j / 16 = fRa (s.apAt i) % 4
    · rw [if_pos hf, if_pos (by omega), show j - 16 * (fRa (s.apAt i) % 4) = j % 16 by omega]
    · rw [if_neg hf, if_neg (by omega)]
  · rw [BitVec.getLsbD_ofNat, testBit_bits, BitVec.getLsbD]
    simp [hj]
  · rw [ofNat_setBits _ _ _ _ _ hj, BitVec.getLsbD, BitVec.getLsbD]
    simp only [← Nat.add_assoc, Nat.lt_succ_iff]

end Sys2Proof.Machine
end

section
/-! SUPPORT. The fault of a register set (R199, R200, R202): what it leaves, the fence that it may cause included. -/
namespace Sys2Proof.Machine

/-! ## What the end of a context and a fence keep -/

/-- The fault counters of the clusters, and the registers that say which domains are on. -/
def faultReg (x : Nat) : Bool :=
  decide ((0x60 ≤ x / 0x1000 ∧ x / 0x1000 < 0x72 ∧ (x % 0x1000 = 0x228 ∨ x % 0x1000 = 0x22C)) ∨
    ((x / 0x1000 = 0xE0 ∨ x / 0x1000 = 0x10B0) ∧ (x % 0x1000 = 0x108 ∨ x % 0x1000 = 0x10C)))

theorem faultReg_iff {x : Nat} : faultReg x = true ↔ (0x60 ≤ x / 0x1000 ∧ x / 0x1000 < 0x72 ∧ (x % 0x1000 = 0x228 ∨ x % 0x1000 = 0x22C)) ∨
    ((x / 0x1000 = 0xE0 ∨ x / 0x1000 = 0x10B0) ∧ (x % 0x1000 = 0x108 ∨ x % 0x1000 = 0x10C)) := decide_eq_true_iff

theorem faultReg_own {x : Nat} (h : faultReg x = true) : ownReg x = true := by
  rw [faultReg_iff] at h
  rw [ownReg_iff]
  omega

/-- Fault counters, domains, threads and supervisor queues stay, and a context that has ended stays so. -/
structure State.faultKeeps (s t : State) : Prop where
  rd : ∀ x, faultReg x = true → t.rd x = s.rd x
  thr : t.apThr = s.apThr
  sup : t.apSup = s.apSup
  ended : ∀ i, ApId.ok i → i.packet = true → s.ctx i = {} → t.ctx i = {}
  part : t.part = s.part
  pw : t.pw = s.pw

theorem ctx_of_apCtx {s t : State} (h : t.apCtx = s.apCtx) {i : ApId} (hi : i.packet = true) : t.ctx i = s.ctx i := by
  cases hc : i.ctx with
  | none => simp [ApId.packet, hc] at hi
  | some k =>
    unfold State.ctx
    rw [hc]
    simp only [h]

namespace State.faultKeeps
variable {s t u : State}

theorem refl (s : State) : s.faultKeeps s := ⟨fun _ _ => rfl, rfl, rfl, fun _ _ _ h => h, rfl, rfl⟩

theorem trans (h1 : s.faultKeeps t) (h2 : t.faultKeeps u) : s.faultKeeps u :=
  ⟨fun x hx => (h2.rd x hx).trans (h1.rd x hx), h2.thr.trans h1.thr, h2.sup.trans h1.sup, fun i hi hp h => h2.ended i hi hp (h1.ended i hi hp h),
    h2.part.trans h1.part, h2.pw.trans h1.pw⟩

theorem ite {c : Prop} [Decidable c] (h1 : s.faultKeeps t) (h2 : s.faultKeeps u) : s.faultKeeps (if c then t else u) := by split <;> assumption

theorem foldl {β : Type} {f : State → β → State} (l : List β) (hf : ∀ (u : State), ∀ x ∈ l, u.faultKeeps (f u x)) (h : s.faultKeeps t) : s.faultKeeps (l.foldl f t) := by
  induction l generalizing t with
  | nil => exact h
  | cons x l ih => exact ih (fun u y hy => hf u y (List.mem_cons_of_mem _ hy)) (h.trans (hf t x List.mem_cons_self))

theorem ofParts (hrd : ∀ x, faultReg x = true → t.rd x = s.rd x) (hthr : t.apThr = s.apThr) (hsup : t.apSup = s.apSup) (hctx : t.apCtx = s.apCtx)
    (hpart : t.part = s.part) (hpw : t.pw = s.pw) : s.faultKeeps t := ⟨hrd, hthr, hsup, fun _ _ hp h => (ctx_of_apCtx hctx hp).trans h, hpart, hpw⟩

theorem regs (h : s.faultKeeps t) {P : Nat → Bool} (h2 : State.onlyRegs P t u) (hP : ∀ x, faultReg x = true → P x = false) : s.faultKeeps u :=
  h.trans (ofParts (fun x hx => h2.2 x (hP x hx)) (onlyRegs_proj h2 State.apThr (fun _ _ _ _ _ => rfl)) (onlyRegs_proj h2 State.apSup (fun _ _ _ _ _ => rfl))
    (onlyRegs_proj h2 State.apCtx (fun _ _ _ _ _ => rfl)) (onlyRegs_part h2) (onlyRegs_proj h2 State.pw (fun _ _ _ _ _ => rfl)))

theorem wr (h : s.faultKeeps t) {a v : Nat} (ha : faultReg a = false) : s.faultKeeps (t.wr a v) :=
  h.regs (onlyRegs_wr (P := fun x => x == a) t a v (beq_self_eq_true a)) fun x hx => beq_eq_false_iff_ne.2 fun he => by rw [he, ha] at hx; exact absurd hx (by decide)

theorem setF (h : s.faultKeeps t) {a v : Nat} {fl : Fld} (ha : faultReg a = false) : s.faultKeeps (t.setF a fl v) := h.wr ha

theorem setInt (h : s.faultKeeps t) {pg b : Nat} (hg : pg % 0x1000 = 0) : s.faultKeeps (t.setInt pg b) :=
  h.regs (onlyRegs_setInt t pg b) fun _ hx => intReg_of_own hg (faultReg_own hx)

theorem bump (h : s.faultKeeps t) {a n : Nat} (hlt : a % 0x1000 < 0x800) (ha : faultReg a = false) : s.faultKeeps (t.bump a n) :=
  h.regs (onlyRegs_bump t a n hlt) fun x hx => Bool.or_eq_false_iff.2
    ⟨beq_eq_false_iff_ne.2 fun he => by rw [he, ha] at hx; exact absurd hx (by decide), cntReg_of_own (Nat.mul_mod_left _ _) (faultReg_own hx)⟩

theorem log (h : s.faultKeeps t) {pg code data : Nat} : s.faultKeeps (t.log pg code data) := by
  have he := eventFrame_log t pg code data
  have hrd : ∀ x, faultReg x = true → (t.log pg code data).rd x = t.rd x := fun x hx => rd_log_own (faultReg_own hx) (by
    rw [faultReg_iff] at hx
    omega)
  generalize t.log pg code data = u at he hrd ⊢
  refine h.trans (ofParts hrd ?_ ?_ ?_ ?_ ?_) <;> rw [he.1]

theorem setSlice (h : s.faultKeeps t) {d i : Nat} {x : SliceSt} : s.faultKeeps (t.setSlice d i x) := h.trans (ofParts (fun _ _ => rfl) rfl rfl rfl rfl rfl)

theorem setMove (h : s.faultKeeps t) {d : Nat} {m : Option Move} : s.faultKeeps (t.setMove d m) :=
  h.trans (.ite (ofParts (fun _ _ => rfl) rfl rfl rfl rfl rfl) (ofParts (fun _ _ => rfl) rfl rfl rfl rfl rfl))

theorem setEvac (h : s.faultKeeps t) {d : Nat} {m : Option Evac} : s.faultKeeps (t.setEvac d m) :=
  h.trans (.ite (ofParts (fun _ _ => rfl) rfl rfl rfl rfl rfl) (ofParts (fun _ _ => rfl) rfl rfl rfl rfl rfl))

theorem setTbl (h : s.faultKeeps t) {pg m i v : Nat} : s.faultKeeps (t.setTbl pg m i v) := h.trans (ofParts (fun _ _ => rfl) rfl rfl rfl rfl rfl)

theorem freeBuf (h : s.faultKeeps t) {k : Pkt} : s.faultKeeps (t.freeBuf k) :=
  h.regs (freeBuf_onlyRegs t k) fun x hx => by
    rw [faultReg_iff] at hx
    exact sbufReg_of_off (by omega) (by omega)

/-! ### The end of a context (R195) -/

theorem setChan (h : s.faultKeeps t) {c ch : Nat} {l : List ChanSlot} : s.faultKeeps (t.setChan c ch l) := by
  have h1 : ∀ x, s.faultKeeps { t with chans := x } := fun x => h.trans (ofParts (fun _ _ => rfl) rfl rfl rfl rfl rfl)
  have hrev : faultReg (Rg.APC_CHAN_REVOKE_CNT c) = false := by
    rw [← Bool.not_eq_true, faultReg_iff]
    simp only [Rg.APC_CHAN_REVOKE_CNT, Pg.APC]
    omega
  have hcfg : faultReg (Rg.APC_CHAN_CFG c (ch % 64)) = false := by
    rw [← Bool.not_eq_true, faultReg_iff]
    simp only [Rg.APC_CHAN_CFG, Pg.APC]
    omega
  exact setF (.ite (h1 _) ((h1 _).bump (by simp only [Rg.APC_CHAN_REVOKE_CNT, Pg.APC]; omega) hrev)) hcfg

theorem releaseAll (h : s.faultKeeps t) {i : ApId} : s.faultKeeps (t.releaseAll i) := h.trans (ofParts (fun _ _ => rfl) rfl rfl rfl rfl rfl)

theorem revokeAll (h : s.faultKeeps t) {i : ApId} : s.faultKeeps (t.revokeAll i) := foldl _ (fun u _ _ => (refl u).setChan) h

theorem setCtx_empty (h : s.faultKeeps t) {i : ApId} (hi : ApId.ok i) (hp : i.packet = true) : s.faultKeeps (t.setCtx i {}) := by
  have hparts : (∀ x, faultReg x = true → (t.setCtx i {}).rd x = t.rd x) ∧ (t.setCtx i {}).apThr = t.apThr ∧ (t.setCtx i {}).apSup = t.apSup ∧
      (t.setCtx i {}).part = t.part ∧ (t.setCtx i {}).pw = t.pw := by
    unfold State.setCtx
    split
    · exact ⟨fun _ _ => rfl, rfl, rfl, rfl, rfl⟩
    next hc => simp [ApId.packet, hc] at hp
  obtain ⟨h1, h2, h3, h4, h5⟩ := hparts
  refine h.trans ⟨h1, h2, h3, fun j hj _ he => ?_, h4, h5⟩
  by_cases hij : j = i
  · rw [hij, ctx_setCtx_same]
  · rw [ctx_setCtx_other t i j {} hi hj hij, he]

theorem endCtx (h : s.faultKeeps t) {i : ApId} (hi : ApId.ok i) (hp : i.packet = true) : s.faultKeeps (t.endCtx i) := h.releaseAll.revokeAll.setCtx_empty hi hp

theorem killCtxs (h : s.faultKeeps t) {c : Nat} : s.faultKeeps (t.killCtxs c) := by
  refine foldl _ (fun u i hi => ?_) h
  simp only [State.clusterCtxs, List.mem_map] at hi
  obtain ⟨e, -, rfl⟩ := hi
  exact (refl u).endCtx ⟨Nat.mod_lt _ (by decide), Nat.mod_lt _ (by decide), Nat.mod_lt _ (by decide)⟩ rfl

end State.faultKeeps

/-! ### A fence (R99, R103) -/

/-- Offsets in the pages of slices and of steering: none is a fault counter or a domain register. -/
theorem faultReg_slice {d o : Nat} (i : Nat) (hd : d < 2) (hi : i < 9) (ho : o < 0x1000) : faultReg (Pg.SLICE d i + o) = false := by
  have hv := slicePg_val hd i
  rw [← Bool.not_eq_true, faultReg_iff]
  omega

theorem faultReg_page {x : Nat} (hx : x / 0x1000 < 0x60) : faultReg x = false := by
  rw [← Bool.not_eq_true, faultReg_iff]
  omega

namespace State.faultKeeps
variable {s t : State} {d i : Nat}

theorem steerStat (h : s.faultKeeps t) : s.faultKeeps t.steerStat :=
  h.regs (steerStat_onlyRegs t) fun x hx => Bool.or_eq_false_iff.2
    ⟨beq_eq_false_iff_ne.2 fun he => by rw [he] at hx; exact absurd hx (by decide), intReg_of_own (by decide) (faultReg_own hx)⟩

theorem moveReg (hd : d < 2) : faultReg (Rg.STEER_MOVE_STAT d) = false := faultReg_page (by
  rw [show Rg.STEER_MOVE_STAT d = 0x30108 + 4 * d from rfl]
  omega)

theorem moveEnd (h : s.faultKeeps t) (hd : d < 2) {r : Nat} : s.faultKeeps (t.moveEnd d r) := (h.setMove.setF (moveReg hd)).setF (moveReg hd)

theorem evacReg (hd : d < 2) : faultReg (Rg.STEER_EVAC_STAT d) = false := faultReg_page (by
  rw [show Rg.STEER_EVAC_STAT d = 0x30114 + 4 * d from rfl]
  omega)

theorem evacEnd (h : s.faultKeeps t) (hd : d < 2) {done : Bool} : s.faultKeeps (t.evacEnd d done) :=
  ((h.setEvac.setF (evacReg hd)).setF (evacReg hd)).setInt (by decide)

theorem evacMoved (h : s.faultKeeps t) (hd : d < 2) {moved : Bool} : s.faultKeeps (t.evacMoved d moved) := by
  unfold State.evacMoved
  split
  · exact h
  · have h1 : ∀ v, s.faultKeeps (if moved = true then t.setF (Rg.STEER_EVAC_STAT d) Fd.STEER_EVAC_STAT_MOVED v else t) := fun v => .ite (h.setF (evacReg hd)) h
    exact .ite ((h1 _).evacEnd hd) (.ite ((h1 _).evacEnd hd) (h1 _))

theorem fenceEvac (h : s.faultKeeps t) (hd : d < 2) : s.faultKeeps (t.fenceEvac d i) := by
  unfold State.fenceEvac
  split
  · exact .ite (h.evacEnd hd) h
  · exact h

variable (hd : d < 2) (hi : i < 9)
include hd hi

theorem abortTest (h : s.faultKeeps t) : s.faultKeeps (t.abortTest d i) := by
  have hr : faultReg (Rg.SLICE_STAT d i) = false := faultReg_slice i hd hi (by decide)
  exact .ite (((h.setF hr).setF hr).setInt (slicePg_mod d i)) h

theorem setRole (h : s.faultKeeps t) {r : Nat} : s.faultKeeps (t.setRole d i r) := (h.setF (faultReg_slice i hd hi (by decide))).steerStat

theorem dropInside (h : s.faultKeeps t) : s.faultKeeps (t.dropInside d i) := by
  have h1 := h.setSlice (d := d) (i := i) (x := { t.slice d i with inside := [] }) |>.bump (a := Rg.SLICE_FENCE_DROP_CNT d i) (n := (t.slice d i).inside.length)
    (by have := slicePg_mod d i; simp only [Rg.SLICE_FENCE_DROP_CNT]; omega) (faultReg_slice i hd hi (by decide))
  exact (ite (foldl _ (fun u _ _ => (refl u).freeBuf) h1) h1).killCtxs

omit hi in
theorem pointBucket (h : s.faultKeeps t) {idx j : Nat} (hj : j < 9) : s.faultKeeps (t.pointBucket d idx j) := by
  unfold State.pointBucket
  simp only []
  split
  · exact h.setTbl
  · refine setF ?_ (faultReg_slice j hd hj (by decide))
    split
    next ho => exact h.setTbl.setF (faultReg_slice _ hd (isSlice_lt ho).2 (by decide))
    next => exact h.setTbl

theorem fenceMove (h : s.faultKeeps t) : s.faultKeeps (t.fenceMove d i) := by
  unfold State.fenceMove
  split
  · exact h
  next m hm =>
    have h1 : s.faultKeeps ((t.unmark d m.src).moveEnd d 2) := (show s.faultKeeps (t.unmark d m.src) from h.setSlice).moveEnd hd
    have h2 : ∀ v x, s.faultKeeps (((((t.unmark d m.src).moveEnd d 2).pointBucket d m.index i).setTbl Pg.STEER d m.index v).setSlice d i x) := fun v x =>
      (h1.pointBucket hd hi).setTbl.setSlice
    simp only []
    split
    · exact h
    · split
      · split
        · exact h1.evacMoved hd
        · exact (h2 _ _).evacMoved hd
      · split
        · exact h1
        · exact h2 _ _

theorem fence (h : s.faultKeeps t) : s.faultKeeps (t.fence d i) := by
  have h2 := ((((h.abortTest hd hi).setRole hd hi (r := rlFenced)).dropInside hd hi).fenceMove hd hi).fenceEvac (i := i) hd
  unfold State.fence
  simp only []
  generalize ((((t.abortTest d i).setRole d i rlFenced).dropInside d i).fenceMove d i).fenceEvac d i = u at h2 ⊢
  exact ((h2.setSlice.bump (by decide) (by decide)).setInt (by decide)).log

/-- A fault of a slice. -/
theorem sliceFault (h : s.faultKeeps t) {src : Nat} : s.faultKeeps (t.sliceFault d i src) := by
  have h1 : ∀ v, s.faultKeeps ((t.wr (Rg.SLICE_FAULT d i) v).setInt (Pg.SLICE d i) Ib.SLICE_FAULT) := fun v =>
    (h.wr (faultReg_slice i hd hi (by decide))).setInt (slicePg_mod d i)
  unfold State.sliceFault
  simp only []
  split
  · exact h
  · split
    · exact .ite (h1 _) ((h1 _).fence hd hi)
    · exact (h1 _).bump (by have := slicePg_mod d i; simp only [Rg.SLICE_FAULT_CNT]; omega) (faultReg_slice i hd hi (by decide))

end State.faultKeeps

/-! ## Fault records and counters -/

section Record
variable (s : State) (i : ApId)

theorem apcReg {c o : Nat} (hc : c < 18) (ho : o < 0x1000) (h1 : o ≠ 0x228) (h2 : o ≠ 0x22C) : faultReg (Pg.APC c + o) = false := by
  rw [← Bool.not_eq_true, faultReg_iff]
  simp only [Pg.APC]
  omega

theorem clusterIrq_keeps {c b : Nat} {r : Option Nat} (hc : c < 18) : s.faultKeeps (s.clusterIrq c b r) := by
  have hg : Pg.APC c % 0x1000 = 0 := by simp only [Pg.APC]; omega
  have hset : ∀ u, s.faultKeeps u → s.faultKeeps (if bit ((u.setInt (Pg.APC c) b).f (Rg.APC_CFG c) Fd.APC_CFG_AP_FAULT_SRC) b then
      (u.setInt (Pg.APC c) b).sliceFault (if c < 9 then 0 else 1) (if c < 9 then c else c - 9) 2 else u.setInt (Pg.APC c) b) := fun u hu =>
    .ite ((hu.setInt hg).sliceFault (by split <;> decide) (by split <;> omega)) (hu.setInt hg)
  cases r with
  | none => exact hset s (.refl s)
  | some v => exact hset _ (.ite (((State.faultKeeps.refl s).wr (apcReg hc (by decide) (by decide) (by decide))).wr
        (apcReg (o := 0x204) hc (by decide) (by decide) (by decide))) (.refl s))

/-- The waiting supervisor of an AP sees an event: its thread alone may change. -/
theorem wfeCheck_shows (h15 : i.thread = 15) : (∀ x, (s.wfeCheck i).rd x = s.rd x) ∧ (s.wfeCheck i).apCtx = s.apCtx ∧
    (s.wfeCheck i).apSup = s.apSup ∧ ∀ k, k ≠ apThrKey i.cluster i.ap i.thread → sget {} (s.wfeCheck i).apThr k = sget {} s.apThr k := by
  unfold State.wfeCheck
  simp only [h15, if_true]
  split
  · exact ⟨fun _ => rfl, rfl, rfl, fun _ _ => rfl⟩
  · split
    · exact ⟨fun _ => rfl, rfl, rfl, fun _ _ => rfl⟩
    · refine ⟨fun _ => rfl, rfl, rfl, fun k hk => ?_⟩
      simp only [State.setThr, h15]
      exact sget_sset_other _ _ _ _ _ _ hk

theorem supEvent_shows (b : Nat) : (∀ x, (s.postEvent { i with thread := 15 } b).rd x = s.rd x) ∧ (s.postEvent { i with thread := 15 } b).apCtx = s.apCtx ∧
    (s.postEvent { i with thread := 15 } b).apSup = s.apSup ∧
    ∀ k, k ≠ apThrKey i.cluster i.ap 15 → sget {} (s.postEvent { i with thread := 15 } b).apThr k = sget {} s.apThr k := by
  have hset : ∀ (u : State) (j : ApId) (y : ApThread), (∀ x, (u.setThr j y).rd x = u.rd x) ∧ (u.setThr j y).apCtx = u.apCtx ∧ (u.setThr j y).apSup = u.apSup ∧
      ∀ k, k ≠ apThrKey j.cluster j.ap j.thread → sget {} (u.setThr j y).apThr k = sget {} u.apThr k := fun u j y =>
    ⟨fun _ => rfl, rfl, rfl, fun k hk => sget_sset_other _ _ _ _ _ _ hk⟩
  obtain ⟨h1, h2, h3, h4⟩ := hset s { i with thread := 15, ctx := none }
    { s.thr { i with thread := 15, ctx := none } with events := setBit (s.thr { i with thread := 15, ctx := none }).events b }
  unfold State.postEvent
  simp only []
  generalize s.setThr { i with thread := 15, ctx := none }
    { s.thr { i with thread := 15, ctx := none } with events := setBit (s.thr { i with thread := 15, ctx := none }).events b } = u at h1 h2 h3 h4 ⊢
  obtain ⟨k1, k2, k3, k4⟩ := wfeCheck_shows u { i with thread := 15, ctx := none } rfl
  exact ⟨fun x => (k1 x).trans (h1 x), k2.trans h2, k3.trans h3, fun k hk => (k4 k hk).trans (h4 k hk)⟩

/-- A record posted: it joins its queue where that has room. -/
theorem postFault_shows (r : Nat) (hc : i.cluster < 18) (hi : ApId.ok i) : (∀ x, faultReg x = true → (s.postFault i r).rd x = s.rd x) ∧
    (i.packet = true → s.ctx i = {} → (s.postFault i r).ctx i = {}) ∧ (i.thread ≠ 15 → (s.postFault i r).thr i = s.thr i) ∧
    ((s.sup i.cluster i.ap).faults.length < 16 → ((s.postFault i r).sup i.cluster i.ap).faults = (s.sup i.cluster i.ap).faults ++ [r]) := by
  unfold State.postFault
  simp only []
  split
  next hfull =>
    have h := (State.faultKeeps.refl s).bump (a := Rg.APC_SUP_OVF_CNT i.cluster) (n := 1) (by simp only [Rg.APC_SUP_OVF_CNT, Pg.APC]; omega)
      (apcReg hc (by decide) (by decide) (by decide)) |>.trans (clusterIrq_keeps _ (b := Ib.APC_SUP_OVERFLOW) (r := some r) hc)
    exact ⟨h.rd, h.ended i hi, fun _ => by rw [State.thr, State.thr, h.thr], fun hlt => absurd hlt (by omega)⟩
  next hroom =>
    have hset : ∀ x : ApSup, (∀ a, (s.setSup i.cluster i.ap x).rd a = s.rd a) ∧ (s.setSup i.cluster i.ap x).apCtx = s.apCtx ∧
        (s.setSup i.cluster i.ap x).apThr = s.apThr ∧ (s.setSup i.cluster i.ap x).sup i.cluster i.ap = x := fun x =>
      ⟨fun _ => rfl, rfl, rfl, sget_sset_same _ _ _ _⟩
    obtain ⟨h1, h2, h3, h4⟩ := hset { s.sup i.cluster i.ap with faults := (s.sup i.cluster i.ap).faults ++ [r] }
    generalize s.setSup i.cluster i.ap { s.sup i.cluster i.ap with faults := (s.sup i.cluster i.ap).faults ++ [r] } = u at h1 h2 h3 h4 ⊢
    obtain ⟨k1, k2, k3, k4⟩ := supEvent_shows u i 14
    refine ⟨fun x _ => (k1 x).trans (h1 x), fun hp he => (ctx_of_apCtx (k2.trans h2) hp).trans he, fun hne => ?_, fun _ => ?_⟩
    · rw [State.thr, State.thr, k4 _ (by obtain ⟨-, ht, -⟩ := hi; simp only [apThrKey]; omega), h3]
    · rw [State.sup, k3, ← State.sup, h4]

end Record

section Fault
variable {s u : State} {i : ApId}

/-- A counter of the fault page counts. -/
theorem faultCount {t : State} {a : Nat} (ha : faultReg a = true) (hp : t.pageOn (a / 0x1000) = true) : (t.bump a).rd a = (t.rd a + 1) % 2 ^ 32 := by
  have hown := faultReg_own ha
  rw [faultReg_iff] at ha
  exact bump_rd_own t a 1 hown (by omega) (by omega) hp

theorem faultKeeps_pageOn {t : State} (h : s.faultKeeps t) (g : Nat) : t.pageOn g = s.pageOn g :=
  pageOn_of_rd h.part h.pw (fun d w hd hw => h.rd _ (by
    obtain rfl | rfl : d = 0 ∨ d = 1 := by omega
    all_goals obtain rfl | rfl : w = 0 ∨ w = 1 := by omega
    all_goals decide)) g

theorem faultReg_drop {c : Nat} (hc : c < 18) : faultReg (Rg.APC_FAULT_DROP_CNT c) = true ∧ Rg.APC_FAULT_DROP_CNT c / 0x1000 = Pg.APC c / 0x1000 ∧
    Rg.APC_FAULT_DROP_CNT c / 0x1000 < 0x72 := by
  rw [faultReg_iff]
  simp only [Rg.APC_FAULT_DROP_CNT, Pg.APC]
  omega

theorem faultReg_cnt {c : Nat} (hc : c < 18) : faultReg (Rg.APC_FAULT_CNT c) = true ∧ Rg.APC_FAULT_CNT c / 0x1000 = Pg.APC c / 0x1000 ∧
    Rg.APC_FAULT_CNT c / 0x1000 < 0x72 := by
  rw [faultReg_iff]
  simp only [Rg.APC_FAULT_CNT, Pg.APC]
  omega

/-- A counter counts among what is kept. -/
theorem bump_keepsRest {a : Nat} (s : State) (ha : faultReg a = true) : s.part = (s.bump a).part ∧ (s.bump a).pw = s.pw ∧ (s.bump a).apThr = s.apThr ∧
    (s.bump a).apSup = s.apSup ∧ (s.bump a).apCtx = s.apCtx ∧ (∀ x, faultReg x = true → x ≠ a → (s.bump a).rd x = s.rd x) ∧ ∀ g, a / 0x1000 < 0x72 → (s.bump a).pageOn g = s.pageOn g := by
  have hown := faultReg_own ha
  have hlt : a % 0x1000 < 0x800 := by rw [faultReg_iff] at ha; omega
  have h := onlyRegs_bump s a 1 hlt
  exact ⟨(onlyRegs_part h).symm, onlyRegs_proj h State.pw (fun _ _ _ _ _ => rfl), onlyRegs_proj h State.apThr (fun _ _ _ _ _ => rfl),
    onlyRegs_proj h State.apSup (fun _ _ _ _ _ => rfl), onlyRegs_proj h State.apCtx (fun _ _ _ _ _ => rfl),
    fun x hx hne => rd_bump_own (faultReg_own hx) hlt hne, fun g hg => bump_pageOn s a 1 g hlt (ne_domStat_page (by rw [faultReg_iff] at ha; omega) (by omega))⟩

theorem prevBusy_apCtx (s : State) (c : Nat) : (s.prevBusy c).apCtx = s.apCtx :=
  onlyRegs_proj (onlyRegs_setF (P := fun x => x == Rg.APC_VER_STAT c) s _ _ _ (beq_self_eq_true _)) State.apCtx (fun _ _ _ _ _ => rfl)

theorem putPkt_keeps (s : State) (d n : Nat) (k : Pkt) : s.faultKeeps (s.putPkt d n k) := .setSlice (.refl s)

variable (s) (code : Nat) (hi : ApId.ok i) (hc : s.clusterOn i.cluster = true)
include hi hc

omit hi in
theorem clusterOn_iff : i.cluster < 18 ∧ s.pageOn (Pg.APC i.cluster / 0x1000) = true := by
  simpa only [State.clusterOn, Bool.and_eq_true, decide_eq_true_eq] using hc

/-- A packet context that faults ends, counted and recorded (R199). -/
theorem apFault_packet (hp : i.packet = true) : s.apFaulted (s.apFault i code) i code := by
  obtain ⟨hlt, hon⟩ := clusterOn_iff s hc
  obtain ⟨hd, hdp, hdl⟩ := faultReg_drop hlt
  obtain ⟨hf, hfp, -⟩ := faultReg_cnt hlt
  have hne : Rg.APC_FAULT_DROP_CNT i.cluster ≠ Rg.APC_FAULT_CNT i.cluster := by simp only [Rg.APC_FAULT_DROP_CNT, Rg.APC_FAULT_CNT]; omega
  have hg : Pg.APC i.cluster % 0x1000 = 0 := by simp only [Pg.APC]; omega
  have hend : ∀ u : State, (u.endCtx i).ctx i = {} := fun u => ctx_setCtx_same _ _ _
  have hver : faultReg (Rg.APC_VER_STAT i.cluster) = false := apcReg hlt (o := 0x208) (by decide) (by decide) (by decide)
  have hbegin : ∀ u : State, s.faultKeeps u → s.faultKeeps ((u.endCtx i).prevBusy i.cluster) ∧ ((u.endCtx i).prevBusy i.cluster).ctx i = {} := fun u hu =>
    ⟨(hu.endCtx hi hp).setF hver, (ctx_of_apCtx (prevBusy_apCtx _ _) hp).trans (hend u)⟩
  have hcount : ∀ u : State, s.faultKeeps u → u.ctx i = {} →
      s.apFaulted ((((u.bump (Rg.APC_FAULT_DROP_CNT i.cluster)).bump (Rg.APC_FAULT_CNT i.cluster)).setInt (Pg.APC i.cluster) Ib.APC_FAULT).postFault i
        (faultRec i code (s.ctx i).pc (s.ctx i).prog)) i code := fun u hu hctx => by
    have hpage := (faultKeeps_pageOn hu (Pg.APC i.cluster / 0x1000)).trans hon
    obtain ⟨-, -, -, d4, d5, d6, d7⟩ := bump_keepsRest u hd
    have dcnt := faultCount hd (hdp.symm ▸ hpage)
    generalize u.bump (Rg.APC_FAULT_DROP_CNT i.cluster) = v at d4 d5 d6 d7 dcnt ⊢
    obtain ⟨-, -, -, f4, f5, f6, -⟩ := bump_keepsRest v hf
    have fcnt := faultCount hf (hfp.symm ▸ (d7 _ hdl).trans hpage)
    generalize v.bump (Rg.APC_FAULT_CNT i.cluster) = w at f4 f5 f6 fcnt ⊢
    have hint := (State.faultKeeps.refl w).setInt (b := Ib.APC_FAULT) hg
    have hw : w.ctx i = {} := (ctx_of_apCtx (f5.trans d5) hp).trans hctx
    obtain ⟨k1, k2, -, k4⟩ := postFault_shows (w.setInt (Pg.APC i.cluster) Ib.APC_FAULT) i (faultRec i code (s.ctx i).pc (s.ctx i).prog) hlt hi
    have hsup : (w.setInt (Pg.APC i.cluster) Ib.APC_FAULT).sup i.cluster i.ap = s.sup i.cluster i.ap := by
      rw [State.sup, State.sup, hint.sup, f4, d4, hu.sup]
    refine ⟨fun _ => ⟨k2 hp (hint.ended i hi hp hw), ?_⟩, fun h => absurd (hp.symm.trans h) (by decide), fun _ => ⟨?_, fun hroom => ?_⟩⟩
    · rw [k1 _ hd, hint.rd _ hd, f6 _ hd hne, dcnt, hu.rd _ hd]
    · rw [k1 _ hf, hint.rd _ hf, fcnt, d6 _ hf hne.symm, hu.rd _ hf]
    · rw [hsup] at k4
      exact k4 hroom
  unfold State.apFault
  simp only [hp, if_true]
  split
  · obtain ⟨h1, h2⟩ := hbegin _ (putPkt_keeps s _ _ _)
    exact hcount _ h1 h2
  · obtain ⟨h1, h2⟩ := hbegin _ (.refl s)
    exact hcount _ h1 h2

/-- A thread that faults is FAULTED; a worker's fault is counted and recorded (R199). -/
theorem apFault_thread (hp : i.packet = false) : s.apFaulted (s.apFault i code) i code := by
  obtain ⟨hlt, hon⟩ := clusterOn_iff s hc
  obtain ⟨hf, hfp, -⟩ := faultReg_cnt hlt
  have hg : Pg.APC i.cluster % 0x1000 = 0 := by simp only [Pg.APC]; omega
  have hset : ∀ y : ApThread, (∀ x, (s.setThr i y).rd x = s.rd x) ∧ (s.setThr i y).thr i = y ∧ (s.setThr i y).apSup = s.apSup ∧
      (∀ g, (s.setThr i y).pageOn g = s.pageOn g) := fun y => ⟨fun _ => rfl, sget_sset_same _ _ _ _, rfl, fun _ => rfl⟩
  obtain ⟨h1, h2, h3, h4⟩ := hset { s.thr i with st := 4, wfe := none }
  unfold State.apFault
  simp only [hp, Bool.false_eq_true, if_false]
  generalize s.setThr i { s.thr i with st := 4, wfe := none } = u at h1 h2 h3 h4 ⊢
  split
  next h15 =>
    have h := clusterIrq_keeps u (b := Ib.APC_SUP_FAULT) (r := some (faultRec i code (s.ctx i).pc (s.ctx i).prog)) hlt
    refine ⟨fun h => absurd (hp.symm.trans h) (by decide), fun _ => ?_, fun h => absurd h (by simp [hp, h15])⟩
    rw [State.thr, h.thr, ← State.thr, h2]
  next h15 =>
    obtain ⟨-, -, f3, f4, -, -, -⟩ := bump_keepsRest u hf
    have fcnt := faultCount hf (hfp.symm ▸ (h4 _).trans hon)
    generalize u.bump (Rg.APC_FAULT_CNT i.cluster) = w at f3 f4 fcnt ⊢
    have hint := (State.faultKeeps.refl w).setInt (b := Ib.APC_FAULT) hg
    obtain ⟨k1, -, k3, k4⟩ := postFault_shows (w.setInt (Pg.APC i.cluster) Ib.APC_FAULT) i (faultRec i code (s.ctx i).pc (s.ctx i).prog) hlt hi
    have hsup : (w.setInt (Pg.APC i.cluster) Ib.APC_FAULT).sup i.cluster i.ap = s.sup i.cluster i.ap := by
      rw [State.sup, State.sup, hint.sup, f4, h3]
    refine ⟨fun h => absurd (hp.symm.trans h) (by decide), fun _ => ?_, fun _ => ⟨?_, fun hroom => ?_⟩⟩
    · rw [k3 h15, State.thr, hint.thr, f3, ← State.thr, h2]
    · rw [k1 _ hf, hint.rd _ hf, fcnt, h1]
    · rw [hsup] at k4
      exact k4 hroom

end Fault

/-! ## Instructions that fault -/

section Issue
variable {s : State} {i : ApId} {op : ApOp}

theorem apFaulted_of_frame {u t : State} {code : Nat} (h : s.apFrame u i) (hpc : (u.ctx i).pc = (s.ctx i).pc) (hprog : (u.ctx i).prog = (s.ctx i).prog)
    (hf : u.apFaulted t i code) : s.apFaulted t i code := by
  have hu : (∀ x, u.rd x = s.rd x) ∧ ∀ c a, u.sup c a = s.sup c a := by
    rw [h.1]
    exact ⟨fun _ => rfl, fun _ _ => rfl⟩
  obtain ⟨hrd, hsup⟩ := hu
  unfold State.apFaulted at hf ⊢
  simp only [hrd, hsup, hpc, hprog] at hf
  exact hf

/-- An instruction that faults from the state in which it begins. -/
theorem apFaults_of {c : Instr} {clk code : Nat} (h : s.apReady i op) (hc : exec c s = .next (s.apIssue i op clk))
    (he : (s.apBegin i).apExec i op (s.apAt i) clk = .fault (s.apBegin i) code) : s.apFaults c i code := by
  have hi := apReady_ok h
  have hframe := apBegin_frame (s := s) hi
  have hon : (s.apBegin i).clusterOn i.cluster = true := by
    have h1 : s.clusterOn i.cluster = true := by
      have := h.1
      simp only [State.apMay, Bool.and_eq_true] at this
      exact this.1.1.1
    rw [hframe.1]
    exact h1
  refine ⟨_, hc.trans (congrArg Host.Outcome.next ((apIssue_ready h clk).trans (congrArg (State.apSettle i) he))),
    apFaulted_of_frame hframe (by rw [apBegin_ctx hi]) (by rw [apBegin_ctx hi]) ?_⟩
  cases hp : i.packet with
  | true => exact apFault_packet _ code hi hon hp
  | false => exact apFault_thread _ code hi hon hp

end Issue

end Sys2Proof.Machine
end

section
/-! SUPPORT. Packet bytes, special registers and branches of the action processors (R186, R187, R189, R192). -/
namespace Sys2Proof.Machine

/-! ## How an instruction ends -/

section Ends
variable {s t : State} {i : ApId} {op : ApOp} {c : Instr} {clk : Nat}

/-- An instruction after which the next one follows. -/
theorem apGoes (h : s.apReady i op) (hc : exec c s = .next (s.apIssue i op clk)) (he : (s.apBegin i).apExec i op (s.apAt i) clk = .go t)
    (hf : (s.apBegin i).apFrame t i) (hpc : (t.ctx i).pc = (s.ctx i).pc) : ∃ u, exec c s = .next u ∧ s.apFrame u i ∧ (∀ m, u.gr i m = t.gr i m) ∧
      u.ctx i = { t.ctx i with pc := ((s.ctx i).pc + 1) % 8192 } := by
  have hi := apReady_ok h
  refine ⟨_, hc.trans (congrArg Host.Outcome.next ((apIssue_ready h clk).trans (congrArg (State.apSettle i) he))),
    apFrame_setPc (apFrame_trans (apBegin_frame hi) hf) hi _, fun m => gr_setPc _ _ _ _, ?_⟩
  exact (ctx_setPc _ _ _).trans (by rw [hpc])

/-- An instruction that jumps. -/
theorem apJumps {pc : Nat} (h : s.apReady i op) (hc : exec c s = .next (s.apIssue i op clk)) (he : (s.apBegin i).apExec i op (s.apAt i) clk = .jump t pc)
    (hf : (s.apBegin i).apFrame t i) : ∃ u, exec c s = .next u ∧ s.apFrame u i ∧ (∀ m, u.gr i m = t.gr i m) ∧ u.ctx i = { t.ctx i with pc := pc % 8192 } := by
  have hi := apReady_ok h
  exact ⟨_, hc.trans (congrArg Host.Outcome.next ((apIssue_ready h clk).trans (congrArg (State.apSettle i) he))),
    apFrame_setPc (apFrame_trans (apBegin_frame hi) hf) hi _, fun m => gr_setPc _ _ _ _, ctx_setPc _ _ _⟩

end Ends

/-! ## The packet buffer (R189) -/

/-- A big-endian number made byte by byte holds those bytes. -/
theorem bigEndian_shows (f : Nat → Nat) (hf : ∀ j, f j < 256) (n : Nat) : (List.range n).foldl (fun a j => a * 256 + f j) 0 < 2 ^ (8 * n) ∧
    ∀ j, j < n → bits ((List.range n).foldl (fun a j => a * 256 + f j) 0) (8 * (n - 1 - j)) 8 = f j := by
  induction n with
  | zero => exact ⟨Nat.one_pos, fun j hj => absurd hj (by omega)⟩
  | succ n ih =>
    obtain ⟨h1, h2⟩ := ih
    have hn := hf n
    rw [List.range_succ, List.foldl_append, List.foldl_cons, List.foldl_nil]
    generalize (List.range n).foldl (fun a j => a * 256 + f j) 0 = v at h1 h2 ⊢
    refine ⟨by rw [show 8 * (n + 1) = 8 * n + 8 by omega, Nat.pow_add]; omega, fun j hj => ?_⟩
    by_cases hjn : j = n
    · subst hjn
      rw [show j + 1 - 1 - j = 0 by omega, bits]
      omega
    · have hlt : j < n := by omega
      have hexp : 8 * (n + 1 - 1 - j) = 8 + 8 * (n - 1 - j) := by omega
      rw [← h2 j hlt, bits, bits, hexp, Nat.pow_add, ← Nat.div_div_eq_div_mul, show (v * 256 + f n) / 2 ^ 8 = v by omega]

/-- Bytes stored one after another under distinct keys. -/
theorem store_shows (P : Nat → Nat) (hP : ∀ a b, P a = P b → a = b) (n v k : Nat) (m : Sparse Byte) :
    (∀ j, j < n → sget 0 (((beBytes n v).zipIdx k).foldl (fun m b => sset 0 m (P b.2) b.1) m) (P (k + j)) = BitVec.ofNat 8 (v / 2 ^ (8 * (n - 1 - j)))) ∧
    ∀ x, (∀ j, j < n → x ≠ P (k + j)) → sget 0 (((beBytes n v).zipIdx k).foldl (fun m b => sset 0 m (P b.2) b.1) m) x = sget 0 m x := by
  induction n generalizing k m with
  | zero => exact ⟨fun j hj => absurd hj (by omega), fun _ _ => rfl⟩
  | succ n ih =>
    obtain ⟨h1, h2⟩ := ih (k + 1) (sset 0 m (P k) (BitVec.ofNat 8 (v / 2 ^ (8 * n))))
    rw [beBytes, List.zipIdx_cons, List.foldl_cons]
    refine ⟨fun j hj => ?_, fun x hx => ?_⟩
    · rcases Nat.eq_zero_or_pos j with rfl | hpos
      · exact (h2 _ fun l _ he => by have := hP _ _ he; omega).trans (sget_sset_same _ _ _ _)
      · have := h1 (j - 1) (by omega)
        rw [show k + 1 + (j - 1) = k + j by omega, show n - 1 - (j - 1) = n + 1 - 1 - j by omega] at this
        exact this
    · exact (h2 x (fun j hj => by have := hx (j + 1) (by omega); rwa [show k + 1 + j = k + (j + 1) by omega])).trans
        (sget_sset_other _ _ _ _ _ _ (hx 0 (by omega)))

/-- Bytes made zero. -/
theorem zeros_shows {α : Type} (P : α → Nat) (l : List α) (m : Sparse Byte) :
    (∀ x, sget 0 m x = 0 → sget 0 (l.foldl (fun m j => sset 0 m (P j) 0) m) x = 0) ∧ ∀ j ∈ l, sget 0 (l.foldl (fun m j => sset 0 m (P j) 0) m) (P j) = 0 := by
  have hset : ∀ (m : Sparse Byte) k x, sget 0 m x = 0 → sget 0 (sset 0 m k 0) x = 0 := fun m k x hx => by
    by_cases h : x = k
    · rw [h, sget_sset_same]
    · rw [sget_sset_other _ _ _ _ _ _ h, hx]
  induction l generalizing m with
  | nil => exact ⟨fun _ h => h, fun _ h => (List.not_mem_nil h).elim⟩
  | cons k l ih =>
    obtain ⟨h1, h2⟩ := ih (sset 0 m (P k) 0)
    refine ⟨fun x hx => h1 x (hset m _ x hx), fun j hj => ?_⟩
    rcases List.mem_cons.1 hj with rfl | hj
    · exact h1 _ (sget_sset_same _ _ _ _)
    · exact h2 j hj

theorem pos_inj {q : Int} (hq : -128 ≤ q) (a b : Nat) (h : (q + a + 128).toNat = (q + b + 128).toNat) : a = b := by omega

section Buffer
variable (x : ApCtx) (off : Int) (n : Nat)

theorem inWindow_iff (store : Bool) : x.inWindow off n store = true ↔ -128 ≤ x.start + off ∧ x.start + off + n ≤ 256 ∧ (store = true → x.start + off + n ≤ x.flen) := by
  cases store with
  | false => simp [ApCtx.inWindow, ApCtx.pos]
  | true =>
    simp only [ApCtx.inWindow, ApCtx.pos, Bool.and_eq_true, decide_eq_true_eq, Bool.not_true, Bool.false_or, forall_const, Nat.cast_zero, add_zero, and_assoc]
    exact and_congr_right' (and_congr_right' decide_eq_true_iff)

/-- A load: the bytes of the window, those beyond the frame 0. -/
theorem load_shows : x.load off n < 2 ^ (8 * n) ∧ ∀ j, j < n → bits (x.load off n) (8 * (n - 1 - j)) 8 =
    if x.start + off + j < x.flen then (sget 0 x.buf (x.start + off + j + 128).toNat).toNat else 0 := by
  have h := bigEndian_shows (fun j => if x.start + off + j < x.flen then (sget 0 x.buf (x.start + off + j + 128).toNat).toNat else 0) (fun j => by
    split
    · exact (sget 0 x.buf _).isLt
    · decide) n
  exact h

/-- A store: its bytes, and no other. -/
theorem apStore_shows (v : Nat) (hq : -128 ≤ x.start + off) : (x.store off n v).regs = x.regs ∧ (x.store off n v).pc = x.pc ∧
    (∀ j, j < n → (sget 0 (x.store off n v).buf (x.start + off + j + 128).toNat).toNat = bits v (8 * (n - 1 - j)) 8) ∧
    ∀ y : Nat, (y : Int) < x.start + off + 128 ∨ x.start + off + n + 128 ≤ y → sget 0 (x.store off n v).buf y = sget 0 x.buf y := by
  obtain ⟨h1, h2⟩ := store_shows (fun j => (x.start + off + j + 128).toNat) (pos_inj hq) n v 0 x.buf
  refine ⟨rfl, rfl, fun j hj => ?_, fun y hy => h2 y fun j hj => ?_⟩
  · have := h1 j hj
    rw [Nat.zero_add] at this
    exact (congrArg BitVec.toNat this).trans (BitVec.toNat_ofNat _ _)
  · simp only [Nat.zero_add]
    omega

/-- The window start moved within its bounds. -/
theorem shift_some (push : Bool) (h1 : -128 ≤ (if push then x.start - n else x.start + n)) (h2 : (if push then x.start - n else x.start + n) ≤ 255) :
    x.shift n push = some { x with
      start := if push then x.start - n else x.start + n
      buf := if push then (List.range n).foldl (fun m j => sset 0 m ((if push then x.start - n else x.start + n) + (j : Int) + 128).toNat 0) x.buf else x.buf } := by
  unfold ApCtx.shift
  rw [if_neg (by omega)]

theorem shift_none (push : Bool) (h : (if push then x.start - n else x.start + n) < -128 ∨ 255 < (if push then x.start - n else x.start + n)) : x.shift n push = none := by
  unfold ApCtx.shift
  exact if_pos h

end Buffer

/-! ## Special registers (R187) -/

theorem srWidth_range {d n : Nat} (h : srWidth d n ≠ 0) : 0x040 ≤ n ∧ n ≤ 0x04A := by
  unfold srWidth at h
  split at h <;> simp_all

section Special
variable (s : State) (i : ApId) (n : Nat) (v : DWord)

theorem srWrite_width (h : srWidth i.dir n ≠ 0) : s.srWrite i n v =
    some (s.setCtx i { s.ctx i with written := sset 0 (s.ctx i).written n (v.toNat % 2 ^ srWidth i.dir n + 1) }) := by
  obtain ⟨h1, h2⟩ := srWidth_range h
  unfold State.srWrite
  simp only []
  rw [if_neg (by omega), if_neg (by omega), if_neg h]

theorem srWrite_refused (h : n < 0x040 ∨ 0x050 ≤ n ∧ n < 0x063 ∨ n = 0x080 ∨ (i.thread ≠ 15 ∧ 0x081 ≤ n ∧ n ≤ 0x085)) : s.srWrite i n v = none := by
  have hw : srWidth i.dir n = 0 := by
    by_contra hw
    have := srWidth_range hw
    omega
  unfold State.srWrite
  simp only []
  rw [if_neg (by omega)]
  split
  · rw [if_pos (by omega)]
  · rfl

end Special

/-! ## Branches (R186) -/

/-- A branch row: how it is issued, and when it is taken. -/
theorem branch_row {s : State} {i : ApId} {x y : DWord} {c : Instr} {op : ApOp} {taken : Bool}
    (h : (c, op, taken) ∈ [(Instr.beq i, ApOp.beq, x == y), (Instr.bne i, ApOp.bne, x != y), (Instr.bltu i, ApOp.bltu, decide (x.toNat < y.toNat)),
      (Instr.bgeu i, ApOp.bgeu, decide (y.toNat ≤ x.toNat)), (Instr.blt i, ApOp.blt, decide (x.toInt < y.toInt)),
      (Instr.bge i, ApOp.bge, decide (y.toInt ≤ x.toInt))]) :
    exec c s = .next (s.apIssue i op 0) ∧ (∀ (t : State) (w : Nat), t.apExec i op w 0 = t.apBranch i op w) ∧ brTaken op x y = taken := by
  simp only [List.mem_cons, Prod.mk.injEq, List.not_mem_nil, or_false] at h
  rcases h with ⟨rfl, rfl, rfl⟩ | ⟨rfl, rfl, rfl⟩ | ⟨rfl, rfl, rfl⟩ | ⟨rfl, rfl, rfl⟩ | ⟨rfl, rfl, rfl⟩ | ⟨rfl, rfl, rfl⟩ <;>
    exact ⟨rfl, fun _ _ => rfl, rfl⟩

theorem unsigned13_mod (z : Int) : ((unsigned 13 z % 8192 : Nat) : Int) = z % 8192 := by
  unfold unsigned
  norm_num
  omega

/-! ## The rows -/

section Rows
variable {s : State} {i : ApId}

theorem apBegin_hOff (hi : ApId.ok i) : (s.apBegin i).hOff i (s.apAt i) = (s.gr i (fRa (s.apAt i))).toInt + signed 14 (bits (s.apAt i) 0 14) := by
  rw [State.hOff, apBegin_gr hi]

theorem apBegin_inWindow (hi : ApId.ok i) (off : Int) (n : Nat) (store : Bool) : ((s.apBegin i).ctx i).inWindow off n store = (s.ctx i).inWindow off n store := by
  rw [apBegin_ctx hi]
  rfl

theorem ldh_row {n : Nat} {off : Int} (hn : n = 2 ^ bits (s.apAt i) 14 2) (hoff : off = (s.gr i (fRa (s.apAt i))).toInt + signed 14 (bits (s.apAt i) 0 14))
    (hp : i.packet = true) (h : s.apReady i .ldh) :
    ((s.ctx i).inWindow off n false = true → s.apWrites (.ldh i) i (fRd (s.apAt i)) (BitVec.ofNat 64 ((s.ctx i).load off n)) ((s.ctx i).pc + 1)) ∧
    ((s.ctx i).inWindow off n false = false → s.apFaults (.ldh i) i 0x06) := by
  have hi := apReady_ok h
  have he : (s.apBegin i).apExec i .ldh (s.apAt i) 0 = if (s.ctx i).inWindow off n false then
      .go ((s.apBegin i).setGr i (fRd (s.apAt i)) (BitVec.ofNat 64 ((s.ctx i).load off n))) else .fault (s.apBegin i) ftWindow := by
    show (s.apBegin i).apLdh i (s.apAt i) = _
    unfold State.apLdh
    simp only [hp, apBegin_hOff hi, apBegin_inWindow hi, ← hn, ← hoff, Bool.not_true, Bool.false_eq_true, if_false]
    rw [show ((s.apBegin i).ctx i).load off n = (s.ctx i).load off n by rw [apBegin_ctx hi]; rfl]
  exact ⟨fun hw => apWrites_of h rfl (he.trans (if_pos hw)), fun hw => apFaults_of h rfl (he.trans (if_neg (by simp [hw])))⟩

theorem sth_row {n : Nat} {off : Int} (hn : n = 2 ^ bits (s.apAt i) 14 2) (hoff : off = (s.gr i (fRa (s.apAt i))).toInt + signed 14 (bits (s.apAt i) 0 14))
    (hp : i.packet = true) (h : s.apReady i .sth) :
    ((s.ctx i).inWindow off n true = true → ∃ t, exec (.sth i) s = .next t ∧ s.apFrame t i ∧ (∀ m, t.gr i m = s.gr i m) ∧ (t.ctx i).pc = ((s.ctx i).pc + 1) % 8192 ∧
      (t.ctx i).buf = ((s.ctx i).store off n (s.gr i (fRd (s.apAt i))).toNat).buf) ∧
    ((s.ctx i).inWindow off n true = false → s.apFaults (.sth i) i 0x06) := by
  have hi := apReady_ok h
  have he : (s.apBegin i).apExec i .sth (s.apAt i) 0 = if (s.ctx i).inWindow off n true then
      .go ((s.apBegin i).setCtx i (((s.apBegin i).ctx i).store off n (s.gr i (fRd (s.apAt i))).toNat)) else .fault (s.apBegin i) ftWindow := by
    show (s.apBegin i).apSth i (s.apAt i) = _
    unfold State.apSth
    simp only [hp, apBegin_hOff hi, apBegin_inWindow hi, apBegin_gr hi, ← hn, ← hoff, Bool.not_true, Bool.false_eq_true, if_false]
  refine ⟨fun hw => ?_, fun hw => apFaults_of h rfl (he.trans (if_neg (by simp [hw])))⟩
  obtain ⟨t, ht, hf, hg, hc⟩ := apGoes (c := .sth i) (clk := 0) h rfl (he.trans (if_pos hw)) (apFrame_setCtx apFrame_refl hi _) (by rw [ctx_setCtx_same, apBegin_ctx hi]; rfl)
  rw [ctx_setCtx_same] at hc
  exact ⟨t, ht, hf, fun m => (hg m).trans ((gr_of_regs i (by rw [ctx_setCtx_same]; rfl) m).trans (apBegin_gr hi m)), by rw [hc],
    by rw [hc, apBegin_ctx hi]; rfl⟩

theorem shift_row (push : Bool) {op : ApOp} {c : Instr} {n : Nat} (hn : n = (s.gr i (fRa (s.apAt i))).toNat % 256) (h : s.apReady i op)
    (hc : exec c s = .next (s.apIssue i op 0)) (ho : ∀ t : State, t.apExec i op (s.apAt i) 0 = t.apShift i (s.apAt i) push) :
    (∀ x, ((s.apBegin i).ctx i).shift n push = some x → x.pc = (s.ctx i).pc → ∃ t, exec c s = .next t ∧ s.apFrame t i ∧
      (t.ctx i).start = x.start ∧ (t.ctx i).buf = x.buf) ∧ (((s.apBegin i).ctx i).shift n push = none → s.apFaults c i 0x06) := by
  have hi := apReady_ok h
  have he := ho (s.apBegin i)
  unfold State.apShift at he
  rw [apBegin_gr hi, ← hn] at he
  refine ⟨fun x hx hpc => ?_, fun hx => apFaults_of h hc (he.trans (by rw [hx]))⟩
  obtain ⟨t, ht, hf, -, hctx⟩ := apGoes h hc (he.trans (by rw [hx])) (apFrame_setCtx apFrame_refl hi _) (by rw [ctx_setCtx_same, hpc])
  rw [ctx_setCtx_same] at hctx
  exact ⟨t, ht, hf, by rw [hctx], by rw [hctx]⟩

theorem mfs_row {clk v : Nat} (h : s.apReady i .mfs)
    (hv : (s.apBegin i).srRead i (s.apAt i % 1024) clk = (s.apBegin i, BitVec.ofNat 64 v)) :
    s.apWrites (.mfs i clk) i (fRd (s.apAt i)) (BitVec.ofNat 64 v) ((s.ctx i).pc + 1) :=
  apWrites_of h rfl (by
    show (s.apBegin i).apMfs i (s.apAt i) clk = _
    unfold State.apMfs
    rw [hv])

theorem mts_some (hi : ApId.ok i) {t : State} (h : (s.apBegin i).srWrite i (s.apAt i % 1024) (s.gr i (fRa (s.apAt i))) = some t) :
    (s.apBegin i).apExec i .mts (s.apAt i) 0 = .go t := by
  show (s.apBegin i).apMts i (s.apAt i) = _
  unfold State.apMts
  rw [apBegin_gr hi, h]

theorem mts_none (hi : ApId.ok i) (h : (s.apBegin i).srWrite i (s.apAt i % 1024) (s.gr i (fRa (s.apAt i))) = none) :
    (s.apBegin i).apExec i .mts (s.apAt i) 0 = .fault (s.apBegin i) ftSr := by
  show (s.apBegin i).apMts i (s.apAt i) = _
  unfold State.apMts
  rw [apBegin_gr hi, h]

end Rows

/-- Settles O36: from the state in which an instruction begins, which has the set's registers and packet bytes, each ends as its row says. -/
theorem apMemoryAndBranches : Obligations.ApMemoryAndBranches := by
  unfold Obligations.ApMemoryAndBranches
  rintro s i w rd p a b rfl rfl rfl rfl rfl
  refine ⟨fun n q hn hq hp => ⟨fun h => ?_, fun h => ?_⟩, fun n hn => ⟨fun h => ?_, fun h => ?_⟩, fun clk h => ?_, fun h => ?_,
    fun x y c op taken off hx hy hoff hrow h => ?_, fun h => ?_, fun h => ?_⟩
  · obtain ⟨h1, h2⟩ := ldh_row hn rfl hp h
    obtain ⟨l1, l2⟩ := load_shows (s.ctx i) ((s.gr i (fRa (s.apAt i))).toInt + signed 14 (bits (s.apAt i) 0 14)) n
    have h8 : n ≤ 8 := by
      have : bits (s.apAt i) 14 2 < 4 := bits_lt _ _ _
      rw [hn]
      generalize bits (s.apAt i) 14 2 = e at this
      interval_cases e <;> decide
    rw [← hq] at l2
    refine ⟨fun ha hb => ⟨_, h1 ((inWindow_iff _ _ _ _).2 ⟨by omega, by omega, fun h => absurd h (by decide)⟩), ?_, fun j hj => ?_⟩, fun hout => h2 ?_⟩
    · rw [BitVec.toNat_ofNat, Nat.mod_eq_of_lt (lt_of_lt_of_le l1 (Nat.pow_le_pow_right (by decide) (by omega)))]
      exact l1
    · rw [BitVec.toNat_ofNat, Nat.mod_eq_of_lt (lt_of_lt_of_le l1 (Nat.pow_le_pow_right (by decide) (by omega)))]
      exact l2 j hj
    · rw [← Bool.not_eq_true, inWindow_iff]
      omega
  · obtain ⟨h1, h2⟩ := sth_row hn rfl hp h
    refine ⟨fun ha hb hc => ?_, fun hout => h2 ?_⟩
    · obtain ⟨t, ht, hf, hg, hpc, hbuf⟩ := h1 ((inWindow_iff _ _ _ _).2 ⟨by omega, by omega, fun _ => by omega⟩)
      obtain ⟨-, -, b1, b2⟩ := apStore_shows (s.ctx i) ((s.gr i (fRa (s.apAt i))).toInt + signed 14 (bits (s.apAt i) 0 14)) n
        (s.gr i (fRd (s.apAt i))).toNat (by omega)
      rw [← hbuf, ← hq] at b1 b2
      exact ⟨t, ht, hf, hg, hpc, b1, b2⟩
    · rw [← Bool.not_eq_true, inWindow_iff]
      intro hin
      obtain ⟨k1, k2, k3⟩ := hin
      have := k3 rfl
      omega
  · obtain ⟨h1, h2⟩ := shift_row true (c := .hpush i) hn h rfl (fun _ => rfl)
    have hi := apReady_ok h
    refine ⟨fun ha hb => ?_, fun hout => h2 (shift_none _ _ _ (by rw [apBegin_ctx hi]; exact .inl hout))⟩
    obtain ⟨t, ht, hf, hstart, hbuf⟩ := h1 _ (shift_some _ _ _ (by rw [apBegin_ctx hi]; exact ha) (by rw [apBegin_ctx hi]; exact hb)) (by rw [apBegin_ctx hi])
    refine ⟨t, ht, hf, by rw [hstart, apBegin_ctx hi]; rfl, fun j hj => ?_⟩
    rw [hbuf, apBegin_ctx hi]
    simp only [if_true]
    exact (zeros_shows (fun j : Int => ((s.ctx i).start - n + j + 128).toNat) _ (s.ctx i).buf).2 j (by simpa using hj)
  · obtain ⟨h1, h2⟩ := shift_row false (c := .hpop i) hn h rfl (fun _ => rfl)
    have hi := apReady_ok h
    refine ⟨fun ha hb => ?_, fun hout => h2 (shift_none _ _ _ (by rw [apBegin_ctx hi]; exact .inr hout))⟩
    obtain ⟨t, ht, hf, hstart, hbuf⟩ := h1 _ (shift_some _ _ _ (by rw [apBegin_ctx hi]; exact ha) (by rw [apBegin_ctx hi]; exact hb)) (by rw [apBegin_ctx hi])
    exact ⟨t, ht, hf, by rw [hstart, apBegin_ctx hi]; rfl, by rw [hbuf, apBegin_ctx hi]; rfl⟩
  · have hi := apReady_ok h
    have htick : (s.apBegin i).tickCount = s.tickCount := by rw [(apBegin_frame hi).1]; rfl
    refine ⟨fun hw => mfs_row h ?_, fun hw => mfs_row h ?_, fun hw => mfs_row h ?_, fun hw => mfs_row h ?_⟩ <;> rw [hw] <;> unfold State.srRead <;> simp only []
    · rw [if_pos trivial]
    · rw [if_neg (by decide), if_pos trivial, apBegin_ctx hi]
    · rw [if_neg (by decide), if_neg (by decide), if_pos trivial, htick]
    · rw [if_neg (by decide), if_neg (by decide), if_neg (by decide), if_pos trivial]
  · have hi := apReady_ok h
    refine ⟨fun hw => ?_, fun hw => apFaults_of h rfl (mts_none hi (srWrite_refused _ _ _ _ hw))⟩
    obtain ⟨t, ht, hf, hg, hc⟩ := apGoes (c := .mts i) (clk := 0) h rfl (mts_some hi (srWrite_width _ _ _ _ hw)) (apFrame_setCtx apFrame_refl hi _)
      (by rw [ctx_setCtx_same, apBegin_ctx hi])
    rw [ctx_setCtx_same] at hc
    refine ⟨t, ht, hf, fun m => (hg m).trans ((gr_of_regs i (by rw [ctx_setCtx_same]) m).trans (apBegin_gr hi m)), ?_, by rw [hc]⟩
    rw [hc, ApCtx.sr]
    simp only [sget_sset_same]
    simp
  · obtain ⟨hc, he, htak⟩ := branch_row hrow
    have hi := apReady_ok h
    have hex : (s.apBegin i).apExec i op (s.apAt i) 0 = if !taken then .go (s.apBegin i) else if i.packet && decide (off ≤ 0) then .fault (s.apBegin i) ftBack
        else .jump (s.apBegin i) (unsigned 13 (((s.ctx i).pc : Int) + off)) := by
      rw [he]
      unfold State.apBranch
      simp only [apBegin_gr hi, ← hx, ← hy, htak, ← hoff]
      rw [apBegin_ctx hi]
    refine ⟨fun hn => ?_, fun ht hfwd => ?_, fun ht hp hback => apFaults_of h hc (hex.trans (by rw [ht, hp]; simp [hback]))⟩
    · obtain ⟨t, ht, hf, hg, hctx⟩ := apGoes h hc (hex.trans (by rw [hn]; rfl)) apFrame_refl (by rw [apBegin_ctx hi])
      exact ⟨t, ht, hf, fun m => (hg m).trans (apBegin_gr hi m), by rw [hctx]⟩
    · have hjump : (i.packet && decide (off ≤ 0)) = false := by
        rcases hfwd with h | h
        · rw [h, Bool.false_and]
        · simp [h]
      obtain ⟨t, ht, hf, hg, hctx⟩ := apJumps h hc (hex.trans (by rw [ht, hjump]; rfl)) apFrame_refl
      exact ⟨t, ht, hf, fun m => (hg m).trans (apBegin_gr hi m), by rw [hctx]; exact unsigned13_mod _⟩
  · have hi := apReady_ok h
    have he : (s.apBegin i).apExec i .jal (s.apAt i) 0 = if i.packet then .fault (s.apBegin i) ftMode else
        .jump ((s.apBegin i).setGr i (fRd (s.apAt i)) (BitVec.ofNat 64 ((s.ctx i).pc + 1))) (s.apAt i % 8192) := by
      show (s.apBegin i).apJal i (s.apAt i) = _
      unfold State.apJal
      rw [apBegin_ctx hi]
    refine ⟨fun hp => ?_, fun hp => apFaults_of h rfl (he.trans (if_pos hp))⟩
    obtain ⟨t, ht, hf, hg, hctx⟩ := apJumps (c := .jal i) (clk := 0) h rfl (he.trans (if_neg (by simp [hp]))) (apFrame_setGr apFrame_refl hi _ _)
    exact ⟨t, ht, fun m => by rw [hg, gr_setGr, apBegin_gr hi], by rw [hctx], hf⟩
  · have hi := apReady_ok h
    have he : (s.apBegin i).apExec i .jr (s.apAt i) 0 = if i.packet then .fault (s.apBegin i) ftMode else
        .jump (s.apBegin i) ((s.gr i (fRa (s.apAt i))).toNat % 8192) := by
      show (s.apBegin i).apJr i (s.apAt i) = _
      unfold State.apJr
      rw [apBegin_gr hi]
    refine ⟨fun hp => ?_, fun hp => apFaults_of h rfl (he.trans (if_pos hp))⟩
    obtain ⟨t, ht, hf, hg, hctx⟩ := apJumps (c := .jr i) (clk := 0) h rfl (he.trans (if_neg (by simp [hp]))) apFrame_refl
    exact ⟨t, ht, hf, fun m => (hg m).trans (apBegin_gr hi m), by rw [hctx]; exact Nat.mod_mod _ _⟩

end Sys2Proof.Machine
end

section
/-! SUPPORT. Tickets, locks and channels of the action processors (R193, R197, R198). -/
namespace Sys2Proof.Machine

/-! ## An operation issued on a ticket (R193) -/

section Ticket
variable {s u : State} {i : ApId} {op : ApOp} {c : Instr} {clk n : Nat}

theorem setCtx_parts (s : State) (i : ApId) (x : ApCtx) : (s.setCtx i x).locks = s.locks ∧ (s.setCtx i x).chans = s.chans ∧ (∀ a, (s.setCtx i x).rd a = s.rd a) ∧
    ((s.setCtx i x).thr i).events = (s.thr i).events := by
  unfold State.setCtx
  split
  · exact ⟨rfl, rfl, fun _ => rfl, rfl⟩
  · refine ⟨rfl, rfl, fun _ => rfl, ?_⟩
    simp only [State.thr, State.setThr]
    rw [sget_sset_same]

/-- What stands outside a register set, after an operation of the set. -/
def State.sameOutside (i : ApId) (s t : State) : Prop :=
  t.locks = s.locks ∧ t.chans = s.chans ∧ (∀ a, t.rd a = s.rd a) ∧ (t.thr i).events = (s.thr i).events

theorem sameOutside_setCtx (s : State) (i : ApId) (x : ApCtx) : State.sameOutside i s (s.setCtx i x) := setCtx_parts s i x

theorem sameOutside_trans {t : State} (h1 : State.sameOutside i s t) (h2 : State.sameOutside i t u) : State.sameOutside i s u := by
  obtain ⟨a1, a2, a3, a4⟩ := h1
  obtain ⟨b1, b2, b3, b4⟩ := h2
  exact ⟨b1.trans a1, b2.trans a2, fun a => (b3 a).trans (a3 a), b4.trans a4⟩

/-- An operation issued on a free ticket leaves it busy, with no register written yet. -/
theorem apIssues_of {k : Ticket} {P : State → List (Nat × DWord) → Prop} (h : s.apReady i op) (hc : exec c s = .next (s.apIssue i op clk))
    (he : (s.apBegin i).apExec i op (s.apAt i) clk = u.issueTkt i n k) (hregs : (u.ctx i).regs = (s.ctx i).regs) (hpc : (u.ctx i).pc = (s.ctx i).pc)
    (hbusy : (u.ctx i).busy n = false) (hP : ∀ t, State.sameOutside i u t → P t k.writes) : s.apIssues c i n P := by
  have hgo : (s.apBegin i).apExec i op (s.apAt i) clk = .go (u.setCtx i { u.ctx i with tickets := sins (u.ctx i).tickets n k }) := by
    rw [he, State.issueTkt]
    simp only [hbusy, Bool.false_eq_true, if_false]
  refine ⟨_, k, hc.trans (congrArg Host.Outcome.next ((apIssue_ready h clk).trans (congrArg (State.apSettle i) hgo))), ?_, ?_, fun m => ?_, ?_⟩
  · rw [State.apSettle, ctx_setPc, ctx_setCtx_same]
    exact (mem_sins _ _ _ _).2 (.inl rfl)
  · exact hP _ (sameOutside_trans (sameOutside_setCtx _ _ _) (sameOutside_setCtx _ _ _))
  · rw [State.apSettle, gr_setPc]
    exact gr_of_regs i (by rw [ctx_setCtx_same, hregs]) m
  · rw [State.apSettle, ctx_setPc, ctx_setCtx_same, hpc]

theorem apBegin_outside (hi : ApId.ok i) : (s.apBegin i).locks = s.locks ∧ (s.apBegin i).chans = s.chans ∧ ∀ a, (s.apBegin i).rd a = s.rd a := by
  rw [(apBegin_frame hi).1]
  exact ⟨rfl, rfl, fun _ => rfl⟩

theorem apBegin_thr (hp : i.packet = false) : ((s.apBegin i).thr i).wfe = (s.thr i).wfe := by
  cases hc : i.ctx with
  | some k => simp [ApId.packet, hc] at hp
  | none =>
    unfold State.apBegin
    simp only [hp, Bool.false_eq_true, if_false, State.setCtx, hc, State.thr, State.setThr]
    rw [sget_sset_same]

end Ticket

/-! ## Locks (R197) -/

section Locks
variable {s : State} {i : ApId} {n l : Nat}

theorem lockOf_of_locks {s t : State} (h : t.locks = s.locks) (c l : Nat) : t.lockOf c l = s.lockOf c l := by rw [State.lockOf, State.lockOf, h]

theorem lockErr_of_locks {s t : State} (h : t.locks = s.locks) (i : ApId) (l : Nat) : t.lockErr i l = s.lockErr i l := by
  unfold State.lockErr State.locksOf
  rw [lockOf_of_locks h, h]

theorem lockOf_setLock (s : State) (c l : Nat) (x : LockSt) : (s.setLock c l x).lockOf c l = x := sget_sset_same _ _ _ _

theorem lockOf_setLock_other (s : State) {c l c' l' : Nat} (x : LockSt) (hl : l < 256) (hl' : l' < 256) (h : (c', l') ≠ (c, l)) :
    (s.setLock c l x).lockOf c' l' = s.lockOf c' l' := sget_sset_other _ _ _ _ _ _ fun he => h (by
  simp only [Prod.mk.injEq]
  omega)

/-- What a lock operation keeps. -/
theorem setLock_keeps (s : State) (c l : Nat) (x : LockSt) (i : ApId) : (s.setLock c l x).ctx i = s.ctx i ∧ (s.setLock c l x).thr i = s.thr i := ⟨rfl, rfl⟩

variable (hn : n = fTkt (s.apAt i)) (hl : l = (s.gr i (fRa (s.apAt i))).toNat % 256) (hbusy : (s.ctx i).busy n = false)
include hn hl hbusy

omit hn hl in
theorem apBegin_busy (hi : ApId.ok i) : ((s.apBegin i).ctx i).busy n = false := by
  rw [apBegin_ctx hi]
  exact hbusy

theorem lkt_exec (h : s.apReady i .lkt) : (s.apBegin i).apExec i .lkt (s.apAt i) 0 =
    if s.lockErr i l then .fault (s.apBegin i) ftLock else if (s.lockOf i.cluster l).holder.isNone then
      ((s.apBegin i).setLock i.cluster l { s.lockOf i.cluster l with holder := some i }).issueTkt i n { writes := [(fRd (s.apAt i), 1)] }
    else ((s.apBegin i).bump (Rg.APC_LOCK_BUSY_CNT i.cluster)).issueTkt i n { writes := [(fRd (s.apAt i), 0)] } := by
  have hi := apReady_ok h
  obtain ⟨hlocks, -, -⟩ := apBegin_outside (s := s) hi
  have hb := apBegin_busy hbusy hi
  show (s.apBegin i).apLkt i (s.apAt i) = _
  unfold State.apLkt
  simp only [hb, apBegin_gr hi, ← hl, ← hn, lockErr_of_locks hlocks, lockOf_of_locks hlocks, Bool.false_eq_true, if_false]

theorem lock_exec (h : s.apReady i .lock) (hp : i.packet = false) : (s.apBegin i).apExec i .lock (s.apAt i) 0 =
    if s.lockErr i l then .fault (s.apBegin i) ftLock else if (s.lockOf i.cluster l).holder.isNone && (s.lockOf i.cluster l).queue.isEmpty then
      (((s.apBegin i).setLock i.cluster l { s.lockOf i.cluster l with holder := some i }).postEvent i 4).issueTkt i n { writes := [] }
    else ((s.apBegin i).setLock i.cluster l { s.lockOf i.cluster l with queue := (s.lockOf i.cluster l).queue ++ [i] }).issueTkt i n
      { writes := [], lock := some l } := by
  have hi := apReady_ok h
  obtain ⟨hlocks, -, -⟩ := apBegin_outside (s := s) hi
  have hb := apBegin_busy hbusy hi
  show (s.apBegin i).apLock i (s.apAt i) = _
  unfold State.apLock
  simp only [hp, hb, apBegin_gr hi, ← hl, ← hn, lockErr_of_locks hlocks, lockOf_of_locks hlocks, Bool.false_eq_true, if_false]

theorem ulk_exec (h : s.apReady i .ulk) : (s.apBegin i).apExec i .ulk (s.apAt i) 0 =
    if (s.lockOf i.cluster l).holder ≠ some i then .fault (s.apBegin i) ftLock else
      ((s.apBegin i).setLock i.cluster l { s.lockOf i.cluster l with holder := none }).issueTkt i n { writes := [] } := by
  have hi := apReady_ok h
  obtain ⟨hlocks, -, -⟩ := apBegin_outside (s := s) hi
  have hb := apBegin_busy hbusy hi
  show (s.apBegin i).apUlk i (s.apAt i) = _
  unfold State.apUlk
  simp only [hb, apBegin_gr hi, ← hl, ← hn, lockOf_of_locks hlocks, Bool.false_eq_true, if_false]

end Locks

/-! ## Channels (R198) -/

section Chans
variable (s : State)

theorem setChan_parts (c ch : Nat) (l : List ChanSlot) : (s.setChan c ch l).chans = sset [] s.chans (c * 64 + ch % 64) (l.drop (revokedHead l)) ∧
    (∀ i, (s.setChan c ch l).ctx i = s.ctx i) ∧ (s.setChan c ch l).locks = s.locks := by
  have hq : ∀ (u : State) (x : Sparse (List ChanSlot)), (({ u with chans := x } : State)).chans = x ∧ (∀ i, (({ u with chans := x } : State)).ctx i = u.ctx i) ∧
      (({ u with chans := x } : State)).locks = u.locks := fun u x => ⟨rfl, fun _ => rfl, rfl⟩
  have hreg : ∀ {P : Nat → Bool} {u v : State}, State.onlyRegs P u v → v.chans = u.chans ∧ (∀ i, v.ctx i = u.ctx i) ∧ v.locks = u.locks := fun h => by
    refine ⟨onlyRegs_proj h State.chans (fun _ _ _ _ _ => rfl), fun i => onlyRegs_proj h (fun u => u.ctx i) (fun _ _ _ _ _ => rfl),
      onlyRegs_proj h State.locks (fun _ _ _ _ _ => rfl)⟩
  obtain ⟨h1, h2, h3⟩ := hq s (sset [] s.chans (c * 64 + ch % 64) (l.drop (revokedHead l)))
  unfold State.setChan
  simp only []
  generalize ({ s with chans := sset [] s.chans (c * 64 + ch % 64) (l.drop (revokedHead l)) } : State) = u at h1 h2 h3 ⊢
  have hcnt : (if revokedHead l = 0 then u else u.bump (Rg.APC_CHAN_REVOKE_CNT c) (revokedHead l)).chans = u.chans ∧
      (∀ i, (if revokedHead l = 0 then u else u.bump (Rg.APC_CHAN_REVOKE_CNT c) (revokedHead l)).ctx i = u.ctx i) ∧
      (if revokedHead l = 0 then u else u.bump (Rg.APC_CHAN_REVOKE_CNT c) (revokedHead l)).locks = u.locks := by
    split
    · exact ⟨rfl, fun _ => rfl, rfl⟩
    · exact hreg (onlyRegs_bump u _ _ (by simp only [Rg.APC_CHAN_REVOKE_CNT, Pg.APC]; omega))
  generalize (if revokedHead l = 0 then u else u.bump (Rg.APC_CHAN_REVOKE_CNT c) (revokedHead l)) = v at hcnt ⊢
  obtain ⟨k1, k2, k3⟩ := hreg (onlyRegs_setF (P := fun x => x == Rg.APC_CHAN_CFG c (ch % 64)) v (Rg.APC_CHAN_CFG c (ch % 64)) Fd.APC_CHAN_CFG_USED
    (l.drop (revokedHead l)).length (beq_self_eq_true _))
  obtain ⟨c1, c2, c3⟩ := hcnt
  exact ⟨k1.trans (c1.trans h1), fun i => (k2 i).trans ((c2 i).trans (h2 i)), k3.trans (c3.trans h3)⟩

theorem chan_setChan (c ch : Nat) (l : List ChanSlot) : (s.setChan c ch l).chan c ch = l.drop (revokedHead l) := by
  rw [State.chan, (setChan_parts s c ch l).1, sget_sset_same]

/-- A new slot behind the others moves no head. -/
theorem revokedHead_append {l : List ChanSlot} {x : ChanSlot} (h : revokedHead l = 0) (hx : x.st = 0) : revokedHead (l ++ [x]) = 0 := by
  cases l with
  | nil => simp [revokedHead, hx]
  | cons y l =>
    rw [List.cons_append]
    unfold revokedHead at h ⊢
    split at h
    · exact absurd h (by omega)
    next hy => rw [if_neg hy]

/-- A slot that is not revoked stays none when it is changed. -/
theorem revokedHead_set {l : List ChanSlot} {m : Nat} {x : ChanSlot} (h : revokedHead l = 0) (hx : x.st ≠ 2) : revokedHead (l.set m x) = 0 := by
  cases l with
  | nil => rfl
  | cons y l =>
    cases m with
    | zero => simp [revokedHead, hx]
    | succ m =>
      rw [List.set_cons_succ]
      unfold revokedHead at h ⊢
      split at h
      · exact absurd h (by omega)
      next hy => rw [if_neg hy]

/-- A slot of a channel changed: itself, and no other. -/
theorem slot_setChan {key m : Nat} {x y : ChanSlot} (hx : (sget [] s.chans key)[m]? = some x) (hh : revokedHead (sget [] s.chans key) = 0) (hy : y.st ≠ 2) :
    (sget [] (s.setChan (key / 64) (key % 64) ((sget [] s.chans key).set m y)).chans key)[m]? = some y ∧
    ∀ q, q ≠ m → (sget [] (s.setChan (key / 64) (key % 64) ((sget [] s.chans key).set m y)).chans key)[q]? = (sget [] s.chans key)[q]? := by
  have hlen : m < (sget [] s.chans key).length := (List.getElem?_eq_some_iff.1 hx).1
  have hk : key / 64 * 64 + key % 64 % 64 = key := by omega
  rw [(setChan_parts s _ _ _).1, hk, sget_sset_same, revokedHead_set hh hy, List.drop_zero]
  refine ⟨by rw [List.getElem?_set_self hlen], fun q hq => List.getElem?_set_ne (Ne.symm hq)⟩

theorem chans_setPc (i : ApId) (pc : Nat) : (s.setPc i pc).chans = s.chans := (setCtx_parts _ _ _).2.1

theorem locks_wfeCheck (i : ApId) : (s.wfeCheck i).locks = s.locks := by
  unfold State.wfeCheck
  dsimp only
  cases (s.thr i).wfe with
  | none => rfl
  | some e =>
    dsimp only
    by_cases h : (s.thr i).st ≠ 2 ∨ s.pendEvents i &&& e.1 = 0
    · rw [if_pos h]
    · rw [if_neg h]
      by_cases h15 : i.thread = 15
      · rw [if_pos h15]
        rfl
      · rw [if_neg h15]
        rfl

theorem locks_postEvent (i : ApId) (b : Nat) : (s.postEvent i b).locks = s.locks := by
  rw [State.postEvent, locks_wfeCheck]
  rfl

theorem chans_wfeCheck (i : ApId) : (s.wfeCheck i).chans = s.chans := by
  unfold State.wfeCheck
  dsimp only
  cases (s.thr i).wfe with
  | none => rfl
  | some e =>
    dsimp only
    by_cases h : (s.thr i).st ≠ 2 ∨ s.pendEvents i &&& e.1 = 0
    · rw [if_pos h]
    · rw [if_neg h]
      by_cases h15 : i.thread = 15
      · rw [if_pos h15]
        rfl
      · rw [if_neg h15]
        rfl

theorem chans_chanEvent (c : Nat) : (s.chanEvent c).chans = s.chans := by
  unfold State.chanEvent
  generalize s.waiters c = l
  induction l generalizing s with
  | nil => rfl
  | cons j l ih => rw [List.foldl_cons, ih, chans_wfeCheck]

end Chans

/-! ## The rows -/

section Rows
variable {s : State} {i : ApId} {n : Nat}

theorem cres_exec (hn : n = fTkt (s.apAt i)) (hbusy : (s.ctx i).busy n = false) (h : s.apReady i .cres) {a c ch : Nat} (ha : a = (s.gr i (fRa (s.apAt i))).toNat)
    (hc : c = if bits a 6 5 = 31 then i.cluster else bits a 6 5) (hch : ch = a % 64) : (s.apBegin i).apExec i .cres (s.apAt i) 0 =
    if !s.clusterOn c then (s.apBegin i).issueTkt i n { writes := [(fRd (s.apAt i), BitVec.allOnes 64)] }
    else if 16 ≤ (s.chan c ch).length then ((s.apBegin i).bump (Rg.APC_CHAN_FULL_CNT c)).issueTkt i n { writes := [(fRd (s.apAt i), BitVec.allOnes 64)] }
    else
      (((s.apBegin i).draw.setChan c ch (s.chan c ch ++ [⟨some ((s.apBegin i).freeVal 64), some i, List.replicate 8 0, 0⟩])).setCtx i
        { ((s.apBegin i).draw.setChan c ch (s.chan c ch ++ [⟨some ((s.apBegin i).freeVal 64), some i, List.replicate 8 0, 0⟩])).ctx i with
          resv := (s.apBegin i).freeVal 64 ::
            (((s.apBegin i).draw.setChan c ch (s.chan c ch ++ [⟨some ((s.apBegin i).freeVal 64), some i, List.replicate 8 0, 0⟩])).ctx i).resv }).issueTkt i n
        { writes := [(fRd (s.apAt i), BitVec.ofNat 64 ((s.apBegin i).freeVal 64))] } := by
  have hi := apReady_ok h
  have hb := apBegin_busy hbusy hi
  have hon : (s.apBegin i).clusterOn c = s.clusterOn c := by rw [(apBegin_frame hi).1]; rfl
  have hchan : (s.apBegin i).chan c ch = s.chan c ch := by rw [(apBegin_frame hi).1]; rfl
  show (s.apBegin i).apCres i (s.apAt i) = _
  unfold State.apCres
  simp only [apBegin_gr hi, ← ha, ← hc, ← hch, hon, hchan, ← hn, hb, Bool.false_eq_true, if_false]

theorem crd_exec (hn : n = fTkt (s.apAt i)) (hbusy : (s.ctx i).busy n = false) (h : s.apReady i .crd) {ch : Nat} (hch : ch = (s.gr i (fRa (s.apAt i))).toNat % 64) :
    (23 < fRd (s.apAt i) → (s.apBegin i).apExec i .crd (s.apAt i) 0 = .fault (s.apBegin i) ftChan) ∧ (fRd (s.apAt i) ≤ 23 →
      (∀ x r, s.chan i.cluster ch = x :: r → x.st = 1 → (s.apBegin i).apExec i .crd (s.apAt i) 0 = ((s.apBegin i).setChan i.cluster ch r).issueTkt i n
        { writes := (fRd (s.apAt i), 1) :: (List.range 8).map fun j => (fRd (s.apAt i) + 1 + j, lget 0 x.words j) }) ∧
      ((∀ x r, s.chan i.cluster ch = x :: r → x.st ≠ 1) → (s.apBegin i).apExec i .crd (s.apAt i) 0 =
        (s.apBegin i).issueTkt i n { writes := [(fRd (s.apAt i), 0)] })) := by
  have hi := apReady_ok h
  have hb := apBegin_busy hbusy hi
  have hchan : (s.apBegin i).chan i.cluster ch = s.chan i.cluster ch := by rw [(apBegin_frame hi).1]; rfl
  have he : (s.apBegin i).apExec i .crd (s.apAt i) 0 = (s.apBegin i).apCrd i (s.apAt i) := rfl
  unfold State.apCrd at he
  simp only [apBegin_gr hi, ← hch, hchan, ← hn, hb, Bool.false_eq_true, if_false] at he
  refine ⟨fun hr => he.trans (if_pos hr), fun hr => ⟨fun x r hx hst => ?_, fun hno => ?_⟩⟩
  · rw [he, if_neg (by omega), hx]
    exact if_pos hst
  · rw [he, if_neg (by omega)]
    cases hl : s.chan i.cluster ch with
    | nil => rfl
    | cons x r => exact if_neg (hno x r hl)

theorem onSlot_chan (u : State) (i : ApId) (h : Nat) (f : State → Nat → Nat → ChanSlot → State) (hno : h ∉ (u.ctx i).resv) : u.onSlot i h f = .fault u ftChan := by
  unfold State.onSlot
  rw [if_pos (by simpa using hno)]

theorem onSlot_revoked (u : State) (i : ApId) (h : Nat) (f : State → Nat → Nat → ChanSlot → State) (hin : h ∈ (u.ctx i).resv) (hno : u.slotOf i h = none) :
    u.onSlot i h f = .fault u ftRevoked := by
  unfold State.onSlot
  rw [if_neg (by simpa using hin)]
  simp only [hno]

theorem onSlot_slot (u : State) (i : ApId) (h : Nat) (f : State → Nat → Nat → ChanSlot → State) {key m : Nat} {x : ChanSlot} (hin : h ∈ (u.ctx i).resv)
    (hs : u.slotOf i h = some (key, m)) (hx : (sget [] u.chans key)[m]? = some x) (hst : x.st = 0) : u.onSlot i h f = .go (f u key m x) := by
  unfold State.onSlot
  rw [if_neg (by simpa using hin)]
  simp only [hs, hx, hst, if_true]

theorem postEvent_idle (u : State) (i : ApId) (b : Nat) (hp : i.packet = false) (hw : (u.thr i).wfe = none) :
    u.postEvent i b = u.setThr i { u.thr i with events := setBit (u.thr i).events b } := by
  have hj : ({ i with ctx := none } : ApId) = i := by
    obtain ⟨c, a, t, k⟩ := i
    cases k with
    | none => rfl
    | some k => simp [ApId.packet] at hp
  have hthr : ∀ y : ApThread, (u.setThr i y).thr i = y := fun y => sget_sset_same _ _ _ _
  unfold State.postEvent
  simp only [hj]
  unfold State.wfeCheck
  simp only [hthr, hw]

/-- A lock at once granted to a thread that does not wait: the LOCK event is pending. -/
theorem lock_granted (u : State) (i : ApId) (c l : Nat) (x : LockSt) (hp : i.packet = false) (hw : (u.thr i).wfe = none) :
    (((u.setLock c l x).postEvent i 4).ctx i = u.ctx i) ∧ ((u.setLock c l x).postEvent i 4).lockOf c l = x ∧
    bit ((((u.setLock c l x).postEvent i 4).thr i).events) 4 = true := by
  have hctx : ∀ (v : State) (y : ApThread), y.x = (v.thr i).x → (v.setThr i y).ctx i = v.ctx i := fun v y hy => by
    cases hc : i.ctx with
    | some k => simp [ApId.packet, hc] at hp
    | none =>
      unfold State.ctx
      simp only [hc, State.thr, State.setThr] at hy ⊢
      rw [sget_sset_same, hy]
  have hthr : ∀ (v : State) (y : ApThread), (v.setThr i y).thr i = y ∧ (v.setThr i y).locks = v.locks := fun v y => ⟨sget_sset_same _ _ _ _, rfl⟩
  rw [postEvent_idle _ i 4 hp (by rw [(setLock_keeps u c l x i).2, hw])]
  refine ⟨(hctx _ { (u.setLock c l x).thr i with events := setBit ((u.setLock c l x).thr i).events 4 } rfl).trans (setLock_keeps u c l x i).1, (lockOf_of_locks (hthr _ _).2 c l).trans (lockOf_setLock u c l x), ?_⟩
  rw [(hthr _ _).1, bit_setBit]
  simp

theorem bump_apCtx (u : State) (a : Nat) (ha : a % 0x1000 < 0x800) (i : ApId) : (u.bump a).ctx i = u.ctx i ∧ (u.bump a).locks = u.locks ∧ (u.bump a).chans = u.chans :=
  ⟨onlyRegs_proj (onlyRegs_bump u a 1 ha) (fun v => v.ctx i) (fun _ _ _ _ _ => rfl), onlyRegs_proj (onlyRegs_bump u a 1 ha) State.locks (fun _ _ _ _ _ => rfl),
    onlyRegs_proj (onlyRegs_bump u a 1 ha) State.chans (fun _ _ _ _ _ => rfl)⟩

/-- A counter of a cluster that answers counts. -/
theorem apCount (u : State) {c a : Nat} (hc : u.clusterOn c = true) (ha : a = Rg.APC_LOCK_BUSY_CNT c ∨ a = Rg.APC_CHAN_FULL_CNT c) :
    (u.bump a).rd a = (u.rd a + 1) % 2 ^ 32 ∧ a % 0x1000 < 0x800 := by
  simp only [State.clusterOn, Bool.and_eq_true, decide_eq_true_eq] at hc
  have hpg : a / 0x1000 = Pg.APC c / 0x1000 ∧ 0x100 ≤ a % 0x1000 ∧ a % 0x1000 < 0x800 ∧ a / 0x1000 ≠ 0x1093 := by
    have := hc.1
    rcases ha with rfl | rfl <;> simp only [Rg.APC_LOCK_BUSY_CNT, Rg.APC_CHAN_FULL_CNT, Pg.APC] <;> omega
  obtain ⟨h1, h2, h3, h4⟩ := hpg
  exact ⟨bump_rd_own u a 1 (ownReg_iff.2 ⟨by omega, h4⟩) h2 h3 (h1.symm ▸ hc.2), h3⟩

theorem apReady_on {op : ApOp} (h : s.apReady i op) : (s.apBegin i).clusterOn i.cluster = true ∧ s.clusterOn i.cluster = true := by
  have h1 : s.clusterOn i.cluster = true := by
    have := h.1
    simp only [State.apMay, Bool.and_eq_true] at this
    exact this.1.1.1
  refine ⟨?_, h1⟩
  rw [(apBegin_frame (apReady_ok h)).1]
  exact h1

end Rows

/-- Settles O38: each operation acts on the locks or channels as they stand and leaves its ticket busy. -/
theorem apLocksAndChannels : Obligations.ApLocksAndChannels := by
  unfold Obligations.ApLocksAndChannels
  refine ⟨?_, ?_, fun s c l hl => ⟨fun i r hh hq => ?_, fun hno => ?_⟩⟩
  · rintro s i w rd n l a rfl rfl hn rfl hl hbusy
    have hbeg : s.apReady i .lkt ∨ s.apReady i .lock ∨ s.apReady i .ulk ∨ s.apReady i .cres ∨ s.apReady i .crd →
        ((s.apBegin i).ctx i).regs = (s.ctx i).regs ∧ ((s.apBegin i).ctx i).pc = (s.ctx i).pc ∧ ((s.apBegin i).ctx i).busy n = false ∧
        (s.apBegin i).locks = s.locks ∧ (s.apBegin i).chans = s.chans ∧ (∀ x, (s.apBegin i).rd x = s.rd x) := fun h => by
      have hi : ApId.ok i := by rcases h with h | h | h | h | h <;> exact apReady_ok h
      obtain ⟨h1, h2, h3⟩ := apBegin_outside (s := s) hi
      exact ⟨by rw [apBegin_ctx hi], by rw [apBegin_ctx hi], apBegin_busy hbusy hi, h1, h2, h3⟩
    refine ⟨fun h => ?_, fun h => ⟨fun hp => ?_, fun hp he => ?_, fun hp he hw hh hq => ?_, fun hp he hh => ?_⟩, fun h => ⟨fun hh => ?_, fun hh => ?_⟩,
      fun h c ch hc hch => ⟨fun hoff => ?_, fun hon hfull => ?_, fun hon hroom hrev => ?_⟩, fun h => ⟨fun hr => ?_, fun hr ch hch => ⟨fun x r hx hst => ?_, fun hno => ?_⟩⟩⟩
    · obtain ⟨b1, b2, b3, b4, b5, b6⟩ := hbeg (.inl h)
      have he := lkt_exec hn hl hbusy h
      refine ⟨fun hk => apFaults_of h rfl (he.trans (if_pos hk)), fun hk hh => ?_, fun hk hh => ?_⟩
      · refine apIssues_of (clk := 0) h rfl (he.trans (by rw [if_neg (by simp [hk]), if_pos (by simp [hh])])) (by rw [(setLock_keeps _ _ _ _ i).1, b1])
          (by rw [(setLock_keeps _ _ _ _ i).1, b2]) (by rw [(setLock_keeps _ _ _ _ i).1, b3]) fun t ht => ⟨List.mem_singleton_self _, ?_⟩
        rw [lockOf_of_locks ht.1, lockOf_setLock]
      · obtain ⟨hcnt, hlt⟩ := apCount (s.apBegin i) (apReady_on h).1 (.inl rfl)
        obtain ⟨k1, k2, k3⟩ := bump_apCtx (s.apBegin i) _ hlt i
        refine apIssues_of (clk := 0) h rfl (he.trans (by rw [if_neg (by simp [hk]), if_neg (by simpa using hh)])) (by rw [k1, b1]) (by rw [k1, b2]) (by rw [k1, b3])
          fun t ht => ⟨List.mem_singleton_self _, by rw [ht.1, k2, b4], by rw [ht.2.2.1, hcnt, b6]⟩
    · exact apFaults_of (clk := 0) h rfl (by
        show (s.apBegin i).apLock i (s.apAt i) = _
        unfold State.apLock
        exact if_pos hp)
    · exact apFaults_of h rfl ((lock_exec hn hl hbusy h hp).trans (if_pos he))
    · obtain ⟨b1, b2, b3, b4, b5, b6⟩ := hbeg (.inr (.inl h))
      obtain ⟨g1, g2, g3⟩ := lock_granted (s.apBegin i) i i.cluster l { s.lockOf i.cluster l with holder := some i } hp (by rw [apBegin_thr hp, hw])
      refine apIssues_of (clk := 0) h rfl ((lock_exec hn hl hbusy h hp).trans (by rw [if_neg (by simp [he]), if_pos (by simp [hh, hq])])) (by rw [g1, b1]) (by rw [g1, b2])
        (by rw [g1, b3]) fun t ht => ⟨rfl, ?_, ?_⟩
      · rw [lockOf_of_locks ht.1, g2]
      · rw [ht.2.2.2]
        exact g3
    · obtain ⟨b1, b2, b3, b4, b5, b6⟩ := hbeg (.inr (.inl h))
      refine apIssues_of (clk := 0) h rfl ((lock_exec hn hl hbusy h hp).trans (by rw [if_neg (by simp [he]), if_neg (by
        simp only [Bool.and_eq_true, Option.isNone_iff_eq_none]
        exact fun k => hh k.1)])) (by rw [(setLock_keeps _ _ _ _ i).1, b1]) (by rw [(setLock_keeps _ _ _ _ i).1, b2])
        (by rw [(setLock_keeps _ _ _ _ i).1, b3]) fun t ht => ⟨rfl, ?_, ?_⟩ <;> rw [lockOf_of_locks ht.1, lockOf_setLock]
    · exact apFaults_of h rfl ((ulk_exec hn hl hbusy h).trans (if_pos hh))
    · obtain ⟨b1, b2, b3, b4, b5, b6⟩ := hbeg (.inr (.inr (.inl h)))
      refine apIssues_of (clk := 0) h rfl ((ulk_exec hn hl hbusy h).trans (if_neg (not_not.2 hh))) b1 b2 b3 fun t ht => ⟨?_, ?_⟩ <;> rw [lockOf_of_locks ht.1, lockOf_setLock]
    · obtain ⟨b1, b2, b3, b4, b5, b6⟩ := hbeg (.inr (.inr (.inr (.inl h))))
      exact apIssues_of (clk := 0) h rfl ((cres_exec hn hbusy h rfl hc hch).trans (if_pos (by simp [hoff]))) b1 b2 b3 fun t ht =>
        ⟨List.mem_singleton_self _, ht.2.1.trans b5⟩
    · obtain ⟨b1, b2, b3, b4, b5, b6⟩ := hbeg (.inr (.inr (.inr (.inl h))))
      have hon' : (s.apBegin i).clusterOn c = true := by
        rw [(apBegin_frame (apReady_ok h)).1]
        exact hon
      obtain ⟨hcnt, hlt⟩ := apCount (s.apBegin i) hon' (.inr rfl)
      obtain ⟨k1, k2, k3⟩ := bump_apCtx (s.apBegin i) _ hlt i
      exact apIssues_of (clk := 0) h rfl ((cres_exec hn hbusy h rfl hc hch).trans (by rw [if_neg (by simp [hon]), if_pos hfull])) (by rw [k1, b1]) (by rw [k1, b2])
        (by rw [k1, b3]) fun t ht => ⟨List.mem_singleton_self _, by rw [ht.2.1, k3, b5], by rw [ht.2.2.1, hcnt, b6]⟩
    · obtain ⟨b1, b2, b3, b4, b5, b6⟩ := hbeg (.inr (.inr (.inr (.inl h))))
      obtain ⟨p1, p2, p3⟩ := setChan_parts (s.apBegin i).draw c ch (s.chan c ch ++ [⟨some ((s.apBegin i).freeVal 64), some i, List.replicate 8 0, 0⟩])
      have hdraw : (s.apBegin i).draw.ctx i = (s.apBegin i).ctx i := rfl
      refine apIssues_of (clk := 0) h rfl ((cres_exec hn hbusy h rfl hc hch).trans (by rw [if_neg (by simp [hon]), if_neg (by omega)]))
        (by rw [ctx_setCtx_same, p2, hdraw, b1]) (by rw [ctx_setCtx_same, p2, hdraw, b2]) (by rw [ctx_setCtx_same, p2, hdraw]; exact b3)
        fun t ht => ⟨(s.apBegin i).freeVal 64, List.mem_singleton_self _, ?_⟩
      have hchan : ∀ u v : State, v.chans = u.chans → v.chan c ch = u.chan c ch := fun u v h => by rw [State.chan, State.chan, h]
      rw [hchan _ _ (ht.2.1.trans (sameOutside_setCtx _ _ _).2.1), chan_setChan, revokedHead_append hrev rfl, List.drop_zero]
    · exact apFaults_of h rfl ((crd_exec hn hbusy h rfl).1 hr)
    · obtain ⟨b1, b2, b3, b4, b5, b6⟩ := hbeg (.inr (.inr (.inr (.inr h))))
      obtain ⟨p1, p2, p3⟩ := setChan_parts (s.apBegin i) i.cluster ch r
      have hchan : ∀ u v : State, v.chans = u.chans → v.chan i.cluster ch = u.chan i.cluster ch := fun u v h => by rw [State.chan, State.chan, h]
      exact apIssues_of (clk := 0) h rfl (((crd_exec hn hbusy h hch).2 hr).1 x r hx hst) (by rw [p2, b1]) (by rw [p2, b2]) (by rw [p2, b3]) fun t ht =>
        ⟨List.mem_cons_self, fun j hj => List.mem_cons_of_mem _ (List.mem_map.2 ⟨j, List.mem_range.2 hj, rfl⟩), by rw [hchan _ _ ht.2.1, chan_setChan]⟩
    · obtain ⟨b1, b2, b3, b4, b5, b6⟩ := hbeg (.inr (.inr (.inr (.inr h))))
      exact apIssues_of (clk := 0) h rfl (((crd_exec hn hbusy h hch).2 hr).2 hno) b1 b2 b3 fun t ht => ⟨List.mem_singleton_self _, ht.2.1.trans b5⟩
  · rintro s i w hd rfl rfl
    refine ⟨fun h => ?_, fun h => ?_⟩
    · have hi := apReady_ok h
      obtain ⟨h1, h2, h3⟩ := apBegin_outside (s := s) hi
      have hresv : ((s.apBegin i).ctx i).resv = (s.ctx i).resv := by rw [apBegin_ctx hi]
      have hslot : ∀ x, (s.apBegin i).slotOf i x = s.slotOf i x := fun x => by rw [State.slotOf, State.slotOf, h2]
      have he : (s.apBegin i).apExec i .cwr (s.apAt i) 0 = (s.apBegin i).apCwr i (s.apAt i) := rfl
      unfold State.apCwr at he
      rw [apBegin_gr hi] at he
      refine ⟨fun hno => apFaults_of h rfl (he.trans (onSlot_chan _ _ _ _ (hresv ▸ hno))),
        fun hin hno => apFaults_of h rfl (he.trans (onSlot_revoked _ _ _ _ (hresv ▸ hin) ((hslot _).trans hno))), fun key m x hin hs hx hst hrev => ?_⟩
      have hgo := he.trans (onSlot_slot _ _ _ _ (hresv ▸ hin) ((hslot _).trans hs) (h2 ▸ hx) hst)
      rw [apBegin_gr hi, h2] at hgo
      obtain ⟨p1, p2, -⟩ := setChan_parts (s.apBegin i) (key / 64) (key % 64)
        ((sget [] s.chans key).set m { x with words := x.words.set (s.apAt i % 8) (s.gr i (fRb (s.apAt i))) })
      have hk := slot_setChan (s.apBegin i) (y := { x with words := x.words.set (s.apAt i % 8) (s.gr i (fRb (s.apAt i))) }) (h2.symm ▸ hx) (h2.symm ▸ hrev) (by simp [hst])
      rw [h2] at hk
      refine ⟨_, congrArg Host.Outcome.next ((apIssue_ready h 0).trans (congrArg (State.apSettle i) hgo)), ?_, ?_⟩
      · rw [State.apSettle, ctx_setPc, p2, apBegin_ctx hi]
      · rw [State.apSettle, chans_setPc]
        exact hk
    · have hi := apReady_ok h
      obtain ⟨h1, h2, h3⟩ := apBegin_outside (s := s) hi
      have hresv : ((s.apBegin i).ctx i).resv = (s.ctx i).resv := by rw [apBegin_ctx hi]
      have hslot : ∀ x, (s.apBegin i).slotOf i x = s.slotOf i x := fun x => by rw [State.slotOf, State.slotOf, h2]
      have he : (s.apBegin i).apExec i .cpub (s.apAt i) 0 = (s.apBegin i).apCpub i (s.apAt i) := rfl
      unfold State.apCpub at he
      dsimp only at he
      rw [apBegin_gr hi] at he
      refine ⟨fun hno => apFaults_of h rfl (he.trans (onSlot_chan _ _ _ _ (hresv ▸ hno))), fun key m x hin hs hx hst hrev => ?_⟩
      have hgo := he.trans (onSlot_slot _ _ _ _ (hresv ▸ hin) ((hslot _).trans hs) (h2 ▸ hx) hst)
      have hk := slot_setChan (s.apBegin i) (y := { x with st := 1, handle := none, owner := none }) (h2.symm ▸ hx) (h2.symm ▸ hrev) (show (1 : Nat) ≠ 2 by decide)
      rw [h2] at hk hgo
      refine ⟨_, congrArg Host.Outcome.next ((apIssue_ready h 0).trans (congrArg (State.apSettle i) hgo)), ?_⟩
      rw [State.apSettle, chans_setPc, chans_chanEvent, (setCtx_parts _ _ _).2.1]
      exact hk
  · have he : s.lockGrant c l = ((s.setLock c l { holder := some i, queue := r }).setCtx i { (s.setLock c l { holder := some i, queue := r }).ctx i with
        tickets := ((s.setLock c l { holder := some i, queue := r }).ctx i).tickets.map fun e => if e.2.lock = some l then (e.1, { e.2 with lock := none }) else e }).postEvent i 4 := by
      unfold State.lockGrant
      simp only [hh, hq]
    have hlocks : (s.lockGrant c l).locks = (s.setLock c l { holder := some i, queue := r }).locks := by
      rw [he, locks_postEvent, (setCtx_parts _ _ _).1]
    refine ⟨_, congrArg Host.Outcome.next (congrArg (s.lockGrant c) (Nat.mod_eq_of_lt hl)), ?_, fun c' l' hl' hne => ?_⟩
    · rw [lockOf_of_locks hlocks, lockOf_setLock]
    · rw [lockOf_of_locks hlocks, lockOf_setLock_other s _ hl hl' hne]
  · refine congrArg Host.Outcome.next ((congrArg (s.lockGrant c) (Nat.mod_eq_of_lt hl)).trans ?_)
    unfold State.lockGrant
    dsimp only
    split
    next h1 h2 =>
      rcases hno with h | h
      · exact absurd h1 h
      · rw [h] at h2
        exact absurd h2 (by simp)
    next => rfl

end Sys2Proof.Machine
end

section
/-! SUPPORT. Caldera's counts and the VOQs (R206 to R219): what a change of the counts and a replaced VOQ touch. -/
namespace Sys2Proof.Machine

/-- The registers that Caldera's counts move: the counts of page CALD and its flags (R208, R216). -/
def caldReg (x : Nat) : Bool :=
  x == Rg.CALD_ARRIVAL || x == Rg.CALD_LOSSY || x == Rg.CALD_LOSSLESS || x == Rg.CALD_STAT || x == Rg.CALD_PEAK || intReg Pg.CALD x

theorem caldReg_int (x : Nat) (h : caldReg x = false) : intReg Pg.CALD x = false := (Bool.or_eq_false_iff.1 h).2

/-- The part of the state besides registers that Caldera's counts move. -/
def takeFull (s t : State) : State := { s with bf := { s.bf with lossyFull := t.bf.lossyFull } }

theorem keeps_takeFull : State.Keeps takeFull := ⟨fun _ _ _ _ _ _ _ => rfl, fun _ _ _ => rfl, fun _ _ _ _ _ => rfl⟩

/-- The three counts after a change (R208). -/
def State.caldMove (s : State) (arr lossy lossless : Int) : State :=
  let s1 := s.wr Rg.CALD_ARRIVAL ((s.rd Rg.CALD_ARRIVAL : Int) + arr).toNat
  let s2 := s1.wr Rg.CALD_LOSSY ((s1.rd Rg.CALD_LOSSY : Int) + lossy).toNat
  s2.wr Rg.CALD_LOSSLESS ((s2.rd Rg.CALD_LOSSLESS : Int) + lossless).toNat

theorem caldMove_frame (s : State) (a l n : Int) : State.onlyRegs caldReg s (s.caldMove a l n) :=
  (((onlyRegs_refl _ s).wr rfl).wr rfl).wr rfl

/-- The registers that follow the three counts. -/
def caldTail (x : Nat) : Bool := x == Rg.CALD_STAT || x == Rg.CALD_PEAK || intReg Pg.CALD x

/-- USED and its peak, after the three counts. -/
def State.caldUsed (s u : State) : State :=
  let used := u.rd Rg.CALD_ARRIVAL + u.rd Rg.CALD_LOSSY + u.rd Rg.CALD_LOSSLESS
  (u.wr Rg.CALD_STAT used).peak Rg.CALD_PEAK (max used (s.rd Rg.CALD_STAT))

theorem caldUsed_onlyRegs (s u : State) : State.onlyRegs caldTail u (s.caldUsed u) := ((onlyRegs_refl caldTail u).wr rfl).peak rfl

/-- LOSSY_FULL follows, flagged at its rise. -/
def State.caldFull (u : State) : State :=
  let full := decide (u.rd Rg.ADM_LOSSY_MAX ≤ u.rd Rg.CALD_LOSSY)
  { u.setIntIf (full && !u.bf.lossyFull) Pg.CALD Ib.CALD_LOSSY_FULL with bf := { u.bf with lossyFull := full } }

theorem cald_eq (s : State) (a l n : Int) : s.cald a l n = (s.caldUsed (s.caldMove a l n)).caldFull := rfl

theorem caldFull_shows (u : State) : ∃ t, u.caldFull = { t with bf := { u.bf with lossyFull := u.caldFull.bf.lossyFull } } ∧ State.onlyRegs caldTail u t :=
  ⟨_, rfl, State.onlyRegs.setIntIf (onlyRegs_refl caldTail u) fun _ hx => (Bool.or_eq_false_iff.1 hx).2⟩

/-- What follows the counts changes no register but USED, its peak and the flags. -/
theorem rd_cald (s : State) (a l n : Int) {x : Nat} (hx : caldTail x = false) : (s.cald a l n).rd x = (s.caldMove a l n).rd x := by
  obtain ⟨t, he, ht⟩ := caldFull_shows (s.caldUsed (s.caldMove a l n))
  rw [cald_eq, he]
  exact (ht.2 x hx).trans ((caldUsed_onlyRegs s _).2 x hx)

theorem frame_cald (s : State) (a l n : Int) : s.frame takeFull caldReg (s.cald a l n) := by
  obtain ⟨t, he, ht⟩ := caldFull_shows (s.caldUsed (s.caldMove a l n))
  have htail : ∀ x, caldReg x = false → caldTail x = false := fun x hx => by
    simp only [caldReg, Bool.or_eq_false_iff] at hx
    simp [caldTail, hx]
  have hu := onlyRegs_trans (caldMove_frame s a l n) (onlyRegs_mono (caldUsed_onlyRegs s _) htail)
  have h := onlyRegs_trans hu (onlyRegs_mono ht htail)
  have hb : (s.caldUsed (s.caldMove a l n)).bf = s.bf := onlyRegs_proj hu State.bf
  rw [← cald_eq, hb] at he
  generalize s.cald a l n = c at he
  refine ⟨?_, fun x hx => by rw [he]; exact h.2 x hx⟩
  rw [he, h.1]
  rfl

theorem rd_cald_arrival (s : State) (a l n : Int) : (s.cald a l n).rd Rg.CALD_ARRIVAL = ((s.rd Rg.CALD_ARRIVAL : Int) + a).toNat % 2 ^ 32 := by
  rw [rd_cald s a l n rfl, State.caldMove, rd_wr_other _ _ _ _ (by decide), rd_wr_other _ _ _ _ (by decide), rd_wr_same]

theorem rd_cald_lossy (s : State) (a l n : Int) : (s.cald a l n).rd Rg.CALD_LOSSY = ((s.rd Rg.CALD_LOSSY : Int) + l).toNat % 2 ^ 32 := by
  rw [rd_cald s a l n rfl, State.caldMove, rd_wr_other _ _ _ _ (by decide), rd_wr_same, rd_wr_other _ _ _ _ (by decide)]

/-- Parts of the state that neither registers nor LOSSY_FULL reach stay. -/
theorem cald_proj {α : Type} (s : State) (a l n : Int) (π : State → α)
    (hπ : ∀ (u : State) (r : Sparse Nat) (p q : PcieSt) (o : List Emit) (b : BufSt), π { u with regs := r, pcie0 := p, pcie1 := q, out := o, bf := b } = π u := by
      exact fun _ _ _ _ _ _ => rfl) : π (s.cald a l n) = π s := by
  have h := (frame_cald s a l n).1
  rw [h]
  exact hπ s _ _ _ _ _

theorem cald_rd (s : State) (a l n : Int) {x : Nat} (hx : caldReg x = false) : (s.cald a l n).rd x = s.rd x := (frame_cald s a l n).rd keeps_takeFull hx

theorem cald_pageOn (s : State) (a l n : Int) (page : Nat) : (s.cald a l n).pageOn page = s.pageOn page :=
  pageOn_of_rd (cald_proj s a l n State.part) (cald_proj s a l n State.pw) (fun d w hd hw => cald_rd s a l n (by
    interval_cases d <;> interval_cases w <;> rfl)) page

/-- Cells of lossy packets alone change CALD_LOSSY alone. -/
theorem caldClasses_lossy (s : State) (n : Nat) (hn : 0 < n) (sign : Int) :
    s.caldClasses (List.replicate n false) sign = s.cald 0 (sign * n) 0 := by
  have h0 : (List.replicate n false).isEmpty = false := by
    cases n with
    | zero => omega
    | succ n => rfl
  simp [State.caldClasses, h0, List.countP_replicate]

/-! ## A VOQ replaced -/

def voqReg (x : Nat) : Bool := x == Rg.VOQ_STAT || x == Rg.VOQ_SPILLED || x == Rg.FCRD_GRANTS_HELD

/-- The VOQs of another state. -/
def takeVoqs (s t : State) : State := { s with voqs := t.voqs }

theorem keeps_takeVoqs : State.Keeps takeVoqs := ⟨fun _ _ _ _ _ _ _ => rfl, fun _ _ _ => rfl, fun _ _ _ _ _ => rfl⟩

theorem setVoq_onlyRegs (s : State) (v : Nat) (x : VoqSt) : State.onlyRegs voqReg { s with voqs := sset {} s.voqs v x } (s.setVoq v x) :=
  (((onlyRegs_refl _ _).wr rfl).wr rfl).wr rfl

theorem setVoq_voqs (s : State) (v : Nat) (x : VoqSt) : (s.setVoq v x).voqs = sset {} s.voqs v x := rfl

theorem frame_setVoq (s : State) (v : Nat) (x : VoqSt) : s.frame takeVoqs voqReg (s.setVoq v x) := setVoq_onlyRegs s v x

theorem voq_setVoq_same (s : State) (v : Nat) (x : VoqSt) : (s.setVoq v x).voq v = x := by rw [State.voq, setVoq_voqs, sget_sset_same]

theorem voq_setVoq_other (s : State) (v : Nat) (x : VoqSt) {w : Nat} (h : w ≠ v) : (s.setVoq v x).voq w = s.voq w := by
  rw [State.voq, setVoq_voqs, sget_sset_other _ _ _ _ _ _ h, State.voq]

theorem voqMode_pkts (s : State) (x : VoqSt) (v : Nat) : (s.voqMode x v).pkts = x.pkts := by
  unfold State.voqMode
  split <;> rfl

theorem voqMode_pages (s : State) (x : VoqSt) (v : Nat) : (s.voqMode x v).pages = x.pages := by
  unfold State.voqMode
  split <;> rfl

/-! ## Cells charged to a source entry -/

theorem srcUsed_setTf (s : State) (k x : Nat) : (s.setTf Pg.ADM 2 k 0 24 x).srcUsed k = x % 2 ^ 24 := by
  rw [State.srcUsed, State.tf, State.setTf, tbl_setTbl_same, bits_setBits_same]

theorem srcUsed_setXoff (s : State) (k x : Nat) : (s.setTf Pg.ADM 2 k 31 1 x).srcUsed k = s.srcUsed k := by
  rw [State.srcUsed, State.tf, State.setTf, tbl_setTbl_same, bits_setBits_disjoint _ _ _ _ _ _ (by omega), State.srcUsed, State.tf]

/-- The registers of page ADM that a charge may move. -/
def xoffReg (x : Nat) : Bool := x == Rg.ADM_PFC_XOFF_CNT || cntReg Pg.ADM x

theorem xoff_onlyRegs (s : State) : State.onlyRegs xoffReg s ((s.bump Rg.ADM_PFC_XOFF_CNT).setInt Pg.ADM Ib.ADM_XOFF) :=
  State.onlyRegs.setInt (State.onlyRegs.bump (P := xoffReg) (a := Rg.ADM_PFC_XOFF_CNT) (onlyRegs_refl _ s) (by decide) rfl fun x hx =>
    (Bool.or_eq_false_iff.1 hx).2) fun x hx => cntReg_int _ x (Bool.or_eq_false_iff.1 hx).2

theorem setTf_tblsOnly (s : State) (pg t i lo w x : Nat) : s.setTf pg t i lo w x = { s with tbls := (s.setTf pg t i lo w x).tbls } := rfl

/-- A charge that raises XOFF. -/
theorem xoff_shows {s u : State} (k : Nat) (hu : u = { s with tbls := u.tbls }) (t : State) (ht : t = (u.bump Rg.ADM_PFC_XOFF_CNT).setInt Pg.ADM Ib.ADM_XOFF) :
    State.onlyRegs xoffReg { s with tbls := t.tbls } t ∧ t.srcUsed k = u.srcUsed k := by
  have h : State.onlyRegs xoffReg u t := ht ▸ xoff_onlyRegs u
  refine ⟨?_, onlyRegs_proj h fun u => u.srcUsed k⟩
  rw [show t.tbls = u.tbls from onlyRegs_proj h State.tbls, ← hu]
  exact h

/-- A charge: the source entry, and where it rises to XOFF the count and flag (R217). -/
theorem srcUp_shows (s : State) (k n : Nat) : State.onlyRegs xoffReg { s with tbls := (s.srcUp k n).tbls } (s.srcUp k n) ∧
    (s.srcUp k n).srcUsed k = (s.srcUsed k + n) % 2 ^ 24 := by
  unfold State.srcUp
  simp only []
  generalize h1 : s.setTf Pg.ADM 2 k 0 24 (s.srcUsed k + n) = u
  have hu : u = { s with tbls := u.tbls } := h1 ▸ setTf_tblsOnly s _ _ _ _ _ _
  have hk : u.srcUsed k = (s.srcUsed k + n) % 2 ^ 24 := h1 ▸ srcUsed_setTf s k _
  split
  · generalize h2 : u.setTf Pg.ADM 2 k 31 1 1 = w
    have hw : w = { s with tbls := w.tbls } := by
      rw [← h2, setTf_tblsOnly u, hu]
    obtain ⟨hr, hs⟩ := xoff_shows k hw _ rfl
    exact ⟨hr, hs.trans (by rw [← h2, srcUsed_setXoff, hk])⟩
  · exact ⟨hu ▸ onlyRegs_refl _ _, hk⟩

end Sys2Proof.Machine
end

section
/-! SUPPORT. Admission of a lossy packet (R210 to R216). -/
namespace Sys2Proof.Machine

/-- A packet that takes no copy and no sample makes none (R226, R228). -/
theorem copies_none (s : State) (k : Pkt) (now : Nat) (hm : k.md.mirrorEn = false) (hs : k.md.sample = false) : s.copies k now = s := by
  unfold State.copies State.sampler
  simp only [hm, hs]
  split <;> rfl

/-- The checks of a lossy packet whose colour WRED leaves alone (R215, R216). -/
theorem admChecks_lossy (s : State) (c v color lane k : Nat) (hw : bit (s.prof v 12) color = false) :
    s.admChecks ⟨c, v, color, lane, false, some k⟩ = (s,
      if s.globalFull c then 1 else if s.srcLimit k < s.srcUsed k + c then 2 else if s.prof v 0 < (s.voq v).cells + c then 3
      else if s.heldOnDie v c ∧ s.prof v 2 < (s.voq v).onDie + c then 5 else 0) := by
  unfold State.admChecks State.wred
  simp only [hw]
  split_ifs <;> simp_all

/-- The packet that a lossy packet of the arrival queue joins its VOQ as. -/
def admPkt (it : AdmItem) : VPkt :=
  ⟨sealFrame it.pkt.bytes, { it.pkt.md with len := it.pkt.bytes.length + 4 }, false, some (8 * it.pkt.md.lport + it.pkt.md.tc), 0, 0, false, 0, 0, true,
    false, false⟩

/-- How admission judges it. -/
def admReq (it : AdmItem) : AdmReq :=
  ⟨cellsOf (it.pkt.bytes.length + 4), 8 * it.pkt.md.dest + it.pkt.md.tc, min 2 it.pkt.md.color, it.lane, false,
    some (8 * it.pkt.md.lport + it.pkt.md.tc)⟩

/-- A lossy packet without policer, punt, copy or flow counter, judged (R212, R215). -/
theorem admitPkt_lossy (s : State) (it : AdmItem) (now : Nat) (hc : it.copy = false) (hh : it.host = false) (hp : it.pkt.md.policeEn = false)
    (hu : it.pkt.md.punt = 0) (hf : it.pkt.md.flowCtrEn = false) (hl : bit (s.f Rg.ADM_CFG Fd.ADM_CFG_LOSSLESS_TC) it.pkt.md.tc = false) :
    (s.admitPkt it false false now).1 = if (s.admChecks (admReq it)).2 ≠ 0 then (s.admChecks (admReq it)).1.admDrop false (s.admChecks (admReq it)).2
      else (s.admChecks (admReq it)).1.join (admReq it) (admPkt it) := by
  unfold State.admitPkt admReq admPkt
  simp only [hc, hh, hp, hu, hf, hl, Bool.false_eq_true, if_false, Bool.not_false, Bool.or_false,
    bne_self_eq_false, Bool.and_false]
  split_ifs <;> rfl

/-! ## A packet joins its VOQ -/

/-- The VOQ as a packet joins its head part or its staging (R219). -/
def State.joined (s : State) (r : AdmReq) (p : VPkt) : VoqSt :=
  let x := s.voq r.v
  if !x.spill ∧ x.onDie + r.c ≤ s.spillThr r.v then { x with pkts := x.pkts ++ [p], head := x.head + r.c }
  else { x with pkts := x.pkts ++ [p], spill := true, staged := x.staged ++ [(s.tk.count, r.c)] }

theorem joined_pkts (s : State) (r : AdmReq) (p : VPkt) : (s.joined r p).pkts = (s.voq r.v).pkts ++ [p] := by
  unfold State.joined
  simp only []
  split <;> rfl

/-- A VOQ's request order with the VOQ in it. -/
def State.ordered (s : State) (v : Nat) : State :=
  if s.fab.reqOrder.contains v then s else { s with fab := { s.fab with reqOrder := s.fab.reqOrder ++ [v] } }

theorem ordered_eq (s : State) (v : Nat) : s.ordered v = { s with fab := (s.ordered v).fab } := by
  unfold State.ordered
  split <;> rfl

/-- The steps of a join, before the VOQ is replaced. -/
def State.joining (s : State) (r : AdmReq) (k : Nat) : State := (((s.cald 0 (1 * (r.c : Int)) 0).bump64 Rg.ADM_ADMIT_CNT_LO).srcUp k r.c).ordered r.v

theorem join_eq (s : State) (r : AdmReq) (p : VPkt) (k : Nat) (hl : p.lossless = false) (hs : p.source = some k) (hc : 0 < r.c) :
    s.join r p = (s.joining r k).putVoq r.v (s.joined r p) := by
  unfold State.join State.joining State.ordered State.joined
  simp only [hs, hl, caldClasses_lossy s r.c hc 1]

/-- Counts, source and admissions after a join (R212, R215). -/
theorem joining_shows (s : State) (r : AdmReq) (k : Nat) (hp : s.pageOn (Pg.ADM / 0x1000) = true) :
    (s.joining r k).admQ = s.admQ ∧ (s.joining r k).voqs = s.voqs ∧ (s.joining r k).rd Rg.CALD_LOSSY = (s.rd Rg.CALD_LOSSY + r.c) % 2 ^ 32 ∧
      (s.joining r k).srcUsed k = (s.srcUsed k + r.c) % 2 ^ 24 ∧ (s.joining r k).rd64 Rg.ADM_ADMIT_CNT_LO = (s.rd64 Rg.ADM_ADMIT_CNT_LO + 1) % 2 ^ 64 := by
  unfold State.joining
  rw [ordered_eq]
  have hc := frame_cald s 0 (1 * (r.c : Int)) 0
  have hon := cald_pageOn s 0 (1 * (r.c : Int)) 0 (Pg.ADM / 0x1000)
  have hlossy := rd_cald_lossy s 0 (1 * (r.c : Int)) 0
  have hn : (((s.rd Rg.CALD_LOSSY : Nat) : Int) + 1 * (r.c : Int)).toNat = s.rd Rg.CALD_LOSSY + r.c := by omega
  rw [hn] at hlossy
  have hq := cald_proj s 0 (1 * (r.c : Int)) 0 State.admQ
  have hv := cald_proj s 0 (1 * (r.c : Int)) 0 State.voqs
  have hu := cald_proj s 0 (1 * (r.c : Int)) 0 (fun u => u.srcUsed k)
  have h64 : (s.cald 0 (1 * (r.c : Int)) 0).rd64 Rg.ADM_ADMIT_CNT_LO = s.rd64 Rg.ADM_ADMIT_CNT_LO :=
    rd64_congr (cald_rd s _ _ _ rfl) (cald_rd s _ _ _ rfl)
  generalize s.cald 0 (1 * (r.c : Int)) 0 = u at *
  have hb := onlyRegs_bump64 u Rg.ADM_ADMIT_CNT_LO 1 (by decide)
  have hb64 := bump64_rd64 u Rg.ADM_ADMIT_CNT_LO 1 (by decide) (by decide) (by decide) (hon.trans hp)
  have hbu : (u.bump64 Rg.ADM_ADMIT_CNT_LO).srcUsed k = u.srcUsed k := onlyRegs_proj hb fun x => x.srcUsed k
  have hbq := onlyRegs_proj hb State.admQ
  have hbv := onlyRegs_proj hb State.voqs
  have hbl := hb.2 Rg.CALD_LOSSY rfl
  generalize u.bump64 Rg.ADM_ADMIT_CNT_LO = w at *
  obtain ⟨hx, hxu⟩ := srcUp_shows w k r.c
  have hxq : (w.srcUp k r.c).admQ = w.admQ := onlyRegs_proj hx State.admQ
  have hxv : (w.srcUp k r.c).voqs = w.voqs := onlyRegs_proj hx State.voqs
  have hxl : (w.srcUp k r.c).rd Rg.CALD_LOSSY = w.rd Rg.CALD_LOSSY := hx.2 _ rfl
  have hx64 : (w.srcUp k r.c).rd64 Rg.ADM_ADMIT_CNT_LO = w.rd64 Rg.ADM_ADMIT_CNT_LO := rd64_congr (hx.2 _ rfl) (hx.2 _ rfl)
  generalize w.srcUp k r.c = z at *
  refine ⟨hxq.trans (hbq.trans hq), hxv.trans (hbv.trans hv), hxl.trans (hbl.trans hlossy), hxu.trans ?_, hx64.trans (hb64.trans ?_)⟩
  · rw [hbu, hu]
  · rw [h64]

/-- A packet that joins stands at the tail of its VOQ and is charged (R212, R215, R219). -/
theorem join_shows (s : State) (r : AdmReq) (p : VPkt) (k : Nat) (hl : p.lossless = false) (hs : p.source = some k) (hc : 0 < r.c)
    (hp : s.pageOn (Pg.ADM / 0x1000) = true) :
    (s.join r p).admQ = s.admQ ∧ ((s.join r p).voq r.v).pkts = (s.voq r.v).pkts ++ [p] ∧ (∀ w, w ≠ r.v → (s.join r p).voq w = s.voq w) ∧
      (s.join r p).rd Rg.CALD_LOSSY = (s.rd Rg.CALD_LOSSY + r.c) % 2 ^ 32 ∧ (s.join r p).srcUsed k = (s.srcUsed k + r.c) % 2 ^ 24 ∧
      (s.join r p).rd64 Rg.ADM_ADMIT_CNT_LO = (s.rd64 Rg.ADM_ADMIT_CNT_LO + 1) % 2 ^ 64 := by
  obtain ⟨hq, hv, hy, hu, h64⟩ := joining_shows s r k hp
  rw [join_eq s r p k hl hs hc]
  generalize s.joining r k = t at *
  unfold State.putVoq
  have hf := frame_setVoq t r.v (t.voqMode (s.joined r p) r.v)
  refine ⟨?_, ?_, fun w hw => ?_, ?_, ?_, ?_⟩
  · exact (onlyRegs_proj hf State.admQ).trans hq
  · rw [voq_setVoq_same, voqMode_pkts, joined_pkts]
  · rw [voq_setVoq_other _ _ _ hw, State.voq, hv, State.voq]
  · exact (hf.rd keeps_takeVoqs rfl).trans hy
  · exact (onlyRegs_proj hf fun x => x.srcUsed k).trans hu
  · exact (rd64_congr (hf.rd keeps_takeVoqs rfl) (hf.rd keeps_takeVoqs rfl)).trans h64

/-! ## The decision -/

/-- The state in which the oldest packet is judged: it has left the queue and given back its arrival cells (R210). -/
def State.judged (s : State) (it : AdmItem) (rest : List AdmItem) : State :=
  State.cald { s with admQ := rest } (-(cellsOf (it.pkt.bytes.length + 4) : Nat)) 0 0

theorem admission_bad (s : State) (clk : Nat) (it : AdmItem) (rest : List AdmItem) (hq : s.admQ = it :: rest) (hh : it.head = true)
    (hc : it.cut = false) (hb : it.pkt.bad = true) : s.admission clk = (s.judged it rest).badTail := by
  unfold State.admission State.judged
  simp only [hq, hh, hc, hb, Bool.not_true, Bool.false_eq_true, if_false, if_true]

theorem admission_plain (s : State) (clk : Nat) (it : AdmItem) (rest : List AdmItem) (hq : s.admQ = it :: rest) (hh : it.head = true)
    (hc : it.cut = false) (hb : it.pkt.bad = false) (hcp : it.copy = false) (hm : it.pkt.md.mirrorEn = false) (hs : it.pkt.md.sample = false) :
    s.admission clk = ((s.judged it rest).admitPkt it false false (s.at clk)).1 := by
  unfold State.admission State.judged
  simp only [hq, hh, hc, hb, hcp, Bool.not_true, Bool.false_eq_true, if_false, copies_none _ _ _ hm hs]

/-- What the judged state shows of the state before. -/
theorem judged_shows (s : State) (it : AdmItem) (rest : List AdmItem) (hl : s.rd Rg.CALD_LOSSY < 2 ^ 32) :
    (s.judged it rest).admQ = rest ∧ (s.judged it rest).voqs = s.voqs ∧ (s.judged it rest).tbls = s.tbls ∧ (s.judged it rest).part = s.part ∧
      (s.judged it rest).rd Rg.CALD_LOSSY = s.rd Rg.CALD_LOSSY ∧ (∀ x, caldReg x = false → (s.judged it rest).rd x = s.rd x) ∧
      (s.judged it rest).pageOn (Pg.ADM / 0x1000) = s.pageOn (Pg.ADM / 0x1000) := by
  unfold State.judged
  have hy := rd_cald_lossy { s with admQ := rest } (-(cellsOf (it.pkt.bytes.length + 4) : Nat)) 0 0
  refine ⟨cald_proj _ _ _ _ State.admQ, cald_proj _ _ _ _ State.voqs, cald_proj _ _ _ _ State.tbls, cald_proj _ _ _ _ State.part, ?_,
    fun x hx => cald_rd { s with admQ := rest } _ _ _ hx, cald_pageOn { s with admQ := rest } _ _ _ _⟩
  rw [hy, Int.add_zero, Int.toNat_natCast]
  exact Nat.mod_eq_of_lt hl

theorem admReq_cells_pos (it : AdmItem) : 0 < (admReq it).c := by
  have h : (admReq it).c = (it.pkt.bytes.length + 4 + 256 - 1) / 256 := rfl
  omega

/-- The decision on a plain lossy packet, in the judged state (R215). -/
theorem admission_lossy (s : State) (clk : Nat) (it : AdmItem) (rest : List AdmItem) (hq : s.admQ = it :: rest) (hh : it.head = true)
    (hc : it.cut = false) (hy : s.rd Rg.CALD_LOSSY < 2 ^ 32) (hb : it.pkt.bad = false) (hcp : it.copy = false) (hho : it.host = false)
    (hpo : it.pkt.md.policeEn = false) (hpu : it.pkt.md.punt = 0) (hm : it.pkt.md.mirrorEn = false) (hs : it.pkt.md.sample = false)
    (hf : it.pkt.md.flowCtrEn = false) (hl : bit (s.f Rg.ADM_CFG Fd.ADM_CFG_LOSSLESS_TC) it.pkt.md.tc = false)
    (hw : bit (s.prof (admReq it).v 12) (admReq it).color = false) :
    ∃ chk, s.admission clk = (if chk ≠ 0 then (s.judged it rest).admDrop false chk else (s.judged it rest).join (admReq it) (admPkt it)) ∧
      chk = if s.rd Rg.ADM_LOSSY_MAX < s.rd Rg.CALD_LOSSY + (admReq it).c then 1
        else if s.srcLimit (8 * it.pkt.md.lport + it.pkt.md.tc) < s.srcUsed (8 * it.pkt.md.lport + it.pkt.md.tc) + (admReq it).c then 2
        else if s.prof (admReq it).v 0 < (s.voq (admReq it).v).cells + (admReq it).c then 3
        else if (s.judged it rest).heldOnDie (admReq it).v (admReq it).c ∧ s.prof (admReq it).v 2 < (s.voq (admReq it).v).onDie + (admReq it).c then 5
        else 0 := by
  obtain ⟨-, hvq, htb, hpt, hlo, hrd, -⟩ := judged_shows s it rest hy
  have hprof : ∀ v w, (s.judged it rest).prof v w = s.prof v w := fun v w => by
    simp only [State.prof, State.dest, State.tf, tbl_of_tbls htb hpt]
  have hlim : ∀ k, (s.judged it rest).srcLimit k = s.srcLimit k := fun k => by simp only [State.srcLimit, State.tf, tbl_of_tbls htb hpt]
  have hused : ∀ k, (s.judged it rest).srcUsed k = s.srcUsed k := fun k => by simp only [State.srcUsed, State.tf, tbl_of_tbls htb hpt]
  have hvoq : ∀ v, (s.judged it rest).voq v = s.voq v := fun v => by rw [State.voq, hvq, State.voq]
  have hcfg : (s.judged it rest).f Rg.ADM_CFG Fd.ADM_CFG_LOSSLESS_TC = s.f Rg.ADM_CFG Fd.ADM_CFG_LOSSLESS_TC := by
    rw [State.f, State.f, hrd _ rfl]
  have hchk := admChecks_lossy (s.judged it rest) (admReq it).c (admReq it).v (admReq it).color it.lane (8 * it.pkt.md.lport + it.pkt.md.tc)
    ((hprof _ _).symm ▸ hw)
  refine ⟨_, ?_, rfl⟩
  rw [admission_plain s clk it rest hq hh hc hb hcp hm hs, admitPkt_lossy _ it _ hcp hho hpo hpu hf (hcfg.symm ▸ hl)]
  change ((s.judged it rest).admChecks (admReq it)) = _ at hchk
  rw [hchk]
  simp only [State.globalFull, hprof, hlim, hused, hvoq, hlo, hrd Rg.ADM_LOSSY_MAX rfl, decide_eq_true_eq]

/-- A drop of a lossy packet counted at its check (R215). -/
theorem admDrop_shows (s : State) (chk a : Nat) (ha : a = if chk = 1 then Rg.ADM_DROP_GLOBAL_CNT else if chk = 2 then Rg.ADM_DROP_SRC_CNT
      else if chk = 3 then Rg.ADM_DROP_VOQ_CNT else if chk = 4 then Rg.ADM_DROP_WRED_CNT else Rg.ADM_DROP_ONDIE_CNT)
    (hp : s.pageOn (Pg.ADM / 0x1000) = true) : (s.admDrop false chk).rd a = (s.rd a + 1) % 2 ^ 32 ∧ (s.admDrop false chk).voqs = s.voqs ∧
      (s.admDrop false chk).admQ = s.admQ ∧ (s.admDrop false chk).rd Rg.CALD_LOSSY = s.rd Rg.CALD_LOSSY := by
  have ho : ownReg a = true ∧ a % 0x1000 < 0x800 ∧ 0x100 ≤ a % 0x1000 ∧ a / 0x1000 = Pg.ADM / 0x1000 ∧ Rg.CALD_LOSSY ≠ a := by
    subst ha
    split_ifs <;> decide
  obtain ⟨ho, hlt, hge, hpg, hne⟩ := ho
  have he : s.admDrop false chk = s.bump a := by rw [ha]; rfl
  rw [he]
  have hb := onlyRegs_bump s a 1 hlt
  exact ⟨bump_rd_own s a 1 ho hge hlt (hpg ▸ hp), onlyRegs_proj hb State.voqs, onlyRegs_proj hb State.admQ, rd_bump_own rfl hlt hne⟩

/-- A bad tail counted and flagged (R212). -/
theorem badTail_shows (s : State) (hp : s.pageOn (Pg.ADM / 0x1000) = true) : s.badTail.admQ = s.admQ ∧ s.badTail.voqs = s.voqs ∧
    s.badTail.rd Rg.ADM_BAD_TAIL_CNT = (s.rd Rg.ADM_BAD_TAIL_CNT + 1) % 2 ^ 32 ∧ bit (s.badTail.rd (Pg.ADM + 0x010)) Ib.ADM_BAD_TAIL = true := by
  obtain ⟨h1, h2, h3⟩ := bump_setInt_shows s Rg.ADM_BAD_TAIL_CNT Pg.ADM Ib.ADM_BAD_TAIL rfl (by decide) (by decide) (by decide)
    (fun d w hd hw => by interval_cases d <;> interval_cases w <;> decide) (by decide) hp
  exact ⟨onlyRegs_proj h3 State.admQ, onlyRegs_proj h3 State.voqs, h1, h2⟩

/-- The first segment of a packet that does not cut through (R210, R211). -/
theorem headArrival_waits (s : State) (clk : Nat) (it : AdmItem) (hf : s.admQ.find? (fun x => !x.head) = some it) (hc : s.cutsThrough it.pkt = false) :
    (s.headArrival clk).admQ = s.admQ.map (fun x => if x = it then { x with head := true } else x) ∧ (s.headArrival clk).voqs = s.voqs ∧
      (s.headArrival clk).rd Rg.CALD_ARRIVAL = (s.rd Rg.CALD_ARRIVAL + cellsOf (it.pkt.bytes.length + 4)) % 2 ^ 32 := by
  have ha := rd_cald_arrival s (cellsOf (it.pkt.bytes.length + 4) : Nat) 0 0
  have hv := cald_proj s (cellsOf (it.pkt.bytes.length + 4) : Nat) 0 0 State.voqs
  rw [← Int.natCast_add, Int.toNat_natCast] at ha
  have he : s.headArrival clk = { s.cald (cellsOf (it.pkt.bytes.length + 4) : Nat) 0 0 with
      admQ := s.admQ.map fun x => if x = it then { x with head := true } else x } := by
    unfold State.headArrival
    rw [hf]
    simp only [hc, Bool.not_false, if_true]
  rw [he]
  generalize s.cald (cellsOf (it.pkt.bytes.length + 4) : Nat) 0 0 = u at ha hv
  exact ⟨rfl, hv, ha⟩

theorem headArrival_none (s : State) (clk : Nat) (h : ∀ it ∈ s.admQ, it.head = true) : s.headArrival clk = s := by
  have hf : s.admQ.find? (fun x => !x.head) = none := List.find?_eq_none.2 fun x hx => by simp [h x hx]
  unfold State.headArrival
  rw [hf]

theorem admission_none (s : State) (clk : Nat) (h : s.admQ = [] ∨ ∃ it rest, s.admQ = it :: rest ∧ it.head = false) : s.admission clk = s := by
  unfold State.admission
  obtain h | ⟨it, rest, h, hh⟩ := h
  · rw [h]
  · simp only [h, hh, Bool.not_false, if_true]

/-- Settles O42: a decision on a plain lossy packet is a drop counted at the first check that fails, or a join of its VOQ. -/
theorem admissionOfPackets : Obligations.AdmissionOfPackets := by
  refine ⟨fun s clk h => congrArg Host.Outcome.next (headArrival_none s clk h), fun s clk it hf hc => ?_,
    fun s clk h => congrArg Host.Outcome.next (admission_none s clk h), fun s clk c v src it rest hq hh hcut hy hp hc hv hsrc => ⟨fun hb => ?_, ?_⟩⟩
  · obtain ⟨h1, h2, h3⟩ := headArrival_waits s clk it hf hc
    exact ⟨_, rfl, h1, h3, h2⟩
  · obtain ⟨hq', hvq, -, -, -, hrd, hon⟩ := judged_shows s it rest hy
    obtain ⟨h1, h2, h3, h4⟩ := badTail_shows (s.judged it rest) (hon.trans hp)
    exact ⟨_, congrArg Host.Outcome.next (admission_bad s clk it rest hq hh hcut hb), h1.trans hq', h2.trans hvq, h3.trans (by rw [hrd _ rfl]), h4⟩
  · intro hb hcp hho hpo hpu hm hs hf hl hw
    subst hc hv hsrc
    obtain ⟨chk, he, hchk⟩ := admission_lossy s clk it rest hq hh hcut hy hb hcp hho hpo hpu hm hs hf hl hw
    obtain ⟨hq', hvq, htb, hpt, hlo, hrd, hon⟩ := judged_shows s it rest hy
    have hd := fun n => admDrop_shows (s.judged it rest) n _ rfl (hon.trans hp)
    have hj := join_shows (s.judged it rest) (admReq it) (admPkt it) _ rfl rfl (admReq_cells_pos it) (hon.trans hp)
    have hvoq : ∀ v, (s.judged it rest).voq v = s.voq v := fun v => by rw [State.voq, hvq, State.voq]
    have hused : ∀ k, (s.judged it rest).srcUsed k = s.srcUsed k := fun k => by simp only [State.srcUsed, State.tf, tbl_of_tbls htb hpt]
    refine ⟨_, congrArg Host.Outcome.next he, ?_, fun hg => ?_, fun hg => ⟨fun hsr => ?_, fun hsr => ⟨fun hvo => ?_, fun hvo hod => ?_⟩⟩⟩
    · split
      · exact (hd chk).2.2.1.trans hq'
      · exact hj.1.trans hq'
    · obtain rfl : chk = 1 := hchk.trans (if_pos hg)
      rw [if_pos (by decide)]
      obtain ⟨h1, h2, -, h4⟩ := hd 1
      exact ⟨h2.trans hvq, h4.trans hlo, h1.trans (by rw [if_pos rfl, hrd _ rfl])⟩
    · obtain rfl : chk = 2 := hchk.trans ((if_neg (Nat.not_lt.2 hg)).trans (if_pos hsr))
      rw [if_pos (by decide)]
      obtain ⟨h1, h2, -, h4⟩ := hd 2
      exact ⟨h2.trans hvq, h4.trans hlo, h1.trans (by rw [if_neg (by decide), if_pos rfl, hrd _ rfl])⟩
    · obtain rfl : chk = 3 := hchk.trans ((if_neg (Nat.not_lt.2 hg)).trans ((if_neg (Nat.not_lt.2 hsr)).trans (if_pos hvo)))
      rw [if_pos (by decide)]
      obtain ⟨h1, h2, -, -⟩ := hd 3
      exact ⟨h2.trans hvq, h1.trans (by rw [if_neg (by decide), if_neg (by decide), if_pos rfl, hrd _ rfl])⟩
    · obtain rfl : chk = 0 := hchk.trans ((if_neg (Nat.not_lt.2 hg)).trans ((if_neg (Nat.not_lt.2 hsr)).trans ((if_neg (Nat.not_lt.2 hvo)).trans
        (if_neg fun h => absurd h.2 (Nat.not_lt.2 hod)))))
      rw [if_neg (by decide)]
      obtain ⟨-, hpk, hw', hly, hsu, h64⟩ := hj
      refine ⟨⟨admPkt it, hpk.trans (by rw [hvoq]; rfl), rfl, rfl⟩, fun w h => (hw' w h).trans (hvoq w), hly.trans (by rw [hlo]; rfl),
        hsu.trans (by rw [hused]; rfl), h64.trans ?_⟩
      rw [rd64_congr (hrd _ rfl) (hrd _ rfl)]

end Sys2Proof.Machine
end

section
/-! SUPPORT. Accesses to HBM (R280, R299 to R305): what reads and writes of stored words touch. -/
namespace Sys2Proof.Machine

/-- The registers that an access to HBM may change: those of the controllers, of the T-die's RAS page, and what an event logs. -/
def memReg (x : Nat) : Bool := decide (0x1060 ≤ x / 0x1000 ∧ x / 0x1000 ≤ 0x1063) || x / 0x1000 == 0x10B2 || logReg x

theorem memReg_log (x : Nat) (h : memReg x = false) : logReg x = false := (Bool.or_eq_false_iff.1 h).2

theorem memReg_hbmc {x k : Nat} (hk : k ≤ 3) (h : x / 0x1000 * 0x1000 = Pg.HBMC k) : memReg x = true := by
  have hp : 0x1060 ≤ x / 0x1000 ∧ x / 0x1000 ≤ 0x1063 := by
    rw [show Pg.HBMC k = 0x1060000 + 0x1000 * k from rfl] at h
    omega
  simp [memReg, hp]

theorem memReg_cnt {pg : Nat} (h : (0x1060 ≤ pg / 0x1000 ∧ pg / 0x1000 ≤ 0x1063) ∨ pg / 0x1000 = 0x10B2) (hg : pg % 0x1000 = 0) (x : Nat)
    (hx : memReg x = false) : cntReg pg x = false := by
  have hi := logReg_irq x (memReg_log x hx)
  simp only [memReg, Bool.or_eq_false_iff, decide_eq_false_iff_not, beq_eq_false_iff_ne] at hx
  obtain ⟨⟨h1, h2⟩, -⟩ := hx
  simp only [cntReg, intReg, hi, Bool.or_false, Bool.or_eq_false_iff, decide_eq_false_iff_not, beq_eq_false_iff_ne]
  omega

theorem memReg_int {pg : Nat} (h : (0x1060 ≤ pg / 0x1000 ∧ pg / 0x1000 ≤ 0x1063) ∨ pg / 0x1000 = 0x10B2) (hg : pg % 0x1000 = 0) (x : Nat)
    (hx : memReg x = false) : intReg pg x = false := cntReg_int _ x (memReg_cnt h hg x hx)

/-- The frame of accesses to HBM: registers in `P`, the error counts of the second, the log, words, marks, free values and output. -/
def State.memFrame (P : Nat → Bool) (s t : State) : Prop :=
  t = { s with ra := t.ra, regs := t.regs, pcie0 := t.pcie0, pcie1 := t.pcie1, out := t.out, free := t.free, lg := t.lg, marks := t.marks, hbm := t.hbm } ∧
    ∀ x, P x = false → t.rd x = s.rd x

namespace State.memFrame
variable {P Q : Nat → Bool} {s t u : State}

theorem refl (s : State) : s.memFrame P s := ⟨rfl, fun _ _ => rfl⟩

theorem trans (h1 : s.memFrame P t) (h2 : t.memFrame P u) : s.memFrame P u := by
  refine ⟨?_, fun x hx => (h2.2 x hx).trans (h1.2 x hx)⟩
  have e2 := h2.1
  rw [h1.1] at e2
  exact e2

theorem ofOnlyRegs (h : State.onlyRegs P s t) : s.memFrame P t := by
  have e := h.1
  refine ⟨?_, h.2⟩
  rw [e]

theorem ofEvent (h : s.eventFrame P t) : s.memFrame P t := by
  have e := h.1
  refine ⟨?_, h.2⟩
  rw [e]

theorem mono (h : s.memFrame P t) (hq : ∀ x, Q x = false → P x = false) : s.memFrame Q t := ⟨h.1, fun x hx => h.2 x (hq x hx)⟩

theorem regs (h : s.memFrame P t) (h2 : State.onlyRegs P t u) : s.memFrame P u := h.trans (ofOnlyRegs h2)

/-- Parts that no access to HBM touches. -/
theorem proj {α : Type} (h : s.memFrame P t) (π : State → α)
    (hπ : ∀ (v : State) (ra : RasSt) (r : Sparse Nat) (p q : PcieSt) (o : List Emit) (f : Nat) (l : LogSt) (m : Sparse WordErr) (b : Sparse Nat),
      π { v with ra := ra, regs := r, pcie0 := p, pcie1 := q, out := o, free := f, lg := l, marks := m, hbm := b } = π v := by
        exact fun _ _ _ _ _ _ _ _ _ _ => rfl) : π t = π s := by
  rw [h.1]
  exact hπ s _ _ _ _ _ _ _ _ _

theorem ite {c : Prop} [Decidable c] (h1 : s.memFrame P t) (h2 : s.memFrame P u) : s.memFrame P (if c then t else u) := by split <;> assumption

theorem foldl {β : Type} {f : State → β → State} {l : List β} (hf : ∀ (u : State) (x : β), u.memFrame P (f u x)) (h : s.memFrame P t) :
    s.memFrame P (l.foldl f t) := by
  induction l generalizing t with
  | nil => exact h
  | cons x l ih => exact ih (h.trans (hf t x))

theorem wr (h : s.memFrame P t) {a v : Nat} (ha : P a = true) : s.memFrame P (t.wr a v) := h.regs (onlyRegs_wr t a v ha)

theorem setMark (h : s.memFrame P t) {pg m a : Nat} {e : WordErr} : s.memFrame P (t.setMark pg m a e) := h.trans ⟨rfl, fun _ _ => rfl⟩

theorem draw (h : s.memFrame P t) : s.memFrame P t.draw := h.trans ⟨rfl, fun _ _ => rfl⟩

theorem ras (h : s.memFrame P t) {x : RasSt} : s.memFrame P { t with ra := x } := h.trans ⟨rfl, fun _ _ => rfl⟩

theorem words (h : s.memFrame P t) {x : Sparse Nat} : s.memFrame P { t with hbm := x } := h.trans ⟨rfl, fun _ _ => rfl⟩

theorem pageOn (h : s.memFrame P t) (hd : ∀ d ∈ [0, 1], ∀ w ∈ [0, 1], P (Rg.PWR_DOM_STAT d w) = false) (page : Nat) :
    t.pageOn page = s.pageOn page :=
  pageOn_of_rd (h.proj State.part) (h.proj State.pw) (fun d w hd' hw => h.2 _ (hd d (by
    interval_cases d <;> decide) w (by interval_cases w <;> decide))) page

end State.memFrame

theorem memReg_dom : ∀ d ∈ [0, 1], ∀ w ∈ [0, 1], memReg (Rg.PWR_DOM_STAT d w) = false := by decide

/-! ## Errors met by a read -/

theorem ras_cnt {cls o : Nat} (hc : cls < 32) (ho : o < 0x10) : (Pg.RAS 1 + 0x180 + o + 0x10 * cls) % 0x1000 < 0x800 ∧
    memReg (Pg.RAS 1 + 0x180 + o + 0x10 * cls) = true ∧ (Pg.RAS 1 + 0x180 + o + 0x10 * cls) / 0x1000 * 0x1000 = Pg.RAS 1 := by
  have h : Pg.RAS 1 = 0x10B2000 := rfl
  have h2 : (Pg.RAS 1 + 0x180 + o + 0x10 * cls) / 0x1000 = 0x10B2 := by omega
  refine ⟨by omega, by simp [memReg, h2], by omega⟩

theorem memFrame_bumpRas (s : State) {cls o : Nat} (hc : cls < 32) (ho : o < 0x10) :
    s.memFrame memReg (s.bump (Pg.RAS 1 + 0x180 + o + 0x10 * cls)) := by
  obtain ⟨h1, h2, h3⟩ := ras_cnt hc ho
  exact .ofOnlyRegs ((onlyRegs_refl _ s).bump h1 h2 fun x hx => by
    rw [h3]
    exact memReg_cnt (.inr rfl) rfl x hx)

theorem memFrame_ceCount (s : State) {cls : Nat} (hc : cls < 32) : s.memFrame memReg (s.ceCount 1 cls) := by
  have h1 : ∀ n, s.memFrame memReg (State.bump { s with ra := { s.ra with ceSec := n } } (Rg.RAS_CE_CNT 1 cls)) := fun n =>
    (State.memFrame.refl s).ras.trans (memFrame_bumpRas _ (o := 0) hc (by decide))
  exact .ite ((h1 _).regs (((onlyRegs_refl _ _).wr rfl).setInt fun x hx => memReg_int (.inr rfl) rfl x hx)) (h1 _)

theorem memFrame_captureErr (s : State) {k kind mem addr symbol pattern syn half : Nat} {sinter setCe : Bool} (hk : k ≤ 3) :
    s.memFrame memReg (s.captureErr (Pg.HBMC k) kind mem addr sinter symbol pattern syn half setCe) := by
  have hg : Pg.HBMC k % 0x1000 = 0 ∧ 0x1060 ≤ Pg.HBMC k / 0x1000 ∧ Pg.HBMC k / 0x1000 ≤ 0x1063 := by
    rw [show Pg.HBMC k = 0x1060000 + 0x1000 * k from rfl]
    omega
  have hw : ∀ o, o < 0x1000 → memReg (Pg.HBMC k + o) = true := fun o ho => memReg_hbmc hk (by omega)
  have h1 := fun (c : Prop) [Decidable c] a b d => State.memFrame.ite (c := c) (P := memReg) (State.memFrame.refl s)
    (u := ((s.wr (Pg.HBMC k + 0x020) a).wr (Pg.HBMC k + 0x024) b).wr (Pg.HBMC k + 0x028) d)
    ((((State.memFrame.refl s).wr (hw _ (by decide))).wr (hw _ (by decide))).wr (hw _ (by decide)))
  have hi := fun x hx => memReg_int (.inl hg.2) hg.1 x hx
  exact .ite ((h1 _ _ _ _).regs ((onlyRegs_refl _ _).setInt hi)) (.ite ((h1 _ _ _ _).regs ((onlyRegs_refl _ _).setInt hi)) (h1 _ _ _ _))

theorem memFrame_logUncorr (s : State) {pg cls : Nat} : s.memFrame memReg (s.logUncorr pg cls) :=
  .ite (.refl s) ((State.memFrame.refl s).ras.trans (.ofEvent ((eventFrame_log _ _ _ _).mono memReg_log)))

theorem memFrame_meetErr (s : State) {k cls mem word : Nat} {e : WordErr} {sinter : Bool} (hk : k ≤ 3) (hc : cls < 32) :
    s.memFrame memReg (s.meetErr (Pg.HBMC k) cls mem word e sinter) := by
  have hp : Pg.HBMC k ≠ Pg.EXM ∧ Pg.HBMC k / 0x1000000 = 1 := by
    rw [show Pg.HBMC k = 0x1060000 + 0x1000 * k from rfl, show Pg.EXM = 0xA0000 from rfl]
    omega
  unfold State.meetErr
  simp only [hp, false_and, if_false]
  exact .ite (.refl s) (.ite ((memFrame_ceCount s hc).trans (memFrame_captureErr _ hk))
    (.ite (((memFrame_bumpRas s (o := 4) hc (by decide)).trans (memFrame_captureErr _ hk)).trans (memFrame_logUncorr _))
      ((memFrame_bumpRas s (o := 8) hc (by decide)).trans (memFrame_captureErr _ hk))))

/-! ## Reads and writes -/

theorem hbmPlace_lt (p : Part) (o : Nat) : (p.hbmPlace o).1 ≤ 3 := by
  have h : (p.hbmPlace o).1 < p.stacks := Nat.mod_lt _ (by cases p <;> decide)
  have : p.stacks ≤ 4 := by cases p <;> decide
  omega

theorem hbmRead_fst (s : State) (cls o : Nat) : (s.hbmRead cls o).1 = (s.readWord (Pg.HBMC (s.hbmFrom o).1) cls (s.hbmFrom o).2.1 ((s.hbmFrom o).2.2 / 16)).1 := rfl

theorem memFrame_hbmRead (s : State) {cls : Nat} (o : Nat) (hc : cls < 32) : s.memFrame memReg (s.hbmRead cls o).1 := by
  rw [hbmRead_fst]
  exact memFrame_meetErr s (hbmPlace_lt s.part o) hc

theorem memFrame_wroteWord (s : State) {k : Nat} (m a : Nat) (hk : k ≤ 3) : s.memFrame memReg (s.wroteWord (Pg.HBMC k) m a) :=
  .ite ((State.memFrame.refl s).setMark.draw.wr (memReg_hbmc hk (by
    rw [show Pg.HBMC k = 0x1060000 + 0x1000 * k from rfl]
    omega))) (State.memFrame.refl s).setMark

theorem memFrame_hbmWrite (s : State) (o v : Nat) : s.memFrame memReg (s.hbmWrite o v) :=
  .foldl (fun u _ => .ite (State.memFrame.refl u).setMark (memFrame_wroteWord u _ _ (hbmPlace_lt s.part o))) (State.memFrame.refl s).words

theorem memFrame_hbmWrites (s : State) (o v n : Nat) : s.memFrame memReg (s.hbmWrites o v n) := by
  induction n generalizing s o v with
  | zero => exact .refl s
  | succ n ih => exact (memFrame_hbmWrite s _ _).trans (ih _ _ _)

theorem memFrame_hbmReads (s : State) {cls : Nat} (o n : Nat) (hc : cls < 32) : s.memFrame memReg (s.hbmReads cls o n).1 := by
  induction n generalizing s o with
  | zero => exact .refl s
  | succ n ih => exact (memFrame_hbmRead s o hc).trans (ih _ _)

/-! ## Buffer pages and their side records -/

theorem memFrame_linkWrite (s : State) (n l : Nat) : s.memFrame memReg (s.linkWrite n l) := (memFrame_hbmWrite s _ _).trans (memFrame_hbmWrite _ _ _)

theorem memFrame_pageWrite (s : State) (v n : Nat) (cells : List (List Byte × Bool × Bool)) : s.memFrame memReg (s.pageWrite v n cells) :=
  .ite ((memFrame_hbmWrites s _ _ _).trans (memFrame_linkWrite _ _ _)) (((memFrame_hbmWrites s _ _ _).trans (memFrame_linkWrite _ _ _)).trans (memFrame_hbmWrites _ _ _ _))

theorem memFrame_linkRead (s : State) (n : Nat) : s.memFrame memReg (s.linkRead n).1 := by
  have h1 := memFrame_hbmRead s (cls := 12) (s.sideOff n) (by decide)
  unfold State.linkRead
  simp only []
  split
  · exact h1
  · exact h1.trans (memFrame_hbmRead _ _ (by decide))

theorem memFrame_badWords (s : State) (o n : Nat) : s.memFrame memReg (s.badWords o n).1 := by
  induction n with
  | zero => exact .refl s
  | succ n ih => exact ih.trans (memFrame_hbmRead _ _ (by decide))

theorem memFrame_pageRead (s : State) (n : Nat) : s.memFrame memReg (s.pageRead n).1 := by
  have h1 := memFrame_badWords s (2048 * n) 128
  unfold State.pageRead
  simp only []
  split
  · exact h1
  · exact h1.trans (memFrame_badWords _ _ _)

end Sys2Proof.Machine
end

section
/-! SUPPORT. Buffer pages, the drain of stale destinations and PFC frames (R218 to R223). -/
namespace Sys2Proof.Machine

/-! ## Registers that steps before a count leave alone -/

/-- The registers in `P` read as before, and the same pages answer. -/
def State.sameRegs (P : Nat → Bool) (s t : State) : Prop := (∀ x, P x = true → t.rd x = s.rd x) ∧ ∀ page, t.pageOn page = s.pageOn page

namespace State.sameRegs
variable {P Q : Nat → Bool} {s t u : State}

theorem refl (P : Nat → Bool) (s : State) : State.sameRegs P s s := ⟨fun _ _ => rfl, fun _ => rfl⟩

theorem trans (h1 : State.sameRegs P s t) (h2 : State.sameRegs P t u) : State.sameRegs P s u :=
  ⟨fun x hx => (h2.1 x hx).trans (h1.1 x hx), fun g => (h2.2 g).trans (h1.2 g)⟩

theorem ofRegs (h : State.onlyRegs Q s t) (hP : ∀ x, P x = true → Q x = false) (hd : ∀ d ∈ [0, 1], ∀ w ∈ [0, 1], Q (Rg.PWR_DOM_STAT d w) = false) :
    State.sameRegs P s t := ⟨fun x hx => h.2 x (hP x hx), pageOn_of_onlyRegs h hd⟩

theorem ofMem (h : s.memFrame Q t) (hP : ∀ x, P x = true → Q x = false) (hd : ∀ d ∈ [0, 1], ∀ w ∈ [0, 1], Q (Rg.PWR_DOM_STAT d w) = false) :
    State.sameRegs P s t := ⟨fun x hx => h.2 x (hP x hx), h.pageOn hd⟩

/-- A change of parts other than registers, part and power. -/
theorem ofParts (hr : t.regs = s.regs) (hp : t.part = s.part) (hw : t.pw = s.pw) : State.sameRegs P s t := by
  have h : ∀ x, t.rd x = s.rd x := fun x => by rw [State.rd, State.rd, hr, hp]
  exact ⟨fun x _ => h x, pageOn_of_rd hp hw fun d w _ _ => h _⟩

theorem ite {c : Prop} [Decidable c] (h1 : State.sameRegs P s t) (h2 : State.sameRegs P s u) : State.sameRegs P s (if c then t else u) := by split <;> assumption

theorem foldl {β : Type} {f : State → β → State} {l : List β} (hf : ∀ (u : State) (x : β), State.sameRegs P u (f u x)) (h : State.sameRegs P s t) :
    State.sameRegs P s (l.foldl f t) := by
  induction l generalizing t with
  | nil => exact h
  | cons x l ih => exact ih (h.trans (hf t x))

end State.sameRegs

/-- The registers of pages BUF and VOQ that count: what cells given back, source entries and VOQs leave alone. -/
def bufReg (x : Nat) : Bool := x / 0x1000 == 0x1013 || x == Rg.VOQ_STALE_DROP_CNT

theorem bufReg_iff {x : Nat} : bufReg x = true ↔ x / 0x1000 = 0x1013 ∨ x = Rg.VOQ_STALE_DROP_CNT := by simp [bufReg]

/-- A register of one page is not a register of another. -/
theorem beq_of_page {x a p : Nat} (h : x / 0x1000 = p) (ha : a / 0x1000 ≠ p) : (x == a) = false := by
  rw [beq_eq_false_iff_ne]
  rintro rfl
  exact ha h

theorem irqReg_of_page {x p : Nat} (h : x / 0x1000 = p) (hp : p ≠ Pg.IRQ / 0x1000) : irqReg x = false := by
  have hg : Pg.IRQ % 0x1000 = 0 := rfl
  have hne : ∀ o, o < 0x1000 → x ≠ Pg.IRQ + o := fun o ho e => hp (by rw [← h, e]; omega)
  have h0 : x ≠ Rg.IRQ_MSG_CNT 0 ∧ x ≠ Rg.IRQ_MSG_CNT 1 := ⟨hne (Rg.IRQ_MSG_CNT 0 - Pg.IRQ) (by decide), hne (Rg.IRQ_MSG_CNT 1 - Pg.IRQ) (by decide)⟩
  have h1 := hne 0x010 (by decide)
  have h2 := hne 0x01C (by decide)
  have h3 := hne (x - Pg.IRQ)
  simp only [irqReg, Bool.or_eq_false_iff, decide_eq_false_iff_not, beq_eq_false_iff_ne]
  refine ⟨⟨⟨⟨h0.1, h0.2⟩, h1⟩, h2⟩, fun h => h3 (by omega) (by omega)⟩

theorem memReg_of_buf {x : Nat} (h : bufReg x = true) : memReg x = false := by
  obtain h | rfl := bufReg_iff.1 h
  · simp only [memReg, logReg, irqReg_of_page h (by decide), h]
    rfl
  · rfl

theorem caldReg_of_buf {x : Nat} (h : bufReg x = true) : caldReg x = false := by
  obtain h | rfl := bufReg_iff.1 h
  · have hne := fun a (ha : a / 0x1000 ≠ 0x1013) => beq_of_page h ha
    simp only [caldReg, intReg, irqReg_of_page h (by decide), hne Rg.CALD_ARRIVAL (by decide), hne Rg.CALD_LOSSY (by decide),
      hne Rg.CALD_LOSSLESS (by decide), hne Rg.CALD_STAT (by decide), hne Rg.CALD_PEAK (by decide), hne (Pg.CALD + 0x010) (by decide),
      hne (Pg.CALD + 0x01C) (by decide), Bool.or_false]
  · rfl

namespace State.sameRegs
variable {P Q : Nat → Bool} {s t : State}

theorem mono (h : State.sameRegs P s t) (hq : ∀ x, Q x = true → P x = true) : State.sameRegs Q s t := ⟨fun x hx => h.1 x (hq x hx), h.2⟩

theorem mem (h : State.sameRegs bufReg s t) {u : State} (h2 : t.memFrame memReg u) : State.sameRegs bufReg s u :=
  h.trans (ofMem h2 (fun _ => memReg_of_buf) memReg_dom)

theorem cald (h : State.sameRegs bufReg s t) {a l n : Int} : State.sameRegs bufReg s (t.cald a l n) :=
  h.trans ⟨fun _ hx => cald_rd t a l n (caldReg_of_buf hx), cald_pageOn t a l n⟩

theorem caldClasses (h : State.sameRegs bufReg s t) {l : List Bool} {n : Int} : State.sameRegs bufReg s (t.caldClasses l n) := by
  unfold State.caldClasses
  split
  · exact h
  · exact h.cald

theorem setTf (h : State.sameRegs P s t) {pg n i lo w v : Nat} : State.sameRegs P s (t.setTf pg n i lo w v) := h.trans (ofParts rfl rfl rfl)

theorem srcDown (h : State.sameRegs P s t) {k : Option Nat} {n : Nat} : State.sameRegs P s (t.srcDown k n) := by
  refine h.trans ?_
  unfold State.srcDown
  split
  · exact .refl P t
  · exact .ite (refl P t).setTf.setTf (refl P t).setTf

theorem putVoq (h : State.sameRegs bufReg s t) {v : Nat} {x : VoqSt} : State.sameRegs bufReg s (t.putVoq v x) := by
  have hv : ∀ y, State.sameRegs bufReg t { t with voqs := y } := fun y => ofParts rfl rfl rfl
  refine h.trans ((hv _).trans (ofRegs (setVoq_onlyRegs t v (t.voqMode x v)) (fun y hy => ?_) (by decide)))
  obtain hy | rfl := bufReg_iff.1 hy
  · simp only [voqReg, beq_of_page hy (show Rg.VOQ_STAT / 0x1000 ≠ 0x1013 by decide), beq_of_page hy (show Rg.VOQ_SPILLED / 0x1000 ≠ 0x1013 by decide),
      beq_of_page hy (show Rg.FCRD_GRANTS_HELD / 0x1000 ≠ 0x1013 by decide), Bool.or_false]
  · rfl

theorem poisonDrop (h : State.sameRegs bufReg s t) : State.sameRegs bufReg s t.poisonDrop := by
  obtain ⟨-, hr⟩ := State.onlyRegs.setInt (pg := Pg.VOQ) (b := Ib.VOQ_POISON_DROP) (onlyRegs_bump t Rg.VOQ_POISON_DROP_CNT 1 (by decide)) fun x hx =>
    cntReg_int _ x (Bool.or_eq_false_iff.1 hx).2
  refine h.trans ⟨fun x hx => hr x ?_, fun page => ?_⟩
  · obtain hx | rfl := bufReg_iff.1 hx
    · have hpg : ¬ (Pg.VOQ + 0x040 ≤ x ∧ x < Pg.VOQ + 0x07C) := fun h => by
        have : Pg.VOQ = 0x1010000 := rfl
        omega
      simp only [beq_of_page hx (show Rg.VOQ_POISON_DROP_CNT / 0x1000 ≠ 0x1013 by decide), cntReg, intReg, irqReg_of_page hx (by decide),
        beq_of_page hx (show (Pg.VOQ + 0x010) / 0x1000 ≠ 0x1013 by decide), beq_of_page hx (show (Pg.VOQ + 0x01C) / 0x1000 ≠ 0x1013 by decide),
        show Rg.VOQ_POISON_DROP_CNT / 0x1000 * 0x1000 = Pg.VOQ from rfl, hpg, decide_false, Bool.or_false]
    · rfl
  · exact (setInt_pageOn _ _ _ _ rfl).trans (bump_pageOn t Rg.VOQ_POISON_DROP_CNT 1 page (by decide) (ne_domStat_page (by decide) (by decide)))

end State.sameRegs

/-! ## Buffer pages taken and given back -/

theorem pagesFree_onlyRegs (s : State) (d : Int) : State.onlyRegs (fun x => x == Rg.BUF_PAGES_FREE || x == Rg.BUF_PAGES_LOW) s (s.pagesFree d) :=
  ((onlyRegs_refl _ s).wr rfl).wr rfl

theorem rd_pagesFree (s : State) (d : Int) : (s.pagesFree d).rd Rg.BUF_PAGES_FREE = ((s.rd Rg.BUF_PAGES_FREE : Int) + d).toNat % 2 ^ 32 := by
  unfold State.pagesFree State.setFree
  simp only []
  rw [rd_wr_other _ _ _ _ (by decide), rd_wr_same]

theorem pagesFree_pageOn (s : State) (d : Int) (page : Nat) : (s.pagesFree d).pageOn page = s.pageOn page :=
  pageOn_of_onlyRegs (pagesFree_onlyRegs s d) (by decide) page

namespace State.sameRegs
variable {P : Nat → Bool} {s t : State}

theorem bump (h : State.sameRegs P s t) {a n : Nat} (hP : ∀ x, P x = true → ownReg x = true ∧ x ≠ a) (ha : a % 0x1000 < 0x800) (h0 : a / 0x1000 ≠ 0xE0)
    (h1 : a / 0x1000 ≠ 0x10B0) : State.sameRegs P s (t.bump a n) :=
  h.trans ⟨fun x hx => rd_bump_own (hP x hx).1 ha (hP x hx).2, fun g => bump_pageOn t a n g ha (ne_domStat_page h0 h1)⟩

theorem bumpIf (h : State.sameRegs P s t) {c : Bool} {a : Nat} (hP : ∀ x, P x = true → ownReg x = true ∧ x ≠ a) (ha : a % 0x1000 < 0x800)
    (h0 : a / 0x1000 ≠ 0xE0) (h1 : a / 0x1000 ≠ 0x10B0) : State.sameRegs P s (t.bumpIf c a) := .ite (h.bump hP ha h0 h1) h

theorem setInt (h : State.sameRegs P s t) {pg b : Nat} (hP : ∀ x, P x = true → ownReg x = true) (hg : pg % 0x1000 = 0) :
    State.sameRegs P s (t.setInt pg b) := h.trans ⟨fun x hx => rd_setInt_own (hP x hx) hg, fun g => setInt_pageOn t pg b g hg⟩

end State.sameRegs

/-- A VOQ whose oldest staged cells went to a page. -/
def VoqSt.spilled (x : VoqSt) (n : Nat) : VoqSt :=
  { x with pages := x.pages ++ [(n, min 8 x.nstaged)], staged := dropStaged (min 8 x.nstaged) x.staged }

/-- A VOQ whose oldest page came back. -/
def VoqSt.returned (x : VoqSt) (pk : List VPkt) (c : Nat) (rest : List (Nat × Nat)) : VoqSt := { x with pkts := pk, head := x.head + c, pages := rest }

theorem buf_of_page {a : Nat} (h : a / 0x1000 = 0x1013) : bufReg a = true := bufReg_iff.2 (.inl h)

/-- A page write, up to the counts of pages. -/
theorem spillWrite_eq (s : State) (v n : Nat) (hw : s.wantsPage (s.voq v) = true) (hf : s.pageFree n = true) (h0 : s.rd Rg.BUF_PAGES_FREE ≠ 0)
    (hu : s.allUp = true) : ∃ u, State.sameRegs bufReg s u ∧ s.spillWrite v n =
      (((u.pagesFree (-1)).bump Rg.BUF_SPILL_PAGE_CNT).bumpIf (decide (min 8 (s.voq v).nstaged < 8)) Rg.BUF_PARTIAL_PAGE_CNT).putVoq v
        ((s.voq v).spilled n) := by
  unfold State.spillWrite
  simp only [hw, hf, hu, beq_eq_false_iff_ne.2 h0, Bool.not_true, Bool.or_false, Bool.false_eq_true, if_false]
  refine ⟨_, ?_, rfl⟩
  have h1 := (State.sameRegs.refl bufReg s).mem (memFrame_pageWrite s v n (((s.voq v).cellData.drop ((s.voq v).head + (s.voq v).inHbm)).take
    (min 8 (s.voq v).nstaged)))
  refine State.sameRegs.caldClasses ?_
  split
  · exact h1.mem (memFrame_linkWrite _ _ _)
  · exact h1

theorem spillWrite_shows (s : State) (v n : Nat) (hp : s.pageOn (Pg.BUF / 0x1000) = true) (hw : s.wantsPage (s.voq v) = true)
    (hf : s.pageFree n = true) (h0 : s.rd Rg.BUF_PAGES_FREE ≠ 0) (hu : s.allUp = true) :
    ((s.spillWrite v n).voq v).pages = (s.voq v).pages ++ [(n, min 8 (s.voq v).nstaged)] ∧
    ((s.spillWrite v n).voq v).staged = dropStaged (min 8 (s.voq v).nstaged) (s.voq v).staged ∧ ((s.spillWrite v n).voq v).pkts = (s.voq v).pkts ∧
    (s.spillWrite v n).rd Rg.BUF_PAGES_FREE = (s.rd Rg.BUF_PAGES_FREE - 1) % 2 ^ 32 ∧
    (s.spillWrite v n).rd Rg.BUF_SPILL_PAGE_CNT = (s.rd Rg.BUF_SPILL_PAGE_CNT + 1) % 2 ^ 32 ∧
    (s.spillWrite v n).rd Rg.BUF_PARTIAL_PAGE_CNT =
      if (s.voq v).nstaged < 8 then (s.rd Rg.BUF_PARTIAL_PAGE_CNT + 1) % 2 ^ 32 else s.rd Rg.BUF_PARTIAL_PAGE_CNT := by
  obtain ⟨u, ⟨hr, hg⟩, he⟩ := spillWrite_eq s v n hw hf h0 hu
  rw [he]
  generalize hx : (s.voq v).spilled n = x
  generalize hc : decide (min 8 (s.voq v).nstaged < 8) = c
  obtain ⟨hv, -⟩ := (State.sameRegs.refl bufReg (((u.pagesFree (-1)).bump Rg.BUF_SPILL_PAGE_CNT).bumpIf c Rg.BUF_PARTIAL_PAGE_CNT)).putVoq (v := v) (x := x)
  have hon : (u.pagesFree (-1)).pageOn (Pg.BUF / 0x1000) = true := (pagesFree_pageOn u _ _).trans ((hg _).trans hp)
  have hfree := rd_pagesFree u (-1)
  have hkeep := (pagesFree_onlyRegs u (-1)).2
  have hs1 := hkeep Rg.BUF_SPILL_PAGE_CNT rfl
  have hp1 := hkeep Rg.BUF_PARTIAL_PAGE_CNT rfl
  generalize u.pagesFree (-1) = t at *
  have hx1 : x.pages ≠ [] := by simp [← hx, VoqSt.spilled]
  have hmode : ∀ y : State, y.voqMode x v = x := fun y => by
    unfold State.voqMode
    simp [hx1]
  unfold State.putVoq at hv ⊢
  rw [voq_setVoq_same, hmode] at *
  refine ⟨hx ▸ rfl, hx ▸ rfl, hx ▸ rfl, ?_, ?_, ?_⟩
  · rw [hv _ (buf_of_page rfl), rd_bumpIf_own rfl (by decide) (by decide), rd_bump_own rfl (by decide) (by decide), hfree, hr _ (buf_of_page rfl)]
    congr 1
    omega
  · rw [hv _ (buf_of_page rfl), rd_bumpIf_own rfl (by decide) (by decide), bump_rd_own _ Rg.BUF_SPILL_PAGE_CNT 1 rfl (by decide) (by decide) hon, hs1, hr _ (buf_of_page rfl)]
  · rw [hv _ (buf_of_page rfl)]
    have hon2 : (t.bump Rg.BUF_SPILL_PAGE_CNT).pageOn (Pg.BUF / 0x1000) = true :=
      (bump_pageOn t Rg.BUF_SPILL_PAGE_CNT 1 _ (by decide) (ne_domStat_page (by decide) (by decide))).trans hon
    unfold State.bumpIf
    have hcc : c = true ↔ (s.voq v).nstaged < 8 := by
      rw [← hc, decide_eq_true_eq]
      omega
    by_cases hlt : (s.voq v).nstaged < 8
    · rw [if_pos (hcc.2 hlt), if_pos hlt, bump_rd_own _ Rg.BUF_PARTIAL_PAGE_CNT 1 rfl (by decide) (by decide) hon2, rd_bump_own rfl (by decide) (by decide), hp1,
        hr _ (buf_of_page rfl)]
    · rw [if_neg fun e => hlt (hcc.1 e), if_neg hlt, rd_bump_own rfl (by decide) (by decide), hp1, hr _ (buf_of_page rfl)]

/-! ## A page read back -/

/-- The registers by which a page's return counts. -/
def retReg (x : Nat) : Bool := x == Rg.BUF_PAGES_FREE || x == Rg.BUF_RETURN_PAGE_CNT

theorem retReg_iff {x : Nat} : retReg x = true ↔ x = Rg.BUF_PAGES_FREE ∨ x = Rg.BUF_RETURN_PAGE_CNT := by simp [retReg]

theorem buf_of_ret {x : Nat} (h : retReg x = true) : bufReg x = true := by obtain rfl | rfl := retReg_iff.1 h <;> rfl

/-- A page's data read, with what the outer code corrected or could not correct counted (R223). -/
def State.pageBack (s : State) (n : Nat) : State :=
  let s3 := (s.pageRead n).1.bumpIf ((s.pageRead n).2 == 1) Rg.BUF_RS_CORR_CNT
  if (s.pageRead n).2 = 2 then (s3.bump Rg.BUF_POISON_PAGE_CNT).setInt Pg.BUF Ib.BUF_POISON else s3

/-- The cells of a page join Caldera again. -/
def State.pageCells (s : State) (n : Nat) (x : VoqSt) (c : Nat) : State :=
  ((s.linkRead n).1.pageBack n).caldClasses ((x.classes.drop x.head).take c) 1

/-- The counts of a page that returned, where the side record could be read. -/
theorem pageReturn_eq (s : State) (v n c : Nat) (rest : List (Nat × Nat)) (hg : (s.voq v).pages = (n, c) :: rest) (hs : (s.voq v).spill = true)
    (hh : 2 * (s.voq v).head < s.spillThr v) (hu : s.allUp = true) (hc : 8192 + s.rd Rg.CALD_LOSSY + s.rd Rg.CALD_LOSSLESS + c ≤ s.caldCells)
    (hl : (s.linkRead n).2 = true) : ∃ u pk, State.sameRegs retReg s u ∧
      s.pageReturn v = ((u.pagesFree 1).bump Rg.BUF_RETURN_PAGE_CNT).putVoq v ((s.voq v).returned pk c rest) := by
  refine ⟨s.pageCells n (s.voq v) c, if ((s.linkRead n).1.pageRead n).2 = 2 then
    poisonRange (s.voq v).head ((s.voq v).head + c) 0 (s.voq v).pkts else (s.voq v).pkts, ?_, ?_⟩
  rotate_left
  · unfold State.pageReturn
    simp only [hg, hs, hu, hl, decide_eq_false (Nat.not_le.2 hh), decide_eq_false (Nat.not_lt.2 hc), Bool.not_true, Bool.or_false, Bool.false_eq_true,
      if_false, State.pageCells, State.pageBack, VoqSt.returned]
  have h1 := ((State.sameRegs.refl bufReg s).mem (memFrame_linkRead s n)).mem (memFrame_pageRead _ n)
  have h2 : State.sameRegs retReg s (((s.linkRead n).1.pageRead n).1.bumpIf (((s.linkRead n).1.pageRead n).2 == 1) Rg.BUF_RS_CORR_CNT) :=
    (h1.mono fun x => buf_of_ret).bumpIf (fun x hx => by obtain rfl | rfl := retReg_iff.1 hx <;> decide) (by decide) (by decide) (by decide)
  have h3 := (h2.bump (a := Rg.BUF_POISON_PAGE_CNT) (n := 1) (fun x hx => by obtain rfl | rfl := retReg_iff.1 hx <;> decide) (by decide)
    (by decide) (by decide)).setInt (pg := Pg.BUF) (b := Ib.BUF_POISON) (fun x hx => by obtain rfl | rfl := retReg_iff.1 hx <;> rfl) rfl
  have h4 : State.sameRegs retReg s ((s.linkRead n).1.pageBack n) := .ite h3 h2
  exact h4.trans ((State.sameRegs.caldClasses (.refl bufReg _)).mono fun x => buf_of_ret)

theorem voqMode_head (s : State) (x : VoqSt) (v : Nat) : x.head ≤ (s.voqMode x v).head := by
  unfold State.voqMode
  split
  · exact Nat.le_add_right _ _
  · exact Nat.le_refl _

theorem pageReturn_back (s : State) (v n c : Nat) (rest : List (Nat × Nat)) (hp : s.pageOn (Pg.BUF / 0x1000) = true)
    (hg : (s.voq v).pages = (n, c) :: rest) (hs : (s.voq v).spill = true) (hh : 2 * (s.voq v).head < s.spillThr v) (hu : s.allUp = true)
    (hc : 8192 + s.rd Rg.CALD_LOSSY + s.rd Rg.CALD_LOSSLESS + c ≤ s.caldCells) (hl : (s.linkRead n).2 = true) :
    ((s.pageReturn v).voq v).pages = rest ∧ (s.voq v).head + c ≤ ((s.pageReturn v).voq v).head ∧
      (s.pageReturn v).rd Rg.BUF_RETURN_PAGE_CNT = (s.rd Rg.BUF_RETURN_PAGE_CNT + 1) % 2 ^ 32 ∧
      (s.pageReturn v).rd Rg.BUF_PAGES_FREE = (s.rd Rg.BUF_PAGES_FREE + 1) % 2 ^ 32 := by
  obtain ⟨u, pk, ⟨hr, hon⟩, he⟩ := pageReturn_eq s v n c rest hg hs hh hu hc hl
  rw [he]
  obtain ⟨hv, -⟩ := (State.sameRegs.refl bufReg ((u.pagesFree 1).bump Rg.BUF_RETURN_PAGE_CNT)).putVoq (v := v) (x := (s.voq v).returned pk c rest)
  have hon' := (pagesFree_pageOn u 1 _).trans ((hon (Pg.BUF / 0x1000)).trans hp)
  refine ⟨?_, ?_, ?_, ?_⟩
  · rw [State.putVoq, voq_setVoq_same, voqMode_pages]
    rfl
  · rw [State.putVoq, voq_setVoq_same]
    exact voqMode_head _ ((s.voq v).returned pk c rest) v
  · rw [hv _ (buf_of_page rfl), bump_rd_own _ Rg.BUF_RETURN_PAGE_CNT 1 rfl (by decide) (by decide) hon', (pagesFree_onlyRegs u 1).2 _ rfl, hr _ rfl]
  · rw [hv _ (buf_of_page rfl), rd_bump_own rfl (by decide) (by decide), rd_pagesFree, hr _ rfl]
    congr 1

/-! ## A page whose side record is lost -/

/-- The state in which the lost pages are counted: their packets' cells given back and the discards counted. -/
theorem pageLost_eq (s : State) (v : Nat) : ∃ u pk, State.sameRegs bufReg s u ∧ s.pageLost v =
    ((((u.wr Rg.BUF_PAGES_TOTAL (u.rd Rg.BUF_PAGES_TOTAL - (((s.voq v).pages.drop 1).map (·.1)).length)).bump Rg.BUF_PAGE_LOST_CNT
      (((s.voq v).pages.drop 1).map (·.1)).length).pagesFree 1).setInt Pg.BUF Ib.BUF_PAGE_LOST).putVoq v { s.voq v with pkts := pk, pages := [] } := by
  unfold State.pageLost
  refine ⟨_, _, ?_, rfl⟩
  refine State.sameRegs.trans (State.sameRegs.foldl (fun u _ => (State.sameRegs.refl bufReg u).poisonDrop) ?_) (.ofParts rfl rfl rfl)
  generalize (s.voq v).pkts = l
  have h : ∀ (l : List VPkt) (t : State × Nat) (f : VPkt → Nat → Nat), State.sameRegs bufReg s t.1 →
      State.sameRegs bufReg s (l.foldl (fun t p => (t.1.srcDown p.source (f p t.2), t.2 + p.rem)) t).1 := fun l => by
    induction l with
    | nil => exact fun _ _ h => h
    | cons p l ih => exact fun t f h => ih _ f h.srcDown
  exact h l (s, 0) (fun p i => min ((s.voq v).head + (s.voq v).inHbm) (i + p.rem) - max (s.voq v).head i) (.refl bufReg s)

theorem pageLost_shows (s : State) (v n c : Nat) (rest : List (Nat × Nat)) (hp : s.pageOn (Pg.BUF / 0x1000) = true)
    (hg : (s.voq v).pages = (n, c) :: rest) : ((s.pageLost v).voq v).pages = [] ∧ bit ((s.pageLost v).rd (Pg.BUF + 0x010)) Ib.BUF_PAGE_LOST = true ∧
      (s.pageLost v).rd Rg.BUF_PAGE_LOST_CNT = (s.rd Rg.BUF_PAGE_LOST_CNT + rest.length) % 2 ^ 32 ∧
      (s.pageLost v).rd Rg.BUF_PAGES_TOTAL = (s.rd Rg.BUF_PAGES_TOTAL - rest.length) % 2 ^ 32 := by
  obtain ⟨u, pk, ⟨hr, hon⟩, he⟩ := pageLost_eq s v
  have hlen : (((s.voq v).pages.drop 1).map (·.1)).length = rest.length := by rw [hg]; simp
  rw [he, hlen]
  have h0 : State.sameRegs (fun x => x == Rg.BUF_PAGE_LOST_CNT) u (u.wr Rg.BUF_PAGES_TOTAL (u.rd Rg.BUF_PAGES_TOTAL - rest.length)) :=
    .ofRegs (Q := fun x => x == Rg.BUF_PAGES_TOTAL) (onlyRegs_wr u _ _ (by decide)) (fun x hx => by simp at hx; subst hx; rfl) (by decide)
  have ht := rd_wr_same u Rg.BUF_PAGES_TOTAL (u.rd Rg.BUF_PAGES_TOTAL - rest.length)
  generalize u.wr Rg.BUF_PAGES_TOTAL (u.rd Rg.BUF_PAGES_TOTAL - rest.length) = w at *
  have hw : w.pageOn (Pg.BUF / 0x1000) = true := (h0.2 _).trans ((hon _).trans hp)
  have hl := bump_rd_own w Rg.BUF_PAGE_LOST_CNT rest.length rfl (by decide) (by decide) hw
  have hb : State.sameRegs (fun x => x == Rg.BUF_PAGES_TOTAL) w (w.bump Rg.BUF_PAGE_LOST_CNT rest.length) :=
    (State.sameRegs.refl _ w).bump (fun x hx => by simp at hx; subst hx; decide) (by decide) (by decide) (by decide)
  generalize w.bump Rg.BUF_PAGE_LOST_CNT rest.length = y at *
  have hz := (pagesFree_onlyRegs y 1).2
  have hzt := hz Rg.BUF_PAGES_TOTAL rfl
  have hzl := hz Rg.BUF_PAGE_LOST_CNT rfl
  have hzon : (y.pagesFree 1).pageOn (Pg.BUF / 0x1000) = true := (pagesFree_pageOn y 1 _).trans ((hb.2 _).trans hw)
  generalize y.pagesFree 1 = z at *
  obtain ⟨hv, -⟩ := (State.sameRegs.refl bufReg (z.setInt Pg.BUF Ib.BUF_PAGE_LOST)).putVoq (v := v) (x := { s.voq v with pkts := pk, pages := [] })
  refine ⟨?_, ?_, ?_, ?_⟩
  · rw [State.putVoq, voq_setVoq_same, voqMode_pages]
  · rw [hv _ (buf_of_page rfl)]
    exact setInt_bit z Pg.BUF Ib.BUF_PAGE_LOST rfl (by decide) hzon
  · rw [hv _ (buf_of_page rfl), rd_setInt_own rfl rfl, hzl, hl, h0.1 _ (by simp), hr _ (buf_of_page rfl)]
  · rw [hv _ (buf_of_page rfl), rd_setInt_own rfl rfl, hzt, hb.1 _ (by simp), ht, hr _ (buf_of_page rfl)]

theorem pageReturn_lost (s : State) (v n c : Nat) (rest : List (Nat × Nat)) (hg : (s.voq v).pages = (n, c) :: rest) (hs : (s.voq v).spill = true)
    (hh : 2 * (s.voq v).head < s.spillThr v) (hu : s.allUp = true) (hc : 8192 + s.rd Rg.CALD_LOSSY + s.rd Rg.CALD_LOSSLESS + c ≤ s.caldCells)
    (hl : (s.linkRead n).2 = false) : s.pageReturn v = (s.linkRead n).1.pageLost v := by
  unfold State.pageReturn
  simp only [hg, hs, hu, hl, decide_eq_false (Nat.not_le.2 hh), decide_eq_false (Nat.not_lt.2 hc), Bool.not_true, Bool.or_false, Bool.false_eq_true,
    if_false, Bool.not_false, if_true]

theorem pageReturn_none (s : State) (v n c : Nat) (rest : List (Nat × Nat)) (hg : (s.voq v).pages = (n, c) :: rest)
    (h : (s.voq v).spill = false ∨ s.spillThr v ≤ 2 * (s.voq v).head) : s.pageReturn v = s := by
  have hc : (!(s.voq v).spill || decide (s.spillThr v ≤ 2 * (s.voq v).head)) = true := by simpa using h
  unfold State.pageReturn
  simp only [hg, hc, Bool.true_or, if_true]

/-! ## The drain of a stale destination -/

theorem staleDrain_none (s : State) (h : ∀ e ∈ s.voqs, s.destValid e.1 = true ∨ e.2.pkts = []) : s.staleDrain = s := by
  unfold State.staleDrain
  rw [List.find?_eq_none.2]
  intro e he
  obtain h | h := h e he
  · simp [h]
  · simp [h]

/-- The register by which a discard of the drain counts. -/
def staleReg (x : Nat) : Bool := x == Rg.VOQ_STALE_DROP_CNT

theorem buf_of_stale {x : Nat} (h : staleReg x = true) : bufReg x = true := by
  obtain rfl : x = Rg.VOQ_STALE_DROP_CNT := by simpa [staleReg] using h
  rfl

/-- A VOQ's oldest packet discarded whole: it leaves, and what counts the drain's discards stays. -/
theorem voqDrop_shows (s : State) (v : Nat) (p : VPkt) (rest : List VPkt) (h : (s.voq v).pkts = p :: rest) :
    ((s.voqDrop v).voq v).pkts = rest ∧ State.sameRegs staleReg s (s.voqDrop v) := by
  unfold State.voqDrop State.voqFree
  simp only [h, if_true]
  refine ⟨?_, ?_⟩
  · rw [State.putVoq, voq_setVoq_same, voqMode_pkts]
  · have h1 : State.sameRegs staleReg s (s.caldClasses (List.replicate ((s.voq v).takeCells p.rem).2.1 p.lossless) (-1)) :=
      (State.sameRegs.caldClasses (.refl bufReg s)).mono fun _ => buf_of_stale
    have h2 := h1.trans (.ofRegs (pagesFree_onlyRegs _ ((s.voq v).takeCells p.rem).2.2) (fun x hx => by
      obtain rfl : x = Rg.VOQ_STALE_DROP_CNT := by simpa [staleReg] using hx
      rfl) (by decide))
    exact (h2.srcDown (k := p.source) (n := p.rem)).trans ((State.sameRegs.putVoq (.refl bufReg _)).mono fun _ => buf_of_stale)

theorem staleDrain_one (s : State) (v : Nat) (x : VoqSt) (p : VPkt) (rest : List VPkt) (hv : s.voqs = [(v, x)]) (hd : s.destValid v = false)
    (hx : x.pkts = p :: rest) (hb : p.begun = false) (hg : x.pages = []) :
    s.staleDrain = ((s.voqDrop v).bump Rg.VOQ_STALE_DROP_CNT).setInt Pg.VOQ Ib.VOQ_STALE_DROP := by
  unfold State.staleDrain
  rw [hv, List.find?_cons_of_pos (by simp [hd, hx, hb])]
  simp only [hx, hg, List.take_nil, List.map_nil, ite_self]
  rfl

theorem staleDrain_shows (s : State) (v : Nat) (x : VoqSt) (p : VPkt) (rest : List VPkt) (hp : s.pageOn (Pg.VOQ / 0x1000) = true)
    (hv : s.voqs = [(v, x)]) (hd : s.destValid v = false) (hx : x.pkts = p :: rest) (hb : p.begun = false) (hg : x.pages = []) :
    (s.staleDrain.voq v).pkts = rest ∧ s.staleDrain.rd Rg.VOQ_STALE_DROP_CNT = (s.rd Rg.VOQ_STALE_DROP_CNT + 1) % 2 ^ 32 ∧
      bit (s.staleDrain.rd (Pg.VOQ + 0x010)) Ib.VOQ_STALE_DROP = true := by
  have hq : (s.voq v).pkts = p :: rest := by
    rw [State.voq, hv]
    simpa [sget] using hx
  obtain ⟨h1, h2, h3⟩ := voqDrop_shows s v p rest hq
  rw [staleDrain_one s v x p rest hv hd hx hb hg]
  generalize s.voqDrop v = u at *
  obtain ⟨k1, k2, k3⟩ := bump_setInt_shows u Rg.VOQ_STALE_DROP_CNT Pg.VOQ Ib.VOQ_STALE_DROP rfl (by decide) (by decide) (by decide)
    (ne_domStat_page (by decide) (by decide)) (by decide) ((h3 _).trans hp)
  exact ⟨(congrArg VoqSt.pkts (onlyRegs_proj k3 fun w => w.voq v)).trans h1, k1.trans (by rw [h2 _ rfl]), k2⟩

/-! ## PFC frames -/

/-- The quanta of a frame: those of the priorities named, 0 elsewhere (R218). -/
def pfcQuanta (want quanta : Nat) : Nat := (onesOf 8 want).foldl (fun a i => setBits a (16 * i) 16 quanta) 0

theorem bits_foldl_quanta (q i : Nat) (l : List Nat) (a : Nat) :
    bits (l.foldl (fun a i => setBits a (16 * i) 16 q) a) (16 * i) 16 = if i ∈ l then q % 2 ^ 16 else bits a (16 * i) 16 := by
  induction l generalizing a with
  | nil => simp
  | cons j l ih =>
    rw [List.foldl_cons, ih]
    by_cases hl : i ∈ l
    · simp [hl]
    · by_cases hj : i = j
      · subst hj
        simp [hl, bits_setBits_same]
      · rw [if_neg hl, if_neg (by simp [hj, hl]), bits_setBits_disjoint _ _ _ _ _ _ (by omega)]

theorem bits_pfcQuanta (want q i : Nat) (hi : i < 8) (hq : q < 2 ^ 16) : bits (pfcQuanta want q) (16 * i) 16 = if bit want i then q else 0 := by
  rw [pfcQuanta, bits_foldl_quanta, Nat.mod_eq_of_lt hq]
  simp [onesOf, hi, bits]

/-- What a PFC frame leaves: the pauses announced, and the frame (R218). -/
theorem pfcSend_announces (s : State) (p : Nat) : ((s.pfcSend p).lport p).pfcSent = s.pauseWant p ∧
    Emit.pfc p (s.pauseWant p ||| (s.lport p).pfcSent) (pfcQuanta (s.pauseWant p) (s.f Rg.ADM_PFC_TIME Fd.ADM_PFC_TIME_QUANTA)) ∈ (s.pfcSend p).out := by
  refine ⟨?_, List.mem_cons_self⟩
  have hf : State.onlyRegs _ (s.setLport p { s.lport p with pfcSent := s.pauseWant p }) ((s.setLport p { s.lport p with pfcSent := s.pauseWant p }).lpBump p 10) :=
    onlyRegs_bump64 _ (lpCnt p 10) 1 (by rw [lpCnt_val]; omega)
  have h := onlyRegs_proj hf fun u => u.lport p
  unfold State.pfcSend
  exact (congrArg LinePort.pfcSent h).trans (by rw [lport_setLport])

theorem pfcTx_sends (s : State) (p : Nat) (hon : s.lportOn p = true) (hu : s.lkIsUp p = true) (h : s.pauseWant p ≠ (s.lport p).pfcSent) :
    s.pfcTx p = s.pfcSend p := by
  unfold State.pfcTx
  rw [hon, hu, bne_iff_ne.2 h]
  rfl

theorem pfcRefresh_sends (s : State) (p : Nat) (hon : s.lportOn p = true) (hu : s.lkIsUp p = true) (h : s.pauseWant p ≠ 0) :
    s.pfcRefresh p = s.pfcSend p := by
  unfold State.pfcRefresh
  rw [hon, hu, bne_iff_ne.2 h]
  rfl

theorem pfcTx_none (s : State) (p : Nat) (h : s.lkIsUp p = false ∨ s.pauseWant p = (s.lport p).pfcSent) : s.pfcTx p = s := by
  unfold State.pfcTx
  obtain h | h := h <;> simp [h]

theorem pfcRefresh_none (s : State) (p : Nat) (h : s.lkIsUp p = false ∨ s.pauseWant p = 0) : s.pfcRefresh p = s := by
  unfold State.pfcRefresh
  obtain h | h := h <;> simp [h]

/-- Settles O43: each command's steps leave the registers of the page counts alone until they count. -/
theorem bufferPagesAndPause : Obligations.BufferPagesAndPause := by
  refine ⟨fun s v n hp => ⟨fun h => ?_, fun hw hf h0 hu => ⟨_, rfl, spillWrite_shows s v n hp hw hf h0 hu⟩⟩, fun s v n c rest hp hg => ⟨fun h => ?_, ?_⟩,
    fun s h => congrArg Host.Outcome.next (staleDrain_none s h), fun s v x p rest hp hv hd hx hb hg => ⟨_, rfl, staleDrain_shows s v x p rest hp hv hd hx hb hg⟩,
    fun s p hon => ⟨fun h => ?_, fun h => ?_, fun hu h => ?_, fun h => ?_, fun hu h => ?_⟩⟩
  · refine congrArg Host.Outcome.next ?_
    unfold State.spillWrite
    obtain h | h := h <;> simp [h]
  · exact congrArg Host.Outcome.next (pageReturn_none s v n c rest hg h)
  · intro hs hh hu hc
    refine ⟨_, rfl, fun hl => pageReturn_back s v n c rest hp hg hs hh hu hc hl, fun hl => ?_⟩
    have hm := memFrame_linkRead s n
    have hr : ∀ x, bufReg x = true → (s.linkRead n).1.rd x = s.rd x := fun x hx => hm.2 x (memReg_of_buf hx)
    obtain ⟨h1, h2, h3, h4⟩ := pageLost_shows (s.linkRead n).1 v n c rest ((hm.pageOn memReg_dom _).trans hp)
      ((congrArg VoqSt.pages (hm.proj fun u => u.voq v)).trans hg)
    rw [hr _ (buf_of_page rfl)] at h3 h4
    rw [← pageReturn_lost s v n c rest hg hs hh hu hc hl] at h1 h2 h3 h4
    exact ⟨h1, h2, h3, h4⟩
  · exact ⟨congrArg Host.Outcome.next (pfcTx_none s p (.inl h)), congrArg Host.Outcome.next (pfcRefresh_none s p (.inl h))⟩
  · exact congrArg Host.Outcome.next (pfcTx_none s p (.inr h))
  · obtain ⟨h1, h2⟩ := pfcSend_announces s p
    exact ⟨_, _, congrArg Host.Outcome.next (pfcTx_sends s p hon hu h), h1, h2, fun i hi => bits_pfcQuanta _ _ i hi (bits_lt _ _ _)⟩
  · exact congrArg Host.Outcome.next (pfcRefresh_none s p (.inr h))
  · obtain ⟨h1, h2⟩ := pfcSend_announces s p
    exact ⟨_, _, congrArg Host.Outcome.next (pfcRefresh_sends s p hon hu h), h1, h2⟩

end Sys2Proof.Machine
end

section
/-! SUPPORT. The egress pool, the scheduler's decisions and transmission (R229 to R241). -/
namespace Sys2Proof.Machine

/-! ## The pool and its queues -/

theorem find?_sdel {α : Type} (m : Sparse α) (k j : Nat) (h : j ≠ k) : (sdel m k).find? (·.1 == j) = m.find? (·.1 == j) := by
  induction m with
  | nil => rfl
  | cons e m ih =>
    obtain ⟨k', v⟩ := e
    rw [sdel]
    split
    · rename_i he
      rw [ih, List.find?_cons_of_neg (by simp only [beq_iff_eq]; omega)]
    · rw [List.find?_cons, List.find?_cons, ih]

theorem find?_sdel_same {α : Type} (m : Sparse α) (k : Nat) : (sdel m k).find? (·.1 == k) = none := by
  induction m with
  | nil => rfl
  | cons e m ih =>
    obtain ⟨k', v⟩ := e
    rw [sdel]
    split
    · exact ih
    · rename_i he
      rw [List.find?_cons_of_neg (by simpa using he), ih]

theorem find?_sins {α : Type} (m : Sparse α) (k : Nat) (v : α) (hm : m.find? (·.1 == k) = none) : (sins m k v).find? (·.1 == k) = some (k, v) := by
  induction m with
  | nil => simp [sins]
  | cons e m ih =>
    obtain ⟨k', v'⟩ := e
    rw [sins]
    split
    · simp
    · rw [List.find?_eq_none] at hm
      exact (List.find?_cons_of_neg (p := fun x : Nat × α => x.1 == k) (hm _ List.mem_cons_self)).trans
        (ih (List.find?_eq_none.2 fun x hx => hm x (List.mem_cons_of_mem _ hx)))

/-- The pool's levels and the packets (R229). -/
def eqPoolReg (x : Nat) : Bool := x == Rg.EQS_POOL_STAT || x == Rg.EQS_POOL_PEAK

theorem setPool_onlyRegs (s : State) (m : Sparse EPkt) : State.onlyRegs eqPoolReg { s with eg := { s.eg with pk := m } } (s.setPool m) :=
  ((onlyRegs_refl eqPoolReg _).wr rfl).peak rfl

theorem setPool_eg (s : State) (m : Sparse EPkt) : (s.setPool m).eg = { s.eg with pk := m } := onlyRegs_proj (setPool_onlyRegs s m) State.eg

theorem epkt_of_eg {s t : State} (h : t.eg.pk = s.eg.pk) (id : Nat) : t.epkt id = s.epkt id := by rw [State.epkt, State.epkt, h]

theorem epkt_putEpkt (s : State) (id : Nat) (p : EPkt) (h : p ≠ noPkt) : (s.putEpkt id p).epkt id = some p := by
  rw [State.epkt, State.putEpkt, setPool_eg]
  simp only [sset, if_neg h, find?_sins _ _ _ (find?_sdel_same _ _), Option.map_some]

theorem queue_setQueue_same (s : State) (e : Nat) (l : List Nat) : (s.setQueue e l).queue e = l := sget_sset_same _ _ _ _

theorem queue_setQueue_other (s : State) (e : Nat) (l : List Nat) {f : Nat} (h : f ≠ e) : (s.setQueue e l).queue f = s.queue f :=
  sget_sset_other _ _ _ _ _ _ h

theorem egressEnqueue_none (s : State) (clk : Nat) (h : ∀ id ∈ s.eg.fresh, ∀ p, s.epkt id = some p → s.mayEnter p = false) :
    s.egressEnqueue clk = s := by
  unfold State.egressEnqueue
  rw [List.find?_eq_none.2]
  intro id hid
  cases he : s.epkt id with
  | none => simp
  | some p => simp [h id hid p he]

/-- The state in which a pool packet stands at its queue's tail, before its cut-through is counted. -/
def State.entered (s : State) (id : Nat) (p : EPkt) (clk : Nat) : State :=
  let s1 := s.putEpkt id { p with enq := some (s.at clk), ct := decide (p.bytes.length < p.len) }
  let s2 : State := { s1 with eg := { s1.eg with fresh := s1.eg.fresh.filter (· != id) } }
  s2.setQueue p.eq (s2.queue p.eq ++ [id])

theorem entered_shows (s : State) (id : Nat) (p : EPkt) (clk : Nat) : (s.entered id p clk).queue p.eq = s.queue p.eq ++ [id] ∧
    id ∉ (s.entered id p clk).eg.fresh ∧ (∀ e, e ≠ p.eq → (s.entered id p clk).queue e = s.queue e) ∧
    (s.entered id p clk).epkt id = some { p with enq := some (s.at clk), ct := decide (p.bytes.length < p.len) } := by
  unfold State.entered
  simp only []
  have hq := setPool_eg s (sset noPkt s.eg.pk id { p with enq := some (s.at clk), ct := decide (p.bytes.length < p.len) })
  have hp := epkt_putEpkt s id { p with enq := some (s.at clk), ct := decide (p.bytes.length < p.len) } fun h =>
    absurd (congrArg EPkt.enq h) (by simp [noPkt])
  change (s.putEpkt id _).eg = _ at hq
  generalize s.putEpkt id { p with enq := some (s.at clk), ct := decide (p.bytes.length < p.len) } = u at *
  have hu : ∀ e, State.queue { u with eg := { u.eg with fresh := u.eg.fresh.filter (· != id) } } e = s.queue e := fun e => by
    rw [State.queue, State.queue, hq]
  refine ⟨?_, ?_, fun e he => ?_, hp⟩
  · rw [queue_setQueue_same, hu]
  · simp [State.setQueue]
  · rw [queue_setQueue_other _ _ _ he, hu]

theorem egressEnqueue_some (s : State) (clk id : Nat) (p : EPkt) (hf : s.eg.fresh.find? (fun x => (s.epkt x).any s.mayEnter) = some id)
    (hp : s.epkt id = some p) : s.egressEnqueue clk = (s.entered id p clk).bumpIf (decide (p.bytes.length < p.len)) Rg.EQS_CT_CNT := by
  unfold State.egressEnqueue
  rw [hf]
  simp only [hp]
  rfl

theorem egressEnqueue_shows (s : State) (clk id : Nat) (p : EPkt) (hf : s.eg.fresh.find? (fun x => (s.epkt x).any s.mayEnter) = some id)
    (hp : s.epkt id = some p) : (s.egressEnqueue clk).queue p.eq = s.queue p.eq ++ [id] ∧ id ∉ (s.egressEnqueue clk).eg.fresh ∧
      (s.egressEnqueue clk).epkt id = some { p with enq := some (s.at clk), ct := decide (p.bytes.length < p.len) } ∧
      ∀ e, e ≠ p.eq → (s.egressEnqueue clk).queue e = s.queue e := by
  obtain ⟨h1, h2, h3, h4⟩ := entered_shows s id p clk
  rw [egressEnqueue_some s clk id p hf hp]
  have hb := onlyRegs_bumpIf (s.entered id p clk) (decide (p.bytes.length < p.len)) Rg.EQS_CT_CNT (by decide)
  have he := onlyRegs_proj hb State.eg
  generalize (s.entered id p clk).bumpIf (decide (p.bytes.length < p.len)) Rg.EQS_CT_CNT = t at *
  have hqq : ∀ e, t.queue e = (s.entered id p clk).queue e := fun e => by rw [State.queue, he, State.queue]
  exact ⟨(hqq _).trans h1, he ▸ h2, (epkt_of_eg (by rw [he]) id).trans h4, fun e hne => (hqq e).trans (h3 e hne)⟩

/-! ## Registers and queues that a decision's steps leave alone -/

/-- The decision counters of a lane and the handoff counter (R233, R240). -/
def decReg (g x : Nat) : Bool :=
  x == Rg.EQL_DEC_CNT_LO g || x == Rg.EQL_DEC_CNT_LO g + 4 || x == Rg.EQS_DEQ_CNT_LO || x == Rg.EQS_DEQ_CNT_LO + 4 || x == Rg.EQL_IDLE_CNT g

/-- The queues, the lanes' last ports and the counters in `P` are as before. -/
def State.egSame (P : Nat → Bool) (s t : State) : Prop := State.sameRegs P s t ∧ t.eg.queues = s.eg.queues ∧ t.eg.lastPort = s.eg.lastPort

namespace State.egSame
variable {P Q : Nat → Bool} {s t u : State}

theorem refl (P : Nat → Bool) (s : State) : State.egSame P s s := ⟨.refl P s, rfl, rfl⟩

theorem trans (h1 : State.egSame P s t) (h2 : State.egSame P t u) : State.egSame P s u :=
  ⟨h1.1.trans h2.1, h2.2.1.trans h1.2.1, h2.2.2.trans h1.2.2⟩

/-- Registers outside `P` alone. -/
theorem ofRegs (h : State.onlyRegs Q s t) (hP : ∀ x, P x = true → Q x = false) (hd : ∀ d ∈ [0, 1], ∀ w ∈ [0, 1], Q (Rg.PWR_DOM_STAT d w) = false) :
    State.egSame P s t := by
  have he := onlyRegs_proj h State.eg
  exact ⟨.ofRegs h hP hd, by rw [he], by rw [he]⟩

/-- Parts of the state other than registers, queues and last ports. -/
theorem ofParts (hr : t.regs = s.regs) (hp : t.part = s.part) (hw : t.pw = s.pw) (hq : t.eg.queues = s.eg.queues) (hl : t.eg.lastPort = s.eg.lastPort) :
    State.egSame P s t := ⟨.ofParts hr hp hw, hq, hl⟩

theorem ite {c : Prop} [Decidable c] (h1 : State.egSame P s t) (h2 : State.egSame P s u) : State.egSame P s (if c then t else u) := by split <;> assumption

theorem foldl {β : Type} {f : State → β → State} {l : List β} (hf : ∀ (u : State) (x : β), State.egSame P u (f u x)) (h : State.egSame P s t) :
    State.egSame P s (l.foldl f t) := by
  induction l generalizing t with
  | nil => exact h
  | cons x l ih => exact ih (h.trans (hf t x))

theorem bump (h : State.egSame P s t) {a n : Nat} (hP : ∀ x, P x = true → ownReg x = true ∧ x ≠ a) (ha : a % 0x1000 < 0x800) (h0 : a / 0x1000 ≠ 0xE0)
    (h1 : a / 0x1000 ≠ 0x10B0) : State.egSame P s (t.bump a n) := by
  have he := onlyRegs_proj (onlyRegs_bump t a n ha) State.eg
  exact h.trans ⟨(State.sameRegs.refl P t).bump hP ha h0 h1, by rw [he], by rw [he]⟩

theorem bump64 (h : State.egSame P s t) {a n : Nat} (hP : ∀ x, P x = true → ownReg x = true ∧ x ≠ a ∧ x ≠ a + 4) (ha : a % 0x1000 + 4 < 0x800)
    (h0 : a / 0x1000 ≠ 0xE0) (h1 : a / 0x1000 ≠ 0x10B0) : State.egSame P s (t.bump64 a n) := by
  have hr := onlyRegs_bump64 t a n ha
  have he := onlyRegs_proj hr State.eg
  refine h.trans ⟨⟨fun x hx => rd_bump64_own (hP x hx).1 ha (hP x hx).2.1 (hP x hx).2.2, fun g => onlyRegs_pageOn hr (fun d w hd hw => ?_) g⟩,
    by rw [he], by rw [he]⟩
  have e0 := ne_domStat_page h0 h1 d w hd hw
  have e4 := ne_domStat_page (a := a + 4) (by omega) (by omega) d w hd hw
  simp [e0.symm, e4.symm, cntReg_dom _ d w (Nat.mul_mod_left _ _) hd hw]

end State.egSame

/-! ## The steps of a decision -/

theorem dec_own {g x : Nat} (hg : g < 8) (h : decReg g x = true) : ownReg x = true ∧ 0x180 ≤ x % 0x1000 ∧ x % 0x1000 ≤ 0x188 ∧
    (x / 0x1000 = 0x1038 + g ∨ x / 0x1000 = 0x1020) := by
  have h1 : x = 0x1038180 + 0x1000 * g ∨ x = 0x1038184 + 0x1000 * g ∨ x = 0x1020180 ∨ x = 0x1020184 ∨ x = 0x1038188 + 0x1000 * g := by
    simp only [decReg, Bool.or_eq_true, beq_iff_eq, show Rg.EQL_DEC_CNT_LO g = 0x1038000 + 0x1000 * g + 0x180 from rfl,
      show Rg.EQL_IDLE_CNT g = 0x1038000 + 0x1000 * g + 0x188 from rfl, show Rg.EQS_DEQ_CNT_LO = 0x1020180 from rfl] at h
    omega
  rw [ownReg_iff]
  omega

/-- A register of another page is none of the counters. -/
theorem dec_ne {g x a : Nat} (hg : g < 8) (h : decReg g x = true) (ha : a / 0x1000 < 0x1020 ∨ (0x1020 < a / 0x1000 ∧ a / 0x1000 < 0x1038)) : x ≠ a := by
  obtain ⟨-, -, -, hp⟩ := dec_own hg h
  omega

theorem egSame_setPool {g : Nat} (s : State) (m : Sparse EPkt) : State.egSame (decReg g) s (s.setPool m) := by
  refine State.egSame.trans (.ofParts rfl rfl rfl rfl rfl : State.egSame (decReg g) s { s with eg := { s.eg with pk := m } })
    (.ofRegs (setPool_onlyRegs s m) (fun x hx => ?_) (by decide))
  simp only [eqPoolReg, Bool.or_eq_false_iff, beq_eq_false_iff_ne, show Rg.EQS_POOL_STAT = 0x1020100 from rfl, show Rg.EQS_POOL_PEAK = 0x1020108 from rfl]
  simp only [decReg, Bool.or_eq_true, beq_iff_eq, show Rg.EQL_DEC_CNT_LO g = 0x1038000 + 0x1000 * g + 0x180 from rfl,
    show Rg.EQL_IDLE_CNT g = 0x1038000 + 0x1000 * g + 0x188 from rfl, show Rg.EQS_DEQ_CNT_LO = 0x1020180 from rfl] at hx
  omega

theorem egSame_gateHold {g : Nat} (s : State) (l now : Nat) (hg : g < 8) : State.egSame (decReg g) s (s.gateHold l now) := by
  refine State.egSame.foldl (fun u e => ?_) (.refl _ s)
  have h : ∀ id p, State.egSame (decReg g) u ((u.putEpkt id p).bump Rg.GATE_HOLD_CNT) := fun id p =>
    (egSame_setPool u _).bump (fun x hx => ⟨(dec_own hg hx).1, dec_ne hg hx (by decide)⟩) (by decide) (by decide) (by decide)
  split
  · exact .ite (.refl _ u) (h _ _)
  · exact .refl _ u

theorem egSame_dropDeficits {P : Nat → Bool} (s : State) (es : List Nat) : State.egSame P s (s.dropDeficits es) := .ofParts rfl rfl rfl rfl rfl

/-- The hierarchy's choices change deficits and pointers alone (R235). -/
theorem drr_egSame {P : Nat → Bool} {s t : State} {node : Nat} {all : List Cand} {c : Cand} (h : s.drr node all = some (c, t)) : State.egSame P s t := by
  unfold State.drr at h
  simp only [Option.map_eq_some_iff] at h
  obtain ⟨r, -, hr⟩ := h
  obtain ⟨-, rfl⟩ := Prod.mk.inj hr
  exact .ofParts rfl rfl rfl rfl rfl

theorem pickQueue_egSame {P : Nat → Bool} {s t : State} {es : List Nat} {sub e : Nat} (h : s.pickQueue es sub = some (e, t)) : State.egSame P s t := by
  unfold State.pickQueue at h
  simp only [Option.map_eq_some_iff] at h
  obtain ⟨⟨c, u⟩, hd, hr⟩ := h
  obtain ⟨-, rfl⟩ := Prod.mk.inj hr
  exact drr_egSame hd

theorem pickSub_egSame {P : Nat → Bool} {s t : State} {es : List Nat} {svc e : Nat} (h : s.pickSub es svc = some (e, t)) : State.egSame P s t := by
  unfold State.pickSub at h
  simp only [] at h
  split at h
  · exact absurd h (by simp)
  · rename_i hd
    exact (drr_egSame hd).trans (pickQueue_egSame h)

theorem pickSvc_egSame {P : Nat → Bool} {s t : State} {es : List Nat} {p e : Nat} (h : s.pickSvc es p = some (e, t)) : State.egSame P s t := by
  unfold State.pickSvc at h
  simp only [] at h
  split at h
  · exact absurd h (by simp)
  · rename_i hd
    exact (drr_egSame hd).trans (pickSub_egSame h)

theorem egSame_setWheel {g : Nat} (s : State) (w : Sparse Nat) (hg : g < 8) : State.egSame (decReg g) s (s.setWheel w) := by
  refine State.egSame.trans (.ofParts rfl rfl rfl rfl rfl : State.egSame (decReg g) s { s with eg := { s.eg with wheel := w } })
    (.ofRegs (Q := fun x => x == Rg.SHP_WHEEL_STAT) (onlyRegs_wr _ _ _ (by decide)) (fun x hx => ?_) (by decide))
  simpa using dec_ne hg hx (a := Rg.SHP_WHEEL_STAT) (by decide)

theorem egSame_setLevel {g : Nat} (s : State) (k : Nat) (l : Int) (hg : g < 8) : State.egSame (decReg g) s (s.setLevel k l) := by
  have h0 : ∀ x, State.egSame (decReg g) s { s with eg := { s.eg with lv := x } } := fun _ => .ofParts rfl rfl rfl rfl rfl
  exact .ite ((h0 _).trans (egSame_setWheel _ _ hg)) ((h0 _).trans (egSame_setWheel _ _ hg))

theorem egSame_shpCharge {g : Nat} (s : State) (len k : Nat) (hg : g < 8) : State.egSame (decReg g) s (s.shpCharge len k) :=
  .ite (egSame_setLevel s _ _ hg) (.refl _ s)

theorem egSame_latHist {g : Nat} (s : State) (p d : Nat) (hg : g < 8) : State.egSame (decReg g) s (s.latHist p d) := by
  have h0 : ∀ i v, State.egSame (decReg g) s (s.setTbl Pg.LAT 2 i v) := fun _ _ => .ofParts rfl rfl rfl rfl rfl
  have hr : ∀ u : State, State.onlyRegs (cntReg Pg.LAT) u (u.setOvfTbl Pg.LAT) := fun u =>
    onlyRegs_setOvf u Pg.LAT 0x078 0 (by decide) (by decide)
  refine .ite (.refl _ s) (.ite (h0 _ _) ((h0 _ _).trans (.ofRegs (hr _) (fun x hx => cntReg_of_own rfl (dec_own hg hx).1) (by decide))))

theorem egSame_poolTouch {g : Nat} (s : State) (i : Nat) (hg : g < 8) (hi : i < 16) : State.egSame (decReg g) s (s.poolTouch 1 i) := by
  have ha : Rg.SLICE_STAT 1 i = 0x50104 + 0x1000 * i := by
    rw [show Rg.SLICE_STAT 1 i = 0x50000 + 0x1000 * i + 0x104 from rfl]
    omega
  unfold State.poolTouch
  simp only []
  rw [if_pos (by decide)]
  refine .ofRegs (Q := fun x => x == Rg.SLICE_STAT 1 i) (onlyRegs_wr _ _ _ (by simp)) (fun x hx => ?_) fun d hd w hw => ?_
  · simpa using dec_ne hg hx (a := Rg.SLICE_STAT 1 i) (by omega)
  · have hd2 : d ≤ 1 := by simp only [List.mem_cons, List.not_mem_nil, or_false] at hd; omega
    have hw2 : w ≤ 1 := by simp only [List.mem_cons, List.not_mem_nil, or_false] at hw; omega
    rw [beq_eq_false_iff_ne]
    exact (ne_domStat_page (by omega) (by omega) d w hd2 hw2).symm

theorem egSame_toBucket {g : Nat} (s : State) (k : Pkt) (hg : g < 8) : State.egSame (decReg g) s (s.toBucket 1 k) := by
  unfold State.toBucket
  split
  · exact .ofParts rfl rfl rfl rfl rfl
  · have h0 : ∀ i x, State.egSame (decReg g) s (s.setSlice 1 i x) := fun _ _ => .ofParts rfl rfl rfl rfl rfl
    unfold State.place
    refine .ite ((State.egSame.refl _ s).bump (fun x hx => ⟨(dec_own hg hx).1, dec_ne hg hx (by decide)⟩) (by decide) (by decide) (by decide)) ?_
    rw [if_neg (fun h => absurd h.1 (by decide))]
    exact (h0 _ _).trans (egSame_poolTouch _ _ hg (Nat.mod_lt _ (by decide)))

/-! ## Decisions -/

theorem egressDecision_off (s : State) (g clk : Nat) (pool : Option MemErr)
    (h : bit (s.rd (Pg.EQS + 0x008)) 31 = false ∨ s.d2dDown = true ∨ s.part.lineGroups ≤ g) : s.egressDecision g clk pool = s := by
  unfold State.egressDecision
  obtain h | h | h := h <;> simp [h]

/-- The ready ports of a lane. -/
def State.readyPorts (s : State) (g : Nat) (es : List Nat) : List Nat := ((List.range 8).map (8 * g + ·)).filter (s.portReady es)

theorem mem_readyPorts {s : State} {g p : Nat} {es : List Nat} : p ∈ s.readyPorts g es ↔ p / 8 = g ∧ s.portReady es p = true := by
  simp only [State.readyPorts, List.mem_filter, List.mem_map, List.mem_range]
  constructor
  · rintro ⟨⟨i, hi, rfl⟩, hr⟩
    exact ⟨by omega, hr⟩
  · rintro ⟨hp, hr⟩
    exact ⟨⟨p % 8, by omega, by omega⟩, hr⟩

theorem readyPorts_one {s : State} {g p : Nat} {es : List Nat} (hp : p / 8 = g) (hr : s.portReady es p = true)
    (ho : ∀ q, q / 8 = g → q ≠ p → s.portReady es q = false) : s.readyPorts g es = [p] := by
  have hnd : (s.readyPorts g es).Nodup := ((List.nodup_range (n := 8)).map fun a b (h : 8 * g + a = 8 * g + b) => by omega).filter _
  have hmem : ∀ q, q ∈ s.readyPorts g es ↔ q = p := fun q => by
    rw [mem_readyPorts]
    refine ⟨fun h => ?_, fun h => h ▸ ⟨hp, hr⟩⟩
    by_contra hne
    rw [ho q h.1 hne] at h
    exact absurd h.2 (by decide)
  exact List.perm_singleton.1 ((List.perm_ext_iff_of_nodup hnd (List.nodup_singleton p)).2 fun q => by rw [hmem, List.mem_singleton])

/-- The state in which a lane judges its ports, with the queues that are eligible. -/
def State.judgedEq (s : State) (g clk : Nat) : List Nat := (s.gateHold g (s.todFrac (s.at clk))).eligible (s.todFrac (s.at clk))
def State.judgedSt (s : State) (g clk : Nat) : State := (s.gateHold g (s.todFrac (s.at clk))).dropDeficits (s.judgedEq g clk)

theorem judgedSt_egSame (s : State) (g clk : Nat) (hg : g < 8) : State.egSame (decReg g) s (s.judgedSt g clk) :=
  (egSame_gateHold s _ _ hg).trans (egSame_dropDeficits _ _)

theorem egressDecision_idle (s : State) (g clk : Nat) (pool : Option MemErr) (he : bit (s.rd (Pg.EQS + 0x008)) 31 = true) (hd : s.d2dDown = false)
    (hl : g < s.part.lineGroups) (hn : (s.judgedSt g clk).readyPorts g (s.judgedEq g clk) = []) :
    s.egressDecision g clk pool = (s.judgedSt g clk).bump (Rg.EQL_IDLE_CNT g) := by
  unfold State.readyPorts State.judgedSt State.judgedEq at hn
  unfold State.egressDecision State.judgedSt State.judgedEq
  simp only [he, hd, decide_eq_false (Nat.not_le.2 hl), Bool.not_true, Bool.or_false, Bool.false_eq_true, if_false, hn, List.find?_nil, List.head?_nil,
    Option.or_none]

/-- A decision's handoff, after the lane's count. -/
def State.decided (s : State) (g p : Nat) : State := State.bump64 { s with eg := { s.eg with lastPort := sset 0 s.eg.lastPort g (p + 1) } } (Rg.EQL_DEC_CNT_LO g)

theorem egressDecision_one (s : State) (g clk p eq id : Nat) (k : EPkt) (s3 : State) (he : bit (s.rd (Pg.EQS + 0x008)) 31 = true)
    (hd : s.d2dDown = false) (hl : g < s.part.lineGroups) (hn : (s.judgedSt g clk).readyPorts g (s.judgedEq g clk) = [p])
    (hk : (s.judgedSt g clk).pickSvc (s.judgedEq g clk) p = some (eq, s3)) (hh : (s3.decided g p).headOf eq = some (id, k)) :
    ∃ plan, s.egressDecision g clk none =
      ((s3.decided g p).handOff eq id k ((s3.decided g p).at clk) plan).dropDeficits (s.judgedEq g clk) := by
  unfold State.readyPorts State.judgedSt State.judgedEq at hn
  unfold State.judgedSt State.judgedEq at hk
  unfold State.decided at hh
  unfold State.egressDecision State.judgedEq State.decided
  have hf : ∀ n, (([p].find? fun q => decide (n < q + 1)).or [p].head?) = some p := fun n => by
    rw [List.find?_singleton]
    split <;> rfl
  simp only [he, hd, decide_eq_false (Nat.not_le.2 hl), Bool.not_true, Bool.or_false, Bool.false_eq_true, if_false, hn, hf, hk, hh, State.poolRead,
    State.dataErr, if_true]
  exact ⟨_, rfl⟩

/-- A packet that has left its queue leaves the pool, or stays there with what has crossed; its shapers are charged (R240). -/
def State.handTail (s1 : State) (port sq id : Nat) (p : EPkt) (plan : Option (Nat × Nat × Nat)) (keys : List Nat) : State :=
  let s2 := if decide (p.len ≤ p.bytes.length) then s1.setPool (sdel s1.eg.pk id) else s1.putEpkt id { p with handed := some p.bytes.length }
  let s3 := { s2 with eg := { s2.eg with seq := sset 0 s2.eg.seq port (sq + 1) } }
  let s4 := match plan with
    | some x => s3.setGate port { s3.gate port with f := x.2.1 }
    | none => s3
  keys.foldl (fun u key => u.shpCharge p.len key) s4

/-- The state in which a handoff is counted. -/
def State.handCharged (s : State) (eq id : Nat) (p : EPkt) (plan : Option (Nat × Nat × Nat)) : State :=
  (s.setQueue eq ((s.queue eq).filter (· != id))).handTail (s.portOf eq) (sget 0 s.eg.seq (s.portOf eq)) id p plan
    [shpKey 0 false eq, shpKey 1 false (eq / 8), shpKey 1 true (eq / 8), shpKey 2 false (s.svcOf (eq / 8)),
      shpKey 2 true (s.svcOf (eq / 8)), shpKey 3 false (s.portOf eq)]

theorem handOff_eq (s : State) (eq id : Nat) (p : EPkt) (c : Nat) (plan : Option (Nat × Nat × Nat)) : ∃ k, s.handOff eq id p c plan =
    ((((s.handCharged eq id p plan).bump64 Rg.EQS_DEQ_CNT_LO).latHist (s.portOf eq) ((c - p.enq.getD c) / 2)).toBucket 1 k) := ⟨_, rfl⟩

theorem egSame_seq {P : Nat → Bool} (s : State) (x : Sparse Nat) : State.egSame P s { s with eg := { s.eg with seq := x } } := .ofParts rfl rfl rfl rfl rfl

theorem egSame_setGate {P : Nat → Bool} (s : State) (p : Nat) (x : GateSt) : State.egSame P s (s.setGate p x) := .ofParts rfl rfl rfl rfl rfl

theorem handTail_egSame {g : Nat} (s : State) (port sq id : Nat) (p : EPkt) (plan : Option (Nat × Nat × Nat)) (keys : List Nat) (hg : g < 8) :
    State.egSame (decReg g) s (s.handTail port sq id p plan keys) := by
  unfold State.handTail
  refine State.egSame.foldl (fun u k => egSame_shpCharge u _ _ hg) ?_
  have h2 := State.egSame.ite (c := decide (p.len ≤ p.bytes.length) = true) (egSame_setPool (g := g) s (sdel s.eg.pk id))
    (egSame_setPool s (sset noPkt s.eg.pk id { p with handed := some p.bytes.length }))
  have h3 := h2.trans (egSame_seq _ (sset 0 (if decide (p.len ≤ p.bytes.length) = true then s.setPool (sdel s.eg.pk id)
    else s.setPool (sset noPkt s.eg.pk id { p with handed := some p.bytes.length })).eg.seq port (sq + 1)))
  cases plan with
  | none => exact h3
  | some x => exact h3.trans (egSame_setGate _ _ _)

theorem handCharged_egSame {g : Nat} (s : State) (eq id : Nat) (p : EPkt) (plan : Option (Nat × Nat × Nat)) (hg : g < 8) :
    State.egSame (decReg g) (s.setQueue eq ((s.queue eq).filter (· != id))) (s.handCharged eq id p plan) := handTail_egSame _ _ _ _ _ _ _ hg

/-- A handoff takes the packet from its queue and counts (R240). -/
theorem handOff_shows (s : State) (eq id : Nat) (p : EPkt) (c : Nat) (plan : Option (Nat × Nat × Nat)) (hp : s.pageOn (Pg.EQS / 0x1000) = true) :
    (s.handOff eq id p c plan).queue eq = (s.queue eq).filter (· != id) ∧ (s.handOff eq id p c plan).eg.lastPort = s.eg.lastPort ∧
      (s.handOff eq id p c plan).rd64 Rg.EQS_DEQ_CNT_LO = (s.rd64 Rg.EQS_DEQ_CNT_LO + 1) % 2 ^ 64 ∧
      ∀ g, g < 8 → (s.handOff eq id p c plan).rd64 (Rg.EQL_DEC_CNT_LO g) = s.rd64 (Rg.EQL_DEC_CNT_LO g) := by
  obtain ⟨k, he⟩ := handOff_eq s eq id p c plan
  rw [he]
  have h1 := fun g hg => handCharged_egSame (g := g) s eq id p plan hg
  have hq := queue_setQueue_same s eq ((s.queue eq).filter (· != id))
  generalize s.handCharged eq id p plan = u at *
  have hb := onlyRegs_bump64 u Rg.EQS_DEQ_CNT_LO 1 (by decide)
  have hbe := onlyRegs_proj hb State.eg
  have hb64 := bump64_rd64 u Rg.EQS_DEQ_CNT_LO 1 (by decide) (by decide) (by decide) (((h1 0 (by decide)).1.2 _).trans hp)
  have hbd := fun g (hg : g < 8) x (hx : decReg g x = true) (h0 : x ≠ Rg.EQS_DEQ_CNT_LO) (h4 : x ≠ Rg.EQS_DEQ_CNT_LO + 4) =>
    rd_bump64_own (s := u) (n := 1) (dec_own hg hx).1 (show Rg.EQS_DEQ_CNT_LO % 0x1000 + 4 < 0x800 by decide) h0 h4
  generalize u.bump64 Rg.EQS_DEQ_CNT_LO = w at *
  have h2 := fun g hg => (egSame_latHist (g := g) w (s.portOf eq) ((c - p.enq.getD c) / 2) hg).trans (egSame_toBucket _ k hg)
  generalize (w.latHist (s.portOf eq) ((c - p.enq.getD c) / 2)).toBucket 1 k = t at *
  obtain ⟨⟨hr2, -⟩, hq2, hl2⟩ := h2 0 (by decide)
  obtain ⟨⟨hr1, -⟩, hq1, hl1⟩ := h1 0 (by decide)
  refine ⟨?_, ?_, ?_, fun g hg => ?_⟩
  · rw [State.queue, hq2, hbe, hq1]
    exact hq
  · rw [hl2, hbe, hl1]
    rfl
  · rw [rd64_congr (hr2 _ (by decide)) (hr2 _ (by decide)), hb64, rd64_congr (hr1 _ (by decide)) (hr1 _ (by decide))]
    rfl
  · have hd0 : decReg g (Rg.EQL_DEC_CNT_LO g) = true := by simp [decReg]
    have hd4 : decReg g (Rg.EQL_DEC_CNT_LO g + 4) = true := by simp [decReg]
    have hpg : Rg.EQL_DEC_CNT_LO g = 0x1038180 + 0x1000 * g := by
      rw [show Rg.EQL_DEC_CNT_LO g = 0x1038000 + 0x1000 * g + 0x180 from rfl]
      omega
    have hne : Rg.EQL_DEC_CNT_LO g ≠ Rg.EQS_DEQ_CNT_LO ∧ Rg.EQL_DEC_CNT_LO g ≠ Rg.EQS_DEQ_CNT_LO + 4 ∧ Rg.EQL_DEC_CNT_LO g + 4 ≠ Rg.EQS_DEQ_CNT_LO ∧
        Rg.EQL_DEC_CNT_LO g + 4 ≠ Rg.EQS_DEQ_CNT_LO + 4 := by
      rw [hpg, show Rg.EQS_DEQ_CNT_LO = 0x1020180 from rfl]
      omega
    obtain ⟨⟨hr2, -⟩, -⟩ := h2 g hg
    obtain ⟨⟨hr1, -⟩, -⟩ := h1 g hg
    exact (rd64_congr (hr2 _ hd0) (hr2 _ hd4)).trans ((rd64_congr (hbd g hg _ hd0 hne.1 hne.2.1) (hbd g hg _ hd4 hne.2.2.1 hne.2.2.2)).trans
      (rd64_congr (hr1 _ hd0) (hr1 _ hd4)))

/-- A lane's decision with one ready port (R233, R240). -/
theorem decision_shows (s : State) (g clk p eq id : Nat) (k : EPkt) (s3 : State) (he : bit (s.rd (Pg.EQS + 0x008)) 31 = true)
    (hd : s.d2dDown = false) (hl : g < s.part.lineGroups) (hon : s.pageOn (Pg.EQL g / 0x1000) = true) (hon2 : s.pageOn (Pg.EQS / 0x1000) = true)
    (hn : (s.judgedSt g clk).readyPorts g (s.judgedEq g clk) = [p])
    (hk : (s.judgedSt g clk).pickSvc (s.judgedEq g clk) p = some (eq, s3)) (hh : s3.headOf eq = some (id, k)) :
    (s.egressDecision g clk none).rd64 (Rg.EQL_DEC_CNT_LO g) = (s3.rd64 (Rg.EQL_DEC_CNT_LO g) + 1) % 2 ^ 64 ∧
      (s.egressDecision g clk none).rd64 Rg.EQS_DEQ_CNT_LO = (s3.rd64 Rg.EQS_DEQ_CNT_LO + 1) % 2 ^ 64 ∧
      (s.egressDecision g clk none).queue eq = (s3.queue eq).filter (· != id) ∧ sget 0 (s.egressDecision g clk none).eg.lastPort g = p + 1 := by
  have hg : g < 8 := Nat.lt_of_lt_of_le hl (by cases s.part <;> decide)
  have hs3 := ((judgedSt_egSame s g clk hg).trans (pickSvc_egSame hk)).1.2
  have hpg : Rg.EQL_DEC_CNT_LO g = Pg.EQL g + 0x180 ∧ Pg.EQL g = 0x1038000 + 0x1000 * g := ⟨rfl, rfl⟩
  have ho : ownReg (Rg.EQL_DEC_CNT_LO g) = true ∧ ownReg (Rg.EQL_DEC_CNT_LO g + 4) = true :=
    ⟨(dec_own hg (by simp [decReg])).1, (dec_own hg (by simp [decReg])).1⟩
  have hlt : Rg.EQL_DEC_CNT_LO g % 0x1000 + 4 < 0x800 := by omega
  have hb := onlyRegs_bump64 { s3 with eg := { s3.eg with lastPort := sset 0 s3.eg.lastPort g (p + 1) } } (Rg.EQL_DEC_CNT_LO g) 1 hlt
  have hb64 := bump64_rd64 { s3 with eg := { s3.eg with lastPort := sset 0 s3.eg.lastPort g (p + 1) } } (Rg.EQL_DEC_CNT_LO g) 1 hlt ho.1 ho.2 (by
    rw [show Rg.EQL_DEC_CNT_LO g / 0x1000 = Pg.EQL g / 0x1000 by omega]
    exact (hs3 _).trans hon)
  change (s3.decided g p).rd64 _ = (s3.rd64 _ + 1) % 2 ^ 64 at hb64
  have hhd : (s3.decided g p).headOf eq = some (id, k) := by
    rw [← hh]
    exact onlyRegs_proj hb fun u => u.headOf eq
  have hq : (s3.decided g p).queue eq = s3.queue eq := onlyRegs_proj hb fun u => u.queue eq
  have hlast : (s3.decided g p).eg.lastPort = sset 0 s3.eg.lastPort g (p + 1) := onlyRegs_proj hb fun u => u.eg.lastPort
  have hdeq : (s3.decided g p).rd64 Rg.EQS_DEQ_CNT_LO = s3.rd64 Rg.EQS_DEQ_CNT_LO := by
    have e : ∀ x, x = 0x1020180 ∨ x = 0x1020184 → (s3.decided g p).rd x = s3.rd x := fun x hx =>
      rd_bump64_own (s := { s3 with eg := { s3.eg with lastPort := sset 0 s3.eg.lastPort g (p + 1) } }) (n := 1)
        (ownReg_iff.2 (by omega)) hlt (by omega) (by omega)
    exact rd64_congr (e _ (.inl rfl)) (e _ (.inr rfl))
  have hpon : (s3.decided g p).pageOn (Pg.EQS / 0x1000) = true := by
    have h0 : State.sameRegs (fun _ => false) s3 { s3 with eg := { s3.eg with lastPort := sset 0 s3.eg.lastPort g (p + 1) } } := .ofParts rfl rfl rfl
    have h1 := (State.egSame.refl (fun _ => false) { s3 with eg := { s3.eg with lastPort := sset 0 s3.eg.lastPort g (p + 1) } }).bump64 (n := 1)
      (a := Rg.EQL_DEC_CNT_LO g) (fun x hx => absurd hx (by decide)) hlt (by omega) (by omega)
    exact (h1.1.2 _).trans ((h0.2 _).trans ((hs3 _).trans hon2))
  obtain ⟨plan, hdec⟩ := egressDecision_one s g clk p eq id k s3 he hd hl hn hk hhd
  rw [hdec]
  obtain ⟨h1, h2, h3, h4⟩ := handOff_shows (s3.decided g p) eq id k ((s3.decided g p).at clk) plan hpon
  refine ⟨(h4 g hg).trans hb64, h3.trans (by rw [hdeq]), h1.trans (by rw [hq]), ?_⟩
  exact (congrArg (fun m => sget 0 m g) (h2.trans hlast)).trans (sget_sset_same _ _ _ _)

/-! ## Output that later counts leave in place -/

/-- What has left the device stays recorded. -/
def State.saysMore (s t : State) : Prop := ∀ e ∈ s.out, e ∈ t.out

namespace State.saysMore
variable {s t u : State}

theorem trans (h1 : State.saysMore s t) (h2 : State.saysMore t u) : State.saysMore s u := fun e he => h2 e (h1 e he)

theorem of_out (h : t.out = s.out) : State.saysMore s t := fun _ he => h ▸ he

theorem ite {c : Prop} [Decidable c] (h1 : State.saysMore s t) (h2 : State.saysMore s u) : State.saysMore s (if c then t else u) := by split <;> assumption

end State.saysMore

theorem saysMore_setPcie (s : State) (p : Nat) (x : PcieSt) : State.saysMore s (s.setPcie p x) := .ite (.of_out rfl) (.of_out rfl)

theorem saysMore_wr (s : State) (a v : Nat) : State.saysMore s (s.wr a v) := .of_out rfl

theorem saysMore_emit (s : State) (e : Emit) : State.saysMore s (s.emit e) := fun _ hx => List.mem_cons_of_mem _ hx

theorem saysMore_setIntRaw (s : State) (pg m : Nat) : State.saysMore s (s.setIntRaw pg m) :=
  .ite ((saysMore_wr s _ _).trans (saysMore_wr _ _ _)) (saysMore_wr s _ _)

theorem saysMore_sendMsg (s : State) (p v : Nat) : State.saysMore s (s.sendMsg p v) := by
  unfold State.sendMsg
  simp only []
  split
  · exact saysMore_setPcie s p _
  · have h0 := fun e => (saysMore_wr s (Rg.IRQ_MSG_CNT p) (s.rd (Rg.IRQ_MSG_CNT p) + 1)).trans (saysMore_emit _ e)
    split
    · exact h0 _
    · exact ((h0 _).trans (saysMore_wr _ _ _)).trans (saysMore_setIntRaw _ _ _)

theorem saysMore_raiseSrc (s : State) (n : Nat) : State.saysMore s (s.raiseSrc n) := by
  have h : ∀ (u : State) p, State.saysMore u (u.raiseOn n p) := fun u p => .ite (saysMore_sendMsg u _ _) (.of_out rfl)
  exact (h s 0).trans (h _ 1)

theorem saysMore_setInts (s : State) (pg m : Nat) : State.saysMore s (s.setInts pg m) := by
  have h : ∀ (c : Nat → Bool) (l : List Nat) (t : State), State.saysMore t (l.foldl (fun t n => if c n then t.raiseSrc n else t) t) := fun c l => by
    induction l with
    | nil => exact fun t => .of_out rfl
    | cons n l ih => exact fun t => State.saysMore.trans (.ite (saysMore_raiseSrc t n) (.of_out rfl)) (ih _)
  exact .ite ((saysMore_setIntRaw s pg m).trans (h (fun n => !s.irqSrc n && (s.setIntRaw pg m).irqSrc n) _ _)) (.of_out rfl)

theorem saysMore_setInt (s : State) (pg b : Nat) : State.saysMore s (s.setInt pg b) := saysMore_setInts s pg _

theorem saysMore_bump (s : State) (a n : Nat) : State.saysMore s (s.bump a n) := by
  have h : ∀ (u : State) pg o b, State.saysMore u (u.setOvf pg o b) := fun u pg o b =>
    .ite (.of_out rfl) ((saysMore_wr u _ _).trans (saysMore_setInt _ _ _))
  exact .ite (.of_out rfl) (.ite (saysMore_wr s _ _) ((saysMore_wr s _ _).trans (h _ _ _ _)))

/-! ## Transmission -/

theorem lrmon_val {p base i : Nat} (h : base + i ≤ 15) : (Rg.LRMON_RX_64 (p / 8) (p % 8) + 4 * (base + i)) % 0x1000 < 0x800 ∧
    (Rg.LRMON_RX_64 (p / 8) (p % 8) + 4 * (base + i)) / 0x1000 = 0xE8 + p / 8 ∧ 0x100 ≤ (Rg.LRMON_RX_64 (p / 8) (p % 8) + 4 * (base + i)) % 0x1000 := by
  rw [show Rg.LRMON_RX_64 (p / 8) (p % 8) = 0xE8000 + 0x1000 * (p / 8) + 0x100 + 0x40 * (p % 8) from rfl]
  omega

/-- A frame's length bin counted on the monitor touches the monitor's page alone. -/
theorem lrMonTx_bump (s : State) (p len : Nat) : ∃ a, s.lrMon p 7 len = s.bump a ∧ a % 0x1000 < 0x800 ∧ a / 0x1000 = 0xE8 + p / 8 := by
  have h : ∀ i, i ≤ 6 → ∃ a, s.bump (Rg.LRMON_RX_64 (p / 8) (p % 8) + 4 * (7 + i)) = s.bump a ∧ a % 0x1000 < 0x800 ∧ a / 0x1000 = 0xE8 + p / 8 :=
    fun i hi => ⟨_, rfl, (lrmon_val (by omega)).1, (lrmon_val (by omega)).2.1⟩
  unfold State.lrMon
  refine h _ ?_
  split_ifs <;> decide

theorem rd_lrMon {s : State} {p len x : Nat} (hp : p < 64) (hx : ownReg x = true) (hpg : x / 0x1000 < 0xE8 ∨ 0xEF < x / 0x1000) :
    (s.lrMon p 7 len).rd x = s.rd x := by
  obtain ⟨a, he, hlt, ha⟩ := lrMonTx_bump s p len
  rw [he]
  exact rd_bump_own hx hlt (by omega)

theorem lrMon_pageOn (s : State) (p len g : Nat) (hp : p < 64) : (s.lrMon p 7 len).pageOn g = s.pageOn g := by
  obtain ⟨a, he, hlt, ha⟩ := lrMonTx_bump s p len
  rw [he]
  exact bump_pageOn s a 1 g hlt (ne_domStat_page (by omega) (by omega))

theorem lrMon_proj {α : Type} (s : State) (p len : Nat) (π : State → α)
    (hπ : ∀ (u : State) (r : Sparse Nat) (p q : PcieSt) (o : List Emit), π { u with regs := r, pcie0 := p, pcie1 := q, out := o } = π u := by
      exact fun _ _ _ _ _ => rfl) : π (s.lrMon p 7 len) = π s := by
  obtain ⟨a, he, hlt, -⟩ := lrMonTx_bump s p len
  rw [he]
  exact onlyRegs_proj (onlyRegs_bump s a 1 hlt) π hπ

/-- A frame ends whole: counted with its bytes, and it leaves with its FCS (R241). -/
theorem txDone_shows (s : State) (p : Nat) (b : List Byte) (hon : s.lportOn p = true) : (s.txDone p b).macTx = s.macTx ∧
    Emit.frame p (sealFrame b) false ∈ (s.txDone p b).out ∧ (s.txDone p b).rd64 (lpCnt p 8) = (s.rd64 (lpCnt p 8) + 1) % 2 ^ 64 ∧
    (s.txDone p b).rd64 (lpCnt p 9) = (s.rd64 (lpCnt p 9) + b.length + 4) % 2 ^ 64 := by
  obtain ⟨hlane, hpg⟩ := lportOn_iff.1 hon
  have hp := lportOn_lt hon
  have h8 := lpBump_shows s p 8 1 (by decide) hon
  have h89 := rd64_lpBump_other (s := s) (n := 1) (show 8 < 16 by decide) (show 9 < 16 by decide) hp (by decide)
  have h8m := onlyRegs_proj h8.2 State.macTx
  have hon8 : (s.lpBump p 8).pageOn (0x010 + p / 8) = true := (pageOn_lpBump s p 8 1 _ (by decide) hp).trans hpg
  have h81 := h8.1
  clear h8
  unfold State.txDone
  generalize s.lpBump p 8 = u at *
  have h9 := rd64_lpBump_same (s := u) (i := 9) (n := b.length + 4) (by decide) hp hon8
  have h98 := rd64_lpBump_other (s := u) (n := b.length + 4) (show 9 < 16 by decide) (show 8 < 16 by decide) hp (by decide)
  have h9m : (u.lpBump p 9 (b.length + 4)).macTx = u.macTx := onlyRegs_proj (onlyRegs_bump64 u (lpCnt p 9) (b.length + 4) (lpCnt_off (by decide)).1) State.macTx
  generalize u.lpBump p 9 (b.length + 4) = w at *
  have hm : ∀ i, i < 16 → (w.lrMon p 7 (b.length + 4)).rd64 (lpCnt p i) = w.rd64 (lpCnt p i) := fun i hi => by
    obtain ⟨h0, h4⟩ := own_lpCnt (i := i) hp hi
    have hv := lpCnt_val p i
    exact rd64_congr (rd_lrMon hp h0 (by omega)) (rd_lrMon hp h4 (by omega))
  refine ⟨(lrMon_proj w p _ State.macTx).trans (h9m.trans h8m), List.mem_cons_self, ?_, ?_⟩
  · exact (hm 8 (by decide)).trans (h98.trans h81)
  · refine (hm 9 (by decide)).trans (h9.trans ?_)
    rw [h89, Nat.add_assoc]

/-- A plain frame starts and ends at once (R241). -/
theorem txStart_plain (s : State) (p clk : Nat) (k : Pkt) (hc : k.em.ct = false) (hp : k.em.ptpCmd = 0) (hl : k.em.launchV = false) :
    s.txStart p clk k = State.txDone { s with macTx := s.macTx.erase k } p k.bytes := by
  unfold State.txStart ptpTransmit
  simp only [hc, hp, hl, Bool.false_and, Bool.false_eq_true, if_false, if_true, Bool.not_false]
  rfl

theorem macTxFrame_idle (s : State) (p clk : Nat) (starve : Bool) (hn : s.eg.txing.find? (fun e => e.1 == p) = none) :
    s.macTxFrame p clk starve none = if !s.lportOn p then s else if !s.lkIsUp p || s.txMode p != .data then s else
      match s.pickTx p ((s.tod (s.at clk)).2 / 2 ^ 32) (sortBy (fun a b => decide (a.1.em.seq ≤ b.1.em.seq)) (s.egPkts.filter fun k => k.1.em.lport == p)) [] with
      | some k => s.txStart p clk k
      | none => s := by
  unfold State.macTxFrame
  simp only [State.poolRead, State.dataErr, if_true, hn] <;> rfl

/-! ## A frame that starves for a byte -/

/-- The packet of a frame under way leaves the pool, and the port is free (R232). -/
def State.txFree (s : State) (p id : Nat) : State := { s.dropEpkt id with eg := { (s.dropEpkt id).eg with txing := sdel s.eg.txing p } }

theorem txFree_shows (s : State) (p id : Nat) (e : EPkt) (he : s.epkt id = some e) : (s.txFree p id).epkt id = none ∧
    State.sameRegs (fun x => x == Rg.EQS_UNDERRUN_CNT) s (s.txFree p id) := by
  unfold State.txFree State.dropEpkt
  simp only [he]
  have hr := setPool_onlyRegs s (sdel s.eg.pk id)
  have heg := setPool_eg s (sdel s.eg.pk id)
  have hs : State.sameRegs (fun x => x == Rg.EQS_UNDERRUN_CNT) s (s.setPool (sdel s.eg.pk id)) :=
    State.sameRegs.trans (t := { s with eg := { s.eg with pk := sdel s.eg.pk id } }) (.ofParts rfl rfl rfl)
      (.ofRegs hr (fun x hx => by
        obtain rfl : x = Rg.EQS_UNDERRUN_CNT := by simpa using hx
        rfl) (by decide))
  generalize s.setPool (sdel s.eg.pk id) = u at *
  refine ⟨?_, hs.trans (.ofParts rfl rfl rfl)⟩
  rw [State.epkt]
  simp only [State.setQueue, heg, find?_sdel_same, Option.map_none]

/-- A frame ended with an inverted FCS (R225, R232). -/
theorem txAbort_shows (s : State) (p : Nat) (b : List Byte) (hp : p < 64) : (s.txAbort p b).eg = s.eg ∧
    (∃ body, Emit.frame p body true ∈ (s.txAbort p b).out) ∧ State.sameRegs (fun x => x == Rg.EQS_UNDERRUN_CNT) s (s.txAbort p b) := by
  have hr := onlyRegs_bump64 s (lpCnt p 11) 1 (lpCnt_off (p := p) (i := 11) (by decide)).1
  refine ⟨?_, ⟨_, List.mem_cons_self⟩, fun x hx => ?_, fun g => ?_⟩
  · exact (lrMon_proj (s.lpBump p 11) p (b.length + 4) State.eg).trans (onlyRegs_proj hr State.eg)
  · obtain rfl : x = Rg.EQS_UNDERRUN_CNT := by simpa using hx
    have hv := lpCnt_val p 11
    have hq : Rg.EQS_UNDERRUN_CNT / 0x1000 = 0x1020 := by decide
    exact (rd_lrMon (s := s.lpBump p 11) hp (by decide) (.inr (by decide))).trans (rd_lpBump_own (by decide) (by decide) (by omega) (by omega))
  · exact (lrMon_pageOn (s.lpBump p 11) p _ g hp).trans (pageOn_lpBump s p 11 1 g (by decide) hp)

theorem macTxFrame_busy (s : State) (p clk id : Nat) (b : List Byte) (starve : Bool) (hon : s.lportOn p = true)
    (hf : s.eg.txing.find? (fun e => e.1 == p) = some (p, id, b)) : ∃ bytes, s.macTxFrame p clk starve none =
      if starve then (((s.txFree p id).txAbort p bytes).bump Rg.EQS_UNDERRUN_CNT).setInt Pg.EQS Ib.EQS_UNDERRUN else s := by
  unfold State.macTxFrame
  simp only [State.poolRead, State.dataErr, if_true, hf, hon, Bool.not_true, Bool.false_eq_true, if_false]
  exact ⟨_, rfl⟩

theorem starve_shows (s : State) (p clk id : Nat) (b : List Byte) (e : EPkt) (hon : s.lportOn p = true)
    (hf : s.eg.txing.find? (fun e => e.1 == p) = some (p, id, b)) (he : s.epkt id = some e) (hp : s.pageOn (Pg.EQS / 0x1000) = true) :
    (s.macTxFrame p clk true none).epkt id = none ∧ (∃ body, Emit.frame p body true ∈ (s.macTxFrame p clk true none).out) ∧
      (s.macTxFrame p clk true none).rd Rg.EQS_UNDERRUN_CNT = (s.rd Rg.EQS_UNDERRUN_CNT + 1) % 2 ^ 32 ∧
      bit ((s.macTxFrame p clk true none).rd (Pg.EQS + 0x010)) Ib.EQS_UNDERRUN = true := by
  obtain ⟨bytes, hb⟩ := macTxFrame_busy s p clk id b true hon hf
  rw [hb, if_pos rfl]
  obtain ⟨h1, h2⟩ := txFree_shows s p id e he
  obtain ⟨g1, ⟨body, g2⟩, g3⟩ := txAbort_shows (s.txFree p id) p bytes (lportOn_lt hon)
  have hs := h2.trans g3
  have hepk := (epkt_of_eg (congrArg EgSt.pk g1) id).trans h1
  generalize (s.txFree p id).txAbort p bytes = u at *
  obtain ⟨k1, k2, k3⟩ := bump_setInt_shows u Rg.EQS_UNDERRUN_CNT Pg.EQS Ib.EQS_UNDERRUN rfl (by decide) (by decide) (by decide)
    (ne_domStat_page (by decide) (by decide)) (by decide) ((hs.2 _).trans hp)
  refine ⟨(onlyRegs_proj k3 fun w => w.epkt id).trans hepk, ⟨body, ?_⟩, k1.trans (by rw [hs.1 _ (by simp)]), k2⟩
  exact ((saysMore_bump u _ _).trans (saysMore_setInt _ _ _)) _ g2

/-- Settles O44: a decision's steps leave its counters and queues alone but where they hand off; a frame's counts are its port's. -/
theorem egressScheduling : Obligations.EgressScheduling := by
  refine ⟨fun s clk h => congrArg Host.Outcome.next (egressEnqueue_none s clk h), fun s clk id p hf hp => ⟨_, rfl, egressEnqueue_shows s clk id p hf hp⟩,
    fun s g clk pool h => congrArg Host.Outcome.next (egressDecision_off s g clk pool h), fun s s2 g clk es he hd hl hon hon2 hes hs2 => ?_, fun s p clk => ?_⟩
  · obtain rfl : es = s.judgedEq g clk := hes
    obtain rfl : s2 = s.judgedSt g clk := hs2
    have hg : g < 8 := Nat.lt_of_lt_of_le hl (by cases s.part <;> decide)
    refine ⟨fun hnone => ?_, fun p eq id k s3 hp hr ho hk hh => ?_⟩
    · have hn : (s.judgedSt g clk).readyPorts g (s.judgedEq g clk) = [] := List.eq_nil_iff_forall_not_mem.2 fun q hq => by
        obtain ⟨h1, h2⟩ := mem_readyPorts.1 hq
        rw [hnone q (by omega) h1] at h2
        exact absurd h2 (by decide)
      have hv : Rg.EQL_IDLE_CNT g = Pg.EQL g + 0x188 ∧ Pg.EQL g = 0x1038000 + 0x1000 * g := ⟨rfl, rfl⟩
      have hlt : Rg.EQL_IDLE_CNT g % 0x1000 < 0x800 := by omega
      have hb := onlyRegs_bump (s.judgedSt g clk) (Rg.EQL_IDLE_CNT g) 1 hlt
      refine ⟨_, congrArg Host.Outcome.next (egressDecision_idle s g clk none he hd hl hn), ?_, onlyRegs_proj hb State.slices,
        onlyRegs_proj hb fun u => u.eg.queues⟩
      refine bump_rd_own _ _ 1 (ownReg_iff.2 (by omega)) (by omega) hlt ?_
      rw [show Rg.EQL_IDLE_CNT g / 0x1000 = Pg.EQL g / 0x1000 by omega]
      exact ((judgedSt_egSame s g clk hg).1.2 _).trans hon
    · exact ⟨_, rfl, decision_shows s g clk p eq id k s3 he hd hl hon hon2 (readyPorts_one hp hr ho) hk hh⟩
  · refine ⟨fun hon starve => ?_, fun hon hn => ⟨fun hu starve => ?_, fun hu hm k ks hks => ⟨fun hpk starve => ?_, fun hpk hc hcmd hlv starve => ?_⟩⟩,
      fun id b e hon hf he => ⟨?_, fun hp => ⟨_, rfl, starve_shows s p clk id b e hon hf he hp⟩⟩⟩
    · refine congrArg Host.Outcome.next ?_
      unfold State.macTxFrame
      simp only [State.poolRead, State.dataErr, if_true, hon, Bool.not_false]
    · refine congrArg Host.Outcome.next ?_
      rw [macTxFrame_idle s p clk starve hn]
      simp only [hon, hu, Bool.not_true, Bool.false_eq_true, if_false, Bool.not_false, Bool.true_or, if_true]
    · refine congrArg Host.Outcome.next ?_
      rw [macTxFrame_idle s p clk starve hn, ← hks, hpk]
      simp only [ite_self]
    · have heq : s.macTxFrame p clk starve none = State.txDone { s with macTx := s.macTx.erase k } p k.bytes := by
        rw [macTxFrame_idle s p clk starve hn, ← hks, hpk, ← txStart_plain s p clk k hc hcmd hlv]
        simp only [hon, hu, hm, Bool.not_true, Bool.false_or, Bool.false_eq_true, if_false, bne_self_eq_false]
      exact ⟨_, congrArg Host.Outcome.next heq, txDone_shows { s with macTx := s.macTx.erase k } p k.bytes hon⟩
    · obtain ⟨bytes, hb⟩ := macTxFrame_busy s p clk id b false hon hf
      exact congrArg Host.Outcome.next (hb.trans (if_neg (by decide)))

end Sys2Proof.Machine
end

section
-- One after another: each `decide +kernel` below waits for every earlier proof, on a thread of its own.
set_option Elab.async false
/-! SUPPORT. A gate list of a port that is no port: its status register is a counter of interrupt messages (R245, R362). -/
namespace Sys2Proof.Machine

/-- The number whose GATE_PORT_STAT address is IRQ_MSG_CNT's. -/
def farPort : Nat := 0x1BEF0

/-- The source of page GATE mapped to an unmasked vector of port 0 whose link is up, IRQ_MSG_CNT one below bit 30, and a list due for the far port. -/
def farGate : State :=
  let s := { State.reset with
    pcie0 := { msixEn := true, vecs := [(0, { mask := false })] }
    tbls := [(tkey Pg.IRQ 0 291, 2 ^ 30)]
    eg := { State.reset.eg with gates := [(farPort, { next := some (⟨0, 1, 1, 0, 0⟩, 0) })] } }
  ((s.wr (Rg.PCIE_STAT 0) (2 ^ 31)).wr (Rg.IRQ_MSG_CNT 0) 0x3FFFFFFF).wr (Pg.GATE + 0x014) 0xFFFFFFFF

theorem farGate_on : farGate.pageOn (Pg.GATE / 0x1000) = true ∧ (farGate.gate farPort).next = some (⟨0, 1, 1, 0, 0⟩, 0) := by decide +kernel

theorem farGate_pending : (farGate.gateSwitch farPort 0).f (Rg.GATE_PORT_STAT farPort) Fd.GATE_PORT_STAT_PENDING = 1 := by decide +kernel

/-- Refutes O45: nothing bounds the port. The list of a port beyond the last takes over, its PENDING bit is bit 30 of IRQ_MSG_CNT, and the message
for GATE_SWITCH counts up into that bit. -/
theorem not_shapersGatesAndSampling : ¬ Obligations.ShapersGatesAndSampling := by
  unfold Obligations.ShapersGatesAndSampling
  intro h
  obtain ⟨-, -, hgate, -⟩ := h
  obtain ⟨hon, hnext⟩ := farGate_on
  obtain ⟨t, ht, -, -, hp, -⟩ := ((hgate farGate farPort 0 hon).2 _ 0 hnext).2 (by rw [Nat.zero_mul]; exact Nat.zero_le _)
  have hexec : exec (.gateListSwitch farPort 0) farGate = .next (farGate.gateSwitch farPort 0) := rfl
  rw [hexec] at ht
  rw [← Host.Outcome.next.inj ht, farGate_pending] at hp
  exact absurd hp (by decide)

end Sys2Proof.Machine
end

section
-- One after another: each `decide +kernel` below waits for every earlier proof, on a thread of its own.
set_option Elab.async false
/-! SUPPORT. A hard word of the event log's own ring: the record of its repair is written over it (R298, R309, R310, R354). -/
namespace Sys2Proof.Machine

/-- The word of eMRAM that the second log record from here takes. -/
def ringWord : Nat := 0x2C002

/-- The class 0 walker on, with an uncorrectable find of that word in its history. -/
def ringHist : State :=
  let s := { State.reset with ra := { State.reset.ra with hist := [(0, [(wkey Pg.EMRAM 0 ringWord, 0, true)])] } }
  (s.setF Rg.SCRUB_CTRL Fd.SCRUB_CTRL_EN 1).setF (Rg.SCRUB_CLASS_CFG 0) Fd.SCRUB_CLASS_CFG_EN 1

theorem ringHist_on : ringHist.fb Rg.SCRUB_CTRL Fd.SCRUB_CTRL_EN = true ∧
    ringHist.fb (Rg.SCRUB_CLASS_CFG 0) Fd.SCRUB_CLASS_CFG_EN = true ∧ ringHist.pageOn (Pg.SCRUB / 0x1000) = true ∧
    ringHist.pageOn (Pg.RAS 1 / 0x1000) = true ∧ ringHist.pageOn (Pg.EMRAM / 0x1000) = true := by decide +kernel

theorem ringHist_clean : ringHist.mark (0x1000 * (Pg.EMRAM / 0x1000)) 0 ringWord = {} := by decide +kernel

theorem ringHist_overwritten :
    ((ringHist.sinterVisit 0 (Pg.EMRAM / 0x1000) 0 ringWord 2 0 0 0 0 false false false).mark (0x1000 * (Pg.EMRAM / 0x1000)) 0 ringWord).kind = 0 := by
  decide +kernel

/-- Refutes O51: the clause on an uncorrectable word does not keep it apart from the event log. The word found hard is one that the log's ring takes
next: the record of its repair is written there, and the word is clean, not poisoned. -/
theorem not_scrubbingAndRepair : ¬ Obligations.ScrubbingAndRepair := by
  unfold Obligations.ScrubbingAndRepair
  intro h
  obtain ⟨-, hvisit, -⟩ := h
  obtain ⟨hen, hcfg, hscrub, hras, hem⟩ := ringHist_on
  obtain ⟨t, ht, -, -, -, hword⟩ := hvisit ringHist 0 (Pg.EMRAM / 0x1000) 0 ringWord 2 0 0 0 0 1 false false false (by decide) (by decide) hen hcfg
    (by decide) (by decide) hscrub hras hem
  obtain ⟨-, -, hue, -⟩ := hword (by decide)
  obtain ⟨-, -, hmark, -⟩ := hue rfl (by decide) ringHist_clean
  have hexec : exec (.sinterVisit 0 (Pg.EMRAM / 0x1000) 0 ringWord 2 0 0 0 0 false false false) ringHist =
      .next (ringHist.sinterVisit 0 (Pg.EMRAM / 0x1000) 0 ringWord 2 0 0 0 0 false false false) := rfl
  rw [hexec] at ht
  have hkind := congrArg WordErr.kind hmark
  rw [← Host.Outcome.next.inj ht, ringHist_overwritten] at hkind
  exact absurd hkind (by decide)

end Sys2Proof.Machine
end

section
/-! SUPPORT. Calm changes: what a chain of updates leaves of chosen registers, of the pages that answer, of flags set, of what was said, and of
the parts of the state that few commands change. -/
namespace Sys2Proof.Machine

theorem keepsInt_setInts (s : State) (pg m : Nat) (hg : pg % 0x1000 = 0) : keepsInt s (s.setInts pg m) := by
  unfold State.setInts
  split
  · exact keepsInt_trans (keepsInt_setIntRaw s pg m hg) (keepsInt_withEdges s _ fun t => t.setIntRaw pg m)
  · exact keepsInt_refl s

theorem saysMore_bump64 (s : State) (a n : Nat) : State.saysMore s (s.bump64 a n) := by
  have hwr : ∀ v, State.saysMore s (s.wr64 a v) := fun v => (saysMore_wr s a _).trans (saysMore_wr _ (a + 4) _)
  have hovf : ∀ (u : State) pg o b, State.saysMore u (u.setOvf pg o b) := fun u pg o b =>
    .ite (.of_out rfl) ((saysMore_wr u _ _).trans (saysMore_setInt _ _ _))
  unfold State.bump64
  simp only []
  split_ifs
  · exact .of_out rfl
  · exact hwr _
  · exact (hwr _).trans (hovf _ _ _ _)

theorem irqReg_dom (d w : Nat) (hd : d ≤ 1) (hw : w ≤ 1) : irqReg (Rg.PWR_DOM_STAT d w) = false := by
  interval_cases d <;> interval_cases w <;> rfl

/-- A register that powers no domain. -/
def notDom (a : Nat) : Bool :=
  a != Rg.PWR_DOM_STAT 0 0 && a != Rg.PWR_DOM_STAT 0 1 && a != Rg.PWR_DOM_STAT 1 0 && a != Rg.PWR_DOM_STAT 1 1

theorem notDom_ne {a : Nat} (h : notDom a = true) (d w : Nat) (hd : d ≤ 1) (hw : w ≤ 1) : a ≠ Rg.PWR_DOM_STAT d w := by
  simp only [notDom, Bool.and_eq_true, bne_iff_ne] at h
  obtain ⟨⟨⟨h00, h01⟩, h10⟩, h11⟩ := h
  interval_cases d <;> interval_cases w <;> assumption

theorem notDom_of_page {a : Nat} (h0 : a / 0x1000 ≠ 0xE0) (h1 : a / 0x1000 ≠ 0x10B0) : notDom a = true := by
  have h := ne_domStat_page h0 h1
  simp only [notDom, Bool.and_eq_true, bne_iff_ne]
  exact ⟨⟨⟨h 0 0 (by decide) (by decide), h 0 1 (by decide) (by decide)⟩, h 1 0 (by decide) (by decide)⟩, h 1 1 (by decide) (by decide)⟩

/-- The registers in `P` read as before, the same pages answer, flags set and effects sent stay, and the parts that hold power, controllers, images,
the links and time are the same. -/
structure State.calm (P : Nat → Bool) (s t : State) : Prop where
  rd : ∀ x, P x = true → t.rd x = s.rd x
  on : ∀ page, t.pageOn page = s.pageOn page
  ints : keepsInt s t
  said : State.saysMore s t
  part : t.part = s.part
  pw : t.pw = s.pw
  sv : t.sv = s.sv
  up : t.up = s.up
  d2 : t.d2 = s.d2
  tk : t.tk = s.tk

namespace State.calm
variable {P Q : Nat → Bool} {s t u : State}

theorem refl (P : Nat → Bool) (s : State) : State.calm P s s := ⟨fun _ _ => rfl, fun _ => rfl, keepsInt_refl s, .of_out rfl, rfl, rfl, rfl, rfl, rfl, rfl⟩

theorem trans (h1 : State.calm P s t) (h2 : State.calm P t u) : State.calm P s u :=
  ⟨fun x hx => (h2.rd x hx).trans (h1.rd x hx), fun g => (h2.on g).trans (h1.on g), keepsInt_trans h1.ints h2.ints, h1.said.trans h2.said,
    h2.part.trans h1.part, h2.pw.trans h1.pw, h2.sv.trans h1.sv, h2.up.trans h1.up, h2.d2.trans h1.d2, h2.tk.trans h1.tk⟩

theorem mono (h : State.calm P s t) (hq : ∀ x, Q x = true → P x = true) : State.calm Q s t :=
  ⟨fun x hx => h.rd x (hq x hx), h.on, h.ints, h.said, h.part, h.pw, h.sv, h.up, h.d2, h.tk⟩

theorem ite {c : Prop} [Decidable c] (h1 : State.calm P s t) (h2 : State.calm P s u) : State.calm P s (if c then t else u) := by split <;> assumption

theorem foldl {β : Type} {f : State → β → State} {l : List β} (hf : ∀ (v : State), ∀ x ∈ l, State.calm P v (f v x)) (h : State.calm P s t) :
    State.calm P s (l.foldl f t) := by
  induction l generalizing t with
  | nil => exact h
  | cons x l ih => exact ih (fun v y hy => hf v y (List.mem_cons_of_mem _ hy)) (h.trans (hf t x List.mem_cons_self))

/-- A change of other parts. -/
theorem ofParts (hr : t.regs = s.regs := by rfl) (ho : t.out = s.out := by rfl) (hp : t.part = s.part := by rfl) (hw : t.pw = s.pw := by rfl)
    (hv : t.sv = s.sv := by rfl) (hu : t.up = s.up := by rfl) (hd : t.d2 = s.d2 := by rfl) (hk : t.tk = s.tk := by rfl) : State.calm P s t := by
  have h : ∀ x, t.rd x = s.rd x := fun x => rd_congr hp hr x
  exact ⟨fun x _ => h x, pageOn_of_rd hp hw fun d w _ _ => h _, fun pg i _ _ hb => by rw [h]; exact hb, .of_out ho, hp, hw, hv, hu, hd, hk⟩

/-- Register updates that clear no flag and take back no effect. -/
theorem ofOnly (h : State.onlyRegs Q s t) (hk : keepsInt s t) (hs : State.saysMore s t) (hP : ∀ x, P x = true → Q x = false)
    (hd : ∀ d w, d ≤ 1 → w ≤ 1 → Q (Rg.PWR_DOM_STAT d w) = false) : State.calm P s t :=
  ⟨fun x hx => h.2 x (hP x hx), onlyRegs_pageOn h hd, hk, hs, onlyRegs_proj h State.part, onlyRegs_proj h State.pw, onlyRegs_proj h State.sv,
    onlyRegs_proj h State.up, onlyRegs_proj h State.d2, onlyRegs_proj h State.tk⟩

theorem wr (h : State.calm P s t) {a v : Nat} (hP : ∀ x, P x = true → x ≠ a) (hi : a % 0x1000 ≠ 0x010) (hd : notDom a = true) : State.calm P s (t.wr a v) :=
  h.trans (ofOnly (onlyRegs_wr (P := (· == a)) t a v (beq_self_eq_true a)) (keepsInt_wr t a v hi) (saysMore_wr t a v)
    (fun x hx => beq_eq_false_iff_ne.2 (hP x hx)) fun d w h1 h2 => beq_eq_false_iff_ne.2 (notDom_ne hd d w h1 h2).symm)

theorem setF (h : State.calm P s t) {a v : Nat} {fl : Fld} (hP : ∀ x, P x = true → x ≠ a) (hi : a % 0x1000 ≠ 0x010) (hd : notDom a = true) :
    State.calm P s (t.setF a fl v) := h.wr hP hi hd

theorem setInts (h : State.calm P s t) {pg m : Nat} (hP : ∀ x, P x = true → ownReg x = true) (hg : pg % 0x1000 = 0) : State.calm P s (t.setInts pg m) :=
  h.trans (ofOnly (onlyRegs_setInts t pg m) (keepsInt_setInts t pg m hg) (saysMore_setInts t pg m) (fun x hx => intReg_of_own hg (hP x hx))
    fun d w h1 h2 => cntReg_int _ _ (cntReg_dom _ d w hg h1 h2))

theorem setInt (h : State.calm P s t) {pg b : Nat} (hP : ∀ x, P x = true → ownReg x = true) (hg : pg % 0x1000 = 0) : State.calm P s (t.setInt pg b) :=
  h.setInts hP hg

theorem setIntIf (h : State.calm P s t) {c : Bool} {pg b : Nat} (hP : ∀ x, P x = true → ownReg x = true) (hg : pg % 0x1000 = 0) :
    State.calm P s (t.setIntIf c pg b) := .ite (h.setInt hP hg) h

theorem bump (h : State.calm P s t) {a n : Nat} (hP : ∀ x, P x = true → ownReg x = true ∧ x ≠ a) (h1 : 0x100 ≤ a % 0x1000) (h2 : a % 0x1000 < 0x800)
    (hd : notDom a = true) : State.calm P s (t.bump a n) :=
  h.trans (ofOnly (onlyRegs_bump t a n h2) (keepsInt_bump t a n h1 h2) (saysMore_bump t a n)
    (fun x hx => by simp [(hP x hx).2, cntReg_of_own (pg := a / 0x1000 * 0x1000) (Nat.mul_mod_left _ _) (hP x hx).1])
    fun d w hd' hw => by rw [cntReg_dom _ d w (Nat.mul_mod_left _ _) hd' hw, Bool.or_false, beq_eq_false_iff_ne]; exact (notDom_ne hd d w hd' hw).symm)

theorem bumpIf (h : State.calm P s t) {c : Bool} {a : Nat} (hP : ∀ x, P x = true → ownReg x = true ∧ x ≠ a) (h1 : 0x100 ≤ a % 0x1000)
    (h2 : a % 0x1000 < 0x800) (hd : notDom a = true) : State.calm P s (t.bumpIf c a) := .ite (h.bump hP h1 h2 hd) h

theorem bump64 (h : State.calm P s t) {a n : Nat} (hP : ∀ x, P x = true → ownReg x = true ∧ x ≠ a ∧ x ≠ a + 4) (h1 : 0x100 ≤ a % 0x1000)
    (h2 : a % 0x1000 + 4 < 0x800) (hd : notDom a = true) (hd4 : notDom (a + 4) = true) : State.calm P s (t.bump64 a n) :=
  h.trans (ofOnly (onlyRegs_bump64 t a n h2) (keepsInt_bump64 t a n h1 h2) (saysMore_bump64 t a n)
    (fun x hx => by
      obtain ⟨ho, hne, hne4⟩ := hP x hx
      simp [hne, hne4, cntReg_of_own (pg := a / 0x1000 * 0x1000) (Nat.mul_mod_left _ _) ho])
    fun d w hd' hw => by
      rw [cntReg_dom _ d w (Nat.mul_mod_left _ _) hd' hw]
      simp [(notDom_ne hd d w hd' hw).symm, (notDom_ne hd4 d w hd' hw).symm])

theorem raiseSrc (h : State.calm P s t) {n : Nat} (hP : ∀ x, P x = true → ownReg x = true) : State.calm P s (t.raiseSrc n) :=
  h.trans (ofOnly (onlyRegs_raiseSrc t n) (keepsInt_raiseSrc t n) (saysMore_raiseSrc t n) (fun x hx => irqReg_of_own (hP x hx)) fun d w h1 h2 =>
    irqReg_dom d w h1 h2)

theorem withEdges (h : State.calm P s t) {ns : List Nat} {f : State → State} (hP : ∀ x, P x = true → ownReg x = true) (hf : State.calm P t (f t)) :
    State.calm P s (t.withEdges ns f) := h.trans (foldl (fun v _ _ => .ite ((refl P v).raiseSrc hP) (refl P v)) hf)

theorem emit (h : State.calm P s t) {e : Emit} : State.calm P s (t.emit e) :=
  h.trans ⟨fun _ _ => rfl, fun _ => rfl, keepsInt_refl t, saysMore_emit t e, rfl, rfl, rfl, rfl, rfl, rfl⟩

end State.calm

end Sys2Proof.Machine
end

section
/-! SUPPORT. The service controllers: what an update of their modes, the entry into a role, a failure and the marks of a takeover leave (R333, R334). -/
namespace Sys2Proof.Machine

/-- The registers outside the controllers' own that the events of an update of their modes change. -/
def evReg (x : Nat) : Bool :=
  x == Rg.PCIE_STAT 0 || x == Rg.PCIE_STAT 1 || x == Rg.FCRD_CTRL || x == Rg.FCRD_STAT || x == Rg.FCRD_REQ_STORED || x / 0x1000 == 0x1082

/-- Those that an update of their modes changes. -/
def ctlReg (x : Nat) : Bool := x == Rg.CMT_STAT || evReg x

theorem evReg_not {x : Nat} (h : evReg x = false) : x ≠ Rg.PCIE_STAT 0 ∧ x ≠ Rg.PCIE_STAT 1 ∧ x ≠ Rg.FCRD_CTRL ∧
    x ≠ Rg.FCRD_STAT ∧ x ≠ Rg.FCRD_REQ_STORED ∧ x / 0x1000 ≠ 0x1082 := by
  simp only [evReg, Bool.or_eq_false_iff, beq_eq_false_iff_ne] at h
  obtain ⟨⟨⟨⟨⟨h0, h1⟩, hf⟩, hs⟩, hr⟩, he⟩ := h
  exact ⟨h0, h1, hf, hs, hr, he⟩

theorem ctlReg_not {x : Nat} (h : ctlReg x = false) : x ≠ Rg.CMT_STAT ∧ evReg x = false := by
  rw [ctlReg, Bool.or_eq_false_iff, beq_eq_false_iff_ne] at h
  exact h

theorem emram_of_ctl {x : Nat} (h : ctlReg x = false) : x / 0x1000 ≠ 0x1082 := (evReg_not (ctlReg_not h).2).2.2.2.2.2

namespace State.calm
variable {P : Nat → Bool} {s t : State}

theorem log (h : State.calm P s t) {pg code data : Nat} (hP : ∀ x, P x = true → ownReg x = true ∧ x / 0x1000 ≠ 0x1082) :
    State.calm P s (t.log pg code data) := by
  have hne : ∀ a, a / 0x1000 = 0x1082 → ∀ x, P x = true → x ≠ a := fun a ha x hx e => (hP x hx).2 (e ▸ ha)
  have hput : ∀ (u : State) r, State.calm P u (u.putRec r) := fun u r =>
    (((State.calm.trans (ofParts : State.calm P u { u with lg := { u.lg with recs := keep 32768 ({ r with lseq := (u.rd Rg.EMRAM_LOG_SEQ + 1) % 2 ^ 32 } :: u.lg.recs) } })
      (.trans (ofParts (t := State.setMark _ Pg.EMRAM 0 (2 * u.rd Rg.EMRAM_LOG_WP + 0x2C000) {}))
        (ofParts (t := State.setMark _ Pg.EMRAM 0 (2 * u.rd Rg.EMRAM_LOG_WP + 0x2C000 + 1) {})))).wr
      (hne _ (by decide)) (by decide) rfl).wr (hne _ (by decide)) (by decide) rfl).bump64
      (fun x hx => ⟨(hP x hx).1, hne _ (by decide) x hx, hne _ (by decide) x hx⟩) (by decide) (by decide) rfl rfl
  have hlogPut : ∀ (u : State) r, State.calm P u (u.logPut r) := fun u r =>
    .ite ((hput u r).trans ofParts)
      (((State.calm.trans (ofParts : State.calm P u { u with lg := { u.lg with dropped := u.lg.dropped + 1 } }) (.refl P _)).bump
        (fun x hx => ⟨(hP x hx).1, hne _ (by decide) x hx⟩) (by decide) (by decide) rfl).setInt (fun x hx => (hP x hx).1) rfl)
  exact .ite (.ite (h.trans ofParts) (h.trans ofParts)) (h.trans (hlogPut t _))

section Events
variable (hP : ∀ x, P x = true → ownReg x = true ∧ evReg x = false)
include hP

theorem withdrawSelf (h : State.calm P s t) (on : Bool) : State.calm P s (t.withdrawSelf on) := by
  have h1 : State.calm P s (t.setF Rg.FCRD_STAT Fd.FCRD_STAT_WITHDRAWN (b2n on)) :=
    h.setF (fun x hx => (evReg_not (hP x hx).2).2.2.2.1) (by decide) rfl
  have hstore : ∀ (u : State) m, State.calm P u (u.setStore m) := fun u m =>
    (ofParts : State.calm P u { u with fab := { u.fab with store := m } }).wr (fun x hx => (evReg_not (hP x hx).2).2.2.2.2.1) (by decide) rfl
  exact .ite h (.ite ((h1.trans ofParts).trans (hstore _ _)) (h1.trans ofParts))

theorem setSafe (h : State.calm P s t) (on : Bool) : State.calm P s (t.setSafe on) := by
  refine h.withEdges (fun x hx => (hP x hx).1) (foldl (fun v p hp => ?_) (.refl P t))
  refine .ite (.refl P v) ((setF (.refl P v) (fun x hx => ?_) ?_ ?_).setInt (fun x hx => (hP x hx).1) ?_)
  all_goals obtain rfl | rfl : p = 0 ∨ p = 1 := by simpa using hp
  · exact (evReg_not (hP x hx).2).1
  · exact (evReg_not (hP x hx).2).2.1
  all_goals decide

theorem logCtl (h : State.calm P s t) {pg code data : Nat} : State.calm P s (t.log pg code data) :=
  h.log fun x hx => ⟨(hP x hx).1, (evReg_not (hP x hx).2).2.2.2.2.2⟩

end Events

section Ctl
variable (hP : ∀ x, P x = true → ownReg x = true ∧ ctlReg x = false)
include hP

theorem cmtStat (h : State.calm P s t) {fl : Fld} {v : Nat} : State.calm P s (t.setF Rg.CMT_STAT fl v) :=
  h.setF (fun x hx => (ctlReg_not (hP x hx).2).1) (by decide) rfl

theorem passOwner (h : State.calm P s t) (j k : Nat) : State.calm P s (t.passOwner j k) := .ite (h.cmtStat hP) h

theorem scOwners (h : State.calm P s t) : State.calm P s t.scOwners :=
  foldl (fun v k _ => .ite (.refl P v) (.ite (passOwner hP (.refl P v) k (1 - k)) (.ite (.refl P v) (cmtStat hP (.refl P v))))) h

end Ctl
end State.calm

/-! ## The modes -/

/-- The MODE that the roles call for in both pages. -/
def State.scModed (s : State) : State := (s.setF (Rg.SC_STAT 0) Fd.SC_STAT_MODE s.scMode).setF (Rg.SC_STAT 1) Fd.SC_STAT_MODE s.scMode

/-- An update of the modes sets MODE, passes or drops the stage, shows the roles, and else raises events. -/
theorem calm_scEvents {P : Nat → Bool} (s : State) (hP : ∀ x, P x = true → ownReg x = true ∧ evReg x = false) :
    State.calm P s.scModed.scOwners.scShow s.scUpdate := by
  have ho : ∀ x, P x = true → ownReg x = true := fun x hx => (hP x hx).1
  have hr := State.calm.refl P s.scModed.scOwners.scShow
  have h2 := (((hr.setInt (pg := Pg.SC 0) (b := Ib.SC_AUTONOMOUS) ho rfl).setInt (pg := Pg.SC 1) (b := Ib.SC_AUTONOMOUS) ho rfl).logCtl hP
    (pg := Pg.SC 1) (code := 0x0012) (data := 0)).setSafe hP true
  exact .ite hr (.ite (.ite ((h2.setF (fun x hx => (evReg_not (hP x hx).2).2.2.1) (by decide) rfl).withdrawSelf hP true) h2)
    (.ite ((hr.logCtl hP).setSafe hP false) hr))

theorem scStat_apart : Rg.SC_STAT 0 ≠ Rg.SC_STAT 1 := by decide

theorem scStat_own {k : Nat} (hk : k < 2) : ownReg (Rg.SC_STAT k) = true ∧ ctlReg (Rg.SC_STAT k) = false := by
  obtain rfl | rfl : k = 0 ∨ k = 1 := by omega
  all_goals exact ⟨rfl, rfl⟩

theorem sc_page (k : Nat) : Pg.SC k % 0x1000 = 0 := by
  unfold Pg.SC
  split <;> rfl

theorem notDom_scStat (k : Nat) : notDom (Rg.SC_STAT k) = true ∧ Rg.SC_STAT k % 0x1000 ≠ 0x010 := by
  unfold Rg.SC_STAT Pg.SC
  split <;> exact ⟨rfl, by decide⟩

theorem rd_scOwners (s : State) {x : Nat} (hx : x ≠ Rg.CMT_STAT) : s.scOwners.rd x = s.rd x := by
  have hpass : ∀ (t : State) j k, (t.passOwner j k).rd x = t.rd x := fun t j k => by
    unfold State.passOwner
    split
    · exact rd_setF_other _ _ _ _ _ hx
    · rfl
  have hone : ∀ (l : List Nat) (t : State), (l.foldl (fun (t : State) (k : Nat) =>
      if !t.scOwns k || !(t.scRole k == scFailed || t.scRole k == scHeld) then t
      else if t.scRole (1 - k) == scActive then t.passOwner k (1 - k)
      else if (t.sv.due.any fun d => d.standby == 1 - k) then t
      else t.setF Rg.CMT_STAT Fd.CMT_STAT_NO_OWNER 1) t).rd x = t.rd x := fun l => by
    induction l with
    | nil => exact fun _ => rfl
    | cons k l ih =>
      intro t
      rw [List.foldl_cons, ih]
      split_ifs
      · rfl
      · exact hpass t k (1 - k)
      · rfl
      · exact rd_setF_other _ _ _ _ _ hx
  exact hone _ s

/-- A field of SC_STAT that neither MODE nor PEER_ROLE meets. -/
def scKept (fl : Fld) : Bool := decide (fl.lo + fl.w ≤ 32 ∧ (fl.lo + fl.w ≤ 24 ∨ 29 ≤ fl.lo))

theorem f_setF_scStat {s : State} {j k v : Nat} (hj : j < 2) (hk : k < 2) {fl fl' : Fld} (h : fl'.lo + fl'.w ≤ 32)
    (hd : fl.lo + fl.w ≤ fl'.lo ∨ fl'.lo + fl'.w ≤ fl.lo) : (s.setF (Rg.SC_STAT j) fl v).f (Rg.SC_STAT k) fl' = s.f (Rg.SC_STAT k) fl' := by
  by_cases e : k = j
  · rw [e]
    exact f_setF_disjoint s _ fl fl' v h hd
  · have hne : Rg.SC_STAT k ≠ Rg.SC_STAT j := by
      obtain ⟨rfl, rfl⟩ | ⟨rfl, rfl⟩ : (k = 0 ∧ j = 1) ∨ (k = 1 ∧ j = 0) := by omega
      all_goals decide
    exact f_setF_other s _ fl v _ fl' hne

theorem f_scShow (s : State) {k : Nat} (hk : k < 2) {fl : Fld} (h : fl.lo + fl.w ≤ 32) (hd : fl.lo + fl.w ≤ 26 ∨ 29 ≤ fl.lo) :
    s.scShow.f (Rg.SC_STAT k) fl = s.f (Rg.SC_STAT k) fl := by
  have hd' : Fd.SC_STAT_PEER_ROLE.lo + Fd.SC_STAT_PEER_ROLE.w ≤ fl.lo ∨ fl.lo + fl.w ≤ Fd.SC_STAT_PEER_ROLE.lo := hd.symm
  unfold State.scShow
  split
  · rfl
  · rw [f_setF_scStat (by decide) hk h hd', f_setF_scStat (by decide) hk h hd']

theorem f_scUpdate_owners (s : State) {k : Nat} (hk : k < 2) (fl : Fld) :
    s.scUpdate.f (Rg.SC_STAT k) fl = s.scModed.scOwners.scShow.f (Rg.SC_STAT k) fl :=
  f_of_rd ((calm_scEvents (P := (· == Rg.SC_STAT k)) s fun _ hx => eq_of_beq hx ▸ ⟨(scStat_own hk).1, (ctlReg_not (scStat_own hk).2).2⟩).rd _ (beq_self_eq_true _)) fl

theorem f_scOwners (s : State) {k : Nat} (hk : k < 2) (fl : Fld) : s.scOwners.f (Rg.SC_STAT k) fl = s.f (Rg.SC_STAT k) fl :=
  f_of_rd (rd_scOwners s (ctlReg_not (scStat_own hk).2).1) fl

theorem f_scUpdate (s : State) {k : Nat} (hk : k < 2) {fl : Fld} (h : scKept fl = true) : s.scUpdate.f (Rg.SC_STAT k) fl = s.f (Rg.SC_STAT k) fl := by
  obtain ⟨h32, hd⟩ := of_decide_eq_true h
  have hd' : Fd.SC_STAT_MODE.lo + Fd.SC_STAT_MODE.w ≤ fl.lo ∨ fl.lo + fl.w ≤ Fd.SC_STAT_MODE.lo := by
    show 24 + 2 ≤ _ ∨ _ ≤ 24
    omega
  rw [f_scUpdate_owners s hk, f_scShow _ hk h32 (by omega), f_scOwners _ hk, State.scModed, f_setF_scStat (by decide) hk h32 hd',
    f_setF_scStat (by decide) hk h32 hd']

theorem scRole_scUpdate (s : State) {k : Nat} (hk : k < 2) : s.scUpdate.scRole k = s.scRole k := f_scUpdate s hk rfl

theorem scMode_lt (s : State) : s.scMode < 4 := by
  unfold State.scMode
  split_ifs
  · exact bits_lt _ _ _
  all_goals decide

theorem mode_scUpdate (s : State) {k : Nat} (hk : k < 2) : s.scUpdate.f (Rg.SC_STAT k) Fd.SC_STAT_MODE = s.scMode := by
  rw [f_scUpdate_owners s hk, f_scShow _ hk (by decide) (by decide), f_scOwners _ hk, State.scModed]
  obtain rfl | rfl : k = 0 ∨ k = 1 := by omega
  · rw [f_setF_other _ _ _ _ _ _ scStat_apart, f_setF_same _ _ _ _ (by decide)]
    exact Nat.mod_eq_of_lt (scMode_lt s)
  · rw [f_setF_same _ _ _ _ (by decide)]
    exact Nat.mod_eq_of_lt (scMode_lt s)

theorem rd_d2d_scOwners_scModed (s : State) : s.scModed.scOwners.rd (Rg.D2D_STAT 0) = s.rd (Rg.D2D_STAT 0) := by
  rw [rd_scOwners _ (by decide), State.scModed, rd_setF_other _ _ _ _ _ (by decide), rd_setF_other _ _ _ _ _ (by decide)]

namespace State.calm
variable {P : Nat → Bool} {s t : State}

theorem scStat (h : State.calm P s t) {k v : Nat} {fl : Fld} (hk : ∀ x, P x = true → x ≠ Rg.SC_STAT k) :
    State.calm P s (t.setF (Rg.SC_STAT k) fl v) :=
  h.setF hk (notDom_scStat k).2 (notDom_scStat k).1

theorem scShow (h : State.calm P s t) (hk : ∀ x, P x = true → x ≠ Rg.SC_STAT 0 ∧ x ≠ Rg.SC_STAT 1) : State.calm P s t.scShow :=
  .ite h ((h.scStat fun x hx => (hk x hx).1).scStat fun x hx => (hk x hx).2)

/-- An update of the modes leaves what is neither SC_STAT nor one of the registers that its events change. -/
theorem scUpdate (h : State.calm P s t) (hP : ∀ x, P x = true → ownReg x = true ∧ ctlReg x = false)
    (hk : ∀ x, P x = true → x ≠ Rg.SC_STAT 0 ∧ x ≠ Rg.SC_STAT 1) : State.calm P s t.scUpdate :=
  h.trans ((((((State.calm.refl P t).scStat fun x hx => (hk x hx).1).scStat fun x hx => (hk x hx).2).scOwners hP).scShow hk).trans (calm_scEvents t fun x hx => ⟨(hP x hx).1, (ctlReg_not (hP x hx).2).2⟩))

end State.calm

theorem pathUp_of {s t : State} (hd : t.d2 = s.d2) (hr : t.rd (Rg.D2D_STAT 0) = s.rd (Rg.D2D_STAT 0)) : t.pathUp = s.pathUp := by
  rw [State.pathUp, State.pathUp, State.d2dDown, State.d2dDown, f_of_rd hr, hd]

/-- The register that tells whether the link between the dies works. -/
def linkStat (x : Nat) : Bool := x == Rg.D2D_STAT 0

theorem State.calm.pathUp {s t : State} {P : Nat → Bool} (h : State.calm P s t) (hP : P (Rg.D2D_STAT 0) = true) : t.pathUp = s.pathUp := pathUp_of h.d2 (h.rd _ hP)

theorem peer_scUpdate_down (s : State) {k : Nat} (hk : k < 2) (hp : s.pathUp = false) :
    s.scUpdate.f (Rg.SC_STAT k) Fd.SC_STAT_PEER_ROLE = s.f (Rg.SC_STAT k) Fd.SC_STAT_PEER_ROLE := by
  have hc : State.calm linkStat s s.scModed.scOwners := by
    have hl : ∀ x, linkStat x = true → x = Rg.D2D_STAT 0 := fun x hx => eq_of_beq hx
    exact (((State.calm.refl linkStat s).scStat fun x hx => by rw [hl x hx]; decide).scStat fun x hx => by rw [hl x hx]; decide).scOwners
      fun x hx => by rw [hl x hx]; exact ⟨rfl, rfl⟩
  have hp' : s.scModed.scOwners.pathUp = false := (hc.pathUp rfl).trans hp
  rw [f_scUpdate_owners s hk, State.scShow, hp', Bool.not_false, if_pos rfl, f_scOwners _ hk, State.scModed, f_setF_scStat (by decide) hk (by decide) (by decide),
    f_setF_scStat (by decide) hk (by decide) (by decide)]

/-! ## Roles -/

section Enter
variable (s : State) (k role : Nat)

theorem scEnter_same (h : s.scRole k = role) : s.scEnter k role = s := if_pos h

theorem setSc_shape (t : State) (x : ScCtl) : ∃ v : SvcSt, t.setSc k x = { t with sv := v } ∧ v.due = t.sv.due ∧ v.swap = t.sv.swap ∧ v.hold = t.sv.hold ∧
    v.missed = t.sv.missed := by
  unfold State.setSc
  split <;> exact ⟨_, rfl, rfl, rfl, rfl, rfl⟩

/-- What a controller that enters another role ends: a takeover that is due to it, and a switchover. -/
def State.dueAfter (s : State) (k : Nat) (due : Option Due) : Option Due :=
  if s.scRole k = scStandby && due.any (fun d => d.standby == k) then none else due

/-- An entry into another role writes ROLE, and else the service state. -/
theorem scEnter_shape (h : s.scRole k ≠ role) : ∃ v : SvcSt, s.scEnter k role = { s.setF (Rg.SC_STAT k) Fd.SC_STAT_ROLE role with sv := v } ∧
    v.due = s.dueAfter k s.sv.due ∧ v.hold = s.sv.hold ∧ v.missed = s.sv.missed := by
  obtain ⟨v, hv, hd, hw, hh, hm⟩ := setSc_shape k (s.setF (Rg.SC_STAT k) Fd.SC_STAT_ROLE role) { s.sc k with
    kicked := (s.sc k).kicked && !(role == scOff || role == scFailed || role == scHeld)
    first := (s.sc k).first && role == scBoot
    failed := if role = scFailed then s.tk.count else (s.sc k).failed
    since := if (role == scStandby || role == scActive) && !(s.scRole k == scStandby || s.scRole k == scActive) then s.tk.count else (s.sc k).since }
  rw [State.setF_sv] at hd hw hh hm
  refine ⟨{ v with due := s.dueAfter k v.due, swap := if v.swap = some k || v.swap = some (1 - k) then none else v.swap }, ?_, by rw [hd], hh, hm⟩
  unfold State.scEnter
  simp only [if_neg h]
  rw [hv]
  generalize s.setF (Rg.SC_STAT k) Fd.SC_STAT_ROLE role = t
  rfl

/-- An entry into a role changes no register but SC_STAT, and of the rest the service state alone. -/
theorem scEnter_cases : ∃ t v, s.scEnter k role = { t with sv := v } ∧ (t = s ∨ t = s.setF (Rg.SC_STAT k) Fd.SC_STAT_ROLE role) ∧
    v.hold = s.sv.hold ∧ v.missed = s.sv.missed := by
  by_cases h : s.scRole k = role
  · exact ⟨s, s.sv, scEnter_same s k role h, .inl rfl, rfl, rfl⟩
  · obtain ⟨v, hv, -, hh, hm⟩ := scEnter_shape s k role h
    exact ⟨_, v, hv, .inr rfl, hh, hm⟩

theorem rd_sv (t : State) (v : SvcSt) (x : Nat) : ({ t with sv := v } : State).rd x = t.rd x := rfl

theorem f_sv (t : State) (v : SvcSt) (x : Nat) (fl : Fld) : ({ t with sv := v } : State).f x fl = t.f x fl := rfl

theorem rest_sv (t : State) (v : SvcSt) : ({ t with sv := v } : State).part = t.part ∧ ({ t with sv := v } : State).pw = t.pw ∧
    ({ t with sv := v } : State).up = t.up ∧ ({ t with sv := v } : State).d2 = t.d2 ∧ ({ t with sv := v } : State).tk = t.tk ∧
    ({ t with sv := v } : State).out = t.out ∧ ({ t with sv := v } : State).tbls = t.tbls ∧ ({ t with sv := v } : State).sv = v := ⟨rfl, rfl, rfl, rfl, rfl, rfl, rfl, rfl⟩

theorem scEnter_rest : (s.scEnter k role).part = s.part ∧ (s.scEnter k role).pw = s.pw ∧ (s.scEnter k role).up = s.up ∧ (s.scEnter k role).d2 = s.d2 ∧
    (s.scEnter k role).tk = s.tk ∧ (s.scEnter k role).out = s.out ∧ (s.scEnter k role).tbls = s.tbls ∧ (s.scEnter k role).sv.hold = s.sv.hold ∧
    (s.scEnter k role).sv.missed = s.sv.missed := by
  obtain ⟨t, v, hv, ht, hh, hm⟩ := scEnter_cases s k role
  obtain ⟨h1, h2, h3, h4, h5, h6, h7, h8⟩ := rest_sv t v
  rw [hv, h1, h2, h3, h4, h5, h6, h7, h8]
  obtain rfl | rfl := ht
  · exact ⟨rfl, rfl, rfl, rfl, rfl, rfl, rfl, hh, hm⟩
  · exact ⟨State.setF_part .., State.setF_pw .., State.setF_up .., State.setF_d2 .., State.setF_tk .., State.setF_out .., State.setF_tbls .., hh, hm⟩

theorem rd_scEnter {x : Nat} (hx : x ≠ Rg.SC_STAT k) : (s.scEnter k role).rd x = s.rd x := by
  obtain ⟨t, v, hv, ht, -⟩ := scEnter_cases s k role
  rw [hv, rd_sv]
  obtain rfl | rfl := ht
  · rfl
  · exact rd_setF_other s _ _ _ _ hx

theorem pageOn_scEnter (page : Nat) : (s.scEnter k role).pageOn page = s.pageOn page := by
  obtain ⟨hp, hw, -⟩ := scEnter_rest s k role
  exact pageOn_of_rd hp hw (fun d w h1 h2 => rd_scEnter s k role (notDom_ne (notDom_scStat k).1 d w h1 h2).symm) page

theorem keepsInt_scEnter : keepsInt s (s.scEnter k role) := fun pg i hg _ hb => by
  rwa [rd_scEnter]
  have := (notDom_scStat k).2
  omega

theorem d2dStat_ne : Rg.D2D_STAT 0 ≠ Rg.SC_STAT k := by
  unfold Rg.SC_STAT Pg.SC
  split <;> decide

theorem pathUp_scEnter : (s.scEnter k role).pathUp = s.pathUp := by
  obtain ⟨-, -, -, hd, -⟩ := scEnter_rest s k role
  exact pathUp_of hd (rd_scEnter s k role (d2dStat_ne k))

variable {k role}

theorem f_scEnter (hk : k < 2) {j : Nat} (hj : j < 2) {fl : Fld} (h : fl.lo + fl.w ≤ 29) :
    (s.scEnter k role).f (Rg.SC_STAT j) fl = s.f (Rg.SC_STAT j) fl := by
  obtain ⟨t, v, hv, ht, -⟩ := scEnter_cases s k role
  rw [hv, f_sv]
  obtain rfl | rfl := ht
  · rfl
  · exact f_setF_scStat (s := s) hk hj (by omega) (.inr h)

theorem scRole_scEnter (hr : role < 8) : (s.scEnter k role).scRole k = role := by
  by_cases h : s.scRole k = role
  · rw [scEnter_same s k role h, h]
  · obtain ⟨v, hv, -⟩ := scEnter_shape s k role h
    rw [hv, State.scRole, f_sv]
    exact (f_setF_same s (Rg.SC_STAT k) Fd.SC_STAT_ROLE role (by decide)).trans (Nat.mod_eq_of_lt hr)

theorem scStat_other {j : Nat} (hk : k < 2) (hj : j < 2) (hne : j ≠ k) : Rg.SC_STAT j ≠ Rg.SC_STAT k := by
  obtain ⟨rfl, rfl⟩ | ⟨rfl, rfl⟩ : (k = 0 ∧ j = 1) ∨ (k = 1 ∧ j = 0) := by omega
  all_goals decide

theorem scRole_scEnter_other {j : Nat} (hk : k < 2) (hj : j < 2) (hne : j ≠ k) : (s.scEnter k role).scRole j = s.scRole j :=
  f_of_rd (rd_scEnter s k role (scStat_other hk hj hne)) _

/-- Only a controller that leaves STANDBY ends a takeover that is due to it. -/
theorem due_scEnter (h : s.scRole k ≠ scStandby ∨ ∀ d, s.sv.due = some d → d.standby ≠ k) : (s.scEnter k role).sv.due = s.sv.due := by
  by_cases hr : s.scRole k = role
  · rw [scEnter_same s k role hr]
  · obtain ⟨v, hv, hd, -⟩ := scEnter_shape s k role hr
    obtain ⟨-, -, -, -, -, -, -, h8⟩ := rest_sv (s.setF (Rg.SC_STAT k) Fd.SC_STAT_ROLE role) v
    rw [hv, h8]
    refine hd.trans (if_neg ?_)
    rw [Bool.and_eq_true, decide_eq_true_eq]
    rintro ⟨h1, h2⟩
    obtain ⟨d, hs, he⟩ := Option.any_eq_true _ _ |>.1 h2
    obtain h | h := h
    · exact h h1
    · exact h d hs (eq_of_beq he)

end Enter

/-- A failed controller: held in reset, logged and flagged. -/
theorem calm_scFail {P : Nat → Bool} (s : State) {k c : Nat} (hP : ∀ x, P x = true → ownReg x = true ∧ x / 0x1000 ≠ 0x1082) :
    State.calm P (s.scEnter k scFailed) (s.scFail k c) :=
  (((State.calm.refl P (s.scEnter k scFailed)).log hP).setIntIf (fun x hx => (hP x hx).1) (sc_page _)).setIntIf (fun x hx => (hP x hx).1) (sc_page _)

theorem scRole_scFail (s : State) {k c : Nat} (hk : k < 2) : (s.scFail k c).scRole k = scFailed :=
  (f_of_rd ((calm_scFail (P := (· == Rg.SC_STAT k)) s fun x hx => eq_of_beq hx ▸ ⟨(scStat_own hk).1, emram_of_ctl (scStat_own hk).2⟩).rd _
    (beq_self_eq_true _)) _).trans (scRole_scEnter s (by decide))

/-- A field of SC_STAT but ROLE, or of the other controller, stays as a controller fails. -/
theorem f_scFail (s : State) {k j c : Nat} (hk : k < 2) (hj : j < 2) {fl : Fld} (h : j ≠ k ∨ fl.lo + fl.w ≤ 29) :
    (s.scFail k c).f (Rg.SC_STAT j) fl = s.f (Rg.SC_STAT j) fl := by
  refine (f_of_rd ((calm_scFail (P := (· == Rg.SC_STAT j)) s fun x hx => eq_of_beq hx ▸ ⟨(scStat_own hj).1,
    emram_of_ctl (scStat_own hj).2⟩).rd _ (beq_self_eq_true _)) _).trans ?_
  obtain h | h := h
  · exact f_of_rd (rd_scEnter s k _ (scStat_other hk hj h)) _
  · exact f_scEnter s hk hj h

end Sys2Proof.Machine
end

section
/-! SUPPORT. Kicks, heartbeats, misses, boot and automatic restart of the service controllers (R332, R333, R335). -/
namespace Sys2Proof.Machine

theorem sc_setSc (s : State) (k : Nat) (x : ScCtl) : (s.setSc k x).sc k = x := by
  unfold State.setSc State.sc
  split
  · rfl
  · rfl

theorem setSc_setSc (s : State) (k : Nat) (x y : ScCtl) : (s.setSc k x).setSc k y = s.setSc k y := by
  unfold State.setSc
  split <;> rfl

theorem rd_setSc (s : State) (k : Nat) (x : ScCtl) (a : Nat) : (s.setSc k x).rd a = s.rd a := by
  unfold State.setSc
  split <;> rfl

theorem scRole_setSc (s : State) (k j : Nat) (x : ScCtl) : (s.setSc k x).scRole j = s.scRole j := f_of_rd (rd_setSc s k x _) _

/-! ## Kicks -/

theorem scKick_ignored {s : State} {r : Requester} {k v : Nat} (h : bit v 0 = false ∨ reqNo r ≠ 2 + k ∨ s.scRuns k = false) : s.scKick r k v = s := by
  refine if_pos ?_
  obtain h | h | h := h <;> simp [h]

theorem scKick_taken {s : State} {r : Requester} {k v : Nat} (hb : bit v 0 = true) (hr : reqNo r = 2 + k) (hs : s.scRuns k = true) :
    s.scKick r k v = if s.scRole k = scBoot ∧ (s.sc k).first = false then
      (if s.f (Rg.SC_STAT k) Fd.SC_STAT_PEER_ROLE = scActive then
        ((s.setSc k { s.sc k with kicked := true, first := true }).scEnter k scStandby).scUpdate
       else s.setSc k { s.sc k with kicked := true, first := true })
      else s.setSc k { s.sc k with kicked := true } := by
  unfold State.scKick
  simp only [hb, hr, hs, bne_self_eq_false, Bool.not_true, Bool.or_self, Bool.false_eq_true, if_false, scRole_setSc, sc_setSc, setSc_setSc,
    f_of_rd (rd_setSc s k _ _), Bool.not_eq_true']

/-! ## Heartbeats -/

theorem heartbeatRx_shows {s : State} {k w : Nat} {link : Bool} (hw : (s.sc (1 - k)).sent = some w)
    (hp : (if link then !s.d2dDown else s.d2.mgmtUp) = true) :
    (s.heartbeatRx k link).rd (Rg.SC_HB_RX k) = w % 2 ^ 32 ∧ (s.heartbeatRx k link).f (Rg.SC_STAT k) Fd.SC_STAT_MISS_RUN = 0 ∧
    (if link then ((s.heartbeatRx k link).sc k).gotLink else ((s.heartbeatRx k link).sc k).gotMgmt) = true ∧
    (s.heartbeatRx k link).f (Rg.SC_STAT k) Fd.SC_STAT_PEER_ROLE = s.scRole (1 - k) ∧ (s.heartbeatRx k link).scRole k = s.scRole k ∧
    State.onlyRegs (fun x => x == Rg.SC_HB_RX k || x == Rg.SC_STAT k) { s with sv := (s.heartbeatRx k link).sv } (s.heartbeatRx k link) := by
  have hup : s.pathUp = true := by
    rw [State.pathUp]
    cases link <;> simp_all
  have hrole : s.scRole (1 - k) % 2 ^ 3 = s.scRole (1 - k) := Nat.mod_eq_of_lt (bits_lt _ _ _)
  have hne : Rg.SC_HB_RX k ≠ Rg.SC_STAT k := by simp
  unfold State.heartbeatRx
  simp only [hw, hp, hup, Bool.not_true, Bool.false_eq_true, if_false, if_true]
  obtain ⟨v, hv, -⟩ := setSc_shape k s (if link then { s.sc k with gotLink := true } else { s.sc k with gotMgmt := true })
  have hgot : ∀ u : State, u.sv = v → (if link then (u.sc k).gotLink else (u.sc k).gotMgmt) = true := fun u hu => by
    have h := sc_setSc s k (if link then { s.sc k with gotLink := true } else { s.sc k with gotMgmt := true })
    rw [hv] at h
    have hsc : u.sc k = if link then { s.sc k with gotLink := true } else { s.sc k with gotMgmt := true } := by
      rw [← h, State.sc, State.sc, hu]
    rw [hsc]
    cases link <;> rfl
  have hstat : ({ s with sv := v } : State).f (Rg.SC_STAT k) Fd.SC_STAT_ROLE = s.scRole k := rfl
  rw [hv]
  have hon : State.onlyRegs (fun x => x == Rg.SC_HB_RX k || x == Rg.SC_STAT k) { s with sv := v } (((({ s with sv := v } : State).wr (Rg.SC_HB_RX k) w).setF (Rg.SC_STAT k)
      Fd.SC_STAT_MISS_RUN 0).setF (Rg.SC_STAT k) Fd.SC_STAT_PEER_ROLE (s.scRole (1 - k))) :=
    (((onlyRegs_refl _ _).wr (by simp)).setF (by simp)).setF (by simp)
  have hsv := onlyRegs_proj hon State.sv
  refine ⟨?_, ?_, hgot _ hsv, ?_, ?_, by rw [hsv]; exact hon⟩
  all_goals generalize ({ s with sv := v } : State) = u at hstat ⊢
  · rw [rd_setF_other _ _ _ _ _ hne, rd_setF_other _ _ _ _ _ hne, rd_wr_same]
  · rw [f_setF_disjoint _ _ _ _ _ (by decide) (by decide), f_setF_same _ _ _ _ (by decide), Nat.zero_mod]
  · rw [f_setF_same _ _ _ _ (by decide)]
    exact hrole
  · rw [State.scRole, f_setF_disjoint _ _ _ _ _ (by decide) (by decide), f_setF_disjoint _ _ _ _ _ (by decide) (by decide), f_wr_other _ _ _ _ _ hne.symm, hstat]

/-! ## Misses -/

/-- A miss counted. -/
def State.missed (s : State) (k : Nat) : State :=
  (s.setF (Rg.SC_STAT k) Fd.SC_STAT_MISS_RUN (min 8 (s.f (Rg.SC_STAT k) Fd.SC_STAT_MISS_RUN + 1))).bump (Rg.SC_MISS_CNT k)

theorem missCnt_place {k : Nat} (hk : k < 2) : ownReg (Rg.SC_MISS_CNT k) = true ∧ 0x100 ≤ Rg.SC_MISS_CNT k % 0x1000 ∧ Rg.SC_MISS_CNT k % 0x1000 < 0x800 ∧
    Rg.SC_MISS_CNT k / 0x1000 = Pg.SC k / 0x1000 ∧ ctlReg (Rg.SC_MISS_CNT k) = false ∧ Rg.SC_MISS_CNT k ≠ Rg.SC_STAT 0 ∧ Rg.SC_MISS_CNT k ≠ Rg.SC_STAT 1 := by
  obtain rfl | rfl : k = 0 ∨ k = 1 := by omega
  all_goals decide

theorem missed_onlyRegs (s : State) {k : Nat} (hk : k < 2) :
    State.onlyRegs (fun x => x == Rg.SC_STAT k || x == Rg.SC_MISS_CNT k || cntReg (Pg.SC k) x) s (s.missed k) := by
  obtain ⟨-, -, hlt, hpg, -⟩ := missCnt_place hk
  refine ((onlyRegs_refl _ s).setF (by simp)).bump hlt (by simp) fun x hx => ?_
  have e : Rg.SC_MISS_CNT k / 0x1000 * 0x1000 = Pg.SC k := by
    obtain rfl | rfl : k = 0 ∨ k = 1 := by omega
    all_goals rfl
  rw [e]
  exact (Bool.or_eq_false_iff.1 hx).2

theorem missed_shows {s : State} {k : Nat} (hk : k < 2) (hp : s.pageOn (Pg.SC k / 0x1000) = true) :
    (s.missed k).f (Rg.SC_STAT k) Fd.SC_STAT_MISS_RUN = min 8 (s.f (Rg.SC_STAT k) Fd.SC_STAT_MISS_RUN + 1) ∧
    (s.missed k).rd (Rg.SC_MISS_CNT k) = (s.rd (Rg.SC_MISS_CNT k) + 1) % 2 ^ 32 ∧ (s.missed k).scRole k = s.scRole k ∧ (s.missed k).pathUp = s.pathUp ∧
    (s.missed k).tk = s.tk := by
  obtain ⟨hown, h1, h2, hpg, -⟩ := missCnt_place hk
  have hne : Rg.SC_STAT k ≠ Rg.SC_MISS_CNT k := by simp
  have hf : ∀ fl, (s.missed k).f (Rg.SC_STAT k) fl = (s.setF (Rg.SC_STAT k) Fd.SC_STAT_MISS_RUN (min 8 (s.f (Rg.SC_STAT k) Fd.SC_STAT_MISS_RUN + 1))).f
      (Rg.SC_STAT k) fl := f_of_rd (rd_bump_own (scStat_own hk).1 h2 hne)
  have hon := missed_onlyRegs s hk
  refine ⟨?_, ?_, ?_, pathUp_of (onlyRegs_proj hon State.d2) (hon.2 _ ?_), onlyRegs_proj hon State.tk⟩
  · rw [hf, f_setF_same _ _ _ _ (by decide)]
    exact Nat.mod_eq_of_lt (show min 8 _ < 16 by omega)
  · rw [State.missed, bump_rd_own _ _ _ hown h1 h2 ((pageOn_setF_of s _ _ _ _ ?_ ?_).trans (hpg ▸ hp)), rd_setF_other _ _ _ _ _ hne.symm]
    all_goals obtain rfl | rfl : k = 0 ∨ k = 1 := by omega
    all_goals decide
  · rw [State.scRole, hf, f_setF_disjoint _ _ _ _ _ (by decide) (by decide), State.scRole]
  · obtain rfl | rfl : k = 0 ∨ k = 1 := by omega
    all_goals rfl

/-- A controller without a path is isolated; its run of misses and its count stay. -/
theorem isolate_shows (s : State) : s.isolate.scRole 0 = scIsolated ∧
    s.isolate.f (Rg.SC_STAT 0) Fd.SC_STAT_MISS_RUN = s.f (Rg.SC_STAT 0) Fd.SC_STAT_MISS_RUN ∧ s.isolate.rd (Rg.SC_MISS_CNT 0) = s.rd (Rg.SC_MISS_CNT 0) := by
  have hev : ∀ x, ownReg x = true → x / 0x1000 ≠ 0x1082 →
      (((s.scEnter 0 scIsolated).setInt (Pg.SC 0) Ib.SC_ISOLATED).log (Pg.SC 0) 0x0015 0).rd x = (s.scEnter 0 scIsolated).rd x := fun x hx he =>
    (rd_log_own hx he).trans (rd_setInt_own hx rfl)
  refine ⟨?_, ?_, ?_⟩
  · exact (scRole_scUpdate _ (by decide)).trans ((f_of_rd (hev _ rfl (by decide)) _).trans (scRole_scEnter s (by decide)))
  · exact (f_scUpdate _ (by decide) rfl).trans ((f_of_rd (hev _ rfl (by decide)) _).trans (f_scEnter s (by decide) (by decide) (by decide)))
  · refine (((State.calm.refl (· == Rg.SC_MISS_CNT 0) _).scUpdate (fun x hx => ?_) fun x hx => ?_).rd _ rfl).trans ((hev _ rfl (by decide)).trans
      (rd_scEnter s 0 _ (by decide)))
    all_goals rw [eq_of_beq hx]; decide

theorem missCheck_ignored {s : State} {k : Nat} (h : s.scRuns k = false ∨ (s.sc k).gotLink = true ∨ (s.sc k).gotMgmt = true ∨
    (s.f (Rg.SC_STAT k) Fd.SC_STAT_PEER_ROLE ≠ scActive ∧ s.f (Rg.SC_STAT k) Fd.SC_STAT_PEER_ROLE ≠ scStandby)) : s.missCheck k = s := by
  refine if_pos ?_
  obtain h | h | h | ⟨h, h'⟩ := h
  · simp [h]
  · simp [h]
  · simp [h]
  · simp [h, h']

/-- What a miss entails: the eighth is decisive for a controller in STANDBY. -/
theorem missCheck_eq {s : State} {k : Nat} (hr : s.scRuns k = true) (hl : (s.sc k).gotLink = false) (hm : (s.sc k).gotMgmt = false)
    (hpeer : s.f (Rg.SC_STAT k) Fd.SC_STAT_PEER_ROLE = scActive ∨ s.f (Rg.SC_STAT k) Fd.SC_STAT_PEER_ROLE = scStandby) :
    s.missCheck k = if s.f (Rg.SC_STAT k) Fd.SC_STAT_MISS_RUN = 7 ∧ (s.missed k).scRole k = scStandby ∧
        (s.f (Rg.SC_STAT k) Fd.SC_STAT_PEER_ROLE = scActive ∨ (s.missed k).sv.due.any fun d => d.standby == k) then
      (if k = 0 ∧ (s.missed k).pathUp = false then (s.missed k).isolate
       else { s.missed k with sv := { (s.missed k).sv with due := some ⟨k, 1, (s.missed k).at 1024, true⟩ } })
      else s.missed k := by
  have hp : (s.f (Rg.SC_STAT k) Fd.SC_STAT_PEER_ROLE == scActive || s.f (Rg.SC_STAT k) Fd.SC_STAT_PEER_ROLE == scStandby) = true := by
    obtain h | h := hpeer <;> simp [h]
  unfold State.missCheck State.missed
  simp only [hr, hl, hm, hp, Bool.not_true, Bool.or_self, Bool.false_eq_true, if_false, Bool.not_eq_true']

theorem missCheck_shows {s : State} {k : Nat} (hk : k < 2) (hp : s.pageOn (Pg.SC k / 0x1000) = true) (hr : s.scRuns k = true)
    (hl : (s.sc k).gotLink = false) (hm : (s.sc k).gotMgmt = false)
    (hpeer : s.f (Rg.SC_STAT k) Fd.SC_STAT_PEER_ROLE = scActive ∨ s.f (Rg.SC_STAT k) Fd.SC_STAT_PEER_ROLE = scStandby) :
    (s.missCheck k).f (Rg.SC_STAT k) Fd.SC_STAT_MISS_RUN = min 8 (s.f (Rg.SC_STAT k) Fd.SC_STAT_MISS_RUN + 1) ∧
    (s.missCheck k).rd (Rg.SC_MISS_CNT k) = (s.rd (Rg.SC_MISS_CNT k) + 1) % 2 ^ 32 := by
  obtain ⟨hrun, hcnt, -⟩ := missed_shows hk hp
  rw [missCheck_eq hr hl hm hpeer]
  generalize s.missed k = u at *
  split
  · split
    · next h =>
      obtain ⟨rfl, -⟩ := h
      obtain ⟨-, hi1, hi2⟩ := isolate_shows u
      exact ⟨hi1.trans hrun, hi2.trans hcnt⟩
    · exact ⟨hrun, hcnt⟩
  · exact ⟨hrun, hcnt⟩

/-! ## Boot and restart -/

theorem bootFail_shows {s : State} {k : Nat} (hk : k < 2) (hp : s.pageOn (Pg.SC k / 0x1000) = true) : (s.bootFail k).scRole k = scFailed ∧
    (s.bootFail k).rd (Rg.SC_FAULT_CNT k) = (s.rd (Rg.SC_FAULT_CNT k) + 1) % 2 ^ 32 := by
  refine ⟨(scRole_scUpdate _ hk).trans (scRole_scFail _ hk), ?_⟩
  have hx : ownReg (Rg.SC_FAULT_CNT k) = true ∧ ctlReg (Rg.SC_FAULT_CNT k) = false ∧ Rg.SC_FAULT_CNT k ≠ Rg.SC_STAT 0 ∧ Rg.SC_FAULT_CNT k ≠ Rg.SC_STAT 1 ∧
      0x100 ≤ Rg.SC_FAULT_CNT k % 0x1000 ∧ Rg.SC_FAULT_CNT k % 0x1000 < 0x800 ∧ Rg.SC_FAULT_CNT k / 0x1000 = Pg.SC k / 0x1000 := by
    obtain rfl | rfl : k = 0 ∨ k = 1 := by omega
    all_goals decide
  obtain ⟨hown, hctl, h0, h1, hlo, hhi, hpg⟩ := hx
  have hP : ∀ x, (x == Rg.SC_FAULT_CNT k) = true → ownReg x = true ∧ ctlReg x = false := fun x hx => eq_of_beq hx ▸ ⟨hown, hctl⟩
  rw [State.bootFail, ((State.calm.refl (· == Rg.SC_FAULT_CNT k) _).scUpdate hP fun x hx => eq_of_beq hx ▸ ⟨h0, h1⟩).rd _ (beq_self_eq_true _),
    (calm_scFail (P := (· == Rg.SC_FAULT_CNT k)) _ fun x hx => ⟨(hP x hx).1, emram_of_ctl (hP x hx).2⟩).rd _ (beq_self_eq_true _),
    rd_scEnter _ _ _ (by simp), bump_rd_own _ _ _ hown hlo hhi (hpg ▸ hp)]

theorem autoRestart_shows {s : State} {k : Nat} (hk : k < 2) (hp : s.pageOn (Pg.SC k / 0x1000) = true)
    (hn : s.f (Rg.SC_STAT k) Fd.SC_STAT_RESTARTS < 255) :
    ∀ u, u = ((s.setF (Rg.SC_STAT k) Fd.SC_STAT_RESTARTS (s.f (Rg.SC_STAT k) Fd.SC_STAT_RESTARTS + 1)).bump (Rg.SC_RESTART_CNT k)) →
    ((u.scEnter k scOff).scUpdate).scRole k = scOff ∧ ((u.scEnter k scOff).scUpdate).f (Rg.SC_STAT k) Fd.SC_STAT_RESTARTS =
      s.f (Rg.SC_STAT k) Fd.SC_STAT_RESTARTS + 1 ∧ ((u.scEnter k scOff).scUpdate).rd (Rg.SC_RESTART_CNT k) = (s.rd (Rg.SC_RESTART_CNT k) + 1) % 2 ^ 32 := by
  intro u hu
  have hx : ownReg (Rg.SC_RESTART_CNT k) = true ∧ ctlReg (Rg.SC_RESTART_CNT k) = false ∧ Rg.SC_RESTART_CNT k ≠ Rg.SC_STAT 0 ∧
      Rg.SC_RESTART_CNT k ≠ Rg.SC_STAT 1 ∧ 0x100 ≤ Rg.SC_RESTART_CNT k % 0x1000 ∧ Rg.SC_RESTART_CNT k % 0x1000 < 0x800 ∧
      Rg.SC_RESTART_CNT k / 0x1000 = Pg.SC k / 0x1000 ∧ Rg.SC_STAT k / 0x1000 ≠ 0xE0 ∧ Rg.SC_STAT k / 0x1000 ≠ 0x10B0 := by
    obtain rfl | rfl : k = 0 ∨ k = 1 := by omega
    all_goals decide
  obtain ⟨hown, hctl, h0, h1, hlo, hhi, hpg, hE, hB⟩ := hx
  have hrest : u.f (Rg.SC_STAT k) Fd.SC_STAT_RESTARTS = s.f (Rg.SC_STAT k) Fd.SC_STAT_RESTARTS + 1 := by
    rw [hu, f_of_rd (rd_bump_own (scStat_own hk).1 hhi (by simp)), f_setF_same _ _ _ _ (by decide)]
    exact Nat.mod_eq_of_lt (show _ < 256 by omega)
  have hcnt : u.rd (Rg.SC_RESTART_CNT k) = (s.rd (Rg.SC_RESTART_CNT k) + 1) % 2 ^ 32 := by
    rw [hu, bump_rd_own _ _ _ hown hlo hhi ((pageOn_setF_of s _ _ _ _ hE hB).trans (hpg ▸ hp)), rd_setF_other _ _ _ _ _ (by simp)]
  refine ⟨(scRole_scUpdate _ hk).trans (scRole_scEnter u (by decide)), ((f_scUpdate _ hk rfl).trans (f_scEnter u hk hk (by decide))).trans hrest, ?_⟩
  rw [((State.calm.refl (· == Rg.SC_RESTART_CNT k) _).scUpdate (fun x hx => eq_of_beq hx ▸ ⟨hown, hctl⟩) fun x hx => eq_of_beq hx ▸ ⟨h0, h1⟩).rd _
    (beq_self_eq_true _), rd_scEnter u _ _ (by simp), hcnt]

/-- Settles O53: a kick, a heartbeat and a miss each write SC_STAT and the controller's own record; what a decisive miss, a boot that fails and a restart
change beside goes through the entry into a role and the update of the modes, which keep both. -/
theorem controllerHeartbeats : Obligations.ControllerHeartbeats := by
  unfold Obligations.ControllerHeartbeats
  intro s k hk hp
  have hmod : k % 2 = k := Nat.mod_eq_of_lt hk
  refine ⟨fun a v hw => ?_, fun link => ?_, fun h => ?_, ?_, fun up hup => ?_, fun clk => ?_, fun n hn => ?_⟩
  · have hx : exec (.scHbKick a k v) s = .next (s.scKick a.req k v.toNat) := by
      show Host.Outcome.next (s.onWrite a (Rg.SC_HB_KICK (k % 2)) fun t => t.scKick a.req (k % 2) v.toNat) = _
      rw [hmod, onWrite_of s a _ _ hw]
    rw [hx]
    refine ⟨fun h => by rw [scKick_ignored h], fun hb hr hs => ?_⟩
    rw [scKick_taken hb hr hs]
    refine ⟨fun h => ?_, fun h1 h2 h3 => ?_, fun h1 h2 h3 => ?_⟩
    · rw [if_neg]
      rintro ⟨h1, h2⟩
      obtain h | h := h
      · exact h h1
      · rw [h2] at h
        exact absurd h (by decide)
    · rw [if_pos ⟨h1, h2⟩, if_neg h3]
    · rw [if_pos ⟨h1, h2⟩, if_pos h3]
      refine ⟨_, rfl, (scRole_scUpdate _ hk).trans (scRole_scEnter _ (by decide)), (scRole_scUpdate _ (by omega)).trans
        ((scRole_scEnter_other _ hk (by omega) (by omega)).trans (scRole_setSc s k _ _))⟩
  · have hx : exec (.heartbeatRx k link) s = .next (s.heartbeatRx k link) := congrArg (fun j => Host.Outcome.next (s.heartbeatRx j link)) hmod
    rw [hx]
    refine ⟨fun h => ?_, fun w hw hpath => ⟨_, rfl, heartbeatRx_shows hw hpath⟩⟩
    unfold State.heartbeatRx
    obtain h | h := h
    · rw [h]
    · split
      · rfl
      · rw [if_pos (by rw [h]; rfl)]
  · exact congrArg Host.Outcome.next ((congrArg s.missCheck hmod).trans (missCheck_ignored h))
  · rintro peer run hr hl hm rfl hpeer rfl
    obtain ⟨hrun, hcnt⟩ := missCheck_shows hk hp hr hl hm hpeer
    obtain ⟨-, -, hrole, hup, htk⟩ := missed_shows hk hp
    refine ⟨s.missCheck k, congrArg (fun j => Host.Outcome.next (s.missCheck j)) hmod, hrun, hcnt, fun h7 hsb hact => ?_, fun h7 => ?_⟩
    · rw [missCheck_eq hr hl hm hpeer, if_pos ⟨h7, hrole.trans hsb, .inl hact⟩]
      refine ⟨fun h => ?_, ?_⟩
      · rw [if_neg]
        · have hat : (s.missed k).at 1024 = s.at 1024 := by rw [State.at, State.at, htk]
          exact ⟨congrArg (fun c => some (⟨k, 1, c, true⟩ : Due)) hat, hrole.trans hsb⟩
        · rintro ⟨h0, hd⟩
          obtain h | h := h
          · omega
          · rw [hup, h] at hd
            exact absurd hd (by decide)
      · rintro rfl hd
        rw [if_pos ⟨rfl, hup.trans hd⟩]
        exact (isolate_shows _).1
    · rw [missCheck_eq hr hl hm hpeer, if_neg fun h => h7 h.1]
      exact missed_onlyRegs s hk
  · have hc : ((s.scRole k == scStandby || s.scRole k == scActive) && decide ((s.sc k).since + 65536 ≤ s.tk.count)) = up := by
      rw [Bool.eq_iff_iff, hup]
      simp
    have hx : exec (.restartsClear k) s = .next (if up = true then s.setF (Rg.SC_STAT k) Fd.SC_STAT_RESTARTS 0 else s) := by
      show Host.Outcome.next (if ((s.scRole (k % 2) == scStandby || s.scRole (k % 2) == scActive) && decide ((s.sc (k % 2)).since + 65536 ≤ s.tk.count)) = true then _ else _) = _
      rw [hmod, hc]
    refine ⟨_, hx, fun h => by rw [h]; rfl, fun h => ?_⟩
    rw [if_pos h]
    exact ⟨(f_setF_same _ _ _ _ (by decide)).trans (Nat.zero_mod _), onlyRegs_setF s _ _ _ (by simp)⟩
  · have hx : exec (.bootTimeout k clk) s = .next (if (s.scRole k == scBoot && !(s.sc k).first && decide ((s.sc k).loaded + 200000000 ≤ s.at clk)) = true then
        s.bootFail k else s) := by
      show Host.Outcome.next (if (s.scRole (k % 2) == scBoot && !(s.sc (k % 2)).first && decide ((s.sc (k % 2)).loaded + 200000000 ≤ s.at clk)) = true then
        s.bootFail (k % 2) else s) = _
      rw [hmod]
    rw [hx]
    refine ⟨fun h => ?_, fun h1 h2 h3 => ⟨_, rfl, ?_⟩⟩
    · rw [if_neg]
      obtain h | h | h := h
      · simp [h]
      · simp [h]
      · simp [Nat.not_le.2 h]
    · rw [if_pos (by simp [h1, h2, h3])]
      exact bootFail_shows hk hp
  · subst hn
    have hx : exec (.autoRestart k) s = .next (s.autoRestart k) := congrArg (fun j => Host.Outcome.next (s.autoRestart j)) hmod
    rw [hx]
    refine ⟨fun h => ?_, fun h1 h2 h3 h4 => ⟨_, rfl, ?_⟩⟩
    · rw [State.autoRestart]
      refine congrArg Host.Outcome.next (if_neg ?_)
      obtain h | h | h | h := h
      · simp [h]
      · simp [h]
      · simp [Nat.not_lt.2 h]
      · simp [Nat.not_le.2 h]
    · have hlt : s.f (Rg.SC_CFG k) Fd.SC_CFG_RESTART_MAX < 256 := bits_lt _ _ _
      rw [State.autoRestart, if_pos (by simp [h1, h2, h3, h4])]
      exact autoRestart_shows hk hp (by omega) _ rfl

end Sys2Proof.Machine
end

section
/-! SUPPORT. The fields of a register that a write replaces, and those that it leaves (R16, R17). -/
namespace Sys2Proof.Machine

/-- A field definition that does not meet the bits from `lo`. -/
def FieldDef.misses (f : FieldDef) (lo w : Nat) : Bool := decide (f.lo + f.w ≤ lo ∨ lo + w ≤ f.lo)

/-- Whether the last field definition that meets bits `lo` to `lo + w − 1` is a plain RW field of them without reserved encodings. -/
def writesField (lo w : Nat) : List FieldDef → Bool
  | [] => false
  | f :: l => if l.all (·.misses lo w) then f.lo == lo && f.w == w && f.kind == .rw && f.amin == 0 && decide (2 ^ w ≤ f.amax + 1)
    else writesField lo w l

theorem bits_write_misses {f : FieldDef} {lo w : Nat} (h : f.misses lo w = true) (c v : Nat) : bits (f.write c v) lo w = bits c lo w := by
  have hd : f.lo + f.w ≤ lo ∨ lo + w ≤ f.lo := of_decide_eq_true h
  unfold FieldDef.write
  simp only []
  split
  · split
    · exact bits_setBits_disjoint _ _ _ _ _ _ hd
    · rfl
  · exact bits_setBits_disjoint _ _ _ _ _ _ hd
  · exact bits_setBits_disjoint _ _ _ _ _ _ hd
  · rfl

theorem bits_writes_misses {l : List FieldDef} {lo w : Nat} (h : l.all (·.misses lo w) = true) (c v : Nat) :
    bits (l.foldl (fun c f => f.write c v) c) lo w = bits c lo w := by
  induction l generalizing c with
  | nil => rfl
  | cons f l ih =>
    rw [List.all_cons, Bool.and_eq_true] at h
    rw [List.foldl_cons, ih h.2, bits_write_misses h.1]

theorem bits_writes_field {l : List FieldDef} {lo w : Nat} (h : writesField lo w l = true) (c v : Nat) :
    bits (l.foldl (fun c f => f.write c v) c) lo w = bits v lo w := by
  induction l generalizing c with
  | nil => exact absurd h Bool.false_ne_true
  | cons f l ih =>
    rw [List.foldl_cons]
    rw [writesField] at h
    split at h
    · next hall =>
      simp only [Bool.and_eq_true, beq_iff_eq, decide_eq_true_eq] at h
      obtain ⟨⟨⟨⟨rfl, rfl⟩, hk⟩, hmin⟩, hmax⟩ := h
      have hlt := bits_lt v f.lo f.w
      have hok : f.ok (bits v f.lo f.w) = true := by
        rw [FieldDef.ok, decide_eq_true_eq]
        omega
      rw [bits_writes_misses hall, FieldDef.write, hk]
      show bits (if f.ok (bits v f.lo f.w) then _ else _) _ _ = _
      rw [if_pos hok, bits_setBits_same, Nat.mod_eq_of_lt hlt]
    · exact ih h _

theorem rd_fieldWrite_live {addr : Nat} {p : RegDef → Bool} (h : (findReg addr).any (fun r => !r.staged && p r) = true) (ho : ownReg addr = true)
    (s : State) (v : Nat) : ∃ r, p r = true ∧ (s.fieldWrite addr v).rd addr = r.writeLive (s.rd addr) v % 2 ^ 32 := by
  obtain ⟨r, hr, hb⟩ := findReg_of_any h
  rw [Bool.and_eq_true, Bool.not_eq_true'] at hb
  exact ⟨r, hb.2, by rw [fieldWrite_of_live hr hb.1, rd_setIntIf_own ho (Nat.mul_mod_left _ _), rd_wr_same]⟩

theorem f_fieldWrite {addr : Nat} {fl : Fld} (h : (findReg addr).any (fun r => !r.staged && writesField fl.lo fl.w r.fields) = true)
    (ho : ownReg addr = true) (h32 : fl.lo + fl.w ≤ 32) (s : State) (v : Nat) : (s.fieldWrite addr v).f addr fl = bits v fl.lo fl.w := by
  obtain ⟨r, hp, hr⟩ := rd_fieldWrite_live h ho s v
  rw [State.f, hr, bits_mod _ _ _ _ h32]
  exact bits_writes_field hp _ _

theorem f_fieldWrite_kept {addr : Nat} {fl : Fld} (h : (findReg addr).any (fun r => !r.staged && r.fields.all (·.misses fl.lo fl.w)) = true)
    (ho : ownReg addr = true) (h32 : fl.lo + fl.w ≤ 32) (s : State) (v : Nat) : (s.fieldWrite addr v).f addr fl = s.f addr fl := by
  obtain ⟨r, hp, hr⟩ := rd_fieldWrite_live h ho s v
  rw [State.f, hr, bits_mod _ _ _ _ h32]
  exact bits_writes_misses hp _ _

theorem fb_fieldWrite {addr : Nat} {fl : Fld} (h : (findReg addr).any (fun r => !r.staged && writesField fl.lo fl.w r.fields) = true)
    (ho : ownReg addr = true) (h32 : fl.lo + fl.w ≤ 32) (hw : fl.w = 1) (s : State) (v : Nat) : (s.fieldWrite addr v).fb addr fl = bit v fl.lo := by
  rw [State.fb, f_fieldWrite h ho h32, hw]
  simp [bits, bit]

/-- A write of a register's fields is calm for every other register. -/
theorem calm_fieldWrite {P : Nat → Bool} {addr : Nat} (h : (findReg addr).any (fun r => !r.staged) = true) (hi : addr % 0x1000 ≠ 0x010)
    (hd : notDom addr = true) (hP : ∀ x, P x = true → ownReg x = true ∧ x ≠ addr) (s : State) (v : Nat) : State.calm P s (s.fieldWrite addr v) := by
  obtain ⟨r, hr, hst⟩ := findReg_of_any h
  rw [Bool.not_eq_true'] at hst
  rw [fieldWrite_of_live hr hst]
  exact ((State.calm.refl P s).wr (fun x hx => (hP x hx).2) hi hd).setIntIf (fun x hx => (hP x hx).1) (Nat.mul_mod_left _ _)

end Sys2Proof.Machine
end

section
/-! SUPPORT. Controller faults, takeovers, HOLD, RESTART and SWITCHOVER, and the end of a split (R330, R333 to R336, R406). -/
namespace Sys2Proof.Machine

/-! ## What an update of the modes keeps -/

/-- No register: what a calm change keeps beside registers. -/
def noReg (_ : Nat) : Bool := false

theorem calm_scUpdate_rest (s : State) : State.calm noReg s s.scUpdate :=
  (State.calm.refl noReg s).scUpdate (fun _ hx => absurd hx Bool.false_ne_true) fun _ hx => absurd hx Bool.false_ne_true

theorem rd_scUpdate_own (s : State) {x : Nat} (ho : ownReg x = true) (hc : ctlReg x = false) (h0 : x ≠ Rg.SC_STAT 0) (h1 : x ≠ Rg.SC_STAT 1) :
    s.scUpdate.rd x = s.rd x :=
  ((State.calm.refl (· == x) s).scUpdate (fun _ hx => eq_of_beq hx ▸ ⟨ho, hc⟩) fun _ hx => eq_of_beq hx ▸ ⟨h0, h1⟩).rd _ (beq_self_eq_true _)

theorem rd_scFail_own (s : State) {x k c : Nat} (ho : ownReg x = true) (he : x / 0x1000 ≠ 0x1082) (hk : x ≠ Rg.SC_STAT k) : (s.scFail k c).rd x = s.rd x :=
  ((calm_scFail (P := (· == x)) s fun _ hx => eq_of_beq hx ▸ ⟨ho, he⟩).rd _ (beq_self_eq_true _)).trans (rd_scEnter s k _ hk)

theorem calm_scFail_rest (s : State) (k c : Nat) : State.calm noReg (s.scEnter k scFailed) (s.scFail k c) :=
  calm_scFail s fun _ hx => absurd hx Bool.false_ne_true

theorem pathUp_scFail (s : State) (k c : Nat) : (s.scFail k c).pathUp = s.pathUp := by
  obtain ⟨-, -, -, hd, -⟩ := scEnter_rest s k scFailed
  exact pathUp_of ((calm_scFail_rest s k c).d2.trans hd) (rd_scFail_own s rfl (by decide) (d2dStat_ne k))

/-- A controller's own register, but SC_STAT. -/
def scOwn (k x : Nat) : Bool := x == Rg.SC_CTRL k || x == Rg.SC_TAKEOVER_CNT k || x == Rg.SC_FAULT_CNT k

theorem scOwn_place {j k x : Nat} (hj : j < 2) (hk : k < 2) (h : scOwn k x = true) : ownReg x = true ∧ ctlReg x = false ∧ x ≠ Rg.SC_STAT j ∧
    0x100 ≤ x % 0x1000 ∧ x % 0x1000 < 0x800 ∧ x / 0x1000 = Pg.SC k / 0x1000 ∧ notDom x = true := by
  simp only [scOwn, Bool.or_eq_true, beq_iff_eq] at h
  obtain rfl | rfl : j = 0 ∨ j = 1 := by omega
  all_goals obtain rfl | rfl : k = 0 ∨ k = 1 := by omega
  all_goals obtain (rfl | rfl) | rfl := h <;> decide

theorem rd_scUpdate_scOwn (s : State) {k x : Nat} (hk : k < 2) (h : scOwn k x = true) : s.scUpdate.rd x = s.rd x := by
  obtain ⟨ho, hc, h0, -⟩ := scOwn_place (j := 0) (by decide) hk h
  obtain ⟨-, -, h1, -⟩ := scOwn_place (j := 1) (by decide) hk h
  exact rd_scUpdate_own s ho hc h0 h1

theorem rd_scFail_scOwn (s : State) {j k c x : Nat} (hj : j < 2) (hk : k < 2) (h : scOwn k x = true) : (s.scFail j c).rd x = s.rd x := by
  obtain ⟨ho, hc, hne, -⟩ := scOwn_place hj hk h
  exact rd_scFail_own s ho (emram_of_ctl hc) hne

/-! ## Faults -/

theorem scFault_ignored {s : State} {k clk : Nat} (h : s.scRole k ∉ [scBoot, scStandby, scActive]) : s.scFault k clk = s := by
  simp only [List.mem_cons, List.not_mem_nil, or_false, not_or] at h
  obtain ⟨hb, hs, ha⟩ := h
  exact if_pos (by simp [hb, hs, ha])

/-- A controller's fault counted and flagged. -/
def State.faulted (s : State) (k : Nat) : State := (s.bump (Rg.SC_FAULT_CNT k)).setInt (Pg.SC k) Ib.SC_FAULT

theorem scFault_eq {s : State} {k clk : Nat} (h : s.scRole k ∈ [scBoot, scStandby, scActive]) :
    s.scFault k clk = State.scUpdate (if s.scRole k = scActive ∧ ((s.faulted k).scFail k 2).scRole (1 - k) = scStandby then
      { (s.faulted k).scFail k 2 with sv := { ((s.faulted k).scFail k 2).sv with
          due := some ⟨1 - k, 2, ((s.faulted k).scFail k 2).at clk, ((s.faulted k).scFail k 2).pathUp⟩ } }
      else (s.faulted k).scFail k 2) := by
  refine if_neg ?_
  simp only [List.mem_cons, List.not_mem_nil, or_false] at h
  obtain h | h | h := h <;> simp [h]

theorem scFault_shows {s : State} {k clk : Nat} (hk : k < 2) (hp : s.pageOn (Pg.SC k / 0x1000) = true) (h : s.scRole k ∈ [scBoot, scStandby, scActive]) :
    (s.scFault k clk).scRole k = scFailed ∧ (s.scFault k clk).scRole (1 - k) = s.scRole (1 - k) ∧
    (s.scFault k clk).rd (Rg.SC_FAULT_CNT k) = (s.rd (Rg.SC_FAULT_CNT k) + 1) % 2 ^ 32 ∧ bit ((s.scFault k clk).rd (Pg.SC k + 0x010)) Ib.SC_FAULT = true ∧
    (s.scRole k = scActive → s.scRole (1 - k) = scStandby → (s.scFault k clk).sv.due = some ⟨1 - k, 2, s.at clk, s.pathUp⟩ ∧
      (s.scFault k clk).f (Rg.SC_STAT 1) Fd.SC_STAT_MODE = s.f (Rg.SC_STAT 1) Fd.SC_STAT_MODE) := by
  have hj : 1 - k < 2 := by omega
  have hne : 1 - k ≠ k := by omega
  obtain ⟨hown, -, -, hlo, hhi, hpg, -⟩ := scOwn_place (j := k) hk hk (show scOwn k (Rg.SC_FAULT_CNT k) = true by simp [scOwn])
  have hpg' : Rg.SC_FAULT_CNT k / 0x1000 * 0x1000 = Pg.SC k := by
    obtain rfl | rfl : k = 0 ∨ k = 1 := by omega
    all_goals rfl
  have hdom : ∀ d w, d ≤ 1 → w ≤ 1 → Rg.SC_FAULT_CNT k ≠ Rg.PWR_DOM_STAT d w := fun d w h1 h2 => by
    obtain ⟨-, -, -, -, -, -, hn⟩ := scOwn_place (j := k) hk hk (show scOwn k (Rg.SC_FAULT_CNT k) = true by simp [scOwn])
    exact notDom_ne hn d w h1 h2
  obtain ⟨hcnt, hbit, hon⟩ := bump_setInt_shows s (Rg.SC_FAULT_CNT k) (Pg.SC k) Ib.SC_FAULT hpg' hlo hhi (irqReg_of_own hown) hdom (by decide) (hpg ▸ hp)
  have hstat : ∀ j, j < 2 → (s.faulted k).rd (Rg.SC_STAT j) = s.rd (Rg.SC_STAT j) := fun j hj => hon.2 _ (by
    obtain rfl | rfl : j = 0 ∨ j = 1 := by omega
    all_goals obtain rfl | rfl : k = 0 ∨ k = 1 := by omega
    all_goals decide)
  have hpath : (s.faulted k).pathUp = s.pathUp := pathUp_of (onlyRegs_proj hon State.d2) (hon.2 _ (by
    obtain rfl | rfl : k = 0 ∨ k = 1 := by omega
    all_goals decide))
  have htk : (s.faulted k).tk = s.tk := onlyRegs_proj hon State.tk
  rw [scFault_eq h]
  change (s.faulted k).rd (Rg.SC_FAULT_CNT k) = _ at hcnt
  change bit ((s.faulted k).rd _) _ = _ at hbit
  generalize s.faulted k = u at *
  obtain ⟨-, -, -, -, htk2, -⟩ := scEnter_rest u k scFailed
  have hat : (u.scFail k 2).at clk = s.at clk := by rw [State.at, State.at, (calm_scFail_rest u k 2).tk, htk2, htk]
  have hother : (u.scFail k 2).scRole (1 - k) = s.scRole (1 - k) := (f_scFail u hk hj (.inl hne)).trans (f_of_rd (hstat _ hj) _)
  have hmode : (u.scFail k 2).f (Rg.SC_STAT 1) Fd.SC_STAT_MODE = s.f (Rg.SC_STAT 1) Fd.SC_STAT_MODE :=
    (f_scFail u hk (by decide) (.inr (by decide))).trans (f_of_rd (hstat _ (by decide)) _)
  have hup : (u.scFail k 2).pathUp = s.pathUp := (pathUp_scFail u k 2).trans hpath
  have hrole := scRole_scFail u (c := 2) hk
  have hfc : (u.scFail k 2).rd (Rg.SC_FAULT_CNT k) = (s.rd (Rg.SC_FAULT_CNT k) + 1) % 2 ^ 32 := (rd_scFail_scOwn u hk hk (by simp [scOwn])).trans hcnt
  have hfb : bit ((u.scFail k 2).rd (Pg.SC k + 0x010)) Ib.SC_FAULT = true :=
    (calm_scFail_rest u k 2).ints _ _ (sc_page k) (by decide) (keepsInt_scEnter u k _ _ _ (sc_page k) (by decide) hbit)
  generalize u.scFail k 2 = w at *
  have hend : ∀ x : State, x.scRole k = w.scRole k → x.scRole (1 - k) = w.scRole (1 - k) → x.rd (Rg.SC_FAULT_CNT k) = w.rd (Rg.SC_FAULT_CNT k) →
      x.rd (Pg.SC k + 0x010) = w.rd (Pg.SC k + 0x010) → x.scUpdate.scRole k = scFailed ∧ x.scUpdate.scRole (1 - k) = s.scRole (1 - k) ∧
      x.scUpdate.rd (Rg.SC_FAULT_CNT k) = (s.rd (Rg.SC_FAULT_CNT k) + 1) % 2 ^ 32 ∧ bit (x.scUpdate.rd (Pg.SC k + 0x010)) Ib.SC_FAULT = true :=
    fun x h1 h2 h3 h4 => ⟨(scRole_scUpdate x hk).trans (h1.trans hrole), (scRole_scUpdate x hj).trans (h2.trans hother),
      (rd_scUpdate_scOwn x hk (by simp [scOwn])).trans (h3.trans hfc), (calm_scUpdate_rest x).ints _ _ (sc_page k) (by decide) (by rw [h4]; exact hfb)⟩
  split
  · obtain ⟨h1, h2, h3, h4⟩ := hend { w with sv := { w.sv with due := some ⟨1 - k, 2, w.at clk, w.pathUp⟩ } } rfl rfl rfl rfl
    refine ⟨h1, h2, h3, h4, fun _ _ => ⟨(congrArg SvcSt.due (calm_scUpdate_rest _).sv).trans ?_, (mode_scUpdate _ (by decide)).trans ?_⟩⟩
    · show some (⟨1 - k, 2, w.at clk, w.pathUp⟩ : Due) = _
      rw [hat, hup]
    · exact (if_pos rfl).trans hmode
  · next hno =>
    obtain ⟨h1, h2, h3, h4⟩ := hend w rfl rfl rfl rfl
    exact ⟨h1, h2, h3, h4, fun ha hs => absurd ⟨ha, hother.trans hs⟩ hno⟩

/-! ## The marks of a takeover -/

theorem calm_takeoverMark {P : Nat → Bool} (s : State) {k c : Nat} (hk : k < 2)
    (hP : ∀ x, P x = true → ownReg x = true ∧ x ≠ Rg.SC_TAKEOVER_CNT k ∧ x ≠ Rg.SC_STAT k) : State.calm P s (s.takeoverMark k c) := by
  obtain ⟨-, -, -, hlo, hhi, -, hdom⟩ := scOwn_place (j := k) hk hk (show scOwn k (Rg.SC_TAKEOVER_CNT k) = true by simp [scOwn])
  exact (((State.calm.refl P s).bump (fun x hx => ⟨(hP x hx).1, (hP x hx).2.1⟩) hlo hhi hdom).scStat fun x hx => (hP x hx).2.2).setInt
    (fun x hx => (hP x hx).1) (sc_page k)

theorem rd_takeoverMark (s : State) {k c x : Nat} (hk : k < 2) (ho : ownReg x = true) (h1 : x ≠ Rg.SC_TAKEOVER_CNT k) (h2 : x ≠ Rg.SC_STAT k) :
    (s.takeoverMark k c).rd x = s.rd x :=
  (calm_takeoverMark (P := (· == x)) s hk fun _ hx => eq_of_beq hx ▸ ⟨ho, h1, h2⟩).rd _ (beq_self_eq_true _)

theorem f_takeoverMark_own (s : State) {k c : Nat} (hk : k < 2) (fl : Fld) :
    (s.takeoverMark k c).f (Rg.SC_STAT k) fl = (s.setF (Rg.SC_STAT k) Fd.SC_STAT_LAST_CAUSE c).f (Rg.SC_STAT k) fl := by
  obtain ⟨ho, -, -, -, hhi, -, -⟩ := scOwn_place (j := k) hk hk (show scOwn k (Rg.SC_TAKEOVER_CNT k) = true by simp [scOwn])
  have hb := rd_bump_own (s := s) (n := 1) (scStat_own hk).1 hhi (show Rg.SC_STAT k ≠ Rg.SC_TAKEOVER_CNT k by simp)
  rw [State.takeoverMark, f_of_rd (rd_setInt_own (scStat_own hk).1 (sc_page k)), State.f, State.f, rd_setF_same, rd_setF_same, hb]

theorem f_takeoverMark (s : State) {j k c : Nat} (hj : j < 2) (hk : k < 2) {fl : Fld} (h : fl.lo + fl.w ≤ 32) (hd : 18 ≤ fl.lo ∨ fl.lo + fl.w ≤ 16) :
    (s.takeoverMark k c).f (Rg.SC_STAT j) fl = s.f (Rg.SC_STAT j) fl := by
  by_cases e : j = k
  · rw [e, f_takeoverMark_own s hk, f_setF_disjoint _ _ Fd.SC_STAT_LAST_CAUSE _ _ h hd]
  · refine f_of_rd (rd_takeoverMark s hk (scStat_own hj).1 ?_ (scStat_other hk hj e)) fl
    obtain ⟨rfl, rfl⟩ | ⟨rfl, rfl⟩ : (k = 0 ∧ j = 1) ∨ (k = 1 ∧ j = 0) := by omega
    all_goals decide

theorem takeoverMark_shows {s : State} {k c : Nat} (hk : k < 2) (hc : c < 4) (hp : s.pageOn (Pg.SC k / 0x1000) = true) :
    (s.takeoverMark k c).rd (Rg.SC_TAKEOVER_CNT k) = (s.rd (Rg.SC_TAKEOVER_CNT k) + 1) % 2 ^ 32 ∧
    (s.takeoverMark k c).f (Rg.SC_STAT k) Fd.SC_STAT_LAST_CAUSE = c ∧ bit ((s.takeoverMark k c).rd (Pg.SC k + 0x010)) Ib.SC_TAKEOVER = true := by
  obtain ⟨ho, -, hst, hlo, hhi, hpg, hdom⟩ := scOwn_place (j := k) hk hk (show scOwn k (Rg.SC_TAKEOVER_CNT k) = true by simp [scOwn])
  refine ⟨?_, ?_, ?_⟩
  · rw [State.takeoverMark, rd_setInt_own ho (sc_page k), rd_setF_other _ _ _ _ _ hst, bump_rd_own s _ 1 ho hlo hhi (hpg ▸ hp)]
  · rw [f_takeoverMark_own s hk, f_setF_same _ _ _ _ (by decide)]
    exact Nat.mod_eq_of_lt hc
  · refine setInt_bit _ _ _ (sc_page k) (by decide) ?_
    have h : State.calm noReg s ((s.bump (Rg.SC_TAKEOVER_CNT k)).setF (Rg.SC_STAT k) Fd.SC_STAT_LAST_CAUSE c) :=
      ((State.calm.refl noReg s).bump (fun _ hx => absurd hx Bool.false_ne_true) hlo hhi hdom).scStat fun _ hx => absurd hx Bool.false_ne_true
    exact (h.on _).trans hp

/-- The marks in both pages, where a path joins them. -/
theorem takeoverMarks_both {s : State} {k c : Nat} (hp : s.pathUp = true) :
    s.takeoverMarks k c = ((s.takeoverMark 1 c).takeoverMark 0 c).log (Pg.SC k) 0x0010 (k + c * 256) := by
  have h1 : (s.takeoverMark 1 c).pathUp = true := ((calm_takeoverMark (P := linkStat) s (by decide) fun x hx => eq_of_beq hx ▸ by decide).pathUp rfl).trans hp
  unfold State.takeoverMarks
  simp only [h1, Bool.true_or, if_true]

/-- The marks of SC0 that are to come, with one more. -/
def State.owesMark (s : State) (c : Nat) : State := { s with sv := { s.sv with missed := s.sv.missed ++ [c] } }

theorem owesMark_shows (s : State) (c : Nat) : (s.owesMark c).d2 = s.d2 ∧ (s.owesMark c).sv.hold = s.sv.hold ∧ (s.owesMark c).sv.missed = s.sv.missed ++ [c] ∧
    ∀ x, (s.owesMark c).rd x = s.rd x := ⟨rfl, rfl, rfl, fun _ => rfl⟩

/-- The marks in SC1's page alone, where SC0 is out of reach. -/
theorem takeoverMarks_far {s : State} {c : Nat} (hp : s.pathUp = false) :
    s.takeoverMarks 1 c = ((s.takeoverMark 1 c).owesMark c).log (Pg.SC 1) 0x0010 (1 + c * 256) := by
  have h1 : (s.takeoverMark 1 c).pathUp = false := ((calm_takeoverMark (P := linkStat) s (by decide) fun x hx => eq_of_beq hx ▸ by decide).pathUp rfl).trans hp
  unfold State.takeoverMarks
  simp only [h1]
  rfl

theorem rd_takeoverMarks (s : State) {k c x : Nat} (hp : s.pathUp = true) (ho : ownReg x = true) (he : x / 0x1000 ≠ 0x1082)
    (h : ∀ j, j < 2 → x ≠ Rg.SC_TAKEOVER_CNT j ∧ x ≠ Rg.SC_STAT j) : (s.takeoverMarks k c).rd x = s.rd x := by
  rw [takeoverMarks_both hp, rd_log_own ho he, rd_takeoverMark _ (by decide) ho (h 0 (by decide)).1 (h 0 (by decide)).2,
    rd_takeoverMark _ (by decide) ho (h 1 (by decide)).1 (h 1 (by decide)).2]

theorem calm_takeoverMarks {s : State} {k c : Nat} (hp : s.pathUp = true) : State.calm noReg s (s.takeoverMarks k c) := by
  have hno : ∀ x, noReg x = true → False := fun _ hx => absurd hx Bool.false_ne_true
  rw [takeoverMarks_both hp]
  exact ((calm_takeoverMark s (by decide) fun x hx => (hno x hx).elim).trans (calm_takeoverMark _ (by decide) fun x hx => (hno x hx).elim)).log
    fun x hx => (hno x hx).elim

theorem takeoverMarks_shows {s : State} {k c : Nat} (hc : c < 4) (hp : s.pathUp = true) (h0 : s.pageOn (Pg.SC 0 / 0x1000) = true)
    (h1 : s.pageOn (Pg.SC 1 / 0x1000) = true) {j : Nat} (hj : j < 2) :
    (s.takeoverMarks k c).rd (Rg.SC_TAKEOVER_CNT j) = (s.rd (Rg.SC_TAKEOVER_CNT j) + 1) % 2 ^ 32 ∧
    (s.takeoverMarks k c).f (Rg.SC_STAT j) Fd.SC_STAT_LAST_CAUSE = c ∧ bit ((s.takeoverMarks k c).rd (Pg.SC j + 0x010)) Ib.SC_TAKEOVER = true ∧
    (s.takeoverMarks k c).scRole j = s.scRole j := by
  have hno : ∀ x, noReg x = true → False := fun _ hx => absurd hx Bool.false_ne_true
  have hc1 : State.calm noReg s (s.takeoverMark 1 c) := calm_takeoverMark s (by decide) fun x hx => (hno x hx).elim
  obtain ⟨m1, m2, m3⟩ := takeoverMark_shows (s := s) (k := 1) (by decide) hc h1
  obtain ⟨n1, n2, n3⟩ := takeoverMark_shows (s := s.takeoverMark 1 c) (k := 0) (by decide) hc ((hc1.on _).trans h0)
  have hc2 : State.calm noReg (s.takeoverMark 1 c) ((s.takeoverMark 1 c).takeoverMark 0 c) := calm_takeoverMark _ (by decide) fun x hx => (hno x hx).elim
  have hlog : State.calm noReg ((s.takeoverMark 1 c).takeoverMark 0 c) (((s.takeoverMark 1 c).takeoverMark 0 c).log (Pg.SC k) 0x0010 (k + c * 256)) :=
    (State.calm.refl noReg _).log fun x hx => (hno x hx).elim
  rw [takeoverMarks_both hp]
  have hrole : ∀ i, i < 2 → ((s.takeoverMark 1 c).takeoverMark 0 c).scRole i = s.scRole i := fun i hi =>
    (f_takeoverMark _ hi (by decide) (by decide) (by decide)).trans (f_takeoverMark s hi (by decide) (by decide) (by decide))
  have hl : ∀ x, ownReg x = true → x / 0x1000 ≠ 0x1082 → (((s.takeoverMark 1 c).takeoverMark 0 c).log (Pg.SC k) 0x0010 (k + c * 256)).rd x =
      ((s.takeoverMark 1 c).takeoverMark 0 c).rd x := fun x ho he => rd_log_own ho he
  obtain rfl | rfl : j = 0 ∨ j = 1 := by omega
  · refine ⟨?_, (f_of_rd (hl _ rfl (by decide)) _).trans n2, hlog.ints _ _ rfl (by decide) n3, (f_of_rd (hl _ rfl (by decide)) _).trans (hrole 0 (by decide))⟩
    rw [hl _ rfl (by decide), n1, rd_takeoverMark _ (by decide) rfl (by decide) (by decide)]
  · refine ⟨?_, ?_, hlog.ints _ _ rfl (by decide) (hc2.ints _ _ rfl (by decide) m3), (f_of_rd (hl _ rfl (by decide)) _).trans (hrole 1 (by decide))⟩
    · rw [hl _ rfl (by decide), rd_takeoverMark _ (by decide) rfl (by decide) (by decide), m1]
    · rw [f_of_rd (hl _ rfl (by decide)), f_of_rd (rd_takeoverMark _ (by decide) rfl (by decide) (by decide)), m2]

/-! ## Stage ownership -/

theorem scOwns_congr {s t : State} (h : t.rd Rg.CMT_STAT = s.rd Rg.CMT_STAT) (k : Nat) : t.scOwns k = s.scOwns k := by
  rw [State.scOwns, State.scOwns, f_of_rd h, fb_of_rd h, f_of_rd h]

/-- Where no owner of the stage is FAILED or HELD, ownership stays. -/
theorem scOwners_same {t : State} (h : ∀ j, j < 2 → t.scOwns j = true → t.scRole j ≠ scFailed ∧ t.scRole j ≠ scHeld) : t.scOwners = t := by
  have hc : ∀ j, j < 2 → (!t.scOwns j || !(t.scRole j == scFailed || t.scRole j == scHeld)) = true := fun j hj => by
    cases ho : t.scOwns j with
    | false => rfl
    | true =>
      obtain ⟨h1, h2⟩ := h j hj ho
      simp [h1, h2]
  unfold State.scOwners
  rw [List.foldl_cons, List.foldl_cons, List.foldl_nil, if_pos (hc 0 (by decide)), if_pos (hc 1 (by decide))]

theorem rd_cmt_scUpdate {t : State} (h : ∀ j, j < 2 → t.scOwns j = true → t.scRole j ≠ scFailed ∧ t.scRole j ≠ scHeld) :
    t.scUpdate.rd Rg.CMT_STAT = t.rd Rg.CMT_STAT := by
  have hm : t.scModed.rd Rg.CMT_STAT = t.rd Rg.CMT_STAT := by rw [State.scModed, rd_setF_other _ _ _ _ _ (by decide), rd_setF_other _ _ _ _ _ (by decide)]
  have hr : ∀ j, j < 2 → t.scModed.scRole j = t.scRole j := fun j hj => by
    rw [State.scRole, State.scModed, f_setF_scStat (by decide) hj (by decide) (by decide), f_setF_scStat (by decide) hj (by decide) (by decide), State.scRole]
  rw [(calm_scEvents (P := (· == Rg.CMT_STAT)) t fun _ hx => eq_of_beq hx ▸ by decide).rd _ (beq_self_eq_true _),
    scOwners_same fun j hj ho => by rw [hr j hj]; exact h j hj (scOwns_congr hm j ▸ ho)]
  unfold State.scShow
  split
  · exact hm
  · rw [rd_setF_other _ _ _ _ _ (by decide), rd_setF_other _ _ _ _ _ (by decide), hm]

theorem ctlReg_cmt {k : Nat} (hk : k < 2) : Rg.CMT_STAT ≠ Rg.SC_STAT k := by
  obtain rfl | rfl : k = 0 ∨ k = 1 := by omega
  all_goals decide

/-! ## Takeovers -/

theorem takeover_waits {s : State} {d : Due} (hd : s.sv.due = some d)
    (h : d.told = false ∨ s.tk.start < d.since + (if d.cause = 2 then 64 else 0) ∨ s.scRole d.standby ≠ scStandby) : s.takeover = s := by
  unfold State.takeover
  rw [hd]
  refine if_pos ?_
  obtain h | h | h := h <;> simp [h]

/-- The other controller as a takeover over a working path leaves it: it fails where it ran. -/
def State.ousted (s : State) (k c : Nat) : State :=
  if s.scRuns (1 - k) then State.scFail { s with sv := { s.sv with due := none } } (1 - k) c else { s with sv := { s.sv with due := none } }

/-- The takeover by a controller whose peer is out of reach: it shows the other as FAILED, whose hold and marks are to come. -/
def State.outOfReach (s : State) (k c : Nat) : State :=
  { State.setF { s with sv := { s.sv with due := none } } (Rg.SC_STAT k) Fd.SC_STAT_PEER_ROLE scFailed with sv := { s.sv with due := none, hold := some c } }

theorem takeover_eq {s : State} {d : Due} (hd : s.sv.due = some d) (ht : d.told = true)
    (hs : d.since + (if d.cause = 2 then 64 else 0) ≤ s.tk.start) (hr : s.scRole d.standby = scStandby) :
    s.takeover = if d.standby = 0 ∧ s.pathUp = false then s.isolate else
      (((((if s.pathUp then s.ousted d.standby d.cause else
        s.outOfReach d.standby d.cause).scEnter d.standby scActive).passOwner (1 - d.standby) d.standby).takeoverMarks
        d.standby d.cause)).scUpdate := by
  have hn : ¬((!d.told || decide (s.tk.start < d.since + if d.cause = 2 then 64 else 0) || s.scRole d.standby != scStandby) = true) := by
    simp [ht, hr, Nat.not_lt.2 hs]
  unfold State.takeover
  rw [hd]
  refine (if_neg hn).trans ?_
  simp only [Bool.not_eq_true']
  rfl

theorem ousted_shows {s : State} {k c : Nat} (hk : k < 2) : (s.ousted k c).pathUp = s.pathUp ∧ (s.ousted k c).sv.due = none ∧
    (∀ page, (s.ousted k c).pageOn page = s.pageOn page) ∧
    (s.ousted k c).scRole (1 - k) = (if s.scRuns (1 - k) then scFailed else s.scRole (1 - k)) ∧
    ∀ x, ownReg x = true → x / 0x1000 ≠ 0x1082 → x ≠ Rg.SC_STAT (1 - k) → (s.ousted k c).rd x = s.rd x := by
  unfold State.ousted
  have hp : ({ s with sv := { s.sv with due := none } } : State).pathUp = s.pathUp := rfl
  have hr : ∀ x, ({ s with sv := { s.sv with due := none } } : State).rd x = s.rd x := fun _ => rfl
  have hg : ∀ g, ({ s with sv := { s.sv with due := none } } : State).pageOn g = s.pageOn g := fun _ => rfl
  have hd : ({ s with sv := { s.sv with due := none } } : State).sv.due = none := rfl
  have ho : ({ s with sv := { s.sv with due := none } } : State).scRole (1 - k) = s.scRole (1 - k) := rfl
  generalize ({ s with sv := { s.sv with due := none } } : State) = u at *
  split
  · have hdue : (u.scEnter (1 - k) scFailed).sv.due = none := (due_scEnter u (.inr fun d h => by rw [hd] at h; cases h)).trans hd
    refine ⟨(pathUp_scFail u _ _).trans hp, (congrArg SvcSt.due (calm_scFail_rest u _ _).sv).trans hdue, fun g => ?_, scRole_scFail u (by omega),
      fun x h1 h2 h3 => (rd_scFail_own u h1 h2 h3).trans (hr x)⟩
    exact ((calm_scFail_rest u _ _).on g).trans ((pageOn_scEnter u _ _ g).trans (hg g))
  · exact ⟨hp, hd, hg, ho, fun x _ _ _ => hr x⟩

theorem takeover_path {s : State} {d : Due} {k : Nat} (hk : k < 2) (hc : d.cause < 4) (hd : s.sv.due = some d) (hkd : d.standby = k) (ht : d.told = true)
    (hs : d.since + (if d.cause = 2 then 64 else 0) ≤ s.tk.start) (hr : s.scRole k = scStandby) (h0 : s.pageOn (Pg.SC 0 / 0x1000) = true)
    (h1 : s.pageOn (Pg.SC 1 / 0x1000) = true) (hp : s.pathUp = true) :
    s.takeover.scRole k = scActive ∧ s.takeover.sv.due = none ∧ s.takeover.f (Rg.SC_STAT 1) Fd.SC_STAT_MODE = 1 ∧
      s.takeover.scRole (1 - k) = (if s.scRuns (1 - k) then scFailed else s.scRole (1 - k)) ∧
      (s.scOwns (1 - k) = true → s.takeover.f Rg.CMT_STAT Fd.CMT_STAT_OWNER = 2 + k) ∧
      ∀ j, j < 2 → s.takeover.rd (Rg.SC_TAKEOVER_CNT j) = (s.rd (Rg.SC_TAKEOVER_CNT j) + 1) % 2 ^ 32 ∧
        s.takeover.f (Rg.SC_STAT j) Fd.SC_STAT_LAST_CAUSE = d.cause ∧ bit (s.takeover.rd (Pg.SC j + 0x010)) Ib.SC_TAKEOVER = true := by
  have hj : 1 - k < 2 := by omega
  have hne : 1 - k ≠ k := by omega
  obtain ⟨wp, wd, wg, wr, wx⟩ := ousted_shows (s := s) (c := d.cause) hk
  have heq := takeover_eq hd ht hs (by rw [hkd]; exact hr)
  rw [hkd, hp, if_neg (by simp), if_pos rfl] at heq
  rw [heq]
  generalize s.ousted k d.cause = w at *
  -- the standby controller is ACTIVE
  have xr := scRole_scEnter w (k := k) (role := scActive) (by decide)
  have xo : (w.scEnter k scActive).scRole (1 - k) = w.scRole (1 - k) := scRole_scEnter_other w hk hj hne
  have xd : (w.scEnter k scActive).sv.due = none := (due_scEnter w (.inr fun d h => by rw [wd] at h; cases h)).trans wd
  have xg := pageOn_scEnter w k scActive
  have xp : (w.scEnter k scActive).pathUp = true := (pathUp_scEnter w k _).trans (wp.trans hp)
  have xx := fun x (hx : x ≠ Rg.SC_STAT k) => rd_scEnter w k scActive hx
  generalize w.scEnter k scActive = x at *
  -- and has the stage
  have hcnt : ∀ j, j < 2 → ownReg (Rg.SC_TAKEOVER_CNT j) = true ∧ Rg.SC_TAKEOVER_CNT j / 0x1000 ≠ 0x1082 ∧ (∀ i, i < 2 → Rg.SC_TAKEOVER_CNT j ≠ Rg.SC_STAT i) ∧
      Rg.SC_TAKEOVER_CNT j ≠ Rg.CMT_STAT := fun j hj => by
    have hpl := fun i (hi : i < 2) => scOwn_place (j := i) hi hj (show scOwn j (Rg.SC_TAKEOVER_CNT j) = true by simp [scOwn])
    obtain ⟨ho, hctl, -⟩ := hpl j hj
    exact ⟨ho, emram_of_ctl hctl, fun i hi => (hpl i hi).2.2.1, (ctlReg_not hctl).1⟩
  have hcmt : x.rd Rg.CMT_STAT = s.rd Rg.CMT_STAT :=
    (xx _ (ctlReg_cmt hk)).trans (wx _ rfl (by decide) (ctlReg_cmt hj))
  have ym : State.calm (fun x => ownReg x && x != Rg.CMT_STAT) x (x.passOwner (1 - k) k) :=
    .ite ((State.calm.refl _ x).setF (fun y hy e => by simp [e] at hy) (by decide) rfl) (.refl _ x)
  have yo : (s.scOwns (1 - k) = true → (x.passOwner (1 - k) k).f Rg.CMT_STAT Fd.CMT_STAT_OWNER = 2 + k) ∧ (x.passOwner (1 - k) k).scOwns (1 - k) = false := by
    have hown := scOwns_congr hcmt (1 - k)
    unfold State.passOwner
    split
    · have hf := f_setF_same x Rg.CMT_STAT Fd.CMT_STAT_OWNER (2 + k) (by decide)
      have hlt : (2 + k) % 2 ^ Fd.CMT_STAT_OWNER.w = 2 + k := Nat.mod_eq_of_lt (show _ < 4 by omega)
      refine ⟨fun _ => hf.trans hlt, ?_⟩
      rw [State.scOwns, hf, hlt, beq_eq_false_iff_ne.2 (show 2 + k ≠ 2 + (1 - k) by omega), Bool.and_false]
    · next h =>
      rw [Bool.not_eq_true] at h
      exact ⟨fun ho => absurd ho (by rw [← hown, h]; decide), h⟩
  have hstat : ∀ i, i < 2 → (fun x => ownReg x && x != Rg.CMT_STAT) (Rg.SC_STAT i) = true := fun i hi => by
    obtain rfl | rfl : i = 0 ∨ i = 1 := by omega
    all_goals rfl
  have yr : ∀ i, i < 2 → (x.passOwner (1 - k) k).scRole i = x.scRole i := fun i hi => f_of_rd (ym.rd _ (hstat i hi)) _
  have yp : (x.passOwner (1 - k) k).pathUp = true := (ym.pathUp rfl).trans xp
  generalize x.passOwner (1 - k) k = y at *
  -- both pages are marked
  have zc := calm_takeoverMarks (k := k) (c := d.cause) yp
  have zs := fun j (hj : j < 2) => takeoverMarks_shows (k := k) hc yp ((ym.on _).trans ((xg _).trans ((wg _).trans h0)))
    ((ym.on _).trans ((xg _).trans ((wg _).trans h1))) hj
  have zm : (y.takeoverMarks k d.cause).rd Rg.CMT_STAT = y.rd Rg.CMT_STAT := rd_takeoverMarks y yp rfl (by decide) fun j hj => by
    obtain rfl | rfl : j = 0 ∨ j = 1 := by omega
    all_goals decide
  generalize y.takeoverMarks k d.cause = z at *
  have zr : z.scRole k = scActive := ((zs k hk).2.2.2.trans (yr k hk)).trans xr
  have zo : z.scRole (1 - k) = if s.scRuns (1 - k) then scFailed else s.scRole (1 - k) := ((zs _ hj).2.2.2.trans (yr _ hj)).trans (xo.trans wr)
  have zd : z.sv.due = none := (congrArg SvcSt.due (zc.sv.trans ym.sv)).trans xd
  have zown : z.scOwns (1 - k) = false := (scOwns_congr zm _).trans yo.2
  have tm : z.scUpdate.rd Rg.CMT_STAT = z.rd Rg.CMT_STAT := rd_cmt_scUpdate fun j hj' ho => by
    obtain rfl | rfl : j = k ∨ j = 1 - k := by omega
    · rw [zr]
      decide
    · rw [zown] at ho
      cases ho
  have hstd : z.scRole (1 - k) ≠ scStandby := by
    rw [zo]
    split
    · decide
    · next h =>
      intro he
      exact h (by rw [State.scRuns, he]; rfl)
  refine ⟨(scRole_scUpdate z hk).trans zr, (congrArg SvcSt.due (calm_scUpdate_rest z).sv).trans zd, (mode_scUpdate z (by decide)).trans ?_,
    (scRole_scUpdate z hj).trans zo, fun ho => (f_of_rd (tm.trans zm) _).trans (yo.1 ho), fun j hj' => ?_⟩
  · unfold State.scMode
    rw [zd]
    obtain rfl | rfl : k = 0 ∨ k = 1 := by omega
    · have hstd' : z.scRole 1 ≠ scStandby := hstd
      simp [zr, hstd']
    · have hstd' : z.scRole 0 ≠ scStandby := hstd
      simp [zr, hstd']
  · obtain ⟨c1, c2, c3, -⟩ := zs j hj'
    obtain ⟨o1, o2, o3, o4⟩ := hcnt j hj'
    refine ⟨(rd_scUpdate_scOwn z hj' (by simp [scOwn])).trans (c1.trans ?_), (f_scUpdate z hj' rfl).trans c2, (calm_scUpdate_rest z).ints _ _ (sc_page j) (by decide) c3⟩
    rw [ym.rd _ (by simp only [o1, Bool.true_and, bne_iff_ne]; exact o4), xx _ (o3 k hk), wx _ o1 o2 (o3 _ hj)]

theorem outOfReach_shows (s : State) (k c : Nat) : (s.outOfReach k c).d2 = s.d2 ∧ (s.outOfReach k c).sv.hold = some c ∧ (s.outOfReach k c).sv.missed = s.sv.missed ∧
    (∀ x, x ≠ Rg.SC_STAT k → (s.outOfReach k c).rd x = s.rd x) ∧ (s.outOfReach k c).f (Rg.SC_STAT k) Fd.SC_STAT_PEER_ROLE = scFailed := by
  have hr : ∀ x, ({ s with sv := { s.sv with due := none } } : State).rd x = s.rd x := rd_sv s _
  have hd : ({ s with sv := { s.sv with due := none } } : State).d2 = s.d2 := (rest_sv s _).2.2.2.1
  unfold State.outOfReach
  generalize ({ s with sv := { s.sv with due := none } } : State) = u at *
  obtain ⟨-, -, -, h, -, -, -, hsv⟩ := rest_sv (u.setF (Rg.SC_STAT k) Fd.SC_STAT_PEER_ROLE scFailed) { s.sv with due := none, hold := some c }
  refine ⟨(h.trans (State.setF_d2 ..)).trans hd, by rw [hsv], by rw [hsv], fun x hx => ?_, ?_⟩
  · rw [rd_sv, rd_setF_other _ _ _ _ _ hx, hr]
  · rw [f_sv, f_setF_same _ _ _ _ (by decide)]
    rfl

theorem takeover_far {s : State} {d : Due} (hd : s.sv.due = some d) (hkd : d.standby = 1) (ht : d.told = true)
    (hs : d.since + (if d.cause = 2 then 64 else 0) ≤ s.tk.start) (hr : s.scRole 1 = scStandby) (hp : s.pathUp = false) :
    s.takeover.scRole 1 = scActive ∧ s.takeover.scRole 0 = s.scRole 0 ∧ s.takeover.f (Rg.SC_STAT 1) Fd.SC_STAT_PEER_ROLE = scFailed ∧
      s.takeover.sv.hold = some d.cause ∧ s.takeover.sv.missed = s.sv.missed ++ [d.cause] ∧ s.takeover.rd (Rg.SC_TAKEOVER_CNT 0) = s.rd (Rg.SC_TAKEOVER_CNT 0) := by
  have heq := takeover_eq hd ht hs (by rw [hkd]; exact hr)
  rw [hkd, hp, if_neg (by simp), if_neg (by simp)] at heq
  rw [heq]
  obtain ⟨ud2, uh, um, urd, upeer⟩ := outOfReach_shows s 1 d.cause
  have up : (s.outOfReach 1 d.cause).pathUp = false := (pathUp_of ud2 (urd _ (by decide))).trans hp
  have ur : (s.outOfReach 1 d.cause).scRole 0 = s.scRole 0 := f_of_rd (urd _ (by decide)) _
  have ucnt := urd (Rg.SC_TAKEOVER_CNT 0) (by decide)
  generalize s.outOfReach 1 d.cause = u at *
  have xr := scRole_scEnter u (k := 1) (role := scActive) (by decide)
  have xo : (u.scEnter 1 scActive).scRole 0 = u.scRole 0 := scRole_scEnter_other u (by decide) (by decide) (by decide)
  have xpeer : (u.scEnter 1 scActive).f (Rg.SC_STAT 1) Fd.SC_STAT_PEER_ROLE = scFailed := (f_scEnter u (by decide) (by decide) (by decide)).trans upeer
  have xp := (pathUp_scEnter u 1 scActive).trans up
  have xcnt := (rd_scEnter u 1 scActive (show Rg.SC_TAKEOVER_CNT 0 ≠ Rg.SC_STAT 1 by decide)).trans ucnt
  obtain ⟨-, -, -, -, -, -, -, xh, xm⟩ := scEnter_rest u 1 scActive
  rw [uh] at xh
  rw [um] at xm
  generalize u.scEnter 1 scActive = x at *
  have ym : State.calm (fun x => ownReg x && x != Rg.CMT_STAT) x (x.passOwner (1 - 1) 1) :=
    .ite ((State.calm.refl _ x).setF (fun y hy e => by simp [e] at hy) (by decide) rfl) (.refl _ x)
  have yp : (x.passOwner (1 - 1) 1).pathUp = false := (ym.pathUp rfl).trans xp
  have yf : ∀ i, i < 2 → ∀ fl, (x.passOwner (1 - 1) 1).f (Rg.SC_STAT i) fl = x.f (Rg.SC_STAT i) fl := fun i hi => by
    obtain rfl | rfl : i = 0 ∨ i = 1 := by omega
    all_goals exact f_of_rd (ym.rd _ rfl)
  have ycnt := ym.rd (Rg.SC_TAKEOVER_CNT 0) rfl
  have ysv := ym.sv
  generalize x.passOwner (1 - 1) 1 = y at *
  have zc : State.calm noReg y (y.takeoverMark 1 d.cause) := calm_takeoverMark y (by decide) fun _ hx => absurd hx Bool.false_ne_true
  have zf : ∀ i, i < 2 → ∀ fl : Fld, fl.lo + fl.w ≤ 32 → 18 ≤ fl.lo → (y.takeoverMark 1 d.cause).f (Rg.SC_STAT i) fl = y.f (Rg.SC_STAT i) fl :=
    fun i hi fl h32 hlo => f_takeoverMark y hi (by decide) h32 (.inl hlo)
  have zcnt := rd_takeoverMark y (k := 1) (c := d.cause) (x := Rg.SC_TAKEOVER_CNT 0) (by decide) rfl (by decide) (by decide)
  have zp : (y.takeoverMark 1 d.cause).pathUp = false :=
    ((calm_takeoverMark (P := linkStat) y (by decide) fun x hx => eq_of_beq hx ▸ by decide).pathUp rfl).trans yp
  rw [takeoverMarks_far yp]
  generalize y.takeoverMark 1 d.cause = z at *
  obtain ⟨vd, vh, vm, vrd⟩ := owesMark_shows z d.cause
  have vp := (pathUp_of vd (vrd _)).trans zp
  generalize z.owesMark d.cause = v at *
  have lc : State.calm linkStat v (v.log (Pg.SC 1) 0x0010 (1 + d.cause * 256)) := (State.calm.refl _ v).log fun x hx => eq_of_beq hx ▸ by decide
  have lrd : ∀ x, ownReg x = true → x / 0x1000 ≠ 0x1082 → (v.log (Pg.SC 1) 0x0010 (1 + d.cause * 256)).rd x = v.rd x := fun x h1 h2 => rd_log_own h1 h2
  have lp := (lc.pathUp rfl).trans vp
  have lsv := lc.sv
  generalize v.log (Pg.SC 1) 0x0010 (1 + d.cause * 256) = w at *
  have wf : ∀ i, i < 2 → ∀ fl : Fld, fl.lo + fl.w ≤ 32 → 18 ≤ fl.lo → w.f (Rg.SC_STAT i) fl = x.f (Rg.SC_STAT i) fl := fun i hi fl h32 hlo => by
    have hp := (scStat_own hi)
    rw [f_of_rd (lrd _ hp.1 (emram_of_ctl hp.2)), f_of_rd (vrd _), zf i hi fl h32 hlo, yf i hi]
  have wsv : w.sv.hold = some d.cause ∧ w.sv.missed = s.sv.missed ++ [d.cause] := by
    rw [lsv, vh, vm, zc.sv, ysv, xh, xm]
    exact ⟨rfl, rfl⟩
  refine ⟨(scRole_scUpdate w (by decide)).trans ((wf 1 (by decide) _ (by decide) (by decide)).trans xr),
    (scRole_scUpdate w (by decide)).trans ((wf 0 (by decide) _ (by decide) (by decide)).trans (xo.trans ur)),
    (peer_scUpdate_down w (by decide) lp).trans ((wf 1 (by decide) _ (by decide) (by decide)).trans xpeer), ?_, ?_, ?_⟩
  · rw [(calm_scUpdate_rest w).sv]
    exact wsv.1
  · rw [(calm_scUpdate_rest w).sv]
    exact wsv.2
  · rw [rd_scUpdate_scOwn w (k := 0) (by decide) rfl, lrd _ rfl (by decide), vrd, zcnt, ycnt, xcnt]

/-! ## SC_CTRL -/

theorem scCtrl_bits {v n : Nat} (h : bits v 29 3 = n) : bit v 29 = n.testBit 0 ∧ bit v 30 = n.testBit 1 ∧ bit v 31 = n.testBit 2 := by
  subst h
  simp only [testBit_bits, bit_eq_testBit]
  exact ⟨rfl, rfl, rfl⟩

/-- SC_CTRL as its fields are written, before HOLD, RESTART and SWITCHOVER act. -/
theorem scCtrl_written (s : State) {k : Nat} (hk : k < 2) (v : Nat) (hp : s.pageOn (Rg.SC_CTRL k / 0x1000) = true) :
    (∀ j, j < 2 → ∀ fl, (s.fieldWrite (Rg.SC_CTRL k) v).f (Rg.SC_STAT j) fl = s.f (Rg.SC_STAT j) fl) ∧
      (s.fieldWrite (Rg.SC_CTRL k) v).sv = s.sv ∧ (s.fieldWrite (Rg.SC_CTRL k) v).pageOn (Pg.SC k / 0x1000) = true ∧
      (s.fieldWrite (Rg.SC_CTRL k) v).fb (Rg.SC_CTRL k) Fd.SC_CTRL_HOLD = bit v 29 ∧
      (s.fieldWrite (Rg.SC_CTRL k) v).fb (Rg.SC_CTRL k) Fd.SC_CTRL_AUTO_RESTART = bit v 0 := by
  have hc : State.calm (fun x => x == Rg.SC_STAT 0 || x == Rg.SC_STAT 1) s (s.fieldWrite (Rg.SC_CTRL k) v) := by
    obtain rfl | rfl : k = 0 ∨ k = 1 := by omega
    all_goals
      refine calm_fieldWrite rfl (by decide) rfl (fun x hx => ?_) s v
      simp only [Bool.or_eq_true, beq_iff_eq] at hx
      obtain rfl | rfl := hx <;> decide
  refine ⟨fun j hj fl => f_of_rd (hc.rd _ ?_) fl, hc.sv, (hc.on _).trans ?_, ?_⟩
  · obtain rfl | rfl : j = 0 ∨ j = 1 := by omega
    all_goals rfl
  · obtain rfl | rfl : k = 0 ∨ k = 1 := by omega
    all_goals exact hp
  · clear hp
    obtain rfl | rfl : k = 0 ∨ k = 1 := by omega
    all_goals exact ⟨fb_fieldWrite rfl rfl (by decide) rfl s v, fb_fieldWrite rfl rfl (by decide) rfl s v⟩

theorem fb_ctrl_scUpdate (s : State) {k : Nat} (hk : k < 2) (fl : Fld) : s.scUpdate.fb (Rg.SC_CTRL k) fl = s.fb (Rg.SC_CTRL k) fl := by
  obtain rfl | rfl : k = 0 ∨ k = 1 := by omega
  all_goals exact fb_of_rd (rd_scUpdate_own s rfl (by decide) (by decide) (by decide)) fl

theorem fb_ctrl_scEnter (s : State) {k role : Nat} (hk : k < 2) (fl : Fld) : (s.scEnter k role).fb (Rg.SC_CTRL k) fl = s.fb (Rg.SC_CTRL k) fl := by
  obtain rfl | rfl : k = 0 ∨ k = 1 := by omega
  all_goals exact fb_of_rd (rd_scEnter s _ role (by decide)) fl

/-- A refused command of SC_CTRL: the flag, and everything else as it was. -/
theorem scRefused_shows (s : State) {k : Nat} (hp : s.pageOn (Pg.SC k / 0x1000) = true) :
    (∀ j, j < 2 → (s.setInt (Pg.SC k) Ib.SC_REFUSED).scUpdate.scRole j = s.scRole j) ∧ (s.setInt (Pg.SC k) Ib.SC_REFUSED).scUpdate.sv = s.sv ∧
      bit ((s.setInt (Pg.SC k) Ib.SC_REFUSED).scUpdate.rd (Pg.SC k + 0x010)) Ib.SC_REFUSED = true := by
  have hc : State.calm noReg s (s.setInt (Pg.SC k) Ib.SC_REFUSED) := (State.calm.refl _ s).setInt (fun _ hx => absurd hx Bool.false_ne_true) (sc_page k)
  refine ⟨fun j hj => (scRole_scUpdate _ hj).trans (f_of_rd (rd_setInt_own (scStat_own hj).1 (sc_page k)) _), (calm_scUpdate_rest _).sv.trans hc.sv,
    (calm_scUpdate_rest _).ints _ _ (sc_page k) (by decide) (setInt_bit s (Pg.SC k) _ (sc_page k) (by decide) ?_)⟩
  exact hp

theorem scCtrlWrite_hold {s : State} {r : Requester} {k v : Nat} (hk : k < 2) (hp : s.pageOn (Rg.SC_CTRL k / 0x1000) = true) (hv : bits v 29 3 = 1) :
    (s.scCtrlWrite r k v).scRole k = scHeld ∧ (s.scCtrlWrite r k v).fb (Rg.SC_CTRL k) Fd.SC_CTRL_HOLD = true ∧
      (s.scCtrlWrite r k v).fb (Rg.SC_CTRL k) Fd.SC_CTRL_AUTO_RESTART = bit v 0 := by
  obtain ⟨h29, h30, h31⟩ : bit v 29 = true ∧ bit v 30 = false ∧ bit v 31 = false := scCtrl_bits hv
  obtain ⟨-, -, -, hh, ha⟩ := scCtrl_written s hk v hp
  have heq : s.scCtrlWrite r k v = ((s.fieldWrite (Rg.SC_CTRL k) v).scEnter k scHeld).scUpdate := by
    simp [State.scCtrlWrite, h29, h30, h31]
  rw [heq]
  exact ⟨(scRole_scUpdate _ hk).trans (scRole_scEnter _ (by decide)), (fb_ctrl_scUpdate _ hk _).trans ((fb_ctrl_scEnter _ hk _).trans (hh.trans h29)),
    (fb_ctrl_scUpdate _ hk _).trans ((fb_ctrl_scEnter _ hk _).trans ha)⟩

theorem scCtrlWrite_release {s : State} {r : Requester} {k v : Nat} (hk : k < 2) (hp : s.pageOn (Rg.SC_CTRL k / 0x1000) = true) (hv : bits v 29 3 = 0) :
    (s.scCtrlWrite r k v).fb (Rg.SC_CTRL k) Fd.SC_CTRL_HOLD = false ∧ (s.scCtrlWrite r k v).fb (Rg.SC_CTRL k) Fd.SC_CTRL_AUTO_RESTART = bit v 0 ∧
      (s.scCtrlWrite r k v).scRole k = if s.scRole k = scHeld then scOff else s.scRole k := by
  obtain ⟨h29, h30, h31⟩ : bit v 29 = false ∧ bit v 30 = false ∧ bit v 31 = false := scCtrl_bits hv
  obtain ⟨hf, -, -, hh, ha⟩ := scCtrl_written s hk v hp
  have heq : s.scCtrlWrite r k v = (if s.scRole k = scHeld then (s.fieldWrite (Rg.SC_CTRL k) v).scEnter k scOff else s.fieldWrite (Rg.SC_CTRL k) v).scUpdate := by
    simp [State.scCtrlWrite, h29, h30, h31]
  rw [heq]
  split
  · exact ⟨(fb_ctrl_scUpdate _ hk _).trans ((fb_ctrl_scEnter _ hk _).trans (hh.trans h29)),
      (fb_ctrl_scUpdate _ hk _).trans ((fb_ctrl_scEnter _ hk _).trans ha), (scRole_scUpdate _ hk).trans (scRole_scEnter _ (by decide))⟩
  · exact ⟨(fb_ctrl_scUpdate _ hk _).trans (hh.trans h29), (fb_ctrl_scUpdate _ hk _).trans ha, (scRole_scUpdate _ hk).trans (hf k hk _)⟩

theorem scCtrlWrite_restart {s : State} {r : Requester} {k v : Nat} (hk : k < 2) (hv : bits v 29 3 = 4) (hr : reqNo r ≠ 2 + k)
    (h : s.scRole k ∈ [scFailed, scIsolated, scHeld]) : (s.scCtrlWrite r k v).scRole k = scOff := by
  obtain ⟨h29, h30, h31⟩ : bit v 29 = false ∧ bit v 30 = false ∧ bit v 31 = true := scCtrl_bits hv
  have hm : [scFailed, scIsolated, scHeld].contains (s.scRole k) = true := List.contains_iff_mem.2 h
  have heq : ∃ w : State, s.scCtrlWrite r k v = (w.scEnter k scOff).scUpdate := by
    refine ⟨if s.scRole k = scHeld then (s.fieldWrite (Rg.SC_CTRL k) v).scEnter k scOff else s.fieldWrite (Rg.SC_CTRL k) v, ?_⟩
    simp [State.scCtrlWrite, h29, h30, h31, hr, -List.contains_eq_mem, hm]
  obtain ⟨w, hw⟩ := heq
  rw [hw]
  exact (scRole_scUpdate _ hk).trans (scRole_scEnter _ (by decide))

theorem scCtrlWrite_restart_refused {s : State} {r : Requester} {k v : Nat} (hk : k < 2) (hp : s.pageOn (Rg.SC_CTRL k / 0x1000) = true) (hv : bits v 29 3 = 4)
    (h : s.scRole k ∈ [scOff, scBoot, scStandby, scActive]) :
    (s.scCtrlWrite r k v).scRole k = s.scRole k ∧ bit ((s.scCtrlWrite r k v).rd (Pg.SC k + 0x010)) Ib.SC_REFUSED = true := by
  obtain ⟨h29, h30, h31⟩ : bit v 29 = false ∧ bit v 30 = false ∧ bit v 31 = true := scCtrl_bits hv
  obtain ⟨hf, -, hon, -⟩ := scCtrl_written s hk v hp
  have hm : [scFailed, scIsolated, scHeld].contains (s.scRole k) = false ∧ s.scRole k ≠ scHeld := by
    generalize s.scRole k = x at h
    simp only [List.mem_cons, List.not_mem_nil, or_false] at h
    obtain rfl | rfl | rfl | rfl := h <;> decide
  have heq : s.scCtrlWrite r k v = ((s.fieldWrite (Rg.SC_CTRL k) v).setInt (Pg.SC k) Ib.SC_REFUSED).scUpdate := by
    simp [State.scCtrlWrite, h29, h30, h31, -List.contains_eq_mem, hm.1, hm.2]
  obtain ⟨h1, -, h2⟩ := scRefused_shows (s.fieldWrite (Rg.SC_CTRL k) v) hon
  rw [heq]
  exact ⟨(h1 k hk).trans (hf k hk _), h2⟩

theorem scCtrlWrite_hold_restart {s : State} {r : Requester} {k v : Nat} (hk : k < 2) (hp : s.pageOn (Rg.SC_CTRL k / 0x1000) = true) (hv : bits v 29 3 = 5) :
    (s.scCtrlWrite r k v).scRole k = scHeld ∧ bit ((s.scCtrlWrite r k v).rd (Pg.SC k + 0x010)) Ib.SC_REFUSED = true := by
  obtain ⟨h29, h30, h31⟩ : bit v 29 = true ∧ bit v 30 = false ∧ bit v 31 = true := scCtrl_bits hv
  obtain ⟨-, -, hon, -⟩ := scCtrl_written s hk v hp
  have heq : s.scCtrlWrite r k v = (((s.fieldWrite (Rg.SC_CTRL k) v).scEnter k scHeld).setInt (Pg.SC k) Ib.SC_REFUSED).scUpdate := by
    simp [State.scCtrlWrite, h29, h30, h31]
  obtain ⟨h1, -, h2⟩ := scRefused_shows ((s.fieldWrite (Rg.SC_CTRL k) v).scEnter k scHeld) ((pageOn_scEnter _ _ _ _).trans hon)
  rw [heq]
  exact ⟨(h1 k hk).trans (scRole_scEnter _ (by decide)), h2⟩

/-- A switchover that is accepted. -/
def State.swaps (s : State) (k : Nat) : State := { s with sv := { s.sv with swap := some k } }

theorem swaps_shows (s : State) (k : Nat) : (∀ x, (s.swaps k).rd x = s.rd x) ∧ (s.swaps k).sv.swap = some k := ⟨fun x => rd_sv s _ x, rfl⟩

theorem scCtrlWrite_switchover_eq {s : State} {r : Requester} {k v : Nat} (hk : k < 2) (hp : s.pageOn (Rg.SC_CTRL k / 0x1000) = true) (hv : bits v 29 3 = 2)
    (hh : s.scRole k ≠ scHeld) : s.scCtrlWrite r k v = (if reqNo r ≠ 3 - k ∧ s.scRole k = scActive ∧ s.scRole (1 - k) = scStandby ∧
      s.f (Rg.SC_STAT k) Fd.SC_STAT_MISS_RUN = 0 then (s.fieldWrite (Rg.SC_CTRL k) v).swaps k
      else (s.fieldWrite (Rg.SC_CTRL k) v).setInt (Pg.SC k) Ib.SC_REFUSED).scUpdate := by
  obtain ⟨h29, h30, h31⟩ : bit v 29 = false ∧ bit v 30 = true ∧ bit v 31 = false := scCtrl_bits hv
  obtain ⟨hf, -⟩ := scCtrl_written s hk v hp
  have h1 : (s.fieldWrite (Rg.SC_CTRL k) v).scRole k = s.scRole k := hf k hk _
  have h2 : (s.fieldWrite (Rg.SC_CTRL k) v).scRole (1 - k) = s.scRole (1 - k) := hf _ (by omega) _
  simp [State.scCtrlWrite, State.swaps, h29, h30, h31, hh, h1, h2, hf k hk, and_assoc]

theorem scCtrlWrite_switchover {s : State} {r : Requester} {k v : Nat} (hk : k < 2) (hp : s.pageOn (Rg.SC_CTRL k / 0x1000) = true) (hv : bits v 29 3 = 2)
    (hh : s.scRole k ≠ scHeld) :
    (s.scRole k = scActive → s.scRole (1 - k) = scStandby → s.f (Rg.SC_STAT k) Fd.SC_STAT_MISS_RUN = 0 → reqNo r ≠ 3 - k →
      (s.scCtrlWrite r k v).sv.swap = some k ∧ (s.scCtrlWrite r k v).scRole k = scActive ∧ (s.scCtrlWrite r k v).scRole (1 - k) = scStandby) ∧
    (s.scRole k ≠ scActive ∨ s.scRole (1 - k) ≠ scStandby ∨ s.f (Rg.SC_STAT k) Fd.SC_STAT_MISS_RUN ≠ 0 →
      (s.scCtrlWrite r k v).sv.swap = s.sv.swap ∧ (s.scCtrlWrite r k v).scRole k = s.scRole k ∧
        bit ((s.scCtrlWrite r k v).rd (Pg.SC k + 0x010)) Ib.SC_REFUSED = true) := by
  obtain ⟨hf, hsv, hon, -⟩ := scCtrl_written s hk v hp
  rw [scCtrlWrite_switchover_eq hk hp hv hh]
  refine ⟨fun h1 h2 h3 h4 => ?_, fun h => ?_⟩
  · rw [if_pos ⟨h4, h1, h2, h3⟩]
    obtain ⟨hr, hs⟩ := swaps_shows (s.fieldWrite (Rg.SC_CTRL k) v) k
    generalize (s.fieldWrite (Rg.SC_CTRL k) v).swaps k = u at *
    have hu : ∀ j, j < 2 → u.scUpdate.scRole j = s.scRole j := fun j hj => (scRole_scUpdate u hj).trans ((f_of_rd (hr _) _).trans (hf j hj _))
    refine ⟨?_, (hu k hk).trans h1, (hu _ (by omega)).trans h2⟩
    rw [(calm_scUpdate_rest u).sv]
    exact hs
  · rw [if_neg (by tauto)]
    obtain ⟨h1, h2, h3⟩ := scRefused_shows (s.fieldWrite (Rg.SC_CTRL k) v) hon
    exact ⟨by rw [h2, hsv], (h1 k hk).trans (hf k hk _), h3⟩

/-! ## The end of a split -/

/-- The hold that waits for a path is dropped. -/
def State.noHold (s : State) : State := { s with sv := { s.sv with hold := none } }

theorem splitEnd_idle {s : State} (h : s.pathUp = false ∨ s.split = false) : s.splitEnd = s := if_pos (by
  obtain h | h := h
  · simp [h]
  · simp [h])

theorem splitEnd_shows {s : State} (hp : s.pathUp = true) (hs : s.split = true) :
    s.splitEnd.scRole 0 = scFailed ∧ s.splitEnd.scRole 1 = scActive ∧ s.splitEnd.sv.hold = none := by
  have heq : s.splitEnd = (s.noHold.scFail 0 0).scUpdate := if_neg (by simp [hp, hs])
  have h1 : s.noHold.scRole 1 = scActive := by
    simp only [State.split, Bool.and_eq_true, beq_iff_eq] at hs
    exact hs.2
  have hh : s.noHold.sv.hold = none := rfl
  rw [heq]
  generalize s.noHold = u at *
  refine ⟨(scRole_scUpdate _ (by decide)).trans (scRole_scFail u (by decide)),
    (scRole_scUpdate _ (by decide)).trans ((f_scFail u (by decide) (by decide) (.inl (by decide))).trans h1), ?_⟩
  rw [(calm_scUpdate_rest _).sv, (calm_scFail_rest u 0 0).sv]
  obtain ⟨-, -, -, -, -, -, -, h, -⟩ := scEnter_rest u 0 scFailed
  exact h.trans hh

/-- Settles O54: each command is an entry into a role, a mark or a refusal, and the update of the modes at its end keeps the roles, the counts and the flags;
a takeover follows the path that joins the controllers or its absence. -/
theorem controllerRolesAndTakeover : Obligations.ControllerRolesAndTakeover := by
  unfold Obligations.ControllerRolesAndTakeover
  refine ⟨fun s k clk hk hp => ?_, fun s h => ?_, fun s d k hd hkd hk hc h0 h1 => ⟨fun h => ?_, fun ht hs hr => ⟨_, rfl, fun hp => ?_, fun hp h => ?_, fun hp h => ?_⟩⟩,
    fun s a k v hk hw => ?_, fun s => ⟨fun h => congrArg Host.Outcome.next (splitEnd_idle h), fun h1 h2 => ⟨_, rfl, splitEnd_shows h1 h2⟩⟩⟩
  · have hx : exec (.controllerFault k clk) s = .next (s.scFault k clk) := congrArg (fun j => Host.Outcome.next (s.scFault j clk)) (Nat.mod_eq_of_lt hk)
    rw [hx]
    exact ⟨fun h => by rw [scFault_ignored h], fun h => ⟨_, rfl, scFault_shows hk hp h⟩⟩
  · refine congrArg Host.Outcome.next ?_
    rw [State.takeover, h]
  · subst hkd
    exact congrArg Host.Outcome.next (takeover_waits hd h)
  · exact takeover_path hk hc hd hkd ht hs hr h0 h1 hp
  · subst h
    rw [takeover_eq hd ht hs (by rw [hkd]; exact hr), hkd, if_pos ⟨rfl, hp⟩]
    exact (isolate_shows s).1
  · subst h
    exact takeover_far hd hkd ht hs hr hp
  · have hmod : k % 2 = k := Nat.mod_eq_of_lt hk
    have hp := mayWrite_pageOn hw
    have hx : s.onScCtrl a (k % 2) v.toNat = s.scCtrlWrite a.req k v.toNat := by
      rw [hmod, State.onScCtrl, onWrite_of s a _ _ hw]
    have hxh : exec (.hold a k v) s = .next (s.scCtrlWrite a.req k v.toNat) := congrArg Host.Outcome.next hx
    have hxr : exec (.restart a k v) s = .next (s.scCtrlWrite a.req k v.toNat) := congrArg Host.Outcome.next hx
    have hxs : exec (.switchover a k v) s = .next (s.scCtrlWrite a.req k v.toNat) := congrArg Host.Outcome.next hx
    rw [hxh, hxr, hxs]
    refine ⟨fun h => ⟨_, rfl, scCtrlWrite_hold hk hp h⟩, fun h => ⟨_, rfl, scCtrlWrite_release hk hp h⟩,
      fun h hr => ⟨fun hm => ⟨_, rfl, scCtrlWrite_restart hk h hr hm⟩, fun hm => ⟨_, rfl, scCtrlWrite_restart_refused hk hp h hm⟩⟩,
      fun h => ⟨_, rfl, scCtrlWrite_hold_restart hk hp h⟩, fun h hh => ⟨fun h1 h2 h3 h4 => ⟨_, rfl, ?_⟩, fun h1 => ⟨_, rfl, ?_⟩⟩⟩
    · exact (scCtrlWrite_switchover hk hp h hh).1 h1 h2 h3 h4
    · exact (scCtrlWrite_switchover hk hp h hh).2 h1

end Sys2Proof.Machine
end

section
/-! SUPPORT. eMRAM words read and written (R298, R353), and the results of UPD commands: what they leave. -/
namespace Sys2Proof.Machine

/-- The registers that a read of eMRAM words may change: those of page EMRAM and of the T-die's RAS page. -/
def emReg (x : Nat) : Bool := x / 0x1000 == Pg.EMRAM / 0x1000 || x / 0x1000 == Pg.RAS 1 / 0x1000

/-- The registers that a write of eMRAM words changes: PG_FLIP and the count of words. -/
def emPutReg (x : Nat) : Bool := x == Pg.EMRAM + 0x03C || x == Rg.EMRAM_WRITE_CNT_LO || x == Rg.EMRAM_WRITE_CNT_LO + 4

theorem emReg_ne {x a : Nat} (h : emReg x = false) (ha : emReg a = true) : x ≠ a := fun e => by rw [e, ha] at h; cases h

theorem emPutReg_not {x : Nat} (h : emPutReg x = false) : x ≠ Pg.EMRAM + 0x03C ∧ x ≠ Rg.EMRAM_WRITE_CNT_LO ∧ x ≠ Rg.EMRAM_WRITE_CNT_LO + 4 := by
  simp only [emPutReg, Bool.or_eq_false_iff, beq_eq_false_iff_ne, and_assoc] at h
  exact h

theorem emReg_put {x : Nat} (h : emReg x = false) : emPutReg x = false := by
  have hne := fun a => emReg_ne (a := a) h
  simp only [emPutReg, Bool.or_eq_false_iff, beq_eq_false_iff_ne]
  exact ⟨⟨hne _ (by decide), hne _ (by decide)⟩, hne _ (by decide)⟩

namespace State.calm
variable {P : Nat → Bool} {s t : State}

theorem setMark (h : State.calm P s t) {pg m a : Nat} {e : WordErr} : State.calm P s (t.setMark pg m a e) := h.trans ofParts

theorem draw (h : State.calm P s t) : State.calm P s t.draw := h.trans ofParts

theorem wroteWord (h : State.calm P s t) {pg m a : Nat} (hP : ∀ x, P x = true → x ≠ pg + 0x03C) (hg : pg % 0x1000 = 0) (hd : notDom (pg + 0x03C) = true) :
    State.calm P s (t.wroteWord pg m a) :=
  .ite (h.setMark.draw.wr hP (by omega) hd) h.setMark

theorem wroteWords (h : State.calm P s t) {pg m a n : Nat} (hP : ∀ x, P x = true → x ≠ pg + 0x03C) (hg : pg % 0x1000 = 0)
    (hd : notDom (pg + 0x03C) = true) : State.calm P s (t.wroteWords pg m a n) := by
  induction n generalizing t a with
  | zero => exact h
  | succ n ih => exact ih (h.wroteWord hP hg hd)

theorem emPut (h : State.calm P s t) {a n : Nat} (hP : ∀ x, P x = true → ownReg x = true ∧ emPutReg x = false) : State.calm P s (t.emPut a n) :=
  (h.wroteWords (fun x hx => (emPutReg_not (hP x hx).2).1) (by decide) rfl).bump64
    (fun x hx => ⟨(hP x hx).1, (emPutReg_not (hP x hx).2).2⟩) (by decide) (by decide) rfl rfl

section Reads
variable (hP : ∀ x, P x = true → ownReg x = true ∧ emReg x = false)
include hP

theorem captureEm (h : State.calm P s t) {kind mem addr sym pat syn half : Nat} {sinter ce : Bool} :
    State.calm P s (t.captureErr Pg.EMRAM kind mem addr sinter sym pat syn half ce) := by
  have hi : ∀ {u : State} {b : Nat}, State.calm P s u → State.calm P s (u.setInt Pg.EMRAM b) := fun hu => hu.setInt (fun x hx => (hP x hx).1) (by decide)
  have hfill : ∀ a b c, State.calm P s (((t.wr (Pg.EMRAM + 0x020) a).wr (Pg.EMRAM + 0x024) b).wr (Pg.EMRAM + 0x028) c) := fun a b c =>
    ((h.wr (fun x hx => emReg_ne (hP x hx).2 (by decide)) (by decide) rfl).wr (fun x hx => emReg_ne (hP x hx).2 (by decide)) (by decide) rfl).wr
      (fun x hx => emReg_ne (hP x hx).2 (by decide)) (by decide) rfl
  exact .ite (hi (.ite h (hfill _ _ _))) (.ite (hi (.ite h (hfill _ _ _))) (.ite h (hfill _ _ _)))

theorem ceCountEm (h : State.calm P s t) : State.calm P s (t.ceCount 1 14) := by
  have hb : State.calm P s (State.bump { t with ra := { t.ra with ceSec := sset 0 t.ra.ceSec (16 * 1 + 14) (sget 0 t.ra.ceSec (16 * 1 + 14) + 1) } } (Rg.RAS_CE_CNT 1 14)) :=
    (h.trans ofParts).bump (fun x hx => ⟨(hP x hx).1, emReg_ne (hP x hx).2 (by decide)⟩) (by decide) (by decide) rfl
  exact .ite ((hb.wr (fun x hx => emReg_ne (hP x hx).2 (by decide)) (by decide) rfl).setInt (fun x hx => (hP x hx).1) (by decide)) hb

theorem logEm (h : State.calm P s t) {pg code data : Nat} : State.calm P s (t.log pg code data) :=
  h.log fun x hx => ⟨(hP x hx).1, fun e => by
    have := (hP x hx).2
    simp only [emReg, e] at this
    exact absurd this (by decide)⟩

theorem meetEm (h : State.calm P s t) {mem w : Nat} {e : WordErr} {sinter : Bool} : State.calm P s (t.meetErr Pg.EMRAM 14 mem w e sinter) := by
  have hb : ∀ a, emReg a = true → 0x100 ≤ a % 0x1000 → a % 0x1000 < 0x800 → notDom a = true → State.calm P s (t.bump a) := fun a ha h1 h2 hd =>
    h.bump (fun x hx => ⟨(hP x hx).1, emReg_ne (hP x hx).2 ha⟩) h1 h2 hd
  refine .ite h ?_
  rw [if_neg (show ¬(Pg.EMRAM = Pg.EXM ∧ mem < 64) from fun hx => absurd hx.1 (by decide))]
  refine .ite ((h.ceCountEm hP).captureEm hP) (.ite ?_ ?_)
  · have hc := (hb (Rg.RAS_UE_CNT 1 14) (by decide) (by decide) (by decide) rfl)
    exact .ite (hc.captureEm hP) (((hc.captureEm hP).trans ofParts).logEm hP)
  · exact (hb (Rg.RAS_POISON_READ_CNT 1 14) (by decide) (by decide) (by decide) rfl).captureEm hP

theorem emGet (h : State.calm P s t) (a n : Nat) : State.calm P s (t.emGet a n).1 := by
  have hf : ∀ (l : List Nat) (x : State × Bool), State.calm P s x.1 → State.calm P s (l.foldl (fun (a : State × Bool) (w : Nat) =>
      let r := a.1.readWord Pg.EMRAM 14 0 w
      if r.2 then (r.1, a.2) else (r.1.setInt Pg.EMRAM Ib.EMRAM_UNCORR, false)) x).1 := fun l => by
    induction l with
    | nil => exact fun x hx => hx
    | cons w l ih =>
      intro x hx
      refine ih _ ?_
      have hm : State.calm P s (x.1.readWord Pg.EMRAM 14 0 w).1 := hx.meetEm hP
      simp only []
      split
      · exact hm
      · exact hm.setInt (fun x hx => (hP x hx).1) (by decide)
  exact hf _ _ h

end Reads
end State.calm

/-- A read where no eMRAM word holds an error. -/
theorem emGet_clean {s : State} (h : s.markedIn Pg.EMRAM 0 = []) (a n : Nat) : s.emGet a n = (s, true) := by
  rw [State.emGet, h]
  rfl

end Sys2Proof.Machine
end

section
/-! SUPPORT. Images: the staging lock, VERIFY and CLEAR, the checks of a staged image, floors, REQUIRE_CUST and posted records (R343 to R348, R354). -/
namespace Sys2Proof.Machine

/-! ## The staging lock -/

/-- The lock holder's activity at a clock. -/
def State.lockedAt (s : State) (n : Nat) : State := { s with up := { s.up with lockAt := n } }

theorem rd_lockedAt (s : State) (n x : Nat) : (s.lockedAt n).rd x = s.rd x := rfl

theorem setF_lockedAt (s : State) (a v n : Nat) (fl : Fld) : (s.setF a fl v).lockedAt n = (s.lockedAt n).setF a fl v := rfl

/-- The result field of a port in UPD_LOCK_STAT. -/
def lockRes (p : Nat) : Fld := if p = 0 then Fd.UPD_LOCK_STAT_RES0 else Fd.UPD_LOCK_STAT_RES1

theorem portOf_lt {r : Requester} {p : Nat} (h : portOf r = some p) : p < 2 := by
  cases r
  case pcie0 => exact Option.some.inj h ▸ by decide
  case pcie1 => exact Option.some.inj h ▸ by decide
  case sc0 => cases h
  case sc1 => cases h

theorem lockRes_place (p : Nat) : (lockRes p).lo + (lockRes p).w ≤ 30 := by
  unfold lockRes
  split <;> decide

theorem f_setF_lockRes (s : State) (p x : Nat) (hx : x < 2) : (s.setF Rg.UPD_LOCK_STAT (lockRes p) x).f Rg.UPD_LOCK_STAT (lockRes p) = x := by
  have h := lockRes_place p
  rw [f_setF_same _ _ _ _ (by omega)]
  refine Nat.mod_eq_of_lt ?_
  unfold lockRes
  split <;> exact Nat.lt_of_lt_of_le hx (by decide)

theorem fb_setF_lockRes (s : State) (p x : Nat) {fl : Fld} (h : 30 ≤ fl.lo) (h32 : fl.lo + fl.w ≤ 32) :
    (s.setF Rg.UPD_LOCK_STAT (lockRes p) x).f Rg.UPD_LOCK_STAT fl = s.f Rg.UPD_LOCK_STAT fl :=
  f_setF_disjoint _ _ _ _ _ h32 (.inl ((lockRes_place p).trans h))

theorem holdsLock_of_port {s : State} {r : Requester} {p : Nat} (h : portOf r = some p) :
    s.holdsLock r = (s.fb Rg.UPD_LOCK_STAT Fd.UPD_LOCK_STAT_HELD && s.f Rg.UPD_LOCK_STAT Fd.UPD_LOCK_STAT_OWNER == p) := by
  rw [State.holdsLock, h]

theorem holdsLock_congr {s t : State} (hh : t.f Rg.UPD_LOCK_STAT Fd.UPD_LOCK_STAT_HELD = s.f Rg.UPD_LOCK_STAT Fd.UPD_LOCK_STAT_HELD)
    (ho : t.f Rg.UPD_LOCK_STAT Fd.UPD_LOCK_STAT_OWNER = s.f Rg.UPD_LOCK_STAT Fd.UPD_LOCK_STAT_OWNER) (r : Requester) : t.holdsLock r = s.holdsLock r := by
  rw [State.holdsLock, State.holdsLock, State.fb, State.fb, hh, ho]

theorem holdsLock_of_rd {s t : State} (h : t.rd Rg.UPD_LOCK_STAT = s.rd Rg.UPD_LOCK_STAT) (r : Requester) : t.holdsLock r = s.holdsLock r :=
  holdsLock_congr (f_of_rd h _) (f_of_rd h _) r

theorem holdsLock_held {s : State} {r : Requester} (h : s.holdsLock r = true) : s.fb Rg.UPD_LOCK_STAT Fd.UPD_LOCK_STAT_HELD = true := by
  unfold State.holdsLock at h
  split at h
  · exact (Bool.and_eq_true _ _ ▸ h).1
  · cases h

/-- The lock given to a port, before the change is flagged. -/
def State.lockGiven (s : State) (p n : Nat) : State :=
  (((s.setF Rg.UPD_LOCK_STAT Fd.UPD_LOCK_STAT_HELD 1).setF Rg.UPD_LOCK_STAT Fd.UPD_LOCK_STAT_OWNER p).setF Rg.UPD_LOCK_STAT (lockRes p) 0).lockedAt n

theorem lockGiven_shows (s : State) {p n : Nat} (hp : p < 2) : (s.lockGiven p n).fb Rg.UPD_LOCK_STAT Fd.UPD_LOCK_STAT_HELD = true ∧
    (s.lockGiven p n).f Rg.UPD_LOCK_STAT Fd.UPD_LOCK_STAT_OWNER = p ∧ (s.lockGiven p n).f Rg.UPD_LOCK_STAT (lockRes p) = 0 ∧
    (s.lockGiven p n).up.lockAt = n ∧ State.onlyRegs (fun x => x == Rg.UPD_LOCK_STAT || intReg Pg.UPD x) (s.lockedAt n) (s.lockGiven p n) ∧
    ∀ g, (s.lockGiven p n).pageOn g = s.pageOn g := by
  have heq : s.lockGiven p n = (((s.lockedAt n).setF Rg.UPD_LOCK_STAT Fd.UPD_LOCK_STAT_HELD 1).setF Rg.UPD_LOCK_STAT Fd.UPD_LOCK_STAT_OWNER p).setF
      Rg.UPD_LOCK_STAT (lockRes p) 0 := by
    rw [State.lockGiven, setF_lockedAt, setF_lockedAt, setF_lockedAt]
  have hup : (s.lockedAt n).up.lockAt = n := rfl
  have hon : ∀ g, (s.lockedAt n).pageOn g = s.pageOn g := fun _ => rfl
  rw [heq]
  generalize s.lockedAt n = u at *
  refine ⟨?_, ?_, f_setF_lockRes _ p 0 (by decide), ?_, (((onlyRegs_refl _ u).setF rfl).setF rfl).setF rfl, fun g => ?_⟩
  · rw [State.fb, fb_setF_lockRes _ _ _ (by decide) (by decide), f_setF_disjoint _ _ _ _ _ (by decide) (by decide), f_setF_same _ _ _ _ (by decide)]
    rfl
  · rw [fb_setF_lockRes _ _ _ (by decide) (by decide), f_setF_same _ _ _ _ (by decide)]
    exact Nat.mod_eq_of_lt hp
  · rw [State.setF_up, State.setF_up, State.setF_up, hup]
  · rw [pageOn_setF_of _ _ _ _ _ (by decide) (by decide), pageOn_setF_of _ _ _ _ _ (by decide) (by decide),
      pageOn_setF_of _ _ _ _ _ (by decide) (by decide), hon]

theorem lockReq_free {s : State} {r : Requester} {p clk : Nat} (hr : portOf r = some p) (h : s.fb Rg.UPD_LOCK_STAT Fd.UPD_LOCK_STAT_HELD = false) :
    s.lockReq r clk = (s.lockGiven p (s.at clk)).setInt Pg.UPD Ib.UPD_LOCK_CHANGE := by
  have hh : s.holdsLock r = false := by rw [holdsLock_of_port hr, h, Bool.false_and]
  have hat : ∀ u : State, u.tk = s.tk → u.at clk = s.at clk := fun u hu => by rw [State.at, State.at, hu]
  unfold State.lockReq State.lockGiven State.lockedAt lockRes
  rw [hr]
  simp only [hh, h]
  rw [if_neg (by decide), if_neg (by decide), hat]
  rw [State.setF_tk, State.setF_tk, State.setF_tk]

theorem lockReq_free_shows {s : State} {r : Requester} {p clk : Nat} (hr : portOf r = some p) (h : s.fb Rg.UPD_LOCK_STAT Fd.UPD_LOCK_STAT_HELD = false)
    (hp : s.pageOn (Pg.UPD / 0x1000) = true) : (s.lockReq r clk).holdsLock r = true ∧ (s.lockReq r clk).f Rg.UPD_LOCK_STAT (lockRes p) = 0 ∧
      (s.lockReq r clk).up.lockAt = s.at clk ∧ bit ((s.lockReq r clk).rd (Pg.UPD + 0x010)) Ib.UPD_LOCK_CHANGE = true ∧
      State.onlyRegs (fun x => x == Rg.UPD_LOCK_STAT || intReg Pg.UPD x) { s with up := (s.lockReq r clk).up } (s.lockReq r clk) := by
  rw [lockReq_free hr h]
  obtain ⟨g1, g2, g3, g4, g5, g6⟩ := lockGiven_shows s (p := p) (n := s.at clk) (portOf_lt hr)
  have gup : (s.lockGiven p (s.at clk)).up = (s.lockedAt (s.at clk)).up := onlyRegs_proj g5 State.up
  have g5' : State.onlyRegs (fun x => x == Rg.UPD_LOCK_STAT || intReg Pg.UPD x) { s with up := (s.lockGiven p (s.at clk)).up } (s.lockGiven p (s.at clk)) := by
    rw [gup]
    exact g5
  generalize s.lockGiven p (s.at clk) = u at *
  have hi := onlyRegs_setInt u Pg.UPD Ib.UPD_LOCK_CHANGE
  have hst : (u.setInt Pg.UPD Ib.UPD_LOCK_CHANGE).rd Rg.UPD_LOCK_STAT = u.rd Rg.UPD_LOCK_STAT := rd_setInt_own rfl (by decide)
  refine ⟨?_, (f_of_rd hst _).trans g3, (congrArg UpdSt.lockAt (onlyRegs_proj hi State.up)).trans g4,
    setInt_bit u Pg.UPD _ (by decide) (by decide) ((g6 _).trans hp),
    State.onlyRegs.after (K := fun x => { s with up := x.up }) g5' (onlyRegs_mono hi fun x hx => (Bool.or_eq_false_iff.1 hx).2)⟩
  rw [holdsLock_of_rd hst, holdsLock_of_port hr, g1, g2]
  simp

theorem lockReq_held {s : State} {r : Requester} {p clk : Nat} (hr : portOf r = some p) (h : s.fb Rg.UPD_LOCK_STAT Fd.UPD_LOCK_STAT_HELD = true) :
    s.lockReq r clk = s.setF Rg.UPD_LOCK_STAT (lockRes p) (if s.f Rg.UPD_LOCK_STAT Fd.UPD_LOCK_STAT_OWNER = p then 0 else 1) := by
  have hh : s.holdsLock r = (s.f Rg.UPD_LOCK_STAT Fd.UPD_LOCK_STAT_OWNER == p) := by rw [holdsLock_of_port hr, h, Bool.true_and]
  unfold State.lockReq
  rw [hr]
  simp only [hh, h, beq_iff_eq]
  split <;> rfl

theorem lockReq_held_shows {s : State} {r : Requester} {p clk : Nat} (hr : portOf r = some p) (h : s.fb Rg.UPD_LOCK_STAT Fd.UPD_LOCK_STAT_HELD = true) :
    (s.lockReq r clk).f Rg.UPD_LOCK_STAT (lockRes p) = (if s.f Rg.UPD_LOCK_STAT Fd.UPD_LOCK_STAT_OWNER = p then 0 else 1) ∧
      (s.lockReq r clk).holdsLock r = s.holdsLock r ∧ State.onlyRegs (fun x => x == Rg.UPD_LOCK_STAT) s (s.lockReq r clk) := by
  rw [lockReq_held hr h]
  refine ⟨f_setF_lockRes _ _ _ ?_, holdsLock_congr (fb_setF_lockRes _ _ _ (by decide) (by decide)) (fb_setF_lockRes _ _ _ (by decide) (by decide)) r,
    onlyRegs_setF _ _ _ _ rfl⟩
  split <;> decide

theorem lockFree_idle {s : State} (h : s.fb Rg.UPD_LOCK_STAT Fd.UPD_LOCK_STAT_HELD = false) : s.lockFree = s := if_neg (by rw [h]; decide)

theorem lockFree_shows {s : State} (h : s.fb Rg.UPD_LOCK_STAT Fd.UPD_LOCK_STAT_HELD = true) (hp : s.pageOn (Pg.UPD / 0x1000) = true) :
    s.lockFree.fb Rg.UPD_LOCK_STAT Fd.UPD_LOCK_STAT_HELD = false ∧ bit (s.lockFree.rd (Pg.UPD + 0x010)) Ib.UPD_LOCK_CHANGE = true ∧
      State.onlyRegs (fun x => x == Rg.UPD_LOCK_STAT || intReg Pg.UPD x) s s.lockFree := by
  rw [State.lockFree, if_pos h]
  refine ⟨(fb_of_rd (rd_setInt_own rfl (by decide)) _).trans (fb_setF_zero _ _ _ (by decide) rfl),
    setInt_bit _ Pg.UPD _ (by decide) (by decide) ((pageOn_setF_of _ _ _ _ _ (by decide) (by decide)).trans hp),
    ((onlyRegs_refl _ s).setF rfl).setInt fun x hx => (Bool.or_eq_false_iff.1 hx).2⟩

/-! ## Commands of UPD_CMD -/

theorem updIssued_eq (s : State) (a : Acc) : ∃ n, s.updIssued a = (s.lockedAt n).setF Rg.UPD_STAT Fd.UPD_STAT_REQUESTER (reqNo a.req) ∧
    (s.holdsLock a.req = false → n = s.up.lockAt) := by
  by_cases h : s.holdsLock a.req = true
  · exact ⟨s.at a.clk, by rw [State.updIssued, State.lockTouch, if_pos h]; rfl, fun hn => by rw [h] at hn; cases hn⟩
  · exact ⟨s.up.lockAt, by rw [State.updIssued, State.lockTouch, if_neg h]; rfl, fun _ => rfl⟩

theorem updIssued_shows (s : State) (a : Acc) : (s.updIssued a).f Rg.UPD_STAT Fd.UPD_STAT_REQUESTER = reqNo a.req ∧
    (∀ fl : Fld, fl.lo + fl.w ≤ 32 → (24 ≤ fl.lo ∨ fl.lo + fl.w ≤ 22) → (s.updIssued a).f Rg.UPD_STAT fl = s.f Rg.UPD_STAT fl) ∧
    (∀ x, x ≠ Rg.UPD_STAT → (s.updIssued a).rd x = s.rd x) ∧ (∀ g, (s.updIssued a).pageOn g = s.pageOn g) ∧
    State.onlyRegs (fun x => x == Rg.UPD_STAT) { s with up := (s.updIssued a).up } (s.updIssued a) := by
  obtain ⟨n, hn, -⟩ := updIssued_eq s a
  have hup : (s.updIssued a).up = (s.lockedAt n).up := by rw [hn, State.setF_up]
  have hs : ({ s with up := (s.lockedAt n).up } : State) = s.lockedAt n := rfl
  have hrd : ∀ x, (s.lockedAt n).rd x = s.rd x := fun x => rd_lockedAt s n x
  have hon : ∀ g, (s.lockedAt n).pageOn g = s.pageOn g := fun _ => rfl
  rw [hup, hs, hn]
  generalize s.lockedAt n = u at *
  refine ⟨?_, fun fl h32 hd => ?_, fun x hx => (rd_setF_other _ _ _ _ _ hx).trans (hrd x), fun g => ?_, (onlyRegs_refl _ u).setF rfl⟩
  · rw [f_setF_same _ _ _ _ (by decide)]
    refine Nat.mod_eq_of_lt ?_
    cases a.req <;> decide
  · refine (f_setF_disjoint _ _ _ _ _ h32 ?_).trans (f_of_rd (hrd _) _)
    show 22 + 2 ≤ _ ∨ _ ≤ 22
    omega
  · exact (pageOn_setF_of _ _ _ _ _ (by decide) (by decide)).trans (hon g)

theorem updResult_rd (s : State) (c : Nat) {x : Nat} (ho : ownReg x = true) (hx : x ≠ Rg.UPD_STAT) (hx2 : x ≠ Rg.UPD_REFUSE_CNT) :
    (s.updResult c).rd x = s.rd x :=
  (rd_bumpIf_own ho (by decide) hx2).trans (rd_setF_other _ _ _ _ _ hx)

/-- UPD_STAT after a result. -/
theorem updResult_stat (s : State) (c : Nat) : (s.updResult c).rd Rg.UPD_STAT = (s.setF Rg.UPD_STAT Fd.UPD_STAT_RESULT c).rd Rg.UPD_STAT :=
  rd_bumpIf_own rfl (by decide) (by decide)

theorem updResult_calm {P : Nat → Bool} (s : State) (c : Nat) (hP : ∀ x, P x = true → ownReg x = true ∧ x ≠ Rg.UPD_STAT ∧ x ≠ Rg.UPD_REFUSE_CNT) :
    State.calm P s (s.updResult c) :=
  ((State.calm.refl P s).setF (fun x hx => (hP x hx).2.1) (by decide) rfl).bumpIf (fun x hx => ⟨(hP x hx).1, (hP x hx).2.2⟩) (by decide) (by decide) rfl

theorem updResult_shows (s : State) {c : Nat} (hc : c < 256) : (s.updResult c).f Rg.UPD_STAT Fd.UPD_STAT_RESULT = c ∧
    (∀ fl : Fld, fl.lo + fl.w ≤ 32 → 8 ≤ fl.lo → (s.updResult c).f Rg.UPD_STAT fl = s.f Rg.UPD_STAT fl) ∧
    (c ≠ upOk → s.pageOn (Pg.UPD / 0x1000) = true → (s.updResult c).rd Rg.UPD_REFUSE_CNT = (s.rd Rg.UPD_REFUSE_CNT + 1) % 2 ^ 32) := by
  refine ⟨?_, fun fl h32 hlo => ?_, fun hne hp => ?_⟩
  · rw [f_of_rd (updResult_stat s c), f_setF_same _ _ _ _ (by decide)]
    exact Nat.mod_eq_of_lt hc
  · rw [f_of_rd (updResult_stat s c), f_setF_disjoint _ _ _ _ _ h32 (.inl (show 0 + 8 ≤ fl.lo from hlo))]
  · rw [State.updResult, State.bumpIf, if_pos (bne_iff_ne.2 hne), bump_rd_own _ Rg.UPD_REFUSE_CNT 1 rfl (by decide) (by decide)
      ((pageOn_setF_of s Rg.UPD_STAT _ _ _ (by decide) (by decide)).trans hp), rd_setF_other _ _ _ _ _ (by decide)]

/-- A refusal at once: RESULT, the count and the flag; the rest of UPD_STAT stays. -/
theorem updRefuse_shows (s : State) {c : Nat} (hc : c < 256) (hne : c ≠ upOk) (hp : s.pageOn (Pg.UPD / 0x1000) = true) :
    (s.updRefuse c).f Rg.UPD_STAT Fd.UPD_STAT_RESULT = c ∧
    (∀ fl : Fld, fl.lo + fl.w ≤ 32 → 8 ≤ fl.lo → (s.updRefuse c).f Rg.UPD_STAT fl = s.f Rg.UPD_STAT fl) ∧
    (s.updRefuse c).rd Rg.UPD_REFUSE_CNT = (s.rd Rg.UPD_REFUSE_CNT + 1) % 2 ^ 32 ∧ bit ((s.updRefuse c).rd (Pg.UPD + 0x010)) Ib.UPD_REFUSED = true ∧
    (s.updRefuse c).up = s.up := by
  obtain ⟨h1, h2, h3⟩ := updResult_shows s hc
  have hq := updResult_calm (P := noReg) s c fun _ hx => absurd hx Bool.false_ne_true
  have hi : ∀ x, ownReg x = true → (s.updRefuse c).rd x = (s.updResult c).rd x := fun x hx => rd_setInt_own hx (by decide)
  exact ⟨(f_of_rd (hi _ rfl) _).trans h1, fun fl h32 hlo => (f_of_rd (hi _ rfl) _).trans (h2 fl h32 hlo), (hi _ rfl).trans (h3 hne hp),
    setInt_bit _ Pg.UPD _ (by decide) (by decide) ((hq.on _).trans hp), (onlyRegs_proj (onlyRegs_setInt _ _ _) State.up).trans hq.up⟩

theorem updRefuse_calm {P : Nat → Bool} (s : State) (c : Nat) (hP : ∀ x, P x = true → ownReg x = true ∧ x ≠ Rg.UPD_STAT ∧ x ≠ Rg.UPD_REFUSE_CNT) :
    State.calm P s (s.updRefuse c) := (updResult_calm s c hP).setInt (fun x hx => (hP x hx).1) (by decide)

theorem noLock_shows {s : State} {a : Acc} (hp : s.pageOn (Pg.UPD / 0x1000) = true) :
    ((s.updIssued a).updRefuse upNoLock).f Rg.UPD_STAT Fd.UPD_STAT_RESULT = upNoLock ∧ ((s.updIssued a).updRefuse upNoLock).updSlot = s.updSlot ∧
      ((s.updIssued a).updRefuse upNoLock).rd Rg.UPD_REFUSE_CNT = (s.rd Rg.UPD_REFUSE_CNT + 1) % 2 ^ 32 ∧
      bit (((s.updIssued a).updRefuse upNoLock).rd (Pg.UPD + 0x010)) Ib.UPD_REFUSED = true := by
  obtain ⟨-, h2, h3, h4, -⟩ := updIssued_shows s a
  obtain ⟨r1, r2, r3, r4, -⟩ := updRefuse_shows (s.updIssued a) (c := upNoLock) (by decide) (by decide) ((h4 _).trans hp)
  exact ⟨r1, (r2 _ (by decide) (by decide)).trans (h2 _ (by decide) (.inl (by decide))), r3.trans (by rw [h3 _ (by decide)]), r4⟩

theorem issued_holds (s : State) (a : Acc) : (s.updIssued a).holdsLock a.req = s.holdsLock a.req :=
  holdsLock_of_rd ((updIssued_shows s a).2.2.1 _ (by decide)) _

theorem verify_noLock {s : State} {a : Acc} (h : s.holdsLock a.req = false) :
    s.verify a = (s.updIssued a).updRefuse upNoLock ∧ s.clearStage a = (s.updIssued a).updRefuse upNoLock := by
  have hh := (issued_holds s a).trans h
  exact ⟨if_pos (by rw [hh]; rfl), if_pos (by rw [hh]; rfl)⟩

theorem clear_shows {s : State} {a : Acc} (h : s.holdsLock a.req = true) : (s.clearStage a).updSlot = slEmpty ∧
    (s.clearStage a).f Rg.UPD_STAT Fd.UPD_STAT_RESULT = upOk ∧
    State.onlyRegs (fun x => x == Rg.UPD_STAT) { s with up := (s.clearStage a).up } (s.clearStage a) := by
  have heq : s.clearStage a = ((s.updIssued a).setF Rg.UPD_STAT Fd.UPD_STAT_RESULT upOk).setSlot slEmpty := if_neg (by rw [issued_holds, h]; decide)
  obtain ⟨-, -, -, -, ho⟩ := updIssued_shows s a
  rw [heq]
  generalize s.updIssued a = u at *
  refine ⟨f_setF_same _ _ _ _ (by decide), ?_, State.onlyRegs.after (K := fun x => { s with up := x.up }) ho
    (((onlyRegs_refl _ u).setF rfl).setF rfl)⟩
  rw [State.setSlot, f_setF_disjoint _ _ _ _ _ (by decide) (by decide), f_setF_same _ _ _ _ (by decide)]
  rfl

theorem verify_shows {s : State} {a : Acc} (h : s.holdsLock a.req = true) (hb : s.fb Rg.UPD_STAT Fd.UPD_STAT_BUSY = false) (hv : s.updSlot ≠ slVerifying)
    (hp : s.pageOn (Pg.UPD / 0x1000) = true) : (s.verify a).f Rg.UPD_STAT Fd.UPD_STAT_REQUESTER = reqNo a.req ∧
      (s.updSlot ≠ slEmpty → (s.verify a).updSlot = slVerifying ∧ State.onlyRegs (fun x => x == Rg.UPD_STAT) { s with up := (s.verify a).up } (s.verify a)) ∧
      (s.updSlot = slEmpty → (s.verify a).updSlot = slEmpty ∧ (s.verify a).f Rg.UPD_STAT Fd.UPD_STAT_RESULT = upBadHeader ∧
        bit ((s.verify a).rd (Pg.UPD + 0x010)) Ib.UPD_VERIFY_DONE = true) := by
  obtain ⟨h1, h2, -, h4, ho⟩ := updIssued_shows s a
  have hslot : (s.updIssued a).updSlot = s.updSlot := h2 _ (by decide) (.inl (by decide))
  have hbusy : (s.updIssued a).fb Rg.UPD_STAT Fd.UPD_STAT_BUSY = false := (congrArg (· == 1) (h2 Fd.UPD_STAT_BUSY (by decide) (.inl (by decide)))).trans hb
  have heq : s.verify a = if s.updSlot = slEmpty then ((s.updIssued a).updRefuse upBadHeader).setInt Pg.UPD Ib.UPD_VERIFY_DONE
      else (s.updIssued a).setSlot slVerifying := by
    unfold State.verify
    simp only [issued_holds, h, hslot, hbusy]
    rw [if_neg (by decide), if_neg (by simp [hv])]
  have hon := (h4 _).trans hp
  rw [heq]
  generalize s.updIssued a = u at *
  split
  · next he =>
    obtain ⟨r1, r2, -, -, -⟩ := updRefuse_shows u (c := upBadHeader) (by decide) (by decide) hon
    have rc := updRefuse_calm (P := noReg) u upBadHeader fun _ hx => absurd hx Bool.false_ne_true
    have hi : ((u.updRefuse upBadHeader).setInt Pg.UPD Ib.UPD_VERIFY_DONE).rd Rg.UPD_STAT = (u.updRefuse upBadHeader).rd Rg.UPD_STAT :=
      rd_setInt_own rfl (by decide)
    exact ⟨(f_of_rd hi _).trans ((r2 _ (by decide) (by decide)).trans h1), fun hne => absurd he hne, fun _ =>
      ⟨(f_of_rd hi _).trans ((r2 _ (by decide) (by decide)).trans (hslot.trans he)), (f_of_rd hi _).trans r1,
        setInt_bit _ Pg.UPD _ (by decide) (by decide) ((rc.on _).trans hon)⟩⟩
  · next he =>
    exact ⟨(f_setF_disjoint _ _ _ _ _ (by decide) (by decide)).trans h1, fun _ => ⟨f_setF_same _ _ _ _ (by decide),
      State.onlyRegs.after (K := fun x => { s with up := x.up }) ho ((onlyRegs_refl _ u).setF rfl)⟩, fun e => absurd e he⟩

/-! ## The checks of a staged image -/

/-- The image state replaced. -/
def State.withUp (s : State) (v : UpdSt) : State := { s with up := v }

theorem withUp_shows (s : State) (v : UpdSt) : (∀ x, (s.withUp v).rd x = s.rd x) ∧ (∀ g, (s.withUp v).pageOn g = s.pageOn g) ∧ (s.withUp v).up = v ∧
    (s.withUp v).part = s.part ∧ (s.withUp v).tbls = s.tbls := ⟨fun _ => rfl, fun _ => rfl, rfl, rfl, rfl⟩

theorem State.calm.withUp {P : Nat → Bool} {s t : State} (h : State.calm P s t) (v : UpdSt) : State.calm P (s.withUp v) (t.withUp v) :=
  ⟨h.rd, h.on, h.ints, h.said, h.part, h.pw, h.sv, rfl, h.d2, h.tk⟩

/-- Calm but for the image state. -/
def State.calmUp (P : Nat → Bool) (s t : State) : Prop := ∃ v, State.calm P (s.withUp v) t

theorem State.calm.calmUp {P : Nat → Bool} {s t : State} (h : State.calm P s t) : State.calmUp P s t := ⟨s.up, h⟩

theorem State.calm.then_calmUp {P : Nat → Bool} {s t u : State} (h : State.calm P s t) (h2 : State.calmUp P t u) : State.calmUp P s u := by
  obtain ⟨v, hv⟩ := h2
  exact ⟨v, (h.withUp v).trans hv⟩

theorem State.calmUp.then_calm {P : Nat → Bool} {s t u : State} (h : State.calmUp P s t) (h2 : State.calm P t u) : State.calmUp P s u := by
  obtain ⟨v, hv⟩ := h
  exact ⟨v, hv.trans h2⟩

theorem State.calmUp.trans {P : Nat → Bool} {s t u : State} (h : State.calmUp P s t) (h2 : State.calmUp P t u) : State.calmUp P s u := by
  obtain ⟨v, hv⟩ := h
  exact hv.then_calmUp (s := s.withUp v) (h2) |>.elim fun w hw => ⟨w, hw⟩

theorem State.calmUp.rd {P : Nat → Bool} {s t : State} (h : State.calmUp P s t) {x : Nat} (hx : P x = true) : t.rd x = s.rd x := by
  obtain ⟨v, hv⟩ := h
  exact (hv.rd x hx).trans ((withUp_shows s v).1 x)

theorem State.calmUp.on {P : Nat → Bool} {s t : State} (h : State.calmUp P s t) (g : Nat) : t.pageOn g = s.pageOn g := by
  obtain ⟨v, hv⟩ := h
  exact (hv.on g).trans ((withUp_shows s v).2.1 g)

theorem digestPut_eq (s : State) (i : Nat) (d : Digest) : ∃ l, s.digestPut i d = (s.withUp { s.up with digests := l }).emPut (emDigest i) 4 ∧
    (s.up.digests.length ≤ i → l = s.up.digests ++ [d]) :=
  ⟨_, rfl, fun h => if_neg (by omega)⟩

section Checks
variable {P : Nat → Bool} (hP : ∀ x, P x = true → ownReg x = true ∧ emReg x = false ∧ x ≠ Rg.UPD_COLLISION_CNT)
include hP

theorem digestPut_calm (s : State) (i : Nat) (d : Digest) : State.calmUp P s (s.digestPut i d) := by
  obtain ⟨l, hl, -⟩ := digestPut_eq s i d
  rw [hl]
  exact ⟨_, (State.calm.refl P _).emPut fun x hx => ⟨(hP x hx).1, emReg_put (hP x hx).2.1⟩⟩

theorem keyRead_calm (s : State) : State.calm P s s.keyRead.1 := by
  have hg : ∀ (x : State × Bool) c, State.calm P s x.1 → State.calm P s (x.1.emGet (emKey c 0) 8).1 := fun x c hx =>
    hx.emGet (fun y hy => ⟨(hP y hy).1, (hP y hy).2.1⟩) _ _
  exact hg _ 2 (hg _ 1 (hg (s, false) 0 (State.calm.refl P s)))

theorem custCheck_calm (s : State) (h : Nat) (c : Bool) : State.calm P s (s.custCheck h c).1 := by
  unfold State.custCheck
  split
  · exact .refl P s
  · exact keyRead_calm hP s

theorem collision_calm (s : State) (h : Nat) : State.calm P s (s.collision h) := by
  have hb : State.calm P s (s.bump Rg.UPD_COLLISION_CNT) := (State.calm.refl P s).bump (fun x hx => ⟨(hP x hx).1, (hP x hx).2.2⟩) (by decide) (by decide) rfl
  have hi : State.calm P s ((s.bump Rg.UPD_COLLISION_CNT).setInt Pg.UPD Ib.UPD_COLLISION) := hb.setInt (fun x hx => (hP x hx).1) (by decide)
  unfold State.collision State.updLog
  exact hi.logEm fun x hx => ⟨(hP x hx).1, (hP x hx).2.1⟩

theorem digestCheck_calm (s : State) (h d : Nat) : State.calmUp P s (s.digestCheck h d).1 := by
  have h0 : State.calm P s (s.emGet (emDigest 0) (4 * s.up.digests.length)).1 :=
    (State.calm.refl P s).emGet (fun x hx => ⟨(hP x hx).1, (hP x hx).2.1⟩) _ _
  unfold State.digestCheck
  simp only []
  generalize (s.emGet (emDigest 0) (4 * s.up.digests.length)).1 = u at *
  refine h0.then_calmUp ?_
  split
  · split_ifs
    · exact (collision_calm hP _ _).calmUp
    · exact (State.calm.refl P u).calmUp
    · exact (digestPut_calm hP _ _ _).then_calm (collision_calm hP _ _)
  · split_ifs
    · exact digestPut_calm hP _ _ _
    · split
      · exact digestPut_calm hP _ _ _
      · exact (State.calm.refl P u).calmUp

end Checks

theorem custCheck_lt (s : State) (h : Nat) (c : Bool) : (s.custCheck h c).2 < 256 := by
  unfold State.custCheck
  split
  · show (if _ then upCustRequired else 0) < 256
    split <;> decide
  · show (if _ then 0 else upBadCustSig) < 256
    split <;> decide

theorem digestCheck_lt (s : State) (h d : Nat) : (s.digestCheck h d).2 < 256 := by
  have hcoll : upSeqCollision < 256 := by decide
  have hfull : upDigestFull < 256 := by decide
  unfold State.digestCheck
  simp only []
  split
  · split_ifs
    · exact hcoll
    · exact Nat.zero_lt_succ _
    · exact hcoll
  · split_ifs
    · exact Nat.zero_lt_succ _
    · split
      · exact Nat.zero_lt_succ _
      · exact hfull

theorem verifyChecks_ends {P : Nat → Bool} (hP : ∀ x, P x = true → ownReg x = true ∧ emReg x = false ∧ x ≠ Rg.UPD_COLLISION_CNT)
    (s : State) (h : Nat) (k v c t : Bool) (d : Nat) :
    State.calmUp P s (s.verifyChecks h k v c t d).1 ∧ (s.verifyChecks h k v c t d).2 < 256 := by
  have hr : State.calmUp P s s := (State.calm.refl P s).calmUp
  have hg : State.calm P s (s.emGet 0 (4 * hBlocks h)).1 := (State.calm.refl P s).emGet (fun x hx => ⟨(hP x hx).1, (hP x hx).2.1⟩) _ _
  have hc := hg.trans (custCheck_calm hP (s.emGet 0 (4 * hBlocks h)).1 h c)
  have hd := hc.then_calmUp (digestCheck_calm hP ((s.emGet 0 (4 * hBlocks h)).1.custCheck h c).1 h d)
  have hcl := custCheck_lt (s.emGet 0 (4 * hBlocks h)).1 h c
  have hdl := digestCheck_lt ((s.emGet 0 (4 * hBlocks h)).1.custCheck h c).1 h d
  unfold State.verifyChecks
  simp only []
  generalize s.emGet 0 (4 * hBlocks h) = g at *
  generalize g.1.custCheck h c = x at *
  generalize x.1.digestCheck h d = y at *
  split
  · exact ⟨hr, show upBadHeader < 256 by decide⟩
  split
  · exact ⟨hr, show upTooLarge < 256 by decide⟩
  split
  · exact ⟨hr, show upWrongPart < 256 by decide⟩
  split
  · exact ⟨hg.calmUp, show upBadSig < 256 by decide⟩
  split
  · exact ⟨hc.calmUp, hcl⟩
  split
  · exact ⟨hd, hdl⟩
  split
  · exact ⟨hd, show upNotNewer < 256 by decide⟩
  · refine ⟨hd, ?_⟩
    cases t
    · show upBadTag < 256
      decide
    · show 0 < 256
      decide

/-! ## The end of a verification -/

/-- A result of a verification recorded, with the slot's state and the flag. -/
def State.updVerdict (s : State) (h c : Nat) : State :=
  (((s.updResult c).setSlot (if c = 0 then slVerified else slRefused)).updLog (if c = 0 then 0x0020 else 0x0021) c h).setInt Pg.UPD Ib.UPD_VERIFY_DONE

theorem updVerdict_shows (s : State) (h : Nat) {c : Nat} (hc : c < 256) (hp : s.pageOn (Pg.UPD / 0x1000) = true) :
    (s.updVerdict h c).f Rg.UPD_STAT Fd.UPD_STAT_RESULT = c ∧ (s.updVerdict h c).updSlot = (if c = 0 then slVerified else slRefused) ∧
      bit ((s.updVerdict h c).rd (Pg.UPD + 0x010)) Ib.UPD_VERIFY_DONE = true ∧ (s.updVerdict h c).up = s.up ∧
      (c ≠ 0 → (s.updVerdict h c).rd Rg.UPD_REFUSE_CNT = (s.rd Rg.UPD_REFUSE_CNT + 1) % 2 ^ 32) := by
  obtain ⟨h1, h2, h3⟩ := updResult_shows s hc
  have hq := updResult_calm (P := noReg) s c fun _ hx => absurd hx Bool.false_ne_true
  unfold State.updVerdict State.setSlot State.updLog
  generalize (if c = 0 then 0x0020 else 0x0021) = code
  have hx : (if c = 0 then slVerified else slRefused) < 8 := by split <;> decide
  generalize (if c = 0 then slVerified else slRefused) = x at *
  have hup := hq.up
  have hon := (hq.on _).trans hp
  generalize s.updResult c = u at *
  have hv : State.calm (fun _ => false) u (u.setF Rg.UPD_STAT Fd.UPD_STAT_SLOT x) := (State.calm.refl _ u).setF (fun _ h => absurd h Bool.false_ne_true) (by decide) rfl
  have hl : ∀ pg k d, State.calm (fun x => x == Rg.UPD_STAT || x == Rg.UPD_REFUSE_CNT) (u.setF Rg.UPD_STAT Fd.UPD_STAT_SLOT x)
      (((u.setF Rg.UPD_STAT Fd.UPD_STAT_SLOT x).log pg k d).setInt Pg.UPD Ib.UPD_VERIFY_DONE) := fun pg k d =>
    ((State.calm.refl _ _).log fun y hy => by
      rw [Bool.or_eq_true, beq_iff_eq, beq_iff_eq] at hy
      obtain rfl | rfl := hy <;> decide).setInt (fun y hy => by
      rw [Bool.or_eq_true, beq_iff_eq, beq_iff_eq] at hy
      obtain rfl | rfl := hy <;> rfl) (by decide)
  refine ⟨?_, ?_, setInt_bit _ Pg.UPD _ (by decide) (by decide) ?_, ((hl _ _ _).up.trans hv.up).trans hup, fun hne => ?_⟩
  · rw [f_of_rd ((hl _ _ _).rd _ rfl), f_setF_disjoint _ _ _ _ _ (by decide) (by decide), h1]
  · rw [State.updSlot, f_of_rd ((hl _ _ _).rd _ rfl), f_setF_same _ _ _ _ (by decide)]
    exact Nat.mod_eq_of_lt hx
  · rw [((State.calm.refl noReg _).log fun _ h => absurd h Bool.false_ne_true).on, hv.on, hon]
  · rw [(hl _ _ _).rd _ rfl, rd_setF_other _ _ _ _ _ (by decide), h3 hne hp]

theorem verifyDone_idle {s : State} {k v c t : Bool} {d : Nat} (h : s.updSlot ≠ slVerifying) : s.verifyDone k v c t d = s := if_pos h

theorem verifyDone_eq {s : State} {k v c t : Bool} {d : Nat} (h : s.updSlot = slVerifying) :
    s.verifyDone k v c t d = (s.verifyChecks (s.hdrAt 0) k v c t d).1.updVerdict (s.hdrAt 0) (s.verifyChecks (s.hdrAt 0) k v c t d).2 :=
  if_neg (not_not.2 h)

theorem verifyDone_shows {s : State} {k v c t : Bool} {d : Nat} (h : s.updSlot = slVerifying) (hp : s.pageOn (Pg.UPD / 0x1000) = true) :
    bit ((s.verifyDone k v c t d).rd (Pg.UPD + 0x010)) Ib.UPD_VERIFY_DONE = true ∧
      (s.verifyDone k v c t d).updSlot = (if (s.verifyDone k v c t d).f Rg.UPD_STAT Fd.UPD_STAT_RESULT = upOk then slVerified else slRefused) := by
  obtain ⟨hend, hlt⟩ := verifyChecks_ends (P := noReg) (fun _ hx => absurd hx Bool.false_ne_true) s (s.hdrAt 0) k v c t d
  have hon := hend.on (Pg.UPD / 0x1000)
  obtain ⟨h1, h2, h3, -⟩ := updVerdict_shows (s.verifyChecks (s.hdrAt 0) k v c t d).1 (s.hdrAt 0) hlt (hon.trans hp)
  rw [verifyDone_eq h]
  exact ⟨h3, by rw [h1, h2]⟩

/-- The refusals of R346 that need no table, in their order. -/
theorem verifyChecks_code {s : State} {h : Nat} {k v c t : Bool} {d code : Nat} (hcode : (hdrGood h false = false ∧ code = upBadHeader) ∨
      (hdrGood h false = true ∧ 262144 < 512 + hbyte h 16 4 ∧ code = upTooLarge) ∨
      (hdrGood h false = true ∧ 512 + hbyte h 16 4 ≤ 262144 ∧ (hdrHere s.part h = false ∨ k = false) ∧ code = upWrongPart) ∨
      (hdrGood h false = true ∧ 512 + hbyte h 16 4 ≤ 262144 ∧ hdrHere s.part h = true ∧ k = true ∧ v = false ∧
        s.markedIn Pg.EMRAM 0 = [] ∧ code = upBadSig)) : s.verifyChecks h k v c t d = (s, code) := by
  unfold State.verifyChecks
  obtain ⟨h1, rfl⟩ | ⟨h1, h2, rfl⟩ | ⟨h1, h2, h3, rfl⟩ | ⟨h1, h2, h3, rfl, rfl, h4, rfl⟩ := hcode
  · rw [if_pos (by rw [h1]; rfl)]
  · rw [if_neg (by rw [h1]; decide), if_pos h2]
  · rw [if_neg (by rw [h1]; decide), if_neg (by omega), if_pos]
    obtain h3 | h3 := h3
    · rw [h3]
      rfl
    · rw [h3]
      exact Bool.or_true _
  · rw [if_neg (by rw [h1]; decide), if_neg (by omega), if_neg (by rw [h3]; decide), emGet_clean h4]
    rfl

/-- A vendor image whose own checks pass, past the checks of R346 that need no table. -/
theorem verifyChecks_late {s : State} {h : Nat} {c t : Bool} {d : Nat} (h1 : hdrGood h false = true) (h2 : 512 + hbyte h 16 4 ≤ 262144)
    (h3 : hdrHere s.part h = true) (h4 : s.markedIn Pg.EMRAM 0 = []) (h5 : bit (hbyte h 6 2) 0 = false) :
    s.verifyChecks h true true c t d = if s.fb Rg.EMRAM_SEC Fd.EMRAM_SEC_REQUIRE_CUST = true then (s, upCustRequired) else
      if (s.digestCheck h d).2 ≠ 0 then s.digestCheck h d
      else if hSeq h ≤ (s.digestCheck h d).1.arb (hKind h) then ((s.digestCheck h d).1, upNotNewer)
      else ((s.digestCheck h d).1, if t then 0 else upBadTag) := by
  have hcust : s.custCheck h c = (s, if s.fb Rg.EMRAM_SEC Fd.EMRAM_SEC_REQUIRE_CUST then upCustRequired else 0) := if_pos (by rw [h5]; rfl)
  unfold State.verifyChecks
  rw [if_neg (by rw [h1]; decide), if_neg (by omega), if_neg (by rw [h3]; decide), emGet_clean h4]
  simp only []
  rw [if_neg (by decide), hcust]
  cases hr : s.fb Rg.EMRAM_SEC Fd.EMRAM_SEC_REQUIRE_CUST
  · rfl
  · rfl

theorem digestCheck_new {s : State} {h d : Nat} (hm : s.markedIn Pg.EMRAM 0 = []) (hn : s.digestOf (hKind h) (hSeq h) = none)
    (hl : s.up.digests.length < 4096) : s.digestCheck h d = (s.digestPut s.up.digests.length ⟨hKind h, hSeq h, d, false⟩, 0) := by
  unfold State.digestCheck
  simp only [emGet_clean hm, hn]
  rw [if_pos hl]

theorem digestPut_new (s : State) (d : Digest) : (s.digestPut s.up.digests.length d).up.digests = s.up.digests ++ [d] := by
  obtain ⟨l, hl, hw⟩ := digestPut_eq s s.up.digests.length d
  have hc : State.calm noReg (s.withUp { s.up with digests := l }) ((s.withUp { s.up with digests := l }).emPut (emDigest s.up.digests.length) 4) :=
    (State.calm.refl _ _).emPut fun _ hx => absurd hx Bool.false_ne_true
  rw [hl, hc.up, (withUp_shows s _).2.2.1]
  exact hw (Nat.le_refl _)

theorem arbLo_place {k : Nat} (hk : k < 8) : ownReg (Rg.UPD_ARB_LO k) = true ∧ ownReg (Rg.UPD_ARB_LO k + 4) = true ∧ emReg (Rg.UPD_ARB_LO k) = false ∧
    emReg (Rg.UPD_ARB_LO k + 4) = false ∧ Rg.UPD_ARB_LO k ≠ Rg.UPD_COLLISION_CNT ∧ Rg.UPD_ARB_LO k + 4 ≠ Rg.UPD_COLLISION_CNT := by
  interval_cases k <;> decide

theorem digestPut_arb (s : State) (i : Nat) (d : Digest) {k : Nat} (hk : k < 8) : (s.digestPut i d).arb k = s.arb k := by
  obtain ⟨h1, h2, h3, h4, h5, h6⟩ := arbLo_place hk
  have hc := digestPut_calm (P := fun x => x == Rg.UPD_ARB_LO k || x == Rg.UPD_ARB_LO k + 4) (fun x hx => by
    rw [Bool.or_eq_true, beq_iff_eq, beq_iff_eq] at hx
    obtain rfl | rfl := hx
    · exact ⟨h1, h3, h5⟩
    · exact ⟨h2, h4, h6⟩) s i d
  exact rd64_congr (hc.rd (by simp)) (hc.rd (by simp))

theorem hKind_lt {h : Nat} {g : Bool} (hg : hdrGood h g = true) : hKind h < 8 := by
  simp only [hdrGood, Bool.and_eq_true, decide_eq_true_eq] at hg
  omega

/-! ## Floors, REQUIRE_CUST and posted records -/

theorem floorLo_place {k : Nat} (h1 : 1 ≤ k) (h2 : k ≤ 5) : ownReg (Rg.UPD_FLOOR_LO k) = true ∧ ownReg (Rg.UPD_FLOOR_LO k + 4) = true ∧
    emPutReg (Rg.UPD_FLOOR_LO k) = false ∧ emPutReg (Rg.UPD_FLOOR_LO k + 4) = false ∧ Rg.UPD_FLOOR_HI k / 0x1000 = Pg.UPD / 0x1000 := by
  interval_cases k <;> decide

/-- The held half of a 64-bit register taken by its requester. -/
def State.heldTaken (s : State) (r : Requester) (lo : Nat) : State := { s with loHeld := sset 0 s.loHeld (loKey r lo) 0 }

theorem takeLo_fst (s : State) (r : Requester) (lo v : Nat) : (s.takeLo r lo v).1 = s.heldTaken r lo := rfl

theorem heldTaken_shows (s : State) (r : Requester) (lo : Nat) : (∀ x, (s.heldTaken r lo).rd x = s.rd x) ∧
    (∀ g, (s.heldTaken r lo).pageOn g = s.pageOn g) ∧ sget 0 (s.heldTaken r lo).loHeld (loKey r lo) = 0 :=
  ⟨fun _ => rfl, fun _ => rfl, sget_sset_same 0 s.loHeld (loKey r lo) 0⟩

theorem wroteWords_loHeld (s : State) (pg m a n : Nat) : (s.wroteWords pg m a n).loHeld = s.loHeld := by
  induction n generalizing s a with
  | zero => rfl
  | succ n ih =>
    refine (ih _ _).trans ?_
    unfold State.wroteWord
    simp only []
    split
    · exact State.wr_loHeld ..
    · rfl

theorem emPut_loHeld (s : State) (a n : Nat) : (s.emPut a n).loHeld = s.loHeld :=
  (onlyRegs_proj (onlyRegs_bump64 _ _ _ (by decide)) State.loHeld).trans (wroteWords_loHeld s _ _ _ _)

theorem floorWrite_shows {s : State} {r : Requester} {k v x : Nat} (h1 : 1 ≤ k) (h2 : k ≤ 5) (hp : s.pageOn (Pg.UPD / 0x1000) = true)
    (hx : x = (s.takeLo r (Rg.UPD_FLOOR_LO k) v).2) : sget 0 (s.floorWrite r k v).loHeld (loKey r (Rg.UPD_FLOOR_LO k)) = 0 ∧
      (x < s.rd64 (Rg.UPD_FLOOR_LO k) → (s.floorWrite r k v).rd64 (Rg.UPD_FLOOR_LO k) = s.rd64 (Rg.UPD_FLOOR_LO k) ∧
        bit ((s.floorWrite r k v).rd (Pg.UPD + 0x010)) Ib.UPD_REFUSED = true) ∧
      (s.rd64 (Rg.UPD_FLOOR_LO k) ≤ x → (s.floorWrite r k v).rd64 (Rg.UPD_FLOOR_LO k) = x % 2 ^ 64) := by
  obtain ⟨p1, p2, p3, p4, -⟩ := floorLo_place h1 h2
  obtain ⟨t1, t2, t3⟩ := heldTaken_shows s r (Rg.UPD_FLOOR_LO k)
  have heq : s.floorWrite r k v = if x < s.rd64 (Rg.UPD_FLOOR_LO k) then (s.heldTaken r (Rg.UPD_FLOOR_LO k)).setInt Pg.UPD Ib.UPD_REFUSED
      else ((s.heldTaken r (Rg.UPD_FLOOR_LO k)).wr64 (Rg.UPD_FLOOR_LO k) x).emPut (emFloor k 0) 3 := by
    subst hx
    rfl
  rw [heq]
  generalize s.heldTaken r (Rg.UPD_FLOOR_LO k) = u at *
  split
  · next hlt =>
    exact ⟨(congrArg (sget 0 · _) (onlyRegs_proj (onlyRegs_setInt _ _ _) State.loHeld)).trans t3, fun _ =>
      ⟨(rd64_congr (rd_setInt_own p1 (by decide)) (rd_setInt_own p2 (by decide))).trans (rd64_congr (t1 _) (t1 _)),
        setInt_bit u Pg.UPD _ (by decide) (by decide) ((t2 _).trans hp)⟩, fun h => absurd hlt (by omega)⟩
  · next hlt =>
    have hc : State.calm (fun y => y == Rg.UPD_FLOOR_LO k || y == Rg.UPD_FLOOR_LO k + 4) (u.wr64 (Rg.UPD_FLOOR_LO k) x)
        ((u.wr64 (Rg.UPD_FLOOR_LO k) x).emPut (emFloor k 0) 3) := (State.calm.refl _ _).emPut fun y hy => by
      rw [Bool.or_eq_true, beq_iff_eq, beq_iff_eq] at hy
      obtain rfl | rfl := hy
      · exact ⟨p1, p3⟩
      · exact ⟨p2, p4⟩
    refine ⟨?_, fun h => absurd h hlt, fun _ => (rd64_congr (hc.rd _ (by simp)) (hc.rd _ (by simp))).trans (rd64_wr64 _ _ _)⟩
    rw [emPut_loHeld, State.wr64, State.wr_loHeld, State.wr_loHeld]
    exact t3

theorem emramSec_writeLive (c v : Nat) : (⟨0x100, 1, 0x0, 1, 0x0, false, [fd 31 1 .w1s 0, fd 30 1 .ro 0, fd 29 1 .ro 0]⟩ : RegDef).writeLive c v =
    setBits c 31 1 (bits c 31 1 ||| bits v 31 1) := rfl

theorem requireCust_shows (s : State) (v : Nat) :
    ((s.fieldWrite Rg.EMRAM_SEC v).emPut emSec 1).fb Rg.EMRAM_SEC Fd.EMRAM_SEC_REQUIRE_CUST =
      (s.fb Rg.EMRAM_SEC Fd.EMRAM_SEC_REQUIRE_CUST || bit v 31) ∧
    ((s.fieldWrite Rg.EMRAM_SEC v).emPut emSec 1).fb Rg.EMRAM_SEC Fd.EMRAM_SEC_CUST_KEY_SET = s.fb Rg.EMRAM_SEC Fd.EMRAM_SEC_CUST_KEY_SET := by
  have hr : findReg Rg.EMRAM_SEC = some ⟨0x100, 1, 0x0, 1, 0x0, false, [fd 31 1 .w1s 0, fd 30 1 .ro 0, fd 29 1 .ro 0]⟩ := rfl
  have hrd : (s.fieldWrite Rg.EMRAM_SEC v).rd Rg.EMRAM_SEC =
      setBits (s.rd Rg.EMRAM_SEC) 31 1 (bits (s.rd Rg.EMRAM_SEC) 31 1 ||| bits v 31 1) % 2 ^ 32 := by
    rw [fieldWrite_of_live hr (by decide), rd_setIntIf_own rfl (by decide), rd_wr_same, emramSec_writeLive]
  have hc : State.calm (· == Rg.EMRAM_SEC) (s.fieldWrite Rg.EMRAM_SEC v) ((s.fieldWrite Rg.EMRAM_SEC v).emPut emSec 1) :=
    (State.calm.refl _ _).emPut fun y hy => eq_of_beq hy ▸ by decide
  have hx := (hc.rd _ (beq_self_eq_true _)).trans hrd
  refine ⟨?_, ?_⟩
  · rw [State.fb, State.fb, State.f, State.f, hx, bits_mod _ _ _ _ (by decide), bits_setBits_same]
    have h1 := bits_lt (s.rd Rg.EMRAM_SEC) 31 1
    have h2 := bits_lt v 31 1
    have hb : bit v 31 = (bits v 31 1 == 1) := by simp [bits, bit]
    rw [hb]
    show ((bits (s.rd Rg.EMRAM_SEC) 31 1 ||| bits v 31 1) % 2 ^ 1 == 1) = (bits (s.rd Rg.EMRAM_SEC) 31 1 == 1 || bits v 31 1 == 1)
    generalize bits (s.rd Rg.EMRAM_SEC) 31 1 = x at *
    generalize bits v 31 1 = y at *
    interval_cases x <;> interval_cases y <;> rfl
  · rw [State.fb, State.fb, State.f, State.f, hx, bits_mod _ _ _ _ (by decide), bits_setBits_disjoint _ _ _ _ _ _ (by decide)]

theorem putRec_shows (s : State) (r : LogRec) : (s.putRec r).lg.recs.head? = some { r with lseq := (s.rd Rg.EMRAM_LOG_SEQ + 1) % 2 ^ 32 } ∧
    (s.putRec r).rd Rg.EMRAM_LOG_SEQ = (s.rd Rg.EMRAM_LOG_SEQ + 1) % 2 ^ 32 := by
  unfold State.putRec
  refine ⟨?_, ?_⟩
  · rw [onlyRegs_proj (onlyRegs_bump64 _ _ _ (by decide)) State.lg, State.wr_lg, State.wr_lg]
    rfl
  · rw [(onlyRegs_bump64 _ _ _ (by decide)).2 _ rfl, rd_wr_other _ _ _ _ (by decide), rd_wr_same, Nat.mod_mod]

/-- A record that the log takes is its newest, under the next LSEQ (R354). -/
theorem log_next {s : State} {pg code data : Nat} (h : s.mayLog pg) : s.logsNext (s.log pg code data) code (data % 2 ^ 48) := by
  obtain ⟨hw, hp⟩ := h
  have heq : ∃ r : LogRec, s.log pg code data = s.logPut r ∧ r.code = code ∧ r.data = data % 2 ^ 48 ∧ r.tick = s.tickCount := by
    unfold State.log
    simp only []
    rw [if_neg]
    · exact ⟨_, rfl, rfl, rfl, rfl⟩
    · rw [Bool.and_eq_true, decide_eq_true_eq, Bool.not_eq_true']
      rintro ⟨h0, hu⟩
      rw [hp (by omega)] at hu
      cases hu
  obtain ⟨r, hr, hcode, hdata, htick⟩ := heq
  obtain ⟨h1, h2⟩ := putRec_shows s r
  rw [hr, State.logPut, if_pos hw]
  exact ⟨{ r with lseq := (s.rd Rg.EMRAM_LOG_SEQ + 1) % 2 ^ 32 }, h1, hcode, hdata, htick, rfl, h2⟩

/-- Settles O55: the lock, the results and the flags of UPD are a few writes each; the checks of a staged image run in R346's order on eMRAM words that
hold no error, and all that they change lies in the digest table, page EMRAM and the T-die's RAS page. -/
theorem stagingSlotAndVerification : Obligations.StagingSlotAndVerification := by
  unfold Obligations.StagingSlotAndVerification
  refine ⟨fun s a hw => ?_, fun s clk hp late hlate => ?_, fun s a hw => ?_, fun s k v c t d => ⟨fun h => ?_, ?_⟩, fun s a k v h1 h2 hw x hx => ?_,
    fun s a v hw => ?_, fun s a v code hw hcode => ?_⟩
  · have hp := mayWrite_pageOn hw
    have hreq : exec (.updLockReq a) s = .next (s.lockReq a.req a.clk) := congrArg Host.Outcome.next (onWrite_of s a _ _ hw)
    have hrel : exec (.updLockRelease a) s = .next (if s.holdsLock a.req then s.lockFree else s) := congrArg Host.Outcome.next (onWrite_of s a _ _ hw)
    rw [hreq, hrel]
    refine ⟨fun h => ?_, fun p res hr hres => ⟨_, rfl, fun h => ?_, fun h => ?_⟩, fun h => by rw [if_neg (by rw [h]; decide)], fun h => ?_⟩
    · rw [State.lockReq, h]
    · subst hres
      exact lockReq_free_shows hr h hp
    · subst hres
      exact lockReq_held_shows hr h
    · rw [if_pos h]
      exact ⟨_, rfl, lockFree_shows (holdsLock_held h) hp⟩
  · have hx : exec (.lockTimeout clk) s = .next (if late = true then s.lockFree else s) := by
      refine congrArg Host.Outcome.next ?_
      simp only [hlate]
    rw [hx]
    refine ⟨fun h => ?_, fun h1 h2 => ?_⟩
    · obtain h | h := h
      · rw [if_neg (by rw [h]; decide)]
      · rw [lockFree_idle h, ite_self]
    · obtain ⟨f1, f2, -⟩ := lockFree_shows h2 hp
      exact ⟨_, rfl, by rw [if_pos h1]; exact ⟨f1, f2⟩⟩
  · have hp : s.pageOn (Pg.UPD / 0x1000) = true := mayWrite_pageOn hw
    have hv : exec (.verify a) s = .next (s.verify a) := congrArg Host.Outcome.next (onWrite_of s a _ _ hw)
    have hc : exec (.clear a) s = .next (s.clearStage a) := congrArg Host.Outcome.next (onWrite_of s a _ _ hw)
    rw [hv, hc]
    refine ⟨fun h => ⟨_, _, rfl, rfl, ?_⟩, fun h => ⟨_, rfl, clear_shows h⟩, fun h hb hs => ⟨_, rfl, verify_shows h hb hs hp⟩⟩
    obtain ⟨h1, h2, h3, h4⟩ := noLock_shows (a := a) hp
    rw [(verify_noLock h).1, (verify_noLock h).2]
    exact ⟨h1, h1, h2, h2, h3, h4⟩
  · exact congrArg Host.Outcome.next (verifyDone_idle h)
  · rintro h hs hh hp
    obtain ⟨hb, hslot⟩ := verifyDone_shows (k := k) (v := v) (c := c) (t := t) (d := d) hs hp
    have heq := verifyDone_eq (k := k) (v := v) (c := c) (t := t) (d := d) hs
    rw [← hh] at heq
    clear hh
    refine ⟨_, rfl, hb, hslot, fun code hcode => ?_, ?_⟩
    · have hlt : code < 256 ∧ code ≠ 0 := by
        obtain ⟨-, rfl⟩ | ⟨-, -, rfl⟩ | ⟨-, -, -, rfl⟩ | ⟨-, -, -, -, -, -, rfl⟩ := hcode <;> decide
      rw [verifyChecks_code hcode] at heq
      obtain ⟨r1, -, -, r4, r5⟩ := updVerdict_shows s h hlt.1 hp
      rw [heq]
      exact ⟨r1, r5 hlt.2, r4⟩
    · rintro h1 h2 h3 rfl rfl h4 h5
      rw [verifyChecks_late h1 h2 h3 h4 h5] at heq
      refine ⟨fun hr => ?_, fun hr hn hl => ?_⟩
      · rw [if_pos hr] at heq
        rw [heq]
        exact (updVerdict_shows s h (show upCustRequired < 256 by decide) hp).1
      · rw [if_neg (by rw [hr]; decide), digestCheck_new h4 hn hl, if_neg (not_not.2 rfl), digestPut_arb _ _ _ (hKind_lt h1)] at heq
        have hon := (digestPut_calm (P := noReg) (fun _ hx => absurd hx Bool.false_ne_true) s s.up.digests.length ⟨hKind h, hSeq h, d, false⟩).on
        have hdig := digestPut_new s ⟨hKind h, hSeq h, d, false⟩
        rw [heq]
        generalize s.digestPut s.up.digests.length ⟨hKind h, hSeq h, d, false⟩ = u at *
        have hcode : (if hSeq h ≤ s.arb (hKind h) then (u, upNotNewer) else (u, if t then 0 else upBadTag)) =
            (u, if hSeq h ≤ s.arb (hKind h) then upNotNewer else if t then upOk else upBadTag) :=
          (apply_ite (Prod.mk u) _ _ _).symm
        rw [hcode]
        obtain ⟨r1, -, -, r4, -⟩ := updVerdict_shows u h
          (c := if hSeq h ≤ s.arb (hKind h) then upNotNewer else if t then upOk else upBadTag)
          (by split_ifs <;> decide) ((hon _).trans hp)
        exact ⟨(congrArg UpdSt.digests r4).trans hdig, r1⟩
  · have hp : s.pageOn (Rg.UPD_FLOOR_HI k / 0x1000) = true := mayWrite_pageOn hw
    rw [(floorLo_place h1 h2).2.2.2.2] at hp
    refine ⟨s.floorWrite a.req k v.toNat, ?_, floorWrite_shows h1 h2 hp hx⟩
    refine congrArg Host.Outcome.next ?_
    rw [if_pos ⟨h1, h2⟩, onWrite_of s a _ _ hw]
  · exact ⟨_, congrArg Host.Outcome.next (onWrite_of s a _ _ hw), requireCust_shows s v.toNat⟩
  · have hx : exec (.logPost a v) s = .next (s.logPost a.req v.toNat) := congrArg Host.Outcome.next (onWrite_of s a _ _ hw)
    rw [hx]
    refine ⟨fun h => ?_, fun hr hc hl => ?_⟩
    · unfold State.logPost
      obtain h | h := h
      · obtain ⟨p, hp⟩ := Option.isSome_iff_exists.1 h
        rw [hp]
      · split
        · rfl
        · simp only [← hcode]
          rw [if_pos h]
    · refine ⟨_, rfl, ?_⟩
      have heq : s.logPost a.req v.toNat = s.log (Pg.SC (reqNo a.req - 2)) code (s.rd Rg.EMRAM_LOG_POST1 + v.toNat % 65536 * 2 ^ 32) := by
        unfold State.logPost
        rw [hr]
        simp only [← hcode]
        rw [if_neg (by omega)]
      rw [heq]
      exact log_next hl

end Sys2Proof.Machine
end

section
/-! SUPPORT. Host ports: registers dropped to their reset values, what a message leaves of a port's MSI-X state, stopped rings, and what a port loses with its
link (R356, R362). -/
namespace Sys2Proof.Machine

/-! ## Registers dropped -/

/-- The registers whose address `q` does not keep returned to their reset values. -/
def State.dropRegs (s : State) (q : Nat → Bool) : State := { s with regs := s.regs.filter fun e => q e.1 }

theorem rd_dropRegs (s : State) (q : Nat → Bool) (x : Nat) : (s.dropRegs q).rd x = if q x then s.rd x else regReset s.part x :=
  sget_filter_key _ s.regs q x

/-- A state whose registers are those of another, some dropped, reads so. -/
theorem rd_of_filter {s t : State} {q : Nat → Bool} (hp : t.part = s.part) (hr : t.regs = s.regs.filter fun e => q e.1) (x : Nat) :
    t.rd x = if q x then s.rd x else regReset s.part x := by
  rw [State.rd, hr, hp, sget_filter_key]
  rfl

/-! ## What messages leave -/

/-- The interrupt map and the ports' enables, masks and PERST_N levels are the same. -/
structure State.heard (s t : State) : Prop where
  map : ∀ n, t.tbl Pg.IRQ 0 n = s.tbl Pg.IRQ 0 n
  port : ∀ p, (t.pcie p).msixEn = (s.pcie p).msixEn ∧ (t.pcie p).fmask = (s.pcie p).fmask ∧ (t.pcie p).perst = (s.pcie p).perst

theorem pcie_setPcie (s : State) (p q : Nat) (x : PcieSt) (hp : p < 2) (hq : q < 2) : (s.setPcie p x).pcie q = if q = p then x else s.pcie q := by
  interval_cases p <;> interval_cases q <;> rfl

namespace State.heard
variable {s t u : State}

theorem refl (s : State) : State.heard s s := ⟨fun _ => rfl, fun _ => ⟨rfl, rfl, rfl⟩⟩

theorem trans (h1 : State.heard s t) (h2 : State.heard t u) : State.heard s u :=
  ⟨fun n => (h2.map n).trans (h1.map n), fun p => by
    obtain ⟨a1, b1, c1⟩ := h1.port p
    obtain ⟨a2, b2, c2⟩ := h2.port p
    exact ⟨a2.trans a1, b2.trans b1, c2.trans c1⟩⟩

theorem ofParts (ht : t.tbls = s.tbls) (hp : t.part = s.part) (h0 : t.pcie0 = s.pcie0) (h1 : t.pcie1 = s.pcie1) : State.heard s t :=
  ⟨fun n => tbl_of_tbls ht hp _ _ _, fun p => by
    rw [State.pcie, State.pcie, h0, h1]
    exact ⟨rfl, rfl, rfl⟩⟩

theorem ite {c : Prop} [Decidable c] (h1 : State.heard s t) (h2 : State.heard s u) : State.heard s (if c then t else u) := by split <;> assumption

theorem wr (h : State.heard s t) {a v : Nat} : State.heard s (t.wr a v) :=
  h.trans (ofParts (State.wr_tbls ..) (State.wr_part ..) (State.wr_pcie0 ..) (State.wr_pcie1 ..))

theorem setF (h : State.heard s t) {a v : Nat} {fl : Fld} : State.heard s (t.setF a fl v) := h.wr

theorem setIntRaw (h : State.heard s t) {pg m : Nat} : State.heard s (t.setIntRaw pg m) := .ite h.wr.wr h.wr

theorem setPcie (h : State.heard s t) {p : Nat} {x : PcieSt} (hp : p < 2)
    (hx : x.msixEn = (t.pcie p).msixEn ∧ x.fmask = (t.pcie p).fmask ∧ x.perst = (t.pcie p).perst) : State.heard s (t.setPcie p x) := by
  refine h.trans ⟨fun n => ?_, fun q => ?_⟩
  · refine tbl_of_tbls ?_ ?_ _ _ _
    all_goals unfold State.setPcie
    all_goals split <;> rfl
  · by_cases hz : q = 0
    · subst hz
      rw [pcie_setPcie t p 0 x hp (by decide)]
      split
      · next e => exact e ▸ hx
      · exact ⟨rfl, rfl, rfl⟩
    · have h1 : ∀ w : State, w.pcie q = w.pcie 1 := fun w => by rw [State.pcie, State.pcie, if_neg hz, if_neg (by decide)]
      rw [h1, h1, pcie_setPcie t p 1 x hp (by decide)]
      split
      · next e => exact e ▸ hx
      · exact ⟨rfl, rfl, rfl⟩

theorem emit (h : State.heard s t) {e : Emit} : State.heard s (t.emit e) := h.trans (ofParts rfl rfl rfl rfl)

theorem sendMsg (h : State.heard s t) {p vec : Nat} (hp : p < 2) : State.heard s (t.sendMsg p vec) :=
  .ite (h.setPcie hp ⟨rfl, rfl, rfl⟩) (.ite h.wr.emit h.wr.emit.wr.setIntRaw)

theorem raiseSrc (h : State.heard s t) {n : Nat} : State.heard s (t.raiseSrc n) := by
  have hon : ∀ {u : State} p, p < 2 → State.heard s u → State.heard s (u.raiseOn n p) := fun p hp hu => .ite (hu.sendMsg hp) hu
  exact hon 1 (by decide) (hon 0 (by decide) h)

theorem foldl {β : Type} {f : State → β → State} {l : List β} (hf : ∀ (v : State), ∀ x ∈ l, State.heard v (f v x)) (h : State.heard s t) :
    State.heard s (l.foldl f t) := by
  induction l generalizing t with
  | nil => exact h
  | cons x l ih => exact ih (fun v y hy => hf v y (List.mem_cons_of_mem _ hy)) (h.trans (hf t x List.mem_cons_self))

theorem setInts (h : State.heard s t) {pg m : Nat} : State.heard s (t.setInts pg m) :=
  .ite (h.trans (foldl (fun v _ _ => .ite (refl v).raiseSrc (refl v)) (refl t).setIntRaw)) h

theorem setInt (h : State.heard s t) {pg b : Nat} : State.heard s (t.setInt pg b) := h.setInts

theorem setIntIf (h : State.heard s t) {c : Bool} {pg b : Nat} : State.heard s (t.setIntIf c pg b) := .ite h.setInt h

theorem setOvf (h : State.heard s t) {pg o b : Nat} : State.heard s (t.setOvf pg o b) := .ite h h.wr.setInt

theorem bump (h : State.heard s t) {a n : Nat} : State.heard s (t.bump a n) := .ite h (.ite h.wr h.wr.setOvf)

theorem setTf (h : State.heard s t) {pg m i lo w v : Nat} (hk : ∀ n, tkey Pg.IRQ 0 n ≠ tkey pg m i) : State.heard s (t.setTf pg m i lo w v) :=
  h.trans ⟨fun n => tblAt_setTbl_other _ _ _ _ _ _ (hk n), fun _ => ⟨rfl, rfl, rfl⟩⟩

end State.heard

/-! ## Rings stopped -/

theorem ringCfg_place {r : Nat} (h : r < 64) : ownReg (Rg.DMA_RING_CFG r) = true ∧ Rg.DMA_RING_CFG r / 0x1000 = 0x1092 ∧
    notDom (Rg.DMA_RING_CFG r) = true ∧ Rg.DMA_RING_CFG r % 0x1000 ≠ 0x010 := by
  have he : Rg.DMA_RING_CFG r = 0x1092000 + 0x100 + 0x10 * r := rfl
  have hp : Rg.DMA_RING_CFG r / 0x1000 = 0x1092 := by omega
  exact ⟨ownReg_iff.2 ⟨by omega, by omega⟩, hp, notDom_of_page (by omega) (by omega), by omega⟩

theorem ringCfg_ne {r q : Nat} (h : r ≠ q) : Rg.DMA_RING_CFG r ≠ Rg.DMA_RING_CFG q := by
  have he : ∀ i, Rg.DMA_RING_CFG i = 0x1092000 + 0x100 + 0x10 * i := fun _ => rfl
  rw [he, he]
  omega

namespace State.calm
variable {P : Nat → Bool} {s t : State}

theorem setTf (h : State.calm P s t) {pg m i lo w v : Nat} : State.calm P s (t.setTf pg m i lo w v) := h.trans ofParts

theorem setOvf (h : State.calm P s t) {pg o b : Nat} (hP : ∀ x, P x = true → ownReg x = true ∧ x ≠ pg + o) (hg : pg % 0x1000 = 0)
    (hi : (pg + o) % 0x1000 ≠ 0x010) (hd : notDom (pg + o) = true) : State.calm P s (t.setOvf pg o b) :=
  .ite h ((h.wr (fun x hx => (hP x hx).2) hi hd).setInt (fun x hx => (hP x hx).1) hg)

theorem withRings (h : State.calm P s t) (x : Sparse RingSt) : State.calm P s { t with rings := x } := h.trans ofParts

theorem setRing (h : State.calm P s t) {r : Nat} {x : RingSt} : State.calm P s (t.setRing r x) := (h.withRings _).setTf

theorem peak (h : State.calm P s t) {a v : Nat} (hP : ∀ x, P x = true → x ≠ a) (hi : a % 0x1000 ≠ 0x010) (hd : notDom a = true) :
    State.calm P s (t.peak a v) := .ite (h.wr hP hi hd) h

theorem withBf (h : State.calm P s t) (x : BufSt) : State.calm P s { t with bf := x } :=
  h.trans (ofParts (t := { t with bf := x }) rfl rfl rfl rfl rfl rfl rfl rfl)

theorem caldFull (h : State.calm P s t) (hP : ∀ x, P x = true → ownReg x = true) : State.calm P s t.caldFull :=
  (h.setIntIf hP (by decide)).withBf _

theorem caldMove (h : State.calm P s t) {a l n : Int} (hP : ∀ x, P x = true → x / 0x1000 ≠ 0x1012) : State.calm P s (t.caldMove a l n) := by
  have hne : ∀ a, a / 0x1000 = 0x1012 → ∀ x, P x = true → x ≠ a := fun a ha x hx e => hP x hx (e ▸ ha)
  exact ((h.wr (hne _ (by decide)) (by decide) rfl).wr (hne _ (by decide)) (by decide) rfl).wr (hne _ (by decide)) (by decide) rfl

theorem caldUsed (h : State.calm P s t) {v : State} (hP : ∀ x, P x = true → x / 0x1000 ≠ 0x1012) : State.calm P s (v.caldUsed t) := by
  have hne : ∀ a, a / 0x1000 = 0x1012 → ∀ x, P x = true → x ≠ a := fun a ha x hx e => hP x hx (e ▸ ha)
  exact (h.wr (hne _ (by decide)) (by decide) rfl).peak (hne _ (by decide)) (by decide) rfl

theorem cald (h : State.calm P s t) {a l n : Int} (hP : ∀ x, P x = true → ownReg x = true ∧ x / 0x1000 ≠ 0x1012) : State.calm P s (t.cald a l n) := by
  rw [cald_eq]
  exact ((h.caldMove fun x hx => (hP x hx).2).caldUsed fun x hx => (hP x hx).2).caldFull fun x hx => (hP x hx).1

theorem ringPuntDrop (h : State.calm P s t) {r : Nat} (hP : ∀ x, P x = true → ownReg x = true) : State.calm P s (t.ringPuntDrop r) :=
  have h1 : State.calm P s ((t.setTf Pg.DMA 1 r 64 32 (t.tf Pg.DMA 1 r 64 32 + 1)).setInt Pg.DMA Ib.DMA_PUNT_DROP) := h.setTf.setInt hP (by decide)
  .ite h1 (h1.setOvf (pg := Pg.DMA) (o := 0x078) (fun x hx => ⟨hP x hx, fun e => absurd (hP x hx) (by rw [e]; decide)⟩) (by decide) (by decide) rfl)

theorem ringStop (h : State.calm P s t) {r : Nat} (hr : r < 64) (hP : ∀ x, P x = true → ownReg x = true ∧ x / 0x1000 ≠ 0x1012 ∧ x ≠ Rg.DMA_RING_CFG r) :
    State.calm P s (t.ringStop r) := by
  obtain ⟨-, -, hd, hi⟩ := ringCfg_place hr
  have hl : ∀ (l : List DmaItem), State.calm P s (l.foldl (fun (t : State) (i : DmaItem) =>
      if i.src ≤ 1 then (t.ringPuntDrop r).cald 0 (-(i.cells : Int)) 0 else t) t) := fun l =>
    h.trans (foldl (fun v i _ => .ite (((refl P v).ringPuntDrop fun x hx => (hP x hx).1).cald fun x hx => ⟨(hP x hx).1, (hP x hx).2.1⟩) (refl P v)) (refl P t))
  exact (hl _).setRing.setF (fun x hx => (hP x hx).2.2) hi hd

end State.calm

/-- A ring's entry is none of the interrupt map's. -/
theorem ringKey_ne {r : Nat} (hr : r < 64) (n : Nat) : tkey Pg.IRQ 0 n ≠ tkey Pg.DMA 1 r := fun e => by
  have he : (0x1093 * 64 + 0) * 2 ^ 32 + n = (0x1092 * 64 + 1) * 2 ^ 32 + r := e
  omega

namespace State.heard
variable {s t : State}

theorem setRing (h : State.heard s t) {r : Nat} (hr : r < 64) {x : RingSt} : State.heard s (t.setRing r x) :=
  (h.trans (ofParts (t := { t with rings := sset {} t.rings r x }) rfl rfl rfl rfl)).setTf (ringKey_ne hr)

theorem peak (h : State.heard s t) {a v : Nat} : State.heard s (t.peak a v) := .ite h.wr h

theorem cald (h : State.heard s t) {a l n : Int} : State.heard s (t.cald a l n) := by
  have hm : State.heard s (t.caldMove a l n) := h.wr.wr.wr
  rw [cald_eq]
  generalize t.caldMove a l n = u at *
  have hu : State.heard s (t.caldUsed u) := hm.wr.peak
  generalize t.caldUsed u = v at *
  exact hu.setIntIf.trans (ofParts rfl rfl rfl rfl)

theorem ringPuntDrop (h : State.heard s t) {r : Nat} (hr : r < 64) : State.heard s (t.ringPuntDrop r) :=
  .ite (h.setTf (ringKey_ne hr)).setInt (h.setTf (ringKey_ne hr)).setInt.setOvf

theorem ringStop (h : State.heard s t) {r : Nat} (hr : r < 64) : State.heard s (t.ringStop r) := by
  have hl : ∀ (l : List DmaItem), State.heard s (l.foldl (fun (t : State) (i : DmaItem) =>
      if i.src ≤ 1 then (t.ringPuntDrop r).cald 0 (-(i.cells : Int)) 0 else t) t) := fun l =>
    h.trans (foldl (fun v i _ => .ite ((refl v).ringPuntDrop hr).cald (refl v)) (refl t))
  exact ((hl _).setRing hr).setF

end State.heard

theorem ringStop_stopped (s : State) (r : Nat) : (s.ringStop r).fb (Rg.DMA_RING_CFG r) Fd.DMA_RING_CFG_STOPPED = true :=
  fb_setF_one _ _ _ (by decide) rfl

/-- A list of rings stopped: each stands STOPPED, and the other rings' registers stay. -/
theorem ringStop_other (s : State) {r q : Nat} (hr : r < 64) (hq : q < 64) (hne : r ≠ q) :
    (s.ringStop q).rd (Rg.DMA_RING_CFG r) = s.rd (Rg.DMA_RING_CFG r) := by
  obtain ⟨ho, hp, -⟩ := ringCfg_place hr
  have hx := ringCfg_ne hne
  generalize Rg.DMA_RING_CFG r = a at *
  exact ((State.calm.refl (· == a) s).ringStop hq fun x hx' => by
    rw [eq_of_beq hx']
    exact ⟨ho, by omega, hx⟩).rd _ (beq_self_eq_true _)

theorem ringsStop_other (l : List Nat) (hl : ∀ r ∈ l, r < 64) {r : Nat} (hr : r < 64) (h : r ∉ l) (s : State) :
    (l.foldl State.ringStop s).rd (Rg.DMA_RING_CFG r) = s.rd (Rg.DMA_RING_CFG r) := by
  induction l generalizing s with
  | nil => rfl
  | cons q l ih =>
    rw [List.mem_cons, not_or] at h
    rw [List.foldl_cons, ih (fun x hx => hl x (List.mem_cons_of_mem _ hx)) h.2]
    exact ringStop_other s hr (hl q List.mem_cons_self) h.1

theorem ringsStop_stopped (l : List Nat) (hl : ∀ r ∈ l, r < 64) {r : Nat} (h : r ∈ l) (s : State) :
    (l.foldl State.ringStop s).fb (Rg.DMA_RING_CFG r) Fd.DMA_RING_CFG_STOPPED = true := by
  induction l generalizing s with
  | nil => exact absurd h (by simp)
  | cons q l ih =>
    have hl' : ∀ x ∈ l, x < 64 := fun x hx => hl x (List.mem_cons_of_mem _ hx)
    rw [List.foldl_cons]
    by_cases hin : r ∈ l
    · exact ih hl' hin _
    · have he : r = q := by simpa [hin] using h
      subst he
      exact (fb_of_rd (ringsStop_other l hl' (hl r List.mem_cons_self) hin _) _).trans (ringStop_stopped s r)

/-! ## What a port loses with its link (R356) -/

/-- The rings of a port. -/
def State.portRings (s : State) (p : Nat) : List Nat := (List.range 64).filter fun r => s.f (Rg.DMA_RING_CFG r) Fd.DMA_RING_CFG_PORT == p

theorem portRings_lt {s : State} {p r : Nat} (h : r ∈ s.portRings p) : r < 64 := List.mem_range.1 (List.mem_filter.1 h).1

/-- The registers that a port's loss may change. -/
def portReg (x : Nat) : Bool := x / 0x1000 == 0x1012 || x / 0x1000 == 0x1092 || x == Rg.UPD_LOCK_STAT || x == Rg.CMT_STAT

theorem portReg_not {x : Nat} (h : portReg x = false) : x / 0x1000 ≠ 0x1012 ∧ x / 0x1000 ≠ 0x1092 ∧ x ≠ Rg.UPD_LOCK_STAT ∧ x ≠ Rg.CMT_STAT := by
  simp only [portReg, Bool.or_eq_false_iff, beq_eq_false_iff_ne, and_assoc] at h
  exact h

/-- The port's staging lock released. -/
def State.portUnlock (s : State) (p : Nat) : State :=
  if s.fb Rg.UPD_LOCK_STAT Fd.UPD_LOCK_STAT_HELD && s.f Rg.UPD_LOCK_STAT Fd.UPD_LOCK_STAT_OWNER == p then s.lockFree else s

/-- The port's stage left without an owner. -/
def State.portDisown (s : State) (p : Nat) : State :=
  if !s.fb Rg.CMT_STAT Fd.CMT_STAT_NO_OWNER && s.f Rg.CMT_STAT Fd.CMT_STAT_STATE != 0 && s.f Rg.CMT_STAT Fd.CMT_STAT_OWNER == p then
    s.setF Rg.CMT_STAT Fd.CMT_STAT_NO_OWNER 1
  else s

theorem portLoss_eq (s : State) (p : Nat) : s.portLoss p = (((s.portRings p).foldl State.ringStop s).portUnlock p).portDisown p := rfl

namespace State.calm
variable {P : Nat → Bool} {s t : State}

theorem ringsStop (h : State.calm P s t) {l : List Nat} (hl : ∀ r ∈ l, r < 64) (hP : ∀ x, P x = true → ownReg x = true ∧ x / 0x1000 ≠ 0x1012 ∧ x / 0x1000 ≠ 0x1092) :
    State.calm P s (l.foldl State.ringStop t) :=
  foldl (fun v r hr => (refl P v).ringStop (hl r hr) fun x hx => by
    obtain ⟨ho, h1, h2⟩ := hP x hx
    exact ⟨ho, h1, fun e => h2 (e ▸ (ringCfg_place (hl r hr)).2.1)⟩) h

theorem lockFree (h : State.calm P s t) (hP : ∀ x, P x = true → ownReg x = true ∧ x ≠ Rg.UPD_LOCK_STAT) : State.calm P s t.lockFree :=
  .ite ((h.setF (fun x hx => (hP x hx).2) (by decide) rfl).setInt (fun x hx => (hP x hx).1) (by decide)) h

theorem portUnlock (h : State.calm P s t) {p : Nat} (hP : ∀ x, P x = true → ownReg x = true ∧ x ≠ Rg.UPD_LOCK_STAT) : State.calm P s (t.portUnlock p) :=
  .ite (h.lockFree hP) h

theorem portDisown (h : State.calm P s t) {p : Nat} (hP : ∀ x, P x = true → x ≠ Rg.CMT_STAT) : State.calm P s (t.portDisown p) :=
  .ite (h.setF hP (by decide) rfl) h

theorem portLoss (h : State.calm P s t) {p : Nat} (hP : ∀ x, P x = true → ownReg x = true ∧ portReg x = false) : State.calm P s (t.portLoss p) := by
  rw [portLoss_eq]
  have hn := fun x hx => portReg_not (hP x hx).2
  exact ((h.ringsStop (fun r hr => portRings_lt hr) fun x hx => ⟨(hP x hx).1, (hn x hx).1, (hn x hx).2.1⟩).portUnlock fun x hx =>
    ⟨(hP x hx).1, (hn x hx).2.2.1⟩).portDisown fun x hx => (hn x hx).2.2.2

end State.calm

theorem heard_portLoss (s : State) (p : Nat) : State.heard s (s.portLoss p) := by
  rw [portLoss_eq]
  have h1 : State.heard s ((s.portRings p).foldl State.ringStop s) := .foldl (fun v r hr => (State.heard.refl v).ringStop (portRings_lt hr)) (.refl s)
  have h2 : State.heard s (((s.portRings p).foldl State.ringStop s).portUnlock p) := .ite (.ite h1.setF.setInt h1) h1
  exact .ite h2.setF h2

theorem portLoss_rings (s : State) (p : Nat) {r : Nat} (hr : r < 64) :
    (s.f (Rg.DMA_RING_CFG r) Fd.DMA_RING_CFG_PORT = p → (s.portLoss p).fb (Rg.DMA_RING_CFG r) Fd.DMA_RING_CFG_STOPPED = true) ∧
      (s.f (Rg.DMA_RING_CFG r) Fd.DMA_RING_CFG_PORT ≠ p → (s.portLoss p).rd (Rg.DMA_RING_CFG r) = s.rd (Rg.DMA_RING_CFG r)) := by
  obtain ⟨ho, hp, -⟩ := ringCfg_place hr
  have hne : ∀ a, a / 0x1000 ≠ 0x1092 → Rg.DMA_RING_CFG r ≠ a := fun a ha e => ha (e ▸ hp)
  have hc : State.calm (· == Rg.DMA_RING_CFG r) ((s.portRings p).foldl State.ringStop s) (s.portLoss p) := by
    rw [portLoss_eq]
    exact ((State.calm.refl (· == Rg.DMA_RING_CFG r) _).portUnlock fun x hx => eq_of_beq hx ▸ ⟨ho, hne _ (by decide)⟩).portDisown fun x hx => eq_of_beq hx ▸ hne _ (by decide)
  have hm : r ∈ s.portRings p ↔ s.f (Rg.DMA_RING_CFG r) Fd.DMA_RING_CFG_PORT = p := by
    simp [State.portRings, hr]
  have hrd := hc.rd _ (beq_self_eq_true _)
  exact ⟨fun h => (fb_of_rd hrd _).trans (ringsStop_stopped _ (fun r hr => portRings_lt hr) (hm.2 h) s),
    fun h => hrd.trans (ringsStop_other _ (fun r hr => portRings_lt hr) hr (fun hin => h (hm.1 hin)) s)⟩

/-- The staging lock after a port's loss: released where the port held it, else as it was. -/
theorem portLoss_lock (s : State) (p : Nat) :
    (s.f Rg.UPD_LOCK_STAT Fd.UPD_LOCK_STAT_OWNER = p → (s.portLoss p).fb Rg.UPD_LOCK_STAT Fd.UPD_LOCK_STAT_HELD = false) ∧
      (s.f Rg.UPD_LOCK_STAT Fd.UPD_LOCK_STAT_OWNER ≠ p → (s.portLoss p).rd Rg.UPD_LOCK_STAT = s.rd Rg.UPD_LOCK_STAT) := by
  have h1 : State.calm (· == Rg.UPD_LOCK_STAT) s ((s.portRings p).foldl State.ringStop s) :=
    (State.calm.refl _ s).ringsStop (fun r hr => portRings_lt hr) fun x hx => eq_of_beq hx ▸ by decide
  rw [portLoss_eq]
  have hrd := h1.rd _ (beq_self_eq_true _)
  generalize (s.portRings p).foldl State.ringStop s = u at *
  have h2 : ((u.portUnlock p).portDisown p).rd Rg.UPD_LOCK_STAT = (u.portUnlock p).rd Rg.UPD_LOCK_STAT :=
    ((State.calm.refl (· == Rg.UPD_LOCK_STAT) (u.portUnlock p)).portDisown fun x hx => eq_of_beq hx ▸ by decide).rd _ (beq_self_eq_true _)
  refine ⟨fun h => (fb_of_rd h2 _).trans ?_, fun h => h2.trans ?_⟩
  · unfold State.portUnlock State.lockFree
    rw [f_of_rd hrd, h, beq_self_eq_true, Bool.and_true]
    split
    · exact (fb_of_rd (rd_setInt_own rfl (by decide)) _).trans (fb_setF_zero _ _ _ (by decide) rfl)
    · next hh => exact Bool.not_eq_true _ ▸ hh
  · unfold State.portUnlock
    rw [f_of_rd hrd, beq_eq_false_iff_ne.2 h, Bool.and_false, if_neg (by decide), hrd]

theorem portLoss_stage (s : State) (p : Nat) :
    (s.f Rg.CMT_STAT Fd.CMT_STAT_STATE ≠ 0 → s.f Rg.CMT_STAT Fd.CMT_STAT_OWNER = p → (s.portLoss p).fb Rg.CMT_STAT Fd.CMT_STAT_NO_OWNER = true) ∧
      (s.portLoss p).cmtState = s.cmtState := by
  have h1 : State.calm (· == Rg.CMT_STAT) s (((s.portRings p).foldl State.ringStop s).portUnlock p) :=
    ((State.calm.refl (· == Rg.CMT_STAT) s).ringsStop (fun r hr => portRings_lt hr) fun x hx => eq_of_beq hx ▸ by decide).portUnlock fun x hx => eq_of_beq hx ▸ by decide
  rw [portLoss_eq]
  have hrd := h1.rd _ (beq_self_eq_true _)
  generalize ((s.portRings p).foldl State.ringStop s).portUnlock p = u at *
  refine ⟨fun h ho => ?_, ?_⟩
  · unfold State.portDisown
    rw [f_of_rd hrd, f_of_rd hrd, ho, beq_self_eq_true, Bool.and_true, bne_iff_ne.2 h, Bool.and_true]
    split
    · exact fb_setF_one _ _ _ (by decide) rfl
    · next hh =>
      rw [Bool.not_eq_true, Bool.not_eq_false'] at hh
      exact hh
  · unfold State.portDisown State.cmtState
    split
    · rw [f_setF_disjoint _ _ _ _ _ (by decide) (by decide), f_of_rd hrd]
    · exact f_of_rd hrd _

end Sys2Proof.Machine
end

section
/-! SUPPORT. Host ports: link loss, hot reset, FLR, link training, PERST_N, IRQ_REARM and MSI-X masks (R355 to R357, R362, R363). -/
namespace Sys2Proof.Machine

theorem pcieStat_place {p : Nat} (hp : p < 2) : ownReg (Rg.PCIE_STAT p) = true ∧ portReg (Rg.PCIE_STAT p) = false ∧ notDom (Rg.PCIE_STAT p) = true ∧
    Rg.PCIE_STAT p / 0x1000 = Pg.PCIE p / 0x1000 ∧ Rg.PCIE_STAT p % 0x1000 ≠ 0x010 ∧ Pg.PCIE p % 0x1000 = 0 := by
  interval_cases p <;> decide

theorem pcieCnt_place {p : Nat} (hp : p < 2) : ownReg (Rg.PCIE_LINK_DOWN_CNT p) = true ∧ portReg (Rg.PCIE_LINK_DOWN_CNT p) = false ∧
    notDom (Rg.PCIE_LINK_DOWN_CNT p) = true ∧ Rg.PCIE_LINK_DOWN_CNT p / 0x1000 = Pg.PCIE p / 0x1000 ∧ 0x100 ≤ Rg.PCIE_LINK_DOWN_CNT p % 0x1000 ∧
    Rg.PCIE_LINK_DOWN_CNT p % 0x1000 < 0x800 ∧ Rg.PCIE_LINK_DOWN_CNT p ≠ Rg.PCIE_STAT p := by
  interval_cases p <;> decide

/-! ## The link status -/

theorem setLink_f (s : State) {p up flit speed width : Nat} (hu : up < 2) (hf : flit < 2) (hs : speed < 16) (hw : width < 16) :
    (s.setLink p up flit speed width).f (Rg.PCIE_STAT p) Fd.PCIE_STAT_LINK_UP = up ∧
      (s.setLink p up flit speed width).f (Rg.PCIE_STAT p) Fd.PCIE_STAT_FLIT = flit ∧
      (s.setLink p up flit speed width).f (Rg.PCIE_STAT p) Fd.PCIE_STAT_SAFE = s.f (Rg.PCIE_STAT p) Fd.PCIE_STAT_SAFE ∧
      (s.setLink p up flit speed width).f (Rg.PCIE_STAT p) Fd.PCIE_STAT_SPEED = speed ∧
      (s.setLink p up flit speed width).f (Rg.PCIE_STAT p) Fd.PCIE_STAT_WIDTH = width := by
  have hsafe : s.f (Rg.PCIE_STAT p) Fd.PCIE_STAT_SAFE < 2 := bits_lt _ 29 1
  have hrd : (s.setLink p up flit speed width).rd (Rg.PCIE_STAT p) = _ := rd_wr_same _ _ _
  simp only [State.f, hrd] at hsafe ⊢
  generalize bits (s.rd (Rg.PCIE_STAT p)) Fd.PCIE_STAT_SAFE.lo Fd.PCIE_STAT_SAFE.w = x at *
  simp only [bits]
  refine ⟨?_, ?_, ?_, ?_, ?_⟩ <;> omega

theorem setLink_other (s : State) {p up flit speed width x : Nat} (hx : x ≠ Rg.PCIE_STAT p) : (s.setLink p up flit speed width).rd x = s.rd x :=
  rd_wr_other _ _ _ _ hx

theorem State.calm.setLink {P : Nat → Bool} {s t : State} (h : State.calm P s t) {p up flit speed width : Nat} (hp : p < 2)
    (hP : ∀ x, P x = true → x ≠ Rg.PCIE_STAT p) : State.calm P s (t.setLink p up flit speed width) :=
  h.wr hP (pcieStat_place hp).2.2.2.2.1 (pcieStat_place hp).2.2.1

/-! ## A link lost -/

theorem linkDown_idle {s : State} {p : Nat} (h : s.fb (Rg.PCIE_STAT p) Fd.PCIE_STAT_LINK_UP = false) : s.linkDown p = s := if_pos (by rw [h]; rfl)

theorem linkDown_eq {s : State} {p : Nat} (h : s.fb (Rg.PCIE_STAT p) Fd.PCIE_STAT_LINK_UP = true) :
    s.linkDown p = (((s.portLoss p).setLink p 0 0 0 0).bump (Rg.PCIE_LINK_DOWN_CNT p)).setInt (Pg.PCIE p) Ib.PCIE_LINK_CHANGE := if_neg (by rw [h]; decide)

/-- The registers that a link's loss may change. -/
def linkLostReg (p x : Nat) : Bool := portReg x || x == Rg.PCIE_STAT p || x == Rg.PCIE_LINK_DOWN_CNT p

theorem State.calm.linkDown {P : Nat → Bool} {s t : State} (h : State.calm P s t) {p : Nat} (hp : p < 2)
    (hP : ∀ x, P x = true → ownReg x = true ∧ linkLostReg p x = false) : State.calm P s (t.linkDown p) := by
  have hn : ∀ x, P x = true → portReg x = false ∧ x ≠ Rg.PCIE_STAT p ∧ x ≠ Rg.PCIE_LINK_DOWN_CNT p := fun x hx => by
    have := (hP x hx).2
    simp only [linkLostReg, Bool.or_eq_false_iff, beq_eq_false_iff_ne, and_assoc] at this
    exact this
  obtain ⟨-, -, hd, -, h1, h2, -⟩ := pcieCnt_place hp
  exact .ite h ((((h.portLoss fun x hx => ⟨(hP x hx).1, (hn x hx).1⟩).setLink hp fun x hx => (hn x hx).2.1).bump
    (fun x hx => ⟨(hP x hx).1, (hn x hx).2.2⟩) h1 h2 hd).setInt (fun x hx => (hP x hx).1) (pcieStat_place hp).2.2.2.2.2)

/-- What the loss of a link leaves of another page's register is what the port's loss leaves. -/
theorem rd_linkDown {s : State} {p x : Nat} (h : s.fb (Rg.PCIE_STAT p) Fd.PCIE_STAT_LINK_UP = true) (hp : p < 2) (ho : ownReg x = true)
    (hx : x / 0x1000 ≠ Pg.PCIE p / 0x1000) : (s.linkDown p).rd x = (s.portLoss p).rd x := by
  obtain ⟨-, -, -, hs, -, hg⟩ := pcieStat_place hp
  obtain ⟨-, -, -, hc, -, h2, -⟩ := pcieCnt_place hp
  rw [linkDown_eq h, rd_setInt_own ho hg, rd_bump_own ho h2 (fun e => hx (by rw [e, hc])), setLink_other _ (fun e => hx (by rw [e, hs]))]

theorem linkDown_status {s : State} {p : Nat} (h : s.fb (Rg.PCIE_STAT p) Fd.PCIE_STAT_LINK_UP = true) (hp : p < 2) (hon : s.pageOn (Pg.PCIE p / 0x1000) = true) :
    (s.linkDown p).fb (Rg.PCIE_STAT p) Fd.PCIE_STAT_LINK_UP = false ∧ (s.linkDown p).f (Rg.PCIE_STAT p) Fd.PCIE_STAT_SPEED = 0 ∧
      (s.linkDown p).f (Rg.PCIE_STAT p) Fd.PCIE_STAT_WIDTH = 0 ∧
      (s.linkDown p).f (Rg.PCIE_STAT p) Fd.PCIE_STAT_SAFE = s.f (Rg.PCIE_STAT p) Fd.PCIE_STAT_SAFE ∧
      (s.linkDown p).rd (Rg.PCIE_LINK_DOWN_CNT p) = (s.rd (Rg.PCIE_LINK_DOWN_CNT p) + 1) % 2 ^ 32 ∧
      bit ((s.linkDown p).rd (Pg.PCIE p + 0x010)) Ib.PCIE_LINK_CHANGE = true := by
  obtain ⟨so, sp, -, -, -, hg⟩ := pcieStat_place hp
  obtain ⟨co, cp, hd, hc, h1, h2, hne⟩ := pcieCnt_place hp
  have hl : State.calm (fun x => x == Rg.PCIE_STAT p || x == Rg.PCIE_LINK_DOWN_CNT p) s (s.portLoss p) := (State.calm.refl _ s).portLoss fun x hx => by
    rw [Bool.or_eq_true, beq_iff_eq, beq_iff_eq] at hx
    obtain rfl | rfl := hx
    · exact ⟨so, sp⟩
    · exact ⟨co, cp⟩
  have hsafe := f_of_rd (hl.rd (Rg.PCIE_STAT p) (by simp)) Fd.PCIE_STAT_SAFE
  have hcnt := hl.rd (Rg.PCIE_LINK_DOWN_CNT p) (by simp)
  have hpage := (hl.on _).trans hon
  rw [linkDown_eq h]
  generalize s.portLoss p = u at *
  obtain ⟨f1, -, f3, f4, f5⟩ := setLink_f u (p := p) (up := 0) (flit := 0) (speed := 0) (width := 0) (by decide) (by decide) (by decide) (by decide)
  have hv : State.calm (· == Rg.PCIE_LINK_DOWN_CNT p) u (u.setLink p 0 0 0 0) := (State.calm.refl _ u).setLink hp fun x hx => eq_of_beq hx ▸ hne
  have hvon := (hv.on _).trans hpage
  have hvcnt := (hv.rd _ (beq_self_eq_true _)).trans hcnt
  generalize u.setLink p 0 0 0 0 = v at *
  have hst : ((v.bump (Rg.PCIE_LINK_DOWN_CNT p)).setInt (Pg.PCIE p) Ib.PCIE_LINK_CHANGE).rd (Rg.PCIE_STAT p) = v.rd (Rg.PCIE_STAT p) :=
    (rd_setInt_own so hg).trans (rd_bump_own so h2 hne.symm)
  refine ⟨(fb_of_rd hst _).trans (by rw [State.fb, f1]; rfl), (f_of_rd hst _).trans f4, (f_of_rd hst _).trans f5, (f_of_rd hst _).trans (f3.trans hsafe), ?_, ?_⟩
  · rw [rd_setInt_own co hg, bump_rd_own v _ 1 co h1 h2 (by rw [hc]; exact hvon), hvcnt]
  · exact setInt_bit _ _ _ hg (by decide) ((bump_pageOn v _ _ _ h2 (notDom_ne hd)).trans hvon)

/-! ## Function Level Reset -/

/-- One source's enable for a port cleared in the interrupt map. -/
def State.unmapOne (p : Nat) (t : State) (n : Nat) : State := if bit (t.tbl Pg.IRQ 0 n) (30 + p) then t.setTf Pg.IRQ 0 n (30 + p) 1 0 else t

theorem unmapOne_rest (p : Nat) (t : State) (n : Nat) : (t.unmapOne p n).regs = t.regs ∧ (t.unmapOne p n).pcie0 = t.pcie0 ∧
    (t.unmapOne p n).pcie1 = t.pcie1 ∧ (t.unmapOne p n).part = t.part ∧ (t.unmapOne p n).pw = t.pw := by
  unfold State.unmapOne
  split <;> exact ⟨rfl, rfl, rfl, rfl, rfl⟩

/-- The enables of a port for a list of sources cleared. -/
def State.unmapped (s : State) (p : Nat) (l : List Nat) : State := l.foldl (State.unmapOne p) s

theorem unmapped_rest (p : Nat) (l : List Nat) (s : State) : (s.unmapped p l).regs = s.regs ∧ (s.unmapped p l).pcie0 = s.pcie0 ∧
    (s.unmapped p l).pcie1 = s.pcie1 ∧ (s.unmapped p l).part = s.part ∧ (s.unmapped p l).pw = s.pw := by
  induction l generalizing s with
  | nil => exact ⟨rfl, rfl, rfl, rfl, rfl⟩
  | cons n l ih =>
    obtain ⟨a, b, c, d, e⟩ := ih (s.unmapOne p n)
    obtain ⟨a', b', c', d', e'⟩ := unmapOne_rest p s n
    exact ⟨a.trans a', b.trans b', c.trans c', d.trans d', e.trans e'⟩

theorem unmapOne_map (p : Nat) (s : State) (n m : Nat) (hp : p < 2) : (m = n → bit ((s.unmapOne p n).tbl Pg.IRQ 0 m) (30 + p) = false) ∧
    (bit (s.tbl Pg.IRQ 0 m) (30 + p) = false → bit ((s.unmapOne p n).tbl Pg.IRQ 0 m) (30 + p) = false) ∧
    bits ((s.unmapOne p n).tbl Pg.IRQ 0 m) 0 30 = bits (s.tbl Pg.IRQ 0 m) 0 30 := by
  have hsame : (s.setTf Pg.IRQ 0 n (30 + p) 1 0).tbl Pg.IRQ 0 n = setBits (s.tbl Pg.IRQ 0 n) (30 + p) 1 0 := tbl_setTbl_same _ _ _ _ _
  by_cases he : m = n
  · subst he
    unfold State.unmapOne
    split
    · rw [hsame]
      have hz : bit (setBits (s.tbl Pg.IRQ 0 m) (30 + p) 1 0) (30 + p) = false := by
        rw [bit_eq_testBit, testBit_setBits, if_pos (by omega)]
        exact Nat.zero_testBit _
      exact ⟨fun _ => hz, fun _ => hz, bits_setBits_disjoint _ _ _ _ _ _ (.inr (by omega))⟩
    · next hb =>
      rw [Bool.not_eq_true] at hb
      exact ⟨fun _ => hb, id, rfl⟩
  · have ht : (s.unmapOne p n).tbl Pg.IRQ 0 m = s.tbl Pg.IRQ 0 m := by
      unfold State.unmapOne
      split
      · exact tblAt_setTbl_other _ _ _ _ _ _ fun e => he (Nat.add_left_cancel e)
      · rfl
    rw [ht]
    exact ⟨fun e => absurd e he, id, rfl⟩

theorem unmapped_map (p : Nat) (hp : p < 2) (l : List Nat) (s : State) (m : Nat) :
    (m ∈ l ∨ bit (s.tbl Pg.IRQ 0 m) (30 + p) = false → bit ((s.unmapped p l).tbl Pg.IRQ 0 m) (30 + p) = false) ∧
      bits ((s.unmapped p l).tbl Pg.IRQ 0 m) 0 30 = bits (s.tbl Pg.IRQ 0 m) 0 30 := by
  induction l generalizing s with
  | nil => exact ⟨fun h => h.resolve_left (by simp), rfl⟩
  | cons n l ih =>
    obtain ⟨h1, h2⟩ := ih (s.unmapOne p n)
    obtain ⟨g1, g2, g3⟩ := unmapOne_map p s n m hp
    refine ⟨fun h => h1 ?_, h2.trans g3⟩
    rw [List.mem_cons] at h
    obtain (h | h) | h := h
    · exact .inr (g1 h)
    · exact .inl h
    · exact .inr (g2 h)

/-- A port's MSI-X state as FLR leaves it. -/
def State.msixOff (s : State) (p : Nat) : State := s.setPcie p { s.pcie p with msixEn := false, fmask := false, vecs := [] }

theorem setPcie_rest (s : State) (p : Nat) (x : PcieSt) : (s.setPcie p x).regs = s.regs ∧ (s.setPcie p x).part = s.part ∧ (s.setPcie p x).pw = s.pw ∧
    (s.setPcie p x).tbls = s.tbls ∧ (s.setPcie p x).out = s.out := by
  unfold State.setPcie
  split <;> exact ⟨rfl, rfl, rfl, rfl, rfl⟩

theorem rd_setPcie (s : State) (p : Nat) (x : PcieSt) (y : Nat) : (s.setPcie p x).rd y = s.rd y := by
  obtain ⟨h1, h2, -⟩ := setPcie_rest s p x
  exact rd_congr h2 h1 y

/-- FLR before its count: the page of the port at its reset values but for the link status. -/
def State.flrClear (s : State) (p : Nat) : State :=
  (((((s.portLoss p).msixOff p).unmapped p (List.range 640)).dropRegs fun x => x / 0x1000 != Pg.PCIE p / 0x1000).wr (Rg.PCIE_STAT p)
    ((((s.portLoss p).msixOff p).unmapped p (List.range 640)).rd (Rg.PCIE_STAT p)))

theorem dropRegs_rest (s : State) (q : Nat → Bool) : (s.dropRegs q).tbls = s.tbls ∧ (s.dropRegs q).part = s.part ∧ (s.dropRegs q).pw = s.pw ∧
    (s.dropRegs q).pcie0 = s.pcie0 ∧ (s.dropRegs q).pcie1 = s.pcie1 := ⟨rfl, rfl, rfl, rfl, rfl⟩

theorem flr_eq (s : State) (p : Nat) : s.flr p = (s.flrClear p).bump (Rg.PCIE_LINK_DOWN_CNT p) := rfl

theorem rd_unmapped (s : State) (p : Nat) (x : Nat) : (((s.portLoss p).msixOff p).unmapped p (List.range 640)).rd x = (s.portLoss p).rd x := by
  obtain ⟨h1, -, -, h2, -⟩ := unmapped_rest p (List.range 640) ((s.portLoss p).msixOff p)
  rw [rd_congr h2 h1 x]
  exact rd_setPcie _ _ _ _

theorem rd_flrClear (s : State) (p : Nat) {x : Nat} (hx : x ≠ Rg.PCIE_STAT p) :
    (s.flrClear p).rd x = if x / 0x1000 = Pg.PCIE p / 0x1000 then regReset s.part x else (s.portLoss p).rd x := by
  obtain ⟨-, -, -, h2, -⟩ := unmapped_rest p (List.range 640) ((s.portLoss p).msixOff p)
  have hpart : (((s.portLoss p).msixOff p).unmapped p (List.range 640)).part = s.part :=
    h2.trans ((setPcie_rest _ _ _).2.1.trans ((State.calm.refl noReg s).portLoss (p := p) fun _ h => absurd h Bool.false_ne_true).part)
  rw [State.flrClear, rd_wr_other _ _ _ _ hx, rd_dropRegs, hpart, rd_unmapped]
  by_cases h : x / 0x1000 = Pg.PCIE p / 0x1000 <;> simp [h]

/-- A page dropped and one of its registers kept. -/
def State.pageDropped (u : State) (q : Nat → Bool) (a : Nat) : State := (u.dropRegs q).wr a (u.rd a)

theorem pageDropped_rest (u : State) (q : Nat → Bool) (a : Nat) : (u.pageDropped q a).tbls = u.tbls ∧ (u.pageDropped q a).part = u.part ∧
    (u.pageDropped q a).pw = u.pw ∧ (u.pageDropped q a).pcie0 = u.pcie0 ∧ (u.pageDropped q a).pcie1 = u.pcie1 := by
  obtain ⟨d1, d2, d3, d4, d5⟩ := dropRegs_rest u q
  exact ⟨(State.wr_tbls ..).trans d1, (State.wr_part ..).trans d2, (State.wr_pw ..).trans d3, (State.wr_pcie0 ..).trans d4, (State.wr_pcie1 ..).trans d5⟩

theorem pcie_of {s t : State} (h0 : t.pcie0 = s.pcie0) (h1 : t.pcie1 = s.pcie1) (p : Nat) : t.pcie p = s.pcie p := by rw [State.pcie, State.pcie, h0, h1]

theorem msixOff_congr {x y : PcieSt} (h : x.perst = y.perst) :
    ({ x with msixEn := false, fmask := false, vecs := [] } : PcieSt) = { y with msixEn := false, fmask := false, vecs := [] } :=
  congrArg (fun b => ({ perst := b } : PcieSt)) h

theorem flrClear_rest (s : State) (p : Nat) (hp : p < 2) :
    (s.flrClear p).pcie p = { s.pcie p with msixEn := false, fmask := false, vecs := [] } ∧
      (∀ n, (s.flrClear p).tbl Pg.IRQ 0 n = (((s.portLoss p).msixOff p).unmapped p (List.range 640)).tbl Pg.IRQ 0 n) ∧
      (∀ g, (s.flrClear p).pageOn g = s.pageOn g) := by
  obtain ⟨h1, h2, h3, h4, h5⟩ := unmapped_rest p (List.range 640) ((s.portLoss p).msixOff p)
  obtain ⟨d1, d2, d3, d4, d5⟩ := pageDropped_rest (((s.portLoss p).msixOff p).unmapped p (List.range 640)) (fun x => x / 0x1000 != Pg.PCIE p / 0x1000) (Rg.PCIE_STAT p)
  have hc := (State.calm.refl noReg s).portLoss (p := p) fun _ h => absurd h Bool.false_ne_true
  obtain ⟨-, -, hperst⟩ := (heard_portLoss s p).port p
  obtain ⟨-, r2, r3, -⟩ := setPcie_rest (s.portLoss p) p { (s.portLoss p).pcie p with msixEn := false, fmask := false, vecs := [] }
  have hoff : ((s.portLoss p).msixOff p).pcie p = { s.pcie p with msixEn := false, fmask := false, vecs := [] } := by
    unfold State.msixOff
    rw [pcie_setPcie _ _ _ _ hp hp, if_pos rfl]
    exact msixOff_congr hperst
  refine ⟨(pcie_of d4 d5 p).trans ((pcie_of h2 h3 p).trans hoff), tbl_of_tbls d1 d2 _ _, fun g => ?_⟩
  refine (pageOn_of_rd (s := s.portLoss p) (d2.trans (h4.trans r2)) (d3.trans (h5.trans r3)) (fun d w hd hw => ?_) g).trans (hc.on g)
  have hne : ∀ d ∈ [0, 1], ∀ w ∈ [0, 1], ∀ q ∈ [0, 1], Rg.PWR_DOM_STAT d w ≠ Rg.PCIE_STAT q ∧
      Rg.PWR_DOM_STAT d w / 0x1000 ≠ Pg.PCIE q / 0x1000 := by decide
  obtain ⟨n1, n2⟩ := hne d (by simp; omega) w (by simp; omega) p (by simp; omega)
  exact (rd_flrClear s p n1).trans (if_neg n2)

theorem flr_shows {s : State} {p : Nat} (hp : p < 2) (hon : s.pageOn (Pg.PCIE p / 0x1000) = true) :
    (s.flr p).pcie p = { s.pcie p with msixEn := false, fmask := false, vecs := [] } ∧ (s.flr p).rd (Rg.PCIE_LINK_DOWN_CNT p) = 1 ∧
      (s.flr p).f (Rg.PCIE_STAT p) Fd.PCIE_STAT_SAFE = s.f (Rg.PCIE_STAT p) Fd.PCIE_STAT_SAFE ∧
      (s.flr p).rd (Rg.PCIE_USER_WR_CNT p) = 0 ∧ (s.flr p).rd (Pg.PCIE p + 0x010) = 0 ∧
      (∀ n, n < 640 → bit ((s.flr p).tbl Pg.IRQ 0 n) (30 + p) = false ∧ bits ((s.flr p).tbl Pg.IRQ 0 n) 0 30 = bits (s.tbl Pg.IRQ 0 n) 0 30) ∧
      (∀ r, r < 64 → s.f (Rg.DMA_RING_CFG r) Fd.DMA_RING_CFG_PORT = p → (s.flr p).fb (Rg.DMA_RING_CFG r) Fd.DMA_RING_CFG_STOPPED = true) ∧
      (s.f Rg.UPD_LOCK_STAT Fd.UPD_LOCK_STAT_OWNER = p → (s.flr p).fb Rg.UPD_LOCK_STAT Fd.UPD_LOCK_STAT_HELD = false) := by
  obtain ⟨co, -, -, hc, -, -, hne⟩ := pcieCnt_place hp
  obtain ⟨f1, f2, f3⟩ := flrClear_rest s p hp
  have hz : ∀ q : Part, regReset q (Rg.PCIE_LINK_DOWN_CNT p) = 0 ∧ regReset q (Rg.PCIE_USER_WR_CNT p) = 0 ∧ regReset q (Pg.PCIE p + 0x010) = 0 ∧
      Rg.PCIE_USER_WR_CNT p ≠ Rg.PCIE_STAT p ∧ Pg.PCIE p + 0x010 ≠ Rg.PCIE_STAT p ∧ Rg.PCIE_USER_WR_CNT p ≠ Rg.PCIE_LINK_DOWN_CNT p ∧
      Pg.PCIE p + 0x010 ≠ Rg.PCIE_LINK_DOWN_CNT p ∧ Rg.PCIE_USER_WR_CNT p / 0x1000 = Pg.PCIE p / 0x1000 ∧
      (Pg.PCIE p + 0x010) / 0x1000 = Pg.PCIE p / 0x1000 ∧ 0x1092 ≠ Pg.PCIE p / 0x1000 ∧ Rg.UPD_LOCK_STAT / 0x1000 ≠ Pg.PCIE p / 0x1000 := fun q => by
    interval_cases p <;> cases q <;> decide
  obtain ⟨z1, z2, z3, n2, n3, m2, m3, p2, p3, pd, pu⟩ := hz s.part
  have hcnt : (s.flrClear p).rd (Rg.PCIE_LINK_DOWN_CNT p) = 0 := by rw [rd_flrClear s p hne, if_pos hc, z1]
  have heq : s.flr p = (s.flrClear p).wr (Rg.PCIE_LINK_DOWN_CNT p) 1 := by
    rw [flr_eq, State.bump, hc, f3, hon, if_neg (by decide)]
    simp only [hcnt]
    rw [if_pos (by decide)]
  have hother : ∀ x, x ≠ Rg.PCIE_LINK_DOWN_CNT p → (s.flr p).rd x = (s.flrClear p).rd x := fun x hx => by rw [heq, rd_wr_other _ _ _ _ hx]
  have hsafe : (s.portLoss p).rd (Rg.PCIE_STAT p) = s.rd (Rg.PCIE_STAT p) :=
    ((State.calm.refl (· == Rg.PCIE_STAT p) s).portLoss fun x hx => eq_of_beq hx ▸ ⟨(pcieStat_place hp).1, (pcieStat_place hp).2.1⟩).rd _ (beq_self_eq_true _)
  refine ⟨?_, (by rw [heq, rd_wr_same]; rfl), ?_, by rw [hother _ m2, rd_flrClear s p n2, if_pos p2, z2], by rw [hother _ m3, rd_flrClear s p n3, if_pos p3, z3],
    fun n hn => ?_, fun r hr h => ?_, fun h => ?_⟩
  · rw [heq, ← f1, State.pcie, State.pcie, State.wr_pcie0, State.wr_pcie1]
  · rw [State.f, hother _ hne.symm, State.flrClear, rd_wr_same, rd_unmapped, hsafe, bits_mod _ _ _ _ (by decide), State.f]
  · have ht : (s.flr p).tbl Pg.IRQ 0 n = (s.flrClear p).tbl Pg.IRQ 0 n := by
      rw [heq]
      exact tbl_of_tbls (State.wr_tbls ..) (State.wr_part ..) _ _ _
    obtain ⟨u1, u2⟩ := unmapped_map p hp (List.range 640) ((s.portLoss p).msixOff p) n
    obtain ⟨-, q2, -, q4, -⟩ := setPcie_rest (s.portLoss p) p { (s.portLoss p).pcie p with msixEn := false, fmask := false, vecs := [] }
    rw [ht, f2 n]
    exact ⟨u1 (.inl (List.mem_range.2 hn)), u2.trans (by rw [State.msixOff, tbl_of_tbls q4 q2, (heard_portLoss s p).map])⟩
  · obtain ⟨-, hp2, -⟩ := ringCfg_place hr
    have hnp : Rg.DMA_RING_CFG r / 0x1000 ≠ Pg.PCIE p / 0x1000 := by rw [hp2]; exact pd
    refine (fb_of_rd ?_ _).trans ((portLoss_rings s p hr).1 h)
    rw [hother _ fun e => hnp (by rw [e, hc]), rd_flrClear s p (fun e => hnp (by rw [e, (pcieStat_place hp).2.2.2.1])), if_neg hnp]
  · refine (fb_of_rd ?_ _).trans ((portLoss_lock s p).1 h)
    rw [hother _ fun e => pu (by rw [e, hc]), rd_flrClear s p (fun e => pu (by rw [e, (pcieStat_place hp).2.2.2.1])), if_neg pu]

/-! ## Messages of a port (R362, R363) -/

theorem sendMsg_masked {s : State} {p vec : Nat} (h : (s.pcie p).fmask = true ∨ (sget {} (s.pcie p).vecs vec).mask = true) :
    s.sendMsg p vec = s.setPcie p { s.pcie p with vecs := sset {} (s.pcie p).vecs vec { sget {} (s.pcie p).vecs vec with pending := true } } :=
  if_pos (by obtain h | h := h <;> simp [h])

theorem sendMsg_sent {s : State} {p vec : Nat} (hp : p < 2) (hf : (s.pcie p).fmask = false) (hm : (sget {} (s.pcie p).vecs vec).mask = false) :
    (s.sendMsg p vec).out = .msix p vec (sget {} (s.pcie p).vecs vec).addr (sget {} (s.pcie p).vecs vec).data :: s.out ∧
      (s.sendMsg p vec).pcie0 = s.pcie0 ∧ (s.sendMsg p vec).pcie1 = s.pcie1 ∧
      (s.sendMsg p vec).rd (Rg.IRQ_MSG_CNT p) = (s.rd (Rg.IRQ_MSG_CNT p) + 1) % 2 ^ 32 := by
  have hne : ∀ w, w < 14 → Rg.IRQ_MSG_CNT p ≠ Pg.IRQ + 0x040 + 4 * w ∧ Rg.IRQ_MSG_CNT p ≠ Pg.IRQ + 0x010 ∧ Rg.IRQ_MSG_CNT p ≠ Pg.IRQ + 0x01C := fun w hw => by
    have h1 : Rg.IRQ_MSG_CNT p = 0x1093000 + 0x1C0 + 0x4 * p := rfl
    have h2 : Pg.IRQ = 0x1093000 := rfl
    omega
  unfold State.sendMsg
  simp only []
  rw [if_neg (by simp [hf, hm])]
  generalize (sget {} (s.pcie p).vecs vec) = v
  have hraw : ∀ (u : State) g m, (u.setIntRaw g m).out = u.out ∧ (u.setIntRaw g m).pcie0 = u.pcie0 ∧ (u.setIntRaw g m).pcie1 = u.pcie1 ∧
      ∀ x, x ≠ g + 0x010 → x ≠ g + 0x01C → (u.setIntRaw g m).rd x = u.rd x := fun u g m => by
    unfold State.setIntRaw
    simp only []
    split
    · exact ⟨by rw [State.wr_out, State.wr_out], by rw [State.wr_pcie0, State.wr_pcie0], by rw [State.wr_pcie1, State.wr_pcie1], fun x h1 h2 => by
        rw [rd_wr_other _ _ _ _ h2, rd_wr_other _ _ _ _ h1]⟩
    · exact ⟨State.wr_out .., State.wr_pcie0 .., State.wr_pcie1 .., fun x h1 _ => rd_wr_other _ _ _ _ h1⟩
  split
  · exact ⟨rfl, rfl, rfl, (rd_emit _ _ _).trans (rd_wr_same _ _ _)⟩
  · obtain ⟨n1, n2, n3⟩ := hne _ (ovfPlace_irq p (by omega))
    obtain ⟨r1, r2, r3, r4⟩ := hraw (((s.wr (Rg.IRQ_MSG_CNT p) (s.rd (Rg.IRQ_MSG_CNT p) + 1)).emit (.msix p vec v.addr v.data)).wr
      (Pg.IRQ + 0x040 + 4 * (ovfPlace (Rg.IRQ_MSG_CNT p)).1) (setBit (((s.wr (Rg.IRQ_MSG_CNT p) (s.rd (Rg.IRQ_MSG_CNT p) + 1)).emit
        (.msix p vec v.addr v.data)).rd (Pg.IRQ + 0x040 + 4 * (ovfPlace (Rg.IRQ_MSG_CNT p)).1)) (ovfPlace (Rg.IRQ_MSG_CNT p)).2)) Pg.IRQ (2 ^ 28)
    refine ⟨r1.trans ?_, r2.trans ?_, r3.trans ?_, (r4 _ n2 n3).trans ?_⟩
    · rw [State.wr_out]
      rfl
    · rw [State.wr_pcie0]
      rfl
    · rw [State.wr_pcie1]
      rfl
    · rw [rd_wr_other _ _ _ _ n1]
      exact (rd_emit _ _ _).trans (rd_wr_same _ _ _)

theorem ringDue_rest (s : State) (l : List Nat) : ({ s with ringDue := l } : State).out = s.out ∧ ({ s with ringDue := l } : State).regs = s.regs ∧
    ({ s with ringDue := l } : State).part = s.part ∧ ({ s with ringDue := l } : State).pcie0 = s.pcie0 ∧ ({ s with ringDue := l } : State).pcie1 = s.pcie1 :=
  ⟨rfl, rfl, rfl, rfl, rfl⟩

theorem rings_rest (s : State) (l : Sparse RingSt) : ({ s with rings := l } : State).out = s.out ∧ ({ s with rings := l } : State).regs = s.regs ∧
    ({ s with rings := l } : State).part = s.part ∧ ({ s with rings := l } : State).pcie0 = s.pcie0 ∧ ({ s with rings := l } : State).pcie1 = s.pcie1 :=
  ⟨rfl, rfl, rfl, rfl, rfl⟩

theorem setRing_rest (s : State) (r : Nat) (x : RingSt) : (s.setRing r x).out = s.out ∧ (s.setRing r x).regs = s.regs ∧
    (s.setRing r x).part = s.part ∧ (s.setRing r x).pcie0 = s.pcie0 ∧ (s.setRing r x).pcie1 = s.pcie1 := by
  obtain ⟨h1, h2, h3, h4, h5⟩ := rings_rest s (sset {} s.rings r x)
  unfold State.setRing
  generalize ({ s with rings := sset {} s.rings r x } : State) = u at *
  exact ⟨(State.setTf_out ..).trans h1, (State.setTf_regs ..).trans h2, (State.setTf_part ..).trans h3, (State.setTf_pcie0 ..).trans h4,
    (State.setTf_pcie1 ..).trans h5⟩

theorem ringSignalled_rest (s : State) (r : Nat) : (s.ringSignalled r).out = s.out ∧ (s.ringSignalled r).regs = s.regs ∧ (s.ringSignalled r).part = s.part ∧
    (s.ringSignalled r).pcie0 = s.pcie0 ∧ (s.ringSignalled r).pcie1 = s.pcie1 := by
  obtain ⟨h1, h2, h3, h4, h5⟩ := setRing_rest s r { s.ring r with done := 0 }
  unfold State.ringSignalled
  generalize s.setRing r { s.ring r with done := 0 } = u at *
  obtain ⟨g1, g2, g3, g4, g5⟩ := ringDue_rest u (s.ringDue.filter (· != r))
  exact ⟨g1.trans h1, g2.trans h2, g3.trans h3, g4.trans h4, g5.trans h5⟩

theorem ringsSignalled_rest (l : List Nat) (s : State) : (l.foldl (fun t n => t.ringSignalled (n - 512)) s).out = s.out ∧
    (l.foldl (fun t n => t.ringSignalled (n - 512)) s).regs = s.regs ∧ (l.foldl (fun t n => t.ringSignalled (n - 512)) s).part = s.part ∧
    (l.foldl (fun t n => t.ringSignalled (n - 512)) s).pcie0 = s.pcie0 ∧ (l.foldl (fun t n => t.ringSignalled (n - 512)) s).pcie1 = s.pcie1 := by
  induction l generalizing s with
  | nil => exact ⟨rfl, rfl, rfl, rfl, rfl⟩
  | cons n l ih =>
    obtain ⟨a, b, c, d, e⟩ := ih (s.ringSignalled (n - 512))
    obtain ⟨a', b', c', d', e'⟩ := ringSignalled_rest s (n - 512)
    exact ⟨a.trans a', b.trans b', c.trans c', d.trans d', e.trans e'⟩

theorem rearm_eq {s : State} {v p vec : Nat} (hp : p = v / 256 % 2) (hv : vec = v % 256) : s.rearm v =
    if ((s.vecSources p vec).filter s.irqSrc).isEmpty || !s.msixLive p then s
    else (((s.vecSources p vec).filter s.irqSrc).filter fun n => decide (512 ≤ n ∧ n < 576)).foldl (fun t n => t.ringSignalled (n - 512)) (s.sendMsg p vec) := by
  subst hp hv
  rfl

theorem rearm_shows {s : State} {v p vec : Nat} (hp : p = v / 256 % 2) (hv : vec = v % 256) :
    (s.msixLive p = false ∨ (∀ n ∈ s.vecSources p vec, s.irqSrc n = false) → s.rearm v = s) ∧
    (s.msixLive p = true → (∃ n ∈ s.vecSources p vec, s.irqSrc n = true) →
      ((s.pcie p).fmask = false → (sget {} (s.pcie p).vecs vec).mask = false →
        (s.rearm v).out = .msix p vec (sget {} (s.pcie p).vecs vec).addr (sget {} (s.pcie p).vecs vec).data :: s.out ∧
        (s.rearm v).rd (Rg.IRQ_MSG_CNT p) = (s.rd (Rg.IRQ_MSG_CNT p) + 1) % 2 ^ 32) ∧
      ((s.pcie p).fmask = true ∨ (sget {} (s.pcie p).vecs vec).mask = true →
        (s.rearm v).out = s.out ∧ (s.rearm v).regs = s.regs ∧ (sget {} ((s.rearm v).pcie p).vecs vec).pending = true)) := by
  have hlt : p < 2 := by omega
  rw [rearm_eq hp hv]
  refine ⟨fun h => if_pos ?_, fun hl hs => ?_⟩
  · obtain h | h := h
    · simp [h]
    · have : (s.vecSources p vec).filter s.irqSrc = [] := by
        rw [List.filter_eq_nil_iff]
        exact fun n hn => by rw [h n hn]; decide
      rw [this]
      rfl
  · have hne : ((s.vecSources p vec).filter s.irqSrc).isEmpty = false := by
      obtain ⟨n, hn, hs⟩ := hs
      rw [List.isEmpty_eq_false_iff_exists_mem]
      exact ⟨n, List.mem_filter.2 ⟨hn, hs⟩⟩
    rw [hne, hl, if_neg (by decide)]
    obtain ⟨q1, q2, q3, q4, q5⟩ := ringsSignalled_rest (((s.vecSources p vec).filter s.irqSrc).filter fun n => decide (512 ≤ n ∧ n < 576)) (s.sendMsg p vec)
    generalize (((s.vecSources p vec).filter s.irqSrc).filter fun n => decide (512 ≤ n ∧ n < 576)).foldl (fun t n => t.ringSignalled (n - 512)) (s.sendMsg p vec) = w at *
    refine ⟨fun hf hm => ?_, fun h => ?_⟩
    · obtain ⟨m1, -, -, m4⟩ := sendMsg_sent hlt hf hm
      exact ⟨q1.trans m1, (rd_congr q3 q2 _).trans m4⟩
    · have hx := sendMsg_masked h
      obtain ⟨r1, -, -, -, r5⟩ := setPcie_rest s p { s.pcie p with vecs := sset {} (s.pcie p).vecs vec { sget {} (s.pcie p).vecs vec with pending := true } }
      rw [← hx] at r1 r5
      refine ⟨q1.trans r5, q2.trans r1, ?_⟩
      rw [pcie_of q4 q5, hx, pcie_setPcie _ _ _ _ hlt hlt, if_pos rfl]
      exact congrArg MsixVec.pending (sget_sset_same _ _ _ _)

/-! ## MSI-X masks (R357, R362) -/

/-- One pending vector's message sent. -/
def State.flushOne (p : Nat) (t : State) (e : Nat × MsixVec) : State :=
  (t.setPcie p { t.pcie p with vecs := sset {} (t.pcie p).vecs e.1 { e.2 with pending := false } }).sendMsg p e.1

theorem flushOne_shows (t : State) {p : Nat} (e : Nat × MsixVec) (hp : p < 2) (hf : (t.pcie p).fmask = false) (hm : e.2.mask = false) :
    (t.flushOne p e).pcie p = { t.pcie p with vecs := sset {} (t.pcie p).vecs e.1 { e.2 with pending := false } } ∧
      (t.flushOne p e).out = .msix p e.1 e.2.addr e.2.data :: t.out := by
  have hx := pcie_setPcie t p p { t.pcie p with vecs := sset {} (t.pcie p).vecs e.1 { e.2 with pending := false } } hp hp
  rw [if_pos rfl] at hx
  have hv : sget {} ((t.setPcie p { t.pcie p with vecs := sset {} (t.pcie p).vecs e.1 { e.2 with pending := false } }).pcie p).vecs e.1 =
      { e.2 with pending := false } := by
    rw [hx]
    exact sget_sset_same _ _ _ _
  obtain ⟨m1, m2, m3, -⟩ := sendMsg_sent (s := t.setPcie p { t.pcie p with vecs := sset {} (t.pcie p).vecs e.1 { e.2 with pending := false } }) (vec := e.1) hp
    (by rw [hx]; exact hf) (by rw [hv]; exact hm)
  rw [hv] at m1
  exact ⟨(pcie_of m2 m3 p).trans hx, m1.trans (by rw [(setPcie_rest t p _).2.2.2.2])⟩

/-- The pending vectors of a port sent one after another: the entry of vector `k`, which is `v` wherever it is listed, keeps its mask and its message. -/
theorem flush_shows (l : List (Nat × MsixVec)) (t : State) {p k : Nat} {v : MsixVec} (hp : p < 2) (hf : (t.pcie p).fmask = false)
    (hl : ∀ e ∈ l, e.2.mask = false) (hk : ∀ e ∈ l, e.1 = k → e.2 = v) :
    ((l.foldl (State.flushOne p) t).pcie p).msixEn = (t.pcie p).msixEn ∧ ((l.foldl (State.flushOne p) t).pcie p).fmask = false ∧
      ((l.foldl (State.flushOne p) t).pcie p).perst = (t.pcie p).perst ∧
      (sget {} ((l.foldl (State.flushOne p) t).pcie p).vecs k = sget {} (t.pcie p).vecs k ∨
        sget {} ((l.foldl (State.flushOne p) t).pcie p).vecs k = { v with pending := false }) ∧
      (∀ m ∈ t.out, m ∈ (l.foldl (State.flushOne p) t).out) ∧
      (k ∈ l.map (·.1) → sget {} ((l.foldl (State.flushOne p) t).pcie p).vecs k = { v with pending := false } ∧
        Emit.msix p k v.addr v.data ∈ (l.foldl (State.flushOne p) t).out) := by
  induction l generalizing t with
  | nil => exact ⟨rfl, hf, rfl, .inl rfl, fun _ h => h, fun h => absurd h (by simp)⟩
  | cons e l ih =>
    obtain ⟨s1, s2⟩ := flushOne_shows t e hp hf (hl e List.mem_cons_self)
    obtain ⟨a, b, c, d, o, m⟩ := ih (t.flushOne p e) (by rw [s1]; exact hf) (fun x hx => hl x (List.mem_cons_of_mem _ hx)) fun x hx => hk x (List.mem_cons_of_mem _ hx)
    rw [List.foldl_cons]
    have hother : e.1 ≠ k → sget {} ((t.flushOne p e).pcie p).vecs k = sget {} (t.pcie p).vecs k := fun h => by
      rw [s1]
      exact sget_sset_other _ _ _ _ _ _ (Ne.symm h)
    have hsame : e.1 = k → sget {} ((t.flushOne p e).pcie p).vecs k = { v with pending := false } := fun h => by
      rw [s1, ← hk e List.mem_cons_self h, ← h]
      exact sget_sset_same _ _ _ _
    refine ⟨a.trans (by rw [s1]), b, c.trans (by rw [s1]), ?_, fun x hx => o x (by rw [s2]; exact List.mem_cons_of_mem _ hx), fun hm => ?_⟩
    · by_cases he : e.1 = k
      · exact .inr (d.elim (fun h => h.trans (hsame he)) id)
      · exact d.imp (fun h => h.trans (hother he)) id
    · by_cases hin : k ∈ l.map (·.1)
      · exact m hin
      · have he : e.1 = k := by
          rw [List.map_cons, List.mem_cons] at hm
          exact (hm.resolve_right hin).symm
        refine ⟨d.elim (fun h => h.trans (hsame he)) id, o _ ?_⟩
        rw [s2, ← hk e List.mem_cons_self he, ← he]
        exact List.mem_cons_self

/-- In a map with a key set, that key is listed with its value alone. -/
theorem mem_sset {α : Type} [DecidableEq α] {d : α} {m : Sparse α} {k : Nat} {v : α} {e : Nat × α} (h : e ∈ sset d m k v) (he : e.1 = k) : e.2 = v := by
  unfold sset at h
  split at h
  · exact absurd he ((mem_sdel _ _ _).1 h).2
  · obtain rfl | h := (mem_sins _ _ _ _).1 h
    · rfl
    · exact absurd he ((mem_sdel _ _ _).1 h).2

theorem sset_mem {α : Type} [DecidableEq α] {d : α} (m : Sparse α) (k : Nat) {v : α} (h : v ≠ d) : (k, v) ∈ sset d m k v := by
  rw [sset, if_neg h]
  exact (mem_sins _ _ _ _).2 (.inl rfl)

/-- A vector as the host leaves it. -/
def MsixVec.hostSet (v : MsixVec) (mask : Bool) (addr data : Nat) : MsixVec := { v with mask := mask, addr := addr % 2 ^ 64, data := data % 2 ^ 32 }

/-- A port's MSI-X state as the host leaves it. -/
def PcieSt.hostSet (x : PcieSt) (en fm : Bool) (k : Nat) (mask : Bool) (addr data : Nat) : PcieSt :=
  { x with msixEn := en, fmask := fm, vecs := sset {} x.vecs k ((sget {} x.vecs k).hostSet mask addr data) }

theorem msixMask_eq (s : State) (p : Nat) (en fm : Bool) (vec : Nat) (mask : Bool) (addr data : Nat) :
    s.msixMask p en fm vec mask addr data = (s.setPcie p ((s.pcie p).hostSet en fm (vec % 256) mask addr data)).msixFlush p := rfl

theorem msixMask_shows (s : State) {p vec addr data : Nat} {en fm mask : Bool} (hp : p < 2) :
    ((s.msixMask p en fm vec mask addr data).pcie p).msixEn = en ∧ ((s.msixMask p en fm vec mask addr data).pcie p).fmask = fm ∧
    ((s.msixMask p en fm vec mask addr data).pcie p).perst = (s.pcie p).perst ∧
    (sget {} ((s.msixMask p en fm vec mask addr data).pcie p).vecs (vec % 256)).mask = mask ∧
    (sget {} ((s.msixMask p en fm vec mask addr data).pcie p).vecs (vec % 256)).addr = addr % 2 ^ 64 ∧
    (sget {} ((s.msixMask p en fm vec mask addr data).pcie p).vecs (vec % 256)).data = data % 2 ^ 32 ∧
    (en = false ∨ fm = true ∨ s.fb (Rg.PCIE_STAT p) Fd.PCIE_STAT_LINK_UP = false →
      s.msixMask p en fm vec mask addr data = s.setPcie p ((s.msixMask p en fm vec mask addr data).pcie p) ∧
      (sget {} ((s.msixMask p en fm vec mask addr data).pcie p).vecs (vec % 256)).pending = (sget {} (s.pcie p).vecs (vec % 256)).pending) ∧
    (en = true → fm = false → s.fb (Rg.PCIE_STAT p) Fd.PCIE_STAT_LINK_UP = true → mask = false →
      (sget {} (s.pcie p).vecs (vec % 256)).pending = true →
      Emit.msix p (vec % 256) (addr % 2 ^ 64) (data % 2 ^ 32) ∈ (s.msixMask p en fm vec mask addr data).out ∧
      (sget {} ((s.msixMask p en fm vec mask addr data).pcie p).vecs (vec % 256)).pending = false) := by
  rw [msixMask_eq]
  generalize hk : vec % 256 = k
  have hx := pcie_setPcie s p p ((s.pcie p).hostSet en fm k mask addr data) hp hp
  rw [if_pos rfl] at hx
  have hlink : (s.setPcie p ((s.pcie p).hostSet en fm k mask addr data)).fb (Rg.PCIE_STAT p) Fd.PCIE_STAT_LINK_UP =
      s.fb (Rg.PCIE_STAT p) Fd.PCIE_STAT_LINK_UP := fb_of_rd (rd_setPcie _ _ _ _) _
  have hvec : sget {} ((s.pcie p).hostSet en fm k mask addr data).vecs k = (sget {} (s.pcie p).vecs k).hostSet mask addr data := sget_sset_same _ _ _ _
  have hlive : (s.setPcie p ((s.pcie p).hostSet en fm k mask addr data)).msixLive p = (en && s.fb (Rg.PCIE_STAT p) Fd.PCIE_STAT_LINK_UP) := by
    rw [State.msixLive, hx, hlink]
    rfl
  by_cases hgo : en = false ∨ fm = true ∨ s.fb (Rg.PCIE_STAT p) Fd.PCIE_STAT_LINK_UP = false
  · have hidle : (s.setPcie p ((s.pcie p).hostSet en fm k mask addr data)).msixFlush p = s.setPcie p ((s.pcie p).hostSet en fm k mask addr data) := by
      refine if_pos ?_
      rw [hlive, hx]
      obtain h | h | h := hgo
      · simp [h]
      · simp [PcieSt.hostSet, h]
      · simp [h]
    rw [hidle, hx, hvec]
    refine ⟨rfl, rfl, rfl, rfl, rfl, rfl, fun _ => ⟨rfl, rfl⟩, fun h1 h2 h3 => ?_⟩
    obtain h | h | h := hgo
    · rw [h] at h1
      cases h1
    · rw [h] at h2
      cases h2
    · rw [h] at h3
      cases h3
  · obtain ⟨hen, hfm, hup⟩ : en = true ∧ fm = false ∧ s.fb (Rg.PCIE_STAT p) Fd.PCIE_STAT_LINK_UP = true := by
      simp only [not_or, Bool.not_eq_false, Bool.not_eq_true] at hgo
      exact hgo
    have hflush : (s.setPcie p ((s.pcie p).hostSet en fm k mask addr data)).msixFlush p =
        (((s.pcie p).hostSet en fm k mask addr data).vecs.filter fun e => e.2.pending && !e.2.mask).foldl (State.flushOne p)
          (s.setPcie p ((s.pcie p).hostSet en fm k mask addr data)) := by
      unfold State.msixFlush
      rw [hlive, hx, hen, hup, if_neg]
      · rfl
      · simp [PcieSt.hostSet, hfm]
    obtain ⟨f1, f2, f3, f4, -, f6⟩ := flush_shows (((s.pcie p).hostSet en fm k mask addr data).vecs.filter fun e => e.2.pending && !e.2.mask)
      (s.setPcie p ((s.pcie p).hostSet en fm k mask addr data)) (k := k) (v := (sget {} (s.pcie p).vecs k).hostSet mask addr data) hp (by rw [hx]; exact hfm)
      (fun e he => by
        have := (List.mem_filter.1 he).2
        rw [Bool.and_eq_true, Bool.not_eq_true'] at this
        exact this.2)
      fun e he hek => mem_sset (show e ∈ sset {} (s.pcie p).vecs k ((sget {} (s.pcie p).vecs k).hostSet mask addr data) from (List.mem_filter.1 he).1) hek
    rw [hflush]
    rw [hx] at f1 f3 f4
    rw [hvec] at f4
    generalize (((s.pcie p).hostSet en fm k mask addr data).vecs.filter fun e => e.2.pending && !e.2.mask).foldl (State.flushOne p)
      (s.setPcie p ((s.pcie p).hostSet en fm k mask addr data)) = w at *
    have hent : (sget {} (w.pcie p).vecs k).mask = mask ∧ (sget {} (w.pcie p).vecs k).addr = addr % 2 ^ 64 ∧ (sget {} (w.pcie p).vecs k).data = data % 2 ^ 32 := by
      obtain h | h := f4
      · rw [h]
        exact ⟨rfl, rfl, rfl⟩
      · rw [h]
        exact ⟨rfl, rfl, rfl⟩
    refine ⟨f1, f2.trans hfm.symm, f3, hent.1, hent.2.1, hent.2.2, fun h => absurd h hgo, fun _ _ _ hm hpend => ?_⟩
    have hin : k ∈ (((s.pcie p).hostSet en fm k mask addr data).vecs.filter fun e => e.2.pending && !e.2.mask).map (·.1) := by
      refine List.mem_map.2 ⟨(k, (sget {} (s.pcie p).vecs k).hostSet mask addr data), List.mem_filter.2 ⟨sset_mem _ _ fun e => ?_, ?_⟩, rfl⟩
      · have := congrArg MsixVec.pending e
        rw [MsixVec.hostSet, hpend] at this
        cases this
      · rw [MsixVec.hostSet, hpend, hm]
        rfl
    obtain ⟨g1, g2⟩ := f6 hin
    exact ⟨g2, by rw [g1]⟩

/-! ## The statement -/

theorem linkUp_refused {s : State} {p speed width : Nat} {flit : Bool} (h : s.portEnabled p = false ∨ (s.pcie p).perst = true ∨
    s.fb (Rg.PCIE_STAT p) Fd.PCIE_STAT_LINK_UP = true ∨ speed ∉ [1, 2, 3, 4, 5, 6] ∨ width ∉ [1, 2, 4]) : s.linkUp p speed width flit = s := by
  refine if_pos ?_
  obtain h | h | h | h | h := h
  · simp [h]
  · simp [h]
  · simp [h]
  · have : ¬(1 ≤ speed ∧ speed ≤ 6) := fun hc => h (by simp only [List.mem_cons, List.not_mem_nil, or_false]; omega)
    simp [this]
  · have : [1, 2, 4].contains width = false := by simpa using h
    simp [-List.contains_eq_mem, this]

theorem linkUp_shows {s : State} {p speed width : Nat} {flit : Bool} (hp : p < 2) (hon : s.pageOn (Pg.PCIE p / 0x1000) = true)
    (he : s.portEnabled p = true) (hpe : (s.pcie p).perst = false) (hl : s.fb (Rg.PCIE_STAT p) Fd.PCIE_STAT_LINK_UP = false)
    (hs : speed ∈ [1, 2, 3, 4, 5, 6]) (hw : width ∈ [1, 2, 4]) :
    (s.linkUp p speed width flit).fb (Rg.PCIE_STAT p) Fd.PCIE_STAT_LINK_UP = true ∧ (s.linkUp p speed width flit).fb (Rg.PCIE_STAT p) Fd.PCIE_STAT_FLIT = flit ∧
      (s.linkUp p speed width flit).f (Rg.PCIE_STAT p) Fd.PCIE_STAT_SPEED = speed ∧ (s.linkUp p speed width flit).f (Rg.PCIE_STAT p) Fd.PCIE_STAT_WIDTH = width ∧
      (s.linkUp p speed width flit).f (Rg.PCIE_STAT p) Fd.PCIE_STAT_SAFE = s.f (Rg.PCIE_STAT p) Fd.PCIE_STAT_SAFE ∧
      bit ((s.linkUp p speed width flit).rd (Pg.PCIE p + 0x010)) Ib.PCIE_LINK_CHANGE = true ∧
      State.onlyRegs (fun x => x == Rg.PCIE_STAT p || intReg (Pg.PCIE p) x) s (s.linkUp p speed width flit) := by
  have hsp : 1 ≤ speed ∧ speed ≤ 6 := by
    simp only [List.mem_cons, List.not_mem_nil, or_false] at hs
    omega
  have hwd : width < 16 := by
    simp only [List.mem_cons, List.not_mem_nil, or_false] at hw
    omega
  have hwc : [1, 2, 4].contains width = true := List.contains_iff_mem.2 hw
  have heq : s.linkUp p speed width flit = (s.setLink p 1 (b2n flit) speed width).setInt (Pg.PCIE p) Ib.PCIE_LINK_CHANGE :=
    if_neg (by simp [-List.contains_eq_mem, he, hon, hpe, hl, hsp, hwc])
  obtain ⟨so, -, hd, -, -, hg⟩ := pcieStat_place hp
  have hb : b2n flit < 2 := by cases flit <;> decide
  obtain ⟨f1, f2, f3, f4, f5⟩ := setLink_f s (p := p) (up := 1) (flit := b2n flit) (speed := speed) (width := width) (by decide) hb (by omega) hwd
  have hst : ((s.setLink p 1 (b2n flit) speed width).setInt (Pg.PCIE p) Ib.PCIE_LINK_CHANGE).rd (Rg.PCIE_STAT p) = _ := rd_setInt_own so hg
  rw [heq]
  refine ⟨(fb_of_rd hst _).trans (by rw [State.fb, f1]; rfl), (fb_of_rd hst _).trans ?_, (f_of_rd hst _).trans f4, (f_of_rd hst _).trans f5,
    (f_of_rd hst _).trans f3, setInt_bit _ _ _ hg (by decide) (((State.calm.refl noReg s).setLink hp fun _ h => absurd h Bool.false_ne_true).on _ |>.trans hon),
    ((onlyRegs_refl _ s).wr (by simp)).setInt fun x hx => (Bool.or_eq_false_iff.1 hx).2⟩
  rw [State.fb, f2]
  cases flit <;> rfl

/-- What a lost link shows, in any state that reads as it. -/
theorem portDown_shows {s t : State} {p : Nat} (hp : p < 2) (hon : s.pageOn (Pg.PCIE p / 0x1000) = true)
    (hup : s.fb (Rg.PCIE_STAT p) Fd.PCIE_STAT_LINK_UP = true) (ht : ∀ x, t.rd x = (s.linkDown p).rd x) :
    t.fb (Rg.PCIE_STAT p) Fd.PCIE_STAT_LINK_UP = false ∧ t.f (Rg.PCIE_STAT p) Fd.PCIE_STAT_SPEED = 0 ∧ t.f (Rg.PCIE_STAT p) Fd.PCIE_STAT_WIDTH = 0 ∧
      t.f (Rg.PCIE_STAT p) Fd.PCIE_STAT_SAFE = s.f (Rg.PCIE_STAT p) Fd.PCIE_STAT_SAFE ∧
      t.rd (Rg.PCIE_LINK_DOWN_CNT p) = (s.rd (Rg.PCIE_LINK_DOWN_CNT p) + 1) % 2 ^ 32 ∧ bit (t.rd (Pg.PCIE p + 0x010)) Ib.PCIE_LINK_CHANGE = true ∧
      (∀ r, r < 64 → (s.f (Rg.DMA_RING_CFG r) Fd.DMA_RING_CFG_PORT = p → t.fb (Rg.DMA_RING_CFG r) Fd.DMA_RING_CFG_STOPPED = true) ∧
        (s.f (Rg.DMA_RING_CFG r) Fd.DMA_RING_CFG_PORT ≠ p → t.rd (Rg.DMA_RING_CFG r) = s.rd (Rg.DMA_RING_CFG r))) ∧
      (s.f Rg.UPD_LOCK_STAT Fd.UPD_LOCK_STAT_OWNER = p → t.fb Rg.UPD_LOCK_STAT Fd.UPD_LOCK_STAT_HELD = false) ∧
      (s.f Rg.UPD_LOCK_STAT Fd.UPD_LOCK_STAT_OWNER ≠ p → t.rd Rg.UPD_LOCK_STAT = s.rd Rg.UPD_LOCK_STAT) ∧
      (s.f Rg.CMT_STAT Fd.CMT_STAT_STATE ≠ 0 → s.f Rg.CMT_STAT Fd.CMT_STAT_OWNER = p → t.fb Rg.CMT_STAT Fd.CMT_STAT_NO_OWNER = true) ∧
      t.cmtState = s.cmtState := by
  obtain ⟨h1, h2, h3, h4, h5, h6⟩ := linkDown_status hup hp hon
  have hpg : Pg.PCIE p / 0x1000 ≠ 0x1092 ∧ Rg.UPD_LOCK_STAT / 0x1000 ≠ Pg.PCIE p / 0x1000 ∧ Rg.CMT_STAT / 0x1000 ≠ Pg.PCIE p / 0x1000 := by
    interval_cases p <;> decide
  have hrd : ∀ x, ownReg x = true → x / 0x1000 ≠ Pg.PCIE p / 0x1000 → t.rd x = (s.portLoss p).rd x := fun x ho hx => (ht x).trans (rd_linkDown hup hp ho hx)
  obtain ⟨l1, l2⟩ := portLoss_lock s p
  obtain ⟨g1, g2⟩ := portLoss_stage s p
  have hlock := hrd Rg.UPD_LOCK_STAT rfl hpg.2.1
  have hcmt := hrd Rg.CMT_STAT rfl hpg.2.2
  refine ⟨(fb_of_rd (ht _) _).trans h1, (f_of_rd (ht _) _).trans h2, (f_of_rd (ht _) _).trans h3, (f_of_rd (ht _) _).trans h4, (ht _).trans h5,
    by rw [ht]; exact h6, fun r hr => ?_, fun h => (fb_of_rd hlock _).trans (l1 h), fun h => hlock.trans (l2 h), fun h ho => (fb_of_rd hcmt _).trans (g1 h ho),
    (f_of_rd hcmt _).trans g2⟩
  obtain ⟨ho, hpr, -⟩ := ringCfg_place hr
  obtain ⟨r1, r2⟩ := portLoss_rings s p hr
  have hring := hrd _ ho (by rw [hpr]; exact hpg.1.symm)
  exact ⟨fun h => (fb_of_rd hring _).trans (r1 h), fun h => hring.trans (r2 h)⟩

/-- PERST_N at a level, in a state. -/
def State.perstLevel (s : State) (p : Nat) (level : Bool) : State := s.setPcie p { s.pcie p with perst := !level }

theorem perst_eq (s : State) (p : Nat) (level : Bool) : s.perst p level = (if level then s else s.linkDown p).perstLevel p level := rfl

theorem perst_high (s : State) (p : Nat) : s.perst p true = s.setPcie p { s.pcie p with perst := false } := by
  rw [perst_eq, if_pos rfl]
  rfl

theorem perst_low (s : State) (p : Nat) : s.perst p false = (s.linkDown p).setPcie p { (s.linkDown p).pcie p with perst := true } := by
  rw [perst_eq, if_neg (by decide)]
  generalize s.linkDown p = t
  rfl

theorem perst_low_shows {s : State} {p : Nat} (hp : p < 2) : ((s.perst p false).pcie p).perst = true ∧
    (s.fb (Rg.PCIE_STAT p) Fd.PCIE_STAT_LINK_UP = false → s.perst p false = s.setPcie p { s.pcie p with perst := true }) ∧
    ∀ x, (s.perst p false).rd x = (s.linkDown p).rd x := by
  rw [perst_low]
  refine ⟨?_, fun h => by rw [linkDown_idle h], fun x => rd_setPcie _ _ _ _⟩
  generalize s.linkDown p = t
  rw [pcie_setPcie _ _ _ _ hp hp, if_pos rfl]

theorem exec_ports (s : State) {p : Nat} (hp : p < 2) : exec (.pcieLinkDown p) s = .next (s.linkDown p) ∧ exec (.hotReset p) s = .next (s.linkDown p) ∧
    (∀ l, exec (.perst p l) s = .next (s.perst p l)) ∧ exec (.functionLevelReset p) s = .next (s.flr p) := by
  have hmod : p % 2 = p := Nat.mod_eq_of_lt hp
  exact ⟨congrArg (fun q => Host.Outcome.next (s.linkDown q)) hmod, congrArg (fun q => Host.Outcome.next (s.linkDown q)) hmod,
    fun l => congrArg (fun q => Host.Outcome.next (s.perst q l)) hmod, congrArg (fun q => Host.Outcome.next (s.flr q)) hmod⟩

/-- Settles O57: a port's loss stops its rings, releases its lock and disowns its stage, each in registers of its own; messages change a vector's pending bit
or are sent; FLR drops the port's page and its enables in the interrupt map. -/
theorem hostPortsAndInterrupts : Obligations.HostPortsAndInterrupts := by
  unfold Obligations.HostPortsAndInterrupts
  refine ⟨fun s p hp hon => ?_, fun s a v p vec hw hpv hvv => ?_, fun s p vec addr data en fm mask hp => ?_⟩
  · have hmod : p % 2 = p := Nat.mod_eq_of_lt hp
    obtain ⟨x1, x2, x3, x4⟩ := exec_ports s hp
    refine ⟨?_, ⟨_, x3 true, perst_high s p⟩, ⟨_, x4, flr_shows hp hon⟩, fun speed width flit => ?_⟩
    · rintro c (rfl | rfl | rfl)
      · refine ⟨_, x1, (fun h => by cases h), fun h => ?_, fun h => portDown_shows hp hon h fun _ => rfl⟩
        rw [if_neg (by simp), linkDown_idle h]
      · refine ⟨_, x2, (fun h => by cases h), fun h => ?_, fun h => portDown_shows hp hon h fun _ => rfl⟩
        rw [if_neg (by simp), linkDown_idle h]
      · obtain ⟨q1, q2, q3⟩ := perst_low_shows (s := s) hp
        refine ⟨_, x3 false, fun _ => q1, fun h => ?_, fun h => portDown_shows hp hon h q3⟩
        rw [if_pos rfl]
        exact q2 h
    · have hx : exec (.pcieLinkUp p speed width flit) s = .next (s.linkUp p speed width flit) :=
        congrArg (fun q => Host.Outcome.next (s.linkUp q speed width flit)) hmod
      rw [hx]
      exact ⟨fun h => by rw [linkUp_refused h], fun h1 h2 h3 h4 h5 => ⟨_, rfl, linkUp_shows hp hon h1 h2 h3 h4 h5⟩⟩
  · have hx : exec (.irqRearm a v) s = .next (s.rearm v.toNat) := congrArg Host.Outcome.next (onWrite_of s a _ _ hw)
    obtain ⟨h1, h2⟩ := rearm_shows (s := s) hpv hvv
    rw [hx]
    exact ⟨fun h => by rw [h1 h], fun hl hs => ⟨_, rfl, h2 hl hs⟩⟩
  · have hmod : p % 2 = p := Nat.mod_eq_of_lt hp
    exact ⟨_, congrArg (fun q => Host.Outcome.next (s.msixMask q en fm vec mask addr data)) hmod, msixMask_shows s hp⟩

end Sys2Proof.Machine
end

section
/-! SUPPORT. Device resets: what the reset sequence latches, and what a reset leaves (R381 to R383). -/
namespace Sys2Proof.Machine

/-! ## The reset sequence -/

theorem bootReg_not {x : Nat} (h : bootReg x = false) : x ≠ Rg.PWR_RESET_CAUSE 0 ∧ x ≠ Rg.PWR_RESET_CAUSE 1 ∧ x ≠ Rg.PWR_STRAP 1 ∧ x ≠ Rg.CLK_STAT 0 ∧
    x ≠ Rg.CLK_STAT 1 ∧ ∀ i, i < 8 → x ≠ Rg.PWR_GPIO_CFG 1 i := by
  simp only [bootReg, Bool.or_eq_false_iff, List.any_eq_false, List.mem_range, beq_iff_eq, beq_eq_false_iff_ne] at h
  obtain ⟨⟨⟨⟨⟨h1, h2⟩, h3⟩, h4⟩, h5⟩, h6⟩ := h
  exact ⟨h1, h2, h3, h4, h5, h6⟩

/-- The registers that the straps and the reference clocks decide. -/
def latchReg (x : Nat) : Bool := bootReg x && x != Rg.PWR_RESET_CAUSE 0 && x != Rg.PWR_RESET_CAUSE 1

theorem State.onlyRegs.foldl_mem {P : Nat → Bool} {β : Type} {f : State → β → State} {l : List β} {s t : State}
    (hf : ∀ (v : State), ∀ x ∈ l, State.onlyRegs P v (f v x)) (h : State.onlyRegs P s t) : State.onlyRegs P s (l.foldl f t) := by
  induction l generalizing t with
  | nil => exact h
  | cons x l ih => exact ih (fun v y hy => hf v y (List.mem_cons_of_mem _ hy)) (onlyRegs_trans h (hf t x List.mem_cons_self))

/-- The sequence changes only registers that it latches; PWR_STRAP is written first, and nothing after it changes it. -/
theorem onlyRegs_boot_from {P : Nat → Bool} (hg : ∀ i, i < 8 → P (Rg.PWR_GPIO_CFG 1 i) = true) (h0 : P (Rg.CLK_STAT 0) = true)
    (h1 : P (Rg.CLK_STAT 1) = true) (s : State) (env : BootEnv) :
    State.onlyRegs P (s.wr (Rg.PWR_STRAP 1) (env.straps % 256)) (s.boot env) :=
  onlyRegs_trans (onlyRegs_trans (State.onlyRegs.foldl_mem (fun t i hi => onlyRegs_setF t _ _ _ (hg i (List.mem_range.1 hi)))
    (onlyRegs_refl P _)) (onlyRegs_wr _ _ _ h0)) (onlyRegs_wr _ _ _ h1)

theorem onlyRegs_boot (s : State) (env : BootEnv) : State.onlyRegs latchReg s (s.boot env) :=
  onlyRegs_trans (onlyRegs_wr s _ _ rfl) (onlyRegs_boot_from (by decide) rfl rfl s env)

theorem boot_strap (s : State) (env : BootEnv) : (s.boot env).rd (Rg.PWR_STRAP 1) = env.straps % 256 := by
  have h := (onlyRegs_boot_from (P := (· != Rg.PWR_STRAP 1)) (by decide) rfl rfl s env).2 _ (bne_self_eq_false _)
  rw [h, rd_wr_same]
  omega

/-! ## Device resets -/

/-- Everything at its reset value but what eMRAM keeps, the fuses and the levels on the pins. -/
def State.kept (s : State) (cause : Nat) (warm : Option Int) : State :=
  { State.reset with
    part := s.part, out := s.out, free := s.free, rsp := s.rsp, pending := s.pending
    regs := s.regs.filter fun e => eMramReg e.1
    tbls := s.tbls.filter fun e => eMramTbl e.1
    marks := s.marks.filter fun e => e.1 / 2 ^ 64 == Pg.EMRAM / 0x1000
    ra := ({ cam := [], repaired := s.ra.repaired } : RasSt).reapply [0, 1]
    lg := { recs := s.lg.recs }
    up := { valid := s.up.valid, digests := s.up.digests, key0 := s.up.key0 }
    hb := { ppr := s.hb.ppr }
    pcie0 := { perst := s.pcie0.perst }
    pcie1 := { perst := s.pcie1.perst }
    pw := { por := s.pw.por, sup := s.pw.sup, trip := s.pw.trip, tripPin := s.pw.tripPin, lastWarm := warm, bootLog := some (cause, 1, 49600000) } }

theorem kept_shows (s : State) (cause : Nat) (warm : Option Int) :
    (∀ x, (s.kept cause warm).rd x = if eMramReg x then s.rd x else regReset s.part x) ∧ (s.kept cause warm).part = s.part ∧
      (s.kept cause warm).pending = s.pending ∧ (s.kept cause warm).tickCount = 0 ∧ (s.kept cause warm).pw.por = s.pw.por ∧
      (s.kept cause warm).pw.sup = s.pw.sup ∧ (s.kept cause warm).pw.trip = s.pw.trip :=
  ⟨fun x => rd_of_filter (s := s) (t := s.kept cause warm) (q := eMramReg) rfl rfl x, rfl, rfl, rfl, rfl, rfl, rfl⟩

/-- The cause shown on both dies. -/
def State.caused (s : State) (cause : Nat) : State := (s.wr (Rg.PWR_RESET_CAUSE 0) cause).wr (Rg.PWR_RESET_CAUSE 1) cause

theorem deviceReset_eq (s : State) (cause : Nat) (warm : Option Int) : s.deviceReset cause warm =
    if s.pw.alertPin then ((s.kept cause warm).caused cause).emit (.pin "THERM_ALERT_N" true) else (s.kept cause warm).caused cause := rfl

theorem onlyRegs_deviceReset (s : State) (cause : Nat) (warm : Option Int) :
    State.onlyRegs (fun x => x == Rg.PWR_RESET_CAUSE 0 || x == Rg.PWR_RESET_CAUSE 1) (s.kept cause warm) (s.deviceReset cause warm) := by
  have h : State.onlyRegs (fun x => x == Rg.PWR_RESET_CAUSE 0 || x == Rg.PWR_RESET_CAUSE 1) (s.kept cause warm) ((s.kept cause warm).caused cause) :=
    onlyRegs_trans (onlyRegs_wr _ _ _ rfl) (onlyRegs_wr _ _ _ rfl)
  rw [deviceReset_eq]
  split
  · exact State.onlyRegs.emit h
  · exact h

theorem deviceReset_cause (s : State) {cause : Nat} (hc : cause < 2 ^ 32) (warm : Option Int) :
    (s.deviceReset cause warm).rd (Rg.PWR_RESET_CAUSE 0) = cause ∧ (s.deviceReset cause warm).rd (Rg.PWR_RESET_CAUSE 1) = cause := by
  have h : ∀ u : State, (u.caused cause).rd (Rg.PWR_RESET_CAUSE 0) = cause ∧ (u.caused cause).rd (Rg.PWR_RESET_CAUSE 1) = cause := fun u => by
    rw [State.caused, rd_wr_same, rd_wr_other _ _ _ _ (by decide), rd_wr_same, Nat.mod_eq_of_lt hc]
    exact ⟨rfl, rfl⟩
  rw [deviceReset_eq]
  split
  · exact h (s.kept cause warm)
  · exact h (s.kept cause warm)

theorem eMramReg_boot {x : Nat} (h : eMramReg x = true) : bootReg x = false := by
  have hk : ∀ k, k < 6 → bootReg (Rg.UPD_ARB_LO k) = false ∧ bootReg (Rg.UPD_ARB_HI k) = false ∧ bootReg (Rg.UPD_FLOOR_LO k) = false ∧
      bootReg (Rg.UPD_FLOOR_HI k) = false := by decide
  simp only [eMramReg, Bool.or_eq_true, List.any_eq_true, List.mem_range, beq_iff_eq] at h
  obtain ((((rfl | rfl) | rfl) | rfl) | rfl) | ⟨k, hlt, (((rfl | rfl) | rfl) | rfl)⟩ := h
  · rfl
  · rfl
  · rfl
  · rfl
  · rfl
  · exact (hk k hlt).1
  · exact (hk k hlt).2.1
  · exact (hk k hlt).2.2.1
  · exact (hk k hlt).2.2.2

/-- A device reset followed by the reset sequence, of a device that is not held in reset. -/
theorem reset_shows {s : State} {cause : Nat} (hc : cause < 2 ^ 32) (warm : Option Int) (env : BootEnv) (hp : s.pw.por = false) (hs : s.pw.sup = false) :
    s.resetWith ((s.deviceReset cause warm).boot env) env cause ∧ ((s.deviceReset cause warm).boot env).pw.trip = s.pw.trip := by
  obtain ⟨hrd, hpart, hpend, htick, hpor, hsup, htrip⟩ := kept_shows s cause warm
  have hd := onlyRegs_deviceReset s cause warm
  have hb := onlyRegs_boot (s.deviceReset cause warm) env
  have hpw := (onlyRegs_proj hb State.pw).trans (onlyRegs_proj hd State.pw)
  obtain ⟨hc0, hc1⟩ := deviceReset_cause s hc warm
  have hrest : ∀ x, bootReg x = false → ((s.deviceReset cause warm).boot env).rd x = if eMramReg x then s.rd x else regReset s.part x := fun x hx => by
    obtain ⟨h0, h1, -⟩ := bootReg_not hx
    have hl : latchReg x = false := by rw [latchReg, hx]; rfl
    exact ((hb.2 x hl).trans (hd.2 x (by simp only [h0, h1, Bool.or_eq_false_iff, beq_eq_false_iff_ne, ne_eq, not_false_eq_true, and_self]))).trans (hrd x)
  refine ⟨⟨((onlyRegs_proj hb State.part).trans (onlyRegs_proj hd State.part)).trans hpart,
    ((onlyRegs_proj hb State.pending).trans (onlyRegs_proj hd State.pending)).trans hpend,
    ((onlyRegs_proj hb State.tickCount).trans (onlyRegs_proj hd State.tickCount)).trans htick, ?_, ?_, (hb.2 _ rfl).trans hc0, (hb.2 _ rfl).trans hc1,
    boot_strap _ env, fun x hx => ?_, fun x hx hx2 => ?_⟩, ?_⟩
  · rw [hpw, hpor, hp]
  · rw [hpw, hsup, hs]
  · rw [hrest x (eMramReg_boot hx), if_pos hx]
  · rw [hrest x hx2, hx]
    rfl
  · rw [hpw, htrip]

end Sys2Proof.Machine
end

section
/-! SUPPORT. What stays where a domain loses its power: chosen registers, the part, the power state and what was said (R375). -/
namespace Sys2Proof.Machine

/-- The registers in `P`, the part, the power state and the effects sent stay. -/
structure State.stays (P : Nat → Bool) (s t : State) : Prop where
  rd : ∀ x, P x = true → t.rd x = s.rd x
  said : State.saysMore s t
  part : t.part = s.part
  pw : t.pw = s.pw

theorem State.calm.stays {P : Nat → Bool} {s t : State} (h : State.calm P s t) : State.stays P s t := ⟨h.rd, h.said, h.part, h.pw⟩

namespace State.stays
variable {P Q : Nat → Bool} {s t u : State}

theorem refl (P : Nat → Bool) (s : State) : State.stays P s s := (State.calm.refl P s).stays

theorem trans (h1 : State.stays P s t) (h2 : State.stays P t u) : State.stays P s u :=
  ⟨fun x hx => (h2.rd x hx).trans (h1.rd x hx), h1.said.trans h2.said, h2.part.trans h1.part, h2.pw.trans h1.pw⟩

theorem mono (h : State.stays P s t) (hq : ∀ x, Q x = true → P x = true) : State.stays Q s t := ⟨fun x hx => h.rd x (hq x hx), h.said, h.part, h.pw⟩

theorem ite {c : Prop} [Decidable c] (h1 : State.stays P s t) (h2 : State.stays P s u) : State.stays P s (if c then t else u) := by split <;> assumption

theorem foldl {β : Type} {f : State → β → State} {l : List β} (hf : ∀ (v : State), ∀ x ∈ l, State.stays P v (f v x)) (h : State.stays P s t) :
    State.stays P s (l.foldl f t) := by
  induction l generalizing t with
  | nil => exact h
  | cons x l ih => exact ih (fun v y hy => hf v y (List.mem_cons_of_mem _ hy)) (h.trans (hf t x List.mem_cons_self))

/-- A change of other parts. -/
theorem ofParts (hr : t.regs = s.regs := by rfl) (ho : t.out = s.out := by rfl) (hp : t.part = s.part := by rfl) (hw : t.pw = s.pw := by rfl) :
    State.stays P s t := ⟨fun x _ => rd_congr hp hr x, .of_out ho, hp, hw⟩

/-- A change of other parts after others. -/
theorem thenParts (h : State.stays P s t) (hr : u.regs = t.regs := by rfl) (ho : u.out = t.out := by rfl) (hp : u.part = t.part := by rfl)
    (hw : u.pw = t.pw := by rfl) : State.stays P s u := h.trans (ofParts hr ho hp hw)

/-- Registers dropped to their reset values. -/
theorem ofFilter {q : Nat → Bool} (hr : t.regs = s.regs.filter fun e => q e.1) (hq : ∀ x, P x = true → q x = true) (ho : t.out = s.out := by rfl)
    (hp : t.part = s.part := by rfl) (hw : t.pw = s.pw := by rfl) : State.stays P s t :=
  ⟨fun x hx => (rd_of_filter hp hr x).trans (if_pos (hq x hx)), .of_out ho, hp, hw⟩

theorem wr (h : State.stays P s t) {a v : Nat} (hP : ∀ x, P x = true → x ≠ a) : State.stays P s (t.wr a v) :=
  h.trans ⟨fun x hx => rd_wr_other _ _ _ _ (hP x hx), saysMore_wr t a v, rfl, rfl⟩

theorem setF (h : State.stays P s t) {a v : Nat} {fl : Fld} (hP : ∀ x, P x = true → x ≠ a) : State.stays P s (t.setF a fl v) := h.wr hP

theorem setInts (h : State.stays P s t) {pg m : Nat} (hP : ∀ x, P x = true → ownReg x = true) (hg : pg % 0x1000 = 0) : State.stays P s (t.setInts pg m) :=
  h.trans ((State.calm.refl P t).setInts hP hg).stays

theorem setInt (h : State.stays P s t) {pg b : Nat} (hP : ∀ x, P x = true → ownReg x = true) (hg : pg % 0x1000 = 0) : State.stays P s (t.setInt pg b) :=
  h.setInts hP hg

theorem bump (h : State.stays P s t) {a n : Nat} (hP : ∀ x, P x = true → ownReg x = true ∧ x ≠ a) (h1 : 0x100 ≤ a % 0x1000) (h2 : a % 0x1000 < 0x800)
    (hd : notDom a = true) : State.stays P s (t.bump a n) := h.trans ((State.calm.refl P t).bump hP h1 h2 hd).stays

theorem raiseSrc (h : State.stays P s t) {n : Nat} (hP : ∀ x, P x = true → ownReg x = true) : State.stays P s (t.raiseSrc n) :=
  h.trans ((State.calm.refl P t).raiseSrc hP).stays

end State.stays

/-! ## A domain's contents lost -/

/-- The registers of the pages of power and pins. -/
def pwrReg (x : Nat) : Bool := ownReg x && (x / 0x1000 == 0xE0 || x / 0x1000 == 0x10B0)

theorem pwrReg_iff {x : Nat} : pwrReg x = true ↔ ownReg x = true ∧ (x / 0x1000 = 0xE0 ∨ x / 0x1000 = 0x10B0) := by
  simp only [pwrReg, Bool.and_eq_true, Bool.or_eq_true, beq_iff_eq]

theorem pwrReg_own {x : Nat} (h : pwrReg x = true) : ownReg x = true := (pwrReg_iff.1 h).1

theorem pwrReg_ne {x a : Nat} (h : pwrReg x = true) (h0 : a / 0x1000 ≠ 0xE0) (h1 : a / 0x1000 ≠ 0x10B0) : x ≠ a := fun e => by
  subst e
  exact (pwrReg_iff.1 h).2.elim h0 h1

theorem pwrReg_port {p x : Nat} (hp : p < 2) (h : pwrReg x = true) : linkLostReg p x = false := by
  obtain ⟨-, hg⟩ := pwrReg_iff.1 h
  have h1 : Rg.PCIE_STAT p / 0x1000 = 0x1090 + p ∧ Rg.PCIE_LINK_DOWN_CNT p / 0x1000 = 0x1090 + p := by interval_cases p <;> exact ⟨rfl, rfl⟩
  have hne : ∀ a, a / 0x1000 ≠ 0xE0 → a / 0x1000 ≠ 0x10B0 → (x == a) = false := fun a h0 h1 => beq_false_of_ne (pwrReg_ne h h0 h1)
  have hpg : x / 0x1000 ≠ 0x1012 ∧ x / 0x1000 ≠ 0x1092 := by omega
  have hpt : portReg x = false := by
    rw [portReg, beq_false_of_ne hpg.1, beq_false_of_ne hpg.2, hne _ (by decide) (by decide), hne _ (by decide) (by decide)]
    rfl
  rw [linkLostReg, hpt, hne _ (by omega) (by omega), hne _ (by omega) (by omega)]
  rfl

section
variable {P : Nat → Bool} {s t : State}

theorem domPages_apart : ∀ die, die < 2 → ∀ d, d < 64 → (0xE0 ∉ domPages die d) ∧ (0x10B0 ∉ domPages die d) := by decide

theorem State.stays.losePages (h : State.stays pwrReg s t) {ps : List Nat} (h0 : 0xE0 ∉ ps) (h1 : 0x10B0 ∉ ps) : State.stays pwrReg s (t.losePages ps) := by
  refine .foldl (fun v g hg => ?_) (h.trans (.ofFilter (q := fun x => !ps.contains (x / 0x1000)) rfl fun x hx => ?_))
  · obtain ⟨hm, hr⟩ := List.mem_filter.1 hg
    have hr' := of_decide_eq_true hr
    exact ((State.stays.refl _ v).setF fun x hx => pwrReg_ne hx (by omega) (by omega)).setF fun x hx => pwrReg_ne hx (by omega) (by omega)
  · rw [Bool.not_eq_true', List.contains_eq_mem, decide_eq_false_iff_not]
    obtain ⟨-, e | e⟩ := pwrReg_iff.1 hx
    · rwa [e]
    · rwa [e]

theorem State.stays.dropPart (h : State.stays P s t) {p : Nat} : State.stays P s (t.dropPart p) := h.thenParts

theorem State.stays.loseMems (h : State.stays P s t) {pg lo hi a b : Nat} : State.stays P s (t.loseMems pg lo hi a b) := h.thenParts

theorem State.stays.setSc (h : State.stays P s t) {k : Nat} {x : ScCtl} : State.stays P s (t.setSc k x) := by
  unfold State.setSc
  split
  · exact h.thenParts
  · exact h.thenParts

theorem State.stays.setPcie (h : State.stays P s t) {p : Nat} {x : PcieSt} : State.stays P s (t.setPcie p x) := by
  unfold State.setPcie
  split
  · exact h.thenParts
  · exact h.thenParts

theorem slice_pages {d i : Nat} (hi : i < 9) : (Pg.SLICE d i) % 0x1000 = 0 ∧ Rg.SLICE_STAT d i / 0x1000 < 0x59 := by
  have h0 : Pg.SLICE d i = 0x40000 + 0x1000 * i ∨ Pg.SLICE d i = 0x50000 + 0x1000 * i := by unfold Pg.SLICE; split <;> simp
  have h1 : Rg.SLICE_STAT d i = Pg.SLICE d i + 0x104 := rfl
  omega

theorem State.stays.abortTest (h : State.stays pwrReg s t) {d i : Nat} (hi : i < 9) : State.stays pwrReg s (t.abortTest d i) := by
  obtain ⟨hg, hs⟩ := slice_pages (d := d) hi
  have hne : ∀ x, pwrReg x = true → x ≠ Rg.SLICE_STAT d i := fun x hx => pwrReg_ne hx (by omega) (by omega)
  exact .ite (((h.setF hne).setF hne).setInt (fun _ hx => pwrReg_own hx) hg) h

theorem State.stays.wipeSlice (h : State.stays pwrReg s t) {d i : Nat} (hi : i < 9) : State.stays pwrReg s (t.wipeSlice d i) :=
  (h.abortTest hi).thenParts

theorem State.stays.loseSlice (h : State.stays pwrReg s t) {d i : Nat} (hi : i < 9) : State.stays pwrReg s (t.loseSlice d i) :=
  ((h.wipeSlice hi).dropPart (p := 2 + (9 * d + i))).thenParts

theorem State.stays.loseAcl (h : State.stays pwrReg s t) {g : Nat} : State.stays pwrReg s (t.loseAcl g) := by
  refine State.stays.setInt (h.loseMems.setF fun x hx => ?_) (fun _ hx => pwrReg_own hx) rfl
  split
  · exact pwrReg_ne hx (by decide) (by decide)
  · exact pwrReg_ne hx (by decide) (by decide)

theorem State.stays.loseHash (h : State.stays pwrReg s t) {g : Nat} : State.stays pwrReg s (t.loseHash g) := by
  refine .foldl (fun v n hn => ?_) h.loseMems
  have hn' := List.mem_range.1 hn
  have e : Rg.EXM_TBL_STAT n = 0xA0000 + 0x300 + 4 * n := rfl
  have hs : State.stays pwrReg v (v.setF (Rg.EXM_TBL_STAT n) Fd.EXM_TBL_STAT_USED (v.exmListed (v.exm n)).length) :=
    (State.stays.refl _ v).setF fun x hx => pwrReg_ne hx (by omega) (by omega)
  exact .ite (State.stays.refl _ v) (.ite (hs.setF fun x hx => pwrReg_ne hx (by decide) (by decide)) hs)

theorem State.stays.losePcie (h : State.stays pwrReg s t) {p : Nat} (hp : p < 2) : State.stays pwrReg s (t.losePcie p) :=
  (h.trans ((State.calm.refl _ t).linkDown hp fun x hx => ⟨pwrReg_own hx, pwrReg_port hp hx⟩).stays).setPcie

theorem State.stays.loseSc (h : State.stays P s t) {k : Nat} : State.stays P s (t.loseSc k) := h.setSc.dropPart

/-- What a domain holds outside its pages lost. -/
def State.loseBlock (s : State) (die d : Nat) : State :=
  if die = 0 then
    if d < 18 then s.loseSlice (d / 9) (d % 9)
    else if d < 26 then s
    else if d < 28 then s.loseAcl (d - 26)
    else if d < 36 then s.loseHash (d - 28)
    else if d < 44 then (s.wipeLine (d - 36)).dropPart (20 + (d - 36))
    else s.loseSc 0
  else
    if 6 ≤ d ∧ d < 18 then (s.wipeLanes (d - 6)).dropPart (28 + (d - 6))
    else if 20 ≤ d ∧ d < 24 then (s.wipeHbm (d - 20)).dropPart (40 + (d - 20))
    else if d = 24 then s.loseSc 1
    else if d = 27 ∨ d = 28 then s.losePcie (d - 27)
    else s

/-- The pages that go with a domain: its own, and page ACL where its other group is off. -/
def State.lostPages (s : State) (die d : Nat) : List Nat :=
  domPages die d ++ (if decide (die = 0 ∧ (d = 26 ∨ d = 27)) && !s.domOn 0 (53 - d) then [0x099] else [])

theorem loseDomain_eq (s : State) (die d : Nat) : s.loseDomain die d = (s.loseBlock die d).losePages (s.lostPages die d) := rfl

theorem State.stays.loseBlock (h : State.stays pwrReg s t) {die d : Nat} : State.stays pwrReg s (t.loseBlock die d) :=
  .ite
    (.ite (h.loseSlice (Nat.mod_lt _ (by decide))) (.ite h (.ite h.loseAcl (.ite h.loseHash (.ite h.thenParts h.loseSc)))))
    (.ite h.thenParts (.ite h.thenParts (.ite h.loseSc (by
      split
      next hd => exact h.losePcie (by omega)
      next => exact h))))

theorem State.stays.loseDomain (h : State.stays pwrReg s t) {die d : Nat} (hd : die < 2) (h64 : d < 64) : State.stays pwrReg s (t.loseDomain die d) := by
  obtain ⟨h0, h1⟩ := domPages_apart die hd d h64
  have hm : ∀ g, g ∉ domPages die d → g ≠ 0x099 → g ∉ t.lostPages die d := fun g hg hne hmem => by
    unfold State.lostPages at hmem
    rw [List.mem_append] at hmem
    refine hmem.elim hg fun hx => ?_
    split at hx
    · exact hne (List.mem_singleton.1 hx)
    · cases hx
  rw [loseDomain_eq]
  exact h.loseBlock.losePages (hm _ h0 (by decide)) (hm _ h1 (by decide))

end

/-! ## The bits of a domain -/

theorem bit_wr (s : State) (a i j : Nat) (on : Bool) (hj : j < 32) :
    bit ((s.wr a (setBits (s.rd a) i 1 (b2n on))).rd a) j = if j = i then on else bit (s.rd a) j := by
  rw [rd_wr_same, bit_eq_testBit, Nat.testBit_mod_two_pow, decide_eq_true hj, Bool.true_and, ← bit_eq_testBit, bit_setBits_one]

theorem domStat_apart : ∀ e, e < 2 → ∀ w, w < 2 → ∀ d, d < 2 → ∀ v, v < 2 → (Rg.PWR_DOM_STAT e w = Rg.PWR_DOM_STAT d v ↔ e = d ∧ w = v) := by decide

theorem pwr_page (d : Nat) : Pg.PWR d % 0x1000 = 0 := by unfold Pg.PWR; split <;> rfl

theorem domStat_pwrReg : ∀ d, d < 2 → ∀ w, w < 2 → pwrReg (Rg.PWR_DOM_STAT d w) = true := by decide

theorem domOn_setDom (s : State) {die d : Nat} (on : Bool) (hd : die < 2) (h64 : d < 64) {e j : Nat} (he : e < 2) (hj : j < 64) :
    (s.setDom die d on).domOn e j = if e = die ∧ j = d then on else s.domOn e j := by
  have ho := pwrReg_own (domStat_pwrReg e he (j / 32) (by omega))
  have hr : (s.setDom die d on).rd (Rg.PWR_DOM_STAT e (j / 32)) = _ := rd_setInt_own ho (pwr_page die)
  rw [State.domOn, hr]
  by_cases hw : Rg.PWR_DOM_STAT e (j / 32) = Rg.PWR_DOM_STAT die (d / 32)
  · obtain ⟨rfl, hq⟩ := (domStat_apart e he _ (by omega) die hd _ (by omega)).1 hw
    rw [hw, bit_wr _ _ _ _ _ (Nat.mod_lt _ (by decide))]
    have h1 : j % 32 = d % 32 ↔ j = d := by omega
    simp only [h1, true_and, State.domOn, hq]
  · have hne : ¬(e = die ∧ j = d) := fun h => hw (by rw [h.1, h.2])
    rw [rd_wr_other _ _ _ _ hw, if_neg hne, State.domOn]

/-- A domain's bit changed leaves every other register of the power pages. -/
theorem stays_setDom (s : State) (die d : Nat) (on : Bool) :
    State.stays (fun x => pwrReg x && x != Rg.PWR_DOM_STAT die (d / 32)) s (s.setDom die d on) := by
  refine ((State.stays.refl _ s).wr fun x hx => ?_).setInt (fun x hx => ?_) (pwr_page die)
  · exact bne_iff_ne.1 (Bool.and_eq_true_iff.1 hx).2
  · exact pwrReg_own (Bool.and_eq_true_iff.1 hx).1

/-! ## A start of an HBM unit -/

/-- The pages of the HBM units, of their repair, and of eMRAM. -/
def hbmPage (g : Nat) : Bool := decide (0x1060 ≤ g ∧ g ≤ 0x1064) || g == 0x1082

theorem hbmPage_ne {x a : Nat} (h : hbmPage (x / 0x1000) = false) (ha : hbmPage (a / 0x1000) = true) : x ≠ a := fun e => by
  rw [e, ha] at h
  exact absurd h (by decide)

theorem hbmc_place {k o : Nat} (hk : k < 4) (ho : o < 0x1000) : hbmPage ((Pg.HBMC k + o) / 0x1000) = true ∧ (Pg.HBMC k + o) % 0x1000 = o ∧
    notDom (Pg.HBMC k + o) = true := by
  have e : (Pg.HBMC k + o) / 0x1000 = 0x1060 + k := by unfold Pg.HBMC; omega
  refine ⟨?_, by unfold Pg.HBMC; omega, notDom_of_page (by omega) (by omega)⟩
  rw [e, hbmPage, decide_eq_true (by omega)]
  rfl

theorem stacks_le (p : Part) : p.stacks ≤ 4 := by cases p <;> decide

section
variable {P : Nat → Bool} {s t : State} (hP : ∀ x, P x = true → ownReg x = true ∧ hbmPage (x / 0x1000) = false) {k : Nat} (hk : k < 4)
include hP

theorem State.calm.emWrote (h : State.calm P s t) {n : Nat} : State.calm P s (t.emWrote n) :=
  h.bump64 (fun x hx => ⟨(hP x hx).1, hbmPage_ne (hP x hx).2 (by decide), hbmPage_ne (hP x hx).2 (by decide)⟩) (by decide) (by decide) rfl rfl

theorem State.calm.migRecord (h : State.calm P s t) : State.calm P s (t.migRecord k) :=
  (h.trans (State.calm.ofParts (t := { t with hb := { t.hb with mig := sset (64, 64, 0) t.hb.mig k (t.migSource k, t.migTarget k, t.migPtr k) } }))).emWrote hP

include hk

theorem State.calm.hbmcStat (h : State.calm P s t) {fl : Fld} {v : Nat} : State.calm P s (t.setF (Rg.HBMC_STAT k) fl v) := by
  obtain ⟨hg, ho, hd⟩ := hbmc_place hk (o := 0x10C) (by decide)
  have ho' : Rg.HBMC_STAT k % 0x1000 = 0x10C := ho
  exact h.setF (fun x hx => hbmPage_ne (hP x hx).2 hg) (by omega) hd

theorem State.calm.hbmCount (h : State.calm P s t) : State.calm P s (t.hbmCount k) :=
  ((h.hbmcStat hP hk).hbmcStat hP hk).setF (fun x hx => hbmPage_ne (hP x hx).2 (by decide)) (by decide) rfl

theorem State.calm.setSr (h : State.calm P s t) {r : Nat} {on : Bool} : State.calm P s (t.setSr k r on) := by
  obtain ⟨hg, ho, hd⟩ := hbmc_place hk (o := 0x198) (by decide)
  exact State.calm.setTf (State.calm.ite (c := (on && !t.rankSr k r) = true) (h.bump (fun x hx => ⟨(hP x hx).1, hbmPage_ne (hP x hx).2 hg⟩) (by omega) (by omega) hd) h)

end

section
variable {P : Nat → Bool} {s t : State} (hP : ∀ x, P x = true → ownReg x = true ∧ hbmPage (x / 0x1000) = false) {k : Nat}

/-- A stack kept across a start. -/
def State.keepStack (s : State) (k : Nat) : State := { s with hb := { s.hb with keep := k :: s.hb.keep.filter (· != k) } }

theorem State.calm.keepStack (h : State.calm P s t) : State.calm P s (t.keepStack k) := h.trans .ofParts

/-- A start of a stack that is up: its ranks keep their contents in self-refresh. -/
def State.hbmKept (s : State) (k : Nat) : State :=
  ((((List.range 64).foldl (fun t r => if t.rankState k r = rkFailed then t else t.setSr k r true) s).keepStack k).setF
    (Rg.HBMC_STAT k) Fd.HBMC_STAT_UP 0).hbmCount k

/-- A start of any other: the unit is emptied. -/
def State.hbmEmptied (s : State) (k : Nat) : State :=
  { s with
    hb := { s.hb with keep := s.hb.keep.filter (· != k), q := s.hb.q.filter (·.1 / 1024 != k), hard := s.hb.hard.filter (·.1 / 64 != k) }
    hbm := s.hbm.filter fun e => (s.part.hbmPlace (e.1 * 16)).1 != k
    marks := s.marks.filter fun e => e.1 / 2 ^ 56 / 256 != Pg.HBMC k / 0x1000 }

theorem State.calm.hbmEmptied (h : State.calm P s t) : State.calm P s (t.hbmEmptied k) := h.trans .ofParts

/-- A unit in training. -/
def State.hbmTrains (s : State) (k : Nat) : State := (s.setF (Rg.HBMC_STAT k) Fd.HBMC_STAT_TRAINING 1).setF (Rg.HBMC_STAT k) Fd.HBMC_STAT_INIT_FAIL 0

theorem hbmStart_eq (s : State) (k : Nat) : s.hbmStart k =
    if (!s.isRank k 0 || s.fb (Rg.HBMC_STAT k) Fd.HBMC_STAT_TRAINING) = true then s
    else if s.stackTrained k then
      (if ((s.hbmTrains k).hbmKept k).migBusy k then ((s.hbmTrains k).hbmKept k).migRecord k else (s.hbmTrains k).hbmKept k)
    else (s.hbmTrains k).hbmEmptied k := rfl

include hP

theorem State.calm.hbmTrains (h : State.calm P s t) (hk : k < 4) : State.calm P s (t.hbmTrains k) := (h.hbmcStat hP hk).hbmcStat hP hk

theorem State.calm.hbmKept (h : State.calm P s t) (hk : k < 4) : State.calm P s (t.hbmKept k) := by
  have h1 := State.calm.foldl (f := fun t r => if t.rankState k r = rkFailed then t else t.setSr k r true) (l := List.range 64)
    (fun v r _ => State.calm.ite (c := v.rankState k r = rkFailed) (.refl P v) ((State.calm.refl P v).setSr hP hk)) h
  unfold State.hbmKept
  generalize (List.range 64).foldl (fun t r => if t.rankState k r = rkFailed then t else t.setSr k r true) t = v at h1
  exact (h1.keepStack.hbmcStat hP hk).hbmCount hP hk

theorem State.calm.hbmStart (h : State.calm P s t) : State.calm P s (t.hbmStart k) := by
  rw [hbmStart_eq]
  split
  next => exact h
  next hr =>
    have hk : k < 4 := by
      simp only [Bool.or_eq_true, not_or, Bool.not_eq_true', Bool.not_eq_false, State.isRank, Bool.and_eq_true, decide_eq_true_eq] at hr
      exact Nat.lt_of_lt_of_le hr.1.1.1 (stacks_le _)
    have h1 := h.hbmTrains hP hk
    have h2 := h1.hbmKept hP hk
    split
    · exact .ite (h2.migRecord hP) h2
    · exact h1.hbmEmptied

end

theorem pwrReg_hbm {x : Nat} (h : pwrReg x = true) : ownReg x = true ∧ hbmPage (x / 0x1000) = false := by
  obtain ⟨ho, e | e⟩ := pwrReg_iff.1 h
  · exact ⟨ho, by rw [e]; rfl⟩
  · exact ⟨ho, by rw [e]; rfl⟩

/-! ## The exit from standby starts -/

theorem stbyExit_idle {s : State} (h : s.stby ≠ 2) : s.stbyExit = s := if_pos h

/-- The link in training. -/
def State.linkTrains (s : State) : State := { s with d2 := { s.d2 with training := true } }

theorem linkTrains_rest (s : State) : s.linkTrains.d2.training = true ∧ (∀ x, s.linkTrains.rd x = s.rd x) ∧ s.linkTrains.part = s.part ∧
    s.linkTrains.pw = s.pw := ⟨rfl, fun _ => rfl, rfl, rfl⟩

/-- Exit under way. -/
def State.stbyLeaves (s : State) : State := (s.setF (Rg.PWR_STBY 1) Fd.PWR_STBY_STATE 3).linkTrains

theorem stbyExit_eq {s : State} (h : s.stby = 2) :
    s.stbyExit = (List.range s.part.stacks).foldl (fun (t : State) (k : Nat) => if t.stackTrained k then t.hbmStart k else t) s.stbyLeaves :=
  if_neg (by rw [h]; decide)

theorem stbyExit_calm {s : State} (h : s.stby = 2) : State.calm pwrReg s.stbyLeaves s.stbyExit := by
  rw [stbyExit_eq h]
  exact .foldl (fun v k _ => .ite ((State.calm.refl _ v).hbmStart fun x hx => pwrReg_hbm hx) (.refl _ v)) (.refl _ _)

theorem stbyExit_shows {s : State} (h : s.stby = 2) : s.stbyExit.stby = 3 ∧ s.stbyExit.d2.training = true ∧ keepsInt s s.stbyExit ∧
    ∀ x, pwrReg x = true → x ≠ Rg.PWR_STBY 1 → s.stbyExit.rd x = s.rd x := by
  have hc := stbyExit_calm h
  generalize s.stbyExit = t at hc
  obtain ⟨hd, hr, -, -⟩ := linkTrains_rest (s.setF (Rg.PWR_STBY 1) Fd.PWR_STBY_STATE 3)
  have hx : ∀ x, s.stbyLeaves.rd x = (s.setF (Rg.PWR_STBY 1) Fd.PWR_STBY_STATE 3).rd x := hr
  refine ⟨?_, (congrArg D2dSt.training hc.d2).trans hd, fun pg b hg hb hbit => hc.ints pg b hg hb ?_, fun x hx1 hne => ?_⟩
  · rw [State.stby, f_of_rd (hc.rd _ (by decide)), f_of_rd (hx _), f_setF_same _ _ _ _ (by decide)]
    rfl
  · rw [hx]
    exact keepsInt_wr s (Rg.PWR_STBY 1) _ (by decide) pg b hg hb hbit
  · rw [hc.rd x hx1, hx, rd_setF_other _ _ _ _ _ hne]

end Sys2Proof.Machine
end

section
/-! PROOF. O60: resets, reference clocks, temperatures and pins (R378 to R389). -/
namespace Sys2Proof.Machine

/-! ## Device resets -/

theorem pageOn_held {s : State} (h : s.pw.por = true ∨ s.pw.sup = true) (page : Nat) : s.pageOn page = false := by
  unfold State.pageOn
  obtain h | h := h <;> rw [h]
  · rfl
  · rw [Bool.not_true, Bool.and_false]
    rfl

theorem powerOn_shows (s : State) (env : BootEnv) : s.resetWith (s.powerOn env) env (if s.pw.trip then 5 else 1) ∧ (s.powerOn env).pw.trip = false :=
  reset_shows (s := { s with pw := { s.pw with por := false, sup := false, trip := false, tripPin := false } }) (by split <;> decide) none env rfl rfl

theorem poreset_shows (s : State) : s.poreset = { s with pw := { s.pw with por := true, tripPin := false }, out := s.poreset.out } ∧
    ∀ page, s.poreset.pageOn page = false := by
  refine ⟨?_, fun page => pageOn_held (.inl rfl) page⟩
  unfold State.poreset
  split <;> rfl

theorem warm_held {s : State} {clk : Nat} {env : BootEnv} (h : s.pw.por = true ∨ s.pw.sup = true) : s.warmPin clk env = s :=
  if_pos (by simpa using h)

theorem warm_reset {s : State} {clk : Nat} {env : BootEnv} (hp : s.pw.por = false) (hs : s.pw.sup = false)
    (hw : ∀ x, s.pw.lastWarm = some x → x + 200000000 ≤ s.at clk) : s.resetWith (s.warmPin clk env) env 2 := by
  have hn : s.pw.lastWarm.any (fun t => decide ((s.at clk : Int) - t < 200000000)) = false := by
    cases hl : s.pw.lastWarm with
    | none => rfl
    | some x =>
      have := hw x hl
      exact decide_eq_false (by omega)
  have e : s.warmPin clk env = (s.deviceReset 2 (some (-400000))).boot env := by
    unfold State.warmPin
    rw [hp, hs, hn]
    rfl
  rw [e]
  exact (reset_shows (by decide) _ env hp hs).1

theorem pwrCnt_place (o : Nat) (h1 : 0x100 ≤ o) (h2 : o < 0x800) (d : Nat) : ownReg (Pg.PWR d + o) = true ∧ (Pg.PWR d + o) / 0x1000 = Pg.PWR d / 0x1000 ∧
    (Pg.PWR d + o) / 0x1000 * 0x1000 = Pg.PWR d ∧ 0x100 ≤ (Pg.PWR d + o) % 0x1000 ∧ (Pg.PWR d + o) % 0x1000 < 0x800 := by
  have h : Pg.PWR d = 0xE0000 ∨ Pg.PWR d = 0x10B0000 := by unfold Pg.PWR; split <;> simp
  refine ⟨ownReg_iff.2 ⟨?_, ?_⟩, ?_, ?_, ?_, ?_⟩
  all_goals omega

theorem bump_shows (s : State) {a : Nat} (ho : ownReg a = true) (h1 : 0x100 ≤ a % 0x1000) (h2 : a % 0x1000 < 0x800) (hp : s.pageOn (a / 0x1000) = true) :
    (s.bump a).rd a = (s.rd a + 1) % 2 ^ 32 ∧ State.onlyRegs (fun y => y == a || cntReg (a / 0x1000 * 0x1000) y) s (s.bump a) :=
  ⟨bump_rd_own s a 1 ho h1 h2 hp, onlyRegs_bump s a 1 h2⟩

theorem warm_ignored {s : State} {clk : Nat} {env : BootEnv} (hp : s.pw.por = false) (hs : s.pw.sup = false) {x : Int}
    (hw : s.pw.lastWarm = some x) (hlt : (s.at clk : Int) < x + 200000000) : s.warmPin clk env = s.bump (Rg.PWR_WARM_IGNORED_CNT 1) := by
  have hn : s.pw.lastWarm.any (fun t => decide ((s.at clk : Int) - t < 200000000)) = true := by
    rw [hw]
    exact decide_eq_true (by omega)
  unfold State.warmPin
  rw [hp, hs, hn]
  rfl

theorem supply_held {s : State} (h : s.pw.por = true ∨ s.pw.sup = true) : s.supplyLost = s := if_pos (by simpa using h)

theorem supply_shows {s : State} (hp : s.pw.por = false) (hs : s.pw.sup = false) : s.supplyLost.pw.sup = true ∧ s.supplyLost.rd (Rg.PWR_RESET_CAUSE 1) = 4 ∧
    ∀ page, s.supplyLost.pageOn page = false := by
  have e : s.supplyLost = ({ s with pw := { s.pw with sup := true } } : State).deviceReset 4 none := if_neg (by rw [hp, hs]; decide)
  rw [e]
  generalize hu : ({ s with pw := { s.pw with sup := true } } : State) = u
  have hsup : (u.deviceReset 4 none).pw.sup = true := by
    rw [onlyRegs_proj (onlyRegs_deviceReset u 4 none) State.pw, ← hu]
    rfl
  exact ⟨hsup, (deviceReset_cause u (by decide) none).2, pageOn_held (.inr hsup)⟩

theorem supplyBack_held {s : State} {env : BootEnv} (h : s.pw.sup = false ∨ s.pw.por = true) : s.supplyBack env = s := if_pos (by simpa using h)

theorem supplyBack_shows {s : State} {env : BootEnv} (hs : s.pw.sup = true) (hp : s.pw.por = false) : s.resetWith (s.supplyBack env) env 4 := by
  have e : s.supplyBack env = (({ s with pw := { s.pw with sup := false } } : State).deviceReset 4 none).boot env := if_neg (by rw [hp, hs]; decide)
  rw [e]
  exact (reset_shows (s := { s with pw := { s.pw with sup := false } }) (by decide) none env hp rfl).1

/-! ## Writes of PWR_RESET -/

theorem held_of_pageOn {s : State} {page : Nat} (h : s.pageOn page = true) : s.pw.por = false ∧ s.pw.sup = false := by
  cases hp : s.pw.por with
  | true => rw [pageOn_held (.inl hp)] at h; exact absurd h (by decide)
  | false =>
    cases hs : s.pw.sup with
    | true => rw [pageOn_held (.inr hs)] at h; exact absurd h (by decide)
    | false => exact ⟨rfl, rfl⟩

theorem powerRefuse_shows (s : State) (d : Nat) (hp : s.pageOn (Pg.PWR d / 0x1000) = true) :
    (s.powerRefuse d).rd (Rg.PWR_REFUSE_CNT d) = (s.rd (Rg.PWR_REFUSE_CNT d) + 1) % 2 ^ 32 ∧
      bit ((s.powerRefuse d).rd (Pg.PWR d + 0x010)) Ib.PWR_REFUSED = true ∧
      State.onlyRegs (fun y => y == Rg.PWR_REFUSE_CNT d || cntReg (Pg.PWR d) y) s (s.powerRefuse d) := by
  obtain ⟨ho, hpg, hbase, h1, h2⟩ := pwrCnt_place 0x180 (by decide) (by decide) d
  obtain ⟨hc, hreg⟩ := bump_shows s (a := Rg.PWR_REFUSE_CNT d) ho h1 h2 (hpg ▸ hp)
  have hbase' : Rg.PWR_REFUSE_CNT d / 0x1000 * 0x1000 = Pg.PWR d := hbase
  rw [hbase'] at hreg
  refine ⟨(rd_setInt_own ho (pwr_page d)).trans hc, setInt_bit _ _ _ (pwr_page d) (by decide) ?_, hreg.setInt fun x hx => cntReg_int _ _ ?_⟩
  · rw [onlyRegs_pageOn hreg fun e w he hw => ?_]
    · exact hp
    · rw [cntReg_dom _ e w (pwr_page d) he hw, Bool.or_false, beq_eq_false_iff_ne]
      have hd : Pg.PWR d = 0xE0000 ∨ Pg.PWR d = 0x10B0000 := by unfold Pg.PWR; split <;> simp
      have he' : Pg.PWR e = 0xE0000 ∨ Pg.PWR e = 0x10B0000 := by unfold Pg.PWR; split <;> simp
      have e1 : Rg.PWR_DOM_STAT e w = Pg.PWR e + 0x108 + 4 * w := rfl
      have e2 : Rg.PWR_REFUSE_CNT d = Pg.PWR d + 0x180 := rfl
      omega
  · exact (Bool.or_eq_false_iff.1 hx).2

/-! ## The reset of the F-die -/

section
variable {s t : State}

theorem none_all {Q : Nat → Prop} : ∀ x : Nat, noReg x = true → Q x := fun _ h => absurd h Bool.false_ne_true

section
variable {P : Nat → Bool} (hP : ∀ x, P x = true → ownReg x = true ∧ x / 0x1000 ≠ 0x1082)
include hP

theorem emram_ne {a : Nat} (ha : a / 0x1000 = 0x1082) : ∀ x, P x = true → ownReg x = true ∧ x ≠ a := fun x hx => ⟨(hP x hx).1, fun e => (hP x hx).2 (e ▸ ha)⟩

theorem stays_logPut (h : State.stays P s t) {r : LogRec} : State.stays P s (t.logPut r) := by
  have hne := fun a ha x hx => (emram_ne hP (a := a) ha x hx).2
  refine .ite ?_ ?_
  · have h1 : State.stays P t (t.putRec r) :=
      ((((State.stays.refl P t).thenParts.wr (hne _ rfl)).wr (hne _ rfl)).trans ((State.calm.refl P _).bump64
        (fun x hx => ⟨(hP x hx).1, hne _ rfl x hx, hne _ rfl x hx⟩) (by decide) (by decide) rfl rfl).stays)
    exact (h.trans h1).thenParts
  · exact ((h.thenParts (u := { t with lg := { t.lg with dropped := t.lg.dropped + 1 } })).bump (emram_ne hP rfl) (by decide) (by decide) rfl).setInt
      (fun x hx => (hP x hx).1) rfl

theorem stays_pathBack (h : State.stays P s t) : State.stays P s t.pathBack := by
  have h0 : State.stays P s ({ t with lg := { t.lg with held := [], heldDropped := 0, dropped := t.lg.dropped + t.lg.heldDropped } } : State) := h.thenParts
  have h1 := State.stays.ite (c := t.lg.heldDropped = 0) h0 ((h0.bump (a := Rg.EMRAM_LOG_DROP_CNT) (n := t.lg.heldDropped) (emram_ne hP rfl) (by decide)
    (by decide) rfl).setInt (pg := Pg.EMRAM) (b := Ib.EMRAM_LOG_DROP) (fun x hx => (hP x hx).1) rfl)
  have h2 := State.stays.foldl (l := t.lg.held) (f := fun t r => t.logPut r) (fun v _ _ => stays_logPut hP (.refl _ v)) h1
  exact .foldl (fun v _ _ => .ite ((State.stays.refl _ v).raiseSrc fun x hx => (hP x hx).1) (.refl _ v)) h2.thenParts

theorem stays_withPaths (s : State) (f : State → State) : State.stays P (f s) (s.withPaths f) :=
  .ite (State.stays.refl _ _).thenParts (.ite (stays_pathBack hP (.refl _ _)) (.refl _ _))

end

theorem stays_enter (s : State) (n : Nat) : State.stays noReg s (s.linkEnter n) :=
  ((((State.stays.refl noReg s).setF none_all).setF none_all).trans (stays_withPaths none_all s fun t =>
    (t.setF (Rg.D2D_STAT 0) Fd.D2D_STAT_STATE n).setF (Rg.D2D_STAT 1) Fd.D2D_STAT_STATE n)).setInt none_all rfl |>.setInt none_all rfl

theorem stays_setPool (h : State.stays noReg s t) (m : Sparse EPkt) : State.stays noReg s (t.setPool m) := by
  have h1 : State.stays noReg s (({ t with eg := { t.eg with pk := m } } : State).wr Rg.EQS_POOL_STAT (m.map (·.2.cells)).sum) := h.thenParts.wr none_all
  exact .ite (h1.wr none_all) h1

theorem stays_flush (h : State.stays noReg s t) : State.stays noReg s t.egressFlush := by
  have h1 : State.stays noReg s (({ t with eg := { t.eg with fresh := [], queues := [], deficit := [], txing := [] } } : State).setPool []) :=
    stays_setPool h.thenParts []
  exact .ite h1 ((h1.bump none_all (by decide) (by decide) rfl).setInt none_all rfl)

theorem stays_down (h : State.stays noReg s t) : State.stays noReg s t.d2dDownActions := by
  have h1 : State.stays noReg s ((t.setInts (Pg.D2D 0) (2 ^ Ib.D2D_LINK_DOWN)).setInts (Pg.D2D 1) (2 ^ Ib.D2D_LINK_DOWN)) := (h.setInts none_all rfl).setInts none_all rfl
  have h2 := h1.trans ((State.calm.refl noReg _).log (pg := Pg.D2D 1) (code := 0x0034) (data := 0) none_all).stays
  have h3 := (stays_flush h2).trans ((State.calm.refl noReg _).withdrawSelf none_all true).stays
  exact h3.thenParts

theorem stays_d2dRefresh (s : State) : State.stays noReg s s.d2dRefresh :=
  .foldl (fun v _ _ => (((State.stays.refl _ v).setF none_all).setF none_all).setF none_all) (.refl _ s)

theorem d2dEval_cases (s : State) (back : Bool) : s.d2dEval back = s.d2dRefresh ∨ ∃ n,
    (s.d2dEval back = ({ s.d2dRefresh.linkEnter n with d2 := { (s.d2dRefresh.linkEnter n).d2 with downTicks := 0 } } : State).d2dDownActions ∨
      (∃ on, s.d2dEval back = (s.d2dRefresh.linkEnter n).withdrawSelf on) ∨ s.d2dEval back = s.d2dRefresh.linkEnter n) := by
  have he : s.d2dEval back =
      if s.d2dRefresh.d2dWant = s.d2dRefresh.f (Rg.D2D_STAT 0) Fd.D2D_STAT_STATE ∨ (s.d2dRefresh.f (Rg.D2D_STAT 0) Fd.D2D_STAT_STATE = 0 ∧ !back) then s.d2dRefresh
      else if s.d2dRefresh.d2dWant = 0 then
        ({ s.d2dRefresh.linkEnter s.d2dRefresh.d2dWant with d2 := { (s.d2dRefresh.linkEnter s.d2dRefresh.d2dWant).d2 with downTicks := 0 } } : State).d2dDownActions
      else if s.d2dRefresh.f (Rg.D2D_STAT 0) Fd.D2D_STAT_STATE = 0 then
        (s.d2dRefresh.linkEnter s.d2dRefresh.d2dWant).withdrawSelf ((s.d2dRefresh.linkEnter s.d2dRefresh.d2dWant).fb Rg.FCRD_CTRL Fd.FCRD_CTRL_WITHDRAW)
      else s.d2dRefresh.linkEnter s.d2dRefresh.d2dWant := rfl
  rw [he]
  split_ifs
  · exact .inl rfl
  · exact .inr ⟨_, .inl rfl⟩
  · exact .inr ⟨_, .inr (.inl ⟨_, rfl⟩)⟩
  · exact .inr ⟨_, .inr (.inr rfl)⟩

theorem stays_gone (h : State.stays noReg s t) : State.stays noReg s ({ t with d2 := { t.d2 with downTicks := 0 } } : State).d2dDownActions :=
  stays_down h.thenParts

theorem stays_withdraw (h : State.stays noReg s t) (on : Bool) : State.stays noReg s (t.withdrawSelf on) :=
  h.trans ((State.calm.refl noReg t).withdrawSelf none_all on).stays

theorem stays_d2dEval (s : State) (back : Bool) : State.stays noReg s (s.d2dEval back) := by
  have h0 := stays_d2dRefresh s
  have h1 := fun n => h0.trans (stays_enter s.d2dRefresh n)
  obtain e | ⟨n, e | ⟨on, e⟩ | e⟩ := d2dEval_cases s back
  · exact e.symm ▸ h0
  · exact e.symm ▸ stays_gone (h1 n)
  · exact e.symm ▸ stays_withdraw (h1 n) on
  · exact e.symm ▸ h1 n

end

/-- The link given up and the management path gone, as the T-die finds them. -/
def State.cutOff (s : State) : State := ({ s with d2 := { s.d2 with trained := false, training := true } } : State).d2dEval false

def State.noPath (s : State) : State := { s with d2 := { s.d2 with mgmtUp := false } }

theorem noPath_rest (s : State) : s.noPath.part = s.part ∧ s.noPath.d2.mgmtUp = false ∧ ∀ x, s.noPath.rd x = s.rd x := ⟨rfl, rfl, fun _ => rfl⟩

theorem cutOff_shows (s : State) : (s.cutOff.withPaths State.noPath).part = s.part ∧ (s.cutOff.withPaths State.noPath).d2.mgmtUp = false ∧
    (s.cutOff.withPaths State.noPath).rd (Rg.PWR_RESET_CAUSE 1) = s.rd (Rg.PWR_RESET_CAUSE 1) := by
  unfold State.cutOff
  generalize hu : ({ s with d2 := { s.d2 with trained := false, training := true } } : State) = u
  have hp : u.part = s.part := by rw [← hu]
  have hr : u.rd (Rg.PWR_RESET_CAUSE 1) = s.rd (Rg.PWR_RESET_CAUSE 1) := by rw [← hu]; rfl
  have hfree : linkFree (Rg.PWR_RESET_CAUSE 1) = true := by decide
  have hs := (d2dEval_shows u false).1.rd_free hfree
  have hpart := (stays_d2dEval u false).part
  generalize u.d2dEval false = v at hs hpart
  have hl := linkFrame_paths statReg v State.noPath
  have hw := (stays_withPaths (P := noReg) none_all v State.noPath).part
  obtain ⟨hv, hm, hx⟩ := noPath_rest v
  refine ⟨hw.trans (hv.trans (hpart.trans hp)), ?_, (hl.rd_free hfree).trans ((hx _).trans (hs.trans hr))⟩
  rw [hl.1]
  exact hm

theorem loseF_rest (s : State) : s.loseF.part = s.part ∧ s.loseF.d2 = s.d2 ∧
    ∀ x, s.loseF.rd x = if decide (0x1000 ≤ x / 0x1000) || x == Rg.RAS_REPAIR_USED 0 then s.rd x else regReset s.part x :=
  ⟨rfl, rfl, fun x => rd_of_filter (s := s) (t := s.loseF) (q := fun x => decide (0x1000 ≤ x / 0x1000) || x == Rg.RAS_REPAIR_USED 0) rfl rfl x⟩

theorem dropParts_rest (l : List Nat) (s : State) : (l.foldl State.dropPart s).regs = s.regs ∧ (l.foldl State.dropPart s).part = s.part ∧
    (l.foldl State.dropPart s).d2 = s.d2 ∧ (l.foldl State.dropPart s).out = s.out ∧ (l.foldl State.dropPart s).pw = s.pw := by
  induction l generalizing s with
  | nil => exact ⟨rfl, rfl, rfl, rfl, rfl⟩
  | cons p l ih => exact ih (s.dropPart p)

/-- What the F-die's contents lost leave, with their images gone. -/
def State.fdieLost (s : State) : State := (0 :: (List.range 26).map (2 + ·)).foldl State.dropPart s.loseF

/-- The cause shown on the F-die, and its clocks as they are found. -/
def State.fdieStarts (s : State) (clocks : Nat) : State :=
  (({ s with d2 := { s.d2 with minF := 4, rxF := List.replicate 16 {} } } : State).wr (Rg.PWR_RESET_CAUSE 0) 6).wr (Rg.CLK_STAT 0) clocks

theorem fdieReset_eq (s : State) (env : BootEnv) : ∃ c, s.fdieReset env = ((s.cutOff.withPaths State.noPath).fdieLost).fdieStarts c := ⟨_, rfl⟩

theorem fdieStarts_rest (s : State) (c : Nat) : (s.fdieStarts c).rd (Rg.PWR_RESET_CAUSE 0) = 6 ∧ (s.fdieStarts c).d2.mgmtUp = s.d2.mgmtUp ∧
    ∀ x, x ≠ Rg.PWR_RESET_CAUSE 0 → x ≠ Rg.CLK_STAT 0 → (s.fdieStarts c).rd x = s.rd x := by
  refine ⟨(rd_wr_other _ _ _ _ (by decide)).trans ?_, rfl, fun x h0 h1 => ((rd_wr_other _ _ _ _ h1).trans (rd_wr_other _ _ _ _ h0)).trans rfl⟩
  rw [rd_wr_same]
  rfl

theorem d2dStat_reset (p : Part) : bits (regReset p (Rg.D2D_STAT 0)) Fd.D2D_STAT_STATE.lo Fd.D2D_STAT_STATE.w = 0 := by cases p <;> decide

theorem fdieReset_shows (s : State) (env : BootEnv) : (s.fdieReset env).rd (Rg.PWR_RESET_CAUSE 0) = 6 ∧
    (s.fdieReset env).rd (Rg.PWR_RESET_CAUSE 1) = s.rd (Rg.PWR_RESET_CAUSE 1) ∧ (s.fdieReset env).pathUp = false ∧
    ∀ x, x < 0x1000000 → x ≠ Rg.RAS_REPAIR_USED 0 → bootReg x = false → (s.fdieReset env).rd x = regReset s.part x := by
  obtain ⟨c, e⟩ := fdieReset_eq s env
  obtain ⟨hp, hm, hc⟩ := cutOff_shows s
  rw [e]
  generalize s.cutOff.withPaths State.noPath = u at hp hm hc
  obtain ⟨lp, ld, lr⟩ := loseF_rest u
  obtain ⟨dr, dp, dd, -, -⟩ := dropParts_rest (0 :: (List.range 26).map (2 + ·)) u.loseF
  have hl : ∀ x, u.fdieLost.rd x = if decide (0x1000 ≤ x / 0x1000) || x == Rg.RAS_REPAIR_USED 0 then u.rd x else regReset u.part x :=
    fun x => (rd_congr dp dr x).trans (lr x)
  obtain ⟨s0, sm, sr⟩ := fdieStarts_rest u.fdieLost c
  have hx : ∀ x, x < 0x1000000 → x ≠ Rg.RAS_REPAIR_USED 0 → u.fdieLost.rd x = regReset s.part x := fun x hlt hne => by
    rw [hl, if_neg, hp]
    rw [Bool.or_eq_true, decide_eq_true_eq, beq_iff_eq]
    omega
  refine ⟨s0, ?_, ?_, fun x hlt hne hb => ?_⟩
  · rw [sr _ (by decide) (by decide), hl, if_pos (by decide), hc]
  · have hd : (u.fdieLost.fdieStarts c).d2dDown = true := by
      have hr : (u.fdieLost.fdieStarts c).rd (Rg.D2D_STAT 0) = regReset s.part (Rg.D2D_STAT 0) :=
        (sr _ (by decide) (by decide)).trans (hx _ (by decide) (by decide))
      rw [State.d2dDown, State.f, hr, d2dStat_reset]
      rfl
    have hmm : u.fdieLost.d2.mgmtUp = false := by
      have : u.fdieLost.d2 = u.d2 := dd.trans ld
      rw [this, hm]
    rw [State.pathUp, hd, sm, hmm]
    rfl
  · obtain ⟨h0, -, -, h1, -⟩ := bootReg_not hb
    rw [sr x h0 h1, hx x hlt hne]

/-! ## Temperatures -/

theorem temp_place (d : Nat) : ownReg (Rg.PWR_TEMP d) = true ∧ Rg.PWR_TEMP d % 0x1000 ≠ 0x010 := by
  have h : Pg.PWR d = 0xE0000 ∨ Pg.PWR d = 0x10B0000 := by unfold Pg.PWR; split <;> simp
  have e : Rg.PWR_TEMP d = Pg.PWR d + 0x140 := rfl
  exact ⟨ownReg_iff.2 ⟨by omega, by omega⟩, by omega⟩

theorem stays_dieTemp (s : State) (d temp : Nat) : State.stays (fun x => ownReg x && x != Rg.PWR_TEMP d) s (s.dieTemp d temp) := by
  have hne : ∀ x, (ownReg x && x != Rg.PWR_TEMP d) = true → x ≠ Rg.PWR_TEMP d := fun x hx => bne_iff_ne.1 (Bool.and_eq_true_iff.1 hx).2
  have h := ((State.stays.refl _ s).setF (a := Rg.PWR_TEMP d) (v := min 255 temp) (fl := Fd.PWR_TEMP_TEMP) hne).setF (a := Rg.PWR_TEMP d)
    (v := max (max (min 255 temp) (s.f (Rg.PWR_TEMP d) Fd.PWR_TEMP_TEMP)) (s.f (Rg.PWR_TEMP d) Fd.PWR_TEMP_PEAK)) (fl := Fd.PWR_TEMP_PEAK) hne
  exact .ite (h.setInt (fun x hx => (Bool.and_eq_true_iff.1 hx).1) (pwr_page d)) h

theorem f_lt (s : State) (a : Nat) (fl : Fld) : s.f a fl < 2 ^ fl.w := bits_lt _ _ _

theorem dieTemp_shows (s : State) (d temp : Nat) : (s.dieTemp d temp).f (Rg.PWR_TEMP d) Fd.PWR_TEMP_TEMP = min 255 temp ∧
    (s.dieTemp d temp).f (Rg.PWR_TEMP d) Fd.PWR_TEMP_PEAK =
      max (max (min 255 temp) (s.f (Rg.PWR_TEMP d) Fd.PWR_TEMP_TEMP)) (s.f (Rg.PWR_TEMP d) Fd.PWR_TEMP_PEAK) ∧
    (s.f (Rg.PWR_TEMP d) Fd.PWR_TEMP_TEMP < s.f (Rg.PWR_TEMP d) Fd.PWR_TEMP_ALERT → s.f (Rg.PWR_TEMP d) Fd.PWR_TEMP_ALERT ≤ min 255 temp →
      s.pageOn (Pg.PWR d / 0x1000) = true → bit ((s.dieTemp d temp).rd (Pg.PWR d + 0x010)) Ib.PWR_TEMP_ALERT = true) := by
  obtain ⟨ho, hi⟩ := temp_place d
  have hl1 : s.f (Rg.PWR_TEMP d) Fd.PWR_TEMP_TEMP < 256 := f_lt s _ _
  have hl2 : s.f (Rg.PWR_TEMP d) Fd.PWR_TEMP_PEAK < 256 := f_lt s _ _
  generalize hx : min 255 temp = x
  have hx' : x < 256 := by omega
  generalize hm : max (max x (s.f (Rg.PWR_TEMP d) Fd.PWR_TEMP_TEMP)) (s.f (Rg.PWR_TEMP d) Fd.PWR_TEMP_PEAK) = m
  have hm' : m < 256 := by omega
  have hu : State.onlyRegs (fun y => y == Rg.PWR_TEMP d) s ((s.setF (Rg.PWR_TEMP d) Fd.PWR_TEMP_TEMP x).setF (Rg.PWR_TEMP d) Fd.PWR_TEMP_PEAK m) :=
    ((onlyRegs_setF s _ _ _ (beq_self_eq_true _) : State.onlyRegs (fun y => y == Rg.PWR_TEMP d) s _)).setF (beq_self_eq_true _)
  have e : s.dieTemp d temp = ((s.setF (Rg.PWR_TEMP d) Fd.PWR_TEMP_TEMP x).setF (Rg.PWR_TEMP d) Fd.PWR_TEMP_PEAK m).setIntIf
      (!decide (s.f (Rg.PWR_TEMP d) Fd.PWR_TEMP_ALERT ≤ s.f (Rg.PWR_TEMP d) Fd.PWR_TEMP_TEMP) && decide (s.f (Rg.PWR_TEMP d) Fd.PWR_TEMP_ALERT ≤ x))
      (Pg.PWR d) Ib.PWR_TEMP_ALERT := by rw [← hm, ← hx]; rfl
  have hr : (s.dieTemp d temp).rd (Rg.PWR_TEMP d) = ((s.setF (Rg.PWR_TEMP d) Fd.PWR_TEMP_TEMP x).setF (Rg.PWR_TEMP d) Fd.PWR_TEMP_PEAK m).rd (Rg.PWR_TEMP d) := by
    rw [e]
    exact rd_setIntIf_own ho (pwr_page d)
  refine ⟨?_, ?_, fun h1 h2 hon => ?_⟩
  · rw [f_of_rd hr, f_setF_disjoint _ _ _ _ _ (by decide) (by decide), f_setF_same _ _ _ _ (by decide)]
    exact Nat.mod_eq_of_lt hx'
  · rw [f_of_rd hr, f_setF_same _ _ _ _ (by decide)]
    exact Nat.mod_eq_of_lt hm'
  · have hc : (!decide (s.f (Rg.PWR_TEMP d) Fd.PWR_TEMP_ALERT ≤ s.f (Rg.PWR_TEMP d) Fd.PWR_TEMP_TEMP) &&
        decide (s.f (Rg.PWR_TEMP d) Fd.PWR_TEMP_ALERT ≤ x)) = true := by
      rw [decide_eq_false (by omega), decide_eq_true h2]
      rfl
    rw [e, hc]
    refine setInt_bit _ _ _ (pwr_page d) (by decide) ?_
    rw [onlyRegs_pageOn hu fun e w he hw => beq_false_of_ne fun he2 => ?_]
    · exact hon
    · have hpe : Pg.PWR e = 0xE0000 ∨ Pg.PWR e = 0x10B0000 := by unfold Pg.PWR; split <;> simp
      have hpd : Pg.PWR d = 0xE0000 ∨ Pg.PWR d = 0x10B0000 := by unfold Pg.PWR; split <;> simp
      have e1 : Rg.PWR_DOM_STAT e w = Pg.PWR e + 0x108 + 4 * w := rfl
      have e2 : Rg.PWR_TEMP d = Pg.PWR d + 0x140 := rfl
      omega

/-- The alert pin follows the temperatures; it changes no register. -/
theorem alertEval_shows (s : State) : s.alertEval.pw.alertPin = s.alertEval.hot ∧ (∀ x, s.alertEval.rd x = s.rd x) ∧ State.saysMore s s.alertEval ∧
    s.alertEval.part = s.part ∧ s.alertEval.pw.tripPin = s.pw.tripPin ∧ s.alertEval.pw.por = s.pw.por ∧ s.alertEval.pw.sup = s.pw.sup := by
  by_cases h : s.hot = s.pw.alertPin
  · have e : s.alertEval = s := if_pos h
    rw [e]
    exact ⟨h.symm, fun _ => rfl, .of_out rfl, rfl, rfl, rfl, rfl⟩
  · have e : s.alertEval = (if s.hot then (({ s with pw := { s.pw with alertPin := s.hot } } : State).emit (.pin "THERM_ALERT_N" !s.hot)).emit (.pin "I3C_IBI" true)
        else ({ s with pw := { s.pw with alertPin := s.hot } } : State).emit (.pin "THERM_ALERT_N" !s.hot)) := if_neg h
    rw [e]
    split
    · exact ⟨rfl, fun _ => rfl, (saysMore_emit _ _).trans (saysMore_emit _ _), rfl, rfl, rfl, rfl⟩
    · exact ⟨rfl, fun _ => rfl, saysMore_emit _ _, rfl, rfl, rfl, rfl⟩

theorem hbmTemp_shows (s : State) {k temp : Nat} (hk : k < 4) (ht : temp < 256) : (s.hbmTemp k temp).f (Rg.HBMC_TEMP k) Fd.HBMC_TEMP_TEMP = temp := by
  have e : Rg.HBMC_TEMP k = 0x1060000 + 0x1000 * k + 0x108 := rfl
  have e2 : Rg.HBMC_STAT k = 0x1060000 + 0x1000 * k + 0x10C := rfl
  have e3 : Pg.HBMC k = 0x1060000 + 0x1000 * k := rfl
  have ho : ownReg (Rg.HBMC_TEMP k) = true := ownReg_iff.2 ⟨by omega, by omega⟩
  have hr : (s.hbmTemp k temp).rd (Rg.HBMC_TEMP k) = (s.setF (Rg.HBMC_TEMP k) Fd.HBMC_TEMP_TEMP temp).rd (Rg.HBMC_TEMP k) :=
    (rd_setIntIf_own ho (by omega)).trans (rd_setF_other _ _ _ _ _ (by omega))
  rw [f_of_rd hr, f_setF_same _ _ _ _ (by decide)]
  exact Nat.mod_eq_of_lt ht

theorem thermal_idle {s : State} {site temp : Nat} (h : s.pw.por = true ∨ s.pw.sup = true ∨ 2 + s.part.stacks ≤ site) : s.thermal site temp = s := by
  unfold State.thermal
  obtain h | h | h := h
  · rw [h]; rfl
  · rw [h, Bool.or_true]; rfl
  · split
    · rfl
    · rw [if_neg (by omega), if_neg (by omega)]

theorem thermal_die {s : State} {site temp : Nat} (hp : s.pw.por = false) (hs : s.pw.sup = false) (h : site < 2) :
    s.thermal site temp = (s.dieTemp site temp).alertEval := by
  unfold State.thermal
  rw [hp, hs, if_neg (by decide), if_pos h]

theorem thermal_stack {s : State} {k temp : Nat} (hp : s.pw.por = false) (hs : s.pw.sup = false) (hk : k < s.part.stacks)
    (hon : s.pageOn (Pg.HBMC k / 0x1000) = true) : s.thermal (2 + k) temp = (s.hbmTemp k (min 255 temp)).alertEval := by
  unfold State.thermal
  rw [hp, hs, if_neg (by decide), if_neg (by omega), Nat.add_sub_cancel_left, if_pos ⟨by omega, hon⟩]

/-! ## The trip -/

/-- One domain found on is lost and goes off. -/
def State.tripOne (die : Nat) (u : State) (k : Nat) : State := if u.domOn die k then (u.loseDomain die k).setDom die k false else u

theorem tripOne_shows (u : State) {die k : Nat} (hd : die < 2) (hk : k < 64) : State.stays noReg u (State.tripOne die u k) ∧
    ∀ e j, e < 2 → j < 64 → (State.tripOne die u k).domOn e j = (u.domOn e j && !decide (e = die ∧ j = k)) := by
  unfold State.tripOne
  split
  next hon =>
    have h1 := (State.stays.refl pwrReg u).loseDomain hd hk
    refine ⟨(h1.mono none_all).trans ((stays_setDom _ die k false).mono none_all), fun e j he hj => ?_⟩
    rw [domOn_setDom _ _ hd hk he hj, State.domOn, h1.rd _ (domStat_pwrReg e he _ (by omega)), ← State.domOn]
    by_cases hc : e = die ∧ j = k
    · rw [if_pos hc, decide_eq_true hc, Bool.not_true, Bool.and_false]
    · rw [if_neg hc, decide_eq_false hc, Bool.not_false, Bool.and_true]
  next hoff =>
    refine ⟨.refl _ u, fun e j he hj => ?_⟩
    by_cases hc : e = die ∧ j = k
    · obtain ⟨rfl, rfl⟩ := hc
      rw [Bool.not_eq_true] at hoff
      rw [hoff, Bool.false_and]
    · rw [decide_eq_false hc, Bool.not_false, Bool.and_true]

theorem tripAll_shows {die : Nat} (hd : die < 2) (l : List Nat) (hl : ∀ k ∈ l, k < 64) (u : State) : State.stays noReg u (l.foldl (State.tripOne die) u) ∧
    ∀ e j, e < 2 → j < 64 → (l.foldl (State.tripOne die) u).domOn e j = (u.domOn e j && !decide (e = die ∧ j ∈ l)) := by
  induction l generalizing u with
  | nil => exact ⟨.refl _ u, fun e j _ _ => by simp⟩
  | cons k l ih =>
    obtain ⟨h1, h2⟩ := tripOne_shows u hd (hl k List.mem_cons_self)
    obtain ⟨h3, h4⟩ := ih (fun j hj => hl j (List.mem_cons_of_mem _ hj)) (State.tripOne die u k)
    refine ⟨h1.trans h3, fun e j he hj => (h4 e j he hj).trans ?_⟩
    rw [h2 e j he hj, Bool.and_assoc]
    congr 1
    rw [← Bool.not_or, ← Bool.decide_or]
    exact congrArg (fun b => !b) (decide_eq_decide.2 (by rw [List.mem_cons, ← and_or_left]))

theorem mem_doms {p : Part} {die k : Nat} : k ∈ p.doms die ↔ k < 47 ∧ p.hasDom die k = true := by
  rw [Part.doms, onesOf, List.mem_filter, List.mem_range]
  rfl

/-- The record of a trip, with every ramp given up. -/
def State.tripped (s : State) : State :=
  ({ s with pw := { s.pw with trip := true, tripPin := true, rise := [], wait := [], fall := [] } } : State).emit (.pin "THERM_TRIP_N" false)

theorem tripped_rest (s : State) : s.tripped.pw.trip = true ∧ s.tripped.pw.tripPin = true ∧ Emit.pin "THERM_TRIP_N" false ∈ s.tripped.out ∧
    s.tripped.part = s.part := ⟨rfl, rfl, List.mem_cons_self, rfl⟩

theorem thermalTrip_held {s : State} {d : Nat} (h : s.pw.por = true ∨ s.pw.sup = true ∨ s.pw.tripPin = true) : s.thermalTrip d = s :=
  if_pos (by simpa [or_assoc] using h)

theorem thermalTrip_eq {s : State} {d : Nat} (hp : s.pw.por = false) (hs : s.pw.sup = false) (ht : s.pw.tripPin = false) : ∃ x, s.thermalTrip d =
    [0, 1].foldl (fun (t : State) (die : Nat) => (t.part.doms die).foldl (State.tripOne die) t) ((s.dieTemp d x).alertEval).tripped :=
  ⟨_, if_neg (by rw [hp, hs, ht]; decide)⟩

theorem thermalTrip_shows {s : State} {d : Nat} (hp : s.pw.por = false) (hs : s.pw.sup = false) (ht : s.pw.tripPin = false) :
    (s.thermalTrip d).pw.trip = true ∧ (s.thermalTrip d).pw.tripPin = true ∧ Emit.pin "THERM_TRIP_N" false ∈ (s.thermalTrip d).out ∧
      ∀ die k, die < 2 → k < 47 → s.part.hasDom die k = true → (s.thermalTrip d).domOn die k = false := by
  obtain ⟨x, e⟩ := thermalTrip_eq (d := d) hp hs ht
  rw [e, List.foldl_cons, List.foldl_cons, List.foldl_nil]
  have hpart : ((s.dieTemp d x).alertEval).tripped.part = s.part :=
    (tripped_rest _).2.2.2.trans ((alertEval_shows _).2.2.2.1.trans (stays_dieTemp s d x).part)
  obtain ⟨h1, h2, h3, -⟩ := tripped_rest ((s.dieTemp d x).alertEval)
  generalize ((s.dieTemp d x).alertEval).tripped = u at hpart h1 h2 h3
  have hl : ∀ die, ∀ k ∈ u.part.doms die, k < 64 := fun die k hk => by have := (mem_doms.1 hk).1; omega
  obtain ⟨a1, a2⟩ := tripAll_shows (die := 0) (by decide) _ (hl 0) u
  generalize (u.part.doms 0).foldl (State.tripOne 0) u = v at a1 a2
  have hl1 : ∀ k ∈ v.part.doms 1, k < 64 := by rw [a1.part]; exact hl 1
  obtain ⟨b1, b2⟩ := tripAll_shows (die := 1) (by decide) _ hl1 v
  generalize (v.part.doms 1).foldl (State.tripOne 1) v = w at b1 b2
  refine ⟨by rw [b1.pw, a1.pw, h1], by rw [b1.pw, a1.pw, h2], b1.said _ (a1.said _ h3), fun die k hd hk hhas => ?_⟩
  rw [b2 die k hd (by omega), a2 die k hd (by omega), a1.part, hpart]
  have hm : k ∈ s.part.doms die := mem_doms.2 ⟨hk, hhas⟩
  interval_cases die
  · rw [decide_eq_true (⟨rfl, hm⟩ : 0 = 0 ∧ k ∈ s.part.doms 0), Bool.not_true, Bool.and_false, Bool.false_and]
  · rw [decide_eq_true (⟨rfl, hm⟩ : 1 = 1 ∧ k ∈ s.part.doms 1), Bool.not_true, Bool.and_false]

/-! ## Reference clocks -/

theorem clk_page {d : Nat} : Pg.CLK d = 0xE1000 ∨ Pg.CLK d = 0x10B1000 := by unfold Pg.CLK; split <;> simp

theorem clk_place (d : Nat) {o : Nat} (h1 : 0x100 ≤ o) (h2 : o < 0x800) : ownReg (Pg.CLK d + o) = true ∧ (Pg.CLK d + o) / 0x1000 = Pg.CLK d / 0x1000 ∧
    (Pg.CLK d + o) % 0x1000 = o ∧ notDom (Pg.CLK d + o) = true ∧ ∀ p, p < 2 → linkLostReg p (Pg.CLK d + o) = false := by
  have h := clk_page (d := d)
  have hp : (Pg.CLK d + o) / 0x1000 ≠ 0x1012 ∧ (Pg.CLK d + o) / 0x1000 ≠ 0x1092 ∧ (Pg.CLK d + o) / 0x1000 ≠ 0x1090 ∧ (Pg.CLK d + o) / 0x1000 ≠ 0x1091 ∧
      (Pg.CLK d + o) / 0x1000 ≠ 0x1081 ∧ (Pg.CLK d + o) / 0x1000 ≠ 1 := by omega
  obtain ⟨h12, h92, h90, h91, h81, h01⟩ := hp
  refine ⟨ownReg_iff.2 ⟨by omega, by omega⟩, by omega, by omega, notDom_of_page (by omega) (by omega), fun p hp => ?_⟩
  have hne : ∀ a g, a / 0x1000 = g → (Pg.CLK d + o) / 0x1000 ≠ g → ((Pg.CLK d + o) == a) = false := fun a g ha hg =>
    beq_false_of_ne fun e => hg (by rw [e, ha])
  have hc : portReg (Pg.CLK d + o) = false := by
    rw [portReg, beq_false_of_ne h12, beq_false_of_ne h92, hne _ _ rfl h81, hne _ _ rfl h01]
    rfl
  rw [linkLostReg, hc]
  interval_cases p
  · rw [hne _ _ rfl h90, hne _ _ rfl h90]; rfl
  · rw [hne _ _ rfl h91, hne _ _ rfl h91]; rfl

theorem refOk_place (i : Nat) : (refOk i).w = 1 ∧ 27 ≤ (refOk i).lo ∧ (refOk i).lo ≤ 29 := by unfold refOk; split_ifs <;> decide

/-- A reference found lost, counted and flagged. -/
def State.refGone (s : State) (d i : Nat) : State :=
  ((s.setF (Rg.CLK_STAT d) (refOk i) 0).bump (Rg.CLK_REF_A_LOSS_CNT d + 4 * i)).setInt (Pg.CLK d) Ib.CLK_REF_LOSS

theorem clk_cnt {d i : Nat} : Rg.CLK_REF_A_LOSS_CNT d + 4 * i = Pg.CLK d + (0x180 + 4 * i) := Nat.add_assoc _ _ _

theorem clk_zero (d : Nat) : Pg.CLK d % 0x1000 = 0 := by have := clk_page (d := d); omega

theorem refGone_shows (s : State) {d i : Nat} (hi : i < 3) (hon : s.pageOn (Pg.CLK d / 0x1000) = true) :
    (s.refGone d i).rd (Rg.CLK_STAT d) = (s.setF (Rg.CLK_STAT d) (refOk i) 0).rd (Rg.CLK_STAT d) ∧
    (s.refGone d i).rd (Rg.CLK_CFG d) = s.rd (Rg.CLK_CFG d) ∧
    (s.refGone d i).rd (Rg.CLK_REF_A_LOSS_CNT d + 4 * i) = (s.rd (Rg.CLK_REF_A_LOSS_CNT d + 4 * i) + 1) % 2 ^ 32 ∧
    bit ((s.refGone d i).rd (Pg.CLK d + 0x010)) Ib.CLK_REF_LOSS = true ∧ (∀ g, (s.refGone d i).pageOn g = s.pageOn g) := by
  obtain ⟨so, sg, sm, sd, -⟩ := clk_place d (o := 0x100) (by decide) (by decide)
  obtain ⟨fo, fg, -, -, -⟩ := clk_place d (o := 0x104) (by decide) (by decide)
  obtain ⟨co, cg, cm, cd, -⟩ := clk_place d (o := 0x180 + 4 * i) (by omega) (by omega)
  rw [← clk_cnt] at co cg cm cd
  have e1 : Rg.CLK_STAT d = Pg.CLK d + 0x100 := rfl
  have e2 : Rg.CLK_CFG d = Pg.CLK d + 0x104 := rfl
  have e3 := clk_cnt (d := d) (i := i)
  have hz := clk_zero d
  have h1 : ∀ g, (s.setF (Rg.CLK_STAT d) (refOk i) 0).pageOn g = s.pageOn g := fun g =>
    ((State.calm.refl noReg s).setF (fl := refOk i) (v := 0) none_all (by omega) sd).on g
  have h2 : ∀ g, ((s.setF (Rg.CLK_STAT d) (refOk i) 0).bump (Rg.CLK_REF_A_LOSS_CNT d + 4 * i)).pageOn g = s.pageOn g := fun g =>
    (bump_pageOn _ _ 1 g (by omega) fun e w he hw => notDom_ne cd e w he hw).trans (h1 g)
  refine ⟨?_, ?_, ?_, setInt_bit _ _ _ hz (by decide) ((h2 _).trans hon), fun g => ?_⟩
  · exact (rd_setInt_own so hz).trans (rd_bump_own so (by omega) (by omega))
  · exact (rd_setInt_own fo hz).trans ((rd_bump_own fo (by omega) (by omega)).trans (rd_setF_other _ _ _ _ _ (by omega)))
  · refine (rd_setInt_own co hz).trans ((bump_rd_own _ _ 1 co (by omega) (by omega) ?_).trans ?_)
    · rw [h1, cg]
      exact hon
    · rw [rd_setF_other _ _ _ _ _ (by omega)]
  · exact (((State.calm.refl noReg ((s.setF (Rg.CLK_STAT d) (refOk i) 0).bump (Rg.CLK_REF_A_LOSS_CNT d + 4 * i))).setInt (b := Ib.CLK_REF_LOSS) none_all hz).on g).trans (h2 g)

theorem linkDown_off (s : State) {p : Nat} (hp : p < 2) : (s.linkDown p).fb (Rg.PCIE_STAT p) Fd.PCIE_STAT_LINK_UP = false := by
  cases h : s.fb (Rg.PCIE_STAT p) Fd.PCIE_STAT_LINK_UP with
  | false => rw [linkDown_idle h, h]
  | true =>
    obtain ⟨so, -, -, -, -, hg⟩ := pcieStat_place hp
    obtain ⟨-, -, -, -, -, h2, hne⟩ := pcieCnt_place hp
    rw [linkDown_eq h, fb_of_rd ((rd_setInt_own so hg).trans (rd_bump_own so h2 hne.symm)), State.fb,
      (setLink_f _ (by decide) (by decide) (by decide) (by decide)).1]
    rfl

/-- The loss of a reference at a place. -/
def State.refLossAt (s : State) (r d i : Nat) (port : Option Nat) : State :=
  if 4 < r ∨ s.pw.por ∨ s.pw.sup ∨ !s.fb (Rg.CLK_STAT d) (refOk i) then s else
  match port with
  | some p => (s.refGone d i).linkDown p
  | none =>
    if r = 0 then (s.refGone d i).setF (Rg.CLK_STAT d) Fd.CLK_STAT_HOLDOVER 1
    else if (s.refGone d i).fb (Rg.CLK_CFG d) Fd.CLK_CFG_REF_FALLBACK then
      ((s.refGone d i).setF (Rg.CLK_STAT d) Fd.CLK_STAT_FALLBACK 1).setInt (Pg.CLK d) Ib.CLK_FALLBACK
    else s.refGone d i

theorem refLoss_at {s : State} {r d i : Nat} {port : Option Nat} (hx : refPlace r = (d, i, port)) : s.refLoss r = s.refLossAt r d i port := by
  unfold State.refLoss State.refLossAt State.refGone
  simp only [hx] <;> rfl

theorem refLoss_held {s : State} {r d i : Nat} {port : Option Nat} (hx : refPlace r = (d, i, port)) (h : s.fb (Rg.CLK_STAT d) (refOk i) = false) :
    s.refLoss r = s := (refLoss_at hx).trans (if_pos (.inr (.inr (.inr (by rw [h]; rfl)))))

theorem refLive {s : State} {r d i : Nat} (hr : r < 5) (hp : s.pw.por = false) (hs : s.pw.sup = false) {b : Bool} (h : s.fb (Rg.CLK_STAT d) (refOk i) = b) :
    ¬(4 < r ∨ s.pw.por = true ∨ s.pw.sup = true ∨ s.fb (Rg.CLK_STAT d) (refOk i) = !b) := by
  rw [hp, hs, h]
  simp only [Bool.false_eq_true, Bool.eq_not_self, or_false]
  omega

theorem refLoss_some {s : State} {r d i p : Nat} (hr : r < 5) (hx : refPlace r = (d, i, some p)) (hp : s.pw.por = false) (hs : s.pw.sup = false)
    (h : s.fb (Rg.CLK_STAT d) (refOk i) = true) : s.refLoss r = (s.refGone d i).linkDown p :=
  (refLoss_at hx).trans (if_neg (by simpa using refLive hr hp hs h))

theorem refLoss_none {s : State} {r d i : Nat} (hr : r < 5) (hx : refPlace r = (d, i, none)) (hp : s.pw.por = false) (hs : s.pw.sup = false)
    (h : s.fb (Rg.CLK_STAT d) (refOk i) = true) : s.refLoss r =
      if r = 0 then (s.refGone d i).setF (Rg.CLK_STAT d) Fd.CLK_STAT_HOLDOVER 1
      else if (s.refGone d i).fb (Rg.CLK_CFG d) Fd.CLK_CFG_REF_FALLBACK then
        ((s.refGone d i).setF (Rg.CLK_STAT d) Fd.CLK_STAT_FALLBACK 1).setInt (Pg.CLK d) Ib.CLK_FALLBACK
      else s.refGone d i :=
  (refLoss_at hx).trans (if_neg (by simpa using refLive hr hp hs h))

/-- What a lost reference's count and flag show, and its bit of CLK_STAT. -/
def State.refShown (s t : State) (d i : Nat) : Prop :=
  t.fb (Rg.CLK_STAT d) (refOk i) = false ∧ t.rd (Rg.CLK_REF_A_LOSS_CNT d + 4 * i) = (s.rd (Rg.CLK_REF_A_LOSS_CNT d + 4 * i) + 1) % 2 ^ 32 ∧
    bit (t.rd (Pg.CLK d + 0x010)) Ib.CLK_REF_LOSS = true

theorem refGone_shown (s : State) {d i : Nat} (hi : i < 3) (hon : s.pageOn (Pg.CLK d / 0x1000) = true) : s.refShown (s.refGone d i) d i := by
  obtain ⟨h1, -, h3, h4, -⟩ := refGone_shows s hi hon
  obtain ⟨w, -, l⟩ := refOk_place i
  exact ⟨(fb_of_rd h1 _).trans (fb_setF_zero _ _ _ (by omega) w), h3, h4⟩

/-- A later change of another field of CLK_STAT, or of other registers, leaves it. -/
theorem State.refShown.then {s t u : State} {d i : Nat} (h : s.refShown t d i) (hf : u.fb (Rg.CLK_STAT d) (refOk i) = t.fb (Rg.CLK_STAT d) (refOk i))
    (hc : u.rd (Rg.CLK_REF_A_LOSS_CNT d + 4 * i) = t.rd (Rg.CLK_REF_A_LOSS_CNT d + 4 * i)) (hk : keepsInt t u) : s.refShown u d i :=
  ⟨hf.trans h.1, hc.trans h.2.1, hk _ _ (clk_zero d) (by decide) h.2.2⟩

theorem refLoss_host {s : State} {r d i p : Nat} (hr : r < 5) (hx : refPlace r = (d, i, some p)) (hi : i < 3) (hp2 : p < 2) (hp : s.pw.por = false)
    (hs : s.pw.sup = false) (hon : s.pageOn (Pg.CLK d / 0x1000) = true) (h : s.fb (Rg.CLK_STAT d) (refOk i) = true) :
    s.refShown (s.refLoss r) d i ∧ (s.refLoss r).fb (Rg.PCIE_STAT p) Fd.PCIE_STAT_LINK_UP = false := by
  rw [refLoss_some hr hx hp hs h]
  obtain ⟨so, -, -, -, sl⟩ := clk_place d (o := 0x100) (by decide) (by decide)
  obtain ⟨co, -, -, -, cl⟩ := clk_place d (o := 0x180 + 4 * i) (by omega) (by omega)
  rw [← clk_cnt] at co cl
  have hc : State.calm (fun x => x == Rg.CLK_STAT d || x == Rg.CLK_REF_A_LOSS_CNT d + 4 * i) (s.refGone d i) ((s.refGone d i).linkDown p) :=
    (State.calm.refl _ _).linkDown hp2 fun x hx => by
      rw [Bool.or_eq_true, beq_iff_eq, beq_iff_eq] at hx
      obtain rfl | rfl := hx
      · exact ⟨so, sl p hp2⟩
      · exact ⟨co, cl p hp2⟩
  exact ⟨(refGone_shown s hi hon).then (fb_of_rd (hc.rd _ (by rw [beq_self_eq_true, Bool.true_or])) _)
    (hc.rd _ (by rw [beq_self_eq_true, Bool.or_true])) hc.ints, linkDown_off _ hp2⟩

theorem refLoss_core {s : State} (hp : s.pw.por = false) (hs : s.pw.sup = false) (hon : s.pageOn (Pg.CLK 0 / 0x1000) = true)
    (h : s.fb (Rg.CLK_STAT 0) (refOk 0) = true) : s.refShown (s.refLoss 0) 0 0 ∧ (s.refLoss 0).fb (Rg.CLK_STAT 0) Fd.CLK_STAT_HOLDOVER = true := by
  rw [refLoss_none (r := 0) (by decide) rfl hp hs h, if_pos rfl]
  exact ⟨(refGone_shown s (by decide) hon).then (fb_setF_disjoint _ _ _ _ _ (by decide) (by decide)) (rd_setF_other _ _ _ _ _ (by decide))
    (keepsInt_wr _ _ _ (by decide)), fb_setF_one _ _ _ (by decide) rfl⟩

theorem refLoss_line {s : State} {r d i : Nat} (hr : r < 5) (hx : refPlace r = (d, i, none)) (h0 : r ≠ 0) (hi : i < 3) (hp : s.pw.por = false)
    (hs : s.pw.sup = false) (hon : s.pageOn (Pg.CLK d / 0x1000) = true) (h : s.fb (Rg.CLK_STAT d) (refOk i) = true) :
    s.refShown (s.refLoss r) d i ∧ (s.fb (Rg.CLK_CFG d) Fd.CLK_CFG_REF_FALLBACK = true → (s.refLoss r).fb (Rg.CLK_STAT d) Fd.CLK_STAT_FALLBACK = true ∧
      bit ((s.refLoss r).rd (Pg.CLK d + 0x010)) Ib.CLK_FALLBACK = true) := by
  have hg := refGone_shown s hi hon
  obtain ⟨-, hcfg, -, -, hpon⟩ := refGone_shows s hi hon
  obtain ⟨so, -, sm, sd, -⟩ := clk_place d (o := 0x100) (by decide) (by decide)
  obtain ⟨co, -, -, -, -⟩ := clk_place d (o := 0x180 + 4 * i) (by omega) (by omega)
  rw [← clk_cnt] at co
  have e1 : Rg.CLK_STAT d = Pg.CLK d + 0x100 := rfl
  have e3 := clk_cnt (d := d) (i := i)
  have hz := clk_zero d
  have hf : (s.refGone d i).fb (Rg.CLK_CFG d) Fd.CLK_CFG_REF_FALLBACK = s.fb (Rg.CLK_CFG d) Fd.CLK_CFG_REF_FALLBACK := fb_of_rd hcfg _
  have e : s.refLoss r = if s.fb (Rg.CLK_CFG d) Fd.CLK_CFG_REF_FALLBACK then
      ((s.refGone d i).setF (Rg.CLK_STAT d) Fd.CLK_STAT_FALLBACK 1).setInt (Pg.CLK d) Ib.CLK_FALLBACK else s.refGone d i := by
    rw [refLoss_none hr hx hp hs h, ← hf]
    exact if_neg h0
  obtain ⟨w, l1, l2⟩ := refOk_place i
  have hl : Fd.CLK_STAT_FALLBACK.lo = 26 ∧ Fd.CLK_STAT_FALLBACK.w = 1 := ⟨rfl, rfl⟩
  rw [e]
  split
  next hc =>
    have hu : (State.calm noReg (s.refGone d i) ((s.refGone d i).setF (Rg.CLK_STAT d) Fd.CLK_STAT_FALLBACK 1)) :=
      (State.calm.refl noReg _).setF none_all (by omega) sd
    refine ⟨hg.then ?_ ?_ (hu.setInt none_all hz).ints, fun _ => ⟨?_, setInt_bit _ _ _ hz (by decide) ((hu.on _).trans ((hpon _).trans hon))⟩⟩
    · exact (fb_of_rd (rd_setInt_own so hz) _).trans (fb_setF_disjoint _ _ _ _ _ (by omega) (.inl (by omega)))
    · exact (rd_setInt_own co hz).trans (rd_setF_other _ _ _ _ _ (by omega))
    · exact (fb_of_rd (rd_setInt_own so hz) _).trans (fb_setF_one _ _ _ (by decide) rfl)
  next hc => exact ⟨hg, fun h => absurd h hc⟩

/-- The return of a reference at a place. -/
def State.refBackAt (s : State) (r d i : Nat) : State :=
  if 4 < r ∨ s.pw.por ∨ s.pw.sup ∨ s.fb (Rg.CLK_STAT d) (refOk i) then s
  else if r = 0 then (s.setF (Rg.CLK_STAT d) (refOk i) 1).setF (Rg.CLK_STAT d) Fd.CLK_STAT_HOLDOVER 0
  else if r < 3 ∧ (s.setF (Rg.CLK_STAT d) (refOk i) 1).fb (Rg.CLK_STAT d) Fd.CLK_STAT_FALLBACK then
    ((s.setF (Rg.CLK_STAT d) (refOk i) 1).setF (Rg.CLK_STAT d) Fd.CLK_STAT_FALLBACK 0).setInt (Pg.CLK d) Ib.CLK_FALLBACK
  else s.setF (Rg.CLK_STAT d) (refOk i) 1

theorem refReturn_at {s : State} {r d i : Nat} {port : Option Nat} (hx : refPlace r = (d, i, port)) : s.refReturn r = s.refBackAt r d i := by
  unfold State.refReturn State.refBackAt
  simp only [hx]

theorem refReturn_held {s : State} {r d i : Nat} {port : Option Nat} (hx : refPlace r = (d, i, port)) (h : s.fb (Rg.CLK_STAT d) (refOk i) = true) :
    s.refReturn r = s := (refReturn_at hx).trans (if_pos (.inr (.inr (.inr h))))

theorem refReturn_shows {s : State} {r d i : Nat} {port : Option Nat} (hr : r < 5) (hx : refPlace r = (d, i, port)) (hd : r = 0 → d = 0) (hp : s.pw.por = false)
    (hs : s.pw.sup = false) (h : s.fb (Rg.CLK_STAT d) (refOk i) = false) : (s.refReturn r).fb (Rg.CLK_STAT d) (refOk i) = true ∧
      (r = 0 → (s.refReturn r).fb (Rg.CLK_STAT 0) Fd.CLK_STAT_HOLDOVER = false) ∧
      (r = 1 ∨ r = 2 → (s.refReturn r).fb (Rg.CLK_STAT d) Fd.CLK_STAT_FALLBACK = false) ∧
      State.onlyRegs (fun x => x == Rg.CLK_STAT d || intReg (Pg.CLK d) x) s (s.refReturn r) := by
  have e : s.refReturn r = _ := (refReturn_at hx).trans (if_neg (refLive hr hp hs h))
  obtain ⟨so, -, -, -, -⟩ := clk_place d (o := 0x100) (by decide) (by decide)
  have hz := clk_zero d
  obtain ⟨w, l1, l2⟩ := refOk_place i
  have hlf : Fd.CLK_STAT_FALLBACK.lo = 26 ∧ Fd.CLK_STAT_FALLBACK.w = 1 := ⟨rfl, rfl⟩
  have hlh : Fd.CLK_STAT_HOLDOVER.lo = 30 ∧ Fd.CLK_STAT_HOLDOVER.w = 1 := ⟨rfl, rfl⟩
  have hok : (s.setF (Rg.CLK_STAT d) (refOk i) 1).fb (Rg.CLK_STAT d) (refOk i) = true := fb_setF_one _ _ _ (by omega) w
  have hP : (fun x => x == Rg.CLK_STAT d || intReg (Pg.CLK d) x) (Rg.CLK_STAT d) = true := by simp only [beq_self_eq_true, Bool.true_or]
  have ho1 : State.onlyRegs (fun x => x == Rg.CLK_STAT d || intReg (Pg.CLK d) x) s (s.setF (Rg.CLK_STAT d) (refOk i) 1) := onlyRegs_setF s _ _ _ hP
  rw [e]
  split_ifs with h0 hf
  · have hd0 := hd h0
    subst hd0
    exact ⟨(fb_setF_disjoint _ _ _ _ _ (by omega) (.inr (by omega))).trans hok, fun _ => fb_setF_zero _ _ _ (by decide) rfl, fun h => by omega, ho1.setF hP⟩
  · refine ⟨?_, fun h => absurd h h0, fun _ => ?_, (ho1.setF hP).setInt fun x hx => (Bool.or_eq_false_iff.1 hx).2⟩
    · exact (fb_of_rd (rd_setInt_own so hz) _).trans ((fb_setF_disjoint _ _ _ _ _ (by omega) (.inl (by omega))).trans hok)
    · exact (fb_of_rd (rd_setInt_own so hz) _).trans (fb_setF_zero _ _ _ (by decide) rfl)
  · refine ⟨hok, fun h => absurd h h0, fun h => ?_, ho1⟩
    cases hb : (s.setF (Rg.CLK_STAT d) (refOk i) 1).fb (Rg.CLK_STAT d) Fd.CLK_STAT_FALLBACK with
    | false => rfl
    | true => exact absurd ⟨by omega, hb⟩ hf

/-! ## Pins -/

theorem gpio_place : ∀ i, i < 8 → pwrReg (Rg.PWR_GPIO_CFG 1 i) = true ∧ Rg.PWR_GPIO_CFG 1 i ≠ Rg.PWR_STBY 1 ∧ Rg.PWR_GPIO_CFG 1 i ≠ Rg.PWR_GPIO_RATE_CNT 1 ∧
    notDom (Rg.PWR_GPIO_CFG 1 i) = true ∧ Rg.PWR_GPIO_CFG 1 i % 0x1000 ≠ 0x010 := by decide

theorem gpio_held {s : State} {i clk : Nat} {level : Bool} (h : s.fb (Rg.PWR_GPIO_CFG 1 i) Fd.PWR_GPIO_CFG_IN = level) : s.gpioEdge i level clk = s :=
  if_pos (.inr (.inr (.inr h)))

/-- The pin's level shown. -/
def State.pinShown (s : State) (i : Nat) (level : Bool) : State := s.setF (Rg.PWR_GPIO_CFG 1 i) Fd.PWR_GPIO_CFG_IN (b2n level)

/-- The time of a pin's last event, kept. -/
def State.pinTimed (s : State) (i n : Nat) : State := { s with pw := { s.pw with gpioAt := sset 0 s.pw.gpioAt i n } }

theorem pinTimed_rest (s : State) (i n : Nat) : (∀ x, (s.pinTimed i n).rd x = s.rd x) ∧ ∀ g, (s.pinTimed i n).pageOn g = s.pageOn g :=
  ⟨fun _ => rfl, fun _ => rfl⟩

theorem gpio_eq {s : State} {i clk : Nat} {level : Bool} (hi : i < 8) (hp : s.pw.por = false) (hs : s.pw.sup = false)
    (h : s.fb (Rg.PWR_GPIO_CFG 1 i) Fd.PWR_GPIO_CFG_IN ≠ level) : s.gpioEdge i level clk =
      if s.f (Rg.PWR_GPIO_CFG 1 i) Fd.PWR_GPIO_CFG_MODE = 1 ∨ s.f (Rg.PWR_GPIO_CFG 1 i) Fd.PWR_GPIO_CFG_MODE = 2 then s.pinShown i level
      else if sget 0 s.pw.gpioAt i ≠ 0 ∧ s.at clk < sget 0 s.pw.gpioAt i - 1 + 2000000 * s.f (Rg.PWR_GPIO_CFG 1 i) Fd.PWR_GPIO_CFG_RATE_MS then
        (s.pinShown i level).bump (Rg.PWR_GPIO_RATE_CNT 1)
      else if s.f (Rg.PWR_GPIO_CFG 1 i) Fd.PWR_GPIO_CFG_MODE = 3 ∧ level then (((s.pinShown i level).pinTimed i (s.at clk + 1)).setInt (Pg.PWR 1) Ib.PWR_GPIO).stbyExit
      else ((s.pinShown i level).pinTimed i (s.at clk + 1)).setInt (Pg.PWR 1) Ib.PWR_GPIO := by
  have hn : ¬(8 ≤ i ∨ s.pw.por = true ∨ s.pw.sup = true ∨ s.fb (Rg.PWR_GPIO_CFG 1 i) Fd.PWR_GPIO_CFG_IN = level) := fun hc => by
    rw [hp, hs] at hc
    obtain hc | hc | hc | hc := hc
    · omega
    · exact Bool.false_ne_true hc
    · exact Bool.false_ne_true hc
    · exact h hc
  unfold State.gpioEdge State.pinTimed State.pinShown
  simp only [if_neg hn]

section
variable {s : State} {i clk : Nat} {level : Bool} (hi : i < 8) (hon : s.pageOn (Pg.PWR 1 / 0x1000) = true)
include hi

theorem pinShown_shows (s : State) (level : Bool) : (s.pinShown i level).fb (Rg.PWR_GPIO_CFG 1 i) Fd.PWR_GPIO_CFG_IN = level ∧
    (s.pinShown i level).stby = s.stby ∧ (∀ g, (s.pinShown i level).pageOn g = s.pageOn g) ∧
    (s.pinShown i level).rd (Rg.PWR_GPIO_RATE_CNT 1) = s.rd (Rg.PWR_GPIO_RATE_CNT 1) := by
  obtain ⟨-, h1, h2, h3, h4⟩ := gpio_place i hi
  exact ⟨fb_setF_b2n _ _ _ _ (by decide) rfl, f_setF_other _ _ _ _ _ _ h1.symm,
    fun g => ((State.calm.refl noReg s).setF none_all h4 h3).on g, rd_setF_other _ _ _ _ _ h2.symm⟩

include hon

/-- An event of a pin: flagged, its time kept. -/
theorem pinEvent_shows : (((s.pinShown i level).pinTimed i (s.at clk + 1)).setInt (Pg.PWR 1) Ib.PWR_GPIO).fb (Rg.PWR_GPIO_CFG 1 i) Fd.PWR_GPIO_CFG_IN = level ∧
    bit ((((s.pinShown i level).pinTimed i (s.at clk + 1)).setInt (Pg.PWR 1) Ib.PWR_GPIO).rd (Pg.PWR 1 + 0x010)) Ib.PWR_GPIO = true ∧
    (((s.pinShown i level).pinTimed i (s.at clk + 1)).setInt (Pg.PWR 1) Ib.PWR_GPIO).stby = s.stby := by
  obtain ⟨h1, h2, h3, -⟩ := pinShown_shows hi s level
  obtain ⟨hr, hg⟩ := pinTimed_rest (s.pinShown i level) i (s.at clk + 1)
  have hset : ∀ x, ownReg x = true → (((s.pinShown i level).pinTimed i (s.at clk + 1)).setInt (Pg.PWR 1) Ib.PWR_GPIO).rd x = (s.pinShown i level).rd x := fun x hx =>
    (rd_setInt_own hx rfl).trans (hr x)
  exact ⟨(fb_of_rd (hset _ (pwrReg_own (gpio_place i hi).1)) _).trans h1, setInt_bit _ _ _ rfl (by decide) ((hg _).trans ((h3 _).trans hon)),
    (f_of_rd (hset _ (by decide)) _).trans h2⟩

theorem pinWakes_shows : (((s.pinShown i level).pinTimed i (s.at clk + 1)).setInt (Pg.PWR 1) Ib.PWR_GPIO).stbyExit.fb (Rg.PWR_GPIO_CFG 1 i) Fd.PWR_GPIO_CFG_IN = level ∧
    bit ((((s.pinShown i level).pinTimed i (s.at clk + 1)).setInt (Pg.PWR 1) Ib.PWR_GPIO).stbyExit.rd (Pg.PWR 1 + 0x010)) Ib.PWR_GPIO = true ∧
    (s.stby = 2 → (((s.pinShown i level).pinTimed i (s.at clk + 1)).setInt (Pg.PWR 1) Ib.PWR_GPIO).stbyExit.stby = 3) := by
  obtain ⟨h1, h2, h3⟩ := pinEvent_shows (clk := clk) (level := level) hi hon
  generalize ((s.pinShown i level).pinTimed i (s.at clk + 1)).setInt (Pg.PWR 1) Ib.PWR_GPIO = u at h1 h2 h3
  by_cases hs : u.stby = 2
  · obtain ⟨e1, -, e3, e4⟩ := stbyExit_shows hs
    obtain ⟨p1, p2, -⟩ := gpio_place i hi
    exact ⟨(fb_of_rd (e4 _ p1 p2) _).trans h1, e3 _ _ rfl (by decide) h2, fun _ => e1⟩
  · rw [stbyExit_idle hs]
    exact ⟨h1, h2, fun h => absurd (h3.trans h) hs⟩

theorem pinHeld_shows : ((s.pinShown i level).bump (Rg.PWR_GPIO_RATE_CNT 1)).fb (Rg.PWR_GPIO_CFG 1 i) Fd.PWR_GPIO_CFG_IN = level ∧
    ((s.pinShown i level).bump (Rg.PWR_GPIO_RATE_CNT 1)).rd (Rg.PWR_GPIO_RATE_CNT 1) = (s.rd (Rg.PWR_GPIO_RATE_CNT 1) + 1) % 2 ^ 32 ∧
    ((s.pinShown i level).bump (Rg.PWR_GPIO_RATE_CNT 1)).stby = s.stby := by
  obtain ⟨h1, h2, h3, h4⟩ := pinShown_shows hi s level
  obtain ⟨p1, -, p3, -⟩ := gpio_place i hi
  exact ⟨(fb_of_rd (rd_bump_own (pwrReg_own p1) (by decide) p3) _).trans h1,
    (bump_rd_own _ (Rg.PWR_GPIO_RATE_CNT 1) 1 (by decide) (by decide) (by decide) ((h3 _).trans hon)).trans (by rw [h4]), (f_of_rd (rd_bump_own (by decide) (by decide) (by decide)) _).trans h2⟩

theorem gpio_shows (hp : s.pw.por = false) (hs : s.pw.sup = false) (hne : s.fb (Rg.PWR_GPIO_CFG 1 i) Fd.PWR_GPIO_CFG_IN ≠ level) {mode : Nat}
    (hm : mode = s.f (Rg.PWR_GPIO_CFG 1 i) Fd.PWR_GPIO_CFG_MODE) : (s.gpioEdge i level clk).fb (Rg.PWR_GPIO_CFG 1 i) Fd.PWR_GPIO_CFG_IN = level ∧
      (mode = 1 ∨ mode = 2 → State.onlyRegs (fun x => x == Rg.PWR_GPIO_CFG 1 i) s (s.gpioEdge i level clk)) ∧
      (mode = 0 ∨ mode = 3 →
        (sget 0 s.pw.gpioAt i = 0 ∨ sget 0 s.pw.gpioAt i - 1 + 2000000 * s.f (Rg.PWR_GPIO_CFG 1 i) Fd.PWR_GPIO_CFG_RATE_MS ≤ s.at clk →
          bit ((s.gpioEdge i level clk).rd (Pg.PWR 1 + 0x010)) Ib.PWR_GPIO = true ∧
            (mode = 3 → level = true → s.stby = 2 → (s.gpioEdge i level clk).stby = 3)) ∧
        (sget 0 s.pw.gpioAt i ≠ 0 → s.at clk < sget 0 s.pw.gpioAt i - 1 + 2000000 * s.f (Rg.PWR_GPIO_CFG 1 i) Fd.PWR_GPIO_CFG_RATE_MS →
          (s.gpioEdge i level clk).rd (Rg.PWR_GPIO_RATE_CNT 1) = (s.rd (Rg.PWR_GPIO_RATE_CNT 1) + 1) % 2 ^ 32 ∧
            (s.gpioEdge i level clk).stby = s.stby)) := by
  rw [gpio_eq hi hp hs hne, ← hm]
  split_ifs with h1 h2 h3
  · exact ⟨(pinShown_shows hi s level).1, fun _ => onlyRegs_setF s _ _ _ (beq_self_eq_true _), fun h => by omega⟩
  · obtain ⟨a, b, c⟩ := pinHeld_shows (level := level) hi hon
    exact ⟨a, fun h => absurd h h1, fun _ => ⟨fun h => by omega, fun _ _ => ⟨b, c⟩⟩⟩
  · obtain ⟨a, b, c⟩ := pinWakes_shows (level := level) (clk := clk) hi hon
    exact ⟨a, fun h => absurd h h1, fun _ => ⟨fun _ => ⟨b, fun _ _ => c⟩, fun h4 h5 => absurd ⟨h4, h5⟩ h2⟩⟩
  · obtain ⟨a, b, -⟩ := pinEvent_shows (level := level) (clk := clk) hi hon
    exact ⟨a, fun h => absurd h h1, fun _ => ⟨fun _ => ⟨b, fun h4 h5 => absurd ⟨h4, h5⟩ h3⟩, fun h4 h5 => absurd ⟨h4, h5⟩ h2⟩⟩

end

/-! ## The obligation -/

theorem resetWrite_shows {s : State} {a : Acc} {v : Word} {env : BootEnv} (hw : s.mayWrite a (Rg.PWR_RESET 1) = true) {c : Instr}
    (hc : c = .soft a v env ∨ c = .fdie a v env) : exec c s = .next (s.pwrResetWrite a.clk v.toNat env) := by
  have h := onWrite_of s a _ (fun t => t.pwrResetWrite a.clk v.toNat env) hw
  obtain rfl | rfl := hc
  · exact congrArg Host.Outcome.next h
  · exact congrArg Host.Outcome.next h

theorem bit01 (v : Nat) : (bit v 0 = true ↔ v % 2 = 1) ∧ (bit v 1 = true ↔ v / 2 % 2 = 1) := by
  simp [bit]

theorem pwrReset_good {s : State} {clk v : Nat} {env : BootEnv} (h : bits v 24 8 = 0xA5) : s.pwrResetWrite clk v env =
    if bit v 0 then (s.deviceReset 3 (s.warmCarry clk)).boot env else if bit v 1 then s.fdieReset env else s := if_neg (by rw [h]; decide)

/-- Settles O60: a reset keeps what eMRAM keeps; the trip loses every domain in turn; the pins and clocks change their own registers. -/
theorem resetsClocksAndPins : Obligations.ResetsClocksAndPins := by
  refine ⟨fun s env => ⟨_, rfl, powerOn_shows s env⟩, fun s => ⟨_, rfl, poreset_shows s⟩, fun s clk env => ⟨fun h => congrArg Host.Outcome.next (warm_held h),
    fun hp hs => ⟨fun hw => ⟨_, rfl, warm_reset hp hs hw⟩, fun x hx hlt hon => ?_⟩⟩, fun s a v env hw c hc => ?_, fun s env => ?_, fun s site temp => ?_,
    fun s d hd => ?_, fun s r die i port hr hx hp hs hon => ?_, fun s i clk level hi hp hs hon => ?_⟩
  · exact ⟨_, congrArg Host.Outcome.next (warm_ignored hp hs hx hlt), bump_shows s (by decide) (by decide) (by decide) hon⟩
  · rw [resetWrite_shows hw hc]
    have hon := mayWrite_pageOn hw
    obtain ⟨hp, hs⟩ := held_of_pageOn hon
    obtain ⟨b0, b1⟩ := bit01 v.toNat
    refine ⟨fun h => ⟨_, congrArg Host.Outcome.next (if_pos h), powerRefuse_shows s 1 hon⟩, fun h h0 => ?_, fun h h0 => ?_, fun h h2 => ?_⟩
    · rw [pwrReset_good h, if_neg (by rw [b0]; omega), if_neg (by rw [b1]; omega)]
    · exact ⟨_, congrArg Host.Outcome.next ((pwrReset_good h).trans (if_pos h0)), (reset_shows (by decide) _ env hp hs).1⟩
    · rw [pwrReset_good h, if_neg (by rw [b0]; omega), if_pos (by rw [b1]; omega)]
      exact ⟨_, rfl, fdieReset_shows s env⟩
  · exact ⟨fun h => congrArg Host.Outcome.next (supply_held h), fun hp hs => ⟨_, rfl, supply_shows hp hs⟩,
      fun h => congrArg Host.Outcome.next (supplyBack_held h), fun hs hp => ⟨_, rfl, supplyBack_shows hs hp⟩⟩
  · refine ⟨fun h => congrArg Host.Outcome.next (thermal_idle h), fun hp hs h2 => ?_, fun hp hs k hk hlt hon => ?_⟩
    · obtain ⟨h3, h4, h5⟩ := dieTemp_shows s site temp
      obtain ⟨a1, a2, -⟩ := alertEval_shows (s.dieTemp site temp)
      exact ⟨_, congrArg Host.Outcome.next (thermal_die hp hs h2), (f_of_rd (a2 _) _).trans h3, (f_of_rd (a2 _) _).trans h4, a1,
        fun x y z => by rw [a2]; exact h5 x y z⟩
    · subst hk
      obtain ⟨a1, a2, -⟩ := alertEval_shows (s.hbmTemp k (min 255 temp))
      exact ⟨_, congrArg Host.Outcome.next (thermal_stack hp hs hlt hon),
        (f_of_rd (a2 _) _).trans (hbmTemp_shows s (Nat.lt_of_lt_of_le hlt (stacks_le _)) (by omega)), a1⟩
  · have hm : exec (.thermalTrip d) s = .next (s.thermalTrip d) := congrArg (fun q => Host.Outcome.next (s.thermalTrip q)) (Nat.mod_eq_of_lt hd)
    rw [hm]
    exact ⟨fun h => congrArg Host.Outcome.next (thermalTrip_held h), fun hp hs ht => ⟨_, rfl, thermalTrip_shows hp hs ht⟩⟩
  · refine ⟨fun h => congrArg Host.Outcome.next (refLoss_held hx h), fun h => congrArg Host.Outcome.next (refReturn_held hx h), fun h => ⟨_, rfl, ?_⟩, fun h => ⟨_, rfl, ?_⟩⟩
    · interval_cases r <;> cases hx
      · obtain ⟨⟨h1, h2, h3⟩, h4⟩ := refLoss_core hp hs hon h
        exact ⟨h1, h2, h3, fun _ => h4, fun h => by omega, fun p h => by cases h⟩
      · obtain ⟨⟨h1, h2, h3⟩, h4⟩ := refLoss_line (r := 1) (by decide) rfl (by decide) (by decide) hp hs hon h
        exact ⟨h1, h2, h3, fun h => by omega, fun _ => h4, fun p h => by cases h⟩
      · obtain ⟨⟨h1, h2, h3⟩, h4⟩ := refLoss_line (r := 2) (by decide) rfl (by decide) (by decide) hp hs hon h
        exact ⟨h1, h2, h3, fun h => by omega, fun _ => h4, fun p h => by cases h⟩
      · obtain ⟨⟨h1, h2, h3⟩, h4⟩ := refLoss_host (r := 3) (by decide) rfl (by decide) (by decide) hp hs hon h
        exact ⟨h1, h2, h3, fun h => by omega, fun h => by omega, fun p h => by cases h; exact h4⟩
      · obtain ⟨⟨h1, h2, h3⟩, h4⟩ := refLoss_host (r := 4) (by decide) rfl (by decide) (by decide) hp hs hon h
        exact ⟨h1, h2, h3, fun h => by omega, fun h => by omega, fun p h => by cases h; exact h4⟩
    · exact refReturn_shows hr hx (fun h0 => by subst h0; cases hx; rfl) hp hs h
  · exact ⟨fun h => congrArg Host.Outcome.next (gpio_held h), fun mode hne hm => ⟨_, rfl, gpio_shows hi hon hp hs hne hm⟩⟩

end Sys2Proof.Machine
end

section
/-! PROOF. O59: power requests, ramps and standby (R374 to R377, R396). -/
namespace Sys2Proof.Machine

/-! ## One request -/

/-- The power state replaced. -/
def State.withPw (s : State) (p : PwrSt) : State := { s with pw := p }

theorem withPw_rest (s : State) (p : PwrSt) : (∀ x, (s.withPw p).rd x = s.rd x) ∧ (s.withPw p).part = s.part ∧ (s.withPw p).pw = p :=
  ⟨fun _ => rfl, rfl, rfl⟩

theorem pageOn_withPw {s : State} {p : PwrSt} (h1 : p.por = s.pw.por) (h2 : p.sup = s.pw.sup) (g : Nat) : (s.withPw p).pageOn g = s.pageOn g := by
  unfold State.pageOn
  rw [(withPw_rest s p).2.2, (withPw_rest s p).2.1, h1, h2]
  rfl

/-- Who asked last for a domain. -/
def PwrSt.asked (p : PwrSt) (k n : Nat) : PwrSt := { p with by' := sset 0 p.by' k n }

theorem setReq_rest (s : State) (die d : Nat) (on : Bool) : (s.setReq die d on).pw = s.pw ∧ (s.setReq die d on).part = s.part := by
  unfold State.setReq
  simp only []
  split
  · exact ⟨rfl, rfl⟩
  · exact ⟨rfl, rfl⟩

theorem domReq_cald : ∀ e, e < 2 → ∀ w, w < 2 → Rg.PWR_DOM_REQ e w ≠ Rg.CALD_PWR := by decide

theorem setReq_bit (s : State) {die d : Nat} (on : Bool) (hd : die < 2) (h64 : d < 64) :
    bit ((s.setReq die d on).rd (Rg.PWR_DOM_REQ die (d / 32))) (d % 32) = on := by
  have h := bit_wr s (Rg.PWR_DOM_REQ die (d / 32)) (d % 32) (d % 32) on (Nat.mod_lt _ (by decide))
  rw [if_pos rfl] at h
  unfold State.setReq
  simp only []
  split
  · rw [rd_wr_other _ _ _ _ (domReq_cald die hd _ (by omega)), h]
  · exact h

theorem setReq_cald (s : State) {d : Nat} (on : Bool) (h4 : d < 4) : bit ((s.setReq 1 d on).rd Rg.CALD_PWR) d = on := by
  unfold State.setReq
  simp only []
  rw [if_pos ⟨trivial, h4⟩, bit_wr _ _ _ _ _ (by omega), if_pos rfl]

theorem domAsk_absent {s : State} {die d by' : Nat} {on : Bool} (h : s.part.hasDom die d = false) : s.domAsk die d on by' = s := if_pos (by rw [h]; rfl)

section
variable {s : State} {die d by' : Nat} (hh : s.part.hasDom die d = true) (hc : s.domCalm die d)
include hh hc

theorem domAsk_calm (on : Bool) : s.domAsk die d on by' =
    if on then
      if s.domOn die d || s.pw.wait.contains (domKey die d) then (s.withPw (s.pw.asked (domKey die d) by')).setReq die d true
      else ((s.withPw { s.pw.asked (domKey die d) by' with wait := domKey die d :: s.pw.wait }).setReq die d true).domStart die
    else if !s.domOn die d then (s.withPw { s.pw.asked (domKey die d) by' with wait := s.pw.wait.filter (· != domKey die d) }).setReq die d false
    else if s.offOk die d by' then (s.withPw { s.pw.asked (domKey die d) by' with fall := s.pw.fall ++ [domKey die d] }).setReq die d false
    else (s.withPw (s.pw.asked (domKey die d) by')).powerRefuse die := by
  obtain ⟨h1, -, h3⟩ := hc
  have hn : ¬((s.pw.rise.contains (domKey die d) || s.pw.fall.contains (domKey die d)) = true) := by simpa using ⟨h1, h3⟩
  unfold State.domAsk
  rw [hh, if_neg (by decide)]
  simp only [if_neg hn]
  rfl

theorem domAsk_off (hon : s.domOn die d = true) (hok : s.offOk die d by' = true) :
    s.domAsk die d false by' = (s.withPw { s.pw.asked (domKey die d) by' with fall := s.pw.fall ++ [domKey die d] }).setReq die d false := by
  rw [domAsk_calm hh hc, if_neg (by decide), hon, if_neg (by decide), if_pos hok]

theorem domAsk_refused (hon : s.domOn die d = true) (hok : s.offOk die d by' = false) :
    s.domAsk die d false by' = (s.withPw (s.pw.asked (domKey die d) by')).powerRefuse die := by
  rw [domAsk_calm hh hc, if_neg (by decide), hon, if_neg (by decide), hok, if_neg (by decide)]

theorem domAsk_on (hon : s.domOn die d = false) : s.domAsk die d true by' =
    ((s.withPw { s.pw.asked (domKey die d) by' with wait := domKey die d :: s.pw.wait }).setReq die d true).domStart die := by
  obtain ⟨h1, h2, h3⟩ := hc
  rw [domAsk_calm hh ⟨h1, h2, h3⟩, if_pos rfl, hon, if_neg (by simpa using h2)]

end

theorem notDom_refuse (d : Nat) : notDom (Rg.PWR_REFUSE_CNT d) = true := by
  have h : Pg.PWR d = 0xE0000 ∨ Pg.PWR d = 0x10B0000 := by unfold Pg.PWR; split <;> simp
  obtain h | h := h <;> rw [Rg.PWR_REFUSE_CNT, h] <;> rfl

theorem powerRefuse_pw (s : State) (d : Nat) : (s.powerRefuse d).pw = s.pw := by
  have h := ((State.calm.refl noReg s).bump (a := Rg.PWR_REFUSE_CNT d) (n := 1) none_all (pwrCnt_place 0x180 (by decide) (by decide) d).2.2.2.1
    (pwrCnt_place 0x180 (by decide) (by decide) d).2.2.2.2 (notDom_refuse d)).setInt (b := Ib.PWR_REFUSED) none_all (pwr_page d)
  exact h.pw

/-- Waiting domains that start to ramp. -/
theorem domStart_rest (s : State) (die : Nat) : (∀ x, (s.domStart die).rd x = s.rd x) ∧ (s.domStart die).part = s.part ∧
    (s.domStart die).pw.fall = s.pw.fall ∧ (∀ g, (s.domStart die).pageOn g = s.pageOn g) ∧
    ∀ k, k ∈ s.pw.wait → k ∈ (s.domStart die).pw.rise ∨ k ∈ (s.domStart die).pw.wait := by
  refine ⟨fun _ => rfl, rfl, rfl, fun _ => rfl, fun k hk => ?_⟩
  unfold State.domStart
  simp only [List.mem_append, List.mem_filter, Bool.not_eq_true', List.contains_eq_mem, decide_eq_false_iff_not]
  by_cases h : k ∈ (sortBy (fun a b => decide (a ≤ b)) (s.pw.wait.filter (· / 64 == die))).take (4 - s.pw.rise.countP (· / 64 == die))
  · exact .inl (.inr h)
  · exact .inr ⟨hk, h⟩

theorem domStart_rise (s : State) {die k : Nat} {ws : List Nat} (hw : s.pw.wait = k :: ws) (hk : k / 64 = die) :
    (s.pw.rise.countP (· / 64 == die) < 4 → (∀ j ∈ ws, j / 64 ≠ die) → (s.domStart die).pw.rise = s.pw.rise ++ [k]) ∧
    (4 ≤ s.pw.rise.countP (· / 64 == die) → k ∈ (s.domStart die).pw.wait ∧ (s.domStart die).pw.rise = s.pw.rise) := by
  unfold State.domStart
  simp only []
  refine ⟨fun hlt ho => ?_, fun hge => ?_⟩
  · have hf : s.pw.wait.filter (· / 64 == die) = [k] := by
      rw [hw, List.filter_cons_of_pos (by rw [hk]; exact beq_self_eq_true _), List.filter_eq_nil_iff.2 fun j hj => by simpa using ho j hj]
    have hs : sortBy (fun a b => decide (a ≤ b)) [k] = [k] := rfl
    have ht : [k].take (4 - s.pw.rise.countP (· / 64 == die)) = [k] := List.take_of_length_le (by simp; omega)
    rw [hf, hs, ht]
  · have h0 : 4 - s.pw.rise.countP (· / 64 == die) = 0 := by omega
    rw [h0, List.take_zero, List.append_nil]
    exact ⟨by rw [hw]; simp, rfl⟩

/-! ## Writes that carry requests -/

/-- A pass that acts on one element of a list alone. -/
theorem foldl_one {β : Type} {f : State → β → State} {l : List β} {x : β} (hn : l.Nodup) (hx : x ∈ l) (hf : ∀ y ∈ l, y ≠ x → ∀ v, f v y = v) (s : State) :
    l.foldl f s = f s x := by
  induction l generalizing s with
  | nil => cases hx
  | cons y l ih =>
    obtain ⟨hy, hn⟩ := List.nodup_cons.1 hn
    have hid : ∀ (m : List β), (∀ z ∈ m, z ∈ l) → x ∉ m → ∀ v, m.foldl f v = v := by
      intro m
      induction m with
      | nil => exact fun _ _ _ => rfl
      | cons z m ihm =>
        intro hm hxm v
        rw [List.foldl_cons, hf z (List.mem_cons_of_mem _ (hm z List.mem_cons_self)) (fun e => hxm (e ▸ List.mem_cons_self))]
        exact ihm (fun w hw => hm w (List.mem_cons_of_mem _ hw)) (fun h => hxm (List.mem_cons_of_mem _ h)) v
    by_cases e : y = x
    · subst e
      exact hid l (fun _ h => h) hy _
    · rw [List.foldl_cons, hf y List.mem_cons_self e]
      exact ih hn ((List.mem_cons.1 hx).resolve_left fun h => e h.symm) (fun z hz => hf z (List.mem_cons_of_mem _ hz)) s

theorem domReqAt_req : ∀ die, die < 2 → ∀ w, w < 2 → domReqAt (Rg.PWR_DOM_REQ die w) = some (die, w) := by decide

theorem reqWrite_one {s : State} {die w v by' b : Nat} (hb : b < 32) (h : onlyBit v (s.rd (Rg.PWR_DOM_REQ die w)) b) :
    s.reqWrite die w v by' = s.domAsk die (32 * w + b) (bit v b) by' := by
  unfold State.reqWrite
  rw [foldl_one (x := b) List.nodup_range (List.mem_range.2 hb) fun y hy hne u => if_pos (beq_iff_eq.2 ((h y (List.mem_range.1 hy)).2 hne))]
  exact if_neg fun e => (h b hb).1 (beq_iff_eq.1 e) rfl

theorem powerRequest_one {s : State} {a : Acc} {v : Word} {die w b : Nat} (hd : die < 2) (hw : w < 2) (hb : b < 32)
    (hm : s.mayWrite a (Rg.PWR_DOM_REQ die w) = true) (h : onlyBit v.toNat (s.rd (Rg.PWR_DOM_REQ die w)) b) :
    exec (.powerRequest a (Rg.PWR_DOM_REQ die w) v) s = .next (s.domAsk die (32 * w + b) (bit v.toNat b) (reqNo a.req)) := by
  have h1 := onWrite_of s a _ (fun t => t.powerWrite (Rg.PWR_DOM_REQ die w) v.toNat (reqNo a.req)) hm
  refine congrArg Host.Outcome.next (h1.trans ?_)
  unfold State.powerWrite
  simp only [domReqAt_req die hd w hw]
  exact reqWrite_one hb h

theorem request_shows {s : State} {die w b d by' v : Nat} {on : Bool} (hd : die < 2) (hw : w < 2) (hb : b < 32) (he : d = 32 * w + b)
    (hon : s.pageOn (Pg.PWR die / 0x1000) = true) (h : onlyBit v (s.rd (Rg.PWR_DOM_REQ die w)) b) (ho : on = bit v b) (hh : s.part.hasDom die d = true)
    (hc : s.domCalm die d) :
    (on = false → s.domOn die d = true → s.offOk die d by' = true →
      (s.domAsk die d on by').pw.fall = s.pw.fall ++ [domKey die d] ∧ bit ((s.domAsk die d on by').rd (Rg.PWR_DOM_REQ die w)) b = false) ∧
    (on = false → s.domOn die d = true → s.offOk die d by' = false → (s.domAsk die d on by').pw.fall = s.pw.fall ∧
      bit ((s.domAsk die d on by').rd (Rg.PWR_DOM_REQ die w)) b = true ∧ bit ((s.domAsk die d on by').rd (Pg.PWR die + 0x010)) Ib.PWR_REFUSED = true ∧
      (s.domAsk die d on by').rd (Rg.PWR_REFUSE_CNT die) = (s.rd (Rg.PWR_REFUSE_CNT die) + 1) % 2 ^ 32) ∧
    (on = true → s.domOn die d = false → bit ((s.domAsk die d on by').rd (Rg.PWR_DOM_REQ die w)) b = true ∧
      (s.pw.rise.countP (· / 64 == die) < 4 → (∀ k ∈ s.pw.wait, k / 64 ≠ die) → (s.domAsk die d on by').pw.rise = s.pw.rise ++ [domKey die d]) ∧
      (4 ≤ s.pw.rise.countP (· / 64 == die) → domKey die d ∈ (s.domAsk die d on by').pw.wait ∧ (s.domAsk die d on by').pw.rise = s.pw.rise)) := by
  have h64 : d < 64 := by omega
  have hq : d / 32 = w ∧ d % 32 = b := by omega
  refine ⟨fun h1 h2 h3 => ?_, fun h1 h2 h3 => ?_, fun h1 h2 => ?_⟩
  · subst h1
    rw [domAsk_off hh hc h2 h3]
    have hb' := setReq_bit (s.withPw { s.pw.asked (domKey die d) by' with fall := s.pw.fall ++ [domKey die d] }) false hd h64
    rw [hq.1, hq.2] at hb'
    exact ⟨congrArg PwrSt.fall (setReq_rest _ _ _ _).1, hb'⟩
  · subst h1
    rw [domAsk_refused hh hc h2 h3]
    obtain ⟨hr, -, hp⟩ := withPw_rest s (s.pw.asked (domKey die d) by')
    have hon' : (s.withPw (s.pw.asked (domKey die d) by')).pageOn (Pg.PWR die / 0x1000) = true := (pageOn_withPw rfl rfl _).trans hon
    obtain ⟨r1, r2, r3⟩ := powerRefuse_shows (s.withPw (s.pw.asked (domKey die d) by')) die hon'
    refine ⟨(by rw [powerRefuse_pw, hp]; rfl), ?_, r2, r1.trans (by rw [hr])⟩
    have hreq : ownReg (Rg.PWR_DOM_REQ die w) = true ∧ Rg.PWR_DOM_REQ die w ≠ Rg.PWR_REFUSE_CNT die := by interval_cases die <;> interval_cases w <;> decide
    have hkeep : (fun y => y == Rg.PWR_REFUSE_CNT die || cntReg (Pg.PWR die) y) (Rg.PWR_DOM_REQ die w) = false :=
      Bool.or_eq_false_iff.2 ⟨beq_false_of_ne hreq.2, cntReg_of_own (pwr_page die) hreq.1⟩
    rw [r3.2 _ hkeep, hr]
    have := h b hb
    rw [← ho] at this
    cases hbit : bit (s.rd (Rg.PWR_DOM_REQ die w)) b with
    | true => rfl
    | false => exact absurd rfl (this.1 hbit.symm)
  · subst h1
    rw [domAsk_on hh hc h2]
    obtain ⟨s1, -⟩ := setReq_rest (s.withPw { s.pw.asked (domKey die d) by' with wait := domKey die d :: s.pw.wait }) die d true
    have hb' := setReq_bit (s.withPw { s.pw.asked (domKey die d) by' with wait := domKey die d :: s.pw.wait }) true hd h64
    rw [hq.1, hq.2] at hb'
    generalize (s.withPw { s.pw.asked (domKey die d) by' with wait := domKey die d :: s.pw.wait }).setReq die d true = u at s1 hb'
    obtain ⟨r1, -⟩ := domStart_rest u die
    have hr := domStart_rise u (die := die) (k := domKey die d) (ws := s.pw.wait) (by rw [s1]; rfl) (by unfold domKey; omega)
    have hrise : u.pw.rise = s.pw.rise := by rw [s1]; rfl
    rw [hrise] at hr
    exact ⟨by rw [r1]; exact hb', hr.1, hr.2⟩

/-! ## PG_CTRL and CALD_PWR -/

theorem domReqAt_ctrl (page : Nat) : domReqAt (page * 0x1000 + 0x008) = none := by
  have h : ∀ die, die < 2 → ∀ w, w < 2 → Rg.PWR_DOM_REQ die w % 0x1000 ≠ 0x008 := by decide
  have hne : ∀ die w, die < 2 → w < 2 → (page * 0x1000 + 0x008 == Rg.PWR_DOM_REQ die w) = false := fun die w hd hw =>
    beq_false_of_ne fun e => h die hd w hw (by rw [← e]; omega)
  unfold domReqAt
  rw [List.find?_eq_none]
  intro x hx
  simp only [List.mem_cons, List.not_mem_nil, or_false] at hx
  rw [Bool.not_eq_true]
  obtain rfl | rfl | rfl | rfl := hx
  all_goals exact hne _ _ (by decide) (by decide)

theorem pgCtrl_request {s : State} {a : Acc} {v : Word} {page : Nat} (hm : s.mayWrite a (page * 0x1000 + 0x008) = true) :
    exec (.powerRequest a (page * 0x1000 + 0x008) v) s = .next (s.pgCtrlWrite page v.toNat (reqNo a.req)) := by
  have h1 := onWrite_of s a _ (fun t => t.powerWrite (page * 0x1000 + 0x008) v.toNat (reqNo a.req)) hm
  refine congrArg Host.Outcome.next (h1.trans ?_)
  unfold State.powerWrite
  simp only [domReqAt_ctrl]
  rw [if_pos (by omega), show (page * 0x1000 + 0x008) / 0x1000 = page by omega]

theorem pgEnable_on {s : State} {page : Nat} (h1 : page ≠ Pg.EQS / 0x1000) (h2 : ¬(0x1060 ≤ page ∧ page < 0x1064)) : s.pgEnable page true = s := by
  unfold State.pgEnable
  rw [if_neg h1, if_neg h2, if_pos rfl]

theorem pgCtrl_one {s : State} {page v by' die d : Nat} (hd : pageDoms page = [(die, d)]) (h1 : page ≠ Pg.EQS / 0x1000)
    (h2 : ¬(0x1060 ≤ page ∧ page < 0x1064)) (hv : bits v 29 3 = 4) (hr : s.pagePowerReq page = true) (hc : s.domCalm die d) (hon : s.domOn die d = true) :
    s.pgCtrlWrite page v by' = if s.offOk die d by' then s.domAsk die d false by' else (s.powerRefuse (page / 0x1000)).ctrlRefuse page := by
  have hb : bit v 31 = true ∧ bit v 30 = false ∧ bit v 29 = false := by
    simp only [bits] at hv
    simp only [bit]
    refine ⟨?_, ?_, ?_⟩
    · exact decide_eq_true (by omega)
    · exact decide_eq_false (by omega)
    · exact decide_eq_false (by omega)
  obtain ⟨-, -, h3⟩ := hc
  unfold State.pgCtrlWrite
  rw [hb.1, hb.2.1, hb.2.2, pgEnable_on h1 h2]
  simp only [Bool.false_eq_true, if_false, hr]
  unfold State.pagePower
  rw [hd]
  simp only [List.filter_cons, List.filter_nil, hon, List.contains_eq_mem, decide_eq_false h3, Bool.not_false, Bool.and_true, if_true, Bool.false_eq_true, if_false,
    List.isEmpty_cons, List.all_cons, List.all_nil, List.foldl_cons, List.foldl_nil]

theorem ctrlRefuse_bit {s : State} {page : Nat} (hon : s.pageOn page = true) : bit ((s.ctrlRefuse page).rd (page * 0x1000 + 0x010)) 27 = true := by
  unfold State.ctrlRefuse
  refine setInts_bit _ _ _ _ (Nat.mul_mod_left _ _) (by decide) ?_ (by rw [Nat.mul_div_cancel _ (by decide)]; exact hon)
  split_ifs <;> decide

theorem ctrlRefuse_pw (s : State) (page : Nat) : (s.ctrlRefuse page).pw = s.pw :=
  ((State.calm.refl noReg s).setInts none_all (Nat.mul_mod_left _ _)).pw

theorem powerRefuse_on (s : State) (d g : Nat) : (s.powerRefuse d).pageOn g = s.pageOn g :=
  (((State.calm.refl noReg s).bump (a := Rg.PWR_REFUSE_CNT d) (n := 1) none_all (pwrCnt_place 0x180 (by decide) (by decide) d).2.2.2.1
    (pwrCnt_place 0x180 (by decide) (by decide) d).2.2.2.2 (notDom_refuse d)).setInt (b := Ib.PWR_REFUSED) none_all (pwr_page d)).on g

theorem pgCtrl_shows {s : State} {page v by' die d : Nat} (hd : pageDoms page = [(die, d)]) (h1 : page ≠ Pg.EQS / 0x1000)
    (h2 : ¬(0x1060 ≤ page ∧ page < 0x1064)) (hv : bits v 29 3 = 4) (hr : s.pagePowerReq page = true) (hc : s.domCalm die d) (hon : s.domOn die d = true)
    (hh : s.part.hasDom die d = true) (hp : s.pageOn page = true) :
    (s.offOk die d by' = true → (s.pgCtrlWrite page v by').pw.fall = s.pw.fall ++ [domKey die d]) ∧
      (s.offOk die d by' = false → (s.pgCtrlWrite page v by').pw.fall = s.pw.fall ∧ bit ((s.pgCtrlWrite page v by').rd (page * 0x1000 + 0x010)) 27 = true) := by
  rw [pgCtrl_one hd h1 h2 hv hr hc hon]
  refine ⟨fun h => ?_, fun h => ?_⟩
  · rw [if_pos h, domAsk_off hh hc hon h]
    exact congrArg PwrSt.fall (setReq_rest _ _ _ _).1
  · rw [if_neg (by rw [h]; decide), ctrlRefuse_pw, powerRefuse_pw]
    exact ⟨rfl, ctrlRefuse_bit ((powerRefuse_on s _ page).trans hp)⟩

theorem hasDom_cald (p : Part) : ∀ q, q < 4 → p.hasDom 1 q = true := by cases p <;> decide

theorem filter_one {β : Type} [DecidableEq β] {l : List β} {p : β → Bool} {x : β} (hn : l.Nodup) (hx : x ∈ l) (hp : ∀ y ∈ l, p y = true ↔ y = x) :
    l.filter p = [x] := by
  have h : l.filter p = l.filter (· == x) := List.filter_congr fun y hy => by
    rw [Bool.eq_iff_iff, hp y hy, beq_iff_eq]
  rw [h, List.filter_beq]
  rw [List.count_eq_one_of_mem hn hx]
  rfl

/-- The quarter that a write of CALD_PWR asks for, and whether it refuses it. -/
theorem caldPwr_one {s : State} {v q by' : Nat} (hq : q < 4) (hv : ∀ i, i < 4 → (bit v i = bit (s.rd Rg.CALD_PWR) i ↔ i ≠ q)) (hc : s.domCalm 1 q) :
    s.caldPwr v by' = (s.domAsk 1 q (bit v q) by').setIntIf (!bit v q && s.domOn 1 q && !s.offOk 1 q by') Pg.CALD Ib.CALD_REFUSED := by
  have hch : (List.range 4).filter (fun i => bit v i != bit (s.rd Rg.CALD_PWR) i) = [q] :=
    filter_one List.nodup_range (List.mem_range.2 hq) fun i hi => by
      have := hv i (List.mem_range.1 hi)
      rw [bne_iff_ne, ne_eq, this, ne_eq, not_not]
  obtain ⟨-, -, h3⟩ := hc
  unfold State.caldPwr
  simp only [hch, List.foldl_cons, List.foldl_nil, List.any_cons, List.any_nil, List.contains_eq_mem, decide_eq_false h3, Bool.not_false, Bool.and_true, Bool.or_false]

theorem cald_own : ownReg Rg.CALD_PWR = true ∧ ownReg (Rg.PWR_DOM_REQ 1 0) = true := by decide

theorem caldPwr_shows {s : State} {v q by' : Nat} (hq : q < 4) (hon : s.pageOn (Pg.CALD / 0x1000) = true)
    (hv : ∀ i, i < 4 → (bit v i = bit (s.rd Rg.CALD_PWR) i ↔ i ≠ q)) (hc : s.domCalm 1 q) :
    (bit v q = false → s.domOn 1 q = true → s.offOk 1 q by' = true →
      (s.caldPwr v by').pw.fall = s.pw.fall ++ [domKey 1 q] ∧ bit ((s.caldPwr v by').rd Rg.CALD_PWR) q = false ∧
        bit ((s.caldPwr v by').rd (Rg.PWR_DOM_REQ 1 0)) q = false) ∧
    (bit v q = false → s.domOn 1 q = true → s.offOk 1 q by' = false → (s.caldPwr v by').pw.fall = s.pw.fall ∧
      (s.caldPwr v by').rd Rg.CALD_PWR = s.rd Rg.CALD_PWR ∧ bit ((s.caldPwr v by').rd (Pg.CALD + 0x010)) Ib.CALD_REFUSED = true) ∧
    (bit v q = true → s.domOn 1 q = false → bit ((s.caldPwr v by').rd Rg.CALD_PWR) q = true ∧ bit ((s.caldPwr v by').rd (Rg.PWR_DOM_REQ 1 0)) q = true ∧
      (domKey 1 q ∈ (s.caldPwr v by').pw.rise ∨ domKey 1 q ∈ (s.caldPwr v by').pw.wait)) := by
  have hh := hasDom_cald s.part q hq
  have hq32 : q / 32 = 0 ∧ q % 32 = q := by omega
  obtain ⟨o1, o2⟩ := cald_own
  rw [caldPwr_one hq hv hc]
  have hcalm : ∀ (u : State) (c : Bool), State.calm (fun x => ownReg x) u (u.setIntIf c Pg.CALD Ib.CALD_REFUSED) := fun u c =>
    (State.calm.refl _ u).setIntIf (fun _ hx => hx) rfl
  refine ⟨fun h1 h2 h3 => ?_, fun h1 h2 h3 => ?_, fun h1 h2 => ?_⟩
  · rw [h1, domAsk_off hh hc h2 h3]
    have hb := setReq_bit (s.withPw { s.pw.asked (domKey 1 q) by' with fall := s.pw.fall ++ [domKey 1 q] }) (die := 1) (d := q) false (by decide) (by omega)
    have hk := setReq_cald (s.withPw { s.pw.asked (domKey 1 q) by' with fall := s.pw.fall ++ [domKey 1 q] }) false hq
    have hp := (setReq_rest (s.withPw { s.pw.asked (domKey 1 q) by' with fall := s.pw.fall ++ [domKey 1 q] }) 1 q false).1
    rw [hq32.1, hq32.2] at hb
    generalize (s.withPw { s.pw.asked (domKey 1 q) by' with fall := s.pw.fall ++ [domKey 1 q] }).setReq 1 q false = u at hb hk hp
    have c := hcalm u (!false && s.domOn 1 q && !s.offOk 1 q by')
    exact ⟨by rw [c.pw, hp]; rfl, by rw [c.rd _ o1, hk], by rw [c.rd _ o2, hb]⟩
  · rw [h1, domAsk_refused hh hc h2 h3, h2, h3]
    obtain ⟨r1, -, r3⟩ := withPw_rest s (s.pw.asked (domKey 1 q) by')
    have hg := pageOn_withPw (s := s) (p := s.pw.asked (domKey 1 q) by') rfl rfl
    generalize s.withPw (s.pw.asked (domKey 1 q) by') = u at r1 r3 hg
    have c := hcalm (u.powerRefuse 1) true
    have hr : (u.powerRefuse 1).rd Rg.CALD_PWR = u.rd Rg.CALD_PWR := (rd_setInt_own o1 rfl).trans (rd_bump_own o1 (by decide) (by decide))
    refine ⟨?_, (c.rd _ o1).trans (hr.trans (r1 _)), setInt_bit _ _ _ rfl (by decide) ((powerRefuse_on _ _ _).trans ((hg _).trans hon))⟩
    have hf : ((u.powerRefuse 1).setIntIf true Pg.CALD Ib.CALD_REFUSED).pw = s.pw.asked (domKey 1 q) by' := by rw [c.pw, powerRefuse_pw, r3]
    exact (congrArg PwrSt.fall hf).trans rfl
  · rw [h1, domAsk_on hh hc h2]
    have hb := setReq_bit (s.withPw { s.pw.asked (domKey 1 q) by' with wait := domKey 1 q :: s.pw.wait }) (die := 1) (d := q) true (by decide) (by omega)
    have hk := setReq_cald (s.withPw { s.pw.asked (domKey 1 q) by' with wait := domKey 1 q :: s.pw.wait }) true hq
    have hp := (setReq_rest (s.withPw { s.pw.asked (domKey 1 q) by' with wait := domKey 1 q :: s.pw.wait }) 1 q true).1
    rw [hq32.1, hq32.2] at hb
    generalize (s.withPw { s.pw.asked (domKey 1 q) by' with wait := domKey 1 q :: s.pw.wait }).setReq 1 q true = u at hb hk hp
    obtain ⟨d1, -, -, -, d5⟩ := domStart_rest u 1
    have c := hcalm (u.domStart 1) (!true && s.domOn 1 q && !s.offOk 1 q by')
    refine ⟨by rw [c.rd _ o1, d1, hk], by rw [c.rd _ o2, d1, hb], ?_⟩
    rw [c.pw]
    exact d5 _ (by rw [hp]; exact List.mem_cons_self)

/-! ## ENABLE -/

/-- Chosen registers read as before. -/
def State.reads (Q : Nat → Bool) (s t : State) : Prop := ∀ x, Q x = true → t.rd x = s.rd x

namespace State.reads
variable {Q P : Nat → Bool} {s t u : State}

theorem refl (s : State) : State.reads Q s s := fun _ _ => rfl

theorem trans (h1 : State.reads Q s t) (h2 : State.reads Q t u) : State.reads Q s u := fun x hx => (h2 x hx).trans (h1 x hx)

theorem ite {c : Prop} [Decidable c] (h1 : State.reads Q s t) (h2 : State.reads Q s u) : State.reads Q s (if c then t else u) := by split <;> assumption

theorem foldl {β : Type} {f : State → β → State} {l : List β} (hf : ∀ (v : State), ∀ x ∈ l, State.reads Q v (f v x)) (h : State.reads Q s t) :
    State.reads Q s (l.foldl f t) := by
  induction l generalizing t with
  | nil => exact h
  | cons x l ih => exact ih (fun v y hy => hf v y (List.mem_cons_of_mem _ hy)) (h.trans (hf t x List.mem_cons_self))

theorem only (h : State.reads Q s t) (h2 : State.onlyRegs P t u) (hP : ∀ x, Q x = true → P x = false) : State.reads Q s u :=
  fun x hx => (h2.2 x (hP x hx)).trans (h x hx)

theorem wr (h : State.reads Q s t) {a v : Nat} (hP : ∀ x, Q x = true → x ≠ a) : State.reads Q s (t.wr a v) :=
  fun x hx => (rd_wr_other _ _ _ _ (hP x hx)).trans (h x hx)

end State.reads

theorem hbmc_head {k : Nat} (hk : k < 4) : Pg.HBMC k = 0x1060000 + 0x1000 * k ∧ cntReg (Rg.HBMC_SR_ENTRY_CNT k / 0x1000 * 0x1000) (Pg.HBMC k + 0x008) = false := by
  have e : Rg.HBMC_SR_ENTRY_CNT k / 0x1000 * 0x1000 = Pg.HBMC k := by
    have e1 : Rg.HBMC_SR_ENTRY_CNT k = 0x1060000 + 0x1000 * k + 0x198 := rfl
    have e2 : Pg.HBMC k = 0x1060000 + 0x1000 * k := rfl
    omega
  rw [e]
  interval_cases k <;> exact ⟨rfl, rfl⟩

theorem rd_setRank (s : State) (k r lo w v x : Nat) : (s.setRank k r lo w v).rd x = s.rd x := rfl

/-- ENABLE's own register stays while the ranks enter or leave self-refresh. -/
theorem reads_setSr (s : State) {k : Nat} (hk : k < 4) (r : Nat) (on : Bool) : State.reads (· == Pg.HBMC k + 0x008) s (s.setSr k r on) := by
  obtain ⟨e, hc⟩ := hbmc_head hk
  have e1 : Rg.HBMC_SR_ENTRY_CNT k = 0x1060000 + 0x1000 * k + 0x198 := rfl
  have h : State.reads (· == Pg.HBMC k + 0x008) s (if (on && !s.rankSr k r) = true then s.bump (Rg.HBMC_SR_ENTRY_CNT k) else s) := by
    refine .ite (.only (.refl s) (onlyRegs_bump s _ 1 (by omega)) fun x hx => ?_) (.refl s)
    rw [beq_iff_eq.1 hx, hc, Bool.or_false]
    exact beq_false_of_ne (by omega)
  exact fun x hx => (rd_setRank _ _ _ _ _ _ x).trans (h x hx)

theorem reads_hbmCount (s : State) {k : Nat} (hk : k < 4) : State.reads (· == Pg.HBMC k + 0x008) s (s.hbmCount k) := by
  have e1 : Rg.HBMC_STAT k = 0x1060000 + 0x1000 * k + 0x10C := rfl
  have e2 : Rg.HBM_RETIRE_REQ = 0x1064130 := rfl
  have e := (hbmc_head hk).1
  refine (((State.reads.refl s).wr fun x hx => ?_).wr fun x hx => ?_).wr fun x hx => ?_
  all_goals
    have hx' := beq_iff_eq.1 hx
    omega

/-- The ranks put in self-refresh, or taken out of it. -/
def State.ranksSr (s : State) (k : Nat) (on : Bool) : State :=
  ((List.range 64).foldl (fun (t : State) (r : Nat) =>
    if (if on then t.rankState k r = rkActive ∨ t.rankState k r = rkTarget ∨ t.rankState k r = rkMigrating else t.rankState k r ≠ rkFailed) then
      t.setSr k r (!on) else t) s).hbmCount k

theorem hbmEnable_eq (s : State) (k : Nat) (on : Bool) : s.hbmEnable k on =
    if bit (s.rd (Pg.HBMC k + 0x008)) 31 = on then s
    else if !(s.wr (Pg.HBMC k + 0x008) (setBits (s.rd (Pg.HBMC k + 0x008)) 31 1 (b2n on))).stackTrained k then
      s.wr (Pg.HBMC k + 0x008) (setBits (s.rd (Pg.HBMC k + 0x008)) 31 1 (b2n on))
    else (s.wr (Pg.HBMC k + 0x008) (setBits (s.rd (Pg.HBMC k + 0x008)) 31 1 (b2n on))).ranksSr k on := rfl

theorem ranksSr_shows (s : State) {k : Nat} (hk : k < 4) (on : Bool) : State.reads (· == Pg.HBMC k + 0x008) s (s.ranksSr k on) ∧
    State.calm pwrReg s (s.ranksSr k on) := by
  refine ⟨.trans (.foldl (fun v r _ => .ite (reads_setSr v hk r _) (.refl v)) (.refl s)) (reads_hbmCount _ hk),
    State.calm.hbmCount (fun x hx => pwrReg_hbm hx) hk (.foldl (fun v r _ => ?_) (.refl _ s))⟩
  exact .ite (State.calm.setSr (fun x hx => pwrReg_hbm hx) hk (.refl _ v)) (.refl _ v)

theorem domReq_pwrReg : ∀ e, e ≤ 1 → ∀ w, w ≤ 1 → pwrReg (Rg.PWR_DOM_REQ e w) = true := by decide

theorem hbmEnable_shows (s : State) {k : Nat} (hk : k < 4) (on : Bool) : bit ((s.hbmEnable k on).rd (Pg.HBMC k + 0x008)) 31 = on ∧
    ∀ e w, e ≤ 1 → w ≤ 1 → (s.hbmEnable k on).rd (Rg.PWR_DOM_REQ e w) = s.rd (Rg.PWR_DOM_REQ e w) := by
  rw [hbmEnable_eq]
  have hset := bit_wr s (Pg.HBMC k + 0x008) 31 31 on (by decide)
  rw [if_pos rfl] at hset
  have e := (hbmc_head hk).1
  have hreq : ∀ e w, e ≤ 1 → w ≤ 1 → (s.wr (Pg.HBMC k + 0x008) (setBits (s.rd (Pg.HBMC k + 0x008)) 31 1 (b2n on))).rd (Rg.PWR_DOM_REQ e w) =
      s.rd (Rg.PWR_DOM_REQ e w) := fun e w he hw =>
    rd_wr_other _ _ _ _ (pwrReg_ne (domReq_pwrReg e he w hw) (by omega) (by omega))
  generalize s.wr (Pg.HBMC k + 0x008) (setBits (s.rd (Pg.HBMC k + 0x008)) 31 1 (b2n on)) = u at hset hreq
  split_ifs with h1 h2
  · exact ⟨h1, fun _ _ _ _ => rfl⟩
  · exact ⟨hset, hreq⟩
  · obtain ⟨r1, r2⟩ := ranksSr_shows u hk on
    exact ⟨by rw [r1 _ (beq_self_eq_true _), hset], fun e w he hw => (r2.rd _ (domReq_pwrReg e he w hw)).trans (hreq e w he hw)⟩

theorem pgCtrl_enable {s : State} {page v by' : Nat} (h30 : bit v 30 = false) (h29 : bit v 29 = s.pagePowerReq page)
    (hr : ∀ e w, e ≤ 1 → w ≤ 1 → (s.pgEnable page (bit v 31)).rd (Rg.PWR_DOM_REQ e w) = s.rd (Rg.PWR_DOM_REQ e w)) :
    s.pgCtrlWrite page v by' = s.pgEnable page (bit v 31) := by
  unfold State.pgCtrlWrite
  rw [h30]
  simp only [Bool.false_eq_true, if_false]
  rw [if_pos (h29.trans (pagePowerReq_congr page hr).symm)]

theorem enable_shows {s : State} {page v by' : Nat} (h30 : bit v 30 = false) (h29 : bit v 29 = s.pagePowerReq page) :
    (page = Pg.EQS / 0x1000 → bit ((s.pgCtrlWrite page v by').rd (Pg.EQS + 0x008)) 31 = bit v 31 ∧
      State.onlyRegs (fun x => x == Pg.EQS + 0x008) s (s.pgCtrlWrite page v by')) ∧
    (0x1060 ≤ page → page < 0x1064 → bit ((s.pgCtrlWrite page v by').rd (page * 0x1000 + 0x008)) 31 = bit v 31) ∧
    (page ≠ Pg.EQS / 0x1000 → ¬(0x1060 ≤ page ∧ page < 0x1064) → bit v 31 = true → s.pgCtrlWrite page v by' = s) := by
  refine ⟨fun h => ?_, fun h1 h2 => ?_, fun h1 h2 h3 => ?_⟩
  · have e : s.pgEnable page (bit v 31) = s.wr (Pg.EQS + 0x008) (setBits (s.rd (Pg.EQS + 0x008)) 31 1 (b2n (bit v 31))) := if_pos h
    rw [pgCtrl_enable h30 h29 fun d w hd hw => by rw [e, rd_wr_other _ _ _ _ (pwrReg_ne (domReq_pwrReg d hd w hw) (by decide) (by decide))], e]
    have hb := bit_wr s (Pg.EQS + 0x008) 31 31 (bit v 31) (by decide)
    rw [if_pos rfl] at hb
    exact ⟨hb, onlyRegs_wr _ _ _ (beq_self_eq_true _)⟩
  · have hk : page - 0x1060 < 4 := by omega
    have hne : page ≠ Pg.EQS / 0x1000 := by
      have : Pg.EQS / 0x1000 = 0x1020 := rfl
      omega
    have e : s.pgEnable page (bit v 31) = s.hbmEnable (page - 0x1060) (bit v 31) := by
      unfold State.pgEnable
      rw [if_neg hne, if_pos ⟨h1, h2⟩]
    obtain ⟨r1, r2⟩ := hbmEnable_shows s hk (bit v 31)
    have ha : page * 0x1000 + 0x008 = Pg.HBMC (page - 0x1060) + 0x008 := by
      rw [(hbmc_head hk).1]
      omega
    rw [pgCtrl_enable h30 h29 (by rw [e]; exact r2), e, ha]
    exact r1
  · have e : s.pgEnable page (bit v 31) = s := by rw [h3]; exact pgEnable_on h1 h2
    rw [pgCtrl_enable h30 h29 (by rw [e]; exact fun _ _ _ _ => rfl), e]

/-! ## What an update of the controllers' modes leaves of the blocks' pages -/

/-- The pages of power and pins, of the controllers, and of what their modes change. -/
def ctlPage (g : Nat) : Bool := [0xE0, 0x10B0, 0xC0, 0x1080, 0x1082, 0x1090, 0x1091, 0x1052, 1, 0x1093].contains g

/-- The registers of every other page. -/
def blockReg (x : Nat) : Bool := !ctlPage (x / 0x1000)

theorem blockReg_ne {x a : Nat} (hx : blockReg x = true) (ha : ctlPage (a / 0x1000) = true) : x ≠ a := fun e => by
  rw [blockReg, e, ha] at hx
  exact absurd hx (by decide)

theorem irqReg_page {x : Nat} (h : irqReg x = true) : x / 0x1000 = 0x1093 := by
  have e : Pg.IRQ = 0x1093000 := rfl
  have e0 : Rg.IRQ_MSG_CNT 0 = 0x10931C0 ∧ Rg.IRQ_MSG_CNT 1 = 0x10931C4 := ⟨rfl, rfl⟩
  simp only [irqReg, e, e0.1, e0.2, Bool.or_eq_true, beq_iff_eq, decide_eq_true_eq] at h
  omega

theorem blockReg_irq {x : Nat} (hx : blockReg x = true) : irqReg x = false := by
  cases h : irqReg x with
  | false => rfl
  | true =>
    rw [blockReg, irqReg_page h] at hx
    exact absurd hx (by decide)

theorem blockReg_int {pg x : Nat} (hg : pg % 0x1000 = 0) (hc : ctlPage (pg / 0x1000) = true) (hx : blockReg x = true) : intReg pg x = false := by
  have h1 : x ≠ pg + 0x010 := blockReg_ne hx (by rw [show (pg + 0x010) / 0x1000 = pg / 0x1000 by omega]; exact hc)
  have h2 : x ≠ pg + 0x01C := blockReg_ne hx (by rw [show (pg + 0x01C) / 0x1000 = pg / 0x1000 by omega]; exact hc)
  rw [intReg, blockReg_irq hx, beq_false_of_ne h1, beq_false_of_ne h2]
  rfl

theorem blockReg_log {x : Nat} (hx : blockReg x = true) : logReg x = false := by
  rw [logReg, blockReg_irq hx, Bool.or_false, beq_eq_false_iff_ne]
  intro e
  rw [blockReg, e] at hx
  exact absurd hx (by decide)

section
variable {s t : State}

theorem State.reads.ctl (h : State.reads blockReg s t) {a v : Nat} (ha : ctlPage (a / 0x1000) = true) : State.reads blockReg s (t.wr a v) :=
  h.wr fun _ hx => blockReg_ne hx ha

theorem State.reads.ints (h : State.reads blockReg s t) {pg m : Nat} (hg : pg % 0x1000 = 0) (hc : ctlPage (pg / 0x1000) = true) :
    State.reads blockReg s (t.setInts pg m) := h.only (onlyRegs_setInts t pg m) fun _ hx => blockReg_int hg hc hx

theorem State.reads.raise (h : State.reads blockReg s t) {n : Nat} : State.reads blockReg s (t.raiseSrc n) :=
  h.only (onlyRegs_raiseSrc t n) fun _ hx => blockReg_irq hx

theorem State.reads.logs (h : State.reads blockReg s t) {pg code data : Nat} : State.reads blockReg s (t.log pg code data) :=
  fun x hx => ((eventFrame_log t pg code data).2 x (blockReg_log hx)).trans (h x hx)

theorem State.reads.ofRegs (h : State.reads blockReg s t) {u : State} (hr : u.regs = t.regs := by rfl) (hp : u.part = t.part := by rfl) :
    State.reads blockReg s u := fun x hx => (rd_congr hp hr x).trans (h x hx)

theorem State.reads.scOwners (h : State.reads blockReg s t) : State.reads blockReg s t.scOwners :=
  .foldl (fun v _ _ => .ite (.refl v) (.ite (.ite ((State.reads.refl v).ctl rfl) (.refl v)) (.ite (.refl v) ((State.reads.refl v).ctl rfl)))) h

theorem scStat_ctl (k : Nat) : ctlPage (Rg.SC_STAT k / 0x1000) = true := by
  have h : Pg.SC k = 0xC0000 ∨ Pg.SC k = 0x1080000 := by unfold Pg.SC; split <;> simp
  have e : Rg.SC_STAT k / 0x1000 = Pg.SC k / 0x1000 := by unfold Rg.SC_STAT; omega
  rw [e]
  obtain h | h := h <;> rw [h] <;> rfl

theorem State.reads.scShow (h : State.reads blockReg s t) : State.reads blockReg s t.scShow := .ite h ((h.ctl (scStat_ctl 0)).ctl (scStat_ctl 1))

theorem State.reads.withdraw (h : State.reads blockReg s t) (on : Bool) : State.reads blockReg s (t.withdrawSelf on) := by
  have h1 : State.reads blockReg s (t.setF Rg.FCRD_STAT Fd.FCRD_STAT_WITHDRAWN (b2n on)) := h.ctl rfl
  exact .ite h (.ite ((h1.ofRegs (u := { t.setF Rg.FCRD_STAT Fd.FCRD_STAT_WITHDRAWN (b2n on) with
    fab := { (t.setF Rg.FCRD_STAT Fd.FCRD_STAT_WITHDRAWN (b2n on)).fab with restoreDue := false, store := [] } })).ctl rfl) h1.ofRegs)

theorem State.reads.safe (h : State.reads blockReg s t) (on : Bool) : State.reads blockReg s (t.setSafe on) := by
  refine .foldl (fun v _ _ => .ite (State.reads.refl v).raise (.refl v)) (.foldl (fun v p hp => .ite (.refl v) ?_) h)
  have hp' : p = 0 ∨ p = 1 := by simpa using hp
  obtain rfl | rfl := hp'
  · exact ((State.reads.refl v).ctl rfl).ints rfl rfl
  · exact ((State.reads.refl v).ctl rfl).ints rfl rfl

theorem State.reads.scUpdate (h : State.reads blockReg s t) : State.reads blockReg s t.scUpdate := by
  have h1 : State.reads blockReg s t.scModed.scOwners.scShow := ((h.ctl (scStat_ctl 0)).ctl (scStat_ctl 1)).scOwners.scShow
  have h2 := (((h1.ints (pg := Pg.SC 0) (m := 2 ^ Ib.SC_AUTONOMOUS) rfl rfl).ints (pg := Pg.SC 1) (m := 2 ^ Ib.SC_AUTONOMOUS) rfl rfl).logs
    (pg := Pg.SC 1) (code := 0x0012) (data := 0)).safe true
  exact .ite h1 (.ite (.ite ((h2.ctl (a := Rg.FCRD_CTRL) rfl).withdraw true) h2) (.ite (h1.logs.safe false) h1))

end

/-! ## Ramps -/

theorem pwrReg_ctl {x : Nat} (h : pwrReg x = true) : ownReg x = true ∧ ctlReg x = false := by
  have hne : ∀ a, a / 0x1000 ≠ 0xE0 → a / 0x1000 ≠ 0x10B0 → (x == a) = false := fun a h0 h1 => beq_false_of_ne (pwrReg_ne h h0 h1)
  have hp : x / 0x1000 ≠ 0x1082 := by
    obtain ⟨-, e | e⟩ := pwrReg_iff.1 h <;> omega
  refine ⟨pwrReg_own h, ?_⟩
  rw [ctlReg, evReg, hne _ (by decide) (by decide), hne _ (by decide) (by decide), hne _ (by decide) (by decide), hne _ (by decide) (by decide),
    hne _ (by decide) (by decide), hne _ (by decide) (by decide), beq_false_of_ne hp]
  rfl

theorem State.calm.scUpdatePwr {s t : State} (h : State.calm pwrReg s t) : State.calm pwrReg s t.scUpdate :=
  h.scUpdate (fun _ hx => pwrReg_ctl hx) fun _ hx => ⟨pwrReg_ne hx (by decide) (by decide), pwrReg_ne hx (by decide) (by decide)⟩

theorem State.stays.pageOn {s t : State} (h : State.stays pwrReg s t) (g : Nat) : t.pageOn g = s.pageOn g :=
  pageOn_of_rd h.part h.pw (fun d w hd hw => h.rd _ (domStat_pwrReg d (by omega) w (by omega))) g

theorem setDom_flag (s : State) (die d : Nat) (on : Bool) (hon : s.pageOn (Pg.PWR die / 0x1000) = true)
    (hd : (domOf (Pg.PWR die / 0x1000)) = none ∧ Pg.PWR die / 0x1000 ≠ 0x099) :
    bit ((s.setDom die d on).rd (Pg.PWR die + 0x010)) Ib.PWR_DOM_CHANGE = true := by
  refine setInt_bit _ _ _ (pwr_page die) (by decide) ?_
  have h : ∀ u : State, u.pageOn (Pg.PWR die / 0x1000) = (!u.pw.por && !u.pw.sup && pagePresent u.part (Pg.PWR die / 0x1000)) := fun u => by
    rw [State.pageOn, if_neg hd.2, hd.1, Bool.and_true]
  rw [h] at hon ⊢
  exact hon

theorem pwr_undom : ∀ die, die < 2 → domOf (Pg.PWR die / 0x1000) = none ∧ Pg.PWR die / 0x1000 ≠ 0x099 := by decide

/-- The domain's supply removed: its contents and its bit, then the change of the power state that `p` gives. -/
theorem domOff_eq {s : State} {die d : Nat} (h : domKey die d ∈ s.pw.fall) : ∃ p : PwrSt,
    s.domOffDone die d = ((((s.loseDomain die d).setDom die d false).withPw p).domStart die).scUpdate ∧
      p.fall = ((s.loseDomain die d).setDom die d false).pw.fall.filter (· != domKey die d) ∧
      (bit (s.rd (Rg.PWR_DOM_REQ die (d / 32))) (d % 32) = true → domKey die d ∈ p.wait) ∧
      p.por = ((s.loseDomain die d).setDom die d false).pw.por ∧ p.sup = ((s.loseDomain die d).setDom die d false).pw.sup := by
  have hn : ¬((!s.pw.fall.contains (domKey die d)) = true) := by simpa using h
  unfold State.domOffDone
  simp only [if_neg hn]
  generalize (s.loseDomain die d).setDom die d false = u
  refine ⟨_, rfl, rfl, fun hb => ?_, rfl, rfl⟩
  rw [if_pos hb]
  exact List.mem_cons_self

theorem lostPages_block : (∀ d, 18 ≤ d → d < 44 → ∀ g ∈ domPages 0 d, ctlPage g = false ∧ ¬(0x040 ≤ g ∧ g < 0x059)) ∧
    ∀ d, (6 ≤ d ∧ d < 18) ∨ (20 ≤ d ∧ d < 24) → ∀ g ∈ domPages 1 d, ctlPage g = false ∧ ¬(0x040 ≤ g ∧ g < 0x059) := by
  refine ⟨fun d h1 h2 => ?_, fun d h => ?_⟩
  · have hall : ∀ d, d < 44 → 18 ≤ d → ∀ g ∈ domPages 0 d, ctlPage g = false ∧ ¬(0x040 ≤ g ∧ g < 0x059) := by decide
    exact hall d h2 h1
  · have hall : ∀ d, d < 24 → (6 ≤ d ∧ d < 18) ∨ (20 ≤ d ∧ d < 24) → ∀ g ∈ domPages 1 d, ctlPage g = false ∧ ¬(0x040 ≤ g ∧ g < 0x059) := by decide
    exact hall d (by omega) h

/-- Pages that hold no slice return to their reset values. -/
theorem losePages_rd (s : State) {ps : List Nat} (h : ∀ g ∈ ps, ¬(0x040 ≤ g ∧ g < 0x059)) {x : Nat} (hx : x / 0x1000 ∈ ps) :
    (s.losePages ps).rd x = regReset s.part x := by
  have hf : ps.filter (fun g => decide (0x040 ≤ g ∧ g < 0x059)) = [] := List.filter_eq_nil_iff.2 fun g hg hc => h g hg (of_decide_eq_true hc)
  unfold State.losePages
  simp only [hf, List.foldl_nil]
  refine Eq.trans (rd_of_filter (s := s) (q := fun x => !ps.contains (x / 0x1000)) ?_ ?_ x) (if_neg ?_)
  · rfl
  · rfl
  · simpa using hx

theorem loseDomain_reset (s : State) {die d : Nat} (h : (die = 0 ∧ 18 ≤ d ∧ d < 44) ∨ (die = 1 ∧ ((6 ≤ d ∧ d < 18) ∨ (20 ≤ d ∧ d < 24)))) {x : Nat} (hx : x / 0x1000 ∈ domPages die d) :
    (s.loseDomain die d).rd x = regReset s.part x ∧ blockReg x = true := by
  have hb : ∀ g ∈ domPages die d, ctlPage g = false ∧ ¬(0x040 ≤ g ∧ g < 0x059) := by
    obtain ⟨rfl, h1, h2⟩ | ⟨rfl, h1⟩ := h
    · exact lostPages_block.1 d h1 h2
    · exact lostPages_block.2 d h1
  have hp : (s.loseBlock die d).part = s.part := ((State.stays.refl pwrReg s).loseBlock (die := die) (d := d)).part
  refine ⟨?_, by rw [blockReg, (hb _ hx).1]; rfl⟩
  have hm : x / 0x1000 ∈ s.lostPages die d := List.mem_append_left _ hx
  rw [loseDomain_eq, losePages_rd _ (fun g hg => ?_) hm, hp]
  obtain hg | hg := List.mem_append.1 hg
  · exact (hb g hg).2
  · split at hg
    · rw [List.mem_singleton.1 hg]
      decide
    · cases hg

theorem domOff_shows {s : State} {die d k : Nat} (hd : die < 2) (h64 : d < 64) (hk : k = domKey die d) (h : k ∈ s.pw.fall)
    (hon : s.pageOn (Pg.PWR die / 0x1000) = true) : (s.domOffDone die d).domOn die d = false ∧ k ∉ (s.domOffDone die d).pw.fall ∧
      bit ((s.domOffDone die d).rd (Pg.PWR die + 0x010)) Ib.PWR_DOM_CHANGE = true ∧
      (bit (s.rd (Rg.PWR_DOM_REQ die (d / 32))) (d % 32) = true → k ∈ (s.domOffDone die d).pw.rise ∨ k ∈ (s.domOffDone die d).pw.wait) ∧
      ((die = 0 ∧ 18 ≤ d ∧ d < 44) ∨ (die = 1 ∧ ((6 ≤ d ∧ d < 18) ∨ (20 ≤ d ∧ d < 24))) →
        ∀ x, x / 0x1000 ∈ domPages die d → (s.domOffDone die d).rd x = regReset s.part x) := by
  subst hk
  obtain ⟨p, e, p1, p2, p3, p4⟩ := domOff_eq h
  rw [e]
  have hl := (State.stays.refl pwrReg s).loseDomain hd h64
  have hres := fun hr x hx => loseDomain_reset s (die := die) (d := d) hr (x := x) hx
  have hflag := setDom_flag (s.loseDomain die d) die d false ((hl.pageOn _).trans hon) (pwr_undom die hd)
  have hoff := domOn_setDom (s.loseDomain die d) (die := die) (d := d) false hd h64 hd h64
  have hblock : State.reads blockReg (s.loseDomain die d) ((s.loseDomain die d).setDom die d false) := by
    have hc : ctlPage (Pg.PWR die / 0x1000) = true ∧ ctlPage (Rg.PWR_DOM_STAT die (d / 32) / 0x1000) = true := by
      have : d / 32 < 2 := by omega
      interval_cases die <;> interval_cases d / 32 <;> decide
    exact ((State.reads.refl _).ctl hc.2).ints (pwr_page die) hc.1
  generalize s.loseDomain die d = u at hl hres hflag hoff p1 p3 p4 hblock
  generalize u.setDom die d false = v at hflag hoff p1 p3 p4 hblock
  obtain ⟨w1, -, w3⟩ := withPw_rest v p
  obtain ⟨d1, -, d3, -, d5⟩ := domStart_rest (v.withPw p) die
  have hr : ∀ x, ((v.withPw p).domStart die).rd x = v.rd x := fun x => (d1 x).trans (w1 x)
  have hc := (State.calm.refl pwrReg ((v.withPw p).domStart die)).scUpdatePwr
  have hb := (State.reads.refl ((v.withPw p).domStart die)).scUpdate
  refine ⟨?_, ?_, hc.ints _ _ (pwr_page die) (by decide) (by rw [hr]; exact hflag), fun hreq => ?_, fun hb1 x hx => ?_⟩
  · rw [State.domOn, hc.rd _ (domStat_pwrReg die hd _ (by omega)), hr, ← State.domOn, hoff, if_pos ⟨rfl, rfl⟩]
  · rw [hc.pw, d3, w3, p1]
    simp
  · rw [hc.pw]
    exact d5 _ (by rw [w3]; exact p2 hreq)
  · obtain ⟨r1, r2⟩ := hres hb1 x hx
    rw [hb x r2, hr, hblock x r2, r1]

theorem domOff_idle {s : State} {die d : Nat} (h : domKey die d ∉ s.pw.fall) : s.domOffDone die d = s := if_pos (by simpa using h)

theorem domOn_idle {s : State} {die d : Nat} (h : domKey die d ∉ s.pw.rise) : s.domOnDone die d = s := if_pos (by simpa using h)

theorem domOn_shows {s : State} {die d : Nat} (hd : die < 2) (h64 : d < 64) (h : domKey die d ∈ s.pw.rise)
    (hon : s.pageOn (Pg.PWR die / 0x1000) = true) (hreq : bit (s.rd (Rg.PWR_DOM_REQ die (d / 32))) (d % 32) = true) :
    (s.domOnDone die d).domOn die d = true ∧ bit ((s.domOnDone die d).rd (Pg.PWR die + 0x010)) Ib.PWR_DOM_CHANGE = true := by
  have hn : ¬((!s.pw.rise.contains (domKey die d)) = true) := by simpa using h
  have hq : pwrReg (Rg.PWR_DOM_REQ die (d / 32)) = true ∧ Rg.PWR_DOM_REQ die (d / 32) ≠ Rg.PWR_DOM_STAT die (d / 32) := by
    have : d / 32 < 2 := by omega
    interval_cases die <;> interval_cases d / 32 <;> decide
  have e : s.domOnDone die d = ((s.withPw { s.pw with rise := s.pw.rise.filter (· != domKey die d) }).setDom die d true).domStart die := by
    unfold State.domOnDone
    simp only [if_neg hn]
    refine if_pos ?_
    have hr := (stays_setDom (s.withPw { s.pw with rise := s.pw.rise.filter (· != domKey die d) }) die d true).rd (Rg.PWR_DOM_REQ die (d / 32))
      (by rw [hq.1, bne_iff_ne.2 hq.2]; rfl)
    exact (congrArg (fun v => bit v (d % 32)) (((domStart_rest _ die).1 _).trans (hr.trans ((withPw_rest _ _).1 _)))).trans hreq
  rw [e]
  have hg := pageOn_withPw (s := s) (p := { s.pw with rise := s.pw.rise.filter (· != domKey die d) }) rfl rfl
  generalize s.withPw { s.pw with rise := s.pw.rise.filter (· != domKey die d) } = u at hg
  have hflag := setDom_flag u die d true ((hg _).trans hon) (pwr_undom die hd)
  have hoff := domOn_setDom u (die := die) (d := d) true hd h64 hd h64
  rw [if_pos ⟨rfl, rfl⟩] at hoff
  obtain ⟨d1, -⟩ := domStart_rest (u.setDom die d true) die
  exact ⟨by rw [State.domOn, d1]; exact hoff, by rw [d1]; exact hflag⟩

/-! ## PWR_STBY -/

/-- PWR_STBY as the model defines it: KEEP takes 0 to 2. -/
def stbyDef : RegDef := ⟨0x120, 1, 0x0, 1, 0x0, false, [fd 31 1 .wo 0, fd 30 1 .wo 0, fd 28 2 .ro 0, fd 24 4 .ro 0, fa 0 2 .rw 1 0 2]⟩

theorem findReg_stby : findReg (Rg.PWR_STBY 1) = some stbyDef := rfl

theorem stby_writeLive (c v : Nat) : stbyDef.writeLive c v = if (fa 0 2 .rw 1 0 2).ok (bits v 0 2) then setBits c 0 2 (bits v 0 2) else c := rfl

theorem stbyWrite_live (s : State) (v : Nat) : (∀ fl : Fld, 2 ≤ fl.lo → fl.lo + fl.w ≤ 32 →
      (s.fieldWrite (Rg.PWR_STBY 1) v).f (Rg.PWR_STBY 1) fl = s.f (Rg.PWR_STBY 1) fl) ∧
    (s.fieldWrite (Rg.PWR_STBY 1) v).f (Rg.PWR_STBY 1) Fd.PWR_STBY_KEEP = (if v % 4 = 3 then s.f (Rg.PWR_STBY 1) Fd.PWR_STBY_KEEP else v % 4) := by
  have hrd : (s.fieldWrite (Rg.PWR_STBY 1) v).rd (Rg.PWR_STBY 1) = (if (fa 0 2 .rw 1 0 2).ok (bits v 0 2) then
      setBits (s.rd (Rg.PWR_STBY 1)) 0 2 (bits v 0 2) else s.rd (Rg.PWR_STBY 1)) % 2 ^ 32 := by
    rw [fieldWrite_of_live findReg_stby (by decide), rd_setIntIf_own (by decide) (by decide), rd_wr_same, stby_writeLive]
  have hok : ((fa 0 2 .rw 1 0 2).ok (bits v 0 2) = true) ↔ v % 4 ≠ 3 := by
    have hb : bits v 0 2 = v % 4 := by simp [bits]
    have h4 : v % 4 < 4 := Nat.mod_lt _ (by decide)
    rw [hb]
    generalize v % 4 = x at h4
    interval_cases x <;> decide
  have hf : ∀ fl : Fld, (s.fieldWrite (Rg.PWR_STBY 1) v).f (Rg.PWR_STBY 1) fl = bits ((if (fa 0 2 .rw 1 0 2).ok (bits v 0 2) then
      setBits (s.rd (Rg.PWR_STBY 1)) 0 2 (bits v 0 2) else s.rd (Rg.PWR_STBY 1)) % 2 ^ 32) fl.lo fl.w := fun fl => congrArg (bits · fl.lo fl.w) hrd
  refine ⟨fun fl h1 h2 => ?_, ?_⟩
  · rw [hf, bits_mod _ _ _ _ h2]
    split
    · exact bits_setBits_disjoint _ _ _ _ _ _ (.inl h1)
    · rfl
  · rw [hf, bits_mod _ _ _ _ (by decide)]
    by_cases h : v % 4 = 3
    · rw [if_neg (fun e => hok.1 e h), if_pos h]
      rfl
    · rw [if_pos (hok.2 h), if_neg h]
      have hb : bits v 0 2 = v % 4 := by simp [bits]
      rw [hb]
      exact (bits_setBits_same _ _ _ _).trans (Nat.mod_mod _ _)

/-- A write of KEEP leaves every other register, and which pages answer. -/
theorem stbyWrite_calm (s : State) (v : Nat) : State.calm (fun x => ownReg x && x != Rg.PWR_STBY 1) s (s.fieldWrite (Rg.PWR_STBY 1) v) :=
  calm_fieldWrite (by decide) (by decide) rfl (fun x hx => ⟨(Bool.and_eq_true_iff.1 hx).1, bne_iff_ne.1 (Bool.and_eq_true_iff.1 hx).2⟩) s v

/-- What an entry is judged by. -/
def State.inUse (s : State) : Prop :=
  s.f Rg.CALD_STAT Fd.CALD_STAT_USED ≠ 0 ∨ s.f Rg.VOQ_STAT Fd.VOQ_STAT_NONEMPTY ≠ 0 ∨ s.f Rg.EQS_POOL_STAT Fd.EQS_POOL_STAT_USED ≠ 0

theorem stbyKeep_of {s : State} {k : Nat} (h : s.f (Rg.PWR_STBY 1) Fd.PWR_STBY_KEEP = k) : s.stbyKeep = if k < 2 then some k else none := by
  rw [← h]
  rfl

theorem stbyRefusal_eq (s : State) {k : Nat} (h : s.f (Rg.PWR_STBY 1) Fd.PWR_STBY_KEEP = k) {u : Prop} (hu : u ↔ s.inUse) :
    (u → s.stbyRefusal = 1) ∧ (¬u → k < 2 → s.scRole k ≠ scActive → s.stbyRefusal = 2) ∧
    (¬u → (2 ≤ k ∨ s.scRole k = scActive) → (s.stby ≠ 0 ∨ s.f Rg.CMT_STAT Fd.CMT_STAT_STATE ≠ 0) → s.stbyRefusal = 3) ∧
    (¬u → (2 ≤ k ∨ s.scRole k = scActive) → s.stby = 0 → s.f Rg.CMT_STAT Fd.CMT_STAT_STATE = 0 → s.stbyRefusal = 0) := by
  have hany : ∀ b, (k < 2 ∧ s.scRole k ≠ scActive ↔ b = true) → (s.stbyKeep.any fun k => s.scRole k != scActive) = b := fun b hb => by
    rw [stbyKeep_of h]
    split
    next h2 => rw [Option.any_some, Bool.eq_iff_iff, ← hb, bne_iff_ne]; exact ⟨fun x => ⟨h2, x⟩, fun x => x.2⟩
    next h2 =>
      cases b with
      | false => rfl
      | true => exact absurd (hb.2 rfl).1 h2
  have h1 : ¬u → s.stbyRefusal = if s.stbyKeep.any fun k => s.scRole k != scActive then 2
      else if s.stby ≠ 0 ∨ s.f Rg.CMT_STAT Fd.CMT_STAT_STATE ≠ 0 then 3 else 0 := fun hn => if_neg fun hc => hn (hu.2 hc)
  refine ⟨fun x => if_pos (hu.1 x), fun x y z => ?_, fun x y z => ?_, fun x y z w => ?_⟩
  · rw [h1 x, hany true ⟨fun _ => rfl, fun _ => ⟨y, z⟩⟩, if_pos rfl]
  · rw [h1 x, hany false ⟨fun hc => absurd y (by simp only [not_or]; exact ⟨by omega, hc.2⟩), fun hc => absurd hc (by decide)⟩, if_neg (by decide), if_pos z]
  · rw [h1 x, hany false ⟨fun hc => absurd y (by simp only [not_or]; exact ⟨by omega, hc.2⟩), fun hc => absurd hc (by decide)⟩, if_neg (by decide),
      if_neg (by simp [z, w])]

/-- The entry under way, or its refusal. -/
def State.stbyEnters (s : State) : State :=
  if s.stbyRefusal = 0 then s.setF (Rg.PWR_STBY 1) Fd.PWR_STBY_STATE 1
  else (s.setF (Rg.PWR_STBY 1) Fd.PWR_STBY_REFUSE s.stbyRefusal).powerRefuse 1

theorem stbyWrite_enter {s : State} {who : Requester} {v : Nat} (h31 : bit v 31 = true) (h30 : bit v 30 = false) :
    s.stbyWrite who v = (s.fieldWrite (Rg.PWR_STBY 1) v).stbyEnters := by
  unfold State.stbyWrite State.stbyEnters
  simp only [h31, h30, Bool.not_true, Bool.not_false, Bool.false_eq_true, if_false, if_true]

theorem stbyWrite_exit {s : State} {who : Requester} {v : Nat} (h31 : bit v 31 = false) (h30 : bit v 30 = true) :
    s.stbyWrite who v = if (s.fieldWrite (Rg.PWR_STBY 1) v).stby = 2 ∧ (s.fieldWrite (Rg.PWR_STBY 1) v).stbyKeep.any (fun k => reqNo who == 2 + k) then
      (s.fieldWrite (Rg.PWR_STBY 1) v).stbyExit else (s.fieldWrite (Rg.PWR_STBY 1) v).powerRefuse 1 := by
  unfold State.stbyWrite
  simp only [h31, h30, Bool.not_true, Bool.not_false, Bool.false_eq_true, if_false, if_true]

theorem powerRefuse_stby (s : State) : (s.powerRefuse 1).rd (Rg.PWR_STBY 1) = s.rd (Rg.PWR_STBY 1) :=
  (rd_setInt_own (by decide) rfl).trans (rd_bump_own (by decide) (by decide) (by decide))

theorem pageOn_setF_stby (s : State) (fl : Fld) (v g : Nat) : (s.setF (Rg.PWR_STBY 1) fl v).pageOn g = s.pageOn g :=
  ((State.calm.refl noReg s).setF none_all (by decide) rfl).on g

theorem stbyEnters_refused {s : State} {code : Nat} (h : s.stbyRefusal = code) (h0 : 0 < code) (h16 : code < 16) (hon : s.pageOn (Pg.PWR 1 / 0x1000) = true) :
    s.stbyEnters.f (Rg.PWR_STBY 1) Fd.PWR_STBY_REFUSE = code ∧ s.stbyEnters.stby = s.stby ∧ bit (s.stbyEnters.rd (Pg.PWR 1 + 0x010)) Ib.PWR_REFUSED = true := by
  have e : s.stbyEnters = (s.setF (Rg.PWR_STBY 1) Fd.PWR_STBY_REFUSE code).powerRefuse 1 := by
    unfold State.stbyEnters
    rw [h, if_neg (by omega)]
  rw [e]
  have hr := powerRefuse_stby (s.setF (Rg.PWR_STBY 1) Fd.PWR_STBY_REFUSE code)
  refine ⟨?_, ?_, (powerRefuse_shows _ 1 ((pageOn_setF_stby _ _ _ _).trans hon)).2.1⟩
  · rw [f_of_rd hr, f_setF_same _ _ _ _ (by decide)]
    exact Nat.mod_eq_of_lt h16
  · rw [State.stby, f_of_rd hr, f_setF_disjoint _ _ _ _ _ (by decide) (by decide)]
    rfl

theorem stbyEnters_taken {s : State} (h : s.stbyRefusal = 0) : s.stbyEnters.stby = 1 ∧
    s.stbyEnters.f (Rg.PWR_STBY 1) Fd.PWR_STBY_KEEP = s.f (Rg.PWR_STBY 1) Fd.PWR_STBY_KEEP := by
  have e : s.stbyEnters = s.setF (Rg.PWR_STBY 1) Fd.PWR_STBY_STATE 1 := if_pos h
  rw [e]
  exact ⟨f_setF_same _ _ _ _ (by decide), f_setF_disjoint _ _ _ _ _ (by decide) (by decide)⟩

theorem stby_shows {s : State} {who : Requester} {v k : Nat} {used : Prop} (hon : s.pageOn (Pg.PWR 1 / 0x1000) = true)
    (hk : k = (if v % 4 = 3 then s.f (Rg.PWR_STBY 1) Fd.PWR_STBY_KEEP else v % 4)) (hu : used ↔ s.inUse) :
    (∀ code, bits v 30 2 = 2 → ((used ∧ code = 1) ∨ (¬used ∧ k < 2 ∧ s.scRole k ≠ scActive ∧ code = 2) ∨
        (¬used ∧ (2 ≤ k ∨ s.scRole k = scActive) ∧ (s.stby ≠ 0 ∨ s.f Rg.CMT_STAT Fd.CMT_STAT_STATE ≠ 0) ∧ code = 3)) →
      (s.stbyWrite who v).f (Rg.PWR_STBY 1) Fd.PWR_STBY_REFUSE = code ∧ (s.stbyWrite who v).stby = s.stby ∧
        bit ((s.stbyWrite who v).rd (Pg.PWR 1 + 0x010)) Ib.PWR_REFUSED = true) ∧
    (bits v 30 2 = 2 → ¬used → (2 ≤ k ∨ s.scRole k = scActive) → s.stby = 0 → s.f Rg.CMT_STAT Fd.CMT_STAT_STATE = 0 →
      (s.stbyWrite who v).stby = 1 ∧ (s.stbyWrite who v).f (Rg.PWR_STBY 1) Fd.PWR_STBY_KEEP = k) ∧
    (bits v 30 2 = 1 → (s.stby = 2 → k < 2 → reqNo who = 2 + k → (s.stbyWrite who v).stby = 3 ∧ (s.stbyWrite who v).d2.training = true) ∧
      (s.stby ≠ 2 ∨ 2 ≤ k ∨ reqNo who ≠ 2 + k → (s.stbyWrite who v).stby = s.stby ∧
        bit ((s.stbyWrite who v).rd (Pg.PWR 1 + 0x010)) Ib.PWR_REFUSED = true)) := by
  obtain ⟨w1, w2⟩ := stbyWrite_live s v
  have wc := stbyWrite_calm s v
  have hb : ∀ n, bits v 30 2 = n → (bit v 30 = true ↔ n % 2 = 1) ∧ (bit v 31 = true ↔ n / 2 % 2 = 1) := fun n hn => by
    simp only [bits] at hn
    simp only [bit, beq_iff_eq]
    omega
  have enter : bits v 30 2 = 2 → s.stbyWrite who v = (s.fieldWrite (Rg.PWR_STBY 1) v).stbyEnters := fun h => by
    obtain ⟨h0, h1⟩ := hb _ h
    exact stbyWrite_enter (h1.2 rfl) (Bool.eq_false_iff.2 fun e => absurd (h0.1 e) (by decide))
  have leave : bits v 30 2 = 1 → _ := fun h => by
    obtain ⟨h0, h1⟩ := hb _ h
    exact stbyWrite_exit (s := s) (who := who) (v := v) (Bool.eq_false_iff.2 fun e => absurd (h1.1 e) (by decide)) (h0.2 rfl)
  generalize s.fieldWrite (Rg.PWR_STBY 1) v = u at w1 w2 wc enter leave
  rw [← hk] at w2
  have hst : u.stby = s.stby := w1 _ (by decide) (by decide)
  have hon' : u.pageOn (Pg.PWR 1 / 0x1000) = true := (wc.on _).trans hon
  have hcm : u.f Rg.CMT_STAT Fd.CMT_STAT_STATE = s.f Rg.CMT_STAT Fd.CMT_STAT_STATE := f_of_rd (wc.rd _ (by decide)) _
  have huse : used ↔ u.inUse := by
    rw [hu, State.inUse, State.inUse, f_of_rd (wc.rd _ (by decide)), f_of_rd (wc.rd _ (by decide)), f_of_rd (wc.rd _ (by decide))]
  have hrole : ∀ j, u.scRole j = s.scRole j := fun j => f_of_rd (wc.rd _ (by
    have h : Pg.SC j = 0xC0000 ∨ Pg.SC j = 0x1080000 := by unfold Pg.SC; split <;> simp
    obtain h | h := h <;> rw [Rg.SC_STAT, h] <;> decide)) _
  obtain ⟨q1, q2, q3, q4⟩ := stbyRefusal_eq u w2 huse
  rw [hrole] at q2 q3 q4
  rw [hst] at q3 q4
  rw [hcm] at q3 q4
  refine ⟨fun code h hcode => ?_, fun h h1 h2 h3 h4 => ?_, fun h => ⟨fun h1 h2 h3 => ?_, fun h1 => ?_⟩⟩
  · rw [enter h, ← hst]
    obtain ⟨x, rfl⟩ | ⟨x, y, z, rfl⟩ | ⟨x, y, z, rfl⟩ := hcode
    · exact stbyEnters_refused (q1 x) (by decide) (by decide) hon'
    · exact stbyEnters_refused (q2 x y z) (by decide) (by decide) hon'
    · exact stbyEnters_refused (q3 x y z) (by decide) (by decide) hon'
  · rw [enter h]
    obtain ⟨e1, e2⟩ := stbyEnters_taken (q4 h1 h2 h3 h4)
    exact ⟨e1, e2.trans w2⟩
  · have hany : (u.stbyKeep.any fun k => reqNo who == 2 + k) = true := by
      rw [stbyKeep_of w2, if_pos h2, Option.any_some, h3]
      exact beq_self_eq_true _
    rw [leave h, if_pos ⟨hst.trans h1, hany⟩]
    obtain ⟨e1, e2, -⟩ := stbyExit_shows (hst.trans h1)
    exact ⟨e1, e2⟩
  · have hn : ¬(u.stby = 2 ∧ (u.stbyKeep.any fun k => reqNo who == 2 + k) = true) := fun ⟨c1, c2⟩ => by
      rw [stbyKeep_of w2] at c2
      split at c2
      next h2 =>
        rw [Option.any_some, beq_iff_eq] at c2
        exact h1.elim (fun x => x (hst ▸ c1)) fun x => x.elim (fun y => by omega) fun y => y c2
      next => cases c2
    rw [leave h, if_neg hn]
    exact ⟨(f_of_rd (powerRefuse_stby u) _).trans hst, (powerRefuse_shows u 1 hon').2.1⟩

/-! ## Entry completes -/

/-- The registers that tell the power and the controllers' roles. -/
def entryReg (x : Nat) : Bool := pwrReg x || x == Rg.SC_STAT 0 || x == Rg.SC_STAT 1

theorem entryReg_cases {x : Nat} (h : entryReg x = true) : pwrReg x = true ∨ x = Rg.SC_STAT 0 ∨ x = Rg.SC_STAT 1 := by
  simpa only [entryReg, Bool.or_eq_true, beq_iff_eq, or_assoc] using h

theorem entryReg_stat {k : Nat} (hk : k < 2) : entryReg (Rg.SC_STAT k) = true := by interval_cases k <;> decide

theorem entryReg_pwr {x : Nat} (h : pwrReg x = true) : entryReg x = true := by rw [entryReg, h]; rfl

theorem entryReg_apart {x : Nat} (h : entryReg x = true) : ownReg x = true ∧ x / 0x1000 ≠ 0x1082 ∧ hbmPage (x / 0x1000) = false ∧
    ∀ p, p < 2 → linkLostReg p x = false := by
  obtain h | rfl | rfl := entryReg_cases h
  · exact ⟨pwrReg_own h, by obtain ⟨-, e | e⟩ := pwrReg_iff.1 h <;> omega, (pwrReg_hbm h).2, fun p hp => pwrReg_port hp h⟩
  · exact ⟨by decide, by decide, by decide, by decide⟩
  · exact ⟨by decide, by decide, by decide, by decide⟩

/-- The controllers held but for the one that is kept. -/
def State.scHold (s : State) : State := (([0, 1].filter fun k => s.stbyKeep != some k).foldl (fun t k => t.scEnter k scHeld) s).scUpdate

theorem stays_scEnter (s : State) {k role : Nat} (hk : k < 2) : State.stays pwrReg s (s.scEnter k role) := by
  obtain ⟨h1, h2, -, -, -, h6, -⟩ := scEnter_rest s k role
  have hp : Rg.SC_STAT k / 0x1000 ≠ 0xE0 ∧ Rg.SC_STAT k / 0x1000 ≠ 0x10B0 := by interval_cases k <;> decide
  exact ⟨fun x hx => rd_scEnter s k role (pwrReg_ne hx hp.1 hp.2), .of_out h6, h1, h2⟩

theorem scHold_shows (s : State) : State.stays pwrReg s s.scHold ∧ ∀ k, k < 2 → s.stbyKeep ≠ some k → s.scHold.scRole k = scHeld := by
  have hl : ∀ k ∈ [0, 1].filter (fun k => s.stbyKeep != some k), k < 2 := fun k hk => by
    have := (List.mem_filter.1 hk).1
    simp at this
    omega
  have h1 := State.stays.foldl (l := [0, 1].filter fun k => s.stbyKeep != some k) (f := fun t k => t.scEnter k scHeld) (fun v k hk => stays_scEnter v (hl k hk)) (.refl pwrReg s)
  refine ⟨h1.trans (State.calm.refl pwrReg _).scUpdatePwr.stays, fun k hk hne => ?_⟩
  rw [State.scHold, scRole_scUpdate _ hk]
  have hrole : ∀ (v : State) j, j < 2 → (v.scEnter j scHeld).scRole j = scHeld := fun v j _ => scRole_scEnter v (k := j) (role := scHeld) (by decide)
  have hother : ∀ (v : State) i j, i < 2 → j < 2 → j ≠ i → (v.scEnter i scHeld).scRole j = v.scRole j := fun v i j hi hj hne =>
    scRole_scEnter_other v (k := i) (role := scHeld) hi hj hne
  have hb : (s.stbyKeep != some k) = true := bne_iff_ne.2 hne
  interval_cases k
  · rw [List.filter_cons_of_pos (p := fun k => s.stbyKeep != some k) hb, List.foldl_cons]
    by_cases h2 : (s.stbyKeep != some 1) = true
    · rw [List.filter_cons_of_pos (p := fun k => s.stbyKeep != some k) h2]
      exact (hother _ 1 0 (by decide) (by decide) (by decide)).trans (hrole _ 0 (by decide))
    · rw [List.filter_cons_of_neg (p := fun k => s.stbyKeep != some k) h2]
      exact hrole _ 0 (by decide)
  · by_cases h2 : (s.stbyKeep != some 0) = true
    · rw [List.filter_cons_of_pos (p := fun k => s.stbyKeep != some k) h2, List.filter_cons_of_pos (p := fun k => s.stbyKeep != some k) hb]
      exact hrole _ 1 (by decide)
    · rw [List.filter_cons_of_neg (p := fun k => s.stbyKeep != some k) h2, List.filter_cons_of_pos (p := fun k => s.stbyKeep != some k) hb]
      exact hrole _ 1 (by decide)

theorem stays_losePcie {s t : State} (h : State.stays entryReg s t) {p : Nat} (hp : p < 2) : State.stays entryReg s (t.losePcie p) :=
  (h.trans ((State.calm.refl _ t).linkDown hp fun _ hx => ⟨(entryReg_apart hx).1, (entryReg_apart hx).2.2.2 p hp⟩).stays).setPcie

/-- The ranks of a trained stack put in self-refresh. -/
def State.ranksKept (t : State) (k : Nat) : State :=
  ((List.range 64).foldl (fun (u : State) (r : Nat) => if u.rankState k r = rkFailed then u else u.setSr k r true) t).hbmCount k

theorem calm_ranksKept (t : State) {k : Nat} (hk : k < 4) : State.calm entryReg t (t.ranksKept k) := by
  have hP : ∀ x, entryReg x = true → ownReg x = true ∧ hbmPage (x / 0x1000) = false := fun x hx => ⟨(entryReg_apart hx).1, (entryReg_apart hx).2.2.1⟩
  exact State.calm.hbmCount hP hk (.foldl (fun v r _ => .ite (.refl _ v) (State.calm.setSr hP hk (.refl _ v))) (.refl _ t))

theorem sget_filterMap {α : Type} (d : α) (m : Sparse α) (f : Nat × α → Option (Nat × α)) (x : Nat) (hk : ∀ e v, f e = some v → v.1 = e.1)
    (hx : ∀ e : Nat × α, e.1 = x → f e = some e) : sget d (m.filterMap f) x = sget d m x := by
  induction m with
  | nil => rfl
  | cons e m ih =>
    rw [List.filterMap_cons]
    by_cases he : e.1 = x
    · rw [hx e he]
      show (if e.1 = x then e.2 else _) = if e.1 = x then e.2 else _
      rw [if_pos he, if_pos he]
    · have hs : sget d (e :: m) x = sget d m x := if_neg he
      rw [hs]
      cases hf : f e with
      | none => exact ih
      | some v => exact (if_neg (by rw [hk e v hf]; exact he)).trans ih

theorem stbyHeld_stat : stbyHeld (Rg.SC_STAT 0) = true ∧ stbyHeld (Rg.SC_STAT 1) = true := by decide

theorem stbyOff_pwr (s : State) {x : Nat} (h : pwrReg x = true) : s.stbyOff (x / 0x1000) = false := by
  obtain ⟨-, e | e⟩ := pwrReg_iff.1 h <;> rw [e] <;> rfl

theorem stays_stbyLose (s : State) : State.stays entryReg s s.stbyLose := by
  refine ⟨fun x hx => ?_, .of_out rfl, rfl, rfl⟩
  refine sget_filterMap _ s.regs _ x (fun e v he => ?_) (fun e he => ?_)
  · split at he
    · cases he; rfl
    · split at he <;> cases he; rfl
  · subst he
    refine if_pos ?_
    rw [Bool.or_eq_true]
    obtain h | h | h := entryReg_cases hx
    · left
      rw [stbyOff_pwr s h]
      rfl
    · right
      rw [h]
      exact stbyHeld_stat.1
    · right
      rw [h]
      exact stbyHeld_stat.2

theorem stays_stbyBlocks (s : State) : State.stays entryReg s s.stbyBlocks := .ofParts

/-- What standby loses outside the power state. -/
def State.stbyLost (s : State) : State :=
  let s2 := (s.losePcie 0).losePcie 1
  let s3 := (List.range s2.part.stacks).foldl (fun (t : State) (k : Nat) => if !t.stackTrained k then t else t.ranksKept k) s2
  (((List.range 44).filter fun p => s3.stbyOff (partPage p)).foldl State.dropPart s3).withPaths fun t => t.stbyLose.stbyBlocks

theorem stays_stbyLost (s : State) : State.stays entryReg s s.stbyLost := by
  unfold State.stbyLost
  simp only []
  have h2 := stays_losePcie (stays_losePcie (.refl entryReg s) (p := 0) (by decide)) (p := 1) (by decide)
  generalize (s.losePcie 0).losePcie 1 = s2 at h2
  have h3 := State.stays.foldl (l := List.range s2.part.stacks) (f := fun (t : State) (k : Nat) => if !t.stackTrained k then t else t.ranksKept k)
    (fun v k hk => State.stays.ite (c := (!v.stackTrained k) = true) (.refl entryReg v) (calm_ranksKept v (Nat.lt_of_lt_of_le (List.mem_range.1 hk) (stacks_le _))).stays) h2
  generalize (List.range s2.part.stacks).foldl (fun (t : State) (k : Nat) => if !t.stackTrained k then t else t.ranksKept k) s2 = s3 at h3
  obtain ⟨d1, d2, -, d4, d5⟩ := dropParts_rest ((List.range 44).filter fun p => s3.stbyOff (partPage p)) s3
  have h4 := h3.thenParts d1 d4 d2 d5
  generalize ((List.range 44).filter fun p => s3.stbyOff (partPage p)).foldl State.dropPart s3 = s4 at h4
  have h5 := (h4.trans (stays_stbyLose s4)).trans (stays_stbyBlocks s4.stbyLose)
  exact h5.trans (stays_withPaths (fun x hx => ⟨(entryReg_apart hx).1, (entryReg_apart hx).2.1⟩) s4 fun t => t.stbyLose.stbyBlocks)

/-! ### The bits of many domains -/

/-- Own registers that neither power a domain nor request it. -/
def restReg (x : Nat) : Bool :=
  ownReg x && notDom x && x != Rg.CALD_PWR && x != Rg.PWR_DOM_REQ 0 0 && x != Rg.PWR_DOM_REQ 0 1 && x != Rg.PWR_DOM_REQ 1 0 && x != Rg.PWR_DOM_REQ 1 1

theorem restReg_apart {x : Nat} (h : restReg x = true) : ownReg x = true ∧ notDom x = true ∧ x ≠ Rg.CALD_PWR ∧ ∀ e w, e < 2 → w < 2 → x ≠ Rg.PWR_DOM_REQ e w := by
  simp only [restReg, Bool.and_eq_true, bne_iff_ne] at h
  obtain ⟨⟨⟨⟨⟨⟨h1, h2⟩, h3⟩, h4⟩, h5⟩, h6⟩, h7⟩ := h
  refine ⟨h1, h2, h3, fun e w he hw => ?_⟩
  interval_cases e <;> interval_cases w <;> assumption

theorem rest_setDom (s : State) {die d : Nat} (on : Bool) (hd : die < 2) (h64 : d < 64) : State.stays restReg s (s.setDom die d on) :=
  ((State.stays.refl _ s).wr fun _ hx => notDom_ne (restReg_apart hx).2.1 die (d / 32) (by omega) (by omega)).setInt
    (fun _ hx => (restReg_apart hx).1) (pwr_page die)

/-- One domain off. -/
def State.offOne (die : Nat) (u : State) (d : Nat) : State := u.setDom die d false

theorem offAll_shows {die : Nat} (hd : die < 2) (l : List Nat) (hl : ∀ k ∈ l, k < 64) (u : State) : State.stays restReg u (l.foldl (State.offOne die) u) ∧
    ∀ e j, e < 2 → j < 64 → (l.foldl (State.offOne die) u).domOn e j = (u.domOn e j && !decide (e = die ∧ j ∈ l)) := by
  induction l generalizing u with
  | nil => exact ⟨.refl _ u, fun e j _ _ => by simp⟩
  | cons k l ih =>
    have hk := hl k List.mem_cons_self
    obtain ⟨h3, h4⟩ := ih (fun j hj => hl j (List.mem_cons_of_mem _ hj)) (State.offOne die u k)
    refine ⟨(rest_setDom u false hd hk).trans h3, fun e j he hj => (h4 e j he hj).trans ?_⟩
    have h1 : (State.offOne die u k).domOn e j = (u.domOn e j && !decide (e = die ∧ j = k)) := by
      rw [State.offOne, domOn_setDom _ _ hd hk he hj]
      by_cases hc : e = die ∧ j = k
      · rw [if_pos hc, decide_eq_true hc, Bool.not_true, Bool.and_false]
      · rw [if_neg hc, decide_eq_false hc, Bool.not_false, Bool.and_true]
    rw [h1, Bool.and_assoc]
    congr 1
    rw [← Bool.not_or, ← Bool.decide_or]
    exact congrArg (fun b => !b) (decide_eq_decide.2 (by rw [List.mem_cons, ← and_or_left]))

theorem stays_domOn {P : Nat → Bool} {s t : State} (h : State.stays P s t) (hP : ∀ x, pwrReg x = true → P x = true) {e j : Nat} (he : e < 2) (hj : j < 64) :
    t.domOn e j = s.domOn e j := by
  rw [State.domOn, State.domOn, h.rd _ (hP _ (domStat_pwrReg e he _ (by omega)))]

theorem stbyStays_of {s t : State} (h : t.rd (Rg.PWR_STBY 1) = s.rd (Rg.PWR_STBY 1)) (die d : Nat) : t.stbyStays die d = s.stbyStays die d := by
  have hk : t.stbyKeep = s.stbyKeep := by
    rw [State.stbyKeep, State.stbyKeep, f_of_rd h]
  rw [State.stbyStays, State.stbyStays, hk]

/-- The domains that standby does not keep go off. -/
def State.stbyDomsOff (s : State) : State :=
  [0, 1].foldl (fun (t : State) (die : Nat) => ((t.part.doms die).filter fun d => !t.stbyStays die d).foldl (State.offOne die) t) s

theorem stbyDomsOff_shows (s : State) : State.stays restReg s s.stbyDomsOff ∧ ∀ die d, die < 2 → d < 47 → s.part.hasDom die d = true →
    s.stbyDomsOff.domOn die d = (s.stbyStays die d && s.domOn die d) := by
  have hl : ∀ (t : State) die, ∀ k ∈ (t.part.doms die).filter fun d => !t.stbyStays die d, k < 64 := fun t die k hk => by
    have := (mem_doms.1 (List.mem_filter.1 hk).1).1
    omega
  have hm : ∀ (t : State) die d, t.part = s.part → t.rd (Rg.PWR_STBY 1) = s.rd (Rg.PWR_STBY 1) → d < 47 → s.part.hasDom die d = true →
      (decide (d ∈ (t.part.doms die).filter fun d => !t.stbyStays die d)) = !s.stbyStays die d := fun t die d hp hr hd hh => by
    rw [Bool.eq_iff_iff, decide_eq_true_eq, List.mem_filter, hp, mem_doms, stbyStays_of hr]
    exact ⟨fun h => h.2, fun h => ⟨⟨hd, hh⟩, h⟩⟩
  unfold State.stbyDomsOff
  rw [List.foldl_cons, List.foldl_cons, List.foldl_nil]
  obtain ⟨a1, a2⟩ := offAll_shows (die := 0) (by decide) _ (hl s 0) s
  have hm0 := hm s 0
  generalize ((s.part.doms 0).filter fun d => !s.stbyStays 0 d) = l0 at a1 a2 hm0
  generalize l0.foldl (State.offOne 0) s = t at a1 a2
  obtain ⟨b1, b2⟩ := offAll_shows (die := 1) (by decide) _ (hl t 1) t
  have hm1 := hm t 1
  generalize ((t.part.doms 1).filter fun d => !t.stbyStays 1 d) = l1 at b1 b2 hm1
  refine ⟨a1.trans b1, fun die d hdie hd hh => ?_⟩
  rw [b2 die d hdie (by omega), a2 die d hdie (by omega)]
  interval_cases die
  · have h0 := hm0 d rfl rfl hd hh
    simp only [true_and, h0, show (0 = 1) = False from eq_false (by decide), false_and, decide_false, Bool.not_false, Bool.and_true, Bool.not_not]
    exact Bool.and_comm _ _
  · have h1 := hm1 d a1.part (a1.rd _ (by decide)) hd hh
    simp only [true_and, h1, show (1 = 0) = False from eq_false (by decide), false_and, decide_false, Bool.not_false, Bool.and_true, Bool.not_not]
    exact Bool.and_comm _ _

theorem stbyEntered_eq {s : State} (h : s.stby = 1) : s.stbyEntered =
    ((s.scHold.stbyLost.stbyDomsOff.withPw { s.scHold.stbyLost.stbyDomsOff.pw with rise := [], wait := [], fall := [] }).setF (Rg.PWR_STBY 1)
      Fd.PWR_STBY_STATE 2).setInt (Pg.PWR 1) Ib.PWR_STBY_DONE := by
  unfold State.stbyEntered
  rw [if_neg (by rw [h]; decide)]
  rfl

theorem pageOn_pwr1 (s : State) : s.pageOn (Pg.PWR 1 / 0x1000) = (!s.pw.por && !s.pw.sup && pagePresent s.part (Pg.PWR 1 / 0x1000)) := by
  have h := pwr_undom 1 (by decide)
  rw [State.pageOn, if_neg h.2, h.1, Bool.and_true]

theorem stbyEntered_shows {s : State} (h : s.stby = 1) (hon : s.pageOn (Pg.PWR 1 / 0x1000) = true) : s.stbyEntered.stby = 2 ∧
    bit (s.stbyEntered.rd (Pg.PWR 1 + 0x010)) Ib.PWR_STBY_DONE = true ∧ (∀ k, k < 2 → s.stbyKeep ≠ some k → s.stbyEntered.scRole k = scHeld) ∧
    ∀ die d, die < 2 → d < 47 → s.part.hasDom die d = true → s.stbyEntered.domOn die d = (s.stbyStays die d && s.domOn die d) := by
  rw [stbyEntered_eq h]
  obtain ⟨h1, hrole⟩ := scHold_shows s
  have h2 := stays_stbyLost s.scHold
  generalize s.scHold = s1 at h1 hrole h2
  generalize s1.stbyLost = s2 at h2
  obtain ⟨h3, hdom⟩ := stbyDomsOff_shows s2
  generalize s2.stbyDomsOff = s3 at h3 hdom
  obtain ⟨w1, w2, w3⟩ := withPw_rest s3 { s3.pw with rise := [], wait := [], fall := [] }
  have hw := pageOn_withPw (s := s3) (p := { s3.pw with rise := [], wait := [], fall := [] }) rfl rfl
  generalize s3.withPw { s3.pw with rise := [], wait := [], fall := [] } = s4 at w1 w2 w3 hw
  have hpwr : ∀ x, pwrReg x = true → s2.rd x = s.rd x := fun x hx => (h2.rd x (entryReg_pwr hx)).trans (h1.rd x hx)
  have hend : ∀ x, ownReg x = true → x ≠ Rg.PWR_STBY 1 → ((s4.setF (Rg.PWR_STBY 1) Fd.PWR_STBY_STATE 2).setInt (Pg.PWR 1) Ib.PWR_STBY_DONE).rd x = s3.rd x :=
    fun x ho hne => (rd_setInt_own ho rfl).trans ((rd_setF_other _ _ _ _ _ hne).trans (w1 x))
  refine ⟨?_, setInt_bit _ _ _ rfl (by decide) ?_, fun k hk hne => ?_, fun die d hdie hd hh => ?_⟩
  · rw [State.stby, f_of_rd (rd_setInt_own (by decide) rfl), f_setF_same _ _ _ _ (by decide)]
    rfl
  · rw [pageOn_setF_stby, hw, pageOn_pwr1, h3.pw, h3.part, h2.pw, h2.part, h1.pw, h1.part, ← pageOn_pwr1]
    exact hon
  · have hs : ownReg (Rg.SC_STAT k) = true ∧ Rg.SC_STAT k ≠ Rg.PWR_STBY 1 ∧ restReg (Rg.SC_STAT k) = true := by interval_cases k <;> decide
    have hr := (hend _ hs.1 hs.2.1).trans ((h3.rd _ hs.2.2).trans (h2.rd _ (entryReg_stat hk)))
    exact (f_of_rd hr Fd.SC_STAT_ROLE).trans (hrole k hk hne)
  · have hs := domStat_pwrReg die hdie (d / 32) (by omega)
    have hne : Rg.PWR_DOM_STAT die (d / 32) ≠ Rg.PWR_STBY 1 := by
      have : d / 32 < 2 := by omega
      interval_cases die <;> interval_cases d / 32 <;> decide
    rw [State.domOn, hend _ (pwrReg_own hs) hne, ← State.domOn, hdom die d hdie hd (by rw [h2.part, h1.part]; exact hh),
      stbyStays_of (hpwr _ (by decide)), State.domOn, hpwr _ hs, ← State.domOn]

/-! ## Exit completes -/

/-- One domain on, with its request. -/
def State.onOne (die : Nat) (u : State) (d : Nat) : State := (if u.domOn die d then u else u.setDom die d true).setReq die d true

theorem rest_setReq (s : State) {die d : Nat} (on : Bool) (hd : die < 2) (h64 : d < 64) : State.stays restReg s (s.setReq die d on) := by
  have h : State.stays restReg s (s.wr (Rg.PWR_DOM_REQ die (d / 32)) (setBits (s.rd (Rg.PWR_DOM_REQ die (d / 32))) (d % 32) 1 (b2n on))) :=
    (State.stays.refl _ s).wr fun _ hx => (restReg_apart hx).2.2.2 die (d / 32) hd (by omega)
  exact .ite (h.wr fun _ hx => (restReg_apart hx).2.2.1) h

theorem domOn_setReq (s : State) {die d : Nat} (on : Bool) (hd : die < 2) (h64 : d < 64) {e j : Nat} (he : e < 2) (hj : j < 64) :
    (s.setReq die d on).domOn e j = s.domOn e j := by
  have hq : Rg.PWR_DOM_STAT e (j / 32) ≠ Rg.CALD_PWR ∧ Rg.PWR_DOM_STAT e (j / 32) ≠ Rg.PWR_DOM_REQ die (d / 32) := by
    have h1 : j / 32 < 2 := by omega
    have h2 : d / 32 < 2 := by omega
    interval_cases e <;> interval_cases j / 32 <;> interval_cases die <;> interval_cases d / 32 <;> decide
  have h : (s.setReq die d on).rd (Rg.PWR_DOM_STAT e (j / 32)) = s.rd (Rg.PWR_DOM_STAT e (j / 32)) := by
    unfold State.setReq
    simp only []
    split
    · rw [rd_wr_other _ _ _ _ hq.1, rd_wr_other _ _ _ _ hq.2]
    · exact rd_wr_other _ _ _ _ hq.2
  rw [State.domOn, State.domOn, h]

theorem onAll_shows {die : Nat} (hd : die < 2) (l : List Nat) (hl : ∀ k ∈ l, k < 64) (u : State) : State.stays restReg u (l.foldl (State.onOne die) u) ∧
    ∀ e j, e < 2 → j < 64 → (l.foldl (State.onOne die) u).domOn e j = (u.domOn e j || decide (e = die ∧ j ∈ l)) := by
  induction l generalizing u with
  | nil => exact ⟨.refl _ u, fun e j _ _ => by simp⟩
  | cons k l ih =>
    have hk := hl k List.mem_cons_self
    obtain ⟨h3, h4⟩ := ih (fun j hj => hl j (List.mem_cons_of_mem _ hj)) (State.onOne die u k)
    have hset : State.stays restReg u (if u.domOn die k then u else u.setDom die k true) := .ite (.refl _ u) (rest_setDom u true hd hk)
    refine ⟨(hset.trans (rest_setReq _ true hd hk)).trans h3, fun e j he hj => (h4 e j he hj).trans ?_⟩
    have h1 : (State.onOne die u k).domOn e j = (u.domOn e j || decide (e = die ∧ j = k)) := by
      rw [State.onOne, domOn_setReq _ _ hd hk he hj]
      by_cases hc : e = die ∧ j = k
      · obtain ⟨rfl, rfl⟩ := hc
        rw [decide_eq_true ⟨rfl, rfl⟩, Bool.or_true]
        split
        next h => exact h
        next => rw [domOn_setDom _ _ hd hk he hj, if_pos ⟨rfl, rfl⟩]
      · rw [decide_eq_false hc, Bool.or_false]
        split
        · rfl
        · rw [domOn_setDom _ _ hd hk he hj, if_neg hc]
    rw [h1, Bool.or_assoc]
    congr 1
    rw [← Bool.decide_or]
    exact decide_eq_decide.2 (by rw [List.mem_cons, ← and_or_left])

/-- Every domain on. -/
def State.allOn (s : State) : State := [0, 1].foldl (fun (t : State) (die : Nat) => (t.part.doms die).foldl (State.onOne die) t) s

theorem allOn_shows (s : State) : State.stays restReg s s.allOn ∧ ∀ die d, die < 2 → d < 47 → s.part.hasDom die d = true → s.allOn.domOn die d = true := by
  have hl : ∀ (t : State) die, ∀ k ∈ t.part.doms die, k < 64 := fun t die k hk => by
    have := (mem_doms.1 hk).1
    omega
  unfold State.allOn
  rw [List.foldl_cons, List.foldl_cons, List.foldl_nil]
  obtain ⟨a1, a2⟩ := onAll_shows (die := 0) (by decide) _ (hl s 0) s
  generalize (s.part.doms 0).foldl (State.onOne 0) s = t at a1 a2
  obtain ⟨b1, b2⟩ := onAll_shows (die := 1) (by decide) _ (hl t 1) t
  refine ⟨a1.trans b1, fun die d hdie hd hh => ?_⟩
  rw [b2 die d hdie (by omega), a2 die d hdie (by omega), a1.part]
  have hm : d ∈ s.part.doms die := mem_doms.2 ⟨hd, hh⟩
  interval_cases die
  · rw [decide_eq_true (⟨rfl, hm⟩ : 0 = 0 ∧ d ∈ s.part.doms 0), Bool.or_true, Bool.true_or]
  · rw [decide_eq_true (⟨rfl, hm⟩ : 1 = 1 ∧ d ∈ s.part.doms 1), Bool.or_true]

/-- The registers that the end of an exit leaves. -/
def exitReg (x : Nat) : Bool := pwrReg x || x == Rg.BUF_PAGES_TOTAL || x == Rg.BUF_PAGES_FREE

theorem exitReg_cases {x : Nat} (h : exitReg x = true) : pwrReg x = true ∨ x = Rg.BUF_PAGES_TOTAL ∨ x = Rg.BUF_PAGES_FREE := by
  simpa only [exitReg, Bool.or_eq_true, beq_iff_eq, or_assoc] using h

theorem exitReg_ctl {x : Nat} (h : exitReg x = true) : ownReg x = true ∧ ctlReg x = false := by
  obtain h | rfl | rfl := exitReg_cases h
  · exact pwrReg_ctl h
  · exact ⟨by decide, by decide⟩
  · exact ⟨by decide, by decide⟩

theorem exitReg_ne {x a : Nat} (h : exitReg x = true) (h0 : a / 0x1000 ≠ 0xE0) (h1 : a / 0x1000 ≠ 0x10B0) (h2 : a ≠ Rg.BUF_PAGES_TOTAL)
    (h3 : a ≠ Rg.BUF_PAGES_FREE) : x ≠ a := by
  obtain h | rfl | rfl := exitReg_cases h
  · exact pwrReg_ne h h0 h1
  · exact h2.symm
  · exact h3.symm

theorem stays_terrRestore (s : State) : State.stays exitReg s s.terrRestore := .foldl (fun _ _ _ => .ofParts) (.refl _ s)

theorem stays_steerStat (s : State) : State.stays exitReg s s.steerStat :=
  have h : State.stays exitReg s (s.wr Rg.STEER_STAT (b2n (s.inRole 0 rlDormant).head?.isNone * 2 ^ 31 + b2n (s.inRole 1 rlDormant).head?.isNone * 2 ^ 30 +
      (s.inRole 0 rlDormant).head?.getD 15 * 2 ^ 20 + (s.inRole 1 rlDormant).head?.getD 15 * 2 ^ 16)) :=
    (State.stays.refl _ s).wr fun _ hx => exitReg_ne hx (by decide) (by decide) (by decide) (by decide)
  .ite (h.setInt (fun _ hx => (exitReg_ctl hx).1) rfl) h

theorem stbyPages_shows (s : State) : State.stays pwrReg s s.stbyPages ∧ s.stbyPages.rd Rg.BUF_PAGES_FREE = s.stbyPages.rd Rg.BUF_PAGES_TOTAL := by
  have h : ∀ n, State.stays pwrReg s ((s.wr Rg.BUF_PAGES_TOTAL n).setFree n) ∧
      ((s.wr Rg.BUF_PAGES_TOTAL n).setFree n).rd Rg.BUF_PAGES_FREE = ((s.wr Rg.BUF_PAGES_TOTAL n).setFree n).rd Rg.BUF_PAGES_TOTAL := fun n => by
    have hne : ∀ a, a / 0x1000 ≠ 0xE0 → a / 0x1000 ≠ 0x10B0 → ∀ x, pwrReg x = true → x ≠ a := fun a h0 h1 x hx => pwrReg_ne hx h0 h1
    refine ⟨(((State.stays.refl pwrReg s).wr (hne _ (by decide) (by decide))).wr (hne _ (by decide) (by decide))).wr (hne _ (by decide) (by decide)), ?_⟩
    unfold State.setFree
    simp only []
    rw [rd_wr_other _ _ _ _ (by decide), rd_wr_same, rd_wr_other _ _ _ _ (by decide), rd_wr_other _ _ _ _ (by decide), rd_wr_same]
  exact h _

/-- What the end of an exit restores. -/
def State.stbyRestored (s : State) : State := s.terrRestore.stbyPages.steerStat

theorem stbyRestored_shows (s : State) : State.stays pwrReg s s.stbyRestored ∧ s.stbyRestored.rd Rg.BUF_PAGES_FREE = s.stbyRestored.rd Rg.BUF_PAGES_TOTAL := by
  have hm : ∀ x, pwrReg x = true → exitReg x = true := fun x hx => by rw [exitReg, hx]; rfl
  obtain ⟨h1, h2⟩ := stbyPages_shows s.terrRestore
  have h3 := stays_steerStat s.terrRestore.stbyPages
  exact ⟨(((stays_terrRestore s).mono hm).trans h1).trans (h3.mono hm), (h3.rd _ (by decide)).trans (h2.trans (h3.rd _ (by decide)).symm)⟩

theorem stbyExited_eq {s : State} (h : s.stby = 3) : s.stbyExited =
    (((s.allOn.withPw { s.allOn.pw with rise := [], wait := [], fall := [] }).stbyRestored.setF (Rg.PWR_STBY 1) Fd.PWR_STBY_STATE 0).setInt
      (Pg.PWR 1) Ib.PWR_STBY_DONE).scUpdate := by
  unfold State.stbyExited
  rw [if_neg (by rw [h]; decide)]
  rfl

theorem stbyExited_shows {s : State} (h : s.stby = 3) (hon : s.pageOn (Pg.PWR 1 / 0x1000) = true) : s.stbyExited.stby = 0 ∧
    bit (s.stbyExited.rd (Pg.PWR 1 + 0x010)) Ib.PWR_STBY_DONE = true ∧ s.stbyExited.rd Rg.BUF_PAGES_FREE = s.stbyExited.rd Rg.BUF_PAGES_TOTAL ∧
    ∀ die d, die < 2 → d < 47 → s.part.hasDom die d = true → s.stbyExited.domOn die d = true := by
  rw [stbyExited_eq h]
  obtain ⟨h1, hdom⟩ := allOn_shows s
  generalize s.allOn = s1 at h1 hdom
  obtain ⟨w1, w2, w3⟩ := withPw_rest s1 { s1.pw with rise := [], wait := [], fall := [] }
  have hw := pageOn_withPw (s := s1) (p := { s1.pw with rise := [], wait := [], fall := [] }) rfl rfl
  generalize s1.withPw { s1.pw with rise := [], wait := [], fall := [] } = s2 at w1 w2 w3 hw
  obtain ⟨h3, hbuf⟩ := stbyRestored_shows s2
  generalize s2.stbyRestored = s3 at h3 hbuf
  have hc : State.calm exitReg ((s3.setF (Rg.PWR_STBY 1) Fd.PWR_STBY_STATE 0).setInt (Pg.PWR 1) Ib.PWR_STBY_DONE)
      ((s3.setF (Rg.PWR_STBY 1) Fd.PWR_STBY_STATE 0).setInt (Pg.PWR 1) Ib.PWR_STBY_DONE).scUpdate :=
    (State.calm.refl _ _).scUpdate (fun _ hx => exitReg_ctl hx) fun _ hx => ⟨exitReg_ne hx (by decide) (by decide) (by decide) (by decide),
      exitReg_ne hx (by decide) (by decide) (by decide) (by decide)⟩
  have hend : ∀ x, exitReg x = true → x ≠ Rg.PWR_STBY 1 →
      ((s3.setF (Rg.PWR_STBY 1) Fd.PWR_STBY_STATE 0).setInt (Pg.PWR 1) Ib.PWR_STBY_DONE).scUpdate.rd x = s3.rd x := fun x hx hne =>
    (hc.rd x hx).trans ((rd_setInt_own (exitReg_ctl hx).1 rfl).trans (rd_setF_other _ _ _ _ _ hne))
  refine ⟨?_, hc.ints _ _ rfl (by decide) (setInt_bit _ _ _ rfl (by decide) ?_), ?_, fun die d hdie hd hh => ?_⟩
  · rw [State.stby, f_of_rd (hc.rd _ (by decide)), f_of_rd (rd_setInt_own (by decide) rfl), f_setF_same _ _ _ _ (by decide)]
    rfl
  · rw [pageOn_setF_stby, h3.pageOn, hw, pageOn_pwr1, h1.pw, h1.part, ← pageOn_pwr1]
    exact hon
  · rw [hend _ (by decide) (by decide), hend _ (by decide) (by decide), hbuf]
  · have hs := domStat_pwrReg die hdie (d / 32) (by omega)
    have hne : Rg.PWR_DOM_STAT die (d / 32) ≠ Rg.PWR_STBY 1 := by
      have : d / 32 < 2 := by omega
      interval_cases die <;> interval_cases d / 32 <;> decide
    rw [State.domOn, hend _ (by rw [exitReg, hs]; rfl) hne, h3.rd _ hs, w1, ← State.domOn, hdom die d hdie hd hh]

/-! ## The obligation -/

theorem present_pwr1 (p : Part) : pagePresent p (Pg.PWR 1 / 0x1000) = true := by cases p <;> decide

/-- Settles O59: requests, ramps and losses act on their own domain; the power pages stay through an entry into standby and an exit. -/
theorem powerDomainsAndStandby : Obligations.PowerDomainsAndStandby := by
  refine ⟨fun s a v die w b d req hdie hw hb hd hreq hm hbit => ?_, fun s a v page die d hm hpd h1 h2 hv hr hc hon hh => ?_,
    fun s a v q hq hm hv hc => ?_, fun s a v page hm h30 h29 => ?_, fun s die d k hdie hd hk => ?_, fun s a v k used hm hk hu => ?_, fun s pin clk => ?_⟩
  · subst hreq
    have hon : s.pageOn (Pg.PWR die / 0x1000) = true := by
      have h := mayWrite_pageOn hm
      have e : Rg.PWR_DOM_REQ die w / 0x1000 = Pg.PWR die / 0x1000 := by interval_cases die <;> interval_cases w <;> rfl
      rwa [e] at h
    rw [powerRequest_one hdie hw hb hm hbit, ← hd]
    exact ⟨fun h => congrArg Host.Outcome.next (domAsk_absent h), fun hh hc => ⟨_, rfl, request_shows hdie hw hb hd hon hbit rfl hh hc⟩⟩
  · have hp : s.pageOn page = true := by
      have h := mayWrite_pageOn hm
      rwa [show (page * 0x1000 + 0x008) / 0x1000 = page by omega] at h
    exact ⟨_, pgCtrl_request hm, pgCtrl_shows hpd h1 h2 hv hr hc hon hh hp⟩
  · exact ⟨_, congrArg Host.Outcome.next (onWrite_of s a _ (fun t => t.caldPwr v.toNat (reqNo a.req)) hm), caldPwr_shows hq (mayWrite_pageOn hm) hv hc⟩
  · have e : exec (.enable a page v) s = .next (s.pgCtrlWrite page v.toNat (reqNo a.req)) :=
      congrArg Host.Outcome.next (onWrite_of s a _ (fun t => t.pgCtrlWrite page v.toNat (reqNo a.req)) hm)
    obtain ⟨r1, r2, r3⟩ := enable_shows (by' := reqNo a.req) h30 h29
    rw [e]
    exact ⟨fun h => ⟨_, rfl, r1 h⟩, fun x y => ⟨_, rfl, r2 x y⟩, fun x y z => congrArg Host.Outcome.next (r3 x y z)⟩
  · have e1 : exec (.domainPowerOffDone die d) s = .next (s.domOffDone die d) := congrArg (fun q => Host.Outcome.next (s.domOffDone q d)) (Nat.mod_eq_of_lt hdie)
    have e2 : exec (.domainPowerOnDone die d) s = .next (s.domOnDone die d) := congrArg (fun q => Host.Outcome.next (s.domOnDone q d)) (Nat.mod_eq_of_lt hdie)
    rw [e1, e2]
    exact ⟨fun h => congrArg Host.Outcome.next (domOff_idle (hk ▸ h)), fun h => congrArg Host.Outcome.next (domOn_idle (hk ▸ h)),
      fun h hon => ⟨_, rfl, domOff_shows hdie hd hk h hon⟩, fun h hon hreq => ⟨_, rfl, domOn_shows hdie hd (hk ▸ h) hon hreq⟩⟩
  · have e1 : exec (.standbyEnter a v) s = .next (s.stbyWrite a.req v.toNat) :=
      congrArg Host.Outcome.next (onWrite_of s a _ (fun t => t.stbyWrite a.req v.toNat) hm)
    have e2 : exec (.standbyExit a v) s = .next (s.stbyWrite a.req v.toNat) :=
      congrArg Host.Outcome.next (onWrite_of s a _ (fun t => t.stbyWrite a.req v.toNat) hm)
    obtain ⟨r1, r2, r3⟩ := stby_shows (who := a.req) (mayWrite_pageOn hm) hk hu
    rw [e1, e2]
    exact ⟨fun code h hc => ⟨_, rfl, r1 code h hc⟩, fun h x y z w => ⟨_, rfl, r2 h x y z w⟩, fun h => ⟨_, rfl, r3 h⟩⟩
  · refine ⟨fun h => congrArg Host.Outcome.next (stbyExit_idle h), fun h => ⟨_, rfl, ?_⟩, fun h => congrArg Host.Outcome.next (if_neg h),
      fun hp h1 h2 h3 h4 h5 h6 => ⟨_, congrArg Host.Outcome.next (if_pos h3), ?_⟩, fun h => congrArg Host.Outcome.next (if_pos h),
      fun h hon => ⟨_, rfl, stbyEntered_shows h hon⟩, fun h => congrArg Host.Outcome.next (if_pos h), fun h hon => ⟨_, rfl, stbyExited_shows h hon⟩⟩
    · obtain ⟨e1, e2, -⟩ := stbyExit_shows h
      exact ⟨e1, e2⟩
    · have hon : s.pageOn (Pg.PWR 1 / 0x1000) = true := by
        rw [pageOn_pwr1, h1, h2, present_pwr1]
        rfl
      obtain ⟨g1, -, g3⟩ := gpio_shows (i := pin) (clk := clk) (level := true) hp hon h1 h2 (by rw [h4]; decide) rfl
      exact ⟨((g3 (.inr h3)).1 (.inl h5)).2 h3 rfl h6, g1⟩

end Sys2Proof.Machine
end
